-- ==== Sys2Proof/Word.lean ====
section
/-! DEFINITION. The words of the T6416 and their plainest arithmetic (00_scope R5, R6). -/

namespace Sys2Proof

/-- A byte. -/
abbrev Byte := BitVec 8
/-- A 32-bit set-up register (R6). -/
abbrev Word32 := BitVec 32
/-- A 64-bit counter or Vertex register. -/
abbrev Word64 := BitVec 64
/-- A 128-bit cipher block, byte 0 most significant. -/
abbrev Block := BitVec 128

end Sys2Proof
end

