-- ==== Sys2Proof/Syntax.lean ====
section
/-! DEFINITION. The commands of the T6416: one constructor of `Instr` per row of opcode_table.json, with the operands the
outside world, firmware or the part's own timers supply. -/

namespace Sys2Proof

/-- Client or line side (Table 0.2). -/
inductive Side where
  | client | line
  deriving DecidableEq, Repr

/-- Direction through a Prism (Table 4.1 DIR). -/
inductive Dir where
  | transmit | receive
  deriving DecidableEq, Repr

/-- What the SEC-DED check of a memory read found (R398, R224, R349). -/
inductive Ecc where
  | clean | corrected | uncorrectable
  deriving DecidableEq, Repr

/-- Who writes a register: Compass or the debug port (R567). -/
inductive Source where
  | compass | debugPort
  deriving DecidableEq, Repr

/-- The two mailboxes of Apex: the Compass mailbox and the debug port's (R39, R40). -/
inductive Mbx where
  | compass | debugPort
  deriving DecidableEq, Repr

/-- The two external memories (R399). -/
inductive MemKind where
  | hbm | ddr
  deriving DecidableEq, Repr

/-- The kinds of ring (Table 20.3), in the order of Table 22.21. -/
inductive RingKind where
  | command | completion | event | management
  deriving DecidableEq, Repr

/-- Families of serial lane (Table 22.21). -/
inductive LaneFamily where
  | client | line | chord
  deriving DecidableEq, Repr

/-- One serial lane: client lane 0-63, line lane 0-63 or Chord lane 0-8 (Table 0.2, 18_serial_lanes). -/
structure Lane where
  family : LaneFamily
  idx : Fin 64
  deriving DecidableEq, Repr

/-- A Vertex thread: engines 0-255 lie in Prism e/16, engines 256-287 in Radius; 8 threads each (R211, R212). -/
structure Tid where
  eng : Fin 288
  thr : Fin 8
  deriving DecidableEq, Repr

/-- A Vertex instruction as its thread issues it, with what the SEC-DED check of its fetch found (R215). -/
structure Issue where
  t : Tid
  imem : Ecc
  deriving DecidableEq, Repr

/-- A block instruction as its thread issues it, with whether a staging line that its descriptor reads shows wrong parity (R200). -/
structure BlockIssue where
  i : Issue
  perr : Bool
  deriving DecidableEq, Repr

/-- What a dispatch finds: wrong parity in the item's staging lines (R200), and whether the image that runs is taken for the shipped one
(log entry 143). -/
structure DispatchFinds where
  perr : Bool
  shipped : Bool
  deriving DecidableEq, Repr

/-- The thread that a Radius item goes to, and whether the image that runs is taken for the shipped one (log entry 143). -/
structure RadiusThread where
  t : Tid
  shipped : Bool
  deriving DecidableEq, Repr

/-- What reading a diverted batch finds: an inbound entry that shows an uncorrectable error (R357), and the checks of its cells (R349). -/
structure BatchRead where
  poison : Bool
  ecc : Ecc
  deriving DecidableEq, Repr

/-- One 64-byte ring descriptor and the command ring it came from (R468). Byte i of the descriptor is bits 8i+7 to 8i of `word`. -/
structure Desc where
  ring : Fin 64
  word : BitVec 512
  deriving DecidableEq, Repr

/-- The row NOP is both the ring command NOP and the Vertex instruction NOP (R511, R245). -/
inductive NopOf where
  | command (d : Desc)
  | instruction (i : Issue)
  deriving DecidableEq, Repr

/-- Supply rails (Table 23.5). The number is RAIL_ID. -/
structure Rail where
  id : Fin 16
  deriving DecidableEq, Repr

/-- How a warm reset is asked for: RESET_N low, or a write of 1 to CPR_RESET.WARM (R539). -/
inductive ResetBy where
  | pin | reg (src : Source)
  deriving DecidableEq, Repr

/-- Paths that carry Octeg (R480). -/
inductive OctegPath where
  | chord | arbiter
  deriving DecidableEq, Repr

/-- Why the Chord link went down (Table 22.21, event 0x301). -/
inductive LinkDownCause where
  | clockLane | silence | tagFailures
  deriving DecidableEq, Repr

/-- Client data offered to one Facet tributary slot for one frame period: the 66-bit blocks that the client edge has decoded, the first
bit of each in bit 0 (R155). -/
structure ClientBlocks where
  slot : Fin 4
  blocks : List (BitVec 66)
  deriving DecidableEq, Repr

/-- What a Facet frame is made of and sent with: the client data, and wrong parity in its staging lines (R200). -/
structure FacetSend where
  client : List ClientBlocks
  perr : Bool
  deriving DecidableEq, Repr

/-- What a line lane shows at a codeword position: its first two symbols before decoding, the marker count decoded, and when it arrived in
ns (R143, R170). -/
structure MarkerSeen where
  lane : Fin 4
  first : BitVec 10
  second : BitVec 10
  count : BitVec 20
  arrival : Nat
  deriving DecidableEq, Repr

/-- Why a verified read failed (R414). -/
inductive VerifyCause where
  | mac | node | poisoned | tainted
  deriving DecidableEq, Repr

/-- The verification result of a delivered CONF+INT read, with the node of an uncorrectable node read (R414, R418). -/
inductive VerifyResult where
  | ok
  | failed (cause : VerifyCause) (node : Option (Nat × Nat))
  deriving DecidableEq, Repr

/-- Who received speculative data that is now verified: a Vertex thread's oldest unverified read, or a Compass core's read (R414, R415). -/
inductive Reader where
  | thread (t : Tid)
  | compass (core : Fin 8) (addr : BitVec 40)
  deriving DecidableEq, Repr

/-- The commands: one constructor per row of opcode_table.json. -/
inductive Instr where
  /-- CLIENT_FRAME_RECEIVE (R15). A frame arrives whole at a client logical port; the client edge checks its FCS and stamps it, Locus classifies it, Tessera writes it and Sector admits or refuses it. -/
  | clientFrameReceive (lp : Fin 64) (frame : List Byte) (perr : Bool) (em : List (Fin 4))
  /-- LINE_FRAME_RECEIVE (R18). A frame arrives whole at a line logical port on the frame path; the line edge checks its FCS and Prism n parses and checks its SecTAG and finds its association. -/
  | lineFrameReceive (lp : Fin 64) (frame : List Byte)
  /-- SECTOR_DEQUEUE (R366). When an egress logical port can take a frame, Sector selects one by the committed and excess passes, applies the gate check and hands the frame to the Prism or the client edge. -/
  | sectorDequeue (side : Side) (lp : Fin 64) (ecc : Ecc)
  /-- PRISM_DISPATCH (R217). Once a thread, staging and a reorder slot are free, the Prism dispatcher hands a frame, Facet frame or CRYPTO_BLOCK chunk to a thread with its frame context. -/
  | prismDispatch (prism : Fin 16) (found : DispatchFinds)
  /-- REORDER_RELEASE (R21). The Prism releases the next disposed frame of a logical port and direction in arrival order toward the line edge or Locus. -/
  | reorderRelease (lp : Fin 64) (dir : Dir) (perr : Bool) (parser : Bool) (em : List (Fin 4))
  /-- PUNT_COPY (R359). Annulus copies a punted frame into its punt queue entry and frees its cells, or drops it when the queue is full. -/
  | puntCopy (ecc : Ecc)
  /-- FACET_FRAME_TRANSMIT (R162). At each Facet frame period the transport-path port maps its tributaries, takes a frame counter, encrypts and sends one Facet frame, or sends an unkeyed or AIS-S frame. -/
  | facetFrameTransmit (n : Fin 16) (send : FacetSend)
  /-- FACET_FRAME_RECEIVE (R173). A received Facet frame is aligned, classified by its tag, demapped and delivered, and its overhead and parity are checked. -/
  | facetFrameReceive (n : Fin 16) (errors : List (Fin 545)) (frame : List Byte) (perr : Bool)
  /-- MARKER_CODEWORD_RECEIVE (R170). A marker codeword on the port's lanes advances the marker lock states and deskew. -/
  | markerCodewordReceive (n : Fin 16) (pos : Nat) (lanes : List MarkerSeen)
  /-- LOS_DECLARE (R177). After 10 us without signal on every lane the Facet receiver declares LOS. -/
  | losDeclare (n : Fin 16)
  /-- LOS_CLEAR (R177). After 100 us of signal on every lane the Facet receiver clears LOS. -/
  | losClear (n : Fin 16)
  /-- NOP (R511). The NOP command or instruction does nothing and completes. -/
  | nop (o : NopOf)
  /-- ALU_REGISTER_OP (R242). ADD, SUB, AND, OR, XOR, ANDN, SHL, SHR, SAR or ROL writes gd from two registers. -/
  | aluRegisterOp (op : Issue)
  /-- MUL (R245). MUL writes the low 64 bits of the product. -/
  | mul (op : Issue)
  /-- MULHU (R245). MULHU writes the high 64 bits of the unsigned product. -/
  | mulhu (op : Issue)
  /-- ALU_IMMEDIATE_OP (R242). ADDI, ANDI, ORI, XORI, SHLI, SHRI, SARI or ROLI writes gd from a register and a sign-extended immediate. -/
  | aluImmediateOp (op : Issue)
  /-- MOVI (R245). MOVI loads a sign-extended immediate. -/
  | movi (op : Issue)
  /-- MOVHI (R245). MOVHI writes the upper 32 bits of gd. -/
  | movhi (op : Issue)
  /-- EXT (R245). EXT extracts a zero-extended bit field. -/
  | ext (op : Issue)
  /-- INS (R245). INS inserts a bit field into gd. -/
  | ins (op : Issue)
  /-- POPC_CLZ_BSWAP (R245). POPC, CLZ or BSWAP counts ones, counts leading zeros or reverses bytes. -/
  | popcClzBswap (op : Issue)
  /-- BSET (R245). BSET builds a 128-bit block register from two g registers. -/
  | bset (op : Issue)
  /-- BGET (R245). BGET copies one half of a block register to gd. -/
  | bget (op : Issue)
  /-- BXOR (R245). BXOR XORs two block registers. -/
  | bxor (op : Issue)
  /-- MOVS (R245). MOVS reads fctx or tid into gd. -/
  | movs (op : Issue)
  /-- CMP (R246). A register compare combines its result into a predicate. -/
  | cmp (op : Issue)
  /-- CMPI (R246). An immediate compare combines its result into a predicate. -/
  | cmpi (op : Issue)
  /-- LD (R247). LD loads 1 to 8 bytes from local or scratch memory. -/
  | ld (op : Issue) (ecc : Ecc)
  /-- ST (R247). ST stores 1 to 8 bytes to local or scratch memory. -/
  | st (op : Issue)
  /-- LDB (R247). LDB loads 16 bytes from local or scratch memory. -/
  | ldb (op : Issue) (ecc : Ecc)
  /-- STB (R247). STB stores 16 bytes to local or scratch memory. -/
  | stb (op : Issue)
  /-- LDH (R248). LDH issues a speculative HBM or DDR load through Hull. -/
  | ldh (op : Issue)
  /-- STH (R248). STH acts as a verify fence and posts an HBM or DDR store. -/
  | sth (op : Issue)
  /-- LDHB (R248). LDHB issues a speculative 16-byte HBM or DDR load. -/
  | ldhb (op : Issue)
  /-- STHB (R248). STHB fences and posts a 16-byte HBM or DDR store. -/
  | sthb (op : Issue)
  /-- VFENCE (R225). VFENCE holds the thread until every earlier external read has its verification result, and faults on a failure. -/
  | vfence (op : Issue)
  /-- FGET (R251). FGET reads 1 to 8 frame bytes in wire order, waiting for bytes not yet arrived. -/
  | fget (op : Issue) (perr : Bool)
  /-- FPUT (R251). FPUT writes 1 to 8 frame bytes. -/
  | fput (op : Issue)
  /-- FGETB (R251). FGETB reads a 16-byte frame block. -/
  | fgetb (op : Issue) (perr : Bool)
  /-- FPUTB (R251). FPUTB writes a 16-byte frame block. -/
  | fputb (op : Issue)
  /-- SALOAD (R253). SALOAD resolves the association, optionally locks its context and captures the key and generation, starting the operation. -/
  | saload (op : Issue)
  /-- PNTAKE (R256). PNTAKE takes the next counter value in arrival order or refuses with a reason, applying exhaustion, ceilings and PN triggers. -/
  | pntake (op : Issue)
  /-- CLD (R255). CLD reads 8 bytes of the loaded association context. -/
  | cld (op : Issue)
  /-- CST (R255). CST writes 8 microcode bytes of the context while the lock is held. -/
  | cst (op : Issue)
  /-- BENC (R260). BENC issues a forward-cipher block descriptor. -/
  | benc (op : BlockIssue)
  /-- BDEC (R260). BDEC issues an inverse-cipher block descriptor. -/
  | bdec (op : BlockIssue)
  /-- BCTR (R260). BCTR issues a counter-mode burst descriptor. -/
  | bctr (op : BlockIssue)
  /-- GFACC (R260). GFACC issues a GHASH accumulation descriptor. -/
  | gfacc (op : BlockIssue)
  /-- TAGFIN (R260). TAGFIN folds the length block, encrypts J0 and writes the tag. -/
  | tagfin (op : BlockIssue)
  /-- TAGCMP (R260). TAGCMP compares tag bytes in constant time and writes a predicate at completion. -/
  | tagcmp (op : BlockIssue)
  /-- CAS (R250). CAS compares and swaps a scratch word atomically. -/
  | cas (op : Issue) (ecc : Ecc)
  /-- FADD (R250). FADD adds to a scratch word atomically and returns the old value. -/
  | fadd (op : Issue) (ecc : Ecc)
  /-- BR (R262). BR branches to an immediate instruction index. -/
  | br (op : Issue)
  /-- BRR (R262). BRR branches to the index in a register. -/
  | brr (op : Issue)
  /-- CALL (R262). CALL pushes the return index and branches. -/
  | call (op : Issue)
  /-- RET (R262). RET pops the return stack and branches. -/
  | ret (op : Issue)
  /-- WAIT (R261). WAIT holds the thread until at most n descriptors remain outstanding. -/
  | wait (op : Issue)
  /-- YIELD (R263). YIELD makes the thread ineligible until the other ready threads have issued. -/
  | yield (op : Issue)
  /-- HALT (R222). HALT ends the work item, dropping it if no disposition preceded. -/
  | halt (op : Issue)
  /-- EMIT (R264). EMIT fences and releases the work item to the reorder buffer, or in Radius writes output and the record back. -/
  | emit (op : Issue)
  /-- DROP (R265). DROP ends the work item with a reason, counts it and zeroises its staging. -/
  | drop (op : Issue)
  /-- PARK (R266). PARK holds a MACsec transmit frame in staging and stops its Sector queue. -/
  | park (op : Issue)
  /-- REDO (R267). REDO ends the operation and dispatches the frame again with a fresh SALOAD. -/
  | redo (op : Issue)
  /-- EVT (R268). EVT fences and raises a microcode event 0x1A0 to 0x1AF. -/
  | evt (op : Issue)
  /-- DESCRIPTOR_COMPLETE (R199). A block descriptor completes, freeing its slot and waking waiting threads. -/
  | descriptorComplete (t : Tid) (idx : Fin 8)
  /-- HBM_LOAD_RETURN (R248). Speculative HBM or DDR load data returns to a waiting thread. -/
  | hbmLoadReturn (t : Tid) (ecc : Ecc)
  /-- VERIFICATION_RESULT (R414). Hull reports the verification result of a delivered CONF+INT read, raising a failure and a Compass machine check when it fails. -/
  | verificationResult (r : Reader) (res : VerifyResult)
  /-- THREAD_WATCHDOG_EXPIRY (R228). A thread's watchdog count reaches its limit and the thread faults with WATCHDOG. -/
  | threadWatchdogExpiry (t : Tid)
  /-- DEBUG_HALT (R216). The debug port halts a thread into DEBUG under right 2 or 3. -/
  | debugHalt (t : Tid)
  /-- DEBUG_RESUME (R216). The debug port resumes a thread to the state it held before. -/
  | debugResume (t : Tid)
  /-- PC_SAMPLE (R235). Every PERIOD clocks the cluster takes a program-counter sample of each selected engine. -/
  | pcSample (c : Fin 17)
  /-- ENGINE_RESET (R229). A write of VERTEX_ENG_RESET.GO faults every busy thread of the engine, holds them and zeroes local memory. -/
  | engineReset (c : Fin 17) (value : Word32) (src : Source)
  /-- LC_TRANSITION (R45). Apex performs a permitted life-cycle transition: intent word, erase, counter burn, DONE and completion. -/
  | lcTransition (m : Mbx)
  /-- DBG_CHALLENGE (R56). Apex returns 32 fresh challenge bytes and invalidates earlier challenges. -/
  | dbgChallenge (m : Mbx)
  /-- DBG_UNLOCK (R55). Apex checks a debug certificate and grants its rights, or counts a failed attempt. -/
  | dbgUnlock (m : Mbx)
  /-- MEAS_EXTEND (R50). Apex extends an unlocked measurement register with a digest. -/
  | measExtend (m : Mbx)
  /-- MEAS_READ (R50). Apex returns a measurement register. -/
  | measRead (m : Mbx)
  /-- ALARM_ACK (R60). Apex clears the always-on alarm latch. -/
  | alarmAck (m : Mbx)
  /-- SECVER_RAISE (R53). Apex raises the minimum security version held in OTP for an image type. -/
  | secverRaise (m : Mbx)
  /-- SEAL (R87). Apex seals a payload into a blob under the sealing key of the current state and policy. -/
  | seal (m : Mbx)
  /-- UNSEAL (R88). Apex unseals a blob and returns an exportable plaintext. -/
  | unseal (m : Mbx)
  /-- UNSEAL_TO_SLOT (R88). Apex unseals a blob into the pending half of a GK or WK slot and returns the KCV. -/
  | unsealToSlot (m : Mbx)
  /-- SEAL_MIGRATE (R89). Apex reseals a blob under expected measurement values. -/
  | sealMigrate (m : Mbx)
  /-- BLOB_COMMIT (R90). Apex erases a flash sector, programs a blob and reads it back. -/
  | blobCommit (m : Mbx)
  /-- BLOB_FETCH (R88). Apex returns the blob found at a flash offset. -/
  | blobFetch (m : Mbx)
  /-- SUPPLY_HOLD_TIMEOUT (R49). A supply warning lasting 1 s before an OTP or flash write completes the request with SUPPLY_HOLD. -/
  | supplyHoldTimeout (m : Mbx)
  /-- COMPASS_RELEASE (R54). Apex releases the Compass cores at the boot loader entry address, or holds them when no boot loader verifies. -/
  | compassRelease
  /-- ALARM (R59). An alarm source zeroises every key, squelches transmitters, latches the cause, drives ALARM_N low and holds the device in reset. -/
  | alarm (cause : Fin 32) (rail : BitVec 8)
  /-- KEY_STAGE (R67). Axis writes a slot's pending half from a plain or wrapped key and returns its KCV. -/
  | keyStage (d : Desc)
  /-- KEY_VERIFY (R69). Axis compares the KCV of the pending half and marks it VERIFIED or erases it. -/
  | keyVerify (d : Desc)
  /-- KEY_COMMIT (R70). Axis moves the verified pending half into the active half and increments the generation. -/
  | keyCommit (d : Desc)
  /-- KEY_ERASE (R73). Axis erases a half for new operations and zeroises it after the drain. -/
  | keyErase (d : Desc)
  /-- KEY_DERIVE (R80). Axis derives a child key by SP 800-108 counter-mode CMAC into the child's pending half. -/
  | keyDerive (d : Desc)
  /-- KEY_INVALIDATE (R77). Axis invalidates a slot under its CASCADE or RETIRE mode. -/
  | keyInvalidate (d : Desc)
  /-- GENERATION_DRAIN_END (R72). The in-flight count of a replaced generation reaches zero and Axis zeroises its material, completing any waiting erase or commit. -/
  | generationDrainEnd (slot : Nat)
  /-- MARKING_PASS_END (R78). The CASCADE marking pass ends and KEY_INVALIDATE completes with the count of descendants. -/
  | markingPassEnd
  /-- SWEEP_PASS_START (R82). Every PERIOD_MS a new mask sweep pass starts. -/
  | sweepPassStart
  /-- SWEEP_SLOT_VISIT (R82). The sweep replaces the masks of one slot's halves in one write. -/
  | sweepSlotVisit (slot : Nat)
  /-- MASK_OVERDUE (R82). A mask grows older than 64 ms, setting SWEEP_OVERDUE. -/
  | maskOverdue
  /-- DRBG_RESEED (R83). After 1,048,576 requests the DRBG reseeds, or stops Axis serving when entropy is unhealthy. -/
  | drbgReseed
  /-- ENTROPY_HEALTH_FAIL (R83). The entropy source fails a health test. -/
  | entropyHealthFail
  /-- ENTROPY_RECOVERY (R83). Healthy entropy returns and Axis resumes serving, restarting the sweep. -/
  | entropyRecovery
  /-- SA_CREATE (R493). A FREE association context is created from an image, with its checks, NEXT and state. -/
  | saCreate (d : Desc)
  /-- SA_MODIFY (R494). Selected fields of an association context are modified. -/
  | saModify (d : Desc)
  /-- SA_ROTATE (R114). A rotation list is read, validated and armed under a TIME or PN trigger. -/
  | saRotate (d : Desc)
  /-- SA_ROTATE_CANCEL (R496). SA_ROTATE with CANCEL disarms a rotation whose trigger has not come. -/
  | saRotateCancel (d : Desc)
  /-- SA_RETIRE (R495). An association enters RETIRING. -/
  | saRetire (d : Desc)
  /-- SA_READ (R495). The context and counters of an association are written to a buffer. -/
  | saRead (d : Desc)
  /-- ROTATION_ARMED (R114). Arming of a rotation list ends at 100 entries per us, and a PN-triggered SA_ROTATE completes. -/
  | rotationArmed (ring : Fin 64) (tag : BitVec 16)
  /-- ROTATION_TIME_TRIGGER (R115). At the trigger time every Prism switches its armed entries in one clock. -/
  | rotationTimeTrigger (ring : Fin 64) (tag : BitVec 16)
  /-- RETIREMENT_END (R495). A retiring association drains, folds its statistics a last time and becomes FREE. -/
  | retirementEnd (h : BitVec 17)
  /-- OVERLAP_HOLD_EXPIRY (R117). An OVERLAP_MS hold expires and the old receive association or Facet phase stops accepting. -/
  | overlapHoldExpiry (h : BitVec 17)
  /-- CONTEXT_LOCK_LEASE_EXPIRY (R100). A context lock's 10 us lease expires and the lock is released. -/
  | contextLockLeaseExpiry (h : BitVec 17)
  /-- HOLD_LIMIT_EXPIRY (R266). HOLD_MS passes for a parked frame and it is dropped as DROPPED. -/
  | holdLimitExpiry (queue : BitVec 12)
  /-- PARKED_FRAME_REDISPATCH (R266). The case of a parked frame clears and it is dispatched again. -/
  | parkedFrameRedispatch (queue : BitVec 12)
  /-- STATS_FOLD_SWEEP (R120). The statistics sweep folds the counter deltas of the partition's associations into HBM. -/
  | statsFoldSweep (part : Fin 16)
  /-- PORT_ENABLE (R502). A port and sub-ports are enabled on a path with a mode and partners, sampling their registers and starting their lanes. -/
  | portEnable (d : Desc)
  /-- PORT_DISABLE (R502). A port's sub-ports are disabled at the next frame boundary and drained. -/
  | portDisable (d : Desc)
  /-- PORT_DRAIN_END (R207). The Prism and Sector drains of a disabled port end and PORT_DISABLE completes. -/
  | portDrainEnd (side : Side) (n : Fin 16)
  /-- PORT_DISABLE_TIMEOUT (R208). The disable timeout expires and remaining frames are discarded with DRAINED_LATE. -/
  | portDisableTimeout (side : Side) (n : Fin 16)
  /-- GATE_LOAD (R376). A pending gate list is loaded from a buffer. -/
  | gateLoad (d : Desc)
  /-- GATE_ARM (R377). A loaded pending gate list is armed at its base time or an adjusted start. -/
  | gateArm (d : Desc)
  /-- GATE_ARM_CANCEL (R377). GATE_ARM with CANCEL returns an armed list to LOADED. -/
  | gateArmCancel (d : Desc)
  /-- GATE_LIST_START (R377). At the start time the pending gate list becomes operational. -/
  | gateListStart (x : Fin 32)
  /-- GATE_ENTRY_ADVANCE (R375). The operational gate list moves to its next entry as Gnomon time passes the entry's interval. -/
  | gateEntryAdvance (x : Fin 32)
  /-- IND_READ (R379). SECTOR_IND_CTRL GO with WRITE 0 reads a record into the data window. -/
  | indRead (value : Word32)
  /-- IND_WRITE (R379). SECTOR_IND_CTRL GO with WRITE 1 writes a queue, node, policer or status record. -/
  | indWrite (value : Word32)
  /-- UCODE_LOAD (R276). A microcode image is checked and written into a free half of the named clusters. -/
  | ucodeLoad (d : Desc)
  /-- UCODE_ACTIVATE (R277). Dispatch switches to the loaded half of the named clusters. -/
  | ucodeActivate (d : Desc)
  /-- ACTIVATE_DRAIN_END (R278). No thread remains in the old half; the scratch image is written and UCODE_ACTIVATE completes. -/
  | activateDrainEnd (c : Fin 17)
  /-- ACTIVATE_TIMEOUT (R277). The UCODE_ACTIVATE timeout expires with threads in the old half, completing with DRAINED_LATE. -/
  | activateTimeout
  /-- CRYPTO_BLOCK (R206). Raw block encryption under a DK slot is run in chunks by the partition's Prism. -/
  | cryptoBlock (d : Desc)
  /-- RECLAIM (R231). RECLAIM of a Vertex or Radius owner faults its threads and releases everything recorded against them. -/
  | reclaim (d : Desc)
  /-- RECLAIM_TESSERA_OWNER (R351). RECLAIM of a Tessera owner frees the cells it holds and, for a ring, its table locks. -/
  | reclaimTesseraOwner (d : Desc)
  /-- SENSOR_GROUP_SET_GROUP (R290). The parameters of a sensor group are written. -/
  | sensorGroupSetGroup (d : Desc)
  /-- SENSOR_GROUP_SET_ROUTE (R290). A route for Radius-originated frames is written. -/
  | sensorGroupSetRoute (d : Desc)
  /-- SENSOR_GROUP_SET_PROFILE (R290). A downlink window profile is written. -/
  | sensorGroupSetProfile (d : Desc)
  /-- SENSOR_GROUP_SET_QUEUE (R290). A downlink queue is bound to a profile. -/
  | sensorGroupSetQueue (d : Desc)
  /-- SERVICE_ENABLE (R290). Radius is enabled, zeroing its area and drawing a new seed when the table is empty. -/
  | serviceEnable (d : Desc)
  /-- SERVICE_DISABLE (R291). Radius stops taking batches at the next batch boundary and drains. -/
  | serviceDisable (d : Desc)
  /-- RADIUS_DRAIN_END (R291). The last dispatched Radius item reaches its disposition and SERVICE disable completes. -/
  | radiusDrainEnd
  /-- RADIUS_DRAIN_TIMEOUT (R291). The disable timeout expires and remaining Radius items are dropped with DRAINED_LATE. -/
  | radiusDrainTimeout
  /-- SENSOR_WRITE_INSERT (R286). A sensor record is inserted, relocating occupants if needed. -/
  | sensorWriteInsert (d : Desc)
  /-- SENSOR_WRITE_REPLACE (R286). A sensor record is replaced without lowering DL_NEXT or UL_HIGH. -/
  | sensorWriteReplace (d : Desc)
  /-- SENSOR_WRITE_DELETE (R286). A sensor record is deleted. -/
  | sensorWriteDelete (d : Desc)
  /-- SENSOR_WRITE_READ (R286). A sensor record is written to the buffer. -/
  | sensorWriteRead (d : Desc)
  /-- GATEWAY_INSERT (R288). A gateway record is inserted, or a retired one revived. -/
  | gatewayInsert (d : Desc)
  /-- GATEWAY_REPLACE (R288). A gateway record is replaced. -/
  | gatewayReplace (d : Desc)
  /-- GATEWAY_DELETE (R289). A gateway record is retired, or a retired one freed. -/
  | gatewayDelete (d : Desc)
  /-- GATEWAY_READ (R288). A gateway record is written to the buffer. -/
  | gatewayRead (d : Desc)
  /-- SENSOR_CHECKPOINT_WRITE (R307). Dirty sensor records are written to a checkpoint buffer under a generation. -/
  | sensorCheckpointWrite (d : Desc)
  /-- SENSOR_CHECKPOINT_CONFIRM (R307). DL_CKPT is set from DL_PEND for records of the confirmed generation and held downlinks are retried. -/
  | sensorCheckpointConfirm (d : Desc)
  /-- RADIUS_BATCH_TAKE (R294). Radius takes a diverted batch from its inbound queue, checks it and frees its cells. -/
  | radiusBatchTake (read : BatchRead)
  /-- RADIUS_DISPATCH (R295). Once lock, thread and output space are free, Radius dispatches an uplink record or downlink request with its record image. -/
  | radiusDispatch (item : Nat) (thr : RadiusThread)
  /-- BATCH_ACK (R292). Once every record of an ACK_REQUEST batch is disposed, Radius sends an ACK batch. -/
  | batchAck (batch : Nat)
  /-- READING_BATCH_FLUSH (R302). A READING_BATCH datagram is sent when full or FLUSH after its first record. -/
  | readingBatchFlush (group : Fin 4096)
  /-- DOWNLINK_WINDOW_RELEASE (R306). At W minus LEAD_US Radius packs due downlink records into batches and releases them to Sector. -/
  | downlinkWindowRelease (queue : Fin 8192)
  /-- DOWNLINK_EXPIRY (R304). A downlink request or record expires with status EXPIRED. -/
  | downlinkExpiry (entry : Nat)
  /-- RECORD_LOCK_LEASE_EXPIRY (R296). A record lock's 10 us lease expires and the lock is released without write-back. -/
  | recordLockLeaseExpiry (slot : Nat)
  /-- TBL_READ (R499). Exact-match entries, bucket ranges, prefixes or next hops are read to a buffer. -/
  | tblRead (d : Desc)
  /-- TBL_WRITE_INSERT (R331). Entries, prefixes or next hops are inserted. -/
  | tblWriteInsert (d : Desc)
  /-- TBL_WRITE_REPLACE (R331). Entries, prefixes or next hops are replaced. -/
  | tblWriteReplace (d : Desc)
  /-- TBL_WRITE_DELETE (R331). Entries, prefixes or next hops are deleted. -/
  | tblWriteDelete (d : Desc)
  /-- TBL_WRITE_CLEAR_HIT (R331). HIT is cleared in exact-match entries. -/
  | tblWriteClearHit (d : Desc)
  /-- TBL_DELETE_IF_IDLE (R334). An exact-match entry is deleted only if HIT is 0. -/
  | tblDeleteIfIdle (d : Desc)
  /-- TBL_LOCK (R332). Buckets are locked for the ring's owner ID with a 1 ms lease. -/
  | tblLock (d : Desc)
  /-- TBL_UNLOCK (R332). Buckets locked by the owner are released. -/
  | tblUnlock (d : Desc)
  /-- TBL_LOCK_WAIT_TIMEOUT (R500). A table command still waiting on a lock at its timeout completes with LOCKED. -/
  | tblLockWaitTimeout (ring : Fin 64) (tag : BitVec 16)
  /-- TABLE_LOCK_LEASE_EXPIRY (R332). A table lock's lease expires and Locus releases it. -/
  | tableLockLeaseExpiry (bucket : BitVec 18)
  /-- LEARN_REQUEST_APPLY (R329). The learn arbiter applies the next queued request against the table. -/
  | learnRequestApply
  /-- MOVE_HOLD_EXPIRY (R329). HOLD_US passes and a key leaves the move-hold cache. -/
  | moveHoldExpiry (profile : Fin 16) (key : BitVec 128)
  /-- EM_TABLE_CLEAR (R320). A write of LOCUS_EM_CFG.CLEAR empties the exact-match table and draws a new seed. -/
  | emTableClear (value : Word32)
  /-- TESSERA_POOL_WRITE (R339). A write to TESSERA_POOL_p enables or reconfigures a pool, or is ignored. -/
  | tesseraPoolWrite (pool : Fin 4) (value : Word32)
  /-- TESSERA_OWNER_WRITE (R339). A write to an owner's POOL or MIN field is applied or ignored. -/
  | tesseraOwnerWrite (owner : BitVec 8) (isMin : Bool) (value : Word32)
  /-- FREE_LIST_BUILD_END (R339). The free lists of an enabled pool are built and allocations proceed. -/
  | freeListBuildEnd (pool : Fin 4)
  /-- FREE_LIST_REBUILD_END (R350). A free list broken by an ECC error is rebuilt from cell states. -/
  | freeListRebuildEnd (pool : Fin 4) (bank : Fin 64)
  /-- QUEUE_ENABLE (R353). ANNULUS_Q_CFG.ENABLE going to 1 samples a queue's configuration, or is ignored. -/
  | queueEnable (q : BitVec 8) (value : Word32)
  /-- QUEUE_DISABLE (R353). Disabling an Annulus queue discards its entries. -/
  | queueDisable (q : BitVec 8) (value : Word32)
  /-- QUEUE_RELEASE (R356). A write to ANNULUS_Q_RELEASE returns the oldest counted entries to Annulus. -/
  | queueRelease (q : BitVec 8) (value : Word32)
  /-- BANK_SWAP (R355). A ping-pong queue swaps banks when the drain bank is released and the fill bank holds an entry. -/
  | bankSwap (q : BitVec 8)
  /-- ENTRY_WRITE_COMPLETE (R356). An entry's HBM write completes and Annulus adds it to COUNT, or stops at poison. -/
  | entryWriteComplete (q : BitVec 8) (poison : Bool)
  /-- HULL_REGION_CREATE (R402). A Hull region is created with keys, rights and optional fill. -/
  | hullRegionCreate (d : Desc)
  /-- HULL_REGION_RIGHTS (R406). New rights are applied to an existing region. -/
  | hullRegionRights (d : Desc)
  /-- HULL_REGION_FILL (R419). A pattern is filled over a line range, clearing taints within it. -/
  | hullRegionFill (d : Desc)
  /-- HULL_REGION_DELETE (R402). New accesses to a region stop and it is deleted after accepted accesses complete. -/
  | hullRegionDelete (d : Desc)
  /-- DELETE_DRAIN_END (R402). Accepted accesses of a deleted region complete, its keys are zeroised and it becomes OFF. -/
  | deleteDrainEnd (mem : MemKind) (r : Fin 16)
  /-- FILL_COMPLETE (R402). A region fill completes and an INIT region becomes ACTIVE. -/
  | fillComplete (mem : MemKind) (r : Fin 16)
  /-- HULL_REKEY (R420). New region keys are drawn and the region rewrite begins. -/
  | hullRekey (d : Desc)
  /-- REKEY_COMPLETE (R420). A rekey completes, the new keys become active and the region is ACTIVE. -/
  | rekeyComplete (mem : MemKind) (r : Fin 16)
  /-- MINOR_OVERFLOW_PASS_END (R412). The re-encryption pass of a leaf group ends and waiting accesses proceed. -/
  | minorOverflowPassEnd (mem : MemKind) (r : Fin 16) (ns : Nat)
  /-- PATROL_SCRUB (R398). The controller's patrol scrub reads a line and writes back corrected words. -/
  | patrolScrub (addr : BitVec 40) (ecc : Ecc)
  /-- TWIN_CONFIGURE (R442). TWIN_CONFIG CONFIGURE joins the unit to a pair as STANDBY. -/
  | twinConfigure (d : Desc)
  /-- TWIN_SOLO (R442). TWIN_CONFIG SOLO gives a permanent lease without a twin. -/
  | twinSolo (d : Desc)
  /-- TWIN_WIDEN (R445). TWIN_CONFIG WIDEN rejoins every relocked Chord data lane. -/
  | twinWiden (d : Desc)
  /-- TWIN_REMOVE (R442). TWIN_CONFIG REMOVE returns the unit to UNCONFIGURED and bars SOLO. -/
  | twinRemove (d : Desc)
  /-- TWIN_HANDOVER (R458). A planned handover starts on the active, or is requested from the standby. -/
  | twinHandover (d : Desc)
  /-- LEASE_STATUS (R507). The twin status registers, copy sequence and epoch are written to a buffer in one read. -/
  | leaseStatus (d : Desc)
  /-- HANDOVER_TIMEOUT (R458). No acknowledgement of the final copy arrives within the timeout and the unit returns to ACTIVE. -/
  | handoverTimeout
  /-- CHORD_LINK_UP (R444). The clock lane and a data lane are LOCKED and the Chord link starts its hello exchange. -/
  | chordLinkUp
  /-- HELLO_SEND (R481). An end sends HELLO at its period until its session is up. -/
  | helloSend (p : OctegPath)
  /-- HELLO_RECEIVE (R481). A received HELLO brings the session up, restarts it or is refused, deriving the Chord session key. -/
  | helloReceive (p : OctegPath) (msg : List Byte)
  /-- CHORD_HEARTBEAT_SEND (R445). A unit with nothing else to send sends a HEARTBEAT within 10 us. -/
  | chordHeartbeatSend
  /-- CHORD_LINK_DOWN (R445). The link is declared down on clock-lane loss, 100 us of silence or eight tag failures. -/
  | chordLinkDown (cause : LinkDownCause)
  /-- SYNC_CYCLE_START (R447). At its due time the active opens a copy and sends its KEY, KEY_STATE, CONTEXT and NEXT records and COPY_END. -/
  | syncCycleStart
  /-- COPY_RECORDS_RECEIVE (R448). The standby applies received copy records to its keys and shadow contexts. -/
  | copyRecordsReceive (msg : List Byte)
  /-- COPY_END_RECEIVE (R448). The standby receives COPY_END and sends COPY_ACK. -/
  | copyEndReceive (msg : List Byte)
  /-- COPY_ACK_RECEIVE (R448). The active receives COPY_ACK and sets twin ceilings from the acknowledged copy. -/
  | copyAckReceive (msg : List Byte)
  /-- FULL_REQUEST_RECEIVE (R447). The active receives FULL_REQUEST and makes its next copy full. -/
  | fullRequestReceive (msg : List Byte)
  /-- HANDOVER_REQUEST_RECEIVE (R458). A HANDOVER_REQUEST over Chord starts a planned handover on the active. -/
  | handoverRequestReceive (msg : List Byte)
  /-- LEASE_REQUEST_SEND (R450). Every LEASE_MS / 4 the unit sends a LEASE_REQUEST or renewal to the arbiter. -/
  | leaseRequestSend
  /-- LEASE_GRANT (R452). A valid arbiter GRANT gives or renews the lease, or is discarded. -/
  | leaseGrant (msg : List Byte)
  /-- LEASE_DENY (R452). A valid arbiter DENY returns a lapsed unit to STANDBY. -/
  | leaseDeny (msg : List Byte)
  /-- LEASE_EXPIRY (R450). The lease timer expires without renewal and the unit becomes LAPSED. -/
  | leaseExpiry
  /-- STALE_REQUEST_SEND (R454). A twin hold lasting STALE_US makes the active send STALE_REQUEST. -/
  | staleRequestSend
  /-- WAIT_TO_RESTORE_EXPIRY (R459). The preferred unit's wait-to-restore timer expires and it sends HANDOVER_REQUEST. -/
  | waitToRestoreExpiry
  /-- DOORBELL_WRITE (R466). A doorbell write gives a command ring a new producer index, or puts it in ERROR. -/
  | doorbellWrite (r : Fin 64) (value : Word32)
  /-- COMMAND_FETCH (R470). Annulus fetches descriptors round-robin from command rings with room. -/
  | commandFetch
  /-- RING_ENABLE (R465). RING_CFG.ENABLE 1 enables a ring, or puts it in ERROR on a bad configuration. -/
  | ringEnable (kind : RingKind) (r : Fin 64) (value : Word32)
  /-- RING_DISABLE (R476). RING_CFG.ENABLE 0 stops a ring, draining a command ring. -/
  | ringDisable (kind : RingKind) (r : Fin 64) (value : Word32)
  /-- RING_DRAIN_END (R476). The last outstanding descriptor of a draining command ring completes and the ring is DISABLED. -/
  | ringDrainEnd (r : Fin 64)
  /-- RING_CI_WRITE (R475). A write of RING_CI consumes records and re-evaluates the ring's interrupt. -/
  | ringCiWrite (kind : RingKind) (r : Fin 64) (value : Word32)
  /-- INTERRUPT_DELAY_EXPIRY (R475). The oldest unsignalled record has waited INT_US and the ring asserts its interrupt. -/
  | interruptDelayExpiry (kind : RingKind) (r : Fin 64)
  /-- EVENT_RECORD_WRITE (R516). The telemetry unit writes the next taken raise into its event ring. -/
  | eventRecordWrite
  /-- MGMT_FRAME_RECEIVE (R479). A management port receives a frame into an owned descriptor, or passes arbiter frames to the redundancy controller. -/
  | mgmtFrameReceive (k : Fin 2) (frame : List Byte)
  /-- MGMT_DOORBELL (R479). A management doorbell makes the port send descriptors up to PI. -/
  | mgmtDoorbell (m : Fin 4) (value : Word32)
  /-- MGMT_LINK_CHANGE (R478). A management port's link state changes. -/
  | mgmtLinkChange (k : Fin 2) (up : Bool) (speed : BitVec 2)
  /-- FENCE (R471). FENCE orders the ring's descriptors around itself and completes. -/
  | fence (d : Desc)
  /-- SET_INTERFACE_VERSION (R469). The descriptor and record version in force is changed. -/
  | setInterfaceVersion (d : Desc)
  /-- FRAME_SEND (R477). Firmware sends one frame or management-channel message from a buffer. -/
  | frameSend (d : Desc)
  /-- RESYNC (R483). A consistent control-state summary is captured and written to a buffer. -/
  | resync (d : Desc)
  /-- SNAPSHOT_NOW (R523). A capture is taken at the clock the command starts. -/
  | snapshotNow (d : Desc)
  /-- SNAPSHOT_AT_TIME (R523). A capture is armed for a Gnomon time. -/
  | snapshotAtTime (d : Desc)
  /-- SNAPSHOT_FREEZE (R521). Every programmable counter stops. -/
  | snapshotFreeze (d : Desc)
  /-- SNAPSHOT_THAW (R521). Programmable counters restart. -/
  | snapshotThaw (d : Desc)
  /-- CAPTURE (R522). At capture instant C the unit copies counters, event status and raise counts and writes them to the buffer. -/
  | capture
  /-- SNAP_IN_EDGE (R523). A SNAP_IN edge is time-stamped and requests a pin capture. -/
  | snapInEdge (level : Bool)
  /-- SNAP_IN_FREEZE_LEVEL (R521). SNAP_IN reaching or leaving its freeze level stops or restarts the programmable counters. -/
  | snapInFreezeLevel (level : Bool)
  /-- COUNTER_READ (R519). A write of TELE_CNT_ID clears CNT_READY and starts a block counter read. -/
  | counterRead (value : Word32)
  /-- COUNTER_READ_READY (R519). The counter value is placed in TELE_CNT_LO and HI and CNT_READY sets. -/
  | counterReadReady
  /-- PC_LO_READ (R568). A read of TELE_PC_LO_k latches its HI half. -/
  | pcLoRead (k : Fin 2048)
  /-- GNOMON_SET (R384). GNOMON_CTRL.SET loads a new time, firing triggers and a tick as required. -/
  | gnomonSet (value : Word32)
  /-- GNOMON_STEP (R384). GNOMON_CTRL.STEP adds a signed offset to the time. -/
  | gnomonStep (value : Word32)
  /-- LOCK_WRITE (R387). Every GNOMON_CTRL write sets LOCK, a servo update or a move to HOLDOVER. -/
  | lockWrite (value : Word32)
  /-- RATE_WRITE (R382). A GNOMON_RATE write sets the synthesiser rate, clamped, and counts as a servo update. -/
  | rateWrite (value : Word32)
  /-- SERVO_TIMEOUT (R387). HOLD_MS passes without a servo update and LOCKED moves to HOLDOVER. -/
  | servoTimeout
  /-- SECOND_TICK (R386). The nanoseconds count wraps and a tick carrying the new second reaches every block, latching per-second counters. -/
  | secondTick
  /-- PPS_OUT_PULSE_END (R392). PPS_OUT falls after WIDTH_MS. -/
  | ppsOutPulseEnd
  /-- PPS_IN_EDGE (R392). A PPS_IN edge latches its Gnomon time and sets NEW. -/
  | ppsInEdge (level : Bool)
  /-- PPS_IN_MISSING (R392). 1.1 s passes without a PPS_IN edge. -/
  | ppsInMissing
  /-- TOD_MESSAGE_SEND (R393). 1 ms after a PPS_OUT edge the time-of-day message starts on TOD_TXD. -/
  | todMessageSend
  /-- TOD_BYTE_RECEIVE (R393). A byte on TOD_RXD enters the FIFO or is lost. -/
  | todByteReceive (b : Byte)
  /-- TOD_RX_READ (R393). A read of GNOMON_TOD_RX removes the oldest byte. -/
  | todRxRead
  /-- TXTS_ENTRY_REMOVE (R391). A read of GNOMON_TXTS_W3 removes the oldest time-stamp entry. -/
  | txtsEntryRemove (x : Fin 32)
  /-- NOW_NS_READ (R568). A read of GNOMON_NOW_NS latches the seconds and fraction. -/
  | nowNsRead
  /-- TRANSMIT_PLL_LOCK (R425). A lane's transmit PLL locks and the lane enters SIGNAL. -/
  | transmitPllLock (l : Lane)
  /-- SIGNAL_DETECT (R426). The signal detector reports signal and the lane enters CDR. -/
  | signalDetect (l : Lane)
  /-- SIGNAL_LOSS (R426). The signal detector reports no signal and the lane returns to SIGNAL. -/
  | signalLoss (l : Lane)
  /-- PHASE_LOCK (R427). The CDR gains phase lock and the lane enters ADAPT or, on a fast relock, LOCKED. -/
  | phaseLock (l : Lane)
  /-- ADAPT_CONVERGED (R425). Equalisation converges and the lane enters LOCKED, or TRAIN on Chord. -/
  | adaptConverged (l : Lane)
  /-- TRAIN_COMPLETE (R430). A Chord lane finds polarity, order and deskew and enters LOCKED. -/
  | trainComplete (l : Lane) (inverted : Bool)
  /-- LOSS_OF_LOCK (R427). A LOCKED lane declares LOL and returns to CDR, bringing its port or sub-port down. -/
  | lossOfLock (l : Lane)
  /-- FAST_RELOCK_EXPIRY (R427). Phase lock has not returned within 10 ms and the lane resets its coefficients. -/
  | fastRelockExpiry (l : Lane)
  /-- LOCK_TIMEOUT (R425). A lane has not reached LOCKED within 500 ms and retries from SIGNAL. -/
  | lockTimeout (l : Lane)
  /-- PCS_ALIGNMENT_LOCK (R438). The PCS of a port whose lanes are all LOCKED regains alignment and the port is up. -/
  | pcsAlignmentLock (side : Side) (n : Fin 16) (sub : Fin 4)
  /-- REFCLK_LOSS (R422). A lane reference clock is lost and its lanes lose lock. -/
  | refclkLoss (k : Fin 4)
  /-- LANE_CFG_WRITE (R428). A LANE_CFG write changes polarity, order, adaptation freeze or loopback. -/
  | laneCfgWrite (l : Lane) (value : Word32)
  /-- LANE_TXEQ_WRITE (R431). A LANE_TXEQ write sets the transmit FIR taps, or is ignored with EQ_ERR. -/
  | laneTxeqWrite (l : Lane) (value : Word32)
  /-- PRBS_CFG_WRITE (R433). A LANE_PRBS write enables the pattern generator or checker, or is ignored. -/
  | prbsCfgWrite (l : Lane) (value : Word32)
  /-- ERROR_INJECT (R434). A write of INJECT inverts one transmitted bit. -/
  | errorInject (l : Lane) (value : Word32)
  /-- PRBS_CHECKER_LOCK_LOSS (R433). The pattern checker loses lock and clears CHK_LOCK. -/
  | prbsCheckerLockLoss (l : Lane)
  /-- EYE_SCAN_GO (R436). LANE_EYE_CTRL.GO starts or restarts an eye-scan point. -/
  | eyeScanGo (l : Lane) (value : Word32)
  /-- EYE_SCAN_DONE (R436). The eye-scan dwell ends and DONE sets, or ABORTED on loss of lock. -/
  | eyeScanDone (l : Lane) (errors : Word32)
  /-- COLD_RESET (R539). PORESET_N low resets all state that a cold reset covers. -/
  | coldReset
  /-- WARM_RESET (R540). RESET_N or CPR_RESET.WARM resets Compass and the rings, keeping the datapath, and Apex reloads the boot loader. -/
  | warmReset (by_ : ResetBy)
  /-- DATAPATH_RESET (R541). CPR_RESET.DATAPATH stops command starts and waits for started datapath commands. -/
  | datapathReset (value : Word32)
  /-- DATAPATH_RESET_COMPLETE (R541). Statistics are folded, ports disabled without drain, threads and cells cleared, and command starting resumes. -/
  | datapathResetComplete
  /-- PORT_BLOCK_RESET (R542). CPR_PORT_RESET.GO resets a disabled port block, or is ignored. -/
  | portBlockReset (value : Word32)
  /-- RAIL_WARNING_ENTRY (R535). A rail below its warning level for 1 us enters WARNING and non-volatile writes are held. -/
  | railWarningEntry (rail : Rail)
  /-- RAIL_WARNING_EXIT (R535). A rail above release for 500 us leaves WARNING and held writes continue. -/
  | railWarningExit (rail : Rail)
  /-- SUPPLY_RESET (R536). A rail below its reset level for 1 us imposes a cold reset. -/
  | supplyReset (rail : Rail)
  /-- OVER_VOLTAGE (R534). A rail above +7 percent for 1 us raises event 0x023. -/
  | overVoltage (rail : Rail)
  /-- AON_BROWN_OUT (R534). VDD_AON below 0.68 V resets the always-on domain, losing the latch and reset cause. -/
  | aonBrownOut
  /-- TEMPERATURE_SAMPLE (R537). Every 100 us the highest die reading updates CPR_TEMP and raises threshold events. -/
  | temperatureSample (high : BitVec 10) (low : BitVec 10)
  /-- THERMAL_TRIP (R538). At 120 C the device squelches, drives THERMTRIP_N low, holds Compass and the datapath and stops clocks. -/
  | thermalTrip
  /-- THERMAL_TRIP_RELEASE (R538). After 100 ms below 100 C the device restarts its domains and releases Compass. -/
  | thermalTripRelease
  /-- MEMORY_PLL_LOSS (R531). An HBM or DDR PHY PLL loses lock and that memory leaves service. -/
  | memoryPllLoss (k : Fin 4)
  /-- GNOMON_PLL_LOSS (R531). The Gnomon synthesiser loses lock and Gnomon enters HOLDOVER on the root PLL. -/
  | gnomonPllLoss
  /-- GNOMON_PLL_RELOCK (R531). The Gnomon synthesiser regains lock. -/
  | gnomonPllRelock
  /-- EXTEST_LOAD (R560). Loading any EXTEST instruction zeroises every key and holds the device in reset until PORESET_N. -/
  | extestLoad
  /-- UART_DATA_WRITE (R570). A write of UART_DATA places a byte in the transmit FIFO. -/
  | uartDataWrite (k : Fin 2) (value : Word32)
  /-- UART_DATA_READ (R570). A read of UART_DATA removes the oldest received byte. -/
  | uartDataRead (k : Fin 2)
  /-- UART_BYTE_RECEIVE (R570). A received UART byte enters the FIFO or sets RX_OVF. -/
  | uartByteReceive (k : Fin 2) (b : Byte)
  /-- I2C_START (R570). I2C_CMD START issues a start condition. -/
  | i2cStart (k : Fin 4)
  /-- I2C_STOP (R570). I2C_CMD STOP issues a stop condition. -/
  | i2cStop (k : Fin 4)
  /-- I2C_READ (R570). I2C_CMD READ reads a byte with or without ACK. -/
  | i2cRead (k : Fin 4) (stop : Bool)
  /-- I2C_WRITE (R570). I2C_CMD WRITE sends DATA. -/
  | i2cWrite (k : Fin 4) (b : Byte)
  /-- I2C_TRANSFER_DONE (R570). An I2C transfer ends, clearing BUSY and recording NACK or ARB_LOST. -/
  | i2cTransferDone (k : Fin 4) (nack : Bool) (arbLost : Bool) (b : Byte)
  /-- REGISTER_WRITE (R9). A write to a register without a row of its own stores, clears or ignores its fields by access type. -/
  | registerWrite (off : Word32) (value : Word32) (src : Source)
  /-- POWER_ON_RESET_RELEASE (R539). PORESET_N rises, or the internal power-on reset of a supply reset is released after the rail recovers, and Apex starts the boot: straps, life-cycle read, transition resume, device root, memory initialisation and image verification. -/
  | powerOnResetRelease
  /-- EXPECTED_MARKER_MISSED (R170). A codeword arrives at a position where a marker is expected but the lane pattern does not match, counting toward the four misses that return marker lock to SEARCH and declare LOFEC. -/
  | expectedMarkerMissed (n : Fin 16) (lane : Fin 4)
  /-- ALIGNMENT_CANDIDATE_MATCH (R171). In OUT or CONFIRM the framer finds the 48-bit alignment word at a bit position of the descrambled stream, or reaches a candidate's expected position, opening, confirming or closing a candidate. -/
  | alignmentCandidateMatch (n : Fin 16) (pos : Nat) (matched : Bool) (mfc : Byte)
  /-- HEARTBEAT_RECEIVE (R445). A HEARTBEAT or any other Chord message arrives and is verified, restarting the 100 us silence timer, or fails its tag and counts toward the eight failures that take the link down. -/
  | heartbeatReceive (msg : List Byte)
  /-- REGISTER_RESULT_ARRIVAL (R243). The result of an earlier instruction with latency, such as a scratch load, CAS, FADD, CLD, SALOAD or MUL, becomes available and a thread WAITING on it returns to READY. -/
  | registerResultArrival (t : Tid)
  /-- UART_BYTE_SENT (R570). The UART transmitter finishes shifting out a byte from its transmit FIFO, updating TX_FULL and TX_EMPTY. -/
  | uartByteSent (k : Fin 2)
  deriving DecidableEq, Repr

end Sys2Proof
end

