-- ==== Sys2Proof/Decode.lean ====
section
/-! DEFINITION. Table words: opcode_table.json gives no row bits, since the T6416 is commanded by descriptors, register accesses, frames
and pins, so no word spells a command (log entry 1). -/

namespace Sys2Proof

/-- The command that a word spells by the table's bits: none, for the table gives no row any bits. -/
def decodeTableWord (_nbits _w : Nat) : Option Instr := none

end Sys2Proof
end

