-- ==== Sys2Proof/Machine/Crypto.lean ====
section
/-! DEFINITION. The cipher constructions the spec names by their standards: AES (FIPS 197), GHASH and GCM (SP 800-38D), CMAC
(SP 800-38B), key wrap (RFC 3394), XTS (IEEE 1619), SHA-384 (FIPS 180-4), ECDSA over P-384 (FIPS 186), CRC-32. The standards
are PRESUMED (log entry 5): the spec names them and does not restate them. -/

namespace Sys2Proof.Crypto

/-! ### AES -/

/-- The S-box of FIPS 197, entry b at bits 8b. -/
def sbox : Nat := 0x16bb54b00f2d99416842e6bf0d89a18cdf2855cee9871e9b948ed9691198f8e19e1dc186b95735610ef6034866b53e708a8bbd4b1f74dde8c6b4a61c2e2578ba08ae7a65eaf4566ca94ed58d6d37c8e779e4959162acd3c25c2406490a3a32e0db0b5ede14b8ee4688902a22dc4f816073195d643d7ea7c41744975fec130ccdd2f3ff1021dab6bcf5389d928f40a351a89f3c507f02f94585334d43fbaaefd0cf584c4a39becb6a5bb1fc20ed00d153842fe329b3d63b52a05a6e1b1a2c830975b227ebe28012079a059618c323c7041531d871f1e5a534ccf73f362693fdb7c072a49cafa2d4adf04759fa7dc982ca76abd7fe2b670130c56f6bf27b777c63

/-- The inverse S-box, entry b at bits 8b. -/
def invSbox : Nat := 0x7d0c2155631469e126d677ba7e042b17619953833cbbebc8b0f52aae4d3be0a0ef9cc9939f7ae52d0d4ab519a97f51605fec8027591012b131c7078833a8dd1ff45acd78fec0db9a2079d2c64b3e56fc1bbe18aa0e62b76f89c5291d711af1476edf751ce837f9e28535ade72274ac9673e6b4f0cecff297eadc674f4111913a6b8a130103bdafc1020f3fca8f1e2cd00645b3b80558e4f70ad3bc8c00abd890849d8da75746155edab9edfd5048706c92b6655dcc5ca4d41698688664f6f87225d18b6d49a25b76b224d92866a12e084ec3fa420b954cee3d23c2a632947b54cbe9dec444438e3487ff2f9b8239e37cfbd7f3819ea340bf38a53630d56a0952

/-- SubBytes of one byte. -/
def sub (b : Nat) : Nat := (sbox >>> (8 * b)) % 256

/-- InvSubBytes of one byte. -/
def invSub (b : Nat) : Nat := (invSbox >>> (8 * b)) % 256

/-- Multiply by x in GF(2^8). -/
def xt (b : Nat) : Nat := if b < 128 then 2 * b else (2 * b) ^^^ 0x11B

/-- The bytes of an n-byte big-endian number. -/
def toBytes : Nat → Nat → List Nat
  | 0, _ => []
  | n + 1, v => (v >>> (8 * n)) % 256 :: toBytes n v

/-- The number big-endian bytes spell. -/
def ofBytes (bs : List Nat) : Nat := bs.foldl (fun a b => a * 256 + b) 0

/-- ShiftRows on 16 bytes in column order. -/
def shiftRows : List Nat → List Nat
  | [a0, a1, a2, a3, a4, a5, a6, a7, a8, a9, a10, a11, a12, a13, a14, a15] =>
    [a0, a5, a10, a15, a4, a9, a14, a3, a8, a13, a2, a7, a12, a1, a6, a11]
  | l => l

/-- InvShiftRows. -/
def invShiftRows : List Nat → List Nat
  | [a0, a1, a2, a3, a4, a5, a6, a7, a8, a9, a10, a11, a12, a13, a14, a15] =>
    [a0, a13, a10, a7, a4, a1, a14, a11, a8, a5, a2, a15, a12, a9, a6, a3]
  | l => l

/-- MixColumns. -/
def mixColumns : List Nat → List Nat
  | a :: b :: c :: d :: t =>
    let x := a ^^^ b ^^^ c ^^^ d
    (a ^^^ x ^^^ xt (a ^^^ b)) :: (b ^^^ x ^^^ xt (b ^^^ c)) :: (c ^^^ x ^^^ xt (c ^^^ d)) ::
      (d ^^^ x ^^^ xt (d ^^^ a)) :: mixColumns t
  | _ => []

/-- InvMixColumns. -/
def invMixColumns : List Nat → List Nat
  | a :: b :: c :: d :: t =>
    let u := xt (xt (a ^^^ c))
    let v := xt (xt (b ^^^ d))
    mixColumns [a ^^^ u, b ^^^ v, c ^^^ u, d ^^^ v] ++ invMixColumns t
  | _ => []

/-- SubWord of a 32-bit word. -/
def subWord (w : Nat) : Nat := ofBytes ((toBytes 4 w).map sub)

/-- RotWord of a 32-bit word. -/
def rotWord (w : Nat) : Nat := (w % 2 ^ 24) * 256 + w / 2 ^ 24

/-- Key expansion: n more words after `ws`, which is newest first; `i` words exist and the key has nk. -/
def expand (nk : Nat) : Nat → Nat → Nat → List Nat → List Nat
  | 0, _, _, ws => ws
  | n + 1, i, rc, ws =>
    let p := ws.headD 0
    let o := ws.getD (nk - 1) 0
    if i % nk = 0 then expand nk n (i + 1) (xt rc) ((o ^^^ (subWord (rotWord p) ^^^ (rc <<< 24))) :: ws)
    else if nk = 8 ∧ i % 8 = 4 then expand nk n (i + 1) rc ((o ^^^ subWord p) :: ws)
    else expand nk n (i + 1) rc ((o ^^^ p) :: ws)

/-- 16-byte round keys from words in order. -/
def roundKeys : List Nat → List (List Nat)
  | a :: b :: c :: d :: t => (toBytes 4 a ++ toBytes 4 b ++ toBytes 4 c ++ toBytes 4 d) :: roundKeys t
  | _ => []

/-- The round keys of a key of nk 32-bit words (4, 6 or 8). -/
def schedule (nk key : Nat) : List (List Nat) :=
  let ws := (List.range nk).map fun i => (key >>> (32 * i)) % 2 ^ 32 -- newest first: the last word of the key leads
  roundKeys (expand nk (4 * (nk + 7) - nk) nk 1 ws).reverse

/-- XOR of two byte lists. -/
def xorB (a b : List Nat) : List Nat := List.zipWith (· ^^^ ·) a b

/-- The rounds after the first AddRoundKey. -/
def encRounds : List (List Nat) → List Nat → List Nat
  | [], st => st
  | [k], st => xorB (shiftRows (st.map sub)) k
  | k :: ks, st => encRounds ks (xorB (mixColumns (shiftRows (st.map sub))) k)

/-- The inverse rounds, round keys from last to first. -/
def decRounds : List (List Nat) → List Nat → List Nat
  | [], st => st
  | [k], st => xorB ((invShiftRows st).map invSub) k
  | k :: ks, st => decRounds ks (invMixColumns (xorB ((invShiftRows st).map invSub) k))

/-- AES forward cipher under a key of nk words. -/
def aesEncN (nk key blk : Nat) : Nat :=
  match schedule nk key with
  | [] => 0
  | k :: ks => ofBytes (encRounds ks (xorB (toBytes 16 blk) k))

/-- AES inverse cipher under a key of nk words. -/
def aesDecN (nk key blk : Nat) : Nat :=
  match (schedule nk key).reverse with
  | [] => 0
  | k :: ks => ofBytes (decRounds ks (xorB (toBytes 16 blk) k))

/-- AES-128, 192 or 256 forward cipher; `len` is the key length in bytes. -/
def aesEnc (len key : Nat) (b : BitVec 128) : BitVec 128 := BitVec.ofNat 128 (aesEncN (len / 4) key b.toNat)

/-- AES inverse cipher. -/
def aesDec (len key : Nat) (b : BitVec 128) : BitVec 128 := BitVec.ofNat 128 (aesDecN (len / 4) key b.toNat)

/-! ### GHASH and GCM -/

/-- Product in the GCM field: bit 0 of the field is the most significant bit. -/
def gfMulGo : Nat → Nat → Nat → Nat → Nat
  | 0, _, _, z => z
  | n + 1, x, v, z =>
    let z := if x.testBit n then z ^^^ v else z
    let v := if v % 2 = 1 then (v >>> 1) ^^^ (0xE1 <<< 120) else v >>> 1
    gfMulGo n x v z

/-- Product of two blocks in the GCM field. -/
def gfMul (x y : BitVec 128) : BitVec 128 := BitVec.ofNat 128 (gfMulGo 128 x.toNat y.toNat 0)

/-- GHASH of blocks from a starting value. -/
def ghash (h y : BitVec 128) (xs : List (BitVec 128)) : BitVec 128 := xs.foldl (fun y x => gfMul (y ^^^ x) h) y

/-- Counter block stepped by n in its low 32 bits. -/
def inc32 (j : BitVec 128) (n : Nat) : BitVec 128 :=
  BitVec.ofNat 128 (2 ^ 32 * (j.toNat / 2 ^ 32) + (j.toNat + n) % 2 ^ 32)

/-- Counter-mode key stream from block j on, over blocks. -/
def ctr (len key : Nat) : BitVec 128 → List (BitVec 128) → List (BitVec 128)
  | _, [] => []
  | j, x :: xs => (x ^^^ aesEnc len key j) :: ctr len key (inc32 j 1) xs

/-- J0 of a 96-bit IV. -/
def j0 (iv : BitVec 96) : BitVec 128 := iv ++ 1#32

/-- The GCM tag over whole AAD blocks and whole ciphertext blocks, with their lengths in bits. -/
def gcmTag (len key : Nat) (iv : BitVec 96) (aad ct : List (BitVec 128)) (alen clen : Nat) : BitVec 128 :=
  let h := aesEnc len key 0
  ghash h 0 (aad ++ ct ++ [BitVec.ofNat 64 alen ++ BitVec.ofNat 64 clen]) ^^^ aesEnc len key (j0 iv)

/-! ### CMAC and key derivation -/

/-- Doubling of a CMAC subkey. -/
def dbl (b : BitVec 128) : BitVec 128 :=
  if b.toNat ≥ 2 ^ 127 then (b <<< 1) ^^^ 0x87#128 else b <<< 1

/-- A block from at most 16 bytes, zero-padded at the end. -/
def blockOf (bs : List Byte) : BitVec 128 :=
  BitVec.ofNat 128 (ofBytes (((bs.take 16) ++ List.replicate (16 - bs.length) 0).map BitVec.toNat))

/-- Bytes of a block, most significant first. -/
def blockBytes (b : BitVec 128) : List Byte := (toBytes 16 b.toNat).map (BitVec.ofNat 8)

/-- Split bytes into zero-padded blocks; n bounds their number. -/
def blocksGo : Nat → List Byte → List (BitVec 128)
  | 0, _ => []
  | _, [] => []
  | n + 1, bs => blockOf bs :: blocksGo n (bs.drop 16)

/-- Bytes as zero-padded blocks. -/
def blocks (bs : List Byte) : List (BitVec 128) := blocksGo (bs.length / 16 + 1) bs

/-- CMAC over a message. -/
def cmac (len key : Nat) (msg : List Byte) : BitVec 128 :=
  let k1 := dbl (aesEnc len key 0)
  let n := if msg.isEmpty then 1 else (msg.length + 15) / 16
  let lastB := msg.drop (16 * (n - 1))
  let m := if lastB.length = 16 then blockOf lastB ^^^ k1 else blockOf (lastB ++ [0x80]) ^^^ dbl k1
  let c := (blocks (msg.take (16 * (n - 1)))).foldl (fun c b => aesEnc len key (c ^^^ b)) 0
  aesEnc len key (c ^^^ m)

/-- CBC-MAC over whole blocks. -/
def cbcMac (len key : Nat) (bs : List (BitVec 128)) : BitVec 128 := bs.foldl (fun c b => aesEnc len key (c ^^^ b)) 0

/-! ### Key wrap -/

/-- One pass of RFC 3394 wrapping: the register A, the counter t and the 64-bit words. -/
def wrapPass (len key : Nat) : Nat → Nat → List Nat → Nat × Nat × List Nat
  | a, t, [] => (a, t, [])
  | a, t, r :: rs =>
    let b := aesEncN (len / 4) key (2 ^ 64 * a + r)
    let (a, t', rs') := wrapPass len key ((b / 2 ^ 64) ^^^ (t + 1)) (t + 1) rs
    (a, t', b % 2 ^ 64 :: rs')

/-- One unwrapping pass, words from last to first. -/
def unwrapPass (len key : Nat) : Nat → Nat → List Nat → Nat × Nat × List Nat
  | a, t, [] => (a, t, [])
  | a, t, r :: rs =>
    let b := aesDecN (len / 4) key (2 ^ 64 * (a ^^^ t) + r)
    let (a, t', rs') := unwrapPass len key (b / 2 ^ 64) (t - 1) rs
    (a, t', b % 2 ^ 64 :: rs')

/-- n unwrapping passes; words in order. -/
def unwrapGo (len key : Nat) : Nat → Nat → Nat → List Nat → Nat × List Nat
  | 0, a, _, rs => (a, rs)
  | n + 1, a, t, rs =>
    let (a, t, q) := unwrapPass len key a t rs.reverse
    unwrapGo len key n a t q.reverse

/-- n wrapping passes; words in order. -/
def wrapGo (len key : Nat) : Nat → Nat → Nat → List Nat → Nat × List Nat
  | 0, a, _, rs => (a, rs)
  | n + 1, a, t, rs =>
    let (a, t, q) := wrapPass len key a t rs
    wrapGo len key n a t q

/-- AES key unwrap of RFC 3394: the key, or none where the integrity value is wrong. `n` counts the 64-bit words of the key. -/
def unwrap (len kek n wrapped : Nat) : Option Nat :=
  let ws := (List.range n).map fun i => (wrapped >>> (64 * (n - 1 - i))) % 2 ^ 64
  let (a, rs) := unwrapGo len kek 6 (wrapped >>> (64 * n)) (6 * n) ws
  if a = 0xA6A6A6A6A6A6A6A6 then some (rs.foldl (fun x r => 2 ^ 64 * x + r) 0) else none

/-- AES key wrap of RFC 3394 of n 64-bit words. -/
def wrap (len kek n key : Nat) : Nat :=
  let ws := (List.range n).map fun i => (key >>> (64 * (n - 1 - i))) % 2 ^ 64
  let (a, rs) := wrapGo len kek 6 0xA6A6A6A6A6A6A6A6 0 ws
  rs.foldl (fun x r => 2 ^ 64 * x + r) a

/-! ### XTS -/

/-- Multiply an XTS tweak by alpha: the tweak is little-endian over bytes. -/
def xtsNext (t : BitVec 128) : BitVec 128 :=
  let v := leVal t
  let w := if v ≥ 2 ^ 127 then (2 * v) % 2 ^ 128 ^^^ 0x87 else 2 * v
  ofLe w
where
  leVal (b : BitVec 128) : Nat := ofBytes (toBytes 16 b.toNat).reverse
  ofLe (v : Nat) : BitVec 128 := BitVec.ofNat 128 (ofBytes (toBytes 16 v).reverse)

/-- XTS-AES-256 of consecutive whole blocks from a tweak, encrypting or decrypting. -/
def xts (enc : Bool) (k1 : Nat) : BitVec 128 → List (BitVec 128) → List (BitVec 128)
  | _, [] => []
  | t, x :: xs => ((if enc then aesEnc 32 k1 (x ^^^ t) else aesDec 32 k1 (x ^^^ t)) ^^^ t) :: xts enc k1 (xtsNext t) xs

/-- The first tweak of data unit number n. -/
def xtsTweak (k2 n : Nat) : BitVec 128 := aesEnc 32 k2 (BitVec.ofNat 128 (ofBytes (toBytes 16 n).reverse))

/-! ### SHA-384 -/

/-- The round constants of SHA-512, constant i at bits 64i. -/
def shaK : Nat := 0x6c44198c4a4758175fcb6fab3ad6faec597f299cfc657e2a4cc5d4becb3e42b6431d67c49c100d4c3c9ebe0a15c9bebc32caab7b40c7249328db77f523047d841b710b35131c471b113f9804bef90dae0a637dc5a2c898a606f067aa72176fbaf57d4f7fee6ed178eada7dd6cde0eb1ed186b8c721c0c207ca273eceea26619cc67178f2e372532bbef9a3f7b2c67915a4506cebde82bde990befffa23631e288cc702081a6439ec84c87814a1f0ab7278a5636f43172f60748f82ee5defb2fc682e6ff3d6b2b8a35b9cca4f7763e3734ed8aa4ae3418acb391c0cb3c5c95a6334b0bcb5e19b48a82748774cdf8eeb991e376c085141ab5319a4c116b8d2d0c8106aa07032bbd1b8f40e35855771202ad69906245565a910d192e819d6ef5218c76c51a30654be30c24b8b70d0f89791a81a664bbc423001a2bfe8a14cf1036492722c851482353b81c2c92e47edaee6766a0abb3c77b2a8650a73548baf63de53380d139d95b3df4d2c6dfc5ac42aed2e1b21385c26c92627b70a8546d22ffc142929670a0e6e7006ca6351e003826fd5a79147930aa725c6e00bf33da88fc2bf597fc7beef0ee4b00327c898fb213fa831c66d2db43210983e5152ee66dfab76f988da831153b55cb0a9dcbd41fbd44a7484aa6ea6e4832de92c6f592b0275240ca1cc77ac9c650fc19dc68b8cd5b5efbe4786384f25e3e49b69c19ef14ad2c19bf174cf6926949bdc06a725c7123580deb1fe3b1696b172be5d74f27b896f550c7dc3d5ffb4e2243185be4ee4b28c12835b0145706fbed807aa98a3030242ab1c5ed5da6d8118923f82a4af194f9b59f111f1b605d0193956c25bf348b538e9b5dba58189dbbcb5c0fbcfec4d3b2f7137449123ef65cd428a2f98d728ae22

/-- Rotate a 64-bit word right. -/
def rotr (x n : Nat) : Nat := (x >>> n) ||| ((x <<< (64 - n)) % 2 ^ 64)

/-- Message schedule: n more words, newest first. -/
def shaSched : Nat → List Nat → List Nat
  | 0, ws => ws
  | n + 1, ws =>
    let a := ws.getD 14 0
    let b := ws.getD 1 0
    let s0 := rotr a 1 ^^^ rotr a 8 ^^^ (a >>> 7)
    let s1 := rotr b 19 ^^^ rotr b 61 ^^^ (b >>> 6)
    shaSched n ((ws.getD 15 0 + s0 + ws.getD 6 0 + s1) % 2 ^ 64 :: ws)

/-- The rounds over the schedule. -/
def shaRounds : List Nat → Nat → List Nat → List Nat
  | [], _, st => st
  | w :: ws, i, [a, b, c, d, e, f, g, h] =>
    let t1 := h + (rotr e 14 ^^^ rotr e 18 ^^^ rotr e 41) + ((e &&& f) ^^^ ((2 ^ 64 - 1 - e) &&& g)) +
      (shaK >>> (64 * i)) % 2 ^ 64 + w
    let t2 := (rotr a 28 ^^^ rotr a 34 ^^^ rotr a 39) + ((a &&& b) ^^^ (a &&& c) ^^^ (b &&& c))
    shaRounds ws (i + 1) [(t1 + t2) % 2 ^ 64, a, b, c, (d + t1) % 2 ^ 64, e, f, g]
  | _, _, st => st

/-- One block of 128 bytes. -/
def shaBlock (st : List Nat) (b : Nat) : List Nat :=
  let ws := (List.range 16).map fun i => (b >>> (64 * i)) % 2 ^ 64
  List.zipWith (fun x y => (x + y) % 2 ^ 64) st (shaRounds (shaSched 64 ws).reverse 0 st)

/-- All blocks of a padded message of n blocks, given as a number. -/
def shaGo (m : Nat) : Nat → List Nat → List Nat
  | 0, st => st
  | n + 1, st => shaGo m n (shaBlock st ((m >>> (1024 * n)) % 2 ^ 1024))

/-- SHA-384 of bytes. -/
def sha384 (bs : List Byte) : BitVec 384 :=
  let n := bs.length
  let k := (n + 17 + 127) / 128
  let m := (ofBytes (bs.map BitVec.toNat) * 256 + 0x80) <<< (8 * (128 * k - n - 1))
  let st := shaGo (m + 8 * n) k [0xcbbb9d5dc1059ed8, 0x629a292a367cd507, 0x9159015a3070dd17, 0x152fecd8f70e5939, 0x67332667ffc00b31, 0x8eb44a8768581511, 0xdb0c2e0d64f98fa7, 0x47b5481dbefa4fa4]
  BitVec.ofNat 384 ((st.take 6).foldl (fun a w => 2 ^ 64 * a + w) 0)

/-- HMAC-SHA-384 of a message under a key of at most 128 bytes. -/
def hmac384 (key msg : List Byte) : BitVec 384 :=
  let k := key ++ List.replicate (128 - key.length) 0
  let inner := sha384 (k.map (· ^^^ 0x36) ++ msg)
  sha384 (k.map (· ^^^ 0x5C) ++ (toBytes 48 inner.toNat).map (BitVec.ofNat 8))

/-- Counter-mode encryption of bytes from counter block j. -/
def ctrBytes (len key : Nat) (j : BitVec 128) (bs : List Byte) : List Byte :=
  ((ctr len key j (blocks bs)).flatMap blockBytes).take bs.length

/-- GCM encryption of bytes: ciphertext and tag. -/
def gcmSeal (len key : Nat) (iv : BitVec 96) (aad pt : List Byte) : List Byte × List Byte :=
  let ct := ctrBytes len key (inc32 (j0 iv) 1) pt
  (ct, blockBytes (gcmTag len key iv (blocks aad) (blocks ct) (8 * aad.length) (8 * ct.length)))

/-- GCM decryption of bytes: the plaintext, or none where the tag is wrong. -/
def gcmOpen (len key : Nat) (iv : BitVec 96) (aad ct tag : List Byte) : Option (List Byte) :=
  if blockBytes (gcmTag len key iv (blocks aad) (blocks ct) (8 * aad.length) (8 * ct.length)) = tag then
    some (ctrBytes len key (inc32 (j0 iv) 1) ct)
  else none

/-! ### ECDSA over P-384 -/

/-- The field prime of P-384. -/
def p384 : Nat := 2 ^ 384 - 2 ^ 128 - 2 ^ 96 + 2 ^ 32 - 1

/-- The order of the base point. -/
def n384 : Nat := 0xffffffffffffffffffffffffffffffffffffffffffffffffc7634d81f4372ddf581a0db248b0a77aecec196accc52973

/-- The coefficient b of the curve. -/
def b384 : Nat := 0xb3312fa7e23ee7e4988e056be3f82d19181d9c6efe8141120314088f5013875ac656398d8a2ed19d2a85c8edd3ec2aef

/-- The base point. -/
def g384 : Nat × Nat :=
  (0xaa87ca22be8b05378eb1c71ef320ad746e1d3b628ba79b9859f741e082542a385502f25dbf55296c3a545e3872760ab7,
   0x3617de4a96262c6f5d9e98bf9292dc29f8f41dbd289a147ce9da3113b5f0b8c00a60b1ce1d7e819d7a431d7c90ea0e5f)

/-- Modular power by squaring over n bits. -/
def powMod (m b e : Nat) : Nat → Nat → Nat
  | 0, acc => acc
  | n + 1, acc => powMod m b e n (if e.testBit n then acc * acc % m * b % m else acc * acc % m)

/-- Inverse modulo a 384-bit prime. -/
def invMod (m a : Nat) : Nat := powMod m (a % m) (m - 2) 384 1

/-- A point in Jacobian coordinates: x is X/Z², y is Y/Z³; the point at infinity has Z 0. -/
structure Point where
  x : Nat
  y : Nat
  z : Nat

/-- The point at infinity. -/
def Point.zero : Point := ⟨1, 1, 0⟩

/-- Difference modulo the field prime, of reduced numbers. -/
def subMod (a b : Nat) : Nat := (a + p384 - b) % p384

/-- Twice a point. -/
def Point.double (q : Point) : Point :=
  let d := q.z * q.z % p384
  let g := q.y * q.y % p384
  let b := q.x * g % p384
  let a := 3 * (subMod q.x d * (q.x + d)) % p384
  let x := subMod (a * a % p384) (8 * b % p384)
  ⟨x, subMod (a * subMod (4 * b % p384) x % p384) (8 * (g * g) % p384), 2 * (q.y * q.z) % p384⟩

/-- Sum of a point and a point with Z 1, which is not the point at infinity. -/
def Point.add (q : Point) (x2 y2 : Nat) : Point :=
  if q.z = 0 then ⟨x2, y2, 1⟩
  else
    let zz := q.z * q.z % p384
    let h := subMod (x2 * zz % p384) q.x
    let r := subMod (y2 * (zz * q.z % p384) % p384) q.y
    if h = 0 then (if r = 0 then q.double else .zero)
    else
      let hh := h * h % p384
      let hhh := hh * h % p384
      let v := q.x * hh % p384
      let x := subMod (r * r % p384) ((hhh + 2 * v) % p384)
      ⟨x, subMod (r * subMod v x % p384) (q.y * hhh % p384), q.z * h % p384⟩

/-- The sum k P + l Q over n bits, both products in one pass. -/
def twoMul (k l : Nat) (p q : Nat × Nat) : Nat → Point → Point
  | 0, acc => acc
  | n + 1, acc =>
    let d := acc.double
    let d := if k.testBit n then d.add p.1 p.2 else d
    twoMul k l p q n (if l.testBit n then d.add q.1 q.2 else d)

/-- ECDSA verification over P-384 with SHA-384: public key x,y (48 bytes each), signature r,s (48 bytes each), message. -/
def ecdsaVerify (key sig msg : List Byte) : Bool :=
  let x := ofBytes ((key.take 48).map BitVec.toNat)
  let y := ofBytes (((key.drop 48).take 48).map BitVec.toNat)
  let r := ofBytes ((sig.take 48).map BitVec.toNat)
  let s := ofBytes (((sig.drop 48).take 48).map BitVec.toNat)
  let onCurve := x < p384 && y < p384 && y * y % p384 == (x * x * x + (p384 - 3) * x + b384) % p384
  if !onCurve || r == 0 || s == 0 || r ≥ n384 || s ≥ n384 then false
  else
    let w := invMod n384 s
    let e := (sha384 msg).toNat
    let t := twoMul (e * w % n384) (r * w % n384) g384 (x, y) 384 .zero
    t.z != 0 && t.x * invMod p384 (t.z * t.z) % p384 % n384 == r

/-! ### Check sequences -/

/-- One byte of the reflected CRC-32. -/
def crcByte (c : Nat) (b : Byte) : Nat :=
  go 8 (c ^^^ b.toNat)
where
  go : Nat → Nat → Nat
    | 0, c => c
    | n + 1, c => go n (if c % 2 = 1 then (c / 2) ^^^ 0xEDB88320 else c / 2)

/-- The Ethernet CRC-32 of bytes; the FCS is sent least significant byte first. -/
def crc32 (bs : List Byte) : BitVec 32 := BitVec.ofNat 32 (bs.foldl crcByte 0xFFFFFFFF ^^^ 0xFFFFFFFF)

/-- CRC-16/CCITT-FALSE of bytes (R393). -/
def crc16 (bs : List Byte) : BitVec 16 :=
  BitVec.ofNat 16 (bs.foldl (fun c b => go 8 (c ^^^ (b.toNat <<< 8))) 0xFFFF)
where
  go : Nat → Nat → Nat
    | 0, c => c
    | n + 1, c => go n (if c ≥ 0x8000 then ((2 * c) % 65536) ^^^ 0x1021 else 2 * c)

end Sys2Proof.Crypto
end

