-- ==== Sys2Proof/Config.lean ====
section
/-! DEFINITION. What one device fixes and what the spec leaves open: free values.
Every constant here is opaque: it has no body, so nothing in Lean can evaluate it. -/

namespace Sys2Proof.Config

/-- The k-th free value the model draws: a random draw of the Axis DRBG, or a value the spec leaves open.
`State.freeCount` counts the draws (log entry 2). -/
opaque free : Nat → Nat

/-- What a byte of external memory that nothing has written since CREATE number `epoch` reads as (R571, log entry 3). -/
opaque unwritten (epoch addr : Nat) : Byte

/-- The keyed bucket hash of a table (13_classifier R320, 12_sensor_service R284 name a keyed hash whose function they do not
give): table number, which hash, seed, key. -/
opaque bucketHash (table which seed key : Nat) : Nat

/-- The 256-bit PUF key that Apex reconstructs from the PUF response and the helper data in vendor OTP (03_key_store R85): the part's
own response and the reconstruction are not stated. -/
opaque pufKey (helper : BitVec 256) : BitVec 256

/-- The 16-bit unit ID that firmware gives this unit (04_associations R106): the spec gives it no register, and Octeg and arbiter messages
of the redundancy controller carry it (log entry 20). -/
opaque unitId : BitVec 16

/-- The levels at which the board ties STRAP[11:0] (R549). -/
opaque straps : BitVec 12

/-- Capacity in GiB of the RDIMM of a DDR channel as its SPD gives it; none where the SPD does not answer or describes a module that Table
17.2 excludes (R550). -/
opaque rdimmGib (channel : Nat) : Option Nat

/-- The levels the board drives at GPIO[31:0] at a SYS_REFCLK time (Table 25.13). -/
opaque gpioPins (clk : Nat) : BitVec 32

/-- Datagram buffers of Radius beyond the first (R303): the spec gives no number. -/
opaque datagramBuffers : Nat

end Sys2Proof.Config
end

