-- ==== Sys2Proof/Machine/BaseState.lean ====
section
/-! DEFINITION. The state of external memory and Hull, the rings, telemetry and Gnomon (chapters 16, 17, 20, 22). -/

namespace Sys2Proof.Machine

/-- A sparse table: numbered entries in strictly rising order, none equal to the table's default. Widths: the entry's own. -/
abbrev Tbl (α : Type) := List (Nat × α)

/-- Master classes of Hull, in the order of HULL_RGN_CTRL.RIGHTS from [27:26] down (R403, Table 17.13). -/
inductive Master where
  | apex | compass | vertex | radius | annulus | locusDma | debugPort
  deriving DecidableEq, Repr

/-- A 2-bit right (R403). -/
inductive Right where
  | none | cipherRead | plainRead | plainWrite
  deriving DecidableEq, Repr

/-- Region states (Table 17.4). -/
inductive RegionState where
  | off | init | active | readOnly | rekey | tainted
  deriving DecidableEq, Repr

/-- A range whose unlisted bytes read as a 64-bit pattern, or, with no pattern, as free bytes of CREATE number `epoch` (R402, R571). -/
structure FillRange where
  base : Nat
  len : Nat
  pat : Option (BitVec 64)
  epoch : Nat
  deriving DecidableEq, Repr

/-- External memory, plaintext view: listed bytes in strictly rising address order, none equal to what the address reads unlisted. -/
structure Memory where
  /-- Bytes written since the fill or CREATE that covers them. -/
  cells : List Host.Cell
  /-- Fills and CREATEs, newest first. -/
  fills : List FillRange
  deriving DecidableEq, Repr

/-- A leaf node of a CONF+INT region: 64-bit major counter and 7-bit minors of its 64 lines (R410). -/
structure Leaf where
  major : BitVec 64
  minors : Tbl (BitVec 7)
  deriving DecidableEq, Repr

/-- One entry of a memory's 32-entry taint list (R418): level and node index. -/
structure Taint where
  region : Nat
  level : Nat
  node : Nat
  deriving DecidableEq, Repr

/-- A key as every cell of the part holds it: the shares K xor M and M, M being its mask (R81). -/
structure Shares where
  share : BitVec 256
  mask : BitVec 256
  deriving DecidableEq, Repr

/-- Zeroised shares. -/
def Shares.zero : Shares := { share := 0, mask := 0 }

/-- Key K under mask M. -/
def Shares.of (key m : Nat) : Shares := { share := BitVec.ofNat 256 (key ^^^ m), mask := BitVec.ofNat 256 m }

/-- The key that two shares spell. -/
def Shares.key (x : Shares) : Nat := (x.share ^^^ x.mask).toNat

/-- One half of an HK slot (Table 3.1, R81, R82, R400): its shares and the SYS_REFCLK time at which their mask was drawn. -/
structure HkHalf where
  sh : Shares
  maskAt : Nat
  deriving DecidableEq, Repr

/-- An empty half of an HK slot. -/
def HkHalf.reset : HkHalf := { sh := Shares.zero, maskAt := 0 }

/-- One Hull region (R399, R401; Tables 17.13-17.15). -/
structure Region where
  /-- 3 bits; Table 17.4; reset OFF. -/
  state : RegionState
  /-- 1 bit CONF+INT; R400; reset 0. -/
  integ : Bool
  /-- 14 bits, Table 17.13 RIGHTS; reset 0. -/
  rights : BitVec 14
  /-- Base address [39:26]; R399; reset 0. -/
  base : BitVec 14
  /-- Size in 64 MiB units; R399; reset 0. -/
  size : BitVec 12
  /-- Metadata address [39:22]; R409; reset 0. -/
  metaBase : BitVec 18
  /-- Metadata size in 4 MiB units; R409; reset 0. -/
  metaSize : BitVec 13
  /-- Active halves of the region's two HK slots, 256 bits each (R400, R407, R408); reset 0 (zeroised, R400). -/
  k1 : HkHalf
  k2 : HkHalf
  /-- Pending halves of the two HK slots during a rekey (R420); reset 0. -/
  nk1 : HkHalf
  nk2 : HkHalf
  /-- Leaf nodes (R410); reset all counters 0. -/
  leaves : Tbl Leaf
  /-- On-die root and upper counters: the counter of node n of level l in its parent, keyed l*2^32+n (R409, R410); reset 0. -/
  upper : Tbl (BitVec 64)
  /-- Cached nodes that hold changes not written back, level and index, oldest first (R411); reset none. -/
  dirty : List (Nat × Nat)
  /-- REKEY was entered from READ_ONLY, so writes stay refused (Table 17.4). -/
  rekeyReadOnly : Bool
  /-- Lines stored as poisoned by the running rekey (R420). -/
  rekeyPoisoned : Nat
  /-- The command whose work is running on the region: CREATE or FILL, REKEY, or DELETE (R402, R420). -/
  work : Option Desc
  /-- DELETE has stopped new accesses and waits for its drain (R402). -/
  deleting : Bool
  /-- The fill running, offset and length in bytes and the pattern (R402, R419). -/
  filling : Option (Nat × Nat × BitVec 64)
  /-- Leaf groups in a minor-overflow pass (R412). -/
  overflowPass : List Nat
  deriving DecidableEq, Repr

/-- A region after reset. -/
def Region.reset : Region :=
  { state := .off, integ := false, rights := 0, base := 0, size := 0, metaBase := 0, metaSize := 0, k1 := HkHalf.reset, k2 := HkHalf.reset,
    nk1 := HkHalf.reset, nk2 := HkHalf.reset, leaves := [], upper := [], dirty := [], rekeyReadOnly := false, rekeyPoisoned := 0, work := none,
    deleting := false, filling := none, overflowPass := [] }

/-- Why a stored line cannot be read (R410 marker 0xA5, R417). -/
inductive LineFault where
  | ecc | poisoned
  deriving DecidableEq, Repr

/-- Hull and the memory controllers (chapter 17). -/
structure HullState where
  /-- HBM regions 0-15 and DDR regions 0-15 at 16+r (R399); reset OFF. -/
  regions : Tbl Region
  /-- Taint list of HBM, at most 32 entries (R418); reset empty. -/
  taintsHbm : List Taint
  /-- Taint list of DDR, at most 32 entries (R418); reset empty. -/
  taintsDdr : List Taint
  /-- Lines that hold an uncorrectable word or are poisoned, by line number (R410, R417); reset empty. -/
  badLines : Tbl LineFault
  /-- Count of region CREATEs without FILL, the epoch of unwritten bytes; the model's own. -/
  epoch : Nat
  /-- HULL_MCHK, address [39:6] (Tables 17.10, 17.11); reset 0. -/
  mchkAddr : BitVec 34
  /-- HULL_MCHK_HI.CORE; reset 0. -/
  mchkCore : BitVec 3
  /-- HULL_MCHK_HI.CAUSE; reset 0. -/
  mchkCause : BitVec 2
  /-- HULL_MCHK_HI.VALID; reset 0. -/
  mchkValid : Bool
  /-- Local interrupt 16 pending in mip of each Compass core (R464); reset 0. -/
  mchkIrq : BitVec 8
  /-- MEMC_STATUS.UP (Table 17.12); reset 0. -/
  up : BitVec 4
  /-- MEMC_STATUS.FAIL; reset 0. -/
  fail : BitVec 4
  /-- MEMC_STATUS.DDR0_GIB and DDR1_GIB: installed capacity in GiB (R396); reset 0. -/
  gib0 : BitVec 8
  gib1 : BitVec 8
  deriving DecidableEq, Repr

/-- Ring states (Table 20.19). -/
inductive RingState where
  | disabled | running | draining | error
  deriving DecidableEq, Repr

/-- A fetched descriptor that has not completed (R470). -/
structure Outstanding where
  desc : Desc
  started : Bool
  deriving DecidableEq, Repr

/-- One ring of any kind (R465, Tables 20.16-20.21). The configuration fields are those sampled at enable. -/
structure Ring where
  /-- RING_STATUS.STATE; reset DISABLED. -/
  state : RingState
  /-- Producer index, 17 bits; reset 0. -/
  pi : BitVec 17
  /-- Consumer index, 17 bits; reset 0. -/
  ci : BitVec 17
  /-- Sampled base address, 40 bits; reset 0. -/
  base : BitVec 40
  /-- Sampled capacity in entries; reset 0. -/
  cap : Nat
  /-- Sampled CPL_OR_COUNT; reset 0. -/
  cpl : BitVec 8
  /-- Sampled TIMEOUT_OR_US; reset 0. -/
  us : BitVec 16
  /-- Sampled PROMISC (Table 20.18); reset 0. -/
  promisc : Bool
  /-- Outstanding descriptors in ring order (R470); reset empty. -/
  outs : List Outstanding
  /-- Slots of this completion ring reserved by started commands (R472); reset 0. -/
  reserved : Nat
  /-- SEQ of the event ring's next record (Table 20.7); reset 0. -/
  seq : BitVec 16
  /-- PHASE of the next record (R472); 1 after an enable, reset 0. -/
  phase : Bool
  /-- RING_LOST.COUNT (Table 20.21); reset 0. -/
  lost : BitVec 32
  /-- The next record written carries LOST (R474, R518, R572); reset 0. -/
  lostFlag : Bool
  /-- Events dropped since the ring's previous 0x042 or its enable (R474); reset 0. -/
  lostSince : Nat
  /-- Unconsumed records: index, SYS_REFCLK time written, INTERRUPT set (R475); reset empty. -/
  unread : List (Nat × Nat × Bool)
  /-- The ring's PLIC source is asserted (R475, Table 20.2); reset 0. -/
  irq : Bool
  deriving DecidableEq, Repr

/-- A ring after reset. -/
def Ring.reset : Ring :=
  { state := .disabled, pi := 0, ci := 0, base := 0, cap := 0, cpl := 0, us := 0, promisc := false, outs := [], reserved := 0,
    seq := 0, phase := false, lost := 0, lostFlag := false, lostSince := 0, unread := [], irq := false }

/-- Compass, the rings and the management ports (chapter 20). -/
structure RingsState where
  /-- Rings by kind*64+index (Table 20.3); reset DISABLED. -/
  rings : Tbl Ring
  /-- COMPASS_IFACE_VER.VERSION, 4 bits (Table 20.14); reset 1. -/
  version : BitVec 4
  /-- Round-robin position of the descriptor fetch (R470); reset 0. -/
  fetchNext : Fin 64
  /-- SUMMARY_GEN, 64 bits (R485); reset 0. -/
  summaryGen : BitVec 64
  /-- MGMT_CFG_k.LINK and SPEED of both ports (Table 20.22); reset down. -/
  link0 : Bool
  speed0 : BitVec 2
  link1 : Bool
  speed1 : BitVec 2
  /-- The Compass cores run (R462, R54); reset held. -/
  released : Bool
  /-- Command starting is stopped by a datapath reset (R541); reset 0. -/
  startsHeld : Bool
  /-- Commands that were started before a warm reset and have not completed: they write no completion (R540); reset none. -/
  orphans : List Desc
  /-- The doorbell PI last written to each management ring (R479); reset 0. -/
  mgmtPi : Tbl (BitVec 17)
  /-- Outstanding descriptors that were fetched while the other descriptor version was in force (R469); reset none. -/
  older : List Desc
  /-- Outstanding descriptors whose wait for completion space has been counted (R472); reset none. -/
  stalled : List Desc
  deriving DecidableEq, Repr

/-- A taken raise that waits for its ring write (R515, R516, R518). -/
structure Taken where
  ev : Nat
  ring : Nat
  clear : Bool
  sec : Nat
  ns : Nat
  data : List Byte
  deriving DecidableEq, Repr

/-- What asked for a capture (Table 22.3 Trigger). -/
inductive CaptureOf where
  | now (d : Desc) | atTime (d : Desc) | pin
  deriving DecidableEq, Repr

/-- A programmable counter's value: 48 bits and WRAP (R520). -/
structure ProgCounter where
  value : BitVec 48
  wrap : Bool
  deriving DecidableEq, Repr

/-- The telemetry and event unit (chapter 22). -/
structure TeleState where
  /-- EVT_STATUS_g, 32 words of 32 bits (Table 22.15); reset 0. -/
  evtStatus : Tbl (BitVec 32)
  /-- Raise counts of 1,024 events, 32 bits (R484, R515); reset 0. -/
  raises : Tbl (BitVec 32)
  /-- Raises taken and not yet written, at most 512 (R518); reset empty. -/
  store : List Taken
  /-- Group-0 records Apex holds until their ring runs, at most 16, oldest first (R62); reset empty. -/
  held : List Taken
  /-- A group-0 raise found 16 records held, so the next held record written carries LOST (R62); reset 0. -/
  heldLost : Bool
  /-- TELE_STATUS.EVT_DROPPED, 16 bits (Table 22.7); reset 0. -/
  dropped : BitVec 16
  /-- Raises dropped under R518 since event 0x342 was last raised; reset 0. -/
  dropPending : Nat
  /-- TELE_STATUS.CNT_READY; reset 0. -/
  cntReady : Bool
  /-- TELE_STATUS.CNT_ERR; reset 0. -/
  cntErr : Bool
  /-- TELE_CNT_LO and HI, 64 bits (Table 22.9); reset 0. -/
  cntValue : BitVec 64
  /-- The counter read in progress: the ID (R519); reset none. -/
  cntPending : Option (BitVec 32)
  /-- Programmable counters (R520); reset 0. -/
  progs : Tbl ProgCounter
  /-- HI latched by the last read of TELE_PC_LO_k (R568); reset 0. -/
  pcHi : Tbl (BitVec 16)
  /-- TELE_STATUS.CMD_FROZEN (R521); reset 0. -/
  cmdFrozen : Bool
  /-- SNAP_IN holds its freeze level (R521); reset 0. -/
  pinFrozen : Bool
  /-- The SNAP_IN pin's level; reset 0. -/
  snapIn : Bool
  /-- The capture running and its instant C in Gnomon ns (R523, R524); reset none. -/
  running : Option (CaptureOf × Nat)
  /-- The one further request that waits, with its C when a time fixes it (R524); reset none. -/
  waiting : Option (CaptureOf × Option Nat)
  /-- The armed SNAPSHOT AT_TIME and its trigger in Gnomon ns (R512); reset none. -/
  armed : Option (Desc × Nat)
  /-- A time-stamped SNAP_IN edge whose C has not come (R523); reset none. -/
  pinDue : Option Nat
  deriving DecidableEq, Repr

/-- What the part emits on a medium or to a neighbour: the model's own record of it, newest first (log entry 6). -/
inductive Output where
  | clientFrame (lp : Nat) (frame : List Byte)
  | lineFrame (lp : Nat) (frame : List Byte)
  | facetFrame (n : Nat) (cols : List (BitVec 128))
  | clientBlocks (lp : Nat) (blocks : List (BitVec 66))
  | codeword (n : Nat) (lanes : List (List (BitVec 10)))
  | mgmtMessage (n : Nat) (clear : Bool) (msg : List Byte)
  | mgmtFrame (port : Nat) (frame : List Byte)
  | mgmtChannel (n : Nat) (msg : List Byte)
  | completion (ring tag status flags r0 r1 : Nat)
  | chord (msg : List Byte)
  | uart (k : Nat) (b : Byte)
  | i2c (k : Nat) (cmd : BitVec 32)
  deriving DecidableEq, Repr

/-- Gnomon states (Table 16.1). -/
inductive GnomonMode where
  | freerun | locked | holdover
  deriving DecidableEq, Repr

/-- Gnomon (chapter 16). Gnomon time is held as whole nanoseconds (seconds*10^9+ns) and a fraction. -/
structure GnomonState where
  /-- 48-bit seconds and 32-bit nanoseconds as one count of ns (R381); reset 0. -/
  time : Nat
  /-- Fraction in 2^-40 ns; its upper 16 bits are the 16-bit fraction of R381; reset 0. -/
  frac : Nat
  /-- GNOMON_NOW_S_LO and HI latch, 64 bits (Table 16.8); reset 0. -/
  latch : BitVec 64
  /-- GNOMON_STATUS.STATE; reset FREERUN. -/
  mode : GnomonMode
  /-- SYS_REFCLK time when HOLDOVER was entered: HOLD_S counts from it (Table 16.1); reset 0. -/
  holdSince : Nat
  /-- SYS_REFCLK time at which the servo timer expires (R387); reset none. -/
  servoDue : Option Nat
  /-- GNOMON_STATUS.LOAD_ERR; reset 0. -/
  loadErr : Bool
  /-- Seconds value of the last tick and its STEPPED flag (R386); reset 0. -/
  tickSec : Nat
  tickStepped : Bool
  /-- PPS_OUT pin (R392); reset low. -/
  ppsOut : Bool
  /-- SYS_REFCLK time at which PPS_OUT falls (R392); reset none. -/
  ppsFall : Option Nat
  /-- Seconds value and SYS_REFCLK time of the last PPS_OUT edge still owed a TOD message (R393); reset none. -/
  todDue : Option (Nat × Nat)
  /-- PPS_IN pin level; reset low. -/
  ppsIn : Bool
  /-- GNOMON_PPS_IN: NEW, seconds and ns of the latest edge (Table 16.14); reset 0. -/
  ppsNew : Bool
  ppsNs : Nat
  ppsSec : Nat
  /-- SYS_REFCLK time of the last edge or enable, and whether its absence was reported (R392); reset 0. -/
  ppsLast : Nat
  ppsMissing : Bool
  /-- TOD receive FIFO, at most 64 bytes (R393); reset empty. -/
  todFifo : List Byte
  /-- GNOMON_TOD_CFG.RX_OVF; reset 0. -/
  todOvf : Bool
  /-- The last message sent on TOD_TXD (R393); reset none. -/
  todSent : List Byte
  /-- Transmit time-stamp queues of the 32 ports, at most 64 entries of 128 bits (R390); reset empty. -/
  txts : Tbl (List (BitVec 128))
  /-- TXTS_CFG.OVERFLOW per port, 16 bits (Table 16.19); reset 0. -/
  txtsOvf : Tbl (BitVec 16)
  /-- RCLK0 and RCLK1 are not squelched (R394; SQUELCHED reads the inverse, but its reset 0 while the register
  holds its reset word, log entry 94); reset squelched without an event. -/
  rclkOn : BitVec 2
  /-- The Gnomon synthesiser has lock (R531); reset 0. -/
  pllLocked : Bool
  deriving DecidableEq, Repr

end Sys2Proof.Machine
end

