-- ==== Sys2Proof/Machine/ChipState.lean ====
section
/-! DEFINITION. The state of clocks, power, reset, pins and platform peripherals (chapters 23, 24, 25). -/

namespace Sys2Proof.Machine

/-- Clocks, power and reset (chapter 23). -/
structure CprState where
  /-- Rails in WARNING, with the SYS_REFCLK time of entry (R535, Table 23.12); reset none. -/
  warn : Tbl Nat
  /-- CPR_RAIL_STATUS.OVER, 12 bits (R534, Table 23.12); reset 0. -/
  overV : BitVec 12
  /-- CPR_RESET_CAUSE [7:0] (Table 23.10), always-on; reset PORESET, whose assertion State.reset stands right after (log 90). -/
  cause : BitVec 8
  /-- CPR_RESET_CAUSE.RAIL_ID, 8 bits (R536, Table 23.10), always-on; reset 0 (DESIGN CHOICE, log 90). -/
  railId : BitVec 8
  /-- CPR_RESET.DP_BUSY with the SYS_REFCLK time of the write (R541, Table 23.11); reset 0. -/
  dpBusy : Option Nat
  /-- Warm resets that wait for a datapath reset, as CPR_RESET_CAUSE bits (R543); reset 0. -/
  warmWaits : BitVec 8
  /-- PORESET_N is low, or the internal power-on reset of a supply reset is asserted (R536, R539); reset 1. -/
  por : Bool
  /-- Event 0x022 is owed at the next Compass release (R536); reset 0. -/
  supplyOwed : Bool
  /-- STRAP[11:0] as sampled, 12 bits (R549); reset 0 until sampled. -/
  straps : BitVec 12
  /-- CPR_TEMP.MAX, signed 10 bits (R537, Table 23.13); reset 0. -/
  tempMax : BitVec 10
  /-- CPR_TEMP.MAX_HWM, signed 10 bits (Table 23.13), once a reading has been taken; reads 0 before; reset none. -/
  tempHwm : Option (BitVec 10)
  /-- The highest reading has reached 110 C and has not fallen below 105 C since (R537); reset 0. -/
  hot : Bool
  /-- The lowest reading is below -5 C (R537); reset 0. -/
  cold : Bool
  /-- SYS_REFCLK time of the next temperature sample (R537); reset 0. -/
  tempDue : Nat
  /-- SYS_REFCLK time since which every reading has been below 100 C (R538); reset none. -/
  coolSince : Option Nat
  /-- A thermal trip holds the part, since this SYS_REFCLK time; THERMTRIP_N is low while it does (R538, Table 24.8); reset none. -/
  trip : Option Nat
  /-- CPR_TEMP.TRIPPED (Table 23.13); reset 0. -/
  tripped : Bool
  /-- CPR_CLK_STATUS.HBM_PLL and DDR_PLL, 4 bits (Table 23.14); reset 0. -/
  pll : BitVec 4
  deriving DecidableEq, Repr

/-- Clocks, power and reset right after PORESET_N has gone low. -/
def CprState.reset : CprState :=
  { warn := [], overV := 0, cause := 0x20, railId := 0, dpBusy := none, warmWaits := 0, por := true, supplyOwed := false, straps := 0
    tempMax := 0, tempHwm := none, hot := false, cold := false, tempDue := 0, coolSince := none, trip := none, tripped := false, pll := 0 }

/-- One UART (R570, Table 25.13). -/
structure Uart where
  /-- Transmit FIFO, at most 16 bytes, oldest first; reset empty. -/
  tx : List Byte
  /-- Receive FIFO, at most 16 bytes, oldest first; reset empty. -/
  rx : List Byte
  /-- UART_STATUS.RX_OVF; reset 0. -/
  ovf : Bool
  deriving DecidableEq, Repr

/-- A UART after reset. -/
def Uart.reset : Uart := { tx := [], rx := [], ovf := false }

/-- One I2C controller (R570, Table 25.13). -/
structure I2c where
  /-- The I2C_CMD that runs, 32 bits; BUSY reads 1 while there is one; reset none. -/
  cmd : Option (BitVec 32)
  /-- I2C_STATUS.NACK; reset 0. -/
  nack : Bool
  /-- I2C_STATUS.ARB_LOST; reset 0. -/
  lost : Bool
  /-- Last byte read, 8 bits; reset 0. -/
  last : Byte
  deriving DecidableEq, Repr

/-- An I2C controller after reset. -/
def I2c.reset : I2c := { cmd := none, nack := false, lost := false, last := 0 }

/-- The platform peripherals (R570). UART_CFG, I2C_CFG, GPIO_OUT and GPIO_OE are among `State.regs`. -/
structure PeriphState where
  /-- UART 0 and 1. -/
  uarts : Tbl Uart
  /-- I2C 0 to 3. -/
  i2cs : Tbl I2c
  deriving DecidableEq, Repr

/-- The platform peripherals after reset. -/
def PeriphState.reset : PeriphState := { uarts := [], i2cs := [] }

end Sys2Proof.Machine
end

