-- ==== Sys2Proof/Machine/FacetState.lean ====
section
/-! DEFINITION. The state of a Facet port: mapper, framer, receiver, defects, performance data (chapters 6 and 7). -/

namespace Sys2Proof.Machine

/-- A tributary slot as sampled at PORT_ENABLE (R168). -/
structure FacetSlot where
  /-- FACET_TRIB_CFG.EQUIPPED; reset 0. -/
  equipped : Bool
  /-- CLIENT, a client logical port, 6 bits; reset 0. -/
  client : BitVec 6
  /-- F, 6 bits; reset 0. -/
  stuff : BitVec 6
  /-- OFFSET, 10 bits; reset 0. -/
  offset : BitVec 10
  /-- Client signal type of Table 6.4, 8 bits; reset 0. -/
  type : BitVec 8
  /-- Path trace sent, 64 bytes, byte 0 least significant; reset 0. -/
  trace : BitVec 512
  deriving DecidableEq, Repr

/-- A slot not sampled. -/
def FacetSlot.reset : FacetSlot := { equipped := false, client := 0, stuff := 0, offset := 0, type := 0, trace := 0 }

/-- The mapper of one slot (R153 to R160). -/
structure Mapper where
  /-- 66-bit blocks that wait for a fourth (R155); reset none. -/
  wait : List (BitVec 66)
  /-- Transcoded bits behind the FIFO that do not fill a column, and their number, below 128; reset none. -/
  tail : Nat
  tailLen : Nat
  /-- FIFO of 128-bit columns, at most 64 (R159); reset empty. -/
  fifo : List (BitVec 128)
  /-- Bit position within a 257-bit block of the FIFO's first bit, 0-256 (R155); reset 0. -/
  phase : Nat
  /-- The FIFO fills to its centre before data is taken (R159); reset 1. -/
  filling : Bool
  /-- New-pointer frames still to send (R160); reset 0. -/
  newPtr : Nat
  /-- Columns of the container in progress that the next frame carries (R153); reset none. -/
  carry : List (BitVec 128)
  /-- Path BIP-8 of the previous container (R187); reset 0. -/
  bip : BitVec 8
  /-- Path REI to send, 0-8 (R187); reset 0. -/
  rei : Nat
  deriving DecidableEq, Repr

/-- A mapper at reset. -/
def Mapper.reset : Mapper := { wait := [], tail := 0, tailLen := 0, fifo := [], phase := 0, filling := true, newPtr := 0, carry := [], bip := 0, rei := 0 }

/-- Marker lock states (Table 7.1). -/
inductive MarkerMode where
  | search | confirm | lock
  deriving DecidableEq, Repr

/-- Alignment states (Table 7.2). -/
inductive FrameMode where
  | out | confirm | inFrame
  deriving DecidableEq, Repr

/-- Pointer interpreter states (Table 7.4). -/
inductive PtrMode where
  | init | norm | ais | lop
  deriving DecidableEq, Repr

/-- An open alignment candidate (R171): the bit position it is expected at next, matches after the first, MFC after the last match. -/
structure Candidate where
  next : Nat
  hits : Nat
  mfc : BitVec 8
  deriving DecidableEq, Repr

/-- The container that has begun in the previous verified frame and ends in the present one (R153). -/
structure RxContainer where
  /-- Its columns received so far. -/
  cols : List (BitVec 128)
  /-- The data-carrying NJO column, if any. -/
  njo : Option (BitVec 128)
  /-- Action applied, advertised F and MFC of the frame in which it starts; NDF new. -/
  action : Nat
  stuff : Nat
  mfc : BitVec 8
  fresh : Bool
  deriving DecidableEq, Repr

/-- A trace being assembled (R188). -/
structure TraceRx where
  /-- Bytes of the multiframe in progress, from index 0. -/
  cur : List Byte
  /-- The previous multiframe, if it was received whole. -/
  prev : Option (List Byte)
  /-- Accepted trace, 512 bits, byte 0 least significant; reset 0. -/
  accepted : BitVec 512
  deriving DecidableEq, Repr

/-- A trace receiver at reset. -/
def TraceRx.reset : TraceRx := { cur := [], prev := none, accepted := 0 }

/-- Whether a slot knows where its 257-bit blocks begin: never, as it counted on, or until a frame was lost (R161, R181). -/
inductive BlockSync where
  | unknown | kept | broken
  deriving DecidableEq, Repr

/-- The 257-bit block in progress of a slot: its bits in time order, and for each whether it was lost (R161). -/
structure BlockRx where
  sync : BlockSync
  bits : List Bool
  lost : List Bool
  deriving DecidableEq, Repr

/-- No block in progress. -/
def BlockRx.reset : BlockRx := { sync := .unknown, bits := [], lost := [] }

/-- The receiver of one slot (R180 to R188). -/
structure SlotRx where
  /-- PTR; reset INIT. -/
  ptr : PtrMode
  /-- Offset in force, 10 bits; reset 0. -/
  offset : Nat
  /-- Last valid offset and the length of its run; reset 0. -/
  lastValid : Nat
  validRun : Nat
  /-- Runs of invalid words and of 0xFFFF; reset 0. -/
  invalidRun : Nat
  aisRun : Nat
  /-- Defects LOP, AIS-P, PLM and RDI_P from bit 0 up, after suppression (Table 7.8); reset 0. -/
  defects : BitVec 4
  /-- Runs of mismatched and matched client types (R182), of path RDI 1 and 0 (R187); reset 0. -/
  plmRun : Nat
  plmOkRun : Nat
  rdiRun : Nat
  rdiOkRun : Nat
  /-- Local Fault is sent to the client (R160, R179); reset 1. -/
  localFault : Bool
  /-- The container in progress; reset none. -/
  part : Option RxContainer
  /-- The 257-bit block in progress (R155, R161). -/
  block : BlockRx
  /-- F that the latest VERIFIED frame advertised (R161, R167); reset 0. -/
  stuff : Nat
  /-- Path BIP-8 of the previous container, if verified whole (R187); reset none. -/
  bip : Option (BitVec 8)
  /-- Path trace (R188). -/
  trace : TraceRx
  deriving DecidableEq, Repr

/-- A slot receiver at reset. -/
def SlotRx.reset : SlotRx :=
  { ptr := .init, offset := 0, lastValid := 0, validRun := 0, invalidRun := 0, aisRun := 0, defects := 0, plmRun := 0,
    plmOkRun := 0, rdiRun := 0, rdiOkRun := 0, localFault := true, part := none, block := BlockRx.reset, stuff := 0, bip := none,
    trace := TraceRx.reset }

/-- A line port on the transport path. -/
structure FacetPort where
  /-- The port is on the transport path (R29); reset 0. -/
  active : Bool
  /-- N of FACET_CFG as sampled; reset 1. -/
  trib : Nat
  /-- Slots as sampled (R168). -/
  slots : Tbl FacetSlot
  /-- Section trace sent, 64 bytes (R168); reset 0. -/
  strace : BitVec 512
  /-- Mappers by slot. -/
  maps : Tbl Mapper
  /-- MFC of the next frame sent; reset 0. -/
  mfc : BitVec 8
  /-- Section BIP-8 of the last frame sent (R184); reset 0. -/
  txBip : BitVec 8
  /-- Section REI to send (R185); reset 0. -/
  rei : Nat
  /-- Tag failures since the last frame sent, saturating at 0xFFFF (R185); reset 0. -/
  failed : Nat
  /-- The last data frame sent was keyed (R150); reset 0. -/
  keyed : Bool
  /-- Management messages queued to send, and the rest of the one being sent, with their FRAME_SEND (R151, R477); reset none. -/
  txMsgs : List (List Byte × Desc)
  txRest : Option (List Byte × Desc)
  /-- Data codewords sent since the last marker, and markers sent since PORT_ENABLE modulo 2^20 (R142); reset 0. -/
  words : Nat
  markers : BitVec 20
  /-- Scrambled message bits that do not fill a codeword, the first in time least significant, and their number, below 5,140 (R142);
  reset none. -/
  pend : Nat
  pendLen : Nat
  /-- The scrambler's last 58 bits sent, the latest in bit 0 (R142); not stated at PORT_ENABLE, 0 (DESIGN CHOICE, log entry 40). -/
  scram : BitVec 58
  /-- MARKER; reset SEARCH. -/
  marker : MarkerMode
  /-- Codeword position of the last markers; reset 0. -/
  markerPos : Nat
  /-- Count expected next and markers missed in a row, by logical lane; reset 0. -/
  laneCount : Tbl (BitVec 20)
  laneMiss : Tbl Nat
  /-- SKEW in ns; reset 0. -/
  skew : Nat
  /-- FRAME; reset OUT. -/
  frame : FrameMode
  /-- Open candidates, in the order they were opened (R171); reset none. -/
  cands : List Candidate
  /-- Consecutive errored alignment words (R172); reset 0. -/
  errRun : Nat
  /-- Section defects LOS, LOL, LOFEC, LOF, AIS-S, AUTH, KEYX from bit 0 up, after suppression (Table 7.8); reset 0. -/
  defects : BitVec 7
  /-- FACET_DEFECT_LATCH: slots, RDI_RX, section; reset 0. -/
  latch : BitVec 32
  /-- RDI_RX; reset 0. -/
  rdiRx : Bool
  /-- FAR_CODE, 3 bits; reset 0. -/
  farCode : Nat
  /-- Runs of RDI 1 and 0 (R186), of FAILED, UNKEYABLE and VERIFIED frames, and frames since the last VERIFIED (R174); reset 0. -/
  rdiRun : Nat
  rdiOkRun : Nat
  failRun : Nat
  unkeyRun : Nat
  okRun : Nat
  sinceOk : Nat
  /-- Runs of AIS-S frames and of others (R175); reset 0. -/
  aisRun : Nat
  aisOkRun : Nat
  /-- Section BIP-8 of the previous frame received IN_FRAME (R184); reset none. -/
  rxBip : Option (BitVec 8)
  /-- Slot receivers. -/
  rx : Tbl SlotRx
  /-- Section trace (R188). -/
  trace : TraceRx
  /-- Management message being assembled: its bytes and whether its frames are keyed (R152); reset none. -/
  rxMsg : Option (List Byte × Bool)
  /-- Why the latest frame carried no usable segment, where it carried none: cause of event 0x282 (R152); reset 0. -/
  rxGap : Nat
  /-- The rest of a discarded message is passed over (R152); reset 0. -/
  rxSkip : Bool
  /-- Performance counters since PORT_ENABLE (Table 7.5); reset 0. -/
  pm : Tbl (BitVec 32)
  /-- FACET_PM_i, the copy of the latest tick; reset 0. -/
  pmShown : Tbl (BitVec 32)
  /-- FACET_PM_SECOND; reset 0. -/
  pmSecond : BitVec 32
  /-- Defects that have stood in the present second: section [6:0], RDI_RX [7], slot t [8+4t+:4] (R189); reset 0. -/
  stood : BitVec 24
  /-- SYS_REFCLK time since which every lane shows no signal, and since which every lane shows signal (R177); reset none. -/
  quietSince : Option Nat
  signalSince : Option Nat
  deriving DecidableEq, Repr

/-- A port that is not on the transport path. -/
def FacetPort.reset : FacetPort :=
  { active := false, trib := 1, slots := [], strace := 0, maps := [], mfc := 0, txBip := 0, rei := 0, failed := 0, keyed := false,
    txMsgs := [], txRest := none, words := 0, markers := 0, pend := 0, pendLen := 0, scram := 0, marker := .search, markerPos := 0, laneCount := [], laneMiss := [],
    skew := 0, frame := .out, cands := [], errRun := 0, defects := 0, latch := 0, rdiRx := false, farCode := 0, rdiRun := 0,
    rdiOkRun := 0, failRun := 0, unkeyRun := 0, okRun := 0, sinceOk := 0, aisRun := 0, aisOkRun := 0, rxBip := none, rx := [],
    trace := TraceRx.reset, rxMsg := none, rxGap := 0, rxSkip := false, pm := [], pmShown := [], pmSecond := 0, stood := 0, quietSince := none,
    signalSince := none }

end Sys2Proof.Machine
end

