-- ==== Sys2Proof/Machine/PairState.lean ====
section
/-! DEFINITION. The state of the logical ports, the serial lanes and the twin pair (chapters 1, 5, 8, 18, 19). -/

namespace Sys2Proof.Machine

/-- A logical port, client or line (Tables 1.5, 21 R501). -/
structure LPort where
  /-- Enabled by PORT_ENABLE (R501); reset 0. -/
  enabled : Bool
  /-- A PORT_DISABLE of it drains (R207, R501); reset 0. -/
  draining : Bool
  /-- MODE of the latest PORT_ENABLE, 3 bits (R109, R501); reset none. -/
  mode : Option (BitVec 3)
  /-- Up: every lane LOCKED and the PCS aligned (R438); reset 0. -/
  up : Bool
  /-- Partner handle bound to it, 6 bits (R94); reset none. -/
  partner : Option (BitVec 6)
  /-- Octeg version of the partner entry, 8 bits (R501); reset 0. -/
  octeg : BitVec 8
  /-- Peer unit ID, 16 bits (R501); reset 0. -/
  peer : BitVec 16
  /-- LINE_MACSEC_CFG as sampled (R125); reset 0. -/
  macsec : BitVec 32
  /-- LINE_UNCTRL_ETYPE_A and B as sampled, B in the upper half (R125); reset 0. -/
  etypes : BitVec 64
  deriving DecidableEq, Repr

/-- A logical port after reset. -/
def LPort.reset : LPort :=
  { enabled := false, draining := false, mode := none, up := false, partner := none, octeg := 0, peer := 0, macsec := 0, etypes := 0 }

/-- A PORT_DISABLE that drains: its command, the sub-ports it names and the SYS_REFCLK time of its timeout (R207, R208). -/
structure Disable where
  desc : Desc
  side : Side
  port : Nat
  mask : Nat
  due : Nat
  deriving DecidableEq, Repr

/-- The logical ports (chapters 1, 5, 8). -/
structure PortsState where
  /-- Logical ports by 64*side+4n+s, client 0, line 1; reset disabled. -/
  lports : Tbl LPort
  /-- DEC_POLICY as sampled by each Prism (R204); reset 0. -/
  decPolicy : Tbl Bool
  /-- PORT_DISABLE commands that drain, oldest first (R207); reset none. -/
  disables : List Disable
  deriving DecidableEq, Repr

/-- The logical ports after reset. -/
def PortsState.reset : PortsState := { lports := [], decPolicy := [], disables := [] }

/-- Lane bring-up states (Table 18.3). -/
inductive LaneMode where
  | off | pll | signal | cdr | adapt | locked | train
  deriving DecidableEq, Repr

/-- A serial lane (chapter 18). -/
structure LaneUnit where
  /-- LANE_STATUS.STATE; reset OFF. -/
  mode : LaneMode
  /-- LANE_STATUS.SIGNAL; reset 0. -/
  signal : Bool
  /-- LOL_LATCH; reset 0. -/
  lol : Bool
  /-- EQ_ERR; reset 0. -/
  eqErr : Bool
  /-- POWER of a Chord lane, 2 bits (Table 18.5); reset 0. -/
  power : BitVec 2
  /-- RX_INV_DET; reset 0. -/
  inverted : Bool
  /-- CTLE, 8 bits (R432); reset 0. -/
  ctle : BitVec 8
  /-- SYS_REFCLK time of the LOL since which coefficients are kept: a fast relock is possible for 10 ms (R427); reset none. -/
  kept : Option Nat
  /-- SYS_REFCLK time from which the 500 ms of R425 run, until the lane has reached LOCKED; reset none. -/
  since : Option Nat
  /-- LANE_PRBS.CHK_LOCK; reset 0. -/
  chkLock : Bool
  /-- LANE_PRBS_ERR.ERRORS, 32 bits; reset 0. -/
  errors : BitVec 32
  /-- Bits inverted by writes of INJECT (R434); the model's own count; reset 0. -/
  injected : Nat
  /-- An eye point is being measured (R436); reset 0. -/
  eyeBusy : Bool
  /-- LANE_EYE_RESULT, 32 bits; reset 0. -/
  eye : BitVec 32
  deriving DecidableEq, Repr

/-- A lane after reset. -/
def LaneUnit.reset : LaneUnit :=
  { mode := .off, signal := false, lol := false, eqErr := false, power := 0, inverted := false, ctle := 0, kept := none, since := none,
    chkLock := false, errors := 0, injected := 0, eyeBusy := false, eye := 0 }

/-- Lease states (Table 19.4). -/
inductive Lease where
  | unconfigured | solo | standby | active | lapsed | handover
  deriving DecidableEq, Repr

/-- An Octeg session that the redundancy controller runs (R481): over Chord, or with the arbiter. -/
structure Session where
  /-- Own NONCE of this attempt, 128 bits. -/
  own : BitVec 128
  /-- NONCE of the last HELLO received, 128 bits; 0 before one. -/
  peer : BitVec 128
  /-- Session version V, 0 while the session is down. -/
  ver : Nat
  /-- SYS_REFCLK time of the next HELLO. -/
  helloDue : Nat
  deriving DecidableEq, Repr

/-- A session not begun. -/
def Session.reset : Session := { own := 0, peer := 0, ver := 0, helloDue := 0 }

/-- What a copy carries of one association: the context image without NEXT and LEAP, and those two (R447). -/
structure SentCopy where
  image : BitVec 1024
  next : Nat
  leap : Nat
  deriving DecidableEq, Repr

/-- A copy that has been sent and not yet acknowledged (R447, R448). -/
structure OpenCopy where
  seq : Nat
  full : Bool
  sent : Tbl SentCopy
  /-- Handles that became FREE after it was opened: its acknowledgement carries nothing for an association created under one since (R110). -/
  freed : List Nat
  deriving DecidableEq, Repr

/-- The redundancy controller and the Chord link (chapter 19). -/
structure TwinState where
  /-- TWIN_STATUS.LEASE; reset UNCONFIGURED (R442). -/
  lease : Lease
  /-- SOLO is barred: a CONFIGURE or REMOVE has completed since reset (R442); reset 0. -/
  barred : Bool
  /-- Parameters of Table 19.1: SIDE B, PREFERRED, WARM, LOW_RATE, L0S, ROLE_PINS, ARB_PORT; reset 0. -/
  sideB : Bool
  preferred : Bool
  warm : Bool
  lowRate : Bool
  l0s : Bool
  rolePins : Bool
  arbPort : Bool
  /-- PAIR_ID, 16 bits; reset 0. -/
  pairId : BitVec 16
  /-- DOMAIN_WK, 8 bits; reset 0. -/
  domainWk : BitVec 8
  /-- ARB_MAC, 48 bits; reset 0. -/
  arbMac : BitVec 48
  /-- LEASE_MS; reset 20 (Table 19.1). -/
  leaseMs : Nat
  /-- CYCLE_US; reset 250 (R446). -/
  cycleUs : Nat
  /-- STALE_US; reset 1,000. -/
  staleUs : Nat
  /-- REVERT_S; reset 300. -/
  revertS : Nat
  /-- T_eff in microseconds (R446); reset 250. -/
  effUs : Nat
  /-- Chord link width: 0 down, 1, 2, 4, 8, or 15 low rate (Table 19.8); reset 0. -/
  width : Nat
  /-- LANES_UP, 8 bits; reset 0. -/
  lanesUp : BitVec 8
  /-- Data lanes LOCKED without a break since link-up or WIDEN last set the width: those the link may narrow to (R439); reset 0. -/
  eligible : BitVec 8
  /-- The Chord session is up and event 0x301 has said so (R445, R482); reset 0. -/
  linkUp : Bool
  /-- The Chord session (R444, R481). -/
  chord : Session
  /-- Chord session key, 256 bits (R444); reset 0. -/
  key : BitVec 256
  /-- Message counters sent and received in the session (R444); reset 0. -/
  txCount : Nat
  rxCount : Nat
  /-- Consecutive messages that failed their tag (R445); reset 0. -/
  badRun : Nat
  /-- SYS_REFCLK time of the last verified message received and of the last one sent (R445); reset 0. -/
  lastRx : Nat
  lastTx : Nat
  /-- The arbiter session (R452, R481). -/
  arb : Session
  /-- The arbiter refused every common version (R452); reset 0. -/
  arbRefused : Bool
  /-- Arbiter key, 256 bits, once derived (R451); reset none. -/
  arbKey : Option (BitVec 256)
  /-- Nonces of the last four requests with their send times, newest first (R452); reset none. -/
  requests : List (BitVec 64 × Nat)
  /-- Highest epoch accepted, 64 bits (R452); reset 0. -/
  epoch : Nat
  /-- SYS_REFCLK time at which the lease ends (R450); reset 0. -/
  leaseEnd : Nat
  /-- SYS_REFCLK time of the next LEASE_REQUEST (R450); reset 0. -/
  requestDue : Nat
  /-- TWIN_STATUS.STALE: ceilings lifted, or the last grant seen read STALE (R454, Table 19.8); reset 0. -/
  stale : Bool
  /-- SYS_REFCLK time since which some association waits at its twin ceiling (R454); reset none. -/
  holdSince : Option Nat
  /-- STALE_REQUEST has been sent for the present hold (R454); reset 0. -/
  staleAsked : Bool
  /-- COPY_CURRENT is sent with each renewal until a GRANT carries CODE 0 (R454); reset 0. -/
  wantCurrent : Bool
  /-- SYS_REFCLK time at which the next sync cycle is due (R447); reset 0. -/
  cycleDue : Nat
  /-- Sequence number of the last copy opened, 64 bits (R447); reset 0. -/
  copySeq : Nat
  /-- Last copy acknowledged, by this unit as standby or to it as active (Tables 19.5, 19.11); reset 0. -/
  copyAck : Nat
  /-- The next copy is full (R447); reset 1. -/
  nextFull : Bool
  /-- A copy has been acknowledged in this session, to the active or by the standby (R451, R458); reset 0. -/
  ackedInSession : Bool
  /-- This unit has acknowledged a full copy since its last reset (R455); reset 0. -/
  fullSinceReset : Bool
  /-- Copies sent and not acknowledged, oldest first (R447); reset none. -/
  openCopies : List OpenCopy
  /-- What the last acknowledged copies carry, by SA handle (R447, R448); reset none. -/
  acked : Tbl SentCopy
  /-- DK slots that have committed a generation (true), or whose active half has left VALID (false), since a record of it was sent, in the
  order of the changes (R447); reset none. -/
  keyOrder : List (Nat × Bool)
  /-- Standby: the copy arriving: sequence, records received, full (R448); reset none. -/
  rxCopy : Option (Nat × Nat × Bool)
  /-- A handover runs: its command, SYS_REFCLK deadline and final copy (R458); reset none. -/
  handover : Option (Option Desc × Nat × Nat)
  /-- Standby: TWIN_HANDOVER commands that wait for the grant (R458); reset none. -/
  asking : List Desc
  /-- A HANDOVER_REQUEST has been sent and no grant has come since (R458, R459); reset 0. -/
  asked : Bool
  /-- Lease state in the last verified HEARTBEAT of the session, which version 3 carries (Table 20.11); reset 0. -/
  peerLease : Nat
  /-- SYS_REFCLK time at which the wait-to-restore timer expires (R459); reset none. -/
  restoreDue : Option Nat
  /-- The timer has expired in the present stay of STANDBY and ready (R459); reset 0. -/
  restoreDone : Bool
  deriving DecidableEq, Repr

/-- The redundancy controller after a cold reset. -/
def TwinState.reset : TwinState :=
  { lease := .unconfigured, barred := false, sideB := false, preferred := false, warm := false, lowRate := false, l0s := false,
    rolePins := false, arbPort := false, pairId := 0, domainWk := 0, arbMac := 0, leaseMs := 20, cycleUs := 250, staleUs := 1000,
    revertS := 300, effUs := 250, width := 0, lanesUp := 0, eligible := 0, linkUp := false, chord := Session.reset, key := 0, txCount := 0,
    rxCount := 0, badRun := 0, lastRx := 0, lastTx := 0, arb := Session.reset, arbRefused := false, arbKey := none, requests := [],
    epoch := 0, leaseEnd := 0, requestDue := 0, stale := false, holdSince := none, staleAsked := false, wantCurrent := false,
    cycleDue := 0, copySeq := 0, copyAck := 0, nextFull := true, ackedInSession := false, fullSinceReset := false, openCopies := [],
    acked := [], keyOrder := [], rxCopy := none, handover := none, asking := [], asked := false, peerLease := 0, restoreDue := none,
    restoreDone := false }

end Sys2Proof.Machine
end

