-- ==== Sys2Proof/Machine/PathState.lean ====
section
/-! DEFINITION. The state of Tessera, Annulus queues, Locus and Sector (chapters 13, 14, 15). -/

namespace Sys2Proof.Machine

/-- A frame in Tessera: its cells share one state, holder and reference count (R337 to R346). -/
structure TFrame where
  /-- Names the frame in the model. -/
  id : Nat
  /-- Frame bytes without FCS. -/
  bytes : List Byte
  /-- The FCS it carries: received from a client, computed by a Prism (R528), or none. -/
  fcs : Option (BitVec 32)
  /-- INTEG_FCS_PRESERVE when the frame entered: the mode applies to frames that enter after a write (R528). -/
  keep : BitVec 16
  /-- Its cells in chain order, 19 bits each (R337). -/
  cells : List Nat
  /-- Pool and charge owner (R338, R342). -/
  pool : Nat
  charge : Nat
  /-- One entry per reference, at most 127 (R345): the owner that holds it, 8 bits (R342), or none while Sector queues it
  (QUEUED, Table 14.1). -/
  refs : List (Option Nat)
  /-- Ingress logical port, ingress time-stamp in 2^-16 ns, uncontrolled, verifying association (Table 14.11). -/
  lp : Nat
  stamp : Nat
  unctl : Bool
  sa : Option Nat
  /-- Its source ended it with an inverted FCS (R200). -/
  cut : Bool
  deriving DecidableEq, Repr

/-- Why a free is refused (Table 14.3): the bit of TESSERA_ERR, the counter and the event. -/
inductive FreeErr where
  | badPtr | double | foreign
  deriving DecidableEq, Repr

/-- Tessera (chapter 14). -/
structure TessState where
  /-- Frames that hold cells; reset none. -/
  frames : List TFrame
  /-- The next frame name; the model's own; reset 0. -/
  nextId : Nat
  /-- Bank after which each pool starts its next frame, 6 bits (R338); reset 63, so that the first frame starts at bank 0. -/
  lastBank : Tbl (Fin 64)
  /-- Pools whose free lists are being built (R339); reset none. -/
  building : List Nat
  /-- Free lists by 64 * pool + bank (R338): the cells freed since the list was built, the head first. The cells that have not been
  allocated since the build follow them, in an order that the spec leaves open; reset none. -/
  lists : Tbl (List Nat)
  /-- Lists, as pool and bank, stopped at an uncorrectable link and not yet rebuilt (R350); reset none. -/
  broken : List (Nat × Nat)
  /-- Cells whose on-die metadata is corrupt, with the check that each fails (R348); reset none. -/
  corrupt : List (Nat × FreeErr)
  /-- TESSERA_ERR.OWNER and CELL of the latest refused free, 8 and 19 bits; reset 0. -/
  errOwner : Nat
  errCell : Nat
  /-- Names and first cells of frames that RECLAIM freed under a consumer that may still free them (Table 14.4); reset none. -/
  released : List (Nat × Nat)
  deriving DecidableEq, Repr

/-- Tessera after reset. -/
def TessState.reset : TessState :=
  { frames := [], nextId := 0, lastBank := [], building := [], lists := [], broken := [], corrupt := [],
    errOwner := 0, errCell := 0, released := [] }

/-- An Annulus queue (R352 to R357), its configuration as sampled at enable. -/
structure AQueue where
  /-- ANNULUS_Q_CFG.ENABLE; reset 0. -/
  enabled : Bool
  /-- ORG ping-pong; SIZE, 4 bits; CAP, 25 bits; base, 40 bits, as sampled; reset 0. -/
  ping : Bool
  size : Nat
  cap : Nat
  base : Nat
  /-- Entries accepted and not yet written to HBM, oldest first, at most 64, each with whether it begins an item (R354, R355); reset none. -/
  tail : List (Bool × List Byte)
  /-- Entries written since the enable (spill) or into the fill bank (ping-pong); reset 0. -/
  written : Nat
  /-- Entries released since the enable (spill) or in the drain bank (ping-pong); reset 0. -/
  released : Nat
  /-- Entries of the drain bank at its swap (ping-pong); reset 0. -/
  drain : Nat
  /-- The drain bank (Table 14.17 BANK); reset 0. -/
  bank : Bool
  /-- Entries that carry poison (R357): by number of their write, plus 2^32 in bank 1 of a ping-pong queue; reset none. -/
  poisoned : List Nat
  /-- Hull refused an entry write (R358); reset 0. -/
  stopped : Bool
  deriving DecidableEq, Repr

/-- A queue after reset. -/
def AQueue.reset : AQueue :=
  { enabled := false, ping := false, size := 0, cap := 0, base := 0, tail := [], written := 0, released := 0, drain := 0, bank := false,
    poisoned := [], stopped := false }

/-- A punted frame that waits for its copy: queue, frame, reason (R359). -/
structure Punt where
  queue : Nat
  frame : Nat
  reason : Nat
  deriving DecidableEq, Repr

/-- Annulus (chapter 14). -/
structure AnnulusState where
  /-- Queues 0-255. -/
  queues : Tbl AQueue
  /-- ANNULUS_STATUS.QUEUE, 8 bits; reset 0. -/
  queue : Nat
  /-- Punted frames held until copied, oldest first; reset none. -/
  punts : List Punt
  /-- Batches in the Radius inbound queue 255: frame names, oldest first (R354); reset none. -/
  inbound : List Nat
  /-- Batches accepted since queue 255 was enabled, and the numbers of those that carry poison (R354, R357); reset 0 and none. -/
  inTotal : Nat
  inBad : List Nat
  deriving DecidableEq, Repr

/-- Annulus after reset. -/
def AnnulusState.reset : AnnulusState := { queues := [], queue := 0, punts := [], inbound := [], inTotal := 0, inBad := [] }

/-- An exact-match entry (Table 13.6). -/
structure EmEntry where
  /-- KEY, 128 bits. -/
  key : BitVec 128
  /-- PROFILE, 4 bits. -/
  profile : BitVec 4
  /-- STATIC, LEARNED, HIT. -/
  static : Bool
  learned : Bool
  hit : Bool
  /-- LEARN_LP, 7 bits. -/
  learnLp : BitVec 7
  /-- RESULT, 96 bits (Table 13.5). -/
  result : BitVec 96
  deriving DecidableEq, Repr

/-- A learn request (R326 to R328). -/
structure LearnReq where
  key : BitVec 128
  profile : BitVec 4
  lp : BitVec 7
  deriving DecidableEq, Repr

/-- A table command that waits on a lock (Table 13.10): the command, its timeout, and for TBL_WRITE the records done. -/
structure TblWait where
  desc : Desc
  due : Nat
  done : Nat
  /-- The records of a TBL_WRITE, read in full when it started (R488). -/
  buf : List Byte
  deriving DecidableEq, Repr

/-- Locus (chapter 13). -/
structure LocusState where
  /-- Exact-match entries by slot: bank 294,912 b + 4 bucket + slot, stash from 589,824 (R320); reset none. -/
  em : Tbl EmEntry
  /-- 128-bit hash seed (R320); reset 0 until a clear draws one. -/
  seed : BitVec 128
  /-- Uncorrectable slots, by slot number, not yet rewritten (R323); reset none. -/
  badSlots : List Nat
  /-- LOCUS_EM_ECC.BANK and ECC_BUCKET, 18 bits; reset 0. -/
  eccBucket : BitVec 18
  /-- Prefixes by length * 2^32 + prefix, and by length * 2^128 + prefix: next-hop index (R324); reset none. -/
  v4 : Tbl (Option (BitVec 16))
  v6 : Tbl (Option (BitVec 16))
  /-- Next-hop results (R324); reset none. -/
  hops : Tbl (Option (BitVec 96))
  /-- Learn requests queued, at most 4,096, and the side list, at most 64 (R328); reset none. -/
  learns : List LearnReq
  side : List LearnReq
  /-- Move-hold cache, oldest first: profile, key, SYS_REFCLK time (R329); reset none. -/
  hold : List (BitVec 4 × BitVec 128 × Nat)
  /-- Keys with move conflicts in a Gnomon second: second, profile, key, conflicts, at most 64 (R330); reset none. -/
  flaps : List (Nat × BitVec 4 × BitVec 128 × Nat)
  /-- Learn requests discarded since 0x0A5 was last raised; reset 0. -/
  discarded : Nat
  /-- Bucket locks: bucket ([17] bank), owner ID, SYS_REFCLK time at which the lease ends (R332); reset none. -/
  locks : Tbl (Nat × Nat)
  /-- Table commands that wait on a lock, oldest first; reset none. -/
  waits : List TblWait
  deriving DecidableEq, Repr

/-- Locus after reset. -/
def LocusState.reset : LocusState :=
  { em := [], seed := 0, badSlots := [], eccBucket := 0, v4 := [], v6 := [], hops := [], learns := [], side := [], hold := [],
    flaps := [], discarded := 0, locks := [], waits := [] }

/-- A frame in a Sector queue. -/
structure QEntry where
  /-- The frame, the wire length it is charged (R361), and its cells. -/
  frame : Nat
  len : Nat
  cells : Nat
  /-- Transmit secure channel of a line frame (Table 13.5), 17 bits. -/
  sc : Option Nat
  /-- UNCONTROLLED injection (R135) and transmit time-stamp identifier (R390). -/
  unctl : Bool
  tsId : Option Nat
  /-- Gnomon ns at admission (R378). -/
  at_ : Nat
  deriving DecidableEq, Repr

/-- A shaper or policer bucket: level in 1/16,000,000 byte at a SYS_REFCLK time (R365, R371). -/
structure Bucket where
  level : Int
  at_ : Nat
  deriving DecidableEq, Repr

/-- A gate list (R376): segments of gate states and intervals, cycle in ns, start in Gnomon ns. -/
structure GateList where
  entries : List (BitVec 8 × Nat)
  cycle : Nat
  start : Nat
  deriving DecidableEq, Repr

/-- The gates of one port (R372 to R377). -/
structure GatePort where
  /-- The operational list; reset none. -/
  oper : Option GateList
  /-- The pending list, and whether it is ARMED; reset EMPTY. -/
  pend : Option GateList
  armed : Bool
  /-- OPER and BASE_ADJUSTED; reset 0. -/
  which : Bool
  adjusted : Bool
  /-- SECTOR_GATE_PSTART, 80 bits as Gnomon ns; reset 0. -/
  pstart : Nat
  deriving DecidableEq, Repr

/-- A port's gates after reset. -/
def GatePort.reset : GatePort := { oper := none, pend := none, armed := false, which := false, adjusted := false, pstart := 0 }

/-- Sector (chapter 15). -/
structure SectorState where
  /-- Records by target * 65,536 + index, eight words (Table 15.5); reset 0. -/
  recs : Tbl (BitVec 256)
  /-- Buckets by 2 * (target * 65,536 + index) + (0 committed or first, 1 peak or second); reset 0. -/
  buckets : Tbl Bucket
  /-- Queues by 4,096 * side + queue; reset empty. -/
  queues : Tbl (List QEntry)
  /-- High-water marks of depth and sojourn by queue (R378); reset 0. -/
  hwm : Tbl (Nat × Nat)
  /-- Virtual times, 48 bits: priority nodes at 8 lp + prio, group nodes at 2,048 + 8 lp + g, lp 0-127 (R367); reset 0. -/
  vtime : Tbl Nat
  /-- Start and finish tags, 48 bits, of backlogged children: groups at 8 lp + g, queues at 2,048 + 4,096 side + q (R367); reset none. -/
  tags : Tbl (Option (Nat × Nat))
  /-- Token-bucket queue last served in a group, by 8 lp + g (R366); reset 0. -/
  lastTb : Tbl Nat
  /-- Queues a Prism has stopped for a parked frame (R118, R266); reset none. -/
  stopped : List Nat
  /-- Gates of ports 0-31. -/
  gates : Tbl GatePort
  deriving DecidableEq, Repr

/-- Sector after reset. -/
def SectorState.reset : SectorState :=
  { recs := [], buckets := [], queues := [], hwm := [], vtime := [], tags := [], lastTb := [], stopped := [], gates := [] }

end Sys2Proof.Machine
end

