-- ==== Sys2Proof/Machine/RadiusState.lean ====
section
/-! DEFINITION. The state of Radius (chapter 12). -/

namespace Sys2Proof.Machine

/-- RADIUS_STATUS.STATE (Table 12.17). -/
inductive RadiusMode where
  | idle | running | draining
  deriving DecidableEq, Repr

/-- An entry of the key cache (R298): its tag and the masked key. -/
structure SensorKey where
  sensor : BitVec 64
  group : Nat
  gen : BitVec 32
  /-- None while the entry is reserved for a derivation (Table 12.10). -/
  key : Option Shares
  /-- The item whose dispatch reserved it. -/
  item : Nat
  deriving DecidableEq, Repr

/-- A record lock (R296): owner ID, end of the lease, sensor ID. -/
structure RecLock where
  owner : Nat
  due : Nat
  sensor : BitVec 64
  deriving DecidableEq, Repr

/-- A work item of Radius (R295). -/
structure RItem where
  /-- Names the item in the model. -/
  id : Nat
  /-- DIR: uplink. -/
  up : Bool
  /-- The thread that holds it, 8 engine + thread; none while it waits for dispatch. -/
  thr : Option Nat
  /-- The batch it came with (R292). -/
  batch : Nat
  sensor : BitVec 64
  /-- Slot of the record while it is locked for the item (R295). -/
  slot : Nat
  group : Nat
  /-- The group's parameters and route at its dispatch (R290). -/
  params : BitVec 256
  route : BitVec 384
  /-- Gateway handle. -/
  gateway : Nat
  /-- Arrival time in Gnomon ns. -/
  at_ : Nat
  /-- Bytes of the uplink or request record. -/
  record : List Byte
  /-- Version of its batch. -/
  ver : Nat
  /-- Record image read at dispatch, to hold a write-back against (R297). -/
  image : List Byte
  /-- Work item buffer of 512 bytes (Table 12.11). -/
  buf : List Byte
  /-- The sensor key in use: cached, or derived by the item's derivation descriptor (R298, R299). -/
  key : Option Shares
  /-- Generation of the group root whose material its derivation in progress uses (R71, R72). -/
  root : Option (BitVec 32)
  /-- Downlink: the counter taken, the window start in Gnomon ns and when the request expires (R304, R305). -/
  counter : Nat
  window : Nat
  /-- Its wait for a thread, a lock or output space is counted (R295). -/
  stalled : Bool
  /-- It waits for output space, so batches wait too (R303). -/
  waitOut : Bool
  deriving DecidableEq, Repr

/-- A batch whose records have not all reached their disposition (R292). -/
structure RBatch where
  id : Nat
  /-- Items still to be disposed of. -/
  left : Nat
  /-- An ACK is owed: gateway handle and batch sequence. -/
  ack : Option (Nat × BitVec 32)
  deriving DecidableEq, Repr

/-- An entry of the downlink store (R304 to R306). -/
structure StoreEntry where
  id : Nat
  /-- Its place among the 1,048,576 of Table 12.1. -/
  place : Nat
  /-- HELD at the checkpoint budget: the request waits for a counter. -/
  held : Option RItem
  sensor : BitVec 64
  group : Nat
  /-- The group's parameters and route at its dispatch (R290). -/
  params : BitVec 256
  route : BitVec 384
  appTag : BitVec 64
  gateway : Nat
  queue : Nat
  /-- Counter taken, window start and expiry in Gnomon ns, lead in ns. -/
  counter : Nat
  window : Nat
  expiry : Nat
  lead : Nat
  /-- The downlink record as emitted. -/
  record : List Byte
  deriving DecidableEq, Repr

/-- A READING_BATCH datagram of a group (R302): its group with the parameters and the route of the items it reports, its records, when FLUSH
ends, and that it is filled no more and waits for cells (R303). -/
structure Datagram where
  group : Nat
  params : BitVec 256
  route : BitVec 384
  closed : Bool
  records : List (List Byte)
  due : Nat
  deriving DecidableEq, Repr

/-- A SENSOR_CHECKPOINT that pauses while a rail is in its warning band (R309): the command and when the pause began. -/
structure CkptPause where
  desc : Desc
  since : Nat
  deriving DecidableEq, Repr

/-- Radius (chapter 12). -/
structure RadiusState where
  /-- RADIUS_STATUS.STATE; reset IDLE. -/
  mode : RadiusMode
  /-- RADIUS_MEM.BASE as sampled, 10 bits (R282); reset 0. -/
  base : Nat
  /-- 128-bit hash seed (R283); reset 0 until an enable with an empty table draws it. -/
  seed : BitVec 128
  /-- RADIUS_TABLE_COUNT.RECORDS, 27 bits; reset 0. -/
  records : Nat
  /-- Sensor records in the table, VALID or not; reset 0. -/
  sensors : Nat
  /-- Gateway records in the table, with the retired ones; reset 0. -/
  gateways : Nat
  /-- Group parameters, 32 bytes (Table 12.4); reset 0. -/
  groups : Tbl (BitVec 256)
  /-- Routes, 48 bytes (R508); reset 0. -/
  routes : Tbl (BitVec 384)
  /-- Window profiles, 32 bytes (Table 12.8); reset 0. -/
  profiles : Tbl (BitVec 256)
  /-- Profile of each downlink queue, 6 bits (R290); reset 0. -/
  queues : Tbl (BitVec 6)
  /-- Key cache by set, most recently used first, at most 16 in a set (R298); reset empty. -/
  keys : Tbl (List SensorKey)
  /-- Record locks by slot (R296); reset none. -/
  locks : Tbl RecLock
  /-- Work items, waiting and running, in order of arrival; reset none. -/
  items : List RItem
  batches : List RBatch
  /-- Next item, batch and store entry name; the model's own; reset 0. -/
  nextId : Nat
  /-- Downlink store, at most 1,048,576 entries (R306); reset empty. -/
  store : List StoreEntry
  /-- READING_BATCH datagrams, oldest first (R302); reset none. -/
  datagrams : List Datagram
  /-- Next batch sequence of batches that Radius sends, 32 bits; reset 0 (DESIGN CHOICE, log 75). -/
  batchSeq : BitVec 32
  /-- The SERVICE disable that drains, and when its timeout expires (R291); reset none. -/
  disable : Option (Desc × Nat)
  /-- Paused checkpoints, oldest first (R309); reset none. -/
  paused : List CkptPause
  deriving DecidableEq, Repr

/-- Radius after reset. -/
def RadiusState.reset : RadiusState :=
  { mode := .idle, base := 0, seed := 0, records := 0, sensors := 0, gateways := 0, groups := [], routes := [], profiles := [], queues := [],
    keys := [], locks := [], items := [], batches := [], nextId := 0, store := [], datagrams := [], batchSeq := 0, disable := none,
    paused := [] }

end Sys2Proof.Machine
end

