-- ==== Sys2Proof/Machine/SecureState.lean ====
section
/-! DEFINITION. The state of Apex, Axis and the associations (chapters 2, 3, 4). -/

namespace Sys2Proof.Machine

/-- States of an active half (Table 3.2). -/
inductive ActiveHalf where
  | none | valid | invalid
  deriving DecidableEq, Repr

/-- States of a pending half (Table 3.2). -/
inductive PendingHalf where
  | empty | staged | verified
  deriving DecidableEq, Repr

/-- The contents of one half of a slot: two shares, their mask's age, and the attributes fixed at staging (R64, R76, R77, R81). -/
structure KeyHalf where
  /-- Share K xor M, 256 bits (R81); reset 0. -/
  share : BitVec 256
  /-- Share M (R81); reset 0. -/
  mask : BitVec 256
  /-- SYS_REFCLK time at which the mask was drawn (R82); reset 0. -/
  maskAt : Nat
  /-- ALG: 0 AES-128, 1 AES-192, 2 AES-256, 3 none (Table 3.12); reset 3. -/
  alg : BitVec 2
  /-- USE: ENC, DEC, DERIVE, WRAP, BLOCK from bit 4 down (R492); reset 0. -/
  use : BitVec 5
  /-- MODE: RETIRE (R77); reset CASCADE. -/
  retire : Bool
  /-- Ancestors as slot and generation, the parent first, as they stood when the key was written (R76, R77; log entry 29); reset none. -/
  anc : List (Nat × BitVec 32)
  deriving DecidableEq, Repr

/-- An empty half. -/
def KeyHalf.reset : KeyHalf := { share := 0, mask := 0, maskAt := 0, alg := 3, use := 0, retire := false, anc := [] }

/-- A replaced generation whose operations are in flight (R72, R73). -/
structure OldGen where
  gen : BitVec 32
  half : KeyHalf
  count : Nat
  since : Nat
  erase : Option Desc
  deriving DecidableEq, Repr

/-- A firmware-visible key slot (R65). -/
structure Slot where
  /-- ACTIVE (Table 3.12); reset NONE. -/
  active : ActiveHalf
  /-- Contents of the active half. -/
  act : KeyHalf
  /-- PENDING (Table 3.12); reset EMPTY. -/
  pending : PendingHalf
  /-- Contents of the pending half. -/
  pnd : KeyHalf
  /-- Generation G, 32 bits (R65); reset 0. -/
  gen : BitVec 32
  /-- INVALID by a KEY_INVALIDATE under the slot's own RETIRE mode (R79); reset 0. -/
  retired : Bool
  /-- Operations in flight under the present generation (R72); reset 0. -/
  live : Nat
  /-- Replaced generations still draining, oldest first (R72); reset none. -/
  old : List OldGen
  /-- Key commands that wait for this slot, in order (R75); reset none. -/
  waitq : List Desc
  /-- SYS_REFCLK time at which the first waiting command began to wait (R75, Table 21.3); reset 0. -/
  waitSince : Nat
  deriving DecidableEq, Repr

/-- A slot after reset. -/
def Slot.reset : Slot :=
  { active := .none, act := KeyHalf.reset, pending := .empty, pnd := KeyHalf.reset, gen := 0, retired := false, live := 0,
    old := [], waitq := [], waitSince := 0 }

/-- Axis (chapter 3). -/
structure AxisState where
  /-- DK, GK and WK slots by class*2^17+index (Table 3.1); reset empty (R65). -/
  slots : Tbl Slot
  /-- CASCADE marking passes running: the command, the slot and its generation (R78); reset none. -/
  marking : List (Desc × Nat × BitVec 32)
  /-- Slots and generations that KEY_INVALIDATE made INVALID under CASCADE (R77, R78; log entry 29); reset none. -/
  cascaded : List (Nat × BitVec 32)
  /-- DRBG requests since the last reseed (R83); reset 0. -/
  drbgCount : Nat
  /-- The entropy source is healthy (R83); reset 1. -/
  entropyOk : Bool
  /-- Axis serves requests (R83); reset 1. -/
  serving : Bool
  /-- AXIS_STATUS.DRBG_FAIL (Table 3.10); reset 0. -/
  drbgFail : Bool
  /-- AXIS_STATUS.ENTROPY_FAIL; reset 0. -/
  entropyFail : Bool
  /-- AXIS_STATUS.SWEEP_OVERDUE; reset 0. -/
  overdue : Bool
  /-- A mask is now older than 64 ms (R82); reset 0. -/
  maskLate : Bool
  /-- AXIS_STATUS.MAX_MASK_AGE, 8 bits (Table 3.10); reset 0. -/
  maxAge : BitVec 8
  /-- Oldest mask age seen so far in the present pass, in ms (Table 3.10); reset 0. -/
  ageSeen : Nat
  /-- SYS_REFCLK time of the next sweep pass (R82); reset 0. -/
  sweepDue : Nat
  deriving DecidableEq, Repr

/-- Axis after a reset that covers it. -/
def AxisState.reset : AxisState :=
  { slots := [], marking := [], cascaded := [], drbgCount := 0, entropyOk := true, serving := true, drbgFail := false, entropyFail := false,
    overdue := false, maskLate := false, maxAge := 0, ageSeen := 0, sweepDue := 0 }

/-- A mailbox of Apex (R39, Table 2.1). -/
structure Mailbox where
  /-- APEX_MBX_CTRL.BUSY; reset 0. -/
  busy : Bool
  /-- APEX_MBX_CTRL.DONE; reset 0. -/
  done : Bool
  /-- GO was written while BUSY: a BUSY answer is owed (R39); reset 0. -/
  owed : Bool
  /-- Request buffer, 512 bytes (R39); reset 0. -/
  req : Tbl (BitVec 8)
  /-- Response buffer, 512 bytes (R39); reset 0. -/
  resp : Tbl (BitVec 8)
  deriving DecidableEq, Repr

/-- A mailbox after reset. -/
def Mailbox.reset : Mailbox := { busy := false, done := false, owed := false, req := [], resp := [] }

/-- OTP: one field per logical partition (R41, R42, R45, R48, R53, R85). Reset leaves all of it as it was. -/
structure OtpState where
  /-- Three cells per life-cycle bit: cell 3b+c of bit b (R41). -/
  lcCells : BitVec 36
  /-- 16-word intent area (R45, Table 2.6), oldest word first. -/
  intent : List (BitVec 32)
  /-- Device serial (R42). -/
  serial : BitVec 64
  /-- SHA-384 of the vendor public key (R42). -/
  vendorHash : BitVec 384
  /-- Vendor seed (R85). -/
  vendorSeed : BitVec 256
  /-- PUF helper data (R85). -/
  helper : BitVec 256
  /-- SHA-384 hashes of the four test tokens (R43). -/
  tokenHash : List (BitVec 384)
  /-- Owner key hash (Table 2.5). -/
  ownerHash : BitVec 384
  /-- Owner seed share (R48, R85). -/
  ownerSeed : BitVec 256
  /-- Owner partition has been erased to ones (R48). -/
  ownerErased : Bool
  /-- Minimum security version of the Apex patch, and the owner thermometer for the boot loader (R53). -/
  minPatch : BitVec 6
  minBoot : BitVec 6
  /-- TAMPER_IN enables (R48). -/
  tamperEn : BitVec 2
  deriving DecidableEq, Repr

/-- A mailbox request that a supply warning holds: before its first write, or, where it has begun, between two operations (R49, R90). -/
structure HeldWrite where
  mbx : Mbx
  since : Nat
  begun : Bool
  deriving DecidableEq, Repr

/-- Apex, the always-on latch and the flash (chapter 2, R90, R557). -/
structure ApexState where
  otp : OtpState
  /-- The Compass mailbox (R39). -/
  mbxC : Mailbox
  /-- The debug port's mailbox (R40). -/
  mbxD : Mailbox
  /-- The mailbox served last (R40); reset the debug port's, so the Compass mailbox goes first. -/
  lastServed : Mbx
  /-- MEAS0 to MEAS5, 384 bits each (R50); reset 0. -/
  meas : Tbl (BitVec 384)
  /-- APEX_BOOT_STATUS.MEAS_LOCK; reset 0. -/
  measLock : Bool
  /-- APEX_BOOT_STATUS.BL_SIGNED, PATCH_ALT, BL_ALT; reset 0. -/
  blSigned : Bool
  patchAlt : Bool
  blAlt : Bool
  /-- Challenge of the last DBG_CHALLENGE while valid (R56); reset none. -/
  challenge : Option (BitVec 256)
  /-- Failed unlock attempts since cold reset (R55); reset 0. -/
  failed : Nat
  /-- Rights granted by vendor certificates (R56); reset 0. -/
  rights : BitVec 16
  /-- Rights granted by owner certificates (R56); reset 0. -/
  ownerRights : BitVec 16
  /-- Debug-opened flag (R56); reset 0. -/
  opened : Bool
  /-- Device root, 384 bits (R85); reset 0 until built. -/
  root : BitVec 384
  /-- Always-on alarm latch: cause bits (Table 2.15); kept by every reset. -/
  cause : BitVec 7
  /-- First rail that glitched (Table 2.15); kept by every reset. -/
  railId : BitVec 8
  /-- The device is held in reset after an alarm or EXTEST (R59, R560); cleared by PORESET_N. -/
  held : Bool
  /-- ALARM_N pin level; reset high. -/
  alarmN : Bool
  /-- Apex has booted and serves (R53); reset 0. -/
  booted : Bool
  /-- Why Compass is held: 0 not, else response byte 0 of R47, R54 or R540 (0xE1, 0xE2, 0xE3); reset 0. -/
  holdCode : BitVec 8
  /-- Apex waits for entropy before it creates DDR region 0 (R83, R402); reset 0. -/
  regionWaits : Bool
  /-- The boot waits, before it resumes a transition, until no rail warns (R46, R49); reset 0. -/
  bootWaits : Bool
  /-- A transition was resumed at this boot, so event 0x002 is owed at release (R46); reset 0. -/
  resumed : Bool
  /-- Entry address of the accepted boot loader (Table 2.8); reset 0. -/
  entry : BitVec 64
  /-- Body digest of the boot loader measured at cold reset (R540); reset 0. -/
  bootDigest : BitVec 384
  /-- A request held by a supply warning (R49, R90); reset none. -/
  heldWrite : Option HeldWrite
  /-- QSPI flash contents: listed bytes, 0xFF elsewhere (R52, R90); kept by every reset. -/
  flash : Tbl (BitVec 8)
  /-- Flash size in bytes from the JESD216 table (R90, R557). -/
  flashSize : Nat
  /-- The flash's parameter table lists a 4 KiB erase (R557). -/
  flashErase : Bool
  deriving DecidableEq, Repr

/-- Association states (Table 4.2). -/
inductive AssocStatus where
  | free | ready | active | shadow | reserveWait | exhausted | keyLost | retiring
  deriving DecidableEq, Repr

/-- An association context (Table 4.1) with what the T6416 keeps beside it. -/
structure Assoc where
  /-- STATE, 4 bits; reset FREE. -/
  status : AssocStatus
  /-- SUITE, 4 bits; reset 0. -/
  suite : BitVec 4
  /-- DIR: receive; reset 0. -/
  recv : Bool
  /-- AN, 2 bits; reset 0. -/
  an : BitVec 2
  /-- GROUP; reset 0. -/
  group : Bool
  /-- KEY_PHASE; reset 0. -/
  phase : Bool
  /-- POLICY HOLD; reset DROP. -/
  hold : Bool
  /-- CURRENT; reset 0. -/
  current : Bool
  /-- Line port, 4 bits; reset 0. -/
  port : BitVec 4
  /-- Sub-port, 2 bits; reset 0. -/
  sub : BitVec 2
  /-- DK_A and DK_B, 17 bits; reset 0. -/
  dkA : BitVec 17
  dkB : BitVec 17
  /-- OWNER, 16 bits; reset 0. -/
  owner : BitVec 16
  /-- UNIT, 16 bits; reset 0. -/
  unit : BitVec 16
  /-- SCI, or the two salts, bytes 0x10-0x17 least significant first; reset 0. -/
  sci : BitVec 64
  /-- SSCI, 32 bits; reset 0. -/
  ssci : BitVec 32
  /-- XPN_SALT, bytes 0x1C-0x27 least significant first; reset 0. -/
  xsalt : BitVec 96
  /-- NEXT, 64 bits; reset 0. -/
  next : BitVec 64
  /-- WARN, 64 bits; reset 0. -/
  warn : BitVec 64
  /-- CEILING, 64 bits; reset 0. -/
  ceiling : BitVec 64
  /-- RESERVE_LOW, 64 bits; reset 0. -/
  reserveLow : BitVec 64
  /-- HOLD_MS, 16 bits; reset 0. -/
  holdMs : BitVec 16
  /-- OVERLAP_MS, 16 bits; reset 0. -/
  overlapMs : BitVec 16
  /-- REPLAY_WINDOW, 32 bits; reset 0. -/
  window : BitVec 32
  /-- LEAP, 32 bits; reset 0. -/
  leap : BitVec 32
  /-- SWITCH_PN, 64 bits; reset 0. -/
  switchPn : BitVec 64
  /-- SWITCH_TIME, 80 bits; reset 0. -/
  switchTime : BitVec 80
  /-- SUCCESSOR, 17 bits; reset 0. -/
  successor : BitVec 17
  /-- Microcode bytes of the context, words 0x80-0x8F (10_vertex_isa R255); reset 0. -/
  ucode : BitVec 128
  /-- The last value of Table 4.3 has been taken (R108); reset 0. -/
  spent : Bool
  /-- Event 0x120 has been raised (R108); reset 0. -/
  warned : Bool
  /-- Event 0x125 has been raised for the present CEILING (R112); reset 0. -/
  lowWarned : Bool
  /-- The state before KEY_LOST (R494); reset FREE. -/
  before : AssocStatus
  /-- NEXT and LEAP in the last acknowledged copy that carried it, from which the twin ceiling follows (R110, R448); reset none. -/
  twinCeil : Option (Nat × Nat)
  /-- Event 0x128 has been raised for the present hold (R110); reset 0. -/
  twinHeld : Bool
  /-- A receive association has accepted its first verified frame (R117); reset 0. -/
  verified : Bool
  /-- SYS_REFCLK time at which the OVERLAP_MS hold expires (R117); reset none. -/
  overlapDue : Option Nat
  /-- Facet receive: the phase whose hold expired last, with the generation of its DK slot then (R117, R165); reset none. -/
  expired : Option (Bool × BitVec 32)
  /-- SA_RETIRE commands that wait for the retirement (R495); reset none. -/
  retireCmds : List Desc
  /-- Eight 32-bit statistics deltas (R120); reset 0. -/
  delta : Tbl (BitVec 32)
  /-- Operations in flight on the association; retirement ends when none is (R98); reset 0. -/
  inFlight : Nat
  /-- Transmit operations that have captured it and taken no value yet (R258); reset 0. -/
  untaken : Nat
  /-- A TIME rotation has switched away; READY shows once `untaken` is 0 (R258); reset 0. -/
  leaving : Bool
  /-- The trigger value at which a PN rotation left it: operations that captured it earlier take no such value (R257); reset none. -/
  left : Option Nat
  deriving DecidableEq, Repr

/-- A FREE context. -/
def Assoc.reset : Assoc :=
  { status := .free, suite := 0, recv := false, an := 0, group := false, phase := false, hold := false, current := false,
    port := 0, sub := 0, dkA := 0, dkB := 0, owner := 0, unit := 0, sci := 0, ssci := 0, xsalt := 0, next := 0, warn := 0,
    ceiling := 0, reserveLow := 0, holdMs := 0, overlapMs := 0, window := 0, leap := 0, switchPn := 0, switchTime := 0,
    successor := 0, ucode := 0, spent := false, warned := false, lowWarned := false, before := .free, twinCeil := none,
    twinHeld := false, verified := false, overlapDue := none, expired := none, retireCmds := [], delta := [], inFlight := 0, untaken := 0, leaving := false,
    left := none }

/-- The trigger of a rotation (R113). -/
inductive RotTrigger where
  | time (t : Nat) | pn (v : Nat)
  deriving DecidableEq, Repr

/-- An armed, or arming, rotation (R114). -/
structure Rotation where
  /-- The SA_ROTATE that waits for the switch; none where a take-over re-armed the trigger (R456). -/
  desc : Option Desc
  /-- Ring and TAG of the SA_ROTATE, which a CANCEL names (R496). -/
  name : Nat × Nat
  /-- Entries not yet switched: from, to. Equal handles are a Facet entry. -/
  entries : List (Nat × Nat)
  /-- Entries whose FACET_PHASE is set (R113). -/
  phases : List (Nat × Nat)
  trigger : RotTrigger
  /-- SYS_REFCLK time at which arming ends (R114). -/
  armedAt : Nat
  /-- Arming has ended. -/
  armed : Bool
  /-- Entries in the list, and entries switched per partition so far. -/
  total : Nat
  switched : Tbl Nat
  deriving DecidableEq, Repr

/-- Associations (chapter 4). -/
structure AssocState where
  /-- Contexts by SA handle (Table 1.5); reset FREE. -/
  ctx : Tbl Assoc
  /-- Context locks by SA handle: owner ID and SYS_REFCLK time at which the lease ends (R100); reset none. -/
  locks : Tbl (Nat × Nat)
  /-- Highest counter taken plus 1 under a DK slot's generation, with that generation (R103); reset none. -/
  high : Tbl (BitVec 32 × Nat)
  /-- Armed rotations (R114); reset none. -/
  rots : List Rotation
  /-- Ring and TAG of rotations whose trigger has come (R496); reset none. -/
  fired : List (Nat × Nat)
  deriving DecidableEq, Repr

/-- Associations after a reset that covers them. -/
def AssocState.reset : AssocState := { ctx := [], locks := [], high := [], rots := [], fired := [] }

end Sys2Proof.Machine
end

