-- ==== Sys2Proof/Machine/VertexState.lean ====
section
/-! DEFINITION. The state of the Prism clusters and the Vertex engines (chapters 8 to 11). -/

namespace Sys2Proof.Machine

/-- Thread states (Table 9.2). -/
inductive ThreadMode where
  | idle | ready | waiting | faulted | held | debug
  deriving DecidableEq, Repr

/-- A register that an instruction reads or writes (Table 10.2). -/
inductive VReg where
  | g (n : Nat) | b (n : Nat) | p (n : Nat)
  deriving DecidableEq, Repr

/-- A result not yet available: the registers it writes, and the address of the HBM or DDR load that brings it (R243, R248). -/
structure Result where
  regs : List VReg
  load : Option Nat
  deriving DecidableEq, Repr

/-- A block descriptor as a block instruction builds it (Table 8.3, R259). -/
structure BlockDesc where
  op : Nat
  keysel : Nat
  count : Nat
  route : Nat
  acc : Nat
  src : Nat
  dst : Nat
  last : Nat
  template : BitVec 128
  /-- The bits of gs2 that must be 0 are 0. -/
  clean : Bool
  deriving DecidableEq, Repr

/-- A block descriptor that has not completed (R199, R252, R261). Slices are byte ranges of the staging allocation. -/
structure OutDesc where
  /-- OP of Table 8.3. -/
  op : Nat
  /-- Bytes it reads: first and length. -/
  reads : List (Nat × Nat)
  /-- Bytes it writes. -/
  writes : List (Nat × Nat)
  /-- GHASH accumulator it feeds or folds. -/
  acc : Option Nat
  /-- The predicate a TAGCMP writes when it completes, and its result. -/
  pred : Option (Nat × Bool)
  /-- A Radius descriptor that has yet to take effect: it waits for the derivation of its key, or comes after one that does (R299). -/
  held : Option BlockDesc
  deriving DecidableEq, Repr

/-- A frame's operation, started by SALOAD (R220, R253). -/
structure SaOp where
  /-- Resolved handle, 17 bits. -/
  handle : Nat
  /-- The DK slot, the generation and the shares captured, with the length in bytes; none where no key was captured (R71, R81). -/
  key : Option (Nat × BitVec 32 × Shares × Nat)
  /-- KEY_PHASE captured. -/
  phase : Bool
  /-- SYS_REFCLK time at which SALOAD completed (R221). -/
  since : Nat
  /-- The thread took the context lock (R254). -/
  locked : Bool
  deriving DecidableEq, Repr

/-- One hardware thread (R212 to R216). -/
structure Thread where
  /-- State of Table 9.2; reset IDLE. -/
  mode : ThreadMode
  /-- The state it returns to from DEBUG. -/
  before : ThreadMode
  /-- SYS_REFCLK time at which DEBUG was entered; the watchdog does not count from then (R228). -/
  debugAt : Nat
  /-- Registers g1-g31, 64 bits; reset 0 (R212). -/
  g : Tbl (BitVec 64)
  /-- Registers b0-b15, 128 bits; reset 0. -/
  b : Tbl (BitVec 128)
  /-- Predicates p1-p7; reset 0. -/
  p : Tbl Bool
  /-- fctx, 64 bits (Tables 9.3, 12.10); reset 0. -/
  fctx : BitVec 64
  /-- Program counter, an index into its half, and that half (R262, R276); reset 0. -/
  pc : Nat
  high : Bool
  /-- Return stack, at most 8 (R262); reset empty. -/
  stack : List Nat
  /-- The work item; reset none. -/
  item : Option Nat
  /-- The operation SALOAD started; reset none. -/
  op : Option SaOp
  /-- The counter value PNTAKE took (R256); reset none. -/
  pn : Option Nat
  /-- PNTAKE has been issued (R256); reset 0. -/
  pnAsked : Bool
  /-- GHASH accumulators 0-7, 128 bits (R260); reset 0. -/
  acc : Tbl (BitVec 128)
  /-- CBC-MAC accumulators of a Radius item that have begun (R299); reset none. -/
  begun : List Nat
  /-- Outstanding descriptors, oldest first, at most 8 (R261); reset none. -/
  descs : List OutDesc
  /-- Results not yet available, oldest first (R243); reset none. -/
  results : List Result
  /-- Addresses of HBM and DDR reads whose verification has not been reported, oldest first (R225); reset none. -/
  reads : List Nat
  /-- A reported verification failed (R225); reset 0. -/
  failed : Bool
  /-- SYS_REFCLK time of dispatch (R228); reset 0. -/
  since : Nat
  /-- YIELD waits for these threads of the engine to issue (R263); reset none. -/
  yield : List Nat
  deriving DecidableEq, Repr

/-- A thread after reset. -/
def Thread.reset : Thread :=
  { mode := .idle, before := .idle, debugAt := 0, g := [], b := [], p := [], fctx := 0, pc := 0, high := false, stack := [],
    item := none, op := none, pn := none, pnAsked := false, acc := [], begun := [], descs := [], results := [], reads := [],
    failed := false, since := 0, yield := [] }

/-- What an engine remembers of its last issue: the thread, and the index and word of an instruction that issued alone and may still be
the first of a pair (R214, R244). -/
structure LastIssue where
  thr : Nat
  first : Option (Nat × BitVec 64)
  /-- SYS_REFCLK time of that issue: the two of a pair issue in one clock. -/
  at_ : Nat
  deriving DecidableEq, Repr

/-- An engine after reset: thread 0 is the first in turn. -/
def LastIssue.reset : LastIssue := { thr := 7, first := none, at_ := 0 }

/-- A loaded image (R236, R276). -/
structure Image where
  /-- Instruction count, 14 bits. -/
  count : Nat
  /-- Program version, 32 bits. -/
  version : BitVec 32
  /-- Eight entries of 32 bits. -/
  entries : List Nat
  /-- Scratch image. -/
  scratch : List Byte
  /-- The image occupies both halves. -/
  full : Bool
  /-- Instructions, 64 bits; all ones where none is loaded (R245). -/
  words : Tbl (BitVec 64)
  deriving DecidableEq, Repr

/-- A cluster: Prism n or, as cluster 16, Radius (R211). -/
structure Cluster where
  /-- Contents of the two halves of instruction memory (R276); reset none. -/
  low : Option Image
  hi : Option Image
  /-- The half that dispatch uses, high true; reset none. -/
  active : Option Bool
  /-- Dispatch pauses until no thread runs in this half, then the scratch image is written (R278); reset none. -/
  pause : Option Bool
  /-- Cluster scratch by 8-byte word; its contents at reset are not stated and read as 0 (DESIGN CHOICE, log 61). -/
  scratch : Tbl (BitVec 64)
  /-- Scratch words that hold an uncorrectable error (R224); reset none. -/
  badScratch : List Nat
  /-- Local memories by 2,048 engine + word; contents at reset read as 0 (DESIGN CHOICE, log 61). -/
  locals : Tbl (BitVec 64)
  /-- Threads by 8 engine + thread; reset IDLE. -/
  threads : Tbl Thread
  /-- Engines' last issues (R214); the first thread in turn after reset is thread 0 (DESIGN CHOICE, log 61). -/
  issued : Tbl LastIssue
  /-- SYS_REFCLK time of the latest program-counter sample (R235); reset 0. -/
  pcsAt : Nat
  /-- Program-counter samples lost since event 0x184 was last raised (R235); reset 0. -/
  pcsLost : Nat
  deriving DecidableEq, Repr

/-- A cluster after reset. -/
def Cluster.reset : Cluster :=
  { low := none, hi := none, active := none, pause := none, scratch := [], badScratch := [], locals := [], threads := [],
    issued := [], pcsAt := 0, pcsLost := 0 }

/-- A UCODE_ACTIVATE whose old halves still drain: clusters with their old halves (R277). -/
structure Activate where
  desc : Desc
  olds : List (Nat × Bool)
  due : Nat
  deriving DecidableEq, Repr

/-- Vertex (chapters 9 to 11). -/
structure VertexState where
  /-- Clusters: Prism 0-15, Radius 16. -/
  clusters : Tbl Cluster
  /-- UCODE_ACTIVATE commands that drain; reset none. -/
  activates : List Activate
  deriving DecidableEq, Repr

/-- Vertex after reset. -/
def VertexState.reset : VertexState := { clusters := [], activates := [] }

/-- Frame classes of R173; an AIS-S frame belongs to none. -/
inductive FacetFrameClass where
  | verified | failed | unkeyable
  deriving DecidableEq, Repr

/-- What EMIT gives a frame (R264). -/
structure Emitted where
  /-- Output length in bytes under R8. -/
  len : Nat
  /-- PN of a receive frame. -/
  pn : Nat
  /-- User-data octets, and E. -/
  octets : Nat
  enc : Bool
  /-- The cause of an unkeyed Facet frame, 3 bits (R150). -/
  cause : Nat
  deriving DecidableEq, Repr

/-- Where a work item of a Prism stands in its reorder slot. -/
inductive ItemStage where
  /-- Waits for dispatch (R217). -/
  | waiting
  /-- A thread holds it: 8 engine + thread. -/
  | running (thr : Nat)
  /-- EMIT has released it to the reorder buffer (R222). -/
  | emitted (e : Emitted)
  /-- It passes without an operation: an uncontrolled frame (R135, R136). -/
  | plain
  /-- Its reorder slot is marked as dropped (R227). -/
  | dropped
  deriving DecidableEq, Repr

/-- A work item of a Prism (R217, R219). Its staging holds three sections, each from a 16-byte boundary: the bytes up to and with the
SecTAG, the secure data, and the ICV (DESIGN CHOICE, log 60). -/
structure Item where
  /-- Arrival number; the model's own. -/
  seq : Nat
  /-- TYPE of Table 9.3, 2 bits, and DIR. -/
  kind : Nat
  recv : Bool
  /-- Line logical port, 0-63; 64 for a CRYPTO_BLOCK chunk. -/
  lp : Nat
  stage : ItemStage
  /-- Bytes of the staging allocation, and its first line and lines of 128 bytes (R200). -/
  bytes : List Byte
  line : Nat
  lines : Nat
  /-- fctx LENGTH, HANDLE and OFFSET. -/
  len : Nat
  handle : Nat
  offset : Nat
  /-- Bytes of the first and second section. -/
  head : Nat
  data : Nat
  /-- The Tessera frame of a transmit frame. -/
  frame : Option Nat
  /-- The Sector queue that supplied it, and its time-stamp identifier (R266, R390). -/
  queue : Nat
  tsId : Option Nat
  /-- Ingress time-stamp, or the FCS that the frame carries (R388, R528). -/
  stamp : Nat
  fcs : Option (BitVec 32)
  /-- INTEG_FCS_PRESERVE when a received frame entered (R528). -/
  keep : BitVec 16
  /-- CRC-32 of the plaintext that the Prism read (R528). -/
  crc : BitVec 32
  /-- E of a received SecTAG (R134). -/
  enc : Bool
  /-- A TAGCMP of its thread has found the tag equal (R204). -/
  verified : Bool
  /-- The counter value taken for it (R102). -/
  taken : Option Nat
  /-- The class of a received Facet frame, once it is known (R173), and the frame's overhead bytes 0 to 63. -/
  cls : Option FacetFrameClass
  ohead : List Byte
  /-- The association on which an operation of the item is in flight (R98). -/
  sa : Option Nat
  /-- It has been counted as "issue stall" (R218). -/
  stalled : Bool
  /-- An uncorrectable error of frame memory was found after some of it had left: it ends with an inverted FCS (R349). -/
  cut : Bool
  deriving DecidableEq, Repr

/-- A parked transmit frame (R266): the item, its kind (1 twin hold), and the SYS_REFCLK time at which HOLD_MS ends. -/
structure Parked where
  item : Item
  twin : Bool
  due : Nat
  deriving DecidableEq, Repr

/-- A CRYPTO_BLOCK that runs (R74, R206). -/
structure CryptoRun where
  desc : Desc
  /-- Blocks done, and the generation its first chunk captured; none before that chunk starts. -/
  done : Nat
  gen : Option (BitVec 32)
  /-- Its input, read in full when it started (R488). -/
  input : List Byte
  /-- Output of the completed chunks. -/
  out : List Byte
  /-- The chunk in flight: its item. -/
  chunk : Option Nat
  deriving DecidableEq, Repr

/-- One Prism beside its cluster (R192). -/
structure PrismUnit where
  /-- Items in arrival order, both directions (R21); reset none. -/
  items : List Item
  /-- Items discarded at a drain timeout whose thread still runs (R208); reset none. -/
  ghosts : List Item
  /-- Parked frames, oldest first; reset none. -/
  parked : List Parked
  /-- Hash subkey cache, (DK slot, generation), most recently used first, at most 1,024 (R197); reset empty. -/
  hcache : List (Nat × BitVec 32)
  /-- CRYPTO_BLOCK commands that run, oldest first; reset none. -/
  crypto : List CryptoRun
  /-- Frames at the head of Sector queues already counted as "issue stall" (R218); reset none. -/
  stalled : List Nat
  /-- Associations whose HOLD_MS has passed: their frames drop until the case clears (Table 4.7); reset none. -/
  expired : List Nat
  deriving DecidableEq, Repr

/-- A Prism after reset. -/
def PrismUnit.reset : PrismUnit := { items := [], ghosts := [], parked := [], hcache := [], crypto := [], stalled := [], expired := [] }

/-- The Prisms (chapter 8). -/
structure PrismState where
  units : Tbl PrismUnit
  /-- The next arrival number; the model's own; reset 0. -/
  nextSeq : Nat
  deriving DecidableEq, Repr

/-- The Prisms after reset. -/
def PrismState.reset : PrismState := { units := [], nextSeq := 0 }

end Sys2Proof.Machine
end

