-- ==== Sys2Proof/Machine/State.lean ====
section
/-! DEFINITION. The whole state of the T6416, its reset, and the reasons a step can stop. -/

namespace Sys2Proof.Machine

/-- Why the machine stops with a fault. -/
inductive Fault where
  /-- Kept for a stop the spec leaves without an effect; no command raises it. Safe: nothing stops here. -/
  | noEffect
  deriving DecidableEq, Repr

/-- Why a command has no meaning. -/
inductive Refusal where
  /-- Raised by Dispatch for a command not modelled yet. Safe: the machine stops where the part would go on. -/
  | notModelled (mnemonic : String)
  deriving DecidableEq, Repr

/-- The state of the T6416. -/
structure State where
  /-- Commands waiting, first in first out; the model's own; reset empty. -/
  pending : List Instr
  /-- Number of free values drawn so far; the model's own; reset 0 (DESIGN CHOICE log 2). -/
  freeCount : Nat
  /-- Nanoseconds of SYS_REFCLK since cold reset; the model's own clock (log 4); reset 0. -/
  clk : Nat
  /-- Output record, newest first; the model's own (log 6); reset empty. -/
  out : List Output
  /-- The word the last read command returned; the model's own (log 6); reset 0. -/
  readValue : BitVec 32
  /-- RW and W1C set-up registers that no field below holds, by offset, where they differ from their reset value of chapter 25. -/
  regs : Tbl (BitVec 32)
  /-- 64-bit block counters by counter ID (R519); reset 0. -/
  counters : Tbl (BitVec 64)
  /-- Keys of at-most-once-per-Gnomon-second raises made since the last tick (R386); reset empty. -/
  once : List Nat
  /-- External memory contents (chapter 17); reset nothing listed. -/
  mem : Memory
  hull : HullState
  rings : RingsState
  tele : TeleState
  gnomon : GnomonState
  axis : AxisState
  apex : ApexState
  assoc : AssocState
  cpr : CprState
  periph : PeriphState
  ports : PortsState
  /-- Lanes: client 0-63, line 64-127, Chord 128-136 (R422); reset OFF. -/
  lanes : Tbl LaneUnit
  twin : TwinState
  /-- Facet ports L0-L15 (chapters 6 and 7). -/
  facet : Tbl FacetPort
  tess : TessState
  annulus : AnnulusState
  locus : LocusState
  sector : SectorState
  radius : RadiusState
  vertex : VertexState
  prism : PrismState
  deriving DecidableEq, Repr

/-- Hull after a cold reset: every region OFF, no memory initialised yet (R400, R397). -/
def HullState.reset : HullState :=
  { regions := [], taintsHbm := [], taintsDdr := [], badLines := [], epoch := 0, mchkAddr := 0, mchkCore := 0, mchkCause := 0,
    mchkValid := false, mchkIrq := 0, up := 0, fail := 0, gib0 := 0, gib1 := 0 }

/-- Rings after reset (R469, R485). -/
def RingsState.reset : RingsState :=
  { rings := [], version := 1, fetchNext := 0, summaryGen := 0, link0 := false, speed0 := 0, link1 := false, speed1 := 0,
    released := false, startsHeld := false, orphans := [], mgmtPi := [], older := [], stalled := [] }

/-- Telemetry after a cold reset. -/
def TeleState.reset : TeleState :=
  { evtStatus := [], raises := [], store := [], held := [], heldLost := false, dropped := 0, dropPending := 0, cntReady := false,
    cntErr := false, cntValue := 0, cntPending := none, progs := [], pcHi := [], cmdFrozen := false, pinFrozen := false,
    snapIn := false, running := none, waiting := none, armed := none, pinDue := none }

/-- Gnomon after a cold reset: 0 s, FREERUN (R381). -/
def GnomonState.reset : GnomonState :=
  { time := 0, frac := 0, latch := 0, mode := .freerun, holdSince := 0, servoDue := none, loadErr := false, tickSec := 0,
    tickStepped := false, ppsOut := false, ppsFall := none, todDue := none, ppsIn := false, ppsNew := false, ppsNs := 0,
    ppsSec := 0, ppsLast := 0, ppsMissing := false, todFifo := [], todOvf := false, todSent := [], txts := [], txtsOvf := [],
    rclkOn := 0, pllLocked := false }

/-- OTP of a part as customers receive it: PERSONALISED, counter 9 (R42); every other content is the part's own and read as zero
(DESIGN CHOICE, log 14). -/
def OtpState.reset : OtpState :=
  { lcCells := BitVec.ofNat 36 (2 ^ 27 - 1), intent := [], serial := 0, vendorHash := 0, vendorSeed := 0, helper := 0,
    tokenHash := [], ownerHash := 0, ownerSeed := 0, ownerErased := false, minPatch := 0, minBoot := 0, tamperEn := 0 }

/-- Apex after a cold reset, before it boots. The flash is taken as 16 MiB, erased, with a 4 KiB erase (DESIGN CHOICE, log 14). -/
def ApexState.reset : ApexState :=
  { otp := OtpState.reset, mbxC := Mailbox.reset, mbxD := Mailbox.reset, lastServed := .debugPort, meas := [], measLock := false,
    blSigned := false, patchAlt := false, blAlt := false, challenge := none, failed := 0, rights := 0, ownerRights := 0, opened := false, root := 0,
    cause := 0, railId := 0, held := false, alarmN := true, booted := false, holdCode := 0, regionWaits := false, bootWaits := false, resumed := false, entry := 0,
    bootDigest := 0, heldWrite := none, flash := [], flashSize := 16777216, flashErase := true }

/-- The machine right after reset: PORESET_N low has just reset all state that a cold reset covers (R539), nothing has booted. -/
def State.reset : State :=
  { pending := [], freeCount := 0, clk := 0, out := [], readValue := 0, regs := [], counters := [], once := [], mem := { cells := [], fills := [] },
    hull := HullState.reset, rings := RingsState.reset, tele := TeleState.reset, gnomon := GnomonState.reset,
    axis := AxisState.reset, apex := ApexState.reset, assoc := AssocState.reset, cpr := CprState.reset, periph := PeriphState.reset,
    ports := PortsState.reset, lanes := [], twin := TwinState.reset, facet := [],
    tess := TessState.reset, annulus := AnnulusState.reset, locus := LocusState.reset, sector := SectorState.reset
    radius := RadiusState.reset, vertex := VertexState.reset, prism := PrismState.reset }

end Sys2Proof.Machine
end

