-- ==== Sys2Proof/Machine/Ops.lean ====
section
/-! DEFINITION. Named operations every block shares: tables, bytes, registers, free values, events, counters. -/

namespace Sys2Proof.Machine

/-- The answer of a step. -/
abbrev Out := Host.Outcome State Fault Refusal

/-! ### Sparse tables -/

/-- Entry k of a table, or its default. -/
def tget {α : Type} (d : α) : Tbl α → Nat → α
  | [], _ => d
  | (i, v) :: t, k => if i = k then v else tget d t k

/-- The table without entry k. -/
def tdel {α : Type} : Tbl α → Nat → Tbl α
  | [], _ => []
  | (i, v) :: t, k => if i = k then tdel t k else (i, v) :: tdel t k

/-- The table with entry k set to v, whatever v is, keys rising. -/
def tins {α : Type} : Tbl α → Nat → α → Tbl α
  | [], k, v => [(k, v)]
  | (i, w) :: t, k, v => if k < i then (k, v) :: (i, w) :: t else if i = k then (k, v) :: t else (i, w) :: tins t k v

/-- The table with entry k set to v; an entry equal to the default is not listed. -/
def tput {α : Type} [DecidableEq α] (d : α) (t : Tbl α) (k : Nat) (v : α) : Tbl α :=
  if v = d then tdel t k else tins t k v

/-- The table with entry k changed by f. -/
def tmod {α : Type} [DecidableEq α] (d : α) (t : Tbl α) (k : Nat) (f : α → α) : Tbl α :=
  tput d t k (f (tget d t k))

/-! ### Numbers and bytes -/

/-- Bits [lo+len-1:lo] of a number. -/
def bits (v lo len : Nat) : Nat := (v >>> lo) % 2 ^ len

/-- Bit i of a number. -/
def bitOf (v i : Nat) : Bool := v.testBit i

/-- n bytes of a number, least significant first (R6). -/
def le (n v : Nat) : List Byte :=
  match n with
  | 0 => []
  | n + 1 => BitVec.ofNat 8 v :: le n (v / 256)

/-- n bytes of a number, most significant first (R7). -/
def be (n v : Nat) : List Byte := (le n v).reverse

/-- The number little-endian bytes spell. -/
def leNat : List Byte → Nat
  | [] => 0
  | b :: bs => b.toNat + 256 * leNat bs

/-- The number big-endian bytes spell. -/
def beNat (bs : List Byte) : Nat := leNat bs.reverse

/-- n bytes from offset off of a list, zero past its end. -/
def slice (bs : List Byte) (off n : Nat) : List Byte :=
  let x := (bs.drop off).take n
  x ++ List.replicate (n - x.length) 0

/-- Bytes with a part replaced. -/
def patch (bs : List Byte) (off : Nat) (v : List Byte) : List Byte := bs.take off ++ v ++ bs.drop (off + v.length)

/-- Little-endian field of a byte list. -/
def leAt (bs : List Byte) (off n : Nat) : Nat := leNat (slice bs off n)

/-- Big-endian field of a byte list. -/
def beAt (bs : List Byte) (off n : Nat) : Nat := beNat (slice bs off n)

/-- 1 for true. -/
def b2n (b : Bool) : Nat := if b then 1 else 0

/-- A time as 10 bytes: 48-bit seconds, then 32-bit nanoseconds (R517). -/
def time10 (t : Nat) : List Byte := le 6 (t / 1000000000) ++ le 4 (t % 1000000000)

/-! ### Free values -/

/-- The next n-bit free value, and the state in which it is drawn. -/
def State.draw (s : State) (n : Nat) : Nat × State :=
  (Config.free s.freeCount % 2 ^ n, { s with freeCount := s.freeCount + 1 })

/-! ### Set-up registers -/

/-- Index of offset off in a run of n registers from base with a stride, at register offset r. -/
def inRun (off base stride n r : Nat) : Bool :=
  base + r ≤ off && off < base + stride * n && (off - base) % stride == r

/-- The reset value of a register that `State.regs` holds (Tables 25.10 to 25.13). -/
def regReset (off : Nat) : BitVec 32 :=
  if off = 0x01800000 then 0x20
  else if off = 0x00C00000 then 0x8
  else if off = 0x00C00008 then 0x3E8
  else if inRun off 0x00C00100 8 16 0 then 0x10000000
  else if off = 0x0140001C then 0x7D0
  else if off = 0x01400028 then 0x64
  else if off = 0x00800010 then 0x80800000
  else if inRun off 0x00801000 16 256 4 then 0x00080000
  else if inRun off 0x02000000 0x100000 16 0 then 0x2
  else if inRun off 0x02000000 0x100000 16 0x100 || off = 0x03000100 then 0x10
  else if inRun off 0x02000000 0x100000 16 0x108 || off = 0x03000108 then 0x1000
  else if inRun off 0x02000000 0x100000 16 0x10C then 0xFFFF
  else if off = 0x0300010C then 0xFFFFFFFF
  else if off = 0x03001004 then 0x7706
  else if off = 0x03001008 then 0x000A0000
  else if 0x03800000 ≤ off && off < 0x03A00000 then
    let r := off % 0x20000
    if 0x100 ≤ r && r < 0x110 then 0x00380000
    else if r = 0x110 then 0x88F7888E
    else if r = 0x114 then 0x000088B5
    else if r = 0x200 then 0x10
    else if inRun r 0x1000 0x40 4 4 then 0x0003AD80
    else 0
  else if 0x03400000 ≤ off && off < 0x03600000 then
    if inRun (off % 0x20000) 0x1000 0x40 4 4 then 0x0003AD80 else 0
  else if inRun off 0x03C01000 0x40 9 4 then 0x0003AD80
  else if 0x03E01000 ≤ off && off < 0x03E02000 then 0x80000000
  else if inRun off 0x20000008 0x100 2 0 && off < 0x20001000 then 0x36
  else 0

/-- A held register. -/
def State.reg (s : State) (off : Nat) : BitVec 32 := tget (regReset off) s.regs off

/-- A held register as a number. -/
def State.regN (s : State) (off : Nat) : Nat := (s.reg off).toNat

/-- Store a held register. -/
def State.setReg (s : State) (off : Nat) (v : BitVec 32) : State :=
  { s with regs := tput (regReset off) s.regs off v }

/-! ### Events (R515 to R520) -/

/-- Every domain but the always-on one is held in reset after an alarm or EXTEST (R59, R560), or the datapath and Compass are held by a
thermal trip (R538): no register write, no command and no message is taken. -/
def State.halted (s : State) : Bool := s.apex.held || s.cpr.trip.isSome

/-- Whether programmable counting is frozen (R521). -/
def State.frozen (s : State) : Bool := s.tele.cmdFrozen || s.tele.pinFrozen

/-- The offset of TELE_PC_CFG_k. -/
def pcCfgOff (k : Nat) : Nat := 0x03E04000 + 16 * k

/-- The programmable counters that are enabled with KIND kind (R520). Only a listed register can hold ENABLE 1. -/
def State.progsOf (s : State) (kind : Nat) : List Nat :=
  (s.regs.filter fun e => 0x03E04000 ≤ e.1 && e.1 < 0x03E0C000 && e.1 % 16 == 0 &&
    e.2.toNat / 2 ^ 31 == 1 && bits e.2.toNat 29 2 == kind).map fun e => (e.1 - 0x03E04000) / 16

/-- A programmable counter at reset (R520). -/
def ProgCounter.reset : ProgCounter := { value := 0, wrap := false }

/-- Add n to programmable counter k; true when it wrapped (R520). -/
def State.bumpProg (s : State) (k n : Nat) : Bool × State :=
  let c := tget ProgCounter.reset s.tele.progs k
  let v := c.value.toNat + n
  let w := v ≥ 2 ^ 48
  let c' : ProgCounter := { value := BitVec.ofNat 48 v, wrap := c.wrap || w }
  (w, { s with tele := { s.tele with progs := tput ProgCounter.reset s.tele.progs k c' } })

/-- A key that names one at-most-once raise per Gnomon second. -/
def onceKey (ev a : Nat) : Nat := ev + 1024 * a

/-- EVT_CFG_i (Table 22.16). -/
def State.evtCfg (s : State) (ev : Nat) : Nat := s.regN (0x03E01000 + 4 * ev)

/-- The event ring that an event is routed to. -/
def State.evtRing (s : State) (ev : Nat) : Nat := s.evtCfg ev % 16

/-- A ring by kind and index. -/
def ringKey (k : RingKind) (r : Nat) : Nat :=
  (match k with | .command => 0 | .completion => 64 | .event => 128 | .management => 192) + r

/-- A ring by kind and index. -/
def State.ring (s : State) (k : RingKind) (r : Nat) : Ring := tget Ring.reset s.rings.rings (ringKey k r)

/-- Replace a ring. -/
def State.setRing (s : State) (k : RingKind) (r : Nat) (x : Ring) : State :=
  { s with rings := { s.rings with rings := tput Ring.reset s.rings.rings (ringKey k r) x } }

/-- Queue the record of a raise: Apex holds a group-0 record until its ring is RUNNING (R62), the store takes any other for a RUNNING ring
(R515), a full store drops it (R518). -/
def State.queueRaise (s : State) (ev : Nat) (clear : Bool) (data : List Byte) : State :=
  let t : Taken := { ev := ev, ring := s.evtRing ev, clear := clear, sec := s.gnomon.time / 1000000000,
                     ns := s.gnomon.time % 1000000000, data := data }
  if ev < 32 ∧ (s.ring .event t.ring).state ≠ .running then
    if s.tele.held.length < 16 then { s with tele := { s.tele with held := s.tele.held ++ [t] } }
    else { s with tele := { s.tele with heldLost := true } }
  else if s.evtCfg ev / 2 ^ 31 = 0 ∨ (s.ring .event t.ring).state ≠ .running then s
  else if s.tele.store.length < 512 then { s with tele := { s.tele with store := s.tele.store ++ [t] } }
  else
    let d := s.tele.dropped.toNat
    let s := s.setRing .event t.ring { s.ring .event t.ring with lostFlag := true }
    { s with tele := { s.tele with dropped := if d < 65535 then BitVec.ofNat 16 (d + 1) else s.tele.dropped,
                                   dropPending := s.tele.dropPending + 1 } }

/-- The status bit and the raise count of event ev (R515). -/
def State.markRaise (s : State) (ev : Nat) : State :=
  { s with tele := { s.tele with
      evtStatus := tmod 0 s.tele.evtStatus (ev / 32) fun w => w ||| (1#32 <<< (ev % 32)),
      raises := tmod 0 s.tele.raises ev fun c => c + 1 } }

/-- Raise event ev: status bit, raise count, record, and the programmable counters that count it; a counter that wraps raises
0x343 once per counter per second (R515, R520). No counter counting 0x343 wraps more than twice in one step, so fuel 3 is exact. -/
def State.raiseFuel : Nat → State → Nat → Bool → List Byte → State
  | 0, s, ev, clear, data => (s.markRaise ev).queueRaise ev clear data
  | n + 1, s, ev, clear, data =>
    let s := (s.markRaise ev).queueRaise ev clear data
    if s.frozen then s
    else ((s.progsOf 0).filter fun k => bits (s.regN (pcCfgOff k)) 0 10 == ev).foldl (fun s k =>
      let (w, s) := s.bumpProg k 1
      if w && !s.once.contains (onceKey 0x343 k) then
        State.raiseFuel n { s with once := onceKey 0x343 k :: s.once } 0x343 false (le 2 k)
      else s) s

/-- Raise an event with its data (R515). -/
def State.raise (s : State) (ev : Nat) (data : List Byte) : State := State.raiseFuel 3 s ev false data

/-- Raise an event at declaration or, with CLEAR, at clearance (R516). -/
def State.raiseSet (s : State) (ev : Nat) (clear : Bool) (data : List Byte) : State := State.raiseFuel 3 s ev clear data

/-- Raise an event at most once per Gnomon second for the object a. -/
def State.raiseOnce (s : State) (ev a : Nat) (data : List Byte) : State :=
  if s.once.contains (onceKey ev a) then s
  else ({ s with once := onceKey ev a :: s.once }).raise ev data

/-! ### Block counters (R519) -/

/-- A counter ID: BLOCK, NUMBER, INSTANCE (R519). -/
def cid (block number inst : Nat) : Nat := 2 ^ 26 * block + 2 ^ 20 * number + inst

/-- Add n to a block counter, and to every programmable counter of KIND 01b that names it (R519, R520). -/
def State.countN (s : State) (id n : Nat) : State :=
  let s := { s with counters := tmod 0 s.counters id fun c => c + BitVec.ofNat 64 n }
  if s.frozen then s
  else ((s.progsOf 1).filter fun k => s.regN (pcCfgOff k + 4) == id).foldl (fun s k =>
    let (w, s) := s.bumpProg k n
    if w then s.raiseOnce 0x343 k (le 2 k) else s) s

/-- Add 1 to a block counter. -/
def State.count (s : State) (id : Nat) : State := s.countN id 1

/-- Read a block counter. -/
def State.counter (s : State) (id : Nat) : BitVec 64 := tget 0 s.counters id

/-! ### Life-cycle counter and debug rights (R41, R57) -/

/-- A life-cycle bit: at least two of its three cells are set. -/
def lcBit (cells : BitVec 36) (b : Nat) : Bool :=
  2 ≤ b2n (cells.getLsbD (3 * b)) + b2n (cells.getLsbD (3 * b + 1)) + b2n (cells.getLsbD (3 * b + 2))

/-- The twelve life-cycle bits as a number. -/
def lcPattern (cells : BitVec 36) : Nat := (List.range 12).foldl (fun a b => if lcBit cells b then a + 2 ^ b else a) 0

/-- The counter of a thermometer pattern; none where it is no thermometer (R47). -/
def lcCount (cells : BitVec 36) : Option Nat := (List.range 13).find? fun k => lcPattern cells == 2 ^ k - 1

/-- The life-cycle counter; a pattern that is no thermometer counts its lowest run of set bits. -/
def State.lc (s : State) : Nat :=
  match lcCount s.apex.otp.lcCells with
  | some k => k
  | none => ((List.range 12).takeWhile fun b => lcBit s.apex.otp.lcCells b).length

/-- Owner certificates are the ones OWNED accepts; PERSONALISED and RMA take vendor certificates (Table 2.4). -/
def State.certOwner (s : State) : Bool := s.lc == 10

/-- The rights that certificates of the signer Table 2.4 names for the present state have granted (R57, log entry 147). -/
def State.certRights (s : State) : BitVec 16 := if s.certOwner then s.apex.ownerRights else s.apex.rights

/-- A debug right is in force (Tables 2.4, 2.11, R42, R57): open in BLANK and TEST_UNLOCKED, granted by certificate from PERSONALISED to
RMA, in no other state. -/
def State.dbgRight (s : State) (b : Nat) : Bool :=
  if [0, 1, 3, 5, 7].contains s.lc then true else decide (9 ≤ s.lc ∧ s.lc ≤ 11) && s.certRights.getLsbD b

/-! ### Time -/

/-- The present SYS_REFCLK time moves on by n ns, and Gnomon time with it at its RATE (R382): no tick is sent here. A thermal trip stops
the Gnomon domain (R538). -/
def State.elapse (s : State) (n : Nat) : State :=
  if s.cpr.trip.isSome then { s with clk := s.clk + n }
  else
  let rate := (s.reg 0x01400020).toInt
  let ph := s.gnomon.frac + (n * (2 ^ 40 + rate)).toNat
  { s with clk := s.clk + n, gnomon := { s.gnomon with frac := ph % 2 ^ 40, time := s.gnomon.time + ph / 2 ^ 40 } }

/-- INTEG_FCS_PRESERVE (Table 22.14). -/
def State.fcsMode (s : State) : BitVec 16 := (s.reg 0x03E00040).extractLsb' 0 16

/-- Emit something at the part's boundary. -/
def State.emit (s : State) (o : Output) : State := { s with out := o :: s.out }

end Sys2Proof.Machine
end

