-- ==== Sys2Proof/Machine/HullOps.lean ====
section
/-! DEFINITION. External memory through Hull: regions, rights, reads, writes, faults (chapter 17). -/

namespace Sys2Proof.Machine

/-! ### The plaintext view of memory -/

/-- The newest fill that covers an address. -/
def Memory.fillAt (m : Memory) (a : Nat) : Option FillRange :=
  m.fills.find? fun f => f.base ≤ a && a < f.base + f.len

/-- What an unlisted address reads as, where a fill gives it a value (R571). -/
def Memory.unlisted (m : Memory) (a : Nat) : Option Byte :=
  match m.fillAt a with
  | some f => f.pat.map fun p => BitVec.ofNat 8 (p.toNat >>> (8 * (a % 8)))
  | none => none

/-- The CREATE whose unwritten bytes an address reads (R571). -/
def Memory.epochAt (m : Memory) (a : Nat) : Nat :=
  match m.fillAt a with
  | some f => f.epoch
  | none => 0

/-- The listed byte at an address. -/
def cellAt : List Host.Cell → Nat → Option Byte
  | [], _ => none
  | (i, b) :: t, a => if i = a then some b else cellAt t a

/-- One byte of memory: written, filled, or free (R571). -/
def Memory.byte (m : Memory) (a : Nat) : Byte :=
  match cellAt m.cells a with
  | some b => b
  | none => match m.unlisted a with
    | some b => b
    | none => Config.unwritten (m.epochAt a) a

/-- Write one byte, keeping the canonical form. -/
def Memory.putByte (m : Memory) (a : Nat) (b : Byte) : Memory :=
  { m with cells := if m.unlisted a = some b then tdel m.cells a else tins m.cells a b }

/-- Write consecutive bytes. -/
def Memory.put (m : Memory) (a : Nat) : List Byte → Memory
  | [] => m
  | b :: bs => (m.putByte a b).put (a + 1) bs

/-- Read n consecutive bytes. -/
def Memory.get (m : Memory) (a n : Nat) : List Byte := (List.range n).map fun i => m.byte (a + i)

/-- A fill or CREATE of a range: its bytes and the older fills inside it go, and the range reads as given (R402, R571). -/
def Memory.fill (m : Memory) (f : FillRange) : Memory :=
  let inside := fun a => f.base ≤ a && a < f.base + f.len
  { cells := m.cells.filter fun c => !inside c.1,
    fills := f :: m.fills.filter fun g => !(inside g.base && g.base + g.len ≤ f.base + f.len) }

/-- Pending downlinks whose place in the store of Radius lies in a range that is filled are lost (R309, Table 12.1). -/
def State.losePending (s : State) (base len : Nat) : State :=
  let at_ := fun (e : StoreEntry) => 0x249000000 + (2 ^ 30 * s.radius.base + 256 * e.place)
  let keep := fun (e : StoreEntry) => at_ e + 256 ≤ base || base + len ≤ at_ e
  { s with radius := { s.radius with store := s.radius.store.filter keep } }

/-- Addresses rise strictly from one cell to the next. -/
def rising : List Host.Cell → Bool
  | [] => true
  | [_] => true
  | x :: y :: t => decide (x.1 < y.1) && rising (y :: t)

/-- The canonical form: cells in strictly rising order, none equal to what its address reads unlisted. -/
def Memory.wf (m : Memory) : Bool := rising m.cells && m.cells.all fun c => m.unlisted c.1 != some c.2

/-! ### Regions -/

/-- The memory an address lies in and the bytes installed there (Table 17.1, R396, R397). -/
def State.memAt (s : State) (a : Nat) : Option MemKind :=
  let up := s.hull.up.toNat
  if a < 0x0800000000 then if bits up 0 2 = 3 then some .hbm else none
  else if 0x1000000000 ≤ a ∧ a < 0x2000000000 then
    if bitOf up 2 ∧ a - 0x1000000000 < 2 ^ 30 * s.hull.gib0.toNat then some .ddr else none
  else if 0x2000000000 ≤ a ∧ a < 0x3000000000 then
    if bitOf up 3 ∧ a - 0x2000000000 < 2 ^ 30 * s.hull.gib1.toNat then some .ddr else none
  else none

/-- The number of a region: HBM 0-15, DDR 16-31. -/
def regionKey (m : MemKind) (r : Nat) : Nat := (match m with | .hbm => 0 | .ddr => 16) + r

/-- A region. -/
def State.region (s : State) (k : Nat) : Region := tget Region.reset s.hull.regions k

/-- Replace a region. -/
def State.setRegion (s : State) (k : Nat) (r : Region) : State :=
  { s with hull := { s.hull with regions := tput Region.reset s.hull.regions k r } }

/-- First byte of a region. -/
def Region.lo (r : Region) : Nat := 2 ^ 26 * r.base.toNat
/-- Bytes of a region. -/
def Region.bytes (r : Region) : Nat := 2 ^ 26 * r.size.toNat

/-- The region that is not OFF and covers an address. -/
def State.regionAt (s : State) (a : Nat) : Option Nat :=
  (s.hull.regions.find? fun e => e.2.state ≠ .off && e.2.lo ≤ a && a < e.2.lo + e.2.bytes).map (·.1)

/-- Position of a master class (R403). -/
def Master.idx : Master → Nat
  | .apex => 0 | .compass => 1 | .vertex => 2 | .radius => 3 | .annulus => 4 | .locusDma => 5 | .debugPort => 6

/-- The right a 2-bit code names (R403). -/
def Right.ofCode : Nat → Right
  | 0 => .none | 1 => .cipherRead | 2 => .plainRead | _ => .plainWrite

/-- The order of rights (R404). -/
def Right.code : Right → Nat
  | .none => 0 | .cipherRead => 1 | .plainRead => 2 | .plainWrite => 3

/-- A region's right for a master class (Table 17.13). -/
def Region.right (r : Region) (m : Master) : Right := Right.ofCode (bits r.rights.toNat (12 - 2 * m.idx) 2)

/-- The taint list of the memory of region k (R418). -/
def State.taints (s : State) (k : Nat) : List Taint := if k < 16 then s.hull.taintsHbm else s.hull.taintsDdr

/-- Bytes a node covers (Table 17.7). -/
def nodeCover (level : Nat) : Nat := 4096 * 8 ^ (level - 1)

/-- A taint entry covers an offset of its region. -/
def Taint.covers (t : Taint) (k off : Nat) : Bool :=
  t.region == k && t.node * nodeCover t.level ≤ off && off < (t.node + 1) * nodeCover t.level

/-- Count and report a refused access; an address outside every region has no region counter (R405, log entry 8). -/
def State.refuse (s : State) (k : Option Nat) (m : Master) : State :=
  match k with
  | some k => (s.count (cid 0x0C 0 k)).raiseOnce 0x203 (k * 8 + m.idx) [BitVec.ofNat 8 k, BitVec.ofNat 8 m.idx]
  | none => s

/-- Code of a verification failure (Table 17.11). -/
def verifyCode : VerifyCause → Nat
  | .mac => 0 | .node => 1 | .poisoned => 2 | .tainted => 3

/-- Count and report a verification failure (R414). -/
def State.verifyFail (s : State) (k addr : Nat) (m : Master) (owner : Nat) (c : VerifyCause) : State :=
  (s.count (cid 0x0C 1 k)).raise 0x200 (le 8 addr ++ [BitVec.ofNat 8 m.idx] ++ le 2 owner ++ [BitVec.ofNat 8 (verifyCode c)])

/-- Why a line of region k cannot be read as good data (R410, R417, R418, Table 17.4). -/
def State.lineFault (s : State) (k line : Nat) : Option VerifyCause :=
  let r := s.region k
  if r.state = .tainted ∨ (s.taints k).any (·.covers k (line * 64 - r.lo)) then some .tainted
  else match s.hull.badLines.lookup line with
    | some .poisoned => some .poisoned
    | some .ecc => some .mac
    | none => none

/-- Outcome of an access to one line. -/
inductive LineOk where
  | ok (k : Nat) | refused (k : Option Nat) | readOnly (k : Nat) | failed (k : Nat) (c : VerifyCause) | discarded (k : Nat) (num : Nat)
  deriving DecidableEq, Repr

/-- A region's right in force for a master (R403, R404); `dbg` is the bound R404 puts on the debug port. -/
def Region.rightFor (r : Region) (m : Master) (dbg : Right) : Right :=
  match m with
  | .debugPort => if dbg.code ≤ (r.right m).code then dbg else r.right m
  | _ => r.right m

/-- The bound that R404 puts on the debug port: the highest of debug rights 5 to 7 in force (Tables 2.4, 2.11). -/
def State.debugBound (s : State) : Right :=
  if s.dbgRight 7 then .plainWrite else if s.dbgRight 6 then .plainRead else if s.dbgRight 5 then .cipherRead else .none

/-- Whether a read of a line is allowed, and good (R405, R401). `need` is the least right; a ciphertext-read is not verified (R403). -/
def State.readLine (s : State) (m : Master) (need : Right) (line : Nat) : LineOk :=
  let a := line * 64
  match s.memAt a with
  | none => .refused (s.regionAt a)
  | some _ => match s.regionAt a with
    | none => .refused none
    | some k =>
      let r := s.region k
      if r.state = .init ∨ r.deleting ∨ (r.rightFor m s.debugBound).code < need.code then .refused (some k)
      else if need = .cipherRead then .ok k
      else match s.lineFault k line with
        | some c => .failed k c
        | none => .ok k

/-- Whether a write of a line is allowed and done (R401, R405, R413, R418). Discards name the counter they count in. -/
def State.writeLine (s : State) (m : Master) (line : Nat) (whole : Bool) : LineOk :=
  let a := line * 64
  match s.memAt a with
  | none => .refused (s.regionAt a)
  | some _ => match s.regionAt a with
    | none => .refused none
    | some k =>
      let r := s.region k
      if r.state = .init ∨ r.deleting ∨ r.rightFor m s.debugBound ≠ .plainWrite then .refused (some k)
      else if r.state = .readOnly ∨ (r.state = .rekey ∧ r.rekeyReadOnly) then .readOnly k
      else match s.lineFault k line with
        | some .tainted => .discarded k 4
        | some c => if whole then .ok k else .failed k c
        | none => .ok k

/-- Lines from the first to the last of a range of bytes. -/
def linesOf (a n : Nat) : List Nat :=
  if n = 0 then [] else (List.range ((a + n - 1) / 64 - a / 64 + 1)).map (· + a / 64)

/-- Result of a read of several bytes. -/
inductive MemRead where
  | data (bs : List Byte) | refused | failed
  deriving DecidableEq, Repr

/-- Read n bytes as plaintext for a master that Hull serves after verification (R414). The first refused or failing line decides. -/
def State.readMem (s : State) (m : Master) (owner a n : Nat) : MemRead × State :=
  match (linesOf a n).findSome? fun l => match s.readLine m .plainRead l with
      | .ok _ => none
      | v => some (l, v) with
  | none => (.data (s.mem.get a n), s)
  | some (_, .refused k) => (.refused, s.refuse k m)
  | some (l, .failed k c) => (.failed, s.verifyFail k (l * 64) m owner c)
  | some _ => (.refused, s)

/-- Node counts of the in-memory levels of a region of D bytes, level 1 first (R409). -/
def treeLevelsGo : Nat → Nat → List Nat
  | 0, n => [n]
  | k + 1, n => if n ≤ 64 then [n] else n :: treeLevelsGo k ((n + 7) / 8)

/-- Node counts of the in-memory levels, level 1 first (R409). -/
def treeLevels (bytes : Nat) : List Nat := treeLevelsGo 7 (bytes / 4096)

/-- The leaf of a line after one write: minor plus 1, or, past 127, the major plus 1 with every other minor 0; the flag says that
a re-encryption pass starts (R408, R412). -/
def Leaf.bump (l : Leaf) (line : Nat) : Bool × Leaf :=
  let m := tget 0 l.minors line
  if m.toNat < 127 then (false, { l with minors := tput 0 l.minors line (m + 1) })
  else (true, { major := l.major + 1, minors := [(line, 1)] })

/-- A leaf node with every counter 0. -/
def Leaf.reset : Leaf := { major := 0, minors := [] }

/-- A re-encryption pass stores the failing lines of a group, the written line aside, as poisoned (R412). -/
def State.poisonGroup (s : State) (k first line : Nat) : State :=
  let mine := fun (l : Nat) => first ≤ l && l < first + 64 && l != line
  let s := s.countN (cid 0x0C 1 k) (s.hull.badLines.filter fun e => mine e.1).length
  { s with hull := { s.hull with badLines := s.hull.badLines.map fun e => if mine e.1 then (e.1, .poisoned) else e } }

/-- The key of a node's counter in its parent. -/
def nodeKey (l n : Nat) : Nat := l * 2 ^ 32 + n

/-- The oldest dirty node may be evicted (R411): its counter in its parent goes up by 1 and the parent becomes dirty in its place, unless it is
in the on-die root. Where that counter is at its end, Hull does not write it: the flag (R413). -/
def Region.evict (r : Region) (go : Bool) : Bool × Region :=
  match r.dirty with
  | [] => (false, r)
  | (l, n) :: rest =>
    let c := tget 0 r.upper (nodeKey l n)
    let full := c.toNat == 2 ^ 64 - 1
    let up : Nat × Nat := (l + 1, n / 8)
    let on := if l < (treeLevels r.bytes).length ∧ !rest.contains up then rest ++ [up] else rest
    (full && go, { r with
      upper := if !full && go then tput 0 r.upper (nodeKey l n) (c + 1) else r.upper
      dirty := if !full && go then on else r.dirty })

/-- A write makes the leaf of its line dirty, and Hull may then evict a node of the region: when it does is free (R411, log entry 170). -/
def State.noteDirty (s : State) (k leaf : Nat) : State :=
  let (f, s) := s.draw 1
  let r := s.region k
  let (full, r) := { r with dirty := if r.dirty.contains (1, leaf) then r.dirty else r.dirty ++ [(1, leaf)] }.evict (f = 1)
  let s := s.setRegion k { r with state := if r.state = .active ∧ full then .readOnly else r.state
                                  rekeyReadOnly := r.rekeyReadOnly || (r.state == .rekey && full) }
  if full then s.raise 0x202 [BitVec.ofNat 8 k] else s

/-- Count a write in the line's leaf; false where the major counter has come to its end and no write may be done: the region becomes
READ_ONLY, or, while a rekey runs, refuses every write until it completes (R412, R413). -/
def State.bumpLine (s : State) (k line : Nat) : Bool × State :=
  let r := s.region k
  if !r.integ then (true, s)
  else
    let idx := line - r.lo / 64
    let leaf := tget Leaf.reset r.leaves (idx / 64)
    let (pass, leaf') := leaf.bump (idx % 64)
    if pass ∧ leaf.major.toNat = 2 ^ 64 - 1 then
      let s := s.setRegion k (if r.state = .rekey then { r with rekeyReadOnly := true } else { r with state := .readOnly })
      (false, s.raise 0x202 [BitVec.ofNat 8 k])
    else
      let r := { r with leaves := tput Leaf.reset r.leaves (idx / 64) leaf' }
      if pass then
        let s := s.setRegion k { r with overflowPass := (idx / 64) :: r.overflowPass }
        (true, ((s.count (cid 0x0C 2 k)).poisonGroup k (r.lo / 64 + idx / 64 * 64) line).noteDirty k (idx / 64))
      else (true, (s.setRegion k r).noteDirty k (idx / 64))

/-- Count and report a write refused because its region is READ_ONLY (R405, R413). -/
def State.refuseWrite (s : State) (k : Nat) (m : Master) : State := (s.count (cid 0x0C 5 k)).refuse (some k) m

/-- Write the part of bytes that falls in one line. -/
def State.writeOne (s : State) (m : Master) (owner a : Nat) (bs : List Byte) : Bool × State :=
  let line := a / 64
  match s.writeLine m line (bs.length = 64) with
  | .refused k => (false, s.refuse k m)
  | .readOnly k => (false, s.refuseWrite k m)
  | .failed k c => (true, s.verifyFail k (line * 64) m owner c)
  | .discarded k n => (true, s.count (cid 0x0C n k))
  | .ok k =>
    let (done, s) := s.bumpLine k line
    if done then
      (true, { s with mem := s.mem.put a bs, hull := { s.hull with badLines := tdel s.hull.badLines line } })
    else (true, s)

/-- Write bytes line by line for n lines at most; false at the first refused line, after which nothing more is written. -/
def State.writeGo (m : Master) (owner : Nat) : Nat → State → Nat → List Byte → Bool × State
  | 0, s, _, _ => (true, s)
  | _, s, _, [] => (true, s)
  | n + 1, s, a, bs =>
    let k := 64 - a % 64
    match s.writeOne m owner a (bs.take k) with
    | (false, s) => (false, s)
    | (true, s) => State.writeGo m owner n s (a + k) (bs.drop k)

/-- Whether every line of a range may be written by a master. -/
def State.mayWrite (s : State) (m : Master) (a n : Nat) : Bool :=
  (linesOf a n).all fun l => match s.writeLine m l true with
    | .refused _ | .readOnly _ => false
    | _ => true

/-- Write bytes; a range of which Hull refuses any line is not written at all (log entry 9). -/
def State.writeMem (s : State) (m : Master) (owner a : Nat) (bs : List Byte) : Bool × State :=
  match (linesOf a bs.length).findSome? fun l => match s.writeLine m l true with
      | .refused k => some (s.refuse k m)
      | .readOnly k => some (s.refuseWrite k m)
      | _ => none with
  | some s => (false, s)
  | none => State.writeGo m owner (bs.length / 64 + 2) s a bs

/-- The stored bytes of a line under CONF: XTS-AES-256, data unit number the line number (R407). -/
def Region.confLine (r : Region) (line : Nat) (pt : List Byte) : List Byte :=
  (Crypto.xts true r.k1.sh.key (Crypto.xtsTweak r.k2.sh.key line) (Crypto.blocks pt)).flatMap Crypto.blockBytes

/-- Block S of a CONF+INT line (R408). -/
def hullS (line major minor ty idx : Nat) : BitVec 128 :=
  BitVec.ofNat 128 (line <<< 94 ||| (major % 2 ^ 64) <<< 30 ||| (minor % 128) <<< 23 ||| ty <<< 20 ||| idx)

/-- The stored bytes of a line under CONF+INT (Table 17.5). -/
def Region.intLine (r : Region) (line : Nat) (pt : List Byte) : List Byte :=
  let idx := line - r.lo / 64
  let leaf := tget Leaf.reset r.leaves (idx / 64)
  ((Crypto.blocks pt).zipIdx.map fun (p, b) =>
    p ^^^ Crypto.aesEnc 32 r.k1.sh.key (hullS line leaf.major.toNat (tget 0 leaf.minors (idx % 64)).toNat 0 b)).flatMap
    Crypto.blockBytes

/-- The MAC of a CONF+INT line (Table 17.5). -/
def Region.lineMac (r : Region) (line : Nat) (pt : List Byte) : BitVec 56 :=
  let idx := line - r.lo / 64
  let leaf := tget Leaf.reset r.leaves (idx / 64)
  let h := Crypto.aesEnc 32 r.k2.sh.key 0
  let t := Crypto.ghash h 0 (Crypto.blocks (r.intLine line pt) ++ [BitVec.ofNat 128 512]) ^^^
    Crypto.aesEnc 32 r.k2.sh.key (hullS line leaf.major.toNat (tget 0 leaf.minors (idx % 64)).toNat 1 0)
  t.extractLsb' 72 56

/-- The 64 stored bytes of a leaf node (R410). -/
def Leaf.stored (l : Leaf) : List Byte :=
  le 64 (l.major.toNat + (List.range 64).foldl (fun x m => x + (tget 0 l.minors m).toNat * 2 ^ (64 + 7 * m)) 0)

/-- The MAC of a node over its 64 stored bytes, under its address in 64-byte units and its counter in the parent (Table 17.5). -/
def Region.nodeMac (r : Region) (node parent : Nat) (stored : List Byte) : BitVec 56 :=
  let h := Crypto.aesEnc 32 r.k2.sh.key 0
  let t := Crypto.ghash h 0 (Crypto.blocks stored ++ [BitVec.ofNat 128 512]) ^^^ Crypto.aesEnc 32 r.k2.sh.key (hullS node parent 0 2 0)
  t.extractLsb' 72 56

/-- A ciphertext-read of one byte: the stored byte of its line (R403). -/
def State.cipherByte (s : State) (k a : Nat) : Byte :=
  let r := s.region k
  let line := a / 64
  let pt := s.mem.get (line * 64) 64
  (if r.integ then r.intLine line pt else r.confLine line pt).getD (a % 64) 0

/-! ### Metadata, errors and taints -/

/-- Size of the metadata area of a CONF+INT region, rounded up to 4 MiB (R409). -/
def metaBytes (bytes : Nat) : Nat :=
  let n := (treeLevels bytes).sum
  2 ^ 22 * ((8 * (bytes / 64 + n) + 64 * n + 2 ^ 22 - 1) / 2 ^ 22)

/-- First byte of a region's metadata area. -/
def Region.metaLo (r : Region) : Nat := 2 ^ 22 * r.metaBase.toNat
/-- Bytes of a region's metadata area. -/
def Region.metaLen (r : Region) : Nat := 2 ^ 22 * r.metaSize.toNat

/-- Taint a node of region k, or, where the list of 32 is full, the whole region; its cached descendants are discarded (R418). -/
def State.taintNode (s : State) (k level node : Nat) : State :=
  let l := s.taints k
  let t : Taint := { region := k, level := level, node := node }
  if l.contains t then s
  else
    let s := s.raise 0x201 ([BitVec.ofNat 8 k, BitVec.ofNat 8 level] ++ le 4 node)
    let below := fun (e : Nat × Nat) => e.1 < level && e.2 / 8 ^ (level - e.1) == node
    let s := s.setRegion k { s.region k with dirty := (s.region k).dirty.filter fun e => !below e }
    if l.length < 32 then
      if k < 16 then { s with hull := { s.hull with taintsHbm := l ++ [t] } }
      else { s with hull := { s.hull with taintsDdr := l ++ [t] } }
    else (s.setRegion k { s.region k with state := .tainted }).raise 0x205 [BitVec.ofNat 8 k]

/-- Position of the n-th node of the MAC or node store: its level and index. -/
def nodeAt : Nat → List Nat → Nat → Option (Nat × Nat)
  | _, [], _ => none
  | l, c :: cs, n => if n < c then some (l, n) else nodeAt (l + 1) cs (n - c)

/-- An uncorrectable word at an address: in a data line of a CONF+INT region it fails the line (R417), in a CONF region, whose reads
never fail (R414), the word reads as a free value, in a MAC entry it fails the line or node it protects, in a node it taints the
node (R418). -/
def State.wordLost (s : State) (a : Nat) : State :=
  match s.regionAt a with
  | some k =>
    if (s.region k).integ then { s with hull := { s.hull with badLines := tins s.hull.badLines (a / 64) .ecc } }
    else
      let (v, s) := s.draw 64
      { s with mem := s.mem.put (a / 8 * 8) (le 8 v) }
  | none =>
    match s.hull.regions.find? fun e => e.2.integ && e.2.metaLo ≤ a && a < e.2.metaLo + e.2.metaLen with
    | none => s
    | some (k, r) =>
      let off := a - r.metaLo
      let lines := r.bytes / 64
      let lv := treeLevels r.bytes
      if off < 8 * lines then { s with hull := { s.hull with badLines := tins s.hull.badLines (r.lo / 64 + off / 8) .ecc } }
      else
        let n := if off < 8 * (lines + lv.sum) then (off - 8 * lines) / 8 else (off - 8 * (lines + lv.sum)) / 64
        match nodeAt 1 lv n with
        | some (l, i) => s.taintNode k l i
        | none => s

/-- The instance of the memory counters an address belongs to: HBM stack 0 or 1 by 256-byte unit, DDR channel 2 or 3 (Table 22.2,
log entry 12). -/
def memInstance (a : Nat) : Nat :=
  if a < 0x0800000000 then a / 256 % 2 else if a < 0x2000000000 then 2 else 3

/-- What the controller's SEC-DED check of a read found (R398). -/
def State.eccSeen (s : State) (a : Nat) (e : Ecc) : State :=
  let hbm := a < 0x0800000000
  let i := memInstance a
  match e with
  | .clean => s
  | .corrected => (s.count (cid 0x0D 0 i)).raiseOnce (if hbm then 0x220 else 0x222) (if hbm then 0 else 1) []
  | .uncorrectable =>
    ((s.count (cid 0x0D 1 i)).raise (if hbm then 0x221 else 0x223) (le 8 a)).wordLost a

end Sys2Proof.Machine
end

