-- ==== Sys2Proof/Machine/RingOps.lean ====
section
/-! DEFINITION. Rings: record writes, interrupts, the start and the completion of a command (chapters 20 and 21). -/

namespace Sys2Proof

/-- The little-endian field of len bytes at byte off of a descriptor (R487). -/
def Desc.get (d : Desc) (off len : Nat) : Nat := (d.word.toNat >>> (8 * off)) % 2 ^ (8 * len)

/-- TAG (Table 20.4). -/
def Desc.tag (d : Desc) : Nat := d.get 4 2
/-- OPCODE (Table 20.4). -/
def Desc.opcode (d : Desc) : Nat := (d.word.toNat >>> 4) % 4096
/-- VERSION (Table 20.4). -/
def Desc.version (d : Desc) : Nat := d.word.toNat % 16
/-- CMD_FLAGS (Table 20.4). -/
def Desc.flags (d : Desc) : Nat := d.get 3 1
/-- INTERRUPT (Table 20.4). -/
def Desc.interrupt (d : Desc) : Bool := d.word.toNat.testBit 17
/-- FENCE, which the FENCE command forces to 1 (Table 20.4, R471). -/
def Desc.fenced (d : Desc) : Bool := d.word.toNat.testBit 16 || d.opcode == 1

/-- A slot field names: class 0 DK, 1 GK, 2 WK, 3 none, and index (chapter 21, first paragraph). -/
def Desc.slotClass (d : Desc) (off : Nat) : Nat := d.get off 4 / 2 ^ 30
/-- Index of a slot field. -/
def Desc.slotIndex (d : Desc) (off : Nat) : Nat := d.get off 4 % 2 ^ 17

end Sys2Proof

namespace Sys2Proof.Machine

/-- Capacity-modulo count of entries between two 17-bit indices (R465). -/
def idxDiff (a b : BitVec 17) : Nat := (a - b).toNat

/-- The conditions of R475 at time now; the oldest record not yet signalled is read as the oldest unconsumed one (log entry 10). -/
def Ring.wantsIrq (r : Ring) (now : Nat) : Bool :=
  (r.cpl.toNat != 0 && decide (r.cpl.toNat ≤ idxDiff r.pi r.ci)) ||
  (r.us.toNat != 0 && (match r.unread with
    | [] => false
    | (_, t, _) :: _ => decide (t + 1000 * r.us.toNat ≤ now))) ||
  r.unread.any (·.2.2)

/-- Advance the producer index past one record; PHASE turns at the end of each pass (R472). -/
def Ring.advance (r : Ring) (now : Nat) (intr : Bool) : Ring :=
  let pi := r.pi + 1
  let r := { r with pi := pi, phase := if pi.toNat % r.cap = 0 then !r.phase else r.phase,
                    unread := r.unread ++ [(r.pi.toNat, now, intr)] }
  { r with irq := r.wantsIrq now }

/-- The memory address of slot i of a ring. -/
def Ring.slotAddr (r : Ring) (i : Nat) (size : Nat) : Nat := r.base.toNat + i % r.cap * size

/-- Codes of Table 22.21 for event 0x040. -/
def ringErrData (k : RingKind) (r cause : Nat) : List Byte :=
  [(match k with | .command => 0 | .completion => 1 | .event => 2 | .management => 3), BitVec.ofNat 8 r, BitVec.ofNat 8 cause]

/-- A ring enters ERROR and event 0x040 is raised; raises taken for an event ring that enters ERROR are discarded (R467, R572). -/
def State.ringError (s : State) (k : RingKind) (r cause : Nat) : State :=
  let n := match k with
    | .event => (s.tele.store.filter (·.ring == r)).length
    | _ => 0
  let ring := s.ring k r
  let s := s.setRing k r { ring with state := .error, lost := ring.lost + BitVec.ofNat 32 n, lostFlag := ring.lostFlag || n != 0 }
  let s := if n = 0 then s else
    { s with tele := { s.tele with
        store := s.tele.store.filter (·.ring != r),
        dropped := BitVec.ofNat 16 (min 65535 (s.tele.dropped.toNat + n)) } }
  s.raise 0x040 (ringErrData k r cause)

/-- Generic statuses (Table 20.6) and command-specific ones (Table 21.2). -/
inductive Status where
  | ok | badVersion | badOpcode | badRequest | busy | inUse | drainedLate | timeout | noBuffer | integrity
  | wrongClass | wrongPartition | badUsage | unwrapFailed | parentInvalid | parentRetired | kcvMismatch | noPending
  | notVerified | slotEmpty | keyChanged | noPartner | groupFull | counterLower | duplicateSci | duplicateKey | invalidPair
  | tooLate | cancelled | partialDone | standby | exists_ | notFound | hit | locked | tableFull | portActive | badImage
  | hwMismatch | badSignature | disabled | bufferFull | regionOff | tainted | noTwin | notCurrent | leaseLost
  deriving DecidableEq, Repr

/-- The code of a status (Tables 20.6 and 21.2). -/
def Status.code : Status → Nat
  | .ok => 0x0000 | .badVersion => 0x0001 | .badOpcode => 0x0002 | .badRequest => 0x0003 | .busy => 0x0004
  | .inUse => 0x0005 | .drainedLate => 0x0006 | .timeout => 0x0007 | .noBuffer => 0x0008 | .integrity => 0x0009
  | .wrongClass => 0x0100 | .wrongPartition => 0x0101 | .badUsage => 0x0102 | .unwrapFailed => 0x0103
  | .parentInvalid => 0x0104 | .parentRetired => 0x0105 | .kcvMismatch => 0x0106 | .noPending => 0x0107
  | .notVerified => 0x0108 | .slotEmpty => 0x0109 | .keyChanged => 0x010A | .noPartner => 0x0110 | .groupFull => 0x0111
  | .counterLower => 0x0112 | .duplicateSci => 0x0113 | .duplicateKey => 0x0114 | .invalidPair => 0x0115
  | .tooLate => 0x0116 | .cancelled => 0x0117 | .partialDone => 0x0118 | .standby => 0x0119 | .exists_ => 0x0120
  | .notFound => 0x0121 | .hit => 0x0122 | .locked => 0x0123 | .tableFull => 0x0124 | .portActive => 0x0128
  | .badImage => 0x0130 | .hwMismatch => 0x0131 | .badSignature => 0x0132 | .disabled => 0x0133 | .bufferFull => 0x0138
  | .regionOff => 0x0140 | .tainted => 0x0141 | .noTwin => 0x0148 | .notCurrent => 0x0149 | .leaseLost => 0x014A

/-- What a completed command reports: STATUS, FLAGS[6:0], RESULT0, RESULT1 (Table 20.5). -/
structure Reply where
  status : Status
  flags : Nat := 0
  r0 : Nat := 0
  r1 : Nat := 0
  deriving DecidableEq, Repr

/-- The owner ID of a command ring (R471). -/
def ringOwner (r : Nat) : Nat := 0x2000 + 160 + r

/-- The bytes of a completion record (Table 20.5). -/
def completionRecord (d : Desc) (rep : Reply) (phase : Bool) (ver time : Nat) : List Byte :=
  le 2 d.tag ++ le 2 rep.status.code ++ le 2 (d.opcode * 16 + d.version) ++ [BitVec.ofNat 8 d.ring.val,
    BitVec.ofNat 8 (b2n phase * 128 + rep.flags % 128)] ++ le 8 rep.r0 ++ le 8 rep.r1 ++
    (if ver = 2 then le 4 (time / 1000000000) ++ le 4 (time % 1000000000) else le 8 0)

/-- Write one completion record into its ring (R467, R472). -/
def State.writeCompletion (s : State) (d : Desc) (rep : Reply) (c : Nat) : State :=
  let ring := s.ring .completion c
  if ring.state ≠ .running then s
  else
    let bs := completionRecord d rep ring.phase s.rings.version.toNat s.gnomon.time
    let (ok, s) := s.writeMem .annulus (ringOwner d.ring.val) (ring.slotAddr ring.pi.toNat 32) bs
    if ok then
      let ring := s.ring .completion c
      s.setRing .completion c (({ ring with reserved := ring.reserved - 1 }).advance s.clk d.interrupt)
    else s.ringError .completion c 2

/-- The completion ring a command ring named when it was enabled. -/
def Ring.completionRing (r : Ring) : Nat := r.cpl.toNat % 64

/-- A command completes: its descriptor is no longer outstanding and its record is written (R472), unless a warm reset has come since
it started (R540). -/
def State.complete (s : State) (d : Desc) (rep : Reply) : State :=
  if s.rings.orphans.contains d then { s with rings := { s.rings with orphans := s.rings.orphans.erase d } }
  else
  let ring := s.ring .command d.ring.val
  let s := s.setRing .command d.ring.val { ring with outs := ring.outs.erase { desc := d, started := true } }
  let s := { s with rings := { s.rings with older := s.rings.older.erase d } }
  let s := s.emit (.completion d.ring.val d.tag rep.status.code rep.flags rep.r0 rep.r1)
  if ring.state = .disabled then s else s.writeCompletion d rep ring.completionRing

/-- Complete with a status alone. -/
def State.done (s : State) (d : Desc) (st : Status) : State := s.complete d { status := st }

/-- The block that executes an opcode, with the partition for Prism commands (Table 21.1, R471). -/
def execBlock (d : Desc) : Nat :=
  let op := d.opcode
  if op < 0x010 ∨ op = 0x061 ∨ op = 0xFF0 then 1
  else if op < 0x020 then 2
  else if op = 0x022 then 100
  else if op < 0x030 then 101 + bits (d.get 8 4) 13 4
  else if op = 0x052 then 101 + bits (d.get 8 4) 13 4
  else if op < 0x040 then 3
  else if op < 0x042 then 4
  else if op < 0x050 then 5
  else if op < 0x060 then 6
  else if op = 0x060 then 7
  else if op = 0x062 then 8
  else if op < 0x080 then 9
  else if op < 0x090 then 10
  else 11

/-- Two descriptors of one ring that must start in ring order (R471). -/
def sameBlock (a b : Desc) : Bool :=
  execBlock a == execBlock b || (100 ≤ execBlock a && 100 ≤ execBlock b && (execBlock a == 100 || execBlock b == 100))

/-- Whether R471 lets the entry for d start, given the entries before it. A descriptor that was not fetched may start (log entry 7). -/
def mayStartGo (d : Desc) : List Outstanding → List Outstanding → Bool
  | _, [] => true
  | before, o :: rest =>
    if o.desc = d ∧ o.started = false then
      (!d.fenced || before.isEmpty) && before.all fun b => !b.desc.fenced && (b.started || !sameBlock b.desc d)
    else mayStartGo d (before ++ [o]) rest

/-- Mark d started. -/
def markStarted (d : Desc) : List Outstanding → List Outstanding
  | [] => []
  | o :: rest => if o.desc = d ∧ o.started = false then { o with started := true } :: rest else o :: markStarted d rest

/-- Whether d has been fetched and waits to start. -/
def State.waits (s : State) (d : Desc) : Bool :=
  (s.ring .command d.ring.val).outs.contains { desc := d, started := false }

/-- Whether d may start now (R471, R541): a part that is held starts none (R59, R538). -/
def State.mayStart (s : State) (d : Desc) : Bool :=
  !s.halted && !s.rings.startsHeld && mayStartGo d [] (s.ring .command d.ring.val).outs

/-- Reserve the completion slot of a fetched command (R472): none while the completion ring is full. -/
def State.reserve (s : State) (d : Desc) : Option State :=
  let ring := s.ring .command d.ring.val
  if !s.waits d then some s
  else
    let s' := s.setRing .command d.ring.val { ring with outs := markStarted d ring.outs }
    let s' := { s' with rings := { s'.rings with stalled := s'.rings.stalled.erase d } }
    let c := s.ring .completion ring.completionRing
    if c.state ≠ .running then some s'
    else if c.cap ≤ idxDiff c.pi c.ci + c.reserved then none
    else some (s'.setRing .completion ring.completionRing { c with reserved := c.reserved + 1 })

/-- A command waits for completion space: it counts once (R472, 0x041). -/
def State.stall (s : State) (d : Desc) : State :=
  if s.rings.stalled.contains d then s
  else
    let s := { s with rings := { s.rings with stalled := s.rings.stalled ++ [d] } }
    (s.count (cid 0x0F 0 d.ring.val)).raiseOnce 0x041 d.ring.val [BitVec.ofNat 8 d.ring.val]

/-- The bits of a descriptor that a command assigns: byte ranges (offset, length), beside the header. -/
def bodyMask (fields : List (Nat × Nat)) : Nat :=
  fields.foldl (fun m f => m ||| ((2 ^ (8 * f.2) - 1) <<< (8 * f.1))) (2 ^ 64 - 1)

/-- Header checks of R468, then the reserved bytes of R487. `flagMask` holds the CMD_FLAGS bits the opcode assigns. -/
def headerStatus (d : Desc) (ver flagMask : Nat) (fields : List (Nat × Nat)) : Option Status :=
  if d.version ≠ ver then some .badVersion
  else if bits d.word.toNat 18 6 ≠ 0 then some .badRequest
  else if d.flags &&& (255 - flagMask) ≠ 0 then some .badRequest
  else if ver = 1 ∧ d.get 6 2 ≠ 0 then some .badRequest
  else if ver = 2 ∧ bits d.word.toNat 62 2 = 3 then some .badRequest
  else if d.word.toNat &&& bodyMask fields ≠ d.word.toNat then some .badRequest
  else none

/-- The version in force for a descriptor: that of its fetch (R469). -/
def State.versionFor (s : State) (d : Desc) : Nat :=
  let v := s.rings.version.toNat
  if s.rings.older.contains d then 3 - v else v

/-- A ring command: it starts when R471 and R472 let it, its header and reserved bytes are checked, and its body runs. `anyVer` is
set for SET_INTERFACE_VERSION, which either version may carry (R469). -/
def ringCommand (d : Desc) (flagMask : Nat) (fields : List (Nat × Nat)) (body : State → State) (s : State)
    (anyVer : Bool := false) : State :=
  if !s.mayStart d then s
  else match s.reserve d with
    | none => s.stall d
    | some s =>
      let ver := if anyVer ∧ (d.version = 1 ∨ d.version = 2) then d.version else s.versionFor d
      match headerStatus d ver flagMask fields with
      | some st => s.done d st
      | none => body s

/-- The timeout of a command in ns: the header's in version 2, the ring's DEF_TIMEOUT in version 1, the default for 0 (R489). -/
def State.timeoutOf (s : State) (d : Desc) (dflt : Nat) : Nat :=
  let t := if d.version = 2 then
      bits d.word.toNat 48 14 * (match bits d.word.toNat 62 2 with | 0 => 1000 | 1 => 1000000 | _ => 1000000000)
    else 1000 * (s.ring .command d.ring.val).us.toNat
  if t = 0 then dflt else t

/-- Read an input buffer for a command: its bytes, or the status it completes with (R488). -/
def State.readBuf (s : State) (d : Desc) (m : Master) (a n : Nat) : Except Status (List Byte) × State :=
  match s.readMem m (ringOwner d.ring.val) a n with
  | (.data bs, s) => (.ok bs, s)
  | (.refused, s) => (.error .badRequest, s)
  | (.failed, s) => (.error .integrity, s)

/-- Write an output buffer for a command and complete with rep, or with BAD_REQUEST where Hull refuses it (Table 20.6). -/
def State.writeBufDone (s : State) (d : Desc) (m : Master) (a : Nat) (bs : List Byte) (rep : Reply) : State :=
  match s.writeMem m (ringOwner d.ring.val) a bs with
  | (true, s) => s.complete d rep
  | (false, s) => s.done d .badRequest

/-- Read a buffer and go on with its bytes, or complete with the status of a failed read (R488). -/
def State.withBuf (s : State) (d : Desc) (m : Master) (a n : Nat) (k : List Byte → State → State) : State :=
  match s.readBuf d m a n with
  | (.ok bs, s) => k bs s
  | (.error st, s) => s.done d st

end Sys2Proof.Machine
end

