-- ==== Sys2Proof/Machine/AxisOps.lean ====
section
/-! DEFINITION. Key slots: contents, checks, staging, replaced generations, invalidation (chapter 3). -/

namespace Sys2Proof.Machine

/-- The table key of a slot: class 0 DK, 1 GK, 2 WK, and index. -/
def slotKey (cls idx : Nat) : Nat := 2 ^ 17 * cls + idx

/-- Class of a slot key. -/
def keyClass (k : Nat) : Nat := k / 2 ^ 17
/-- Index of a slot key. -/
def keyIndex (k : Nat) : Nat := k % 2 ^ 17

/-- The slots of Table 3.1. -/
def slotExists (cls idx : Nat) : Bool :=
  match cls with
  | 0 => idx < 131072 | 1 => idx < 4096 | 2 => idx < 256 | _ => false

/-- A slot field is well formed: class, zero bits [29:17], index within the class (chapter 21, R492). -/
def slotFieldOk (d : Desc) (off : Nat) : Bool :=
  bits (d.get off 4) 17 13 == 0 && slotExists (d.slotClass off) (d.slotIndex off)

/-- The slot a field names. -/
def slotField (d : Desc) (off : Nat) : Nat := slotKey (d.slotClass off) (d.slotIndex off)

/-- A slot key as events and descriptors carry it: [31:30] class, [16:0] index. -/
def slotWord (k : Nat) : Nat := 2 ^ 30 * keyClass k + keyIndex k

/-- A key slot. -/
def State.slot (s : State) (k : Nat) : Slot := tget Slot.reset s.axis.slots k

/-- A DK slot that commits a new generation, or whose active half leaves VALID, joins, last, the order in which copies report changed
slots (R447). -/
def State.noteKey (s : State) (k : Nat) (commit : Bool) : State :=
  { s with twin := { s.twin with keyOrder := s.twin.keyOrder.filter (· != (k, commit)) ++ [(k, commit)] } }

/-- Replace a key slot. -/
def State.setSlot (s : State) (k : Nat) (x : Slot) : State :=
  let y := s.slot k
  let s := if k < 2 ^ 17 ∧ x.active = .valid ∧ (y.active ≠ .valid ∨ y.gen ≠ x.gen) then s.noteKey k true
    else if k < 2 ^ 17 ∧ x.active ≠ .valid ∧ y.active = .valid then s.noteKey k false else s
  { s with axis := { s.axis with slots := tput Slot.reset s.axis.slots k x } }

/-- Key length in bytes of ALG. -/
def algLen : BitVec 2 → Nat
  | 0 => 16 | 1 => 24 | 2 => 32 | _ => 0

/-- The key a half holds: its two shares combined (R81). -/
def KeyHalf.key (h : KeyHalf) : Nat := (h.share ^^^ h.mask).toNat

/-- ENC of a USE byte (R492). -/
def KeyHalf.enc (h : KeyHalf) : Bool := h.use.getLsbD 4
/-- DEC. -/
def KeyHalf.dec (h : KeyHalf) : Bool := h.use.getLsbD 3
/-- DERIVE. -/
def KeyHalf.derive (h : KeyHalf) : Bool := h.use.getLsbD 2
/-- WRAP. -/
def KeyHalf.wrap (h : KeyHalf) : Bool := h.use.getLsbD 1
/-- BLOCK. -/
def KeyHalf.block (h : KeyHalf) : Bool := h.use.getLsbD 0

/-- The half that ALG, USE, MODE and PARENT describe: the active half, or while it is NONE the pending half (R92). -/
def Slot.shown (x : Slot) : KeyHalf :=
  if x.active ≠ .none then x.act else if x.pending ≠ .empty then x.pnd else KeyHalf.reset

/-- The key check value (R68). -/
def kcv (len key : Nat) : Nat := (Crypto.aesEnc len key 0).toNat / 2 ^ 104

/-- Rules of R64 on class and usage. -/
def usageOk (cls use : Nat) : Bool :=
  !((bitOf use 2 || bitOf use 1) && (bitOf use 4 || bitOf use 3 || bitOf use 0)) &&
  (match cls with
    | 1 => use == 4
    | 2 => !(bitOf use 4 || bitOf use 3 || bitOf use 0)
    | _ => true)

/-- One request to the DRBG, which answers n bits (R83). -/
def State.drbg (s : State) (n : Nat) : Nat × State :=
  let (v, s) := s.draw n
  (v, { s with axis := { s.axis with drbgCount := s.axis.drbgCount + 1 } })

/-- No new operation may use the active key of slot k because an ancestor was invalidated under CASCADE (R77, R78). -/
def State.blocked (s : State) (k : Nat) : Bool := (s.slot k).act.anc.any fun a => s.axis.cascaded.contains a

/-- The active half is VALID and no ancestor is invalidated: an operation may start (R66, R78). -/
def State.usable (s : State) (k : Nat) : Bool := (s.slot k).active == .valid && !s.blocked k

/-- A child of class cls under parent slot p keeps the depth rule of R76: three levels, of which only a DK is the third. -/
def State.depthOk (s : State) (p cls : Nat) : Bool :=
  let l := (s.slot p).act.anc.length + 2
  l ≤ 3 && (l < 3 || cls == 0)

/-- The ancestors that a child written from slot p records (R76). -/
def State.ancestry (s : State) (p : Nat) : List (Nat × BitVec 32) := (p, (s.slot p).gen) :: (s.slot p).act.anc

/-- Why a slot is no valid parent (R79). -/
def State.parentStatus (s : State) (p : Nat) : Option Status :=
  let x := s.slot p
  if x.active = .invalid ∧ x.retired then some .parentRetired
  else if x.active ≠ .valid ∨ s.blocked p then some .parentInvalid
  else none

/-- Write a key into a slot's pending half under a fresh mask of the key's length (R67, R81). -/
def State.stagePending (s : State) (k : Nat) (alg use : Nat) (retire : Bool) (anc : List (Nat × BitVec 32)) (key : Nat) :
    State :=
  let (m, s) := s.drbg (8 * algLen (BitVec.ofNat 2 alg))
  let x := s.slot k
  s.setSlot k { x with
    pending := .staged
    pnd := { share := BitVec.ofNat 256 (key ^^^ m), mask := BitVec.ofNat 256 m, maskAt := s.clk, alg := BitVec.ofNat 2 alg,
             use := BitVec.ofNat 5 use, retire := retire, anc := anc } }

/-! ### Associations that use a key -/

/-- An association context. -/
def State.sa (s : State) (h : Nat) : Assoc := tget Assoc.reset s.assoc.ctx h

/-- Replace an association context. -/
def State.setSa (s : State) (h : Nat) (a : Assoc) : State :=
  { s with assoc := { s.assoc with ctx := tput Assoc.reset s.assoc.ctx h a } }

/-- The DK slot of the key in use (R574). -/
def Assoc.dkInUse (a : Assoc) : Nat := if a.suite = 4 ∧ a.phase then a.dkB.toNat else a.dkA.toNat

/-- An association enters KEY_LOST with a cause of Table 22.21 (R122). -/
def State.enterKeyLost (s : State) (h cause : Nat) : State :=
  let a := s.sa h
  (s.setSa h { a with status := .keyLost, before := if a.status = .ready then .ready else .active }).raise 0x122
    (le 4 h ++ [BitVec.ofNat 8 cause])

/-- Every READY, ACTIVE or RESERVE_WAIT association whose key in use lies in a DK slot that p picks enters KEY_LOST (Table 4.2, R494,
R574; log entry 16). -/
def State.loseKeys (s : State) (p : Nat → Bool) (cause : Nat) : State :=
  ((s.assoc.ctx.filter fun e => (e.2.status == .ready || e.2.status == .active || e.2.status == .reserveWait) &&
    p e.2.dkInUse).map (·.1)).foldl
    (fun s h => s.enterKeyLost h cause) s

/-- A DK slot is bound to a non-FREE transmit association (R104). -/
def State.boundToTransmit (s : State) (dk : Nat) : Bool :=
  s.assoc.ctx.any fun e => e.2.status != .free && !e.2.recv && (e.2.dkA.toNat == dk || (e.2.suite == 4 && e.2.dkB.toNat == dk))

/-! ### Operations in flight (R71, R72) -/

/-- An operation starts under the present generation of slot k. -/
def State.opStart (s : State) (k : Nat) : State :=
  let x := s.slot k
  s.setSlot k { x with live := x.live + 1 }

/-- An operation that captured generation g of slot k ends. -/
def State.opEnd (s : State) (k : Nat) (g : BitVec 32) : State :=
  let x := s.slot k
  if x.gen = g then s.setSlot k { x with live := x.live - 1 }
  else s.setSlot k { x with old := x.old.map fun o => if o.gen = g then { o with count := o.count - 1 } else o }

/-- G + 1, wrapping to 1 (R65). -/
def nextGen (g : BitVec 32) : BitVec 32 := if g = BitVec.allOnes 32 then 1 else g + 1

/-- The replaced or erased active half joins the draining generations while operations hold it (R72). -/
def Slot.retire (x : Slot) (now : Nat) (erase : Option Desc) : Slot :=
  if x.live = 0 then { x with live := 0 }
  else { x with old := x.old ++ [{ gen := x.gen, half := x.act, count := x.live, since := now, erase := erase }], live := 0 }

/-- RESULT1 of an erase: seconds [31:0], then ns (Table 21.3). -/
def State.zeroTime (s : State) : Nat := s.gnomon.time / 1000000000 % 2 ^ 32 + 2 ^ 32 * (s.gnomon.time % 1000000000)

end Sys2Proof.Machine
end

