-- ==== Sys2Proof/Machine/TimeOps.lean ====
section
/-! DEFINITION. Time: the one-second tick, the passing of time, the servo, time-stamps (chapter 16). -/

namespace Sys2Proof.Machine

/-- Gnomon seconds now. -/
def State.sec (s : State) : Nat := s.gnomon.time / 1000000000

/-- A signed n-bit field value. -/
def signed (n v : Nat) : Int := if v < 2 ^ (n - 1) then (v : Int) else (v : Int) - 2 ^ n

/-- Write a GnomonState. -/
def State.withGnomon (s : State) (g : GnomonState) : State := { s with gnomon := g }

/-- PPS_OUT at a second boundary plus OUT_DELAY (R392): no second pulse while one is in progress, none for a stepped tick. -/
def State.ppsPulse (s : State) : State :=
  let cfg := s.regN 0x01400028
  let busy : Bool := s.gnomon.ppsOut && match s.gnomon.ppsFall with
    | some t => decide (s.clk < t)
    | none => false
  if bitOf cfg 31 ∧ ¬ busy ∧ ¬ s.gnomon.tickStepped then
    let rise := ((s.clk : Int) + signed 10 (bits cfg 16 10)).toNat
    s.withGnomon { s.gnomon with
      ppsOut := true
      ppsFall := some (rise + 1000000 * bits cfg 0 10)
      todDue := some (s.gnomon.tickSec, rise + 1000000) }
  else s

/-- Nanoseconds of SYS_REFCLK until Gnomon time reaches T (R382). -/
def State.until (s : State) (T : Nat) : Nat :=
  if T ≤ s.gnomon.time then 0
  else
    let per := (2 ^ 40 + (s.reg 0x01400020).toInt).toNat
    (2 ^ 40 * (T - s.gnomon.time) - s.gnomon.frac + per - 1) / per

/-- Nanoseconds of SYS_REFCLK until the next second boundary. -/
def State.untilTick (s : State) : Nat := s.until (1000000000 * (s.sec + 1))

/-- Enter a Gnomon state (Table 16.1): event 0x0E0, and HOLD_S counts from the entry of HOLDOVER. -/
def gnomonCode : GnomonMode → Nat
  | .freerun => 0 | .locked => 1 | .holdover => 2

/-- Change the Gnomon state. -/
def State.setGnomonMode (s : State) (m : GnomonMode) : State :=
  if m = s.gnomon.mode then s
  else
    let old := s.gnomon.mode
    (s.withGnomon { s.gnomon with mode := m, holdSince := s.clk }).raise 0x0E0
      [BitVec.ofNat 8 (gnomonCode old), BitVec.ofNat 8 (gnomonCode m)]

/-- A servo update restarts the timer of HOLD_MS milliseconds (R387). -/
def State.servoUpdate (s : State) : State :=
  s.withGnomon { s.gnomon with servoDue := some (s.clk + 1000000 * bits (s.regN 0x0140001C) 0 16) }

/-- HOLD_S: whole seconds in holdover, saturating (Table 16.12). -/
def State.holdS (s : State) : Nat :=
  if s.gnomon.mode = .holdover then min (2 ^ 20 - 1) ((s.clk - s.gnomon.holdSince) / 1000000000) else 0

/-- Append an entry to a port's transmit time-stamp queue, or drop it (R390). -/
def State.txtsPush (s : State) (x : Nat) (e : BitVec 128) : State :=
  let q := tget [] s.gnomon.txts x
  if q.length < 64 then s.withGnomon { s.gnomon with txts := tput [] s.gnomon.txts x (q ++ [e]) }
  else (s.withGnomon { s.gnomon with txtsOvf := tmod 0 s.gnomon.txtsOvf x fun c => c + 1 }).raiseOnce 0x0E2 x
    [BitVec.ofNat 8 x]

/-- A transmit time-stamp entry (Table 16.3); `t` is the stamp in units of 2^-16 ns. -/
def txtsEntry (id kind sub status t : Nat) : BitVec 128 :=
  let ns := t / 65536
  BitVec.ofNat 128 (id % 65536 ||| (kind <<< 6 ||| (sub % 4) <<< 4 ||| status <<< 2) <<< 16 |||
    (ns / 1000000000 % 2 ^ 48) <<< 32 ||| (ns % 1000000000) <<< 80 ||| (t % 65536) <<< 112)

/-- Lane modes of Table 16.2, by bit rate class: 0 106.25, 1 53.125, 2 26.5625, 3 112.5 Gbit/s. Tenths of a nanosecond. -/
def txConst : Nat → Nat
  | 0 => 148 | 1 => 172 | 2 => 215 | _ => 141
/-- Receive constants of Table 16.2 in tenths of a nanosecond. -/
def rxConst : Nat → Nat
  | 0 => 226 | 1 => 274 | 2 => 359 | _ => 218

/-- Gnomon time now in units of 2^-16 ns. -/
def State.stampNow (s : State) : Nat := 65536 * s.gnomon.time + s.gnomon.frac / 2 ^ 24

/-- Transmit time of a frame at port x in lane mode m, in units of 2^-16 ns (R388). -/
def State.txStamp (s : State) (x m : Nat) : Nat :=
  ((s.stampNow : Int) + 65536 * txConst m / 10 + 4096 * signed 16 (s.regN (0x01400100 + 0x20 * x) / 65536)).toNat

/-- Receive time of a frame at port x in lane mode m, in units of 2^-16 ns (R388). -/
def State.rxStamp (s : State) (x m : Nat) : Nat :=
  ((s.stampNow : Int) - 65536 * rxConst m / 10 - 4096 * signed 16 (s.regN (0x01400100 + 0x20 * x) % 65536)).toNat

end Sys2Proof.Machine
end

