-- ==== Sys2Proof/Machine/Triggers.lean ====
section
/-! DEFINITION. What the one-second tick and the passing of Gnomon time bring about in every block (R385, R386). -/

namespace Sys2Proof.Machine

/-- The performance copy of a Facet port at a tick: defect seconds count, and every counter is copied (R189). -/
def FacetPort.pmCopy (p : FacetPort) (sec : Nat) : FacetPort :=
  if !p.active then p
  else
    let slotBits := (List.range 4).foldl (fun m t => m ||| ((tget SlotRx.reset p.rx t).defects.toNat <<< (8 + 4 * t))) 0
    let now := p.defects.toNat ||| (b2n p.rdiRx <<< 7) ||| slotBits
    let any := p.stood.toNat ||| now
    let idx := fun b => if b < 8 then 7 + b else 16 + 16 * ((b - 8) / 4) + 8 + (b - 8) % 4
    let pm := (List.range 24).foldl (fun pm b => if any.testBit b then tmod 0 pm (idx b) (· + 1) else pm) p.pm
    { p with pm := pm, pmShown := pm, pmSecond := BitVec.ofNat 32 sec, stood := BitVec.ofNat 24 now }

/-- The tick: per-second counters latch, at-most-once limits begin again, PPS_OUT pulses (R386, R392). -/
def State.tick (s : State) (stepped : Bool) : State :=
  let s := { s with once := [] }
  let s := s.withGnomon { s.gnomon with tickSec := s.sec, tickStepped := stepped }
  let s := { s with facet := s.facet.map fun (e : Nat × FacetPort) => (e.1, e.2.pmCopy s.sec) }
  s.ppsPulse

/-- n ns of SYS_REFCLK pass without a tick; counters of KIND 10b count the Gnomon nanoseconds (R520). -/
def State.flow (s : State) (n : Nat) : State :=
  let t := s.gnomon.time
  let s := s.elapse n
  if s.frozen then s
  else (s.progsOf 2).foldl (fun s k =>
    let (w, s) := s.bumpProg k (s.gnomon.time - t)
    if w then s.raiseOnce 0x343 k (le 2 k) else s) s

/-- n ns of SYS_REFCLK pass, with a tick at each second boundary crossed; fuel bounds their number. -/
def State.passGo : Nat → Nat → State → State
  | 0, n, s => s.flow n
  | k + 1, n, s =>
    let b := s.untilTick
    if n < b then s.flow n else State.passGo k (n - b) ((s.flow b).tick false)

/-- n ns of SYS_REFCLK pass (R386). -/
def State.pass (s : State) (n : Nat) : State := State.passGo (n / 999000000 + 1) n s

/-- Time passes to SYS_REFCLK time t, if that is still to come (log entry 4). -/
def State.passTo (s : State) (t : Nat) : State := s.pass (t - s.clk)

/-- Time passes until Gnomon time reaches T, if that is still to come. -/
def State.passToTime (s : State) (T : Nat) : State := s.pass (s.until T)

end Sys2Proof.Machine
end

