-- ==== Sys2Proof/Machine/ApexOps.lean ====
section
/-! DEFINITION. Apex: life-cycle, mailboxes, certificates, images, sealing keys (chapters 2 and 3). -/

namespace Sys2Proof.Machine

/-- Replace the Apex state. -/
def State.withApex (s : State) (a : ApexState) : State := { s with apex := a }

/-! ### Life-cycle counter (R41) -/

/-- Cells of the bits below k. -/
def lcCellsOf (k : Nat) : BitVec 36 := BitVec.ofNat 36 (2 ^ (3 * k) - 1)

/-- PERSONALISED, OWNED or RMA (Table 2.2). -/
def State.lcService (s : State) : Bool := 9 ≤ s.lc && s.lc ≤ 11

/-! ### Intent words (Table 2.6) -/

/-- An intent word without DONE; the CRC runs over bits [30:16] with a 0 bit in front of them (log entry 150). -/
def intentWord (source target erase : Nat) : BitVec 32 :=
  let top := 2 ^ 12 * 5 + target * 2 ^ 8 + source * 2 ^ 4 + erase
  BitVec.ofNat 32 (2 ^ 16 * top + (Crypto.crc16 (be 2 top)).toNat)

/-- MAGIC and CHECK of an intent word are right. -/
def intentValid (w : BitVec 32) : Bool :=
  bits w.toNat 28 3 == 5 && bits w.toNat 0 16 == (Crypto.crc16 (be 2 (bits w.toNat 16 15))).toNat

/-- The newest valid intent word, if its DONE is clear (R46). -/
def State.openIntent (s : State) : Option (BitVec 32) :=
  match (s.apex.otp.intent.filter intentValid).getLast? with
  | some w => if w.getLsbD 31 then none else some w
  | none => none

/-- The owner erase: the owner partition and the owner seed share read as ones (R48). -/
def State.ownerErase (s : State) : State :=
  s.withApex { s.apex with otp := { s.apex.otp with
    ownerHash := BitVec.allOnes 384, ownerSeed := BitVec.allOnes 256, minBoot := BitVec.allOnes 6
    tamperEn := BitVec.allOnes 2, ownerErased := true } }

/-- Steps 2 to 4 of a transition: the erase, the counter bits, DONE (R45). -/
def State.finishTransition (s : State) (target : Nat) (erase : Bool) : State :=
  let s := if erase then s.ownerErase else s
  let o := s.apex.otp
  let mark := fun (l : List (BitVec 32)) => match l.reverse with
    | [] => []
    | w :: r => ((w ||| (1#32 <<< 31)) :: r).reverse
  s.withApex { s.apex with otp := { o with lcCells := o.lcCells ||| lcCellsOf target, intent := mark o.intent } }

/-- A whole transition: intent word, then steps 2 to 4 (R45). -/
def State.transition (s : State) (target : Nat) (erase : Bool) : State :=
  let w := intentWord s.lc target (b2n erase)
  (s.withApex { s.apex with otp := { s.apex.otp with intent := s.apex.otp.intent ++ [w] } }).finishTransition target erase

/-! ### Mailboxes (R39, R40) -/

/-- A mailbox. -/
def State.mbx (s : State) : Mbx → Mailbox
  | .compass => s.apex.mbxC
  | .debugPort => s.apex.mbxD

/-- Replace a mailbox. -/
def State.setMbx (s : State) (m : Mbx) (x : Mailbox) : State :=
  match m with
  | .compass => s.withApex { s.apex with mbxC := x }
  | .debugPort => s.withApex { s.apex with mbxD := x }

/-- Bytes of a buffer from offset off. -/
def bufBytes (t : Tbl (BitVec 8)) (off n : Nat) : List Byte := (List.range n).map fun i => tget 0 t (off + i)

/-- A buffer that holds given bytes from 0 and zeros after. -/
def bufOf (bs : List Byte) : Tbl (BitVec 8) := bs.zipIdx.foldl (fun t (b, i) => tput 0 t i b) []

/-- What Apex answers: a status of Table 2.3 or 3.8 and response bytes. -/
structure ApexReply where
  status : Nat
  bytes : List Byte := []
  deriving DecidableEq, Repr

/-- Command code of the request a mailbox holds. -/
def Mailbox.code (x : Mailbox) : Nat := leNat (bufBytes x.req 2 2)
/-- Payload length of the request. -/
def Mailbox.len (x : Mailbox) : Nat := leNat (bufBytes x.req 0 2)
/-- Payload of the request. -/
def Mailbox.payload (x : Mailbox) : List Byte := bufBytes x.req 4 (min x.len 508)

/-- Write a response and set DONE (R39). -/
def State.respond (s : State) (m : Mbx) (r : ApexReply) : State :=
  let x := s.mbx m
  let s := s.setMbx m { x with
    busy := false, done := true
    resp := bufOf (le 2 r.bytes.length ++ le 2 r.status ++ r.bytes) }
  s.withApex { s.apex with lastServed := m }

/-- It is a mailbox's turn: it holds a request, and where both do, it was not served last (R40). -/
def State.mbxTurn (s : State) (m : Mbx) : Bool :=
  let other := match m with
    | .compass => s.apex.mbxD
    | .debugPort => s.apex.mbxC
  (s.mbx m).busy && !(other.busy && s.apex.lastServed == m)

/-- Apex is in the middle of a request of the other mailbox, which a supply warning holds (R40, R49). -/
def State.otherHeld (s : State) (m : Mbx) : Bool :=
  match s.apex.heldWrite with
  | some h => h.mbx != m
  | none => false

/-- Command codes of Tables 2.2 and 3.7. -/
def mbxCodes : List Nat := [0x01, 0x10, 0x11, 0x20, 0x21, 0x30, 0x40, 0x50, 0x51, 0x52, 0x53, 0x54, 0x55]

/-- The other mailbox. -/
def otherMbx : Mbx → Mbx
  | .compass => .debugPort
  | .debugPort => .compass

/-- Apex answers a request that no row carries as soon as it is that mailbox's turn: BAD_REQUEST (R40, Table 2.3; log entry 146). -/
def State.mbxUnknown (s : State) (m : Mbx) : State :=
  let x := s.mbx m
  if s.apex.booted ∧ s.mbxTurn m ∧ ¬ s.apex.heldWrite.isSome ∧ ¬ mbxCodes.contains x.code then
    if s.apex.holdCode ≠ 0 ∧ m = .debugPort then s.respond m { status := 1, bytes := [s.apex.holdCode] }
    else s.respond m { status := 8 }
  else s

/-- Complete a request, after which Apex takes what the other mailbox holds (R40). -/
def State.finish (s : State) (m : Mbx) (r : ApexReply) : State := (s.respond m r).mbxUnknown (otherMbx m)

/-- A failed unlock attempt (R55). -/
def State.failedAttempt (s : State) : State := (s.withApex { s.apex with failed := s.apex.failed + 1 }).raise 0x004 []

/-- A request that Apex refuses before its body: a DBG_UNLOCK is a failed attempt all the same, and uses the challenge up (R55, R56). -/
def State.refuseRequest (s : State) (code : Nat) : State :=
  if code = 0x0011 then (s.withApex { s.apex with challenge := none }).failedAttempt else s

/-- Serve a mailbox request with command code `code`: the body answers a reply, or none where the request stays held before its
first write (R39, R49). While Apex holds Compass, the debug port's mailbox answers BAD_STATE with the hold code (R47, R54). -/
def mbxCommand (m : Mbx) (code : Nat) (body : List Byte → State → Option ApexReply × State) (s : State) : State :=
  let x := s.mbx m
  if ¬ s.apex.booted ∨ ¬ s.mbxTurn m ∨ x.code ≠ code ∨ s.otherHeld m then s
  else if s.apex.holdCode ≠ 0 ∧ m = .debugPort then (s.refuseRequest code).finish m { status := 1, bytes := [s.apex.holdCode] }
  else if 508 < x.len then (s.refuseRequest code).finish m { status := 8 }
  else match body x.payload s with
    | (some r, s) => s.finish m r
    | (none, s) => s

/-- A monitored rail is in its warning band (R49). -/
def State.railWarns (s : State) : Bool := !s.cpr.warn.isEmpty

/-- Hold a request before its first OTP or flash write while a rail warns (R49, R90). -/
def State.holdWrite (s : State) (m : Mbx) : State :=
  if s.apex.heldWrite.isSome then s else s.withApex { s.apex with heldWrite := some { mbx := m, since := s.clk, begun := false } }

/-! ### Certificates (R55, Table 2.10) -/

/-- The SHA-384 a signer's key must have, in the state that Table 2.4 names: vendor, or owner in OWNED. -/
def State.signerHash (s : State) (owner : Bool) : BitVec 384 := if owner then s.apex.otp.ownerHash else s.apex.otp.vendorHash

/-- Who may write the set-up window: Compass, or the debug port under right 4 (R567); no one while the part is held (R59, R538). -/
def State.mayWriteRegs (s : State) : Source → Bool
  | .compass => !s.halted
  | .debugPort => !s.halted && s.dbgRight 4

/-- Check a certificate of a type: 0 OK, else a status of Table 2.3. -/
def State.checkCert (s : State) (ty : Nat) (owner : Bool) (c : List Byte) : Nat :=
  if c.length ≠ 256 ∨ leAt c 0 4 ≠ 0x43424448 ∨ leAt c 4 2 ≠ 1 ∨ leAt c 6 2 ≠ ty ∨ leAt c 0x14 12 ≠ 0 ∨ 2 ≤ leAt c 0x11 1 ∨
      (ty ≠ 1 ∧ leAt c 0x12 2 ≠ 0) ∨ 0x4000 ≤ leAt c 0x12 2 then 8
  else if leAt c 0x11 1 ≠ b2n owner ∨ Crypto.sha384 (slice c 0x40 96) ≠ s.signerHash owner ∨
      ¬ Crypto.ecdsaVerify (slice c 0x40 96) (slice c 0xA0 96) (slice c 0 0xA0) then 2
  else if leAt c 8 8 ≠ s.apex.otp.serial.toNat ∨ leAt c 0x10 1 ≠ s.lc ∨
      s.apex.challenge ≠ some (BitVec.ofNat 256 (leAt c 0x20 32)) then 3
  else 0


/-! ### Images (R52 to R54) -/

/-- Bytes of flash. -/
def State.flashBytes (s : State) (off n : Nat) : List Byte := (List.range n).map fun i => tget 0xFF s.apex.flash (off + i)

/-- The boot directory is valid (R52). -/
def State.bootDirOk (s : State) : Bool :=
  let d := s.flashBytes 0 32
  leAt d 0 4 == 0x44495548 && leAt d 4 4 == 1 && leAt d 24 8 == 0

/-- Offset i of the boot directory: 0, 1 Apex patch; 2, 3 boot loader. -/
def State.bootOff (s : State) (i : Nat) : Nat := leAt (s.flashBytes 0 32) (8 + 4 * i) 4

/-- Body length a header gives. -/
def imageLen (h : List Byte) : Nat := leAt h 8 4

/-- R53 for the image at an offset: type, header, digest, security version, signature where the state requires one. A header that breaks Table
2.8 otherwise is refused too (log entry 151). -/
def State.imageOk (s : State) (off ty minVer : Nat) (sig : Option (BitVec 384)) : Bool :=
  let h := s.flashBytes off 288
  let n := imageLen h
  leAt h 0 4 == 0x4D495548 && leAt h 4 2 == ty && leAt h 6 2 == 1 && n ≤ (if ty = 1 then 262144 else 16777216) &&
  leAt h 0xC 4 < 64 && minVer ≤ leAt h 0xC 4 && leAt h 0x20 1 < 2 && leAt h 0x21 15 == 0 &&
  Crypto.sha384 (s.flashBytes (off + 0x120) n) == BitVec.ofNat 384 (Crypto.ofBytes ((slice h 0x30 48).map BitVec.toNat)) &&
  (match sig with
    | none => true
    | some hash => Crypto.sha384 (slice h 0x60 96) == hash && Crypto.ecdsaVerify (slice h 0x60 96) (slice h 0xC0 96) (slice h 0 0x60))

/-- Extend a measurement register with a digest (R50). -/
def State.measExtend (s : State) (i : Nat) (digest : List Byte) : State :=
  let old := tget 0 s.apex.meas i
  s.withApex { s.apex with meas := tput 0 s.apex.meas i <|
      (Crypto.sha384 ((Crypto.toBytes 48 old.toNat).map (BitVec.ofNat 8) ++ digest)) }

/-- The key hash a boot loader's signature needs: the owner's in OWNED, the vendor's in RMA, none otherwise (R53). -/
def State.bootSigner (s : State) : Option (BitVec 384) :=
  if s.lc = 10 then some s.apex.otp.ownerHash else if s.lc = 11 then some s.apex.otp.vendorHash else none

/-- Apex patch: primary, then alternate, else ROM code with 48 zero bytes measured (R54). -/
def State.loadPatch (s : State) : State :=
  let ok := fun i => s.bootDirOk && s.imageOk (s.bootOff i) 1 s.apex.otp.minPatch.toNat (some s.apex.otp.vendorHash)
  let digest := fun i => slice (s.flashBytes (s.bootOff i) 288) 0x30 48
  if ok 0 then s.measExtend 0 (digest 0)
  else if ok 1 then
    let s := s.measExtend 0 (digest 1)
    (s.withApex { s.apex with patchAlt := true }).raise 0x006 []
  else s.measExtend 0 (List.replicate 48 0)

/-- The boot loader copy that verifies, if any: 2 primary, 3 alternate (R54). -/
def State.bootCopy (s : State) : Option Nat :=
  [2, 3].find? fun i => s.bootDirOk && s.imageOk (s.bootOff i) 2 s.apex.otp.minBoot.toNat s.bootSigner

/-- Load a boot loader body into memory at its load address and note its entry (R54, Table 2.8). -/
def State.placeBoot (s : State) (i : Nat) : State :=
  let h := s.flashBytes (s.bootOff i) 288
  let body := s.flashBytes (s.bootOff i + 0x120) (imageLen h)
  let s := s.withApex { s.apex with entry := BitVec.ofNat 64 (leAt h 0x18 8), blSigned := s.bootSigner.isSome }
  (s.writeMem .apex 0 (leAt h 0x10 8) body).2

/-- The boot loader at a cold start: measured, loaded, or Compass held with 0xE2; SCRAP releases nothing (R54, Table 2.4). -/
def State.loadBoot (s : State) : State :=
  if s.lc = 12 then s
  else match s.bootCopy with
    | none => s.withApex { s.apex with holdCode := 0xE2 }
    | some i =>
      let dg := slice (s.flashBytes (s.bootOff i) 288) 0x30 48
      let s := s.measExtend 1 dg
      let s := s.withApex { s.apex with bootDigest := BitVec.ofNat 384 (Crypto.ofBytes (dg.map BitVec.toNat)) }
      let s := if i = 3 then (s.withApex { s.apex with blAlt := true }).raise 0x006 [] else s
      s.placeBoot i

/-! ### Device root and sealing (R85 to R87) -/

/-- Big-endian bytes of a number. -/
def beBytes (n v : Nat) : List Byte := (Crypto.toBytes n v).map (BitVec.ofNat 8)

/-- The owner seed as read: zero bytes before OWNED, ones after the owner erase (R85). -/
def State.ownerSeed (s : State) : BitVec 256 :=
  if s.lc < 10 ∧ ¬ s.apex.otp.ownerErased then 0 else s.apex.otp.ownerSeed

/-- Build the device root (R85). -/
def State.buildRoot (s : State) : State :=
  s.withApex { s.apex with root := Crypto.hmac384 (beBytes 32 (Config.pufKey s.apex.otp.helper).toNat) <|
      (beBytes 32 s.apex.otp.vendorSeed.toNat ++ beBytes 32 s.ownerSeed.toNat) }

/-- The measurement summary of a policy mask, with expected values in place of named registers (R86, R89). -/
def State.measSummary (s : State) (policy : Nat) (expect : List (Nat × List Byte)) : List Byte :=
  let sel := (List.range 6).filter fun i => bitOf policy i
  if sel.isEmpty then List.replicate 48 0
  else beBytes 48 (Crypto.sha384 (sel.flatMap fun i =>
    match expect.lookup i with
    | some v => v
    | none => beBytes 48 (tget 0 s.apex.meas i).toNat)).toNat

/-- The sealing key of a policy and salt (R86). -/
def State.sealKey (s : State) (policy : Nat) (salt : List Byte) (expect : List (Nat × List Byte)) : Nat :=
  let c := [BitVec.ofNat 8 s.lc, BitVec.ofNat 8 policy, BitVec.ofNat 8 (b2n s.apex.opened), 0] ++ s.measSummary policy expect ++ salt
  let text : List Byte := [0x54, 0x36, 0x34, 0x31, 0x36, 0x20, 0x53, 0x45, 0x41, 0x4C]
  (Crypto.hmac384 (beBytes 48 s.apex.root.toNat) (be 4 1 ++ text ++ [0] ++ c ++ be 4 256)).toNat / 2 ^ 128

/-- The blob header of Table 3.6. -/
def blobHeader (len gen policy attr label : Nat) (salt iv : List Byte) : List Byte :=
  le 4 0x424C5348 ++ le 2 1 ++ le 2 len ++ le 8 gen ++ [BitVec.ofNat 8 policy, BitVec.ofNat 8 attr] ++ le 2 label ++ le 4 0 ++
    salt ++ iv ++ le 4 0

/-- The IV of blob bytes as 96 bits. -/
def ivOf (iv : List Byte) : BitVec 96 := BitVec.ofNat 96 (Crypto.ofBytes (iv.map BitVec.toNat))

/-- Seal a payload with a fresh salt and IV (R87). -/
def State.sealBlob (s : State) (policy attr label gen : Nat) (pt : List Byte) (expect : List (Nat × List Byte)) :
    List Byte × State :=
  let (r, s) := s.drbg 224
  let salt := beBytes 16 (r / 2 ^ 96)
  let iv := beBytes 12 (r % 2 ^ 96)
  let h := blobHeader pt.length gen policy attr label salt iv
  let (ct, tag) := Crypto.gcmSeal 32 (s.sealKey policy salt expect) (ivOf iv) h pt
  (h ++ ct ++ tag, s)

/-- The header of a blob is valid (R87, R88). -/
def blobOk (b : List Byte) : Bool :=
  let n := leAt b 6 2
  leAt b 0 4 == 0x424C5348 && leAt b 4 2 == 1 && 1 ≤ n && n ≤ 320 && leAt b 0x10 1 < 64 &&
  bits (leAt b 0x11 1) 4 4 == 0 && bits (leAt b 0x11 1) 2 2 != 3 && leAt b 0x14 4 == 0 && leAt b 0x34 4 == 0

/-- Unseal a blob in the current state and measurements (R88). -/
def State.unsealBlob (s : State) (b : List Byte) : Option (List Byte) :=
  let n := leAt b 6 2
  if ¬ blobOk b ∨ b.length ≠ n + 72 then none
  else Crypto.gcmOpen 32 (s.sealKey (leAt b 0x10 1) (slice b 0x18 16) []) (ivOf (slice b 0x28 12)) (slice b 0 0x38)
    (slice b 0x38 n) (slice b (0x38 + n) 16)

end Sys2Proof.Machine
end

