-- ==== Sys2Proof/Machine/Apex.lean ====
section
/-! DEFINITION. The mailbox commands of Apex (chapters 2 and 3). -/

namespace Sys2Proof.Machine

/-- A reply and no change. -/
def answer (st : Nat) (s : State) : Option ApexReply × State := (some { status := st }, s)

/-- Complete a permitted transition: held while a rail warns, then all five steps and event 0x001 (R45, R49). -/
def State.runTransition (s : State) (m : Mbx) (target : Nat) (erase : Bool) (pre : State → State) :
    Option ApexReply × State :=
  if s.railWarns then (none, s.holdWrite m)
  else answer 0 (((pre s).transition target erase).raise 0x001 [])

/-- The token of a test unlock matches its hash in vendor OTP (R43). -/
def State.tokenOk (s : State) (k : Nat) (tok : List Byte) : Bool := s.apex.otp.tokenHash[k]? == some (Crypto.sha384 tok)

/-- LC_TRANSITION (Table 2.5, R43 to R49). -/
def lcBody (m : Mbx) (p : List Byte) (s : State) : Option ApexReply × State :=
  let t := leAt p 0 1
  let arg := p.drop 1
  let c := s.lc
  let dbg := m = .debugPort
  if 8 ≤ s.apex.failed then answer 6 s
  else if p.isEmpty then answer 8 s
  else if t = 12 ∧ c < 12 then
    if 9 ≤ c then
      match s.checkCert 3 s.certOwner arg with
      | 0 => s.runTransition m 12 true id
      | st => answer st s
    else if dbg then s.runTransition m 12 true id else answer 1 s
  else if c < 8 ∧ c % 2 = 0 ∧ t = c + 1 then
    if ¬ dbg then answer 1 s
    else if s.tokenOk (c / 2) arg then s.runTransition m t false id
    else answer 4 s.failedAttempt
  else if c < 8 ∧ c % 2 = 1 ∧ t = c + 1 then
    if dbg then s.runTransition m t false id else answer 1 s
  else if c = 8 ∧ t = 9 then
    if dbg then s.runTransition m t false id else answer 1 s
  else if c = 9 ∧ t = 10 then
    if dbg then answer 1 s
    else if arg.length ≠ 48 then answer 8 s
    else s.runTransition m 10 false fun s =>
      let (seed, s) := s.draw 256
      s.withApex { s.apex with otp := { s.apex.otp with
        ownerHash := BitVec.ofNat 384 (Crypto.ofBytes (arg.map BitVec.toNat)), ownerSeed := BitVec.ofNat 256 seed } }
  else if (c = 9 ∨ c = 10) ∧ t = 11 then
    match s.checkCert 2 s.certOwner arg with
    | 0 => s.runTransition m 11 true id
    | st => answer st s
  else answer 1 s

/-- LC_TRANSITION (R45). -/
def execLcTransition (m : Mbx) (s : State) : Out := .next (mbxCommand m 0x0001 (lcBody m) s)

/-- DBG_CHALLENGE (R56). -/
def challengeBody (p : List Byte) (s : State) : Option ApexReply × State :=
  if ¬ s.lcService then answer 1 s
  else if ¬ p.isEmpty then answer 8 s
  else
    let (c, s) := s.draw 256
    (some { status := 0, bytes := le 32 c }, s.withApex { s.apex with challenge := some (BitVec.ofNat 256 c) })

/-- DBG_CHALLENGE (R56). -/
def execDbgChallenge (m : Mbx) (s : State) : Out := .next (mbxCommand m 0x0010 challengeBody s)

/-- DBG_UNLOCK (R55 to R57). -/
def unlockBody (p : List Byte) (s : State) : Option ApexReply × State :=
  if 8 ≤ s.apex.failed then answer 6 (s.refuseRequest 0x0011)
  else
    let st := if ¬ s.lcService then 1 else s.checkCert 1 s.certOwner p
    let s := s.withApex { s.apex with challenge := none }
    if st ≠ 0 then answer st s.failedAttempt
    else
      let r := s.certRights ||| BitVec.ofNat 16 (leAt p 0x12 2)
      let s := s.withApex { s.apex with
        rights := if s.certOwner then s.apex.rights else r, ownerRights := if s.certOwner then r else s.apex.ownerRights
        opened := s.apex.opened || leAt p 0x12 2 % 1024 != 0 }
      answer 0 (s.raise 0x003 (le 2 r.toNat))

/-- DBG_UNLOCK (R55). -/
def execDbgUnlock (m : Mbx) (s : State) : Out := .next (mbxCommand m 0x0011 unlockBody s)

/-- MEAS_EXTEND (R50, R51). -/
def extendBody (p : List Byte) (s : State) : Option ApexReply × State :=
  let i := leAt p 0 1
  if s.lc = 12 then answer 1 s
  else if p.length ≠ 52 ∨ 5 < i ∨ leAt p 1 3 ≠ 0 then answer 8 s
  else if i = 0 ∨ i = 1 ∨ i = 3 then answer 5 s
  else answer 0 (s.measExtend i (p.drop 4))

/-- MEAS_EXTEND (R50). -/
def execMeasExtend (m : Mbx) (s : State) : Out := .next (mbxCommand m 0x0020 extendBody s)

/-- MEAS_READ (Table 2.2). -/
def measReadBody (p : List Byte) (s : State) : Option ApexReply × State :=
  if s.lc = 12 then answer 1 s
  else if p.length ≠ 1 ∨ 5 < leAt p 0 1 then answer 8 s
  else (some { status := 0, bytes := beBytes 48 (tget 0 s.apex.meas (leAt p 0 1)).toNat }, s)

/-- MEAS_READ (R50). -/
def execMeasRead (m : Mbx) (s : State) : Out := .next (mbxCommand m 0x0021 measReadBody s)

/-- ALARM_ACK clears the always-on latch (R60). -/
def alarmAckBody (p : List Byte) (s : State) : Option ApexReply × State :=
  if s.lc = 12 then answer 1 s
  else if ¬ p.isEmpty then answer 8 s
  else answer 0 (s.withApex { s.apex with cause := 0, railId := 0 })

/-- ALARM_ACK (R60). -/
def execAlarmAck (m : Mbx) (s : State) : Out := .next (mbxCommand m 0x0030 alarmAckBody s)

/-- SECVER_RAISE (Table 2.2, R53): a minimum held as a thermometer only rises. -/
def secverBody (m : Mbx) (p : List Byte) (s : State) : Option ApexReply × State :=
  let ty := leAt p 0 1
  let v := leAt p 1 1
  let st :=
    if ty = 2 then (if s.lc ≠ 10 then 1 else if p.length ≠ 2 ∨ 63 < v then 8 else 0)
    else if ty = 1 then
      (if ¬ s.lcService then 1 else if 63 < v then 8 else s.checkCert 4 false (p.drop 2))
    else 8
  if st ≠ 0 then answer st s
  else if s.railWarns then (none, s.holdWrite m)
  else
    let o := s.apex.otp
    let up := fun (b : BitVec 6) => BitVec.ofNat 6 (max b.toNat v)
    answer 0 (s.withApex { s.apex with
      otp := if ty = 2 then { o with minBoot := up o.minBoot } else { o with minPatch := up o.minPatch } })

/-- SECVER_RAISE (R53). -/
def execSecverRaise (m : Mbx) (s : State) : Out := .next (mbxCommand m 0x0040 (secverBody m) s)

/-- SEAL (R87). -/
def sealBody (p : List Byte) (s : State) : Option ApexReply × State :=
  let attr := leAt p 1 1
  if ¬ s.lcService then answer 1 s
  else if p.length < 13 ∨ 332 < p.length ∨ 64 ≤ leAt p 0 1 ∨ 16 ≤ attr ∨ bits attr 2 2 = 3 then answer 8 s
  else if ¬ s.axis.serving then answer 9 s
  else
    let (b, s) := s.sealBlob (leAt p 0 1) attr (leAt p 2 2) (leAt p 4 8) (p.drop 12) []
    (some { status := 0, bytes := b }, s)

/-- SEAL (R87). -/
def execSeal (m : Mbx) (s : State) : Out := .next (mbxCommand m 0x0050 sealBody s)

/-- UNSEAL (R88). -/
def unsealBody (p : List Byte) (s : State) : Option ApexReply × State :=
  if ¬ s.lcService then answer 1 s
  else match s.unsealBlob p with
    | none => answer 0xA s
    | some pt => if bitOf (leAt p 0x11 1) 0 then (some { status := 0, bytes := pt }, s) else answer 0xB s

/-- UNSEAL (R88). -/
def execUnseal (m : Mbx) (s : State) : Out := .next (mbxCommand m 0x0051 unsealBody s)

/-- UNSEAL_TO_SLOT (R88, R64, R76): the pending half of the GK or WK slot the target class names. Its MODE is CASCADE, and target class none or
a length that the algorithm does not have is BAD_REQUEST (log entry 153). -/
def unsealSlotBody (p : List Byte) (s : State) : Option ApexReply × State :=
  let b := p.drop 4
  let cls := bits (leAt b 0x11 1) 2 2
  let idx := leAt p 0 2
  let alg := leAt p 2 1
  let use := leAt p 3 1
  if ¬ s.lcService then answer 1 s
  else if p.length < 4 ∨ 2 < alg ∨ 32 ≤ use then answer 8 s
  else if ¬ s.axis.serving then answer 9 s
  else match s.unsealBlob b with
    | none => answer 0xA s
    | some pt =>
      let n := algLen (BitVec.ofNat 2 alg)
      if cls = 0 ∨ ¬ slotExists cls idx ∨ pt.length ≠ n ∨ ¬ usageOk cls use then answer 8 s
      else
        let key := Crypto.ofBytes (pt.map BitVec.toNat)
        (some { status := 0, bytes := le 4 (kcv n key) }, s.stagePending (slotKey cls idx) alg use false [] key)

/-- UNSEAL_TO_SLOT (R88). -/
def execUnsealToSlot (m : Mbx) (s : State) : Out := .next (mbxCommand m 0x0052 unsealSlotBody s)

/-- SEAL_MIGRATE (R89), which goes on while Axis does not serve (log entry 155). -/
def migrateBody (p : List Byte) (s : State) : Option ApexReply × State :=
  let n := leAt p 0 1
  let b := p.drop (4 + 52 * n)
  let reg := fun i => leAt p (4 + 52 * i) 1
  if ¬ s.lcService then answer 1 s
  else if (n ≠ 1 ∧ n ≠ 2) ∨ leAt p 1 3 ≠ 0 ∨ 5 < reg 0 ∨ leAt p 5 3 ≠ 0 ∨ (n = 2 ∧ (5 < reg 1 ∨ leAt p 57 3 ≠ 0)) then answer 8 s
  else match s.unsealBlob b with
    | none => answer 0xA s
    | some pt =>
      let ex := (List.range n).map fun i => (reg i, slice p (8 + 52 * i) 48)
      let (nb, s) := s.sealBlob (leAt b 0x10 1) (leAt b 0x11 1 ||| 2) (leAt b 0x12 2) (leAt b 8 8 + 1) pt ex
      (some { status := 0, bytes := nb }, s)

/-- SEAL_MIGRATE (R89). -/
def execSealMigrate (m : Mbx) (s : State) : Out := .next (mbxCommand m 0x0053 migrateBody s)

/-- A flash sector meets the boot directory or an image it names (R90). -/
def State.sectorReserved (s : State) (off : Nat) : Bool :=
  off < 32 || (s.bootDirOk && [0, 1, 2, 3].any fun i =>
    let o := s.bootOff i
    let n := 288 + imageLen (s.flashBytes o 288)
    off < o + n && o < off + 4096)

/-- What programming leaves in a sector: the bytes given, or, where it fails, bytes that are free (R90, log entry 31). -/
def State.programmed (s : State) (b : List Byte) : List Byte × State :=
  let (bad, s) := s.draw 1
  if bad = 0 then (b, s)
  else
    let (v, s) := s.draw (8 * b.length)
    (le b.length v, s)

/-- BLOB_COMMIT (R90): erase the sector, program the blob, read it back. -/
def blobCommitBody (m : Mbx) (p : List Byte) (s : State) : Option ApexReply × State :=
  let off := leAt p 0 4
  let b := p.drop 4
  if ¬ s.lcService then answer 1 s
  else if p.length < 5 ∨ off % 4096 ≠ 0 ∨ ¬ s.apex.flashErase ∨ s.apex.flashSize < off + 4096 ∨ s.sectorReserved off then answer 8 s
  else if s.railWarns then (none, s.holdWrite m)
  else
    let (w, s) := s.programmed b
    let f := s.apex.flash.filter fun e => !(off ≤ e.1 && e.1 < off + 4096)
    answer (if w = b then 0 else 0xC) (s.withApex { s.apex with
      flash := w.zipIdx.foldl (fun t (x, i) => tput 0xFF t (off + i) x) f })

/-- BLOB_COMMIT (R90). -/
def execBlobCommit (m : Mbx) (s : State) : Out := .next (mbxCommand m 0x0054 (blobCommitBody m) s)

/-- BLOB_FETCH (R88, Table 3.7). -/
def blobFetchBody (p : List Byte) (s : State) : Option ApexReply × State :=
  let off := leAt p 0 4
  let h := s.flashBytes off 0x38
  if ¬ s.lcService then answer 1 s
  else if p.length ≠ 4 ∨ s.apex.flashSize ≤ off then answer 8 s
  else if blobOk h then (some { status := 0, bytes := s.flashBytes off (leAt h 6 2 + 72) }, s)
  else answer 0xD s

/-- BLOB_FETCH (R88). -/
def execBlobFetch (m : Mbx) (s : State) : Out := .next (mbxCommand m 0x0055 blobFetchBody s)

/-! ### Writes that are under way (R46, R49, R90; log entry 31) -/

/-- The state that the OTP or flash writes of a mailbox's request lead to, where Apex would accept it now and no rail warned. -/
def State.writesOf (s : State) (m : Mbx) : Option State :=
  let x := s.mbx m
  let u := { s with cpr := { s.cpr with warn := [] }, apex := { s.apex with heldWrite := none } }
  if ¬ s.apex.booted ∨ ¬ s.mbxTurn m ∨ s.otherHeld m ∨ (s.apex.holdCode ≠ 0 ∧ m = .debugPort) ∨ 508 < x.len then none
  else
    let (r, v) := match x.code with
      | 0x0001 => lcBody m x.payload u
      | 0x0040 => secverBody m x.payload u
      | 0x0054 => blobCommitBody m x.payload u
      | _ => (none, u)
    match r with
    | some r => if r.status = 0 ∨ r.status = 0xC then some v else none
    | none => none

/-- The OTP that a transition leaves where a reset interrupts it after step 1: DONE is clear; either the owner erase has burned some cells
and no counter cell is burned, or all that comes before the counter is done and so are its lowest k cells (R45, R48). -/
def cutOtp (o o' : OtpState) (k hash seed rest : Nat) : OtpState :=
  let open_ := match o'.intent.reverse with
    | [] => []
    | w :: r => ((w &&& 0x7FFFFFFF#32) :: r).reverse
  if o'.ownerErased && !o.ownerErased && k == 0 then
    { o with
      intent := open_, ownerHash := o.ownerHash ||| BitVec.ofNat 384 hash, ownerSeed := o.ownerSeed ||| BitVec.ofNat 256 seed
      tamperEn := o.tamperEn ||| BitVec.ofNat 2 rest, minBoot := BitVec.ofNat 6 (max o.minBoot.toNat (rest / 4)) }
  else { o' with intent := open_, lcCells := o.lcCells ||| (o'.lcCells &&& BitVec.ofNat 36 (2 ^ (k - 1) - 1)) }

/-- The sector of a BLOB_COMMIT that a reset interrupts: erased, with a part of the blob programmed (R90). -/
def State.cutSector (s : State) (off : Nat) (b : List Byte) (k : Nat) : State :=
  let part := b.take (k % b.length)
  let w := if (b.drop part.length).all (· == 0xFF) then [] else part
  let f := s.apex.flash.filter fun e => !(off ≤ e.1 && e.1 < off + 4096)
  s.withApex { s.apex with flash := w.zipIdx.foldl (fun t (x, i) => tput 0xFF t (off + i) x) f }

/-- A reset interrupts the writes of mailbox m's request, which lead to v: how far they have come is free (R46, R90). -/
def State.cutWrite (s : State) (m : Mbx) (v : State) : State :=
  let p := (s.mbx m).payload
  let o := s.apex.otp
  let s := { s with freeCount := max s.freeCount v.freeCount }
  match (s.mbx m).code with
  | 0x0001 =>
    let (k, s) := s.draw 6
    let (hash, s) := s.draw 384
    let (seed, s) := s.draw 256
    let (rest, s) := s.draw 8
    s.withApex { s.apex with otp := cutOtp o v.apex.otp k hash seed rest }
  | 0x0040 =>
    let (r, s) := s.draw 6
    let part := fun (a b : BitVec 6) => BitVec.ofNat 6 (a.toNat + r % (b.toNat - a.toNat + 1))
    s.withApex { s.apex with otp := { o with minBoot := part o.minBoot v.apex.otp.minBoot, minPatch := part o.minPatch v.apex.otp.minPatch } }
  | _ =>
    let (k, s) := s.draw 16
    s.cutSector (leAt p 0 4) (p.drop 4) k

/-- A reset comes: writes that a supply warning has paused are interrupted, and those of a request that Apex has before it are where they
have begun, which is free (R46, R90). -/
def State.cutWrites (s : State) : State :=
  [Mbx.compass, Mbx.debugPort].foldl (fun s m =>
    if (s.writesOf m).isNone then s
    else
      let (f, s) := match s.apex.heldWrite with
        | some h => (b2n h.begun, s)
        | none => s.draw 1
      match s.writesOf m with
      | some v => if f = 0 then s else s.cutWrite m v
      | none => s) s

/-- The first rail enters WARNING: a request whose writes have begun, which is free, pauses between two operations (R49, R90). -/
def State.pauseWrites (s : State) : State :=
  if s.apex.heldWrite.isSome then s
  else match [Mbx.compass, Mbx.debugPort].find? fun m => (s.writesOf m).isSome with
    | some m =>
      let (f, s) := s.draw 1
      if f = 0 then s else s.withApex { s.apex with heldWrite := some { mbx := m, since := s.clk, begun := true } }
    | none => s

/-- Apex resumes a transition that its intent word leaves open, unless a rail warns (R46, R49). -/
def State.resumeIntent (s : State) : State :=
  match s.openIntent with
  | none => s
  | some w =>
    if s.railWarns then s
    else
      let t := s.finishTransition (bits w.toNat 24 4) (bits w.toNat 16 4 != 0)
      t.withApex { t.apex with resumed := true }

/-- SUPPLY_HOLD_TIMEOUT: the warning lasted 1 s before the first write; the held request ends with SUPPLY_HOLD (R49, R90). -/
def execSupplyHoldTimeout (m : Mbx) (s : State) : Out :=
  match s.apex.heldWrite with
  | none => .next s
  | some h =>
    if h.mbx = m ∧ ¬ h.begun ∧ s.railWarns then
      let s := s.passTo (h.since + 1000000000)
      .next (((s.withApex { s.apex with heldWrite := none }).raise 0x007 []).finish m { status := 7 })
    else .next s

/-- COMPASS_RELEASE: Apex releases the cores at the boot loader's entry address, locks MEAS0 and MEAS1, and raises the events it
owes at a cold start; where no boot loader verified, or in SCRAP, it holds them (R46, R53, R54, R60, R397, R536, R540). -/
def execCompassRelease (s : State) : Out :=
  if ¬ s.apex.booted ∨ s.rings.released ∨ s.apex.holdCode ≠ 0 ∨ s.lc = 12 ∨ ¬ s.axis.serving then .next s
  else
    let cold := !s.apex.measLock
    let s := ({ s with rings := { s.rings with released := true } }).withApex { s.apex with measLock := true }
    let s := if cold ∧ s.apex.cause ≠ 0 then s.raise 0x000 [BitVec.ofNat 8 s.apex.cause.toNat] else s
    let s := if s.apex.resumed then ((s.withApex { s.apex with resumed := false }).raise 0x002 []).raise 0x001 [] else s
    if ¬ cold then .next s
    else
      let s := if s.cpr.supplyOwed then ({ s with cpr := { s.cpr with supplyOwed := false } }).raise 0x022 [s.cpr.railId] else s
      .next ((List.range 4).foldl (fun s i => if s.hull.fail.getLsbD i then s.raise 0x224 [] else s) s)

end Sys2Proof.Machine
end

