-- ==== Sys2Proof/Machine/AssocOps.lean ====
section
/-! DEFINITION. Associations: contexts, leaps, counters, rotation switches, statistics (chapter 4). -/

namespace Sys2Proof.Machine

/-! ### Contexts (Table 4.1) -/

/-- Codes of Table 4.2. -/
def AssocStatus.code : AssocStatus → Nat
  | .free => 0 | .ready => 1 | .active => 2 | .shadow => 3 | .reserveWait => 4 | .exhausted => 5 | .keyLost => 6 | .retiring => 7

/-- The state a code of Table 4.2 names. -/
def AssocStatus.ofCode : Nat → AssocStatus
  | 0 => .free | 1 => .ready | 2 => .active | 3 => .shadow | 4 => .reserveWait | 5 => .exhausted | 6 => .keyLost | _ => .retiring

/-- An XPN suite. -/
def Assoc.xpn (a : Assoc) : Bool := a.suite == 2 || a.suite == 3
/-- The Facet suite. -/
def Assoc.facet (a : Assoc) : Bool := a.suite == 4

/-- The last counter value of Table 4.3. -/
def Assoc.lastValue (a : Assoc) : Nat := if a.facet then 2 ^ 48 - 1 else if a.xpn then 2 ^ 64 - 1 else 2 ^ 32 - 1

/-- NEXT as a number: past the last value once that is taken (R102, R108). -/
def Assoc.nextN (a : Assoc) : Nat := if a.spent && a.xpn then 2 ^ 64 else a.next.toNat

/-- Put a number into NEXT; past the last value the association has no value left. -/
def Assoc.setNext (a : Assoc) (v : Nat) : Assoc := { a with next := BitVec.ofNat 64 v, spent := decide (a.lastValue < v) }

/-- The logical port of an association, among the 128 (Table 4.1). -/
def Assoc.lp (a : Assoc) : Nat := 64 + 4 * a.port.toNat + a.sub.toNat

/-- The context image of Table 4.1 as one little-endian number. -/
def Assoc.image (a : Assoc) : Nat :=
  let ctl := a.status.code <<< 28 ||| a.suite.toNat <<< 24 ||| b2n a.recv <<< 23 ||| a.an.toNat <<< 21 ||| b2n a.group <<< 20 |||
    b2n a.phase <<< 19 ||| b2n a.hold <<< 17 ||| b2n a.current <<< 16 ||| a.port.toNat <<< 12 ||| a.sub.toNat <<< 10
  ctl ||| a.dkA.toNat <<< 0x20 ||| a.dkB.toNat <<< 0x40 ||| a.owner.toNat <<< 0x60 ||| a.unit.toNat <<< 0x70 |||
    a.sci.toNat <<< 0x80 ||| a.ssci.toNat <<< 0xC0 ||| a.xsalt.toNat <<< 0xE0 ||| a.next.toNat <<< 0x140 |||
    a.warn.toNat <<< 0x180 ||| a.ceiling.toNat <<< 0x1C0 ||| a.reserveLow.toNat <<< 0x200 ||| a.holdMs.toNat <<< 0x240 |||
    a.overlapMs.toNat <<< 0x250 ||| a.window.toNat <<< 0x260 ||| a.leap.toNat <<< 0x280 ||| a.switchPn.toNat <<< 0x2C0 |||
    a.switchTime.toNat <<< 0x300 ||| a.successor.toNat <<< 0x360

/-- Bits of the image that Table 4.1 assigns. -/
def imageMask : Nat :=
  0xFFFFFC00 ||| 0x1FFFF <<< 0x20 ||| 0x1FFFF <<< 0x40 ||| (2 ^ 0x1E0 - 1) <<< 0x60 ||| (2 ^ 0x60 - 1) <<< 0x240 |||
    (2 ^ 144 - 1) <<< 0x2C0 ||| 0x1FFFF <<< 0x360

/-- The context an image holds. -/
def Assoc.ofImage (v : Nat) : Assoc :=
  { Assoc.reset with
    status := AssocStatus.ofCode (bits v 28 4), suite := BitVec.ofNat 4 (bits v 24 4), recv := bitOf v 23
    an := BitVec.ofNat 2 (bits v 21 2), group := bitOf v 20, phase := bitOf v 19, hold := bits v 17 2 == 1, current := bitOf v 16
    port := BitVec.ofNat 4 (bits v 12 4), sub := BitVec.ofNat 2 (bits v 10 2), dkA := BitVec.ofNat 17 (bits v 0x20 17)
    dkB := BitVec.ofNat 17 (bits v 0x40 17), owner := BitVec.ofNat 16 (bits v 0x60 16), unit := BitVec.ofNat 16 (bits v 0x70 16)
    sci := BitVec.ofNat 64 (bits v 0x80 64), ssci := BitVec.ofNat 32 (bits v 0xC0 32), xsalt := BitVec.ofNat 96 (bits v 0xE0 96)
    next := BitVec.ofNat 64 (bits v 0x140 64), warn := BitVec.ofNat 64 (bits v 0x180 64)
    ceiling := BitVec.ofNat 64 (bits v 0x1C0 64), reserveLow := BitVec.ofNat 64 (bits v 0x200 64)
    holdMs := BitVec.ofNat 16 (bits v 0x240 16), overlapMs := BitVec.ofNat 16 (bits v 0x250 16)
    window := BitVec.ofNat 32 (bits v 0x260 32), leap := BitVec.ofNat 32 (bits v 0x280 32)
    switchPn := BitVec.ofNat 64 (bits v 0x2C0 64), switchTime := BitVec.ofNat 80 (bits v 0x300 80)
    successor := BitVec.ofNat 17 (bits v 0x360 17) }

/-! ### Ports and leaps (R94, R109) -/

/-- A logical port, client 0-63, line 64-127. -/
def State.lport (s : State) (lp : Nat) : LPort := tget LPort.reset s.ports.lports lp

/-- Replace a logical port. -/
def State.setLport (s : State) (lp : Nat) (x : LPort) : State :=
  { s with ports := { s.ports with lports := tput LPort.reset s.ports.lports lp x } }

/-- Bound rate in frames per second of a port mode (Table 4.5). -/
def boundRate : Nat → Nat
  | 0 => 595200000 | 1 => 297600000 | 2 => 148800000 | 3 => 297600000 | 4 => 148800000 | 5 => 148800000 | 6 => 1190400000
  | _ => 3243103

/-- LEAP of a transmit association (R109). -/
def State.leapOf (s : State) (a : Assoc) : Nat :=
  let b := match (s.lport a.lp).mode with
    | some m => boundRate m.toNat
    | none => if a.facet then boundRate 7 else boundRate 0
  2 * ((b * s.twin.effUs + 999999) / 1000000) + 4096

/-- Recompute LEAP for the transmit associations p picks; a SHADOW association keeps the LEAP that the copy carried (R109, R448). -/
def State.releap (s : State) (p : Assoc → Bool) : State :=
  { s with assoc := { s.assoc with ctx := s.assoc.ctx.map fun (e : Nat × Assoc) =>
      if !e.2.recv && e.2.status != .free && e.2.status != .shadow && p e.2 then (e.1, { e.2 with leap := BitVec.ofNat 32 (s.leapOf e.2) }) else e } }

/-- Number of non-FREE associations, A of R446. -/
def State.assocCount (s : State) : Nat := (s.assoc.ctx.filter fun e => e.2.status != .free).length

/-- Records per 10 us of a Chord width (Table 19.2). -/
def copyCapacity : Nat → Nat
  | 8 => 12500 | 4 => 6250 | 2 => 3125 | 1 => 1562 | 15 => 195 | _ => 0

/-- T_eff by R446; while no width is in force it stays (log entry 17). -/
def State.effNow (s : State) : Nat :=
  if s.twin.lease = .unconfigured ∨ s.twin.lease = .solo then s.twin.cycleUs
  else
    let c := copyCapacity s.twin.width
    if c = 0 then max s.twin.cycleUs s.twin.effUs else max s.twin.cycleUs (10 * ((s.assocCount + c - 1) / c))

/-- Recompute T_eff; a change raises 0x302 and recomputes every LEAP (R446). `widthChanged` also raises it. -/
def State.retime (s : State) (widthChanged : Bool) : State :=
  let e := s.effNow
  if e = s.twin.effUs ∧ ¬ widthChanged then s
  else
    let s := { s with twin := { s.twin with effUs := e } }
    (s.releap fun _ => true).raise 0x302 (BitVec.ofNat 8 s.twin.width :: le 2 e)

/-- A valid active lease is held (R110, R450). -/
def State.leaseValid (s : State) : Bool :=
  s.twin.lease == .solo || (s.twin.lease == .active && decide (s.clk < s.twin.leaseEnd))

/-- The twin ceiling of an association in force, the first value that may not be taken: the acknowledged NEXT plus LEAP - 4,096, with the
acknowledged LEAP while a higher one has not been acknowledged (R110, R448, R454). -/
def State.twinCeiling (s : State) (a : Assoc) : Option Nat :=
  if s.twin.lease ≠ .active ∨ s.twin.stale then none
  else match a.twinCeil with
    | some (n, l) => some (n + min l a.leap.toNat - 4096)
    | none => some a.nextN

/-! ### Counters (R102, R103, R108, R112, R256, R257) -/

/-- Enter RESERVE_WAIT at the ceiling (R102, R112, Table 4.2). -/
def State.atCeiling (s : State) (h : Nat) : State :=
  let a := s.sa h
  if (a.status = .active ∨ a.status = .ready) ∧ ¬ a.recv ∧ a.ceiling ≠ 0 ∧ a.ceiling.toNat ≤ a.nextN then
    (s.setSa h { a with status := .reserveWait }).raise 0x126 (le 4 h)
  else s

/-- What follows where the NEXT of a transmit association has moved, by whatever cause: 0x120 once WARN is reached, EXHAUSTED with 0x121
once the last value is passed, 0x125 once for a CEILING that lies nearer than RESERVE_LOW, RESERVE_WAIT with 0x126 at CEILING (R108, R111,
R112, log entry 159). -/
def State.nextMoved (s : State) (h : Nat) : State :=
  let a := s.sa h
  if a.recv ∨ a.status = .free then s
  else
    let warn := !a.warned && a.warn.toNat ≤ a.nextN
    let low := !a.lowWarned && a.ceiling != 0 && a.ceiling.toNat - a.nextN < a.reserveLow.toNat
    let out : Bool := a.spent && (a.status == .ready || a.status == .active || a.status == .reserveWait)
    let s := s.setSa h { a with
      warned := a.warned || warn, lowWarned := a.lowWarned || low, status := if out then .exhausted else a.status }
    let s := if warn then s.raise 0x120 (le 4 h) else s
    let s := if out then s.raise 0x121 (le 4 h) else s
    let s := if low then s.raise 0x125 (le 4 h) else s
    s.atCeiling h

/-- An association no longer is in a case of Table 4.7 that drops its frames: the passed HOLD_MS is forgotten, and the next case holds
again (R118). -/
def State.caseClear (s : State) (h : Nat) : State :=
  let a := s.sa h
  if a.status = .keyLost ∨ a.status = .exhausted ∨ a.status = .reserveWait then s
  else
    let n := h / 8192
    let u := tget PrismUnit.reset s.prism.units n
    { s with prism := { s.prism with units := tput PrismUnit.reset s.prism.units n { u with expired := u.expired.filter (· != h) } } }

/-- An active half of DK slot k is VALID. -/
def State.dkValid (s : State) (k : Nat) : Bool := (s.slot (slotKey 0 k)).active == .valid

/-- DK slot k carries the algorithm of a suite and the usage of a direction (R574). -/
def State.dkFits (s : State) (a : Assoc) (k : Nat) : Bool :=
  let x := (s.slot (slotKey 0 k)).shown
  x.alg == (if a.suite == 0 || a.suite == 2 then 0 else 2) && (if a.recv then x.dec else x.enc)

/-- A to-association of a MACsec entry may take over (R114, R116). -/
def State.mayBecomeCurrent (s : State) (fr dst : Assoc) : Bool :=
  !dst.recv && !dst.facet && dst.status == .ready && dst.lp == fr.lp && dst.sci == fr.sci && s.usable (slotKey 0 dst.dkA.toNat)

/-- The other key phase of a Facet association may take over (R114, R116). -/
def State.mayFlip (s : State) (a : Assoc) : Bool :=
  let k := if a.phase then a.dkA.toNat else a.dkB.toNat
  s.usable (slotKey 0 k) && s.dkFits a k

/-- Clear what an armed rotation wrote into a context. -/
def Assoc.disarm (a : Assoc) : Assoc := { a with switchPn := 0, switchTime := 0, successor := 0 }

/-- Switch one entry of a rotation (R115, R116). `pn` is the trigger value of a PN rotation. True when it switched. -/
def State.switchEntry (s : State) (fr dst : Nat) (pn : Option Nat) : Bool × State :=
  let a := s.sa fr
  let s := s.setSa fr a.disarm
  let a := s.sa fr
  if fr = dst then
    if a.facet ∧ s.mayFlip a then (true, s.setSa fr { a with phase := !a.phase, left := pn })
    else (false, s.raise 0x124 (le 4 fr))
  else if s.mayBecomeCurrent a (s.sa dst) then
    let wait := pn.isNone && a.status == .active && decide (0 < a.untaken)
    let s := s.setSa fr { a with
      current := false, left := pn, leaving := wait
      status := if a.status = .active ∧ ¬ wait then .ready else a.status
      before := if a.status = .keyLost then .ready else a.before }
    let s := s.setSa dst { s.sa dst with current := true, status := .active, left := none }
    (true, s.atCeiling dst)
  else (false, s.raise 0x124 (le 4 fr))

/-- An operation that captured an association takes a value or ends untaken (R258). -/
def State.untake (s : State) (h : Nat) : State :=
  let a := s.sa h
  let n := a.untaken - 1
  s.setSa h { a with untaken := n, leaving := a.leaving && decide (0 < n),
                     status := if a.leaving && n == 0 && a.status == .active then .ready else a.status }

/-- Note that entry fr of a rotation is settled in its partition; the last one of the partition raises 0x123 with the entries
switched there, if any (R116). -/
def State.settleEntry (s : State) (fr : Nat) (switched : Bool) : State :=
  match s.assoc.rots.find? fun r => r.armed && r.entries.any (·.1 == fr) with
  | none => s
  | some r =>
    let p := fr / 8192
    let r' := { r with
      entries := r.entries.filter (·.1 != fr)
      switched := tmod 0 r.switched p fun n => n + b2n switched }
    let rots := s.assoc.rots.map fun x => if x = r then r' else x
    let s := { s with assoc := { s.assoc with
      rots := rots, fired := if s.assoc.fired.contains r.name then s.assoc.fired else r.name :: s.assoc.fired } }
    if r'.entries.any (·.1 / 8192 == p) ∨ tget 0 r'.switched p = 0 then s
    else s.raise 0x123 (BitVec.ofNat 8 p :: le 2 (tget 0 r'.switched p))

/-- Drop rotations with no entry left. -/
def State.dropRotations (s : State) : State :=
  { s with assoc := { s.assoc with rots := s.assoc.rots.filter fun r => !(r.armed && r.entries.isEmpty) } }

/-- Switch every entry of a TIME rotation, and complete it (R115, R116). -/
def State.fireRotation (s : State) (r : Rotation) : State :=
  let (n, s) := r.entries.foldl (fun (n, s) e =>
    let (ok, s) := s.switchEntry e.1 e.2 none
    (n + b2n ok, s.settleEntry e.1 ok)) (0, s)
  let s := s.dropRotations
  match r.desc with
  | none => s
  | some d => s.complete d { status := if n = r.total then .ok else .partialDone, r0 := n, r1 := r.total - n }

/-- Every armed TIME rotation whose time has come switches (R115, R385). -/
def State.fireRotations (s : State) : State :=
  (s.assoc.rots.filter fun r => r.armed && (match r.trigger with | .time t => decide (t ≤ s.gnomon.time) | .pn _ => false)).foldl
    State.fireRotation s

/-- What PNTAKE answers (Table 10.6). -/
inductive PnResult where
  | value (v : Nat) | refused (reason : Nat)
  deriving DecidableEq, Repr

/-- The high-water value of a DK slot under its present generation (R103). -/
def State.highWater (s : State) (dk : Nat) : Option Nat :=
  match s.assoc.high.lookup dk with
  | some (g, v) => if g = (s.slot (slotKey 0 dk)).gen then some v else none
  | none => none

/-- The high-water value of a DK slot follows a value taken under generation g of it; a value taken under a generation that has been
replaced leaves the slot's high-water value as it is (R71, R103). -/
def State.noteTaken (s : State) (dk : Nat) (g : BitVec 32) (v : Nat) : State :=
  if g = (s.slot (slotKey 0 dk)).gen then
    { s with assoc := { s.assoc with high := tins s.assoc.high dk (g, max (v + 1) ((s.highWater dk).getD 0)) } }
  else s

/-- Take the next counter value of association h, whose operation captured key phase ph and generation g of DK slot dk (R102, R103, R108,
R110, R112, R256, R257). The order of the reasons: NO_LEASE, SWITCHED, EXHAUSTED, CEILING, TWIN_CEILING (log entry 18). -/
def State.pnTake (s : State) (h : Nat) (ph : Bool) (dk : Nat) (g : BitVec 32) : PnResult × State :=
  let a := s.sa h
  let v := a.nextN
  if s.twin.lease ≠ .handover ∧ ¬ s.leaseValid then (.refused 4, s)
  else if (match a.left with | some t => decide (t ≤ v) && (if a.facet then a.phase != ph else !a.current) | none => false) = true then
    (.refused 5, s)
  else if a.switchPn ≠ 0 ∧ a.switchPn.toNat ≤ v ∧ (s.switchEntry h a.successor.toNat (some a.switchPn.toNat)).1 then
    let (_, s) := s.switchEntry h a.successor.toNat (some a.switchPn.toNat)
    (.refused 5, (s.settleEntry h true).dropRotations)
  else
    let s := if a.switchPn ≠ 0 ∧ a.switchPn.toNat ≤ v then
        ((s.switchEntry h a.successor.toNat (some a.switchPn.toNat)).2.settleEntry h false).dropRotations
      else s
    let a := s.sa h
    if a.lastValue < v then (.refused 1, s)
    else if a.ceiling ≠ 0 ∧ a.ceiling.toNat ≤ v then (.refused 2, s)
    else if s.twin.lease = .handover ∨ (match s.twinCeiling a with | some c => decide (c ≤ v) | none => false) = true then
      if a.twinHeld then (.refused 3, s)
      else
        let s := s.setSa h { a with twinHeld := true }
        let s := if s.twin.holdSince.isSome then s else { s with twin := { s.twin with holdSince := some s.clk } }
        (.refused 3, s.raise 0x128 (le 4 h))
    else (.value v, ((s.setSa h { a.setNext (v + 1) with twinHeld := false }).noteTaken dk g v).nextMoved h)

/-! ### Statistics (R120, R121) -/

/-- Address of an association's counter block. -/
def State.statsAddr (s : State) (h : Nat) : Nat :=
  4096 * (s.regN 0x01800100 / 4096) + 2 ^ 32 * (s.regN 0x01800104 % 256) + 64 * h

/-- Fold the deltas of association h into HBM and clear them; true where Hull refused, and the deltas stay (R121). -/
def State.fold (s : State) (h : Nat) : Bool × State :=
  let a := s.sa h
  let adr := s.statsAddr h
  let old := s.mem.get adr 64
  let new := (List.range 8).flatMap fun i => le 8 (leAt old (8 * i) 8 + (tget 0 a.delta i).toNat)
  match s.writeMem .annulus 0 adr new with
  | (true, s) => (false, s.setSa h { s.sa h with delta := [] })
  | (false, s) => (true, s.raise 0x12C (le 4 h))

/-- Add n to statistic i of association h (R120): a delta folds from 2^30 on and saturates at 2^32 - 1. -/
def State.stat (s : State) (h i n : Nat) : State :=
  let a := s.sa h
  if a.status = .free then s
  else
    let v := (tget 0 a.delta i).toNat
    let w := min (2 ^ 32 - 1) (v + n)
    let s := s.setSa h { a with delta := tput 0 a.delta i (BitVec.ofNat 32 w) }
    let s := if w = 2 ^ 32 - 1 ∧ v < w then s.raise 0x129 (le 4 h) else s
    if 2 ^ 30 ≤ w then (s.fold h).2 else s

/-! ### Receive overlap (R117) -/

/-- The first verified frame of a MACsec receive association starts the overlap hold of the others of its channel (R117). -/
def State.rxVerified (s : State) (h : Nat) : State :=
  let a := s.sa h
  if a.verified then s
  else
    let s := s.setSa h { a with verified := true }
    { s with assoc := { s.assoc with ctx := s.assoc.ctx.map fun (e : Nat × Assoc) =>
        if e.1 ≠ h ∧ e.2.recv ∧ e.2.status = .active ∧ e.2.lp = a.lp ∧ e.2.sci = a.sci ∧ e.2.overlapMs ≠ 0 ∧
            e.2.overlapDue = none then
          (e.1, { e.2 with overlapDue := some (s.clk + 1000000 * e.2.overlapMs.toNat) })
        else e } }

/-! ### Context locks (R100, R254) -/

/-- The owner that holds the lock of a context, while its lease runs. -/
def State.lockOwner (s : State) (h : Nat) : Option Nat :=
  match s.assoc.locks.lookup h with
  | some (o, t) => if s.clk < t then some o else none
  | none => none

/-- Take the lock of a context for an owner, for 10 us (R100). -/
def State.takeLock (s : State) (h owner : Nat) : State :=
  { s with assoc := { s.assoc with locks := tins s.assoc.locks h (owner, s.clk + 10000) } }

/-- Release the lock of a context that an owner holds. -/
def State.freeLock (s : State) (h owner : Nat) : State :=
  match s.assoc.locks.lookup h with
  | some (o, _) => if o = owner then { s with assoc := { s.assoc with locks := tdel s.assoc.locks h } } else s
  | none => s

end Sys2Proof.Machine
end

