-- ==== Sys2Proof/Machine/Operands.lean ====
section
/-! DEFINITION. The operand forms of the Vertex instruction set: the fields of an instruction word, what its register fields name, which
encodings are reserved, what an instruction reads and writes, and which pair (R239 to R247, Tables 10.1 to 10.4). -/

namespace Sys2Proof.Machine

/-- The fields of an instruction word (Table 10.1). -/
structure Ins where
  op : Nat
  d : Nat
  a : Nat
  b : Nat
  guard : Nat
  inv : Bool
  ext : Nat
  deriving DecidableEq, Repr

/-- Decode the fields of a word. -/
def Ins.of (w : BitVec 64) : Ins :=
  let n := w.toNat
  { op := bits n 56 8, d := bits n 51 5, a := bits n 46 5, b := bits n 41 5, guard := bits n 38 3, inv := bitOf n 37, ext := bits n 0 37 }

/-- What a register field names (R240). -/
inductive OpKind where
  | none | g | b | p | sel
  deriving DecidableEq, Repr

/-- Kinds of the destination, source 1 and source 2 fields of an opcode; none for a reserved opcode (Table 10.4). -/
def operands (op : Nat) : Option (OpKind × OpKind × OpKind) :=
  if op = 0x00 then some (.none, .none, .none)
  else if op ≤ 0x0C then some (.g, .g, .g)
  else if op = 0x11 ∨ (0x13 ≤ op ∧ op ≤ 0x15) ∨ (0x17 ≤ op ∧ op ≤ 0x1A) then some (.g, .g, .none)
  else if op = 0x1E ∨ op = 0x1F then some (.g, .none, .none)
  else if 0x20 ≤ op ∧ op ≤ 0x24 then some (.g, .g, .none)
  else if op = 0x28 then some (.b, .g, .g)
  else if op = 0x29 then some (.g, .b, .none)
  else if op = 0x2A then some (.b, .b, .b)
  else if op = 0x2B then some (.g, .sel, .none)
  else if 0x30 ≤ op ∧ op ≤ 0x35 then some (.p, .g, .g)
  else if 0x38 ≤ op ∧ op ≤ 0x3D then some (.p, .g, .none)
  else if op = 0x40 ∨ op = 0x50 ∨ op = 0x60 then some (.g, .g, .none)
  else if op = 0x41 ∨ op = 0x51 ∨ op = 0x61 then some (.none, .g, .g)
  else if op = 0x42 ∨ op = 0x52 ∨ op = 0x62 then some (.b, .g, .none)
  else if op = 0x43 ∨ op = 0x53 ∨ op = 0x63 then some (.none, .g, .b)
  else if op = 0x5F then some (.none, .none, .none)
  else if op = 0x70 then some (.g, .g, .g)
  else if op = 0x71 ∨ op = 0x72 then some (.g, .none, .none)
  else if op = 0x73 then some (.none, .none, .g)
  else if 0x80 ≤ op ∧ op ≤ 0x84 then some (.none, .b, .g)
  else if op = 0x85 then some (.p, .b, .g)
  else if op = 0x90 ∨ op = 0x91 then some (.g, .g, .g)
  else if op = 0xA1 ∨ op = 0xB8 then some (.none, .g, .none)
  else if op = 0xA0 ∨ (0xA2 ≤ op ∧ op ≤ 0xA6) ∨ (0xB1 ≤ op ∧ op ≤ 0xB3) then some (.none, .none, .none)
  else if op = 0xB0 then some (.g, .g, .g)
  else none

/-- A register field lies in its range (Table 10.2, R240). -/
def OpKind.ok : OpKind → Nat → Bool
  | .none, v => v == 0
  | .g, _ => true
  | .b, v => v < 16
  | .p, v => v < 8
  | .sel, v => v < 2

/-- Reserved extension values of an opcode in a cluster (R239, R246, R247, R251, R253, R255, R261, R264, R265, R297): bits that no row assigns are
not looked at (log entry 62). -/
def extOk (c : Nat) (i : Ins) : Bool :=
  let x := i.ext
  if i.op = 0x20 ∨ i.op = 0x21 then 1 ≤ bits x 6 7 && bits x 0 6 + bits x 6 7 ≤ 64
  else if (0x30 ≤ i.op ∧ i.op ≤ 0x35) ∨ (0x38 ≤ i.op ∧ i.op ≤ 0x3D) then bits x 35 2 != 3
  else if i.op = 0x40 ∨ i.op = 0x41 then bits x 33 3 < 4
  else if i.op = 0x50 ∨ i.op = 0x51 then bits x 33 3 < 4 && !bitOf x 36
  else if i.op = 0x52 ∨ i.op = 0x53 then !bitOf x 36
  else if i.op = 0x60 ∨ i.op = 0x61 then bits x 16 3 < 4
  else if 0x70 ≤ i.op ∧ i.op ≤ 0x73 then c < 16 && (i.op != 0x72 || bits x 0 8 % 8 == 0)
  else if i.op = 0xA4 then bits x 0 4 ≤ 8
  else if i.op = 0xB0 then if c = 16 then bits x 1 2 < 2 && i.b == 0 else bits x 1 3 < 4
  else if i.op = 0xB1 then bits x 0 4 < 8
  else true

/-- The encoding is legal (R239). -/
def Ins.legal (c : Nat) (i : Ins) : Bool :=
  match operands i.op with
  | none => false
  | some (kd, ka, kb) => kd.ok i.d && ka.ok i.a && kb.ok i.b && extOk c i

/-- The register a field names. -/
def OpKind.reg : OpKind → Nat → List VReg
  | .g, n => if n = 0 then [] else [.g n]
  | .b, n => [.b n]
  | .p, n => if n = 0 then [] else [.p n]
  | _, _ => []

/-- Predicate pK of SALOAD, PNTAKE and CAS: ext [36:34]. -/
def Ins.pk (i : Ins) : Nat := bits i.ext 34 3

/-- The destination field is read: MOVHI, INS, a compare that combines, CAS, EMIT. -/
def Ins.readsD (i : Ins) : Bool :=
  i.op == 0x1F || i.op == 0x21 || (0x30 ≤ i.op && i.op ≤ 0x3D && bits i.ext 35 2 != 0) || i.op == 0x90 || i.op == 0xB0

/-- Registers an instruction reads, its guard among them (R243, R245). -/
def Ins.reads (i : Ins) : List VReg :=
  match operands i.op with
  | none => []
  | some (kd, ka, kb) => OpKind.p.reg i.guard ++ ka.reg i.a ++ kb.reg i.b ++ (if i.readsD then kd.reg i.d else [])

/-- Registers an instruction writes. -/
def Ins.writes (i : Ins) : List VReg :=
  match operands i.op with
  | none => []
  | some (kd, _, _) => (if i.op = 0xB0 then [] else kd.reg i.d) ++ (if i.op = 0x70 ∨ i.op = 0x71 ∨ i.op = 0x90 then OpKind.p.reg i.pk else [])

/-- Unit classes (Table 10.4). -/
inductive UnitClass where
  | a | m | x | c | s
  deriving DecidableEq, Repr

/-- The class of an opcode. -/
def unitClass (op : Nat) : UnitClass :=
  if op < 0x40 then .a
  else if op = 0x5F ∨ op = 0x70 ∨ op = 0x71 then .s
  else if op < 0x80 ∨ op = 0x90 ∨ op = 0x91 then .m
  else if op < 0x90 then .x
  else if op < 0xA4 then .c
  else .s

/-- Instructions i and j, next after it, may issue together (R244, Table 10.3), the half of instruction memory apart. -/
def pairs (i j : Ins) : Bool :=
  let ci := unitClass i.op
  let cj := unitClass j.op
  let mul := fun (n : Nat) => n == 0x0B || n == 0x0C
  ci != .s && cj != .s && ci != .c && !(ci == .m && cj == .m) && !(ci == .x && cj == .x) && !(mul i.op && mul j.op) &&
    !(j.reads.any i.writes.contains) && !(j.writes.any i.writes.contains)

/-- A signed 32-bit offset added to a base, modulo 2^64 (R247). -/
def addOff (base : BitVec 64) (off : Nat) : Nat := (base + (BitVec.ofNat 32 off).signExtend 64).toNat

/-- Bytes of an access by its size field: 1, 2, 4, 8 (R247, R251). -/
def accessSize (code : Nat) : Nat := 2 ^ code

/-- The address of a local, scratch, HBM or DDR access of n bytes: the low bits are cleared to the access size (R247). -/
def Ins.address (i : Ins) (base : BitVec 64) (n : Nat) : Nat := addOff base (bits i.ext 0 32) / n * n

/-- The sign-extended 37-bit immediate (Table 10.4). -/
def Ins.imm37 (i : Ins) : BitVec 64 := (BitVec.ofNat 37 i.ext).signExtend 64

/-- The sign-extended 35-bit immediate of a compare (Table 10.4). -/
def Ins.imm35 (i : Ins) : BitVec 64 := (BitVec.ofNat 35 i.ext).signExtend 64

/-- Bits [pos+len-1:pos] of a register (EXT). -/
def extractBits (v : BitVec 64) (pos len : Nat) : BitVec 64 := BitVec.ofNat 64 (bits v.toNat pos len)

/-- Bits [pos+len-1:pos] of a register replaced by the low bits of another (INS). -/
def insertBits (old v : BitVec 64) (pos len : Nat) : BitVec 64 :=
  let m := BitVec.ofNat 64 ((2 ^ len - 1) * 2 ^ pos)
  (old &&& ~~~m) ||| ((v <<< pos) &&& m)

/-- Number of ones (POPC). -/
def ones (v : BitVec 64) : Nat := ((List.range 64).filter v.getLsbD).length

/-- Leading zeros; 64 for 0 (CLZ). -/
def leadingZeros (v : BitVec 64) : Nat :=
  match (List.range 64).find? fun i => v.getLsbD (63 - i) with
  | some i => i
  | none => 64

/-- Byte reversal (BSWAP). -/
def byteSwap (v : BitVec 64) : BitVec 64 := BitVec.ofNat 64 (beNat (le 8 v.toNat))

/-- The two-operand ALU operations by the low four bits of their opcode (Table 10.4); shift and rotate amounts use bits [5:0] (R242). -/
def alu (code : Nat) (a b : BitVec 64) : BitVec 64 :=
  let n := b.toNat % 64
  match code with
  | 0x1 => a + b
  | 0x2 => a - b
  | 0x3 => a &&& b
  | 0x4 => a ||| b
  | 0x5 => a ^^^ b
  | 0x6 => a &&& ~~~b
  | 0x7 => a <<< n
  | 0x8 => a >>> n
  | 0x9 => a.sshiftRight n
  | 0xA => a.rotateLeft n
  | _ => 0

end Sys2Proof.Machine
end

