-- ==== Sys2Proof/Machine/TessOps.lean ====
section
/-! DEFINITION. Tessera: pools, owners, allocation, copies, holders and checked frees (chapter 14). -/

namespace Sys2Proof.Machine

/-- A frame Locus is given. -/
def TFrame.arrived (lp : Nat) (bytes : List Byte) (fcs : Option (BitVec 32)) (keep : BitVec 16) (stamp : Nat) (unctl : Bool) (sa : Option Nat) : TFrame :=
  { id := 0, bytes := bytes, fcs := fcs, keep := keep, cells := [], pool := 0, charge := lp, refs := [], lp := lp, stamp := stamp, unctl := unctl, sa := sa, cut := false }

/-- Set bits of a held register (a W1C flag that sets). -/
def State.orReg (s : State) (off mask : Nat) : State := s.setReg off (s.reg off ||| BitVec.ofNat 32 mask)

/-- Replace the Tessera state. -/
def State.withTess (s : State) (t : TessState) : State := { s with tess := t }

/-- TESSERA_POOL_p (Table 14.6). -/
def State.poolReg (s : State) (p : Nat) : Nat := s.regN (0x00800010 + 4 * p)
/-- A pool is enabled. -/
def poolOn (v : Nat) : Bool := bitOf v 31
/-- First cell of a pool. -/
def poolBase (v : Nat) : Nat := bits v 0 12 * 256
/-- Cells of a pool. -/
def poolCells (v : Nat) : Nat := bits v 12 12 * 256

/-- The enabled pool that contains a cell (R347). -/
def State.cellPool (s : State) (c : Nat) : Option Nat :=
  (List.range 4).find? fun p => let v := s.poolReg p; poolOn v && poolBase v ≤ c && c < poolBase v + poolCells v

/-- TESSERA_OWNER_o_MIN (Table 14.8). -/
def State.ownerMinReg (s : State) (o : Nat) : Nat := s.regN (0x00801000 + 16 * o)
/-- TESSERA_OWNER_o_MAX.MAX (Table 14.9). -/
def State.ownerMax (s : State) (o : Nat) : Nat := s.regN (0x00801004 + 16 * o) % 2 ^ 20
/-- Pool of an owner. -/
def minPool (v : Nat) : Nat := bits v 30 2
/-- MIN of an owner. -/
def minCells (v : Nat) : Nat := v % 2 ^ 20

/-- Cells charged to an owner (R342). -/
def State.tessUsed (s : State) (o : Nat) : Nat :=
  s.tess.frames.foldl (fun n f => if f.charge = o then n + f.cells.length else n) 0

/-- Allocated cells of a pool. -/
def State.poolUsed (s : State) (p : Nat) : Nat :=
  s.tess.frames.foldl (fun n f => if f.pool = p then n + f.cells.length else n) 0

/-- Free cells F of a pool (R343); 0 for a disabled pool. -/
def State.poolFree (s : State) (p : Nat) : Nat :=
  if poolOn (s.poolReg p) then poolCells (s.poolReg p) - s.poolUsed p else 0

/-- The owners with a listed MIN register: owner and register. -/
def State.minOwners (s : State) : List (Nat × Nat) :=
  (s.regs.filter fun e => 0x00801000 ≤ e.1 && e.1 < 0x00802000 && e.1 % 16 == 0).map fun e => ((e.1 - 0x00801000) / 16, e.2.toNat)

/-- Outstanding reserve R of a pool while owner o holds `extra` cells beyond the frames listed (R343). -/
def State.poolReserve (s : State) (p o extra : Nat) : Nat :=
  s.minOwners.foldl (fun n e =>
    if minPool e.2 = p then n + (minCells e.2 - (s.tessUsed e.1 + if e.1 = o then extra else 0)) else n) 0

/-- Owner o may take one more cell of pool p, with `extra` cells of the present frame taken (R343). -/
def State.mayTake (s : State) (p o extra : Nat) : Bool :=
  let used := s.tessUsed o + extra
  let free := s.poolFree p - extra
  0 < free && (used < minCells (s.ownerMinReg o) || (used < s.ownerMax o && s.poolReserve p o extra < free))

/-- Insert into a rising list. -/
def insertNat (n : Nat) : List Nat → List Nat
  | [] => [n]
  | m :: ms => if n ≤ m then n :: m :: ms else m :: insertNat n ms

/-- The k-th natural number that a rising list does not hold. -/
def skipUsed (used : List Nat) (k : Nat) : Nat := used.foldl (fun k u => if u ≤ k then k + 1 else k) k

/-- Words of bank b of pool p that are allocated, from the pool's first word, rising. -/
def State.bankUsed (s : State) (p b : Nat) (taken : List Nat) : List Nat :=
  let cells := s.tess.frames.foldl (fun cs f => if f.pool = p then f.cells ++ cs else cs) taken
  (cells.filter (· % 64 == b)).foldl (fun ws c => insertNat ((c - poolBase (s.poolReg p)) / 64) ws) []

/-- The banks of a pool in the order in which the next cell looks at them (R338). -/
def State.bankOrder (s : State) (p : Nat) : List Nat :=
  (List.range 64).map fun i => ((tget (63 : Fin 64) s.tess.lastBank p).val + 1 + i) % 64

/-- A bank's list serves an allocation: it is not stopped (R350) and holds a cell. -/
def State.bankServes (s : State) (p : Nat) (taken : List Nat) (b : Nat) : Bool :=
  !s.tess.broken.contains (p, b) && decide ((s.bankUsed p b taken).length < poolCells (s.poolReg p) / 64)

/-- The head of a bank's free list, given the free value r that orders the cells not allocated since the build, and the cells freed since
the build that stay (R338, log entry 131). -/
def State.listHead (s : State) (p : Nat) (taken : List Nat) (b r : Nat) : Nat × List Nat :=
  match tget [] s.tess.lists (64 * p + b) with
  | c :: cs => (c, cs)
  | [] =>
    let used := s.bankUsed p b taken
    (poolBase (s.poolReg p) + 64 * skipUsed used (r % (poolCells (s.poolReg p) / 64 - used.length)) + b, [])

/-- Take the head of the free list of the next bank that serves (R338). The list stops where the link that follows is uncorrectable, which
is free (R350, log entry 131); writing the cell's metadata restores it. -/
def State.nextCell (s : State) (p : Nat) (taken : List Nat) : Option Nat × State :=
  match (s.bankOrder p).find? (s.bankServes p taken) with
  | none => (none, s)
  | some b =>
    let (r, s) := s.draw 33
    let (c, rest) := s.listHead p taken b (r % 2 ^ 32)
    (some c, s.withTess { s.tess with
      lastBank := tput 63 s.tess.lastBank p (Fin.ofNat 64 b)
      lists := tput [] s.tess.lists (64 * p + b) rest
      broken := if r / 2 ^ 32 = 1 then (p, b) :: s.tess.broken else s.tess.broken
      corrupt := s.tess.corrupt.filter (·.1 != c) })

/-- Cells return to their banks' free lists, whose heads they become (R345, R347, log entry 131). -/
def State.listCells (s : State) (p : Nat) (cells : List Nat) : State :=
  s.withTess { s.tess with lists := cells.foldl (fun t c => tput [] t (64 * p + c % 64) (c :: tget [] t (64 * p + c % 64))) s.tess.lists }

/-- Take n cells one at a time; a refused cell gives back those taken before it (R343). -/
def State.takeCells (p o : Nat) : Nat → List Nat → State → Option (List Nat) × State
  | 0, taken, s => (some taken, s)
  | n + 1, taken, s =>
    if !s.mayTake p o taken.length then (none, s.listCells p taken)
    else match s.nextCell p taken with
      | (none, s) => (none, s.listCells p taken)
      | (some c, s) => State.takeCells p o n (taken ++ [c]) s

/-- Cells of a frame of n bytes without FCS: its length under R8 includes the FCS. -/
def cellsOf (n : Nat) : Nat := (n + 4 + 255) / 256

/-- Allocate a frame for owner o, or NO_BUFFER (R343, R345). An allocation from a pool whose lists are being built waits for the end
of the build (R339). -/
def State.allocFrame (s : State) (o : Nat) (f : TFrame) : Option Nat × State :=
  let p := minPool (s.ownerMinReg o)
  let none' := fun (s : State) => ((none : Option Nat), s.count (cid 0x08 0 o))
  if !poolOn (s.poolReg p) then none' s
  else
    let s := s.withTess { s.tess with building := s.tess.building.filter (· != p) }
    match State.takeCells p o (cellsOf f.bytes.length) [] s with
    | (none, s) => none' s
    | (some cs, s) =>
      let id := s.tess.nextId
      let f := { f with id := id, cells := cs, pool := p, charge := o, refs := [some o] }
      (some id, s.withTess { s.tess with frames := s.tess.frames ++ [f], nextId := id + 1 })

/-- The frame of a name. -/
def State.frame (s : State) (id : Nat) : Option TFrame := s.tess.frames.find? (·.id == id)

/-- Change the frame of a name. -/
def State.modFrame (s : State) (id : Nat) (g : TFrame → TFrame) : State :=
  s.withTess { s.tess with frames := s.tess.frames.map fun (f : TFrame) => if f.id = id then g f else f }

/-- Replace the first reference of one holder by another. -/
def moveRef (a b : Option Nat) : List (Option Nat) → List (Option Nat)
  | [] => []
  | r :: rs => if r = a then b :: rs else r :: moveRef a b rs

/-- The holder of one reference changes; the charge stays (R342). -/
def State.holdFrame (s : State) (id : Nat) (a b : Option Nat) : State :=
  s.modFrame id fun f => { f with refs := moveRef a b f.refs }

/-- One more copy of a frame, held as the reference named, or none at count 127 (R345). -/
def State.copyFrame (s : State) (id : Nat) (r : Option Nat) : Bool × State :=
  match s.frame id with
  | none => (false, s)
  | some f =>
    if f.refs.length < 127 then (true, s.modFrame id fun f => { f with refs := f.refs ++ [r] })
    else (false, (s.count (cid 0x08 1 f.charge)).raiseOnce 0x086 0 [BitVec.ofNat 8 f.charge])

/-- Count and report a refused free of `item`, a cell or a pointer (R347). -/
def State.refuseFree (s : State) (o : Nat) (e : FreeErr) (cell item : Nat) : State :=
  let (bit, num, ev) := match e with
    | .double => (28, 2, 0x080)
    | .foreign => (29, 3, 0x081)
    | .badPtr => (30, 4, 0x082)
  let s := (s.orReg 0x00800000 (2 ^ bit)).count (cid 0x08 num o)
  (s.withTess { s.tess with errOwner := o, errCell := cell % 2 ^ 19 }).raise ev (le 2 (0x2000 + o) ++ le 4 item)

/-- The check of a free of a frame's cells by an owner, or by Sector for none (Table 14.3). -/
def TFrame.freeOk (f : TFrame) (o : Option Nat) : Bool :=
  match f.refs with
  | [r] => r == o
  | _ => match o with
    | none => true
    | some o => (128 ≤ o && o ≤ 159) || o == 224 || o == 225

/-- One reference goes: the freer's own where it has one. -/
def dropRef (o : Option Nat) (rs : List (Option Nat)) : List (Option Nat) :=
  if rs.contains o then rs.erase o else rs.drop 1

/-- The rest of a chain whose walk a check has stopped at a corrupt cell: it stays in its state under its holder and counts as stranded
(R348). -/
def State.strand (s : State) (owner : Nat) (f : TFrame) (rest : List Nat) : State :=
  match rest with
  | [] => s
  | c :: _ =>
    let holder := (f.refs.head?.join).getD f.charge
    let s := s.refuseFree owner ((s.tess.corrupt.lookup c).getD .foreign) c c
    let s := s.withTess { s.tess with frames := s.tess.frames ++ [{ f with id := s.tess.nextId, cells := rest }], nextId := s.tess.nextId + 1 }
    (s.countN (cid 0x08 5 holder) rest.length).raise 0x087 [BitVec.ofNat 8 holder, BitVec.ofNat 8 rest.length]

/-- Free the chain from a cell through a pointer (R346, R347): a pointer into the middle of a chain frees its tail. The walk stops at a
later cell whose metadata is corrupt (R348). -/
def State.freePtr (s : State) (o : Option Nat) (ptr : Nat) : State :=
  let c := bits ptr 8 19
  let owner := o.getD 0
  if bits ptr 27 5 ≠ 0 ∨ bits ptr 0 8 ≠ 0 ∨ s.cellPool c = none then s.refuseFree owner .badPtr c ptr
  else match s.tess.frames.find? (·.cells.contains c) with
    | none => s.refuseFree owner .double c c
    | some f => match s.tess.corrupt.lookup c with
      | some e => s.refuseFree (o.getD f.charge) e c c
      | none =>
        if !f.freeOk o then s.refuseFree (o.getD f.charge) .foreign c c
        else
          let refs := dropRef o f.refs
          let keep := f.cells.takeWhile (· != c)
          let chain := f.cells.drop keep.length
          let walked := chain.takeWhile fun c => (s.tess.corrupt.lookup c).isNone
          let t := if refs ≠ [] then s.modFrame f.id fun f => { f with refs := refs, cells := keep ++ walked }
            else if keep ≠ [] then (s.modFrame f.id fun f => { f with cells := keep }).listCells f.pool walked
            else (s.withTess { s.tess with frames := s.tess.frames.filter (·.id != f.id) }).listCells f.pool walked
          t.strand (o.getD f.charge) f (chain.drop walked.length)

/-- The holder of a frame frees it through the pointer of its first cell (R346); a frame that RECLAIM has released is freed through the
pointer that its consumer still has (Table 14.4). -/
def State.freeFrame (s : State) (o : Option Nat) (id : Nat) : State :=
  match s.frame id with
  | some f => s.freePtr o (f.cells.headD 0 * 256)
  | none => match s.tess.released.find? (·.1 == id) with
    | some e => (s.withTess { s.tess with released := s.tess.released.erase e }).freePtr o (e.2 * 256)
    | none => s

/-- The bytes of a frame as its reader gets them (R337, R349): the SEC-DED check covers 256 bits at a time, so an uncorrectable error is
passed with the data and leaves the 32 bytes of one word of one cell free, and which word is free (log entry 86). -/
def State.readFrame (s : State) (id : Nat) (e : Ecc) (bytes : List Byte) : List Byte × State :=
  match e with
  | .clean => (bytes, s)
  | .corrected => (bytes, s.count (cid 0x08 6 0))
  | .uncorrectable =>
    let cells := ((s.frame id).map (·.cells)).getD []
    let (r, s) := s.draw 10
    let (v, s) := s.draw 256
    let k := r % (8 * cells.length)
    let s := (s.count (cid 0x08 7 0)).raise 0x083 (le 4 (cells.getD (k / 8) 0))
    (patch bytes (32 * k) ((le 32 v).take (bytes.length - 32 * k)), s)

/-- The sum of MIN over the owners of pool p, with owner o's register read as v (R339). -/
def State.minSum (s : State) (p o v : Nat) : Nat :=
  (s.minOwners.foldl (fun n e => if e.1 ≠ o ∧ minPool e.2 = p then n + minCells e.2 else n) 0) +
    if minPool v = p then minCells v else 0

/-- A write that R339 ignores. -/
def State.refuseTess (s : State) : State := (s.orReg 0x00800000 (2 ^ 31)).raise 0x085 []

/-- A write to TESSERA_POOL_p (R339). -/
def State.writePool (s : State) (p v : Nat) : State :=
  let v := v &&& 0x80FFFFFF
  let others := (List.range 4).filter (· != p)
  let clash := others.any fun q => let w := s.poolReg q
    poolOn w && poolBase v < poolBase w + poolCells w && poolBase w < poolBase v + poolCells v
  if 0 < s.poolUsed p then s.refuseTess
  else if poolOn v ∧ (clash ∨ poolCells v = 0 ∨ 524288 < poolBase v + poolCells v) then s.refuseTess
  else if poolCells v < s.minSum p 256 (2 ^ 30 * ((p + 1) % 4)) then s.refuseTess
  else
    let s := s.setReg (0x00800010 + 4 * p) (BitVec.ofNat 32 v)
    let rest := s.tess.building.filter (· != p)
    s.withTess { s.tess with
      building := if poolOn v then rest ++ [p] else rest
      lists := s.tess.lists.filter (·.1 / 64 != p)
      broken := s.tess.broken.filter (·.1 != p)
      corrupt := s.tess.corrupt.filter fun e => s.cellPool e.1 != some p }

/-- A write to TESSERA_OWNER_o_MIN (R339): a POOL change concerns the owner's old pool and its new one. -/
def State.writeOwnerMin (s : State) (o v : Nat) : State :=
  let v := v &&& 0xC00FFFFF
  let old := minPool (s.ownerMinReg o)
  let p := minPool v
  if old ≠ p ∧ (0 < s.poolUsed old ∨ 0 < s.poolUsed p) then s.refuseTess
  else if poolCells (s.poolReg p) < s.minSum p o v then s.refuseTess
  else s.setReg (0x00801000 + 16 * o) (BitVec.ofNat 32 v)

/-- A write to TESSERA_OWNER_o_MAX (Table 14.9). -/
def State.writeOwnerMax (s : State) (o v : Nat) : State :=
  s.setReg (0x00801004 + 16 * o) (BitVec.ofNat 32 (min 524288 (v % 2 ^ 20)))

/-- RECLAIM: free every HELD, unshared cell whose holder is o, and count them (R351). -/
def State.reclaimCells (s : State) (o : Nat) : Nat × State :=
  let mine := s.tess.frames.filter (·.refs == [some o])
  let n := mine.foldl (fun n f => n + f.cells.length) 0
  let cells := mine.flatMap (·.cells)
  let s := s.withTess { s.tess with
    frames := s.tess.frames.filter (·.refs != [some o])
    released := s.tess.released ++ mine.map fun (f : TFrame) => (f.id, f.cells.headD 0)
    corrupt := s.tess.corrupt.filter fun e => !cells.contains e.1 }
  (n, mine.foldl (fun s f => s.listCells f.pool f.cells) s)

end Sys2Proof.Machine
end

