-- ==== Sys2Proof/Machine/AnnulusOps.lean ====
section
/-! DEFINITION. Annulus queues: configuration, fullness, entries and their counts (chapter 14). -/

namespace Sys2Proof.Machine

/-- Queue q. -/
def State.aq (s : State) (q : Nat) : AQueue := tget AQueue.reset s.annulus.queues q

/-- Replace queue q. -/
def State.setAq (s : State) (q : Nat) (x : AQueue) : State :=
  { s with annulus := { s.annulus with queues := tput AQueue.reset s.annulus.queues q x } }

/-- Entry size in bytes (R352). -/
def AQueue.entry (x : AQueue) : Nat := 16 * 2 ^ x.size

/-- The first entry after the counted ones that carries poison, as a number of its write (R357). -/
def AQueue.bad (x : AQueue) : Option Nat :=
  let mine := x.poisoned.filterMap fun w => if x.ping then (if w / 2 ^ 32 = b2n x.bank then some (w % 2 ^ 32) else none) else some w
  mine.foldl (fun m w => match m with
    | none => some w
    | some v => some (min v w)) none

/-- ANNULUS_Q_COUNT.COUNT (R356, R357). -/
def AQueue.count (x : AQueue) : Nat :=
  match x.bad with
  | some w => w - x.released
  | none => (if x.ping then x.drain else x.written) - x.released

/-- Slots that entries not yet released or accepted take, of the slots a producer may fill (R354, R355). -/
def AQueue.used (x : AQueue) : Nat := if x.ping then x.written + x.tail.length else x.written + x.tail.length - x.released

/-- Slots a producer may fill. -/
def AQueue.slots (x : AQueue) : Nat := if x.ping then x.cap / 2 else x.cap

/-- The queue is full (R355, R358): a spill queue has no free slot; a ping-pong queue's fill bank has none and its drain bank is not
wholly released. -/
def AQueue.full (x : AQueue) : Bool := x.slots ≤ x.used && (!x.ping || x.released < x.drain || x.slots = 0)

/-- An item of n entries fits the slots a producer may fill and the on-die tail (R354, R355). -/
def AQueue.fits (x : AQueue) (n : Nat) : Bool := x.used + n ≤ x.slots && x.tail.length + n ≤ 64

/-- The queue accepts entries. -/
def AQueue.open_ (x : AQueue) : Bool := x.enabled && !x.stopped

/-- Append one item. -/
def State.annPut (s : State) (q : Nat) (entries : List (List Byte)) : State :=
  let x := s.aq q
  let es := entries.zipIdx.map fun (e : List Byte × Nat) => (e.2 == 0, e.1)
  s.setAq q { x with tail := x.tail ++ es }

/-- A case that ANNULUS_STATUS records (Table 14.12). -/
def State.annStatus (s : State) (q bit ev : Nat) : State :=
  let s := s.orReg 0x00400000 (2 ^ bit)
  ({ s with annulus := { s.annulus with queue := q } }).raise ev [BitVec.ofNat 8 q]

/-- Offset of ANNULUS_Q_CFG_q. -/
def aqOff (q : Nat) : Nat := 0x00401000 + 32 * q

/-- The configuration checks of R352 and R353. -/
def queueConfigOk (q cfg cap : Nat) : Bool :=
  let ping := bitOf cfg 30
  let size := cfg % 16
  size ≤ 10 && (if ping then cap % 2 == 0 && cap ≤ 16777216 else cap ≤ 65536) &&
    !(ping && (q < 64 || q == 255)) && !(q == 255 && size != 0)

/-- ENABLE goes from 0 to 1: the configuration is sampled, or the enable is ignored (R353). -/
def State.queueEnable (s : State) (q v : Nat) : State :=
  let v := v &&& 0xC000000F
  let was := s.aq q
  if was.enabled then s.setReg (aqOff q) (BitVec.ofNat 32 (v ||| 2 ^ 31))
  else
    let cap := s.regN (aqOff q + 4) % 2 ^ 25
    if !queueConfigOk q v cap then (s.setReg (aqOff q) (BitVec.ofNat 32 (v % 2 ^ 31))).annStatus q 31 0x062
    else
      let base := 2 ^ 32 * (s.regN (aqOff q + 12) % 256) + 4096 * (s.regN (aqOff q + 8) / 4096)
      let x : AQueue := { AQueue.reset with enabled := true, ping := bitOf v 30, size := v % 16, cap := cap, base := base }
      (s.setReg (aqOff q) (BitVec.ofNat 32 v)).setAq q x

/-- Disable a queue and discard its entries (R353). -/
def State.queueDisable (s : State) (q v : Nat) : State :=
  let s := (s.setReg (aqOff q) (BitVec.ofNat 32 (v &&& 0x4000000F))).setAq q AQueue.reset
  if q = 255 then { s with annulus := { s.annulus with inbound := [], inTotal := 0, inBad := [] } } else s

/-- Release the n oldest counted entries (R356, R357). -/
def State.queueRelease (s : State) (q n : Nat) : State :=
  let x := s.aq q
  let c := x.count
  let k := if n ≤ c then n else if x.bad.isSome then c + 1 else c
  let r := x.released + k
  let gone := fun (w : Nat) => if x.ping then w / 2 ^ 32 = b2n x.bank ∧ w % 2 ^ 32 < r else w < r
  let s := s.setAq q { x with released := r, poisoned := x.poisoned.filter fun w => ¬ gone w }
  if n ≤ c then s else s.annStatus q 30 0x063

/-- Swap the banks of a ping-pong queue (R355). -/
def State.bankSwap (s : State) (q : Nat) : State :=
  let x := s.aq q
  let whole : Bool := match x.tail with
    | [] => true
    | e :: _ => e.1
  if x.enabled ∧ x.ping ∧ x.drain ≤ x.released ∧ 0 < x.written ∧ whole then
    s.setAq q { x with drain := x.written, written := 0, released := 0, bank := !x.bank }
  else s

/-- The HBM address of the next entry to write. -/
def AQueue.slotAddr (x : AQueue) : Nat :=
  if x.ping then x.base + x.entry * (x.written + if x.bank then 0 else x.cap / 2) else x.base + x.entry * (x.written % x.cap)

/-- The oldest accepted entry is written to HBM and counted; a word that fails its parity is free and poisons the entry (R356 to R358). -/
def State.entryWrite (s : State) (q : Nat) (poison : Bool) : State :=
  let x := s.aq q
  match x.tail with
  | [] => s
  | (_, e) :: rest =>
    if !x.open_ then s
    else
      let (w, s) := if poison then s.draw 12 else (0, s)
      let (v, s) := if poison then s.draw 32 else (0, s)
      let k := 4 * (w % (e.length / 4))
      let e := if poison then e.take k ++ le 4 v ++ e.drop (k + 4) else e
      let (ok, s) := s.writeMem .annulus (0x2000 + 225) x.slotAddr e
      if !ok then (s.setAq q { x with stopped := true }).annStatus q 29 0x064
      else
        let mark := x.written + if x.ping ∧ !x.bank then 2 ^ 32 else 0
        let s := s.setAq q { x with tail := rest, written := x.written + 1, poisoned := if poison then x.poisoned ++ [mark] else x.poisoned }
        if !poison then s
        else
          let i := if x.ping then x.written else x.written % x.cap
          (s.count (cid 0x09 1 q)).raise 0x061 ([BitVec.ofNat 8 q] ++ le 4 i)

/-! ### The Radius inbound queue 255

Radius consumes it, so its entries are never available to firmware: ANNULUS_Q_COUNT_255 reads 0 (Table 14.17, log entry 119). Batch i since
the enable stands at slot i mod CAP while it is in the ring. -/

/-- Replace the batches of queue 255. -/
def State.withInbound (s : State) (l : List Nat) : State := { s with annulus := { s.annulus with inbound := l } }

/-- The word of batch i of queue 255 fails its check (R357). -/
def State.inboundPoison (s : State) (i : Nat) : State := { s with annulus := { s.annulus with inBad := i :: s.annulus.inBad } }

/-- The HBM address of the slot of batch i. -/
def State.inboundSlot (s : State) (i : Nat) : Nat := (s.aq 255).base + 16 * (i % (s.aq 255).cap)

/-- The on-die tail of queue 255 gives its oldest entry to the ring once the queue holds more than 128 (R354). The spec gives a batch
entry no layout: the bytes written are free (log entry 119). -/
def State.inboundSpill (s : State) : State :=
  if s.annulus.inbound.length ≤ 128 then s
  else
    let (v, s) := s.draw 128
    let (ok, s) := s.writeMem .annulus (0x2000 + 225) (s.inboundSlot (s.annulus.inTotal - 65)) (le 16 v)
    if ok then s else (s.setAq 255 { s.aq 255 with stopped := true }).annStatus 255 29 0x064

/-- A batch enters the Radius inbound queue (R24, R354). -/
def State.inboundPut (s : State) (id : Nat) : State :=
  ({ s with annulus := { s.annulus with inbound := s.annulus.inbound ++ [id], inTotal := s.annulus.inTotal + 1 } }).inboundSpill

/-- The on-die head of queue 255 takes the oldest entry of the ring, if the ring holds one; an entry that Hull does not serve is poisoned
(R354, R357). -/
def State.inboundRefill (s : State) : State :=
  let n := s.annulus.inbound.length
  if n ≤ 128 then s
  else
    let i := s.annulus.inTotal - n + 64
    match s.readMem .annulus (0x2000 + 225) (s.inboundSlot i) 16 with
    | (.data _, s) => s
    | (_, s) => s.inboundPoison i

/-- The oldest batch leaves the Radius inbound queue, or, poisoned, is dropped: its cells stay held by Radius and count as stranded until
RECLAIM (R357). `poison`: the entry's word fails its parity on die, or its HBM read was uncorrectable. -/
def State.inboundTake (s : State) (poison : Bool) : Option Nat × State :=
  match s.annulus.inbound with
  | [] => (none, s)
  | id :: rest =>
    let i := s.annulus.inTotal - rest.length - 1
    let s := (s.inboundRefill).withInbound rest
    if poison ∨ s.annulus.inBad.contains i then
      let s := ({ s with annulus := { s.annulus with inBad := s.annulus.inBad.filter (· != i) } }).count (cid 0x09 1 255)
      let cells := ((s.frame id).map (·.cells.length)).getD 0
      (none, (s.countN (cid 0x08 5 224) cells).raise 0x061 ([255#8] ++ le 4 (i % (s.aq 255).cap)))
    else (some id, s)

/-- The FCS a frame carries, computed where it has none (R15). -/
def TFrame.fcsBytes (f : TFrame) : List Byte := le 4 (match f.fcs with
  | some c => c.toNat
  | none => (Crypto.crc32 f.bytes).toNat)

/-- The punt queue entry of a frame whose bytes through the FCS are `whole` (Table 14.11); a frame read with an error is marked TRUNC
with length 0 (R349). -/
def puntEntry (f : TFrame) (whole : List Byte) (reason size : Nat) (bad : Bool) : List Byte :=
  let ns := f.stamp / 65536
  let trunc := bad || size - 32 < whole.length
  let head := le 2 (if bad then 0 else whole.length) ++
    [BitVec.ofNat 8 (b2n trunc + 2 * b2n f.unctl + 4 * b2n f.sa.isSome), BitVec.ofNat 8 (f.lp % 128)] ++ time10 ns ++
    [BitVec.ofNat 8 reason, 0] ++ le 4 (f.sa.getD 0 % 2 ^ 17) ++ List.replicate 12 0
  slice (head ++ whole) 0 size

/-- A punted frame waits for Annulus, which holds it (R342, R359). -/
def State.punt (s : State) (id q reason : Nat) (from_ : Nat) : State :=
  let s := s.holdFrame id (some from_) (some 225)
  { s with annulus := { s.annulus with punts := s.annulus.punts ++ [{ queue := q, frame := id, reason := reason }] } }

/-- Annulus copies its oldest punted frame, or drops it at a queue that is full, disabled or stopped (R353, R358, R359); the copy waits
while the queue's tail has no room. -/
def State.puntCopy (s : State) (e : Ecc) : State :=
  match s.annulus.punts with
  | [] => s
  | p :: rest =>
    let x := s.aq p.queue
    let t := { s with annulus := { s.annulus with punts := rest } }
    if !x.open_ ∨ x.full then
      ((t.freeFrame (some 225) p.frame).count (cid 0x09 0 p.queue)).raiseOnce 0x060 p.queue [BitVec.ofNat 8 p.queue]
    else if 64 ≤ x.tail.length then s
    else match t.frame p.frame with
      | none => t.freeFrame (some 225) p.frame
      | some f =>
        let (whole, t) := t.readFrame p.frame e (f.bytes ++ f.fcsBytes)
        (t.annPut p.queue [puntEntry f whole p.reason x.entry (e == .uncorrectable)]).freeFrame (some 225) p.frame

end Sys2Proof.Machine
end

