-- ==== Sys2Proof/Machine/Axis.lean ====
section
/-! DEFINITION. The key commands and Axis's own events (chapter 3, R492). -/

namespace Sys2Proof.Machine

/-- What a key command did: it is done, or it waits for its slot (R75, R78). -/
inductive KeyStep where
  | done (s : State) | waits

/-- A CASCADE marking pass of slot k runs (R78). -/
def State.passRuns (s : State) (k : Nat) : Bool := s.axis.marking.any (·.2.1 == k)

/-- KEY_STAGE after its field checks (R67, R104, R487). -/
def stageBody (d : Desc) (s : State) : State :=
  let k := slotField d 8
  let cls := d.slotClass 8
  let wrapped := d.get 0xC 1 = 1
  let alg := d.get 0xD 1
  let use := d.get 0xE 1
  let len := d.get 0x1C 4
  let klen := algLen (BitVec.ofNat 2 alg)
  let p := slotKey 2 (d.get 0x18 4)
  let bad := !usageOk cls use || (bitOf use 0 && cls == 0 && s.boundToTransmit (d.slotIndex 8))
  if ¬ slotFieldOk d 8 ∨ 1 < d.get 0xC 1 ∨ 2 < alg ∨ 32 ≤ use ∨ 1 < d.get 0xF 1 ∨ 255 < d.get 0x18 4 ∨
      (¬ wrapped ∧ (d.get 0x18 4 ≠ 0 ∨ len ≠ klen)) ∨ (wrapped ∧ len ≠ klen + 8) then s.done d .badRequest
  else if ¬ s.axis.serving then s.done d .busy
  else if wrapped then
    match s.parentStatus p with
    | some st => s.done d st
    | none =>
      let par := (s.slot p).act
      if ¬ par.wrap ∨ bad ∨ ¬ s.depthOk p cls then s.done d .badUsage
      else s.withBuf d .annulus (d.get 0x10 8) len fun bs s =>
        match Crypto.unwrap (algLen par.alg) par.key (klen / 8) (Crypto.ofBytes (bs.map BitVec.toNat)) with
        | none => s.done d .unwrapFailed
        | some key =>
          let fl := b2n ((s.slot k).pending != .empty)
          (s.stagePending k alg use (d.get 0xF 1 == 1) (s.ancestry p) key).complete d
            { status := .ok, flags := fl, r0 := kcv klen key }
  else if bad then s.done d .badUsage
  else s.withBuf d .annulus (d.get 0x10 8) len fun bs s =>
    let key := Crypto.ofBytes (bs.map BitVec.toNat)
    let fl := b2n ((s.slot k).pending != .empty)
    (s.stagePending k alg use (d.get 0xF 1 == 1) [] key).complete d { status := .ok, flags := fl, r0 := kcv klen key }

/-- KEY_VERIFY after its field checks (R69). -/
def verifyBody (d : Desc) (s : State) : State :=
  let k := slotField d 8
  let x := s.slot k
  if ¬ slotFieldOk d 8 ∨ 2 ^ 24 ≤ d.get 0xC 4 then s.done d .badRequest
  else if x.pending = .empty then s.done d .noPending
  else if kcv (algLen x.pnd.alg) x.pnd.key = d.get 0xC 4 then (s.setSlot k { x with pending := .verified }).done d .ok
  else ((s.setSlot k { x with pending := .empty, pnd := KeyHalf.reset }).raise 0x100 (le 4 (slotWord k))).done d .kcvMismatch

/-- KEY_COMMIT: it waits for the slot's draining generation or marking pass, then flips the halves (R70, R75, R78, Table 3.4). -/
def commitStep (d : Desc) (s : State) : KeyStep :=
  let k := slotField d 8
  let x := s.slot k
  if ¬ slotFieldOk d 8 then .done (s.done d .badRequest)
  else if s.passRuns k ∨ ¬ x.old.isEmpty then .waits
  else match x.pending with
    | .empty => .done (s.done d .noPending)
    | .staged => .done (s.done d .notVerified)
    | .verified =>
      let waited := if x.waitq.head? = some d then s.clk - x.waitSince else 0
      let g := nextGen x.gen
      let y := { x.retire s.clk none with
        active := .valid, act := x.pnd, pending := .empty, pnd := KeyHalf.reset, gen := g, retired := false }
      .done ((s.setSlot k y).complete d { status := .ok, r0 := g.toNat, r1 := waited })

/-- KEY_ERASE: effective at once for new operations; zeroised, and completed, once the erased generation has drained (R73). -/
def eraseStep (d : Desc) (s : State) : KeyStep :=
  let k := slotField d 8
  let x := s.slot k
  let half := d.get 0xC 1
  let doAct : Bool := bitOf half 0 && x.active != .none
  let doPnd : Bool := bitOf half 1 && x.pending != .empty
  if ¬ slotFieldOk d 8 ∨ half = 0 ∨ 3 < half then .done (s.done d .badRequest)
  else if s.passRuns k then .waits
  else if ¬ doAct ∧ ¬ doPnd then .done (s.done d .slotEmpty)
  else
    let x := if doPnd then { x with pending := .empty, pnd := KeyHalf.reset } else x
    if doAct then
      let y := { x.retire s.clk (some d) with
        active := .none, act := KeyHalf.reset, gen := nextGen x.gen, retired := false }
      let s' := (s.setSlot k y).loseKeys (fun dk => slotKey 0 dk == k) 0
      if x.live = 0 then .done (s'.complete d { status := .ok, r0 := 0, r1 := s.zeroTime }) else .done s'
    else .done ((s.setSlot k x).complete d { status := .ok, r0 := 0, r1 := s.zeroTime })

/-- SP 800-108 counter-mode key derivation with AES-CMAC (R80); `n` blocks. -/
def kdf (plen pkey : Nat) (label context : List Byte) (n : Nat) : Nat :=
  ((List.range n).map fun i =>
    (Crypto.cmac plen pkey (be 4 (i + 1) ++ label ++ [0] ++ context ++ be 4 (128 * n))).toNat).foldl (fun a b => 2 ^ 128 * a + b) 0

/-- KEY_DERIVE after its field checks (R76, R80, Table 3.3). -/
def deriveBody (d : Desc) (s : State) : State :=
  let p := slotField d 8
  let k := slotField d 0xC
  let cls := d.slotClass 0xC
  let l := d.get 0x10 1
  let use := d.get 0x11 1
  let ll := d.get 0x13 1
  let cl := d.get 0x14 1
  let par := (s.slot p).act
  if ¬ slotFieldOk d 8 ∨ ¬ slotFieldOk d 0xC ∨ (l ≠ 16 ∧ l ≠ 32) ∨ 32 ≤ use ∨ 1 < d.get 0x12 1 ∨ ll = 0 ∨ 32 < ll ∨ 32 < cl ∨
      p = k then s.done d .badRequest
  else if d.slotClass 8 = 1 ∨ (d.slotClass 8 = 0 ∧ cls ≠ 0) then s.done d .wrongClass
  else if d.slotClass 8 = 0 ∧ bits (d.slotIndex 8) 13 4 ≠ bits (d.slotIndex 0xC) 13 4 then s.done d .wrongPartition
  else if ¬ s.axis.serving then s.done d .busy
  else if ¬ usageOk cls use ∨ (bitOf use 0 ∧ cls = 0 ∧ s.boundToTransmit (d.slotIndex 0xC)) ∨
      ((s.slot p).active ≠ .none ∧ (¬ par.derive ∨ ¬ s.depthOk p cls)) then s.done d .badUsage
  else match s.parentStatus p with
    | some st => s.done d st
    | none => s.withBuf d .annulus (d.get 0x18 8) (ll + cl) fun bs s =>
      let key := kdf (algLen par.alg) par.key (bs.take ll) (bs.drop ll) (l / 16)
      let fl := b2n ((s.slot k).pending != .empty)
      (s.stagePending k (if l = 16 then 0 else 2) use (d.get 0x12 1 == 1) (s.ancestry p) key).complete d
        { status := .ok, flags := fl, r0 := kcv l key }

/-- Slot j holds a VALID key that descends from generation g of slot k (R77). -/
def State.descends (s : State) (k : Nat) (g : BitVec 32) (j : Nat) : Bool :=
  (s.slot j).active == .valid && (s.slot j).act.anc.contains (k, g)

/-- Radius flushes every cached key of the groups that p picks (R300). -/
def State.flushSensorKeys (s : State) (p : Nat → Bool) : State :=
  let keys := s.radius.keys.map fun (e : Nat × List SensorKey) => (e.1, e.2.filter fun x => !p x.group)
  { s with radius := { s.radius with keys := keys.filter fun e => e.2 != [] } }

/-- KEY_INVALIDATE (R77, R78). -/
def invalidateBody (d : Desc) (s : State) : State :=
  let k := slotField d 8
  let x := s.slot k
  if ¬ slotFieldOk d 8 then s.done d .badRequest
  else match x.active with
    | .none => s.done d .slotEmpty
    | .invalid => s.complete d { status := .ok, r0 := 0 }
    | .valid =>
      let s := s.setSlot k { x with active := .invalid, retired := x.act.retire }
      if x.act.retire then
        ((s.loseKeys (fun dk => slotKey 0 dk == k) 1).raise 0x102 []).complete d { status := .ok, r0 := 0 }
      else
        let s := s.flushSensorKeys fun g => slotKey 1 g == k || s.descends k x.gen (slotKey 1 g)
        let s := s.loseKeys (fun dk => slotKey 0 dk == k || s.descends k x.gen (slotKey 0 dk)) 1
        { s with axis := { s.axis with
          marking := s.axis.marking ++ [(d, k, x.gen)], cascaded := s.axis.cascaded ++ [(k, x.gen)] } }

/-- The slot a key command works on: the child of KEY_DERIVE, else the slot it names (R75). -/
def keyTarget (d : Desc) : Nat := if d.opcode = 0x014 then slotField d 0xC else slotField d 8

/-- Run a key command now, whatever waits before it. -/
def keyStep (d : Desc) (s : State) : KeyStep :=
  match d.opcode with
  | 0x010 => .done (stageBody d s)
  | 0x011 => .done (verifyBody d s)
  | 0x012 => commitStep d s
  | 0x013 => eraseStep d s
  | 0x014 => .done (deriveBody d s)
  | _ => .done (invalidateBody d s)

/-- Put a key command in its slot's waiting line. -/
def State.keyWait (s : State) (d : Desc) : State :=
  let k := keyTarget d
  let x := s.slot k
  s.setSlot k { x with waitq := x.waitq ++ [d], waitSince := if x.waitq.isEmpty then s.clk else x.waitSince }

/-- A slot still waits for an erase to drain, so later commands for it wait too (R73, R75). -/
def State.slotHeld (s : State) (k : Nat) : Bool :=
  !(s.slot k).waitq.isEmpty || (s.slot k).old.any (·.erase.isSome)

/-- A key command reaches Axis: in the order of its slot (R75). -/
def keyArrive (d : Desc) (s : State) : State :=
  if s.slotHeld (keyTarget d) then s.keyWait d
  else match keyStep d s with
    | .done s => s
    | .waits => s.keyWait d

/-- Run the waiting commands of slot k in order until one must wait again; n bounds their number. -/
def State.runWaiting (k : Nat) : Nat → State → State
  | 0, s => s
  | n + 1, s =>
    let x := s.slot k
    match x.waitq with
    | [] => s
    | d :: rest =>
      if x.old.any (·.erase.isSome) then s
      else match keyStep d s with
        | .waits => s
        | .done s =>
          let x := s.slot k
          State.runWaiting k n (s.setSlot k { x with waitq := rest, waitSince := if rest.isEmpty then 0 else s.clk })

/-- Run what waits on a slot. -/
def State.wakeSlot (s : State) (k : Nat) : State := State.runWaiting k ((s.slot k).waitq.length + 1) s

/-- KEY_STAGE (R67). -/
def execKeyStage (d : Desc) (s : State) : Out := .next (ringCommand d 0 [(8, 24)] (keyArrive d) s)
/-- KEY_VERIFY (R69). -/
def execKeyVerify (d : Desc) (s : State) : Out := .next (ringCommand d 0 [(8, 8)] (keyArrive d) s)
/-- KEY_COMMIT (R70). -/
def execKeyCommit (d : Desc) (s : State) : Out := .next (ringCommand d 0 [(8, 4)] (keyArrive d) s)
/-- KEY_ERASE (R73). -/
def execKeyErase (d : Desc) (s : State) : Out := .next (ringCommand d 0 [(8, 5)] (keyArrive d) s)
/-- KEY_DERIVE (R80). -/
def execKeyDerive (d : Desc) (s : State) : Out := .next (ringCommand d 0 [(8, 13), (0x18, 8)] (keyArrive d) s)
/-- KEY_INVALIDATE (R77). -/
def execKeyInvalidate (d : Desc) (s : State) : Out := .next (ringCommand d 0 [(8, 4)] (keyArrive d) s)

/-- GENERATION_DRAIN_END: the oldest replaced generation of a slot whose operations have all ended is zeroised; where every one has
operations left, the oldest is 2 µs after its replacement, when no operation keeps its material any longer (R221). The erase that waits for
it completes with its drain time, and commands waiting for the slot run (R72, R73, R75). -/
def execGenerationDrainEnd (slot : Nat) (s : State) : Out :=
  let x := s.slot slot
  match (x.old.find? (·.count == 0)).or x.old.head? with
  | none => .next s
  | some o =>
    let s := if o.count = 0 then s else s.passTo (o.since + 2000)
    let s := s.setSlot slot { x with old := x.old.erase o }
    let s := match o.erase with
      | some d => s.complete d { status := .ok, r0 := s.clk - o.since, r1 := s.zeroTime }
      | none => s
    .next (s.wakeSlot slot)

/-- MARKING_PASS_END: every descendant's active half is INVALID; KEY_INVALIDATE completes and 0x101 is raised with the count, and
commands waiting for the slot run (R78). -/
def execMarkingPassEnd (s : State) : Out :=
  match s.axis.marking with
  | [] => .next s
  | (d, k, g) :: rest =>
    let ds := (s.axis.slots.map (·.1)).filter fun j => s.descends k g j
    let s := { s with axis := { s.axis with marking := rest } }
    let s := ds.foldl (fun s j => s.setSlot j { s.slot j with active := .invalid, retired := false }) s
    let s := s.loseKeys (fun dk => ds.contains (slotKey 0 dk)) 1
    let s := (s.raise 0x101 (le 4 (slotWord k) ++ le 4 ds.length)).complete d { status := .ok, r0 := ds.length }
    .next (s.wakeSlot k)

/-- The times at which the masks of the halves that a region holds in its two HK slots were drawn: the pending halves are there during a
rekey (R400, R420). -/
def Region.maskTimes (r : Region) : List Nat :=
  (if r.state = .off then [] else [r.k1.maskAt, r.k2.maskAt]) ++ if r.state = .rekey then [r.nk1.maskAt, r.nk2.maskAt] else []

/-- The times at which the masks of the non-empty halves of a slot were drawn. -/
def Slot.maskTimes (x : Slot) : List Nat :=
  (if x.active ≠ .none then [x.act.maskAt] else []) ++ if x.pending ≠ .empty then [x.pnd.maskAt] else []

/-- The oldest mask of the non-empty halves of every class: the time it was drawn (R82). -/
def State.oldestMask (s : State) : Option Nat :=
  (s.axis.slots.flatMap (fun (e : Nat × Slot) => e.2.maskTimes) ++ s.hull.regions.flatMap (fun (e : Nat × Region) => e.2.maskTimes)).min?

/-- AXIS_SWEEP_CFG.PERIOD_MS (Table 3.9). -/
def State.sweepPeriod (s : State) : Nat := s.regN 0x01800000 % 128

/-- SWEEP_PASS_START: a new pass starts every PERIOD_MS while Axis serves; MAX_MASK_AGE shows the pass that ended (R82). -/
def execSweepPassStart (s : State) : Out :=
  if ¬ s.axis.serving ∨ s.apex.held then .next s
  else
    let s := s.passTo s.axis.sweepDue
    .next { s with axis := { s.axis with
      maxAge := BitVec.ofNat 8 (min 255 s.axis.ageSeen), ageSeen := 0, sweepDue := s.clk + 1000000 * s.sweepPeriod } }

/-- A half under a fresh mask (R82). -/
def KeyHalf.remask (h : KeyHalf) (m : BitVec 256) (now : Nat) : KeyHalf :=
  { h with share := h.share ^^^ h.mask ^^^ m, mask := m, maskAt := now }

/-- A half of an HK slot under a fresh mask (R82). -/
def HkHalf.remask (h : HkHalf) (m : BitVec 256) (now : Nat) : HkHalf :=
  { sh := { share := h.sh.share ^^^ h.sh.mask ^^^ m, mask := m }, maskAt := now }

/-- Fresh masks for the halves of HK slot i: slot 2k + j is slot j of region k (Table 3.1, R82). -/
def State.remaskHk (s : State) (i : Nat) (a p : BitVec 256) : State :=
  let k := i / 2
  let r := s.region k
  let on : Bool := r.state != .off
  let re : Bool := r.state == .rekey
  let now := s.clk
  if i % 2 = 0 then
    s.setRegion k { r with k1 := if on then r.k1.remask a now else r.k1, nk1 := if re then r.nk1.remask p now else r.nk1 }
  else
    s.setRegion k { r with k2 := if on then r.k2.remask a now else r.k2, nk2 := if re then r.nk2.remask p now else r.nk2 }

/-- Fresh masks for both halves of a firmware-visible slot (R82). -/
def State.remaskSlot (s : State) (slot : Nat) (a p : BitVec 256) : State :=
  let x := s.slot slot
  let cut := fun (h : KeyHalf) (m : BitVec 256) => BitVec.ofNat 256 (m.toNat % 2 ^ (8 * algLen h.alg))
  s.setSlot slot { x with
    act := if x.active ≠ .none then x.act.remask (cut x.act a) s.clk else x.act
    pnd := if x.pending ≠ .empty then x.pnd.remask (cut x.pnd p) s.clk else x.pnd }

/-- The times at which the masks of a slot of any class were drawn: class 3 is HK, 64 slots (Table 3.1). -/
def State.slotMasks (s : State) (slot : Nat) : List Nat :=
  if keyClass slot = 3 then
    let r := s.region (keyIndex slot / 2)
    if keyIndex slot % 2 = 0 then ({ r with k2 := r.k1, nk2 := r.nk1 } : Region).maskTimes else ({ r with k1 := r.k2, nk1 := r.nk2 } : Region).maskTimes
  else (s.slot slot).maskTimes

/-- SWEEP_SLOT_VISIT: one DRBG request gives both halves of a slot, of DK, GK, WK or, as class 3, HK, fresh masks, each in one write (R82). -/
def execSweepSlotVisit (slot : Nat) (s : State) : Out :=
  let hk : Bool := keyClass slot == 3 && decide (keyIndex slot < 64)
  if ¬ s.axis.serving ∨ s.apex.held ∨ ¬ (hk || slotExists (keyClass slot) (keyIndex slot)) then .next s
  else
    let (r, s) := s.drbg 512
    let seen := (s.slotMasks slot).foldl (fun m t => max m ((s.clk - t) / 1000000)) 0
    let a := BitVec.ofNat 256 r
    let p := BitVec.ofNat 256 (r / 2 ^ 256)
    let s := if hk then s.remaskHk (keyIndex slot) a p else s.remaskSlot slot a p
    let late := match s.oldestMask with
      | some t => decide (64000000 < s.clk - t)
      | none => false
    .next { s with axis := { s.axis with ageSeen := max s.axis.ageSeen seen, maskLate := s.axis.maskLate && late } }

/-- MASK_OVERDUE: a mask has grown older than 64 ms: SWEEP_OVERDUE sets and 0x103 is raised (R82). -/
def execMaskOverdue (s : State) : Out :=
  match s.oldestMask with
  | none => .next s
  | some t =>
    if s.axis.maskLate then .next s
    else
      let s := s.passTo (t + 64000001)
      .next ({ s with axis := { s.axis with overdue := true, maskLate := true } }.raise 0x103 [])

/-- DRBG_RESEED: after 1,048,576 requests the DRBG reseeds from healthy entropy, or Axis stops serving (R83). -/
def execDrbgReseed (s : State) : Out :=
  if s.axis.drbgCount < 1048576 then .next s
  else if s.axis.entropyOk then .next { s with axis := { s.axis with drbgCount := 0 } }
  else if s.axis.serving then .next ({ s with axis := { s.axis with drbgFail := true, serving := false } }.raise 0x105 [])
  else .next s

end Sys2Proof.Machine
end

