-- ==== Sys2Proof/Machine/TwinOps.lean ====
section
/-! DEFINITION. The twin pair: lease, Chord messages, copies, take-over (chapter 19, R480 to R482). -/

namespace Sys2Proof.Machine

/-- Replace the twin state. -/
def State.withTwin (s : State) (t : TwinState) : State := { s with twin := t }

/-! ### Lease state and role (R443, R450) -/

/-- Codes of Table 19.4. -/
def Lease.code : Lease → Nat
  | .unconfigured => 0 | .solo => 1 | .standby => 2 | .active => 3 | .lapsed => 4 | .handover => 5

/-- A standby reports ready (R451): the link is up, a full copy has been acknowledged in the session and, under HOT, its line ports are
enabled: some line port is (log entry 21). -/
def State.standbyReady (s : State) : Bool :=
  s.twin.lease == .standby && s.twin.linkUp && s.twin.ackedInSession &&
  (s.twin.warm || s.ports.lports.any fun e => 64 ≤ e.1 && e.2.enabled)

/-- The value driven on ROLE[1:0]; a unit in HANDOVER holds its lease until it has sent the release (R443, log entry 169). -/
def State.role (s : State) : Nat :=
  if ¬ s.twin.rolePins then 0
  else if s.leaseValid ∨ (s.twin.lease = .handover ∧ s.clk < s.twin.leaseEnd) then 2
  else if s.standbyReady then 1 else 0

/-- Start, keep or stop the wait-to-restore timer (R459). -/
def State.syncRestore (s : State) : State :=
  if s.twin.preferred ∧ s.twin.revertS ≠ 0 ∧ s.standbyReady then
    if s.twin.restoreDue.isSome ∨ s.twin.restoreDone then s
    else s.withTwin { s.twin with restoreDue := some (s.clk + 1000000000 * s.twin.revertS) }
  else s.withTwin { s.twin with restoreDue := none, restoreDone := false }

/-- The contexts of a unit that becomes standby become SHADOW (Table 19.7). The SA_RETIRE and SA_ROTATE commands that still wait complete
with STANDBY; the triggers stay in the contexts, from which a take-over arms them again (R449, R456, log entry 161). -/
def State.shadowAll (s : State) : State :=
  let cmds := s.assoc.ctx.flatMap (fun (e : Nat × Assoc) => e.2.retireCmds) ++ s.assoc.rots.filterMap (·.desc)
  let s := { s with assoc := { s.assoc with
      rots := []
      ctx := s.assoc.ctx.map fun (e : Nat × Assoc) =>
        if e.2.status = .free ∨ e.2.status = .shadow then e
        else (e.1, { e.2 with status := .shadow, before := e.2.status, retireCmds := [] }) } }
  cmds.foldl (fun s d => s.done d .standby) s

/-- The twin copy stops: SHADOW associations become FREE (Table 4.2, log entry 162). -/
def State.dropShadows (s : State) : State :=
  { s with assoc := { s.assoc with ctx := s.assoc.ctx.filter fun e => e.2.status != .shadow } }

/-- Change the lease state; every change raises 0x300 with the old and the new state (R450). -/
def State.setLease (s : State) (l : Lease) : State :=
  if l = s.twin.lease then s
  else
    let old := s.twin.lease
    let s := s.withTwin { s.twin with
      lease := l
      holdSince := if l = .active then s.twin.holdSince else none
      staleAsked := s.twin.staleAsked && l == .active }
    (s.raise 0x300 [BitVec.ofNat 8 old.code, BitVec.ofNat 8 l.code]).syncRestore

/-! ### Octeg (R480, R481) -/

/-- The 8-byte header of Table 20.10. -/
def octegHeader (ver ty len : Nat) : List Byte :=
  [BitVec.ofNat 8 ver, BitVec.ofNat 8 ty] ++ be 2 len ++ be 2 Config.unitId.toNat ++ [0, 0]

/-- The bitmap of versions that silicon A1 supports (Table 20.12). -/
def versionsA1 : Nat := 0x0E

/-- The highest version both bitmaps have; 0 for none (R481). -/
def commonVersion (bm : Nat) : Nat := ((List.range 8).filter fun v => bitOf (bm &&& versionsA1) v).foldl max 0

/-- A session. -/
def State.session (s : State) : OctegPath → Session
  | .chord => s.twin.chord
  | .arbiter => s.twin.arb

/-- Replace a session. -/
def State.setSession (s : State) (p : OctegPath) (x : Session) : State :=
  match p with
  | .chord => s.withTwin { s.twin with chord := x }
  | .arbiter => s.withTwin { s.twin with arb := x }

/-- MAC address of management port k: byte 0 is the most significant (Tables 20.23, 20.24). -/
def State.mgmtMac (s : State) (k : Nat) : Nat :=
  2 ^ 32 * (s.regN (0x00306008 + 0x10 * k) % 65536) + s.regN (0x00306004 + 0x10 * k)

/-- The Ethernet frame that carries a message to the arbiter: EtherType 0x88B5, from the port's own address, padded to 64 bytes (R451, log
entry 168). -/
def State.arbFrame (s : State) (m : List Byte) : List Byte :=
  let f := be 6 s.twin.arbMac.toNat ++ be 6 (s.mgmtMac (b2n s.twin.arbPort)) ++ be 2 0x88B5 ++ m
  let f := f ++ List.replicate (60 - f.length) 0
  f ++ le 4 (Crypto.crc32 f).toNat

/-- Put a message on a path: the Chord link, or ARB_PORT (R451). -/
def State.octegOut (s : State) (p : OctegPath) (m : List Byte) : State :=
  match p with
  | .chord => (s.withTwin { s.twin with lastTx := s.clk }).emit (.chord m)
  | .arbiter => s.emit (.mgmtFrame (b2n s.twin.arbPort) (s.arbFrame m))

/-- A HELLO (Table 20.12). -/
def State.hello (s : State) (p : OctegPath) : List Byte :=
  let x := s.session p
  octegHeader 1 1 56 ++ [BitVec.ofNat 8 versionsA1, 0x02] ++
    (match p with
      | .chord => be 2 s.twin.pairId.toNat ++ [BitVec.ofNat 8 (b2n s.twin.sideB)]
      | .arbiter => [0, 0, 0]) ++ [0, 0, 0] ++
    be 16 x.own.toNat ++ be 16 x.peer.toNat ++ be 8 s.apex.otp.serial.toNat

/-- HELLO period in ns (R481). -/
def helloPeriod : OctegPath → Nat
  | .chord => 10000 | .arbiter => 100000000

/-- Begin a session attempt with a fresh NONCE (R481, R444). -/
def State.beginSession (s : State) (p : OctegPath) : State :=
  let (r, s) := s.drbg 128
  s.setSession p { own := BitVec.ofNat 128 r, peer := 0, ver := 0, helloDue := s.clk }

/-- The key of the domain slot, if it can derive (R444, R451, R80). -/
def State.domainKey (s : State) : Option (Nat × Nat) :=
  let k := slotKey 2 s.twin.domainWk.toNat
  let h := (s.slot k).act
  if s.usable k ∧ h.derive then some (algLen h.alg, h.key) else none

/-- The ASCII bytes of "T6416 CHORD". -/
def chordLabel : List Byte := [0x54, 0x36, 0x34, 0x31, 0x36, 0x20, 0x43, 0x48, 0x4F, 0x52, 0x44]
/-- The ASCII bytes of "T6416 ARBITER". -/
def arbiterLabel : List Byte := [0x54, 0x36, 0x34, 0x31, 0x36, 0x20, 0x41, 0x52, 0x42, 0x49, 0x54, 0x45, 0x52]

/-- The Chord session key (R444). -/
def State.chordKey (s : State) : Option (BitVec 256) :=
  s.domainKey.map fun (len, key) =>
    let x := s.twin.chord
    let (a, b) := if s.twin.sideB then (x.peer, x.own) else (x.own, x.peer)
    BitVec.ofNat 256 (kdf len key (chordLabel ++ be 2 s.twin.pairId.toNat) (be 16 a.toNat ++ be 16 b.toNat) 2)

/-- The arbiter key (R451). -/
def State.deriveArbKey (s : State) : State :=
  s.withTwin { s.twin with
    arbKey := s.domainKey.map fun (len, key) => BitVec.ofNat 256 (kdf len key arbiterLabel (be 2 s.twin.pairId.toNat) 2) }

/-- The IV of message n of a side (R444). -/
def chordIv (sideB : Bool) (n : Nat) : BitVec 96 := BitVec.ofNat 96 (2 ^ 88 * b2n sideB + n % 2 ^ 64)

/-- Send a protected Chord message (R444). -/
def State.chordSend (s : State) (ty : Nat) (body : List Byte) : State :=
  let n := s.twin.txCount + 1
  let h := octegHeader s.twin.chord.ver ty (8 + body.length + 16)
  let (ct, tag) := Crypto.gcmSeal 32 s.twin.key.toNat (chordIv s.twin.sideB n) h body
  (s.withTwin { s.twin with txCount := n }).octegOut .chord (h ++ ct ++ tag)

/-- Receive a protected Chord message of a type: its body, or none where it is discarded (R444, R445, R481). The receiver's message
counter moves on with each message (log entry 22). -/
def State.chordOpen (s : State) (ty : Nat) (msg : List Byte) : Option (List Byte) × State :=
  if s.halted ∨ s.twin.chord.ver = 0 ∨ msg.length < 24 ∨ leAt msg 1 1 ≠ ty ∨ leAt msg 0 1 ≠ s.twin.chord.ver ∨ beAt msg 2 2 ≠ msg.length then
    (none, s)
  else
    let n := s.twin.rxCount + 1
    let s := s.withTwin { s.twin with rxCount := n }
    match Crypto.gcmOpen 32 s.twin.key.toNat (chordIv (!s.twin.sideB) n) (msg.take 8) (slice msg 8 (msg.length - 24))
        (msg.drop (msg.length - 16)) with
    | some body => (some body, s.withTwin { s.twin with badRun := 0, lastRx := s.clk })
    | none => (none, (s.withTwin { s.twin with badRun := s.twin.badRun + 1 }).count (cid 0x0E 0 0))

/-- The Chord session comes up (R444, R481): key, counters, a full first copy, and 0x301 (log entry 15). -/
def State.chordUp (s : State) (v : Nat) (key : BitVec 256) : State :=
  let t := s.twin
  let s := s.withTwin { t with
    chord := { t.chord with ver := v }, key := key, txCount := 0, rxCount := 0, badRun := 0, lastRx := s.clk, lastTx := s.clk
    linkUp := true, nextFull := true, ackedInSession := false, peerLease := 0, openCopies := [], rxCopy := none, cycleDue := s.clk }
  if t.linkUp then s else s.raise 0x301 [0]

/-- A session that is up restarts (R481). -/
def State.chordEnd (s : State) : State :=
  (s.withTwin { s.twin with
    chord := { s.twin.chord with ver := 0 }, key := 0, txCount := 0, rxCount := 0, badRun := 0, ackedInSession := false
    openCopies := [], rxCopy := none }).syncRestore

/-- A received HELLO (R481, R482, R452). -/
def State.helloIn (s : State) (p : OctegPath) (msg : List Byte) : State :=
  let x := s.session p
  let v := commonVersion (leAt msg 8 1)
  let nonce := BitVec.ofNat 128 (beAt msg 16 16)
  if msg.length ≠ 56 ∨ leAt msg 1 1 ≠ 1 ∨ leAt msg 0 1 ≠ 1 then s
  else if v = 0 then
    let s := s.octegOut p (octegHeader 1 2 9 ++ [BitVec.ofNat 8 versionsA1])
    match p with
    | .chord => s.raise 0x301 [4]
    | .arbiter => (s.withTwin { s.twin with arbRefused := true }).raise 0x309 []
  else
    let s := if x.ver ≠ 0 ∧ nonce ≠ x.peer then
        (match p with
          | .chord => s.chordEnd.beginSession .chord
          | .arbiter => s.beginSession .arbiter)
      else s
    let x := { s.session p with peer := nonce }
    let s := s.setSession p x
    if x.ver ≠ 0 ∨ BitVec.ofNat 128 (beAt msg 32 16) ≠ x.own then s
    else match p with
      | .arbiter => s.withTwin { s.twin with arb := { x with ver := v }, arbRefused := false }
      | .chord =>
        match s.chordKey with
        | some key => s.chordUp v key
        | none => s

/-! ### Copies (R447, R448) -/

/-- Word 0 of a copy record. -/
def recWord (kind n : Nat) : List Byte := le 4 (2 ^ 28 * kind + n)

/-- The context image a copy carries: without NEXT and LEAP, which NEXT records carry. -/
def Assoc.copyImage (a : Assoc) : BitVec 1024 := BitVec.ofNat 1024 ({ a with next := 0, leap := 0 } : Assoc).image

/-- What a copy carries of every non-FREE association now. -/
def State.snapshot (s : State) : Tbl SentCopy :=
  (s.assoc.ctx.filter fun e => e.2.status != .free).map fun e =>
    (e.1, { image := e.2.copyImage, next := e.2.nextN, leap := e.2.leap.toNat })

/-- DK slots that some association uses. -/
def State.usedSlots (s : State) : List Nat :=
  ((s.assoc.ctx.filter fun e => e.2.status != .free).flatMap fun e =>
    if e.2.facet then [e.2.dkA.toNat, e.2.dkB.toNat] else [e.2.dkA.toNat]).eraseDups

/-- The KEY record of a DK slot that holds a key in its active half (Table 19.3). -/
def State.keyRecord (s : State) (k : Nat) : List (List Byte) :=
  let x := s.slot (slotKey 0 k)
  let h := x.act
  let n := algLen h.alg
  let w := Crypto.wrap 32 s.twin.key.toNat (n / 8) h.key
  if x.active = .none then []
  else [recWord 3 k ++ [h.alg.zeroExtend 8, h.use.zeroExtend 8, BitVec.ofNat 8 (b2n h.retire), 0] ++
    slice ((Crypto.toBytes (n + 8) w).map (BitVec.ofNat 8)) 0 40]

/-- The KEY_STATE record of a DK slot whose active half is not VALID (Table 19.3). -/
def State.stateRecord (s : State) (k : Nat) : List (List Byte) :=
  match (s.slot (slotKey 0 k)).active with
  | .valid => []
  | .none => [recWord 5 k ++ le 12 0]
  | .invalid => [recWord 5 k ++ le 12 2]

/-- The CONTEXT record of an association. -/
def Assoc.ctxRecord (a : Assoc) (h : Nat) : List Byte := recWord 2 h ++ le 128 a.image

/-- The records of a copy: KEY and KEY_STATE, then CONTEXT, then NEXT, with FREE records among the last, for every association that an
earlier copy carried and that has become FREE (R447). -/
def State.copyRecords (s : State) (full : Bool) : List (List Byte) :=
  let used := s.usedSlots
  let keys := if full then used.flatMap fun k => [(k, true), (k, false)] else s.twin.keyOrder.filter fun e => used.contains e.1
  let as := s.assoc.ctx.filter fun e => e.2.status != .free
  let old := s.twin.acked
  (keys.flatMap fun e => if e.2 then s.keyRecord e.1 else s.stateRecord e.1) ++
  ((as.filter fun e => full || (old.lookup e.1).map (·.image) != some e.2.copyImage).map fun e => e.2.ctxRecord e.1) ++
  ((as.filter fun e => full || (match old.lookup e.1 with
      | some c => c.next != e.2.nextN || c.leap != e.2.leap.toNat || (Assoc.ofImage c.image.toNat).status != e.2.status
      | none => true)).map fun e => recWord 1 e.1 ++ le 8 e.2.next.toNat ++ le 4 e.2.leap.toNat) ++
  ((((old ++ s.twin.openCopies.flatMap (·.sent)).map (·.1)).eraseDups.filter fun h => (s.sa h).status == .free).map fun h =>
    recWord 4 h ++ le 12 0)

/-- Group records into message bodies of at most 2,016 bytes of records (R480). -/
def packRecords : List Byte → List (List Byte) → List (List Byte)
  | cur, [] => if cur.isEmpty then [] else [cur]
  | cur, r :: rs => if 2016 < cur.length + r.length then cur :: packRecords r rs else packRecords (cur ++ r) rs

/-- Open and send a copy (R447). The cycle ends when its 16-byte units have been sent at the rate of Table 19.2; a cycle that is still
sending at the next due time is late. -/
def State.sendCopy (s : State) (full : Bool) : State :=
  let seq := s.twin.copySeq + 1
  let recs := s.copyRecords full
  let units := (recs.map (·.length)).sum / 16 + 1
  let c := copyCapacity s.twin.width
  let ends := s.clk + (if c = 0 then 0 else 10000 * units / c)
  let due := s.clk + 1000 * s.twin.effUs
  let open_ : OpenCopy := { seq := seq, full := full, sent := s.snapshot, freed := [] }
  let used := s.usedSlots
  let s := (packRecords [] recs).foldl (fun s b => s.chordSend 0x10 (be 8 seq ++ b)) s
  let s := s.chordSend 0x11 (be 8 seq ++ be 4 recs.length ++ [0, 0, 0, 0])
  let s := s.withTwin { s.twin with
    copySeq := seq, nextFull := false, openCopies := s.twin.openCopies ++ [open_], cycleDue := max due ends
    keyOrder := s.twin.keyOrder.filter fun e => !used.contains e.1 }
  if due < ends then s.count (cid 0x0E 1 0) else s

/-- What an acknowledged copy carries of the associations that have been there since it was opened. -/
def OpenCopy.standing (c : OpenCopy) : Tbl SentCopy := c.sent.filter fun e => !c.freed.contains e.1

/-- Set the twin ceilings from an acknowledged copy (R110, R448). -/
def State.setCeilings (s : State) (sent : Tbl SentCopy) : State :=
  let one := fun (e : Nat × Assoc) => if e.2.recv ∨ e.2.status = .free then e
    else match sent.lookup e.1 with
      | some c => (e.1, { e.2 with twinCeil := some (c.next, c.leap), twinHeld := false })
      | none => e
  let s := { s with assoc := { s.assoc with ctx := s.assoc.ctx.map one } }
  s.withTwin { s.twin with holdSince := none, staleAsked := false }

/-- Install a key a KEY record carries, under the standby's own generation (R448). -/
def State.installKey (s : State) (k : Nat) (r : List Byte) : State :=
  let alg := leAt r 4 1 % 4
  let n := algLen (BitVec.ofNat 2 alg)
  match Crypto.unwrap 32 s.twin.key.toNat (n / 8) (Crypto.ofBytes ((slice r 8 (n + 8)).map BitVec.toNat)) with
  | none => s
  | some key =>
    let (m, s) := s.drbg (8 * n)
    let x := s.slot (slotKey 0 k)
    let y := x.retire s.clk none
    s.setSlot (slotKey 0 k) { y with
      active := .valid, gen := nextGen x.gen, retired := false
      act := { share := BitVec.ofNat 256 (key ^^^ m), mask := BitVec.ofNat 256 m, maskAt := s.clk, alg := BitVec.ofNat 2 alg
               use := BitVec.ofNat 5 (leAt r 5 1), retire := bitOf (leAt r 6 1) 0, anc := [] } }

/-- Apply a KEY_STATE record (R448). -/
def State.applyKeyState (s : State) (k code : Nat) : State :=
  let x := s.slot (slotKey 0 k)
  if code = 0 then
    if x.active = .none then s
    else
      let y := x.retire s.clk none
      s.setSlot (slotKey 0 k) { y with active := .none, act := KeyHalf.reset, gen := nextGen x.gen, retired := false }
  else if x.active = .valid then s.setSlot (slotKey 0 k) { x with active := .invalid, retired := x.act.retire } else s

/-- Write a CONTEXT record as a SHADOW association (R448). -/
def State.applyContext (s : State) (h img : Nat) : State :=
  let old := s.sa h
  let a := Assoc.ofImage img
  let a := { a with before := a.status, status := .shadow, delta := old.delta, ucode := if old.status = .free then 0 else old.ucode }
  s.setSa h (if a.recv ∧ old.status ≠ .free then { a with next := BitVec.ofNat 64 (max old.next.toNat a.next.toNat) } else a)

/-- Apply the records of a message in order; n bounds their number. The count comes back. -/
def State.applyRecords : Nat → State → List Byte → Nat × State
  | 0, s, _ => (0, s)
  | n + 1, s, bs =>
    if bs.length < 16 then (0, s)
    else
      let k := bits (leAt bs 0 4) 0 17
      let (len, s) := match leAt bs 0 4 / 2 ^ 28 with
        | 1 =>
          let a := s.sa k
          let nx := if a.recv then max a.next.toNat (leAt bs 4 8) else leAt bs 4 8
          (16, if a.status = .free then s else s.setSa k { a with next := BitVec.ofNat 64 nx, leap := BitVec.ofNat 32 (leAt bs 12 4) })
        | 2 => (132, s.applyContext k (leAt bs 4 128))
        | 3 => (48, s.installKey k (slice bs 0 48))
        | 4 => (16, s.setSa k Assoc.reset)
        | 5 => (16, s.applyKeyState k (leAt bs 4 1 % 4))
        | _ => (16, s)
      let (c, s) := State.applyRecords n s (bs.drop len)
      (c + 1, s)

/-! ### Take-over (R455, R456) -/

/-- An association that resumes with a DK slot that is not VALID enters KEY_LOST (R448, Table 4.6). -/
def State.resumeKey (s : State) (h : Nat) : State :=
  let c := s.sa h
  if (c.status = .active ∨ c.status = .ready) ∧ ¬ s.dkValid c.dkInUse then
    s.enterKeyLost h (if (s.slot (slotKey 0 c.dkInUse)).active = .invalid then 1 else 0)
  else s

/-- A receive association resumes and keeps its NEXT (R456). -/
def State.resumeRecv (s : State) (h : Nat) : State :=
  let a := s.sa h
  (s.setSa h { a with status := if a.before = .retiring then .retiring else .active }).resumeKey h

/-- One SHADOW association resumes (Table 4.6); one that passes its last value is EXHAUSTED, whatever state the copy gave (R111). -/
def State.resumeOne (s : State) (h : Nat) : State :=
  let a := s.sa h
  if a.recv then s.resumeRecv h
  else
    let leap := max a.leap.toNat (s.leapOf a)
    let b : Assoc := { a.setNext (a.nextN + leap) with leap := BitVec.ofNat 32 (s.leapOf a), twinHeld := false }
    let b : Assoc := { b with twinCeil := some (b.nextN, b.leap.toNat) }
    let st := match a.before with
      | .ready => AssocStatus.ready | .keyLost => .keyLost | .retiring => .retiring | .exhausted => .exhausted | _ => .active
    let s := s.setSa h { b with status := st }
    let s := if b.spent ∧ st ≠ .exhausted then (s.setSa h { b with status := .exhausted }).raise 0x121 (le 4 h) else s
    ((s.resumeKey h).nextMoved h).caseClear h

/-- A transmit association at a stale take-over: KEY_LOST (Table 4.6, R455). -/
def State.staleOne (s : State) (h : Nat) : State :=
  let a := s.sa h
  if a.recv then s.resumeRecv h
  else
    let st := if a.before = .ready then AssocStatus.ready else .active
    (s.setSa h { a with status := .keyLost, before := st }).raise 0x122 (le 4 h ++ [2])

/-- The trigger a context carries, if one is armed (Table 4.1). -/
def Assoc.armedTrigger (a : Assoc) : Option RotTrigger :=
  if a.switchPn ≠ 0 then some (.pn a.switchPn.toNat)
  else if a.switchTime ≠ 0 then some (.time (1000000000 * (a.switchTime.toNat % 2 ^ 48) + a.switchTime.toNat / 2 ^ 48))
  else none

/-- A PN entry whose trigger the resumed NEXT has reached switches (R456). -/
def State.reachedPn (s : State) (e : Nat × Nat) : State :=
  let a := s.sa e.1
  if a.switchPn ≠ 0 ∧ a.switchPn.toNat ≤ a.nextN then
    let (ok, s) := s.switchEntry e.1 e.2 (some a.switchPn.toNat)
    (s.settleEntry e.1 ok).dropRotations
  else s

/-- The rotations that copied contexts carry are armed again, one for each trigger; those whose time or value has come apply at once
(R456). -/
def State.rearm (s : State) : State :=
  let as := s.assoc.ctx.filterMap fun e =>
    if e.2.status = .free ∨ e.2.recv then none else e.2.armedTrigger.map fun t => (t, (e.1, e.2.successor.toNat))
  let rs := (as.map (·.1)).eraseDups.map fun t =>
    let es := (as.filter (·.1 == t)).map (·.2)
    ({ desc := none, name := (64, 0), entries := es, phases := [], trigger := t, armedAt := s.clk, armed := true, total := es.length
       switched := [] } : Rotation)
  let s := { s with assoc := { s.assoc with rots := s.assoc.rots ++ rs } }
  (as.map (·.2)).foldl State.reachedPn s.fireRotations

/-- The take-over of a standby that is granted the lease (R456, R455). -/
def State.takeOver (s : State) (current : Bool) : State :=
  let sh := (s.assoc.ctx.filter fun e => e.2.status == .shadow).map (·.1)
  let s := if current then sh.foldl State.resumeOne s else sh.foldl State.staleOne s
  let s := if current then s.rearm else s
  let n := if current then sh.length else 0
  let s := if current then (List.range 16).foldl (fun s p =>
      s.raise 0x12B (BitVec.ofNat 8 p :: le 2 (sh.filter fun h => h / 8192 == p).length)) s
    else s
  s.raise 0x305 (le 4 n ++ [BitVec.ofNat 8 (b2n current)])

/-! ### Arbiter messages (R451, R452) -/

/-- The MAC of an arbiter message (Table 19.5). -/
def arbMac (key : BitVec 256) (m : List Byte) : List Byte := (Crypto.blockBytes (Crypto.cmac 32 key.toNat m)).take 8

/-- Send an arbiter message; its nonce joins the last four (R451, R452). Nothing but HELLO goes before the session is up (R481), and
version 1 lacks the types from 0x44. -/
def State.arbSend (s : State) (ty code : Nat) : State :=
  match s.twin.arbKey with
  | none => s
  | some key =>
    let v := s.twin.arb.ver
    if v = 0 ∨ (v = 1 ∧ 0x44 ≤ ty) then s else
    let (n, s) := s.drbg 64
    let m := octegHeader v ty 48 ++ be 2 s.twin.pairId.toNat ++ [BitVec.ofNat 8 (b2n s.twin.sideB), BitVec.ofNat 8 code] ++
      be 4 0 ++ be 8 n ++ be 8 0 ++ be 8 s.twin.copyAck
    let s := s.withTwin { s.twin with requests := ((BitVec.ofNat 64 n, s.clk) :: s.twin.requests).take 4 }
    s.octegOut .arbiter (m ++ arbMac key m)

/-- The unit refuses a message of the arbiter (R452). -/
def State.arbRefuse (s : State) : State := (s.count (cid 0x0E 2 0)).raiseOnce 0x307 0 []

/-- A GRANT or DENY that R452 accepts: the time its request was sent. -/
def State.arbAccept (s : State) (ty : Nat) (msg : List Byte) : Option Nat :=
  match s.twin.arbKey, s.twin.requests.lookup (BitVec.ofNat 64 (beAt msg 16 8)) with
  | some key, some t =>
    if s.twin.arb.ver ≠ 0 ∧ leAt msg 0 1 = s.twin.arb.ver ∧ msg.length = 48 ∧ leAt msg 1 1 = ty ∧ beAt msg 2 2 = 48 ∧ beAt msg 8 2 = s.twin.pairId.toNat ∧
        leAt msg 10 1 = b2n s.twin.sideB ∧ s.twin.epoch ≤ beAt msg 24 8 ∧ arbMac key (msg.take 40) = msg.drop 40 ∧
        ¬ s.twin.arbRefused then some t
    else none
  | _, _ => none

end Sys2Proof.Machine
end

