-- ==== Sys2Proof/Machine/LaneOps.lean ====
section
/-! DEFINITION. Serial lanes: access, codes, the width of the Chord link (chapter 18). -/

namespace Sys2Proof.Machine

/-- The table key of a lane: client 0-63, line 64-127, Chord 128-136. -/
def laneKey (l : Lane) : Nat :=
  match l.family with
  | .client => l.idx.val
  | .line => 64 + l.idx.val
  | .chord => 128 + l.idx.val

/-- A Chord lane has number 0 to 8; every client and line lane exists (Table 18.1). -/
def laneExists (l : Lane) : Bool := l.family != .chord || l.idx.val ≤ 8

/-- A lane. -/
def State.lane (s : State) (k : Nat) : LaneUnit := tget LaneUnit.reset s.lanes k

/-- Replace a lane. -/
def State.setLane (s : State) (k : Nat) (x : LaneUnit) : State := { s with lanes := tput LaneUnit.reset s.lanes k x }

/-- A lane is LOCKED. -/
def State.laneLocked (s : State) (k : Nat) : Bool := (s.lane k).mode == .locked

/-- The set-up offset of a lane's register block. -/
def laneOff (k : Nat) : Nat :=
  if k < 64 then 0x03400000 + 0x20000 * (k / 4) + 0x1000 + 0x40 * (k % 4)
  else if k < 128 then 0x03800000 + 0x20000 * ((k - 64) / 4) + 0x1000 + 0x40 * (k % 4)
  else 0x03C01000 + 0x40 * (k - 128)

/-- Event data of a lane (R440, Table 22.21): family and lane. -/
def laneData (k : Nat) : List Byte :=
  if k < 64 then [0, BitVec.ofNat 8 k] else if k < 128 then [1, BitVec.ofNat 8 (k - 64)] else [2, BitVec.ofNat 8 (k - 128)]

/-- The lane sets of the Chord link, widest first, lowest-numbered first (R439). -/
def chordSets : List (List Nat) :=
  [[0, 1, 2, 3, 4, 5, 6, 7], [0, 1, 2, 3], [4, 5, 6, 7], [0, 1], [2, 3], [4, 5], [6, 7], [0], [1], [2], [3], [4], [5], [6], [7]]

/-- The widest set of Chord data lanes that are all usable. -/
def State.chordSet (s : State) (ok : Nat → Bool) : List Nat :=
  if s.twin.lowRate then (if ok 0 then [0] else [])
  else (chordSets.find? fun l => l.all ok).getD []

/-- A mask of lane numbers. -/
def maskOf (l : List Nat) : Nat := l.foldl (fun m i => m ||| 2 ^ i) 0

/-- The LOCKED Chord data lanes, as a mask. -/
def State.chordLocked (s : State) : BitVec 8 := BitVec.ofNat 8 (maskOf ((List.range 8).filter fun k => s.laneLocked (128 + k)))

/-- The Chord link runs on a set of lanes from now on; T_eff follows (R439, R446). -/
def State.setChordSet (s : State) (l : List Nat) : State :=
  let w := if l.isEmpty then 0 else if s.twin.lowRate then 15 else l.length
  if w = s.twin.width ∧ maskOf l = s.twin.lanesUp.toNat then s
  else (s.withTwin { s.twin with width := w, lanesUp := BitVec.ofNat 8 (maskOf l) }).retime (w != s.twin.width)

/-- The widest set of LOCKED data lanes joins the link: at link-up, or at WIDEN (R439, R444, R445). -/
def State.joinLanes (s : State) : State :=
  (s.withTwin { s.twin with eligible := s.chordLocked }).setChordSet (s.chordSet fun k => s.laneLocked (128 + k))

/-- Start a lane that is OFF (R425). -/
def State.startLane (s : State) (k : Nat) : State :=
  let x := s.lane k
  if x.mode ≠ .off then s else s.setLane k { x with mode := .pll, since := some s.clk, power := 0, kept := none }

/-- Bits of LANE_EYE_RESULT when a running point stops (R436). -/
def LaneUnit.abortEye (x : LaneUnit) : LaneUnit := if x.eyeBusy then { x with eyeBusy := false, eye := x.eye ||| 0x40000000#32 } else x

/-- Return a lane to OFF; a Chord lane shows power state `power` (R425, R437). -/
def State.stopLane (s : State) (k : Nat) (power : BitVec 2) : State :=
  let x := (s.lane k).abortEye
  s.setLane k { x with mode := .off, signal := false, since := none, kept := none, chkLock := false, ctle := 0, power := power }

/-- Start the Chord lanes of a pair: the clock lane and the data lanes, only data lane 0 at the low rate, the others then stay in L2
(R425, R444, R445; log entry 26). -/
def State.startChord (s : State) : State :=
  let used := if s.twin.lowRate then [0, 8] else List.range 9
  let s := used.foldl (fun s k => s.startLane (128 + k)) s
  ((List.range 9).filter fun k => !used.contains k).foldl (fun s k => s.stopLane (128 + k) 2) s

/-- Return every Chord lane to OFF (R425). -/
def State.stopChord (s : State) : State := (List.range 9).foldl (fun s k => s.stopLane (128 + k) 3) s

/-- The lanes of sub-port s of port n in a mode, by number on its side (Table 18.2). -/
def subLanes (mode n s : Nat) : List Nat :=
  match mode with
  | 0 | 3 | 5 | 7 => if s = 0 then [4 * n, 4 * n + 1, 4 * n + 2, 4 * n + 3] else []
  | 1 | 4 => if s < 2 then [4 * n + 2 * s, 4 * n + 2 * s + 1] else []
  | 2 => [4 * n + s]
  | _ => if s = 0 then (List.range 8).map (4 * n + ·) else []

/-- Lane keys of an enabled logical port (Table 18.2). -/
def State.lanesOf (s : State) (lp : Nat) : List Nat :=
  match (s.lport lp).mode with
  | some m => (subLanes m.toNat (lp % 64 / 4) (lp % 4)).map (lp / 64 * 64 + ·)
  | none => []

/-- A logical port carries traffic: it is enabled, or it drains. -/
def LPort.busy (p : LPort) : Bool := p.enabled || p.draining

/-- The port of a client or line lane is enabled: some sub-port of its port, or of the 800G pair it belongs to. -/
def State.lanePortEnabled (s : State) (k : Nat) : Bool :=
  let base := k / 4 * 4
  (List.range 4).any (fun i => (s.lport (base + i)).busy) ||
  (List.range 4).any (fun i => (s.lport (base - base % 8 + i)).busy && (s.lport (base - base % 8 + i)).mode == some 6)

/-- RCLKk is driven (R394). -/
def State.rclkDriven (s : State) (k : Nat) : Bool :=
  let c := s.regN (0x01400040 + 4 * k)
  let lane := bits c 29 1 * 64 + bits c 10 6
  bitOf c 31 && 16 ≤ bits c 0 10 && s.laneLocked lane && s.lanePortEnabled lane

/-- Re-evaluate the squelch of both recovered-clock outputs (R394). -/
def State.rclk (s : State) : State :=
  (List.range 2).foldl (fun s k =>
    let on := s.rclkDriven k
    if on = s.gnomon.rclkOn.getLsbD k then s
    else ({ s with gnomon := { s.gnomon with rclkOn := s.gnomon.rclkOn ^^^ (1#2 <<< k) } }).raiseSet 0x0E4 on [BitVec.ofNat 8 k]) s

end Sys2Proof.Machine
end

