-- ==== Sys2Proof/Machine/SectorOps.lean ====
section
/-! DEFINITION. Sector: records, shapers, policers, gates, WF2Q+, admission and selection (chapter 15). -/

namespace Sys2Proof.Machine

/-- Replace the Sector state. -/
def State.withSector (s : State) (x : SectorState) : State := { s with sector := x }

/-! ### Records (Table 15.5) -/

/-- Key of a record. -/
def recKey (target index : Nat) : Nat := 65536 * target + index
/-- A record. -/
def State.srec (s : State) (k : Nat) : Nat := (tget 0 s.sector.recs k).toNat
/-- Word w of a record. -/
def srecWord (r w : Nat) : Nat := bits r (32 * w) 32
/-- Key of a queue's record. -/
def qKey (side q : Nat) : Nat := recKey side q
/-- Key of a group node's record. -/
def gKey (side lp g : Nat) : Nat := recKey (2 + side) (8 * lp + g)
/-- Key of a port node's record. -/
def pKey (side lp : Nat) : Nat := recKey (2 + side) (512 + lp)
/-- ENABLE of a queue record. -/
def qOn (r : Nat) : Bool := bitOf r 31
/-- MODE 1: token bucket. -/
def qToken (r : Nat) : Bool := bitOf r 30
/-- LPORT of a queue record. -/
def qLport (r : Nat) : Nat := bits r 24 6
/-- GROUP of a queue record. -/
def qGroup (r : Nat) : Nat := bits r 21 3
/-- WEIGHT, a weight of 0 counting as 1 (R367). -/
def recWeight (r : Nat) : Nat := max 1 (bits r 0 16)
/-- PRIO of a group node. -/
def gPrio (r : Nat) : Nat := bits r 16 3
/-- Rate in kbit/s of bucket i (0 committed, 1 peak) of record k: a policer's words lie elsewhere. -/
def State.brate (s : State) (k i : Nat) : Nat := srecWord (s.srec k) (if k / 65536 = 4 then 1 + 2 * i else 3 + 2 * i)
/-- Burst in bytes of bucket i of record k. -/
def State.bburst (s : State) (k i : Nat) : Nat := srecWord (s.srec k) (if k / 65536 = 4 then 2 + 2 * i else 4 + 2 * i) % 2 ^ 24

/-! ### Buckets (R365, R371): one byte is 16,000,000 units, so that a rate in kbit/s adds twice as many units per ns, and 1/1,024 byte is
15,625 units -/

/-- A bucket with nothing in it. -/
def Bucket.reset : Bucket := { level := 0, at_ := 0 }
/-- Units of n bytes. -/
def units (n : Nat) : Int := 16000000 * (n : Int)

/-- A bucket's level now, capped at its burst. -/
def Bucket.now (b : Bucket) (clk rate burst : Nat) : Int := min (units burst) (b.level + (2 * rate * (clk - b.at_) : Nat))

/-- Level now of bucket i (0 committed, 1 peak) of record k. -/
def State.level (s : State) (k i : Nat) : Int :=
  (tget Bucket.reset s.sector.buckets (2 * k + i)).now s.clk (s.brate k i) (s.bburst k i)

/-- Set a bucket's level now. -/
def State.setLevel (s : State) (k i : Nat) (v : Int) : State :=
  s.withSector { s.sector with buckets := tput Bucket.reset s.sector.buckets (2 * k + i) { level := v, at_ := s.clk } }

/-- Subtract a wire length: no bucket goes negative by more than one wire length (R365). -/
def State.take (s : State) (k i len : Nat) : State :=
  let v := s.level k i
  s.setLevel k i (max (v - units len) (min v (-units len)))

/-- Fill both buckets of a record to their bursts (R371, R379). -/
def State.fillBuckets (s : State) (k : Nat) : State :=
  (s.setLevel k 0 (units (s.bburst k 0))).setLevel k 1 (units (s.bburst k 1))

/-- A shaped node is eligible in a pass (R365). -/
def State.eligible (s : State) (k : Nat) (committed : Bool) : Bool :=
  if committed then 0 < s.brate k 0 && 0 ≤ s.level k 0 else s.brate k 1 == 0 || 0 ≤ s.level k 1

/-! ### Policers (R371) -/

/-- Colour of a policed frame. -/
inductive Colour where
  | green | yellow | red
  deriving DecidableEq, Repr

/-- A policer's level as its decisions see it, at the resolution of 1/1,024 byte; what is below it stays in the refill (R371). -/
def seen (v : Int) : Int := v / 15625 * 15625

/-- Run a policer on a frame of n bytes (Table 15.2). -/
def State.police (s : State) (p n : Nat) : Colour × State :=
  let k := recKey 4 p
  let r := s.srec k
  let b := units n
  if !bitOf r 31 then (.green, s)
  else
    let alg := bits r 29 2
    let c0 := tget Bucket.reset s.sector.buckets (2 * k)
    let excess := max 0 (c0.level + (2 * s.brate k 0 * (s.clk - c0.at_) : Nat) - units (s.bburst k 0))
    let tc := s.level k 0
    let tp := if alg = 0 then min (units (s.bburst k 1)) ((tget Bucket.reset s.sector.buckets (2 * k + 1)).level + excess) else s.level k 1
    let put := fun (c p : Int) => (s.setLevel k 0 c).setLevel k 1 p
    if alg = 3 then (.green, s.count (cid 0x0B 1 p))
    else if alg = 1 then
      if seen tp < b then (.red, put tc tp)
      else if seen tc < b then (.yellow, put tc (tp - b))
      else (.green, put (tc - b) (tp - b))
    else if b ≤ seen tc then (.green, put (tc - b) tp)
    else if b ≤ seen tp then (.yellow, put tc (tp - b))
    else (.red, put tc tp)

/-! ### Gates (R372 to R377) -/

/-- Gates of port x, 16 side + n. -/
def State.gate (s : State) (x : Nat) : GatePort := tget GatePort.reset s.sector.gates x
/-- Replace the gates of a port. -/
def State.setGate (s : State) (x : Nat) (g : GatePort) : State :=
  s.withSector { s.sector with gates := tput GatePort.reset s.sector.gates x g }
/-- SECTOR_GATE_CFG_x.ENABLE. -/
def State.gateOn (s : State) (x : Nat) : Bool := bitOf (s.regN (0x01001000 + 0x20 * x)) 31

/-- The segments of one cycle: gate states, first and end ns, entry number (Table 15.3): entries of interval 0 are skipped, intervals beyond
the cycle are cut, and the last entry is extended to the cycle's end. -/
def segmentsGo (cycle : Nat) : Nat → Nat → List (BitVec 8 × Nat) → List (BitVec 8 × Nat × Nat × Nat)
  | _, _, [] => []
  | i, a, (g, n) :: rest =>
    let last := rest.all (·.2 == 0)
    let b := if last then cycle else min cycle (a + n)
    if n = 0 ∨ cycle ≤ a then segmentsGo cycle (i + 1) a rest else (g, a, b, i) :: segmentsGo cycle (i + 1) b rest

/-- Segments of a list; a list whose intervals are all 0 is its last entry alone. -/
def GateList.segments (l : GateList) : List (BitVec 8 × Nat × Nat × Nat) :=
  if l.entries.all (·.2 == 0) then [((l.entries.getLastD (0, 0)).1, 0, l.cycle, l.entries.length - 1)]
  else segmentsGo l.cycle 0 0 l.entries

/-- Position in the cycle at Gnomon time t (R375). -/
def GateList.pos (l : GateList) (t : Nat) : Nat := (((t : Int) - l.start) % l.cycle).toNat

/-- The segment at time t. -/
def GateList.at_ (l : GateList) (t : Nat) : Option (BitVec 8 × Nat × Nat × Nat) :=
  l.segments.find? fun e => e.2.1 ≤ l.pos t && l.pos t < e.2.2.1

/-- Gate g is open at time t. -/
def GateList.open_ (l : GateList) (g t : Nat) : Bool :=
  match l.at_ t with
  | some e => e.1.toNat.testBit g
  | none => false

/-- Length of the run of segments from the head in which gate g is open. -/
def openLen (g : Nat) : List (BitVec 8 × Nat × Nat × Nat) → Nat
  | [] => 0
  | e :: es => if e.1.toNat.testBit g then (e.2.2.1 - e.2.1) + openLen g es else 0

/-- The segments from the i-th on, one whole cycle. -/
def rotateSegs (es : List (BitVec 8 × Nat × Nat × Nat)) (i : Nat) : List (BitVec 8 × Nat × Nat × Nat) := es.drop i ++ es.take i

/-- Every entry of the list opens gate g. -/
def GateList.always (l : GateList) (g : Nat) : Bool := l.segments.all fun e => e.1.toNat.testBit g

/-- When gate g, open at t, closes: none when it never does (R373). -/
def GateList.closes (l : GateList) (g t : Nat) : Option Nat :=
  if l.always g then none
  else if !l.open_ g t then some t
  else
    let es := l.segments
    let i := es.findIdx fun e => e.2.1 ≤ l.pos t && l.pos t < e.2.2.1
    let base := ((es.drop i).head?.map (·.2.1)).getD 0
    some (t - (l.pos t - base) + openLen g (rotateSegs es i))

/-- The longest open window of gate g, taking wrap into account; none when it never closes (R374). -/
def GateList.longest (l : GateList) (g : Nat) : Option Nat :=
  if l.always g then none
  else some ((List.range l.segments.length).foldl (fun m i => max m (openLen g (rotateSegs l.segments i))) 0)

/-- The armed list, from the start it will have (R377). -/
def GatePort.next (p : GatePort) : Option GateList := p.pend.map fun l => { l with start := p.pstart }

/-- When gate g of a port, looked at from time t, closes; some t where it is closed at t, none where it stays open (R373). -/
def GatePort.closes (p : GatePort) (g t : Nat) : Option Nat :=
  let cur := match p.oper with
    | none => none
    | some l => l.closes g t
  match p.next with
  | some n =>
    if !p.armed then cur
    else if n.start ≤ t then n.closes g t
    else match cur with
      | some e => if e < n.start then some e else if n.open_ g n.start then n.closes g n.start else some n.start
      | none => if n.open_ g n.start then n.closes g n.start else some n.start
  | none => cur

/-- Line rate of a mode in Gbit/s. -/
def modeRate : Nat → Nat
  | 0 => 400 | 1 => 200 | 2 => 100 | 3 => 200 | 4 => 100 | 5 => 100 | 6 => 800 | _ => 400

/-- Line rate of a logical port in Gbit/s. -/
def State.rateOf (s : State) (lp : Nat) : Nat := modeRate (((s.lport lp).mode.map (·.toNat)).getD 0)

/-- D_min and D_max of Table 15.4. -/
def gateD (side : Nat) : Nat × Nat := if side = 0 then (45, 65) else (85, 150)

/-- The port whose gates a logical port uses: the even port of an 800G pair. -/
def gateX (side lp : Nat) : Nat := 16 * side + lp / 4

/-- A head frame of wire length len passes the gate check now (R373). -/
def State.gateFits (s : State) (side lp g len : Nat) : Bool :=
  let x := gateX side lp
  let p := s.gate x
  let (dmin, dmax) := gateD side
  let t := s.gnomon.time + dmin
  let r := s.rateOf (64 * side + lp)
  !s.gateOn x || (match p.closes g t with
    | none => true
    | some e => decide (t < e) &&
      decide (2 ^ 40 * (s.gnomon.time + dmax) * r + s.gnomon.frac * r + 2 ^ 40 * (len * 8) ≤ 2 ^ 40 * e * r))

/-- A frame of wire length len is oversize for its gate (R374). -/
def State.gateOversize (s : State) (side lp g len : Nat) : Bool :=
  let x := gateX side lp
  let (dmin, dmax) := gateD side
  let r := s.rateOf (64 * side + lp)
  s.gateOn x && (match (s.gate x).oper with
    | none => false
    | some l => match l.longest g with
      | none => false
      | some w => decide (w * r < len * 8 + (dmax - dmin) * r))

/-! ### WF2Q+ (R367, R368) -/

/-- A tag at or after another, compared modulo 2^48. -/
def tagLe (a b : Nat) : Bool := (b + 2 ^ 48 - a) % 2 ^ 48 < 2 ^ 47
/-- The later of two tags. -/
def tagMax (a b : Nat) : Nat := if tagLe a b then b else a
/-- The increment of a wire length at a weight. -/
def tagInc (len w : Nat) : Nat := (65536 * len + w - 1) / w

/-- Frames of a queue. -/
def State.sq (s : State) (side q : Nat) : List QEntry := tget [] s.sector.queues (4096 * side + q)
/-- Replace the frames of a queue. -/
def State.setSq (s : State) (side q : Nat) (l : List QEntry) : State :=
  s.withSector { s.sector with queues := tput [] s.sector.queues (4096 * side + q) l }
/-- DEPTH of a queue in cells. -/
def depthOf (l : List QEntry) : Nat := l.foldl (fun n e => n + e.cells) 0

/-- The backlogged queues of a group of a port, ascending. -/
def State.groupQueues (s : State) (side lp g : Nat) : List Nat :=
  (s.sector.queues.filter fun e => e.1 / 4096 == side && qLport (s.srec (qKey side (e.1 % 4096))) == lp &&
    qGroup (s.srec (qKey side (e.1 % 4096))) == g).map (·.1 % 4096)

/-- Wire length at a queue's head. -/
def State.headLen (s : State) (side q : Nat) : Nat := ((s.sq side q).head?.map (·.len)).getD 0

/-- Tag table keys: a group in its priority node, a queue in its group node. -/
def groupTag (side lp g : Nat) : Nat := 8 * (64 * side + lp) + g
/-- As above. -/
def queueTag (side q : Nat) : Nat := 2048 + 4096 * side + q
/-- Virtual time keys. -/
def prioNode (side lp prio : Nat) : Nat := 8 * (64 * side + lp) + prio
/-- As above. -/
def groupNode (side lp g : Nat) : Nat := 2048 + 8 * (64 * side + lp) + g

/-- The start tag of a child. -/
def State.startTag (s : State) (k : Nat) : Option Nat := (tget none s.sector.tags k).map (·.1)

/-- Set or clear a child's tags. -/
def State.setTag (s : State) (k : Nat) (t : Option (Nat × Nat)) : State :=
  s.withSector { s.sector with tags := tput none s.sector.tags k t }

/-- A child's tags from its start tag, its head frame and its weight. -/
def tagsFrom (st len w : Nat) : Nat × Nat := (st % 2 ^ 48, (st + tagInc len w) % 2 ^ 48)

/-- Refresh the finish tag of a backlogged child for its head frame; a child that becomes backlogged starts at V. -/
def State.refreshTag (s : State) (k node len w : Nat) : State :=
  let st := (s.startTag k).getD (tget 0 s.sector.vtime node)
  s.setTag k (some (tagsFrom st len w))

/-- The head frame of a group: that of its lowest-numbered backlogged queue (log entry 44). -/
def State.groupLen (s : State) (side lp g : Nat) : Nat :=
  match s.groupQueues side lp g with
  | [] => 0
  | q :: _ => s.headLen side q

/-- Refresh the tags of a queue and of its group after a change of the queue's head. -/
def State.retag (s : State) (side q : Nat) : State :=
  let r := s.srec (qKey side q)
  let lp := qLport r
  let g := qGroup r
  let s := if s.sq side q = [] ∨ qToken r then s.setTag (queueTag side q) none
    else s.refreshTag (queueTag side q) (groupNode side lp g) (s.headLen side q) (recWeight r)
  let gr := s.srec (gKey side lp g)
  if s.groupQueues side lp g = [] then s.setTag (groupTag side lp g) none
  else s.refreshTag (groupTag side lp g) (prioNode side lp (gPrio gr)) (s.groupLen side lp g) (recWeight gr)

/-- WF2Q+ choice among eligible children given as (number, tag key) in ascending number (R367). -/
def State.wfPick (s : State) (node : Nat) (cs : List (Nat × Nat)) : Option Nat :=
  let v := tget 0 s.sector.vtime node
  let ts := cs.filterMap fun c => (tget none s.sector.tags c.2).map fun t => (c.1, t)
  let ready := ts.filter fun c => tagLe c.2.1 v
  let least := fun (f : Nat × Nat × Nat → Nat) (l : List (Nat × Nat × Nat)) => l.foldl (fun (m : Option (Nat × Nat × Nat)) (c : Nat × Nat × Nat) => match m with
    | none => some c
    | some b => if tagLe (f b) (f c) then some b else some c) none
  let best := match ready with
    | [] => least (fun c => c.2.1) ts
    | _ => least (fun c => c.2.2) ready
  best.map fun c => c.1

/-- After a send of len bytes by child k of a node: its start tag takes its finish tag while it stays backlogged, and V moves on.
`wb` is the sum of the weights backlogged before the send, `others` the keys of the node's backlogged children after it. -/
def State.wfSend (s : State) (node k len w wb : Nat) (still : Bool) (others : List Nat) : State :=
  let st := ((tget none s.sector.tags k).map (·.2)).getD 0
  let s := s.setTag k (if still then some (tagsFrom st len w) else none)
  let v := (tget 0 s.sector.vtime node + tagInc len wb) % 2 ^ 48
  let low := (others.filterMap s.startTag).foldl (fun (m : Option Nat) t => match m with
    | none => some t
    | some b => some (if tagLe b t then b else t)) none
  let v := match low with
    | some t => tagMax v t
    | none => v
  s.withSector { s.sector with vtime := tput 0 s.sector.vtime node v }

/-! ### Admission and the head of a queue -/

/-- Counter instance of a queue. -/
def qInst (side q : Nat) : Nat := 4096 * side + q

/-- Sector, or a later block, discards a frame that asked for a time-stamp before its time-stamp point (R390). -/
def State.notSent (s : State) (side lp : Nat) (id : Option Nat) : State :=
  match id with
  | some id => s.txtsPush (16 * side + lp / 4) (txtsEntry id 0 (lp % 4) 2 0)
  | none => s

/-- Sector drops a queued entry. -/
def State.dropEntry (s : State) (side lp : Nat) (e : QEntry) : State := (s.freeFrame none e.frame).notSent side lp e.tsId

/-- Drop head frames that are oversize for the queue's bucket or gate (R369, R374). -/
def State.trimHead (side q : Nat) : Nat → State → State
  | 0, s => s
  | n + 1, s =>
    match s.sq side q with
    | [] => s
    | e :: rest =>
      let r := s.srec (qKey side q)
      let lp := qLport r
      if qToken r ∧ s.bburst (qKey side q) 0 < e.len then
        State.trimHead side q n (((s.setSq side q rest).dropEntry side lp e).count (cid 0x0A 7 (qInst side q)))
      else if s.gateOversize side lp (qGroup r) e.len then
        let s := ((s.setSq side q rest).dropEntry side lp e).count (cid 0x0A 8 (qInst side q))
        State.trimHead side q n (s.raiseOnce 0x0C2 (qInst side q) (le 2 q))
      else s

/-- A frame has reached the head of a queue. -/
def State.newHead (s : State) (side q : Nat) : State := (State.trimHead side q (s.sq side q).length s).retag side q

/-- SEND_SCI of a logical port as sampled (Table 5.3). -/
def State.sendSci (s : State) (lp : Nat) : Bool := bitOf (s.lport lp).macsec.toNat 20

/-- The wire length that Sector charges a frame of n bytes without FCS (R361): an uncontrolled frame gains no SecTAG. -/
def State.wireLen (s : State) (side lp n : Nat) (unctl : Bool) : Nat :=
  if side = 0 then max 64 (n + 4) + 20 else n + 4 + 20 + if unctl then 0 else if s.sendSci (64 + lp) then 32 else 24

/-- What a frame brings to admission (R362). -/
structure Offer where
  side : Nat
  queue : Nat
  lp : Nat
  yellow : Bool
  fromLine : Bool
  sc : Option Nat
  unctl : Bool
  tsId : Option Nat

/-- Admit a frame whose reference `ref` is held by the party that forwards it, or free that reference (Table 15.1, R457). The answer is
whether it was appended. -/
def State.enter (s : State) (o : Offer) (id : Nat) (ref : Option Nat) : Bool × State :=
  match s.frame id with
  | none => (false, s)
  | some f =>
    let r := s.srec (qKey o.side o.queue)
    let inst := qInst o.side o.queue
    let q := s.sq o.side o.queue
    let charge := f.cells.length
    let s := s.holdFrame id ref none
    let drop := fun (s : State) => (false, (s.freeFrame none id).notSent o.side o.lp o.tsId)
    if o.side = 0 ∧ o.fromLine ∧ s.twin.lease ≠ .active ∧ s.twin.lease ≠ .solo then drop (s.count (cid 0x0A 9 inst))
    else if !qOn r then drop (s.count (cid 0x0A 0 inst))
    else if qLport r ≠ o.lp then drop (s.count (cid 0x0A 1 inst))
    else if !(s.lport (64 * o.side + o.lp)).enabled then drop (s.count (cid 0x0A 2 inst))
    else if !o.yellow ∧ srecWord r 1 % 2 ^ 20 < depthOf q + charge then drop (s.count (cid 0x0A 3 inst))
    else if o.yellow ∧ srecWord r 2 % 2 ^ 20 < depthOf q + charge then drop ((s.count (cid 0x0A 3 inst)).count (cid 0x0A 4 inst))
    else
      let e : QEntry := { frame := id, len := s.wireLen o.side o.lp f.bytes.length o.unctl, cells := charge, sc := o.sc, unctl := o.unctl
                          tsId := o.tsId, at_ := s.gnomon.time }
      let s := (s.setSq o.side o.queue (q ++ [e])).count (cid 0x0A 5 inst)
      let (d, j) := tget (0, 0) s.sector.hwm inst
      let s := s.withSector { s.sector with hwm := tput (0, 0) s.sector.hwm inst (max d (depthOf q + charge), j) }
      (true, if q = [] then s.newHead o.side o.queue else s)

/-! ### Selection (R366) -/

/-- The queue may send its head now, shapers and credit aside. -/
def State.headFree (s : State) (side lp q : Nat) : Bool :=
  let r := s.srec (qKey side q)
  !s.sector.stopped.contains (qInst side q) && s.gateFits side lp (qGroup r) (s.headLen side q)

/-- Token-bucket queue with credit for its head frame (R369). -/
def State.bucketOk (s : State) (side lp q : Nat) : Bool :=
  let k := qKey side q
  qToken (s.srec k) && 0 < s.brate k 0 && decide (units (s.headLen side q) ≤ s.level k 0) && s.headFree side lp q

/-- WF2Q+ queue eligible in a pass. -/
def State.wfqOk (s : State) (side lp : Nat) (committed : Bool) (q : Nat) : Bool :=
  let k := qKey side q
  !qToken (s.srec k) && s.eligible k committed && s.headFree side lp q

/-- Within a group: a token-bucket queue with credit, round-robin, else WF2Q+ (R366). -/
def State.pickQueue (s : State) (side lp g : Nat) (committed : Bool) : Option Nat :=
  let qs := s.groupQueues side lp g
  let last := tget 0 s.sector.lastTb (groupTag side lp g)
  let tb := qs.filter (s.bucketOk side lp)
  match (tb.filter (fun q => last ≤ q)) ++ tb.filter (fun q => q < last) with
  | q :: _ => some q
  | [] => s.wfPick (groupNode side lp g) ((qs.filter (s.wfqOk side lp committed)).map fun q => (q, queueTag side q))

/-- The choice of one pass at one priority: group and queue. -/
def State.pickPrio (s : State) (side lp prio : Nat) (committed : Bool) : Option (Nat × Nat) :=
  let gs := (List.range 8).filter fun g => gPrio (s.srec (gKey side lp g)) == prio && s.eligible (gKey side lp g) committed &&
    (s.groupQueues side lp g).any fun q => s.bucketOk side lp q || s.wfqOk side lp committed q
  match s.wfPick (prioNode side lp prio) (gs.map fun g => (g, groupTag side lp g)) with
  | none => none
  | some g => (s.pickQueue side lp g committed).map fun q => (g, q)

/-- The first choice of a list. -/
def firstSome {α : Type} : List (Option α) → Option α
  | [] => none
  | some a :: _ => some a
  | none :: rest => firstSome rest

/-- Committed pass, then excess pass, priority 7 down to 0, if the port node is excess-eligible (R366). -/
def State.pickFrame (s : State) (side lp : Nat) : Option (Nat × Nat) :=
  if !s.eligible (pKey side lp) false then none
  else
    let prios := (List.range 8).map (7 - ·)
    firstSome (prios.map (fun p => s.pickPrio side lp p true) ++ prios.map (fun p => s.pickPrio side lp p false))

/-- Take the head frame of queue q of group g: shapers, tags, sojourn, and the next head (R365, R367, R378). -/
def State.takeHead (s : State) (side lp g q : Nat) : Option (QEntry × State) :=
  match s.sq side q with
  | [] => none
  | e :: rest =>
    let r := s.srec (qKey side q)
    let gr := s.srec (gKey side lp g)
    let qs := s.groupQueues side lp g
    let wfqs := qs.filter fun q => !qToken (s.srec (qKey side q))
    let wbq := wfqs.foldl (fun n q => n + recWeight (s.srec (qKey side q))) 0
    let gs := (List.range 8).filter fun h => gPrio (s.srec (gKey side lp h)) == gPrio gr && s.groupQueues side lp h ≠ []
    let wbg := gs.foldl (fun n h => n + recWeight (s.srec (gKey side lp h))) 0
    let s := s.take (pKey side lp) 1 e.len
    let s := (s.take (gKey side lp g) 0 e.len).take (gKey side lp g) 1 e.len
    let s := s.take (qKey side q) 0 e.len
    let s := if qToken r then s else s.take (qKey side q) 1 e.len
    let (d, j) := tget (0, 0) s.sector.hwm (qInst side q)
    let j' := max j (min (2 ^ 32 - 1) (s.gnomon.time - e.at_))
    let s := s.withSector { s.sector with hwm := tput (0, 0) s.sector.hwm (qInst side q) (d, j') }
    let s := State.trimHead side q rest.length (s.setSq side q rest)
    let still := s.sq side q ≠ []
    let s := if qToken r then s.withSector { s.sector with lastTb := tput 0 s.sector.lastTb (groupTag side lp g) (q + 1) }
      else s.wfSend (groupNode side lp g) (queueTag side q) e.len (recWeight r) wbq still
        (((wfqs.filter (· != q)) ++ if still then [q] else []).map (queueTag side))
    let stillG := s.groupQueues side lp g ≠ []
    let s := s.wfSend (prioNode side lp (gPrio gr)) (groupTag side lp g) e.len (recWeight gr) wbg stillG
      (((gs.filter (· != g)) ++ if stillG then [g] else []).map (groupTag side lp))
    some (e, s.retag side q)

/-- PORT_DISABLE, or its timeout, discards every frame queued for a logical port (R363). -/
def State.discardPort (s : State) (side lp : Nat) : State :=
  let qs := (s.sector.queues.filter fun e => e.1 / 4096 == side && qLport (s.srec (qKey side (e.1 % 4096))) == lp).map (·.1 % 4096)
  qs.foldl (fun s q =>
    let l := s.sq side q
    let s := (s.setSq side q []).countN (cid 0x0A 6 (qInst side q)) l.length
    (l.foldl (fun s e => s.dropEntry side lp e) s).retag side q) s

end Sys2Proof.Machine
end

