-- ==== Sys2Proof/Machine/RadiusOps.lean ====
section
/-! DEFINITION. The operations of Radius: its tables in HBM, the frames it originates, its output, the ends of its items (chapter 12). -/

namespace Sys2Proof.Machine

/-- Replace the Radius state. -/
def State.withRadius (s : State) (r : RadiusState) : State := { s with radius := r }

/-- Count a Radius counter for the whole and, where a group is known, for the group (R310, R519). -/
def State.rcount (s : State) (n : Nat) (g : Option Nat) : State :=
  let s := s.count (cid 0x06 n 0)
  match g with
  | some g => s.count (cid 0x06 n (1 + g))
  | none => s

/-- A record of the area that fails integrity: counted and reported with the identifier (R309, Table 12.19). -/
def State.recordBad (s : State) (id : Nat) : State := (s.rcount 21 none).raise 0x1CB (le 8 id)

/-! ### Tables in HBM (Table 12.1, R283) -/

/-- The four parts of the area that hold tables: index and records of sensors, then of gateways. -/
def tableBase (gw : Bool) : Nat × Nat := if gw then (0x240000000, 0x241000000) else (0, 0x40000000)

/-- Buckets of a table. -/
def tableBuckets (gw : Bool) : Nat := if gw then 2 ^ 18 else 2 ^ 24

/-- First address of the area as sampled (R282). -/
def State.radBase (s : State) : Nat := 2 ^ 30 * s.radius.base

/-- Address of an index line. -/
def State.idxAddr (s : State) (gw : Bool) (b : Nat) : Nat := (tableBase gw).1 + (s.radBase + 64 * b)

/-- Address of a record by slot. -/
def State.recAddr (s : State) (gw : Bool) (slot : Nat) : Nat := (tableBase gw).2 + (s.radBase + 64 * slot)

/-- Bucket h1 or h2 of an identifier (R283): the keyed hashes are not given. -/
def State.radBucket (s : State) (gw : Bool) (which id : Nat) : Nat :=
  Config.bucketHash (if gw then 2 else 1) which s.radius.seed.toNat id % tableBuckets gw

/-- What reading the area finds. -/
inductive Area (α : Type) where
  | found (a : α) | absent | bad
  deriving DecidableEq, Repr

/-- Read 64 bytes of the area. A refused read finds nothing that may be used, as one that fails (log entry 76). -/
def State.areaRead (s : State) (addr : Nat) : Option (List Byte) × State :=
  match s.readMem .radius 224 addr 64 with
  | (.data bs, s) => (some bs, s)
  | (_, s) => (none, s)

/-- Write to the area. -/
def State.areaWrite (s : State) (addr : Nat) (bs : List Byte) : State := (s.writeMem .radius 224 addr bs).2

/-- The identifiers of an index line. -/
def idsOf (line : List Byte) : List Nat := (List.range 8).map fun i => leAt line (8 * i) 8

/-- Position of a value in a list. -/
def posOf (v : Nat) (l : List Nat) : Option Nat := (l.zipIdx.find? fun (e : Nat × Nat) => e.1 == v).map (·.2)

/-- Look an identifier up in one bucket. -/
def State.findIn (s : State) (gw : Bool) (b id : Nat) : Area Nat × State :=
  match s.areaRead (s.idxAddr gw b) with
  | (none, s) => (.bad, s)
  | (some l, s) => match posOf id (idsOf l) with
    | some i => (.found (8 * b + i), s)
    | none => (.absent, s)

/-- The slot of an identifier (R283): bucket h1, then h2. -/
def State.findSlot (s : State) (gw : Bool) (id : Nat) : Area Nat × State :=
  if id = 0 then (.absent, s)
  else match s.findIn gw (s.radBucket gw 0 id) id with
    | (.absent, s) => s.findIn gw (s.radBucket gw 1 id) id
    | r => r

/-- Look a record up: its slot and its 64 bytes. -/
def State.findRecord (s : State) (gw : Bool) (id : Nat) : Area (Nat × List Byte) × State :=
  match s.findSlot gw id with
  | (.absent, s) => (.absent, s)
  | (.bad, s) => (.bad, s)
  | (.found k, s) => match s.areaRead (s.recAddr gw k) with
    | (none, s) => (.bad, s)
    | (some r, s) => (.found (k, r), s)

/-- Set the identifier of a slot in its index line; 0 marks it free. -/
def State.setIndex (s : State) (gw : Bool) (slot id : Nat) : State :=
  s.areaWrite (s.idxAddr gw (slot / 8) + 8 * (slot % 8)) (le 8 id)

/-- Write a record into its slot and index line. -/
def State.putRecord (s : State) (gw : Bool) (slot : Nat) (rec : List Byte) : State :=
  (s.areaWrite (s.recAddr gw slot) rec).setIndex gw slot (leAt rec 0 8)


/-! ### Records (Tables 12.2 and 12.3) -/

/-- FLAGS of a sensor record. -/
def recFlags (r : List Byte) : Nat := leAt r 0x0A 2
/-- GROUP of a sensor record. -/
def recGroup (r : List Byte) : Nat := leAt r 8 2 % 4096
/-- VALID of a gateway record. -/
def gwValid (r : List Byte) : Bool := bitOf (leAt r 8 1) 0
/-- RETIRED of a gateway record. -/
def gwRetired (r : List Byte) : Bool := bitOf (leAt r 8 1) 4

/-- Group parameters (Table 12.4). -/
def State.group (s : State) (g : Nat) : Nat := (tget 0 s.radius.groups g).toNat
/-- ENABLE, RECEPTIONS, OUTPUT, TAG8 of a group are bits 0 to 3. -/
def State.groupOn (s : State) (g : Nat) : Bool := bitOf (s.group g) 0
/-- DL_BUDGET; 0 selects 256. -/
def State.budget (s : State) (g : Nat) : Nat :=
  let v := bits (s.group g) 64 16
  if v = 0 then 256 else v

/-! ### Frames that Radius originates (R290, R302, R306) -/

/-- The sum of 16-bit big-endian words. -/
def inetWords (bs : List Byte) : Nat := ((List.range ((bs.length + 1) / 2)).map fun i => beAt bs (2 * i) 2).sum

/-- The ones' complement of a ones' complement sum. -/
def inetSum (n : Nat) : Nat :=
  let f := fun (x : Nat) => x % 65536 + x / 65536
  65535 - f (f (f n))

/-- A UDP datagram, its checksum over the given pseudo-header (RFC 768, RFC 8200). -/
def udp (pseudo : List Byte) (src dst : Nat) (body : List Byte) : List Byte :=
  let n := body.length + 8
  let head := fun (c : Nat) => be 2 src ++ be 2 dst ++ be 2 n ++ be 2 c
  let c := inetSum (inetWords (pseudo ++ be 2 17 ++ be 2 n) + inetWords (head 0 ++ body))
  head (if c = 0 then 65535 else c) ++ body

/-- The frame of a datagram on route r (48 bytes of R508): header fields that the spec does not give are free (log entry 78). -/
def State.radFrame (s : State) (r dstIp dstPort : Nat) (body : List Byte) : List Byte × State :=
  let v6 := bitOf r 9
  let src := bits r 96 128
  let port := s.regN 0x03001004 % 65536
  let eth := be 6 (bits r 32 48) ++ be 6 (bits r 224 48) ++ (if bitOf r 8 then be 2 0x8100 ++ be 2 (bits r 80 16) else [])
  if v6 then
    let (fl, s) := s.draw 28
    let (hop, s) := s.draw 8
    let u := udp (be 16 src ++ be 16 dstIp) port dstPort body
    (eth ++ be 2 0x86DD ++ be 4 (2 ^ 28 * 6 + fl) ++ be 2 u.length ++ [17#8, BitVec.ofNat 8 hop] ++ be 16 src ++ be 16 dstIp ++ u, s)
  else
    let (tos, s) := s.draw 8
    let (ident, s) := s.draw 16
    let (df, s) := s.draw 1
    let (ttl, s) := s.draw 8
    let a := be 4 (src % 2 ^ 32) ++ be 4 (dstIp % 2 ^ 32)
    let u := udp a port dstPort body
    let head := fun (c : Nat) => [0x45#8, BitVec.ofNat 8 tos] ++ be 2 (20 + u.length) ++ be 2 ident ++ be 2 (0x4000 * df) ++
      [BitVec.ofNat 8 ttl, 17#8] ++ be 2 c ++ a
    (eth ++ be 2 0x0800 ++ head (inetSum (inetWords (head 0))) ++ u, s)

/-- The transmit secure channel that LOCUS_PORT_DEFAULT names for an egress logical port (log entry 78). -/
def State.defaultSc (s : State) (lp : Nat) : Option Nat :=
  let d := s.regN (0x00C00404 + 8 * lp)
  if 64 ≤ lp ∧ bitOf d 31 then some (d % 2 ^ 17) else none

/-- Send a datagram on a route: its frame takes cells charged to Radius and is offered to the route's Sector queue (R290, R342, R345). One
that finds no cells is not sent (R343). -/
def State.radSend (s : State) (r dstIp dstPort : Nat) (body : List Byte) : Bool × State :=
  let lp := r % 128
  let (bytes, s) := s.radFrame r dstIp dstPort body
  let f : TFrame := { id := 0, bytes := bytes, fcs := none, keep := 0, cells := [], pool := 0, charge := 224, refs := [], lp := lp, cut := false, stamp := 0
                      unctl := false, sa := none }
  match s.allocFrame 224 f with
  | (none, s) => (false, s)
  | (some id, s) =>
    let o : Offer := { side := lp / 64, queue := bits r 16 12, lp := lp % 64, yellow := false, fromLine := false, sc := s.defaultSc lp
                       unctl := false, tsId := none }
    (true, (s.enter o id (some 224)).2)

/-- A batch header (Table 12.5). -/
def batchHead (ver type count gw seq : Nat) : List Byte :=
  [BitVec.ofNat 8 ver, BitVec.ofNat 8 type] ++ be 2 count ++ be 8 gw ++ be 4 seq ++ (if ver = 2 then List.replicate 8 0#8 else [])

/-- A route as it stands. -/
def State.routeOf (s : State) (r : Nat) : BitVec 384 := tget 0 s.radius.routes r

/-- Send a batch to the gateway whose record is given (Tables 12.3 and 12.5), on its route as it stands (log entry 166). -/
def State.sendToGateway (s : State) (gw : List Byte) (type count seq : Nat) (body : List Byte) : Bool × State :=
  s.radSend (s.routeOf (leAt gw 0x1E 1)).toNat (leAt gw 0x0C 16) (leAt gw 0x1C 2) (batchHead (leAt gw 9 1) type count (leAt gw 0 8) seq ++ body)

/-! ### Reading records (R302, R303) -/

/-- Lengths of the header fields of a reading record (Table 12.13a). -/
def readingFields : List Nat := [2, 1, 1, 4, 8, 8, 4, 2, 1, 1, 4, 6, 1, 1, 1, 1, 2]

/-- Turn the header fields of a record from little-endian to wire order (R7). -/
def wireOrder : List Nat → List Byte → List Byte
  | [], bs => bs
  | n :: ns, bs => (bs.take n).reverse ++ wireOrder ns (bs.drop n)

/-- The route that parameters name (Table 12.4). -/
def State.groupRoute (s : State) (p : BitVec 256) : BitVec 384 := s.routeOf (bits p.toNat 80 8)

/-- Send a READING_BATCH (R302): version 2, gateway ID 0 (log entry 75). One that finds no cells is filled no more and stays for the next
READING_BATCH_FLUSH, so that no reading is lost (R303, log entry 77). -/
def State.sendReadings (s : State) (d : Datagram) : State :=
  let p := d.params.toNat
  let (ok, s) := s.radSend d.route.toNat (bits p 96 128) (bits p 224 16)
    (batchHead 2 6 d.records.length 0 s.radius.batchSeq.toNat ++ d.records.flatten)
  if ok then s.withRadius { s.radius with datagrams := s.radius.datagrams.erase d, batchSeq := s.radius.batchSeq + 1 }
  else s.withRadius { s.radius with datagrams := s.radius.datagrams.map fun x => if x = d then { x with closed := true } else x }

/-- The reading queue and whether it takes n more entries: a ping-pong queue of 64-byte entries (R303, Table 12.16). -/
def State.readingRoom (s : State) (n : Nat) : Bool :=
  let q := s.regN 0x03001008 % 65536
  q < 256 && (s.aq q).open_ && (s.aq q).ping && (s.aq q).entry == 64 && (s.aq q).fits n

/-- Split bytes into n pieces of 64. -/
def pieces64 : Nat → List Byte → List (List Byte)
  | 0, _ => []
  | n + 1, bs => bs.take 64 :: pieces64 n (bs.drop 64)

/-- Put a record of 64, 128 or 192 bytes into the reading queue, leaving `keep` entries that others have reserved; a status record that
finds no room is lost (R303, log entry 77). -/
def State.toReadingQueue (s : State) (keep : Nat) (rec : List Byte) : State :=
  let n := rec.length / 64
  if s.readingRoom (keep + n) then s.annPut (s.regN 0x03001008 % 65536) (pieces64 n rec) else s

/-- Running uplink items, each with three output entries reserved (R295). -/
def State.reservedOut (s : State) : Nat :=
  3 * (s.radius.items.filter fun i => i.up && i.thr.isSome && !bitOf i.params.toNat 2).length

/-- Bytes of records in a datagram. -/
def Datagram.bytes (d : Datagram) : Nat := (d.records.map (·.length)).sum

/-- A datagram has no room for a record of n bytes (R302). -/
def Datagram.full (d : Datagram) (n : Nat) : Bool := 8192 < 24 + d.bytes + n || 255 ≤ d.records.length

/-- The datagram being filled for a group. -/
def State.openDatagram (s : State) (g : Nat) : Option Datagram := s.radius.datagrams.find? fun d => d.group == g && !d.closed

/-- Emit a reading record for group g where the OUTPUT of its parameters says (R290, R302). Records with other parameters than the datagram
being filled go into one of their own. -/
def State.outRecord (s : State) (g : Nat) (params : BitVec 256) (route : BitVec 384) (keep : Nat) (rec : List Byte) : State :=
  if !bitOf params.toNat 2 then s.toReadingQueue keep rec
  else
    let s := match s.openDatagram g with
      | some d => if d.full rec.length || d.params != params || d.route != route then s.sendReadings d else s
      | none => s
    let due := s.clk + 10000 * (bits (s.regN 0x03001008) 16 8)
    let new : Datagram := { group := g, params := params, route := route, closed := false, records := [], due := due }
    let d0 := (s.openDatagram g).getD new
    let d : Datagram := { d0 with records := d0.records ++ [wireOrder readingFields rec] }
    let s := s.withRadius { s.radius with datagrams := s.radius.datagrams.erase d0 ++ [d] }
    if d.full 64 then s.sendReadings d else s

/-- Emit a status record for group g as it stands. -/
def State.outStatus (s : State) (g : Nat) (rec : List Byte) : State :=
  let p := tget 0 s.radius.groups g
  s.outRecord g p (s.groupRoute p) s.reservedOut rec

/-- Output space for one more uplink item whose group has parameters p (R295, R303): three entries, or a datagram buffer. -/
def State.outputRoom (s : State) (g : Nat) (p : BitVec 256) : Bool :=
  if bitOf p.toNat 2 then
    (s.openDatagram g).isSome || decide (s.radius.datagrams.length +
      (s.radius.items.filter fun i => i.up && i.thr.isSome && bitOf i.params.toNat 2).length ≤ Config.datagramBuffers)
  else s.readingRoom (s.reservedOut + 3)

/-- A kind-3 record: a downlink status (Table 12.13a). -/
def statusRecord (status counter : Nat) (sensor appTag : BitVec 64) (gateway group window : Nat) : List Byte :=
  le 2 64 ++ [3#8, BitVec.ofNat 8 status] ++ le 4 counter ++ le 8 sensor.toNat ++ le 8 appTag.toNat ++ le 4 gateway ++ le 2 group ++
    le 2 0 ++ le 4 (window % 1000000000) ++ le 6 (window / 1000000000) ++ List.replicate 22 0#8

/-! ### Record locks (R296) -/

/-- The lock of a record slot, while its lease runs. -/
def State.recLock (s : State) (slot : Nat) : Option RecLock :=
  match s.radius.locks.lookup slot with
  | some l => if s.clk < l.due then some l else none
  | none => none

/-- Release a record lock that an owner holds. -/
def State.recUnlock (s : State) (slot owner : Nat) : State :=
  match s.radius.locks.lookup slot with
  | some l => if l.owner = owner then s.withRadius { s.radius with locks := tdel s.radius.locks slot } else s
  | none => s

/-! ### Ends of items -/

/-- An item of a batch has reached its disposition; a batch that asked for an ACK stays until BATCH_ACK answers it (R292). -/
def State.batchDone (s : State) (id : Nat) : State :=
  let bs := s.radius.batches.map fun (x : RBatch) => if x.id = id then { x with left := x.left - 1 } else x
  s.withRadius { s.radius with batches := bs.filter fun x => x.left != 0 || x.ack.isSome }

/-- The item of a name. -/
def State.ritem (s : State) (id : Nat) : Option RItem := s.radius.items.find? (·.id == id)

/-- Change the item of a name. -/
def State.modRItem (s : State) (id : Nat) (f : RItem → RItem) : State :=
  let l := s.radius.items.map fun i => if i.id = id then f i else i
  s.withRadius { s.radius with items := l }

/-- The derivation of an item has ended: the generation of its group root is no longer in use (R72). -/
def State.endRoot (s : State) (id : Nat) : State :=
  match s.ritem id with
  | some i => match i.root with
    | some g => (s.modRItem id fun i => { i with root := none }).opEnd (slotKey 1 i.group) g
    | none => s
  | none => s

/-- Key cache set of a sensor. The spec gives no set function (log entry 80). -/
def keySet (sensor : BitVec 64) : Nat := Config.bucketHash 3 0 0 sensor.toNat % 8192

/-- A cache entry that was reserved for an item and got no key is free again. -/
def State.unreserve (s : State) (i : RItem) : State :=
  let k := keySet i.sensor
  let l := (tget [] s.radius.keys k).filter fun x => !(x.item == i.id && x.key == none)
  s.withRadius { s.radius with keys := tput [] s.radius.keys k l }

/-- A work item is disposed of: its derivation ends, and the store slot of a downlink that emitted no record is free again (R306). -/
def State.endRItem (s : State) (id : Nat) : State :=
  match s.ritem id with
  | none => s
  | some i =>
    let s := (s.endRoot id).unreserve i
    let keep := fun (e : StoreEntry) => e.id != id || e.held.isSome || e.record != []
    (s.withRadius { s.radius with items := s.radius.items.filter (·.id != id), store := s.radius.store.filter keep }).batchDone i.batch

/-! ### The downlink store (R306, Table 12.1) -/

/-- Address of a place of the store. -/
def State.storeAddr (s : State) (place : Nat) : Nat := 0x249000000 + (s.radBase + 256 * place)

/-- The lowest free place of the store. -/
def State.freePlace (s : State) : Nat :=
  ((List.range (s.radius.store.length + 1)).find? fun p => !s.radius.store.any (·.place == p)).getD 0

/-- An entry is written at its place. The spec gives no layout of an entry, so its 256 bytes are free (log entry 167). -/
def State.storeWrite (s : State) (place : Nat) : State :=
  let (v, s) := s.draw 2048
  s.areaWrite (s.storeAddr place) (be 256 v)

/-- An entry enters the store. -/
def State.storePut (s : State) (e : StoreEntry) : State :=
  (s.withRadius { s.radius with store := s.radius.store ++ [e] }).storeWrite e.place

/-- Read an entry of the store: one that fails integrity is counted and reported (R309). -/
def State.storeRead (s : State) (e : StoreEntry) : Bool × State :=
  match s.readMem .radius 224 (s.storeAddr e.place) 256 with
  | (.data _, s) => (true, s)
  | (_, s) => (false, s.recordBad e.sensor.toNat)

end Sys2Proof.Machine
end

