-- ==== Sys2Proof/Machine/VertexOps.lean ====
section
/-! DEFINITION. Threads, instruction words, issue, waits, faults and the reorder slots of work items (chapters 8 to 10). -/

namespace Sys2Proof

/-- Global thread number: 8 engine + thread. -/
def Tid.num (t : Tid) : Nat := 8 * t.eng.val + t.thr.val
/-- The cluster of a thread: Prism 0-15 or Radius 16. -/
def Tid.cl (t : Tid) : Nat := min 16 (t.num / 128)
/-- The thread within its cluster: 8 engine + thread. -/
def Tid.key (t : Tid) : Nat := t.num - 128 * t.cl

end Sys2Proof

namespace Sys2Proof.Machine

/-! ### Clusters and threads -/

/-- Cluster c: Prism 0-15, Radius 16. -/
def State.cluster (s : State) (c : Nat) : Cluster := tget Cluster.reset s.vertex.clusters c

/-- Replace a cluster. -/
def State.setCluster (s : State) (c : Nat) (x : Cluster) : State :=
  { s with vertex := { s.vertex with clusters := tput Cluster.reset s.vertex.clusters c x } }

/-- Thread k of cluster c. -/
def State.thread (s : State) (c k : Nat) : Thread := tget Thread.reset (s.cluster c).threads k

/-- Replace a thread. -/
def State.setThread (s : State) (c k : Nat) (x : Thread) : State :=
  s.setCluster c { s.cluster c with threads := tput Thread.reset (s.cluster c).threads k x }

/-- Change a thread. -/
def State.modThread (s : State) (c k : Nat) (f : Thread → Thread) : State := s.setThread c k (f (s.thread c k))

/-- The owner ID of a thread (R213). -/
def vOwner (c k : Nat) : Nat := 0x1000 + 128 * c + k

/-- Threads of a cluster (Table 9.1). -/
def threadCount (c : Nat) : Nat := if c = 16 then 256 else 128

/-- Offset of a cluster's registers (chapters 8 and 9). -/
def clusterBase (c : Nat) : Nat := if c = 16 then 0x03000000 else 0x02000000 + 0x100000 * c

/-- Instructions of a half of instruction memory (R276). -/
def halfSize (c : Nat) : Nat := if c = 16 then 8192 else 4096

/-- The image in a half. -/
def Cluster.half (x : Cluster) (high : Bool) : Option Image := if high then x.hi else x.low

/-- Instruction count of the image a thread runs. -/
def State.count_ (s : State) (c : Nat) (high : Bool) : Nat := (((s.cluster c).half high).map (·.count)).getD 0

/-- The instruction word at an index of a half; instruction memory that no image fills holds all ones (R245). -/
def State.fetch (s : State) (c : Nat) (high : Bool) (pc : Nat) : BitVec 64 :=
  match (s.cluster c).half high with
  | some im => tget (BitVec.allOnes 64) im.words pc
  | none => BitVec.allOnes 64

/-! ### Registers (R212, R242) -/

/-- g register n; g0 reads 0. -/
def Thread.gr (t : Thread) (n : Nat) : BitVec 64 := if n = 0 then 0 else tget 0 t.g n
/-- b register n. -/
def Thread.br (t : Thread) (n : Nat) : BitVec 128 := tget 0 t.b n
/-- p register n; p0 reads 1. -/
def Thread.pr (t : Thread) (n : Nat) : Bool := n == 0 || tget false t.p n
/-- Write g register n; a write to g0 is discarded. -/
def Thread.setG (t : Thread) (n : Nat) (v : BitVec 64) : Thread := if n = 0 then t else { t with g := tput 0 t.g n v }
/-- Write b register n. -/
def Thread.setB (t : Thread) (n : Nat) (v : BitVec 128) : Thread := { t with b := tput 0 t.b n v }
/-- Write p register n; a write to p0 is discarded. -/
def Thread.setP (t : Thread) (n : Nat) (v : Bool) : Thread := if n = 0 then t else { t with p := tput false t.p n v }

/-- The guard of an instruction is true (R241). -/
def Thread.guardOk (t : Thread) (i : Ins) : Bool := t.pr i.guard != i.inv

/-! ### Work items of a Prism -/

/-- Prism n. -/
def State.unit (s : State) (n : Nat) : PrismUnit := tget PrismUnit.reset s.prism.units n

/-- Replace a Prism. -/
def State.setUnit (s : State) (n : Nat) (u : PrismUnit) : State :=
  { s with prism := { s.prism with units := tput PrismUnit.reset s.prism.units n u } }

/-- The item of an arrival number in Prism n, among its items or those discarded under a thread that still runs (R208). -/
def State.item (s : State) (n q : Nat) : Option Item := ((s.unit n).ghosts ++ (s.unit n).items).find? (·.seq == q)

/-- Change an item. -/
def State.modItem (s : State) (n q : Nat) (f : Item → Item) : State :=
  let u := s.unit n
  let g := fun (i : Item) => if i.seq = q then f i else i
  let items := u.items.map g
  let ghosts := u.ghosts.map g
  s.setUnit n { u with items := items, ghosts := ghosts }

/-- The item of thread k of Prism n. -/
def State.itemOf (s : State) (n k : Nat) : Option Item :=
  match (s.thread n k).item with
  | some q => s.item n q
  | none => none

/-- An operation of an association ends: retirement no longer waits for it (R98). -/
def State.saLeave (s : State) (h : Option Nat) : State :=
  match h with
  | some h => let a := s.sa h; s.setSa h { a with inFlight := a.inFlight - 1 }
  | none => s

/-- Zeros over an item's staging, whose lines are free again (R200). -/
def Item.zeroed (i : Item) : Item := { i with bytes := List.replicate i.bytes.length 0, lines := 0 }

/-- Sector stops the queues that supplied parked frames (R118, R266). -/
def State.restop (s : State) : State :=
  let qs := s.prism.units.flatMap fun (e : Nat × PrismUnit) => e.2.parked.map fun p => 4096 + p.item.queue
  s.withSector { s.sector with stopped := qs }

/-- Prism n frees the Tessera frame of a transmit item that will not leave, and its time-stamp request is answered (R342, R390). -/
def State.freeItem (s : State) (n : Nat) (i : Item) : State :=
  match i.frame with
  | some f => (s.freeFrame (some (128 + n)) f).notSent 1 i.lp i.tsId
  | none => s

/-- A parked frame is dropped and counted in statistic i of its association. -/
def State.dropParked (s : State) (n i : Nat) (p : Parked) : State :=
  let u := s.unit n
  let s := s.setUnit n { u with parked := u.parked.filter fun x => x.item.seq != p.item.seq }
  ((s.stat p.item.handle i 1).freeItem n p.item).restop

/-- An item's reorder slot is marked as dropped and its staging zeroised (R200, R227). A frame discarded under its thread is gone. -/
def State.dropSlot (s : State) (n q : Nat) : State :=
  match s.item n q with
  | none => s
  | some i =>
    let s := (s.saLeave i.sa).freeItem n i
    let s := s.modItem n q fun i =>
      let z := i.zeroed
      { z with stage := .dropped, sa := none, frame := none, tsId := none }
    s.setUnit n { s.unit n with ghosts := (s.unit n).ghosts.filter (·.seq != q) }

/-- A staging parity error of an item (R200): counted per Prism, reported with the direction and the line. -/
def State.parityError (s : State) (n : Nat) (i : Item) (line : Nat) : State :=
  let s := s.count (cid 0x04 2 (4 * n))
  let off := 0x0200000C + 0x100000 * n
  let old := s.regN off % 8
  let s := s.setReg off (BitVec.ofNat 32 (65536 * (line % 4096) + (old ||| (if i.recv then 2 else 1))))
  s.raise 0x140 ([BitVec.ofNat 8 n, BitVec.ofNat 8 (b2n i.recv)] ++ le 2 line)

/-- The work-item bytes a thread addresses: staging, or the 512-byte buffer of Radius (R251, R252). -/
def State.frameBytes (s : State) (c k : Nat) : List Byte :=
  match (s.thread c k).item with
  | none => []
  | some q =>
    if c = 16 then ((s.ritem q).map (·.buf)).getD []
    else ((s.item c q).map (·.bytes)).getD []

/-- Write work-item bytes. -/
def State.setFrame (s : State) (c k off : Nat) (v : List Byte) : State :=
  match (s.thread c k).item with
  | none => s
  | some q =>
    if c = 16 then s.modRItem q fun i => { i with buf := patch i.buf off v }
    else s.modItem c q fun i => { i with bytes := patch i.bytes off v }

/-- Read work-item bytes. -/
def State.frameGet (s : State) (c k off n : Nat) : List Byte := slice (s.frameBytes c k) off n

/-! ### Ends of an operation and of a thread's work (R222, R254, R258) -/

/-- Threads that yielded to thread k need wait for it no more: it has issued, or it has left the engine's turn (R263). -/
def State.unyield (s : State) (c k : Nat) : State :=
  let x := s.cluster c
  s.setCluster c { x with threads := x.threads.map fun (e : Nat × Thread) =>
    if e.1 / 8 = k / 8 then (e.1, { e.2 with yield := e.2.yield.filter (· != k % 8) }) else e }

/-- A thread's operation ends: its key operation, its untaken capture and its context lock (R72, R254, R258). -/
def State.endOp (s : State) (c k : Nat) (unlock : Bool) : State :=
  let t := s.thread c k
  match t.op with
  | none => s
  | some o =>
    let a := s.sa o.handle
    let s := match o.key with
      | some (slot, gen, _, _) =>
        let s := if !a.recv && t.pn.isNone then s.untake o.handle else s
        s.opEnd slot gen
      | none => s
    let s := if unlock && o.locked then s.freeLock o.handle (vOwner c k) else s
    s.modThread c k fun t => { t with op := none }

/-- A thread returns to IDLE with nothing of its item left in it. -/
def State.idle (s : State) (c k : Nat) : State :=
  (s.unyield c k).modThread c k fun t => { t with
    mode := .idle, item := none, op := none, pn := none, pnAsked := false, acc := [], begun := [], descs := [], results := []
    reads := [], failed := false, yield := [] }

/-! ### Waits (Table 9.2, R243) -/

/-- Registers whose results have not come: those of results, and predicates that a TAGCMP has yet to write (R243, R261). -/
def Thread.pending (t : Thread) : List VReg :=
  t.results.flatMap (·.regs) ++ t.descs.filterMap fun d => d.pred.map fun p => VReg.p p.1

/-- Two byte ranges overlap. -/
def overlap (x y : Nat × Nat) : Bool := x.1 < y.1 + y.2 && y.1 < x.1 + x.2

/-- The frame range of FGET, FPUT, FGETB, FPUTB (R251). -/
def Ins.frameRange (i : Ins) (t : Thread) : Nat × Nat :=
  (((t.gr i.a) + BitVec.ofNat 64 (bits i.ext 0 16)).toNat, if i.op = 0x62 ∨ i.op = 0x63 then 16 else accessSize (bits i.ext 16 3))

/-- The association that SALOAD resolves (R220): for a MACsec transmit frame the current one of the named association's secure channel. -/
def State.resolve (s : State) (transmit : Bool) (h : Nat) : Option Nat :=
  let a := s.sa h
  if !transmit || a.facet then some h
  else (s.assoc.ctx.find? fun (e : Nat × Assoc) =>
    !e.2.recv && e.2.current && e.2.status != .free && e.2.sci == a.sci && e.2.lp == a.lp && a.status != .free).map (·.1)

/-- The operation of a Prism item is a transmit one. -/
def Item.transmit (i : Item) : Bool := !i.recv

/-- An item that arrived in Prism c before item `me` and belongs to association h has neither taken its value nor reached its disposition
(R256): its thread's SALOAD resolved that association, or has not run yet and the item's channel is the same. -/
def State.earlierThan (s : State) (c : Nat) (me : Item) (h : Nat) : Bool :=
  (s.unit c).items.any fun i =>
    i.seq < me.seq && i.kind == me.kind && !i.recv && (match i.stage with
      | .waiting => (s.resolve true i.handle) == some h
      | .running j => match (s.thread c j).op with
        | some p => p.handle == h && (s.thread c j).pn.isNone
        | none => (s.thread c j).item == some i.seq && (s.resolve true i.handle) == some h
      | _ => false)

/-- A thread's PNTAKE waits for an earlier-arriving frame (R256). -/
def State.earlier (s : State) (c k : Nat) : Bool :=
  match s.itemOf c k, (s.thread c k).op with
  | some me, some o => s.earlierThan c me o.handle
  | _, _ => false

/-- Opcodes that act as a verify fence (R225, R226). -/
def isFence (op : Nat) : Bool := op == 0x5F || op == 0xB0 || op == 0xB8 || op == 0x51 || op == 0x53

/-- The thread's next instruction must wait (Table 9.2, R225, R226, R243, R252, R254, R256, R261). -/
def State.mustWait (s : State) (c k : Nat) (i : Ins) : Bool :=
  let t := s.thread c k
  let p := t.pending
  (i.reads ++ i.writes).any p.contains || (t.guardOk i && (
    (isFence i.op && t.reads != []) ||
    (unitClass i.op == .x && 8 ≤ t.descs.length) ||
    (i.op == 0xA4 && bits i.ext 0 4 < t.descs.length) ||
    ((i.op == 0x60 || i.op == 0x62) && t.descs.any fun d => d.writes.any (overlap (i.frameRange t))) ||
    ((i.op == 0x61 || i.op == 0x63) && t.descs.any fun d => (d.writes ++ d.reads).any (overlap (i.frameRange t))) ||
    (i.op == 0x70 && bitOf i.ext 0 && (match s.itemOf c k with
      | some it =>
        let h := (t.gr i.a).toNat % 2 ^ 17
        match s.lockOwner ((s.resolve it.transmit h).getD h) with
        | some o => o != vOwner c k
        | none => false
      | none => false)) ||
    (i.op == 0x71 && s.earlier c k)))

/-- Every WAITING thread of a cluster whose awaited result has come becomes READY (Table 9.2). -/
def State.wake (s : State) (c : Nat) : State :=
  ((s.cluster c).threads.filter fun (e : Nat × Thread) => e.2.mode == .waiting).foldl (fun s (e : Nat × Thread) =>
    let t := s.thread c e.1
    if t.mode ≠ .waiting ∨ s.mustWait c e.1 (Ins.of (s.fetch c t.high t.pc)) then s else s.modThread c e.1 fun t => { t with mode := .ready }) s

/-! ### Chunks of CRYPTO_BLOCK (R74, R206) -/

/-- A CRYPTO_BLOCK that ends (R74, R206): its output is written back, and it completes with the count of blocks done. -/
def State.cryptoEnd (s : State) (n : Nat) (r : CryptoRun) (st : Status) : State :=
  let u := s.unit n
  let s := s.setUnit n { u with crypto := u.crypto.filter fun x => x.desc != r.desc }
  if r.out = [] then s.complete r.desc { status := st, r0 := r.done }
  else s.writeBufDone r.desc .annulus (r.desc.get 0x18 8) r.out { status := st, r0 := r.done }

/-- Where the data of a CRYPTO_BLOCK chunk lies in its staging: after OP and the counter template, one slice each (log entry 60). -/
def chunkData : Nat := 32

/-- Why the next chunk of a CRYPTO_BLOCK does not start: a slot whose generation has changed since the first chunk, or whose key has become
INVALID, ends it with KEY_CHANGED (R74, log entry 154); before the first chunk a slot without a usable key is SLOT_EMPTY (log entry 66), and
one without the usage BAD_USAGE (R64). -/
def State.chunkStatus (s : State) (slot : Nat) (r : CryptoRun) : Option Status :=
  let x := s.slot slot
  match r.gen with
  | some g => if x.gen ≠ g ∨ !s.usable slot then some .keyChanged else none
  | none =>
    if !s.usable slot then some .slotEmpty
    else if !x.act.block ∨ (r.desc.get 0x0C 1 = 1 ∧ !x.act.dec) then some .badUsage else none

/-- The next chunk of a CRYPTO_BLOCK becomes an item of its Prism (R74, R206), or the command ends: all done, or the generation changed. -/
def State.nextChunk (s : State) (n : Nat) (r : CryptoRun) : State :=
  let total := r.desc.get 0x20 4
  let slot := slotField r.desc 8
  if total ≤ r.done then s.cryptoEnd n r .ok
  else if let some st := s.chunkStatus slot r then s.cryptoEnd n r st
  else
    let m := min 256 (total - r.done)
    let op := r.desc.get 0x0C 1
    let template := Crypto.inc32 (BitVec.ofNat 128 (beNat (le 16 (r.desc.get 0x30 16)))) r.done
    let body := le 16 op ++ Crypto.blockBytes template ++ slice r.input (16 * r.done) (16 * m)
    let lines := (body.length + 127) / 128
    let q := s.prism.nextSeq
    let it : Item := { seq := q, kind := 3, recv := op == 1, lp := 64, stage := .waiting, bytes := slice body 0 (128 * lines), line := 0
                       lines := 0, len := m, handle := keyIndex slot, offset := 0, head := 0, data := 16 * m, frame := none, queue := 0
                       tsId := none, stamp := 0, fcs := none, keep := 0, crc := 0, enc := false, verified := false, taken := none, cls := none
                       ohead := [], sa := none, stalled := false, cut := false }
    let s := { s with prism := { s.prism with nextSeq := q + 1 } }
    let u := s.unit n
    let runs := u.crypto.map fun x => if x.desc = r.desc then { r with chunk := some q } else x
    s.setUnit n { u with items := u.items ++ [it], crypto := runs }

/-- A chunk has been emitted: its output joins what the command has done, and the next one follows (R74). -/
def State.chunkDone (s : State) (n : Nat) (i : Item) : State :=
  let u := s.unit n
  let s := s.setUnit n { u with items := u.items.filter (·.seq != i.seq) }
  match u.crypto.find? fun r => r.chunk == some i.seq with
  | none => s
  | some r => s.nextChunk n { r with done := r.done + i.len, out := r.out ++ slice i.bytes chunkData (16 * i.len), chunk := none }

/-- A chunk that no program finishes ends its command as one without an entry does (R219, log entry 60). -/
def State.chunkLost (s : State) (n : Nat) (i : Item) : State :=
  let u := s.unit n
  let s := s.setUnit n { u with items := u.items.filter (·.seq != i.seq) }
  match u.crypto.find? fun r => r.chunk == some i.seq with
  | none => s
  | some r => s.cryptoEnd n r .disabled

/-- An item is dropped under its thread, which keeps running (R200, R208): its later dispositions are ignored. -/
def State.discardUnder (s : State) (n : Nat) (i : Item) : State :=
  let s := if i.kind = 3 then s.chunkLost n i else s.dropSlot n i.seq
  match i.stage with
  | .running _ =>
    let z := i.zeroed
    let g : Item := { z with frame := none, tsId := none, sa := none }
    s.setUnit n { s.unit n with ghosts := (s.unit n).ghosts ++ [g] }
  | _ => s

/-- An item of a Prism is dropped by its thread (R222, R265). -/
def State.dropHeld (s : State) (n : Nat) (i : Item) : State := if i.kind = 3 then s.chunkLost n i else s.dropSlot n i.seq

/-! ### Faults (R227) -/

/-- Fault causes (Table 9.5). -/
inductive Cause where
  | illegal | localRange | scratchRange | scratchEcc | hbmRefused | integrity | descriptor | frameRange | partition_ | keyExpired
  | watchdog | reclaimed | engineReset | localParity | imemEcc
  deriving DecidableEq, Repr

/-- Codes of Table 9.5. -/
def Cause.code : Cause → Nat
  | .illegal => 1 | .localRange => 2 | .scratchRange => 3 | .scratchEcc => 4 | .hbmRefused => 5 | .integrity => 6 | .descriptor => 7
  | .frameRange => 8 | .partition_ => 9 | .keyExpired => 10 | .watchdog => 11 | .reclaimed => 12 | .engineReset => 13
  | .localParity => 14 | .imemEcc => 15

/-- A thread faults (R227): it is stopped, its item dropped, its descriptors and accumulators discarded; it keeps its locks. -/
def State.faultThread (s : State) (c k : Nat) (cause : Cause) : State :=
  let t := s.thread c k
  let lp : Nat := ((s.itemOf c k).map (·.lp)).getD 0
  let dropped : Bool := (s.itemOf c k).any fun i => (s.unit c).items.any (·.seq == i.seq)
  let s := s.endOp c k false
  let s := match t.item with
    | none => s
    | some q =>
      if c = 16 then s.endRItem q
      else match s.item c q with
        | some i => s.dropHeld c i
        | none => s
  let s := (s.unyield c k).modThread c k fun t => { t with
    mode := .faulted, item := none, descs := [], acc := [], begun := [], results := [], pn := none, pnAsked := false, reads := [], failed := false, yield := [] }
  let s := if c < 16 ∧ dropped ∧ lp < 64 then
      (s.count (cid 0x04 1 lp)).raise 0x144
        [BitVec.ofNat 8 c, BitVec.ofNat 8 (k / 8), BitVec.ofNat 8 (k % 8), BitVec.ofNat 8 (64 + lp)]
    else s
  (s.raise 0x180 (BitVec.ofNat 8 c :: le 2 (vOwner c k) ++ [BitVec.ofNat 8 cause.code] ++ le 2 t.pc)).wake c

/-! ### Issue (R214, R243, R244) -/

/-- Thread k of a cluster may be chosen in a clock: READY, and it waits for no thread after a YIELD (R214, R263). -/
def State.eligibleThread (s : State) (c k : Nat) : Bool :=
  let t := s.thread c k
  t.mode == .ready && t.yield == []

/-- The thread that an engine chooses next (R214): the first eligible one after the one that issued last. -/
def State.chosen (s : State) (c e : Nat) : Option Nat :=
  let l := (tget LastIssue.reset (s.cluster c).issued e).thr
  ((List.range 8).map fun i => 8 * e + (l + 1 + i) % 8).find? (s.eligibleThread c)

/-- The instruction w at pc issues as the second of a pair with the one that thread k issued last (R244). -/
def State.pairsNow (s : State) (c k pc : Nat) (w : BitVec 64) : Bool :=
  let l := tget LastIssue.reset (s.cluster c).issued (k / 8)
  l.thr == k % 8 && l.at_ == s.clk && (match l.first with
    | some (pc0, w0) => pc == pc0 + 1 && pc / halfSize c == pc0 / halfSize c && pairs (Ins.of w0) (Ins.of w)
    | none => false)

/-- Note an issue: whose it was, whether it may be the first of a pair, and that threads that yielded to it need wait no more. -/
def State.noteIssue (s : State) (c k pc : Nat) (w : BitVec 64) (second : Bool) : State :=
  let s := s.unyield c k
  let x := s.cluster c
  let l : LastIssue := { thr := k % 8, first := if second then none else some (pc, w), at_ := s.clk }
  s.setCluster c { x with issued := tput LastIssue.reset x.issued (k / 8) l }

/-- A thread's next instruction must wait: the thread is WAITING, and the instruction it issued last is the first of no pair any more (R244). -/
def State.holdThread (s : State) (c k : Nat) : State :=
  let s := s.modThread c k fun t => { t with mode := .waiting }
  let x := s.cluster c
  let l := tget LastIssue.reset x.issued (k / 8)
  if l.thr = k % 8 then s.setCluster c { x with issued := tput LastIssue.reset x.issued (k / 8) { l with first := none } } else s

/-- What an instruction does to its thread beyond its effect. -/
inductive Act where
  /-- It goes on with the next instruction. -/
  | go (s : State)
  /-- It branches. -/
  | jump (s : State) (pc : Nat)
  /-- It faults. -/
  | fault (s : State) (cause : Cause)
  /-- It has ended its work item; the thread is no longer its. -/
  | gone (s : State)

/-- Results that arrive later than two clocks are not available yet (R243): MUL, MULHU, scratch and frame loads, SALOAD, PNTAKE, CLD, the
atomics, and HBM or DDR loads. -/
def Ins.later (i : Ins) : Option Bool :=
  if i.op = 0x0B ∨ i.op = 0x0C ∨ i.op = 0x60 ∨ i.op = 0x62 ∨ (0x70 ≤ i.op ∧ i.op ≤ 0x72) ∨ i.op = 0x90 ∨ i.op = 0x91 then some false
  else if (i.op = 0x40 ∨ i.op = 0x42) ∧ bitOf i.ext 36 then some false
  else if i.op = 0x50 ∨ i.op = 0x52 then some true
  else none

/-- The thread goes on with the instruction after its present one. -/
def State.advance (s : State) (c k : Nat) : State := s.modThread c k fun t => { t with pc := t.pc + 1 }

/-- A branch; a target beyond the image faults (R262). -/
def State.land (s : State) (c k pc : Nat) : State :=
  let t := s.thread c k
  if s.count_ c t.high ≤ pc then s.faultThread c k .illegal else s.setThread c k { t with pc := pc }

/-- An instruction with the value `base` in its first source has had its effect: what a later clock brings is noted, the thread goes on, and
threads that waited for it wake (R243). -/
def State.settle (s : State) (c k : Nat) (x : Ins) (base : BitVec 64) : State :=
  let s := match x.later with
    | some ld =>
      let from_ := if ld then some (x.address base (if x.op = 0x52 then 16 else accessSize (bits x.ext 33 3))) else none
      if x.writes = [] then s else s.modThread c k fun t => { t with results := t.results ++ [Result.mk x.writes from_] }
    | none => s
  (s.advance c k).wake c

/-- What the end of an instruction does to its thread. -/
def Act.settle (c k : Nat) (x : Ins) (base : BitVec 64) : Act → State
  | .fault s cause => s.faultThread c k cause
  | .gone s => s.wake c
  | .jump s pc => s.land c k pc
  | .go s => s.settle c k x base

/-- One instruction of a thread issues (R214, R215, R239 to R244): the thread is READY and its engine's choice, or the instruction pairs
with its last. A row whose opcodes do not hold the word's leaves all as it is; an illegal word faults whatever the row and the guard. -/
def State.issue (i : Issue) (ops : List Nat) (body : Nat → Nat → Ins → State → Act) (s : State) : State :=
  let c := i.t.cl
  let k := i.t.key
  let s := s.wake c
  let t := s.thread c k
  let w := s.fetch c t.high t.pc
  let x := Ins.of w
  let second := s.pairsNow c k t.pc w
  if t.mode ≠ .ready ∨ !(s.eligibleThread c k) ∨ !(second || s.chosen c (k / 8) == some k) then s
  else if i.imem = .uncorrectable then (s.noteIssue c k t.pc w second).faultThread c k .imemEcc
  else if x.legal c ∧ !(ops.contains x.op) then s
  else
    let s := if i.imem = .corrected then (s.count (cid 0x05 0 c)).raiseOnce 0x185 0 [BitVec.ofNat 8 c] else s
    if !x.legal c then (s.noteIssue c k t.pc w second).faultThread c k .illegal
    else if s.mustWait c k x then s.holdThread c k
    else
      let s := s.noteIssue c k t.pc w second
      if !t.guardOk x then s.advance c k
      else (body c k x s).settle c k x (t.gr x.a)

end Sys2Proof.Machine
end

