-- ==== Sys2Proof/Machine/Assoc.lean ====
section
/-! DEFINITION. The association commands, rotations, leases and holds (chapter 4, R493 to R497). -/

namespace Sys2Proof.Machine

/-- Defaults of R97: WARN, HOLD_MS, and NEXT 1 for MACsec. A written OVERLAP_MS of 0 means 0 (log entry 157). -/
def Assoc.defaults (a : Assoc) : Assoc :=
  { a with
    warn := if a.warn = 0 then BitVec.ofNat 64 (if a.facet then 0xC00000000000 else if a.xpn then 0xC000000000000000 else 0xC0000000)
      else a.warn
    holdMs := if a.holdMs = 0 then 10 else a.holdMs }

/-- Fields of an SA_CREATE image that break a rule by themselves (R95, R96, R124, R133, R165, R493). -/
def createBad (v : Nat) : Bool :=
  let a := Assoc.ofImage v
  v &&& imageMask != v || bits v 28 4 != 0 || a.leap != 0 || a.switchPn != 0 || a.switchTime != 0 || a.successor != 0 ||
  4 < a.suite.toNat || 1 < bits v 17 2 || (if a.group then 15 else 63) < a.owner.toNat || (a.facet && a.group) ||
  (!a.facet && (a.phase || a.dkB != 0)) || (a.recv && a.current) || (!a.xpn && (a.ssci != 0 || a.xsalt != 0)) ||
  (a.xpn && 0x40000000 < a.window.toNat) || (a.facet && a.recv && a.window != 0)

/-- The partition that must hold an association of a logical port (R22, R33). -/
def State.partitionFor (s : State) (a : Assoc) : Nat :=
  if (s.lport a.lp).enabled ∧ (s.lport a.lp).mode = some 6 then a.port.toNat / 2 * 2 + b2n a.recv else a.port.toNat

/-- DK slots lie in the partition of handle h (R33). -/
def dkInPartition (a : Assoc) (h : Nat) : Bool :=
  a.dkA.toNat / 8192 == h / 8192 && (!a.facet || a.dkB.toNat / 8192 == h / 8192)

/-- Two transmit associations belong to one secure channel: SCI and logical port, or, for Facet, the logical port (R34, R105). -/
def Assoc.sameChannel (a b : Assoc) : Bool :=
  a.recv == b.recv && a.lp == b.lp && a.facet == b.facet && (a.facet || a.sci == b.sci)

/-- Non-FREE associations with their handles. -/
def State.live (s : State) : Tbl Assoc := s.assoc.ctx.filter fun e => e.2.status != .free

/-- Another association of the channel of a new transmit association has CURRENT set (R493). -/
def State.otherCurrent (s : State) (h : Nat) (a : Assoc) : Bool :=
  s.live.any fun e => e.1 != h && e.2.current && e.2.sameChannel a

/-- A receive association would exceed the channels of its group or port (R95, R130). -/
def State.groupFull (s : State) (a : Assoc) : Bool :=
  let same := (s.live.filter fun e => e.2.recv && !e.2.facet && e.2.lp == a.lp && e.2.group == a.group &&
    (!a.group || e.2.owner == a.owner)).map (·.2.sci)
  a.recv && !a.facet && !same.contains a.sci && (if a.group then 256 else 4) ≤ same.eraseDups.length

/-- A binding of DK slot k breaks R104 or R574. `spare` is the slot of the Facet phase not in use, which may be empty. The active half alone is
looked at (log entry 158). -/
def State.badUsage (s : State) (a : Assoc) (k : Nat) (spare : Bool) : Bool :=
  let x := s.slot (slotKey 0 k)
  if x.active = .none ∧ x.pending = .empty then !spare
  else !s.dkFits a k || (!a.recv && x.shown.block)

/-- DK slot of the Facet phase not in use. -/
def Assoc.dkSpare (a : Assoc) : Nat := if a.phase then a.dkA.toNat else a.dkB.toNat

/-- The two salts of a Facet association. -/
def Assoc.salts (a : Assoc) : List Nat := [a.sci.toNat % 2 ^ 32, a.sci.toNat / 2 ^ 32]

/-- R105: the SCI, with its AN, or a Facet phase salt is in use. -/
def State.duplicateSci (s : State) (h : Nat) (a : Assoc) : Bool :=
  !a.recv && s.live.any fun e => e.1 != h && !e.2.recv && e.2.facet == a.facet &&
    (if a.facet then a.salts.any e.2.salts.contains
     else e.2.sci == a.sci && (e.2.lp != a.lp || e.2.an == a.an))

/-- Two DK slots hold the same key. -/
def State.sameKey (s : State) (j k : Nat) : Bool :=
  let x := s.slot (slotKey 0 j)
  let y := s.slot (slotKey 0 k)
  x.active != .none && y.active != .none && x.act.alg == y.act.alg && x.act.key == y.act.key

/-- R105: a key equals that of another transmit association with the same SCI. -/
def State.duplicateKey (s : State) (h : Nat) (a : Assoc) : Bool :=
  !a.recv && !a.facet && s.live.any fun e => e.1 != h && !e.2.recv && !e.2.facet && e.2.sci == a.sci &&
    s.sameKey e.2.dkA.toNat a.dkA.toNat

/-- A group association on a port whose LINE_MACSEC_CFG in force has SEND_SCI 0 (R127). -/
def State.groupNoSci (s : State) (a : Assoc) : Bool :=
  a.group && (s.lport a.lp).enabled && !bitOf (s.lport a.lp).macsec.toNat 20

/-- NEXT for a transmit association bound to some slots, and whether a high-water value decided (R103). -/
def State.raised (s : State) (slots : List Nat) (v : Nat) : Nat × Bool :=
  slots.foldl (fun (n, f) k => match s.highWater k with
    | some w => if n < w then (w, true) else (n, f)
    | none => (n, f)) (v, false)

/-- KEY_LOST on a bind, where the key in use is not VALID (R574). -/
def State.bindLost (s : State) (h : Nat) : State :=
  let a := s.sa h
  if (a.status = .active ∨ a.status = .reserveWait) ∧ (a.recv ∨ a.current) ∧ ¬ s.dkValid a.dkInUse then s.enterKeyLost h 3 else s

/-- Clear an association's counter block (R121). -/
def State.clearStats (s : State) (h : Nat) : State :=
  match s.writeMem .annulus 0 (s.statsAddr h) (List.replicate 64 0) with
  | (true, s) => s
  | (false, s) => s.raise 0x12C (le 4 h)

/-- SA_CREATE with its image read (R493, Table 21.4). A second transmit SCI of a group on one logical port is accepted (log entry 156). -/
def createWith (d : Desc) (h v : Nat) (s : State) : State :=
  let a := (Assoc.ofImage v).defaults
  let slots := if a.facet then [a.dkA.toNat, a.dkB.toNat] else [a.dkA.toNat]
  if createBad v then s.done d .badRequest
  else if h / 8192 ≠ s.partitionFor a ∨ ¬ dkInPartition a h then s.done d .wrongPartition
  else if s.twin.lease = .standby then s.done d .standby
  else if (s.sa h).status ≠ .free ∨ (a.current ∧ s.otherCurrent h a) then s.done d .inUse
  else if ¬ a.group ∧ ¬ ((s.lport a.lp).enabled ∧ ((s.lport a.lp).partner.map (·.toNat)) = some a.owner.toNat) then
    s.done d .noPartner
  else if s.groupFull a then s.done d .groupFull
  else if s.badUsage a a.dkInUse false ∨ (a.facet ∧ s.badUsage a a.dkSpare true) then s.done d .badUsage
  else if s.duplicateSci h a then s.done d .duplicateSci
  else if s.duplicateKey h a then s.done d .duplicateKey
  else if s.groupNoSci a then s.done d .badRequest
  else
    let base := if a.next = 0 ∧ ¬ a.facet then 1 else a.next.toNat
    let leap := if a.recv then 0 else s.leapOf a
    let (n, f) := if a.recv then (base, false) else s.raised slots (if bitOf d.flags 0 then base + leap else base)
    let a := { a.setNext n with leap := BitVec.ofNat 32 leap, status := if a.recv ∨ a.current then .active else .ready }
    let s := (s.setSa h a).clearStats h
    let s := (((s.bindLost h).nextMoved h).caseClear h).retime false
    s.complete d { status := .ok, flags := b2n f, r0 := n % 2 ^ 64 }

/-- A context lock of another owner keeps a command from starting (R100, R254, log entry 19). -/
def State.lockedOut (s : State) (d : Desc) (h : Nat) : Bool :=
  match s.lockOwner h with
  | some o => o != ringOwner d.ring.val
  | none => false

/-- The SA handle of a command at 0x08. -/
def saHandle (d : Desc) : Nat := d.get 8 4

/-- SA_CREATE (R493). -/
def execSaCreate (d : Desc) (s : State) : Out :=
  if s.lockedOut d (saHandle d) then .next s
  else .next (ringCommand d 1 [(8, 4), (0x10, 8)] (fun s =>
    if 2 ^ 17 ≤ saHandle d then s.done d .badRequest
    else s.withBuf d .annulus (d.get 0x10 8) 128 fun bs s => createWith d (saHandle d) (leNat bs) s) s)

/-- A handle that an armed rotation names (R497). -/
def State.rotating (s : State) (h : Nat) : Bool :=
  s.assoc.rots.any fun r => r.armed && r.entries.any fun e => e.1 == h || e.2 == h

/-- The fields a mask selects, taken from an image (R494). -/
def Assoc.merge (a : Assoc) (m : Nat) (b : Assoc) : Assoc :=
  { a with
    dkA := if bitOf m 0 then b.dkA else a.dkA
    dkB := if bitOf m 1 then b.dkB else a.dkB
    hold := if bitOf m 2 then b.hold else a.hold
    warn := if bitOf m 3 then b.warn else a.warn
    ceiling := if bitOf m 4 then b.ceiling else a.ceiling
    reserveLow := if bitOf m 5 then b.reserveLow else a.reserveLow
    holdMs := if bitOf m 6 then b.holdMs else a.holdMs
    overlapMs := if bitOf m 7 then b.overlapMs else a.overlapMs
    window := if bitOf m 8 then b.window else a.window
    lowWarned := a.lowWarned && !(bitOf m 4 || bitOf m 5)
    warned := a.warned && !bitOf m 3 }

/-- SA_MODIFY with its image read (R494, Table 21.4). -/
def modifyWith (d : Desc) (h m v : Nat) (s : State) : State :=
  let b := Assoc.ofImage v
  let old := s.sa h
  let a := (old.merge m b).defaults
  let slots := (if bitOf m 0 then [a.dkA.toNat] else []) ++ (if bitOf m 1 ∧ a.facet then [a.dkB.toNat] else [])
  let next := if bitOf m 9 then b.next.toNat else old.nextN
  if (bitOf m 0 ∧ bits v 0x31 15 ≠ 0) ∨ (bitOf m 1 ∧ bits v 0x51 15 ≠ 0) ∨ (bitOf m 2 ∧ 1 < bits v 17 2) then s.done d .badRequest
  else if slots.any fun k => k / 8192 != h / 8192 then s.done d .wrongPartition
  else if s.twin.lease = .standby then s.done d .standby
  else if old.status = .free then s.done d .notFound
  else if s.rotating h then s.done d .inUse
  else if slots.any fun k => s.badUsage a k (a.facet && k == a.dkSpare && k != a.dkInUse) then s.done d .badUsage
  else if next < old.nextN then s.done d .counterLower
  else if bitOf m 0 ∧ s.duplicateKey h a then s.done d .duplicateKey
  else if (bitOf m 1 ∧ ¬ a.facet ∧ b.dkB ≠ 0) ∨ (bitOf m 8 ∧ a.xpn ∧ 0x40000000 < a.window.toNat) then s.done d .badRequest
  else
    let (n, f) := if a.recv then (next, false) else s.raised slots next
    let a := if n = old.nextN then a else a.setNext n
    let a := if a.status = .reserveWait ∧ (a.ceiling = 0 ∨ a.nextN < a.ceiling.toNat) then
        { a with status := if a.current then .active else .ready } else a
    let a := if a.status = .keyLost ∧ ¬ slots.isEmpty ∧ s.dkValid a.dkInUse then
        { a with status := if a.recv ∨ a.before ≠ .ready then .active else .ready } else a
    let s := s.setSa h a
    let s := ((if slots.isEmpty then s else s.bindLost h).nextMoved h).caseClear h
    s.complete d { status := .ok, flags := b2n f, r0 := n % 2 ^ 64 }

/-- SA_MODIFY (R494). -/
def execSaModify (d : Desc) (s : State) : Out :=
  if s.lockedOut d (saHandle d) then .next s
  else .next (ringCommand d 0 [(8, 8), (0x10, 8)] (fun s =>
    if 2 ^ 17 ≤ saHandle d ∨ 1024 ≤ d.get 0xC 4 then s.done d .badRequest
    else s.withBuf d .annulus (d.get 0x10 8) 128 fun bs s => modifyWith d (saHandle d) (d.get 0xC 4) (leNat bs) s) s)

/-- SA_RETIRE after the header checks (R99, R495, R497). -/
def retireBody (d : Desc) (s : State) : State :=
  let h := saHandle d
  let a := s.sa h
  if 2 ^ 17 ≤ h then s.done d .badRequest
  else if s.twin.lease = .standby then s.done d .standby
  else if a.status = .free then s.done d .notFound
  else if a.status = .retiring then s.setSa h { a with retireCmds := a.retireCmds ++ [d] }
  else if s.rotating h ∨ (¬ a.recv ∧ a.current ∧ (s.lport a.lp).enabled) then s.done d .inUse
  else s.setSa h { a with status := .retiring, retireCmds := [d] }

/-- SA_RETIRE (R495). -/
def execSaRetire (d : Desc) (s : State) : Out :=
  if s.lockedOut d (saHandle d) then .next s else .next (ringCommand d 0 [(8, 4)] (retireBody d) s)

/-- The 192 bytes of SA_READ (R495): context, then each counter as its folded value plus its delta (R121). -/
def State.saImage (s : State) (h : Nat) : List Byte :=
  let a := s.sa h
  if a.status = .free then List.replicate 192 0
  else
    let old := s.mem.get (s.statsAddr h) 64
    le 128 a.image ++ (List.range 8).flatMap fun i => le 8 (leAt old (8 * i) 8 + (tget 0 a.delta i).toNat)

/-- SA_READ (R495). -/
def execSaRead (d : Desc) (s : State) : Out :=
  .next (ringCommand d 0 [(8, 4), (0x10, 8)] (fun s =>
    if 2 ^ 17 ≤ saHandle d then s.done d .badRequest
    else s.writeBufDone d .annulus (d.get 0x10 8) (s.saImage (saHandle d)) { status := .ok }) s)

/-- A handle has become FREE: copies that are open carry nothing for an association created under it later (R110). -/
def State.noteFreed (s : State) (h : Nat) : State :=
  { s with twin := { s.twin with openCopies := s.twin.openCopies.map fun c => { c with freed := h :: c.freed } } }

/-- RETIREMENT_END: a RETIRING association with no operation in flight folds a last time and is FREE; its SA_RETIREs complete
(R98, R121, R495). -/
def execRetirementEnd (h : BitVec 17) (s : State) : Out :=
  let h := h.toNat
  let a := s.sa h
  if a.status ≠ .retiring ∨ a.inFlight ≠ 0 then .next s
  else
    let (refused, s) := s.fold h
    let s := (((s.setSa h Assoc.reset).noteFreed h).caseClear h).retime false
    .next (a.retireCmds.foldl (fun s d => s.complete d { status := .ok, flags := b2n refused }) s)

/-- OVERLAP_HOLD_EXPIRY: a MACsec association enters RETIRING; a Facet old phase stops (R117). -/
def execOverlapHoldExpiry (h : BitVec 17) (s : State) : Out :=
  let h := h.toNat
  match (s.sa h).overlapDue with
  | none => .next s
  | some t =>
    let s := s.passTo t
    let a := s.sa h
    if a.status = .free ∨ a.status = .retiring then .next (s.setSa h { a with overlapDue := none })
    else if a.facet then
      let dk := if a.phase then a.dkA.toNat else a.dkB.toNat
      .next ((s.setSa h { a with overlapDue := none, expired := some (!a.phase, (s.slot (slotKey 0 dk)).gen) }).raise 0x127 (le 4 h))
    else .next ((s.setSa h { a with overlapDue := none, status := .retiring }).raise 0x127 (le 4 h))

/-- CONTEXT_LOCK_LEASE_EXPIRY: the lock is released and 0x12A names the holder (R100). -/
def execContextLockLeaseExpiry (h : BitVec 17) (s : State) : Out :=
  match s.assoc.locks.lookup h.toNat with
  | none => .next s
  | some (o, t) =>
    let s := s.passTo t
    let s := { s with assoc := { s.assoc with locks := tdel s.assoc.locks h.toNat } }
    .next ((s.raise 0x12A (le 4 h.toNat ++ le 2 o)).wake (h.toNat / 8192))

/-- STATS_FOLD_SWEEP: every association of a partition folds (R120). -/
def execStatsFoldSweep (part : Fin 16) (s : State) : Out :=
  .next ((s.live.filter fun e => e.1 / 8192 == part.val && !e.2.delta.isEmpty).foldl (fun s e => (s.fold e.1).2) s)

/-! ### Rotation (R113 to R116, R496) -/

/-- The entries of a rotation list: from, to, FACET_PHASE; none where a reserved bit is set (R113). -/
def rotEntries (n : Nat) (bs : List Byte) : Option (List (Nat × Nat × Bool)) :=
  let es := (List.range n).map fun i => leAt bs (8 * i) 8
  if es.any fun e => e / 2 ^ 35 != 0 then none
  else some (es.map fun e => (e % 2 ^ 17, bits e 17 17, bitOf e 34))

/-- The trigger of an SA_ROTATE body. -/
def rotTrigger (d : Desc) : RotTrigger :=
  if d.get 0x14 1 = 1 then .pn (d.get 0x18 8) else .time (1000000000 * d.get 0x20 6 + d.get 0x26 4)

/-- A Facet entry has equal handles and FACET_PHASE, a MACsec entry neither (R113, R114). -/
def State.entryOk (s : State) (e : Nat × Nat × Bool) : Bool :=
  let (fr, dst, ph) := e
  let a := s.sa fr
  fr / 8192 == dst / 8192 && a.status == .active && !a.recv &&
  (if ph then fr == dst && a.facet && s.mayFlip a
   else fr != dst && !a.facet && a.current && s.mayBecomeCurrent a (s.sa dst)) &&
  !(s.assoc.rots.any fun r => r.armed && r.entries.any (·.1 / 8192 == fr / 8192))

/-- Index of the first entry that R114 refuses; `seen` holds the handles of the entries before it. -/
def State.firstBad (s : State) : Nat → List Nat → List (Nat × Nat × Bool) → Option Nat
  | _, _, [] => none
  | i, seen, e :: es =>
    if s.entryOk e && !seen.contains e.1 && !seen.contains e.2.1 then s.firstBad (i + 1) (e.1 :: e.2.1 :: seen) es else some i

/-- SA_ROTATE with its list read: the rotation begins to arm, at 100 entries per us (R113, R114). -/
def rotateWith (d : Desc) (n : Nat) (bs : List Byte) (s : State) : State :=
  match rotEntries n bs with
  | none => s.done d .badRequest
  | some es =>
    let bad := match rotTrigger d with
      | .pn v => v == 0 || (v % 256 != 0 && es.any fun e => e.2.2 || e.1 == e.2.1)
      | .time _ => decide (999999999 < d.get 0x26 4)
    if bad then s.done d .badRequest
    else if s.twin.lease = .standby then s.done d .standby
    else
      let r : Rotation := { desc := some d, name := (d.ring.val, d.tag), entries := es.map fun e => (e.1, e.2.1)
                            phases := (es.filter (·.2.2)).map fun e => (e.1, e.2.1), trigger := rotTrigger d
                            armedAt := s.clk + 10 * n, armed := false, total := n, switched := [] }
      { s with assoc := { s.assoc with
          rots := s.assoc.rots ++ [r], fired := s.assoc.fired.filter (· != (d.ring.val, d.tag)) } }

/-- SA_ROTATE (R113, R496). -/
def execSaRotate (d : Desc) (s : State) : Out :=
  .next (ringCommand d 2 [(8, 13), (0x18, 8), (0x20, 10)] (fun s =>
    let n := d.get 0x10 4
    let trig := d.get 0x14 1
    if bitOf d.flags 1 ∨ n = 0 ∨ 131072 < n ∨ 1 < trig ∨ (trig = 0 ∧ d.get 0x18 8 ≠ 0) ∨ (trig = 1 ∧ d.get 0x20 10 ≠ 0) then
      s.done d .badRequest
    else s.withBuf d .annulus (d.get 8 8) (8 * n) (rotateWith d n)) s)

/-- Write an armed trigger into the contexts of the from-associations (Table 4.1). -/
def armEntry (tr : RotTrigger) (s : State) (e : Nat × Nat) : State :=
  let a := s.sa e.1
  s.setSa e.1 (match tr with
    | .pn v => { a with switchPn := BitVec.ofNat 64 v, successor := BitVec.ofNat 17 e.2 }
    | .time t => { a with switchTime := BitVec.ofNat 80 (t / 1000000000 + 2 ^ 48 * (t % 1000000000)), successor := BitVec.ofNat 17 e.2 })

/-- Replace a rotation, or remove it. -/
def State.putRotation (s : State) (r : Rotation) (r' : Option Rotation) : State :=
  { s with assoc := { s.assoc with rots := s.assoc.rots.filterMap fun x => if x = r then r' else some x } }

/-- The list form of a rotation's entries: a Facet entry is one whose handles are equal or whose FACET_PHASE is set (R113, log entry 160). -/
def Rotation.listForm (r : Rotation) : List (Nat × Nat × Bool) := r.entries.map fun e => (e.1, e.2, e.1 == e.2 || r.phases.contains e)

/-- ROTATION_ARMED: arming ends; the whole list is validated, then armed (R114). A PN rotation completes (R116). -/
def execRotationArmed (ring : Fin 64) (tag : BitVec 16) (s : State) : Out :=
  match s.assoc.rots.find? fun r => !r.armed && r.name == (ring.val, tag.toNat) with
  | none => .next s
  | some r =>
    let s := s.passTo r.armedAt
    match r.desc with
    | none => .next s
    | some d =>
      match s.firstBad 0 [] r.listForm with
      | some i => .next ((s.putRotation r none).complete d { status := .invalidPair, r0 := i })
      | none =>
        match r.trigger with
        | .time t =>
          if t < s.gnomon.time + 10000 then .next ((s.putRotation r none).done d .tooLate)
          else .next (r.entries.foldl (armEntry r.trigger) (s.putRotation r (some { r with armed := true })))
        | .pn _ =>
          let s := r.entries.foldl (armEntry r.trigger) (s.putRotation r (some { r with armed := true, desc := none }))
          .next (s.complete d { status := .ok, r0 := 0 })

/-- ROTATION_TIME_TRIGGER: the Gnomon time of an armed TIME rotation comes (R115). With no rotation of that
name, the oldest one that a take-over re-armed, which has no name, switches (R456). -/
def execRotationTimeTrigger (ring : Fin 64) (tag : BitVec 16) (s : State) : Out :=
  let named := s.assoc.rots.find? fun r => r.armed && r.name == (ring.val, tag.toNat)
  match (if named.isSome then named else s.assoc.rots.find? fun r => r.armed && r.name == (64, 0)) with
  | none => .next s
  | some r => match r.trigger with
    | .pn _ => .next s
    | .time t => .next ((s.passToTime t).fireRotation r)

/-- A rotation whose trigger has come, wholly or for some entry (R496). -/
def State.triggered (s : State) (r : Rotation) : Bool :=
  match r.trigger with
  | .time t => decide (t ≤ s.gnomon.time)
  | .pn _ => r.entries.length != r.total

/-- SA_ROTATE with CANCEL (R114, R496). -/
def cancelBody (d : Desc) (s : State) : State :=
  let name := (d.get 0x2E 1, d.get 0x2C 2)
  if ¬ bitOf d.flags 1 ∨ 63 < d.get 0x2E 1 then s.done d .badRequest
  else if s.twin.lease = .standby then s.done d .standby
  else match s.assoc.rots.find? fun r => r.armed && r.name == name with
    | none => if s.assoc.fired.contains name then s.done d .tooLate else s.done d .notFound
    | some r =>
      if s.triggered r then s.done d .tooLate
      else
        let s := r.entries.foldl (fun s e => s.setSa e.1 (s.sa e.1).disarm) (s.putRotation r none)
        let s := match r.desc with
          | some c => s.done c .cancelled
          | none => s
        s.done d .ok

/-- SA_ROTATE_CANCEL (R496). -/
def execSaRotateCancel (d : Desc) (s : State) : Out := .next (ringCommand d 2 [(0x2C, 3)] (cancelBody d) s)

end Sys2Proof.Machine
end

