-- ==== Sys2Proof/Machine/FacetCode.lean ====
section
/-! DEFINITION. The codes of the transport path: RS(544,514), the scrambler, the marker codeword, and the 256B/257B transcoding of client
blocks (R141 to R143, R155). Generator, primitive polynomial and the order of bits in a transcoded block are those of IEEE 802.3, which the
spec names (PRESUMED, log entry 40). -/

namespace Sys2Proof.Machine

/-! ### RS(544,514) over 10-bit symbols (R141) -/

/-- Product in GF(2^10) modulo x^10 + x^3 + 1. -/
def fecMul (a b : Nat) : Nat :=
  ((List.range 10).foldl (fun (x : Nat × Nat) i =>
    (if b.testBit i then x.1 ^^^ x.2 else x.1, if 512 ≤ x.2 then (2 * x.2) ^^^ 0x409 else 2 * x.2)) (0, a)).1

/-- The generator polynomial, the product of x + 2^j for j from 0 to 29: 31 coefficients, highest power first. -/
def fecGen : List Nat :=
  ((List.range 30).foldl (fun (x : List Nat × Nat) _ =>
    (List.zipWith (· ^^^ ·) (x.1 ++ [0]) (0 :: x.1.map (fecMul x.2)), fecMul x.2 2)) ([1], 1)).1

/-- The 30 parity symbols of a message of 514 symbols. -/
def fecParity (msg : List Nat) : List Nat :=
  let g := fecGen.tail
  msg.foldl (fun (r : List Nat) m =>
    let fb := m ^^^ r.headD 0
    List.zipWith (fun a c => a ^^^ fecMul fb c) (r.tail ++ [0]) g) (List.replicate 30 0)

/-- The four logical lanes of a codeword: symbol s on lane s mod 4 (R143). -/
def fecLanes (msg : List Nat) : List (List (BitVec 10)) :=
  let w := msg ++ fecParity msg
  (List.range 4).map fun l => (List.range 136).map fun i => BitVec.ofNat 10 (w.getD (4 * i + l) 0)

/-- Errored symbols that RS(544,514) corrects in a codeword; a codeword with more passes its message bits on uncorrected (R143). -/
def fecCorrects : Nat := 15

/-- P(l) of Table 6.1. -/
def markerPattern (l : Nat) : BitVec 10 := [0x2E5#10, 0x1A3, 0x3C9, 0x0B6].getD l 0

/-- The message of a marker codeword with a count (Table 6.1). -/
def markerMessage (count : BitVec 20) : List Nat :=
  (List.range 8).map (fun i => (markerPattern (i % 4)).toNat) ++ [count.toNat % 1024, count.toNat / 1024] ++ List.replicate 504 0

/-- The 514 message symbols of 5,140 bits, the first bit in time least significant in symbol 0 (R142). -/
def fecMessage (bits : Nat) : List Nat := (List.range 514).map fun i => bits / 1024 ^ i % 1024

/-- The self-synchronous scrambler x^58 + x^39 + 1 over bits in time order (R142): bit 0 of its state is the last bit sent. -/
def scramble (st : BitVec 58) (bits : List Bool) : List Bool × BitVec 58 :=
  bits.foldl (fun (x : List Bool × BitVec 58) b =>
    let o := b != (x.2.getLsbD 38 != x.2.getLsbD 57)
    (o :: x.1, (x.2 <<< 1) ||| (if o then 1 else 0))) ([], st) |> fun x => (x.1.reverse, x.2)

/-! ### Bits -/

/-- Bits of a number in time order: n bits, the most significant first. -/
def msbBits (n v : Nat) : List Bool := (List.range n).map fun i => v.testBit (n - 1 - i)
/-- Bits of a number: n bits, the least significant first. -/
def lsbBits (n v : Nat) : List Bool := (List.range n).map fun i => v.testBit i
/-- The number that bits spell, the first most significant. -/
def ofMsb (l : List Bool) : Nat := l.foldl (fun a b => 2 * a + (if b then 1 else 0)) 0
/-- The number that bits spell, the first least significant. -/
def ofLsb (l : List Bool) : Nat := l.foldr (fun b a => 2 * a + (if b then 1 else 0)) 0

/-! ### 256B/257B transcoding (R155): a 66-bit block has its first bit in bit 0, the two bits of the sync header, then the payload -/

/-- Sync header of a data block. -/
def isData66 (b : BitVec 66) : Bool := !b.getLsbD 0 && b.getLsbD 1
/-- Sync header of a control block. -/
def isControl66 (b : BitVec 66) : Bool := b.getLsbD 0 && !b.getLsbD 1
/-- The payload bits of a block in time order. -/
def payload66 (b : BitVec 66) : List Bool := lsbBits 64 (b.toNat / 4)
/-- A 66-bit block of a header and 64 payload bits. -/
def block66 (data : Bool) (payload : List Bool) : BitVec 66 := BitVec.ofNat 66 (4 * ofLsb payload + if data then 2 else 1)
/-- The 66-bit error control block: block type 0x1E and eight error codes 0x1E (R28). -/
def error66 : BitVec 66 := block66 false (lsbBits 8 0x1E ++ (List.range 8).flatMap fun _ => lsbBits 7 0x1E)

/-- The exclusive-or of the first five bits of a 257-bit block with bits 8 to 12, by clause 91 (100G clients). -/
def fold91 (on : Bool) (bits : List Bool) : List Bool :=
  if on then List.zipWith (· != ·) (bits.take 5) ((bits.drop 8).take 5) ++ bits.drop 5 else bits

/-- Four 66-bit blocks as 257 bits in time order. -/
def transcode (on91 : Bool) (bs : List (BitVec 66)) : List Bool :=
  let pay := bs.map payload66
  fold91 on91 <|
    if bs.all isData66 then true :: pay.flatten
    else
      let bad := bs.any fun b => !isData66 b && !isControl66 b
      let c := if bad then 0 else bs.findIdx isControl66
      let cut := pay.zipIdx.flatMap fun (e : List Bool × Nat) => if e.2 = c then e.1.take 4 ++ e.1.drop 8 else e.1
      false :: (if bad then List.replicate 4 true else bs.map isData66) ++ cut

/-- The second nibble of a block type, by its first. -/
def typeNibble (low : Nat) : Option Nat :=
  [none, some 0xE, some 0xD, some 3, some 0xB, some 5, some 6, some 8, some 7, some 9, some 0xA, some 4, some 0xC, some 2, some 1,
    some 0xF].getD low none

/-- The four 66-bit blocks of a 257-bit block, given which of its bits were lost: none for a block that lost a bit or cannot be read
(R161). -/
def untranscode (on91 : Bool) (bits lost : List Bool) : List (Option (BitVec 66)) :=
  let bits := fold91 on91 bits
  let gone := fun (a n : Nat) => ((lost.drop a).take n).any id
  let head : Bool := gone 0 (if bits.headD false && !on91 then 1 else 5) || (on91 && gone 8 5)
  let piece := fun (a n : Nat) => (bits.drop a).take n
  if head then List.replicate 4 none
  else if bits.headD false then
    (List.range 4).map fun j => if gone (1 + 64 * j) 64 then none else some (block66 true (piece (1 + 64 * j) 64))
  else
    let flags := (bits.drop 1).take 4
    let c := flags.findIdx (!·)
    if c = 4 then List.replicate 4 none
    else (List.range 4).map fun j =>
      let a := 5 + 64 * j - (if c < j then 4 else 0)
      let n := if j = c then 60 else 64
      if gone a n then none
      else if j = c then (typeNibble (ofLsb (piece a 4))).map fun h => block66 false (piece a 4 ++ lsbBits 4 h ++ piece (a + 4) 56)
      else some (block66 (flags.getD j false) (piece a 64))

end Sys2Proof.Machine
end

