-- ==== Sys2Proof/Machine/FacetOps.lean ====
section
/-! DEFINITION. Facet ports: defects and their hierarchy, marker lock, performance counters, traces, management messages
(chapters 6 and 7). -/

namespace Sys2Proof.Machine

/-- A Facet port. -/
def State.facetPort (s : State) (n : Nat) : FacetPort := tget FacetPort.reset s.facet n

/-- Replace a Facet port. -/
def State.setFacet (s : State) (n : Nat) (p : FacetPort) : State := { s with facet := tput FacetPort.reset s.facet n p }

/-- A slot of a port as sampled. -/
def FacetPort.slot (p : FacetPort) (t : Nat) : FacetSlot := tget FacetSlot.reset p.slots t
/-- The mapper of a slot. -/
def FacetPort.map (p : FacetPort) (t : Nat) : Mapper := tget Mapper.reset p.maps t
/-- Replace the mapper of a slot. -/
def FacetPort.setMap (p : FacetPort) (t : Nat) (m : Mapper) : FacetPort := { p with maps := tput Mapper.reset p.maps t m }
/-- The receiver of a slot. -/
def FacetPort.rxs (p : FacetPort) (t : Nat) : SlotRx := tget SlotRx.reset p.rx t
/-- Replace the receiver of a slot. -/
def FacetPort.setRx (p : FacetPort) (t : Nat) (r : SlotRx) : FacetPort := { p with rx := tput SlotRx.reset p.rx t r }

/-- Columns C of a slot (R146). -/
def FacetPort.cols (p : FacetPort) : Nat := 1012 / p.trib

/-- Add n to performance counter i (R189). -/
def FacetPort.add (p : FacetPort) (i n : Nat) : FacetPort :=
  { p with pm := tmod 0 p.pm i fun c => c + BitVec.ofNat 32 n }

/-- The offset of a register of port Ln at reg. -/
def facetOff (n reg : Nat) : Nat := 0x03800000 + 0x20000 * n + reg

/-- Section defect k stands (Table 7.3, k from 0). -/
def FacetPort.has (p : FacetPort) (k : Nat) : Bool := p.defects.getLsbD k

/-- Change a port. -/
def State.modFacet (s : State) (n : Nat) (f : FacetPort → FacetPort) : State := s.setFacet n (f (s.facetPort n))

/-- Line lanes of port Ln that are not LOCKED, as a mask. -/
def State.lolLanes (s : State) (n : Nat) : Nat :=
  maskOf ((List.range 4).filter fun l => !s.laneLocked (64 + 4 * n + l))

/-- A management message in progress is discarded, with a cause (R152): 0 segment missing, 1 failed its tag, 2 SOM and EOM sequence. -/
def State.dropMgmt (s : State) (n cause : Nat) : State :=
  if (s.facetPort n).rxMsg.isNone then s
  else ((s.modFacet n fun p => { p with rxMsg := none, rxSkip := true }).count (cid 2 3 (4 * n))).raise 0x282 [BitVec.ofNat 8 n, BitVec.ofNat 8 cause]

/-- A slot receiver when a section defect is declared: its tributary defects are withdrawn and its detectors stop (R178, R179). -/
def SlotRx.suppress (r : SlotRx) : SlotRx :=
  { r with defects := r.defects &&& 8#4, localFault := true, part := none, block := BlockRx.reset, bip := none, validRun := 0, invalidRun := 0,
           aisRun := 0, plmRun := 0, plmOkRun := 0 }

/-- The port when section defect k is declared: lower defects are withdrawn, lower detectors return to their initial states (R178). -/
def FacetPort.declare (p : FacetPort) (k : Nat) : FacetPort :=
  let p := { p with
    defects := 1#7 <<< k, latch := p.latch ||| (1#32 <<< k), stood := p.stood ||| (1#24 <<< k)
    marker := if k ≤ 2 then .search else p.marker
    frame := if k ≤ 3 then .out else p.frame
    cands := if k ≤ 3 then [] else p.cands
    errRun := if k ≤ 3 then 0 else p.errRun
    rxBip := if k ≤ 3 then none else p.rxBip
    aisRun := if k ≤ 3 then 0 else p.aisRun
    aisOkRun := if k ≤ 4 then 0 else p.aisOkRun
    failRun := if k ≤ 4 then 0 else p.failRun
    unkeyRun := if k ≤ 5 then 0 else p.unkeyRun
    okRun := 0, sinceOk := 0 }
  { p with rx := (List.range 4).foldl (fun rx t => tput SlotRx.reset rx t (p.rxs t).suppress) p.rx }

/-- Declare section defect k with the items of its event after the port; no higher defect may stand (R178, R191). -/
def State.declare (s : State) (n k : Nat) (items : List Byte) : State :=
  let p := s.facetPort n
  if !p.active || p.has k || p.defects.toNat % 2 ^ k != 0 then s
  else
    let s := s.setFacet n (p.declare k)
    let s := if k ≤ 3 then s.dropMgmt n 0 else s
    s.raiseSet (0x2A0 + k) false (BitVec.ofNat 8 n :: items)

/-- The port when section defect k clears: every pointer interpreter goes to INIT (Table 7.4). -/
def FacetPort.undeclare (p : FacetPort) (k : Nat) : FacetPort :=
  let p := { p with defects := p.defects &&& ~~~(1#7 <<< k), okRun := 0, aisRun := 0, aisOkRun := 0 }
  { p with rx := (List.range 4).foldl (fun rx t => tput SlotRx.reset rx t { (p.rxs t) with ptr := .init, validRun := 0 }) p.rx }

/-- Clear section defect k; the lower detectors restart (R178). -/
def State.clearSection (s : State) (n k : Nat) (items : List Byte) : State :=
  let p := s.facetPort n
  if !p.has k then s
  else
    let s := (s.setFacet n (p.undeclare k)).raiseSet (0x2A0 + k) true (BitVec.ofNat 8 n :: items)
    if k = 0 ∧ s.lolLanes n ≠ 0 then s.declare n 1 [BitVec.ofNat 8 (s.lolLanes n)]
    else if k ≤ 1 then s.declare n 2 [0]
    else if k = 2 then s.declare n 3 []
    else s

/-- The lock of a line lane of port Ln changed: the LOL detector (R177). -/
def State.facetLol (s : State) (n : Nat) : State :=
  let p := s.facetPort n
  if !p.active || p.has 0 then s
  else if s.lolLanes n ≠ 0 then s.declare n 1 [BitVec.ofNat 8 (s.lolLanes n)]
  else s.clearSection n 1 [0]

/-- The signal of a line lane of port Ln changed: the times of R177. -/
def State.facetSignal (s : State) (n : Nat) : State :=
  let p := s.facetPort n
  if !p.active then s
  else
    let on := (List.range 4).map fun l => (s.lane (64 + 4 * n + l)).signal
    s.setFacet n { p with
      quietSince := if on.all (!·) then (if p.quietSince.isSome then p.quietSince else some s.clk) else none
      signalSince := if on.all (·) then (if p.signalSince.isSome then p.signalSince else some s.clk) else none }

/-- A slot's tributary defect b is declared or cleared: 0 LOP, 1 AIS-P, 2 PLM, 3 RDI_P (R191). -/
def State.slotDefect (s : State) (n t b : Nat) (on : Bool) (items : List Byte) : State :=
  let p := s.facetPort n
  let r := p.rxs t
  if r.defects.getLsbD b = on then s
  else
    let r := { r with
      defects := if on then r.defects ||| (1#4 <<< b) else r.defects &&& ~~~(1#4 <<< b)
      localFault := r.localFault || (on && b != 3) }
    let p := p.setRx t r
    let p := if on then { p with latch := p.latch ||| (1#32 <<< (16 + 4 * t + b)), stood := p.stood ||| (1#24 <<< (8 + 4 * t + b)) }
      else p
    (s.setFacet n p).raiseSet (0x2A8 + b) (!on) ([BitVec.ofNat 8 n, BitVec.ofNat 8 t] ++ items)

/-- A trace byte with MFC index i arrives; true when a new trace is accepted (R188). -/
def TraceRx.take (x : TraceRx) (i : Nat) (b : Byte) : Bool × TraceRx :=
  if i ≠ x.cur.length then (false, { x with cur := if i = 0 then [b] else [], prev := none })
  else
    let cur := x.cur ++ [b]
    if cur.length < 64 then (false, { x with cur := cur })
    else
      let v := BitVec.ofNat 512 (leNat cur)
      if x.prev = some cur ∧ x.accepted ≠ v then (true, { cur := [], prev := some cur, accepted := v })
      else (false, { x with cur := [], prev := some cur })

/-- Bytes of columns in order. -/
def colBytes (cols : List (BitVec 128)) : List Byte := cols.flatMap Crypto.blockBytes

/-- BIP-8: the exclusive-or of all bytes (R184, R187). -/
def bip8 (cols : List (BitVec 128)) : BitVec 8 :=
  let x := cols.foldl (· ^^^ ·) 0
  (Crypto.blockBytes x).foldl (· ^^^ ·) 0

/-- Number of 1 bits of a byte. -/
def popByte (b : Byte) : Nat := (List.range 8).foldl (fun n i => n + b2n (b.getLsbD i)) 0

/-- The transmit or receive association of line port Ln on the transport path: an ACTIVE one first, else any that is not FREE. -/
def State.facetAssoc (s : State) (n : Nat) (recv : Bool) : Option Nat :=
  let mine := s.assoc.ctx.filter fun e => e.2.facet && e.2.recv == recv && e.2.status != .free && e.2.lp == 64 + 4 * n
  match mine.find? (·.2.status == .active) with
  | some e => some e.1
  | none => (mine.find? (·.2.status != .ready)).map (·.1)

/-- The DK slot of a key phase. -/
def Assoc.phaseDk (a : Assoc) (ph : Bool) : Nat := if ph then a.dkB.toNat else a.dkA.toNat

/-- The salt of a key phase (Table 4.1). -/
def Assoc.salt (a : Assoc) (ph : Bool) : BitVec 32 := if ph then a.sci.extractLsb' 32 32 else a.sci.extractLsb' 0 32

/-- The IV of a Facet frame: salt, unit ID, 48-bit counter (R162). -/
def facetIv (salt : BitVec 32) (unit : BitVec 16) (ctr : Nat) : BitVec 96 := salt ++ unit ++ BitVec.ofNat 48 ctr

/-- The AAD blocks of a frame from its overhead bytes: 0 to 15 and 21 to 63, zero-padded (R163). -/
def facetAad (oh : List Byte) : List (BitVec 128) := Crypto.blocks (oh.take 16 ++ oh.drop 21)

/-- Stamp a sampled keyed frame of port Ln: kind 1 transmit, 2 receive (R389). -/
def State.facetStamp (s : State) (n kind ctr : Nat) : State :=
  let cfg := s.regN (0x01400104 + 0x20 * (16 + n))
  let per := 64 * 2 ^ bits cfg 24 4
  if bitOf cfg 31 ∧ ctr % per = 0 then
    s.txtsPush (16 + n) (txtsEntry (ctr / per) kind 0 0 (if kind = 1 then s.txStamp (16 + n) 3 else s.rxStamp (16 + n) 3))
  else s

/-- The symbols of a codeword by line lane 4n + i: logical lane l on lane 4n + l, or on 4n + 3 − l while LANE_CFG.TX_REVERSE of lane 4n is set (R429). -/
def State.onLanes (s : State) (n : Nat) (lanes : List (List (BitVec 10))) : List (List (BitVec 10)) :=
  if bitOf (s.regN (laneOff (64 + 4 * n))) 29 then lanes.reverse else lanes

/-- Send the codewords that a list of scrambled message bits fills: after 4,095 data codewords comes a marker codeword (R141 to R143).
Fuel bounds the codewords. -/
def State.codewords (n : Nat) : Nat → State → State
  | 0, s => s
  | f + 1, s =>
    let p := s.facetPort n
    if p.pendLen < 5140 then s
    else
      let s := (s.setFacet n { p with pend := p.pend / 2 ^ 5140, pendLen := p.pendLen - 5140, words := p.words + 1 }).emit
        (.codeword n (s.onLanes n (fecLanes (fecMessage (p.pend % 2 ^ 5140)))))
      State.codewords n f (if p.words + 1 < 4095 then s
        else (s.modFacet n fun p => { p with words := 0, markers := p.markers + 1 }).emit
          (.codeword n (s.onLanes n (fecLanes (markerMessage p.markers)))))

/-- The Facet FEC sublayer sends a frame: its bits are scrambled in transmission order, and codewords leave as they fill (R142). -/
def State.lineStream (s : State) (n : Nat) (cols : List (BitVec 128)) : State :=
  let p := s.facetPort n
  let (bits, st) := scramble p.scram (cols.flatMap fun c => msbBits 128 c.toNat)
  (s.setFacet n { p with pend := p.pend + 2 ^ p.pendLen * ofLsb bits, pendLen := p.pendLen + bits.length, scram := st }).codewords n 26

end Sys2Proof.Machine
end

