-- ==== Sys2Proof/Machine/Parser.lean ====
section
/-! DEFINITION. The Locus parser: the headers of Table 13.3 and the fields of Table 13.4 (chapter 13). -/

namespace Sys2Proof.Machine

/-- Frame classes (R313), in the order of LOCUS_PORT_PROFILE_lp from bit 0. -/
inductive FrameClass where
  | l2 | ipv4 | ipv6 | mpls
  deriving DecidableEq, Repr

/-- What the parser found (R313). -/
structure Parsed where
  cls : FrameClass := .l2
  /-- A header extends beyond byte 255. -/
  trunc : Bool := false
  /-- A non-first fragment. -/
  frag : Bool := false
  /-- More than two extension headers. -/
  extLimit : Bool := false
  /-- An IPv4 header failed. -/
  ipErr : Bool := false
  /-- Version of the IP header that gave the addresses, an inner one under MPLS; 0 where there is none. -/
  ver : Nat := 0
  dmac : Nat := 0
  smac : Nat := 0
  ovid : Nat := 0
  ivid : Nat := 0
  etype : Nat := 0
  ip4d : Nat := 0
  ip4s : Nat := 0
  ip6d : Nat := 0
  ip6s : Nat := 0
  proto : Nat := 0
  l4s : Nat := 0
  /-- L4 destination port, where the frame has one. -/
  l4d : Option Nat := none
  dscp : Nat := 0
  label : Nat := 0
  deriving DecidableEq, Repr

/-- VLAN TPIDs (Table 13.3). -/
def isTpid (e : Nat) : Bool := e == 0x8100 || e == 0x88A8 || e == 0x9100

/-- Bytes up to offset n of the frame lie within it and within the first 256 bytes (R313). -/
def room (d : List Byte) (n : Nat) : Bool := n ≤ d.length && n ≤ 256

/-- A header that ends at n is cut at byte 255. -/
def Parsed.cut (p : Parsed) (d : List Byte) (n : Nat) : Parsed := if 256 < n ∧ 256 ≤ d.length then { p with trunc := true } else p

/-- The one's complement sum of a header's 16-bit words. -/
def sum16 : List Byte → Nat
  | a :: b :: rest => a.toNat * 256 + b.toNat + sum16 rest
  | [a] => a.toNat * 256
  | [] => 0

/-- The header checksum is correct. -/
def csumOk (h : List Byte) : Bool :=
  let s := sum16 h
  let s := s % 65536 + s / 65536
  s % 65536 + s / 65536 == 65535

/-- The layer-4 header (Table 13.3): UDP, TCP and SCTP ports, ICMP type and code. A header must end by byte 255 (log entry 50). -/
def parseL4 (d : List Byte) (off proto icmp : Nat) (p : Parsed) : Parsed :=
  let p := { p with proto := proto }
  if proto = 6 ∨ proto = 17 ∨ proto = 132 then
    let hl := if proto = 17 then 8 else if proto = 132 then 12 else if off + 12 < d.length then max 20 (beAt d (off + 12) 1 / 16 * 4) else 20
    if 256 < off + hl then { p with trunc := true }
    else if room d (off + 4) then { p with l4s := beAt d off 2, l4d := some (beAt d (off + 2) 2) }
    else p
  else if proto = icmp then
    if 256 < off + (if icmp = 1 then 8 else 4) then { p with trunc := true }
    else if room d (off + 2) then { p with l4s := beAt d off 1, l4d := some (beAt d (off + 1) 1) }
    else p
  else p

/-- An IPv4 header at off; `outer` gives the frame its class (Table 13.3). -/
def parseIp4 (d : List Byte) (off : Nat) (outer : Bool) (p : Parsed) : Parsed :=
  if !room d (off + 20) then p.cut d (off + 20)
  else
    let v := beAt d off 1
    let hl := 4 * (v % 16)
    if v / 16 = 4 ∧ 5 ≤ v % 16 ∧ !room d (off + hl) then p.cut d (off + hl)
    else if v / 16 ≠ 4 ∨ v % 16 < 5 ∨ !csumOk (slice d off hl) then { p with ipErr := true }
    else
      let p := { p with cls := if outer then .ipv4 else p.cls, ver := 4, dscp := beAt d (off + 1) 1 / 4, ip4s := beAt d (off + 12) 4,
                        ip4d := beAt d (off + 16) 4 }
      if beAt d (off + 6) 2 % 8192 ≠ 0 then { p with frag := true, proto := beAt d (off + 9) 1 }
      else parseL4 d (off + hl) (beAt d (off + 9) 1) 1 p

/-- IPv6 extension headers, at most two, then layer 4 (Table 13.3); `n` headers may still come. -/
def parseExt (d : List Byte) : Nat → Nat → Nat → Parsed → Parsed
  | n, off, nh, p =>
    if nh = 0 ∨ nh = 43 ∨ nh = 44 ∨ nh = 60 then
      match n with
      | 0 => { p with extLimit := true, proto := nh }
      | n + 1 =>
        if !room d (off + 8) then p.cut d (off + 8)
        else
          let len := if nh = 44 then 8 else (beAt d (off + 1) 1 + 1) * 8
          if !room d (off + len) then p.cut d (off + len)
          else
            let p := if nh = 44 ∧ beAt d (off + 2) 2 / 8 ≠ 0 then { p with frag := true } else p
            parseExt d n (off + len) (beAt d off 1) p
    else if p.frag then { p with proto := nh }
    else parseL4 d off nh 58 p

/-- An IPv6 header at off. -/
def parseIp6 (d : List Byte) (off : Nat) (outer : Bool) (p : Parsed) : Parsed :=
  if !room d (off + 40) then p.cut d (off + 40)
  else if beAt d off 1 / 16 ≠ 6 then p
  else
    let p := { p with cls := if outer then .ipv6 else p.cls, ver := 6, dscp := beAt d off 2 / 64 % 64, ip6s := beAt d (off + 8) 16,
                      ip6d := beAt d (off + 24) 16 }
    parseExt d 2 (off + 40) (beAt d (off + 6) 1) p

/-- MPLS labels, at most four, then an inner IP header (Table 13.3). -/
def parseMpls (d : List Byte) (first : Bool) : Nat → Nat → Parsed → Parsed
  | 0, _, p => p
  | n + 1, off, p =>
    if !room d (off + 4) then p.cut d (off + 4)
    else
      let l := beAt d off 4
      let p := if first then { p with label := l / 4096 } else p
      if l / 256 % 2 = 0 then parseMpls d false n (off + 4) p
      else if !room d (off + 5) then p
      else if beAt d (off + 4) 1 / 16 = 4 then parseIp4 d (off + 4) false p
      else if beAt d (off + 4) 1 / 16 = 6 then parseIp6 d (off + 4) false p
      else p

/-- VLAN tags, at most two, then the EtherType (Table 13.3); `n` tags may still come. -/
def parseTags (d : List Byte) : Nat → Nat → Parsed → Parsed
  | n, off, p =>
    let e := beAt d off 2
    if isTpid e then
      match n with
      | 0 => { p with etype := e }
      | n + 1 =>
        if !room d (off + 6) then p.cut d (off + 6)
        else
          let vid := beAt d (off + 2) 2 % 4096
          parseTags d n (off + 4) (if n = 1 then { p with ovid := vid } else { p with ivid := vid })
    else if e < 0x0600 then p
    else
      let p := { p with etype := e }
      if e = 0x8847 ∨ e = 0x8848 then parseMpls d true 4 (off + 2) { p with cls := .mpls }
      else if e = 0x0800 then parseIp4 d (off + 2) true p
      else if e = 0x86DD then parseIp6 d (off + 2) true p
      else p

/-- Parse a frame, from its destination address and without its FCS (R313). -/
def parseFrame (d : List Byte) : Parsed :=
  if !room d 14 then {}
  else parseTags d 2 12 { dmac := beAt d 0 6, smac := beAt d 6 6 }

/-- Width of a selector's field (Table 13.4). -/
def selWidth : Nat → Nat
  | 1 | 2 => 48 | 3 | 4 => 12 | 5 => 16 | 6 => 7 | 7 | 8 => 32 | 9 | 10 => 128 | 11 => 8 | 12 | 13 => 16 | 14 => 6 | 15 => 20 | _ => 0

/-- The value of a selector's field; `src` puts the source MAC where the destination MAC stands (R315). -/
def Parsed.field (p : Parsed) (lp : Nat) (src : Bool) : Nat → Nat
  | 1 => if src then p.smac else p.dmac | 2 => p.smac | 3 => p.ovid | 4 => p.ivid | 5 => p.etype | 6 => lp | 7 => p.ip4d | 8 => p.ip4s
  | 9 => p.ip6d | 10 => p.ip6s | 11 => p.proto | 12 => p.l4s | 13 => p.l4d.getD 0 | 14 => p.dscp | 15 => p.label | _ => 0

/-- The selectors before the first 0. -/
def selectors (sel : Nat) : List Nat := ((List.range 8).map fun k => bits sel (4 * k) 4).takeWhile (· != 0)

/-- The selectors that are placed, with their bit positions, and whether some field does not fit (R314). -/
def placed (sel : Nat) : List (Nat × Nat) × Bool :=
  let r := (selectors sel).foldl (fun (a : List (Nat × Nat) × Nat × Bool) c =>
    if 128 < a.2.1 + selWidth c then (a.1, a.2.1, true) else (a.1 ++ [(c, a.2.1)], a.2.1 + selWidth c, a.2.2)) ([], 0, false)
  (r.1, r.2.2)

/-- The lookup key of a frame (R314), or its source key (R315). -/
def packKey (sel : Nat) (p : Parsed) (lp : Nat) (src : Bool) : BitVec 128 :=
  BitVec.ofNat 128 ((placed sel).1.foldl (fun k c => k + (p.field lp src c.1 % 2 ^ selWidth c.1) * 2 ^ c.2) 0)

/-- LOCUS_PROFILE_p_CTRL.ERR (R314, R315, R319). -/
def profileErr (ctrl sel : Nat) : Bool :=
  let (cs, tooFar) := placed sel
  selectors sel == [] || tooFar || (bitOf ctrl 29 && !cs.any (·.1 == 1)) || bits ctrl 24 4 == 0

end Sys2Proof.Machine
end

