-- ==== Sys2Proof/Machine/LocusOps.lean ====
section
/-! DEFINITION. Locus: the exact-match table, prefixes, learning and the classification of a frame (chapter 13). -/

namespace Sys2Proof.Machine

/-- Replace the Locus state. -/
def State.withLocus (s : State) (x : LocusState) : State := { s with locus := x }

/-! ### Exact-match table (R320 to R323): slots 4 b + i of bank 0, 294,912 + 4 b + i of bank 1, the stash from 589,824 -/

/-- Buckets in a bank. -/
def emBuckets : Nat := 73728
/-- First stash slot. -/
def stashSlot : Nat := 589824
/-- Candidate bucket of a key in a bank: the keyed hash of R320. -/
def State.emHash (s : State) (bank : Nat) (profile : BitVec 4) (key : BitVec 128) : Nat :=
  Config.bucketHash 0 bank s.locus.seed.toNat (key.toNat * 16 + profile.toNat) % emBuckets
/-- A bucket as a number: [17] bank, [16:0] bucket. -/
def bucketNo (bank b : Nat) : Nat := 2 ^ 17 * bank + b
/-- First slot of a bucket given as a number. -/
def bucketSlot (n : Nat) : Nat := 294912 * (n / 2 ^ 17) + 4 * (n % 2 ^ 17)
/-- The slots of a bucket. -/
def slotsOf (n : Nat) : List Nat := (List.range 4).map (bucketSlot n + ·)
/-- The bucket of a slot; none in the stash. -/
def slotBucket (k : Nat) : Option Nat := if stashSlot ≤ k then none else some (bucketNo (k / 294912) (k % 294912 / 4))
/-- The two candidate buckets of a key. -/
def State.candidates (s : State) (profile : BitVec 4) (key : BitVec 128) : List Nat :=
  [bucketNo 0 (s.emHash 0 profile key), bucketNo 1 (s.emHash 1 profile key)]

/-- A bucket with an uncorrectable slot (R323). -/
def State.badBucket (s : State) (n : Nat) : Bool := (slotsOf n).any s.locus.badSlots.contains

/-- Lookup: the entry of a key and its slot; an uncorrectable bucket misses (R320, R323). -/
def State.emFind (s : State) (profile : BitVec 4) (key : BitVec 128) : Option (Nat × EmEntry) :=
  s.locus.em.find? fun e => e.2.profile == profile && e.2.key == key &&
    !(match slotBucket e.1 with
      | some b => s.badBucket b
      | none => false)

/-- The entry of a slot. -/
def State.emAt (s : State) (k : Nat) : Option EmEntry := (s.locus.em.find? (·.1 == k)).map (·.2)

/-- Write a slot: that rewrites it (R323). -/
def State.emPut (s : State) (k : Nat) (e : Option EmEntry) : State :=
  s.withLocus { s.locus with
    em := match e with
      | some e => tins s.locus.em k e
      | none => tdel s.locus.em k
    badSlots := s.locus.badSlots.filter (· != k) }

/-- Set HIT of the entry in a slot. -/
def State.setHit (s : State) (k : Nat) : State :=
  match s.emAt k with
  | some e => s.withLocus { s.locus with em := tins s.locus.em k { e with hit := true } }
  | none => s

/-- Stash entries in use. -/
def State.stashUsed (s : State) : Nat := (s.locus.em.filter fun e => stashSlot ≤ e.1).length

/-- LEARN_COUNT of a logical port (Table 13.20). -/
def State.learnCount (s : State) (lp : Nat) : Nat := (s.locus.em.filter fun e => e.2.learned && e.2.learnLp.toNat == lp).length

/-- A bucket's lock: owner and end of lease. -/
def State.lockOf (s : State) (n : Nat) : Option (Nat × Nat) := (s.locus.locks.find? (·.1 == n)).map (·.2)

/-- A bucket that another owner than o holds locked (Table 13.10). -/
def State.lockedFor (s : State) (o n : Nat) : Bool := match s.lockOf n with
  | some (w, _) => w != o
  | none => false

/-- Free slots of a bucket. Only a table write may use an uncorrectable bucket: to it the slots not yet rewritten are free (R323). -/
def State.freeSlots (s : State) (cmd : Bool) (n : Nat) : List Nat :=
  if s.badBucket n ∧ !cmd then []
  else (slotsOf n).filter fun k => (s.emAt k).isNone || s.locus.badSlots.contains k

/-- The other candidate bucket of an entry that stands in bucket n. -/
def State.alternate (s : State) (e : EmEntry) (n : Nat) : Nat :=
  let bank := 1 - n / 2 ^ 17
  bucketNo bank (s.emHash bank e.profile e.key)

/-- The moves out of bucket n that a search which has examined `seen` may look at, each as slot and alternate bucket: no bucket twice, none
that is locked or uncorrectable, and no more than 512 buckets in all (R322, Table 13.10). -/
def State.movesFrom (s : State) (n : Nat) (seen : List Nat) : List (Nat × Nat) :=
  ((slotsOf n).foldl (fun (l : List (Nat × Nat)) k => match s.emAt k with
    | some e =>
      let m := s.alternate e n
      if seen.contains m ∨ l.any (·.2 == m) ∨ (s.lockOf m).isSome ∨ s.badBucket m then l else l ++ [(k, m)]
    | none => l) []).take (512 - seen.length)

/-- Breadth-first search for a relocation path of at most 32 moves over at most 512 buckets (R322): the slots from the candidate bucket to
a free slot. Locked buckets count as full. -/
def State.bfs (s : State) : Nat → List (Nat × List Nat) → List Nat → Option (List Nat)
  | 0, _, _ => none
  | _, [], _ => none
  | fuel + 1, (n, path) :: rest, seen =>
    if 32 ≤ path.length ∨ (s.lockOf n).isSome ∨ s.badBucket n then s.bfs fuel rest seen
    else
      let nexts := s.movesFrom n seen
      match nexts.find? fun x => s.freeSlots false x.2 ≠ [] with
      | some x => some (path ++ [x.1, (s.freeSlots false x.2).headD 0])
      | none => s.bfs fuel (rest ++ nexts.map fun x => (x.2, path ++ [x.1])) (seen ++ nexts.map (·.2))

/-- Carry out the moves of a path, from its free end; answers the slot freed in the candidate bucket (R322). -/
def State.movePath (s : State) : List Nat → Nat × State
  | [] => (0, s)
  | [k] => (k, s)
  | k :: rest =>
    let (dst, s) := s.movePath rest
    (k, (s.emPut dst (s.emAt k)).emPut k none)

/-- Place an entry in a bucket slot: a free slot of either candidate, or the end of a relocation path (R322). Which free slot is free. -/
def State.placeEntry (s : State) (cmd : Bool) (e : EmEntry) : Option Nat × State :=
  let bs := s.candidates e.profile e.key
  match bs.flatMap (s.freeSlots cmd) with
  | k :: ks =>
    let (r, s) := s.draw 3
    (some ((k :: ks).getD (r % (ks.length + 1)) k), s)
  | [] => match s.bfs 512 (bs.map fun n => (n, [])) bs with
    | some path =>
      let (k, s) := s.movePath path
      (some k, s)
    | none => (none, s)

/-- Insert an entry whose key is absent, or fail for want of space (R322): event 0x0A1 with its origin, 0 command, 1 learn. -/
def State.emInsert (s : State) (cmd : Bool) (e : EmEntry) : Bool × State :=
  let fail := fun (s : State) => (false, s.raise 0x0A1 [BitVec.ofNat 8 e.profile.toNat, BitVec.ofNat 8 (b2n !cmd)])
  if 524288 ≤ s.locus.em.length then fail s
  else
    match s.placeEntry cmd e with
    | (some k, s) => (true, s.emPut k (some e))
    | (none, s) =>
      match (List.range 64).find? fun i => (s.emAt (stashSlot + i)).isNone with
      | none => fail s
      | some i =>
        let s := s.emPut (stashSlot + i) (some e)
        (true, if s.stashUsed = 48 then s.raise 0x0A7 [] else s)

/-! ### Longest prefix (R324, R325) -/

/-- Prefix key of an address of w bits cut to len bits. -/
def prefixKey (w len addr : Nat) : Nat := len * 2 ^ w + addr % 2 ^ w / 2 ^ (w - len) * 2 ^ (w - len)

/-- The next-hop index of the longest prefix of an address. -/
def lpmIndex (t : Tbl (Option (BitVec 16))) (w addr : Nat) : Option Nat :=
  (firstSome ((List.range (w + 1)).map fun i => tget none t (prefixKey w (w - i) addr))).map (·.toNat)

/-- The next-hop result of the longest prefix of a frame's destination (R324); a prefix whose next hop was never written does not hit
(log entry 51). -/
def State.lpm (s : State) (p : Parsed) : Option (BitVec 96) :=
  let i := if p.ver = 6 then lpmIndex s.locus.v6 128 p.ip6d
    else if p.ver = 4 then lpmIndex s.locus.v4 32 p.ip4d
    else none
  match i with
  | some i => tget none s.locus.hops i
  | none => none

/-! ### Results (Table 13.5) -/

/-- ACTION. -/
def resAction (r : Nat) : Nat := bits r 28 4
/-- SIDE and LPORT as one logical port number. -/
def resLp (r : Nat) : Nat := bits r 27 1 * 64 + bits r 21 6
/-- QUEUE. -/
def resQueue (r : Nat) : Nat := bits r 9 12
/-- FLOOD_SET. -/
def resFlood (r : Nat) : Nat := r % 16
/-- The policer, where POLICE is 1. -/
def resPolicer (r : Nat) : Option Nat := if bitOf r 63 then some (bits r 32 16) else none
/-- The secure channel, where SC_VALID is 1. -/
def resSc (r : Nat) : Option Nat := if bitOf r 95 then some (bits r 64 17) else none

/-- LOCUS_PORT_DEFAULT_lp. -/
def State.portDefault (s : State) (lp : Nat) : Nat := s.regN (0x00C00404 + 8 * lp)

/-- The RESULT of a learned entry (R327). -/
def State.learnedResult (s : State) (lp : Nat) : BitVec 96 :=
  let d := s.portDefault lp
  let sc := if 64 ≤ lp ∧ bitOf d 31 then 2 ^ 31 + d % 2 ^ 17 else 0
  BitVec.ofNat 96 (2 ^ 27 * (lp / 64) + 2 ^ 21 * (lp % 64) + 2 ^ 9 * bits d 17 12 + 2 ^ 64 * sc)

/-- A client logical port that an enabled Facet port cross-connects (R31, R32). -/
def State.attached (s : State) (lp : Nat) : Bool :=
  s.facet.any fun e => e.2.active && (List.range e.2.trib).any fun t => (e.2.slot t).equipped && (e.2.slot t).client.toNat == lp

/-! ### Learning requests (R326, R328) -/

/-- LOCUS_LEARN_CFG_lp. -/
def State.learnCfg (s : State) (lp : Nat) : Nat := s.regN (0x00C00400 + 8 * lp)
/-- Requests of a logical port that are pending. -/
def State.learnPending (s : State) (lp : Nat) : Nat :=
  ((s.locus.learns ++ s.locus.side).filter fun r => r.lp.toNat == lp).length

/-- A request that finds no room is discarded (R328). -/
def State.discardLearn (s : State) (lp : Nat) : State :=
  let s := (s.withLocus { s.locus with discarded := s.locus.discarded + 1 }).count (cid 0x07 15 lp)
  if s.once.contains (onceKey 0x0A5 0) then s
  else (s.withLocus { s.locus with discarded := 0 }).raiseOnce 0x0A5 0 (le 4 s.locus.discarded)

/-- Queue a learn request (R328). -/
def State.queueLearn (s : State) (r : LearnReq) : State :=
  if s.locus.learns.length < 4096 then s.withLocus { s.locus with learns := s.locus.learns ++ [r] } else s.discardLearn r.lp.toNat

/-- The source check of step 4 (Table 13.8); the answer is whether the frame is dropped. -/
def State.sourceCheck (s : State) (profile : BitVec 4) (key : BitVec 128) (lp : Nat) : Bool × State :=
  let req : LearnReq := { key := key, profile := profile, lp := BitVec.ofNat 7 lp }
  match s.emFind profile key with
  | some (k, e) =>
    let s := s.setHit k
    let here := resAction e.result.toNat = 0 ∧ resLp e.result.toNat = lp
    if e.learned ∧ e.learnLp.toNat = lp then (false, s)
    else if (e.static ∨ !e.learned) ∧ here then (false, s)
    else if e.static then (false, s.count (cid 0x07 12 lp))
    else (false, s.queueLearn req)
  | none =>
    let cfg := s.learnCfg lp
    if s.learnCount lp + s.learnPending lp < cfg % 2 ^ 20 then (false, s.queueLearn req)
    else
      let s := (s.count (cid 0x07 13 lp)).raiseOnce 0x0A3 lp [BitVec.ofNat 8 lp]
      if bitOf cfg 30 then (true, s.count (cid 0x07 14 lp)) else (false, s)

/-! ### Classification (R311) -/

/-- What Locus is given beside the frame. -/
structure Arrival where
  frame : TFrame
  perr : Bool
  /-- Lookups that find an uncorrectable bucket: 2 for the source key's, plus the bank (R323). -/
  em : List (Fin 4)

/-- A frame's holder while Locus and Tessera write it: its ingress logical port (Table 14.2). -/
def Arrival.lp (a : Arrival) : Nat := a.frame.lp

/-- Frame length under R8. -/
def TFrame.len (f : TFrame) : Nat := f.bytes.length + 4

/-- Write the frame into cells and go on, or drop it with NO_BUFFER (R343). -/
def State.store (s : State) (a : Arrival) (k : Nat → State → State) : State :=
  match s.allocFrame a.lp a.frame with
  | (some id, s) => k id s
  | (none, s) => s

/-- Punt a frame to queue q (R20, Table 14.11). -/
def State.puntFrame (s : State) (a : Arrival) (q reason : Nat) : State :=
  (s.count (cid 0x07 1 a.lp)).store a fun id s => s.punt id q reason a.lp

/-- Offer a frame to Sector. -/
def State.forward (s : State) (a : Arrival) (id side lp queue : Nat) (yellow : Bool) (sc : Option Nat) : State :=
  (s.enter { side := side, queue := queue, lp := lp, yellow := yellow, fromLine := 64 ≤ a.lp, sc := if side = 1 then sc else none
             unctl := false, tsId := none } id (some a.lp)).2

/-- The ports of a flood set that get a copy (R318), in ascending order. -/
def State.floodPorts (s : State) (set ingress : Nat) : List Nat :=
  let side := 1 - ingress / 64
  let mask := s.regN (0x00C00A00 + 8 * set) + 2 ^ 32 * s.regN (0x00C00A04 + 8 * set)
  (List.range 64).filter fun i =>
    let lp := 64 * side + i
    bitOf mask i && (s.lport lp).enabled && (if side = 0 then !s.attached lp else bitOf (s.portDefault lp) 31)

/-- FLOOD: one copy for each port (R318, R345). -/
def State.flood (s : State) (a : Arrival) (set : Nat) (yellow : Bool) : State :=
  match s.floodPorts set a.lp with
  | [] => s
  | p :: ps => s.store a fun id s =>
    let (made, s) := ps.foldl (fun (x : List Nat × State) q =>
      match x.2.copyFrame id (some a.lp) with
      | (true, s) => (x.1 ++ [q], s)
      | (false, s) => (x.1, s)) ([p], s)
    let side := 1 - a.lp / 64
    let s := s.countN (cid 0x07 9 a.lp) made.length
    made.foldl (fun s i =>
      let d := s.portDefault (64 * side + i)
      s.forward a id side i (bits d 17 12) yellow (some (d % 2 ^ 17))) s

/-- The miss action of a profile (R319). -/
def State.missAction (s : State) (a : Arrival) (ctrl : Nat) : State :=
  match bits ctrl 24 4 with
  | 0 | 1 => s
  | 2 => s.puntFrame a (ctrl % 64) 2
  | 3 => s.flood a (bits ctrl 20 4) false
  | _ => s.count (cid 0x07 8 a.lp)

/-- The Radius divert test (R24, R335). -/
def State.divertTest (s : State) (p : Parsed) : Bool :=
  let ports := s.regN 0x03001004
  let port : Bool := match p.l4d with
    | some d => d == ports % 65536 || (ports / 65536 != 0 && d == ports / 65536)
    | none => false
  let v6 := p.cls == .ipv6
  (p.cls == .ipv4 || v6) && p.proto == 17 && port && (List.range 8).any fun i =>
    let ctl := s.regN (0x00C00B10 + 0x20 * i)
    let w := fun k => s.regN (0x00C00B00 + 0x20 * i + 4 * k)
    bitOf ctl 31 && bitOf ctl 30 == v6 &&
      (if v6 then 2 ^ 96 * w 3 + 2 ^ 64 * w 2 + 2 ^ 32 * w 1 + w 0 == p.ip6d else w 0 == p.ip4d)

/-- Divert a batch to the Radius inbound queue, or drop it (R24, R25, R342, R352). -/
def State.divert (s : State) (a : Arrival) : State :=
  let q := s.aq 255
  if s.radius.mode ≠ .running ∨ !q.open_ ∨ q.cap ≤ s.annulus.inbound.length then (s.count (cid 0x07 3 a.lp)).raise 0x1C2 []
  else (s.count (cid 0x07 2 a.lp)).store a fun id s =>
    (s.holdFrame id (some a.lp) (some 224)).inboundPut id

/-- An uncorrectable candidate bucket found by a lookup (R323). -/
def State.emUncorrectable (s : State) (lp n : Nat) : State :=
  let s := s.withLocus { s.locus with
    badSlots := s.locus.badSlots.filter (fun k => !(slotsOf n).contains k) ++ slotsOf n, eccBucket := BitVec.ofNat 18 n }
  ((s.setReg 0x00C0000C 0x80000000#32).count (cid 0x07 11 lp)).raise 0x0A2 (BitVec.ofNat 8 (n / 2 ^ 17) :: le 4 (n % 2 ^ 17))

/-- Steps 8 and 9 and the disposal of a result (R14, R311, R317, R371). -/
def State.useResult (s : State) (a : Arrival) (ctrl : Nat) (r : Nat) : State :=
  let lp := resLp r
  if resAction r = 0 ∧ (lp / 64 = a.lp / 64 ∨ (lp < 64 ∧ s.attached lp)) then (s.count (cid 0x07 5 a.lp)).missAction a ctrl
  else
    let (colour, s) := match resPolicer r with
      | some p => s.police p a.frame.len
      | none => (.green, s)
    let p := (resPolicer r).getD 0
    let yellowDrop := bitOf (s.srec (recKey 4 p)) 28
    if colour = .red then (s.count (cid 0x0B 0 p)).count (cid 0x07 6 a.lp)
    else if colour = .yellow ∧ yellowDrop then s
    else
      let y := colour == .yellow
      match resAction r with
      | 0 => s.store a fun id s => s.forward a id (lp / 64) (lp % 64) (resQueue r) y (resSc r)
      | 1 => s
      | 2 => s.puntFrame a (resQueue r % 64) 1
      | 3 => s.flood a (resFlood r) y
      | _ => s.count (cid 0x07 8 a.lp)

/-- The decisions of Table 13.1 for one frame. -/
def State.classify (s : State) (a : Arrival) : State :=
  let lp := a.lp
  if a.perr then (s.count (cid 0x07 0 lp)).raiseOnce 0x0A0 0 [BitVec.ofNat 8 lp]
  else
    let p := parseFrame a.frame.bytes
    let s := if p.ipErr then s.count (cid 0x07 7 lp) else s
    if a.frame.unctl then s.puntFrame a 0 0
    else if s.divertTest p then s.divert a
    else
      let cls := match p.cls with
        | .l2 => 0
        | .ipv4 => 1
        | .ipv6 => 2
        | .mpls => 3
      let n := bits (s.regN (0x00C00200 + 4 * lp)) (4 * cls) 4
      let prof := BitVec.ofNat 4 n
      let ctrl := s.regN (0x00C00100 + 8 * n)
      let sel := s.regN (0x00C00104 + 8 * n)
      let learns := bitOf ctrl 29 && (placed sel).1.any (·.1 == 1) && bitOf (s.learnCfg lp) 31
      let bad := fun (src : Bool) (key : BitVec 128) (s : State) => (a.em.filter fun i => src == decide (2 ≤ i.val)).foldl (fun s i =>
        s.emUncorrectable lp (bucketNo (i.val % 2) (s.emHash (i.val % 2) prof key))) s
      let (dropped, s) := if learns then (bad true (packKey sel p lp true) s).sourceCheck prof (packKey sel p lp true) lp else (false, s)
      if dropped then s
      else
        let key := packKey sel p lp false
        let s := if bitOf ctrl 31 then bad false key s else s
        let hit := if bitOf ctrl 31 then s.emFind prof key else none
        match hit with
        | some (k, e) => (s.setHit k).useResult a ctrl e.result.toNat
        | none => match (if bitOf ctrl 30 then s.lpm p else none) with
          | some r => s.useResult a ctrl r.toNat
          | none => (s.count (cid 0x07 4 lp)).missAction a ctrl

end Sys2Proof.Machine
end

