-- ==== Sys2Proof/Machine/LocusTables.lean ====
section
/-! DEFINITION. Locus table commands and locks (R331, R332, R334, R498 to R500). -/

namespace Sys2Proof.Machine

/-- The 32 bytes of an entry (Table 13.6). -/
def EmEntry.bytes (e : EmEntry) : List Byte :=
  le 16 e.key.toNat ++ [BitVec.ofNat 8 (128 + 64 * b2n e.static + 32 * b2n e.learned + 16 * b2n e.hit + e.profile.toNat),
    BitVec.ofNat 8 e.learnLp.toNat, 0, 0] ++ le 12 e.result.toNat

/-- The entry a 32-byte record gives. -/
def entryOf (r : List Byte) : EmEntry :=
  let f := leAt r 0x10 1
  { key := BitVec.ofNat 128 (leAt r 0 16), profile := BitVec.ofNat 4 f, static := bitOf f 6, learned := bitOf f 5, hit := bitOf f 4
    learnLp := BitVec.ofNat 7 (leAt r 0x11 1), result := BitVec.ofNat 96 (leAt r 0x14 12) }

/-- An output or exchange buffer runs past the end of the region that holds its start (R499; log entry 52). -/
def State.bufShort (s : State) (a n : Nat) : Bool :=
  match s.regionAt a with
  | some k => (s.region k).lo + (s.region k).bytes < a + n
  | none => false

/-- One record of TBL_READ by key, with its bucket indices (R498). -/
def State.readKey (s : State) (r : List Byte) : List Byte :=
  let e := entryOf r
  let bs := s.candidates e.profile e.key
  (match s.emFind e.profile e.key with
    | some (_, x) => x.bytes
    | none => le 16 e.key.toNat ++ [BitVec.ofNat 8 e.profile.toNat] ++ List.replicate 15 0) ++ le 4 (bs.getD 0 0) ++ le 4 (bs.getD 1 0)

/-- The bytes of a slot. -/
def State.slotBytes (s : State) (k : Nat) : List Byte := match s.emAt k with
  | some e => e.bytes
  | none => List.replicate 32 0

/-- One record of TBL_READ of a prefix (R498). -/
def readPrefix (t : Tbl (Option (BitVec 16))) (w : Nat) (r : List Byte) : List Byte :=
  let len := leAt r 0x10 1
  match (if len ≤ w then tget none t (prefixKey w len (leAt r 0 (w / 8))) else none) with
  | some i => slice r 0 17 ++ [1] ++ le 2 i.toNat ++ List.replicate 4 0
  | none => slice r 0 17 ++ List.replicate 7 0

/-- One record of TBL_READ of a next hop (R498). -/
def State.readHop (s : State) (r : List Byte) : List Byte :=
  slice r 0 2 ++ [0, 0] ++ le 12 (((tget none s.locus.hops (leAt r 0 2)).map (·.toNat)).getD 0)

/-- Record size of a table's buffers (R498). -/
def tblStride : Nat → Nat
  | 0 => 40 | 1 => 128 | 2 | 3 => 24 | _ => 16

/-- The body of TBL_READ (R331, R498, R499). -/
def tblReadBody (d : Desc) (s : State) : State :=
  let t := d.get 8 1
  let n := d.get 0xC 4
  let a := d.get 0x10 8
  let b := d.get 0x18 4
  let stash := t = 1 ∧ bitOf d.flags 0
  let len := n * tblStride t + if stash then 64 * 32 + 4 else 0
  if 4 < t ∨ n = 0 ∨ 4096 < n ∨ (t ≠ 1 ∧ b ≠ 0) ∨ (t = 1 ∧ (2 ^ 18 ≤ b ∨ emBuckets < b % 2 ^ 17 + n)) then s.done d .badRequest
  else if s.bufShort a len then s.complete d { status := .bufferFull, r0 := len }
  else if t = 1 then
    let out := (List.range n).flatMap fun i => (slotsOf (b + i)).flatMap s.slotBytes
    let out := if stash then out ++ ((List.range 64).flatMap fun i => s.slotBytes (stashSlot + i)) ++ le 4 s.locus.em.length else out
    s.writeBufDone d .locusDma a out { status := .ok, r0 := len }
  else s.withBuf d .locusDma a len fun bs s =>
    let recs := (List.range n).map fun i => slice bs (i * tblStride t) (tblStride t)
    let out := recs.flatMap fun r => match t with
      | 0 => s.readKey r
      | 2 => readPrefix s.locus.v4 32 r
      | 3 => readPrefix s.locus.v6 128 r
      | _ => s.readHop r
    s.writeBufDone d .locusDma a out { status := .ok, r0 := len }

/-- TBL_READ (R499). -/
def execTblRead (d : Desc) (s : State) : Out :=
  .next (ringCommand d 1 [(8, 1), (0xC, 4), (0x10, 8), (0x18, 4)] (tblReadBody d) s)

/-! ### Commands that may wait on a lock (Table 13.10) -/

/-- What a table command has come to: it waits, or it completes. -/
inductive TblRes where
  | wait (done : Nat)
  | finish (rep : Reply)

/-- One exact-match record of TBL_WRITE by OP (R331): the status of a failure, or none. -/
def State.writeEntry (s : State) (op : Nat) (r : List Byte) : Option Status × State :=
  let e := entryOf r
  if leAt r 0x12 2 ≠ 0 ∨ bitOf (leAt r 0x11 1) 7 then (some .badRequest, s)
  else match op, s.emFind e.profile e.key with
    | 0, some _ => (some .exists_, s)
    | 0, none => match s.emInsert true e with
      | (true, s) => (none, s)
      | (false, s) => (some .tableFull, s)
    | _, none => (some .notFound, s)
    | 1, some (k, _) =>
      if k < stashSlot then (none, s.emPut k (some e))
      else
        let s := s.emPut k none
        match s.placeEntry true e with
        | (some j, s) => (none, s.emPut j (some e))
        | (none, s) => (none, s.emPut k (some e))
    | 2, some (k, _) => (none, s.emPut k none)
    | _, some (k, x) => (none, s.withLocus { s.locus with em := tins s.locus.em k { x with hit := false } })

/-- One prefix record of TBL_WRITE: address width w, capacity cap (R324, R325). -/
def writePrefix (w cap op : Nat) (t : Tbl (Option (BitVec 16))) (r : List Byte) : Except Status (Tbl (Option (BitVec 16))) :=
  let len := leAt r 0x10 1
  let k := prefixKey w len (leAt r 0 (w / 8))
  let i := BitVec.ofNat 16 (leAt r 0x12 2)
  if w < len ∨ 2 < op then .error .badRequest
  else match op, tget none t k with
    | 0, some _ => .error .exists_
    | 0, none => if cap ≤ t.length then .error .tableFull else .ok (tput none t k (some i))
    | _, none => .error .notFound
    | 1, some _ => .ok (tput none t k (some i))
    | _, some _ => .ok (tput none t k none)

/-- One next-hop record of TBL_WRITE (R331, R498). -/
def State.writeHop (s : State) (op : Nat) (r : List Byte) : Option Status × State :=
  let i := leAt r 0 2
  let v := BitVec.ofNat 96 (leAt r 4 12)
  let put := fun (x : Option (BitVec 96)) => ((none : Option Status), s.withLocus { s.locus with hops := tput none s.locus.hops i x })
  let named := fun (t : Tbl (Option (BitVec 16))) => t.any fun (e : Nat × Option (BitVec 16)) => e.2 == some (BitVec.ofNat 16 i)
  if 2 < op then (some .badRequest, s)
  else match op, tget none s.locus.hops i with
    | 0, some _ => (some .exists_, s)
    | 0, none => put (some v)
    | _, none => (some .notFound, s)
    | 1, some _ => put (some v)
    | _, some _ => if named s.locus.v4 || named s.locus.v6 then (some .inUse, s) else put none

/-- One record of TBL_WRITE. -/
def State.writeRecord (s : State) (t op : Nat) (r : List Byte) : Option Status × State :=
  match t with
  | 0 => s.writeEntry op r
  | 2 => match writePrefix 32 524288 op s.locus.v4 r with
    | .ok x => (none, s.withLocus { s.locus with v4 := x })
    | .error e => (some e, s)
  | 3 => match writePrefix 128 131072 op s.locus.v6 r with
    | .ok x => (none, s.withLocus { s.locus with v6 := x })
    | .error e => (some e, s)
  | _ => s.writeHop op r

/-- Record size of TBL_WRITE. -/
def writeStride (t : Nat) : Nat := if t = 0 then 32 else tblStride t

/-- Apply records in buffer order from number i, n of them left (R498). -/
def tblWriteGo (d : Desc) (buf : List Byte) : Nat → Nat → State → TblRes × State
  | 0, i, s => (.finish { status := .ok, r0 := i }, s)
  | n + 1, i, s =>
    let t := d.get 8 1
    let r := slice buf (i * writeStride t) (writeStride t)
    let e := entryOf r
    if t = 0 ∧ (s.candidates e.profile e.key).any (s.lockedFor (ringOwner d.ring.val)) then (.wait i, s)
    else match s.writeRecord t (d.get 9 1) r with
      | (none, s) => tblWriteGo d buf n (i + 1) s
      | (some st, s) => (.finish { status := st, r0 := i }, s)

/-- The key and profile fields of R500. -/
def Desc.tblKey (d : Desc) : BitVec 4 × BitVec 128 := (BitVec.ofNat 4 (d.get 0x20 1), BitVec.ofNat 128 (d.get 0x10 16))

/-- TBL_DELETE_IF_IDLE (R334). -/
def tblDeleteGo (d : Desc) (s : State) : TblRes × State :=
  let (p, key) := Desc.tblKey d
  if (s.candidates p key).any (s.lockedFor (ringOwner d.ring.val)) then (.wait 0, s)
  else match s.emFind p key with
    | none => (.finish { status := .notFound }, s)
    | some (k, e) =>
      if e.hit then (.finish { status := .hit }, s)
      else
        let s := s.emPut k none
        (.finish { status := .ok }, if e.learned then s.count (cid 0x07 20 e.learnLp.toNat) else s)

/-- The buckets a lock command names (R500). -/
def State.lockBuckets (s : State) (d : Desc) : Option (List Nat) :=
  if d.get 8 1 = 0 then
    let (p, key) := Desc.tblKey d
    if 15 < d.get 0x20 1 then none else some (s.candidates p key)
  else
    let b := d.get 0x18 4
    let n := d.get 0xC 4
    if d.get 8 1 ≠ 1 ∨ n = 0 ∨ 16 < n ∨ 2 ^ 18 ≤ b ∨ emBuckets < b % 2 ^ 17 + n then none else some ((List.range n).map (b + ·))

/-- TBL_LOCK (R332, R500). -/
def tblLockGo (d : Desc) (s : State) : TblRes × State :=
  let o := ringOwner d.ring.val
  match s.lockBuckets d with
  | none => (.finish { status := .badRequest }, s)
  | some bs =>
    if bs.any (s.lockedFor o) then (.wait 0, s)
    else
      let locks := bs.foldl (fun (t : Tbl (Nat × Nat)) b => tins t b (o, s.clk + 1000000)) s.locus.locks
      if 64 < locks.length then (.finish { status := .busy }, s)
      else (.finish { status := .ok }, s.withLocus { s.locus with locks := locks })

/-- Run a table command as far as locks let it. -/
def tblGo (w : TblWait) (s : State) : TblRes × State :=
  match w.desc.opcode with
  | 0x031 => tblWriteGo w.desc w.buf (w.desc.get 0xC 4 - w.done) w.done s
  | 0x032 => tblDeleteGo w.desc s
  | _ => tblLockGo w.desc s

/-- Start a table command: it completes, or it joins the commands that wait (R500). -/
def State.startTbl (s : State) (d : Desc) (buf : List Byte) : State :=
  let w : TblWait := { desc := d, due := s.clk + s.timeoutOf d 1000000, done := 0, buf := buf }
  match tblGo w s with
  | (.finish rep, s) => s.complete d rep
  | (.wait i, s) => s.withLocus { s.locus with waits := s.locus.waits ++ [{ w with done := i }] }

/-- Locks were released: each waiting command runs again, oldest first (Table 13.10). -/
def State.retryTbl (s : State) : State :=
  s.locus.waits.foldl (fun s w =>
    match tblGo w s with
    | (.finish rep, s) => (s.withLocus { s.locus with waits := s.locus.waits.filter (·.desc != w.desc) }).complete w.desc rep
    | (.wait i, s) =>
      let ws := s.locus.waits.map fun (x : TblWait) => if x.desc = w.desc then { x with done := i } else x
      s.withLocus { s.locus with waits := ws }) s

/-- Release the locks p picks. -/
def State.releaseLocks (s : State) (p : Nat × Nat × Nat → Bool) : State :=
  (s.withLocus { s.locus with locks := s.locus.locks.filter fun e => !p e }).retryTbl

/-- The body of TBL_WRITE: its buffer is read in full first (R488, R498). -/
def tblWriteBody (d : Desc) (s : State) : State :=
  let t := d.get 8 1
  let n := d.get 0xC 4
  if 4 < t ∨ t = 1 ∨ n = 0 ∨ 4096 < n ∨ (t ≠ 0 ∧ d.get 9 1 = 3) then s.done d .badRequest
  else s.withBuf d .locusDma (d.get 0x10 8) (n * writeStride t) fun bs s => s.startTbl d bs

/-- TBL_WRITE with OP op: another OP belongs to another row. -/
def tblWrite (op : Nat) (d : Desc) (s : State) : State :=
  if d.get 9 1 ≠ op then s else ringCommand d 0 [(8, 2), (0xC, 4), (0x10, 8)] (tblWriteBody d) s

/-- TBL_WRITE INSERT (R331). -/
def execTblWriteInsert (d : Desc) (s : State) : Out := .next (tblWrite 0 d s)
/-- TBL_WRITE REPLACE (R331). -/
def execTblWriteReplace (d : Desc) (s : State) : Out := .next (tblWrite 1 d s)
/-- TBL_WRITE DELETE (R331). -/
def execTblWriteDelete (d : Desc) (s : State) : Out := .next (tblWrite 2 d s)
/-- TBL_WRITE CLEAR_HIT (R331). -/
def execTblWriteClearHit (d : Desc) (s : State) : Out := .next (tblWrite 3 d s)

/-- TBL_DELETE_IF_IDLE (R334). -/
def execTblDeleteIfIdle (d : Desc) (s : State) : Out :=
  .next (ringCommand d 0 [(0x10, 17)] (fun s => if 15 < d.get 0x20 1 then s.done d .badRequest else s.startTbl d []) s)

/-- Reserved fields of TBL_LOCK and TBL_UNLOCK: a key form has no bucket or count, a range form no key (R487, R500). -/
def lockFields (d : Desc) : List (Nat × Nat) := if d.get 8 1 = 0 then [(8, 1), (0x10, 17)] else [(8, 1), (0xC, 4), (0x18, 4)]

/-- TBL_LOCK (R332). -/
def execTblLock (d : Desc) (s : State) : Out := .next (ringCommand d 0 (lockFields d) (fun s => s.startTbl d []) s)

/-- TBL_UNLOCK (R332, R500): a bucket the owner does not hold completes with NOT_FOUND and changes nothing. -/
def execTblUnlock (d : Desc) (s : State) : Out :=
  .next (ringCommand d 0 (lockFields d) (fun s =>
    let o := ringOwner d.ring.val
    match s.lockBuckets d with
    | none => s.done d .badRequest
    | some bs =>
      if bs.any fun b => (s.lockOf b).map (·.1) ≠ some o then s.done d .notFound
      else (s.releaseLocks fun e => bs.contains e.1).done d .ok) s)

/-- TBL_LOCK_WAIT_TIMEOUT (R500): a TBL_WRITE keeps the records it has applied. -/
def execTblLockWaitTimeout (ring : Fin 64) (tag : BitVec 16) (s : State) : Out :=
  match s.locus.waits.find? fun w => w.desc.ring == ring && w.desc.tag == tag.toNat with
  | none => .next s
  | some w =>
    let s := s.passTo w.due
    .next ((s.withLocus { s.locus with waits := s.locus.waits.filter (·.desc != w.desc) }).complete w.desc { status := .locked, r0 := w.done })

/-- TABLE_LOCK_LEASE_EXPIRY: the lock that a bucket belongs to is released (R332). -/
def execTableLockLeaseExpiry (bucket : BitVec 18) (s : State) : Out :=
  match s.lockOf bucket.toNat with
  | none => .next s
  | some (o, t) =>
    let s := s.passTo t
    .next ((s.releaseLocks fun e => e.2 == (o, t)).raise 0x0A6 (le 2 o))

end Sys2Proof.Machine
end

