-- ==== Sys2Proof/Machine/Locus.lean ====
section
/-! DEFINITION. The frame and learning commands of Locus (chapters 1 and 13). -/

namespace Sys2Proof.Machine

/-- The lane class of a mode for the constants of Table 16.2. -/
def stampClass : Nat → Nat
  | 3 | 4 => 1 | 5 => 2 | 7 => 3 | _ => 0

/-- Lane class of a logical port. -/
def State.stampClass (s : State) (lp : Nat) : Nat := Sys2Proof.Machine.stampClass (((s.lport lp).mode.map (·.toNat)).getD 0)

/-- A logical port takes frames from its medium: enabled and up (R438). -/
def State.receives (s : State) (lp : Nat) : Bool := (s.lport lp).enabled && (s.lport lp).up

/-- FCS of the last four bytes of a whole frame, and whether it is right. -/
def fcsOk (frame : List Byte) : Bool :=
  (Crypto.crc32 (frame.take (frame.length - 4))).toNat == leNat (frame.drop (frame.length - 4))

/-- CLIENT_FRAME_RECEIVE (R15): a port that is down, disabled or attached to a Facet tributary takes no frame (R32, R438), and a frame
outside 64 to 9,216 octets is not accepted (R139). -/
def execClientFrameReceive (lp : Fin 64) (frame : List Byte) (perr : Bool) (em : List (Fin 4)) (s : State) : Out :=
  let x := lp.val
  if !s.receives x ∨ s.attached x then .next s
  else if !fcsOk frame then .next (s.count (cid 0x01 0 x))
  else if frame.length < 64 ∨ 9216 < frame.length then .next s
  else
    let keep := s.fcsMode
    let fcs := if keep.getLsbD (x / 4) then some (BitVec.ofNat 32 (leNat (frame.drop (frame.length - 4)))) else none
    let f := TFrame.arrived x (frame.take (frame.length - 4)) fcs keep (s.rxStamp (x / 4) (s.stampClass x)) false none
    .next (s.classify { frame := f, perr := perr, em := em })

/-- A key stands in the move-hold cache now (R329). -/
def State.held (s : State) (r : LearnReq) : Bool :=
  let us := s.regN 0x00C00008 % 2 ^ 20
  s.locus.hold.any fun h => h.1 == r.profile && h.2.1 == r.key && s.clk < h.2.2 + 1000 * us

/-- Add a key to the move-hold cache; a full cache loses its oldest key early (R329). -/
def State.hold (s : State) (r : LearnReq) : State :=
  let us := s.regN 0x00C00008 % 2 ^ 20
  if us = 0 then s
  else
    let l := s.locus.hold.filter fun h => s.clk < h.2.2 + 1000 * us ∧ ¬ (h.1 = r.profile ∧ h.2.1 = r.key)
    let full := 8192 ≤ l.length
    let s := s.withLocus { s.locus with hold := (if full then l.drop 1 else l) ++ [(r.profile, r.key, s.clk)] }
    if full then s.count (cid 0x07 16 0) else s

/-- Record a move conflict of a key (R330). -/
def State.flap (s : State) (r : LearnReq) (old : Nat) : State :=
  let limit := s.regN 0x00C00000 % 256
  let now := s.locus.flaps.filter fun f => f.1 == s.sec
  let mine := fun (f : Nat × BitVec 4 × BitVec 128 × Nat) => f.2.1 == r.profile && f.2.2.1 == r.key
  let c := ((now.find? mine).map (·.2.2.2)).getD 0 + 1
  if (now.find? mine).isNone ∧ 64 ≤ now.length then s
  else
    let rest := now.filter fun f => !mine f
    let s := s.withLocus { s.locus with flaps := rest ++ [(s.sec, r.profile, r.key, c)] }
    if limit = 0 ∨ c ≠ limit then s
    else s.raise 0x0A4 (BitVec.ofNat 8 r.profile.toNat :: le 8 r.key.toNat ++ [BitVec.ofNat 8 old, BitVec.ofNat 8 r.lp.toNat])

/-- The arbiter applies one request against the table as it stands (Table 13.9). -/
def State.applyLearn (s : State) (r : LearnReq) : State :=
  let lp := r.lp.toNat
  let atLimit := s.learnCfg lp % 2 ^ 20 ≤ s.learnCount lp
  let res := s.learnedResult lp
  match s.emFind r.profile r.key with
  | none =>
    if atLimit then s.count (cid 0x07 13 lp)
    else
      let e : EmEntry := { key := r.key, profile := r.profile, static := false, learned := true, hit := true, learnLp := r.lp, result := res }
      match s.emInsert false e with
      | (true, s) => (s.count (cid 0x07 17 lp)).hold r
      | (false, s) => s.count (cid 0x07 10 lp)
  | some (k, e) =>
    if e.learned ∧ e.learnLp = r.lp then s.setHit k
    else if e.static then s.count (cid 0x07 12 lp)
    else if s.held r then (s.count (cid 0x07 18 lp)).flap r e.learnLp.toNat
    else if atLimit then s.count (cid 0x07 13 lp)
    else ((s.emPut k (some { e with learned := true, learnLp := r.lp, result := res })).count (cid 0x07 19 lp)).hold r

/-- A request waits for a lock on a candidate bucket (R328). -/
def State.learnBlocked (s : State) (r : LearnReq) : Bool := (s.candidates r.profile r.key).any fun n => (s.lockOf n).isSome

/-- LEARN_REQUEST_APPLY: the oldest request of the side list that no lock holds any more, else the next request of the queue, which a lock
sends to the side list (R328, R329). -/
def execLearnRequestApply (s : State) : Out :=
  match s.locus.side.find? fun r => !s.learnBlocked r with
  | some r => .next ((s.withLocus { s.locus with side := s.locus.side.erase r }).applyLearn r)
  | none => match s.locus.learns with
    | [] => .next s
    | r :: rest =>
      let t := s.withLocus { s.locus with learns := rest }
      if !s.learnBlocked r then .next (t.applyLearn r)
      else if s.locus.side.length < 64 then .next (t.withLocus { t.locus with side := t.locus.side ++ [r] })
      else .next (t.discardLearn r.lp.toNat)

/-- MOVE_HOLD_EXPIRY: HOLD_US passes and a key leaves the move-hold cache (R329). -/
def execMoveHoldExpiry (profile : Fin 16) (key : BitVec 128) (s : State) : Out :=
  let mine := fun (h : BitVec 4 × BitVec 128 × Nat) => h.1.toNat == profile.val && h.2.1 == key
  match s.locus.hold.find? mine with
  | none => .next s
  | some h =>
    let s := s.passTo (h.2.2 + 1000 * (s.regN 0x00C00008 % 2 ^ 20))
    .next (s.withLocus { s.locus with hold := s.locus.hold.filter fun x => !mine x })

/-- Some frame-path port is enabled or drains. -/
def State.framePathOn (s : State) : Bool := s.ports.lports.any fun e => e.2.busy && e.2.mode != some 7

/-- A write of LOCUS_EM_CFG (Table 13.11): CLEAR empties the table and draws a new seed while every frame-path port is disabled. Bucket
locks stay. -/
def State.emCfg (s : State) (v : Nat) : State :=
  let s := s.setReg 0x00C00000 (BitVec.ofNat 32 (v % 256))
  if !bitOf v 31 ∨ s.framePathOn then s
  else
    let (seed, s) := s.drbg 128
    s.withLocus { s.locus with em := [], seed := BitVec.ofNat 128 seed, badSlots := [] }

/-- EM_TABLE_CLEAR (R320): the word is written with CLEAR 1. -/
def execEmTableClear (value : Word32) (s : State) : Out := if s.halted then .next s else .next (s.emCfg (value ||| 0x80000000#32).toNat)

end Sys2Proof.Machine
end

