-- ==== Sys2Proof/Machine/FacetTx.lean ====
section
/-! DEFINITION. Facet transmit: tributary mapping, management segments, encryption of a frame (chapter 6). -/

namespace Sys2Proof.Machine

/-- A 257-bit block of four error control blocks, first bit most significant (R155, R159; log entry 40). -/
def errorBlock : Nat := ofMsb (transcode false (List.replicate 4 error66))

/-- A number of 128 k bits as k columns, first column most significant. -/
def colsOf (k v : Nat) : List (BitVec 128) := (List.range k).map fun i => BitVec.ofNat 128 (v >>> (128 * (k - 1 - i)))

/-- m columns of error control blocks (R159). -/
def errorCols (m : Nat) : List (BitVec 128) :=
  let k := (128 * m + 256) / 257
  let v := errorBlock * ((2 ^ (257 * k) - 1) / (2 ^ 257 - 1))
  colsOf m (v >>> (257 * k - 128 * m))

/-- Take client blocks: four at a time are transcoded, by clause 91 for a 100G client, and the bits fill columns, most significant bit
first; the columns are returned (R155). -/
def Mapper.push (m : Mapper) (on91 : Bool) (bs : List (BitVec 66)) : List (BitVec 128) × Mapper :=
  let all := m.wait ++ bs
  let k := all.length / 4
  let v := (List.range k).foldl (fun v i => 2 ^ 257 * v + ofMsb (transcode on91 ((all.drop (4 * i)).take 4))) m.tail
  let len := m.tailLen + 257 * k
  (colsOf (len / 128) (v >>> (len % 128)), { m with wait := all.drop (4 * k), tail := v % 2 ^ (len % 128), tailLen := len % 128 })

/-- The FIFO while nothing is taken: at most its centre fill of 32 columns, the latest ones (R159). -/
def Mapper.fill (m : Mapper) (new : List (BitVec 128)) : Mapper :=
  let all := m.fifo ++ new
  let d := all.length - 32
  { m with fifo := all.drop d, phase := (m.phase + 128 * d) % 257, filling := true }

/-- Client data that is not sent is discarded while AIS-P is sent for the slot; when that ends the mapper resumes without new pointers
(R183). -/
def Mapper.discard (m : Mapper) (new : List (BitVec 128)) : Mapper :=
  { m with fifo := [], phase := (m.phase + 128 * (m.fifo.length + new.length)) % 257, filling := true, newPtr := 0, carry := [] }

/-- What the mapper decides for a container (R158, R159): its justification action, its data columns and its block offset. -/
structure Decision where
  action : Nat
  data : List (BitVec 128)
  offset : Nat
  slip : Bool

/-- The decision for a container of D data columns when `new` columns arrive while it is sent (R159). -/
def Mapper.decide (m : Mapper) (D : Nat) (new : List (BitVec 128)) : Decision × Mapper :=
  if 0 < m.newPtr then
    ({ action := 0, data := List.replicate D 0, offset := 0, slip := false }, { m.fill new with newPtr := m.newPtr - 1 })
  else if m.filling ∧ m.fifo.length < 32 then
    ({ action := 0, data := errorCols D, offset := 0, slip := false }, m.fill new)
  else
    let act := if m.fifo.length < 31 then 1 else if 33 < m.fifo.length then 2 else 0
    let k := if act = 1 then D - 1 else if act = 2 then D + 1 else D
    let all := m.fifo ++ new
    if all.length < k ∨ 64 < all.length - k then
      ({ action := act, data := errorCols k, offset := 0, slip := true },
       { m with fifo := [], phase := (m.phase + 128 * all.length) % 257, filling := true })
    else
      ({ action := act, data := all.take k, offset := (257 - m.phase) % 257, slip := false },
       { m with fifo := all.drop k, phase := (m.phase + 128 * k) % 257, filling := false })

/-- What one slot contributes to a frame: pointer word, data-carrying NJO column, and its C columns. -/
structure SlotOut where
  ptr : Nat
  njo : Option (BitVec 128)
  cols : List (BitVec 128)

/-- The path overhead column (Table 6.7). -/
def pathOverhead (m : Mapper) (sl : FacetSlot) (rdi : Bool) (mfc : BitVec 8) (bo : Nat) : BitVec 128 :=
  Crypto.blockOf ([m.bip, BitVec.ofNat 8 m.rei, BitVec.ofNat 8 (128 * b2n rdi), sl.type,
    sl.trace.extractLsb' (8 * (mfc.toNat % 64)) 8] ++ be 2 bo)

/-- Map one slot for the frame about to be sent (R146, R153 to R160, R183). -/
def State.mapSlot (s : State) (n t : Nat) (aisP : Bool) (blocks : List (BitVec 66)) : SlotOut × State :=
  let p := s.facetPort n
  let sl := p.slot t
  let C := p.cols
  let (new, m) := (p.map t).push (sl.type == 3) blocks
  if !sl.equipped then ({ ptr := 0x6000, njo := none, cols := List.replicate C 0 }, s)
  else if aisP then
    ({ ptr := 0xFFFF, njo := none, cols := List.replicate C (BitVec.allOnes 128) }, s.setFacet n (p.setMap t (m.discard new)))
  else
    let D := C - 1 - sl.stuff.toNat
    let off := sl.offset.toNat
    let first := m.newPtr
    let (d, m') := m.decide D new
    let oh := pathOverhead m sl ((p.rxs t).defects &&& 7#4 != 0) p.mfc d.offset
    let stuff := List.replicate sl.stuff.toNat 0#128
    let njo := if d.action = 2 then d.data.head? else none
    let body := if d.action = 1 then 0#128 :: d.data else if d.action = 2 then d.data.tail else d.data
    let cont := oh :: stuff ++ body
    let head := m.carry ++ List.replicate (off - m.carry.length) 0
    let m' := { m' with carry := cont.drop (C - off), bip := bip8 (cont ++ njo.toList) }
    let p := p.setMap t m'
    let p := if d.slip then p.add (16 + 16 * t + 7) 1 else p
    let p := if d.action = 1 then p.add (16 + 16 * t + 4) 1 else if d.action = 2 then p.add (16 + 16 * t + 5) 1 else p
    let s := s.setFacet n p
    let s := if d.slip then s.raise 0x280 [BitVec.ofNat 8 n, BitVec.ofNat 8 t] else s
    let s := if first = 3 then s.raise 0x283 ([BitVec.ofNat 8 n, BitVec.ofNat 8 t] ++ le 2 off) else s
    ({ ptr := 4096 * (if 0 < first then 9 else 6) + 1024 * d.action + off, njo := njo, cols := head ++ cont.take (C - off) }, s)

/-- The next management segment, 48 bytes (Table 6.6); the FRAME_SEND of a message completes with its last segment (R477). -/
def State.mgmtSegment (s : State) (n : Nat) : List Byte × State :=
  let p := s.facetPort n
  let cur := match p.txRest with
    | some (m, d) => some (m, d, false, p.txMsgs)
    | none => match p.txMsgs with
      | [] => none
      | (m, d) :: rest => some (m, d, true, rest)
  match cur with
  | none => (List.replicate 48 0, s)
  | some (m, d, som, rest) =>
    let eom := decide (m.length ≤ 46)
    let k := min 46 m.length
    let seg := [BitVec.ofNat 8 (128 * b2n som + 64 * b2n eom), BitVec.ofNat 8 k] ++ slice m 0 46
    let s := s.setFacet n { p with txMsgs := rest, txRest := if eom then none else some (m.drop 46, d) }
    (seg, if eom then s.done d .ok else s)

/-- Payload columns dealt to the slots (R146). -/
def dealCols (N : Nat) (slots : List (List (BitVec 128))) : List (BitVec 128) :=
  (List.range 1012).map fun i => (((slots.getD (i % N) []).drop (i / N)).head?).getD 0

/-- Byte 15: RDI and the code of the highest standing section defect (R186). -/
def FacetPort.status15 (p : FacetPort) (force : Bool) : BitVec 8 :=
  let code := match (List.range 7).find? p.has with
    | some k => k + 1
    | none => 0
  let rdi := force || (p.defects &&& 0x3F#7) != 0
  BitVec.ofNat 8 (128 * b2n rdi + 16 * code)

/-- The alignment word (Table 6.4). -/
def alignWord : List Byte := [0x5C, 0x4E, 0x17, 0xA3, 0x9B, 0x62]

/-- TRIB_N of N. -/
def tribCode : Nat → Nat
  | 1 => 0 | 2 => 1 | _ => 2

/-- Byte 7: VERSION 1 and TRIB_N. -/
def FacetPort.byte7 (p : FacetPort) : BitVec 8 := BitVec.ofNat 8 (16 + 4 * tribCode p.trib)

/-- The frame's multiframe counter is used: the next frame has the next one (Table 6.4). -/
def State.nextMfc (s : State) (n : Nat) : State := s.modFacet n fun p => { p with mfc := p.mfc + 1 }

/-- The bytes that only an AIS-S frame carries: 0xFF from byte 8 on (R176). -/
def FacetPort.aisFrame (p : FacetPort) : List Byte := alignWord ++ [p.mfc, p.byte7] ++ List.replicate 16376 0xFF

/-- A frame before encryption, 16,384 bytes: overhead with a counter, key state and section bytes of 0, NJO columns, management segment,
payload, and a tag of 0 (Tables 6.3, 6.4). Byte 15 is the defect state at its start (R186). -/
def State.facetBuild (s : State) (n : Nat) (client : List ClientBlocks) : List Byte × State :=
  let maint := s.regN (facetOff n 0x40C)
  let (outs, s) := (List.range (s.facetPort n).trib).foldl (fun (acc, s) t =>
    let (o, s) := State.mapSlot s n t (bitOf maint (4 + t)) ((client.filter (·.slot.val == t)).flatMap (·.blocks))
    (acc ++ [o], s)) (([] : List SlotOut), s)
  let (seg, s) := s.mgmtSegment n
  let p := s.facetPort n
  let on := fun t => decide (t < p.trib) && (p.slot t).equipped
  let oh := alignWord ++ [p.mfc, p.byte7] ++ List.replicate 7 0 ++ [p.status15 (bitOf maint 1)] ++ List.replicate 8 0 ++
    ((List.range 4).flatMap fun t => be 2 ((outs[t]?.map (·.ptr)).getD 0x6000)) ++
    ((List.range 4).map fun t => if on t then (p.slot t).type else 0) ++
    ((List.range 4).map fun t => if on t then BitVec.ofNat 8 (p.slot t).stuff.toNat else 0#8) ++
    [p.strace.extractLsb' (8 * (p.mfc.toNat % 64)) 8] ++ List.replicate 23 0
  let njo := (List.range 4).map fun t => ((outs[t]?).bind (·.njo)).getD 0#128
  (oh ++ colBytes njo ++ seg ++ colBytes (dealCols p.trib (outs.map (·.cols))) ++ List.replicate 16 0, s.nextMfc n)

/-! ### The construction of a frame (R162, R163): it depends on the frame's bytes alone -/

/-- Slots whose pointer word carries a negative justification: their NJO columns carry data (R158, R163). -/
def njoSlots (frame : List Byte) : List Nat := (List.range 4).filter fun t =>
  let w := beAt frame (24 + 2 * t) 2
  (w / 4096 == 6 || w / 4096 == 9) && bits w 10 2 == 2

/-- P or the ciphertext in transmission order: each NJO column that carries data, the management columns, the payload (R163). -/
def facetText (frame : List Byte) : List (BitVec 128) :=
  let cols := Crypto.blocks frame
  (njoSlots frame).map (fun t => (cols[4 + t]?).getD 0) ++ (cols.drop 8).take 1015

/-- Put the text back into a frame. -/
def facetPut (frame : List Byte) (text : List (BitVec 128)) : List Byte :=
  let j := (njoSlots frame).length
  let f := (njoSlots frame).zipIdx.foldl (fun f (e : Nat × Nat) => patch f (64 + 16 * e.1) (Crypto.blockBytes ((text[e.2]?).getD 0))) frame
  f.take 128 ++ colBytes (text.drop j) ++ f.drop 16368

/-- The tag of a frame that carries ciphertext, under a key and IV (R162, R163). -/
def facetTag (key : Nat) (iv : BitVec 96) (frame : List Byte) : BitVec 128 :=
  let ct := facetText frame
  Crypto.gcmTag 32 key iv (facetAad (frame.take 64)) ct 472 (128 * ct.length)

/-- A keyed frame: counter and key state written, then encrypted, with its tag (R149, R162, R163). -/
def facetSeal (key : Nat) (iv : BitVec 96) (ctr : Nat) (byte14 : Byte) (frame : List Byte) : List Byte :=
  let f := patch (patch frame 8 (be 6 ctr)) 14 [byte14]
  let f := facetPut f (Crypto.ctr 32 key (Crypto.inc32 (Crypto.j0 iv) 1) (facetText f))
  f.take 16368 ++ Crypto.blockBytes (facetTag key iv f)

/-- An unkeyed frame: counter 0, the key state, and zeros in every NJO, payload and tag column (R150). -/
def facetClear (byte14 : Byte) (frame : List Byte) : List Byte :=
  patch (patch (frame.take 64) 8 (List.replicate 6 0)) 14 [byte14] ++ List.replicate 64 0 ++ slice frame 128 48 ++ List.replicate 16208 0

/-- Send a frame: its section BIP-8, REI and back-reported failures are written after encryption, the BIP-8 of what is sent is kept for the
next frame, and what was counted since the last frame begins again (R184, R185). -/
def State.sendFacet (s : State) (n : Nat) (frame : List Byte) : State :=
  let p := s.facetPort n
  let bip := if bitOf (s.regN (facetOff n 0x40C)) 0 then p.txBip ^^^ 1#8 else p.txBip
  let cols := Crypto.blocks (patch frame 16 ([bip] ++ be 2 p.rei ++ be 2 p.failed))
  let s := s.modFacet n fun p => { p with txBip := bip8 cols, rei := 0, failed := 0 }
  (s.emit (.facetFrame n cols)).lineStream n cols

/-- Send an AIS-S frame (R176). -/
def State.sendAis (s : State) (n : Nat) : State :=
  let cols := Crypto.blocks (s.facetPort n).aisFrame
  let s := (s.modFacet n fun p => { p with txBip := bip8 cols, rei := 0, failed := 0 }).nextMfc n
  (s.emit (.facetFrame n cols)).lineStream n cols

/-- A frame leaves keyed: counted, stamped where it is sampled, and sent (R166, R389). -/
def State.sendKeyed (s : State) (n h ctr octets : Nat) (frame : List Byte) : State :=
  let s := (s.stat h 1 1).stat h 3 octets
  ((s.modFacet n fun p => { p with keyed := true }).facetStamp n 1 ctr).sendFacet n frame

/-- A frame leaves unkeyed: counted by its cause, with event 0x284 when the transmitter leaves the keyed state (R150, R166). -/
def State.sendUnkeyed (s : State) (n : Nat) (h : Option Nat) (i : Nat) (frame : List Byte) : State :=
  let s := match h with
    | some h => s.stat h i 1
    | none => s
  let was := (s.facetPort n).keyed
  let s := s.modFacet n fun p => { p with keyed := false }
  let s := if was then s.raise 0x284 [BitVec.ofNat 8 n, BitVec.ofNat 8 (beAt frame 14 1 / 16 % 8)] else s
  s.sendFacet n frame

end Sys2Proof.Machine
end

