-- ==== Sys2Proof/Machine/FacetRx.lean ====
section
/-! DEFINITION. Facet receive: classes, pointers, demapping, traces, management messages (chapters 6 and 7). -/

namespace Sys2Proof.Machine

/-- A received pointer word (R157): 0xFFFF, invalid, or a valid offset with its action and NDF. -/
inductive PtrWord where
  | ais | invalid | valid (off action : Nat) (fresh : Bool)
  deriving DecidableEq, Repr

/-- Read a pointer word against C columns (R157, R180). -/
def ptrWord (C w : Nat) : PtrWord :=
  let ndf := w / 4096
  let act := bits w 10 2
  let off := bits w 0 10
  if w = 0xFFFF then .ais
  else if (ndf = 6 ∨ ndf = 9) ∧ act ≠ 3 ∧ off < C ∧ (ndf = 9 → act = 0) then .valid off act (ndf == 9)
  else .invalid

/-- Take bits into the block in progress, each lost or not; the blocks that end are returned as 66-bit blocks (R155, R161). Fuel bounds the
blocks. -/
def feedGo (on91 : Bool) : Nat → BlockRx → List Bool → Bool → List (Option (BitVec 66)) → BlockRx × List (Option (BitVec 66))
  | 0, r, _, _, acc => (r, acc)
  | f + 1, r, bits, gone, acc =>
    let k := 257 - r.bits.length
    let now := bits.take k
    let r := { r with bits := r.bits ++ now, lost := r.lost ++ now.map fun _ => gone }
    if now.length < k then (r, acc)
    else feedGo on91 f { r with bits := [], lost := [] } (bits.drop k) gone (acc ++ untranscode on91 r.bits r.lost)

/-- Feed bits to a slot that knows where its blocks begin. -/
def SlotRx.feed (r : SlotRx) (on91 : Bool) (bits : List Bool) (gone : Bool) : List (Option (BitVec 66)) × SlotRx :=
  if r.block.sync = .unknown then ([], r)
  else
    let (x, bs) := feedGo on91 (bits.length / 257 + 2) r.block bits gone []
    (bs, { r with block := x })

/-- Deliver blocks to the slot's client, error control blocks in the place of lost ones, unless Local Fault is sent (R28, R179), as it is by a
unit neither ACTIVE nor SOLO (R457). -/
def State.toClient (s : State) (n t : Nat) (bs : List (Option (BitVec 66))) : State :=
  let p := s.facetPort n
  if bs.isEmpty || (p.rxs t).localFault || !(s.twin.lease == .active || s.twin.lease == .solo) then s
  else s.emit (.clientBlocks (p.slot t).client.toNat (bs.map fun b => b.getD error66))

/-- The slot's client is transcoded by clause 91: a 100G client (R155). -/
def FacetPort.on91 (p : FacetPort) (t : Nat) : Bool := (p.slot t).type == 3

/-- Bits arrive for a slot, lost or not. -/
def State.feedSlot (s : State) (n t : Nat) (bits : List Bool) (gone : Bool) : State :=
  let p := s.facetPort n
  let (bs, r) := (p.rxs t).feed (p.on91 t) bits gone
  (s.setFacet n (p.setRx t r)).toClient n t bs

/-- Bits of a container part that never arrived verified: error control blocks take the place of their blocks (R28, R161). -/
def State.loseBits (s : State) (n t k : Nat) : State := s.feedSlot n t (List.replicate k false) true

/-- The bits of columns in order, the most significant first (R155). -/
def colsBits (cols : List (BitVec 128)) : List Bool := cols.flatMap fun c => msbBits 128 c.toNat

/-- Data columns of the first part of a container: what follows the overhead, the stuff and a positive justification's zero. -/
def RxContainer.data (c : RxContainer) : List (BitVec 128) :=
  c.njo.toList ++ c.cols.drop (1 + c.stuff + (if c.action = 1 then 1 else 0))

/-- Nominal data columns of a container of C columns. -/
def RxContainer.want (c : RxContainer) (C : Nat) : Nat :=
  C - 1 - c.stuff - (if c.action = 1 then 1 else 0) + (if c.action = 2 then 1 else 0)

/-- Path REI counts only from 0 to 8 (R185, R187). -/
def reiOf (v : Nat) : Nat := if v ≤ 8 then v else 0

/-- Take the path overhead of a verified container: parity, REI, type, RDI and trace (R182, R187, R188). -/
def State.pathCheck (s : State) (n t : Nat) (c : RxContainer) : State :=
  let oh := Crypto.blockBytes ((c.cols.head?).getD 0)
  let p := s.facetPort n
  let r := p.rxs t
  let base := 16 + 16 * t
  let diff := match r.bip with
    | some b => some (popByte (b ^^^ oh.getD 0 0))
    | none => none
  let p := match diff with
    | some d => (p.add base d).setMap t { (p.map t) with rei := d }
    | none => p
  let p := p.add (base + 1) (reiOf (oh.getD 1 0).toNat)
  let exp := (p.slot t).type
  let got := oh.getD 3 0
  let rdi := (oh.getD 2 0).getLsbD 7
  let (new, tr) := r.trace.take (c.mfc.toNat % 64) (oh.getD 4 0)
  let r := { r with
    bip := some (bip8 (c.cols ++ c.njo.toList)), trace := tr
    plmRun := if got = exp then 0 else r.plmRun + 1
    plmOkRun := if got = exp then r.plmOkRun + 1 else 0
    rdiRun := if rdi then r.rdiRun + 1 else 0
    rdiOkRun := if rdi then 0 else r.rdiOkRun + 1 }
  let s := s.setFacet n (p.setRx t r)
  let s := if 3 ≤ r.plmRun then s.slotDefect n t 2 true [exp, got] else if 3 ≤ r.plmOkRun then s.slotDefect n t 2 false [exp, got] else s
  let s := if 3 ≤ r.rdiRun then s.slotDefect n t 3 true [] else if 3 ≤ r.rdiOkRun then s.slotDefect n t 3 false [] else s
  if new then s.raise 0x2AE [BitVec.ofNat 8 n, BitVec.ofNat 8 t] else s

/-- Take block alignment from the block offset of a verified container (R154, R161, R181). After a lost frame the block in progress goes on
at the right place; where the offset differs from the one that a slot has kept, that block ends in error control blocks and the bits
before the new one are lost (log entry 164). -/
def State.alignBlock (s : State) (n t bo : Nat) : State :=
  let p := s.facetPort n
  let r := p.rxs t
  let b := r.block
  let l := (257 - bo % 257) % 257
  if b.sync = .kept ∧ b.bits.length = l then s
  else
    let mis := b.sync == .kept
    let ends := b.sync != .unknown && !b.bits.isEmpty && (mis || l == 0)
    let x : BlockRx := { sync := .kept, bits := List.replicate l false, lost := List.replicate l true }
    let p := p.setRx t { r with block := x }
    let p := if mis then p.add (16 + 16 * t + 12) 1 else p
    let s := (s.setFacet n p).toClient n t (if ends then List.replicate 4 none else [])
    if mis then s.raiseOnce 0x2AC 0 [BitVec.ofNat 8 n, BitVec.ofNat 8 t] else s

/-- A container has arrived whole and verified: its overhead is checked and its data goes to the client (R155, R179). -/
def State.deliver (s : State) (n t : Nat) (c : RxContainer) : State :=
  let s := s.pathCheck n t c
  let p := s.facetPort n
  let r := p.rxs t
  let clean := p.defects == 0 && (r.defects &&& 7#4) == 0 && !c.fresh && r.ptr == .norm
  let r := { r with localFault := !clean }
  let s := s.setFacet n (p.setRx t r)
  let bo := beNat (((Crypto.blockBytes ((c.cols.head?).getD 0)).drop 5).take 2) % 512
  let s := s.alignBlock n t bo
  s.feedSlot n t (colsBits c.data) false

/-- Enter a pointer state; LOP and AIS-P stand with their states (Table 7.4). -/
def State.ptrEnter (s : State) (n t : Nat) (m : PtrMode) : State :=
  let s := s.modFacet n fun p =>
    let r := p.rxs t
    p.setRx t { r with ptr := m, validRun := 0, invalidRun := 0, aisRun := 0
                       part := if m = .norm then r.part else none, block := if m = .norm then r.block else BlockRx.reset
                       bip := if m = .norm then r.bip else none }
  (s.slotDefect n t 0 (m == .lop) []).slotDefect n t 1 (m == .ais) []

/-- The pointer interpreter takes a word of a VERIFIED frame; the action to apply in NORM (R180, R181). -/
def State.pointer (s : State) (n t : Nat) (w : PtrWord) : Nat × State :=
  let p := s.facetPort n
  let r := p.rxs t
  let r := match w with
    | .ais => { r with aisRun := r.aisRun + 1, validRun := 0, invalidRun := 0 }
    | .invalid => { r with invalidRun := r.invalidRun + 1, validRun := 0, aisRun := 0 }
    | .valid off _ _ =>
      { r with validRun := if 0 < r.validRun ∧ off = r.lastValid then r.validRun + 1 else 1, lastValid := off, invalidRun := 0, aisRun := 0 }
  let s := s.setFacet n (p.setRx t r)
  let act := match w with
    | .valid off a _ => if r.ptr = .norm ∧ off = r.offset then a else 0
    | _ => 0
  if 3 ≤ r.validRun ∧ r.ptr ≠ .norm then
    let s := s.modFacet n fun p => p.setRx t { (p.rxs t) with offset := r.lastValid, part := none, block := BlockRx.reset, bip := none }
    let a := match w with
      | .valid _ a _ => a
      | _ => 0
    (a, s.ptrEnter n t .norm)
  else if 3 ≤ r.validRun ∧ r.lastValid ≠ r.offset then
    let a := match w with
      | .valid _ a _ => a
      | _ => 0
    (a, s.modFacet n fun p =>
      (p.setRx t { (p.rxs t) with offset := r.lastValid, part := none, block := BlockRx.reset, bip := none }).add (16 + 16 * t + 6) 1)
  else if 8 ≤ r.invalidRun ∧ r.ptr ≠ .lop then (0, s.ptrEnter n t .lop)
  else if 3 ≤ r.aisRun ∧ r.ptr ≠ .ais then (0, s.ptrEnter n t .ais)
  else (act, s)

/-- One slot of a VERIFIED frame: pointer, the end of the container in progress, the start of the next (R153, R158, R161, R180). -/
def State.demapSlot (s : State) (n t : Nat) (word stuff : Nat) (mfc : BitVec 8) (njo : BitVec 128) (cols : List (BitVec 128)) : State :=
  let C := (s.facetPort n).cols
  let w := ptrWord C word
  let (act, s) := s.pointer n t w
  let r := (s.facetPort n).rxs t
  if r.ptr ≠ .norm then s
  else
    let s := if act = 1 then s.modFacet n (·.add (16 + 16 * t + 2) 1) else if act = 2 then s.modFacet n (·.add (16 + 16 * t + 3) 1) else s
    let s := match r.part with
      | some c => s.deliver n t { c with cols := c.cols ++ cols.take r.offset }
      | none => s.loseBits n t (128 * r.offset)
    let fresh := match w with
      | .valid _ _ f => f
      | _ => false
    let s := s.modFacet n fun p => p.setRx t { (p.rxs t) with stuff := stuff }
    let c : RxContainer :=
      { cols := cols.drop r.offset, njo := if act = 2 then some njo else none, action := act, stuff := stuff, mfc := mfc, fresh := fresh }
    let part := fun (x : Option RxContainer) (s : State) => s.modFacet n fun p => p.setRx t { (p.rxs t) with part := x }
    if r.offset = 0 then part none (s.deliver n t c) else part (some c) s

/-- One slot of a frame that is not VERIFIED: its part of the containers is lost (R28, R161). What it would have carried follows from the
container in progress and from the F last advertised; block alignment is taken again at the next verified container. -/
def State.loseSlot (s : State) (n t : Nat) : State :=
  let p := s.facetPort n
  let r := p.rxs t
  if r.ptr ≠ .norm then s
  else
    let C := p.cols
    let s := match r.part with
      | some c =>
        let bo := beNat (((Crypto.blockBytes ((c.cols.head?).getD 0)).drop 5).take 2) % 512
        let s := (s.alignBlock n t bo).feedSlot n t (colsBits c.data) false
        s.loseBits n t (128 * (c.want C - c.data.length))
      | none => s.loseBits n t (128 * r.offset)
    let D := C - 1 - r.stuff
    let s := s.loseBits n t (128 * (D - min D r.offset))
    s.modFacet n fun p =>
      let r := p.rxs t
      p.setRx t { r with part := none, bip := none, block := if r.block.sync = .kept then { r.block with sync := .broken } else r.block }

/-- A management message has arrived whole (R152): it goes to firmware by the punt queue of uncontrolled frames, UNCONTROLLED marking one
that came CLEAR (R20, Table 14.11; log entry 163). -/
def State.mgmtDeliver (s : State) (n h : Nat) (clear : Bool) (m : List Byte) : State :=
  let s := s.emit (.mgmtMessage n clear m)
  let x := s.aq 0
  let f := TFrame.arrived (64 + 4 * n) m none 0 (s.rxStamp (16 + n) 3) clear (if clear then none else some h)
  if x.open_ ∧ !x.full ∧ x.tail.length < 64 then s.annPut 0 [puntEntry f m 0 x.entry false]
  else (s.count (cid 0x09 0 0)).raiseOnce 0x060 0 [0]

/-- A management segment of a frame whose class decides whether it counts (R150, R152); h is the association that verified it. -/
def State.mgmtTake (s : State) (n : Nat) (cls : Option FacetFrameClass) (keyed : Bool) (h : Nat) (seg : List Byte) : State :=
  let good := cls == some .verified || (cls == some .unkeyable && !keyed)
  let gap := fun (k : Nat) (s : State) => s.modFacet n fun p => { p with rxGap := k }
  if !good then
    let why := if cls = some .failed then 1 else 0
    gap why (s.dropMgmt n why)
  else
    let fl := (seg.getD 0 0).toNat
    let len := (seg.getD 1 0).toNat
    let skip := fun (b : Bool) (s : State) => s.modFacet n fun p => { p with rxSkip := b }
    if len = 0 then skip false (gap 0 (s.dropMgmt n 0))
    else
      let som := bitOf fl 7
      let eom := bitOf fl 6
      let s := if som then skip false (s.dropMgmt n 2) else s
      let p := s.facetPort n
      let data := slice seg 2 (min len 46)
      let s := gap 0 s
      match p.rxMsg with
      | none =>
        if !som then
          if p.rxSkip then skip (!eom) s
          else (skip (!eom) (s.count (cid 2 3 (4 * n)))).raise 0x282 [BitVec.ofNat 8 n, BitVec.ofNat 8 p.rxGap]
        else if eom then s.mgmtDeliver n h (!keyed) data
        else s.modFacet n fun p => { p with rxMsg := some (data, keyed) }
      | some (m, k) =>
        if k ≠ keyed ∨ 2048 < m.length + len then skip (!eom) (s.dropMgmt n (if k ≠ keyed then 0 else 2))
        else if eom then (s.modFacet n fun p => { p with rxMsg := none }).mgmtDeliver n h (!keyed) (m ++ data)
        else s.modFacet n fun p => { p with rxMsg := some (m ++ data, keyed) }

/-- The first verified frame under another key phase starts the hold of the old one (R117). -/
def State.facetPhase (s : State) (h : Nat) (ph : Bool) : State :=
  let a := s.sa h
  let a' := { a with verified := true }
  if a.phase = ph ∨ a.overlapDue.isSome then s.setSa h a'
  else s.setSa h { a' with
    phase := ph, expired := none
    overlapDue := if a.overlapMs = 0 then none else some (s.clk + 1000000 * a.overlapMs.toNat) }

/-- A keyed frame has failed its tag, or counts as one that has (R148, R165, R185). -/
def State.facetTagFailed (s : State) (n : Nat) : State :=
  s.modFacet n fun p => { (p.add 5 1) with failed := min 0xFFFF (p.failed + 1) }

/-- Why a frame is not verified by a Prism, with its class: another version, an unkeyed frame, or no ACTIVE receive association; none for
one that Prism n verifies, with its association (R148, R150, R173). -/
def State.facetAtOnce (s : State) (n : Nat) (frame : List Byte) : (FacetFrameClass ⊕ Nat) × State :=
  let ver := beAt frame 7 1 / 16
  if ver ≠ 1 then
    (.inl .failed, (((s.count (cid 2 2 (4 * n))).raiseOnce 0x281 0 [BitVec.ofNat 8 n, BitVec.ofNat 8 ver])).facetTagFailed n)
  else if 4 ≤ beAt frame 14 1 / 16 % 8 then (.inl .unkeyable, s)
  else match s.facetAssoc n true with
    | none => (.inl .unkeyable, s)
    | some h =>
      let a := s.sa h
      if a.status = .active then (.inr h, s) else (.inl .unkeyable, if a.status = .keyLost then s.stat h 2 1 else s)

/-- The release of a verified frame: late after all, or NEXT follows its counter (R132, R165, R166). -/
def State.facetVerified (s : State) (h ctr octets : Nat) (ph : Bool) : Bool × State :=
  let a := s.sa h
  if ctr < a.nextN then (false, s.stat h 3 1)
  else (true, (((s.setSa h (a.setNext (ctr + 1))).stat h 0 1).stat h 7 octets).facetPhase h ph)

/-- Runs of classes, AUTH and KEYX (R174). -/
def State.classRuns (s : State) (n : Nat) (c : FacetFrameClass) (keyState : Nat) : State :=
  let p := s.facetPort n
  if p.has 4 then s
  else
    let p := { p with
      failRun := if c = .failed then p.failRun + 1 else 0
      unkeyRun := if c = .unkeyable then p.unkeyRun + 1 else 0
      okRun := if c = .verified then p.okRun + 1 else 0
      sinceOk := if c = .verified then 0 else p.sinceOk + 1 }
    let s := s.setFacet n p
    if p.okRun = 3 ∧ p.has 5 then s.clearSection n 5 []
    else if p.okRun = 3 ∧ p.has 6 then s.clearSection n 6 [BitVec.ofNat 8 keyState]
    else if 8 ≤ p.failRun ∧ !p.has 5 then s.declare n 5 []
    else if 8 ≤ p.unkeyRun ∧ !p.has 5 ∧ !p.has 6 then s.declare n 6 [BitVec.ofNat 8 keyState]
    else if 64 ≤ p.sinceOk ∧ !p.has 5 ∧ !p.has 6 then s.declare n 5 []
    else s

/-- RDI_RX and FAR_CODE from byte 15 of a VERIFIED or UNKEYABLE frame (R186). -/
def State.readStatus (s : State) (n : Nat) (b : Byte) : State :=
  let p := s.facetPort n
  let rdi := b.getLsbD 7
  let p := { p with
    farCode := bits b.toNat 4 3
    rdiRun := if rdi then p.rdiRun + 1 else 0
    rdiOkRun := if rdi then 0 else p.rdiOkRun + 1 }
  if 3 ≤ p.rdiRun ∧ !p.rdiRx then
    (s.setFacet n { p with rdiRx := true, latch := p.latch ||| (1#32 <<< 11), stood := p.stood ||| (1#24 <<< 7) }).raiseSet 0x2A7 false
      [BitVec.ofNat 8 n, BitVec.ofNat 8 p.farCode]
  else if 3 ≤ p.rdiOkRun ∧ p.rdiRx then
    (s.setFacet n { p with rdiRx := false }).raiseSet 0x2A7 true [BitVec.ofNat 8 n, BitVec.ofNat 8 p.farCode]
  else s.setFacet n p

/-- The section BIP-8 check (R184): the bits that differ are counted and returned as REI. -/
def State.sectionBip (s : State) (n : Nat) (frame : List Byte) : State :=
  s.modFacet n fun p =>
    let own := bip8 (Crypto.blocks (frame.take 16384))
    let p := match p.rxBip with
      | some b => if p.has 4 then p else
          let d := popByte (b ^^^ frame.getD 16 0)
          { (p.add 3 d) with rei := d }
      | none => p
    { p with rxBip := some own }

/-- AIS-S declares at three frames with bytes 8 to 15 all 0xFF and clears at three without (R175). -/
def State.aisS (s : State) (n : Nat) (on : Bool) : State :=
  let p := s.facetPort n
  let p := { p with aisRun := if on then p.aisRun + 1 else 0, aisOkRun := if on then 0 else p.aisOkRun + 1 }
  let s := s.setFacet n p
  if 3 ≤ p.aisRun then s.declare n 4 [] else if 3 ≤ p.aisOkRun then s.clearSection n 4 [] else s

/-- Equipped slots of a port. -/
def FacetPort.equipped (p : FacetPort) : List Nat := (List.range p.trib).filter fun t => (p.slot t).equipped

/-- A frame takes its place in the stream with its class, none for an AIS-S frame (R173 to R188): its overhead, and its bytes in clear where
it is VERIFIED or unkeyed. -/
def State.facetFinish (s : State) (n h : Nat) (c : Option FacetFrameClass) (ohead frame : List Byte) : State :=
  match c with
  | none => ((s.facetPort n).equipped).foldl (fun s t => s.loseSlot n t) (s.mgmtTake n none false h [])
  | some c =>
    let stands := (s.facetPort n).has 4
    let keyState := (ohead.getD 14 0).toNat / 16 % 8
    let keyed := decide (keyState < 4)
    let s := if stands then s else s.classRuns n c keyState
    let s := if c = .failed ∨ stands then s else s.readStatus n (ohead.getD 15 0)
    let s := if stands then s else s.modFacet n fun p => (p.add 4 (reiOf (beAt ohead 17 2))).add 6 (beAt ohead 19 2)
    let mfc := ohead.getD 6 0
    let s := if c = .failed then s else
      let p := s.facetPort n
      let (new, tr) := p.trace.take (mfc.toNat % 64) (ohead.getD 40 0)
      let s := s.setFacet n { p with trace := tr }
      if new then s.raise 0x2AD [BitVec.ofNat 8 n] else s
    let s := s.mgmtTake n (some c) keyed h (slice frame 128 48)
    let p := s.facetPort n
    if c = .verified ∧ p.defects = 0 then
      let payload := (Crypto.blocks frame).drop 11
      p.equipped.foldl (fun s t =>
        let cols := (List.range (1012 / p.trib)).map fun i => ((payload.drop (i * p.trib + t)).head?).getD 0
        s.demapSlot n t (beAt ohead (24 + 2 * t) 2) (ohead.getD (36 + t) 0).toNat mfc (BitVec.ofNat 128 (beAt frame (64 + 16 * t) 16)) cols) s
    else p.equipped.foldl (fun s t => s.loseSlot n t) s

/-- Codewords that arrive in marker LOCK count by their errored symbols (R143, R189). -/
def FacetPort.fecCount (p : FacetPort) (errors : List Nat) : FacetPort :=
  (p.add 0 (errors.filter fun e => 0 < e && e ≤ fecCorrects).length).add 1 (errors.filter (fecCorrects < ·)).length

/-- The alignment word of a frame at the expected position: whether the framer stays IN_FRAME (R172). -/
def State.alignCheck (s : State) (n : Nat) (frame : List Byte) : Bool × State :=
  if slice frame 0 6 = alignWord then (true, s.modFacet n fun p => { p with errRun := 0 })
  else
    let p := (s.facetPort n).add 2 1
    let s := s.setFacet n { p with errRun := p.errRun + 1 }
    if 4 ≤ p.errRun then (false, s.declare n 3 []) else (true, s)

end Sys2Proof.Machine
end

