-- ==== Sys2Proof/Machine/VertexMem.lean ====
section
/-! DEFINITION. Memory access of Vertex threads: local, scratch, HBM and DDR, and the frame space (R223 to R226, R247 to R252). -/

namespace Sys2Proof.Machine

/-! ### Local and scratch memory: tables of 8-byte words -/

/-- n bytes from byte address a of a word table. -/
def wordsGet (t : Tbl (BitVec 64)) (a n : Nat) : List Byte :=
  (List.range n).map fun i => (tget 0 t ((a + i) / 8)).extractLsb' (8 * ((a + i) % 8)) 8

/-- Write bytes that lie within one word. -/
def wordPut (t : Tbl (BitVec 64)) (a : Nat) (bs : List Byte) : Tbl (BitVec 64) :=
  tmod 0 t (a / 8) fun w => BitVec.ofNat 64 (leNat (patch (le 8 w.toNat) (a % 8) bs))

/-- Write 1 to 16 aligned bytes. -/
def wordsPut (t : Tbl (BitVec 64)) (a : Nat) (bs : List Byte) : Tbl (BitVec 64) :=
  if bs.length ≤ 8 then wordPut t a bs else wordPut (wordPut t a (bs.take 8)) (a + 8) (bs.drop 8)

/-- Bytes of a cluster's scratch (Table 9.4). -/
def scratchSize (c : Nat) : Nat := if c = 16 then 0x400000 else 0x100000

/-- The port parameter blocks, which microcode may not write (R270). -/
def paramRange (c a : Nat) : Bool := c < 16 && 0xFFF00 ≤ a

/-- What a scratch read finds: a corrected error counts, an uncorrectable word faults every reader until it is rewritten (R224). -/
def State.scratchRead (s : State) (c a n : Nat) (e : Ecc) : Bool × State :=
  let ws := [a / 8, (a + n - 1) / 8]
  let s := if e = .uncorrectable then
      s.setCluster c { s.cluster c with badScratch := (a / 8) :: (s.cluster c).badScratch.filter (· != a / 8) }
    else s
  if ws.any (s.cluster c).badScratch.contains then (false, s)
  else if e = .corrected then (true, (s.count (cid 0x05 1 c)).raiseOnce 0x185 0 [BitVec.ofNat 8 c])
  else (true, s)

/-- Write scratch; whole words lose an uncorrectable error (R224). -/
def State.scratchWrite (s : State) (c a : Nat) (bs : List Byte) : State :=
  let x := s.cluster c
  let bad := if bs.length < 8 then x.badScratch else x.badScratch.filter fun w => w != a / 8 && !(bs.length == 16 && w == a / 8 + 1)
  s.setCluster c { x with scratch := wordsPut x.scratch a bs, badScratch := bad }

/-- Read local or scratch memory for an instruction: the bytes, or the fault (R223, R224, R247). -/
def State.lsRead (s : State) (c k : Nat) (x : Ins) (n : Nat) (e : Ecc) : Except Cause (List Byte) × State :=
  let a := x.address ((s.thread c k).gr x.a) n
  if bitOf x.ext 36 then
    if scratchSize c ≤ a then (.error .scratchRange, s)
    else match s.scratchRead c a n e with
      | (true, s) => (.ok (wordsGet (s.cluster c).scratch a n), s)
      | (false, s) => (.error .scratchEcc, s)
  else if 0x4000 ≤ a then (.error .localRange, s)
  else if e ≠ .clean then (.error .localParity, s)
  else (.ok (wordsGet (s.cluster c).locals (0x4000 * (k / 8) + a) n), s)

/-- Write local or scratch memory for an instruction, or the fault (R223, R247, R270). -/
def State.lsWrite (s : State) (c k : Nat) (x : Ins) (bs : List Byte) : Except Cause State :=
  let a := x.address ((s.thread c k).gr x.a) bs.length
  if bitOf x.ext 36 then
    if scratchSize c ≤ a ∨ paramRange c a then .error .scratchRange else .ok (s.scratchWrite c a bs)
  else if 0x4000 ≤ a then .error .localRange
  else .ok (s.setCluster c { s.cluster c with locals := wordsPut (s.cluster c).locals (0x4000 * (k / 8) + a) bs })

/-- A loaded value of n bytes, sign-extended where ext [32] is set (R247). -/
def Ins.loaded (x : Ins) (bs : List Byte) : BitVec 64 :=
  let v := leNat bs
  let top := 8 * bs.length
  BitVec.ofNat 64 (if bitOf x.ext 32 && bitOf v (top - 1) then v + (2 ^ 64 - 2 ^ top) else v)

/-- LD: a local or scratch load of 1 to 8 bytes (R245, R247). -/
def execLd (i : Issue) (ecc : Ecc) (s : State) : Out :=
  .next (s.issue i [0x40] fun c k x s =>
    match s.lsRead c k x (accessSize (bits x.ext 33 3)) ecc with
    | (.ok bs, s) => .go (s.modThread c k fun t => t.setG x.d (x.loaded bs))
    | (.error e, s) => .fault s e)

/-- ST: a local or scratch store of 1 to 8 bytes (R245, R247). -/
def execSt (i : Issue) (s : State) : Out :=
  .next (s.issue i [0x41] fun c k x s =>
    match s.lsWrite c k x (le (accessSize (bits x.ext 33 3)) ((s.thread c k).gr x.b).toNat) with
    | .ok s => .go s
    | .error e => .fault s e)

/-- LDB: a 16-byte local or scratch load (R245, R247). -/
def execLdb (i : Issue) (ecc : Ecc) (s : State) : Out :=
  .next (s.issue i [0x42] fun c k x s =>
    match s.lsRead c k x 16 ecc with
    | (.ok bs, s) => .go (s.modThread c k fun t => t.setB x.d (BitVec.ofNat 128 (leNat bs)))
    | (.error e, s) => .fault s e)

/-- STB: a 16-byte local or scratch store (R245, R247). -/
def execStb (i : Issue) (s : State) : Out :=
  .next (s.issue i [0x43] fun c k x s =>
    match s.lsWrite c k x (le 16 ((s.thread c k).br x.b).toNat) with
    | .ok s => .go s
    | .error e => .fault s e)

/-! ### HBM and DDR (R225, R226, R248) -/

/-- Hull's master class of a cluster (Table 9.1). -/
def masterOf (c : Nat) : Master := if c = 16 then .radius else .vertex

/-- A read of n bytes within one line: its bytes, delivered before they are verified (R414), or none where Hull refuses it. A line of a
CONF+INT region still owes its verification; the bytes of a line that an uncorrectable error fails are free. -/
def State.specRead (s : State) (c k a n : Nat) : Option (List Byte) × State :=
  let m := masterOf c
  let note := fun (s : State) (r : Nat) =>
    if (s.region r).integ then s.modThread c k fun t => { t with reads := t.reads ++ [a] } else s
  match s.readLine m .plainRead (a / 64) with
  | .ok r => (some (s.mem.get a n), note s r)
  | .failed r _ =>
    let (v, s) := s.draw (8 * n)
    (some (le n v), note s r)
  | .refused r => (none, s.refuse r m)
  | .readOnly r | .discarded r _ => (none, s.refuse (some r) m)

/-- An HBM or DDR load by an instruction (R248). -/
def State.hbmLoad (s : State) (c k : Nat) (x : Ins) (n : Nat) (put : List Byte → Thread → Thread) : Act :=
  let a := x.address ((s.thread c k).gr x.a) n
  if 2 ^ 40 ≤ a then .fault s .hbmRefused
  else match s.specRead c k a n with
    | (none, s) => .fault s .hbmRefused
    | (some bs, s) => .go (s.modThread c k (put bs))

/-- A fenced instruction goes on when every read it waited for has passed, and faults where one failed (R225, R226). -/
def State.fenced (s : State) (c k : Nat) (act : Act) : Act := if (s.thread c k).failed then .fault s .integrity else act

/-- An HBM or DDR store by an instruction: a verify fence, then posted (R226, R248). -/
def State.hbmStore (s : State) (c k : Nat) (x : Ins) (bs : List Byte) : Act :=
  let a := x.address ((s.thread c k).gr x.a) bs.length
  s.fenced c k (if 2 ^ 40 ≤ a then .fault s .hbmRefused
    else match s.writeMem (masterOf c) (vOwner c k) a bs with
      | (true, s) => .go s
      | (false, s) => .fault s .hbmRefused)

/-- LDH: an HBM or DDR load of 1 to 8 bytes (R247, R248). -/
def execLdh (i : Issue) (s : State) : Out :=
  .next (s.issue i [0x50] fun c k x s => s.hbmLoad c k x (accessSize (bits x.ext 33 3)) fun bs t => t.setG x.d (x.loaded bs))

/-- STH: an HBM or DDR store of 1 to 8 bytes (R247, R248). -/
def execSth (i : Issue) (s : State) : Out :=
  .next (s.issue i [0x51] fun c k x s =>
    s.hbmStore c k x (le (accessSize (bits x.ext 33 3)) ((s.thread c k).gr x.b).toNat))

/-- LDHB: a 16-byte HBM or DDR load (R247, R248). -/
def execLdhb (i : Issue) (s : State) : Out :=
  .next (s.issue i [0x52] fun c k x s => s.hbmLoad c k x 16 fun bs t => t.setB x.d (BitVec.ofNat 128 (leNat bs)))

/-- STHB: a 16-byte HBM or DDR store (R247, R248). -/
def execSthb (i : Issue) (s : State) : Out :=
  .next (s.issue i [0x53] fun c k x s => s.hbmStore c k x (le 16 ((s.thread c k).br x.b).toNat))

/-- VFENCE: every earlier read has been verified, or the thread faults (R225). -/
def execVfence (i : Issue) (s : State) : Out := .next (s.issue i [0x5F] fun c k _ s => s.fenced c k (.go s))

/-! ### The frame space (R251, R252) -/

/-- A parity error on a staging read drops the frame under its thread (R200). -/
def State.stagingParity (s : State) (c k off : Nat) : State :=
  match s.itemOf c k with
  | some i => (s.parityError c i (i.line + off / 128)).discardUnder c i
  | none => s

/-- A frame load (R251); the bytes of a word that fails its parity are free. -/
def State.frameLoad (s : State) (c k : Nat) (x : Ins) (perr : Bool) (put : List Byte → Thread → Thread) : Act :=
  let (off, n) := x.frameRange (s.thread c k)
  if (s.frameBytes c k).length < off + n then .fault s .frameRange
  else if perr ∧ c < 16 then
    let (v, s) := s.draw (8 * n)
    .go ((s.stagingParity c k off).modThread c k (put (le n v)))
  else .go (s.modThread c k (put (s.frameGet c k off n)))

/-- A frame store (R251). -/
def State.frameStore (s : State) (c k : Nat) (x : Ins) (bs : List Byte) : Act :=
  let (off, n) := x.frameRange (s.thread c k)
  if (s.frameBytes c k).length < off + n then .fault s .frameRange else .go (s.setFrame c k off bs)

/-- FGET: a frame load of 1 to 8 bytes, the lowest-addressed byte most significant (R251, R252). -/
def execFget (i : Issue) (perr : Bool) (s : State) : Out :=
  .next (s.issue i [0x60] fun c k x s => s.frameLoad c k x perr fun bs t => t.setG x.d (BitVec.ofNat 64 (beNat bs)))

/-- FPUT: a frame store of 1 to 8 bytes (R251, R252). -/
def execFput (i : Issue) (s : State) : Out :=
  .next (s.issue i [0x61] fun c k x s =>
    s.frameStore c k x (be (accessSize (bits x.ext 16 3)) ((s.thread c k).gr x.b).toNat))

/-- FGETB: a 16-byte frame load (R251, R252). -/
def execFgetb (i : Issue) (perr : Bool) (s : State) : Out :=
  .next (s.issue i [0x62] fun c k x s => s.frameLoad c k x perr fun bs t => t.setB x.d (BitVec.ofNat 128 (beNat bs)))

/-- FPUTB: a 16-byte frame store (R251, R252). -/
def execFputb (i : Issue) (s : State) : Out :=
  .next (s.issue i [0x63] fun c k x s => s.frameStore c k x (be 16 ((s.thread c k).br x.b).toNat))

/-! ### Atomics (R224, R250) -/

/-- An atomic on the scratch word at gs1: old value to new value, and what the thread gets. -/
def State.atomic (s : State) (c k : Nat) (x : Ins) (e : Ecc) (f : Thread → BitVec 64 → Option (BitVec 64)) (put : BitVec 64 → Thread → Thread) :
    Act :=
  let t := s.thread c k
  let a := (t.gr x.a).toNat / 8 * 8
  if scratchSize c ≤ a ∨ paramRange c a then .fault s .scratchRange
  else match s.scratchRead c a 8 e with
    | (false, s) => .fault s .scratchEcc
    | (true, s) =>
      let old := BitVec.ofNat 64 (leNat (wordsGet (s.cluster c).scratch a 8))
      let s := match f t old with
        | some v => s.scratchWrite c a (le 8 v.toNat)
        | none => s
      .go (s.modThread c k (put old))

/-- CAS: scratch compare and swap (R250). -/
def execCas (i : Issue) (ecc : Ecc) (s : State) : Out :=
  .next (s.issue i [0x90] fun c k x s =>
    s.atomic c k x ecc (fun t old => if old = t.gr x.d then some (t.gr x.b) else none)
      fun old t => (t.setP x.pk (old == t.gr x.d)).setG x.d old)

/-- FADD: scratch fetch and add (R250). -/
def execFadd (i : Issue) (ecc : Ecc) (s : State) : Out :=
  .next (s.issue i [0x91] fun c k x s => s.atomic c k x ecc (fun t old => some (old + t.gr x.b)) fun old t => t.setG x.d old)

end Sys2Proof.Machine
end

