-- ==== Sys2Proof/Machine/VertexKey.lean ====
section
/-! DEFINITION. Context and counter instructions and the block instructions of Vertex (R253 to R261, R198, R199, R221, R279, R299). -/

namespace Sys2Proof.Machine

/-! ### SALOAD, PNTAKE, CLD, CST -/

/-- TYPE of a frame context. -/
def Thread.kind (t : Thread) : Nat := bits t.fctx.toNat 62 2
/-- DIR of a frame context. -/
def Thread.recv (t : Thread) : Bool := bitOf t.fctx.toNat 61

/-- The result of SALOAD (Table 10.5). -/
def saResult (a : Assoc) (noCurrent : Bool) (phase : Bool) (h : Nat) : BitVec 64 :=
  BitVec.ofNat 64 (2 ^ 32 * a.suite.toNat + 2 ^ 26 * b2n noCurrent + 2 ^ 25 * b2n a.hold + 2 ^ 24 * b2n phase + 2 ^ 20 * a.status.code + h)

/-- The key that an operation captures from DK slot dk, with its generation and length (R71); none where it is not VALID (R66, R78), or
where its usage mask does not allow the operation (R64): `use` is the bit the operation needs, 4 ENC, 3 DEC, 0 BLOCK. -/
def State.capture (s : State) (dk use : Nat) : Option (Nat × BitVec 32 × Shares × Nat) :=
  let x := s.slot (slotKey 0 dk)
  if s.usable (slotKey 0 dk) && x.act.use.getLsbD use then
    some (slotKey 0 dk, x.gen, { share := x.act.share, mask := x.act.mask }, algLen x.act.alg)
  else none

/-- What the start of an operation finds (R220, R253). -/
structure OpStart where
  /-- The channel has a current association (Table 10.5 NO_CURRENT). -/
  found : Bool
  /-- The association and the key phase, and the key captured. -/
  handle : Nat
  phase : Bool
  key : Option (Nat × BitVec 32 × Shares × Nat)

/-- An operation starts: the handle is resolved, and where its association is ACTIVE and its DK slot serves it the key of the slot is
captured (R71, R220, R253). A Facet phase whose overlap hold has expired gives none (R117, R165). -/
def State.startOp (s : State) (recv : Bool) (ph : Option Bool) (h : Nat) : OpStart × State :=
  let r := s.resolve (!recv) h
  let h := r.getD h
  let a := s.sa h
  let phase := ph.getD a.phase
  let dk := if a.facet && phase then a.dkB.toNat else a.dkA.toNat
  let serves := r.isSome && a.status == .active && !(a.facet && recv && a.expired == some (phase, (s.slot (slotKey 0 dk)).gen))
  match if serves then s.capture dk (if recv then 3 else 4) else none with
  | none => ({ found := r.isSome, handle := h, phase := phase, key := none }, s)
  | some q =>
    let s := s.opStart q.1
    let a := s.sa h
    ({ found := r.isSome, handle := h, phase := phase, key := some q },
      s.setSa h { a with inFlight := a.inFlight + 1, untaken := if a.recv then a.untaken else a.untaken + 1 })

/-- SALOAD: takes the lock asked for, and starts the operation (R220, R253, R254). -/
def saload (c k : Nat) (x : Ins) (s : State) : Act :=
  let t := s.thread c k
  let h := (t.gr x.a).toNat
  let facetRx := t.kind = 1 ∧ t.recv
  if 1 < t.kind ∨ t.op.isSome ∨ (bitOf x.ext 1 ∧ ¬ facetRx) then .fault s .illegal
  else if h / 8192 ≠ c then .fault s .partition_
  else
    let (r, s) := s.startOp t.recv (if bitOf x.ext 1 then some ((t.gr x.b).getLsbD 0) else none) h
    let s := if bitOf x.ext 0 then s.takeLock r.handle (vOwner c k) else s
    let s := match t.item with
      | some i => if r.key.isSome then s.modItem c i fun i => { i with sa := some r.handle } else s
      | none => s
    let o : SaOp := { handle := r.handle, key := r.key, phase := r.phase, since := s.clk, locked := bitOf x.ext 0 }
    .go (s.modThread c k fun t =>
      let t : Thread := { t with op := some o }
      (t.setP x.pk r.key.isSome).setG x.d (saResult (s.sa r.handle) (!r.found) r.phase r.handle))

/-- SALOAD (R253). -/
def execSaload (i : Issue) (s : State) : Out := .next (s.issue i [0x70] saload)

/-- Take the next counter value of an operation in Prism c (R102, R256, R257). A value ends the operation's wait under R258 and clears the
case that HOLD_MS ended (Table 4.7). -/
def State.takePn (s : State) (c h : Nat) (ph : Bool) (slot : Nat) (gen : BitVec 32) : PnResult × State :=
  let (r, s) := s.pnTake h ph (keyIndex slot) gen
  match r with
  | .value v =>
    let s := s.untake h
    (.value v, s.setUnit c { s.unit c with expired := (s.unit c).expired.filter (· != h) })
  | r => (r, s)

/-- PNTAKE: takes the next counter value of the operation's association, or refuses with a reason (R256, R257). An operation whose
PNTAKE is refused has taken no value and has still to reach its disposition (R258). -/
def pntake (c k : Nat) (x : Ins) (s : State) : Act :=
  let t := s.thread c k
  match t.op with
  | some { handle := h, key := some (slot, gen, _, _), phase := ph, .. } =>
    if t.recv ∨ t.pnAsked then .fault s .illegal
    else
      let (r, s) := s.takePn c h ph slot gen
      match r with
      | .value v =>
        let s := match t.item with
          | some q => s.modItem c q fun i => { i with taken := some v }
          | none => s
        .go (s.modThread c k fun t =>
          let t : Thread := { t with pn := some v, pnAsked := true }
          (t.setP x.pk true).setG x.d (BitVec.ofNat 64 v))
      | .refused why =>
        .go (s.modThread c k fun t =>
          let t : Thread := { t with pnAsked := true }
          (t.setP x.pk false).setG x.d (BitVec.ofNat 64 why))
  | _ => .fault s .illegal

/-- PNTAKE (R256). -/
def execPntake (i : Issue) (s : State) : Out := .next (s.issue i [0x71] pntake)

/-- Eight bytes of a context (R255): live fields below 0x80, then the microcode words. -/
def Assoc.word (a : Assoc) (off : Nat) : BitVec 64 :=
  BitVec.ofNat 64 (if off < 0x80 then bits a.image (8 * off) 64 else bits a.ucode.toNat (8 * (off - 0x80)) 64)

/-- CLD: reads the context of the association that SALOAD resolved (R255). -/
def execCld (i : Issue) (s : State) : Out :=
  .next (s.issue i [0x72] fun c k x s =>
    let off := bits x.ext 0 8
    match (s.thread c k).op with
    | none => .fault s .illegal
    | some o => if 0x8F < off then .fault s .partition_ else .go (s.modThread c k fun t => t.setG x.d ((s.sa o.handle).word off)))

/-- CST: writes a microcode word of the context under the lock (R255). -/
def execCst (i : Issue) (s : State) : Out :=
  .next (s.issue i [0x73] fun c k x s =>
    let off := bits x.ext 0 8
    let t := s.thread c k
    match t.op with
    | none => .fault s .illegal
    | some o =>
      if (off ≠ 0x80 ∧ off ≠ 0x88) ∨ s.lockOwner o.handle ≠ some (vOwner c k) then .fault s .partition_
      else
        let a := s.sa o.handle
        let lo := a.ucode.extractLsb' 0 64
        let hi := a.ucode.extractLsb' 64 64
        .go (s.setSa o.handle { a with ucode := if off = 0x80 then hi ++ t.gr x.b else t.gr x.b ++ lo }))

/-! ### Block descriptors (Table 8.3) -/

/-- Build the descriptor (R259). -/
def blockDesc (t : Thread) (x : Ins) : BlockDesc :=
  let w := (t.gr x.b).toNat
  { op := x.op % 16, keysel := bits x.ext 0 2, count := bits w 48 10 + 1, route := bits x.ext 2 2, acc := bits x.ext 4 3
    src := bits w 25 15 * 16, dst := bits w 10 15 * 16, last := bits w 5 5, template := t.br x.a
    clean := w % 32 == 0 && bits w 40 8 == 0 && bits w 58 6 == 0 }

/-- Bytes of the slice: whole blocks, then LAST. -/
def BlockDesc.len (d : BlockDesc) : Nat := 16 * (d.count - 1) + d.last

/-- The slice it reads: the cipher reads whole blocks, the other operations the valid bytes (R198). A derivation descriptor of Radius has
no slice (R299). -/
def BlockDesc.reads (d : BlockDesc) (radius : Bool) : List (Nat × Nat) :=
  if radius && d.keysel == 1 then [] else match d.op with
  | 0 | 1 => [(d.src, 16 * d.count)]
  | 2 => if d.route = 0 then [] else [(d.src, d.len)]
  | 3 => [(d.src, d.len)]
  | 4 => [(d.dst, 16)]
  | _ => [(d.src, d.last), (d.dst, d.last)]

/-- The slice it writes: a CBC-MAC of Radius writes one block (R299). -/
def BlockDesc.writes (d : BlockDesc) (radius : Bool) : List (Nat × Nat) :=
  if radius && d.keysel == 1 then [] else if radius && d.op == 0 then [(d.dst, d.last)] else match d.op with
  | 0 | 1 | 2 => [(d.dst, d.len)]
  | 4 => [(d.dst, d.last)]
  | _ => []

/-- It uses a key (R221). -/
def BlockDesc.keyed (d : BlockDesc) : Bool := d.op < 5

/-- It feeds or folds a GHASH accumulator, or chains a CBC-MAC. -/
def BlockDesc.feeds (d : BlockDesc) (radius : Bool) : Option Nat :=
  if d.op = 3 ∨ d.op = 4 ∨ (d.op = 2 ∧ 2 ≤ d.route) ∨ (radius ∧ d.op = 0 ∧ d.keysel = 0) then some d.acc else none

/-- The initialisation vector of a counter value (R101, Table 4.3). -/
def Assoc.iv (a : Assoc) (phase : Bool) (v : Nat) : BitVec 96 :=
  if a.facet then
    let salt := if phase then bits a.sci.toNat 32 32 else bits a.sci.toNat 0 32
    BitVec.ofNat 96 (2 ^ 64 * salt + 2 ^ 48 * a.unit.toNat + v % 2 ^ 48)
  else if a.xpn then BitVec.ofNat 96 (2 ^ 64 * a.ssci.toNat + v) ^^^ a.xsalt
  else BitVec.ofNat 96 (2 ^ 32 * a.sci.toNat + v % 2 ^ 32)

/-- The block of J0 that TAGFIN encrypts lies at DST; the template of the others comes with the descriptor (R260). -/
def State.templateOf (s : State) (c k : Nat) (d : BlockDesc) : BitVec 128 :=
  if d.op = 4 then BitVec.ofNat 128 (beNat (s.frameGet c k d.dst 16)) else d.template

/-- Refusals of any descriptor (R198, R199, R259, R260). -/
def State.badDesc (s : State) (c k : Nat) (d : BlockDesc) : Bool :=
  let n := (s.frameBytes c k).length
  !d.clean || 5 < d.op || 2 ≤ d.keysel || d.last == 0 || 16 < d.last || (d.op < 2 && d.route != 0) ||
    (d.reads (c == 16) ++ d.writes (c == 16)).any fun r => n < r.1 + r.2

/-- Refusals in a Prism (R260, R279). -/
def State.prismRefuses (s : State) (c k : Nat) (d : BlockDesc) : Bool :=
  let t := s.thread c k
  let crypto := t.kind == 3
  match t.op with
  | none => true
  | some o =>
    if d.keysel = 1 then !crypto
    else if crypto ∨ o.key.isNone then true
    else if t.recv then false
    else match t.pn with
      | none => true
      | some v => d.op < 2 || ((d.op == 2 || d.op == 4) &&
          ((s.templateOf c k d).extractLsb' 32 96 != (s.sa o.handle).iv o.phase v))

/-- The work item of a Radius thread. -/
def State.ritemOf (s : State) (k : Nat) : Option RItem :=
  match (s.thread 16 k).item with
  | some q => s.ritem q
  | none => none

/-- A template belongs to the item's nonce (R293, R299). -/
def RItem.nonceOk (i : RItem) (template : BitVec 128) : Bool :=
  let n := template.toNat
  let id := bits n 56 64
  if i.up then id == i.sensor.toNat && bits n 16 8 == 0
  else id == i.sensor.toNat && bits n 24 32 == i.counter && bits n 16 8 == 1

/-- Refusals in Radius (R260, R274, R299): no GF units; a derivation descriptor needs a reserved entry and a root that can derive. One that
uses the sensor's key waits for the derivation instead. -/
def State.radiusRefuses (s : State) (k : Nat) (d : BlockDesc) : Bool :=
  let t := s.thread 16 k
  match s.ritemOf k with
  | none => true
  | some i =>
    d.op == 3 || d.op == 4 || (d.op == 2 && 2 ≤ d.route) ||
      (if d.keysel = 1 then d.op != 0 || d.count != 3 || !bitOf t.fctx.toNat 60 || bitOf t.fctx.toNat 59 || !s.usable (slotKey 1 i.group)
       else
         (d.op == 0 && !t.begun.contains d.acc && bits (beNat (s.frameGet 16 k d.src 1)) 3 3 == 0) ||
         (d.op == 2 && !i.nonceOk d.template))

/-- A use of the hash subkey cache (R197): entries of generations that Axis has zeroised are gone, a miss counts, and the pair becomes the
most recently used. -/
def State.hTouch (s : State) (n slot : Nat) (gen : BitVec 32) : State :=
  let u := s.unit n
  let live := fun (e : Nat × BitVec 32) =>
    let x := s.slot e.1
    (x.active != .none && x.gen == e.2) || x.old.any fun o => o.gen == e.2
  let l := u.hcache.filter live
  let s := if l.contains (slot, gen) then s else s.count (cid 0x04 5 (4 * n))
  s.setUnit n { u with hcache := ((slot, gen) :: l.filter (· != (slot, gen))).take 1024 }

/-- The key of a descriptor: slot and generation of a Prism's operation, key and length in bytes. -/
def State.descKey (s : State) (c k : Nat) : Nat × BitVec 32 × Nat × Nat :=
  if c = 16 then match s.ritemOf k with
    | some i => (0, 0, (i.key.getD Shares.zero).key, 16)
    | none => (0, 0, 0, 16)
  else match (s.thread c k).op with
    | some { key := some (slot, gen, key, len), .. } => (slot, gen, key.key, len)
    | _ => (0, 0, 0, 16)

/-- XOR of two byte lists, as long as the first. -/
def xorList (a b : List Byte) : List Byte := a.zipIdx.map fun (e : Byte × Nat) => e.1 ^^^ b.getD e.2 0

/-- Key stream of n bytes from a counter template (R198). -/
def keyStream (len key : Nat) (template : BitVec 128) (n : Nat) : List Byte :=
  ((List.range ((n + 15) / 16)).flatMap fun i => Crypto.blockBytes (Crypto.aesEnc len key (Crypto.inc32 template i))).take n

/-- The CBC-MAC chain of Radius (R299). -/
def cbcChain (len key : Nat) (acc : BitVec 128) (bs : List (BitVec 128)) : BitVec 128 :=
  bs.foldl (fun a b => Crypto.aesEnc len key (a ^^^ b)) acc

/-- The blocks of n bytes at an offset of the work item, the last padded with zeros (R198). -/
def State.blocksAt (s : State) (c k off n : Nat) : List (BitVec 128) :=
  (List.range ((n + 15) / 16)).map fun i => BitVec.ofNat 128 (beNat (slice ((s.frameGet c k (off + 16 * i) 16).take (n - 16 * i)) 0 16))

/-- The derivation of a sensor key: AES-CMAC of R80 and R274 under the group root. -/
def sensorKey (root len : Nat) (sensor : BitVec 64) : BitVec 128 :=
  let label : List Byte := [0x54, 0x36, 0x34, 0x31, 0x36, 0x20, 0x53, 0x45, 0x4E, 0x53, 0x4F, 0x52]
  Crypto.cmac len root (be 4 1 ++ label ++ [0#8] ++ be 8 sensor.toNat ++ be 4 128)

/-- An item's derivation puts its key into the entry reserved for it, with the generation captured, while that entry stands (R298, R299). -/
def State.cacheKey (s : State) (i : RItem) (gen : BitVec 32) (q : Shares) : State :=
  let k := keySet i.sensor
  let l := (tget [] s.radius.keys k).map fun x => if x.item = i.id ∧ x.key = none then { x with gen := gen, key := some q } else x
  s.withRadius { s.radius with keys := tput [] s.radius.keys k l }

/-- A derivation of a Radius item starts (R72, R274, R299): the root's generation is in use until it ends, and the key goes into the cache. -/
def State.derive (s : State) (i : RItem) : State :=
  let slot := slotKey 1 i.group
  let root := s.slot slot
  let v := sensorKey root.act.key (algLen root.act.alg) i.sensor
  let (m, s) := s.drbg 128
  let q := Shares.of v.toNat m
  let s := (s.endRoot i.id).opStart slot
  (s.modRItem i.id fun i => { i with key := some q, root := some root.gen }).cacheKey i root.gen q

/-- The effect of an accepted descriptor on staging, accumulators and the key cache (R198, R260, R299). -/
def State.runDesc (s : State) (c k : Nat) (d : BlockDesc) : State :=
  let (slot, gen, key, len) := s.descKey c k
  let t := s.thread c k
  let h := Crypto.aesEnc len key 0
  let acc := tget 0 t.acc d.acc
  let setAcc := fun (s : State) (v : BitVec 128) => s.modThread c k fun t => { t with acc := tput 0 t.acc d.acc v }
  let s := if c < 16 ∧ t.kind = 3 ∧ d.op < 3 then s.countN (cid 0x04 6 (4 * c)) d.count else s
  match d.op with
  | 0 =>
    if c = 16 ∧ d.keysel = 1 then
      match s.ritemOf k with
      | none => s
      | some i => s.derive i
    else if c = 16 then
      let v := cbcChain len key acc (s.blocksAt c k d.src (16 * d.count))
      (setAcc s v).setFrame c k d.dst ((Crypto.blockBytes v).take d.last)
    else
      let out := ((s.blocksAt c k d.src (16 * d.count)).flatMap fun b => Crypto.blockBytes (Crypto.aesEnc len key b)).take d.len
      s.setFrame c k d.dst out
  | 1 =>
    let out := ((s.blocksAt c k d.src (16 * d.count)).flatMap fun b => Crypto.blockBytes (Crypto.aesDec len key b)).take d.len
    s.setFrame c k d.dst out
  | 2 =>
    let ks := keyStream len key d.template d.len
    let src := s.blocksAt c k d.src d.len
    let out := if d.route = 0 then ks else xorList ks (s.frameGet c k d.src d.len)
    let s := s.setFrame c k d.dst out
    if d.route < 2 then s
    else
      let s := s.hTouch c slot gen
      setAcc s (Crypto.ghash h acc (if d.route = 2 then Crypto.blocks out else src))
  | 3 => setAcc (s.hTouch c slot gen) (Crypto.ghash h acc (s.blocksAt c k d.src d.len))
  | 4 =>
    let s := s.hTouch c slot gen
    let y := Crypto.ghash h acc [d.template]
    let tag := y ^^^ Crypto.aesEnc len key (s.templateOf c k d)
    setAcc (s.setFrame c k d.dst ((Crypto.blockBytes tag).take d.last)) 0
  | _ => s

/-- A parity error on the staging words that a descriptor reads (R200): the frame is dropped under its thread, and what the descriptor
leaves in its accumulator and finds in its comparison is free. -/
def State.descParity (s : State) (c k : Nat) (d : BlockDesc) : Bool × State :=
  let (v, s) := s.draw 129
  let s := s.stagingParity c k d.src
  (v % 2 == 1, match d.feeds false with
    | some a => s.modThread c k fun t => { t with acc := tput 0 t.acc a (BitVec.ofNat 128 (v / 2)) }
    | none => s)

/-- A descriptor must wait for an earlier one (R199): it reads what that writes, feeds the same accumulator, or compares its tag. -/
def OutDesc.after (d e : OutDesc) : Bool :=
  d.reads.any (fun r => e.writes.any (overlap r)) || (d.acc.isSome && d.acc == e.acc) || (d.op == 5 && e.op == 4)

/-- A descriptor takes its effect; a TAGCMP tells whether it finds the tag equal. -/
def State.takeDesc (s : State) (c k : Nat) (d : BlockDesc) : Bool × State :=
  (s.frameGet c k d.src d.last == s.frameGet c k d.dst d.last, s.runDesc c k d)

/-- The descriptors of a Radius thread that waited for its derivation take their effects in the order of issue (R299). -/
def State.runHeld (s : State) (k : Nat) : State :=
  (List.range (s.thread 16 k).descs.length).foldl (fun s j =>
    match (s.thread 16 k).descs[j]? with
    | some o => match o.held with
      | some d =>
        let (equal, s) := s.takeDesc 16 k d
        s.modThread 16 k fun t => { t with descs := t.descs.zipIdx.map fun e =>
          if e.2 = j then { e.1 with held := none, pred := e.1.pred.map fun p => (p.1, equal) } else e.1 }
      | none => s
    | none => s) s

/-- A descriptor of Radius must wait with its effect (R299): its key is not derived yet, or one that it must follow waits. -/
def State.mustHold (s : State) (k : Nat) (d : BlockDesc) (o : OutDesc) : Bool :=
  (d.keysel == 0 && d.keyed && !(s.ritemOf k).any (·.key.isSome)) || (s.thread 16 k).descs.any fun e => e.held.isSome && o.after e

/-- The first block of a CBC-MAC chain has been issued (R299). -/
def Thread.begin (t : Thread) (radius : Bool) (d : BlockDesc) : Thread :=
  if radius && d.op == 0 && d.keysel == 0 then { t with begun := d.acc :: t.begun.filter (· != d.acc) } else t

/-- A block instruction issues its descriptor (R199, R221, R259 to R261, R272): its effect lies in staging from then on, its slot and its
predicate follow at completion. A TAGCMP that finds the tag equal verifies the frame (R204). -/
def blockIssue (perr : Bool) (c k : Nat) (x : Ins) (s : State) : Act :=
  let t := s.thread c k
  let d := blockDesc t x
  if s.badDesc c k d ∨ (if c = 16 then s.radiusRefuses k d else s.prismRefuses c k d) then .fault s .descriptor
  else if d.keysel = 0 ∧ d.keyed ∧ c < 16 ∧ (match t.op with | some o => decide (o.since + 2000 < s.clk) | none => false) = true then
    .fault s .keyExpired
  else
    let o : OutDesc := { op := d.op, reads := d.reads (c == 16), writes := d.writes (c == 16), acc := d.feeds (c == 16), pred := none, held := none }
    let hold := c == 16 && s.mustHold k d o
    let (equal, s) := if hold then (false, s)
      else if perr ∧ c < 16 ∧ d.reads false ≠ [] then s.descParity c k d
      else s.takeDesc c k d
    let s := if c = 16 ∧ d.keysel = 1 then s.runHeld k else s
    let s := match t.item with
      | some q => if d.op = 5 ∧ c < 16 then s.modItem c q fun i => { i with verified := equal } else s
      | none => s
    let o := { o with pred := if d.op = 5 ∧ x.d ≠ 0 then some (x.d, equal) else none, held := if hold then some d else none }
    .go (s.modThread c k fun t => { t.begin (c == 16) d with descs := t.descs ++ [o] })

/-- BENC (R259, R260). -/
def execBenc (o : BlockIssue) (s : State) : Out := .next (s.issue o.i [0x80] (blockIssue o.perr))
/-- BDEC (R259, R260). -/
def execBdec (o : BlockIssue) (s : State) : Out := .next (s.issue o.i [0x81] (blockIssue o.perr))
/-- BCTR (R198, R260). -/
def execBctr (o : BlockIssue) (s : State) : Out := .next (s.issue o.i [0x82] (blockIssue o.perr))
/-- GFACC (R260). -/
def execGfacc (o : BlockIssue) (s : State) : Out := .next (s.issue o.i [0x83] (blockIssue o.perr))
/-- TAGFIN (R260). -/
def execTagfin (o : BlockIssue) (s : State) : Out := .next (s.issue o.i [0x84] (blockIssue o.perr))
/-- TAGCMP (R260, R261). -/
def execTagcmp (o : BlockIssue) (s : State) : Out := .next (s.issue o.i [0x85] (blockIssue o.perr))

end Sys2Proof.Machine
end

