-- ==== Sys2Proof/Machine/VertexCtl.lean ====
section
/-! DEFINITION. Control, disposition and events of Vertex threads (R222, R262 to R268, R297). -/

namespace Sys2Proof.Machine

/-! ### Control (R261 to R263) -/

/-- BR: branch to ext [13:0] (R262). -/
def execBr (i : Issue) (s : State) : Out := .next (s.issue i [0xA0] fun _ _ x s => .jump s (bits x.ext 0 14))

/-- BRR: branch to gs1[13:0] (R262). -/
def execBrr (i : Issue) (s : State) : Out :=
  .next (s.issue i [0xA1] fun c k x s => .jump s (bits ((s.thread c k).gr x.a).toNat 0 14))

/-- CALL: push the return index and branch; a full stack faults (R262). -/
def execCall (i : Issue) (s : State) : Out :=
  .next (s.issue i [0xA2] fun c k x s =>
    let t := s.thread c k
    let dst := bits x.ext 0 14
    if 8 ≤ t.stack.length ∨ s.count_ c t.high ≤ dst then .fault s .illegal
    else .jump (s.setThread c k { t with stack := (t.pc + 1) :: t.stack }) dst)

/-- RET: pop and branch; an empty stack faults (R262). -/
def execRet (i : Issue) (s : State) : Out :=
  .next (s.issue i [0xA3] fun c k _ s =>
    let t := s.thread c k
    match t.stack with
    | [] => .fault s .illegal
    | pc :: rest => if s.count_ c t.high ≤ pc then .fault s .illegal else .jump (s.setThread c k { t with stack := rest }) pc)

/-- WAIT: the thread goes on once at most n descriptors are outstanding (R261). -/
def execWait (i : Issue) (s : State) : Out := .next (s.issue i [0xA4] fun _ _ _ s => .go s)

/-- YIELD: the thread waits until every other READY thread of its engine has issued once (R263). -/
def execYield (i : Issue) (s : State) : Out :=
  .next (s.issue i [0xA5] fun c k _ s =>
    let others := (List.range 8).filter fun j => j != k % 8 && (s.thread c (8 * (k / 8) + j)).mode == .ready
    .go (s.modThread c k fun t => { t with yield := others }))

/-! ### Dispositions of Prism items (R222, R264 to R267) -/

/-- The association of a thread's item: the one that SALOAD resolved, else the one of its frame context. -/
def State.itemSa (s : State) (c k : Nat) : Nat :=
  match (s.thread c k).op with
  | some o => o.handle
  | none => bits (s.thread c k).fctx.toNat 23 17

/-- The item of a thread is still in its reorder slot: one discarded under its thread is not (R208). -/
def State.heldItem (s : State) (n k : Nat) : Option Item :=
  match (s.thread n k).item with
  | some q => (s.unit n).items.find? fun i => i.seq == q && i.stage == .running k
  | none => none

/-- A thread gives its item up: the operation ends and the thread is IDLE (R222). An item that was discarded under it is forgotten. -/
def State.leaveItem (s : State) (n k : Nat) : State :=
  let q := (s.thread n k).item
  let s := (s.endOp n k true).idle n k
  s.setUnit n { s.unit n with ghosts := (s.unit n).ghosts.filter fun i => some i.seq != q }

/-- EMIT in a Prism: the frame goes to its reorder slot (R222, R264). -/
def State.emitFrame (s : State) (n k : Nat) (x : Ins) : State :=
  let t := s.thread n k
  match s.heldItem n k with
  | none => s.leaveItem n k
  | some i =>
    let e : Emitted := { len := (t.gr x.a).toNat, pn := (t.gr x.b).toNat, octets := (t.gr x.d).toNat, enc := bitOf x.ext 0
                         cause := bits x.ext 1 3 }
    let s := s.leaveItem n k
    if i.kind = 3 then s.chunkDone n i else s.modItem n i.seq fun i => { i with stage := .emitted e }

/-! ### Dispositions in Radius (R297, Table 12.13) -/

/-- A write-back keeps every H field of Table 12.2 and does not lower UL_HIGH. -/
def writeBackOk (old new : List Byte) : Bool :=
  slice old 0 10 == slice new 0 10 && recFlags old &&& 0xFF9D == recFlags new &&& 0xFF9D &&
    leAt old 0x0C 4 ≤ leAt new 0x0C 4 && slice old 0x20 24 == slice new 0x20 24

/-- The record that a write-back stores over the present one (R285, R297, R303): the M fields of the image, HAS_UL and UL_TSRC; DIRTY sets
where UL_HIGH rises, RESUMED clears with the first reading. -/
def writtenBack (cur new : List Byte) (reading : Bool) : List Byte :=
  let f := (recFlags cur &&& 0xFF9D) ||| (recFlags new &&& 0x62) ||| (if leAt cur 0x0C 4 < leAt new 0x0C 4 then 4 else 0)
  let r := patch (patch cur 0x0C (slice new 0x0C 20)) 0x38 (slice new 0x38 8)
  patch r 0x0A (le 2 (if reading then f &&& 0xFFF7 else f))

/-- Write a record image back into its slot; a record that cannot be read takes the image as it is. -/
def State.writeBack (s : State) (i : RItem) (new : List Byte) (reading : Bool) : State :=
  let (cur, s) := s.areaRead (s.recAddr false i.slot)
  s.areaWrite (s.recAddr false i.slot) (writtenBack (cur.getD i.image) new reading)

/-- A downlink record is written into the entry of the store that its item holds (R306). -/
def State.storeRecord (s : State) (i : RItem) (rec : List Byte) : State :=
  match s.radius.store.find? (·.id == i.id) with
  | none => s
  | some e =>
    let l := s.radius.store.map fun (e : StoreEntry) => if e.id = i.id then { e with record := rec } else e
    (s.withRadius { s.radius with store := l }).storeWrite e.place

/-- Release of a Radius item under a lock owner (R297, R302): its image is written back where `wb`, its output of n bytes goes to the reading
queue or endpoint (kind 0) or the downlink store (kind 1), and the lock is released. The first reading after a RESUME carries RESUMED (R303). -/
def State.releaseItem (s : State) (owner : Nat) (i : RItem) (wb : Bool) (new : List Byte) (kind n : Nat) (out : List Byte) : State :=
  let reading := 0 < n && kind == 0 && leAt out 2 1 == 1
  let mine := (s.recLock i.slot).any (·.owner == owner)
  let g := some i.group
  if wb ∧ !(mine && writeBackOk i.image new) then
    ((s.rcount 10 g).raise 0x1C5 (le 2 owner)).recUnlock i.slot owner |>.endRItem i.id
  else
    let resumed := reading && bitOf (recFlags i.image) 3
    let out := if resumed then patch out 3 [BitVec.ofNat 8 (leAt out 3 1 ||| 2)] else out
    let s := if wb then s.writeBack i new reading
      else if resumed ∧ mine then s.writeBack i i.image true
      else s
    let s := if wb ∧ leAt i.image 0x3E 2 ≠ leAt new 0x3E 2 then s.rcount 12 g else s
    let s := if wb ∧ leAt i.image 0x3C 2 ≠ leAt new 0x3C 2 then s.rcount 13 g else s
    let s := s.recUnlock i.slot owner
    let s := if reading then s.rcount 16 g else s
    let s := if n = 0 then s
      else if kind = 0 then s.outRecord i.group i.params i.route (if i.up then 0 else s.reservedOut) out
      else (s.storeRecord i (slice out 0 (min n (beAt out 0 2))))
    s.endRItem i.id

/-- EMIT in Radius (R297): gs1 gives 0, 64, 128 or 192 bytes; for another value the length is not stated and free among them (log entry
79). -/
def State.emitItem (s : State) (k : Nat) (x : Ins) (i : RItem) : State :=
  let v := ((s.thread 16 k).gr x.a).toNat
  let (r, s) := if v % 64 = 0 ∧ v ≤ 192 then (v / 64, s) else s.draw 2
  s.releaseItem (vOwner 16 k) i (bitOf x.ext 0) (slice i.buf 0 64) (bits x.ext 1 2) (64 * r) (slice i.buf 0x110 (64 * r))

/-- The counter of an uplink's sensor frame (Table 12.7). -/
def RItem.frameCounter (i : RItem) : Nat := beAt i.buf 0x69 4

/-- DROP in Radius: counted by its reason, the lock released without write-back (R297, R300, R301, Table 12.13). LATE counts as a replay
where the counter is not above UL_HIGH, else as a gap drop (log entry 81). -/
def State.dropItem (s : State) (k reason : Nat) (i : RItem) : State :=
  let g := some i.group
  let s := match reason with
    | 1 | 2 => (s.rcount 15 g).raiseOnce 0x1C4 i.group (le 2 i.group ++ le 8 i.sensor.toNat)
    | 3 => s.rcount (if i.frameCounter ≤ leAt i.image 0x0C 4 then 13 else 14) g
    | 4 => (s.rcount 11 g).raiseOnce 0x1C3 i.group (le 2 i.group)
    | 5 => s.rcount 6 g
    | _ => s.rcount 17 g
  (s.recUnlock i.slot (vOwner 16 k)).endRItem i.id

/-! ### The instructions -/

/-- EMIT: a verify fence, then the release of the work item (R226, R264, R297). -/
def execEmit (i : Issue) (s : State) : Out :=
  .next (s.issue i [0xB0] fun c k x s => s.fenced c k (.gone (
    if c = 16 then
      let it := s.ritemOf k
      let s := match it with
        | some it => s.emitItem k x it
        | none => s
      s.idle 16 k
    else s.emitFrame c k x)))

/-- DROP counts its reason in a Prism, for an item under association h (Table 10.7); an association has only the counters of its own
direction (Table 4.8), and the frame that fails its tag on the transport path counts in the port's performance data (R165). -/
def State.countDrop (s : State) (n h reason : Nat) (i : Item) : State :=
  let tally := fun (recv : Bool) (j : Nat) (s : State) => if (s.sa h).recv = recv then s.stat h j 1 else s
  let fail := fun (s : State) => (if i.kind = 1 then s.facetTagFailed n else s.count (cid 0x03 7 i.lp)).raiseOnce 0x143 (64 + i.lp)
    ([BitVec.ofNat 8 n, BitVec.ofNat 8 (64 + i.lp)] ++ le 4 h)
  if i.lp = 64 then s
  else match reason with
    | 0 => s.count (cid 0x04 1 i.lp)
    | 1 => fail (tally true 1 s)
    | 2 => fail (tally true 2 s)
    | 3 => if i.kind = 1 then tally true 3 s else (tally true 3 s).count (cid 0x03 8 i.lp)
    | 4 => tally true 5 s
    | 5 => tally false 5 s
    | 6 => tally false 7 s
    | _ => (s.count (cid 0x03 0 i.lp)).raiseOnce 0x173 (64 + i.lp) (BitVec.ofNat 8 (64 + i.lp) :: le 4 i.handle)

/-- The class of a received Facet frame that is dropped with a reason: without a key it is UNKEYABLE, else FAILED (R165, R173). -/
def dropClass (reason : Nat) : FacetFrameClass := if reason = 4 then .unkeyable else .failed

/-- An item of a Prism is dropped for a reason, under association h (R265). -/
def State.dropFor (s : State) (n h reason : Nat) (i : Item) : State :=
  ((s.countDrop n h reason i).modItem n i.seq fun i => { i with cls := some (dropClass reason) }).dropHeld n i

/-- End a work item with a DROP reason. -/
def State.dropWork (s : State) (c k reason : Nat) : State :=
  if c = 16 then
    let s := match s.ritemOf k with
      | some i => s.dropItem k reason i
      | none => s
    s.idle 16 k
  else match s.heldItem c k with
    | none => s.leaveItem c k
    | some i =>
      let h := s.itemSa c k
      (s.leaveItem c k).dropFor c h reason i

/-- DROP: ends the work item with a reason (R222, R265). -/
def execDrop (i : Issue) (s : State) : Out := .next (s.issue i [0xB1] fun c k x s => .gone (s.dropWork c k (bits x.ext 0 4)))

/-- HALT without an earlier disposition drops the item as aborted (R222). -/
def execHalt (i : Issue) (s : State) : Out := .next (s.issue i [0xA6] fun c k _ s => .gone (s.dropWork c k 0))

/-- A MACsec transmit frame of association h is held in staging (R266). It is dropped instead once HOLD_MS has passed and until the case
clears (Table 4.7), and where PORT_DISABLE has been given for its port (R207). -/
def State.holdItem (s : State) (c h : Nat) (twin : Bool) (i : Item) : State :=
  if (!twin ∧ (s.unit c).expired.contains h) ∨ !(s.lport (64 + i.lp)).enabled then (s.stat h 5 1).dropSlot c i.seq
  else
    let s := (s.stat h (if twin then 6 else 4) 1).saLeave ((s.item c i.seq).bind (·.sa))
    let u := s.unit c
    let p : Parked := { item := { i with stage := .waiting, sa := none, handle := h }, twin := twin
                        due := s.clk + 1000000 * (s.sa h).holdMs.toNat }
    (s.setUnit c { u with items := u.items.filter (·.seq != i.seq), parked := u.parked ++ [p] }).restop

/-- PARK (R266). -/
def park (c k : Nat) (x : Ins) (s : State) : Act :=
  let t := s.thread c k
  if c = 16 ∨ t.kind ≠ 0 ∨ t.recv ∨ t.pn.isSome then .fault s .illegal
  else match s.heldItem c k with
    | none => .gone (s.leaveItem c k)
    | some i =>
      let h := s.itemSa c k
      .gone ((s.leaveItem c k).holdItem c h (bitOf x.ext 0) i)

/-- An item waits for dispatch again in its reorder slot (R267). -/
def State.redoItem (s : State) (c : Nat) (i : Item) : State :=
  (s.saLeave ((s.item c i.seq).bind (·.sa))).modItem c i.seq fun i => { i with stage := .waiting, sa := none }

/-- PARK (R266). -/
def execPark (i : Issue) (s : State) : Out := .next (s.issue i [0xB2] park)

/-- REDO: the operation ends and the item waits for dispatch again in its reorder slot (R267). -/
def execRedo (i : Issue) (s : State) : Out :=
  .next (s.issue i [0xB3] fun c k _ s =>
    let t := s.thread c k
    if c = 16 ∨ 1 < t.kind ∨ t.pn.isSome then .fault s .illegal
    else match s.heldItem c k with
      | none => .gone (s.leaveItem c k)
      | some i => .gone ((s.leaveItem c k).redoItem c i))

/-- EVT: a verify fence, then a microcode event with the owner ID, the PC and gs1 (R226, R268, R517). -/
def execEvt (i : Issue) (s : State) : Out :=
  .next (s.issue i [0xB8] fun c k x s =>
    let t := s.thread c k
    s.fenced c k (.go (s.raise (0x1A0 + bits x.ext 0 4) (le 2 (vOwner c k) ++ le 2 t.pc ++ le 8 (t.gr x.a).toNat))))

end Sys2Proof.Machine
end

