-- ==== Sys2Proof/Machine/Shipped.lean ====
section
/-! DEFINITION. What the shipped Prism mode image does with a work item, from its dispatch to its disposition (R269): the MACsec, Facet and
CRYPTO_BLOCK programs of chapters 5, 6 and 11. The words of the image are not in the spec, so its run is one step (log entry 143). -/

namespace Sys2Proof.Machine

/-- The image is the shipped one of its cluster, by the values of Table 11.1. -/
def Image.shipped (im : Image) (radius : Bool) : Bool :=
  im.scratch == [] && (if radius then im.version == 0x00020004 && im.count == 6950 else im.version == 0x00030002 && im.count == 3712)

/-- The cluster runs the shipped image. -/
def State.runsShipped (s : State) (c : Nat) : Bool :=
  let x := s.cluster c
  match x.active with
  | some h => (x.half h).any (·.shipped (c == 16))
  | none => false

/-! ### The operation of an item -/

/-- An operation of a program ends: the key is no longer in use, and one that took no value no longer holds its rotation (R72, R258). -/
def State.stopOp (s : State) (recv : Bool) (r : OpStart) (taken : Bool) : State :=
  match r.key with
  | some (slot, gen, _, _) => (if !recv && !taken then s.untake r.handle else s).opEnd slot gen
  | none => s

/-- The item counts in the association that its operation runs under (R98). -/
def State.itemOp (s : State) (n : Nat) (i : Item) (r : OpStart) : State :=
  if r.key.isSome then s.modItem n i.seq fun i => { i with sa := some r.handle } else s

/-- The program releases an item with new bytes (R222, R264). -/
def State.emitAs (s : State) (n : Nat) (i : Item) (bytes : List Byte) (taken : Option Nat) (verified : Bool) (e : Emitted) : State :=
  s.modItem n i.seq fun i => { i with stage := .emitted e, bytes := bytes, taken := taken, verified := verified }

/-! ### MACsec (chapter 5) -/

/-- Octets of the confidentiality offset (Table 5.3). -/
def confOffset (cfg : Nat) : Nat := [0, 30, 50].getD (bits cfg 22 2) 0

/-- The SecTAG of a transmitted frame with `data` octets of secure data (Table 5.6). -/
def secTagBytes (cfg : Nat) (a : Assoc) (data pn : Nat) : List Byte :=
  let sc := bitOf cfg 20
  let e := b2n (bitOf cfg 21)
  be 2 0x88E5 ++ [BitVec.ofNat 8 (32 * b2n sc + 12 * e + a.an.toNat), BitVec.ofNat 8 (if data < 48 then data else 0)] ++ be 4 (pn % 2 ^ 32) ++
    (if sc then be 8 a.sci.toNat else [])

/-- Secure data of an item. -/
def Item.secure (i : Item) : List Byte := slice i.bytes ((i.head + 15) / 16 * 16) i.data

/-- ICV of an item. -/
def Item.icv (i : Item) : List Byte := slice i.bytes ((i.head + 15) / 16 * 16 + (i.data + 15) / 16 * 16) 16

/-- SecTAG of an item. -/
def Item.tag (i : Item) : List Byte := slice i.bytes i.offset (i.head - i.offset)

/-- Secure-data octets that are authenticated and not encrypted: all where E is 0, else the confidentiality offset (R126). -/
def clearOctets (cfg data : Nat) (enc : Bool) : Nat := if enc then min data (confOffset cfg) else data

/-- What the ICV covers beside the ciphertext: the addresses, the SecTAG and the clear octets, not clear VLAN tags (R126). -/
def macsecAad (i : Item) (tag data : List Byte) (clear : Nat) : List Byte := slice i.bytes 0 12 ++ tag ++ data.take clear

/-- An item with its SecTAG, secure data and ICV. -/
def Item.withParts (i : Item) (tag data icv : List Byte) : List Byte :=
  slice i.bytes 0 i.offset ++ tag ++ List.replicate ((i.head + 15) / 16 * 16 - i.head) 0 ++ slice data 0 ((i.data + 15) / 16 * 16) ++ icv ++
    i.bytes.drop ((i.head + 15) / 16 * 16 + (i.data + 15) / 16 * 16 + 16)

/-- A transmit frame protected under a counter value (R101, R126). -/
def Item.protect (i : Item) (cfg : Nat) (a : Assoc) (len key pn : Nat) : List Byte :=
  let tag := secTagBytes cfg a i.data pn
  let data := i.secure
  let k := clearOctets cfg i.data (bitOf cfg 21)
  let (ct, icv) := Crypto.gcmSeal len key (a.iv false pn) (macsecAad i tag data k) (data.drop k)
  i.withParts tag (data.take k ++ ct) icv

/-- A received frame verified and decrypted under its PN, or none where the ICV fails (R134). -/
def Item.unprotect (i : Item) (cfg : Nat) (a : Assoc) (len key pn : Nat) : Option (List Byte) :=
  let data := i.secure
  let k := clearOctets cfg i.data i.enc
  (Crypto.gcmOpen len key (a.iv false pn) (macsecAad i i.tag data k) (data.drop k) i.icv).map fun pt => i.withParts i.tag (data.take k ++ pt) i.icv

/-- PN of a received frame (R131): below NEXT in its low half it belongs to the next cycle of an XPN suite, modulo 2^64. -/
def Assoc.recoverPn (a : Assoc) (wire : Nat) : Nat :=
  if !a.xpn then wire
  else if a.nextN % 2 ^ 32 ≤ wire then 2 ^ 32 * (a.nextN / 2 ^ 32) + wire else (2 ^ 32 * (a.nextN / 2 ^ 32 + 1) + wire) % 2 ^ 64

/-- The DROP reason of a frame whose ICV fails: Invalid for integrity-only under Check, else Not-valid (R134). -/
def tagReason (cfg : Nat) (enc : Bool) : Nat := if bitOf cfg 18 && !enc then 1 else 2

/-- MACsec transmit (R128, R256, Tables 4.7, 5.6, 10.6). -/
def State.shipMacTx (s : State) (n : Nat) (i : Item) : State :=
  let cfg := (s.lport (64 + i.lp)).macsec.toNat
  let (r, s) := s.startOp false none i.handle
  let h := r.handle
  let a := s.sa h
  match r.key with
  | none => if !r.found then s.dropFor n h 7 i else if a.hold then s.holdItem n h false i else s.dropFor n h 5 i
  | some (slot, gen, key, len) =>
    let s := s.itemOp n i r
    let (v, s) := s.takePn n h r.phase slot gen
    match v with
    | .value pn =>
      let e : Emitted := { len := i.head + i.data + 20, pn := 0, octets := i.data, enc := bitOf cfg 21, cause := 0 }
      (s.stopOp false r true).emitAs n i (i.protect cfg a len key.key pn) (some pn) false e
    | .refused w =>
      let s := s.stopOp false r false
      if w = 5 then s.redoItem n i
      else if w = 3 then s.holdItem n h true i
      else if w = 4 then s.dropFor n h 6 i
      else if a.hold then s.holdItem n h false i
      else s.dropFor n h 5 i

/-- MACsec receive under both decryption output policies (R132, R134, R202, R203). -/
def State.shipMacRx (s : State) (n : Nat) (i : Item) : State :=
  let cfg := (s.lport (64 + i.lp)).macsec.toNat
  let (r, s) := s.startOp true none i.handle
  let a := s.sa r.handle
  match r.key with
  | none => s.dropFor n r.handle (if a.status = .retiring then 4 else 2) i
  | some (slot, gen, key, len) =>
    let s := s.itemOp n i r
    let pn := a.recoverPn (beAt i.bytes (i.offset + 4) 4)
    if bitOf cfg 19 ∧ pn < a.nextN then (s.stopOp true r false).dropFor n r.handle 3 i
    else
      let s := (s.hTouch n slot gen).stopOp true r false
      match i.unprotect cfg a len key.key pn with
      | none => s.dropFor n r.handle (tagReason cfg i.enc) i
      | some bytes =>
        s.emitAs n i bytes none true { len := i.offset + i.data + 4, pn := pn, octets := i.data, enc := i.enc, cause := 0 }

/-! ### Facet (chapter 6) -/

/-- The KEY_STATE and the cause of an unkeyed frame, by the state of its association or the reason that PNTAKE gave (R149, R150, Table 6.5):
1 dropped, 2 twin hold, 3 no lease. -/
def unkeyedBy (exhausted : Bool) : Nat → Nat × Nat
  | 1 => (5, 1)
  | 3 => (4, 2)
  | 4 => (6, 3)
  | _ => (if exhausted then 5 else 4, 1)

/-- Release a Facet frame unkeyed; its KEY_PHASE is not stated and free (R150). -/
def State.emitUnkeyed (s : State) (n : Nat) (i : Item) (why : Nat × Nat) : State :=
  let (ph, s) := s.draw 1
  s.emitAs n i (facetClear (BitVec.ofNat 8 (128 * ph + 16 * why.1)) i.bytes) none false
    { len := 16384, pn := 0, octets := 0, enc := false, cause := why.2 }

/-- Octets of a keyed frame (Table 6.9). -/
def facetOctets (frame : List Byte) : Nat := 16 * (facetText frame).length

/-- Facet transmit (R149, R150, R162 to R164). -/
def State.shipFacetTx (s : State) (n : Nat) (i : Item) : State :=
  let (r, s) := s.startOp false none i.handle
  let h := r.handle
  let a := s.sa h
  match r.key with
  | none => s.emitUnkeyed n i (unkeyedBy (a.status == .exhausted) 0)
  | some (slot, gen, key, _) =>
    let s := s.itemOp n i r
    let (v, s) := s.takePn n h r.phase slot gen
    match v with
    | .value ctr =>
      let other := s.dkValid (a.phaseDk !r.phase)
      let byte14 := BitVec.ofNat 8 (128 * b2n r.phase + 16 * b2n other)
      let s := (s.hTouch n slot gen).stopOp false r true
      s.emitAs n i (facetSeal key.key (facetIv (a.salt r.phase) a.unit ctr) ctr byte14 i.bytes) (some ctr) false
        { len := 16384, pn := 0, octets := facetOctets i.bytes, enc := true, cause := 0 }
    | .refused w =>
      let s := s.stopOp false r false
      if w = 5 then s.redoItem n i else (s.saLeave ((s.item n i.seq).bind (·.sa))).modItem n i.seq (fun i => { i with sa := none }) |>.emitUnkeyed n i (unkeyedBy false w)

/-- Facet receive (R165): the key of the frame's phase, then the counter, then the tag. -/
def State.shipFacetRx (s : State) (n : Nat) (i : Item) : State :=
  let ph := bitOf (beAt i.bytes 14 1) 7
  let ctr := beAt i.bytes 8 6
  let (r, s) := s.startOp true (some ph) i.handle
  let a := s.sa r.handle
  match r.key with
  | none => s.dropFor n r.handle 4 i
  | some (slot, gen, key, _) =>
    let s := s.itemOp n i r
    if ctr < a.nextN then (s.stopOp true r false).dropFor n r.handle 3 i
    else
      let s := (s.hTouch n slot gen).stopOp true r false
      let iv := facetIv (a.salt ph) a.unit ctr
      if Crypto.blockBytes (facetTag key.key iv i.bytes) ≠ slice i.bytes 16368 16 then s.dropFor n r.handle 2 i
      else
        s.emitAs n i (facetPut i.bytes (Crypto.ctr 32 key.key (Crypto.inc32 (Crypto.j0 iv) 1) (facetText i.bytes))) none true
          { len := 16384, pn := ctr, octets := facetOctets i.bytes, enc := true, cause := 0 }

/-! ### CRYPTO_BLOCK (R206) -/

/-- The output of a chunk under its operation: 0 ENC, 1 DEC, 2 CTR (R505). -/
def chunkOut (op len key : Nat) (template : BitVec 128) (data : List Byte) : List Byte :=
  let each := fun (f : BitVec 128 → BitVec 128) => (Crypto.blocks data).flatMap fun b => Crypto.blockBytes (f b)
  match op with
  | 0 => each (Crypto.aesEnc len key)
  | 1 => each (Crypto.aesDec len key)
  | _ => Crypto.ctrBytes len key template data

/-- A chunk under the key q that it captured: each block counts in "crypto blocks" (R206). -/
def State.shipChunk (s : State) (n : Nat) (i : Item) (q : Nat × BitVec 32 × Shares × Nat) : State :=
  let out := chunkOut (leAt i.bytes 0 1) q.2.2.2 q.2.2.1.key (BitVec.ofNat 128 (beAt i.bytes 16 16)) (slice i.bytes chunkData (16 * i.len))
  ((s.countN (cid 0x04 6 (4 * n)) i.len).opEnd q.1 q.2.1).chunkDone n { i with bytes := patch i.bytes chunkData out }

/-- The program of the item's TYPE and DIR runs a frame; one that an earlier frame of its association keeps waiting does not run yet
(R256). -/
def State.shipFrame (s : State) (n : Nat) (i : Item) : State :=
  if !i.recv && s.earlierThan n i ((s.resolve true i.handle).getD i.handle) then s
  else match i.kind, i.recv with
    | 0, false => s.shipMacTx n i
    | 0, true => s.shipMacRx n i
    | _, false => s.shipFacetTx n i
    | _, true => s.shipFacetRx n i

end Sys2Proof.Machine
end

