-- ==== Sys2Proof/Machine/Prism.lean ====
section
/-! DEFINITION. Frames through a Prism and the client edge: SECTOR_DEQUEUE, LINE_FRAME_RECEIVE, PRISM_DISPATCH, REORDER_RELEASE, parked
frames and CRYPTO_BLOCK (chapters 1, 5, 8, 9). -/

namespace Sys2Proof.Machine

/-! ### Staging and reorder slots (R200, R201) -/

/-- The first of 2,048 lines from which n free lines run, given what is taken: the lowest such line (log entry 65). -/
def firstFit (used : List (Nat × Nat)) (n : Nat) : Option Nat :=
  let starts := (0 :: used.map fun e => e.1 + e.2).filter fun c => c + n ≤ 2048 && used.all fun e => c + n ≤ e.1 || e.1 + e.2 ≤ c
  starts.foldl (fun (m : Option Nat) c => match m with
    | none => some c
    | some b => some (min b c)) none

/-- Staging lines that Prism n holds in a direction. -/
def State.stagingUsed (s : State) (n : Nat) (recv : Bool) : List (Nat × Nat) :=
  let u := s.unit n
  ((u.items ++ u.parked.map (·.item)).filter fun i => i.recv == recv && i.lines != 0).map fun i => (i.line % 2048, i.lines)

/-- The first line of an allocation of n lines in the half of a direction, if the half has room (R200). -/
def State.staging (s : State) (n : Nat) (recv : Bool) (lines : Nat) : Option Nat :=
  (firstFit (s.stagingUsed n recv) lines).map (· + if recv then 2048 else 0)

/-- Frames in the reorder buffer of a direction, at most 256 (R192). -/
def State.reorderUsed (s : State) (n : Nat) (recv : Bool) : Nat := ((s.unit n).items.filter fun i => i.recv == recv && i.kind != 3).length

/-- Threads of Prism n that dispatch may take. -/
def State.idleThreads (s : State) (c : Nat) : Nat :=
  ((List.range (threadCount c)).filter fun k => (s.thread c k).mode == .idle).length

/-- Items that wait for dispatch. -/
def State.waitingItems (s : State) (n : Nat) : Nat := ((s.unit n).items.filter fun i => i.stage == .waiting).length

/-- A new item at the end of Prism n's arrivals. -/
def State.addItem (s : State) (n : Nat) (i : Item) : State :=
  let q := s.prism.nextSeq
  let s := { s with prism := { s.prism with nextSeq := q + 1 } }
  let u := s.unit n
  s.setUnit n { u with items := u.items ++ [{ i with seq := q }] }

/-! ### Layout (Tables 5.3, 5.6; log entry 60) -/

/-- VLAN tags left in clear: at most k of those that a frame has (R126). -/
def clearTags (bs : List Byte) : Nat → Nat → Nat
  | 0, off => off
  | k + 1, off => if [0x8100, 0x88A8, 0x9100].contains (beAt bs off 2) then clearTags bs k (off + 4) else off

/-- A section padded to whole 16-byte units. -/
def padded (bs : List Byte) : List Byte := slice bs 0 ((bs.length + 15) / 16 * 16)

/-- An item over three sections of staging, which fills whole lines (R200). -/
def newItem (recv : Bool) (lp : Nat) (head data icv : List Byte) (offset len handle : Nat) : Item :=
  let body := padded head ++ padded data ++ icv
  let lines := (body.length + 127) / 128
  { seq := 0, kind := 0, recv := recv, lp := lp, stage := .waiting, bytes := slice body 0 (128 * lines), line := 0, lines := lines
    len := len, handle := handle, offset := offset, head := head.length, data := data.length, frame := none, queue := 0, tsId := none
    stamp := 0, fcs := none, keep := 0, crc := 0, enc := false
    verified := false, taken := none, cls := none, ohead := [], sa := none, stalled := false, cut := false }

/-- The sections of an item one after the other, without their padding. -/
def Item.packed (i : Item) : List Byte :=
  let h := (i.head + 15) / 16 * 16
  let d := (i.data + 15) / 16 * 16
  slice i.bytes 0 i.head ++ slice i.bytes h i.data ++ slice i.bytes (h + d) 16

/-- Verified plaintext of a receive item: the bytes before the SecTAG, then the secure data. -/
def Item.plaintext (i : Item) : List Byte := slice i.bytes 0 i.offset ++ slice i.bytes ((i.head + 15) / 16 * 16) i.data

/-- EtherTypes of the uncontrolled list as sampled (Tables 5.4, 5.5). -/
def LPort.uncontrolled (p : LPort) (ety : Nat) : Bool :=
  ety != 0 && (List.range 4).any fun i => bits p.etypes.toNat (16 * i) 16 == ety

/-- A frame of a line port that has no SecTAG, as an item that passes without an operation. -/
def plainItem (recv : Bool) (lp : Nat) (body : List Byte) : Item :=
  { newItem recv lp body [] [] 0 (body.length + 4) 0 with stage := .plain }

/-- FCS bytes of a frame, inverted where it must not be accepted. -/
def fcsBytes (body : List Byte) (ok : Bool) : List Byte :=
  let c := Crypto.crc32 body
  le 4 (if ok then c else ~~~c).toNat

/-! ### SECTOR_DEQUEUE (R366, R128, R135, R388, R528) -/

/-- The transmit time-stamp entry of a frame that crosses its time-stamp point (R390). -/
def State.sentStamp (s : State) (side lp : Nat) (id : Option Nat) (ok : Bool) : State :=
  match id with
  | some id =>
    let x := 16 * side + lp / 4
    s.txtsPush x (txtsEntry id 0 (lp % 4) (if ok then 0 else 1) (s.txStamp x (s.stampClass (64 * side + lp))))
  | none => s

/-- The client edge sends a frame; one read with an uncorrectable error leaves with the data as read and an inverted FCS (R139, R349,
R528). -/
def State.clientSend (s : State) (lp : Nat) (e : QEntry) (f : TFrame) (ecc : Ecc) : State :=
  let owner := 144 + lp / 4
  let (data, s) := (s.holdFrame e.frame none (some owner)).readFrame e.frame ecc f.bytes
  let short := f.bytes.length < 60
  let body := if short then slice data 0 60 else data
  let s := if short then s.count (cid 0x01 1 lp) else s
  let keep := f.keep.getLsbD (lp / 4)
  let foreign := short || 128 ≤ f.charge
  let s := if keep && !foreign && f.fcs.isNone then s.count (cid 0x01 2 lp) else s
  let ok := ecc != .uncorrectable && !f.cut
  let fcs := match f.fcs with
    | some c => if keep && !foreign && ok then le 4 c.toNat else fcsBytes body ok
    | none => fcsBytes body ok
  ((s.sentStamp 0 lp e.tsId ok).emit (.clientFrame lp (body ++ fcs))).freeFrame (some owner) e.frame

/-- The item of a transmit frame (R126, R135, R219), or why Prism n drops it. -/
inductive TxTake where
  | item (i : Item)
  | refused
  | noChannel

/-- What Prism n makes of a frame from Sector. -/
def State.txTake (s : State) (lp q : Nat) (e : QEntry) (f : TFrame) : TxTake :=
  let p := s.lport (64 + lp)
  let off := clearTags f.bytes (bits p.macsec.toNat 24 2) 12
  let fill := fun (i : Item) => { i with frame := some f.id, queue := q, tsId := e.tsId, stamp := f.stamp, fcs := f.fcs, crc := Crypto.crc32 f.bytes }
  if e.unctl then
    if p.uncontrolled (beAt f.bytes off 2) then .item (fill (plainItem false lp f.bytes)) else .refused
  else match e.sc with
    | none => .noChannel
    | some h =>
      let tag := if bitOf p.macsec.toNat 20 then 16 else 8
      .item (fill (newItem false lp (f.bytes.take off ++ List.replicate tag 0) (f.bytes.drop off) (List.replicate 16 0) off f.len h))

/-- A frame at the head of a Sector queue finds no IDLE thread: it counts once (R218). -/
def State.txStall (s : State) (lp frame : Nat) : State :=
  let n := lp / 4
  let u := s.unit n
  if u.stalled.contains frame then s
  else (s.setUnit n { u with stalled := frame :: u.stalled }).count (cid 0x04 0 lp)

/-- Prism n takes the frame that Sector has chosen (R201, R217, R218), or Sector keeps it: while staging or the reorder buffer is full, no
thread is free, or dispatch is paused (R278). An uncorrectable error of frame memory drops the frame when none of it has left; how much has
left when the error is found is free, and a frame that has partly left ends with an inverted FCS (R349, log entry 86). -/
def State.lineTake (s : State) (lp g q : Nat) (ecc : Ecc) : State :=
  let n := lp / 4
  match (s.sq 1 q).head? with
  | none => s
  | some e => match s.frame e.frame with
    | none => s
    | some f =>
      let room := match s.txTake lp q e f with
        | .item i => (s.staging n false i.lines).isSome && s.reorderUsed n false < 256
        | _ => (s.staging n false ((f.bytes.length + 127) / 128)).isSome && s.reorderUsed n false < 256
      let free : Bool := e.unctl || e.sc.isNone || decide (s.waitingItems n < s.idleThreads n)
      if !room ∨ ((s.cluster n).pause.isSome ∧ !e.unctl) then s
      else if !free then s.txStall lp f.id
      else match s.takeHead 1 lp g q with
        | none => s
        | some (e, s) =>
          let owner := 128 + n
          let (data, s) := (s.holdFrame f.id none (some owner)).readFrame f.id ecc f.bytes
          let bad : Bool := ecc == .uncorrectable
          let (left, s) := if bad then s.draw 1 else (0, s)
          let u := s.unit n
          let s := s.setUnit n { u with stalled := u.stalled.filter (· != f.id) }
          let drop := fun (s : State) => (s.freeFrame (some owner) f.id).notSent 1 lp e.tsId
          if bad ∧ left = 0 then drop s
          else match s.txTake lp q e { f with bytes := data } with
            | .refused => drop (s.count (cid 0x03 2 lp))
            | .noChannel =>
              let (v, s) := s.draw 32
              drop ((s.count (cid 0x03 0 lp)).raiseOnce 0x173 (64 + lp) (BitVec.ofNat 8 (64 + lp) :: le 4 v))
            | .item i => match s.staging n false i.lines with
              | none => drop s
              | some l => s.addItem n { i with line := l, cut := bad }

/-- SECTOR_DEQUEUE: a port that is down dequeues nothing (R438), nor does a disabled one or one attached to a tributary (R32). -/
def execSectorDequeue (side : Side) (lp : Fin 64) (ecc : Ecc) (s : State) : Out :=
  let sd := match side with
    | .client => 0
    | .line => 1
  if !s.receives (64 * sd + lp.val) ∨ (sd = 0 ∧ s.attached lp.val) then .next s
  else match s.pickFrame sd lp.val with
    | none => .next s
    | some (g, q) => match side with
      | .line => .next (s.lineTake lp.val g q ecc)
      | .client => match s.takeHead 0 lp.val g q with
        | none => .next s
        | some (e, s) => match s.frame e.frame with
          | none => .next s
          | some f => .next (s.clientSend lp.val e f ecc)

/-! ### LINE_FRAME_RECEIVE (R129 to R132, R136, R139, R201) -/

/-- The Prism that receives for a line logical port: the odd one of an 800G pair (R22). -/
def State.rxPrism (s : State) (lp : Nat) : Nat := lp / 4 + if (s.lport (64 + lp)).mode = some 6 then 1 else 0

/-- The receive associations of a line logical port. -/
def State.rxSas (s : State) (lp : Nat) : List (Nat × Assoc) :=
  s.assoc.ctx.filter fun e => e.2.recv && !e.2.facet && e.2.lp == 64 + lp && e.2.status != .free

/-- Its receive SCIs, each once. -/
def State.rxScis (s : State) (lp : Nat) : List (BitVec 64) := ((s.rxSas lp).map (·.2.sci)).eraseDups

/-- A dropped frame counted in port counter i of a line logical port, with an event at most once a second (R138, R140). -/
def State.rxDrop (s : State) (lp i : Nat) (ev : Option (Nat × List Byte)) : State :=
  let s := s.count (cid 0x03 i lp)
  match ev with
  | some (ev, data) => s.raiseOnce ev (64 + lp) (BitVec.ofNat 8 (64 + lp) :: data)
  | none => s

/-- A tagged frame with a valid association: first replay check, then its item (Table 5.7, R119, R132, R137). -/
def State.rxSecured (s : State) (lp h : Nat) (a : Assoc) (wire : Nat) (bad : State → State) (keep : State → State) : State :=
  let pn := a.recoverPn wire
  if pn = 0 then bad s
  else if a.status = .keyLost then (s.stat h 2 1).rxDrop lp 7 none
  else if a.status = .retiring then s.stat h 5 1
  else if bitOf (s.lport (64 + lp)).macsec.toNat 19 ∧ pn < a.nextN then (s.stat h 3 1).rxDrop lp 8 none
  else keep s

/-- A frame of a line logical port is dropped whole for want of receive staging or of a reorder slot (R201). -/
def State.overflow (s : State) (n lp : Nat) : State :=
  ((s.count (cid 0x04 3 lp)).orReg (0x0200000C + 0x100000 * n) 4).raise 0x141 [BitVec.ofNat 8 n, BitVec.ofNat 8 (64 + lp)]

/-- The Prism takes a received frame into staging, or drops it whole (R201). -/
def State.rxTake (s : State) (n lp : Nat) (i : Item) (go : Item → State → State) : State :=
  match s.staging n true i.lines with
  | some l =>
    if s.reorderUsed n true < 256 then go { i with line := l, keep := s.fcsMode } s
    else s.overflow n lp
  | none => s.overflow n lp

/-- SECTAG_CHECK (R129, R130, Table 5.7): the SecTAG stands at offset off. -/
def State.secTag (s : State) (n lp off : Nat) (body : List Byte) (stamp : Nat) : State :=
  let tci := leAt body (off + 2) 1
  let sl := leAt body (off + 3) 1
  let wire := beAt body (off + 4) 4
  let sc := bitOf tci 5
  let es := bitOf tci 6
  let tag := if sc then 16 else 8
  let rest := body.drop (off + tag)
  let data := rest.length - 16
  let bad := fun (s : State) => s.rxDrop lp 3 (some (0x174, [BitVec.ofNat 8 tci]))
  if bitOf tci 7 ∨ (es ∧ sc) ∨ bitOf tci 4 ∨ bitOf tci 3 ≠ bitOf tci 2 ∨ 64 ≤ sl ∨ (sl ≠ 0 ∧ sl ≠ data) ∨ (sl = 0 ∧ data < 48) ∨
      rest.length < 18 then bad s
  else
    let scis := s.rxScis lp
    let sci : Option (BitVec 64) :=
      if sc then some (BitVec.ofNat 64 (beAt body (off + 8) 8))
      else if es then some (BitVec.ofNat 64 (65536 * beAt body 6 6 + 1))
      else match scis with
        | [x] => some x
        | _ => none
    match sci with
    | none => s.rxDrop lp 4 none
    | some x =>
      if !scis.contains x then s.rxDrop lp 5 (some (0x170, le 8 x.toNat))
      else match (s.rxSas lp).find? fun e => e.2.sci == x && e.2.an.toNat == tci % 4 &&
          (e.2.status == .active || e.2.status == .retiring || e.2.status == .keyLost) with
        | none => s.rxDrop lp 6 none
        | some (h, a) => s.rxSecured lp h a wire bad fun s =>
          let i := newItem true lp (body.take (off + tag)) (rest.take data) (rest.drop data) off (body.length + 4) h
          s.addItem n { i with stamp := stamp, enc := bitOf tci 3 }

/-- A received frame in Prism n: tagged, or for the uncontrolled port (R129, R136). -/
def State.lineArrive (s : State) (n lp : Nat) (body : List Byte) (stamp : Nat) : State :=
  let p := s.lport (64 + lp)
  let off := clearTags body (bits p.macsec.toNat 24 2) 12
  let ety := beAt body off 2
  let plain := fun (k : Nat) (s : State) => s.rxTake n lp (plainItem true lp body) fun i s => (s.addItem n { i with stamp := stamp }).count (cid 0x03 k lp)
  if ety = 0x88E5 then
    let tag := if bitOf (leAt body (off + 2) 1) 5 then 16 else 8
    let rest := body.drop (off + tag)
    s.rxTake n lp (newItem true lp (body.take (off + tag)) (rest.take (rest.length - 16)) (List.replicate 16 0) off 0 0) fun i s =>
      let s' := s.secTag n lp off body stamp
      s'.setUnit n { s'.unit n with items := (s'.unit n).items.map fun j => if j.seq = s.prism.nextSeq then { j with line := i.line, keep := i.keep } else j }
  else if p.uncontrolled ety then plain 9 s
  else if bitOf p.macsec.toNat 18 then plain 11 s
  else s.rxTake n lp (plainItem true lp body) fun _ s => s.rxDrop lp 10 (some (0x172, le 2 ety))

/-- LINE_FRAME_RECEIVE: the line edge checks FCS and length, the Prism its SecTAG (R18, R139, Table 22.5). -/
def execLineFrameReceive (lp : Fin 64) (frame : List Byte) (s : State) : Out :=
  let x := lp.val
  if !s.receives (64 + x) ∨ (s.lport (64 + x)).mode = some 7 then .next s
  else if frame.length < 4 ∨ !fcsOk frame then .next (s.count (cid 0x02 0 x))
  else if 9248 < frame.length then .next (s.count (cid 0x02 1 x))
  else .next (s.lineArrive (s.rxPrism x) x (frame.take (frame.length - 4)) (s.rxStamp (16 + x / 4) (s.stampClass (64 + x))))

/-! ### PRISM_DISPATCH (R217 to R220, R74, R206) -/

/-- fctx of an item (Table 9.3). -/
def Item.fctx (i : Item) : BitVec 64 :=
  BitVec.ofNat 64 (2 ^ 62 * i.kind + 2 ^ 61 * b2n i.recv + 2 ^ 59 * (i.lp % 64 % 4) + 2 ^ 55 * (i.lp % 64 / 4) + 2 ^ 40 * (i.len % 2 ^ 15) +
    2 ^ 23 * (i.handle % 2 ^ 17) + i.line % 2 ^ 12 * 2 ^ 8 + i.offset % 2 ^ 8)

/-- IDLE threads of an engine, ascending. -/
def State.idleOf (s : State) (c e : Nat) : List Nat := (List.range 8).filter fun t => (s.thread c (8 * e + t)).mode == .idle

/-- The thread that dispatch takes (R217): the lowest IDLE thread of the engine with the most, ties to the lowest engine. -/
def State.freeThread (s : State) (c : Nat) : Option Nat :=
  let best := (List.range (threadCount c / 8)).foldl (fun (m : Nat × Nat) e =>
    if m.2 < (s.idleOf c e).length then (e, (s.idleOf c e).length) else m) (0, 0)
  (s.idleOf c best.1).head?.map (8 * best.1 + ·)

/-- A parity error in the staging of an item, on some line of its allocation (R200). -/
def State.itemParity (s : State) (n : Nat) (i : Item) : State :=
  let (r, s) := s.draw 12
  s.parityError n i (i.line + r % max 1 i.lines)

/-- A thread starts on a work item (R212, R219). -/
def State.startThread (s : State) (c k : Nat) (item : Nat) (fctx : BitVec 64) (pc : Nat) (high : Bool) (op : Option SaOp) : State :=
  s.setThread c k { Thread.reset with mode := .ready, fctx := fctx, pc := pc, high := high, item := some item, since := s.clk, op := op
                                      pnAsked := op.isSome }

/-- A chunk of CRYPTO_BLOCK starts on a thread: it captures the generation of its slot afresh (R74, R206). -/
def State.startChunk (s : State) (n k : Nat) (i : Item) (pc : Nat) (high shipped : Bool) : State :=
  match (s.unit n).crypto.find? fun r => r.chunk == some i.seq with
  | none => s.chunkLost n i
  | some r =>
    let lost := fun (st : Status) => (s.setUnit n { s.unit n with items := (s.unit n).items.filter (·.seq != i.seq) }).cryptoEnd n r st
    match s.chunkStatus (slotKey 0 i.handle) r, s.capture i.handle 0 with
    | some st, _ => lost st
    | none, none => lost .keyChanged
    | none, some q =>
      let lines := (i.bytes.length + 127) / 128
      match s.staging n i.recv lines with
      | none => s
      | some l =>
        let u := s.unit n
        let s := s.setUnit n { u with crypto := u.crypto.map fun x => if x.desc = r.desc then { x with gen := some q.2.1 } else x }
        let s := (s.opStart q.1).modItem n i.seq fun i => { i with stage := .running k, line := l, lines := lines }
        if shipped then s.shipChunk n i q
        else s.startThread n k i.seq ({ i with line := l, lp := 4 * n } : Item).fctx pc high
          (some { handle := i.handle, key := some q, phase := false, since := s.clk, locked := false })

/-- A waiting item that dispatch can take: a frame has its staging since it arrived, a chunk takes it now (R200, R217). -/
def State.mayDispatch (s : State) (n : Nat) (i : Item) : Bool :=
  i.stage == .waiting && (i.kind != 3 || (s.staging n i.recv ((i.bytes.length + 127) / 128)).isSome)

/-- Dispatch of a waiting item of Prism n (R217 to R219). With `shipped`, a program of the shipped image runs to its disposition in this
step, and its thread is IDLE again (R269, log entry 143). -/
def State.dispatchItem (s : State) (n : Nat) (i : Item) (perr shipped : Bool) : State :=
  let x := s.cluster n
  let high := x.active.getD false
  let entry := match x.active with
    | some h => (((x.half h).map (·.entries)).getD []).getD (2 * i.kind + b2n i.recv) 0xFFFFFFFF
    | none => 0xFFFFFFFF
  let whole := shipped && s.runsShipped n
  if x.pause.isSome then s
  else if entry = 0xFFFFFFFF then (if i.kind = 3 then s.chunkLost n i else (s.count (cid 0x04 1 i.lp)).dropSlot n i.seq)
  else match s.freeThread n with
    | none => if i.stalled ∨ i.kind = 3 then s
              else (s.modItem n i.seq fun i => { i with stalled := true }).count (cid 0x04 0 i.lp)
    | some k =>
      if i.kind = 3 then s.startChunk n k i entry high whole
      else if perr then (s.itemParity n i).dropSlot n i.seq
      else if whole then s.shipFrame n i
      else (s.modItem n i.seq fun i => { i with stage := .running k }).startThread n k i.seq i.fctx entry high none

/-- Dispatch of the oldest waiting item of Prism n (R217). -/
def State.dispatch (s : State) (n : Nat) (perr shipped : Bool) : State :=
  match (s.unit n).items.find? (s.mayDispatch n) with
  | none => s
  | some i => s.dispatchItem n i perr shipped

/-- PRISM_DISPATCH (R217). -/
def execPrismDispatch (prism : Fin 16) (found : DispatchFinds) (s : State) : Out := .next (s.dispatch prism.val found.perr found.shipped)

/-! ### REORDER_RELEASE (R21, R132, R137, R528) -/

/-- The association whose counters an item feeds. -/
def Item.assoc (i : Item) : Nat := i.sa.getD i.handle

/-- A transmit item leaves Prism n on the line (R126, R135, R137, R528, R390). A client frame without a SecTAG or without a counter value of
its own does not leave (R102, R128); it counts in "aborted frames" (log entry 165). -/
def State.txRelease (s : State) (n : Nat) (i : Item) (e : Option Emitted) (perr : Bool) : State :=
  let (cut, s) := if perr then s.draw 1 else (0, s)
  let s := if perr then s.itemParity n i else s
  let ok := !perr && !i.cut
  let gone := fun (s : State) => s.setUnit n { s.unit n with items := (s.unit n).items.filter (·.seq != i.seq) }
  if perr ∧ cut = 0 ∧ !i.cut then gone (s.dropSlot n i.seq)
  else if e.isSome ∧ (i.taken.isNone ∨ beAt i.bytes i.offset 2 ≠ 0x88E5) then gone ((s.count (cid 0x04 1 i.lp)).dropSlot n i.seq)
  else if e.isSome ∧ !i.cut ∧ (match i.fcs with | some c => c != i.crc | none => false) = true then
    let s := (s.count (cid 0x04 7 i.lp)).raiseOnce 0x145 i.lp (BitVec.ofNat 8 i.lp :: le 4 i.assoc)
    gone (s.dropSlot n i.seq)
  else
    let body := match e with
      | some e => i.packed.take (e.len - 4)
      | none => slice i.bytes 0 i.head
    let s := s.sentStamp 1 i.lp i.tsId ok
    let s := s.emit (.lineFrame i.lp (body ++ fcsBytes body ok))
    let s := match i.frame with
      | some f => s.freeFrame (some (128 + n)) f
      | none => s
    let s := match e with
      | some e => if e.enc then (s.stat i.assoc 1 1).stat i.assoc 3 e.octets else (s.stat i.assoc 0 1).stat i.assoc 2 e.octets
      | none => s.count (cid 0x03 1 i.lp)
    gone (s.saLeave i.sa)

/-- RELEASE_REPLAY_CHECK: a verified frame is late, or it is delivered and NEXT follows (R132, R137, R117). -/
def State.releaseCheck (s : State) (i : Item) (e : Emitted) : Bool × State :=
  let h := i.assoc
  let a := s.sa h
  let below := e.pn < a.nextN
  if below ∧ bitOf (s.lport (64 + i.lp)).macsec.toNat 19 then (false, (s.stat h 3 1).rxDrop i.lp 8 none)
  else
    let s := (s.stat h (if below then 4 else 0) 1).stat h (if e.enc then 7 else 6) e.octets
    let a := s.sa h
    let s := s.setSa h (a.setNext (max (max a.nextN (e.pn + 1 - a.window.toNat)) 1))
    (true, s.rxVerified h)

/-- A receive item leaves Prism n for Locus (R19, R132, R136, R528): only a frame whose tag its thread found equal does (R204); another
counts as one that failed its tag (R134). A parity error drops the frame, or ends it with an inverted FCS where some of it has left (R200). -/
def State.rxRelease (s : State) (n : Nat) (i : Item) (e : Option Emitted) (perr parser : Bool) (em : List (Fin 4)) : State :=
  let gone := fun (s : State) => s.setUnit n { s.unit n with items := (s.unit n).items.filter (·.seq != i.seq) }
  let (cut, s) := if perr then s.draw 1 else (0, s)
  let s := if perr then s.itemParity n i else s
  if perr ∧ cut = 0 then gone (s.dropSlot n i.seq)
  else match e with
    | none =>
      let f := TFrame.arrived (64 + i.lp) (slice i.bytes 0 i.head) none i.keep i.stamp true none
      (gone s).classify { frame := { f with cut := perr }, perr := parser, em := em }
    | some e =>
      if !i.verified then gone (s.dropFor n i.assoc (tagReason (s.lport (64 + i.lp)).macsec.toNat i.enc) i)
      else
        let (ok, s) := s.releaseCheck i e
        let s := gone (s.saLeave i.sa)
        if !ok then s
        else
          let body := i.plaintext.take (e.len - 4)
          let f := TFrame.arrived (64 + i.lp) body (some (Crypto.crc32 body)) i.keep i.stamp false (some i.assoc)
          s.classify { frame := { f with cut := perr }, perr := parser, em := em }

/-- The oldest Facet frame of a direction in Prism n leaves once it has its disposition (R21): onto the line, or into the receiver's stream
with its class (R173). A received frame that was dropped without a reason of R165 counts as FAILED (log entry 165). -/
def State.facetRelease (s : State) (n : Nat) (recv perr : Bool) : State :=
  match (s.unit n).items.find? fun i => i.kind == 1 && i.recv == recv with
  | none => s
  | some i =>
    let gone := fun (s : State) => s.setUnit n { s.unit n with items := (s.unit n).items.filter (·.seq != i.seq) }
    let lost := fun (s : State) => (s.itemParity n i).dropSlot n i.seq
    let finish := fun (c : Option FacetFrameClass) (frame : List Byte) (s : State) => (gone s).facetFinish n i.assoc c i.ohead frame
    match i.stage with
    | .dropped => if recv then finish (some (i.cls.getD .failed)) [] s else gone s
    | .plain =>
      if perr then (if recv then finish (some .failed) [] (lost s) else gone (lost s))
      else if recv then finish i.cls i.bytes s
      else gone (s.sendUnkeyed n none 5 i.bytes)
    | .emitted e =>
      if perr then (if recv then finish (some .failed) [] (lost s) else gone (lost s))
      else if recv then
        if !i.verified then finish (some .failed) [] ((s.countDrop n i.assoc 2 i).dropSlot n i.seq)
        else
          let (ok, s) := (s.saLeave i.sa).facetVerified i.assoc e.pn e.octets (bitOf (beAt i.ohead 14 1) 7)
          finish (some (if ok then .verified else .failed)) i.bytes s
      else if 0 < e.cause then
        gone ((s.saLeave i.sa).sendUnkeyed n (some i.assoc) (4 + min 3 e.cause) (facetClear ((i.bytes.drop 14).headD 0) i.bytes))
      else match i.taken with
        | some v => gone ((s.saLeave i.sa).sendKeyed n i.assoc v e.octets i.bytes)
        | none => gone ((s.count (cid 0x04 1 i.lp)).dropSlot n i.seq)
    | _ => s

/-- REORDER_RELEASE: dropped slots at the head of a logical port's order go, and the next disposed frame leaves (R21). -/
def execReorderRelease (lp : Fin 64) (dir : Dir) (perr parser : Bool) (em : List (Fin 4)) (s : State) : Out :=
  let recv := dir == .receive
  let n := if recv then s.rxPrism lp.val else lp.val / 4
  let mine := fun (i : Item) => i.kind != 3 && i.recv == recv && i.lp == lp.val
  let u := s.unit n
  let ds := ((u.items.filter mine).takeWhile fun i => i.stage == .dropped && i.kind == 0).map (·.seq)
  let s := s.setUnit n { u with items := u.items.filter fun i => !ds.contains i.seq }
  match (s.unit n).items.find? mine with
  | none => .next s
  | some i => if i.kind = 1 then .next (s.facetRelease n recv perr) else match i.stage with
    | .emitted e => .next (if recv then s.rxRelease n i (some e) perr parser em else s.txRelease n i (some e) perr)
    | .plain => .next (if recv then s.rxRelease n i none perr parser em else s.txRelease n i none perr)
    | _ => .next s

/-! ### Parked frames (R118, R266, Table 4.7) -/

/-- The Prism of the oldest parked frame of a Sector queue that p picks. -/
def State.parkedOf (s : State) (q : Nat) (p : Parked → Bool) : Option (Nat × Parked) :=
  firstSome (s.prism.units.map fun (e : Nat × PrismUnit) =>
    (e.2.parked.find? fun x => x.item.queue == q && p x).map fun x => (e.1, x))

/-- HOLD_LIMIT_EXPIRY: HOLD_MS has passed for a parked frame; its association's frames drop until the case clears (R266). -/
def execHoldLimitExpiry (queue : BitVec 12) (s : State) : Out :=
  match s.parkedOf queue.toNat fun p => !p.twin with
  | none => .next s
  | some (n, p) =>
    let s := s.passTo p.due
    let u := s.unit n
    let h := p.item.handle
    let s := s.setUnit n { u with expired := h :: u.expired.filter (· != h) }
    .next (s.dropParked n 5 p)

/-- The case that parked a frame has cleared (Table 4.7, R110). -/
def State.cleared (s : State) (p : Parked) : Bool :=
  let h := (s.resolve true p.item.handle).getD p.item.handle
  let a := s.sa h
  if p.twin then
    s.twin.lease != .handover && !(match s.twinCeiling a with
      | some c => decide (c ≤ a.nextN)
      | none => false)
  else a.status == .active && a.current && s.usable (slotKey 0 a.dkA.toNat) && (a.ceiling == 0 || decide (a.nextN < a.ceiling.toNat))

/-- PARKED_FRAME_REDISPATCH: the frame takes a new reorder slot as a newly arrived frame (R266). -/
def execParkedFrameRedispatch (queue : BitVec 12) (s : State) : Out :=
  match s.parkedOf queue.toNat s.cleared with
  | none => .next s
  | some (n, p) =>
    if 256 ≤ s.reorderUsed n false then .next s
    else
      let u := s.unit n
      let s := s.setUnit n { u with parked := u.parked.filter fun x => x.item.seq != p.item.seq }
      .next ((s.addItem n { p.item with stalled := false }).restop)

/-! ### CRYPTO_BLOCK (R74, R206, R505) -/

/-- The body of CRYPTO_BLOCK: no field carries a key length, so of the mismatches of R505 only DEC can occur, and a slot without a usable
key completes with SLOT_EMPTY (log entry 66). -/
def cryptoBody (d : Desc) (s : State) : State :=
  let op := d.get 0xC 1
  let count := d.get 0x20 4
  let key := slotField d 8
  let n := keyIndex key / 8192
  let x := s.slot key
  if !slotFieldOk d 8 ∨ 2 < op ∨ count = 0 ∨ 65536 < count ∨ (op ≠ 2 ∧ d.get 0x30 16 ≠ 0) then s.done d .badRequest
  else if d.slotClass 8 ≠ 0 then s.done d .wrongClass
  else if !x.shown.use.getLsbD 0 ∨ (op = 1 ∧ !x.shown.use.getLsbD 3) then s.done d .badUsage
  else if !bitOf (s.regN (0x02000000 + 0x100000 * n)) 1 then s.done d .disabled
  else if !s.usable key then s.done d .slotEmpty
  else s.withBuf d .annulus (d.get 0x10 8) (16 * count) fun bs s =>
    let r : CryptoRun := { desc := d, done := 0, gen := none, input := bs, out := [], chunk := none }
    let u := s.unit n
    (s.setUnit n { u with crypto := u.crypto ++ [r] }).nextChunk n r

/-- CRYPTO_BLOCK (R206, R505). -/
def execCryptoBlock (d : Desc) (s : State) : Out :=
  .next (ringCommand d 0 [(8, 4), (0xC, 1), (0x10, 8), (0x18, 8), (0x20, 4), (0x30, 16)] (cryptoBody d) s)

end Sys2Proof.Machine
end

