-- ==== Sys2Proof/Machine/Facet.lean ====
section
/-! DEFINITION. The Facet rows: frames, markers, alignment, LOS (chapters 6 and 7). -/

namespace Sys2Proof.Machine

/-- The work item of a Facet frame of port Ln (R217, R219): it fills 128 lines of staging. -/
def facetItem (n : Nat) (recv : Bool) (bytes : List Byte) (h line : Nat) : Item :=
  { newItem recv (4 * n) [] [] [] 0 16384 h with
    kind := 1, bytes := slice bytes 0 16384, line := line, lines := 128, ohead := bytes.take 64 }

/-- Room in Prism n for a Facet frame: its first staging line (R200, R201). -/
def State.facetRoom (s : State) (n : Nat) (recv : Bool) : Option Nat := if s.reorderUsed n recv < 256 then s.staging n recv 128 else none

/-- The oldest Facet frame of a direction goes as far as it can at once: the shipped program runs it, twice where a key phase switches
under it (R257), and it leaves. Under another image it waits for PRISM_DISPATCH and its thread. Wrong parity in its staging drops it (R200). -/
def State.facetRun (s : State) (n : Nat) (recv perr : Bool) : State :=
  let go := fun (s : State) => match (s.unit n).items.find? fun i => i.kind == 1 && i.recv == recv with
    | some i => if i.stage = .waiting ∧ s.runsShipped n then s.dispatchItem n i perr true else s
    | none => s
  (go (go s)).facetRelease n recv perr

/-- A frame period of a transport-path port on the transmit side: an AIS-S frame, or a frame built from the tributaries that Prism n
encrypts (R149, R162 to R166, R176, R193). A port without a transmit association sends it unkeyed (R150). -/
def State.facetTransmit (s : State) (n : Nat) (client : List ClientBlocks) (perr : Bool) : State :=
  if bitOf (s.regN (facetOff n 0x40C)) 2 then s.sendAis n
  else match s.facetRoom n false with
    | none => s
    | some line =>
      let (frame, s) := s.facetBuild n client
      match s.facetAssoc n false with
      | some h => (s.addItem n (facetItem n false frame h line)).facetRun n false perr
      | none =>
        let (ph, s) := s.draw 1
        let i := facetItem n false (facetClear (BitVec.ofNat 8 (128 * ph + 64)) frame) 0 line
        (s.addItem n { i with stage := .plain }).facetRun n false perr

/-- A port on the transport path takes frames until PORT_DISABLE (R207). -/
def State.facetOpen (s : State) (n : Nat) : Bool := (s.facetPort n).active && (s.lport (64 + 4 * n)).enabled

/-- FACET_FRAME_TRANSMIT: an enabled transport-path port sends one frame (R162). -/
def execFacetFrameTransmit (n : Fin 16) (send : FacetSend) (s : State) : Out :=
  .next (if s.facetOpen n then s.facetTransmit n send.client send.perr else s)

/-- A frame at the boundary found (R172, R173, R184): parity, AIS-S and the class that is known at once, then its place in Prism n. A frame
that finds no room is dropped whole (R201) and counts as FAILED (log entry 165). -/
def State.facetReceive (s : State) (n : Nat) (frame : List Byte) (perr : Bool) : State :=
  match s.alignCheck n frame with
  | (false, s) => s
  | (true, s) =>
    let s := s.sectionBip n frame
    let ais := (slice frame 8 8).all (· == 0xFF)
    let s := s.aisS n ais
    let s := if !ais ∧ beAt frame 14 1 / 16 % 8 < 4 then s.facetStamp n 2 (beAt frame 8 6) else s
    match s.facetRoom n true with
    | none => (s.overflow n (4 * n)).facetFinish n 0 (some .failed) (frame.take 64) []
    | some line =>
      if ais then (s.addItem n { facetItem n true frame 0 line with stage := .plain }).facetRun n true perr
      else match s.facetAtOnce n frame with
        | (.inl c, s) => (s.addItem n { facetItem n true frame 0 line with stage := .plain, cls := some c }).facetRun n true perr
        | (.inr h, s) => (s.addItem n (facetItem n true frame h line)).facetRun n true perr

/-- FACET_FRAME_RECEIVE: in marker LOCK the codewords that end with it count, and in IN_FRAME the frame is taken (R172, R173, R189). -/
def execFacetFrameReceive (n : Fin 16) (errors : List (Fin 545)) (frame : List Byte) (perr : Bool) (s : State) : Out :=
  let p := s.facetPort n
  if s.facetOpen n ∧ p.marker = .lock then
    let s := s.modFacet n fun p => p.fecCount (errors.map (·.val))
    .next (if p.frame = .inFrame then s.facetReceive n frame perr else s)
  else .next s

/-- The logical lane that a line lane's two first symbols name, if they are a marker (R170). -/
def markerIdent (m : MarkerSeen) : Option Nat := (List.range 4).find? fun l => m.first == markerPattern l && m.second == markerPattern l

/-- The markers among what the lanes show, by the logical lane they name. -/
def markersOf (ls : List MarkerSeen) : List (Nat × MarkerSeen) := ls.filterMap fun m => (markerIdent m).map fun l => (l, m)

/-- Markers on all four lanes with four distinct identities. -/
def allMarkers (ls : List MarkerSeen) : Bool :=
  ls.length == 4 && (List.range 4).all fun l => (markersOf ls).any (·.1 == l)

/-- Skew in ns over the markers seen (R170). -/
def markerSkew (ls : List MarkerSeen) : Nat :=
  let ts := (markersOf ls).map (·.2.arrival)
  ts.foldl max 0 - ts.foldl min (ts.headD 0)

/-- Marker lock goes back to SEARCH from LOCK: LOFEC with its cause (Table 7.1, Table 22.21). -/
def State.markerLoss (s : State) (n cause : Nat) : State :=
  (s.modFacet n fun p => { p with marker := .search }).declare n 2 [BitVec.ofNat 8 cause]

/-- A marker codeword on a port whose marker detector runs (Table 7.1). -/
def State.markerReceive (s : State) (n pos : Nat) (ls : List MarkerSeen) : State :=
  let p := s.facetPort n
  let ms := markersOf ls
  let counts := fun (p : FacetPort) => ms.foldl (fun c (m : Nat × MarkerSeen) => tput 0#20 c m.1 (m.2.count + 1)) p.laneCount
  match p.marker with
  | .search =>
    if allMarkers ls then s.setFacet n { p with marker := .confirm, markerPos := pos, laneCount := counts p, laneMiss := [] } else s
  | .confirm =>
    let same : Bool := match ls with
      | m :: rest => rest.all (·.count == m.count)
      | [] => false
    if pos = p.markerPos + 4096 ∧ allMarkers ls ∧ same ∧ ms.all (fun m => m.2.count == tget 0 p.laneCount m.1) ∧
        markerSkew ls ≤ 180 then
      (s.setFacet n { p with marker := .lock, markerPos := pos, laneCount := counts p, laneMiss := [],
                             skew := min 255 (markerSkew ls) }).clearSection n 2 [0]
    else s.setFacet n { p with marker := .search }
  | .lock =>
    if pos ≤ p.markerPos ∨ (pos - p.markerPos) % 4096 ≠ 0 then s
    else
      if !ms.all (fun m => m.2.count == tget 0 p.laneCount m.1) then s.markerLoss n 2
      else
        let p := { p with
          markerPos := pos, laneCount := counts p
          laneMiss := ms.foldl (fun x (m : Nat × MarkerSeen) => tput 0 x m.1 0) p.laneMiss
          skew := if ms.isEmpty then p.skew else min 255 (markerSkew ls) }
        let s := s.setFacet n p
        if 180 < markerSkew ls then s.markerLoss n 3 else s

/-- MARKER_CODEWORD_RECEIVE (R170). -/
def execMarkerCodewordReceive (n : Fin 16) (pos : Nat) (lanes : List MarkerSeen) (s : State) : Out :=
  let p := s.facetPort n
  .next (if p.active ∧ !p.has 0 ∧ !p.has 1 then s.markerReceive n pos lanes else s)

/-- EXPECTED_MARKER_MISSED: four in a row on a lane end the lock; one ends a confirmation (Table 7.1). -/
def execExpectedMarkerMissed (n : Fin 16) (lane : Fin 4) (s : State) : Out :=
  let p := s.facetPort n
  .next <|
    match p.active, p.marker with
    | true, .lock =>
      let m := tget 0 p.laneMiss lane.val + 1
      let s := s.setFacet n { p with
        laneMiss := tput 0 p.laneMiss lane.val m
        laneCount := tmod 0 p.laneCount lane.val (· + 1) }
      if 4 ≤ m then s.markerLoss n 1 else s
    | true, .confirm => s.setFacet n { p with marker := .search }
    | _, _ => s

/-- An alignment search step at a bit position: whether the word matches there, and the byte that follows it (R171). -/
def State.alignSearch (s : State) (n pos : Nat) (matched : Bool) (mfc : Byte) : State :=
  let p := s.facetPort n
  let count := fun (cs : List Candidate) (s : State) =>
    s.modFacet n fun p => { p with cands := cs, frame := if cs.isEmpty then .out else .confirm }
  match p.cands.find? (·.next == pos) with
  | some c =>
    let rest := p.cands.filter (·.next != pos)
    if matched ∧ mfc = c.mfc + 1 then
      if c.hits = 1 then
        (s.modFacet n fun p => { p with cands := [], frame := .inFrame, errRun := 0, rxBip := none }).clearSection n 3 []
      else s.modFacet n fun p => { p with cands := p.cands.map fun x =>
        if x.next == pos then { next := pos + 131072, hits := x.hits + 1, mfc := mfc } else x }
    else if matched then count (rest ++ [{ next := pos + 131072, hits := 0, mfc := mfc }]) s
    else count rest s
  | none =>
    if !matched then s
    else if p.cands.length < 8 then count (p.cands ++ [{ next := pos + 131072, hits := 0, mfc := mfc }]) s
    else s.raiseOnce 0x2AF 0 [BitVec.ofNat 8 n]

/-- ALIGNMENT_CANDIDATE_MATCH: in OUT or CONFIRM, a candidate opens, is confirmed or closes (R171). -/
def execAlignmentCandidateMatch (n : Fin 16) (pos : Nat) (matched : Bool) (mfc : Byte) (s : State) : Out :=
  let p := s.facetPort n
  .next (if p.active ∧ p.marker = .lock ∧ p.frame ≠ .inFrame then s.alignSearch n pos matched mfc else s)

/-- LOS_DECLARE: no signal on any lane for 10 us (R177). -/
def execLosDeclare (n : Fin 16) (s : State) : Out :=
  match (s.facetPort n).quietSince with
  | some t => .next (if (s.facetPort n).has 0 then s else (s.passTo (t + 10000)).declare n 0 [])
  | none => .next s

/-- LOS_CLEAR: signal on every lane for 100 us (R177). -/
def execLosClear (n : Fin 16) (s : State) : Out :=
  match (s.facetPort n).signalSince with
  | some t => .next (if (s.facetPort n).has 0 then (s.passTo (t + 100000)).clearSection n 0 [] else s)
  | none => .next s

end Sys2Proof.Machine
end

