-- ==== Sys2Proof/Machine/RadiusCmd.lean ====
section
/-! DEFINITION. The commands of Radius: SENSOR_GROUP_SET, SENSOR_WRITE and SENSOR_CHECKPOINT (R282 to R291, R307 to R309, R508 to R510). -/

namespace Sys2Proof.Machine

/-! ### SENSOR_GROUP_SET (R290, R291, R508) -/

/-- Table 12.4 values in range. -/
def groupOk (v : Nat) : Bool :=
  bits v 4 4 == 0 && bits v 8 8 == 0 && bits v 16 16 ≤ 10000 && (bits v 64 16 == 0 || 16 ≤ bits v 64 16) && bits v 88 8 == 0 &&
    bits v 240 16 == 0

/-- Route values in range (R508). -/
def routeOk (v : Nat) : Bool := bits v 0 8 < 128 && bits v 10 6 == 0 && bits v 28 4 == 0 && bits v 272 112 == 0

/-- Table 12.8 values in range. -/
def profileOk (v : Nat) : Bool :=
  let span := bits v 128 64
  let lead := bits v 192 32
  let expiry := bits v 224 32
  bits v 0 8 ≤ 1 && bits v 8 8 != 0 && bits v 16 16 == 0 && bits v 112 16 == 0 && bits v 80 32 < 1000000000 &&
    (bits v 0 8 == 1 || (1000000 ≤ span && span ≤ 10 ^ 12)) && 100 ≤ lead && lead ≤ 1000000 && 1 ≤ expiry && expiry ≤ 86400000

/-- A form of a command that shares an opcode acts on its own value of the OP or FORM byte; a value beyond the last completes with
BAD_REQUEST, whichever row offers it. -/
def formRow (d : Desc) (mine last flagMask : Nat) (fields : List (Nat × Nat)) (body : State → State) (s : State) : State :=
  let op := d.get 8 1
  if op ≠ mine ∧ op ≤ last then s
  else ringCommand d flagMask ((8, 1) :: fields) (fun s => if last < op then s.done d .badRequest else body s) s

/-- A form of SENSOR_GROUP_SET that reads a buffer of n bytes for entry i below m. -/
def setBody (d : Desc) (m n : Nat) (ok : Nat → Bool) (put : Nat → Nat → State → State) (s : State) : State :=
  let i := d.get 0xC 4
  if m ≤ i then s.done d .badRequest
  else s.withBuf d .annulus (d.get 0x10 8) n fun bs s =>
    let v := leNat bs
    if ok v then (put i v s).done d .ok else s.done d .badRequest

/-- SENSOR_GROUP_SET GROUP: parameters of a group (Table 12.4). -/
def execSensorGroupSetGroup (d : Desc) (s : State) : Out :=
  .next (formRow d 0 4 0 [(0xC, 4), (0x10, 8)] (setBody d 4096 32 groupOk fun i v s =>
    s.withRadius { s.radius with groups := tput 0 s.radius.groups i (BitVec.ofNat 256 v) }) s)

/-- SENSOR_GROUP_SET ROUTE (R508). -/
def execSensorGroupSetRoute (d : Desc) (s : State) : Out :=
  .next (formRow d 1 4 0 [(0xC, 4), (0x10, 8)] (setBody d 256 48 routeOk fun i v s =>
    s.withRadius { s.radius with routes := tput 0 s.radius.routes i (BitVec.ofNat 384 v) }) s)

/-- SENSOR_GROUP_SET PROFILE: a window profile (Table 12.8). -/
def execSensorGroupSetProfile (d : Desc) (s : State) : Out :=
  .next (formRow d 2 4 0 [(0xC, 4), (0x10, 8)] (setBody d 64 32 profileOk fun i v s =>
    s.withRadius { s.radius with profiles := tput 0 s.radius.profiles i (BitVec.ofNat 256 v) }) s)

/-- SENSOR_GROUP_SET QUEUE: downlink queue q uses a profile. -/
def execSensorGroupSetQueue (d : Desc) (s : State) : Out :=
  .next (formRow d 3 4 0 [(0xC, 4), (0x18, 4)] (fun s =>
    let q := d.get 0xC 4
    let p := d.get 0x18 4
    if 8192 ≤ q ∨ 64 ≤ p then s.done d .badRequest
    else (s.withRadius { s.radius with queues := tput 0 s.radius.queues q (BitVec.ofNat 6 p) }).done d .ok) s)

/-- Length of the area in bytes (Table 12.1). -/
def areaLen : Nat := 0x259000000

/-- The area lies in an HBM region of Hull in CONF+INT mode that grants Radius plaintext-write (R282). -/
def State.areaOk (s : State) (base : Nat) : Bool :=
  match s.regionAt base with
  | none => false
  | some k =>
    let r := s.region k
    decide (k < 16) && r.integ && r.right .radius == .plainWrite && base + areaLen ≤ r.lo + r.bytes

/-- An enable with an empty table draws a new seed and writes zero over the area (R282, R283). Write counters of the area's lines are not
advanced (log entry 82). -/
def State.clearArea (s : State) : State :=
  let (v, s) := s.drbg 128
  let lo := s.radBase
  let bad := s.hull.badLines.filter fun e => !(lo ≤ 64 * e.1 && 64 * e.1 < lo + areaLen)
  { s.withRadius { s.radius with seed := BitVec.ofNat 128 v } with
    mem := s.mem.fill { base := lo, len := areaLen, pat := some 0, epoch := 0 }
    hull := { s.hull with badLines := bad } } |>.losePending lo areaLen

/-- SERVICE with ENABLE = 1: an area that R282 does not allow is refused; while Radius runs nothing changes (log entry 83). -/
def serviceEnableBody (d : Desc) (s : State) : State :=
  let base := s.regN 0x03001000 % 1024
  match s.radius.mode with
  | .draining => s.done d .inUse
  | .running => (s.raise 0x1CC []).done d .ok
  | .idle =>
    if !s.areaOk (2 ^ 30 * base) then s.done d .badRequest
    else
      let s := s.withRadius { s.radius with base := base }
      let s := if s.radius.sensors = 0 ∧ s.radius.gateways = 0 then s.clearArea else s
      ((s.withRadius { s.radius with mode := .running }).raise 0x1CC []).done d .ok

/-- SERVICE_ENABLE (R282, R283, R290). -/
def execServiceEnable (d : Desc) (s : State) : Out :=
  if d.get 8 1 = 4 ∧ !bitOf d.flags 0 then .next s else .next (formRow d 4 4 1 [] (serviceEnableBody d) s)

/-- SERVICE_DISABLE: Radius takes no further batch and drains (R291). -/
def execServiceDisable (d : Desc) (s : State) : Out :=
  if d.get 8 1 = 4 ∧ bitOf d.flags 0 then .next s
  else .next (formRow d 4 4 1 [] (fun s => match s.radius.mode with
    | .idle => (s.raise 0x1CC []).done d .ok
    | .draining => s.done d .inUse
    | .running => s.withRadius { s.radius with mode := .draining, disable := some (d, s.clk + s.timeoutOf d 1000000) }) s)

/-- The disable completes. -/
def State.serviceOff (s : State) (d : Desc) (rep : Reply) : State :=
  ((s.withRadius { s.radius with mode := .idle, disable := none }).raise 0x1CC []).complete d rep

/-- RADIUS_DRAIN_END: the last item has reached its disposition (R291). -/
def execRadiusDrainEnd (s : State) : Out :=
  match s.radius.disable with
  | none => .next s
  | some (d, _) => if s.radius.items = [] then .next (s.serviceOff d { status := .ok }) else .next s

/-- An item that remains at the timeout is dropped, its record lock released without write-back (R291). -/
def State.drainDrop (s : State) (i : RItem) : State :=
  let s := s.rcount 1 none
  let s := match i.thr with
    | some k => s.recUnlock i.slot (0x1000 + 128 * 16 + k)
    | none => s
  s.endRItem i.id

/-- RADIUS_DRAIN_TIMEOUT (R291). -/
def execRadiusDrainTimeout (s : State) : Out :=
  match s.radius.disable with
  | none => .next s
  | some (d, due) =>
    let s := s.passTo due
    let l := s.radius.items
    let s := l.foldl State.drainDrop s
    .next (s.serviceOff d (if l = [] then { status := .ok } else { status := .drainedLate, r0 := l.length }))

/-! ### SENSOR_WRITE (R284 to R289, R509) -/

/-- Free positions of a bucket, ascending; none where the index line cannot be read. -/
def State.freeIn (s : State) (gw : Bool) (b : Nat) : Option (List Nat) × State :=
  match s.areaRead (s.idxAddr gw b) with
  | (none, s) => (none, s)
  | (some l, s) => (some ((((idsOf l).zipIdx.filter fun (e : Nat × Nat) => e.1 == 0).map (·.2)).map (8 * b + ·)), s)

/-- The bucket that an occupant of bucket b can move to (R284). -/
def State.altBucket (s : State) (id b : Nat) : Nat :=
  if s.radBucket false 0 id = b then s.radBucket false 1 id else s.radBucket false 0 id

/-- A chain of at most n further moves from full bucket b, where identifier `id` asks for a slot: the slots in order, the free one last, or
whether all occupants of some bucket were locked. `now` holds the identifiers that the moves so far have put into slots. Which occupant
moves is left open and free (R284, log entry 84). With `any` a locked one may. -/
def State.chain (any : Bool) : Nat → State → Nat → Nat → List (Nat × Nat) → List Nat → Option (List Nat) × Bool × State
  | 0, s, _, _, _, _ => (none, false, s)
  | n + 1, s, b, id, now, path =>
    match s.areaRead (s.idxAddr false b) with
    | (none, s) => (none, false, s)
    | (some l, s) =>
      let may := (List.range 8).filter fun i => any || (s.recLock (8 * b + i)).isNone
      if may = [] then (none, true, s)
      else
        let (r, s) := s.draw 8
        let i := may.getD (r % may.length) 0
        let k := 8 * b + i
        let victim := (now.lookup k).getD ((idsOf l).getD i 0)
        let b' := s.altBucket victim b
        match s.freeIn false b' with
        | (none, s) => (none, false, s)
        | (some (f :: _), s) => (some (path ++ [k, f]), false, s)
        | (some [], s) => State.chain any n s b' victim ((k, id) :: now) (path ++ [k])

/-- The identifier that a slot's index line gives, free where that cannot be read either. -/
def State.slotId (s : State) (slot : Nat) : Nat × State :=
  match s.areaRead (s.idxAddr false (slot / 8)) with
  | (some l, s) => ((idsOf l).getD (slot % 8) 0, s)
  | (none, s) => s.draw 64

/-- Put a record into the first slot of a chain, its occupant into the next, and so on. An occupant that cannot be read is lost (R309). -/
def State.moveAlong (s : State) (hand : List Byte) : List Nat → State
  | [] => s
  | [k] => s.putRecord false k hand
  | k :: ks => match s.areaRead (s.recAddr false k) with
    | (some r, s) => (s.putRecord false k hand).moveAlong r ks
    | (none, s) =>
      let (id, s) := s.slotId k
      (s.recordBad id).putRecord false k hand

/-- The first free slot of either candidate bucket (R284). -/
def State.freeSlot (s : State) (gw : Bool) (id : Nat) : Option Nat × State :=
  match s.freeIn gw (s.radBucket gw 0 id) with
  | (some (k :: _), s) => (some k, s)
  | (_, s) => match s.freeIn gw (s.radBucket gw 1 id) with
    | (some (k :: _), s) => (some k, s)
    | (_, s) => (none, s)

/-- Moves that free a slot for a sensor, from one of its two buckets, which is left open and free. -/
def State.makeRoom (s : State) (any : Bool) (id : Nat) : Option (List Nat) × Bool × State :=
  let (side, s) := s.draw 1
  State.chain any 128 s (s.radBucket false (side % 2) id) id [] []

/-- Insert a sensor record (R284): its slot, or none where 128 moves free none. -/
def State.insertSensor (s : State) (r : List Byte) : Option Nat × State :=
  let id := leAt r 0 8
  match s.freeSlot false id with
  | (some k, s) => (some k, s.putRecord false k r)
  | (none, s) => match s.makeRoom true id with
    | (some (k :: ks), _, s) => (some k, s.moveAlong r (k :: ks))
    | (_, _, s) => (none, s)

/-- An insertion meets a bucket whose occupants are all locked: the command waits for a lock (R284, log entry 84). -/
def State.insertWaits (s : State) (d : Desc) : Bool :=
  match (s.readBuf d .annulus (d.get 0x10 8) 64).1 with
  | .ok bs =>
    let id := leAt bs 0 8
    match (s.findSlot false id).1, (s.freeSlot false id).1 with
    | .absent, none => (s.makeRoom false id).2.1
    | _, _ => false
  | .error _ => false

/-- Values of a sensor record that lie in their ranges (Table 12.2). -/
def sensorOk (r : List Byte) : Bool :=
  leAt r 0 8 != 0 && leAt r 8 2 < 4096 && bits (leAt r 0x0A 2) 7 9 == 0 && bits (leAt r 0x0A 2) 5 2 != 3 && bits (leAt r 0x1C 4) 21 3 == 0

/-- Values of a gateway record that lie in their ranges (Table 12.3). -/
def gatewayOk (r : List Byte) : Bool :=
  let f := leAt r 8 1
  leAt r 0 8 != 0 && f < 32 && (bits f 2 2 == 1 || bits f 2 2 == 2) && leAt r 0x0A 2 < 8192 && leAt r 0x28 24 == 0

/-- The sensor record that INSERT or REPLACE stores (R286, R509): `old` is the record replaced. -/
def State.sensorNew (s : State) (old : Option (List Byte)) (buf : List Byte) (resume : Bool) : List Byte :=
  let g := recGroup buf
  let given := leAt buf 0x20 4
  let want := if resume then min (2 ^ 32 - 1) (given + s.budget g) else given
  let (next, high, kept) := match old with
    | some o => (max want (leAt o 0x20 4), max (leAt buf 0x0C 4) (leAt o 0x0C 4), recFlags o &&& 0x0C)
    | none => (want, leAt buf 0x0C 4, 0)
  let flags := (recFlags buf &&& 0x73) ||| kept ||| (if resume then 8 else 0)
  let r := patch (patch buf 0x0A (le 2 flags)) 0x0C (le 4 high)
  patch r 0x20 (le 4 next ++ le 4 next ++ le 4 next ++ le 4 0)

/-- Counts of the table after a sensor record at a slot changed. -/
def State.countSensor (s : State) (old new : Option (List Byte)) : State :=
  let v := fun (r : Option (List Byte)) => match r with
    | some r => recFlags r % 2
    | none => 0
  s.withRadius { s.radius with records := s.radius.records + v new - v old, sensors := s.radius.sensors + b2n new.isSome - b2n old.isSome }

/-- An insertion that finds no slot (R284). -/
def State.tableFull (s : State) (d : Desc) : State := (s.raise 0x1CA []).done d .tableFull

/-- The sensor record that a command names is locked: the command waits for the lock (R286, log entry 19). -/
def State.recordBusy (s : State) (d : Desc) : Bool :=
  match (s.readBuf d .annulus (d.get 0x10 8) 64).1 with
  | .ok bs => match (s.findSlot false (leAt bs 0 8)).1 with
    | .found k => (s.recLock k).isSome
    | _ => false
  | .error _ => false

/-- SENSOR_WRITE on a sensor record: read the buffer and look its identifier up. -/
def sensorBody (d : Desc) (check : Bool) (go : List Byte → Option (Nat × List Byte) → State → State) (s : State) : State :=
  s.withBuf d .annulus (d.get 0x10 8) 64 fun bs s =>
    if (check && !sensorOk bs) || leAt bs 0 8 == 0 then s.done d .badRequest
    else match s.findRecord false (leAt bs 0 8) with
      | (.bad, s) => (s.recordBad (leAt bs 0 8)).done d .integrity
      | (.absent, s) => go bs none s
      | (.found r, s) => go bs (some r) s

/-- SENSOR_WRITE on a gateway record. -/
def gatewayBody (d : Desc) (check : Bool) (go : List Byte → Option (Nat × List Byte) → State → State) (s : State) : State :=
  s.withBuf d .annulus (d.get 0x10 8) 64 fun bs s =>
    if (check && !gatewayOk bs) || leAt bs 0 8 == 0 then s.done d .badRequest
    else match s.findRecord true (leAt bs 0 8) with
      | (.bad, s) => (s.recordBad (leAt bs 0 8)).done d .integrity
      | (.absent, s) => go bs none s
      | (.found r, s) => go bs (some r) s

/-- OK with the slot of the record in RESULT0 (R509). -/
def State.doneSlot (s : State) (d : Desc) (k : Nat) : State := s.complete d { status := .ok, r0 := k % 2 ^ 21 }

/-- A SENSOR_WRITE row acts on its OP and its GATEWAY flag. -/
def writeRow (d : Desc) (op : Nat) (gw : Bool) (body : State → State) (s : State) : State :=
  if bitOf d.flags 0 ≠ gw ∨ (!gw && s.mayStart d && (s.recordBusy d || (op == 0 && d.get 8 1 == 0 && s.insertWaits d))) = true then s else formRow d op 3 3 [(0x10, 8)] body s

/-- SENSOR_WRITE INSERT (R284, R286). -/
def execSensorWriteInsert (d : Desc) (s : State) : Out :=
  .next (writeRow d 0 false (sensorBody d true fun bs found s => match found with
    | some _ => s.done d .exists_
    | none =>
      let r := s.sensorNew none bs (bitOf d.flags 1)
      match s.insertSensor r with
      | (none, s) => s.tableFull d
      | (some k, s) => (s.countSensor none (some r)).doneSlot d k) s)

/-- SENSOR_WRITE REPLACE (R286). -/
def execSensorWriteReplace (d : Desc) (s : State) : Out :=
  .next (writeRow d 1 false (sensorBody d true fun bs found s => match found with
    | none => s.done d .notFound
    | some (k, o) =>
      let r := s.sensorNew (some o) bs (bitOf d.flags 1)
      ((s.areaWrite (s.recAddr false k) r).countSensor (some o) (some r)).doneSlot d k) s)

/-- SENSOR_WRITE DELETE: the slot is free and its record zero (R286). -/
def execSensorWriteDelete (d : Desc) (s : State) : Out :=
  .next (writeRow d 2 false (sensorBody d false fun _ found s => match found with
    | none => s.done d .notFound
    | some (k, o) => (((s.setIndex false k 0).areaWrite (s.recAddr false k) (List.replicate 64 0)).countSensor (some o) none).doneSlot d k) s)

/-- SENSOR_WRITE READ: the record goes to the buffer (R509). -/
def execSensorWriteRead (d : Desc) (s : State) : Out :=
  .next (writeRow d 3 false (sensorBody d false fun _ found s => match found with
    | none => s.done d .notFound
    | some (k, o) => s.writeBufDone d .annulus (d.get 0x10 8) o { status := .ok, r0 := k % 2 ^ 21 }) s)

/-- A gateway record from a buffer; its RETIRED flag is not the buffer's (R289). -/
def gatewayNew (buf : List Byte) : List Byte := patch buf 8 [BitVec.ofNat 8 (leAt buf 8 1 % 16)]

/-- SENSOR_WRITE INSERT with GATEWAY: a retired record revives in its slot (R284, R289). -/
def execGatewayInsert (d : Desc) (s : State) : Out :=
  .next (writeRow d 0 true (gatewayBody d true fun bs found s => match found with
    | some (k, o) =>
      if gwRetired o then (s.areaWrite (s.recAddr true k) (gatewayNew bs)).doneSlot d k else s.done d .exists_
    | none => match s.freeSlot true (leAt bs 0 8) with
      | (none, s) => s.tableFull d
      | (some k, s) =>
        let s := s.putRecord true k (gatewayNew bs)
        (s.withRadius { s.radius with gateways := s.radius.gateways + 1 }).doneSlot d k) s)

/-- SENSOR_WRITE REPLACE with GATEWAY: a retired record stays retired. -/
def execGatewayReplace (d : Desc) (s : State) : Out :=
  .next (writeRow d 1 true (gatewayBody d true fun bs found s => match found with
    | none => s.done d .notFound
    | some (k, o) =>
      let r := if gwRetired o then patch bs 8 [BitVec.ofNat 8 (leAt bs 8 1 &&& 0x0E ||| 0x10)] else gatewayNew bs
      (s.areaWrite (s.recAddr true k) r).doneSlot d k) s)

/-- SENSOR_WRITE DELETE with GATEWAY: a VALID record retires; another frees its slot (R289). -/
def execGatewayDelete (d : Desc) (s : State) : Out :=
  .next (writeRow d 2 true (gatewayBody d false fun _ found s => match found with
    | none => s.done d .notFound
    | some (k, o) =>
      if gwValid o then (s.areaWrite (s.recAddr true k) (patch o 8 [BitVec.ofNat 8 ((leAt o 8 1 &&& 0xFE) ||| 0x10)])).doneSlot d k
      else
        let s := (s.setIndex true k 0).areaWrite (s.recAddr true k) (List.replicate 64 0)
        (s.withRadius { s.radius with gateways := s.radius.gateways - 1 }).doneSlot d k) s)

/-- SENSOR_WRITE READ with GATEWAY. -/
def execGatewayRead (d : Desc) (s : State) : Out :=
  .next (writeRow d 3 true (gatewayBody d false fun _ found s => match found with
    | none => s.done d .notFound
    | some (k, o) => s.writeBufDone d .annulus (d.get 0x10 8) o { status := .ok, r0 := k }) s)

/-! ### SENSOR_CHECKPOINT (R307 to R309, R510) -/

/-- Slots of the sensor table that hold a byte other than the zeros of the enable, ascending (log entry 85). -/
def State.sensorSlots (s : State) : List Nat :=
  let lo := s.recAddr false 0
  ((s.mem.cells.filter fun c => lo ≤ c.1 && c.1 < lo + 2 ^ 33).map fun c => (c.1 - lo) / 64).eraseDups

/-- Visit a slot: its record where it holds one; a record that fails integrity is counted, reported and passed over (R309). -/
def State.visit (s : State) (slot : Nat) : Option (List Byte) × State :=
  match s.areaRead (s.recAddr false slot) with
  | (none, s) =>
    let (id, s) := s.slotId slot
    (none, s.recordBad id)
  | (some r, s) => (if leAt r 0 8 = 0 then none else some r, s)

/-- A WRITE pass: entries and the records to mark, until `room` entries are written; the slot of the first record left. -/
def State.ckptGo : List Nat → Nat → State → List (Nat × List Byte) → (List (Nat × List Byte) × Option Nat) × State
  | [], _, s, acc => ((acc, none), s)
  | k :: ks, room, s, acc =>
    match s.visit k with
    | (none, s) => State.ckptGo ks room s acc
    | (some r, s) =>
      if recFlags r &&& 5 ≠ 5 then State.ckptGo ks room s acc
      else if room = 0 then ((acc, some k), s)
      else State.ckptGo ks (room - 1) s (acc ++ [(k, r)])

/-- A record that a WRITE of generation n has taken (R307). -/
def ckptMark (n : Nat) (r : List Byte) : List Byte :=
  patch (patch r 0x28 (slice r 0x20 4 ++ le 4 n)) 0x0A (le 2 (recFlags r &&& 0xFFFB))

/-- SENSOR_CHECKPOINT WRITE, after a pause of `paused` ns. -/
def ckptWrite (d : Desc) (paused : Nat) (s : State) : State :=
  let n := d.get 0xC 4
  let ((recs, next), s) := State.ckptGo (s.sensorSlots.filter fun k => d.get 0x1C 4 ≤ k) (d.get 0x18 4 / 16) s []
  let out := recs.flatMap fun (e : Nat × List Byte) => slice e.2 0 8 ++ slice e.2 0x0C 4 ++ slice e.2 0x20 4
  match (if out = [] then (true, s) else s.writeMem .annulus (ringOwner d.ring.val) (d.get 0x10 8) out) with
  | (false, s) => s.done d .badRequest
  | (true, s) =>
    let s := recs.foldl (fun s (e : Nat × List Byte) => s.areaWrite (s.recAddr false e.1) (ckptMark n e.2)) s
    let s := s.raise 0x1C9 ([0#8] ++ le 4 n ++ le 4 recs.length)
    s.complete d { status := if next.isSome then .bufferFull else .ok, r0 := recs.length + 2 ^ 32 * next.getD 0, r1 := paused }

/-- A held downlink request is tried again: it waits for dispatch (R305). -/
def State.retryHeld (s : State) : State :=
  (s.radius.store.filter (·.held.isSome)).foldl (fun s e =>
    let (ok, s) := s.storeRead e
    s.withRadius { s.radius with
      store := s.radius.store.filter (·.id != e.id), items := s.radius.items ++ if ok then e.held.toList else [] }) s

/-- SENSOR_CHECKPOINT CONFIRM. -/
def ckptConfirm (d : Desc) (paused : Nat) (s : State) : State :=
  let n := d.get 0xC 4
  let (c, s) := s.sensorSlots.foldl (fun (x : Nat × State) k =>
    match x.2.visit k with
    | (none, s) => (x.1, s)
    | (some r, s) => if leAt r 0x2C 4 = n then (x.1 + 1, s.areaWrite (s.recAddr false k) (patch r 0x24 (slice r 0x28 4))) else (x.1, s)) (0, s)
  ((s.retryHeld).raise 0x1C9 ([1#8] ++ le 4 n ++ le 4 c)).complete d { status := .ok, r1 := paused }

/-- Run a checkpoint after a pause. -/
def ckptRun (d : Desc) (paused : Nat) (s : State) : State := if d.get 8 1 = 0 then ckptWrite d paused s else ckptConfirm d paused s

/-- SENSOR_CHECKPOINT pauses while any monitored rail is in its warning band (R309). -/
def ckptBody (d : Desc) (s : State) : State :=
  if s.cpr.warn = [] then ckptRun d 0 s
  else s.withRadius { s.radius with paused := s.radius.paused ++ [{ desc := d, since := s.clk }] }

/-- Paused checkpoints go on when the last rail has recovered (R309). -/
def State.resumeCkpt (s : State) : State :=
  if s.cpr.warn ≠ [] then s
  else
    let l := s.radius.paused
    l.foldl (fun s p => ckptRun p.desc (s.clk - p.since) s) (s.withRadius { s.radius with paused := [] })

/-- SENSOR_CHECKPOINT WRITE (R307). -/
def execSensorCheckpointWrite (d : Desc) (s : State) : Out :=
  .next (formRow d 0 1 0 [(0xC, 4), (0x10, 8), (0x18, 4), (0x1C, 4)] (ckptBody d) s)

/-- SENSOR_CHECKPOINT CONFIRM (R307). -/
def execSensorCheckpointConfirm (d : Desc) (s : State) : Out :=
  .next (formRow d 1 1 0 [(0xC, 4), (0x10, 8), (0x18, 4), (0x1C, 4)] (ckptBody d) s)

end Sys2Proof.Machine
end

