-- ==== Sys2Proof/Machine/RadiusShip.lean ====
section
/-! DEFINITION. What the shipped Radius service image does with a work item (chapter 12): the uplink and downlink programs. The words of the
image are not in the spec, so its run is one step (log entry 143). -/

namespace Sys2Proof.Machine

/-! ### The parts of a sensor frame (Tables 12.6, 12.7) -/

/-- Header bytes of an uplink record (Table 12.6). -/
def upHead (ver : Nat) : Nat := if ver = 2 then 18 else 10

/-- The sensor frame of an uplink record. -/
def sensorFrame (ver : Nat) (r : List Byte) : List Byte := r.drop (upHead ver)

/-- UL_TIME in ns; its seconds are taken nearest to the present. -/
def State.ulTime (s : State) (r : List Byte) : Nat :=
  let low := leAt r 0x14 4
  let hi := 2 ^ 32 * (s.sec / 2 ^ 32)
  let t := if s.sec + 2 ^ 31 < hi + low then hi + low - 2 ^ 32 else if hi + low + 2 ^ 31 < s.sec then hi + low + 2 ^ 32 else hi + low
  1000000000 * t + leAt r 0x18 4

/-! ### AES-CCM (R273, R293, Table 11.5) -/

/-- The nonce: sensor ID, counter, direction. -/
def ccmNonce (sensor counter dir : Nat) : List Byte := be 8 sensor ++ be 4 counter ++ [BitVec.ofNat 8 dir]

/-- Counter block i: flags 0x01, the nonce, i. -/
def ccmCounter (nonce : List Byte) (i : Nat) : BitVec 128 := Crypto.blockOf ([1#8] ++ nonce ++ be 2 i)

/-- The key stream of the payload, from counter block 1 on. -/
def ccmStream (key : Nat) (nonce : List Byte) (n : Nat) : List Byte := keyStream 16 key (ccmCounter nonce 1) n

/-- Pad with zeros to whole blocks. -/
def padBlocks (bs : List Byte) : List (BitVec 128) := Crypto.blocks (slice bs 0 ((bs.length + 15) / 16 * 16))

/-- The tag of M bytes: the CBC-MAC over B0, the associated data behind its length, and the plaintext, under counter block 0. -/
def ccmTag (key : Nat) (nonce aad text : List Byte) (m : Nat) : List Byte :=
  let b0 := Crypto.blockOf ([BitVec.ofNat 8 (0x41 + 8 * ((m - 2) / 2))] ++ nonce ++ be 2 text.length)
  let x := cbcChain 16 key 0 (b0 :: padBlocks (be 2 aad.length ++ aad) ++ padBlocks text)
  (Crypto.blockBytes (x ^^^ Crypto.aesEnc 16 key (ccmCounter nonce 0))).take m

/-! ### Uplink (R301, Table 12.12) -/

/-- What the uplink program reads in its item. -/
structure Uplink where
  frame : List Byte
  /-- Tag bytes M. -/
  m : Nat
  /-- The copy's time in ns, and UL_TSRC for it. -/
  time : Nat
  tsrc : Nat

/-- Read an item. -/
def RItem.uplink (i : RItem) : Uplink :=
  let src := beAt i.buf 0x4D 1
  let own := i.ver == 2 && (src == 1 || src == 2)
  { frame := sensorFrame i.ver i.record, m := if bitOf i.params.toNat 3 then 8 else 4
    time := if own then 1000000000 * beAt i.buf 0x43 6 + beAt i.buf 0x49 4 else i.at_, tsrc := if own then src else 0 }

/-- Bytes before the payload: 14 + o. -/
def Uplink.head (u : Uplink) : Nat := 14 + beAt u.frame 0 1 % 16
/-- Payload bytes. -/
def Uplink.size (u : Uplink) : Nat := u.frame.length - u.head - u.m
/-- The tag. -/
def Uplink.tag (u : Uplink) : List Byte := u.frame.drop (u.head + u.size)
/-- The counter. -/
def Uplink.counter (u : Uplink) : Nat := beAt u.frame 9 4

/-- The plaintext, where the tag verifies (R293). -/
def Uplink.open_ (u : Uplink) (key : Nat) (sensor : Nat) : Option (List Byte) :=
  let nonce := ccmNonce sensor u.counter 0
  let text := xorList (slice u.frame u.head u.size) (ccmStream key nonce u.size)
  if ccmTag key nonce (u.frame.take u.head) text u.m = u.tag then some text else none

/-- UL_GW of this copy: its gateway and RSSI (Table 12.2). -/
def RItem.ulGw (i : RItem) : List Byte := le 3 i.gateway ++ slice i.buf 0x40 1

/-- The RSSI of this copy is higher than the record's. -/
def RItem.stronger (i : RItem) : Bool :=
  decide ((BitVec.ofNat 8 (leAt i.image 0x1F 1)).toInt < (BitVec.ofNat 8 (leAt i.buf 0x40 1)).toInt)

/-- Add 1 to a saturating 16-bit field of a record. -/
def bump16 (r : List Byte) (off : Nat) : List Byte := patch r off (le 2 (min 0xFFFF (leAt r off 2 + 1)))

/-- The record after a duplicate (Table 12.12). -/
def RItem.afterDuplicate (i : RItem) : List Byte :=
  let r := bump16 i.image 0x3E
  if i.stronger then patch r 0x1C i.ulGw else r

/-- The record after an accepted uplink (Table 12.12). -/
def RItem.afterUplink (i : RItem) (u : Uplink) : List Byte :=
  let flags := (recFlags i.image &&& 0xFF9F) ||| 2 ||| 32 * u.tsrc
  let r := patch i.image 0x0C (le 4 u.counter ++ u.tag.take 4 ++ le 4 (u.time / 1000000000) ++ le 4 (u.time % 1000000000) ++ i.ulGw)
  patch (patch r 0x0A (le 2 flags)) 0x38 (le 4 (leAt i.image 0x38 4 + 1))

/-- A reading record of kind 1, or a reception record of kind 2 without payload (Table 12.13a). -/
def RItem.reading (i : RItem) (u : Uplink) (kind : Nat) (text : List Byte) : List Byte :=
  let fctl := beAt u.frame 0 1
  let flags := b2n (fctl / 32 == 3) + 2 * b2n (bitOf (recFlags i.image) 3) + 4 * b2n (bitOf fctl 4)
  let head := [BitVec.ofNat 8 kind, BitVec.ofNat 8 flags] ++ le 4 u.counter ++ le 8 i.sensor.toNat ++ slice i.image 0x30 8 ++ le 4 i.gateway ++
    le 2 i.group ++ slice u.frame (u.head - 1) 1 ++ [BitVec.ofNat 8 text.length] ++ le 4 (beAt i.buf 0x49 4) ++ le 6 (beAt i.buf 0x43 6) ++
    slice i.buf 0x4D 1 ++ slice i.buf 0x40 3 ++ le 2 0
  let n := (48 + text.length + 63) / 64 * 64
  slice (le 2 n ++ head ++ text) 0 n

/-- The sensor key of an item: the cached one, or its derivation (R274, R298). -/
def State.itemKey (s : State) (i : RItem) : Nat × State :=
  match i.key with
  | some q => (q.key, s)
  | none =>
    let s := (s.derive i).endRoot i.id
    (((s.ritem i.id).bind (·.key)).elim 0 (·.key), s)

/-- DEDUP_MS in ns; 0 selects 200 ms (Table 12.4). -/
def dedupNs (p : Nat) : Nat := 1000000 * (if bits p 16 16 = 0 then 200 else bits p 16 16)

/-- MAX_GAP; 0 selects 16,384. -/
def maxGap (p : Nat) : Nat := if bits p 32 32 = 0 then 16384 else bits p 32 32

/-- The uplink program, on thread k (R301, R302, Table 12.12). A group's counter rises too where the record's is saturated. -/
def State.shipUp (s : State) (k : Nat) (i : RItem) (nokey : Bool) : State :=
  let p := i.params.toNat
  let u := i.uplink
  let owner := vOwner 16 k
  let c := u.counter
  let high := leAt i.image 0x0C 4
  let has := bitOf (recFlags i.image) 1
  let t0 := s.ulTime i.image
  let near := u.time ≤ t0 + dedupNs p && t0 ≤ u.time + dedupNs p
  let more := fun (off n : Nat) (s : State) => if leAt i.image off 2 = 0xFFFF then s.rcount n (some i.group) else s
  if nokey then s.dropItem k 4 i
  else if has ∧ c = high ∧ u.tag.take 4 = slice i.image 0x10 4 ∧ near = true then
    if bitOf p 1 then
      let (key, s) := s.itemKey i
      if (u.open_ key i.sensor.toNat).isNone then s.dropItem k 1 i
      else (more 0x3E 12 s).releaseItem owner i true i.afterDuplicate 0 64 (i.reading u 2 [])
    else (more 0x3E 12 s).releaseItem owner i true i.afterDuplicate 0 0 []
  else if has ∧ c ≤ high then (more 0x3C 13 s).releaseItem owner i true (bump16 i.image 0x3C) 0 0 []
  else if has ∧ high + maxGap p < c then s.dropItem k 3 i
  else
    let (key, s) := s.itemKey i
    match u.open_ key i.sensor.toNat with
    | none => s.dropItem k 1 i
    | some text =>
      let out := i.reading u 1 text
      s.releaseItem owner i true (i.afterUplink u) 0 out.length out

/-! ### Downlink (R306) -/

/-- The downlink record of an item: its payload encrypted, FCTL 0x80 or 0xA0 with the ACK flag, o = 0; the record's flags are not stated and
free (log entry 166). -/
def RItem.downRecord (i : RItem) (key flags : Nat) : List Byte :=
  let asked := beAt i.record 2 1
  let text := slice i.record 13 (beAt i.record 12 1)
  let nonce := ccmNonce i.sensor.toNat i.counter 1
  let head := [BitVec.ofNat 8 ((if bitOf asked 0 then 0xA0 else 0x80) + 16 * b2n (bitOf asked 1))] ++ be 8 i.sensor.toNat ++ be 4 i.counter ++
    slice i.record 3 1
  let frame := head ++ xorList text (ccmStream key nonce text.length) ++ ccmTag key nonce head text (if bitOf i.params.toNat 3 then 8 else 4)
  let sec := i.window / 1000000000
  let w := (if beAt i.buf 0x51 1 = 2 then be 6 sec else be 4 sec) ++ be 4 (i.window % 1000000000)
  be 2 (4 + w.length + frame.length) ++ [BitVec.ofNat 8 flags] ++ slice i.buf 0x50 1 ++ w ++ frame

/-- The downlink program, on thread k. -/
def State.shipDown (s : State) (k : Nat) (i : RItem) (nokey : Bool) : State :=
  if nokey then s.dropItem k 4 i
  else
    let (key, s) := s.itemKey i
    let (flags, s) := s.draw 8
    ((s.storeRecord i (i.downRecord key flags)).recUnlock i.slot (vOwner 16 k)).endRItem i.id

end Sys2Proof.Machine
end

