-- ==== Sys2Proof/Machine/RadiusRun.lean ====
section
/-! DEFINITION. The running of Radius: batches, dispatch of work items, readings, the downlink store (R292 to R306). -/

namespace Sys2Proof.Machine

/-! ### Batches (R25, R292, R294, Table 12.9) -/

/-- Offset of the EtherType behind at most n more VLAN tags. -/
def typeAt (d : List Byte) : Nat → Nat → Nat
  | 0, off => off
  | n + 1, off => if isTpid (beAt d off 2) then typeAt d n (off + 4) else off

/-- Offset of the UDP header behind at most n extension headers. -/
def udpAt6 (d : List Byte) : Nat → Nat → Nat → Nat
  | 0, off, _ => off
  | n + 1, off, nh =>
    if nh = 44 then udpAt6 d n (off + 8) (beAt d off 1)
    else if nh = 0 ∨ nh = 43 ∨ nh = 60 then udpAt6 d n (off + (beAt d (off + 1) 1 + 1) * 8) (beAt d off 1)
    else off

/-- A UDP datagram in a frame: IPv6, the addresses of its pseudo-header, its offset. -/
def udpOf (d : List Byte) : Bool × List Byte × Nat :=
  let t := typeAt d 2 12
  let l3 := t + 2
  if beAt d t 2 = 0x86DD then (true, slice d (l3 + 8) 32, udpAt6 d 2 (l3 + 40) (beAt d (l3 + 6) 1))
  else (false, slice d (l3 + 12) 8, l3 + 4 * (beAt d l3 1 % 16))

/-- The UDP checksum is good: it may be zero in IPv4 only (Table 12.9). -/
def udpOk (d : List Byte) : Bool :=
  let (v6, addrs, off) := udpOf d
  let n := beAt d (off + 4) 2
  let c := beAt d (off + 6) 2
  if c = 0 then !v6 else inetSum (inetWords (addrs ++ be 2 17 ++ be 2 n) + inetWords (slice d off n)) == 0

/-- The payload of the datagram, if its length lies within the frame and within 8,192 bytes. -/
def batchOf (d : List Byte) : Option (List Byte) :=
  let (_, _, off) := udpOf d
  let n := beAt d (off + 4) 2
  if 8 ≤ n ∧ off + n ≤ d.length ∧ n ≤ 8200 then some (slice d (off + 8) (n - 8)) else none

/-- The records of a batch, if their lengths add up (R292). -/
def splitRecords : Nat → List Byte → Option (List (List Byte))
  | _, [] => some []
  | 0, _ => none
  | n + 1, bs =>
    let len := beAt bs 0 2
    if len < 2 ∨ bs.length < len then none
    else (splitRecords n (bs.drop len)).map (bs.take len :: ·)

/-- An uplink record that may lie within Table 11.5 for some tag length, of an uplink type (Table 12.9). -/
def upOk (ver : Nat) (r : List Byte) : Bool :=
  let f := sensorFrame ver r
  let fctl := beAt f 0 1
  let n := f.length - (14 + fctl % 16)
  upHead ver + 18 ≤ r.length && 14 + fctl % 16 + 4 ≤ f.length && n ≤ 136 && (fctl / 32 == 2 || fctl / 32 == 3)

/-- A request record: length, flags, port, sensor ID, payload length, payload. -/
def downOk (r : List Byte) : Bool := 13 ≤ r.length && beAt r 12 1 ≤ 128 && r.length == 13 + beAt r 12 1

/-- A batch is dropped whole: counter, and event 0x1C0 at most once per cause per second (R294). -/
def State.dropBatch (s : State) (cause counter : Nat) : State :=
  (s.rcount counter none).raiseOnce 0x1C0 cause [BitVec.ofNat 8 cause]

/-- Work items of the records of a batch; a malformed record is dropped alone. -/
def State.takeRecords (s : State) (up : Bool) (ver gateway batch : Nat) (recs : List (List Byte)) : State :=
  recs.foldl (fun s r =>
    if (if up then upOk ver r else downOk r) then
      let q := s.radius.nextId
      let sensor := BitVec.ofNat 64 (if up then beAt (sensorFrame ver r) 1 8 else beAt r 4 8)
      let i : RItem := {
        id := q, up := up, thr := none, batch := batch, sensor := sensor, slot := 0, group := 0, gateway := gateway, at_ := s.gnomon.time
        params := 0, route := 0, record := r, ver := ver, image := [], buf := [], key := none, root := none, counter := 0, window := 0
        stalled := false, waitOut := false }
      s.withRadius { s.radius with items := s.radius.items ++ [i], nextId := q + 1 }
    else (s.rcount 6 none).batchDone batch) s

/-- A batch that passed its checks (R292, R294): its gateway's record is updated. -/
def State.acceptBatch (s : State) (bs : List Byte) (recs : List (List Byte)) (gw : Option (Nat × List Byte)) : State :=
  let ver := beAt bs 0 1
  let q := s.radius.nextId
  let ack := match gw with
    | some (h, _) => if ver = 2 ∧ bitOf (beAt bs 20 1) 0 then some (h, BitVec.ofNat 32 (beAt bs 12 4)) else none
    | none => none
  let b : RBatch := { id := q, left := recs.length, ack := ack }
  let keep := b.left != 0 || ack.isSome
  let s := s.withRadius { s.radius with nextId := q + 1, batches := s.radius.batches ++ if keep then [b] else [] }
  let s := match gw with
    | some (h, r) =>
      let r := patch r 9 [BitVec.ofNat 8 ver]
      let r := if ver = 2 then patch r 0x20 (le 4 (beAt bs 16 4)) else r
      s.areaWrite (s.recAddr true h) (patch r 0x24 (le 4 (leAt r 0x24 4 + 1)))
    | none => s
  s.takeRecords gw.isSome ver ((gw.map (·.1)).getD 0) q recs

/-- The checks of Table 12.9 on a batch, in their order. The gateway ID stands for the sensor ID where its record fails integrity. -/
def State.checkBatch (s : State) (d : List Byte) : State :=
  if !udpOk d then s.dropBatch 0 2
  else
    let bs := (batchOf d).getD []
    let ver := beAt bs 0 1
    let type := beAt bs 1 1
    let id := beAt bs 4 8
    let (gw, s) := if type = 1 then s.findRecord true id else (.absent, s)
    let max := match gw with
      | .found (_, r) => bits (leAt r 8 1) 2 2
      | _ => 2
    let head := if ver = 2 then 24 else 16
    let recs := if batchOf d = none ∨ bs.length < head then none else splitRecords 4096 (bs.drop head)
    let body := fun (gw : Option (Nat × List Byte)) (s : State) => match recs with
      | some l => if l.length = beAt bs 2 2 ∧ l.length ≤ 255 then s.acceptBatch bs l gw else s.dropBatch 4 5
      | none => s.dropBatch 4 5
    if ver = 0 ∨ 2 < ver ∨ max < ver then s.dropBatch 1 3
    else if type ≠ 1 ∧ type ≠ 5 then s.dropBatch 2 4
    else if type = 5 then body none s
    else match gw with
      | .bad => s.recordBad id
      | .absent => s.dropBatch 3 0
      | .found (h, r) => if gwRetired r then s.dropBatch 3 0 else body (some (h, r)) s

/-- An uplink item waits for output space that has not come (R303). -/
def State.outputWaits (s : State) : Bool :=
  s.radius.items.any fun i => i.waitOut && i.thr.isNone && !s.outputRoom i.group (tget 0 s.radius.groups i.group)

/-- RADIUS_BATCH_TAKE: Radius copies the batch at the head of its inbound queue and frees its cells (R25, R294, R352), unless uplink items
wait for output space (R303). A word read with an uncorrectable error gives free bytes (R349, log entry 86). Where RECLAIM has released the
batch's cells, Radius reads what they hold, which is free, and its free is a double free (Table 14.4). -/
def execRadiusBatchTake (read : BatchRead) (s : State) : Out :=
  if s.radius.mode ≠ .running ∨ !(s.aq 255).enabled ∨ s.outputWaits then .next s
  else match s.inboundTake read.poison with
    | (none, s) => .next s
    | (some id, s) => match s.frame id with
      | none =>
        let (k, s) := s.draw 14
        let (v, s) := s.draw 131072
        .next ((s.freeFrame (some 224) id).checkBatch (le k v))
      | some f =>
        let (d, s) := s.readFrame id read.ecc f.bytes
        .next ((s.freeFrame (some 224) id).checkBatch d)

/-- BATCH_ACK: a version-2 batch that set ACK_REQUEST is answered once its last record is disposed of (R292). -/
def execBatchAck (batch : Nat) (s : State) : Out :=
  match s.radius.batches.find? fun b => b.id == batch && b.left == 0 with
  | none => .next s
  | some b =>
    let s := s.withRadius { s.radius with batches := s.radius.batches.filter (·.id != batch) }
    .next (match b.ack with
      | none => s
      | some (h, seq) => match s.areaRead (s.recAddr true h) with
        | (some gw, s) => (s.sendToGateway (patch gw 9 [2#8]) 3 0 seq.toNat []).2
        | (none, s) => s)

/-! ### Record locks (R296) -/

/-- A lock whose lease has expired is released without write-back. -/
def State.leaseEnd (s : State) (slot : Nat) : State :=
  match s.radius.locks.lookup slot with
  | none => s
  | some l => (s.withRadius { s.radius with locks := tdel s.radius.locks slot }).raise 0x1C1 (le 2 l.owner ++ le 8 l.sensor.toNat)

/-- RECORD_LOCK_LEASE_EXPIRY: 10 µs after the lock was taken. -/
def execRecordLockLeaseExpiry (slot : Nat) (s : State) : Out :=
  match s.radius.locks.lookup slot with
  | none => .next s
  | some l => .next ((s.passTo l.due).leaseEnd slot)

/-! ### Dispatch (R295, R298, R300, R303 to R305) -/

/-- The key cache answers for a sensor under the present generation of its group root, and the entry becomes the most recently used
(R298, R300). -/
def State.probe (s : State) (sensor : BitVec 64) (g : Nat) : Option Shares × State :=
  let x := s.slot (slotKey 1 g)
  let q := keySet sensor
  let l := tget [] s.radius.keys q
  let hit := fun (e : SensorKey) => e.sensor == sensor && e.group == g && e.gen == x.gen && e.key.isSome
  let live := x.active == .valid || (x.active == .invalid && x.retired)
  match l.find? hit with
  | some e =>
    if live then (e.key, s.withRadius { s.radius with keys := tput [] s.radius.keys q (e :: l.filter fun y => !hit y) }) else (none, s)
  | none => (none, s)

/-- Reserve the least recently used entry of an item's set for its derivation (R295, R298, log entry 80). -/
def State.reserveKey (s : State) (i : RItem) : State :=
  let k := keySet i.sensor
  let l := (tget [] s.radius.keys k).filter fun x => !(x.sensor == i.sensor && x.group == i.group)
  let e : SensorKey := { sensor := i.sensor, group := i.group, gen := (s.slot (slotKey 1 i.group)).gen, key := none, item := i.id }
  s.withRadius { s.radius with keys := tput [] s.radius.keys k ((e :: l).take 16) }

/-- The group root can derive (R274, R300). -/
def State.canDerive (s : State) (g : Nat) : Bool := s.usable (slotKey 1 g)

/-- Count an item that waits for a lock, a thread or output space, once (R295). -/
def State.itemStall (s : State) (i : RItem) : State :=
  if i.stalled then s else (s.modRItem i.id fun i => { i with stalled := true }).rcount 9 (some i.group)

/-- fctx of an item (Table 12.10). -/
def fctxRadius (up miss nokey : Bool) (group len gateway : Nat) : BitVec 64 :=
  BitVec.ofNat 64 (2 ^ 62 * 2 + 2 ^ 61 * b2n up + 2 ^ 60 * b2n miss + 2 ^ 59 * b2n nokey + 2 ^ 46 * (group % 4096) + 2 ^ 38 * (len % 256) +
    2 ^ 17 * (gateway % 2 ^ 21))

/-- The work item buffer (Table 12.11); the order of the fields in its metadata is not given (log entry 87). -/
def itemBuf (image metadata data : List Byte) : List Byte := slice (slice image 0 64 ++ slice metadata 0 32 ++ data) 0 512

/-- How a dispatched item runs: thread, entry point and half, or the shipped program in one step (log entry 143). -/
structure Launch where
  k : Nat
  pc : Nat
  high : Bool
  shipped : Bool

/-- A free thread of Radius starts on an item (R212, R295, R296, R298). -/
def State.startItem (s : State) (i : RItem) (x : Launch) (len : Nat) : State :=
  let k := x.k
  let (key, s) := s.probe i.sensor i.group
  let nokey := key.isNone && !s.canDerive i.group
  let s := if key.isNone && !nokey then s.reserveKey i else s
  let lock : RecLock := { owner := vOwner 16 k, due := s.clk + 10000, sensor := i.sensor }
  let s := s.withRadius { s.radius with locks := tins s.radius.locks i.slot lock }
  let i := { i with key := key, waitOut := false }
  let s := s.modRItem i.id fun _ => { i with thr := some k }
  if x.shipped then (if i.up then s.shipUp k i nokey else s.shipDown k i nokey)
  else s.startThread 16 k i.id (fctxRadius i.up key.isNone nokey i.group len i.gateway) x.pc x.high none

/-- Metadata of an uplink: RSSI, SNR, channel, reception time and source, arrival time. -/
def upMeta (i : RItem) : List Byte :=
  let arrival := be 6 (i.at_ / 1000000000) ++ be 4 (i.at_ % 1000000000)
  slice i.record 3 3 ++ (if i.ver = 2 then slice i.record 6 11 else arrival ++ [3#8]) ++ arrival

/-- An item whose image entry is absent is dropped as aborted. -/
def State.abortItem (s : State) (i : RItem) : State := (s.rcount 17 (some i.group)).endRItem i.id

/-- A found uplink record: it starts on thread k, or waits (R295, R303). -/
def State.upDispatch (s : State) (i : RItem) (x : Launch) : State :=
  let f := sensorFrame i.ver i.record
  let m := if bitOf (s.group i.group) 3 then 8 else 4
  let n := 14 + beAt f 0 1 % 16 + m
  if f.length < n ∨ n + 128 < f.length then (s.rcount 6 (some i.group)).endRItem i.id
  else if x.pc = 0xFFFFFFFF then s.abortItem i
  else if !s.outputRoom i.group i.params then (s.itemStall i).modRItem i.id fun j => { j with waitOut := true, group := i.group }
  else s.startItem { i with buf := itemBuf i.image (upMeta i) f } x f.length

/-- Emit a downlink status without a counter and dispose of the request (R304). -/
def State.refuseDown (s : State) (i : RItem) (status : Nat) (gateway window : Nat) : State :=
  (s.outStatus i.group (statusRecord status 0 i.sensor (BitVec.ofNat 64 (leAt i.image 0x30 8)) gateway i.group window)).endRItem i.id

/-- Records already placed for a gateway in the window that starts at W. -/
def State.placed (s : State) (gateway w : Nat) : Nat :=
  (s.radius.store.filter fun e => e.held.isNone && e.gateway == gateway && e.window == w).length

/-- The earliest window start of profile p for a gateway (R304). A window has room below MAX_PER_WINDOW records (log entry 88). -/
def State.windowFor (s : State) (p gateway : Nat) (image : List Byte) (asked : Nat) : Option Nat :=
  let from_ := s.gnomon.time + 1000 * bits p 192 32
  let last := asked + 1000000 * bits p 224 32
  let span := bits p 128 64
  let ok := fun (w : Nat) => from_ ≤ w && w ≤ last && decide (s.placed gateway w < bits p 8 8)
  if bits p 0 8 = 1 then
    let w := s.ulTime image + span
    if ok w then some w else none
  else
    let base := 1000000000 * bits p 32 48 + bits p 80 32
    let k := if from_ ≤ base then 0 else (from_ - base + span - 1) / span
    ((List.range (s.radius.store.length + 1)).map fun j => base + (k + j) * span).find? ok

/-- A found downlink request (R304, R305): refused with a status, held at the checkpoint budget, or a counter is taken and it starts. -/
def State.downDispatch (s : State) (i : RItem) (x : Launch) : State :=
  let img := i.image
  let g := i.group
  let h := leAt img 0x1C 3 % 2 ^ 21
  if !bitOf (recFlags img) 4 then (s.rcount 18 (some g)).refuseDown i 5 0 0
  else if !bitOf (recFlags img) 1 then s.refuseDown i 3 0 0
  else match s.areaRead (s.recAddr true h) with
    | (none, s) => (s.recordBad i.sensor.toNat).endRItem i.id
    | (some gw, s) =>
      if leAt gw 0 8 = 0 ∨ gwRetired gw then s.refuseDown i 3 h 0
      else
        let q := leAt gw 0x0A 2 % 8192
        let p := (tget 0 s.radius.profiles (tget 0 s.radius.queues q).toNat).toNat
        match s.windowFor p h img i.at_ with
        | none => s.refuseDown i 2 h 0
        | some w =>
          let next := leAt img 0x20 4
          if 1048576 ≤ s.radius.store.length then ((s.rcount 20 (some g)).raise 0x1C7 []).refuseDown i 5 h w
          else if next = 0xFFFFFFFF then s.refuseDown i 4 h w
          else
            let slot : StoreEntry := {
              id := i.id, place := s.freePlace, held := none, sensor := i.sensor, group := g, params := i.params, route := i.route, appTag := BitVec.ofNat 64 (leAt img 0x30 8), gateway := h, queue := q
              counter := next, window := w, expiry := w, lead := 1000 * bits p 192 32, record := [] }
            if leAt img 0x24 4 + s.budget g ≤ next + 1 then
              let e := { slot with held := some i, counter := 0, expiry := i.at_ + 1000000 * bits p 224 32 }
              ((s.storePut e).endRItem i.id |>.rcount 19 (some g)).raise 0x1C6 (le 2 g)
            else if x.pc = 0xFFFFFFFF then s.abortItem i
            else
              let img := patch (patch img 0x20 (le 4 (next + 1))) 0x0A (le 2 (recFlags img ||| 4))
              let s := (s.areaWrite (s.recAddr false i.slot) img).storePut slot
              let data := slice i.record 13 (beAt i.record 12 1)
              let about := le 4 next ++ be 6 (w / 1000000000) ++ be 4 (w % 1000000000) ++ slice i.record 2 2 ++ [BitVec.ofNat 8 (leAt gw 0x1F 1),
                BitVec.ofNat 8 (leAt gw 9 1)]
              let i := { i with image := img, buf := itemBuf img about data, gateway := h, counter := next, window := w }
              s.startItem i x data.length

/-- RADIUS_DISPATCH: an item whose record, lock, thread and output space are free starts (R289, R295, R303 to R305). Items of one sensor go in
their order of arrival (R296). With thr.shipped a program of the shipped image runs to its disposition in this step (log entry 143). -/
def execRadiusDispatch (item : Nat) (thr : RadiusThread) (s : State) : Out :=
  match s.radius.items.find? fun i => i.id == item && i.thr.isNone with
  | none => .next s
  | some i =>
    let k := thr.t.key
    let x := s.cluster 16
    if thr.t.cl ≠ 16 ∨ ((s.radius.items.takeWhile (·.id != item)).any fun j => j.sensor == i.sensor && j.thr.isNone) ∨ x.pause.isSome then .next s
    else match s.findRecord false i.sensor.toNat with
      | (.bad, s) => .next ((s.recordBad i.sensor.toNat).endRItem item)
      | (.absent, s) =>
        let s := s.rcount 7 none
        .next ((if i.up then s else s.toReadingQueue s.reservedOut (statusRecord 6 0 i.sensor 0 0 0 0)).endRItem item)
      | (.found (slot, r), s) =>
        let g := recGroup r
        let p := tget 0 s.radius.groups g
        let i := { i with slot := slot, group := g, image := r, params := p, route := s.groupRoute p }
        if recFlags r % 2 = 0 then
          let s := s.rcount 7 none
          .next ((if i.up then s else s.toReadingQueue s.reservedOut (statusRecord 6 0 i.sensor 0 0 0 0)).endRItem item)
        else if !s.groupOn g then .next ((s.rcount 8 (some g)).endRItem item)
        else
          let s := match s.radius.locks.lookup slot with
            | some l => if l.due ≤ s.clk then s.leaseEnd slot else s
            | none => s
          if (s.radius.locks.lookup slot).isSome ∨ (s.thread 16 k).mode ≠ .idle then .next (s.itemStall i)
          else
            let high := x.active.getD false
            let entry := match x.active with
              | some h => (((x.half h).map (·.entries)).getD []).getD (4 + b2n i.up) 0xFFFFFFFF
              | none => 0xFFFFFFFF
            let l : Launch := { k := k, pc := entry, high := high, shipped := thr.shipped && s.runsShipped 16 }
            .next (if i.up then s.upDispatch i l else s.downDispatch i l)

/-! ### Readings (R302) -/

/-- READING_BATCH_FLUSH: FLUSH after its first record the oldest datagram of the group goes; one that waited for cells is tried again. -/
def execReadingBatchFlush (group : Fin 4096) (s : State) : Out :=
  match s.radius.datagrams.find? (·.group == group.val) with
  | none => .next s
  | some d => .next (if d.closed then s.sendReadings d else (s.passTo d.due).sendReadings d)

/-! ### The downlink store (R304 to R306) -/

/-- An entry whose record has been emitted and whose release time has come; its window start was not past at time t. -/
def State.ripe (s : State) (t : Nat) (e : StoreEntry) : Bool :=
  e.held.isNone && e.record != [] && e.window - e.lead ≤ s.gnomon.time && t ≤ e.window

/-- Status of an entry that leaves the store. -/
def State.storeStatus (s : State) (e : StoreEntry) (status : Nat) : State :=
  s.outRecord e.group e.params e.route s.reservedOut (statusRecord status e.counter e.sensor e.appTag e.gateway e.group e.window)

/-- Entries leave the store. -/
def State.leaveStore (s : State) (ids : List Nat) : State :=
  s.withRadius { s.radius with store := s.radius.store.filter fun e => !ids.contains e.id }

/-- Send one batch of records to a gateway: they leave the store as RELEASED. A batch that finds no cells is not released (R306). -/
def State.sendBatch (s : State) (gw : List Byte) (es : List StoreEntry) : State :=
  if es = [] then s
  else
    let (ok, s) := s.sendToGateway gw 2 es.length s.radius.batchSeq.toNat (es.flatMap (·.record))
    if !ok then s
    else
      let s := s.withRadius { s.radius with batchSeq := s.radius.batchSeq + 1 }
      es.foldl (fun s e => s.storeStatus e 1) (s.leaveStore (es.map (·.id)))

/-- Pack the records of one gateway into batches of at most 8,192 bytes and 255 records (R306). -/
def State.sendPacked (s : State) (gw : List Byte) : List StoreEntry → List StoreEntry → State
  | [], acc => s.sendBatch gw acc
  | r :: rs, acc =>
    let head := if leAt gw 9 1 = 2 then 24 else 16
    if acc ≠ [] ∧ (8192 < head + (acc.flatMap (·.record)).length + r.record.length ∨ 255 ≤ acc.length) then
      (s.sendBatch gw acc).sendPacked gw rs [r]
    else s.sendPacked gw rs (acc ++ [r])

/-- The entries that can be read; the others leave the store (R309). -/
def State.readable (s : State) (es : List StoreEntry) : List StoreEntry × State :=
  es.foldl (fun (x : List StoreEntry × State) e =>
    let (ok, s) := x.2.storeRead e
    if ok then (x.1 ++ [e], s) else (x.1, s.leaveStore [e.id])) ([], s)

/-- Release the ripe records of a queue. -/
def State.releaseQueue (s : State) (t queue : Nat) : State :=
  if s.radius.mode ≠ .running then s
  else
    let (due, s) := s.readable (s.radius.store.filter fun e => e.queue == queue && s.ripe t e)
    ((due.map (·.gateway)).eraseDups).foldl (fun s h =>
      let mine := due.filter (·.gateway == h)
      match s.areaRead (s.recAddr true h) with
      | (none, s) => mine.foldl (fun s e => s.recordBad e.sensor.toNat) (s.leaveStore (mine.map (·.id)))
      | (some gw, s) => s.sendPacked gw mine []) s

/-- The first release time that a queue waits for. -/
def State.nextRelease (s : State) (queue : Nat) : Option Nat :=
  ((s.radius.store.filter fun e => e.queue == queue && e.held.isNone && e.record != [] && s.gnomon.time ≤ e.window).map
    fun e => e.window - e.lead).foldl (fun (m : Option Nat) t => some (match m with | some x => min x t | none => t)) none

/-- DOWNLINK_WINDOW_RELEASE: at W - LEAD_US the records that are due go into batches (R306). -/
def execDownlinkWindowRelease (queue : Fin 8192) (s : State) : Out :=
  match s.nextRelease queue.val with
  | none => .next s
  | some t =>
    if s.radius.mode = .running then
      let s := s.passToTime t
      .next (s.releaseQueue s.gnomon.time queue.val)
    else .next s

/-- DOWNLINK_EXPIRY: a held request at the end of EXPIRY_MS, or a record that was not released by its window (R305, R306). -/
def execDownlinkExpiry (entry : Nat) (s : State) : Out :=
  match s.radius.store.find? (·.id == entry) with
  | none => .next s
  | some e =>
    if e.held.isNone ∧ (e.record = [] ∨ (s.radius.mode = .running ∧ s.gnomon.time ≤ e.window)) then .next s
    else
      let (ok, s) := (s.passToTime e.expiry).storeRead e
      let s := s.leaveStore [entry]
      .next (if ok then (s.storeStatus e 2).raise 0x1C8 (le 2 e.queue) else s)

end Sys2Proof.Machine
end

