-- ==== Sys2Proof/Machine/Sector.lean ====
section
/-! DEFINITION. Gate lists and the indirect window of Sector (chapter 15); SECTOR_DEQUEUE stands with the Prisms it feeds. -/

namespace Sys2Proof.Machine

/-! ### Gate lists -/

/-- The entries of a gate list buffer, or none where a reserved bit is set (R376). -/
def gateEntries (n : Nat) (bs : List Byte) : Option (List (BitVec 8 × Nat)) :=
  let es := (List.range n).map fun i => leAt bs (8 * i) 8
  if es.all fun e => bits e 32 16 == 0 && bits e 56 8 == 0 then some (es.map fun e => (BitVec.ofNat 8 (bits e 48 8), e % 2 ^ 32)) else none

/-- The body of GATE_LOAD (R376, R503). -/
def gateLoadBody (d : Desc) (s : State) : State :=
  let x := d.get 8 1
  let n := d.get 0xC 2
  let cycle := d.get 0x18 4
  let base := 1000000000 * d.get 0x1C 6 + d.get 0x22 4
  if 31 < x ∨ n = 0 ∨ 1024 < n ∨ cycle < 1000 ∨ 1000000000 < cycle ∨ 999999999 < d.get 0x22 4 then s.done d .badRequest
  else if (s.gate x).armed then s.done d .inUse
  else s.withBuf d .annulus (d.get 0x10 8) (8 * n) fun bs s =>
    match gateEntries n bs with
    | none => s.done d .badRequest
    | some es =>
      let l : GateList := { entries := es, cycle := cycle, start := base }
      (s.setGate x { s.gate x with pend := some l, armed := false, adjusted := false }).done d .ok

/-- GATE_LOAD (R376). -/
def execGateLoad (d : Desc) (s : State) : Out :=
  .next (ringCommand d 0 [(8, 1), (0xC, 2), (0x10, 8), (0x18, 4), (0x1C, 10)] (gateLoadBody d) s)

/-- The start of a list armed now: its base time, or the first base + N cycle at least 2 us ahead (R377). -/
def State.gateStart (s : State) (l : GateList) : Nat :=
  let bound := s.gnomon.time + 2000 + if 0 < s.gnomon.frac then 1 else 0
  if bound ≤ l.start then l.start else l.start + (bound - l.start + l.cycle - 1) / l.cycle * l.cycle

/-- The body of GATE_ARM (R377). -/
def gateArmBody (d : Desc) (s : State) : State :=
  let x := d.get 8 1
  if 31 < x then s.done d .badRequest
  else
    let p := s.gate x
    match p.pend with
    | none => s.done d .badRequest
    | some l =>
      if p.armed then s.done d .badRequest
      else
        let st := s.gateStart l
        let moved := st ≠ l.start
        let s := s.setGate x { p with armed := true, adjusted := p.adjusted || moved, pstart := st }
        let s := if moved then s.raise 0x0C1 (BitVec.ofNat 8 x :: time10 st) else s
        s.complete d { status := .ok, flags := b2n moved, r0 := st / 1000000000, r1 := st % 1000000000 }

/-- GATE_ARM (R377): the form without CANCEL. -/
def execGateArm (d : Desc) (s : State) : Out :=
  .next (if bitOf d.flags 0 then s else ringCommand d 1 [(8, 1)] (gateArmBody d) s)

/-- GATE_ARM with CANCEL (R377); a list that is not ARMED has nothing to cancel (log entry 45). -/
def execGateArmCancel (d : Desc) (s : State) : Out :=
  .next (if !bitOf d.flags 0 then s else ringCommand d 1 [(8, 1)] (fun s =>
    let x := d.get 8 1
    let p := s.gate x
    if 31 < x ∨ !p.armed ∨ p.pstart ≤ s.gnomon.time then s.done d .badRequest
    else (s.setGate x { p with armed := false }).done d .ok) s)

/-- The logical ports of gate port x, on its side. -/
def gateLps (x : Nat) : List Nat := (List.range 4).map (x % 16 * 4 + ·)

/-- The armed list of port x becomes operational (R377): heads that it never lets pass are dropped (R374). -/
def State.startGate (s : State) (x : Nat) : State :=
  let p := s.gate x
  match p.next with
  | none => s
  | some l =>
    let s := s.setGate x { p with oper := some l, pend := none, armed := false, which := !p.which }
    let s := s.raise 0x0C0 (BitVec.ofNat 8 x :: time10 l.start)
    let side := x / 16
    let qs := (s.sector.queues.filter fun e => e.1 / 4096 == side && (gateLps x).contains (qLport (s.srec (qKey side (e.1 % 4096))))).map
      (·.1 % 4096)
    qs.foldl (fun s q => s.newHead side q) s

/-- GATE_LIST_START: the start time of an armed list comes (R377). -/
def execGateListStart (x : Fin 32) (s : State) : Out :=
  let p := s.gate x.val
  .next (if p.armed then (s.passToTime p.pstart).startGate x.val else s)

/-- Every armed list whose start has come becomes operational (R375, R385). -/
def State.gatesDue (s : State) : State :=
  (List.range 32).foldl (fun s x => if (s.gate x).armed ∧ (s.gate x).pstart ≤ s.gnomon.time then s.startGate x else s) s

/-- GATE_ENTRY_ADVANCE: Gnomon time passes to the end of the operational list's current entry (R375). -/
def execGateEntryAdvance (x : Fin 32) (s : State) : Out :=
  match (s.gate x.val).oper with
  | none => .next s
  | some l => match l.at_ s.gnomon.time with
    | none => .next s
    | some e => .next (s.passToTime (s.gnomon.time - l.pos s.gnomon.time + e.2.2.1))

/-- SECTOR_GATE_STATUS_x (Table 15.9). -/
def State.gateStatus (s : State) (x : Nat) : Nat :=
  let p := s.gate x
  let pend := match p.pend with
    | none => 0
    | some _ => if p.armed then 2 else 1
  let (gates, cur) := match p.oper with
    | none => (0xFF, 0)
    | some l => match l.at_ s.gnomon.time with
      | some e => (e.1.toNat, e.2.2.2)
      | none => (0, 0)
  2 ^ 31 * b2n p.which + 2 ^ 29 * pend + 2 ^ 28 * b2n p.adjusted + 2 ^ 27 * b2n p.oper.isSome + 2 ^ 16 * cur + gates * 2 ^ 8

/-! ### The indirect window (R379) -/

/-- Index bound of a target. -/
def indLimit : Nat → Nat
  | 0 | 1 | 5 | 6 => 4096
  | 2 | 3 => 576
  | 4 => 65536
  | _ => 0

/-- Bits a record may hold in word w (Table 15.5). -/
def indMask (target index w : Nat) : Nat :=
  match target, w with
  | 0, 0 | 1, 0 => 0xFFE0FFFF
  | 0, 1 | 0, 2 | 1, 1 | 1, 2 => 0xFFFFF
  | 2, 0 | 3, 0 => if index < 512 then 0x7FFFF else 0
  | 0, 3 | 1, 3 | 2, 3 | 3, 3 | 0, 5 | 1, 5 | 2, 5 | 3, 5 | 4, 1 | 4, 3 => 0xFFFFFFFF
  | 0, 4 | 1, 4 | 2, 4 | 3, 4 | 0, 6 | 1, 6 | 2, 6 | 3, 6 | 4, 2 | 4, 4 => 0xFFFFFF
  | 4, 0 => 0xF0000000
  | 5, 0 | 6, 0 | 5, 1 | 6, 1 => 0xFFFFF
  | 5, 2 | 6, 2 => 0xFFFFFFFF
  | _, _ => 0

/-- The eight words of a record (Table 15.5). -/
def State.indWords (s : State) (target index : Nat) : List Nat :=
  if target = 5 ∨ target = 6 then
    let side := target - 5
    let h := tget (0, 0) s.sector.hwm (qInst side index)
    [depthOf (s.sq side index), h.1, h.2, 0, 0, 0, 0, 0]
  else (List.range 8).map (srecWord (s.srec (recKey target index)))

/-- Refuse an indirect access (R379). -/
def State.indRefuse (s : State) (target index : Nat) : State :=
  (s.orReg 0x01000000 (2 ^ 28)).raise 0x0C5 (BitVec.ofNat 8 target :: le 2 index)

/-- Offset of SECTOR_IND_DATA_k. -/
def indData (k : Nat) : Nat := 0x01000010 + 4 * k

/-- Store a record (R364, R367, R371, R378, R379). -/
def State.indStore (s : State) (target index : Nat) (ws : List Nat) : State :=
  let k := recKey target index
  if target = 5 ∨ target = 6 then s.withSector { s.sector with hwm := tput (0, 0) s.sector.hwm (qInst (target - 5) index) (0, 0) }
  else
    let v := ws.zipIdx.foldl (fun (a : Nat) (e : Nat × Nat) => a + e.1 * 2 ^ (32 * e.2)) 0
    let weighed := target < 2 || ((target = 2 || target = 3) && index < 512)
    let v := if weighed ∧ v % 65536 = 0 then v + 1 else v
    let old := s.srec k
    if target < 2 ∧ s.sq target index ≠ [] ∧ (qLport v ≠ qLport old ∨ qGroup v ≠ qGroup old) then s.indRefuse target index
    else
      let s := s.withSector { s.sector with recs := tput 0 s.sector.recs k (BitVec.ofNat 256 v) }
      let s := s.fillBuckets k
      let burst := s.bburst k 0
      if target < 2 ∧ qToken v ∧ burst < s.headLen target index then s.newHead target index
      else if target < 2 then s.retag target index
      else if (target = 2 ∨ target = 3) ∧ index < 512 then
        let gt := groupTag (target - 2) (index / 8) (index % 8)
        let s := if gPrio v ≠ gPrio old then s.setTag gt none else s
        match s.groupQueues (target - 2) (index / 8) (index % 8) with
        | [] => s
        | q :: _ => s.retag (target - 2) q
      else s

/-- A write of SECTOR_IND_CTRL (Table 15.6): the access completes within the step, so BUSY is never seen set. -/
def State.indCtrl (s : State) (v : Nat) : State :=
  let s := s.setReg 0x01000000 (BitVec.ofNat 32 ((v &&& 0x4F00FFFF) ||| (s.regN 0x01000000 &&& 0x10000000 &&& (0xFFFFFFFF - v &&& 0xFFFFFFFF))))
  let target := bits v 24 4
  let index := bits v 0 16
  if !bitOf v 31 then s
  else if indLimit target ≤ index then s.indRefuse target index
  else if !bitOf v 30 then
    (s.indWords target index).zipIdx.foldl (fun s (e : Nat × Nat) => s.setReg (indData e.2) (BitVec.ofNat 32 e.1)) s
  else
    let ws := (List.range 8).map fun k => s.regN (indData k)
    let srtcm := target == 4 && bits (ws.getD 0 0) 29 2 == 0
    if (ws.zipIdx.any fun (e : Nat × Nat) => (e.1 &&& indMask target index e.2) != e.1) ∨ (srtcm ∧ ws.getD 3 0 ≠ 0) then
      s.indRefuse target index
    else s.indStore target index ws

/-- IND_READ (R379): the word is written with GO 1 and WRITE 0. -/
def execIndRead (value : Word32) (s : State) : Out := if s.halted then .next s else .next (s.indCtrl ((value ||| 0x80000000#32) &&& 0xBFFFFFFF#32).toNat)

/-- IND_WRITE (R379): the word is written with GO 1 and WRITE 1. -/
def execIndWrite (value : Word32) (s : State) : Out := if s.halted then .next s else .next (s.indCtrl (value ||| 0xC0000000#32).toNat)

end Sys2Proof.Machine
end

