-- ==== Sys2Proof/Machine/Telemetry.lean ====
section
/-! DEFINITION. Telemetry: event records, counter reads, freezes and captures (chapter 22). -/

namespace Sys2Proof.Machine

/-- Write a TeleState. -/
def State.withTele (s : State) (t : TeleState) : State := { s with tele := t }

/-- The first 8 data bytes of an event, zero-padded, and whatever exceeds them (Table 20.7, R517). -/
def eventData (data : List Byte) : List Byte × List Byte := (slice data 0 8, data.drop 8)

/-- One 16-byte event record (Table 20.7). -/
def eventRecord (t : Taken) (phase lost more : Bool) (seq : Nat) : List Byte :=
  le 2 (32768 * b2n phase + 8192 * b2n lost + 4096 * b2n more + 1024 * b2n t.clear + t.ev) ++ le 2 seq ++
    le 4 (2 ^ 30 * (t.sec % 4) + t.ns) ++ (eventData t.data).1

/-- The continuation record (R474). -/
def contRecord (t : Taken) (phase : Bool) (seq : Nat) : List Byte :=
  le 2 (32768 * b2n phase + 2048 + 1024 * b2n t.clear + t.ev) ++ le 2 seq ++ slice (eventData t.data).2 0 12

/-- Records an event takes (R474). -/
def Taken.records (t : Taken) : Nat := if t.data.length ≤ 8 then 1 else 2

/-- Write one record at the ring's producer index and advance it. -/
def State.putEventRecord (s : State) (e : Nat) (bs : List Byte) : Bool × State :=
  let ring := s.ring .event e
  let (ok, s) := s.writeMem .annulus 0 (ring.slotAddr ring.pi.toNat 16) bs
  if ok then (true, s.setRing .event e (({ s.ring .event e with seq := ring.seq + 1, lostFlag := false }).advance s.clk false))
  else (false, s.ringError .event e 2)

/-- Write a taken raise into its running ring, or drop it where the ring cannot take it whole (R474). `lost` forces LOST. -/
def State.writeTaken (s : State) (t : Taken) (lost : Bool) : State :=
  let ring := s.ring .event t.ring
  if ring.cap < idxDiff ring.pi ring.ci + t.records then
    let ring := { ring with lost := ring.lost + 1, lostFlag := true, lostSince := ring.lostSince + 1 }
    let s := s.setRing .event t.ring ring
    if s.once.contains (onceKey 0x042 t.ring) then s
    else
      let n := ring.lostSince
      (s.setRing .event t.ring { ring with lostSince := 0 }).raiseOnce 0x042 t.ring (BitVec.ofNat 8 t.ring :: le 4 n)
  else
    match s.putEventRecord t.ring (eventRecord t ring.phase (ring.lostFlag || lost) (t.records = 2) ring.seq.toNat) with
    | (false, s) => s
    | (true, s) =>
      if t.records = 1 then s
      else
        let ring := s.ring .event t.ring
        (s.putEventRecord t.ring (contRecord t ring.phase ring.seq.toNat)).2

/-- The first held group-0 record whose ring runs, and the rest (R62). -/
def State.nextHeld (s : State) : Option (Taken × List Taken) :=
  match s.tele.held.find? fun t => (s.ring .event (s.evtRing t.ev)).state == .running with
  | some t => some (t, s.tele.held.erase t)
  | none => none

/-- Event 0x342 once the store has room after raises were dropped (R518). -/
def State.reportDrops (s : State) : State :=
  if s.tele.dropPending = 0 ∨ s.once.contains (onceKey 0x342 0) then s
  else
    let n := s.tele.dropPending
    (s.withTele { s.tele with dropPending := 0 }).raiseOnce 0x342 0 (le 2 (min n 65535))

/-- EVENT_RECORD_WRITE: a held group-0 record whose ring runs is written first, else the oldest taken raise; drops
that are not reported yet are, once the store has room (R62, R516, R518). -/
def execEventRecordWrite (s : State) : Out :=
  match s.nextHeld with
  | some (t, rest) =>
    let lost := s.tele.heldLost
    let s := s.withTele { s.tele with held := rest }
    let t := { t with ring := s.evtRing t.ev }
    if s.evtCfg t.ev / 2 ^ 31 = 0 then .next s
    else
      let room : Bool := decide (idxDiff (s.ring .event t.ring).pi (s.ring .event t.ring).ci + t.records ≤ (s.ring .event t.ring).cap)
      let u := s.writeTaken t lost
      .next (if room then u.withTele { u.tele with heldLost := false } else u)
  | none =>
    match s.tele.store with
    | [] => .next s.reportDrops
    | t :: rest => .next ((s.withTele { s.tele with store := rest }).writeTaken t false).reportDrops

/-! ### Counter reads (R519) -/

/-- Counters per instance and instances of each BLOCK of Table 22.2. -/
def blockShape : Nat → Nat × Nat
  | 0x01 => (3, 64) | 0x02 => (4, 64) | 0x03 => (12, 64) | 0x04 => (8, 64) | 0x05 => (2, 17) | 0x06 => (22, 4097)
  | 0x07 => (21, 128) | 0x08 => (8, 256) | 0x09 => (2, 256) | 0x0A => (10, 8192) | 0x0B => (2, 65536) | 0x0C => (6, 32)
  | 0x0D => (2, 4) | 0x0E => (3, 1) | 0x0F => (3, 64) | _ => (0, 0)

/-- A counter ID names a counter (R519). -/
def counterExists (id : Nat) : Bool :=
  let (n, i) := blockShape (bits id 26 6)
  bits id 20 6 < n && bits id 0 20 < i

/-- A write of TELE_CNT_ID clears CNT_READY and starts, or restarts, a read (R519). -/
def State.counterAsk (s : State) (v : Word32) : State :=
  let s := s.setReg 0x03E00010 v
  s.withTele { s.tele with cntReady := false, cntPending := some v }

/-- COUNTER_READ (R519). -/
def execCounterRead (value : Word32) (s : State) : Out := if s.halted then .next s else .next (s.counterAsk value)

/-- COUNTER_READ_READY: the value as it stands is placed in TELE_CNT_LO and HI and CNT_READY sets; an ID that names no counter sets
CNT_ERR and reads 0 (R519). -/
def execCounterReadReady (s : State) : Out :=
  match s.tele.cntPending with
  | none => .next s
  | some id =>
    let ok := counterExists id.toNat
    .next (s.withTele { s.tele with
      cntReady := true, cntPending := none, cntErr := s.tele.cntErr || !ok
      cntValue := if ok then s.counter id.toNat else 0 })

/-- A programmable counter's value now: KIND 10b counts Gnomon nanoseconds elapsed (R520). -/
def State.progNow (s : State) (k : Nat) : ProgCounter := tget ProgCounter.reset s.tele.progs k

/-- PC_LO_READ: a read of TELE_PC_LO_k answers the low half and latches the high (R568, Table 22.19). -/
def execPcLoRead (k : Fin 2048) (s : State) : Out :=
  let v := (s.progNow k.val).value
  .next { s.withTele { s.tele with pcHi := tput 0 s.tele.pcHi k.val (v.extractLsb' 32 16) } with
    readValue := v.extractLsb' 0 32 }

/-! ### Freeze (R521) -/

/-- Change the two causes of FROZEN; a change of FROZEN raises 0x344 with the new state and the cause (R521, R573). -/
def State.setFrozen (s : State) (cmd pin : Bool) (cause : Nat) : State :=
  let old := s.frozen
  let s := s.withTele { s.tele with cmdFrozen := cmd, pinFrozen := pin }
  if s.frozen = old then s else s.raise 0x344 [BitVec.ofNat 8 (b2n s.frozen), BitVec.ofNat 8 cause]

/-- SNAPSHOT_FREEZE (R521, R512). -/
def execSnapshotFreeze (d : Desc) (s : State) : Out :=
  .next (ringCommand d 0 [(8, 1)] (fun s =>
    if d.get 8 1 ≠ 2 then s.done d .badRequest else (s.setFrozen true s.tele.pinFrozen 0).done d .ok) s)

/-- SNAPSHOT_THAW (R521, R512). -/
def execSnapshotThaw (d : Desc) (s : State) : Out :=
  .next (ringCommand d 0 [(8, 1)] (fun s =>
    if d.get 8 1 ≠ 3 then s.done d .badRequest else (s.setFrozen false s.tele.pinFrozen 0).done d .ok) s)

/-! ### Captures (R522 to R524) -/

/-- The section header of RESYNC and captures: type, 2 bytes 0, length including the header (R484). -/
def section8 (ty len : Nat) : List Byte := le 2 ty ++ le 2 0 ++ le 4 len

/-- A block's section: every counter, instance-major (Table 22.3). -/
def State.blockSection (s : State) (b : Nat) : List Byte :=
  let (c, n) := blockShape b
  section8 (0x100 + b) (16 + 8 * c * n) ++ le 2 c ++ le 2 0 ++ le 4 n ++
    (List.range n).flatMap fun i => (List.range c).flatMap fun k => le 8 (s.counter (cid b k i)).toNat

/-- The blocks TELE_SNAP_CFG selects (Table 22.10). -/
def State.snapBlocks (s : State) : List Nat := (List.range 15).filterMap fun i =>
  if bitOf (s.regN 0x03E00020) i then some (i + 1) else none

/-- Length of a capture (R522). -/
def State.captureLen (s : State) : Nat :=
  64 + (8 + 16384) + (8 + 128) + (8 + 4096) +
    (s.snapBlocks.map fun b => 16 + 8 * (blockShape b).1 * (blockShape b).2).sum

/-- The bytes of a capture at instant c (Table 22.3). -/
def State.captureBytes (s : State) (trigger c : Nat) : List Byte :=
  le 4 0x50414E53 ++ le 2 1 ++ le 2 (3 + s.snapBlocks.length) ++ le 4 s.captureLen ++
    [BitVec.ofNat 8 trigger, BitVec.ofNat 8 (b2n s.frozen)] ++ le 2 0 ++ time10 c ++ List.replicate 38 0 ++
    section8 1 (8 + 16384) ++ (List.range 2048).flatMap (fun k =>
      let p := s.progNow k
      le 8 (p.value.toNat + 2 ^ 63 * b2n p.wrap)) ++
    section8 2 (8 + 128) ++ (List.range 32).flatMap (fun g => le 4 (tget 0 s.tele.evtStatus g).toNat) ++
    section8 3 (8 + 4096) ++ (List.range 1024).flatMap (fun i => le 4 (tget 0 s.tele.raises i).toNat) ++
    s.snapBlocks.flatMap s.blockSection

/-- Buffer address and length of a capture request. -/
def State.captureBuf (s : State) : CaptureOf → Nat × Nat
  | .now d => (d.get 0x18 8, d.get 0x20 4)
  | .atTime d => (d.get 0x18 8, d.get 0x20 4)
  | .pin => (s.regN 0x03E00024 + 2 ^ 32 * bits (s.regN 0x03E00028) 0 8, s.regN 0x03E0002C)

/-- Trigger code of a capture (Table 22.3). -/
def CaptureOf.code : CaptureOf → Nat
  | .now _ => 0 | .atTime _ => 1 | .pin => 2

/-- Carry out a capture at instant c: write it and complete its command, or raise 0x340; a short buffer is left unwritten (R522). -/
def State.doCapture (s : State) (q : CaptureOf) (c : Nat) : State :=
  let len := s.captureLen
  let (a, n) := s.captureBuf q
  match q with
  | .pin =>
    if n < len then s.raise 0x341 [1]
    else
      let (ok, s) := s.writeMem .annulus 0 a (s.captureBytes 2 c)
      if ok then s.raise 0x340 (le 4 len ++ time10 c) else s
  | .now d =>
    if n < len then s.complete d { status := .bufferFull, r0 := len }
    else s.writeBufDone d .annulus a (s.captureBytes 0 c)
      { status := .ok, r0 := len, r1 := c / 1000000000 % 2 ^ 32 + 2 ^ 32 * (c % 1000000000) }
  | .atTime d =>
    if n < len then s.complete d { status := .bufferFull, r0 := len }
    else s.writeBufDone d .annulus a (s.captureBytes 1 c)
      { status := .ok, r0 := len, r1 := c / 1000000000 % 2 ^ 32 + 2 ^ 32 * (c % 1000000000) }

/-- A request for a capture whose instant has come: it runs, or waits as the one further request; where one waits already, a pin
request is ignored with cause BUSY (R524), and a command's request completes with BUSY (log entry 13). -/
def State.requestCapture (s : State) (q : CaptureOf) : State :=
  match s.tele.running with
  | none => s.withTele { s.tele with running := some (q, s.gnomon.time) }
  | some _ =>
    match s.tele.waiting with
    | none => s.withTele { s.tele with waiting := some (q, none) }
    | some _ => match q with
      | .pin => s.raise 0x341 [0]
      | .now d => s.done d .busy
      | .atTime d => s.done d .busy

/-- The fields of a SNAPSHOT NOW or AT_TIME body (R512). -/
def snapTime (d : Desc) : Nat := 1000000000 * d.get 0xC 6 + d.get 0x12 4

/-- SNAPSHOT_NOW: C is the clock in which the command starts (R523). -/
def execSnapshotNow (d : Desc) (s : State) : Out :=
  .next (ringCommand d 0 [(8, 1), (0x18, 12)] (fun s =>
    if d.get 8 1 ≠ 0 then s.done d .badRequest else s.requestCapture (.now d)) s)

/-- SNAPSHOT_AT_TIME: armed for a Gnomon time; one that has passed captures at once; a second one is BUSY (R512, R385). -/
def execSnapshotAtTime (d : Desc) (s : State) : Out :=
  .next (ringCommand d 0 [(8, 1), (0xC, 10), (0x18, 12)] (fun s =>
    if d.get 8 1 ≠ 1 ∨ 999999999 < d.get 0x12 4 then s.done d .badRequest
    else if s.tele.armed.isSome then s.done d .busy
    else if snapTime d ≤ s.gnomon.time then s.requestCapture (.atTime d)
    else s.withTele { s.tele with armed := some (d, snapTime d) }) s)

/-- Instant C of a pin capture whose edge is stamped t: 200 ns later, or the first time from there whose nanoseconds value is a multiple
of ALIGN_US × 1,000; 0 at the next second is one (R523). -/
def pinInstant (align t : Nat) : Nat :=
  let t := t + 200
  let al := 1000 * align
  if al = 0 then t else 1000000000 * (t / 1000000000) + min 1000000000 ((t % 1000000000 + al - 1) / al * al)

/-- SNAP_IN takes a level while PIN_FREEZE is 0: an edge of the selected polarity is stamped and requests a pin capture (R523, R524). -/
def State.snapEdge (s : State) (cfg : Nat) (edge : Bool) : State :=
  if !edge then s
  else if s.regN 0x03E0002C = 0 then s.raise 0x341 [2]
  else if s.tele.waiting.isSome ∨ s.tele.pinDue.isSome then s.raise 0x341 [0]
  else s.withTele { s.tele with pinDue := some (pinInstant (bits cfg 16 12) s.gnomon.time) }

/-- SNAP_IN takes a level: it freezes at its active level, or its edge captures, as TELE_SNAP_CFG selects (R521, R523, Table 22.10). -/
def State.snapPin (s : State) (level : Bool) : State :=
  let cfg := s.regN 0x03E00020
  let active := !bitOf cfg 29
  let edge := level != s.tele.snapIn && level == active
  let s := s.withTele { s.tele with snapIn := level }
  if s.apex.held ∨ !bitOf cfg 31 then s
  else if bitOf cfg 30 then s.setFrozen s.tele.cmdFrozen (level == active) 1
  else s.snapEdge cfg edge

/-- SNAP_IN_EDGE (R523). -/
def execSnapInEdge (level : Bool) (s : State) : Out := .next (s.snapPin level)

/-- SNAP_IN_FREEZE_LEVEL (R521). -/
def execSnapInFreezeLevel (level : Bool) (s : State) : Out := .next (s.snapPin level)

/-- An armed AT_TIME or a stamped pin edge whose instant has come becomes a request; AT_TIME goes first (R385, R524). -/
def State.captureDue (s : State) : State :=
  let s := match s.tele.armed with
    | some (d, t) => if t ≤ s.gnomon.time then (s.withTele { s.tele with armed := none }).requestCapture (.atTime d) else s
    | none => s
  match s.tele.pinDue with
  | some t => if t ≤ s.gnomon.time then (s.withTele { s.tele with pinDue := none }).requestCapture .pin else s
  | none => s

/-- The first instant for which a capture is armed. -/
def State.captureAt (s : State) : Nat :=
  match s.tele.armed, s.tele.pinDue with
  | some (_, t), some p => min t p
  | some (_, t), none => t
  | none, some p => p
  | none, none => s.gnomon.time

/-- CAPTURE: at instant C the running capture is taken and written; the waiting one then runs (R522 to R524). With none running,
time passes to the first armed instant. -/
def execCapture (s : State) : Out :=
  let s := if s.tele.running.isSome then s else (s.passToTime s.captureAt).captureDue
  match s.tele.running with
  | none => .next s
  | some (q, c) =>
    let s := (s.withTele { s.tele with running := none }).doCapture q c
    match s.tele.waiting with
    | none => .next s
    | some (w, _) => .next (s.withTele { s.tele with waiting := none, running := some (w, s.gnomon.time) })

end Sys2Proof.Machine
end

