-- ==== Sys2Proof/Machine/Due.lean ====
section
/-! DEFINITION. The time triggers that a change of Gnomon time passes (R385). -/

namespace Sys2Proof.Machine

/-- Every downlink record whose release time has come by now leaves the store, its window start not past at time t (R306, R385). -/
def State.releasesDue (s : State) (t : Nat) : State :=
  ((s.radius.store.map (·.queue)).eraseDups).foldl (fun s q => s.releaseQueue t q) s

/-- Gnomon time has gone from t to now in one cycle: every armed trigger that is due fires (R385): rotations, gate lists, snapshots,
downlink windows. -/
def State.fireDue (s : State) (t : Nat) : State := (s.fireRotations.gatesDue.captureDue).releasesDue t

end Sys2Proof.Machine
end

