-- ==== Sys2Proof/Machine/Gnomon.lean ====
section
/-! DEFINITION. The Gnomon commands (chapter 16). -/

namespace Sys2Proof.Machine

/-- A change of Gnomon time by SET or STEP (R384 to R386): event 0x0E1, one STEPPED tick where a second boundary is crossed
forward, and every trigger now due fires. -/
def State.jumpTo (s : State) (t frac : Nat) : State :=
  let old := s.gnomon.time
  let s := (s.withGnomon { s.gnomon with time := t, frac := frac }).raise 0x0E1 (time10 old ++ time10 t)
  let s := if old / 1000000000 < t / 1000000000 then s.tick true else s
  s.fireDue old

/-- Set LOAD_ERR: a SET or STEP was ignored (R384). -/
def State.loadError (s : State) : State := s.withGnomon { s.gnomon with loadErr := true }

/-- A free time of at most n ns passes: the instant at which a write takes effect is not fixed (R382, R384, log entry 11). -/
def State.within (s : State) (n : Nat) : State :=
  let (k, s) := s.draw 10
  s.pass (k % (n + 1))

/-- The SET and STEP bits of a GNOMON_CTRL write: the change comes within 50 ns of it (R384). -/
def State.setOrStep (s : State) (v : Nat) : State :=
  if bitOf v 31 ∧ bitOf v 30 then s.loadError
  else if bitOf v 31 then
    let ns := s.regN 0x01400010
    if ns > 999999999 then s.loadError
    else (s.within 50).jumpTo (1000000000 * (s.regN 0x01400014 + 2 ^ 32 * bits (s.regN 0x01400018) 0 16) + ns) 0
  else if bitOf v 30 then
    let n := (s.reg 0x01400010).toInt
    if (s.gnomon.time : Int) + n < 0 then s.loadError
    else
      let s := s.servoUpdate.within 50
      s.jumpTo (((s.gnomon.time : Int) + n).toNat % (2 ^ 48 * 1000000000)) s.gnomon.frac
  else s

/-- A write of GNOMON_CTRL: SET or STEP first, then HOLD_MS and LOCK (R387, Table 16.10). HOLDOVER lasts while the synthesiser has no
lock (Table 23.2). -/
def State.gnomonCtrl (s : State) (v : Nat) : State :=
  let s := s.setOrStep v
  let hold := bits v 0 16
  let s := s.setReg 0x0140001C (BitVec.ofNat 32 (2 ^ 29 * b2n (bitOf v 29) + if hold = 0 then 1 else hold))
  if bitOf v 29 then
    let s := s.servoUpdate
    if s.gnomon.mode = .holdover ∧ ¬ s.gnomon.pllLocked then s else s.setGnomonMode .locked
  else if s.gnomon.mode = .locked then s.setGnomonMode .holdover else s

/-- GNOMON_SET: a GNOMON_CTRL write with SET 1 (R384). -/
def execGnomonSet (value : Word32) (s : State) : Out := if s.halted then .next s else .next (s.gnomonCtrl value.toNat)

/-- GNOMON_STEP: a GNOMON_CTRL write with STEP 1 (R384). -/
def execGnomonStep (value : Word32) (s : State) : Out := if s.halted then .next s else .next (s.gnomonCtrl value.toNat)

/-- LOCK_WRITE: every GNOMON_CTRL write writes LOCK (R387). -/
def execLockWrite (value : Word32) (s : State) : Out := if s.halted then .next s else .next (s.gnomonCtrl value.toNat)

/-- The RATE a write stores: clamped to plus or minus 549,755,814 (R382). -/
def clampRate (v : Word32) : Word32 :=
  if v.toInt > 549755814 then BitVec.ofInt 32 549755814
  else if v.toInt < -549755814 then BitVec.ofInt 32 (-549755814)
  else v

/-- A write of GNOMON_RATE (R382, R387): the time runs on at the former rate until the new one takes effect, within 1 us. -/
def State.rateWrite (s : State) (v : Word32) : State :=
  let s := if clampRate v = v then s.servoUpdate else s.servoUpdate.raise 0x0E5 []
  (s.within 1000).setReg 0x01400020 (clampRate v)

/-- RATE_WRITE (R382, R387). -/
def execRateWrite (value : Word32) (s : State) : Out := if s.halted then .next s else .next (s.rateWrite value)

/-- SERVO_TIMEOUT: HOLD_MS has passed without a servo update; LOCKED moves to HOLDOVER (R387). -/
def execServoTimeout (s : State) : Out :=
  match s.gnomon.servoDue with
  | some t =>
    if s.gnomon.mode = .locked then
      let s := s.passTo t
      .next ((s.withGnomon { s.gnomon with servoDue := none }).setGnomonMode .holdover)
    else .next s
  | none => .next s

/-- SECOND_TICK: time passes to the next second boundary and the tick is sent (R386). -/
def execSecondTick (s : State) : Out := if s.halted then .next s else .next (s.pass s.untilTick)

/-- PPS_OUT_PULSE_END: PPS_OUT falls WIDTH_MS after it rose (R392). -/
def execPpsOutPulseEnd (s : State) : Out :=
  match s.gnomon.ppsFall with
  | some t =>
    let s := s.passTo t
    .next (s.withGnomon { s.gnomon with ppsOut := false, ppsFall := none })
  | none => .next s

/-- PPS_IN_EDGE: the pin takes a level; an edge of the selected polarity latches its Gnomon time and sets NEW (R392). -/
def execPpsInEdge (level : Bool) (s : State) : Out :=
  let cfg := s.regN 0x01400028
  if ¬ s.halted ∧ bitOf cfg 30 ∧ level ≠ s.gnomon.ppsIn ∧ level = !bitOf cfg 29 then
    .next (s.withGnomon { s.gnomon with
      ppsIn := level, ppsNew := true, ppsNs := s.gnomon.time % 1000000000, ppsSec := s.sec % 2 ^ 32
      ppsLast := s.clk, ppsMissing := false })
  else .next (s.withGnomon { s.gnomon with ppsIn := level })

/-- PPS_IN_MISSING: 1.1 s pass without an edge; 0x0E3 is raised once until an edge arrives (R392). -/
def execPpsInMissing (s : State) : Out :=
  if bitOf (s.regN 0x01400028) 30 ∧ ¬ s.gnomon.ppsMissing then
    let s := s.passTo (s.gnomon.ppsLast + 1100000000)
    .next ((s.withGnomon { s.gnomon with ppsMissing := true }).raise 0x0E3 [])
  else .next s

/-- The time-of-day message after the PPS_OUT edge of second sec (Table 16.4). -/
def State.todMessage (s : State) (sec : Nat) : List Byte :=
  let cfg := s.regN 0x01400034
  let m : List Byte := [0xA5, 0x5A, 1, BitVec.ofNat 8 (gnomonCode s.gnomon.mode)] ++ be 6 sec ++ be 2 (bits cfg 0 16) ++
    [BitVec.ofNat 8 (bits cfg 25 3), BitVec.ofNat 8 (bits cfg 16 8)]
  m ++ be 2 (Crypto.crc16 m).toNat

/-- TOD_MESSAGE_SEND: 1 ms after a PPS_OUT edge the message starts on TOD_TXD, while TX_EN is 1 (R393). -/
def execTodMessageSend (s : State) : Out :=
  match s.gnomon.todDue with
  | some (sec, t) =>
    let s := s.passTo t
    let s := s.withGnomon { s.gnomon with todDue := none }
    if bitOf (s.regN 0x01400034) 31 then .next (s.withGnomon { s.gnomon with todSent := s.todMessage sec }) else .next s
  | none => .next s

/-- TOD_BYTE_RECEIVE: a byte on TOD_RXD enters the 64-byte FIFO or is lost (R393). -/
def execTodByteReceive (b : Byte) (s : State) : Out := if s.halted then .next s else
  if s.gnomon.todFifo.length < 64 then .next (s.withGnomon { s.gnomon with todFifo := s.gnomon.todFifo ++ [b] })
  else .next (s.withGnomon { s.gnomon with todOvf := true })

/-- TOD_RX_READ: a read of GNOMON_TOD_RX answers VALID and the oldest byte, and removes it (R393, Table 16.16). -/
def execTodRxRead (s : State) : Out :=
  match s.gnomon.todFifo with
  | [] => .next { s with readValue := 0 }
  | b :: bs => .next { s.withGnomon { s.gnomon with todFifo := bs } with readValue := BitVec.ofNat 32 (2 ^ 31 + b.toNat) }

/-- TXTS_ENTRY_REMOVE: a read of GNOMON_TXTS_W3_x answers word 3 of the oldest entry and removes it (R391). -/
def execTxtsEntryRemove (x : Fin 32) (s : State) : Out :=
  match tget [] s.gnomon.txts x.val with
  | [] => .next { s with readValue := 0 }
  | e :: q => .next { s.withGnomon { s.gnomon with txts := tput [] s.gnomon.txts x.val q } with
      readValue := e.extractLsb' 96 32 }

/-- NOW_NS_READ: a read of GNOMON_NOW_NS answers the nanoseconds and latches seconds and fraction (R568, Tables 16.7, 16.8). -/
def execNowNsRead (s : State) : Out :=
  let sec := s.sec
  .next { s.withGnomon { s.gnomon with
      latch := BitVec.ofNat 64 (sec % 2 ^ 48 + 2 ^ 48 * (s.gnomon.frac / 2 ^ 24 % 65536)) } with
    readValue := BitVec.ofNat 32 (s.gnomon.time % 1000000000) }

end Sys2Proof.Machine
end

