-- ==== Sys2Proof/Machine/Hull.lean ====
section
/-! DEFINITION. The Hull commands (chapter 17, R506). -/

namespace Sys2Proof.Machine

/-- The memory field of a Hull command; 0 HBM, 1 DDR (R506). -/
def hullMem (d : Desc) : MemKind := if d.get 9 1 = 0 then .hbm else .ddr

/-- The region a Hull command names. -/
def hullKey (d : Desc) : Nat := regionKey (hullMem d) (d.get 10 1 % 16)

/-- The fields every Hull command checks: MEMORY 0 or 1, REGION 0 to 15 (R506). -/
def hullFieldsOk (d : Desc) : Bool := d.get 9 1 < 2 && d.get 10 1 < 16

/-- Two ranges of bytes share a byte. -/
def overlaps (a n b m : Nat) : Bool := a < b + m && b < a + n && 0 < n && 0 < m

/-- A range lies wholly inside one installed row of Table 17.1 of a memory (R396, R399). -/
def State.inRow (s : State) (m : MemKind) (a n : Nat) : Bool :=
  match m with
  | .hbm => a + n ≤ 0x0800000000
  | .ddr =>
    (0x1000000000 ≤ a && a + n ≤ 0x1000000000 + 2 ^ 30 * s.hull.gib0.toNat) ||
    (0x2000000000 ≤ a && a + n ≤ 0x2000000000 + 2 ^ 30 * s.hull.gib1.toNat)

/-- The geometry of a CREATE keeps R399 and R409 with every other region of the memory (R402). -/
def State.geometryOk (s : State) (m : MemKind) (base size mb ms : Nat) : Bool :=
  s.inRow m base size && (ms == 0 || (s.inRow m mb ms && !overlaps base size mb ms)) &&
  s.hull.regions.all fun e => e.2.state == .off ||
    !(overlaps base size e.2.lo e.2.bytes || overlaps base size e.2.metaLo e.2.metaLen ||
      overlaps mb ms e.2.lo e.2.bytes || overlaps mb ms e.2.metaLo e.2.metaLen)

/-- A fresh region key under a fresh mask, each from the Axis DRBG (R81, R400). -/
def State.drawHk (s : State) : HkHalf × State :=
  let (k, s) := s.drbg 256
  let (m, s) := s.drbg 256
  ({ sh := Shares.of k m, maskAt := s.clk }, s)

/-- Create a region: its keys are drawn into its two HK slots and it becomes ACTIVE, or INIT while its fill runs (R400, R402). -/
def State.createRegion (s : State) (k : Nat) (integ : Bool) (rights base size mb ms : Nat) (fill : Option (BitVec 64))
    (work : Option Desc) : State :=
  let (a, s) := s.drawHk
  let (b, s) := s.drawHk
  let lo := base / 64
  let s := { s with hull := { s.hull with
      badLines := s.hull.badLines.filter fun e => !(lo ≤ e.1 && e.1 < lo + size / 64) } }
  let r : Region := { Region.reset with
    integ := integ, rights := BitVec.ofNat 14 rights, base := BitVec.ofNat 14 (base / 2 ^ 26)
    size := BitVec.ofNat 12 (size / 2 ^ 26), metaBase := if integ then BitVec.ofNat 18 (mb / 2 ^ 22) else 0
    metaSize := BitVec.ofNat 13 (ms / 2 ^ 22), k1 := a, k2 := b }
  match fill with
  | some p => s.setRegion k { r with state := .init, work := work, filling := some (0, size, p) }
  | none =>
    let e := s.hull.epoch + 1
    let s := { s with hull := { s.hull with epoch := e }, mem := s.mem.fill { base := base, len := size, pat := none, epoch := e } }
    (s.losePending base size).setRegion k { r with state := .active }

/-- HULL_REGION_SET CREATE after the header checks (R402, R506). -/
def hullCreateBody (d : Desc) (s : State) : State :=
  let integ := d.get 11 1 = 1
  let fill := bitOf d.flags 0
  let size := d.get 0x18 8
  let ms := if integ then metaBytes size else 0
  if ¬ hullFieldsOk d ∨ d.get 8 1 ≠ 0 ∨ 1 < d.get 11 1 ∨ 2 ^ 14 ≤ d.get 12 4 ∨ (¬ fill ∧ d.get 0x28 8 ≠ 0) ∨ (integ ∧ ¬ fill) ∨
      2 ^ 40 ≤ d.get 0x10 8 ∨ 2 ^ 40 ≤ size ∨ size = 0 ∨ size % 2 ^ 26 ≠ 0 ∨ d.get 0x10 8 % 2 ^ 26 ≠ 0 ∨
      (integ ∧ d.get 0x20 8 % 2 ^ 22 ≠ 0) then s.done d .badRequest
  else if ¬ s.axis.serving then s.done d .busy
  else if (s.region (hullKey d)).state ≠ .off ∨ ¬ s.geometryOk (hullMem d) (d.get 0x10 8) size (d.get 0x20 8) ms then
    s.done d .badRequest
  else
    let s := s.createRegion (hullKey d) integ (d.get 12 4) (d.get 0x10 8) size (d.get 0x20 8) ms
      (if fill then some (BitVec.ofNat 64 (d.get 0x28 8)) else none) (some d)
    if fill then s else s.complete d { status := .ok, r0 := ms }

/-- HULL_REGION_CREATE (R402). -/
def execHullRegionCreate (d : Desc) (s : State) : Out :=
  .next (ringCommand d 1 [(8, 8), (0x10, 32)] (hullCreateBody d) s)

/-- HULL_REGION_SET RIGHTS after the header checks: new rights for every access accepted from now on (R406). -/
def hullRightsBody (d : Desc) (s : State) : State :=
  if ¬ hullFieldsOk d ∨ d.get 8 1 ≠ 1 ∨ 2 ^ 14 ≤ d.get 12 4 then s.done d .badRequest
  else if (s.region (hullKey d)).state = .off then s.done d .regionOff
  else (s.setRegion (hullKey d) { s.region (hullKey d) with rights := BitVec.ofNat 14 (d.get 12 4) }).done d .ok

/-- HULL_REGION_RIGHTS (R406). -/
def execHullRegionRights (d : Desc) (s : State) : Out :=
  .next (ringCommand d 0 [(8, 3), (12, 4)] (hullRightsBody d) s)

/-- A fill range cuts a tainted node of region k: it overlaps the node's coverage without containing it (R419). -/
def State.cutsTaint (s : State) (k off len : Nat) : Bool :=
  (s.taints k).any fun t => t.region == k &&
    overlaps off len (t.node * nodeCover t.level) (nodeCover t.level) &&
    !(off ≤ t.node * nodeCover t.level && (t.node + 1) * nodeCover t.level ≤ off + len) &&
    !(off == 0 && len == (s.region k).bytes)

/-- HULL_REGION_SET FILL after the header checks (R402, R419). -/
def hullFillBody (d : Desc) (s : State) : State :=
  let k := hullKey d
  let off := d.get 0x10 8
  let len := d.get 0x18 8
  if ¬ hullFieldsOk d ∨ d.get 8 1 ≠ 2 ∨ off % 64 ≠ 0 ∨ len % 64 ≠ 0 ∨ len = 0 then s.done d .badRequest
  else if (s.region k).state = .off then s.done d .regionOff
  else if (s.region k).work.isSome then s.done d .busy
  else if (s.region k).bytes < off + len ∨ s.cutsTaint k off len then s.done d .badRequest
  else s.setRegion k { s.region k with work := some d, filling := some (off, len, BitVec.ofNat 64 (d.get 0x28 8)) }

/-- HULL_REGION_FILL (R419). -/
def execHullRegionFill (d : Desc) (s : State) : Out :=
  .next (ringCommand d 0 [(8, 3), (0x10, 16), (0x28, 8)] (hullFillBody d) s)

/-- HULL_REGION_SET DELETE after the header checks: new accesses stop at once (R402). -/
def hullDeleteBody (d : Desc) (s : State) : State :=
  let k := hullKey d
  if ¬ hullFieldsOk d ∨ d.get 8 1 ≠ 3 then s.done d .badRequest
  else if (s.region k).state = .off then s.done d .regionOff
  else if (s.region k).work.isSome then s.done d .busy
  else s.setRegion k { s.region k with deleting := true, work := some d }

/-- HULL_REGION_DELETE (R402). -/
def execHullRegionDelete (d : Desc) (s : State) : Out :=
  .next (ringCommand d 0 [(8, 3)] (hullDeleteBody d) s)

/-- Complete the command whose work on a region has ended. -/
def State.workDone (s : State) (w : Option Desc) (rep : Reply) : State :=
  match w with
  | some d => s.complete d rep
  | none => s

/-- Forget the taints of region k that a predicate picks. -/
def State.dropTaints (s : State) (p : Taint → Bool) : State :=
  { s with hull := { s.hull with
      taintsHbm := s.hull.taintsHbm.filter fun t => !p t
      taintsDdr := s.hull.taintsDdr.filter fun t => !p t } }

/-- DELETE_DRAIN_END: the accepted accesses are complete; the keys are zeroised and the region is OFF (R400, R402). -/
def execDeleteDrainEnd (mem : MemKind) (r : Fin 16) (s : State) : Out :=
  let k := regionKey mem r.val
  let w := (s.region k).work
  if (s.region k).deleting then
    .next (((s.setRegion k Region.reset).dropTaints (·.region == k)).workDone w { status := .ok })
  else .next s

/-- The pattern and zero counters of a fill over a range of region k, and the taints inside it gone (R419). -/
def State.applyFill (s : State) (k off len : Nat) (p : BitVec 64) : State :=
  let r := s.region k
  let first := off / 64
  let n := len / 64
  let whole := off = 0 ∧ len = r.bytes
  let leaves := if whole then [] else r.leaves.filterMap fun e =>
    if first ≤ e.1 * 64 ∧ e.1 * 64 + 64 ≤ first + n then none
    else some (e.1, { e.2 with minors := e.2.minors.filter fun m =>
      !(first ≤ e.1 * 64 + m.1 && e.1 * 64 + m.1 < first + n) })
  let lo := r.lo / 64 + first
  let s := { s with
    mem := s.mem.fill { base := r.lo + off, len := len, pat := some p, epoch := 0 }
    hull := { s.hull with badLines := s.hull.badLines.filter fun e => !(lo ≤ e.1 && e.1 < lo + n) } }
  let s := (s.losePending (r.lo + off) len).setRegion k { r with
    leaves := leaves.filter fun e => e.2 != Leaf.reset, upper := if whole then [] else r.upper, dirty := if whole then [] else r.dirty
    filling := none, work := none
    state := if r.state = .init ∨ (r.state = .tainted ∧ whole) then .active else r.state }
  s.dropTaints fun t => t.region == k && off ≤ t.node * nodeCover t.level &&
    ((t.node + 1) * nodeCover t.level ≤ off + len || whole)

/-- FILL_COMPLETE: the range reads the pattern, and an INIT region becomes ACTIVE (R402, Table 17.4). -/
def execFillComplete (mem : MemKind) (r : Fin 16) (s : State) : Out :=
  let k := regionKey mem r.val
  let reg := s.region k
  match reg.filling with
  | some (off, len, p) =>
    .next ((s.applyFill k off len p).workDone reg.work
      { status := .ok, r0 := if reg.state = .init then reg.metaLen else 0 })
  | none => .next s

/-- HULL_REKEY after the header checks (R420, Table 17.9). -/
def hullRekeyBody (d : Desc) (s : State) : State :=
  let k := hullKey d
  let r := s.region k
  if ¬ hullFieldsOk d then s.done d .badRequest
  else if r.state = .off then s.done d .regionOff
  else if r.state = .tainted ∨ (s.taints k).any (·.region == k) then s.done d .tainted
  else if r.work.isSome ∨ ¬ s.axis.serving then s.done d .busy
  else
    let (a, s) := s.drawHk
    let (b, s) := s.drawHk
    s.setRegion k { r with
      state := .rekey, rekeyReadOnly := decide (r.state = .readOnly), nk1 := a, nk2 := b
      work := some d, rekeyPoisoned := 0 }

/-- HULL_REKEY (R420). -/
def execHullRekey (d : Desc) (s : State) : Out :=
  .next (ringCommand d 0 [(9, 2)] (hullRekeyBody d) s)

/-- REKEY_COMPLETE: lines that fail are poisoned, the new keys become active with every counter 0, and the region is ACTIVE
(R420); one that a taint made TAINTED while the rekey ran stays so (R418). -/
def execRekeyComplete (mem : MemKind) (r : Fin 16) (s : State) : Out :=
  let k := regionKey mem r.val
  let reg := s.region k
  if reg.state = .rekey ∨ (reg.state = .tainted ∧ reg.work.isSome ∧ reg.filling.isNone ∧ !reg.deleting) then
    let lo := reg.lo / 64
    let bad := if reg.integ then s.hull.badLines.filter fun e => lo ≤ e.1 && e.1 < lo + reg.bytes / 64 else []
    let n := bad.length
    let s := s.countN (cid 0x0C 1 k) n
    let s := { s with hull := { s.hull with badLines := s.hull.badLines.map fun (e : Nat × LineFault) =>
        if reg.integ ∧ lo ≤ e.1 ∧ e.1 < lo + reg.bytes / 64 then (e.1, .poisoned) else e } }
    let s := s.setRegion k { reg with
      state := if reg.state = .tainted then .tainted else .active
      k1 := reg.nk1, k2 := reg.nk2, nk1 := HkHalf.reset, nk2 := HkHalf.reset, leaves := [], upper := [], dirty := [], rekeyReadOnly := false
      rekeyPoisoned := n, work := none }
    .next ((s.raise 0x204 (BitVec.ofNat 8 k :: le 4 n)).workDone reg.work { status := .ok, r0 := n })
  else .next s

/-- MINOR_OVERFLOW_PASS_END: the oldest running pass of the region ends after making accesses wait ns nanoseconds (R412). -/
def execMinorOverflowPassEnd (mem : MemKind) (r : Fin 16) (ns : Nat) (s : State) : Out :=
  let k := regionKey mem r.val
  let reg := s.region k
  if reg.overflowPass.isEmpty then .next s
  else .next ((s.setRegion k { reg with overflowPass := reg.overflowPass.dropLast }).countN (cid 0x0C 3 k) ns)

/-- PATROL_SCRUB: the controller reads a line, writes back a corrected word, or finds an uncorrectable one (R398). -/
def execPatrolScrub (addr : BitVec 40) (ecc : Ecc) (s : State) : Out := if s.halted then .next s else
  if (s.memAt addr.toNat).isSome then .next (s.eccSeen addr.toNat ecc) else .next s

end Sys2Proof.Machine
end

