-- ==== Sys2Proof/Machine/Twin.lean ====
section
/-! DEFINITION. The commands of the twin pair and of its sessions (chapter 19, R507). -/

namespace Sys2Proof.Machine

/-- The frames that wait at a twin ceiling are dropped and counted as "no lease" (R458). -/
def State.dropWaiting (s : State) : State :=
  s.prism.units.foldl (fun s (e : Nat × PrismUnit) => (e.2.parked.filter (·.twin)).foldl (fun s p => s.dropParked e.1 7 p) s) s

/-! ### TWIN_CONFIG (R442, R507) -/

/-- Body fields of TWIN_CONFIG. -/
def twinFields : List (Nat × Nat) := [(8, 3), (0xC, 3), (0x10, 6), (0x18, 2), (0x1C, 10)]

/-- The ranges of Table 19.1 (R507). -/
def twinRangesOk (d : Desc) : Bool :=
  let lease := d.get 0x18 2
  let cycle := d.get 0x1C 4
  let stale := d.get 0x20 4
  d.get 9 1 < 2 && d.get 0xA 1 < 64 && (lease == 0 || (5 ≤ lease && lease ≤ 10000)) && (cycle == 0 || (50 ≤ cycle && cycle ≤ 10000)) &&
  (stale == 0 || (100 ≤ stale && stale ≤ 1000000)) && d.get 0x24 2 ≤ 3600

/-- The parameters of a TWIN_CONFIG body. -/
def TwinState.withParams (t : TwinState) (d : Desc) : TwinState :=
  let f := d.get 0xA 1
  { t with
    sideB := d.get 9 1 == 1, preferred := bitOf f 0, warm := bitOf f 1, lowRate := bitOf f 2, l0s := bitOf f 3, rolePins := bitOf f 4
    arbPort := bitOf f 5, pairId := BitVec.ofNat 16 (d.get 0xC 2), domainWk := BitVec.ofNat 8 (d.get 0xE 1)
    arbMac := BitVec.ofNat 48 (d.get 0x10 6), leaseMs := if d.get 0x18 2 = 0 then 20 else d.get 0x18 2
    cycleUs := if d.get 0x1C 4 = 0 then 250 else d.get 0x1C 4, staleUs := d.get 0x20 4, revertS := d.get 0x24 2 }

/-- The parameters that may not change while the unit is ACTIVE (R442). -/
def TwinState.fixedParams (t : TwinState) : TwinState := { t with cycleUs := 0, staleUs := 0, revertS := 0, l0s := false }

/-- CONFIGURE after the header checks (R442). -/
def twinConfigureBody (d : Desc) (s : State) : State :=
  let t := s.twin.withParams d
  if d.get 8 1 ≠ 0 ∨ ¬ twinRangesOk d then s.done d .badRequest
  else if s.twin.lease = .solo then s.done d .inUse
  else if (s.twin.lease = .active ∨ s.twin.lease = .handover) ∧ t.fixedParams ≠ s.twin.fixedParams then s.done d .inUse
  else
    let first := s.twin.lease = .unconfigured
    let s := (s.withTwin { t with barred := true }).deriveArbKey
    let s := if first then ((s.setLease .standby).beginSession .arbiter) else s
    let s := if first then (s.withTwin { s.twin with requestDue := s.clk }).startChord else s
    (s.retime false).syncRestore.done d .ok

/-- TWIN_CONFIGURE (R442). -/
def execTwinConfigure (d : Desc) (s : State) : Out := .next (ringCommand d 0 twinFields (twinConfigureBody d) s)

/-- SOLO after the header checks (R442). -/
def twinSoloBody (d : Desc) (s : State) : State :=
  if d.get 8 1 ≠ 1 ∨ ¬ twinRangesOk d then s.done d .badRequest
  else if s.twin.lease ≠ .unconfigured ∨ s.twin.barred then s.done d .inUse
  else (((s.withTwin (s.twin.withParams d)).setLease .solo).retime false).done d .ok

/-- TWIN_SOLO (R442). -/
def execTwinSolo (d : Desc) (s : State) : Out := .next (ringCommand d 0 twinFields (twinSoloBody d) s)

/-- TWIN_WIDEN: every relocked data lane rejoins (R445, R439); it reads no field but OP (R507). -/
def execTwinWiden (d : Desc) (s : State) : Out :=
  .next (ringCommand d 0 [(8, 56)] (fun s =>
    if d.get 8 1 ≠ 2 then s.done d .badRequest
    else
      (if s.twin.width = 0 then s else s.joinLanes).done d .ok) s)

/-- The Chord link goes down: the session ends, and 0x301 is raised if the link had come up (R445, log entry 15). -/
def State.chordDown (s : State) (cause : Nat) : State :=
  let up := s.twin.linkUp
  let s := ((s.withTwin { s.twin with linkUp := false }).chordEnd).setChordSet []
  if up then s.raise 0x301 [BitVec.ofNat 8 cause] else s

/-- REMOVE after the header checks (R442); a TWIN_HANDOVER that still waits for a grant completes with NO_TWIN (log entry 169). -/
def twinRemoveBody (d : Desc) (s : State) : State :=
  if d.get 8 1 ≠ 3 ∨ ¬ twinRangesOk d then s.done d .badRequest
  else if s.twin.lease = .solo ∨ s.twin.lease = .active ∨ s.twin.lease = .handover then s.done d .inUse
  else
    let s := (s.withTwin { s.twin with barred := true }).setLease .unconfigured
    let s := s.twin.asking.foldl (fun s d => s.done d .noTwin) s
    let s := s.withTwin { s.twin with arb := Session.reset, requests := [], asked := false, asking := [] }
    let s := if s.twin.width = 0 ∧ !s.twin.linkUp then s else s.chordDown 1
    ((s.stopChord.dropShadows).retime false).done d .ok

/-- TWIN_REMOVE (R442). -/
def execTwinRemove (d : Desc) (s : State) : Out := .next (ringCommand d 0 twinFields (twinRemoveBody d) s)

/-! ### LEASE_STATUS and the status registers -/

/-- Lease time that remains, in us (Table 19.10). -/
def State.leaseRemain (s : State) : Nat :=
  if s.twin.lease = .solo then 0xFFFFFFFF
  else if s.twin.lease = .active ∨ s.twin.lease = .handover then (s.twin.leaseEnd - s.clk) / 1000 else 0

/-- TWIN_STATUS (Table 19.8). -/
def State.twinStatus (s : State) : Nat :=
  s.twin.lease.code <<< 29 ||| s.role <<< 27 ||| b2n s.twin.stale <<< 26 ||| s.twin.width <<< 22 ||| b2n s.twin.sideB <<< 21 |||
    b2n s.twin.preferred <<< 20 ||| s.twin.arb.ver <<< 16 ||| s.twin.lanesUp.toNat

/-- TWIN_CYCLE (Table 19.9). -/
def State.twinCycle (s : State) : Nat := s.twin.effUs <<< 16 ||| s.twin.cycleUs

/-- LEASE_STATUS (R507). -/
def execLeaseStatus (d : Desc) (s : State) : Out :=
  .next (ringCommand d 0 [(0x10, 8)] (fun s =>
    s.writeBufDone d .annulus (d.get 0x10 8)
      (le 4 s.twinStatus ++ le 4 s.twinCycle ++ le 4 s.leaseRemain ++ le 4 0 ++ le 8 s.twin.copyAck ++ le 8 s.twin.epoch)
      { status := .ok }) s)

/-! ### Handover (R458) -/

/-- The standby is ready and its copy current, as far as the active knows (R458). -/
def State.standbyCurrent (s : State) : Bool := s.twin.ackedInSession && !s.twin.stale && !s.twin.wantCurrent

/-- Start a planned handover: no counter is taken, and a full copy goes out (R458). -/
def State.startHandover (s : State) (d : Option Desc) (timeout : Nat) : State :=
  let s := (s.setLease .handover).sendCopy true
  s.withTwin { s.twin with handover := some (d, s.clk + timeout, s.twin.copySeq) }

/-- TWIN_HANDOVER after the header checks (R458). -/
def twinHandoverBody (d : Desc) (s : State) : State :=
  match s.twin.lease with
  | .active =>
    if ¬ s.twin.linkUp then s.done d .noTwin
    else if ¬ s.standbyCurrent then s.done d .notCurrent
    else s.startHandover (some d) (s.timeoutOf d 10000000)
  | .standby =>
    if ¬ s.twin.linkUp then s.done d .noTwin
    else
      let s := s.chordSend 0x14 []
      s.withTwin { s.twin with asked := true, asking := s.twin.asking ++ [d] }
  | .lapsed => s.done d .leaseLost
  | _ => s.done d .noTwin

/-- TWIN_HANDOVER (R458). -/
def execTwinHandover (d : Desc) (s : State) : Out := .next (ringCommand d 0 [] (twinHandoverBody d) s)

/-- Complete the command of a handover. -/
def State.handoverDone (s : State) (st : Status) : State :=
  match s.twin.handover with
  | some (some d, _, _) => (s.withTwin { s.twin with handover := none }).done d st
  | _ => s.withTwin { s.twin with handover := none }

/-- HANDOVER_TIMEOUT: no acknowledgement of the final copy has come; the unit returns to ACTIVE (R458). -/
def execHandoverTimeout (s : State) : Out :=
  match s.twin.handover with
  | some (_, t, _) => if s.twin.lease = .handover then .next (((s.passTo t).setLease .active).handoverDone .timeout) else .next s
  | none => .next s

/-- HANDOVER_REQUEST_RECEIVE: a verified request starts a handover on the ACTIVE unit (R458); the command default of 10 ms bounds it
(log entry 23). -/
def execHandoverRequestReceive (msg : List Byte) (s : State) : Out :=
  match s.chordOpen 0x14 msg with
  | (none, s) => .next s
  | (some _, s) =>
    if s.twin.lease = .active ∧ s.standbyCurrent then .next (s.startHandover none 10000000) else .next s

/-! ### The Chord link (R444, R445, R481) -/

/-- CHORD_LINK_UP: the clock lane and a data lane are LOCKED; the hello exchange starts (R444). -/
def execChordLinkUp (s : State) : Out := if s.halted then .next s else
  let l := s.chordSet fun k => s.laneLocked (128 + k)
  if s.twin.width ≠ 0 ∨ ¬ s.laneLocked 136 ∨ l.isEmpty ∨ s.twin.lease = .unconfigured ∨ s.twin.lease = .solo then .next s
  else .next (s.joinLanes.beginSession .chord)

/-- A session may send HELLO: its path is there, and the session is down. -/
def State.hellos (s : State) (p : OctegPath) : Bool :=
  !s.halted && (s.session p).ver == 0 && s.twin.lease != .unconfigured && s.twin.lease != .solo &&
  (match p with
    | .chord => s.twin.width != 0
    | .arbiter => !s.twin.arbRefused)

/-- HELLO_SEND: every 10 us on Chord and every 100 ms to the arbiter, until the session is up (R481). -/
def execHelloSend (p : OctegPath) (s : State) : Out :=
  if s.hellos p then
    let s := s.passTo (s.session p).helloDue
    let x := s.session p
    .next ((s.setSession p { x with helloDue := s.clk + helloPeriod p }).octegOut p (s.hello p))
  else .next s

/-- HELLO_RECEIVE (R481, R482). -/
def execHelloReceive (p : OctegPath) (msg : List Byte) (s : State) : Out :=
  let there : Bool := match p with
    | .chord => s.twin.width != 0
    | .arbiter => true
  if s.halted ∨ ¬ there ∨ s.twin.lease = .unconfigured ∨ s.twin.lease = .solo then .next s else .next (s.helloIn p msg)

/-- CHORD_HEARTBEAT_SEND: with nothing else sent for 10 us a HEARTBEAT goes out (R445, Table 20.11). -/
def execChordHeartbeatSend (s : State) : Out := if s.halted then .next s else
  if s.twin.chord.ver = 0 then .next s
  else
    let s := s.passTo (s.twin.lastTx + 10000)
    .next (s.chordSend 0x03 (if s.twin.chord.ver < 3 then []
      else be 4 (s.sec % 2 ^ 32) ++ be 4 (s.gnomon.time % 1000000000) ++ [BitVec.ofNat 8 s.twin.lease.code, 0, 0, 0]))

/-- HEARTBEAT_RECEIVE (R445); its lease state in version 3 is kept (Table 20.11). -/
def execHeartbeatReceive (msg : List Byte) (s : State) : Out :=
  match s.chordOpen 0x03 msg with
  | (some b, s) => .next (s.withTwin { s.twin with peerLease := leAt b 8 1 })
  | (none, s) => .next s

/-- Codes of event 0x301 (Table 22.21). -/
def downCode : LinkDownCause → Nat
  | .clockLane => 1 | .silence => 2 | .tagFailures => 3

/-- CHORD_LINK_DOWN: the clock lane has lost lock, 100 us pass without a verified message, or 8 messages have failed in a row (R445). -/
def execChordLinkDown (cause : LinkDownCause) (s : State) : Out :=
  if s.twin.width = 0 ∧ !s.twin.linkUp then .next s
  else match cause with
    | .clockLane => if s.laneLocked 136 then .next s else .next (s.chordDown 1)
    | .silence => if !s.twin.linkUp then .next s else .next ((s.passTo (s.twin.lastRx + 100000)).chordDown 2)
    | .tagFailures => if s.twin.badRun < 8 then .next s else .next (s.chordDown 3)

/-! ### Copies (R447, R448) -/

/-- SYNC_CYCLE_START: at its due time the active opens and sends a copy (R447). -/
def execSyncCycleStart (s : State) : Out := if s.halted then .next s else
  if s.twin.lease = .active ∧ s.twin.chord.ver ≠ 0 then
    let s := s.passTo s.twin.cycleDue
    .next (s.sendCopy s.twin.nextFull)
  else .next s

/-- A unit that applies copies: STANDBY, or any other configured state without counters (R448). -/
def State.takesCopies (s : State) : Bool := s.twin.lease == .standby

/-- COPY_RECORDS_RECEIVE: the standby applies the records of a message (R448). -/
def execCopyRecordsReceive (msg : List Byte) (s : State) : Out :=
  match s.chordOpen 0x10 msg with
  | (none, s) => .next s
  | (some b, s) =>
    if ¬ s.takesCopies ∨ b.length < 8 then .next s
    else
      let seq := beAt b 0 8
      let (n, full) := match s.twin.rxCopy with
        | some (q, n, f) => if q = seq then (n, f) else (0, s.twin.nextFull)
        | none => (0, s.twin.nextFull)
      let (c, s) := State.applyRecords (b.length / 16 + 1) s (b.drop 8)
      .next ((s.withTwin { s.twin with rxCopy := some (seq, n + c, full), nextFull := false }).retime false)

/-- COPY_END_RECEIVE: a copy of which every record has come is acknowledged whole; one with records missing is not, and a full copy is
asked for (R448, log entry 24). -/
def execCopyEndReceive (msg : List Byte) (s : State) : Out :=
  match s.chordOpen 0x11 msg with
  | (none, s) => .next s
  | (some b, s) =>
    if ¬ s.takesCopies ∨ b.length ≠ 16 then .next s
    else
      let seq := beAt b 0 8
      let (n, full) := match s.twin.rxCopy with
        | some (q, n, f) => if q = seq then (n, f) else (0, s.twin.nextFull)
        | none => (0, s.twin.nextFull)
      if n = beAt b 8 4 then
        let s := s.withTwin { s.twin with
          rxCopy := none, nextFull := false, copyAck := seq, ackedInSession := s.twin.ackedInSession || full
          fullSinceReset := s.twin.fullSinceReset || full }
        .next (s.chordSend 0x12 (be 8 seq)).syncRestore
      else .next ((s.withTwin { s.twin with rxCopy := none, nextFull := true }).chordSend 0x13 [])

/-- COPY_ACK_RECEIVE: the twin ceilings follow the acknowledged copy; after a STALE mark a full copy makes the active send COPY_CURRENT;
the final copy of a handover ends it with LEASE_RELEASE (R448, R454, R458). -/
def execCopyAckReceive (msg : List Byte) (s : State) : Out :=
  match s.chordOpen 0x12 msg with
  | (none, s) => .next s
  | (some b, s) =>
    match s.twin.openCopies.find? fun c => c.seq == beAt b 0 8 with
    | none => .next s
    | some c =>
      let s := s.setCeilings c.standing
      let s := s.withTwin { s.twin with
        copyAck := c.seq, acked := c.sent, ackedInSession := true, openCopies := s.twin.openCopies.filter fun x => c.seq < x.seq }
      let s := if s.twin.stale ∧ c.full ∧ s.twin.lease = .active then
          (s.withTwin { s.twin with stale := false, wantCurrent := true }).arbSend 0x45 0
        else s
      match s.twin.handover with
      | some (_, _, q) =>
        if q = c.seq ∧ s.twin.lease = .handover then
          let s := ((s.arbSend 0x43 0).dropWaiting.setLease .standby).shadowAll
          .next ((s.handoverDone .ok).raise 0x306 [])
        else .next s
      | none => .next s

/-- FULL_REQUEST_RECEIVE: the next copy is full (R447). -/
def execFullRequestReceive (msg : List Byte) (s : State) : Out :=
  match s.chordOpen 0x13 msg with
  | (none, s) => .next s
  | (some _, s) => if s.twin.lease = .active then .next (s.withTwin { s.twin with nextFull := true }) else .next s

/-! ### Leases (R450 to R454) -/

/-- LEASE_REQUEST_SEND: every LEASE_MS / 4 a request, or a renewal, goes out, and with a renewal the COPY_CURRENT that is still owed
(R450, R451, R454). A LAPSED unit asks as a holder does (log entry 25). -/
def execLeaseRequestSend (s : State) : Out := if s.halted then .next s else
  let sends : Bool := s.twin.lease == .standby || s.twin.lease == .active || s.twin.lease == .lapsed
  if ¬ sends ∨ s.twin.arbRefused ∨ s.twin.arb.ver = 0 then .next s
  else
    let s := s.passTo s.twin.requestDue
    let s := s.withTwin { s.twin with requestDue := s.clk + 250000 * s.twin.leaseMs }
    let s := s.arbSend 0x40 (if s.twin.lease = .standby then b2n s.standbyReady else 2)
    .next (if s.twin.lease = .active ∧ s.twin.wantCurrent then s.arbSend 0x45 0 else s)

/-- STALE_REQUEST_SEND: the twin hold has lasted STALE_US (R454). Octeg version 1 lacks the message (R451). -/
def execStaleRequestSend (s : State) : Out := if s.halted then .next s else
  match s.twin.holdSince with
  | none => .next s
  | some t =>
    if s.twin.lease ≠ .active ∨ s.twin.staleUs = 0 ∨ s.twin.staleAsked ∨ s.twin.stale ∨ s.twin.arb.ver < 2 then .next s
    else
      let s := s.passTo (t + 1000 * s.twin.staleUs)
      .next ((s.withTwin { s.twin with staleAsked := true }).arbSend 0x44 0)

/-- An accepted GRANT whose request was sent at time t (R452, R454, R455). A take-over ends a planned handover where this unit asked for it or
the twin, which acknowledged copies keep current, has said that it is in HANDOVER or STANDBY (R458, log entry 138). -/
def State.granted (s : State) (t : Nat) (msg : List Byte) : State :=
  let code := leAt msg 11 1
  let ends := t + min (1000 * beAt msg 12 4) (1000000 * s.twin.leaseMs)
  let s := s.withTwin { s.twin with epoch := beAt msg 24 8 }
  if ends ≤ s.clk then s
  else
    let s := s.withTwin { s.twin with leaseEnd := ends }
    match s.twin.lease with
    | .standby =>
      let asked := s.twin.asked
      let waiting := s.twin.asking
      let planned := asked || (s.twin.ackedInSession && (s.twin.peerLease == 2 || s.twin.peerLease == 5))
      let current := code == 0 && s.twin.fullSinceReset
      let s := s.withTwin { s.twin with stale := !current, asked := false, asking := [], nextFull := true, wantCurrent := false }
      let s := (s.setLease .active).takeOver current
      let s := s.withTwin { s.twin with stale := false, copySeq := max s.twin.copySeq s.twin.copyAck, acked := [], cycleDue := s.clk }
      let s := waiting.foldl (fun s d => s.done d .ok) s
      if planned then s.raise 0x306 [] else s
    | .lapsed => s.setLease .active
    | .active =>
      if code = 1 then
        if s.twin.stale ∨ (s.twin.wantCurrent ∧ ¬ s.twin.staleAsked) then s
        else (s.withTwin { s.twin with stale := true, wantCurrent := false, holdSince := none }).raise 0x303 []
      else if s.twin.wantCurrent then (s.withTwin { s.twin with wantCurrent := false }).raise 0x304 []
      else s
    | _ => s

/-- LEASE_GRANT (R452). -/
def execLeaseGrant (msg : List Byte) (s : State) : Out := if s.halted then .next s else
  match s.arbAccept 0x41 msg with
  | some t => .next (s.granted t msg)
  | none => .next s.arbRefuse

/-- LEASE_DENY: a lapsed unit becomes STANDBY, and its contexts SHADOW (R450, Table 19.7). -/
def execLeaseDeny (msg : List Byte) (s : State) : Out := if s.halted then .next s else
  match s.arbAccept 0x42 msg with
  | some _ =>
    let s := s.withTwin { s.twin with epoch := beAt msg 24 8 }
    if s.twin.lease = .lapsed then .next ((s.setLease .standby).shadowAll) else .next s
  | none => .next s.arbRefuse

/-- LEASE_EXPIRY: the lease ends without renewal; a handover stops with LEASE_LOST (R450, R458). -/
def execLeaseExpiry (s : State) : Out :=
  if s.twin.lease = .active ∨ s.twin.lease = .handover then
    let s := s.passTo s.twin.leaseEnd
    .next ((s.setLease .lapsed).handoverDone .leaseLost)
  else .next s

/-- WAIT_TO_RESTORE_EXPIRY: the preferred unit asks for the lease back (R459). -/
def execWaitToRestoreExpiry (s : State) : Out :=
  match s.twin.restoreDue with
  | none => .next s
  | some t =>
    let s := (s.passTo t).chordSend 0x14 []
    .next ((s.withTwin { s.twin with restoreDue := none, restoreDone := true, asked := true }).raise 0x308 [])

/-- A message from the arbiter, by its type; a HELLO_REFUSE that shows no common version refuses the session (R451, R452, R482). -/
def State.arbiterIn (s : State) (msg : List Byte) : State :=
  match leAt msg 1 1 with
  | 0x01 => if s.twin.lease = .unconfigured ∨ s.twin.lease = .solo then s else s.helloIn .arbiter msg
  | 0x02 =>
    if (s.twin.lease = .unconfigured ∨ s.twin.lease = .solo) ∨ s.twin.arb.ver ≠ 0 ∨ leAt msg 0 1 ≠ 1 ∨ msg.length < 9 ∨ commonVersion (leAt msg 8 1) ≠ 0 then s
    else (s.withTwin { s.twin with arbRefused := true }).raise 0x309 []
  | 0x41 => match s.arbAccept 0x41 msg with
    | some t => s.granted t msg
    | none => s.arbRefuse
  | 0x42 => match s.arbAccept 0x42 msg with
    | some _ =>
      let s := s.withTwin { s.twin with epoch := beAt msg 24 8 }
      if s.twin.lease = .lapsed then (s.setLease .standby).shadowAll else s
    | none => s.arbRefuse
  | _ => s.arbRefuse

end Sys2Proof.Machine
end

