-- ==== Sys2Proof/Machine/Lanes.lean ====
section
/-! DEFINITION. The serial lane rows (chapter 18). -/

namespace Sys2Proof.Machine

/-! ### What a lane's change brings about -/

/-- Event 0x240 or 0x2C0 of a logical port that goes down or comes up, with the lanes not LOCKED (R438). -/
def State.portLink (s : State) (lp : Nat) (up : Bool) : State :=
  let s := s.setLport lp { s.lport lp with up := up }
  let lanes := s.lanesOf lp
  let base := lp / 64 * 64 + lp % 64 / 4 * 4
  let mask := maskOf ((lanes.filter fun k => !s.laneLocked k).map (· - base))
  s.raise (if lp < 64 then 0x240 else 0x2C0) [BitVec.ofNat 8 lp, BitVec.ofNat 8 (b2n up), BitVec.ofNat 8 mask]

/-- Every Ethernet logical port that uses lane k and is up goes down while the lane is not LOCKED (R438). -/
def State.dropPorts (s : State) (k : Nat) : State :=
  ((s.ports.lports.filter fun e => e.2.up && e.2.mode != some 7 && (s.lanesOf e.1).contains k).map (·.1)).foldl
    (fun s lp => s.portLink lp false) s

/-- The Chord link narrows when a data lane leaves LOCKED: a lane that relocks waits for WIDEN; with no lane left the link falls silent
(R439, R445). -/
def State.narrow (s : State) : State :=
  if s.twin.width = 0 then s
  else
    let s := s.withTwin { s.twin with eligible := s.twin.eligible &&& s.chordLocked }
    let l := s.chordSet fun k => s.twin.eligible.getLsbD k
    if l.isEmpty then s else s.setChordSet l

/-- Everything that follows the state of lane k (R177, R394, R438, R439). -/
def State.laneChanged (s : State) (k : Nat) : State :=
  let s := if k < 128 ∧ !s.laneLocked k then s.dropPorts k else s
  let s := if 64 ≤ k ∧ k < 128 then (s.facetSignal ((k - 64) / 4)).facetLol ((k - 64) / 4) else s
  let s := if 128 ≤ k ∧ k < 136 ∧ !s.laneLocked k then s.narrow else s
  s.rclk

/-- A lane enters LOCKED; an enabled checker locks to its pattern (R427, R433; log entry 27). -/
def State.laneLock (s : State) (k : Nat) : State :=
  let x := s.lane k
  let chk := bitOf (s.regN (laneOff k + 0xC)) 30
  ((s.setLane k { x with mode := .locked, kept := none, since := none, chkLock := chk }).raise 0x321 (laneData k)).laneChanged k

/-- A LOCKED lane declares LOL: the latch, event 0x320, and CDR with its coefficients kept (R427). -/
def State.laneLol (s : State) (k : Nat) : State :=
  let x := s.lane k
  if x.mode ≠ .locked then s
  else
    ((s.setLane k { x.abortEye with mode := .cdr, lol := true, kept := some s.clk }).raise 0x320 (laneData k)).laneChanged k

/-- The meaning of a lane row: nothing for a Chord lane that does not exist. -/
def onLane (l : Lane) (f : Nat → State → State) (s : State) : Out := .next (if laneExists l then f (laneKey l) s else s)

/-! ### Rows -/

/-- TRANSMIT_PLL_LOCK (R425). -/
def execTransmitPllLock (l : Lane) (s : State) : Out :=
  onLane l (fun k s => if (s.lane k).mode = .pll then s.setLane k { s.lane k with mode := .signal } else s) s

/-- SIGNAL_DETECT (R426). -/
def execSignalDetect (l : Lane) (s : State) : Out :=
  onLane l (fun k s =>
    if (s.lane k).mode = .signal then (s.setLane k { s.lane k with mode := .cdr, signal := true }).laneChanged k else s) s

/-- SIGNAL_LOSS: the lane returns to SIGNAL from any later state, and 0x322 is raised (R426). -/
def execSignalLoss (l : Lane) (s : State) : Out :=
  onLane l (fun k s =>
    let x := s.lane k
    if x.mode = .off ∨ x.mode = .pll ∨ x.mode = .signal then s
    else ((s.setLane k { x.abortEye with mode := .signal, signal := false, kept := none }).raise 0x322 (laneData k)).laneChanged k) s

/-- PHASE_LOCK: a fast relock within 10 ms of LOL, else ADAPT (R427). -/
def execPhaseLock (l : Lane) (s : State) : Out :=
  onLane l (fun k s =>
    let x := s.lane k
    if x.mode ≠ .cdr then s
    else match x.kept with
      | some t => if s.clk ≤ t + 10000000 then s.laneLock k else s.setLane k { x with mode := .adapt, kept := none }
      | none => s.setLane k { x with mode := .adapt }) s

/-- ADAPT_CONVERGED: LOCKED, or TRAIN on Chord; the peaking setting in use is the part's own (R425, R432). -/
def execAdaptConverged (l : Lane) (s : State) : Out :=
  onLane l (fun k s =>
    if (s.lane k).mode ≠ .adapt then s
    else
      let (c, s) := s.draw 8
      let s := s.setLane k { s.lane k with ctle := BitVec.ofNat 8 c }
      if 128 ≤ k then s.setLane k { s.lane k with mode := .train } else s.laneLock k) s

/-- TRAIN_COMPLETE: polarity, order and deskew are found (R430). -/
def execTrainComplete (l : Lane) (inverted : Bool) (s : State) : Out :=
  onLane l (fun k s =>
    if (s.lane k).mode ≠ .train then s
    else (s.setLane k { s.lane k with inverted := inverted && k != 136 }).laneLock k) s

/-- LOSS_OF_LOCK (R427). -/
def execLossOfLock (l : Lane) (s : State) : Out := onLane l (fun k s => s.laneLol k) s

/-- FAST_RELOCK_EXPIRY: 10 ms after LOL without phase lock the coefficients are reset (R427). -/
def execFastRelockExpiry (l : Lane) (s : State) : Out :=
  onLane l (fun k s =>
    match (s.lane k).mode, (s.lane k).kept with
    | .cdr, some t =>
      let s := s.passTo (t + 10000000)
      s.setLane k { s.lane k with kept := none, ctle := 0 }
    | _, _ => s) s

/-- LOCK_TIMEOUT: 500 ms without LOCKED; event 0x323 and another try from SIGNAL (R425). -/
def execLockTimeout (l : Lane) (s : State) : Out :=
  onLane l (fun k s =>
    let x := s.lane k
    match x.since with
    | some t =>
      if x.mode = .off ∨ x.mode = .locked then s
      else
        let s := s.passTo (t + 500000000)
        ((s.setLane k { s.lane k with mode := .signal, signal := false, kept := none, ctle := 0, since := some s.clk }).raise 0x323
          (laneData k)).laneChanged k
    | none => s) s

/-- PCS_ALIGNMENT_LOCK: a port whose lanes are all LOCKED is up (R438). -/
def execPcsAlignmentLock (side : Side) (n : Fin 16) (sub : Fin 4) (s : State) : Out :=
  let lp := (match side with | .client => 0 | .line => 64) + 4 * n.val + sub.val
  let p := s.lport lp
  let ok := p.busy && !p.up && p.mode != some 7 && !(s.lanesOf lp).isEmpty && (s.lanesOf lp).all s.laneLocked
  .next (if ok then s.portLink lp true else s)

/-- Lanes a reference clock serves: REFCLK_C0, C1, L0 (with the Chord transmitters), L1 (Table 18.1). -/
def refclkLanes (k : Nat) : List Nat :=
  if k = 0 then List.range 32 else if k = 1 then (List.range 32).map (32 + ·)
  else if k = 2 then (List.range 32).map (64 + ·) ++ (List.range 9).map (128 + ·) else (List.range 32).map (96 + ·)

/-- REFCLK_LOSS: every lane it serves loses lock, and 0x324 is raised (R422). -/
def execRefclkLoss (k : Fin 4) (s : State) : Out := if s.halted then .next s else
  .next (((refclkLanes k.val).foldl (fun s k => s.laneLol k) s).raise 0x324 [BitVec.ofNat 8 k.val])

/-! ### Lane registers (Tables 18.6 to 18.12) -/

/-- A write of LANE_CFG (R428, R429, R435). TX_REVERSE stands in the register of line lanes 4n alone (log entry 149). -/
def State.laneCfg (s : State) (k v : Nat) : State :=
  let off := laneOff k
  let mask := if 64 ≤ k ∧ k < 128 ∧ k % 4 = 0 then 0xFC000000 else 0xDC000000
  let new := v &&& mask
  let old := s.regN off
  let s := s.setReg off (BitVec.ofNat 32 new)
  let inv := k < 128 ∧ (old ^^^ new) / 2 ^ 30 ≠ 0
  let lb := fun x => if bits x 26 2 = 3 then 0 else bits x 26 2
  let loop := k < 128 ∧ lb old ≠ lb new ∧ s.lanePortEnabled k
  if inv ∨ loop then s.laneLol k else s

/-- LANE_CFG_WRITE. -/
def execLaneCfgWrite (l : Lane) (value : Word32) (s : State) : Out := if s.halted then .next s else onLane l (fun k s => s.laneCfg k value.toNat) s

/-- Sum of the tap magnitudes of LANE_TXEQ; a Chord transmitter has no PRE3 and PRE2 (R431). -/
def tapSum (k v : Nat) : Nat :=
  let sg := fun lo => (signed 6 (bits v lo 6)).natAbs
  (if k < 128 then sg 24 + sg 18 else 0) + sg 12 + bits v 6 6 + sg 0

/-- A write of LANE_TXEQ (R431). -/
def State.laneTxeq (s : State) (k v : Nat) : State :=
  if 63 < tapSum k v then s.setLane k { s.lane k with eqErr := true }
  else s.setReg (laneOff k + 4) (BitVec.ofNat 32 (v % 2 ^ 30))

/-- LANE_TXEQ_WRITE. -/
def execLaneTxeqWrite (l : Lane) (value : Word32) (s : State) : Out := if s.halted then .next s else onLane l (fun k s => s.laneTxeq k value.toNat) s

/-- A lane carries traffic, so its generator and checker stay off (R433): its port is enabled, or its twin pair has it in service. -/
def State.laneInUse (s : State) (k : Nat) : Bool :=
  if k < 128 then s.lanePortEnabled k
  else !(s.twin.lease == .unconfigured || s.twin.lease == .solo) && (!s.twin.lowRate || k == 128 || k == 136)

/-- One inverted bit on a lane; in near-end loopback its own checker counts it (R434, R435). -/
def State.inject (s : State) (k : Nat) : State :=
  let x := s.lane k
  let p := s.regN (laneOff k + 0xC)
  let seen := bits (s.regN (laneOff k)) 26 2 == 1 && bitOf p 31 && bitOf p 30 && x.chkLock
  s.setLane k { x with injected := x.injected + 1
                       errors := if seen ∧ x.errors ≠ BitVec.allOnes 32 then x.errors + 1 else x.errors }

/-- A write of LANE_PRBS (R433, R434). -/
def State.lanePrbs (s : State) (k v : Nat) : State :=
  let off := laneOff k + 0xC
  let on := bits v 30 2 ≠ 0
  if on ∧ s.laneInUse k then s
  else
    let old := s.regN off
    let s := s.setReg off (BitVec.ofNat 32 (v &&& 0xFCF00000))
    let s := if on then s.startLane k else if s.laneInUse k then s else (s.stopLane k (if k < 128 then 0 else 3)).laneChanged k
    let x := s.lane k
    let chk := bitOf v 30
    let s := s.setLane k { x with
      errors := if chk && !bitOf old 30 then 0 else x.errors
      chkLock := chk && (x.chkLock || x.mode == .locked) }
    if bitOf v 24 then s.inject k else s

/-- PRBS_CFG_WRITE. -/
def execPrbsCfgWrite (l : Lane) (value : Word32) (s : State) : Out := if s.halted then .next s else onLane l (fun k s => s.lanePrbs k value.toNat) s

/-- ERROR_INJECT: a write of LANE_PRBS with INJECT set; a value without it injects nothing (R434). -/
def execErrorInject (l : Lane) (value : Word32) (s : State) : Out := if s.halted then .next s else onLane l (fun k s => s.lanePrbs k value.toNat) s

/-- PRBS_CHECKER_LOCK_LOSS (R433). -/
def execPrbsCheckerLockLoss (l : Lane) (s : State) : Out :=
  onLane l (fun k s =>
    if (s.lane k).chkLock then (s.setLane k { s.lane k with chkLock := false }).raise 0x325 (laneData k) else s) s

/-- A write of LANE_EYE_CTRL (R436); on a lane that is not LOCKED the point stops at once (log entry 28). -/
def State.laneEye (s : State) (k v : Nat) : State :=
  let dw := min 20 (bits v 24 5)
  let s := s.setReg (laneOff k + 0x14) (BitVec.ofNat 32 ((v &&& 0x607F007F) ||| dw <<< 24))
  if !bitOf v 31 then s
  else
    let x := s.lane k
    let e := x.eye &&& 0x3FFFFFFF#32
    s.setLane k (if x.mode = .locked then { x with eyeBusy := true, eye := e } else { x with eyeBusy := false, eye := e ||| 0x40000000#32 })

/-- EYE_SCAN_GO. -/
def execEyeScanGo (l : Lane) (value : Word32) (s : State) : Out := if s.halted then .next s else onLane l (fun k s => s.laneEye k value.toNat) s

/-- EYE_SCAN_DONE: the dwell ends with a count of differences (R436). -/
def execEyeScanDone (l : Lane) (errors : Word32) (s : State) : Out :=
  onLane l (fun k s =>
    if (s.lane k).eyeBusy then
      s.setLane k { s.lane k with eyeBusy := false, eye := 0x80000000#32 ||| BitVec.ofNat 32 (min (2 ^ 30 - 1) errors.toNat) }
    else s) s

/-- LANE_STATUS.POWER: under L0S the data lanes of a Chord session rest in L0s between copies (Table 18.5, Table 19.1). -/
def State.lanePower (s : State) (k : Nat) : Nat :=
  let x := s.lane k
  if 128 ≤ k ∧ k < 136 ∧ x.mode = .locked ∧ s.twin.l0s ∧ s.twin.chord.ver ≠ 0 then 1 else x.power.toNat

/-- LANE_STATUS (Table 18.8). -/
def State.laneStatus (s : State) (k : Nat) : Nat :=
  let x := s.lane k
  let code := match x.mode with
    | .off => 0 | .pll => 1 | .signal => 2 | .cdr => 3 | .adapt => 4 | .locked => 5 | .train => 6
  code <<< 29 ||| b2n x.signal <<< 28 ||| b2n (x.mode == .locked) <<< 27 ||| b2n x.lol <<< 26 ||| b2n x.eqErr <<< 25 |||
    s.lanePower k <<< 23 ||| b2n x.inverted <<< 22 ||| x.ctle.toNat <<< 8

end Sys2Proof.Machine
end

