-- ==== Sys2Proof/Machine/Rings.lean ====
section
/-! DEFINITION. The ring commands and the management ports (chapter 20). -/

namespace Sys2Proof.Machine

/-- Set-up offset of a ring's block (20_control_rings, Registers). -/
def ringOff (k : RingKind) (r : Nat) : Nat :=
  (match k with | .command => 0x00302000 | .completion => 0x00303000 | .event => 0x00304000 | .management => 0x00305000) + 0x20 * r

/-- Entry size of a ring kind (Table 20.3). -/
def entrySize : RingKind → Nat
  | .command => 64 | .completion => 32 | .event => 16 | .management => 16

/-- Rings of a kind (Table 20.3). -/
def ringCount : RingKind → Nat
  | .command => 64 | .completion => 64 | .event => 16 | .management => 4

/-- Writable bits of RING_CFG (Table 20.18). -/
def ringCfgMask : Nat := 0xCFFFFFFF

/-- The least right Annulus needs on a ring's memory (Table 20.3). -/
def ringRight : RingKind → Right
  | .command => .plainRead
  | _ => .plainWrite

/-- Base address a ring's registers hold (Tables 20.16, 20.17). -/
def State.ringBase (s : State) (k : RingKind) (r : Nat) : Nat :=
  4096 * (s.regN (ringOff k r) / 4096) + 2 ^ 32 * (s.regN (ringOff k r + 4) % 256)

/-- R465: the configuration in the registers lets the ring enable. -/
def State.ringConfigOk (s : State) (k : RingKind) (r cfg : Nat) : Bool :=
  let base := s.ringBase k r
  let size := bits cfg 24 4
  let bytes := entrySize k * (16 * 2 ^ size)
  size ≤ 12 && s.memAt base == some .ddr && s.memAt (base + bytes - 1) == some .ddr &&
  (match s.regionAt base with
    | none => false
    | some g =>
      let reg := s.region g
      base + bytes ≤ reg.lo + reg.bytes && reg.state == .active && !reg.deleting &&
      decide ((ringRight k).code ≤ (reg.right .annulus).code)) &&
  (k != .command || (s.ring .completion (bits cfg 16 6)).state == .running)

/-- Enable a ring from its registers: both indices 0, PHASE 1, RING_LOST 0 (R465, R467, R472, R572). -/
def State.startRing (s : State) (k : RingKind) (r cfg : Nat) : State :=
  let old := s.ring k r
  let s := s.setReg (ringOff k r + 0x10) 0
  s.setRing k r { Ring.reset with
    state := .running, base := BitVec.ofNat 40 (s.ringBase k r), cap := 16 * 2 ^ bits cfg 24 4
    cpl := BitVec.ofNat 8 (bits cfg 16 8), us := BitVec.ofNat 16 cfg, promisc := bitOf cfg 30, phase := true
    lostFlag := old.lostFlag, outs := old.outs }

/-- RING_ENABLE: a write of RING_CFG with ENABLE 1 (R465, R476). -/
def State.ringEnable (s : State) (k : RingKind) (r v : Nat) : State :=
  let cfg := (v ||| 2 ^ 31) &&& ringCfgMask
  if ringCount k ≤ r then s
  else match (s.ring k r).state with
    | .draining => s.raise 0x040 (ringErrData k r 0)
    | .disabled =>
      let s := s.setReg (ringOff k r + 8) (BitVec.ofNat 32 cfg)
      if s.ringConfigOk k r cfg then s.startRing k r cfg else (s.setRing k r { s.ring k r with cap := 0 }).ringError k r 0
    | _ => s.setReg (ringOff k r + 8) (BitVec.ofNat 32 cfg)

/-- RING_ENABLE (R465). -/
def execRingEnable (kind : RingKind) (r : Fin 64) (value : Word32) (s : State) : Out := if s.halted then .next s else
  .next (s.ringEnable kind r.val value.toNat)

/-- A completion ring is named by a command ring that is enabled or draining (R476): a ring whose enable was refused names none. -/
def State.completionNamed (s : State) (c : Nat) : Bool :=
  (List.range 64).any fun r =>
    let x := s.ring .command r
    x.state != .disabled && x.cap != 0 && x.completionRing == c

/-- Raises taken for an event ring that is disabled are discarded; the first record after the next enable carries LOST (R572). -/
def State.discardTaken (s : State) (r : Nat) : State :=
  let n := (s.tele.store.filter (·.ring == r)).length
  if n = 0 then s
  else
    let s := s.setRing .event r { s.ring .event r with lostFlag := true }
    { s with tele := { s.tele with
        store := s.tele.store.filter (·.ring != r)
        dropped := BitVec.ofNat 16 (min 65535 (s.tele.dropped.toNat + n)) } }

/-- A write of RING_CFG with ENABLE 0 (R467, R476). -/
def State.ringDisable (s : State) (k : RingKind) (r v : Nat) : State :=
  let cfg := v % 2 ^ 31 &&& ringCfgMask
  if ringCount k ≤ r then s
  else if k = .completion ∧ s.completionNamed r then s.raise 0x040 (ringErrData k r 0)
  else
    let s := s.setReg (ringOff k r + 8) (BitVec.ofNat 32 cfg)
    let x := s.ring k r
    if x.state = .disabled then s
    else match k with
      | .command => s.setRing k r { x with state := if x.outs.isEmpty then .disabled else .draining }
      | .event => (s.setRing k r { x with state := .disabled, unread := [], irq := false }).discardTaken r
      | _ => s.setRing k r { x with state := .disabled, unread := [], irq := false }

/-- RING_DISABLE (R476). -/
def execRingDisable (kind : RingKind) (r : Fin 64) (value : Word32) (s : State) : Out := if s.halted then .next s else
  .next (s.ringDisable kind r.val value.toNat)

/-- RING_DRAIN_END: the last outstanding descriptor of a DRAINING ring has completed (R476). -/
def execRingDrainEnd (r : Fin 64) (s : State) : Out :=
  let x := s.ring .command r.val
  if x.state = .draining ∧ x.outs.isEmpty then .next (s.setRing .command r.val { x with state := .disabled }) else .next s

/-- A write of RING_CI: records before the new index are consumed and the interrupt is evaluated again (R475, Table 20.20). -/
def State.ringCi (s : State) (k : RingKind) (r v : Nat) : State :=
  if ringCount k ≤ r ∨ k = .command ∨ (k = .management ∧ r % 2 = 1) then s
  else
    let s := s.setReg (ringOff k r + 0x10) (BitVec.ofNat 32 (v % 2 ^ 17))
    let x := s.ring k r
    let x := { x with ci := BitVec.ofNat 17 v }
    let x := { x with unread := x.unread.drop (x.unread.length - idxDiff x.pi x.ci) }
    s.setRing k r { x with irq := x.wantsIrq s.clk }

/-- RING_CI_WRITE (R475). -/
def execRingCiWrite (kind : RingKind) (r : Fin 64) (value : Word32) (s : State) : Out := if s.halted then .next s else
  .next (s.ringCi kind r.val value.toNat)

/-- INTERRUPT_DELAY_EXPIRY: the oldest unsignalled record has waited INT_US (R475). -/
def execInterruptDelayExpiry (kind : RingKind) (r : Fin 64) (s : State) : Out :=
  let x := s.ring kind r.val
  match x.unread with
  | [] => .next s
  | (_, t, _) :: _ =>
    if x.us = 0 ∨ kind = .command then .next s
    else
      let s := s.passTo (t + 1000 * x.us.toNat)
      let x := s.ring kind r.val
      .next (s.setRing kind r.val { x with irq := x.wantsIrq s.clk })

/-- A doorbell write of a command ring (R466). -/
def State.doorbell (s : State) (r v : Nat) : State :=
  let x := s.ring .command r
  let p := BitVec.ofNat 17 v
  if x.state ≠ .running then s
  else if x.cap < idxDiff p x.ci then s.ringError .command r 1
  else s.setRing .command r { x with pi := p }

/-- DOORBELL_WRITE (R466). -/
def execDoorbellWrite (r : Fin 64) (value : Word32) (s : State) : Out := if s.halted then .next s else .next (s.doorbell r.val value.toNat)

/-- Opcodes of Table 21.1. -/
def opcodeAssigned (op : Nat) : Bool :=
  op < 3 || (0x010 ≤ op && op ≤ 0x015) || (0x020 ≤ op && op ≤ 0x024) || (0x030 ≤ op && op ≤ 0x034) ||
  (0x040 ≤ op && op ≤ 0x043) || (0x050 ≤ op && op ≤ 0x052) || (0x060 ≤ op && op ≤ 0x062) || op == 0x070 || op == 0x071 ||
  (0x080 ≤ op && op ≤ 0x082) || (0x090 ≤ op && op ≤ 0x092) || op == 0xFF0

/-- A descriptor no command row carries: its opcode is unassigned, or its OP or FORM value is (R468, R487). -/
def rowless (d : Desc) : Option Status :=
  if !opcodeAssigned d.opcode then some .badOpcode
  else
    let bad : Bool := match d.opcode with
      | 0x031 => 3 < d.get 9 1
      | 0x060 => 3 < d.get 8 1
      | 0x062 => bits (d.get 8 2) 12 4 != 1 && bits (d.get 8 2) 12 4 != 2
      | 0x070 => 3 < d.get 8 1
      | 0x080 => 3 < d.get 8 1
      | 0x090 => 4 < d.get 8 1
      | 0x091 => 3 < d.get 8 1
      | 0x092 => 1 < d.get 8 1
      | _ => false
    if bad then some .badRequest else none

/-- Complete a descriptor that no row carries, if it may start: BAD_VERSION, or the status of R468. -/
def State.finishOne (s : State) (d : Desc) (st : Status) : State :=
  if !s.mayStart d then s
  else match s.reserve d with
    | none => s.stall d
    | some s => s.done d (if d.version ≠ s.versionFor d then .badVersion else st)

/-- Complete the fetched descriptors of a ring that no row carries, as far as R471 and R472 let them start. -/
def State.finishRowless (s : State) (r : Nat) : State :=
  ((s.ring .command r).outs.filter fun o => !o.started && (rowless o.desc).isSome).foldl (fun s o =>
    match rowless o.desc with
    | none => s
    | some st => s.finishOne o.desc st) s

/-- The 512-bit word of 64 descriptor bytes. -/
def descOf (r : Fin 64) (bs : List Byte) : Desc := { ring := r, word := BitVec.ofNat 512 (leNat bs) }

/-- Fetch n descriptors of ring r in slot order (R466, R467, R470). -/
def State.fetchGo (r : Fin 64) : Nat → State → State
  | 0, s => s
  | n + 1, s =>
    let x := s.ring .command r.val
    match s.readMem .annulus (ringOwner r.val) (x.slotAddr x.ci.toNat 64) 64 with
    | (.data bs, s) =>
      State.fetchGo r n (s.setRing .command r.val { x with
        ci := x.ci + 1, outs := x.outs ++ [{ desc := descOf r bs, started := false }] })
    | (.refused, s) => s.ringError .command r.val 2
    | (.failed, s) => s.ringError .command r.val 3

/-- A ring Annulus may fetch from: running, with unfetched descriptors and fewer than 64 outstanding (R470). -/
def State.fetchable (s : State) (r : Nat) : Bool :=
  let x := s.ring .command r
  x.state == .running && x.pi != x.ci && x.outs.length < 64

/-- COMMAND_FETCH: the next ring in ascending number from the round-robin position gives up to 4 descriptors (R470). -/
def execCommandFetch (s : State) : Out :=
  let s := (List.range 64).foldl State.finishRowless s
  let order := (List.range 64).map fun i => s.rings.fetchNext + Fin.ofNat 64 i
  match order.find? fun r => s.fetchable r.val with
  | none => .next s
  | some r =>
    let x := s.ring .command r.val
    let n := min 4 (min (idxDiff x.pi x.ci) (64 - x.outs.length))
    let s := State.fetchGo r n { s with rings := { s.rings with fetchNext := r + 1 } }
    .next (s.finishRowless r.val)

/-- FENCE: a NOP that orders its ring (R471, R511). -/
def execFence (d : Desc) (s : State) : Out := .next (ringCommand d 0 [] (fun s => s.done d .ok) s)

/-- The NOP ring command completes with OK (R511). -/
def nopCommand (d : Desc) (s : State) : State := ringCommand d 0 [] (fun s => s.done d .ok) s

/-- SET_INTERFACE_VERSION after the header checks (R469, R511). -/
def ifaceBody (d : Desc) (s : State) : State :=
  let v := d.get 8 1
  if v ≠ 1 ∧ v ≠ 2 then s.done d .badRequest
  else if (List.range 64).any fun r => r != d.ring.val && !(s.ring .command r).outs.isEmpty then s.done d .inUse
  else
    let s := s.done d .ok
    let left := (s.ring .command d.ring.val).outs.map (·.desc)
    let older := if s.rings.version.toNat = v then s.rings.older else left.filter fun o => !s.rings.older.contains o
    { s with rings := { s.rings with version := BitVec.ofNat 4 v, older := older } }.raise 0x044 [BitVec.ofNat 8 v]

/-- SET_INTERFACE_VERSION (R469). -/
def execSetInterfaceVersion (d : Desc) (s : State) : Out := .next (ringCommand d 0 [(8, 1)] (ifaceBody d) s true)

/-! ### Management ports -/

/-- MGMT_CFG_k (Table 20.22). -/
def State.mgmtCfg (s : State) (k : Nat) : Nat := s.regN (0x00306000 + 0x10 * k)

/-- Send the transmit descriptors of management port k from CI up to PI (R479); n bounds their number. -/
def State.mgmtSendGo (k : Nat) : Nat → State → State
  | 0, s => s
  | n + 1, s =>
    let m := 2 * k + 1
    let x := s.ring .management m
    if x.state ≠ .running ∨ x.ci = x.pi then s
    else
      let a := x.slotAddr x.ci.toNat 16
      match s.readMem .annulus 0 a 16 with
      | (.data bs, s) =>
        let len := leAt bs 8 2
        match s.readMem .annulus 0 (leAt bs 0 8) len with
        | (.data f, s) =>
          let (_, s) := s.writeMem .annulus 0 (a + 10) [BitVec.ofNat 8 (leAt bs 10 1 % 128)]
          let s := s.emit (.mgmtFrame k (f ++ le 4 (Crypto.crc32 f).toNat))
          State.mgmtSendGo k n (s.setRing .management m { s.ring .management m with ci := x.ci + 1 })
        | (.refused, s) => s.ringError .management m 2
        | (.failed, s) => s.ringError .management m 3
      | (.refused, s) => s.ringError .management m 2
      | (.failed, s) => s.ringError .management m 3

/-- A management doorbell write: a transmit ring's port sends up to PI; a receive ring's PI is noted. More descriptors than the ring has slots
put it in ERROR (R466, R479, log entry 121). -/
def State.mgmtDoorbell (s : State) (m v : Nat) : State :=
  let x := s.ring .management m
  let p := BitVec.ofNat 17 v
  if x.state ≠ .running then s
  else if m % 2 = 0 then
    if x.cap < idxDiff p x.pi then s.ringError .management m 1 else { s with rings := { s.rings with mgmtPi := tput 0 s.rings.mgmtPi m p } }
  else if x.cap < idxDiff p x.ci then s.ringError .management m 1
  else
    let s := s.setRing .management m { x with pi := p }
    if bitOf (s.mgmtCfg (m / 2)) 31 then State.mgmtSendGo (m / 2) (idxDiff p x.ci) s else s

/-- MGMT_DOORBELL (R479). -/
def execMgmtDoorbell (m : Fin 4) (value : Word32) (s : State) : Out := if s.halted then .next s else .next (s.mgmtDoorbell m.val value.toNat)

/-- MGMT_LINK_CHANGE: the link of an enabled port in an assigned mode changes, with event 0x045 (R478, Table 20.22). -/
def execMgmtLinkChange (k : Fin 2) (up : Bool) (speed : BitVec 2) (s : State) : Out :=
  let cfg := s.mgmtCfg k.val
  let old := if k = 0 then s.rings.link0 else s.rings.link1
  if (up ∧ (¬ bitOf cfg 31 ∨ bits cfg 29 2 = 3)) ∨ up = old then .next s
  else
    let s := if k = 0 then { s with rings := { s.rings with link0 := up, speed0 := if up then speed else 0 } }
      else { s with rings := { s.rings with link1 := up, speed1 := if up then speed else 0 } }
    .next (s.raise 0x045 [BitVec.ofNat 8 k.val, BitVec.ofNat 8 (b2n up)])

end Sys2Proof.Machine
end

