-- ==== Sys2Proof/Machine/Mgmt.lean ====
section
/-! DEFINITION. The management ports' receive side, FRAME_SEND and RESYNC (R477 to R485). -/

namespace Sys2Proof.Machine

/-! ### Management ports (R478, R479) -/

/-- Link of management port k. -/
def State.mgmtLink (s : State) (k : Nat) : Bool := if k = 0 then s.rings.link0 else s.rings.link1

/-- The address filter of port k (Table 20.24): its MAC address, broadcast and multicast, or every frame under PROMISC. -/
def State.mgmtAccepts (s : State) (k : Nat) (f : List Byte) : Bool :=
  (s.ring .management (2 * k)).promisc || bitOf (leAt f 0 1) 0 || beAt f 0 6 == s.mgmtMac k

/-- A frame of the arbiter on ARB_PORT (R451, R479). -/
def State.fromArbiter (s : State) (k : Nat) (f : List Byte) : Bool :=
  s.twin.lease != .unconfigured && b2n s.twin.arbPort == k && beAt f 12 2 == 0x88B5 && beAt f 6 6 == s.twin.arbMac.toNat

/-- Fill the next descriptor of port k with a frame (Table 20.9). -/
def State.mgmtFill (s : State) (k : Nat) (f : List Byte) (fcsErr : Bool) : State :=
  let m := 2 * k
  let x := s.ring .management m
  let a := x.slotAddr x.pi.toNat 16
  if x.state ≠ .running then s.count (cid 0x0F 2 k)
  else match s.readMem .annulus 0 a 16 with
    | (.refused, s) => s.ringError .management m 2
    | (.failed, s) => s.ringError .management m 3
    | (.data bs, s) =>
      if ¬ bitOf (leAt bs 10 1) 7 then s.count (cid 0x0F 2 k)
      else match s.writeMem .annulus 0 (leAt bs 0 8) f with
        | (false, s) => s.ringError .management m 2
        | (true, s) =>
          let flags := 2 * b2n (bitOf (leAt f 0 1) 0) + b2n fcsErr
          match s.writeMem .annulus 0 (a + 8) (le 2 f.length ++ [BitVec.ofNat 8 flags]) with
          | (false, s) => s.ringError .management m 2
          | (true, s) => s.setRing .management m ((s.ring .management m).advance s.clk false)

/-- A frame, with its FCS, arrives at management port k (R478, R479). -/
def State.mgmtReceive (s : State) (k : Nat) (frame : List Byte) : State :=
  let f := frame.take (frame.length - 4)
  let good := frame.drop (frame.length - 4) == le 4 (Crypto.crc32 f).toNat
  if ¬ bitOf (s.mgmtCfg k) 31 ∨ ¬ s.mgmtLink k then s
  else if 2048 < frame.length then s.count (cid 0x0F 1 k)
  else if ¬ good ∧ ¬ (s.ring .management (2 * k)).promisc then s
  else if good ∧ s.fromArbiter k f then s.arbiterIn (f.drop 14)
  else if s.mgmtAccepts k f then s.mgmtFill k f (!good)
  else s

/-- MGMT_FRAME_RECEIVE (R479). -/
def execMgmtFrameReceive (k : Fin 2) (frame : List Byte) (s : State) : Out := .next (s.mgmtReceive k.val frame)

/-! ### FRAME_SEND (R477) -/

/-- A message to the management channel of a line port: it waits for its segments, and completes with the last (R151, R477). -/
def State.sendMessage (s : State) (d : Desc) : State :=
  let n := d.get 0x12 1 % 16
  let len := d.get 0x10 2
  if len = 0 ∨ 2048 < len then s.done d .badRequest
  else s.withBuf d .annulus (d.get 8 8) len fun bs s =>
    let p := s.facetPort n
    s.setFacet n { p with txMsgs := p.txMsgs ++ [(bs, d)] }

/-- A frame to an egress logical port: written into cells of the ring's owner and offered to Sector (R20, R135, R362, R390, R477). -/
def State.sendFrame (s : State) (d : Desc) : State :=
  let len := d.get 0x10 2
  let lp := d.get 0x12 1 % 128
  let fl := d.get 0x13 1
  let owner := 160 + d.ring.val
  let line := decide (64 ≤ lp)
  let unctl := line && bitOf fl 0
  let tsId := if bitOf fl 1 then some (d.get 0x16 2) else none
  if len < 60 ∨ 9212 < len then s.done d .badRequest
  else s.withBuf d .annulus (d.get 8 8) len fun bs s =>
    let f : TFrame := { id := 0, bytes := bs, fcs := none, keep := 0, cells := [], pool := 0, charge := owner, refs := [], lp := lp, cut := false, stamp := 0
                        unctl := unctl, sa := none }
    match s.allocFrame owner f with
    | (none, s) => (s.notSent (lp / 64) (lp % 64) tsId).done d .noBuffer
    | (some id, s) =>
      let o : Offer := { side := lp / 64, queue := d.get 0x14 2 % 4096, lp := lp % 64, yellow := false, fromLine := false
                         sc := if line && !unctl then some (d.get 0x18 4 % 2 ^ 17) else none, unctl := unctl, tsId := tsId }
      let (ok, s) := s.enter o id (some owner)
      s.complete d { status := .ok, r0 := b2n ok }

/-- FRAME_SEND after the header checks (Table 20.8). -/
def frameSendBody (d : Desc) (s : State) : State :=
  let dest := d.get 0x12 1
  if 4 ≤ d.get 0x13 1 ∨ 4096 ≤ d.get 0x14 2 ∨ 2 ^ 17 ≤ d.get 0x18 4 ∨ (bitOf dest 7 ∧ bits dest 4 3 ≠ 0) then s.done d .badRequest
  else if bitOf dest 7 then s.sendMessage d else s.sendFrame d

/-- FRAME_SEND (R477). -/
def execFrameSend (d : Desc) (s : State) : Out := .next (ringCommand d 0 [(8, 20)] (frameSendBody d) s)

/-! ### Words of read-only registers that a summary holds -/

/-- APEX_LC_STATE (Table 2.13). TOKENS_USED counts the token transitions made. -/
def State.lcWord (s : State) : Nat :=
  let c := s.lc
  let t := match s.openIntent with
    | some w => bits w.toNat 24 4
    | none => c
  t <<< 24 ||| b2n s.openIntent.isSome <<< 16 ||| min 4 ((c + 1) / 2) <<< 8 ||| c

/-- APEX_BOOT_STATUS (Table 2.14). -/
def State.bootWord (s : State) : Nat :=
  b2n s.apex.blAlt <<< 9 ||| b2n s.apex.patchAlt <<< 8 ||| b2n s.apex.blSigned <<< 4 ||| b2n s.apex.measLock

/-- APEX_ALARM_CAUSE (Table 2.15). -/
def State.alarmWord (s : State) : Nat := s.apex.railId.toNat <<< 8 ||| s.apex.cause.toNat

/-- APEX_DBG_RIGHTS: the rights in force (Table 2.16, R57). -/
def State.rightsWord (s : State) : Nat :=
  b2n s.apex.opened <<< 16 ||| (List.range 16).foldl (fun a b => if s.dbgRight b then a + 2 ^ b else a) 0

/-- The code of RING_STATUS.STATE (Table 20.19). -/
def RingState.code : RingState → Nat
  | .disabled => 0 | .running => 1 | .draining => 2 | .error => 3

/-- The code of a region state (Table 17.4). -/
def RegionState.code : RegionState → Nat
  | .off => 0 | .init => 1 | .active => 2 | .readOnly => 3 | .rekey => 4 | .tainted => 5

/-- HULL_RGN_CTRL (Table 17.13). -/
def State.regionCtrl (s : State) (k : Nat) : Nat :=
  let r := s.region k
  r.state.code <<< 29 ||| b2n r.integ <<< 28 ||| r.rights.toNat <<< 14 ||| ((s.taints k).filter (·.region == k)).length <<< 8

/-- HULL_RGN_GEOM (Table 17.14). -/
def Region.geom (r : Region) : Nat := r.base.toNat <<< 12 ||| r.size.toNat
/-- HULL_RGN_META (Table 17.15). -/
def Region.metaWord (r : Region) : Nat := r.metaBase.toNat <<< 13 ||| r.metaSize.toNat

/-- MEMC_STATUS (Table 17.12). -/
def State.memcWord (s : State) : Nat :=
  s.hull.gib1.toNat <<< 16 ||| s.hull.gib0.toNat <<< 8 ||| s.hull.fail.toNat <<< 4 ||| s.hull.up.toNat

/-- AXIS_SLOT_STATUS of a slot (Table 3.12, R92). -/
def Slot.word (x : Slot) : Nat :=
  let h := x.shown
  (match x.active with | .none => 0 | .valid => 1 | .invalid => 2) <<< 30 |||
  (match x.pending with | .empty => 0 | .staged => 1 | .verified => 2) <<< 28 |||
  b2n (x.old.any (·.erase.isSome)) <<< 27 ||| b2n (!x.old.isEmpty) <<< 26 ||| h.alg.toNat <<< 24 ||| h.use.toNat <<< 19 |||
  b2n h.retire <<< 18 ||| b2n (!h.anc.isEmpty) <<< 17

/-- GNOMON_STATUS (Table 16.12). -/
def State.gnomonWord (s : State) : Nat :=
  gnomonCode s.gnomon.mode <<< 30 ||| b2n s.gnomon.loadErr <<< 29 ||| s.holdS

/-- FACET_DEFECT (Table 7.8). -/
def State.facetDefect (s : State) (n : Nat) : Nat :=
  let p := s.facetPort n
  if ¬ p.active then 0
  else
    (List.range 4).foldl (fun a t => a ||| (p.rxs t).defects.toNat <<< (16 + 4 * t)) 0 ||| s.lolLanes n <<< 12 |||
      b2n p.rdiRx <<< 11 ||| p.farCode <<< 8 ||| p.defects.toNat

/-! ### RESYNC (R483 to R485) -/

/-- A section with its 8-byte header (R484). -/
def sectionOf (type : Nat) (body : List Byte) : List Byte := le 2 type ++ le 2 0 ++ le 4 (body.length + 8) ++ body

/-- LIFECYCLE. -/
def State.sumLifecycle (s : State) : List Byte := le 4 s.lcWord ++ le 4 s.bootWord ++ le 4 s.alarmWord ++ le 4 s.rightsWord

/-- One ring of RINGS. -/
def ringEntry (key : Nat) (r : Ring) : List Byte :=
  let kind := key / 64
  [BitVec.ofNat 8 kind, BitVec.ofNat 8 (key % 64), BitVec.ofNat 8 r.state.code, BitVec.ofNat 8 r.outs.length] ++
    le 4 r.pi.toNat ++ le 4 r.ci.toNat ++ [BitVec.ofNat 8 (if kind = 0 then r.completionRing else 0), 0, 0, 0] ++
    (if kind = 0 then r.outs.flatMap fun o => le 2 o.desc.tag ++ le 2 (o.desc.opcode * 16 + o.desc.version) else [])

/-- RINGS: the rings that are not DISABLED, by kind and index. -/
def State.sumRings (s : State) : List Byte :=
  (s.rings.rings.filter fun (e : Nat × Ring) => e.2.state != .disabled).flatMap fun (e : Nat × Ring) => ringEntry e.1 e.2

/-- Lanes of a logical port in service that are not LOCKED, bit i for lane i of its port. -/
def State.unlockedMask (s : State) (lp : Nat) : Nat :=
  if (s.lport lp).busy then maskOf (((s.lanesOf lp).filter fun k => !s.laneLocked k).map (· - lp / 4 * 4)) else 0

/-- One logical port of PORTS. -/
def State.sumPort (s : State) (lp : Nat) : List Byte :=
  let p := s.lport lp
  let facet := p.busy && p.mode == some 7
  [BitVec.ofNat 8 (b2n p.enabled + 2 * b2n facet + 4 * b2n p.up),
    BitVec.ofNat 8 (if p.busy then (p.mode.map (·.toNat)).getD 0 else 0)] ++
    le 2 ((p.partner.map (·.toNat)).getD 0) ++ [p.octeg, BitVec.ofNat 8 (s.unlockedMask lp)] ++
    le 4 (if facet then s.facetDefect ((lp - 64) / 4) else 0) ++ List.replicate 6 0

/-- PARTITIONS. -/
def State.sumPartition (s : State) (p : Nat) : List Byte :=
  let ctx := s.assoc.ctx.filter fun (e : Nat × Assoc) => e.1 / 8192 == p
  let n := fun c => (ctx.filter fun (e : Nat × Assoc) => e.2.status.code == c).length
  le 4 (8192 - (ctx.filter fun (e : Nat × Assoc) => e.2.status != .free).length) ++ ((List.range 7).flatMap fun c => le 4 (n (c + 1))) ++
    [BitVec.ofNat 8 (b2n (s.assoc.rots.any fun r => r.entries.any fun e => e.1 / 8192 == p))] ++ List.replicate 7 0

/-- The slots KEYOPS lists. -/
def State.busySlots (s : State) : Tbl Slot := s.axis.slots.filter fun (e : Nat × Slot) => e.2.pending != .empty || !e.2.old.isEmpty

/-- KEYOPS. -/
def State.sumKeyops (s : State) : List Byte :=
  le 4 s.busySlots.length ++ le 4 0 ++
    s.busySlots.flatMap fun (e : Nat × Slot) => le 4 (slotWord e.1) ++ le 4 e.2.word ++ le 4 e.2.gen.toNat ++ le 4 0

/-- TWIN. -/
def State.sumTwin (s : State) : List Byte :=
  le 4 s.twinStatus ++ le 4 s.twinCycle ++ le 4 s.leaseRemain ++ le 8 s.twin.copyAck ++ le 8 s.twin.epoch ++ le 4 0

/-- EVENTS. -/
def State.sumEvents (s : State) : List Byte :=
  ((List.range 1024).flatMap fun i => le 4 (tget 0 s.tele.raises i).toNat) ++
    (List.range 16).flatMap fun r => le 4 (s.ring .event r).lost.toNat

/-- MEMORY. -/
def State.sumMemory (s : State) : List Byte :=
  ((List.range 32).flatMap fun k => le 4 (s.regionCtrl k) ++ le 4 (s.region k).geom ++ le 4 (s.region k).metaWord ++ le 4 0) ++
    le 4 s.memcWord ++ List.replicate 12 0

/-- The sections of Table 20.13 in type order. -/
def State.sumSections (s : State) : List (List Byte) :=
  [sectionOf 1 s.sumLifecycle, sectionOf 2 s.sumRings, sectionOf 3 ((List.range 128).flatMap s.sumPort),
   sectionOf 4 ((List.range 16).flatMap s.sumPartition), sectionOf 5 s.sumKeyops, sectionOf 6 s.sumTwin,
   sectionOf 7 (le 4 s.gnomonWord ++ le 4 (s.regN 0x01400020)), sectionOf 8 s.sumEvents, sectionOf 9 s.sumMemory]

/-- The summary: header and sections (R484). -/
def State.summary (s : State) : List Byte :=
  let secs := s.sumSections
  let body := secs.flatten
  le 4 0x4E595352 ++ le 2 1 ++ le 2 secs.length ++ le 4 (64 + body.length) ++ le 4 0 ++ le 8 s.rings.summaryGen.toNat ++
    le 4 s.sec ++ le 4 (s.gnomon.time % 1000000000) ++ [BitVec.ofNat 8 s.rings.version.toNat] ++ List.replicate 31 0 ++ body

/-- RESYNC after the header checks: the summary of this instant is written whole, or not at all (R483, R485). -/
def resyncBody (d : Desc) (s : State) : State :=
  let s := { s with rings := { s.rings with summaryGen := s.rings.summaryGen + 1 } }
  let bs := s.summary
  if d.get 0x18 4 < bs.length then s.complete d { status := .bufferFull, r0 := bs.length }
  else match s.writeMem .annulus (ringOwner d.ring.val) (d.get 0x10 8) bs with
    | (false, s) => s.done d .badRequest
    | (true, s) =>
      let g := s.rings.summaryGen.toNat
      (s.complete d { status := .ok, r0 := bs.length, r1 := g }).raise 0x043 (le 8 g)

/-- RESYNC (R483). -/
def execResync (d : Desc) (s : State) : Out := .next (ringCommand d 0 [(0x10, 12)] (resyncBody d) s)

end Sys2Proof.Machine
end

