-- ==== Sys2Proof/Machine/Periph.lean ====
section
/-! DEFINITION. The platform peripherals (R550, R570, Table 25.13). -/

namespace Sys2Proof.Machine

/-- UART k. -/
def State.uart (s : State) (k : Nat) : Uart := tget Uart.reset s.periph.uarts k

/-- Replace UART k. -/
def State.setUart (s : State) (k : Nat) (x : Uart) : State :=
  { s with periph := { s.periph with uarts := tput Uart.reset s.periph.uarts k x } }

/-- UART_CFG_k.ENABLE. -/
def State.uartOn (s : State) (k : Nat) : Bool := bitOf (s.regN (0x20000008 + 0x100 * k)) 31

/-- A write of UART_DATA_k: a byte into the 16-byte transmit FIFO, dropped when full. -/
def State.uartPush (s : State) (k v : Nat) : State :=
  let x := s.uart k
  if x.tx.length < 16 then s.setUart k { x with tx := x.tx ++ [BitVec.ofNat 8 v] } else s

/-- UART_DATA_WRITE (R570). -/
def execUartDataWrite (k : Fin 2) (value : Word32) (s : State) : Out := if s.halted then .next s else .next (s.uartPush k.val value.toNat)

/-- UART_DATA_READ: VALID and the oldest received byte, which the read removes (R570). -/
def execUartDataRead (k : Fin 2) (s : State) : Out :=
  let x := s.uart k.val
  match x.rx with
  | [] => .next { s with readValue := 0 }
  | b :: bs => .next { s.setUart k.val { x with rx := bs } with readValue := BitVec.ofNat 32 (256 + b.toNat) }

/-- UART_BYTE_RECEIVE: a byte on UARTk_RXD of an enabled UART; to a full FIFO it sets RX_OVF (R570). -/
def execUartByteReceive (k : Fin 2) (b : Byte) (s : State) : Out := if s.halted then .next s else
  let x := s.uart k.val
  if ¬ s.uartOn k.val then .next s
  else if x.rx.length < 16 then .next (s.setUart k.val { x with rx := x.rx ++ [b] })
  else .next (s.setUart k.val { x with ovf := true })

/-- UART_BYTE_SENT: the oldest byte of an enabled UART's transmit FIFO has been shifted out (R570). -/
def execUartByteSent (k : Fin 2) (s : State) : Out :=
  let x := s.uart k.val
  match x.tx with
  | [] => .next s
  | b :: bs => if s.uartOn k.val then .next ((s.setUart k.val { x with tx := bs }).emit (.uart k.val b)) else .next s

/-- I2C controller k. -/
def State.i2c (s : State) (k : Nat) : I2c := tget I2c.reset s.periph.i2cs k

/-- Replace an I2C controller. -/
def State.setI2c (s : State) (k : Nat) (x : I2c) : State :=
  { s with periph := { s.periph with i2cs := tput I2c.reset s.periph.i2cs k x } }

/-- A write of I2C_CMD_k: an enabled controller that is not BUSY runs it; I2C 3 belongs to Apex until Compass release (R550, R570). -/
def State.i2cCommand (s : State) (k v : Nat) : State :=
  let x := s.i2c k
  let go := 0 < bits v 28 4 ∧ x.cmd.isNone ∧ bitOf (s.regN (0x20001000 + 0x100 * k)) 31 ∧ (k ≠ 3 ∨ s.rings.released)
  let c := BitVec.ofNat 32 (v &&& 0xF00000FF)
  if go then (s.setI2c k { x with cmd := some c }).emit (.i2c k c) else s

/-- I2C_START: a start condition (R570). -/
def execI2cStart (k : Fin 4) (s : State) : Out := .next (s.i2cCommand k.val 0x80000000)

/-- I2C_STOP: a stop condition (R570). -/
def execI2cStop (k : Fin 4) (s : State) : Out := .next (s.i2cCommand k.val 0x40000000)

/-- I2C_READ: a byte is read, with ACK unless STOP (R570). -/
def execI2cRead (k : Fin 4) (stop : Bool) (s : State) : Out := .next (s.i2cCommand k.val (if stop then 0x60000000 else 0x20000000))

/-- I2C_WRITE: DATA is sent (R570). -/
def execI2cWrite (k : Fin 4) (b : Byte) (s : State) : Out := .next (s.i2cCommand k.val (0x10000000 + b.toNat))

/-- I2C_TRANSFER_DONE: BUSY clears; NACK or ARB_LOST is recorded, or the byte read (R570). -/
def execI2cTransferDone (k : Fin 4) (nack arbLost : Bool) (b : Byte) (s : State) : Out :=
  let x := s.i2c k.val
  match x.cmd with
  | none => .next s
  | some c => .next (s.setI2c k.val { cmd := none, nack := x.nack || nack, lost := x.lost || arbLost
                                      last := if c.getLsbD 29 && !arbLost then b else x.last })

end Sys2Proof.Machine
end

