-- ==== Sys2Proof/Machine/Ports.lean ====
section
/-! DEFINITION. PORT_ENABLE and PORT_DISABLE with their drains (R22, R23, R29 to R32, R94, R125, R127, R167, R168, R204, R207, R208, R270,
R363, R433, R501, R502). -/

namespace Sys2Proof.Machine

/-- Number of a side in the logical port table. -/
def sideNo (side : Side) : Nat := match side with
  | .client => 0
  | .line => 1

/-! ### The body of the two commands (R501) -/

/-- SIDE. -/
def portSide (d : Desc) : Nat := d.get 8 1 % 2
/-- PATH. -/
def portPath (d : Desc) : Nat := d.get 8 1 / 2
/-- Port n. -/
def portNo (d : Desc) : Nat := d.get 9 1
/-- MODE. -/
def portMode (d : Desc) : Nat := d.get 0xA 1
/-- Sub-port mask. -/
def portMask (d : Desc) : Nat := d.get 0xB 1
/-- Sub-ports of a mode (Table 18.2). -/
def modeSubs (m : Nat) : Nat := match m with
  | 1 | 4 => 2
  | 2 => 4
  | _ => 1
/-- The sub-ports a mask names. -/
def maskSubs (m : Nat) : List Nat := (List.range 4).filter (bitOf m)
/-- Logical port s of the port. -/
def portLp (d : Desc) (s : Nat) : Nat := 64 * portSide d + 4 * portNo d + s
/-- Partner entry s: 32 bits. -/
def partnerEntry (d : Desc) (s : Nat) : Nat := d.get (0xC + 4 * s) 4

/-- Field and range checks of PORT_ENABLE (R501). -/
def portFieldsOk (d : Desc) : Bool :=
  let subs := maskSubs (portMask d)
  d.get 8 1 < 4 && portNo d < 16 && portMode d < 8 && (portMode d == 7) == (portPath d == 1) && (portSide d == 1 || portPath d == 0) &&
    (portMode d != 6 || portNo d % 2 == 0) && portMask d != 0 && portMask d < 2 ^ modeSubs (portMode d) &&
    (if portSide d = 0 then d.get 0xC 16 == 0 else
      (portMode d != 7 || d.get 0x10 12 == 0) && subs.all fun s =>
        let e := partnerEntry d s
        !bitOf e 7 || (!bitOf e 6 && 1 ≤ bits e 8 8 && bits e 8 8 ≤ 3))

/-! ### State checks -/

/-- A sub-port of a port is enabled. -/
def State.portOn (s : State) (side n : Nat) : Bool := (List.range 4).any fun i => (s.lport (64 * side + 4 * n + i)).enabled

/-- A sub-port of a port is enabled or drains. -/
def State.portBusy (s : State) (side n : Nat) : Bool := (List.range 4).any fun i => (s.lport (64 * side + 4 * n + i)).busy

/-- The mode of the enabled sub-ports of a port. -/
def State.portModeNow (s : State) (side n : Nat) : Option Nat :=
  firstSome ((List.range 4).map fun i =>
    let p := s.lport (64 * side + 4 * n + i)
    if p.busy then p.mode.map (·.toNat) else none)

/-- The port is the odd one of an 800G pair in service. -/
def State.oddOfPair (s : State) (side n : Nat) : Bool := n % 2 == 1 && s.portModeNow side (n - 1) == some 6

/-- A partner handle is held by another enabled logical port, or named twice (R94). -/
def State.partnerClash (s : State) (d : Desc) : Bool :=
  let subs := maskSubs (portMask d)
  let hs := subs.map fun i => partnerEntry d i % 64
  portSide d == 1 && (hs.eraseDups != hs || s.ports.lports.any fun e =>
    e.2.busy && !(subs.map (portLp d)).contains e.1 && (match e.2.partner with
      | some h => hs.contains h.toNat
      | none => false))

/-- Lanes that the named sub-ports use. -/
def portLanes (d : Desc) (subs : List Nat) (mode : Nat) : List Nat :=
  subs.flatMap fun s => (subLanes mode (portNo d) s).map (64 * portSide d + ·)

/-- A pattern generator or checker is enabled on a lane (R433). -/
def State.patternOn (s : State) (k : Nat) : Bool := s.regN (laneOff k + 0xC) / 2 ^ 30 != 0

/-- N of TRIB_N. -/
def tribN (v : Nat) : Nat := 2 ^ (v % 4)

/-- The rate of the tributary a client logical port is cross-connected to (R31). -/
def State.tribRate (s : State) (lp : Nat) : Option Nat :=
  (s.facet.find? fun e => e.2.active && (List.range e.2.trib).any fun t => (e.2.slot t).equipped && (e.2.slot t).client.toNat == lp).map
    fun e => 400 / e.2.trib

/-- A client logical port that R31 refuses for a tributary of a port with N tributaries: it is cross-connected, belongs to an 800G pair, or
is in service at another rate, which the spec gives no status for (log entry 148). -/
def State.clientRefused (s : State) (n N lp : Nat) : Bool :=
  let taken := s.facet.any fun e => e.1 != n && e.2.active && (List.range e.2.trib).any fun t =>
    (e.2.slot t).equipped && (e.2.slot t).client.toNat == lp
  let pair := (s.lport (lp / 8 * 8)).mode == some 6 && (s.lport (lp / 8 * 8)).busy
  let p := s.lport lp
  let wrong := p.busy && (match p.mode with
    | some m => modeRate m.toNat != 400 / N
    | none => false)
  taken || pair || wrong

/-- The tributary slot that FACET_TRIB_CFG and FACET_PTRACE describe (Tables 6.12, 6.14). -/
def State.facetSlot (s : State) (n t N : Nat) : FacetSlot :=
  let v := s.regN (facetOff n (0x210 + 4 * t))
  let trace := (List.range 16).foldl (fun x i => x + s.regN (facetOff n (0x280 + 0x40 * t + 4 * i)) * 2 ^ (32 * i)) 0
  { equipped := bitOf v 31, client := BitVec.ofNat 6 (bits v 20 6), stuff := BitVec.ofNat 6 (bits v 10 6), offset := BitVec.ofNat 10 (v % 1024)
    type := if bitOf v 31 then (if N = 1 then 1 else if N = 2 then 2 else 3) else 0, trace := BitVec.ofNat 512 trace }

/-- The fixed-stuff count meets R167: both bounds in units of 1 bit/s times 10,000. -/
def stuffOk (N F : Nat) : Bool :=
  let C := 1012 / N
  let D := C - 1 - F
  let rate := 401562500000 / N
  F < C - 1 && 10000 * (415120000 * (D - 1)) ≤ 9999 * rate && 10001 * rate ≤ 10000 * (415120000 * (D + 1))

/-- The tributaries of a port are refused with IN_USE (R31): some client is, or two slots name one client. -/
def State.tribsInUse (s : State) (n : Nat) : Bool :=
  let N := tribN (s.regN (facetOff n 0x200))
  let slots := ((List.range N).map fun t => s.facetSlot n t N).filter (·.equipped)
  let cs := slots.map (·.client.toNat)
  cs.eraseDups != cs || cs.any (s.clientRefused n N)

/-- The registers of a transport-path port that PORT_ENABLE refuses (R167, R168). -/
def State.facetRegsBad (s : State) (n : Nat) : Bool :=
  let v := s.regN (facetOff n 0x200)
  let N := tribN v
  v % 4 == 3 || (List.range N).any fun t =>
    let sl := s.facetSlot n t N
    1012 / N ≤ sl.offset.toNat || (sl.equipped && !stuffOk N sl.stuff.toNat)

/-- LINE_MACSEC_CFG of a line logical port (Table 5.3). -/
def State.macsecReg (s : State) (lp : Nat) : BitVec 32 := s.reg (0x03800100 + 0x20000 * (lp / 4) + 4 * (lp % 4))

/-- The registers of a frame-path line logical port that PORT_ENABLE refuses (R125, R127). -/
def State.macsecRegsBad (s : State) (lp : Nat) : Bool :=
  let v := (s.macsecReg lp).toNat
  bits v 24 2 == 3 || bits v 22 2 == 3 || (!bitOf v 20 && s.assoc.ctx.any fun e => e.2.status != .free && e.2.group && e.2.lp == 64 + lp)

/-- A client port of the named set stands cross-connected to a tributary, and the mode does not let it: an 800G pair takes none (R23, R32),
any other mode must give the tributary's rate (R31, log entry 148). -/
def State.crossBars (s : State) (d : Desc) : Bool :=
  let n := portNo d
  portSide d == 0 && if portMode d = 6 then (List.range 8).any fun i => s.attached (4 * n + i)
    else (maskSubs (portMask d)).any fun i => match s.tribRate (4 * n + i) with
      | some r => modeRate (portMode d) != r
      | none => false

/-- The status of a PORT_ENABLE whose fields are right (R488, R501, R502). -/
def State.enableStatus (s : State) (d : Desc) : Status :=
  let side := portSide d
  let n := portNo d
  let mode := portMode d
  let subs := maskSubs (portMask d)
  let now := s.portModeNow side n
  if s.portOn side n ∧ (now == some 7) ≠ (mode == 7) then .portActive
  else if (s.portOn side n ∧ now ≠ some mode) ∨ subs.any (fun i => (s.lport (portLp d i)).busy) then .inUse
  else if (mode = 6 ∧ (s.portBusy side n ∨ s.portBusy side (n + 1))) ∨ s.oddOfPair side n ∨ s.crossBars d then .inUse
  else if side = 1 ∧ subs.any (fun i => !bitOf (partnerEntry d i) 7) then .noPartner
  else if s.partnerClash d then .inUse
  else if (portLanes d subs mode).any s.patternOn then .inUse
  else if mode = 7 ∧ s.regN (facetOff n 0x200) % 4 = 3 then .badRequest
  else if mode = 7 ∧ s.tribsInUse n then .inUse
  else if mode = 7 ∧ s.facetRegsBad n then .badRequest
  else if side = 1 ∧ mode ≠ 7 ∧ subs.any (fun i => s.macsecRegsBad (4 * n + i)) then .badRequest
  else .ok

/-! ### Effects of PORT_ENABLE -/

/-- The port parameter block of a line sub-port (Table 11.2). -/
def State.paramBlock (s : State) (n sub : Nat) (facet dec : Bool) : List Byte :=
  let head := 2 ^ 31 + 2 ^ 30 * b2n facet + 2 ^ 29 * b2n dec +
    (if facet then 2 ^ 16 * (s.regN (facetOff n 0x200) % 4) else (s.macsecReg (4 * n + sub)).toNat &&& 0x03FC0000)
  let stuff := if facet then (List.range 4).map fun t => BitVec.ofNat 8 (bits (s.regN (facetOff n (0x210 + 4 * t))) 10 6) else List.replicate 4 0
  le 4 head ++ stuff ++ List.replicate 8 0

/-- Write the port parameter block of sub-port `sub` in Prism c (R270). -/
def State.setParams (s : State) (c sub : Nat) (bs : List Byte) : State := s.scratchWrite c (0xFFF00 + 16 * sub) bs

/-- The Prisms that serve a line port: both of an 800G pair (R22). -/
def prismsOf (n mode : Nat) : List Nat := if mode = 6 then [n, n + 1] else [n]

/-- A transport-path port starts (R141, R160, R168): its registers are sampled and every tributary sends its new pointer. -/
def State.startFacet (s : State) (n : Nat) : State :=
  let old := s.facetPort n
  let N := tribN (s.regN (facetOff n 0x200))
  let slots := (List.range N).map fun t => (t, s.facetSlot n t N)
  let strace := (List.range 16).foldl (fun x i => x + s.regN (facetOff n (0x240 + 4 * i)) * 2 ^ (32 * i)) 0
  let map : Mapper := { Mapper.reset with newPtr := 3 }
  let p : FacetPort := { FacetPort.reset with
    active := true, trib := N, slots := slots.filter fun e => e.2 != FacetSlot.reset, strace := BitVec.ofNat 512 strace
    maps := (List.range N).map fun t => (t, map), txMsgs := old.txMsgs, txRest := old.txRest
    latch := old.latch, pmShown := old.pmShown, pmSecond := old.pmSecond }
  (((s.setFacet n p).facetSignal n).facetLol n)

/-- One sub-port is enabled (R94, R109, R125, R204, R270, R425). -/
def State.enableSub (s : State) (d : Desc) (i : Nat) : State :=
  let lp := portLp d i
  let n := portNo d
  let mode := portMode d
  let line := portSide d == 1
  let e := partnerEntry d i
  let x : LPort :=
    { enabled := true, draining := false, mode := some (BitVec.ofNat 3 mode), up := false
      partner := if line then some (BitVec.ofNat 6 (e % 64)) else none
      octeg := if line then BitVec.ofNat 8 (bits e 8 8) else 0, peer := if line then BitVec.ofNat 16 (bits e 16 16) else 0
      macsec := if line && mode != 7 then s.macsecReg (lp - 64) else 0
      etypes := if line && mode != 7 then s.reg (facetOff n 0x114) ++ s.reg (facetOff n 0x110) else 0 }
  let s := s.setLport lp x
  let s := (subLanes mode n i).foldl (fun s k => s.startLane (64 * portSide d + k)) s
  let s := s.releap fun a => a.lp == lp
  if line then (prismsOf n mode).foldl (fun s c => s.setParams c i (s.paramBlock n i (mode == 7) (tget false s.ports.decPolicy c))) s else s

/-- PORT_ENABLE takes effect (R204, R501, R502). -/
def State.enablePort (s : State) (d : Desc) : State :=
  let n := portNo d
  let mode := portMode d
  let line := portSide d == 1
  let s := if line ∧ !s.portOn 1 n then
      (prismsOf n mode).foldl (fun s c =>
        { s with ports := { s.ports with decPolicy := tput false s.ports.decPolicy c (bitOf (s.regN (0x02000000 + 0x100000 * c)) 0) } }) s
    else s
  let s := (maskSubs (portMask d)).foldl (fun s i => s.enableSub d i) s
  (if mode = 7 then s.startFacet n else s).rclk.syncRestore

/-- The body of PORT_ENABLE. -/
def portEnableBody (d : Desc) (s : State) : State :=
  if !portFieldsOk d then s.done d .badRequest
  else match s.enableStatus d with
    | .ok => (s.enablePort d).done d .ok
    | st => s.done d st

/-- PORT_ENABLE (R501, R502). -/
def execPortEnable (d : Desc) (s : State) : Out := .next (ringCommand d 0 [(8, 4), (0xC, 16)] (portEnableBody d) s)

/-! ### PORT_DISABLE (R207, R208, R363) -/

/-- Parked frames of a line logical port are dropped (R207). -/
def State.dropParkedOf (s : State) (lp : Nat) : State :=
  s.prism.units.foldl (fun s (e : Nat × PrismUnit) => (e.2.parked.filter fun p => p.item.lp == lp).foldl (fun s p => s.dropParked e.1 5 p) s) s

/-- A transport-path port stops; the defects it shows go, its latches and performance copies stay, and messages wait for the next enable. -/
def State.stopFacet (s : State) (n : Nat) : State :=
  let p := s.facetPort n
  if !p.active then s
  else s.setFacet n { FacetPort.reset with
    latch := p.latch, pm := p.pm, pmShown := p.pmShown, pmSecond := p.pmSecond, txMsgs := p.txMsgs, txRest := p.txRest }

/-- One enabled sub-port stops taking frames (R207, R363). -/
def State.disableSub (s : State) (side n i : Nat) : State :=
  let lp := 4 * n + i
  let p := s.lport (64 * side + lp)
  if !p.enabled then s
  else
    let s := s.setLport (64 * side + lp) { p with enabled := false, draining := true, up := false }
    let s := s.discardPort side lp
    if side = 1 then (s.dropParkedOf lp) else s

/-- Frames of a line logical port that a Prism still holds (R207, R208). -/
def State.portItems (s : State) (lp : Nat) : List (Nat × Item) :=
  s.prism.units.flatMap fun (e : Nat × PrismUnit) => (e.2.items.filter fun i => i.kind != 3 && i.lp == lp && i.stage != .dropped).map fun i => (e.1, i)

/-- Every named sub-port has drained. -/
def State.drained (s : State) (x : Disable) : Bool :=
  x.side == .client || (maskSubs x.mask).all fun i => (s.portItems (4 * x.port + i)).isEmpty

/-- The sub-ports of a disable return their lanes to OFF, and their parameter blocks are zeroed (R270, R425, R502). -/
def State.closePort (s : State) (x : Disable) : State :=
  let side := sideNo x.side
  let s := (maskSubs x.mask).foldl (fun s i =>
    let lp := 4 * x.port + i
    let p := s.lport (64 * side + lp)
    if !p.draining then s
    else
      let mode := (p.mode.map (·.toNat)).getD 0
      let s := s.setLport (64 * side + lp) { p with draining := false, partner := none }
      let s := (subLanes mode x.port i).foldl (fun s k => s.stopLane (64 * side + k) 0) s
      let units := s.prism.units.map fun (e : Nat × PrismUnit) =>
        (e.1, { e.2 with items := e.2.items.filter fun i => !(i.kind != 3 && i.lp == lp && side == 1) })
      let s := { s with prism := { s.prism with units := units.filter fun e => e.2 != PrismUnit.reset } }
      let s := if side = 1 then (prismsOf x.port mode).foldl (fun s c => s.setParams c i (List.replicate 16 0)) s else s
      if mode = 7 then s.stopFacet x.port else s) s
  ({ s with ports := { s.ports with disables := s.ports.disables.filter (·.desc != x.desc) } }).rclk

/-- The body of PORT_DISABLE: a set without an enabled or draining sub-port has nothing to drain. It clears FACET_MAINT of a line port
(R190). -/
def portDisableBody (d : Desc) (s : State) : State :=
  let side := portSide d
  let n := portNo d
  let subs := maskSubs (portMask d)
  let mode := (s.portModeNow side n).getD 2
  if 4 ≤ d.get 8 1 ∨ 16 ≤ n ∨ portMask d = 0 ∨ 2 ^ modeSubs mode ≤ portMask d ∨ (side = 0 ∧ portPath d = 1) then s.done d .badRequest
  else
    let s := if side = 1 then s.setReg (facetOff n 0x40C) 0 else s
    if !subs.any (fun i => (s.lport (portLp d i)).busy) then s.done d .ok
    else
      let s := (subs.foldl (fun s i => s.disableSub side n i) s).syncRestore
      let x : Disable :=
        { desc := d, side := if side = 0 then .client else .line, port := n, mask := portMask d, due := s.clk + s.timeoutOf d 50000 }
      { s with ports := { s.ports with disables := s.ports.disables ++ [x] } }

/-- PORT_DISABLE (R207, R363, R502). -/
def execPortDisable (d : Desc) (s : State) : Out := .next (ringCommand d 0 [(8, 2), (0xB, 1)] (portDisableBody d) s)

/-- PORT_DRAIN_END: the drains of the oldest disable of a port that has drained end (R207, R363). -/
def execPortDrainEnd (side : Side) (n : Fin 16) (s : State) : Out :=
  match s.ports.disables.find? fun x => x.side == side && x.port == n.val && s.drained x with
  | none => .next s
  | some x => .next ((s.closePort x).done x.desc .ok)

/-- The frames of one logical port that remain are discarded, counted and reported for each Prism (R208, R210). -/
def State.discardItems (s : State) (lp : Nat) : Nat × State :=
  let l := s.portItems lp
  let s := l.foldl (fun s e => s.discardUnder e.1 e.2) s
  let s := (l.map (·.1)).eraseDups.foldl (fun s c =>
    let n := (l.filter (·.1 == c)).length
    (s.countN (cid 0x04 4 lp) n).raise 0x142 ([BitVec.ofNat 8 c, BitVec.ofNat 8 (64 + lp)] ++ le 2 n)) s
  (l.length, s)

/-- PORT_DISABLE_TIMEOUT: what remains of the port's oldest disable is discarded (R208). -/
def execPortDisableTimeout (side : Side) (n : Fin 16) (s : State) : Out :=
  match s.ports.disables.find? fun x => x.side == side && x.port == n.val with
  | none => .next s
  | some x =>
    let s := s.passTo x.due
    let (m, s) := if side = .client then (0, s) else (maskSubs x.mask).foldl (fun (m, s) i =>
      let (k, s) := State.discardItems s (4 * n.val + i)
      (m + k, s)) (0, s)
    .next ((s.closePort x).complete x.desc (if m = 0 then { status := .ok } else { status := .drainedLate, r0 := m }))

end Sys2Proof.Machine
end

