-- ==== Sys2Proof/Machine/Resets.lean ====
section
/-! DEFINITION. Clocks, power and reset (chapter 23), alarms (R59), the boot of Apex (R46, R53, R397, R549) and EXTEST (R560). -/

namespace Sys2Proof.Machine

/-- Replace the clock, power and reset state. -/
def State.withCpr (s : State) (c : CprState) : State := { s with cpr := c }

/-- Bits of CPR_RESET_CAUSE are set (Table 23.10). -/
def State.noteCause (s : State) (c : BitVec 8) : State := s.withCpr { s.cpr with cause := s.cpr.cause ||| c }

/-- A rail that Table 23.3 monitors. -/
def railMonitored (id : Nat) : Bool := id ≤ 10

/-! ### Cold resets (R536, R539, R59, R560) -/

/-- What a cold reset leaves (Table 23.7): OTP, the flash, the always-on latch and the reset cause; the levels at PPS_IN and SNAP_IN
are the board's, and the entropy source is as healthy as it was. The model's own records stay. Writes under way are interrupted (R46, R90). -/
def State.coldState (s : State) : State :=
  let s := s.cutWrites
  let a := s.apex
  let apex : ApexState := { ApexState.reset with
    otp := a.otp, cause := a.cause, railId := a.railId, flash := a.flash, flashSize := a.flashSize, flashErase := a.flashErase }
  let cpr : CprState := { CprState.reset with cause := s.cpr.cause, railId := s.cpr.railId }
  let hull : HullState := { HullState.reset with epoch := s.hull.epoch }
  let gnomon : GnomonState := { GnomonState.reset with ppsIn := s.gnomon.ppsIn }
  let tele : TeleState := { TeleState.reset with snapIn := s.tele.snapIn }
  let axis : AxisState := { AxisState.reset with entropyOk := s.axis.entropyOk }
  { State.reset with
    pending := s.pending, freeCount := s.freeCount, out := s.out, apex := apex, cpr := cpr, hull := hull, gnomon := gnomon, tele := tele, axis := axis }

/-- A cold reset with its cause; one that ends an alarm hold is noted as such (Table 23.10). -/
def State.coldReset (s : State) (cause : BitVec 8) : State :=
  s.coldState.noteCause (cause ||| if s.apex.held ∧ ¬ s.apex.alarmN then 0x80 else 0)

/-- COLD_RESET: PORESET_N low (R539). -/
def execColdReset (s : State) : Out := .next (s.coldReset 0x20)

/-- SUPPLY_RESET: a rail below its reset threshold (R536). An alarm hold wins over it (Table 23.6). -/
def execSupplyReset (rail : Rail) (s : State) : Out :=
  if s.apex.held ∨ ¬ railMonitored rail.id.val then .next s
  else
    let t := s.coldReset 0x40
    .next (t.withCpr { t.cpr with railId := BitVec.ofNat 8 rail.id.val, supplyOwed := true })

/-- Every domain but the always-on one is held in reset until PORESET_N is next asserted; every key is gone (R59, R560). -/
def State.holdAll (s : State) (alarmN : Bool) : State :=
  let t := s.coldState
  let t := t.withApex { t.apex with held := true, alarmN := alarmN }
  t.withCpr { t.cpr with por := false }

/-- A source of Table 2.12 that can raise an alarm: a monitored rail, or a TAMPER_IN that owner OTP enables. -/
def State.alarmReal (s : State) (cause rail : Nat) : Bool :=
  if cause = 0 then railMonitored rail
  else if cause < 5 then true
  else cause < 7 && bitOf s.apex.otp.tamperEn.toNat (cause - 5)

/-- ALARM: the latch takes the cause, ALARM_N goes low and the part is held (R59, R60). -/
def execAlarm (cause : Fin 32) (rail : BitVec 8) (s : State) : Out :=
  if s.alarmReal cause.val rail.toNat then
    let a := s.apex
    let railId := if cause.val = 0 ∧ ¬ a.cause.getLsbD 0 then rail else a.railId
    let s := s.withApex { a with cause := a.cause ||| (1#7 <<< cause.val), railId := railId }
    .next (s.holdAll false)
  else .next s

/-- EXTEST_LOAD: keys are zeroised and the part is held until PORESET_N; ALARM_N keeps its level (R560). -/
def execExtestLoad (s : State) : Out := .next (s.holdAll s.apex.alarmN)

/-- AON_BROWN_OUT: the alarm latch and the reset cause are lost (R534). -/
def execAonBrownOut (s : State) : Out :=
  let s := s.withApex { s.apex with cause := 0, railId := 0 }
  .next (s.withCpr { s.cpr with cause := 0, railId := 0 })

/-! ### The boot of Apex -/

/-- Capacity of a DDR channel in GiB as straps or SPD give it; none where initialisation must fail (R549, R550). -/
def ddrCapacity (straps ch : Nat) : Option Nat :=
  let density := match bits straps 6 2 with
    | 0 => 16 | 1 => 24 | 2 => 32 | _ => 64
  let total := density * (1 + bits straps 8 1)
  let cap := match bits straps (2 * ch) 2 with
    | 1 => some total
    | 2 => some (total / 2)
    | 3 => Config.rdimmGib ch
    | _ => some 0
  match cap with
  | some c => if c ≤ 64 then some c else none
  | none => none

/-- A memory is there: both HBM stacks, and the DDR channels that are strapped (R549). -/
def memoryFitted (straps i : Nat) : Bool := i < 2 || bits straps (2 * (i - 2)) 2 != 0

/-- Memory i comes into service, `bad` holding the initialisations that failed (R397). -/
def memoryUp (straps bad i : Nat) : Bool :=
  memoryFitted straps i && !bitOf bad i && (i < 2 || (ddrCapacity straps (i - 2)).isSome)

/-- Both HBM stacks and both DDR channels are initialised; whether an initialisation succeeds is free (R397). -/
def State.initMemory (s : State) : State :=
  let (bad, s) := s.draw 4
  let st := s.cpr.straps.toNat
  let up := maskOf ((List.range 4).filter (memoryUp st bad))
  let fail := maskOf ((List.range 4).filter fun i => memoryFitted st i && !memoryUp st bad i)
  let gib := fun ch => if memoryUp st bad (ch + 2) then BitVec.ofNat 8 ((ddrCapacity st ch).getD 0) else 0
  { s with hull := { s.hull with up := BitVec.ofNat 4 up, fail := BitVec.ofNat 4 fail, gib0 := gib 0, gib1 := gib 1 } }

/-- DDR region 0 as Apex creates it: CONF, 1 GiB, Apex and Compass plaintext-write (R402). -/
def State.bootRegion (s : State) : State := s.createRegion 16 false 0x3C00 0x1000000000 (2 ^ 30) 0 0 none none

/-- Read the life-cycle state and resume an open transition; Compass is held with 0xE1 where the pattern is no thermometer and the intent
word, if one is open, does not account for it (R46, R47). -/
def State.readLifecycle (s : State) : State :=
  let s := s.resumeIntent
  if (lcCount s.apex.otp.lcCells).isNone then s.withApex { s.apex with holdCode := 0xE1 } else s

/-- DDR region 0, then the boot loader (R54, R402). -/
def State.bootMemory (s : State) : State :=
  let s := s.bootRegion
  if s.apex.holdCode = 0 then s.loadBoot else s

/-- The DRBG takes its first seed, or Axis does not serve (R83). -/
def State.firstSeed (s : State) : State :=
  if s.axis.entropyOk then s
  else
    let x : AxisState := { s.axis with entropyFail := true, drbgFail := true, serving := false }
    ({ s with axis := x }.raise 0x104 []).raise 0x105 []

/-- The boot of Apex: life-cycle, device root, patch, memories, DDR region 0, boot loader (R46, R53, R54, R85, R397, R402). While a rail
warns it waits before it resumes a transition, since no OTP cell may be written (R46, R49). Requests that wait in the mailboxes are then
taken. -/
def State.bootApex (s : State) : State :=
  if s.openIntent.isSome ∧ s.railWarns then s.withApex { s.apex with bootWaits := true }
  else
    let s := (s.withApex { s.apex with bootWaits := false }).readLifecycle.buildRoot.loadPatch.initMemory
    let s := if s.axis.serving then s.bootMemory else s.withApex { s.apex with regionWaits := true }
    ((s.withApex { s.apex with booted := true }).mbxUnknown .compass).mbxUnknown .debugPort

/-- PORESET_N rises, or the internal power-on reset is released: straps, PLLs, the first seed, then the boot of Apex (R531, R549). -/
def State.powerOn (s : State) : State :=
  let s := s.withCpr { s.cpr with por := false, straps := Config.straps &&& 0x3FF#12, pll := 15 }
  (s.withGnomon { s.gnomon with pllLocked := true }).firstSeed.bootApex

/-- POWER_ON_RESET_RELEASE (R539). -/
def execPowerOnResetRelease (s : State) : Out := if s.cpr.por ∧ ¬ s.apex.held ∧ ¬ s.apex.booted then .next s.powerOn else .next s

/-- ENTROPY_HEALTH_FAIL: the entropy source fails a health test (R83). Before the power-on reset is released Axis does not run yet. -/
def execEntropyHealthFail (s : State) : Out :=
  if s.cpr.por ∨ s.apex.held then .next { s with axis := { s.axis with entropyOk := false } }
  else .next ({ s with axis := { s.axis with entropyOk := false, entropyFail := true } }.raise 0x104 [])

/-- ENTROPY_RECOVERY: healthy entropy returns; Axis reseeds, serves again, and starts a sweep pass at once, and Apex goes on with DDR
region 0 where it waits (R82, R83, R402). -/
def execEntropyRecovery (s : State) : Out :=
  if s.axis.serving then .next { s with axis := { s.axis with entropyOk := true } }
  else
    let s := { s with axis := { s.axis with entropyOk := true, serving := true, drbgCount := 0, sweepDue := s.clk } }
    .next (if s.apex.regionWaits then (s.withApex { s.apex with regionWaits := false }).bootMemory else s)

/-! ### Warm reset (R540) -/

/-- A register that a warm reset does not cover (Tables 23.7, 25.1, 25.13). -/
def warmKeeps (off : Nat) : Bool := !(0x00300000 ≤ off && off < 0x00400000) && off < 0x20000000

/-- The commands that have been started and have not completed. -/
def State.startedCommands (s : State) : List Desc :=
  (s.rings.rings.filter fun (e : Nat × Ring) => e.1 < 64).flatMap fun (e : Nat × Ring) => (e.2.outs.filter (·.started)).map (·.desc)

/-- Rings after a warm reset: raises taken for them are discarded, commands started run on without completions, SUMMARY_GEN stays (R485,
R540, R572). -/
def State.warmRings (s : State) : State :=
  let orphans := s.rings.orphans ++ s.startedCommands
  let s := (List.range 16).foldl State.discardTaken s
  let keep := (s.rings.rings.filter fun (e : Nat × Ring) => 128 ≤ e.1 && e.1 < 192 && e.2.lostFlag).map fun (e : Nat × Ring) =>
    (e.1, { Ring.reset with lostFlag := true })
  { s with rings := { RingsState.reset with
      rings := keep, summaryGen := s.rings.summaryGen, startsHeld := s.rings.startsHeld, orphans := orphans } }

/-- What a warm reset clears and resets (Table 23.7, R56, R62); writes under way are interrupted, and a transition is resumed at once (R46,
R90). -/
def State.warmEffects (s : State) : State :=
  let s := s.cutWrites.warmRings
  let s := s.withApex { s.apex with mbxC := Mailbox.reset, mbxD := Mailbox.reset, lastServed := .debugPort, challenge := none, rights := 0
                                    ownerRights := 0, heldWrite := none }
  State.resumeIntent { s with
    regs := s.regs.filter fun (e : Nat × BitVec 32) => warmKeeps e.1
    counters := s.counters.filter fun (e : Nat × BitVec 64) => e.1 / 2 ^ 26 != 0x0F
    tele := { s.tele with held := [], heldLost := false }
    hull := { s.hull with mchkIrq := 0 }
    periph := PeriphState.reset }

/-- Apex reloads the boot loader and compares its digest with the one measured at cold reset (R540); where neither copy verifies the hold code
is 0xE3 too (log entry 152). -/
def State.bootCompare (s : State) : State :=
  if s.lc = 12 ∨ s.apex.holdCode = 0xE1 ∨ s.apex.holdCode = 0xE2 then s
  else match s.bootCopy with
    | none => s.withApex { s.apex with holdCode := 0xE3 }
    | some i =>
      let dg := slice (s.flashBytes (s.bootOff i) 288) 0x30 48
      if BitVec.ofNat 384 (Crypto.ofBytes (dg.map BitVec.toNat)) = s.apex.bootDigest then
        let s := if i = 3 then (s.withApex { s.apex with blAlt := true }).raise 0x006 [] else s
        (s.withApex { s.apex with holdCode := 0 }).placeBoot i
      else s.withApex { s.apex with holdCode := 0xE3 }

/-- A warm reset with its cause bits: it follows a datapath reset that runs, and a part held in reset has none (R539, R543). One that comes
before the boot loader has been measured leaves the boot that waits to go on. -/
def State.warmReset (s : State) (cause : BitVec 8) : State :=
  if s.apex.held ∨ s.cpr.por ∨ s.cpr.trip.isSome then s
  else if s.cpr.dpBusy.isSome then s.withCpr { s.cpr with warmWaits := s.cpr.warmWaits ||| cause }
  else
    let s := (s.noteCause cause).warmEffects
    if s.apex.booted ∧ ¬ s.apex.regionWaits then s.bootCompare else s

/-- WARM_RESET: RESET_N, or CPR_RESET.WARM (R539, R567). -/
def execWarmReset (by_ : ResetBy) (s : State) : Out :=
  match by_ with
  | .pin => .next (s.warmReset 0x10)
  | .reg src => if s.mayWriteRegs src then .next (s.warmReset 0x08) else .next s

/-! ### Datapath reset (R541) -/

/-- A command that a datapath block executes (Table 21.1): all but those of Axis, telemetry, Hull and the redundancy controller. -/
def datapathCommand (d : Desc) : Bool :=
  let op := d.opcode
  !(0x010 ≤ op && op < 0x020) && op != 0x060 && !(0x070 ≤ op && op < 0x090)

/-- A datapath command has been started and has not completed. -/
def State.dpStarted (s : State) : Bool := (s.startedCommands ++ s.rings.orphans).any datapathCommand

/-- Every association's deltas fold. -/
def State.foldAll (s : State) : State := (s.assoc.ctx.map fun (e : Nat × Assoc) => e.1).foldl (fun s h => (s.fold h).2) s

/-- Every logical port of a port is disabled at once, without drain; FACET_MAINT of an enabled port clears as at its PORT_DISABLE (R190). -/
def State.cutPort (s : State) (side n : Nat) : State :=
  let busy := s.portBusy side n
  let s := (List.range 4).foldl (fun s i => s.disableSub side n i) s
  let s := if side = 1 ∧ busy then s.setReg (facetOff n 0x40C) 0 else s
  s.closePort { desc := { ring := 0, word := 0 }, side := if side = 0 then .client else .line, port := n, mask := 15, due := 0 }

/-- All ports are disabled, and the PORT_DISABLE commands that drained are done. -/
def State.cutPorts (s : State) : State :=
  let s := (List.range 16).foldl (fun s n => (s.cutPort 0 n).cutPort 1 n) s
  let l := s.ports.disables
  l.foldl (fun s (x : Disable) => s.done x.desc .ok) { s with ports := { s.ports with disables := [] } }

/-- Every thread of a cluster returns to IDLE. -/
def State.idleCluster (s : State) (c : Nat) : State :=
  ((s.cluster c).threads.filter fun (e : Nat × Thread) => e.2.mode != .idle).foldl (fun s (e : Nat × Thread) =>
    (s.endOp c e.1 true).idle c e.1) s

/-- A Prism drops its items; a CRYPTO_BLOCK that runs ends as one that lost its chunk does. -/
def State.clearPrism (s : State) (n : Nat) : State :=
  let s := ((s.unit n).ghosts ++ (s.unit n).items).foldl (fun s (i : Item) => s.dropSlot n i.seq) s
  let s := (s.unit n).crypto.foldl (fun s r => s.cryptoEnd n r .disabled) s
  s.setUnit n { PrismUnit.reset with hcache := (s.unit n).hcache }

/-- Every Annulus queue is disabled; the rest of its configuration stays. -/
def State.cutQueues (s : State) : State :=
  let s := (List.range 256).foldl (fun s q =>
    if (s.aq q).enabled ∨ bitOf (s.regN (aqOff q)) 31 then s.queueDisable q (s.regN (aqOff q) % 2 ^ 31) else s) s
  { s with annulus := { s.annulus with punts := [], inbound := [] } }

/-- Radius is disabled; its area and its pending downlinks stay (R291). -/
def State.cutRadius (s : State) : State :=
  let s := s.radius.items.foldl State.drainDrop s
  let s := match s.radius.disable with
    | some (d, _) => s.serviceOff d { status := .ok }
    | none => s
  s.withRadius { s.radius with mode := .idle, batches := [], datagrams := [], locks := s.radius.locks.filter fun (e : Nat × RecLock) =>
    !(0x1000 ≤ e.2.owner && e.2.owner < 0x2000) }

/-- Frames, cells, Sector queues and bucket levels go (Table 23.7). -/
def State.dropFrames (s : State) : State :=
  let now := s.clk
  let buckets := s.sector.buckets.map fun (e : Nat × Bucket) => (e.1, ({ level := 0, at_ := now } : Bucket))
  let s := s.withSector { s.sector with queues := [], buckets := buckets, vtime := [], tags := [], lastTb := [], stopped := [] }
  s.withTess { s.tess with frames := [], released := [], building := [], lists := [], broken := [], corrupt := [] }

/-- The effects of a datapath reset once no command it waits for remains (R541, Table 23.7); a debug challenge becomes invalid at any
reset (R56, log entry 93). -/
def State.dpEffects (s : State) : State :=
  let s := s.foldAll.cutPorts
  let s := (List.range 17).foldl State.idleCluster s
  let s := (List.range 16).foldl State.clearPrism s
  let s := s.cutQueues.cutRadius.dropFrames
  let s := s.withApex { s.apex with challenge := none }
  { s with counters := s.counters.filter fun (e : Nat × BitVec 64) => !(1 ≤ e.1 / 2 ^ 26 && e.1 / 2 ^ 26 ≤ 0x0B) }

/-- A write of 1 to CPR_RESET.DATAPATH: commands stop starting (R541); ignored while DP_BUSY (Table 23.9). -/
def State.dpReset (s : State) : State :=
  if s.cpr.dpBusy.isSome then s
  else
    let s := s.noteCause 0x04
    { s.withCpr { s.cpr with dpBusy := some s.clk } with rings := { s.rings with startsHeld := true } }

/-- A write of CPR_RESET (Table 23.11): a warm reset written with a datapath reset follows it (R543). -/
def State.cprReset (s : State) (v : Nat) : State :=
  let s := if bitOf v 30 then s.dpReset else s
  if bitOf v 31 then s.warmReset 0x08 else s

/-- DATAPATH_RESET (R541). -/
def execDatapathReset (value : Word32) (s : State) : Out := if s.halted then .next s else .next (s.cprReset (value.toNat ||| 2 ^ 30))

/-- The datapath reset ends: DP_BUSY clears within 100 us of the write (R541, log entry 91). -/
def execDatapathResetComplete (s : State) : Out :=
  match s.cpr.dpBusy with
  | none => .next s
  | some t =>
    let s := if s.dpStarted then s.passTo (t + 100000) else s
    let s := s.dpEffects
    let w := s.cpr.warmWaits
    let s := s.withCpr { s.cpr with dpBusy := none, warmWaits := 0 }
    let s := ({ s with rings := { s.rings with startsHeld := false } }).raise 0x02C []
    .next (if w = 0 then s else s.warmReset w)

/-! ### Block resets (R542) -/

/-- A write of CPR_PORT_RESET with GO (Table 23.15): the block of a disabled port resets; messages that wait for the port stay. -/
def State.portReset (s : State) (v : Nat) : State :=
  let side := bits v 5 1
  let n := v % 16
  let s := s.setReg 0x00200014 (BitVec.ofNat 32 (v % 64 &&& 0x2F))
  if ¬ bitOf v 31 then s
  else if s.portBusy side n ∨ s.oddOfPair side n then s.raise 0x02D [BitVec.ofNat 8 side, BitVec.ofNat 8 n]
  else if side = 0 then s
  else
    let p := s.facetPort n
    s.setFacet n { FacetPort.reset with txMsgs := p.txMsgs, txRest := p.txRest }

/-- PORT_BLOCK_RESET (R542). -/
def execPortBlockReset (value : Word32) (s : State) : Out := if s.halted then .next s else .next (s.portReset (value.toNat ||| 2 ^ 31))

/-! ### Supply (R534, R535) -/

/-- RAIL_WARNING_ENTRY: the lowest level measured is free; it takes 2 bytes (R517, R535). -/
def execRailWarningEntry (rail : Rail) (s : State) : Out :=
  let k := rail.id.val
  if s.apex.held ∨ ¬ railMonitored k ∨ (s.cpr.warn.lookup k).isSome then .next s
  else
    let s := if s.railWarns then s else s.pauseWrites
    let s := s.withCpr { s.cpr with warn := tins s.cpr.warn k s.clk }
    let (v, s) := s.draw 16
    .next (s.raise 0x020 (BitVec.ofNat 8 k :: le 2 v))

/-- Apex goes on with the request it held (R49, R90). -/
def State.resumeHeld (s : State) : State :=
  match s.apex.heldWrite with
  | none => s
  | some h =>
    let s := s.withApex { s.apex with heldWrite := none }
    let p := (s.mbx h.mbx).payload
    let (r, s) := match (s.mbx h.mbx).code with
      | 0x0001 => lcBody h.mbx p s
      | 0x0040 => secverBody h.mbx p s
      | 0x0054 => blobCommitBody h.mbx p s
      | _ => (none, s)
    match r with
    | some r => s.finish h.mbx r
    | none => s

/-- RAIL_WARNING_EXIT: the holds end with the last rail (R535). -/
def execRailWarningExit (rail : Rail) (s : State) : Out :=
  let k := rail.id.val
  match s.cpr.warn.lookup k with
  | none => .next s
  | some t =>
    let s := (s.withCpr { s.cpr with warn := tdel s.cpr.warn k }).raise 0x021 (BitVec.ofNat 8 k :: le 8 (s.clk - t))
    .next (if s.cpr.warn ≠ [] then s else if s.apex.bootWaits then s.bootApex else s.resumeIntent.resumeHeld.resumeCkpt)

/-- OVER_VOLTAGE (R534, Table 23.12). -/
def execOverVoltage (rail : Rail) (s : State) : Out :=
  let k := rail.id.val
  if s.apex.held ∨ ¬ railMonitored k then .next s
  else .next ((s.withCpr { s.cpr with overV := s.cpr.overV ||| (1#12 <<< k) }).raise 0x023 [BitVec.ofNat 8 k])

/-! ### Temperature (R537, R538) -/

/-- The larger of two signed readings. -/
def hotter (a b : BitVec 10) : BitVec 10 := if a.toInt < b.toInt then b else a

/-- A sample of the highest and the lowest reading (R537). -/
def State.tempSample (s : State) (high low : BitVec 10) : State :=
  let c := s.cpr
  let s := s.withCpr { c with
    tempMax := high, tempHwm := some (match c.tempHwm with
      | some h => hotter h high
      | none => high)
    hot := if c.hot then decide (105 ≤ high.toInt) else decide (110 ≤ high.toInt), cold := decide (low.toInt < -5)
    tempDue := s.clk + 100000, coolSince := if high.toInt < 100 then some (c.coolSince.getD s.clk) else none }
  let s := if c.hot ∧ high.toInt < 105 then s.raise 0x029 [] else if ¬ c.hot ∧ 110 ≤ high.toInt then s.raise 0x028 [] else s
  if ¬ c.cold ∧ low.toInt < -5 then s.raise 0x02B [] else s

/-- TEMPERATURE_SAMPLE: every 100 us (R537). -/
def execTemperatureSample (high low : BitVec 10) (s : State) : Out := if s.apex.held then .next s else .next ((s.passTo s.cpr.tempDue).tempSample high low)

/-- THERMAL_TRIP: the datapath and Compass are held as by a datapath and a warm reset together, and clocks stop (R538). -/
def execThermalTrip (s : State) : Out :=
  if s.cpr.trip.isSome ∨ s.apex.held ∨ s.cpr.por then .next s
  else
    let s := s.dpEffects.warmEffects
    let s := s.withCpr { s.cpr with trip := some s.clk, coolSince := none, dpBusy := none, warmWaits := 0 }
    .next { s with rings := { s.rings with startsHeld := false } }

/-- THERMAL_TRIP_RELEASE: every reading has stayed below 100 C for 100 ms (R538). -/
def execThermalTripRelease (s : State) : Out :=
  match s.cpr.trip, s.cpr.coolSince with
  | some t, some c =>
    let s := s.passTo (c + 100000000)
    let s := (s.withCpr { s.cpr with trip := none, tripped := true }).noteCause 0x02
    .next ((s.raise 0x02A (le 8 (s.clk - t))).bootCompare)
  | _, _ => .next s

/-! ### Clock failures (R531, Table 23.2) -/

/-- MEMORY_PLL_LOSS: HBM stack 0 or 1, DDR channel 0 or 1 leaves service until cold reset. -/
def execMemoryPllLoss (k : Fin 4) (s : State) : Out :=
  if s.cpr.pll.getLsbD k.val then
    let keep := BitVec.allOnes 4 ^^^ (1#4 <<< k.val)
    let s := s.withCpr { s.cpr with pll := s.cpr.pll &&& keep }
    .next (({ s with hull := { s.hull with up := s.hull.up &&& keep } }).raise 0x026 [BitVec.ofNat 8 k.val])
  else .next s

/-- GNOMON_PLL_LOSS: Gnomon counts on at its last RATE and enters HOLDOVER. -/
def execGnomonPllLoss (s : State) : Out :=
  if s.gnomon.pllLocked then .next (((s.withGnomon { s.gnomon with pllLocked := false }).setGnomonMode .holdover).raise 0x027 [])
  else .next s

/-- GNOMON_PLL_RELOCK: a LOCK write ends HOLDOVER from now on; 0x027 carries CLEAR (R516, log entry 94). -/
def execGnomonPllRelock (s : State) : Out :=
  if s.gnomon.pllLocked then .next s else .next ((s.withGnomon { s.gnomon with pllLocked := true }).raiseSet 0x027 true [])

end Sys2Proof.Machine
end

