-- ==== Sys2Proof/Machine/Tessera.lean ====
section
/-! DEFINITION. The commands of Tessera and of the Annulus queues (chapter 14). -/

namespace Sys2Proof.Machine

/-- TESSERA_POOL_WRITE (R339). -/
def execTesseraPoolWrite (pool : Fin 4) (value : Word32) (s : State) : Out := if s.halted then .next s else .next (s.writePool pool.val value.toNat)

/-- TESSERA_OWNER_WRITE: the MIN register with POOL, or the MAX register (R339, Tables 14.8, 14.9). -/
def execTesseraOwnerWrite (owner : BitVec 8) (isMin : Bool) (value : Word32) (s : State) : Out := if s.halted then .next s else
  .next (if isMin then s.writeOwnerMin owner.toNat value.toNat else s.writeOwnerMax owner.toNat value.toNat)

/-- FREE_LIST_BUILD_END: allocations proceed (R339). -/
def execFreeListBuildEnd (pool : Fin 4) (s : State) : Out :=
  .next (s.withTess { s.tess with building := s.tess.building.filter (· != pool.val) })

/-- FREE_LIST_REBUILD_END: the list of a stopped bank is rebuilt from the cell states, in an order that the spec leaves open; no cell is
lost, and the bank serves again (R350). -/
def execFreeListRebuildEnd (pool : Fin 4) (bank : Fin 64) (s : State) : Out :=
  .next (if s.tess.broken.contains (pool.val, bank.val) then
      (s.withTess { s.tess with
        broken := s.tess.broken.filter (· != (pool.val, bank.val))
        lists := tdel s.tess.lists (64 * pool.val + bank.val) }).raise 0x084 [BitVec.ofNat 8 pool.val, BitVec.ofNat 8 bank.val]
    else s)

/-- QUEUE_ENABLE (R353): the word is written to ANNULUS_Q_CFG_q with ENABLE 1. -/
def execQueueEnable (q : BitVec 8) (value : Word32) (s : State) : Out := if s.halted then .next s else
  .next (s.queueEnable q.toNat (value.toNat ||| 2 ^ 31))

/-- QUEUE_DISABLE (R353). -/
def execQueueDisable (q : BitVec 8) (value : Word32) (s : State) : Out := if s.halted then .next s else .next (s.queueDisable q.toNat value.toNat)

/-- QUEUE_RELEASE (R356). -/
def execQueueRelease (q : BitVec 8) (value : Word32) (s : State) : Out := if s.halted then .next s else .next (s.queueRelease q.toNat (value.toNat % 2 ^ 25))

/-- BANK_SWAP (R355). -/
def execBankSwap (q : BitVec 8) (s : State) : Out := .next (s.bankSwap q.toNat)

/-- ENTRY_WRITE_COMPLETE (R356). -/
def execEntryWriteComplete (q : BitVec 8) (poison : Bool) (s : State) : Out := .next (s.entryWrite q.toNat poison)

/-- PUNT_COPY (R359). -/
def execPuntCopy (ecc : Ecc) (s : State) : Out := .next (s.puntCopy ecc)

end Sys2Proof.Machine
end

