-- ==== Sys2Proof/Machine/VertexRun.lean ====
section
/-! DEFINITION. What happens to Vertex threads beside their instructions: results, verification, watchdog, debug, sampling, engine reset,
RECLAIM and microcode images (chapters 9 and 11). -/

namespace Sys2Proof.Machine

/-! ### Results (R199, R243, R248, R261) -/

/-- Remove entry i of a list. -/
def dropAt {α : Type} (l : List α) (i : Nat) : List α := l.take i ++ l.drop (i + 1)

/-- DESCRIPTOR_COMPLETE: a descriptor that waits for no earlier one, nor for its key, completes (R199, R261, R299); the end of a derivation
ends its use of the group root (R72). -/
def execDescriptorComplete (t : Tid) (idx : Fin 8) (s : State) : Out :=
  let th := s.thread t.cl t.key
  match th.descs[idx.val]? with
  | none => .next s
  | some d =>
    if d.held.isSome ∨ (th.descs.take idx.val).any d.after then .next s
    else
      let s := match th.item with
        | some q => if t.cl = 16 ∧ d.op = 0 ∧ d.acc = none then s.endRoot q else s
        | none => s
      let put := fun (x : Thread) =>
        let x : Thread := { x with descs := dropAt x.descs idx.val }
        match d.pred with
        | some (p, v) => x.setP p v
        | none => x
      .next ((s.modThread t.cl t.key put).wake t.cl)

/-- Remove the first result that p picks from a thread. -/
def Thread.dropResult (t : Thread) (p : Result → Bool) : Thread :=
  match t.results.findIdx? p with
  | some i => { t with results := dropAt t.results i }
  | none => t

/-- REGISTER_RESULT_ARRIVAL: the oldest result of an instruction with latency is available (R243). -/
def execRegisterResultArrival (t : Tid) (s : State) : Out :=
  .next ((s.modThread t.cl t.key fun x => x.dropResult fun r => r.load.isNone).wake t.cl)

/-- A register takes a value that nothing gives. -/
def State.freeReg (s : State) (c k : Nat) (r : VReg) : State :=
  match r with
  | .g n => let (v, s) := s.draw 64
            s.modThread c k fun t => t.setG n (BitVec.ofNat 64 v)
  | .b n => let (v, s) := s.draw 128
            s.modThread c k fun t => t.setB n (BitVec.ofNat 128 v)
  | .p n => let (v, s) := s.draw 1
            s.modThread c k fun t => t.setP n (v == 1)

/-- The line of an address lies below a tainted node: its reads deliver no data (R418). -/
def State.taintedAt (s : State) (a : Nat) : Bool :=
  match s.regionAt a with
  | some k => s.lineFault k (a / 64) == some .tainted
  | none => false

/-- HBM_LOAD_RETURN: the oldest load that Hull can serve returns its data (R248, R398, R418). -/
def execHbmLoadReturn (t : Tid) (ecc : Ecc) (s : State) : Out :=
  let c := t.cl
  let k := t.key
  let p := fun (r : Result) => match r.load with
    | some a => !s.taintedAt a
    | none => false
  match (s.thread c k).results.find? p with
  | none => .next s
  | some r =>
    let s := (s.modThread c k fun x => x.dropResult p).eccSeen (r.load.getD 0) ecc
    let s := if ecc = .uncorrectable then r.regs.foldl (fun s x => s.freeReg c k x) s else s
    .next (s.wake c)

/-- A verification failure found by Hull leaves its trace in memory (R417, R418). -/
def State.failLine (s : State) (k line : Nat) (c : VerifyCause) (node : Option (Nat × Nat)) : State :=
  match c with
  | .mac => { s with hull := { s.hull with badLines := tins s.hull.badLines line .ecc } }
  | .poisoned => { s with hull := { s.hull with badLines := tins s.hull.badLines line .poisoned } }
  | .node => match node with
    | some (l, i) => s.taintNode k l i
    | none => s
  | .tainted => s

/-- The failure of a delivered read of address a: what the state shows, else what Hull finds now (R414). -/
def State.verdict (s : State) (a : Nat) (res : VerifyResult) : Option (Nat × VerifyCause) × State :=
  match s.regionAt a with
  | none => (none, s)
  | some k => match s.lineFault k (a / 64) with
    | some c => (some (k, c), s)
    | none => match res with
      | .ok => (none, s)
      | .failed c node => (some (k, c), s.failLine k (a / 64) c node)

/-- VERIFICATION_RESULT (R225, R414, R415). The owner ID of a Compass access is not given and free. -/
def execVerificationResult (r : Reader) (res : VerifyResult) (s : State) : Out :=
  match r with
  | .thread t =>
    let c := t.cl
    let k := t.key
    match (s.thread c k).reads with
    | [] => .next s
    | a :: rest =>
      let s := s.modThread c k fun x => { x with reads := rest }
      match s.verdict a res with
      | (none, s) => .next (s.wake c)
      | (some (g, w), s) => .next (((s.verifyFail g a (masterOf c) (vOwner c k) w).modThread c k fun x => { x with failed := true }).wake c)
  | .compass core addr =>
    let a := addr.toNat
    if !((s.regionAt a).any fun k => (s.region k).integ) then .next s
    else match s.verdict a res with
      | (none, s) => .next s
      | (some (g, w), s) =>
        let (o, s) := s.draw 16
        let s := s.verifyFail g a .compass o w
        .next { s with hull := { s.hull with
          mchkAddr := BitVec.ofNat 34 (a / 64), mchkCore := BitVec.ofNat 3 core.val, mchkCause := BitVec.ofNat 2 (verifyCode w), mchkValid := true
          mchkIrq := s.hull.mchkIrq ||| (1#8 <<< core.val) } }

/-! ### Watchdog and debug (R216, R228) -/

/-- THREAD_WATCHDOG_EXPIRY: LIMIT times 1,024 clocks of 1.2 GHz after dispatch (R228). -/
def execThreadWatchdogExpiry (t : Tid) (s : State) : Out :=
  let c := t.cl
  let x := s.thread c t.key
  if x.mode ≠ .ready ∧ x.mode ≠ .waiting then .next s
  else
    let limit := s.regN (clusterBase c + 0x100) % 1024
    .next ((s.passTo (x.since + 1024 * limit * 5 / 6)).faultThread c t.key .watchdog)

/-- DEBUG_HALT under right 2 (Prism) or 3 (Radius). -/
def execDebugHalt (t : Tid) (s : State) : Out :=
  let x := s.thread t.cl t.key
  if x.mode = .debug ∨ !s.dbgRight (if t.cl = 16 then 3 else 2) then .next s
  else .next (s.modThread t.cl t.key fun x => { x with mode := .debug, before := x.mode, debugAt := s.clk })

/-- DEBUG_RESUME: to the state held before; the watchdog has not counted meanwhile (R216, R228). -/
def execDebugResume (t : Tid) (s : State) : Out :=
  let x := s.thread t.cl t.key
  if x.mode ≠ .debug ∨ !s.dbgRight (if t.cl = 16 then 3 else 2) then .next s
  else .next ((s.modThread t.cl t.key fun x => { x with mode := x.before, since := x.since + (s.clk - x.debugAt) }).wake t.cl)

/-! ### Program-counter sampling (R235, R525) -/

/-- The instruction after `n` more in a thread's issue order, from index pc with a return stack. Which way a branch goes, and where BRR goes,
is free; the work of a thread ends with its disposition. -/
def State.stepsOn (c k : Nat) : Nat → Nat → List Nat → State → Nat × State
  | 0, pc, _, s => (pc, s)
  | n + 1, pc, stack, s =>
    let t := s.thread c k
    let x := Ins.of (s.fetch c t.high pc)
    let (go, s) := s.draw 15
    if x.op = 0xA6 ∨ (0xB0 ≤ x.op ∧ x.op ≤ 0xB3) ∨ go % 2 = 0 ∨ !(0xA0 ≤ x.op && x.op ≤ 0xA3) then
      State.stepsOn c k n (if x.op = 0xA6 ∨ (0xB0 ≤ x.op ∧ x.op ≤ 0xB3) then pc else pc + 1) stack s
    else if x.op = 0xA0 then State.stepsOn c k n (bits x.ext 0 14) stack s
    else if x.op = 0xA1 then State.stepsOn c k n (go / 2) stack s
    else if x.op = 0xA2 then State.stepsOn c k n (bits x.ext 0 14) ((pc + 1) :: stack) s
    else match stack with
      | r :: rest => State.stepsOn c k n r rest s
      | [] => (pc, s)

/-- The PC that a sample of an issuing thread records: at most 6 instructions later in its own issue order (R235). -/
def State.samplePc (s : State) (c k : Nat) : Nat × State :=
  let t := s.thread c k
  let (r, s) := s.draw 14
  State.stepsOn c k (r % 7) t.pc t.stack s

/-- The record of one engine's sample (Table 9.6). -/
def State.sample (s : State) (c e : Nat) : List Byte × State :=
  let head := le 4 (s.gnomon.time % 1000000000) ++ le 2 (s.sec % 65536)
  let body := fun (k pc : Nat) =>
    let t := s.thread c k
    let code := match t.mode with
      | .idle => 0 | .ready => 1 | .waiting => 2 | .faulted => 3 | .held => 4 | .debug => 5
    head ++ le 2 (vOwner c k) ++ le 2 pc ++ [BitVec.ofNat 8 code, BitVec.ofNat 8 (bits t.fctx.toNat 61 3 * 32)] ++
      le 4 (bits t.fctx.toNat 23 17)
  match s.chosen c e with
  | some k =>
    let (pc, s) := s.samplePc c k
    (body k pc, s)
  | none => match (List.range 8).find? fun j => (s.thread c (8 * e + j)).mode == .waiting with
    | some j => (body (8 * e + j) (s.thread c (8 * e + j)).pc, s)
    | none => (head ++ List.replicate 10 0, s)

/-- A sample goes to the Annulus queue that TELE_PCS_QUEUE names, or is lost (R235, R525). -/
def State.putSample (s : State) (c : Nat) (bs : List Byte) : State :=
  let v := s.regN 0x03E00030
  let q := v % 256
  let x := s.aq q
  if bitOf v 31 ∧ x.open_ ∧ x.size = 0 ∧ x.fits 1 then s.annPut q [bs]
  else
    let y := s.cluster c
    let n := y.pcsLost + 1
    if s.once.contains (onceKey 0x184 0) then s.setCluster c { y with pcsLost := n }
    else (s.setCluster c { y with pcsLost := 0 }).raiseOnce 0x184 0 (BitVec.ofNat 8 c :: le 4 n)

/-- PC_SAMPLE: PERIOD clocks after the sample before it, or after ENABLE was set (R235). -/
def execPcSample (c : Fin 17) (s : State) : Out :=
  if !bitOf (s.regN (clusterBase c.val + 0x108)) 31 then .next s
  else
    let es := (List.range (threadCount c.val / 8)).filter fun e => bitOf (s.regN (clusterBase c.val + 0x10C)) e
    let s := s.passTo ((s.cluster c.val).pcsAt + s.regN (clusterBase c.val + 0x108) % 2 ^ 20 * 5 / 6)
    let s := s.setCluster c.val { s.cluster c.val with pcsAt := s.clk }
    .next (es.foldl (fun s e =>
      let (bs, s) := s.sample c.val e
      s.putSample c.val bs) s)

/-! ### Engine reset and RECLAIM (R229, R231, R232, R513) -/

/-- A write of VERTEX_ENG_RESET: ENGINE stays readable, and an engine that a Prism lacks is ignored (R229, Table 9.10). -/
def State.engineReset (s : State) (c v : Nat) : State :=
  let e := v % 32
  let s := s.setReg (clusterBase c + 0x104) (BitVec.ofNat 32 e)
  if !bitOf v 31 ∨ threadCount c / 8 ≤ e then s
  else
    let ks := (List.range 8).map (8 * e + ·)
    let s := ks.foldl (fun s k => if (s.thread c k).mode = .idle then s else s.faultThread c k .engineReset) s
    let s := ks.foldl (fun s k => s.modThread c k fun t => { t with mode := .held }) s
    let x := s.cluster c
    let s := s.setCluster c { x with locals := x.locals.filter fun w => w.1 / 2048 != e }
    s.raise 0x181 [BitVec.ofNat 8 c, BitVec.ofNat 8 e]

/-- ENGINE_RESET (R229): the write of GO. -/
def execEngineReset (c : Fin 17) (value : Word32) (src : Source) (s : State) : Out :=
  if s.mayWriteRegs src then .next (s.engineReset c.val (value.toNat ||| 2 ^ 31)) else .next s

/-- Release every lock recorded against an owner, and count them (R231). -/
def State.reclaimLocks (s : State) (owner : Nat) : Nat × State :=
  let ctx := s.assoc.locks.filter fun e => e.2.1 == owner
  let rec_ := s.radius.locks.filter fun e => e.2.owner == owner
  let s := { s with assoc := { s.assoc with locks := s.assoc.locks.filter fun e => e.2.1 != owner } }
  (ctx.length + rec_.length, s.withRadius { s.radius with locks := s.radius.locks.filter fun e => e.2.owner != owner })

/-- The body of RECLAIM for a Vertex or Radius owner (R231, R232). -/
def reclaimBody (d : Desc) (s : State) : State :=
  let o := d.get 8 2
  let num := o % 4096
  let scope := bitOf d.flags 0
  let c := min 16 (num / 128)
  if o / 4096 = 2 then s
  else if o / 4096 ≠ 1 ∨ 2304 ≤ num then s.done d .badRequest
  else
    let k := num - 128 * c
    let ks := if scope then (List.range 8).map (k / 8 * 8 + ·) else [k]
    if ks.any fun k => (s.thread c k).mode == .debug then s.done d .inUse
    else
      let s := ks.foldl (fun s k =>
        if (s.thread c k).mode = .ready ∨ (s.thread c k).mode = .waiting then s.faultThread c k .reclaimed else s) s
      let (n, s) := ks.foldl (fun (n, s) k =>
        let (m, s) := State.reclaimLocks s (vOwner c k)
        (n + m, s)) (0, s)
      let s := ks.foldl (fun s k => if (s.thread c k).mode = .held ∧ !scope then s else s.idle c k) s
      let s := (s.raise 0x182 (BitVec.ofNat 8 c :: le 2 o ++ [BitVec.ofNat 8 (b2n scope), BitVec.ofNat 8 n])).wake c
      s.complete d { status := .ok, r0 := n }

/-- RECLAIM of a Vertex or Radius owner (R231, R513). -/
def execReclaim (d : Desc) (s : State) : Out :=
  .next (if d.get 8 2 / 4096 = 2 then s else ringCommand d 1 [(8, 2)] (reclaimBody d) s)

/-- A Tessera owner whose consumer is still enabled (R351). -/
def State.ownerInUse (s : State) (o : Nat) : Bool :=
  if o < 128 then (s.lport o).enabled
  else if o < 144 then (List.range 4).any fun i => (s.lport (64 + 4 * (o - 128) + i)).enabled
  else if o < 160 then (List.range 4).any fun i => (s.lport (4 * (o - 144) + i)).enabled
  else if o < 224 then (s.ring .command (o - 160)).state != .disabled
  else if o = 224 then s.radius.mode != .idle
  else if o = 225 then s.annulus.queues.any fun e => e.2.enabled
  else false

/-- The body of RECLAIM for a Tessera owner (R332, R351). -/
def reclaimTesseraBody (d : Desc) (s : State) : State :=
  let id := d.get 8 2
  let o := id % 256
  if bits id 8 4 ≠ 0 ∨ bitOf d.flags 0 then s.done d .badRequest
  else if s.ownerInUse o then s.done d .inUse
  else
    let (n, s) := s.reclaimCells o
    let s := if 160 ≤ o ∧ o < 224 then s.releaseLocks fun e => e.2.1 == id else s
    (s.raise 0x088 (le 2 id ++ le 4 n)).complete d { status := .ok, r0 := n }

/-- RECLAIM of a Tessera owner (R351, R513). -/
def execReclaimTesseraOwner (d : Desc) (s : State) : Out :=
  .next (if d.get 8 2 / 4096 ≠ 2 then s else ringCommand d 1 [(8, 2)] (reclaimTesseraBody d) s)

/-! ### Images (R236, R237, R276 to R278, R504) -/

/-- The image that bytes hold, if the header's own values and the digest are right (R236, R237). -/
def imageOf (bs : List Byte) : Option Image :=
  let count := leAt bs 0xC 4
  let sl := leAt bs 0x18 4
  let entries := (List.range 8).map fun i => leAt bs (0x20 + 4 * i) 4
  let radius := leAt bs 6 1 == 1
  let body := bs.drop 304
  if leAt bs 0 4 ≠ 0x58455456 ∨ leAt bs 4 2 ≠ 1 ∨ 1 < leAt bs 6 1 ∨ 1 < leAt bs 7 1 ∨ count = 0 ∨ (if radius then 16384 else 8192) < count ∨
      65536 < sl ∨ sl % 8 ≠ 0 ∨ leAt bs 0x1C 4 ≠ 0 ∨ bs.length ≠ 304 + 8 * count + sl ∨
      entries.any (fun e => e != 0xFFFFFFFF && count ≤ e) ∨ be 48 (Crypto.sha384 body).toNat ≠ slice bs 0x40 48 then none
  else
    let words := ((List.range count).map fun i => (i, BitVec.ofNat 64 (leAt body (8 * i) 8))).filter fun e => e.2 != BitVec.allOnes 64
    some { count := count, version := BitVec.ofNat 32 (leAt bs 8 4), entries := entries, scratch := slice body (8 * count) sl
           full := decide ((if radius then 8192 else 4096) < count), words := words }

/-- Why R237 refuses an image. -/
def State.imageStatus (s : State) (bs : List Byte) : Status :=
  let owner := leAt bs 7 1 == 1
  if (imageOf bs).isNone then .badImage
  else if leAt bs 0x10 8 / 64 ≠ 0 then .hwMismatch
  else if s.lc < 9 then .ok
  else if (owner && s.lc ≠ 10) || Crypto.sha384 (slice bs 0x70 96) ≠ s.signerHash owner ||
      !Crypto.ecdsaVerify (slice bs 0x70 96) (slice bs 0xD0 96) (slice bs 0 0x70) then .badSignature
  else .ok

/-- Clusters that a mask names. -/
def clustersOf (d : Desc) : List Nat := (List.range 17).filter (bitOf (d.get 8 4))

/-- The state of a thread, that from which it was halted for one in DEBUG. -/
def Thread.under (t : Thread) : ThreadMode := if t.mode = .debug then t.before else t.mode

/-- Threads that run in a half of a cluster, or in any half; with `alsoStopped` those FAULTED or HELD too. -/
def State.runsIn (s : State) (c : Nat) (h : Option Bool) (alsoStopped : Bool) : Nat :=
  ((s.cluster c).threads.filter fun (e : Nat × Thread) =>
    let m := e.2.under
    (m == .ready || m == .waiting || (alsoStopped && m != .idle)) && (h == none || h == some e.2.high)).length

/-- The cluster is stopped (R276). -/
def State.clusterStopped (s : State) (c : Nat) : Bool :=
  if c = 16 then s.radius.mode == .idle
  else !((List.range 4).any fun i => (s.lport (64 + 4 * c + i)).busy) && !bitOf (s.regN (clusterBase c)) 1

/-- The half that a load writes, or none where it is refused with IN_USE (R276; log entry 67). -/
def State.loadHalf (s : State) (c : Nat) (im : Image) : Option Bool :=
  let x := s.cluster c
  let full := im.full || (match x.active with
    | some h => (x.half h).any (·.full)
    | none => false)
  if full then (if s.clusterStopped c && s.runsIn c none false == 0 then some false else none)
  else
    let h := match x.active with
      | some a => !a
      | none => false
    if s.runsIn c (some h) false = 0 then some h else none

/-- Write an image into a half; where it replaces the active image of a stopped cluster, none is active. -/
def State.loadImage (s : State) (c : Nat) (h : Bool) (im : Image) : State :=
  let x := s.cluster c
  let clear := im.full || x.active == some h
  let x := if h then { x with hi := some im } else { x with low := some im }
  s.setCluster c (if clear then { x with hi := if h then x.hi else none, active := none } else x)

/-- The body of UCODE_LOAD (R237, R276, R504). -/
def ucodeLoadBody (d : Desc) (s : State) : State :=
  let cs := clustersOf d
  let first := cs.headD 0
  if d.get 8 4 / 2 ^ 17 ≠ 0 ∨ cs = [] then s.done d .badRequest
  else s.withBuf d .annulus (d.get 0x10 8) (min (d.get 0x18 4) 200000) fun bs s =>
    let target := leAt bs 6 1
    if target < 2 ∧ cs.any fun c => b2n (c == 16) != target then s.done d .badRequest
    else match s.imageStatus bs, imageOf bs with
    | .ok, some im =>
      if cs.any fun c => (s.loadHalf c im).isNone then s.done d .inUse
      else
        let half := (s.loadHalf first im).getD false
        let s := cs.foldl (fun s c => s.loadImage c ((s.loadHalf c im).getD false) im) s
        let s := s.measExtend 3 (be 48 (Crypto.sha384 (slice bs 0 0x70)).toNat)
        s.complete d { status := .ok, r0 := b2n half }
    | st, _ => (s.raise 0x183 (BitVec.ofNat 8 first :: le 2 st.code)).done d st

/-- UCODE_LOAD (R276). -/
def execUcodeLoad (d : Desc) (s : State) : Out := .next (ringCommand d 0 [(8, 4), (0x10, 8), (0x18, 4)] (ucodeLoadBody d) s)

/-- The half that an activation switches to, if it is loaded (R277). -/
def Cluster.target (x : Cluster) : Option Bool :=
  let h := match x.active with
    | some a => !a
    | none => false
  if (x.half h).isSome then some h else none

/-- The scratch image of the active half is written at offset 0 (R278). -/
def State.writeScratch (s : State) (c : Nat) : State :=
  let x := s.cluster c
  match x.active with
  | none => s
  | some h =>
    let bs := ((x.half h).map (·.scratch)).getD []
    let ws := (List.range (bs.length / 8)).map fun i => (i, BitVec.ofNat 64 (leAt bs (8 * i) 8))
    s.setCluster c { x with
      scratch := ws.foldl (fun t e => tput 0 t e.1 e.2) x.scratch, badScratch := x.badScratch.filter (bs.length / 8 ≤ ·), pause := none }

/-- Threads that an activation of cluster c still waits for in its old half: with a pause every one that is not IDLE (R277, R278). -/
def State.oldLeft (s : State) (c : Nat) (h : Bool) : Nat := s.runsIn c (some h) ((s.cluster c).pause == some h)

/-- Switch one cluster; it is added where its old half still drains. -/
def State.activate (s : State) (c : Nat) : List (Nat × Bool) × State :=
  let x := s.cluster c
  match x.target with
  | none => ([], s)
  | some h =>
    let scratch := ((x.half h).map (·.scratch)).getD []
    let old := x.active
    let s := s.setCluster c { x with active := some h, pause := if scratch = [] then x.pause else some !h }
    if old.isSome ∧ 0 < s.oldLeft c (!h) then ([(c, !h)], s)
    else ([], if scratch = [] then s else s.writeScratch c)

/-- The body of UCODE_ACTIVATE (R277, R278, R504). -/
def ucodeActivateBody (d : Desc) (s : State) : State :=
  let cs := clustersOf d
  if d.get 8 4 / 2 ^ 17 ≠ 0 ∨ cs = [] ∨ cs.any (fun c => (s.cluster c).target.isNone) then s.done d .badRequest
  else
    let (olds, s) := cs.foldl (fun (l, s) c =>
      let (o, s) := State.activate s c
      (l ++ o, s)) ([], s)
    if olds = [] then s.done d .ok
    else
      let a : Activate := { desc := d, olds := olds, due := s.clk + s.timeoutOf d 50000 }
      { s with vertex := { s.vertex with activates := s.vertex.activates ++ [a] } }

/-- UCODE_ACTIVATE (R277). -/
def execUcodeActivate (d : Desc) (s : State) : Out := .next (ringCommand d 0 [(8, 4)] (ucodeActivateBody d) s)

/-- A cluster's old half has drained for one activation. -/
def State.activateDone (s : State) (c : Nat) (h : Bool) : State :=
  let step := fun (a : Activate) => { a with olds := a.olds.filter (· != (c, h)) }
  let l := s.vertex.activates.map step
  let s := { s with vertex := { s.vertex with activates := l.filter fun a => !a.olds.isEmpty } }
  (l.filter fun a => a.olds.isEmpty).foldl (fun s a => s.done a.desc .ok) s

/-- ACTIVATE_DRAIN_END: no thread remains in an old half (R277, R278). -/
def execActivateDrainEnd (c : Fin 17) (s : State) : Out :=
  let c := c.val
  let olds := (s.vertex.activates.flatMap (·.olds)).filter (·.1 == c)
  let hs := (olds.map (·.2) ++ (s.cluster c).pause.toList).filter fun h => s.oldLeft c h == 0
  .next (hs.foldl (fun s h =>
    let s := if (s.cluster c).pause = some h then s.writeScratch c else s
    s.activateDone c h) s)

/-- ACTIVATE_TIMEOUT: the oldest activation that still drains completes with DRAINED_LATE (R277). -/
def execActivateTimeout (s : State) : Out :=
  match s.vertex.activates with
  | [] => .next s
  | a :: rest =>
    let n := (a.olds.map fun e => s.oldLeft e.1 e.2).sum
    let s := s.passTo a.due
    .next (({ s with vertex := { s.vertex with activates := rest } }).complete a.desc { status := .drainedLate, r0 := n })

end Sys2Proof.Machine
end

