-- ==== Sys2Proof/Machine/Regs.lean ====
section
/-! DEFINITION. A write to any register of the set-up window or the peripherals, by access type (R9 to R11, R565, R567, chapter 25). Each
block's function answers none where no register of its own stands at the offset. -/

namespace Sys2Proof

/-- The mailbox a writer reaches (R39, R560). -/
def Source.mbx : Source → Mbx
  | .compass => .compass
  | .debugPort => .debugPort

end Sys2Proof

namespace Sys2Proof.Machine

/-- Write the RW bits of a plain register; every other bit keeps its value (R9, R11). -/
def State.rwWrite (s : State) (off mask v : Nat) : State :=
  s.setReg off ((s.reg off &&& ~~~(BitVec.ofNat 32 mask)) ||| BitVec.ofNat 32 (v &&& mask))

/-- Clear the W1C bits of a held register (R9). -/
def State.w1cWrite (s : State) (off mask v : Nat) : State := s.setReg off (s.reg off &&& ~~~(BitVec.ofNat 32 (v &&& mask)))

/-! ### Apex mailbox (R39, Table 2.1) -/

/-- A write of APEX_MBX_CTRL: DONE, then GO. An owed BUSY answer takes the response buffer once DONE of the answer before it is cleared (log
entry 92). -/
def State.mbxCtrl (s : State) (m : Mbx) (v : Nat) : State :=
  let x := s.mbx m
  let x := if bitOf v 1 ∧ x.done then
      if x.owed ∧ ¬ x.busy then { x with owed := false, resp := bufOf (le 2 0 ++ le 2 9) } else { x with done := false }
    else x
  if ¬ bitOf v 0 then s.setMbx m x
  else if x.busy then s.setMbx m { x with owed := true }
  else (s.setMbx m { x with busy := true }).mbxUnknown m

/-- Bytes of a request buffer take a word. -/
def Mailbox.putWord (x : Mailbox) (off v : Nat) : Mailbox :=
  { x with req := (le 4 v).zipIdx.foldl (fun t (e : Byte × Nat) => tput 0 t (off + e.2) e.1) x.req }

/-- The block of the Apex mailbox. -/
def State.apexWrite (s : State) (m : Mbx) (off v : Nat) : Option State :=
  if off = 0x00100000 then some (s.mbxCtrl m v)
  else if 0x00100200 ≤ off ∧ off < 0x00100400 then some (s.setMbx m ((s.mbx m).putWord (off - 0x00100200) v))
  else none

/-! ### Clocks, power and reset (Tables 23.10 to 23.15) -/

/-- The block of clocks, power and reset. -/
def State.cprWrite (s : State) (off v : Nat) : Option State :=
  match off with
  | 0x00200000 => some (s.withCpr { s.cpr with cause := s.cpr.cause &&& ~~~(BitVec.ofNat 8 (v &&& 0xFE)) })
  | 0x00200004 => some (s.cprReset v)
  | 0x0020000C => some (if bitOf v 31 then s.withCpr { s.cpr with tripped := false } else s)
  | 0x00200014 => some (s.portReset v)
  | _ => none

/-! ### Rings and management ports (Tables 20.15 to 20.24) -/

/-- A ring kind by the number of its block. -/
def ringKindOf : Nat → RingKind
  | 0 => .command | 1 => .completion | 2 => .event | _ => .management

/-- A write into a ring block at its offset r. -/
def State.ringWrite (s : State) (k : RingKind) (i r v : Nat) : Option State :=
  match r with
  | 0x00 => some (s.rwWrite (ringOff k i) 0xFFFFF000 v)
  | 0x04 => some (s.rwWrite (ringOff k i + 4) 0xFF v)
  | 0x08 => some (if bitOf v 31 then s.ringEnable k i v else s.ringDisable k i v)
  | 0x10 => some (s.ringCi k i v)
  | _ => none

/-- The link of a management port goes down where its configuration no longer lets it stand (R478, Table 20.22). -/
def State.mgmtDown (s : State) (k : Nat) : State :=
  let s := if k = 0 then { s with rings := { s.rings with link0 := false, speed0 := 0 } }
    else { s with rings := { s.rings with link1 := false, speed1 := 0 } }
  s.raise 0x045 [BitVec.ofNat 8 k, 0]

/-- A write of MGMT_CFG_k: an enabled port sends what its transmit ring holds (R479). -/
def State.mgmtCfgWrite (s : State) (k v : Nat) : State :=
  let s := s.rwWrite (0x00306000 + 0x10 * k) 0xF0000000 v
  let on := bitOf v 31 && bits v 29 2 != 3
  let s := if !on && s.mgmtLink k then s.mgmtDown k else s
  if bitOf v 31 then
    let x := s.ring .management (2 * k + 1)
    State.mgmtSendGo k (idxDiff x.pi x.ci) s
  else s

/-- The block of rings and doorbells. -/
def State.ringsWrite (s : State) (off v : Nat) : Option State :=
  if 0x00301000 ≤ off ∧ off < 0x00301200 ∧ off % 8 = 0 then some (s.doorbell ((off - 0x00301000) / 8) (v % 2 ^ 17))
  else if 0x00301200 ≤ off ∧ off < 0x00301220 ∧ off % 8 = 0 then some (s.mgmtDoorbell ((off - 0x00301200) / 8) (v % 2 ^ 17))
  else if 0x00302000 ≤ off ∧ off < 0x00306000 then
    let k := ringKindOf ((off - 0x00302000) / 0x1000)
    let i := off % 0x1000 / 0x20
    if i < ringCount k then s.ringWrite k i (off % 0x20) v else none
  else if 0x00306000 ≤ off ∧ off < 0x00306020 then
    let k := (off - 0x00306000) / 0x10
    match off % 0x10 with
    | 0x0 => some (s.mgmtCfgWrite k v)
    | 0x4 => some (s.rwWrite off 0xFFFFFFFF v)
    | 0x8 => some (s.rwWrite off 0xFFFF v)
    | _ => none
  else none

/-! ### Annulus and Tessera (Tables 14.5 to 14.18) -/

/-- The blocks of Annulus and Tessera. -/
def State.bufferWrite (s : State) (off v : Nat) : Option State :=
  if off = 0x00400000 then some (s.w1cWrite off 0xE0000000 v)
  else if 0x00401000 ≤ off ∧ off < 0x00403000 then
    let q := (off - 0x00401000) / 32
    match off % 32 with
    | 0x00 => some (if bitOf v 31 then s.queueEnable q v else s.queueDisable q v)
    | 0x04 => some (s.rwWrite off 0x01FFFFFF v)
    | 0x08 => some (s.rwWrite off 0xFFFFF000 v)
    | 0x0C => some (s.rwWrite off 0xFF v)
    | 0x14 => some (s.queueRelease q (v % 2 ^ 25))
    | _ => none
  else if off = 0x00800000 then some (s.w1cWrite off 0xF0000000 v)
  else if 0x00800010 ≤ off ∧ off < 0x00800020 then some (s.writePool ((off - 0x00800010) / 4) v)
  else if 0x00801000 ≤ off ∧ off < 0x00802000 then
    let o := (off - 0x00801000) / 16
    match off % 16 with
    | 0x0 => some (s.writeOwnerMin o v)
    | 0x4 => some (s.writeOwnerMax o v)
    | _ => none
  else none

/-! ### Locus and Sector (Tables 13.11 to 13.23, 15.6 to 15.12) -/

/-- The block of Locus. -/
def State.locusWrite (s : State) (off v : Nat) : Option State :=
  if off = 0x00C00000 then some (s.emCfg v)
  else if off = 0x00C00008 then some (s.rwWrite off 0xFFFFF (min 1000000 (v % 2 ^ 20)))
  else if off = 0x00C0000C then some (s.w1cWrite off 0x80000000 v)
  else if 0x00C00100 ≤ off ∧ off < 0x00C00180 then
    some (s.rwWrite off (if off % 8 = 0 then 0xEFF00FFF else 0xFFFFFFFF) v)
  else if 0x00C00200 ≤ off ∧ off < 0x00C00400 then some (s.rwWrite off 0xFFFF v)
  else if 0x00C00400 ≤ off ∧ off < 0x00C00800 then
    if off % 8 = 0 then some (s.rwWrite off 0xC00FFFFF (2 ^ 20 * (v / 2 ^ 20) + min 524288 (v % 2 ^ 20)))
    else some (s.rwWrite off 0x9FFFFFFF v)
  else if 0x00C00A00 ≤ off ∧ off < 0x00C00A80 then some (s.rwWrite off 0xFFFFFFFF v)
  else if 0x00C00B00 ≤ off ∧ off < 0x00C00C00 then
    if off % 0x20 < 0x10 then some (s.rwWrite off 0xFFFFFFFF v)
    else if off % 0x20 = 0x10 then some (s.rwWrite off 0xC0000000 v) else none
  else none

/-- The block of Sector. -/
def State.sectorWrite (s : State) (off v : Nat) : Option State :=
  if off = 0x01000000 then some (s.indCtrl v)
  else if 0x01000010 ≤ off ∧ off < 0x01000030 then some (s.rwWrite off 0xFFFFFFFF v)
  else if 0x01001000 ≤ off ∧ off < 0x01001400 ∧ off % 0x20 = 0 then some (s.rwWrite off 0x80000000 v)
  else none

/-! ### Gnomon (Tables 16.9 to 16.19) -/

/-- A write of GNOMON_PPS_CFG: an enable of PPS_IN starts the watch for its edges (R392, Table 16.13). -/
def State.ppsCfg (s : State) (v : Nat) : State :=
  let w := bits v 0 10
  let v := 1024 * (v / 1024) + if 1 ≤ w ∧ w ≤ 999 then w else 100
  let was := bitOf (s.regN 0x01400028) 30
  let s := s.rwWrite 0x01400028 0xE3FF03FF v
  if bitOf v 30 ∧ ¬ was then s.withGnomon { s.gnomon with ppsLast := s.clk, ppsMissing := false } else s

/-- A write of GNOMON_TOD_CFG: BAUD 11b is read as 00b (Table 16.15). -/
def State.todCfg (s : State) (v : Nat) : State :=
  let s := if bitOf v 28 then s.withGnomon { s.gnomon with todOvf := false } else s
  s.rwWrite 0x01400034 0xEEFFFFFF (if bits v 29 2 = 3 then v &&& 0x9FFFFFFF else v)

/-- The block of Gnomon. -/
def State.gnomonWrite (s : State) (off v : Nat) : Option State :=
  if 0x01400100 ≤ off ∧ off < 0x01400500 then
    match off % 0x20 with
    | 0x0 => some (s.rwWrite off 0xFFFFFFFF v)
    | 0x4 => some (s.rwWrite off 0x8F000000 v)
    | _ => none
  else match off with
    | 0x01400010 | 0x01400014 => some (s.rwWrite off 0xFFFFFFFF v)
    | 0x01400018 => some (s.rwWrite off 0xFFFF v)
    | 0x0140001C => some (s.gnomonCtrl v)
    | 0x01400020 => some (s.rateWrite (BitVec.ofNat 32 v))
    | 0x01400024 => some (if bitOf v 29 then s.withGnomon { s.gnomon with loadErr := false } else s)
    | 0x01400028 => some (s.ppsCfg v)
    | 0x0140002C => some (if bitOf v 31 then s.withGnomon { s.gnomon with ppsNew := false } else s)
    | 0x01400034 => some (s.todCfg v)
    | 0x01400040 | 0x01400044 => some (s.rwWrite off 0xA000FFFF v).rclk
    | _ => none

/-! ### Axis, association statistics, Hull (Tables 3.9 to 3.11, 4.9, 4.10, 17.11) -/

/-- The blocks of Axis and Hull. -/
def State.axisWrite (s : State) (off v : Nat) : Option State :=
  match off with
  | 0x01800000 => some (s.rwWrite off 0x7F (max 8 (min 64 (v % 128))))
  | 0x01800004 => some (
      let a := s.axis
      { s with axis := { a with
          drbgFail := a.drbgFail && !bitOf v 2, entropyFail := a.entropyFail && !bitOf v 1, overdue := a.overdue && !bitOf v 0 } })
  | 0x01800008 => some (s.rwWrite off 0xC001FFFF v)
  | 0x01800100 => some (s.rwWrite off 0xFFFFF000 v)
  | 0x01800104 => some (s.rwWrite off 0xFF v)
  | 0x01C00004 => some (if bitOf v 31 then { s with hull := { s.hull with mchkValid := false } } else s)
  | _ => none

/-! ### Prism, Vertex and Radius (Tables 8.6, 8.9, 9.9 to 9.12, 12.14 to 12.16) -/

/-- The Vertex registers of cluster c at offset r of its block. -/
def State.vertexWrite (s : State) (c r v : Nat) : Option State :=
  let off := clusterBase c + r
  match r with
  | 0x100 => some (s.rwWrite off 0x3FF (if v % 1024 = 0 then 1 else v))
  | 0x104 => some (s.engineReset c v)
  | 0x108 =>
    let s := if v / 2 ^ 31 = 1 ∧ s.regN off / 2 ^ 31 = 0 then s.setCluster c { s.cluster c with pcsAt := s.clk } else s
    some (s.rwWrite off 0x800FFFFF (2 ^ 20 * (v / 2 ^ 20) + max 64 (v % 2 ^ 20)))
  | 0x10C => some (s.rwWrite off (if c = 16 then 0xFFFFFFFF else 0xFFFF) v)
  | _ => none

/-- The blocks of the Prisms and of Radius. -/
def State.prismWrite (s : State) (off v : Nat) : Option State :=
  if off < 0x03000000 then
    match off % 0x100000 with
    | 0x0 => some (s.rwWrite off 0x3 v)
    | 0xC => some (s.w1cWrite off 0x7 v)
    | r => s.vertexWrite ((off - 0x02000000) / 0x100000) r v
  else match off with
    | 0x03001000 => some (s.rwWrite off 0x3FF v)
    | 0x03001004 => some (s.rwWrite off 0xFFFFFFFF v)
    | 0x03001008 => some (s.rwWrite off 0x00FFFFFF (if bits v 16 8 = 0 then v + 0x10000 else v))
    | _ => if off < 0x03000400 then s.vertexWrite 16 (off - 0x03000000) v else none

/-! ### Ports and lanes (Tables 5.3 to 5.5, 6.11 to 6.14, 7.9, 7.10, 18.6 to 18.11) -/

/-- A write into the register block of lane k at its offset r. -/
def State.laneWrite (s : State) (k r v : Nat) : Option State :=
  match r with
  | 0x00 => some (s.laneCfg k v)
  | 0x04 => some (s.laneTxeq k v)
  | 0x08 => some (
      let x := s.lane k
      s.setLane k { x with lol := x.lol && !bitOf v 26, eqErr := x.eqErr && !bitOf v 25 })
  | 0x0C => some (s.lanePrbs k v)
  | 0x14 => some (s.laneEye k v)
  | _ => none

/-- The block of line port n at its offset r, lanes aside. -/
def State.lineWrite (s : State) (n r v : Nat) : Option State :=
  let off := facetOff n r
  if 0x100 ≤ r ∧ r < 0x110 then some (s.rwWrite off 0x03FC0000 v)
  else if r = 0x110 ∨ r = 0x114 then some (s.rwWrite off 0xFFFFFFFF v)
  else if r = 0x200 then some (s.rwWrite off 0x3 v)
  else if 0x210 ≤ r ∧ r < 0x220 then some (s.rwWrite off 0x83F0FFFF v)
  else if 0x240 ≤ r ∧ r < 0x380 then some (s.rwWrite off 0xFFFFFFFF v)
  else if r = 0x408 then
    let p := s.facetPort n
    some (s.setFacet n { p with latch := p.latch &&& ~~~(BitVec.ofNat 32 (v &&& 0xFFFF087F)) })
  else if r = 0x40C then some (s.rwWrite off 0xF7 v)
  else none

/-- The blocks of the client ports, the line ports and Chord. -/
def State.portsWrite (s : State) (off v : Nat) : Option State :=
  let r := off % 0x20000
  if 0x03400000 ≤ off ∧ off < 0x03600000 then
    let n := (off - 0x03400000) / 0x20000
    if 0x1000 ≤ r ∧ r < 0x1100 then s.laneWrite (4 * n + (r - 0x1000) / 0x40) (r % 0x40) v else none
  else if 0x03800000 ≤ off ∧ off < 0x03A00000 then
    let n := (off - 0x03800000) / 0x20000
    if 0x1000 ≤ r ∧ r < 0x1100 then s.laneWrite (64 + 4 * n + (r - 0x1000) / 0x40) (r % 0x40) v else s.lineWrite n r v
  else if 0x03C01000 ≤ off ∧ off < 0x03C01240 then s.laneWrite (128 + (off - 0x03C01000) / 0x40) (off % 0x40) v
  else none

/-! ### Telemetry and events (Tables 22.7 to 22.19) -/

/-- A write of TELE_SNAP_CFG: the pin's freeze is evaluated again (R521, Table 22.10). -/
def State.snapCfg (s : State) (v : Nat) : State :=
  let s := s.rwWrite 0x03E00020 0xEFFF7FFF v
  s.setFrozen s.tele.cmdFrozen (bitOf v 31 && bitOf v 30 && s.tele.snapIn == !bitOf v 29) 1

/-- A write of TELE_PC_LO_k or, with WRAP as W1C, TELE_PC_HI_k (Table 22.19). -/
def State.progWrite (s : State) (k : Nat) (hi : Bool) (v : Nat) : State :=
  let c := s.progNow k
  let x := c.value.toNat
  let c' : ProgCounter :=
    if hi then { value := BitVec.ofNat 48 (2 ^ 32 * (v % 65536) + x % 2 ^ 32), wrap := c.wrap && !bitOf v 31 }
    else { c with value := BitVec.ofNat 48 (2 ^ 32 * (x / 2 ^ 32) + v) }
  s.withTele { s.tele with progs := tput ProgCounter.reset s.tele.progs k c' }

/-- The block of telemetry and events. -/
def State.teleWrite (s : State) (off v : Nat) : Option State :=
  let r := off - 0x03E00000
  if 0x400 ≤ r ∧ r < 0x480 then
    some (s.withTele { s.tele with
      evtStatus := tmod 0 s.tele.evtStatus ((r - 0x400) / 4) fun w => w &&& ~~~(BitVec.ofNat 32 v) })
  else if 0x1000 ≤ r ∧ r < 0x2000 then some (s.rwWrite off 0x8000000F v)
  else if 0x4000 ≤ r ∧ r < 0xC000 then
    let k := (r - 0x4000) / 16
    match r % 16 with
    | 0x0 => some (s.rwWrite off 0xE00003FF v)
    | 0x4 => some (s.rwWrite off 0xFFFFFFFF v)
    | 0x8 => some (s.progWrite k false v)
    | _ => some (s.progWrite k true v)
  else match r with
    | 0x00 => some (if bitOf v 27 then s.withTele { s.tele with cntErr := false } else s)
    | 0x10 => some (s.counterAsk (BitVec.ofNat 32 v))
    | 0x20 => some (s.snapCfg v)
    | 0x24 => some (s.rwWrite off 0xFFFFFFC0 v)
    | 0x28 => some (s.rwWrite off 0xFF v)
    | 0x2C => some (s.rwWrite off 0xFFFFFFFF v)
    | 0x30 => some (s.rwWrite off 0x800000FF v)
    | 0x40 => some (s.rwWrite off 0xFFFF v)
    | _ => none

/-! ### Platform peripherals (Table 25.13), at their Compass address less 0x30_0000_0000 -/

/-- The peripherals. -/
def State.periphWrite (s : State) (off v : Nat) : Option State :=
  let k := off % 0x1000 / 0x100
  if off < 0x20000200 then
    match off % 0x100 with
    | 0x0 => some (s.uartPush k v)
    | 0x4 => some (if bitOf v 3 then s.setUart k { s.uart k with ovf := false } else s)
    | 0x8 => some (s.rwWrite off 0x8000FFFF v)
    | _ => none
  else if 0x20001000 ≤ off ∧ off < 0x20001400 then
    match off % 0x100 with
    | 0x0 => some (s.rwWrite off 0x80000003 (if v % 4 = 3 then v - 3 else v))
    | 0x4 => some (s.i2cCommand k v)
    | 0x8 =>
      let x := s.i2c k
      some (s.setI2c k { x with nack := x.nack && !bitOf v 30, lost := x.lost && !bitOf v 29 })
    | _ => none
  else if off = 0x20002004 ∨ off = 0x20002008 then some (s.rwWrite off 0xFFFFFFFF v)
  else none

/-! ### The row -/

/-- A write to a register of the set-up window at an aligned offset (Table 25.1). -/
def State.windowWrite (s : State) (off v : Nat) : Option State :=
  if off < 0x00200000 then none
  else if off < 0x00300000 then s.cprWrite off v
  else if off < 0x00400000 then s.ringsWrite off v
  else if off < 0x00C00000 then s.bufferWrite off v
  else if off < 0x01000000 then s.locusWrite off v
  else if off < 0x01400000 then s.sectorWrite off v
  else if off < 0x01800000 then s.gnomonWrite off v
  else if off < 0x02000000 then s.axisWrite off v
  else if off < 0x03400000 then s.prismWrite off v
  else if off < 0x03E00000 then s.portsWrite off v
  else if off < 0x04000000 then s.teleWrite off v
  else none

/-- LANE_PRBS or LANE_EYE_CTRL of a lane: what right 12 of Table 2.11 opens to the debug port (R436). -/
def laneTest (off : Nat) : Bool :=
  let r := if off < 0x03C00000 then off % 0x20000 else off % 0x400000
  0x03400000 ≤ off && off < 0x03E00000 && 0x1000 ≤ r && r < (if off < 0x03C00000 then 0x1100 else 0x1240) &&
    (r % 0x40 == 0xC || r % 0x40 == 0x14)

/-- REGISTER_WRITE: an aligned 32-bit write. The mailbox block is the writer's own mailbox (R39, R560); the window takes a debug-port write
under right 4 (R567), lane tests under right 12 too (R436), and the peripherals take Compass writes; any other offset ignores it (R565). A
part that is held takes none (R59); a thermal trip holds Compass, and Apex serves the debug port (R538, Table 1.7). -/
def State.registerWrite (s : State) (off v : Nat) (src : Source) : Option State :=
  if off % 4 ≠ 0 ∨ s.apex.held ∨ (src = .compass ∧ s.halted) then none
  else if 0x00100000 ≤ off ∧ off < 0x00200000 then s.apexWrite src.mbx off v
  else if off < 0x04000000 then
    if s.mayWriteRegs src ∧ (src = .compass ∨ ¬ laneTest off ∨ s.dbgRight 12) then s.windowWrite off v else none
  else if 0x20000000 ≤ off ∧ src = .compass then s.periphWrite off v
  else none

/-- REGISTER_WRITE (R9). -/
def execRegisterWrite (off value : Word32) (src : Source) (s : State) : Out :=
  .next ((s.registerWrite off.toNat value.toNat src).getD s)

end Sys2Proof.Machine
end

