-- ==== Sys2Proof/Machine/Flags.lean ====
section
/-! DEFINITION. The computation of predicates: the compares of the Vertex instruction set and their combination (R246). -/

namespace Sys2Proof.Machine

/-- The compares by the low three bits of their opcode: EQ, NE, LT, LTU, LE, LEU. -/
def compare_ (code : Nat) (a b : BitVec 64) : Bool :=
  match code with
  | 0 => a == b
  | 1 => a != b
  | 2 => a.slt b
  | 3 => a.ult b
  | 4 => a.sle b
  | _ => a.ule b

/-- How a result combines into its predicate (R246): ext [36:35]. -/
def combine (mode : Nat) (old r : Bool) : Bool :=
  match mode with
  | 0 => r
  | 1 => old && r
  | _ => old || r

/-- The predicate of a compare of two values. -/
def Ins.predicate (i : Ins) (old : Bool) (a b : BitVec 64) : Bool := combine (bits i.ext 35 2) old (compare_ (i.op % 8) a b)

end Sys2Proof.Machine
end

