-- ==== Sys2Proof/Machine/VertexAlu.lean ====
section
/-! DEFINITION. The ALU, bit-field, compare and move instructions of Vertex (Table 10.4, R242, R245, R246), and NOP. -/

namespace Sys2Proof.Machine

/-- An instruction that only writes registers of its thread. -/
def State.regOp (s : State) (i : Issue) (ops : List Nat) (f : Ins → Thread → Thread) : State :=
  s.issue i ops fun c k x s => .go (s.modThread c k (f x))

/-- NOP: the ring command completes with OK (R511); the instruction does nothing (R245). -/
def execNop (o : NopOf) (s : State) : Out :=
  match o with
  | .command d => .next (nopCommand d s)
  | .instruction i => .next (s.regOp i [0x00] fun _ t => t)

/-- ADD, SUB, AND, OR, XOR, ANDN, SHL, SHR, SAR, ROL (R242, R245). -/
def execAluRegisterOp (i : Issue) (s : State) : Out :=
  .next (s.regOp i [0x01, 0x02, 0x03, 0x04, 0x05, 0x06, 0x07, 0x08, 0x09, 0x0A] fun x t => t.setG x.d (alu x.op (t.gr x.a) (t.gr x.b)))

/-- MUL: the low 64 bits of the product (R245). -/
def execMul (i : Issue) (s : State) : Out := .next (s.regOp i [0x0B] fun x t => t.setG x.d (t.gr x.a * t.gr x.b))

/-- MULHU: the high 64 bits of the unsigned product (R245). -/
def execMulhu (i : Issue) (s : State) : Out :=
  .next (s.regOp i [0x0C] fun x t => t.setG x.d (BitVec.ofNat 64 ((t.gr x.a).toNat * (t.gr x.b).toNat / 2 ^ 64)))

/-- ADDI, ANDI, ORI, XORI, SHLI, SHRI, SARI, ROLI with the sign-extended immediate (R242, R245). -/
def execAluImmediateOp (i : Issue) (s : State) : Out :=
  .next (s.regOp i [0x11, 0x13, 0x14, 0x15, 0x17, 0x18, 0x19, 0x1A] fun x t => t.setG x.d (alu (x.op % 16) (t.gr x.a) x.imm37))

/-- MOVI (R245). -/
def execMovi (i : Issue) (s : State) : Out := .next (s.regOp i [0x1E] fun x t => t.setG x.d x.imm37)

/-- MOVHI: the upper half of gd is replaced, the lower kept (R245). -/
def execMovhi (i : Issue) (s : State) : Out :=
  .next (s.regOp i [0x1F] fun x t => t.setG x.d (BitVec.ofNat 32 x.ext ++ (t.gr x.d).extractLsb' 0 32))

/-- EXT (R245). -/
def execExt (i : Issue) (s : State) : Out :=
  .next (s.regOp i [0x20] fun x t => t.setG x.d (extractBits (t.gr x.a) (bits x.ext 0 6) (bits x.ext 6 7)))

/-- INS (R245). -/
def execIns (i : Issue) (s : State) : Out :=
  .next (s.regOp i [0x21] fun x t => t.setG x.d (insertBits (t.gr x.d) (t.gr x.a) (bits x.ext 0 6) (bits x.ext 6 7)))

/-- POPC, CLZ, BSWAP (R245). -/
def execPopcClzBswap (i : Issue) (s : State) : Out :=
  .next (s.regOp i [0x22, 0x23, 0x24] fun x t =>
    let a := t.gr x.a
    t.setG x.d (if x.op = 0x22 then BitVec.ofNat 64 (ones a) else if x.op = 0x23 then BitVec.ofNat 64 (leadingZeros a) else byteSwap a))

/-- BSET (R245). -/
def execBset (i : Issue) (s : State) : Out := .next (s.regOp i [0x28] fun x t => t.setB x.d (t.gr x.a ++ t.gr x.b))

/-- BGET: the high half where ext [0] is 1 (R245). -/
def execBget (i : Issue) (s : State) : Out :=
  .next (s.regOp i [0x29] fun x t => t.setG x.d ((t.br x.a).extractLsb' (if bitOf x.ext 0 then 64 else 0) 64))

/-- BXOR (R245). -/
def execBxor (i : Issue) (s : State) : Out := .next (s.regOp i [0x2A] fun x t => t.setB x.d (t.br x.a ^^^ t.br x.b))

/-- MOVS: fctx, or tid zero-extended (R212, R213, R245). -/
def execMovs (i : Issue) (s : State) : Out :=
  .next (s.regOp i [0x2B] fun x t =>
    t.setG x.d (if x.a = 0 then t.fctx else BitVec.ofNat 64 (vOwner i.t.cl i.t.key)))

/-- CMPEQ, CMPNE, CMPLT, CMPLTU, CMPLE, CMPLEU (R246). -/
def execCmp (i : Issue) (s : State) : Out :=
  .next (s.regOp i [0x30, 0x31, 0x32, 0x33, 0x34, 0x35] fun x t => t.setP x.d (x.predicate (t.pr x.d) (t.gr x.a) (t.gr x.b)))

/-- CMPEQI to CMPLEUI with the sign-extended 35-bit immediate (R246). -/
def execCmpi (i : Issue) (s : State) : Out :=
  .next (s.regOp i [0x38, 0x39, 0x3A, 0x3B, 0x3C, 0x3D] fun x t => t.setP x.d (x.predicate (t.pr x.d) (t.gr x.a) x.imm35))

end Sys2Proof.Machine
end

