-- ==== Sys2Proof/Machine/Dispatch.lean ====
section
/-! DEFINITION. The dispatch of commands to their meanings, one arm per constructor of Instr. -/

namespace Sys2Proof.Machine

/-- A command's effect on everything but the queue. -/
def exec (i : Instr) (s : State) : Host.Outcome State Fault Refusal :=
  match i with
  | .clientFrameReceive lp frame perr em => Sys2Proof.Machine.execClientFrameReceive lp frame perr em s
  | .lineFrameReceive lp frame => Sys2Proof.Machine.execLineFrameReceive lp frame s
  | .sectorDequeue side lp ecc => Sys2Proof.Machine.execSectorDequeue side lp ecc s
  | .prismDispatch prism found => Sys2Proof.Machine.execPrismDispatch prism found s
  | .reorderRelease lp dir perr parser em => Sys2Proof.Machine.execReorderRelease lp dir perr parser em s
  | .puntCopy ecc => Sys2Proof.Machine.execPuntCopy ecc s
  | .facetFrameTransmit n send => Sys2Proof.Machine.execFacetFrameTransmit n send s
  | .facetFrameReceive n errors frame perr => Sys2Proof.Machine.execFacetFrameReceive n errors frame perr s
  | .markerCodewordReceive n pos lanes => Sys2Proof.Machine.execMarkerCodewordReceive n pos lanes s
  | .losDeclare n => Sys2Proof.Machine.execLosDeclare n s
  | .losClear n => Sys2Proof.Machine.execLosClear n s
  | .nop o => Sys2Proof.Machine.execNop o s
  | .aluRegisterOp op => Sys2Proof.Machine.execAluRegisterOp op s
  | .mul op => Sys2Proof.Machine.execMul op s
  | .mulhu op => Sys2Proof.Machine.execMulhu op s
  | .aluImmediateOp op => Sys2Proof.Machine.execAluImmediateOp op s
  | .movi op => Sys2Proof.Machine.execMovi op s
  | .movhi op => Sys2Proof.Machine.execMovhi op s
  | .ext op => Sys2Proof.Machine.execExt op s
  | .ins op => Sys2Proof.Machine.execIns op s
  | .popcClzBswap op => Sys2Proof.Machine.execPopcClzBswap op s
  | .bset op => Sys2Proof.Machine.execBset op s
  | .bget op => Sys2Proof.Machine.execBget op s
  | .bxor op => Sys2Proof.Machine.execBxor op s
  | .movs op => Sys2Proof.Machine.execMovs op s
  | .cmp op => Sys2Proof.Machine.execCmp op s
  | .cmpi op => Sys2Proof.Machine.execCmpi op s
  | .ld op ecc => Sys2Proof.Machine.execLd op ecc s
  | .st op => Sys2Proof.Machine.execSt op s
  | .ldb op ecc => Sys2Proof.Machine.execLdb op ecc s
  | .stb op => Sys2Proof.Machine.execStb op s
  | .ldh op => Sys2Proof.Machine.execLdh op s
  | .sth op => Sys2Proof.Machine.execSth op s
  | .ldhb op => Sys2Proof.Machine.execLdhb op s
  | .sthb op => Sys2Proof.Machine.execSthb op s
  | .vfence op => Sys2Proof.Machine.execVfence op s
  | .fget op perr => Sys2Proof.Machine.execFget op perr s
  | .fput op => Sys2Proof.Machine.execFput op s
  | .fgetb op perr => Sys2Proof.Machine.execFgetb op perr s
  | .fputb op => Sys2Proof.Machine.execFputb op s
  | .saload op => Sys2Proof.Machine.execSaload op s
  | .pntake op => Sys2Proof.Machine.execPntake op s
  | .cld op => Sys2Proof.Machine.execCld op s
  | .cst op => Sys2Proof.Machine.execCst op s
  | .benc op => Sys2Proof.Machine.execBenc op s
  | .bdec op => Sys2Proof.Machine.execBdec op s
  | .bctr op => Sys2Proof.Machine.execBctr op s
  | .gfacc op => Sys2Proof.Machine.execGfacc op s
  | .tagfin op => Sys2Proof.Machine.execTagfin op s
  | .tagcmp op => Sys2Proof.Machine.execTagcmp op s
  | .cas op ecc => Sys2Proof.Machine.execCas op ecc s
  | .fadd op ecc => Sys2Proof.Machine.execFadd op ecc s
  | .br op => Sys2Proof.Machine.execBr op s
  | .brr op => Sys2Proof.Machine.execBrr op s
  | .call op => Sys2Proof.Machine.execCall op s
  | .ret op => Sys2Proof.Machine.execRet op s
  | .wait op => Sys2Proof.Machine.execWait op s
  | .yield op => Sys2Proof.Machine.execYield op s
  | .halt op => Sys2Proof.Machine.execHalt op s
  | .emit op => Sys2Proof.Machine.execEmit op s
  | .drop op => Sys2Proof.Machine.execDrop op s
  | .park op => Sys2Proof.Machine.execPark op s
  | .redo op => Sys2Proof.Machine.execRedo op s
  | .evt op => Sys2Proof.Machine.execEvt op s
  | .descriptorComplete t idx => Sys2Proof.Machine.execDescriptorComplete t idx s
  | .hbmLoadReturn t ecc => Sys2Proof.Machine.execHbmLoadReturn t ecc s
  | .verificationResult r res => Sys2Proof.Machine.execVerificationResult r res s
  | .threadWatchdogExpiry t => Sys2Proof.Machine.execThreadWatchdogExpiry t s
  | .debugHalt t => Sys2Proof.Machine.execDebugHalt t s
  | .debugResume t => Sys2Proof.Machine.execDebugResume t s
  | .pcSample c => Sys2Proof.Machine.execPcSample c s
  | .engineReset c value src => Sys2Proof.Machine.execEngineReset c value src s
  | .lcTransition m => Sys2Proof.Machine.execLcTransition m s
  | .dbgChallenge m => Sys2Proof.Machine.execDbgChallenge m s
  | .dbgUnlock m => Sys2Proof.Machine.execDbgUnlock m s
  | .measExtend m => Sys2Proof.Machine.execMeasExtend m s
  | .measRead m => Sys2Proof.Machine.execMeasRead m s
  | .alarmAck m => Sys2Proof.Machine.execAlarmAck m s
  | .secverRaise m => Sys2Proof.Machine.execSecverRaise m s
  | .seal m => Sys2Proof.Machine.execSeal m s
  | .unseal m => Sys2Proof.Machine.execUnseal m s
  | .unsealToSlot m => Sys2Proof.Machine.execUnsealToSlot m s
  | .sealMigrate m => Sys2Proof.Machine.execSealMigrate m s
  | .blobCommit m => Sys2Proof.Machine.execBlobCommit m s
  | .blobFetch m => Sys2Proof.Machine.execBlobFetch m s
  | .supplyHoldTimeout m => Sys2Proof.Machine.execSupplyHoldTimeout m s
  | .compassRelease => Sys2Proof.Machine.execCompassRelease s
  | .alarm cause rail => Sys2Proof.Machine.execAlarm cause rail s
  | .keyStage d => Sys2Proof.Machine.execKeyStage d s
  | .keyVerify d => Sys2Proof.Machine.execKeyVerify d s
  | .keyCommit d => Sys2Proof.Machine.execKeyCommit d s
  | .keyErase d => Sys2Proof.Machine.execKeyErase d s
  | .keyDerive d => Sys2Proof.Machine.execKeyDerive d s
  | .keyInvalidate d => Sys2Proof.Machine.execKeyInvalidate d s
  | .generationDrainEnd slot => Sys2Proof.Machine.execGenerationDrainEnd slot s
  | .markingPassEnd => Sys2Proof.Machine.execMarkingPassEnd s
  | .sweepPassStart => Sys2Proof.Machine.execSweepPassStart s
  | .sweepSlotVisit slot => Sys2Proof.Machine.execSweepSlotVisit slot s
  | .maskOverdue => Sys2Proof.Machine.execMaskOverdue s
  | .drbgReseed => Sys2Proof.Machine.execDrbgReseed s
  | .entropyHealthFail => Sys2Proof.Machine.execEntropyHealthFail s
  | .entropyRecovery => Sys2Proof.Machine.execEntropyRecovery s
  | .saCreate d => Sys2Proof.Machine.execSaCreate d s
  | .saModify d => Sys2Proof.Machine.execSaModify d s
  | .saRotate d => Sys2Proof.Machine.execSaRotate d s
  | .saRotateCancel d => Sys2Proof.Machine.execSaRotateCancel d s
  | .saRetire d => Sys2Proof.Machine.execSaRetire d s
  | .saRead d => Sys2Proof.Machine.execSaRead d s
  | .rotationArmed ring tag => Sys2Proof.Machine.execRotationArmed ring tag s
  | .rotationTimeTrigger ring tag => Sys2Proof.Machine.execRotationTimeTrigger ring tag s
  | .retirementEnd h => Sys2Proof.Machine.execRetirementEnd h s
  | .overlapHoldExpiry h => Sys2Proof.Machine.execOverlapHoldExpiry h s
  | .contextLockLeaseExpiry h => Sys2Proof.Machine.execContextLockLeaseExpiry h s
  | .holdLimitExpiry queue => Sys2Proof.Machine.execHoldLimitExpiry queue s
  | .parkedFrameRedispatch queue => Sys2Proof.Machine.execParkedFrameRedispatch queue s
  | .statsFoldSweep part => Sys2Proof.Machine.execStatsFoldSweep part s
  | .portEnable d => Sys2Proof.Machine.execPortEnable d s
  | .portDisable d => Sys2Proof.Machine.execPortDisable d s
  | .portDrainEnd side n => Sys2Proof.Machine.execPortDrainEnd side n s
  | .portDisableTimeout side n => Sys2Proof.Machine.execPortDisableTimeout side n s
  | .gateLoad d => Sys2Proof.Machine.execGateLoad d s
  | .gateArm d => Sys2Proof.Machine.execGateArm d s
  | .gateArmCancel d => Sys2Proof.Machine.execGateArmCancel d s
  | .gateListStart x => Sys2Proof.Machine.execGateListStart x s
  | .gateEntryAdvance x => Sys2Proof.Machine.execGateEntryAdvance x s
  | .indRead value => Sys2Proof.Machine.execIndRead value s
  | .indWrite value => Sys2Proof.Machine.execIndWrite value s
  | .ucodeLoad d => Sys2Proof.Machine.execUcodeLoad d s
  | .ucodeActivate d => Sys2Proof.Machine.execUcodeActivate d s
  | .activateDrainEnd c => Sys2Proof.Machine.execActivateDrainEnd c s
  | .activateTimeout => Sys2Proof.Machine.execActivateTimeout s
  | .cryptoBlock d => Sys2Proof.Machine.execCryptoBlock d s
  | .reclaim d => Sys2Proof.Machine.execReclaim d s
  | .reclaimTesseraOwner d => Sys2Proof.Machine.execReclaimTesseraOwner d s
  | .sensorGroupSetGroup d => Sys2Proof.Machine.execSensorGroupSetGroup d s
  | .sensorGroupSetRoute d => Sys2Proof.Machine.execSensorGroupSetRoute d s
  | .sensorGroupSetProfile d => Sys2Proof.Machine.execSensorGroupSetProfile d s
  | .sensorGroupSetQueue d => Sys2Proof.Machine.execSensorGroupSetQueue d s
  | .serviceEnable d => Sys2Proof.Machine.execServiceEnable d s
  | .serviceDisable d => Sys2Proof.Machine.execServiceDisable d s
  | .radiusDrainEnd => Sys2Proof.Machine.execRadiusDrainEnd s
  | .radiusDrainTimeout => Sys2Proof.Machine.execRadiusDrainTimeout s
  | .sensorWriteInsert d => Sys2Proof.Machine.execSensorWriteInsert d s
  | .sensorWriteReplace d => Sys2Proof.Machine.execSensorWriteReplace d s
  | .sensorWriteDelete d => Sys2Proof.Machine.execSensorWriteDelete d s
  | .sensorWriteRead d => Sys2Proof.Machine.execSensorWriteRead d s
  | .gatewayInsert d => Sys2Proof.Machine.execGatewayInsert d s
  | .gatewayReplace d => Sys2Proof.Machine.execGatewayReplace d s
  | .gatewayDelete d => Sys2Proof.Machine.execGatewayDelete d s
  | .gatewayRead d => Sys2Proof.Machine.execGatewayRead d s
  | .sensorCheckpointWrite d => Sys2Proof.Machine.execSensorCheckpointWrite d s
  | .sensorCheckpointConfirm d => Sys2Proof.Machine.execSensorCheckpointConfirm d s
  | .radiusBatchTake read => Sys2Proof.Machine.execRadiusBatchTake read s
  | .radiusDispatch item thr => Sys2Proof.Machine.execRadiusDispatch item thr s
  | .batchAck batch => Sys2Proof.Machine.execBatchAck batch s
  | .readingBatchFlush group => Sys2Proof.Machine.execReadingBatchFlush group s
  | .downlinkWindowRelease queue => Sys2Proof.Machine.execDownlinkWindowRelease queue s
  | .downlinkExpiry entry => Sys2Proof.Machine.execDownlinkExpiry entry s
  | .recordLockLeaseExpiry slot => Sys2Proof.Machine.execRecordLockLeaseExpiry slot s
  | .tblRead d => Sys2Proof.Machine.execTblRead d s
  | .tblWriteInsert d => Sys2Proof.Machine.execTblWriteInsert d s
  | .tblWriteReplace d => Sys2Proof.Machine.execTblWriteReplace d s
  | .tblWriteDelete d => Sys2Proof.Machine.execTblWriteDelete d s
  | .tblWriteClearHit d => Sys2Proof.Machine.execTblWriteClearHit d s
  | .tblDeleteIfIdle d => Sys2Proof.Machine.execTblDeleteIfIdle d s
  | .tblLock d => Sys2Proof.Machine.execTblLock d s
  | .tblUnlock d => Sys2Proof.Machine.execTblUnlock d s
  | .tblLockWaitTimeout ring tag => Sys2Proof.Machine.execTblLockWaitTimeout ring tag s
  | .tableLockLeaseExpiry bucket => Sys2Proof.Machine.execTableLockLeaseExpiry bucket s
  | .learnRequestApply => Sys2Proof.Machine.execLearnRequestApply s
  | .moveHoldExpiry profile key => Sys2Proof.Machine.execMoveHoldExpiry profile key s
  | .emTableClear value => Sys2Proof.Machine.execEmTableClear value s
  | .tesseraPoolWrite pool value => Sys2Proof.Machine.execTesseraPoolWrite pool value s
  | .tesseraOwnerWrite owner isMin value => Sys2Proof.Machine.execTesseraOwnerWrite owner isMin value s
  | .freeListBuildEnd pool => Sys2Proof.Machine.execFreeListBuildEnd pool s
  | .freeListRebuildEnd pool bank => Sys2Proof.Machine.execFreeListRebuildEnd pool bank s
  | .queueEnable q value => Sys2Proof.Machine.execQueueEnable q value s
  | .queueDisable q value => Sys2Proof.Machine.execQueueDisable q value s
  | .queueRelease q value => Sys2Proof.Machine.execQueueRelease q value s
  | .bankSwap q => Sys2Proof.Machine.execBankSwap q s
  | .entryWriteComplete q poison => Sys2Proof.Machine.execEntryWriteComplete q poison s
  | .hullRegionCreate d => Sys2Proof.Machine.execHullRegionCreate d s
  | .hullRegionRights d => Sys2Proof.Machine.execHullRegionRights d s
  | .hullRegionFill d => Sys2Proof.Machine.execHullRegionFill d s
  | .hullRegionDelete d => Sys2Proof.Machine.execHullRegionDelete d s
  | .deleteDrainEnd mem r => Sys2Proof.Machine.execDeleteDrainEnd mem r s
  | .fillComplete mem r => Sys2Proof.Machine.execFillComplete mem r s
  | .hullRekey d => Sys2Proof.Machine.execHullRekey d s
  | .rekeyComplete mem r => Sys2Proof.Machine.execRekeyComplete mem r s
  | .minorOverflowPassEnd mem r ns => Sys2Proof.Machine.execMinorOverflowPassEnd mem r ns s
  | .patrolScrub addr ecc => Sys2Proof.Machine.execPatrolScrub addr ecc s
  | .twinConfigure d => Sys2Proof.Machine.execTwinConfigure d s
  | .twinSolo d => Sys2Proof.Machine.execTwinSolo d s
  | .twinWiden d => Sys2Proof.Machine.execTwinWiden d s
  | .twinRemove d => Sys2Proof.Machine.execTwinRemove d s
  | .twinHandover d => Sys2Proof.Machine.execTwinHandover d s
  | .leaseStatus d => Sys2Proof.Machine.execLeaseStatus d s
  | .handoverTimeout => Sys2Proof.Machine.execHandoverTimeout s
  | .chordLinkUp => Sys2Proof.Machine.execChordLinkUp s
  | .helloSend p => Sys2Proof.Machine.execHelloSend p s
  | .helloReceive p msg => Sys2Proof.Machine.execHelloReceive p msg s
  | .chordHeartbeatSend => Sys2Proof.Machine.execChordHeartbeatSend s
  | .chordLinkDown cause => Sys2Proof.Machine.execChordLinkDown cause s
  | .syncCycleStart => Sys2Proof.Machine.execSyncCycleStart s
  | .copyRecordsReceive msg => Sys2Proof.Machine.execCopyRecordsReceive msg s
  | .copyEndReceive msg => Sys2Proof.Machine.execCopyEndReceive msg s
  | .copyAckReceive msg => Sys2Proof.Machine.execCopyAckReceive msg s
  | .fullRequestReceive msg => Sys2Proof.Machine.execFullRequestReceive msg s
  | .handoverRequestReceive msg => Sys2Proof.Machine.execHandoverRequestReceive msg s
  | .leaseRequestSend => Sys2Proof.Machine.execLeaseRequestSend s
  | .leaseGrant msg => Sys2Proof.Machine.execLeaseGrant msg s
  | .leaseDeny msg => Sys2Proof.Machine.execLeaseDeny msg s
  | .leaseExpiry => Sys2Proof.Machine.execLeaseExpiry s
  | .staleRequestSend => Sys2Proof.Machine.execStaleRequestSend s
  | .waitToRestoreExpiry => Sys2Proof.Machine.execWaitToRestoreExpiry s
  | .doorbellWrite r value => Sys2Proof.Machine.execDoorbellWrite r value s
  | .commandFetch => Sys2Proof.Machine.execCommandFetch s
  | .ringEnable kind r value => Sys2Proof.Machine.execRingEnable kind r value s
  | .ringDisable kind r value => Sys2Proof.Machine.execRingDisable kind r value s
  | .ringDrainEnd r => Sys2Proof.Machine.execRingDrainEnd r s
  | .ringCiWrite kind r value => Sys2Proof.Machine.execRingCiWrite kind r value s
  | .interruptDelayExpiry kind r => Sys2Proof.Machine.execInterruptDelayExpiry kind r s
  | .eventRecordWrite => Sys2Proof.Machine.execEventRecordWrite s
  | .mgmtFrameReceive k frame => Sys2Proof.Machine.execMgmtFrameReceive k frame s
  | .mgmtDoorbell m value => Sys2Proof.Machine.execMgmtDoorbell m value s
  | .mgmtLinkChange k up speed => Sys2Proof.Machine.execMgmtLinkChange k up speed s
  | .fence d => Sys2Proof.Machine.execFence d s
  | .setInterfaceVersion d => Sys2Proof.Machine.execSetInterfaceVersion d s
  | .frameSend d => Sys2Proof.Machine.execFrameSend d s
  | .resync d => Sys2Proof.Machine.execResync d s
  | .snapshotNow d => Sys2Proof.Machine.execSnapshotNow d s
  | .snapshotAtTime d => Sys2Proof.Machine.execSnapshotAtTime d s
  | .snapshotFreeze d => Sys2Proof.Machine.execSnapshotFreeze d s
  | .snapshotThaw d => Sys2Proof.Machine.execSnapshotThaw d s
  | .capture => Sys2Proof.Machine.execCapture s
  | .snapInEdge level => Sys2Proof.Machine.execSnapInEdge level s
  | .snapInFreezeLevel level => Sys2Proof.Machine.execSnapInFreezeLevel level s
  | .counterRead value => Sys2Proof.Machine.execCounterRead value s
  | .counterReadReady => Sys2Proof.Machine.execCounterReadReady s
  | .pcLoRead k => Sys2Proof.Machine.execPcLoRead k s
  | .gnomonSet value => Sys2Proof.Machine.execGnomonSet value s
  | .gnomonStep value => Sys2Proof.Machine.execGnomonStep value s
  | .lockWrite value => Sys2Proof.Machine.execLockWrite value s
  | .rateWrite value => Sys2Proof.Machine.execRateWrite value s
  | .servoTimeout => Sys2Proof.Machine.execServoTimeout s
  | .secondTick => Sys2Proof.Machine.execSecondTick s
  | .ppsOutPulseEnd => Sys2Proof.Machine.execPpsOutPulseEnd s
  | .ppsInEdge level => Sys2Proof.Machine.execPpsInEdge level s
  | .ppsInMissing => Sys2Proof.Machine.execPpsInMissing s
  | .todMessageSend => Sys2Proof.Machine.execTodMessageSend s
  | .todByteReceive b => Sys2Proof.Machine.execTodByteReceive b s
  | .todRxRead => Sys2Proof.Machine.execTodRxRead s
  | .txtsEntryRemove x => Sys2Proof.Machine.execTxtsEntryRemove x s
  | .nowNsRead => Sys2Proof.Machine.execNowNsRead s
  | .transmitPllLock l => Sys2Proof.Machine.execTransmitPllLock l s
  | .signalDetect l => Sys2Proof.Machine.execSignalDetect l s
  | .signalLoss l => Sys2Proof.Machine.execSignalLoss l s
  | .phaseLock l => Sys2Proof.Machine.execPhaseLock l s
  | .adaptConverged l => Sys2Proof.Machine.execAdaptConverged l s
  | .trainComplete l inverted => Sys2Proof.Machine.execTrainComplete l inverted s
  | .lossOfLock l => Sys2Proof.Machine.execLossOfLock l s
  | .fastRelockExpiry l => Sys2Proof.Machine.execFastRelockExpiry l s
  | .lockTimeout l => Sys2Proof.Machine.execLockTimeout l s
  | .pcsAlignmentLock side n sub => Sys2Proof.Machine.execPcsAlignmentLock side n sub s
  | .refclkLoss k => Sys2Proof.Machine.execRefclkLoss k s
  | .laneCfgWrite l value => Sys2Proof.Machine.execLaneCfgWrite l value s
  | .laneTxeqWrite l value => Sys2Proof.Machine.execLaneTxeqWrite l value s
  | .prbsCfgWrite l value => Sys2Proof.Machine.execPrbsCfgWrite l value s
  | .errorInject l value => Sys2Proof.Machine.execErrorInject l value s
  | .prbsCheckerLockLoss l => Sys2Proof.Machine.execPrbsCheckerLockLoss l s
  | .eyeScanGo l value => Sys2Proof.Machine.execEyeScanGo l value s
  | .eyeScanDone l errors => Sys2Proof.Machine.execEyeScanDone l errors s
  | .coldReset => Sys2Proof.Machine.execColdReset s
  | .warmReset by_ => Sys2Proof.Machine.execWarmReset by_ s
  | .datapathReset value => Sys2Proof.Machine.execDatapathReset value s
  | .datapathResetComplete => Sys2Proof.Machine.execDatapathResetComplete s
  | .portBlockReset value => Sys2Proof.Machine.execPortBlockReset value s
  | .railWarningEntry rail => Sys2Proof.Machine.execRailWarningEntry rail s
  | .railWarningExit rail => Sys2Proof.Machine.execRailWarningExit rail s
  | .supplyReset rail => Sys2Proof.Machine.execSupplyReset rail s
  | .overVoltage rail => Sys2Proof.Machine.execOverVoltage rail s
  | .aonBrownOut => Sys2Proof.Machine.execAonBrownOut s
  | .temperatureSample high low => Sys2Proof.Machine.execTemperatureSample high low s
  | .thermalTrip => Sys2Proof.Machine.execThermalTrip s
  | .thermalTripRelease => Sys2Proof.Machine.execThermalTripRelease s
  | .memoryPllLoss k => Sys2Proof.Machine.execMemoryPllLoss k s
  | .gnomonPllLoss => Sys2Proof.Machine.execGnomonPllLoss s
  | .gnomonPllRelock => Sys2Proof.Machine.execGnomonPllRelock s
  | .extestLoad => Sys2Proof.Machine.execExtestLoad s
  | .uartDataWrite k value => Sys2Proof.Machine.execUartDataWrite k value s
  | .uartDataRead k => Sys2Proof.Machine.execUartDataRead k s
  | .uartByteReceive k b => Sys2Proof.Machine.execUartByteReceive k b s
  | .i2cStart k => Sys2Proof.Machine.execI2cStart k s
  | .i2cStop k => Sys2Proof.Machine.execI2cStop k s
  | .i2cRead k stop => Sys2Proof.Machine.execI2cRead k stop s
  | .i2cWrite k b => Sys2Proof.Machine.execI2cWrite k b s
  | .i2cTransferDone k nack arbLost b => Sys2Proof.Machine.execI2cTransferDone k nack arbLost b s
  | .registerWrite off value src => Sys2Proof.Machine.execRegisterWrite off value src s
  | .powerOnResetRelease => Sys2Proof.Machine.execPowerOnResetRelease s
  | .expectedMarkerMissed n lane => Sys2Proof.Machine.execExpectedMarkerMissed n lane s
  | .alignmentCandidateMatch n pos matched mfc => Sys2Proof.Machine.execAlignmentCandidateMatch n pos matched mfc s
  | .heartbeatReceive msg => Sys2Proof.Machine.execHeartbeatReceive msg s
  | .registerResultArrival t => Sys2Proof.Machine.execRegisterResultArrival t s
  | .uartByteSent k => Sys2Proof.Machine.execUartByteSent k s

end Sys2Proof.Machine
end

