-- ==== Sys2Proof/Machine/Pins.lean ====
section
/-! DEFINITION. The levels of the output pins that the state fixes (R394, R443, R538, R555, Table 24.8, Table 25.13), the balls of the lanes
(R545, R547) and the IDCODE of the test access port (R560). -/

namespace Sys2Proof.Machine

/-- PORESET_N or a supply reset is low, an alarm or EXTEST holds the part, or a thermal trip does (Table 24.8). -/
def State.pinsHeld (s : State) : Bool := s.cpr.por || s.apex.held || s.cpr.trip.isSome

/-- ALARM_N: low in an alarm hold (R59, R555). -/
def State.alarmNPin (s : State) : Bool := s.apex.alarmN

/-- THERMTRIP_N: low in a thermal trip (R538). -/
def State.thermtripNPin (s : State) : Bool := s.cpr.trip.isNone

/-- ROLE[1:0] (R443): 00b while the part is held. -/
def State.rolePin (s : State) : Nat := if s.pinsHeld then 0 else s.role

/-- PPS_OUT (R392): low while the part is held. -/
def State.ppsOutPin (s : State) : Bool := !s.pinsHeld && s.gnomon.ppsOut

/-- RCLKk is driven and not low. -/
def State.rclkRuns (s : State) (k : Nat) : Bool := !s.pinsHeld && s.gnomon.rclkOn.getLsbD k

/-- Every lane transmitter is squelched (Table 24.8). -/
def State.lanesSquelched (s : State) : Bool := s.pinsHeld

/-- GPIO[i] is driven, and its level; none where it is an input with pull-down (Table 25.13). -/
def State.gpioPin (s : State) (i : Nat) : Option Bool :=
  if !s.pinsHeld && (s.reg 0x20002008).getLsbD i then some ((s.reg 0x20002004).getLsbD i) else none

/-- UARTx_TXD and TOD_TXD rest high while the part is held (Table 24.8). -/
def State.serialOutRests (s : State) : Bool := s.pinsHeld

/-- DDRx_RESET_N: low while PORESET_N is low, in a supply reset and in an alarm hold; high in a thermal trip, which leaves the memories in
self-refresh (Table 24.8). -/
def State.ddrResetNPin (s : State) : Bool := !(s.cpr.por || s.apex.held)

/-! ### Balls and the test access port -/

/-- The letters of a row's last place, in order (R545). -/
def rowLetters : List Char := ['A', 'B', 'C', 'D', 'E', 'F', 'G', 'H', 'J', 'K', 'L', 'M', 'N', 'P', 'T', 'U', 'V', 'W', 'Y']

/-- The name of the ball row of index k, 0 to 71: A to Y, AA to AY, BA to BY, CA to CT (R545). -/
def rowName (k : Nat) : String :=
  let last := (rowLetters.getD (k % 19) 'A').toString
  if k < 19 then last else ((['A', 'B', 'C'].getD (k / 19 - 1) 'A').toString) ++ last

/-- The four balls of a lane: RXP, RXN, TXP, TXN, each a row index and a column. -/
structure LaneBalls where
  rxp : Nat × Nat
  rxn : Nat × Nat
  txp : Nat × Nat
  txn : Nat × Nat
  deriving DecidableEq, Repr

/-- The balls of client lane i, 0 to 63 (R547). -/
def clientBalls (i : Nat) : LaneBalls := { rxp := (i + 4, 2), rxn := (i + 4, 3), txp := (i + 4, 5), txn := (i + 4, 6) }

/-- The balls of line lane i, 0 to 63 (R547). -/
def lineBalls (i : Nat) : LaneBalls := { rxp := (i + 4, 71), rxn := (i + 4, 70), txp := (i + 4, 68), txn := (i + 4, 67) }

/-- The balls of Chord lane k, 0 to 8: transmit pair on row CP, receive pair on row CM (R547). -/
def chordBalls (k : Nat) : LaneBalls :=
  { rxp := (68, 20 + 4 * k), rxn := (68, 21 + 4 * k), txp := (70, 20 + 4 * k), txn := (70, 21 + 4 * k) }

/-- What the IDCODE instruction shifts out on A1 silicon (Table 24.12): version 1, part 0x6416, maker 0x4B7, and a one. -/
def idcode : BitVec 32 := 0x1#4 ++ 0x6416#16 ++ 0x4B7#11 ++ 1#1

end Sys2Proof.Machine
end

