-- ==== Sys2Proof/Machine/RegRead.lean ====
section
/-! DEFINITION. What a read of any register of the set-up window or the peripherals answers (R9 to R11, R565, R568, R569, chapter 25). The
rows NOW_NS_READ, TOD_RX_READ, TXTS_ENTRY_REMOVE, PC_LO_READ and UART_DATA_READ give the reads that change state. -/

namespace Sys2Proof.Machine

/-- The levels at GPIO[31:0]: GPIO_OUT where GPIO_OE drives the pin, else what the board drives at that time (Tables 24.8, 25.13). -/
def State.gpioLevel (s : State) : Nat :=
  let oe := s.reg 0x20002008
  ((oe &&& s.reg 0x20002004) ||| (~~~oe &&& Config.gpioPins s.clk)).toNat

/-- The word i of a byte list. -/
def wordOf (bs : List Byte) (i : Nat) : Nat := leAt bs (4 * i) 4

/-- Identity and capability (Tables 25.2 to 25.9, R569). -/
def State.readIdent (s : State) (off : Nat) : Nat :=
  match off with
  | 0x00 => 0x64160000
  | 0x04 => 0xA1
  | 0x10 => s.apex.otp.serial.toNat % 2 ^ 32
  | 0x14 => s.apex.otp.serial.toNat / 2 ^ 32
  | 0x20 => 0x060E0206
  | 0x24 => 0x10101040
  | 0x28 => 0x20001000
  | 0x2C => 0x04000800
  | 0x30 => 0xFF
  | _ => 0

/-- The Apex block, as the owner of mailbox m reads it (Tables 2.1, 2.13 to 2.16). -/
def State.readApex (s : State) (m : Mbx) (off : Nat) : Nat :=
  let x := s.mbx m
  if off = 0x00100000 then b2n x.busy <<< 31 ||| b2n x.done <<< 1
  else if off = 0x00100010 then s.lcWord
  else if off = 0x00100014 then s.bootWord
  else if off = 0x00100018 then s.alarmWord
  else if off = 0x0010001C then s.rightsWord
  else if 0x00100200 ≤ off ∧ off < 0x00100400 then leNat (bufBytes x.req (off - 0x00100200) 4)
  else if 0x00100400 ≤ off ∧ off < 0x00100600 then leNat (bufBytes x.resp (off - 0x00100400) 4)
  else 0

/-- Clocks, power and reset (Tables 23.10 to 23.15). -/
def State.readCpr (s : State) (off : Nat) : Nat :=
  let c := s.cpr
  match off with
  | 0x00200000 => c.railId.toNat <<< 8 ||| c.cause.toNat
  | 0x00200004 => b2n c.dpBusy.isSome <<< 29
  | 0x00200008 => c.overV.toNat <<< 16 ||| maskOf (c.warn.map fun (e : Nat × Nat) => e.1)
  | 0x0020000C => b2n c.tripped <<< 31 ||| (c.tempHwm.getD 0).toNat <<< 16 ||| c.tempMax.toNat
  | 0x00200010 => b2n s.gnomon.pllLocked <<< 4 ||| c.pll.toNat
  | _ => s.regN off

/-- Rings and management ports (Tables 20.14 to 20.24). -/
def State.readRings (s : State) (off : Nat) : Nat :=
  if off = 0x00300000 then s.rings.version.toNat
  else if 0x00302000 ≤ off ∧ off < 0x00306000 then
    let k := ringKindOf ((off - 0x00302000) / 0x1000)
    let x := s.ring k (off % 0x1000 / 0x20)
    if ringCount k ≤ off % 0x1000 / 0x20 then 0
    else match off % 0x20 with
      | 0x0C => x.state.code <<< 30 ||| (if k = .command then x.outs.length <<< 17 ||| x.ci.toNat else x.pi.toNat)
      | 0x14 => if k = .event then x.lost.toNat else 0
      | _ => s.regN off
  else if off = 0x00306000 then s.regN off ||| s.rings.speed0.toNat <<< 2 ||| b2n s.rings.link0
  else if off = 0x00306010 then s.regN off ||| s.rings.speed1.toNat <<< 2 ||| b2n s.rings.link1
  else s.regN off

/-- Annulus and Tessera (Tables 14.5 to 14.18). -/
def State.readBuffer (s : State) (off : Nat) : Nat :=
  if off = 0x00400000 then s.regN off ||| s.annulus.queue
  else if 0x00401000 ≤ off ∧ off < 0x00403000 ∧ off % 32 = 0x10 then
    let x := s.aq ((off - 0x00401000) / 32)
    b2n (x.ping && x.bank) <<< 31 ||| b2n (x.bad == some (x.released + x.count)) <<< 30 ||| x.count
  else if off = 0x00800000 then s.regN off ||| s.tess.errOwner <<< 19 ||| s.tess.errCell
  else if 0x00800020 ≤ off ∧ off < 0x00800030 then s.poolFree ((off - 0x00800020) / 4)
  else if 0x00801000 ≤ off ∧ off < 0x00802000 ∧ off % 16 = 8 then s.tessUsed ((off - 0x00801000) / 16)
  else s.regN off

/-- Locus and Sector (Tables 13.11 to 13.23, 15.6 to 15.12). -/
def State.readPath (s : State) (off : Nat) : Nat :=
  if off = 0x00C00004 then min 31 s.stashUsed <<< 27 ||| s.locus.em.length
  else if off = 0x00C0000C then s.regN off ||| s.locus.eccBucket.toNat
  else if 0x00C00100 ≤ off ∧ off < 0x00C00180 ∧ off % 8 = 0 then
    s.regN off % 2 ^ 28 + 2 ^ 28 * b2n (profileErr (s.regN off) (s.regN (off + 4))) + s.regN off / 2 ^ 29 * 2 ^ 29
  else if 0x00C00800 ≤ off ∧ off < 0x00C00A00 then s.learnCount ((off - 0x00C00800) / 4)
  else if 0x01001000 ≤ off ∧ off < 0x01001400 then
    let x := (off - 0x01001000) / 0x20
    let t := (s.gate x).pstart
    match off % 0x20 with
    | 0x04 => s.gateStatus x
    | 0x08 => t % 1000000000
    | 0x0C => t / 1000000000 % 2 ^ 32
    | 0x10 => t / 1000000000 / 2 ^ 32 % 2 ^ 16
    | _ => s.regN off
  else s.regN off

/-- Gnomon (Tables 16.7 to 16.21). -/
def State.readGnomon (s : State) (off : Nat) : Nat :=
  let g := s.gnomon
  if 0x01400100 ≤ off ∧ off < 0x01400500 then
    let x := (off - 0x01400100) / 0x20
    let q := tget [] g.txts x
    match off % 0x20 with
    | 0x04 => s.regN off ||| (tget 0 g.txtsOvf x).toNat
    | 0x08 => q.length
    | 0x10 => ((q.head?.getD 0).extractLsb' 0 32).toNat
    | 0x14 => ((q.head?.getD 0).extractLsb' 32 32).toNat
    | 0x18 => ((q.head?.getD 0).extractLsb' 64 32).toNat
    | 0x1C => ((q.head?.getD 0).extractLsb' 96 32).toNat
    | _ => s.regN off
  else match off with
    | 0x01400000 => g.time % 1000000000
    | 0x01400004 => g.latch.toNat % 2 ^ 32
    | 0x01400008 => g.latch.toNat / 2 ^ 32
    | 0x01400024 => s.gnomonWord
    | 0x0140002C => b2n g.ppsNew <<< 31 ||| g.ppsNs
    | 0x01400030 => g.ppsSec % 2 ^ 32
    | 0x01400034 => s.regN off ||| b2n g.todOvf <<< 28
    | 0x01400038 => match g.todFifo with
      | [] => 0
      | b :: _ => 2 ^ 31 ||| b.toNat
    | 0x01400040 => s.regN off ||| b2n (s.regN off != 0 && !g.rclkOn.getLsbD 0) <<< 30
    | 0x01400044 => s.regN off ||| b2n (s.regN off != 0 && !g.rclkOn.getLsbD 1) <<< 30
    | _ => s.regN off

/-- The slot AXIS_SLOT_SEL names, if it names one (Table 3.11, R92). -/
def State.slotSel (s : State) : Option Slot :=
  let v := s.regN 0x01800008
  if slotExists (bits v 30 2) (bits v 0 17) then some (s.slot (slotKey (bits v 30 2) (bits v 0 17))) else none

/-- Axis, association statistics, Hull (Tables 3.9 to 3.14, 4.9, 4.10, 17.10 to 17.15). -/
def State.readAxis (s : State) (off : Nat) : Nat :=
  let h := s.hull
  match off with
  | 0x01800004 => s.axis.maxAge.toNat <<< 16 ||| b2n s.axis.drbgFail <<< 2 ||| b2n s.axis.entropyFail <<< 1 ||| b2n s.axis.overdue
  | 0x0180000C => (s.slotSel.map Slot.word).getD 0
  | 0x01800010 => (s.slotSel.map fun x => x.gen.toNat).getD 0
  | 0x01800014 => match s.slotSel with
    | some x => (x.shown.anc.head?.map fun (p : Nat × BitVec 32) => slotWord p.1).getD 0
    | none => 0
  | 0x01C00000 => h.mchkAddr.toNat % 2 ^ 26 * 64
  | 0x01C00004 => b2n h.mchkValid <<< 31 ||| h.mchkCause.toNat <<< 11 ||| h.mchkCore.toNat <<< 8 ||| h.mchkAddr.toNat / 2 ^ 26
  | 0x01C00010 => s.memcWord
  | _ =>
    if 0x01C00100 ≤ off ∧ off < 0x01C00300 then
      let k := (off - 0x01C00100) / 0x10
      match off % 0x10 with
      | 0x0 => s.regionCtrl k
      | 0x4 => (s.region k).geom
      | 0x8 => (s.region k).metaWord
      | _ => 0
    else s.regN off

/-- PRISM_STATUS (Table 8.7): DRAINING while a PORT_DISABLE of one of its logical ports drains, RUNNING while one is enabled (log entry 95). -/
def State.prismStatus (s : State) (n : Nat) : Nat :=
  let own := (List.range 4).map fun i => s.lport (64 + 4 * n + i)
  let even := s.lport (64 + 4 * (n - 1))
  let lps := if n % 2 = 1 ∧ even.busy ∧ even.mode = some 6 then even :: own else own
  let st := if lps.any (·.draining) then 2 else if lps.any (·.enabled) then 1 else 0
  st <<< 30 ||| s.reorderUsed n true <<< 9 ||| s.reorderUsed n false

/-- Staging in use in KiB, rounded up (Table 8.8, log entry 95). -/
def State.stagingKib (s : State) (n : Nat) (recv : Bool) : Nat :=
  (((s.stagingUsed n recv).map fun (e : Nat × Nat) => e.2).sum + 7) / 8

/-- Code of a thread state (Table 9.2). -/
def ThreadMode.code : ThreadMode → Nat
  | .idle => 0 | .ready => 1 | .waiting => 2 | .faulted => 3 | .held => 4 | .debug => 5

/-- The Vertex registers of cluster c at offset r of its block (Tables 9.9 to 9.16). -/
def State.readVertex (s : State) (c r : Nat) : Nat :=
  let x := s.cluster c
  if r = 0x110 then
    match x.active with
    | some h => ((x.half h).map fun (i : Image) => i.version.toNat).getD 0
    | none => 0
  else if r = 0x118 then 0x3F
  else if 0x200 ≤ r ∧ r < 0x200 + threadCount c / 2 then
    (List.range 8).foldl (fun a t => a ||| (s.thread c ((r - 0x200) / 4 * 8 + t)).mode.code <<< (3 * t)) 0
  else s.regN (clusterBase c + r)

/-- Prisms, Radius and their clusters (Tables 8.6 to 8.9, 12.14 to 12.18). -/
def State.readPrism (s : State) (off : Nat) : Nat :=
  if off < 0x03000000 then
    let n := (off - 0x02000000) / 0x100000
    match off % 0x100000 with
    | 0x4 => s.prismStatus n
    | 0x8 => s.stagingKib n true <<< 16 ||| s.stagingKib n false
    | 0x0 | 0xC => s.regN off
    | r => s.readVertex n r
  else match off with
    | 0x0300100C => (match s.radius.mode with | .idle => 0 | .running => 1 | .draining => 2) <<< 30 ||| s.radius.store.length
    | 0x03001010 => s.radius.records
    | _ => if off < 0x03001000 then s.readVertex 16 (off - 0x03000000) else s.regN off

/-- The registers of lane k at offset r (Tables 18.6 to 18.12). -/
def State.readLane (s : State) (k off r : Nat) : Nat :=
  let x := s.lane k
  match r with
  | 0x08 => s.laneStatus k
  | 0x0C => s.regN off ||| b2n x.chkLock <<< 25
  | 0x10 => x.errors.toNat
  | 0x18 => x.eye.toNat
  | _ => s.regN off

/-- FACET_ALIGN_STATUS (Table 7.7). -/
def State.alignStatus (s : State) (n : Nat) : Nat :=
  let p := s.facetPort n
  let ptr := fun (t : Nat) => match (p.rxs t).ptr with
    | .init => 0 | .norm => 1 | .ais => 2 | .lop => 3
  if !p.active then 0
  else
    min 255 p.skew <<< 24 ||| p.cands.length <<< 20 ||| (List.range 4).foldl (fun a t => a ||| ptr t <<< (8 + 2 * t)) 0 |||
      (match p.marker with | .search => 0 | .confirm => 1 | .lock => 2) <<< 2 ||| (match p.frame with | .out => 0 | .confirm => 1 | .inFrame => 2)

/-- Line port n at offset r, lanes aside (Tables 5.3 to 5.5, 6.11 to 6.14, 7.7 to 7.14). -/
def State.readLinePort (s : State) (n off r : Nat) : Nat :=
  let p := s.facetPort n
  if r = 0x400 then s.alignStatus n
  else if r = 0x404 then s.facetDefect n
  else if r = 0x408 then p.latch.toNat
  else if r = 0x410 then p.pmSecond.toNat
  else if 0x440 ≤ r ∧ r < 0x480 then (p.trace.accepted.extractLsb' (8 * (r - 0x440)) 32).toNat
  else if 0x480 ≤ r ∧ r < 0x580 then ((p.rxs ((r - 0x480) / 0x40)).trace.accepted.extractLsb' (8 * (r % 0x40)) 32).toNat
  else if 0x600 ≤ r ∧ r < 0x740 then (tget 0 p.pmShown ((r - 0x600) / 4)).toNat
  else s.regN off

/-- Ports, lanes and Chord. -/
def State.readPorts (s : State) (off : Nat) : Nat :=
  let r := off % 0x20000
  let lane := 0x1000 ≤ r && r < 0x1100
  if off < 0x03600000 then
    if lane then s.readLane (4 * ((off - 0x03400000) / 0x20000) + (r - 0x1000) / 0x40) off (r % 0x40) else 0
  else if 0x03800000 ≤ off ∧ off < 0x03A00000 then
    let n := (off - 0x03800000) / 0x20000
    if lane then s.readLane (64 + 4 * n + (r - 0x1000) / 0x40) off (r % 0x40) else s.readLinePort n off r
  else if 0x03C01000 ≤ off ∧ off < 0x03C01240 then s.readLane (128 + (off - 0x03C01000) / 0x40) off (off % 0x40)
  else match off with
    | 0x03C00000 => s.twinStatus
    | 0x03C00004 => s.twinCycle
    | 0x03C00008 => s.leaseRemain
    | 0x03C0000C => s.twin.copyAck % 2 ^ 32
    | _ => 0

/-- Telemetry (Tables 22.7 to 22.19). -/
def State.readTele (s : State) (off : Nat) : Nat :=
  let t := s.tele
  let r := off - 0x03E00000
  if r = 0 then
    b2n s.frozen <<< 31 ||| b2n t.cmdFrozen <<< 30 ||| b2n t.running.isSome <<< 29 ||| b2n t.cntReady <<< 28 ||| b2n t.cntErr <<< 27 |||
      t.dropped.toNat
  else if r = 0x14 then t.cntValue.toNat % 2 ^ 32
  else if r = 0x18 then t.cntValue.toNat / 2 ^ 32
  else if 0x400 ≤ r ∧ r < 0x480 then (tget 0 t.evtStatus ((r - 0x400) / 4)).toNat
  else if 0x4000 ≤ r ∧ r < 0xC000 ∧ r % 16 = 8 then (s.progNow ((r - 0x4000) / 16)).value.toNat % 2 ^ 32
  else if 0x4000 ≤ r ∧ r < 0xC000 ∧ r % 16 = 12 then
    b2n (s.progNow ((r - 0x4000) / 16)).wrap <<< 31 ||| (tget 0 t.pcHi ((r - 0x4000) / 16)).toNat
  else s.regN off

/-- The platform peripherals (Table 25.13). -/
def State.readPeriph (s : State) (off : Nat) : Nat :=
  let k := off % 0x1000 / 0x100
  if off < 0x20000200 then
    let x := s.uart k
    match off % 0x100 with
    | 0x0 => match x.rx with
      | [] => 0
      | b :: _ => 256 + b.toNat
    | 0x4 => b2n x.ovf <<< 3 ||| b2n (x.tx.length == 16) <<< 2 ||| b2n x.tx.isEmpty <<< 1 ||| b2n (!x.rx.isEmpty)
    | _ => s.regN off
  else if 0x20001000 ≤ off ∧ off < 0x20001400 ∧ off % 0x100 = 8 then
    let x := s.i2c k
    b2n x.cmd.isSome <<< 31 ||| b2n x.nack <<< 30 ||| b2n x.lost <<< 29 ||| x.last.toNat
  else if off = 0x20002000 then s.gpioLevel
  else s.regN off

/-- The word that an aligned read of offset off by a source answers; 0 where no register stands (R565). The Apex block is the source's own
mailbox (R39), and the peripherals stand at their Compass address less 0x30_0000_0000, for Compass alone. Whether a right opens the window to
the debug port is the reader's side (Table 2.11). -/
def State.readReg (s : State) (src : Source) (off : Nat) : BitVec 32 :=
  BitVec.ofNat 32 <|
    if off < 0x00100000 then s.readIdent off
    else if off < 0x00200000 then s.readApex src.mbx off
    else if off < 0x00300000 then s.readCpr off
    else if off < 0x00400000 then s.readRings off
    else if off < 0x00C00000 then s.readBuffer off
    else if off < 0x01400000 then s.readPath off
    else if off < 0x01800000 then s.readGnomon off
    else if off < 0x02000000 then s.readAxis off
    else if off < 0x03400000 then s.readPrism off
    else if off < 0x03E00000 then s.readPorts off
    else if off < 0x04000000 then s.readTele off
    else if off < 0x20000000 then 0
    else match src with
      | .compass => s.readPeriph off
      | .debugPort => 0

/-! ### What a life-cycle state makes readable (R42, Table 2.4) -/

/-- The whole vendor OTP is read and written through the debug port: in BLANK and the unlocked test states; else its public part alone is
read. -/
def State.vendorOtpOpen (s : State) : Bool := [0, 1, 3, 5, 7].contains s.lc

/-- The public part of the vendor OTP: device serial, silicon revision, SHA-384 of the vendor public key. -/
def State.vendorPublic (s : State) : BitVec 64 × BitVec 8 × BitVec 384 := (s.apex.otp.serial, 0xA1, s.apex.otp.vendorHash)

/-- The owner-readable fields of owner OTP answer the debug port's mailbox: in OWNED under right 11 (Tables 2.4, 2.11). -/
def State.ownerOtpShown (s : State) : Bool := s.lc == 10 && s.dbgRight 11

/-- What the debug master reads of external memory in plaintext, which the region's own right bounds too (R57, R403, R404). -/
def State.debugMemory (s : State) (a n : Nat) : MemRead × State := s.readMem .debugPort 0 a n

/-- What the debug port reads of a frame in frame memory: its bytes under right 8 (Table 2.11). -/
def State.debugFrame (s : State) (id : Nat) : Option (List Byte) := if s.dbgRight 8 then (s.frame id).map (·.bytes) else none

end Sys2Proof.Machine
end

