-- ==== Sys2Proof/Safety.lean ====
section
/-! DEFINITION. The terms in which statements about the machine are made: what a ring command, a mailbox request or a Vertex instruction
needs to run, and the invariants. -/

namespace Sys2Proof.Machine

/-- A ring command that R471 lets start and that has its completion slot (R472): s0 is the state with the slot reserved. Its header passes
R468 and its reserved bytes R487. -/
def Accepted (d : Desc) (flags : Nat) (fields : List (Nat × Nat)) (s s0 : State) : Prop :=
  s.mayStart d = true ∧ s.reserve d = some s0 ∧ headerStatus d (s0.versionFor d) flags fields = none

/-- Apex serves a request with a command code from mailbox m (R39, R40): the request waits, it is that mailbox's turn, no request of the
other mailbox is held, and Apex holds no debug-port request back (R47, R54). p is the request's payload. -/
def Serves (m : Mbx) (code : Nat) (s : State) (p : List Byte) : Prop :=
  s.apex.booted = true ∧ s.mbxTurn m = true ∧ (s.mbx m).code = code ∧ s.otherHeld m = false ∧ (s.apex.holdCode = 0 ∨ m = .compass) ∧
    (s.mbx m).len ≤ 508 ∧ (s.mbx m).payload = p

/-- The thread of i issues the word x in this clock (R214, R215, R237, R239 to R244): it is READY once the waits that have ended are seen, it is
its engine's choice or x pairs with what it issued last, x is legal and waits for nothing, and its guard is true. s0 is the state in which x
has its effect; a single-bit error of the instruction memory has been corrected and counted in it. -/
def Issues (i : Issue) (x : Ins) (s s0 : State) : Prop :=
  let c := i.t.cl
  let k := i.t.key
  let u := s.wake c
  let t := u.thread c k
  let w := u.fetch c t.high t.pc
  let v := if i.imem = .corrected then (u.count (cid 0x05 0 c)).raiseOnce 0x185 0 [BitVec.ofNat 8 c] else u
  x = Ins.of w ∧ t.mode = .ready ∧ u.eligibleThread c k = true ∧ (u.pairsNow c k t.pc w = true ∨ u.chosen c (k / 8) = some k) ∧
    i.imem ≠ .uncorrectable ∧ x.legal c = true ∧ v.mustWait c k x = false ∧ t.guardOk x = true ∧
    s0 = v.noteIssue c k t.pc w (u.pairsNow c k t.pc w)

end Sys2Proof.Machine
end

