-- ==== Sys2Proof/Certificates/Slice0/Obligations.lean ====
section
/-! DEFINITION. What is claimed of the model: one definition per statement. Each docstring names the rules of spec/ it rests on, and the
assumption-log entries where it rests on a choice of the model. -/

open Sys2Proof Sys2Proof.Machine

/-- A step takes the front command (R463, first in first out): step on a queue c :: rest is exec of c on the state with the queue's rest; on
an empty queue 1 ns of SYS_REFCLK passes (the model's choice, log entry 4). -/
def Obligations.StepRunsTheFrontCommand : Prop :=
  ∀ s : State,
    (∀ c rest, s.pending = c :: rest → step s = exec c { s with pending := rest }) ∧
    (s.pending = [] → step s = .next (s.pass 1))

/-- Every command of the table completes in every state: none is refused and none ends in a fault. -/
def Obligations.EveryCommandAnswersANextState : Prop :=
  ∀ (c : Instr) (s : State), ∃ t, exec c s = .next t

/-- What reset leaves (R381, R399, R422, R442, R467, R539, Tables 23.7, 25.10 to 25.13): Gnomon at 0 s in FREERUN, every ring DISABLED, every
region OFF, every key slot empty, every lane OFF, no frame, no debug right, the lease UNCONFIGURED, Radius IDLE, and the registers at the
reset values of chapter 25. -/
def Obligations.ResetLeavesTheSpecsValues : Prop :=
  State.reset.pending = [] ∧ State.reset.gnomon.time = 0 ∧ State.reset.gnomon.mode = .freerun ∧
  (∀ k i, (State.reset.ring k i).state = .disabled) ∧ (∀ k, (State.reset.region k).state = .off) ∧ (∀ k, State.reset.slot k = Slot.reset) ∧
  (∀ l, (State.reset.lane l).mode = .off) ∧ State.reset.tess.frames = [] ∧ State.reset.apex.rights = 0 ∧
  State.reset.twin.lease = .unconfigured ∧ State.reset.radius.mode = .idle ∧ State.reset.mem.wf = true ∧
  State.reset.readReg .compass 0x01800000 = 0x20 ∧ State.reset.readReg .compass 0x00C00000 = 0x8 ∧
  State.reset.readReg .compass 0x00C00008 = 0x3E8 ∧ State.reset.readReg .compass 0x0140001C = 0x7D0 ∧
  State.reset.readReg .compass 0x01400028 = 0x64 ∧ State.reset.readReg .compass 0x00800010 = 0x80800000 ∧
  State.reset.readReg .compass 0x02000100 = 0x10 ∧ State.reset.readReg .compass 0x0300010C = 0xFFFFFFFF ∧
  State.reset.readReg .compass 0x03001004 = 0x7706 ∧ State.reset.readReg .compass 0x03001008 = 0x000A0000 ∧
  State.reset.readReg .compass 0x03800110 = 0x88F7888E ∧ State.reset.readReg .compass 0x03E01000 = 0x80000000 ∧
  State.reset.readReg .compass 0x20000008 = 0x36

/-- A raise (R515, R516, R518, R520) changes the event unit alone: it sets the status bit of its event and clears none, it may mark an event
ring whose record it dropped, and a programmable counter that wraps may raise 0x343; no ring, counter, memory byte or other block changes.

A count (R519, R520) adds to its own 64-bit counter, which wraps, and to no other; beside it only the programmable counters that name
it, and what their wrap raises, may change. -/
def Obligations.RaisesAndCountsTouchOnlyTheirUnit : Prop :=
  (∀ (s : State) (ev : Nat) (data : List Byte), ev < 1024 →
    let t := s.raise ev data
    t = { s with tele := t.tele, once := t.once, rings := t.rings } ∧ t.rings = { s.rings with rings := t.rings.rings } ∧
    (∀ k i, t.ring k i = { s.ring k i with lostFlag := (t.ring k i).lostFlag }) ∧
    t.tele = { s.tele with
      evtStatus := t.tele.evtStatus, raises := t.tele.raises, store := t.tele.store, held := t.tele.held, heldLost := t.tele.heldLost
      dropped := t.tele.dropped, dropPending := t.tele.dropPending, progs := t.tele.progs } ∧
    (tget 0 t.tele.evtStatus (ev / 32)).getLsbD (ev % 32) = true ∧
    (∀ g b, (tget 0 s.tele.evtStatus g).getLsbD b = true → (tget 0 t.tele.evtStatus g).getLsbD b = true)) ∧
  (∀ (s : State) (id n : Nat),
    let t := s.countN id n
    t = { s with counters := t.counters, tele := t.tele, once := t.once, rings := t.rings } ∧
    t.counter id = s.counter id + BitVec.ofNat 64 n ∧ (∀ j, j ≠ id → t.counter j = s.counter j) ∧
    (∀ k i, t.ring k i = { s.ring k i with lostFlag := (t.ring k i).lostFlag }))

/-- A write to external memory (R401, R405): every byte outside the bytes written reads as before and the memory keeps its canonical form;
a range of which Hull refuses a line is not written at all (log entry 9); where every line lies in a CONF region that allows the write, the
bytes are stored. Beside memory and Hull only counters and events may change. -/
def Obligations.MemoryWritesStoreTheirBytes : Prop :=
  ∀ (s : State) (m : Master) (owner a : Nat) (bs : List Byte), s.mem.wf = true →
    let r := s.writeMem m owner a bs
    r.2 = { s with
      mem := r.2.mem, hull := r.2.hull, counters := r.2.counters, tele := r.2.tele, once := r.2.once, rings := r.2.rings } ∧
    r.2.mem.wf = true ∧
    (∀ j, j < a ∨ a + bs.length ≤ j → r.2.mem.byte j = s.mem.byte j) ∧
    (s.mayWrite m a bs.length = false → r.1 = false ∧ r.2.mem = s.mem) ∧
    ((∀ l ∈ linesOf a bs.length, ∃ k, s.writeLine m l false = .ok k ∧ (s.region k).integ = false) →
      r.1 = true ∧ r.2.mem = s.mem.put a bs)

/-- A completion (R472, R540, Table 20.5): the descriptor leaves its ring, the record of the completion is the next output, and of memory
only the 32 bytes of the completion ring's slot at its producer index may change; a command that a warm reset orphaned writes none. Of the
rest, Hull's access state, counters and events alone may change. -/
def Obligations.CompletionsEndTheirCommand : Prop :=
  ∀ (s : State) (d : Desc) (rep : Reply), s.mem.wf = true →
    let t := s.complete d rep
    (s.rings.orphans.contains d = true → t = { s with rings := { s.rings with orphans := s.rings.orphans.erase d } }) ∧
    (s.rings.orphans.contains d = false →
      t = { s with
        out := .completion d.ring.val d.tag rep.status.code rep.flags rep.r0 rep.r1 :: s.out, rings := t.rings, mem := t.mem
        hull := t.hull, counters := t.counters, tele := t.tele, once := t.once } ∧
      (t.ring .command d.ring.val).outs = (s.ring .command d.ring.val).outs.erase { desc := d, started := true } ∧
      (∀ j,
        let c := s.ring .completion (s.ring .command d.ring.val).completionRing
        let a := c.slotAddr c.pi.toNat 32
        j < a ∨ a + 32 ≤ j → t.mem.byte j = s.mem.byte j) ∧
      t.mem.wf = true)

/-- R569: the identity and capability registers hold the values of Tables 25.2 to 25.9 in every state, from both sources, the serial number
being OTP's, and writes to them are ignored. -/
def Obligations.IdentityRegistersHoldTheirValues : Prop :=
  ∀ (s : State) (src : Source),
    s.readReg src 0x00 = 0x64160000#32 ∧ s.readReg src 0x04 = 0xA1#32 ∧
    s.readReg src 0x10 = s.apex.otp.serial.extractLsb' 0 32 ∧ s.readReg src 0x14 = s.apex.otp.serial.extractLsb' 32 32 ∧
    s.readReg src 0x20 = 0x060E0206#32 ∧ s.readReg src 0x24 = 0x10101040#32 ∧ s.readReg src 0x28 = 0x20001000#32 ∧
    s.readReg src 0x2C = 0x04000800#32 ∧ s.readReg src 0x30 = 0xFF#32 ∧
    ∀ off v : Word32, off.toNat < 0x00100000 → exec (.registerWrite off v src) s = .next s

/-- REGISTER_WRITE of registers that are RW or W1C throughout (R9, R11): the RW bits take the value's, every other bit keeps its value and a
value written to a reserved field is discarded; the bits of a W1C field written 1 are cleared and no other. Nothing else of the part changes.
(Of a part that is not held in reset: R59, R538.)

Who may write, and offsets that take no write (R560, R565, R569, Table 2.11): the identity block, an offset that no register occupies and
a misaligned one take nothing; the debug port writes the window only under right 4 (the lane tests under right 12 too), with the same
effect as Compass, and never a peripheral; a part whose domains are held in reset takes no write of Compass at all (R59, R538).

What reads answer (R9, R565): 0 where no block stands; and a register that is RW throughout reads back the bits written to it. -/
def Obligations.RegistersFollowTheirAccessType : Prop :=
  (∀ (s : State) (v : Word32), s.halted = false →
    (∀ p ∈ [(0x00302000#32, 0xFFFFF000#32), (0x00302004#32, 0xFF#32), (0x00306004#32, 0xFFFFFFFF#32), (0x00401004#32, 0x01FFFFFF#32),
        (0x00C00A00#32, 0xFFFFFFFF#32), (0x01000010#32, 0xFFFFFFFF#32), (0x01400010#32, 0xFFFFFFFF#32), (0x01400018#32, 0xFFFF#32),
        (0x01800008#32, 0xC001FFFF#32), (0x01800100#32, 0xFFFFF000#32), (0x02000000#32, 0x3#32), (0x03001000#32, 0x3FF#32),
        (0x03001004#32, 0xFFFFFFFF#32), (0x03800200#32, 0x3#32), (0x03E00024#32, 0xFFFFFFC0#32), (0x03E00030#32, 0x800000FF#32),
        (0x20002004#32, 0xFFFFFFFF#32)],
      exec (.registerWrite p.1 v .compass) s =
        .next (s.setReg p.1.toNat ((s.reg p.1.toNat &&& ~~~p.2) ||| (v &&& p.2)))) ∧
    (∀ p ∈ [(0x00400000#32, 0xE0000000#32), (0x00800000#32, 0xF0000000#32), (0x00C0000C#32, 0x80000000#32), (0x0200000C#32, 0x7#32)],
      exec (.registerWrite p.1 v .compass) s =
        .next (s.setReg p.1.toNat (s.reg p.1.toNat &&& ~~~(v &&& p.2))))) ∧
  (∀ (s : State) (off v : Word32) (src : Source),
    (off.toNat < 0x00100000 → exec (.registerWrite off v src) s = .next s) ∧
    (0x04000000 ≤ off.toNat → off.toNat < 0x20000000 → exec (.registerWrite off v src) s = .next s) ∧
    (0x03600000 ≤ off.toNat → off.toNat < 0x03800000 → exec (.registerWrite off v src) s = .next s) ∧
    (off.toNat % 4 ≠ 0 → exec (.registerWrite off v src) s = .next s) ∧
    (s.dbgRight 4 = false → 0x00200000 ≤ off.toNat → exec (.registerWrite off v .debugPort) s = .next s) ∧
    (s.halted = true → exec (.registerWrite off v .compass) s = .next s) ∧
    (s.halted = false → s.dbgRight 4 = true → 0x00200000 ≤ off.toNat → off.toNat < 0x04000000 → (laneTest off.toNat = false ∨ s.dbgRight 12 = true) →
      exec (.registerWrite off v .debugPort) s = exec (.registerWrite off v .compass) s) ∧
    (laneTest off.toNat = true → s.dbgRight 12 = false → exec (.registerWrite off v .debugPort) s = .next s) ∧
    (0x20000000 ≤ off.toNat → exec (.registerWrite off v .debugPort) s = .next s)) ∧
  (∀ (s : State) (src : Source),
    (∀ off, 0x04000000 ≤ off → off < 0x20000000 → s.readReg src off = 0#32) ∧
    (∀ off, 0x03600000 ≤ off → off < 0x03800000 → s.readReg src off = 0#32) ∧
    (∀ off ∈ [0x00306004#32, 0x00C00A00#32, 0x01000010#32, 0x01400010#32, 0x03001004#32], ∀ v : Word32, s.halted = false → ∃ t,
      exec (.registerWrite off v .compass) s = .next t ∧ t.readReg src off.toNat = v))

/-- Counter reads and programmable counters (R519, R568, Table 22.19): a write of TELE_CNT_ID clears CNT_READY and asks for a counter; when
it is ready TELE_CNT shows the counter's value, and an ID that names no counter reads 0 and sets CNT_ERR; a read of TELE_PC_LO answers the low
32 bits and latches the high 16. Nothing else changes.

Freezing (R521, R512, R573): SNAPSHOT FREEZE and THAW set and clear CMD_FROZEN and complete with OK; SNAP_IN at its active level under
PIN_FREEZE freezes; event 0x344 is raised where FROZEN changes, with the new state and the cause, and only there. -/
def Obligations.CounterReadsAndFreezes : Prop :=
  (∀ s : State,
    (∀ v : Word32, s.halted = false → exec (.counterRead v) s =
      .next { s.setReg 0x03E00010 v with tele := { s.tele with cntReady := false, cntPending := some v } }) ∧
    (∀ id : Word32, s.tele.cntPending = some id → counterExists id.toNat = true → exec .counterReadReady s =
      .next { s with tele := { s.tele with cntReady := true, cntPending := none, cntValue := s.counter id.toNat } }) ∧
    (∀ id : Word32, s.tele.cntPending = some id → counterExists id.toNat = false → exec .counterReadReady s =
      .next { s with tele := { s.tele with cntReady := true, cntPending := none, cntErr := true, cntValue := 0 } }) ∧
    (∀ k : Fin 2048, exec (.pcLoRead k) s =
      .next { s with
        tele := { s.tele with pcHi := tput 0 s.tele.pcHi k.val ((s.progNow k.val).value.extractLsb' 32 16) }
        readValue := (s.progNow k.val).value.extractLsb' 0 32 })) ∧
  (∀ s s0 : State,
    (∀ d, Accepted d 0 [(8, 1)] s s0 → d.get 8 1 = 2 → s0.frozen = true → exec (.snapshotFreeze d) s =
      .next (({ s0 with tele := { s0.tele with cmdFrozen := true } }).done d .ok)) ∧
    (∀ d, Accepted d 0 [(8, 1)] s s0 → d.get 8 1 = 2 → s0.frozen = false → exec (.snapshotFreeze d) s =
      .next ((({ s0 with tele := { s0.tele with cmdFrozen := true } }).raise 0x344 [1, 0]).done d .ok)) ∧
    (∀ d, Accepted d 0 [(8, 1)] s s0 → d.get 8 1 = 3 → s0.tele.cmdFrozen = true → s0.tele.pinFrozen = false →
      exec (.snapshotThaw d) s = .next ((({ s0 with tele := { s0.tele with cmdFrozen := false } }).raise 0x344 [0, 0]).done d .ok)) ∧
    (∀ d, Accepted d 0 [(8, 1)] s s0 → d.get 8 1 = 3 → s0.tele.pinFrozen = true → exec (.snapshotThaw d) s =
      .next (({ s0 with tele := { s0.tele with cmdFrozen := false } }).done d .ok)) ∧
    (∀ level : Bool, s.apex.held = false → bitOf (s.regN 0x03E00020) 31 = true → bitOf (s.regN 0x03E00020) 30 = true → s.tele.cmdFrozen = false →
      s.tele.pinFrozen = false → level = !bitOf (s.regN 0x03E00020) 29 → exec (.snapInFreezeLevel level) s =
      .next (({ s with tele := { s.tele with snapIn := level, pinFrozen := true } }).raise 0x344 [1, 1])) ∧
    (∀ level : Bool, s.apex.held = false → bitOf (s.regN 0x03E00020) 31 = true → bitOf (s.regN 0x03E00020) 30 = true → s.tele.cmdFrozen = true →
      exec (.snapInFreezeLevel level) s =
      .next { s with tele := { s.tele with snapIn := level, pinFrozen := level == !bitOf (s.regN 0x03E00020) 29 } }))

/-- Captures (R512, R522 to R524): SNAPSHOT NOW starts a capture at once, or waits as the one further request, or is answered BUSY; SNAPSHOT
AT_TIME arms for a later Gnomon time; a SNAP_IN edge arms one 200 ns later at the earliest, and is ignored with 0x341 where one waits. The
capture is written to its buffer and its command completes with the length and the instant.

EVENT_RECORD_WRITE (R62, R474, R516): a held group-0 record whose ring runs comes first and carries LOST where records were lost while
they were held, which stays noted where its ring has no room; else the oldest taken raise leaves the store. A record that fits is written in
the ring, at its producer index, with PHASE, SEQ, the time in 2^30 ns steps of the second and 8 data bytes, and one that does not is lost
with LOST set for the next. -/
def Obligations.CapturesAndEventRecords : Prop :=
  (∀ s s0 : State,
    (∀ d, Accepted d 0 [(8, 1), (0x18, 12)] s s0 → d.get 8 1 = 0 →
      (s0.tele.running = none → exec (.snapshotNow d) s = .next { s0 with tele := { s0.tele with running := some (.now d, s0.gnomon.time) } }) ∧
      (s0.tele.running ≠ none → s0.tele.waiting = none → exec (.snapshotNow d) s =
        .next { s0 with tele := { s0.tele with waiting := some (.now d, none) } }) ∧
      (s0.tele.running ≠ none → s0.tele.waiting ≠ none → exec (.snapshotNow d) s = .next (s0.done d .busy))) ∧
    (∀ d, Accepted d 0 [(8, 1), (0xC, 10), (0x18, 12)] s s0 → d.get 8 1 = 1 → d.get 0x12 4 ≤ 999999999 → s0.tele.armed = none →
      s0.gnomon.time < 1000000000 * d.get 0xC 6 + d.get 0x12 4 → exec (.snapshotAtTime d) s =
      .next { s0 with tele := { s0.tele with armed := some (d, 1000000000 * d.get 0xC 6 + d.get 0x12 4) } }) ∧
    (∀ level : Bool, s.apex.held = false → bitOf (s.regN 0x03E00020) 31 = true → bitOf (s.regN 0x03E00020) 30 = false → level ≠ s.tele.snapIn →
      level = (!bitOf (s.regN 0x03E00020) 29) → s.regN 0x03E0002C ≠ 0 →
      (s.tele.waiting = none → s.tele.pinDue = none → ∃ C, s.gnomon.time + 200 ≤ C ∧ exec (.snapInEdge level) s =
        .next { s with tele := { s.tele with snapIn := level, pinDue := some C } }) ∧
      (s.tele.waiting ≠ none → exec (.snapInEdge level) s =
        .next (({ s with tele := { s.tele with snapIn := level } }).raise 0x341 [0]))) ∧
    (∀ d c, s.tele.running = some (.now d, c) → s.tele.waiting = none → s.captureLen ≤ d.get 0x20 4 → exec .capture s =
      .next (({ s with tele := { s.tele with running := none } }).writeBufDone d .annulus (d.get 0x18 8) (s.captureBytes 0 c)
        { status := .ok, r0 := s.captureLen, r1 := c / 1000000000 % 2 ^ 32 + 2 ^ 32 * (c % 1000000000) })) ∧
    (∀ d c, s.tele.running = some (.now d, c) → s.tele.waiting = none → d.get 0x20 4 < s.captureLen → exec .capture s =
      .next (({ s with tele := { s.tele with running := none } }).complete d { status := .bufferFull, r0 := s.captureLen }))) ∧
  (∀ (s : State) (t : Taken) (rest : List Taken),
    (s.tele.held = t :: rest → (s.ring .event (s.evtRing t.ev)).state = .running →
      let u := { s with tele := { s.tele with held := rest } }
      let t' := { t with ring := s.evtRing t.ev }
      let ring := s.ring .event t'.ring
      (s.evtCfg t.ev / 2 ^ 31 = 0 → exec .eventRecordWrite s = .next u) ∧
      (s.evtCfg t.ev / 2 ^ 31 ≠ 0 → idxDiff ring.pi ring.ci + t.records ≤ ring.cap → exec .eventRecordWrite s =
        .next (let v := u.writeTaken t' s.tele.heldLost; { v with tele := { v.tele with heldLost := false } })) ∧
      (s.evtCfg t.ev / 2 ^ 31 ≠ 0 → ring.cap < idxDiff ring.pi ring.ci + t.records → exec .eventRecordWrite s =
        .next (u.writeTaken t' s.tele.heldLost))) ∧
    (s.tele.store = t :: rest → s.tele.held = [] →
      let u := { s with tele := { s.tele with store := rest } }
      let ring := s.ring .event t.ring
      let r := u.writeMem .annulus 0 (ring.slotAddr ring.pi.toNat 16) (eventRecord t ring.phase ring.lostFlag false ring.seq.toNat)
      (idxDiff ring.pi ring.ci + t.records ≤ ring.cap → t.data.length ≤ 8 → r.1 = true → exec .eventRecordWrite s =
        .next ((r.2.setRing .event t.ring
          (({ r.2.ring .event t.ring with seq := ring.seq + 1, lostFlag := false }).advance r.2.clk false)).reportDrops)) ∧
      (ring.cap < idxDiff ring.pi ring.ci + t.records → s.once.contains (onceKey 0x042 t.ring) = true → exec .eventRecordWrite s =
        .next (u.setRing .event t.ring { ring with lost := ring.lost + 1, lostFlag := true, lostSince := ring.lostSince + 1 }).reportDrops)) ∧
    (s.tele.store = [] → s.tele.held = [] → exec .eventRecordWrite s = .next s.reportDrops ∧ (s.tele.dropPending = 0 → s.reportDrops = s)))

/-- Setting Gnomon (R382, R384, R386, R387, Table 16.10): a GNOMON_CTRL write with SET loads the written time with fraction 0, one with STEP
adds the signed nanoseconds, each at an instant within 50 ns; both are ignored with LOAD_ERR where SET and STEP stand together or the nanoseconds value is out of range;
event 0x0E1 carries the old and the new time, a forward jump over a second boundary sends one STEPPED tick, and HOLD_MS and LOCK are then
written: LOCK 1 moves Gnomon to LOCKED, LOCK 0 a locked one to HOLDOVER. RATE is stored clamped and takes effect within 1 us, before which time runs on at the former rate.

SECOND_TICK (R382, R386): time passes at the present RATE to the next second boundary, and the tick is sent there: its seconds value is
the new second, it is not STEPPED, and the at-most-once limits begin again. It moves by one second at most. -/
def Obligations.GnomonTimeIsSetAndTicks : Prop :=
  (∀ (s : State) (v : Word32), s.halted = false →
    (bitOf v.toNat 31 = true → bitOf v.toNat 30 = true → bitOf v.toNat 29 = false → s.gnomon.mode ≠ .locked → exec (.gnomonSet v) s =
      .next (({ s with gnomon := { s.gnomon with loadErr := true } }).setReg 0x0140001C
        (BitVec.ofNat 32 (if bits v.toNat 0 16 = 0 then 1 else bits v.toNat 0 16)))) ∧
    (bitOf v.toNat 31 = true → bitOf v.toNat 30 = false → bitOf v.toNat 29 = false → s.regN 0x01400010 ≤ 999999999 →
      let T := 1000000000 * (s.regN 0x01400014 + 2 ^ 32 * bits (s.regN 0x01400018) 0 16) + s.regN 0x01400010
      let u := ((s.within 50).jumpTo T 0).setReg 0x0140001C (BitVec.ofNat 32 (if bits v.toNat 0 16 = 0 then 1 else bits v.toNat 0 16))
      exec (.gnomonSet v) s = .next (if u.gnomon.mode = .locked then u.setGnomonMode .holdover else u)) ∧
    (bitOf v.toNat 31 = false → bitOf v.toNat 30 = true → bitOf v.toNat 29 = false → 0 ≤ (s.gnomon.time : Int) + (s.reg 0x01400010).toInt →
      let w := s.servoUpdate.within 50
      let u := (w.jumpTo (((w.gnomon.time : Int) + (s.reg 0x01400010).toInt).toNat % (2 ^ 48 * 1000000000)) w.gnomon.frac).setReg 0x0140001C
        (BitVec.ofNat 32 (if bits v.toNat 0 16 = 0 then 1 else bits v.toNat 0 16))
      exec (.gnomonStep v) s = .next (if u.gnomon.mode = .locked then u.setGnomonMode .holdover else u)) ∧
    (∀ T frac u, u = ({ s with gnomon := { s.gnomon with time := T, frac := frac } }).raise 0x0E1 (time10 s.gnomon.time ++ time10 T) →
      s.jumpTo T frac = (if s.gnomon.time / 1000000000 < T / 1000000000 then u.tick true else u).fireDue s.gnomon.time) ∧
    (bitOf v.toNat 31 = false → bitOf v.toNat 30 = false → bitOf v.toNat 29 = true → s.gnomon.mode = .freerun →
      ∃ t u, exec (.lockWrite v) s = .next t ∧ t = State.raise u 0x0E0 [0, 1] ∧ u.gnomon.mode = .locked ∧
        u.gnomon.servoDue = some (s.clk + 1000000 * (if bits v.toNat 0 16 = 0 then 1 else bits v.toNat 0 16))) ∧
    (bitOf v.toNat 31 = false → bitOf v.toNat 30 = false → bitOf v.toNat 29 = false → s.gnomon.mode = .locked →
      ∃ t u, exec (.lockWrite v) s = .next t ∧ t = State.raise u 0x0E0 [1, 2] ∧ u.gnomon.mode = .holdover ∧ u.gnomon.holdSince = s.clk) ∧
    (-549755814 ≤ v.toInt → v.toInt ≤ 549755814 → exec (.rateWrite v) s = .next ((s.servoUpdate.within 1000).setReg 0x01400020 v)) ∧
    (549755814 < v.toInt → exec (.rateWrite v) s =
      .next (((s.servoUpdate.raise 0x0E5 []).within 1000).setReg 0x01400020 (BitVec.ofInt 32 549755814))) ∧
    (∀ u n, n < 1024 → ∃ k, k ≤ n ∧ State.within u n = (u.draw 10).2.pass k)) ∧
  (∀ s : State, s.halted = false → s.gnomon.frac < 2 ^ 40 → -549755814 ≤ (s.reg 0x01400020).toInt → (s.reg 0x01400020).toInt ≤ 549755814 → ∃ t,
    exec .secondTick s = .next t ∧ t.sec = s.sec + 1 ∧ t.gnomon.time % 1000000000 ≤ 1 ∧ t.gnomon.tickSec = s.sec + 1 ∧
      t.gnomon.tickStepped = false ∧ t.once = [] ∧ s.clk < t.clk ∧ t.hull = s.hull ∧ t.mem = s.mem ∧ t.regs = s.regs)

/-- Servo timer, PPS_OUT, PPS_IN (R387, R392): each acts at its due time: LOCKED moves to HOLDOVER with 0x0E0, PPS_OUT falls, and a PPS_IN
without an edge for 1.1 s raises 0x0E3 once. An edge of the selected polarity latches its Gnomon time and sets NEW; any other level is only
taken.

Time of day and time-stamps read out (R391, R393, R568, Tables 16.4, 16.7, 16.16): 1 ms after a PPS_OUT edge the message of that second
starts on TOD_TXD while TX_EN is 1; a received byte enters the FIFO of 64 or is lost with RX_OVF; reads of GNOMON_TOD_RX and
GNOMON_TXTS_W3_x answer and remove the oldest entry; a read of GNOMON_NOW_NS answers the nanoseconds and latches the rest. -/
def Obligations.GnomonPinsTimersAndStamps : Prop :=
  (∀ s : State,
    (∀ t0, s.gnomon.servoDue = some t0 → s.gnomon.mode = .locked → exec .servoTimeout s =
      .next (({ s.passTo t0 with gnomon := { (s.passTo t0).gnomon with servoDue := none } }).setGnomonMode .holdover)) ∧
    (s.gnomon.mode ≠ .locked → exec .servoTimeout s = .next s) ∧
    (∀ t0, s.gnomon.ppsFall = some t0 → exec .ppsOutPulseEnd s =
      .next { s.passTo t0 with gnomon := { (s.passTo t0).gnomon with ppsOut := false, ppsFall := none } }) ∧
    (∀ level : Bool, s.halted = false → bitOf (s.regN 0x01400028) 30 = true → level ≠ s.gnomon.ppsIn → level = (!bitOf (s.regN 0x01400028) 29) →
      exec (.ppsInEdge level) s = .next { s with gnomon := { s.gnomon with
        ppsIn := level, ppsNew := true, ppsNs := s.gnomon.time % 1000000000, ppsSec := s.sec % 2 ^ 32, ppsLast := s.clk, ppsMissing := false } }) ∧
    (∀ level : Bool, (bitOf (s.regN 0x01400028) 30 = false ∨ level = bitOf (s.regN 0x01400028) 29) →
      exec (.ppsInEdge level) s = .next { s with gnomon := { s.gnomon with ppsIn := level } }) ∧
    (∀ u, u = s.passTo (s.gnomon.ppsLast + 1100000000) → bitOf (s.regN 0x01400028) 30 = true → s.gnomon.ppsMissing = false →
      exec .ppsInMissing s = .next (({ u with gnomon := { u.gnomon with ppsMissing := true } }).raise 0x0E3 []))) ∧
  (∀ s : State,
    (∀ sec t0 u, s.gnomon.todDue = some (sec, t0) → u = s.passTo t0 → bitOf (u.regN 0x01400034) 31 = true →
      ∃ t, exec .todMessageSend s = .next t ∧ t = { u with gnomon := { u.gnomon with todDue := none, todSent := t.gnomon.todSent } } ∧
        t.gnomon.todSent.length = 18 ∧ t.gnomon.todSent.take 4 = [0xA5, 0x5A, 1, BitVec.ofNat 8 (gnomonCode u.gnomon.mode)] ∧
        slice t.gnomon.todSent 4 6 = be 6 sec) ∧
    (∀ b, s.halted = false → s.gnomon.todFifo.length < 64 → exec (.todByteReceive b) s =
      .next { s with gnomon := { s.gnomon with todFifo := s.gnomon.todFifo ++ [b] } }) ∧
    (∀ b, s.halted = false → 64 ≤ s.gnomon.todFifo.length → exec (.todByteReceive b) s =
      .next { s with gnomon := { s.gnomon with todOvf := true } }) ∧
    (∀ b bs, s.gnomon.todFifo = b :: bs → exec .todRxRead s =
      .next { s with gnomon := { s.gnomon with todFifo := bs }, readValue := BitVec.ofNat 32 (2 ^ 31 + b.toNat) }) ∧
    (s.gnomon.todFifo = [] → exec .todRxRead s = .next { s with readValue := 0 }) ∧
    (∀ (x : Fin 32) e q, tget [] s.gnomon.txts x.val = e :: q → exec (.txtsEntryRemove x) s =
      .next { s with gnomon := { s.gnomon with txts := tput [] s.gnomon.txts x.val q }, readValue := e.extractLsb' 96 32 }) ∧
    (∃ t, exec .nowNsRead s = .next t ∧ t.readValue = BitVec.ofNat 32 (s.gnomon.time % 1000000000) ∧
      t.gnomon.latch.extractLsb' 0 48 = BitVec.ofNat 48 (s.gnomon.time / 1000000000) ∧
      t.gnomon.latch.extractLsb' 48 16 = BitVec.ofNat 16 (s.gnomon.frac / 2 ^ 24) ∧
      t = { s with readValue := t.readValue, gnomon := { s.gnomon with latch := t.gnomon.latch } }))

/-- RING_ENABLE and RING_DISABLE (R465, R467, R472, R476, R572): with a configuration that R465 admits a DISABLED ring becomes RUNNING with
both indices 0, PHASE 1 and RING_LOST 0; any other configuration puts it in ERROR with 0x040; an enable of a DRAINING ring raises 0x040, and of
a RUNNING or stopped one only writes RING_CFG. A command ring with descriptors outstanding drains and becomes DISABLED with the last; any other
kind becomes DISABLED at once, an event ring discarding what was taken for it; a completion ring that a command ring names stays.

Ring interrupts (R475, Tables 20.2, 20.20): a RING_CI write of a ring that has records consumes those before the new index and the source
follows the conditions of R475 again; a command ring and a transmit ring take none. When the oldest record has waited INT_US, time passes to
that instant and the source is asserted; with none waiting, or INT_US 0, nothing happens.

Doorbells and fetches (R466, R467, R470): a doorbell of a RUNNING ring within its capacity moves PI, one past it puts the ring in ERROR;
Annulus fetches from the next ring in round-robin order with descriptors to fetch, up to 4 of them and as far as 64 outstanding allow: each
descriptor read at CI becomes outstanding and CI advances; a fetch that Hull refuses puts the ring in ERROR with 2, one whose bytes fail with
3. (A descriptor that no row of the table carries is completed in the same row, log entry 5.) -/
def Obligations.RingsAreEnabledFedAndInterrupt : Prop :=
  (∀ (s : State) (k : RingKind) (r : Fin 64) (v : Word32), s.halted = false →
    let cfg := (v.toNat ||| 2 ^ 31) &&& ringCfgMask
    let u := s.setReg (ringOff k r.val + 8) (BitVec.ofNat 32 cfg)
    let w := s.setReg (ringOff k r.val + 8) (BitVec.ofNat 32 (v.toNat % 2 ^ 31 &&& ringCfgMask))
    (r.val < ringCount k → (s.ring k r.val).state = .disabled → u.ringConfigOk k r.val cfg = true → ∃ t, exec (.ringEnable k r v) s = .next t ∧
      (t.ring k r.val).state = .running ∧ (t.ring k r.val).pi = 0 ∧ (t.ring k r.val).ci = 0 ∧ (t.ring k r.val).phase = true ∧
      (t.ring k r.val).lost = 0 ∧ (t.ring k r.val).cap = 16 * 2 ^ bits cfg 24 4 ∧
      (t.ring k r.val).base = BitVec.ofNat 40 (s.ringBase k r.val) ∧ t = { s with regs := t.regs, rings := t.rings }) ∧
    (r.val < ringCount k → (s.ring k r.val).state = .disabled → u.ringConfigOk k r.val cfg = false → exec (.ringEnable k r v) s =
      .next ((u.setRing k r.val { s.ring k r.val with cap := 0 }).ringError k r.val 0)) ∧
    (r.val < ringCount k → (s.ring k r.val).state = .draining → exec (.ringEnable k r v) s = .next (s.raise 0x040 (ringErrData k r.val 0))) ∧
    (r.val < ringCount k → (s.ring k r.val).state = .running ∨ (s.ring k r.val).state = .error → exec (.ringEnable k r v) s = .next u) ∧
    (k = .command → (s.ring k r.val).state ≠ .disabled → exec (.ringDisable k r v) s =
      .next (w.setRing k r.val { s.ring k r.val with state := if (s.ring k r.val).outs = [] then .disabled else .draining })) ∧
    ((k = .management ∧ r.val < 4) ∨ (k = .completion ∧ s.completionNamed r.val = false) → (s.ring k r.val).state ≠ .disabled →
      exec (.ringDisable k r v) s = .next (w.setRing k r.val { s.ring k r.val with state := .disabled, unread := [], irq := false })) ∧
    (k = .event → r.val < 16 → (s.ring k r.val).state ≠ .disabled → exec (.ringDisable k r v) s =
      .next ((w.setRing k r.val { s.ring k r.val with state := .disabled, unread := [], irq := false }).discardTaken r.val)) ∧
    (k = .completion → s.completionNamed r.val = true → exec (.ringDisable k r v) s = .next (s.raise 0x040 (ringErrData k r.val 0))) ∧
    (k ≠ .completion → r.val < ringCount k → (s.ring k r.val).state = .disabled → exec (.ringDisable k r v) s = .next w) ∧
    (ringCount k ≤ r.val → exec (.ringEnable k r v) s = .next s ∧ exec (.ringDisable k r v) s = .next s) ∧
    ((s.ring .command r.val).state = .draining → (s.ring .command r.val).outs = [] → exec (.ringDrainEnd r) s =
      .next (s.setRing .command r.val { s.ring .command r.val with state := .disabled })) ∧
    ((s.ring .command r.val).outs ≠ [] ∨ (s.ring .command r.val).state ≠ .draining → exec (.ringDrainEnd r) s = .next s)) ∧
  (∀ (s : State) (k : RingKind) (r : Fin 64),
    (∀ v : Word32, s.halted = false → (k = .completion ∨ (k = .event ∧ r.val < 16) ∨ (k = .management ∧ (r.val = 0 ∨ r.val = 2))) →
      ∃ x : Ring, exec (.ringCiWrite k r v) s =
        .next ((s.setReg (ringOff k r.val + 0x10) (BitVec.ofNat 32 (v.toNat % 2 ^ 17))).setRing k r.val x) ∧
      x.ci = BitVec.ofNat 17 v.toNat ∧ x.pi = (s.ring k r.val).pi ∧
      x.unread = (s.ring k r.val).unread.drop ((s.ring k r.val).unread.length - idxDiff x.pi x.ci) ∧ x.irq = x.wantsIrq s.clk ∧
      x = { s.ring k r.val with ci := x.ci, unread := x.unread, irq := x.irq }) ∧
    (∀ v, (k = .command ∨ ringCount k ≤ r.val ∨ (k = .management ∧ r.val % 2 = 1)) → exec (.ringCiWrite k r v) s = .next s) ∧
    (∀ i t0 b l, (s.ring k r.val).unread = (i, t0, b) :: l → (s.ring k r.val).us ≠ 0 → k ≠ .command →
      let u := s.passTo (t0 + 1000 * (s.ring k r.val).us.toNat)
      exec (.interruptDelayExpiry k r) s = .next (u.setRing k r.val { u.ring k r.val with irq := (u.ring k r.val).wantsIrq u.clk })) ∧
    ((s.ring k r.val).unread = [] ∨ (s.ring k r.val).us = 0 ∨ k = .command → exec (.interruptDelayExpiry k r) s = .next s) ∧
    (∀ x : Ring, ∀ i t0 b l now, x.unread = (i, t0, b) :: l → x.us ≠ 0 → t0 + 1000 * x.us.toNat ≤ now → x.wantsIrq now = true)) ∧
  (∀ (s : State) (r : Fin 64),
    (∀ v : Word32, s.halted = false → (s.ring .command r.val).state = .running →
      idxDiff (BitVec.ofNat 17 v.toNat) (s.ring .command r.val).ci ≤ (s.ring .command r.val).cap → exec (.doorbellWrite r v) s =
      .next (s.setRing .command r.val { s.ring .command r.val with pi := BitVec.ofNat 17 v.toNat })) ∧
    (∀ v : Word32, s.halted = false → (s.ring .command r.val).state = .running →
      (s.ring .command r.val).cap < idxDiff (BitVec.ofNat 17 v.toNat) (s.ring .command r.val).ci → exec (.doorbellWrite r v) s =
      .next (s.ringError .command r.val 1)) ∧
    (∀ v : Word32, (s.ring .command r.val).state ≠ .running → exec (.doorbellWrite r v) s = .next s) ∧
    ((∀ j < 64, ∀ o ∈ (s.ring .command j).outs, rowless o.desc = none) → s.rings.fetchNext = r → s.fetchable r.val = true →
      exec .commandFetch s = .next ((State.fetchGo r
        (min 4 (min (idxDiff (s.ring .command r.val).pi (s.ring .command r.val).ci) (64 - (s.ring .command r.val).outs.length)))
        { s with rings := { s.rings with fetchNext := r + 1 } }).finishRowless r.val)) ∧
    (∀ n, let x := s.ring .command r.val
      let q := s.readMem .annulus (ringOwner r.val) (x.slotAddr x.ci.toNat 64) 64
      (∀ bs, q.1 = .data bs → State.fetchGo r (n + 1) s = State.fetchGo r n (q.2.setRing .command r.val
        { x with ci := x.ci + 1, outs := x.outs ++ [{ desc := descOf r bs, started := false }] })) ∧
      (q.1 = .refused → State.fetchGo r (n + 1) s = q.2.ringError .command r.val 2) ∧
      (q.1 = .failed → State.fetchGo r (n + 1) s = q.2.ringError .command r.val 3)) ∧
    State.fetchGo r 0 s = s ∧
    ((∀ o ∈ (s.ring .command r.val).outs, rowless o.desc = none) → s.finishRowless r.val = s) ∧
    ((∀ j < 64, ∀ o ∈ (s.ring .command j).outs, rowless o.desc = none) → (∀ j < 64, s.fetchable j = false) →
      exec .commandFetch s = .next s))

/-- Every ring command (R469, R472, R474, R487, R491): it waits while it may not start and while its completion ring has no free entry (a stall
is counted once); a wrong version completes with BAD_VERSION, a reserved flag or field with BAD_REQUEST, and nothing else changes. A row
that is not the command's form leaves it to the row that is, and a command on a locked handle or a busy record waits.

NOP, FENCE and SET_INTERFACE_VERSION (R469, R471, R511): NOP and FENCE complete with OK and do nothing else; FENCE starts only when
every earlier descriptor of its ring has completed; SET_INTERFACE_VERSION sets the version with event 0x044, and is answered IN_USE while
another ring has descriptors outstanding, BAD_REQUEST for a version other than 1 and 2.

FRAME_SEND and RESYNC (R20, R151, R477, R483 to R485, Table 20.8): a message waits in its line port for its segments, a frame takes
cells and enters its Sector queue, and the command reports whether Sector admitted it; without cells it ends in NO_BUFFER, with a length or
field out of range in BAD_REQUEST; RESYNC writes the whole summary of the instant with the next SUMMARY_GEN, raises 0x043 and reports length
and generation; a short buffer is left unwritten with BUFFER_FULL, a buffer that refuses the write ends in BAD_REQUEST. -/
def Obligations.OrderingSendAndResyncCommands : Prop :=
  (∀ (d : Desc) (s s0 : State),
    let form := fun mine last => d.get 8 1 == mine || last < d.get 8 1
    ∀ c ∈ [
      (Instr.nop (.command d), 0, [], true), (.fence d, 0, [], true), (.setInterfaceVersion d, 0, [(8, 1)], true),
      (.frameSend d, 0, [(8, 20)], true), (.resync d, 0, [(0x10, 12)], true), (.snapshotNow d, 0, [(8, 1), (0x18, 12)], true),
      (.snapshotAtTime d, 0, [(8, 1), (0xC, 10), (0x18, 12)], true), (.snapshotFreeze d, 0, [(8, 1)], true), (.snapshotThaw d, 0, [(8, 1)], true),
      (.keyStage d, 0, [(8, 24)], true), (.keyVerify d, 0, [(8, 8)], true), (.keyCommit d, 0, [(8, 4)], true), (.keyErase d, 0, [(8, 5)], true),
      (.keyDerive d, 0, [(8, 13), (0x18, 8)], true), (.keyInvalidate d, 0, [(8, 4)], true),
      (.saCreate d, 1, [(8, 4), (0x10, 8)], !s.lockedOut d (saHandle d)), (.saModify d, 0, [(8, 8), (0x10, 8)], !s.lockedOut d (saHandle d)),
      (.saRetire d, 0, [(8, 4)], !s.lockedOut d (saHandle d)), (.saRead d, 0, [(8, 4), (0x10, 8)], true),
      (.saRotate d, 2, [(8, 13), (0x18, 8), (0x20, 10)], true), (.saRotateCancel d, 2, [(0x2C, 3)], true),
      (.portEnable d, 0, [(8, 4), (0xC, 16)], true), (.portDisable d, 0, [(8, 2), (0xB, 1)], true),
      (.gateLoad d, 0, [(8, 1), (0xC, 2), (0x10, 8), (0x18, 4), (0x1C, 10)], true), (.gateArm d, 1, [(8, 1)], !bitOf d.flags 0),
      (.gateArmCancel d, 1, [(8, 1)], bitOf d.flags 0), (.ucodeLoad d, 0, [(8, 4), (0x10, 8), (0x18, 4)], true),
      (.ucodeActivate d, 0, [(8, 4)], true), (.cryptoBlock d, 0, [(8, 4), (0xC, 1), (0x10, 8), (0x18, 8), (0x20, 4), (0x30, 16)], true),
      (.reclaim d, 1, [(8, 2)], d.get 8 2 / 4096 != 2), (.reclaimTesseraOwner d, 1, [(8, 2)], d.get 8 2 / 4096 == 2),
      (.sensorGroupSetGroup d, 0, [(8, 1), (0xC, 4), (0x10, 8)], form 0 4), (.sensorGroupSetRoute d, 0, [(8, 1), (0xC, 4), (0x10, 8)], form 1 4),
      (.sensorGroupSetProfile d, 0, [(8, 1), (0xC, 4), (0x10, 8)], form 2 4), (.sensorGroupSetQueue d, 0, [(8, 1), (0xC, 4), (0x18, 4)], form 3 4),
      (.serviceEnable d, 1, [(8, 1)], form 4 4 && (d.get 8 1 != 4 || bitOf d.flags 0)),
      (.serviceDisable d, 1, [(8, 1)], form 4 4 && (d.get 8 1 != 4 || !bitOf d.flags 0)),
      (.sensorWriteInsert d, 3, [(8, 1), (0x10, 8)], form 0 3 && !bitOf d.flags 0 && !s.recordBusy d && !(d.get 8 1 == 0 && s.insertWaits d)),
      (.sensorWriteReplace d, 3, [(8, 1), (0x10, 8)], form 1 3 && !bitOf d.flags 0 && !s.recordBusy d),
      (.sensorWriteDelete d, 3, [(8, 1), (0x10, 8)], form 2 3 && !bitOf d.flags 0 && !s.recordBusy d),
      (.sensorWriteRead d, 3, [(8, 1), (0x10, 8)], form 3 3 && !bitOf d.flags 0 && !s.recordBusy d),
      (.gatewayInsert d, 3, [(8, 1), (0x10, 8)], form 0 3 && bitOf d.flags 0),
      (.gatewayReplace d, 3, [(8, 1), (0x10, 8)], form 1 3 && bitOf d.flags 0),
      (.gatewayDelete d, 3, [(8, 1), (0x10, 8)], form 2 3 && bitOf d.flags 0),
      (.gatewayRead d, 3, [(8, 1), (0x10, 8)], form 3 3 && bitOf d.flags 0),
      (.sensorCheckpointWrite d, 0, [(8, 1), (0xC, 4), (0x10, 8), (0x18, 4), (0x1C, 4)], form 0 1),
      (.sensorCheckpointConfirm d, 0, [(8, 1), (0xC, 4), (0x10, 8), (0x18, 4), (0x1C, 4)], form 1 1),
      (.tblRead d, 1, [(8, 1), (0xC, 4), (0x10, 8), (0x18, 4)], true), (.tblWriteInsert d, 0, [(8, 2), (0xC, 4), (0x10, 8)], d.get 9 1 == 0),
      (.tblWriteReplace d, 0, [(8, 2), (0xC, 4), (0x10, 8)], d.get 9 1 == 1), (.tblWriteDelete d, 0, [(8, 2), (0xC, 4), (0x10, 8)], d.get 9 1 == 2),
      (.tblWriteClearHit d, 0, [(8, 2), (0xC, 4), (0x10, 8)], d.get 9 1 == 3), (.tblDeleteIfIdle d, 0, [(0x10, 17)], true),
      (.tblLock d, 0, lockFields d, true), (.tblUnlock d, 0, lockFields d, true), (.hullRegionCreate d, 1, [(8, 8), (0x10, 32)], true),
      (.hullRegionRights d, 0, [(8, 3), (12, 4)], true), (.hullRegionFill d, 0, [(8, 3), (0x10, 16), (0x28, 8)], true),
      (.hullRegionDelete d, 0, [(8, 3)], true), (.hullRekey d, 0, [(9, 2)], true), (.twinConfigure d, 0, twinFields, true),
      (.twinSolo d, 0, twinFields, true), (.twinRemove d, 0, twinFields, true), (.twinWiden d, 0, [(8, 56)], true), (.twinHandover d, 0, [], true),
      (.leaseStatus d, 0, [(0x10, 8)], true)],
      (c.2.2.2 = false ∨ s.mayStart d = false → exec c.1 s = .next s) ∧
      (c.2.2.2 = true → s.mayStart d = true →
        (s.reserve d = none → exec c.1 s = .next (s.stall d)) ∧
        (∀ st, s.reserve d = some s0 →
          let v := if c.1 = .setInterfaceVersion d ∧ (d.version = 1 ∨ d.version = 2) then d.version else s0.versionFor d
          headerStatus d v c.2.1 c.2.2.1 = some st → exec c.1 s = .next (s0.done d st)))) ∧
  (∀ (d : Desc) (s s0 : State),
    (Accepted d 0 [] s s0 → exec (.nop (.command d)) s = .next (s0.done d .ok) ∧ exec (.fence d) s = .next (s0.done d .ok)) ∧
    (s.mayStart d = false → exec (.fence d) s = .next s ∧ exec (.nop (.command d)) s = .next s) ∧
    (∀ (o o' : Outstanding) (l : List Outstanding), (s.ring .command d.ring.val).outs = o :: o' :: l → o.desc ≠ d → o'.desc = d →
      o'.started = false → d.fenced = true → s.mayStart d = false) ∧
    (s.mayStart d = true → s.reserve d = some s0 → (d.version = 1 ∨ d.version = 2) → headerStatus d d.version 0 [(8, 1)] = none →
      (d.get 8 1 ≠ 1 → d.get 8 1 ≠ 2 → exec (.setInterfaceVersion d) s = .next (s0.done d .badRequest)) ∧
      ((d.get 8 1 = 1 ∨ d.get 8 1 = 2) → (∀ j, j < 64 → j ≠ d.ring.val → (s0.ring .command j).outs = []) →
        ∃ older, exec (.setInterfaceVersion d) s =
          .next (({ s0.done d .ok with rings := { (s0.done d .ok).rings with version := BitVec.ofNat 4 (d.get 8 1), older := older } }).raise
            0x044 [BitVec.ofNat 8 (d.get 8 1)])) ∧
      ((d.get 8 1 = 1 ∨ d.get 8 1 = 2) → (∃ j, j < 64 ∧ j ≠ d.ring.val ∧ (s0.ring .command j).outs ≠ []) →
        exec (.setInterfaceVersion d) s = .next (s0.done d .inUse)))) ∧
  (∀ (d : Desc) (s s0 : State),
    (Accepted d 0 [(8, 20)] s s0 → d.get 0x13 1 < 4 → d.get 0x14 2 < 4096 → d.get 0x18 4 < 2 ^ 17 →
      let n := d.get 0x12 1 % 16
      let lp := d.get 0x12 1 % 128
      let unctl := decide (64 ≤ lp) && bitOf (d.get 0x13 1) 0
      let ts := if bitOf (d.get 0x13 1) 1 then some (d.get 0x16 2) else none
      let q := s0.readMem .annulus (ringOwner d.ring.val) (d.get 8 8) (d.get 0x10 2)
      (∀ bs, bitOf (d.get 0x12 1) 7 = true → bits (d.get 0x12 1) 4 3 = 0 → 1 ≤ d.get 0x10 2 → d.get 0x10 2 ≤ 2048 → q.1 = .data bs →
        exec (.frameSend d) s = .next (q.2.setFacet n { q.2.facetPort n with txMsgs := (q.2.facetPort n).txMsgs ++ [(bs, d)] })) ∧
      (∀ bs, bitOf (d.get 0x12 1) 7 = false → 60 ≤ d.get 0x10 2 → d.get 0x10 2 ≤ 9212 → q.1 = .data bs →
        let al := q.2.allocFrame (160 + d.ring.val) { id := 0, bytes := bs, fcs := none, keep := 0, cells := [], pool := 0
                                                      charge := 160 + d.ring.val, refs := [], lp := lp, stamp := 0, unctl := unctl, sa := none
                                                      cut := false }
        (al.1 = none → exec (.frameSend d) s = .next ((al.2.notSent (lp / 64) (lp % 64) ts).done d .noBuffer)) ∧
        (∀ id, al.1 = some id →
          let en := al.2.enter { side := lp / 64, queue := d.get 0x14 2 % 4096, lp := lp % 64, yellow := false, fromLine := false
                                 sc := if decide (64 ≤ lp) && !unctl then some (d.get 0x18 4 % 2 ^ 17) else none
                                 unctl := unctl, tsId := ts } id (some (160 + d.ring.val))
          exec (.frameSend d) s = .next (en.2.complete d { status := .ok, r0 := b2n en.1 }))) ∧
      (q.1 = .refused ∨ q.1 = .failed → (bitOf (d.get 0x12 1) 7 = false → 60 ≤ d.get 0x10 2 ∧ d.get 0x10 2 ≤ 9212) →
        (bitOf (d.get 0x12 1) 7 = true → bits (d.get 0x12 1) 4 3 = 0 ∧ 1 ≤ d.get 0x10 2 ∧ d.get 0x10 2 ≤ 2048) →
        ∃ st, exec (.frameSend d) s = .next (q.2.done d st) ∧ (st = .badRequest ∨ st = .integrity))) ∧
    (Accepted d 0 [(8, 20)] s s0 → (4 ≤ d.get 0x13 1 ∨ 4096 ≤ d.get 0x14 2 ∨ 2 ^ 17 ≤ d.get 0x18 4 ∨
        (bitOf (d.get 0x12 1) 7 = true ∧ (bits (d.get 0x12 1) 4 3 ≠ 0 ∨ d.get 0x10 2 = 0 ∨ 2048 < d.get 0x10 2)) ∨
        (bitOf (d.get 0x12 1) 7 = false ∧ (d.get 0x10 2 < 60 ∨ 9212 < d.get 0x10 2))) →
      exec (.frameSend d) s = .next (s0.done d .badRequest)) ∧
    (Accepted d 0 [(0x10, 12)] s s0 →
      let u := { s0 with rings := { s0.rings with summaryGen := s0.rings.summaryGen + 1 } }
      let bs := u.summary
      let w := u.writeMem .annulus (ringOwner d.ring.val) (d.get 0x10 8) bs
      (d.get 0x18 4 < bs.length → exec (.resync d) s = .next (u.complete d { status := .bufferFull, r0 := bs.length })) ∧
      (bs.length ≤ d.get 0x18 4 → w.1 = true → exec (.resync d) s =
        .next ((w.2.complete d { status := .ok, r0 := bs.length, r1 := w.2.rings.summaryGen.toNat }).raise 0x043
          (le 8 w.2.rings.summaryGen.toNat))) ∧
      (bs.length ≤ d.get 0x18 4 → w.1 = false → exec (.resync d) s = .next (w.2.done d .badRequest))))

/-- Management ports (R451, R478, R479, Tables 20.9, 20.22, 20.24): a transmit doorbell sends the frames its descriptors name, each with its
FCS, clearing each OWN bit; a receive doorbell is noted; one past the capacity puts the ring in ERROR. A received frame that the filter takes
fills the next owned receive descriptor with its length and flags; one that it does not take or whose FCS fails is dropped (a failed FCS is
taken under promiscuous reception); an oversize frame, and one for which no descriptor is owned, is counted; a frame of the arbiter goes to
Twin. A link change raises 0x045. -/
def Obligations.ManagementPortsMoveFrames : Prop :=
  ∀ (s : State) (k : Fin 2),
    (∀ (m : Fin 4) (v : Word32), s.halted = false → (s.ring .management m.val).state = .running →
      let x := s.ring .management m.val
      let p := BitVec.ofNat 17 v.toNat
      (m.val = 2 * k.val → x.cap < idxDiff p x.pi → exec (.mgmtDoorbell m v) s = .next (s.ringError .management m.val 1)) ∧
      (m.val = 2 * k.val → idxDiff p x.pi ≤ x.cap → exec (.mgmtDoorbell m v) s =
        .next { s with rings := { s.rings with mgmtPi := tput 0 s.rings.mgmtPi m.val p } }) ∧
      (m.val = 2 * k.val + 1 → x.cap < idxDiff p x.ci → exec (.mgmtDoorbell m v) s = .next (s.ringError .management m.val 1)) ∧
      (m.val = 2 * k.val + 1 → idxDiff p x.ci ≤ x.cap → bitOf (s.mgmtCfg k.val) 31 = false → exec (.mgmtDoorbell m v) s =
        .next (s.setRing .management m.val { x with pi := p })) ∧
      (m.val = 2 * k.val + 1 → idxDiff p x.ci ≤ x.cap → bitOf (s.mgmtCfg k.val) 31 = true → exec (.mgmtDoorbell m v) s =
        .next (State.mgmtSendGo k.val (idxDiff p x.ci) (s.setRing .management m.val { x with pi := p })))) ∧
    (∀ (m : Fin 4) (v : Word32), (s.ring .management m.val).state ≠ .running → exec (.mgmtDoorbell m v) s = .next s) ∧
    (∀ n, let m := 2 * k.val + 1
      let x := s.ring .management m
      let a := x.slotAddr x.ci.toNat 16
      let q := s.readMem .annulus 0 a 16
      (x.state = .running → x.ci ≠ x.pi → ∀ bs, q.1 = .data bs → ∀ f, (q.2.readMem .annulus 0 (leAt bs 0 8) (leAt bs 8 2)).1 = .data f →
        let u := ((q.2.readMem .annulus 0 (leAt bs 0 8) (leAt bs 8 2)).2.writeMem .annulus 0 (a + 10) [BitVec.ofNat 8 (leAt bs 10 1 % 128)]).2
        State.mgmtSendGo k.val (n + 1) s = State.mgmtSendGo k.val n ((u.emit (.mgmtFrame k.val (f ++ le 4 (Crypto.crc32 f).toNat))).setRing
          .management m { u.ring .management m with ci := x.ci + 1 })) ∧
      (x.state = .running → x.ci ≠ x.pi → q.1 = .refused → State.mgmtSendGo k.val (n + 1) s = q.2.ringError .management m 2) ∧
      (x.state = .running → x.ci ≠ x.pi → q.1 = .failed → State.mgmtSendGo k.val (n + 1) s = q.2.ringError .management m 3) ∧
      State.mgmtSendGo k.val 0 s = s) ∧
    (∀ frame, bitOf (s.mgmtCfg k.val) 31 = true → s.mgmtLink k.val = true →
      let f := frame.take (frame.length - 4)
      let good := frame.drop (frame.length - 4) == le 4 (Crypto.crc32 f).toNat
      let x := s.ring .management (2 * k.val)
      (2048 < frame.length → exec (.mgmtFrameReceive k frame) s = .next (s.count (cid 0x0F 1 k.val))) ∧
      (frame.length ≤ 2048 → good = false → x.promisc = false → exec (.mgmtFrameReceive k frame) s = .next s) ∧
      (frame.length ≤ 2048 → good = true → s.fromArbiter k.val f = true → exec (.mgmtFrameReceive k frame) s =
        .next (s.arbiterIn (f.drop 14))) ∧
      (frame.length ≤ 2048 → good = true → s.fromArbiter k.val f = false → s.mgmtAccepts k.val f = false →
        exec (.mgmtFrameReceive k frame) s = .next s) ∧
      (frame.length ≤ 2048 → good = true ∨ x.promisc = true → good = false ∨ s.fromArbiter k.val f = false → s.mgmtAccepts k.val f = true →
        exec (.mgmtFrameReceive k frame) s = .next (s.mgmtFill k.val f (!good)))) ∧
    (∀ f bad, let x := s.ring .management (2 * k.val)
      let a := x.slotAddr x.pi.toNat 16
      let q := s.readMem .annulus 0 a 16
      (x.state ≠ .running → s.mgmtFill k.val f bad = s.count (cid 0x0F 2 k.val)) ∧
      (∀ bs, x.state = .running → q.1 = .data bs → bitOf (leAt bs 10 1) 7 = false →
        s.mgmtFill k.val f bad = q.2.count (cid 0x0F 2 k.val)) ∧
      (∀ bs, x.state = .running → q.1 = .data bs → bitOf (leAt bs 10 1) 7 = true →
        let u := q.2.writeMem .annulus 0 (leAt bs 0 8) f
        let w := u.2.writeMem .annulus 0 (a + 8) (le 2 f.length ++ [BitVec.ofNat 8 (2 * b2n (bitOf (leAt f 0 1) 0) + b2n bad)])
        u.1 = true → w.1 = true →
          s.mgmtFill k.val f bad = w.2.setRing .management (2 * k.val) ((w.2.ring .management (2 * k.val)).advance w.2.clk false))) ∧
    (∀ frame, (bitOf (s.mgmtCfg k.val) 31 = false ∨ s.mgmtLink k.val = false) → exec (.mgmtFrameReceive k frame) s = .next s) ∧
    (∀ up speed, bitOf (s.mgmtCfg k.val) 31 = true → bits (s.mgmtCfg k.val) 29 2 ≠ 3 → s.mgmtLink k.val ≠ up →
      ∃ t, exec (.mgmtLinkChange k up speed) s = .next (State.raise t 0x045 [BitVec.ofNat 8 k.val, BitVec.ofNat 8 (b2n up)]) ∧
        t.mgmtLink k.val = up ∧ (∀ j : Fin 2, j ≠ k → t.mgmtLink j.val = s.mgmtLink j.val) ∧
        t = { s with rings := { s.rings with link0 := t.rings.link0, speed0 := t.rings.speed0, link1 := t.rings.link1, speed1 := t.rings.speed1 } }) ∧
    (∀ up speed, (up = true ∧ (bitOf (s.mgmtCfg k.val) 31 = false ∨ bits (s.mgmtCfg k.val) 29 2 = 3)) ∨ s.mgmtLink k.val = up →
      exec (.mgmtLinkChange k up speed) s = .next s)

/-- Region commands (R399, R402, R406, R409, R419, R506): a CREATE without fill whose geometry R399 admits makes the region ACTIVE at once
with its base, size and rights and its bytes free; one with fill, which a region with integrity must be, makes it INIT and waits for the
fill; RIGHTS changes the rights of a region that is not OFF; FILL starts the fill of a range, DELETE stops new accesses and waits for its
drain; every other region stays. An OFF region is answered REGION_OFF, one at work BUSY, a field or range out of bounds BAD_REQUEST.

The ends of fills and deletes (R400, R402, R419): with the drain of a DELETE the keys are zeroised, the region is OFF and its taints are
forgotten; with the end of a fill every byte of the range reads the pattern and every other byte reads as before, and an INIT region is ACTIVE.
The command that asked is completed with OK. Beside memory and Hull a fill may only take from Radius the pending downlinks of that range. -/
def Obligations.RegionsAreCreatedFilledAndDeleted : Prop :=
  (∀ (d : Desc) (s s0 : State), hullFieldsOk d = true →
    let k := hullKey d
    let r := s0.region k
    (Accepted d 1 [(8, 8), (0x10, 32)] s s0 → d.get 8 1 = 0 → d.get 11 1 ≤ 1 → d.get 12 4 < 2 ^ 14 → d.get 0x10 8 < 2 ^ 40 →
      d.get 0x18 8 < 2 ^ 40 → 0 < d.get 0x18 8 → d.get 0x18 8 % 2 ^ 26 = 0 → d.get 0x10 8 % 2 ^ 26 = 0 →
      let ms := if d.get 11 1 = 1 then metaBytes (d.get 0x18 8) else 0
      (s0.axis.serving = true → r.state = .off → s0.geometryOk (hullMem d) (d.get 0x10 8) (d.get 0x18 8) (d.get 0x20 8) ms = true →
        (d.get 11 1 = 0 → bitOf d.flags 0 = false → d.get 0x28 8 = 0 → ∃ u : State, exec (.hullRegionCreate d) s =
            .next (u.complete d { status := .ok, r0 := 0 }) ∧
          (u.region k).state = .active ∧ (u.region k).lo = d.get 0x10 8 ∧ (u.region k).bytes = d.get 0x18 8 ∧
          (u.region k).integ = false ∧ (u.region k).rights = BitVec.ofNat 14 (d.get 12 4) ∧
          (∀ j, j ≠ k → u.region j = s0.region j) ∧
          u.mem = s0.mem.fill { base := d.get 0x10 8, len := d.get 0x18 8, pat := none, epoch := s0.hull.epoch + 1 }) ∧
        (bitOf d.flags 0 = true → (d.get 11 1 = 1 → d.get 0x20 8 % 2 ^ 22 = 0) → ∃ t : State, exec (.hullRegionCreate d) s = .next t ∧
          (t.region k).state = .init ∧ (t.region k).integ = decide (d.get 11 1 = 1) ∧
          (t.region k).filling = some (0, d.get 0x18 8, BitVec.ofNat 64 (d.get 0x28 8)) ∧ (t.region k).work = some d ∧
          (∀ j, j ≠ k → t.region j = s0.region j) ∧ t.mem = s0.mem)) ∧
      (bitOf d.flags 0 = true → (d.get 11 1 = 1 → d.get 0x20 8 % 2 ^ 22 = 0) →
        (s0.axis.serving = false → exec (.hullRegionCreate d) s = .next (s0.done d .busy)) ∧
        (s0.axis.serving = true → r.state ≠ .off ∨ s0.geometryOk (hullMem d) (d.get 0x10 8) (d.get 0x18 8) (d.get 0x20 8) ms = false →
          exec (.hullRegionCreate d) s = .next (s0.done d .badRequest))) ∧
      (bitOf d.flags 0 = false → d.get 11 1 = 1 ∨ d.get 0x28 8 ≠ 0 → exec (.hullRegionCreate d) s = .next (s0.done d .badRequest))) ∧
    (Accepted d 0 [(8, 3), (12, 4)] s s0 → d.get 8 1 = 1 → d.get 12 4 < 2 ^ 14 →
      (r.state ≠ .off → exec (.hullRegionRights d) s = .next ((s0.setRegion k { r with rights := BitVec.ofNat 14 (d.get 12 4) }).done d .ok)) ∧
      (r.state = .off → exec (.hullRegionRights d) s = .next (s0.done d .regionOff))) ∧
    (Accepted d 0 [(8, 3), (0x10, 16), (0x28, 8)] s s0 → d.get 8 1 = 2 → d.get 0x10 8 % 64 = 0 → d.get 0x18 8 % 64 = 0 → 0 < d.get 0x18 8 →
      (r.state = .off → exec (.hullRegionFill d) s = .next (s0.done d .regionOff)) ∧
      (r.state ≠ .off → r.work ≠ none → exec (.hullRegionFill d) s = .next (s0.done d .busy)) ∧
      (r.state ≠ .off → r.work = none → r.bytes < d.get 0x10 8 + d.get 0x18 8 ∨ s0.cutsTaint k (d.get 0x10 8) (d.get 0x18 8) = true →
        exec (.hullRegionFill d) s = .next (s0.done d .badRequest)) ∧
      (r.state ≠ .off → r.work = none → d.get 0x10 8 + d.get 0x18 8 ≤ r.bytes → s0.cutsTaint k (d.get 0x10 8) (d.get 0x18 8) = false →
        exec (.hullRegionFill d) s = .next (s0.setRegion k { r with
          work := some d, filling := some (d.get 0x10 8, d.get 0x18 8, BitVec.ofNat 64 (d.get 0x28 8)) }))) ∧
    (Accepted d 0 [(8, 3)] s s0 → d.get 8 1 = 3 →
      (r.state ≠ .off → r.work = none → exec (.hullRegionDelete d) s = .next (s0.setRegion k { r with deleting := true, work := some d })) ∧
      (r.state ≠ .off → r.work ≠ none → exec (.hullRegionDelete d) s = .next (s0.done d .busy)) ∧
      (r.state = .off → exec (.hullRegionDelete d) s = .next (s0.done d .regionOff)))) ∧
  (∀ (s : State) (m : MemKind) (n : Fin 16),
    let k := regionKey m n.val
    let r := s.region k
    (r.deleting = true → exec (.deleteDrainEnd m n) s =
      .next (((s.setRegion k Region.reset).dropTaints (·.region == k)).workDone r.work { status := .ok })) ∧
    (r.deleting = false → exec (.deleteDrainEnd m n) s = .next s) ∧
    (∀ off len p, r.filling = some (off, len, p) → ∃ u : State, exec (.fillComplete m n) s =
        .next (u.workDone r.work { status := .ok, r0 := if r.state = .init then r.metaLen else 0 }) ∧
      (∀ a, r.lo + off ≤ a → a < r.lo + off + len → u.mem.byte a = BitVec.ofNat 8 (p.toNat >>> (8 * (a % 8)))) ∧
      (∀ a, ¬ (r.lo + off ≤ a ∧ a < r.lo + off + len) → u.mem.byte a = s.mem.byte a) ∧
      (r.state = .init → (u.region k).state = .active) ∧
      u = { s with mem := u.mem, hull := u.hull, radius := { s.radius with store := u.radius.store } } ∧
      (∀ e ∈ u.radius.store, e ∈ s.radius.store)) ∧
    (r.filling = none → exec (.fillComplete m n) s = .next s))

/-- Rekeying, the re-encryption pass and the patrol scrub (R398, R412, R420, Tables 17.4, 17.9): REKEY draws new keys into the pending halves
and puts the region in REKEY; its end makes them active with every counter 0, the region ACTIVE, and raises 0x204 with the lines it poisoned,
those of a region with integrity that had failed; an OFF, tainted or busy region is answered so. The end of a pass counts the waiting. A scrub
that finds a corrected word counts it and raises 0x220 or 0x222 once a second, one that finds an uncorrectable one records the line. -/
def Obligations.RekeyAndScrubRows : Prop :=
  ∀ (s s0 : State),
    (∀ d, Accepted d 0 [(9, 2)] s s0 → hullFieldsOk d = true →
      let k := hullKey d
      let r := s0.region k
      let tainted := (s0.taints k).any (·.region == k)
      (r.state = .off → exec (.hullRekey d) s = .next (s0.done d .regionOff)) ∧
      (r.state ≠ .off → r.state = .tainted ∨ tainted = true → exec (.hullRekey d) s = .next (s0.done d .tainted)) ∧
      (r.state ≠ .off → r.state ≠ .tainted → tainted = false → r.work ≠ none ∨ s0.axis.serving = false →
        exec (.hullRekey d) s = .next (s0.done d .busy)) ∧
      (r.state ≠ .off → r.state ≠ .tainted → tainted = false → r.work = none → s0.axis.serving = true →
        ∃ (t : State) (k1 k2 : HkHalf), exec (.hullRekey d) s = .next t ∧ t.region k = { r with
            state := .rekey, rekeyReadOnly := decide (r.state = .readOnly), nk1 := k1, nk2 := k2, work := some d, rekeyPoisoned := 0 } ∧
          (∀ j, j ≠ k → t.region j = s0.region j) ∧ t.mem = s0.mem)) ∧
    (∀ (m : MemKind) (n : Fin 16),
      let k := regionKey m n.val
      let r := s.region k
      let inside := fun (e : Nat × LineFault) => decide (r.lo / 64 ≤ e.1 ∧ e.1 < r.lo / 64 + r.bytes / 64)
      let bad := if r.integ then (s.hull.badLines.filter inside).length else 0
      (r.state = .rekey → ∃ u : State, exec (.rekeyComplete m n) s =
          .next ((u.raise 0x204 (BitVec.ofNat 8 k :: le 4 bad)).workDone r.work { status := .ok, r0 := bad }) ∧
        u.region k = { r with
          state := .active, k1 := r.nk1, k2 := r.nk2, nk1 := HkHalf.reset, nk2 := HkHalf.reset, leaves := [], upper := [], dirty := []
          rekeyReadOnly := false, rekeyPoisoned := bad, work := none } ∧ u.mem = s.mem ∧
        (r.integ = true → ∀ e ∈ u.hull.badLines, inside e = true → e.2 = .poisoned)) ∧
      (r.state ≠ .rekey → r.state ≠ .tainted ∨ r.work = none → exec (.rekeyComplete m n) s = .next s) ∧
      (∀ ns, r.overflowPass ≠ [] → exec (.minorOverflowPassEnd m n ns) s =
        .next ((s.setRegion k { r with overflowPass := r.overflowPass.dropLast }).countN (cid 0x0C 3 k) ns)) ∧
      (∀ ns, r.overflowPass = [] → exec (.minorOverflowPassEnd m n ns) s = .next s)) ∧
    (∀ (a : BitVec 40) (e : Ecc), e = .clean ∨ s.memAt a.toNat = none → exec (.patrolScrub a e) s = .next s) ∧
    (∀ a : BitVec 40, s.halted = false → s.memAt a.toNat ≠ none → exec (.patrolScrub a .corrected) s =
      .next ((s.count (cid 0x0D 0 (memInstance a.toNat))).raiseOnce (if a.toNat < 0x0800000000 then 0x220 else 0x222)
        (if a.toNat < 0x0800000000 then 0 else 1) [])) ∧
    (∀ a : BitVec 40, ∀ k, s.halted = false → s.memAt a.toNat ≠ none → s.regionAt a.toNat = some k →
      (s.region k).integ = true → ∃ t : State, exec (.patrolScrub a .uncorrectable) s = .next t ∧
        t.hull.badLines = tins s.hull.badLines (a.toNat / 64) .ecc ∧ t.mem = s.mem)

/-- KEY_STAGE, KEY_DERIVE and KEY_VERIFY (R64, R67 to R69, R76, R80, R81): staging, plain or wrapped, and deriving write the key, as two
shares whose XOR is the key, into the pending half and report its KCV; the active half and every other slot stay. A wrapped key that fails
its check is answered UNWRAP_FAILED, and changes nothing. A KCV that matches makes the pending half VERIFIED; one that does not empties it
and raises 0x100; an empty half is answered NO_PENDING.

KEY_COMMIT, KEY_ERASE and KEY_INVALIDATE (R65, R70, R72, R73, R75, R77, R78): a commit makes the verified half active under the next
generation, and waits while a generation drains or a marking pass runs; an erase empties the halves it names, takes the association keys
with it, and completes at once where no operation holds the generation, else with the drain; an invalidation under RETIRE makes the half
INVALID and completes, one under CASCADE starts a marking pass. A slot without what a command needs is answered NO_PENDING, NOT_VERIFIED or
SLOT_EMPTY; a command for a slot that still waits for an erase waits behind it. -/
def Obligations.KeysAreStagedCommittedAndErased : Prop :=
  (∀ (d : Desc) (s s0 : State),
    let kept := fun (k : Nat) (u w : State) (key : Nat) =>
      (w.slot k).pending = .staged ∧ (w.slot k).pnd.share ^^^ (w.slot k).pnd.mask = BitVec.ofNat 256 key ∧
      (w.slot k).act = (u.slot k).act ∧ (w.slot k).gen = (u.slot k).gen ∧ ∀ j, j ≠ k → w.slot j = u.slot j
    (Accepted d 0 [(8, 24)] s s0 → d.opcode = 0x010 → s0.slotHeld (slotField d 8) = false → slotFieldOk d 8 = true →
      d.get 0xD 1 ≤ 2 → d.get 0xE 1 < 32 → d.get 0xF 1 ≤ 1 → s0.axis.serving = true → usageOk (d.slotClass 8) (d.get 0xE 1) = true →
      bitOf (d.get 0xE 1) 0 = false →
      let k := slotField d 8
      let klen := algLen (BitVec.ofNat 2 (d.get 0xD 1))
      let q := s0.readMem .annulus (ringOwner d.ring.val) (d.get 0x10 8) (d.get 0x1C 4)
      let p := slotKey 2 (d.get 0x18 4)
      let par := (s0.slot p).act
      (∀ bs, d.get 0xC 1 = 0 → d.get 0x18 4 = 0 → d.get 0x1C 4 = klen → q.1 = .data bs → ∃ w : State, exec (.keyStage d) s =
          .next (w.complete d { status := .ok, flags := b2n ((q.2.slot k).pending != .empty)
                                r0 := kcv klen (Crypto.ofBytes (bs.map BitVec.toNat)) }) ∧
        kept k q.2 w (Crypto.ofBytes (bs.map BitVec.toNat)) ∧ (w.slot k).pnd.use = BitVec.ofNat 5 (d.get 0xE 1) ∧
        (w.slot k).pnd.alg = BitVec.ofNat 2 (d.get 0xD 1)) ∧
      (∀ bs, d.get 0xC 1 = 1 → d.get 0x18 4 ≤ 255 → d.get 0x1C 4 = klen + 8 → s0.parentStatus p = none → par.wrap = true →
        s0.depthOk p (d.slotClass 8) = true → q.1 = .data bs →
        (∀ key, Crypto.unwrap (algLen par.alg) par.key (klen / 8) (Crypto.ofBytes (bs.map BitVec.toNat)) = some key → ∃ w : State,
          exec (.keyStage d) s = .next (w.complete d
            { status := .ok, flags := b2n ((q.2.slot k).pending != .empty), r0 := kcv klen key }) ∧ kept k q.2 w key ∧
          (w.slot k).pnd.anc = q.2.ancestry p) ∧
        (Crypto.unwrap (algLen par.alg) par.key (klen / 8) (Crypto.ofBytes (bs.map BitVec.toNat)) = none →
          exec (.keyStage d) s = .next (q.2.done d .unwrapFailed)))) ∧
    (Accepted d 0 [(8, 13), (0x18, 8)] s s0 → d.opcode = 0x014 → s0.slotHeld (slotField d 0xC) = false → slotFieldOk d 8 = true →
      slotFieldOk d 0xC = true → (d.get 0x10 1 = 16 ∨ d.get 0x10 1 = 32) → d.get 0x11 1 < 32 → d.get 0x12 1 ≤ 1 → 1 ≤ d.get 0x13 1 →
      d.get 0x13 1 ≤ 32 → d.get 0x14 1 ≤ 32 → slotField d 8 ≠ slotField d 0xC →
      (d.slotClass 8 = 2 ∨ (d.slotClass 8 = 0 ∧ d.slotClass 0xC = 0 ∧ bits (d.slotIndex 8) 13 4 = bits (d.slotIndex 0xC) 13 4)) →
      s0.axis.serving = true → usageOk (d.slotClass 0xC) (d.get 0x11 1) = true → bitOf (d.get 0x11 1) 0 = false →
      (s0.slot (slotField d 8)).act.derive = true → s0.depthOk (slotField d 8) (d.slotClass 0xC) = true →
      let par := (s0.slot (slotField d 8)).act
      let q := s0.readMem .annulus (ringOwner d.ring.val) (d.get 0x18 8) (d.get 0x13 1 + d.get 0x14 1)
      (∀ st, s0.parentStatus (slotField d 8) = some st → exec (.keyDerive d) s = .next (s0.done d st)) ∧
      (∀ bs, s0.parentStatus (slotField d 8) = none → q.1 = .data bs →
        let key := kdf (algLen par.alg) par.key (bs.take (d.get 0x13 1)) (bs.drop (d.get 0x13 1)) (d.get 0x10 1 / 16)
        ∃ (w : State), exec (.keyDerive d) s = .next (w.complete d
            { status := .ok, flags := b2n ((q.2.slot (slotField d 0xC)).pending != .empty), r0 := kcv (d.get 0x10 1) key }) ∧
          kept (slotField d 0xC) q.2 w key)) ∧
    (Accepted d 0 [(8, 8)] s s0 → d.opcode = 0x011 → s0.slotHeld (slotField d 8) = false → slotFieldOk d 8 = true → d.get 0xC 4 < 2 ^ 24 →
      let x := s0.slot (slotField d 8)
      (x.pending = .empty → exec (.keyVerify d) s = .next (s0.done d .noPending)) ∧
      (x.pending ≠ .empty → kcv (algLen x.pnd.alg) x.pnd.key = d.get 0xC 4 → exec (.keyVerify d) s =
        .next ((s0.setSlot (slotField d 8) { x with pending := .verified }).done d .ok)) ∧
      (x.pending ≠ .empty → kcv (algLen x.pnd.alg) x.pnd.key ≠ d.get 0xC 4 → exec (.keyVerify d) s =
        .next (((s0.setSlot (slotField d 8) { x with pending := .empty, pnd := KeyHalf.reset }).raise 0x100
          (le 4 (slotWord (slotField d 8)))).done d .kcvMismatch))) ∧
    (s0.slotHeld (keyTarget d) = true →
      (Accepted d 0 [(8, 24)] s s0 → exec (.keyStage d) s = .next (s0.keyWait d)) ∧
      (Accepted d 0 [(8, 8)] s s0 → exec (.keyVerify d) s = .next (s0.keyWait d)) ∧
      (Accepted d 0 [(8, 13), (0x18, 8)] s s0 → exec (.keyDerive d) s = .next (s0.keyWait d)))) ∧
  (∀ (d : Desc) (s s0 : State), slotFieldOk d 8 = true →
    let k := slotField d 8
    let x := s0.slot k
    (s0.slotHeld k = false →
      (Accepted d 0 [(8, 4)] s s0 → d.opcode = 0x012 → s0.passRuns k = false → x.old = [] → x.waitq = [] →
        (x.pending = .verified → exec (.keyCommit d) s = .next ((s0.setSlot k { x.retire s0.clk none with
          active := .valid, act := x.pnd, pending := .empty, pnd := KeyHalf.reset, gen := nextGen x.gen, retired := false }).complete d
            { status := .ok, r0 := (nextGen x.gen).toNat, r1 := 0 })) ∧
        (x.pending = .staged → exec (.keyCommit d) s = .next (s0.done d .notVerified)) ∧
        (x.pending = .empty → exec (.keyCommit d) s = .next (s0.done d .noPending))) ∧
      (Accepted d 0 [(8, 4)] s s0 → d.opcode = 0x012 → (s0.passRuns k = true ∨ x.old ≠ []) → exec (.keyCommit d) s = .next (s0.keyWait d)) ∧
      (Accepted d 0 [(8, 5)] s s0 → d.opcode = 0x013 → s0.passRuns k = true → 1 ≤ d.get 0xC 1 → d.get 0xC 1 ≤ 3 →
        exec (.keyErase d) s = .next (s0.keyWait d)) ∧
      (Accepted d 0 [(8, 5)] s s0 → d.opcode = 0x013 → s0.passRuns k = false → 1 ≤ d.get 0xC 1 → d.get 0xC 1 ≤ 3 →
        let act := bitOf (d.get 0xC 1) 0 && x.active != .none
        let pnd := bitOf (d.get 0xC 1) 1 && x.pending != .empty
        let y := if pnd then { x with pending := .empty, pnd := KeyHalf.reset } else x
        let gone : Slot := { y with active := .none, act := KeyHalf.reset, gen := nextGen x.gen, retired := false, live := 0 }
        let lost := fun (z : Slot) => (s0.setSlot k z).loseKeys (fun dk => slotKey 0 dk == k) 0
        (act = false → pnd = false → exec (.keyErase d) s = .next (s0.done d .slotEmpty)) ∧
        (act = false → pnd = true → exec (.keyErase d) s =
          .next ((s0.setSlot k y).complete d { status := .ok, r0 := 0, r1 := s0.zeroTime })) ∧
        (act = true → x.live = 0 → exec (.keyErase d) s = .next ((lost gone).complete d { status := .ok, r0 := 0, r1 := s0.zeroTime })) ∧
        (act = true → x.live ≠ 0 → exec (.keyErase d) s = .next (lost { gone with
          old := x.old ++ [{ gen := x.gen, half := x.act, count := x.live, since := s0.clk, erase := some d }] }))) ∧
      (Accepted d 0 [(8, 4)] s s0 → d.opcode = 0x015 →
        (x.active = .none → exec (.keyInvalidate d) s = .next (s0.done d .slotEmpty)) ∧
        (x.active = .invalid → exec (.keyInvalidate d) s = .next (s0.complete d { status := .ok, r0 := 0 })) ∧
        (x.active = .valid → x.act.retire = true → exec (.keyInvalidate d) s =
          .next ((((s0.setSlot k { x with active := .invalid, retired := true }).loseKeys (fun dk => slotKey 0 dk == k) 1).raise 0x102 []).complete
            d { status := .ok, r0 := 0 })) ∧
        (x.active = .valid → x.act.retire = false → ∃ t : State, exec (.keyInvalidate d) s = .next t ∧ (t.slot k).active = .invalid ∧
          t.axis.marking = s0.axis.marking ++ [(d, k, x.gen)] ∧ (∀ a, a ∈ (t.slot k).act.anc → a ∈ x.act.anc) ∧
          ∀ j, (t.slot j).act.anc.contains (k, x.gen) = true → t.usable j = false))) ∧
    (s0.slotHeld (keyTarget d) = true →
      (Accepted d 0 [(8, 4)] s s0 → exec (.keyCommit d) s = .next (s0.keyWait d) ∧ exec (.keyInvalidate d) s = .next (s0.keyWait d)) ∧
      (Accepted d 0 [(8, 5)] s s0 → exec (.keyErase d) s = .next (s0.keyWait d))))

/-- Axis's own events (R72, R78, R82, R83, R221, Table 3.9): a drained generation is zeroised and the erase that waits completes, at the
latest 2 µs after its replacement; a marking pass ends with every descendant INVALID and 0x101; a sweep pass shows the oldest mask age of the
last; a visit renews both masks of a slot, of an HK slot too, and keeps the keys; a mask older than 64 ms sets SWEEP_OVERDUE with 0x103; after
2^20 requests the DRBG reseeds or Axis stops serving. -/
def Obligations.AxisEventsKeepTheKeys : Prop :=
  ∀ s : State,
    (∀ slot, let x := s.slot slot
      let ended := fun (u : State) (o : OldGen) => (match o.erase with
        | some e => (u.setSlot slot { x with old := x.old.erase o }).complete e { status := .ok, r0 := u.clk - o.since, r1 := u.zeroTime }
        | none => u.setSlot slot { x with old := x.old.erase o }).wakeSlot slot
      (∀ o, x.old.find? (·.count == 0) = some o → exec (.generationDrainEnd slot) s = .next (ended s o)) ∧
      (∀ o l, x.old = o :: l → (∀ g ∈ x.old, g.count ≠ 0) → exec (.generationDrainEnd slot) s = .next (ended (s.passTo (o.since + 2000)) o)) ∧
      (x.old = [] → exec (.generationDrainEnd slot) s = .next s) ∧ (x.waitq = [] → s.wakeSlot slot = s)) ∧
    (∀ d k g rest, s.axis.marking = (d, k, g) :: rest → ∃ (u : State) (n : Nat), exec .markingPassEnd s =
        .next (((u.raise 0x101 (le 4 (slotWord k) ++ le 4 n)).complete d { status := .ok, r0 := n }).wakeSlot k) ∧
      u.axis.marking = rest ∧ ∀ j, s.descends k g j = true → (u.slot j).active = .invalid) ∧
    (s.axis.marking = [] → exec .markingPassEnd s = .next s) ∧
    (s.axis.serving = true → s.apex.held = false → let u := s.passTo s.axis.sweepDue
      exec .sweepPassStart s = .next { u with axis := { u.axis with
        maxAge := BitVec.ofNat 8 (min 255 u.axis.ageSeen), ageSeen := 0, sweepDue := u.clk + 1000000 * u.sweepPeriod } }) ∧
    (∀ slot, s.axis.serving = true → s.apex.held = false →
      (slotExists (keyClass slot) (keyIndex slot) = true → (s.slot slot).active ≠ .none → ∃ t : State,
        exec (.sweepSlotVisit slot) s = .next t ∧ (t.slot slot).act.key = (s.slot slot).act.key ∧ (t.slot slot).act.maskAt = s.clk ∧
        (t.slot slot).pnd.key = (s.slot slot).pnd.key ∧ (t.slot slot).gen = (s.slot slot).gen ∧ (∀ j, j ≠ slot → t.slot j = s.slot j) ∧
        t.axis.drbgCount = s.axis.drbgCount + 1) ∧
      (keyClass slot = 3 → keyIndex slot < 64 → (s.region (keyIndex slot / 2)).state ≠ .off → ∃ t : State,
        exec (.sweepSlotVisit slot) s = .next t ∧
        let r := s.region (keyIndex slot / 2)
        let r' := t.region (keyIndex slot / 2)
        r'.k1.sh.key = r.k1.sh.key ∧ r'.k2.sh.key = r.k2.sh.key ∧ r'.nk1.sh.key = r.nk1.sh.key ∧ r'.nk2.sh.key = r.nk2.sh.key ∧
        (if keyIndex slot % 2 = 0 then r'.k1.maskAt else r'.k2.maskAt) = s.clk ∧ (∀ j, j ≠ keyIndex slot / 2 → t.region j = s.region j))) ∧
    (∀ slot, slotExists (keyClass slot) (keyIndex slot) = false → (keyClass slot ≠ 3 ∨ 64 ≤ keyIndex slot) →
      exec (.sweepSlotVisit slot) s = .next s) ∧
    (s.axis.serving = false ∨ s.apex.held = true → exec .sweepPassStart s = .next s ∧ ∀ slot, exec (.sweepSlotVisit slot) s = .next s) ∧
    (∀ t0, s.oldestMask = some t0 → s.axis.maskLate = false → let u := s.passTo (t0 + 64000001)
      exec .maskOverdue s = .next (({ u with axis := { u.axis with overdue := true, maskLate := true } }).raise 0x103 [])) ∧
    (s.oldestMask = none ∨ s.axis.maskLate = true → exec .maskOverdue s = .next s) ∧
    (1048576 ≤ s.axis.drbgCount → s.axis.entropyOk = true → exec .drbgReseed s = .next { s with axis := { s.axis with drbgCount := 0 } }) ∧
    (1048576 ≤ s.axis.drbgCount → s.axis.entropyOk = false → s.axis.serving = true → exec .drbgReseed s =
      .next (({ s with axis := { s.axis with drbgFail := true, serving := false } }).raise 0x105 [])) ∧
    (s.axis.drbgCount < 1048576 → exec .drbgReseed s = .next s)

/-- SA_CREATE and SA_MODIFY (R33, R95 to R105, R130, R493, R494, R574): an image that passes every check makes the FREE context READY or
ACTIVE (or EXHAUSTED, RESERVE_WAIT or KEY_LOST where its counter or its key says so) with the image's fields, NEXT never below the image's and
reported; a modification changes the fields its mask selects and no counter downwards. The first check that fails gives the status. Every
other association keeps its state and NEXT.

SA_RETIRE, SA_READ and the end of a retirement (R98, R99, R121, R495, R497): a retire makes the association RETIRING and its command waits,
as does a further one; a FREE handle is answered NOT_FOUND, the CURRENT transmit association of an enabled port and one that an armed rotation
names IN_USE; with no operation in flight it folds a last time and is FREE; SA_READ writes the context and the counters, a FREE handle
reading zeros. -/
def Obligations.AssociationsAreCreatedReadAndRetired : Prop :=
  (∀ (d : Desc) (s s0 : State), s.lockedOut d (saHandle d) = false → saHandle d < 2 ^ 17 →
    let h := saHandle d
    let q := s0.readMem .annulus (ringOwner d.ring.val) (d.get 0x10 8) 128
    let u := q.2
    (∀ bs, q.1 = .data bs →
      let v := leNat bs
      let a := (Assoc.ofImage v).defaults
      let partner := decide ((u.lport a.lp).enabled = true ∧ ((u.lport a.lp).partner.map (·.toNat)) = some a.owner.toNat)
      let checks : List (Bool × Status) := [(createBad v, .badRequest), (h / 8192 != u.partitionFor a || !dkInPartition a h, .wrongPartition),
        (u.twin.lease == .standby, .standby), ((u.sa h).status != .free || (a.current && u.otherCurrent h a), .inUse),
        (!a.group && !partner, .noPartner), (u.groupFull a, .groupFull),
        (u.badUsage a a.dkInUse false || (a.facet && u.badUsage a a.dkSpare true), .badUsage), (u.duplicateSci h a, .duplicateSci),
        (u.duplicateKey h a, .duplicateKey), (u.groupNoSci a, .badRequest)]
      Accepted d 1 [(8, 4), (0x10, 8)] s s0 →
      (∀ e, checks.find? (·.1) = some e → exec (.saCreate d) s = .next (u.done d e.2)) ∧
      (checks.find? (·.1) = none → ∃ (w : State) (n fl : Nat),
        exec (.saCreate d) s = .next (w.complete d { status := .ok, flags := fl, r0 := n % 2 ^ 64 }) ∧
        (if a.next = 0 ∧ a.facet = false then 1 else a.next.toNat) ≤ n ∧ (w.sa h).next = BitVec.ofNat 64 n ∧ (w.sa h).status ≠ .free ∧
        (a.recv = true → (w.sa h).status = .active ∨ (w.sa h).status = .keyLost) ∧ (w.sa h).dkA = a.dkA ∧ (w.sa h).dkB = a.dkB ∧
        (w.sa h).sci = a.sci ∧ (w.sa h).recv = a.recv ∧ (w.sa h).suite = a.suite ∧ (w.sa h).current = a.current ∧
        (w.sa h).warn = a.warn ∧ (w.sa h).window = a.window ∧
        ∀ j, j ≠ h → (w.sa j).next = (u.sa j).next ∧ (w.sa j).status = (u.sa j).status ∧ (w.sa j).dkA = (u.sa j).dkA)) ∧
    (∀ bs, q.1 = .data bs → d.get 0xC 4 < 1024 →
      let v := leNat bs
      let m := d.get 0xC 4
      let b := Assoc.ofImage v
      let old := u.sa h
      let a := (old.merge m b).defaults
      let slots := (if bitOf m 0 then [a.dkA.toNat] else []) ++ (if bitOf m 1 && a.facet then [a.dkB.toNat] else [])
      let next := if bitOf m 9 then b.next.toNat else old.nextN
      let checks : List (Bool × Status) := [((bitOf m 0 && bits v 0x31 15 != 0) || (bitOf m 1 && bits v 0x51 15 != 0) ||
          (bitOf m 2 && 1 < bits v 17 2), .badRequest), (slots.any fun k => k / 8192 != h / 8192, .wrongPartition),
        (u.twin.lease == .standby, .standby), (old.status == .free, .notFound), (u.rotating h, .inUse),
        (slots.any fun k => u.badUsage a k (a.facet && k == a.dkSpare && k != a.dkInUse), .badUsage), (decide (next < old.nextN), .counterLower),
        (bitOf m 0 && u.duplicateKey h a, .duplicateKey),
        ((bitOf m 1 && !a.facet && b.dkB != 0) || (bitOf m 8 && a.xpn && 0x40000000 < a.window.toNat), .badRequest)]
      Accepted d 0 [(8, 8), (0x10, 8)] s s0 →
      (∀ e, checks.find? (·.1) = some e → exec (.saModify d) s = .next (u.done d e.2)) ∧
      (checks.find? (·.1) = none → ∃ (w : State) (n fl : Nat),
        exec (.saModify d) s = .next (w.complete d { status := .ok, flags := fl, r0 := n % 2 ^ 64 }) ∧ next ≤ n ∧
        (slots = [] → n = next) ∧ (n ≠ old.nextN → (w.sa h).next = BitVec.ofNat 64 n) ∧ (n = old.nextN → (w.sa h).next = old.next) ∧
        w.sa h = { a with
          next := (w.sa h).next, spent := (w.sa h).spent, status := (w.sa h).status, before := (w.sa h).before
          warned := (w.sa h).warned, lowWarned := (w.sa h).lowWarned } ∧
        ∀ j, j ≠ h → w.sa j = u.sa j)) ∧
    (1024 ≤ d.get 0xC 4 → Accepted d 0 [(8, 8), (0x10, 8)] s s0 → exec (.saModify d) s = .next (s0.done d .badRequest))) ∧
  (∀ s s0 : State,
    (∀ d, s.lockedOut d (saHandle d) = false → Accepted d 0 [(8, 4)] s s0 → saHandle d < 2 ^ 17 →
      let h := saHandle d
      let a := s0.sa h
      let inUse := s0.rotating h || (!a.recv && a.current && (s0.lport a.lp).enabled)
      (s0.twin.lease = .standby → exec (.saRetire d) s = .next (s0.done d .standby)) ∧
      (s0.twin.lease ≠ .standby → a.status = .free → exec (.saRetire d) s = .next (s0.done d .notFound)) ∧
      (s0.twin.lease ≠ .standby → a.status = .retiring → exec (.saRetire d) s =
        .next (s0.setSa h { a with retireCmds := a.retireCmds ++ [d] })) ∧
      (s0.twin.lease ≠ .standby → a.status ≠ .free → a.status ≠ .retiring →
        (inUse = true → exec (.saRetire d) s = .next (s0.done d .inUse)) ∧
        (inUse = false → exec (.saRetire d) s = .next (s0.setSa h { a with status := .retiring, retireCmds := [d] })))) ∧
    (∀ d, s.lockedOut d (saHandle d) = true → exec (.saRetire d) s = .next s ∧ exec (.saCreate d) s = .next s ∧ exec (.saModify d) s = .next s) ∧
    (∀ (h : BitVec 17), (s.sa h.toNat).status = .retiring → (s.sa h.toNat).inFlight = 0 →
      let f := s.fold h.toNat
      exec (.retirementEnd h) s = .next ((s.sa h.toNat).retireCmds.foldl (fun s d => s.complete d { status := .ok, flags := b2n f.1 })
        ((((f.2.setSa h.toNat Assoc.reset).noteFreed h.toNat).caseClear h.toNat).retime false))) ∧
    (∀ (h : BitVec 17), ((s.sa h.toNat).status ≠ .retiring ∨ (s.sa h.toNat).inFlight ≠ 0) → exec (.retirementEnd h) s = .next s) ∧
    (∀ d, Accepted d 0 [(8, 4), (0x10, 8)] s s0 →
      (saHandle d < 2 ^ 17 → exec (.saRead d) s =
        .next (s0.writeBufDone d .annulus (d.get 0x10 8) (s0.saImage (saHandle d)) { status := .ok })) ∧
      (2 ^ 17 ≤ saHandle d → exec (.saRead d) s = .next (s0.done d .badRequest))) ∧
    (∀ h, ((s.sa h).status = .free → s.saImage h = List.replicate 192 0) ∧
      ((s.sa h).status ≠ .free → s.saImage h = le 128 (s.sa h).image ++
        (List.range 8).flatMap fun i => le 8 (leAt (s.mem.get (s.statsAddr h) 64) (8 * i) 8 + (tget 0 (s.sa h).delta i).toNat))))

/-- Holds, leases and folds (R100, R117, R120, R121): at the end of its overlap hold a MACsec association enters RETIRING and a Facet one keeps
only its new phase, each with 0x127; a context lock whose lease has run out is released with 0x12A; a sweep folds the deltas of its
partition: the counter block in memory takes them and they are cleared, or Hull refuses, they stay and 0x12C is raised.

Rotation (R113 to R116, R496): SA_ROTATE reads its list and begins to arm; at the end of arming the whole list is validated, and either
every entry is armed, or nothing is and the first bad entry is reported, or a time that comes too soon is TOO_LATE; when the time comes the
entries switch, so that the to-association is CURRENT; CANCEL of an armed rotation that has not been triggered disarms every entry and
completes both commands, one already triggered is TOO_LATE. -/
def Obligations.AssociationTimersAndRotations : Prop :=
  (∀ s : State,
    (∀ (h : BitVec 17) t0, (s.sa h.toNat).overlapDue = some t0 →
      let u := s.passTo t0
      let a := u.sa h.toNat
      ((a.status = .free ∨ a.status = .retiring) → exec (.overlapHoldExpiry h) s = .next (u.setSa h.toNat { a with overlapDue := none })) ∧
      (a.status ≠ .free → a.status ≠ .retiring → a.facet = false → exec (.overlapHoldExpiry h) s =
        .next ((u.setSa h.toNat { a with overlapDue := none, status := .retiring }).raise 0x127 (le 4 h.toNat))) ∧
      (a.status ≠ .free → a.status ≠ .retiring → a.facet = true → ∃ e, exec (.overlapHoldExpiry h) s =
        .next ((u.setSa h.toNat { a with overlapDue := none, expired := some (!a.phase, e) }).raise 0x127 (le 4 h.toNat)))) ∧
    (∀ h : BitVec 17, (s.sa h.toNat).overlapDue = none → exec (.overlapHoldExpiry h) s = .next s) ∧
    (∀ (h : BitVec 17) o t0, s.assoc.locks.lookup h.toNat = some (o, t0) →
      let u := s.passTo t0
      exec (.contextLockLeaseExpiry h) s =
        .next ((({ u with assoc := { u.assoc with locks := tdel u.assoc.locks h.toNat } }).raise 0x12A (le 4 h.toNat ++ le 2 o)).wake
          (h.toNat / 8192))) ∧
    (∀ h : BitVec 17, s.assoc.locks.lookup h.toNat = none → exec (.contextLockLeaseExpiry h) s = .next s) ∧
    (∀ part : Fin 16, exec (.statsFoldSweep part) s =
      .next ((s.live.filter fun e => e.1 / 8192 == part.val && !e.2.delta.isEmpty).foldl (fun s e => (s.fold e.1).2) s)) ∧
    (∀ h, let bs := (List.range 8).flatMap fun i => le 8 (leAt (s.mem.get (s.statsAddr h) 64) (8 * i) 8 + (tget 0 (s.sa h).delta i).toNat)
      let r := s.writeMem .annulus 0 (s.statsAddr h) bs
      (r.1 = true → (s.fold h).2 = r.2.setSa h { r.2.sa h with delta := [] }) ∧ (r.1 = false → (s.fold h).2 = r.2.raise 0x12C (le 4 h)))) ∧
  (∀ s s0 : State,
    (∀ d, Accepted d 2 [(8, 13), (0x18, 8), (0x20, 10)] s s0 → bitOf d.flags 1 = false → 1 ≤ d.get 0x10 4 → d.get 0x10 4 ≤ 131072 →
      d.get 0x14 1 ≤ 1 → (d.get 0x14 1 = 0 → d.get 0x18 8 = 0) → (d.get 0x14 1 = 1 → d.get 0x20 10 = 0) →
      let q := s0.readMem .annulus (ringOwner d.ring.val) (d.get 8 8) (8 * d.get 0x10 4)
      ∀ bs, q.1 = .data bs →
        (rotEntries (d.get 0x10 4) bs = none → exec (.saRotate d) s = .next (q.2.done d .badRequest)) ∧
        (∀ es, rotEntries (d.get 0x10 4) bs = some es →
          let bad := if d.get 0x14 1 = 1 then d.get 0x18 8 == 0 || (d.get 0x18 8 % 256 != 0 && es.any fun e => e.2.2 || e.1 == e.2.1)
            else decide (999999999 < d.get 0x26 4)
          (bad = true → exec (.saRotate d) s = .next (q.2.done d .badRequest)) ∧
          (bad = false → q.2.twin.lease = .standby → exec (.saRotate d) s = .next (q.2.done d .standby)) ∧
          (bad = false → q.2.twin.lease ≠ .standby → exec (.saRotate d) s =
            .next { q.2 with assoc := { q.2.assoc with
              rots := q.2.assoc.rots ++ [{ desc := some d, name := (d.ring.val, d.tag), entries := es.map fun e => (e.1, e.2.1)
                                           phases := (es.filter (·.2.2)).map fun e => (e.1, e.2.1)
                                           trigger := if d.get 0x14 1 = 1 then .pn (d.get 0x18 8)
                                             else .time (1000000000 * d.get 0x20 6 + d.get 0x26 4)
                                           armedAt := q.2.clk + 10 * d.get 0x10 4, armed := false, total := d.get 0x10 4, switched := [] }]
              fired := q.2.assoc.fired.filter (· != (d.ring.val, d.tag)) } }))) ∧
    (∀ (ring : Fin 64) (tag : BitVec 16) r d, (s.assoc.rots.find? fun r => !r.armed && r.name == (ring.val, tag.toNat)) = some r →
      r.desc = some d →
      let u := s.passTo r.armedAt
      (∀ i, u.firstBad 0 [] r.listForm = some i → exec (.rotationArmed ring tag) s =
        .next ((u.putRotation r none).complete d { status := .invalidPair, r0 := i })) ∧
      (∀ t0, u.firstBad 0 [] r.listForm = none → r.trigger = .time t0 → t0 < u.gnomon.time + 10000 →
        exec (.rotationArmed ring tag) s = .next ((u.putRotation r none).done d .tooLate)) ∧
      (∀ t0, u.firstBad 0 [] r.listForm = none → r.trigger = .time t0 → u.gnomon.time + 10000 ≤ t0 →
        exec (.rotationArmed ring tag) s = .next (r.entries.foldl (armEntry (.time t0)) (u.putRotation r (some { r with armed := true })))) ∧
      (∀ v, u.firstBad 0 [] r.listForm = none → r.trigger = .pn v → exec (.rotationArmed ring tag) s =
        .next ((r.entries.foldl (armEntry (.pn v)) (u.putRotation r (some { r with armed := true, desc := none }))).complete d
          { status := .ok, r0 := 0 }))) ∧
    (∀ (ring : Fin 64) (tag : BitVec 16), (s.assoc.rots.find? fun r => !r.armed && r.name == (ring.val, tag.toNat)) = none →
      exec (.rotationArmed ring tag) s = .next s) ∧
    (∀ (ring : Fin 64) (tag : BitVec 16) r t0, (s.assoc.rots.find? fun r => r.armed && r.name == (ring.val, tag.toNat)) = some r →
      r.trigger = .time t0 → exec (.rotationTimeTrigger ring tag) s = .next ((s.passToTime t0).fireRotation r)) ∧
    (∀ fr dst pn, fr ≠ dst → s.mayBecomeCurrent (s.sa fr).disarm (s.sa dst) = true → (s.switchEntry fr dst pn).1 = true ∧
      ((s.switchEntry fr dst pn).2.sa dst).current = true ∧ ((s.switchEntry fr dst pn).2.sa fr).current = false ∧
      (((s.switchEntry fr dst pn).2.sa dst).status = .active ∨ ((s.switchEntry fr dst pn).2.sa dst).status = .reserveWait) ∧
      ∀ j, j ≠ fr → j ≠ dst → (s.switchEntry fr dst pn).2.sa j = s.sa j) ∧
    (∀ d, Accepted d 2 [(0x2C, 3)] s s0 → bitOf d.flags 1 = true → d.get 0x2E 1 ≤ 63 →
      let found := s0.assoc.rots.find? fun r => r.armed && r.name == (d.get 0x2E 1, d.get 0x2C 2)
      (s0.twin.lease = .standby → exec (.saRotateCancel d) s = .next (s0.done d .standby)) ∧
      (s0.twin.lease ≠ .standby → found = none → exec (.saRotateCancel d) s =
        .next (s0.done d (if s0.assoc.fired.contains (d.get 0x2E 1, d.get 0x2C 2) then .tooLate else .notFound))) ∧
      (∀ r, s0.twin.lease ≠ .standby → found = some r →
        let u := r.entries.foldl (fun s e => s.setSa e.1 (s.sa e.1).disarm) (s0.putRotation r none)
        (s0.triggered r = true → exec (.saRotateCancel d) s = .next (s0.done d .tooLate)) ∧
        (s0.triggered r = false → r.desc = none → exec (.saRotateCancel d) s = .next (u.done d .ok)) ∧
        (∀ c, s0.triggered r = false → r.desc = some c → exec (.saRotateCancel d) s = .next ((u.done c .cancelled).done d .ok)))))

/-- TWIN_CONFIG and TWIN_STATUS commands (R439, R442, R445, R507, Tables 19.1, 19.8): CONFIGURE takes the parameters, derives the arbiter key
and, from UNCONFIGURED, makes the unit STANDBY; a unit that holds the lease may change only the cycle, the stale time, the restore time and
L0s; SOLO makes an unconfigured unit SOLO; REMOVE makes it UNCONFIGURED; WIDEN joins the lanes; a command that the lease state forbids is
answered IN_USE, a parameter out of range BAD_REQUEST; LEASE_STATUS writes the status words.

Handover (R458, R489): the ACTIVE unit with a current standby enters HANDOVER, takes no counter and sends a full copy; a standby asks for
one; without a link or a current standby the command is refused, on a LAPSED unit with LEASE_LOST; a verified request of the standby starts
one; without the acknowledgement of the final copy in time the unit returns to ACTIVE and its command completes with TIMEOUT. -/
def Obligations.TwinCommandsAndHandover : Prop :=
  (∀ (d : Desc) (s s0 : State),
    (Accepted d 0 twinFields s s0 →
      let holds := decide (s0.twin.lease = .active ∨ s0.twin.lease = .handover)
      (twinRangesOk d = false → exec (.twinConfigure d) s = .next (s0.done d .badRequest) ∧
        exec (.twinSolo d) s = .next (s0.done d .badRequest) ∧ exec (.twinRemove d) s = .next (s0.done d .badRequest)) ∧
      (d.get 8 1 = 0 → twinRangesOk d = true →
        ((s0.twin.lease = .standby ∨ s0.twin.lease = .lapsed ∨ (holds = true ∧ (s0.twin.withParams d).fixedParams = s0.twin.fixedParams)) →
          exec (.twinConfigure d) s =
            .next (((({ s0 with twin := { s0.twin.withParams d with barred := true } }).deriveArbKey).retime false).syncRestore.done d .ok)) ∧
        (s0.twin.lease = .unconfigured → ∃ w : State,
          exec (.twinConfigure d) s = .next (w.done d .ok) ∧ w.twin.lease = .standby ∧ w.twin.barred = true ∧
          w.twin.pairId = BitVec.ofNat 16 (d.get 0xC 2) ∧ w.twin.leaseMs = (if d.get 0x18 2 = 0 then 20 else d.get 0x18 2) ∧
          w.twin.cycleUs = (if d.get 0x1C 4 = 0 then 250 else d.get 0x1C 4) ∧ w.axis.slots = s0.axis.slots) ∧
        (s0.twin.lease = .solo ∨ (holds = true ∧ (s0.twin.withParams d).fixedParams ≠ s0.twin.fixedParams) →
          exec (.twinConfigure d) s = .next (s0.done d .inUse))) ∧
      (d.get 8 1 = 1 → twinRangesOk d = true →
        (s0.twin.lease = .unconfigured → s0.twin.barred = false →
          exec (.twinSolo d) s = .next (((({ s0 with twin := s0.twin.withParams d }).setLease .solo).retime false).done d .ok)) ∧
        (s0.twin.lease ≠ .unconfigured ∨ s0.twin.barred = true → exec (.twinSolo d) s = .next (s0.done d .inUse))) ∧
      (d.get 8 1 = 3 → twinRangesOk d = true →
        ((s0.twin.lease = .standby ∨ s0.twin.lease = .lapsed ∨ s0.twin.lease = .unconfigured) →
          ∃ w : State, exec (.twinRemove d) s = .next (w.done d .ok) ∧ w.twin.lease = .unconfigured ∧ w.twin.barred = true ∧
            w.twin.asked = false ∧ w.axis = s0.axis ∧ w.assoc.rots = s0.assoc.rots) ∧
        ((holds = true ∨ s0.twin.lease = .solo) → exec (.twinRemove d) s = .next (s0.done d .inUse)))) ∧
    (Accepted d 0 [(8, 56)] s s0 → d.get 8 1 = 2 → exec (.twinWiden d) s =
      .next ((if s0.twin.width = 0 then s0 else s0.joinLanes).done d .ok)) ∧
    (Accepted d 0 [(0x10, 8)] s s0 → exec (.leaseStatus d) s = .next (s0.writeBufDone d .annulus (d.get 0x10 8)
      (le 4 s0.twinStatus ++ le 4 s0.twinCycle ++ le 4 s0.leaseRemain ++ le 4 0 ++ le 8 s0.twin.copyAck ++ le 8 s0.twin.epoch)
      { status := .ok }))) ∧
  (∀ (d : Desc) (s s0 : State),
    (Accepted d 0 [] s s0 →
      (s0.twin.lease = .active → s0.twin.linkUp = true →
        (s0.standbyCurrent = true → exec (.twinHandover d) s = .next (s0.startHandover (some d) (s0.timeoutOf d 10000000))) ∧
        (s0.standbyCurrent = false → exec (.twinHandover d) s = .next (s0.done d .notCurrent))) ∧
      ((s0.twin.lease = .solo ∨ s0.twin.lease = .unconfigured ∨ s0.twin.lease = .handover ∨
          ((s0.twin.lease = .active ∨ s0.twin.lease = .standby) ∧ s0.twin.linkUp = false)) →
        exec (.twinHandover d) s = .next (s0.done d .noTwin)) ∧
      (s0.twin.lease = .lapsed → exec (.twinHandover d) s = .next (s0.done d .leaseLost)) ∧
      (s0.twin.lease = .standby → s0.twin.linkUp = true → ∃ t : State, exec (.twinHandover d) s = .next t ∧
        t.twin.asked = true ∧ t.twin.asking = s0.twin.asking ++ [d] ∧ t.twin.txCount = s0.twin.txCount + 1 ∧
        t = { s0 with twin := t.twin, out := t.out })) ∧
    (∀ (u : State) c t0, let w := (u.setLease .handover).sendCopy true
      u.startHandover c t0 = { w with twin := { w.twin with handover := some (c, w.clk + t0, w.twin.copySeq) } }) ∧
    (∀ msg, let q := s.chordOpen 0x14 msg
      (q.1 ≠ none → q.2.twin.lease = .active → q.2.standbyCurrent = true →
        exec (.handoverRequestReceive msg) s = .next (q.2.startHandover none 10000000)) ∧
      (q.1 = none ∨ q.2.twin.lease ≠ .active ∨ q.2.standbyCurrent = false → exec (.handoverRequestReceive msg) s = .next q.2)) ∧
    (∀ c t0 n, s.twin.handover = some (c, t0, n) →
      (s.twin.lease = .handover → exec .handoverTimeout s = .next (((s.passTo t0).setLease .active).handoverDone .timeout)) ∧
      (s.twin.lease ≠ .handover → exec .handoverTimeout s = .next s)) ∧
    (s.twin.handover = none → exec .handoverTimeout s = .next s) ∧
    (∀ c t0 n st, s.twin.handover = some (some c, t0, n) →
      s.handoverDone st = ({ s with twin := { s.twin with handover := none } }).done c st))

/-- The Chord link and its sessions (R444, R445, R481, R482): with the clock lane and a data lane LOCKED the lanes join and a session attempt
begins under a fresh nonce; HELLO goes out every 10 us on Chord and every 100 ms to the arbiter; a HELLO with no common version is answered with
VERSION_REJECT, one that echoes the unit's nonce brings the session up with the highest common version; 10 us of silence send a HEARTBEAT, and
a received one is verified; the loss of the clock lane, 100 us of silence or 8 failed tags take the link down with 0x301.

Copies (R110, R447, R448, R454, R458): at its due time the active sends a copy; a standby applies the records of a message, acknowledges a
copy of which every record has come, and asks for a full one otherwise; an acknowledgement of an open copy sets the twin ceilings from what
that copy carried of the associations that stand since; after a STALE mark that of a full copy makes the active send COPY_CURRENT, and that of
a handover's final copy releases the lease; a FULL_REQUEST makes the next copy full. -/
def Obligations.ChordLinkCarriesCopies : Prop :=
  (∀ s : State,
    (s.halted = false → s.twin.width = 0 → s.laneLocked 136 = true → (s.chordSet fun k => s.laneLocked (128 + k)) ≠ [] →
      s.twin.lease ≠ .unconfigured → s.twin.lease ≠ .solo → ∃ t : State, exec .chordLinkUp s = .next t ∧
      t = s.joinLanes.beginSession .chord ∧ t.twin.chord.ver = 0 ∧ t.twin.chord.peer = 0 ∧ t.axis.drbgCount = s.joinLanes.axis.drbgCount + 1) ∧
    (s.twin.width ≠ 0 ∨ s.laneLocked 136 = false ∨ (s.chordSet fun k => s.laneLocked (128 + k)) = [] ∨ s.twin.lease = .unconfigured ∨
      s.twin.lease = .solo → exec .chordLinkUp s = .next s) ∧
    (∀ p, s.hellos p = true → let u := s.passTo (s.session p).helloDue
      exec (.helloSend p) s = .next ((u.setSession p { u.session p with helloDue := u.clk + helloPeriod p }).octegOut p (u.hello p))) ∧
    (∀ p, s.hellos p = false → exec (.helloSend p) s = .next s) ∧
    (∀ p msg, s.halted = false → s.twin.lease ≠ .unconfigured → s.twin.lease ≠ .solo → (p = .arbiter ∨ s.twin.width ≠ 0) →
      exec (.helloReceive p msg) s = .next (s.helloIn p msg)) ∧
    (∀ p msg, s.halted = true ∨ s.twin.lease = .unconfigured ∨ s.twin.lease = .solo ∨ (p = .chord ∧ s.twin.width = 0) →
      exec (.helloReceive p msg) s = .next s) ∧
    (∀ p msg, msg.length ≠ 56 → s.helloIn p msg = s) ∧
    (∀ msg : List Byte, msg.length = 56 → leAt msg 1 1 = 1 → leAt msg 0 1 = 1 →
      let v := commonVersion (leAt msg 8 1)
      let reject := octegHeader 1 2 9 ++ [BitVec.ofNat 8 versionsA1]
      let nonce := BitVec.ofNat 128 (beAt msg 16 16)
      (v = 0 → s.helloIn .chord msg = (s.octegOut .chord reject).raise 0x301 [4]) ∧
      (v = 0 → s.helloIn .arbiter msg = ({ s.octegOut .arbiter reject with
          twin := { (s.octegOut .arbiter reject).twin with arbRefused := true } }).raise 0x309 []) ∧
      (v ≠ 0 → s.twin.arb.ver = 0 → BitVec.ofNat 128 (beAt msg 32 16) = s.twin.arb.own → s.helloIn .arbiter msg =
        { s with twin := { s.twin with arb := { s.twin.arb with peer := nonce, ver := v }, arbRefused := false } }) ∧
      (v ≠ 0 → s.twin.arb.ver = 0 → BitVec.ofNat 128 (beAt msg 32 16) ≠ s.twin.arb.own → s.helloIn .arbiter msg =
        { s with twin := { s.twin with arb := { s.twin.arb with peer := nonce } } }) ∧
      (v ≠ 0 → s.twin.chord.ver = 0 → BitVec.ofNat 128 (beAt msg 32 16) = s.twin.chord.own →
        let u := { s with twin := { s.twin with chord := { s.twin.chord with peer := nonce } } }
        ∀ key, u.chordKey = some key → s.helloIn .chord msg = u.chordUp v key)) ∧
    (s.halted = false → s.twin.chord.ver ≠ 0 → let u := s.passTo (s.twin.lastTx + 10000)
      ∃ body, exec .chordHeartbeatSend s = .next (u.chordSend 0x03 body) ∧ (u.twin.chord.ver < 3 → body = [])) ∧
    (s.twin.chord.ver = 0 → exec .chordHeartbeatSend s = .next s) ∧
    (∀ ty msg, s.halted = false → s.twin.chord.ver ≠ 0 → 24 ≤ msg.length → leAt msg 1 1 = ty → leAt msg 0 1 = s.twin.chord.ver →
      beAt msg 2 2 = msg.length →
      let body := Crypto.gcmOpen 32 s.twin.key.toNat (chordIv (!s.twin.sideB) (s.twin.rxCount + 1)) (msg.take 8)
        (slice msg 8 (msg.length - 24)) (msg.drop (msg.length - 16))
      (s.chordOpen ty msg).1 = body ∧
      (body ≠ none → (s.chordOpen ty msg).2 =
        { s with twin := { s.twin with rxCount := s.twin.rxCount + 1, badRun := 0, lastRx := s.clk } }) ∧
      (body = none → (s.chordOpen ty msg).2 =
        ({ s with twin := { s.twin with rxCount := s.twin.rxCount + 1, badRun := s.twin.badRun + 1 } }).count (cid 0x0E 0 0))) ∧
    (∀ msg, let q := s.chordOpen 0x03 msg
      exec (.heartbeatReceive msg) s = .next (match q.1 with
        | some b => { q.2 with twin := { q.2.twin with peerLease := leAt b 8 1 } }
        | none => q.2)) ∧
    (s.twin.width ≠ 0 ∨ s.twin.linkUp = true →
      (s.laneLocked 136 = false → exec (.chordLinkDown .clockLane) s = .next (s.chordDown 1)) ∧
      (s.laneLocked 136 = true → exec (.chordLinkDown .clockLane) s = .next s) ∧
      (s.twin.linkUp = true → exec (.chordLinkDown .silence) s = .next ((s.passTo (s.twin.lastRx + 100000)).chordDown 2)) ∧
      (s.twin.linkUp = false → exec (.chordLinkDown .silence) s = .next s) ∧
      (8 ≤ s.twin.badRun → exec (.chordLinkDown .tagFailures) s = .next (s.chordDown 3)) ∧
      (s.twin.badRun < 8 → exec (.chordLinkDown .tagFailures) s = .next s)) ∧
    (s.twin.width = 0 → s.twin.linkUp = false → ∀ c, exec (.chordLinkDown c) s = .next s) ∧
    (∀ c, let u := ({ s with twin := { s.twin with linkUp := false } }.chordEnd).setChordSet []
      s.chordDown c = if s.twin.linkUp then u.raise 0x301 [BitVec.ofNat 8 c] else u)) ∧
  (∀ s : State,
    (s.halted = false → s.twin.lease = .active → s.twin.chord.ver ≠ 0 → let u := s.passTo s.twin.cycleDue
      exec .syncCycleStart s = .next (u.sendCopy u.twin.nextFull)) ∧
    ((s.twin.lease ≠ .active ∨ s.twin.chord.ver = 0) → exec .syncCycleStart s = .next s) ∧
    (∀ msg b, let u := (s.chordOpen 0x10 msg).2
      (s.chordOpen 0x10 msg).1 = some b → u.twin.lease = .standby → 8 ≤ b.length →
      let nf := match u.twin.rxCopy with
        | some (q, n, f) => if q = beAt b 0 8 then (n, f) else (0, u.twin.nextFull)
        | none => (0, u.twin.nextFull)
      let r := State.applyRecords (b.length / 16 + 1) u (b.drop 8)
      exec (.copyRecordsReceive msg) s =
        .next (({ r.2 with twin := { r.2.twin with rxCopy := some (beAt b 0 8, nf.1 + r.1, nf.2), nextFull := false } }).retime false)) ∧
    (∀ msg b, let u := (s.chordOpen 0x11 msg).2
      (s.chordOpen 0x11 msg).1 = some b → u.twin.lease = .standby → b.length = 16 →
      let nf := match u.twin.rxCopy with
        | some (q, n, f) => if q = beAt b 0 8 then (n, f) else (0, u.twin.nextFull)
        | none => (0, u.twin.nextFull)
      (nf.1 = beAt b 8 4 → exec (.copyEndReceive msg) s = .next (({ u with twin := { u.twin with
        rxCopy := none, nextFull := false, copyAck := beAt b 0 8, ackedInSession := u.twin.ackedInSession || nf.2
        fullSinceReset := u.twin.fullSinceReset || nf.2 } }).chordSend 0x12 (be 8 (beAt b 0 8))).syncRestore) ∧
      (nf.1 ≠ beAt b 8 4 → exec (.copyEndReceive msg) s =
        .next (({ u with twin := { u.twin with rxCopy := none, nextFull := true } }).chordSend 0x13 []))) ∧
    (∀ msg b c, let u := (s.chordOpen 0x12 msg).2
      (s.chordOpen 0x12 msg).1 = some b → (u.twin.openCopies.find? fun c => c.seq == beAt b 0 8) = some c →
      let w := u.setCeilings c.standing
      let x := { w with twin := { w.twin with
        copyAck := c.seq, acked := c.sent, ackedInSession := true, openCopies := w.twin.openCopies.filter fun y => c.seq < y.seq } }
      let y := if u.twin.stale ∧ c.full ∧ u.twin.lease = .active then
        ({ x with twin := { x.twin with stale := false, wantCurrent := true } }).arbSend 0x45 0 else x
      (y.twin.handover = none → exec (.copyAckReceive msg) s = .next y) ∧
      (∀ cmd t0 n, y.twin.handover = some (cmd, t0, n) →
        (n = c.seq → y.twin.lease = .handover → exec (.copyAckReceive msg) s =
          .next (((((y.arbSend 0x43 0).dropWaiting.setLease .standby).shadowAll).handoverDone .ok).raise 0x306 [])) ∧
        (n ≠ c.seq ∨ y.twin.lease ≠ .handover → exec (.copyAckReceive msg) s = .next y))) ∧
    (∀ sent h a c, (h, a) ∈ s.assoc.ctx → a.recv = false → a.status ≠ .free → sent.lookup h = some c →
      (h, { a with twinCeil := some (c.next, c.leap), twinHeld := false }) ∈ (s.setCeilings sent).assoc.ctx) ∧
    (∀ (c : OpenCopy) h n, (h, n) ∈ c.standing ↔ (h, n) ∈ c.sent ∧ h ∉ c.freed) ∧
    (∀ msg b, (s.chordOpen 0x12 msg).1 = some b → ((s.chordOpen 0x12 msg).2.twin.openCopies.find? fun c => c.seq == beAt b 0 8) = none →
      exec (.copyAckReceive msg) s = .next (s.chordOpen 0x12 msg).2) ∧
    (∀ msg, let q := s.chordOpen 0x13 msg
      (q.1 ≠ none → q.2.twin.lease = .active → exec (.fullRequestReceive msg) s =
        .next { q.2 with twin := { q.2.twin with nextFull := true } }) ∧
      (q.1 = none ∨ q.2.twin.lease ≠ .active → exec (.fullRequestReceive msg) s = .next q.2)) ∧
    (∀ msg, ((s.chordOpen 0x10 msg).1 = none → exec (.copyRecordsReceive msg) s = .next (s.chordOpen 0x10 msg).2) ∧
      ((s.chordOpen 0x11 msg).1 = none → exec (.copyEndReceive msg) s = .next (s.chordOpen 0x11 msg).2) ∧
      ((s.chordOpen 0x12 msg).1 = none → exec (.copyAckReceive msg) s = .next (s.chordOpen 0x12 msg).2)))

/-- Leases (R450 to R456, R459): a request or renewal goes out every LEASE_MS / 4, with COPY_CURRENT where it is owed; an accepted grant to a
LAPSED or an ACTIVE unit extends the lease, marking a copy stale or current as its code says, and to a STANDBY makes it ACTIVE; an accepted
DENY makes a LAPSED unit STANDBY with its contexts SHADOW; what R452 refuses is counted with 0x307 and changes neither lease nor epoch; the
lease's end makes the unit LAPSED and ends a handover; the twin hold and the wait to restore act when they have lasted. -/
def Obligations.LeasesFollowTheArbiter : Prop :=
  ∀ s : State,
    (s.halted = false → (s.twin.lease = .standby ∨ s.twin.lease = .active ∨ s.twin.lease = .lapsed) → s.twin.arbRefused = false →
      s.twin.arb.ver ≠ 0 →
      let u := s.passTo s.twin.requestDue
      let v := { u with twin := { u.twin with requestDue := u.clk + 250000 * u.twin.leaseMs } }
      let w := v.arbSend 0x40 (if v.twin.lease = .standby then b2n v.standbyReady else 2)
      exec .leaseRequestSend s = .next (if w.twin.lease = .active ∧ w.twin.wantCurrent then w.arbSend 0x45 0 else w)) ∧
    (s.twin.lease = .unconfigured ∨ s.twin.lease = .solo ∨ s.twin.lease = .handover ∨ s.twin.arbRefused = true ∨ s.twin.arb.ver = 0 →
      exec .leaseRequestSend s = .next s) ∧
    (∀ msg t0, s.halted = false → s.arbAccept 0x41 msg = some t0 →
      let ends := t0 + min (1000 * beAt msg 12 4) (1000000 * s.twin.leaseMs)
      let x := { s with twin := { s.twin with epoch := beAt msg 24 8, leaseEnd := ends } }
      (ends ≤ s.clk → exec (.leaseGrant msg) s = .next { s with twin := { s.twin with epoch := beAt msg 24 8 } }) ∧
      (s.clk < ends →
        (s.twin.lease = .lapsed → exec (.leaseGrant msg) s = .next (x.setLease .active)) ∧
        (s.twin.lease = .active → leAt msg 11 1 = 1 → exec (.leaseGrant msg) s = .next (if s.twin.stale ∨ (s.twin.wantCurrent = true ∧ s.twin.staleAsked = false) then x
          else ({ x with twin := { x.twin with stale := true, wantCurrent := false, holdSince := none } }).raise 0x303 [])) ∧
        (s.twin.lease = .active → leAt msg 11 1 ≠ 1 → exec (.leaseGrant msg) s = .next (if s.twin.wantCurrent then
          ({ x with twin := { x.twin with wantCurrent := false } }).raise 0x304 [] else x)) ∧
        (s.twin.lease = .standby → ∃ t : State, exec (.leaseGrant msg) s = .next t ∧
          t.twin.lease = .active ∧ t.twin.leaseEnd = ends ∧ t.twin.epoch = beAt msg 24 8 ∧ t.twin.stale = false ∧ t.twin.nextFull = true ∧
          t.twin.asked = false ∧ t.twin.asking = [])))  ∧
    (∀ msg, s.halted = false → s.arbAccept 0x41 msg = none → exec (.leaseGrant msg) s = .next s.arbRefuse) ∧
    (∀ msg, s.halted = false → s.arbAccept 0x42 msg = none → exec (.leaseDeny msg) s = .next s.arbRefuse) ∧ s.arbRefuse.twin = s.twin ∧
    (∀ msg t0, s.halted = false → s.arbAccept 0x42 msg = some t0 →
      let x := { s with twin := { s.twin with epoch := beAt msg 24 8 } }
      (s.twin.lease = .lapsed → exec (.leaseDeny msg) s = .next (x.setLease .standby).shadowAll) ∧
      (s.twin.lease ≠ .lapsed → exec (.leaseDeny msg) s = .next x)) ∧
    (s.twin.lease = .active ∨ s.twin.lease = .handover →
      exec .leaseExpiry s = .next (((s.passTo s.twin.leaseEnd).setLease .lapsed).handoverDone .leaseLost)) ∧
    (s.twin.lease ≠ .active → s.twin.lease ≠ .handover → exec .leaseExpiry s = .next s) ∧
    (∀ t0, s.halted = false → s.twin.holdSince = some t0 → s.twin.lease = .active → s.twin.staleUs ≠ 0 → s.twin.staleAsked = false →
      s.twin.stale = false → 2 ≤ s.twin.arb.ver → let u := s.passTo (t0 + 1000 * s.twin.staleUs)
      exec .staleRequestSend s = .next (({ u with twin := { u.twin with staleAsked := true } }).arbSend 0x44 0)) ∧
    (s.twin.holdSince = none ∨ s.twin.lease ≠ .active ∨ s.twin.staleUs = 0 ∨ s.twin.staleAsked = true ∨ s.twin.stale = true ∨ s.twin.arb.ver < 2 →
      exec .staleRequestSend s = .next s) ∧
    (∀ t0, s.twin.restoreDue = some t0 → let u := (s.passTo t0).chordSend 0x14 []
      exec .waitToRestoreExpiry s =
        .next (({ u with twin := { u.twin with restoreDue := none, restoreDone := true, asked := true } }).raise 0x308 [])) ∧
    (s.twin.restoreDue = none → exec .waitToRestoreExpiry s = .next s)

/-- A lane's way to LOCKED (R425 to R427, R430, R432, Table 18.4): PLL, SIGNAL, CDR, ADAPT and, on Chord, TRAIN, each left by its own event; a
lane that finds phase lock within 10 ms of its loss relocks at once; entering LOCKED raises 0x321. Each row changes nothing in any other lane
state, and nothing for a Chord lane above 8.

Loss of a lane (R422, R425 to R427, R433, R436, R438): LOL sets its latch, raises 0x320 and returns the lane to CDR with its coefficients kept;
a lost signal returns it to SIGNAL with 0x322; 500 ms without LOCKED raise 0x323 and the lane tries again; a lost reference clock takes every
LOCKED lane it serves down and raises 0x324; an Ethernet port whose lanes are all LOCKED comes up at alignment lock; a checker that loses its
pattern raises 0x325; a running eye point ends with its count. -/
def Obligations.LanesReachAndLoseLock : Prop :=
  (∀ (l : Lane) (s : State),
    (laneExists l = false → exec (.transmitPllLock l) s = .next s ∧ exec (.signalDetect l) s = .next s ∧ exec (.phaseLock l) s = .next s ∧
      exec (.adaptConverged l) s = .next s ∧ (∀ i, exec (.trainComplete l i) s = .next s) ∧ exec (.fastRelockExpiry l) s = .next s) ∧
    (laneExists l = true →
      let k := laneKey l
      ((s.lane k).mode = .pll → exec (.transmitPllLock l) s = .next (s.setLane k { s.lane k with mode := .signal })) ∧
      ((s.lane k).mode ≠ .pll → exec (.transmitPllLock l) s = .next s) ∧
      ((s.lane k).mode = .signal → exec (.signalDetect l) s = .next ((s.setLane k { s.lane k with mode := .cdr, signal := true }).laneChanged k)) ∧
      ((s.lane k).mode ≠ .signal → exec (.signalDetect l) s = .next s) ∧
      ((s.lane k).mode = .cdr → (s.lane k).kept = none → exec (.phaseLock l) s = .next (s.setLane k { s.lane k with mode := .adapt })) ∧
      (∀ t0, (s.lane k).mode = .cdr → (s.lane k).kept = some t0 →
        (s.clk ≤ t0 + 10000000 → exec (.phaseLock l) s = .next (s.laneLock k)) ∧
        (t0 + 10000000 < s.clk → exec (.phaseLock l) s = .next (s.setLane k { s.lane k with mode := .adapt, kept := none }))) ∧
      ((s.lane k).mode ≠ .cdr → exec (.phaseLock l) s = .next s ∧ exec (.fastRelockExpiry l) s = .next s) ∧
      ((s.lane k).mode = .adapt → 128 ≤ k → ∃ t : State, exec (.adaptConverged l) s = .next t ∧ (t.lane k).mode = .train ∧
        t = { s with lanes := t.lanes, freeCount := s.freeCount + 1 } ∧ ∀ j, j ≠ k → t.lane j = s.lane j) ∧
      ((s.lane k).mode = .adapt → k < 128 → ∃ (u : State) (c : BitVec 8), exec (.adaptConverged l) s = .next (u.laneLock k) ∧
        u = { s.setLane k { s.lane k with ctle := c } with freeCount := s.freeCount + 1 }) ∧
      ((s.lane k).mode ≠ .adapt → exec (.adaptConverged l) s = .next s) ∧
      (∀ inv, (s.lane k).mode = .train → exec (.trainComplete l inv) s =
        .next ((s.setLane k { s.lane k with inverted := inv && k != 136 }).laneLock k)) ∧
      (∀ inv, (s.lane k).mode ≠ .train → exec (.trainComplete l inv) s = .next s) ∧
      (s.laneLock k = ((s.setLane k { s.lane k with mode := .locked, kept := none, since := none
                                                    chkLock := bitOf (s.regN (laneOff k + 0xC)) 30 }).raise 0x321 (laneData k)).laneChanged k) ∧
      (∀ t0, (s.lane k).mode = .cdr → (s.lane k).kept = some t0 → exec (.fastRelockExpiry l) s =
        .next ((s.passTo (t0 + 10000000)).setLane k { (s.passTo (t0 + 10000000)).lane k with kept := none, ctle := 0 })))) ∧
  (∀ (l : Lane) (s : State),
    (laneExists l = false → exec (.lossOfLock l) s = .next s ∧ exec (.signalLoss l) s = .next s ∧ exec (.lockTimeout l) s = .next s ∧
      exec (.prbsCheckerLockLoss l) s = .next s ∧ ∀ e, exec (.eyeScanDone l e) s = .next s) ∧
    (laneExists l = true →
      let k := laneKey l
      ((s.lane k).mode = .locked → exec (.lossOfLock l) s =
        .next (((s.setLane k { (s.lane k).abortEye with mode := .cdr, lol := true, kept := some s.clk }).raise 0x320 (laneData k)).laneChanged k)) ∧
      ((s.lane k).mode ≠ .locked → exec (.lossOfLock l) s = .next s) ∧
      (((s.lane k).mode = .cdr ∨ (s.lane k).mode = .adapt ∨ (s.lane k).mode = .train ∨ (s.lane k).mode = .locked) → exec (.signalLoss l) s =
        .next (((s.setLane k { (s.lane k).abortEye with mode := .signal, signal := false, kept := none }).raise 0x322 (laneData k)).laneChanged k)) ∧
      (((s.lane k).mode = .off ∨ (s.lane k).mode = .pll ∨ (s.lane k).mode = .signal) → exec (.signalLoss l) s = .next s) ∧
      (∀ t0, (s.lane k).since = some t0 → (s.lane k).mode ≠ .off → (s.lane k).mode ≠ .locked →
        let u := s.passTo (t0 + 500000000)
        exec (.lockTimeout l) s = .next (((u.setLane k { u.lane k with mode := .signal, signal := false, kept := none, ctle := 0
                                                                       since := some u.clk }).raise 0x323 (laneData k)).laneChanged k)) ∧
      ((s.lane k).since = none ∨ (s.lane k).mode = .off ∨ (s.lane k).mode = .locked → exec (.lockTimeout l) s = .next s) ∧
      ((s.lane k).chkLock = true → exec (.prbsCheckerLockLoss l) s =
        .next ((s.setLane k { s.lane k with chkLock := false }).raise 0x325 (laneData k))) ∧
      ((s.lane k).chkLock = false → exec (.prbsCheckerLockLoss l) s = .next s) ∧
      (∀ e : Word32, (s.lane k).eyeBusy = true → exec (.eyeScanDone l e) s = .next (s.setLane k { s.lane k with
        eyeBusy := false, eye := 0x80000000#32 ||| BitVec.ofNat 32 (min (2 ^ 30 - 1) e.toNat) })) ∧
      (∀ e : Word32, (s.lane k).eyeBusy = false → exec (.eyeScanDone l e) s = .next s)) ∧
    (s.halted = false → (∀ j ∈ refclkLanes 0, (s.lane j).mode ≠ .locked) → exec (.refclkLoss 0) s = .next (s.raise 0x324 [0])) ∧
    (∀ j, refclkLanes 0 = List.range 32 ∧ refclkLanes 1 = (List.range 32).map (32 + ·) ∧ refclkLanes 3 = (List.range 32).map (96 + ·) ∧
      (j ∈ refclkLanes 2 ↔ (64 ≤ j ∧ j < 96) ∨ (128 ≤ j ∧ j < 137))) ∧
    (∀ c : Fin 4, s.halted = false → exec (.refclkLoss c) s =
      .next (((refclkLanes c.val).foldl (fun s k => s.laneLol k) s).raise 0x324 [BitVec.ofNat 8 c.val])) ∧
    (∀ (side : Side) (n : Fin 16) (sub : Fin 4), let lp := 64 * sideNo side + 4 * n.val + sub.val
      let p := s.lport lp
      let ready := p.busy && !p.up && p.mode != some 7 && !(s.lanesOf lp).isEmpty && (s.lanesOf lp).all s.laneLocked
      (ready = true → exec (.pcsAlignmentLock side n sub) s = .next (s.portLink lp true)) ∧
      (ready = false → exec (.pcsAlignmentLock side n sub) s = .next s)))

/-- Lane registers (R428, R429, R431, R433 to R436, Tables 18.6 to 18.11): LANE_CFG is stored (TX_REVERSE on line lanes 4n alone, log entry 149), and
a change of inversion, or of the loopback of an enabled port, makes a LOCKED lane declare LOL; a LANE_TXEQ whose taps sum above 63 is refused
with EQ_ERR; a pattern enable of a lane in service is ignored, on any other it starts the lane and clears the error count, and without one the
lane stops; INJECT adds one inverted bit; an eye point starts on a LOCKED lane and stops at once on any other (log entry 28).

PORT_ENABLE and PORT_DISABLE (R94, R190, R204, R207, R208, R425, R501, R502): an enable that R501 and R502 admit takes effect on every sub-port
it names and completes with OK, any other completes with the status of the first failing check; a disable stops its sub-ports and waits for
their drain, clearing FACET_MAINT of a line port, completes with OK when they have drained, and with DRAINED_LATE and a count when its time
runs out with frames held. -/
def Obligations.LaneRegistersAndPorts : Prop :=
  (∀ (l : Lane) (s : State) (v : Word32), s.halted = false →
    (laneExists l = false → exec (.laneCfgWrite l v) s = .next s ∧ exec (.laneTxeqWrite l v) s = .next s ∧ exec (.prbsCfgWrite l v) s = .next s ∧
      exec (.errorInject l v) s = .next s ∧ exec (.eyeScanGo l v) s = .next s) ∧
    (laneExists l = true →
      let k := laneKey l
      let mask := if 64 ≤ k ∧ k < 128 ∧ k % 4 = 0 then 0xFC000000 else 0xDC000000
      let new := v.toNat &&& mask
      let old := s.regN (laneOff k)
      let u := s.setReg (laneOff k) (BitVec.ofNat 32 new)
      let lb := fun x => if bits x 26 2 = 3 then 0 else bits x 26 2
      (128 ≤ k ∨ ((old ^^^ new) / 2 ^ 30 = 0 ∧ (lb old = lb new ∨ u.lanePortEnabled k = false)) → exec (.laneCfgWrite l v) s = .next u) ∧
      (k < 128 → (old ^^^ new) / 2 ^ 30 ≠ 0 ∨ (lb old ≠ lb new ∧ u.lanePortEnabled k = true) → exec (.laneCfgWrite l v) s = .next (u.laneLol k)) ∧
      (63 < tapSum k v.toNat → exec (.laneTxeqWrite l v) s = .next (s.setLane k { s.lane k with eqErr := true })) ∧
      (tapSum k v.toNat ≤ 63 → exec (.laneTxeqWrite l v) s = .next (s.setReg (laneOff k + 4) (BitVec.ofNat 32 (v.toNat % 2 ^ 30)))) ∧
      (bits v.toNat 30 2 ≠ 0 → s.laneInUse k = true → exec (.prbsCfgWrite l v) s = .next s ∧ exec (.errorInject l v) s = .next s) ∧
      (let w := s.setReg (laneOff k + 0xC) (BitVec.ofNat 32 (v.toNat &&& 0xFCF00000))
        let x := if bits v.toNat 30 2 ≠ 0 then w.startLane k else if w.laneInUse k then w else
          (w.stopLane k (if k < 128 then 0 else 3)).laneChanged k
        let y := x.setLane k { x.lane k with
          errors := if bitOf v.toNat 30 && !bitOf (s.regN (laneOff k + 0xC)) 30 then 0 else (x.lane k).errors
          chkLock := bitOf v.toNat 30 && ((x.lane k).chkLock || (x.lane k).mode == .locked) };
        (bits v.toNat 30 2 = 0 ∨ s.laneInUse k = false) →
          exec (.prbsCfgWrite l v) s = .next (if bitOf v.toNat 24 then y.inject k else y) ∧
          exec (.errorInject l v) s = .next (if bitOf v.toNat 24 then y.inject k else y)) ∧
      (∀ j, ((s.inject k).lane k).injected = (s.lane k).injected + 1 ∧ ((s.inject k).lane k).mode = (s.lane k).mode ∧
        (j ≠ k → (s.inject k).lane j = s.lane j)) ∧
      (let w := s.setReg (laneOff k + 0x14) (BitVec.ofNat 32 ((v.toNat &&& 0x607F007F) ||| min 20 (bits v.toNat 24 5) <<< 24));
        (bitOf v.toNat 31 = false → exec (.eyeScanGo l v) s = .next w) ∧
        (bitOf v.toNat 31 = true → (s.lane k).mode = .locked → exec (.eyeScanGo l v) s =
          .next (w.setLane k { s.lane k with eyeBusy := true, eye := (s.lane k).eye &&& 0x3FFFFFFF#32 })) ∧
        (bitOf v.toNat 31 = true → (s.lane k).mode ≠ .locked → exec (.eyeScanGo l v) s =
          .next (w.setLane k { s.lane k with eyeBusy := false, eye := ((s.lane k).eye &&& 0x3FFFFFFF#32) ||| 0x40000000#32 }))))) ∧
  (∀ (d : Desc) (s s0 : State),
    (Accepted d 0 [(8, 4), (0xC, 16)] s s0 →
      (portFieldsOk d = true → s0.enableStatus d = .ok → exec (.portEnable d) s = .next ((s0.enablePort d).done d .ok)) ∧
      (portFieldsOk d = true → s0.enableStatus d ≠ .ok → exec (.portEnable d) s = .next (s0.done d (s0.enableStatus d))) ∧
      (portFieldsOk d = false → exec (.portEnable d) s = .next (s0.done d .badRequest))) ∧
    (∀ i, i ∈ maskSubs (portMask d) → portFieldsOk d = true → s0.enableStatus d = .ok → ((s0.enablePort d).lport (portLp d i)).enabled = true ∧
      ((s0.enablePort d).lport (portLp d i)).mode = some (BitVec.ofNat 3 (portMode d))) ∧
    (Accepted d 0 [(8, 2), (0xB, 1)] s s0 → d.get 8 1 < 4 → (portSide d = 0 → portPath d = 0) → portNo d < 16 → portMask d ≠ 0 →
      portMask d < 2 ^ modeSubs ((s0.portModeNow (portSide d) (portNo d)).getD 2) →
      let m := if portSide d = 1 then s0.setReg (facetOff (portNo d) 0x40C) 0 else s0
      let u := ((maskSubs (portMask d)).foldl (fun s i => s.disableSub (portSide d) (portNo d) i) m).syncRestore
      let busy := (maskSubs (portMask d)).any fun i => (s0.lport (portLp d i)).busy
      (busy = true → exec (.portDisable d) s =
        .next { u with ports := { u.ports with disables := u.ports.disables ++
          [{ desc := d, side := if portSide d = 0 then .client else .line, port := portNo d, mask := portMask d
             due := u.clk + u.timeoutOf d 50000 }] } }) ∧
      (busy = false → exec (.portDisable d) s = .next (m.done d .ok))) ∧
    (Accepted d 0 [(8, 2), (0xB, 1)] s s0 → (4 ≤ d.get 8 1 ∨ 16 ≤ portNo d ∨ portMask d = 0 ∨
        2 ^ modeSubs ((s0.portModeNow (portSide d) (portNo d)).getD 2) ≤ portMask d ∨ (portSide d = 0 ∧ portPath d = 1)) →
      exec (.portDisable d) s = .next (s0.done d .badRequest)) ∧
    (∀ side n i, let p := s.lport (64 * side + (4 * n + i))
      (p.enabled = false → s.disableSub side n i = s) ∧
      (p.enabled = true → side ≠ 1 → s.disableSub side n i =
        (s.setLport (64 * side + (4 * n + i)) { p with enabled := false, draining := true, up := false }).discardPort side (4 * n + i)) ∧
      (p.enabled = true → side = 1 → s.disableSub side n i =
        ((s.setLport (64 * side + (4 * n + i)) { p with enabled := false, draining := true, up := false }).discardPort side
          (4 * n + i)).dropParkedOf (4 * n + i))) ∧
    (∀ side (n : Fin 16) x, (s.ports.disables.find? fun x => x.side == side && x.port == n.val && s.drained x) = some x →
      exec (.portDrainEnd side n) s = .next ((s.closePort x).done x.desc .ok)) ∧
    (∀ side (n : Fin 16), (s.ports.disables.find? fun x => x.side == side && x.port == n.val && s.drained x) = none →
      exec (.portDrainEnd side n) s = .next s) ∧
    (∀ (n : Fin 16) x, (s.ports.disables.find? fun x => x.side == .client && x.port == n.val) = some x →
      exec (.portDisableTimeout .client n) s = .next (((s.passTo x.due).closePort x).complete x.desc { status := .ok })) ∧
    (∀ (n : Fin 16) x, (s.ports.disables.find? fun x => x.side == .line && x.port == n.val) = some x →
      let r := (maskSubs x.mask).foldl (fun (e : Nat × State) i => (e.1 + (e.2.discardItems (4 * n.val + i)).1,
        (e.2.discardItems (4 * n.val + i)).2)) (0, s.passTo x.due)
      exec (.portDisableTimeout .line n) s = .next ((r.2.closePort x).complete x.desc
        (if r.1 = 0 then { status := .ok } else { status := .drainedLate, r0 := r.1 }))) ∧
    (∀ side (n : Fin 16), (s.ports.disables.find? fun x => x.side == side && x.port == n.val) = none →
      exec (.portDisableTimeout side n) s = .next s))

/-- LC_TRANSITION (R41, R43 to R46, R48, R49, Table 2.5): a step that the table gives, under its authorisation, burns the cells below its target
and closes its intent word, after the owner erase where the table names it; PERSONALISED to OWNED stores the owner's key hash and a fresh seed;
a bad token counts a failed attempt, a bad certificate its status, and every other step is BAD_STATE, all without a write; after 8 failures
all are LOCKED_OUT; while a rail warns the request is held before its first write. -/
def Obligations.LifeCycleTransitionsBurn : Prop :=
  ∀ (m : Mbx) (s : State) (p : List Byte), Serves m 0x0001 s p →
    let t := leAt p 0 1
    let arg := p.drop 1
    let dbg := m = Mbx.debugPort
    let cert := s.checkCert (if t = 12 then 3 else 2) s.certOwner arg
    let token := s.lc < 8 ∧ s.lc % 2 = 0 ∧ t = s.lc + 1 ∧ dbg
    let byCert := (t = 12 ∧ 9 ≤ s.lc ∧ s.lc < 12) ∨ (t = 11 ∧ (s.lc = 9 ∨ s.lc = 10))
    let plain := dbg ∧ ((t = 12 ∧ s.lc < 9) ∨ (s.lc < 8 ∧ s.lc % 2 = 1 ∧ t = s.lc + 1) ∨ (s.lc = 8 ∧ t = 9))
    let given := plain ∨ (token ∧ s.tokenOk (s.lc / 2) arg = true) ∨ (byCert ∧ cert = 0)
    let owned := s.lc = 9 ∧ t = 10 ∧ ¬ dbg
    let o := s.apex.otp
    let burnt := fun (e : Nat) (o' : OtpState) => { o' with
      lcCells := o.lcCells ||| lcCellsOf t, intent := o.intent ++ [intentWord s.lc t e ||| (1#32 <<< 31)] }
    let erased := { o with ownerHash := BitVec.allOnes 384, ownerSeed := BitVec.allOnes 256, minBoot := BitVec.allOnes 6
                           tamperEn := BitVec.allOnes 2, ownerErased := true }
    (8 ≤ s.apex.failed → exec (.lcTransition m) s = .next (s.finish m { status := 6 })) ∧
    (s.apex.failed < 8 →
      (p = [] → exec (.lcTransition m) s = .next (s.finish m { status := 8 })) ∧
      (p ≠ [] →
        (given → s.cpr.warn = [] → exec (.lcTransition m) s =
          .next ((({ s with apex := { s.apex with otp := if t = 11 ∨ t = 12 then burnt 1 erased else burnt 0 o } }).raise 0x001 []).finish m
            { status := 0 })) ∧
        (owned → arg.length = 48 → s.cpr.warn = [] → exec (.lcTransition m) s =
          .next ((({ s with
            freeCount := s.freeCount + 1
            apex := { s.apex with otp := burnt 0 { o with
              ownerHash := BitVec.ofNat 384 (Crypto.ofBytes (arg.map BitVec.toNat))
              ownerSeed := BitVec.ofNat 256 (s.draw 256).1 } } }).raise 0x001 []).finish m { status := 0 })) ∧
        (given ∨ (owned ∧ arg.length = 48) → s.cpr.warn ≠ [] →
          (s.apex.heldWrite = none → exec (.lcTransition m) s =
            .next { s with apex := { s.apex with heldWrite := some { mbx := m, since := s.clk, begun := false } } }) ∧
          (s.apex.heldWrite ≠ none → exec (.lcTransition m) s = .next s)) ∧
        (token → s.tokenOk (s.lc / 2) arg = false → exec (.lcTransition m) s = .next (s.failedAttempt.finish m { status := 4 })) ∧
        (byCert → cert ≠ 0 → exec (.lcTransition m) s = .next (s.finish m { status := cert })) ∧
        (owned → arg.length ≠ 48 → exec (.lcTransition m) s = .next (s.finish m { status := 8 })) ∧
        (¬ plain → ¬ token → ¬ byCert → ¬ owned → exec (.lcTransition m) s = .next (s.finish m { status := 1 }))))

/-- R51: MEAS_EXTEND of MEAS0, MEAS1 or MEAS3 completes with status LOCKED, which is 5, and leaves the register unchanged, as it does every
measurement register; the request is otherwise well formed. -/
def Obligations.LockedMeasurementsStay : Prop :=
  ∀ (m : Mbx) (s : State) (p : List Byte), Serves m 0x0020 s p → s.lc ≠ 12 → p.length = 52 → leAt p 1 3 = 0 →
    (leAt p 0 1 = 0 ∨ leAt p 0 1 = 1 ∨ leAt p 0 1 = 3) →
    exec (.measExtend m) s = .next (s.finish m { status := 5 }) ∧ (s.finish m { status := 5 }).apex.meas = s.apex.meas

/-- SECVER_RAISE and the debug rows (R50, R53, R55 to R57, R60): a minimum only rises, the boot loader's in OWNED, the patch's under a vendor
certificate, and waits while a rail warns; a challenge is 32 fresh bytes and the last alone is valid; a certificate that verifies adds its
rights under its signer and uses the challenge up; one that does not, and every other refused DBG_UNLOCK, counts a failed attempt with 0x004;
an extension hashes the old value and the digest into a register that is not locked; ALARM_ACK clears the latch. -/
def Obligations.DebugUnlockAndMeasurements : Prop :=
  ∀ (m : Mbx) (s : State) (p : List Byte),
    (Serves m 0x0040 s p →
      let ty := leAt p 0 1
      let v := leAt p 1 1
      let st := if ty = 2 then (if s.lc ≠ 10 then 1 else if p.length ≠ 2 ∨ 63 < v then 8 else 0)
        else if ty = 1 then (if s.lcService = false then 1 else if 63 < v then 8 else s.checkCert 4 false (p.drop 2)) else 8
      (st ≠ 0 → exec (.secverRaise m) s = .next (s.finish m { status := st })) ∧
      (st = 0 → s.cpr.warn ≠ [] → s.apex.heldWrite = none → exec (.secverRaise m) s =
        .next { s with apex := { s.apex with heldWrite := some { mbx := m, since := s.clk, begun := false } } }) ∧
      (st = 0 → s.cpr.warn ≠ [] → s.apex.heldWrite ≠ none → exec (.secverRaise m) s = .next s) ∧
      (st = 0 → s.cpr.warn = [] → ∃ o : OtpState, exec (.secverRaise m) s = .next (({ s with apex := { s.apex with otp := o } }).finish m { status := 0 }) ∧
        (ty = 2 → o = { s.apex.otp with minBoot := o.minBoot } ∧ o.minBoot.toNat = max s.apex.otp.minBoot.toNat v) ∧
        (ty = 1 → o = { s.apex.otp with minPatch := o.minPatch } ∧ o.minPatch.toNat = max s.apex.otp.minPatch.toNat v))) ∧
    (Serves m 0x0010 s p →
      (s.lcService = false → exec (.dbgChallenge m) s = .next (s.finish m { status := 1 })) ∧
      (s.lcService = true → p ≠ [] → exec (.dbgChallenge m) s = .next (s.finish m { status := 8 })) ∧
      (s.lcService = true → p = [] → ∃ c : BitVec 256, exec (.dbgChallenge m) s = .next (({ s with
        freeCount := s.freeCount + 1, apex := { s.apex with challenge := some c } }).finish m { status := 0, bytes := le 32 c.toNat }))) ∧
    (Serves m 0x0011 s p →
      let st := if s.lcService = false then 1 else s.checkCert 1 s.certOwner p
      let r := s.certRights ||| BitVec.ofNat 16 (leAt p 0x12 2)
      let spent := ({ s with apex := { s.apex with challenge := none, failed := s.apex.failed + 1 } }).raise 0x004 []
      (8 ≤ s.apex.failed → exec (.dbgUnlock m) s = .next (spent.finish m { status := 6 })) ∧
      (s.apex.failed < 8 → st ≠ 0 → exec (.dbgUnlock m) s = .next (spent.finish m { status := st })) ∧
      (s.apex.failed < 8 → st = 0 → exec (.dbgUnlock m) s = .next ((({ s with apex := { s.apex with
        challenge := none, opened := s.apex.opened || leAt p 0x12 2 % 1024 != 0
        rights := if s.certOwner then s.apex.rights else r
        ownerRights := if s.certOwner then r else s.apex.ownerRights } }).raise 0x003 (le 2 r.toNat)).finish m { status := 0 }))) ∧
    (Serves m 0x0020 s p →
      let i := leAt p 0 1
      let bad := p.length ≠ 52 ∨ 5 < i ∨ leAt p 1 3 ≠ 0
      (s.lc = 12 → exec (.measExtend m) s = .next (s.finish m { status := 1 })) ∧
      (s.lc ≠ 12 → bad → exec (.measExtend m) s = .next (s.finish m { status := 8 })) ∧
      (s.lc ≠ 12 → ¬ bad → (i = 0 ∨ i = 1 ∨ i = 3) → exec (.measExtend m) s = .next (s.finish m { status := 5 })) ∧
      (s.lc ≠ 12 → ¬ bad → (i = 2 ∨ i = 4 ∨ i = 5) → exec (.measExtend m) s = .next (({ s with apex := { s.apex with
        meas := tput 0 s.apex.meas i (Crypto.sha384 (beBytes 48 (tget 0 s.apex.meas i).toNat ++ p.drop 4)) } }).finish m { status := 0 }))) ∧
    (Serves m 0x0021 s p →
      (s.lc = 12 → exec (.measRead m) s = .next (s.finish m { status := 1 })) ∧
      (s.lc ≠ 12 → p.length ≠ 1 ∨ 5 < leAt p 0 1 → exec (.measRead m) s = .next (s.finish m { status := 8 })) ∧
      (s.lc ≠ 12 → p.length = 1 → leAt p 0 1 ≤ 5 → exec (.measRead m) s =
        .next (s.finish m { status := 0, bytes := beBytes 48 (tget 0 s.apex.meas (leAt p 0 1)).toNat }))) ∧
    (Serves m 0x0030 s p →
      (s.lc = 12 → exec (.alarmAck m) s = .next (s.finish m { status := 1 })) ∧
      (s.lc ≠ 12 → p ≠ [] → exec (.alarmAck m) s = .next (s.finish m { status := 8 })) ∧
      (s.lc ≠ 12 → p = [] → exec (.alarmAck m) s =
        .next (({ s with apex := { s.apex with cause := 0, railId := 0 } }).finish m { status := 0 })))

/-- Sealing (R64, R76, R83, R86 to R90): SEAL returns a blob sealed under the key of the state and the policy; UNSEAL opens one where the tag
verifies and it is exportable; UNSEAL_TO_SLOT puts the key in the pending half of a slot and returns the KCV; SEAL_MIGRATE seals again with
the next generation; BLOB_COMMIT programs the sector and reads it back, held while a rail warns; BLOB_FETCH returns the blob at an offset.
Each refusal has the status of the first check that fails. -/
def Obligations.SealingCommandsKeepTheirPayload : Prop :=
  ∀ (m : Mbx) (s : State) (p : List Byte),
    (Serves m 0x0050 s p →
      let attr := leAt p 1 1
      let st := if s.lcService = false then 1
        else if p.length < 13 ∨ 332 < p.length ∨ 64 ≤ leAt p 0 1 ∨ 16 ≤ attr ∨ bits attr 2 2 = 3 then 8
        else if s.axis.serving = false then 9 else 0
      let q := s.sealBlob (leAt p 0 1) attr (leAt p 2 2) (leAt p 4 8) (p.drop 12) [];
      (st ≠ 0 → exec (.seal m) s = .next (s.finish m { status := st })) ∧
      (st = 0 → exec (.seal m) s = .next (q.2.finish m { status := 0, bytes := q.1 }))) ∧
    (Serves m 0x0051 s p →
      (s.lcService = false → exec (.unseal m) s = .next (s.finish m { status := 1 })) ∧
      (s.lcService = true → s.unsealBlob p = none → exec (.unseal m) s = .next (s.finish m { status := 0xA })) ∧
      (∀ pt, s.lcService = true → s.unsealBlob p = some pt → exec (.unseal m) s =
        .next (s.finish m (if bitOf (leAt p 0x11 1) 0 then { status := 0, bytes := pt } else { status := 0xB })))) ∧
    (Serves m 0x0052 s p →
      let b := p.drop 4
      let cls := bits (leAt b 0x11 1) 2 2
      let alg := leAt p 2 1
      let n := algLen (BitVec.ofNat 2 alg)
      let st := if s.lcService = false then 1 else if p.length < 4 ∨ 2 < alg ∨ 32 ≤ leAt p 3 1 then 8
        else if s.axis.serving = false then 9 else if s.unsealBlob b = none then 0xA else 0;
      (st ≠ 0 → exec (.unsealToSlot m) s = .next (s.finish m { status := st })) ∧
      (∀ pt, st = 0 → s.unsealBlob b = some pt →
        let bad := cls = 0 ∨ slotExists cls (leAt p 0 2) = false ∨ pt.length ≠ n ∨ usageOk cls (leAt p 3 1) = false
        let key := Crypto.ofBytes (pt.map BitVec.toNat)
        (bad → exec (.unsealToSlot m) s = .next (s.finish m { status := 8 })) ∧
        (¬ bad → exec (.unsealToSlot m) s = .next ((s.stagePending (slotKey cls (leAt p 0 2)) alg (leAt p 3 1) false [] key).finish m
          { status := 0, bytes := le 4 (kcv n key) })))) ∧
    (Serves m 0x0053 s p →
      let n := leAt p 0 1
      let b := p.drop (4 + 52 * n)
      let reg := fun i => leAt p (4 + 52 * i) 1
      let st := if s.lcService = false then 1
        else if (n ≠ 1 ∧ n ≠ 2) ∨ leAt p 1 3 ≠ 0 ∨ 5 < reg 0 ∨ leAt p 5 3 ≠ 0 ∨ (n = 2 ∧ (5 < reg 1 ∨ leAt p 57 3 ≠ 0)) then 8
        else if s.unsealBlob b = none then 0xA else 0
      let ex := if n = 1 then [(reg 0, slice p 8 48)] else [(reg 0, slice p 8 48), (reg 1, slice p 60 48)];
      (st ≠ 0 → exec (.sealMigrate m) s = .next (s.finish m { status := st })) ∧
      (∀ pt, st = 0 → s.unsealBlob b = some pt →
        let q := s.sealBlob (leAt b 0x10 1) (leAt b 0x11 1 ||| 2) (leAt b 0x12 2) (leAt b 8 8 + 1) pt ex
        exec (.sealMigrate m) s = .next (q.2.finish m { status := 0, bytes := q.1 }))) ∧
    (Serves m 0x0054 s p →
      let off := leAt p 0 4
      let st := if s.lcService = false then 1
        else if p.length < 5 ∨ off % 4096 ≠ 0 ∨ s.apex.flashErase = false ∨ s.apex.flashSize < off + 4096 ∨ s.sectorReserved off = true then 8
        else 0
      let q := s.programmed (p.drop 4);
      (st ≠ 0 → exec (.blobCommit m) s = .next (s.finish m { status := st })) ∧
      (st = 0 → s.cpr.warn ≠ [] → s.apex.heldWrite = none → exec (.blobCommit m) s =
        .next { s with apex := { s.apex with heldWrite := some { mbx := m, since := s.clk, begun := false } } }) ∧
      (st = 0 → s.cpr.warn ≠ [] → s.apex.heldWrite ≠ none → exec (.blobCommit m) s = .next s) ∧
      (st = 0 → s.cpr.warn = [] → exec (.blobCommit m) s = .next (({ q.2 with apex := { q.2.apex with
        flash := q.1.zipIdx.foldl (fun t (x, i) => tput 0xFF t (off + i) x)
          (q.2.apex.flash.filter fun e => !(off ≤ e.1 && e.1 < off + 4096)) } }).finish m { status := if q.1 = p.drop 4 then 0 else 0xC }))) ∧
    (Serves m 0x0055 s p →
      let off := leAt p 0 4
      let h := s.flashBytes off 0x38;
      (s.lcService = false → exec (.blobFetch m) s = .next (s.finish m { status := 1 })) ∧
      (s.lcService = true → p.length ≠ 4 ∨ s.apex.flashSize ≤ off → exec (.blobFetch m) s = .next (s.finish m { status := 8 })) ∧
      (s.lcService = true → p.length = 4 → off < s.apex.flashSize → exec (.blobFetch m) s =
        .next (s.finish m (if blobOk h then { status := 0, bytes := s.flashBytes off (leAt h 6 2 + 72) } else { status := 0xD }))))

/-- Mailboxes, held requests and the release of Compass (R39, R40, R46, R47, R49, R53, R54, R60, R397, R536): GO submits a request and is owed a
BUSY while one is before Apex; an answer clears BUSY, sets DONE and fills the response buffer, after which a waiting unknown request is
answered; out of turn, another's code, or before boot no row acts; a debug request under a hold answers BAD_STATE with its code, an overlong
one BAD_REQUEST; a warning of 1 s ends a held request; Compass is released once, when Apex has booted and nothing holds it. -/
def Obligations.MailboxAnswersAndRelease : Prop :=
  ∀ (m : Mbx) (s : State),
    (∀ (src : Source) (v : Word32), s.apex.held = false → (src = .compass → s.halted = false) → src.mbx = m →
      let x := s.mbx m
      let y := if bitOf v.toNat 1 ∧ x.done then
          (if x.owed ∧ ¬ x.busy then { x with owed := false, resp := bufOf [0, 0, 9, 0] } else { x with done := false }) else x
      let go := s.setMbx m { y with busy := true };
      (bitOf v.toNat 0 = false → exec (.registerWrite 0x00100000#32 v src) s = .next (s.setMbx m y)) ∧
      (bitOf v.toNat 0 = true → x.busy = true → exec (.registerWrite 0x00100000#32 v src) s = .next (s.setMbx m { y with owed := true })) ∧
      (bitOf v.toNat 0 = true → x.busy = false → exec (.registerWrite 0x00100000#32 v src) s = .next (go.mbxUnknown m)) ∧
      (x.code ∈ mbxCodes → go.mbxUnknown m = go)) ∧
    (∀ r : ApexReply, ((s.respond m r).mbx m).busy = false ∧ ((s.respond m r).mbx m).done = true ∧
      ((s.respond m r).mbx m).resp = bufOf (le 2 r.bytes.length ++ le 2 r.status ++ r.bytes) ∧ (s.respond m r).apex.lastServed = m ∧
      (s.respond m r).apex.otp = s.apex.otp ∧ s.respond m r = { s with apex := (s.respond m r).apex } ∧
      s.finish m r = (s.respond m r).mbxUnknown (if m = .compass then .debugPort else .compass)) ∧
    (∀ c ∈ [(Instr.lcTransition m, 0x01), (.dbgChallenge m, 0x10), (.dbgUnlock m, 0x11), (.measExtend m, 0x20), (.measRead m, 0x21),
        (.alarmAck m, 0x30), (.secverRaise m, 0x40), (.seal m, 0x50), (.unseal m, 0x51), (.unsealToSlot m, 0x52), (.sealMigrate m, 0x53),
        (.blobCommit m, 0x54), (.blobFetch m, 0x55)],
      (s.apex.booted = false ∨ s.mbxTurn m = false ∨ (s.mbx m).code ≠ c.2 ∨ s.otherHeld m = true → exec c.1 s = .next s) ∧
      (s.apex.booted = true → s.mbxTurn m = true → (s.mbx m).code = c.2 → s.otherHeld m = false →
        (s.apex.holdCode ≠ 0 → m = .debugPort →
          exec c.1 s = .next ((s.refuseRequest c.2).finish m { status := 1, bytes := [s.apex.holdCode] })) ∧
        ((s.apex.holdCode = 0 ∨ m = .compass) → 508 < (s.mbx m).len → exec c.1 s = .next ((s.refuseRequest c.2).finish m { status := 8 })))) ∧
    (∀ h, s.apex.heldWrite = some h →
      (h.mbx = m → h.begun = false → s.cpr.warn ≠ [] → exec (.supplyHoldTimeout m) s =
        .next (((({ s.passTo (h.since + 1000000000) with apex := { (s.passTo (h.since + 1000000000)).apex with heldWrite := none } }).raise
          0x007 []).finish m { status := 7 }))) ∧
      (h.mbx ≠ m ∨ h.begun = true ∨ s.cpr.warn = [] → exec (.supplyHoldTimeout m) s = .next s)) ∧
    (s.apex.heldWrite = none → exec (.supplyHoldTimeout m) s = .next s) ∧
    (s.apex.booted = true → s.rings.released = false → s.apex.holdCode = 0 → s.lc ≠ 12 → s.axis.serving = true →
      let a := { s with rings := { s.rings with released := true }, apex := { s.apex with measLock := true } }
      let b := if s.apex.measLock = false ∧ s.apex.cause ≠ 0 then a.raise 0x000 [BitVec.ofNat 8 s.apex.cause.toNat] else a
      let c := if s.apex.resumed then (({ b with apex := { b.apex with resumed := false } }).raise 0x002 []).raise 0x001 [] else b
      let d := if s.cpr.supplyOwed then ({ c with cpr := { c.cpr with supplyOwed := false } }).raise 0x022 [c.cpr.railId] else c
      exec .compassRelease s = .next (if s.apex.measLock then c else
        (List.range 4).foldl (fun s i => if s.hull.fail.getLsbD i then s.raise 0x224 [] else s) d)) ∧
    ((s.apex.booted = false ∨ s.rings.released = true ∨ s.apex.holdCode ≠ 0 ∨ s.lc = 12 ∨ s.axis.serving = false) →
      exec .compassRelease s = .next s)

/-- Locus table commands (R324, R325, R331, R334, R498 to R500): a read answers its records in order with the bytes written in R0, or BUFFER_FULL
with the bytes it needs; a write reads its buffer in full, then applies record after record, each refused by its own rule, and R0 counts those
applied; a bucket another owner locks makes the command wait; an INSERT of a present key and any other OP on an absent one fail; a hop that a
prefix names is IN_USE; an entry whose HIT is 1 is not deleted as idle.

Bucket locks (R332, R500): a lock of buckets that no other owner holds is held for 1 ms by the ring's owner, BUSY past 64 buckets; a command
whose bucket another owner holds waits, 1 ms unless it names a TIMEOUT, and then completes with LOCKED and the records it applied; an unlock
releases the owner's locks, NOT_FOUND if one is not its own, and the waiting commands run again in their order; the end of a lease does the
same and raises 0x0A6 with the owner. -/
def Obligations.LocusTablesAndBucketLocks : Prop :=
  (∀ (d : Desc) (s s0 : State),
    let t := d.get 8 1
    let n := d.get 0xC 4
    let a := d.get 0x10 8
    let b := d.get 0x18 4
    let me := ringOwner d.ring.val
    (Accepted d 1 [(8, 1), (0xC, 4), (0x10, 8), (0x18, 4)] s s0 →
      let bad := 4 < t ∨ n = 0 ∨ 4096 < n ∨ (t ≠ 1 ∧ b ≠ 0) ∨ (t = 1 ∧ (2 ^ 18 ≤ b ∨ 73728 < b % 2 ^ 17 + n))
      let stash := t = 1 ∧ bitOf d.flags 0 = true
      let len := n * (if t = 0 then 40 else if t = 1 then 128 else if t ≤ 3 then 24 else 16) + (if stash then 2052 else 0)
      let all := (List.range n).flatMap fun i => (slotsOf (b + i)).flatMap s0.slotBytes
      let out := if stash then all ++ ((List.range 64).flatMap fun i => s0.slotBytes (589824 + i)) ++ le 4 s0.locus.em.length else all
      let q := s0.readBuf d .locusDma a len
      let recs := fun bs => (List.range n).flatMap fun i => match t with
        | 0 => q.2.readKey (slice bs (i * 40) 40)
        | 2 => readPrefix q.2.locus.v4 32 (slice bs (i * 24) 24)
        | 3 => readPrefix q.2.locus.v6 128 (slice bs (i * 24) 24)
        | _ => q.2.readHop (slice bs (i * 16) 16)
      let put := fun (s : State) (bs : List Byte) =>
        let w := s.writeMem .locusDma me a bs
        w.2.complete d (if w.1 then { status := .ok, r0 := len } else { status := .badRequest });
      (bad → exec (.tblRead d) s = .next (s0.done d .badRequest)) ∧
      (¬ bad → s0.bufShort a len = true → exec (.tblRead d) s = .next (s0.complete d { status := .bufferFull, r0 := len })) ∧
      (¬ bad → s0.bufShort a len = false → t = 1 → exec (.tblRead d) s = .next (put s0 out)) ∧
      (∀ bs, ¬ bad → s0.bufShort a len = false → t ≠ 1 → q.1 = .ok bs → exec (.tblRead d) s = .next (put q.2 (recs bs))) ∧
      (∀ st, ¬ bad → s0.bufShort a len = false → t ≠ 1 → q.1 = .error st → exec (.tblRead d) s = .next (q.2.done d st))) ∧
    (Accepted d 0 [(8, 2), (0xC, 4), (0x10, 8)] s s0 → ∀ c ∈ [(Instr.tblWriteInsert d, 0), (.tblWriteReplace d, 1), (.tblWriteDelete d, 2),
        (.tblWriteClearHit d, 3)], d.get 9 1 = c.2 →
      let bad := 4 < t ∨ t = 1 ∨ n = 0 ∨ 4096 < n ∨ (t ≠ 0 ∧ c.2 = 3)
      let q := s0.readBuf d .locusDma a (n * writeStride t);
      (bad → exec c.1 s = .next (s0.done d .badRequest)) ∧
      (∀ st, ¬ bad → q.1 = .error st → exec c.1 s = .next (q.2.done d st)) ∧
      (∀ bs, ¬ bad → q.1 = .ok bs → d.opcode = 0x031 →
        let r := tblWriteGo d bs n 0 q.2
        (∀ rep, r.1 = .finish rep → exec c.1 s = .next (r.2.complete d rep)) ∧
        (∀ i, r.1 = .wait i → exec c.1 s = .next (r.2.withLocus { r.2.locus with
          waits := r.2.locus.waits ++ [{ desc := d, due := q.2.clk + q.2.timeoutOf d 1000000, done := i, buf := bs }] })))) ∧
    (∀ (bs : List Byte) (m i : Nat) (u : State),
      let r := slice bs (i * writeStride t) (writeStride t)
      let e := entryOf r
      let held := t = 0 ∧ (u.candidates e.profile e.key).any (u.lockedFor me) = true
      let w := u.writeRecord t (d.get 9 1) r;
      tblWriteGo d bs 0 i u = (.finish { status := .ok, r0 := i }, u) ∧ (held → tblWriteGo d bs (m + 1) i u = (.wait i, u)) ∧
      (¬ held → w.1 = none → tblWriteGo d bs (m + 1) i u = tblWriteGo d bs m (i + 1) w.2) ∧
      (∀ st, ¬ held → w.1 = some st → tblWriteGo d bs (m + 1) i u = (.finish { status := st, r0 := i }, w.2))) ∧
    (∀ (u : State) (r : List Byte), let e := entryOf r
      let bad := leAt r 0x12 2 ≠ 0 ∨ bitOf (leAt r 0x11 1) 7 = true
      let ins := u.emInsert true e
      (∀ op, bad → u.writeRecord 0 op r = (some .badRequest, u)) ∧
      (∀ x, ¬ bad → u.emFind e.profile e.key = some x → u.writeRecord 0 0 r = (some .exists_, u) ∧
        u.writeRecord 0 2 r = (none, u.emPut x.1 none) ∧ (x.1 < 589824 → u.writeRecord 0 1 r = (none, u.emPut x.1 (some e))) ∧
        (589824 ≤ x.1 → let q := (u.emPut x.1 none).placeEntry true e
          u.writeRecord 0 1 r = (none, q.2.emPut (q.1.getD x.1) (some e))) ∧
        u.writeRecord 0 3 r = (none, u.withLocus { u.locus with em := tins u.locus.em x.1 { x.2 with hit := false } })) ∧
      (¬ bad → u.emFind e.profile e.key = none → u.writeRecord 0 0 r = (if ins.1 then none else some .tableFull, ins.2) ∧
        ∀ op, 0 < op → u.writeRecord 0 op r = (some .notFound, u))) ∧
    (∀ (u : State) (r : List Byte) (op : Nat),
      (∀ x, writePrefix 32 524288 op u.locus.v4 r = .ok x → u.writeRecord 2 op r = (none, u.withLocus { u.locus with v4 := x })) ∧
      (∀ x, writePrefix 128 131072 op u.locus.v6 r = .ok x → u.writeRecord 3 op r = (none, u.withLocus { u.locus with v6 := x })) ∧
      (∀ e, writePrefix 32 524288 op u.locus.v4 r = .error e → u.writeRecord 2 op r = (some e, u)) ∧
      (∀ e, writePrefix 128 131072 op u.locus.v6 r = .error e → u.writeRecord 3 op r = (some e, u)) ∧
      u.writeRecord 4 op r = u.writeHop op r) ∧
    (Accepted d 0 [(0x10, 17)] s s0 → d.opcode = 0x032 →
      let p := (Desc.tblKey d).1
      let key := (Desc.tblKey d).2
      let held := (s0.candidates p key).any (s0.lockedFor me) = true
      (15 < d.get 0x20 1 → exec (.tblDeleteIfIdle d) s = .next (s0.done d .badRequest)) ∧
      (d.get 0x20 1 ≤ 15 → held → exec (.tblDeleteIfIdle d) s = .next (s0.withLocus { s0.locus with
        waits := s0.locus.waits ++ [{ desc := d, due := s0.clk + s0.timeoutOf d 1000000, done := 0, buf := [] }] })) ∧
      (d.get 0x20 1 ≤ 15 → ¬ held → s0.emFind p key = none → exec (.tblDeleteIfIdle d) s = .next (s0.done d .notFound)) ∧
      (∀ k e, d.get 0x20 1 ≤ 15 → ¬ held → s0.emFind p key = some (k, e) →
        (e.hit = true → exec (.tblDeleteIfIdle d) s = .next (s0.done d .hit)) ∧
        (e.hit = false → exec (.tblDeleteIfIdle d) s = .next ((if e.learned then (s0.emPut k none).count (cid 0x07 20 e.learnLp.toNat)
          else s0.emPut k none).done d .ok))))) ∧
  (∀ (d : Desc) (s s0 : State), let me := ringOwner d.ring.val
    (Accepted d 0 (lockFields d) s s0 → d.opcode = 0x033 →
      (s0.lockBuckets d = none → exec (.tblLock d) s = .next (s0.done d .badRequest)) ∧
      (∀ bs, s0.lockBuckets d = some bs →
        let held := bs.any (s0.lockedFor me)
        let l := bs.foldl (fun (t : Tbl (Nat × Nat)) b => tins t b (me, s0.clk + 1000000)) s0.locus.locks
        (held = true → exec (.tblLock d) s = .next (s0.withLocus { s0.locus with
          waits := s0.locus.waits ++ [{ desc := d, due := s0.clk + s0.timeoutOf d 1000000, done := 0, buf := [] }] })) ∧
        (held = false → 64 < l.length → exec (.tblLock d) s = .next (s0.done d .busy)) ∧
        (held = false → l.length ≤ 64 → exec (.tblLock d) s = .next ((s0.withLocus { s0.locus with locks := l }).done d .ok) ∧
          (∀ b ∈ bs, (s0.withLocus { s0.locus with locks := l }).lockOf b = some (me, s0.clk + 1000000))))) ∧
    (Accepted d 0 (lockFields d) s s0 →
      (s0.lockBuckets d = none → exec (.tblUnlock d) s = .next (s0.done d .badRequest)) ∧
      (∀ bs, s0.lockBuckets d = some bs →
        ((∃ b ∈ bs, (s0.lockOf b).map (·.1) ≠ some me) → exec (.tblUnlock d) s = .next (s0.done d .notFound)) ∧
        ((∀ b ∈ bs, (s0.lockOf b).map (·.1) = some me) → exec (.tblUnlock d) s = .next
          (((s0.withLocus { s0.locus with locks := s0.locus.locks.filter fun e => !bs.contains e.1 }).retryTbl).done d .ok)))) ∧
    (∀ w u, u.locus.waits = [w] →
      (∀ rep, (tblGo w u).1 = .finish rep → let v := (tblGo w u).2
        u.retryTbl = (v.withLocus { v.locus with waits := v.locus.waits.filter (·.desc != w.desc) }).complete w.desc rep) ∧
      (∀ i, (tblGo w u).1 = .wait i → let v := (tblGo w u).2
        u.retryTbl = v.withLocus { v.locus with waits := v.locus.waits.map fun x => if x.desc = w.desc then { x with done := i } else x })) ∧
    (∀ u : State, u.locus.waits = [] → u.retryTbl = u) ∧
    (∀ ring tag w, (s.locus.waits.find? fun (x : TblWait) => x.desc.ring == ring && x.desc.tag == tag.toNat) = some w →
      let u := s.passTo w.due
      exec (.tblLockWaitTimeout ring tag) s = .next ((u.withLocus { u.locus with waits := u.locus.waits.filter (·.desc != w.desc) }).complete w.desc
        { status := .locked, r0 := w.done })) ∧
    (∀ ring tag, (s.locus.waits.find? fun (x : TblWait) => x.desc.ring == ring && x.desc.tag == tag.toNat) = none →
      exec (.tblLockWaitTimeout ring tag) s = .next s) ∧
    (∀ b : BitVec 18, ∀ o t, s.lockOf b.toNat = some (o, t) →
      let u := s.passTo t
      exec (.tableLockLeaseExpiry b) s = .next (((u.withLocus { u.locus with
        locks := u.locus.locks.filter fun e => !(e.2 == (o, t)) }).retryTbl).raise 0x0A6 (le 2 o))) ∧
    (∀ b : BitVec 18, s.lockOf b.toNat = none → exec (.tableLockLeaseExpiry b) s = .next s))

/-- Frames at a client port and learning (R15, R32, R139, R311, R326 to R330, Tables 13.9, 13.11): a right frame of 64 to 9,216 octets reaches the
classification, with its FCS where the port keeps it; a wrong FCS is counted; a port that is down, disabled or attached to a Facet takes none.
The arbiter applies the oldest request that no lock holds by Table 13.9; a locked one goes to the side list of 64. HOLD_US after a change a key
leaves the move-hold cache. A clear empties the table and draws a new seed where every frame-path port is disabled. -/
def Obligations.ClientFramesAndLearning : Prop :=
  ∀ s : State,
    (∀ (lp : Fin 64) frame perr em,
      let on := s.receives lp.val = true ∧ s.attached lp.val = false
      let fits := 64 ≤ frame.length ∧ frame.length ≤ 9216
      let fcs := if s.fcsMode.getLsbD (lp.val / 4) then some (BitVec.ofNat 32 (leNat (frame.drop (frame.length - 4)))) else none;
      (on → fcsOk frame = true → fits → exec (.clientFrameReceive lp frame perr em) s = .next (s.classify
        ⟨TFrame.arrived lp.val (frame.take (frame.length - 4)) fcs s.fcsMode (s.rxStamp (lp.val / 4) (s.stampClass lp.val)) false none, perr, em⟩)) ∧
      (on → fcsOk frame = false → exec (.clientFrameReceive lp frame perr em) s = .next (s.count (cid 0x01 0 lp.val))) ∧
      (on → fcsOk frame = true → ¬ fits → exec (.clientFrameReceive lp frame perr em) s = .next s) ∧
      (¬ on → exec (.clientFrameReceive lp frame perr em) s = .next s)) ∧
    (∀ r, (s.locus.side.find? fun r => !s.learnBlocked r) = some r →
      exec .learnRequestApply s = .next ((s.withLocus { s.locus with side := s.locus.side.erase r }).applyLearn r)) ∧
    ((s.locus.side.find? fun r => !s.learnBlocked r) = none →
      (s.locus.learns = [] → exec .learnRequestApply s = .next s) ∧
      (∀ r rest, s.locus.learns = r :: rest → let t := s.withLocus { s.locus with learns := rest }
        (s.learnBlocked r = false → exec .learnRequestApply s = .next (t.applyLearn r)) ∧
        (s.learnBlocked r = true → s.locus.side.length < 64 → exec .learnRequestApply s =
          .next (s.withLocus { s.locus with learns := rest, side := s.locus.side ++ [r] })) ∧
        (s.learnBlocked r = true → 64 ≤ s.locus.side.length → exec .learnRequestApply s = .next (t.discardLearn r.lp.toNat)))) ∧
    (∀ r : LearnReq, let lp := r.lp.toNat
      let full := s.learnCfg lp % 2 ^ 20 ≤ s.learnCount lp
      (s.emFind r.profile r.key = none →
        let q := s.emInsert false ⟨r.key, r.profile, false, true, true, r.lp, s.learnedResult lp⟩
        s.applyLearn r = if full then s.count (cid 0x07 13 lp) else
          if q.1 then (q.2.count (cid 0x07 17 lp)).hold r else q.2.count (cid 0x07 10 lp)) ∧
      (∀ k e, s.emFind r.profile r.key = some (k, e) →
        (e.learned = true ∧ e.learnLp = r.lp → s.applyLearn r = s.setHit k) ∧
        (¬ (e.learned = true ∧ e.learnLp = r.lp) → s.applyLearn r = if e.static then s.count (cid 0x07 12 lp) else
          if s.held r then (s.count (cid 0x07 18 lp)).flap r e.learnLp.toNat else if full then s.count (cid 0x07 13 lp) else
          ((s.emPut k (some { e with learned := true, learnLp := r.lp, result := s.learnedResult lp })).count (cid 0x07 19 lp)).hold r))) ∧
    (∀ (p : Fin 16) key, let mine := fun (x : BitVec 4 × BitVec 128 × Nat) => x.1.toNat == p.val && x.2.1 == key
      (∀ h, s.locus.hold.find? mine = some h →
        let u := s.passTo (h.2.2 + 1000 * (s.regN 0x00C00008 % 2 ^ 20))
        exec (.moveHoldExpiry p key) s = .next (u.withLocus { u.locus with hold := u.locus.hold.filter fun x => !mine x })) ∧
      (s.locus.hold.find? mine = none → exec (.moveHoldExpiry p key) s = .next s)) ∧
    (∀ v : Word32,
      (s.halted = true → exec (.emTableClear v) s = .next s) ∧
      (s.halted = false → s.framePathOn = true → exec (.emTableClear v) s = .next (s.setReg 0x00C00000 (BitVec.ofNat 32 (v.toNat % 256)))) ∧
      (s.halted = false → s.framePathOn = false → ∃ t : State, exec (.emTableClear v) s = .next t ∧ t.locus.em = [] ∧ t.locus.badSlots = [] ∧
        t.locus.locks = s.locus.locks ∧ t.locus.seed = BitVec.ofNat 128 (Config.free s.freeCount) ∧
        t = { s with locus := t.locus, axis := t.axis, regs := t.regs, freeCount := s.freeCount + 1 }))

/-- Gate lists (R374 to R377, R385, R503): GATE_LOAD makes a list PENDING, IN_USE while one is ARMED, BAD_REQUEST for a value or an entry out of
range; GATE_ARM arms it for its base time, or for the first base + N cycle at least 2 us ahead, with event 0x0C1, flag and start time; CANCEL
disarms it before its start; at its start the list becomes operational with event 0x0C0 and heads it never lets pass are dropped; an entry
ends when Gnomon time reaches its end.

The indirect window of Sector (R367, R371, R378, R379, Table 15.5): a read puts the eight words of a record in SECTOR_IND_DATA; a write of
words without reserved bits stores them, fills its buckets, takes a weight of 0 as 1, and clears a queue's high-water marks; an index past
the target's last record, a reserved bit, and a move of a queue that holds frames are refused with 0x0C5 and ERR. -/
def Obligations.SectorGatesAndRecords : Prop :=
  (∀ (d : Desc) (s s0 : State), let x := d.get 8 1
    let p := s0.gate x
    (Accepted d 0 [(8, 1), (0xC, 2), (0x10, 8), (0x18, 4), (0x1C, 10)] s s0 →
      let n := d.get 0xC 2
      let bad := 31 < x ∨ n = 0 ∨ 1024 < n ∨ d.get 0x18 4 < 1000 ∨ 1000000000 < d.get 0x18 4 ∨ 999999999 < d.get 0x22 4
      let q := s0.readBuf d .annulus (d.get 0x10 8) (8 * n);
      (bad → exec (.gateLoad d) s = .next (s0.done d .badRequest)) ∧
      (¬ bad → p.armed = true → exec (.gateLoad d) s = .next (s0.done d .inUse)) ∧
      (¬ bad → p.armed = false →
        (∀ st, q.1 = .error st → exec (.gateLoad d) s = .next (q.2.done d st)) ∧
        (∀ bs, q.1 = .ok bs →
          (gateEntries n bs = none → exec (.gateLoad d) s = .next (q.2.done d .badRequest)) ∧
          (∀ es, gateEntries n bs = some es → exec (.gateLoad d) s = .next ((q.2.setGate x { q.2.gate x with
            pend := some ⟨es, d.get 0x18 4, 1000000000 * d.get 0x1C 6 + d.get 0x22 4⟩, armed := false, adjusted := false }).done d .ok))))) ∧
    (Accepted d 1 [(8, 1)] s s0 → bitOf d.flags 0 = false →
      (31 < x ∨ p.pend = none ∨ p.armed = true → exec (.gateArm d) s = .next (s0.done d .badRequest)) ∧
      (∀ l, x ≤ 31 → p.pend = some l → p.armed = false →
        let bound := s0.gnomon.time + 2000 + (if 0 < s0.gnomon.frac then 1 else 0);
        (bound ≤ l.start → exec (.gateArm d) s = .next ((s0.setGate x { p with armed := true, pstart := l.start }).complete d
          { status := .ok, flags := 0, r0 := l.start / 1000000000, r1 := l.start % 1000000000 })) ∧
        (l.start < bound → 0 < l.cycle → ∃ n, bound ≤ l.start + n * l.cycle ∧ l.start + n * l.cycle < bound + l.cycle ∧
          exec (.gateArm d) s = .next (((s0.setGate x { p with armed := true, adjusted := true, pstart := l.start + n * l.cycle }).raise 0x0C1
            (BitVec.ofNat 8 x :: time10 (l.start + n * l.cycle))).complete d
              { status := .ok, flags := 1, r0 := (l.start + n * l.cycle) / 1000000000, r1 := (l.start + n * l.cycle) % 1000000000 })))) ∧
    (Accepted d 1 [(8, 1)] s s0 → bitOf d.flags 0 = true →
      (x ≤ 31 → p.armed = true → s0.gnomon.time < p.pstart →
        exec (.gateArmCancel d) s = .next ((s0.setGate x { p with armed := false }).done d .ok)) ∧
      (31 < x ∨ p.armed = false ∨ p.pstart ≤ s0.gnomon.time → exec (.gateArmCancel d) s = .next (s0.done d .badRequest))) ∧
    (∀ x : Fin 32,
      ((s.gate x.val).armed = false → exec (.gateListStart x) s = .next s) ∧
      ((s.gate x.val).armed = true →
        let u := s.passToTime (s.gate x.val).pstart
        let p := u.gate x.val;
        (p.next = none → exec (.gateListStart x) s = .next u) ∧
        (∀ l, p.next = some l →
          let v := (u.setGate x.val { p with oper := some l, pend := none, armed := false, which := !p.which }).raise 0x0C0
            (BitVec.ofNat 8 x.val :: time10 l.start)
          let heads := (v.sector.queues.filter fun e => e.1 / 4096 == x.val / 16 &&
            (gateLps x.val).contains (qLport (v.srec (qKey (x.val / 16) (e.1 % 4096))))).map (·.1 % 4096)
          exec (.gateListStart x) s = .next (heads.foldl (fun v q => v.newHead (x.val / 16) q) v))) ∧
      (∀ l g a b i, (s.gate x.val).oper = some l → l.at_ s.gnomon.time = some (g, a, b, i) →
        exec (.gateEntryAdvance x) s = .next (s.passToTime (s.gnomon.time - l.pos s.gnomon.time + b))) ∧
      ((∀ l, (s.gate x.val).oper = some l → l.at_ s.gnomon.time = none) → exec (.gateEntryAdvance x) s = .next s))) ∧
  (∀ (v : Word32) (s : State),
    let target := bits v.toNat 24 4
    let index := bits v.toNat 0 16
    let key := recKey target index
    let keep := s.reg 0x01000000 &&& 0x10000000#32 &&& ~~~v
    let r := s.setReg 0x01000000 ((v &&& 0x0F00FFFF#32) ||| keep)
    let w := s.setReg 0x01000000 ((v &&& 0x0F00FFFF#32) ||| 0x40000000#32 ||| keep)
    let ws := (List.range 8).map fun k => s.regN (0x01000010 + 4 * k)
    let value := ws.zipIdx.foldl (fun (a : Nat) (e : Nat × Nat) => a + e.1 * 2 ^ (32 * e.2)) 0
    let legal := (∀ k < 8, (ws.getD k 0 &&& indMask target index k) = ws.getD k 0) ∧ (target = 4 → bits (ws.getD 0 0) 29 2 = 0 → ws.getD 3 0 = 0)
    let weighed := target < 2 ∨ ((target = 2 ∨ target = 3) ∧ index < 512)
    let new := if weighed ∧ value % 65536 = 0 then value + 1 else value
    let moved := target < 2 ∧ s.sq target index ≠ [] ∧ (qLport new ≠ qLport (s.srec key) ∨ qGroup new ≠ qGroup (s.srec key))
    let put := (w.withSector { w.sector with recs := tput 0 w.sector.recs key (BitVec.ofNat 256 new) }).fillBuckets key;
    (s.halted = true → exec (.indRead v) s = .next s ∧ exec (.indWrite v) s = .next s) ∧
    (s.halted = false →
      (index < indLimit target → exec (.indRead v) s = .next ((List.range 8).foldl (fun u k =>
          u.setReg (0x01000010 + 4 * k) (BitVec.ofNat 32 ((r.indWords target index).getD k 0))) r)) ∧
      (indLimit target ≤ index → exec (.indRead v) s = .next (r.indRefuse target index) ∧
        exec (.indWrite v) s = .next (w.indRefuse target index)) ∧
      (index < indLimit target → ¬ legal → exec (.indWrite v) s = .next (w.indRefuse target index)) ∧
      (index < indLimit target → legal →
        (target = 5 ∨ target = 6 → exec (.indWrite v) s = .next (w.withSector { w.sector with
          hwm := tput (0, 0) w.sector.hwm (qInst (target - 5) index) (0, 0) })) ∧
        (moved → exec (.indWrite v) s = .next (w.indRefuse target index)) ∧
        (target < 2 → ¬ moved → exec (.indWrite v) s = .next (if qToken new = true ∧ put.bburst key 0 < put.headLen target index then
          put.newHead target index else put.retag target index)) ∧
        (target = 4 ∨ ((target = 2 ∨ target = 3) ∧ 512 ≤ index) → exec (.indWrite v) s = .next put) ∧
        ((target = 2 ∨ target = 3) → index < 512 →
          let g := if gPrio new ≠ gPrio (s.srec key) then put.setTag (groupTag (target - 2) (index / 8) (index % 8)) none else put
          exec (.indWrite v) s = .next (match g.groupQueues (target - 2) (index / 8) (index % 8) with
            | [] => g
            | q :: _ => g.retag (target - 2) q)))))

/-- Pools, owners and free lists (R339, R343, R350, Tables 14.6, 14.8, 14.9): a write of a pool that holds no frame, overlaps no other and
covers the reserves is taken, and an enabled pool builds its free lists anew; an owner's MIN that its pool can hold is taken, its MAX at most
524,288; any other write is ignored with 0x085; the end of a build lets allocations go on, the end of a rebuild lets a stopped bank serve
again with 0x084.

Annulus queues (R352 to R358, Table 14.12): an enable of a DISABLED queue samples a configuration R352 admits and is ignored with 0x062
otherwise; a disable discards the entries; the oldest entry of an open queue that Hull writes is counted and leaves the tail, a failed word
poisons it with 0x061, a failed write stops the queue; a release of counted entries lowers the count by as many, one past them raises 0x063;
a swap turns the fill bank of a drained ping-pong queue into the drain bank.

Punts and frees (R342, R346 to R349, R358, R359, Tables 14.3, 14.11): Annulus copies its oldest punted frame into the queue's tail as an
entry with the frame's facts, or TRUNC with length 0 after an error its ECC cannot correct, and frees the frame; a queue that is full or not
open drops it, counted and with 0x060 once a second; a full tail makes it wait. A free through a bad pointer, of a free cell, of a corrupt
cell or by another than the holder frees nothing and is reported. -/
def Obligations.BuffersQueuesAndPunts : Prop :=
  (∀ s : State,
    (s.halted = true → (∀ p v, exec (.tesseraPoolWrite p v) s = .next s) ∧ ∀ o m v, exec (.tesseraOwnerWrite o m v) s = .next s) ∧
    (∀ (p : Fin 4) (v : Word32), s.halted = false →
      let clash := ∃ q < 4, q ≠ p.val ∧ poolOn (s.poolReg q) = true ∧ poolBase v.toNat < poolBase (s.poolReg q) + poolCells (s.poolReg q) ∧
        poolBase (s.poolReg q) < poolBase v.toNat + poolCells v.toNat
      let ok := s.poolUsed p.val = 0 ∧ s.minSum p.val 256 (2 ^ 30 * ((p.val + 1) % 4)) ≤ poolCells v.toNat ∧
        (poolOn v.toNat = true → ¬ clash ∧ 0 < poolCells v.toNat ∧ poolBase v.toNat + poolCells v.toNat ≤ 524288);
      (¬ ok → exec (.tesseraPoolWrite p v) s = .next s.refuseTess) ∧
      (ok → ∃ u : State, exec (.tesseraPoolWrite p v) s = .next u ∧
        u = (s.setReg (0x00800010 + 4 * p.val) (v &&& 0x80FFFFFF)).withTess { s.tess with
          building := u.tess.building, lists := u.tess.lists, broken := u.tess.broken, corrupt := u.tess.corrupt } ∧
        (p.val ∈ u.tess.building ↔ poolOn v.toNat = true) ∧ (∀ q, q ≠ p.val → (q ∈ u.tess.building ↔ q ∈ s.tess.building)) ∧
        (∀ b < 64, tget [] u.tess.lists (64 * p.val + b) = [] ∧ (p.val, b) ∉ u.tess.broken) ∧
        (∀ q b, q ≠ p.val → ((q, b) ∈ u.tess.broken ↔ (q, b) ∈ s.tess.broken)))) ∧
    (∀ (o : BitVec 8) (v : Word32), s.halted = false →
      let old := minPool (s.ownerMinReg o.toNat)
      let p := minPool v.toNat
      let bad := (old ≠ p ∧ (0 < s.poolUsed old ∨ 0 < s.poolUsed p)) ∨ poolCells (s.poolReg p) < s.minSum p o.toNat v.toNat;
      (bad → exec (.tesseraOwnerWrite o true v) s = .next s.refuseTess) ∧
      (¬ bad → exec (.tesseraOwnerWrite o true v) s = .next (s.setReg (0x00801000 + 16 * o.toNat) (v &&& 0xC00FFFFF))) ∧
      exec (.tesseraOwnerWrite o false v) s =
        .next (s.setReg (0x00801004 + 16 * o.toNat) (BitVec.ofNat 32 (min 524288 (v.toNat % 2 ^ 20))))) ∧
    (∀ p : Fin 4, exec (.freeListBuildEnd p) s =
      .next (s.withTess { s.tess with building := s.tess.building.filter (· != p.val) })) ∧
    (∀ (p : Fin 4) (b : Fin 64),
      ((p.val, b.val) ∈ s.tess.broken → exec (.freeListRebuildEnd p b) s = .next ((s.withTess { s.tess with
        broken := s.tess.broken.filter (· != (p.val, b.val)), lists := tdel s.tess.lists (64 * p.val + b.val) }).raise 0x084
          [BitVec.ofNat 8 p.val, BitVec.ofNat 8 b.val])) ∧
      ((p.val, b.val) ∉ s.tess.broken → exec (.freeListRebuildEnd p b) s = .next s))) ∧
  (∀ (q : BitVec 8) (s : State),
    let o := aqOff q.toNat
    let x := s.aq q.toNat
    (s.halted = true → ∀ v, exec (.queueEnable q v) s = .next s ∧ exec (.queueDisable q v) s = .next s ∧ exec (.queueRelease q v) s = .next s) ∧
    (∀ v : Word32, s.halted = false →
      let cap := s.regN (o + 4) % 2 ^ 25
      let ok := queueConfigOk q.toNat ((v.toNat ||| 2 ^ 31) &&& 0xC000000F) cap
      let off := (s.setReg o (v &&& 0x4000000F)).setAq q.toNat AQueue.reset
      let n := v.toNat % 2 ^ 25
      let k := if n ≤ x.count then n else if x.bad.isSome then x.count + 1 else x.count
      let gone := fun w => if x.ping then w / 2 ^ 32 = b2n x.bank ∧ w % 2 ^ 32 < x.released + k else w < x.released + k
      let rel := s.setAq q.toNat { x with released := x.released + k, poisoned := x.poisoned.filter fun w => ¬ gone w };
      (x.enabled = true → exec (.queueEnable q v) s = .next (s.setReg o ((v ||| 0x80000000) &&& 0xC000000F))) ∧
      (x.enabled = false → ok = true → exec (.queueEnable q v) s =
        .next ((s.setReg o ((v ||| 0x80000000) &&& 0xC000000F)).setAq q.toNat { AQueue.reset with
          enabled := true, ping := bitOf v.toNat 30, size := v.toNat % 16, cap := cap
          base := 2 ^ 32 * (s.regN (o + 12) % 256) + 4096 * (s.regN (o + 8) / 4096) })) ∧
      (x.enabled = false → ok = false → exec (.queueEnable q v) s =
        .next ((s.setReg o (v &&& 0x4000000F)).annStatus q.toNat 31 0x062)) ∧
      (q ≠ 255 → exec (.queueDisable q v) s = .next off) ∧
      (q = 255 → exec (.queueDisable q v) s = .next { off with annulus := { off.annulus with inbound := [], inTotal := 0, inBad := [] } }) ∧
      (n ≤ x.count → exec (.queueRelease q v) s = .next rel) ∧
      (x.count < n → exec (.queueRelease q v) s = .next (rel.annStatus q.toNat 30 0x063))) ∧
    (let swap := x.enabled = true ∧ x.ping = true ∧ x.drain ≤ x.released ∧ 0 < x.written ∧ (∀ e es, x.tail = e :: es → e.1 = true);
      (swap → exec (.bankSwap q) s = .next (s.setAq q.toNat { x with drain := x.written, written := 0, released := 0, bank := !x.bank })) ∧
      (¬ swap → exec (.bankSwap q) s = .next s)) ∧
    (∀ poison, x.tail = [] ∨ x.open_ = false → exec (.entryWriteComplete q poison) s = .next s) ∧
    (∀ b e rest, x.tail = (b, e) :: rest → x.open_ = true →
      let a := s.writeMem .annulus (0x2000 + 225) x.slotAddr e
      let d := s.draw 12
      let v := d.2.draw 32
      let k := 4 * (d.1 % (e.length / 4))
      let p := v.2.writeMem .annulus (0x2000 + 225) x.slotAddr (e.take k ++ le 4 v.1 ++ e.drop (k + 4));
      (a.1 = true → exec (.entryWriteComplete q false) s = .next (a.2.setAq q.toNat { x with tail := rest, written := x.written + 1 })) ∧
      (a.1 = false → exec (.entryWriteComplete q false) s = .next ((a.2.setAq q.toNat { x with stopped := true }).annStatus q.toNat 29 0x064)) ∧
      (p.1 = true → exec (.entryWriteComplete q true) s = .next (((p.2.setAq q.toNat { x with
        tail := rest, written := x.written + 1
        poisoned := x.poisoned ++ [x.written + if x.ping = true ∧ (!x.bank) = true then 2 ^ 32 else 0] }).count (cid 0x09 1 q.toNat)).raise 0x061
          ([BitVec.ofNat 8 q.toNat] ++ le 4 (if x.ping then x.written else x.written % x.cap)))) ∧
      (p.1 = false → exec (.entryWriteComplete q true) s = .next ((p.2.setAq q.toNat { x with stopped := true }).annStatus q.toNat 29 0x064)))) ∧
  (∀ (s : State) (ecc : Ecc),
    (s.annulus.punts = [] → exec (.puntCopy ecc) s = .next s) ∧
    (∀ p rest, s.annulus.punts = p :: rest →
      let x := s.aq p.queue
      let t := { s with annulus := { s.annulus with punts := rest } };
      (x.open_ = false ∨ x.full = true → exec (.puntCopy ecc) s = .next
        (((t.freeFrame (some 225) p.frame).count (cid 0x09 0 p.queue)).raiseOnce 0x060 p.queue [BitVec.ofNat 8 p.queue])) ∧
      (x.open_ = true → x.full = false → 64 ≤ x.tail.length → exec (.puntCopy ecc) s = .next s) ∧
      (x.open_ = true → x.full = false → x.tail.length < 64 →
        (s.frame p.frame = none → exec (.puntCopy ecc) s = .next (t.freeFrame (some 225) p.frame)) ∧
        (∀ f, s.frame p.frame = some f →
          let r := t.readFrame p.frame ecc (f.bytes ++ f.fcsBytes)
          exec (.puntCopy ecc) s = .next ((r.2.annPut p.queue [puntEntry f r.1 p.reason x.entry (ecc == .uncorrectable)]).freeFrame (some 225)
            p.frame)))) ∧
    (∀ o ptr, let c := bits ptr 8 19
      let bad := bits ptr 27 5 ≠ 0 ∨ bits ptr 0 8 ≠ 0 ∨ s.cellPool c = none
      let hit := s.tess.frames.find? (·.cells.contains c);
      (bad → s.freePtr o ptr = s.refuseFree (o.getD 0) .badPtr c ptr) ∧
      (¬ bad → hit = none → s.freePtr o ptr = s.refuseFree (o.getD 0) .double c c) ∧
      (∀ f e, ¬ bad → hit = some f → s.tess.corrupt.lookup c = some e → s.freePtr o ptr = s.refuseFree (o.getD f.charge) e c c) ∧
      (∀ f, ¬ bad → hit = some f → s.tess.corrupt.lookup c = none → f.freeOk o = false →
        s.freePtr o ptr = s.refuseFree (o.getD f.charge) .foreign c c) ∧
      (∀ f, ¬ bad → hit = some f → s.tess.corrupt = [] → f.freeOk o = true → f.cells.head? = some c →
        s.freePtr o ptr = if dropRef o f.refs = [] then
          (s.withTess { s.tess with frames := s.tess.frames.filter (·.id != f.id) }).listCells f.pool f.cells
          else s.modFrame f.id fun x => { x with refs := dropRef o f.refs, cells := f.cells })))

/-- Facet frames (R143, R149, R150, R162, R165, R166, R172, R176, R184, R185, R189, R193, R201): an enabled active port sends one frame that begins
with the alignment word, the MFC and byte 7: ones under FORCE_AIS_S, else built from the tributaries and given to Prism n, in clear where the
port has no transmit association. A received frame counts its codewords in LOCK, is checked against the alignment word, and takes its place in
Prism n with its class; the fifth wrong word in a row declares LOF; one without room is FAILED. Other ports send and take nothing. -/
def Obligations.FacetFramesAreSentAndTaken : Prop :=
  ∀ (n : Fin 16) (s : State),
    let p := s.facetPort n.val
    (∀ client perr,
      let q := s.facetBuild n.val client
      let d := q.2.draw 1
      let clear := facetClear (BitVec.ofNat 8 (128 * d.1 + 64)) q.1
      let ais := bitOf (s.regN (facetOff n.val 0x40C)) 2;
      (s.facetOpen n.val = false → exec (.facetFrameTransmit n ⟨client, perr⟩) s = .next s) ∧
      (s.facetOpen n.val = true → ais = true → exec (.facetFrameTransmit n ⟨client, perr⟩) s = .next (s.sendAis n.val)) ∧
      (s.facetOpen n.val = true → ais = false → s.facetRoom n.val false = none → exec (.facetFrameTransmit n ⟨client, perr⟩) s = .next s) ∧
      (∀ line, s.facetOpen n.val = true → ais = false → s.facetRoom n.val false = some line →
        (∀ h, q.2.facetAssoc n.val false = some h → exec (.facetFrameTransmit n ⟨client, perr⟩) s =
          .next ((q.2.addItem n.val (facetItem n.val false q.1 h line)).facetRun n.val false perr)) ∧
        (q.2.facetAssoc n.val false = none → exec (.facetFrameTransmit n ⟨client, perr⟩) s =
          .next ((d.2.addItem n.val { facetItem n.val false clear 0 line with stage := .plain }).facetRun n.val false perr))) ∧
      q.1.take 8 = alignWord ++ [p.mfc, p.byte7] ∧ (q.2.facetPort n.val).mfc = p.mfc + 1 ∧ ((s.sendAis n.val).facetPort n.val).mfc = p.mfc + 1 ∧
      clear.drop 176 = List.replicate 16208 0) ∧
    (∀ h ctr octets ph, let a := s.sa h
      (ctr < a.nextN → s.facetVerified h ctr octets ph = (false, s.stat h 3 1)) ∧
      (a.nextN ≤ ctr → s.facetVerified h ctr octets ph =
        (true, (((s.setSa h (a.setNext (ctr + 1))).stat h 0 1).stat h 7 octets).facetPhase h ph))) ∧
    (∀ i frame, let u := s.modFacet n.val fun p => { p with keyed := false }
      s.sendUnkeyed n.val none i frame =
        (if p.keyed then u.raise 0x284 [BitVec.ofNat 8 n.val, BitVec.ofNat 8 (beAt frame 14 1 / 16 % 8)] else u).sendFacet n.val frame) ∧
    (∀ errors frame perr,
      let u := s.modFacet n.val fun p => p.fecCount (errors.map fun (x : Fin 545) => x.val)
      let w := u.modFacet n.val fun p => { p.add 2 1 with errRun := p.errRun + 1 }
      let found := slice frame 0 6 = alignWord
      let v := (if found then u.modFacet n.val fun p => { p with errRun := 0 } else w).sectionBip n.val frame
      let ais := (slice frame 8 8).all (· == 0xFF)
      let x := if ais = false ∧ beAt frame 14 1 / 16 % 8 < 4 then (v.aisS n.val ais).facetStamp n.val 2 (beAt frame 8 6) else v.aisS n.val ais
      let q := x.facetAtOnce n.val frame;
      (s.facetOpen n.val = false ∨ p.marker ≠ .lock → exec (.facetFrameReceive n errors frame perr) s = .next s) ∧
      (s.facetOpen n.val = true → p.marker = .lock → p.frame ≠ .inFrame → exec (.facetFrameReceive n errors frame perr) s = .next u) ∧
      (s.facetOpen n.val = true → p.marker = .lock → p.frame = .inFrame →
        (¬ found → 4 ≤ p.errRun → exec (.facetFrameReceive n errors frame perr) s = .next (w.declare n.val 3 [])) ∧
        (found ∨ p.errRun < 4 →
          (x.facetRoom n.val true = none → exec (.facetFrameReceive n errors frame perr) s =
            .next ((x.overflow n.val (4 * n.val)).facetFinish n.val 0 (some .failed) (frame.take 64) [])) ∧
          (∀ line, x.facetRoom n.val true = some line →
            (ais = true → exec (.facetFrameReceive n errors frame perr) s =
              .next ((x.addItem n.val { facetItem n.val true frame 0 line with stage := .plain }).facetRun n.val true perr)) ∧
            (∀ c, ais = false → q.1 = .inl c → exec (.facetFrameReceive n errors frame perr) s =
              .next ((q.2.addItem n.val { facetItem n.val true frame 0 line with stage := .plain, cls := some c }).facetRun n.val true perr)) ∧
            (∀ h, ais = false → q.1 = .inr h → exec (.facetFrameReceive n errors frame perr) s =
              .next ((q.2.addItem n.val (facetItem n.val true frame h line)).facetRun n.val true perr))))))

/-- Marker lock, frame alignment and LOS (R170, R171, R177, Tables 7.1, 7.2): four distinct markers start a confirmation, the same counts 4,096
codewords on with at most 180 ns of skew end it in LOCK and clear LOFEC; in LOCK a wrong count, too much skew, or the fourth marker missed on a
lane loses it. A first match opens a candidate, up to 8, the third in step puts the port IN_FRAME and clears LOF. LOS is declared 10 us after
all lanes went quiet and cleared 100 us after they returned. -/
def Obligations.FacetLockAndAlignmentFollowTheTables : Prop :=
  ∀ (n : Fin 16) (s : State),
    let p := s.facetPort n.val
    (∀ pos ls,
      let ms := markersOf ls
      let counts := ms.foldl (fun c (m : Nat × MarkerSeen) => tput 0#20 c m.1 (m.2.count + 1)) p.laneCount
      let asExpected := ∀ m ∈ ms, m.2.count = tget 0 p.laneCount m.1
      let on := p.active = true ∧ p.has 0 = false ∧ p.has 1 = false
      let ok := pos = p.markerPos + 4096 ∧ allMarkers ls = true ∧ (∃ c, ∀ l ∈ ls, l.count = c) ∧ asExpected ∧ markerSkew ls ≤ 180
      let seen := s.setFacet n.val { p with
        markerPos := pos, laneCount := counts, laneMiss := ms.foldl (fun x (m : Nat × MarkerSeen) => tput 0 x m.1 0) p.laneMiss
        skew := if ms = [] then p.skew else min 255 (markerSkew ls) };
      (¬ on → exec (.markerCodewordReceive n pos ls) s = .next s) ∧
      (on → p.marker = .search → allMarkers ls = true → exec (.markerCodewordReceive n pos ls) s =
        .next (s.setFacet n.val { p with marker := .confirm, markerPos := pos, laneCount := counts, laneMiss := [] })) ∧
      (on → p.marker = .search → allMarkers ls = false → exec (.markerCodewordReceive n pos ls) s = .next s) ∧
      (on → p.marker = .confirm → ok → exec (.markerCodewordReceive n pos ls) s = .next ((s.setFacet n.val { p with
        marker := .lock, markerPos := pos, laneCount := counts, laneMiss := [], skew := min 255 (markerSkew ls) }).clearSection n.val 2 [0])) ∧
      (on → p.marker = .confirm → ¬ ok → exec (.markerCodewordReceive n pos ls) s = .next (s.setFacet n.val { p with marker := .search })) ∧
      (on → p.marker = .lock →
        (pos ≤ p.markerPos ∨ (pos - p.markerPos) % 4096 ≠ 0 → exec (.markerCodewordReceive n pos ls) s = .next s) ∧
        (p.markerPos < pos → (pos - p.markerPos) % 4096 = 0 →
          (¬ asExpected → exec (.markerCodewordReceive n pos ls) s = .next (s.markerLoss n.val 2)) ∧
          (asExpected → 180 < markerSkew ls → exec (.markerCodewordReceive n pos ls) s = .next (seen.markerLoss n.val 3)) ∧
          (asExpected → markerSkew ls ≤ 180 → exec (.markerCodewordReceive n pos ls) s = .next seen)))) ∧
    (∀ cause, s.markerLoss n.val cause = (s.modFacet n.val fun p => { p with marker := .search }).declare n.val 2 [BitVec.ofNat 8 cause]) ∧
    (∀ lane : Fin 4,
      let u := s.setFacet n.val { p with laneMiss := tput 0 p.laneMiss lane.val (tget 0 p.laneMiss lane.val + 1)
                                         laneCount := tmod 0 p.laneCount lane.val (· + 1) };
      (p.active = false ∨ p.marker = .search → exec (.expectedMarkerMissed n lane) s = .next s) ∧
      (p.active = true → p.marker = .confirm → exec (.expectedMarkerMissed n lane) s = .next (s.setFacet n.val { p with marker := .search })) ∧
      (p.active = true → p.marker = .lock → exec (.expectedMarkerMissed n lane) s =
        .next (if 3 ≤ tget 0 p.laneMiss lane.val then u.markerLoss n.val 1 else u))) ∧
    (∀ pos mfc,
      let on := p.active = true ∧ p.marker = .lock ∧ p.frame ≠ .inFrame
      let new := (⟨pos + 131072, 0, mfc⟩ : Candidate)
      let rest := p.cands.filter (·.next != pos)
      let keep := fun cs => s.setFacet n.val { p with cands := cs, frame := if cs = [] then .out else .confirm };
      (∀ m, ¬ on → exec (.alignmentCandidateMatch n pos m mfc) s = .next s) ∧
      (on → (p.cands.find? fun (x : Candidate) => x.next == pos) = none →
        exec (.alignmentCandidateMatch n pos false mfc) s = .next s ∧
        (p.cands.length < 8 → exec (.alignmentCandidateMatch n pos true mfc) s = .next (keep (p.cands ++ [new]))) ∧
        (8 ≤ p.cands.length → exec (.alignmentCandidateMatch n pos true mfc) s = .next (s.raiseOnce 0x2AF 0 [BitVec.ofNat 8 n.val]))) ∧
      (∀ c, on → (p.cands.find? fun (x : Candidate) => x.next == pos) = some c →
        exec (.alignmentCandidateMatch n pos false mfc) s = .next (keep rest) ∧
        (mfc ≠ c.mfc + 1 → exec (.alignmentCandidateMatch n pos true mfc) s = .next (keep (rest ++ [new]))) ∧
        (mfc = c.mfc + 1 → c.hits ≠ 1 → exec (.alignmentCandidateMatch n pos true mfc) s =
          .next (s.setFacet n.val { p with cands := p.cands.map fun x => if x.next == pos then ⟨pos + 131072, x.hits + 1, mfc⟩ else x })) ∧
        (mfc = c.mfc + 1 → c.hits = 1 → exec (.alignmentCandidateMatch n pos true mfc) s =
          .next ((s.setFacet n.val { p with cands := [], frame := .inFrame, errRun := 0, rxBip := none }).clearSection n.val 3 [])))) ∧
    (∀ t0, p.quietSince = some t0 → exec (.losDeclare n) s = .next (if p.has 0 then s else (s.passTo (t0 + 10000)).declare n.val 0 [])) ∧
    (∀ t0, p.signalSince = some t0 → exec (.losClear n) s = .next (if p.has 0 then (s.passTo (t0 + 100000)).clearSection n.val 0 [] else s)) ∧
    (p.quietSince = none → exec (.losDeclare n) s = .next s) ∧ (p.signalSince = none → exec (.losClear n) s = .next s)

/-- R131: the PN of a received frame. For an XPN suite it is NEXT[63:32] with the wire PN where the wire PN is at least NEXT[31:0], else
NEXT[63:32] + 1 with the wire PN, as a 64-bit value; for a non-XPN suite it is the wire PN. (Of an association whose counter is spent, NEXT stands past its last
value.) -/
def Obligations.ReceivedPacketNumbersAreRecovered : Prop :=
  ∀ (a : Assoc) (wire : Nat), wire < 2 ^ 32 → a.spent = false →
    (a.xpn = true → (a.next.extractLsb' 0 32).toNat ≤ wire → a.recoverPn wire = 2 ^ 32 * (a.next.extractLsb' 32 32).toNat + wire) ∧
    (a.xpn = true → wire < (a.next.extractLsb' 0 32).toNat → 
      a.recoverPn wire = (2 ^ 32 * ((a.next.extractLsb' 32 32).toNat + 1) + wire) % 2 ^ 64) ∧
    (a.xpn = false → a.recoverPn wire = wire)

/-- Frames between the edges, Sector and a Prism (R18, R21, R32, R126, R128 to R132, R136, R138 to R140, R201, R217 to R219, R349, R366, R438): a
wrong FCS or length at the line edge is counted and dropped; a SecTAG frame is an item of its association, or drops by Table 5.7; a frame on the
list of uncontrolled EtherTypes is an item for Locus, another untagged one drops with 0x172; Sector's chosen frame leaves at a client edge with
its FCS, or is the item of the Prism of its port, or stays while that has no room; a port that takes no frames takes and gives none.

Work items of a Prism (R19, R21, R118, R128, R132, R135, R137, R200, R204, R217 to R220, R266, R269, Table 9.3): the oldest waiting item starts
an IDLE thread of the active image at the entry of its kind and direction, with its frame context, or waits; an image without the entry drops
it. A disposed item at the head of its port's order leaves: to Locus without its tag if it verified, or to the line with its FCS. A parked frame
is dropped when HOLD_MS ends and is dispatched again as a new arrival when its case clears. -/
def Obligations.PrismsMoveFramesAndItems : Prop :=
  (∀ (lp : Fin 64) (s : State),
    let m := (s.lport (64 + lp.val)).macsec.toNat
    let n := s.rxPrism lp.val
    let lineOn := s.receives (64 + lp.val) = true
    (∀ frame,
      let body := frame.take (frame.length - 4)
      let stamp := s.rxStamp (16 + lp.val / 4) (s.stampClass (64 + lp.val))
      let on := lineOn ∧ (s.lport (64 + lp.val)).mode ≠ some 7
      let sound := 4 ≤ frame.length ∧ fcsOk frame = true
      let off := clearTags body (bits m 24 2) 12
      let ety := beAt body off 2
      let un := (s.lport (64 + lp.val)).uncontrolled ety
      let open_ := ety ≠ 0x88E5 ∧ (un = true ∨ bitOf m 18 = true);
      (¬ on → exec (.lineFrameReceive lp frame) s = .next s) ∧
      (on → ¬ sound → exec (.lineFrameReceive lp frame) s = .next (s.count (cid 0x02 0 lp.val))) ∧
      (on → sound → 9248 < frame.length → exec (.lineFrameReceive lp frame) s = .next (s.count (cid 0x02 1 lp.val))) ∧
      (on → sound → frame.length ≤ 9248 → exec (.lineFrameReceive lp frame) s = .next (s.lineArrive n lp.val body stamp)) ∧
      (∀ l, s.staging n true (plainItem true lp.val body).lines = some l → s.reorderUsed n true < 256 →
        (open_ → s.lineArrive n lp.val body stamp = (s.addItem n { plainItem true lp.val body with line := l, keep := s.fcsMode
                                                                                                   stamp := stamp }).count
          (cid 0x03 (if un then 9 else 11) lp.val)) ∧
        (ety ≠ 0x88E5 → ¬ open_ → s.lineArrive n lp.val body stamp = (s.count (cid 0x03 10 lp.val)).raiseOnce 0x172 (64 + lp.val)
          (BitVec.ofNat 8 (64 + lp.val) :: le 2 ety))) ∧
      (let tag := if bitOf (leAt body (off + 2) 1) 5 then 16 else 8
        let rest := body.drop (off + tag)
        let size := (newItem true lp.val (body.take (off + tag)) (rest.take (rest.length - 16)) (List.replicate 16 0) off 0 0).lines
        let t := s.secTag n lp.val off body stamp;
        (∀ l, ety = 0x88E5 → s.staging n true size = some l → s.reorderUsed n true < 256 → s.lineArrive n lp.val body stamp =
          t.setUnit n { t.unit n with items := (t.unit n).items.map fun j =>
            if j.seq = s.prism.nextSeq then { j with line := l, keep := s.fcsMode } else j }) ∧
        (ety = 0x88E5 → s.staging n true size = none ∨ 256 ≤ s.reorderUsed n true → s.lineArrive n lp.val body stamp = s.overflow n lp.val)) ∧
      (ety ≠ 0x88E5 → s.staging n true (plainItem true lp.val body).lines = none ∨ 256 ≤ s.reorderUsed n true →
        s.lineArrive n lp.val body stamp = s.overflow n lp.val)) ∧
    (∀ off body stamp,
      let tci := leAt body (off + 2) 1
      let sl := leAt body (off + 3) 1
      let wire := beAt body (off + 4) 4
      let tag := if bitOf tci 5 then 16 else 8
      let rest := body.drop (off + tag)
      let data := rest.length - 16
      let bad := bitOf tci 7 = true ∨ (bitOf tci 6 = true ∧ bitOf tci 5 = true) ∨ bitOf tci 4 = true ∨ bitOf tci 3 ≠ bitOf tci 2 ∨ 64 ≤ sl ∨
        (sl ≠ 0 ∧ sl ≠ data) ∨ (sl = 0 ∧ data < 48) ∨ rest.length < 18
      let sci := if bitOf tci 5 then some (BitVec.ofNat 64 (beAt body (off + 8) 8))
        else if bitOf tci 6 then some (BitVec.ofNat 64 (65536 * beAt body 6 6 + 1))
        else match s.rxScis lp.val with | [x] => some x | _ => none
      let hit := fun x => (s.rxSas lp.val).find? fun e => e.2.sci == x && e.2.an.toNat == tci % 4 &&
        (e.2.status == .active || e.2.status == .retiring || e.2.status == .keyLost)
      let badTag := s.rxDrop lp.val 3 (some (0x174, [BitVec.ofNat 8 tci]));
      (bad → s.secTag n lp.val off body stamp = badTag) ∧
      (¬ bad → sci = none → s.secTag n lp.val off body stamp = s.rxDrop lp.val 4 none) ∧
      (∀ x, ¬ bad → sci = some x →
        (x ∉ s.rxScis lp.val → s.secTag n lp.val off body stamp = s.rxDrop lp.val 5 (some (0x170, le 8 x.toNat))) ∧
        (x ∈ s.rxScis lp.val → hit x = none → s.secTag n lp.val off body stamp = s.rxDrop lp.val 6 none) ∧
        (∀ h a, x ∈ s.rxScis lp.val → hit x = some (h, a) →
          (a.recoverPn wire = 0 → s.secTag n lp.val off body stamp = badTag) ∧
          (a.recoverPn wire ≠ 0 → a.status = .keyLost → s.secTag n lp.val off body stamp = (s.stat h 2 1).rxDrop lp.val 7 none) ∧
          (a.recoverPn wire ≠ 0 → a.status = .retiring → s.secTag n lp.val off body stamp = s.stat h 5 1) ∧
          (a.recoverPn wire ≠ 0 → a.status = .active → bitOf m 19 = true ∧ a.recoverPn wire < a.nextN →
            s.secTag n lp.val off body stamp = (s.stat h 3 1).rxDrop lp.val 8 none) ∧
          (a.recoverPn wire ≠ 0 → a.status = .active → ¬ (bitOf m 19 = true ∧ a.recoverPn wire < a.nextN) →
            s.secTag n lp.val off body stamp = s.addItem n { newItem true lp.val (body.take (off + tag)) (rest.take data) (rest.drop data) off
              (body.length + 4) h with stamp := stamp, enc := bitOf tci 3 })))) ∧
    (∀ ecc,
      (s.receives lp.val = false ∨ s.attached lp.val = true ∨ s.pickFrame 0 lp.val = none → exec (.sectorDequeue .client lp ecc) s = .next s) ∧
      (¬ lineOn ∨ s.pickFrame 1 lp.val = none → exec (.sectorDequeue .line lp ecc) s = .next s) ∧
      (∀ g q, s.receives lp.val = true → s.attached lp.val = false → s.pickFrame 0 lp.val = some (g, q) →
        (s.takeHead 0 lp.val g q = none → exec (.sectorDequeue .client lp ecc) s = .next s) ∧
        (∀ e w, s.takeHead 0 lp.val g q = some (e, w) →
          (w.frame e.frame = none → exec (.sectorDequeue .client lp ecc) s = .next w) ∧
          (∀ f, w.frame e.frame = some f →
            let own := 144 + lp.val / 4
            let r := (w.holdFrame e.frame none (some own)).readFrame e.frame ecc f.bytes
            let short := f.bytes.length < 60
            let body := if short then slice r.1 0 60 else r.1
            let u := if short then r.2.count (cid 0x01 1 lp.val) else r.2
            let kept := f.keep.getLsbD (lp.val / 4) = true ∧ ¬ short ∧ f.charge < 128
            let v := if kept ∧ f.fcs = none then u.count (cid 0x01 2 lp.val) else u
            let ok := ecc ≠ .uncorrectable ∧ f.cut = false
            let fcs := match f.fcs with | some c => if kept ∧ ok then le 4 c.toNat else fcsBytes body ok | none => fcsBytes body ok
            exec (.sectorDequeue .client lp ecc) s =
              .next (((v.sentStamp 0 lp.val e.tsId ok).emit (.clientFrame lp.val (body ++ fcs))).freeFrame (some own) e.frame)))) ∧
      (∀ g q e f, lineOn → s.pickFrame 1 lp.val = some (g, q) → (s.sq 1 q).head? = some e → s.frame e.frame = some f →
        let k := lp.val / 4
        let lines := match s.txTake lp.val q e f with | .item i => i.lines | _ => (f.bytes.length + 127) / 128
        let room := (s.staging k false lines).isSome = true ∧ s.reorderUsed k false < 256 ∧ ((s.cluster k).pause = none ∨ e.unctl = true)
        let thread := e.unctl = true ∨ e.sc = none ∨ s.waitingItems k < s.idleThreads k;
        (¬ room → exec (.sectorDequeue .line lp ecc) s = .next s) ∧
        (room → ¬ thread → exec (.sectorDequeue .line lp ecc) s = .next (s.txStall lp.val f.id)) ∧
        (∀ w, room → thread → s.takeHead 1 lp.val g q = some (e, w) →
          let bad := ecc == .uncorrectable
          let r := (w.holdFrame f.id none (some (128 + k))).readFrame f.id ecc f.bytes
          let c := if bad then r.2.draw 1 else (0, r.2)
          let u := c.2.setUnit k { c.2.unit k with stalled := (c.2.unit k).stalled.filter (· != f.id) }
          let on := bad = false ∨ c.1 ≠ 0
          let drop := fun (x : State) => (x.freeFrame (some (128 + k)) f.id).notSent 1 lp.val e.tsId
          let t := u.txTake lp.val q e { f with bytes := r.1 };
          (¬ on → exec (.sectorDequeue .line lp ecc) s = .next (drop u)) ∧
          (on → t = .refused → exec (.sectorDequeue .line lp ecc) s = .next (drop (u.count (cid 0x03 2 lp.val)))) ∧
          (on → t = .noChannel → exec (.sectorDequeue .line lp ecc) s = .next (drop (((u.draw 32).2.count (cid 0x03 0 lp.val)).raiseOnce 0x173
            (64 + lp.val) (BitVec.ofNat 8 (64 + lp.val) :: le 4 (u.draw 32).1)))) ∧
          (∀ i l, on → t = .item i → u.staging k false i.lines = some l →
            exec (.sectorDequeue .line lp ecc) s = .next (u.addItem k { i with line := l, cut := bad })))))) ∧
  (∀ (s : State),
    (∀ (n : Fin 16) perr shipped, (s.unit n.val).items.find? (s.mayDispatch n.val) = none → exec (.prismDispatch n ⟨perr, shipped⟩) s = .next s) ∧
    (∀ (n : Fin 16) perr shipped i, (s.unit n.val).items.find? (s.mayDispatch n.val) = some i →
      let x := s.cluster n.val
      let high := x.active.getD false
      let entry := match x.active with
        | some h => (((x.half h).map (·.entries)).getD []).getD (2 * i.kind + b2n i.recv) 0xFFFFFFFF
        | none => 0xFFFFFFFF
      let whole := shipped && s.runsShipped n.val
      let go := x.pause = none ∧ entry ≠ 0xFFFFFFFF;
      (x.pause ≠ none → exec (.prismDispatch n ⟨perr, shipped⟩) s = .next s) ∧
      (x.pause = none → entry = 0xFFFFFFFF → exec (.prismDispatch n ⟨perr, shipped⟩) s =
        .next (if i.kind = 3 then s.chunkLost n.val i else (s.count (cid 0x04 1 i.lp)).dropSlot n.val i.seq)) ∧
      (go → s.freeThread n.val = none → exec (.prismDispatch n ⟨perr, shipped⟩) s = .next (if i.stalled = true ∨ i.kind = 3 then s
        else (s.modItem n.val i.seq fun x => { x with stalled := true }).count (cid 0x04 0 i.lp))) ∧
      (∀ k, go → s.freeThread n.val = some k →
        (i.kind = 3 → exec (.prismDispatch n ⟨perr, shipped⟩) s = .next (s.startChunk n.val k i entry high whole)) ∧
        (i.kind ≠ 3 → perr = true → exec (.prismDispatch n ⟨perr, shipped⟩) s = .next ((s.itemParity n.val i).dropSlot n.val i.seq)) ∧
        (i.kind ≠ 3 → perr = false → whole = true → exec (.prismDispatch n ⟨perr, shipped⟩) s = .next (s.shipFrame n.val i)) ∧
        (i.kind ≠ 3 → perr = false → whole = false → exec (.prismDispatch n ⟨perr, shipped⟩) s =
          .next ((s.modItem n.val i.seq fun x => { x with stage := .running k }).setThread n.val k { Thread.reset with
            mode := .ready, fctx := i.fctx, pc := entry, high := high, item := some i.seq, since := s.clk })))) ∧
    (∀ (lp : Fin 64) dir perr parser em,
      let recv := dir == Dir.receive
      let n := if recv then s.rxPrism lp.val else lp.val / 4
      let mine := fun (i : Item) => i.kind != 3 && i.recv == recv && i.lp == lp.val
      let gone := (((s.unit n).items.filter mine).takeWhile fun i => i.stage == .dropped && i.kind == 0).map (·.seq)
      let u := s.setUnit n { s.unit n with items := (s.unit n).items.filter fun i => !gone.contains i.seq };
      ((u.unit n).items.find? mine = none → exec (.reorderRelease lp dir perr parser em) s = .next u) ∧
      (∀ i, (u.unit n).items.find? mine = some i →
        (i.kind = 1 → exec (.reorderRelease lp dir perr parser em) s = .next (u.facetRelease n recv perr)) ∧
        (∀ e, i.kind ≠ 1 → i.stage = .emitted e → exec (.reorderRelease lp dir perr parser em) s =
          .next (if recv then u.rxRelease n i (some e) perr parser em else u.txRelease n i (some e) perr)) ∧
        (i.kind ≠ 1 → i.stage = .plain → exec (.reorderRelease lp dir perr parser em) s =
          .next (if recv then u.rxRelease n i none perr parser em else u.txRelease n i none perr)) ∧
        (i.kind ≠ 1 → i.stage ≠ .plain → (∀ e, i.stage ≠ .emitted e) → exec (.reorderRelease lp dir perr parser em) s = .next u))) ∧
    (∀ n i e parser em,
      let gone := fun (u : State) => u.setUnit n { u.unit n with items := (u.unit n).items.filter (·.seq != i.seq) }
      let body := i.plaintext.take (e.len - 4)
      let r := s.releaseCheck i e;
      (s.rxRelease n i none false parser em = (gone s).classify
        ⟨{ TFrame.arrived (64 + i.lp) (slice i.bytes 0 i.head) none i.keep i.stamp true none with cut := false }, parser, em⟩) ∧
      (i.verified = false → s.rxRelease n i (some e) false parser em =
        gone (s.dropFor n i.assoc (tagReason (s.lport (64 + i.lp)).macsec.toNat i.enc) i)) ∧
      (i.verified = true → s.rxRelease n i (some e) false parser em =
        let v := gone (r.2.saLeave i.sa)
        if r.1 then v.classify ⟨{ TFrame.arrived (64 + i.lp) body (some (Crypto.crc32 body)) i.keep i.stamp false (some i.assoc) with
          cut := false }, parser, em⟩ else v) ∧
      (i.taken = none ∨ beAt i.bytes i.offset 2 ≠ 0x88E5 → s.txRelease n i (some e) false = gone ((s.count (cid 0x04 1 i.lp)).dropSlot n i.seq)) ∧
      (i.taken ≠ none → beAt i.bytes i.offset 2 = 0x88E5 → i.cut = false → i.fcs = none →
        let b := i.packed.take (e.len - 4)
        let v := (s.sentStamp 1 i.lp i.tsId true).emit (.lineFrame i.lp (b ++ fcsBytes b true))
        let w := match i.frame with | some f => v.freeFrame (some (128 + n)) f | none => v
        s.txRelease n i (some e) false = gone ((if e.enc then (w.stat i.assoc 1 1).stat i.assoc 3 e.octets
          else (w.stat i.assoc 0 1).stat i.assoc 2 e.octets).saLeave i.sa))) ∧
    (∀ (q : BitVec 12),
      ((s.parkedOf q.toNat fun x => !x.twin) = none → exec (.holdLimitExpiry q) s = .next s) ∧
      (∀ n p, (s.parkedOf q.toNat fun x => !x.twin) = some (n, p) →
        let w := s.passTo p.due
        exec (.holdLimitExpiry q) s = .next ((w.setUnit n { w.unit n with
          expired := p.item.handle :: (w.unit n).expired.filter (· != p.item.handle) }).dropParked n 5 p)) ∧
      (s.parkedOf q.toNat s.cleared = none → exec (.parkedFrameRedispatch q) s = .next s) ∧
      (∀ n p, s.parkedOf q.toNat s.cleared = some (n, p) → exec (.parkedFrameRedispatch q) s =
        .next (if 256 ≤ s.reorderUsed n false then s else ((s.setUnit n { s.unit n with
          parked := (s.unit n).parked.filter fun x => x.item.seq != p.item.seq }).addItem n { p.item with stalled := false }).restop))))

/-- CRYPTO_BLOCK (R74, R206, R505): with a usable key of the right class and rights and a Prism that executes them, the command reads its
blocks and gives the Prism the first chunk of at most 256 blocks; a field out of range, a class, a right, a disabled Prism, an empty slot and
a buffer that cannot be read are answered by name. -/
def Obligations.CryptoBlockGivesItsChunks : Prop :=
  ∀ (d : Desc) (s s0 : State), Accepted d 0 [(8, 4), (0xC, 1), (0x10, 8), (0x18, 8), (0x20, 4), (0x30, 16)] s s0 →
    let op := d.get 0xC 1
    let count := d.get 0x20 4
    let key := slotField d 8
    let n := keyIndex key / 8192
    let use := (s0.slot key).shown.use
    let st : Status := if slotFieldOk d 8 = false ∨ 2 < op ∨ count = 0 ∨ 65536 < count ∨ (op ≠ 2 ∧ d.get 0x30 16 ≠ 0) then .badRequest
      else if d.slotClass 8 ≠ 0 then .wrongClass
      else if use.getLsbD 0 = false ∨ (op = 1 ∧ use.getLsbD 3 = false) then .badUsage
      else if bitOf (s0.regN (0x02000000 + 0x100000 * n)) 1 = false then .disabled
      else if s0.usable key = false then .slotEmpty else .ok
    let q := s0.readBuf d .annulus (d.get 0x10 8) (16 * count);
    (st ≠ .ok → exec (.cryptoBlock d) s = .next (s0.done d st)) ∧
    (∀ e, st = .ok → q.1 = .error e → exec (.cryptoBlock d) s = .next (q.2.done d e)) ∧
    (∀ bs, st = .ok → q.1 = .ok bs →
      let r : CryptoRun := { desc := d, done := 0, gen := none, input := bs, out := [], chunk := none }
      exec (.cryptoBlock d) s = .next ((q.2.setUnit n { q.2.unit n with crypto := (q.2.unit n).crypto ++ [r] }).nextChunk n r)) ∧
    (∀ bs, st = .ok → q.1 = .ok bs → q.2.usable key = true → (q.2.slot key).act.block = true → (op = 1 → (q.2.slot key).act.dec = true) → ∃ (t : State) (i : Item), exec (.cryptoBlock d) s = .next t ∧
      (t.unit n).items = (q.2.unit n).items ++ [i] ∧ i.kind = 3 ∧ i.stage = .waiting ∧ i.len = min 256 count ∧ i.handle = keyIndex key ∧
      i.recv = (op == 1) ∧ t = { q.2 with prism := t.prism })

/-- Radius's settings and service (R282, R290, R291, R508): GROUP, ROUTE and PROFILE store the record of an entry from a buffer whose values
are in range and refuse any other, QUEUE gives a queue its profile; a form beyond the last is BAD_REQUEST; ENABLE on an allowed area makes an
IDLE Radius RUNNING with 0x1CC, over a cleared area where its tables are empty; DISABLE makes it DRAINING, and the last item, or the timeout,
which drops what is left, makes it IDLE and completes the command.

Checkpoints (R307, R309, R510): WRITE stores the entries of the records marked to be written, as many as its buffer holds, marks them with
its generation and raises 0x1C9; CONFIRM makes the value written the confirmed one in the records of its generation and tries held requests
again; while a rail is in its warning band a checkpoint pauses.

SENSOR_WRITE (R284, R286, R289, R309, R509): INSERT puts a record whose identifier is absent into a free slot, or one that moves free,
REPLACE overwrites it, DELETE frees its slot, and READ returns it, each with the slot in R0; a present or absent record, a value out of range
and a record that fails integrity are answered by name. A gateway record that is VALID retires, and INSERT revives a retired one. The counters
of a record written follow its NEXT field. -/
def Obligations.RadiusSettingsCheckpointsAndRecords : Prop :=
  (∀ (d : Desc) (s s0 : State),
    let i := d.get 0xC 4
    (Accepted d 0 [(8, 1), (0xC, 4), (0x10, 8)] s s0 →
      let run := fun n => s0.readBuf d .annulus (d.get 0x10 8) n
      let set := fun (c : Instr) (op m n : Nat) (ok : Nat → Bool) (put : Nat → State → State) => let q := run n;
        (4 < d.get 8 1 → exec c s = .next (s0.done d .badRequest)) ∧
        (d.get 8 1 = op → m ≤ i → exec c s = .next (s0.done d .badRequest)) ∧
        (∀ st, d.get 8 1 = op → i < m → q.1 = .error st → exec c s = .next (q.2.done d st)) ∧
        (∀ bs, d.get 8 1 = op → i < m → q.1 = .ok bs → exec c s =
          .next (if ok (leNat bs) then (put (leNat bs) q.2).done d .ok else q.2.done d .badRequest));
      set (.sensorGroupSetGroup d) 0 4096 32 groupOk (fun v u => u.withRadius { u.radius with
        groups := tput 0 u.radius.groups i (BitVec.ofNat 256 v) }) ∧
      set (.sensorGroupSetRoute d) 1 256 48 routeOk (fun v u => u.withRadius { u.radius with
        routes := tput 0 u.radius.routes i (BitVec.ofNat 384 v) }) ∧
      set (.sensorGroupSetProfile d) 2 64 32 profileOk (fun v u => u.withRadius { u.radius with
        profiles := tput 0 u.radius.profiles i (BitVec.ofNat 256 v) })) ∧
    (Accepted d 0 [(8, 1), (0xC, 4), (0x18, 4)] s s0 →
      (d.get 8 1 = 3 → i < 8192 → d.get 0x18 4 < 64 → exec (.sensorGroupSetQueue d) s = .next ((s0.withRadius { s0.radius with
        queues := tput 0 s0.radius.queues i (BitVec.ofNat 6 (d.get 0x18 4)) }).done d .ok)) ∧
      (4 < d.get 8 1 ∨ (d.get 8 1 = 3 ∧ (8192 ≤ i ∨ 64 ≤ d.get 0x18 4)) → exec (.sensorGroupSetQueue d) s = .next (s0.done d .badRequest))) ∧
    (Accepted d 1 [(8, 1)] s s0 →
      let base := s0.regN 0x03001000 % 1024
      let area := s0.areaOk (2 ^ 30 * base)
      let u := s0.withRadius { s0.radius with base := base }
      let v := if s0.radius.sensors = 0 ∧ s0.radius.gateways = 0 then u.clearArea else u;
      (4 < d.get 8 1 → exec (.serviceEnable d) s = .next (s0.done d .badRequest) ∧ exec (.serviceDisable d) s = .next (s0.done d .badRequest)) ∧
      (d.get 8 1 = 4 → bitOf d.flags 0 = true →
        (s0.radius.mode = .idle → area = true → exec (.serviceEnable d) s =
          .next (((v.withRadius { v.radius with mode := .running }).raise 0x1CC []).done d .ok)) ∧
        (s0.radius.mode = .idle → area = false → exec (.serviceEnable d) s = .next (s0.done d .badRequest)) ∧
        (s0.radius.mode = .running → exec (.serviceEnable d) s = .next ((s0.raise 0x1CC []).done d .ok)) ∧
        (s0.radius.mode = .draining → exec (.serviceEnable d) s = .next (s0.done d .inUse))) ∧
      (d.get 8 1 = 4 → bitOf d.flags 0 = false →
        (s0.radius.mode = .running → exec (.serviceDisable d) s = .next (s0.withRadius { s0.radius with
          mode := .draining, disable := some (d, s0.clk + s0.timeoutOf d 1000000) })) ∧
        (s0.radius.mode = .idle → exec (.serviceDisable d) s = .next ((s0.raise 0x1CC []).done d .ok)) ∧
        (s0.radius.mode = .draining → exec (.serviceDisable d) s = .next (s0.done d .inUse)))) ∧
    (∀ e due, s.radius.disable = some (e, due) →
      let off := fun (u : State) rep => ((u.withRadius { u.radius with mode := .idle, disable := none }).raise 0x1CC []).complete e rep
      let l := (s.passTo due).radius.items;
      (s.radius.items = [] → exec .radiusDrainEnd s = .next (off s { status := .ok })) ∧
      (s.radius.items ≠ [] → exec .radiusDrainEnd s = .next s) ∧
      exec .radiusDrainTimeout s = .next (off (l.foldl State.drainDrop (s.passTo due))
        (if l = [] then { status := .ok } else { status := .drainedLate, r0 := l.length }))) ∧
    (s.radius.disable = none → exec .radiusDrainEnd s = .next s ∧ exec .radiusDrainTimeout s = .next s)) ∧
  (∀ (d : Desc) (s s0 : State), Accepted d 0 [(8, 1), (0xC, 4), (0x10, 8), (0x18, 4), (0x1C, 4)] s s0 →
    let gen := d.get 0xC 4
    let pause := s0.withRadius { s0.radius with paused := s0.radius.paused ++ [⟨d, s0.clk⟩] }
    (1 < d.get 8 1 → exec (.sensorCheckpointWrite d) s = .next (s0.done d .badRequest) ∧
      exec (.sensorCheckpointConfirm d) s = .next (s0.done d .badRequest)) ∧
    (s0.cpr.warn ≠ [] → (d.get 8 1 = 0 → exec (.sensorCheckpointWrite d) s = .next pause) ∧
      (d.get 8 1 = 1 → exec (.sensorCheckpointConfirm d) s = .next pause)) ∧
    (s0.cpr.warn = [] → d.get 8 1 = 0 →
      let g := State.ckptGo (s0.sensorSlots.filter fun k => d.get 0x1C 4 ≤ k) (d.get 0x18 4 / 16) s0 []
      let recs := g.1.1
      let out := recs.flatMap fun (e : Nat × List Byte) => slice e.2 0 8 ++ slice e.2 0x0C 4 ++ slice e.2 0x20 4
      let w := if out = [] then (true, g.2) else g.2.writeMem .annulus (ringOwner d.ring.val) (d.get 0x10 8) out
      let z := recs.foldl (fun v (e : Nat × List Byte) => v.areaWrite (v.recAddr false e.1) (patch (patch e.2 0x28 (slice e.2 0x20 4 ++ le 4 gen)) 0x0A
        (le 2 (recFlags e.2 &&& 0xFFFB)))) w.2;
      (w.1 = false → exec (.sensorCheckpointWrite d) s = .next (w.2.done d .badRequest)) ∧
      (w.1 = true → exec (.sensorCheckpointWrite d) s = .next ((z.raise 0x1C9 ([0#8] ++ le 4 gen ++ le 4 recs.length)).complete d
        { status := if g.1.2.isSome then .bufferFull else .ok, r0 := recs.length + 2 ^ 32 * g.1.2.getD 0, r1 := 0 }))) ∧
    (s0.cpr.warn = [] → d.get 8 1 = 1 →
      let g := s0.sensorSlots.foldl (fun (x : Nat × State) k => let v := x.2.visit k
        match v.1 with
        | none => (x.1, v.2)
        | some r => if leAt r 0x2C 4 = gen then (x.1 + 1, v.2.areaWrite (v.2.recAddr false k) (patch r 0x24 (slice r 0x28 4))) else (x.1, v.2)) (0, s0)
      exec (.sensorCheckpointConfirm d) s =
        .next ((g.2.retryHeld.raise 0x1C9 ([1#8] ++ le 4 gen ++ le 4 g.1)).complete d { status := .ok, r1 := 0 }))) ∧
  (∀ (d : Desc) (s s0 : State), Accepted d 3 [(8, 1), (0x10, 8)] s s0 →
    let gw := bitOf d.flags 0
    let op := d.get 8 1
    let q := s0.readBuf d .annulus (d.get 0x10 8) 64
    (gw = false → s.recordBusy d = false → s.insertWaits d = false →
      let rows := [(Instr.sensorWriteInsert d, 0), (.sensorWriteReplace d, 1), (.sensorWriteDelete d, 2), (.sensorWriteRead d, 3)];
      (∀ c ∈ rows, 3 < op → exec c.1 s = .next (s0.done d .badRequest)) ∧
      (∀ c ∈ rows, ∀ st, op = c.2 → q.1 = .error st → exec c.1 s = .next (q.2.done d st)) ∧
      (∀ bs, q.1 = .ok bs →
        let id := leAt bs 0 8
        let f := q.2.findRecord false id
        let w := f.2;
        (∀ c ∈ rows, op = c.2 → id = 0 ∨ (op < 2 ∧ sensorOk bs = false) → exec c.1 s = .next (q.2.done d .badRequest)) ∧
        (id ≠ 0 → (op < 2 → sensorOk bs = true) →
          (∀ c ∈ rows, op = c.2 → f.1 = .bad → exec c.1 s = .next ((w.recordBad id).done d .integrity)) ∧
          (∀ c ∈ rows, op = c.2 → 1 ≤ op → f.1 = .absent → exec c.1 s = .next (w.done d .notFound)) ∧
          (op = 0 → f.1 = .absent →
            let r := w.sensorNew none bs (bitOf d.flags 1)
            let k := w.insertSensor r;
            (k.1 = none → exec (.sensorWriteInsert d) s = .next ((k.2.raise 0x1CA []).done d .tableFull)) ∧
            (∀ j, k.1 = some j → exec (.sensorWriteInsert d) s =
              .next ((k.2.countSensor none (some r)).complete d { status := .ok, r0 := j % 2 ^ 21 }))) ∧
          (∀ k o, f.1 = .found (k, o) →
            let r := w.sensorNew (some o) bs (bitOf d.flags 1)
            let out := w.writeMem .annulus (ringOwner d.ring.val) (d.get 0x10 8) o;
            (op = 0 → exec (.sensorWriteInsert d) s = .next (w.done d .exists_)) ∧
            (op = 1 → exec (.sensorWriteReplace d) s = .next (((w.areaWrite (w.recAddr false k) r).countSensor (some o) (some r)).complete d
              { status := .ok, r0 := k % 2 ^ 21 })) ∧
            (op = 2 → exec (.sensorWriteDelete d) s = .next ((((w.setIndex false k 0).areaWrite (w.recAddr false k)
              (List.replicate 64 0)).countSensor (some o) none).complete d { status := .ok, r0 := k % 2 ^ 21 })) ∧
            (op = 3 → exec (.sensorWriteRead d) s =
              .next (out.2.complete d (if out.1 then { status := .ok, r0 := k % 2 ^ 21 } else { status := .badRequest }))))))) ∧
    (gw = true →
      let rows := [(Instr.gatewayInsert d, 0), (.gatewayReplace d, 1), (.gatewayDelete d, 2), (.gatewayRead d, 3)];
      (∀ c ∈ rows, 3 < op → exec c.1 s = .next (s0.done d .badRequest)) ∧
      (∀ c ∈ rows, ∀ st, op = c.2 → q.1 = .error st → exec c.1 s = .next (q.2.done d st)) ∧
      (∀ bs, q.1 = .ok bs →
        let id := leAt bs 0 8
        let f := q.2.findRecord true id
        let w := f.2;
        (∀ c ∈ rows, op = c.2 → id = 0 ∨ (op < 2 ∧ gatewayOk bs = false) → exec c.1 s = .next (q.2.done d .badRequest)) ∧
        (id ≠ 0 → (op < 2 → gatewayOk bs = true) →
          (∀ c ∈ rows, op = c.2 → f.1 = .bad → exec c.1 s = .next ((w.recordBad id).done d .integrity)) ∧
          (∀ c ∈ rows, op = c.2 → 1 ≤ op → f.1 = .absent → exec c.1 s = .next (w.done d .notFound)) ∧
          (op = 0 → f.1 = .absent →
            let k := w.freeSlot true id;
            (k.1 = none → exec (.gatewayInsert d) s = .next ((k.2.raise 0x1CA []).done d .tableFull)) ∧
            (∀ j, k.1 = some j →
              let z := k.2.putRecord true j (gatewayNew bs)
              exec (.gatewayInsert d) s =
                .next ((z.withRadius { z.radius with gateways := z.radius.gateways + 1 }).complete d { status := .ok, r0 := j % 2 ^ 21 }))) ∧
          (∀ k o, f.1 = .found (k, o) →
            let ok := ({ status := .ok, r0 := k % 2 ^ 21 } : Reply)
            let put := fun r => w.areaWrite (w.recAddr true k) r
            let gone := (w.setIndex true k 0).areaWrite (w.recAddr true k) (List.replicate 64 0)
            let out := w.writeMem .annulus (ringOwner d.ring.val) (d.get 0x10 8) o;
            (op = 0 → exec (.gatewayInsert d) s = .next (if gwRetired o then (put (gatewayNew bs)).complete d ok else w.done d .exists_)) ∧
            (op = 1 → exec (.gatewayReplace d) s = .next ((put (if gwRetired o then patch bs 8 [BitVec.ofNat 8 (leAt bs 8 1 &&& 0x0E ||| 0x10)]
              else gatewayNew bs)).complete d ok)) ∧
            (op = 2 → exec (.gatewayDelete d) s = .next (if gwValid o then (put (patch o 8 [BitVec.ofNat 8 ((leAt o 8 1 &&& 0xFE) ||| 0x10)])).complete
              d ok else (gone.withRadius { gone.radius with gateways := gone.radius.gateways - 1 }).complete d ok)) ∧
            (op = 3 → exec (.gatewayRead d) s =
              .next (out.2.complete d (if out.1 then { status := .ok, r0 := k } else { status := .badRequest }))))))) ∧
    (∀ (u : State) bs, bs.length = 64 → leAt (u.sensorNew none bs false) 0x20 4 = leAt bs 0x20 4 ∧
      leAt (u.sensorNew none bs false) 0x24 4 = leAt bs 0x20 4 ∧ leAt (u.sensorNew none bs false) 0x28 4 = leAt bs 0x20 4 ∧
      leAt (u.sensorNew none bs false) 0x2C 4 = 0 ∧ leAt (u.sensorNew none bs false) 0 8 = leAt bs 0 8))

/-- Batches and items of Radius (R25, R292, R294 to R296, R303, R357, Table 12.9, Table 14.4): a running Radius takes its oldest batch unless
items wait for output, frees its cells and checks it in the order of Table 12.9; an item whose record, lock and thread are free is dispatched by
its direction, its lock held for 10 us; an item of an unknown or disabled sensor is dropped and counted; a batch whose items are done is
answered where it asked; a lock whose lease ends is released with 0x1C1.

Datagrams and the downlink store (R302, R305, R306): a datagram of readings goes FLUSH after its first record, or again where it waited for
cells; the records of a queue whose release time has come leave the store when Gnomon time reaches it, in batches for their gateways; a held
request leaves at the end of EXPIRY_MS, a record past its window at once, with the status "expired" and event 0x1C8. -/
def Obligations.RadiusMovesBatchesAndReadings : Prop :=
  (∀ s : State,
    (∀ poison ecc,
      let on := s.radius.mode = .running ∧ (s.aq 255).enabled = true ∧ s.outputWaits = false
      let q := s.inboundTake poison;
      (¬ on → exec (.radiusBatchTake ⟨poison, ecc⟩) s = .next s) ∧
      (on → q.1 = none → exec (.radiusBatchTake ⟨poison, ecc⟩) s = .next q.2) ∧
      (∀ id f, on → q.1 = some id → q.2.frame id = some f → let r := q.2.readFrame id ecc f.bytes
        exec (.radiusBatchTake ⟨poison, ecc⟩) s = .next ((r.2.freeFrame (some 224) id).checkBatch r.1)) ∧
      (∀ id, on → q.1 = some id → q.2.frame id = none → let k := q.2.draw 14
        exec (.radiusBatchTake ⟨poison, ecc⟩) s = .next (((k.2.draw 131072).2.freeFrame (some 224) id).checkBatch (le k.1 (k.2.draw 131072).1)))) ∧
    (∀ data,
      let bs := (batchOf data).getD []
      let v := beAt bs 0 1
      let n := if v = 2 then 24 else 16
      let type := beAt bs 1 1
      let f := s.findRecord true (beAt bs 4 8)
      let recs := if batchOf data = none ∨ bs.length < n then none else splitRecords 4096 (bs.drop n);
      (udpOk data = false → s.checkBatch data = s.dropBatch 0 2) ∧
      (udpOk data = true → type ≠ 1 → v = 0 ∨ 2 < v → s.checkBatch data = s.dropBatch 1 3) ∧
      (udpOk data = true → type ≠ 1 → v = 1 ∨ v = 2 →
        (type ≠ 5 → s.checkBatch data = s.dropBatch 2 4) ∧
        (type = 5 → recs = none → s.checkBatch data = s.dropBatch 4 5) ∧
        (∀ l, type = 5 → recs = some l → s.checkBatch data =
          if l.length = beAt bs 2 2 ∧ l.length ≤ 255 then s.acceptBatch bs l none else s.dropBatch 4 5)) ∧
      (udpOk data = true → type = 1 →
        (f.1 = .absent ∨ f.1 = .bad → v = 0 ∨ 2 < v → s.checkBatch data = f.2.dropBatch 1 3) ∧
        (f.1 = .absent → v = 1 ∨ v = 2 → s.checkBatch data = f.2.dropBatch 3 0) ∧
        (f.1 = .bad → v = 1 ∨ v = 2 → s.checkBatch data = f.2.recordBad (beAt bs 4 8)) ∧
        (∀ h r, f.1 = .found (h, r) →
          (v = 0 ∨ 2 < v ∨ bits (leAt r 8 1) 2 2 < v → s.checkBatch data = f.2.dropBatch 1 3) ∧
          (v = 1 ∨ v = 2 → v ≤ bits (leAt r 8 1) 2 2 →
            (gwRetired r = true → s.checkBatch data = f.2.dropBatch 3 0) ∧
            (gwRetired r = false → recs = none → s.checkBatch data = f.2.dropBatch 4 5) ∧
            (∀ l, gwRetired r = false → recs = some l → s.checkBatch data =
              if l.length = beAt bs 2 2 ∧ l.length ≤ 255 then f.2.acceptBatch bs l (some (h, r)) else f.2.dropBatch 4 5))))) ∧
    (∀ b,
      let x := s.radius.batches.find? fun (y : RBatch) => y.id == b && y.left == 0
      let u := s.withRadius { s.radius with batches := s.radius.batches.filter (·.id != b) };
      (x = none → exec (.batchAck b) s = .next s) ∧
      (∀ y, x = some y → y.ack = none → exec (.batchAck b) s = .next u) ∧
      (∀ y h seq, x = some y → y.ack = some (h, seq) → let r := u.areaRead (u.recAddr true h);
        (r.1 = none → exec (.batchAck b) s = .next r.2) ∧
        (∀ gw, r.1 = some gw → exec (.batchAck b) s = .next (r.2.sendToGateway (patch gw 9 [2#8]) 3 0 seq.toNat []).2))) ∧
    (∀ slot,
      (s.radius.locks.lookup slot = none → exec (.recordLockLeaseExpiry slot) s = .next s) ∧
      (∀ l, s.radius.locks.lookup slot = some l → let u := s.passTo l.due;
        (u.radius.locks.lookup slot = none → exec (.recordLockLeaseExpiry slot) s = .next u) ∧
        (∀ l', u.radius.locks.lookup slot = some l' → exec (.recordLockLeaseExpiry slot) s =
          .next ((u.withRadius { u.radius with locks := tdel u.radius.locks slot }).raise 0x1C1 (le 2 l'.owner ++ le 8 l'.sensor.toNat))))) ∧
    (∀ item t shipped, (s.radius.items.find? fun (x : RItem) => x.id == item && x.thr.isNone) = none →
      exec (.radiusDispatch item ⟨t, shipped⟩) s = .next s) ∧
    (∀ item t shipped i, (s.radius.items.find? fun (x : RItem) => x.id == item && x.thr.isNone) = some i →
      let earlier := (s.radius.items.takeWhile (·.id != item)).any fun (j : RItem) => j.sensor == i.sensor && j.thr.isNone
      let held := t.cl ≠ 16 ∨ earlier = true ∨ (s.cluster 16).pause ≠ none
      let f := s.findRecord false i.sensor.toNat
      let u := f.2
      let unknown := u.rcount 7 none
      let gone := (if i.up then unknown else unknown.toReadingQueue unknown.reservedOut (statusRecord 6 0 i.sensor 0 0 0 0)).endRItem item;
      (held → exec (.radiusDispatch item ⟨t, shipped⟩) s = .next s) ∧
      (¬ held → f.1 = .bad → exec (.radiusDispatch item ⟨t, shipped⟩) s = .next ((u.recordBad i.sensor.toNat).endRItem item)) ∧
      (¬ held → f.1 = .absent → exec (.radiusDispatch item ⟨t, shipped⟩) s = .next gone) ∧
      (∀ slot r, ¬ held → f.1 = .found (slot, r) →
        let g := recGroup r
        let p := tget 0 u.radius.groups g
        let j := { i with slot := slot, group := g, image := r, params := p, route := u.groupRoute p }
        let due : Bool := match u.radius.locks.lookup slot with | some l => decide (l.due ≤ u.clk) | none => false
        let w := if due then u.leaseEnd slot else u
        let busy := (w.radius.locks.lookup slot).isSome = true ∨ (w.thread 16 t.key).mode ≠ .idle
        let x := s.cluster 16
        let entry := match x.active with
          | some h => (((x.half h).map (·.entries)).getD []).getD (4 + b2n i.up) 0xFFFFFFFF
          | none => 0xFFFFFFFF
        let l := ({ k := t.key, pc := entry, high := x.active.getD false, shipped := shipped && w.runsShipped 16 } : Launch);
        (recFlags r % 2 = 0 → exec (.radiusDispatch item ⟨t, shipped⟩) s = .next gone) ∧
        (recFlags r % 2 = 1 → u.groupOn g = false → exec (.radiusDispatch item ⟨t, shipped⟩) s = .next ((u.rcount 8 (some g)).endRItem item)) ∧
        (recFlags r % 2 = 1 → u.groupOn g = true → busy → exec (.radiusDispatch item ⟨t, shipped⟩) s = .next (w.itemStall j)) ∧
        (recFlags r % 2 = 1 → u.groupOn g = true → ¬ busy →
          exec (.radiusDispatch item ⟨t, shipped⟩) s = .next (if i.up then w.upDispatch j l else w.downDispatch j l))))) ∧
  (∀ s : State,
    (∀ g : Fin 4096,
      (∀ x, s.radius.datagrams.find? (·.group == g.val) = some x → exec (.readingBatchFlush g) s =
        .next (if x.closed then s.sendReadings x else (s.passTo x.due).sendReadings x)) ∧
      (s.radius.datagrams.find? (·.group == g.val) = none → exec (.readingBatchFlush g) s = .next s)) ∧
    (∀ q : Fin 8192,
      (∀ t, s.nextRelease q.val = some t → s.radius.mode = .running → let u := s.passToTime t
        exec (.downlinkWindowRelease q) s = .next (u.releaseQueue u.gnomon.time q.val)) ∧
      (s.nextRelease q.val = none ∨ s.radius.mode ≠ .running → exec (.downlinkWindowRelease q) s = .next s)) ∧
    (∀ n, (s.radius.store.find? fun (x : StoreEntry) => x.id == n) = none → exec (.downlinkExpiry n) s = .next s) ∧
    (∀ n e, (s.radius.store.find? fun (x : StoreEntry) => x.id == n) = some e →
      let stays := e.held = none ∧ (e.record = [] ∨ (s.radius.mode = .running ∧ s.gnomon.time ≤ e.window))
      let r := (s.passToTime e.expiry).storeRead e
      let w := r.2.withRadius { r.2.radius with store := r.2.radius.store.filter fun e => !([n] : List Nat).contains e.id };
      (stays → exec (.downlinkExpiry n) s = .next s) ∧
      (¬ stays → r.1 = false → exec (.downlinkExpiry n) s = .next w) ∧
      (¬ stays → r.1 = true → exec (.downlinkExpiry n) s = .next ((w.outRecord e.group e.params e.route w.reservedOut
        (statusRecord 2 e.counter e.sensor e.appTag e.gateway e.group e.window)).raise 0x1C8 (le 2 e.queue)))))

/-- The register instructions of Vertex (R240, R242, R245, R246, Table 10.4): a thread that issues one writes the value of Table 10.4, computed
from the registers it held, into the destination, and goes on; g0 reads 0 and p0 reads 1, and writes to them are discarded; NOP changes no
register.

Registers and the end of an instruction (R212, R240, R242, R243): a register reads what was written to it and the others stay; g0 reads 0 and
p0 reads 1 whatever is written; an instruction that goes on moves its thread to the next index with its registers kept, leaves the other
threads and all else but waits that end, and the result of one with latency is pending until it arrives. -/
def Obligations.RegisterInstructionsWriteTheirResult : Prop :=
  (∀ (i : Issue) (x : Ins) (s s0 : State), Issues i x s s0 →
    let t := s0.thread i.t.cl i.t.key
    let a := t.gr x.a
    let b := t.gr x.b
    let n := b.toNat % 64
    let setG := fun (v : BitVec 64) => (s0.modThread i.t.cl i.t.key fun y => y.setG x.d v).settle i.t.cl i.t.key x a
    let setB := fun (v : BitVec 128) => (s0.modThread i.t.cl i.t.key fun y => y.setB x.d v).settle i.t.cl i.t.key x a
    let setP := fun (v : Bool) => (s0.modThread i.t.cl i.t.key fun y => y.setP x.d v).settle i.t.cl i.t.key x a
    let mode := bits x.ext 35 2
    let p := fun (r : Bool) => if mode = 0 then r else if mode = 1 then t.pr x.d && r else t.pr x.d || r
    let imm37 := (BitVec.ofNat 37 x.ext).signExtend 64
    let imm35 := (BitVec.ofNat 35 x.ext).signExtend 64
    (x.op = 0x00 → exec (.nop (.instruction i)) s = .next ((s0.modThread i.t.cl i.t.key fun y => y).settle i.t.cl i.t.key x a)) ∧
    (∀ v, (x.op = 0x01 ∧ v = a + b) ∨ (x.op = 0x02 ∧ v = a - b) ∨ (x.op = 0x03 ∧ v = a &&& b) ∨ (x.op = 0x04 ∧ v = a ||| b) ∨
        (x.op = 0x05 ∧ v = a ^^^ b) ∨ (x.op = 0x06 ∧ v = a &&& ~~~b) ∨ (x.op = 0x07 ∧ v = a <<< n) ∨ (x.op = 0x08 ∧ v = a >>> n) ∨
        (x.op = 0x09 ∧ v = a.sshiftRight n) ∨ (x.op = 0x0A ∧ v = a.rotateLeft n) → exec (.aluRegisterOp i) s = .next (setG v)) ∧
    (x.op = 0x0B → exec (.mul i) s = .next (setG (a * b))) ∧
    (x.op = 0x0C → exec (.mulhu i) s = .next (setG (BitVec.ofNat 64 (a.toNat * b.toNat / 2 ^ 64)))) ∧
    (∀ v, (x.op = 0x11 ∧ v = a + imm37) ∨ (x.op = 0x13 ∧ v = a &&& imm37) ∨ (x.op = 0x14 ∧ v = a ||| imm37) ∨
        (x.op = 0x15 ∧ v = a ^^^ imm37) ∨ (x.op = 0x17 ∧ v = a <<< (imm37.toNat % 64)) ∨ (x.op = 0x18 ∧ v = a >>> (imm37.toNat % 64)) ∨
        (x.op = 0x19 ∧ v = a.sshiftRight (imm37.toNat % 64)) ∨ (x.op = 0x1A ∧ v = a.rotateLeft (imm37.toNat % 64)) →
      exec (.aluImmediateOp i) s = .next (setG v)) ∧
    (x.op = 0x1E → exec (.movi i) s = .next (setG imm37)) ∧
    (x.op = 0x1F → exec (.movhi i) s = .next (setG (BitVec.ofNat 32 x.ext ++ (t.gr x.d).extractLsb' 0 32))) ∧
    (x.op = 0x20 → exec (.ext i) s = .next (setG (BitVec.ofNat 64 (a.toNat / 2 ^ bits x.ext 0 6 % 2 ^ bits x.ext 6 7)))) ∧
    (x.op = 0x21 → exec (.ins i) s = .next (setG (insertBits (t.gr x.d) a (bits x.ext 0 6) (bits x.ext 6 7)))) ∧
    (x.op = 0x22 → exec (.popcClzBswap i) s = .next (setG (BitVec.ofNat 64 ((List.range 64).filter a.getLsbD).length))) ∧
    (x.op = 0x23 → exec (.popcClzBswap i) s = .next (setG (BitVec.ofNat 64 (leadingZeros a)))) ∧
    (x.op = 0x24 → exec (.popcClzBswap i) s = .next (setG (byteSwap a))) ∧
    (x.op = 0x28 → exec (.bset i) s = .next (setB (a ++ b))) ∧
    (x.op = 0x29 → exec (.bget i) s = .next (setG ((t.br x.a).extractLsb' (if bitOf x.ext 0 then 64 else 0) 64))) ∧
    (x.op = 0x2A → exec (.bxor i) s = .next (setB (t.br x.a ^^^ t.br x.b))) ∧
    (x.op = 0x2B → exec (.movs i) s = .next (setG (if x.a = 0 then t.fctx else BitVec.ofNat 64 (vOwner i.t.cl i.t.key)))) ∧
    (∀ r, (x.op = 0x30 ∧ r = (a == b)) ∨ (x.op = 0x31 ∧ r = (a != b)) ∨ (x.op = 0x32 ∧ r = a.slt b) ∨ (x.op = 0x33 ∧ r = a.ult b) ∨
        (x.op = 0x34 ∧ r = a.sle b) ∨ (x.op = 0x35 ∧ r = a.ule b) → exec (.cmp i) s = .next (setP (p r))) ∧
    (∀ r, (x.op = 0x38 ∧ r = (a == imm35)) ∨ (x.op = 0x39 ∧ r = (a != imm35)) ∨ (x.op = 0x3A ∧ r = a.slt imm35) ∨
        (x.op = 0x3B ∧ r = a.ult imm35) ∨ (x.op = 0x3C ∧ r = a.sle imm35) ∨ (x.op = 0x3D ∧ r = a.ule imm35) → exec (.cmpi i) s = .next (setP (p r)))) ∧
  ((∀ (t : Thread) (n m : Nat) (v : BitVec 64), (t.setG n v).gr m = if m = 0 then 0 else if m = n then v else t.gr m) ∧
  (∀ (t : Thread) (n m : Nat) (v : BitVec 128), (t.setB n v).br m = if m = n then v else t.br m) ∧
  (∀ (t : Thread) (n m : Nat) (v : Bool), (t.setP n v).pr m = if m = 0 then true else if m = n then v else t.pr m) ∧
  (∀ (s : State) (c k : Nat) (x : Ins) (base : BitVec 64), (s.thread c k).mode = .ready → ∃ u : State, s.settle c k x base = u ∧
    u = { s with vertex := u.vertex } ∧ (u.thread c k).mode = .ready ∧ (u.thread c k).pc = (s.thread c k).pc + 1 ∧
    (u.thread c k).g = (s.thread c k).g ∧ (u.thread c k).b = (s.thread c k).b ∧ (u.thread c k).p = (s.thread c k).p ∧
    (u.thread c k).results = (s.thread c k).results ++ (match x.later with
      | some ld => if x.writes = [] then [] else
          [⟨x.writes, if ld then some (x.address base (if x.op = 0x52 then 16 else accessSize (bits x.ext 33 3))) else none⟩]
      | none => []) ∧
    (∀ d, d ≠ c → u.cluster d = s.cluster d) ∧
    (∀ j, j ≠ k → u.thread c j = s.thread c j ∨ ((s.thread c j).mode = .waiting ∧ u.thread c j = { s.thread c j with mode := .ready }))))

/-- Words that do not issue their row's effect (R214, R215, R237, R239, R241, R243, R244), whatever the instruction: an illegal word faults its
thread whatever its guard, as does an uncorrectable word of the instruction memory; a word whose guard is false only moves the thread on; one
that must wait makes the thread WAITING; a thread that is not READY, not its engine's choice and not pairing, or a word of another row, issues
nothing. A corrected error is counted with 0x185. -/
def Obligations.WordsFaultWaitOrPassTheirGuard : Prop :=
  ∀ (i : Issue) (e : Ecc) (perr : Bool) (s : State), ∀ c ∈ [(Instr.nop (.instruction i), [0x00]),
      (.aluRegisterOp i, [0x01, 0x02, 0x03, 0x04, 0x05, 0x06, 0x07, 0x08, 0x09, 0x0A]), (.mul i, [0x0B]), (.mulhu i, [0x0C]),
      (.aluImmediateOp i, [0x11, 0x13, 0x14, 0x15, 0x17, 0x18, 0x19, 0x1A]), (.movi i, [0x1E]), (.movhi i, [0x1F]), (.ext i, [0x20]), (.ins i, [0x21]),
      (.popcClzBswap i, [0x22, 0x23, 0x24]), (.bset i, [0x28]), (.bget i, [0x29]), (.bxor i, [0x2A]), (.movs i, [0x2B]),
      (.cmp i, [0x30, 0x31, 0x32, 0x33, 0x34, 0x35]), (.cmpi i, [0x38, 0x39, 0x3A, 0x3B, 0x3C, 0x3D]), (.ld i e, [0x40]), (.st i, [0x41]),
      (.ldb i e, [0x42]), (.stb i, [0x43]), (.ldh i, [0x50]), (.sth i, [0x51]), (.ldhb i, [0x52]), (.sthb i, [0x53]), (.vfence i, [0x5F]),
      (.fget i perr, [0x60]), (.fput i, [0x61]), (.fgetb i perr, [0x62]), (.fputb i, [0x63]), (.saload i, [0x70]), (.pntake i, [0x71]), (.cld i, [0x72]),
      (.cst i, [0x73]), (.benc ⟨i, perr⟩, [0x80]), (.bdec ⟨i, perr⟩, [0x81]), (.bctr ⟨i, perr⟩, [0x82]), (.gfacc ⟨i, perr⟩, [0x83]), (.tagfin ⟨i, perr⟩, [0x84]),
      (.tagcmp ⟨i, perr⟩, [0x85]), (.cas i e, [0x90]), (.fadd i e, [0x91]), (.br i, [0xA0]), (.brr i, [0xA1]), (.call i, [0xA2]), (.ret i, [0xA3]), (.wait i, [0xA4]),
      (.yield i, [0xA5]), (.halt i, [0xA6]), (.emit i, [0xB0]), (.drop i, [0xB1]), (.park i, [0xB2]), (.redo i, [0xB3]), (.evt i, [0xB8])],
    let cl := i.t.cl
    let k := i.t.key
    let u := s.wake cl
    let t := u.thread cl k
    let w := u.fetch cl t.high t.pc
    let x := Ins.of w
    let second := u.pairsNow cl k t.pc w
    let turn := t.mode = .ready ∧ u.eligibleThread cl k = true ∧ (second = true ∨ u.chosen cl (k / 8) = some k)
    let v := if i.imem = .corrected then (u.count (cid 0x05 0 cl)).raiseOnce 0x185 0 [BitVec.ofNat 8 cl] else u
    let mine := x.op ∈ c.2;
    (¬ turn → exec c.1 s = .next u) ∧
    (turn → i.imem = .uncorrectable → exec c.1 s = .next ((u.noteIssue cl k t.pc w second).faultThread cl k .imemEcc)) ∧
    (turn → i.imem ≠ .uncorrectable →
      (x.legal cl = false → exec c.1 s = .next ((v.noteIssue cl k t.pc w second).faultThread cl k .illegal)) ∧
      (x.legal cl = true → ¬ mine → exec c.1 s = .next u) ∧
      (x.legal cl = true → mine → v.mustWait cl k x = true → exec c.1 s = .next (v.holdThread cl k)) ∧
      (x.legal cl = true → mine → v.mustWait cl k x = false → t.guardOk x = false →
        exec c.1 s = .next ((v.noteIssue cl k t.pc w second).modThread cl k fun y => { y with pc := y.pc + 1 })))

/-- Local and scratch memory of Vertex (R223, R224, R247, R250, R270): a load puts the bytes of the address, aligned to its size and
sign-extended where asked, into its register; a store writes them; CAS stores gs2 where the word equals gd and FADD adds gs2, each answering the
old word. An address past the end, and a store into the port parameter blocks, faults; so do a local parity error and an uncorrectable scratch
word, until it is rewritten; a corrected scratch word counts.

HBM and frame accesses of Vertex (R200, R225, R226, R248, R251, R252, R414): a load brings the bytes Hull reads at the aligned address and notes
a read still to be verified in a CONF+INT region; a store of a thread without a failed read writes through Hull; a thread whose read failed
faults at its next store or fence; what Hull refuses, and an address past 2^40, faults. FGET and FPUT move bytes of the work item, the
lowest-addressed byte most significant, and fault past its end; a staging parity error drops the frame and the bytes are free. -/
def Obligations.MemoryInstructionsAccessTheirSpace : Prop :=
  (∀ (i : Issue) (x : Ins) (s s0 : State) (ecc : Ecc), Issues i x s s0 →
    let c := i.t.cl
    let k := i.t.key
    let t := s0.thread c k
    let n := 2 ^ bits x.ext 33 3
    let at_ := fun (m : Nat) => addOff (t.gr x.a) (bits x.ext 0 32) / m * m
    let scratch := bitOf x.ext 36
    let v := s0.cluster c
    let load := fun (r : Instr) (op m : Nat) (put : List Byte → Thread → Thread) => x.op = op →
      let q := s0.scratchRead c (at_ m) m ecc;
      (scratch = false → 0x4000 ≤ at_ m → exec r s = .next (s0.faultThread c k .localRange)) ∧
      (scratch = false → at_ m < 0x4000 → ecc ≠ .clean → exec r s = .next (s0.faultThread c k .localParity)) ∧
      (scratch = false → at_ m < 0x4000 → ecc = .clean →
        exec r s = .next ((s0.modThread c k (put (wordsGet v.locals (0x4000 * (k / 8) + at_ m) m))).settle c k x (t.gr x.a))) ∧
      (scratch = true → scratchSize c ≤ at_ m → exec r s = .next (s0.faultThread c k .scratchRange)) ∧
      (scratch = true → at_ m < scratchSize c → q.1 = false → exec r s = .next (q.2.faultThread c k .scratchEcc)) ∧
      (scratch = true → at_ m < scratchSize c → q.1 = true →
        exec r s = .next ((q.2.modThread c k (put (wordsGet v.scratch (at_ m) m))).settle c k x (t.gr x.a)))
    let store := fun (r : Instr) (op m : Nat) (bs : List Byte) => x.op = op →
      (scratch = false → 0x4000 ≤ at_ m → exec r s = .next (s0.faultThread c k .localRange)) ∧
      (scratch = false → at_ m < 0x4000 → exec r s =
        .next ((s0.setCluster c { v with locals := wordsPut v.locals (0x4000 * (k / 8) + at_ m) bs }).settle c k x (t.gr x.a))) ∧
      (scratch = true → scratchSize c ≤ at_ m ∨ paramRange c (at_ m) = true → exec r s = .next (s0.faultThread c k .scratchRange)) ∧
      (scratch = true → at_ m < scratchSize c → paramRange c (at_ m) = false →
        exec r s = .next ((s0.scratchWrite c (at_ m) bs).settle c k x (t.gr x.a)) ∧
        ((s0.scratchWrite c (at_ m) bs).cluster c).scratch = wordsPut v.scratch (at_ m) bs)
    let a8 := (t.gr x.a).toNat / 8 * 8
    let q8 := s0.scratchRead c a8 8 ecc
    let old := BitVec.ofNat 64 (leNat (wordsGet v.scratch a8 8))
    let bad8 := scratchSize c ≤ a8 ∨ paramRange c a8 = true;
    load (.ld i ecc) 0x40 n (fun bs y => y.setG x.d (x.loaded bs)) ∧ load (.ldb i ecc) 0x42 16 (fun bs y => y.setB x.d (BitVec.ofNat 128 (leNat bs))) ∧
    store (.st i) 0x41 n (le n (t.gr x.b).toNat) ∧ store (.stb i) 0x43 16 (le 16 (t.br x.b).toNat) ∧
    (∀ r ∈ [(Instr.cas i ecc, 0x90), (.fadd i ecc, 0x91)], x.op = r.2 →
      (bad8 → exec r.1 s = .next (s0.faultThread c k .scratchRange)) ∧ (¬ bad8 → q8.1 = false → exec r.1 s = .next (q8.2.faultThread c k .scratchEcc))) ∧
    (x.op = 0x90 → ¬ bad8 → q8.1 = true → exec (.cas i ecc) s = .next ((((if old = t.gr x.d then q8.2.scratchWrite c a8 (le 8 (t.gr x.b).toNat)
      else q8.2).modThread c k fun y => (y.setP x.pk (old == t.gr x.d)).setG x.d old)).settle c k x (t.gr x.a))) ∧
    (x.op = 0x91 → ¬ bad8 → q8.1 = true → exec (.fadd i ecc) s =
      .next (((q8.2.scratchWrite c a8 (le 8 (old + t.gr x.b).toNat)).modThread c k fun y => y.setG x.d old).settle c k x (t.gr x.a))) ∧
    (∀ a m, let q := s0.scratchRead c a m ecc
      (q.1 = true ↔ ecc ≠ .uncorrectable ∧ ∀ w ∈ [a / 8, (a + m - 1) / 8], w ∉ v.badScratch) ∧
      (q.1 = true → q.2 = if ecc = .corrected then (s0.count (cid 0x05 1 c)).raiseOnce 0x185 0 [BitVec.ofNat 8 c] else s0) ∧
      (ecc = .uncorrectable → a / 8 ∈ (q.2.cluster c).badScratch))) ∧
  (∀ (i : Issue) (x : Ins) (s s0 : State), Issues i x s s0 →
    let c := i.t.cl
    let k := i.t.key
    let t := s0.thread c k
    let n := 2 ^ bits x.ext 33 3
    let at_ := fun (m : Nat) => addOff (t.gr x.a) (bits x.ext 0 32) / m * m
    let off := ((t.gr x.a) + BitVec.ofNat 64 (bits x.ext 0 16)).toNat
    let m := 2 ^ bits x.ext 16 3
    let note := fun (r : Nat) (a : Nat) (u : State) => if (s0.region r).integ then u.modThread c k fun y => { y with reads := y.reads ++ [a] } else u
    let load := fun (r : Instr) (op b : Nat) (put : List Byte → Thread → Thread) => x.op = op →
      let a := at_ b
      let line := s0.readLine (masterOf c) .plainRead (a / 64);
      (2 ^ 40 ≤ a → exec r s = .next (s0.faultThread c k .hbmRefused)) ∧
      (∀ g, a < 2 ^ 40 → line = .ok g →
        exec r s = .next (((note g a s0).modThread c k (put (s0.mem.get a b))).settle c k x (t.gr x.a))) ∧
      (∀ g f, a < 2 ^ 40 → line = .failed g f → let d := s0.draw (8 * b)
        exec r s = .next (((note g a d.2).modThread c k (put (le b d.1))).settle c k x (t.gr x.a))) ∧
      (∀ g, a < 2 ^ 40 → line = .refused g → exec r s = .next ((s0.refuse g (masterOf c)).faultThread c k .hbmRefused)) ∧
      (∀ g f, a < 2 ^ 40 → line = .readOnly g ∨ line = .discarded g f →
        exec r s = .next ((s0.refuse (some g) (masterOf c)).faultThread c k .hbmRefused))
    let store := fun (r : Instr) (op b : Nat) (bs : List Byte) => x.op = op →
      let w := s0.writeMem (masterOf c) (vOwner c k) (at_ b) bs;
      (t.failed = true → exec r s = .next (s0.faultThread c k .integrity)) ∧
      (t.failed = false → 2 ^ 40 ≤ at_ b → exec r s = .next (s0.faultThread c k .hbmRefused)) ∧
      (t.failed = false → at_ b < 2 ^ 40 → w.1 = true → exec r s = .next (w.2.settle c k x (t.gr x.a))) ∧
      (t.failed = false → at_ b < 2 ^ 40 → w.1 = false → exec r s = .next (w.2.faultThread c k .hbmRefused))
    let get := fun (r : Bool → Instr) (op b : Nat) (put : List Byte → Thread → Thread) => x.op = op →
      let d := s0.draw (8 * b);
      (∀ e, (s0.frameBytes c k).length < off + b → exec (r e) s = .next (s0.faultThread c k .frameRange)) ∧
      (off + b ≤ (s0.frameBytes c k).length →
        (c < 16 → exec (r true) s = .next (((d.2.stagingParity c k off).modThread c k (put (le b d.1))).settle c k x (t.gr x.a))) ∧
        (∀ e, e = false ∨ 16 ≤ c → exec (r e) s = .next ((s0.modThread c k (put (s0.frameGet c k off b))).settle c k x (t.gr x.a))) ∧
        s0.frameGet c k off b = slice (s0.frameBytes c k) off b)
    let put := fun (r : Instr) (op b : Nat) (bs : List Byte) => x.op = op →
      ((s0.frameBytes c k).length < off + b → exec r s = .next (s0.faultThread c k .frameRange)) ∧
      (off + b ≤ (s0.frameBytes c k).length → exec r s = .next ((s0.setFrame c k off bs).settle c k x (t.gr x.a)));
    load (.ldh i) 0x50 n (fun bs y => y.setG x.d (x.loaded bs)) ∧ load (.ldhb i) 0x52 16 (fun bs y => y.setB x.d (BitVec.ofNat 128 (leNat bs))) ∧
    store (.sth i) 0x51 n (le n (t.gr x.b).toNat) ∧ store (.sthb i) 0x53 16 (le 16 (t.br x.b).toNat) ∧
    (x.op = 0x5F → exec (.vfence i) s = .next (if t.failed then s0.faultThread c k .integrity else s0.settle c k x (t.gr x.a))) ∧
    get (.fget i) 0x60 m (fun bs y => y.setG x.d (BitVec.ofNat 64 (beNat bs))) ∧
    get (.fgetb i) 0x62 16 (fun bs y => y.setB x.d (BitVec.ofNat 128 (beNat bs))) ∧
    put (.fput i) 0x61 m (be m (t.gr x.b).toNat) ∧ put (.fputb i) 0x63 16 (be 16 (t.br x.b).toNat) ∧
    (∀ q it, c < 16 → t.item = some q → s0.item c q = some it → off + m ≤ it.bytes.length →
      slice ((s0.setFrame c k off (be m (t.gr x.b).toNat)).frameBytes c k) off m = be m (t.gr x.b).toNat ∧
      ∀ j, j + 1 ≤ off ∨ off + m ≤ j → ((s0.setFrame c k off (be m (t.gr x.b).toNat)).frameBytes c k)[j]? = it.bytes[j]?))

/-- Word tables of Vertex memory (R223, R224, R247): the bytes of an aligned store read back, and no other byte changes. -/
def Obligations.ScratchReadsWhatWasWritten : Prop :=
  ∀ (t : Tbl (BitVec 64)) (a n : Nat) (bs : List Byte), (n = 1 ∨ n = 2 ∨ n = 4 ∨ n = 8 ∨ n = 16) → a % n = 0 → bs.length = n →
    wordsGet (wordsPut t a bs) a n = bs ∧ ∀ j, j < a ∨ a + n ≤ j → wordsGet (wordsPut t a bs) j 1 = wordsGet t j 1

/-- Context and counter instructions (R220, R253 to R257, Table 10.5): SALOAD of a work item of TYPE 0 or 1, once, starts the operation of its
handle, takes the lock where asked, answers Table 10.5 and says whether it captured a key; PNTAKE of a transmit operation with a key, once,
answers the counter value it takes, or a reason with its predicate 0; CLD reads a word of the context; CST writes a microcode word under the
lock. Another partition's handle, an offset outside the rule and a form that is not valid fault.

Operations (R64, R71, R220, R253): an operation captures the key of its association's DK slot of the phase in force when that association
is ACTIVE and the slot serves it, and is then in flight and counted on its slot; otherwise nothing changes and there is no key. SALOAD's result
has the fields of Table 10.5.

The block instructions (R199, R221, R259 to R261, R299): a descriptor that is not refused, with its key in time, is outstanding with the ranges
it reads and writes, and has its effect at once; in Radius it waits for the derivation of its key, and a derivation lets those that waited go
on. TAGCMP's predicate says whether the two slices are equal. A staging parity error drops the frame. Any other descriptor faults.

What a descriptor does (R198, R260, R274, R299): BENC and BDEC write the AES of the blocks they read, BCTR the key stream or its sum with the
data, and where routed hashes it; GFACC hashes, TAGFIN writes the tag and clears its accumulator, TAGCMP writes nothing; in Radius BENC derives
the sensor's key or chains a CBC-MAC. The key is the one the operation captured, or the sensor's. -/
def Obligations.ContextAndBlockInstructions : Prop :=
  (∀ (i : Issue) (x : Ins) (s s0 : State), Issues i x s s0 →
    let c := i.t.cl
    let k := i.t.key
    let t := s0.thread c k
    let off := bits x.ext 0 8
    let h := (t.gr x.a).toNat
    let ends := fun (u : State) (f : Thread → Thread) => (u.modThread c k f).settle c k x (t.gr x.a);
    let noted := fun (u : State) (f : Item → Item) => match t.item with
      | some q => u.modItem c q f
      | none => u
    let wrong := 1 < t.kind ∨ t.op.isSome = true ∨ (bitOf x.ext 1 = true ∧ ¬ (t.kind = 1 ∧ t.recv = true));
    (x.op = 0x70 → wrong → exec (.saload i) s = .next (s0.faultThread c k .illegal)) ∧
    (x.op = 0x70 → ¬ wrong → h / 8192 ≠ c → exec (.saload i) s = .next (s0.faultThread c k .partition_)) ∧
    (x.op = 0x70 → ¬ wrong → h / 8192 = c →
      let q := s0.startOp t.recv (if bitOf x.ext 1 then some ((t.gr x.b).getLsbD 0) else none) h
      let r := q.1
      let u := if bitOf x.ext 0 then q.2.takeLock r.handle (vOwner c k) else q.2
      let w := if r.key.isSome then noted u fun y => { y with sa := some r.handle } else u;
      exec (.saload i) s = .next (ends w fun y => (Thread.setP { y with op := some ⟨r.handle, r.key, r.phase, s0.clk, bitOf x.ext 0⟩ }
        x.pk r.key.isSome).setG x.d (saResult (w.sa r.handle) (!r.found) r.phase r.handle)) ∧
      (bitOf x.ext 0 = true → u.lockOwner r.handle = some (vOwner c k))) ∧
    (x.op = 0x71 → t.op = none ∨ (∃ o, t.op = some o ∧ o.key = none) ∨ t.recv = true ∨ t.pnAsked = true →
      exec (.pntake i) s = .next (s0.faultThread c k .illegal)) ∧
    (∀ o slot gen key len, x.op = 0x71 → t.op = some o → o.key = some (slot, gen, key, len) → t.recv = false → t.pnAsked = false →
      let q := s0.takePn c o.handle o.phase slot gen;
      (∀ v, q.1 = .value v → exec (.pntake i) s = .next (ends (noted q.2 fun y => { y with taken := some v }) fun y =>
        (Thread.setP { y with pn := some v, pnAsked := true } x.pk true).setG x.d (BitVec.ofNat 64 v))) ∧
      (∀ why, q.1 = .refused why → exec (.pntake i) s = .next (ends q.2 fun y =>
        (Thread.setP { y with pnAsked := true } x.pk false).setG x.d (BitVec.ofNat 64 why)))) ∧
    (t.op = none → (x.op = 0x72 → exec (.cld i) s = .next (s0.faultThread c k .illegal)) ∧
      (x.op = 0x73 → exec (.cst i) s = .next (s0.faultThread c k .illegal))) ∧
    (∀ o, x.op = 0x72 → t.op = some o →
      (off ≤ 0x8F → exec (.cld i) s = .next (ends s0 fun y => y.setG x.d ((s0.sa o.handle).word off))) ∧
      (0x8F < off → exec (.cld i) s = .next (s0.faultThread c k .partition_))) ∧
    (∀ o, x.op = 0x73 → t.op = some o → let a := s0.sa o.handle
      let mine := s0.lockOwner o.handle = some (vOwner c k);
      (off = 0x80 → mine → exec (.cst i) s =
        .next ((s0.setSa o.handle { a with ucode := a.ucode.extractLsb' 64 64 ++ t.gr x.b }).settle c k x (t.gr x.a))) ∧
      (off = 0x88 → mine → exec (.cst i) s =
        .next ((s0.setSa o.handle { a with ucode := t.gr x.b ++ a.ucode.extractLsb' 0 64 }).settle c k x (t.gr x.a))) ∧
      ((off ≠ 0x80 ∧ off ≠ 0x88) ∨ ¬ mine → exec (.cst i) s = .next (s0.faultThread c k .partition_)))) ∧
  ((∀ (s : State) (recv : Bool) (ph : Option Bool) (h0 : Nat),
    let r := s.resolve (!recv) h0
    let h := r.getD h0
    let a := s.sa h
    let phase := ph.getD a.phase
    let dk := slotKey 0 (if a.facet && phase then a.dkB.toNat else a.dkA.toNat)
    let y := s.slot dk
    let q := s.startOp recv ph h0
    let serves := r.isSome = true ∧ a.status = .active ∧ ¬ (a.facet = true ∧ recv = true ∧ a.expired = some (phase, y.gen)) ∧
      s.usable dk = true ∧ y.act.use.getLsbD (if recv then 3 else 4) = true;
    q.1.found = r.isSome ∧ q.1.handle = h ∧ q.1.phase = phase ∧
    (serves → q.1.key = some (dk, y.gen, ⟨y.act.share, y.act.mask⟩, algLen y.act.alg) ∧ (q.2.slot dk).live = y.live + 1 ∧
      q.2.sa h = { a with inFlight := a.inFlight + 1, untaken := if a.recv then a.untaken else a.untaken + 1 }) ∧
    (¬ serves → q.1.key = none ∧ q.2 = s)) ∧
  (∀ (a : Assoc) (none_ phase : Bool) (h : Nat), h < 2 ^ 17 → let v := (saResult a none_ phase h).toNat
    bits v 0 17 = h ∧ bits v 20 4 = a.status.code ∧ bitOf v 24 = phase ∧ bitOf v 25 = a.hold ∧ bitOf v 26 = none_ ∧ bits v 32 4 = a.suite.toNat)) ∧
  (∀ (i : Issue) (x : Ins) (perr : Bool) (s s0 : State), Issues i x s s0 →
    let c := i.t.cl
    let k := i.t.key
    let t := s0.thread c k
    let d := blockDesc t x
    let bad := s0.badDesc c k d = true ∨ (if c = 16 then s0.radiusRefuses k d else s0.prismRefuses c k d) = true
    let late := d.keysel = 0 ∧ d.keyed = true ∧ c < 16 ∧ ∃ o, t.op = some o ∧ o.since + 2000 < s0.clk
    let o : OutDesc :=
      { op := d.op, reads := d.reads (c == 16), writes := d.writes (c == 16), acc := d.feeds (c == 16), pred := none, held := none }
    let hold := c == 16 && s0.mustHold k d o
    let q := if hold then (false, s0) else if perr = true ∧ c < 16 ∧ d.reads false ≠ [] then s0.descParity c k d
      else (slice (s0.frameBytes c k) d.src d.last == slice (s0.frameBytes c k) d.dst d.last, s0.runDesc c k d)
    let u := if c = 16 ∧ d.keysel = 1 then q.2.runHeld k else q.2
    let w := match t.item with
      | some j => if d.op = 5 ∧ c < 16 then u.modItem c j fun y => { y with verified := q.1 } else u
      | none => u
    ∀ n ∈ [(Instr.benc ⟨i, perr⟩, 0x80), (.bdec ⟨i, perr⟩, 0x81), (.bctr ⟨i, perr⟩, 0x82), (.gfacc ⟨i, perr⟩, 0x83), (.tagfin ⟨i, perr⟩, 0x84),
        (.tagcmp ⟨i, perr⟩, 0x85)], x.op = n.2 →
      (bad → exec n.1 s = .next (s0.faultThread c k .descriptor)) ∧
      (¬ bad → late → exec n.1 s = .next (s0.faultThread c k .keyExpired)) ∧
      (¬ bad → ¬ late → exec n.1 s = .next ((w.modThread c k fun y => { y.begin (c == 16) d with descs := y.descs ++ [{ o with
        pred := if d.op = 5 ∧ x.d ≠ 0 then some (x.d, q.1) else none, held := if hold then some d else none }] }).settle c k x (t.gr x.a)))) ∧
  (∀ (s : State) (c k : Nat) (d : BlockDesc),
    let t := s.thread c k
    let y := s.descKey c k
    let aes := Crypto.aesEnc y.2.2.2 y.2.2.1
    let u := if c < 16 ∧ t.kind = 3 ∧ d.op < 3 then s.countN (cid 0x04 6 (4 * c)) d.count else s
    let acc := tget 0 t.acc d.acc
    let setAcc := fun (v : State) (a : BitVec 128) => v.modThread c k fun z => { z with acc := tput 0 z.acc d.acc a };
    let whole := u.blocksAt c k d.src (16 * d.count)
    let data := u.blocksAt c k d.src d.len
    let ks := keyStream y.2.2.2 y.2.2.1 d.template d.len
    let out := if d.route = 0 then ks else xorList ks (u.frameGet c k d.src d.len)
    let sent := u.setFrame c k d.dst out
    let chain := cbcChain y.2.2.2 y.2.2.1 acc whole
    let tag := Crypto.ghash (aes 0) acc [d.template] ^^^ aes (u.templateOf c k d);
    (∀ o slot gen key len, c ≠ 16 → t.op = some o → o.key = some (slot, gen, key, len) → y = (slot, gen, (key.share ^^^ key.mask).toNat, len)) ∧
    (∀ i key, c = 16 → s.ritemOf k = some i → i.key = some key → y = (0, 0, (key.share ^^^ key.mask).toNat, 16)) ∧
    (d.op = 0 → c ≠ 16 → s.runDesc c k d = u.setFrame c k d.dst ((whole.flatMap fun b => Crypto.blockBytes (aes b)).take d.len)) ∧
    (d.op = 0 → c = 16 → d.keysel ≠ 1 → s.runDesc c k d = (setAcc u chain).setFrame c k d.dst ((Crypto.blockBytes chain).take d.last)) ∧
    (∀ i, d.op = 0 → c = 16 → d.keysel = 1 → s.ritemOf k = some i → s.runDesc c k d = s.derive i ∧
      ∀ j, (s.derive i).ritem i.id = some j → ∃ q, j.key = some q ∧ j.root = some (s.slot (slotKey 1 i.group)).gen ∧ (q.share ^^^ q.mask).toNat =
        (sensorKey (s.slot (slotKey 1 i.group)).act.key (algLen (s.slot (slotKey 1 i.group)).act.alg) i.sensor).toNat) ∧
    (d.op = 1 → s.runDesc c k d = u.setFrame c k d.dst
      ((whole.flatMap fun b => Crypto.blockBytes (Crypto.aesDec y.2.2.2 y.2.2.1 b)).take d.len)) ∧
    (d.op = 2 → d.route < 2 → s.runDesc c k d = sent) ∧
    (d.op = 2 → 2 ≤ d.route → s.runDesc c k d =
      setAcc (sent.hTouch c y.1 y.2.1) (Crypto.ghash (aes 0) acc (if d.route = 2 then Crypto.blocks out else data))) ∧
    (d.op = 3 → s.runDesc c k d = setAcc (u.hTouch c y.1 y.2.1) (Crypto.ghash (aes 0) acc ((u.hTouch c y.1 y.2.1).blocksAt c k d.src d.len))) ∧
    (d.op = 4 → s.runDesc c k d = setAcc ((u.hTouch c y.1 y.2.1).setFrame c k d.dst ((Crypto.blockBytes tag).take d.last)) 0) ∧
    (d.op = 5 → s.runDesc c k d = s))

/-- A counter value is taken once (R102, R103, R256): the value that a transmit association gives is its NEXT, is no more than its last value and
is given under a lease only; NEXT then stands past it, and the high-water value of the captured generation at least as high. Without a lease,
after its switch, past its last value and at its ceiling an association gives none and does not change. A value ends the wait of a switch. -/
def Obligations.CounterValuesAreTakenOnce : Prop :=
  (∀ (s : State) (h dk : Nat) (ph : Bool) (g : BitVec 32),
    let a := s.sa h
    let v := a.nextN
    let q := s.pnTake h ph dk g
    let lease := s.leaseValid = true ∨ s.twin.lease = .handover
    let past := ∃ n, a.left = some n ∧ n ≤ v ∧ (if a.facet then a.phase ≠ ph else a.current = false)
    let armed := a.switchPn ≠ 0 ∧ a.switchPn.toNat ≤ v;
    (∀ n, q.1 = .value n → n = v ∧ n ≤ a.lastValue ∧ s.leaseValid = true ∧ s.twin.lease ≠ .handover ∧
      (q.2.sa h).next = BitVec.ofNat 64 (n + 1) ∧ n < (q.2.sa h).nextN ∧
      (g = (s.slot (slotKey 0 dk)).gen → ∃ w, q.2.highWater dk = some w ∧ n + 1 ≤ w)) ∧
    (¬ lease → q = (.refused 4, s)) ∧
    (lease → past → q = (.refused 5, s)) ∧
    (lease → ¬ past → armed → (s.switchEntry h a.successor.toNat (some a.switchPn.toNat)).1 = true → q.1 = .refused 5) ∧
    (lease → ¬ past → ¬ armed → a.lastValue < v → q = (.refused 1, s)) ∧
    (lease → ¬ past → ¬ armed → v ≤ a.lastValue → a.ceiling ≠ 0 → a.ceiling.toNat ≤ v → q = (.refused 2, s))) ∧
  (∀ (s : State) (c h slot : Nat) (ph : Bool) (g : BitVec 32), let q := s.pnTake h ph (keyIndex slot) g
    let u := q.2.untake h;
    (∀ v, q.1 = .value v →
      s.takePn c h ph slot g = (.value v, u.setUnit c { u.unit c with expired := (u.unit c).expired.filter (· != h) })) ∧
    (∀ why, q.1 = .refused why → s.takePn c h ph slot g = (.refused why, q.2)))

/-- Control instructions (R226, R261 to R263, R268): BR, BRR, CALL and RET continue at their target, CALL with the return index pushed and RET with
it popped; a full or empty stack and a target past the image fault; WAIT goes on; YIELD notes the other READY threads of its engine; EVT raises
the microcode event of its number with the owner, the index and gs1, or faults after a failed read.

Dispositions (R222, R264 to R267, R297): EMIT, DROP, HALT, PARK and REDO end the operation and leave the thread without its item. EMIT leaves
a frame in its reorder slot with the length, PN, octets, E and cause given, and a chunk's blocks with its command; DROP and HALT drop it for
its reason; PARK holds it; REDO lets it wait for dispatch; in Radius EMIT releases the item and DROP counts its reason. An item discarded
under its thread is forgotten. EMIT after a failed read, and PARK and REDO of an item that may not, fault.

What the ends do (R118, R207, R222, R265 to R267, Tables 10.7 and 12.13): the thread is IDLE with no item and no lock of its operation; a dropped
slot is zeroised; a held frame leaves its slot with the time HOLD_MS gives and stops its queue, or is dropped; REDO keeps the slot; each DROP
reason has its counter and event; a write-back that may not be is refused with 0x1C5, and a released item is gone. -/
def Obligations.ControlInstructionsAndDispositions : Prop :=
  (∀ (i : Issue) (x : Ins) (s s0 : State), Issues i x s s0 →
    let c := i.t.cl
    let k := i.t.key
    let t := s0.thread c k
    let dst := bits x.ext 0 14
    let ind := bits (t.gr x.a).toNat 0 14
    let count := s0.count_ c t.high
    let goes := fun (r : Instr) (st : List Nat) (pc : Nat) =>
      exec r s = .next ((s0.setThread c k { t with stack := st }).setThread c k { t with stack := st, pc := pc });
    (x.op = 0xA0 → (dst < count → exec (.br i) s = .next (s0.setThread c k { t with pc := dst })) ∧
      (count ≤ dst → exec (.br i) s = .next (s0.faultThread c k .illegal))) ∧
    (x.op = 0xA1 → (ind < count → exec (.brr i) s = .next (s0.setThread c k { t with pc := ind })) ∧
      (count ≤ ind → exec (.brr i) s = .next (s0.faultThread c k .illegal))) ∧
    (x.op = 0xA2 → (dst < count → t.stack.length < 8 → goes (.call i) ((t.pc + 1) :: t.stack) dst) ∧
      (8 ≤ t.stack.length ∨ count ≤ dst → exec (.call i) s = .next (s0.faultThread c k .illegal))) ∧
    (x.op = 0xA3 → (t.stack = [] → exec (.ret i) s = .next (s0.faultThread c k .illegal)) ∧
      ∀ pc rest, t.stack = pc :: rest → (pc < count → goes (.ret i) rest pc) ∧
        (count ≤ pc → exec (.ret i) s = .next (s0.faultThread c k .illegal))) ∧
    (x.op = 0xA4 → exec (.wait i) s = .next (s0.settle c k x (t.gr x.a))) ∧
    (x.op = 0xA5 → exec (.yield i) s = .next ((s0.modThread c k fun y => { y with
      yield := (List.range 8).filter fun j => j != k % 8 && (s0.thread c (8 * (k / 8) + j)).mode == .ready }).settle c k x (t.gr x.a))) ∧
    (x.op = 0xB8 → t.failed = false → exec (.evt i) s = .next ((s0.raise (0x1A0 + bits x.ext 0 4)
      (le 2 (vOwner c k) ++ le 2 t.pc ++ le 8 (t.gr x.a).toNat)).settle c k x (t.gr x.a))) ∧
    (x.op = 0xB8 → t.failed = true → exec (.evt i) s = .next (s0.faultThread c k .integrity))) ∧
  (∀ (i : Issue) (x : Ins) (s s0 : State), Issues i x s s0 →
    let c := i.t.cl
    let k := i.t.key
    let t := s0.thread c k
    let left := s0.leaveItem c k
    let e : Emitted := ⟨(t.gr x.a).toNat, (t.gr x.b).toNat, (t.gr x.d).toNat, bitOf x.ext 0, bits x.ext 1 3⟩
    let noPark := c = 16 ∨ t.kind ≠ 0 ∨ t.recv = true ∨ t.pn.isSome = true
    let noRedo := c = 16 ∨ 1 < t.kind ∨ t.pn.isSome = true
    let dropped := fun (n : Instr) (reason : Nat) =>
      (∀ it, c ≠ 16 → s0.heldItem c k = some it → exec n s = .next ((left.dropFor c (s0.itemSa c k) reason it).wake c)) ∧
      (c ≠ 16 → s0.heldItem c k = none → exec n s = .next (left.wake c)) ∧
      (∀ it, c = 16 → s0.ritemOf k = some it → exec n s = .next (((s0.dropItem k reason it).idle 16 k).wake 16)) ∧
      (c = 16 → s0.ritemOf k = none → exec n s = .next ((s0.idle 16 k).wake 16));
    (x.op = 0xB0 → (t.failed = true → exec (.emit i) s = .next (s0.faultThread c k .integrity)) ∧
      (∀ it, t.failed = false → c ≠ 16 → s0.heldItem c k = some it → it.kind ≠ 3 →
        exec (.emit i) s = .next ((left.modItem c it.seq fun j => { j with stage := .emitted e }).wake c)) ∧
      (∀ it, t.failed = false → c ≠ 16 → s0.heldItem c k = some it → it.kind = 3 → exec (.emit i) s = .next ((left.chunkDone c it).wake c)) ∧
      (t.failed = false → c ≠ 16 → s0.heldItem c k = none → exec (.emit i) s = .next (left.wake c)) ∧
      (∀ it, t.failed = false → c = 16 → s0.ritemOf k = some it → exec (.emit i) s = .next (((s0.emitItem k x it).idle 16 k).wake 16)) ∧
      (t.failed = false → c = 16 → s0.ritemOf k = none → exec (.emit i) s = .next ((s0.idle 16 k).wake 16))) ∧
    (x.op = 0xB1 → dropped (.drop i) (bits x.ext 0 4)) ∧ (x.op = 0xA6 → dropped (.halt i) 0) ∧
    (x.op = 0xB2 → (noPark → exec (.park i) s = .next (s0.faultThread c k .illegal)) ∧
      (∀ it, ¬ noPark → s0.heldItem c k = some it →
        exec (.park i) s = .next ((left.holdItem c (s0.itemSa c k) (bitOf x.ext 0) it).wake c)) ∧
      (¬ noPark → s0.heldItem c k = none → exec (.park i) s = .next (left.wake c))) ∧
    (x.op = 0xB3 → (noRedo → exec (.redo i) s = .next (s0.faultThread c k .illegal)) ∧
      (∀ it, ¬ noRedo → s0.heldItem c k = some it → exec (.redo i) s = .next ((left.redoItem c it).wake c)) ∧
      (¬ noRedo → s0.heldItem c k = none → exec (.redo i) s = .next (left.wake c)))) ∧
  ((∀ (s : State) (c k : Nat), let u := s.leaveItem c k;
    (u.thread c k).mode = .idle ∧ (u.thread c k).item = none ∧ (u.thread c k).op = none ∧ (u.thread c k).descs = [] ∧
    (u.unit c).items = (s.unit c).items ∧
    ∀ o, (s.thread c k).op = some o → o.locked = true → u.lockOwner o.handle ≠ some (vOwner c k)) ∧
  (∀ (s : State) (n : Nat) (it : Item), s.item n it.seq = some it → it ∈ (s.unit n).items →
    (∃ j ∈ ((s.dropSlot n it.seq).unit n).items, j.seq = it.seq ∧ j.stage = .dropped ∧ j.bytes = List.replicate it.bytes.length 0) ∧
    (∃ j ∈ ((s.redoItem n it).unit n).items, j.seq = it.seq ∧ j.stage = .waiting ∧ j.sa = none ∧ j.bytes = it.bytes)) ∧
  (∀ (s : State) (c h : Nat) (twin : Bool) (it : Item),
    let u := s.holdItem c h twin it
    let drops := (twin = false ∧ h ∈ (s.unit c).expired) ∨ (s.lport (64 + it.lp)).enabled = false;
    (drops → u = (s.stat h 5 1).dropSlot c it.seq) ∧
    (¬ drops → (∀ j ∈ (u.unit c).items, j.seq ≠ it.seq) ∧ 4096 + it.queue ∈ u.sector.stopped ∧
      ∃ p ∈ (u.unit c).parked, p.item = { it with stage := .waiting, sa := none, handle := h } ∧ p.twin = twin ∧
        p.due = s.clk + 1000000 * (s.sa h).holdMs.toNat)) ∧
  (∀ (s : State) (n h r : Nat) (it : Item), let recv := (s.sa h).recv
    let at_ := [BitVec.ofNat 8 n, BitVec.ofNat 8 (64 + it.lp)] ++ le 4 h
    let fail := fun (u : State) => (if it.kind = 1 then u.facetTagFailed n else u.count (cid 0x03 7 it.lp)).raiseOnce 0x143 (64 + it.lp) at_;
    s.dropFor n h r it = ((s.countDrop n h r it).modItem n it.seq fun j => { j with cls := some (dropClass r) }).dropHeld n it ∧
    (it.lp = 64 → s.countDrop n h r it = s) ∧
    (it.lp ≠ 64 → (r = 0 → s.countDrop n h r it = s.count (cid 0x04 1 it.lp)) ∧
      (r = 1 ∨ r = 2 → s.countDrop n h r it = fail (if recv then s.stat h r 1 else s)) ∧
      (r = 3 → it.kind ≠ 1 → s.countDrop n h r it = (if recv then s.stat h 3 1 else s).count (cid 0x03 8 it.lp)) ∧
      (r = 3 → it.kind = 1 → s.countDrop n h r it = if recv then s.stat h 3 1 else s) ∧
      (r = 4 → s.countDrop n h r it = if recv then s.stat h 5 1 else s) ∧
      (r = 5 → s.countDrop n h r it = if recv then s else s.stat h 5 1) ∧
      (r = 6 → s.countDrop n h r it = if recv then s else s.stat h 7 1) ∧
      (7 ≤ r → s.countDrop n h r it =
        (s.count (cid 0x03 0 it.lp)).raiseOnce 0x173 (64 + it.lp) (BitVec.ofNat 8 (64 + it.lp) :: le 4 it.handle)))) ∧
  (∀ (s : State) (k r : Nat) (x : Ins) (it : RItem), let g := some it.group
    let ends := fun (u : State) => (u.recUnlock it.slot (vOwner 16 k)).endRItem it.id
    let late := if it.frameCounter ≤ leAt it.image 0x0C 4 then 13 else 14
    let mine := (s.recLock it.slot).any (·.owner == vOwner 16 k);
    (r = 1 ∨ r = 2 → s.dropItem k r it = ends ((s.rcount 15 g).raiseOnce 0x1C4 it.group (le 2 it.group ++ le 8 it.sensor.toNat))) ∧
    (r = 3 → s.dropItem k r it = ends (s.rcount late g)) ∧
    (r = 4 → s.dropItem k r it = ends ((s.rcount 11 g).raiseOnce 0x1C3 it.group (le 2 it.group))) ∧
    (r = 5 → s.dropItem k r it = ends (s.rcount 6 g)) ∧ (r = 0 ∨ 6 ≤ r → s.dropItem k r it = ends (s.rcount 17 g)) ∧
    (∀ v kind n out, mine = false ∨ writeBackOk it.image v = false →
      s.releaseItem (vOwner 16 k) it true v kind n out = ends ((s.rcount 10 g).raise 0x1C5 (le 2 (vOwner 16 k)))) ∧
    (∀ j ∈ (s.emitItem k x it).radius.items, j.id ≠ it.id) ∧ (∀ j ∈ (s.dropItem k r it).radius.items, j.id ≠ it.id)))

/-- What reaches a Vertex thread from outside (R199, R216, R225, R227 to R229, R235, R243, R248, R261, R299, R415): a descriptor that waits for no
earlier one and no key leaves the list and writes its predicate; the oldest result leaves the pending ones; a load's uncorrectable word leaves
its registers free; the watchdog faults a running thread at its limit; DEBUG holds a thread and RESUME returns it, under their right; an engine
reset and a sample act for a master that may and an enabled sampler.

Verification results (R225, R414 to R418): the oldest unverified read of a thread ends; where memory shows a failure, or Hull finds one, the
failure is recorded and the thread is marked, and for a Compass access of a CONF+INT region the machine-check registers take the line, the
core and the cause and its interrupt bit sets. -/
def Obligations.ThreadsTakeTheirResultsAndEvents : Prop :=
  (∀ (t : Tid) (s : State),
    let c := t.cl
    let k := t.key
    let x := s.thread c k
    let right := s.dbgRight (if c = 16 then 3 else 2)
    let due := fun (r : Result) => match r.load with
      | some a => !s.taintedAt a
      | none => false;
    (∀ (j : Fin 8) (d : OutDesc), x.descs[j.val]? = some d → let waits := d.held.isSome = true ∨ (x.descs.take j.val).any d.after = true
      let u := match x.item with
        | some q => if c = 16 ∧ d.op = 0 ∧ d.acc = none then s.endRoot q else s
        | none => s;
      (waits → exec (.descriptorComplete t j) s = .next s) ∧
      (¬ waits → d.pred = none → exec (.descriptorComplete t j) s = .next ((u.modThread c k fun y => { y with descs := dropAt y.descs j.val }).wake c)) ∧
      (∀ p v, ¬ waits → d.pred = some (p, v) → exec (.descriptorComplete t j) s =
        .next ((u.modThread c k fun y => Thread.setP { y with descs := dropAt y.descs j.val } p v).wake c))) ∧
    (∀ j : Fin 8, x.descs.length ≤ j.val → exec (.descriptorComplete t j) s = .next s) ∧
    exec (.registerResultArrival t) s = .next ((s.modThread c k fun y => y.dropResult fun r => r.load.isNone).wake c) ∧
    (∀ (y : Thread) (p : Result → Bool), (∀ l r rest, y.results = l ++ r :: rest → (∀ e ∈ l, p e = false) → p r = true →
        y.dropResult p = { y with results := l ++ rest }) ∧ ((∀ r ∈ y.results, p r = false) → y.dropResult p = y)) ∧
    (∀ e, x.results.find? due = none → exec (.hbmLoadReturn t e) s = .next s) ∧
    (∀ e r a, x.results.find? due = some r → r.load = some a → let u := (s.modThread c k fun y => y.dropResult due).eccSeen a e;
      (e ≠ .uncorrectable → exec (.hbmLoadReturn t e) s = .next (u.wake c)) ∧
      (e = .uncorrectable → exec (.hbmLoadReturn t e) s = .next ((r.regs.foldl (fun v g => v.freeReg c k g) u).wake c))) ∧
    exec (.threadWatchdogExpiry t) s = .next (if x.mode = .ready ∨ x.mode = .waiting then
      (s.passTo (x.since + 1024 * (s.regN (clusterBase c + 0x100) % 1024) * 5 / 6)).faultThread c k .watchdog else s) ∧
    exec (.debugHalt t) s = .next (if x.mode = .debug ∨ right = false then s else
      s.modThread c k fun y => { y with mode := .debug, before := y.mode, debugAt := s.clk }) ∧
    exec (.debugResume t) s = .next (if x.mode ≠ .debug ∨ right = false then s else
      (s.modThread c k fun y => { y with mode := y.before, since := y.since + (s.clk - y.debugAt) }).wake c) ∧
    (∀ (n : Fin 17) (v : Word32) src, let w := v.toNat ||| 2 ^ 31
      let e := w % 32
      let u := s.engineReset n.val w;
      exec (.engineReset n v src) s = .next (if s.mayWriteRegs src then u else s) ∧
      (threadCount n.val / 8 ≤ e → u = s.setReg (clusterBase n.val + 0x104) (BitVec.ofNat 32 e)) ∧
      (e < threadCount n.val / 8 → ∃ z : State, u = z.raise 0x181 [BitVec.ofNat 8 n.val, BitVec.ofNat 8 e] ∧
        (∀ j < 8, (z.thread n.val (8 * e + j)).mode = .held) ∧ ∀ i, i / 2048 = e → tget 0 (z.cluster n.val).locals i = 0)) ∧
    (∀ n : Fin 17, let p := s.regN (clusterBase n.val + 0x108)
      let u := s.passTo ((s.cluster n.val).pcsAt + p % 2 ^ 20 * 5 / 6)
      let es := (List.range (threadCount n.val / 8)).filter fun j => bitOf (s.regN (clusterBase n.val + 0x10C)) j;
      exec (.pcSample n) s = .next (if bitOf p 31 then es.foldl (fun v e => (v.sample n.val e).2.putSample n.val (v.sample n.val e).1)
        (u.setCluster n.val { u.cluster n.val with pcsAt := u.clk }) else s) ∧
      ∀ (v : State) (e : Nat), (v.sample n.val e).1.length = 16)) ∧
  ((∀ (t : Tid) (res : VerifyResult) (s : State), let c := t.cl
    let k := t.key;
    ((s.thread c k).reads = [] → exec (.verificationResult (.thread t) res) s = .next s) ∧
    (∀ a rest, (s.thread c k).reads = a :: rest → let q := (s.modThread c k fun y => { y with reads := rest }).verdict a res;
      (q.1 = none → exec (.verificationResult (.thread t) res) s = .next (q.2.wake c)) ∧
      (∀ g w, q.1 = some (g, w) → exec (.verificationResult (.thread t) res) s =
        .next (((q.2.verifyFail g a (masterOf c) (vOwner c k) w).modThread c k fun y => { y with failed := true }).wake c)))) ∧
  (∀ core addr res (s : State), let a := addr.toNat
    let q := s.verdict a res
    let o := q.2.draw 16
    let guarded := ∃ k, s.regionAt a = some k ∧ (s.region k).integ = true;
    (¬ guarded → exec (.verificationResult (.compass core addr) res) s = .next s) ∧
    (guarded → q.1 = none → exec (.verificationResult (.compass core addr) res) s = .next q.2) ∧
    (∀ g w, guarded → q.1 = some (g, w) → let u := o.2.verifyFail g a .compass o.1 w;
      exec (.verificationResult (.compass core addr) res) s = .next { u with hull := { u.hull with
        mchkAddr := BitVec.ofNat 34 (a / 64), mchkCore := BitVec.ofNat 3 core.val, mchkCause := BitVec.ofNat 2 (verifyCode w), mchkValid := true
        mchkIrq := u.hull.mchkIrq ||| (1#8 <<< core.val) } })) ∧
  (∀ (s : State) (a : Nat) (res : VerifyResult), (s.regionAt a = none → s.verdict a res = (none, s)) ∧
    ∀ g, s.regionAt a = some g → (∀ w, s.lineFault g (a / 64) = some w → s.verdict a res = (some (g, w), s)) ∧
      (s.lineFault g (a / 64) = none → (res = .ok → s.verdict a res = (none, s)) ∧
        ∀ w node, res = .failed w node → s.verdict a res = (some (g, w), s.failLine g (a / 64) w node))))

/-- Faults of a thread (R227, Table 9.5): whatever the cause, the thread is FAULTED with no item, its descriptors, accumulators and operation are
discarded, its PC stays, and event 0x180 reports the cluster, the owner, the cause and the PC. -/
def Obligations.FaultsStopTheirThread : Prop :=
  ∀ (s : State) (c k : Nat) (cause : Cause), ∃ u : State,
    s.faultThread c k cause = (u.raise 0x180 (BitVec.ofNat 8 c :: le 2 (vOwner c k) ++ [BitVec.ofNat 8 cause.code] ++ le 2 (s.thread c k).pc)).wake c ∧
    (u.thread c k).mode = .faulted ∧ (u.thread c k).item = none ∧ (u.thread c k).op = none ∧ (u.thread c k).descs = [] ∧ (u.thread c k).acc = [] ∧
    (u.thread c k).results = [] ∧ (u.thread c k).pc = (s.thread c k).pc ∧ (u.thread c k).g = (s.thread c k).g

/-- Images (R236, R237, R276 to R278, R504): UCODE_LOAD refuses a mask or a target that does not fit, an image R237 does not admit (with 0x183) and a
half in use; else every named cluster takes the image and measurement register 3 its header's digest. UCODE_ACTIVATE refuses a cluster
without a loaded other half; else its clusters switch, and it completes at once, when the last thread has left, or with DRAINED_LATE.

RECLAIM (R231, R232, R332, R351, R513): of a Vertex or Radius owner it refuses an owner that is none and a thread in DEBUG; else it faults what
runs, frees and counts the owner's locks, makes the threads IDLE and raises 0x182. Of a Tessera owner it refuses a consumer in use; else it
frees the cells that only that owner holds, and a ring's bucket locks, and raises 0x088. Each leaves the other's owners alone. -/
def Obligations.ImagesLoadAndOwnersReclaim : Prop :=
  (∀ (d : Desc) (s s0 : State),
    let cs := clustersOf d
    let badMask := d.get 8 4 / 2 ^ 17 ≠ 0 ∨ cs = []
    let buf := s0.readBuf d .annulus (d.get 0x10 8) (min (d.get 0x18 4) 200000)
    let u := buf.2
    let half := fun (v : State) (im : Image) (n : Nat) => (v.loadHalf n im).getD false;
    (Accepted d 0 [(8, 4), (0x10, 8), (0x18, 4)] s s0 →
      (badMask → exec (.ucodeLoad d) s = .next (s0.done d .badRequest)) ∧
      (∀ st, ¬ badMask → buf.1 = .error st → exec (.ucodeLoad d) s = .next (u.done d st)) ∧
      (∀ bs, ¬ badMask → buf.1 = .ok bs → let target := leAt bs 6 1
        let unfit := target < 2 ∧ ∃ n ∈ cs, b2n (n == 16) ≠ target;
        (unfit → exec (.ucodeLoad d) s = .next (u.done d .badRequest)) ∧
        (¬ unfit → u.imageStatus bs ≠ .ok → exec (.ucodeLoad d) s =
          .next ((u.raise 0x183 (BitVec.ofNat 8 (cs.headD 0) :: le 2 (u.imageStatus bs).code)).done d (u.imageStatus bs))) ∧
        (∀ im, ¬ unfit → u.imageStatus bs = .ok → imageOf bs = some im →
          ((∃ n ∈ cs, u.loadHalf n im = none) → exec (.ucodeLoad d) s = .next (u.done d .inUse)) ∧
          ((∀ n ∈ cs, u.loadHalf n im ≠ none) → exec (.ucodeLoad d) s = .next
            (((cs.foldl (fun v n => v.loadImage n (half v im n) im) u).measExtend 3 (be 48 (Crypto.sha384 (slice bs 0 0x70)).toNat)).complete d
              { status := .ok, r0 := b2n (half u im (cs.headD 0)) })))) ∧
      ∀ (v : State) (n : Nat) (h : Bool) (im : Image), ((v.loadImage n h im).cluster n).half h = some im) ∧
    (Accepted d 0 [(8, 4)] s s0 → let bad := badMask ∨ ∃ n ∈ cs, (s0.cluster n).target = none
      let q := cs.foldl (fun (p : List (Nat × Bool) × State) n => (p.1 ++ (p.2.activate n).1, (p.2.activate n).2)) ([], s0);
      (bad → exec (.ucodeActivate d) s = .next (s0.done d .badRequest)) ∧
      (¬ bad → q.1 = [] → exec (.ucodeActivate d) s = .next (q.2.done d .ok)) ∧
      (¬ bad → q.1 ≠ [] → exec (.ucodeActivate d) s = .next { q.2 with vertex := { q.2.vertex with
        activates := q.2.vertex.activates ++ [⟨d, q.1, q.2.clk + q.2.timeoutOf d 50000⟩] } })) ∧
    (∀ (v : State) (n : Nat) (h : Bool) (im : Image), (v.cluster n).target = some h → (v.cluster n).half h = some im →
      ((v.activate n).2.cluster n).active = some h ∧ (im.scratch = [] → (v.activate n).2 = v.setCluster n { v.cluster n with active := some h } ∧
        (v.activate n).1 = if (v.cluster n).active.isSome ∧ 0 < v.oldLeft n (!h) then [(n, !h)] else [])) ∧
    (∀ n : Fin 17, let olds := (s.vertex.activates.flatMap (·.olds)).filter (·.1 == n.val)
      let hs := (olds.map (·.2) ++ (s.cluster n.val).pause.toList).filter fun h => s.oldLeft n.val h == 0;
      exec (.activateDrainEnd n) s = .next (hs.foldl (fun v h =>
        (if (v.cluster n.val).pause = some h then v.writeScratch n.val else v).activateDone n.val h) s)) ∧
    (∀ n h due, s.vertex.activates = [⟨d, [(n, h)], due⟩] →
      s.activateDone n h = State.done { s with vertex := { s.vertex with activates := [] } } d .ok) ∧
    (∀ a rest, s.vertex.activates = a :: rest → exec .activateTimeout s =
      .next (State.complete { s.passTo a.due with vertex := { (s.passTo a.due).vertex with activates := rest } } a.desc
        { status := .drainedLate, r0 := (a.olds.map fun e => s.oldLeft e.1 e.2).sum })) ∧
    (s.vertex.activates = [] → exec .activateTimeout s = .next s)) ∧
  ((∀ (d : Desc) (s s0 : State), Accepted d 1 [(8, 2)] s s0 →
    let id := d.get 8 2
    let o := id % 256
    let scope := bitOf d.flags 0
    let c := min 16 (id % 4096 / 128)
    let k := id % 4096 - 128 * c
    let ks := if scope then (List.range 8).map (k / 8 * 8 + ·) else [k]
    let bad := id / 4096 ≠ 1 ∨ 2304 ≤ id % 4096
    let halted := ∃ j ∈ ks, (s0.thread c j).mode = .debug
    let a := ks.foldl (fun u j => if (u.thread c j).mode = .ready ∨ (u.thread c j).mode = .waiting then u.faultThread c j .reclaimed else u) s0
    let q := ks.foldl (fun (p : Nat × State) j => (p.1 + (p.2.reclaimLocks (vOwner c j)).1, (p.2.reclaimLocks (vOwner c j)).2)) (0, a)
    let b := ks.foldl (fun u j => if (u.thread c j).mode = .held ∧ scope = false then u else u.idle c j) q.2
    let cells := s0.reclaimCells o
    let free := fun (u : State) => if 160 ≤ o ∧ o < 224 then u.releaseLocks fun e => e.2.1 == id else u;
    (id / 4096 = 2 → exec (.reclaim d) s = .next s) ∧ (id / 4096 ≠ 2 → exec (.reclaimTesseraOwner d) s = .next s) ∧
    (id / 4096 ≠ 2 → bad → exec (.reclaim d) s = .next (s0.done d .badRequest)) ∧
    (¬ bad → halted → exec (.reclaim d) s = .next (s0.done d .inUse)) ∧
    (¬ bad → ¬ halted → exec (.reclaim d) s = .next (((b.raise 0x182 (BitVec.ofNat 8 c :: le 2 id ++
      [BitVec.ofNat 8 (b2n scope), BitVec.ofNat 8 q.1])).wake c).complete d { status := .ok, r0 := q.1 })) ∧
    (id / 4096 = 2 → bits id 8 4 ≠ 0 ∨ scope = true → exec (.reclaimTesseraOwner d) s = .next (s0.done d .badRequest)) ∧
    (id / 4096 = 2 → bits id 8 4 = 0 → scope = false →
      (s0.ownerInUse o = true → exec (.reclaimTesseraOwner d) s = .next (s0.done d .inUse)) ∧
      (s0.ownerInUse o = false → exec (.reclaimTesseraOwner d) s =
        .next (((free cells.2).raise 0x088 (le 2 id ++ le 4 cells.1)).complete d { status := .ok, r0 := cells.1 })))) ∧
  (∀ (s : State) (o : Nat), let q := s.reclaimLocks o;
    q.1 = (s.assoc.locks.filter fun e => e.2.1 == o).length + (s.radius.locks.filter fun e => e.2.owner == o).length ∧
    (∀ e ∈ q.2.assoc.locks, e.2.1 ≠ o) ∧ (∀ e ∈ q.2.radius.locks, e.2.owner ≠ o)) ∧
  (∀ (s : State) (c k : Nat), let u := s.idle c k;
    (u.thread c k).mode = .idle ∧ (u.thread c k).item = none ∧ (u.thread c k).op = none ∧ (u.thread c k).descs = []))

/-- R232: a RECLAIM that names a thread in DEBUG completes with status IN_USE and changes nothing else; one that names an IDLE thread with
nothing recorded against it completes with status OK and count 0. -/
def Obligations.ReclaimOfDebugAndIdleThreads : Prop :=
  ∀ (d : Desc) (s s0 : State) (c k : Nat), Accepted d 1 [(8, 2)] s s0 → bitOf d.flags 0 = false → d.get 8 2 = vOwner c k → c < 17 →
    k < threadCount c →
    ((s0.thread c k).mode = .debug → exec (.reclaim d) s = .next (s0.done d .inUse)) ∧
    ((s0.thread c k).mode = .idle → (∀ e ∈ s0.assoc.locks, e.2.1 ≠ vOwner c k) → (∀ e ∈ s0.radius.locks, e.2.owner ≠ vOwner c k) →
      ∃ u : State, exec (.reclaim d) s = .next (u.complete d { status := .ok, r0 := 0 }))

/-- COLD_RESET and what every cold reset and hold leaves (R46, R59, R60, R539, Table 23.7): OTP, the flash, the always-on latch and the reset cause
stay, an interrupted write part done (log entry 31); all else is as after reset: keys, regions, rings, frames, counters, configuration,
measurements, debug rights. A cold reset notes its cause, and ALARM where it ends an alarm hold.

SUPPLY_RESET and AON_BROWN_OUT (R534, R536): a supply reset is a cold reset that records SUPPLY and the rail; an alarm hold wins over it (Table
23.6), and a rail that is not monitored resets nothing. A brown-out of VDD_AON loses the latch and the reset cause and nothing else.

ALARM and EXTEST_LOAD (R59, R560, Table 2.12): the latch takes the cause and the first rail, ALARM_N goes low, every key slot and region key is
zeroised and the part is held; loading EXTEST does the same to the keys and holds the part, and ALARM_N keeps its level. A source that
Table 2.12 does not enable raises nothing.

A part held in reset, or in a thermal trip, does not run (R59, R538, Table 23.7): these rows change nothing in it. -/
def Obligations.ColdResetsAlarmsAndHolds : Prop :=
  (∀ s : State, let c := s.cutWrites
    let t := s.coldState;
    exec .coldReset s = .next (s.coldReset 0x20) ∧
    (∀ v, s.coldReset v = { t with cpr := { t.cpr with cause := s.cpr.cause ||| (v ||| if s.apex.held = true ∧ s.apex.alarmN = false then 0x80 else 0) } }) ∧
    (∀ a, s.holdAll a = { t with apex := { t.apex with held := true, alarmN := a }, cpr := { t.cpr with por := false } }) ∧
    t.apex.otp = c.apex.otp ∧ t.apex.flash = c.apex.flash ∧ ((∀ m, s.writesOf m = none) → c = s) ∧
    t.apex.cause = s.apex.cause ∧ t.apex.railId = s.apex.railId ∧ t.cpr.railId = s.cpr.railId ∧ t.cpr.cause = s.cpr.cause ∧
    t.axis.slots = [] ∧ t.axis.entropyOk = s.axis.entropyOk ∧ t.hull.regions = [] ∧ t.hull.up = 0 ∧ t.assoc = AssocState.reset ∧
    t.rings = RingsState.reset ∧ t.tess = TessState.reset ∧ t.annulus = AnnulusState.reset ∧ t.locus = LocusState.reset ∧
    t.sector = SectorState.reset ∧ t.vertex = VertexState.reset ∧ t.prism = PrismState.reset ∧ t.radius = RadiusState.reset ∧
    t.ports = PortsState.reset ∧ t.twin = TwinState.reset ∧ t.facet = [] ∧ t.lanes = [] ∧ t.counters = [] ∧ t.regs = [] ∧
    t.gnomon.time = 0 ∧ t.gnomon.mode = .freerun ∧ t.gnomon.ppsIn = s.gnomon.ppsIn ∧ t.apex.meas = [] ∧ t.apex.rights = 0 ∧
    t.apex.opened = false ∧ t.apex.challenge = none ∧ t.apex.held = false ∧ t.apex.alarmN = true ∧ t.cpr.por = true ∧ t.pending = s.pending) ∧
  (∀ s : State,
    (∀ rail : Rail, let u := s.coldReset 0x40
      let none_ := s.apex.held = true ∨ railMonitored rail.id.val = false;
      (¬ none_ → exec (.supplyReset rail) s =
        .next { u with cpr := { u.cpr with railId := BitVec.ofNat 8 rail.id.val, supplyOwed := true } } ∧ u.cpr.warn = [] ∧ u.apex.alarmN = true) ∧
      (none_ → exec (.supplyReset rail) s = .next s)) ∧
    exec .aonBrownOut s = .next { s with apex := { s.apex with cause := 0, railId := 0 }, cpr := { s.cpr with cause := 0, railId := 0 } }) ∧
  (∀ s : State,
    (∀ (cause : Fin 32) (rail : BitVec 8), let latched := { s with apex := { s.apex with
        cause := s.apex.cause ||| (1#7 <<< cause.val), railId := if cause.val = 0 ∧ s.apex.cause.getLsbD 0 = false then rail else s.apex.railId } };
      exec (.alarm cause rail) s = .next (if s.alarmReal cause.val rail.toNat then State.holdAll latched false else s) ∧
      (s.alarmReal cause.val rail.toNat = true ↔ (cause.val = 0 ∧ rail.toNat ≤ 10) ∨ (1 ≤ cause.val ∧ cause.val < 5) ∨
        (5 ≤ cause.val ∧ cause.val < 7 ∧ s.apex.otp.tamperEn.getLsbD (cause.val - 5) = true))) ∧
    exec .extestLoad s = .next (s.holdAll s.apex.alarmN) ∧
    (∀ a, (s.holdAll a).axis.slots = [] ∧ (s.holdAll a).hull.regions = [] ∧ (s.holdAll a).apex.alarmN = a ∧ (s.holdAll a).lanesSquelched = true)) ∧
  (∀ (s : State) (v : Word32) (msg : List Byte) (b : Byte), s.halted = true →
    (∀ n ∈ [Instr.gnomonSet v, .gnomonStep v, .lockWrite v, .rateWrite v, .secondTick, .todByteReceive b, .emTableClear v, .datapathReset v,
        .portBlockReset v, .indRead v, .indWrite v, .counterRead v, .chordLinkUp, .chordHeartbeatSend, .syncCycleStart, .leaseRequestSend,
        .staleRequestSend, .leaseGrant msg, .leaseDeny msg], exec n s = .next s) ∧
    (∀ (a : BitVec 40) e, exec (.patrolScrub a e) s = .next s) ∧ (∀ k, exec (.refclkLoss k) s = .next s) ∧
    (∀ k, exec (.uartDataWrite k v) s = .next s ∧ exec (.uartByteReceive k b) s = .next s) ∧
    (∀ l : Lane, ∀ n ∈ [Instr.laneCfgWrite l v, .laneTxeqWrite l v, .prbsCfgWrite l v, .errorInject l v, .eyeScanGo l v], exec n s = .next s) ∧
    (∀ kind r, ∀ n ∈ [Instr.ringEnable kind r v, .ringDisable kind r v, .ringCiWrite kind r v, .doorbellWrite r v], exec n s = .next s) ∧
    (∀ m, exec (.mgmtDoorbell m v) s = .next s) ∧ (∀ p, exec (.tesseraPoolWrite p v) s = .next s) ∧
    (∀ o m, exec (.tesseraOwnerWrite o m v) s = .next s) ∧ (∀ p, exec (.helloReceive p msg) s = .next s) ∧
    (∀ q, ∀ n ∈ [Instr.queueEnable q v, .queueDisable q v, .queueRelease q v], exec n s = .next s))

/-- WARM_RESET (R539, R540, R543, Table 23.7): its cause is noted, debug rights, the mailboxes and their held records are cleared, every ring is
DISABLED and the peripherals are reset, while keys, associations, Gnomon, the lease, Locus, Sector, frames, threads and Radius are kept;
Apex then compares the boot loader with the one measured. It waits for a datapath reset; a part in reset, and a master that may not, have none.

DATAPATH_RESET and its end (R541, R543): the write stops the starting of commands, sets DP_BUSY and notes DATAPATH; written while DP_BUSY reads
1 it does no more; a warm reset written with it follows. The end, at the latest 100 us later (log entry 91), discards every frame and item,
empties the Sector queues, stops Radius, idles every thread, zeroes the datapath's counters and raises 0x02C.

PORT_BLOCK_RESET (R542): the block of a disabled line port resets, its waiting messages aside (log entry 97); a write for an enabled or
draining port is ignored but for CPR_PORT_RESET itself, and raises 0x02D with the side and the port. -/
def Obligations.WarmDatapathAndPortResets : Prop :=
  (∀ s : State,
    exec (.warmReset .pin) s = .next (s.warmReset 0x10) ∧
    (∀ src, exec (.warmReset (.reg src)) s = .next (if s.mayWriteRegs src then s.warmReset 0x08 else s)) ∧
    (∀ v, let off := s.apex.held = true ∨ s.cpr.por = true ∨ s.cpr.trip.isSome = true
      let u := State.warmEffects { s with cpr := { s.cpr with cause := s.cpr.cause ||| v } };
      (off → s.warmReset v = s) ∧
      (¬ off → s.cpr.dpBusy.isSome = true → s.warmReset v = { s with cpr := { s.cpr with warmWaits := s.cpr.warmWaits ||| v } }) ∧
      (¬ off → s.cpr.dpBusy = none → s.warmReset v = if u.apex.booted = true ∧ u.apex.regionWaits = false then u.bootCompare else u)) ∧
    (let t := s.warmEffects
     t.apex.rights = 0 ∧ t.apex.challenge = none ∧ t.apex.mbxC = Mailbox.reset ∧ t.apex.mbxD = Mailbox.reset ∧ t.apex.heldWrite = none ∧
      t.apex.meas = s.apex.meas ∧ t.tele.held = [] ∧ t.hull.mchkIrq = 0 ∧
      (∀ k r, (t.ring k r).state = .disabled) ∧ t.periph = PeriphState.reset ∧ t.axis = s.axis ∧ t.assoc = s.assoc ∧ t.gnomon = s.gnomon ∧
      t.twin = s.twin ∧ t.locus = s.locus ∧ t.sector = s.sector ∧ t.tess = s.tess ∧ t.vertex = s.vertex ∧ t.prism = s.prism ∧
      t.radius = s.radius ∧ t.ports = s.ports ∧ t.facet = s.facet ∧ t.pending = s.pending ∧
      ((∀ m, s.writesOf m = none) → s.openIntent = none → t.apex.otp = s.apex.otp ∧ t.apex.flash = s.apex.flash)) ∧
    (let skips := s.lc = 12 ∨ s.apex.holdCode = 0xE1 ∨ s.apex.holdCode = 0xE2
     (skips → s.bootCompare = s) ∧
      (¬ skips → s.bootCopy = none → s.bootCompare = { s with apex := { s.apex with holdCode := 0xE3 } }))) ∧
  ((∀ (s : State) (v : Word32), s.halted = false →
    let u := if s.cpr.dpBusy.isSome then s else
      { s with cpr := { s.cpr with cause := s.cpr.cause ||| 0x04, dpBusy := some s.clk }, rings := { s.rings with startsHeld := true } };
    exec (.datapathReset v) s = .next (if bitOf v.toNat 31 then u.warmReset 0x08 else u)) ∧
  (∀ s : State, (s.cpr.dpBusy = none → exec .datapathResetComplete s = .next s) ∧
    ∀ c, s.cpr.dpBusy = some c → let b := (if s.dpStarted then s.passTo (c + 100000) else s).dpEffects
      let w := State.raise { b with cpr := { b.cpr with dpBusy := none, warmWaits := 0 }, rings := { b.rings with startsHeld := false } } 0x02C [];
      exec .datapathResetComplete s = .next (if b.cpr.warmWaits = 0 then w else w.warmReset b.cpr.warmWaits)) ∧
  (∀ s : State, let t := s.dpEffects;
    t.tess.frames = [] ∧ t.sector.queues = [] ∧ t.radius.mode = .idle ∧ t.annulus.inbound = [] ∧ t.annulus.punts = [] ∧ t.apex.challenge = none ∧
    (∀ c < 17, ∀ k, (t.thread c k).mode = .idle) ∧ (∀ n < 16, (t.unit n).items = []) ∧
    (∀ id, 1 ≤ id / 2 ^ 26 → id / 2 ^ 26 ≤ 0x0B → t.counter id = 0))) ∧
  (∀ (s : State) (v : Word32), s.halted = false →
    let n := v.toNat % 16
    let side := bits v.toNat 5 1
    let t := s.setReg 0x00200014 (BitVec.ofNat 32 (v.toNat % 64 &&& 0x2F))
    let busy := t.portBusy side n = true ∨ t.oddOfPair side n = true;
    (side = 1 → ¬ busy → exec (.portBlockReset v) s =
      .next (t.setFacet n { FacetPort.reset with txMsgs := (t.facetPort n).txMsgs, txRest := (t.facetPort n).txRest })) ∧
    (side = 0 → ¬ busy → exec (.portBlockReset v) s = .next t) ∧
    (busy → exec (.portBlockReset v) s = .next (t.raise 0x02D [BitVec.ofNat 8 side, BitVec.ofNat 8 n])))

/-- Supply warnings and over-voltage (R46, R49, R90, R534, R535, Table 23.12): a monitored rail enters WARNING once with event 0x020 and the lowest
level (free), and the first pauses a write under way; it leaves with 0x021 and the time it spent there, and with the last rail a boot that
waits goes on, or the writes held; a rail above +7 % raises 0x023. A part in reset sees none.

Temperature (R537, R538, Tables 23.7, 23.13): a sample 100 us after the last shows its highest reading, keeps the high-water mark and raises 0x028
from 110 °C, 0x029 below 105 °C again and 0x02B below -5 °C; a trip holds a running part as by a datapath and a warm reset together; the
release follows 100 ms below 100 °C, notes THERMAL, sets TRIPPED and raises 0x02A with the time.

Clock failures (R531, Table 23.2): the PLL of a memory that is in service takes it out of service until cold reset and raises 0x026; the
loss of the Gnomon synthesiser's lock moves Gnomon to HOLDOVER with 0x027, and its relock raises 0x027 with CLEAR (log entry 94). A PLL
that is not, or already, locked changes nothing.

The power-on boot and the entropy rows (R46, R49, R83, R397, R402, R549): the release of the power-on reset samples the straps, locks the PLLs, seeds
Axis and boots once; the boot waits for a transition that a warning rail holds. A failed health test raises 0x104; returning entropy lets a
stopped Axis serve again and start a sweep pass, and Apex goes on with DDR region 0 where it waits. -/
def Obligations.SupplyTemperatureAndClockEvents : Prop :=
  (∀ (s : State) (rail : Rail), let r := rail.id.val
    let none_ := s.apex.held = true ∨ railMonitored r = false
    let warned := State.withCpr (if s.railWarns then s else s.pauseWrites) { s.cpr with warn := tins s.cpr.warn r s.clk }
    let q := warned.draw 16;
    (none_ ∨ (s.cpr.warn.lookup r).isSome = true → exec (.railWarningEntry rail) s = .next s) ∧
    (¬ none_ → s.cpr.warn.lookup r = none → exec (.railWarningEntry rail) s = .next (q.2.raise 0x020 (BitVec.ofNat 8 r :: le 2 q.1))) ∧
    (s.apex.heldWrite.isSome = true ∨ (∀ m, s.writesOf m = none) → s.pauseWrites = s) ∧
    (s.cpr.warn.lookup r = none → exec (.railWarningExit rail) s = .next s) ∧
    (∀ since, s.cpr.warn.lookup r = some since → let left := tdel s.cpr.warn r
      let u := (s.withCpr { s.cpr with warn := left }).raise 0x021 (BitVec.ofNat 8 r :: le 8 (s.clk - since));
      exec (.railWarningExit rail) s =
        .next (if u.cpr.warn ≠ [] then u else if u.apex.bootWaits then u.bootApex else u.resumeIntent.resumeHeld.resumeCkpt) ∧ u.cpr.warn = left) ∧
    (none_ → exec (.overVoltage rail) s = .next s) ∧
    (¬ none_ → exec (.overVoltage rail) s = .next ((s.withCpr { s.cpr with overV := s.cpr.overV ||| (1#12 <<< r) }).raise 0x023 [BitVec.ofNat 8 r]))) ∧
  (∀ s : State,
    (∀ high low, exec (.temperatureSample high low) s = .next (if s.apex.held then s else (s.passTo s.cpr.tempDue).tempSample high low) ∧
      let c := s.cpr
      let hot := if c.hot then decide (105 ≤ high.toInt) else decide (110 ≤ high.toInt)
      let top := match c.tempHwm with
        | some h => if h.toInt < high.toInt then high else h
        | none => high
      let a := s.withCpr { c with tempMax := high, tempHwm := some top, hot := hot, cold := decide (low.toInt < -5), tempDue := s.clk + 100000,
                                  coolSince := if high.toInt < 100 then some (c.coolSince.getD s.clk) else none }
      let b := if c.hot = true ∧ hot = false then a.raise 0x029 [] else if c.hot = false ∧ hot = true then a.raise 0x028 [] else a;
      s.tempSample high low = if c.cold = false ∧ low.toInt < -5 then b.raise 0x02B [] else b) ∧
    (let off := s.cpr.trip.isSome = true ∨ s.apex.held = true ∨ s.cpr.por = true
     let u := s.dpEffects.warmEffects
     let t := { u with cpr := { u.cpr with trip := some u.clk, coolSince := none, dpBusy := none, warmWaits := 0 }
                       rings := { u.rings with startsHeld := false } };
     (off → exec .thermalTrip s = .next s) ∧
     (¬ off → exec .thermalTrip s = .next t ∧ t.thermtripNPin = false ∧ t.lanesSquelched = true ∧ t.tess.frames = [] ∧ t.halted = true ∧
       (∀ k r, (t.ring k r).state = .disabled) ∧ t.apex.rights = 0)) ∧
    (s.cpr.trip = none ∨ s.cpr.coolSince = none → exec .thermalTripRelease s = .next s) ∧
    (∀ a c, s.cpr.trip = some a → s.cpr.coolSince = some c → let p := s.passTo (c + 100000000)
      let w := p.withCpr { p.cpr with trip := none, tripped := true, cause := p.cpr.cause ||| 0x02 };
      exec .thermalTripRelease s = .next ((w.raise 0x02A (le 8 (p.clk - a))).bootCompare))) ∧
  (∀ s : State,
    (∀ k : Fin 4, let keep := BitVec.allOnes 4 ^^^ (1#4 <<< k.val)
      exec (.memoryPllLoss k) s = .next (if s.cpr.pll.getLsbD k.val then
        State.raise { s with cpr := { s.cpr with pll := s.cpr.pll &&& keep }, hull := { s.hull with up := s.hull.up &&& keep } } 0x026
          [BitVec.ofNat 8 k.val] else s)) ∧
    exec .gnomonPllLoss s = .next (if s.gnomon.pllLocked then
      (State.setGnomonMode { s with gnomon := { s.gnomon with pllLocked := false } } .holdover).raise 0x027 [] else s) ∧
    exec .gnomonPllRelock s = .next (if s.gnomon.pllLocked then s else
      State.raiseSet { s with gnomon := { s.gnomon with pllLocked := true } } 0x027 true [])) ∧
  (∀ s : State,
    (let u := State.firstSeed { s with cpr := { s.cpr with por := false, straps := Config.straps &&& 0x3FF#12, pll := 15 }
                                       gnomon := { s.gnomon with pllLocked := true } }
     let waits := u.openIntent.isSome = true ∧ u.railWarns = true
     let off := s.cpr.por = false ∨ s.apex.held = true ∨ s.apex.booted = true;
     (off → exec .powerOnResetRelease s = .next s) ∧
     (¬ off → exec .powerOnResetRelease s = .next u.bootApex ∧ (waits → u.bootApex = { u with apex := { u.apex with bootWaits := true } }) ∧
       (¬ waits → u.bootApex.apex.booted = true ∧ u.bootApex.apex.bootWaits = false ∧
         (u.axis.serving = false → u.bootApex.apex.regionWaits = true)))) ∧
    ((s.axis.entropyOk = true → s.firstSeed = s) ∧ (s.axis.entropyOk = false → s.firstSeed.axis.serving = false)) ∧
    exec .entropyHealthFail s = .next (if s.cpr.por = true ∨ s.apex.held = true then { s with axis := { s.axis with entropyOk := false } } else
      State.raise { s with axis := { s.axis with entropyOk := false, entropyFail := true } } 0x104 []) ∧
    (let u := { s with axis := { s.axis with entropyOk := true, serving := true, drbgCount := 0, sweepDue := s.clk } };
     (s.axis.serving = true → exec .entropyRecovery s = .next { s with axis := { s.axis with entropyOk := true } }) ∧
     (s.axis.serving = false → exec .entropyRecovery s =
       .next (if s.apex.regionWaits then State.bootMemory { u with apex := { u.apex with regionWaits := false } } else u))))

/-- The UART rows (R570, Table 25.13): a write places its byte in a transmit FIFO of 16 bytes and is dropped when that is full; an enabled
UART sends the oldest byte; a received byte enters the receive FIFO of an enabled UART or sets RX_OVF; a read answers VALID and the oldest
byte, which it removes, or 0. Nothing else changes. That a disabled UART neither sends nor receives is the model's (log entry 96).

The I2C rows (R550, R570, Table 25.13): START, STOP, READ and WRITE each start a transfer on an enabled controller that is not BUSY, and are
ignored on another; I2C 3 belongs to Apex until Compass release. The end of a transfer clears BUSY and records NACK, ARB_LOST and the byte read.
Nothing else changes. -/
def Obligations.PeripheralRowsMoveTheirBytes : Prop :=
  (∀ (k : Fin 2) (s : State), let x := s.uart k.val
    let on := s.uartOn k.val = true;
    (∀ v, exec (.uartDataWrite k v) s = .next (if s.halted = false ∧ x.tx.length < 16 then
      s.setUart k.val { x with tx := x.tx ++ [v.setWidth 8] } else s)) ∧
    (x.tx = [] → exec (.uartByteSent k) s = .next s) ∧
    (∀ b bs, x.tx = b :: bs →
      exec (.uartByteSent k) s = .next (if s.uartOn k.val then (s.setUart k.val { x with tx := bs }).emit (.uart k.val b) else s)) ∧
    (∀ b, let takes := s.halted = false ∧ on
      (takes → x.rx.length < 16 → exec (.uartByteReceive k b) s = .next (s.setUart k.val { x with rx := x.rx ++ [b] })) ∧
      (takes → 16 ≤ x.rx.length → exec (.uartByteReceive k b) s = .next (s.setUart k.val { x with ovf := true })) ∧
      (¬ takes → exec (.uartByteReceive k b) s = .next s)) ∧
    (∀ b bs, x.rx = b :: bs → exec (.uartDataRead k) s =
      .next { s.setUart k.val { x with rx := bs } with readValue := BitVec.ofNat 32 (256 + b.toNat) }) ∧
    (x.rx = [] → exec (.uartDataRead k) s = .next { s with readValue := 0 })) ∧
  (∀ (k : Fin 4) (s : State), let x := s.i2c k.val
    let free := x.cmd = none ∧ bitOf (s.regN (0x20001000 + 0x100 * k.val)) 31 = true ∧ (k.val ≠ 3 ∨ s.rings.released = true)
    let starts := fun (n : Instr) (c : BitVec 32) =>
      (free → exec n s = .next ((s.setI2c k.val { x with cmd := some c }).emit (.i2c k.val c))) ∧ (¬ free → exec n s = .next s);
    starts (.i2cStart k) 0x80000000#32 ∧ starts (.i2cStop k) 0x40000000#32 ∧ starts (.i2cRead k true) 0x60000000#32 ∧
    starts (.i2cRead k false) 0x20000000#32 ∧ (∀ b : Byte, starts (.i2cWrite k b) (0x100000#24 ++ b)) ∧
    (∀ nack lost b, x.cmd = none → exec (.i2cTransferDone k nack lost b) s = .next s) ∧
    (∀ c nack lost b, x.cmd = some c → exec (.i2cTransferDone k nack lost b) s =
      .next (s.setI2c k.val { cmd := none, nack := x.nack || nack, lost := x.lost || lost
                              last := if c.getLsbD 29 && !lost then b else x.last })))

/-- R41: the life-cycle counter is a 12-bit thermometer in OTP: State k has the bits below k set and the others clear, and a bit reads as set
where at least two of its three cells are. Whatever step the part takes, every burnt cell stays burnt, so every life-cycle bit that read as set
still does and the counter is no lower. -/
def Obligations.LifeCycleCounterOnlyRises : Prop :=
  (∀ (cells : BitVec 36) (b : Nat), lcBit cells b = true ↔
    (cells.getLsbD (3 * b) = true ∧ cells.getLsbD (3 * b + 1) = true) ∨ (cells.getLsbD (3 * b) = true ∧ cells.getLsbD (3 * b + 2) = true) ∨
      (cells.getLsbD (3 * b + 1) = true ∧ cells.getLsbD (3 * b + 2) = true)) ∧
  (∀ (cells : BitVec 36) (k : Nat), lcCount cells = some k ↔ k ≤ 12 ∧ ∀ b, b < 12 → lcBit cells b = decide (b < k)) ∧
  (∀ s : State, ∀ k, lcCount s.apex.otp.lcCells = some k → s.lc = k) ∧
  ∀ s t : State, step s = .next t →
    s.apex.otp.lcCells &&& t.apex.otp.lcCells = s.apex.otp.lcCells ∧
    (∀ b, b < 12 → lcBit s.apex.otp.lcCells b = true → lcBit t.apex.otp.lcCells b = true) ∧ s.lc ≤ t.lc

/-- Every step keeps external memory in its canonical form: listed bytes in strictly rising order, none equal to what its address reads
unlisted. -/
def Obligations.EveryStepKeepsMemoryCanonical : Prop :=
  ∀ s t : State, s.mem.wf = true → step s = .next t → t.mem.wf = true

/-- The queue is first in, first out: a step takes the front command and leaves the rest as it stands, and a step on an empty queue adds
none. -/
def Obligations.EveryStepKeepsTheQueuesRest : Prop :=
  ∀ s t : State, step s = .next t → t.pending = s.pending.tail
end

