-- ==== Sys2Proof/Laws/Tables.lean ====
section
/-! SUPPORT. Reading a table after a change of one entry. -/

namespace Sys2Proof.Machine

variable {α : Type} (d : α)

theorem tget_tdel (t : Tbl α) (k j : Nat) : tget d (tdel t k) j = if j = k then d else tget d t j := by
  induction t with
  | nil => simp [tdel, tget]
  | cons e t ih =>
    obtain ⟨i, v⟩ := e
    by_cases h : i = k
    · subst h
      by_cases h2 : j = i
      · subst h2; simpa [tdel] using ih
      · simp [tdel, ih, tget, h2, Ne.symm h2]
    · by_cases h2 : i = j
      · subst h2; simp [tdel, h, tget]
      · simp [tdel, h, tget, h2, ih]

theorem tget_tins (t : Tbl α) (k j : Nat) (v : α) : tget d (tins t k v) j = if j = k then v else tget d t j := by
  induction t with
  | nil =>
    by_cases h : k = j
    · simp [tins, tget, h]
    · simp [tins, tget, h, Ne.symm h]
  | cons e t ih =>
    obtain ⟨i, w⟩ := e
    by_cases h0 : j = k
    · subst h0
      simp only [tins]
      split
      · simp [tget]
      · split
        · simp [tget]
        · rename_i h1; simp [tget, h1, ih]
    · simp only [tins, h0, if_false]
      split
      · simp [tget, Ne.symm h0]
      · split
        · rename_i h1; subst h1; simp [tget, Ne.symm h0]
        · by_cases h2 : i = j
          · simp [tget, h2]
          · simp [tget, h2, ih, h0]

variable [DecidableEq α]

/-- A table reads as what was put last. -/
@[simp] theorem tget_tput_self (t : Tbl α) (k : Nat) (v : α) : tget d (tput d t k v) k = v := by
  unfold tput
  split
  · rename_i h; rw [tget_tdel, if_pos rfl, h]
  · rw [tget_tins, if_pos rfl]

/-- Another entry reads as before. -/
theorem tget_tput_ne (t : Tbl α) {k j : Nat} (h : j ≠ k) (v : α) : tget d (tput d t k v) j = tget d t j := by
  unfold tput
  split
  · rw [tget_tdel, if_neg h]
  · rw [tget_tins, if_neg h]

@[simp] theorem tget_tmod_self (t : Tbl α) (k : Nat) (f : α → α) : tget d (tmod d t k f) k = f (tget d t k) := by
  simp [tmod]

theorem tget_tmod_ne (t : Tbl α) {k j : Nat} (h : j ≠ k) (f : α → α) : tget d (tmod d t k f) j = tget d t j := by
  simp [tmod, tget_tput_ne d t h]

end Sys2Proof.Machine
end

