-- ==== Sys2Proof/Laws/Commands.lean ====
section
/-! SUPPORT. What an accepted ring command, a mailbox request that is served and an instruction that issues do: their bodies. -/

namespace Sys2Proof.Machine

/-- An accepted command runs its body (R468, R471, R472, R487). -/
theorem ringCommand_accepts {d : Desc} {m : Nat} {f : List (Nat × Nat)} {s s0 : State} (h : Accepted d m f s s0) (body : State → State) :
    ringCommand d m f body s = body s0 := by
  obtain ⟨h1, h2, h3⟩ := h
  simp [ringCommand, h1, h2, h3]

/-- A command that R471 does not let start waits: nothing changes. -/
theorem ringCommand_waits {d : Desc} {m : Nat} {f : List (Nat × Nat)} {s : State} (h : s.mayStart d = false) (body : State → State) :
    ringCommand d m f body s = s := by
  simp [ringCommand, h]

/-- A command whose header or reserved bytes are wrong completes with the status R468 or R487 names. -/
theorem ringCommand_refuses {d : Desc} {m : Nat} {f : List (Nat × Nat)} {s s0 : State} {st : Status} (h1 : s.mayStart d = true)
    (h2 : s.reserve d = some s0) (h3 : headerStatus d (s0.versionFor d) m f = some st) (body : State → State) :
    ringCommand d m f body s = s0.done d st := by
  simp [ringCommand, h1, h2, h3]

/-- A request that Apex serves runs its body, and the reply goes into the mailbox (R39). -/
theorem mbxCommand_serves {m : Mbx} {code : Nat} {s : State} {p : List Byte} (h : Serves m code s p)
    (body : List Byte → State → Option ApexReply × State) :
    mbxCommand m code body s = match body p s with
      | (some r, s) => s.finish m r
      | (none, s) => s := by
  obtain ⟨h1, h2, h3, h4, h5, h6, h7⟩ := h
  have h8 : ¬ (s.apex.holdCode ≠ 0 ∧ m = .debugPort) := by
    rcases h5 with h5 | h5
    · exact fun h => h.1 h5
    · subst h5; exact fun h => by cases h.2
  have h9 : ¬ 508 < (s.mbx m).len := Nat.not_lt.mpr h6
  simp only [mbxCommand, h1, h2, h3, h4, h8, h9, h7, not_true, false_or, if_false, ne_eq]
  rcases body p s with ⟨_ | r, w⟩ <;> simp

/-- What waits for a thread's turn leaves the general registers as they are. -/
theorem unyield_gr (s : State) (c k n : Nat) : ((s.unyield c k).thread c k).gr n = (s.thread c k).gr n := by
  have h : ∀ (l : Tbl Thread) (f : Nat × Thread → Nat × Thread), (∀ e, (f e).1 = e.1 ∧ (f e).2.g = e.2.g) →
      (tget Thread.reset (l.map f) k).gr n = (tget Thread.reset l k).gr n := by
    intro l f hf
    induction l with
    | nil => rfl
    | cons e l ih =>
      obtain ⟨i, v⟩ := e
      have h1 := hf (i, v)
      simp only [List.map_cons]
      rcases hfe : f (i, v) with ⟨i', v'⟩
      rw [hfe] at h1
      simp only at h1
      simp only [tget, h1.1]
      split
      · simp only [Thread.gr, h1.2]
      · exact ih
  simp only [State.thread, State.unyield, State.setCluster, State.cluster, tget_tput_self]
  exact h _ _ fun e => by split <;> exact ⟨rfl, rfl⟩

/-- Noting an issue leaves the general registers as they are. -/
theorem noteIssue_gr (s : State) (c k pc : Nat) (w : BitVec 64) (b : Bool) (n : Nat) :
    ((s.noteIssue c k pc w b).thread c k).gr n = (s.thread c k).gr n := by
  refine Eq.trans ?_ (unyield_gr s c k n)
  simp only [State.thread, State.noteIssue, State.setCluster, State.cluster, tget_tput_self]

/-- An event's queueing changes no engine. -/
theorem queueRaise_vertex (s : State) (ev : Nat) (c : Bool) (data : List Byte) : (s.queueRaise ev c data).vertex = s.vertex := by
  simp only [State.queueRaise]
  split
  · split <;> rfl
  · split
    · rfl
    · split <;> rfl

/-- A run over a list whose every part leaves the engines leaves them. -/
theorem foldl_vertex {α : Type} {g : State → α → State} (h : ∀ u k, (g u k).vertex = u.vertex) (l : List α) (s : State) :
    (l.foldl g s).vertex = s.vertex := by
  induction l generalizing s with
  | nil => rfl
  | cons k l ih => exact (ih _).trans (h s k)

/-- An event changes no engine. -/
theorem raiseFuel_vertex (f : Nat) (s : State) (ev : Nat) (c : Bool) (data : List Byte) : (s.raiseFuel f ev c data).vertex = s.vertex := by
  have hq : ∀ s : State, ((s.markRaise ev).queueRaise ev c data).vertex = s.vertex := fun s => queueRaise_vertex _ _ _ _
  induction f generalizing s ev c data with
  | zero => exact hq s
  | succ f ih =>
    unfold State.raiseFuel
    dsimp only
    split
    · exact hq s
    · refine (foldl_vertex (fun u k => ?_) _ _).trans (hq s)
      split
      · exact ih _ _ _ _ fun s => queueRaise_vertex _ _ _ _
      · rfl

/-- An event raised at most once per Gnomon second changes no engine. -/
theorem raiseOnce_vertex (s : State) (ev a : Nat) (data : List Byte) : (s.raiseOnce ev a data).vertex = s.vertex := by
  unfold State.raiseOnce State.raise
  split
  · rfl
  · exact raiseFuel_vertex _ _ _ _ _

/-- Counting changes no engine. -/
theorem count_vertex (s : State) (id : Nat) : (s.count id).vertex = s.vertex := by
  unfold State.count State.countN
  extract_lets u
  split
  · rfl
  · refine (foldl_vertex (fun u k => ?_) _ _).trans rfl
    show (if (u.bumpProg k 1).1 then (u.bumpProg k 1).2.raiseOnce 0x343 k (le 2 k) else (u.bumpProg k 1).2).vertex = _
    split
    · exact raiseOnce_vertex _ _ _ _
    · rfl

/-- An instruction that issues has the effect of its body, and then its end. -/
theorem issue_runs {i : Issue} {x : Ins} {s s0 : State} (h : Issues i x s s0) {ops : List Nat} (ho : ops.contains x.op = true)
    (body : Nat → Nat → Ins → State → Act) :
    s.issue i ops body = (body i.t.cl i.t.key x s0).settle i.t.cl i.t.key x ((s0.thread i.t.cl i.t.key).gr x.a) := by
  unfold Issues at h
  dsimp only at h
  obtain ⟨h1, h2, h3, h4, h5, h6, h7, h8, h9⟩ := h
  have hor : ((s.wake i.t.cl).pairsNow i.t.cl i.t.key ((s.wake i.t.cl).thread i.t.cl i.t.key).pc ((s.wake i.t.cl).fetch i.t.cl
      ((s.wake i.t.cl).thread i.t.cl i.t.key).high ((s.wake i.t.cl).thread i.t.cl i.t.key).pc) ||
      (s.wake i.t.cl).chosen i.t.cl (i.t.key / 8) == some i.t.key) = true := by
    rcases h4 with h4 | h4 <;> simp [h4]
  unfold State.issue
  dsimp only
  generalize hv : (if i.imem = .corrected then ((s.wake i.t.cl).count (cid 0x05 0 i.t.cl)).raiseOnce 0x185 0 [BitVec.ofNat 8 i.t.cl]
    else s.wake i.t.cl) = v at h7 h9 ⊢
  have ht : (v.thread i.t.cl i.t.key).gr x.a = ((s.wake i.t.cl).thread i.t.cl i.t.key).gr x.a := by
    subst hv
    split
    · simp only [State.thread, State.cluster, raiseOnce_vertex, count_vertex]
    · rfl
  rw [h9, noteIssue_gr, ← h9, ht]
  rw [← h1, if_neg (by simp only [h2, h3, hor]; decide), if_neg h5, if_neg (by rw [ho]; simp),
    if_neg (by rw [h6]; decide), if_neg (by rw [h7]; decide), if_neg (by rw [h8]; decide)]

end Sys2Proof.Machine
end

