-- ==== Sys2Proof/Laws/Memory.lean ====
section
/-! SUPPORT. Memory: reads after writes, and every memory operation keeps the canonical form. -/

namespace Sys2Proof.Machine

/-- Sorted cells, as a relation on the list. -/
theorem rising_iff (l : List Host.Cell) : rising l = true ↔ l.Pairwise (fun x y => x.1 < y.1) := by
  induction l with
  | nil => simp [rising]
  | cons x t ih =>
    cases t with
    | nil => simp [rising]
    | cons y t =>
      rw [List.pairwise_cons]
      simp only [rising, Bool.and_eq_true, decide_eq_true_eq, ih]
      constructor
      · rintro ⟨h, hp⟩
        refine ⟨fun z hz => ?_, hp⟩
        rcases List.mem_cons.mp hz with rfl | hz
        · exact h
        · exact Nat.lt_trans h ((List.pairwise_cons.mp hp).1 z hz)
      · rintro ⟨h, hp⟩
        exact ⟨h y (by simp), hp⟩

theorem tdel_sublist {α : Type} (t : Tbl α) (k : Nat) : (tdel t k).Sublist t := by
  induction t with
  | nil => exact .slnil
  | cons e t ih =>
    obtain ⟨i, v⟩ := e
    simp only [tdel]
    split
    · exact ih.trans (List.sublist_cons_self ..)
    · exact ih.cons_cons _

theorem mem_tins {α : Type} {t : Tbl α} {k : Nat} {v : α} {e : Nat × α} (h : e ∈ tins t k v) : e = (k, v) ∨ e ∈ t := by
  induction t with
  | nil => simpa [tins] using h
  | cons f t ih =>
    obtain ⟨i, w⟩ := f
    simp only [tins] at h
    split at h
    · simpa using h
    · split at h
      · rcases List.mem_cons.mp h with h | h
        · exact .inl h
        · exact .inr (List.mem_cons_of_mem _ h)
      · rcases List.mem_cons.mp h with h | h
        · exact .inr (by simp [h])
        · exact (ih h).imp id (List.mem_cons_of_mem _)

theorem pairwise_tins {α : Type} {t : Tbl α} (k : Nat) (v : α) (h : t.Pairwise fun x y => x.1 < y.1) :
    (tins t k v).Pairwise fun x y => x.1 < y.1 := by
  induction t with
  | nil => simp [tins]
  | cons f t ih =>
    obtain ⟨i, w⟩ := f
    rw [List.pairwise_cons] at h
    simp only [tins]
    split
    · rename_i hk
      rw [List.pairwise_cons]
      refine ⟨fun y hy => ?_, List.pairwise_cons.mpr h⟩
      rcases List.mem_cons.mp hy with rfl | hy
      · exact hk
      · exact Nat.lt_trans hk (h.1 y hy)
    · rename_i hk
      split
      · rename_i he
        subst he
        exact List.pairwise_cons.mpr h
      · rename_i he
        rw [List.pairwise_cons]
        refine ⟨fun y hy => ?_, ih h.2⟩
        rcases mem_tins hy with rfl | hy
        · show i < k
          omega
        · exact h.1 y hy

/-- Writing a byte keeps the canonical form. -/
theorem Memory.putByte_wf {m : Memory} (a : Nat) (b : Byte) (h : m.wf = true) : (m.putByte a b).wf = true := by
  simp only [Memory.wf, Bool.and_eq_true, rising_iff, List.all_eq_true] at h ⊢
  have hu : ∀ x, (m.putByte a b).unlisted x = m.unlisted x := fun x => rfl
  have hc : (m.putByte a b).cells = if m.unlisted a = some b then tdel m.cells a else tins m.cells a b := rfl
  simp only [hu, hc]
  by_cases hb : m.unlisted a = some b
  · simp only [if_pos hb]
    exact ⟨h.1.sublist (tdel_sublist ..), fun c hc => h.2 c ((tdel_sublist ..).subset hc)⟩
  · simp only [if_neg hb]
    refine ⟨pairwise_tins _ _ h.1, fun c hc => ?_⟩
    rcases mem_tins hc with rfl | hc
    · exact bne_iff_ne.mpr hb
    · exact h.2 c hc

/-- Writing bytes keeps the canonical form. -/
theorem Memory.put_wf {m : Memory} (a : Nat) (bs : List Byte) (h : m.wf = true) : (m.put a bs).wf = true := by
  induction bs generalizing m a with
  | nil => exact h
  | cons b bs ih => exact ih _ (Memory.putByte_wf a b h)

theorem find?_filter_of {α : Type} (p q : α → Bool) (l : List α) (h : ∀ x ∈ l, p x = true → q x = true) :
    (l.filter q).find? p = l.find? p := by
  induction l with
  | nil => rfl
  | cons x l ih =>
    have ih := ih fun y hy => h y (List.mem_cons_of_mem _ hy)
    by_cases hq : q x = true
    · rw [List.filter_cons_of_pos hq]
      simp only [List.find?_cons, ih]
    · rw [List.filter_cons_of_neg hq, ih]
      have : p x = false := by
        cases hp : p x with
        | false => rfl
        | true => exact absurd (h x (by simp) hp) hq
      simp [this]

/-- Outside a filled range an unlisted byte reads as before. -/
theorem Memory.fill_unlisted {m : Memory} {f : FillRange} {a : Nat} (h : ¬ (f.base ≤ a ∧ a < f.base + f.len)) :
    (m.fill f).unlisted a = m.unlisted a := by
  have hf : (decide (f.base ≤ a) && decide (a < f.base + f.len)) = false := by
    simp only [Bool.and_eq_false_iff, decide_eq_false_iff_not]
    by_cases h1 : f.base ≤ a
    · exact .inr fun h2 => h ⟨h1, h2⟩
    · exact .inl h1
  simp only [Memory.unlisted, Memory.fillAt, Memory.fill, List.find?_cons, hf]
  rw [find?_filter_of]
  intro g _ hg
  simp only [Bool.and_eq_true, decide_eq_true_eq] at hg
  simp only [Bool.not_eq_true', Bool.and_eq_false_iff, decide_eq_false_iff_not]
  by_cases h1 : f.base ≤ g.base ∧ g.base < f.base + f.len
  · right
    intro h2
    exact h ⟨by omega, by omega⟩
  · left
    by_cases h3 : f.base ≤ g.base
    · exact .inr fun h4 => h1 ⟨h3, h4⟩
    · exact .inl h3

/-- A fill keeps the canonical form. -/
theorem Memory.fill_wf {m : Memory} (f : FillRange) (h : m.wf = true) : (m.fill f).wf = true := by
  simp only [Memory.wf, Bool.and_eq_true, rising_iff, List.all_eq_true] at h ⊢
  refine ⟨h.1.sublist List.filter_sublist, fun c hc => ?_⟩
  obtain ⟨hc, hn⟩ := List.mem_filter.mp hc
  simp only [Bool.not_eq_true', Bool.and_eq_false_iff, decide_eq_false_iff_not] at hn
  rw [Memory.fill_unlisted (by omega)]
  exact h.2 c hc

theorem cellAt_tdel {t : List Host.Cell} (k j : Nat) (h : t.Pairwise fun x y => x.1 < y.1) :
    cellAt (tdel t k) j = if k = j then none else cellAt t j := by
  induction t with
  | nil => simp [tdel, cellAt]
  | cons e t ih =>
    obtain ⟨i, v⟩ := e
    rw [List.pairwise_cons] at h
    have hnone : ∀ {l : List Host.Cell} {n : Nat}, (∀ x ∈ l, n < x.1) → cellAt l n = none := by
      intro l n hl
      induction l with
      | nil => rfl
      | cons x l ihl =>
        have := hl x (by simp)
        simp only [cellAt]
        rw [if_neg (by omega)]
        exact ihl fun y hy => hl y (List.mem_cons_of_mem _ hy)
    simp only [tdel]
    by_cases hik : i = k
    · subst hik
      rw [if_pos rfl]
      by_cases hij : i = j
      · subst hij
        rw [if_pos rfl]
        exact hnone fun x hx => h.1 x ((tdel_sublist t i).subset hx)
      · rw [if_neg hij, ih h.2]
        simp [cellAt, hij]
    · rw [if_neg hik]
      simp only [cellAt, ih h.2]
      by_cases hij : i = j
      · subst hij
        simp [Ne.symm hik]
      · simp [hij]

theorem cellAt_tins {t : List Host.Cell} (k j : Nat) (v : Byte) :
    cellAt (tins t k v) j = if k = j then some v else cellAt t j := by
  induction t with
  | nil => simp [tins, cellAt]
  | cons f t ih =>
    obtain ⟨i, w⟩ := f
    simp only [tins]
    split
    · simp [cellAt]
    · split
      · rename_i he
        subst he
        simp only [cellAt]
        split <;> rfl
      · rename_i he
        simp only [cellAt, ih]
        by_cases hij : i = j
        · subst hij
          simp only [if_true]
          rw [if_neg (Ne.symm he)]
        · simp [hij]

/-- A byte reads as written, and every other address as before. -/
theorem Memory.byte_putByte {m : Memory} (a j : Nat) (b : Byte) (h : m.wf = true) :
    (m.putByte a b).byte j = if a = j then b else m.byte j := by
  simp only [Memory.wf, Bool.and_eq_true, rising_iff] at h
  simp only [Memory.byte, Memory.putByte]
  by_cases hb : m.unlisted a = some b
  · simp only [hb, if_true, cellAt_tdel a j h.1]
    by_cases haj : a = j
    · subst haj
      simp only [if_true]
      have : ({ cells := tdel m.cells a, fills := m.fills } : Memory).unlisted a = m.unlisted a := rfl
      simp [this, hb]
    · simp only [haj, if_false]
      rfl
  · simp only [hb, if_false, cellAt_tins a j b]
    by_cases haj : a = j
    · simp [haj]
    · simp only [haj, if_false]
      rfl

/-- Bytes read as written, and every address outside them as before. -/
theorem Memory.byte_put {m : Memory} (a j : Nat) (bs : List Byte) (h : m.wf = true) :
    (m.put a bs).byte j = if a ≤ j ∧ j < a + bs.length then bs.getD (j - a) 0 else m.byte j := by
  induction bs generalizing m a with
  | nil =>
    have : ¬ (a ≤ j ∧ j < a + ([] : List Byte).length) := by simp
    rw [if_neg this]
    rfl
  | cons b bs ih =>
    simp only [Memory.put]
    rw [ih _ (Memory.putByte_wf a b h), Memory.byte_putByte a j b h]
    by_cases haj : a = j
    · subst haj
      rw [if_neg (by omega), if_pos rfl, if_pos (by simp)]
      simp
    · rw [if_neg haj]
      by_cases hr : a + 1 ≤ j ∧ j < a + 1 + bs.length
      · rw [if_pos hr, if_pos (by simp; omega)]
        obtain ⟨k, rfl⟩ : ∃ k, j = a + 1 + k := ⟨j - (a + 1), by omega⟩
        have h1 : a + 1 + k - (a + 1) = k := by omega
        have h2 : a + 1 + k - a = k + 1 := by omega
        rw [h1, h2, List.getD_cons_succ]
      · rw [if_neg hr, if_neg (by simp; omega)]

end Sys2Proof.Machine
end

