-- ==== Sys2Proof/Laws/Keeps.lean ====
section
/-! SUPPORT. What no operation of the part changes: the queue of waiting commands and the canonical form of memory, and that life-cycle cells are
only burned. One lemma per operation that answers a state. -/

namespace Sys2Proof.Machine

/-- From s to t the queue stays, memory stays canonical, and every burned life-cycle cell stays burned (R27, R571). -/
structure Keeps (s t : State) : Prop where
  pending : t.pending = s.pending
  mem : s.mem.wf = true → t.mem.wf = true
  cells : ∀ b, s.apex.otp.lcCells.getLsbD b = true → t.apex.otp.lcCells.getLsbD b = true

theorem Keeps.refl (s : State) : Keeps s s := ⟨rfl, id, fun _ => id⟩

theorem Keeps.trans {s t u : State} (h : Keeps s t) (k : Keeps t u) : Keeps s u :=
  ⟨k.pending.trans h.pending, fun w => k.mem (h.mem w), fun b w => k.cells b (h.cells b w)⟩

/-- An update of other fields that leaves the fuses as they are. -/
theorem Keeps.upd {s t : State} (h : Keeps s t) {fc ck o rv rg cn oc hu ri te gn ax ap as cp pe po la tw fa ts an lo se ra ve pr}
    (ha : ap.otp.lcCells = t.apex.otp.lcCells) :
    Keeps s { pending := t.pending, freeCount := fc, clk := ck, out := o, readValue := rv, regs := rg, counters := cn, once := oc, mem := t.mem
              hull := hu, rings := ri, tele := te, gnomon := gn, axis := ax, apex := ap, assoc := as, cpr := cp, periph := pe, ports := po
              lanes := la, twin := tw, facet := fa, tess := ts, annulus := an, locus := lo, sector := se, radius := ra, vertex := ve, prism := pr } :=
  ⟨h.pending, h.mem, fun b w => by rw [show _ = _ from ha]; exact h.cells b w⟩

/-- An update that also stores bytes. -/
theorem Keeps.updPut {s t : State} (h : Keeps s t) {fc ck o rv rg cn oc hu ri te gn ax ap as cp pe po la tw fa ts an lo se ra ve pr} {a : Nat} {bs : List Byte}
    (ha : ap.otp.lcCells = t.apex.otp.lcCells) :
    Keeps s { pending := t.pending, freeCount := fc, clk := ck, out := o, readValue := rv, regs := rg, counters := cn, once := oc, mem := t.mem.put a bs
              hull := hu, rings := ri, tele := te, gnomon := gn, axis := ax, apex := ap, assoc := as, cpr := cp, periph := pe, ports := po
              lanes := la, twin := tw, facet := fa, tess := ts, annulus := an, locus := lo, sector := se, radius := ra, vertex := ve, prism := pr } :=
  ⟨h.pending, fun w => Memory.put_wf _ _ (h.mem w), fun b w => by rw [show _ = _ from ha]; exact h.cells b w⟩

/-- An update that also fills a range of memory. -/
theorem Keeps.updFill {s t : State} (h : Keeps s t) {fc ck o rv rg cn oc hu ri te gn ax ap as cp pe po la tw fa ts an lo se ra ve pr} {f : FillRange}
    (ha : ap.otp.lcCells = t.apex.otp.lcCells) :
    Keeps s { pending := t.pending, freeCount := fc, clk := ck, out := o, readValue := rv, regs := rg, counters := cn, once := oc, mem := t.mem.fill f
              hull := hu, rings := ri, tele := te, gnomon := gn, axis := ax, apex := ap, assoc := as, cpr := cp, periph := pe, ports := po
              lanes := la, twin := tw, facet := fa, tess := ts, annulus := an, locus := lo, sector := se, radius := ra, vertex := ve, prism := pr } :=
  ⟨h.pending, fun w => Memory.fill_wf _ (h.mem w), fun b w => by rw [show _ = _ from ha]; exact h.cells b w⟩

theorem Keeps.ident {s t : State} (h : Keeps s t) : Keeps s (id t) := h

theorem Keeps.ite {s a b : State} {c : Prop} [Decidable c] (ha : c → Keeps s a) (hb : ¬c → Keeps s b) : Keeps s (if c then a else b) := by
  split <;> simp_all

theorem Keeps.dite {s : State} {c : Prop} [Decidable c] {a : c → State} {b : ¬c → State} (ha : ∀ h, Keeps s (a h)) (hb : ∀ h, Keeps s (b h)) :
    Keeps s (if h : c then a h else b h) := by
  split <;> simp_all

/-- The second component. -/
def KeepsP {α : Type} (s : State) (p : α × State) : Prop := Keeps s p.2
/-- What is there. -/
structure KeepsO (s : State) (o : Option State) : Prop where
  get : ∀ u, o = some u → Keeps s u
/-- The next state. -/
structure KeepsN (s : State) (o : Out) : Prop where
  get : ∀ u, o = .next u → Keeps s u
/-- The state of an instruction's outcome. -/
def KeepsA (s : State) : Act → Prop
  | .go u | .jump u _ | .fault u _ | .gone u => Keeps s u
/-- The second component of what is there. -/
structure KeepsOP {α : Type} (s : State) (o : Option (α × State)) : Prop where
  get : ∀ a u, o = some (a, u) → Keeps s u
/-- The state of a success. -/
structure KeepsE {ε : Type} (s : State) (o : Except ε State) : Prop where
  get : ∀ u, o = .ok u → Keeps s u

/-- The last of 3 components. -/
def KeepsP2 {α β : Type} (s : State) (p : α × β × State) : Prop := Keeps s p.2.2
theorem KeepsP2.mk {α β : Type} {s t : State} {a : α} {b : β} (h : Keeps s t) : KeepsP2 s (a, b, t) := h
theorem KeepsP2.snd {α β : Type} {s : State} {p : α × β × State} (h : KeepsP2 s p) : Keeps s p.2.2 := h
theorem KeepsP2.of_eq {α β : Type} {s t : State} {a : α} {b : β} {p : α × β × State} (e : p = (a, b, t)) (h : KeepsP2 s p) : Keeps s t := by
  rw [e] at h; exact h

/-- The last of 4 components. -/
def KeepsP3 {α β γ : Type} (s : State) (p : α × β × γ × State) : Prop := Keeps s p.2.2.2
theorem KeepsP3.mk {α β γ : Type} {s t : State} {a : α} {b : β} {c : γ} (h : Keeps s t) : KeepsP3 s (a, b, c, t) := h
theorem KeepsP3.snd {α β γ : Type} {s : State} {p : α × β × γ × State} (h : KeepsP3 s p) : Keeps s p.2.2.2 := h
theorem KeepsP3.of_eq {α β γ : Type} {s t : State} {a : α} {b : β} {c : γ} {p : α × β × γ × State} (e : p = (a, b, c, t)) (h : KeepsP3 s p) : Keeps s t := by
  rw [e] at h; exact h

/-- The last of 5 components. -/
def KeepsP4 {α β γ δ : Type} (s : State) (p : α × β × γ × δ × State) : Prop := Keeps s p.2.2.2.2
theorem KeepsP4.mk {α β γ δ : Type} {s t : State} {a : α} {b : β} {c : γ} {d : δ} (h : Keeps s t) : KeepsP4 s (a, b, c, d, t) := h
theorem KeepsP4.snd {α β γ δ : Type} {s : State} {p : α × β × γ × δ × State} (h : KeepsP4 s p) : Keeps s p.2.2.2.2 := h
theorem KeepsP4.of_eq {α β γ δ : Type} {s t : State} {a : α} {b : β} {c : γ} {d : δ} {p : α × β × γ × δ × State} (e : p = (a, b, c, d, t)) (h : KeepsP4 s p) : Keeps s t := by
  rw [e] at h; exact h

/-- The state of a finished key command. -/
structure KeepsK (s : State) (o : KeyStep) : Prop where
  get : ∀ u, o = .done u → Keeps s u
theorem KeepsK.done {s t : State} (h : Keeps s t) : KeepsK s (.done t) := ⟨fun _ e => by cases e; exact h⟩
theorem KeepsK.waits {s : State} : KeepsK s .waits := ⟨fun _ h => nomatch h⟩
theorem KeepsK.of_eq {s t : State} {o : KeyStep} (e : o = .done t) (h : KeepsK s o) : Keeps s t := h.get t e

theorem KeepsP.mk {α : Type} {s t : State} {a : α} (h : Keeps s t) : KeepsP s (a, t) := h
theorem KeepsP.snd {α : Type} {s : State} {p : α × State} (h : KeepsP s p) : Keeps s p.2 := h
theorem KeepsP.of_eq {α : Type} {s t : State} {a : α} {p : α × State} (e : p = (a, t)) (h : KeepsP s p) : Keeps s t := by rw [e] at h; exact h
theorem KeepsO.none {s : State} : KeepsO s none := ⟨fun _ h => nomatch h⟩
theorem KeepsO.some {s t : State} (h : Keeps s t) : KeepsO s (some t) := ⟨fun _ e => by cases e; exact h⟩
theorem KeepsO.of_eq {s t : State} {o : Option State} (e : o = Option.some t) (h : KeepsO s o) : Keeps s t := h.get t e
theorem KeepsO.getD {s t : State} {o : Option State} (h : KeepsO s o) (ht : Keeps s t) : Keeps s (o.getD t) := by
  cases o with
  | none => exact ht
  | some u => exact h.get u rfl
theorem KeepsN.next {s t : State} (h : Keeps s t) : KeepsN s (.next t) := ⟨fun _ e => by cases e; exact h⟩
theorem KeepsN.fault {s : State} {f : Fault} : KeepsN s (.fault f) := ⟨fun _ e => nomatch e⟩
theorem KeepsN.refused {s : State} {f : Refusal} : KeepsN s (.refused f) := ⟨fun _ e => nomatch e⟩
theorem KeepsA.go {s t : State} (h : Keeps s t) : KeepsA s (.go t) := h
theorem KeepsA.jump {s t : State} {p : Nat} (h : Keeps s t) : KeepsA s (.jump t p) := h
theorem KeepsA.fault {s t : State} {c : Cause} (h : Keeps s t) : KeepsA s (.fault t c) := h
theorem KeepsA.gone {s t : State} (h : Keeps s t) : KeepsA s (.gone t) := h
theorem KeepsOP.none {α : Type} {s : State} : KeepsOP (α := α) s none := ⟨fun _ _ h => nomatch h⟩
theorem KeepsOP.some {α : Type} {s t : State} {a : α} (h : Keeps s t) : KeepsOP s (some (a, t)) := ⟨fun _ _ e => by cases e; exact h⟩
theorem KeepsOP.of_eq {α : Type} {s t : State} {a : α} {o : Option (α × State)} (e : o = Option.some (a, t)) (h : KeepsOP s o) : Keeps s t :=
  h.get a t e
theorem KeepsE.error {ε : Type} {s : State} {c : ε} : KeepsE s (.error c) := ⟨fun _ h => nomatch h⟩
theorem KeepsE.ok {ε : Type} {s t : State} (h : Keeps s t) : KeepsE (ε := ε) s (.ok t) := ⟨fun _ e => by cases e; exact h⟩
theorem KeepsE.of_eq {ε : Type} {s t : State} {o : Except ε State} (e : o = .ok t) (h : KeepsE s o) : Keeps s t := h.get t e

theorem KeepsN.ite {s : State} {a b : Out} {c : Prop} [Decidable c] (ha : c → KeepsN s a) (hb : ¬c → KeepsN s b) : KeepsN s (if c then a else b) := by
  split <;> simp_all

theorem KeepsN.dite {s : State} {c : Prop} [Decidable c] {a : c → Out} {b : ¬c → Out} (ha : ∀ h, KeepsN s (a h)) (hb : ∀ h, KeepsN s (b h)) :
    KeepsN s (if h : c then a h else b h) := by
  split <;> simp_all

theorem KeepsP.ite {α : Type} {s : State} {a b : α × State} {c : Prop} [Decidable c] (ha : c → KeepsP s a) (hb : ¬c → KeepsP s b) : KeepsP s (if c then a else b) := by
  split <;> simp_all

theorem KeepsP.dite {α : Type} {s : State} {c : Prop} [Decidable c] {a : c → α × State} {b : ¬c → α × State} (ha : ∀ h, KeepsP s (a h)) (hb : ∀ h, KeepsP s (b h)) :
    KeepsP s (if h : c then a h else b h) := by
  split <;> simp_all

theorem KeepsO.ite {s : State} {a b : Option State} {c : Prop} [Decidable c] (ha : c → KeepsO s a) (hb : ¬c → KeepsO s b) : KeepsO s (if c then a else b) := by
  split <;> simp_all

theorem KeepsO.dite {s : State} {c : Prop} [Decidable c] {a : c → Option State} {b : ¬c → Option State} (ha : ∀ h, KeepsO s (a h)) (hb : ∀ h, KeepsO s (b h)) :
    KeepsO s (if h : c then a h else b h) := by
  split <;> simp_all

theorem KeepsA.ite {s : State} {a b : Act} {c : Prop} [Decidable c] (ha : c → KeepsA s a) (hb : ¬c → KeepsA s b) : KeepsA s (if c then a else b) := by
  split <;> simp_all

theorem KeepsA.dite {s : State} {c : Prop} [Decidable c] {a : c → Act} {b : ¬c → Act} (ha : ∀ h, KeepsA s (a h)) (hb : ∀ h, KeepsA s (b h)) :
    KeepsA s (if h : c then a h else b h) := by
  split <;> simp_all

theorem KeepsE.ite {ε : Type} {s : State} {a b : Except ε State} {c : Prop} [Decidable c] (ha : c → KeepsE s a) (hb : ¬c → KeepsE s b) : KeepsE s (if c then a else b) := by
  split <;> simp_all

theorem KeepsE.dite {ε : Type} {s : State} {c : Prop} [Decidable c] {a : c → Except ε State} {b : ¬c → Except ε State} (ha : ∀ h, KeepsE s (a h)) (hb : ∀ h, KeepsE s (b h)) :
    KeepsE s (if h : c then a h else b h) := by
  split <;> simp_all

theorem KeepsK.ite {s : State} {a b : KeyStep} {c : Prop} [Decidable c] (ha : c → KeepsK s a) (hb : ¬c → KeepsK s b) : KeepsK s (if c then a else b) := by
  split <;> simp_all

theorem KeepsK.dite {s : State} {c : Prop} [Decidable c] {a : c → KeyStep} {b : ¬c → KeyStep} (ha : ∀ h, KeepsK s (a h)) (hb : ∀ h, KeepsK s (b h)) :
    KeepsK s (if h : c then a h else b h) := by
  split <;> simp_all

theorem KeepsOP.ite {α : Type} {s : State} {a b : Option (α × State)} {c : Prop} [Decidable c] (ha : c → KeepsOP s a) (hb : ¬c → KeepsOP s b) : KeepsOP s (if c then a else b) := by
  split <;> simp_all

theorem KeepsOP.dite {α : Type} {s : State} {c : Prop} [Decidable c] {a : c → Option (α × State)} {b : ¬c → Option (α × State)} (ha : ∀ h, KeepsOP s (a h)) (hb : ∀ h, KeepsOP s (b h)) :
    KeepsOP s (if h : c then a h else b h) := by
  split <;> simp_all

theorem Keeps.foldl {α : Type} {s t : State} {f : State → α → State} {l : List α} (h : Keeps s t) (k : ∀ u a, Keeps s u → Keeps s (f u a)) :
    Keeps s (l.foldl f t) := by
  induction l generalizing t with
  | nil => exact h
  | cons a l ih => exact ih (k t a h)

theorem KeepsP.foldl {α β : Type} {s t : State} {b : β} {f : β × State → α → β × State} {l : List α} (h : Keeps s t)
    (k : ∀ p a, Keeps s p.2 → KeepsP s (f p a)) : KeepsP s (l.foldl f (b, t)) := by
  induction l generalizing t b with
  | nil => exact h
  | cons a l ih => exact ih (k (b, t) a h)


theorem KeepsO.findSome {α : Type} {s : State} {f : α → Option State} {l : List α} (k : ∀ a, KeepsO s (f a)) : KeepsO s (l.findSome? f) := by
  refine ⟨fun u h => ?_⟩
  obtain ⟨a, -, h⟩ := List.exists_of_findSome?_eq_some h
  exact (k a).get u h

end Sys2Proof.Machine
end

