-- ==== Sys2Proof/Laws/KeepsCore.lean ====
section
/-! SUPPORT. What the operations of memory, rings, events, keys, associations and the first engines keep (Laws/Keeps.lean): one lemma per definition that answers a state. -/

namespace Sys2Proof.Machine

set_option tactic.hygienic false
set_option linter.unusedVariables false

theorem State.draw_keeps {s0 t : State} (h : Keeps s0 t) (n : Nat) : KeepsP s0 (State.draw t n) := by
  unfold State.draw
  iterate 40 all_goals try first
    | with_reducible assumption
    | fail_if_no_progress with_reducible refine Keeps.upd ?_ rfl
    | fail_if_no_progress with_reducible refine KeepsP.mk ?_

theorem State.setReg_keeps {s0 t : State} (h : Keeps s0 t) (off : Nat) (v : BitVec 32) : Keeps s0 (State.setReg t off v) := by
  unfold State.setReg
  iterate 40 all_goals try first
    | with_reducible assumption
    | fail_if_no_progress with_reducible refine Keeps.upd ?_ rfl

theorem State.bumpProg_keeps {s0 t : State} (h : Keeps s0 t) (k : Nat) (n : Nat) : KeepsP s0 (State.bumpProg t k n) := by
  unfold State.bumpProg
  iterate 40 all_goals try first
    | with_reducible assumption
    | (lift_lets -underBinder; intro y)
    | fail_if_no_progress with_reducible refine Keeps.upd ?_ rfl
    | fail_if_no_progress with_reducible refine KeepsP.mk ?_

theorem State.setRing_keeps {s0 t : State} (h : Keeps s0 t) (k : RingKind) (r : Nat) (x : Ring) : Keeps s0 (State.setRing t k r x) := by
  unfold State.setRing
  iterate 40 all_goals try first
    | with_reducible assumption
    | (lift_lets -underBinder; intro y)
    | fail_if_no_progress with_reducible refine Keeps.upd ?_ rfl

theorem State.queueRaise_keeps {s0 t : State} (h : Keeps s0 t) (ev : Nat) (clear : Bool) (data : List Byte) : Keeps s0 (State.queueRaise t ev clear data) := by
  unfold State.queueRaise
  iterate 40 all_goals try first
    | with_reducible assumption
    | (lift_lets -underBinder; intro y)
    | with_reducible apply State.setRing_keeps
    | (with_reducible apply Keeps.ite <;> intros)
    | fail_if_no_progress with_reducible refine Keeps.upd ?_ rfl

theorem State.markRaise_keeps {s0 t : State} (h : Keeps s0 t) (ev : Nat) : Keeps s0 (State.markRaise t ev) := by
  unfold State.markRaise
  iterate 40 all_goals try first
    | with_reducible assumption
    | (lift_lets -underBinder; intro y)
    | fail_if_no_progress with_reducible refine Keeps.upd ?_ rfl

theorem State.raiseFuel_keeps {s0 t : State} (h : Keeps s0 t) (a : Nat) (a2 : Nat) (a3 : Bool) (a4 : List Byte) : Keeps s0 (State.raiseFuel a t a2 a3 a4) := by
  induction a generalizing t a2 a3 a4 with
  | zero =>
    unfold State.raiseFuel
    iterate 40 all_goals try first
      | with_reducible assumption
      | with_reducible apply State.markRaise_keeps
      | with_reducible apply State.queueRaise_keeps
  | succ n ih =>
    unfold State.raiseFuel
    iterate 40 all_goals try first
      | with_reducible apply ih
      | with_reducible assumption
      | (lift_lets -underBinder; intro y; with_reducible refine (fun (hy : Keeps s0 y) => ?_) ?_ <;> [clear_value y; subst y])
      | with_reducible apply State.markRaise_keeps
      | with_reducible apply State.queueRaise_keeps
      | with_reducible apply State.bumpProg_keeps
      | (with_reducible apply Keeps.ite <;> intros)
      | fail_if_no_progress with_reducible refine Keeps.upd ?_ rfl
      | (with_reducible apply Keeps.foldl <;> intros)
      | with_reducible apply KeepsP.snd

theorem State.raise_keeps {s0 t : State} (h : Keeps s0 t) (ev : Nat) (data : List Byte) : Keeps s0 (State.raise t ev data) := by
  unfold State.raise
  iterate 40 all_goals try first
    | with_reducible assumption
    | with_reducible apply State.raiseFuel_keeps

theorem State.raiseSet_keeps {s0 t : State} (h : Keeps s0 t) (ev : Nat) (clear : Bool) (data : List Byte) : Keeps s0 (State.raiseSet t ev clear data) := by
  unfold State.raiseSet
  iterate 40 all_goals try first
    | with_reducible assumption
    | with_reducible apply State.raiseFuel_keeps

theorem State.raiseOnce_keeps {s0 t : State} (h : Keeps s0 t) (ev : Nat) (a : Nat) (data : List Byte) : Keeps s0 (State.raiseOnce t ev a data) := by
  unfold State.raiseOnce
  iterate 40 all_goals try first
    | with_reducible assumption
    | with_reducible apply State.raise_keeps
    | (with_reducible apply Keeps.ite <;> intros)
    | fail_if_no_progress with_reducible refine Keeps.upd ?_ rfl

theorem State.countN_keeps {s0 t : State} (h : Keeps s0 t) (id : Nat) (n : Nat) : Keeps s0 (State.countN t id n) := by
  unfold State.countN
  iterate 40 all_goals try first
    | with_reducible assumption
    | (lift_lets -underBinder; intro y; with_reducible refine (fun (hy : Keeps s0 y) => ?_) ?_ <;> [clear_value y; subst y])
    | with_reducible apply State.bumpProg_keeps
    | with_reducible apply State.raiseOnce_keeps
    | (with_reducible apply Keeps.ite <;> intros)
    | fail_if_no_progress with_reducible refine Keeps.upd ?_ rfl
    | (with_reducible apply Keeps.foldl <;> intros)
    | with_reducible apply KeepsP.snd

theorem State.count_keeps {s0 t : State} (h : Keeps s0 t) (id : Nat) : Keeps s0 (State.count t id) := by
  unfold State.count
  iterate 40 all_goals try first
    | with_reducible assumption
    | with_reducible apply State.countN_keeps

theorem State.elapse_keeps {s0 t : State} (h : Keeps s0 t) (n : Nat) : Keeps s0 (State.elapse t n) := by
  unfold State.elapse
  iterate 40 all_goals try first
    | with_reducible assumption
    | (lift_lets -underBinder; intro y)
    | (with_reducible apply Keeps.ite <;> intros)
    | fail_if_no_progress with_reducible refine Keeps.upd ?_ rfl

theorem State.emit_keeps {s0 t : State} (h : Keeps s0 t) (o : Output) : Keeps s0 (State.emit t o) := by
  unfold State.emit
  iterate 40 all_goals try first
    | with_reducible assumption
    | fail_if_no_progress with_reducible refine Keeps.upd ?_ rfl

theorem State.losePending_keeps {s0 t : State} (h : Keeps s0 t) (base : Nat) (len : Nat) : Keeps s0 (State.losePending t base len) := by
  unfold State.losePending
  iterate 40 all_goals try first
    | with_reducible assumption
    | (lift_lets -underBinder; intro y)
    | fail_if_no_progress with_reducible refine Keeps.upd ?_ rfl

theorem State.setRegion_keeps {s0 t : State} (h : Keeps s0 t) (k : Nat) (r : Region) : Keeps s0 (State.setRegion t k r) := by
  unfold State.setRegion
  iterate 40 all_goals try first
    | with_reducible assumption
    | (lift_lets -underBinder; intro y)
    | fail_if_no_progress with_reducible refine Keeps.upd ?_ rfl

theorem State.refuse_keeps {s0 t : State} (h : Keeps s0 t) (k : Option Nat) (m : Master) : Keeps s0 (State.refuse t k m) := by
  unfold State.refuse
  iterate 40 all_goals try first
    | with_reducible assumption
    | with_reducible apply State.raiseOnce_keeps
    | with_reducible apply State.count_keeps
    | split

theorem State.verifyFail_keeps {s0 t : State} (h : Keeps s0 t) (k : Nat) (addr : Nat) (m : Master) (owner : Nat) (c : VerifyCause) : Keeps s0 (State.verifyFail t k addr m owner c) := by
  unfold State.verifyFail
  iterate 40 all_goals try first
    | with_reducible assumption
    | with_reducible apply State.raise_keeps
    | with_reducible apply State.count_keeps

theorem State.readMem_keeps {s0 t : State} (h : Keeps s0 t) (m : Master) (owner : Nat) (a : Nat) (n : Nat) : KeepsP s0 (State.readMem t m owner a n) := by
  unfold State.readMem
  iterate 40 all_goals try first
    | with_reducible assumption
    | with_reducible apply State.refuse_keeps
    | with_reducible apply State.verifyFail_keeps
    | split
    | fail_if_no_progress with_reducible refine KeepsP.mk ?_

theorem State.poisonGroup_keeps {s0 t : State} (h : Keeps s0 t) (k : Nat) (first : Nat) (line : Nat) : Keeps s0 (State.poisonGroup t k first line) := by
  unfold State.poisonGroup
  iterate 40 all_goals try first
    | with_reducible assumption
    | (lift_lets -underBinder; intro y)
    | with_reducible apply State.countN_keeps
    | fail_if_no_progress with_reducible refine Keeps.upd ?_ rfl

theorem State.noteDirty_keeps {s0 t : State} (h : Keeps s0 t) (k : Nat) (leaf : Nat) : Keeps s0 (State.noteDirty t k leaf) := by
  unfold State.noteDirty
  iterate 40 all_goals try first
    | with_reducible assumption
    | with_reducible apply State.draw_keeps
    | with_reducible apply State.setRegion_keeps
    | with_reducible apply State.raise_keeps
    | (with_reducible apply Keeps.ite <;> intros)
    | with_reducible apply KeepsP.snd

theorem State.bumpLine_keeps {s0 t : State} (h : Keeps s0 t) (k : Nat) (line : Nat) : KeepsP s0 (State.bumpLine t k line) := by
  unfold State.bumpLine
  iterate 40 all_goals try first
    | with_reducible assumption
    | (lift_lets -underBinder; intro y; with_reducible refine (fun (hy : Keeps s0 y) => ?_) ?_ <;> [clear_value y; subst y])
    | (lift_lets -underBinder; intro y)
    | with_reducible apply State.setRegion_keeps
    | with_reducible apply State.raise_keeps
    | with_reducible apply State.noteDirty_keeps
    | with_reducible apply State.poisonGroup_keeps
    | with_reducible apply State.count_keeps
    | (with_reducible apply KeepsP.ite <;> intros)
    | fail_if_no_progress with_reducible refine KeepsP.mk ?_

theorem State.refuseWrite_keeps {s0 t : State} (h : Keeps s0 t) (k : Nat) (m : Master) : Keeps s0 (State.refuseWrite t k m) := by
  unfold State.refuseWrite
  iterate 40 all_goals try first
    | with_reducible assumption
    | with_reducible apply State.refuse_keeps
    | with_reducible apply State.count_keeps

theorem State.writeOne_keeps {s0 t : State} (h : Keeps s0 t) (m : Master) (owner : Nat) (a : Nat) (bs : List Byte) : KeepsP s0 (State.writeOne t m owner a bs) := by
  unfold State.writeOne
  iterate 40 all_goals try first
    | with_reducible assumption
    | (lift_lets -underBinder; intro y)
    | with_reducible apply State.refuse_keeps
    | with_reducible apply State.refuseWrite_keeps
    | with_reducible apply State.verifyFail_keeps
    | with_reducible apply State.count_keeps
    | with_reducible apply State.bumpLine_keeps
    | (with_reducible apply KeepsP.ite <;> intros)
    | with_reducible refine Keeps.updPut ?_ rfl
    | split
    | fail_if_no_progress with_reducible refine KeepsP.mk ?_
    | with_reducible apply KeepsP.snd

theorem State.withSector_keeps {s0 t : State} (h : Keeps s0 t) (x : SectorState) : Keeps s0 (State.withSector t x) := by
  unfold State.withSector
  iterate 40 all_goals try first
    | with_reducible assumption
    | fail_if_no_progress with_reducible refine Keeps.upd ?_ rfl

theorem State.setLevel_keeps {s0 t : State} (h : Keeps s0 t) (k : Nat) (i : Nat) (v : Int) : Keeps s0 (State.setLevel t k i v) := by
  unfold State.setLevel
  iterate 40 all_goals try first
    | with_reducible assumption
    | (lift_lets -underBinder; intro y)
    | with_reducible apply State.withSector_keeps

theorem State.take_keeps {s0 t : State} (h : Keeps s0 t) (k : Nat) (i : Nat) (len : Nat) : Keeps s0 (State.take t k i len) := by
  unfold State.take
  iterate 40 all_goals try first
    | with_reducible assumption
    | (lift_lets -underBinder; intro y)
    | with_reducible apply State.setLevel_keeps

theorem State.writeGo_keeps {s0 t : State} (h : Keeps s0 t) (m : Master) (owner : Nat) (a : Nat) (a4 : Nat) (a5 : List Byte) : KeepsP s0 (State.writeGo m owner a t a4 a5) := by
  induction a generalizing t a4 a5 with
  | zero =>
    unfold State.writeGo
    iterate 40 all_goals try first
      | with_reducible assumption
      | fail_if_no_progress with_reducible refine KeepsP.mk ?_
  | succ n ih =>
    rcases a5 with _ | ⟨y, l⟩
    all_goals unfold State.writeGo
    iterate 40 all_goals try first
      | with_reducible apply ih
      | with_reducible assumption
      | (lift_lets -underBinder; intro y)
      | with_reducible apply State.writeOne_keeps
      | split
      | fail_if_no_progress with_reducible refine KeepsP.mk ?_
      | with_reducible refine KeepsP.of_eq (by with_reducible assumption) ?_

theorem State.writeMem_keeps {s0 t : State} (h : Keeps s0 t) (m : Master) (owner : Nat) (a : Nat) (bs : List Byte) : KeepsP s0 (State.writeMem t m owner a bs) := by
  unfold State.writeMem
  iterate 40 all_goals try first
    | with_reducible assumption
    | with_reducible apply State.refuse_keeps
    | with_reducible apply State.refuseWrite_keeps
    | with_reducible apply State.writeGo_keeps
    | with_reducible refine KeepsO.none
    | with_reducible refine KeepsO.some ?_
    | (with_reducible apply KeepsO.findSome <;> intros)
    | split
    | fail_if_no_progress with_reducible refine KeepsP.mk ?_
    | with_reducible refine KeepsO.of_eq (by with_reducible assumption) ?_

theorem State.taintNode_keeps {s0 t : State} (h : Keeps s0 t) (k : Nat) (level : Nat) (node : Nat) : Keeps s0 (State.taintNode t k level node) := by
  unfold State.taintNode
  iterate 40 all_goals try first
    | with_reducible assumption
    | (lift_lets -underBinder; intro y)
    | with_reducible apply State.raise_keeps
    | with_reducible apply State.setRegion_keeps
    | (with_reducible apply Keeps.ite <;> intros)
    | fail_if_no_progress with_reducible refine Keeps.upd ?_ rfl

theorem State.wordLost_keeps {s0 t : State} (h : Keeps s0 t) (a : Nat) : Keeps s0 (State.wordLost t a) := by
  unfold State.wordLost
  iterate 40 all_goals try first
    | with_reducible assumption
    | (lift_lets -underBinder; intro y)
    | with_reducible apply State.draw_keeps
    | with_reducible apply State.taintNode_keeps
    | (with_reducible apply Keeps.ite <;> intros)
    | fail_if_no_progress with_reducible refine Keeps.upd ?_ rfl
    | with_reducible refine Keeps.updPut ?_ rfl
    | split
    | with_reducible apply KeepsP.snd

theorem State.eccSeen_keeps {s0 t : State} (h : Keeps s0 t) (a : Nat) (e : Ecc) : Keeps s0 (State.eccSeen t a e) := by
  unfold State.eccSeen
  iterate 40 all_goals try first
    | with_reducible assumption
    | (lift_lets -underBinder; intro y)
    | with_reducible apply State.raiseOnce_keeps
    | with_reducible apply State.count_keeps
    | with_reducible apply State.wordLost_keeps
    | with_reducible apply State.raise_keeps
    | split

theorem State.ringError_keeps {s0 t : State} (h : Keeps s0 t) (k : RingKind) (r : Nat) (cause : Nat) : Keeps s0 (State.ringError t k r cause) := by
  unfold State.ringError
  iterate 40 all_goals try first
    | with_reducible assumption
    | (lift_lets -underBinder; intro y)
    | with_reducible apply State.setRing_keeps
    | with_reducible apply State.raise_keeps
    | (with_reducible apply Keeps.ite <;> intros)
    | fail_if_no_progress with_reducible refine Keeps.upd ?_ rfl

theorem State.writeCompletion_keeps {s0 t : State} (h : Keeps s0 t) (d : Desc) (rep : Reply) (c : Nat) : Keeps s0 (State.writeCompletion t d rep c) := by
  unfold State.writeCompletion
  iterate 40 all_goals try first
    | with_reducible assumption
    | (lift_lets -underBinder; intro y)
    | with_reducible apply State.writeMem_keeps
    | with_reducible apply State.setRing_keeps
    | with_reducible apply State.ringError_keeps
    | (with_reducible apply Keeps.ite <;> intros)
    | with_reducible apply KeepsP.snd

theorem State.complete_keeps {s0 t : State} (h : Keeps s0 t) (d : Desc) (rep : Reply) : Keeps s0 (State.complete t d rep) := by
  unfold State.complete
  iterate 40 all_goals try first
    | with_reducible assumption
    | (lift_lets -underBinder; intro y)
    | with_reducible apply State.setRing_keeps
    | with_reducible apply State.emit_keeps
    | with_reducible apply State.writeCompletion_keeps
    | (with_reducible apply Keeps.ite <;> intros)
    | fail_if_no_progress with_reducible refine Keeps.upd ?_ rfl

theorem State.done_keeps {s0 t : State} (h : Keeps s0 t) (d : Desc) (st : Status) : Keeps s0 (State.done t d st) := by
  unfold State.done
  iterate 40 all_goals try first
    | with_reducible assumption
    | with_reducible apply State.complete_keeps

theorem State.reserve_keeps {s0 t : State} (h : Keeps s0 t) (d : Desc) : KeepsO s0 (State.reserve t d) := by
  unfold State.reserve
  iterate 40 all_goals try first
    | with_reducible assumption
    | (lift_lets -underBinder; intro y)
    | with_reducible apply State.setRing_keeps
    | (with_reducible apply KeepsO.ite <;> intros)
    | with_reducible refine KeepsO.none
    | with_reducible refine KeepsO.some ?_
    | fail_if_no_progress with_reducible refine Keeps.upd ?_ rfl

theorem State.stall_keeps {s0 t : State} (h : Keeps s0 t) (d : Desc) : Keeps s0 (State.stall t d) := by
  unfold State.stall
  iterate 40 all_goals try first
    | with_reducible assumption
    | (lift_lets -underBinder; intro y)
    | with_reducible apply State.raiseOnce_keeps
    | with_reducible apply State.count_keeps
    | (with_reducible apply Keeps.ite <;> intros)
    | fail_if_no_progress with_reducible refine Keeps.upd ?_ rfl

theorem ringCommand_keeps {s0 t : State} (h : Keeps s0 t) (d : Desc) (flagMask : Nat) (fields : List (Nat × Nat)) (body : State → State) (anyVer : optParam Bool Bool.false) (k_body : ∀ u, Keeps s0 u → Keeps s0 (body u)) : Keeps s0 (ringCommand d flagMask fields body t anyVer) := by
  unfold ringCommand
  iterate 40 all_goals try first
    | with_reducible assumption
    | (lift_lets -underBinder; intro y)
    | with_reducible apply State.reserve_keeps
    | with_reducible apply State.stall_keeps
    | with_reducible apply State.done_keeps
    | with_reducible apply k_body
    | (with_reducible apply Keeps.ite <;> intros)
    | split
    | with_reducible refine KeepsO.of_eq (by with_reducible assumption) ?_

theorem State.readBuf_keeps {s0 t : State} (h : Keeps s0 t) (d : Desc) (m : Master) (a : Nat) (n : Nat) : KeepsP s0 (State.readBuf t d m a n) := by
  unfold State.readBuf
  iterate 40 all_goals try first
    | with_reducible assumption
    | with_reducible apply State.readMem_keeps
    | split
    | fail_if_no_progress with_reducible refine KeepsP.mk ?_
    | with_reducible refine KeepsP.of_eq (by with_reducible assumption) ?_

theorem State.writeBufDone_keeps {s0 t : State} (h : Keeps s0 t) (d : Desc) (m : Master) (a : Nat) (bs : List Byte) (rep : Reply) : Keeps s0 (State.writeBufDone t d m a bs rep) := by
  unfold State.writeBufDone
  iterate 40 all_goals try first
    | with_reducible assumption
    | with_reducible apply State.writeMem_keeps
    | with_reducible apply State.complete_keeps
    | with_reducible apply State.done_keeps
    | split
    | with_reducible refine KeepsP.of_eq (by with_reducible assumption) ?_

theorem State.withBuf_keeps {s0 t : State} (h : Keeps s0 t) (d : Desc) (m : Master) (a : Nat) (n : Nat) (k : List Byte → State → State) (k_k : ∀ b0 u, Keeps s0 u → Keeps s0 (k b0 u)) : Keeps s0 (State.withBuf t d m a n k) := by
  unfold State.withBuf
  iterate 40 all_goals try first
    | with_reducible assumption
    | with_reducible apply State.readBuf_keeps
    | with_reducible apply State.done_keeps
    | with_reducible apply k_k
    | split
    | with_reducible refine KeepsP.of_eq (by with_reducible assumption) ?_

theorem State.noteKey_keeps {s0 t : State} (h : Keeps s0 t) (k : Nat) (commit : Bool) : Keeps s0 (State.noteKey t k commit) := by
  unfold State.noteKey
  iterate 40 all_goals try first
    | with_reducible assumption
    | (lift_lets -underBinder; intro y)
    | fail_if_no_progress with_reducible refine Keeps.upd ?_ rfl

theorem State.setSlot_keeps {s0 t : State} (h : Keeps s0 t) (k : Nat) (x : Slot) : Keeps s0 (State.setSlot t k x) := by
  unfold State.setSlot
  iterate 40 all_goals try first
    | with_reducible assumption
    | (lift_lets -underBinder; intro y)
    | with_reducible apply State.noteKey_keeps
    | (with_reducible apply Keeps.ite <;> intros)
    | fail_if_no_progress with_reducible refine Keeps.upd ?_ rfl

theorem State.drbg_keeps {s0 t : State} (h : Keeps s0 t) (n : Nat) : KeepsP s0 (State.drbg t n) := by
  unfold State.drbg
  iterate 40 all_goals try first
    | with_reducible assumption
    | (lift_lets -underBinder; intro y)
    | with_reducible apply State.draw_keeps
    | fail_if_no_progress with_reducible refine Keeps.upd ?_ rfl
    | split
    | fail_if_no_progress with_reducible refine KeepsP.mk ?_
    | with_reducible refine KeepsP.of_eq (by with_reducible assumption) ?_

theorem State.stagePending_keeps {s0 t : State} (h : Keeps s0 t) (k : Nat) (alg : Nat) (use : Nat) (retire : Bool) (anc : List (Nat × BitVec 32)) (key : Nat) : Keeps s0 (State.stagePending t k alg use retire anc key) := by
  unfold State.stagePending
  iterate 40 all_goals try first
    | with_reducible assumption
    | with_reducible apply State.drbg_keeps
    | with_reducible apply State.setSlot_keeps
    | with_reducible apply KeepsP.snd

theorem State.setSa_keeps {s0 t : State} (h : Keeps s0 t) (h1 : Nat) (a : Assoc) : Keeps s0 (State.setSa t h1 a) := by
  unfold State.setSa
  iterate 40 all_goals try first
    | with_reducible assumption
    | (lift_lets -underBinder; intro y)
    | fail_if_no_progress with_reducible refine Keeps.upd ?_ rfl

theorem State.enterKeyLost_keeps {s0 t : State} (h : Keeps s0 t) (h1 : Nat) (cause : Nat) : Keeps s0 (State.enterKeyLost t h1 cause) := by
  unfold State.enterKeyLost
  iterate 40 all_goals try first
    | with_reducible assumption
    | (lift_lets -underBinder; intro y)
    | with_reducible apply State.raise_keeps
    | with_reducible apply State.setSa_keeps

theorem State.loseKeys_keeps {s0 t : State} (h : Keeps s0 t) (p : Nat → Bool) (cause : Nat) : Keeps s0 (State.loseKeys t p cause) := by
  unfold State.loseKeys
  iterate 40 all_goals try first
    | with_reducible assumption
    | with_reducible apply State.enterKeyLost_keeps
    | (with_reducible apply Keeps.foldl <;> intros)

theorem State.opStart_keeps {s0 t : State} (h : Keeps s0 t) (k : Nat) : Keeps s0 (State.opStart t k) := by
  unfold State.opStart
  iterate 40 all_goals try first
    | with_reducible assumption
    | (lift_lets -underBinder; intro y)
    | with_reducible apply State.setSlot_keeps

theorem State.opEnd_keeps {s0 t : State} (h : Keeps s0 t) (k : Nat) (g : BitVec 32) : Keeps s0 (State.opEnd t k g) := by
  unfold State.opEnd
  iterate 40 all_goals try first
    | with_reducible assumption
    | (lift_lets -underBinder; intro y)
    | with_reducible apply State.setSlot_keeps
    | (with_reducible apply Keeps.ite <;> intros)

theorem State.withGnomon_keeps {s0 t : State} (h : Keeps s0 t) (g : GnomonState) : Keeps s0 (State.withGnomon t g) := by
  unfold State.withGnomon
  iterate 40 all_goals try first
    | with_reducible assumption
    | fail_if_no_progress with_reducible refine Keeps.upd ?_ rfl

theorem State.ppsPulse_keeps {s0 t : State} (h : Keeps s0 t) : Keeps s0 (State.ppsPulse t) := by
  unfold State.ppsPulse
  iterate 40 all_goals try first
    | with_reducible assumption
    | (lift_lets -underBinder; intro y)
    | with_reducible apply State.withGnomon_keeps
    | (with_reducible apply Keeps.ite <;> intros)

theorem State.setGnomonMode_keeps {s0 t : State} (h : Keeps s0 t) (m : GnomonMode) : Keeps s0 (State.setGnomonMode t m) := by
  unfold State.setGnomonMode
  iterate 40 all_goals try first
    | with_reducible assumption
    | (lift_lets -underBinder; intro y)
    | with_reducible apply State.raise_keeps
    | with_reducible apply State.withGnomon_keeps
    | (with_reducible apply Keeps.ite <;> intros)

theorem State.servoUpdate_keeps {s0 t : State} (h : Keeps s0 t) : Keeps s0 (State.servoUpdate t) := by
  unfold State.servoUpdate
  iterate 40 all_goals try first
    | with_reducible assumption
    | (lift_lets -underBinder; intro y)
    | with_reducible apply State.withGnomon_keeps

theorem State.txtsPush_keeps {s0 t : State} (h : Keeps s0 t) (x : Nat) (e : BitVec 128) : Keeps s0 (State.txtsPush t x e) := by
  unfold State.txtsPush
  iterate 40 all_goals try first
    | with_reducible assumption
    | (lift_lets -underBinder; intro y)
    | with_reducible apply State.withGnomon_keeps
    | with_reducible apply State.raiseOnce_keeps
    | (with_reducible apply Keeps.ite <;> intros)

theorem State.tick_keeps {s0 t : State} (h : Keeps s0 t) (stepped : Bool) : Keeps s0 (State.tick t stepped) := by
  unfold State.tick
  iterate 40 all_goals try first
    | with_reducible assumption
    | (lift_lets -underBinder; intro y; with_reducible refine (fun (hy : Keeps s0 y) => ?_) ?_ <;> [clear_value y; subst y])
    | with_reducible apply State.withGnomon_keeps
    | with_reducible apply State.ppsPulse_keeps
    | fail_if_no_progress with_reducible refine Keeps.upd ?_ rfl

theorem State.flow_keeps {s0 t : State} (h : Keeps s0 t) (n : Nat) : Keeps s0 (State.flow t n) := by
  unfold State.flow
  iterate 40 all_goals try first
    | with_reducible assumption
    | (lift_lets -underBinder; intro y)
    | with_reducible apply State.elapse_keeps
    | with_reducible apply State.bumpProg_keeps
    | with_reducible apply State.raiseOnce_keeps
    | (with_reducible apply Keeps.ite <;> intros)
    | (with_reducible apply Keeps.foldl <;> intros)
    | with_reducible apply KeepsP.snd

theorem State.passGo_keeps {s0 t : State} (h : Keeps s0 t) (a : Nat) (a1 : Nat) : Keeps s0 (State.passGo a a1 t) := by
  induction a generalizing t a1 with
  | zero =>
    unfold State.passGo
    iterate 40 all_goals try first
      | with_reducible assumption
      | with_reducible apply State.flow_keeps
  | succ n ih =>
    unfold State.passGo
    iterate 40 all_goals try first
      | with_reducible apply ih
      | with_reducible assumption
      | (lift_lets -underBinder; intro y)
      | with_reducible apply State.tick_keeps
      | with_reducible apply State.flow_keeps
      | (with_reducible apply Keeps.ite <;> intros)

theorem State.pass_keeps {s0 t : State} (h : Keeps s0 t) (n : Nat) : Keeps s0 (State.pass t n) := by
  unfold State.pass
  iterate 40 all_goals try first
    | with_reducible assumption
    | with_reducible apply State.passGo_keeps

theorem State.passTo_keeps {s0 t : State} (h : Keeps s0 t) (a1 : Nat) : Keeps s0 (State.passTo t a1) := by
  unfold State.passTo
  iterate 40 all_goals try first
    | with_reducible assumption
    | with_reducible apply State.pass_keeps

theorem State.passToTime_keeps {s0 t : State} (h : Keeps s0 t) (T : Nat) : Keeps s0 (State.passToTime t T) := by
  unfold State.passToTime
  iterate 40 all_goals try first
    | with_reducible assumption
    | with_reducible apply State.pass_keeps

theorem State.withApex_keeps {s0 t : State} (h : Keeps s0 t) {a : ApexState} (ha : a.otp.lcCells = t.apex.otp.lcCells) :
    Keeps s0 (t.withApex a) := Keeps.upd h ha

theorem State.withApexMk_keeps {s0 t : State} (h : Keeps s0 t) {v0 v1 v2 v3 v4 v5 v6 v7 v8 v9 v10 v11 v12 v13 v14 v15 v16 v17 v18 v19 v20 v21 v22 v23 v24 v25 v26 v27 v28 v29} (ha : v0.lcCells = t.apex.otp.lcCells) :
    Keeps s0 (t.withApex (ApexState.mk v0 v1 v2 v3 v4 v5 v6 v7 v8 v9 v10 v11 v12 v13 v14 v15 v16 v17 v18 v19 v20 v21 v22 v23 v24 v25 v26 v27 v28 v29)) := Keeps.upd h ha

theorem State.ownerErase_keeps {s0 t : State} (h : Keeps s0 t) : Keeps s0 (State.ownerErase t) := by
  unfold State.ownerErase
  iterate 40 all_goals try first
    | with_reducible assumption
    | (lift_lets -underBinder; intro y; have _ : y.otp.lcCells = y.otp.lcCells := rfl)
    | (lift_lets -underBinder; intro y; have _ : y.lcCells = y.lcCells := rfl)
    | with_reducible refine State.withApexMk_keeps ?_ rfl

theorem State.finishTransition_keeps {s0 t : State} (h : Keeps s0 t) (target : Nat) (erase : Bool) :
    Keeps s0 (t.finishTransition target erase) := by
  have k : Keeps s0 (if erase then t.ownerErase else t) := Keeps.ite (fun _ => State.ownerErase_keeps h) fun _ => h
  refine ⟨k.pending, k.mem, fun b w => ?_⟩
  have := k.cells b w
  simp only [State.finishTransition, State.withApex, BitVec.getLsbD_or, this, Bool.true_or]

theorem State.transition_keeps {s0 t : State} (h : Keeps s0 t) (target : Nat) (erase : Bool) : Keeps s0 (State.transition t target erase) := by
  unfold State.transition
  iterate 40 all_goals try first
    | with_reducible assumption
    | (lift_lets -underBinder; intro y)
    | with_reducible refine State.withApexMk_keeps ?_ rfl
    | with_reducible apply State.finishTransition_keeps

theorem State.setMbx_keeps {s0 t : State} (h : Keeps s0 t) (m : Mbx) (x : Mailbox) : Keeps s0 (State.setMbx t m x) := by
  unfold State.setMbx
  iterate 40 all_goals try first
    | with_reducible assumption
    | (lift_lets -underBinder; intro y; have _ : y.otp.lcCells = y.otp.lcCells := rfl)
    | with_reducible refine State.withApexMk_keeps ?_ rfl
    | split

theorem State.respond_keeps {s0 t : State} (h : Keeps s0 t) (m : Mbx) (r : ApexReply) : Keeps s0 (State.respond t m r) := by
  unfold State.respond
  iterate 40 all_goals try first
    | with_reducible assumption
    | (lift_lets -underBinder; intro y)
    | with_reducible refine State.withApexMk_keeps ?_ rfl
    | with_reducible apply State.setMbx_keeps

theorem State.mbxUnknown_keeps {s0 t : State} (h : Keeps s0 t) (m : Mbx) : Keeps s0 (State.mbxUnknown t m) := by
  unfold State.mbxUnknown
  iterate 40 all_goals try first
    | with_reducible assumption
    | (lift_lets -underBinder; intro y)
    | with_reducible apply State.respond_keeps
    | (with_reducible apply Keeps.ite <;> intros)

theorem State.finish_keeps {s0 t : State} (h : Keeps s0 t) (m : Mbx) (r : ApexReply) : Keeps s0 (State.finish t m r) := by
  unfold State.finish
  iterate 40 all_goals try first
    | with_reducible assumption
    | with_reducible apply State.mbxUnknown_keeps
    | with_reducible apply State.respond_keeps

theorem State.failedAttempt_keeps {s0 t : State} (h : Keeps s0 t) : Keeps s0 (State.failedAttempt t) := by
  unfold State.failedAttempt
  iterate 40 all_goals try first
    | with_reducible assumption
    | (lift_lets -underBinder; intro y; have _ : y.otp.lcCells = y.otp.lcCells := rfl)
    | with_reducible refine State.withApexMk_keeps ?_ rfl
    | with_reducible apply State.raise_keeps

theorem State.refuseRequest_keeps {s0 t : State} (h : Keeps s0 t) (code : Nat) : Keeps s0 (State.refuseRequest t code) := by
  unfold State.refuseRequest
  iterate 40 all_goals try first
    | with_reducible assumption
    | (lift_lets -underBinder; intro y; have _ : y.otp.lcCells = y.otp.lcCells := rfl)
    | with_reducible refine State.withApexMk_keeps ?_ rfl
    | with_reducible apply State.failedAttempt_keeps
    | (with_reducible apply Keeps.ite <;> intros)

theorem mbxCommand_keeps {s0 t : State} (h : Keeps s0 t) (m : Mbx) (code : Nat) (body : List Byte → State → Option ApexReply × State) (k_body : ∀ b0 u, Keeps s0 u → KeepsP s0 (body b0 u)) : Keeps s0 (mbxCommand m code body t) := by
  unfold mbxCommand
  iterate 40 all_goals try first
    | with_reducible assumption
    | (lift_lets -underBinder; intro y)
    | with_reducible apply State.finish_keeps
    | with_reducible apply State.refuseRequest_keeps
    | with_reducible apply k_body
    | (with_reducible apply Keeps.ite <;> intros)
    | split
    | with_reducible refine KeepsP.of_eq (by with_reducible assumption) ?_

theorem State.holdWrite_keeps {s0 t : State} (h : Keeps s0 t) (m : Mbx) : Keeps s0 (State.holdWrite t m) := by
  unfold State.holdWrite
  iterate 40 all_goals try first
    | with_reducible assumption
    | (lift_lets -underBinder; intro y; have _ : y.otp.lcCells = y.otp.lcCells := rfl)
    | with_reducible refine State.withApexMk_keeps ?_ rfl
    | (with_reducible apply Keeps.ite <;> intros)

theorem State.measExtend_keeps {s0 t : State} (h : Keeps s0 t) (i : Nat) (digest : List Byte) : Keeps s0 (State.measExtend t i digest) := by
  unfold State.measExtend
  iterate 40 all_goals try first
    | with_reducible assumption
    | (lift_lets -underBinder; intro y)
    | with_reducible refine State.withApexMk_keeps ?_ rfl

theorem State.loadPatch_keeps {s0 t : State} (h : Keeps s0 t) : Keeps s0 (State.loadPatch t) := by
  unfold State.loadPatch
  iterate 40 all_goals try first
    | with_reducible assumption
    | (lift_lets -underBinder; intro y)
    | with_reducible refine State.withApexMk_keeps ?_ rfl
    | with_reducible apply State.measExtend_keeps
    | with_reducible apply State.raise_keeps
    | (with_reducible apply Keeps.ite <;> intros)

theorem State.placeBoot_keeps {s0 t : State} (h : Keeps s0 t) (i : Nat) : Keeps s0 (State.placeBoot t i) := by
  unfold State.placeBoot
  iterate 40 all_goals try first
    | with_reducible assumption
    | (lift_lets -underBinder; intro y)
    | with_reducible refine State.withApexMk_keeps ?_ rfl
    | with_reducible apply State.writeMem_keeps
    | intro _
    | with_reducible apply KeepsP.snd

theorem State.loadBoot_keeps {s0 t : State} (h : Keeps s0 t) : Keeps s0 (State.loadBoot t) := by
  unfold State.loadBoot
  iterate 40 all_goals try first
    | with_reducible assumption
    | (lift_lets -underBinder; intro y; have _ : y.otp.lcCells = y.otp.lcCells := rfl)
    | (lift_lets -underBinder; intro y)
    | with_reducible refine State.withApexMk_keeps ?_ rfl
    | with_reducible apply State.measExtend_keeps
    | with_reducible apply State.raise_keeps
    | with_reducible apply State.placeBoot_keeps
    | (with_reducible apply Keeps.ite <;> intros)
    | split

theorem State.buildRoot_keeps {s0 t : State} (h : Keeps s0 t) : Keeps s0 (State.buildRoot t) := by
  unfold State.buildRoot
  iterate 40 all_goals try first
    | with_reducible assumption
    | (lift_lets -underBinder; intro y; have _ : y.otp.lcCells = y.otp.lcCells := rfl)
    | with_reducible refine State.withApexMk_keeps ?_ rfl

theorem State.sealBlob_keeps {s0 t : State} (h : Keeps s0 t) (policy : Nat) (attr : Nat) (label : Nat) (gen : Nat) (pt : List Byte) (expect : List (Nat × List Byte)) : KeepsP s0 (State.sealBlob t policy attr label gen pt expect) := by
  unfold State.sealBlob
  iterate 40 all_goals try first
    | with_reducible assumption
    | (lift_lets -underBinder; intro y)
    | with_reducible apply State.drbg_keeps
    | split
    | fail_if_no_progress with_reducible refine KeepsP.mk ?_
    | with_reducible refine KeepsP.of_eq (by with_reducible assumption) ?_

theorem answer_keeps {s0 t : State} (h : Keeps s0 t) (st : Nat) : KeepsP s0 (answer st t) := by
  unfold answer
  iterate 40 all_goals try first
    | with_reducible assumption
    | fail_if_no_progress with_reducible refine KeepsP.mk ?_

theorem State.runTransition_keeps {s0 t : State} (h : Keeps s0 t) (m : Mbx) (target : Nat) (erase : Bool) (pre : State → State) (k_pre : ∀ u, Keeps s0 u → Keeps s0 (pre u)) : KeepsP s0 (State.runTransition t m target erase pre) := by
  unfold State.runTransition
  iterate 40 all_goals try first
    | with_reducible assumption
    | with_reducible apply State.holdWrite_keeps
    | with_reducible apply answer_keeps
    | with_reducible apply State.raise_keeps
    | with_reducible apply State.transition_keeps
    | with_reducible apply k_pre
    | (with_reducible apply KeepsP.ite <;> intros)
    | fail_if_no_progress with_reducible refine KeepsP.mk ?_

theorem lcBody_keeps {s0 t : State} (h : Keeps s0 t) (m : Mbx) (p : List Byte) : KeepsP s0 (lcBody m p t) := by
  unfold lcBody
  iterate 40 all_goals try first
    | with_reducible assumption
    | (lift_lets -underBinder; intro y)
    | with_reducible refine State.withApexMk_keeps ?_ rfl
    | with_reducible apply answer_keeps
    | (with_reducible apply State.runTransition_keeps <;> intros)
    | with_reducible apply State.failedAttempt_keeps
    | with_reducible apply State.draw_keeps
    | (with_reducible apply KeepsP.ite <;> intros)
    | with_reducible apply Keeps.ident
    | split
    | with_reducible apply KeepsP.snd

theorem execLcTransition_keeps {s0 t : State} (h : Keeps s0 t) (m : Mbx) : KeepsN s0 (execLcTransition m t) := by
  unfold execLcTransition
  iterate 40 all_goals try first
    | with_reducible assumption
    | (with_reducible apply mbxCommand_keeps <;> intros)
    | with_reducible apply lcBody_keeps
    | with_reducible refine KeepsN.next ?_

theorem challengeBody_keeps {s0 t : State} (h : Keeps s0 t) (p : List Byte) : KeepsP s0 (challengeBody p t) := by
  unfold challengeBody
  iterate 40 all_goals try first
    | with_reducible assumption
    | (lift_lets -underBinder; intro y; have _ : y.otp.lcCells = y.otp.lcCells := rfl)
    | with_reducible refine State.withApexMk_keeps ?_ rfl
    | with_reducible apply answer_keeps
    | with_reducible apply State.draw_keeps
    | (with_reducible apply KeepsP.ite <;> intros)
    | split
    | fail_if_no_progress with_reducible refine KeepsP.mk ?_
    | with_reducible refine KeepsP.of_eq (by with_reducible assumption) ?_

theorem execDbgChallenge_keeps {s0 t : State} (h : Keeps s0 t) (m : Mbx) : KeepsN s0 (execDbgChallenge m t) := by
  unfold execDbgChallenge
  iterate 40 all_goals try first
    | with_reducible assumption
    | (with_reducible apply mbxCommand_keeps <;> intros)
    | with_reducible apply challengeBody_keeps
    | with_reducible refine KeepsN.next ?_

theorem unlockBody_keeps {s0 t : State} (h : Keeps s0 t) (p : List Byte) : KeepsP s0 (unlockBody p t) := by
  unfold unlockBody
  iterate 40 all_goals try first
    | with_reducible assumption
    | (lift_lets -underBinder; intro y)
    | with_reducible refine State.withApexMk_keeps ?_ rfl
    | with_reducible apply answer_keeps
    | with_reducible apply State.refuseRequest_keeps
    | with_reducible apply State.failedAttempt_keeps
    | with_reducible apply State.raise_keeps
    | (with_reducible apply KeepsP.ite <;> intros)

theorem execDbgUnlock_keeps {s0 t : State} (h : Keeps s0 t) (m : Mbx) : KeepsN s0 (execDbgUnlock m t) := by
  unfold execDbgUnlock
  iterate 40 all_goals try first
    | with_reducible assumption
    | (with_reducible apply mbxCommand_keeps <;> intros)
    | with_reducible apply unlockBody_keeps
    | with_reducible refine KeepsN.next ?_

theorem extendBody_keeps {s0 t : State} (h : Keeps s0 t) (p : List Byte) : KeepsP s0 (extendBody p t) := by
  unfold extendBody
  iterate 40 all_goals try first
    | with_reducible assumption
    | (lift_lets -underBinder; intro y)
    | with_reducible apply answer_keeps
    | with_reducible apply State.measExtend_keeps
    | (with_reducible apply KeepsP.ite <;> intros)

theorem execMeasExtend_keeps {s0 t : State} (h : Keeps s0 t) (m : Mbx) : KeepsN s0 (execMeasExtend m t) := by
  unfold execMeasExtend
  iterate 40 all_goals try first
    | with_reducible assumption
    | (with_reducible apply mbxCommand_keeps <;> intros)
    | with_reducible apply extendBody_keeps
    | with_reducible refine KeepsN.next ?_

theorem measReadBody_keeps {s0 t : State} (h : Keeps s0 t) (p : List Byte) : KeepsP s0 (measReadBody p t) := by
  unfold measReadBody
  iterate 40 all_goals try first
    | with_reducible assumption
    | with_reducible apply answer_keeps
    | (with_reducible apply KeepsP.ite <;> intros)
    | fail_if_no_progress with_reducible refine KeepsP.mk ?_

theorem execMeasRead_keeps {s0 t : State} (h : Keeps s0 t) (m : Mbx) : KeepsN s0 (execMeasRead m t) := by
  unfold execMeasRead
  iterate 40 all_goals try first
    | with_reducible assumption
    | (with_reducible apply mbxCommand_keeps <;> intros)
    | with_reducible apply measReadBody_keeps
    | with_reducible refine KeepsN.next ?_

theorem alarmAckBody_keeps {s0 t : State} (h : Keeps s0 t) (p : List Byte) : KeepsP s0 (alarmAckBody p t) := by
  unfold alarmAckBody
  iterate 40 all_goals try first
    | with_reducible assumption
    | (lift_lets -underBinder; intro y; have _ : y.otp.lcCells = y.otp.lcCells := rfl)
    | with_reducible refine State.withApexMk_keeps ?_ rfl
    | with_reducible apply answer_keeps
    | (with_reducible apply KeepsP.ite <;> intros)

theorem execAlarmAck_keeps {s0 t : State} (h : Keeps s0 t) (m : Mbx) : KeepsN s0 (execAlarmAck m t) := by
  unfold execAlarmAck
  iterate 40 all_goals try first
    | with_reducible assumption
    | (with_reducible apply mbxCommand_keeps <;> intros)
    | with_reducible apply alarmAckBody_keeps
    | with_reducible refine KeepsN.next ?_

theorem secverBody_keeps {s0 t : State} (h : Keeps s0 t) (m : Mbx) (p : List Byte) : KeepsP s0 (secverBody m p t) := by
  unfold secverBody
  iterate 40 all_goals try first
    | with_reducible assumption
    | (lift_lets -underBinder; intro y)
    | with_reducible apply answer_keeps
    | with_reducible apply State.holdWrite_keeps
    | with_reducible apply State.withApex_keeps
    | (with_reducible apply KeepsP.ite <;> intros)
    | with_reducible exact rfl
    | split
    | fail_if_no_progress with_reducible refine KeepsP.mk ?_

theorem execSecverRaise_keeps {s0 t : State} (h : Keeps s0 t) (m : Mbx) : KeepsN s0 (execSecverRaise m t) := by
  unfold execSecverRaise
  iterate 40 all_goals try first
    | with_reducible assumption
    | (with_reducible apply mbxCommand_keeps <;> intros)
    | with_reducible apply secverBody_keeps
    | with_reducible refine KeepsN.next ?_

theorem sealBody_keeps {s0 t : State} (h : Keeps s0 t) (p : List Byte) : KeepsP s0 (sealBody p t) := by
  unfold sealBody
  iterate 40 all_goals try first
    | with_reducible assumption
    | (lift_lets -underBinder; intro y)
    | with_reducible apply answer_keeps
    | with_reducible apply State.sealBlob_keeps
    | (with_reducible apply KeepsP.ite <;> intros)
    | split
    | fail_if_no_progress with_reducible refine KeepsP.mk ?_
    | with_reducible refine KeepsP.of_eq (by with_reducible assumption) ?_

theorem execSeal_keeps {s0 t : State} (h : Keeps s0 t) (m : Mbx) : KeepsN s0 (execSeal m t) := by
  unfold execSeal
  iterate 40 all_goals try first
    | with_reducible assumption
    | (with_reducible apply mbxCommand_keeps <;> intros)
    | with_reducible apply sealBody_keeps
    | with_reducible refine KeepsN.next ?_

theorem unsealBody_keeps {s0 t : State} (h : Keeps s0 t) (p : List Byte) : KeepsP s0 (unsealBody p t) := by
  unfold unsealBody
  iterate 40 all_goals try first
    | with_reducible assumption
    | with_reducible apply answer_keeps
    | (with_reducible apply KeepsP.ite <;> intros)
    | split
    | fail_if_no_progress with_reducible refine KeepsP.mk ?_

theorem execUnseal_keeps {s0 t : State} (h : Keeps s0 t) (m : Mbx) : KeepsN s0 (execUnseal m t) := by
  unfold execUnseal
  iterate 40 all_goals try first
    | with_reducible assumption
    | (with_reducible apply mbxCommand_keeps <;> intros)
    | with_reducible apply unsealBody_keeps
    | with_reducible refine KeepsN.next ?_

theorem unsealSlotBody_keeps {s0 t : State} (h : Keeps s0 t) (p : List Byte) : KeepsP s0 (unsealSlotBody p t) := by
  unfold unsealSlotBody
  iterate 40 all_goals try first
    | with_reducible assumption
    | (lift_lets -underBinder; intro y)
    | with_reducible apply answer_keeps
    | with_reducible apply State.stagePending_keeps
    | (with_reducible apply KeepsP.ite <;> intros)
    | split
    | fail_if_no_progress with_reducible refine KeepsP.mk ?_

theorem execUnsealToSlot_keeps {s0 t : State} (h : Keeps s0 t) (m : Mbx) : KeepsN s0 (execUnsealToSlot m t) := by
  unfold execUnsealToSlot
  iterate 40 all_goals try first
    | with_reducible assumption
    | (with_reducible apply mbxCommand_keeps <;> intros)
    | with_reducible apply unsealSlotBody_keeps
    | with_reducible refine KeepsN.next ?_

theorem migrateBody_keeps {s0 t : State} (h : Keeps s0 t) (p : List Byte) : KeepsP s0 (migrateBody p t) := by
  unfold migrateBody
  iterate 40 all_goals try first
    | with_reducible assumption
    | (lift_lets -underBinder; intro y)
    | with_reducible apply answer_keeps
    | with_reducible apply State.sealBlob_keeps
    | (with_reducible apply KeepsP.ite <;> intros)
    | split
    | fail_if_no_progress with_reducible refine KeepsP.mk ?_
    | with_reducible refine KeepsP.of_eq (by with_reducible assumption) ?_

theorem execSealMigrate_keeps {s0 t : State} (h : Keeps s0 t) (m : Mbx) : KeepsN s0 (execSealMigrate m t) := by
  unfold execSealMigrate
  iterate 40 all_goals try first
    | with_reducible assumption
    | (with_reducible apply mbxCommand_keeps <;> intros)
    | with_reducible apply migrateBody_keeps
    | with_reducible refine KeepsN.next ?_

theorem State.programmed_keeps {s0 t : State} (h : Keeps s0 t) (b : List Byte) : KeepsP s0 (State.programmed t b) := by
  unfold State.programmed
  iterate 40 all_goals try first
    | with_reducible assumption
    | with_reducible apply State.draw_keeps
    | (with_reducible apply KeepsP.ite <;> intros)
    | split
    | fail_if_no_progress with_reducible refine KeepsP.mk ?_
    | with_reducible apply KeepsP.snd
    | with_reducible refine KeepsP.of_eq (by with_reducible assumption) ?_

theorem blobCommitBody_keeps {s0 t : State} (h : Keeps s0 t) (m : Mbx) (p : List Byte) : KeepsP s0 (blobCommitBody m p t) := by
  unfold blobCommitBody
  iterate 40 all_goals try first
    | with_reducible assumption
    | (lift_lets -underBinder; intro y; have _ : y.otp.lcCells = y.otp.lcCells := rfl)
    | (lift_lets -underBinder; intro y)
    | with_reducible refine State.withApexMk_keeps ?_ rfl
    | with_reducible apply answer_keeps
    | with_reducible apply State.holdWrite_keeps
    | with_reducible apply State.programmed_keeps
    | (with_reducible apply KeepsP.ite <;> intros)
    | fail_if_no_progress with_reducible refine KeepsP.mk ?_
    | with_reducible apply KeepsP.snd

theorem execBlobCommit_keeps {s0 t : State} (h : Keeps s0 t) (m : Mbx) : KeepsN s0 (execBlobCommit m t) := by
  unfold execBlobCommit
  iterate 40 all_goals try first
    | with_reducible assumption
    | (with_reducible apply mbxCommand_keeps <;> intros)
    | with_reducible apply blobCommitBody_keeps
    | with_reducible refine KeepsN.next ?_

theorem blobFetchBody_keeps {s0 t : State} (h : Keeps s0 t) (p : List Byte) : KeepsP s0 (blobFetchBody p t) := by
  unfold blobFetchBody
  iterate 40 all_goals try first
    | with_reducible assumption
    | (lift_lets -underBinder; intro y)
    | with_reducible apply answer_keeps
    | (with_reducible apply KeepsP.ite <;> intros)
    | fail_if_no_progress with_reducible refine KeepsP.mk ?_

theorem execBlobFetch_keeps {s0 t : State} (h : Keeps s0 t) (m : Mbx) : KeepsN s0 (execBlobFetch m t) := by
  unfold execBlobFetch
  iterate 40 all_goals try first
    | with_reducible assumption
    | (with_reducible apply mbxCommand_keeps <;> intros)
    | with_reducible apply blobFetchBody_keeps
    | with_reducible refine KeepsN.next ?_

theorem State.writesOf_keeps {s0 t : State} (h : Keeps s0 t) (m : Mbx) : KeepsO s0 (State.writesOf t m) := by
  unfold State.writesOf
  iterate 40 all_goals try first
    | with_reducible assumption
    | (lift_lets -underBinder; intro y)
    | with_reducible apply lcBody_keeps
    | with_reducible apply secverBody_keeps
    | with_reducible apply blobCommitBody_keeps
    | (with_reducible apply KeepsO.ite <;> intros)
    | with_reducible refine KeepsO.none
    | with_reducible refine KeepsO.some ?_
    | fail_if_no_progress with_reducible refine Keeps.upd ?_ rfl
    | split
    | fail_if_no_progress with_reducible refine KeepsP.mk ?_
    | with_reducible refine KeepsP.of_eq (by with_reducible assumption) ?_

theorem State.cutSector_keeps {s0 t : State} (h : Keeps s0 t) (off : Nat) (b : List Byte) (k : Nat) : Keeps s0 (State.cutSector t off b k) := by
  unfold State.cutSector
  iterate 40 all_goals try first
    | with_reducible assumption
    | (lift_lets -underBinder; intro y)
    | with_reducible refine State.withApexMk_keeps ?_ rfl

theorem cutOtp_cells (o o' : OtpState) (k h s r b : Nat) (w : o.lcCells.getLsbD b = true) : (cutOtp o o' k h s r).lcCells.getLsbD b = true := by
  unfold cutOtp
  dsimp only
  split
  · exact w
  · simp only [BitVec.getLsbD_or, w, Bool.true_or]

theorem State.cutWrite_keeps {s0 t : State} (h : Keeps s0 t) (m : Mbx) (v : State) : Keeps s0 (t.cutWrite m v) := by
  unfold State.cutWrite
  extract_lets p o s1
  have h1 : Keeps s0 s1 := Keeps.upd h rfl
  have ho : o.lcCells = s1.apex.otp.lcCells := rfl
  clear_value s1 o
  split
  · have hc : ∀ b, s0.apex.otp.lcCells.getLsbD b = true → o.lcCells.getLsbD b = true := fun b w => by rw [ho]; exact h1.cells b w
    have k := KeepsP.snd (State.draw_keeps (KeepsP.snd (State.draw_keeps (KeepsP.snd (State.draw_keeps (KeepsP.snd (State.draw_keeps h1 6)) 384)) 256)) 8)
    exact ⟨k.pending, k.mem, fun b w => cutOtp_cells _ _ _ _ _ _ _ (hc b w)⟩
  · have ka := KeepsP.snd (State.draw_keeps h1 6)
    have hb : (s1.draw 6).2.apex.otp.lcCells = s1.apex.otp.lcCells := rfl
    generalize s1.draw 6 = q1 at ka hb ⊢
    obtain ⟨k, s2⟩ := q1
    exact State.withApex_keeps ka (ho.trans hb.symm)
  · have ka := KeepsP.snd (State.draw_keeps h1 16)
    generalize s1.draw 16 = q1 at ka ⊢
    obtain ⟨k, s2⟩ := q1
    exact State.cutSector_keeps ka _ _ _

theorem State.cutWrites_keeps {s0 t : State} (h : Keeps s0 t) : Keeps s0 t.cutWrites := by
  unfold State.cutWrites
  refine Keeps.foldl h fun u m k => ?_
  refine Keeps.ite (fun _ => k) fun _ => ?_
  rcases u.apex.heldWrite with _ | q <;> dsimp only
  · have k2 : Keeps s0 (u.draw 1).2 := State.draw_keeps k 1
    split
    · exact Keeps.ite (fun _ => k2) fun _ => State.cutWrite_keeps k2 _ _
    · exact k2
  · split
    · exact Keeps.ite (fun _ => k) fun _ => State.cutWrite_keeps k _ _
    · exact k

theorem State.pauseWrites_keeps {s0 t : State} (h : Keeps s0 t) : Keeps s0 (State.pauseWrites t) := by
  unfold State.pauseWrites
  iterate 40 all_goals try first
    | with_reducible assumption
    | (lift_lets -underBinder; intro y; have _ : y.otp.lcCells = y.otp.lcCells := rfl)
    | with_reducible refine State.withApexMk_keeps ?_ rfl
    | with_reducible apply State.draw_keeps
    | (with_reducible apply Keeps.ite <;> intros)
    | split
    | with_reducible apply KeepsP.snd

theorem State.resumeIntent_keeps {s0 t : State} (h : Keeps s0 t) : Keeps s0 (State.resumeIntent t) := by
  unfold State.resumeIntent
  iterate 40 all_goals try first
    | with_reducible assumption
    | (lift_lets -underBinder; intro y; with_reducible refine (fun (hy : Keeps s0 y) => ?_) ?_ <;> [clear_value y; subst y])
    | with_reducible refine State.withApexMk_keeps ?_ rfl
    | with_reducible apply State.finishTransition_keeps
    | (with_reducible apply Keeps.ite <;> intros)
    | split

theorem execSupplyHoldTimeout_keeps {s0 t : State} (h : Keeps s0 t) (m : Mbx) : KeepsN s0 (execSupplyHoldTimeout m t) := by
  unfold execSupplyHoldTimeout
  iterate 40 all_goals try first
    | with_reducible assumption
    | (lift_lets -underBinder; intro y; with_reducible refine (fun (hy : Keeps s0 y) => ?_) ?_ <;> [clear_value y; subst y])
    | with_reducible refine State.withApexMk_keeps ?_ rfl
    | with_reducible apply State.passTo_keeps
    | with_reducible apply State.finish_keeps
    | with_reducible apply State.raise_keeps
    | (with_reducible apply KeepsN.ite <;> intros)
    | with_reducible refine KeepsN.next ?_
    | split

theorem execCompassRelease_keeps {s0 t : State} (h : Keeps s0 t) : KeepsN s0 (execCompassRelease t) := by
  unfold execCompassRelease
  iterate 40 all_goals try first
    | with_reducible assumption
    | (lift_lets -underBinder; intro y)
    | with_reducible refine State.withApexMk_keeps ?_ rfl
    | with_reducible apply State.raise_keeps
    | (with_reducible apply Keeps.ite <;> intros)
    | (with_reducible apply KeepsN.ite <;> intros)
    | with_reducible refine KeepsN.next ?_
    | fail_if_no_progress with_reducible refine Keeps.upd ?_ rfl
    | (with_reducible apply Keeps.foldl <;> intros)

theorem State.setLport_keeps {s0 t : State} (h : Keeps s0 t) (lp : Nat) (x : LPort) : Keeps s0 (State.setLport t lp x) := by
  unfold State.setLport
  iterate 40 all_goals try first
    | with_reducible assumption
    | (lift_lets -underBinder; intro y)
    | fail_if_no_progress with_reducible refine Keeps.upd ?_ rfl

theorem State.releap_keeps {s0 t : State} (h : Keeps s0 t) (p : Assoc → Bool) : Keeps s0 (State.releap t p) := by
  unfold State.releap
  iterate 40 all_goals try first
    | with_reducible assumption
    | (lift_lets -underBinder; intro y)
    | fail_if_no_progress with_reducible refine Keeps.upd ?_ rfl

theorem State.retime_keeps {s0 t : State} (h : Keeps s0 t) (widthChanged : Bool) : Keeps s0 (State.retime t widthChanged) := by
  unfold State.retime
  iterate 40 all_goals try first
    | with_reducible assumption
    | (lift_lets -underBinder; intro y)
    | with_reducible apply State.raise_keeps
    | with_reducible apply State.releap_keeps
    | (with_reducible apply Keeps.ite <;> intros)
    | fail_if_no_progress with_reducible refine Keeps.upd ?_ rfl

theorem State.atCeiling_keeps {s0 t : State} (h : Keeps s0 t) (h1 : Nat) : Keeps s0 (State.atCeiling t h1) := by
  unfold State.atCeiling
  iterate 40 all_goals try first
    | with_reducible assumption
    | (lift_lets -underBinder; intro y)
    | with_reducible apply State.raise_keeps
    | with_reducible apply State.setSa_keeps
    | (with_reducible apply Keeps.ite <;> intros)

theorem State.nextMoved_keeps {s0 t : State} (h : Keeps s0 t) (h1 : Nat) : Keeps s0 (State.nextMoved t h1) := by
  unfold State.nextMoved
  iterate 40 all_goals try first
    | with_reducible assumption
    | (lift_lets -underBinder; intro y)
    | with_reducible apply State.setSa_keeps
    | with_reducible apply State.raise_keeps
    | with_reducible apply State.atCeiling_keeps
    | (with_reducible apply Keeps.ite <;> intros)

theorem State.caseClear_keeps {s0 t : State} (h : Keeps s0 t) (h1 : Nat) : Keeps s0 (State.caseClear t h1) := by
  unfold State.caseClear
  iterate 40 all_goals try first
    | with_reducible assumption
    | (lift_lets -underBinder; intro y)
    | (with_reducible apply Keeps.ite <;> intros)
    | fail_if_no_progress with_reducible refine Keeps.upd ?_ rfl

theorem State.switchEntry_keeps {s0 t : State} (h : Keeps s0 t) (fr : Nat) (dst : Nat) (pn : Option Nat) : KeepsP s0 (State.switchEntry t fr dst pn) := by
  unfold State.switchEntry
  iterate 40 all_goals try first
    | with_reducible assumption
    | (lift_lets -underBinder; intro y)
    | with_reducible apply State.setSa_keeps
    | with_reducible apply State.raise_keeps
    | with_reducible apply State.atCeiling_keeps
    | (with_reducible apply KeepsP.ite <;> intros)
    | split
    | fail_if_no_progress with_reducible refine KeepsP.mk ?_

theorem State.untake_keeps {s0 t : State} (h : Keeps s0 t) (h1 : Nat) : Keeps s0 (State.untake t h1) := by
  unfold State.untake
  iterate 40 all_goals try first
    | with_reducible assumption
    | (lift_lets -underBinder; intro y)
    | with_reducible apply State.setSa_keeps

theorem State.settleEntry_keeps {s0 t : State} (h : Keeps s0 t) (fr : Nat) (switched : Bool) : Keeps s0 (State.settleEntry t fr switched) := by
  unfold State.settleEntry
  iterate 40 all_goals try first
    | with_reducible assumption
    | (lift_lets -underBinder; intro y)
    | with_reducible apply State.raise_keeps
    | (with_reducible apply Keeps.ite <;> intros)
    | fail_if_no_progress with_reducible refine Keeps.upd ?_ rfl
    | split

theorem State.dropRotations_keeps {s0 t : State} (h : Keeps s0 t) : Keeps s0 (State.dropRotations t) := by
  unfold State.dropRotations
  iterate 40 all_goals try first
    | with_reducible assumption
    | (lift_lets -underBinder; intro y)
    | fail_if_no_progress with_reducible refine Keeps.upd ?_ rfl

theorem State.fireRotation_keeps {s0 t : State} (h : Keeps s0 t) (r : Rotation) : Keeps s0 (State.fireRotation t r) := by
  unfold State.fireRotation
  iterate 40 all_goals try first
    | with_reducible assumption
    | (lift_lets -underBinder; intro y; with_reducible refine (fun (hy : Keeps s0 y) => ?_) ?_ <;> [clear_value y; subst y])
    | with_reducible apply State.switchEntry_keeps
    | with_reducible apply State.settleEntry_keeps
    | with_reducible apply State.dropRotations_keeps
    | with_reducible apply State.complete_keeps
    | (with_reducible apply KeepsP.foldl <;> intros)
    | split
    | fail_if_no_progress with_reducible refine KeepsP.mk ?_
    | with_reducible refine KeepsP.of_eq (by with_reducible assumption) ?_

theorem State.fireRotations_keeps {s0 t : State} (h : Keeps s0 t) : Keeps s0 (State.fireRotations t) := by
  unfold State.fireRotations
  iterate 40 all_goals try first
    | with_reducible assumption
    | with_reducible apply State.fireRotation_keeps
    | (with_reducible apply Keeps.foldl <;> intros)

theorem State.noteTaken_keeps {s0 t : State} (h : Keeps s0 t) (dk : Nat) (g : BitVec 32) (v : Nat) : Keeps s0 (State.noteTaken t dk g v) := by
  unfold State.noteTaken
  iterate 40 all_goals try first
    | with_reducible assumption
    | (lift_lets -underBinder; intro y)
    | (with_reducible apply Keeps.ite <;> intros)
    | fail_if_no_progress with_reducible refine Keeps.upd ?_ rfl

theorem State.pnTake_keeps {s0 t : State} (h : Keeps s0 t) (h1 : Nat) (ph : Bool) (dk : Nat) (g : BitVec 32) : KeepsP s0 (State.pnTake t h1 ph dk g) := by
  unfold State.pnTake
  extract_lets a v s1 a1 s2 tw s3
  have ks := State.switchEntry_keeps h h1 a.successor.toNat (some a.switchPn.toNat)
  have k1 : Keeps s0 s1 := Keeps.ite (fun _ => State.dropRotations_keeps (State.settleEntry_keeps ks.snd _ _)) fun _ => h
  have k2 : Keeps s0 s2 := State.setSa_keeps k1 _ _
  have k3 : Keeps s0 s3 := Keeps.ite (fun _ => k2) fun _ => Keeps.upd k2 rfl
  clear_value s3 s2 a1 s1
  exact KeepsP.ite (fun _ => KeepsP.mk h) fun _ => KeepsP.ite (fun _ => KeepsP.mk h) fun _ => KeepsP.ite
    (fun _ => KeepsP.mk (State.dropRotations_keeps (State.settleEntry_keeps ks.snd _ _)))
    fun _ => KeepsP.ite (fun _ => KeepsP.mk k1) fun _ => KeepsP.ite (fun _ => KeepsP.mk k1) fun _ => KeepsP.ite
      (fun _ => KeepsP.ite (fun _ => KeepsP.mk k1) fun _ => KeepsP.mk (State.raise_keeps k3 _ _))
      fun _ => KeepsP.mk (State.nextMoved_keeps (State.noteTaken_keeps (State.setSa_keeps k1 _ _) _ _ _) _)

theorem State.fold_keeps {s0 t : State} (h : Keeps s0 t) (h1 : Nat) : KeepsP s0 (State.fold t h1) := by
  unfold State.fold
  iterate 40 all_goals try first
    | with_reducible assumption
    | (lift_lets -underBinder; intro y)
    | with_reducible apply State.writeMem_keeps
    | with_reducible apply State.setSa_keeps
    | with_reducible apply State.raise_keeps
    | split
    | fail_if_no_progress with_reducible refine KeepsP.mk ?_
    | with_reducible refine KeepsP.of_eq (by with_reducible assumption) ?_

theorem State.stat_keeps {s0 t : State} (h : Keeps s0 t) (h1 : Nat) (i : Nat) (n : Nat) : Keeps s0 (State.stat t h1 i n) := by
  unfold State.stat
  iterate 40 all_goals try first
    | with_reducible assumption
    | (lift_lets -underBinder; intro y)
    | with_reducible apply State.setSa_keeps
    | with_reducible apply State.raise_keeps
    | with_reducible apply State.fold_keeps
    | (with_reducible apply Keeps.ite <;> intros)
    | split
    | with_reducible apply KeepsP.snd

theorem State.rxVerified_keeps {s0 t : State} (h : Keeps s0 t) (h1 : Nat) : Keeps s0 (State.rxVerified t h1) := by
  unfold State.rxVerified
  iterate 40 all_goals try first
    | with_reducible assumption
    | (lift_lets -underBinder; intro y)
    | with_reducible apply State.setSa_keeps
    | (with_reducible apply Keeps.ite <;> intros)
    | fail_if_no_progress with_reducible refine Keeps.upd ?_ rfl

theorem State.takeLock_keeps {s0 t : State} (h : Keeps s0 t) (h1 : Nat) (owner : Nat) : Keeps s0 (State.takeLock t h1 owner) := by
  unfold State.takeLock
  iterate 40 all_goals try first
    | with_reducible assumption
    | (lift_lets -underBinder; intro y)
    | fail_if_no_progress with_reducible refine Keeps.upd ?_ rfl

theorem State.freeLock_keeps {s0 t : State} (h : Keeps s0 t) (h1 : Nat) (owner : Nat) : Keeps s0 (State.freeLock t h1 owner) := by
  unfold State.freeLock
  iterate 40 all_goals try first
    | with_reducible assumption
    | (lift_lets -underBinder; intro y)
    | (with_reducible apply Keeps.ite <;> intros)
    | fail_if_no_progress with_reducible refine Keeps.upd ?_ rfl
    | split

theorem State.orReg_keeps {s0 t : State} (h : Keeps s0 t) (off : Nat) (mask : Nat) : Keeps s0 (State.orReg t off mask) := by
  unfold State.orReg
  iterate 40 all_goals try first
    | with_reducible assumption
    | with_reducible apply State.setReg_keeps

theorem State.withTess_keeps {s0 t : State} (h : Keeps s0 t) (a1 : TessState) : Keeps s0 (State.withTess t a1) := by
  unfold State.withTess
  iterate 40 all_goals try first
    | with_reducible assumption
    | fail_if_no_progress with_reducible refine Keeps.upd ?_ rfl

theorem State.nextCell_keeps {s0 t : State} (h : Keeps s0 t) (p : Nat) (taken : List Nat) : KeepsP s0 (State.nextCell t p taken) := by
  unfold State.nextCell
  iterate 40 all_goals try first
    | with_reducible assumption
    | (lift_lets -underBinder; intro y)
    | with_reducible apply State.draw_keeps
    | with_reducible apply State.withTess_keeps
    | split
    | fail_if_no_progress with_reducible refine KeepsP.mk ?_
    | with_reducible refine KeepsP.of_eq (by with_reducible assumption) ?_

theorem State.listCells_keeps {s0 t : State} (h : Keeps s0 t) (p : Nat) (cells : List Nat) : Keeps s0 (State.listCells t p cells) := by
  unfold State.listCells
  iterate 40 all_goals try first
    | with_reducible assumption
    | (lift_lets -underBinder; intro y)
    | with_reducible apply State.withTess_keeps

theorem State.takeCells_keeps {s0 t : State} (h : Keeps s0 t) (p : Nat) (o : Nat) (a : Nat) (a3 : List Nat) : KeepsP s0 (State.takeCells p o a a3 t) := by
  induction a generalizing t a3 with
  | zero =>
    unfold State.takeCells
    iterate 40 all_goals try first
      | with_reducible assumption
      | fail_if_no_progress with_reducible refine KeepsP.mk ?_
  | succ n ih =>
    unfold State.takeCells
    iterate 40 all_goals try first
      | with_reducible apply ih
      | with_reducible assumption
      | with_reducible apply State.listCells_keeps
      | with_reducible apply State.nextCell_keeps
      | (with_reducible apply KeepsP.ite <;> intros)
      | split
      | fail_if_no_progress with_reducible refine KeepsP.mk ?_
      | with_reducible refine KeepsP.of_eq (by with_reducible assumption) ?_

theorem State.allocFrame_keeps {s0 t : State} (h : Keeps s0 t) (o : Nat) (f : TFrame) : KeepsP s0 (State.allocFrame t o f) := by
  unfold State.allocFrame
  iterate 40 all_goals try first
    | with_reducible assumption
    | (lift_lets -underBinder; intro y)
    | with_reducible apply State.count_keeps
    | with_reducible apply State.withTess_keeps
    | with_reducible apply State.takeCells_keeps
    | (with_reducible apply KeepsP.ite <;> intros)
    | split
    | fail_if_no_progress with_reducible refine KeepsP.mk ?_
    | with_reducible refine KeepsP.of_eq (by with_reducible assumption) ?_

theorem State.modFrame_keeps {s0 t : State} (h : Keeps s0 t) (id : Nat) (g : TFrame → TFrame) : Keeps s0 (State.modFrame t id g) := by
  unfold State.modFrame
  iterate 40 all_goals try first
    | with_reducible assumption
    | (lift_lets -underBinder; intro y)
    | with_reducible apply State.withTess_keeps

theorem State.holdFrame_keeps {s0 t : State} (h : Keeps s0 t) (id : Nat) (a : Option Nat) (b : Option Nat) : Keeps s0 (State.holdFrame t id a b) := by
  unfold State.holdFrame
  iterate 40 all_goals try first
    | with_reducible assumption
    | with_reducible apply State.modFrame_keeps

theorem State.copyFrame_keeps {s0 t : State} (h : Keeps s0 t) (id : Nat) (r : Option Nat) : KeepsP s0 (State.copyFrame t id r) := by
  unfold State.copyFrame
  iterate 40 all_goals try first
    | with_reducible assumption
    | with_reducible apply State.modFrame_keeps
    | with_reducible apply State.raiseOnce_keeps
    | with_reducible apply State.count_keeps
    | (with_reducible apply KeepsP.ite <;> intros)
    | split
    | fail_if_no_progress with_reducible refine KeepsP.mk ?_

theorem State.refuseFree_keeps {s0 t : State} (h : Keeps s0 t) (o : Nat) (e : FreeErr) (cell : Nat) (item : Nat) : Keeps s0 (State.refuseFree t o e cell item) := by
  unfold State.refuseFree
  iterate 40 all_goals try first
    | with_reducible assumption
    | (lift_lets -underBinder; intro y)
    | with_reducible apply State.count_keeps
    | with_reducible apply State.orReg_keeps
    | with_reducible apply State.raise_keeps
    | with_reducible apply State.withTess_keeps

theorem State.strand_keeps {s0 t : State} (h : Keeps s0 t) (owner : Nat) (f : TFrame) (rest : List Nat) : Keeps s0 (State.strand t owner f rest) := by
  unfold State.strand
  iterate 40 all_goals try first
    | with_reducible assumption
    | (lift_lets -underBinder; intro y)
    | with_reducible apply State.refuseFree_keeps
    | with_reducible apply State.withTess_keeps
    | with_reducible apply State.raise_keeps
    | with_reducible apply State.countN_keeps
    | split

theorem State.freePtr_keeps {s0 t : State} (h : Keeps s0 t) (o : Option Nat) (ptr : Nat) : Keeps s0 (State.freePtr t o ptr) := by
  unfold State.freePtr
  iterate 40 all_goals try first
    | with_reducible assumption
    | (lift_lets -underBinder; intro y)
    | with_reducible apply State.refuseFree_keeps
    | with_reducible apply State.modFrame_keeps
    | with_reducible apply State.listCells_keeps
    | with_reducible apply State.withTess_keeps
    | with_reducible apply State.strand_keeps
    | (with_reducible apply Keeps.ite <;> intros)
    | split

theorem State.freeFrame_keeps {s0 t : State} (h : Keeps s0 t) (o : Option Nat) (id : Nat) : Keeps s0 (State.freeFrame t o id) := by
  unfold State.freeFrame
  iterate 40 all_goals try first
    | with_reducible assumption
    | (lift_lets -underBinder; intro y)
    | with_reducible apply State.freePtr_keeps
    | with_reducible apply State.withTess_keeps
    | split

theorem State.readFrame_keeps {s0 t : State} (h : Keeps s0 t) (id : Nat) (e : Ecc) (bytes : List Byte) : KeepsP s0 (State.readFrame t id e bytes) := by
  unfold State.readFrame
  iterate 40 all_goals try first
    | with_reducible assumption
    | (lift_lets -underBinder; intro y)
    | with_reducible apply State.count_keeps
    | with_reducible apply State.draw_keeps
    | with_reducible apply State.raise_keeps
    | split
    | fail_if_no_progress with_reducible refine KeepsP.mk ?_
    | with_reducible refine KeepsP.of_eq (by with_reducible assumption) ?_

theorem State.refuseTess_keeps {s0 t : State} (h : Keeps s0 t) : Keeps s0 (State.refuseTess t) := by
  unfold State.refuseTess
  iterate 40 all_goals try first
    | with_reducible assumption
    | with_reducible apply State.raise_keeps
    | with_reducible apply State.orReg_keeps

theorem State.writePool_keeps {s0 t : State} (h : Keeps s0 t) (p : Nat) (v : Nat) : Keeps s0 (State.writePool t p v) := by
  unfold State.writePool
  iterate 40 all_goals try first
    | with_reducible assumption
    | (lift_lets -underBinder; intro y)
    | with_reducible apply State.refuseTess_keeps
    | with_reducible apply State.setReg_keeps
    | with_reducible apply State.withTess_keeps
    | (with_reducible apply Keeps.ite <;> intros)

theorem State.writeOwnerMin_keeps {s0 t : State} (h : Keeps s0 t) (o : Nat) (v : Nat) : Keeps s0 (State.writeOwnerMin t o v) := by
  unfold State.writeOwnerMin
  iterate 40 all_goals try first
    | with_reducible assumption
    | (lift_lets -underBinder; intro y)
    | with_reducible apply State.refuseTess_keeps
    | with_reducible apply State.setReg_keeps
    | (with_reducible apply Keeps.ite <;> intros)

theorem State.writeOwnerMax_keeps {s0 t : State} (h : Keeps s0 t) (o : Nat) (v : Nat) : Keeps s0 (State.writeOwnerMax t o v) := by
  unfold State.writeOwnerMax
  iterate 40 all_goals try first
    | with_reducible assumption
    | with_reducible apply State.setReg_keeps

theorem State.reclaimCells_keeps {s0 t : State} (h : Keeps s0 t) (o : Nat) : KeepsP s0 (State.reclaimCells t o) := by
  unfold State.reclaimCells
  iterate 40 all_goals try first
    | with_reducible assumption
    | (lift_lets -underBinder; intro y)
    | with_reducible apply State.withTess_keeps
    | with_reducible apply State.listCells_keeps
    | (with_reducible apply Keeps.foldl <;> intros)
    | fail_if_no_progress with_reducible refine KeepsP.mk ?_

theorem State.setAq_keeps {s0 t : State} (h : Keeps s0 t) (q : Nat) (x : AQueue) : Keeps s0 (State.setAq t q x) := by
  unfold State.setAq
  iterate 40 all_goals try first
    | with_reducible assumption
    | (lift_lets -underBinder; intro y)
    | fail_if_no_progress with_reducible refine Keeps.upd ?_ rfl

theorem State.annPut_keeps {s0 t : State} (h : Keeps s0 t) (q : Nat) (entries : List (List Byte)) : Keeps s0 (State.annPut t q entries) := by
  unfold State.annPut
  iterate 40 all_goals try first
    | with_reducible assumption
    | (lift_lets -underBinder; intro y)
    | with_reducible apply State.setAq_keeps

theorem State.annStatus_keeps {s0 t : State} (h : Keeps s0 t) (q : Nat) (bit : Nat) (ev : Nat) : Keeps s0 (State.annStatus t q bit ev) := by
  unfold State.annStatus
  iterate 40 all_goals try first
    | with_reducible assumption
    | (lift_lets -underBinder; intro y; with_reducible refine (fun (hy : Keeps s0 y) => ?_) ?_ <;> [clear_value y; subst y])
    | with_reducible apply State.orReg_keeps
    | with_reducible apply State.raise_keeps
    | fail_if_no_progress with_reducible refine Keeps.upd ?_ rfl

theorem State.queueEnable_keeps {s0 t : State} (h : Keeps s0 t) (q : Nat) (v : Nat) : Keeps s0 (State.queueEnable t q v) := by
  unfold State.queueEnable
  iterate 40 all_goals try first
    | with_reducible assumption
    | (lift_lets -underBinder; intro y)
    | with_reducible apply State.setReg_keeps
    | with_reducible apply State.annStatus_keeps
    | with_reducible apply State.setAq_keeps
    | (with_reducible apply Keeps.ite <;> intros)

theorem State.queueDisable_keeps {s0 t : State} (h : Keeps s0 t) (q : Nat) (v : Nat) : Keeps s0 (State.queueDisable t q v) := by
  unfold State.queueDisable
  iterate 40 all_goals try first
    | with_reducible assumption
    | (lift_lets -underBinder; intro y; with_reducible refine (fun (hy : Keeps s0 y) => ?_) ?_ <;> [clear_value y; subst y])
    | with_reducible apply State.setAq_keeps
    | with_reducible apply State.setReg_keeps
    | (with_reducible apply Keeps.ite <;> intros)
    | fail_if_no_progress with_reducible refine Keeps.upd ?_ rfl

theorem State.queueRelease_keeps {s0 t : State} (h : Keeps s0 t) (q : Nat) (n : Nat) : Keeps s0 (State.queueRelease t q n) := by
  unfold State.queueRelease
  iterate 40 all_goals try first
    | with_reducible assumption
    | (lift_lets -underBinder; intro y)
    | with_reducible apply State.setAq_keeps
    | with_reducible apply State.annStatus_keeps
    | (with_reducible apply Keeps.ite <;> intros)

theorem State.bankSwap_keeps {s0 t : State} (h : Keeps s0 t) (q : Nat) : Keeps s0 (State.bankSwap t q) := by
  unfold State.bankSwap
  iterate 40 all_goals try first
    | with_reducible assumption
    | (lift_lets -underBinder; intro y)
    | with_reducible apply State.setAq_keeps
    | (with_reducible apply Keeps.ite <;> intros)

theorem State.entryWrite_keeps {s0 t : State} (h : Keeps s0 t) (q : Nat) (poison : Bool) : Keeps s0 (State.entryWrite t q poison) := by
  unfold State.entryWrite
  iterate 40 all_goals try first
    | with_reducible assumption
    | (lift_lets -underBinder; intro y)
    | with_reducible apply State.draw_keeps
    | with_reducible apply State.writeMem_keeps
    | with_reducible apply State.annStatus_keeps
    | with_reducible apply State.setAq_keeps
    | with_reducible apply State.raise_keeps
    | with_reducible apply State.count_keeps
    | (with_reducible apply Keeps.ite <;> intros)
    | split
    | with_reducible apply KeepsP.snd

theorem State.withInbound_keeps {s0 t : State} (h : Keeps s0 t) (l : List Nat) : Keeps s0 (State.withInbound t l) := by
  unfold State.withInbound
  iterate 40 all_goals try first
    | with_reducible assumption
    | (lift_lets -underBinder; intro y)
    | fail_if_no_progress with_reducible refine Keeps.upd ?_ rfl

theorem State.inboundPoison_keeps {s0 t : State} (h : Keeps s0 t) (i : Nat) : Keeps s0 (State.inboundPoison t i) := by
  unfold State.inboundPoison
  iterate 40 all_goals try first
    | with_reducible assumption
    | (lift_lets -underBinder; intro y)
    | fail_if_no_progress with_reducible refine Keeps.upd ?_ rfl

theorem State.inboundSpill_keeps {s0 t : State} (h : Keeps s0 t) : Keeps s0 (State.inboundSpill t) := by
  unfold State.inboundSpill
  iterate 40 all_goals try first
    | with_reducible assumption
    | (lift_lets -underBinder; intro y)
    | with_reducible apply State.draw_keeps
    | with_reducible apply State.writeMem_keeps
    | with_reducible apply State.annStatus_keeps
    | with_reducible apply State.setAq_keeps
    | (with_reducible apply Keeps.ite <;> intros)
    | with_reducible apply KeepsP.snd

theorem State.inboundPut_keeps {s0 t : State} (h : Keeps s0 t) (id : Nat) : Keeps s0 (State.inboundPut t id) := by
  unfold State.inboundPut
  iterate 40 all_goals try first
    | with_reducible assumption
    | (lift_lets -underBinder; intro y)
    | with_reducible apply State.inboundSpill_keeps
    | fail_if_no_progress with_reducible refine Keeps.upd ?_ rfl

theorem State.inboundRefill_keeps {s0 t : State} (h : Keeps s0 t) : Keeps s0 (State.inboundRefill t) := by
  unfold State.inboundRefill
  iterate 40 all_goals try first
    | with_reducible assumption
    | (lift_lets -underBinder; intro y)
    | with_reducible apply State.readMem_keeps
    | with_reducible apply State.inboundPoison_keeps
    | (with_reducible apply Keeps.ite <;> intros)
    | split
    | with_reducible refine KeepsP.of_eq (by with_reducible assumption) ?_

theorem State.inboundTake_keeps {s0 t : State} (h : Keeps s0 t) (poison : Bool) : KeepsP s0 (State.inboundTake t poison) := by
  unfold State.inboundTake
  iterate 40 all_goals try first
    | with_reducible assumption
    | (lift_lets -underBinder; intro y)
    | with_reducible apply State.withInbound_keeps
    | with_reducible apply State.inboundRefill_keeps
    | with_reducible apply State.count_keeps
    | with_reducible apply State.raise_keeps
    | with_reducible apply State.countN_keeps
    | (with_reducible apply KeepsP.ite <;> intros)
    | fail_if_no_progress with_reducible refine Keeps.upd ?_ rfl
    | split
    | fail_if_no_progress with_reducible refine KeepsP.mk ?_

theorem State.punt_keeps {s0 t : State} (h : Keeps s0 t) (id : Nat) (q : Nat) (reason : Nat) (from_ : Nat) : Keeps s0 (State.punt t id q reason from_) := by
  unfold State.punt
  iterate 40 all_goals try first
    | with_reducible assumption
    | (lift_lets -underBinder; intro y; with_reducible refine (fun (hy : Keeps s0 y) => ?_) ?_ <;> [clear_value y; subst y])
    | with_reducible apply State.holdFrame_keeps
    | fail_if_no_progress with_reducible refine Keeps.upd ?_ rfl

theorem State.puntCopy_keeps {s0 t : State} (h : Keeps s0 t) (e : Ecc) : Keeps s0 (State.puntCopy t e) := by
  unfold State.puntCopy
  iterate 40 all_goals try first
    | with_reducible assumption
    | (lift_lets -underBinder; intro y)
    | with_reducible apply State.raiseOnce_keeps
    | with_reducible apply State.count_keeps
    | with_reducible apply State.freeFrame_keeps
    | with_reducible apply State.readFrame_keeps
    | with_reducible apply State.annPut_keeps
    | (with_reducible apply Keeps.ite <;> intros)
    | fail_if_no_progress with_reducible refine Keeps.upd ?_ rfl
    | split
    | with_reducible apply KeepsP.snd

theorem stageBody_keeps {s0 t : State} (h : Keeps s0 t) (d : Desc) : Keeps s0 (stageBody d t) := by
  unfold stageBody
  iterate 40 all_goals try first
    | with_reducible assumption
    | (lift_lets -underBinder; intro y)
    | with_reducible apply State.done_keeps
    | (with_reducible apply State.withBuf_keeps <;> intros)
    | with_reducible apply State.complete_keeps
    | with_reducible apply State.stagePending_keeps
    | (with_reducible apply Keeps.ite <;> intros)
    | split

theorem verifyBody_keeps {s0 t : State} (h : Keeps s0 t) (d : Desc) : Keeps s0 (verifyBody d t) := by
  unfold verifyBody
  iterate 40 all_goals try first
    | with_reducible assumption
    | (lift_lets -underBinder; intro y)
    | with_reducible apply State.done_keeps
    | with_reducible apply State.setSlot_keeps
    | with_reducible apply State.raise_keeps
    | (with_reducible apply Keeps.ite <;> intros)

theorem deriveBody_keeps {s0 t : State} (h : Keeps s0 t) (d : Desc) : Keeps s0 (deriveBody d t) := by
  unfold deriveBody
  iterate 40 all_goals try first
    | with_reducible assumption
    | (lift_lets -underBinder; intro y)
    | with_reducible apply State.done_keeps
    | (with_reducible apply State.withBuf_keeps <;> intros)
    | with_reducible apply State.complete_keeps
    | with_reducible apply State.stagePending_keeps
    | (with_reducible apply Keeps.ite <;> intros)
    | split

theorem State.flushSensorKeys_keeps {s0 t : State} (h : Keeps s0 t) (p : Nat → Bool) : Keeps s0 (State.flushSensorKeys t p) := by
  unfold State.flushSensorKeys
  iterate 40 all_goals try first
    | with_reducible assumption
    | (lift_lets -underBinder; intro y)
    | fail_if_no_progress with_reducible refine Keeps.upd ?_ rfl

theorem invalidateBody_keeps {s0 t : State} (h : Keeps s0 t) (d : Desc) : Keeps s0 (invalidateBody d t) := by
  unfold invalidateBody
  iterate 40 all_goals try first
    | with_reducible assumption
    | (lift_lets -underBinder; intro y; with_reducible refine (fun (hy : Keeps s0 y) => ?_) ?_ <;> [clear_value y; subst y])
    | (lift_lets -underBinder; intro y)
    | with_reducible apply State.done_keeps
    | with_reducible apply State.complete_keeps
    | with_reducible apply State.setSlot_keeps
    | with_reducible apply State.raise_keeps
    | with_reducible apply State.loseKeys_keeps
    | with_reducible apply State.flushSensorKeys_keeps
    | (with_reducible apply Keeps.ite <;> intros)
    | fail_if_no_progress with_reducible refine Keeps.upd ?_ rfl
    | split

theorem State.keyWait_keeps {s0 t : State} (h : Keeps s0 t) (d : Desc) : Keeps s0 (State.keyWait t d) := by
  unfold State.keyWait
  iterate 40 all_goals try first
    | with_reducible assumption
    | (lift_lets -underBinder; intro y)
    | with_reducible apply State.setSlot_keeps

theorem commitStep_keeps {s0 t : State} (h : Keeps s0 t) (d : Desc) : KeepsK s0 (commitStep d t) := by
  unfold commitStep
  iterate 40 all_goals try first
    | with_reducible assumption
    | (lift_lets -underBinder; intro y)
    | with_reducible apply State.done_keeps
    | with_reducible apply State.complete_keeps
    | with_reducible apply State.setSlot_keeps
    | (with_reducible apply KeepsK.ite <;> intros)
    | with_reducible refine KeepsK.done ?_
    | with_reducible refine KeepsK.waits
    | split

theorem eraseStep_keeps {s0 t : State} (h : Keeps s0 t) (d : Desc) : KeepsK s0 (eraseStep d t) := by
  unfold eraseStep
  iterate 40 all_goals try first
    | with_reducible assumption
    | (lift_lets -underBinder; intro y)
    | with_reducible apply State.done_keeps
    | with_reducible apply State.complete_keeps
    | with_reducible apply State.setSlot_keeps
    | with_reducible apply State.loseKeys_keeps
    | (with_reducible apply KeepsK.ite <;> intros)
    | with_reducible refine KeepsK.done ?_
    | with_reducible refine KeepsK.waits

theorem keyStep_keeps {s0 t : State} (h : Keeps s0 t) (d : Desc) : KeepsK s0 (keyStep d t) := by
  unfold keyStep
  iterate 40 all_goals try first
    | with_reducible assumption
    | with_reducible apply stageBody_keeps
    | with_reducible apply verifyBody_keeps
    | with_reducible apply deriveBody_keeps
    | with_reducible apply invalidateBody_keeps
    | with_reducible apply commitStep_keeps
    | with_reducible apply eraseStep_keeps
    | with_reducible refine KeepsK.done ?_
    | split

theorem keyArrive_keeps {s0 t : State} (h : Keeps s0 t) (d : Desc) : Keeps s0 (keyArrive d t) := by
  unfold keyArrive
  iterate 40 all_goals try first
    | with_reducible assumption
    | with_reducible apply State.keyWait_keeps
    | with_reducible apply keyStep_keeps
    | (with_reducible apply Keeps.ite <;> intros)
    | split
    | with_reducible refine KeepsK.of_eq (by with_reducible assumption) ?_

theorem State.runWaiting_keeps {s0 t : State} (h : Keeps s0 t) (k : Nat) (a : Nat) : Keeps s0 (State.runWaiting k a t) := by
  induction a generalizing t with
  | zero =>
    unfold State.runWaiting
    iterate 40 all_goals try first
      | with_reducible assumption
  | succ n ih =>
    unfold State.runWaiting
    iterate 40 all_goals try first
      | with_reducible apply ih
      | with_reducible assumption
      | (lift_lets -underBinder; intro y)
      | with_reducible apply State.setSlot_keeps
      | with_reducible apply keyStep_keeps
      | (with_reducible apply Keeps.ite <;> intros)
      | split
      | with_reducible refine KeepsK.of_eq (by with_reducible assumption) ?_

theorem State.wakeSlot_keeps {s0 t : State} (h : Keeps s0 t) (k : Nat) : Keeps s0 (State.wakeSlot t k) := by
  unfold State.wakeSlot
  iterate 40 all_goals try first
    | with_reducible assumption
    | with_reducible apply State.runWaiting_keeps

theorem execKeyStage_keeps {s0 t : State} (h : Keeps s0 t) (d : Desc) : KeepsN s0 (execKeyStage d t) := by
  unfold execKeyStage
  iterate 40 all_goals try first
    | with_reducible assumption
    | (with_reducible apply ringCommand_keeps <;> intros)
    | with_reducible apply keyArrive_keeps
    | with_reducible refine KeepsN.next ?_

theorem execKeyVerify_keeps {s0 t : State} (h : Keeps s0 t) (d : Desc) : KeepsN s0 (execKeyVerify d t) := by
  unfold execKeyVerify
  iterate 40 all_goals try first
    | with_reducible assumption
    | (with_reducible apply ringCommand_keeps <;> intros)
    | with_reducible apply keyArrive_keeps
    | with_reducible refine KeepsN.next ?_

theorem execKeyCommit_keeps {s0 t : State} (h : Keeps s0 t) (d : Desc) : KeepsN s0 (execKeyCommit d t) := by
  unfold execKeyCommit
  iterate 40 all_goals try first
    | with_reducible assumption
    | (with_reducible apply ringCommand_keeps <;> intros)
    | with_reducible apply keyArrive_keeps
    | with_reducible refine KeepsN.next ?_

theorem execKeyErase_keeps {s0 t : State} (h : Keeps s0 t) (d : Desc) : KeepsN s0 (execKeyErase d t) := by
  unfold execKeyErase
  iterate 40 all_goals try first
    | with_reducible assumption
    | (with_reducible apply ringCommand_keeps <;> intros)
    | with_reducible apply keyArrive_keeps
    | with_reducible refine KeepsN.next ?_

theorem execKeyDerive_keeps {s0 t : State} (h : Keeps s0 t) (d : Desc) : KeepsN s0 (execKeyDerive d t) := by
  unfold execKeyDerive
  iterate 40 all_goals try first
    | with_reducible assumption
    | (with_reducible apply ringCommand_keeps <;> intros)
    | with_reducible apply keyArrive_keeps
    | with_reducible refine KeepsN.next ?_

theorem execKeyInvalidate_keeps {s0 t : State} (h : Keeps s0 t) (d : Desc) : KeepsN s0 (execKeyInvalidate d t) := by
  unfold execKeyInvalidate
  iterate 40 all_goals try first
    | with_reducible assumption
    | (with_reducible apply ringCommand_keeps <;> intros)
    | with_reducible apply keyArrive_keeps
    | with_reducible refine KeepsN.next ?_

theorem execGenerationDrainEnd_keeps {s0 t : State} (h : Keeps s0 t) (slot : Nat) : KeepsN s0 (execGenerationDrainEnd slot t) := by
  unfold execGenerationDrainEnd
  iterate 40 all_goals try first
    | with_reducible assumption
    | (lift_lets -underBinder; intro y; with_reducible refine (fun (hy : Keeps s0 y) => ?_) ?_ <;> [clear_value y; subst y])
    | (lift_lets -underBinder; intro y)
    | with_reducible apply State.passTo_keeps
    | with_reducible apply State.setSlot_keeps
    | with_reducible apply State.complete_keeps
    | with_reducible apply State.wakeSlot_keeps
    | (with_reducible apply Keeps.ite <;> intros)
    | with_reducible refine KeepsN.next ?_
    | split

theorem execMarkingPassEnd_keeps {s0 t : State} (h : Keeps s0 t) : KeepsN s0 (execMarkingPassEnd t) := by
  unfold execMarkingPassEnd
  iterate 40 all_goals try first
    | with_reducible assumption
    | (lift_lets -underBinder; intro y)
    | with_reducible apply State.setSlot_keeps
    | with_reducible apply State.loseKeys_keeps
    | with_reducible apply State.complete_keeps
    | with_reducible apply State.raise_keeps
    | with_reducible apply State.wakeSlot_keeps
    | with_reducible refine KeepsN.next ?_
    | fail_if_no_progress with_reducible refine Keeps.upd ?_ rfl
    | (with_reducible apply Keeps.foldl <;> intros)
    | split

theorem execSweepPassStart_keeps {s0 t : State} (h : Keeps s0 t) : KeepsN s0 (execSweepPassStart t) := by
  unfold execSweepPassStart
  iterate 40 all_goals try first
    | with_reducible assumption
    | (lift_lets -underBinder; intro y; with_reducible refine (fun (hy : Keeps s0 y) => ?_) ?_ <;> [clear_value y; subst y])
    | with_reducible apply State.passTo_keeps
    | (with_reducible apply KeepsN.ite <;> intros)
    | with_reducible refine KeepsN.next ?_
    | fail_if_no_progress with_reducible refine Keeps.upd ?_ rfl

theorem State.remaskHk_keeps {s0 t : State} (h : Keeps s0 t) (i : Nat) (a : BitVec 256) (p : BitVec 256) : Keeps s0 (State.remaskHk t i a p) := by
  unfold State.remaskHk
  iterate 40 all_goals try first
    | with_reducible assumption
    | (lift_lets -underBinder; intro y)
    | with_reducible apply State.setRegion_keeps
    | (with_reducible apply Keeps.ite <;> intros)

theorem State.remaskSlot_keeps {s0 t : State} (h : Keeps s0 t) (slot : Nat) (a : BitVec 256) (p : BitVec 256) : Keeps s0 (State.remaskSlot t slot a p) := by
  unfold State.remaskSlot
  iterate 40 all_goals try first
    | with_reducible assumption
    | (lift_lets -underBinder; intro y)
    | with_reducible apply State.setSlot_keeps

theorem execSweepSlotVisit_keeps {s0 t : State} (h : Keeps s0 t) (slot : Nat) : KeepsN s0 (execSweepSlotVisit slot t) := by
  unfold execSweepSlotVisit
  iterate 40 all_goals try first
    | with_reducible assumption
    | (lift_lets -underBinder; intro y)
    | with_reducible apply State.drbg_keeps
    | with_reducible apply State.remaskHk_keeps
    | with_reducible apply State.remaskSlot_keeps
    | (with_reducible apply Keeps.ite <;> intros)
    | (with_reducible apply KeepsN.ite <;> intros)
    | with_reducible refine KeepsN.next ?_
    | fail_if_no_progress with_reducible refine Keeps.upd ?_ rfl
    | with_reducible apply KeepsP.snd

theorem execMaskOverdue_keeps {s0 t : State} (h : Keeps s0 t) : KeepsN s0 (execMaskOverdue t) := by
  unfold execMaskOverdue
  iterate 40 all_goals try first
    | with_reducible assumption
    | (lift_lets -underBinder; intro y; with_reducible refine (fun (hy : Keeps s0 y) => ?_) ?_ <;> [clear_value y; subst y])
    | with_reducible apply State.passTo_keeps
    | with_reducible apply State.raise_keeps
    | (with_reducible apply KeepsN.ite <;> intros)
    | with_reducible refine KeepsN.next ?_
    | fail_if_no_progress with_reducible refine Keeps.upd ?_ rfl
    | split

theorem execDrbgReseed_keeps {s0 t : State} (h : Keeps s0 t) : KeepsN s0 (execDrbgReseed t) := by
  unfold execDrbgReseed
  iterate 40 all_goals try first
    | with_reducible assumption
    | (lift_lets -underBinder; intro y)
    | with_reducible apply State.raise_keeps
    | (with_reducible apply KeepsN.ite <;> intros)
    | with_reducible refine KeepsN.next ?_
    | fail_if_no_progress with_reducible refine Keeps.upd ?_ rfl

theorem State.withTwin_keeps {s0 t : State} (h : Keeps s0 t) (a1 : TwinState) : Keeps s0 (State.withTwin t a1) := by
  unfold State.withTwin
  iterate 40 all_goals try first
    | with_reducible assumption
    | fail_if_no_progress with_reducible refine Keeps.upd ?_ rfl

theorem State.syncRestore_keeps {s0 t : State} (h : Keeps s0 t) : Keeps s0 (State.syncRestore t) := by
  unfold State.syncRestore
  iterate 40 all_goals try first
    | with_reducible assumption
    | (lift_lets -underBinder; intro y)
    | with_reducible apply State.withTwin_keeps
    | (with_reducible apply Keeps.ite <;> intros)

theorem State.shadowAll_keeps {s0 t : State} (h : Keeps s0 t) : Keeps s0 (State.shadowAll t) := by
  unfold State.shadowAll
  iterate 40 all_goals try first
    | with_reducible assumption
    | (lift_lets -underBinder; intro y)
    | with_reducible apply State.done_keeps
    | fail_if_no_progress with_reducible refine Keeps.upd ?_ rfl
    | (with_reducible apply Keeps.foldl <;> intros)

theorem State.dropShadows_keeps {s0 t : State} (h : Keeps s0 t) : Keeps s0 (State.dropShadows t) := by
  unfold State.dropShadows
  iterate 40 all_goals try first
    | with_reducible assumption
    | (lift_lets -underBinder; intro y)
    | fail_if_no_progress with_reducible refine Keeps.upd ?_ rfl

theorem State.setLease_keeps {s0 t : State} (h : Keeps s0 t) (l : Lease) : Keeps s0 (State.setLease t l) := by
  unfold State.setLease
  iterate 40 all_goals try first
    | with_reducible assumption
    | (lift_lets -underBinder; intro y)
    | with_reducible apply State.withTwin_keeps
    | with_reducible apply State.syncRestore_keeps
    | with_reducible apply State.raise_keeps
    | (with_reducible apply Keeps.ite <;> intros)

theorem State.setSession_keeps {s0 t : State} (h : Keeps s0 t) (p : OctegPath) (x : Session) : Keeps s0 (State.setSession t p x) := by
  unfold State.setSession
  iterate 40 all_goals try first
    | with_reducible assumption
    | (lift_lets -underBinder; intro y)
    | with_reducible apply State.withTwin_keeps
    | split

theorem State.octegOut_keeps {s0 t : State} (h : Keeps s0 t) (p : OctegPath) (m : List Byte) : Keeps s0 (State.octegOut t p m) := by
  unfold State.octegOut
  iterate 40 all_goals try first
    | with_reducible assumption
    | (lift_lets -underBinder; intro y)
    | with_reducible apply State.emit_keeps
    | with_reducible apply State.withTwin_keeps
    | split

theorem State.beginSession_keeps {s0 t : State} (h : Keeps s0 t) (p : OctegPath) : Keeps s0 (State.beginSession t p) := by
  unfold State.beginSession
  iterate 40 all_goals try first
    | with_reducible assumption
    | with_reducible apply State.drbg_keeps
    | with_reducible apply State.setSession_keeps
    | with_reducible apply KeepsP.snd

theorem State.deriveArbKey_keeps {s0 t : State} (h : Keeps s0 t) : Keeps s0 (State.deriveArbKey t) := by
  unfold State.deriveArbKey
  iterate 40 all_goals try first
    | with_reducible assumption
    | (lift_lets -underBinder; intro y)
    | with_reducible apply State.withTwin_keeps

theorem State.chordSend_keeps {s0 t : State} (h : Keeps s0 t) (ty : Nat) (body : List Byte) : Keeps s0 (State.chordSend t ty body) := by
  unfold State.chordSend
  iterate 40 all_goals try first
    | with_reducible assumption
    | (lift_lets -underBinder; intro y)
    | with_reducible apply State.octegOut_keeps
    | with_reducible apply State.withTwin_keeps

theorem State.chordOpen_keeps {s0 t : State} (h : Keeps s0 t) (ty : Nat) (msg : List Byte) : KeepsP s0 (State.chordOpen t ty msg) := by
  unfold State.chordOpen
  iterate 40 all_goals try first
    | with_reducible assumption
    | (lift_lets -underBinder; intro y)
    | with_reducible apply State.withTwin_keeps
    | with_reducible apply State.count_keeps
    | (with_reducible apply KeepsP.ite <;> intros)
    | split
    | fail_if_no_progress with_reducible refine KeepsP.mk ?_

theorem State.chordUp_keeps {s0 t : State} (h : Keeps s0 t) (v : Nat) (key : BitVec 256) : Keeps s0 (State.chordUp t v key) := by
  unfold State.chordUp
  iterate 40 all_goals try first
    | with_reducible assumption
    | (lift_lets -underBinder; intro y)
    | with_reducible apply State.withTwin_keeps
    | with_reducible apply State.raise_keeps
    | (with_reducible apply Keeps.ite <;> intros)

theorem State.chordEnd_keeps {s0 t : State} (h : Keeps s0 t) : Keeps s0 (State.chordEnd t) := by
  unfold State.chordEnd
  iterate 40 all_goals try first
    | with_reducible assumption
    | (lift_lets -underBinder; intro y)
    | with_reducible apply State.syncRestore_keeps
    | with_reducible apply State.withTwin_keeps

theorem State.helloIn_keeps {s0 t : State} (h : Keeps s0 t) (p : OctegPath) (msg : List Byte) : Keeps s0 (State.helloIn t p msg) := by
  unfold State.helloIn
  iterate 40 all_goals try first
    | with_reducible assumption
    | (lift_lets -underBinder; intro y)
    | with_reducible apply State.octegOut_keeps
    | with_reducible apply State.raise_keeps
    | with_reducible apply State.withTwin_keeps
    | with_reducible apply State.beginSession_keeps
    | with_reducible apply State.chordEnd_keeps
    | with_reducible apply State.setSession_keeps
    | with_reducible apply State.chordUp_keeps
    | (with_reducible apply Keeps.ite <;> intros)
    | split

theorem State.sendCopy_keeps {s0 t : State} (h : Keeps s0 t) (full : Bool) : Keeps s0 (State.sendCopy t full) := by
  unfold State.sendCopy
  iterate 40 all_goals try first
    | with_reducible assumption
    | (lift_lets -underBinder; intro y)
    | with_reducible apply State.chordSend_keeps
    | with_reducible apply State.withTwin_keeps
    | with_reducible apply State.count_keeps
    | (with_reducible apply Keeps.ite <;> intros)
    | (with_reducible apply Keeps.foldl <;> intros)

theorem State.setCeilings_keeps {s0 t : State} (h : Keeps s0 t) (sent : Tbl SentCopy) : Keeps s0 (State.setCeilings t sent) := by
  unfold State.setCeilings
  iterate 40 all_goals try first
    | with_reducible assumption
    | (lift_lets -underBinder; intro y)
    | with_reducible apply State.withTwin_keeps
    | fail_if_no_progress with_reducible refine Keeps.upd ?_ rfl

theorem State.installKey_keeps {s0 t : State} (h : Keeps s0 t) (k : Nat) (r : List Byte) : Keeps s0 (State.installKey t k r) := by
  unfold State.installKey
  iterate 40 all_goals try first
    | with_reducible assumption
    | (lift_lets -underBinder; intro y)
    | with_reducible apply State.drbg_keeps
    | with_reducible apply State.setSlot_keeps
    | split
    | intro _
    | with_reducible apply KeepsP.snd

theorem State.applyKeyState_keeps {s0 t : State} (h : Keeps s0 t) (k : Nat) (code : Nat) : Keeps s0 (State.applyKeyState t k code) := by
  unfold State.applyKeyState
  iterate 40 all_goals try first
    | with_reducible assumption
    | (lift_lets -underBinder; intro y)
    | with_reducible apply State.setSlot_keeps
    | (with_reducible apply Keeps.ite <;> intros)

theorem State.applyContext_keeps {s0 t : State} (h : Keeps s0 t) (h1 : Nat) (img : Nat) : Keeps s0 (State.applyContext t h1 img) := by
  unfold State.applyContext
  iterate 40 all_goals try first
    | with_reducible assumption
    | (lift_lets -underBinder; intro y)
    | with_reducible apply State.setSa_keeps

theorem State.applyRecords_keeps {s0 t : State} (h : Keeps s0 t) (a : Nat) (a2 : List Byte) : KeepsP s0 (State.applyRecords a t a2) := by
  induction a generalizing t a2 with
  | zero =>
    unfold State.applyRecords
    iterate 40 all_goals try first
      | with_reducible assumption
      | fail_if_no_progress with_reducible refine KeepsP.mk ?_
  | succ n ih =>
    unfold State.applyRecords
    iterate 40 all_goals try first
      | with_reducible apply ih
      | with_reducible assumption
      | (lift_lets -underBinder; intro y)
      | with_reducible apply State.applyContext_keeps
      | with_reducible apply State.installKey_keeps
      | with_reducible apply State.applyKeyState_keeps
      | with_reducible apply State.setSa_keeps
      | (with_reducible apply KeepsP.ite <;> intros)
      | split
      | fail_if_no_progress with_reducible refine KeepsP.mk ?_
      | with_reducible refine KeepsP.of_eq (by with_reducible assumption) ?_

theorem State.resumeKey_keeps {s0 t : State} (h : Keeps s0 t) (h1 : Nat) : Keeps s0 (State.resumeKey t h1) := by
  unfold State.resumeKey
  iterate 40 all_goals try first
    | with_reducible assumption
    | (lift_lets -underBinder; intro y)
    | with_reducible apply State.enterKeyLost_keeps
    | (with_reducible apply Keeps.ite <;> intros)

theorem State.resumeRecv_keeps {s0 t : State} (h : Keeps s0 t) (h1 : Nat) : Keeps s0 (State.resumeRecv t h1) := by
  unfold State.resumeRecv
  iterate 40 all_goals try first
    | with_reducible assumption
    | (lift_lets -underBinder; intro y)
    | with_reducible apply State.resumeKey_keeps
    | with_reducible apply State.setSa_keeps

theorem State.resumeOne_keeps {s0 t : State} (h : Keeps s0 t) (h1 : Nat) : Keeps s0 (State.resumeOne t h1) := by
  unfold State.resumeOne
  iterate 40 all_goals try first
    | with_reducible assumption
    | (lift_lets -underBinder; intro y)
    | with_reducible apply State.resumeRecv_keeps
    | with_reducible apply State.setSa_keeps
    | with_reducible apply State.raise_keeps
    | with_reducible apply State.caseClear_keeps
    | with_reducible apply State.nextMoved_keeps
    | with_reducible apply State.resumeKey_keeps
    | (with_reducible apply Keeps.ite <;> intros)

theorem State.staleOne_keeps {s0 t : State} (h : Keeps s0 t) (h1 : Nat) : Keeps s0 (State.staleOne t h1) := by
  unfold State.staleOne
  iterate 40 all_goals try first
    | with_reducible assumption
    | (lift_lets -underBinder; intro y)
    | with_reducible apply State.resumeRecv_keeps
    | with_reducible apply State.raise_keeps
    | with_reducible apply State.setSa_keeps
    | (with_reducible apply Keeps.ite <;> intros)

theorem State.reachedPn_keeps {s0 t : State} (h : Keeps s0 t) (e : Nat × Nat) : Keeps s0 (State.reachedPn t e) := by
  unfold State.reachedPn
  iterate 40 all_goals try first
    | with_reducible assumption
    | (lift_lets -underBinder; intro y)
    | with_reducible apply State.switchEntry_keeps
    | with_reducible apply State.dropRotations_keeps
    | with_reducible apply State.settleEntry_keeps
    | (with_reducible apply Keeps.ite <;> intros)
    | with_reducible apply KeepsP.snd

theorem State.rearm_keeps {s0 t : State} (h : Keeps s0 t) : Keeps s0 (State.rearm t) := by
  unfold State.rearm
  iterate 40 all_goals try first
    | with_reducible assumption
    | (lift_lets -underBinder; intro y)
    | with_reducible apply State.reachedPn_keeps
    | with_reducible apply State.fireRotations_keeps
    | fail_if_no_progress with_reducible refine Keeps.upd ?_ rfl
    | (with_reducible apply Keeps.foldl <;> intros)

theorem State.takeOver_keeps {s0 t : State} (h : Keeps s0 t) (current : Bool) : Keeps s0 (State.takeOver t current) := by
  unfold State.takeOver
  iterate 40 all_goals try first
    | with_reducible assumption
    | (lift_lets -underBinder; intro y)
    | with_reducible apply State.resumeOne_keeps
    | with_reducible apply State.staleOne_keeps
    | with_reducible apply State.rearm_keeps
    | with_reducible apply State.raise_keeps
    | (with_reducible apply Keeps.ite <;> intros)
    | (with_reducible apply Keeps.foldl <;> intros)

theorem State.arbSend_keeps {s0 t : State} (h : Keeps s0 t) (ty : Nat) (code : Nat) : Keeps s0 (State.arbSend t ty code) := by
  unfold State.arbSend
  iterate 40 all_goals try first
    | with_reducible assumption
    | (lift_lets -underBinder; intro y)
    | with_reducible apply State.drbg_keeps
    | with_reducible apply State.withTwin_keeps
    | with_reducible apply State.octegOut_keeps
    | (with_reducible apply Keeps.ite <;> intros)
    | split
    | with_reducible apply KeepsP.snd

theorem State.arbRefuse_keeps {s0 t : State} (h : Keeps s0 t) : Keeps s0 (State.arbRefuse t) := by
  unfold State.arbRefuse
  iterate 40 all_goals try first
    | with_reducible assumption
    | with_reducible apply State.raiseOnce_keeps
    | with_reducible apply State.count_keeps

theorem State.setLane_keeps {s0 t : State} (h : Keeps s0 t) (k : Nat) (x : LaneUnit) : Keeps s0 (State.setLane t k x) := by
  unfold State.setLane
  iterate 40 all_goals try first
    | with_reducible assumption
    | fail_if_no_progress with_reducible refine Keeps.upd ?_ rfl

theorem State.setChordSet_keeps {s0 t : State} (h : Keeps s0 t) (l : List Nat) : Keeps s0 (State.setChordSet t l) := by
  unfold State.setChordSet
  iterate 40 all_goals try first
    | with_reducible assumption
    | (lift_lets -underBinder; intro y)
    | with_reducible apply State.retime_keeps
    | with_reducible apply State.withTwin_keeps
    | (with_reducible apply Keeps.ite <;> intros)

theorem State.joinLanes_keeps {s0 t : State} (h : Keeps s0 t) : Keeps s0 (State.joinLanes t) := by
  unfold State.joinLanes
  iterate 40 all_goals try first
    | with_reducible assumption
    | (lift_lets -underBinder; intro y)
    | with_reducible apply State.setChordSet_keeps
    | with_reducible apply State.withTwin_keeps

theorem State.startLane_keeps {s0 t : State} (h : Keeps s0 t) (k : Nat) : Keeps s0 (State.startLane t k) := by
  unfold State.startLane
  iterate 40 all_goals try first
    | with_reducible assumption
    | (lift_lets -underBinder; intro y)
    | with_reducible apply State.setLane_keeps
    | (with_reducible apply Keeps.ite <;> intros)

theorem State.stopLane_keeps {s0 t : State} (h : Keeps s0 t) (k : Nat) (power : BitVec 2) : Keeps s0 (State.stopLane t k power) := by
  unfold State.stopLane
  iterate 40 all_goals try first
    | with_reducible assumption
    | (lift_lets -underBinder; intro y)
    | with_reducible apply State.setLane_keeps

theorem State.startChord_keeps {s0 t : State} (h : Keeps s0 t) : Keeps s0 (State.startChord t) := by
  unfold State.startChord
  iterate 40 all_goals try first
    | with_reducible assumption
    | (lift_lets -underBinder; intro y)
    | with_reducible apply State.startLane_keeps
    | with_reducible apply State.stopLane_keeps
    | (with_reducible apply Keeps.foldl <;> intros)

theorem State.stopChord_keeps {s0 t : State} (h : Keeps s0 t) : Keeps s0 (State.stopChord t) := by
  unfold State.stopChord
  iterate 40 all_goals try first
    | with_reducible assumption
    | with_reducible apply State.stopLane_keeps
    | (with_reducible apply Keeps.foldl <;> intros)

theorem State.rclk_keeps {s0 t : State} (h : Keeps s0 t) : Keeps s0 (State.rclk t) := by
  unfold State.rclk
  iterate 40 all_goals try first
    | with_reducible assumption
    | (lift_lets -underBinder; intro y)
    | with_reducible apply State.raiseSet_keeps
    | (with_reducible apply Keeps.ite <;> intros)
    | fail_if_no_progress with_reducible refine Keeps.upd ?_ rfl
    | (with_reducible apply Keeps.foldl <;> intros)

theorem State.fillBuckets_keeps {s0 t : State} (h : Keeps s0 t) (k : Nat) : Keeps s0 (State.fillBuckets t k) := by
  unfold State.fillBuckets
  iterate 40 all_goals try first
    | with_reducible assumption
    | with_reducible apply State.setLevel_keeps

theorem State.police_keeps {s0 t : State} (h : Keeps s0 t) (p : Nat) (n : Nat) : KeepsP s0 (State.police t p n) := by
  unfold State.police
  iterate 40 all_goals try first
    | with_reducible assumption
    | (lift_lets -underBinder; intro y)
    | with_reducible apply State.setLevel_keeps
    | with_reducible apply State.count_keeps
    | (with_reducible apply KeepsP.ite <;> intros)
    | split
    | fail_if_no_progress with_reducible refine KeepsP.mk ?_

theorem State.setGate_keeps {s0 t : State} (h : Keeps s0 t) (x : Nat) (g : GatePort) : Keeps s0 (State.setGate t x g) := by
  unfold State.setGate
  iterate 40 all_goals try first
    | with_reducible assumption
    | (lift_lets -underBinder; intro y)
    | with_reducible apply State.withSector_keeps

theorem State.setSq_keeps {s0 t : State} (h : Keeps s0 t) (side : Nat) (q : Nat) (l : List QEntry) : Keeps s0 (State.setSq t side q l) := by
  unfold State.setSq
  iterate 40 all_goals try first
    | with_reducible assumption
    | (lift_lets -underBinder; intro y)
    | with_reducible apply State.withSector_keeps

theorem State.setTag_keeps {s0 t : State} (h : Keeps s0 t) (k : Nat) (a2 : Option (Nat × Nat)) : Keeps s0 (State.setTag t k a2) := by
  unfold State.setTag
  iterate 40 all_goals try first
    | with_reducible assumption
    | (lift_lets -underBinder; intro y)
    | with_reducible apply State.withSector_keeps

theorem State.refreshTag_keeps {s0 t : State} (h : Keeps s0 t) (k : Nat) (node : Nat) (len : Nat) (w : Nat) : Keeps s0 (State.refreshTag t k node len w) := by
  unfold State.refreshTag
  iterate 40 all_goals try first
    | with_reducible assumption
    | (lift_lets -underBinder; intro y)
    | with_reducible apply State.setTag_keeps

theorem State.retag_keeps {s0 t : State} (h : Keeps s0 t) (side : Nat) (q : Nat) : Keeps s0 (State.retag t side q) := by
  unfold State.retag
  iterate 40 all_goals try first
    | with_reducible assumption
    | (lift_lets -underBinder; intro y)
    | with_reducible apply State.setTag_keeps
    | with_reducible apply State.refreshTag_keeps
    | (with_reducible apply Keeps.ite <;> intros)

theorem State.wfSend_keeps {s0 t : State} (h : Keeps s0 t) (node : Nat) (k : Nat) (len : Nat) (w : Nat) (wb : Nat) (still : Bool) (others : List Nat) : Keeps s0 (State.wfSend t node k len w wb still others) := by
  unfold State.wfSend
  iterate 40 all_goals try first
    | with_reducible assumption
    | (lift_lets -underBinder; intro y)
    | with_reducible apply State.setTag_keeps
    | with_reducible apply State.withSector_keeps

theorem State.notSent_keeps {s0 t : State} (h : Keeps s0 t) (side : Nat) (lp : Nat) (id : Option Nat) : Keeps s0 (State.notSent t side lp id) := by
  unfold State.notSent
  iterate 40 all_goals try first
    | with_reducible assumption
    | with_reducible apply State.txtsPush_keeps
    | split

theorem State.dropEntry_keeps {s0 t : State} (h : Keeps s0 t) (side : Nat) (lp : Nat) (e : QEntry) : Keeps s0 (State.dropEntry t side lp e) := by
  unfold State.dropEntry
  iterate 40 all_goals try first
    | with_reducible assumption
    | with_reducible apply State.notSent_keeps
    | with_reducible apply State.freeFrame_keeps

end Sys2Proof.Machine
end

