-- ==== Sys2Proof/Laws/KeepsServices.lean ====
section
/-! SUPPORT. What the operations of Facet, Tessera, Annulus, Locus, Sector and Radius keep (Laws/Keeps.lean): one lemma per definition that answers a state. -/

namespace Sys2Proof.Machine

set_option tactic.hygienic false
set_option linter.unusedVariables false

theorem State.trimHead_keeps {s0 t : State} (h : Keeps s0 t) (side : Nat) (q : Nat) (a : Nat) : Keeps s0 (State.trimHead side q a t) := by
  induction a generalizing t with
  | zero =>
    unfold State.trimHead
    iterate 40 all_goals try first
      | with_reducible assumption
  | succ n ih =>
    unfold State.trimHead
    iterate 40 all_goals try first
      | with_reducible apply ih
      | with_reducible assumption
      | (lift_lets -underBinder; intro y)
      | with_reducible apply State.dropEntry_keeps
      | with_reducible apply State.setSq_keeps
      | with_reducible apply State.raiseOnce_keeps
      | with_reducible apply State.count_keeps
      | (with_reducible apply Keeps.ite <;> intros)
      | split

theorem State.newHead_keeps {s0 t : State} (h : Keeps s0 t) (side : Nat) (q : Nat) : Keeps s0 (State.newHead t side q) := by
  unfold State.newHead
  iterate 40 all_goals try first
    | with_reducible assumption
    | with_reducible apply State.retag_keeps
    | with_reducible apply State.trimHead_keeps

theorem State.enter_keeps {s0 t : State} (h : Keeps s0 t) (o : Offer) (id : Nat) (ref : Option Nat) : KeepsP s0 (State.enter t o id ref) := by
  unfold State.enter
  iterate 40 all_goals try first
    | with_reducible assumption
    | (lift_lets -underBinder; intro y)
    | with_reducible apply State.holdFrame_keeps
    | with_reducible apply State.notSent_keeps
    | with_reducible apply State.freeFrame_keeps
    | with_reducible apply State.count_keeps
    | with_reducible apply State.setSq_keeps
    | with_reducible apply State.withSector_keeps
    | with_reducible apply State.newHead_keeps
    | (with_reducible apply KeepsP.ite <;> intros)
    | split
    | fail_if_no_progress with_reducible refine KeepsP.mk ?_

theorem State.takeHead_keeps {s0 t : State} (h : Keeps s0 t) (side : Nat) (lp : Nat) (g : Nat) (q : Nat) : KeepsOP s0 (State.takeHead t side lp g q) := by
  unfold State.takeHead
  iterate 40 all_goals try first
    | with_reducible assumption
    | (lift_lets -underBinder; intro y)
    | with_reducible apply State.take_keeps
    | with_reducible apply State.withSector_keeps
    | with_reducible apply State.trimHead_keeps
    | with_reducible apply State.setSq_keeps
    | with_reducible apply State.wfSend_keeps
    | with_reducible apply State.retag_keeps
    | (with_reducible apply Keeps.ite <;> intros)
    | with_reducible refine KeepsOP.none
    | with_reducible refine KeepsOP.some ?_
    | split

theorem State.discardPort_keeps {s0 t : State} (h : Keeps s0 t) (side : Nat) (lp : Nat) : Keeps s0 (State.discardPort t side lp) := by
  unfold State.discardPort
  iterate 40 all_goals try first
    | with_reducible assumption
    | (lift_lets -underBinder; intro y)
    | with_reducible apply State.countN_keeps
    | with_reducible apply State.setSq_keeps
    | with_reducible apply State.retag_keeps
    | with_reducible apply State.dropEntry_keeps
    | (with_reducible apply Keeps.foldl <;> intros)

theorem State.withRadius_keeps {s0 t : State} (h : Keeps s0 t) (r : RadiusState) : Keeps s0 (State.withRadius t r) := by
  unfold State.withRadius
  iterate 40 all_goals try first
    | with_reducible assumption
    | fail_if_no_progress with_reducible refine Keeps.upd ?_ rfl

theorem State.rcount_keeps {s0 t : State} (h : Keeps s0 t) (n : Nat) (g : Option Nat) : Keeps s0 (State.rcount t n g) := by
  unfold State.rcount
  iterate 40 all_goals try first
    | with_reducible assumption
    | (lift_lets -underBinder; intro y; with_reducible refine (fun (hy : Keeps s0 y) => ?_) ?_ <;> [clear_value y; subst y])
    | with_reducible apply State.count_keeps
    | split

theorem State.recordBad_keeps {s0 t : State} (h : Keeps s0 t) (id : Nat) : Keeps s0 (State.recordBad t id) := by
  unfold State.recordBad
  iterate 40 all_goals try first
    | with_reducible assumption
    | with_reducible apply State.raise_keeps
    | with_reducible apply State.rcount_keeps

theorem State.areaRead_keeps {s0 t : State} (h : Keeps s0 t) (addr : Nat) : KeepsP s0 (State.areaRead t addr) := by
  unfold State.areaRead
  iterate 40 all_goals try first
    | with_reducible assumption
    | with_reducible apply State.readMem_keeps
    | split
    | fail_if_no_progress with_reducible refine KeepsP.mk ?_
    | with_reducible refine KeepsP.of_eq (by with_reducible assumption) ?_

theorem State.areaWrite_keeps {s0 t : State} (h : Keeps s0 t) (addr : Nat) (bs : List Byte) : Keeps s0 (State.areaWrite t addr bs) := by
  unfold State.areaWrite
  iterate 40 all_goals try first
    | with_reducible assumption
    | with_reducible apply State.writeMem_keeps
    | with_reducible apply KeepsP.snd

theorem State.findIn_keeps {s0 t : State} (h : Keeps s0 t) (gw : Bool) (b : Nat) (id : Nat) : KeepsP s0 (State.findIn t gw b id) := by
  unfold State.findIn
  iterate 40 all_goals try first
    | with_reducible assumption
    | with_reducible apply State.areaRead_keeps
    | split
    | fail_if_no_progress with_reducible refine KeepsP.mk ?_
    | with_reducible refine KeepsP.of_eq (by with_reducible assumption) ?_

theorem State.findSlot_keeps {s0 t : State} (h : Keeps s0 t) (gw : Bool) (id : Nat) : KeepsP s0 (State.findSlot t gw id) := by
  unfold State.findSlot
  iterate 40 all_goals try first
    | with_reducible assumption
    | with_reducible apply State.findIn_keeps
    | (with_reducible apply KeepsP.ite <;> intros)
    | split
    | fail_if_no_progress with_reducible refine KeepsP.mk ?_
    | with_reducible refine KeepsP.of_eq (by with_reducible assumption) ?_

theorem State.findRecord_keeps {s0 t : State} (h : Keeps s0 t) (gw : Bool) (id : Nat) : KeepsP s0 (State.findRecord t gw id) := by
  unfold State.findRecord
  iterate 40 all_goals try first
    | with_reducible assumption
    | with_reducible apply State.findSlot_keeps
    | with_reducible apply State.areaRead_keeps
    | split
    | fail_if_no_progress with_reducible refine KeepsP.mk ?_
    | with_reducible refine KeepsP.of_eq (by with_reducible assumption) ?_

theorem State.setIndex_keeps {s0 t : State} (h : Keeps s0 t) (gw : Bool) (slot : Nat) (id : Nat) : Keeps s0 (State.setIndex t gw slot id) := by
  unfold State.setIndex
  iterate 40 all_goals try first
    | with_reducible assumption
    | with_reducible apply State.areaWrite_keeps

theorem State.putRecord_keeps {s0 t : State} (h : Keeps s0 t) (gw : Bool) (slot : Nat) (rec : List Byte) : Keeps s0 (State.putRecord t gw slot rec) := by
  unfold State.putRecord
  iterate 40 all_goals try first
    | with_reducible assumption
    | with_reducible apply State.setIndex_keeps
    | with_reducible apply State.areaWrite_keeps

theorem State.radFrame_keeps {s0 t : State} (h : Keeps s0 t) (r : Nat) (dstIp : Nat) (dstPort : Nat) (body : List Byte) : KeepsP s0 (State.radFrame t r dstIp dstPort body) := by
  unfold State.radFrame
  iterate 40 all_goals try first
    | with_reducible assumption
    | (lift_lets -underBinder; intro y)
    | with_reducible apply State.draw_keeps
    | (with_reducible apply KeepsP.ite <;> intros)
    | split
    | fail_if_no_progress with_reducible refine KeepsP.mk ?_
    | with_reducible refine KeepsP.of_eq (by with_reducible assumption) ?_

theorem State.radSend_keeps {s0 t : State} (h : Keeps s0 t) (r : Nat) (dstIp : Nat) (dstPort : Nat) (body : List Byte) : KeepsP s0 (State.radSend t r dstIp dstPort body) := by
  unfold State.radSend
  iterate 40 all_goals try first
    | with_reducible assumption
    | (lift_lets -underBinder; intro y)
    | with_reducible apply State.radFrame_keeps
    | with_reducible apply State.allocFrame_keeps
    | with_reducible apply State.enter_keeps
    | split
    | fail_if_no_progress with_reducible refine KeepsP.mk ?_
    | with_reducible apply KeepsP.snd
    | with_reducible refine KeepsP.of_eq (by with_reducible assumption) ?_

theorem State.sendToGateway_keeps {s0 t : State} (h : Keeps s0 t) (gw : List Byte) (type : Nat) (count : Nat) (seq : Nat) (body : List Byte) : KeepsP s0 (State.sendToGateway t gw type count seq body) := by
  unfold State.sendToGateway
  iterate 40 all_goals try first
    | with_reducible assumption
    | with_reducible apply State.radSend_keeps

theorem State.sendReadings_keeps {s0 t : State} (h : Keeps s0 t) (d : Datagram) : Keeps s0 (State.sendReadings t d) := by
  unfold State.sendReadings
  iterate 40 all_goals try first
    | with_reducible assumption
    | (lift_lets -underBinder; intro y)
    | with_reducible apply State.radSend_keeps
    | with_reducible apply State.withRadius_keeps
    | (with_reducible apply Keeps.ite <;> intros)
    | with_reducible apply KeepsP.snd

theorem State.toReadingQueue_keeps {s0 t : State} (h : Keeps s0 t) (keep : Nat) (rec : List Byte) : Keeps s0 (State.toReadingQueue t keep rec) := by
  unfold State.toReadingQueue
  iterate 40 all_goals try first
    | with_reducible assumption
    | (lift_lets -underBinder; intro y)
    | with_reducible apply State.annPut_keeps
    | (with_reducible apply Keeps.ite <;> intros)

theorem State.outRecord_keeps {s0 t : State} (h : Keeps s0 t) (g : Nat) (params : BitVec 256) (route : BitVec 384) (keep : Nat) (rec : List Byte) : Keeps s0 (State.outRecord t g params route keep rec) := by
  unfold State.outRecord
  iterate 40 all_goals try first
    | with_reducible assumption
    | (lift_lets -underBinder; intro y; with_reducible refine (fun (hy : Keeps s0 y) => ?_) ?_ <;> [clear_value y; subst y])
    | with_reducible apply State.toReadingQueue_keeps
    | with_reducible apply State.sendReadings_keeps
    | with_reducible apply State.withRadius_keeps
    | (with_reducible apply Keeps.ite <;> intros)
    | split

theorem State.outStatus_keeps {s0 t : State} (h : Keeps s0 t) (g : Nat) (rec : List Byte) : Keeps s0 (State.outStatus t g rec) := by
  unfold State.outStatus
  iterate 40 all_goals try first
    | with_reducible assumption
    | (lift_lets -underBinder; intro y)
    | with_reducible apply State.outRecord_keeps

theorem State.recUnlock_keeps {s0 t : State} (h : Keeps s0 t) (slot : Nat) (owner : Nat) : Keeps s0 (State.recUnlock t slot owner) := by
  unfold State.recUnlock
  iterate 40 all_goals try first
    | with_reducible assumption
    | (lift_lets -underBinder; intro y)
    | with_reducible apply State.withRadius_keeps
    | (with_reducible apply Keeps.ite <;> intros)
    | split

theorem State.batchDone_keeps {s0 t : State} (h : Keeps s0 t) (id : Nat) : Keeps s0 (State.batchDone t id) := by
  unfold State.batchDone
  iterate 40 all_goals try first
    | with_reducible assumption
    | (lift_lets -underBinder; intro y)
    | with_reducible apply State.withRadius_keeps

theorem State.modRItem_keeps {s0 t : State} (h : Keeps s0 t) (id : Nat) (f : RItem → RItem) : Keeps s0 (State.modRItem t id f) := by
  unfold State.modRItem
  iterate 40 all_goals try first
    | with_reducible assumption
    | (lift_lets -underBinder; intro y)
    | with_reducible apply State.withRadius_keeps

theorem State.endRoot_keeps {s0 t : State} (h : Keeps s0 t) (id : Nat) : Keeps s0 (State.endRoot t id) := by
  unfold State.endRoot
  iterate 40 all_goals try first
    | with_reducible assumption
    | with_reducible apply State.opEnd_keeps
    | with_reducible apply State.modRItem_keeps
    | split

theorem State.unreserve_keeps {s0 t : State} (h : Keeps s0 t) (i : RItem) : Keeps s0 (State.unreserve t i) := by
  unfold State.unreserve
  iterate 40 all_goals try first
    | with_reducible assumption
    | (lift_lets -underBinder; intro y)
    | with_reducible apply State.withRadius_keeps

theorem State.endRItem_keeps {s0 t : State} (h : Keeps s0 t) (id : Nat) : Keeps s0 (State.endRItem t id) := by
  unfold State.endRItem
  iterate 40 all_goals try first
    | with_reducible assumption
    | (lift_lets -underBinder; intro y; with_reducible refine (fun (hy : Keeps s0 y) => ?_) ?_ <;> [clear_value y; subst y])
    | with_reducible apply State.unreserve_keeps
    | with_reducible apply State.endRoot_keeps
    | with_reducible apply State.batchDone_keeps
    | with_reducible apply State.withRadius_keeps
    | split

theorem State.storeWrite_keeps {s0 t : State} (h : Keeps s0 t) (place : Nat) : Keeps s0 (State.storeWrite t place) := by
  unfold State.storeWrite
  iterate 40 all_goals try first
    | with_reducible assumption
    | with_reducible apply State.draw_keeps
    | with_reducible apply State.areaWrite_keeps
    | with_reducible apply KeepsP.snd

theorem State.storePut_keeps {s0 t : State} (h : Keeps s0 t) (e : StoreEntry) : Keeps s0 (State.storePut t e) := by
  unfold State.storePut
  iterate 40 all_goals try first
    | with_reducible assumption
    | (lift_lets -underBinder; intro y)
    | with_reducible apply State.storeWrite_keeps
    | with_reducible apply State.withRadius_keeps

theorem State.storeRead_keeps {s0 t : State} (h : Keeps s0 t) (e : StoreEntry) : KeepsP s0 (State.storeRead t e) := by
  unfold State.storeRead
  iterate 40 all_goals try first
    | with_reducible assumption
    | with_reducible apply State.readMem_keeps
    | with_reducible apply State.recordBad_keeps
    | split
    | fail_if_no_progress with_reducible refine KeepsP.mk ?_
    | with_reducible refine KeepsP.of_eq (by with_reducible assumption) ?_

theorem State.setCluster_keeps {s0 t : State} (h : Keeps s0 t) (c : Nat) (x : Cluster) : Keeps s0 (State.setCluster t c x) := by
  unfold State.setCluster
  iterate 40 all_goals try first
    | with_reducible assumption
    | (lift_lets -underBinder; intro y)
    | fail_if_no_progress with_reducible refine Keeps.upd ?_ rfl

theorem State.setThread_keeps {s0 t : State} (h : Keeps s0 t) (c : Nat) (k : Nat) (x : Thread) : Keeps s0 (State.setThread t c k x) := by
  unfold State.setThread
  iterate 40 all_goals try first
    | with_reducible assumption
    | (lift_lets -underBinder; intro y)
    | with_reducible apply State.setCluster_keeps

theorem State.modThread_keeps {s0 t : State} (h : Keeps s0 t) (c : Nat) (k : Nat) (f : Thread → Thread) : Keeps s0 (State.modThread t c k f) := by
  unfold State.modThread
  iterate 40 all_goals try first
    | with_reducible assumption
    | with_reducible apply State.setThread_keeps

theorem State.setUnit_keeps {s0 t : State} (h : Keeps s0 t) (n : Nat) (u : PrismUnit) : Keeps s0 (State.setUnit t n u) := by
  unfold State.setUnit
  iterate 40 all_goals try first
    | with_reducible assumption
    | (lift_lets -underBinder; intro y)
    | fail_if_no_progress with_reducible refine Keeps.upd ?_ rfl

theorem State.modItem_keeps {s0 t : State} (h : Keeps s0 t) (n : Nat) (q : Nat) (f : Item → Item) : Keeps s0 (State.modItem t n q f) := by
  unfold State.modItem
  iterate 40 all_goals try first
    | with_reducible assumption
    | (lift_lets -underBinder; intro y)
    | with_reducible apply State.setUnit_keeps

theorem State.saLeave_keeps {s0 t : State} (h : Keeps s0 t) (h1 : Option Nat) : Keeps s0 (State.saLeave t h1) := by
  unfold State.saLeave
  iterate 40 all_goals try first
    | with_reducible assumption
    | (lift_lets -underBinder; intro y)
    | with_reducible apply State.setSa_keeps
    | split

theorem State.restop_keeps {s0 t : State} (h : Keeps s0 t) : Keeps s0 (State.restop t) := by
  unfold State.restop
  iterate 40 all_goals try first
    | with_reducible assumption
    | (lift_lets -underBinder; intro y)
    | with_reducible apply State.withSector_keeps

theorem State.freeItem_keeps {s0 t : State} (h : Keeps s0 t) (n : Nat) (i : Item) : Keeps s0 (State.freeItem t n i) := by
  unfold State.freeItem
  iterate 40 all_goals try first
    | with_reducible assumption
    | with_reducible apply State.notSent_keeps
    | with_reducible apply State.freeFrame_keeps
    | split

theorem State.dropParked_keeps {s0 t : State} (h : Keeps s0 t) (n : Nat) (i : Nat) (p : Parked) : Keeps s0 (State.dropParked t n i p) := by
  unfold State.dropParked
  iterate 40 all_goals try first
    | with_reducible assumption
    | (lift_lets -underBinder; intro y)
    | with_reducible apply State.setUnit_keeps
    | with_reducible apply State.restop_keeps
    | with_reducible apply State.freeItem_keeps
    | with_reducible apply State.stat_keeps

theorem State.dropSlot_keeps {s0 t : State} (h : Keeps s0 t) (n : Nat) (q : Nat) : Keeps s0 (State.dropSlot t n q) := by
  unfold State.dropSlot
  iterate 40 all_goals try first
    | with_reducible assumption
    | (lift_lets -underBinder; intro y; with_reducible refine (fun (hy : Keeps s0 y) => ?_) ?_ <;> [clear_value y; subst y])
    | with_reducible apply State.freeItem_keeps
    | with_reducible apply State.saLeave_keeps
    | with_reducible apply State.modItem_keeps
    | with_reducible apply State.setUnit_keeps
    | split

theorem State.parityError_keeps {s0 t : State} (h : Keeps s0 t) (n : Nat) (i : Item) (line : Nat) : Keeps s0 (State.parityError t n i line) := by
  unfold State.parityError
  iterate 40 all_goals try first
    | with_reducible assumption
    | (lift_lets -underBinder; intro y; with_reducible refine (fun (hy : Keeps s0 y) => ?_) ?_ <;> [clear_value y; subst y])
    | with_reducible apply State.count_keeps
    | with_reducible apply State.setReg_keeps
    | with_reducible apply State.raise_keeps

theorem State.setFrame_keeps {s0 t : State} (h : Keeps s0 t) (c : Nat) (k : Nat) (off : Nat) (v : List Byte) : Keeps s0 (State.setFrame t c k off v) := by
  unfold State.setFrame
  iterate 40 all_goals try first
    | with_reducible assumption
    | with_reducible apply State.modRItem_keeps
    | with_reducible apply State.modItem_keeps
    | (with_reducible apply Keeps.ite <;> intros)
    | split

theorem State.unyield_keeps {s0 t : State} (h : Keeps s0 t) (c : Nat) (k : Nat) : Keeps s0 (State.unyield t c k) := by
  unfold State.unyield
  iterate 40 all_goals try first
    | with_reducible assumption
    | (lift_lets -underBinder; intro y)
    | with_reducible apply State.setCluster_keeps

theorem State.endOp_keeps {s0 t : State} (h : Keeps s0 t) (c : Nat) (k : Nat) (unlock : Bool) : Keeps s0 (State.endOp t c k unlock) := by
  unfold State.endOp
  iterate 40 all_goals try first
    | with_reducible assumption
    | (lift_lets -underBinder; intro y; with_reducible refine (fun (hy : Keeps s0 y) => ?_) ?_ <;> [clear_value y; subst y])
    | (lift_lets -underBinder; intro y)
    | with_reducible apply State.untake_keeps
    | with_reducible apply State.opEnd_keeps
    | with_reducible apply State.freeLock_keeps
    | with_reducible apply State.modThread_keeps
    | (with_reducible apply Keeps.ite <;> intros)
    | split

theorem State.idle_keeps {s0 t : State} (h : Keeps s0 t) (c : Nat) (k : Nat) : Keeps s0 (State.idle t c k) := by
  unfold State.idle
  iterate 40 all_goals try first
    | with_reducible assumption
    | with_reducible apply State.modThread_keeps
    | with_reducible apply State.unyield_keeps

theorem State.wake_keeps {s0 t : State} (h : Keeps s0 t) (c : Nat) : Keeps s0 (State.wake t c) := by
  unfold State.wake
  iterate 40 all_goals try first
    | with_reducible assumption
    | (lift_lets -underBinder; intro y)
    | with_reducible apply State.modThread_keeps
    | (with_reducible apply Keeps.ite <;> intros)
    | (with_reducible apply Keeps.foldl <;> intros)

theorem State.cryptoEnd_keeps {s0 t : State} (h : Keeps s0 t) (n : Nat) (r : CryptoRun) (st : Status) : Keeps s0 (State.cryptoEnd t n r st) := by
  unfold State.cryptoEnd
  iterate 40 all_goals try first
    | with_reducible assumption
    | (lift_lets -underBinder; intro y)
    | with_reducible apply State.setUnit_keeps
    | with_reducible apply State.complete_keeps
    | with_reducible apply State.writeBufDone_keeps
    | (with_reducible apply Keeps.ite <;> intros)

theorem State.nextChunk_keeps {s0 t : State} (h : Keeps s0 t) (n : Nat) (r : CryptoRun) : Keeps s0 (State.nextChunk t n r) := by
  unfold State.nextChunk
  iterate 40 all_goals try first
    | with_reducible assumption
    | (lift_lets -underBinder; intro y)
    | with_reducible apply State.cryptoEnd_keeps
    | with_reducible apply State.setUnit_keeps
    | (with_reducible apply Keeps.ite <;> intros)
    | fail_if_no_progress with_reducible refine Keeps.upd ?_ rfl
    | split

theorem State.chunkDone_keeps {s0 t : State} (h : Keeps s0 t) (n : Nat) (i : Item) : Keeps s0 (State.chunkDone t n i) := by
  unfold State.chunkDone
  iterate 40 all_goals try first
    | with_reducible assumption
    | (lift_lets -underBinder; intro y)
    | with_reducible apply State.setUnit_keeps
    | with_reducible apply State.nextChunk_keeps
    | split

theorem State.chunkLost_keeps {s0 t : State} (h : Keeps s0 t) (n : Nat) (i : Item) : Keeps s0 (State.chunkLost t n i) := by
  unfold State.chunkLost
  iterate 40 all_goals try first
    | with_reducible assumption
    | (lift_lets -underBinder; intro y)
    | with_reducible apply State.setUnit_keeps
    | with_reducible apply State.cryptoEnd_keeps
    | split

theorem State.discardUnder_keeps {s0 t : State} (h : Keeps s0 t) (n : Nat) (i : Item) : Keeps s0 (State.discardUnder t n i) := by
  unfold State.discardUnder
  iterate 40 all_goals try first
    | with_reducible assumption
    | (lift_lets -underBinder; intro y; with_reducible refine (fun (hy : Keeps s0 y) => ?_) ?_ <;> [clear_value y; subst y])
    | (lift_lets -underBinder; intro y)
    | with_reducible apply State.chunkLost_keeps
    | with_reducible apply State.dropSlot_keeps
    | with_reducible apply State.setUnit_keeps
    | (with_reducible apply Keeps.ite <;> intros)
    | split

theorem State.dropHeld_keeps {s0 t : State} (h : Keeps s0 t) (n : Nat) (i : Item) : Keeps s0 (State.dropHeld t n i) := by
  unfold State.dropHeld
  iterate 40 all_goals try first
    | with_reducible assumption
    | with_reducible apply State.chunkLost_keeps
    | with_reducible apply State.dropSlot_keeps
    | (with_reducible apply Keeps.ite <;> intros)

theorem State.faultThread_keeps {s0 t : State} (h : Keeps s0 t) (c : Nat) (k : Nat) (cause : Cause) : Keeps s0 (State.faultThread t c k cause) := by
  unfold State.faultThread
  iterate 40 all_goals try first
    | with_reducible assumption
    | (lift_lets -underBinder; intro y)
    | with_reducible apply State.endOp_keeps
    | with_reducible apply State.endRItem_keeps
    | with_reducible apply State.dropHeld_keeps
    | with_reducible apply State.modThread_keeps
    | with_reducible apply State.unyield_keeps
    | with_reducible apply State.raise_keeps
    | with_reducible apply State.count_keeps
    | with_reducible apply State.wake_keeps
    | (with_reducible apply Keeps.ite <;> intros)
    | split

theorem State.noteIssue_keeps {s0 t : State} (h : Keeps s0 t) (c : Nat) (k : Nat) (pc : Nat) (w : BitVec 64) (second : Bool) : Keeps s0 (State.noteIssue t c k pc w second) := by
  unfold State.noteIssue
  iterate 40 all_goals try first
    | with_reducible assumption
    | (lift_lets -underBinder; intro y; with_reducible refine (fun (hy : Keeps s0 y) => ?_) ?_ <;> [clear_value y; subst y])
    | with_reducible apply State.unyield_keeps
    | with_reducible apply State.setCluster_keeps

theorem State.holdThread_keeps {s0 t : State} (h : Keeps s0 t) (c : Nat) (k : Nat) : Keeps s0 (State.holdThread t c k) := by
  unfold State.holdThread
  iterate 40 all_goals try first
    | with_reducible assumption
    | (lift_lets -underBinder; intro y; with_reducible refine (fun (hy : Keeps s0 y) => ?_) ?_ <;> [clear_value y; subst y])
    | with_reducible apply State.modThread_keeps
    | with_reducible apply State.setCluster_keeps
    | (with_reducible apply Keeps.ite <;> intros)

theorem State.advance_keeps {s0 t : State} (h : Keeps s0 t) (c : Nat) (k : Nat) : Keeps s0 (State.advance t c k) := by
  unfold State.advance
  iterate 40 all_goals try first
    | with_reducible assumption
    | with_reducible apply State.modThread_keeps

theorem State.land_keeps {s0 t : State} (h : Keeps s0 t) (c : Nat) (k : Nat) (pc : Nat) : Keeps s0 (State.land t c k pc) := by
  unfold State.land
  iterate 40 all_goals try first
    | with_reducible assumption
    | (lift_lets -underBinder; intro y)
    | with_reducible apply State.faultThread_keeps
    | with_reducible apply State.setThread_keeps
    | (with_reducible apply Keeps.ite <;> intros)

theorem State.settle_keeps {s0 t : State} (h : Keeps s0 t) (c : Nat) (k : Nat) (x : Ins) (base : BitVec 64) : Keeps s0 (State.settle t c k x base) := by
  unfold State.settle
  iterate 40 all_goals try first
    | with_reducible assumption
    | (lift_lets -underBinder; intro y; with_reducible refine (fun (hy : Keeps s0 y) => ?_) ?_ <;> [clear_value y; subst y])
    | (lift_lets -underBinder; intro y)
    | with_reducible apply State.modThread_keeps
    | with_reducible apply State.wake_keeps
    | with_reducible apply State.advance_keeps
    | (with_reducible apply Keeps.ite <;> intros)
    | split

theorem Act.settle_keeps {s0 : State} {a : Act} (h : KeepsA s0 a) (c k : Nat) (x : Ins) (base : BitVec 64) : Keeps s0 (a.settle c k x base) := by
  cases a with
  | go s => exact State.settle_keeps h c k x base
  | jump s p => exact State.land_keeps h c k p
  | fault s e => exact State.faultThread_keeps h c k e
  | gone s => exact State.wake_keeps h c

theorem State.issue_keeps {s0 t : State} (h : Keeps s0 t) (i : Issue) (ops : List Nat) (body : Nat → Nat → Ins → State → Act) (k_body : ∀ b0 b1 b2 u, Keeps s0 u → KeepsA s0 (body b0 b1 b2 u)) : Keeps s0 (State.issue i ops body t) := by
  unfold State.issue
  iterate 40 all_goals try first
    | with_reducible assumption
    | (lift_lets -underBinder; intro y)
    | with_reducible apply State.wake_keeps
    | with_reducible apply State.faultThread_keeps
    | with_reducible apply State.noteIssue_keeps
    | with_reducible apply State.raiseOnce_keeps
    | with_reducible apply State.count_keeps
    | with_reducible apply State.holdThread_keeps
    | with_reducible apply State.advance_keeps
    | with_reducible apply Act.settle_keeps
    | with_reducible apply k_body
    | (with_reducible apply Keeps.ite <;> intros)

theorem State.bindLost_keeps {s0 t : State} (h : Keeps s0 t) (h1 : Nat) : Keeps s0 (State.bindLost t h1) := by
  unfold State.bindLost
  iterate 40 all_goals try first
    | with_reducible assumption
    | (lift_lets -underBinder; intro y)
    | with_reducible apply State.enterKeyLost_keeps
    | (with_reducible apply Keeps.ite <;> intros)

theorem State.clearStats_keeps {s0 t : State} (h : Keeps s0 t) (h1 : Nat) : Keeps s0 (State.clearStats t h1) := by
  unfold State.clearStats
  iterate 40 all_goals try first
    | with_reducible assumption
    | with_reducible apply State.writeMem_keeps
    | with_reducible apply State.raise_keeps
    | split
    | with_reducible refine KeepsP.of_eq (by with_reducible assumption) ?_

theorem createWith_keeps {s0 t : State} (h : Keeps s0 t) (d : Desc) (h1 : Nat) (v : Nat) : Keeps s0 (createWith d h1 v t) := by
  unfold createWith
  iterate 40 all_goals try first
    | with_reducible assumption
    | (lift_lets -underBinder; intro y)
    | with_reducible apply State.done_keeps
    | with_reducible apply State.clearStats_keeps
    | with_reducible apply State.setSa_keeps
    | with_reducible apply State.retime_keeps
    | with_reducible apply State.caseClear_keeps
    | with_reducible apply State.nextMoved_keeps
    | with_reducible apply State.bindLost_keeps
    | with_reducible apply State.complete_keeps
    | (with_reducible apply Keeps.ite <;> intros)

theorem execSaCreate_keeps {s0 t : State} (h : Keeps s0 t) (d : Desc) : KeepsN s0 (execSaCreate d t) := by
  unfold execSaCreate
  iterate 40 all_goals try first
    | with_reducible assumption
    | (with_reducible apply ringCommand_keeps <;> intros)
    | with_reducible apply State.done_keeps
    | (with_reducible apply State.withBuf_keeps <;> intros)
    | with_reducible apply createWith_keeps
    | (with_reducible apply Keeps.ite <;> intros)
    | (with_reducible apply KeepsN.ite <;> intros)
    | with_reducible refine KeepsN.next ?_

theorem modifyWith_keeps {s0 t : State} (h : Keeps s0 t) (d : Desc) (h1 : Nat) (m : Nat) (v : Nat) : Keeps s0 (modifyWith d h1 m v t) := by
  unfold modifyWith
  iterate 40 all_goals try first
    | with_reducible assumption
    | (lift_lets -underBinder; intro y)
    | with_reducible apply State.done_keeps
    | with_reducible apply State.setSa_keeps
    | with_reducible apply State.caseClear_keeps
    | with_reducible apply State.nextMoved_keeps
    | with_reducible apply State.bindLost_keeps
    | with_reducible apply State.complete_keeps
    | (with_reducible apply Keeps.ite <;> intros)

theorem execSaModify_keeps {s0 t : State} (h : Keeps s0 t) (d : Desc) : KeepsN s0 (execSaModify d t) := by
  unfold execSaModify
  iterate 40 all_goals try first
    | with_reducible assumption
    | (with_reducible apply ringCommand_keeps <;> intros)
    | with_reducible apply State.done_keeps
    | (with_reducible apply State.withBuf_keeps <;> intros)
    | with_reducible apply modifyWith_keeps
    | (with_reducible apply Keeps.ite <;> intros)
    | (with_reducible apply KeepsN.ite <;> intros)
    | with_reducible refine KeepsN.next ?_

theorem retireBody_keeps {s0 t : State} (h : Keeps s0 t) (d : Desc) : Keeps s0 (retireBody d t) := by
  unfold retireBody
  iterate 40 all_goals try first
    | with_reducible assumption
    | (lift_lets -underBinder; intro y)
    | with_reducible apply State.done_keeps
    | with_reducible apply State.setSa_keeps
    | (with_reducible apply Keeps.ite <;> intros)

theorem execSaRetire_keeps {s0 t : State} (h : Keeps s0 t) (d : Desc) : KeepsN s0 (execSaRetire d t) := by
  unfold execSaRetire
  iterate 40 all_goals try first
    | with_reducible assumption
    | (with_reducible apply ringCommand_keeps <;> intros)
    | with_reducible apply retireBody_keeps
    | (with_reducible apply KeepsN.ite <;> intros)
    | with_reducible refine KeepsN.next ?_

theorem execSaRead_keeps {s0 t : State} (h : Keeps s0 t) (d : Desc) : KeepsN s0 (execSaRead d t) := by
  unfold execSaRead
  iterate 40 all_goals try first
    | with_reducible assumption
    | (with_reducible apply ringCommand_keeps <;> intros)
    | with_reducible apply State.done_keeps
    | with_reducible apply State.writeBufDone_keeps
    | (with_reducible apply Keeps.ite <;> intros)
    | with_reducible refine KeepsN.next ?_

theorem State.noteFreed_keeps {s0 t : State} (h : Keeps s0 t) (h1 : Nat) : Keeps s0 (State.noteFreed t h1) := by
  unfold State.noteFreed
  iterate 40 all_goals try first
    | with_reducible assumption
    | (lift_lets -underBinder; intro y)
    | fail_if_no_progress with_reducible refine Keeps.upd ?_ rfl

theorem execRetirementEnd_keeps {s0 t : State} (h : Keeps s0 t) (h1 : BitVec 17) : KeepsN s0 (execRetirementEnd h1 t) := by
  unfold execRetirementEnd
  iterate 40 all_goals try first
    | with_reducible assumption
    | (lift_lets -underBinder; intro y)
    | with_reducible apply State.fold_keeps
    | with_reducible apply State.retime_keeps
    | with_reducible apply State.caseClear_keeps
    | with_reducible apply State.noteFreed_keeps
    | with_reducible apply State.setSa_keeps
    | with_reducible apply State.complete_keeps
    | (with_reducible apply KeepsN.ite <;> intros)
    | with_reducible refine KeepsN.next ?_
    | (with_reducible apply Keeps.foldl <;> intros)
    | with_reducible apply KeepsP.snd

theorem execOverlapHoldExpiry_keeps {s0 t : State} (h : Keeps s0 t) (h1 : BitVec 17) : KeepsN s0 (execOverlapHoldExpiry h1 t) := by
  unfold execOverlapHoldExpiry
  iterate 40 all_goals try first
    | with_reducible assumption
    | (lift_lets -underBinder; intro y; with_reducible refine (fun (hy : Keeps s0 y) => ?_) ?_ <;> [clear_value y; subst y])
    | (lift_lets -underBinder; intro y)
    | with_reducible apply State.passTo_keeps
    | with_reducible apply State.setSa_keeps
    | with_reducible apply State.raise_keeps
    | (with_reducible apply KeepsN.ite <;> intros)
    | with_reducible refine KeepsN.next ?_
    | split

theorem execContextLockLeaseExpiry_keeps {s0 t : State} (h : Keeps s0 t) (h1 : BitVec 17) : KeepsN s0 (execContextLockLeaseExpiry h1 t) := by
  unfold execContextLockLeaseExpiry
  iterate 40 all_goals try first
    | with_reducible assumption
    | (lift_lets -underBinder; intro y; with_reducible refine (fun (hy : Keeps s0 y) => ?_) ?_ <;> [clear_value y; subst y])
    | with_reducible apply State.passTo_keeps
    | with_reducible apply State.wake_keeps
    | with_reducible apply State.raise_keeps
    | with_reducible refine KeepsN.next ?_
    | fail_if_no_progress with_reducible refine Keeps.upd ?_ rfl
    | split

theorem execStatsFoldSweep_keeps {s0 t : State} (h : Keeps s0 t) (part : Fin 16) : KeepsN s0 (execStatsFoldSweep part t) := by
  unfold execStatsFoldSweep
  iterate 40 all_goals try first
    | with_reducible assumption
    | with_reducible apply State.fold_keeps
    | with_reducible refine KeepsN.next ?_
    | (with_reducible apply Keeps.foldl <;> intros)
    | with_reducible apply KeepsP.snd

theorem rotateWith_keeps {s0 t : State} (h : Keeps s0 t) (d : Desc) (n : Nat) (bs : List Byte) : Keeps s0 (rotateWith d n bs t) := by
  unfold rotateWith
  iterate 40 all_goals try first
    | with_reducible assumption
    | (lift_lets -underBinder; intro y)
    | with_reducible apply State.done_keeps
    | (with_reducible apply Keeps.ite <;> intros)
    | fail_if_no_progress with_reducible refine Keeps.upd ?_ rfl
    | split

theorem execSaRotate_keeps {s0 t : State} (h : Keeps s0 t) (d : Desc) : KeepsN s0 (execSaRotate d t) := by
  unfold execSaRotate
  iterate 40 all_goals try first
    | with_reducible assumption
    | (lift_lets -underBinder; intro y)
    | (with_reducible apply ringCommand_keeps <;> intros)
    | with_reducible apply State.done_keeps
    | (with_reducible apply State.withBuf_keeps <;> intros)
    | with_reducible apply rotateWith_keeps
    | (with_reducible apply Keeps.ite <;> intros)
    | with_reducible refine KeepsN.next ?_

theorem armEntry_keeps {s0 t : State} (h : Keeps s0 t) (tr : RotTrigger) (e : Nat × Nat) : Keeps s0 (armEntry tr t e) := by
  unfold armEntry
  iterate 40 all_goals try first
    | with_reducible assumption
    | (lift_lets -underBinder; intro y)
    | with_reducible apply State.setSa_keeps

theorem State.putRotation_keeps {s0 t : State} (h : Keeps s0 t) (r : Rotation) (r' : Option Rotation) : Keeps s0 (State.putRotation t r r') := by
  unfold State.putRotation
  iterate 40 all_goals try first
    | with_reducible assumption
    | (lift_lets -underBinder; intro y)
    | fail_if_no_progress with_reducible refine Keeps.upd ?_ rfl

theorem execRotationArmed_keeps {s0 t : State} (h : Keeps s0 t) (ring : Fin 64) (tag : BitVec 16) : KeepsN s0 (execRotationArmed ring tag t) := by
  unfold execRotationArmed
  iterate 40 all_goals try first
    | with_reducible assumption
    | (lift_lets -underBinder; intro y; with_reducible refine (fun (hy : Keeps s0 y) => ?_) ?_ <;> [clear_value y; subst y])
    | with_reducible apply State.passTo_keeps
    | with_reducible apply State.complete_keeps
    | with_reducible apply State.putRotation_keeps
    | with_reducible apply State.done_keeps
    | with_reducible apply armEntry_keeps
    | (with_reducible apply KeepsN.ite <;> intros)
    | with_reducible refine KeepsN.next ?_
    | (with_reducible apply Keeps.foldl <;> intros)
    | split

theorem execRotationTimeTrigger_keeps {s0 t : State} (h : Keeps s0 t) (ring : Fin 64) (tag : BitVec 16) : KeepsN s0 (execRotationTimeTrigger ring tag t) := by
  unfold execRotationTimeTrigger
  iterate 40 all_goals try first
    | with_reducible assumption
    | (lift_lets -underBinder; intro y)
    | with_reducible apply State.fireRotation_keeps
    | with_reducible apply State.passToTime_keeps
    | with_reducible refine KeepsN.next ?_
    | split

theorem cancelBody_keeps {s0 t : State} (h : Keeps s0 t) (d : Desc) : Keeps s0 (cancelBody d t) := by
  unfold cancelBody
  iterate 40 all_goals try first
    | with_reducible assumption
    | (lift_lets -underBinder; intro y; with_reducible refine (fun (hy : Keeps s0 y) => ?_) ?_ <;> [clear_value y; subst y])
    | (lift_lets -underBinder; intro y)
    | with_reducible apply State.done_keeps
    | with_reducible apply State.setSa_keeps
    | with_reducible apply State.putRotation_keeps
    | (with_reducible apply Keeps.ite <;> intros)
    | (with_reducible apply Keeps.foldl <;> intros)
    | split

theorem execSaRotateCancel_keeps {s0 t : State} (h : Keeps s0 t) (d : Desc) : KeepsN s0 (execSaRotateCancel d t) := by
  unfold execSaRotateCancel
  iterate 40 all_goals try first
    | with_reducible assumption
    | (with_reducible apply ringCommand_keeps <;> intros)
    | with_reducible apply cancelBody_keeps
    | with_reducible refine KeepsN.next ?_

theorem State.setFacet_keeps {s0 t : State} (h : Keeps s0 t) (n : Nat) (p : FacetPort) : Keeps s0 (State.setFacet t n p) := by
  unfold State.setFacet
  iterate 40 all_goals try first
    | with_reducible assumption
    | fail_if_no_progress with_reducible refine Keeps.upd ?_ rfl

theorem State.modFacet_keeps {s0 t : State} (h : Keeps s0 t) (n : Nat) (f : FacetPort → FacetPort) : Keeps s0 (State.modFacet t n f) := by
  unfold State.modFacet
  iterate 40 all_goals try first
    | with_reducible assumption
    | with_reducible apply State.setFacet_keeps

theorem State.dropMgmt_keeps {s0 t : State} (h : Keeps s0 t) (n : Nat) (cause : Nat) : Keeps s0 (State.dropMgmt t n cause) := by
  unfold State.dropMgmt
  iterate 40 all_goals try first
    | with_reducible assumption
    | with_reducible apply State.raise_keeps
    | with_reducible apply State.count_keeps
    | with_reducible apply State.modFacet_keeps
    | (with_reducible apply Keeps.ite <;> intros)

theorem State.declare_keeps {s0 t : State} (h : Keeps s0 t) (n : Nat) (k : Nat) (items : List Byte) : Keeps s0 (State.declare t n k items) := by
  unfold State.declare
  iterate 40 all_goals try first
    | with_reducible assumption
    | (lift_lets -underBinder; intro y)
    | with_reducible apply State.setFacet_keeps
    | with_reducible apply State.dropMgmt_keeps
    | with_reducible apply State.raiseSet_keeps
    | (with_reducible apply Keeps.ite <;> intros)

theorem State.clearSection_keeps {s0 t : State} (h : Keeps s0 t) (n : Nat) (k : Nat) (items : List Byte) : Keeps s0 (State.clearSection t n k items) := by
  unfold State.clearSection
  iterate 40 all_goals try first
    | with_reducible assumption
    | (lift_lets -underBinder; intro y)
    | with_reducible apply State.raiseSet_keeps
    | with_reducible apply State.setFacet_keeps
    | with_reducible apply State.declare_keeps
    | (with_reducible apply Keeps.ite <;> intros)

theorem State.facetLol_keeps {s0 t : State} (h : Keeps s0 t) (n : Nat) : Keeps s0 (State.facetLol t n) := by
  unfold State.facetLol
  iterate 40 all_goals try first
    | with_reducible assumption
    | (lift_lets -underBinder; intro y)
    | with_reducible apply State.declare_keeps
    | with_reducible apply State.clearSection_keeps
    | (with_reducible apply Keeps.ite <;> intros)

theorem State.facetSignal_keeps {s0 t : State} (h : Keeps s0 t) (n : Nat) : Keeps s0 (State.facetSignal t n) := by
  unfold State.facetSignal
  iterate 40 all_goals try first
    | with_reducible assumption
    | (lift_lets -underBinder; intro y)
    | with_reducible apply State.setFacet_keeps
    | (with_reducible apply Keeps.ite <;> intros)

theorem State.slotDefect_keeps {s0 t : State} (h : Keeps s0 t) (n : Nat) (a2 : Nat) (b : Nat) (on : Bool) (items : List Byte) : Keeps s0 (State.slotDefect t n a2 b on items) := by
  unfold State.slotDefect
  iterate 40 all_goals try first
    | with_reducible assumption
    | (lift_lets -underBinder; intro y)
    | with_reducible apply State.raiseSet_keeps
    | with_reducible apply State.setFacet_keeps
    | (with_reducible apply Keeps.ite <;> intros)

theorem State.facetStamp_keeps {s0 t : State} (h : Keeps s0 t) (n : Nat) (kind : Nat) (ctr : Nat) : Keeps s0 (State.facetStamp t n kind ctr) := by
  unfold State.facetStamp
  iterate 40 all_goals try first
    | with_reducible assumption
    | (lift_lets -underBinder; intro y)
    | with_reducible apply State.txtsPush_keeps
    | (with_reducible apply Keeps.ite <;> intros)

theorem State.codewords_keeps {s0 t : State} (h : Keeps s0 t) (n : Nat) (a : Nat) : Keeps s0 (State.codewords n a t) := by
  induction a generalizing t with
  | zero =>
    unfold State.codewords
    iterate 40 all_goals try first
      | with_reducible assumption
  | succ n ih =>
    unfold State.codewords
    iterate 40 all_goals try first
      | with_reducible apply ih
      | with_reducible assumption
      | (lift_lets -underBinder; intro y)
      | with_reducible apply State.setFacet_keeps
      | with_reducible apply State.emit_keeps
      | with_reducible apply State.modFacet_keeps
      | (with_reducible apply Keeps.ite <;> intros)

theorem State.lineStream_keeps {s0 t : State} (h : Keeps s0 t) (n : Nat) (cols : List (BitVec 128)) : Keeps s0 (State.lineStream t n cols) := by
  unfold State.lineStream
  iterate 40 all_goals try first
    | with_reducible assumption
    | (lift_lets -underBinder; intro y)
    | with_reducible apply State.codewords_keeps
    | with_reducible apply State.setFacet_keeps

theorem State.withLocus_keeps {s0 t : State} (h : Keeps s0 t) (x : LocusState) : Keeps s0 (State.withLocus t x) := by
  unfold State.withLocus
  iterate 40 all_goals try first
    | with_reducible assumption
    | fail_if_no_progress with_reducible refine Keeps.upd ?_ rfl

theorem State.emPut_keeps {s0 t : State} (h : Keeps s0 t) (k : Nat) (e : Option EmEntry) : Keeps s0 (State.emPut t k e) := by
  unfold State.emPut
  iterate 40 all_goals try first
    | with_reducible assumption
    | (lift_lets -underBinder; intro y)
    | with_reducible apply State.withLocus_keeps

theorem State.setHit_keeps {s0 t : State} (h : Keeps s0 t) (k : Nat) : Keeps s0 (State.setHit t k) := by
  unfold State.setHit
  iterate 40 all_goals try first
    | with_reducible assumption
    | (lift_lets -underBinder; intro y)
    | with_reducible apply State.withLocus_keeps
    | split

theorem State.movePath_keeps {s0 t : State} (h : Keeps s0 t) (a : List Nat) : KeepsP s0 (State.movePath t a) := by
  induction a generalizing t with
  | nil =>
    unfold State.movePath
    iterate 40 all_goals try first
      | with_reducible assumption
      | fail_if_no_progress with_reducible refine KeepsP.mk ?_
  | cons x l ih =>
    rcases l with _ | ⟨y, l⟩
    all_goals unfold State.movePath
    iterate 40 all_goals try first
      | with_reducible apply ih
      | with_reducible assumption
      | with_reducible apply State.emPut_keeps
      | split
      | fail_if_no_progress with_reducible refine KeepsP.mk ?_
      | with_reducible refine KeepsP.of_eq (by with_reducible assumption) ?_

theorem State.placeEntry_keeps {s0 t : State} (h : Keeps s0 t) (cmd : Bool) (e : EmEntry) : KeepsP s0 (State.placeEntry t cmd e) := by
  unfold State.placeEntry
  iterate 40 all_goals try first
    | with_reducible assumption
    | (lift_lets -underBinder; intro y)
    | with_reducible apply State.draw_keeps
    | with_reducible apply State.movePath_keeps
    | split
    | fail_if_no_progress with_reducible refine KeepsP.mk ?_
    | with_reducible refine KeepsP.of_eq (by with_reducible assumption) ?_

theorem State.emInsert_keeps {s0 t : State} (h : Keeps s0 t) (cmd : Bool) (e : EmEntry) : KeepsP s0 (State.emInsert t cmd e) := by
  unfold State.emInsert
  iterate 40 all_goals try first
    | with_reducible assumption
    | (lift_lets -underBinder; intro y; with_reducible refine (fun (hy : Keeps s0 y) => ?_) ?_ <;> [clear_value y; subst y])
    | (lift_lets -underBinder; intro y; have _ : State → _ × State := y)
    | with_reducible apply State.raise_keeps
    | with_reducible apply State.placeEntry_keeps
    | with_reducible apply State.emPut_keeps
    | (with_reducible apply KeepsP.ite <;> intros)
    | split
    | fail_if_no_progress with_reducible refine KeepsP.mk ?_
    | with_reducible refine KeepsP.of_eq (by with_reducible assumption) ?_

theorem State.discardLearn_keeps {s0 t : State} (h : Keeps s0 t) (lp : Nat) : Keeps s0 (State.discardLearn t lp) := by
  unfold State.discardLearn
  iterate 40 all_goals try first
    | with_reducible assumption
    | (lift_lets -underBinder; intro y)
    | with_reducible apply State.count_keeps
    | with_reducible apply State.withLocus_keeps
    | with_reducible apply State.raiseOnce_keeps
    | (with_reducible apply Keeps.ite <;> intros)

theorem State.queueLearn_keeps {s0 t : State} (h : Keeps s0 t) (r : LearnReq) : Keeps s0 (State.queueLearn t r) := by
  unfold State.queueLearn
  iterate 40 all_goals try first
    | with_reducible assumption
    | (lift_lets -underBinder; intro y)
    | with_reducible apply State.withLocus_keeps
    | with_reducible apply State.discardLearn_keeps
    | (with_reducible apply Keeps.ite <;> intros)

theorem State.sourceCheck_keeps {s0 t : State} (h : Keeps s0 t) (profile : BitVec 4) (key : BitVec 128) (lp : Nat) : KeepsP s0 (State.sourceCheck t profile key lp) := by
  unfold State.sourceCheck
  iterate 40 all_goals try first
    | with_reducible assumption
    | (lift_lets -underBinder; intro y; with_reducible refine (fun (hy : Keeps s0 y) => ?_) ?_ <;> [clear_value y; subst y])
    | (lift_lets -underBinder; intro y)
    | with_reducible apply State.setHit_keeps
    | with_reducible apply State.count_keeps
    | with_reducible apply State.queueLearn_keeps
    | with_reducible apply State.raiseOnce_keeps
    | (with_reducible apply KeepsP.ite <;> intros)
    | split
    | fail_if_no_progress with_reducible refine KeepsP.mk ?_

theorem State.store_keeps {s0 t : State} (h : Keeps s0 t) (a : Arrival) (k : Nat → State → State) (k_k : ∀ b0 u, Keeps s0 u → Keeps s0 (k b0 u)) : Keeps s0 (State.store t a k) := by
  unfold State.store
  iterate 40 all_goals try first
    | with_reducible assumption
    | with_reducible apply State.allocFrame_keeps
    | with_reducible apply k_k
    | split
    | with_reducible refine KeepsP.of_eq (by with_reducible assumption) ?_

theorem State.puntFrame_keeps {s0 t : State} (h : Keeps s0 t) (a : Arrival) (q : Nat) (reason : Nat) : Keeps s0 (State.puntFrame t a q reason) := by
  unfold State.puntFrame
  iterate 40 all_goals try first
    | with_reducible assumption
    | (with_reducible apply State.store_keeps <;> intros)
    | with_reducible apply State.count_keeps
    | with_reducible apply State.punt_keeps

theorem State.forward_keeps {s0 t : State} (h : Keeps s0 t) (a : Arrival) (id : Nat) (side : Nat) (lp : Nat) (queue : Nat) (yellow : Bool) (sc : Option Nat) : Keeps s0 (State.forward t a id side lp queue yellow sc) := by
  unfold State.forward
  iterate 40 all_goals try first
    | with_reducible assumption
    | with_reducible apply State.enter_keeps
    | split
    | with_reducible apply KeepsP.snd

theorem State.flood_keeps {s0 t : State} (h : Keeps s0 t) (a : Arrival) (set : Nat) (yellow : Bool) : Keeps s0 (State.flood t a set yellow) := by
  unfold State.flood
  iterate 40 all_goals try first
    | with_reducible assumption
    | (lift_lets -underBinder; intro y)
    | (with_reducible apply State.store_keeps <;> intros)
    | with_reducible apply State.copyFrame_keeps
    | with_reducible apply State.countN_keeps
    | with_reducible apply State.forward_keeps
    | (with_reducible apply Keeps.foldl <;> intros)
    | (with_reducible apply KeepsP.foldl <;> intros)
    | split
    | fail_if_no_progress with_reducible refine KeepsP.mk ?_
    | with_reducible apply KeepsP.snd
    | with_reducible refine KeepsP.of_eq (by with_reducible assumption) ?_

theorem State.missAction_keeps {s0 t : State} (h : Keeps s0 t) (a : Arrival) (ctrl : Nat) : Keeps s0 (State.missAction t a ctrl) := by
  unfold State.missAction
  iterate 40 all_goals try first
    | with_reducible assumption
    | with_reducible apply State.puntFrame_keeps
    | with_reducible apply State.flood_keeps
    | with_reducible apply State.count_keeps
    | split

theorem State.divert_keeps {s0 t : State} (h : Keeps s0 t) (a : Arrival) : Keeps s0 (State.divert t a) := by
  unfold State.divert
  iterate 40 all_goals try first
    | with_reducible assumption
    | (lift_lets -underBinder; intro y)
    | with_reducible apply State.raise_keeps
    | with_reducible apply State.count_keeps
    | (with_reducible apply State.store_keeps <;> intros)
    | with_reducible apply State.inboundPut_keeps
    | with_reducible apply State.holdFrame_keeps
    | (with_reducible apply Keeps.ite <;> intros)

theorem State.emUncorrectable_keeps {s0 t : State} (h : Keeps s0 t) (lp : Nat) (n : Nat) : Keeps s0 (State.emUncorrectable t lp n) := by
  unfold State.emUncorrectable
  iterate 40 all_goals try first
    | with_reducible assumption
    | (lift_lets -underBinder; intro y)
    | with_reducible apply State.withLocus_keeps
    | with_reducible apply State.raise_keeps
    | with_reducible apply State.count_keeps
    | with_reducible apply State.setReg_keeps

theorem State.useResult_keeps {s0 t : State} (h : Keeps s0 t) (a : Arrival) (ctrl : Nat) (r : Nat) : Keeps s0 (State.useResult t a ctrl r) := by
  unfold State.useResult
  iterate 40 all_goals try first
    | with_reducible assumption
    | (lift_lets -underBinder; intro y)
    | with_reducible apply State.missAction_keeps
    | with_reducible apply State.count_keeps
    | with_reducible apply State.police_keeps
    | (with_reducible apply State.store_keeps <;> intros)
    | with_reducible apply State.forward_keeps
    | with_reducible apply State.puntFrame_keeps
    | with_reducible apply State.flood_keeps
    | (with_reducible apply Keeps.ite <;> intros)
    | split
    | with_reducible apply KeepsP.snd

theorem State.classify_keeps {s0 t : State} (h : Keeps s0 t) (a : Arrival) : Keeps s0 (State.classify t a) := by
  unfold State.classify
  refine Keeps.ite (fun _ => State.raiseOnce_keeps (State.count_keeps h _) _ _ _) fun _ => ?_
  extract_lets p s1 cls n prof ctrl sel learns bad key
  have h1 : Keeps s0 s1 := Keeps.ite (fun _ => State.count_keeps h _) fun _ => h
  have hb : ∀ src key u, Keeps s0 u → Keeps s0 (bad src key u) := fun _ _ _ hu => Keeps.foldl hu fun _ _ k => State.emUncorrectable_keeps k _ _
  clear_value bad key learns sel ctrl prof n cls s1 p
  refine Keeps.ite (fun _ => State.puntFrame_keeps h1 _ _ _) fun _ => Keeps.ite (fun _ => State.divert_keeps h1 _) fun _ => ?_
  have h2 : KeepsP s0 (if learns = true then (bad true (packKey sel p a.lp true) s1).sourceCheck prof (packKey sel p a.lp true) a.lp else (false, s1)) :=
    KeepsP.ite (fun _ => State.sourceCheck_keeps (hb _ _ _ h1) _ _ _) fun _ => KeepsP.mk h1
  generalize (if learns = true then (bad true (packKey sel p a.lp true) s1).sourceCheck prof (packKey sel p a.lp true) a.lp else (false, s1)) = q at h2 ⊢
  obtain ⟨dropped, s2⟩ := q
  refine Keeps.ite (fun _ => h2.snd) fun _ => ?_
  extract_lets s3 hit
  have h3 : Keeps s0 s3 := Keeps.ite (fun _ => hb _ _ _ h2.snd) fun _ => h2.snd
  clear_value hit s3
  split
  · exact State.useResult_keeps (State.setHit_keeps h3 _) _ _ _
  · split
    · exact State.useResult_keeps h3 _ _ _
    · exact State.missAction_keeps (State.count_keeps h3 _) _ _

theorem tblReadBody_keeps {s0 t : State} (h : Keeps s0 t) (d : Desc) : Keeps s0 (tblReadBody d t) := by
  unfold tblReadBody
  iterate 40 all_goals try first
    | with_reducible assumption
    | (lift_lets -underBinder; intro y)
    | with_reducible apply State.done_keeps
    | with_reducible apply State.complete_keeps
    | with_reducible apply State.writeBufDone_keeps
    | (with_reducible apply State.withBuf_keeps <;> intros)
    | (with_reducible apply Keeps.ite <;> intros)

theorem execTblRead_keeps {s0 t : State} (h : Keeps s0 t) (d : Desc) : KeepsN s0 (execTblRead d t) := by
  unfold execTblRead
  iterate 40 all_goals try first
    | with_reducible assumption
    | (with_reducible apply ringCommand_keeps <;> intros)
    | with_reducible apply tblReadBody_keeps
    | with_reducible refine KeepsN.next ?_

theorem State.writeEntry_keeps {s0 t : State} (h : Keeps s0 t) (op : Nat) (r : List Byte) : KeepsP s0 (State.writeEntry t op r) := by
  unfold State.writeEntry
  iterate 40 all_goals try first
    | with_reducible assumption
    | (lift_lets -underBinder; intro y; with_reducible refine (fun (hy : Keeps s0 y) => ?_) ?_ <;> [clear_value y; subst y])
    | (lift_lets -underBinder; intro y)
    | with_reducible apply State.emInsert_keeps
    | with_reducible apply State.emPut_keeps
    | with_reducible apply State.placeEntry_keeps
    | with_reducible apply State.withLocus_keeps
    | (with_reducible apply KeepsP.ite <;> intros)
    | split
    | fail_if_no_progress with_reducible refine KeepsP.mk ?_
    | with_reducible refine KeepsP.of_eq (by with_reducible assumption) ?_

theorem State.writeHop_keeps {s0 t : State} (h : Keeps s0 t) (op : Nat) (r : List Byte) : KeepsP s0 (State.writeHop t op r) := by
  unfold State.writeHop
  iterate 40 all_goals try first
    | with_reducible assumption
    | (lift_lets -underBinder; intro y)
    | with_reducible apply State.withLocus_keeps
    | (with_reducible apply KeepsP.ite <;> intros)
    | split
    | fail_if_no_progress with_reducible refine KeepsP.mk ?_

theorem State.writeRecord_keeps {s0 t : State} (h : Keeps s0 t) (a1 : Nat) (op : Nat) (r : List Byte) : KeepsP s0 (State.writeRecord t a1 op r) := by
  unfold State.writeRecord
  iterate 40 all_goals try first
    | with_reducible assumption
    | (lift_lets -underBinder; intro y)
    | with_reducible apply State.writeEntry_keeps
    | with_reducible apply State.withLocus_keeps
    | with_reducible apply State.writeHop_keeps
    | split
    | fail_if_no_progress with_reducible refine KeepsP.mk ?_

theorem tblWriteGo_keeps {s0 t : State} (h : Keeps s0 t) (d : Desc) (buf : List Byte) (a : Nat) (a3 : Nat) : KeepsP s0 (tblWriteGo d buf a a3 t) := by
  induction a generalizing t a3 with
  | zero =>
    unfold tblWriteGo
    iterate 40 all_goals try first
      | with_reducible assumption
      | fail_if_no_progress with_reducible refine KeepsP.mk ?_
  | succ n ih =>
    unfold tblWriteGo
    iterate 40 all_goals try first
      | with_reducible apply ih
      | with_reducible assumption
      | (lift_lets -underBinder; intro y)
      | with_reducible apply State.writeRecord_keeps
      | (with_reducible apply KeepsP.ite <;> intros)
      | split
      | fail_if_no_progress with_reducible refine KeepsP.mk ?_
      | with_reducible refine KeepsP.of_eq (by with_reducible assumption) ?_

theorem tblDeleteGo_keeps {s0 t : State} (h : Keeps s0 t) (d : Desc) : KeepsP s0 (tblDeleteGo d t) := by
  unfold tblDeleteGo
  iterate 40 all_goals try first
    | with_reducible assumption
    | (lift_lets -underBinder; intro y; with_reducible refine (fun (hy : Keeps s0 y) => ?_) ?_ <;> [clear_value y; subst y])
    | with_reducible apply State.emPut_keeps
    | with_reducible apply State.count_keeps
    | (with_reducible apply KeepsP.ite <;> intros)
    | split
    | fail_if_no_progress with_reducible refine KeepsP.mk ?_

theorem tblLockGo_keeps {s0 t : State} (h : Keeps s0 t) (d : Desc) : KeepsP s0 (tblLockGo d t) := by
  unfold tblLockGo
  iterate 40 all_goals try first
    | with_reducible assumption
    | (lift_lets -underBinder; intro y)
    | with_reducible apply State.withLocus_keeps
    | (with_reducible apply KeepsP.ite <;> intros)
    | split
    | fail_if_no_progress with_reducible refine KeepsP.mk ?_

theorem tblGo_keeps {s0 t : State} (h : Keeps s0 t) (w : TblWait) : KeepsP s0 (tblGo w t) := by
  unfold tblGo
  iterate 40 all_goals try first
    | with_reducible assumption
    | with_reducible apply tblWriteGo_keeps
    | with_reducible apply tblDeleteGo_keeps
    | with_reducible apply tblLockGo_keeps
    | split

theorem State.startTbl_keeps {s0 t : State} (h : Keeps s0 t) (d : Desc) (buf : List Byte) : Keeps s0 (State.startTbl t d buf) := by
  unfold State.startTbl
  iterate 40 all_goals try first
    | with_reducible assumption
    | (lift_lets -underBinder; intro y)
    | with_reducible apply tblGo_keeps
    | with_reducible apply State.complete_keeps
    | with_reducible apply State.withLocus_keeps
    | split
    | with_reducible refine KeepsP.of_eq (by with_reducible assumption) ?_

theorem State.retryTbl_keeps {s0 t : State} (h : Keeps s0 t) : Keeps s0 (State.retryTbl t) := by
  unfold State.retryTbl
  iterate 40 all_goals try first
    | with_reducible assumption
    | (lift_lets -underBinder; intro y)
    | with_reducible apply tblGo_keeps
    | with_reducible apply State.complete_keeps
    | with_reducible apply State.withLocus_keeps
    | (with_reducible apply Keeps.foldl <;> intros)
    | split
    | with_reducible refine KeepsP.of_eq (by with_reducible assumption) ?_

theorem State.releaseLocks_keeps {s0 t : State} (h : Keeps s0 t) (p : Nat × Nat × Nat → Bool) : Keeps s0 (State.releaseLocks t p) := by
  unfold State.releaseLocks
  iterate 40 all_goals try first
    | with_reducible assumption
    | (lift_lets -underBinder; intro y)
    | with_reducible apply State.retryTbl_keeps
    | with_reducible apply State.withLocus_keeps

theorem tblWriteBody_keeps {s0 t : State} (h : Keeps s0 t) (d : Desc) : Keeps s0 (tblWriteBody d t) := by
  unfold tblWriteBody
  iterate 40 all_goals try first
    | with_reducible assumption
    | (lift_lets -underBinder; intro y)
    | with_reducible apply State.done_keeps
    | (with_reducible apply State.withBuf_keeps <;> intros)
    | with_reducible apply State.startTbl_keeps
    | (with_reducible apply Keeps.ite <;> intros)

theorem tblWrite_keeps {s0 t : State} (h : Keeps s0 t) (op : Nat) (d : Desc) : Keeps s0 (tblWrite op d t) := by
  unfold tblWrite
  iterate 40 all_goals try first
    | with_reducible assumption
    | (with_reducible apply ringCommand_keeps <;> intros)
    | with_reducible apply tblWriteBody_keeps
    | (with_reducible apply Keeps.ite <;> intros)

theorem execTblWriteInsert_keeps {s0 t : State} (h : Keeps s0 t) (d : Desc) : KeepsN s0 (execTblWriteInsert d t) := by
  unfold execTblWriteInsert
  iterate 40 all_goals try first
    | with_reducible assumption
    | with_reducible apply tblWrite_keeps
    | with_reducible refine KeepsN.next ?_

theorem execTblWriteReplace_keeps {s0 t : State} (h : Keeps s0 t) (d : Desc) : KeepsN s0 (execTblWriteReplace d t) := by
  unfold execTblWriteReplace
  iterate 40 all_goals try first
    | with_reducible assumption
    | with_reducible apply tblWrite_keeps
    | with_reducible refine KeepsN.next ?_

theorem execTblWriteDelete_keeps {s0 t : State} (h : Keeps s0 t) (d : Desc) : KeepsN s0 (execTblWriteDelete d t) := by
  unfold execTblWriteDelete
  iterate 40 all_goals try first
    | with_reducible assumption
    | with_reducible apply tblWrite_keeps
    | with_reducible refine KeepsN.next ?_

theorem execTblWriteClearHit_keeps {s0 t : State} (h : Keeps s0 t) (d : Desc) : KeepsN s0 (execTblWriteClearHit d t) := by
  unfold execTblWriteClearHit
  iterate 40 all_goals try first
    | with_reducible assumption
    | with_reducible apply tblWrite_keeps
    | with_reducible refine KeepsN.next ?_

theorem execTblDeleteIfIdle_keeps {s0 t : State} (h : Keeps s0 t) (d : Desc) : KeepsN s0 (execTblDeleteIfIdle d t) := by
  unfold execTblDeleteIfIdle
  iterate 40 all_goals try first
    | with_reducible assumption
    | (with_reducible apply ringCommand_keeps <;> intros)
    | with_reducible apply State.done_keeps
    | with_reducible apply State.startTbl_keeps
    | (with_reducible apply Keeps.ite <;> intros)
    | with_reducible refine KeepsN.next ?_

theorem execTblLock_keeps {s0 t : State} (h : Keeps s0 t) (d : Desc) : KeepsN s0 (execTblLock d t) := by
  unfold execTblLock
  iterate 40 all_goals try first
    | with_reducible assumption
    | (with_reducible apply ringCommand_keeps <;> intros)
    | with_reducible apply State.startTbl_keeps
    | with_reducible refine KeepsN.next ?_

theorem execTblUnlock_keeps {s0 t : State} (h : Keeps s0 t) (d : Desc) : KeepsN s0 (execTblUnlock d t) := by
  unfold execTblUnlock
  iterate 40 all_goals try first
    | with_reducible assumption
    | (lift_lets -underBinder; intro y)
    | (with_reducible apply ringCommand_keeps <;> intros)
    | with_reducible apply State.done_keeps
    | with_reducible apply State.releaseLocks_keeps
    | (with_reducible apply Keeps.ite <;> intros)
    | with_reducible refine KeepsN.next ?_
    | split

theorem execTblLockWaitTimeout_keeps {s0 t : State} (h : Keeps s0 t) (ring : Fin 64) (tag : BitVec 16) : KeepsN s0 (execTblLockWaitTimeout ring tag t) := by
  unfold execTblLockWaitTimeout
  iterate 40 all_goals try first
    | with_reducible assumption
    | (lift_lets -underBinder; intro y; with_reducible refine (fun (hy : Keeps s0 y) => ?_) ?_ <;> [clear_value y; subst y])
    | with_reducible apply State.passTo_keeps
    | with_reducible apply State.complete_keeps
    | with_reducible apply State.withLocus_keeps
    | with_reducible refine KeepsN.next ?_
    | split

theorem execTableLockLeaseExpiry_keeps {s0 t : State} (h : Keeps s0 t) (bucket : BitVec 18) : KeepsN s0 (execTableLockLeaseExpiry bucket t) := by
  unfold execTableLockLeaseExpiry
  iterate 40 all_goals try first
    | with_reducible assumption
    | (lift_lets -underBinder; intro y; with_reducible refine (fun (hy : Keeps s0 y) => ?_) ?_ <;> [clear_value y; subst y])
    | with_reducible apply State.passTo_keeps
    | with_reducible apply State.raise_keeps
    | with_reducible apply State.releaseLocks_keeps
    | with_reducible refine KeepsN.next ?_
    | split

theorem execClientFrameReceive_keeps {s0 t : State} (h : Keeps s0 t) (lp : Fin 64) (frame : List Byte) (perr : Bool) (em : List (Fin 4)) : KeepsN s0 (execClientFrameReceive lp frame perr em t) := by
  unfold execClientFrameReceive
  iterate 40 all_goals try first
    | with_reducible assumption
    | (lift_lets -underBinder; intro y)
    | with_reducible apply State.count_keeps
    | with_reducible apply State.classify_keeps
    | (with_reducible apply KeepsN.ite <;> intros)
    | with_reducible refine KeepsN.next ?_

theorem State.hold_keeps {s0 t : State} (h : Keeps s0 t) (r : LearnReq) : Keeps s0 (State.hold t r) := by
  unfold State.hold
  iterate 40 all_goals try first
    | with_reducible assumption
    | (lift_lets -underBinder; intro y)
    | with_reducible apply State.withLocus_keeps
    | with_reducible apply State.count_keeps
    | (with_reducible apply Keeps.ite <;> intros)

theorem State.flap_keeps {s0 t : State} (h : Keeps s0 t) (r : LearnReq) (old : Nat) : Keeps s0 (State.flap t r old) := by
  unfold State.flap
  iterate 40 all_goals try first
    | with_reducible assumption
    | (lift_lets -underBinder; intro y)
    | with_reducible apply State.withLocus_keeps
    | with_reducible apply State.raise_keeps
    | (with_reducible apply Keeps.ite <;> intros)

theorem State.applyLearn_keeps {s0 t : State} (h : Keeps s0 t) (r : LearnReq) : Keeps s0 (State.applyLearn t r) := by
  unfold State.applyLearn
  iterate 40 all_goals try first
    | with_reducible assumption
    | (lift_lets -underBinder; intro y)
    | with_reducible apply State.count_keeps
    | with_reducible apply State.emInsert_keeps
    | with_reducible apply State.hold_keeps
    | with_reducible apply State.setHit_keeps
    | with_reducible apply State.flap_keeps
    | with_reducible apply State.emPut_keeps
    | (with_reducible apply Keeps.ite <;> intros)
    | split
    | with_reducible refine KeepsP.of_eq (by with_reducible assumption) ?_

theorem execLearnRequestApply_keeps {s0 t : State} (h : Keeps s0 t) : KeepsN s0 (execLearnRequestApply t) := by
  unfold execLearnRequestApply
  iterate 40 all_goals try first
    | with_reducible assumption
    | (lift_lets -underBinder; intro y)
    | with_reducible apply State.applyLearn_keeps
    | with_reducible apply State.withLocus_keeps
    | with_reducible apply State.discardLearn_keeps
    | (with_reducible apply KeepsN.ite <;> intros)
    | with_reducible refine KeepsN.next ?_
    | split

theorem execMoveHoldExpiry_keeps {s0 t : State} (h : Keeps s0 t) (profile : Fin 16) (key : BitVec 128) : KeepsN s0 (execMoveHoldExpiry profile key t) := by
  unfold execMoveHoldExpiry
  iterate 40 all_goals try first
    | with_reducible assumption
    | (lift_lets -underBinder; intro y; with_reducible refine (fun (hy : Keeps s0 y) => ?_) ?_ <;> [clear_value y; subst y])
    | (lift_lets -underBinder; intro y)
    | with_reducible apply State.passTo_keeps
    | with_reducible apply State.withLocus_keeps
    | with_reducible refine KeepsN.next ?_
    | split

theorem State.emCfg_keeps {s0 t : State} (h : Keeps s0 t) (v : Nat) : Keeps s0 (State.emCfg t v) := by
  unfold State.emCfg
  iterate 40 all_goals try first
    | with_reducible assumption
    | (lift_lets -underBinder; intro y; with_reducible refine (fun (hy : Keeps s0 y) => ?_) ?_ <;> [clear_value y; subst y])
    | with_reducible apply State.setReg_keeps
    | with_reducible apply State.drbg_keeps
    | with_reducible apply State.withLocus_keeps
    | (with_reducible apply Keeps.ite <;> intros)
    | with_reducible apply KeepsP.snd

theorem execEmTableClear_keeps {s0 t : State} (h : Keeps s0 t) (value : Word32) : KeepsN s0 (execEmTableClear value t) := by
  unfold execEmTableClear
  iterate 40 all_goals try first
    | with_reducible assumption
    | with_reducible apply State.emCfg_keeps
    | (with_reducible apply KeepsN.ite <;> intros)
    | with_reducible refine KeepsN.next ?_

theorem State.scratchRead_keeps {s0 t : State} (h : Keeps s0 t) (c : Nat) (a : Nat) (n : Nat) (e : Ecc) : KeepsP s0 (State.scratchRead t c a n e) := by
  unfold State.scratchRead
  iterate 40 all_goals try first
    | with_reducible assumption
    | (lift_lets -underBinder; intro y)
    | with_reducible apply State.setCluster_keeps
    | with_reducible apply State.raiseOnce_keeps
    | with_reducible apply State.count_keeps
    | (with_reducible apply KeepsP.ite <;> intros)
    | split
    | fail_if_no_progress with_reducible refine KeepsP.mk ?_

theorem State.scratchWrite_keeps {s0 t : State} (h : Keeps s0 t) (c : Nat) (a : Nat) (bs : List Byte) : Keeps s0 (State.scratchWrite t c a bs) := by
  unfold State.scratchWrite
  iterate 40 all_goals try first
    | with_reducible assumption
    | (lift_lets -underBinder; intro y)
    | with_reducible apply State.setCluster_keeps

theorem State.lsRead_keeps {s0 t : State} (h : Keeps s0 t) (c : Nat) (k : Nat) (x : Ins) (n : Nat) (e : Ecc) : KeepsP s0 (State.lsRead t c k x n e) := by
  unfold State.lsRead
  iterate 40 all_goals try first
    | with_reducible assumption
    | (lift_lets -underBinder; intro y)
    | with_reducible apply State.scratchRead_keeps
    | (with_reducible apply KeepsP.ite <;> intros)
    | split
    | fail_if_no_progress with_reducible refine KeepsP.mk ?_
    | with_reducible refine KeepsP.of_eq (by with_reducible assumption) ?_

theorem State.lsWrite_keeps {s0 t : State} (h : Keeps s0 t) (c : Nat) (k : Nat) (x : Ins) (bs : List Byte) : KeepsE s0 (State.lsWrite t c k x bs) := by
  unfold State.lsWrite
  iterate 40 all_goals try first
    | with_reducible assumption
    | (lift_lets -underBinder; intro y)
    | with_reducible apply State.scratchWrite_keeps
    | with_reducible apply State.setCluster_keeps
    | (with_reducible apply KeepsE.ite <;> intros)
    | with_reducible refine KeepsE.error
    | with_reducible refine KeepsE.ok ?_

theorem execLd_keeps {s0 t : State} (h : Keeps s0 t) (i : Issue) (ecc : Ecc) : KeepsN s0 (execLd i ecc t) := by
  unfold execLd
  iterate 40 all_goals try first
    | with_reducible assumption
    | (with_reducible apply State.issue_keeps <;> intros)
    | with_reducible apply State.lsRead_keeps
    | with_reducible apply State.modThread_keeps
    | with_reducible refine KeepsN.next ?_
    | with_reducible refine KeepsA.go ?_
    | with_reducible refine KeepsA.fault ?_
    | split
    | with_reducible refine KeepsP.of_eq (by with_reducible assumption) ?_

theorem execSt_keeps {s0 t : State} (h : Keeps s0 t) (i : Issue) : KeepsN s0 (execSt i t) := by
  unfold execSt
  iterate 40 all_goals try first
    | with_reducible assumption
    | (with_reducible apply State.issue_keeps <;> intros)
    | with_reducible apply State.lsWrite_keeps
    | with_reducible refine KeepsN.next ?_
    | with_reducible refine KeepsA.go ?_
    | with_reducible refine KeepsA.fault ?_
    | split
    | with_reducible refine KeepsE.of_eq (by with_reducible assumption) ?_

theorem execLdb_keeps {s0 t : State} (h : Keeps s0 t) (i : Issue) (ecc : Ecc) : KeepsN s0 (execLdb i ecc t) := by
  unfold execLdb
  iterate 40 all_goals try first
    | with_reducible assumption
    | (with_reducible apply State.issue_keeps <;> intros)
    | with_reducible apply State.lsRead_keeps
    | with_reducible apply State.modThread_keeps
    | with_reducible refine KeepsN.next ?_
    | with_reducible refine KeepsA.go ?_
    | with_reducible refine KeepsA.fault ?_
    | split
    | with_reducible refine KeepsP.of_eq (by with_reducible assumption) ?_

theorem execStb_keeps {s0 t : State} (h : Keeps s0 t) (i : Issue) : KeepsN s0 (execStb i t) := by
  unfold execStb
  iterate 40 all_goals try first
    | with_reducible assumption
    | (with_reducible apply State.issue_keeps <;> intros)
    | with_reducible apply State.lsWrite_keeps
    | with_reducible refine KeepsN.next ?_
    | with_reducible refine KeepsA.go ?_
    | with_reducible refine KeepsA.fault ?_
    | split
    | with_reducible refine KeepsE.of_eq (by with_reducible assumption) ?_

theorem State.specRead_keeps {s0 t : State} (h : Keeps s0 t) (c : Nat) (k : Nat) (a : Nat) (n : Nat) : KeepsP s0 (State.specRead t c k a n) := by
  unfold State.specRead
  iterate 40 all_goals try first
    | with_reducible assumption
    | (lift_lets -underBinder; intro y)
    | with_reducible apply State.modThread_keeps
    | with_reducible apply State.draw_keeps
    | with_reducible apply State.refuse_keeps
    | (with_reducible apply Keeps.ite <;> intros)
    | split
    | fail_if_no_progress with_reducible refine KeepsP.mk ?_
    | with_reducible refine KeepsP.of_eq (by with_reducible assumption) ?_

theorem State.hbmLoad_keeps {s0 t : State} (h : Keeps s0 t) (c : Nat) (k : Nat) (x : Ins) (n : Nat) (put : List Byte → Thread → Thread) : KeepsA s0 (State.hbmLoad t c k x n put) := by
  unfold State.hbmLoad
  iterate 40 all_goals try first
    | with_reducible assumption
    | (lift_lets -underBinder; intro y)
    | with_reducible apply State.specRead_keeps
    | with_reducible apply State.modThread_keeps
    | (with_reducible apply KeepsA.ite <;> intros)
    | with_reducible refine KeepsA.go ?_
    | with_reducible refine KeepsA.fault ?_
    | split
    | with_reducible refine KeepsP.of_eq (by with_reducible assumption) ?_

theorem State.fenced_keeps {s0 t : State} (h : Keeps s0 t) (c k : Nat) {act : Act} (ha : KeepsA s0 act) : KeepsA s0 (t.fenced c k act) :=
  KeepsA.ite (fun _ => KeepsA.fault h) fun _ => ha

theorem State.hbmStore_keeps {s0 t : State} (h : Keeps s0 t) (c : Nat) (k : Nat) (x : Ins) (bs : List Byte) : KeepsA s0 (State.hbmStore t c k x bs) := by
  unfold State.hbmStore
  iterate 40 all_goals try first
    | with_reducible assumption
    | (lift_lets -underBinder; intro y)
    | with_reducible apply State.fenced_keeps
    | with_reducible apply State.writeMem_keeps
    | (with_reducible apply KeepsA.ite <;> intros)
    | with_reducible refine KeepsA.go ?_
    | with_reducible refine KeepsA.fault ?_
    | split
    | with_reducible refine KeepsP.of_eq (by with_reducible assumption) ?_

theorem execLdh_keeps {s0 t : State} (h : Keeps s0 t) (i : Issue) : KeepsN s0 (execLdh i t) := by
  unfold execLdh
  iterate 40 all_goals try first
    | with_reducible assumption
    | (with_reducible apply State.issue_keeps <;> intros)
    | with_reducible apply State.hbmLoad_keeps
    | with_reducible refine KeepsN.next ?_

theorem execSth_keeps {s0 t : State} (h : Keeps s0 t) (i : Issue) : KeepsN s0 (execSth i t) := by
  unfold execSth
  iterate 40 all_goals try first
    | with_reducible assumption
    | (with_reducible apply State.issue_keeps <;> intros)
    | with_reducible apply State.hbmStore_keeps
    | with_reducible refine KeepsN.next ?_

theorem execLdhb_keeps {s0 t : State} (h : Keeps s0 t) (i : Issue) : KeepsN s0 (execLdhb i t) := by
  unfold execLdhb
  iterate 40 all_goals try first
    | with_reducible assumption
    | (with_reducible apply State.issue_keeps <;> intros)
    | with_reducible apply State.hbmLoad_keeps
    | with_reducible refine KeepsN.next ?_

theorem execSthb_keeps {s0 t : State} (h : Keeps s0 t) (i : Issue) : KeepsN s0 (execSthb i t) := by
  unfold execSthb
  iterate 40 all_goals try first
    | with_reducible assumption
    | (with_reducible apply State.issue_keeps <;> intros)
    | with_reducible apply State.hbmStore_keeps
    | with_reducible refine KeepsN.next ?_

theorem execVfence_keeps {s0 t : State} (h : Keeps s0 t) (i : Issue) : KeepsN s0 (execVfence i t) := by
  unfold execVfence
  iterate 40 all_goals try first
    | with_reducible assumption
    | (with_reducible apply State.issue_keeps <;> intros)
    | with_reducible apply State.fenced_keeps
    | with_reducible refine KeepsN.next ?_
    | with_reducible refine KeepsA.go ?_

theorem State.stagingParity_keeps {s0 t : State} (h : Keeps s0 t) (c : Nat) (k : Nat) (off : Nat) : Keeps s0 (State.stagingParity t c k off) := by
  unfold State.stagingParity
  iterate 40 all_goals try first
    | with_reducible assumption
    | with_reducible apply State.discardUnder_keeps
    | with_reducible apply State.parityError_keeps
    | split

theorem State.frameLoad_keeps {s0 t : State} (h : Keeps s0 t) (c : Nat) (k : Nat) (x : Ins) (perr : Bool) (put : List Byte → Thread → Thread) : KeepsA s0 (State.frameLoad t c k x perr put) := by
  unfold State.frameLoad
  iterate 40 all_goals try first
    | with_reducible assumption
    | with_reducible apply State.draw_keeps
    | with_reducible apply State.modThread_keeps
    | with_reducible apply State.stagingParity_keeps
    | (with_reducible apply KeepsA.ite <;> intros)
    | with_reducible refine KeepsA.go ?_
    | with_reducible refine KeepsA.fault ?_
    | with_reducible apply KeepsP.snd

theorem State.frameStore_keeps {s0 t : State} (h : Keeps s0 t) (c : Nat) (k : Nat) (x : Ins) (bs : List Byte) : KeepsA s0 (State.frameStore t c k x bs) := by
  unfold State.frameStore
  iterate 40 all_goals try first
    | with_reducible assumption
    | with_reducible apply State.setFrame_keeps
    | (with_reducible apply KeepsA.ite <;> intros)
    | with_reducible refine KeepsA.go ?_
    | with_reducible refine KeepsA.fault ?_

theorem execFget_keeps {s0 t : State} (h : Keeps s0 t) (i : Issue) (perr : Bool) : KeepsN s0 (execFget i perr t) := by
  unfold execFget
  iterate 40 all_goals try first
    | with_reducible assumption
    | (with_reducible apply State.issue_keeps <;> intros)
    | with_reducible apply State.frameLoad_keeps
    | with_reducible refine KeepsN.next ?_

theorem execFput_keeps {s0 t : State} (h : Keeps s0 t) (i : Issue) : KeepsN s0 (execFput i t) := by
  unfold execFput
  iterate 40 all_goals try first
    | with_reducible assumption
    | (with_reducible apply State.issue_keeps <;> intros)
    | with_reducible apply State.frameStore_keeps
    | with_reducible refine KeepsN.next ?_

theorem execFgetb_keeps {s0 t : State} (h : Keeps s0 t) (i : Issue) (perr : Bool) : KeepsN s0 (execFgetb i perr t) := by
  unfold execFgetb
  iterate 40 all_goals try first
    | with_reducible assumption
    | (with_reducible apply State.issue_keeps <;> intros)
    | with_reducible apply State.frameLoad_keeps
    | with_reducible refine KeepsN.next ?_

theorem execFputb_keeps {s0 t : State} (h : Keeps s0 t) (i : Issue) : KeepsN s0 (execFputb i t) := by
  unfold execFputb
  iterate 40 all_goals try first
    | with_reducible assumption
    | (with_reducible apply State.issue_keeps <;> intros)
    | with_reducible apply State.frameStore_keeps
    | with_reducible refine KeepsN.next ?_

theorem State.atomic_keeps {s0 t : State} (h : Keeps s0 t) (c : Nat) (k : Nat) (x : Ins) (e : Ecc) (f : Thread → BitVec 64 → Option (BitVec 64)) (put : BitVec 64 → Thread → Thread) : KeepsA s0 (State.atomic t c k x e f put) := by
  unfold State.atomic
  iterate 40 all_goals try first
    | with_reducible assumption
    | (lift_lets -underBinder; intro y)
    | with_reducible apply State.scratchRead_keeps
    | with_reducible apply State.scratchWrite_keeps
    | with_reducible apply State.modThread_keeps
    | (with_reducible apply KeepsA.ite <;> intros)
    | with_reducible refine KeepsA.go ?_
    | with_reducible refine KeepsA.fault ?_
    | split
    | with_reducible refine KeepsP.of_eq (by with_reducible assumption) ?_

theorem execCas_keeps {s0 t : State} (h : Keeps s0 t) (i : Issue) (ecc : Ecc) : KeepsN s0 (execCas i ecc t) := by
  unfold execCas
  iterate 40 all_goals try first
    | with_reducible assumption
    | (with_reducible apply State.issue_keeps <;> intros)
    | with_reducible apply State.atomic_keeps
    | with_reducible refine KeepsN.next ?_

theorem execFadd_keeps {s0 t : State} (h : Keeps s0 t) (i : Issue) (ecc : Ecc) : KeepsN s0 (execFadd i ecc t) := by
  unfold execFadd
  iterate 40 all_goals try first
    | with_reducible assumption
    | (with_reducible apply State.issue_keeps <;> intros)
    | with_reducible apply State.atomic_keeps
    | with_reducible refine KeepsN.next ?_

theorem State.startOp_keeps {s0 t : State} (h : Keeps s0 t) (recv : Bool) (ph : Option Bool) (h1 : Nat) : KeepsP s0 (State.startOp t recv ph h1) := by
  unfold State.startOp
  iterate 40 all_goals try first
    | with_reducible assumption
    | (lift_lets -underBinder; intro y; with_reducible refine (fun (hy : Keeps s0 y) => ?_) ?_ <;> [clear_value y; subst y])
    | (lift_lets -underBinder; intro y)
    | with_reducible apply State.opStart_keeps
    | with_reducible apply State.setSa_keeps
    | split
    | fail_if_no_progress with_reducible refine KeepsP.mk ?_

theorem saload_keeps {s0 t : State} (h : Keeps s0 t) (c : Nat) (k : Nat) (x : Ins) : KeepsA s0 (saload c k x t) := by
  unfold saload
  iterate 40 all_goals try first
    | with_reducible assumption
    | (lift_lets -underBinder; intro y)
    | with_reducible apply State.startOp_keeps
    | with_reducible apply State.takeLock_keeps
    | with_reducible apply State.modItem_keeps
    | with_reducible apply State.modThread_keeps
    | (with_reducible apply Keeps.ite <;> intros)
    | (with_reducible apply KeepsA.ite <;> intros)
    | with_reducible refine KeepsA.go ?_
    | with_reducible refine KeepsA.fault ?_
    | split
    | with_reducible apply KeepsP.snd

theorem execSaload_keeps {s0 t : State} (h : Keeps s0 t) (i : Issue) : KeepsN s0 (execSaload i t) := by
  unfold execSaload
  iterate 40 all_goals try first
    | with_reducible assumption
    | (with_reducible apply State.issue_keeps <;> intros)
    | with_reducible apply saload_keeps
    | with_reducible refine KeepsN.next ?_

theorem State.takePn_keeps {s0 t : State} (h : Keeps s0 t) (c : Nat) (h1 : Nat) (ph : Bool) (slot : Nat) (gen : BitVec 32) : KeepsP s0 (State.takePn t c h1 ph slot gen) := by
  unfold State.takePn
  iterate 40 all_goals try first
    | with_reducible assumption
    | (lift_lets -underBinder; intro y; with_reducible refine (fun (hy : Keeps s0 y) => ?_) ?_ <;> [clear_value y; subst y])
    | with_reducible apply State.pnTake_keeps
    | with_reducible apply State.untake_keeps
    | with_reducible apply State.setUnit_keeps
    | split
    | fail_if_no_progress with_reducible refine KeepsP.mk ?_
    | with_reducible refine KeepsP.of_eq (by with_reducible assumption) ?_

theorem pntake_keeps {s0 t : State} (h : Keeps s0 t) (c : Nat) (k : Nat) (x : Ins) : KeepsA s0 (pntake c k x t) := by
  unfold pntake
  iterate 40 all_goals try first
    | with_reducible assumption
    | (lift_lets -underBinder; intro y; with_reducible refine (fun (hy : Keeps s0 y) => ?_) ?_ <;> [clear_value y; subst y])
    | (lift_lets -underBinder; intro y)
    | with_reducible apply State.takePn_keeps
    | with_reducible apply State.modItem_keeps
    | with_reducible apply State.modThread_keeps
    | (with_reducible apply KeepsA.ite <;> intros)
    | with_reducible refine KeepsA.go ?_
    | with_reducible refine KeepsA.fault ?_
    | split
    | with_reducible refine KeepsP.of_eq (by with_reducible assumption) ?_

theorem execPntake_keeps {s0 t : State} (h : Keeps s0 t) (i : Issue) : KeepsN s0 (execPntake i t) := by
  unfold execPntake
  iterate 40 all_goals try first
    | with_reducible assumption
    | (with_reducible apply State.issue_keeps <;> intros)
    | with_reducible apply pntake_keeps
    | with_reducible refine KeepsN.next ?_

theorem execCld_keeps {s0 t : State} (h : Keeps s0 t) (i : Issue) : KeepsN s0 (execCld i t) := by
  unfold execCld
  iterate 40 all_goals try first
    | with_reducible assumption
    | (lift_lets -underBinder; intro y)
    | (with_reducible apply State.issue_keeps <;> intros)
    | with_reducible apply State.modThread_keeps
    | (with_reducible apply KeepsA.ite <;> intros)
    | with_reducible refine KeepsN.next ?_
    | with_reducible refine KeepsA.go ?_
    | with_reducible refine KeepsA.fault ?_
    | split

theorem execCst_keeps {s0 t : State} (h : Keeps s0 t) (i : Issue) : KeepsN s0 (execCst i t) := by
  unfold execCst
  iterate 40 all_goals try first
    | with_reducible assumption
    | (lift_lets -underBinder; intro y)
    | (with_reducible apply State.issue_keeps <;> intros)
    | with_reducible apply State.setSa_keeps
    | (with_reducible apply KeepsA.ite <;> intros)
    | with_reducible refine KeepsN.next ?_
    | with_reducible refine KeepsA.go ?_
    | with_reducible refine KeepsA.fault ?_
    | split
    | intro _

theorem State.hTouch_keeps {s0 t : State} (h : Keeps s0 t) (n : Nat) (slot : Nat) (gen : BitVec 32) : Keeps s0 (State.hTouch t n slot gen) := by
  unfold State.hTouch
  iterate 40 all_goals try first
    | with_reducible assumption
    | (lift_lets -underBinder; intro y)
    | with_reducible apply State.count_keeps
    | with_reducible apply State.setUnit_keeps
    | (with_reducible apply Keeps.ite <;> intros)

theorem State.cacheKey_keeps {s0 t : State} (h : Keeps s0 t) (i : RItem) (gen : BitVec 32) (q : Shares) : Keeps s0 (State.cacheKey t i gen q) := by
  unfold State.cacheKey
  iterate 40 all_goals try first
    | with_reducible assumption
    | (lift_lets -underBinder; intro y)
    | with_reducible apply State.withRadius_keeps

theorem State.derive_keeps {s0 t : State} (h : Keeps s0 t) (i : RItem) : Keeps s0 (State.derive t i) := by
  unfold State.derive
  iterate 40 all_goals try first
    | with_reducible assumption
    | (lift_lets -underBinder; intro y)
    | with_reducible apply State.drbg_keeps
    | with_reducible apply State.opStart_keeps
    | with_reducible apply State.endRoot_keeps
    | with_reducible apply State.cacheKey_keeps
    | with_reducible apply State.modRItem_keeps
    | with_reducible apply KeepsP.snd

theorem State.runDesc_keeps {s0 t : State} (h : Keeps s0 t) (c : Nat) (k : Nat) (d : BlockDesc) : Keeps s0 (State.runDesc t c k d) := by
  unfold State.runDesc
  iterate 40 all_goals try first
    | with_reducible assumption
    | (lift_lets -underBinder; intro y)
    | with_reducible apply State.modThread_keeps
    | with_reducible apply State.countN_keeps
    | with_reducible apply State.derive_keeps
    | with_reducible apply State.setFrame_keeps
    | with_reducible apply State.hTouch_keeps
    | (with_reducible apply Keeps.ite <;> intros)
    | split

theorem State.descParity_keeps {s0 t : State} (h : Keeps s0 t) (c : Nat) (k : Nat) (d : BlockDesc) : KeepsP s0 (State.descParity t c k d) := by
  unfold State.descParity
  iterate 40 all_goals try first
    | with_reducible assumption
    | (lift_lets -underBinder; intro y; with_reducible refine (fun (hy : Keeps s0 y) => ?_) ?_ <;> [clear_value y; subst y])
    | with_reducible apply State.draw_keeps
    | with_reducible apply State.stagingParity_keeps
    | with_reducible apply State.modThread_keeps
    | split
    | fail_if_no_progress with_reducible refine KeepsP.mk ?_
    | with_reducible refine KeepsP.of_eq (by with_reducible assumption) ?_

theorem State.takeDesc_keeps {s0 t : State} (h : Keeps s0 t) (c : Nat) (k : Nat) (d : BlockDesc) : KeepsP s0 (State.takeDesc t c k d) := by
  unfold State.takeDesc
  iterate 40 all_goals try first
    | with_reducible assumption
    | with_reducible apply State.runDesc_keeps
    | fail_if_no_progress with_reducible refine KeepsP.mk ?_

theorem State.runHeld_keeps {s0 t : State} (h : Keeps s0 t) (k : Nat) : Keeps s0 (State.runHeld t k) := by
  unfold State.runHeld
  iterate 40 all_goals try first
    | with_reducible assumption
    | with_reducible apply State.takeDesc_keeps
    | with_reducible apply State.modThread_keeps
    | (with_reducible apply Keeps.foldl <;> intros)
    | split
    | with_reducible apply KeepsP.snd

theorem blockIssue_keeps {s0 t : State} (h : Keeps s0 t) (perr : Bool) (c : Nat) (k : Nat) (x : Ins) : KeepsA s0 (blockIssue perr c k x t) := by
  unfold blockIssue
  iterate 40 all_goals try first
    | with_reducible assumption
    | (lift_lets -underBinder; intro y)
    | with_reducible apply State.descParity_keeps
    | with_reducible apply State.takeDesc_keeps
    | with_reducible apply State.runHeld_keeps
    | with_reducible apply State.modItem_keeps
    | with_reducible apply State.modThread_keeps
    | (with_reducible apply Keeps.ite <;> intros)
    | (with_reducible apply KeepsA.ite <;> intros)
    | with_reducible refine KeepsA.go ?_
    | with_reducible refine KeepsA.fault ?_
    | split
    | with_reducible apply KeepsP.snd

theorem execBenc_keeps {s0 t : State} (h : Keeps s0 t) (o : BlockIssue) : KeepsN s0 (execBenc o t) := by
  unfold execBenc
  iterate 40 all_goals try first
    | with_reducible assumption
    | (with_reducible apply State.issue_keeps <;> intros)
    | with_reducible apply blockIssue_keeps
    | with_reducible refine KeepsN.next ?_

theorem execBdec_keeps {s0 t : State} (h : Keeps s0 t) (o : BlockIssue) : KeepsN s0 (execBdec o t) := by
  unfold execBdec
  iterate 40 all_goals try first
    | with_reducible assumption
    | (with_reducible apply State.issue_keeps <;> intros)
    | with_reducible apply blockIssue_keeps
    | with_reducible refine KeepsN.next ?_

theorem execBctr_keeps {s0 t : State} (h : Keeps s0 t) (o : BlockIssue) : KeepsN s0 (execBctr o t) := by
  unfold execBctr
  iterate 40 all_goals try first
    | with_reducible assumption
    | (with_reducible apply State.issue_keeps <;> intros)
    | with_reducible apply blockIssue_keeps
    | with_reducible refine KeepsN.next ?_

theorem execGfacc_keeps {s0 t : State} (h : Keeps s0 t) (o : BlockIssue) : KeepsN s0 (execGfacc o t) := by
  unfold execGfacc
  iterate 40 all_goals try first
    | with_reducible assumption
    | (with_reducible apply State.issue_keeps <;> intros)
    | with_reducible apply blockIssue_keeps
    | with_reducible refine KeepsN.next ?_

theorem execTagfin_keeps {s0 t : State} (h : Keeps s0 t) (o : BlockIssue) : KeepsN s0 (execTagfin o t) := by
  unfold execTagfin
  iterate 40 all_goals try first
    | with_reducible assumption
    | (with_reducible apply State.issue_keeps <;> intros)
    | with_reducible apply blockIssue_keeps
    | with_reducible refine KeepsN.next ?_

theorem execTagcmp_keeps {s0 t : State} (h : Keeps s0 t) (o : BlockIssue) : KeepsN s0 (execTagcmp o t) := by
  unfold execTagcmp
  iterate 40 all_goals try first
    | with_reducible assumption
    | (with_reducible apply State.issue_keeps <;> intros)
    | with_reducible apply blockIssue_keeps
    | with_reducible refine KeepsN.next ?_

theorem State.mapSlot_keeps {s0 t : State} (h : Keeps s0 t) (n : Nat) (a2 : Nat) (aisP : Bool) (blocks : List (BitVec 66)) : KeepsP s0 (State.mapSlot t n a2 aisP blocks) := by
  unfold State.mapSlot
  iterate 40 all_goals try first
    | with_reducible assumption
    | (lift_lets -underBinder; intro y)
    | with_reducible apply State.setFacet_keeps
    | with_reducible apply State.raise_keeps
    | (with_reducible apply KeepsP.ite <;> intros)
    | split
    | fail_if_no_progress with_reducible refine KeepsP.mk ?_

theorem State.mgmtSegment_keeps {s0 t : State} (h : Keeps s0 t) (n : Nat) : KeepsP s0 (State.mgmtSegment t n) := by
  unfold State.mgmtSegment
  iterate 40 all_goals try first
    | with_reducible assumption
    | (lift_lets -underBinder; intro y)
    | with_reducible apply State.setFacet_keeps
    | with_reducible apply State.done_keeps
    | (with_reducible apply Keeps.ite <;> intros)
    | split
    | fail_if_no_progress with_reducible refine KeepsP.mk ?_

theorem State.nextMfc_keeps {s0 t : State} (h : Keeps s0 t) (n : Nat) : Keeps s0 (State.nextMfc t n) := by
  unfold State.nextMfc
  iterate 40 all_goals try first
    | with_reducible assumption
    | with_reducible apply State.modFacet_keeps

theorem State.facetBuild_keeps {s0 t : State} (h : Keeps s0 t) (n : Nat) (client : List ClientBlocks) : KeepsP s0 (State.facetBuild t n client) := by
  unfold State.facetBuild
  iterate 40 all_goals try first
    | with_reducible assumption
    | (lift_lets -underBinder; intro y)
    | with_reducible apply State.mapSlot_keeps
    | with_reducible apply State.mgmtSegment_keeps
    | with_reducible apply State.nextMfc_keeps
    | (with_reducible apply KeepsP.foldl <;> intros)
    | split
    | fail_if_no_progress with_reducible refine KeepsP.mk ?_
    | with_reducible refine KeepsP.of_eq (by with_reducible assumption) ?_

theorem State.sendFacet_keeps {s0 t : State} (h : Keeps s0 t) (n : Nat) (frame : List Byte) : Keeps s0 (State.sendFacet t n frame) := by
  unfold State.sendFacet
  iterate 40 all_goals try first
    | with_reducible assumption
    | (lift_lets -underBinder; intro y)
    | with_reducible apply State.modFacet_keeps
    | with_reducible apply State.lineStream_keeps
    | with_reducible apply State.emit_keeps

theorem State.sendAis_keeps {s0 t : State} (h : Keeps s0 t) (n : Nat) : Keeps s0 (State.sendAis t n) := by
  unfold State.sendAis
  iterate 40 all_goals try first
    | with_reducible assumption
    | (lift_lets -underBinder; intro y)
    | with_reducible apply State.nextMfc_keeps
    | with_reducible apply State.modFacet_keeps
    | with_reducible apply State.lineStream_keeps
    | with_reducible apply State.emit_keeps

theorem State.sendKeyed_keeps {s0 t : State} (h : Keeps s0 t) (n : Nat) (h1 : Nat) (ctr : Nat) (octets : Nat) (frame : List Byte) : Keeps s0 (State.sendKeyed t n h1 ctr octets frame) := by
  unfold State.sendKeyed
  iterate 40 all_goals try first
    | with_reducible assumption
    | (lift_lets -underBinder; intro y; with_reducible refine (fun (hy : Keeps s0 y) => ?_) ?_ <;> [clear_value y; subst y])
    | with_reducible apply State.stat_keeps
    | with_reducible apply State.sendFacet_keeps
    | with_reducible apply State.facetStamp_keeps
    | with_reducible apply State.modFacet_keeps

theorem State.sendUnkeyed_keeps {s0 t : State} (h : Keeps s0 t) (n : Nat) (h1 : Option Nat) (i : Nat) (frame : List Byte) : Keeps s0 (State.sendUnkeyed t n h1 i frame) := by
  unfold State.sendUnkeyed
  iterate 40 all_goals try first
    | with_reducible assumption
    | (lift_lets -underBinder; intro y; with_reducible refine (fun (hy : Keeps s0 y) => ?_) ?_ <;> [clear_value y; subst y])
    | with_reducible apply State.stat_keeps
    | with_reducible apply State.modFacet_keeps
    | with_reducible apply State.raise_keeps
    | with_reducible apply State.sendFacet_keeps
    | (with_reducible apply Keeps.ite <;> intros)
    | split

theorem State.toClient_keeps {s0 t : State} (h : Keeps s0 t) (n : Nat) (a2 : Nat) (bs : List (Option (BitVec 66))) : Keeps s0 (State.toClient t n a2 bs) := by
  unfold State.toClient
  iterate 40 all_goals try first
    | with_reducible assumption
    | (lift_lets -underBinder; intro y)
    | with_reducible apply State.emit_keeps
    | (with_reducible apply Keeps.ite <;> intros)

theorem State.feedSlot_keeps {s0 t : State} (h : Keeps s0 t) (n : Nat) (a2 : Nat) (bits : List Bool) (gone : Bool) : Keeps s0 (State.feedSlot t n a2 bits gone) := by
  unfold State.feedSlot
  iterate 40 all_goals try first
    | with_reducible assumption
    | (lift_lets -underBinder; intro y)
    | with_reducible apply State.toClient_keeps
    | with_reducible apply State.setFacet_keeps

theorem State.loseBits_keeps {s0 t : State} (h : Keeps s0 t) (n : Nat) (a2 : Nat) (k : Nat) : Keeps s0 (State.loseBits t n a2 k) := by
  unfold State.loseBits
  iterate 40 all_goals try first
    | with_reducible assumption
    | with_reducible apply State.feedSlot_keeps

theorem State.pathCheck_keeps {s0 t : State} (h : Keeps s0 t) (n : Nat) (a2 : Nat) (c : RxContainer) : Keeps s0 (State.pathCheck t n a2 c) := by
  unfold State.pathCheck
  iterate 40 all_goals try first
    | with_reducible assumption
    | (lift_lets -underBinder; intro y)
    | with_reducible apply State.setFacet_keeps
    | with_reducible apply State.slotDefect_keeps
    | with_reducible apply State.raise_keeps
    | (with_reducible apply Keeps.ite <;> intros)

theorem State.alignBlock_keeps {s0 t : State} (h : Keeps s0 t) (n : Nat) (a2 : Nat) (bo : Nat) : Keeps s0 (State.alignBlock t n a2 bo) := by
  unfold State.alignBlock
  iterate 40 all_goals try first
    | with_reducible assumption
    | (lift_lets -underBinder; intro y)
    | with_reducible apply State.toClient_keeps
    | with_reducible apply State.setFacet_keeps
    | with_reducible apply State.raiseOnce_keeps
    | (with_reducible apply Keeps.ite <;> intros)

theorem State.deliver_keeps {s0 t : State} (h : Keeps s0 t) (n : Nat) (a2 : Nat) (c : RxContainer) : Keeps s0 (State.deliver t n a2 c) := by
  unfold State.deliver
  iterate 40 all_goals try first
    | with_reducible assumption
    | (lift_lets -underBinder; intro y; with_reducible refine (fun (hy : Keeps s0 y) => ?_) ?_ <;> [clear_value y; subst y])
    | with_reducible apply State.pathCheck_keeps
    | with_reducible apply State.setFacet_keeps
    | with_reducible apply State.alignBlock_keeps
    | with_reducible apply State.feedSlot_keeps

theorem State.ptrEnter_keeps {s0 t : State} (h : Keeps s0 t) (n : Nat) (a2 : Nat) (m : PtrMode) : Keeps s0 (State.ptrEnter t n a2 m) := by
  unfold State.ptrEnter
  iterate 40 all_goals try first
    | with_reducible assumption
    | (lift_lets -underBinder; intro y; with_reducible refine (fun (hy : Keeps s0 y) => ?_) ?_ <;> [clear_value y; subst y])
    | with_reducible apply State.modFacet_keeps
    | with_reducible apply State.slotDefect_keeps

theorem State.pointer_keeps {s0 t : State} (h : Keeps s0 t) (n : Nat) (a2 : Nat) (w : PtrWord) : KeepsP s0 (State.pointer t n a2 w) := by
  unfold State.pointer
  iterate 40 all_goals try first
    | with_reducible assumption
    | (lift_lets -underBinder; intro y)
    | with_reducible apply State.setFacet_keeps
    | with_reducible apply State.modFacet_keeps
    | with_reducible apply State.ptrEnter_keeps
    | (with_reducible apply KeepsP.ite <;> intros)
    | split
    | fail_if_no_progress with_reducible refine KeepsP.mk ?_

theorem State.demapSlot_keeps {s0 t : State} (h : Keeps s0 t) (n : Nat) (a2 : Nat) (word : Nat) (stuff : Nat) (mfc : BitVec 8) (njo : BitVec 128) (cols : List (BitVec 128)) : Keeps s0 (State.demapSlot t n a2 word stuff mfc njo cols) := by
  unfold State.demapSlot
  iterate 40 all_goals try first
    | with_reducible assumption
    | (lift_lets -underBinder; intro y; with_reducible refine (fun (hy : Keeps s0 y) => ?_) ?_ <;> [clear_value y; subst y])
    | (lift_lets -underBinder; intro y)
    | with_reducible apply State.pointer_keeps
    | with_reducible apply State.modFacet_keeps
    | with_reducible apply State.deliver_keeps
    | with_reducible apply State.loseBits_keeps
    | (with_reducible apply Keeps.ite <;> intros)
    | split
    | with_reducible apply KeepsP.snd

theorem State.loseSlot_keeps {s0 t : State} (h : Keeps s0 t) (n : Nat) (a2 : Nat) : Keeps s0 (State.loseSlot t n a2) := by
  unfold State.loseSlot
  iterate 40 all_goals try first
    | with_reducible assumption
    | (lift_lets -underBinder; intro y)
    | with_reducible apply State.feedSlot_keeps
    | with_reducible apply State.alignBlock_keeps
    | with_reducible apply State.loseBits_keeps
    | with_reducible apply State.modFacet_keeps
    | (with_reducible apply Keeps.ite <;> intros)
    | split

theorem State.mgmtDeliver_keeps {s0 t : State} (h : Keeps s0 t) (n : Nat) (h1 : Nat) (clear : Bool) (m : List Byte) : Keeps s0 (State.mgmtDeliver t n h1 clear m) := by
  unfold State.mgmtDeliver
  iterate 40 all_goals try first
    | with_reducible assumption
    | (lift_lets -underBinder; intro y; with_reducible refine (fun (hy : Keeps s0 y) => ?_) ?_ <;> [clear_value y; subst y])
    | with_reducible apply State.emit_keeps
    | with_reducible apply State.annPut_keeps
    | with_reducible apply State.raiseOnce_keeps
    | with_reducible apply State.count_keeps
    | (with_reducible apply Keeps.ite <;> intros)

theorem State.mgmtTake_keeps {s0 t : State} (h : Keeps s0 t) (n : Nat) (cls : Option FacetFrameClass) (keyed : Bool) (h1 : Nat) (seg : List Byte) : Keeps s0 (State.mgmtTake t n cls keyed h1 seg) := by
  unfold State.mgmtTake
  iterate 40 all_goals try first
    | with_reducible assumption
    | (lift_lets -underBinder; intro y)
    | with_reducible apply State.modFacet_keeps
    | with_reducible apply State.dropMgmt_keeps
    | with_reducible apply State.raise_keeps
    | with_reducible apply State.count_keeps
    | with_reducible apply State.mgmtDeliver_keeps
    | (with_reducible apply Keeps.ite <;> intros)
    | split

theorem State.facetPhase_keeps {s0 t : State} (h : Keeps s0 t) (h1 : Nat) (ph : Bool) : Keeps s0 (State.facetPhase t h1 ph) := by
  unfold State.facetPhase
  iterate 40 all_goals try first
    | with_reducible assumption
    | (lift_lets -underBinder; intro y)
    | with_reducible apply State.setSa_keeps
    | (with_reducible apply Keeps.ite <;> intros)

theorem State.facetTagFailed_keeps {s0 t : State} (h : Keeps s0 t) (n : Nat) : Keeps s0 (State.facetTagFailed t n) := by
  unfold State.facetTagFailed
  iterate 40 all_goals try first
    | with_reducible assumption
    | with_reducible apply State.modFacet_keeps

theorem State.facetAtOnce_keeps {s0 t : State} (h : Keeps s0 t) (n : Nat) (frame : List Byte) : KeepsP s0 (State.facetAtOnce t n frame) := by
  unfold State.facetAtOnce
  iterate 40 all_goals try first
    | with_reducible assumption
    | (lift_lets -underBinder; intro y)
    | with_reducible apply State.facetTagFailed_keeps
    | with_reducible apply State.raiseOnce_keeps
    | with_reducible apply State.count_keeps
    | with_reducible apply State.stat_keeps
    | (with_reducible apply KeepsP.ite <;> intros)
    | split
    | fail_if_no_progress with_reducible refine KeepsP.mk ?_

theorem State.facetVerified_keeps {s0 t : State} (h : Keeps s0 t) (h1 : Nat) (ctr : Nat) (octets : Nat) (ph : Bool) : KeepsP s0 (State.facetVerified t h1 ctr octets ph) := by
  unfold State.facetVerified
  iterate 40 all_goals try first
    | with_reducible assumption
    | (lift_lets -underBinder; intro y)
    | with_reducible apply State.stat_keeps
    | with_reducible apply State.facetPhase_keeps
    | with_reducible apply State.setSa_keeps
    | (with_reducible apply KeepsP.ite <;> intros)
    | fail_if_no_progress with_reducible refine KeepsP.mk ?_

theorem State.classRuns_keeps {s0 t : State} (h : Keeps s0 t) (n : Nat) (c : FacetFrameClass) (keyState : Nat) : Keeps s0 (State.classRuns t n c keyState) := by
  unfold State.classRuns
  iterate 40 all_goals try first
    | with_reducible assumption
    | (lift_lets -underBinder; intro y)
    | with_reducible apply State.setFacet_keeps
    | with_reducible apply State.clearSection_keeps
    | with_reducible apply State.declare_keeps
    | (with_reducible apply Keeps.ite <;> intros)

theorem State.readStatus_keeps {s0 t : State} (h : Keeps s0 t) (n : Nat) (b : Byte) : Keeps s0 (State.readStatus t n b) := by
  unfold State.readStatus
  iterate 40 all_goals try first
    | with_reducible assumption
    | (lift_lets -underBinder; intro y)
    | with_reducible apply State.raiseSet_keeps
    | with_reducible apply State.setFacet_keeps
    | (with_reducible apply Keeps.ite <;> intros)

theorem State.sectionBip_keeps {s0 t : State} (h : Keeps s0 t) (n : Nat) (frame : List Byte) : Keeps s0 (State.sectionBip t n frame) := by
  unfold State.sectionBip
  iterate 40 all_goals try first
    | with_reducible assumption
    | with_reducible apply State.modFacet_keeps

theorem State.aisS_keeps {s0 t : State} (h : Keeps s0 t) (n : Nat) (on : Bool) : Keeps s0 (State.aisS t n on) := by
  unfold State.aisS
  iterate 40 all_goals try first
    | with_reducible assumption
    | (lift_lets -underBinder; intro y)
    | with_reducible apply State.setFacet_keeps
    | with_reducible apply State.declare_keeps
    | with_reducible apply State.clearSection_keeps
    | (with_reducible apply Keeps.ite <;> intros)

theorem State.facetFinish_keeps {s0 t : State} (h : Keeps s0 t) (n : Nat) (h1 : Nat) (c : Option FacetFrameClass) (ohead : List Byte) (frame : List Byte) : Keeps s0 (State.facetFinish t n h1 c ohead frame) := by
  unfold State.facetFinish
  iterate 40 all_goals try first
    | with_reducible assumption
    | (lift_lets -underBinder; intro y)
    | with_reducible apply State.loseSlot_keeps
    | with_reducible apply State.mgmtTake_keeps
    | with_reducible apply State.classRuns_keeps
    | with_reducible apply State.readStatus_keeps
    | with_reducible apply State.modFacet_keeps
    | with_reducible apply State.setFacet_keeps
    | with_reducible apply State.raise_keeps
    | with_reducible apply State.demapSlot_keeps
    | (with_reducible apply Keeps.ite <;> intros)
    | (with_reducible apply Keeps.foldl <;> intros)
    | split

theorem State.alignCheck_keeps {s0 t : State} (h : Keeps s0 t) (n : Nat) (frame : List Byte) : KeepsP s0 (State.alignCheck t n frame) := by
  unfold State.alignCheck
  iterate 40 all_goals try first
    | with_reducible assumption
    | (lift_lets -underBinder; intro y)
    | with_reducible apply State.modFacet_keeps
    | with_reducible apply State.setFacet_keeps
    | with_reducible apply State.declare_keeps
    | (with_reducible apply KeepsP.ite <;> intros)
    | fail_if_no_progress with_reducible refine KeepsP.mk ?_

theorem execBr_keeps {s0 t : State} (h : Keeps s0 t) (i : Issue) : KeepsN s0 (execBr i t) := by
  unfold execBr
  iterate 40 all_goals try first
    | with_reducible assumption
    | (with_reducible apply State.issue_keeps <;> intros)
    | with_reducible refine KeepsN.next ?_
    | with_reducible refine KeepsA.jump ?_

theorem execBrr_keeps {s0 t : State} (h : Keeps s0 t) (i : Issue) : KeepsN s0 (execBrr i t) := by
  unfold execBrr
  iterate 40 all_goals try first
    | with_reducible assumption
    | (with_reducible apply State.issue_keeps <;> intros)
    | with_reducible refine KeepsN.next ?_
    | with_reducible refine KeepsA.jump ?_

theorem execCall_keeps {s0 t : State} (h : Keeps s0 t) (i : Issue) : KeepsN s0 (execCall i t) := by
  unfold execCall
  iterate 40 all_goals try first
    | with_reducible assumption
    | (lift_lets -underBinder; intro y)
    | (with_reducible apply State.issue_keeps <;> intros)
    | with_reducible apply State.setThread_keeps
    | (with_reducible apply KeepsA.ite <;> intros)
    | with_reducible refine KeepsN.next ?_
    | with_reducible refine KeepsA.jump ?_
    | with_reducible refine KeepsA.fault ?_

theorem execRet_keeps {s0 t : State} (h : Keeps s0 t) (i : Issue) : KeepsN s0 (execRet i t) := by
  unfold execRet
  iterate 40 all_goals try first
    | with_reducible assumption
    | (lift_lets -underBinder; intro y)
    | (with_reducible apply State.issue_keeps <;> intros)
    | with_reducible apply State.setThread_keeps
    | (with_reducible apply KeepsA.ite <;> intros)
    | with_reducible refine KeepsN.next ?_
    | with_reducible refine KeepsA.jump ?_
    | with_reducible refine KeepsA.fault ?_
    | split

theorem execWait_keeps {s0 t : State} (h : Keeps s0 t) (i : Issue) : KeepsN s0 (execWait i t) := by
  unfold execWait
  iterate 40 all_goals try first
    | with_reducible assumption
    | (with_reducible apply State.issue_keeps <;> intros)
    | with_reducible refine KeepsN.next ?_
    | with_reducible refine KeepsA.go ?_

theorem execYield_keeps {s0 t : State} (h : Keeps s0 t) (i : Issue) : KeepsN s0 (execYield i t) := by
  unfold execYield
  iterate 40 all_goals try first
    | with_reducible assumption
    | (lift_lets -underBinder; intro y)
    | (with_reducible apply State.issue_keeps <;> intros)
    | with_reducible apply State.modThread_keeps
    | with_reducible refine KeepsN.next ?_
    | with_reducible refine KeepsA.go ?_

theorem State.leaveItem_keeps {s0 t : State} (h : Keeps s0 t) (n : Nat) (k : Nat) : Keeps s0 (State.leaveItem t n k) := by
  unfold State.leaveItem
  iterate 40 all_goals try first
    | with_reducible assumption
    | (lift_lets -underBinder; intro y)
    | with_reducible apply State.idle_keeps
    | with_reducible apply State.endOp_keeps
    | with_reducible apply State.setUnit_keeps

theorem State.emitFrame_keeps {s0 t : State} (h : Keeps s0 t) (n : Nat) (k : Nat) (x : Ins) : Keeps s0 (State.emitFrame t n k x) := by
  unfold State.emitFrame
  iterate 40 all_goals try first
    | with_reducible assumption
    | (lift_lets -underBinder; intro y)
    | with_reducible apply State.leaveItem_keeps
    | with_reducible apply State.chunkDone_keeps
    | with_reducible apply State.modItem_keeps
    | (with_reducible apply Keeps.ite <;> intros)
    | split

theorem State.writeBack_keeps {s0 t : State} (h : Keeps s0 t) (i : RItem) (new : List Byte) (reading : Bool) : Keeps s0 (State.writeBack t i new reading) := by
  unfold State.writeBack
  iterate 40 all_goals try first
    | with_reducible assumption
    | with_reducible apply State.areaRead_keeps
    | with_reducible apply State.areaWrite_keeps
    | with_reducible apply KeepsP.snd

theorem State.storeRecord_keeps {s0 t : State} (h : Keeps s0 t) (i : RItem) (rec : List Byte) : Keeps s0 (State.storeRecord t i rec) := by
  unfold State.storeRecord
  iterate 40 all_goals try first
    | with_reducible assumption
    | (lift_lets -underBinder; intro y)
    | with_reducible apply State.storeWrite_keeps
    | with_reducible apply State.withRadius_keeps
    | split

theorem State.releaseItem_keeps {s0 t : State} (h : Keeps s0 t) (owner : Nat) (i : RItem) (wb : Bool) (new : List Byte) (kind : Nat) (n : Nat) (out : List Byte) : Keeps s0 (State.releaseItem t owner i wb new kind n out) := by
  unfold State.releaseItem
  iterate 40 all_goals try first
    | with_reducible assumption
    | (lift_lets -underBinder; intro y)
    | with_reducible apply State.endRItem_keeps
    | with_reducible apply State.recUnlock_keeps
    | with_reducible apply State.raise_keeps
    | with_reducible apply State.rcount_keeps
    | with_reducible apply State.writeBack_keeps
    | with_reducible apply State.outRecord_keeps
    | with_reducible apply State.storeRecord_keeps
    | (with_reducible apply Keeps.ite <;> intros)

theorem State.emitItem_keeps {s0 t : State} (h : Keeps s0 t) (k : Nat) (x : Ins) (i : RItem) : Keeps s0 (State.emitItem t k x i) := by
  unfold State.emitItem
  iterate 40 all_goals try first
    | with_reducible assumption
    | (lift_lets -underBinder; intro y)
    | with_reducible apply State.draw_keeps
    | with_reducible apply State.releaseItem_keeps
    | split
    | with_reducible apply KeepsP.snd

theorem State.dropItem_keeps {s0 t : State} (h : Keeps s0 t) (k : Nat) (reason : Nat) (i : RItem) : Keeps s0 (State.dropItem t k reason i) := by
  unfold State.dropItem
  iterate 40 all_goals try first
    | with_reducible assumption
    | (lift_lets -underBinder; intro y)
    | with_reducible apply State.raiseOnce_keeps
    | with_reducible apply State.rcount_keeps
    | with_reducible apply State.endRItem_keeps
    | with_reducible apply State.recUnlock_keeps
    | split

theorem execEmit_keeps {s0 t : State} (h : Keeps s0 t) (i : Issue) : KeepsN s0 (execEmit i t) := by
  unfold execEmit
  iterate 40 all_goals try first
    | with_reducible assumption
    | (lift_lets -underBinder; intro y; clear_value y)
    | (with_reducible apply State.issue_keeps <;> intros)
    | with_reducible apply State.fenced_keeps
    | with_reducible apply State.emitItem_keeps
    | with_reducible apply State.idle_keeps
    | with_reducible apply State.emitFrame_keeps
    | (with_reducible apply Keeps.ite <;> intros)
    | with_reducible refine KeepsN.next ?_
    | with_reducible refine KeepsA.gone ?_
    | split

theorem State.countDrop_keeps {s0 t : State} (h : Keeps s0 t) (n : Nat) (h1 : Nat) (reason : Nat) (i : Item) : Keeps s0 (State.countDrop t n h1 reason i) := by
  unfold State.countDrop
  iterate 40 all_goals try first
    | with_reducible assumption
    | (lift_lets -underBinder; intro y)
    | with_reducible apply State.stat_keeps
    | with_reducible apply State.raiseOnce_keeps
    | with_reducible apply State.facetTagFailed_keeps
    | with_reducible apply State.count_keeps
    | (with_reducible apply Keeps.ite <;> intros)
    | split

theorem State.dropFor_keeps {s0 t : State} (h : Keeps s0 t) (n : Nat) (h1 : Nat) (reason : Nat) (i : Item) : Keeps s0 (State.dropFor t n h1 reason i) := by
  unfold State.dropFor
  iterate 40 all_goals try first
    | with_reducible assumption
    | with_reducible apply State.dropHeld_keeps
    | with_reducible apply State.modItem_keeps
    | with_reducible apply State.countDrop_keeps

theorem State.dropWork_keeps {s0 t : State} (h : Keeps s0 t) (c : Nat) (k : Nat) (reason : Nat) : Keeps s0 (State.dropWork t c k reason) := by
  unfold State.dropWork
  iterate 40 all_goals try first
    | with_reducible assumption
    | (lift_lets -underBinder; intro y; with_reducible refine (fun (hy : Keeps s0 y) => ?_) ?_ <;> [clear_value y; subst y])
    | (lift_lets -underBinder; intro y)
    | with_reducible apply State.dropItem_keeps
    | with_reducible apply State.idle_keeps
    | with_reducible apply State.leaveItem_keeps
    | with_reducible apply State.dropFor_keeps
    | (with_reducible apply Keeps.ite <;> intros)
    | split

theorem execDrop_keeps {s0 t : State} (h : Keeps s0 t) (i : Issue) : KeepsN s0 (execDrop i t) := by
  unfold execDrop
  iterate 40 all_goals try first
    | with_reducible assumption
    | (with_reducible apply State.issue_keeps <;> intros)
    | with_reducible apply State.dropWork_keeps
    | with_reducible refine KeepsN.next ?_
    | with_reducible refine KeepsA.gone ?_

theorem execHalt_keeps {s0 t : State} (h : Keeps s0 t) (i : Issue) : KeepsN s0 (execHalt i t) := by
  unfold execHalt
  iterate 40 all_goals try first
    | with_reducible assumption
    | (with_reducible apply State.issue_keeps <;> intros)
    | with_reducible apply State.dropWork_keeps
    | with_reducible refine KeepsN.next ?_
    | with_reducible refine KeepsA.gone ?_

end Sys2Proof.Machine
end

