-- ==== Sys2Proof/Laws/KeepsBlocks.lean ====
section
/-! SUPPORT. What the operations of Vertex, Twin and the first commands keep (Laws/Keeps.lean): one lemma per definition that answers a state. -/

namespace Sys2Proof.Machine

set_option tactic.hygienic false
set_option linter.unusedVariables false

theorem State.holdItem_keeps {s0 t : State} (h : Keeps s0 t) (c : Nat) (h1 : Nat) (twin : Bool) (i : Item) : Keeps s0 (State.holdItem t c h1 twin i) := by
  unfold State.holdItem
  iterate 40 all_goals try first
    | with_reducible assumption
    | (lift_lets -underBinder; intro y; with_reducible refine (fun (hy : Keeps s0 y) => ?_) ?_ <;> [clear_value y; subst y])
    | with_reducible apply State.dropSlot_keeps
    | with_reducible apply State.stat_keeps
    | with_reducible apply State.saLeave_keeps
    | with_reducible apply State.restop_keeps
    | with_reducible apply State.setUnit_keeps
    | (with_reducible apply Keeps.ite <;> intros)

theorem park_keeps {s0 t : State} (h : Keeps s0 t) (c : Nat) (k : Nat) (x : Ins) : KeepsA s0 (park c k x t) := by
  unfold park
  iterate 40 all_goals try first
    | with_reducible assumption
    | (lift_lets -underBinder; intro y)
    | with_reducible apply State.leaveItem_keeps
    | with_reducible apply State.holdItem_keeps
    | (with_reducible apply KeepsA.ite <;> intros)
    | with_reducible refine KeepsA.fault ?_
    | with_reducible refine KeepsA.gone ?_
    | split

theorem State.redoItem_keeps {s0 t : State} (h : Keeps s0 t) (c : Nat) (i : Item) : Keeps s0 (State.redoItem t c i) := by
  unfold State.redoItem
  iterate 40 all_goals try first
    | with_reducible assumption
    | with_reducible apply State.modItem_keeps
    | with_reducible apply State.saLeave_keeps

theorem execPark_keeps {s0 t : State} (h : Keeps s0 t) (i : Issue) : KeepsN s0 (execPark i t) := by
  unfold execPark
  iterate 40 all_goals try first
    | with_reducible assumption
    | (with_reducible apply State.issue_keeps <;> intros)
    | with_reducible apply park_keeps
    | with_reducible refine KeepsN.next ?_

theorem execRedo_keeps {s0 t : State} (h : Keeps s0 t) (i : Issue) : KeepsN s0 (execRedo i t) := by
  unfold execRedo
  iterate 40 all_goals try first
    | with_reducible assumption
    | (lift_lets -underBinder; intro y)
    | (with_reducible apply State.issue_keeps <;> intros)
    | with_reducible apply State.leaveItem_keeps
    | with_reducible apply State.redoItem_keeps
    | (with_reducible apply KeepsA.ite <;> intros)
    | with_reducible refine KeepsN.next ?_
    | with_reducible refine KeepsA.fault ?_
    | with_reducible refine KeepsA.gone ?_
    | split

theorem execEvt_keeps {s0 t : State} (h : Keeps s0 t) (i : Issue) : KeepsN s0 (execEvt i t) := by
  unfold execEvt
  iterate 40 all_goals try first
    | with_reducible assumption
    | (lift_lets -underBinder; intro y)
    | (with_reducible apply State.issue_keeps <;> intros)
    | with_reducible apply State.fenced_keeps
    | with_reducible apply State.raise_keeps
    | with_reducible refine KeepsN.next ?_
    | with_reducible refine KeepsA.go ?_

theorem State.stopOp_keeps {s0 t : State} (h : Keeps s0 t) (recv : Bool) (r : OpStart) (taken : Bool) : Keeps s0 (State.stopOp t recv r taken) := by
  unfold State.stopOp
  iterate 40 all_goals try first
    | with_reducible assumption
    | with_reducible apply State.opEnd_keeps
    | with_reducible apply State.untake_keeps
    | (with_reducible apply Keeps.ite <;> intros)
    | split

theorem State.itemOp_keeps {s0 t : State} (h : Keeps s0 t) (n : Nat) (i : Item) (r : OpStart) : Keeps s0 (State.itemOp t n i r) := by
  unfold State.itemOp
  iterate 40 all_goals try first
    | with_reducible assumption
    | with_reducible apply State.modItem_keeps
    | (with_reducible apply Keeps.ite <;> intros)

theorem State.emitAs_keeps {s0 t : State} (h : Keeps s0 t) (n : Nat) (i : Item) (bytes : List Byte) (taken : Option Nat) (verified : Bool) (e : Emitted) : Keeps s0 (State.emitAs t n i bytes taken verified e) := by
  unfold State.emitAs
  iterate 40 all_goals try first
    | with_reducible assumption
    | with_reducible apply State.modItem_keeps

theorem State.shipMacTx_keeps {s0 t : State} (h : Keeps s0 t) (n : Nat) (i : Item) : Keeps s0 (State.shipMacTx t n i) := by
  unfold State.shipMacTx
  iterate 40 all_goals try first
    | with_reducible assumption
    | (lift_lets -underBinder; intro y; with_reducible refine (fun (hy : Keeps s0 y) => ?_) ?_ <;> [clear_value y; subst y])
    | (lift_lets -underBinder; intro y)
    | with_reducible apply State.startOp_keeps
    | with_reducible apply State.dropFor_keeps
    | with_reducible apply State.holdItem_keeps
    | with_reducible apply State.itemOp_keeps
    | with_reducible apply State.takePn_keeps
    | with_reducible apply State.emitAs_keeps
    | with_reducible apply State.stopOp_keeps
    | with_reducible apply State.redoItem_keeps
    | (with_reducible apply Keeps.ite <;> intros)
    | split
    | intro _
    | with_reducible refine KeepsP.of_eq (by with_reducible assumption) ?_

theorem State.shipMacRx_keeps {s0 t : State} (h : Keeps s0 t) (n : Nat) (i : Item) : Keeps s0 (State.shipMacRx t n i) := by
  unfold State.shipMacRx
  iterate 40 all_goals try first
    | with_reducible assumption
    | (lift_lets -underBinder; intro y; with_reducible refine (fun (hy : Keeps s0 y) => ?_) ?_ <;> [clear_value y; subst y])
    | (lift_lets -underBinder; intro y)
    | with_reducible apply State.startOp_keeps
    | with_reducible apply State.dropFor_keeps
    | with_reducible apply State.itemOp_keeps
    | with_reducible apply State.stopOp_keeps
    | with_reducible apply State.hTouch_keeps
    | with_reducible apply State.emitAs_keeps
    | (with_reducible apply Keeps.ite <;> intros)
    | split
    | with_reducible refine KeepsP.of_eq (by with_reducible assumption) ?_

theorem State.emitUnkeyed_keeps {s0 t : State} (h : Keeps s0 t) (n : Nat) (i : Item) (why : Nat × Nat) : Keeps s0 (State.emitUnkeyed t n i why) := by
  unfold State.emitUnkeyed
  iterate 40 all_goals try first
    | with_reducible assumption
    | with_reducible apply State.draw_keeps
    | with_reducible apply State.emitAs_keeps
    | with_reducible apply KeepsP.snd

theorem State.shipFacetTx_keeps {s0 t : State} (h : Keeps s0 t) (n : Nat) (i : Item) : Keeps s0 (State.shipFacetTx t n i) := by
  unfold State.shipFacetTx
  iterate 40 all_goals try first
    | with_reducible assumption
    | (lift_lets -underBinder; intro y; with_reducible refine (fun (hy : Keeps s0 y) => ?_) ?_ <;> [clear_value y; subst y])
    | (lift_lets -underBinder; intro y)
    | with_reducible apply State.startOp_keeps
    | with_reducible apply State.emitUnkeyed_keeps
    | with_reducible apply State.itemOp_keeps
    | with_reducible apply State.takePn_keeps
    | with_reducible apply State.stopOp_keeps
    | with_reducible apply State.hTouch_keeps
    | with_reducible apply State.emitAs_keeps
    | with_reducible apply State.redoItem_keeps
    | with_reducible apply State.modItem_keeps
    | with_reducible apply State.saLeave_keeps
    | (with_reducible apply Keeps.ite <;> intros)
    | split
    | intro _
    | with_reducible refine KeepsP.of_eq (by with_reducible assumption) ?_

theorem State.shipFacetRx_keeps {s0 t : State} (h : Keeps s0 t) (n : Nat) (i : Item) : Keeps s0 (State.shipFacetRx t n i) := by
  unfold State.shipFacetRx
  iterate 40 all_goals try first
    | with_reducible assumption
    | (lift_lets -underBinder; intro y)
    | with_reducible apply State.startOp_keeps
    | with_reducible apply State.dropFor_keeps
    | with_reducible apply State.itemOp_keeps
    | with_reducible apply State.stopOp_keeps
    | with_reducible apply State.hTouch_keeps
    | with_reducible apply State.emitAs_keeps
    | (with_reducible apply Keeps.ite <;> intros)
    | split
    | with_reducible refine KeepsP.of_eq (by with_reducible assumption) ?_

theorem State.shipChunk_keeps {s0 t : State} (h : Keeps s0 t) (n : Nat) (i : Item) (q : Nat × BitVec 32 × Shares × Nat) : Keeps s0 (State.shipChunk t n i q) := by
  unfold State.shipChunk
  iterate 40 all_goals try first
    | with_reducible assumption
    | (lift_lets -underBinder; intro y)
    | with_reducible apply State.chunkDone_keeps
    | with_reducible apply State.opEnd_keeps
    | with_reducible apply State.countN_keeps

theorem State.shipFrame_keeps {s0 t : State} (h : Keeps s0 t) (n : Nat) (i : Item) : Keeps s0 (State.shipFrame t n i) := by
  unfold State.shipFrame
  iterate 40 all_goals try first
    | with_reducible assumption
    | with_reducible apply State.shipMacTx_keeps
    | with_reducible apply State.shipMacRx_keeps
    | with_reducible apply State.shipFacetTx_keeps
    | with_reducible apply State.shipFacetRx_keeps
    | (with_reducible apply Keeps.ite <;> intros)
    | split

theorem State.addItem_keeps {s0 t : State} (h : Keeps s0 t) (n : Nat) (i : Item) : Keeps s0 (State.addItem t n i) := by
  unfold State.addItem
  iterate 40 all_goals try first
    | with_reducible assumption
    | (lift_lets -underBinder; intro y)
    | with_reducible apply State.setUnit_keeps
    | fail_if_no_progress with_reducible refine Keeps.upd ?_ rfl

theorem State.sentStamp_keeps {s0 t : State} (h : Keeps s0 t) (side : Nat) (lp : Nat) (id : Option Nat) (ok : Bool) : Keeps s0 (State.sentStamp t side lp id ok) := by
  unfold State.sentStamp
  iterate 40 all_goals try first
    | with_reducible assumption
    | (lift_lets -underBinder; intro y)
    | with_reducible apply State.txtsPush_keeps
    | split

theorem State.clientSend_keeps {s0 t : State} (h : Keeps s0 t) (lp : Nat) (e : QEntry) (f : TFrame) (ecc : Ecc) : Keeps s0 (State.clientSend t lp e f ecc) := by
  unfold State.clientSend
  iterate 40 all_goals try first
    | with_reducible assumption
    | (lift_lets -underBinder; intro y)
    | with_reducible apply State.readFrame_keeps
    | with_reducible apply State.holdFrame_keeps
    | with_reducible apply State.count_keeps
    | with_reducible apply State.freeFrame_keeps
    | with_reducible apply State.emit_keeps
    | with_reducible apply State.sentStamp_keeps
    | (with_reducible apply Keeps.ite <;> intros)
    | with_reducible apply KeepsP.snd

theorem State.txStall_keeps {s0 t : State} (h : Keeps s0 t) (lp : Nat) (frame : Nat) : Keeps s0 (State.txStall t lp frame) := by
  unfold State.txStall
  iterate 40 all_goals try first
    | with_reducible assumption
    | (lift_lets -underBinder; intro y)
    | with_reducible apply State.count_keeps
    | with_reducible apply State.setUnit_keeps
    | (with_reducible apply Keeps.ite <;> intros)

theorem State.lineTake_keeps {s0 t : State} (h : Keeps s0 t) (lp : Nat) (g : Nat) (q : Nat) (ecc : Ecc) : Keeps s0 (State.lineTake t lp g q ecc) := by
  unfold State.lineTake
  iterate 40 all_goals try first
    | with_reducible assumption
    | (lift_lets -underBinder; intro y)
    | with_reducible apply State.txStall_keeps
    | with_reducible apply State.takeHead_keeps
    | with_reducible apply State.readFrame_keeps
    | with_reducible apply State.holdFrame_keeps
    | with_reducible apply State.draw_keeps
    | with_reducible apply State.setUnit_keeps
    | with_reducible apply State.notSent_keeps
    | with_reducible apply State.freeFrame_keeps
    | with_reducible apply State.count_keeps
    | with_reducible apply State.raiseOnce_keeps
    | with_reducible apply State.addItem_keeps
    | (with_reducible apply Keeps.ite <;> intros)
    | split
    | fail_if_no_progress with_reducible refine KeepsP.mk ?_
    | with_reducible apply KeepsP.snd
    | with_reducible refine KeepsOP.of_eq (by with_reducible assumption) ?_

theorem execSectorDequeue_keeps {s0 t : State} (h : Keeps s0 t) (side : Side) (lp : Fin 64) (ecc : Ecc) : KeepsN s0 (execSectorDequeue side lp ecc t) := by
  unfold execSectorDequeue
  iterate 40 all_goals try first
    | with_reducible assumption
    | (lift_lets -underBinder; intro y)
    | with_reducible apply State.lineTake_keeps
    | with_reducible apply State.takeHead_keeps
    | with_reducible apply State.clientSend_keeps
    | (with_reducible apply KeepsN.ite <;> intros)
    | with_reducible refine KeepsN.next ?_
    | split
    | with_reducible refine KeepsOP.of_eq (by with_reducible assumption) ?_

theorem State.rxDrop_keeps {s0 t : State} (h : Keeps s0 t) (lp : Nat) (i : Nat) (ev : Option (Nat × List Byte)) : Keeps s0 (State.rxDrop t lp i ev) := by
  unfold State.rxDrop
  iterate 40 all_goals try first
    | with_reducible assumption
    | (lift_lets -underBinder; intro y; with_reducible refine (fun (hy : Keeps s0 y) => ?_) ?_ <;> [clear_value y; subst y])
    | with_reducible apply State.count_keeps
    | with_reducible apply State.raiseOnce_keeps
    | split

theorem State.rxSecured_keeps {s0 t : State} (h : Keeps s0 t) (lp : Nat) (h1 : Nat) (a : Assoc) (wire : Nat) (bad : State → State) (keep : State → State) (k_bad : ∀ u, Keeps s0 u → Keeps s0 (bad u)) (k_keep : ∀ u, Keeps s0 u → Keeps s0 (keep u)) : Keeps s0 (State.rxSecured t lp h1 a wire bad keep) := by
  unfold State.rxSecured
  iterate 40 all_goals try first
    | with_reducible assumption
    | (lift_lets -underBinder; intro y)
    | with_reducible apply State.rxDrop_keeps
    | with_reducible apply State.stat_keeps
    | with_reducible apply k_bad
    | with_reducible apply k_keep
    | (with_reducible apply Keeps.ite <;> intros)

theorem State.overflow_keeps {s0 t : State} (h : Keeps s0 t) (n : Nat) (lp : Nat) : Keeps s0 (State.overflow t n lp) := by
  unfold State.overflow
  iterate 40 all_goals try first
    | with_reducible assumption
    | with_reducible apply State.raise_keeps
    | with_reducible apply State.orReg_keeps
    | with_reducible apply State.count_keeps

theorem State.rxTake_keeps {s0 t : State} (h : Keeps s0 t) (n : Nat) (lp : Nat) (i : Item) (go : Item → State → State) (k_go : ∀ b0 u, Keeps s0 u → Keeps s0 (go b0 u)) : Keeps s0 (State.rxTake t n lp i go) := by
  unfold State.rxTake
  iterate 40 all_goals try first
    | with_reducible assumption
    | with_reducible apply State.overflow_keeps
    | with_reducible apply k_go
    | (with_reducible apply Keeps.ite <;> intros)
    | split

theorem State.secTag_keeps {s0 t : State} (h : Keeps s0 t) (n : Nat) (lp : Nat) (off : Nat) (body : List Byte) (stamp : Nat) : Keeps s0 (State.secTag t n lp off body stamp) := by
  unfold State.secTag
  iterate 40 all_goals try first
    | with_reducible assumption
    | (lift_lets -underBinder; intro y)
    | with_reducible apply State.rxDrop_keeps
    | (with_reducible apply State.rxSecured_keeps <;> intros)
    | with_reducible apply State.addItem_keeps
    | (with_reducible apply Keeps.ite <;> intros)
    | split

theorem State.lineArrive_keeps {s0 t : State} (h : Keeps s0 t) (n : Nat) (lp : Nat) (body : List Byte) (stamp : Nat) : Keeps s0 (State.lineArrive t n lp body stamp) := by
  unfold State.lineArrive
  iterate 40 all_goals try first
    | with_reducible assumption
    | (lift_lets -underBinder; intro y; with_reducible refine (fun (hy : Keeps s0 y) => ?_) ?_ <;> [clear_value y; subst y])
    | (lift_lets -underBinder; intro y)
    | (with_reducible apply State.rxTake_keeps <;> intros)
    | with_reducible apply State.count_keeps
    | with_reducible apply State.addItem_keeps
    | with_reducible apply State.secTag_keeps
    | with_reducible apply State.setUnit_keeps
    | with_reducible apply State.rxDrop_keeps
    | (with_reducible apply Keeps.ite <;> intros)

theorem execLineFrameReceive_keeps {s0 t : State} (h : Keeps s0 t) (lp : Fin 64) (frame : List Byte) : KeepsN s0 (execLineFrameReceive lp frame t) := by
  unfold execLineFrameReceive
  iterate 40 all_goals try first
    | with_reducible assumption
    | (lift_lets -underBinder; intro y)
    | with_reducible apply State.count_keeps
    | with_reducible apply State.lineArrive_keeps
    | (with_reducible apply KeepsN.ite <;> intros)
    | with_reducible refine KeepsN.next ?_

theorem State.itemParity_keeps {s0 t : State} (h : Keeps s0 t) (n : Nat) (i : Item) : Keeps s0 (State.itemParity t n i) := by
  unfold State.itemParity
  iterate 40 all_goals try first
    | with_reducible assumption
    | with_reducible apply State.draw_keeps
    | with_reducible apply State.parityError_keeps
    | with_reducible apply KeepsP.snd

theorem State.startThread_keeps {s0 t : State} (h : Keeps s0 t) (c : Nat) (k : Nat) (item : Nat) (fctx : BitVec 64) (pc : Nat) (high : Bool) (op : Option SaOp) : Keeps s0 (State.startThread t c k item fctx pc high op) := by
  unfold State.startThread
  iterate 40 all_goals try first
    | with_reducible assumption
    | (lift_lets -underBinder; intro y)
    | with_reducible apply State.setThread_keeps

theorem State.startChunk_keeps {s0 t : State} (h : Keeps s0 t) (n : Nat) (k : Nat) (i : Item) (pc : Nat) (high : Bool) (shipped : Bool) : Keeps s0 (State.startChunk t n k i pc high shipped) := by
  unfold State.startChunk
  iterate 40 all_goals try first
    | with_reducible assumption
    | (lift_lets -underBinder; intro y)
    | with_reducible apply State.chunkLost_keeps
    | with_reducible apply State.cryptoEnd_keeps
    | with_reducible apply State.setUnit_keeps
    | with_reducible apply State.modItem_keeps
    | with_reducible apply State.opStart_keeps
    | with_reducible apply State.shipChunk_keeps
    | with_reducible apply State.startThread_keeps
    | (with_reducible apply Keeps.ite <;> intros)
    | split

theorem State.dispatchItem_keeps {s0 t : State} (h : Keeps s0 t) (n : Nat) (i : Item) (perr : Bool) (shipped : Bool) : Keeps s0 (State.dispatchItem t n i perr shipped) := by
  unfold State.dispatchItem
  iterate 40 all_goals try first
    | with_reducible assumption
    | (lift_lets -underBinder; intro y)
    | with_reducible apply State.chunkLost_keeps
    | with_reducible apply State.dropSlot_keeps
    | with_reducible apply State.count_keeps
    | with_reducible apply State.modItem_keeps
    | with_reducible apply State.startChunk_keeps
    | with_reducible apply State.itemParity_keeps
    | with_reducible apply State.shipFrame_keeps
    | with_reducible apply State.startThread_keeps
    | (with_reducible apply Keeps.ite <;> intros)
    | split

theorem State.dispatch_keeps {s0 t : State} (h : Keeps s0 t) (n : Nat) (perr : Bool) (shipped : Bool) : Keeps s0 (State.dispatch t n perr shipped) := by
  unfold State.dispatch
  iterate 40 all_goals try first
    | with_reducible assumption
    | with_reducible apply State.dispatchItem_keeps
    | split

theorem execPrismDispatch_keeps {s0 t : State} (h : Keeps s0 t) (prism : Fin 16) (found : DispatchFinds) : KeepsN s0 (execPrismDispatch prism found t) := by
  unfold execPrismDispatch
  iterate 40 all_goals try first
    | with_reducible assumption
    | with_reducible apply State.dispatch_keeps
    | with_reducible refine KeepsN.next ?_

theorem State.txRelease_keeps {s0 t : State} (h : Keeps s0 t) (n : Nat) (i : Item) (e : Option Emitted) (perr : Bool) : Keeps s0 (State.txRelease t n i e perr) := by
  unfold State.txRelease
  iterate 40 all_goals try first
    | with_reducible assumption
    | (lift_lets -underBinder; intro y; with_reducible refine (fun (hy : Keeps s0 y) => ?_) ?_ <;> [clear_value y; subst y])
    | with_reducible apply State.draw_keeps
    | with_reducible apply State.itemParity_keeps
    | with_reducible apply State.setUnit_keeps
    | with_reducible apply State.dropSlot_keeps
    | with_reducible apply State.count_keeps
    | with_reducible apply State.raiseOnce_keeps
    | with_reducible apply State.sentStamp_keeps
    | with_reducible apply State.emit_keeps
    | with_reducible apply State.freeFrame_keeps
    | with_reducible apply State.stat_keeps
    | with_reducible apply State.saLeave_keeps
    | (with_reducible apply Keeps.ite <;> intros)
    | split
    | with_reducible apply KeepsP.snd

theorem State.releaseCheck_keeps {s0 t : State} (h : Keeps s0 t) (i : Item) (e : Emitted) : KeepsP s0 (State.releaseCheck t i e) := by
  unfold State.releaseCheck
  iterate 40 all_goals try first
    | with_reducible assumption
    | (lift_lets -underBinder; intro y)
    | with_reducible apply State.rxDrop_keeps
    | with_reducible apply State.stat_keeps
    | with_reducible apply State.setSa_keeps
    | with_reducible apply State.rxVerified_keeps
    | (with_reducible apply KeepsP.ite <;> intros)
    | split
    | fail_if_no_progress with_reducible refine KeepsP.mk ?_

theorem State.rxRelease_keeps {s0 t : State} (h : Keeps s0 t) (n : Nat) (i : Item) (e : Option Emitted) (perr : Bool) (parser : Bool) (em : List (Fin 4)) : Keeps s0 (State.rxRelease t n i e perr parser em) := by
  unfold State.rxRelease
  iterate 40 all_goals try first
    | with_reducible assumption
    | (lift_lets -underBinder; intro y; have _ : State → State := y)
    | (lift_lets -underBinder; intro y)
    | with_reducible apply State.setUnit_keeps
    | with_reducible apply State.draw_keeps
    | with_reducible apply State.itemParity_keeps
    | with_reducible apply State.dropSlot_keeps
    | with_reducible apply State.classify_keeps
    | with_reducible apply State.dropFor_keeps
    | with_reducible apply State.releaseCheck_keeps
    | with_reducible apply State.saLeave_keeps
    | (with_reducible apply Keeps.ite <;> intros)
    | split
    | with_reducible apply KeepsP.snd

theorem State.facetRelease_keeps {s0 t : State} (h : Keeps s0 t) (n : Nat) (recv : Bool) (perr : Bool) : Keeps s0 (State.facetRelease t n recv perr) := by
  unfold State.facetRelease
  iterate 40 all_goals try first
    | with_reducible assumption
    | (lift_lets -underBinder; intro y; have _ : State → State := y)
    | (lift_lets -underBinder; intro y)
    | with_reducible apply State.setUnit_keeps
    | with_reducible apply State.dropSlot_keeps
    | with_reducible apply State.itemParity_keeps
    | with_reducible apply State.facetFinish_keeps
    | with_reducible apply State.sendUnkeyed_keeps
    | with_reducible apply State.countDrop_keeps
    | with_reducible apply State.facetVerified_keeps
    | with_reducible apply State.saLeave_keeps
    | with_reducible apply State.sendKeyed_keeps
    | with_reducible apply State.count_keeps
    | (with_reducible apply Keeps.ite <;> intros)
    | split
    | with_reducible apply KeepsP.snd

theorem execReorderRelease_keeps {s0 t : State} (h : Keeps s0 t) (lp : Fin 64) (dir : Dir) (perr : Bool) (parser : Bool) (em : List (Fin 4)) : KeepsN s0 (execReorderRelease lp dir perr parser em t) := by
  unfold execReorderRelease
  iterate 40 all_goals try first
    | with_reducible assumption
    | (lift_lets -underBinder; intro y)
    | with_reducible apply State.setUnit_keeps
    | with_reducible apply State.facetRelease_keeps
    | with_reducible apply State.rxRelease_keeps
    | with_reducible apply State.txRelease_keeps
    | (with_reducible apply KeepsN.ite <;> intros)
    | with_reducible refine KeepsN.next ?_
    | split
    | intro _

theorem execHoldLimitExpiry_keeps {s0 t : State} (h : Keeps s0 t) (queue : BitVec 12) : KeepsN s0 (execHoldLimitExpiry queue t) := by
  unfold execHoldLimitExpiry
  iterate 40 all_goals try first
    | with_reducible assumption
    | (lift_lets -underBinder; intro y; with_reducible refine (fun (hy : Keeps s0 y) => ?_) ?_ <;> [clear_value y; subst y])
    | with_reducible apply State.passTo_keeps
    | with_reducible apply State.setUnit_keeps
    | with_reducible apply State.dropParked_keeps
    | with_reducible refine KeepsN.next ?_
    | split

theorem execParkedFrameRedispatch_keeps {s0 t : State} (h : Keeps s0 t) (queue : BitVec 12) : KeepsN s0 (execParkedFrameRedispatch queue t) := by
  unfold execParkedFrameRedispatch
  iterate 40 all_goals try first
    | with_reducible assumption
    | (lift_lets -underBinder; intro y)
    | with_reducible apply State.setUnit_keeps
    | with_reducible apply State.restop_keeps
    | with_reducible apply State.addItem_keeps
    | (with_reducible apply KeepsN.ite <;> intros)
    | with_reducible refine KeepsN.next ?_
    | split

theorem cryptoBody_keeps {s0 t : State} (h : Keeps s0 t) (d : Desc) : Keeps s0 (cryptoBody d t) := by
  unfold cryptoBody
  iterate 40 all_goals try first
    | with_reducible assumption
    | (lift_lets -underBinder; intro y)
    | with_reducible apply State.done_keeps
    | (with_reducible apply State.withBuf_keeps <;> intros)
    | with_reducible apply State.nextChunk_keeps
    | with_reducible apply State.setUnit_keeps
    | (with_reducible apply Keeps.ite <;> intros)

theorem execCryptoBlock_keeps {s0 t : State} (h : Keeps s0 t) (d : Desc) : KeepsN s0 (execCryptoBlock d t) := by
  unfold execCryptoBlock
  iterate 40 all_goals try first
    | with_reducible assumption
    | (with_reducible apply ringCommand_keeps <;> intros)
    | with_reducible apply cryptoBody_keeps
    | with_reducible refine KeepsN.next ?_

theorem State.facetRun_keeps {s0 t : State} (h : Keeps s0 t) (n : Nat) (recv perr : Bool) : Keeps s0 (State.facetRun t n recv perr) := by
  unfold State.facetRun
  extract_lets go
  have k : ∀ u, Keeps s0 u → Keeps s0 (go u) := fun u hu => by
    unfold go
    split
    · exact Keeps.ite (fun _ => State.dispatchItem_keeps hu _ _ _ _) fun _ => hu
    · exact hu
  exact State.facetRelease_keeps (k _ (k _ h)) _ _ _

theorem State.facetTransmit_keeps {s0 t : State} (h : Keeps s0 t) (n : Nat) (client : List ClientBlocks) (perr : Bool) : Keeps s0 (State.facetTransmit t n client perr) := by
  unfold State.facetTransmit
  iterate 40 all_goals try first
    | with_reducible assumption
    | with_reducible apply State.sendAis_keeps
    | with_reducible apply State.facetBuild_keeps
    | with_reducible apply State.facetRun_keeps
    | with_reducible apply State.addItem_keeps
    | with_reducible apply State.draw_keeps
    | (with_reducible apply Keeps.ite <;> intros)
    | split
    | with_reducible apply KeepsP.snd
    | with_reducible refine KeepsP.of_eq (by with_reducible assumption) ?_

theorem execFacetFrameTransmit_keeps {s0 t : State} (h : Keeps s0 t) (n : Fin 16) (send : FacetSend) : KeepsN s0 (execFacetFrameTransmit n send t) := by
  unfold execFacetFrameTransmit
  iterate 40 all_goals try first
    | with_reducible assumption
    | with_reducible apply State.facetTransmit_keeps
    | (with_reducible apply Keeps.ite <;> intros)
    | with_reducible refine KeepsN.next ?_

theorem State.facetReceive_keeps {s0 t : State} (h : Keeps s0 t) (n : Nat) (frame : List Byte) (perr : Bool) : Keeps s0 (State.facetReceive t n frame perr) := by
  unfold State.facetReceive
  iterate 40 all_goals try first
    | with_reducible assumption
    | (lift_lets -underBinder; intro y; with_reducible refine (fun (hy : Keeps s0 y) => ?_) ?_ <;> [clear_value y; subst y])
    | (lift_lets -underBinder; intro y)
    | with_reducible apply State.alignCheck_keeps
    | with_reducible apply State.sectionBip_keeps
    | with_reducible apply State.aisS_keeps
    | with_reducible apply State.facetStamp_keeps
    | with_reducible apply State.facetFinish_keeps
    | with_reducible apply State.overflow_keeps
    | with_reducible apply State.facetRun_keeps
    | with_reducible apply State.addItem_keeps
    | with_reducible apply State.facetAtOnce_keeps
    | split
    | intro _
    | with_reducible refine KeepsP.of_eq (by with_reducible assumption) ?_

theorem execFacetFrameReceive_keeps {s0 t : State} (h : Keeps s0 t) (n : Fin 16) (errors : List (Fin 545)) (frame : List Byte) (perr : Bool) : KeepsN s0 (execFacetFrameReceive n errors frame perr t) := by
  unfold execFacetFrameReceive
  iterate 40 all_goals try first
    | with_reducible assumption
    | (lift_lets -underBinder; intro y)
    | with_reducible apply State.modFacet_keeps
    | with_reducible apply State.facetReceive_keeps
    | (with_reducible apply Keeps.ite <;> intros)
    | (with_reducible apply KeepsN.ite <;> intros)
    | with_reducible refine KeepsN.next ?_

theorem State.markerLoss_keeps {s0 t : State} (h : Keeps s0 t) (n : Nat) (cause : Nat) : Keeps s0 (State.markerLoss t n cause) := by
  unfold State.markerLoss
  iterate 40 all_goals try first
    | with_reducible assumption
    | with_reducible apply State.declare_keeps
    | with_reducible apply State.modFacet_keeps

theorem State.markerReceive_keeps {s0 t : State} (h : Keeps s0 t) (n : Nat) (pos : Nat) (ls : List MarkerSeen) : Keeps s0 (State.markerReceive t n pos ls) := by
  unfold State.markerReceive
  iterate 40 all_goals try first
    | with_reducible assumption
    | (lift_lets -underBinder; intro y)
    | with_reducible apply State.setFacet_keeps
    | with_reducible apply State.clearSection_keeps
    | with_reducible apply State.markerLoss_keeps
    | (with_reducible apply Keeps.ite <;> intros)
    | split

theorem execMarkerCodewordReceive_keeps {s0 t : State} (h : Keeps s0 t) (n : Fin 16) (pos : Nat) (lanes : List MarkerSeen) : KeepsN s0 (execMarkerCodewordReceive n pos lanes t) := by
  unfold execMarkerCodewordReceive
  iterate 40 all_goals try first
    | with_reducible assumption
    | (lift_lets -underBinder; intro y)
    | with_reducible apply State.markerReceive_keeps
    | (with_reducible apply Keeps.ite <;> intros)
    | with_reducible refine KeepsN.next ?_

theorem execExpectedMarkerMissed_keeps {s0 t : State} (h : Keeps s0 t) (n : Fin 16) (lane : Fin 4) : KeepsN s0 (execExpectedMarkerMissed n lane t) := by
  unfold execExpectedMarkerMissed
  iterate 40 all_goals try first
    | with_reducible assumption
    | (lift_lets -underBinder; intro y)
    | with_reducible apply State.setFacet_keeps
    | with_reducible apply State.markerLoss_keeps
    | (with_reducible apply Keeps.ite <;> intros)
    | with_reducible refine KeepsN.next ?_
    | split

theorem State.alignSearch_keeps {s0 t : State} (h : Keeps s0 t) (n : Nat) (pos : Nat) (matched : Bool) (mfc : Byte) : Keeps s0 (State.alignSearch t n pos matched mfc) := by
  unfold State.alignSearch
  iterate 40 all_goals try first
    | with_reducible assumption
    | (lift_lets -underBinder; intro y; have _ : _ → State → State := y)
    | (lift_lets -underBinder; intro y)
    | with_reducible apply State.modFacet_keeps
    | with_reducible apply State.clearSection_keeps
    | with_reducible apply State.raiseOnce_keeps
    | (with_reducible apply Keeps.ite <;> intros)
    | split

theorem execAlignmentCandidateMatch_keeps {s0 t : State} (h : Keeps s0 t) (n : Fin 16) (pos : Nat) (matched : Bool) (mfc : Byte) : KeepsN s0 (execAlignmentCandidateMatch n pos matched mfc t) := by
  unfold execAlignmentCandidateMatch
  iterate 40 all_goals try first
    | with_reducible assumption
    | (lift_lets -underBinder; intro y)
    | with_reducible apply State.alignSearch_keeps
    | (with_reducible apply Keeps.ite <;> intros)
    | with_reducible refine KeepsN.next ?_

theorem execLosDeclare_keeps {s0 t : State} (h : Keeps s0 t) (n : Fin 16) : KeepsN s0 (execLosDeclare n t) := by
  unfold execLosDeclare
  iterate 40 all_goals try first
    | with_reducible assumption
    | with_reducible apply State.declare_keeps
    | with_reducible apply State.passTo_keeps
    | (with_reducible apply Keeps.ite <;> intros)
    | with_reducible refine KeepsN.next ?_
    | split

theorem execLosClear_keeps {s0 t : State} (h : Keeps s0 t) (n : Fin 16) : KeepsN s0 (execLosClear n t) := by
  unfold execLosClear
  iterate 40 all_goals try first
    | with_reducible assumption
    | with_reducible apply State.clearSection_keeps
    | with_reducible apply State.passTo_keeps
    | (with_reducible apply Keeps.ite <;> intros)
    | with_reducible refine KeepsN.next ?_
    | split

theorem formRow_keeps {s0 t : State} (h : Keeps s0 t) (d : Desc) (mine : Nat) (last : Nat) (flagMask : Nat) (fields : List (Nat × Nat)) (body : State → State) (k_body : ∀ u, Keeps s0 u → Keeps s0 (body u)) : Keeps s0 (formRow d mine last flagMask fields body t) := by
  unfold formRow
  iterate 40 all_goals try first
    | with_reducible assumption
    | (lift_lets -underBinder; intro y)
    | (with_reducible apply ringCommand_keeps <;> intros)
    | with_reducible apply State.done_keeps
    | with_reducible apply k_body
    | (with_reducible apply Keeps.ite <;> intros)

theorem setBody_keeps {s0 t : State} (h : Keeps s0 t) (d : Desc) (m : Nat) (n : Nat) (ok : Nat → Bool) (put : Nat → Nat → State → State) (k_put : ∀ b0 b1 u, Keeps s0 u → Keeps s0 (put b0 b1 u)) : Keeps s0 (setBody d m n ok put t) := by
  unfold setBody
  iterate 40 all_goals try first
    | with_reducible assumption
    | (lift_lets -underBinder; intro y)
    | with_reducible apply State.done_keeps
    | (with_reducible apply State.withBuf_keeps <;> intros)
    | with_reducible apply k_put
    | (with_reducible apply Keeps.ite <;> intros)

theorem execSensorGroupSetGroup_keeps {s0 t : State} (h : Keeps s0 t) (d : Desc) : KeepsN s0 (execSensorGroupSetGroup d t) := by
  unfold execSensorGroupSetGroup
  iterate 40 all_goals try first
    | with_reducible assumption
    | (lift_lets -underBinder; intro y)
    | (with_reducible apply formRow_keeps <;> intros)
    | (with_reducible apply setBody_keeps <;> intros)
    | with_reducible apply State.withRadius_keeps
    | with_reducible refine KeepsN.next ?_

theorem execSensorGroupSetRoute_keeps {s0 t : State} (h : Keeps s0 t) (d : Desc) : KeepsN s0 (execSensorGroupSetRoute d t) := by
  unfold execSensorGroupSetRoute
  iterate 40 all_goals try first
    | with_reducible assumption
    | (lift_lets -underBinder; intro y)
    | (with_reducible apply formRow_keeps <;> intros)
    | (with_reducible apply setBody_keeps <;> intros)
    | with_reducible apply State.withRadius_keeps
    | with_reducible refine KeepsN.next ?_

theorem execSensorGroupSetProfile_keeps {s0 t : State} (h : Keeps s0 t) (d : Desc) : KeepsN s0 (execSensorGroupSetProfile d t) := by
  unfold execSensorGroupSetProfile
  iterate 40 all_goals try first
    | with_reducible assumption
    | (lift_lets -underBinder; intro y)
    | (with_reducible apply formRow_keeps <;> intros)
    | (with_reducible apply setBody_keeps <;> intros)
    | with_reducible apply State.withRadius_keeps
    | with_reducible refine KeepsN.next ?_

theorem execSensorGroupSetQueue_keeps {s0 t : State} (h : Keeps s0 t) (d : Desc) : KeepsN s0 (execSensorGroupSetQueue d t) := by
  unfold execSensorGroupSetQueue
  iterate 40 all_goals try first
    | with_reducible assumption
    | (lift_lets -underBinder; intro y)
    | (with_reducible apply formRow_keeps <;> intros)
    | with_reducible apply State.done_keeps
    | with_reducible apply State.withRadius_keeps
    | (with_reducible apply Keeps.ite <;> intros)
    | with_reducible refine KeepsN.next ?_

theorem State.clearArea_keeps {s0 t : State} (h : Keeps s0 t) : Keeps s0 t.clearArea := by
  unfold State.clearArea
  have k := KeepsP.snd (State.drbg_keeps h 128)
  generalize t.drbg 128 = p at k ⊢
  exact State.losePending_keeps (Keeps.updFill k rfl) _ _

theorem serviceEnableBody_keeps {s0 t : State} (h : Keeps s0 t) (d : Desc) : Keeps s0 (serviceEnableBody d t) := by
  unfold serviceEnableBody
  iterate 40 all_goals try first
    | with_reducible assumption
    | (lift_lets -underBinder; intro y)
    | with_reducible apply State.done_keeps
    | with_reducible apply State.raise_keeps
    | with_reducible apply State.withRadius_keeps
    | with_reducible apply State.clearArea_keeps
    | (with_reducible apply Keeps.ite <;> intros)
    | split

theorem execServiceEnable_keeps {s0 t : State} (h : Keeps s0 t) (d : Desc) : KeepsN s0 (execServiceEnable d t) := by
  unfold execServiceEnable
  iterate 40 all_goals try first
    | with_reducible assumption
    | (with_reducible apply formRow_keeps <;> intros)
    | with_reducible apply serviceEnableBody_keeps
    | (with_reducible apply KeepsN.ite <;> intros)
    | with_reducible refine KeepsN.next ?_

theorem execServiceDisable_keeps {s0 t : State} (h : Keeps s0 t) (d : Desc) : KeepsN s0 (execServiceDisable d t) := by
  unfold execServiceDisable
  iterate 40 all_goals try first
    | with_reducible assumption
    | (lift_lets -underBinder; intro y)
    | (with_reducible apply formRow_keeps <;> intros)
    | with_reducible apply State.done_keeps
    | with_reducible apply State.raise_keeps
    | with_reducible apply State.withRadius_keeps
    | (with_reducible apply KeepsN.ite <;> intros)
    | with_reducible refine KeepsN.next ?_
    | split

theorem State.serviceOff_keeps {s0 t : State} (h : Keeps s0 t) (d : Desc) (rep : Reply) : Keeps s0 (State.serviceOff t d rep) := by
  unfold State.serviceOff
  iterate 40 all_goals try first
    | with_reducible assumption
    | (lift_lets -underBinder; intro y)
    | with_reducible apply State.complete_keeps
    | with_reducible apply State.raise_keeps
    | with_reducible apply State.withRadius_keeps

theorem execRadiusDrainEnd_keeps {s0 t : State} (h : Keeps s0 t) : KeepsN s0 (execRadiusDrainEnd t) := by
  unfold execRadiusDrainEnd
  iterate 40 all_goals try first
    | with_reducible assumption
    | with_reducible apply State.serviceOff_keeps
    | (with_reducible apply KeepsN.ite <;> intros)
    | with_reducible refine KeepsN.next ?_
    | split

theorem State.drainDrop_keeps {s0 t : State} (h : Keeps s0 t) (i : RItem) : Keeps s0 (State.drainDrop t i) := by
  unfold State.drainDrop
  iterate 40 all_goals try first
    | with_reducible assumption
    | (lift_lets -underBinder; intro y; with_reducible refine (fun (hy : Keeps s0 y) => ?_) ?_ <;> [clear_value y; subst y])
    | with_reducible apply State.rcount_keeps
    | with_reducible apply State.recUnlock_keeps
    | with_reducible apply State.endRItem_keeps
    | split

theorem execRadiusDrainTimeout_keeps {s0 t : State} (h : Keeps s0 t) : KeepsN s0 (execRadiusDrainTimeout t) := by
  unfold execRadiusDrainTimeout
  iterate 40 all_goals try first
    | with_reducible assumption
    | (lift_lets -underBinder; intro y; with_reducible refine (fun (hy : Keeps s0 y) => ?_) ?_ <;> [clear_value y; subst y])
    | with_reducible apply State.passTo_keeps
    | with_reducible apply State.drainDrop_keeps
    | with_reducible apply State.serviceOff_keeps
    | with_reducible refine KeepsN.next ?_
    | (with_reducible apply Keeps.foldl <;> intros)
    | split

theorem State.freeIn_keeps {s0 t : State} (h : Keeps s0 t) (gw : Bool) (b : Nat) : KeepsP s0 (State.freeIn t gw b) := by
  unfold State.freeIn
  iterate 40 all_goals try first
    | with_reducible assumption
    | with_reducible apply State.areaRead_keeps
    | split
    | fail_if_no_progress with_reducible refine KeepsP.mk ?_
    | with_reducible refine KeepsP.of_eq (by with_reducible assumption) ?_

theorem State.chain_keeps {s0 t : State} (h : Keeps s0 t) (any : Bool) (a : Nat) (a3 : Nat) (a4 : Nat) (a5 : List (Nat × Nat)) (a6 : List Nat) : KeepsP2 s0 (State.chain any a t a3 a4 a5 a6) := by
  induction a generalizing t a3 a4 a5 a6 with
  | zero => exact KeepsP2.mk h
  | succ n ih =>
    unfold State.chain
    have k := KeepsP.snd (State.areaRead_keeps h (t.idxAddr false a3))
    generalize t.areaRead (t.idxAddr false a3) = p at k ⊢
    obtain ⟨_ | l, s1⟩ := p
    · exact KeepsP2.mk k
    dsimp only
    split
    · exact KeepsP2.mk k
    · have kd := KeepsP.snd (State.draw_keeps k 8)
      generalize State.draw _ 8 = q at kd ⊢
      obtain ⟨r, s2⟩ := q
      dsimp only
      generalize hb : s2.altBucket _ _ = b'
      have kf := KeepsP.snd (State.freeIn_keeps kd false b')
      generalize s2.freeIn false b' = w at kf ⊢
      obtain ⟨_ | _ | ⟨f, _⟩, s3⟩ := w
      · exact KeepsP2.mk kf
      · exact ih kf _ _ _ _
      · exact KeepsP2.mk kf

theorem State.slotId_keeps {s0 t : State} (h : Keeps s0 t) (slot : Nat) : KeepsP s0 (State.slotId t slot) := by
  unfold State.slotId
  iterate 40 all_goals try first
    | with_reducible assumption
    | with_reducible apply State.areaRead_keeps
    | with_reducible apply State.draw_keeps
    | split
    | fail_if_no_progress with_reducible refine KeepsP.mk ?_
    | with_reducible refine KeepsP.of_eq (by with_reducible assumption) ?_

theorem State.moveAlong_keeps {s0 t : State} (h : Keeps s0 t) (hand : List Byte) (a : List Nat) : Keeps s0 (State.moveAlong t hand a) := by
  induction a generalizing t hand with
  | nil => exact h
  | cons k l ih =>
    rcases l with _ | ⟨y, l⟩
    · exact State.putRecord_keeps h _ _ _
    · unfold State.moveAlong
      have kr := KeepsP.snd (State.areaRead_keeps h (t.recAddr false k))
      generalize t.areaRead (t.recAddr false k) = p at kr ⊢
      obtain ⟨_ | r, s1⟩ := p
      · have ks := KeepsP.snd (State.slotId_keeps kr k)
        dsimp only
        generalize State.slotId _ k = q at ks ⊢
        obtain ⟨id, s2⟩ := q
        exact State.putRecord_keeps (State.recordBad_keeps ks _) _ _ _
      · exact ih (State.putRecord_keeps kr _ _ _) _

theorem State.freeSlot_keeps {s0 t : State} (h : Keeps s0 t) (gw : Bool) (id : Nat) : KeepsP s0 (State.freeSlot t gw id) := by
  unfold State.freeSlot
  iterate 40 all_goals try first
    | with_reducible assumption
    | with_reducible apply State.freeIn_keeps
    | split
    | fail_if_no_progress with_reducible refine KeepsP.mk ?_
    | with_reducible refine KeepsP.of_eq (by with_reducible assumption) ?_

theorem State.makeRoom_keeps {s0 t : State} (h : Keeps s0 t) (any : Bool) (id : Nat) : KeepsP2 s0 (State.makeRoom t any id) := by
  unfold State.makeRoom
  iterate 40 all_goals try first
    | with_reducible assumption
    | with_reducible apply State.draw_keeps
    | with_reducible apply State.chain_keeps
    | with_reducible apply KeepsP.snd

theorem State.insertSensor_keeps {s0 t : State} (h : Keeps s0 t) (r : List Byte) : KeepsP s0 (State.insertSensor t r) := by
  unfold State.insertSensor
  iterate 40 all_goals try first
    | with_reducible assumption
    | (lift_lets -underBinder; intro y)
    | with_reducible apply State.freeSlot_keeps
    | with_reducible apply State.putRecord_keeps
    | with_reducible apply State.makeRoom_keeps
    | with_reducible apply State.moveAlong_keeps
    | split
    | fail_if_no_progress with_reducible refine KeepsP.mk ?_
    | with_reducible refine KeepsP2.of_eq (by with_reducible assumption) ?_
    | with_reducible refine KeepsP.of_eq (by with_reducible assumption) ?_

theorem State.countSensor_keeps {s0 t : State} (h : Keeps s0 t) (old : Option (List Byte)) (new : Option (List Byte)) : Keeps s0 (State.countSensor t old new) := by
  unfold State.countSensor
  iterate 40 all_goals try first
    | with_reducible assumption
    | (lift_lets -underBinder; intro y)
    | with_reducible apply State.withRadius_keeps

theorem State.tableFull_keeps {s0 t : State} (h : Keeps s0 t) (d : Desc) : Keeps s0 (State.tableFull t d) := by
  unfold State.tableFull
  iterate 40 all_goals try first
    | with_reducible assumption
    | with_reducible apply State.done_keeps
    | with_reducible apply State.raise_keeps

theorem sensorBody_keeps {s0 t : State} (h : Keeps s0 t) (d : Desc) (check : Bool) (go : List Byte → Option (Nat × List Byte) → State → State) (k_go : ∀ b0 b1 u, Keeps s0 u → Keeps s0 (go b0 b1 u)) : Keeps s0 (sensorBody d check go t) := by
  unfold sensorBody
  iterate 40 all_goals try first
    | with_reducible assumption
    | (with_reducible apply State.withBuf_keeps <;> intros)
    | with_reducible apply State.done_keeps
    | with_reducible apply State.findRecord_keeps
    | with_reducible apply State.recordBad_keeps
    | with_reducible apply k_go
    | (with_reducible apply Keeps.ite <;> intros)
    | split
    | with_reducible refine KeepsP.of_eq (by with_reducible assumption) ?_

theorem gatewayBody_keeps {s0 t : State} (h : Keeps s0 t) (d : Desc) (check : Bool) (go : List Byte → Option (Nat × List Byte) → State → State) (k_go : ∀ b0 b1 u, Keeps s0 u → Keeps s0 (go b0 b1 u)) : Keeps s0 (gatewayBody d check go t) := by
  unfold gatewayBody
  iterate 40 all_goals try first
    | with_reducible assumption
    | (with_reducible apply State.withBuf_keeps <;> intros)
    | with_reducible apply State.done_keeps
    | with_reducible apply State.findRecord_keeps
    | with_reducible apply State.recordBad_keeps
    | with_reducible apply k_go
    | (with_reducible apply Keeps.ite <;> intros)
    | split
    | with_reducible refine KeepsP.of_eq (by with_reducible assumption) ?_

theorem State.doneSlot_keeps {s0 t : State} (h : Keeps s0 t) (d : Desc) (k : Nat) : Keeps s0 (State.doneSlot t d k) := by
  unfold State.doneSlot
  iterate 40 all_goals try first
    | with_reducible assumption
    | with_reducible apply State.complete_keeps

theorem writeRow_keeps {s0 t : State} (h : Keeps s0 t) (d : Desc) (op : Nat) (gw : Bool) (body : State → State) (k_body : ∀ u, Keeps s0 u → Keeps s0 (body u)) : Keeps s0 (writeRow d op gw body t) := by
  unfold writeRow
  iterate 40 all_goals try first
    | with_reducible assumption
    | (with_reducible apply formRow_keeps <;> intros)
    | with_reducible apply k_body
    | (with_reducible apply Keeps.ite <;> intros)

theorem execSensorWriteInsert_keeps {s0 t : State} (h : Keeps s0 t) (d : Desc) : KeepsN s0 (execSensorWriteInsert d t) := by
  unfold execSensorWriteInsert
  iterate 40 all_goals try first
    | with_reducible assumption
    | (lift_lets -underBinder; intro y)
    | (with_reducible apply writeRow_keeps <;> intros)
    | (with_reducible apply sensorBody_keeps <;> intros)
    | with_reducible apply State.done_keeps
    | with_reducible apply State.insertSensor_keeps
    | with_reducible apply State.tableFull_keeps
    | with_reducible apply State.doneSlot_keeps
    | with_reducible apply State.countSensor_keeps
    | with_reducible refine KeepsN.next ?_
    | split
    | with_reducible refine KeepsP.of_eq (by with_reducible assumption) ?_

theorem execSensorWriteReplace_keeps {s0 t : State} (h : Keeps s0 t) (d : Desc) : KeepsN s0 (execSensorWriteReplace d t) := by
  unfold execSensorWriteReplace
  iterate 40 all_goals try first
    | with_reducible assumption
    | (lift_lets -underBinder; intro y)
    | (with_reducible apply writeRow_keeps <;> intros)
    | (with_reducible apply sensorBody_keeps <;> intros)
    | with_reducible apply State.done_keeps
    | with_reducible apply State.doneSlot_keeps
    | with_reducible apply State.countSensor_keeps
    | with_reducible apply State.areaWrite_keeps
    | with_reducible refine KeepsN.next ?_
    | split

theorem execSensorWriteDelete_keeps {s0 t : State} (h : Keeps s0 t) (d : Desc) : KeepsN s0 (execSensorWriteDelete d t) := by
  unfold execSensorWriteDelete
  iterate 40 all_goals try first
    | with_reducible assumption
    | (with_reducible apply writeRow_keeps <;> intros)
    | (with_reducible apply sensorBody_keeps <;> intros)
    | with_reducible apply State.done_keeps
    | with_reducible apply State.doneSlot_keeps
    | with_reducible apply State.countSensor_keeps
    | with_reducible apply State.areaWrite_keeps
    | with_reducible apply State.setIndex_keeps
    | with_reducible refine KeepsN.next ?_
    | split

theorem execSensorWriteRead_keeps {s0 t : State} (h : Keeps s0 t) (d : Desc) : KeepsN s0 (execSensorWriteRead d t) := by
  unfold execSensorWriteRead
  iterate 40 all_goals try first
    | with_reducible assumption
    | (with_reducible apply writeRow_keeps <;> intros)
    | (with_reducible apply sensorBody_keeps <;> intros)
    | with_reducible apply State.done_keeps
    | with_reducible apply State.writeBufDone_keeps
    | with_reducible refine KeepsN.next ?_
    | split

theorem execGatewayInsert_keeps {s0 t : State} (h : Keeps s0 t) (d : Desc) : KeepsN s0 (execGatewayInsert d t) := by
  unfold execGatewayInsert
  iterate 40 all_goals try first
    | with_reducible assumption
    | (lift_lets -underBinder; intro y; with_reducible refine (fun (hy : Keeps s0 y) => ?_) ?_ <;> [clear_value y; subst y])
    | (with_reducible apply writeRow_keeps <;> intros)
    | (with_reducible apply gatewayBody_keeps <;> intros)
    | with_reducible apply State.doneSlot_keeps
    | with_reducible apply State.areaWrite_keeps
    | with_reducible apply State.done_keeps
    | with_reducible apply State.freeSlot_keeps
    | with_reducible apply State.tableFull_keeps
    | with_reducible apply State.putRecord_keeps
    | with_reducible apply State.withRadius_keeps
    | (with_reducible apply Keeps.ite <;> intros)
    | with_reducible refine KeepsN.next ?_
    | split
    | with_reducible refine KeepsP.of_eq (by with_reducible assumption) ?_

theorem execGatewayReplace_keeps {s0 t : State} (h : Keeps s0 t) (d : Desc) : KeepsN s0 (execGatewayReplace d t) := by
  unfold execGatewayReplace
  iterate 40 all_goals try first
    | with_reducible assumption
    | (lift_lets -underBinder; intro y)
    | (with_reducible apply writeRow_keeps <;> intros)
    | (with_reducible apply gatewayBody_keeps <;> intros)
    | with_reducible apply State.done_keeps
    | with_reducible apply State.doneSlot_keeps
    | with_reducible apply State.areaWrite_keeps
    | with_reducible refine KeepsN.next ?_
    | split

theorem execGatewayDelete_keeps {s0 t : State} (h : Keeps s0 t) (d : Desc) : KeepsN s0 (execGatewayDelete d t) := by
  unfold execGatewayDelete
  iterate 40 all_goals try first
    | with_reducible assumption
    | (lift_lets -underBinder; intro y; with_reducible refine (fun (hy : Keeps s0 y) => ?_) ?_ <;> [clear_value y; subst y])
    | (with_reducible apply writeRow_keeps <;> intros)
    | (with_reducible apply gatewayBody_keeps <;> intros)
    | with_reducible apply State.done_keeps
    | with_reducible apply State.doneSlot_keeps
    | with_reducible apply State.areaWrite_keeps
    | with_reducible apply State.setIndex_keeps
    | with_reducible apply State.withRadius_keeps
    | (with_reducible apply Keeps.ite <;> intros)
    | with_reducible refine KeepsN.next ?_
    | split

theorem execGatewayRead_keeps {s0 t : State} (h : Keeps s0 t) (d : Desc) : KeepsN s0 (execGatewayRead d t) := by
  unfold execGatewayRead
  iterate 40 all_goals try first
    | with_reducible assumption
    | (with_reducible apply writeRow_keeps <;> intros)
    | (with_reducible apply gatewayBody_keeps <;> intros)
    | with_reducible apply State.done_keeps
    | with_reducible apply State.writeBufDone_keeps
    | with_reducible refine KeepsN.next ?_
    | split

theorem State.visit_keeps {s0 t : State} (h : Keeps s0 t) (slot : Nat) : KeepsP s0 (State.visit t slot) := by
  unfold State.visit
  iterate 40 all_goals try first
    | with_reducible assumption
    | with_reducible apply State.areaRead_keeps
    | with_reducible apply State.slotId_keeps
    | with_reducible apply State.recordBad_keeps
    | split
    | fail_if_no_progress with_reducible refine KeepsP.mk ?_
    | with_reducible refine KeepsP.of_eq (by with_reducible assumption) ?_

theorem State.ckptGo_keeps {s0 t : State} (h : Keeps s0 t) (a : List Nat) (a1 : Nat) (a3 : List (Nat × List Byte)) : KeepsP s0 (State.ckptGo a a1 t a3) := by
  induction a generalizing t a1 a3 with
  | nil =>
    unfold State.ckptGo
    iterate 40 all_goals try first
      | with_reducible assumption
      | fail_if_no_progress with_reducible refine KeepsP.mk ?_
  | cons x l ih =>
    unfold State.ckptGo
    iterate 40 all_goals try first
      | with_reducible apply ih
      | with_reducible assumption
      | with_reducible apply State.visit_keeps
      | (with_reducible apply KeepsP.ite <;> intros)
      | split
      | fail_if_no_progress with_reducible refine KeepsP.mk ?_
      | with_reducible refine KeepsP.of_eq (by with_reducible assumption) ?_

theorem ckptWrite_keeps {s0 t : State} (h : Keeps s0 t) (d : Desc) (paused : Nat) : Keeps s0 (ckptWrite d paused t) := by
  unfold ckptWrite
  iterate 40 all_goals try first
    | with_reducible assumption
    | (lift_lets -underBinder; intro y; with_reducible refine (fun (hy : Keeps s0 y) => ?_) ?_ <;> [clear_value y; subst y])
    | (lift_lets -underBinder; intro y)
    | with_reducible apply State.ckptGo_keeps
    | with_reducible apply State.writeMem_keeps
    | with_reducible apply State.done_keeps
    | with_reducible apply State.areaWrite_keeps
    | with_reducible apply State.raise_keeps
    | with_reducible apply State.complete_keeps
    | (with_reducible apply KeepsP.ite <;> intros)
    | (with_reducible apply Keeps.foldl <;> intros)
    | split
    | fail_if_no_progress with_reducible refine KeepsP.mk ?_
    | with_reducible refine KeepsP.of_eq (by with_reducible assumption) ?_

theorem State.retryHeld_keeps {s0 t : State} (h : Keeps s0 t) : Keeps s0 (State.retryHeld t) := by
  unfold State.retryHeld
  iterate 40 all_goals try first
    | with_reducible assumption
    | with_reducible apply State.storeRead_keeps
    | with_reducible apply State.withRadius_keeps
    | (with_reducible apply Keeps.foldl <;> intros)
    | with_reducible apply KeepsP.snd

theorem ckptConfirm_keeps {s0 t : State} (h : Keeps s0 t) (d : Desc) (paused : Nat) : Keeps s0 (ckptConfirm d paused t) := by
  unfold ckptConfirm
  iterate 40 all_goals try first
    | with_reducible assumption
    | (lift_lets -underBinder; intro y)
    | with_reducible apply State.visit_keeps
    | with_reducible apply State.areaWrite_keeps
    | with_reducible apply State.complete_keeps
    | with_reducible apply State.raise_keeps
    | with_reducible apply State.retryHeld_keeps
    | (with_reducible apply KeepsP.ite <;> intros)
    | (with_reducible apply KeepsP.foldl <;> intros)
    | split
    | fail_if_no_progress with_reducible refine KeepsP.mk ?_
    | with_reducible apply KeepsP.snd
    | with_reducible refine KeepsP.of_eq (by with_reducible assumption) ?_

theorem ckptRun_keeps {s0 t : State} (h : Keeps s0 t) (d : Desc) (paused : Nat) : Keeps s0 (ckptRun d paused t) := by
  unfold ckptRun
  iterate 40 all_goals try first
    | with_reducible assumption
    | with_reducible apply ckptWrite_keeps
    | with_reducible apply ckptConfirm_keeps
    | (with_reducible apply Keeps.ite <;> intros)

theorem ckptBody_keeps {s0 t : State} (h : Keeps s0 t) (d : Desc) : Keeps s0 (ckptBody d t) := by
  unfold ckptBody
  iterate 40 all_goals try first
    | with_reducible assumption
    | (lift_lets -underBinder; intro y)
    | with_reducible apply ckptRun_keeps
    | with_reducible apply State.withRadius_keeps
    | (with_reducible apply Keeps.ite <;> intros)

theorem State.resumeCkpt_keeps {s0 t : State} (h : Keeps s0 t) : Keeps s0 (State.resumeCkpt t) := by
  unfold State.resumeCkpt
  iterate 40 all_goals try first
    | with_reducible assumption
    | (lift_lets -underBinder; intro y)
    | with_reducible apply ckptRun_keeps
    | with_reducible apply State.withRadius_keeps
    | (with_reducible apply Keeps.ite <;> intros)
    | (with_reducible apply Keeps.foldl <;> intros)

theorem execSensorCheckpointWrite_keeps {s0 t : State} (h : Keeps s0 t) (d : Desc) : KeepsN s0 (execSensorCheckpointWrite d t) := by
  unfold execSensorCheckpointWrite
  iterate 40 all_goals try first
    | with_reducible assumption
    | (with_reducible apply formRow_keeps <;> intros)
    | with_reducible apply ckptBody_keeps
    | with_reducible refine KeepsN.next ?_

theorem execSensorCheckpointConfirm_keeps {s0 t : State} (h : Keeps s0 t) (d : Desc) : KeepsN s0 (execSensorCheckpointConfirm d t) := by
  unfold execSensorCheckpointConfirm
  iterate 40 all_goals try first
    | with_reducible assumption
    | (with_reducible apply formRow_keeps <;> intros)
    | with_reducible apply ckptBody_keeps
    | with_reducible refine KeepsN.next ?_

theorem State.itemKey_keeps {s0 t : State} (h : Keeps s0 t) (i : RItem) : KeepsP s0 (State.itemKey t i) := by
  unfold State.itemKey
  iterate 40 all_goals try first
    | with_reducible assumption
    | (lift_lets -underBinder; intro y; with_reducible refine (fun (hy : Keeps s0 y) => ?_) ?_ <;> [clear_value y; subst y])
    | with_reducible apply State.endRoot_keeps
    | with_reducible apply State.derive_keeps
    | split
    | fail_if_no_progress with_reducible refine KeepsP.mk ?_

theorem State.shipUp_keeps {s0 t : State} (h : Keeps s0 t) (k : Nat) (i : RItem) (nokey : Bool) : Keeps s0 (State.shipUp t k i nokey) := by
  unfold State.shipUp
  iterate 40 all_goals try first
    | with_reducible assumption
    | (lift_lets -underBinder; intro y)
    | with_reducible apply State.rcount_keeps
    | with_reducible apply State.dropItem_keeps
    | with_reducible apply State.itemKey_keeps
    | with_reducible apply State.releaseItem_keeps
    | (with_reducible apply Keeps.ite <;> intros)
    | split
    | with_reducible apply KeepsP.snd
    | with_reducible refine KeepsP.of_eq (by with_reducible assumption) ?_

theorem State.shipDown_keeps {s0 t : State} (h : Keeps s0 t) (k : Nat) (i : RItem) (nokey : Bool) : Keeps s0 (State.shipDown t k i nokey) := by
  unfold State.shipDown
  iterate 40 all_goals try first
    | with_reducible assumption
    | with_reducible apply State.dropItem_keeps
    | with_reducible apply State.itemKey_keeps
    | with_reducible apply State.draw_keeps
    | with_reducible apply State.endRItem_keeps
    | with_reducible apply State.recUnlock_keeps
    | with_reducible apply State.storeRecord_keeps
    | (with_reducible apply Keeps.ite <;> intros)
    | with_reducible apply KeepsP.snd

theorem State.dropBatch_keeps {s0 t : State} (h : Keeps s0 t) (cause : Nat) (counter : Nat) : Keeps s0 (State.dropBatch t cause counter) := by
  unfold State.dropBatch
  iterate 40 all_goals try first
    | with_reducible assumption
    | with_reducible apply State.raiseOnce_keeps
    | with_reducible apply State.rcount_keeps

theorem State.takeRecords_keeps {s0 t : State} (h : Keeps s0 t) (up : Bool) (ver : Nat) (gateway : Nat) (batch : Nat) (recs : List (List Byte)) : Keeps s0 (State.takeRecords t up ver gateway batch recs) := by
  unfold State.takeRecords
  iterate 40 all_goals try first
    | with_reducible assumption
    | (lift_lets -underBinder; intro y)
    | with_reducible apply State.withRadius_keeps
    | with_reducible apply State.batchDone_keeps
    | with_reducible apply State.rcount_keeps
    | (with_reducible apply Keeps.ite <;> intros)
    | (with_reducible apply Keeps.foldl <;> intros)

theorem State.acceptBatch_keeps {s0 t : State} (h : Keeps s0 t) (bs : List Byte) (recs : List (List Byte)) (gw : Option (Nat × List Byte)) : Keeps s0 (State.acceptBatch t bs recs gw) := by
  unfold State.acceptBatch
  iterate 40 all_goals try first
    | with_reducible assumption
    | (lift_lets -underBinder; intro y)
    | with_reducible apply State.withRadius_keeps
    | with_reducible apply State.areaWrite_keeps
    | with_reducible apply State.takeRecords_keeps
    | split

theorem State.checkBatch_keeps {s0 t : State} (h : Keeps s0 t) (d : List Byte) : Keeps s0 (State.checkBatch t d) := by
  unfold State.checkBatch
  iterate 40 all_goals try first
    | with_reducible assumption
    | (lift_lets -underBinder; intro y)
    | with_reducible apply State.dropBatch_keeps
    | with_reducible apply State.findRecord_keeps
    | with_reducible apply State.acceptBatch_keeps
    | with_reducible apply State.recordBad_keeps
    | (with_reducible apply Keeps.ite <;> intros)
    | split
    | with_reducible apply KeepsP.snd

theorem execRadiusBatchTake_keeps {s0 t : State} (h : Keeps s0 t) (read : BatchRead) : KeepsN s0 (execRadiusBatchTake read t) := by
  unfold execRadiusBatchTake
  iterate 40 all_goals try first
    | with_reducible assumption
    | with_reducible apply State.inboundTake_keeps
    | with_reducible apply State.draw_keeps
    | with_reducible apply State.checkBatch_keeps
    | with_reducible apply State.freeFrame_keeps
    | with_reducible apply State.readFrame_keeps
    | (with_reducible apply KeepsN.ite <;> intros)
    | with_reducible refine KeepsN.next ?_
    | split
    | with_reducible apply KeepsP.snd
    | with_reducible refine KeepsP.of_eq (by with_reducible assumption) ?_

theorem execBatchAck_keeps {s0 t : State} (h : Keeps s0 t) (batch : Nat) : KeepsN s0 (execBatchAck batch t) := by
  unfold execBatchAck
  iterate 40 all_goals try first
    | with_reducible assumption
    | (lift_lets -underBinder; intro y)
    | with_reducible apply State.withRadius_keeps
    | with_reducible apply State.areaRead_keeps
    | with_reducible apply State.sendToGateway_keeps
    | with_reducible refine KeepsN.next ?_
    | split
    | with_reducible apply KeepsP.snd
    | with_reducible refine KeepsP.of_eq (by with_reducible assumption) ?_

theorem State.leaseEnd_keeps {s0 t : State} (h : Keeps s0 t) (slot : Nat) : Keeps s0 (State.leaseEnd t slot) := by
  unfold State.leaseEnd
  iterate 40 all_goals try first
    | with_reducible assumption
    | (lift_lets -underBinder; intro y)
    | with_reducible apply State.raise_keeps
    | with_reducible apply State.withRadius_keeps
    | split

theorem execRecordLockLeaseExpiry_keeps {s0 t : State} (h : Keeps s0 t) (slot : Nat) : KeepsN s0 (execRecordLockLeaseExpiry slot t) := by
  unfold execRecordLockLeaseExpiry
  iterate 40 all_goals try first
    | with_reducible assumption
    | with_reducible apply State.leaseEnd_keeps
    | with_reducible apply State.passTo_keeps
    | with_reducible refine KeepsN.next ?_
    | split

theorem State.probe_keeps {s0 t : State} (h : Keeps s0 t) (sensor : BitVec 64) (g : Nat) : KeepsP s0 (State.probe t sensor g) := by
  unfold State.probe
  iterate 40 all_goals try first
    | with_reducible assumption
    | (lift_lets -underBinder; intro y)
    | with_reducible apply State.withRadius_keeps
    | split
    | fail_if_no_progress with_reducible refine KeepsP.mk ?_

theorem State.reserveKey_keeps {s0 t : State} (h : Keeps s0 t) (i : RItem) : Keeps s0 (State.reserveKey t i) := by
  unfold State.reserveKey
  iterate 40 all_goals try first
    | with_reducible assumption
    | (lift_lets -underBinder; intro y)
    | with_reducible apply State.withRadius_keeps

theorem State.itemStall_keeps {s0 t : State} (h : Keeps s0 t) (i : RItem) : Keeps s0 (State.itemStall t i) := by
  unfold State.itemStall
  iterate 40 all_goals try first
    | with_reducible assumption
    | with_reducible apply State.rcount_keeps
    | with_reducible apply State.modRItem_keeps
    | (with_reducible apply Keeps.ite <;> intros)

theorem State.startItem_keeps {s0 t : State} (h : Keeps s0 t) (i : RItem) (x : Launch) (len : Nat) : Keeps s0 (State.startItem t i x len) := by
  unfold State.startItem
  iterate 40 all_goals try first
    | with_reducible assumption
    | (lift_lets -underBinder; intro y)
    | with_reducible apply State.probe_keeps
    | with_reducible apply State.reserveKey_keeps
    | with_reducible apply State.withRadius_keeps
    | with_reducible apply State.modRItem_keeps
    | with_reducible apply State.shipUp_keeps
    | with_reducible apply State.shipDown_keeps
    | with_reducible apply State.startThread_keeps
    | (with_reducible apply Keeps.ite <;> intros)
    | with_reducible apply KeepsP.snd

theorem State.abortItem_keeps {s0 t : State} (h : Keeps s0 t) (i : RItem) : Keeps s0 (State.abortItem t i) := by
  unfold State.abortItem
  iterate 40 all_goals try first
    | with_reducible assumption
    | with_reducible apply State.endRItem_keeps
    | with_reducible apply State.rcount_keeps

theorem State.upDispatch_keeps {s0 t : State} (h : Keeps s0 t) (i : RItem) (x : Launch) : Keeps s0 (State.upDispatch t i x) := by
  unfold State.upDispatch
  iterate 40 all_goals try first
    | with_reducible assumption
    | (lift_lets -underBinder; intro y)
    | with_reducible apply State.endRItem_keeps
    | with_reducible apply State.rcount_keeps
    | with_reducible apply State.abortItem_keeps
    | with_reducible apply State.modRItem_keeps
    | with_reducible apply State.itemStall_keeps
    | with_reducible apply State.startItem_keeps
    | (with_reducible apply Keeps.ite <;> intros)

theorem State.refuseDown_keeps {s0 t : State} (h : Keeps s0 t) (i : RItem) (status : Nat) (gateway : Nat) (window : Nat) : Keeps s0 (State.refuseDown t i status gateway window) := by
  unfold State.refuseDown
  iterate 40 all_goals try first
    | with_reducible assumption
    | with_reducible apply State.endRItem_keeps
    | with_reducible apply State.outStatus_keeps

theorem State.downDispatch_keeps {s0 t : State} (h : Keeps s0 t) (i : RItem) (x : Launch) : Keeps s0 (State.downDispatch t i x) := by
  unfold State.downDispatch
  iterate 40 all_goals try first
    | with_reducible assumption
    | (lift_lets -underBinder; intro y)
    | with_reducible apply State.refuseDown_keeps
    | with_reducible apply State.rcount_keeps
    | with_reducible apply State.areaRead_keeps
    | with_reducible apply State.endRItem_keeps
    | with_reducible apply State.recordBad_keeps
    | with_reducible apply State.raise_keeps
    | with_reducible apply State.storePut_keeps
    | with_reducible apply State.abortItem_keeps
    | with_reducible apply State.areaWrite_keeps
    | with_reducible apply State.startItem_keeps
    | (with_reducible apply Keeps.ite <;> intros)
    | split
    | with_reducible refine KeepsP.of_eq (by with_reducible assumption) ?_

theorem execRadiusDispatch_keeps {s0 t : State} (h : Keeps s0 t) (item : Nat) (thr : RadiusThread) : KeepsN s0 (execRadiusDispatch item thr t) := by
  unfold execRadiusDispatch
  iterate 40 all_goals try first
    | with_reducible assumption
    | (lift_lets -underBinder; intro y; with_reducible refine (fun (hy : Keeps s0 y) => ?_) ?_ <;> [clear_value y; subst y])
    | (lift_lets -underBinder; intro y)
    | with_reducible apply State.findRecord_keeps
    | with_reducible apply State.endRItem_keeps
    | with_reducible apply State.recordBad_keeps
    | with_reducible apply State.rcount_keeps
    | with_reducible apply State.toReadingQueue_keeps
    | with_reducible apply State.leaseEnd_keeps
    | with_reducible apply State.itemStall_keeps
    | with_reducible apply State.upDispatch_keeps
    | with_reducible apply State.downDispatch_keeps
    | (with_reducible apply Keeps.ite <;> intros)
    | (with_reducible apply KeepsN.ite <;> intros)
    | with_reducible refine KeepsN.next ?_
    | split
    | with_reducible refine KeepsP.of_eq (by with_reducible assumption) ?_

theorem execReadingBatchFlush_keeps {s0 t : State} (h : Keeps s0 t) (group : Fin 4096) : KeepsN s0 (execReadingBatchFlush group t) := by
  unfold execReadingBatchFlush
  iterate 40 all_goals try first
    | with_reducible assumption
    | with_reducible apply State.sendReadings_keeps
    | with_reducible apply State.passTo_keeps
    | (with_reducible apply Keeps.ite <;> intros)
    | with_reducible refine KeepsN.next ?_
    | split

theorem State.storeStatus_keeps {s0 t : State} (h : Keeps s0 t) (e : StoreEntry) (status : Nat) : Keeps s0 (State.storeStatus t e status) := by
  unfold State.storeStatus
  iterate 40 all_goals try first
    | with_reducible assumption
    | with_reducible apply State.outRecord_keeps

theorem State.leaveStore_keeps {s0 t : State} (h : Keeps s0 t) (ids : List Nat) : Keeps s0 (State.leaveStore t ids) := by
  unfold State.leaveStore
  iterate 40 all_goals try first
    | with_reducible assumption
    | (lift_lets -underBinder; intro y)
    | with_reducible apply State.withRadius_keeps

theorem State.sendBatch_keeps {s0 t : State} (h : Keeps s0 t) (gw : List Byte) (es : List StoreEntry) : Keeps s0 (State.sendBatch t gw es) := by
  unfold State.sendBatch
  iterate 40 all_goals try first
    | with_reducible assumption
    | (lift_lets -underBinder; intro y)
    | with_reducible apply State.sendToGateway_keeps
    | with_reducible apply State.withRadius_keeps
    | with_reducible apply State.storeStatus_keeps
    | with_reducible apply State.leaveStore_keeps
    | (with_reducible apply Keeps.ite <;> intros)
    | (with_reducible apply Keeps.foldl <;> intros)
    | with_reducible apply KeepsP.snd

theorem State.sendPacked_keeps {s0 t : State} (h : Keeps s0 t) (gw : List Byte) (a : List StoreEntry) (a3 : List StoreEntry) : Keeps s0 (State.sendPacked t gw a a3) := by
  induction a generalizing t a3 with
  | nil =>
    unfold State.sendPacked
    iterate 40 all_goals try first
      | with_reducible assumption
      | with_reducible apply State.sendBatch_keeps
  | cons x l ih =>
    unfold State.sendPacked
    iterate 40 all_goals try first
      | with_reducible apply ih
      | with_reducible assumption
      | (lift_lets -underBinder; intro y)
      | with_reducible apply State.sendBatch_keeps
      | (with_reducible apply Keeps.ite <;> intros)

theorem State.readable_keeps {s0 t : State} (h : Keeps s0 t) (es : List StoreEntry) : KeepsP s0 (State.readable t es) := by
  unfold State.readable
  iterate 40 all_goals try first
    | with_reducible assumption
    | with_reducible apply State.storeRead_keeps
    | with_reducible apply State.leaveStore_keeps
    | (with_reducible apply KeepsP.ite <;> intros)
    | (with_reducible apply KeepsP.foldl <;> intros)
    | fail_if_no_progress with_reducible refine KeepsP.mk ?_
    | with_reducible apply KeepsP.snd

theorem State.releaseQueue_keeps {s0 t : State} (h : Keeps s0 t) (a1 : Nat) (queue : Nat) : Keeps s0 (State.releaseQueue t a1 queue) := by
  unfold State.releaseQueue
  iterate 40 all_goals try first
    | with_reducible assumption
    | (lift_lets -underBinder; intro y)
    | with_reducible apply State.readable_keeps
    | with_reducible apply State.areaRead_keeps
    | with_reducible apply State.recordBad_keeps
    | with_reducible apply State.leaveStore_keeps
    | with_reducible apply State.sendPacked_keeps
    | (with_reducible apply Keeps.ite <;> intros)
    | (with_reducible apply Keeps.foldl <;> intros)
    | split
    | with_reducible apply KeepsP.snd
    | with_reducible refine KeepsP.of_eq (by with_reducible assumption) ?_

theorem execDownlinkWindowRelease_keeps {s0 t : State} (h : Keeps s0 t) (queue : Fin 8192) : KeepsN s0 (execDownlinkWindowRelease queue t) := by
  unfold execDownlinkWindowRelease
  iterate 40 all_goals try first
    | with_reducible assumption
    | (lift_lets -underBinder; intro y; with_reducible refine (fun (hy : Keeps s0 y) => ?_) ?_ <;> [clear_value y; subst y])
    | with_reducible apply State.passToTime_keeps
    | with_reducible apply State.releaseQueue_keeps
    | (with_reducible apply KeepsN.ite <;> intros)
    | with_reducible refine KeepsN.next ?_
    | split

theorem execDownlinkExpiry_keeps {s0 t : State} (h : Keeps s0 t) (entry : Nat) : KeepsN s0 (execDownlinkExpiry entry t) := by
  unfold execDownlinkExpiry
  generalize t.radius.store.find? _ = x
  obtain _ | e := x
  · exact KeepsN.next h
  · refine KeepsN.ite (fun _ => KeepsN.next h) fun _ => ?_
    have k := KeepsP.snd (State.storeRead_keeps (State.passToTime_keeps h e.expiry) e)
    generalize State.storeRead _ e = p at k ⊢
    obtain ⟨ok, s1⟩ := p
    have kl := State.leaveStore_keeps k [entry]
    exact KeepsN.next (Keeps.ite (fun _ => State.raise_keeps (State.storeStatus_keeps kl _ _) _ _) fun _ => kl)

theorem gateLoadBody_keeps {s0 t : State} (h : Keeps s0 t) (d : Desc) : Keeps s0 (gateLoadBody d t) := by
  unfold gateLoadBody
  iterate 40 all_goals try first
    | with_reducible assumption
    | (lift_lets -underBinder; intro y)
    | with_reducible apply State.done_keeps
    | (with_reducible apply State.withBuf_keeps <;> intros)
    | with_reducible apply State.setGate_keeps
    | (with_reducible apply Keeps.ite <;> intros)
    | split

theorem execGateLoad_keeps {s0 t : State} (h : Keeps s0 t) (d : Desc) : KeepsN s0 (execGateLoad d t) := by
  unfold execGateLoad
  iterate 40 all_goals try first
    | with_reducible assumption
    | (with_reducible apply ringCommand_keeps <;> intros)
    | with_reducible apply gateLoadBody_keeps
    | with_reducible refine KeepsN.next ?_

theorem gateArmBody_keeps {s0 t : State} (h : Keeps s0 t) (d : Desc) : Keeps s0 (gateArmBody d t) := by
  unfold gateArmBody
  iterate 40 all_goals try first
    | with_reducible assumption
    | (lift_lets -underBinder; intro y)
    | with_reducible apply State.done_keeps
    | with_reducible apply State.setGate_keeps
    | with_reducible apply State.raise_keeps
    | with_reducible apply State.complete_keeps
    | (with_reducible apply Keeps.ite <;> intros)
    | split

theorem execGateArm_keeps {s0 t : State} (h : Keeps s0 t) (d : Desc) : KeepsN s0 (execGateArm d t) := by
  unfold execGateArm
  iterate 40 all_goals try first
    | with_reducible assumption
    | (with_reducible apply ringCommand_keeps <;> intros)
    | with_reducible apply gateArmBody_keeps
    | (with_reducible apply Keeps.ite <;> intros)
    | with_reducible refine KeepsN.next ?_

theorem execGateArmCancel_keeps {s0 t : State} (h : Keeps s0 t) (d : Desc) : KeepsN s0 (execGateArmCancel d t) := by
  unfold execGateArmCancel
  iterate 40 all_goals try first
    | with_reducible assumption
    | (lift_lets -underBinder; intro y)
    | (with_reducible apply ringCommand_keeps <;> intros)
    | with_reducible apply State.done_keeps
    | with_reducible apply State.setGate_keeps
    | (with_reducible apply Keeps.ite <;> intros)
    | with_reducible refine KeepsN.next ?_

theorem State.startGate_keeps {s0 t : State} (h : Keeps s0 t) (x : Nat) : Keeps s0 (State.startGate t x) := by
  unfold State.startGate
  iterate 40 all_goals try first
    | with_reducible assumption
    | (lift_lets -underBinder; intro y; with_reducible refine (fun (hy : Keeps s0 y) => ?_) ?_ <;> [clear_value y; subst y])
    | (lift_lets -underBinder; intro y)
    | with_reducible apply State.setGate_keeps
    | with_reducible apply State.raise_keeps
    | with_reducible apply State.newHead_keeps
    | (with_reducible apply Keeps.foldl <;> intros)
    | split

theorem execGateListStart_keeps {s0 t : State} (h : Keeps s0 t) (x : Fin 32) : KeepsN s0 (execGateListStart x t) := by
  unfold execGateListStart
  iterate 40 all_goals try first
    | with_reducible assumption
    | (lift_lets -underBinder; intro y)
    | with_reducible apply State.startGate_keeps
    | with_reducible apply State.passToTime_keeps
    | (with_reducible apply Keeps.ite <;> intros)
    | with_reducible refine KeepsN.next ?_

theorem State.gatesDue_keeps {s0 t : State} (h : Keeps s0 t) : Keeps s0 (State.gatesDue t) := by
  unfold State.gatesDue
  iterate 40 all_goals try first
    | with_reducible assumption
    | with_reducible apply State.startGate_keeps
    | (with_reducible apply Keeps.ite <;> intros)
    | (with_reducible apply Keeps.foldl <;> intros)

theorem execGateEntryAdvance_keeps {s0 t : State} (h : Keeps s0 t) (x : Fin 32) : KeepsN s0 (execGateEntryAdvance x t) := by
  unfold execGateEntryAdvance
  iterate 40 all_goals try first
    | with_reducible assumption
    | with_reducible apply State.passToTime_keeps
    | with_reducible refine KeepsN.next ?_
    | split

theorem State.indRefuse_keeps {s0 t : State} (h : Keeps s0 t) (target : Nat) (index : Nat) : Keeps s0 (State.indRefuse t target index) := by
  unfold State.indRefuse
  iterate 40 all_goals try first
    | with_reducible assumption
    | with_reducible apply State.raise_keeps
    | with_reducible apply State.orReg_keeps

theorem State.indStore_keeps {s0 t : State} (h : Keeps s0 t) (target : Nat) (index : Nat) (ws : List Nat) : Keeps s0 (State.indStore t target index ws) := by
  unfold State.indStore
  iterate 40 all_goals try first
    | with_reducible assumption
    | (lift_lets -underBinder; intro y)
    | with_reducible apply State.withSector_keeps
    | with_reducible apply State.indRefuse_keeps
    | with_reducible apply State.fillBuckets_keeps
    | with_reducible apply State.newHead_keeps
    | with_reducible apply State.retag_keeps
    | with_reducible apply State.setTag_keeps
    | (with_reducible apply Keeps.ite <;> intros)
    | split

theorem State.indCtrl_keeps {s0 t : State} (h : Keeps s0 t) (v : Nat) : Keeps s0 (State.indCtrl t v) := by
  unfold State.indCtrl
  iterate 40 all_goals try first
    | with_reducible assumption
    | (lift_lets -underBinder; intro y; with_reducible refine (fun (hy : Keeps s0 y) => ?_) ?_ <;> [clear_value y; subst y])
    | with_reducible apply State.setReg_keeps
    | with_reducible apply State.indRefuse_keeps
    | with_reducible apply State.indStore_keeps
    | (with_reducible apply Keeps.ite <;> intros)
    | (with_reducible apply Keeps.foldl <;> intros)

theorem execIndRead_keeps {s0 t : State} (h : Keeps s0 t) (value : Word32) : KeepsN s0 (execIndRead value t) := by
  unfold execIndRead
  iterate 40 all_goals try first
    | with_reducible assumption
    | with_reducible apply State.indCtrl_keeps
    | (with_reducible apply KeepsN.ite <;> intros)
    | with_reducible refine KeepsN.next ?_

theorem execIndWrite_keeps {s0 t : State} (h : Keeps s0 t) (value : Word32) : KeepsN s0 (execIndWrite value t) := by
  unfold execIndWrite
  iterate 40 all_goals try first
    | with_reducible assumption
    | with_reducible apply State.indCtrl_keeps
    | (with_reducible apply KeepsN.ite <;> intros)
    | with_reducible refine KeepsN.next ?_

theorem State.withTele_keeps {s0 t : State} (h : Keeps s0 t) (a1 : TeleState) : Keeps s0 (State.withTele t a1) := by
  unfold State.withTele
  iterate 40 all_goals try first
    | with_reducible assumption
    | fail_if_no_progress with_reducible refine Keeps.upd ?_ rfl

theorem State.putEventRecord_keeps {s0 t : State} (h : Keeps s0 t) (e : Nat) (bs : List Byte) : KeepsP s0 (State.putEventRecord t e bs) := by
  unfold State.putEventRecord
  iterate 40 all_goals try first
    | with_reducible assumption
    | (lift_lets -underBinder; intro y)
    | with_reducible apply State.writeMem_keeps
    | with_reducible apply State.setRing_keeps
    | with_reducible apply State.ringError_keeps
    | (with_reducible apply KeepsP.ite <;> intros)
    | fail_if_no_progress with_reducible refine KeepsP.mk ?_
    | with_reducible apply KeepsP.snd

theorem State.writeTaken_keeps {s0 t : State} (h : Keeps s0 t) (a1 : Taken) (lost : Bool) : Keeps s0 (State.writeTaken t a1 lost) := by
  unfold State.writeTaken
  iterate 40 all_goals try first
    | with_reducible assumption
    | (lift_lets -underBinder; intro y)
    | with_reducible apply State.setRing_keeps
    | with_reducible apply State.raiseOnce_keeps
    | with_reducible apply State.putEventRecord_keeps
    | (with_reducible apply Keeps.ite <;> intros)
    | split
    | with_reducible apply KeepsP.snd
    | with_reducible refine KeepsP.of_eq (by with_reducible assumption) ?_

theorem State.reportDrops_keeps {s0 t : State} (h : Keeps s0 t) : Keeps s0 (State.reportDrops t) := by
  unfold State.reportDrops
  iterate 40 all_goals try first
    | with_reducible assumption
    | (lift_lets -underBinder; intro y)
    | with_reducible apply State.raiseOnce_keeps
    | with_reducible apply State.withTele_keeps
    | (with_reducible apply Keeps.ite <;> intros)

theorem execEventRecordWrite_keeps {s0 t : State} (h : Keeps s0 t) : KeepsN s0 (execEventRecordWrite t) := by
  unfold execEventRecordWrite
  iterate 40 all_goals try first
    | with_reducible assumption
    | (lift_lets -underBinder; intro y)
    | with_reducible apply State.withTele_keeps
    | with_reducible apply State.writeTaken_keeps
    | with_reducible apply State.reportDrops_keeps
    | (with_reducible apply Keeps.ite <;> intros)
    | (with_reducible apply KeepsN.ite <;> intros)
    | with_reducible refine KeepsN.next ?_
    | split

theorem State.counterAsk_keeps {s0 t : State} (h : Keeps s0 t) (v : Word32) : Keeps s0 (State.counterAsk t v) := by
  unfold State.counterAsk
  iterate 40 all_goals try first
    | with_reducible assumption
    | (lift_lets -underBinder; intro y; with_reducible refine (fun (hy : Keeps s0 y) => ?_) ?_ <;> [clear_value y; subst y])
    | with_reducible apply State.setReg_keeps
    | with_reducible apply State.withTele_keeps

theorem execCounterRead_keeps {s0 t : State} (h : Keeps s0 t) (value : Word32) : KeepsN s0 (execCounterRead value t) := by
  unfold execCounterRead
  iterate 40 all_goals try first
    | with_reducible assumption
    | with_reducible apply State.counterAsk_keeps
    | (with_reducible apply KeepsN.ite <;> intros)
    | with_reducible refine KeepsN.next ?_

theorem execCounterReadReady_keeps {s0 t : State} (h : Keeps s0 t) : KeepsN s0 (execCounterReadReady t) := by
  unfold execCounterReadReady
  iterate 40 all_goals try first
    | with_reducible assumption
    | (lift_lets -underBinder; intro y)
    | with_reducible apply State.withTele_keeps
    | with_reducible refine KeepsN.next ?_
    | split

theorem execPcLoRead_keeps {s0 t : State} (h : Keeps s0 t) (k : Fin 2048) : KeepsN s0 (execPcLoRead k t) := by
  unfold execPcLoRead
  iterate 40 all_goals try first
    | with_reducible assumption
    | (lift_lets -underBinder; intro y)
    | with_reducible apply State.withTele_keeps
    | with_reducible refine KeepsN.next ?_
    | fail_if_no_progress with_reducible refine Keeps.upd ?_ rfl

theorem State.setFrozen_keeps {s0 t : State} (h : Keeps s0 t) (cmd : Bool) (pin : Bool) (cause : Nat) : Keeps s0 (State.setFrozen t cmd pin cause) := by
  unfold State.setFrozen
  iterate 40 all_goals try first
    | with_reducible assumption
    | (lift_lets -underBinder; intro y)
    | with_reducible apply State.withTele_keeps
    | with_reducible apply State.raise_keeps
    | (with_reducible apply Keeps.ite <;> intros)

theorem execSnapshotFreeze_keeps {s0 t : State} (h : Keeps s0 t) (d : Desc) : KeepsN s0 (execSnapshotFreeze d t) := by
  unfold execSnapshotFreeze
  iterate 40 all_goals try first
    | with_reducible assumption
    | (with_reducible apply ringCommand_keeps <;> intros)
    | with_reducible apply State.done_keeps
    | with_reducible apply State.setFrozen_keeps
    | (with_reducible apply Keeps.ite <;> intros)
    | with_reducible refine KeepsN.next ?_

theorem execSnapshotThaw_keeps {s0 t : State} (h : Keeps s0 t) (d : Desc) : KeepsN s0 (execSnapshotThaw d t) := by
  unfold execSnapshotThaw
  iterate 40 all_goals try first
    | with_reducible assumption
    | (with_reducible apply ringCommand_keeps <;> intros)
    | with_reducible apply State.done_keeps
    | with_reducible apply State.setFrozen_keeps
    | (with_reducible apply Keeps.ite <;> intros)
    | with_reducible refine KeepsN.next ?_

theorem State.doCapture_keeps {s0 t : State} (h : Keeps s0 t) (q : CaptureOf) (c : Nat) : Keeps s0 (State.doCapture t q c) := by
  unfold State.doCapture
  iterate 40 all_goals try first
    | with_reducible assumption
    | (lift_lets -underBinder; intro y; clear_value y)
    | with_reducible apply State.raise_keeps
    | with_reducible apply State.writeMem_keeps
    | with_reducible apply State.complete_keeps
    | with_reducible apply State.writeBufDone_keeps
    | (with_reducible apply Keeps.ite <;> intros)
    | split
    | with_reducible apply KeepsP.snd

theorem State.requestCapture_keeps {s0 t : State} (h : Keeps s0 t) (q : CaptureOf) : Keeps s0 (State.requestCapture t q) := by
  unfold State.requestCapture
  iterate 40 all_goals try first
    | with_reducible assumption
    | (lift_lets -underBinder; intro y)
    | with_reducible apply State.withTele_keeps
    | with_reducible apply State.raise_keeps
    | with_reducible apply State.done_keeps
    | split

theorem execSnapshotNow_keeps {s0 t : State} (h : Keeps s0 t) (d : Desc) : KeepsN s0 (execSnapshotNow d t) := by
  unfold execSnapshotNow
  iterate 40 all_goals try first
    | with_reducible assumption
    | (with_reducible apply ringCommand_keeps <;> intros)
    | with_reducible apply State.done_keeps
    | with_reducible apply State.requestCapture_keeps
    | (with_reducible apply Keeps.ite <;> intros)
    | with_reducible refine KeepsN.next ?_

theorem execSnapshotAtTime_keeps {s0 t : State} (h : Keeps s0 t) (d : Desc) : KeepsN s0 (execSnapshotAtTime d t) := by
  unfold execSnapshotAtTime
  iterate 40 all_goals try first
    | with_reducible assumption
    | (lift_lets -underBinder; intro y)
    | (with_reducible apply ringCommand_keeps <;> intros)
    | with_reducible apply State.done_keeps
    | with_reducible apply State.requestCapture_keeps
    | with_reducible apply State.withTele_keeps
    | (with_reducible apply Keeps.ite <;> intros)
    | with_reducible refine KeepsN.next ?_

theorem State.snapEdge_keeps {s0 t : State} (h : Keeps s0 t) (cfg : Nat) (edge : Bool) : Keeps s0 (State.snapEdge t cfg edge) := by
  unfold State.snapEdge
  iterate 40 all_goals try first
    | with_reducible assumption
    | (lift_lets -underBinder; intro y)
    | with_reducible apply State.raise_keeps
    | with_reducible apply State.withTele_keeps
    | (with_reducible apply Keeps.ite <;> intros)

theorem State.snapPin_keeps {s0 t : State} (h : Keeps s0 t) (level : Bool) : Keeps s0 (State.snapPin t level) := by
  unfold State.snapPin
  iterate 40 all_goals try first
    | with_reducible assumption
    | (lift_lets -underBinder; intro y)
    | with_reducible apply State.withTele_keeps
    | with_reducible apply State.setFrozen_keeps
    | with_reducible apply State.snapEdge_keeps
    | (with_reducible apply Keeps.ite <;> intros)

theorem execSnapInEdge_keeps {s0 t : State} (h : Keeps s0 t) (level : Bool) : KeepsN s0 (execSnapInEdge level t) := by
  unfold execSnapInEdge
  iterate 40 all_goals try first
    | with_reducible assumption
    | with_reducible apply State.snapPin_keeps
    | with_reducible refine KeepsN.next ?_

theorem execSnapInFreezeLevel_keeps {s0 t : State} (h : Keeps s0 t) (level : Bool) : KeepsN s0 (execSnapInFreezeLevel level t) := by
  unfold execSnapInFreezeLevel
  iterate 40 all_goals try first
    | with_reducible assumption
    | with_reducible apply State.snapPin_keeps
    | with_reducible refine KeepsN.next ?_

theorem State.captureDue_keeps {s0 t : State} (h : Keeps s0 t) : Keeps s0 (State.captureDue t) := by
  unfold State.captureDue
  iterate 40 all_goals try first
    | with_reducible assumption
    | (lift_lets -underBinder; intro y; with_reducible refine (fun (hy : Keeps s0 y) => ?_) ?_ <;> [clear_value y; subst y])
    | (lift_lets -underBinder; intro y)
    | with_reducible apply State.requestCapture_keeps
    | with_reducible apply State.withTele_keeps
    | (with_reducible apply Keeps.ite <;> intros)
    | split

theorem execCapture_keeps {s0 t : State} (h : Keeps s0 t) : KeepsN s0 (execCapture t) := by
  unfold execCapture
  iterate 40 all_goals try first
    | with_reducible assumption
    | (lift_lets -underBinder; intro y; with_reducible refine (fun (hy : Keeps s0 y) => ?_) ?_ <;> [clear_value y; subst y])
    | (lift_lets -underBinder; intro y)
    | with_reducible apply State.captureDue_keeps
    | with_reducible apply State.passToTime_keeps
    | with_reducible apply State.doCapture_keeps
    | with_reducible apply State.withTele_keeps
    | (with_reducible apply Keeps.ite <;> intros)
    | with_reducible refine KeepsN.next ?_
    | split
    | intro _

theorem State.releasesDue_keeps {s0 t : State} (h : Keeps s0 t) (a1 : Nat) : Keeps s0 (State.releasesDue t a1) := by
  unfold State.releasesDue
  iterate 40 all_goals try first
    | with_reducible assumption
    | with_reducible apply State.releaseQueue_keeps
    | (with_reducible apply Keeps.foldl <;> intros)

theorem State.fireDue_keeps {s0 t : State} (h : Keeps s0 t) (a1 : Nat) : Keeps s0 (State.fireDue t a1) := by
  unfold State.fireDue
  iterate 40 all_goals try first
    | with_reducible assumption
    | with_reducible apply State.releasesDue_keeps
    | with_reducible apply State.captureDue_keeps
    | with_reducible apply State.gatesDue_keeps
    | with_reducible apply State.fireRotations_keeps

theorem State.jumpTo_keeps {s0 t : State} (h : Keeps s0 t) (a1 : Nat) (frac : Nat) : Keeps s0 (State.jumpTo t a1 frac) := by
  unfold State.jumpTo
  iterate 40 all_goals try first
    | with_reducible assumption
    | (lift_lets -underBinder; intro y)
    | with_reducible apply State.raise_keeps
    | with_reducible apply State.withGnomon_keeps
    | with_reducible apply State.tick_keeps
    | with_reducible apply State.fireDue_keeps
    | (with_reducible apply Keeps.ite <;> intros)

theorem State.loadError_keeps {s0 t : State} (h : Keeps s0 t) : Keeps s0 (State.loadError t) := by
  unfold State.loadError
  iterate 40 all_goals try first
    | with_reducible assumption
    | (lift_lets -underBinder; intro y)
    | with_reducible apply State.withGnomon_keeps

theorem State.within_keeps {s0 t : State} (h : Keeps s0 t) (n : Nat) : Keeps s0 (State.within t n) := by
  unfold State.within
  iterate 40 all_goals try first
    | with_reducible assumption
    | with_reducible apply State.draw_keeps
    | with_reducible apply State.pass_keeps
    | with_reducible apply KeepsP.snd

theorem State.setOrStep_keeps {s0 t : State} (h : Keeps s0 t) (v : Nat) : Keeps s0 (State.setOrStep t v) := by
  unfold State.setOrStep
  iterate 40 all_goals try first
    | with_reducible assumption
    | (lift_lets -underBinder; intro y)
    | with_reducible apply State.loadError_keeps
    | with_reducible apply State.jumpTo_keeps
    | with_reducible apply State.within_keeps
    | with_reducible apply State.servoUpdate_keeps
    | (with_reducible apply Keeps.ite <;> intros)

theorem State.gnomonCtrl_keeps {s0 t : State} (h : Keeps s0 t) (v : Nat) : Keeps s0 (State.gnomonCtrl t v) := by
  unfold State.gnomonCtrl
  iterate 40 all_goals try first
    | with_reducible assumption
    | (lift_lets -underBinder; intro y; with_reducible refine (fun (hy : Keeps s0 y) => ?_) ?_ <;> [clear_value y; subst y])
    | with_reducible apply State.setOrStep_keeps
    | with_reducible apply State.setReg_keeps
    | with_reducible apply State.servoUpdate_keeps
    | with_reducible apply State.setGnomonMode_keeps
    | (with_reducible apply Keeps.ite <;> intros)

theorem execGnomonSet_keeps {s0 t : State} (h : Keeps s0 t) (value : Word32) : KeepsN s0 (execGnomonSet value t) := by
  unfold execGnomonSet
  iterate 40 all_goals try first
    | with_reducible assumption
    | with_reducible apply State.gnomonCtrl_keeps
    | (with_reducible apply KeepsN.ite <;> intros)
    | with_reducible refine KeepsN.next ?_

theorem execGnomonStep_keeps {s0 t : State} (h : Keeps s0 t) (value : Word32) : KeepsN s0 (execGnomonStep value t) := by
  unfold execGnomonStep
  iterate 40 all_goals try first
    | with_reducible assumption
    | with_reducible apply State.gnomonCtrl_keeps
    | (with_reducible apply KeepsN.ite <;> intros)
    | with_reducible refine KeepsN.next ?_

theorem execLockWrite_keeps {s0 t : State} (h : Keeps s0 t) (value : Word32) : KeepsN s0 (execLockWrite value t) := by
  unfold execLockWrite
  iterate 40 all_goals try first
    | with_reducible assumption
    | with_reducible apply State.gnomonCtrl_keeps
    | (with_reducible apply KeepsN.ite <;> intros)
    | with_reducible refine KeepsN.next ?_

theorem State.rateWrite_keeps {s0 t : State} (h : Keeps s0 t) (v : Word32) : Keeps s0 (State.rateWrite t v) := by
  unfold State.rateWrite
  iterate 40 all_goals try first
    | with_reducible assumption
    | (lift_lets -underBinder; intro y; with_reducible refine (fun (hy : Keeps s0 y) => ?_) ?_ <;> [clear_value y; subst y])
    | with_reducible apply State.servoUpdate_keeps
    | with_reducible apply State.raise_keeps
    | with_reducible apply State.setReg_keeps
    | with_reducible apply State.within_keeps
    | (with_reducible apply Keeps.ite <;> intros)

theorem execRateWrite_keeps {s0 t : State} (h : Keeps s0 t) (value : Word32) : KeepsN s0 (execRateWrite value t) := by
  unfold execRateWrite
  iterate 40 all_goals try first
    | with_reducible assumption
    | with_reducible apply State.rateWrite_keeps
    | (with_reducible apply KeepsN.ite <;> intros)
    | with_reducible refine KeepsN.next ?_

theorem execServoTimeout_keeps {s0 t : State} (h : Keeps s0 t) : KeepsN s0 (execServoTimeout t) := by
  unfold execServoTimeout
  iterate 40 all_goals try first
    | with_reducible assumption
    | (lift_lets -underBinder; intro y; with_reducible refine (fun (hy : Keeps s0 y) => ?_) ?_ <;> [clear_value y; subst y])
    | with_reducible apply State.passTo_keeps
    | with_reducible apply State.setGnomonMode_keeps
    | with_reducible apply State.withGnomon_keeps
    | (with_reducible apply KeepsN.ite <;> intros)
    | with_reducible refine KeepsN.next ?_
    | split

theorem execSecondTick_keeps {s0 t : State} (h : Keeps s0 t) : KeepsN s0 (execSecondTick t) := by
  unfold execSecondTick
  iterate 40 all_goals try first
    | with_reducible assumption
    | with_reducible apply State.pass_keeps
    | (with_reducible apply KeepsN.ite <;> intros)
    | with_reducible refine KeepsN.next ?_

theorem execPpsOutPulseEnd_keeps {s0 t : State} (h : Keeps s0 t) : KeepsN s0 (execPpsOutPulseEnd t) := by
  unfold execPpsOutPulseEnd
  iterate 40 all_goals try first
    | with_reducible assumption
    | (lift_lets -underBinder; intro y; with_reducible refine (fun (hy : Keeps s0 y) => ?_) ?_ <;> [clear_value y; subst y])
    | with_reducible apply State.passTo_keeps
    | with_reducible apply State.withGnomon_keeps
    | with_reducible refine KeepsN.next ?_
    | split

theorem execPpsInEdge_keeps {s0 t : State} (h : Keeps s0 t) (level : Bool) : KeepsN s0 (execPpsInEdge level t) := by
  unfold execPpsInEdge
  iterate 40 all_goals try first
    | with_reducible assumption
    | (lift_lets -underBinder; intro y)
    | with_reducible apply State.withGnomon_keeps
    | (with_reducible apply KeepsN.ite <;> intros)
    | with_reducible refine KeepsN.next ?_

theorem execPpsInMissing_keeps {s0 t : State} (h : Keeps s0 t) : KeepsN s0 (execPpsInMissing t) := by
  unfold execPpsInMissing
  iterate 40 all_goals try first
    | with_reducible assumption
    | (lift_lets -underBinder; intro y; with_reducible refine (fun (hy : Keeps s0 y) => ?_) ?_ <;> [clear_value y; subst y])
    | with_reducible apply State.passTo_keeps
    | with_reducible apply State.raise_keeps
    | with_reducible apply State.withGnomon_keeps
    | (with_reducible apply KeepsN.ite <;> intros)
    | with_reducible refine KeepsN.next ?_

theorem execTodMessageSend_keeps {s0 t : State} (h : Keeps s0 t) : KeepsN s0 (execTodMessageSend t) := by
  unfold execTodMessageSend
  iterate 40 all_goals try first
    | with_reducible assumption
    | (lift_lets -underBinder; intro y; with_reducible refine (fun (hy : Keeps s0 y) => ?_) ?_ <;> [clear_value y; subst y])
    | with_reducible apply State.passTo_keeps
    | with_reducible apply State.withGnomon_keeps
    | (with_reducible apply KeepsN.ite <;> intros)
    | with_reducible refine KeepsN.next ?_
    | split

theorem execTodByteReceive_keeps {s0 t : State} (h : Keeps s0 t) (b : Byte) : KeepsN s0 (execTodByteReceive b t) := by
  unfold execTodByteReceive
  iterate 40 all_goals try first
    | with_reducible assumption
    | (lift_lets -underBinder; intro y)
    | with_reducible apply State.withGnomon_keeps
    | (with_reducible apply KeepsN.ite <;> intros)
    | with_reducible refine KeepsN.next ?_

theorem execTodRxRead_keeps {s0 t : State} (h : Keeps s0 t) : KeepsN s0 (execTodRxRead t) := by
  unfold execTodRxRead
  iterate 40 all_goals try first
    | with_reducible assumption
    | (lift_lets -underBinder; intro y)
    | with_reducible apply State.withGnomon_keeps
    | with_reducible refine KeepsN.next ?_
    | fail_if_no_progress with_reducible refine Keeps.upd ?_ rfl
    | split

theorem execTxtsEntryRemove_keeps {s0 t : State} (h : Keeps s0 t) (x : Fin 32) : KeepsN s0 (execTxtsEntryRemove x t) := by
  unfold execTxtsEntryRemove
  iterate 40 all_goals try first
    | with_reducible assumption
    | (lift_lets -underBinder; intro y)
    | with_reducible apply State.withGnomon_keeps
    | with_reducible refine KeepsN.next ?_
    | fail_if_no_progress with_reducible refine Keeps.upd ?_ rfl
    | split

theorem execNowNsRead_keeps {s0 t : State} (h : Keeps s0 t) : KeepsN s0 (execNowNsRead t) := by
  unfold execNowNsRead
  iterate 40 all_goals try first
    | with_reducible assumption
    | (lift_lets -underBinder; intro y)
    | with_reducible apply State.withGnomon_keeps
    | with_reducible refine KeepsN.next ?_
    | fail_if_no_progress with_reducible refine Keeps.upd ?_ rfl

theorem State.drawHk_keeps {s0 t : State} (h : Keeps s0 t) : KeepsP s0 (State.drawHk t) := by
  unfold State.drawHk
  iterate 40 all_goals try first
    | with_reducible assumption
    | with_reducible apply State.drbg_keeps
    | split
    | fail_if_no_progress with_reducible refine KeepsP.mk ?_
    | with_reducible refine KeepsP.of_eq (by with_reducible assumption) ?_

theorem State.createRegion_keeps {s0 t : State} (h : Keeps s0 t) (k : Nat) (integ : Bool) (rights : Nat) (base : Nat) (size : Nat) (mb : Nat) (ms : Nat) (fill : Option (BitVec 64)) (work : Option Desc) : Keeps s0 (State.createRegion t k integ rights base size mb ms fill work) := by
  unfold State.createRegion
  iterate 40 all_goals try first
    | with_reducible assumption
    | (lift_lets -underBinder; intro y)
    | with_reducible apply State.drawHk_keeps
    | with_reducible apply State.setRegion_keeps
    | with_reducible apply State.losePending_keeps
    | fail_if_no_progress with_reducible refine Keeps.upd ?_ rfl
    | with_reducible refine Keeps.updFill ?_ rfl
    | split
    | with_reducible refine KeepsP.of_eq (by with_reducible assumption) ?_

theorem hullCreateBody_keeps {s0 t : State} (h : Keeps s0 t) (d : Desc) : Keeps s0 (hullCreateBody d t) := by
  unfold hullCreateBody
  iterate 40 all_goals try first
    | with_reducible assumption
    | (lift_lets -underBinder; intro y)
    | with_reducible apply State.done_keeps
    | with_reducible apply State.createRegion_keeps
    | with_reducible apply State.complete_keeps
    | (with_reducible apply Keeps.ite <;> intros)

theorem execHullRegionCreate_keeps {s0 t : State} (h : Keeps s0 t) (d : Desc) : KeepsN s0 (execHullRegionCreate d t) := by
  unfold execHullRegionCreate
  iterate 40 all_goals try first
    | with_reducible assumption
    | (with_reducible apply ringCommand_keeps <;> intros)
    | with_reducible apply hullCreateBody_keeps
    | with_reducible refine KeepsN.next ?_

theorem hullRightsBody_keeps {s0 t : State} (h : Keeps s0 t) (d : Desc) : Keeps s0 (hullRightsBody d t) := by
  unfold hullRightsBody
  iterate 40 all_goals try first
    | with_reducible assumption
    | (lift_lets -underBinder; intro y)
    | with_reducible apply State.done_keeps
    | with_reducible apply State.setRegion_keeps
    | (with_reducible apply Keeps.ite <;> intros)

theorem execHullRegionRights_keeps {s0 t : State} (h : Keeps s0 t) (d : Desc) : KeepsN s0 (execHullRegionRights d t) := by
  unfold execHullRegionRights
  iterate 40 all_goals try first
    | with_reducible assumption
    | (with_reducible apply ringCommand_keeps <;> intros)
    | with_reducible apply hullRightsBody_keeps
    | with_reducible refine KeepsN.next ?_

theorem hullFillBody_keeps {s0 t : State} (h : Keeps s0 t) (d : Desc) : Keeps s0 (hullFillBody d t) := by
  unfold hullFillBody
  iterate 40 all_goals try first
    | with_reducible assumption
    | (lift_lets -underBinder; intro y)
    | with_reducible apply State.done_keeps
    | with_reducible apply State.setRegion_keeps
    | (with_reducible apply Keeps.ite <;> intros)

theorem execHullRegionFill_keeps {s0 t : State} (h : Keeps s0 t) (d : Desc) : KeepsN s0 (execHullRegionFill d t) := by
  unfold execHullRegionFill
  iterate 40 all_goals try first
    | with_reducible assumption
    | (with_reducible apply ringCommand_keeps <;> intros)
    | with_reducible apply hullFillBody_keeps
    | with_reducible refine KeepsN.next ?_

theorem hullDeleteBody_keeps {s0 t : State} (h : Keeps s0 t) (d : Desc) : Keeps s0 (hullDeleteBody d t) := by
  unfold hullDeleteBody
  iterate 40 all_goals try first
    | with_reducible assumption
    | (lift_lets -underBinder; intro y)
    | with_reducible apply State.done_keeps
    | with_reducible apply State.setRegion_keeps
    | (with_reducible apply Keeps.ite <;> intros)

theorem execHullRegionDelete_keeps {s0 t : State} (h : Keeps s0 t) (d : Desc) : KeepsN s0 (execHullRegionDelete d t) := by
  unfold execHullRegionDelete
  iterate 40 all_goals try first
    | with_reducible assumption
    | (with_reducible apply ringCommand_keeps <;> intros)
    | with_reducible apply hullDeleteBody_keeps
    | with_reducible refine KeepsN.next ?_

theorem State.workDone_keeps {s0 t : State} (h : Keeps s0 t) (w : Option Desc) (rep : Reply) : Keeps s0 (State.workDone t w rep) := by
  unfold State.workDone
  iterate 40 all_goals try first
    | with_reducible assumption
    | with_reducible apply State.complete_keeps
    | split

theorem State.dropTaints_keeps {s0 t : State} (h : Keeps s0 t) (p : Taint → Bool) : Keeps s0 (State.dropTaints t p) := by
  unfold State.dropTaints
  iterate 40 all_goals try first
    | with_reducible assumption
    | (lift_lets -underBinder; intro y)
    | fail_if_no_progress with_reducible refine Keeps.upd ?_ rfl

theorem execDeleteDrainEnd_keeps {s0 t : State} (h : Keeps s0 t) (mem : MemKind) (r : Fin 16) : KeepsN s0 (execDeleteDrainEnd mem r t) := by
  unfold execDeleteDrainEnd
  iterate 40 all_goals try first
    | with_reducible assumption
    | (lift_lets -underBinder; intro y)
    | with_reducible apply State.workDone_keeps
    | with_reducible apply State.dropTaints_keeps
    | with_reducible apply State.setRegion_keeps
    | (with_reducible apply KeepsN.ite <;> intros)
    | with_reducible refine KeepsN.next ?_

theorem State.applyFill_keeps {s0 t : State} (h : Keeps s0 t) (k : Nat) (off : Nat) (len : Nat) (p : BitVec 64) : Keeps s0 (State.applyFill t k off len p) := by
  unfold State.applyFill
  iterate 40 all_goals try first
    | with_reducible assumption
    | (lift_lets -underBinder; intro y)
    | with_reducible apply State.setRegion_keeps
    | with_reducible apply State.losePending_keeps
    | with_reducible apply State.dropTaints_keeps
    | with_reducible refine Keeps.updFill ?_ rfl

theorem execFillComplete_keeps {s0 t : State} (h : Keeps s0 t) (mem : MemKind) (r : Fin 16) : KeepsN s0 (execFillComplete mem r t) := by
  unfold execFillComplete
  iterate 40 all_goals try first
    | with_reducible assumption
    | (lift_lets -underBinder; intro y)
    | with_reducible apply State.workDone_keeps
    | with_reducible apply State.applyFill_keeps
    | with_reducible refine KeepsN.next ?_
    | split
    | intro _

theorem hullRekeyBody_keeps {s0 t : State} (h : Keeps s0 t) (d : Desc) : Keeps s0 (hullRekeyBody d t) := by
  unfold hullRekeyBody
  iterate 40 all_goals try first
    | with_reducible assumption
    | (lift_lets -underBinder; intro y)
    | with_reducible apply State.done_keeps
    | with_reducible apply State.drawHk_keeps
    | with_reducible apply State.setRegion_keeps
    | (with_reducible apply Keeps.ite <;> intros)
    | with_reducible apply KeepsP.snd

theorem execHullRekey_keeps {s0 t : State} (h : Keeps s0 t) (d : Desc) : KeepsN s0 (execHullRekey d t) := by
  unfold execHullRekey
  iterate 40 all_goals try first
    | with_reducible assumption
    | (with_reducible apply ringCommand_keeps <;> intros)
    | with_reducible apply hullRekeyBody_keeps
    | with_reducible refine KeepsN.next ?_

theorem execRekeyComplete_keeps {s0 t : State} (h : Keeps s0 t) (mem : MemKind) (r : Fin 16) : KeepsN s0 (execRekeyComplete mem r t) := by
  unfold execRekeyComplete
  iterate 40 all_goals try first
    | with_reducible assumption
    | (lift_lets -underBinder; intro y)
    | with_reducible apply State.countN_keeps
    | with_reducible apply State.setRegion_keeps
    | with_reducible apply State.workDone_keeps
    | with_reducible apply State.raise_keeps
    | (with_reducible apply KeepsN.ite <;> intros)
    | with_reducible refine KeepsN.next ?_
    | fail_if_no_progress with_reducible refine Keeps.upd ?_ rfl

theorem execMinorOverflowPassEnd_keeps {s0 t : State} (h : Keeps s0 t) (mem : MemKind) (r : Fin 16) (ns : Nat) : KeepsN s0 (execMinorOverflowPassEnd mem r ns t) := by
  unfold execMinorOverflowPassEnd
  iterate 40 all_goals try first
    | with_reducible assumption
    | (lift_lets -underBinder; intro y)
    | with_reducible apply State.countN_keeps
    | with_reducible apply State.setRegion_keeps
    | (with_reducible apply KeepsN.ite <;> intros)
    | with_reducible refine KeepsN.next ?_

theorem execPatrolScrub_keeps {s0 t : State} (h : Keeps s0 t) (addr : BitVec 40) (ecc : Ecc) : KeepsN s0 (execPatrolScrub addr ecc t) := by
  unfold execPatrolScrub
  iterate 40 all_goals try first
    | with_reducible assumption
    | with_reducible apply State.eccSeen_keeps
    | (with_reducible apply KeepsN.ite <;> intros)
    | with_reducible refine KeepsN.next ?_

theorem State.dropWaiting_keeps {s0 t : State} (h : Keeps s0 t) : Keeps s0 (State.dropWaiting t) := by
  unfold State.dropWaiting
  iterate 40 all_goals try first
    | with_reducible assumption
    | with_reducible apply State.dropParked_keeps
    | (with_reducible apply Keeps.foldl <;> intros)

theorem twinConfigureBody_keeps {s0 t : State} (h : Keeps s0 t) (d : Desc) : Keeps s0 (twinConfigureBody d t) := by
  unfold twinConfigureBody
  iterate 40 all_goals try first
    | with_reducible assumption
    | (lift_lets -underBinder; intro y)
    | with_reducible apply State.done_keeps
    | with_reducible apply State.deriveArbKey_keeps
    | with_reducible apply State.withTwin_keeps
    | with_reducible apply State.beginSession_keeps
    | with_reducible apply State.setLease_keeps
    | with_reducible apply State.startChord_keeps
    | with_reducible apply State.syncRestore_keeps
    | with_reducible apply State.retime_keeps
    | (with_reducible apply Keeps.ite <;> intros)

theorem execTwinConfigure_keeps {s0 t : State} (h : Keeps s0 t) (d : Desc) : KeepsN s0 (execTwinConfigure d t) := by
  unfold execTwinConfigure
  iterate 40 all_goals try first
    | with_reducible assumption
    | (with_reducible apply ringCommand_keeps <;> intros)
    | with_reducible apply twinConfigureBody_keeps
    | with_reducible refine KeepsN.next ?_

theorem twinSoloBody_keeps {s0 t : State} (h : Keeps s0 t) (d : Desc) : Keeps s0 (twinSoloBody d t) := by
  unfold twinSoloBody
  iterate 40 all_goals try first
    | with_reducible assumption
    | with_reducible apply State.done_keeps
    | with_reducible apply State.retime_keeps
    | with_reducible apply State.setLease_keeps
    | with_reducible apply State.withTwin_keeps
    | (with_reducible apply Keeps.ite <;> intros)

theorem execTwinSolo_keeps {s0 t : State} (h : Keeps s0 t) (d : Desc) : KeepsN s0 (execTwinSolo d t) := by
  unfold execTwinSolo
  iterate 40 all_goals try first
    | with_reducible assumption
    | (with_reducible apply ringCommand_keeps <;> intros)
    | with_reducible apply twinSoloBody_keeps
    | with_reducible refine KeepsN.next ?_

theorem execTwinWiden_keeps {s0 t : State} (h : Keeps s0 t) (d : Desc) : KeepsN s0 (execTwinWiden d t) := by
  unfold execTwinWiden
  iterate 40 all_goals try first
    | with_reducible assumption
    | (with_reducible apply ringCommand_keeps <;> intros)
    | with_reducible apply State.done_keeps
    | with_reducible apply State.joinLanes_keeps
    | (with_reducible apply Keeps.ite <;> intros)
    | with_reducible refine KeepsN.next ?_

theorem State.chordDown_keeps {s0 t : State} (h : Keeps s0 t) (cause : Nat) : Keeps s0 (State.chordDown t cause) := by
  unfold State.chordDown
  iterate 40 all_goals try first
    | with_reducible assumption
    | (lift_lets -underBinder; intro y)
    | with_reducible apply State.setChordSet_keeps
    | with_reducible apply State.chordEnd_keeps
    | with_reducible apply State.withTwin_keeps
    | with_reducible apply State.raise_keeps
    | (with_reducible apply Keeps.ite <;> intros)

theorem twinRemoveBody_keeps {s0 t : State} (h : Keeps s0 t) (d : Desc) : Keeps s0 (twinRemoveBody d t) := by
  unfold twinRemoveBody
  iterate 40 all_goals try first
    | with_reducible assumption
    | (lift_lets -underBinder; intro y)
    | with_reducible apply State.done_keeps
    | with_reducible apply State.setLease_keeps
    | with_reducible apply State.withTwin_keeps
    | with_reducible apply State.chordDown_keeps
    | with_reducible apply State.retime_keeps
    | with_reducible apply State.dropShadows_keeps
    | with_reducible apply State.stopChord_keeps
    | (with_reducible apply Keeps.ite <;> intros)
    | (with_reducible apply Keeps.foldl <;> intros)

theorem execTwinRemove_keeps {s0 t : State} (h : Keeps s0 t) (d : Desc) : KeepsN s0 (execTwinRemove d t) := by
  unfold execTwinRemove
  iterate 40 all_goals try first
    | with_reducible assumption
    | (with_reducible apply ringCommand_keeps <;> intros)
    | with_reducible apply twinRemoveBody_keeps
    | with_reducible refine KeepsN.next ?_

theorem execLeaseStatus_keeps {s0 t : State} (h : Keeps s0 t) (d : Desc) : KeepsN s0 (execLeaseStatus d t) := by
  unfold execLeaseStatus
  iterate 40 all_goals try first
    | with_reducible assumption
    | (with_reducible apply ringCommand_keeps <;> intros)
    | with_reducible apply State.writeBufDone_keeps
    | with_reducible refine KeepsN.next ?_

theorem State.startHandover_keeps {s0 t : State} (h : Keeps s0 t) (d : Option Desc) (timeout : Nat) : Keeps s0 (State.startHandover t d timeout) := by
  unfold State.startHandover
  iterate 40 all_goals try first
    | with_reducible assumption
    | (lift_lets -underBinder; intro y; with_reducible refine (fun (hy : Keeps s0 y) => ?_) ?_ <;> [clear_value y; subst y])
    | with_reducible apply State.sendCopy_keeps
    | with_reducible apply State.setLease_keeps
    | with_reducible apply State.withTwin_keeps

theorem twinHandoverBody_keeps {s0 t : State} (h : Keeps s0 t) (d : Desc) : Keeps s0 (twinHandoverBody d t) := by
  unfold twinHandoverBody
  iterate 40 all_goals try first
    | with_reducible assumption
    | (lift_lets -underBinder; intro y; with_reducible refine (fun (hy : Keeps s0 y) => ?_) ?_ <;> [clear_value y; subst y])
    | with_reducible apply State.done_keeps
    | with_reducible apply State.startHandover_keeps
    | with_reducible apply State.chordSend_keeps
    | with_reducible apply State.withTwin_keeps
    | (with_reducible apply Keeps.ite <;> intros)
    | split

theorem execTwinHandover_keeps {s0 t : State} (h : Keeps s0 t) (d : Desc) : KeepsN s0 (execTwinHandover d t) := by
  unfold execTwinHandover
  iterate 40 all_goals try first
    | with_reducible assumption
    | (with_reducible apply ringCommand_keeps <;> intros)
    | with_reducible apply twinHandoverBody_keeps
    | with_reducible refine KeepsN.next ?_

theorem State.handoverDone_keeps {s0 t : State} (h : Keeps s0 t) (st : Status) : Keeps s0 (State.handoverDone t st) := by
  unfold State.handoverDone
  iterate 40 all_goals try first
    | with_reducible assumption
    | (lift_lets -underBinder; intro y)
    | with_reducible apply State.done_keeps
    | with_reducible apply State.withTwin_keeps
    | split

theorem execHandoverTimeout_keeps {s0 t : State} (h : Keeps s0 t) : KeepsN s0 (execHandoverTimeout t) := by
  unfold execHandoverTimeout
  iterate 40 all_goals try first
    | with_reducible assumption
    | with_reducible apply State.handoverDone_keeps
    | with_reducible apply State.setLease_keeps
    | with_reducible apply State.passTo_keeps
    | (with_reducible apply KeepsN.ite <;> intros)
    | with_reducible refine KeepsN.next ?_
    | split

theorem execHandoverRequestReceive_keeps {s0 t : State} (h : Keeps s0 t) (msg : List Byte) : KeepsN s0 (execHandoverRequestReceive msg t) := by
  unfold execHandoverRequestReceive
  iterate 40 all_goals try first
    | with_reducible assumption
    | with_reducible apply State.chordOpen_keeps
    | with_reducible apply State.startHandover_keeps
    | (with_reducible apply KeepsN.ite <;> intros)
    | with_reducible refine KeepsN.next ?_
    | split
    | with_reducible refine KeepsP.of_eq (by with_reducible assumption) ?_

theorem execChordLinkUp_keeps {s0 t : State} (h : Keeps s0 t) : KeepsN s0 (execChordLinkUp t) := by
  unfold execChordLinkUp
  iterate 40 all_goals try first
    | with_reducible assumption
    | (lift_lets -underBinder; intro y)
    | with_reducible apply State.beginSession_keeps
    | with_reducible apply State.joinLanes_keeps
    | (with_reducible apply KeepsN.ite <;> intros)
    | with_reducible refine KeepsN.next ?_

theorem execHelloSend_keeps {s0 t : State} (h : Keeps s0 t) (p : OctegPath) : KeepsN s0 (execHelloSend p t) := by
  unfold execHelloSend
  iterate 40 all_goals try first
    | with_reducible assumption
    | (lift_lets -underBinder; intro y; with_reducible refine (fun (hy : Keeps s0 y) => ?_) ?_ <;> [clear_value y; subst y])
    | with_reducible apply State.passTo_keeps
    | with_reducible apply State.octegOut_keeps
    | with_reducible apply State.setSession_keeps
    | (with_reducible apply KeepsN.ite <;> intros)
    | with_reducible refine KeepsN.next ?_

theorem execHelloReceive_keeps {s0 t : State} (h : Keeps s0 t) (p : OctegPath) (msg : List Byte) : KeepsN s0 (execHelloReceive p msg t) := by
  unfold execHelloReceive
  iterate 40 all_goals try first
    | with_reducible assumption
    | (lift_lets -underBinder; intro y)
    | with_reducible apply State.helloIn_keeps
    | (with_reducible apply KeepsN.ite <;> intros)
    | with_reducible refine KeepsN.next ?_

theorem execChordHeartbeatSend_keeps {s0 t : State} (h : Keeps s0 t) : KeepsN s0 (execChordHeartbeatSend t) := by
  unfold execChordHeartbeatSend
  iterate 40 all_goals try first
    | with_reducible assumption
    | (lift_lets -underBinder; intro y; with_reducible refine (fun (hy : Keeps s0 y) => ?_) ?_ <;> [clear_value y; subst y])
    | with_reducible apply State.passTo_keeps
    | with_reducible apply State.chordSend_keeps
    | (with_reducible apply KeepsN.ite <;> intros)
    | with_reducible refine KeepsN.next ?_

theorem execHeartbeatReceive_keeps {s0 t : State} (h : Keeps s0 t) (msg : List Byte) : KeepsN s0 (execHeartbeatReceive msg t) := by
  unfold execHeartbeatReceive
  iterate 40 all_goals try first
    | with_reducible assumption
    | (lift_lets -underBinder; intro y)
    | with_reducible apply State.chordOpen_keeps
    | with_reducible apply State.withTwin_keeps
    | with_reducible refine KeepsN.next ?_
    | split
    | with_reducible refine KeepsP.of_eq (by with_reducible assumption) ?_

theorem execChordLinkDown_keeps {s0 t : State} (h : Keeps s0 t) (cause : LinkDownCause) : KeepsN s0 (execChordLinkDown cause t) := by
  unfold execChordLinkDown
  iterate 40 all_goals try first
    | with_reducible assumption
    | with_reducible apply State.chordDown_keeps
    | with_reducible apply State.passTo_keeps
    | (with_reducible apply KeepsN.ite <;> intros)
    | with_reducible refine KeepsN.next ?_
    | split

theorem execSyncCycleStart_keeps {s0 t : State} (h : Keeps s0 t) : KeepsN s0 (execSyncCycleStart t) := by
  unfold execSyncCycleStart
  iterate 40 all_goals try first
    | with_reducible assumption
    | (lift_lets -underBinder; intro y; with_reducible refine (fun (hy : Keeps s0 y) => ?_) ?_ <;> [clear_value y; subst y])
    | with_reducible apply State.passTo_keeps
    | with_reducible apply State.sendCopy_keeps
    | (with_reducible apply KeepsN.ite <;> intros)
    | with_reducible refine KeepsN.next ?_

theorem execCopyRecordsReceive_keeps {s0 t : State} (h : Keeps s0 t) (msg : List Byte) : KeepsN s0 (execCopyRecordsReceive msg t) := by
  unfold execCopyRecordsReceive
  iterate 40 all_goals try first
    | with_reducible assumption
    | (lift_lets -underBinder; intro y)
    | with_reducible apply State.chordOpen_keeps
    | with_reducible apply State.applyRecords_keeps
    | with_reducible apply State.retime_keeps
    | with_reducible apply State.withTwin_keeps
    | (with_reducible apply KeepsN.ite <;> intros)
    | with_reducible refine KeepsN.next ?_
    | split
    | with_reducible apply KeepsP.snd
    | with_reducible refine KeepsP.of_eq (by with_reducible assumption) ?_

theorem execCopyEndReceive_keeps {s0 t : State} (h : Keeps s0 t) (msg : List Byte) : KeepsN s0 (execCopyEndReceive msg t) := by
  unfold execCopyEndReceive
  iterate 40 all_goals try first
    | with_reducible assumption
    | (lift_lets -underBinder; intro y)
    | with_reducible apply State.chordOpen_keeps
    | with_reducible apply State.withTwin_keeps
    | with_reducible apply State.syncRestore_keeps
    | with_reducible apply State.chordSend_keeps
    | (with_reducible apply KeepsN.ite <;> intros)
    | with_reducible refine KeepsN.next ?_
    | split
    | with_reducible refine KeepsP.of_eq (by with_reducible assumption) ?_

theorem execCopyAckReceive_keeps {s0 t : State} (h : Keeps s0 t) (msg : List Byte) : KeepsN s0 (execCopyAckReceive msg t) := by
  unfold execCopyAckReceive
  iterate 40 all_goals try first
    | with_reducible assumption
    | (lift_lets -underBinder; intro y; with_reducible refine (fun (hy : Keeps s0 y) => ?_) ?_ <;> [clear_value y; subst y])
    | with_reducible apply State.chordOpen_keeps
    | with_reducible apply State.setCeilings_keeps
    | with_reducible apply State.withTwin_keeps
    | with_reducible apply State.arbSend_keeps
    | with_reducible apply State.shadowAll_keeps
    | with_reducible apply State.setLease_keeps
    | with_reducible apply State.dropWaiting_keeps
    | with_reducible apply State.raise_keeps
    | with_reducible apply State.handoverDone_keeps
    | (with_reducible apply KeepsN.ite <;> intros)
    | with_reducible refine KeepsN.next ?_
    | split
    | intro _
    | with_reducible refine KeepsP.of_eq (by with_reducible assumption) ?_

theorem execFullRequestReceive_keeps {s0 t : State} (h : Keeps s0 t) (msg : List Byte) : KeepsN s0 (execFullRequestReceive msg t) := by
  unfold execFullRequestReceive
  iterate 40 all_goals try first
    | with_reducible assumption
    | (lift_lets -underBinder; intro y)
    | with_reducible apply State.chordOpen_keeps
    | with_reducible apply State.withTwin_keeps
    | (with_reducible apply KeepsN.ite <;> intros)
    | with_reducible refine KeepsN.next ?_
    | split
    | with_reducible refine KeepsP.of_eq (by with_reducible assumption) ?_

theorem execLeaseRequestSend_keeps {s0 t : State} (h : Keeps s0 t) : KeepsN s0 (execLeaseRequestSend t) := by
  unfold execLeaseRequestSend
  iterate 40 all_goals try first
    | with_reducible assumption
    | (lift_lets -underBinder; intro y)
    | with_reducible apply State.passTo_keeps
    | with_reducible apply State.withTwin_keeps
    | with_reducible apply State.arbSend_keeps
    | (with_reducible apply Keeps.ite <;> intros)
    | (with_reducible apply KeepsN.ite <;> intros)
    | with_reducible refine KeepsN.next ?_

theorem execStaleRequestSend_keeps {s0 t : State} (h : Keeps s0 t) : KeepsN s0 (execStaleRequestSend t) := by
  unfold execStaleRequestSend
  iterate 40 all_goals try first
    | with_reducible assumption
    | (lift_lets -underBinder; intro y; with_reducible refine (fun (hy : Keeps s0 y) => ?_) ?_ <;> [clear_value y; subst y])
    | with_reducible apply State.passTo_keeps
    | with_reducible apply State.arbSend_keeps
    | with_reducible apply State.withTwin_keeps
    | (with_reducible apply KeepsN.ite <;> intros)
    | with_reducible refine KeepsN.next ?_
    | split

theorem State.granted_keeps {s0 t : State} (h : Keeps s0 t) (a1 : Nat) (msg : List Byte) : Keeps s0 (State.granted t a1 msg) := by
  unfold State.granted
  iterate 40 all_goals try first
    | with_reducible assumption
    | (lift_lets -underBinder; intro y)
    | with_reducible apply State.withTwin_keeps
    | with_reducible apply State.takeOver_keeps
    | with_reducible apply State.setLease_keeps
    | with_reducible apply State.done_keeps
    | with_reducible apply State.raise_keeps
    | (with_reducible apply Keeps.ite <;> intros)
    | (with_reducible apply Keeps.foldl <;> intros)
    | split

theorem execLeaseGrant_keeps {s0 t : State} (h : Keeps s0 t) (msg : List Byte) : KeepsN s0 (execLeaseGrant msg t) := by
  unfold execLeaseGrant
  iterate 40 all_goals try first
    | with_reducible assumption
    | with_reducible apply State.granted_keeps
    | with_reducible apply State.arbRefuse_keeps
    | (with_reducible apply KeepsN.ite <;> intros)
    | with_reducible refine KeepsN.next ?_
    | split

end Sys2Proof.Machine
end

