-- ==== Sys2Proof/Laws/KeepsCommands.lean ====
section
/-! SUPPORT. What the remaining commands, and exec keep (Laws/Keeps.lean): one lemma per definition that answers a state. -/

namespace Sys2Proof.Machine

set_option tactic.hygienic false
set_option linter.unusedVariables false

theorem execLeaseDeny_keeps {s0 t : State} (h : Keeps s0 t) (msg : List Byte) : KeepsN s0 (execLeaseDeny msg t) := by
  unfold execLeaseDeny
  iterate 40 all_goals try first
    | with_reducible assumption
    | (lift_lets -underBinder; intro y)
    | with_reducible apply State.withTwin_keeps
    | with_reducible apply State.shadowAll_keeps
    | with_reducible apply State.setLease_keeps
    | with_reducible apply State.arbRefuse_keeps
    | (with_reducible apply KeepsN.ite <;> intros)
    | with_reducible refine KeepsN.next ?_
    | split

theorem execLeaseExpiry_keeps {s0 t : State} (h : Keeps s0 t) : KeepsN s0 (execLeaseExpiry t) := by
  unfold execLeaseExpiry
  iterate 40 all_goals try first
    | with_reducible assumption
    | (lift_lets -underBinder; intro y; with_reducible refine (fun (hy : Keeps s0 y) => ?_) ?_ <;> [clear_value y; subst y])
    | with_reducible apply State.passTo_keeps
    | with_reducible apply State.handoverDone_keeps
    | with_reducible apply State.setLease_keeps
    | (with_reducible apply KeepsN.ite <;> intros)
    | with_reducible refine KeepsN.next ?_

theorem execWaitToRestoreExpiry_keeps {s0 t : State} (h : Keeps s0 t) : KeepsN s0 (execWaitToRestoreExpiry t) := by
  unfold execWaitToRestoreExpiry
  iterate 40 all_goals try first
    | with_reducible assumption
    | (lift_lets -underBinder; intro y; with_reducible refine (fun (hy : Keeps s0 y) => ?_) ?_ <;> [clear_value y; subst y])
    | with_reducible apply State.chordSend_keeps
    | with_reducible apply State.passTo_keeps
    | with_reducible apply State.raise_keeps
    | with_reducible apply State.withTwin_keeps
    | with_reducible refine KeepsN.next ?_
    | split

theorem State.arbiterIn_keeps {s0 t : State} (h : Keeps s0 t) (msg : List Byte) : Keeps s0 (State.arbiterIn t msg) := by
  unfold State.arbiterIn
  iterate 40 all_goals try first
    | with_reducible assumption
    | (lift_lets -underBinder; intro y)
    | with_reducible apply State.helloIn_keeps
    | with_reducible apply State.raise_keeps
    | with_reducible apply State.withTwin_keeps
    | with_reducible apply State.granted_keeps
    | with_reducible apply State.arbRefuse_keeps
    | with_reducible apply State.shadowAll_keeps
    | with_reducible apply State.setLease_keeps
    | (with_reducible apply Keeps.ite <;> intros)
    | split

theorem State.portLink_keeps {s0 t : State} (h : Keeps s0 t) (lp : Nat) (up : Bool) : Keeps s0 (State.portLink t lp up) := by
  unfold State.portLink
  iterate 40 all_goals try first
    | with_reducible assumption
    | (lift_lets -underBinder; intro y)
    | with_reducible apply State.setLport_keeps
    | with_reducible apply State.raise_keeps

theorem State.dropPorts_keeps {s0 t : State} (h : Keeps s0 t) (k : Nat) : Keeps s0 (State.dropPorts t k) := by
  unfold State.dropPorts
  iterate 40 all_goals try first
    | with_reducible assumption
    | with_reducible apply State.portLink_keeps
    | (with_reducible apply Keeps.foldl <;> intros)

theorem State.narrow_keeps {s0 t : State} (h : Keeps s0 t) : Keeps s0 (State.narrow t) := by
  unfold State.narrow
  iterate 40 all_goals try first
    | with_reducible assumption
    | (lift_lets -underBinder; intro y)
    | with_reducible apply State.withTwin_keeps
    | with_reducible apply State.setChordSet_keeps
    | (with_reducible apply Keeps.ite <;> intros)

theorem State.laneChanged_keeps {s0 t : State} (h : Keeps s0 t) (k : Nat) : Keeps s0 (State.laneChanged t k) := by
  unfold State.laneChanged
  iterate 40 all_goals try first
    | with_reducible assumption
    | (lift_lets -underBinder; intro y; with_reducible refine (fun (hy : Keeps s0 y) => ?_) ?_ <;> [clear_value y; subst y])
    | with_reducible apply State.dropPorts_keeps
    | with_reducible apply State.facetLol_keeps
    | with_reducible apply State.facetSignal_keeps
    | with_reducible apply State.narrow_keeps
    | with_reducible apply State.rclk_keeps
    | (with_reducible apply Keeps.ite <;> intros)

theorem State.laneLock_keeps {s0 t : State} (h : Keeps s0 t) (k : Nat) : Keeps s0 (State.laneLock t k) := by
  unfold State.laneLock
  iterate 40 all_goals try first
    | with_reducible assumption
    | (lift_lets -underBinder; intro y)
    | with_reducible apply State.laneChanged_keeps
    | with_reducible apply State.raise_keeps
    | with_reducible apply State.setLane_keeps

theorem State.laneLol_keeps {s0 t : State} (h : Keeps s0 t) (k : Nat) : Keeps s0 (State.laneLol t k) := by
  unfold State.laneLol
  iterate 40 all_goals try first
    | with_reducible assumption
    | (lift_lets -underBinder; intro y)
    | with_reducible apply State.laneChanged_keeps
    | with_reducible apply State.raise_keeps
    | with_reducible apply State.setLane_keeps
    | (with_reducible apply Keeps.ite <;> intros)

theorem onLane_keeps {s0 t : State} (h : Keeps s0 t) (l : Lane) (f : Nat → State → State) (k_f : ∀ b0 u, Keeps s0 u → Keeps s0 (f b0 u)) : KeepsN s0 (onLane l f t) := by
  unfold onLane
  iterate 40 all_goals try first
    | with_reducible assumption
    | with_reducible apply k_f
    | (with_reducible apply Keeps.ite <;> intros)
    | with_reducible refine KeepsN.next ?_

theorem execTransmitPllLock_keeps {s0 t : State} (h : Keeps s0 t) (l : Lane) : KeepsN s0 (execTransmitPllLock l t) := by
  unfold execTransmitPllLock
  iterate 40 all_goals try first
    | with_reducible assumption
    | (lift_lets -underBinder; intro y)
    | (with_reducible apply onLane_keeps <;> intros)
    | with_reducible apply State.setLane_keeps
    | (with_reducible apply Keeps.ite <;> intros)

theorem execSignalDetect_keeps {s0 t : State} (h : Keeps s0 t) (l : Lane) : KeepsN s0 (execSignalDetect l t) := by
  unfold execSignalDetect
  iterate 40 all_goals try first
    | with_reducible assumption
    | (lift_lets -underBinder; intro y)
    | (with_reducible apply onLane_keeps <;> intros)
    | with_reducible apply State.laneChanged_keeps
    | with_reducible apply State.setLane_keeps
    | (with_reducible apply Keeps.ite <;> intros)

theorem execSignalLoss_keeps {s0 t : State} (h : Keeps s0 t) (l : Lane) : KeepsN s0 (execSignalLoss l t) := by
  unfold execSignalLoss
  iterate 40 all_goals try first
    | with_reducible assumption
    | (lift_lets -underBinder; intro y)
    | (with_reducible apply onLane_keeps <;> intros)
    | with_reducible apply State.laneChanged_keeps
    | with_reducible apply State.raise_keeps
    | with_reducible apply State.setLane_keeps
    | (with_reducible apply Keeps.ite <;> intros)

theorem execPhaseLock_keeps {s0 t : State} (h : Keeps s0 t) (l : Lane) : KeepsN s0 (execPhaseLock l t) := by
  unfold execPhaseLock
  iterate 40 all_goals try first
    | with_reducible assumption
    | (lift_lets -underBinder; intro y)
    | (with_reducible apply onLane_keeps <;> intros)
    | with_reducible apply State.laneLock_keeps
    | with_reducible apply State.setLane_keeps
    | (with_reducible apply Keeps.ite <;> intros)
    | split

theorem execAdaptConverged_keeps {s0 t : State} (h : Keeps s0 t) (l : Lane) : KeepsN s0 (execAdaptConverged l t) := by
  unfold execAdaptConverged
  iterate 40 all_goals try first
    | with_reducible assumption
    | (lift_lets -underBinder; intro y)
    | (with_reducible apply onLane_keeps <;> intros)
    | with_reducible apply State.draw_keeps
    | with_reducible apply State.setLane_keeps
    | with_reducible apply State.laneLock_keeps
    | (with_reducible apply Keeps.ite <;> intros)
    | with_reducible apply KeepsP.snd

theorem execTrainComplete_keeps {s0 t : State} (h : Keeps s0 t) (l : Lane) (inverted : Bool) : KeepsN s0 (execTrainComplete l inverted t) := by
  unfold execTrainComplete
  iterate 40 all_goals try first
    | with_reducible assumption
    | (lift_lets -underBinder; intro y)
    | (with_reducible apply onLane_keeps <;> intros)
    | with_reducible apply State.laneLock_keeps
    | with_reducible apply State.setLane_keeps
    | (with_reducible apply Keeps.ite <;> intros)

theorem execLossOfLock_keeps {s0 t : State} (h : Keeps s0 t) (l : Lane) : KeepsN s0 (execLossOfLock l t) := by
  unfold execLossOfLock
  iterate 40 all_goals try first
    | with_reducible assumption
    | (with_reducible apply onLane_keeps <;> intros)
    | with_reducible apply State.laneLol_keeps

theorem execFastRelockExpiry_keeps {s0 t : State} (h : Keeps s0 t) (l : Lane) : KeepsN s0 (execFastRelockExpiry l t) := by
  unfold execFastRelockExpiry
  iterate 40 all_goals try first
    | with_reducible assumption
    | (lift_lets -underBinder; intro y; with_reducible refine (fun (hy : Keeps s0 y) => ?_) ?_ <;> [clear_value y; subst y])
    | (with_reducible apply onLane_keeps <;> intros)
    | with_reducible apply State.passTo_keeps
    | with_reducible apply State.setLane_keeps
    | split

theorem execLockTimeout_keeps {s0 t : State} (h : Keeps s0 t) (l : Lane) : KeepsN s0 (execLockTimeout l t) := by
  unfold execLockTimeout
  iterate 40 all_goals try first
    | with_reducible assumption
    | (lift_lets -underBinder; intro y; with_reducible refine (fun (hy : Keeps s0 y) => ?_) ?_ <;> [clear_value y; subst y])
    | (lift_lets -underBinder; intro y)
    | (with_reducible apply onLane_keeps <;> intros)
    | with_reducible apply State.passTo_keeps
    | with_reducible apply State.laneChanged_keeps
    | with_reducible apply State.raise_keeps
    | with_reducible apply State.setLane_keeps
    | (with_reducible apply Keeps.ite <;> intros)
    | split

theorem execPcsAlignmentLock_keeps {s0 t : State} (h : Keeps s0 t) (side : Side) (n : Fin 16) (sub : Fin 4) : KeepsN s0 (execPcsAlignmentLock side n sub t) := by
  unfold execPcsAlignmentLock
  iterate 40 all_goals try first
    | with_reducible assumption
    | (lift_lets -underBinder; intro y)
    | with_reducible apply State.portLink_keeps
    | (with_reducible apply Keeps.ite <;> intros)
    | with_reducible refine KeepsN.next ?_

theorem execRefclkLoss_keeps {s0 t : State} (h : Keeps s0 t) (k : Fin 4) : KeepsN s0 (execRefclkLoss k t) := by
  unfold execRefclkLoss
  iterate 40 all_goals try first
    | with_reducible assumption
    | with_reducible apply State.raise_keeps
    | with_reducible apply State.laneLol_keeps
    | (with_reducible apply KeepsN.ite <;> intros)
    | with_reducible refine KeepsN.next ?_
    | (with_reducible apply Keeps.foldl <;> intros)

theorem State.laneCfg_keeps {s0 t : State} (h : Keeps s0 t) (k : Nat) (v : Nat) : Keeps s0 (State.laneCfg t k v) := by
  unfold State.laneCfg
  iterate 40 all_goals try first
    | with_reducible assumption
    | (lift_lets -underBinder; intro y)
    | with_reducible apply State.setReg_keeps
    | with_reducible apply State.laneLol_keeps
    | (with_reducible apply Keeps.ite <;> intros)

theorem execLaneCfgWrite_keeps {s0 t : State} (h : Keeps s0 t) (l : Lane) (value : Word32) : KeepsN s0 (execLaneCfgWrite l value t) := by
  unfold execLaneCfgWrite
  iterate 40 all_goals try first
    | with_reducible assumption
    | (with_reducible apply onLane_keeps <;> intros)
    | with_reducible apply State.laneCfg_keeps
    | (with_reducible apply KeepsN.ite <;> intros)
    | with_reducible refine KeepsN.next ?_

theorem State.laneTxeq_keeps {s0 t : State} (h : Keeps s0 t) (k : Nat) (v : Nat) : Keeps s0 (State.laneTxeq t k v) := by
  unfold State.laneTxeq
  iterate 40 all_goals try first
    | with_reducible assumption
    | (lift_lets -underBinder; intro y)
    | with_reducible apply State.setLane_keeps
    | with_reducible apply State.setReg_keeps
    | (with_reducible apply Keeps.ite <;> intros)

theorem execLaneTxeqWrite_keeps {s0 t : State} (h : Keeps s0 t) (l : Lane) (value : Word32) : KeepsN s0 (execLaneTxeqWrite l value t) := by
  unfold execLaneTxeqWrite
  iterate 40 all_goals try first
    | with_reducible assumption
    | (with_reducible apply onLane_keeps <;> intros)
    | with_reducible apply State.laneTxeq_keeps
    | (with_reducible apply KeepsN.ite <;> intros)
    | with_reducible refine KeepsN.next ?_

theorem State.inject_keeps {s0 t : State} (h : Keeps s0 t) (k : Nat) : Keeps s0 (State.inject t k) := by
  unfold State.inject
  iterate 40 all_goals try first
    | with_reducible assumption
    | (lift_lets -underBinder; intro y)
    | with_reducible apply State.setLane_keeps

theorem State.lanePrbs_keeps {s0 t : State} (h : Keeps s0 t) (k : Nat) (v : Nat) : Keeps s0 (State.lanePrbs t k v) := by
  unfold State.lanePrbs
  iterate 40 all_goals try first
    | with_reducible assumption
    | (lift_lets -underBinder; intro y)
    | with_reducible apply State.setReg_keeps
    | with_reducible apply State.startLane_keeps
    | with_reducible apply State.laneChanged_keeps
    | with_reducible apply State.stopLane_keeps
    | with_reducible apply State.setLane_keeps
    | with_reducible apply State.inject_keeps
    | (with_reducible apply Keeps.ite <;> intros)

theorem execPrbsCfgWrite_keeps {s0 t : State} (h : Keeps s0 t) (l : Lane) (value : Word32) : KeepsN s0 (execPrbsCfgWrite l value t) := by
  unfold execPrbsCfgWrite
  iterate 40 all_goals try first
    | with_reducible assumption
    | (with_reducible apply onLane_keeps <;> intros)
    | with_reducible apply State.lanePrbs_keeps
    | (with_reducible apply KeepsN.ite <;> intros)
    | with_reducible refine KeepsN.next ?_

theorem execErrorInject_keeps {s0 t : State} (h : Keeps s0 t) (l : Lane) (value : Word32) : KeepsN s0 (execErrorInject l value t) := by
  unfold execErrorInject
  iterate 40 all_goals try first
    | with_reducible assumption
    | (with_reducible apply onLane_keeps <;> intros)
    | with_reducible apply State.lanePrbs_keeps
    | (with_reducible apply KeepsN.ite <;> intros)
    | with_reducible refine KeepsN.next ?_

theorem execPrbsCheckerLockLoss_keeps {s0 t : State} (h : Keeps s0 t) (l : Lane) : KeepsN s0 (execPrbsCheckerLockLoss l t) := by
  unfold execPrbsCheckerLockLoss
  iterate 40 all_goals try first
    | with_reducible assumption
    | (lift_lets -underBinder; intro y)
    | (with_reducible apply onLane_keeps <;> intros)
    | with_reducible apply State.raise_keeps
    | with_reducible apply State.setLane_keeps
    | (with_reducible apply Keeps.ite <;> intros)

theorem State.laneEye_keeps {s0 t : State} (h : Keeps s0 t) (k : Nat) (v : Nat) : Keeps s0 (State.laneEye t k v) := by
  unfold State.laneEye
  iterate 40 all_goals try first
    | with_reducible assumption
    | (lift_lets -underBinder; intro y)
    | with_reducible apply State.setReg_keeps
    | with_reducible apply State.setLane_keeps
    | (with_reducible apply Keeps.ite <;> intros)

theorem execEyeScanGo_keeps {s0 t : State} (h : Keeps s0 t) (l : Lane) (value : Word32) : KeepsN s0 (execEyeScanGo l value t) := by
  unfold execEyeScanGo
  iterate 40 all_goals try first
    | with_reducible assumption
    | (with_reducible apply onLane_keeps <;> intros)
    | with_reducible apply State.laneEye_keeps
    | (with_reducible apply KeepsN.ite <;> intros)
    | with_reducible refine KeepsN.next ?_

theorem execEyeScanDone_keeps {s0 t : State} (h : Keeps s0 t) (l : Lane) (errors : Word32) : KeepsN s0 (execEyeScanDone l errors t) := by
  unfold execEyeScanDone
  iterate 40 all_goals try first
    | with_reducible assumption
    | (lift_lets -underBinder; intro y)
    | (with_reducible apply onLane_keeps <;> intros)
    | with_reducible apply State.setLane_keeps
    | (with_reducible apply Keeps.ite <;> intros)

theorem State.startRing_keeps {s0 t : State} (h : Keeps s0 t) (k : RingKind) (r : Nat) (cfg : Nat) : Keeps s0 (State.startRing t k r cfg) := by
  unfold State.startRing
  iterate 40 all_goals try first
    | with_reducible assumption
    | (lift_lets -underBinder; intro y)
    | with_reducible apply State.setReg_keeps
    | with_reducible apply State.setRing_keeps

theorem State.ringEnable_keeps {s0 t : State} (h : Keeps s0 t) (k : RingKind) (r : Nat) (v : Nat) : Keeps s0 (State.ringEnable t k r v) := by
  unfold State.ringEnable
  iterate 40 all_goals try first
    | with_reducible assumption
    | (lift_lets -underBinder; intro y; with_reducible refine (fun (hy : Keeps s0 y) => ?_) ?_ <;> [clear_value y; subst y])
    | (lift_lets -underBinder; intro y)
    | with_reducible apply State.raise_keeps
    | with_reducible apply State.setReg_keeps
    | with_reducible apply State.startRing_keeps
    | with_reducible apply State.ringError_keeps
    | with_reducible apply State.setRing_keeps
    | (with_reducible apply Keeps.ite <;> intros)
    | split

theorem execRingEnable_keeps {s0 t : State} (h : Keeps s0 t) (kind : RingKind) (r : Fin 64) (value : Word32) : KeepsN s0 (execRingEnable kind r value t) := by
  unfold execRingEnable
  iterate 40 all_goals try first
    | with_reducible assumption
    | with_reducible apply State.ringEnable_keeps
    | (with_reducible apply KeepsN.ite <;> intros)
    | with_reducible refine KeepsN.next ?_

theorem State.discardTaken_keeps {s0 t : State} (h : Keeps s0 t) (r : Nat) : Keeps s0 (State.discardTaken t r) := by
  unfold State.discardTaken
  iterate 40 all_goals try first
    | with_reducible assumption
    | (lift_lets -underBinder; intro y)
    | with_reducible apply State.setRing_keeps
    | (with_reducible apply Keeps.ite <;> intros)
    | fail_if_no_progress with_reducible refine Keeps.upd ?_ rfl

theorem State.ringDisable_keeps {s0 t : State} (h : Keeps s0 t) (k : RingKind) (r : Nat) (v : Nat) : Keeps s0 (State.ringDisable t k r v) := by
  unfold State.ringDisable
  iterate 40 all_goals try first
    | with_reducible assumption
    | (lift_lets -underBinder; intro y)
    | with_reducible apply State.raise_keeps
    | with_reducible apply State.setReg_keeps
    | with_reducible apply State.setRing_keeps
    | with_reducible apply State.discardTaken_keeps
    | (with_reducible apply Keeps.ite <;> intros)
    | split

theorem execRingDisable_keeps {s0 t : State} (h : Keeps s0 t) (kind : RingKind) (r : Fin 64) (value : Word32) : KeepsN s0 (execRingDisable kind r value t) := by
  unfold execRingDisable
  iterate 40 all_goals try first
    | with_reducible assumption
    | with_reducible apply State.ringDisable_keeps
    | (with_reducible apply KeepsN.ite <;> intros)
    | with_reducible refine KeepsN.next ?_

theorem execRingDrainEnd_keeps {s0 t : State} (h : Keeps s0 t) (r : Fin 64) : KeepsN s0 (execRingDrainEnd r t) := by
  unfold execRingDrainEnd
  iterate 40 all_goals try first
    | with_reducible assumption
    | (lift_lets -underBinder; intro y)
    | with_reducible apply State.setRing_keeps
    | (with_reducible apply KeepsN.ite <;> intros)
    | with_reducible refine KeepsN.next ?_

theorem State.ringCi_keeps {s0 t : State} (h : Keeps s0 t) (k : RingKind) (r : Nat) (v : Nat) : Keeps s0 (State.ringCi t k r v) := by
  unfold State.ringCi
  iterate 40 all_goals try first
    | with_reducible assumption
    | (lift_lets -underBinder; intro y; with_reducible refine (fun (hy : Keeps s0 y) => ?_) ?_ <;> [clear_value y; subst y])
    | with_reducible apply State.setReg_keeps
    | with_reducible apply State.setRing_keeps
    | (with_reducible apply Keeps.ite <;> intros)

theorem execRingCiWrite_keeps {s0 t : State} (h : Keeps s0 t) (kind : RingKind) (r : Fin 64) (value : Word32) : KeepsN s0 (execRingCiWrite kind r value t) := by
  unfold execRingCiWrite
  iterate 40 all_goals try first
    | with_reducible assumption
    | with_reducible apply State.ringCi_keeps
    | (with_reducible apply KeepsN.ite <;> intros)
    | with_reducible refine KeepsN.next ?_

theorem execInterruptDelayExpiry_keeps {s0 t : State} (h : Keeps s0 t) (kind : RingKind) (r : Fin 64) : KeepsN s0 (execInterruptDelayExpiry kind r t) := by
  unfold execInterruptDelayExpiry
  iterate 40 all_goals try first
    | with_reducible assumption
    | (lift_lets -underBinder; intro y; with_reducible refine (fun (hy : Keeps s0 y) => ?_) ?_ <;> [clear_value y; subst y])
    | (lift_lets -underBinder; intro y)
    | with_reducible apply State.passTo_keeps
    | with_reducible apply State.setRing_keeps
    | (with_reducible apply KeepsN.ite <;> intros)
    | with_reducible refine KeepsN.next ?_
    | split

theorem State.doorbell_keeps {s0 t : State} (h : Keeps s0 t) (r : Nat) (v : Nat) : Keeps s0 (State.doorbell t r v) := by
  unfold State.doorbell
  iterate 40 all_goals try first
    | with_reducible assumption
    | (lift_lets -underBinder; intro y)
    | with_reducible apply State.ringError_keeps
    | with_reducible apply State.setRing_keeps
    | (with_reducible apply Keeps.ite <;> intros)

theorem execDoorbellWrite_keeps {s0 t : State} (h : Keeps s0 t) (r : Fin 64) (value : Word32) : KeepsN s0 (execDoorbellWrite r value t) := by
  unfold execDoorbellWrite
  iterate 40 all_goals try first
    | with_reducible assumption
    | with_reducible apply State.doorbell_keeps
    | (with_reducible apply KeepsN.ite <;> intros)
    | with_reducible refine KeepsN.next ?_

theorem State.finishOne_keeps {s0 t : State} (h : Keeps s0 t) (d : Desc) (st : Status) : Keeps s0 (State.finishOne t d st) := by
  unfold State.finishOne
  iterate 40 all_goals try first
    | with_reducible assumption
    | with_reducible apply State.reserve_keeps
    | with_reducible apply State.stall_keeps
    | with_reducible apply State.done_keeps
    | (with_reducible apply Keeps.ite <;> intros)
    | split
    | with_reducible refine KeepsO.of_eq (by with_reducible assumption) ?_

theorem State.finishRowless_keeps {s0 t : State} (h : Keeps s0 t) (r : Nat) : Keeps s0 (State.finishRowless t r) := by
  unfold State.finishRowless
  iterate 40 all_goals try first
    | with_reducible assumption
    | with_reducible apply State.finishOne_keeps
    | (with_reducible apply Keeps.foldl <;> intros)
    | split

theorem State.fetchGo_keeps {s0 t : State} (h : Keeps s0 t) (r : Fin 64) (a : Nat) : Keeps s0 (State.fetchGo r a t) := by
  induction a generalizing t with
  | zero =>
    unfold State.fetchGo
    iterate 40 all_goals try first
      | with_reducible assumption
  | succ n ih =>
    unfold State.fetchGo
    iterate 40 all_goals try first
      | with_reducible apply ih
      | with_reducible assumption
      | (lift_lets -underBinder; intro y)
      | with_reducible apply State.readMem_keeps
      | with_reducible apply State.ringError_keeps
      | with_reducible apply State.setRing_keeps
      | split
      | with_reducible refine KeepsP.of_eq (by with_reducible assumption) ?_

theorem execCommandFetch_keeps {s0 t : State} (h : Keeps s0 t) : KeepsN s0 (execCommandFetch t) := by
  unfold execCommandFetch
  iterate 40 all_goals try first
    | with_reducible assumption
    | (lift_lets -underBinder; intro y; with_reducible refine (fun (hy : Keeps s0 y) => ?_) ?_ <;> [clear_value y; subst y])
    | (lift_lets -underBinder; intro y)
    | with_reducible apply State.finishRowless_keeps
    | with_reducible apply State.fetchGo_keeps
    | with_reducible refine KeepsN.next ?_
    | fail_if_no_progress with_reducible refine Keeps.upd ?_ rfl
    | (with_reducible apply Keeps.foldl <;> intros)
    | split
    | intro _

theorem execFence_keeps {s0 t : State} (h : Keeps s0 t) (d : Desc) : KeepsN s0 (execFence d t) := by
  unfold execFence
  iterate 40 all_goals try first
    | with_reducible assumption
    | (with_reducible apply ringCommand_keeps <;> intros)
    | with_reducible apply State.done_keeps
    | with_reducible refine KeepsN.next ?_

theorem nopCommand_keeps {s0 t : State} (h : Keeps s0 t) (d : Desc) : Keeps s0 (nopCommand d t) := by
  unfold nopCommand
  iterate 40 all_goals try first
    | with_reducible assumption
    | (with_reducible apply ringCommand_keeps <;> intros)
    | with_reducible apply State.done_keeps

theorem ifaceBody_keeps {s0 t : State} (h : Keeps s0 t) (d : Desc) : Keeps s0 (ifaceBody d t) := by
  unfold ifaceBody
  iterate 40 all_goals try first
    | with_reducible assumption
    | (lift_lets -underBinder; intro y)
    | with_reducible apply State.done_keeps
    | with_reducible apply State.raise_keeps
    | (with_reducible apply Keeps.ite <;> intros)
    | fail_if_no_progress with_reducible refine Keeps.upd ?_ rfl

theorem execSetInterfaceVersion_keeps {s0 t : State} (h : Keeps s0 t) (d : Desc) : KeepsN s0 (execSetInterfaceVersion d t) := by
  unfold execSetInterfaceVersion
  iterate 40 all_goals try first
    | with_reducible assumption
    | (with_reducible apply ringCommand_keeps <;> intros)
    | with_reducible apply ifaceBody_keeps
    | with_reducible refine KeepsN.next ?_

theorem State.mgmtSendGo_keeps {s0 t : State} (h : Keeps s0 t) (k : Nat) (a : Nat) : Keeps s0 (State.mgmtSendGo k a t) := by
  induction a generalizing t with
  | zero =>
    unfold State.mgmtSendGo
    iterate 40 all_goals try first
      | with_reducible assumption
  | succ n ih =>
    unfold State.mgmtSendGo
    iterate 40 all_goals try first
      | with_reducible apply ih
      | with_reducible assumption
      | (lift_lets -underBinder; intro y)
      | with_reducible apply State.readMem_keeps
      | with_reducible apply State.writeMem_keeps
      | with_reducible apply State.ringError_keeps
      | with_reducible apply State.emit_keeps
      | with_reducible apply State.setRing_keeps
      | (with_reducible apply Keeps.ite <;> intros)
      | split
      | with_reducible apply KeepsP.snd
      | with_reducible refine KeepsP.of_eq (by with_reducible assumption) ?_

theorem State.mgmtDoorbell_keeps {s0 t : State} (h : Keeps s0 t) (m : Nat) (v : Nat) : Keeps s0 (State.mgmtDoorbell t m v) := by
  unfold State.mgmtDoorbell
  iterate 40 all_goals try first
    | with_reducible assumption
    | (lift_lets -underBinder; intro y)
    | with_reducible apply State.ringError_keeps
    | with_reducible apply State.setRing_keeps
    | with_reducible apply State.mgmtSendGo_keeps
    | (with_reducible apply Keeps.ite <;> intros)
    | fail_if_no_progress with_reducible refine Keeps.upd ?_ rfl

theorem execMgmtDoorbell_keeps {s0 t : State} (h : Keeps s0 t) (m : Fin 4) (value : Word32) : KeepsN s0 (execMgmtDoorbell m value t) := by
  unfold execMgmtDoorbell
  iterate 40 all_goals try first
    | with_reducible assumption
    | with_reducible apply State.mgmtDoorbell_keeps
    | (with_reducible apply KeepsN.ite <;> intros)
    | with_reducible refine KeepsN.next ?_

theorem execMgmtLinkChange_keeps {s0 t : State} (h : Keeps s0 t) (k : Fin 2) (up : Bool) (speed : BitVec 2) : KeepsN s0 (execMgmtLinkChange k up speed t) := by
  unfold execMgmtLinkChange
  iterate 40 all_goals try first
    | with_reducible assumption
    | (lift_lets -underBinder; intro y)
    | with_reducible apply State.raise_keeps
    | (with_reducible apply Keeps.ite <;> intros)
    | (with_reducible apply KeepsN.ite <;> intros)
    | with_reducible refine KeepsN.next ?_
    | fail_if_no_progress with_reducible refine Keeps.upd ?_ rfl

theorem State.mgmtFill_keeps {s0 t : State} (h : Keeps s0 t) (k : Nat) (f : List Byte) (fcsErr : Bool) : Keeps s0 (State.mgmtFill t k f fcsErr) := by
  unfold State.mgmtFill
  iterate 40 all_goals try first
    | with_reducible assumption
    | (lift_lets -underBinder; intro y)
    | with_reducible apply State.count_keeps
    | with_reducible apply State.readMem_keeps
    | with_reducible apply State.ringError_keeps
    | with_reducible apply State.writeMem_keeps
    | with_reducible apply State.setRing_keeps
    | (with_reducible apply Keeps.ite <;> intros)
    | split
    | with_reducible refine KeepsP.of_eq (by with_reducible assumption) ?_

theorem State.mgmtReceive_keeps {s0 t : State} (h : Keeps s0 t) (k : Nat) (frame : List Byte) : Keeps s0 (State.mgmtReceive t k frame) := by
  unfold State.mgmtReceive
  iterate 40 all_goals try first
    | with_reducible assumption
    | (lift_lets -underBinder; intro y)
    | with_reducible apply State.count_keeps
    | with_reducible apply State.arbiterIn_keeps
    | with_reducible apply State.mgmtFill_keeps
    | (with_reducible apply Keeps.ite <;> intros)

theorem execMgmtFrameReceive_keeps {s0 t : State} (h : Keeps s0 t) (k : Fin 2) (frame : List Byte) : KeepsN s0 (execMgmtFrameReceive k frame t) := by
  unfold execMgmtFrameReceive
  iterate 40 all_goals try first
    | with_reducible assumption
    | with_reducible apply State.mgmtReceive_keeps
    | with_reducible refine KeepsN.next ?_

theorem State.sendMessage_keeps {s0 t : State} (h : Keeps s0 t) (d : Desc) : Keeps s0 (State.sendMessage t d) := by
  unfold State.sendMessage
  iterate 40 all_goals try first
    | with_reducible assumption
    | (lift_lets -underBinder; intro y)
    | with_reducible apply State.done_keeps
    | (with_reducible apply State.withBuf_keeps <;> intros)
    | with_reducible apply State.setFacet_keeps
    | (with_reducible apply Keeps.ite <;> intros)

theorem State.sendFrame_keeps {s0 t : State} (h : Keeps s0 t) (d : Desc) : Keeps s0 (State.sendFrame t d) := by
  unfold State.sendFrame
  iterate 40 all_goals try first
    | with_reducible assumption
    | (lift_lets -underBinder; intro y)
    | with_reducible apply State.done_keeps
    | (with_reducible apply State.withBuf_keeps <;> intros)
    | with_reducible apply State.allocFrame_keeps
    | with_reducible apply State.notSent_keeps
    | with_reducible apply State.enter_keeps
    | with_reducible apply State.complete_keeps
    | (with_reducible apply Keeps.ite <;> intros)
    | split
    | with_reducible apply KeepsP.snd
    | with_reducible refine KeepsP.of_eq (by with_reducible assumption) ?_

theorem frameSendBody_keeps {s0 t : State} (h : Keeps s0 t) (d : Desc) : Keeps s0 (frameSendBody d t) := by
  unfold frameSendBody
  iterate 40 all_goals try first
    | with_reducible assumption
    | (lift_lets -underBinder; intro y)
    | with_reducible apply State.done_keeps
    | with_reducible apply State.sendMessage_keeps
    | with_reducible apply State.sendFrame_keeps
    | (with_reducible apply Keeps.ite <;> intros)

theorem execFrameSend_keeps {s0 t : State} (h : Keeps s0 t) (d : Desc) : KeepsN s0 (execFrameSend d t) := by
  unfold execFrameSend
  iterate 40 all_goals try first
    | with_reducible assumption
    | (with_reducible apply ringCommand_keeps <;> intros)
    | with_reducible apply frameSendBody_keeps
    | with_reducible refine KeepsN.next ?_

theorem resyncBody_keeps {s0 t : State} (h : Keeps s0 t) (d : Desc) : Keeps s0 (resyncBody d t) := by
  unfold resyncBody
  iterate 40 all_goals try first
    | with_reducible assumption
    | (lift_lets -underBinder; intro y)
    | with_reducible apply State.complete_keeps
    | with_reducible apply State.writeMem_keeps
    | with_reducible apply State.done_keeps
    | with_reducible apply State.raise_keeps
    | (with_reducible apply Keeps.ite <;> intros)
    | fail_if_no_progress with_reducible refine Keeps.upd ?_ rfl
    | split
    | with_reducible refine KeepsP.of_eq (by with_reducible assumption) ?_

theorem execResync_keeps {s0 t : State} (h : Keeps s0 t) (d : Desc) : KeepsN s0 (execResync d t) := by
  unfold execResync
  iterate 40 all_goals try first
    | with_reducible assumption
    | (with_reducible apply ringCommand_keeps <;> intros)
    | with_reducible apply resyncBody_keeps
    | with_reducible refine KeepsN.next ?_

theorem State.setUart_keeps {s0 t : State} (h : Keeps s0 t) (k : Nat) (x : Uart) : Keeps s0 (State.setUart t k x) := by
  unfold State.setUart
  iterate 40 all_goals try first
    | with_reducible assumption
    | (lift_lets -underBinder; intro y)
    | fail_if_no_progress with_reducible refine Keeps.upd ?_ rfl

theorem State.uartPush_keeps {s0 t : State} (h : Keeps s0 t) (k : Nat) (v : Nat) : Keeps s0 (State.uartPush t k v) := by
  unfold State.uartPush
  iterate 40 all_goals try first
    | with_reducible assumption
    | (lift_lets -underBinder; intro y)
    | with_reducible apply State.setUart_keeps
    | (with_reducible apply Keeps.ite <;> intros)

theorem execUartDataWrite_keeps {s0 t : State} (h : Keeps s0 t) (k : Fin 2) (value : Word32) : KeepsN s0 (execUartDataWrite k value t) := by
  unfold execUartDataWrite
  iterate 40 all_goals try first
    | with_reducible assumption
    | with_reducible apply State.uartPush_keeps
    | (with_reducible apply KeepsN.ite <;> intros)
    | with_reducible refine KeepsN.next ?_

theorem execUartDataRead_keeps {s0 t : State} (h : Keeps s0 t) (k : Fin 2) : KeepsN s0 (execUartDataRead k t) := by
  unfold execUartDataRead
  iterate 40 all_goals try first
    | with_reducible assumption
    | (lift_lets -underBinder; intro y; with_reducible refine (fun (hy : Keeps s0 y) => ?_) ?_ <;> [clear_value y; subst y])
    | (lift_lets -underBinder; intro y)
    | with_reducible apply State.setUart_keeps
    | with_reducible refine KeepsN.next ?_
    | fail_if_no_progress with_reducible refine Keeps.upd ?_ rfl
    | split

theorem execUartByteReceive_keeps {s0 t : State} (h : Keeps s0 t) (k : Fin 2) (b : Byte) : KeepsN s0 (execUartByteReceive k b t) := by
  unfold execUartByteReceive
  iterate 40 all_goals try first
    | with_reducible assumption
    | (lift_lets -underBinder; intro y)
    | with_reducible apply State.setUart_keeps
    | (with_reducible apply KeepsN.ite <;> intros)
    | with_reducible refine KeepsN.next ?_

theorem execUartByteSent_keeps {s0 t : State} (h : Keeps s0 t) (k : Fin 2) : KeepsN s0 (execUartByteSent k t) := by
  unfold execUartByteSent
  iterate 40 all_goals try first
    | with_reducible assumption
    | (lift_lets -underBinder; intro y)
    | with_reducible apply State.emit_keeps
    | with_reducible apply State.setUart_keeps
    | (with_reducible apply KeepsN.ite <;> intros)
    | with_reducible refine KeepsN.next ?_
    | split

theorem State.setI2c_keeps {s0 t : State} (h : Keeps s0 t) (k : Nat) (x : I2c) : Keeps s0 (State.setI2c t k x) := by
  unfold State.setI2c
  iterate 40 all_goals try first
    | with_reducible assumption
    | (lift_lets -underBinder; intro y)
    | fail_if_no_progress with_reducible refine Keeps.upd ?_ rfl

theorem State.i2cCommand_keeps {s0 t : State} (h : Keeps s0 t) (k : Nat) (v : Nat) : Keeps s0 (State.i2cCommand t k v) := by
  unfold State.i2cCommand
  iterate 40 all_goals try first
    | with_reducible assumption
    | (lift_lets -underBinder; intro y)
    | with_reducible apply State.emit_keeps
    | with_reducible apply State.setI2c_keeps
    | (with_reducible apply Keeps.ite <;> intros)

theorem execI2cStart_keeps {s0 t : State} (h : Keeps s0 t) (k : Fin 4) : KeepsN s0 (execI2cStart k t) := by
  unfold execI2cStart
  iterate 40 all_goals try first
    | with_reducible assumption
    | with_reducible apply State.i2cCommand_keeps
    | with_reducible refine KeepsN.next ?_

theorem execI2cStop_keeps {s0 t : State} (h : Keeps s0 t) (k : Fin 4) : KeepsN s0 (execI2cStop k t) := by
  unfold execI2cStop
  iterate 40 all_goals try first
    | with_reducible assumption
    | with_reducible apply State.i2cCommand_keeps
    | with_reducible refine KeepsN.next ?_

theorem execI2cRead_keeps {s0 t : State} (h : Keeps s0 t) (k : Fin 4) (stop : Bool) : KeepsN s0 (execI2cRead k stop t) := by
  unfold execI2cRead
  iterate 40 all_goals try first
    | with_reducible assumption
    | with_reducible apply State.i2cCommand_keeps
    | with_reducible refine KeepsN.next ?_

theorem execI2cWrite_keeps {s0 t : State} (h : Keeps s0 t) (k : Fin 4) (b : Byte) : KeepsN s0 (execI2cWrite k b t) := by
  unfold execI2cWrite
  iterate 40 all_goals try first
    | with_reducible assumption
    | with_reducible apply State.i2cCommand_keeps
    | with_reducible refine KeepsN.next ?_

theorem execI2cTransferDone_keeps {s0 t : State} (h : Keeps s0 t) (k : Fin 4) (nack : Bool) (arbLost : Bool) (b : Byte) : KeepsN s0 (execI2cTransferDone k nack arbLost b t) := by
  unfold execI2cTransferDone
  iterate 40 all_goals try first
    | with_reducible assumption
    | (lift_lets -underBinder; intro y)
    | with_reducible apply State.setI2c_keeps
    | with_reducible refine KeepsN.next ?_
    | split

theorem State.setParams_keeps {s0 t : State} (h : Keeps s0 t) (c : Nat) (sub : Nat) (bs : List Byte) : Keeps s0 (State.setParams t c sub bs) := by
  unfold State.setParams
  iterate 40 all_goals try first
    | with_reducible assumption
    | with_reducible apply State.scratchWrite_keeps

theorem State.startFacet_keeps {s0 t : State} (h : Keeps s0 t) (n : Nat) : Keeps s0 (State.startFacet t n) := by
  unfold State.startFacet
  iterate 40 all_goals try first
    | with_reducible assumption
    | (lift_lets -underBinder; intro y)
    | with_reducible apply State.facetLol_keeps
    | with_reducible apply State.facetSignal_keeps
    | with_reducible apply State.setFacet_keeps

theorem State.enableSub_keeps {s0 t : State} (h : Keeps s0 t) (d : Desc) (i : Nat) : Keeps s0 (State.enableSub t d i) := by
  unfold State.enableSub
  iterate 40 all_goals try first
    | with_reducible assumption
    | (lift_lets -underBinder; intro y)
    | with_reducible apply State.setLport_keeps
    | with_reducible apply State.startLane_keeps
    | with_reducible apply State.releap_keeps
    | with_reducible apply State.setParams_keeps
    | (with_reducible apply Keeps.ite <;> intros)
    | (with_reducible apply Keeps.foldl <;> intros)

theorem State.enablePort_keeps {s0 t : State} (h : Keeps s0 t) (d : Desc) : Keeps s0 (State.enablePort t d) := by
  unfold State.enablePort
  iterate 40 all_goals try first
    | with_reducible assumption
    | (lift_lets -underBinder; intro y)
    | with_reducible apply State.enableSub_keeps
    | with_reducible apply State.syncRestore_keeps
    | with_reducible apply State.rclk_keeps
    | with_reducible apply State.startFacet_keeps
    | (with_reducible apply Keeps.ite <;> intros)
    | fail_if_no_progress with_reducible refine Keeps.upd ?_ rfl
    | (with_reducible apply Keeps.foldl <;> intros)

theorem portEnableBody_keeps {s0 t : State} (h : Keeps s0 t) (d : Desc) : Keeps s0 (portEnableBody d t) := by
  unfold portEnableBody
  iterate 40 all_goals try first
    | with_reducible assumption
    | with_reducible apply State.done_keeps
    | with_reducible apply State.enablePort_keeps
    | (with_reducible apply Keeps.ite <;> intros)
    | split

theorem execPortEnable_keeps {s0 t : State} (h : Keeps s0 t) (d : Desc) : KeepsN s0 (execPortEnable d t) := by
  unfold execPortEnable
  iterate 40 all_goals try first
    | with_reducible assumption
    | (with_reducible apply ringCommand_keeps <;> intros)
    | with_reducible apply portEnableBody_keeps
    | with_reducible refine KeepsN.next ?_

theorem State.dropParkedOf_keeps {s0 t : State} (h : Keeps s0 t) (lp : Nat) : Keeps s0 (State.dropParkedOf t lp) := by
  unfold State.dropParkedOf
  iterate 40 all_goals try first
    | with_reducible assumption
    | with_reducible apply State.dropParked_keeps
    | (with_reducible apply Keeps.foldl <;> intros)

theorem State.stopFacet_keeps {s0 t : State} (h : Keeps s0 t) (n : Nat) : Keeps s0 (State.stopFacet t n) := by
  unfold State.stopFacet
  iterate 40 all_goals try first
    | with_reducible assumption
    | (lift_lets -underBinder; intro y)
    | with_reducible apply State.setFacet_keeps
    | (with_reducible apply Keeps.ite <;> intros)

theorem State.disableSub_keeps {s0 t : State} (h : Keeps s0 t) (side : Nat) (n : Nat) (i : Nat) : Keeps s0 (State.disableSub t side n i) := by
  unfold State.disableSub
  iterate 40 all_goals try first
    | with_reducible assumption
    | (lift_lets -underBinder; intro y)
    | with_reducible apply State.setLport_keeps
    | with_reducible apply State.discardPort_keeps
    | with_reducible apply State.dropParkedOf_keeps
    | (with_reducible apply Keeps.ite <;> intros)

theorem State.closePort_keeps {s0 t : State} (h : Keeps s0 t) (x : Disable) : Keeps s0 (State.closePort t x) := by
  unfold State.closePort
  iterate 40 all_goals try first
    | with_reducible assumption
    | (lift_lets -underBinder; intro y)
    | with_reducible apply State.setLport_keeps
    | with_reducible apply State.stopLane_keeps
    | with_reducible apply State.setParams_keeps
    | with_reducible apply State.stopFacet_keeps
    | with_reducible apply State.rclk_keeps
    | (with_reducible apply Keeps.ite <;> intros)
    | fail_if_no_progress with_reducible refine Keeps.upd ?_ rfl
    | (with_reducible apply Keeps.foldl <;> intros)

theorem portDisableBody_keeps {s0 t : State} (h : Keeps s0 t) (d : Desc) : Keeps s0 (portDisableBody d t) := by
  unfold portDisableBody
  iterate 40 all_goals try first
    | with_reducible assumption
    | (lift_lets -underBinder; intro y)
    | with_reducible apply State.done_keeps
    | with_reducible apply State.setReg_keeps
    | with_reducible apply State.syncRestore_keeps
    | with_reducible apply State.disableSub_keeps
    | (with_reducible apply Keeps.ite <;> intros)
    | fail_if_no_progress with_reducible refine Keeps.upd ?_ rfl
    | (with_reducible apply Keeps.foldl <;> intros)

theorem execPortDisable_keeps {s0 t : State} (h : Keeps s0 t) (d : Desc) : KeepsN s0 (execPortDisable d t) := by
  unfold execPortDisable
  iterate 40 all_goals try first
    | with_reducible assumption
    | (with_reducible apply ringCommand_keeps <;> intros)
    | with_reducible apply portDisableBody_keeps
    | with_reducible refine KeepsN.next ?_

theorem execPortDrainEnd_keeps {s0 t : State} (h : Keeps s0 t) (side : Side) (n : Fin 16) : KeepsN s0 (execPortDrainEnd side n t) := by
  unfold execPortDrainEnd
  iterate 40 all_goals try first
    | with_reducible assumption
    | with_reducible apply State.done_keeps
    | with_reducible apply State.closePort_keeps
    | with_reducible refine KeepsN.next ?_
    | split

theorem State.discardItems_keeps {s0 t : State} (h : Keeps s0 t) (lp : Nat) : KeepsP s0 (State.discardItems t lp) := by
  unfold State.discardItems
  iterate 40 all_goals try first
    | with_reducible assumption
    | (lift_lets -underBinder; intro y)
    | with_reducible apply State.discardUnder_keeps
    | with_reducible apply State.raise_keeps
    | with_reducible apply State.countN_keeps
    | (with_reducible apply Keeps.foldl <;> intros)
    | fail_if_no_progress with_reducible refine KeepsP.mk ?_

theorem execPortDisableTimeout_keeps {s0 t : State} (h : Keeps s0 t) (side : Side) (n : Fin 16) : KeepsN s0 (execPortDisableTimeout side n t) := by
  unfold execPortDisableTimeout
  iterate 40 all_goals try first
    | with_reducible assumption
    | (lift_lets -underBinder; intro y; with_reducible refine (fun (hy : Keeps s0 y) => ?_) ?_ <;> [clear_value y; subst y])
    | with_reducible apply State.passTo_keeps
    | with_reducible apply State.discardItems_keeps
    | with_reducible apply State.complete_keeps
    | with_reducible apply State.closePort_keeps
    | with_reducible refine KeepsN.next ?_
    | (with_reducible apply KeepsP.foldl <;> intros)
    | split
    | fail_if_no_progress with_reducible refine KeepsP.mk ?_
    | with_reducible apply KeepsP.snd
    | with_reducible refine KeepsP.of_eq (by with_reducible assumption) ?_

theorem State.withCpr_keeps {s0 t : State} (h : Keeps s0 t) (c : CprState) : Keeps s0 (State.withCpr t c) := by
  unfold State.withCpr
  iterate 40 all_goals try first
    | with_reducible assumption
    | fail_if_no_progress with_reducible refine Keeps.upd ?_ rfl

theorem State.noteCause_keeps {s0 t : State} (h : Keeps s0 t) (c : BitVec 8) : Keeps s0 (State.noteCause t c) := by
  unfold State.noteCause
  iterate 40 all_goals try first
    | with_reducible assumption
    | (lift_lets -underBinder; intro y)
    | with_reducible apply State.withCpr_keeps

theorem State.coldState_keeps {s0 t : State} (h : Keeps s0 t) : Keeps s0 t.coldState :=
  ⟨(State.cutWrites_keeps h).pending, fun _ => rfl, fun b w => (State.cutWrites_keeps h).cells b w⟩

theorem State.coldReset_keeps {s0 t : State} (h : Keeps s0 t) (cause : BitVec 8) : Keeps s0 (State.coldReset t cause) := by
  unfold State.coldReset
  iterate 40 all_goals try first
    | with_reducible assumption
    | with_reducible apply State.noteCause_keeps
    | with_reducible apply State.coldState_keeps

theorem execColdReset_keeps {s0 t : State} (h : Keeps s0 t) : KeepsN s0 (execColdReset t) := by
  unfold execColdReset
  iterate 40 all_goals try first
    | with_reducible assumption
    | with_reducible apply State.coldReset_keeps
    | with_reducible refine KeepsN.next ?_

theorem execSupplyReset_keeps {s0 t : State} (h : Keeps s0 t) (rail : Rail) : KeepsN s0 (execSupplyReset rail t) := by
  unfold execSupplyReset
  iterate 40 all_goals try first
    | with_reducible assumption
    | (lift_lets -underBinder; intro y; with_reducible refine (fun (hy : Keeps s0 y) => ?_) ?_ <;> [clear_value y; subst y])
    | with_reducible apply State.coldReset_keeps
    | with_reducible apply State.withCpr_keeps
    | (with_reducible apply KeepsN.ite <;> intros)
    | with_reducible refine KeepsN.next ?_

theorem State.holdAll_keeps {s0 t : State} (h : Keeps s0 t) (alarmN : Bool) : Keeps s0 (State.holdAll t alarmN) := by
  unfold State.holdAll
  iterate 40 all_goals try first
    | with_reducible assumption
    | (lift_lets -underBinder; intro y; with_reducible refine (fun (hy : Keeps s0 y) => ?_) ?_ <;> [clear_value y; subst y])
    | with_reducible refine State.withApexMk_keeps ?_ rfl
    | with_reducible apply State.coldState_keeps
    | with_reducible apply State.withCpr_keeps

theorem execAlarm_keeps {s0 t : State} (h : Keeps s0 t) (cause : Fin 32) (rail : BitVec 8) : KeepsN s0 (execAlarm cause rail t) := by
  unfold execAlarm
  iterate 40 all_goals try first
    | with_reducible assumption
    | (lift_lets -underBinder; intro y; have _ : y.otp.lcCells = y.otp.lcCells := rfl)
    | (lift_lets -underBinder; intro y)
    | with_reducible refine State.withApexMk_keeps ?_ rfl
    | with_reducible apply State.holdAll_keeps
    | (with_reducible apply KeepsN.ite <;> intros)
    | with_reducible refine KeepsN.next ?_

theorem execExtestLoad_keeps {s0 t : State} (h : Keeps s0 t) : KeepsN s0 (execExtestLoad t) := by
  unfold execExtestLoad
  iterate 40 all_goals try first
    | with_reducible assumption
    | with_reducible apply State.holdAll_keeps
    | with_reducible refine KeepsN.next ?_

theorem execAonBrownOut_keeps {s0 t : State} (h : Keeps s0 t) : KeepsN s0 (execAonBrownOut t) := by
  unfold execAonBrownOut
  iterate 40 all_goals try first
    | with_reducible assumption
    | (lift_lets -underBinder; intro y; with_reducible refine (fun (hy : Keeps s0 y) => ?_) ?_ <;> [clear_value y; subst y])
    | (lift_lets -underBinder; intro y; have _ : y.otp.lcCells = y.otp.lcCells := rfl)
    | with_reducible refine State.withApexMk_keeps ?_ rfl
    | with_reducible apply State.withCpr_keeps
    | with_reducible refine KeepsN.next ?_

theorem State.initMemory_keeps {s0 t : State} (h : Keeps s0 t) : Keeps s0 (State.initMemory t) := by
  unfold State.initMemory
  iterate 40 all_goals try first
    | with_reducible assumption
    | with_reducible apply State.draw_keeps
    | fail_if_no_progress with_reducible refine Keeps.upd ?_ rfl
    | with_reducible apply KeepsP.snd

theorem State.bootRegion_keeps {s0 t : State} (h : Keeps s0 t) : Keeps s0 (State.bootRegion t) := by
  unfold State.bootRegion
  iterate 40 all_goals try first
    | with_reducible assumption
    | with_reducible apply State.createRegion_keeps

theorem State.readLifecycle_keeps {s0 t : State} (h : Keeps s0 t) : Keeps s0 (State.readLifecycle t) := by
  unfold State.readLifecycle
  iterate 40 all_goals try first
    | with_reducible assumption
    | (lift_lets -underBinder; intro y; with_reducible refine (fun (hy : Keeps s0 y) => ?_) ?_ <;> [clear_value y; subst y])
    | with_reducible refine State.withApexMk_keeps ?_ rfl
    | with_reducible apply State.resumeIntent_keeps
    | (with_reducible apply Keeps.ite <;> intros)

theorem State.bootMemory_keeps {s0 t : State} (h : Keeps s0 t) : Keeps s0 (State.bootMemory t) := by
  unfold State.bootMemory
  iterate 40 all_goals try first
    | with_reducible assumption
    | (lift_lets -underBinder; intro y; with_reducible refine (fun (hy : Keeps s0 y) => ?_) ?_ <;> [clear_value y; subst y])
    | with_reducible apply State.bootRegion_keeps
    | with_reducible apply State.loadBoot_keeps
    | (with_reducible apply Keeps.ite <;> intros)

theorem State.firstSeed_keeps {s0 t : State} (h : Keeps s0 t) : Keeps s0 (State.firstSeed t) := by
  unfold State.firstSeed
  iterate 40 all_goals try first
    | with_reducible assumption
    | (lift_lets -underBinder; intro y)
    | with_reducible apply State.raise_keeps
    | (with_reducible apply Keeps.ite <;> intros)
    | fail_if_no_progress with_reducible refine Keeps.upd ?_ rfl

theorem State.bootApex_keeps {s0 t : State} (h : Keeps s0 t) : Keeps s0 (State.bootApex t) := by
  unfold State.bootApex
  iterate 40 all_goals try first
    | with_reducible assumption
    | (lift_lets -underBinder; intro y; with_reducible refine (fun (hy : Keeps s0 y) => ?_) ?_ <;> [clear_value y; subst y])
    | (lift_lets -underBinder; intro y; have _ : y.otp.lcCells = y.otp.lcCells := rfl)
    | with_reducible refine State.withApexMk_keeps ?_ rfl
    | with_reducible apply State.initMemory_keeps
    | with_reducible apply State.loadPatch_keeps
    | with_reducible apply State.buildRoot_keeps
    | with_reducible apply State.readLifecycle_keeps
    | with_reducible apply State.bootMemory_keeps
    | with_reducible apply State.mbxUnknown_keeps
    | (with_reducible apply Keeps.ite <;> intros)

theorem State.powerOn_keeps {s0 t : State} (h : Keeps s0 t) : Keeps s0 (State.powerOn t) := by
  unfold State.powerOn
  iterate 40 all_goals try first
    | with_reducible assumption
    | (lift_lets -underBinder; intro y)
    | with_reducible apply State.withCpr_keeps
    | with_reducible apply State.bootApex_keeps
    | with_reducible apply State.firstSeed_keeps
    | with_reducible apply State.withGnomon_keeps

theorem execPowerOnResetRelease_keeps {s0 t : State} (h : Keeps s0 t) : KeepsN s0 (execPowerOnResetRelease t) := by
  unfold execPowerOnResetRelease
  iterate 40 all_goals try first
    | with_reducible assumption
    | with_reducible apply State.powerOn_keeps
    | (with_reducible apply KeepsN.ite <;> intros)
    | with_reducible refine KeepsN.next ?_

theorem execEntropyHealthFail_keeps {s0 t : State} (h : Keeps s0 t) : KeepsN s0 (execEntropyHealthFail t) := by
  unfold execEntropyHealthFail
  iterate 40 all_goals try first
    | with_reducible assumption
    | (lift_lets -underBinder; intro y)
    | with_reducible apply State.raise_keeps
    | (with_reducible apply KeepsN.ite <;> intros)
    | with_reducible refine KeepsN.next ?_
    | fail_if_no_progress with_reducible refine Keeps.upd ?_ rfl

theorem execEntropyRecovery_keeps {s0 t : State} (h : Keeps s0 t) : KeepsN s0 (execEntropyRecovery t) := by
  unfold execEntropyRecovery
  iterate 40 all_goals try first
    | with_reducible assumption
    | (lift_lets -underBinder; intro y)
    | with_reducible refine State.withApexMk_keeps ?_ rfl
    | with_reducible apply State.bootMemory_keeps
    | (with_reducible apply Keeps.ite <;> intros)
    | (with_reducible apply KeepsN.ite <;> intros)
    | with_reducible refine KeepsN.next ?_
    | fail_if_no_progress with_reducible refine Keeps.upd ?_ rfl

theorem State.warmRings_keeps {s0 t : State} (h : Keeps s0 t) : Keeps s0 (State.warmRings t) := by
  unfold State.warmRings
  iterate 40 all_goals try first
    | with_reducible assumption
    | (lift_lets -underBinder; intro y)
    | with_reducible apply State.discardTaken_keeps
    | fail_if_no_progress with_reducible refine Keeps.upd ?_ rfl
    | (with_reducible apply Keeps.foldl <;> intros)

theorem State.warmEffects_keeps {s0 t : State} (h : Keeps s0 t) : Keeps s0 (State.warmEffects t) := by
  unfold State.warmEffects
  iterate 40 all_goals try first
    | with_reducible assumption
    | (lift_lets -underBinder; intro y; with_reducible refine (fun (hy : Keeps s0 y) => ?_) ?_ <;> [clear_value y; subst y])
    | with_reducible refine State.withApexMk_keeps ?_ rfl
    | with_reducible apply State.warmRings_keeps
    | with_reducible apply State.cutWrites_keeps
    | with_reducible apply State.resumeIntent_keeps
    | fail_if_no_progress with_reducible refine Keeps.upd ?_ rfl

theorem State.bootCompare_keeps {s0 t : State} (h : Keeps s0 t) : Keeps s0 (State.bootCompare t) := by
  unfold State.bootCompare
  iterate 40 all_goals try first
    | with_reducible assumption
    | (lift_lets -underBinder; intro y; have _ : y.otp.lcCells = y.otp.lcCells := rfl)
    | (lift_lets -underBinder; intro y)
    | with_reducible refine State.withApexMk_keeps ?_ rfl
    | with_reducible apply State.raise_keeps
    | with_reducible apply State.placeBoot_keeps
    | (with_reducible apply Keeps.ite <;> intros)
    | split

theorem State.warmReset_keeps {s0 t : State} (h : Keeps s0 t) (cause : BitVec 8) : Keeps s0 (State.warmReset t cause) := by
  unfold State.warmReset
  iterate 40 all_goals try first
    | with_reducible assumption
    | (lift_lets -underBinder; intro y)
    | with_reducible apply State.withCpr_keeps
    | with_reducible apply State.warmEffects_keeps
    | with_reducible apply State.noteCause_keeps
    | with_reducible apply State.bootCompare_keeps
    | (with_reducible apply Keeps.ite <;> intros)

theorem execWarmReset_keeps {s0 t : State} (h : Keeps s0 t) (by_ : ResetBy) : KeepsN s0 (execWarmReset by_ t) := by
  unfold execWarmReset
  iterate 40 all_goals try first
    | with_reducible assumption
    | with_reducible apply State.warmReset_keeps
    | (with_reducible apply KeepsN.ite <;> intros)
    | with_reducible refine KeepsN.next ?_
    | split

theorem State.foldAll_keeps {s0 t : State} (h : Keeps s0 t) : Keeps s0 (State.foldAll t) := by
  unfold State.foldAll
  iterate 40 all_goals try first
    | with_reducible assumption
    | with_reducible apply State.fold_keeps
    | (with_reducible apply Keeps.foldl <;> intros)
    | with_reducible apply KeepsP.snd

theorem State.cutPort_keeps {s0 t : State} (h : Keeps s0 t) (side : Nat) (n : Nat) : Keeps s0 (State.cutPort t side n) := by
  unfold State.cutPort
  iterate 40 all_goals try first
    | with_reducible assumption
    | (lift_lets -underBinder; intro y)
    | with_reducible apply State.disableSub_keeps
    | with_reducible apply State.setReg_keeps
    | with_reducible apply State.closePort_keeps
    | (with_reducible apply Keeps.ite <;> intros)
    | (with_reducible apply Keeps.foldl <;> intros)

theorem State.cutPorts_keeps {s0 t : State} (h : Keeps s0 t) : Keeps s0 (State.cutPorts t) := by
  unfold State.cutPorts
  iterate 40 all_goals try first
    | with_reducible assumption
    | (lift_lets -underBinder; intro y; with_reducible refine (fun (hy : Keeps s0 y) => ?_) ?_ <;> [clear_value y; subst y])
    | with_reducible apply State.cutPort_keeps
    | with_reducible apply State.done_keeps
    | fail_if_no_progress with_reducible refine Keeps.upd ?_ rfl
    | (with_reducible apply Keeps.foldl <;> intros)

theorem State.idleCluster_keeps {s0 t : State} (h : Keeps s0 t) (c : Nat) : Keeps s0 (State.idleCluster t c) := by
  unfold State.idleCluster
  iterate 40 all_goals try first
    | with_reducible assumption
    | with_reducible apply State.idle_keeps
    | with_reducible apply State.endOp_keeps
    | (with_reducible apply Keeps.foldl <;> intros)

theorem State.clearPrism_keeps {s0 t : State} (h : Keeps s0 t) (n : Nat) : Keeps s0 (State.clearPrism t n) := by
  unfold State.clearPrism
  iterate 40 all_goals try first
    | with_reducible assumption
    | (lift_lets -underBinder; intro y; with_reducible refine (fun (hy : Keeps s0 y) => ?_) ?_ <;> [clear_value y; subst y])
    | with_reducible apply State.dropSlot_keeps
    | with_reducible apply State.cryptoEnd_keeps
    | with_reducible apply State.setUnit_keeps
    | (with_reducible apply Keeps.foldl <;> intros)

theorem State.cutQueues_keeps {s0 t : State} (h : Keeps s0 t) : Keeps s0 (State.cutQueues t) := by
  unfold State.cutQueues
  iterate 40 all_goals try first
    | with_reducible assumption
    | (lift_lets -underBinder; intro y; with_reducible refine (fun (hy : Keeps s0 y) => ?_) ?_ <;> [clear_value y; subst y])
    | with_reducible apply State.queueDisable_keeps
    | (with_reducible apply Keeps.ite <;> intros)
    | fail_if_no_progress with_reducible refine Keeps.upd ?_ rfl
    | (with_reducible apply Keeps.foldl <;> intros)

theorem State.cutRadius_keeps {s0 t : State} (h : Keeps s0 t) : Keeps s0 (State.cutRadius t) := by
  unfold State.cutRadius
  iterate 40 all_goals try first
    | with_reducible assumption
    | (lift_lets -underBinder; intro y; with_reducible refine (fun (hy : Keeps s0 y) => ?_) ?_ <;> [clear_value y; subst y])
    | with_reducible apply State.drainDrop_keeps
    | with_reducible apply State.serviceOff_keeps
    | with_reducible apply State.withRadius_keeps
    | (with_reducible apply Keeps.foldl <;> intros)
    | split

theorem State.dropFrames_keeps {s0 t : State} (h : Keeps s0 t) : Keeps s0 (State.dropFrames t) := by
  unfold State.dropFrames
  iterate 40 all_goals try first
    | with_reducible assumption
    | (lift_lets -underBinder; intro y)
    | with_reducible apply State.withSector_keeps
    | with_reducible apply State.withTess_keeps

theorem State.dpEffects_keeps {s0 t : State} (h : Keeps s0 t) : Keeps s0 (State.dpEffects t) := by
  unfold State.dpEffects
  iterate 40 all_goals try first
    | with_reducible assumption
    | (lift_lets -underBinder; intro y; with_reducible refine (fun (hy : Keeps s0 y) => ?_) ?_ <;> [clear_value y; subst y])
    | with_reducible refine State.withApexMk_keeps ?_ rfl
    | with_reducible apply State.cutPorts_keeps
    | with_reducible apply State.foldAll_keeps
    | with_reducible apply State.idleCluster_keeps
    | with_reducible apply State.clearPrism_keeps
    | with_reducible apply State.dropFrames_keeps
    | with_reducible apply State.cutRadius_keeps
    | with_reducible apply State.cutQueues_keeps
    | fail_if_no_progress with_reducible refine Keeps.upd ?_ rfl
    | (with_reducible apply Keeps.foldl <;> intros)

theorem State.dpReset_keeps {s0 t : State} (h : Keeps s0 t) : Keeps s0 (State.dpReset t) := by
  unfold State.dpReset
  iterate 40 all_goals try first
    | with_reducible assumption
    | (lift_lets -underBinder; intro y; with_reducible refine (fun (hy : Keeps s0 y) => ?_) ?_ <;> [clear_value y; subst y])
    | with_reducible apply State.noteCause_keeps
    | with_reducible apply State.withCpr_keeps
    | (with_reducible apply Keeps.ite <;> intros)
    | fail_if_no_progress with_reducible refine Keeps.upd ?_ rfl

theorem State.cprReset_keeps {s0 t : State} (h : Keeps s0 t) (v : Nat) : Keeps s0 (State.cprReset t v) := by
  unfold State.cprReset
  iterate 40 all_goals try first
    | with_reducible assumption
    | (lift_lets -underBinder; intro y; with_reducible refine (fun (hy : Keeps s0 y) => ?_) ?_ <;> [clear_value y; subst y])
    | with_reducible apply State.dpReset_keeps
    | with_reducible apply State.warmReset_keeps
    | (with_reducible apply Keeps.ite <;> intros)

theorem execDatapathReset_keeps {s0 t : State} (h : Keeps s0 t) (value : Word32) : KeepsN s0 (execDatapathReset value t) := by
  unfold execDatapathReset
  iterate 40 all_goals try first
    | with_reducible assumption
    | with_reducible apply State.cprReset_keeps
    | (with_reducible apply KeepsN.ite <;> intros)
    | with_reducible refine KeepsN.next ?_

theorem execDatapathResetComplete_keeps {s0 t : State} (h : Keeps s0 t) : KeepsN s0 (execDatapathResetComplete t) := by
  unfold execDatapathResetComplete
  iterate 40 all_goals try first
    | with_reducible assumption
    | (lift_lets -underBinder; intro y; with_reducible refine (fun (hy : Keeps s0 y) => ?_) ?_ <;> [clear_value y; subst y])
    | with_reducible apply State.passTo_keeps
    | with_reducible apply State.dpEffects_keeps
    | with_reducible apply State.withCpr_keeps
    | with_reducible apply State.raise_keeps
    | with_reducible apply State.warmReset_keeps
    | (with_reducible apply Keeps.ite <;> intros)
    | with_reducible refine KeepsN.next ?_
    | fail_if_no_progress with_reducible refine Keeps.upd ?_ rfl
    | split

theorem State.portReset_keeps {s0 t : State} (h : Keeps s0 t) (v : Nat) : Keeps s0 (State.portReset t v) := by
  unfold State.portReset
  iterate 40 all_goals try first
    | with_reducible assumption
    | (lift_lets -underBinder; intro y)
    | with_reducible apply State.setReg_keeps
    | with_reducible apply State.raise_keeps
    | with_reducible apply State.setFacet_keeps
    | (with_reducible apply Keeps.ite <;> intros)

theorem execPortBlockReset_keeps {s0 t : State} (h : Keeps s0 t) (value : Word32) : KeepsN s0 (execPortBlockReset value t) := by
  unfold execPortBlockReset
  iterate 40 all_goals try first
    | with_reducible assumption
    | with_reducible apply State.portReset_keeps
    | (with_reducible apply KeepsN.ite <;> intros)
    | with_reducible refine KeepsN.next ?_

theorem execRailWarningEntry_keeps {s0 t : State} (h : Keeps s0 t) (rail : Rail) : KeepsN s0 (execRailWarningEntry rail t) := by
  unfold execRailWarningEntry
  iterate 40 all_goals try first
    | with_reducible assumption
    | (lift_lets -underBinder; intro y)
    | with_reducible apply State.pauseWrites_keeps
    | with_reducible apply State.withCpr_keeps
    | with_reducible apply State.draw_keeps
    | with_reducible apply State.raise_keeps
    | (with_reducible apply KeepsN.ite <;> intros)
    | with_reducible refine KeepsN.next ?_
    | split
    | with_reducible apply KeepsP.snd

theorem State.resumeHeld_keeps {s0 t : State} (h : Keeps s0 t) : Keeps s0 (State.resumeHeld t) := by
  unfold State.resumeHeld
  iterate 40 all_goals try first
    | with_reducible assumption
    | (lift_lets -underBinder; intro y; with_reducible refine (fun (hy : Keeps s0 y) => ?_) ?_ <;> [clear_value y; subst y])
    | (lift_lets -underBinder; intro y; have _ : y.otp.lcCells = y.otp.lcCells := rfl)
    | with_reducible refine State.withApexMk_keeps ?_ rfl
    | with_reducible apply lcBody_keeps
    | with_reducible apply secverBody_keeps
    | with_reducible apply blobCommitBody_keeps
    | with_reducible apply State.finish_keeps
    | split
    | intro _
    | with_reducible refine KeepsP.of_eq (by with_reducible assumption) ?_

theorem execRailWarningExit_keeps {s0 t : State} (h : Keeps s0 t) (rail : Rail) : KeepsN s0 (execRailWarningExit rail t) := by
  unfold execRailWarningExit
  iterate 40 all_goals try first
    | with_reducible assumption
    | (lift_lets -underBinder; intro y)
    | with_reducible apply State.raise_keeps
    | with_reducible apply State.withCpr_keeps
    | with_reducible apply State.bootApex_keeps
    | with_reducible apply State.resumeCkpt_keeps
    | with_reducible apply State.resumeHeld_keeps
    | with_reducible apply State.resumeIntent_keeps
    | (with_reducible apply Keeps.ite <;> intros)
    | with_reducible refine KeepsN.next ?_
    | split

theorem execOverVoltage_keeps {s0 t : State} (h : Keeps s0 t) (rail : Rail) : KeepsN s0 (execOverVoltage rail t) := by
  unfold execOverVoltage
  iterate 40 all_goals try first
    | with_reducible assumption
    | (lift_lets -underBinder; intro y)
    | with_reducible apply State.raise_keeps
    | with_reducible apply State.withCpr_keeps
    | (with_reducible apply KeepsN.ite <;> intros)
    | with_reducible refine KeepsN.next ?_

theorem State.tempSample_keeps {s0 t : State} (h : Keeps s0 t) (high : BitVec 10) (low : BitVec 10) : Keeps s0 (State.tempSample t high low) := by
  unfold State.tempSample
  iterate 40 all_goals try first
    | with_reducible assumption
    | (lift_lets -underBinder; intro y)
    | with_reducible apply State.withCpr_keeps
    | with_reducible apply State.raise_keeps
    | (with_reducible apply Keeps.ite <;> intros)

theorem execTemperatureSample_keeps {s0 t : State} (h : Keeps s0 t) (high : BitVec 10) (low : BitVec 10) : KeepsN s0 (execTemperatureSample high low t) := by
  unfold execTemperatureSample
  iterate 40 all_goals try first
    | with_reducible assumption
    | with_reducible apply State.tempSample_keeps
    | with_reducible apply State.passTo_keeps
    | (with_reducible apply KeepsN.ite <;> intros)
    | with_reducible refine KeepsN.next ?_

theorem execThermalTrip_keeps {s0 t : State} (h : Keeps s0 t) : KeepsN s0 (execThermalTrip t) := by
  unfold execThermalTrip
  iterate 40 all_goals try first
    | with_reducible assumption
    | (lift_lets -underBinder; intro y; with_reducible refine (fun (hy : Keeps s0 y) => ?_) ?_ <;> [clear_value y; subst y])
    | with_reducible apply State.warmEffects_keeps
    | with_reducible apply State.dpEffects_keeps
    | with_reducible apply State.withCpr_keeps
    | (with_reducible apply KeepsN.ite <;> intros)
    | with_reducible refine KeepsN.next ?_
    | fail_if_no_progress with_reducible refine Keeps.upd ?_ rfl

theorem execThermalTripRelease_keeps {s0 t : State} (h : Keeps s0 t) : KeepsN s0 (execThermalTripRelease t) := by
  unfold execThermalTripRelease
  iterate 40 all_goals try first
    | with_reducible assumption
    | (lift_lets -underBinder; intro y; with_reducible refine (fun (hy : Keeps s0 y) => ?_) ?_ <;> [clear_value y; subst y])
    | with_reducible apply State.passTo_keeps
    | with_reducible apply State.noteCause_keeps
    | with_reducible apply State.withCpr_keeps
    | with_reducible apply State.bootCompare_keeps
    | with_reducible apply State.raise_keeps
    | with_reducible refine KeepsN.next ?_
    | split

theorem execMemoryPllLoss_keeps {s0 t : State} (h : Keeps s0 t) (k : Fin 4) : KeepsN s0 (execMemoryPllLoss k t) := by
  unfold execMemoryPllLoss
  iterate 40 all_goals try first
    | with_reducible assumption
    | (lift_lets -underBinder; intro y)
    | with_reducible apply State.withCpr_keeps
    | with_reducible apply State.raise_keeps
    | (with_reducible apply KeepsN.ite <;> intros)
    | with_reducible refine KeepsN.next ?_
    | fail_if_no_progress with_reducible refine Keeps.upd ?_ rfl

theorem execGnomonPllLoss_keeps {s0 t : State} (h : Keeps s0 t) : KeepsN s0 (execGnomonPllLoss t) := by
  unfold execGnomonPllLoss
  iterate 40 all_goals try first
    | with_reducible assumption
    | (lift_lets -underBinder; intro y)
    | with_reducible apply State.raise_keeps
    | with_reducible apply State.setGnomonMode_keeps
    | with_reducible apply State.withGnomon_keeps
    | (with_reducible apply KeepsN.ite <;> intros)
    | with_reducible refine KeepsN.next ?_

theorem execGnomonPllRelock_keeps {s0 t : State} (h : Keeps s0 t) : KeepsN s0 (execGnomonPllRelock t) := by
  unfold execGnomonPllRelock
  iterate 40 all_goals try first
    | with_reducible assumption
    | (lift_lets -underBinder; intro y)
    | with_reducible apply State.raiseSet_keeps
    | with_reducible apply State.withGnomon_keeps
    | (with_reducible apply KeepsN.ite <;> intros)
    | with_reducible refine KeepsN.next ?_

theorem execTesseraPoolWrite_keeps {s0 t : State} (h : Keeps s0 t) (pool : Fin 4) (value : Word32) : KeepsN s0 (execTesseraPoolWrite pool value t) := by
  unfold execTesseraPoolWrite
  iterate 40 all_goals try first
    | with_reducible assumption
    | with_reducible apply State.writePool_keeps
    | (with_reducible apply KeepsN.ite <;> intros)
    | with_reducible refine KeepsN.next ?_

theorem execTesseraOwnerWrite_keeps {s0 t : State} (h : Keeps s0 t) (owner : BitVec 8) (isMin : Bool) (value : Word32) : KeepsN s0 (execTesseraOwnerWrite owner isMin value t) := by
  unfold execTesseraOwnerWrite
  iterate 40 all_goals try first
    | with_reducible assumption
    | with_reducible apply State.writeOwnerMin_keeps
    | with_reducible apply State.writeOwnerMax_keeps
    | (with_reducible apply Keeps.ite <;> intros)
    | (with_reducible apply KeepsN.ite <;> intros)
    | with_reducible refine KeepsN.next ?_

theorem execFreeListBuildEnd_keeps {s0 t : State} (h : Keeps s0 t) (pool : Fin 4) : KeepsN s0 (execFreeListBuildEnd pool t) := by
  unfold execFreeListBuildEnd
  iterate 40 all_goals try first
    | with_reducible assumption
    | (lift_lets -underBinder; intro y)
    | with_reducible apply State.withTess_keeps
    | with_reducible refine KeepsN.next ?_

theorem execFreeListRebuildEnd_keeps {s0 t : State} (h : Keeps s0 t) (pool : Fin 4) (bank : Fin 64) : KeepsN s0 (execFreeListRebuildEnd pool bank t) := by
  unfold execFreeListRebuildEnd
  iterate 40 all_goals try first
    | with_reducible assumption
    | (lift_lets -underBinder; intro y)
    | with_reducible apply State.raise_keeps
    | with_reducible apply State.withTess_keeps
    | (with_reducible apply Keeps.ite <;> intros)
    | with_reducible refine KeepsN.next ?_

theorem execQueueEnable_keeps {s0 t : State} (h : Keeps s0 t) (q : BitVec 8) (value : Word32) : KeepsN s0 (execQueueEnable q value t) := by
  unfold execQueueEnable
  iterate 40 all_goals try first
    | with_reducible assumption
    | with_reducible apply State.queueEnable_keeps
    | (with_reducible apply KeepsN.ite <;> intros)
    | with_reducible refine KeepsN.next ?_

theorem execQueueDisable_keeps {s0 t : State} (h : Keeps s0 t) (q : BitVec 8) (value : Word32) : KeepsN s0 (execQueueDisable q value t) := by
  unfold execQueueDisable
  iterate 40 all_goals try first
    | with_reducible assumption
    | with_reducible apply State.queueDisable_keeps
    | (with_reducible apply KeepsN.ite <;> intros)
    | with_reducible refine KeepsN.next ?_

theorem execQueueRelease_keeps {s0 t : State} (h : Keeps s0 t) (q : BitVec 8) (value : Word32) : KeepsN s0 (execQueueRelease q value t) := by
  unfold execQueueRelease
  iterate 40 all_goals try first
    | with_reducible assumption
    | with_reducible apply State.queueRelease_keeps
    | (with_reducible apply KeepsN.ite <;> intros)
    | with_reducible refine KeepsN.next ?_

theorem execBankSwap_keeps {s0 t : State} (h : Keeps s0 t) (q : BitVec 8) : KeepsN s0 (execBankSwap q t) := by
  unfold execBankSwap
  iterate 40 all_goals try first
    | with_reducible assumption
    | with_reducible apply State.bankSwap_keeps
    | with_reducible refine KeepsN.next ?_

theorem execEntryWriteComplete_keeps {s0 t : State} (h : Keeps s0 t) (q : BitVec 8) (poison : Bool) : KeepsN s0 (execEntryWriteComplete q poison t) := by
  unfold execEntryWriteComplete
  iterate 40 all_goals try first
    | with_reducible assumption
    | with_reducible apply State.entryWrite_keeps
    | with_reducible refine KeepsN.next ?_

theorem execPuntCopy_keeps {s0 t : State} (h : Keeps s0 t) (ecc : Ecc) : KeepsN s0 (execPuntCopy ecc t) := by
  unfold execPuntCopy
  iterate 40 all_goals try first
    | with_reducible assumption
    | with_reducible apply State.puntCopy_keeps
    | with_reducible refine KeepsN.next ?_

theorem execDescriptorComplete_keeps {s0 t : State} (h : Keeps s0 t) (t1 : Tid) (idx : Fin 8) : KeepsN s0 (execDescriptorComplete t1 idx t) := by
  unfold execDescriptorComplete
  iterate 40 all_goals try first
    | with_reducible assumption
    | (lift_lets -underBinder; intro y; with_reducible refine (fun (hy : Keeps s0 y) => ?_) ?_ <;> [clear_value y; subst y])
    | (lift_lets -underBinder; intro y)
    | with_reducible apply State.endRoot_keeps
    | with_reducible apply State.wake_keeps
    | with_reducible apply State.modThread_keeps
    | (with_reducible apply Keeps.ite <;> intros)
    | (with_reducible apply KeepsN.ite <;> intros)
    | with_reducible refine KeepsN.next ?_
    | split

theorem execRegisterResultArrival_keeps {s0 t : State} (h : Keeps s0 t) (t1 : Tid) : KeepsN s0 (execRegisterResultArrival t1 t) := by
  unfold execRegisterResultArrival
  iterate 40 all_goals try first
    | with_reducible assumption
    | with_reducible apply State.wake_keeps
    | with_reducible apply State.modThread_keeps
    | with_reducible refine KeepsN.next ?_

theorem State.freeReg_keeps {s0 t : State} (h : Keeps s0 t) (c : Nat) (k : Nat) (r : VReg) : Keeps s0 (State.freeReg t c k r) := by
  unfold State.freeReg
  iterate 40 all_goals try first
    | with_reducible assumption
    | with_reducible apply State.draw_keeps
    | with_reducible apply State.modThread_keeps
    | split
    | with_reducible apply KeepsP.snd

theorem execHbmLoadReturn_keeps {s0 t : State} (h : Keeps s0 t) (t1 : Tid) (ecc : Ecc) : KeepsN s0 (execHbmLoadReturn t1 ecc t) := by
  unfold execHbmLoadReturn
  iterate 40 all_goals try first
    | with_reducible assumption
    | (lift_lets -underBinder; intro y; with_reducible refine (fun (hy : Keeps s0 y) => ?_) ?_ <;> [clear_value y; subst y])
    | (lift_lets -underBinder; intro y)
    | with_reducible apply State.eccSeen_keeps
    | with_reducible apply State.modThread_keeps
    | with_reducible apply State.freeReg_keeps
    | with_reducible apply State.wake_keeps
    | with_reducible refine KeepsN.next ?_
    | (with_reducible apply Keeps.foldl <;> intros)
    | split
    | intro _

theorem State.failLine_keeps {s0 t : State} (h : Keeps s0 t) (k : Nat) (line : Nat) (c : VerifyCause) (node : Option (Nat × Nat)) : Keeps s0 (State.failLine t k line c node) := by
  unfold State.failLine
  iterate 40 all_goals try first
    | with_reducible assumption
    | (lift_lets -underBinder; intro y)
    | with_reducible apply State.taintNode_keeps
    | fail_if_no_progress with_reducible refine Keeps.upd ?_ rfl
    | split

theorem State.verdict_keeps {s0 t : State} (h : Keeps s0 t) (a : Nat) (res : VerifyResult) : KeepsP s0 (State.verdict t a res) := by
  unfold State.verdict
  iterate 40 all_goals try first
    | with_reducible assumption
    | with_reducible apply State.failLine_keeps
    | split
    | fail_if_no_progress with_reducible refine KeepsP.mk ?_

theorem execVerificationResult_keeps {s0 t : State} (h : Keeps s0 t) (r : Reader) (res : VerifyResult) : KeepsN s0 (execVerificationResult r res t) := by
  unfold execVerificationResult
  iterate 40 all_goals try first
    | with_reducible assumption
    | (lift_lets -underBinder; intro y; with_reducible refine (fun (hy : Keeps s0 y) => ?_) ?_ <;> [clear_value y; subst y])
    | (lift_lets -underBinder; intro y)
    | with_reducible apply State.modThread_keeps
    | with_reducible apply State.verdict_keeps
    | with_reducible apply State.wake_keeps
    | with_reducible apply State.verifyFail_keeps
    | with_reducible apply State.draw_keeps
    | (with_reducible apply KeepsN.ite <;> intros)
    | with_reducible refine KeepsN.next ?_
    | fail_if_no_progress with_reducible refine Keeps.upd ?_ rfl
    | split
    | intro _
    | with_reducible apply KeepsP.snd
    | with_reducible refine KeepsP.of_eq (by with_reducible assumption) ?_

theorem execThreadWatchdogExpiry_keeps {s0 t : State} (h : Keeps s0 t) (t1 : Tid) : KeepsN s0 (execThreadWatchdogExpiry t1 t) := by
  unfold execThreadWatchdogExpiry
  iterate 40 all_goals try first
    | with_reducible assumption
    | (lift_lets -underBinder; intro y)
    | with_reducible apply State.faultThread_keeps
    | with_reducible apply State.passTo_keeps
    | (with_reducible apply KeepsN.ite <;> intros)
    | with_reducible refine KeepsN.next ?_

theorem execDebugHalt_keeps {s0 t : State} (h : Keeps s0 t) (t1 : Tid) : KeepsN s0 (execDebugHalt t1 t) := by
  unfold execDebugHalt
  iterate 40 all_goals try first
    | with_reducible assumption
    | (lift_lets -underBinder; intro y)
    | with_reducible apply State.modThread_keeps
    | (with_reducible apply KeepsN.ite <;> intros)
    | with_reducible refine KeepsN.next ?_

theorem execDebugResume_keeps {s0 t : State} (h : Keeps s0 t) (t1 : Tid) : KeepsN s0 (execDebugResume t1 t) := by
  unfold execDebugResume
  iterate 40 all_goals try first
    | with_reducible assumption
    | (lift_lets -underBinder; intro y)
    | with_reducible apply State.wake_keeps
    | with_reducible apply State.modThread_keeps
    | (with_reducible apply KeepsN.ite <;> intros)
    | with_reducible refine KeepsN.next ?_

theorem State.stepsOn_keeps {s0 t : State} (h : Keeps s0 t) (c : Nat) (k : Nat) (a : Nat) (a3 : Nat) (a4 : List Nat) : KeepsP s0 (State.stepsOn c k a a3 a4 t) := by
  induction a generalizing t a3 a4 with
  | zero =>
    unfold State.stepsOn
    iterate 40 all_goals try first
      | with_reducible assumption
      | fail_if_no_progress with_reducible refine KeepsP.mk ?_
  | succ n ih =>
    unfold State.stepsOn
    iterate 40 all_goals try first
      | with_reducible apply ih
      | with_reducible assumption
      | (lift_lets -underBinder; intro y)
      | with_reducible apply State.draw_keeps
      | (with_reducible apply KeepsP.ite <;> intros)
      | split
      | fail_if_no_progress with_reducible refine KeepsP.mk ?_
      | with_reducible apply KeepsP.snd

theorem State.samplePc_keeps {s0 t : State} (h : Keeps s0 t) (c : Nat) (k : Nat) : KeepsP s0 (State.samplePc t c k) := by
  unfold State.samplePc
  iterate 40 all_goals try first
    | with_reducible assumption
    | (lift_lets -underBinder; intro y)
    | with_reducible apply State.draw_keeps
    | with_reducible apply State.stepsOn_keeps
    | with_reducible apply KeepsP.snd

theorem State.sample_keeps {s0 t : State} (h : Keeps s0 t) (c : Nat) (e : Nat) : KeepsP s0 (State.sample t c e) := by
  unfold State.sample
  iterate 40 all_goals try first
    | with_reducible assumption
    | (lift_lets -underBinder; intro y)
    | with_reducible apply State.samplePc_keeps
    | split
    | fail_if_no_progress with_reducible refine KeepsP.mk ?_
    | with_reducible refine KeepsP.of_eq (by with_reducible assumption) ?_

theorem State.putSample_keeps {s0 t : State} (h : Keeps s0 t) (c : Nat) (bs : List Byte) : Keeps s0 (State.putSample t c bs) := by
  unfold State.putSample
  iterate 40 all_goals try first
    | with_reducible assumption
    | (lift_lets -underBinder; intro y)
    | with_reducible apply State.annPut_keeps
    | with_reducible apply State.setCluster_keeps
    | with_reducible apply State.raiseOnce_keeps
    | (with_reducible apply Keeps.ite <;> intros)

theorem execPcSample_keeps {s0 t : State} (h : Keeps s0 t) (c : Fin 17) : KeepsN s0 (execPcSample c t) := by
  unfold execPcSample
  iterate 40 all_goals try first
    | with_reducible assumption
    | (lift_lets -underBinder; intro y)
    | with_reducible apply State.passTo_keeps
    | with_reducible apply State.setCluster_keeps
    | with_reducible apply State.sample_keeps
    | with_reducible apply State.putSample_keeps
    | (with_reducible apply KeepsN.ite <;> intros)
    | with_reducible refine KeepsN.next ?_
    | (with_reducible apply Keeps.foldl <;> intros)
    | with_reducible apply KeepsP.snd

theorem State.engineReset_keeps {s0 t : State} (h : Keeps s0 t) (c : Nat) (v : Nat) : Keeps s0 (State.engineReset t c v) := by
  unfold State.engineReset
  iterate 40 all_goals try first
    | with_reducible assumption
    | (lift_lets -underBinder; intro y)
    | with_reducible apply State.setReg_keeps
    | with_reducible apply State.faultThread_keeps
    | with_reducible apply State.modThread_keeps
    | with_reducible apply State.setCluster_keeps
    | with_reducible apply State.raise_keeps
    | (with_reducible apply Keeps.ite <;> intros)
    | (with_reducible apply Keeps.foldl <;> intros)

theorem execEngineReset_keeps {s0 t : State} (h : Keeps s0 t) (c : Fin 17) (value : Word32) (src : Source) : KeepsN s0 (execEngineReset c value src t) := by
  unfold execEngineReset
  iterate 40 all_goals try first
    | with_reducible assumption
    | with_reducible apply State.engineReset_keeps
    | (with_reducible apply KeepsN.ite <;> intros)
    | with_reducible refine KeepsN.next ?_

theorem State.reclaimLocks_keeps {s0 t : State} (h : Keeps s0 t) (owner : Nat) : KeepsP s0 (State.reclaimLocks t owner) := by
  unfold State.reclaimLocks
  iterate 40 all_goals try first
    | with_reducible assumption
    | (lift_lets -underBinder; intro y)
    | with_reducible apply State.withRadius_keeps
    | fail_if_no_progress with_reducible refine Keeps.upd ?_ rfl
    | fail_if_no_progress with_reducible refine KeepsP.mk ?_

theorem reclaimBody_keeps {s0 t : State} (h : Keeps s0 t) (d : Desc) : Keeps s0 (reclaimBody d t) := by
  unfold reclaimBody
  iterate 40 all_goals try first
    | with_reducible assumption
    | (lift_lets -underBinder; intro y)
    | with_reducible apply State.done_keeps
    | with_reducible apply State.faultThread_keeps
    | with_reducible apply State.reclaimLocks_keeps
    | with_reducible apply State.idle_keeps
    | with_reducible apply State.wake_keeps
    | with_reducible apply State.raise_keeps
    | with_reducible apply State.complete_keeps
    | (with_reducible apply Keeps.ite <;> intros)
    | (with_reducible apply Keeps.foldl <;> intros)
    | (with_reducible apply KeepsP.foldl <;> intros)
    | split
    | fail_if_no_progress with_reducible refine KeepsP.mk ?_
    | with_reducible apply KeepsP.snd
    | with_reducible refine KeepsP.of_eq (by with_reducible assumption) ?_

theorem execReclaim_keeps {s0 t : State} (h : Keeps s0 t) (d : Desc) : KeepsN s0 (execReclaim d t) := by
  unfold execReclaim
  iterate 40 all_goals try first
    | with_reducible assumption
    | (with_reducible apply ringCommand_keeps <;> intros)
    | with_reducible apply reclaimBody_keeps
    | (with_reducible apply Keeps.ite <;> intros)
    | with_reducible refine KeepsN.next ?_

theorem reclaimTesseraBody_keeps {s0 t : State} (h : Keeps s0 t) (d : Desc) : Keeps s0 (reclaimTesseraBody d t) := by
  unfold reclaimTesseraBody
  iterate 40 all_goals try first
    | with_reducible assumption
    | (lift_lets -underBinder; intro y)
    | with_reducible apply State.done_keeps
    | with_reducible apply State.reclaimCells_keeps
    | with_reducible apply State.releaseLocks_keeps
    | with_reducible apply State.complete_keeps
    | with_reducible apply State.raise_keeps
    | (with_reducible apply Keeps.ite <;> intros)
    | with_reducible apply KeepsP.snd

theorem execReclaimTesseraOwner_keeps {s0 t : State} (h : Keeps s0 t) (d : Desc) : KeepsN s0 (execReclaimTesseraOwner d t) := by
  unfold execReclaimTesseraOwner
  iterate 40 all_goals try first
    | with_reducible assumption
    | (with_reducible apply ringCommand_keeps <;> intros)
    | with_reducible apply reclaimTesseraBody_keeps
    | (with_reducible apply Keeps.ite <;> intros)
    | with_reducible refine KeepsN.next ?_

theorem State.loadImage_keeps {s0 t : State} (h : Keeps s0 t) (c : Nat) (h1 : Bool) (im : Image) : Keeps s0 (State.loadImage t c h1 im) := by
  unfold State.loadImage
  iterate 40 all_goals try first
    | with_reducible assumption
    | (lift_lets -underBinder; intro y)
    | with_reducible apply State.setCluster_keeps

theorem ucodeLoadBody_keeps {s0 t : State} (h : Keeps s0 t) (d : Desc) : Keeps s0 (ucodeLoadBody d t) := by
  unfold ucodeLoadBody
  iterate 40 all_goals try first
    | with_reducible assumption
    | (lift_lets -underBinder; intro y)
    | with_reducible apply State.done_keeps
    | (with_reducible apply State.withBuf_keeps <;> intros)
    | with_reducible apply State.loadImage_keeps
    | with_reducible apply State.measExtend_keeps
    | with_reducible apply State.complete_keeps
    | with_reducible apply State.raise_keeps
    | (with_reducible apply Keeps.ite <;> intros)
    | (with_reducible apply Keeps.foldl <;> intros)
    | split

theorem execUcodeLoad_keeps {s0 t : State} (h : Keeps s0 t) (d : Desc) : KeepsN s0 (execUcodeLoad d t) := by
  unfold execUcodeLoad
  iterate 40 all_goals try first
    | with_reducible assumption
    | (with_reducible apply ringCommand_keeps <;> intros)
    | with_reducible apply ucodeLoadBody_keeps
    | with_reducible refine KeepsN.next ?_

theorem State.writeScratch_keeps {s0 t : State} (h : Keeps s0 t) (c : Nat) : Keeps s0 (State.writeScratch t c) := by
  unfold State.writeScratch
  iterate 40 all_goals try first
    | with_reducible assumption
    | (lift_lets -underBinder; intro y)
    | with_reducible apply State.setCluster_keeps
    | split

theorem State.activate_keeps {s0 t : State} (h : Keeps s0 t) (c : Nat) : KeepsP s0 (State.activate t c) := by
  unfold State.activate
  iterate 40 all_goals try first
    | with_reducible assumption
    | (lift_lets -underBinder; intro y)
    | with_reducible apply State.setCluster_keeps
    | with_reducible apply State.writeScratch_keeps
    | (with_reducible apply KeepsP.ite <;> intros)
    | split
    | fail_if_no_progress with_reducible refine KeepsP.mk ?_

theorem ucodeActivateBody_keeps {s0 t : State} (h : Keeps s0 t) (d : Desc) : Keeps s0 (ucodeActivateBody d t) := by
  unfold ucodeActivateBody
  iterate 40 all_goals try first
    | with_reducible assumption
    | (lift_lets -underBinder; intro y)
    | with_reducible apply State.done_keeps
    | with_reducible apply State.activate_keeps
    | (with_reducible apply Keeps.ite <;> intros)
    | fail_if_no_progress with_reducible refine Keeps.upd ?_ rfl
    | (with_reducible apply KeepsP.foldl <;> intros)
    | split
    | fail_if_no_progress with_reducible refine KeepsP.mk ?_
    | with_reducible apply KeepsP.snd
    | with_reducible refine KeepsP.of_eq (by with_reducible assumption) ?_

theorem execUcodeActivate_keeps {s0 t : State} (h : Keeps s0 t) (d : Desc) : KeepsN s0 (execUcodeActivate d t) := by
  unfold execUcodeActivate
  iterate 40 all_goals try first
    | with_reducible assumption
    | (with_reducible apply ringCommand_keeps <;> intros)
    | with_reducible apply ucodeActivateBody_keeps
    | with_reducible refine KeepsN.next ?_

theorem State.activateDone_keeps {s0 t : State} (h : Keeps s0 t) (c : Nat) (h1 : Bool) : Keeps s0 (State.activateDone t c h1) := by
  unfold State.activateDone
  iterate 40 all_goals try first
    | with_reducible assumption
    | (lift_lets -underBinder; intro y)
    | with_reducible apply State.done_keeps
    | fail_if_no_progress with_reducible refine Keeps.upd ?_ rfl
    | (with_reducible apply Keeps.foldl <;> intros)

theorem execActivateDrainEnd_keeps {s0 t : State} (h : Keeps s0 t) (c : Fin 17) : KeepsN s0 (execActivateDrainEnd c t) := by
  unfold execActivateDrainEnd
  iterate 40 all_goals try first
    | with_reducible assumption
    | (lift_lets -underBinder; intro y; with_reducible refine (fun (hy : Keeps s0 y) => ?_) ?_ <;> [clear_value y; subst y])
    | (lift_lets -underBinder; intro y)
    | with_reducible apply State.writeScratch_keeps
    | with_reducible apply State.activateDone_keeps
    | (with_reducible apply Keeps.ite <;> intros)
    | with_reducible refine KeepsN.next ?_
    | (with_reducible apply Keeps.foldl <;> intros)

theorem execActivateTimeout_keeps {s0 t : State} (h : Keeps s0 t) : KeepsN s0 (execActivateTimeout t) := by
  unfold execActivateTimeout
  iterate 40 all_goals try first
    | with_reducible assumption
    | (lift_lets -underBinder; intro y)
    | with_reducible apply State.passTo_keeps
    | with_reducible apply State.complete_keeps
    | with_reducible refine KeepsN.next ?_
    | fail_if_no_progress with_reducible refine Keeps.upd ?_ rfl
    | split

theorem State.rwWrite_keeps {s0 t : State} (h : Keeps s0 t) (off : Nat) (mask : Nat) (v : Nat) : Keeps s0 (State.rwWrite t off mask v) := by
  unfold State.rwWrite
  iterate 40 all_goals try first
    | with_reducible assumption
    | with_reducible apply State.setReg_keeps

theorem State.w1cWrite_keeps {s0 t : State} (h : Keeps s0 t) (off : Nat) (mask : Nat) (v : Nat) : Keeps s0 (State.w1cWrite t off mask v) := by
  unfold State.w1cWrite
  iterate 40 all_goals try first
    | with_reducible assumption
    | with_reducible apply State.setReg_keeps

theorem State.mbxCtrl_keeps {s0 t : State} (h : Keeps s0 t) (m : Mbx) (v : Nat) : Keeps s0 (State.mbxCtrl t m v) := by
  unfold State.mbxCtrl
  iterate 40 all_goals try first
    | with_reducible assumption
    | (lift_lets -underBinder; intro y)
    | with_reducible apply State.setMbx_keeps
    | with_reducible apply State.mbxUnknown_keeps
    | (with_reducible apply Keeps.ite <;> intros)

theorem State.apexWrite_keeps {s0 t : State} (h : Keeps s0 t) (m : Mbx) (off : Nat) (v : Nat) : KeepsO s0 (State.apexWrite t m off v) := by
  unfold State.apexWrite
  iterate 40 all_goals try first
    | with_reducible assumption
    | with_reducible apply State.mbxCtrl_keeps
    | with_reducible apply State.setMbx_keeps
    | (with_reducible apply KeepsO.ite <;> intros)
    | with_reducible refine KeepsO.none
    | with_reducible refine KeepsO.some ?_

theorem State.cprWrite_keeps {s0 t : State} (h : Keeps s0 t) (off : Nat) (v : Nat) : KeepsO s0 (State.cprWrite t off v) := by
  unfold State.cprWrite
  iterate 40 all_goals try first
    | with_reducible assumption
    | (lift_lets -underBinder; intro y)
    | with_reducible apply State.withCpr_keeps
    | with_reducible apply State.cprReset_keeps
    | with_reducible apply State.portReset_keeps
    | (with_reducible apply Keeps.ite <;> intros)
    | with_reducible refine KeepsO.none
    | with_reducible refine KeepsO.some ?_
    | split

theorem State.ringWrite_keeps {s0 t : State} (h : Keeps s0 t) (k : RingKind) (i : Nat) (r : Nat) (v : Nat) : KeepsO s0 (State.ringWrite t k i r v) := by
  unfold State.ringWrite
  iterate 40 all_goals try first
    | with_reducible assumption
    | with_reducible apply State.rwWrite_keeps
    | with_reducible apply State.ringEnable_keeps
    | with_reducible apply State.ringDisable_keeps
    | with_reducible apply State.ringCi_keeps
    | (with_reducible apply Keeps.ite <;> intros)
    | with_reducible refine KeepsO.none
    | with_reducible refine KeepsO.some ?_
    | split

theorem State.mgmtDown_keeps {s0 t : State} (h : Keeps s0 t) (k : Nat) : Keeps s0 (State.mgmtDown t k) := by
  unfold State.mgmtDown
  iterate 40 all_goals try first
    | with_reducible assumption
    | (lift_lets -underBinder; intro y)
    | with_reducible apply State.raise_keeps
    | (with_reducible apply Keeps.ite <;> intros)
    | fail_if_no_progress with_reducible refine Keeps.upd ?_ rfl

theorem State.mgmtCfgWrite_keeps {s0 t : State} (h : Keeps s0 t) (k : Nat) (v : Nat) : Keeps s0 (State.mgmtCfgWrite t k v) := by
  unfold State.mgmtCfgWrite
  iterate 40 all_goals try first
    | with_reducible assumption
    | (lift_lets -underBinder; intro y; with_reducible refine (fun (hy : Keeps s0 y) => ?_) ?_ <;> [clear_value y; subst y])
    | with_reducible apply State.rwWrite_keeps
    | with_reducible apply State.mgmtDown_keeps
    | with_reducible apply State.mgmtSendGo_keeps
    | (with_reducible apply Keeps.ite <;> intros)

theorem State.ringsWrite_keeps {s0 t : State} (h : Keeps s0 t) (off : Nat) (v : Nat) : KeepsO s0 (State.ringsWrite t off v) := by
  unfold State.ringsWrite
  iterate 40 all_goals try first
    | with_reducible assumption
    | (lift_lets -underBinder; intro y)
    | with_reducible apply State.doorbell_keeps
    | with_reducible apply State.mgmtDoorbell_keeps
    | with_reducible apply State.ringWrite_keeps
    | with_reducible apply State.mgmtCfgWrite_keeps
    | with_reducible apply State.rwWrite_keeps
    | (with_reducible apply KeepsO.ite <;> intros)
    | with_reducible refine KeepsO.none
    | with_reducible refine KeepsO.some ?_
    | split

theorem State.bufferWrite_keeps {s0 t : State} (h : Keeps s0 t) (off : Nat) (v : Nat) : KeepsO s0 (State.bufferWrite t off v) := by
  unfold State.bufferWrite
  iterate 40 all_goals try first
    | with_reducible assumption
    | (lift_lets -underBinder; intro y)
    | with_reducible apply State.w1cWrite_keeps
    | with_reducible apply State.queueEnable_keeps
    | with_reducible apply State.queueDisable_keeps
    | with_reducible apply State.rwWrite_keeps
    | with_reducible apply State.queueRelease_keeps
    | with_reducible apply State.writePool_keeps
    | with_reducible apply State.writeOwnerMin_keeps
    | with_reducible apply State.writeOwnerMax_keeps
    | (with_reducible apply Keeps.ite <;> intros)
    | (with_reducible apply KeepsO.ite <;> intros)
    | with_reducible refine KeepsO.none
    | with_reducible refine KeepsO.some ?_
    | split

theorem State.locusWrite_keeps {s0 t : State} (h : Keeps s0 t) (off : Nat) (v : Nat) : KeepsO s0 (State.locusWrite t off v) := by
  unfold State.locusWrite
  iterate 40 all_goals try first
    | with_reducible assumption
    | with_reducible apply State.emCfg_keeps
    | with_reducible apply State.rwWrite_keeps
    | with_reducible apply State.w1cWrite_keeps
    | (with_reducible apply KeepsO.ite <;> intros)
    | with_reducible refine KeepsO.none
    | with_reducible refine KeepsO.some ?_

theorem State.sectorWrite_keeps {s0 t : State} (h : Keeps s0 t) (off : Nat) (v : Nat) : KeepsO s0 (State.sectorWrite t off v) := by
  unfold State.sectorWrite
  iterate 40 all_goals try first
    | with_reducible assumption
    | with_reducible apply State.indCtrl_keeps
    | with_reducible apply State.rwWrite_keeps
    | (with_reducible apply KeepsO.ite <;> intros)
    | with_reducible refine KeepsO.none
    | with_reducible refine KeepsO.some ?_

theorem State.ppsCfg_keeps {s0 t : State} (h : Keeps s0 t) (v : Nat) : Keeps s0 (State.ppsCfg t v) := by
  unfold State.ppsCfg
  iterate 40 all_goals try first
    | with_reducible assumption
    | (lift_lets -underBinder; intro y)
    | with_reducible apply State.rwWrite_keeps
    | with_reducible apply State.withGnomon_keeps
    | (with_reducible apply Keeps.ite <;> intros)

theorem State.todCfg_keeps {s0 t : State} (h : Keeps s0 t) (v : Nat) : Keeps s0 (State.todCfg t v) := by
  unfold State.todCfg
  iterate 40 all_goals try first
    | with_reducible assumption
    | (lift_lets -underBinder; intro y)
    | with_reducible apply State.withGnomon_keeps
    | with_reducible apply State.rwWrite_keeps
    | (with_reducible apply Keeps.ite <;> intros)

theorem State.gnomonWrite_keeps {s0 t : State} (h : Keeps s0 t) (off : Nat) (v : Nat) : KeepsO s0 (State.gnomonWrite t off v) := by
  unfold State.gnomonWrite
  iterate 40 all_goals try first
    | with_reducible assumption
    | (lift_lets -underBinder; intro y)
    | with_reducible apply State.rwWrite_keeps
    | with_reducible apply State.gnomonCtrl_keeps
    | with_reducible apply State.rateWrite_keeps
    | with_reducible apply State.withGnomon_keeps
    | with_reducible apply State.ppsCfg_keeps
    | with_reducible apply State.todCfg_keeps
    | with_reducible apply State.rclk_keeps
    | (with_reducible apply Keeps.ite <;> intros)
    | (with_reducible apply KeepsO.ite <;> intros)
    | with_reducible refine KeepsO.none
    | with_reducible refine KeepsO.some ?_
    | split

theorem State.axisWrite_keeps {s0 t : State} (h : Keeps s0 t) (off : Nat) (v : Nat) : KeepsO s0 (State.axisWrite t off v) := by
  unfold State.axisWrite
  iterate 40 all_goals try first
    | with_reducible assumption
    | (lift_lets -underBinder; intro y)
    | with_reducible apply State.rwWrite_keeps
    | (with_reducible apply Keeps.ite <;> intros)
    | with_reducible refine KeepsO.none
    | with_reducible refine KeepsO.some ?_
    | fail_if_no_progress with_reducible refine Keeps.upd ?_ rfl
    | split

theorem State.vertexWrite_keeps {s0 t : State} (h : Keeps s0 t) (c : Nat) (r : Nat) (v : Nat) : KeepsO s0 (State.vertexWrite t c r v) := by
  unfold State.vertexWrite
  iterate 40 all_goals try first
    | with_reducible assumption
    | (lift_lets -underBinder; intro y)
    | with_reducible apply State.rwWrite_keeps
    | with_reducible apply State.engineReset_keeps
    | with_reducible apply State.setCluster_keeps
    | (with_reducible apply Keeps.ite <;> intros)
    | with_reducible refine KeepsO.none
    | with_reducible refine KeepsO.some ?_
    | split

theorem State.prismWrite_keeps {s0 t : State} (h : Keeps s0 t) (off : Nat) (v : Nat) : KeepsO s0 (State.prismWrite t off v) := by
  unfold State.prismWrite
  iterate 40 all_goals try first
    | with_reducible assumption
    | with_reducible apply State.rwWrite_keeps
    | with_reducible apply State.w1cWrite_keeps
    | with_reducible apply State.vertexWrite_keeps
    | (with_reducible apply KeepsO.ite <;> intros)
    | with_reducible refine KeepsO.none
    | with_reducible refine KeepsO.some ?_
    | split

theorem State.laneWrite_keeps {s0 t : State} (h : Keeps s0 t) (k : Nat) (r : Nat) (v : Nat) : KeepsO s0 (State.laneWrite t k r v) := by
  unfold State.laneWrite
  iterate 40 all_goals try first
    | with_reducible assumption
    | (lift_lets -underBinder; intro y)
    | with_reducible apply State.laneCfg_keeps
    | with_reducible apply State.laneTxeq_keeps
    | with_reducible apply State.setLane_keeps
    | with_reducible apply State.lanePrbs_keeps
    | with_reducible apply State.laneEye_keeps
    | with_reducible refine KeepsO.none
    | with_reducible refine KeepsO.some ?_
    | split

theorem State.lineWrite_keeps {s0 t : State} (h : Keeps s0 t) (n : Nat) (r : Nat) (v : Nat) : KeepsO s0 (State.lineWrite t n r v) := by
  unfold State.lineWrite
  iterate 40 all_goals try first
    | with_reducible assumption
    | (lift_lets -underBinder; intro y)
    | with_reducible apply State.rwWrite_keeps
    | with_reducible apply State.setFacet_keeps
    | (with_reducible apply KeepsO.ite <;> intros)
    | with_reducible refine KeepsO.none
    | with_reducible refine KeepsO.some ?_

theorem State.portsWrite_keeps {s0 t : State} (h : Keeps s0 t) (off : Nat) (v : Nat) : KeepsO s0 (State.portsWrite t off v) := by
  unfold State.portsWrite
  iterate 40 all_goals try first
    | with_reducible assumption
    | (lift_lets -underBinder; intro y)
    | with_reducible apply State.laneWrite_keeps
    | with_reducible apply State.lineWrite_keeps
    | (with_reducible apply KeepsO.ite <;> intros)
    | with_reducible refine KeepsO.none

theorem State.snapCfg_keeps {s0 t : State} (h : Keeps s0 t) (v : Nat) : Keeps s0 (State.snapCfg t v) := by
  unfold State.snapCfg
  iterate 40 all_goals try first
    | with_reducible assumption
    | (lift_lets -underBinder; intro y; with_reducible refine (fun (hy : Keeps s0 y) => ?_) ?_ <;> [clear_value y; subst y])
    | with_reducible apply State.rwWrite_keeps
    | with_reducible apply State.setFrozen_keeps

theorem State.progWrite_keeps {s0 t : State} (h : Keeps s0 t) (k : Nat) (hi : Bool) (v : Nat) : Keeps s0 (State.progWrite t k hi v) := by
  unfold State.progWrite
  iterate 40 all_goals try first
    | with_reducible assumption
    | (lift_lets -underBinder; intro y)
    | with_reducible apply State.withTele_keeps

theorem State.teleWrite_keeps {s0 t : State} (h : Keeps s0 t) (off : Nat) (v : Nat) : KeepsO s0 (State.teleWrite t off v) := by
  unfold State.teleWrite
  iterate 40 all_goals try first
    | with_reducible assumption
    | (lift_lets -underBinder; intro y; clear_value y)
    | with_reducible apply State.withTele_keeps
    | with_reducible apply State.rwWrite_keeps
    | with_reducible apply State.progWrite_keeps
    | with_reducible apply State.counterAsk_keeps
    | with_reducible apply State.snapCfg_keeps
    | (with_reducible apply Keeps.ite <;> intros)
    | (with_reducible apply KeepsO.ite <;> intros)
    | with_reducible refine KeepsO.none
    | with_reducible refine KeepsO.some ?_
    | split

theorem State.periphWrite_keeps {s0 t : State} (h : Keeps s0 t) (off : Nat) (v : Nat) : KeepsO s0 (State.periphWrite t off v) := by
  unfold State.periphWrite
  iterate 40 all_goals try first
    | with_reducible assumption
    | (lift_lets -underBinder; intro y)
    | with_reducible apply State.uartPush_keeps
    | with_reducible apply State.setUart_keeps
    | with_reducible apply State.rwWrite_keeps
    | with_reducible apply State.i2cCommand_keeps
    | with_reducible apply State.setI2c_keeps
    | (with_reducible apply Keeps.ite <;> intros)
    | (with_reducible apply KeepsO.ite <;> intros)
    | with_reducible refine KeepsO.none
    | with_reducible refine KeepsO.some ?_
    | split

theorem State.windowWrite_keeps {s0 t : State} (h : Keeps s0 t) (off : Nat) (v : Nat) : KeepsO s0 (State.windowWrite t off v) := by
  unfold State.windowWrite
  iterate 40 all_goals try first
    | with_reducible assumption
    | with_reducible apply State.cprWrite_keeps
    | with_reducible apply State.ringsWrite_keeps
    | with_reducible apply State.bufferWrite_keeps
    | with_reducible apply State.locusWrite_keeps
    | with_reducible apply State.sectorWrite_keeps
    | with_reducible apply State.gnomonWrite_keeps
    | with_reducible apply State.axisWrite_keeps
    | with_reducible apply State.prismWrite_keeps
    | with_reducible apply State.portsWrite_keeps
    | with_reducible apply State.teleWrite_keeps
    | (with_reducible apply KeepsO.ite <;> intros)
    | with_reducible refine KeepsO.none

theorem State.registerWrite_keeps {s0 t : State} (h : Keeps s0 t) (off : Nat) (v : Nat) (src : Source) : KeepsO s0 (State.registerWrite t off v src) := by
  unfold State.registerWrite
  iterate 40 all_goals try first
    | with_reducible assumption
    | with_reducible apply State.apexWrite_keeps
    | with_reducible apply State.windowWrite_keeps
    | with_reducible apply State.periphWrite_keeps
    | (with_reducible apply KeepsO.ite <;> intros)
    | with_reducible refine KeepsO.none

theorem execRegisterWrite_keeps {s0 t : State} (h : Keeps s0 t) (off : Word32) (value : Word32) (src : Source) : KeepsN s0 (execRegisterWrite off value src t) := by
  unfold execRegisterWrite
  iterate 40 all_goals try first
    | with_reducible assumption
    | with_reducible apply State.registerWrite_keeps
    | with_reducible refine KeepsN.next ?_
    | with_reducible apply KeepsO.getD

theorem State.regOp_keeps {s0 t : State} (h : Keeps s0 t) (i : Issue) (ops : List Nat) (f : Ins → Thread → Thread) : Keeps s0 (State.regOp t i ops f) := by
  unfold State.regOp
  iterate 40 all_goals try first
    | with_reducible assumption
    | (with_reducible apply State.issue_keeps <;> intros)
    | with_reducible apply State.modThread_keeps
    | with_reducible refine KeepsA.go ?_

theorem execNop_keeps {s0 t : State} (h : Keeps s0 t) (o : NopOf) : KeepsN s0 (execNop o t) := by
  unfold execNop
  iterate 40 all_goals try first
    | with_reducible assumption
    | with_reducible apply nopCommand_keeps
    | with_reducible apply State.regOp_keeps
    | with_reducible refine KeepsN.next ?_
    | split

theorem execAluRegisterOp_keeps {s0 t : State} (h : Keeps s0 t) (i : Issue) : KeepsN s0 (execAluRegisterOp i t) := by
  unfold execAluRegisterOp
  iterate 40 all_goals try first
    | with_reducible assumption
    | with_reducible apply State.regOp_keeps
    | with_reducible refine KeepsN.next ?_

theorem execMul_keeps {s0 t : State} (h : Keeps s0 t) (i : Issue) : KeepsN s0 (execMul i t) := by
  unfold execMul
  iterate 40 all_goals try first
    | with_reducible assumption
    | with_reducible apply State.regOp_keeps
    | with_reducible refine KeepsN.next ?_

theorem execMulhu_keeps {s0 t : State} (h : Keeps s0 t) (i : Issue) : KeepsN s0 (execMulhu i t) := by
  unfold execMulhu
  iterate 40 all_goals try first
    | with_reducible assumption
    | with_reducible apply State.regOp_keeps
    | with_reducible refine KeepsN.next ?_

theorem execAluImmediateOp_keeps {s0 t : State} (h : Keeps s0 t) (i : Issue) : KeepsN s0 (execAluImmediateOp i t) := by
  unfold execAluImmediateOp
  iterate 40 all_goals try first
    | with_reducible assumption
    | with_reducible apply State.regOp_keeps
    | with_reducible refine KeepsN.next ?_

theorem execMovi_keeps {s0 t : State} (h : Keeps s0 t) (i : Issue) : KeepsN s0 (execMovi i t) := by
  unfold execMovi
  iterate 40 all_goals try first
    | with_reducible assumption
    | with_reducible apply State.regOp_keeps
    | with_reducible refine KeepsN.next ?_

theorem execMovhi_keeps {s0 t : State} (h : Keeps s0 t) (i : Issue) : KeepsN s0 (execMovhi i t) := by
  unfold execMovhi
  iterate 40 all_goals try first
    | with_reducible assumption
    | with_reducible apply State.regOp_keeps
    | with_reducible refine KeepsN.next ?_

theorem execExt_keeps {s0 t : State} (h : Keeps s0 t) (i : Issue) : KeepsN s0 (execExt i t) := by
  unfold execExt
  iterate 40 all_goals try first
    | with_reducible assumption
    | with_reducible apply State.regOp_keeps
    | with_reducible refine KeepsN.next ?_

theorem execIns_keeps {s0 t : State} (h : Keeps s0 t) (i : Issue) : KeepsN s0 (execIns i t) := by
  unfold execIns
  iterate 40 all_goals try first
    | with_reducible assumption
    | with_reducible apply State.regOp_keeps
    | with_reducible refine KeepsN.next ?_

theorem execPopcClzBswap_keeps {s0 t : State} (h : Keeps s0 t) (i : Issue) : KeepsN s0 (execPopcClzBswap i t) := by
  unfold execPopcClzBswap
  iterate 40 all_goals try first
    | with_reducible assumption
    | with_reducible apply State.regOp_keeps
    | with_reducible refine KeepsN.next ?_

theorem execBset_keeps {s0 t : State} (h : Keeps s0 t) (i : Issue) : KeepsN s0 (execBset i t) := by
  unfold execBset
  iterate 40 all_goals try first
    | with_reducible assumption
    | with_reducible apply State.regOp_keeps
    | with_reducible refine KeepsN.next ?_

theorem execBget_keeps {s0 t : State} (h : Keeps s0 t) (i : Issue) : KeepsN s0 (execBget i t) := by
  unfold execBget
  iterate 40 all_goals try first
    | with_reducible assumption
    | with_reducible apply State.regOp_keeps
    | with_reducible refine KeepsN.next ?_

theorem execBxor_keeps {s0 t : State} (h : Keeps s0 t) (i : Issue) : KeepsN s0 (execBxor i t) := by
  unfold execBxor
  iterate 40 all_goals try first
    | with_reducible assumption
    | with_reducible apply State.regOp_keeps
    | with_reducible refine KeepsN.next ?_

theorem execMovs_keeps {s0 t : State} (h : Keeps s0 t) (i : Issue) : KeepsN s0 (execMovs i t) := by
  unfold execMovs
  iterate 40 all_goals try first
    | with_reducible assumption
    | with_reducible apply State.regOp_keeps
    | with_reducible refine KeepsN.next ?_

theorem execCmp_keeps {s0 t : State} (h : Keeps s0 t) (i : Issue) : KeepsN s0 (execCmp i t) := by
  unfold execCmp
  iterate 40 all_goals try first
    | with_reducible assumption
    | with_reducible apply State.regOp_keeps
    | with_reducible refine KeepsN.next ?_

theorem execCmpi_keeps {s0 t : State} (h : Keeps s0 t) (i : Issue) : KeepsN s0 (execCmpi i t) := by
  unfold execCmpi
  iterate 40 all_goals try first
    | with_reducible assumption
    | with_reducible apply State.regOp_keeps
    | with_reducible refine KeepsN.next ?_

/-- Every command keeps the queue of the others, the form of memory and the burned life-cycle cells. -/
theorem exec_keeps (i : Instr) (s : State) : KeepsN s (exec i s) := by
  cases i
  · exact execClientFrameReceive_keeps (Keeps.refl s) _ _ _ _
  · exact execLineFrameReceive_keeps (Keeps.refl s) _ _
  · exact execSectorDequeue_keeps (Keeps.refl s) _ _ _
  · exact execPrismDispatch_keeps (Keeps.refl s) _ _
  · exact execReorderRelease_keeps (Keeps.refl s) _ _ _ _ _
  · exact execPuntCopy_keeps (Keeps.refl s) _
  · exact execFacetFrameTransmit_keeps (Keeps.refl s) _ _
  · exact execFacetFrameReceive_keeps (Keeps.refl s) _ _ _ _
  · exact execMarkerCodewordReceive_keeps (Keeps.refl s) _ _ _
  · exact execLosDeclare_keeps (Keeps.refl s) _
  · exact execLosClear_keeps (Keeps.refl s) _
  · exact execNop_keeps (Keeps.refl s) _
  · exact execAluRegisterOp_keeps (Keeps.refl s) _
  · exact execMul_keeps (Keeps.refl s) _
  · exact execMulhu_keeps (Keeps.refl s) _
  · exact execAluImmediateOp_keeps (Keeps.refl s) _
  · exact execMovi_keeps (Keeps.refl s) _
  · exact execMovhi_keeps (Keeps.refl s) _
  · exact execExt_keeps (Keeps.refl s) _
  · exact execIns_keeps (Keeps.refl s) _
  · exact execPopcClzBswap_keeps (Keeps.refl s) _
  · exact execBset_keeps (Keeps.refl s) _
  · exact execBget_keeps (Keeps.refl s) _
  · exact execBxor_keeps (Keeps.refl s) _
  · exact execMovs_keeps (Keeps.refl s) _
  · exact execCmp_keeps (Keeps.refl s) _
  · exact execCmpi_keeps (Keeps.refl s) _
  · exact execLd_keeps (Keeps.refl s) _ _
  · exact execSt_keeps (Keeps.refl s) _
  · exact execLdb_keeps (Keeps.refl s) _ _
  · exact execStb_keeps (Keeps.refl s) _
  · exact execLdh_keeps (Keeps.refl s) _
  · exact execSth_keeps (Keeps.refl s) _
  · exact execLdhb_keeps (Keeps.refl s) _
  · exact execSthb_keeps (Keeps.refl s) _
  · exact execVfence_keeps (Keeps.refl s) _
  · exact execFget_keeps (Keeps.refl s) _ _
  · exact execFput_keeps (Keeps.refl s) _
  · exact execFgetb_keeps (Keeps.refl s) _ _
  · exact execFputb_keeps (Keeps.refl s) _
  · exact execSaload_keeps (Keeps.refl s) _
  · exact execPntake_keeps (Keeps.refl s) _
  · exact execCld_keeps (Keeps.refl s) _
  · exact execCst_keeps (Keeps.refl s) _
  · exact execBenc_keeps (Keeps.refl s) _
  · exact execBdec_keeps (Keeps.refl s) _
  · exact execBctr_keeps (Keeps.refl s) _
  · exact execGfacc_keeps (Keeps.refl s) _
  · exact execTagfin_keeps (Keeps.refl s) _
  · exact execTagcmp_keeps (Keeps.refl s) _
  · exact execCas_keeps (Keeps.refl s) _ _
  · exact execFadd_keeps (Keeps.refl s) _ _
  · exact execBr_keeps (Keeps.refl s) _
  · exact execBrr_keeps (Keeps.refl s) _
  · exact execCall_keeps (Keeps.refl s) _
  · exact execRet_keeps (Keeps.refl s) _
  · exact execWait_keeps (Keeps.refl s) _
  · exact execYield_keeps (Keeps.refl s) _
  · exact execHalt_keeps (Keeps.refl s) _
  · exact execEmit_keeps (Keeps.refl s) _
  · exact execDrop_keeps (Keeps.refl s) _
  · exact execPark_keeps (Keeps.refl s) _
  · exact execRedo_keeps (Keeps.refl s) _
  · exact execEvt_keeps (Keeps.refl s) _
  · exact execDescriptorComplete_keeps (Keeps.refl s) _ _
  · exact execHbmLoadReturn_keeps (Keeps.refl s) _ _
  · exact execVerificationResult_keeps (Keeps.refl s) _ _
  · exact execThreadWatchdogExpiry_keeps (Keeps.refl s) _
  · exact execDebugHalt_keeps (Keeps.refl s) _
  · exact execDebugResume_keeps (Keeps.refl s) _
  · exact execPcSample_keeps (Keeps.refl s) _
  · exact execEngineReset_keeps (Keeps.refl s) _ _ _
  · exact execLcTransition_keeps (Keeps.refl s) _
  · exact execDbgChallenge_keeps (Keeps.refl s) _
  · exact execDbgUnlock_keeps (Keeps.refl s) _
  · exact execMeasExtend_keeps (Keeps.refl s) _
  · exact execMeasRead_keeps (Keeps.refl s) _
  · exact execAlarmAck_keeps (Keeps.refl s) _
  · exact execSecverRaise_keeps (Keeps.refl s) _
  · exact execSeal_keeps (Keeps.refl s) _
  · exact execUnseal_keeps (Keeps.refl s) _
  · exact execUnsealToSlot_keeps (Keeps.refl s) _
  · exact execSealMigrate_keeps (Keeps.refl s) _
  · exact execBlobCommit_keeps (Keeps.refl s) _
  · exact execBlobFetch_keeps (Keeps.refl s) _
  · exact execSupplyHoldTimeout_keeps (Keeps.refl s) _
  · exact execCompassRelease_keeps (Keeps.refl s)
  · exact execAlarm_keeps (Keeps.refl s) _ _
  · exact execKeyStage_keeps (Keeps.refl s) _
  · exact execKeyVerify_keeps (Keeps.refl s) _
  · exact execKeyCommit_keeps (Keeps.refl s) _
  · exact execKeyErase_keeps (Keeps.refl s) _
  · exact execKeyDerive_keeps (Keeps.refl s) _
  · exact execKeyInvalidate_keeps (Keeps.refl s) _
  · exact execGenerationDrainEnd_keeps (Keeps.refl s) _
  · exact execMarkingPassEnd_keeps (Keeps.refl s)
  · exact execSweepPassStart_keeps (Keeps.refl s)
  · exact execSweepSlotVisit_keeps (Keeps.refl s) _
  · exact execMaskOverdue_keeps (Keeps.refl s)
  · exact execDrbgReseed_keeps (Keeps.refl s)
  · exact execEntropyHealthFail_keeps (Keeps.refl s)
  · exact execEntropyRecovery_keeps (Keeps.refl s)
  · exact execSaCreate_keeps (Keeps.refl s) _
  · exact execSaModify_keeps (Keeps.refl s) _
  · exact execSaRotate_keeps (Keeps.refl s) _
  · exact execSaRotateCancel_keeps (Keeps.refl s) _
  · exact execSaRetire_keeps (Keeps.refl s) _
  · exact execSaRead_keeps (Keeps.refl s) _
  · exact execRotationArmed_keeps (Keeps.refl s) _ _
  · exact execRotationTimeTrigger_keeps (Keeps.refl s) _ _
  · exact execRetirementEnd_keeps (Keeps.refl s) _
  · exact execOverlapHoldExpiry_keeps (Keeps.refl s) _
  · exact execContextLockLeaseExpiry_keeps (Keeps.refl s) _
  · exact execHoldLimitExpiry_keeps (Keeps.refl s) _
  · exact execParkedFrameRedispatch_keeps (Keeps.refl s) _
  · exact execStatsFoldSweep_keeps (Keeps.refl s) _
  · exact execPortEnable_keeps (Keeps.refl s) _
  · exact execPortDisable_keeps (Keeps.refl s) _
  · exact execPortDrainEnd_keeps (Keeps.refl s) _ _
  · exact execPortDisableTimeout_keeps (Keeps.refl s) _ _
  · exact execGateLoad_keeps (Keeps.refl s) _
  · exact execGateArm_keeps (Keeps.refl s) _
  · exact execGateArmCancel_keeps (Keeps.refl s) _
  · exact execGateListStart_keeps (Keeps.refl s) _
  · exact execGateEntryAdvance_keeps (Keeps.refl s) _
  · exact execIndRead_keeps (Keeps.refl s) _
  · exact execIndWrite_keeps (Keeps.refl s) _
  · exact execUcodeLoad_keeps (Keeps.refl s) _
  · exact execUcodeActivate_keeps (Keeps.refl s) _
  · exact execActivateDrainEnd_keeps (Keeps.refl s) _
  · exact execActivateTimeout_keeps (Keeps.refl s)
  · exact execCryptoBlock_keeps (Keeps.refl s) _
  · exact execReclaim_keeps (Keeps.refl s) _
  · exact execReclaimTesseraOwner_keeps (Keeps.refl s) _
  · exact execSensorGroupSetGroup_keeps (Keeps.refl s) _
  · exact execSensorGroupSetRoute_keeps (Keeps.refl s) _
  · exact execSensorGroupSetProfile_keeps (Keeps.refl s) _
  · exact execSensorGroupSetQueue_keeps (Keeps.refl s) _
  · exact execServiceEnable_keeps (Keeps.refl s) _
  · exact execServiceDisable_keeps (Keeps.refl s) _
  · exact execRadiusDrainEnd_keeps (Keeps.refl s)
  · exact execRadiusDrainTimeout_keeps (Keeps.refl s)
  · exact execSensorWriteInsert_keeps (Keeps.refl s) _
  · exact execSensorWriteReplace_keeps (Keeps.refl s) _
  · exact execSensorWriteDelete_keeps (Keeps.refl s) _
  · exact execSensorWriteRead_keeps (Keeps.refl s) _
  · exact execGatewayInsert_keeps (Keeps.refl s) _
  · exact execGatewayReplace_keeps (Keeps.refl s) _
  · exact execGatewayDelete_keeps (Keeps.refl s) _
  · exact execGatewayRead_keeps (Keeps.refl s) _
  · exact execSensorCheckpointWrite_keeps (Keeps.refl s) _
  · exact execSensorCheckpointConfirm_keeps (Keeps.refl s) _
  · exact execRadiusBatchTake_keeps (Keeps.refl s) _
  · exact execRadiusDispatch_keeps (Keeps.refl s) _ _
  · exact execBatchAck_keeps (Keeps.refl s) _
  · exact execReadingBatchFlush_keeps (Keeps.refl s) _
  · exact execDownlinkWindowRelease_keeps (Keeps.refl s) _
  · exact execDownlinkExpiry_keeps (Keeps.refl s) _
  · exact execRecordLockLeaseExpiry_keeps (Keeps.refl s) _
  · exact execTblRead_keeps (Keeps.refl s) _
  · exact execTblWriteInsert_keeps (Keeps.refl s) _
  · exact execTblWriteReplace_keeps (Keeps.refl s) _
  · exact execTblWriteDelete_keeps (Keeps.refl s) _
  · exact execTblWriteClearHit_keeps (Keeps.refl s) _
  · exact execTblDeleteIfIdle_keeps (Keeps.refl s) _
  · exact execTblLock_keeps (Keeps.refl s) _
  · exact execTblUnlock_keeps (Keeps.refl s) _
  · exact execTblLockWaitTimeout_keeps (Keeps.refl s) _ _
  · exact execTableLockLeaseExpiry_keeps (Keeps.refl s) _
  · exact execLearnRequestApply_keeps (Keeps.refl s)
  · exact execMoveHoldExpiry_keeps (Keeps.refl s) _ _
  · exact execEmTableClear_keeps (Keeps.refl s) _
  · exact execTesseraPoolWrite_keeps (Keeps.refl s) _ _
  · exact execTesseraOwnerWrite_keeps (Keeps.refl s) _ _ _
  · exact execFreeListBuildEnd_keeps (Keeps.refl s) _
  · exact execFreeListRebuildEnd_keeps (Keeps.refl s) _ _
  · exact execQueueEnable_keeps (Keeps.refl s) _ _
  · exact execQueueDisable_keeps (Keeps.refl s) _ _
  · exact execQueueRelease_keeps (Keeps.refl s) _ _
  · exact execBankSwap_keeps (Keeps.refl s) _
  · exact execEntryWriteComplete_keeps (Keeps.refl s) _ _
  · exact execHullRegionCreate_keeps (Keeps.refl s) _
  · exact execHullRegionRights_keeps (Keeps.refl s) _
  · exact execHullRegionFill_keeps (Keeps.refl s) _
  · exact execHullRegionDelete_keeps (Keeps.refl s) _
  · exact execDeleteDrainEnd_keeps (Keeps.refl s) _ _
  · exact execFillComplete_keeps (Keeps.refl s) _ _
  · exact execHullRekey_keeps (Keeps.refl s) _
  · exact execRekeyComplete_keeps (Keeps.refl s) _ _
  · exact execMinorOverflowPassEnd_keeps (Keeps.refl s) _ _ _
  · exact execPatrolScrub_keeps (Keeps.refl s) _ _
  · exact execTwinConfigure_keeps (Keeps.refl s) _
  · exact execTwinSolo_keeps (Keeps.refl s) _
  · exact execTwinWiden_keeps (Keeps.refl s) _
  · exact execTwinRemove_keeps (Keeps.refl s) _
  · exact execTwinHandover_keeps (Keeps.refl s) _
  · exact execLeaseStatus_keeps (Keeps.refl s) _
  · exact execHandoverTimeout_keeps (Keeps.refl s)
  · exact execChordLinkUp_keeps (Keeps.refl s)
  · exact execHelloSend_keeps (Keeps.refl s) _
  · exact execHelloReceive_keeps (Keeps.refl s) _ _
  · exact execChordHeartbeatSend_keeps (Keeps.refl s)
  · exact execChordLinkDown_keeps (Keeps.refl s) _
  · exact execSyncCycleStart_keeps (Keeps.refl s)
  · exact execCopyRecordsReceive_keeps (Keeps.refl s) _
  · exact execCopyEndReceive_keeps (Keeps.refl s) _
  · exact execCopyAckReceive_keeps (Keeps.refl s) _
  · exact execFullRequestReceive_keeps (Keeps.refl s) _
  · exact execHandoverRequestReceive_keeps (Keeps.refl s) _
  · exact execLeaseRequestSend_keeps (Keeps.refl s)
  · exact execLeaseGrant_keeps (Keeps.refl s) _
  · exact execLeaseDeny_keeps (Keeps.refl s) _
  · exact execLeaseExpiry_keeps (Keeps.refl s)
  · exact execStaleRequestSend_keeps (Keeps.refl s)
  · exact execWaitToRestoreExpiry_keeps (Keeps.refl s)
  · exact execDoorbellWrite_keeps (Keeps.refl s) _ _
  · unfold exec; exact execCommandFetch_keeps (Keeps.refl s)
  · exact execRingEnable_keeps (Keeps.refl s) _ _ _
  · exact execRingDisable_keeps (Keeps.refl s) _ _ _
  · exact execRingDrainEnd_keeps (Keeps.refl s) _
  · exact execRingCiWrite_keeps (Keeps.refl s) _ _ _
  · exact execInterruptDelayExpiry_keeps (Keeps.refl s) _ _
  · exact execEventRecordWrite_keeps (Keeps.refl s)
  · exact execMgmtFrameReceive_keeps (Keeps.refl s) _ _
  · exact execMgmtDoorbell_keeps (Keeps.refl s) _ _
  · exact execMgmtLinkChange_keeps (Keeps.refl s) _ _ _
  · exact execFence_keeps (Keeps.refl s) _
  · exact execSetInterfaceVersion_keeps (Keeps.refl s) _
  · exact execFrameSend_keeps (Keeps.refl s) _
  · exact execResync_keeps (Keeps.refl s) _
  · exact execSnapshotNow_keeps (Keeps.refl s) _
  · exact execSnapshotAtTime_keeps (Keeps.refl s) _
  · exact execSnapshotFreeze_keeps (Keeps.refl s) _
  · exact execSnapshotThaw_keeps (Keeps.refl s) _
  · exact execCapture_keeps (Keeps.refl s)
  · exact execSnapInEdge_keeps (Keeps.refl s) _
  · exact execSnapInFreezeLevel_keeps (Keeps.refl s) _
  · exact execCounterRead_keeps (Keeps.refl s) _
  · exact execCounterReadReady_keeps (Keeps.refl s)
  · exact execPcLoRead_keeps (Keeps.refl s) _
  · exact execGnomonSet_keeps (Keeps.refl s) _
  · exact execGnomonStep_keeps (Keeps.refl s) _
  · exact execLockWrite_keeps (Keeps.refl s) _
  · exact execRateWrite_keeps (Keeps.refl s) _
  · exact execServoTimeout_keeps (Keeps.refl s)
  · exact execSecondTick_keeps (Keeps.refl s)
  · exact execPpsOutPulseEnd_keeps (Keeps.refl s)
  · exact execPpsInEdge_keeps (Keeps.refl s) _
  · exact execPpsInMissing_keeps (Keeps.refl s)
  · exact execTodMessageSend_keeps (Keeps.refl s)
  · exact execTodByteReceive_keeps (Keeps.refl s) _
  · exact execTodRxRead_keeps (Keeps.refl s)
  · exact execTxtsEntryRemove_keeps (Keeps.refl s) _
  · exact execNowNsRead_keeps (Keeps.refl s)
  · exact execTransmitPllLock_keeps (Keeps.refl s) _
  · exact execSignalDetect_keeps (Keeps.refl s) _
  · exact execSignalLoss_keeps (Keeps.refl s) _
  · exact execPhaseLock_keeps (Keeps.refl s) _
  · exact execAdaptConverged_keeps (Keeps.refl s) _
  · exact execTrainComplete_keeps (Keeps.refl s) _ _
  · exact execLossOfLock_keeps (Keeps.refl s) _
  · exact execFastRelockExpiry_keeps (Keeps.refl s) _
  · exact execLockTimeout_keeps (Keeps.refl s) _
  · exact execPcsAlignmentLock_keeps (Keeps.refl s) _ _ _
  · exact execRefclkLoss_keeps (Keeps.refl s) _
  · exact execLaneCfgWrite_keeps (Keeps.refl s) _ _
  · exact execLaneTxeqWrite_keeps (Keeps.refl s) _ _
  · exact execPrbsCfgWrite_keeps (Keeps.refl s) _ _
  · exact execErrorInject_keeps (Keeps.refl s) _ _
  · exact execPrbsCheckerLockLoss_keeps (Keeps.refl s) _
  · exact execEyeScanGo_keeps (Keeps.refl s) _ _
  · exact execEyeScanDone_keeps (Keeps.refl s) _ _
  · exact execColdReset_keeps (Keeps.refl s)
  · exact execWarmReset_keeps (Keeps.refl s) _
  · exact execDatapathReset_keeps (Keeps.refl s) _
  · exact execDatapathResetComplete_keeps (Keeps.refl s)
  · exact execPortBlockReset_keeps (Keeps.refl s) _
  · exact execRailWarningEntry_keeps (Keeps.refl s) _
  · exact execRailWarningExit_keeps (Keeps.refl s) _
  · exact execSupplyReset_keeps (Keeps.refl s) _
  · exact execOverVoltage_keeps (Keeps.refl s) _
  · exact execAonBrownOut_keeps (Keeps.refl s)
  · exact execTemperatureSample_keeps (Keeps.refl s) _ _
  · exact execThermalTrip_keeps (Keeps.refl s)
  · exact execThermalTripRelease_keeps (Keeps.refl s)
  · exact execMemoryPllLoss_keeps (Keeps.refl s) _
  · exact execGnomonPllLoss_keeps (Keeps.refl s)
  · exact execGnomonPllRelock_keeps (Keeps.refl s)
  · exact execExtestLoad_keeps (Keeps.refl s)
  · exact execUartDataWrite_keeps (Keeps.refl s) _ _
  · exact execUartDataRead_keeps (Keeps.refl s) _
  · exact execUartByteReceive_keeps (Keeps.refl s) _ _
  · exact execI2cStart_keeps (Keeps.refl s) _
  · exact execI2cStop_keeps (Keeps.refl s) _
  · exact execI2cRead_keeps (Keeps.refl s) _ _
  · exact execI2cWrite_keeps (Keeps.refl s) _ _
  · exact execI2cTransferDone_keeps (Keeps.refl s) _ _ _ _
  · exact execRegisterWrite_keeps (Keeps.refl s) _ _ _
  · exact execPowerOnResetRelease_keeps (Keeps.refl s)
  · exact execExpectedMarkerMissed_keeps (Keeps.refl s) _ _
  · exact execAlignmentCandidateMatch_keeps (Keeps.refl s) _ _ _ _
  · exact execHeartbeatReceive_keeps (Keeps.refl s) _
  · exact execRegisterResultArrival_keeps (Keeps.refl s) _
  · exact execUartByteSent_keeps (Keeps.refl s) _

end Sys2Proof.Machine
end

