-- ==== Sys2Proof/Laws/State.lean ====
section
/-! SUPPORT. What each update of State leaves unchanged: one lemma per update and field, true by rfl, so that no proof unfolds a record
update; and what reading an entry gives after it is replaced. -/

namespace Sys2Proof.Machine

variable (s : State)

/-! ### emit -/

section
variable (o : Output)
@[simp] theorem State.emit_pending : (s.emit o).pending = s.pending := rfl
@[simp] theorem State.emit_freeCount : (s.emit o).freeCount = s.freeCount := rfl
@[simp] theorem State.emit_clk : (s.emit o).clk = s.clk := rfl
@[simp] theorem State.emit_readValue : (s.emit o).readValue = s.readValue := rfl
@[simp] theorem State.emit_regs : (s.emit o).regs = s.regs := rfl
@[simp] theorem State.emit_counters : (s.emit o).counters = s.counters := rfl
@[simp] theorem State.emit_once : (s.emit o).once = s.once := rfl
@[simp] theorem State.emit_mem : (s.emit o).mem = s.mem := rfl
@[simp] theorem State.emit_hull : (s.emit o).hull = s.hull := rfl
@[simp] theorem State.emit_rings : (s.emit o).rings = s.rings := rfl
@[simp] theorem State.emit_tele : (s.emit o).tele = s.tele := rfl
@[simp] theorem State.emit_gnomon : (s.emit o).gnomon = s.gnomon := rfl
@[simp] theorem State.emit_axis : (s.emit o).axis = s.axis := rfl
@[simp] theorem State.emit_apex : (s.emit o).apex = s.apex := rfl
@[simp] theorem State.emit_assoc : (s.emit o).assoc = s.assoc := rfl
@[simp] theorem State.emit_cpr : (s.emit o).cpr = s.cpr := rfl
@[simp] theorem State.emit_periph : (s.emit o).periph = s.periph := rfl
@[simp] theorem State.emit_ports : (s.emit o).ports = s.ports := rfl
@[simp] theorem State.emit_lanes : (s.emit o).lanes = s.lanes := rfl
@[simp] theorem State.emit_twin : (s.emit o).twin = s.twin := rfl
@[simp] theorem State.emit_facet : (s.emit o).facet = s.facet := rfl
@[simp] theorem State.emit_tess : (s.emit o).tess = s.tess := rfl
@[simp] theorem State.emit_annulus : (s.emit o).annulus = s.annulus := rfl
@[simp] theorem State.emit_locus : (s.emit o).locus = s.locus := rfl
@[simp] theorem State.emit_sector : (s.emit o).sector = s.sector := rfl
@[simp] theorem State.emit_radius : (s.emit o).radius = s.radius := rfl
@[simp] theorem State.emit_vertex : (s.emit o).vertex = s.vertex := rfl
@[simp] theorem State.emit_prism : (s.emit o).prism = s.prism := rfl
end

/-! ### setReg -/

section
variable (off : Nat) (v : BitVec 32)
@[simp] theorem State.setReg_pending : (s.setReg off v).pending = s.pending := rfl
@[simp] theorem State.setReg_freeCount : (s.setReg off v).freeCount = s.freeCount := rfl
@[simp] theorem State.setReg_clk : (s.setReg off v).clk = s.clk := rfl
@[simp] theorem State.setReg_out : (s.setReg off v).out = s.out := rfl
@[simp] theorem State.setReg_readValue : (s.setReg off v).readValue = s.readValue := rfl
@[simp] theorem State.setReg_counters : (s.setReg off v).counters = s.counters := rfl
@[simp] theorem State.setReg_once : (s.setReg off v).once = s.once := rfl
@[simp] theorem State.setReg_mem : (s.setReg off v).mem = s.mem := rfl
@[simp] theorem State.setReg_hull : (s.setReg off v).hull = s.hull := rfl
@[simp] theorem State.setReg_rings : (s.setReg off v).rings = s.rings := rfl
@[simp] theorem State.setReg_tele : (s.setReg off v).tele = s.tele := rfl
@[simp] theorem State.setReg_gnomon : (s.setReg off v).gnomon = s.gnomon := rfl
@[simp] theorem State.setReg_axis : (s.setReg off v).axis = s.axis := rfl
@[simp] theorem State.setReg_apex : (s.setReg off v).apex = s.apex := rfl
@[simp] theorem State.setReg_assoc : (s.setReg off v).assoc = s.assoc := rfl
@[simp] theorem State.setReg_cpr : (s.setReg off v).cpr = s.cpr := rfl
@[simp] theorem State.setReg_periph : (s.setReg off v).periph = s.periph := rfl
@[simp] theorem State.setReg_ports : (s.setReg off v).ports = s.ports := rfl
@[simp] theorem State.setReg_lanes : (s.setReg off v).lanes = s.lanes := rfl
@[simp] theorem State.setReg_twin : (s.setReg off v).twin = s.twin := rfl
@[simp] theorem State.setReg_facet : (s.setReg off v).facet = s.facet := rfl
@[simp] theorem State.setReg_tess : (s.setReg off v).tess = s.tess := rfl
@[simp] theorem State.setReg_annulus : (s.setReg off v).annulus = s.annulus := rfl
@[simp] theorem State.setReg_locus : (s.setReg off v).locus = s.locus := rfl
@[simp] theorem State.setReg_sector : (s.setReg off v).sector = s.sector := rfl
@[simp] theorem State.setReg_radius : (s.setReg off v).radius = s.radius := rfl
@[simp] theorem State.setReg_vertex : (s.setReg off v).vertex = s.vertex := rfl
@[simp] theorem State.setReg_prism : (s.setReg off v).prism = s.prism := rfl
end

/-! ### markRaise -/

section
variable (ev : Nat)
@[simp] theorem State.markRaise_pending : (s.markRaise ev).pending = s.pending := rfl
@[simp] theorem State.markRaise_freeCount : (s.markRaise ev).freeCount = s.freeCount := rfl
@[simp] theorem State.markRaise_clk : (s.markRaise ev).clk = s.clk := rfl
@[simp] theorem State.markRaise_out : (s.markRaise ev).out = s.out := rfl
@[simp] theorem State.markRaise_readValue : (s.markRaise ev).readValue = s.readValue := rfl
@[simp] theorem State.markRaise_regs : (s.markRaise ev).regs = s.regs := rfl
@[simp] theorem State.markRaise_counters : (s.markRaise ev).counters = s.counters := rfl
@[simp] theorem State.markRaise_once : (s.markRaise ev).once = s.once := rfl
@[simp] theorem State.markRaise_mem : (s.markRaise ev).mem = s.mem := rfl
@[simp] theorem State.markRaise_hull : (s.markRaise ev).hull = s.hull := rfl
@[simp] theorem State.markRaise_rings : (s.markRaise ev).rings = s.rings := rfl
@[simp] theorem State.markRaise_gnomon : (s.markRaise ev).gnomon = s.gnomon := rfl
@[simp] theorem State.markRaise_axis : (s.markRaise ev).axis = s.axis := rfl
@[simp] theorem State.markRaise_apex : (s.markRaise ev).apex = s.apex := rfl
@[simp] theorem State.markRaise_assoc : (s.markRaise ev).assoc = s.assoc := rfl
@[simp] theorem State.markRaise_cpr : (s.markRaise ev).cpr = s.cpr := rfl
@[simp] theorem State.markRaise_periph : (s.markRaise ev).periph = s.periph := rfl
@[simp] theorem State.markRaise_ports : (s.markRaise ev).ports = s.ports := rfl
@[simp] theorem State.markRaise_lanes : (s.markRaise ev).lanes = s.lanes := rfl
@[simp] theorem State.markRaise_twin : (s.markRaise ev).twin = s.twin := rfl
@[simp] theorem State.markRaise_facet : (s.markRaise ev).facet = s.facet := rfl
@[simp] theorem State.markRaise_tess : (s.markRaise ev).tess = s.tess := rfl
@[simp] theorem State.markRaise_annulus : (s.markRaise ev).annulus = s.annulus := rfl
@[simp] theorem State.markRaise_locus : (s.markRaise ev).locus = s.locus := rfl
@[simp] theorem State.markRaise_sector : (s.markRaise ev).sector = s.sector := rfl
@[simp] theorem State.markRaise_radius : (s.markRaise ev).radius = s.radius := rfl
@[simp] theorem State.markRaise_vertex : (s.markRaise ev).vertex = s.vertex := rfl
@[simp] theorem State.markRaise_prism : (s.markRaise ev).prism = s.prism := rfl
end

/-! ### withTele -/

section
variable (t : TeleState)
@[simp] theorem State.withTele_pending : (s.withTele t).pending = s.pending := rfl
@[simp] theorem State.withTele_freeCount : (s.withTele t).freeCount = s.freeCount := rfl
@[simp] theorem State.withTele_clk : (s.withTele t).clk = s.clk := rfl
@[simp] theorem State.withTele_out : (s.withTele t).out = s.out := rfl
@[simp] theorem State.withTele_readValue : (s.withTele t).readValue = s.readValue := rfl
@[simp] theorem State.withTele_regs : (s.withTele t).regs = s.regs := rfl
@[simp] theorem State.withTele_counters : (s.withTele t).counters = s.counters := rfl
@[simp] theorem State.withTele_once : (s.withTele t).once = s.once := rfl
@[simp] theorem State.withTele_mem : (s.withTele t).mem = s.mem := rfl
@[simp] theorem State.withTele_hull : (s.withTele t).hull = s.hull := rfl
@[simp] theorem State.withTele_rings : (s.withTele t).rings = s.rings := rfl
@[simp] theorem State.withTele_gnomon : (s.withTele t).gnomon = s.gnomon := rfl
@[simp] theorem State.withTele_axis : (s.withTele t).axis = s.axis := rfl
@[simp] theorem State.withTele_apex : (s.withTele t).apex = s.apex := rfl
@[simp] theorem State.withTele_assoc : (s.withTele t).assoc = s.assoc := rfl
@[simp] theorem State.withTele_cpr : (s.withTele t).cpr = s.cpr := rfl
@[simp] theorem State.withTele_periph : (s.withTele t).periph = s.periph := rfl
@[simp] theorem State.withTele_ports : (s.withTele t).ports = s.ports := rfl
@[simp] theorem State.withTele_lanes : (s.withTele t).lanes = s.lanes := rfl
@[simp] theorem State.withTele_twin : (s.withTele t).twin = s.twin := rfl
@[simp] theorem State.withTele_facet : (s.withTele t).facet = s.facet := rfl
@[simp] theorem State.withTele_tess : (s.withTele t).tess = s.tess := rfl
@[simp] theorem State.withTele_annulus : (s.withTele t).annulus = s.annulus := rfl
@[simp] theorem State.withTele_locus : (s.withTele t).locus = s.locus := rfl
@[simp] theorem State.withTele_sector : (s.withTele t).sector = s.sector := rfl
@[simp] theorem State.withTele_radius : (s.withTele t).radius = s.radius := rfl
@[simp] theorem State.withTele_vertex : (s.withTele t).vertex = s.vertex := rfl
@[simp] theorem State.withTele_prism : (s.withTele t).prism = s.prism := rfl
end

/-! ### withGnomon -/

section
variable (g : GnomonState)
@[simp] theorem State.withGnomon_pending : (s.withGnomon g).pending = s.pending := rfl
@[simp] theorem State.withGnomon_freeCount : (s.withGnomon g).freeCount = s.freeCount := rfl
@[simp] theorem State.withGnomon_clk : (s.withGnomon g).clk = s.clk := rfl
@[simp] theorem State.withGnomon_out : (s.withGnomon g).out = s.out := rfl
@[simp] theorem State.withGnomon_readValue : (s.withGnomon g).readValue = s.readValue := rfl
@[simp] theorem State.withGnomon_regs : (s.withGnomon g).regs = s.regs := rfl
@[simp] theorem State.withGnomon_counters : (s.withGnomon g).counters = s.counters := rfl
@[simp] theorem State.withGnomon_once : (s.withGnomon g).once = s.once := rfl
@[simp] theorem State.withGnomon_mem : (s.withGnomon g).mem = s.mem := rfl
@[simp] theorem State.withGnomon_hull : (s.withGnomon g).hull = s.hull := rfl
@[simp] theorem State.withGnomon_rings : (s.withGnomon g).rings = s.rings := rfl
@[simp] theorem State.withGnomon_tele : (s.withGnomon g).tele = s.tele := rfl
@[simp] theorem State.withGnomon_axis : (s.withGnomon g).axis = s.axis := rfl
@[simp] theorem State.withGnomon_apex : (s.withGnomon g).apex = s.apex := rfl
@[simp] theorem State.withGnomon_assoc : (s.withGnomon g).assoc = s.assoc := rfl
@[simp] theorem State.withGnomon_cpr : (s.withGnomon g).cpr = s.cpr := rfl
@[simp] theorem State.withGnomon_periph : (s.withGnomon g).periph = s.periph := rfl
@[simp] theorem State.withGnomon_ports : (s.withGnomon g).ports = s.ports := rfl
@[simp] theorem State.withGnomon_lanes : (s.withGnomon g).lanes = s.lanes := rfl
@[simp] theorem State.withGnomon_twin : (s.withGnomon g).twin = s.twin := rfl
@[simp] theorem State.withGnomon_facet : (s.withGnomon g).facet = s.facet := rfl
@[simp] theorem State.withGnomon_tess : (s.withGnomon g).tess = s.tess := rfl
@[simp] theorem State.withGnomon_annulus : (s.withGnomon g).annulus = s.annulus := rfl
@[simp] theorem State.withGnomon_locus : (s.withGnomon g).locus = s.locus := rfl
@[simp] theorem State.withGnomon_sector : (s.withGnomon g).sector = s.sector := rfl
@[simp] theorem State.withGnomon_radius : (s.withGnomon g).radius = s.radius := rfl
@[simp] theorem State.withGnomon_vertex : (s.withGnomon g).vertex = s.vertex := rfl
@[simp] theorem State.withGnomon_prism : (s.withGnomon g).prism = s.prism := rfl
end

/-! ### setRing -/

section
variable (k : RingKind) (r : Nat) (x : Ring)
@[simp] theorem State.setRing_pending : (s.setRing k r x).pending = s.pending := rfl
@[simp] theorem State.setRing_freeCount : (s.setRing k r x).freeCount = s.freeCount := rfl
@[simp] theorem State.setRing_clk : (s.setRing k r x).clk = s.clk := rfl
@[simp] theorem State.setRing_out : (s.setRing k r x).out = s.out := rfl
@[simp] theorem State.setRing_readValue : (s.setRing k r x).readValue = s.readValue := rfl
@[simp] theorem State.setRing_regs : (s.setRing k r x).regs = s.regs := rfl
@[simp] theorem State.setRing_counters : (s.setRing k r x).counters = s.counters := rfl
@[simp] theorem State.setRing_once : (s.setRing k r x).once = s.once := rfl
@[simp] theorem State.setRing_mem : (s.setRing k r x).mem = s.mem := rfl
@[simp] theorem State.setRing_hull : (s.setRing k r x).hull = s.hull := rfl
@[simp] theorem State.setRing_tele : (s.setRing k r x).tele = s.tele := rfl
@[simp] theorem State.setRing_gnomon : (s.setRing k r x).gnomon = s.gnomon := rfl
@[simp] theorem State.setRing_axis : (s.setRing k r x).axis = s.axis := rfl
@[simp] theorem State.setRing_apex : (s.setRing k r x).apex = s.apex := rfl
@[simp] theorem State.setRing_assoc : (s.setRing k r x).assoc = s.assoc := rfl
@[simp] theorem State.setRing_cpr : (s.setRing k r x).cpr = s.cpr := rfl
@[simp] theorem State.setRing_periph : (s.setRing k r x).periph = s.periph := rfl
@[simp] theorem State.setRing_ports : (s.setRing k r x).ports = s.ports := rfl
@[simp] theorem State.setRing_lanes : (s.setRing k r x).lanes = s.lanes := rfl
@[simp] theorem State.setRing_twin : (s.setRing k r x).twin = s.twin := rfl
@[simp] theorem State.setRing_facet : (s.setRing k r x).facet = s.facet := rfl
@[simp] theorem State.setRing_tess : (s.setRing k r x).tess = s.tess := rfl
@[simp] theorem State.setRing_annulus : (s.setRing k r x).annulus = s.annulus := rfl
@[simp] theorem State.setRing_locus : (s.setRing k r x).locus = s.locus := rfl
@[simp] theorem State.setRing_sector : (s.setRing k r x).sector = s.sector := rfl
@[simp] theorem State.setRing_radius : (s.setRing k r x).radius = s.radius := rfl
@[simp] theorem State.setRing_vertex : (s.setRing k r x).vertex = s.vertex := rfl
@[simp] theorem State.setRing_prism : (s.setRing k r x).prism = s.prism := rfl
end

/-! ### setRegion -/

section
variable (k : Nat) (r : Region)
@[simp] theorem State.setRegion_pending : (s.setRegion k r).pending = s.pending := rfl
@[simp] theorem State.setRegion_freeCount : (s.setRegion k r).freeCount = s.freeCount := rfl
@[simp] theorem State.setRegion_clk : (s.setRegion k r).clk = s.clk := rfl
@[simp] theorem State.setRegion_out : (s.setRegion k r).out = s.out := rfl
@[simp] theorem State.setRegion_readValue : (s.setRegion k r).readValue = s.readValue := rfl
@[simp] theorem State.setRegion_regs : (s.setRegion k r).regs = s.regs := rfl
@[simp] theorem State.setRegion_counters : (s.setRegion k r).counters = s.counters := rfl
@[simp] theorem State.setRegion_once : (s.setRegion k r).once = s.once := rfl
@[simp] theorem State.setRegion_mem : (s.setRegion k r).mem = s.mem := rfl
@[simp] theorem State.setRegion_rings : (s.setRegion k r).rings = s.rings := rfl
@[simp] theorem State.setRegion_tele : (s.setRegion k r).tele = s.tele := rfl
@[simp] theorem State.setRegion_gnomon : (s.setRegion k r).gnomon = s.gnomon := rfl
@[simp] theorem State.setRegion_axis : (s.setRegion k r).axis = s.axis := rfl
@[simp] theorem State.setRegion_apex : (s.setRegion k r).apex = s.apex := rfl
@[simp] theorem State.setRegion_assoc : (s.setRegion k r).assoc = s.assoc := rfl
@[simp] theorem State.setRegion_cpr : (s.setRegion k r).cpr = s.cpr := rfl
@[simp] theorem State.setRegion_periph : (s.setRegion k r).periph = s.periph := rfl
@[simp] theorem State.setRegion_ports : (s.setRegion k r).ports = s.ports := rfl
@[simp] theorem State.setRegion_lanes : (s.setRegion k r).lanes = s.lanes := rfl
@[simp] theorem State.setRegion_twin : (s.setRegion k r).twin = s.twin := rfl
@[simp] theorem State.setRegion_facet : (s.setRegion k r).facet = s.facet := rfl
@[simp] theorem State.setRegion_tess : (s.setRegion k r).tess = s.tess := rfl
@[simp] theorem State.setRegion_annulus : (s.setRegion k r).annulus = s.annulus := rfl
@[simp] theorem State.setRegion_locus : (s.setRegion k r).locus = s.locus := rfl
@[simp] theorem State.setRegion_sector : (s.setRegion k r).sector = s.sector := rfl
@[simp] theorem State.setRegion_radius : (s.setRegion k r).radius = s.radius := rfl
@[simp] theorem State.setRegion_vertex : (s.setRegion k r).vertex = s.vertex := rfl
@[simp] theorem State.setRegion_prism : (s.setRegion k r).prism = s.prism := rfl
end

/-! ### withApex -/

section
variable (a : ApexState)
@[simp] theorem State.withApex_pending : (s.withApex a).pending = s.pending := rfl
@[simp] theorem State.withApex_freeCount : (s.withApex a).freeCount = s.freeCount := rfl
@[simp] theorem State.withApex_clk : (s.withApex a).clk = s.clk := rfl
@[simp] theorem State.withApex_out : (s.withApex a).out = s.out := rfl
@[simp] theorem State.withApex_readValue : (s.withApex a).readValue = s.readValue := rfl
@[simp] theorem State.withApex_regs : (s.withApex a).regs = s.regs := rfl
@[simp] theorem State.withApex_counters : (s.withApex a).counters = s.counters := rfl
@[simp] theorem State.withApex_once : (s.withApex a).once = s.once := rfl
@[simp] theorem State.withApex_mem : (s.withApex a).mem = s.mem := rfl
@[simp] theorem State.withApex_hull : (s.withApex a).hull = s.hull := rfl
@[simp] theorem State.withApex_rings : (s.withApex a).rings = s.rings := rfl
@[simp] theorem State.withApex_tele : (s.withApex a).tele = s.tele := rfl
@[simp] theorem State.withApex_gnomon : (s.withApex a).gnomon = s.gnomon := rfl
@[simp] theorem State.withApex_axis : (s.withApex a).axis = s.axis := rfl
@[simp] theorem State.withApex_assoc : (s.withApex a).assoc = s.assoc := rfl
@[simp] theorem State.withApex_cpr : (s.withApex a).cpr = s.cpr := rfl
@[simp] theorem State.withApex_periph : (s.withApex a).periph = s.periph := rfl
@[simp] theorem State.withApex_ports : (s.withApex a).ports = s.ports := rfl
@[simp] theorem State.withApex_lanes : (s.withApex a).lanes = s.lanes := rfl
@[simp] theorem State.withApex_twin : (s.withApex a).twin = s.twin := rfl
@[simp] theorem State.withApex_facet : (s.withApex a).facet = s.facet := rfl
@[simp] theorem State.withApex_tess : (s.withApex a).tess = s.tess := rfl
@[simp] theorem State.withApex_annulus : (s.withApex a).annulus = s.annulus := rfl
@[simp] theorem State.withApex_locus : (s.withApex a).locus = s.locus := rfl
@[simp] theorem State.withApex_sector : (s.withApex a).sector = s.sector := rfl
@[simp] theorem State.withApex_radius : (s.withApex a).radius = s.radius := rfl
@[simp] theorem State.withApex_vertex : (s.withApex a).vertex = s.vertex := rfl
@[simp] theorem State.withApex_prism : (s.withApex a).prism = s.prism := rfl
end

/-! ### withCpr -/

section
variable (c : CprState)
@[simp] theorem State.withCpr_pending : (s.withCpr c).pending = s.pending := rfl
@[simp] theorem State.withCpr_freeCount : (s.withCpr c).freeCount = s.freeCount := rfl
@[simp] theorem State.withCpr_clk : (s.withCpr c).clk = s.clk := rfl
@[simp] theorem State.withCpr_out : (s.withCpr c).out = s.out := rfl
@[simp] theorem State.withCpr_readValue : (s.withCpr c).readValue = s.readValue := rfl
@[simp] theorem State.withCpr_regs : (s.withCpr c).regs = s.regs := rfl
@[simp] theorem State.withCpr_counters : (s.withCpr c).counters = s.counters := rfl
@[simp] theorem State.withCpr_once : (s.withCpr c).once = s.once := rfl
@[simp] theorem State.withCpr_mem : (s.withCpr c).mem = s.mem := rfl
@[simp] theorem State.withCpr_hull : (s.withCpr c).hull = s.hull := rfl
@[simp] theorem State.withCpr_rings : (s.withCpr c).rings = s.rings := rfl
@[simp] theorem State.withCpr_tele : (s.withCpr c).tele = s.tele := rfl
@[simp] theorem State.withCpr_gnomon : (s.withCpr c).gnomon = s.gnomon := rfl
@[simp] theorem State.withCpr_axis : (s.withCpr c).axis = s.axis := rfl
@[simp] theorem State.withCpr_apex : (s.withCpr c).apex = s.apex := rfl
@[simp] theorem State.withCpr_assoc : (s.withCpr c).assoc = s.assoc := rfl
@[simp] theorem State.withCpr_periph : (s.withCpr c).periph = s.periph := rfl
@[simp] theorem State.withCpr_ports : (s.withCpr c).ports = s.ports := rfl
@[simp] theorem State.withCpr_lanes : (s.withCpr c).lanes = s.lanes := rfl
@[simp] theorem State.withCpr_twin : (s.withCpr c).twin = s.twin := rfl
@[simp] theorem State.withCpr_facet : (s.withCpr c).facet = s.facet := rfl
@[simp] theorem State.withCpr_tess : (s.withCpr c).tess = s.tess := rfl
@[simp] theorem State.withCpr_annulus : (s.withCpr c).annulus = s.annulus := rfl
@[simp] theorem State.withCpr_locus : (s.withCpr c).locus = s.locus := rfl
@[simp] theorem State.withCpr_sector : (s.withCpr c).sector = s.sector := rfl
@[simp] theorem State.withCpr_radius : (s.withCpr c).radius = s.radius := rfl
@[simp] theorem State.withCpr_vertex : (s.withCpr c).vertex = s.vertex := rfl
@[simp] theorem State.withCpr_prism : (s.withCpr c).prism = s.prism := rfl
end

/-! ### noteCause -/

section
variable (c : BitVec 8)
@[simp] theorem State.noteCause_pending : (s.noteCause c).pending = s.pending := rfl
@[simp] theorem State.noteCause_freeCount : (s.noteCause c).freeCount = s.freeCount := rfl
@[simp] theorem State.noteCause_clk : (s.noteCause c).clk = s.clk := rfl
@[simp] theorem State.noteCause_out : (s.noteCause c).out = s.out := rfl
@[simp] theorem State.noteCause_readValue : (s.noteCause c).readValue = s.readValue := rfl
@[simp] theorem State.noteCause_regs : (s.noteCause c).regs = s.regs := rfl
@[simp] theorem State.noteCause_counters : (s.noteCause c).counters = s.counters := rfl
@[simp] theorem State.noteCause_once : (s.noteCause c).once = s.once := rfl
@[simp] theorem State.noteCause_mem : (s.noteCause c).mem = s.mem := rfl
@[simp] theorem State.noteCause_hull : (s.noteCause c).hull = s.hull := rfl
@[simp] theorem State.noteCause_rings : (s.noteCause c).rings = s.rings := rfl
@[simp] theorem State.noteCause_tele : (s.noteCause c).tele = s.tele := rfl
@[simp] theorem State.noteCause_gnomon : (s.noteCause c).gnomon = s.gnomon := rfl
@[simp] theorem State.noteCause_axis : (s.noteCause c).axis = s.axis := rfl
@[simp] theorem State.noteCause_apex : (s.noteCause c).apex = s.apex := rfl
@[simp] theorem State.noteCause_assoc : (s.noteCause c).assoc = s.assoc := rfl
@[simp] theorem State.noteCause_periph : (s.noteCause c).periph = s.periph := rfl
@[simp] theorem State.noteCause_ports : (s.noteCause c).ports = s.ports := rfl
@[simp] theorem State.noteCause_lanes : (s.noteCause c).lanes = s.lanes := rfl
@[simp] theorem State.noteCause_twin : (s.noteCause c).twin = s.twin := rfl
@[simp] theorem State.noteCause_facet : (s.noteCause c).facet = s.facet := rfl
@[simp] theorem State.noteCause_tess : (s.noteCause c).tess = s.tess := rfl
@[simp] theorem State.noteCause_annulus : (s.noteCause c).annulus = s.annulus := rfl
@[simp] theorem State.noteCause_locus : (s.noteCause c).locus = s.locus := rfl
@[simp] theorem State.noteCause_sector : (s.noteCause c).sector = s.sector := rfl
@[simp] theorem State.noteCause_radius : (s.noteCause c).radius = s.radius := rfl
@[simp] theorem State.noteCause_vertex : (s.noteCause c).vertex = s.vertex := rfl
@[simp] theorem State.noteCause_prism : (s.noteCause c).prism = s.prism := rfl
end

/-! ### setSa -/

section
variable (h : Nat) (a : Assoc)
@[simp] theorem State.setSa_pending : (s.setSa h a).pending = s.pending := rfl
@[simp] theorem State.setSa_freeCount : (s.setSa h a).freeCount = s.freeCount := rfl
@[simp] theorem State.setSa_clk : (s.setSa h a).clk = s.clk := rfl
@[simp] theorem State.setSa_out : (s.setSa h a).out = s.out := rfl
@[simp] theorem State.setSa_readValue : (s.setSa h a).readValue = s.readValue := rfl
@[simp] theorem State.setSa_regs : (s.setSa h a).regs = s.regs := rfl
@[simp] theorem State.setSa_counters : (s.setSa h a).counters = s.counters := rfl
@[simp] theorem State.setSa_once : (s.setSa h a).once = s.once := rfl
@[simp] theorem State.setSa_mem : (s.setSa h a).mem = s.mem := rfl
@[simp] theorem State.setSa_hull : (s.setSa h a).hull = s.hull := rfl
@[simp] theorem State.setSa_rings : (s.setSa h a).rings = s.rings := rfl
@[simp] theorem State.setSa_tele : (s.setSa h a).tele = s.tele := rfl
@[simp] theorem State.setSa_gnomon : (s.setSa h a).gnomon = s.gnomon := rfl
@[simp] theorem State.setSa_axis : (s.setSa h a).axis = s.axis := rfl
@[simp] theorem State.setSa_apex : (s.setSa h a).apex = s.apex := rfl
@[simp] theorem State.setSa_cpr : (s.setSa h a).cpr = s.cpr := rfl
@[simp] theorem State.setSa_periph : (s.setSa h a).periph = s.periph := rfl
@[simp] theorem State.setSa_ports : (s.setSa h a).ports = s.ports := rfl
@[simp] theorem State.setSa_lanes : (s.setSa h a).lanes = s.lanes := rfl
@[simp] theorem State.setSa_twin : (s.setSa h a).twin = s.twin := rfl
@[simp] theorem State.setSa_facet : (s.setSa h a).facet = s.facet := rfl
@[simp] theorem State.setSa_tess : (s.setSa h a).tess = s.tess := rfl
@[simp] theorem State.setSa_annulus : (s.setSa h a).annulus = s.annulus := rfl
@[simp] theorem State.setSa_locus : (s.setSa h a).locus = s.locus := rfl
@[simp] theorem State.setSa_sector : (s.setSa h a).sector = s.sector := rfl
@[simp] theorem State.setSa_radius : (s.setSa h a).radius = s.radius := rfl
@[simp] theorem State.setSa_vertex : (s.setSa h a).vertex = s.vertex := rfl
@[simp] theorem State.setSa_prism : (s.setSa h a).prism = s.prism := rfl
end

/-! ### putRotation -/

section
variable (r : Rotation) (r' : Option Rotation)
@[simp] theorem State.putRotation_pending : (s.putRotation r r').pending = s.pending := rfl
@[simp] theorem State.putRotation_freeCount : (s.putRotation r r').freeCount = s.freeCount := rfl
@[simp] theorem State.putRotation_clk : (s.putRotation r r').clk = s.clk := rfl
@[simp] theorem State.putRotation_out : (s.putRotation r r').out = s.out := rfl
@[simp] theorem State.putRotation_readValue : (s.putRotation r r').readValue = s.readValue := rfl
@[simp] theorem State.putRotation_regs : (s.putRotation r r').regs = s.regs := rfl
@[simp] theorem State.putRotation_counters : (s.putRotation r r').counters = s.counters := rfl
@[simp] theorem State.putRotation_once : (s.putRotation r r').once = s.once := rfl
@[simp] theorem State.putRotation_mem : (s.putRotation r r').mem = s.mem := rfl
@[simp] theorem State.putRotation_hull : (s.putRotation r r').hull = s.hull := rfl
@[simp] theorem State.putRotation_rings : (s.putRotation r r').rings = s.rings := rfl
@[simp] theorem State.putRotation_tele : (s.putRotation r r').tele = s.tele := rfl
@[simp] theorem State.putRotation_gnomon : (s.putRotation r r').gnomon = s.gnomon := rfl
@[simp] theorem State.putRotation_axis : (s.putRotation r r').axis = s.axis := rfl
@[simp] theorem State.putRotation_apex : (s.putRotation r r').apex = s.apex := rfl
@[simp] theorem State.putRotation_cpr : (s.putRotation r r').cpr = s.cpr := rfl
@[simp] theorem State.putRotation_periph : (s.putRotation r r').periph = s.periph := rfl
@[simp] theorem State.putRotation_ports : (s.putRotation r r').ports = s.ports := rfl
@[simp] theorem State.putRotation_lanes : (s.putRotation r r').lanes = s.lanes := rfl
@[simp] theorem State.putRotation_twin : (s.putRotation r r').twin = s.twin := rfl
@[simp] theorem State.putRotation_facet : (s.putRotation r r').facet = s.facet := rfl
@[simp] theorem State.putRotation_tess : (s.putRotation r r').tess = s.tess := rfl
@[simp] theorem State.putRotation_annulus : (s.putRotation r r').annulus = s.annulus := rfl
@[simp] theorem State.putRotation_locus : (s.putRotation r r').locus = s.locus := rfl
@[simp] theorem State.putRotation_sector : (s.putRotation r r').sector = s.sector := rfl
@[simp] theorem State.putRotation_radius : (s.putRotation r r').radius = s.radius := rfl
@[simp] theorem State.putRotation_vertex : (s.putRotation r r').vertex = s.vertex := rfl
@[simp] theorem State.putRotation_prism : (s.putRotation r r').prism = s.prism := rfl
end

/-! ### setUart -/

section
variable (k : Nat) (x : Uart)
@[simp] theorem State.setUart_pending : (s.setUart k x).pending = s.pending := rfl
@[simp] theorem State.setUart_freeCount : (s.setUart k x).freeCount = s.freeCount := rfl
@[simp] theorem State.setUart_clk : (s.setUart k x).clk = s.clk := rfl
@[simp] theorem State.setUart_out : (s.setUart k x).out = s.out := rfl
@[simp] theorem State.setUart_readValue : (s.setUart k x).readValue = s.readValue := rfl
@[simp] theorem State.setUart_regs : (s.setUart k x).regs = s.regs := rfl
@[simp] theorem State.setUart_counters : (s.setUart k x).counters = s.counters := rfl
@[simp] theorem State.setUart_once : (s.setUart k x).once = s.once := rfl
@[simp] theorem State.setUart_mem : (s.setUart k x).mem = s.mem := rfl
@[simp] theorem State.setUart_hull : (s.setUart k x).hull = s.hull := rfl
@[simp] theorem State.setUart_rings : (s.setUart k x).rings = s.rings := rfl
@[simp] theorem State.setUart_tele : (s.setUart k x).tele = s.tele := rfl
@[simp] theorem State.setUart_gnomon : (s.setUart k x).gnomon = s.gnomon := rfl
@[simp] theorem State.setUart_axis : (s.setUart k x).axis = s.axis := rfl
@[simp] theorem State.setUart_apex : (s.setUart k x).apex = s.apex := rfl
@[simp] theorem State.setUart_assoc : (s.setUart k x).assoc = s.assoc := rfl
@[simp] theorem State.setUart_cpr : (s.setUart k x).cpr = s.cpr := rfl
@[simp] theorem State.setUart_ports : (s.setUart k x).ports = s.ports := rfl
@[simp] theorem State.setUart_lanes : (s.setUart k x).lanes = s.lanes := rfl
@[simp] theorem State.setUart_twin : (s.setUart k x).twin = s.twin := rfl
@[simp] theorem State.setUart_facet : (s.setUart k x).facet = s.facet := rfl
@[simp] theorem State.setUart_tess : (s.setUart k x).tess = s.tess := rfl
@[simp] theorem State.setUart_annulus : (s.setUart k x).annulus = s.annulus := rfl
@[simp] theorem State.setUart_locus : (s.setUart k x).locus = s.locus := rfl
@[simp] theorem State.setUart_sector : (s.setUart k x).sector = s.sector := rfl
@[simp] theorem State.setUart_radius : (s.setUart k x).radius = s.radius := rfl
@[simp] theorem State.setUart_vertex : (s.setUart k x).vertex = s.vertex := rfl
@[simp] theorem State.setUart_prism : (s.setUart k x).prism = s.prism := rfl
end

/-! ### setI2c -/

section
variable (k : Nat) (x : I2c)
@[simp] theorem State.setI2c_pending : (s.setI2c k x).pending = s.pending := rfl
@[simp] theorem State.setI2c_freeCount : (s.setI2c k x).freeCount = s.freeCount := rfl
@[simp] theorem State.setI2c_clk : (s.setI2c k x).clk = s.clk := rfl
@[simp] theorem State.setI2c_out : (s.setI2c k x).out = s.out := rfl
@[simp] theorem State.setI2c_readValue : (s.setI2c k x).readValue = s.readValue := rfl
@[simp] theorem State.setI2c_regs : (s.setI2c k x).regs = s.regs := rfl
@[simp] theorem State.setI2c_counters : (s.setI2c k x).counters = s.counters := rfl
@[simp] theorem State.setI2c_once : (s.setI2c k x).once = s.once := rfl
@[simp] theorem State.setI2c_mem : (s.setI2c k x).mem = s.mem := rfl
@[simp] theorem State.setI2c_hull : (s.setI2c k x).hull = s.hull := rfl
@[simp] theorem State.setI2c_rings : (s.setI2c k x).rings = s.rings := rfl
@[simp] theorem State.setI2c_tele : (s.setI2c k x).tele = s.tele := rfl
@[simp] theorem State.setI2c_gnomon : (s.setI2c k x).gnomon = s.gnomon := rfl
@[simp] theorem State.setI2c_axis : (s.setI2c k x).axis = s.axis := rfl
@[simp] theorem State.setI2c_apex : (s.setI2c k x).apex = s.apex := rfl
@[simp] theorem State.setI2c_assoc : (s.setI2c k x).assoc = s.assoc := rfl
@[simp] theorem State.setI2c_cpr : (s.setI2c k x).cpr = s.cpr := rfl
@[simp] theorem State.setI2c_ports : (s.setI2c k x).ports = s.ports := rfl
@[simp] theorem State.setI2c_lanes : (s.setI2c k x).lanes = s.lanes := rfl
@[simp] theorem State.setI2c_twin : (s.setI2c k x).twin = s.twin := rfl
@[simp] theorem State.setI2c_facet : (s.setI2c k x).facet = s.facet := rfl
@[simp] theorem State.setI2c_tess : (s.setI2c k x).tess = s.tess := rfl
@[simp] theorem State.setI2c_annulus : (s.setI2c k x).annulus = s.annulus := rfl
@[simp] theorem State.setI2c_locus : (s.setI2c k x).locus = s.locus := rfl
@[simp] theorem State.setI2c_sector : (s.setI2c k x).sector = s.sector := rfl
@[simp] theorem State.setI2c_radius : (s.setI2c k x).radius = s.radius := rfl
@[simp] theorem State.setI2c_vertex : (s.setI2c k x).vertex = s.vertex := rfl
@[simp] theorem State.setI2c_prism : (s.setI2c k x).prism = s.prism := rfl
end

/-! ### setLport -/

section
variable (lp : Nat) (x : LPort)
@[simp] theorem State.setLport_pending : (s.setLport lp x).pending = s.pending := rfl
@[simp] theorem State.setLport_freeCount : (s.setLport lp x).freeCount = s.freeCount := rfl
@[simp] theorem State.setLport_clk : (s.setLport lp x).clk = s.clk := rfl
@[simp] theorem State.setLport_out : (s.setLport lp x).out = s.out := rfl
@[simp] theorem State.setLport_readValue : (s.setLport lp x).readValue = s.readValue := rfl
@[simp] theorem State.setLport_regs : (s.setLport lp x).regs = s.regs := rfl
@[simp] theorem State.setLport_counters : (s.setLport lp x).counters = s.counters := rfl
@[simp] theorem State.setLport_once : (s.setLport lp x).once = s.once := rfl
@[simp] theorem State.setLport_mem : (s.setLport lp x).mem = s.mem := rfl
@[simp] theorem State.setLport_hull : (s.setLport lp x).hull = s.hull := rfl
@[simp] theorem State.setLport_rings : (s.setLport lp x).rings = s.rings := rfl
@[simp] theorem State.setLport_tele : (s.setLport lp x).tele = s.tele := rfl
@[simp] theorem State.setLport_gnomon : (s.setLport lp x).gnomon = s.gnomon := rfl
@[simp] theorem State.setLport_axis : (s.setLport lp x).axis = s.axis := rfl
@[simp] theorem State.setLport_apex : (s.setLport lp x).apex = s.apex := rfl
@[simp] theorem State.setLport_assoc : (s.setLport lp x).assoc = s.assoc := rfl
@[simp] theorem State.setLport_cpr : (s.setLport lp x).cpr = s.cpr := rfl
@[simp] theorem State.setLport_periph : (s.setLport lp x).periph = s.periph := rfl
@[simp] theorem State.setLport_lanes : (s.setLport lp x).lanes = s.lanes := rfl
@[simp] theorem State.setLport_twin : (s.setLport lp x).twin = s.twin := rfl
@[simp] theorem State.setLport_facet : (s.setLport lp x).facet = s.facet := rfl
@[simp] theorem State.setLport_tess : (s.setLport lp x).tess = s.tess := rfl
@[simp] theorem State.setLport_annulus : (s.setLport lp x).annulus = s.annulus := rfl
@[simp] theorem State.setLport_locus : (s.setLport lp x).locus = s.locus := rfl
@[simp] theorem State.setLport_sector : (s.setLport lp x).sector = s.sector := rfl
@[simp] theorem State.setLport_radius : (s.setLport lp x).radius = s.radius := rfl
@[simp] theorem State.setLport_vertex : (s.setLport lp x).vertex = s.vertex := rfl
@[simp] theorem State.setLport_prism : (s.setLport lp x).prism = s.prism := rfl
end

/-! ### setLane -/

section
variable (k : Nat) (x : LaneUnit)
@[simp] theorem State.setLane_pending : (s.setLane k x).pending = s.pending := rfl
@[simp] theorem State.setLane_freeCount : (s.setLane k x).freeCount = s.freeCount := rfl
@[simp] theorem State.setLane_clk : (s.setLane k x).clk = s.clk := rfl
@[simp] theorem State.setLane_out : (s.setLane k x).out = s.out := rfl
@[simp] theorem State.setLane_readValue : (s.setLane k x).readValue = s.readValue := rfl
@[simp] theorem State.setLane_regs : (s.setLane k x).regs = s.regs := rfl
@[simp] theorem State.setLane_counters : (s.setLane k x).counters = s.counters := rfl
@[simp] theorem State.setLane_once : (s.setLane k x).once = s.once := rfl
@[simp] theorem State.setLane_mem : (s.setLane k x).mem = s.mem := rfl
@[simp] theorem State.setLane_hull : (s.setLane k x).hull = s.hull := rfl
@[simp] theorem State.setLane_rings : (s.setLane k x).rings = s.rings := rfl
@[simp] theorem State.setLane_tele : (s.setLane k x).tele = s.tele := rfl
@[simp] theorem State.setLane_gnomon : (s.setLane k x).gnomon = s.gnomon := rfl
@[simp] theorem State.setLane_axis : (s.setLane k x).axis = s.axis := rfl
@[simp] theorem State.setLane_apex : (s.setLane k x).apex = s.apex := rfl
@[simp] theorem State.setLane_assoc : (s.setLane k x).assoc = s.assoc := rfl
@[simp] theorem State.setLane_cpr : (s.setLane k x).cpr = s.cpr := rfl
@[simp] theorem State.setLane_periph : (s.setLane k x).periph = s.periph := rfl
@[simp] theorem State.setLane_ports : (s.setLane k x).ports = s.ports := rfl
@[simp] theorem State.setLane_twin : (s.setLane k x).twin = s.twin := rfl
@[simp] theorem State.setLane_facet : (s.setLane k x).facet = s.facet := rfl
@[simp] theorem State.setLane_tess : (s.setLane k x).tess = s.tess := rfl
@[simp] theorem State.setLane_annulus : (s.setLane k x).annulus = s.annulus := rfl
@[simp] theorem State.setLane_locus : (s.setLane k x).locus = s.locus := rfl
@[simp] theorem State.setLane_sector : (s.setLane k x).sector = s.sector := rfl
@[simp] theorem State.setLane_radius : (s.setLane k x).radius = s.radius := rfl
@[simp] theorem State.setLane_vertex : (s.setLane k x).vertex = s.vertex := rfl
@[simp] theorem State.setLane_prism : (s.setLane k x).prism = s.prism := rfl
end

/-! ### withTwin -/

section
variable (t : TwinState)
@[simp] theorem State.withTwin_pending : (s.withTwin t).pending = s.pending := rfl
@[simp] theorem State.withTwin_freeCount : (s.withTwin t).freeCount = s.freeCount := rfl
@[simp] theorem State.withTwin_clk : (s.withTwin t).clk = s.clk := rfl
@[simp] theorem State.withTwin_out : (s.withTwin t).out = s.out := rfl
@[simp] theorem State.withTwin_readValue : (s.withTwin t).readValue = s.readValue := rfl
@[simp] theorem State.withTwin_regs : (s.withTwin t).regs = s.regs := rfl
@[simp] theorem State.withTwin_counters : (s.withTwin t).counters = s.counters := rfl
@[simp] theorem State.withTwin_once : (s.withTwin t).once = s.once := rfl
@[simp] theorem State.withTwin_mem : (s.withTwin t).mem = s.mem := rfl
@[simp] theorem State.withTwin_hull : (s.withTwin t).hull = s.hull := rfl
@[simp] theorem State.withTwin_rings : (s.withTwin t).rings = s.rings := rfl
@[simp] theorem State.withTwin_tele : (s.withTwin t).tele = s.tele := rfl
@[simp] theorem State.withTwin_gnomon : (s.withTwin t).gnomon = s.gnomon := rfl
@[simp] theorem State.withTwin_axis : (s.withTwin t).axis = s.axis := rfl
@[simp] theorem State.withTwin_apex : (s.withTwin t).apex = s.apex := rfl
@[simp] theorem State.withTwin_assoc : (s.withTwin t).assoc = s.assoc := rfl
@[simp] theorem State.withTwin_cpr : (s.withTwin t).cpr = s.cpr := rfl
@[simp] theorem State.withTwin_periph : (s.withTwin t).periph = s.periph := rfl
@[simp] theorem State.withTwin_ports : (s.withTwin t).ports = s.ports := rfl
@[simp] theorem State.withTwin_lanes : (s.withTwin t).lanes = s.lanes := rfl
@[simp] theorem State.withTwin_facet : (s.withTwin t).facet = s.facet := rfl
@[simp] theorem State.withTwin_tess : (s.withTwin t).tess = s.tess := rfl
@[simp] theorem State.withTwin_annulus : (s.withTwin t).annulus = s.annulus := rfl
@[simp] theorem State.withTwin_locus : (s.withTwin t).locus = s.locus := rfl
@[simp] theorem State.withTwin_sector : (s.withTwin t).sector = s.sector := rfl
@[simp] theorem State.withTwin_radius : (s.withTwin t).radius = s.radius := rfl
@[simp] theorem State.withTwin_vertex : (s.withTwin t).vertex = s.vertex := rfl
@[simp] theorem State.withTwin_prism : (s.withTwin t).prism = s.prism := rfl
end

/-! ### noteKey -/

section
variable (k : Nat) (c : Bool)
@[simp] theorem State.noteKey_pending : (s.noteKey k c).pending = s.pending := rfl
@[simp] theorem State.noteKey_freeCount : (s.noteKey k c).freeCount = s.freeCount := rfl
@[simp] theorem State.noteKey_clk : (s.noteKey k c).clk = s.clk := rfl
@[simp] theorem State.noteKey_out : (s.noteKey k c).out = s.out := rfl
@[simp] theorem State.noteKey_readValue : (s.noteKey k c).readValue = s.readValue := rfl
@[simp] theorem State.noteKey_regs : (s.noteKey k c).regs = s.regs := rfl
@[simp] theorem State.noteKey_counters : (s.noteKey k c).counters = s.counters := rfl
@[simp] theorem State.noteKey_once : (s.noteKey k c).once = s.once := rfl
@[simp] theorem State.noteKey_mem : (s.noteKey k c).mem = s.mem := rfl
@[simp] theorem State.noteKey_hull : (s.noteKey k c).hull = s.hull := rfl
@[simp] theorem State.noteKey_rings : (s.noteKey k c).rings = s.rings := rfl
@[simp] theorem State.noteKey_tele : (s.noteKey k c).tele = s.tele := rfl
@[simp] theorem State.noteKey_gnomon : (s.noteKey k c).gnomon = s.gnomon := rfl
@[simp] theorem State.noteKey_axis : (s.noteKey k c).axis = s.axis := rfl
@[simp] theorem State.noteKey_apex : (s.noteKey k c).apex = s.apex := rfl
@[simp] theorem State.noteKey_assoc : (s.noteKey k c).assoc = s.assoc := rfl
@[simp] theorem State.noteKey_cpr : (s.noteKey k c).cpr = s.cpr := rfl
@[simp] theorem State.noteKey_periph : (s.noteKey k c).periph = s.periph := rfl
@[simp] theorem State.noteKey_ports : (s.noteKey k c).ports = s.ports := rfl
@[simp] theorem State.noteKey_lanes : (s.noteKey k c).lanes = s.lanes := rfl
@[simp] theorem State.noteKey_facet : (s.noteKey k c).facet = s.facet := rfl
@[simp] theorem State.noteKey_tess : (s.noteKey k c).tess = s.tess := rfl
@[simp] theorem State.noteKey_annulus : (s.noteKey k c).annulus = s.annulus := rfl
@[simp] theorem State.noteKey_locus : (s.noteKey k c).locus = s.locus := rfl
@[simp] theorem State.noteKey_sector : (s.noteKey k c).sector = s.sector := rfl
@[simp] theorem State.noteKey_radius : (s.noteKey k c).radius = s.radius := rfl
@[simp] theorem State.noteKey_vertex : (s.noteKey k c).vertex = s.vertex := rfl
@[simp] theorem State.noteKey_prism : (s.noteKey k c).prism = s.prism := rfl
end

/-! ### setFacet -/

section
variable (n : Nat) (p : FacetPort)
@[simp] theorem State.setFacet_pending : (s.setFacet n p).pending = s.pending := rfl
@[simp] theorem State.setFacet_freeCount : (s.setFacet n p).freeCount = s.freeCount := rfl
@[simp] theorem State.setFacet_clk : (s.setFacet n p).clk = s.clk := rfl
@[simp] theorem State.setFacet_out : (s.setFacet n p).out = s.out := rfl
@[simp] theorem State.setFacet_readValue : (s.setFacet n p).readValue = s.readValue := rfl
@[simp] theorem State.setFacet_regs : (s.setFacet n p).regs = s.regs := rfl
@[simp] theorem State.setFacet_counters : (s.setFacet n p).counters = s.counters := rfl
@[simp] theorem State.setFacet_once : (s.setFacet n p).once = s.once := rfl
@[simp] theorem State.setFacet_mem : (s.setFacet n p).mem = s.mem := rfl
@[simp] theorem State.setFacet_hull : (s.setFacet n p).hull = s.hull := rfl
@[simp] theorem State.setFacet_rings : (s.setFacet n p).rings = s.rings := rfl
@[simp] theorem State.setFacet_tele : (s.setFacet n p).tele = s.tele := rfl
@[simp] theorem State.setFacet_gnomon : (s.setFacet n p).gnomon = s.gnomon := rfl
@[simp] theorem State.setFacet_axis : (s.setFacet n p).axis = s.axis := rfl
@[simp] theorem State.setFacet_apex : (s.setFacet n p).apex = s.apex := rfl
@[simp] theorem State.setFacet_assoc : (s.setFacet n p).assoc = s.assoc := rfl
@[simp] theorem State.setFacet_cpr : (s.setFacet n p).cpr = s.cpr := rfl
@[simp] theorem State.setFacet_periph : (s.setFacet n p).periph = s.periph := rfl
@[simp] theorem State.setFacet_ports : (s.setFacet n p).ports = s.ports := rfl
@[simp] theorem State.setFacet_lanes : (s.setFacet n p).lanes = s.lanes := rfl
@[simp] theorem State.setFacet_twin : (s.setFacet n p).twin = s.twin := rfl
@[simp] theorem State.setFacet_tess : (s.setFacet n p).tess = s.tess := rfl
@[simp] theorem State.setFacet_annulus : (s.setFacet n p).annulus = s.annulus := rfl
@[simp] theorem State.setFacet_locus : (s.setFacet n p).locus = s.locus := rfl
@[simp] theorem State.setFacet_sector : (s.setFacet n p).sector = s.sector := rfl
@[simp] theorem State.setFacet_radius : (s.setFacet n p).radius = s.radius := rfl
@[simp] theorem State.setFacet_vertex : (s.setFacet n p).vertex = s.vertex := rfl
@[simp] theorem State.setFacet_prism : (s.setFacet n p).prism = s.prism := rfl
end

/-! ### modFacet -/

section
variable (n : Nat) (f : FacetPort → FacetPort)
@[simp] theorem State.modFacet_pending : (s.modFacet n f).pending = s.pending := rfl
@[simp] theorem State.modFacet_freeCount : (s.modFacet n f).freeCount = s.freeCount := rfl
@[simp] theorem State.modFacet_clk : (s.modFacet n f).clk = s.clk := rfl
@[simp] theorem State.modFacet_out : (s.modFacet n f).out = s.out := rfl
@[simp] theorem State.modFacet_readValue : (s.modFacet n f).readValue = s.readValue := rfl
@[simp] theorem State.modFacet_regs : (s.modFacet n f).regs = s.regs := rfl
@[simp] theorem State.modFacet_counters : (s.modFacet n f).counters = s.counters := rfl
@[simp] theorem State.modFacet_once : (s.modFacet n f).once = s.once := rfl
@[simp] theorem State.modFacet_mem : (s.modFacet n f).mem = s.mem := rfl
@[simp] theorem State.modFacet_hull : (s.modFacet n f).hull = s.hull := rfl
@[simp] theorem State.modFacet_rings : (s.modFacet n f).rings = s.rings := rfl
@[simp] theorem State.modFacet_tele : (s.modFacet n f).tele = s.tele := rfl
@[simp] theorem State.modFacet_gnomon : (s.modFacet n f).gnomon = s.gnomon := rfl
@[simp] theorem State.modFacet_axis : (s.modFacet n f).axis = s.axis := rfl
@[simp] theorem State.modFacet_apex : (s.modFacet n f).apex = s.apex := rfl
@[simp] theorem State.modFacet_assoc : (s.modFacet n f).assoc = s.assoc := rfl
@[simp] theorem State.modFacet_cpr : (s.modFacet n f).cpr = s.cpr := rfl
@[simp] theorem State.modFacet_periph : (s.modFacet n f).periph = s.periph := rfl
@[simp] theorem State.modFacet_ports : (s.modFacet n f).ports = s.ports := rfl
@[simp] theorem State.modFacet_lanes : (s.modFacet n f).lanes = s.lanes := rfl
@[simp] theorem State.modFacet_twin : (s.modFacet n f).twin = s.twin := rfl
@[simp] theorem State.modFacet_tess : (s.modFacet n f).tess = s.tess := rfl
@[simp] theorem State.modFacet_annulus : (s.modFacet n f).annulus = s.annulus := rfl
@[simp] theorem State.modFacet_locus : (s.modFacet n f).locus = s.locus := rfl
@[simp] theorem State.modFacet_sector : (s.modFacet n f).sector = s.sector := rfl
@[simp] theorem State.modFacet_radius : (s.modFacet n f).radius = s.radius := rfl
@[simp] theorem State.modFacet_vertex : (s.modFacet n f).vertex = s.vertex := rfl
@[simp] theorem State.modFacet_prism : (s.modFacet n f).prism = s.prism := rfl
end

/-! ### withTess -/

section
variable (t : TessState)
@[simp] theorem State.withTess_pending : (s.withTess t).pending = s.pending := rfl
@[simp] theorem State.withTess_freeCount : (s.withTess t).freeCount = s.freeCount := rfl
@[simp] theorem State.withTess_clk : (s.withTess t).clk = s.clk := rfl
@[simp] theorem State.withTess_out : (s.withTess t).out = s.out := rfl
@[simp] theorem State.withTess_readValue : (s.withTess t).readValue = s.readValue := rfl
@[simp] theorem State.withTess_regs : (s.withTess t).regs = s.regs := rfl
@[simp] theorem State.withTess_counters : (s.withTess t).counters = s.counters := rfl
@[simp] theorem State.withTess_once : (s.withTess t).once = s.once := rfl
@[simp] theorem State.withTess_mem : (s.withTess t).mem = s.mem := rfl
@[simp] theorem State.withTess_hull : (s.withTess t).hull = s.hull := rfl
@[simp] theorem State.withTess_rings : (s.withTess t).rings = s.rings := rfl
@[simp] theorem State.withTess_tele : (s.withTess t).tele = s.tele := rfl
@[simp] theorem State.withTess_gnomon : (s.withTess t).gnomon = s.gnomon := rfl
@[simp] theorem State.withTess_axis : (s.withTess t).axis = s.axis := rfl
@[simp] theorem State.withTess_apex : (s.withTess t).apex = s.apex := rfl
@[simp] theorem State.withTess_assoc : (s.withTess t).assoc = s.assoc := rfl
@[simp] theorem State.withTess_cpr : (s.withTess t).cpr = s.cpr := rfl
@[simp] theorem State.withTess_periph : (s.withTess t).periph = s.periph := rfl
@[simp] theorem State.withTess_ports : (s.withTess t).ports = s.ports := rfl
@[simp] theorem State.withTess_lanes : (s.withTess t).lanes = s.lanes := rfl
@[simp] theorem State.withTess_twin : (s.withTess t).twin = s.twin := rfl
@[simp] theorem State.withTess_facet : (s.withTess t).facet = s.facet := rfl
@[simp] theorem State.withTess_annulus : (s.withTess t).annulus = s.annulus := rfl
@[simp] theorem State.withTess_locus : (s.withTess t).locus = s.locus := rfl
@[simp] theorem State.withTess_sector : (s.withTess t).sector = s.sector := rfl
@[simp] theorem State.withTess_radius : (s.withTess t).radius = s.radius := rfl
@[simp] theorem State.withTess_vertex : (s.withTess t).vertex = s.vertex := rfl
@[simp] theorem State.withTess_prism : (s.withTess t).prism = s.prism := rfl
end

/-! ### modFrame -/

section
variable (id : Nat) (g : TFrame → TFrame)
@[simp] theorem State.modFrame_pending : (s.modFrame id g).pending = s.pending := rfl
@[simp] theorem State.modFrame_freeCount : (s.modFrame id g).freeCount = s.freeCount := rfl
@[simp] theorem State.modFrame_clk : (s.modFrame id g).clk = s.clk := rfl
@[simp] theorem State.modFrame_out : (s.modFrame id g).out = s.out := rfl
@[simp] theorem State.modFrame_readValue : (s.modFrame id g).readValue = s.readValue := rfl
@[simp] theorem State.modFrame_regs : (s.modFrame id g).regs = s.regs := rfl
@[simp] theorem State.modFrame_counters : (s.modFrame id g).counters = s.counters := rfl
@[simp] theorem State.modFrame_once : (s.modFrame id g).once = s.once := rfl
@[simp] theorem State.modFrame_mem : (s.modFrame id g).mem = s.mem := rfl
@[simp] theorem State.modFrame_hull : (s.modFrame id g).hull = s.hull := rfl
@[simp] theorem State.modFrame_rings : (s.modFrame id g).rings = s.rings := rfl
@[simp] theorem State.modFrame_tele : (s.modFrame id g).tele = s.tele := rfl
@[simp] theorem State.modFrame_gnomon : (s.modFrame id g).gnomon = s.gnomon := rfl
@[simp] theorem State.modFrame_axis : (s.modFrame id g).axis = s.axis := rfl
@[simp] theorem State.modFrame_apex : (s.modFrame id g).apex = s.apex := rfl
@[simp] theorem State.modFrame_assoc : (s.modFrame id g).assoc = s.assoc := rfl
@[simp] theorem State.modFrame_cpr : (s.modFrame id g).cpr = s.cpr := rfl
@[simp] theorem State.modFrame_periph : (s.modFrame id g).periph = s.periph := rfl
@[simp] theorem State.modFrame_ports : (s.modFrame id g).ports = s.ports := rfl
@[simp] theorem State.modFrame_lanes : (s.modFrame id g).lanes = s.lanes := rfl
@[simp] theorem State.modFrame_twin : (s.modFrame id g).twin = s.twin := rfl
@[simp] theorem State.modFrame_facet : (s.modFrame id g).facet = s.facet := rfl
@[simp] theorem State.modFrame_annulus : (s.modFrame id g).annulus = s.annulus := rfl
@[simp] theorem State.modFrame_locus : (s.modFrame id g).locus = s.locus := rfl
@[simp] theorem State.modFrame_sector : (s.modFrame id g).sector = s.sector := rfl
@[simp] theorem State.modFrame_radius : (s.modFrame id g).radius = s.radius := rfl
@[simp] theorem State.modFrame_vertex : (s.modFrame id g).vertex = s.vertex := rfl
@[simp] theorem State.modFrame_prism : (s.modFrame id g).prism = s.prism := rfl
end

/-! ### setAq -/

section
variable (q : Nat) (x : AQueue)
@[simp] theorem State.setAq_pending : (s.setAq q x).pending = s.pending := rfl
@[simp] theorem State.setAq_freeCount : (s.setAq q x).freeCount = s.freeCount := rfl
@[simp] theorem State.setAq_clk : (s.setAq q x).clk = s.clk := rfl
@[simp] theorem State.setAq_out : (s.setAq q x).out = s.out := rfl
@[simp] theorem State.setAq_readValue : (s.setAq q x).readValue = s.readValue := rfl
@[simp] theorem State.setAq_regs : (s.setAq q x).regs = s.regs := rfl
@[simp] theorem State.setAq_counters : (s.setAq q x).counters = s.counters := rfl
@[simp] theorem State.setAq_once : (s.setAq q x).once = s.once := rfl
@[simp] theorem State.setAq_mem : (s.setAq q x).mem = s.mem := rfl
@[simp] theorem State.setAq_hull : (s.setAq q x).hull = s.hull := rfl
@[simp] theorem State.setAq_rings : (s.setAq q x).rings = s.rings := rfl
@[simp] theorem State.setAq_tele : (s.setAq q x).tele = s.tele := rfl
@[simp] theorem State.setAq_gnomon : (s.setAq q x).gnomon = s.gnomon := rfl
@[simp] theorem State.setAq_axis : (s.setAq q x).axis = s.axis := rfl
@[simp] theorem State.setAq_apex : (s.setAq q x).apex = s.apex := rfl
@[simp] theorem State.setAq_assoc : (s.setAq q x).assoc = s.assoc := rfl
@[simp] theorem State.setAq_cpr : (s.setAq q x).cpr = s.cpr := rfl
@[simp] theorem State.setAq_periph : (s.setAq q x).periph = s.periph := rfl
@[simp] theorem State.setAq_ports : (s.setAq q x).ports = s.ports := rfl
@[simp] theorem State.setAq_lanes : (s.setAq q x).lanes = s.lanes := rfl
@[simp] theorem State.setAq_twin : (s.setAq q x).twin = s.twin := rfl
@[simp] theorem State.setAq_facet : (s.setAq q x).facet = s.facet := rfl
@[simp] theorem State.setAq_tess : (s.setAq q x).tess = s.tess := rfl
@[simp] theorem State.setAq_locus : (s.setAq q x).locus = s.locus := rfl
@[simp] theorem State.setAq_sector : (s.setAq q x).sector = s.sector := rfl
@[simp] theorem State.setAq_radius : (s.setAq q x).radius = s.radius := rfl
@[simp] theorem State.setAq_vertex : (s.setAq q x).vertex = s.vertex := rfl
@[simp] theorem State.setAq_prism : (s.setAq q x).prism = s.prism := rfl
end

/-! ### withLocus -/

section
variable (x : LocusState)
@[simp] theorem State.withLocus_pending : (s.withLocus x).pending = s.pending := rfl
@[simp] theorem State.withLocus_freeCount : (s.withLocus x).freeCount = s.freeCount := rfl
@[simp] theorem State.withLocus_clk : (s.withLocus x).clk = s.clk := rfl
@[simp] theorem State.withLocus_out : (s.withLocus x).out = s.out := rfl
@[simp] theorem State.withLocus_readValue : (s.withLocus x).readValue = s.readValue := rfl
@[simp] theorem State.withLocus_regs : (s.withLocus x).regs = s.regs := rfl
@[simp] theorem State.withLocus_counters : (s.withLocus x).counters = s.counters := rfl
@[simp] theorem State.withLocus_once : (s.withLocus x).once = s.once := rfl
@[simp] theorem State.withLocus_mem : (s.withLocus x).mem = s.mem := rfl
@[simp] theorem State.withLocus_hull : (s.withLocus x).hull = s.hull := rfl
@[simp] theorem State.withLocus_rings : (s.withLocus x).rings = s.rings := rfl
@[simp] theorem State.withLocus_tele : (s.withLocus x).tele = s.tele := rfl
@[simp] theorem State.withLocus_gnomon : (s.withLocus x).gnomon = s.gnomon := rfl
@[simp] theorem State.withLocus_axis : (s.withLocus x).axis = s.axis := rfl
@[simp] theorem State.withLocus_apex : (s.withLocus x).apex = s.apex := rfl
@[simp] theorem State.withLocus_assoc : (s.withLocus x).assoc = s.assoc := rfl
@[simp] theorem State.withLocus_cpr : (s.withLocus x).cpr = s.cpr := rfl
@[simp] theorem State.withLocus_periph : (s.withLocus x).periph = s.periph := rfl
@[simp] theorem State.withLocus_ports : (s.withLocus x).ports = s.ports := rfl
@[simp] theorem State.withLocus_lanes : (s.withLocus x).lanes = s.lanes := rfl
@[simp] theorem State.withLocus_twin : (s.withLocus x).twin = s.twin := rfl
@[simp] theorem State.withLocus_facet : (s.withLocus x).facet = s.facet := rfl
@[simp] theorem State.withLocus_tess : (s.withLocus x).tess = s.tess := rfl
@[simp] theorem State.withLocus_annulus : (s.withLocus x).annulus = s.annulus := rfl
@[simp] theorem State.withLocus_sector : (s.withLocus x).sector = s.sector := rfl
@[simp] theorem State.withLocus_radius : (s.withLocus x).radius = s.radius := rfl
@[simp] theorem State.withLocus_vertex : (s.withLocus x).vertex = s.vertex := rfl
@[simp] theorem State.withLocus_prism : (s.withLocus x).prism = s.prism := rfl
end

/-! ### withSector -/

section
variable (x : SectorState)
@[simp] theorem State.withSector_pending : (s.withSector x).pending = s.pending := rfl
@[simp] theorem State.withSector_freeCount : (s.withSector x).freeCount = s.freeCount := rfl
@[simp] theorem State.withSector_clk : (s.withSector x).clk = s.clk := rfl
@[simp] theorem State.withSector_out : (s.withSector x).out = s.out := rfl
@[simp] theorem State.withSector_readValue : (s.withSector x).readValue = s.readValue := rfl
@[simp] theorem State.withSector_regs : (s.withSector x).regs = s.regs := rfl
@[simp] theorem State.withSector_counters : (s.withSector x).counters = s.counters := rfl
@[simp] theorem State.withSector_once : (s.withSector x).once = s.once := rfl
@[simp] theorem State.withSector_mem : (s.withSector x).mem = s.mem := rfl
@[simp] theorem State.withSector_hull : (s.withSector x).hull = s.hull := rfl
@[simp] theorem State.withSector_rings : (s.withSector x).rings = s.rings := rfl
@[simp] theorem State.withSector_tele : (s.withSector x).tele = s.tele := rfl
@[simp] theorem State.withSector_gnomon : (s.withSector x).gnomon = s.gnomon := rfl
@[simp] theorem State.withSector_axis : (s.withSector x).axis = s.axis := rfl
@[simp] theorem State.withSector_apex : (s.withSector x).apex = s.apex := rfl
@[simp] theorem State.withSector_assoc : (s.withSector x).assoc = s.assoc := rfl
@[simp] theorem State.withSector_cpr : (s.withSector x).cpr = s.cpr := rfl
@[simp] theorem State.withSector_periph : (s.withSector x).periph = s.periph := rfl
@[simp] theorem State.withSector_ports : (s.withSector x).ports = s.ports := rfl
@[simp] theorem State.withSector_lanes : (s.withSector x).lanes = s.lanes := rfl
@[simp] theorem State.withSector_twin : (s.withSector x).twin = s.twin := rfl
@[simp] theorem State.withSector_facet : (s.withSector x).facet = s.facet := rfl
@[simp] theorem State.withSector_tess : (s.withSector x).tess = s.tess := rfl
@[simp] theorem State.withSector_annulus : (s.withSector x).annulus = s.annulus := rfl
@[simp] theorem State.withSector_locus : (s.withSector x).locus = s.locus := rfl
@[simp] theorem State.withSector_radius : (s.withSector x).radius = s.radius := rfl
@[simp] theorem State.withSector_vertex : (s.withSector x).vertex = s.vertex := rfl
@[simp] theorem State.withSector_prism : (s.withSector x).prism = s.prism := rfl
end

/-! ### setGate -/

section
variable (x : Nat) (g : GatePort)
@[simp] theorem State.setGate_pending : (s.setGate x g).pending = s.pending := rfl
@[simp] theorem State.setGate_freeCount : (s.setGate x g).freeCount = s.freeCount := rfl
@[simp] theorem State.setGate_clk : (s.setGate x g).clk = s.clk := rfl
@[simp] theorem State.setGate_out : (s.setGate x g).out = s.out := rfl
@[simp] theorem State.setGate_readValue : (s.setGate x g).readValue = s.readValue := rfl
@[simp] theorem State.setGate_regs : (s.setGate x g).regs = s.regs := rfl
@[simp] theorem State.setGate_counters : (s.setGate x g).counters = s.counters := rfl
@[simp] theorem State.setGate_once : (s.setGate x g).once = s.once := rfl
@[simp] theorem State.setGate_mem : (s.setGate x g).mem = s.mem := rfl
@[simp] theorem State.setGate_hull : (s.setGate x g).hull = s.hull := rfl
@[simp] theorem State.setGate_rings : (s.setGate x g).rings = s.rings := rfl
@[simp] theorem State.setGate_tele : (s.setGate x g).tele = s.tele := rfl
@[simp] theorem State.setGate_gnomon : (s.setGate x g).gnomon = s.gnomon := rfl
@[simp] theorem State.setGate_axis : (s.setGate x g).axis = s.axis := rfl
@[simp] theorem State.setGate_apex : (s.setGate x g).apex = s.apex := rfl
@[simp] theorem State.setGate_assoc : (s.setGate x g).assoc = s.assoc := rfl
@[simp] theorem State.setGate_cpr : (s.setGate x g).cpr = s.cpr := rfl
@[simp] theorem State.setGate_periph : (s.setGate x g).periph = s.periph := rfl
@[simp] theorem State.setGate_ports : (s.setGate x g).ports = s.ports := rfl
@[simp] theorem State.setGate_lanes : (s.setGate x g).lanes = s.lanes := rfl
@[simp] theorem State.setGate_twin : (s.setGate x g).twin = s.twin := rfl
@[simp] theorem State.setGate_facet : (s.setGate x g).facet = s.facet := rfl
@[simp] theorem State.setGate_tess : (s.setGate x g).tess = s.tess := rfl
@[simp] theorem State.setGate_annulus : (s.setGate x g).annulus = s.annulus := rfl
@[simp] theorem State.setGate_locus : (s.setGate x g).locus = s.locus := rfl
@[simp] theorem State.setGate_radius : (s.setGate x g).radius = s.radius := rfl
@[simp] theorem State.setGate_vertex : (s.setGate x g).vertex = s.vertex := rfl
@[simp] theorem State.setGate_prism : (s.setGate x g).prism = s.prism := rfl
end

/-! ### setLevel -/

section
variable (k : Nat) (i : Nat) (v : Int)
@[simp] theorem State.setLevel_pending : (s.setLevel k i v).pending = s.pending := rfl
@[simp] theorem State.setLevel_freeCount : (s.setLevel k i v).freeCount = s.freeCount := rfl
@[simp] theorem State.setLevel_clk : (s.setLevel k i v).clk = s.clk := rfl
@[simp] theorem State.setLevel_out : (s.setLevel k i v).out = s.out := rfl
@[simp] theorem State.setLevel_readValue : (s.setLevel k i v).readValue = s.readValue := rfl
@[simp] theorem State.setLevel_regs : (s.setLevel k i v).regs = s.regs := rfl
@[simp] theorem State.setLevel_counters : (s.setLevel k i v).counters = s.counters := rfl
@[simp] theorem State.setLevel_once : (s.setLevel k i v).once = s.once := rfl
@[simp] theorem State.setLevel_mem : (s.setLevel k i v).mem = s.mem := rfl
@[simp] theorem State.setLevel_hull : (s.setLevel k i v).hull = s.hull := rfl
@[simp] theorem State.setLevel_rings : (s.setLevel k i v).rings = s.rings := rfl
@[simp] theorem State.setLevel_tele : (s.setLevel k i v).tele = s.tele := rfl
@[simp] theorem State.setLevel_gnomon : (s.setLevel k i v).gnomon = s.gnomon := rfl
@[simp] theorem State.setLevel_axis : (s.setLevel k i v).axis = s.axis := rfl
@[simp] theorem State.setLevel_apex : (s.setLevel k i v).apex = s.apex := rfl
@[simp] theorem State.setLevel_assoc : (s.setLevel k i v).assoc = s.assoc := rfl
@[simp] theorem State.setLevel_cpr : (s.setLevel k i v).cpr = s.cpr := rfl
@[simp] theorem State.setLevel_periph : (s.setLevel k i v).periph = s.periph := rfl
@[simp] theorem State.setLevel_ports : (s.setLevel k i v).ports = s.ports := rfl
@[simp] theorem State.setLevel_lanes : (s.setLevel k i v).lanes = s.lanes := rfl
@[simp] theorem State.setLevel_twin : (s.setLevel k i v).twin = s.twin := rfl
@[simp] theorem State.setLevel_facet : (s.setLevel k i v).facet = s.facet := rfl
@[simp] theorem State.setLevel_tess : (s.setLevel k i v).tess = s.tess := rfl
@[simp] theorem State.setLevel_annulus : (s.setLevel k i v).annulus = s.annulus := rfl
@[simp] theorem State.setLevel_locus : (s.setLevel k i v).locus = s.locus := rfl
@[simp] theorem State.setLevel_radius : (s.setLevel k i v).radius = s.radius := rfl
@[simp] theorem State.setLevel_vertex : (s.setLevel k i v).vertex = s.vertex := rfl
@[simp] theorem State.setLevel_prism : (s.setLevel k i v).prism = s.prism := rfl
end

/-! ### setTag -/

section
variable (k : Nat) (t : Option (Nat × Nat))
@[simp] theorem State.setTag_pending : (s.setTag k t).pending = s.pending := rfl
@[simp] theorem State.setTag_freeCount : (s.setTag k t).freeCount = s.freeCount := rfl
@[simp] theorem State.setTag_clk : (s.setTag k t).clk = s.clk := rfl
@[simp] theorem State.setTag_out : (s.setTag k t).out = s.out := rfl
@[simp] theorem State.setTag_readValue : (s.setTag k t).readValue = s.readValue := rfl
@[simp] theorem State.setTag_regs : (s.setTag k t).regs = s.regs := rfl
@[simp] theorem State.setTag_counters : (s.setTag k t).counters = s.counters := rfl
@[simp] theorem State.setTag_once : (s.setTag k t).once = s.once := rfl
@[simp] theorem State.setTag_mem : (s.setTag k t).mem = s.mem := rfl
@[simp] theorem State.setTag_hull : (s.setTag k t).hull = s.hull := rfl
@[simp] theorem State.setTag_rings : (s.setTag k t).rings = s.rings := rfl
@[simp] theorem State.setTag_tele : (s.setTag k t).tele = s.tele := rfl
@[simp] theorem State.setTag_gnomon : (s.setTag k t).gnomon = s.gnomon := rfl
@[simp] theorem State.setTag_axis : (s.setTag k t).axis = s.axis := rfl
@[simp] theorem State.setTag_apex : (s.setTag k t).apex = s.apex := rfl
@[simp] theorem State.setTag_assoc : (s.setTag k t).assoc = s.assoc := rfl
@[simp] theorem State.setTag_cpr : (s.setTag k t).cpr = s.cpr := rfl
@[simp] theorem State.setTag_periph : (s.setTag k t).periph = s.periph := rfl
@[simp] theorem State.setTag_ports : (s.setTag k t).ports = s.ports := rfl
@[simp] theorem State.setTag_lanes : (s.setTag k t).lanes = s.lanes := rfl
@[simp] theorem State.setTag_twin : (s.setTag k t).twin = s.twin := rfl
@[simp] theorem State.setTag_facet : (s.setTag k t).facet = s.facet := rfl
@[simp] theorem State.setTag_tess : (s.setTag k t).tess = s.tess := rfl
@[simp] theorem State.setTag_annulus : (s.setTag k t).annulus = s.annulus := rfl
@[simp] theorem State.setTag_locus : (s.setTag k t).locus = s.locus := rfl
@[simp] theorem State.setTag_radius : (s.setTag k t).radius = s.radius := rfl
@[simp] theorem State.setTag_vertex : (s.setTag k t).vertex = s.vertex := rfl
@[simp] theorem State.setTag_prism : (s.setTag k t).prism = s.prism := rfl
end

/-! ### setSq -/

section
variable (side : Nat) (q : Nat) (l : List QEntry)
@[simp] theorem State.setSq_pending : (s.setSq side q l).pending = s.pending := rfl
@[simp] theorem State.setSq_freeCount : (s.setSq side q l).freeCount = s.freeCount := rfl
@[simp] theorem State.setSq_clk : (s.setSq side q l).clk = s.clk := rfl
@[simp] theorem State.setSq_out : (s.setSq side q l).out = s.out := rfl
@[simp] theorem State.setSq_readValue : (s.setSq side q l).readValue = s.readValue := rfl
@[simp] theorem State.setSq_regs : (s.setSq side q l).regs = s.regs := rfl
@[simp] theorem State.setSq_counters : (s.setSq side q l).counters = s.counters := rfl
@[simp] theorem State.setSq_once : (s.setSq side q l).once = s.once := rfl
@[simp] theorem State.setSq_mem : (s.setSq side q l).mem = s.mem := rfl
@[simp] theorem State.setSq_hull : (s.setSq side q l).hull = s.hull := rfl
@[simp] theorem State.setSq_rings : (s.setSq side q l).rings = s.rings := rfl
@[simp] theorem State.setSq_tele : (s.setSq side q l).tele = s.tele := rfl
@[simp] theorem State.setSq_gnomon : (s.setSq side q l).gnomon = s.gnomon := rfl
@[simp] theorem State.setSq_axis : (s.setSq side q l).axis = s.axis := rfl
@[simp] theorem State.setSq_apex : (s.setSq side q l).apex = s.apex := rfl
@[simp] theorem State.setSq_assoc : (s.setSq side q l).assoc = s.assoc := rfl
@[simp] theorem State.setSq_cpr : (s.setSq side q l).cpr = s.cpr := rfl
@[simp] theorem State.setSq_periph : (s.setSq side q l).periph = s.periph := rfl
@[simp] theorem State.setSq_ports : (s.setSq side q l).ports = s.ports := rfl
@[simp] theorem State.setSq_lanes : (s.setSq side q l).lanes = s.lanes := rfl
@[simp] theorem State.setSq_twin : (s.setSq side q l).twin = s.twin := rfl
@[simp] theorem State.setSq_facet : (s.setSq side q l).facet = s.facet := rfl
@[simp] theorem State.setSq_tess : (s.setSq side q l).tess = s.tess := rfl
@[simp] theorem State.setSq_annulus : (s.setSq side q l).annulus = s.annulus := rfl
@[simp] theorem State.setSq_locus : (s.setSq side q l).locus = s.locus := rfl
@[simp] theorem State.setSq_radius : (s.setSq side q l).radius = s.radius := rfl
@[simp] theorem State.setSq_vertex : (s.setSq side q l).vertex = s.vertex := rfl
@[simp] theorem State.setSq_prism : (s.setSq side q l).prism = s.prism := rfl
end

/-! ### withRadius -/

section
variable (r : RadiusState)
@[simp] theorem State.withRadius_pending : (s.withRadius r).pending = s.pending := rfl
@[simp] theorem State.withRadius_freeCount : (s.withRadius r).freeCount = s.freeCount := rfl
@[simp] theorem State.withRadius_clk : (s.withRadius r).clk = s.clk := rfl
@[simp] theorem State.withRadius_out : (s.withRadius r).out = s.out := rfl
@[simp] theorem State.withRadius_readValue : (s.withRadius r).readValue = s.readValue := rfl
@[simp] theorem State.withRadius_regs : (s.withRadius r).regs = s.regs := rfl
@[simp] theorem State.withRadius_counters : (s.withRadius r).counters = s.counters := rfl
@[simp] theorem State.withRadius_once : (s.withRadius r).once = s.once := rfl
@[simp] theorem State.withRadius_mem : (s.withRadius r).mem = s.mem := rfl
@[simp] theorem State.withRadius_hull : (s.withRadius r).hull = s.hull := rfl
@[simp] theorem State.withRadius_rings : (s.withRadius r).rings = s.rings := rfl
@[simp] theorem State.withRadius_tele : (s.withRadius r).tele = s.tele := rfl
@[simp] theorem State.withRadius_gnomon : (s.withRadius r).gnomon = s.gnomon := rfl
@[simp] theorem State.withRadius_axis : (s.withRadius r).axis = s.axis := rfl
@[simp] theorem State.withRadius_apex : (s.withRadius r).apex = s.apex := rfl
@[simp] theorem State.withRadius_assoc : (s.withRadius r).assoc = s.assoc := rfl
@[simp] theorem State.withRadius_cpr : (s.withRadius r).cpr = s.cpr := rfl
@[simp] theorem State.withRadius_periph : (s.withRadius r).periph = s.periph := rfl
@[simp] theorem State.withRadius_ports : (s.withRadius r).ports = s.ports := rfl
@[simp] theorem State.withRadius_lanes : (s.withRadius r).lanes = s.lanes := rfl
@[simp] theorem State.withRadius_twin : (s.withRadius r).twin = s.twin := rfl
@[simp] theorem State.withRadius_facet : (s.withRadius r).facet = s.facet := rfl
@[simp] theorem State.withRadius_tess : (s.withRadius r).tess = s.tess := rfl
@[simp] theorem State.withRadius_annulus : (s.withRadius r).annulus = s.annulus := rfl
@[simp] theorem State.withRadius_locus : (s.withRadius r).locus = s.locus := rfl
@[simp] theorem State.withRadius_sector : (s.withRadius r).sector = s.sector := rfl
@[simp] theorem State.withRadius_vertex : (s.withRadius r).vertex = s.vertex := rfl
@[simp] theorem State.withRadius_prism : (s.withRadius r).prism = s.prism := rfl
end

/-! ### modRItem -/

section
variable (id : Nat) (f : RItem → RItem)
@[simp] theorem State.modRItem_pending : (s.modRItem id f).pending = s.pending := rfl
@[simp] theorem State.modRItem_freeCount : (s.modRItem id f).freeCount = s.freeCount := rfl
@[simp] theorem State.modRItem_clk : (s.modRItem id f).clk = s.clk := rfl
@[simp] theorem State.modRItem_out : (s.modRItem id f).out = s.out := rfl
@[simp] theorem State.modRItem_readValue : (s.modRItem id f).readValue = s.readValue := rfl
@[simp] theorem State.modRItem_regs : (s.modRItem id f).regs = s.regs := rfl
@[simp] theorem State.modRItem_counters : (s.modRItem id f).counters = s.counters := rfl
@[simp] theorem State.modRItem_once : (s.modRItem id f).once = s.once := rfl
@[simp] theorem State.modRItem_mem : (s.modRItem id f).mem = s.mem := rfl
@[simp] theorem State.modRItem_hull : (s.modRItem id f).hull = s.hull := rfl
@[simp] theorem State.modRItem_rings : (s.modRItem id f).rings = s.rings := rfl
@[simp] theorem State.modRItem_tele : (s.modRItem id f).tele = s.tele := rfl
@[simp] theorem State.modRItem_gnomon : (s.modRItem id f).gnomon = s.gnomon := rfl
@[simp] theorem State.modRItem_axis : (s.modRItem id f).axis = s.axis := rfl
@[simp] theorem State.modRItem_apex : (s.modRItem id f).apex = s.apex := rfl
@[simp] theorem State.modRItem_assoc : (s.modRItem id f).assoc = s.assoc := rfl
@[simp] theorem State.modRItem_cpr : (s.modRItem id f).cpr = s.cpr := rfl
@[simp] theorem State.modRItem_periph : (s.modRItem id f).periph = s.periph := rfl
@[simp] theorem State.modRItem_ports : (s.modRItem id f).ports = s.ports := rfl
@[simp] theorem State.modRItem_lanes : (s.modRItem id f).lanes = s.lanes := rfl
@[simp] theorem State.modRItem_twin : (s.modRItem id f).twin = s.twin := rfl
@[simp] theorem State.modRItem_facet : (s.modRItem id f).facet = s.facet := rfl
@[simp] theorem State.modRItem_tess : (s.modRItem id f).tess = s.tess := rfl
@[simp] theorem State.modRItem_annulus : (s.modRItem id f).annulus = s.annulus := rfl
@[simp] theorem State.modRItem_locus : (s.modRItem id f).locus = s.locus := rfl
@[simp] theorem State.modRItem_sector : (s.modRItem id f).sector = s.sector := rfl
@[simp] theorem State.modRItem_vertex : (s.modRItem id f).vertex = s.vertex := rfl
@[simp] theorem State.modRItem_prism : (s.modRItem id f).prism = s.prism := rfl
end

/-! ### setCluster -/

section
variable (c : Nat) (x : Cluster)
@[simp] theorem State.setCluster_pending : (s.setCluster c x).pending = s.pending := rfl
@[simp] theorem State.setCluster_freeCount : (s.setCluster c x).freeCount = s.freeCount := rfl
@[simp] theorem State.setCluster_clk : (s.setCluster c x).clk = s.clk := rfl
@[simp] theorem State.setCluster_out : (s.setCluster c x).out = s.out := rfl
@[simp] theorem State.setCluster_readValue : (s.setCluster c x).readValue = s.readValue := rfl
@[simp] theorem State.setCluster_regs : (s.setCluster c x).regs = s.regs := rfl
@[simp] theorem State.setCluster_counters : (s.setCluster c x).counters = s.counters := rfl
@[simp] theorem State.setCluster_once : (s.setCluster c x).once = s.once := rfl
@[simp] theorem State.setCluster_mem : (s.setCluster c x).mem = s.mem := rfl
@[simp] theorem State.setCluster_hull : (s.setCluster c x).hull = s.hull := rfl
@[simp] theorem State.setCluster_rings : (s.setCluster c x).rings = s.rings := rfl
@[simp] theorem State.setCluster_tele : (s.setCluster c x).tele = s.tele := rfl
@[simp] theorem State.setCluster_gnomon : (s.setCluster c x).gnomon = s.gnomon := rfl
@[simp] theorem State.setCluster_axis : (s.setCluster c x).axis = s.axis := rfl
@[simp] theorem State.setCluster_apex : (s.setCluster c x).apex = s.apex := rfl
@[simp] theorem State.setCluster_assoc : (s.setCluster c x).assoc = s.assoc := rfl
@[simp] theorem State.setCluster_cpr : (s.setCluster c x).cpr = s.cpr := rfl
@[simp] theorem State.setCluster_periph : (s.setCluster c x).periph = s.periph := rfl
@[simp] theorem State.setCluster_ports : (s.setCluster c x).ports = s.ports := rfl
@[simp] theorem State.setCluster_lanes : (s.setCluster c x).lanes = s.lanes := rfl
@[simp] theorem State.setCluster_twin : (s.setCluster c x).twin = s.twin := rfl
@[simp] theorem State.setCluster_facet : (s.setCluster c x).facet = s.facet := rfl
@[simp] theorem State.setCluster_tess : (s.setCluster c x).tess = s.tess := rfl
@[simp] theorem State.setCluster_annulus : (s.setCluster c x).annulus = s.annulus := rfl
@[simp] theorem State.setCluster_locus : (s.setCluster c x).locus = s.locus := rfl
@[simp] theorem State.setCluster_sector : (s.setCluster c x).sector = s.sector := rfl
@[simp] theorem State.setCluster_radius : (s.setCluster c x).radius = s.radius := rfl
@[simp] theorem State.setCluster_prism : (s.setCluster c x).prism = s.prism := rfl
end

/-! ### setThread -/

section
variable (c : Nat) (k : Nat) (x : Thread)
@[simp] theorem State.setThread_pending : (s.setThread c k x).pending = s.pending := rfl
@[simp] theorem State.setThread_freeCount : (s.setThread c k x).freeCount = s.freeCount := rfl
@[simp] theorem State.setThread_clk : (s.setThread c k x).clk = s.clk := rfl
@[simp] theorem State.setThread_out : (s.setThread c k x).out = s.out := rfl
@[simp] theorem State.setThread_readValue : (s.setThread c k x).readValue = s.readValue := rfl
@[simp] theorem State.setThread_regs : (s.setThread c k x).regs = s.regs := rfl
@[simp] theorem State.setThread_counters : (s.setThread c k x).counters = s.counters := rfl
@[simp] theorem State.setThread_once : (s.setThread c k x).once = s.once := rfl
@[simp] theorem State.setThread_mem : (s.setThread c k x).mem = s.mem := rfl
@[simp] theorem State.setThread_hull : (s.setThread c k x).hull = s.hull := rfl
@[simp] theorem State.setThread_rings : (s.setThread c k x).rings = s.rings := rfl
@[simp] theorem State.setThread_tele : (s.setThread c k x).tele = s.tele := rfl
@[simp] theorem State.setThread_gnomon : (s.setThread c k x).gnomon = s.gnomon := rfl
@[simp] theorem State.setThread_axis : (s.setThread c k x).axis = s.axis := rfl
@[simp] theorem State.setThread_apex : (s.setThread c k x).apex = s.apex := rfl
@[simp] theorem State.setThread_assoc : (s.setThread c k x).assoc = s.assoc := rfl
@[simp] theorem State.setThread_cpr : (s.setThread c k x).cpr = s.cpr := rfl
@[simp] theorem State.setThread_periph : (s.setThread c k x).periph = s.periph := rfl
@[simp] theorem State.setThread_ports : (s.setThread c k x).ports = s.ports := rfl
@[simp] theorem State.setThread_lanes : (s.setThread c k x).lanes = s.lanes := rfl
@[simp] theorem State.setThread_twin : (s.setThread c k x).twin = s.twin := rfl
@[simp] theorem State.setThread_facet : (s.setThread c k x).facet = s.facet := rfl
@[simp] theorem State.setThread_tess : (s.setThread c k x).tess = s.tess := rfl
@[simp] theorem State.setThread_annulus : (s.setThread c k x).annulus = s.annulus := rfl
@[simp] theorem State.setThread_locus : (s.setThread c k x).locus = s.locus := rfl
@[simp] theorem State.setThread_sector : (s.setThread c k x).sector = s.sector := rfl
@[simp] theorem State.setThread_radius : (s.setThread c k x).radius = s.radius := rfl
@[simp] theorem State.setThread_prism : (s.setThread c k x).prism = s.prism := rfl
end

/-! ### modThread -/

section
variable (c : Nat) (k : Nat) (f : Thread → Thread)
@[simp] theorem State.modThread_pending : (s.modThread c k f).pending = s.pending := rfl
@[simp] theorem State.modThread_freeCount : (s.modThread c k f).freeCount = s.freeCount := rfl
@[simp] theorem State.modThread_clk : (s.modThread c k f).clk = s.clk := rfl
@[simp] theorem State.modThread_out : (s.modThread c k f).out = s.out := rfl
@[simp] theorem State.modThread_readValue : (s.modThread c k f).readValue = s.readValue := rfl
@[simp] theorem State.modThread_regs : (s.modThread c k f).regs = s.regs := rfl
@[simp] theorem State.modThread_counters : (s.modThread c k f).counters = s.counters := rfl
@[simp] theorem State.modThread_once : (s.modThread c k f).once = s.once := rfl
@[simp] theorem State.modThread_mem : (s.modThread c k f).mem = s.mem := rfl
@[simp] theorem State.modThread_hull : (s.modThread c k f).hull = s.hull := rfl
@[simp] theorem State.modThread_rings : (s.modThread c k f).rings = s.rings := rfl
@[simp] theorem State.modThread_tele : (s.modThread c k f).tele = s.tele := rfl
@[simp] theorem State.modThread_gnomon : (s.modThread c k f).gnomon = s.gnomon := rfl
@[simp] theorem State.modThread_axis : (s.modThread c k f).axis = s.axis := rfl
@[simp] theorem State.modThread_apex : (s.modThread c k f).apex = s.apex := rfl
@[simp] theorem State.modThread_assoc : (s.modThread c k f).assoc = s.assoc := rfl
@[simp] theorem State.modThread_cpr : (s.modThread c k f).cpr = s.cpr := rfl
@[simp] theorem State.modThread_periph : (s.modThread c k f).periph = s.periph := rfl
@[simp] theorem State.modThread_ports : (s.modThread c k f).ports = s.ports := rfl
@[simp] theorem State.modThread_lanes : (s.modThread c k f).lanes = s.lanes := rfl
@[simp] theorem State.modThread_twin : (s.modThread c k f).twin = s.twin := rfl
@[simp] theorem State.modThread_facet : (s.modThread c k f).facet = s.facet := rfl
@[simp] theorem State.modThread_tess : (s.modThread c k f).tess = s.tess := rfl
@[simp] theorem State.modThread_annulus : (s.modThread c k f).annulus = s.annulus := rfl
@[simp] theorem State.modThread_locus : (s.modThread c k f).locus = s.locus := rfl
@[simp] theorem State.modThread_sector : (s.modThread c k f).sector = s.sector := rfl
@[simp] theorem State.modThread_radius : (s.modThread c k f).radius = s.radius := rfl
@[simp] theorem State.modThread_prism : (s.modThread c k f).prism = s.prism := rfl
end

/-! ### setParams -/

section
variable (c : Nat) (sub : Nat) (bs : List Byte)
@[simp] theorem State.setParams_pending : (s.setParams c sub bs).pending = s.pending := rfl
@[simp] theorem State.setParams_freeCount : (s.setParams c sub bs).freeCount = s.freeCount := rfl
@[simp] theorem State.setParams_clk : (s.setParams c sub bs).clk = s.clk := rfl
@[simp] theorem State.setParams_out : (s.setParams c sub bs).out = s.out := rfl
@[simp] theorem State.setParams_readValue : (s.setParams c sub bs).readValue = s.readValue := rfl
@[simp] theorem State.setParams_regs : (s.setParams c sub bs).regs = s.regs := rfl
@[simp] theorem State.setParams_counters : (s.setParams c sub bs).counters = s.counters := rfl
@[simp] theorem State.setParams_once : (s.setParams c sub bs).once = s.once := rfl
@[simp] theorem State.setParams_mem : (s.setParams c sub bs).mem = s.mem := rfl
@[simp] theorem State.setParams_hull : (s.setParams c sub bs).hull = s.hull := rfl
@[simp] theorem State.setParams_rings : (s.setParams c sub bs).rings = s.rings := rfl
@[simp] theorem State.setParams_tele : (s.setParams c sub bs).tele = s.tele := rfl
@[simp] theorem State.setParams_gnomon : (s.setParams c sub bs).gnomon = s.gnomon := rfl
@[simp] theorem State.setParams_axis : (s.setParams c sub bs).axis = s.axis := rfl
@[simp] theorem State.setParams_apex : (s.setParams c sub bs).apex = s.apex := rfl
@[simp] theorem State.setParams_assoc : (s.setParams c sub bs).assoc = s.assoc := rfl
@[simp] theorem State.setParams_cpr : (s.setParams c sub bs).cpr = s.cpr := rfl
@[simp] theorem State.setParams_periph : (s.setParams c sub bs).periph = s.periph := rfl
@[simp] theorem State.setParams_ports : (s.setParams c sub bs).ports = s.ports := rfl
@[simp] theorem State.setParams_lanes : (s.setParams c sub bs).lanes = s.lanes := rfl
@[simp] theorem State.setParams_twin : (s.setParams c sub bs).twin = s.twin := rfl
@[simp] theorem State.setParams_facet : (s.setParams c sub bs).facet = s.facet := rfl
@[simp] theorem State.setParams_tess : (s.setParams c sub bs).tess = s.tess := rfl
@[simp] theorem State.setParams_annulus : (s.setParams c sub bs).annulus = s.annulus := rfl
@[simp] theorem State.setParams_locus : (s.setParams c sub bs).locus = s.locus := rfl
@[simp] theorem State.setParams_sector : (s.setParams c sub bs).sector = s.sector := rfl
@[simp] theorem State.setParams_radius : (s.setParams c sub bs).radius = s.radius := rfl
@[simp] theorem State.setParams_prism : (s.setParams c sub bs).prism = s.prism := rfl
end

/-! ### noteIssue -/

section
variable (c : Nat) (k : Nat) (pc : Nat) (w : BitVec 64) (second : Bool)
@[simp] theorem State.noteIssue_pending : (s.noteIssue c k pc w second).pending = s.pending := rfl
@[simp] theorem State.noteIssue_freeCount : (s.noteIssue c k pc w second).freeCount = s.freeCount := rfl
@[simp] theorem State.noteIssue_clk : (s.noteIssue c k pc w second).clk = s.clk := rfl
@[simp] theorem State.noteIssue_out : (s.noteIssue c k pc w second).out = s.out := rfl
@[simp] theorem State.noteIssue_readValue : (s.noteIssue c k pc w second).readValue = s.readValue := rfl
@[simp] theorem State.noteIssue_regs : (s.noteIssue c k pc w second).regs = s.regs := rfl
@[simp] theorem State.noteIssue_counters : (s.noteIssue c k pc w second).counters = s.counters := rfl
@[simp] theorem State.noteIssue_once : (s.noteIssue c k pc w second).once = s.once := rfl
@[simp] theorem State.noteIssue_mem : (s.noteIssue c k pc w second).mem = s.mem := rfl
@[simp] theorem State.noteIssue_hull : (s.noteIssue c k pc w second).hull = s.hull := rfl
@[simp] theorem State.noteIssue_rings : (s.noteIssue c k pc w second).rings = s.rings := rfl
@[simp] theorem State.noteIssue_tele : (s.noteIssue c k pc w second).tele = s.tele := rfl
@[simp] theorem State.noteIssue_gnomon : (s.noteIssue c k pc w second).gnomon = s.gnomon := rfl
@[simp] theorem State.noteIssue_axis : (s.noteIssue c k pc w second).axis = s.axis := rfl
@[simp] theorem State.noteIssue_apex : (s.noteIssue c k pc w second).apex = s.apex := rfl
@[simp] theorem State.noteIssue_assoc : (s.noteIssue c k pc w second).assoc = s.assoc := rfl
@[simp] theorem State.noteIssue_cpr : (s.noteIssue c k pc w second).cpr = s.cpr := rfl
@[simp] theorem State.noteIssue_periph : (s.noteIssue c k pc w second).periph = s.periph := rfl
@[simp] theorem State.noteIssue_ports : (s.noteIssue c k pc w second).ports = s.ports := rfl
@[simp] theorem State.noteIssue_lanes : (s.noteIssue c k pc w second).lanes = s.lanes := rfl
@[simp] theorem State.noteIssue_twin : (s.noteIssue c k pc w second).twin = s.twin := rfl
@[simp] theorem State.noteIssue_facet : (s.noteIssue c k pc w second).facet = s.facet := rfl
@[simp] theorem State.noteIssue_tess : (s.noteIssue c k pc w second).tess = s.tess := rfl
@[simp] theorem State.noteIssue_annulus : (s.noteIssue c k pc w second).annulus = s.annulus := rfl
@[simp] theorem State.noteIssue_locus : (s.noteIssue c k pc w second).locus = s.locus := rfl
@[simp] theorem State.noteIssue_sector : (s.noteIssue c k pc w second).sector = s.sector := rfl
@[simp] theorem State.noteIssue_radius : (s.noteIssue c k pc w second).radius = s.radius := rfl
@[simp] theorem State.noteIssue_prism : (s.noteIssue c k pc w second).prism = s.prism := rfl
end

/-! ### setUnit -/

section
variable (n : Nat) (u : PrismUnit)
@[simp] theorem State.setUnit_pending : (s.setUnit n u).pending = s.pending := rfl
@[simp] theorem State.setUnit_freeCount : (s.setUnit n u).freeCount = s.freeCount := rfl
@[simp] theorem State.setUnit_clk : (s.setUnit n u).clk = s.clk := rfl
@[simp] theorem State.setUnit_out : (s.setUnit n u).out = s.out := rfl
@[simp] theorem State.setUnit_readValue : (s.setUnit n u).readValue = s.readValue := rfl
@[simp] theorem State.setUnit_regs : (s.setUnit n u).regs = s.regs := rfl
@[simp] theorem State.setUnit_counters : (s.setUnit n u).counters = s.counters := rfl
@[simp] theorem State.setUnit_once : (s.setUnit n u).once = s.once := rfl
@[simp] theorem State.setUnit_mem : (s.setUnit n u).mem = s.mem := rfl
@[simp] theorem State.setUnit_hull : (s.setUnit n u).hull = s.hull := rfl
@[simp] theorem State.setUnit_rings : (s.setUnit n u).rings = s.rings := rfl
@[simp] theorem State.setUnit_tele : (s.setUnit n u).tele = s.tele := rfl
@[simp] theorem State.setUnit_gnomon : (s.setUnit n u).gnomon = s.gnomon := rfl
@[simp] theorem State.setUnit_axis : (s.setUnit n u).axis = s.axis := rfl
@[simp] theorem State.setUnit_apex : (s.setUnit n u).apex = s.apex := rfl
@[simp] theorem State.setUnit_assoc : (s.setUnit n u).assoc = s.assoc := rfl
@[simp] theorem State.setUnit_cpr : (s.setUnit n u).cpr = s.cpr := rfl
@[simp] theorem State.setUnit_periph : (s.setUnit n u).periph = s.periph := rfl
@[simp] theorem State.setUnit_ports : (s.setUnit n u).ports = s.ports := rfl
@[simp] theorem State.setUnit_lanes : (s.setUnit n u).lanes = s.lanes := rfl
@[simp] theorem State.setUnit_twin : (s.setUnit n u).twin = s.twin := rfl
@[simp] theorem State.setUnit_facet : (s.setUnit n u).facet = s.facet := rfl
@[simp] theorem State.setUnit_tess : (s.setUnit n u).tess = s.tess := rfl
@[simp] theorem State.setUnit_annulus : (s.setUnit n u).annulus = s.annulus := rfl
@[simp] theorem State.setUnit_locus : (s.setUnit n u).locus = s.locus := rfl
@[simp] theorem State.setUnit_sector : (s.setUnit n u).sector = s.sector := rfl
@[simp] theorem State.setUnit_radius : (s.setUnit n u).radius = s.radius := rfl
@[simp] theorem State.setUnit_vertex : (s.setUnit n u).vertex = s.vertex := rfl
end

/-! ### modItem -/

section
variable (n : Nat) (q : Nat) (f : Item → Item)
@[simp] theorem State.modItem_pending : (s.modItem n q f).pending = s.pending := rfl
@[simp] theorem State.modItem_freeCount : (s.modItem n q f).freeCount = s.freeCount := rfl
@[simp] theorem State.modItem_clk : (s.modItem n q f).clk = s.clk := rfl
@[simp] theorem State.modItem_out : (s.modItem n q f).out = s.out := rfl
@[simp] theorem State.modItem_readValue : (s.modItem n q f).readValue = s.readValue := rfl
@[simp] theorem State.modItem_regs : (s.modItem n q f).regs = s.regs := rfl
@[simp] theorem State.modItem_counters : (s.modItem n q f).counters = s.counters := rfl
@[simp] theorem State.modItem_once : (s.modItem n q f).once = s.once := rfl
@[simp] theorem State.modItem_mem : (s.modItem n q f).mem = s.mem := rfl
@[simp] theorem State.modItem_hull : (s.modItem n q f).hull = s.hull := rfl
@[simp] theorem State.modItem_rings : (s.modItem n q f).rings = s.rings := rfl
@[simp] theorem State.modItem_tele : (s.modItem n q f).tele = s.tele := rfl
@[simp] theorem State.modItem_gnomon : (s.modItem n q f).gnomon = s.gnomon := rfl
@[simp] theorem State.modItem_axis : (s.modItem n q f).axis = s.axis := rfl
@[simp] theorem State.modItem_apex : (s.modItem n q f).apex = s.apex := rfl
@[simp] theorem State.modItem_assoc : (s.modItem n q f).assoc = s.assoc := rfl
@[simp] theorem State.modItem_cpr : (s.modItem n q f).cpr = s.cpr := rfl
@[simp] theorem State.modItem_periph : (s.modItem n q f).periph = s.periph := rfl
@[simp] theorem State.modItem_ports : (s.modItem n q f).ports = s.ports := rfl
@[simp] theorem State.modItem_lanes : (s.modItem n q f).lanes = s.lanes := rfl
@[simp] theorem State.modItem_twin : (s.modItem n q f).twin = s.twin := rfl
@[simp] theorem State.modItem_facet : (s.modItem n q f).facet = s.facet := rfl
@[simp] theorem State.modItem_tess : (s.modItem n q f).tess = s.tess := rfl
@[simp] theorem State.modItem_annulus : (s.modItem n q f).annulus = s.annulus := rfl
@[simp] theorem State.modItem_locus : (s.modItem n q f).locus = s.locus := rfl
@[simp] theorem State.modItem_sector : (s.modItem n q f).sector = s.sector := rfl
@[simp] theorem State.modItem_radius : (s.modItem n q f).radius = s.radius := rfl
@[simp] theorem State.modItem_vertex : (s.modItem n q f).vertex = s.vertex := rfl
end

/-! ### addItem -/

section
variable (n : Nat) (i : Item)
@[simp] theorem State.addItem_pending : (s.addItem n i).pending = s.pending := rfl
@[simp] theorem State.addItem_freeCount : (s.addItem n i).freeCount = s.freeCount := rfl
@[simp] theorem State.addItem_clk : (s.addItem n i).clk = s.clk := rfl
@[simp] theorem State.addItem_out : (s.addItem n i).out = s.out := rfl
@[simp] theorem State.addItem_readValue : (s.addItem n i).readValue = s.readValue := rfl
@[simp] theorem State.addItem_regs : (s.addItem n i).regs = s.regs := rfl
@[simp] theorem State.addItem_counters : (s.addItem n i).counters = s.counters := rfl
@[simp] theorem State.addItem_once : (s.addItem n i).once = s.once := rfl
@[simp] theorem State.addItem_mem : (s.addItem n i).mem = s.mem := rfl
@[simp] theorem State.addItem_hull : (s.addItem n i).hull = s.hull := rfl
@[simp] theorem State.addItem_rings : (s.addItem n i).rings = s.rings := rfl
@[simp] theorem State.addItem_tele : (s.addItem n i).tele = s.tele := rfl
@[simp] theorem State.addItem_gnomon : (s.addItem n i).gnomon = s.gnomon := rfl
@[simp] theorem State.addItem_axis : (s.addItem n i).axis = s.axis := rfl
@[simp] theorem State.addItem_apex : (s.addItem n i).apex = s.apex := rfl
@[simp] theorem State.addItem_assoc : (s.addItem n i).assoc = s.assoc := rfl
@[simp] theorem State.addItem_cpr : (s.addItem n i).cpr = s.cpr := rfl
@[simp] theorem State.addItem_periph : (s.addItem n i).periph = s.periph := rfl
@[simp] theorem State.addItem_ports : (s.addItem n i).ports = s.ports := rfl
@[simp] theorem State.addItem_lanes : (s.addItem n i).lanes = s.lanes := rfl
@[simp] theorem State.addItem_twin : (s.addItem n i).twin = s.twin := rfl
@[simp] theorem State.addItem_facet : (s.addItem n i).facet = s.facet := rfl
@[simp] theorem State.addItem_tess : (s.addItem n i).tess = s.tess := rfl
@[simp] theorem State.addItem_annulus : (s.addItem n i).annulus = s.annulus := rfl
@[simp] theorem State.addItem_locus : (s.addItem n i).locus = s.locus := rfl
@[simp] theorem State.addItem_sector : (s.addItem n i).sector = s.sector := rfl
@[simp] theorem State.addItem_radius : (s.addItem n i).radius = s.radius := rfl
@[simp] theorem State.addItem_vertex : (s.addItem n i).vertex = s.vertex := rfl
end

/-! ### An entry after it is replaced -/

@[simp] theorem State.reg_setReg (off : Nat) (x : BitVec 32) : (s.setReg off x).reg off = x := by
  simp [State.reg, State.setReg]

@[simp] theorem State.lport_setLport (lp : Nat) (x : LPort) : (s.setLport lp x).lport lp = x := by
  simp [State.lport, State.setLport]

@[simp] theorem State.lane_setLane (k : Nat) (x : LaneUnit) : (s.setLane k x).lane k = x := by
  simp [State.lane, State.setLane]

@[simp] theorem State.ring_setRing (k : RingKind) (r : Nat) (x : Ring) : (s.setRing k r x).ring k r = x := by
  simp [State.ring, State.setRing]

@[simp] theorem State.sa_setSa (h : Nat) (x : Assoc) : (s.setSa h x).sa h = x := by
  simp [State.sa, State.setSa]

@[simp] theorem State.facetPort_setFacet (n : Nat) (x : FacetPort) : (s.setFacet n x).facetPort n = x := by
  simp [State.facetPort, State.setFacet]

@[simp] theorem State.region_setRegion (k : Nat) (x : Region) : (s.setRegion k x).region k = x := by
  simp [State.region, State.setRegion]

@[simp] theorem State.cluster_setCluster (c : Nat) (x : Cluster) : (s.setCluster c x).cluster c = x := by
  simp [State.cluster, State.setCluster]

@[simp] theorem State.thread_setThread (c : Nat) (k : Nat) (x : Thread) : (s.setThread c k x).thread c k = x := by
  simp [State.thread, State.setThread]

@[simp] theorem State.unit_setUnit (n : Nat) (x : PrismUnit) : (s.setUnit n x).unit n = x := by
  simp [State.unit, State.setUnit]

@[simp] theorem State.gate_setGate (k : Nat) (x : GatePort) : (s.setGate k x).gate k = x := by
  simp [State.gate, State.setGate, State.withSector]

@[simp] theorem State.sq_setSq (side : Nat) (q : Nat) (x : List QEntry) : (s.setSq side q x).sq side q = x := by
  simp [State.sq, State.setSq, State.withSector]

@[simp] theorem State.aq_setAq (q : Nat) (x : AQueue) : (s.setAq q x).aq q = x := by
  simp [State.aq, State.setAq]

@[simp] theorem State.uart_setUart (k : Nat) (x : Uart) : (s.setUart k x).uart k = x := by
  simp [State.uart, State.setUart]

@[simp] theorem State.i2c_setI2c (k : Nat) (x : I2c) : (s.setI2c k x).i2c k = x := by
  simp [State.i2c, State.setI2c]

theorem State.reg_setReg_ne {off j : Nat} (h : j ≠ off) (x : BitVec 32) : (s.setReg off x).reg j = s.reg j := by
  unfold State.reg State.setReg tput
  split
  · rw [tget_tdel, if_neg h]
  · rw [tget_tins, if_neg h]

theorem State.sa_setSa_ne {h j : Nat} (e : j ≠ h) (a : Assoc) : (s.setSa h a).sa j = s.sa j := tget_tput_ne _ _ e a

theorem State.lport_setLport_ne {lp j : Nat} (e : j ≠ lp) (x : LPort) : (s.setLport lp x).lport j = s.lport j := tget_tput_ne _ _ e x

theorem State.lane_setLane_ne {k j : Nat} (e : j ≠ k) (x : LaneUnit) : (s.setLane k x).lane j = s.lane j := tget_tput_ne _ _ e x

theorem State.facetPort_setFacet_ne {n j : Nat} (e : j ≠ n) (x : FacetPort) : (s.setFacet n x).facetPort j = s.facetPort j :=
  tget_tput_ne _ _ e x

theorem State.region_setRegion_ne {k j : Nat} (e : j ≠ k) (x : Region) : (s.setRegion k x).region j = s.region j := tget_tput_ne _ _ e x

theorem State.cluster_setCluster_ne {c j : Nat} (e : j ≠ c) (x : Cluster) : (s.setCluster c x).cluster j = s.cluster j := tget_tput_ne _ _ e x

theorem State.unit_setUnit_ne {n j : Nat} (e : j ≠ n) (x : PrismUnit) : (s.setUnit n x).unit j = s.unit j := tget_tput_ne _ _ e x

end Sys2Proof.Machine
end

