-- ==== Sys2Proof/WellFormed.lean ====
section
/-! DEFINITION. Which commands name something the part has: the checks a command's operands meet before its meaning is of interest. A
meaning is total: an ill-formed command is no fault. -/

namespace Sys2Proof

/-- The Chord has lanes 0 to 8; client and line lanes are 0 to 63 (18_serial_lanes R422). -/
def Lane.exists_ (l : Lane) : Bool :=
  match l.family with
  | .client | .line => true
  | .chord => decide (l.idx.val < 9)

/-- Rails with an ID are 0 to 10 (23_clocks_power_reset Table 23.3). -/
def Rail.exists_ (r : Rail) : Bool := decide (r.id.val < 11)

/-- The rings of Table 20.3. -/
def ringExists (kind : RingKind) (r : Nat) : Bool :=
  match kind with
  | .command | .completion => decide (r < 64)
  | .event => decide (r < 16)
  | .management => decide (r < 4)

/-- A slot number of the key store: class and index as Axis numbers them (03_key_store Table 3.1). -/
def slotNumber (k : Nat) : Bool :=
  decide (k < 131072) || decide (131072 ≤ k ∧ k < 131072 + 4096) || decide (262144 ≤ k ∧ k < 262144 + 256)

/-- A slot of the sensor table: 2^24 buckets of 8 (12_sensor_service R283). -/
def recordSlot (k : Nat) : Bool := decide (k < 2 ^ 27)

/-- A Facet port's client data names each tributary slot once (06_facet_frame R156). -/
def ClientBlocks.distinct (cs : List ClientBlocks) : Bool := decide ((cs.map (·.slot)).Nodup)

/-- A marker codeword shows each lane once (06_facet_frame R142). -/
def MarkerSeen.distinct (ms : List MarkerSeen) : Bool := decide ((ms.map (·.lane)).Nodup)

/-- A command names something the part has. -/
def Instr.wf (i : Instr) : Bool :=
  match i with
  | .facetFrameTransmit _ send => ClientBlocks.distinct send.client
  | .markerCodewordReceive _ _ lanes => MarkerSeen.distinct lanes
  | .facetFrameReceive _ errors _ _ => decide (errors.length ≤ 26)
  | .generationDrainEnd slot => slotNumber slot
  | .sweepSlotVisit slot => slotNumber slot
  | .recordLockLeaseExpiry slot => recordSlot slot
  | .ringEnable kind r _ => ringExists kind r.val
  | .ringDisable kind r _ => ringExists kind r.val
  | .ringCiWrite kind r _ => ringExists kind r.val
  | .interruptDelayExpiry kind r => ringExists kind r.val
  | .transmitPllLock l => Lane.exists_ l
  | .signalDetect l => Lane.exists_ l
  | .signalLoss l => Lane.exists_ l
  | .phaseLock l => Lane.exists_ l
  | .adaptConverged l => Lane.exists_ l
  | .trainComplete l _ => Lane.exists_ l
  | .lossOfLock l => Lane.exists_ l
  | .fastRelockExpiry l => Lane.exists_ l
  | .lockTimeout l => Lane.exists_ l
  | .laneCfgWrite l _ => Lane.exists_ l
  | .laneTxeqWrite l _ => Lane.exists_ l
  | .prbsCfgWrite l _ => Lane.exists_ l
  | .errorInject l _ => Lane.exists_ l
  | .prbsCheckerLockLoss l => Lane.exists_ l
  | .eyeScanGo l _ => Lane.exists_ l
  | .eyeScanDone l _ => Lane.exists_ l
  | .railWarningEntry rail => Rail.exists_ rail
  | .railWarningExit rail => Rail.exists_ rail
  | .supplyReset rail => Rail.exists_ rail
  | .overVoltage rail => Rail.exists_ rail
  | .temperatureSample high low => decide (low.toInt ≤ high.toInt)
  | .registerWrite off _ _ => off.toNat % 4 == 0
  | .clientFrameReceive _ _ _ _ | .lineFrameReceive _ _ | .sectorDequeue _ _ _ | .prismDispatch _ _ | .reorderRelease _ _ _ _ _
  | .puntCopy _ |  .losDeclare _ | .losClear _ | .nop _ | .aluRegisterOp _ | .mul _ | .mulhu _
  | .aluImmediateOp _ | .movi _ | .movhi _ | .ext _ | .ins _ | .popcClzBswap _ | .bset _ | .bget _ | .bxor _ | .movs _ | .cmp _ | .cmpi _
  | .ld _ _ | .st _ | .ldb _ _ | .stb _ | .ldh _ | .sth _ | .ldhb _ | .sthb _ | .vfence _ | .fget _ _ | .fput _ | .fgetb _ _ | .fputb _
  | .saload _ | .pntake _ | .cld _ | .cst _ | .benc _ | .bdec _ | .bctr _ | .gfacc _ | .tagfin _ | .tagcmp _ | .cas _ _ | .fadd _ _ | .br _
  | .brr _ | .call _ | .ret _ | .wait _ | .yield _ | .halt _ | .emit _ | .drop _ | .park _ | .redo _ | .evt _ | .descriptorComplete _ _
  | .hbmLoadReturn _ _ | .verificationResult _ _ | .threadWatchdogExpiry _ | .debugHalt _ | .debugResume _ | .pcSample _
  | .engineReset _ _ _ | .lcTransition _ | .dbgChallenge _ | .dbgUnlock _ | .measExtend _ | .measRead _ | .alarmAck _ | .secverRaise _
  | .seal _ | .unseal _ | .unsealToSlot _ | .sealMigrate _ | .blobCommit _ | .blobFetch _ | .supplyHoldTimeout _ | .compassRelease
  | .alarm _ _ | .keyStage _ | .keyVerify _ | .keyCommit _ | .keyErase _ | .keyDerive _ | .keyInvalidate _ | .markingPassEnd
  | .sweepPassStart | .maskOverdue | .drbgReseed | .entropyHealthFail | .entropyRecovery | .saCreate _ | .saModify _ | .saRotate _
  | .saRotateCancel _ | .saRetire _ | .saRead _ | .rotationArmed _ _ | .rotationTimeTrigger _ _ | .retirementEnd _ | .overlapHoldExpiry _
  | .contextLockLeaseExpiry _ | .holdLimitExpiry _ | .parkedFrameRedispatch _ | .statsFoldSweep _ | .portEnable _ | .portDisable _
  | .portDrainEnd _ _ | .portDisableTimeout _ _ | .gateLoad _ | .gateArm _ | .gateArmCancel _ | .gateListStart _ | .gateEntryAdvance _
  | .indRead _ | .indWrite _ | .ucodeLoad _ | .ucodeActivate _ | .activateDrainEnd _ | .activateTimeout | .cryptoBlock _ | .reclaim _
  | .reclaimTesseraOwner _ | .sensorGroupSetGroup _ | .sensorGroupSetRoute _ | .sensorGroupSetProfile _ | .sensorGroupSetQueue _
  | .serviceEnable _ | .serviceDisable _ | .radiusDrainEnd | .radiusDrainTimeout | .sensorWriteInsert _ | .sensorWriteReplace _
  | .sensorWriteDelete _ | .sensorWriteRead _ | .gatewayInsert _ | .gatewayReplace _ | .gatewayDelete _ | .gatewayRead _
  | .sensorCheckpointWrite _ | .sensorCheckpointConfirm _ | .radiusBatchTake _ | .radiusDispatch _ _ | .batchAck _ | .readingBatchFlush _
  | .downlinkWindowRelease _ | .downlinkExpiry _ | .tblRead _ | .tblWriteInsert _ | .tblWriteReplace _ | .tblWriteDelete _
  | .tblWriteClearHit _ | .tblDeleteIfIdle _ | .tblLock _ | .tblUnlock _ | .tblLockWaitTimeout _ _ | .tableLockLeaseExpiry _
  | .learnRequestApply | .moveHoldExpiry _ _ | .emTableClear _ | .tesseraPoolWrite _ _ | .tesseraOwnerWrite _ _ _ | .freeListBuildEnd _
  | .freeListRebuildEnd _ _ | .queueEnable _ _ | .queueDisable _ _ | .queueRelease _ _ | .bankSwap _ | .entryWriteComplete _ _
  | .hullRegionCreate _ | .hullRegionRights _ | .hullRegionFill _ | .hullRegionDelete _ | .deleteDrainEnd _ _ | .fillComplete _ _
  | .hullRekey _ | .rekeyComplete _ _ | .minorOverflowPassEnd _ _ _ | .patrolScrub _ _ | .twinConfigure _ | .twinSolo _ | .twinWiden _
  | .twinRemove _ | .twinHandover _ | .leaseStatus _ | .handoverTimeout | .chordLinkUp | .helloSend _ | .helloReceive _ _
  | .chordHeartbeatSend | .chordLinkDown _ | .syncCycleStart | .copyRecordsReceive _ | .copyEndReceive _ | .copyAckReceive _
  | .fullRequestReceive _ | .handoverRequestReceive _ | .leaseRequestSend | .leaseGrant _ | .leaseDeny _ | .leaseExpiry | .staleRequestSend
  | .waitToRestoreExpiry | .doorbellWrite _ _ | .commandFetch | .ringDrainEnd _ | .eventRecordWrite | .mgmtFrameReceive _ _
  | .mgmtDoorbell _ _ | .mgmtLinkChange _ _ _ | .fence _ | .setInterfaceVersion _ | .frameSend _ | .resync _ | .snapshotNow _
  | .snapshotAtTime _ | .snapshotFreeze _ | .snapshotThaw _ | .capture | .snapInEdge _ | .snapInFreezeLevel _ | .counterRead _
  | .counterReadReady | .pcLoRead _ | .gnomonSet _ | .gnomonStep _ | .lockWrite _ | .rateWrite _ | .servoTimeout | .secondTick
  | .ppsOutPulseEnd | .ppsInEdge _ | .ppsInMissing | .todMessageSend | .todByteReceive _ | .todRxRead | .txtsEntryRemove _ | .nowNsRead
  | .pcsAlignmentLock _ _ _ | .refclkLoss _ | .coldReset | .warmReset _ | .datapathReset _ | .datapathResetComplete | .portBlockReset _
  | .aonBrownOut | .thermalTrip | .thermalTripRelease | .memoryPllLoss _ | .gnomonPllLoss | .gnomonPllRelock | .extestLoad
  | .uartDataWrite _ _ | .uartDataRead _ | .uartByteReceive _ _ | .i2cStart _ | .i2cStop _ | .i2cRead _ _ | .i2cWrite _ _
  | .i2cTransferDone _ _ _ _ | .powerOnResetRelease | .expectedMarkerMissed _ _ | .alignmentCandidateMatch _ _ _ _ | .heartbeatReceive _
  | .registerResultArrival _ | .uartByteSent _ => true

end Sys2Proof
end

