-- ==== Sys2Proof/Tests/Slice0.lean ====
section
/-! SUPPORT. The model's own tests: ill-formed commands that well-formedness refuses, published values of the algorithms, worked examples and
reset values of the spec, and for every statement with hypotheses a state and operands that meet them (witness theorems). A test on fixed
values checks the model; it is no statement for the provers. -/

namespace Sys2Proof.Tests
open Sys2Proof Sys2Proof.Machine

set_option Elab.async false

/-- A descriptor of command ring 0: opcode, version 1, tag 7, and values at byte offsets. -/
def cmd (op : Nat) (fs : List (Nat × Nat)) : Desc :=
  ⟨0, BitVec.ofNat 512 (fs.foldl (fun a f => a ||| f.2 <<< (8 * f.1)) (1 ||| op <<< 4 ||| 7 <<< 32))⟩

/-- The part after reset. -/
abbrev z : State := State.reset

/-- An HBM region of 64 MiB with every right, filled with zeros. -/
def withMem (s : State) : State :=
  { s with
    hull := { s.hull with up := 3, regions := [(0, { Region.reset with state := .active, rights := 0x3FFF, base := 0, size := 1 })] }
    mem := { cells := [], fills := [{ base := 0, len := 2 ^ 26, pat := some 0, epoch := 1 }] } }

/-- The part with that region. -/
def zm : State := withMem z

/-- Bytes stored at an address. -/
def poke (s : State) (a : Nat) (bs : List Byte) : State := { s with mem := s.mem.put a bs }

/-- Telemetry changed. -/
def withTele (s : State) (f : TeleState → TeleState) : State := { s with tele := f s.tele }

/-- Gnomon changed. -/
def withGnomon (s : State) (f : GnomonState → GnomonState) : State := { s with gnomon := f s.gnomon }

def dNow : Desc := cmd 0x0F0 [(0x20, 65536)]
def dFreeze : Desc := cmd 0x0F0 [(8, 2)]
def dThaw : Desc := cmd 0x0F0 [(8, 3)]
/-- AT_TIME 1 s 999,999,999 ns. -/
def dAt : Desc := cmd 0x0F0 [(8, 1), (0xC, 1), (0x12, 999999999)]
def sCapturing : State := withTele z fun t => { t with running := some (.now dNow, 5) }
def sCaptureShort : State := withTele z fun t => { t with running := some (.now dFreeze, 5) }
def sCaptureWaits : State := withTele sCapturing fun t => { t with waiting := some (.now dNow, none) }
/-- SNAP_IN enabled for captures, active high, with a block mask. -/
def sPin : State := (z.setReg 0x03E00020 0x80000000).setReg 0x03E0002C 1
def sPinWaits : State := withTele sPin fun t => { t with waiting := some (.pin, none) }
/-- SNAP_IN enabled for PIN_FREEZE, active high. -/
def sPinFreeze : State := z.setReg 0x03E00020 0xC0000000
def tTaken : Taken := { ev := 0x060, ring := 1, clear := false, sec := 0, ns := 5, data := [1] }
/-- Event ring 1 runs at address 0x1000 with 16 entries; one raise is taken. -/
def sEvent : State := withTele (zm.setRing .event 1 { Ring.reset with state := .running, base := 0x1000, cap := 16, phase := true })
  fun t => { t with store := [tTaken] }
/-- The same ring full, and 0x042 already raised in this second. -/
def sEventFull : State := { sEvent.setRing .event 1 { Ring.reset with state := .running, base := 0x1000, cap := 16, pi := 16 } with
  once := [onceKey 0x042 1] }
def sFrozen : State := withTele z fun t => { t with cmdFrozen := true }
def sPinFrozen : State := withTele z fun t => { t with pinFrozen := true }
def sCntAsked : State := withTele z fun t => { t with cntPending := some 0x04000000 }
def sCntAskedBad : State := withTele z fun t => { t with cntPending := some 0xFFFFFFFF }
def sLocked : State := withGnomon z fun g => { g with mode := .locked, servoDue := some 5 }
def sPpsHigh : State := withGnomon z fun g => { g with ppsOut := true, ppsFall := some 3 }
def sPpsIn : State := z.setReg 0x01400028 0x40000064
def sTod : State := withGnomon (z.setReg 0x01400034 0x80000000) fun g => { g with todDue := some (1, 4) }
def sTodFifo : State := withGnomon z fun g => { g with todFifo := [0xA5] }
def sTodFull : State := withGnomon z fun g => { g with todFifo := List.replicate 64 1 }
def sTxts : State := withGnomon z fun g => { g with txts := [(31, [7])] }
def x31 : Fin 32 := 31
def sPending : State := { z with pending := [.ppsInMissing, .secondTick] }
def sOrphan : State := { zm with rings := { zm.rings with orphans := [dNow] } }
def sRight4 : State := { z with apex := { z.apex with rights := 0x0010 } }
def sRight4n12 : State := { z with apex := { z.apex with rights := 0x1010 } }
def aXpn : Assoc := { Assoc.reset with suite := 2, next := 0x1FFFFFFFF }
def aPlain : Assoc := { Assoc.reset with suite := 0 }

/-! ### Keys and associations -/

/-- A VALID slot with an AES-256 key and every use. -/
def aKey : Slot := { Slot.reset with active := .valid, act := { KeyHalf.reset with share := 5, alg := 2, use := 0x1E } }
/-- Key slots changed. -/
def withSlots (s : State) (t : Tbl Slot) : State := { s with axis := { s.axis with slots := t } }
/-- Axis changed. -/
def withAxis (s : State) (f : AxisState → AxisState) : State := { s with axis := f s.axis }
/-- Association contexts changed. -/
def withCtx (s : State) (t : Tbl Assoc) : State := { s with assoc := { s.assoc with ctx := t } }
/-- Twin changed. -/
def withPair (s : State) (f : TwinState → TwinState) : State := { s with twin := f s.twin }
/-- Locus changed. -/
def locus (s : State) (f : LocusState → LocusState) : State := { s with locus := f s.locus }

/-- A transmit association of line port 0, partner 3, suite AES-256, key slot 0. -/
def aTx : Assoc := { Assoc.reset with status := .ready, suite := 1, owner := 3, sci := 0x1122, next := 1, warn := 0xC0000000, holdMs := 10 }
def aRx : Assoc := { aTx with recv := true, status := .active }
def aFacet : Assoc := { aTx with suite := 4, status := .active, dkB := 1, current := true }
def pLine : LPort := { LPort.reset with enabled := true, up := true, mode := some 0, partner := some 3 }
/-- Memory, line port 0 enabled with partner 3, key slots 0 and 1. -/
def sLine : State := (withSlots zm [(0, aKey), (1, { aKey with act := { aKey.act with share := 6 } })]).setLport 64 pLine
/-- Its memory holds the image of a new transmit association at 0x1000. -/
def sCreate : State := poke sLine 0x1000 (le 128 { aTx with status := .free, next := 0, warn := 0, holdMs := 0 }.image)
/-- SA_CREATE of handle 0 from 0x1000. -/
def dCreate : Desc := cmd 0x020 [(8, 0), (0x10, 0x1000)]
/-- SA_MODIFY of handle 0 from 0x1000, with a mask. -/
def dModify (m : Nat) : Desc := cmd 0x021 [(8, 0), (0xC, m), (0x10, 0x1000)]
def dHandle0 : Desc := cmd 0x023 [(8, 0), (0x10, 0x1000)]
def sReady : State := withCtx sCreate [(0, { aTx with next := 9 })]
/-- A FREE association beside handle 0 that is in use: MODIFY masks name bits of Table 21.5. -/
def sRetiring : State := withCtx sLine [(0, { aTx with status := .retiring, retireCmds := [cmd 0x022 [(8, 0)]] })]
def sOverlap : State := withCtx sLine [(0, { aRx with overlapDue := some 7 })]
def sOverlapFacet : State := withCtx sLine [(0, { aFacet with overlapDue := some 7 })]
def sCtxLock : State := { z with assoc := { z.assoc with locks := [(0, (0x1003, 9))] } }
def sDelta : State := withCtx sLine [(0, { aTx with delta := [(2, 4)] })]
def sDeltaNoMem : State := withCtx z [(0, { aTx with delta := [(2, 4)] })]
def eDelta : Nat × Assoc := (0, { aTx with delta := [(2, 4)] })
/-- SA_ROTATE of one entry, handle 0 to handle 1, from 0x1000, at 1 s. -/
def dRotate : Desc := cmd 0x022 [(8, 0x1000), (0x10, 1), (0x20, 1)]
def dRotCancel : Desc := cmd 0x022 [(3, 2), (0x2C, 7), (0x2E, 0)]
def rTime : Rotation := { desc := some dRotate, name := (0, 7), entries := [(0, 1)], phases := [], trigger := .time 1000000000, armedAt := 0
                          armed := false, total := 1, switched := [] }
def rPn : Rotation := { rTime with trigger := .pn 256 }
def rArmed : Rotation := { rTime with armed := true }
/-- Handle 0 is CURRENT, handle 1 READY with its own key, on one channel. -/
def sPair : State := withCtx sLine [(0, { aTx with status := .active, current := true }), (1, { aTx with an := 1, dkA := 1 })]
def withRot (s : State) (r : Rotation) : State := { s with assoc := { s.assoc with rots := [r] } }
def sRotBad : State := withRot z rTime
def sRotTime : State := withRot sPair rTime
def sRotPn : State := withRot sPair rPn
def sRotArmed : State := withRot sPair rArmed
def ring0 : Fin 64 := 0
def part0 : Fin 16 := 0

/-! ### Axis -/

def oDrained : OldGen := { gen := 0, half := aKey.act, count := 0, since := 0, erase := some dHandle0 }
def sDrained : State := withSlots z [(0, { aKey with old := [oDrained] })]
def sMarking : State := withAxis z fun a => { a with marking := [(dHandle0, 0, 1)] }
def sKeyed : State := withSlots z [(0, aKey)]
def sReseed : State := withAxis z fun a => { a with drbgCount := 1048576 }
def sReseedFail : State := withAxis sReseed fun a => { a with entropyOk := false }

/-! ### Frames, queues and punts -/

/-- Pool 0 of 1024 cells at 0, enabled. -/
def vPool : Word32 := 0x80004000
def p0 : Fin 4 := 0
def b63 : Fin 64 := 63
def fHeld : TFrame := { id := 1, bytes := List.replicate 64 1#8, fcs := none, keep := 0, cells := [0], pool := 0, charge := 0, refs := [some 225], lp := 0
                        stamp := 0, unctl := false, sa := none, cut := false }
def sHeld : State := { z with tess := { z.tess with frames := [fHeld], nextId := 2 } }
/-- Pool 0 has a cell; no other pool is on. -/
def sPools : State := (((z.setReg 0x00800010 0x80004000).setReg 0x00800014 0).setReg 0x00800018 0).setReg 0x0080001C 0
def qOpen : AQueue := { AQueue.reset with enabled := true, size := 6, cap := 64, base := 0x10000 }
def withQ (s : State) (k : Nat) (q : AQueue) : State := { s with annulus := { s.annulus with queues := [(k, q)] } }
/-- Queue 0 set up for 64 entries of 2^6 bytes at 0x10000. -/
def sQueueSet : State := (zm.setReg (aqOff 0 + 4) 64).setReg (aqOff 0 + 8) 0x10000
def sCounted : State := withQ zm 0 { qOpen with written := 3 }
def sPing : State := withQ zm 0 { qOpen with ping := true, written := 3 }
def sPingFull : State := withQ zm 0 { qOpen with ping := true, drain := 2 }
def sTail : State := withQ zm 0 { qOpen with tail := [(false, List.replicate 64 1#8)] }
def sTailNoMem : State := withQ z 0 { qOpen with tail := [(false, List.replicate 64 1#8)] }
def sBadEntry : State := withQ zm 0 { qOpen with written := 3, poisoned := [0] }
def pOne : Punt := { queue := 0, frame := 1, reason := 2 }
def sPunt : State := { withQ sHeld 0 qOpen with annulus := { (withQ sHeld 0 qOpen).annulus with punts := [pOne] } }
def sPuntTail : State := { sPunt with annulus := { sPunt.annulus with queues := [(0, { qOpen with cap := 128, tail := List.replicate 64 (false, []) })] } }
def sPuntShut : State := { sPunt with annulus := { sPunt.annulus with queues := [] } }

/-! ### Chord -/

/-- Every Chord lane is LOCKED. -/
def chordUpLanes : Tbl LaneUnit := (List.range 9).map fun i => (128 + i, { LaneUnit.reset with mode := .locked })
def sChordLanes : State := withPair { z with lanes := chordUpLanes } fun t => { t with lease := .standby }
/-- A session over Chord, version 2, as STANDBY. -/
def sChord : State := withPair { z with lanes := chordUpLanes } fun t => { t with
  lease := .standby, width := 8, chord := { t.chord with ver := 2 }, key := 77, linkUp := true }
def sChordActive : State := withPair sChord fun t => { t with lease := .active, leaseEnd := 10 ^ 9 }
/-- The first message of the session that the peer, side B of unit 0x0102, sends: type and body. -/
def fromPeer (ty : Nat) (body : List Byte) : List Byte :=
  let h := [2, BitVec.ofNat 8 ty] ++ be 2 (24 + body.length) ++ [1, 2, 0, 0]
  let (ct, tag) := Crypto.gcmSeal 32 77 (chordIv true 1) h body
  h ++ ct ++ tag
def sCopying : State := withPair sChord fun t => { t with rxCopy := some (5, 1, true) }
def cOpen : OpenCopy := { seq := 5, full := true, sent := [], freed := [] }
def sCopyOpen : State := withPair sChordActive fun t => { t with openCopies := [cOpen] }
def sClockLost : State := withPair { z with lanes := [] } fun t => { t with width := 8 }
def sTagsFail : State := withPair sChord fun t => { t with badRun := 8 }
/-- A HELLO of 56 octets with session version bitmap 0. -/
def helloNone : List Byte := [1, 1] ++ List.replicate 54 0
def cSent : SentCopy := { image := 0, next := 1, leap := 4096 }

/-! ### Client frames and learning -/

/-- A frame of n octets with its FCS. -/
def framed (n : Nat) : List Byte :=
  let b := List.replicate (n - 4) 0x02#8
  b ++ le 4 (Crypto.crc32 b).toNat
def pClient : LPort := { LPort.reset with enabled := true, up := true, mode := some 0 }
def sClient : State := z.setLport 0 pClient
def lp0 : Fin 64 := 0
def lp63 : Fin 64 := 63
def rLearn : LearnReq := { key := 9, profile := 1, lp := 0 }
def eLearned : EmEntry := { key := 9, profile := 1, static := false, learned := true, hit := false, learnLp := 0, result := 0 }
def sLearn : State := locus z fun l => { l with learns := [rLearn], em := [(0, eLearned)] }
def sLearnStatic : State := locus z fun l => { l with learns := [rLearn], em := [(0, { eLearned with learned := false, static := true })] }
def sLearnBlocked : State :=
  let s := locus z fun l => { l with learns := [rLearn], seed := 0 }
  locus s fun l => { l with locks := (s.candidates 1 9).map fun b => (b, (0x2001, 5)) }
def hHold : BitVec 4 × BitVec 128 × Nat := (1, 9, 3)
def sHold : State := locus z fun l => { l with hold := [hHold] }
def prof1 : Fin 16 := 1
/-- Rail 0. -/
def rail0 : Rail := ⟨0⟩
def sHeldPart : State := { z with apex := { z.apex with held := true } }
def cause4 : Fin 32 := 4
def cause31 : Fin 32 := 31

/-! ### Vertex -/

/-- An instruction word: opcode, destination, sources, guard, extension (Table 10.2). -/
def word (op d a b guard ext : Nat) : BitVec 64 := BitVec.ofNat 64 (op <<< 56 ||| d <<< 51 ||| a <<< 46 ||| b <<< 41 ||| guard <<< 38 ||| ext)
/-- Thread 0 of engine 0 of Prism 0. -/
def iss : Issue := ⟨⟨0, 0⟩, .clean⟩
/-- Thread 0 of engine 0 of Radius. -/
def issR : Issue := ⟨⟨256, 0⟩, .clean⟩
/-- Cluster c with an image of 16 words whose first is w; thread 0 is READY at it. -/
def prep (s : State) (c : Nat) (w : BitVec 64) (f : Thread → Thread) : State :=
  s.setCluster c { Cluster.reset with
    low := some { count := 16, version := 1, entries := [0, 0, 0, 0, 0, 0, 0, 0], scratch := [], full := true, words := [(0, w)] }
    active := some false, threads := [(0, f { Thread.reset with mode := .ready })] }
/-- The state in which the word has its effect. -/
def after (s : State) (c : Nat) (w : BitVec 64) : State := (s.wake c).noteIssue c 0 0 w ((s.wake c).pairsNow c 0 0 w)
/-- The word at the index of a thread, as that thread would issue it, and the state in which it has its effect. -/
def nextWord (i : Issue) (s : State) : BitVec 64 :=
  let t := (s.wake i.t.cl).thread i.t.cl i.t.key
  (s.wake i.t.cl).fetch i.t.cl t.high t.pc
def nextIns (i : Issue) (s : State) : Ins := Ins.of (nextWord i s)
def issued (i : Issue) (s : State) : State :=
  let u := s.wake i.t.cl
  let pc := (u.thread i.t.cl i.t.key).pc
  let v := if i.imem = .corrected then (u.count (cid 0x05 0 i.t.cl)).raiseOnce 0x185 0 [BitVec.ofNat 8 i.t.cl] else u
  v.noteIssue i.t.cl i.t.key pc (nextWord i s) (u.pairsNow i.t.cl i.t.key pc (nextWord i s))
/-- g1 := 8, g2 := 3, g3 := 2^40. -/
def withRegs (t : Thread) : Thread := { t with g := [(1, 8), (2, 3), (3, BitVec.ofNat 64 (2 ^ 40))], b := [(1, 7)] }
/-- A MACsec transmit work item of 64 octets in staging. -/
def wItem : Item :=
  { seq := 1, kind := 0, recv := false, lp := 0, stage := .running 0, bytes := List.replicate 64 2#8, line := 0, lines := 1, len := 64
    handle := 0, offset := 0, head := 64, data := 64, frame := none, queue := 0, tsId := none, stamp := 0, fcs := none, keep := 0, crc := 0
    enc := false, verified := false, taken := none, cls := none, ohead := [], sa := none, stalled := false, cut := false }
def withItem (s : State) (i : Item) : State := s.setUnit 0 { PrismUnit.reset with items := [i] }
def sItem : State := withItem zm wItem
def onItem (t : Thread) : Thread := { withRegs t with item := some 1 }
def keyCap : Nat × BitVec 32 × Shares × Nat := (0, 0, { share := 5, mask := 0 }, 32)
def opKeyed : SaOp := { handle := 0, key := some keyCap, phase := false, since := 0, locked := true }
def inOp (t : Thread) : Thread := { onItem t with op := some opKeyed }
/-- The thread of a receive item: frame context bit 61. -/
def inRecvOp (t : Thread) : Thread := { inOp t with fctx := BitVec.ofNat 64 (2 ^ 61) }
/-- Handle 0 is the CURRENT association of line port 0, and the lease is valid. -/
def sSa : State := withPair (withItem sPair wItem) fun t => { t with lease := .solo }
def sSaReady : State := withItem (withCtx sLine [(0, { aTx with status := .ready, recv := true })]) wItem
def sSaLocked : State := { sSa with assoc := { sSa.assoc with locks := [(0, (0x1000, 9))] } }
/-- Block work: count 1 at offset 0 to offset 16, LAST 16. -/
def gBlock : BitVec 64 := BitVec.ofNat 64 (1 <<< 10 ||| 16 <<< 5)
def gBlockFar : BitVec 64 := BitVec.ofNat 64 (4 <<< 25 ||| 1 <<< 10 ||| 16 <<< 5)
def onBlock (t : Thread) : Thread := { inRecvOp t with g := [(2, gBlock)] }
def onBlockFar (t : Thread) : Thread := { inRecvOp t with g := [(2, gBlockFar)] }
def wBenc : BitVec 64 := word 0x80 0 1 2 0 0
def wBdec : BitVec 64 := word 0x81 0 1 2 0 0
def wBctr0 : BitVec 64 := word 0x82 0 1 2 0 0
def wBctr1 : BitVec 64 := word 0x82 0 1 2 0 4
def wGfacc : BitVec 64 := word 0x83 0 1 2 0 0
def wTagfin : BitVec 64 := word 0x84 0 1 2 0 0
def wTagcmp : BitVec 64 := word 0x85 1 1 2 0 0
def wHalt : BitVec 64 := word 0xA6 0 0 0 0 0
def wDrop : BitVec 64 := word 0xB1 0 0 0 0 0
def wEmit : BitVec 64 := word 0xB0 0 1 2 0 0
def eEmit : Emitted := ⟨8, 3, 0, false, 0⟩
def wPark : BitVec 64 := word 0xB2 0 0 0 0 0
def wRedo : BitVec 64 := word 0xB3 0 0 0 0 0
def onStack (l : List Nat) (t : Thread) : Thread := { withRegs t with stack := l }
def onFailed (t : Thread) : Thread := { withRegs t with failed := true }
def onPn (t : Thread) : Thread := { inOp t with pn := some 4 }
/-- CRYPTO_BLOCK of one block, key slot field f, mode m. -/
def dBlock (f m : Nat) : Desc := cmd 0x052 [(8, f), (0xC, m), (0x10, 0x1000), (0x18, 0x2000), (0x20, 1)]
/-- The largest CRYPTO_BLOCK, 65,536 blocks. -/
def dBlockMax : Desc := cmd 0x052 [(8, 0), (0x10, 0x1000), (0x20, 65536)]
def kBlock : Slot := { aKey with act := { aKey.act with use := 0x1F } }
def sBlock : State := withSlots (zm.setReg 0x02000000 2) [(0, kBlock)]
def sBlockOff : State := withSlots (zm.setReg 0x02000000 0) [(0, kBlock)]
def sBlockStaged : State := withSlots (zm.setReg 0x02000000 2) [(0, { Slot.reset with pending := .staged, pnd := kBlock.act })]

/-! ### Apex -/

/-- Apex has booted, the life-cycle counter is k, and the Compass mailbox holds a request. -/
def asking (k code : Nat) (p : List Byte) : State :=
  { z with apex := { z.apex with booted := true, otp := { z.apex.otp with lcCells := lcCellsOf k }, mbxC := { Mailbox.reset with
      busy := true, req := bufOf (le 2 p.length ++ le 2 code ++ p) } } }
def withApexF (s : State) (f : ApexState → ApexState) : State := { s with apex := f s.apex }
/-- A P-384 public key (the point 0x1234567 G), and its signature of the certificate below. -/
def vKey : List Byte := be 96 0x7ae9e1db1160794c70c1ef071be5191f6c66240f4608fbe8a44ecd36c3ed5db97500f2e4d84e3fb45850fd6f4303302bd8ac21444cd80d241538d8034b399a0dee3636eb5cb00b9499d061a571db0f14bb47ed79453948ed63f3a6ccbbf6e74f
def vSig : List Byte := be 96 0x1a626ed72d0d27ffbe2c8075eb11e10ba3aaa634bfb6267916dafe700b49635e8d6806b09b15cc30a168a4679431f547c25849348df99f6eb301d010da8aa0e336e351f69b2c41012e5c10d121e835c98a56eac719822c1cc443f77783196691
/-- A debug certificate for serial 0 in PERSONALISED, with right 4 and challenge 0 (Table 2.10). -/
def cert : List Byte := le 4 0x43424448 ++ le 2 1 ++ le 2 1 ++ le 8 0 ++ [9, 0] ++ le 2 0x10 ++ List.replicate 44 0 ++ vKey ++ vSig
/-- PERSONALISED, with the hash of that key and a valid challenge 0. -/
def personal (s : State) : State := withApexF s fun a => { a with challenge := some 0, otp := { a.otp with vendorHash := Crypto.sha384 vKey } }
def spentTries (s : State) : State := withApexF s fun a => { a with failed := 8 }

/-! ### Facet -/

/-- A running Facet port 0, changed. -/
def facet (f : FacetPort → FacetPort) : State := z.setFacet 0 (f { FacetPort.reset with active := true })
def fp0 : Fin 16 := 0
def seen (c : Nat) : List MarkerSeen := (List.range 4).map fun i => ⟨Fin.ofNat 4 i, markerPattern i, markerPattern i, BitVec.ofNat 20 c, 60 * i⟩
def sSearch : State := facet fun p => p
def sConfirm : State := facet fun p => { p with marker := .confirm, markerPos := 4, laneCount := [(0, 9), (1, 9), (2, 9), (3, 9)] }
def sLock : State := facet fun p => { p with marker := .lock }
def cOne : Candidate := ⟨131072, 1, 6⟩
def sCand : State := facet fun p => { p with marker := .lock, frame := .confirm, cands := [cOne] }
def sInFrame : State := facet fun p => { p with marker := .lock, frame := .inFrame, errRun := 4 }
def sQuiet : State := facet fun p => { p with quietSince := some 5 }
def sSignal : State := facet fun p => { p with signalSince := some 5, defects := 1 }

/-! ### Images and owners -/

/-- A Prism image of 8 words of zeros whose entries are all 0 (R236). -/
def image (body : Nat) : List Byte :=
  let b := le 64 body
  le 4 0x58455456 ++ le 2 1 ++ [0, 0] ++ le 4 1 ++ le 4 8 ++ le 8 0 ++ le 4 0 ++ le 4 0 ++ le 32 0 ++ be 48 (Crypto.sha384 b).toNat ++
    List.replicate 192 0 ++ b
def im8 : Image := { count := 8, version := 1, entries := [0, 0, 0, 0, 0, 0, 0, 0], scratch := [], full := false
                     words := (List.range 8).map fun i => (i, 0) }
def dLoad : Desc := cmd 0x050 [(8, 1), (0x10, 0x1000), (0x18, 368)]
def dActivate : Desc := cmd 0x051 [(8, 1)]
def inLife (k : Nat) (s : State) : State := withApexF s fun a => { a with otp := { a.otp with lcCells := lcCellsOf k } }
/-- BLANK: an image needs no signature; PERSONALISED: it needs one. -/
def sImage : State := inLife 0 (poke zm 0x1000 (image 0))
def sImageSigned : State := inLife 9 sImage
/-- Thread 0 of cluster 0 runs in the lower half, and the upper half holds an image. -/
def runs0 (s : State) (active : Option Bool) : State :=
  s.setCluster 0 { Cluster.reset with low := some im8, hi := some im8, active := active, threads := [(0, { Thread.reset with mode := .ready })] }
def sLoadBusy : State := runs0 sImage none
def sActivate : State := z.setCluster 0 { Cluster.reset with low := some im8 }
def sActivateBusy : State := runs0 z (some false)
def aDrain : Activate := { desc := dActivate, olds := [(0, false)], due := 50 }
def sDrains : State := { sActivate with vertex := { sActivate.vertex with activates := [aDrain] } }
def c0 : Fin 17 := 0
def dReclaim (o : Nat) : Desc := cmd 0x062 [(8, o)]
def sFaulted : State := z.setCluster 0 { Cluster.reset with threads := [(0, { Thread.reset with mode := .faulted })] }
def sEnabled0 : State := z.setLport 0 pClient

/-! ### Keys -/

def kStaged : Slot := { Slot.reset with pending := .staged, pnd := aKey.act }
def kVerified : Slot := { kStaged with pending := .verified }
def slots1 (k : Slot) : State := withSlots zm [(0, k)]
def oDrains : OldGen := { oDrained with erase := none }
def dStage : Desc := cmd 0x010 [(8, 0), (0xD, 2), (0xE, 0x18), (0x10, 0x1000), (0x1C, 32)]
/-- KEY_DERIVE of DK slot 0 from WK slot 0. -/
def dDerive : Desc := cmd 0x014 [(8, 2 <<< 30), (0xC, 0), (0x10, 16), (0x11, 0x18), (0x13, 1), (0x18, 0x1000)]
def sParent : State := withSlots zm [(2 ^ 18, { aKey with act := { aKey.act with use := 4 } })]
def dVerify (v : Nat) : Desc := cmd 0x011 [(8, 0), (0xC, v)]
def vKcv : Nat := kcv 32 5
def dCommit : Desc := cmd 0x012 [(8, 0)]
def dErase (w : Nat) : Desc := cmd 0x013 [(8, 0), (0xC, w)]
def dInvalidate : Desc := cmd 0x015 [(8, 0)]

/-! ### Lanes and ports -/

def cl0 : Lane := ⟨.client, 0⟩
def li0 : Lane := ⟨.line, 0⟩
def chLane : Lane := ⟨.chord, 8⟩
/-- A lane changed. -/
def laneIs (l : Lane) (f : LaneUnit → LaneUnit) : State := z.setLane (laneKey l) (f LaneUnit.reset)
def laneMode (l : Lane) (m : LaneMode) : State := laneIs l fun x => { x with mode := m, since := some 0 }
def kept (l : Lane) : State := laneIs l fun x => { x with mode := .cdr, kept := some 0 }
def port0On : State := z.setLport 0 pClient
/-- PORT_ENABLE of side, path, port, mode, mask. -/
def dEnable (sp n m k : Nat) : Desc := cmd 0x030 [(8, sp), (9, n), (0xA, m), (0xB, k)]
/-- PORT_ENABLE of line port 15, sub-port 3, mode 4x100G, partner 63. -/
def dEnableLine : Desc := cmd 0x030 [(8, 1), (9, 15), (0xA, 2), (0xB, 8), (0x18, 0x1BF)]
def dDisable (n k : Nat) : Desc := cmd 0x031 [(9, n), (0xB, k)]
def dDisableLine : Desc := cmd 0x031 [(8, 1), (9, 0), (0xB, 1)]
def xClient : Disable := { desc := dDisable 0 1, side := .client, port := 0, mask := 1, due := 2000000 }
def xLine : Disable := { desc := dDisableLine, side := .line, port := 0, mask := 1, due := 2000000 }
def withDisables (s : State) (l : List Disable) : State := { s with ports := { s.ports with disables := l } }
def sClosing : State := withDisables z [xClient]
def sClosingLine : State := withDisables (withItem z { wItem with stage := .waiting }) [xLine]
/-- Client port 15 sub-port 3 is enabled in mode 4x100G and its lane LOCKED. -/
def sAligning : State := (z.setLport 63 { pClient with up := false, mode := some 2 }).setLane 63 { LaneUnit.reset with mode := .locked }
def fin15 : Fin 16 := 15

/-! ### The arbiter -/

/-- A session with the arbiter, version 2, with a request of nonce 7 sent at time 100. -/
def sArb (l : Lease) : State := withPair { z with clk := 1000 } fun t => { t with
  lease := l, arb := { t.arb with ver := 2 }, arbKey := some 99, requests := [(7, 100)], requestDue := 2000 }
/-- A GRANT (0x41) or DENY (0x42) of 20 ms for nonce 7, with its CODE. -/
def fromArb (ty code : Nat) : List Byte :=
  let m := [2, BitVec.ofNat 8 ty] ++ be 2 48 ++ [0, 0, 0, 0] ++ [0, 0, 0, BitVec.ofNat 8 code] ++ be 4 20000 ++ be 8 7 ++ be 8 0 ++ be 8 0
  m ++ arbMac 99 m
def sStale : State := withPair (sArb .active) fun t => { t with holdSince := some 0 }
def sRestore : State := withPair z fun t => { t with restoreDue := some 5 }

/-! ### Apex transitions and releases -/

/-- LC_TRANSITION to OWNED with its 48-byte owner hash, and to RMA with a certificate. -/
def pOwned : List Byte := 10 :: List.replicate 48 7
def certRma : List Byte := le 4 0x43424448 ++ le 2 1 ++ le 2 2 ++ le 8 0 ++ [9, 0] ++ List.replicate 46 0 ++ vKey ++
  be 96 0x1a626ed72d0d27ffbe2c8075eb11e10ba3aaa634bfb6267916dafe700b49635e8d6806b09b15cc30a168a4679431f547d7407719c4ad4adb30bf80790f4ce3eafb39cd6480b132147eb8180265de5661f73a28d0fdfcd3c1c0e22168317a1fdd
def warned (s : State) : State := { s with cpr := { s.cpr with warn := [(0, 5)] } }
def hWrite : HeldWrite := { mbx := .compass, since := 0, begun := false }
def holding (s : State) : State := withApexF s fun a => { a with heldWrite := some hWrite }
def sBooted : State := withApexF z fun a => { a with booted := true }

/-! ### Management ports -/

/-- Management port 1: enabled, its link up, its transmit ring (3) with one descriptor at 0x1000 of a 60-byte frame at 0x2000, its receive
ring (2) with one free descriptor at 0x3000 for a buffer at 0x4000. -/
def sMgmt : State :=
  let s := poke (poke zm 0x1000 (le 8 0x2000 ++ le 2 60 ++ [0x80] ++ List.replicate 5 0)) 0x3000 (le 8 0x4000 ++ le 2 0 ++ [0x80] ++ List.replicate 5 0)
  let s := (s.setRing .management 3 { Ring.reset with state := .running, base := 0x1000, cap := 64 }).setRing .management 2
    { Ring.reset with state := .running, base := 0x3000, cap := 64, promisc := false }
  { s.setReg 0x00306010 0x80000000 with rings := { (s.setReg 0x00306010 0x80000000).rings with link1 := true } }
def sMgmt0 : State := z.setReg 0x00306000 0x80000000
/-- A broadcast frame of 64 octets with its FCS. -/
def bcast : List Byte :=
  let b := List.replicate 60 0xFF#8
  b ++ le 4 (Crypto.crc32 b).toNat
def mg1 : Fin 2 := 1
def mr3 : Fin 4 := 3

/-! ### Ordering and FRAME_SEND -/

def dNop : Desc := cmd 0x000 []
def dFenced : Desc := cmd 0x001 []
def dVersion (v : Nat) : Desc := cmd 0x002 [(8, v)]
/-- Command ring 0 has an older command that has not started before the fence. -/
def sBehind : State := z.setRing .command 0 { Ring.reset with state := .running, outs := [⟨dHandle0, true⟩, ⟨dFenced, false⟩] }
/-- Command ring 63 holds a command. -/
def sOther : State := z.setRing .command 63 { Ring.reset with state := .running, outs := [⟨{ dNop with ring := 63 }, true⟩] }
/-- FRAME_SEND from 0x1000 of a length to a destination. -/
def dSend (len dest : Nat) : Desc := cmd 0x003 [(8, 0x1000), (0x10, len), (0x12, dest)]
/-- Pool 0 has 16,384 cells and is enabled; queue 0 of the client side is enabled with room, and client port 0 is up. -/
def sQueue : State :=
  let s := zm.setReg 0x00800010 0x80004000
  { s.setLport 0 pClient with sector := { s.sector with recs := [(0, BitVec.ofNat 256 (0x80000000 + 0xFFFFF <<< 32))] } }
def dResync (len : Nat) : Desc := cmd 0x061 [(0x10, 0x1000), (0x18, len)]

/-! ### Peripherals -/

def uart0 (u : Uart) : State := (z.setReg 0x20000008 0x80000000).setUart 0 u
def sI2c : State := z.setReg 0x20001000 0x80000000
def cI2c : BitVec 32 := 1
def sI2cBusy : State := z.setI2c 0 { I2c.reset with cmd := some cI2c }
def u0 : Fin 2 := 0
def i0 : Fin 4 := 0

/-! ### Prisms -/

/-- Line port 0 takes frames; its uncontrolled EtherType A is 0x888E. -/
def pUp (m : Word32) : LPort := { LPort.reset with enabled := true, up := true, mode := some 0, partner := some 3, etypes := 0x888E, macsec := m }
def sUp : State := zm.setLport 64 (pUp 0)
/-- A frame of 64 octets with an EtherType and its FCS. -/
def ether (t : Nat) : List Byte :=
  let b := List.replicate 12 2#8 ++ be 2 t ++ List.replicate 46 0#8
  b ++ le 4 (Crypto.crc32 b).toNat
/-- A frame in Tessera is offered to queue 0 of a side, and the port takes frames. -/
def offered (side : Nat) (sc : Option Nat) : State :=
  let s := (sHeld.setLport (64 * side) (pUp 0)).withSector { z.sector with recs := [(65536 * side, BitVec.ofNat 256 (0x80000000 + 0xFFFFF <<< 32))] }
  (s.enter { side := side, queue := 0, lp := 0, yellow := false, fromLine := false, sc := sc, unctl := false, tsId := none } 1 (some 225)).2
def sOutC : State := offered 0 none
def sOutL : State := offered 1 (some 0)
def qEntry (s : State) (side : Nat) : QEntry :=
  (s.sq side 0).headD { frame := 0, len := 0, cells := 0, sc := none, unctl := false, tsId := none, at_ := 0 }
def eOutC : QEntry := qEntry sOutC 0
def eOutL : QEntry := qEntry sOutL 1
def wOut (s : State) (side : Nat) : State := ((s.takeHead side 0 0 0).getD (eOutC, z)).2
def fOut (s : State) : TFrame := (s.frame 1).getD fHeld
def itemOf : TxTake → Item
  | .item i => i
  | _ => wItem
def iOutL : Item := itemOf (sOutL.txTake 0 0 eOutL (fOut sOutL))
def wWaiting : Item := { wItem with stage := .waiting }
def wPlain (recv : Bool) : Item := { wItem with stage := .plain, recv := recv }
def wEmitted : Item := { wItem with stage := .emitted ⟨64, 1, 0, false, 0⟩ }
/-- Prism 0 runs an image whose entries are 0, and an item waits. -/
def sDispatch : State := (withItem zm wWaiting).setCluster 0 { Cluster.reset with low := some im8, active := some false }
def busy8 : Tbl Thread := (List.range 128).map fun k => (k, { Thread.reset with mode := .ready })
def sNoThread : State := (withItem zm wWaiting).setCluster 0 { Cluster.reset with low := some im8, active := some false, threads := busy8 }
def pkd (twin : Bool) : Parked := { item := { wItem with stage := .waiting }, twin := twin, due := 50 }
def withParked (s : State) (p : Parked) : State := s.setUnit 0 { PrismUnit.reset with parked := [p] }
def sParked : State := withParked sPair (pkd false)
def q12 : BitVec 12 := 0

/-! ### Threads, regions, rings -/

def sThread (m : ThreadMode) : State := z.setCluster 0 { Cluster.reset with threads := [(0, { Thread.reset with mode := m })] }
/-- HULL_REGION: operation, memory, region and its other fields. -/
def dRegion (op fl r : Nat) (fs : List (Nat × Nat)) : Desc := cmd 0x080 ([(3, fl), (8, op), (0xA, r)] ++ fs)
/-- CREATE of HBM region 15 of 64 MiB at 0x4000000. -/
def dRegionCreate (fl : Nat) : Desc := dRegion 0 fl 15 [(0xC, 0x3FFF), (0x10, 0x4000000), (0x18, 0x4000000)]
def dRekey : Desc := cmd 0x081 [(0xA, 0)]
def region0 (f : Region → Region) : State :=
  zm.setRegion 0 (f { Region.reset with state := .active, rights := 0x3FFF, base := 0, size := 1 })
def sRekeying : State := region0 fun r => { r with state := .rekey, work := some dRekey }
def sOverflow : State := region0 fun r => { r with integ := true, overflowPass := [0] }
def sInteg : State := region0 fun r => { r with integ := true }
def sDeleting : State := region0 fun r => { r with deleting := true, work := some dRekey }
def sFilling : State := region0 fun r => { r with filling := some (0, 64, 5) }
/-- One GiB of DDR on channel 0, with DDR region 0 of 64 MiB. -/
def sDdr : State := { zm with hull := { zm.hull with up := 7, gib0 := 1, regions := [(16, { Region.reset with
  state := .active, rights := 0x3FFF, base := 0x400, size := 1 })] } }
/-- The registers of completion ring 63 and command ring 0 name DDR. -/
def sRingRegs : State := ((sDdr.setReg 0x003037E4 0x10).setReg 0x00302004 0x10).setRing .completion 0 { Ring.reset with state := .running }
def r63 : Fin 64 := 63
def r0 : Fin 64 := 0
def withRing (k : RingKind) (r : Nat) (x : Ring) : State := z.setRing k r x
def xUnread : Ring := { Ring.reset with state := .running, us := 10, unread := [(0, 5, true)] }
def sFetch : State := (poke zm 0x1000 (le 64 dNop.word.toNat)).setRing .command 0 { Ring.reset with state := .running, base := 0x1000, cap := 16, pi := 1 }

/-! ### Sealing -/

/-- SEAL of one octet under policy 0, attribute byte a. -/
def pSeal (a : Nat) : List Byte := [0, BitVec.ofNat 8 a, 0, 0] ++ le 8 1 ++ [0x5A]
/-- A blob of one octet (or of a 16-octet key) sealed by the part in PERSONALISED with attribute byte a. -/
def blob (a : Nat) (pt : List Byte) : List Byte :=
  let h := blobHeader pt.length 1 0 a 0 (List.replicate 16 3) (List.replicate 12 4)
  let (ct, tag) := Crypto.gcmSeal 32 ((asking 9 0 []).sealKey 0 (List.replicate 16 3) []) (ivOf (List.replicate 12 4)) h pt
  h ++ ct ++ tag
def pToSlot : List Byte := [0, 0, 0, 4] ++ blob 4 (List.replicate 16 9)
def pMigrate : List Byte := [1, 0, 0, 0, 4, 0, 0, 0] ++ List.replicate 48 7 ++ blob 1 [0x5A]
def flashed (s : State) : State := withApexF s fun a => { a with flashErase := true, flashSize := 0x100000,
                                                                  flash := (blob 1 [0x5A]).zipIdx.map fun e => (0x1000 + e.2, e.1) }

/-! ### Sector -/

/-- GATE_LOAD for port 31 of one entry at 0x1000, cycle 1000 ns, base 999,999,999 ns. -/
def dGateLoad : Desc := cmd 0x042 [(8, 31), (0xC, 1), (0x10, 0x1000), (0x18, 1000), (0x22, 999999999)]
def dGateArm (fl : Nat) : Desc := cmd 0x043 [(3, fl), (8, 31)]
def gl (start : Nat) : GateList := { entries := [(0xFF, 500), (1, 500)], cycle := 1000, start := start }
def gates (g : GatePort) : State := zm.setGate 31 g
def sGateArmed : State := gates { GatePort.reset with pend := some (gl 5000), armed := true, pstart := 5000 }
def sGateOper : State := gates { GatePort.reset with oper := some (gl 0) }
def x31f : Fin 32 := 31
/-- IND_DATA0 holds word 0 of a policer record. -/
def sInd (v : Word32) : State := z.setReg 0x01000010 v

/-! ### Supply -/

def warns (l : List (Nat × Nat)) : State := { z with cpr := { z.cpr with warn := l } }
def withCprF (f : CprState → CprState) : State := { z with cpr := f z.cpr }
def sHotTrip : State := withCprF fun c => { c with por := false }
def sTripped : State := withCprF fun c => { c with trip := some 5, coolSince := some 6 }
def sPor (b : Bool) : State := withApexF (withCprF fun c => { c with por := b }) fun a => { a with booted := false, held := false }

/-! ### Threads -/

/-- Thread 0 of Prism 0, changed. -/
def thread0 (s : State) (f : Thread → Thread) : State := s.setCluster 0 { Cluster.reset with threads := [(0, f { Thread.reset with mode := .ready })] }
def tid0 : Tid := ⟨0, 0⟩
def j0 : Fin 8 := 0
def j1 : Fin 8 := 1
def oDesc (p : Option (Nat × Bool)) : OutDesc := { op := 0, reads := [(0, 16)], writes := [(0, 16)], acc := none, pred := p, held := none }
def sDesc (p : Option (Nat × Bool)) : State := thread0 zm fun t => { t with descs := [oDesc p] }
/-- The second descriptor reads what the first writes. -/
def sDesc2 : State := thread0 zm fun t => { t with descs := [oDesc none, oDesc none] }
def rLoad : Result := { regs := [.g 1], load := some 64 }
def rReg : Result := { regs := [.g 2], load := none }
def sResults : State := thread0 zm fun t => { t with results := [rLoad, rReg] }
def sReads (s : State) : State := thread0 s fun t => { t with reads := [64] }
def badLine : State := { zm with hull := { zm.hull with badLines := [(1, .ecc)] } }
def sSampler : State := (z.setReg (clusterBase 0 + 264) 0x80000000).setReg (clusterBase 0 + 268) 0x8000
def cl16 : Fin 17 := 16

/-! ### Twin -/

/-- TWIN_CONFIG of an operation, with LEASE_MS 5. -/
def dTwin (op : Nat) : Desc := cmd 0x070 [(8, op), (0x18, 5)]
def dTwinBody : Desc := cmd 0x071 [(0x10, 0x1000)]
def leased (l : Lease) (f : TwinState → TwinState) : State := withPair zm fun t => f { t with lease := l }
def sTwinCurrent : State := leased .active fun t => { t with linkUp := true, ackedInSession := true }
def sStandby : State := leased .standby fun t => { t with linkUp := true }
def sAsked : State := withPair sChordActive fun t => { t with ackedInSession := true }
def sHanding (c : Option Desc) : State := leased .handover fun t => { t with handover := some (c, 50, 1) }

/-! ### Resets -/

def sResetting : State := withCprF fun c => { c with dpBusy := some 5, por := false }
def sReady0 : State := withCprF fun c => { c with por := false, dpBusy := none }

/-! ### Radius -/

def withRad (s : State) (f : RadiusState → RadiusState) : State := { s with radius := f s.radius }
def running (s : State) : State := withRad s fun r => { r with mode := .running }
def rItem0 : RItem := { id := 7, up := true, thr := none, batch := 1, sensor := 0, slot := 0, group := 0, gateway := 0, at_ := 0, record := [], ver := 1
                        image := [], buf := [], params := 0, route := 0, key := none, root := none, counter := 0, window := 0, stalled := false, waitOut := false }
def sInbound : State :=
  let s := running (withQ sHeld 255 { qOpen with written := 1 })
  { s with annulus := { s.annulus with inbound := [1] } }
def rb0 : RBatch := { id := 1, left := 0, ack := some (3, 9) }
def sBatch : State := withRad z fun r => { r with batches := [rb0] }
def rl0 : RecLock := { owner := 0x1100, due := 50, sensor := 7 }
def sRecLock : State := withRad z fun r => { r with locks := [(3, rl0)] }
def sRadItem : State := withRad zm fun r => { r with items := [rItem0] }
def tRad : Tid := ⟨256, 0⟩
def dg0 : Datagram := { group := 4095, params := 0, route := 0, closed := false, records := [List.replicate 64 1#8], due := 50 }
def sDatagram : State := withRad zm fun r => { r with datagrams := [dg0] }
def se0 (held : Option RItem) : StoreEntry := { id := 5, place := 0, held := held, sensor := 7, group := 1, params := 0, route := 0, appTag := 0, gateway := 0, queue := 8191, counter := 1
                                                window := 2000, expiry := 900, lead := 1000, record := [1#8] }
def sStore (held : Option RItem) : State := running (withRad z fun r => { r with store := [se0 held] })
def g4095 : Fin 4096 := 4095
def q8191 : Fin 8192 := 8191
/-- SENSOR_GROUP_SET of a form for an entry, from 0x1000. -/
def dSet (form i : Nat) : Desc := cmd 0x090 [(8, form), (0xC, i), (0x10, 0x1000)]
def sBytes (bs : List Byte) : State := poke zm 0x1000 bs
def profileBytes : List Byte := [1, 1] ++ List.replicate 22 0 ++ le 4 100 ++ le 4 1
def dService (fl : Nat) : Desc := cmd 0x090 [(3, fl), (8, 4)]
/-- HBM region 0 is CONF+INT and covers all of HBM, zeros. -/
def sArea : State :=
  { zm with
    hull := { zm.hull with regions := [(0, { Region.reset with state := .active, integ := true, rights := 0x3FFF, base := 0, size := 512 })] }
    mem := { cells := [], fills := [{ base := 0, len := 2 ^ 35, pat := some 0, epoch := 1 }] } }
def sTable : State := withRad sArea fun r => { r with sensors := 1 }
def sDrain (l : List RItem) : State := withRad z fun r => { r with disable := some (dService 0, 50), items := l }
/-- SENSOR_CHECKPOINT of a form for generation 1. -/
def dCkpt (form len : Nat) : Desc := cmd 0x092 [(8, form), (0xC, 1), (0x10, 0x1000), (0x18, len)]
/-- A VALID sensor record that a checkpoint is owed. -/
def rec5 (g : Nat) : List Byte := le 8 5 ++ le 2 1 ++ le 2 5 ++ le 4 0 ++ List.replicate 28 0 ++ le 4 g ++ List.replicate 16 0
/-- It stands in slot 0. -/
def sRecord (g : Nat) : State := poke sArea 0x40000000 (rec5 g)

/-! ### Locus tables -/

/-- TBL_READ of n records of table t at 0x1000, bucket b. -/
def dTblRead (t n b : Nat) : Desc := cmd 0x030 [(8, t), (0xC, n), (0x10, 0x1000), (0x18, b)]
/-- TBL_WRITE of one record of table t, operation op. -/
def dTblWrite (t op : Nat) : Desc := cmd 0x031 [(8, t), (9, op), (0xC, 1), (0x10, 0x1000)]
def dTblDelete : Desc := cmd 0x032 []
/-- TBL_LOCK and TBL_UNLOCK of bucket 5. -/
def dTblLock : Desc := cmd 0x033 [(8, 1), (0xC, 1), (0x18, 5)]
def dTblUnlock : Desc := cmd 0x034 [(8, 1), (0xC, 1), (0x18, 5)]
def emz (hit learned : Bool) : EmEntry := { key := 0, profile := 0, static := false, learned := learned, hit := hit, learnLp := 127, result := 0 }
def withEm (hit learned : Bool) : State := locus zm fun l => { l with em := [(589823, emz hit learned)] }
def withV4 : State := locus zm fun l => { l with v4 := [(0, some 5)] }
def lockedBy (o : Nat) : State := locus zm fun l => { l with locks := [(5, (o, 9))] }
def wLock : TblWait := { desc := dTblLock, due := 50, done := 0, buf := [] }
def sTblWait : State := locus (lockedBy 0x2001) fun l => { l with waits := [wLock] }
def b5 : BitVec 18 := 5

/-! ### The premises that several statements share, as checks -/

def accepts (d : Desc) (f : Nat) (l : List (Nat × Nat)) (s : State) : Bool :=
  s.mayStart d && (s.reserve d).isSome && decide (headerStatus d (((s.reserve d).getD s).versionFor d) f l = none)

theorem accepts_spec {d : Desc} {f : Nat} {l : List (Nat × Nat)} {s : State} (h : accepts d f l s = true) :
    Accepted d f l s ((s.reserve d).getD s) := by
  simp only [accepts, Bool.and_eq_true, decide_eq_true_eq] at h
  obtain ⟨⟨h1, h2⟩, h3⟩ := h
  obtain ⟨x, hx⟩ := Option.isSome_iff_exists.mp h2
  exact ⟨h1, by simp [hx], h3⟩

def serves (m : Mbx) (code : Nat) (s : State) : Bool :=
  s.apex.booted && s.mbxTurn m && (s.mbx m).code == code && !s.otherHeld m && (s.apex.holdCode == 0 || m == .compass) &&
    decide ((s.mbx m).len ≤ 508)

theorem serves_spec {m : Mbx} {code : Nat} {s : State} (h : serves m code s = true) : Serves m code s (s.mbx m).payload := by
  simp only [serves, Bool.and_eq_true, Bool.or_eq_true, Bool.not_eq_true', beq_iff_eq, decide_eq_true_eq] at h
  obtain ⟨⟨⟨⟨⟨h1, h2⟩, h3⟩, h4⟩, h5⟩, h6⟩ := h
  exact ⟨h1, h2, h3, h4, h5, h6, rfl⟩

def issuable (i : Issue) (s : State) : Bool :=
  let c := i.t.cl
  let k := i.t.key
  let u := s.wake c
  let t := u.thread c k
  let w := nextWord i s
  let v := if i.imem = .corrected then (u.count (cid 0x05 0 c)).raiseOnce 0x185 0 [BitVec.ofNat 8 c] else u
  t.mode == .ready && u.eligibleThread c k && (u.pairsNow c k t.pc w || u.chosen c (k / 8) == some k) && i.imem != .uncorrectable &&
    (Ins.of w).legal c && !v.mustWait c k (Ins.of w) && t.guardOk (Ins.of w)

theorem issuable_spec {i : Issue} {s : State} (h : issuable i s = true) : Issues i (nextIns i s) s (issued i s) := by
  simp only [issuable, nextWord, Bool.and_eq_true, Bool.or_eq_true, Bool.not_eq_true', beq_iff_eq, bne_iff_ne] at h
  obtain ⟨⟨⟨⟨⟨⟨h1, h2⟩, h3⟩, h4⟩, h5⟩, h6⟩, h7⟩ := h
  exact ⟨rfl, h1, h2, h3, h4, h5, h6, h7, rfl⟩

/-! ### Further states -/

/-- A HELLO of 56 octets with version bitmap v and the sender's identity o. -/
def helloMsg (v o : Nat) : List Byte := [1, 1] ++ List.replicate 6 0 ++ [BitVec.ofNat 8 v] ++ List.replicate 23 0 ++ be 16 o ++ List.replicate 8 0
/-- Radius thread 0 holds an item whose working key is 5. -/
def radKeyed : State :=
  (withRad zm fun r => { r with items := [{ rItem0 with thr := some 0, key := some { share := 5, mask := 0 } }] }).setCluster 16
    { Cluster.reset with threads := [(0, { Thread.reset with mode := .ready, item := some 7 })] }
/-- A block descriptor of an operation. -/
def bd (op : Nat) : BlockDesc :=
  { op := op, keysel := 0, count := 1, route := 0, acc := 0, src := 0, dst := 16, last := 16, template := 0, clean := true }
def soloCtx (t : Tbl Assoc) : State := withPair (withCtx sLine t) fun x => { x with lease := .solo }
/-- Facet port 0 with line port 0 enabled. -/
def facetUp (f : FacetPort → FacetPort) : State := (facet f).setLport 64 { pLine with mode := some 7 }
/-- The 256-bit key 5 wrapped under itself (RFC 3394). -/
def wrapped : List Byte := be 40 0x87bfca720b6e343440199adcbc186f3ef6970e946283b010b43b11724b51f46ba05db19a3ce1e12b
def askingD (k code : Nat) (p : List Byte) : State :=
  { z with apex := { z.apex with booted := true, otp := { z.apex.otp with lcCells := lcCellsOf k }, mbxD := { Mailbox.reset with
      busy := true, req := bufOf (le 2 p.length ++ le 2 code ++ p) } } }
/-- A request whose length field says 509. -/
def askingLong : State :=
  { z with apex := { z.apex with booted := true, otp := { z.apex.otp with lcCells := lcCellsOf 9 }, mbxC := { Mailbox.reset with
      busy := true, req := bufOf (le 2 509 ++ le 2 16) } } }
def arbFrame : List Byte :=
  let b := List.replicate 12 0#8 ++ be 2 0x88B5 ++ List.replicate 46 0#8
  b ++ le 4 (Crypto.crc32 b).toNat
/-- The receive staging of Prism 0 is full. -/
def rxFull (s : State) : State := withItem s { wItem with recv := true, line := 2048, lines := 2048 }
/-- A secured frame: SC, E and C set, the association number, packet number and SCI given (Table 5.6). -/
def secured (an pn sci : Nat) : List Byte :=
  List.replicate 12 2#8 ++ be 2 0x88E5 ++ [BitVec.ofNat 8 (0x2C + an), 0] ++ be 4 pn ++ be 8 sci ++ List.replicate 64 0#8
/-- A frame with a UDP datagram over IPv4 without a checksum. -/
def udp (p : List Byte) : List Byte :=
  List.replicate 12 0#8 ++ [8, 0, 0x45] ++ List.replicate 19 0 ++ List.replicate 4 0 ++ be 2 (8 + p.length) ++ [0, 0] ++ p
/-- The image of Prism 0 is the shipped one by its version and count. -/
def sShipped : State :=
  (withItem zm wWaiting).setCluster 0 { Cluster.reset with low := some { im8 with version := 0x00030002, count := 3712 }, active := some false }

/-! ### Checks of well-formedness: an ill-formed term for each, refused, beside one that is well-formed -/

def bothBlocks : List ClientBlocks := [⟨0, []⟩, ⟨0, []⟩]
def noLane : Lane := ⟨.chord, 9⟩
def noRail : Rail := ⟨11⟩

theorem test_wf_client_blocks : (Instr.facetFrameTransmit fp0 ⟨bothBlocks, false⟩).wf = false ∧ (Instr.facetFrameTransmit fp0 ⟨bothBlocks.take 1, false⟩).wf = true := by decide
theorem test_wf_marker_lanes : (Instr.markerCodewordReceive fp0 0 (seen 1 ++ seen 1)).wf = false ∧ (Instr.markerCodewordReceive fp0 0 (seen 1)).wf = true := by
  decide +kernel
theorem test_wf_slots : (Instr.generationDrainEnd 135168).wf = false ∧ (Instr.sweepSlotVisit 262400).wf = false ∧
    (Instr.generationDrainEnd 131071).wf = true ∧ (Instr.sweepSlotVisit 262399).wf = true := by decide
theorem test_wf_record_slot : (Instr.recordLockLeaseExpiry (2 ^ 27)).wf = false ∧ (Instr.recordLockLeaseExpiry (2 ^ 27 - 1)).wf = true := by decide
theorem test_wf_rings : (Instr.ringEnable .management r63 0).wf = false ∧ (Instr.ringDisable .event r63 0).wf = false ∧
    (Instr.ringCiWrite .event r63 0).wf = false ∧ (Instr.interruptDelayExpiry .management r63).wf = false ∧
    (Instr.ringEnable .completion r63 0).wf = true := by decide
theorem test_wf_lanes : ((([.transmitPllLock, .signalDetect, .signalLoss, .phaseLock, .adaptConverged, .lossOfLock, .fastRelockExpiry, .lockTimeout,
      .prbsCheckerLockLoss] : List (Lane → Instr)).map fun f => (f noLane).wf) ++
    [(Instr.trainComplete noLane true).wf, (Instr.laneCfgWrite noLane 0).wf, (Instr.laneTxeqWrite noLane 0).wf, (Instr.prbsCfgWrite noLane 0).wf,
      (Instr.errorInject noLane 0).wf, (Instr.eyeScanGo noLane 0).wf, (Instr.eyeScanDone noLane 0).wf]).all (· == false) = true := by decide
theorem test_wf_rails : (Instr.railWarningEntry noRail).wf = false ∧ (Instr.railWarningExit noRail).wf = false ∧ (Instr.supplyReset noRail).wf = false ∧
    (Instr.overVoltage noRail).wf = false ∧ (Instr.overVoltage ⟨10⟩).wf = true := by decide
theorem test_wf_temperature : (Instr.temperatureSample 1 2).wf = false ∧ (Instr.temperatureSample 1 (-2)).wf = true := by decide
theorem test_wf_offset : (Instr.registerWrite 2 0 .compass).wf = false ∧ (Instr.registerWrite 4 0 .compass).wf = true := by decide
theorem test_wf_all_else : Instr.wf .aonBrownOut = true := rfl

/-! ### Table words: the table gives no row bits -/

theorem test_no_table_word (n w : Nat) : decodeTableWord n w = none := rfl
theorem test_no_fetch_word (s : State) (n w : Nat) : s.withFetchWord n w = s := rfl

/-! ### The algorithms that the part names, by published values -/

/-- FIPS 197, C.1 and C.3. -/
theorem test_aes : Crypto.aesEnc 16 0x000102030405060708090a0b0c0d0e0f 0x00112233445566778899aabbccddeeff#128 = 0x69c4e0d86a7b0430d8cdb78070b4c55a#128 ∧
    Crypto.aesEnc 32 0x000102030405060708090a0b0c0d0e0f101112131415161718191a1b1c1d1e1f 0x00112233445566778899aabbccddeeff#128 =
      0x8ea2b7ca516745bfeafc49904b496089#128 := by decide +kernel
/-- The GCM specification, test case 14. -/
theorem test_gcm : Crypto.gcmSeal 32 0 0 [] (List.replicate 16 0) =
    (be 16 0xcea7403d4d606b6e074ec5d3baf39d18, be 16 0xd0d1c8a799996bf0265b98b5d48ab919) := by decide +kernel
/-- RFC 4493, the empty message. -/
theorem test_cmac : Crypto.cmac 16 0x2b7e151628aed2a6abf7158809cf4f3c [] = 0xbb1d6929e95937287fa37d129b756746#128 := by decide +kernel
/-- RFC 3394, 4.1. -/
theorem test_key_wrap : Crypto.wrap 16 0x000102030405060708090A0B0C0D0E0F 2 0x00112233445566778899AABBCCDDEEFF =
    0x1FA68B0A8112B447AEF34BD8FB5A7B829D3E862371D2CFE5 := by decide +kernel
/-- FIPS 180-4, the message abc. -/
theorem test_sha384 : Crypto.sha384 [0x61, 0x62, 0x63] =
    0xcb00753f45a35e8bb5a03d699ac65007272c32ab0eded1631a8b605a43ff5bed8086072ba1e7cc2358baeca134c825a7#384 := by decide +kernel
/-- The check values of CRC-32 and CRC-16/CCITT-FALSE over 123456789. -/
theorem test_crc : Crypto.crc32 (be 9 0x313233343536373839) = 0xCBF43926#32 ∧ Crypto.crc16 (be 9 0x313233343536373839) = 0x29B1#16 := by
  decide +kernel
/-- An altered certificate fails. -/
theorem test_ecdsa : Crypto.ecdsaVerify (slice cert 0x40 96) (slice cert 0xA0 96) (slice cert 0 0xA0) = true ∧
    Crypto.ecdsaVerify (slice cert 0x40 96) (slice cert 0xA0 96) (slice cert 0 0x9F ++ [0]) = false := by decide +kernel

/-! ### Worked examples of the spec -/

/-- 05_macsec_mode, XPN recovery at a rollover: the recovered packet numbers. -/
theorem test_xpn_recovery : let a : Assoc := { aRx with suite := 2, next := 0x1FFFFFFC8 }
    a.recoverPn 0x00000005 = 0x200000005 ∧ a.recoverPn 0xFFFFFFC0 = 0x2FFFFFFC0 ∧ a.recoverPn 0x00000010 = 0x200000010 := by decide +kernel
/-- 05_macsec_mode, a 64-byte client frame: 96 octets on the line, 116 with the gap and preamble of R8. -/
theorem test_wire_length : (z.setLport 64 { LPort.reset with macsec := 0x380000 }).wireLen 1 0 60 false = 116 := by decide +kernel
/-- 06_facet_frame, one 400G client on L6, step 5: the IV. -/
theorem test_facet_iv : facetIv 0x3A91C04E 0x0123 0x000000041F00 = 0x3A91C04E0123000000041F00#96 := by decide
/-- 12_sensor_service, one uplink, step 3: the owner ID of E12 thread 3. -/
theorem test_radius_owner : vOwner 16 (12 * 8 + 3) = 0x1863 := by decide
/-- 15_scheduler_gates, a late base time on L5, step 1: the start. -/
theorem test_gate_start : (withGnomon z fun g => { g with time := 1700000123456789000 }).gateStart
    { entries := [(0x80, 200), (0x7F, 999800)], cycle := 1000000, start := 1700000000000000000 } = 1700000123457000000 := by decide +kernel
/-- The same: the longest windows of groups 7 and 0. -/
theorem test_gate_windows : let l : GateList := { entries := [(0x80, 200), (0x7F, 999800)], cycle := 1000000, start := 0 }
    l.longest 7 = some 200 ∧ l.longest 0 = some 999800 := by decide +kernel
/-- 16_time, a forward step across a second: the time, and the one tick. -/
theorem test_step : let s := (withGnomon z fun g => { g with time := 1700000099800000040 }).jumpTo 1700000100200000040 0
    s.gnomon.time = 1700000100200000040 ∧ s.gnomon.tickSec = 1700000100 := by decide +kernel
/-- 21_commands, installing a receive key: the header and the body of KEY_STAGE. -/
theorem test_key_stage_bytes : let d : Desc := ⟨5, BitVec.ofNat 512 (leNat ([0x02, 0x01, 0, 0, 0x17, 0x05, 0, 0, 0x02, 0xA0, 0, 0, 0, 2, 8, 0, 0, 0x20, 0,
      0x40, 0x10, 0, 0, 0, 0, 0, 0, 0, 0x20, 0, 0, 0] : List Byte))⟩
    d.opcode = 0x010 ∧ d.version = 2 ∧ d.tag = 0x0517 ∧ slotField d 8 = 40962 ∧ d.get 0xD 1 = 2 ∧ d.get 0xE 1 = 8 ∧
    d.get 0x10 8 = 0x1040002000 ∧ d.get 0x1C 4 = 32 := by decide +kernel
/-- 20_control_rings, the worked example: the unread records. -/
theorem test_unread : (0xA17 + 2 ^ 17 - 0xA0F) % 2 ^ 17 = 8 := by decide

/-! ### Reset values of registers (the tables of the chapters) -/

theorem test_reset_registers : ∀ e ∈ ([(0x0, 0x64160000), (0x4, 0xA1), (0x20, 0x060E0206), (0x24, 0x10101040), (0x28, 0x20001000), (0x2C, 0x04000800),
    (0x30, 0xFF), (0x300000, 1), (0x301000, 0), (0x400000, 0), (0x800010, 0x80800000), (0x800020, 0x80000), (0x801000, 0), (0x801FF4, 0x80000),
    (0xC00000, 8), (0xC00004, 0), (0xC00008, 0x3E8), (0xC00100, 0x10000000), (0xC00178, 0x10000000), (0xC00104, 0)] : List (Nat × Nat)),
    z.readReg .compass e.1 = BitVec.ofNat 32 e.2 := by decide +kernel
theorem test_reset_registers_2 : ∀ e ∈ ([(0x1001004, 0xFF00), (0x10013E4, 0xFF00), (0x140001C, 0x7D0), (0x1400028, 0x64), (0x1800000, 0x20),
    (0x180000C, 0x03000000), (0x2000000, 2), (0x2F00000, 2), (0x2000100, 0x10), (0x2000108, 0x1000), (0x200010C, 0xFFFF), (0x2000118, 0x3F),
    (0x300010C, 0xFFFFFFFF), (0x3001004, 0x7706), (0x3001008, 0xA0000), (0x3401004, 0x3AD80), (0x3800100, 0x380000), (0x3800110, 0x88F7888E),
    (0x39E0114, 0x88B5), (0x3800200, 0x10), (0x3C00004, 0x00FA00FA), (0x3E01000, 0x80000000), (0x3E01FFC, 0x80000000)] : List (Nat × Nat)),
    z.readReg .compass e.1 = BitVec.ofNat 32 e.2 := by decide +kernel

/-! ### Witnesses: states and operands that meet the hypotheses of the statements -/

/-- Hypotheses of Obligations.AssociationTimersAndRotations, part 1. -/
theorem witness_association_timers_and_rotations_1 :
    ((let h : BitVec 17 := 0;
      let s : State := withCtx sLine [(0, { aRx with overlapDue := some 7, status := .retiring })];
      (match ((s.sa h.toNat).overlapDue) with
        | some t0 =>
          decide (((s.passTo t0).sa h.toNat).status = AssocStatus.free ∨ ((s.passTo t0).sa h.toNat).status = AssocStatus.retiring)
        | _ => false)) &&
     (let h : BitVec 17 := 0#17;
      (let s : State := sOverlap;
       (match ((s.sa h.toNat).overlapDue) with
         | some t0 =>
           decide (((s.passTo t0).sa h.toNat).status ≠ AssocStatus.free) &&
           decide (((s.passTo t0).sa h.toNat).status ≠ AssocStatus.retiring) &&
           decide (((s.passTo t0).sa h.toNat).facet = false)
         | _ => false) &&
       decide (List.lookup h.toNat s.assoc.locks = none)) &&
      (let s : State := sOverlapFacet;
       (match ((s.sa h.toNat).overlapDue) with
         | some t0 =>
           decide (((s.passTo t0).sa h.toNat).status ≠ AssocStatus.free) &&
           decide (((s.passTo t0).sa h.toNat).status ≠ AssocStatus.retiring) &&
           decide (((s.passTo t0).sa h.toNat).facet = true)
         | _ => false)) &&
      (let s : State := sCtxLock;
       (match (List.lookup h.toNat s.assoc.locks) with
         | some (_, _) =>
           true
         | _ => false))) &&
     (let h : BitVec 17 := 131071#17;
      let s : State := sOverlap;
      decide ((s.sa h.toNat).overlapDue = none)) &&
     (let h : Nat := 7;
      let s : State := sOverlap;
      decide ((s.writeMem Master.annulus 0 (s.statsAddr h) (List.flatMap (fun (i : Nat) => le 8 (leAt (s.mem.get (s.statsAddr h) 64) (8
          * i) 8 + (tget 0 (s.sa h).delta i).toNat)) (List.range 8))).fst = true)) &&
     (let h : Nat := 1000000000;
      let s : State := sOverlap;
      decide ((s.writeMem Master.annulus 0 (s.statsAddr h) (List.flatMap (fun (i : Nat) => le 8 (leAt (s.mem.get (s.statsAddr h) 64) (8
          * i) 8 + (tget 0 (s.sa h).delta i).toNat)) (List.range 8))).fst = false))) = true := by decide +kernel

/-- Hypotheses of Obligations.AssociationTimersAndRotations, part 2. -/
theorem witness_association_timers_and_rotations_2 :
    (let d : Desc := dRotate;
     (let s : State := poke sPair 0x1000 (List.replicate 8 0xFF#8);
      let s0 : State := (s.reserve d).getD s;
      decide (bitOf d.flags 1 = false) &&
      decide (1 ≤ d.get 16 4) &&
      decide (d.get 16 4 ≤ 131072) &&
      decide (d.get 20 1 ≤ 1) &&
      decide (d.get 20 1 = 0 → d.get 24 8 = 0) &&
      decide (d.get 20 1 = 1 → d.get 32 10 = 0) &&
      (match ((s0.readMem Master.annulus (ringOwner d.ring.val) (d.get 8 8) (8 * d.get 16 4)).fst) with
        | MemRead.data bs =>
          decide (rotEntries (d.get 16 4) bs = none) &&
          accepts d 2 [(8, 13), (24, 8), (32, 10)] s
        | _ => false)) &&
     (let s : State := withPair sPair fun t => { t with lease := .standby };
      let s0 : State := (s.reserve d).getD s;
      decide (bitOf d.flags 1 = false) &&
      decide (1 ≤ d.get 16 4) &&
      decide (d.get 16 4 ≤ 131072) &&
      decide (d.get 20 1 ≤ 1) &&
      decide (d.get 20 1 = 0 → d.get 24 8 = 0) &&
      decide (d.get 20 1 = 1 → d.get 32 10 = 0) &&
      (match ((s0.readMem Master.annulus (ringOwner d.ring.val) (d.get 8 8) (8 * d.get 16 4)).fst) with
        | MemRead.data bs =>
          (match (rotEntries (d.get 16 4) bs) with
            | some es =>
              decide ((if d.get 20 1 = 1 then d.get 24 8 == 0 || d.get 24 8 % 256 != 0 && es.any fun (e : Nat × Nat × Bool) => e.snd.snd ||
                  e.fst == e.snd.fst else decide (999999999 < d.get 38 4)) = false) &&
              decide ((s0.readMem Master.annulus (ringOwner d.ring.val) (d.get 8 8) (8 * d.get 16 4)).snd.twin.lease = Lease.standby) &&
              accepts d 2 [(8, 13), (24, 8), (32, 10)] s
            | _ => false)
        | _ => false)) &&
     (let s : State := sOverlap;
      let s0 : State := (s.reserve d).getD s;
      decide (bitOf d.flags 1 = false) &&
      decide (1 ≤ d.get 16 4) &&
      decide (d.get 16 4 ≤ 131072) &&
      decide (d.get 20 1 ≤ 1) &&
      decide (d.get 20 1 = 0 → d.get 24 8 = 0) &&
      decide (d.get 20 1 = 1 → d.get 32 10 = 0) &&
      (match ((s0.readMem Master.annulus (ringOwner d.ring.val) (d.get 8 8) (8 * d.get 16 4)).fst) with
        | MemRead.data bs =>
          (match (rotEntries (d.get 16 4) bs) with
            | some es =>
              decide ((if d.get 20 1 = 1 then d.get 24 8 == 0 || d.get 24 8 % 256 != 0 && es.any fun (e : Nat × Nat × Bool) => e.snd.snd ||
                  e.fst == e.snd.fst else decide (999999999 < d.get 38 4)) = false) &&
              decide ((s0.readMem Master.annulus (ringOwner d.ring.val) (d.get 8 8) (8 * d.get 16 4)).snd.twin.lease ≠ Lease.standby) &&
              accepts d 2 [(8, 13), (24, 8), (32, 10)] s
            | _ => false)
        | _ => false))) = true := by decide +kernel

/-- Hypotheses of Obligations.AssociationTimersAndRotations, part 3. -/
theorem witness_association_timers_and_rotations_3 :
    (let d : Desc := cmd 0x022 [(8, 0x1000), (0x10, 1), (0x26, 1000000000)];
     let s : State := sPair;
     let s0 : State := (s.reserve d).getD s;
     decide (bitOf d.flags 1 = false) &&
     decide (1 ≤ d.get 16 4) &&
     decide (d.get 16 4 ≤ 131072) &&
     decide (d.get 20 1 ≤ 1) &&
     decide (d.get 20 1 = 0 → d.get 24 8 = 0) &&
     decide (d.get 20 1 = 1 → d.get 32 10 = 0) &&
     (match ((s0.readMem Master.annulus (ringOwner d.ring.val) (d.get 8 8) (8 * d.get 16 4)).fst) with
       | MemRead.data bs =>
         (match (rotEntries (d.get 16 4) bs) with
           | some es =>
             decide ((if d.get 20 1 = 1 then d.get 24 8 == 0 || d.get 24 8 % 256 != 0 && es.any fun (e : Nat × Nat × Bool) => e.snd.snd ||
                 e.fst == e.snd.fst else decide (999999999 < d.get 38 4)) = true) &&
             accepts d 2 [(8, 13), (24, 8), (32, 10)] s
           | _ => false)
       | _ => false)) = true := by decide +kernel

/-- Hypotheses of Obligations.AssociationTimersAndRotations, part 4. -/
theorem witness_association_timers_and_rotations_4 :
    ((let ring : Fin 64 := ring0;
      (let s : State := sRotBad;
       let tag : BitVec 16 := 7#16;
       (match (List.find? (fun (r : Rotation) => !r.armed && r.name == (ring.val, tag.toNat)) s.assoc.rots) with
         | some v_r =>
           (match (v_r.desc) with
             | some _ =>
               (match ((s.passTo v_r.armedAt).firstBad 0 [] v_r.listForm) with
                 | some _ =>
                   true
                 | _ => false)
             | _ => false)
         | _ => false)) &&
      (let s : State := sRotTime;
       let tag : BitVec 16 := 7#16;
       (match (List.find? (fun (r : Rotation) => !r.armed && r.name == (ring.val, tag.toNat)) s.assoc.rots) with
         | some v_r =>
           (match (v_r.desc) with
             | some _ =>
               decide ((s.passTo v_r.armedAt).firstBad 0 [] v_r.listForm = none) &&
               (match (v_r.trigger) with
                 | RotTrigger.time t0 =>
                   decide ((s.passTo v_r.armedAt).gnomon.time + 10000 ≤ t0)
                 | _ => false)
             | _ => false)
         | _ => false)) &&
      (let s : State := sRotPn;
       let tag : BitVec 16 := 7#16;
       (match (List.find? (fun (r : Rotation) => !r.armed && r.name == (ring.val, tag.toNat)) s.assoc.rots) with
         | some v_r =>
           (match (v_r.desc) with
             | some _ =>
               decide ((s.passTo v_r.armedAt).firstBad 0 [] v_r.listForm = none) &&
               (match (v_r.trigger) with
                 | RotTrigger.pn _ =>
                   true
                 | _ => false)
             | _ => false)
         | _ => false)) &&
      (let s : State := sOverlap;
       let tag : BitVec 16 := 7#16;
       decide (List.find? (fun (r : Rotation) => !r.armed && r.name == (ring.val, tag.toNat)) s.assoc.rots = none)) &&
      (let s : State := sRotArmed;
       let tag : BitVec 16 := 7#16;
       (match (List.find? (fun (r : Rotation) => r.armed && r.name == (ring.val, tag.toNat)) s.assoc.rots) with
         | some v_r =>
           (match (v_r.trigger) with
             | RotTrigger.time _ =>
               true
             | _ => false)
         | _ => false))) &&
     (let ring : Fin 64 := 0;
      let s : State := withRot sPair { rTime with trigger := .time 5 };
      let tag : BitVec 16 := 7;
      (match (List.find? (fun (r : Rotation) => !r.armed && r.name == (ring.val, tag.toNat)) s.assoc.rots) with
        | some v_r =>
          (match (v_r.desc) with
            | some _ =>
              decide ((s.passTo v_r.armedAt).firstBad 0 [] v_r.listForm = none) &&
              (match (v_r.trigger) with
                | RotTrigger.time t0 =>
                  decide (t0 < (s.passTo v_r.armedAt).gnomon.time + 10000)
                | _ => false)
            | _ => false)
        | _ => false))) = true := by decide +kernel

/-- Hypotheses of Obligations.AssociationTimersAndRotations, part 5. -/
theorem witness_association_timers_and_rotations_5 :
    ((let dst : Nat := 1;
      let fr : Nat := 0;
      (let s : State := sRotTime;
       decide (fr ≠ dst) &&
       decide (s.mayBecomeCurrent (s.sa fr).disarm (s.sa dst) = true)) &&
      (let j : Nat := 7;
       let s : State := sRotTime;
       decide (fr ≠ dst) &&
       decide (s.mayBecomeCurrent (s.sa fr).disarm (s.sa dst) = true) &&
       decide (j ≠ fr) &&
       decide (j ≠ dst))) &&
     (let d : Desc := dRotCancel;
      (let s : State := sChordLanes;
       let s0 : State := (s.reserve d).getD s;
       decide (bitOf d.flags 1 = true) &&
       decide (d.get 46 1 ≤ 63) &&
       decide (s0.twin.lease = Lease.standby) &&
       accepts d 2 [(44, 3)] s) &&
      (let s : State := sOverlap;
       let s0 : State := (s.reserve d).getD s;
       decide (bitOf d.flags 1 = true) &&
       decide (d.get 46 1 ≤ 63) &&
       decide (s0.twin.lease ≠ Lease.standby) &&
       decide (List.find? (fun (r : Rotation) => r.armed && r.name == (d.get 46 1, d.get 44 2)) s0.assoc.rots = none) &&
       accepts d 2 [(44, 3)] s) &&
      (let s : State := withRot sPair { rArmed with trigger := .time 0 };
       let s0 : State := (s.reserve d).getD s;
       decide (bitOf d.flags 1 = true) &&
       decide (d.get 46 1 ≤ 63) &&
       decide (s0.twin.lease ≠ Lease.standby) &&
       (match (List.find? (fun (r : Rotation) => r.armed && r.name == (d.get 46 1, d.get 44 2)) s0.assoc.rots) with
         | some v_r =>
           decide (s0.triggered v_r = true) &&
           accepts d 2 [(44, 3)] s
         | _ => false)) &&
      (let s : State := withRot sPair { rArmed with desc := none };
       let s0 : State := (s.reserve d).getD s;
       decide (bitOf d.flags 1 = true) &&
       decide (d.get 46 1 ≤ 63) &&
       decide (s0.twin.lease ≠ Lease.standby) &&
       (match (List.find? (fun (r : Rotation) => r.armed && r.name == (d.get 46 1, d.get 44 2)) s0.assoc.rots) with
         | some v_r =>
           decide (s0.triggered v_r = false) &&
           decide (v_r.desc = none) &&
           accepts d 2 [(44, 3)] s
         | _ => false)) &&
      (let s : State := sRotArmed;
       let s0 : State := (s.reserve d).getD s;
       decide (bitOf d.flags 1 = true) &&
       decide (d.get 46 1 ≤ 63) &&
       decide (s0.twin.lease ≠ Lease.standby) &&
       (match (List.find? (fun (r : Rotation) => r.armed && r.name == (d.get 46 1, d.get 44 2)) s0.assoc.rots) with
         | some v_r =>
           decide (s0.triggered v_r = false) &&
           (match (v_r.desc) with
             | some _ =>
               accepts d 2 [(44, 3)] s
             | _ => false)
         | _ => false)))) = true := by decide +kernel

/-- Hypotheses of Obligations.AssociationsAreCreatedReadAndRetired, part 1. -/
theorem witness_associations_are_created_read_and_retired_1 :
    (let d : Desc := cmd 0x022 [(8, 0)];
     (let s : State := sCreate;
      decide (s.lockedOut d (saHandle d) = false) &&
      decide (saHandle d < 2 ^ 17) &&
      (let s0 : State := (s.reserve d).getD s;
       (match ((s0.readMem Master.annulus (ringOwner d.ring.val) (d.get 16 8) 128).fst) with
         | MemRead.data bs =>
           accepts d 1 [(8, 4), (16, 8)] s &&
           (match (List.find? (fun (x : Bool × Status) => x.fst) [(createBad (leNat bs), Status.badRequest), (saHandle d / 8192 != (s0.readMem Master.annulus (ringOwner d.ring.val) (d.get 16 8) 128).snd.partitionFor (Assoc.ofImage (leNat bs)).defaults || !dkInPartition (Assoc.ofImage (leNat bs)).defaults (saHandle d), Status.wrongPartition), ((s0.readMem Master.annulus (ringOwner d.ring.val) (d.get 16 8) 128).snd.twin.lease == Lease.standby, Status.standby), (((s0.readMem Master.annulus (ringOwner d.ring.val) (d.get 16 8) 128).snd.sa (saHandle d)).status != AssocStatus.free || (Assoc.ofImage (leNat bs)).defaults.current && (s0.readMem Master.annulus (ringOwner d.ring.val) (d.get 16 8) 128).snd.otherCurrent (saHandle d) (Assoc.ofImage (leNat bs)).defaults, Status.inUse), (!(Assoc.ofImage (leNat bs)).defaults.group && !decide (((s0.readMem Master.annulus (ringOwner d.ring.val) (d.get 16 8) 128).snd.lport (Assoc.ofImage (leNat bs)).defaults.lp).enabled = true ∧ Option.map (fun (x : BitVec 6) => x.toNat) ((s0.readMem Master.annulus (ringOwner d.ring.val) (d.get 16 8) 128).snd.lport (Assoc.ofImage (leNat bs)).defaults.lp).partner = some (Assoc.ofImage (leNat bs)).defaults.owner.toNat), Status.noPartner), ((s0.readMem Master.annulus (ringOwner d.ring.val) (d.get 16 8) 128).snd.groupFull (Assoc.ofImage (leNat bs)).defaults, Status.groupFull), ((s0.readMem Master.annulus (ringOwner d.ring.val) (d.get 16 8) 128).snd.badUsage (Assoc.ofImage (leNat bs)).defaults (Assoc.ofImage (leNat bs)).defaults.dkInUse false || (Assoc.ofImage (leNat bs)).defaults.facet && (s0.readMem Master.annulus (ringOwner d.ring.val) (d.get 16 8) 128).snd.badUsage (Assoc.ofImage (leNat bs)).defaults (Assoc.ofImage (leNat bs)).defaults.dkSpare true, Status.badUsage), ((s0.readMem Master.annulus (ringOwner d.ring.val) (d.get 16 8) 128).snd.duplicateSci (saHandle d) (Assoc.ofImage (leNat bs)).defaults, Status.duplicateSci), ((s0.readMem Master.annulus (ringOwner d.ring.val) (d.get 16 8) 128).snd.duplicateKey (saHandle d) (Assoc.ofImage (leNat bs)).defaults, Status.duplicateKey), ((s0.readMem Master.annulus (ringOwner d.ring.val) (d.get 16 8) 128).snd.groupNoSci (Assoc.ofImage (leNat bs)).defaults, Status.badRequest)]) with
             | some _ =>
               true
             | _ => false)
         | _ => false)) &&
      (let s0 : State := (s.reserve d).getD s;
       decide (saHandle d < 2 ^ 17) &&
       decide (s0.twin.lease ≠ Lease.standby) &&
       decide ((s0.sa (saHandle d)).status = AssocStatus.free) &&
       accepts d 0 [(8, 4)] s)) &&
     (let s : State := sChordLanes;
      decide (s.lockedOut d (saHandle d) = false) &&
      (let s0 : State := (s.reserve d).getD s;
       decide (saHandle d < 2 ^ 17) &&
       decide (s0.twin.lease = Lease.standby) &&
       accepts d 0 [(8, 4)] s)) &&
     (let s : State := sRetiring;
      decide (s.lockedOut d (saHandle d) = false) &&
      (let s0 : State := (s.reserve d).getD s;
       decide (saHandle d < 2 ^ 17) &&
       decide (s0.twin.lease ≠ Lease.standby) &&
       decide ((s0.sa (saHandle d)).status = AssocStatus.retiring) &&
       accepts d 0 [(8, 4)] s)) &&
     (let s : State := sOverlapFacet;
      decide (s.lockedOut d (saHandle d) = false) &&
      (let s0 : State := (s.reserve d).getD s;
       decide (saHandle d < 2 ^ 17) &&
       decide (s0.twin.lease ≠ Lease.standby) &&
       decide ((s0.sa (saHandle d)).status ≠ AssocStatus.free) &&
       decide ((s0.sa (saHandle d)).status ≠ AssocStatus.retiring) &&
       decide ((s0.rotating (saHandle d) || !(s0.sa (saHandle d)).recv && (s0.sa (saHandle d)).current && (s0.lport (s0.sa (saHandle
           d)).lp).enabled) = true) &&
       accepts d 0 [(8, 4)] s)) &&
     (let s : State := sReady;
      decide (s.lockedOut d (saHandle d) = false) &&
      (let s0 : State := (s.reserve d).getD s;
       decide (saHandle d < 2 ^ 17) &&
       decide (s0.twin.lease ≠ Lease.standby) &&
       decide ((s0.sa (saHandle d)).status ≠ AssocStatus.free) &&
       decide ((s0.sa (saHandle d)).status ≠ AssocStatus.retiring) &&
       decide ((s0.rotating (saHandle d) || !(s0.sa (saHandle d)).recv && (s0.sa (saHandle d)).current && (s0.lport (s0.sa (saHandle
           d)).lp).enabled) = false) &&
       accepts d 0 [(8, 4)] s))) = true := by decide +kernel

/-- Hypotheses of Obligations.AssociationsAreCreatedReadAndRetired, part 2. -/
theorem witness_associations_are_created_read_and_retired_2 :
    (let d : Desc := dCreate;
     (let s : State := sCreate;
      decide (s.lockedOut d (saHandle d) = false) &&
      decide (saHandle d < 2 ^ 17) &&
      (let s0 : State := (s.reserve d).getD s;
       (match ((s0.readMem Master.annulus (ringOwner d.ring.val) (d.get 16 8) 128).fst) with
         | MemRead.data bs =>
           accepts d 1 [(8, 4), (16, 8)] s &&
           decide (List.find? (fun (x : Bool × Status) => x.fst) [(createBad (leNat bs), Status.badRequest), (saHandle d / 8192 != (s0.readMem
               Master.annulus (ringOwner d.ring.val) (d.get 16 8) 128).snd.partitionFor (Assoc.ofImage (leNat bs)).defaults || !dkInPartition
               (Assoc.ofImage (leNat bs)).defaults (saHandle d), Status.wrongPartition), ((s0.readMem Master.annulus (ringOwner d.ring.val)
               (d.get 16 8) 128).snd.twin.lease == Lease.standby, Status.standby), (((s0.readMem Master.annulus (ringOwner d.ring.val)
               (d.get 16 8) 128).snd.sa (saHandle d)).status != AssocStatus.free || (Assoc.ofImage (leNat bs)).defaults.current &&
               (s0.readMem Master.annulus (ringOwner d.ring.val) (d.get 16 8) 128).snd.otherCurrent (saHandle d) (Assoc.ofImage (leNat
               bs)).defaults, Status.inUse), (!(Assoc.ofImage (leNat bs)).defaults.group && !decide (((s0.readMem Master.annulus (ringOwner
               d.ring.val) (d.get 16 8) 128).snd.lport (Assoc.ofImage (leNat bs)).defaults.lp).enabled = true ∧ Option.map (fun (x : BitVec 6)
               => x.toNat) ((s0.readMem Master.annulus (ringOwner d.ring.val) (d.get 16 8) 128).snd.lport (Assoc.ofImage (leNat
               bs)).defaults.lp).partner = some (Assoc.ofImage (leNat bs)).defaults.owner.toNat), Status.noPartner), ((s0.readMem
               Master.annulus (ringOwner d.ring.val) (d.get 16 8) 128).snd.groupFull (Assoc.ofImage (leNat bs)).defaults, Status.groupFull),
               ((s0.readMem Master.annulus (ringOwner d.ring.val) (d.get 16 8) 128).snd.badUsage (Assoc.ofImage (leNat bs)).defaults
               (Assoc.ofImage (leNat bs)).defaults.dkInUse false || (Assoc.ofImage (leNat bs)).defaults.facet && (s0.readMem Master.annulus
               (ringOwner d.ring.val) (d.get 16 8) 128).snd.badUsage (Assoc.ofImage (leNat bs)).defaults (Assoc.ofImage (leNat
               bs)).defaults.dkSpare true, Status.badUsage), ((s0.readMem Master.annulus (ringOwner d.ring.val) (d.get 16 8)
               128).snd.duplicateSci (saHandle d) (Assoc.ofImage (leNat bs)).defaults, Status.duplicateSci), ((s0.readMem Master.annulus
               (ringOwner d.ring.val) (d.get 16 8) 128).snd.duplicateKey (saHandle d) (Assoc.ofImage (leNat bs)).defaults,
               Status.duplicateKey), ((s0.readMem Master.annulus (ringOwner d.ring.val) (d.get 16 8) 128).snd.groupNoSci (Assoc.ofImage (leNat
               bs)).defaults, Status.badRequest)] = none)
         | _ => false)) &&
      decide (d.get 12 4 < 1024) &&
      (let s0 : State := (s.reserve d).getD s;
       (match ((s0.readMem Master.annulus (ringOwner d.ring.val) (d.get 16 8) 128).fst) with
         | MemRead.data bs =>
           accepts d 0 [(8, 8), (16, 8)] s &&
           (match (List.find? (fun (x : Bool × Status) => x.fst) [(bitOf (d.get 12 4) 0 && bits (leNat bs) 49 15 != 0 || bitOf (d.get 12 4) 1 && bits (leNat bs) 81 15 != 0 || bitOf (d.get 12 4) 2 && decide (1 < bits (leNat bs) 17 2), Status.badRequest), (((if bitOf (d.get 12 4) 0 = true then [(((s0.readMem Master.annulus (ringOwner d.ring.val) (d.get 16 8) 128).snd.sa (saHandle d)).merge (d.get 12 4) (Assoc.ofImage (leNat bs))).defaults.dkA.toNat] else []) ++ if (bitOf (d.get 12 4) 1 && (((s0.readMem Master.annulus (ringOwner d.ring.val) (d.get 16 8) 128).snd.sa (saHandle d)).merge (d.get 12 4) (Assoc.ofImage (leNat bs))).defaults.facet) = true then [(((s0.readMem Master.annulus (ringOwner d.ring.val) (d.get 16 8) 128).snd.sa (saHandle d)).merge (d.get 12 4) (Assoc.ofImage (leNat bs))).defaults.dkB.toNat] else []).any fun (k : Nat) => k / 8192 != saHandle d / 8192, Status.wrongPartition), ((s0.readMem Master.annulus (ringOwner d.ring.val) (d.get 16 8) 128).snd.twin.lease == Lease.standby, Status.standby), (((s0.readMem Master.annulus (ringOwner d.ring.val) (d.get 16 8) 128).snd.sa (saHandle d)).status == AssocStatus.free, Status.notFound), ((s0.readMem Master.annulus (ringOwner d.ring.val) (d.get 16 8) 128).snd.rotating (saHandle d), Status.inUse), (((if bitOf (d.get 12 4) 0 = true then [(((s0.readMem Master.annulus (ringOwner d.ring.val) (d.get 16 8) 128).snd.sa (saHandle d)).merge (d.get 12 4) (Assoc.ofImage (leNat bs))).defaults.dkA.toNat] else []) ++ if (bitOf (d.get 12 4) 1 && (((s0.readMem Master.annulus (ringOwner d.ring.val) (d.get 16 8) 128).snd.sa (saHandle d)).merge (d.get 12 4) (Assoc.ofImage (leNat bs))).defaults.facet) = true then [(((s0.readMem Master.annulus (ringOwner d.ring.val) (d.get 16 8) 128).snd.sa (saHandle d)).merge (d.get 12 4) (Assoc.ofImage (leNat bs))).defaults.dkB.toNat] else []).any fun (k : Nat) => (s0.readMem Master.annulus (ringOwner d.ring.val) (d.get 16 8) 128).snd.badUsage (((s0.readMem Master.annulus (ringOwner d.ring.val) (d.get 16 8) 128).snd.sa (saHandle d)).merge (d.get 12 4) (Assoc.ofImage (leNat bs))).defaults k ((((s0.readMem Master.annulus (ringOwner d.ring.val) (d.get 16 8) 128).snd.sa (saHandle d)).merge (d.get 12 4) (Assoc.ofImage (leNat bs))).defaults.facet && k == (((s0.readMem Master.annulus (ringOwner d.ring.val) (d.get 16 8) 128).snd.sa (saHandle d)).merge (d.get 12 4) (Assoc.ofImage (leNat bs))).defaults.dkSpare && k != (((s0.readMem Master.annulus (ringOwner d.ring.val) (d.get 16 8) 128).snd.sa (saHandle d)).merge (d.get 12 4) (Assoc.ofImage (leNat bs))).defaults.dkInUse), Status.badUsage), (decide ((if bitOf (d.get 12 4) 9 = true then (Assoc.ofImage (leNat bs)).next.toNat else ((s0.readMem Master.annulus (ringOwner d.ring.val) (d.get 16 8) 128).snd.sa (saHandle d)).nextN) < ((s0.readMem Master.annulus (ringOwner d.ring.val) (d.get 16 8) 128).snd.sa (saHandle d)).nextN), Status.counterLower), (bitOf (d.get 12 4) 0 && (s0.readMem Master.annulus (ringOwner d.ring.val) (d.get 16 8) 128).snd.duplicateKey (saHandle d) (((s0.readMem Master.annulus (ringOwner d.ring.val) (d.get 16 8) 128).snd.sa (saHandle d)).merge (d.get 12 4) (Assoc.ofImage (leNat bs))).defaults, Status.duplicateKey), (bitOf (d.get 12 4) 1 && !(((s0.readMem Master.annulus (ringOwner d.ring.val) (d.get 16 8) 128).snd.sa (saHandle d)).merge (d.get 12 4) (Assoc.ofImage (leNat bs))).defaults.facet && (Assoc.ofImage (leNat bs)).dkB != 0 || bitOf (d.get 12 4) 8 && (((s0.readMem Master.annulus (ringOwner d.ring.val) (d.get 16 8) 128).snd.sa (saHandle d)).merge (d.get 12 4) (Assoc.ofImage (leNat bs))).defaults.xpn && decide (1073741824 < (((s0.readMem Master.annulus (ringOwner d.ring.val) (d.get 16 8) 128).snd.sa (saHandle d)).merge (d.get 12 4) (Assoc.ofImage (leNat bs))).defaults.window.toNat), Status.badRequest)]) with
             | some _ =>
               true
             | _ => false)
         | _ => false)) &&
      decide (saHandle d < 2 ^ 17) &&
      accepts d 0 [(8, 4), (16, 8)] s) &&
     (let s : State := sCtxLock;
      decide (s.lockedOut d (saHandle d) = true))) = true := by decide +kernel

/-- Hypotheses of Obligations.AssociationsAreCreatedReadAndRetired, part 3. -/
theorem witness_associations_are_created_read_and_retired_3 :
    (let d : Desc := dModify 0;
     let s : State := sReady;
     decide (saHandle d < 2 ^ 17) &&
     decide (d.get 12 4 < 1024) &&
     decide (s.lockedOut d (saHandle d) = false) &&
     (let s0 : State := (s.reserve d).getD s;
      (match ((s0.readMem Master.annulus (ringOwner d.ring.val) (d.get 16 8) 128).fst) with
        | MemRead.data bs =>
          accepts d 0 [(8, 8), (16, 8)] s &&
          decide (List.find? (fun (x : Bool × Status) => x.fst) [(bitOf (d.get 12 4) 0 && bits (leNat bs) 49 15 != 0 || bitOf (d.get 12 4) 1
              && bits (leNat bs) 81 15 != 0 || bitOf (d.get 12 4) 2 && decide (1 < bits (leNat bs) 17 2), Status.badRequest), (((if bitOf
              (d.get 12 4) 0 = true then [(((s0.readMem Master.annulus (ringOwner d.ring.val) (d.get 16 8) 128).snd.sa (saHandle d)).merge
              (d.get 12 4) (Assoc.ofImage (leNat bs))).defaults.dkA.toNat] else []) ++ if (bitOf (d.get 12 4) 1 && (((s0.readMem
              Master.annulus (ringOwner d.ring.val) (d.get 16 8) 128).snd.sa (saHandle d)).merge (d.get 12 4) (Assoc.ofImage (leNat
              bs))).defaults.facet) = true then [(((s0.readMem Master.annulus (ringOwner d.ring.val) (d.get 16 8) 128).snd.sa (saHandle
              d)).merge (d.get 12 4) (Assoc.ofImage (leNat bs))).defaults.dkB.toNat] else []).any fun (k : Nat) => k / 8192 != saHandle d /
              8192, Status.wrongPartition), ((s0.readMem Master.annulus (ringOwner d.ring.val) (d.get 16 8) 128).snd.twin.lease ==
              Lease.standby, Status.standby), (((s0.readMem Master.annulus (ringOwner d.ring.val) (d.get 16 8) 128).snd.sa (saHandle
              d)).status == AssocStatus.free, Status.notFound), ((s0.readMem Master.annulus (ringOwner d.ring.val) (d.get 16 8)
              128).snd.rotating (saHandle d), Status.inUse), (((if bitOf (d.get 12 4) 0 = true then [(((s0.readMem Master.annulus (ringOwner
              d.ring.val) (d.get 16 8) 128).snd.sa (saHandle d)).merge (d.get 12 4) (Assoc.ofImage (leNat bs))).defaults.dkA.toNat] else
              []) ++ if (bitOf (d.get 12 4) 1 && (((s0.readMem Master.annulus (ringOwner d.ring.val) (d.get 16 8) 128).snd.sa (saHandle
              d)).merge (d.get 12 4) (Assoc.ofImage (leNat bs))).defaults.facet) = true then [(((s0.readMem Master.annulus (ringOwner
              d.ring.val) (d.get 16 8) 128).snd.sa (saHandle d)).merge (d.get 12 4) (Assoc.ofImage (leNat bs))).defaults.dkB.toNat] else
              []).any fun (k : Nat) => (s0.readMem Master.annulus (ringOwner d.ring.val) (d.get 16 8) 128).snd.badUsage (((s0.readMem
              Master.annulus (ringOwner d.ring.val) (d.get 16 8) 128).snd.sa (saHandle d)).merge (d.get 12 4) (Assoc.ofImage (leNat
              bs))).defaults k ((((s0.readMem Master.annulus (ringOwner d.ring.val) (d.get 16 8) 128).snd.sa (saHandle d)).merge (d.get
              12 4) (Assoc.ofImage (leNat bs))).defaults.facet && k == (((s0.readMem Master.annulus (ringOwner d.ring.val) (d.get 16 8)
              128).snd.sa (saHandle d)).merge (d.get 12 4) (Assoc.ofImage (leNat bs))).defaults.dkSpare && k != (((s0.readMem Master.annulus
              (ringOwner d.ring.val) (d.get 16 8) 128).snd.sa (saHandle d)).merge (d.get 12 4) (Assoc.ofImage (leNat
              bs))).defaults.dkInUse), Status.badUsage), (decide ((if bitOf (d.get 12 4) 9 = true then (Assoc.ofImage (leNat bs)).next.toNat
              else ((s0.readMem Master.annulus (ringOwner d.ring.val) (d.get 16 8) 128).snd.sa (saHandle d)).nextN) < ((s0.readMem
              Master.annulus (ringOwner d.ring.val) (d.get 16 8) 128).snd.sa (saHandle d)).nextN), Status.counterLower), (bitOf (d.get 12 4)
              0 && (s0.readMem Master.annulus (ringOwner d.ring.val) (d.get 16 8) 128).snd.duplicateKey (saHandle d) (((s0.readMem
              Master.annulus (ringOwner d.ring.val) (d.get 16 8) 128).snd.sa (saHandle d)).merge (d.get 12 4) (Assoc.ofImage (leNat
              bs))).defaults, Status.duplicateKey), (bitOf (d.get 12 4) 1 && !(((s0.readMem Master.annulus (ringOwner d.ring.val) (d.get
              16 8) 128).snd.sa (saHandle d)).merge (d.get 12 4) (Assoc.ofImage (leNat bs))).defaults.facet && (Assoc.ofImage (leNat
              bs)).dkB != 0 || bitOf (d.get 12 4) 8 && (((s0.readMem Master.annulus (ringOwner d.ring.val) (d.get 16 8) 128).snd.sa
              (saHandle d)).merge (d.get 12 4) (Assoc.ofImage (leNat bs))).defaults.xpn && decide (1073741824 < (((s0.readMem Master.annulus
              (ringOwner d.ring.val) (d.get 16 8) 128).snd.sa (saHandle d)).merge (d.get 12 4) (Assoc.ofImage (leNat
              bs))).defaults.window.toNat), Status.badRequest)] = none)
        | _ => false))) = true := by decide +kernel

/-- Hypotheses of Obligations.AssociationsAreCreatedReadAndRetired, part 4. -/
theorem witness_associations_are_created_read_and_retired_4 :
    ((let d : Desc := dVerify vKcv;
      let s : State := sCreate;
      decide (s.lockedOut d (saHandle d) = false) &&
      decide (saHandle d < 2 ^ 17) &&
      decide (1024 ≤ d.get 12 4) &&
      accepts d 0 [(8, 8), (16, 8)] s) &&
     (let h : BitVec 17 := 0#17;
      (let s : State := sRetiring;
       decide ((s.sa h.toNat).status = AssocStatus.retiring) &&
       decide ((s.sa h.toNat).inFlight = 0)) &&
      (let s : State := sCreate;
       decide ((s.sa h.toNat).status ≠ AssocStatus.retiring ∨ (s.sa h.toNat).inFlight ≠ 0))) &&
     (let d : Desc := dEnable 0 15 2 8;
      let s : State := sCreate;
      decide (2 ^ 17 ≤ saHandle d) &&
      accepts d 0 [(8, 4), (16, 8)] s) &&
     (let h : Nat := 0;
      (let s : State := sCreate;
       decide ((s.sa h).status = AssocStatus.free)) &&
      (let s : State := sReady;
       decide ((s.sa h).status ≠ AssocStatus.free)))) = true := by decide +kernel

/-- Hypotheses of Obligations.AxisEventsKeepTheKeys. -/
theorem witness_axis_events_keep_the_keys :
    ((let s : State := sDrained;
      (let v_slot : Nat := 0;
       (match (List.find? (fun (x : OldGen) => x.count == 0) (s.slot v_slot).old) with
         | some _ =>
           true
         | _ => false) &&
       decide ((s.slot v_slot).waitq = []) &&
       decide (s.axis.serving = true) &&
       decide (s.apex.held = false) &&
       decide (slotExists (keyClass v_slot) (keyIndex v_slot) = true) &&
       decide ((s.slot v_slot).active ≠ ActiveHalf.none)) &&
      (let v_slot : Nat := 1;
       decide ((s.slot v_slot).old = [])) &&
      decide (s.axis.marking = []) &&
      decide (s.axis.serving = true) &&
      decide (s.apex.held = false) &&
      (match (s.oldestMask) with
        | some _ =>
          decide (s.axis.maskLate = false)
        | _ => false) &&
      decide (s.axis.drbgCount < 1048576)) &&
     (let s : State := withSlots z [(0, { aKey with old := [{ oDrained with count := 1 }] })];
      let v_slot : Nat := 0;
      (match ((s.slot v_slot).old) with
        | _ :: _ =>
          decide (∀ (g : OldGen), g ∈ (s.slot v_slot).old → g.count ≠ 0)
        | _ => false)) &&
     (let s : State := sMarking;
      (match (s.axis.marking) with
        | (_, _, _) :: _ =>
          true
        | _ => false)) &&
     (let s : State := zm;
      let v_slot : Nat := slotKey 3 0;
      decide (s.axis.serving = true) &&
      decide (s.apex.held = false) &&
      decide (keyClass v_slot = 3) &&
      decide (keyIndex v_slot < 64) &&
      decide ((s.region (keyIndex v_slot / 2)).state ≠ RegionState.off)) &&
     (let v_slot : Nat := 0x04000000;
      decide (slotExists (keyClass v_slot) (keyIndex v_slot) = false) &&
      decide (keyClass v_slot ≠ 3 ∨ 64 ≤ keyIndex v_slot)) &&
     (let s : State := sHeldPart;
      decide (s.axis.serving = false ∨ s.apex.held = true)) &&
     (let s : State := z;
      decide (s.oldestMask = none ∨ s.axis.maskLate = true)) &&
     (let s : State := sReseed;
      decide (1048576 ≤ s.axis.drbgCount) &&
      decide (s.axis.entropyOk = true)) &&
     (let s : State := sReseedFail;
      decide (1048576 ≤ s.axis.drbgCount) &&
      decide (s.axis.entropyOk = false) &&
      decide (s.axis.serving = true))) = true := by decide +kernel

/-- Hypotheses of Obligations.BuffersQueuesAndPunts, part 1. -/
theorem witness_buffers_queues_and_punts_1 :
    ((let s : State := sHeldPart;
      decide (s.halted = true)) &&
     (let p : Fin 4 := p0;
      let s : State := sPools;
      (let v : Word32 := 0x80000006#32;
       decide (s.halted = false) &&
       decide (¬(s.poolUsed p.val = 0 ∧ s.minSum p.val 256 (2 ^ 30 * ((p.val + 1) % 4)) ≤ poolCells (BitVec.toNat v) ∧ (poolOn
           (BitVec.toNat v) = true → (¬∃ (q : Nat), q < 4 ∧ q ≠ p.val ∧ poolOn (s.poolReg q) = true ∧ poolBase (BitVec.toNat v) < poolBase
           (s.poolReg q) + poolCells (s.poolReg q) ∧ poolBase (s.poolReg q) < poolBase (BitVec.toNat v) + poolCells (BitVec.toNat v)) ∧ 0
           < poolCells (BitVec.toNat v) ∧ poolBase (BitVec.toNat v) + poolCells (BitVec.toNat v) ≤ 524288)))) &&
      (let v : Word32 := vPool;
       decide (s.halted = false) &&
       decide (s.poolUsed p.val = 0) &&
       decide (s.minSum p.val 256 (2 ^ 30 * ((p.val + 1) % 4)) ≤ poolCells (BitVec.toNat v)) &&
       decide (poolOn (BitVec.toNat v) = true → (¬∃ (q : Nat), q < 4 ∧ q ≠ p.val ∧ poolOn (s.poolReg q) = true ∧ poolBase (BitVec.toNat v) <
           poolBase (s.poolReg q) + poolCells (s.poolReg q) ∧ poolBase (s.poolReg q) < poolBase (BitVec.toNat v) + poolCells (BitVec.toNat
           v)) ∧ 0 < poolCells (BitVec.toNat v) ∧ poolBase (BitVec.toNat v) + poolCells (BitVec.toNat v) ≤ 524288))) &&
     (let o : BitVec 8 := 0#8;
      let s : State := sPools;
      (let v : Word32 := vPool;
       decide (s.halted = false) &&
       decide (minPool (s.ownerMinReg o.toNat) ≠ minPool (BitVec.toNat v) ∧ (0 < s.poolUsed (minPool (s.ownerMinReg o.toNat)) ∨ 0 <
           s.poolUsed (minPool (BitVec.toNat v))) ∨ poolCells (s.poolReg (minPool (BitVec.toNat v))) < s.minSum (minPool (BitVec.toNat
           v)) o.toNat (BitVec.toNat v))) &&
      (let v : Word32 := 0x400#32;
       decide (s.halted = false) &&
       decide (¬(minPool (s.ownerMinReg o.toNat) ≠ minPool (BitVec.toNat v) ∧ (0 < s.poolUsed (minPool (s.ownerMinReg o.toNat)) ∨ 0 <
           s.poolUsed (minPool (BitVec.toNat v))) ∨ poolCells (s.poolReg (minPool (BitVec.toNat v))) < s.minSum (minPool (BitVec.toNat
           v)) o.toNat (BitVec.toNat v))))) &&
     (let s : State := sPools;
      decide (s.halted = false) &&
      decide (s.annulus.punts = [])) &&
     (let b : Fin 64 := 63;
      let p : Fin 4 := 0;
      let s : State := { z with tess := { z.tess with broken := [(0, 63)] } };
      decide ((p.val, b.val) ∈ s.tess.broken)) &&
     (let b : Fin 64 := 0;
      let p : Fin 4 := p0;
      let s : State := sPools;
      decide (¬(p.val, b.val) ∈ s.tess.broken))) = true := by decide +kernel

/-- Hypotheses of Obligations.BuffersQueuesAndPunts, part 2. -/
theorem witness_buffers_queues_and_punts_2 :
    ((let q : BitVec 8 := 0#8;
      (let s : State := sCounted;
       decide (s.halted = false) &&
       decide ((s.aq q.toNat).enabled = true)) &&
      (let s : State := sPools;
       (let v : Word32 := vPool;
        decide (s.halted = false) &&
        decide ((s.aq q.toNat).enabled = false) &&
        decide (queueConfigOk q.toNat ((BitVec.toNat v ||| 2 ^ 31) &&& 3221225487) (s.regN (aqOff q.toNat + 4) % 2 ^ 25) = true) &&
        decide ((s.aq q.toNat).count < BitVec.toNat v % 2 ^ 25)) &&
       (let v : Word32 := 0x8000000F#32;
        decide (s.halted = false) &&
        decide ((s.aq q.toNat).enabled = false) &&
        decide (queueConfigOk q.toNat ((BitVec.toNat v ||| 2 ^ 31) &&& 3221225487) (s.regN (aqOff q.toNat + 4) % 2 ^ 25) = false)) &&
       decide (s.halted = false) &&
       decide (q ≠ 255) &&
       (let v : Word32 := 0#32;
        decide (s.halted = false) &&
        decide (BitVec.toNat v % 2 ^ 25 ≤ (s.aq q.toNat).count)) &&
       decide (¬((s.aq q.toNat).enabled = true ∧ (s.aq q.toNat).ping = true ∧ (s.aq q.toNat).drain ≤ (s.aq q.toNat).released ∧ 0 <
           (s.aq q.toNat).written ∧ ∀ e ∈ (s.aq q.toNat).tail.head?, e.fst = true)) &&
       decide ((s.aq q.toNat).tail = [] ∨ (s.aq q.toNat).open_ = false)) &&
      (let s : State := sPing;
       decide ((s.aq q.toNat).enabled = true) &&
       decide ((s.aq q.toNat).ping = true) &&
       decide ((s.aq q.toNat).drain ≤ (s.aq q.toNat).released) &&
       decide (0 < (s.aq q.toNat).written) &&
       decide (∀ e ∈ (s.aq q.toNat).tail.head?, e.fst = true)) &&
      (let s : State := sTail;
       (match ((s.aq q.toNat).tail) with
         | (_, v_e) :: _ =>
           decide ((s.aq q.toNat).open_ = true) &&
           decide ((s.writeMem Master.annulus (8192 + 225) (s.aq q.toNat).slotAddr v_e).fst = true)
         | _ => false)) &&
      (let s : State := sTailNoMem;
       (match ((s.aq q.toNat).tail) with
         | (_, v_e) :: _ =>
           decide ((s.aq q.toNat).open_ = true) &&
           decide ((s.writeMem Master.annulus (8192 + 225) (s.aq q.toNat).slotAddr v_e).fst = false)
         | _ => false))) &&
     (let s : State := sPuntShut;
      (match (s.annulus.punts) with
        | p :: _ =>
          decide ((s.aq p.queue).open_ = false ∨ (s.aq p.queue).full = true)
        | _ => false)) &&
     (let s : State := sPuntTail;
      (match (s.annulus.punts) with
        | p :: _ =>
          decide ((s.aq p.queue).open_ = true) &&
          decide ((s.aq p.queue).full = false) &&
          decide (64 ≤ (s.aq p.queue).tail.length)
        | _ => false))) = true := by decide +kernel

/-- Hypotheses of Obligations.BuffersQueuesAndPunts, part 3. -/
theorem witness_buffers_queues_and_punts_3 :
    ((let s : State := { sPunt with tess := z.tess };
      (match (s.annulus.punts) with
        | p :: _ =>
          decide ((s.aq p.queue).open_ = true) &&
          decide ((s.aq p.queue).full = false) &&
          decide ((s.aq p.queue).tail.length < 64) &&
          decide (s.frame p.frame = none)
        | _ => false)) &&
     (let s : State := sPunt;
      (match (s.annulus.punts) with
        | p :: _ =>
          decide ((s.aq p.queue).open_ = true) &&
          decide ((s.aq p.queue).full = false) &&
          decide ((s.aq p.queue).tail.length < 64) &&
          (match (s.frame p.frame) with
            | some _ =>
              true
            | _ => false)
        | _ => false)) &&
     (let ptr : Nat := 1;
      let s : State := sPools;
      decide (bits ptr 27 5 ≠ 0 ∨ bits ptr 0 8 ≠ 0 ∨ s.cellPool (bits ptr 8 19) = none)) &&
     (let ptr : Nat := 0;
      (let s : State := sPools;
       decide (¬(bits ptr 27 5 ≠ 0 ∨ bits ptr 0 8 ≠ 0 ∨ s.cellPool (bits ptr 8 19) = none)) &&
       decide (List.find? (fun (x : TFrame) => x.cells.contains (bits ptr 8 19)) s.tess.frames = none)) &&
      (let s : State := { sHeld with tess := { sHeld.tess with corrupt := [(0, FreeErr.double)] } };
       decide (¬(bits ptr 27 5 ≠ 0 ∨ bits ptr 0 8 ≠ 0 ∨ s.cellPool (bits ptr 8 19) = none)) &&
       (match (List.find? (fun (x : TFrame) => x.cells.contains (bits ptr 8 19)) s.tess.frames) with
         | some _ =>
           (match (List.lookup (bits ptr 8 19) s.tess.corrupt) with
             | some _ =>
               true
             | _ => false)
         | _ => false))) &&
     (let o : Option Nat := none;
      let ptr : Nat := 0;
      (let s : State := sHeld;
       decide (¬(bits ptr 27 5 ≠ 0 ∨ bits ptr 0 8 ≠ 0 ∨ s.cellPool (bits ptr 8 19) = none)) &&
       (match (List.find? (fun (x : TFrame) => x.cells.contains (bits ptr 8 19)) s.tess.frames) with
         | some f =>
           decide (List.lookup (bits ptr 8 19) s.tess.corrupt = none) &&
           decide (f.freeOk o = false)
         | _ => false)) &&
      (let s : State := sOutC;
       decide (s.tess.corrupt = []) &&
       decide (¬(bits ptr 27 5 ≠ 0 ∨ bits ptr 0 8 ≠ 0 ∨ s.cellPool (bits ptr 8 19) = none)) &&
       (match (List.find? (fun (x : TFrame) => x.cells.contains (bits ptr 8 19)) s.tess.frames) with
         | some f =>
           decide (f.freeOk o = true) &&
           decide (f.cells.head? = some (bits ptr 8 19))
         | _ => false)))) = true := by decide +kernel

/-- Hypotheses of Obligations.CapturesAndEventRecords, part 1. -/
theorem witness_captures_and_event_records_1 :
    ((let d : Desc := dNow;
      (let s : State := z;
       let s0 : State := (s.reserve d).getD s;
       decide (d.get 8 1 = 0) &&
       decide (s0.tele.running = none) &&
       accepts d 0 [(8, 1), (24, 12)] s) &&
      (let s : State := sCapturing;
       let s0 : State := (s.reserve d).getD s;
       decide (d.get 8 1 = 0) &&
       decide (s0.tele.running ≠ none) &&
       decide (s0.tele.waiting = none) &&
       accepts d 0 [(8, 1), (24, 12)] s) &&
      (let s : State := sCaptureWaits;
       let s0 : State := (s.reserve d).getD s;
       decide (d.get 8 1 = 0) &&
       decide (s0.tele.running ≠ none) &&
       decide (s0.tele.waiting ≠ none) &&
       accepts d 0 [(8, 1), (24, 12)] s)) &&
     (let d : Desc := dAt;
      let s : State := z;
      let s0 : State := (s.reserve d).getD s;
      decide (d.get 8 1 = 1) &&
      decide (d.get 18 4 ≤ 999999999) &&
      decide (s0.tele.armed = none) &&
      decide (s0.gnomon.time < 1000000000 * d.get 12 6 + d.get 18 4) &&
      accepts d 0 [(8, 1), (12, 10), (24, 12)] s) &&
     (let s : State := sPin;
      decide (s.apex.held = false) &&
      decide (bitOf (s.regN 65011744) 31 = true) &&
      decide (bitOf (s.regN 65011744) 30 = false) &&
      (let level : Bool := !bitOf (s.regN 65011744) 29;
       decide (s.regN 65011756 ≠ 0) &&
       decide (s.tele.waiting = none) &&
       decide (s.tele.pinDue = none) &&
       decide (level ≠ s.tele.snapIn))) &&
     (let s : State := sPinWaits;
      decide (s.apex.held = false) &&
      decide (bitOf (s.regN 65011744) 31 = true) &&
      decide (bitOf (s.regN 65011744) 30 = false) &&
      (let level : Bool := !bitOf (s.regN 65011744) 29;
       decide (s.regN 65011756 ≠ 0) &&
       decide (s.tele.waiting ≠ none) &&
       decide (level ≠ s.tele.snapIn))) &&
     (let s : State := sCapturing;
      (match (s.tele.running) with
        | some (CaptureOf.now d, _) =>
          decide (s.tele.waiting = none) &&
          decide (s.captureLen ≤ d.get 32 4)
        | _ => false)) &&
     (let s : State := sCaptureShort;
      (match (s.tele.running) with
        | some (CaptureOf.now d, _) =>
          decide (s.tele.waiting = none) &&
          decide (d.get 32 4 < s.captureLen)
        | _ => false)) &&
     (let s : State := { (sEvent.setReg 0x03E01180 1) with tele := { sEvent.tele with held := [tTaken] } };
      (match (s.tele.held) with
        | t :: _ =>
          decide ((s.ring RingKind.event (s.evtRing t.ev)).state = RingState.running) &&
          decide (s.evtCfg t.ev / 2 ^ 31 = 0)
        | _ => false))) = true := by decide +kernel

/-- Hypotheses of Obligations.CapturesAndEventRecords, part 2. -/
theorem witness_captures_and_event_records_2 :
    ((let s : State := { (sEvent.setReg 0x03E01180 0x80000001) with tele := { sEvent.tele with held := [tTaken] } };
      (match (s.tele.held) with
        | t :: _ =>
          decide ((s.ring RingKind.event (s.evtRing t.ev)).state = RingState.running) &&
          decide (s.evtCfg t.ev / 2 ^ 31 ≠ 0) &&
          decide (idxDiff (s.ring RingKind.event { t with ring := s.evtRing t.ev }.ring).pi (s.ring RingKind.event
              { t with ring := s.evtRing t.ev }.ring).ci + t.records ≤ (s.ring RingKind.event
              { t with ring := s.evtRing t.ev }.ring).cap)
        | _ => false)) &&
     (let s : State :=
          { (sEvent.setReg 0x03E01180 0x80000001).setRing .event 1 { Ring.reset with state := .running, base := 0x1000, cap := 16, pi := 16 } with tele := { sEvent.tele with held := [tTaken] } };
      (match (s.tele.held) with
        | t :: _ =>
          decide ((s.ring RingKind.event (s.evtRing t.ev)).state = RingState.running) &&
          decide (s.evtCfg t.ev / 2 ^ 31 ≠ 0) &&
          decide ((s.ring RingKind.event { t with ring := s.evtRing t.ev }.ring).cap < idxDiff (s.ring RingKind.event
              { t with ring := s.evtRing t.ev }.ring).pi (s.ring RingKind.event { t with ring := s.evtRing t.ev }.ring).ci +
              t.records)
        | _ => false)) &&
     (let s : State := sEvent;
      (match (s.tele.store) with
        | t :: rest =>
          decide (s.tele.held = []) &&
          decide (idxDiff (s.ring RingKind.event t.ring).pi (s.ring RingKind.event t.ring).ci + t.records ≤ (s.ring RingKind.event
              t.ring).cap) &&
          decide (t.data.length ≤ 8) &&
          decide (({ s with tele := { s.tele with store := rest } }.writeMem Master.annulus 0 ((s.ring RingKind.event t.ring).slotAddr
              (s.ring RingKind.event t.ring).pi.toNat 16) (eventRecord t (s.ring RingKind.event t.ring).phase (s.ring RingKind.event
              t.ring).lostFlag false (s.ring RingKind.event t.ring).seq.toNat)).fst = true)
        | _ => false)) &&
     (let s : State := sEventFull;
      (match (s.tele.store) with
        | t :: _ =>
          decide (s.tele.held = []) &&
          decide ((s.ring RingKind.event t.ring).cap < idxDiff (s.ring RingKind.event t.ring).pi (s.ring RingKind.event t.ring).ci +
              t.records) &&
          decide (s.once.contains (onceKey 66 t.ring) = true)
        | _ => false)) &&
     (let s : State := z;
      decide (s.tele.store = []) &&
      decide (s.tele.held = []) &&
      decide (s.tele.dropPending = 0))) = true := by decide +kernel

/-- Hypotheses of Obligations.ChordLinkCarriesCopies, part 1. -/
theorem witness_chord_link_carries_copies_1 :
    ((let s : State := sChordLanes;
      decide (s.halted = false) &&
      decide (s.twin.width = 0) &&
      decide (s.laneLocked 136 = true) &&
      decide ((s.chordSet fun (k : Nat) => s.laneLocked (128 + k)) ≠ []) &&
      decide (s.twin.lease ≠ Lease.unconfigured) &&
      decide (s.twin.lease ≠ Lease.solo) &&
      decide (s.twin.chord.ver = 0) &&
      decide (s.twin.width = 0) &&
      decide (s.twin.linkUp = false) &&
      decide (s.twin.lease ≠ Lease.active ∨ s.twin.chord.ver = 0)) &&
     (let s : State := withPair sChordLanes fun t => { t with width := 8 };
      decide (s.twin.width ≠ 0 ∨ s.laneLocked 136 = false ∨ (s.chordSet fun (k : Nat) => s.laneLocked (128 + k)) = [] ∨ s.twin.lease =
          Lease.unconfigured ∨ s.twin.lease = Lease.solo) &&
      decide (s.twin.width ≠ 0 ∨ s.twin.linkUp = true) &&
      decide (s.laneLocked 136 = true) &&
      decide (s.twin.linkUp = false) &&
      decide (s.twin.badRun < 8)) &&
     (let p : OctegPath := .arbiter;
      let s : State := sChordLanes;
      decide (s.hellos p = true) &&
      decide (s.halted = false) &&
      decide (s.twin.lease ≠ Lease.unconfigured) &&
      decide (s.twin.lease ≠ Lease.solo) &&
      decide (p = OctegPath.arbiter ∨ s.twin.width ≠ 0)) &&
     (let p : OctegPath := .chord;
      let s : State := sChordLanes;
      decide (s.hellos p = false) &&
      decide (s.halted = true ∨ s.twin.lease = Lease.unconfigured ∨ s.twin.lease = Lease.solo ∨ p = OctegPath.chord ∧ s.twin.width = 0)) &&
     (let msg : List Byte := helloNone.take 55;
      decide (msg.length ≠ 56) &&
      (let s : State := sChordLanes;
       decide ((s.chordOpen 19 msg).fst = none ∨ (s.chordOpen 19 msg).snd.twin.lease ≠ Lease.active) &&
       decide ((s.chordOpen 16 msg).fst = none) &&
       decide ((s.chordOpen 17 msg).fst = none) &&
       decide ((s.chordOpen 18 msg).fst = none))) &&
     (let msg : List Byte := helloNone;
      decide (msg.length = 56) &&
      decide (leAt msg 1 1 = 1) &&
      decide (leAt msg 0 1 = 1) &&
      decide (commonVersion (leAt msg 8 1) = 0)) &&
     (let msg : List Byte := helloMsg 6 0;
      let s : State := sChord;
      decide (s.twin.arb.ver = 0) &&
      decide (msg.length = 56) &&
      decide (leAt msg 1 1 = 1) &&
      decide (leAt msg 0 1 = 1) &&
      decide (commonVersion (leAt msg 8 1) ≠ 0) &&
      decide (BitVec.ofNat 128 (beAt msg 32 16) = s.twin.arb.own)) &&
     (let msg : List Byte := helloMsg 6 1;
      let s : State := sChord;
      decide (s.twin.arb.ver = 0) &&
      decide (msg.length = 56) &&
      decide (leAt msg 1 1 = 1) &&
      decide (leAt msg 0 1 = 1) &&
      decide (commonVersion (leAt msg 8 1) ≠ 0) &&
      decide (BitVec.ofNat 128 (beAt msg 32 16) ≠ s.twin.arb.own))) = true := by decide +kernel

/-- Hypotheses of Obligations.ChordLinkCarriesCopies, part 2. -/
theorem witness_chord_link_carries_copies_2 :
    ((let s : State := sChord;
      decide (s.halted = false) &&
      decide (s.twin.chord.ver ≠ 0) &&
      decide (s.twin.width ≠ 0 ∨ s.twin.linkUp = true) &&
      decide (s.twin.linkUp = true)) &&
     (let msg : List Byte := fromPeer 3 [];
      let s : State := sChord;
      let ty : Nat := 3;
      decide (s.halted = false) &&
      decide (s.twin.chord.ver ≠ 0) &&
      decide (24 ≤ msg.length) &&
      decide (leAt msg 1 1 = ty) &&
      decide (leAt msg 0 1 = s.twin.chord.ver) &&
      decide (beAt msg 2 2 = msg.length) &&
      decide (Crypto.gcmOpen 32 s.twin.key.toNat (chordIv (!s.twin.sideB) (s.twin.rxCount + 1)) (List.take 8 msg) (slice msg 8
          (msg.length - 24)) (List.drop (msg.length - 16) msg) ≠ none)) &&
     (let msg : List Byte := [2, 18] ++ be 2 24 ++ List.replicate 20 0;
      let s : State := sChord;
      let ty : Nat := 18;
      decide (s.halted = false) &&
      decide (s.twin.chord.ver ≠ 0) &&
      decide (24 ≤ msg.length) &&
      decide (leAt msg 1 1 = ty) &&
      decide (leAt msg 0 1 = s.twin.chord.ver) &&
      decide (beAt msg 2 2 = msg.length) &&
      decide (Crypto.gcmOpen 32 s.twin.key.toNat (chordIv (!s.twin.sideB) (s.twin.rxCount + 1)) (List.take 8 msg) (slice msg 8
          (msg.length - 24)) (List.drop (msg.length - 16) msg) = none)) &&
     (let s : State := sClockLost;
      decide (s.twin.width ≠ 0 ∨ s.twin.linkUp = true) &&
      decide (s.laneLocked 136 = false)) &&
     (let s : State := sTagsFail;
      decide (s.twin.width ≠ 0 ∨ s.twin.linkUp = true) &&
      decide (8 ≤ s.twin.badRun)) &&
     (let s : State := sChordActive;
      decide (s.halted = false) &&
      decide (s.twin.lease = Lease.active) &&
      decide (s.twin.chord.ver ≠ 0)) &&
     (let msg : List Byte := fromPeer 16 (be 8 5);
      let s : State := sChord;
      (match ((s.chordOpen 16 msg).fst) with
        | some b =>
          decide ((s.chordOpen 16 msg).snd.twin.lease = Lease.standby) &&
          decide (8 ≤ b.length)
        | _ => false))) = true := by decide +kernel

/-- Hypotheses of Obligations.ChordLinkCarriesCopies, part 3. -/
theorem witness_chord_link_carries_copies_3 :
    ((let msg : List Byte := fromPeer 17 (be 8 5 ++ be 4 1 ++ be 4 0);
      (let s : State := sCopying;
       (match ((s.chordOpen 17 msg).fst) with
         | some b =>
           decide ((s.chordOpen 17 msg).snd.twin.lease = Lease.standby) &&
           decide (b.length = 16) &&
           decide
               ((match (s.chordOpen 17 msg).snd.twin.rxCopy with | some (q, n, f) => if q = beAt b 0 8 then (n, f) else (0, (s.chordOpen 17 msg).snd.twin.nextFull) | none => (0, (s.chordOpen 17 msg).snd.twin.nextFull)).fst
               = beAt b 8 4)
         | _ => false)) &&
      (let s : State := sChord;
       (match ((s.chordOpen 17 msg).fst) with
         | some b =>
           decide ((s.chordOpen 17 msg).snd.twin.lease = Lease.standby) &&
           decide (b.length = 16) &&
           decide
               ((match (s.chordOpen 17 msg).snd.twin.rxCopy with | some (q, n, f) => if q = beAt b 0 8 then (n, f) else (0, (s.chordOpen 17 msg).snd.twin.nextFull) | none => (0, (s.chordOpen 17 msg).snd.twin.nextFull)).fst
               ≠ beAt b 8 4)
         | _ => false))) &&
     (let a : Assoc := { aTx with an := 1, dkA := 1 };
      let h : Nat := 1;
      let s : State := sPair;
      let sent : Tbl SentCopy := [(1, cSent)];
      (match (List.lookup h sent) with
        | some _ =>
          decide ((h, a) ∈ s.assoc.ctx) &&
          decide (a.recv = false) &&
          decide (a.status ≠ AssocStatus.free)
        | _ => false)) &&
     (let msg : List Byte := fromPeer 18 (be 8 5);
      let s : State := sChord;
      (match ((s.chordOpen 18 msg).fst) with
        | some b =>
          decide (List.find? (fun (c : OpenCopy) => c.seq == beAt b 0 8) (s.chordOpen 18 msg).snd.twin.openCopies = none)
        | _ => false)) &&
     (let msg : List Byte := fromPeer 19 [];
      let s : State := sChordActive;
      decide ((s.chordOpen 19 msg).fst ≠ none) &&
      decide ((s.chordOpen 19 msg).snd.twin.lease = Lease.active))) = true := by decide +kernel

/-- Hypotheses of Obligations.ClientFramesAndLearning. -/
theorem witness_client_frames_and_learning :
    ((let frame : List Byte := framed 64;
      let v_lp : Fin 64 := lp0;
      let s : State := sClient;
      decide (s.receives v_lp.val = true) &&
      decide (s.attached v_lp.val = false) &&
      decide (fcsOk frame = true) &&
      decide (64 ≤ frame.length) &&
      decide (frame.length ≤ 9216)) &&
     (let frame : List Byte := List.replicate 64 1#8;
      let v_lp : Fin 64 := lp0;
      let s : State := sClient;
      decide (s.receives v_lp.val = true) &&
      decide (s.attached v_lp.val = false) &&
      decide (fcsOk frame = false)) &&
     (let frame : List Byte := framed 63;
      let v_lp : Fin 64 := lp0;
      let s : State := sClient;
      decide (s.receives v_lp.val = true) &&
      decide (s.attached v_lp.val = false) &&
      decide (fcsOk frame = true) &&
      decide (¬(64 ≤ frame.length ∧ frame.length ≤ 9216))) &&
     (let v_lp : Fin 64 := lp63;
      let s : State := sClient;
      decide (¬(s.receives v_lp.val = true ∧ s.attached v_lp.val = false))) &&
     (let s : State := locus z fun l => { l with side := [rLearn] };
      (match (List.find? (fun (r : LearnReq) => !s.learnBlocked r) s.locus.side) with
        | some _ =>
          true
        | _ => false)) &&
     (let s : State := sClient;
      decide (List.find? (fun (r : LearnReq) => !s.learnBlocked r) s.locus.side = none) &&
      decide (s.locus.learns = []) &&
      decide (s.halted = false) &&
      decide (s.framePathOn = true)) &&
     (let s : State := sLearn;
      decide (List.find? (fun (r : LearnReq) => !s.learnBlocked r) s.locus.side = none) &&
      (match (s.locus.learns) with
        | v_r :: _ =>
          decide (s.learnBlocked v_r = false)
        | _ => false)) &&
     (let v_r : LearnReq := rLearn;
      (let s : State := sClient;
       decide (s.emFind v_r.profile v_r.key = none)) &&
      (let s : State := sLearn;
       (match (s.emFind v_r.profile v_r.key) with
         | some (_, e) =>
           decide (e.learned = true) &&
           decide (e.learnLp = v_r.lp)
         | _ => false)) &&
      (let s : State := sLearnStatic;
       (match (s.emFind v_r.profile v_r.key) with
         | some (_, e) =>
           decide (¬(e.learned = true ∧ e.learnLp = v_r.lp))
         | _ => false))) &&
     (let v_key : BitVec 128 := 9#128;
      let p : Fin 16 := prof1;
      (let s : State := sHold;
       (match (List.find? (fun (x : BitVec 4 × BitVec 128 × Nat) => x.fst.toNat == p.val && x.snd.fst == v_key) s.locus.hold) with
         | some _ =>
           true
         | _ => false)) &&
      (let s : State := sClient;
       decide (List.find? (fun (x : BitVec 4 × BitVec 128 × Nat) => x.fst.toNat == p.val && x.snd.fst == v_key) s.locus.hold = none))) &&
     (let s : State := sHeldPart;
      decide (s.halted = true)) &&
     (let s : State := z;
      decide (s.halted = false) &&
      decide (s.framePathOn = false))) = true := by decide +kernel

/-- Hypotheses of Obligations.ColdResetsAlarmsAndHolds. -/
theorem witness_cold_resets_alarms_and_holds :
    ((let s : State := z;
      decide (∀ m ∈ [Mbx.compass, Mbx.debugPort], s.writesOf m = none)) &&
     (let rail : Rail := rail0;
      (let s : State := z;
       decide (¬(s.apex.held = true ∨ railMonitored rail.id.val = false))) &&
      (let s : State := sHeldPart;
       decide (s.apex.held = true ∨ railMonitored rail.id.val = false))) &&
     (let s : State := sHeldPart;
      decide (s.halted = true))) = true := by decide +kernel

/-- Hypotheses of Obligations.CompletionsEndTheirCommand. -/
theorem witness_completions_end_their_command :
    ((let d : Desc := dNow;
      let s : State := sOrphan;
      decide (s.mem.wf = true) &&
      decide (s.rings.orphans.contains d = true)) &&
     (let d : Desc := dAt;
      (let s : State := sOrphan;
       decide (s.mem.wf = true) &&
       decide (s.rings.orphans.contains d = false)) &&
      (let j : Nat := 32;
       let s : State := sOrphan;
       decide (s.mem.wf = true) &&
       decide (s.rings.orphans.contains d = false) &&
       decide (j < (s.ring RingKind.completion (s.ring RingKind.command d.ring.val).completionRing).slotAddr (s.ring RingKind.completion
           (s.ring RingKind.command d.ring.val).completionRing).pi.toNat 32 ∨ (s.ring RingKind.completion (s.ring RingKind.command
           d.ring.val).completionRing).slotAddr (s.ring RingKind.completion (s.ring RingKind.command d.ring.val).completionRing).pi.toNat 32
           + 32 ≤ j)))) = true := by decide +kernel

/-- Hypotheses of Obligations.ContextAndBlockInstructions, part 1. -/
theorem witness_context_and_block_instructions_1 :
    (let i : Issue := iss;
     (let s : State := prep sSa 0 (word 0x70 4 0 1 0 0) inOp;
      let x : Ins := nextIns i s;
      let s0 : State := issued i s;
      decide (x.op = 112) &&
      decide (1 < (s0.thread i.t.cl i.t.key).kind ∨ (s0.thread i.t.cl i.t.key).op.isSome = true ∨ bitOf x.ext 1 = true ∧
          ¬((s0.thread i.t.cl i.t.key).kind = 1 ∧ (s0.thread i.t.cl i.t.key).recv = true)) &&
      issuable i s) &&
     (let s : State := prep sSa 0 (word 0x70 4 3 1 0 0) onItem;
      let x : Ins := nextIns i s;
      let s0 : State := issued i s;
      decide (x.op = 112) &&
      decide (¬(1 < (s0.thread i.t.cl i.t.key).kind ∨ (s0.thread i.t.cl i.t.key).op.isSome = true ∨ bitOf x.ext 1 = true ∧
          ¬((s0.thread i.t.cl i.t.key).kind = 1 ∧ (s0.thread i.t.cl i.t.key).recv = true))) &&
      decide (((s0.thread i.t.cl i.t.key).gr x.a).toNat / 8192 ≠ i.t.cl) &&
      issuable i s) &&
     (let s : State := prep sSa 0 (word 0x70 4 0 1 0 1) onItem;
      let x : Ins := nextIns i s;
      let s0 : State := issued i s;
      decide (x.op = 112) &&
      decide (¬(1 < (s0.thread i.t.cl i.t.key).kind ∨ (s0.thread i.t.cl i.t.key).op.isSome = true ∨ bitOf x.ext 1 = true ∧
          ¬((s0.thread i.t.cl i.t.key).kind = 1 ∧ (s0.thread i.t.cl i.t.key).recv = true))) &&
      decide (((s0.thread i.t.cl i.t.key).gr x.a).toNat / 8192 = i.t.cl) &&
      issuable i s &&
      decide (bitOf x.ext 0 = true) &&
      issuable i s) &&
     (let s : State := prep sSa 0 (word 0x71 4 0 0 0 0) onItem;
      let x : Ins := nextIns i s;
      let s0 : State := issued i s;
      decide (x.op = 113) &&
      decide ((s0.thread i.t.cl i.t.key).op = none ∨ (∃ (o : SaOp), (s0.thread i.t.cl i.t.key).op = some o ∧ o.key = none) ∨
          (s0.thread i.t.cl i.t.key).recv = true ∨ (s0.thread i.t.cl i.t.key).pnAsked = true) &&
      issuable i s) &&
     (let s : State := prep sSa 0 (word 0x71 4 0 0 0 0) inOp;
      let x : Ins := nextIns i s;
      let s0 : State := issued i s;
      decide (x.op = 113) &&
      (match ((s0.thread i.t.cl i.t.key).op) with
        | some v_o =>
          (match (v_o.key) with
            | some (slot, gen, _, _) =>
              decide ((s0.thread i.t.cl i.t.key).recv = false) &&
              decide ((s0.thread i.t.cl i.t.key).pnAsked = false) &&
              (match ((s0.takePn i.t.cl v_o.handle v_o.phase slot gen).fst) with
                | PnResult.value _ =>
                  issuable i s
                | _ => false)
            | _ => false)
        | _ => false)) &&
     (let s : State := prep (withPair sSa fun t => { t with lease := .lapsed }) 0 (word 0x71 4 0 0 0 0) inOp;
      let x : Ins := nextIns i s;
      let s0 : State := issued i s;
      decide (x.op = 113) &&
      (match ((s0.thread i.t.cl i.t.key).op) with
        | some v_o =>
          (match (v_o.key) with
            | some (slot, gen, _, _) =>
              decide ((s0.thread i.t.cl i.t.key).recv = false) &&
              decide ((s0.thread i.t.cl i.t.key).pnAsked = false) &&
              (match ((s0.takePn i.t.cl v_o.handle v_o.phase slot gen).fst) with
                | PnResult.refused _ =>
                  issuable i s
                | _ => false)
            | _ => false)
        | _ => false)) &&
     (let s : State := prep sSa 0 (word 0x72 4 0 0 0 0) onItem;
      let x : Ins := nextIns i s;
      let s0 : State := issued i s;
      decide ((s0.thread i.t.cl i.t.key).op = none) &&
      decide (x.op = 114) &&
      issuable i s) &&
     (let s : State := prep sSa 0 (word 0x73 0 0 1 0 0x80) onItem;
      let x : Ins := nextIns i s;
      let s0 : State := issued i s;
      decide ((s0.thread i.t.cl i.t.key).op = none) &&
      decide (x.op = 115) &&
      issuable i s) &&
     (let s : State := prep sSa 0 (word 0x72 4 0 0 0 0x88) inOp;
      let x : Ins := nextIns i s;
      let s0 : State := issued i s;
      decide (x.op = 114) &&
      (match ((s0.thread i.t.cl i.t.key).op) with
        | some _ =>
          decide (bits x.ext 0 8 ≤ 143) &&
          issuable i s
        | _ => false)) &&
     (let s : State := prep sSa 0 (word 0x72 1 0 0 0 0x90) inOp;
      let x : Ins := nextIns i s;
      let s0 : State := issued i s;
      decide (x.op = 114) &&
      (match ((s0.thread i.t.cl i.t.key).op) with
        | some _ =>
          decide (143 < bits x.ext 0 8) &&
          issuable i s
        | _ => false)) &&
     (let s : State := prep sSaLocked 0 (word 0x73 0 0 1 0 0x80) inOp;
      let x : Ins := nextIns i s;
      let s0 : State := issued i s;
      decide (x.op = 115) &&
      (match ((s0.thread i.t.cl i.t.key).op) with
        | some v_o =>
          decide (bits x.ext 0 8 = 128) &&
          decide (s0.lockOwner v_o.handle = some (vOwner i.t.cl i.t.key)) &&
          issuable i s
        | _ => false)) &&
     (let s : State := prep sSaLocked 0 (word 0x73 0 0 1 0 0x88) inOp;
      let x : Ins := nextIns i s;
      let s0 : State := issued i s;
      decide (x.op = 115) &&
      (match ((s0.thread i.t.cl i.t.key).op) with
        | some v_o =>
          decide (bits x.ext 0 8 = 136) &&
          decide (s0.lockOwner v_o.handle = some (vOwner i.t.cl i.t.key)) &&
          issuable i s
        | _ => false)) &&
     (let s : State := prep sSa 0 (word 0x73 0 0 1 0 0x88) inOp;
      let x : Ins := nextIns i s;
      let s0 : State := issued i s;
      decide (x.op = 115) &&
      (match ((s0.thread i.t.cl i.t.key).op) with
        | some v_o =>
          decide (bits x.ext 0 8 ≠ 128 ∧ bits x.ext 0 8 ≠ 136 ∨ ¬s0.lockOwner v_o.handle = some (vOwner i.t.cl i.t.key)) &&
          issuable i s
        | _ => false)) &&
     (let perr : Bool := true;
      (let s : State := prep sSa 0 (wBenc) onBlockFar;
       let n : Instr × Nat := (Instr.benc ⟨i, perr⟩, 128);
       let x : Ins := nextIns i s;
       let s0 : State := issued i s;
       decide (s0.badDesc i.t.cl i.t.key (blockDesc (s0.thread i.t.cl i.t.key) x) = true ∨ (if i.t.cl = 16 then s0.radiusRefuses
           i.t.key (blockDesc (s0.thread i.t.cl i.t.key) x) else s0.prismRefuses i.t.cl i.t.key (blockDesc (s0.thread i.t.cl
           i.t.key) x)) = true) &&
       issuable i s &&
       decide (x.op = n.snd)) &&
      (let s : State := prep { sSa with clk := 2001 } 0 (wBenc) onBlock;
       let n : Instr × Nat := (Instr.benc ⟨i, perr⟩, 128);
       decide (i.t.cl < 16) &&
       (let x : Ins := nextIns i s;
        let s0 : State := issued i s;
        decide (¬(s0.badDesc i.t.cl i.t.key (blockDesc (s0.thread i.t.cl i.t.key) x) = true ∨ (if i.t.cl = 16 then
            s0.radiusRefuses i.t.key (blockDesc (s0.thread i.t.cl i.t.key) x) else s0.prismRefuses i.t.cl i.t.key (blockDesc
            (s0.thread i.t.cl i.t.key) x)) = true)) &&
        decide ((blockDesc (s0.thread i.t.cl i.t.key) x).keysel = 0) &&
        decide ((blockDesc (s0.thread i.t.cl i.t.key) x).keyed = true) &&
        decide (∃ (o : SaOp), (s0.thread i.t.cl i.t.key).op = some o ∧ o.since + 2000 < s0.clk) &&
        issuable i s &&
        decide (x.op = n.snd))) &&
      (let s : State := prep sSa 0 (wBenc) onBlock;
       let n : Instr × Nat := (Instr.benc ⟨i, perr⟩, 128);
       let x : Ins := nextIns i s;
       let s0 : State := issued i s;
       decide (¬(s0.badDesc i.t.cl i.t.key (blockDesc (s0.thread i.t.cl i.t.key) x) = true ∨ (if i.t.cl = 16 then s0.radiusRefuses
           i.t.key (blockDesc (s0.thread i.t.cl i.t.key) x) else s0.prismRefuses i.t.cl i.t.key (blockDesc (s0.thread i.t.cl
           i.t.key) x)) = true)) &&
       decide (¬((blockDesc (s0.thread i.t.cl i.t.key) x).keysel = 0 ∧ (blockDesc (s0.thread i.t.cl i.t.key) x).keyed = true ∧
           i.t.cl < 16 ∧ ∃ (o : SaOp), (s0.thread i.t.cl i.t.key).op = some o ∧ o.since + 2000 < s0.clk)) &&
       issuable i s &&
       decide (x.op = n.snd)))) = true := by decide +kernel

/-- Hypotheses of Obligations.ContextAndBlockInstructions, part 2. -/
theorem witness_context_and_block_instructions_2 :
    (let h0 : Nat := 0;
     let ph : Option Bool := none;
     let recv : Bool := true;
     let s : State := after (prep sSa 0 (word 0x70 4 0 1 0 1) onItem) 0 (word 0x70 4 0 1 0 1);
     decide ((s.resolve (!recv) h0).isSome = true) &&
     decide ((s.sa ((s.resolve (!recv) h0).getD h0)).status = AssocStatus.active) &&
     decide (¬((s.sa ((s.resolve (!recv) h0).getD h0)).facet = true ∧ recv = true ∧ (s.sa ((s.resolve (!recv) h0).getD
         h0)).expired = some (ph.getD (s.sa ((s.resolve (!recv) h0).getD h0)).phase, (s.slot (slotKey 0 (if ((s.sa ((s.resolve
         (!recv) h0).getD h0)).facet && ph.getD (s.sa ((s.resolve (!recv) h0).getD h0)).phase) = true then (s.sa ((s.resolve
         (!recv) h0).getD h0)).dkB.toNat else (s.sa ((s.resolve (!recv) h0).getD h0)).dkA.toNat))).gen))) &&
     decide (s.usable (slotKey 0 (if ((s.sa ((s.resolve (!recv) h0).getD h0)).facet && ph.getD (s.sa ((s.resolve (!recv)
         h0).getD h0)).phase) = true then (s.sa ((s.resolve (!recv) h0).getD h0)).dkB.toNat else (s.sa ((s.resolve (!recv)
         h0).getD h0)).dkA.toNat)) = true) &&
     decide ((s.slot (slotKey 0 (if ((s.sa ((s.resolve (!recv) h0).getD h0)).facet && ph.getD (s.sa ((s.resolve (!recv)
         h0).getD h0)).phase) = true then (s.sa ((s.resolve (!recv) h0).getD h0)).dkB.toNat else (s.sa ((s.resolve (!recv)
         h0).getD h0)).dkA.toNat))).act.use.getLsbD (if recv = true then 3 else 4) = true)) = true := by decide +kernel

/-- Hypotheses of Obligations.ContextAndBlockInstructions, part 3. -/
theorem witness_context_and_block_instructions_3 :
    ((let h0 : Nat := 1;
      let ph : Option Bool := none;
      let recv : Bool := true;
      let s : State := after (prep sSa 0 (word 0x70 4 0 1 0 1) onItem) 0 (word 0x70 4 0 1 0 1);
      decide (¬((s.resolve (!recv) h0).isSome = true ∧ (s.sa ((s.resolve (!recv) h0).getD h0)).status = AssocStatus.active ∧
          ¬((s.sa ((s.resolve (!recv) h0).getD h0)).facet = true ∧ recv = true ∧ (s.sa ((s.resolve (!recv) h0).getD
          h0)).expired = some (ph.getD (s.sa ((s.resolve (!recv) h0).getD h0)).phase, (s.slot (slotKey 0 (if ((s.sa ((s.resolve
          (!recv) h0).getD h0)).facet && ph.getD (s.sa ((s.resolve (!recv) h0).getD h0)).phase) = true then (s.sa ((s.resolve
          (!recv) h0).getD h0)).dkB.toNat else (s.sa ((s.resolve (!recv) h0).getD h0)).dkA.toNat))).gen)) ∧ s.usable (slotKey 0
          (if ((s.sa ((s.resolve (!recv) h0).getD h0)).facet && ph.getD (s.sa ((s.resolve (!recv) h0).getD h0)).phase) = true
          then (s.sa ((s.resolve (!recv) h0).getD h0)).dkB.toNat else (s.sa ((s.resolve (!recv) h0).getD h0)).dkA.toNat)) = true
          ∧ (s.slot (slotKey 0 (if ((s.sa ((s.resolve (!recv) h0).getD h0)).facet && ph.getD (s.sa ((s.resolve (!recv)
          h0).getD h0)).phase) = true then (s.sa ((s.resolve (!recv) h0).getD h0)).dkB.toNat else (s.sa ((s.resolve (!recv)
          h0).getD h0)).dkA.toNat))).act.use.getLsbD (if recv = true then 3 else 4) = true))) &&
     (let h : Nat := 0;
      decide (h < 2 ^ 17)) &&
     (let c : Nat := 0;
      (let k : Nat := 0;
       let s : State := after (prep sSa 0 (word 0x70 4 0 1 0 0) inOp) 0 (word 0x70 4 0 1 0 0);
       decide (c ≠ 16) &&
       (match ((s.thread c k).op) with
         | some o =>
           (match (o.key) with
             | some (_, _, _, _) =>
               true
             | _ => false)
         | _ => false)) &&
      (let d : BlockDesc := bd 0;
       decide (c ≠ 16) &&
       decide (d.op = 0))) &&
     (let k : Nat := 0;
      let s : State := radKeyed;
      (match (s.ritemOf k) with
        | some i =>
          (match (i.key) with
            | some _ =>
              true
            | _ => false)
        | _ => false)) &&
     (let d : BlockDesc := bd 0;
      decide (d.op = 0) &&
      decide (d.keysel ≠ 1)) &&
     (let d : BlockDesc := { bd 0 with keysel := 1 };
      let k : Nat := 0;
      let s : State := radKeyed;
      (match (s.ritemOf k) with
        | some i =>
          decide (d.op = 0) &&
          decide (d.keysel = 1) &&
          (match ((s.derive i).ritem i.id) with
            | some _ =>
              decide (d.op = 0) &&
              decide (d.keysel = 1)
            | _ => false)
        | _ => false))) = true := by decide +kernel

/-- Hypotheses of Obligations.ContextAndBlockInstructions, part 4. -/
theorem witness_context_and_block_instructions_4 :
    ((let d : BlockDesc := bd 1;
      decide (d.op = 1)) &&
     (let d : BlockDesc := bd 2;
      decide (d.op = 2) &&
      decide (d.route < 2)) &&
     (let d : BlockDesc := { bd 2 with route := 2 };
      decide (d.op = 2) &&
      decide (2 ≤ d.route)) &&
     (let d : BlockDesc := bd 3;
      decide (d.op = 3)) &&
     (let d : BlockDesc := bd 4;
      decide (d.op = 4)) &&
     (let d : BlockDesc := bd 5;
      decide (d.op = 5))) = true := by decide +kernel

/-- Hypotheses of Obligations.ControlInstructionsAndDispositions, part 1. -/
theorem witness_control_instructions_and_dispositions_1 :
    (let i : Issue := iss;
     (let s : State := prep z 0 (word 0xA0 0 0 0 0 15) withRegs;
      let x : Ins := nextIns i s;
      let s0 : State := issued i s;
      decide (x.op = 160) &&
      decide (bits x.ext 0 14 < s0.count_ i.t.cl (s0.thread i.t.cl i.t.key).high) &&
      issuable i s) &&
     (let s : State := prep z 0 (word 0xA0 0 0 0 0 16) withRegs;
      let x : Ins := nextIns i s;
      let s0 : State := issued i s;
      decide (x.op = 160) &&
      decide (s0.count_ i.t.cl (s0.thread i.t.cl i.t.key).high ≤ bits x.ext 0 14) &&
      issuable i s) &&
     (let s : State := prep z 0 (word 0xA1 0 1 0 0 0) withRegs;
      let x : Ins := nextIns i s;
      let s0 : State := issued i s;
      decide (x.op = 161) &&
      decide (bits ((s0.thread i.t.cl i.t.key).gr x.a).toNat 0 14 < s0.count_ i.t.cl (s0.thread i.t.cl i.t.key).high) &&
      issuable i s) &&
     (let s : State := prep zm 0 (word 0xA1 0 1 0 0 0) (fun t => { t with g := [(1, 16)] });
      let x : Ins := nextIns i s;
      let s0 : State := issued i s;
      decide (x.op = 161) &&
      decide (s0.count_ i.t.cl (s0.thread i.t.cl i.t.key).high ≤ bits ((s0.thread i.t.cl i.t.key).gr x.a).toNat 0 14) &&
      issuable i s) &&
     (let s : State := prep z 0 (word 0xA2 0 0 0 0 15) (onStack (List.replicate 7 1));
      let x : Ins := nextIns i s;
      let s0 : State := issued i s;
      decide (x.op = 162) &&
      decide (bits x.ext 0 14 < s0.count_ i.t.cl (s0.thread i.t.cl i.t.key).high) &&
      decide ((s0.thread i.t.cl i.t.key).stack.length < 8) &&
      issuable i s) &&
     (let s : State := prep z 0 (word 0xA2 0 0 0 0 15) (onStack (List.replicate 8 1));
      let x : Ins := nextIns i s;
      let s0 : State := issued i s;
      decide (x.op = 162) &&
      decide (8 ≤ (s0.thread i.t.cl i.t.key).stack.length ∨ s0.count_ i.t.cl (s0.thread i.t.cl i.t.key).high ≤ bits x.ext 0 14) &&
      issuable i s) &&
     (let s : State := prep z 0 (word 0xA3 0 0 0 0 0) withRegs;
      let x : Ins := nextIns i s;
      let s0 : State := issued i s;
      decide (x.op = 163) &&
      decide ((s0.thread i.t.cl i.t.key).stack = []) &&
      issuable i s) &&
     (let s : State := prep z 0 (word 0xA3 0 0 0 0 0) (onStack [15]);
      let x : Ins := nextIns i s;
      let s0 : State := issued i s;
      decide (x.op = 163) &&
      (match ((s0.thread i.t.cl i.t.key).stack) with
        | pc :: _ =>
          decide (pc < s0.count_ i.t.cl (s0.thread i.t.cl i.t.key).high) &&
          issuable i s
        | _ => false)) &&
     (let s : State := prep zm 0 (word 0xA3 0 0 0 0 0) (onStack [16]);
      let x : Ins := nextIns i s;
      let s0 : State := issued i s;
      decide (x.op = 163) &&
      (match ((s0.thread i.t.cl i.t.key).stack) with
        | pc :: _ =>
          decide (s0.count_ i.t.cl (s0.thread i.t.cl i.t.key).high ≤ pc) &&
          issuable i s
        | _ => false)) &&
     (let s : State := prep z 0 (word 0xA4 0 0 0 0 0) withRegs;
      let x : Ins := nextIns i s;
      decide (x.op = 164) &&
      issuable i s) &&
     (let s : State := prep z 0 (word 0xA5 0 0 0 0 0) withRegs;
      let x : Ins := nextIns i s;
      decide (x.op = 165) &&
      issuable i s) &&
     (let s : State := prep z 0 (word 0xB8 0 1 0 0 3) withRegs;
      let x : Ins := nextIns i s;
      let s0 : State := issued i s;
      decide (x.op = 184) &&
      decide ((s0.thread i.t.cl i.t.key).failed = false) &&
      issuable i s) &&
     (let s : State := prep z 0 (word 0xB8 0 1 0 0 3) onFailed;
      let x : Ins := nextIns i s;
      let s0 : State := issued i s;
      decide (x.op = 184) &&
      decide ((s0.thread i.t.cl i.t.key).failed = true) &&
      issuable i s) &&
     (let s : State := prep sItem 0 wEmit onFailed;
      let x : Ins := nextIns i s;
      let s0 : State := issued i s;
      decide (x.op = 176) &&
      decide ((s0.thread i.t.cl i.t.key).failed = true) &&
      issuable i s) &&
     (let s : State := prep sItem 0 (wEmit) onItem;
      decide (i.t.cl ≠ 16) &&
      (let x : Ins := nextIns i s;
       let s0 : State := issued i s;
       decide (x.op = 176) &&
       decide ((s0.thread i.t.cl i.t.key).failed = false) &&
       (match (s0.heldItem i.t.cl i.t.key) with
         | some it =>
           decide (it.kind ≠ 3) &&
           issuable i s
         | _ => false))) &&
     (let s : State := prep (withItem zm { wItem with kind := 3 }) 0 wEmit onItem;
      decide (i.t.cl ≠ 16) &&
      (let x : Ins := nextIns i s;
       let s0 : State := issued i s;
       decide (x.op = 176) &&
       decide ((s0.thread i.t.cl i.t.key).failed = false) &&
       (match (s0.heldItem i.t.cl i.t.key) with
         | some it =>
           decide (it.kind = 3) &&
           issuable i s
         | _ => false))) &&
     (let s : State := prep zm 0 wEmit withRegs;
      decide (i.t.cl ≠ 16) &&
      (let x : Ins := nextIns i s;
       let s0 : State := issued i s;
       decide (x.op = 176) &&
       decide ((s0.thread i.t.cl i.t.key).failed = false) &&
       decide (s0.heldItem i.t.cl i.t.key = none) &&
       issuable i s)) &&
     (let s : State := prep sItem 0 (wDrop) onItem;
      let x : Ins := nextIns i s;
      decide (x.op = 177) &&
      issuable i s) &&
     (let s : State := prep sItem 0 (wHalt) onItem;
      let x : Ins := nextIns i s;
      decide (x.op = 166) &&
      issuable i s) &&
     (let s : State := prep sItem 0 (wPark) onPn;
      let x : Ins := nextIns i s;
      let s0 : State := issued i s;
      decide (x.op = 178) &&
      decide (i.t.cl = 16 ∨ (s0.thread i.t.cl i.t.key).kind ≠ 0 ∨ (s0.thread i.t.cl i.t.key).recv = true ∨ (s0.thread i.t.cl
          i.t.key).pn.isSome = true) &&
      issuable i s) &&
     (let s : State := prep sItem 0 (wPark) onItem;
      let x : Ins := nextIns i s;
      let s0 : State := issued i s;
      decide (x.op = 178) &&
      decide (¬(i.t.cl = 16 ∨ (s0.thread i.t.cl i.t.key).kind ≠ 0 ∨ (s0.thread i.t.cl i.t.key).recv = true ∨ (s0.thread i.t.cl
          i.t.key).pn.isSome = true)) &&
      (match (s0.heldItem i.t.cl i.t.key) with
        | some _ =>
          issuable i s
        | _ => false)) &&
     (let s : State := prep zm 0 wPark withRegs;
      let x : Ins := nextIns i s;
      let s0 : State := issued i s;
      decide (x.op = 178) &&
      decide (¬(i.t.cl = 16 ∨ (s0.thread i.t.cl i.t.key).kind ≠ 0 ∨ (s0.thread i.t.cl i.t.key).recv = true ∨ (s0.thread i.t.cl
          i.t.key).pn.isSome = true)) &&
      decide (s0.heldItem i.t.cl i.t.key = none) &&
      issuable i s) &&
     (let s : State := prep sItem 0 (wRedo) onPn;
      let x : Ins := nextIns i s;
      let s0 : State := issued i s;
      decide (x.op = 179) &&
      decide (i.t.cl = 16 ∨ 1 < (s0.thread i.t.cl i.t.key).kind ∨ (s0.thread i.t.cl i.t.key).pn.isSome = true) &&
      issuable i s) &&
     (let s : State := prep sItem 0 (wRedo) onItem;
      let x : Ins := nextIns i s;
      let s0 : State := issued i s;
      decide (x.op = 179) &&
      decide (¬(i.t.cl = 16 ∨ 1 < (s0.thread i.t.cl i.t.key).kind ∨ (s0.thread i.t.cl i.t.key).pn.isSome = true)) &&
      (match (s0.heldItem i.t.cl i.t.key) with
        | some _ =>
          issuable i s
        | _ => false)) &&
     (let s : State := prep zm 0 wRedo withRegs;
      let x : Ins := nextIns i s;
      let s0 : State := issued i s;
      decide (x.op = 179) &&
      decide (¬(i.t.cl = 16 ∨ 1 < (s0.thread i.t.cl i.t.key).kind ∨ (s0.thread i.t.cl i.t.key).pn.isSome = true)) &&
      decide (s0.heldItem i.t.cl i.t.key = none) &&
      issuable i s)) = true := by decide +kernel

/-- Hypotheses of Obligations.ControlInstructionsAndDispositions, part 2. -/
theorem witness_control_instructions_and_dispositions_2 :
    ((let i : Issue := issR;
      (let s : State := prep sRadItem 16 (word 0xB0 0 1 0 0 0) (fun t => { withRegs t with item := some 7 });
       decide (i.t.cl = 16) &&
       (let x : Ins := nextIns i s;
        let s0 : State := issued i s;
        decide (x.op = 176) &&
        decide ((s0.thread i.t.cl i.t.key).failed = false) &&
        (match (s0.ritemOf i.t.key) with
          | some _ =>
            issuable i s
          | _ => false))) &&
      (let s : State := prep zm 16 (word 0xB0 0 1 0 0 0) withRegs;
       decide (i.t.cl = 16) &&
       (let x : Ins := nextIns i s;
        let s0 : State := issued i s;
        decide (x.op = 176) &&
        decide ((s0.thread i.t.cl i.t.key).failed = false) &&
        decide (s0.ritemOf i.t.key = none) &&
        issuable i s))) &&
     (let c : Nat := 0;
      (let k : Nat := 0;
       let s : State := after (prep sItem 0 (wPark) onPn) 0 (wPark);
       (match ((s.thread c k).op) with
         | some o =>
           decide (o.locked = true)
         | _ => false)) &&
      (let h : Nat := 0;
       let it : Item := wItem;
       let j : Item := { wItem with seq := 2 };
       let s : State := withItem sLine { wItem with seq := 2 };
       let twin : Bool := true;
       decide (¬(twin = false ∧ h ∈ (s.unit c).expired ∨ (s.lport (64 + it.lp)).enabled = false)) &&
       decide (j ∈ ((s.holdItem c h twin it).unit c).items))) &&
     (let it : Item := wItem;
      (let n : Nat := 0;
       let s : State := after (prep sItem 0 (wEmit) onItem) 0 (wEmit);
       decide (s.item n it.seq = some it) &&
       decide (it ∈ (s.unit n).items)) &&
      decide (it.lp ≠ 64) &&
      decide (it.kind ≠ 1) &&
      (let r : Nat := 1;
       decide (r = 1 ∨ r = 2) &&
       decide (it.lp ≠ 64)) &&
      (let r : Nat := 15;
       decide (7 ≤ r) &&
       decide (it.lp ≠ 64))) &&
     (let c : Nat := 15;
      let h : Nat := 15;
      let it : Item := wItem;
      (let s : State := after (prep z 0 (word 0xA0 0 0 0 0 15) withRegs) 0 (word 0xA0 0 0 0 0 15);
       let twin : Bool := true;
       decide (twin = false ∧ h ∈ (s.unit c).expired ∨ (s.lport (64 + it.lp)).enabled = false)) &&
      (let s : State := sOverlap;
       let twin : Bool := true;
       decide (¬(twin = false ∧ h ∈ (s.unit c).expired ∨ (s.lport (64 + it.lp)).enabled = false)))) &&
     (let it : Item := { wItem with lp := 64 };
      decide (it.lp = 64)) &&
     (let it : Item := { wItem with kind := 1 };
      decide (it.lp ≠ 64) &&
      decide (it.kind = 1)) &&
     (let r : Nat := 1;
      decide (r = 1 ∨ r = 2)) &&
     (let r : Nat := 15;
      decide (r = 0 ∨ 6 ≤ r))) = true := by decide +kernel

/-- Hypotheses of Obligations.ControlInstructionsAndDispositions, part 3. -/
theorem witness_control_instructions_and_dispositions_3 :
    (let it : RItem := rItem0;
     (let k : Nat := 15;
      let s : State := after (prep z 0 (word 0xA0 0 0 0 0 15) withRegs) 0 (word 0xA0 0 0 0 0 15);
      let v : List Byte := [];
      decide (Option.any (fun (x : RecLock) => x.owner == vOwner 16 k) (s.recLock it.slot) = false ∨ writeBackOk it.image v = false)) &&
     (let j : RItem := { rItem0 with id := 8 };
      let k : Nat := 0;
      (let s : State := withRad zm fun r => { r with items := [rItem0, { rItem0 with id := 8 }] };
       let v_x : Ins := Ins.of wEmit;
       decide (j ∈ (s.emitItem k v_x it).radius.items)) &&
      (let v_r : Nat := 1;
       let s : State := withRad zm fun r => { r with items := [rItem0, { rItem0 with id := 8 }] };
       decide (j ∈ (s.dropItem k v_r it).radius.items)))) = true := by decide +kernel

/-- Hypotheses of Obligations.CounterReadsAndFreezes. -/
theorem witness_counter_reads_and_freezes :
    ((let s : State := sCntAsked;
      decide (s.halted = false) &&
      (match (s.tele.cntPending) with
        | some id =>
          decide (counterExists (BitVec.toNat id) = true)
        | _ => false)) &&
     (let s : State := sCntAskedBad;
      (match (s.tele.cntPending) with
        | some id =>
          decide (counterExists (BitVec.toNat id) = false)
        | _ => false)) &&
     (let d : Desc := dFreeze;
      (let s : State := sFrozen;
       let s0 : State := (s.reserve d).getD s;
       decide (d.get 8 1 = 2) &&
       decide (s0.frozen = true) &&
       accepts d 0 [(8, 1)] s) &&
      (let s : State := sCntAsked;
       let s0 : State := (s.reserve d).getD s;
       decide (d.get 8 1 = 2) &&
       decide (s0.frozen = false) &&
       accepts d 0 [(8, 1)] s)) &&
     (let d : Desc := dThaw;
      (let s : State := sFrozen;
       let s0 : State := (s.reserve d).getD s;
       decide (d.get 8 1 = 3) &&
       decide (s0.tele.cmdFrozen = true) &&
       decide (s0.tele.pinFrozen = false) &&
       accepts d 0 [(8, 1)] s) &&
      (let s : State := sPinFrozen;
       let s0 : State := (s.reserve d).getD s;
       decide (d.get 8 1 = 3) &&
       decide (s0.tele.pinFrozen = true) &&
       accepts d 0 [(8, 1)] s)) &&
     (let s : State := sPinFreeze;
      decide (s.apex.held = false) &&
      decide (bitOf (s.regN 65011744) 31 = true) &&
      decide (bitOf (s.regN 65011744) 30 = true) &&
      decide (s.tele.cmdFrozen = false) &&
      decide (s.tele.pinFrozen = false)) &&
     (let s : State := withTele sPinFreeze fun t => { t with cmdFrozen := true };
      decide (s.apex.held = false) &&
      decide (bitOf (s.regN 65011744) 31 = true) &&
      decide (bitOf (s.regN 65011744) 30 = true) &&
      decide (s.tele.cmdFrozen = true))) = true := by decide +kernel

/-- Hypotheses of Obligations.CounterValuesAreTakenOnce, part 1. -/
theorem witness_counter_values_are_taken_once_1 :
    ((let dk : Nat := 0;
      (let g : BitVec 32 := 0#32;
       let h : Nat := 0;
       let ph : Bool := false;
       let s : State := sSa;
       (match ((s.pnTake h ph dk g).fst) with
         | PnResult.value _ =>
           true
         | _ => false)) &&
      (let h : Nat := 0;
       let ph : Bool := false;
       let s : State := sSa;
       let g : BitVec 32 := (s.slot (slotKey 0 dk)).gen;
       (match ((s.pnTake h ph dk g).fst) with
         | PnResult.value _ =>
           true
         | _ => false))) &&
     (let s : State := z;
      decide (¬(s.leaseValid = true ∨ s.twin.lease = Lease.handover)))) = true := by decide +kernel

/-- Hypotheses of Obligations.CounterValuesAreTakenOnce, part 2. -/
theorem witness_counter_values_are_taken_once_2 :
    ((let h : Nat := 0;
      let ph : Bool := false;
      (let s : State := soloCtx [(0, { aTx with left := some 0, status := .active })];
       decide (s.leaseValid = true ∨ s.twin.lease = Lease.handover) &&
       decide (∃ (n : Nat), (s.sa h).left = some n ∧ n ≤ (s.sa h).nextN ∧ if (s.sa h).facet = true then (s.sa h).phase ≠ ph else
           (s.sa h).current = false)) &&
      (let s : State := soloCtx [(0, { aTx with status := .active, current := true, switchPn := 1, successor := 1 }), (1,
           { aTx with an := 1, dkA := 1 })];
       decide (s.leaseValid = true ∨ s.twin.lease = Lease.handover) &&
       decide ((s.sa h).switchPn ≠ 0) &&
       decide ((s.sa h).switchPn.toNat ≤ (s.sa h).nextN) &&
       decide ((s.switchEntry h (s.sa h).successor.toNat (some (s.sa h).switchPn.toNat)).fst = true) &&
       decide (¬∃ (n : Nat), (s.sa h).left = some n ∧ n ≤ (s.sa h).nextN ∧ if (s.sa h).facet = true then (s.sa h).phase ≠ ph else
           (s.sa h).current = false)) &&
      (let s : State := soloCtx [(0, { aTx with status := .active, next := 0x100000000 })];
       decide (s.leaseValid = true ∨ s.twin.lease = Lease.handover) &&
       decide (¬((s.sa h).switchPn ≠ 0 ∧ (s.sa h).switchPn.toNat ≤ (s.sa h).nextN)) &&
       decide ((s.sa h).lastValue < (s.sa h).nextN) &&
       decide (¬∃ (n : Nat), (s.sa h).left = some n ∧ n ≤ (s.sa h).nextN ∧ if (s.sa h).facet = true then (s.sa h).phase ≠ ph else
           (s.sa h).current = false)) &&
      (let s : State := soloCtx [(0, { aTx with status := .active, ceiling := 5, next := 9 })];
       decide (s.leaseValid = true ∨ s.twin.lease = Lease.handover) &&
       decide (¬((s.sa h).switchPn ≠ 0 ∧ (s.sa h).switchPn.toNat ≤ (s.sa h).nextN)) &&
       decide ((s.sa h).nextN ≤ (s.sa h).lastValue) &&
       decide ((s.sa h).ceiling ≠ 0) &&
       decide ((s.sa h).ceiling.toNat ≤ (s.sa h).nextN) &&
       decide (¬∃ (n : Nat), (s.sa h).left = some n ∧ n ≤ (s.sa h).nextN ∧ if (s.sa h).facet = true then (s.sa h).phase ≠ ph else
           (s.sa h).current = false))) &&
     (let g : BitVec 32 := 0#32;
      let h : Nat := 0;
      let ph : Bool := false;
      (let s : State := sSa;
       let slot : Nat := 0;
       (match ((s.pnTake h ph (keyIndex slot) g).fst) with
         | PnResult.value _ =>
           true
         | _ => false)) &&
      (let s : State := z;
       let slot : Nat := 0;
       (match ((s.pnTake h ph (keyIndex slot) g).fst) with
         | PnResult.refused _ =>
           true
         | _ => false)))) = true := by decide +kernel

/-- Hypotheses of Obligations.CryptoBlockGivesItsChunks, part 1. -/
theorem witness_crypto_block_gives_its_chunks_1 :
    ((let d : Desc := dBlock 0x40000000 0;
      let s : State := sBlock;
      let s0 : State := (s.reserve d).getD s;
      decide ((if slotFieldOk d 8 = false ∨ 2 < d.get 12 1 ∨ d.get 32 4 = 0 ∨ 65536 < d.get 32 4 ∨ d.get 12 1 ≠ 2 ∧ d.get 48 16 ≠ 0 then
          Status.badRequest else if d.slotClass 8 ≠ 0 then Status.wrongClass else if (s0.slot (slotField d 8)).shown.use.getLsbD 0 = false ∨
          d.get 12 1 = 1 ∧ (s0.slot (slotField d 8)).shown.use.getLsbD 3 = false then Status.badUsage else if bitOf (s0.regN (33554432 +
          1048576 * (keyIndex (slotField d 8) / 8192))) 1 = false then Status.disabled else if s0.usable (slotField d 8) = false then
          Status.slotEmpty else Status.ok) ≠ Status.ok) &&
      accepts d 0 [(8, 4), (12, 1), (16, 8), (24, 8), (32, 4), (48, 16)] s) &&
     (let d : Desc := dBlock 0 0;
      let s : State := withSlots (z.setReg 0x02000000 2) [(0, kBlock)];
      let s0 : State := (s.reserve d).getD s;
      decide ((if slotFieldOk d 8 = false ∨ 2 < d.get 12 1 ∨ d.get 32 4 = 0 ∨ 65536 < d.get 32 4 ∨ d.get 12 1 ≠ 2 ∧ d.get 48 16 ≠ 0 then
          Status.badRequest else if d.slotClass 8 ≠ 0 then Status.wrongClass else if (s0.slot (slotField d 8)).shown.use.getLsbD 0 = false ∨
          d.get 12 1 = 1 ∧ (s0.slot (slotField d 8)).shown.use.getLsbD 3 = false then Status.badUsage else if bitOf (s0.regN (33554432 +
          1048576 * (keyIndex (slotField d 8) / 8192))) 1 = false then Status.disabled else if s0.usable (slotField d 8) = false then
          Status.slotEmpty else Status.ok) = Status.ok) &&
      (match ((s0.readBuf d Master.annulus (d.get 16 8) (16 * d.get 32 4)).fst) with
        | Except.error _ =>
          accepts d 0 [(8, 4), (12, 1), (16, 8), (24, 8), (32, 4), (48, 16)] s
        | _ => false))) = true := by decide +kernel

/-- Hypotheses of Obligations.CryptoBlockGivesItsChunks, part 2. -/
theorem witness_crypto_block_gives_its_chunks_2 :
    (let d : Desc := dBlock 0 2;
     let s : State := sBlock;
     let s0 : State := (s.reserve d).getD s;
     decide ((if slotFieldOk d 8 = false ∨ 2 < d.get 12 1 ∨ d.get 32 4 = 0 ∨ 65536 < d.get 32 4 ∨ d.get 12 1 ≠ 2 ∧ d.get 48 16 ≠ 0 then
         Status.badRequest else if d.slotClass 8 ≠ 0 then Status.wrongClass else if (s0.slot (slotField d 8)).shown.use.getLsbD 0 = false ∨
         d.get 12 1 = 1 ∧ (s0.slot (slotField d 8)).shown.use.getLsbD 3 = false then Status.badUsage else if bitOf (s0.regN (33554432 +
         1048576 * (keyIndex (slotField d 8) / 8192))) 1 = false then Status.disabled else if s0.usable (slotField d 8) = false then
         Status.slotEmpty else Status.ok) = Status.ok) &&
     (match ((s0.readBuf d Master.annulus (d.get 16 8) (16 * d.get 32 4)).fst) with
       | Except.ok _ =>
         accepts d 0 [(8, 4), (12, 1), (16, 8), (24, 8), (32, 4), (48, 16)] s &&
         decide ((s0.readBuf d Master.annulus (d.get 16 8) (16 * d.get 32 4)).snd.usable (slotField d 8) = true) &&
         decide (((s0.readBuf d Master.annulus (d.get 16 8) (16 * d.get 32 4)).snd.slot (slotField d 8)).act.block = true) &&
         decide (d.get 12 1 = 1 → ((s0.readBuf d Master.annulus (d.get 16 8) (16 * d.get 32 4)).snd.slot (slotField d 8)).act.dec =
             true) &&
         accepts d 0 [(8, 4), (12, 1), (16, 8), (24, 8), (32, 4), (48, 16)] s
       | _ => false)) = true := by decide +kernel

/-- Hypotheses of Obligations.DebugUnlockAndMeasurements. -/
theorem witness_debug_unlock_and_measurements :
    (let m : Mbx := .compass;
     (let s : State := asking 9 64 [2, 0];
      let p : List Byte := (s.mbx m).payload;
      decide ((if leAt p 0 1 = 2 then if s.lc ≠ 10 then 1 else if p.length ≠ 2 ∨ 63 < leAt p 1 1 then 8 else 0 else if leAt p 0 1 = 1 then
          if s.lcService = false then 1 else if 63 < leAt p 1 1 then 8 else s.checkCert 4 false (List.drop 2 p) else 8) ≠ 0) &&
      serves m 64 s) &&
     (let s : State := warned (asking 10 64 [2, 0]);
      let p : List Byte := (s.mbx m).payload;
      decide ((if leAt p 0 1 = 2 then if s.lc ≠ 10 then 1 else if p.length ≠ 2 ∨ 63 < leAt p 1 1 then 8 else 0 else if leAt p 0 1 = 1 then
          if s.lcService = false then 1 else if 63 < leAt p 1 1 then 8 else s.checkCert 4 false (List.drop 2 p) else 8) = 0) &&
      decide (s.cpr.warn ≠ []) &&
      decide (s.apex.heldWrite = none) &&
      serves m 64 s) &&
     (let s : State := holding (warned (asking 10 64 [2, 0]));
      let p : List Byte := (s.mbx m).payload;
      decide ((if leAt p 0 1 = 2 then if s.lc ≠ 10 then 1 else if p.length ≠ 2 ∨ 63 < leAt p 1 1 then 8 else 0 else if leAt p 0 1 = 1 then
          if s.lcService = false then 1 else if 63 < leAt p 1 1 then 8 else s.checkCert 4 false (List.drop 2 p) else 8) = 0) &&
      decide (s.cpr.warn ≠ []) &&
      decide (s.apex.heldWrite ≠ none) &&
      serves m 64 s) &&
     (let s : State := asking 10 64 [2, 63];
      let p : List Byte := (s.mbx m).payload;
      decide ((if leAt p 0 1 = 2 then if s.lc ≠ 10 then 1 else if p.length ≠ 2 ∨ 63 < leAt p 1 1 then 8 else 0 else if leAt p 0 1 = 1 then
          if s.lcService = false then 1 else if 63 < leAt p 1 1 then 8 else s.checkCert 4 false (List.drop 2 p) else 8) = 0) &&
      decide (s.cpr.warn = []) &&
      serves m 64 s) &&
     (let s : State := asking 0 16 [];
      decide (s.lcService = false) &&
      serves m 16 s) &&
     (let s : State := asking 9 16 [1];
      let p : List Byte := (s.mbx m).payload;
      decide (s.lcService = true) &&
      decide (p ≠ []) &&
      serves m 16 s) &&
     (let s : State := asking 9 16 [];
      serves m 16 s &&
      decide (s.lcService = true)) &&
     (let s : State := spentTries (asking 9 17 []);
      decide (8 ≤ s.apex.failed) &&
      serves m 17 s) &&
     (let s : State := asking 9 17 cert;
      let p : List Byte := (s.mbx m).payload;
      decide (s.apex.failed < 8) &&
      decide ((if s.lcService = false then 1 else s.checkCert 1 s.certOwner p) ≠ 0) &&
      serves m 17 s) &&
     (let s : State := personal (asking 9 17 cert);
      let p : List Byte := (s.mbx m).payload;
      decide (s.apex.failed < 8) &&
      decide ((if s.lcService = false then 1 else s.checkCert 1 s.certOwner p) = 0) &&
      serves m 17 s) &&
     (let s : State := asking 12 32 [];
      decide (s.lc = 12) &&
      serves m 32 s) &&
     (let s : State := asking 9 32 [];
      let p : List Byte := (s.mbx m).payload;
      decide (s.lc ≠ 12) &&
      decide (p.length ≠ 52 ∨ 5 < leAt p 0 1 ∨ leAt p 1 3 ≠ 0) &&
      serves m 32 s) &&
     (let s : State := asking 9 32 (List.replicate 52 0);
      let p : List Byte := (s.mbx m).payload;
      decide (s.lc ≠ 12) &&
      decide (¬(p.length ≠ 52 ∨ 5 < leAt p 0 1 ∨ leAt p 1 3 ≠ 0)) &&
      decide (leAt p 0 1 = 0 ∨ leAt p 0 1 = 1 ∨ leAt p 0 1 = 3) &&
      serves m 32 s) &&
     (let s : State := asking 0 32 (4 :: List.replicate 51 0);
      let p : List Byte := (s.mbx m).payload;
      decide (s.lc ≠ 12) &&
      decide (¬(p.length ≠ 52 ∨ 5 < leAt p 0 1 ∨ leAt p 1 3 ≠ 0)) &&
      decide (leAt p 0 1 = 2 ∨ leAt p 0 1 = 4 ∨ leAt p 0 1 = 5) &&
      serves m 32 s) &&
     (let s : State := asking 12 33 [];
      decide (s.lc = 12) &&
      serves m 33 s) &&
     (let s : State := asking 9 33 [];
      let p : List Byte := (s.mbx m).payload;
      decide (s.lc ≠ 12) &&
      decide (p.length ≠ 1 ∨ 5 < leAt p 0 1) &&
      serves m 33 s) &&
     (let s : State := asking 0 33 [5];
      let p : List Byte := (s.mbx m).payload;
      decide (s.lc ≠ 12) &&
      decide (p.length = 1) &&
      decide (leAt p 0 1 ≤ 5) &&
      serves m 33 s) &&
     (let s : State := asking 12 48 [];
      decide (s.lc = 12) &&
      serves m 48 s) &&
     (let s : State := asking 9 48 [1];
      let p : List Byte := (s.mbx m).payload;
      decide (s.lc ≠ 12) &&
      decide (p ≠ []) &&
      serves m 48 s) &&
     (let s : State := asking 0 48 [];
      serves m 48 s &&
      decide (s.lc ≠ 12))) = true := by decide +kernel

/-- Hypotheses of Obligations.EveryStepKeepsMemoryCanonical. -/
theorem witness_every_step_keeps_memory_canonical :
    (let s : State := z;
     decide (s.mem.wf = true) &&
     (match (step s) with
       | Host.Outcome.next _ =>
         true
       | _ => false)) = true := by decide +kernel

/-- Hypotheses of Obligations.EveryStepKeepsTheQueuesRest. -/
theorem witness_every_step_keeps_the_queues_rest :
    (let s : State := z;
     (match (step s) with
       | Host.Outcome.next _ =>
         true
       | _ => false)) = true := by decide +kernel

/-- Hypotheses of Obligations.FacetFramesAreSentAndTaken, part 1. -/
theorem witness_facet_frames_are_sent_and_taken_1 :
    ((let n : Fin 16 := fp0;
      let s : State := sSearch;
      decide (s.facetOpen n.val = false) &&
      decide (s.facetOpen n.val = false ∨ (s.facetPort n.val).marker ≠ MarkerMode.lock)) &&
     (let n : Fin 16 := 0;
      (let s : State := (facetUp fun p => p).setReg (facetOff 0 0x40C) 4;
       decide (s.facetOpen n.val = true) &&
       decide (bitOf (s.regN (facetOff n.val 1036)) 2 = true)) &&
      (let s : State := withItem (facetUp fun p => p) { wItem with kind := 1, line := 0, lines := 2048 };
       decide (s.facetOpen n.val = true) &&
       decide (bitOf (s.regN (facetOff n.val 1036)) 2 = false) &&
       decide (s.facetRoom n.val false = none)) &&
      (let s : State := facetUp fun p => { p with marker := .lock };
       decide (s.facetOpen n.val = true) &&
       decide ((s.facetPort n.val).marker = MarkerMode.lock) &&
       decide ((s.facetPort n.val).frame ≠ FrameMode.inFrame))) &&
     (let client : List ClientBlocks := [];
      let n : Fin 16 := 0;
      (let s : State := withCtx (facetUp fun p => p) [(0, { aFacet with owner := 64 })];
       decide (s.facetOpen n.val = true) &&
       decide (bitOf (s.regN (facetOff n.val 1036)) 2 = false) &&
       (match (s.facetRoom n.val false) with
         | some _ =>
           (match ((s.facetBuild n.val client).snd.facetAssoc n.val false) with
             | some _ =>
               true
             | _ => false)
         | _ => false)) &&
      (let s : State := facetUp fun p => p;
       decide (s.facetOpen n.val = true) &&
       decide (bitOf (s.regN (facetOff n.val 1036)) 2 = false) &&
       (match (s.facetRoom n.val false) with
         | some _ =>
           decide ((s.facetBuild n.val client).snd.facetAssoc n.val false = none)
         | _ => false))) &&
     (let ctr : Nat := 0;
      let h : Nat := 0;
      (let s : State := sOverlap;
       decide (ctr < (s.sa h).nextN)) &&
      (let s : State := sSearch;
       decide ((s.sa h).nextN ≤ ctr))) &&
     (let v_frame : List Byte := List.replicate 16384 0#8;
      let n : Fin 16 := 0;
      let s : State := facetUp fun p => { p with marker := .lock, frame := .inFrame, errRun := 4 };
      decide (s.facetOpen n.val = true) &&
      decide ((s.facetPort n.val).marker = MarkerMode.lock) &&
      decide ((s.facetPort n.val).frame = FrameMode.inFrame) &&
      decide (4 ≤ (s.facetPort n.val).errRun) &&
      decide (¬slice v_frame 0 6 = alignWord))) = true := by decide +kernel

/-- Hypotheses of Obligations.FacetFramesAreSentAndTaken, part 2. -/
theorem witness_facet_frames_are_sent_and_taken_2 :
    (let errors : List (Fin 545) := [];
     (let v_frame : List Byte := alignWord ++ [1, 0];
      let n : Fin 16 := 0;
      (let s : State := withItem (facetUp fun p => { p with marker := .lock, frame := .inFrame })
           { wItem with kind := 1, recv := true, line := 2048, lines := 2048 };
       decide (s.facetOpen n.val = true) &&
       decide ((s.facetPort n.val).marker = MarkerMode.lock) &&
       decide ((s.facetPort n.val).frame = FrameMode.inFrame) &&
       decide (slice v_frame 0 6 = alignWord ∨ (s.facetPort n.val).errRun < 4) &&
       decide ((if ((slice v_frame 8 8).all fun (x : Byte) => x == 255) = false ∧ beAt v_frame 14 1 / 16 % 8 < 4 then (((if slice v_frame 0 6 =
           alignWord then (s.modFacet n.val fun (p : FacetPort) => p.fecCount (List.map (fun (x : Fin 545) => ↑x) errors)).modFacet n.val
           fun (p : FacetPort) => { p with errRun := 0 } else (s.modFacet n.val fun (p : FacetPort) => p.fecCount (List.map (fun (x : Fin 545)
           => ↑x) errors)).modFacet n.val fun (p : FacetPort) => { p.add 2 1 with errRun := p.errRun + 1 }).sectionBip n.val v_frame).aisS
           n.val ((slice v_frame 8 8).all fun (x : Byte) => x == 255)).facetStamp n.val 2 (beAt v_frame 8 6) else ((if slice v_frame 0 6 =
           alignWord then (s.modFacet n.val fun (p : FacetPort) => p.fecCount (List.map (fun (x : Fin 545) => ↑x) errors)).modFacet n.val
           fun (p : FacetPort) => { p with errRun := 0 } else (s.modFacet n.val fun (p : FacetPort) => p.fecCount (List.map (fun (x : Fin 545)
           => ↑x) errors)).modFacet n.val fun (p : FacetPort) => { p.add 2 1 with errRun := p.errRun + 1 }).sectionBip n.val v_frame).aisS
           n.val ((slice v_frame 8 8).all fun (x : Byte) => x == 255)).facetRoom n.val true = none)) &&
      (let s : State := facetUp fun p => { p with marker := .lock, frame := .inFrame };
       decide (s.facetOpen n.val = true) &&
       decide ((s.facetPort n.val).marker = MarkerMode.lock) &&
       decide ((s.facetPort n.val).frame = FrameMode.inFrame) &&
       decide (slice v_frame 0 6 = alignWord ∨ (s.facetPort n.val).errRun < 4) &&
       (match ((if ((slice v_frame 8 8).all fun (x : Byte) => x == 255) = false ∧ beAt v_frame 14 1 / 16 % 8 < 4 then (((if slice v_frame 0 6 = alignWord then (s.modFacet n.val fun (p : FacetPort) => p.fecCount (List.map (fun (x : Fin 545) => ↑x) errors)).modFacet n.val fun (p : FacetPort) => { p with errRun := 0 } else (s.modFacet n.val fun (p : FacetPort) => p.fecCount (List.map (fun (x : Fin 545) => ↑x) errors)).modFacet n.val fun (p : FacetPort) => { p.add 2 1 with errRun := p.errRun + 1 }).sectionBip n.val v_frame).aisS n.val ((slice v_frame 8 8).all fun (x : Byte) => x == 255)).facetStamp n.val 2 (beAt v_frame 8 6) else ((if slice v_frame 0 6 = alignWord then (s.modFacet n.val fun (p : FacetPort) => p.fecCount (List.map (fun (x : Fin 545) => ↑x) errors)).modFacet n.val fun (p : FacetPort) => { p with errRun := 0 } else (s.modFacet n.val fun (p : FacetPort) => p.fecCount (List.map (fun (x : Fin 545) => ↑x) errors)).modFacet n.val fun (p : FacetPort) => { p.add 2 1 with errRun := p.errRun + 1 }).sectionBip n.val v_frame).aisS n.val ((slice v_frame 8 8).all fun (x : Byte) => x == 255)).facetRoom n.val true) with
         | some _ =>
           decide (((slice v_frame 8 8).all fun (x : Byte) => x == 255) = false) &&
           (match (((if ((slice v_frame 8 8).all fun (x : Byte) => x == 255) = false ∧ beAt v_frame 14 1 / 16 % 8 < 4 then (((if slice v_frame 0 6 = alignWord then (s.modFacet n.val fun (p : FacetPort) => p.fecCount (List.map (fun (x : Fin 545) => ↑x) errors)).modFacet n.val fun (p : FacetPort) => { p with errRun := 0 } else (s.modFacet n.val fun (p : FacetPort) => p.fecCount (List.map (fun (x : Fin 545) => ↑x) errors)).modFacet n.val fun (p : FacetPort) => { p.add 2 1 with errRun := p.errRun + 1 }).sectionBip n.val v_frame).aisS n.val ((slice v_frame 8 8).all fun (x : Byte) => x == 255)).facetStamp n.val 2 (beAt v_frame 8 6) else ((if slice v_frame 0 6 = alignWord then (s.modFacet n.val fun (p : FacetPort) => p.fecCount (List.map (fun (x : Fin 545) => ↑x) errors)).modFacet n.val fun (p : FacetPort) => { p with errRun := 0 } else (s.modFacet n.val fun (p : FacetPort) => p.fecCount (List.map (fun (x : Fin 545) => ↑x) errors)).modFacet n.val fun (p : FacetPort) => { p.add 2 1 with errRun := p.errRun + 1 }).sectionBip n.val v_frame).aisS n.val ((slice v_frame 8 8).all fun (x : Byte) => x == 255)).facetAtOnce n.val v_frame).fst) with
             | Sum.inl _ =>
               true
             | _ => false)
         | _ => false))) &&
     (let v_frame : List Byte := alignWord ++ [1, 0] ++ List.replicate 8 0xFF;
      let n : Fin 16 := 0;
      let s : State := facetUp fun p => { p with marker := .lock, frame := .inFrame };
      decide (s.facetOpen n.val = true) &&
      decide ((s.facetPort n.val).marker = MarkerMode.lock) &&
      decide ((s.facetPort n.val).frame = FrameMode.inFrame) &&
      decide (slice v_frame 0 6 = alignWord ∨ (s.facetPort n.val).errRun < 4) &&
      (match ((if ((slice v_frame 8 8).all fun (x : Byte) => x == 255) = false ∧ beAt v_frame 14 1 / 16 % 8 < 4 then (((if slice v_frame 0 6 = alignWord then (s.modFacet n.val fun (p : FacetPort) => p.fecCount (List.map (fun (x : Fin 545) => ↑x) errors)).modFacet n.val fun (p : FacetPort) => { p with errRun := 0 } else (s.modFacet n.val fun (p : FacetPort) => p.fecCount (List.map (fun (x : Fin 545) => ↑x) errors)).modFacet n.val fun (p : FacetPort) => { p.add 2 1 with errRun := p.errRun + 1 }).sectionBip n.val v_frame).aisS n.val ((slice v_frame 8 8).all fun (x : Byte) => x == 255)).facetStamp n.val 2 (beAt v_frame 8 6) else ((if slice v_frame 0 6 = alignWord then (s.modFacet n.val fun (p : FacetPort) => p.fecCount (List.map (fun (x : Fin 545) => ↑x) errors)).modFacet n.val fun (p : FacetPort) => { p with errRun := 0 } else (s.modFacet n.val fun (p : FacetPort) => p.fecCount (List.map (fun (x : Fin 545) => ↑x) errors)).modFacet n.val fun (p : FacetPort) => { p.add 2 1 with errRun := p.errRun + 1 }).sectionBip n.val v_frame).aisS n.val ((slice v_frame 8 8).all fun (x : Byte) => x == 255)).facetRoom n.val true) with
        | some _ =>
          decide (((slice v_frame 8 8).all fun (x : Byte) => x == 255) = true)
        | _ => false)) &&
     (let v_frame : List Byte := alignWord ++ [0, 0x10] ++ be 6 9 ++ List.replicate 50 0;
      let n : Fin 16 := 0;
      let s : State := withCtx (withSlots (facetUp fun p => { p with marker := .lock, frame := .inFrame }) [(0, aKey), (1, aKey)]) [(0,
          { aFacet with recv := true })];
      decide (s.facetOpen n.val = true) &&
      decide ((s.facetPort n.val).marker = MarkerMode.lock) &&
      decide ((s.facetPort n.val).frame = FrameMode.inFrame) &&
      decide (slice v_frame 0 6 = alignWord ∨ (s.facetPort n.val).errRun < 4) &&
      (match ((if ((slice v_frame 8 8).all fun (x : Byte) => x == 255) = false ∧ beAt v_frame 14 1 / 16 % 8 < 4 then (((if slice v_frame 0 6 = alignWord then (s.modFacet n.val fun (p : FacetPort) => p.fecCount (List.map (fun (x : Fin 545) => ↑x) errors)).modFacet n.val fun (p : FacetPort) => { p with errRun := 0 } else (s.modFacet n.val fun (p : FacetPort) => p.fecCount (List.map (fun (x : Fin 545) => ↑x) errors)).modFacet n.val fun (p : FacetPort) => { p.add 2 1 with errRun := p.errRun + 1 }).sectionBip n.val v_frame).aisS n.val ((slice v_frame 8 8).all fun (x : Byte) => x == 255)).facetStamp n.val 2 (beAt v_frame 8 6) else ((if slice v_frame 0 6 = alignWord then (s.modFacet n.val fun (p : FacetPort) => p.fecCount (List.map (fun (x : Fin 545) => ↑x) errors)).modFacet n.val fun (p : FacetPort) => { p with errRun := 0 } else (s.modFacet n.val fun (p : FacetPort) => p.fecCount (List.map (fun (x : Fin 545) => ↑x) errors)).modFacet n.val fun (p : FacetPort) => { p.add 2 1 with errRun := p.errRun + 1 }).sectionBip n.val v_frame).aisS n.val ((slice v_frame 8 8).all fun (x : Byte) => x == 255)).facetRoom n.val true) with
        | some _ =>
          decide (((slice v_frame 8 8).all fun (x : Byte) => x == 255) = false) &&
          (match (((if ((slice v_frame 8 8).all fun (x : Byte) => x == 255) = false ∧ beAt v_frame 14 1 / 16 % 8 < 4 then (((if slice v_frame 0 6 = alignWord then (s.modFacet n.val fun (p : FacetPort) => p.fecCount (List.map (fun (x : Fin 545) => ↑x) errors)).modFacet n.val fun (p : FacetPort) => { p with errRun := 0 } else (s.modFacet n.val fun (p : FacetPort) => p.fecCount (List.map (fun (x : Fin 545) => ↑x) errors)).modFacet n.val fun (p : FacetPort) => { p.add 2 1 with errRun := p.errRun + 1 }).sectionBip n.val v_frame).aisS n.val ((slice v_frame 8 8).all fun (x : Byte) => x == 255)).facetStamp n.val 2 (beAt v_frame 8 6) else ((if slice v_frame 0 6 = alignWord then (s.modFacet n.val fun (p : FacetPort) => p.fecCount (List.map (fun (x : Fin 545) => ↑x) errors)).modFacet n.val fun (p : FacetPort) => { p with errRun := 0 } else (s.modFacet n.val fun (p : FacetPort) => p.fecCount (List.map (fun (x : Fin 545) => ↑x) errors)).modFacet n.val fun (p : FacetPort) => { p.add 2 1 with errRun := p.errRun + 1 }).sectionBip n.val v_frame).aisS n.val ((slice v_frame 8 8).all fun (x : Byte) => x == 255)).facetAtOnce n.val v_frame).fst) with
            | Sum.inr _ =>
              true
            | _ => false)
        | _ => false))) = true := by decide +kernel

/-- Hypotheses of Obligations.FacetLockAndAlignmentFollowTheTables, part 1. -/
theorem witness_facet_lock_and_alignment_follow_the_tables_1 :
    ((let n : Fin 16 := 1;
      let s : State := sSearch;
      decide (¬((s.facetPort n.val).active = true ∧ (s.facetPort n.val).has 0 = false ∧ (s.facetPort n.val).has 1 = false))) &&
     (let ls : List MarkerSeen := seen 9;
      let n : Fin 16 := fp0;
      (let s : State := sSearch;
       decide ((s.facetPort n.val).active = true) &&
       decide ((s.facetPort n.val).has 0 = false) &&
       decide ((s.facetPort n.val).has 1 = false) &&
       decide ((s.facetPort n.val).marker = MarkerMode.search) &&
       decide (allMarkers ls = true)) &&
      (let s : State := sConfirm;
       decide ((s.facetPort n.val).active = true) &&
       decide ((s.facetPort n.val).has 0 = false) &&
       decide ((s.facetPort n.val).has 1 = false) &&
       decide ((s.facetPort n.val).marker = MarkerMode.confirm) &&
       decide (allMarkers ls = true) &&
       decide ((∀ (l : MarkerSeen), l ∈ ls → l.count = 9#20)) &&
       decide ((∀ (m : Nat × MarkerSeen), m ∈ markersOf ls → m.snd.count = tget 0 (s.facetPort n.val).laneCount m.fst)) &&
       decide (markerSkew ls ≤ 180)) &&
      (let pos : Nat := 4;
       let s : State := sConfirm;
       decide ((s.facetPort n.val).active = true) &&
       decide ((s.facetPort n.val).has 0 = false) &&
       decide ((s.facetPort n.val).has 1 = false) &&
       decide ((s.facetPort n.val).marker = MarkerMode.confirm) &&
       decide (¬(pos = (s.facetPort n.val).markerPos + 4096 ∧ allMarkers ls = true ∧ (∀ (l : MarkerSeen), l ∈ ls → l.count = 9#20) ∧ (∀ (m
           : Nat × MarkerSeen), m ∈ markersOf ls → m.snd.count = tget 0 (s.facetPort n.val).laneCount m.fst) ∧ markerSkew ls ≤ 180))) &&
      (let pos : Nat := 131072;
       let s : State := sLock;
       decide ((s.facetPort n.val).active = true) &&
       decide ((s.facetPort n.val).has 0 = false) &&
       decide ((s.facetPort n.val).has 1 = false) &&
       decide ((s.facetPort n.val).marker = MarkerMode.lock) &&
       decide ((s.facetPort n.val).markerPos < pos) &&
       decide ((pos - (s.facetPort n.val).markerPos) % 4096 = 0) &&
       decide (¬∀ (m : Nat × MarkerSeen), m ∈ markersOf ls → m.snd.count = tget 0 (s.facetPort n.val).laneCount m.fst)))) = true := by decide +kernel

/-- Hypotheses of Obligations.FacetLockAndAlignmentFollowTheTables, part 2. -/
theorem witness_facet_lock_and_alignment_follow_the_tables_2 :
    (let ls : List MarkerSeen := [];
     let n : Fin 16 := fp0;
     (let s : State := sSearch;
      decide ((s.facetPort n.val).active = true) &&
      decide ((s.facetPort n.val).has 0 = false) &&
      decide ((s.facetPort n.val).has 1 = false) &&
      decide ((s.facetPort n.val).marker = MarkerMode.search) &&
      decide (allMarkers ls = false)) &&
     (let pos : Nat := 131072;
      let s : State := sLock;
      decide ((s.facetPort n.val).active = true) &&
      decide ((s.facetPort n.val).has 0 = false) &&
      decide ((s.facetPort n.val).has 1 = false) &&
      decide ((s.facetPort n.val).marker = MarkerMode.lock) &&
      decide ((s.facetPort n.val).markerPos < pos) &&
      decide ((pos - (s.facetPort n.val).markerPos) % 4096 = 0) &&
      decide (∀ (m : Nat × MarkerSeen), m ∈ markersOf ls → m.snd.count = tget 0 (s.facetPort n.val).laneCount m.fst) &&
      decide (markerSkew ls ≤ 180))) = true := by decide +kernel

/-- Hypotheses of Obligations.FacetLockAndAlignmentFollowTheTables, part 3. -/
theorem witness_facet_lock_and_alignment_follow_the_tables_3 :
    (let n : Fin 16 := fp0;
     (let pos : Nat := 4;
      let s : State := sLock;
      decide ((s.facetPort n.val).active = true) &&
      decide ((s.facetPort n.val).has 0 = false) &&
      decide ((s.facetPort n.val).has 1 = false) &&
      decide ((s.facetPort n.val).marker = MarkerMode.lock) &&
      decide (pos ≤ (s.facetPort n.val).markerPos ∨ (pos - (s.facetPort n.val).markerPos) % 4096 ≠ 0) &&
      decide ((s.facetPort n.val).marker = MarkerMode.lock) &&
      decide ((s.facetPort n.val).frame ≠ FrameMode.inFrame) &&
      decide (List.find? (fun (x : Candidate) => x.next == pos) (s.facetPort n.val).cands = none) &&
      decide ((s.facetPort n.val).cands.length < 8) &&
      decide (List.find? (fun (x : Candidate) => x.next == pos) (s.facetPort n.val).cands = none)) &&
     (let s : State := sSearch;
      decide ((s.facetPort n.val).active = false ∨ (s.facetPort n.val).marker = MarkerMode.search) &&
      decide (¬((s.facetPort n.val).active = true ∧ (s.facetPort n.val).marker = MarkerMode.lock ∧ (s.facetPort n.val).frame ≠
          FrameMode.inFrame)) &&
      decide ((s.facetPort n.val).quietSince = none) &&
      decide ((s.facetPort n.val).signalSince = none)) &&
     (let s : State := sConfirm;
      decide ((s.facetPort n.val).active = true) &&
      decide ((s.facetPort n.val).marker = MarkerMode.confirm)) &&
     (let s : State := sLock;
      decide ((s.facetPort n.val).active = true) &&
      decide ((s.facetPort n.val).marker = MarkerMode.lock)) &&
     (let pos : Nat := 131072;
      let s : State := sCand;
      decide ((s.facetPort n.val).active = true) &&
      decide ((s.facetPort n.val).marker = MarkerMode.lock) &&
      decide ((s.facetPort n.val).frame ≠ FrameMode.inFrame) &&
      (match (List.find? (fun (x : Candidate) => x.next == pos) (s.facetPort n.val).cands) with
        | some c =>
          decide (c.hits = 1)
        | _ => false)) &&
     (let s : State := sQuiet;
      (match ((s.facetPort n.val).quietSince) with
        | some _ =>
          true
        | _ => false)) &&
     (let s : State := sSignal;
      (match ((s.facetPort n.val).signalSince) with
        | some _ =>
          true
        | _ => false))) = true := by decide +kernel

/-- Hypotheses of Obligations.FacetLockAndAlignmentFollowTheTables, part 4. -/
theorem witness_facet_lock_and_alignment_follow_the_tables_4 :
    ((let ls : List MarkerSeen := (List.range 4).map fun i => ⟨Fin.ofNat 4 i, markerPattern i, markerPattern i, 9, 61 * i⟩;
      let n : Fin 16 := 0;
      let pos : Nat := 4096;
      let s : State := facet fun p => { p with marker := .lock, laneCount := [(0, 9), (1, 9), (2, 9), (3, 9)] };
      decide ((s.facetPort n.val).active = true) &&
      decide ((s.facetPort n.val).has 0 = false) &&
      decide ((s.facetPort n.val).has 1 = false) &&
      decide ((s.facetPort n.val).marker = MarkerMode.lock) &&
      decide ((s.facetPort n.val).markerPos < pos) &&
      decide ((pos - (s.facetPort n.val).markerPos) % 4096 = 0) &&
      decide (∀ (m : Nat × MarkerSeen), m ∈ markersOf ls → m.snd.count = tget 0 (s.facetPort n.val).laneCount m.fst) &&
      decide (180 < markerSkew ls)) &&
     (let n : Fin 16 := 0;
      (let pos : Nat := 0;
       let s : State := facet fun p => { p with marker := .lock, frame := .confirm, cands := List.replicate 8 cOne };
       decide ((s.facetPort n.val).active = true) &&
       decide ((s.facetPort n.val).marker = MarkerMode.lock) &&
       decide ((s.facetPort n.val).frame ≠ FrameMode.inFrame) &&
       decide (8 ≤ (s.facetPort n.val).cands.length) &&
       decide (List.find? (fun (x : Candidate) => x.next == pos) (s.facetPort n.val).cands = none)) &&
      (let pos : Nat := 131072;
       let s : State := facet fun p => { p with marker := .lock, frame := .confirm, cands := [⟨131072, 0, 6⟩] };
       decide ((s.facetPort n.val).active = true) &&
       decide ((s.facetPort n.val).marker = MarkerMode.lock) &&
       decide ((s.facetPort n.val).frame ≠ FrameMode.inFrame) &&
       (match (List.find? (fun (x : Candidate) => x.next == pos) (s.facetPort n.val).cands) with
         | some c =>
           decide (c.hits ≠ 1)
         | _ => false))) &&
     (let v_mfc : BitVec 8 := 0#8;
      let n : Fin 16 := fp0;
      let pos : Nat := 131072;
      let s : State := sCand;
      decide ((s.facetPort n.val).active = true) &&
      decide ((s.facetPort n.val).marker = MarkerMode.lock) &&
      decide ((s.facetPort n.val).frame ≠ FrameMode.inFrame) &&
      (match (List.find? (fun (x : Candidate) => x.next == pos) (s.facetPort n.val).cands) with
        | some c =>
          decide (v_mfc ≠ c.mfc + 1)
        | _ => false))) = true := by decide +kernel

/-- Hypotheses of Obligations.GnomonPinsTimersAndStamps. -/
theorem witness_gnomon_pins_timers_and_stamps :
    ((let s : State := sLocked;
      (match (s.gnomon.servoDue) with
        | some _ =>
          decide (s.gnomon.mode = GnomonMode.locked)
        | _ => false) &&
      decide (s.halted = false) &&
      decide (s.gnomon.todFifo.length < 64) &&
      decide (s.gnomon.todFifo = [])) &&
     (let s : State := z;
      decide (s.gnomon.mode ≠ GnomonMode.locked)) &&
     (let s : State := sPpsHigh;
      (match (s.gnomon.ppsFall) with
        | some _ =>
          true
        | _ => false)) &&
     (let s : State := sPpsIn;
      decide (s.halted = false) &&
      decide (bitOf (s.regN 20971560) 30 = true) &&
      (let level : Bool := !bitOf (s.regN 20971560) 29;
       decide (level ≠ s.gnomon.ppsIn)) &&
      decide (bitOf (s.regN 20971560) 30 = true) &&
      decide (s.gnomon.ppsMissing = false)) &&
     (let level : Bool := true;
      let s : State := sLocked;
      decide (bitOf (s.regN 20971560) 30 = false ∨ level = bitOf (s.regN 20971560) 29)) &&
     (let s : State := sTod;
      (match (s.gnomon.todDue) with
        | some (_, t0) =>
          let u : State := s.passTo t0;
          decide (bitOf (u.regN 20971572) 31 = true)
        | _ => false)) &&
     (let s : State := sTodFull;
      decide (s.halted = false) &&
      decide (64 ≤ s.gnomon.todFifo.length) &&
      (match (s.gnomon.todFifo) with
        | _ :: _ =>
          true
        | _ => false)) &&
     (let s : State := sTxts;
      let x : Fin 32 := x31;
      (match (tget [] s.gnomon.txts x.val) with
        | _ :: _ =>
          true
        | _ => false))) = true := by decide +kernel

/-- Hypotheses of Obligations.GnomonTimeIsSetAndTicks. -/
theorem witness_gnomon_time_is_set_and_ticks :
    ((let s : State := z;
      (let v : Word32 := 0xC0000000#32;
       decide (s.halted = false) &&
       decide (s.gnomon.mode ≠ GnomonMode.locked) &&
       decide (bitOf (BitVec.toNat v) 31 = true) &&
       decide (bitOf (BitVec.toNat v) 30 = true) &&
       decide (bitOf (BitVec.toNat v) 29 = false)) &&
      (let v : Word32 := 0x80000001#32;
       decide (s.halted = false) &&
       decide (s.regN 20971536 ≤ 999999999) &&
       decide (bitOf (BitVec.toNat v) 31 = true) &&
       decide (bitOf (BitVec.toNat v) 30 = false) &&
       decide (bitOf (BitVec.toNat v) 29 = false)) &&
      (let v : Word32 := 0x40000000#32;
       decide (s.halted = false) &&
       decide (0 ≤ ↑s.gnomon.time + (s.reg 20971536).toInt) &&
       decide (bitOf (BitVec.toNat v) 31 = false) &&
       decide (bitOf (BitVec.toNat v) 30 = true) &&
       decide (bitOf (BitVec.toNat v) 29 = false) &&
       decide (549755814 < BitVec.toInt v)) &&
      decide (s.halted = false) &&
      decide (s.gnomon.frac < 2 ^ 40) &&
      decide (-549755814 ≤ (s.reg 20971552).toInt) &&
      decide ((s.reg 20971552).toInt ≤ 549755814) &&
      (let v : Word32 := 0x20000000#32;
       decide (s.halted = false) &&
       decide (s.gnomon.mode = GnomonMode.freerun) &&
       decide (bitOf (BitVec.toNat v) 31 = false) &&
       decide (bitOf (BitVec.toNat v) 30 = false) &&
       decide (bitOf (BitVec.toNat v) 29 = true) &&
       decide (-549755814 ≤ BitVec.toInt v) &&
       decide (BitVec.toInt v ≤ 549755814))) &&
     (let s : State := sLocked;
      let v : Word32 := 0x00000000#32;
      decide (s.halted = false) &&
      decide (s.gnomon.mode = GnomonMode.locked) &&
      decide (bitOf (BitVec.toNat v) 31 = false) &&
      decide (bitOf (BitVec.toNat v) 30 = false) &&
      decide (bitOf (BitVec.toNat v) 29 = false))) = true := by decide +kernel

/-- Hypotheses of Obligations.IdentityRegistersHoldTheirValues. -/
theorem witness_identity_registers_hold_their_values :
    (let off : Word32 := 0x000FFFFF#32;
     decide (BitVec.toNat off < 1048576)) = true := by decide +kernel

/-- Hypotheses of Obligations.ImagesLoadAndOwnersReclaim, part 1. -/
theorem witness_images_load_and_owners_reclaim_1 :
    ((let d : Desc := dCreate;
      let s : State := sImage;
      decide (d.get 8 4 / 2 ^ 17 ≠ 0 ∨ clustersOf d = []) &&
      accepts d 0 [(8, 4), (16, 8), (24, 4)] s) &&
     (let d : Desc := dLoad;
      (let s : State := sActivate;
       let s0 : State := (s.reserve d).getD s;
       decide (¬(d.get 8 4 / 2 ^ 17 ≠ 0 ∨ clustersOf d = [])) &&
       (match ((s0.readBuf d Master.annulus (d.get 16 8) (min (d.get 24 4) 200000)).fst) with
         | Except.error _ =>
           accepts d 0 [(8, 4), (16, 8), (24, 4)] s
         | _ => false)) &&
      (let s : State := sLoadBusy;
       let s0 : State := (s.reserve d).getD s;
       decide (¬(d.get 8 4 / 2 ^ 17 ≠ 0 ∨ clustersOf d = [])) &&
       (match ((s0.readBuf d Master.annulus (d.get 16 8) (min (d.get 24 4) 200000)).fst) with
         | Except.ok bs =>
           decide (¬(leAt bs 6 1 < 2 ∧ ∃ (n : Nat), n ∈ clustersOf d ∧ b2n (n == 16) ≠ leAt bs 6 1)) &&
           decide ((s0.readBuf d Master.annulus (d.get 16 8) (min (d.get 24 4) 200000)).snd.imageStatus bs = Status.ok) &&
           (match (imageOf bs) with
             | some im =>
               decide (∃ (n : Nat), n ∈ clustersOf d ∧ (s0.readBuf d Master.annulus (d.get 16 8) (min (d.get 24 4) 200000)).snd.loadHalf n
                   im = none) &&
               accepts d 0 [(8, 4), (16, 8), (24, 4)] s
             | _ => false)
         | _ => false)) &&
      (let s : State := sImage;
       (let s0 : State := (s.reserve d).getD s;
        decide (¬(d.get 8 4 / 2 ^ 17 ≠ 0 ∨ clustersOf d = [])) &&
        (match ((s0.readBuf d Master.annulus (d.get 16 8) (min (d.get 24 4) 200000)).fst) with
          | Except.ok bs =>
            decide (¬(leAt bs 6 1 < 2 ∧ ∃ (n : Nat), n ∈ clustersOf d ∧ b2n (n == 16) ≠ leAt bs 6 1)) &&
            decide ((s0.readBuf d Master.annulus (d.get 16 8) (min (d.get 24 4) 200000)).snd.imageStatus bs = Status.ok) &&
            (match (imageOf bs) with
              | some im =>
                decide (∀ (n : Nat), n ∈ clustersOf d → (s0.readBuf d Master.annulus (d.get 16 8) (min (d.get 24 4) 200000)).snd.loadHalf
                    n im ≠ none) &&
                accepts d 0 [(8, 4), (16, 8), (24, 4)] s
              | _ => false)
          | _ => false)) &&
       accepts d 0 [(8, 4), (16, 8), (24, 4)] s))) = true := by decide +kernel

/-- Hypotheses of Obligations.ImagesLoadAndOwnersReclaim, part 2. -/
theorem witness_images_load_and_owners_reclaim_2 :
    ((let d : Desc := cmd 0x050 [(8, 1 <<< 16), (0x10, 0x1000), (0x18, 368)];
      let s : State := sImage;
      decide (¬(d.get 8 4 / 2 ^ 17 ≠ 0 ∨ clustersOf d = [])) &&
      (let s0 : State := (s.reserve d).getD s;
       (match ((s0.readBuf d Master.annulus (d.get 16 8) (min (d.get 24 4) 200000)).fst) with
         | Except.ok bs =>
           decide (leAt bs 6 1 < 2) &&
           decide (∃ (n : Nat), n ∈ clustersOf d ∧ b2n (n == 16) ≠ leAt bs 6 1) &&
           accepts d 0 [(8, 4), (16, 8), (24, 4)] s
         | _ => false))) &&
     (let d : Desc := dActivate;
      (let s : State := sImage;
       (let s0 : State := (s.reserve d).getD s;
        decide (¬(d.get 8 4 / 2 ^ 17 ≠ 0 ∨ clustersOf d = [])) &&
        (match ((s0.readBuf d Master.annulus (d.get 16 8) (min (d.get 24 4) 200000)).fst) with
          | Except.ok bs =>
            decide (¬(leAt bs 6 1 < 2 ∧ ∃ (n : Nat), n ∈ clustersOf d ∧ b2n (n == 16) ≠ leAt bs 6 1)) &&
            decide ((s0.readBuf d Master.annulus (d.get 16 8) (min (d.get 24 4) 200000)).snd.imageStatus bs ≠ Status.ok) &&
            accepts d 0 [(8, 4), (16, 8), (24, 4)] s
          | _ => false) &&
        decide ((d.get 8 4 / 2 ^ 17 ≠ 0 ∨ clustersOf d = []) ∨ ∃ (n : Nat), n ∈ clustersOf d ∧ (s0.cluster n).target = none) &&
        accepts d 0 [(8, 4)] s) &&
       decide (d.get 8 2 / 4096 ≠ 2) &&
       accepts d 1 [(8, 2)] s &&
       decide (d.get 8 2 / 4096 ≠ 1 ∨ 2304 ≤ d.get 8 2 % 4096) &&
       accepts d 1 [(8, 2)] s) &&
      (let s : State := sLoadBusy;
       let s0 : State := (s.reserve d).getD s;
       decide (¬((d.get 8 4 / 2 ^ 17 ≠ 0 ∨ clustersOf d = []) ∨ ∃ (n : Nat), n ∈ clustersOf d ∧ (s0.cluster n).target = none)) &&
       decide ((List.foldl (fun (p : List (Nat × Bool) × State) (n : Nat) => (p.fst ++ (p.snd.activate n).fst, (p.snd.activate n).snd)) ([], s0)
           (clustersOf d)).fst = []) &&
       accepts d 0 [(8, 4)] s) &&
      (let s : State := sActivateBusy;
       let s0 : State := (s.reserve d).getD s;
       decide (¬((d.get 8 4 / 2 ^ 17 ≠ 0 ∨ clustersOf d = []) ∨ ∃ (n : Nat), n ∈ clustersOf d ∧ (s0.cluster n).target = none)) &&
       decide ((List.foldl (fun (p : List (Nat × Bool) × State) (n : Nat) => (p.fst ++ (p.snd.activate n).fst, (p.snd.activate n).snd)) ([], s0)
           (clustersOf d)).fst ≠ []) &&
       accepts d 0 [(8, 4)] s) &&
      (let v_due : Nat := 50;
       let h : Bool := false;
       let v_n : Nat := 0;
       let s : State := sDrains;
       decide (s.vertex.activates = [{ desc := d, olds := [(v_n, h)], due := v_due : Activate }])))) = true := by decide +kernel

/-- Hypotheses of Obligations.ImagesLoadAndOwnersReclaim, part 3. -/
theorem witness_images_load_and_owners_reclaim_3 :
    ((let n : Nat := 0;
      let v : State := sLoadBusy;
      (match ((v.cluster n).target) with
        | some h =>
          (match ((v.cluster n).half h) with
            | some im =>
              decide (im.scratch = [])
            | _ => false)
        | _ => false)) &&
     (let s : State := sDrains;
      (match (s.vertex.activates) with
        | _ :: _ =>
          true
        | _ => false)) &&
     (let s : State := sImage;
      decide (s.vertex.activates = [])) &&
     (let d : Desc := dReclaim 0x2000;
      (let s : State := sImage;
       decide (d.get 8 2 / 4096 = 2) &&
       accepts d 1 [(8, 2)] s &&
       (let s0 : State := (s.reserve d).getD s;
        decide (d.get 8 2 / 4096 = 2) &&
        decide (bits (d.get 8 2) 8 4 = 0) &&
        decide (bitOf d.flags 0 = false) &&
        decide (s0.ownerInUse (d.get 8 2 % 256) = false) &&
        accepts d 1 [(8, 2)] s)) &&
      (let s : State := sEnabled0;
       let s0 : State := (s.reserve d).getD s;
       decide (d.get 8 2 / 4096 = 2) &&
       decide (bits (d.get 8 2) 8 4 = 0) &&
       decide (bitOf d.flags 0 = false) &&
       decide (s0.ownerInUse (d.get 8 2 % 256) = true) &&
       accepts d 1 [(8, 2)] s)) &&
     (let d : Desc := dReclaim 0x1000;
      (let s : State := sThread .debug;
       decide (¬(d.get 8 2 / 4096 ≠ 1 ∨ 2304 ≤ d.get 8 2 % 4096)) &&
       (let s0 : State := (s.reserve d).getD s;
        decide (((if bitOf d.flags 0 = true then List.map (fun (x : Nat) => (d.get 8 2 % 4096 - 128 * min 16 (d.get 8 2 % 4096 / 128)) / 8 * 8
            + x) (List.range 8) else [d.get 8 2 % 4096 - 128 * min 16 (d.get 8 2 % 4096 / 128)]).any fun j => decide ((s0.thread (min 16
            (d.get 8 2 % 4096 / 128)) j).mode = ThreadMode.debug)) = true) &&
        accepts d 1 [(8, 2)] s)) &&
      (let s : State := sFaulted;
       decide (¬(d.get 8 2 / 4096 ≠ 1 ∨ 2304 ≤ d.get 8 2 % 4096)) &&
       (let s0 : State := (s.reserve d).getD s;
        decide (((if bitOf d.flags 0 = true then List.map (fun (x : Nat) => (d.get 8 2 % 4096 - 128 * min 16 (d.get 8 2 % 4096 / 128)) / 8 * 8
            + x) (List.range 8) else [d.get 8 2 % 4096 - 128 * min 16 (d.get 8 2 % 4096 / 128)]).any fun j => decide ((s0.thread (min 16
            (d.get 8 2 % 4096 / 128)) j).mode = ThreadMode.debug)) = false) &&
        accepts d 1 [(8, 2)] s))) &&
     (let d : Desc := dReclaim 0x2100;
      let s : State := z;
      decide (d.get 8 2 / 4096 = 2) &&
      decide (bits (d.get 8 2) 8 4 ≠ 0 ∨ bitOf d.flags 0 = true) &&
      accepts d 1 [(8, 2)] s) &&
     (let e : Nat × Nat × Nat := (0, (0x1003, 9));
      let o : Nat := 5;
      let s : State := sCtxLock;
      decide (e ∈ (s.reclaimLocks o).snd.assoc.locks))) = true := by decide +kernel

/-- Hypotheses of Obligations.ImagesLoadAndOwnersReclaim, part 4. -/
theorem witness_images_load_and_owners_reclaim_4 :
    (let e : Nat × RecLock := (3, rl0);
     let o : Nat := 5;
     let s : State := sRecLock;
     decide (e ∈ (s.reclaimLocks o).snd.radius.locks)) = true := by decide +kernel

/-- Hypotheses of Obligations.KeysAreStagedCommittedAndErased, part 1. -/
theorem witness_keys_are_staged_committed_and_erased_1 :
    (let d : Desc := dStage;
     (let s : State := zm;
      let s0 : State := (s.reserve d).getD s;
      decide (d.opcode = 16) &&
      decide (s0.slotHeld (slotField d 8) = false) &&
      decide (slotFieldOk d 8 = true) &&
      decide (d.get 13 1 ≤ 2) &&
      decide (d.get 14 1 < 32) &&
      decide (d.get 15 1 ≤ 1) &&
      decide (s0.axis.serving = true) &&
      decide (usageOk (d.slotClass 8) (d.get 14 1) = true) &&
      decide (bitOf (d.get 14 1) 0 = false) &&
      decide (d.get 12 1 = 0) &&
      decide (d.get 24 4 = 0) &&
      decide (d.get 28 4 = algLen (BitVec.ofNat 2 (d.get 13 1))) &&
      (match ((s0.readMem Master.annulus (ringOwner d.ring.val) (d.get 16 8) (d.get 28 4)).fst) with
        | MemRead.data _ =>
          accepts d 0 [(8, 24)] s
        | _ => false)) &&
     (let s : State := sDrained;
      let s0 : State := (s.reserve d).getD s;
      decide (s0.slotHeld (keyTarget d) = true) &&
      accepts d 0 [(8, 24)] s &&
      accepts d 0 [(8, 13), (24, 8)] s)) = true := by decide +kernel

/-- Hypotheses of Obligations.KeysAreStagedCommittedAndErased, part 2. -/
theorem witness_keys_are_staged_committed_and_erased_2 :
    (let d : Desc := cmd 0x010 [(8, 0), (0xC, 1), (0xD, 2), (0xE, 0x18), (0x10, 0x1000), (0x1C, 40)];
     (let s : State := poke (withSlots zm [(2 ^ 18, { aKey with act := { aKey.act with use := 2 } })]) 0x1000 wrapped;
      decide (d.opcode = 16) &&
      decide (slotFieldOk d 8 = true) &&
      decide (d.get 13 1 ≤ 2) &&
      decide (d.get 14 1 < 32) &&
      decide (d.get 15 1 ≤ 1) &&
      decide (usageOk (d.slotClass 8) (d.get 14 1) = true) &&
      decide (bitOf (d.get 14 1) 0 = false) &&
      decide (d.get 12 1 = 1) &&
      decide (d.get 24 4 ≤ 255) &&
      decide (d.get 28 4 = algLen (BitVec.ofNat 2 (d.get 13 1)) + 8) &&
      (let s0 : State := (s.reserve d).getD s;
       decide (s0.slotHeld (slotField d 8) = false) &&
       decide (s0.axis.serving = true) &&
       decide (s0.parentStatus (slotKey 2 (d.get 24 4)) = none) &&
       decide ((s0.slot (slotKey 2 (d.get 24 4))).act.wrap = true) &&
       decide (s0.depthOk (slotKey 2 (d.get 24 4)) (d.slotClass 8) = true) &&
       (match ((s0.readMem Master.annulus (ringOwner d.ring.val) (d.get 16 8) (d.get 28 4)).fst) with
         | MemRead.data bs =>
           (match (Crypto.unwrap (algLen (s0.slot (slotKey 2 (d.get 24 4))).act.alg) (s0.slot (slotKey 2 (d.get 24 4))).act.key (algLen (BitVec.ofNat 2 (d.get 13 1)) / 8) (Crypto.ofBytes (List.map BitVec.toNat bs))) with
             | some _ =>
               accepts d 0 [(8, 24)] s
             | _ => false)
         | _ => false))) &&
     (let s : State := withSlots zm [(2 ^ 18, { aKey with act := { aKey.act with use := 2 } })];
      decide (d.opcode = 16) &&
      decide (slotFieldOk d 8 = true) &&
      decide (d.get 13 1 ≤ 2) &&
      decide (d.get 14 1 < 32) &&
      decide (d.get 15 1 ≤ 1) &&
      decide (usageOk (d.slotClass 8) (d.get 14 1) = true) &&
      decide (bitOf (d.get 14 1) 0 = false) &&
      decide (d.get 12 1 = 1) &&
      decide (d.get 24 4 ≤ 255) &&
      decide (d.get 28 4 = algLen (BitVec.ofNat 2 (d.get 13 1)) + 8) &&
      (let s0 : State := (s.reserve d).getD s;
       decide (s0.slotHeld (slotField d 8) = false) &&
       decide (s0.axis.serving = true) &&
       decide (s0.parentStatus (slotKey 2 (d.get 24 4)) = none) &&
       decide ((s0.slot (slotKey 2 (d.get 24 4))).act.wrap = true) &&
       decide (s0.depthOk (slotKey 2 (d.get 24 4)) (d.slotClass 8) = true) &&
       (match ((s0.readMem Master.annulus (ringOwner d.ring.val) (d.get 16 8) (d.get 28 4)).fst) with
         | MemRead.data bs =>
           decide (Crypto.unwrap (algLen (s0.slot (slotKey 2 (d.get 24 4))).act.alg) (s0.slot (slotKey 2 (d.get 24 4))).act.key (algLen
               (BitVec.ofNat 2 (d.get 13 1)) / 8) (Crypto.ofBytes (List.map BitVec.toNat bs)) = none) &&
           accepts d 0 [(8, 24)] s
         | _ => false)))) = true := by decide +kernel

/-- Hypotheses of Obligations.KeysAreStagedCommittedAndErased, part 3. -/
theorem witness_keys_are_staged_committed_and_erased_3 :
    (let d : Desc := dDerive;
     (let s : State := withSlots zm [(2 ^ 18, { aKey with active := .invalid, act := { aKey.act with use := 4 } })];
      decide (d.opcode = 20) &&
      decide (slotFieldOk d 8 = true) &&
      decide (slotFieldOk d 12 = true) &&
      decide (d.get 16 1 = 16 ∨ d.get 16 1 = 32) &&
      decide (d.get 17 1 < 32) &&
      decide (d.get 18 1 ≤ 1) &&
      decide (1 ≤ d.get 19 1) &&
      decide (d.get 19 1 ≤ 32) &&
      decide (d.get 20 1 ≤ 32) &&
      decide (slotField d 8 ≠ slotField d 12) &&
      decide (d.slotClass 8 = 2 ∨ d.slotClass 8 = 0 ∧ d.slotClass 12 = 0 ∧ bits (d.slotIndex 8) 13 4 = bits (d.slotIndex 12) 13 4) &&
      decide (usageOk (d.slotClass 12) (d.get 17 1) = true) &&
      decide (bitOf (d.get 17 1) 0 = false) &&
      (let s0 : State := (s.reserve d).getD s;
       decide (s0.slotHeld (slotField d 12) = false) &&
       decide (s0.axis.serving = true) &&
       decide ((s0.slot (slotField d 8)).act.derive = true) &&
       decide (s0.depthOk (slotField d 8) (d.slotClass 12) = true) &&
       (match (s0.parentStatus (slotField d 8)) with
         | some _ =>
           accepts d 0 [(8, 13), (24, 8)] s
         | _ => false))) &&
     (let s : State := sParent;
      let s0 : State := (s.reserve d).getD s;
      decide (d.opcode = 20) &&
      decide (s0.slotHeld (slotField d 12) = false) &&
      decide (slotFieldOk d 8 = true) &&
      decide (slotFieldOk d 12 = true) &&
      decide (d.get 16 1 = 16 ∨ d.get 16 1 = 32) &&
      decide (d.get 17 1 < 32) &&
      decide (d.get 18 1 ≤ 1) &&
      decide (1 ≤ d.get 19 1) &&
      decide (d.get 19 1 ≤ 32) &&
      decide (d.get 20 1 ≤ 32) &&
      decide (slotField d 8 ≠ slotField d 12) &&
      decide (d.slotClass 8 = 2 ∨ d.slotClass 8 = 0 ∧ d.slotClass 12 = 0 ∧ bits (d.slotIndex 8) 13 4 = bits (d.slotIndex 12) 13 4) &&
      decide (s0.axis.serving = true) &&
      decide (usageOk (d.slotClass 12) (d.get 17 1) = true) &&
      decide (bitOf (d.get 17 1) 0 = false) &&
      decide ((s0.slot (slotField d 8)).act.derive = true) &&
      decide (s0.depthOk (slotField d 8) (d.slotClass 12) = true) &&
      decide (s0.parentStatus (slotField d 8) = none) &&
      (match ((s0.readMem Master.annulus (ringOwner d.ring.val) (d.get 24 8) (d.get 19 1 + d.get 20 1)).fst) with
        | MemRead.data _ =>
          accepts d 0 [(8, 13), (24, 8)] s
        | _ => false))) = true := by decide +kernel

/-- Hypotheses of Obligations.KeysAreStagedCommittedAndErased, part 4. -/
theorem witness_keys_are_staged_committed_and_erased_4 :
    ((let d : Desc := dVerify vKcv;
      (let s : State := zm;
       let s0 : State := (s.reserve d).getD s;
       decide (d.opcode = 17) &&
       decide (s0.slotHeld (slotField d 8) = false) &&
       decide (slotFieldOk d 8 = true) &&
       decide (d.get 12 4 < 2 ^ 24) &&
       decide ((s0.slot (slotField d 8)).pending = PendingHalf.empty) &&
       accepts d 0 [(8, 8)] s) &&
      (let s : State := slots1 kStaged;
       let s0 : State := (s.reserve d).getD s;
       decide (d.opcode = 17) &&
       decide (s0.slotHeld (slotField d 8) = false) &&
       decide (slotFieldOk d 8 = true) &&
       decide (d.get 12 4 < 2 ^ 24) &&
       decide ((s0.slot (slotField d 8)).pending ≠ PendingHalf.empty) &&
       decide (kcv (algLen (s0.slot (slotField d 8)).pnd.alg) (s0.slot (slotField d 8)).pnd.key = d.get 12 4) &&
       accepts d 0 [(8, 8)] s) &&
      (let s : State := sDrained;
       let s0 : State := (s.reserve d).getD s;
       decide (s0.slotHeld (keyTarget d) = true) &&
       accepts d 0 [(8, 8)] s)) &&
     (let d : Desc := dVerify 0;
      (let s : State := slots1 kStaged;
       let s0 : State := (s.reserve d).getD s;
       decide (d.opcode = 17) &&
       decide (s0.slotHeld (slotField d 8) = false) &&
       decide (slotFieldOk d 8 = true) &&
       decide (d.get 12 4 < 2 ^ 24) &&
       decide ((s0.slot (slotField d 8)).pending ≠ PendingHalf.empty) &&
       decide (kcv (algLen (s0.slot (slotField d 8)).pnd.alg) (s0.slot (slotField d 8)).pnd.key ≠ d.get 12 4) &&
       accepts d 0 [(8, 8)] s) &&
      (let s : State := sDrained;
       decide (slotFieldOk d 8 = true) &&
       (let s0 : State := (s.reserve d).getD s;
        decide (s0.slotHeld (keyTarget d) = true) &&
        accepts d 0 [(8, 4)] s &&
        accepts d 0 [(8, 5)] s)))) = true := by decide +kernel

/-- Hypotheses of Obligations.KeysAreStagedCommittedAndErased, part 5. -/
theorem witness_keys_are_staged_committed_and_erased_5 :
    (let d : Desc := dCommit;
     (let s : State := slots1 kVerified;
      decide (slotFieldOk d 8 = true) &&
      (let s0 : State := (s.reserve d).getD s;
       decide (d.opcode = 18) &&
       decide (s0.passRuns (slotField d 8) = false) &&
       decide ((s0.slot (slotField d 8)).old = []) &&
       decide ((s0.slot (slotField d 8)).waitq = []) &&
       decide ((s0.slot (slotField d 8)).pending = PendingHalf.verified) &&
       decide (s0.slotHeld (slotField d 8) = false) &&
       accepts d 0 [(8, 4)] s)) &&
     (let s : State := slots1 kStaged;
      decide (slotFieldOk d 8 = true) &&
      (let s0 : State := (s.reserve d).getD s;
       decide (d.opcode = 18) &&
       decide (s0.passRuns (slotField d 8) = false) &&
       decide ((s0.slot (slotField d 8)).old = []) &&
       decide ((s0.slot (slotField d 8)).waitq = []) &&
       decide ((s0.slot (slotField d 8)).pending = PendingHalf.staged) &&
       decide (s0.slotHeld (slotField d 8) = false) &&
       accepts d 0 [(8, 4)] s)) &&
     (let s : State := zm;
      decide (slotFieldOk d 8 = true) &&
      (let s0 : State := (s.reserve d).getD s;
       decide (d.opcode = 18) &&
       decide (s0.passRuns (slotField d 8) = false) &&
       decide ((s0.slot (slotField d 8)).old = []) &&
       decide ((s0.slot (slotField d 8)).waitq = []) &&
       decide ((s0.slot (slotField d 8)).pending = PendingHalf.empty) &&
       decide (s0.slotHeld (slotField d 8) = false) &&
       accepts d 0 [(8, 4)] s)) &&
     (let s : State := slots1 { kVerified with old := [oDrains] };
      decide (slotFieldOk d 8 = true) &&
      (let s0 : State := (s.reserve d).getD s;
       decide (d.opcode = 18) &&
       decide (s0.passRuns (slotField d 8) = true ∨ (s0.slot (slotField d 8)).old ≠ []) &&
       decide (s0.slotHeld (slotField d 8) = false) &&
       accepts d 0 [(8, 4)] s))) = true := by decide +kernel

/-- Hypotheses of Obligations.KeysAreStagedCommittedAndErased, part 6. -/
theorem witness_keys_are_staged_committed_and_erased_6 :
    (let d : Desc := dErase 1;
     (let s : State := withAxis (slots1 kStaged) fun a => { a with marking := [(dHandle0, 0, 1)] };
      decide (slotFieldOk d 8 = true) &&
      decide (d.opcode = 19) &&
      decide (1 ≤ d.get 12 1) &&
      decide (d.get 12 1 ≤ 3) &&
      (let s0 : State := (s.reserve d).getD s;
       decide (s0.passRuns (slotField d 8) = true) &&
       decide (s0.slotHeld (slotField d 8) = false) &&
       accepts d 0 [(8, 5)] s)) &&
     (let s : State := zm;
      decide (slotFieldOk d 8 = true) &&
      (let s0 : State := (s.reserve d).getD s;
       decide (d.opcode = 19) &&
       decide (s0.passRuns (slotField d 8) = false) &&
       decide (1 ≤ d.get 12 1) &&
       decide (d.get 12 1 ≤ 3) &&
       decide ((bitOf (d.get 12 1) 0 && (s0.slot (slotField d 8)).active != ActiveHalf.none) = false) &&
       decide ((bitOf (d.get 12 1) 1 && (s0.slot (slotField d 8)).pending != PendingHalf.empty) = false) &&
       decide (s0.slotHeld (slotField d 8) = false) &&
       accepts d 0 [(8, 5)] s)) &&
     (let s : State := slots1 aKey;
      decide (slotFieldOk d 8 = true) &&
      (let s0 : State := (s.reserve d).getD s;
       decide (d.opcode = 19) &&
       decide (s0.passRuns (slotField d 8) = false) &&
       decide (1 ≤ d.get 12 1) &&
       decide (d.get 12 1 ≤ 3) &&
       decide ((bitOf (d.get 12 1) 0 && (s0.slot (slotField d 8)).active != ActiveHalf.none) = true) &&
       decide ((s0.slot (slotField d 8)).live = 0) &&
       decide (s0.slotHeld (slotField d 8) = false) &&
       accepts d 0 [(8, 5)] s)) &&
     (let s : State := slots1 { aKey with live := 1 };
      decide (slotFieldOk d 8 = true) &&
      decide (d.opcode = 19) &&
      decide (1 ≤ d.get 12 1) &&
      decide (d.get 12 1 ≤ 3) &&
      (let s0 : State := (s.reserve d).getD s;
       decide (s0.passRuns (slotField d 8) = false) &&
       decide ((bitOf (d.get 12 1) 0 && (s0.slot (slotField d 8)).active != ActiveHalf.none) = true) &&
       decide ((s0.slot (slotField d 8)).live ≠ 0) &&
       decide (s0.slotHeld (slotField d 8) = false) &&
       accepts d 0 [(8, 5)] s))) = true := by decide +kernel

/-- Hypotheses of Obligations.KeysAreStagedCommittedAndErased, part 7. -/
theorem witness_keys_are_staged_committed_and_erased_7 :
    ((let d : Desc := dErase 2;
      let s : State := slots1 kStaged;
      decide (slotFieldOk d 8 = true) &&
      (let s0 : State := (s.reserve d).getD s;
       decide (d.opcode = 19) &&
       decide (s0.passRuns (slotField d 8) = false) &&
       decide (1 ≤ d.get 12 1) &&
       decide (d.get 12 1 ≤ 3) &&
       decide ((bitOf (d.get 12 1) 0 && (s0.slot (slotField d 8)).active != ActiveHalf.none) = false) &&
       decide ((bitOf (d.get 12 1) 1 && (s0.slot (slotField d 8)).pending != PendingHalf.empty) = true) &&
       decide (s0.slotHeld (slotField d 8) = false) &&
       accepts d 0 [(8, 5)] s)) &&
     (let d : Desc := dInvalidate;
      (let s : State := zm;
       decide (slotFieldOk d 8 = true) &&
       (let s0 : State := (s.reserve d).getD s;
        decide (d.opcode = 21) &&
        decide ((s0.slot (slotField d 8)).active = ActiveHalf.none) &&
        decide (s0.slotHeld (slotField d 8) = false) &&
        accepts d 0 [(8, 4)] s)) &&
      (let s : State := slots1 { aKey with active := .invalid };
       decide (slotFieldOk d 8 = true) &&
       decide (d.opcode = 21) &&
       (let s0 : State := (s.reserve d).getD s;
        decide ((s0.slot (slotField d 8)).active = ActiveHalf.invalid) &&
        decide (s0.slotHeld (slotField d 8) = false) &&
        accepts d 0 [(8, 4)] s)) &&
      (let s : State := slots1 { aKey with act := { aKey.act with retire := true } };
       decide (slotFieldOk d 8 = true) &&
       (let s0 : State := (s.reserve d).getD s;
        decide (d.opcode = 21) &&
        decide ((s0.slot (slotField d 8)).active = ActiveHalf.valid) &&
        decide ((s0.slot (slotField d 8)).act.retire = true) &&
        decide (s0.slotHeld (slotField d 8) = false) &&
        accepts d 0 [(8, 4)] s)) &&
      (let s : State := slots1 aKey;
       decide (slotFieldOk d 8 = true) &&
       (let s0 : State := (s.reserve d).getD s;
        decide (d.opcode = 21) &&
        decide ((s0.slot (slotField d 8)).active = ActiveHalf.valid) &&
        decide ((s0.slot (slotField d 8)).act.retire = false) &&
        decide (s0.slotHeld (slotField d 8) = false) &&
        accepts d 0 [(8, 4)] s)))) = true := by decide +kernel

/-- Hypotheses of Obligations.LaneRegistersAndPorts, part 1. -/
theorem witness_lane_registers_and_ports_1 :
    (let l : Lane := ⟨.chord, 9⟩;
     let s : State := z;
     decide (laneExists l = false) &&
     decide (s.halted = false)) = true := by decide +kernel

/-- Hypotheses of Obligations.LaneRegistersAndPorts, part 2. -/
theorem witness_lane_registers_and_ports_2 :
    (let l : Lane := cl0;
     (let s : State := z;
      (let v : Word32 := 0x00000001#32;
       decide (s.halted = false) &&
       decide (laneExists l = true) &&
       decide (128 ≤ laneKey l ∨ (s.regN (laneOff (laneKey l)) ^^^ BitVec.toNat v &&& if 64 ≤ laneKey l ∧ laneKey l < 128 ∧ laneKey l
           % 4 = 0 then 4227858432 else 3690987520) / 2 ^ 30 = 0 ∧ ((fun (x : Nat) => if bits x 26 2 = 3 then 0 else bits x 26 2) (s.regN (laneOff
           (laneKey l))) = (fun (x : Nat) => if bits x 26 2 = 3 then 0 else bits x 26 2) (BitVec.toNat v &&& if 64 ≤ laneKey l ∧ laneKey l <
           128 ∧ laneKey l % 4 = 0 then 4227858432 else 3690987520) ∨ (s.setReg (laneOff (laneKey l)) (BitVec.ofNat 32 (BitVec.toNat v &&&
           if 64 ≤ laneKey l ∧ laneKey l < 128 ∧ laneKey l % 4 = 0 then 4227858432 else 3690987520))).lanePortEnabled (laneKey l) = false)) &&
       decide (tapSum (laneKey l) (BitVec.toNat v) ≤ 63) &&
       decide (bits (BitVec.toNat v) 30 2 = 0 ∨ s.laneInUse (laneKey l) = false) &&
       decide (bitOf (BitVec.toNat v) 31 = false)) &&
      (let v : Word32 := 0x80000000#32;
       decide (s.halted = false) &&
       decide (laneExists l = true) &&
       decide (laneKey l < 128) &&
       decide ((s.regN (laneOff (laneKey l)) ^^^ BitVec.toNat v &&& if 64 ≤ laneKey l ∧ laneKey l < 128 ∧ laneKey l % 4 = 0 then
           4227858432 else 3690987520) / 2 ^ 30 ≠ 0 ∨ (fun (x : Nat) => if bits x 26 2 = 3 then 0 else bits x 26 2) (s.regN (laneOff (laneKey
           l))) ≠ (fun (x : Nat) => if bits x 26 2 = 3 then 0 else bits x 26 2) (BitVec.toNat v &&& if 64 ≤ laneKey l ∧ laneKey l < 128 ∧
           laneKey l % 4 = 0 then 4227858432 else 3690987520) ∧ (s.setReg (laneOff (laneKey l)) (BitVec.ofNat 32 (BitVec.toNat v &&& if 64 ≤
           laneKey l ∧ laneKey l < 128 ∧ laneKey l % 4 = 0 then 4227858432 else 3690987520))).lanePortEnabled (laneKey l) = true) &&
       decide ((s.lane (laneKey l)).mode ≠ LaneMode.locked) &&
       decide (bitOf (BitVec.toNat v) 31 = true)) &&
      (let v : Word32 := BitVec.ofNat 32 (31 <<< 12 ||| 63 <<< 6);
       decide (s.halted = false) &&
       decide (laneExists l = true) &&
       decide (63 < tapSum (laneKey l) (BitVec.toNat v))) &&
      decide (s.halted = false) &&
      decide (laneExists l = true)) &&
     (let s : State := port0On;
      let v : Word32 := 0x80000000#32;
      decide (s.halted = false) &&
      decide (laneExists l = true) &&
      decide (s.laneInUse (laneKey l) = true) &&
      decide (bits (BitVec.toNat v) 30 2 ≠ 0)) &&
     (let s : State := laneMode cl0 .locked;
      let v : Word32 := 0x80000000#32;
      decide (s.halted = false) &&
      decide (laneExists l = true) &&
      decide ((s.lane (laneKey l)).mode = LaneMode.locked) &&
      decide (bitOf (BitVec.toNat v) 31 = true))) = true := by decide +kernel

/-- Hypotheses of Obligations.LaneRegistersAndPorts, part 3. -/
theorem witness_lane_registers_and_ports_3 :
    ((let j : Nat := 3;
      let l : Lane := cl0;
      let s : State := z;
      decide (s.halted = false) &&
      decide (laneExists l = true) &&
      decide (j ≠ laneKey l)) &&
     (let d : Desc := dEnable 0 15 2 8;
      (let s : State := z;
       let s0 : State := (s.reserve d).getD s;
       decide (portFieldsOk d = true) &&
       decide (s0.enableStatus d = Status.ok) &&
       accepts d 0 [(8, 4), (12, 16)] s) &&
      (let v_i : Nat := 3;
       let s0 : State := z;
       decide (portFieldsOk d = true) &&
       decide (s0.enableStatus d = Status.ok) &&
       decide (v_i ∈ maskSubs (portMask d)))) &&
     (let d : Desc := dDisableLine;
      let s : State := z;
      let s0 : State := (s.reserve d).getD s;
      decide (portFieldsOk d = true) &&
      decide (s0.enableStatus d ≠ Status.ok) &&
      accepts d 0 [(8, 4), (12, 16)] s) &&
     (let d : Desc := dEnable 0 16 2 8;
      let s : State := z;
      decide (portFieldsOk d = false) &&
      accepts d 0 [(8, 4), (12, 16)] s) &&
     (let d : Desc := dEnable 0 0 0 1;
      (let s : State := port0On;
       let s0 : State := (s.reserve d).getD s;
       decide (d.get 8 1 < 4) &&
       decide (portSide d = 0 → portPath d = 0) &&
       decide (portNo d < 16) &&
       decide (portMask d ≠ 0) &&
       decide (portMask d < 2 ^ modeSubs ((s0.portModeNow (portSide d) (portNo d)).getD 2)) &&
       decide (((maskSubs (portMask d)).any fun (i : Nat) => (s0.lport (portLp d i)).busy) = true) &&
       accepts d 0 [(8, 2), (11, 1)] s) &&
      (let s : State := z;
       let s0 : State := (s.reserve d).getD s;
       decide (d.get 8 1 < 4) &&
       decide (portSide d = 0 → portPath d = 0) &&
       decide (portNo d < 16) &&
       decide (portMask d ≠ 0) &&
       decide (portMask d < 2 ^ modeSubs ((s0.portModeNow (portSide d) (portNo d)).getD 2)) &&
       decide (((maskSubs (portMask d)).any fun (i : Nat) => (s0.lport (portLp d i)).busy) = false) &&
       accepts d 0 [(8, 2), (11, 1)] s)) &&
     (let d : Desc := dFreeze;
      let s : State := z;
      let s0 : State := (s.reserve d).getD s;
      decide (4 ≤ d.get 8 1 ∨ 16 ≤ portNo d ∨ portMask d = 0 ∨ 2 ^ modeSubs ((s0.portModeNow (portSide d) (portNo d)).getD 2) ≤ portMask
          d ∨ portSide d = 0 ∧ portPath d = 1) &&
      accepts d 0 [(8, 2), (11, 1)] s) &&
     (let v_i : Nat := 3;
      let n : Nat := 3;
      let s : State := z;
      let side : Nat := 3;
      decide ((s.lport (64 * side + (4 * n + v_i))).enabled = false))) = true := by decide +kernel

/-- Hypotheses of Obligations.LaneRegistersAndPorts, part 4. -/
theorem witness_lane_registers_and_ports_4 :
    ((let i : Nat := 0;
      let n : Nat := 0;
      (let s : State := port0On;
       let v_side : Nat := 0;
       decide (v_side ≠ 1) &&
       decide ((s.lport (64 * v_side + (4 * n + i))).enabled = true)) &&
      (let s : State := sOverlap;
       let v_side : Nat := 1;
       decide ((s.lport (64 * v_side + (4 * n + i))).enabled = true))) &&
     (let n : Fin 16 := fp0;
      (let s : State := sClosing;
       (let v_side : Side := .client;
        (match (List.find? (fun (x : Disable) => x.side == v_side && x.port == n.val && s.drained x) s.ports.disables) with
          | some _ =>
            true
          | _ => false)) &&
       (match (List.find? (fun (x : Disable) => x.side == Side.client && x.port == n.val) s.ports.disables) with
         | some _ =>
           true
         | _ => false)) &&
      (let s : State := z;
       let v_side : Side := .client;
       decide (List.find? (fun (x : Disable) => x.side == v_side && x.port == n.val && s.drained x) s.ports.disables = none) &&
       decide (List.find? (fun (x : Disable) => x.side == v_side && x.port == n.val) s.ports.disables = none)) &&
      (let s : State := sClosingLine;
       (match (List.find? (fun (x : Disable) => x.side == Side.line && x.port == n.val) s.ports.disables) with
         | some _ =>
           true
         | _ => false)))) = true := by decide +kernel

/-- Hypotheses of Obligations.LanesReachAndLoseLock, part 1. -/
theorem witness_lanes_reach_and_lose_lock_1 :
    ((let l : Lane := ⟨.chord, 9⟩;
      decide (laneExists l = false)) &&
     (let l : Lane := cl0;
      (let s : State := laneMode cl0 .pll;
       decide (laneExists l = true) &&
       decide ((s.lane (laneKey l)).mode = LaneMode.pll) &&
       decide ((s.lane (laneKey l)).mode ≠ LaneMode.signal) &&
       decide ((s.lane (laneKey l)).mode ≠ LaneMode.cdr) &&
       decide ((s.lane (laneKey l)).mode ≠ LaneMode.adapt) &&
       decide ((s.lane (laneKey l)).mode ≠ LaneMode.train) &&
       decide ((s.lane (laneKey l)).mode ≠ LaneMode.locked) &&
       decide ((s.lane (laneKey l)).mode = LaneMode.off ∨ (s.lane (laneKey l)).mode = LaneMode.pll ∨ (s.lane (laneKey l)).mode =
           LaneMode.signal) &&
       (match ((s.lane (laneKey l)).since) with
         | some _ =>
           decide ((s.lane (laneKey l)).mode ≠ LaneMode.off) &&
           decide ((s.lane (laneKey l)).mode ≠ LaneMode.locked)
         | _ => false) &&
       decide ((s.lane (laneKey l)).chkLock = false) &&
       decide ((s.lane (laneKey l)).eyeBusy = false)) &&
      (let s : State := laneMode cl0 .signal;
       decide (laneExists l = true) &&
       decide ((s.lane (laneKey l)).mode = LaneMode.signal)) &&
      (let s : State := laneMode cl0 .cdr;
       decide (laneExists l = true) &&
       decide ((s.lane (laneKey l)).mode = LaneMode.cdr) &&
       decide ((s.lane (laneKey l)).kept = none) &&
       decide ((s.lane (laneKey l)).mode = LaneMode.cdr ∨ (s.lane (laneKey l)).mode = LaneMode.adapt ∨ (s.lane (laneKey l)).mode =
           LaneMode.train ∨ (s.lane (laneKey l)).mode = LaneMode.locked)) &&
      (let s : State := kept cl0;
       decide (laneExists l = true) &&
       decide ((s.lane (laneKey l)).mode = LaneMode.cdr) &&
       (match ((s.lane (laneKey l)).kept) with
         | some t0 =>
           decide (s.clk ≤ t0 + 10000000)
         | _ => false)) &&
      (let s : State := laneMode cl0 .train;
       decide (laneExists l = true) &&
       decide ((s.lane (laneKey l)).mode = LaneMode.train)) &&
      decide (laneExists l = true) &&
      (let s : State := laneMode cl0 .locked;
       decide (laneExists l = true) &&
       decide ((s.lane (laneKey l)).mode = LaneMode.locked)) &&
      (let s : State := laneIs cl0 fun x => { x with chkLock := true };
       decide (laneExists l = true) &&
       decide ((s.lane (laneKey l)).chkLock = true)) &&
      (let s : State := laneIs cl0 fun x => { x with eyeBusy := true };
       decide (laneExists l = true) &&
       decide ((s.lane (laneKey l)).eyeBusy = true)))) = true := by decide +kernel

/-- Hypotheses of Obligations.LanesReachAndLoseLock, part 2. -/
theorem witness_lanes_reach_and_lose_lock_2 :
    ((let l : Lane := chLane;
      (let s : State := laneMode cl0 .pll;
       decide (laneExists l = true) &&
       decide ((s.lane (laneKey l)).mode ≠ LaneMode.pll) &&
       decide ((s.lane (laneKey l)).since = none ∨ (s.lane (laneKey l)).mode = LaneMode.off ∨ (s.lane (laneKey l)).mode =
           LaneMode.locked)) &&
      (let s : State := laneMode chLane .adapt;
       decide (laneExists l = true) &&
       decide ((s.lane (laneKey l)).mode = LaneMode.adapt) &&
       decide (128 ≤ laneKey l))) &&
     (let l : Lane := li0;
      (let s : State := { kept li0 with clk := 10000001 };
       decide (laneExists l = true) &&
       decide ((s.lane (laneKey l)).mode = LaneMode.cdr) &&
       (match ((s.lane (laneKey l)).kept) with
         | some t0 =>
           decide (t0 + 10000000 < s.clk)
         | _ => false)) &&
      (let s : State := laneMode li0 .adapt;
       decide (laneExists l = true) &&
       decide ((s.lane (laneKey l)).mode = LaneMode.adapt) &&
       decide (laneKey l < 128))) &&
     (let s : State := laneMode cl0 .pll;
      decide (s.halted = false) &&
      decide (∀ (j : Nat), j ∈ refclkLanes 0 → (s.lane j).mode ≠ LaneMode.locked)) &&
     (let n : Fin 16 := fin15;
      (let s : State := sAligning;
       let side : Side := Side.client;
       let sub : Fin 4 := 3;
       decide (((s.lport (64 * sideNo side + 4 * n.val + sub.val)).busy && !(s.lport (64 * sideNo side + 4 * n.val + sub.val)).up &&
           (s.lport (64 * sideNo side + 4 * n.val + sub.val)).mode != some 7 && !(s.lanesOf (64 * sideNo side + 4 * n.val +
           sub.val)).isEmpty && (s.lanesOf (64 * sideNo side + 4 * n.val + sub.val)).all s.laneLocked) = true)) &&
      (let s : State := laneMode cl0 .pll;
       let side : Side := Side.client;
       let sub : Fin 4 := 0;
       decide (((s.lport (64 * sideNo side + 4 * n.val + sub.val)).busy && !(s.lport (64 * sideNo side + 4 * n.val + sub.val)).up &&
           (s.lport (64 * sideNo side + 4 * n.val + sub.val)).mode != some 7 && !(s.lanesOf (64 * sideNo side + 4 * n.val +
           sub.val)).isEmpty && (s.lanesOf (64 * sideNo side + 4 * n.val + sub.val)).all s.laneLocked) = false)))) = true := by decide +kernel

/-- Hypotheses of Obligations.LeasesFollowTheArbiter, part 1. -/
theorem witness_leases_follow_the_arbiter_1 :
    ((let s : State := sArb .active;
      decide (s.halted = false) &&
      decide (s.twin.lease = Lease.standby ∨ s.twin.lease = Lease.active ∨ s.twin.lease = Lease.lapsed) &&
      decide (s.twin.arbRefused = false) &&
      decide (s.twin.arb.ver ≠ 0) &&
      decide (s.twin.lease = Lease.active ∨ s.twin.lease = Lease.handover) &&
      decide (s.twin.holdSince = none ∨ s.twin.lease ≠ Lease.active ∨ s.twin.staleUs = 0 ∨ s.twin.staleAsked = true ∨ s.twin.stale = true
          ∨ s.twin.arb.ver < 2) &&
      decide (s.twin.restoreDue = none)) &&
     (let s : State := sRestore;
      decide (s.twin.lease = Lease.unconfigured ∨ s.twin.lease = Lease.solo ∨ s.twin.lease = Lease.handover ∨ s.twin.arbRefused = true ∨
          s.twin.arb.ver = 0) &&
      (match (s.twin.restoreDue) with
        | some _ =>
          true
        | _ => false)) &&
     (let msg : List Byte := fromArb 65 0;
      let s : State := { sArb .active with clk := 10 ^ 9 };
      decide (s.halted = false) &&
      (match (s.arbAccept 65 msg) with
        | some t0 =>
          decide (t0 + min (1000 * beAt msg 12 4) (1000000 * s.twin.leaseMs) ≤ s.clk)
        | _ => false)) &&
     (let msg : List Byte := fromArb 0x41 0;
      (let s : State := sArb .lapsed;
       decide (s.halted = false) &&
       decide (s.twin.lease = Lease.lapsed) &&
       (match (s.arbAccept 65 msg) with
         | some t0 =>
           decide (s.clk < t0 + min (1000 * beAt msg 12 4) (1000000 * s.twin.leaseMs))
         | _ => false)) &&
      (let s : State := sArb .active;
       decide (s.halted = false) &&
       decide (s.twin.lease = Lease.active) &&
       (match (s.arbAccept 65 msg) with
         | some t0 =>
           decide (s.clk < t0 + min (1000 * beAt msg 12 4) (1000000 * s.twin.leaseMs)) &&
           decide (leAt msg 11 1 ≠ 1)
         | _ => false) &&
       decide (s.arbAccept 66 msg = none)) &&
      (let s : State := sArb .standby;
       decide (s.halted = false) &&
       decide (s.twin.lease = Lease.standby) &&
       (match (s.arbAccept 65 msg) with
         | some t0 =>
           decide (s.clk < t0 + min (1000 * beAt msg 12 4) (1000000 * s.twin.leaseMs))
         | _ => false))) &&
     (let msg : List Byte := fromArb 65 1;
      let s : State := sArb .active;
      decide (s.halted = false) &&
      decide (s.twin.lease = Lease.active) &&
      (match (s.arbAccept 65 msg) with
        | some t0 =>
          decide (s.clk < t0 + min (1000 * beAt msg 12 4) (1000000 * s.twin.leaseMs)) &&
          decide (leAt msg 11 1 = 1)
        | _ => false)) &&
     (let msg : List Byte := [];
      let s : State := sArb .active;
      decide (s.halted = false) &&
      decide (s.arbAccept 65 msg = none))) = true := by decide +kernel

/-- Hypotheses of Obligations.LeasesFollowTheArbiter, part 2. -/
theorem witness_leases_follow_the_arbiter_2 :
    ((let msg : List Byte := fromArb 0x42 0;
      (let s : State := sArb .lapsed;
       decide (s.halted = false) &&
       decide (s.twin.lease = Lease.lapsed) &&
       (match (s.arbAccept 66 msg) with
         | some _ =>
           true
         | _ => false)) &&
      (let s : State := sArb .active;
       decide (s.halted = false) &&
       decide (s.twin.lease ≠ Lease.lapsed) &&
       (match (s.arbAccept 66 msg) with
         | some _ =>
           true
         | _ => false))) &&
     (let s : State := sArb .lapsed;
      decide (s.twin.lease ≠ Lease.active) &&
      decide (s.twin.lease ≠ Lease.handover)) &&
     (let s : State := sStale;
      decide (s.halted = false) &&
      (match (s.twin.holdSince) with
        | some _ =>
          decide (s.twin.lease = Lease.active) &&
          decide (s.twin.staleUs ≠ 0) &&
          decide (s.twin.staleAsked = false) &&
          decide (s.twin.stale = false) &&
          decide (2 ≤ s.twin.arb.ver)
        | _ => false))) = true := by decide +kernel

/-- Hypotheses of Obligations.LifeCycleCounterOnlyRises. -/
theorem witness_life_cycle_counter_only_rises :
    ((let s : State := z;
      (match (lcCount s.apex.otp.lcCells) with
        | some _ =>
          true
        | _ => false) &&
      (match (step s) with
        | Host.Outcome.next _ =>
          true
        | _ => false)) &&
     (let b : Nat := 0;
      let s : State := z;
      (match (step s) with
        | Host.Outcome.next _ =>
          decide (b < 12) &&
          decide (lcBit s.apex.otp.lcCells b = true)
        | _ => false))) = true := by decide +kernel

/-- Hypotheses of Obligations.LifeCycleTransitionsBurn, part 1. -/
theorem witness_life_cycle_transitions_burn_1 :
    (let m : Mbx := .compass;
     (let s : State := spentTries (asking 9 1 pOwned);
      decide (8 ≤ s.apex.failed) &&
      serves m 1 s) &&
     (let s : State := asking 9 1 [];
      serves m 1 s &&
      decide (s.apex.failed < 8)) &&
     (let s : State := personal (asking 9 1 (11 :: certRma));
      let p : List Byte := (s.mbx m).payload;
      decide (s.apex.failed < 8) &&
      decide (p ≠ []) &&
      decide (m = Mbx.debugPort ∧ (leAt p 0 1 = 12 ∧ s.lc < 9 ∨ s.lc < 8 ∧ s.lc % 2 = 1 ∧ leAt p 0 1 = s.lc + 1 ∨ s.lc = 8 ∧ leAt
          p 0 1 = 9) ∨ (s.lc < 8 ∧ s.lc % 2 = 0 ∧ leAt p 0 1 = s.lc + 1 ∧ m = Mbx.debugPort) ∧ s.tokenOk (s.lc / 2) (List.drop 1
          p) = true ∨ (leAt p 0 1 = 12 ∧ 9 ≤ s.lc ∧ s.lc < 12 ∨ leAt p 0 1 = 11 ∧ (s.lc = 9 ∨ s.lc = 10)) ∧ s.checkCert (if leAt p
          0 1 = 12 then 3 else 2) s.certOwner (List.drop 1 p) = 0) &&
      decide (s.cpr.warn = []) &&
      serves m 1 s) &&
     (let s : State := asking 9 1 pOwned;
      decide (¬m = Mbx.debugPort) &&
      (let p : List Byte := (s.mbx m).payload;
       decide (s.apex.failed < 8) &&
       decide (p ≠ []) &&
       decide (s.lc = 9) &&
       decide (leAt p 0 1 = 10) &&
       decide ((List.drop 1 p).length = 48) &&
       decide (s.cpr.warn = []) &&
       serves m 1 s)) &&
     (let s : State := warned (asking 9 1 pOwned);
      let p : List Byte := (s.mbx m).payload;
      decide (s.apex.failed < 8) &&
      decide (p ≠ []) &&
      decide ((m = Mbx.debugPort ∧ (leAt p 0 1 = 12 ∧ s.lc < 9 ∨ s.lc < 8 ∧ s.lc % 2 = 1 ∧ leAt p 0 1 = s.lc + 1 ∨ s.lc = 8 ∧ leAt
          p 0 1 = 9) ∨ (s.lc < 8 ∧ s.lc % 2 = 0 ∧ leAt p 0 1 = s.lc + 1 ∧ m = Mbx.debugPort) ∧ s.tokenOk (s.lc / 2) (List.drop 1
          p) = true ∨ (leAt p 0 1 = 12 ∧ 9 ≤ s.lc ∧ s.lc < 12 ∨ leAt p 0 1 = 11 ∧ (s.lc = 9 ∨ s.lc = 10)) ∧ s.checkCert (if leAt p
          0 1 = 12 then 3 else 2) s.certOwner (List.drop 1 p) = 0) ∨ (s.lc = 9 ∧ leAt p 0 1 = 10 ∧ ¬m = Mbx.debugPort) ∧ (List.drop 1
          p).length = 48) &&
      decide (s.cpr.warn ≠ []) &&
      decide (s.apex.heldWrite = none) &&
      serves m 1 s) &&
     (let s : State := holding (warned (asking 9 1 pOwned));
      let p : List Byte := (s.mbx m).payload;
      decide (s.apex.failed < 8) &&
      decide (p ≠ []) &&
      decide ((m = Mbx.debugPort ∧ (leAt p 0 1 = 12 ∧ s.lc < 9 ∨ s.lc < 8 ∧ s.lc % 2 = 1 ∧ leAt p 0 1 = s.lc + 1 ∨ s.lc = 8 ∧ leAt
          p 0 1 = 9) ∨ (s.lc < 8 ∧ s.lc % 2 = 0 ∧ leAt p 0 1 = s.lc + 1 ∧ m = Mbx.debugPort) ∧ s.tokenOk (s.lc / 2) (List.drop 1
          p) = true ∨ (leAt p 0 1 = 12 ∧ 9 ≤ s.lc ∧ s.lc < 12 ∨ leAt p 0 1 = 11 ∧ (s.lc = 9 ∨ s.lc = 10)) ∧ s.checkCert (if leAt p
          0 1 = 12 then 3 else 2) s.certOwner (List.drop 1 p) = 0) ∨ (s.lc = 9 ∧ leAt p 0 1 = 10 ∧ ¬m = Mbx.debugPort) ∧ (List.drop 1
          p).length = 48) &&
      decide (s.cpr.warn ≠ []) &&
      decide (s.apex.heldWrite ≠ none) &&
      serves m 1 s) &&
     (let s : State := asking 9 1 [12];
      let p : List Byte := (s.mbx m).payload;
      decide (s.apex.failed < 8) &&
      decide (p ≠ []) &&
      decide (leAt p 0 1 = 12 ∧ 9 ≤ s.lc ∧ s.lc < 12 ∨ leAt p 0 1 = 11 ∧ (s.lc = 9 ∨ s.lc = 10)) &&
      decide (s.checkCert (if leAt p 0 1 = 12 then 3 else 2) s.certOwner (List.drop 1 p) ≠ 0) &&
      serves m 1 s) &&
     (let s : State := asking 9 1 [10];
      decide (¬m = Mbx.debugPort) &&
      (let p : List Byte := (s.mbx m).payload;
       decide (s.apex.failed < 8) &&
       decide (p ≠ []) &&
       decide (s.lc = 9) &&
       decide (leAt p 0 1 = 10) &&
       decide ((List.drop 1 p).length ≠ 48) &&
       serves m 1 s)) &&
     (let s : State := asking 9 1 [9];
      let p : List Byte := (s.mbx m).payload;
      decide (s.apex.failed < 8) &&
      decide (p ≠ []) &&
      decide (¬(m = Mbx.debugPort ∧ (leAt p 0 1 = 12 ∧ s.lc < 9 ∨ s.lc < 8 ∧ s.lc % 2 = 1 ∧ leAt p 0 1 = s.lc + 1 ∨ s.lc = 8 ∧ leAt
          p 0 1 = 9))) &&
      decide (¬(s.lc < 8 ∧ s.lc % 2 = 0 ∧ leAt p 0 1 = s.lc + 1 ∧ m = Mbx.debugPort)) &&
      decide (¬(leAt p 0 1 = 12 ∧ 9 ≤ s.lc ∧ s.lc < 12 ∨ leAt p 0 1 = 11 ∧ (s.lc = 9 ∨ s.lc = 10))) &&
      decide (¬(s.lc = 9 ∧ leAt p 0 1 = 10 ∧ ¬m = Mbx.debugPort)) &&
      serves m 1 s)) = true := by decide +kernel

/-- Hypotheses of Obligations.LifeCycleTransitionsBurn, part 2. -/
theorem witness_life_cycle_transitions_burn_2 :
    (let s : State := askingD 2 1 [3];
     let m : Mbx := Mbx.debugPort;
     let p : List Byte := (s.mbx m).payload;
     decide (s.apex.failed < 8) &&
     decide (p ≠ []) &&
     decide (s.lc < 8) &&
     decide (s.lc % 2 = 0) &&
     decide (leAt p 0 1 = s.lc + 1) &&
     decide (s.tokenOk (s.lc / 2) (List.drop 1 p) = false) &&
     serves m 1 s) = true := by decide +kernel

/-- Hypotheses of Obligations.LockedMeasurementsStay. -/
theorem witness_locked_measurements_stay :
    (let m : Mbx := .compass;
     let s : State := asking 9 32 (List.replicate 52 0);
     let p : List Byte := (s.mbx m).payload;
     decide (s.lc ≠ 12) &&
     decide (p.length = 52) &&
     decide (leAt p 1 3 = 0) &&
     decide (leAt p 0 1 = 0 ∨ leAt p 0 1 = 1 ∨ leAt p 0 1 = 3) &&
     serves m 32 s) = true := by decide +kernel

/-- Hypotheses of Obligations.LocusTablesAndBucketLocks, part 1. -/
theorem witness_locus_tables_and_bucket_locks_1 :
    (let d : Desc := dTblDelete;
     (let s : State := zm;
      decide (4 < d.get 8 1 ∨ d.get 12 4 = 0 ∨ 4096 < d.get 12 4 ∨ d.get 8 1 ≠ 1 ∧ d.get 24 4 ≠ 0 ∨ d.get 8 1 = 1 ∧ (2 ^ 18 ≤ d.get 24
          4 ∨ 73728 < d.get 24 4 % 2 ^ 17 + d.get 12 4)) &&
      accepts d 1 [(8, 1), (12, 4), (16, 8), (24, 4)] s &&
      (let c : Instr × Nat := (Instr.tblWriteInsert d, 0);
       decide (d.get 9 1 = c.snd) &&
       decide (4 < d.get 8 1 ∨ d.get 8 1 = 1 ∨ d.get 12 4 = 0 ∨ 4096 < d.get 12 4 ∨ d.get 8 1 ≠ 0 ∧ c.snd = 3) &&
       accepts d 0 [(8, 2), (12, 4), (16, 8)] s) &&
      (let s0 : State := (s.reserve d).getD s;
       decide (d.opcode = 50) &&
       decide (d.get 32 1 ≤ 15) &&
       decide (¬(s0.candidates (Desc.tblKey d).fst (Desc.tblKey d).snd).any (s0.lockedFor (ringOwner d.ring.val)) = true) &&
       decide (s0.emFind (Desc.tblKey d).fst (Desc.tblKey d).snd = none) &&
       accepts d 0 [(16, 17)] s &&
       (match (s0.lockBuckets d) with
         | some bs =>
           decide (∃ (b : Nat), b ∈ bs ∧ Option.map (fun (x : Nat × Nat) => x.fst) (s0.lockOf b) ≠ some (ringOwner d.ring.val)) &&
           accepts d 0 (lockFields d) s
         | _ => false))) &&
     (let s : State := withEm true false;
      let s0 : State := (s.reserve d).getD s;
      decide (d.opcode = 50) &&
      decide (d.get 32 1 ≤ 15) &&
      decide (¬(s0.candidates (Desc.tblKey d).fst (Desc.tblKey d).snd).any (s0.lockedFor (ringOwner d.ring.val)) = true) &&
      (match (s0.emFind (Desc.tblKey d).fst (Desc.tblKey d).snd) with
        | some (_, e) =>
          decide (e.hit = true) &&
          accepts d 0 [(16, 17)] s
        | _ => false)) &&
     (let s : State := withEm false false;
      let s0 : State := (s.reserve d).getD s;
      decide (d.opcode = 50) &&
      decide (d.get 32 1 ≤ 15) &&
      decide (¬(s0.candidates (Desc.tblKey d).fst (Desc.tblKey d).snd).any (s0.lockedFor (ringOwner d.ring.val)) = true) &&
      (match (s0.emFind (Desc.tblKey d).fst (Desc.tblKey d).snd) with
        | some (_, e) =>
          decide (e.hit = false) &&
          accepts d 0 [(16, 17)] s
        | _ => false))) = true := by decide +kernel

/-- Hypotheses of Obligations.LocusTablesAndBucketLocks, part 2. -/
theorem witness_locus_tables_and_bucket_locks_2 :
    ((let d : Desc := cmd 0x030 [(8, 0), (0xC, 1), (0x10, 0x3FFFFF8)];
      let s : State := zm;
      decide (¬(4 < d.get 8 1 ∨ d.get 12 4 = 0 ∨ 4096 < d.get 12 4 ∨ d.get 8 1 ≠ 1 ∧ d.get 24 4 ≠ 0 ∨ d.get 8 1 = 1 ∧ (2 ^ 18 ≤ d.get
          24 4 ∨ 73728 < d.get 24 4 % 2 ^ 17 + d.get 12 4))) &&
      (let s0 : State := (s.reserve d).getD s;
       decide (s0.bufShort (d.get 16 8) ((d.get 12 4 * if d.get 8 1 = 0 then 40 else if d.get 8 1 = 1 then 128 else if d.get 8 1 ≤ 3
           then 24 else 16) + if d.get 8 1 = 1 ∧ bitOf d.flags 0 = true then 2052 else 0) = true) &&
       accepts d 1 [(8, 1), (12, 4), (16, 8), (24, 4)] s)) &&
     (let d : Desc := dTblRead 1 1 73727;
      let s : State := zm;
      let s0 : State := (s.reserve d).getD s;
      decide (¬(4 < d.get 8 1 ∨ d.get 12 4 = 0 ∨ 4096 < d.get 12 4 ∨ d.get 8 1 ≠ 1 ∧ d.get 24 4 ≠ 0 ∨ d.get 8 1 = 1 ∧ (2 ^ 18 ≤ d.get
          24 4 ∨ 73728 < d.get 24 4 % 2 ^ 17 + d.get 12 4))) &&
      decide (s0.bufShort (d.get 16 8) ((d.get 12 4 * if d.get 8 1 = 0 then 40 else if d.get 8 1 = 1 then 128 else if d.get 8 1 ≤ 3 then
          24 else 16) + if d.get 8 1 = 1 ∧ bitOf d.flags 0 = true then 2052 else 0) = false) &&
      decide (d.get 8 1 = 1) &&
      accepts d 1 [(8, 1), (12, 4), (16, 8), (24, 4)] s)) = true := by decide +kernel

/-- Hypotheses of Obligations.LocusTablesAndBucketLocks, part 3. -/
theorem witness_locus_tables_and_bucket_locks_3 :
    (let d : Desc := dTblRead 0 1 0;
     (let s : State := zm;
      let s0 : State := (s.reserve d).getD s;
      decide (¬(4 < d.get 8 1 ∨ d.get 12 4 = 0 ∨ 4096 < d.get 12 4 ∨ d.get 8 1 ≠ 1 ∧ d.get 24 4 ≠ 0 ∨ d.get 8 1 = 1 ∧ (2 ^ 18 ≤ d.get
          24 4 ∨ 73728 < d.get 24 4 % 2 ^ 17 + d.get 12 4))) &&
      decide (s0.bufShort (d.get 16 8) ((d.get 12 4 * if d.get 8 1 = 0 then 40 else if d.get 8 1 = 1 then 128 else if d.get 8 1 ≤ 3 then
          24 else 16) + if d.get 8 1 = 1 ∧ bitOf d.flags 0 = true then 2052 else 0) = false) &&
      decide (d.get 8 1 ≠ 1) &&
      (match ((s0.readBuf d Master.locusDma (d.get 16 8) ((d.get 12 4 * if d.get 8 1 = 0 then 40 else if d.get 8 1 = 1 then 128 else if d.get 8 1 ≤ 3 then 24 else 16) + if d.get 8 1 = 1 ∧ bitOf d.flags 0 = true then 2052 else 0)).fst) with
        | Except.ok _ =>
          accepts d 1 [(8, 1), (12, 4), (16, 8), (24, 4)] s
        | _ => false)) &&
     (let s : State := z;
      decide (¬(4 < d.get 8 1 ∨ d.get 12 4 = 0 ∨ 4096 < d.get 12 4 ∨ d.get 8 1 ≠ 1 ∧ d.get 24 4 ≠ 0 ∨ d.get 8 1 = 1 ∧ (2 ^ 18 ≤ d.get
          24 4 ∨ 73728 < d.get 24 4 % 2 ^ 17 + d.get 12 4))) &&
      decide (d.get 8 1 ≠ 1) &&
      (let s0 : State := (s.reserve d).getD s;
       decide (s0.bufShort (d.get 16 8) ((d.get 12 4 * if d.get 8 1 = 0 then 40 else if d.get 8 1 = 1 then 128 else if d.get 8 1 ≤ 3
           then 24 else 16) + if d.get 8 1 = 1 ∧ bitOf d.flags 0 = true then 2052 else 0) = false) &&
       (match ((s0.readBuf d Master.locusDma (d.get 16 8) ((d.get 12 4 * if d.get 8 1 = 0 then 40 else if d.get 8 1 = 1 then 128 else if d.get 8 1 ≤ 3 then 24 else 16) + if d.get 8 1 = 1 ∧ bitOf d.flags 0 = true then 2052 else 0)).fst) with
         | Except.error _ =>
           accepts d 1 [(8, 1), (12, 4), (16, 8), (24, 4)] s
         | _ => false)))) = true := by decide +kernel

/-- Hypotheses of Obligations.LocusTablesAndBucketLocks, part 4. -/
theorem witness_locus_tables_and_bucket_locks_4 :
    ((let d : Desc := dTblWrite 0 0;
      (let s : State := z;
       let c : Instr × Nat := (Instr.tblWriteInsert d, 0);
       decide (d.get 9 1 = c.snd) &&
       decide (¬(4 < d.get 8 1 ∨ d.get 8 1 = 1 ∨ d.get 12 4 = 0 ∨ 4096 < d.get 12 4 ∨ d.get 8 1 ≠ 0 ∧ c.snd = 3)) &&
       (let s0 : State := (s.reserve d).getD s;
        (match ((s0.readBuf d Master.locusDma (d.get 16 8) (d.get 12 4 * writeStride (d.get 8 1))).fst) with
          | Except.error _ =>
            accepts d 0 [(8, 2), (12, 4), (16, 8)] s
          | _ => false))) &&
      (let s : State := zm;
       let c : Instr × Nat := (Instr.tblWriteInsert d, 0);
       let s0 : State := (s.reserve d).getD s;
       decide (d.get 9 1 = c.snd) &&
       decide (¬(4 < d.get 8 1 ∨ d.get 8 1 = 1 ∨ d.get 12 4 = 0 ∨ 4096 < d.get 12 4 ∨ d.get 8 1 ≠ 0 ∧ c.snd = 3)) &&
       (match ((s0.readBuf d Master.locusDma (d.get 16 8) (d.get 12 4 * writeStride (d.get 8 1))).fst) with
         | Except.ok bs =>
           decide (d.opcode = 49) &&
           (match ((tblWriteGo d bs (d.get 12 4) 0 (s0.readBuf d Master.locusDma (d.get 16 8) (d.get 12 4 * writeStride (d.get 8 1))).snd).fst) with
             | TblRes.finish _ =>
               accepts d 0 [(8, 2), (12, 4), (16, 8)] s
             | _ => false)
         | _ => false))) &&
     (let bs : List Byte := List.replicate 40 0#8;
      let d : Desc := dTblRead 1 1 73727;
      let i : Nat := 589823;
      let u : State := zm;
      decide (¬(d.get 8 1 = 0 ∧ (u.candidates (entryOf (slice bs (i * writeStride (d.get 8 1)) (writeStride (d.get 8 1)))).profile
          (entryOf (slice bs (i * writeStride (d.get 8 1)) (writeStride (d.get 8 1)))).key).any (u.lockedFor (ringOwner d.ring.val)) =
          true)) &&
      decide ((u.writeRecord (d.get 8 1) (d.get 9 1) (slice bs (i * writeStride (d.get 8 1)) (writeStride (d.get 8 1)))).fst = none)) &&
     (let bs : List Byte := List.replicate 64 1#8;
      let d : Desc := dTblRead 0 1 0;
      let i : Nat := 0;
      let u : State := zm;
      decide (¬(d.get 8 1 = 0 ∧ (u.candidates (entryOf (slice bs (i * writeStride (d.get 8 1)) (writeStride (d.get 8 1)))).profile
          (entryOf (slice bs (i * writeStride (d.get 8 1)) (writeStride (d.get 8 1)))).key).any (u.lockedFor (ringOwner d.ring.val)) =
          true)) &&
      (match ((u.writeRecord (d.get 8 1) (d.get 9 1) (slice bs (i * writeStride (d.get 8 1)) (writeStride (d.get 8 1)))).fst) with
        | some _ =>
          true
        | _ => false)) &&
     (let r : List Byte := List.replicate 64 1#8;
      decide (leAt r 18 2 ≠ 0 ∨ bitOf (leAt r 17 1) 7 = true))) = true := by decide +kernel

/-- Hypotheses of Obligations.LocusTablesAndBucketLocks, part 5. -/
theorem witness_locus_tables_and_bucket_locks_5 :
    ((let r : List Byte := List.replicate 40 0#8;
      (let u : State := withEm false false;
       decide (¬(leAt r 18 2 ≠ 0 ∨ bitOf (leAt r 17 1) 7 = true)) &&
       (match (u.emFind (entryOf r).profile (entryOf r).key) with
         | some x =>
           decide (x.fst < 589824)
         | _ => false)) &&
      (let u : State := locus zm fun l => { l with em := [(589824, emz false false)] };
       decide (¬(leAt r 18 2 ≠ 0 ∨ bitOf (leAt r 17 1) 7 = true)) &&
       (match (u.emFind (entryOf r).profile (entryOf r).key) with
         | some x =>
           decide (589824 ≤ x.fst)
         | _ => false)) &&
      (let u : State := zm;
       decide (¬(leAt r 18 2 ≠ 0 ∨ bitOf (leAt r 17 1) 7 = true)) &&
       decide (u.emFind (entryOf r).profile (entryOf r).key = none))) &&
     (let op : Nat := 589823;
      let r : List Byte := List.replicate 40 0#8;
      let u : State := zm;
      decide (¬(leAt r 18 2 ≠ 0 ∨ bitOf (leAt r 17 1) 7 = true)) &&
      decide (u.emFind (entryOf r).profile (entryOf r).key = none) &&
      decide (0 < op) &&
      (match (writePrefix 32 524288 op u.locus.v4 r) with
        | Except.error _ =>
          true
        | _ => false) &&
      (match (writePrefix 128 131072 op u.locus.v6 r) with
        | Except.error _ =>
          true
        | _ => false)) &&
     (let op : Nat := 0;
      let r : List Byte := List.replicate 40 0#8;
      let u : State := zm;
      (match (writePrefix 32 524288 op u.locus.v4 r) with
        | Except.ok _ =>
          true
        | _ => false) &&
      (match (writePrefix 128 131072 op u.locus.v6 r) with
        | Except.ok _ =>
          true
        | _ => false)) &&
     (let d : Desc := cmd 0x032 [(0x20, 16)];
      let s : State := zm;
      decide (d.opcode = 50) &&
      decide (15 < d.get 32 1) &&
      accepts d 0 [(16, 17)] s) &&
     (let d : Desc := cmd 0x033 [(8, 1), (0xC, 0), (0x18, 5)];
      let s : State := zm;
      decide (d.opcode = 51) &&
      (let s0 : State := (s.reserve d).getD s;
       decide (s0.lockBuckets d = none) &&
       accepts d 0 (lockFields d) s))) = true := by decide +kernel

/-- Hypotheses of Obligations.LocusTablesAndBucketLocks, part 6. -/
theorem witness_locus_tables_and_bucket_locks_6 :
    ((let d : Desc := dTblLock;
      (let s : State := lockedBy 0x2001;
       let s0 : State := (s.reserve d).getD s;
       decide (d.opcode = 51) &&
       (match (s0.lockBuckets d) with
         | some bs =>
           decide (bs.any (s0.lockedFor (ringOwner d.ring.val)) = true) &&
           accepts d 0 (lockFields d) s
         | _ => false)) &&
      (let s : State := locus zm fun l => { l with locks := (List.range 64).map fun b => (100 + b, (ringOwner 0, 9)) };
       decide (d.opcode = 51) &&
       (let s0 : State := (s.reserve d).getD s;
        (match (s0.lockBuckets d) with
          | some bs =>
            decide (bs.any (s0.lockedFor (ringOwner d.ring.val)) = false) &&
            decide (64 < List.length (List.foldl (fun (t : Tbl (Nat × Nat)) (b : Nat) => tins t b (ringOwner d.ring.val, s0.clk + 1000000))
                s0.locus.locks bs)) &&
            accepts d 0 (lockFields d) s
          | _ => false))) &&
      (let s : State := zm;
       let s0 : State := (s.reserve d).getD s;
       decide (d.opcode = 51) &&
       (match (s0.lockBuckets d) with
         | some bs =>
           decide (bs.any (s0.lockedFor (ringOwner d.ring.val)) = false) &&
           decide (List.length (List.foldl (fun (t : Tbl (Nat × Nat)) (b : Nat) => tins t b (ringOwner d.ring.val, s0.clk + 1000000))
               s0.locus.locks bs) ≤ 64) &&
           accepts d 0 (lockFields d) s
         | _ => false)) &&
      (let s : State := lockedBy (ringOwner 0);
       let s0 : State := (s.reserve d).getD s;
       (match (s0.lockBuckets d) with
         | some bs =>
           decide (∀ (b : Nat), b ∈ bs → Option.map (fun (x : Nat × Nat) => x.fst) (s0.lockOf b) = some (ringOwner d.ring.val)) &&
           accepts d 0 (lockFields d) s
         | _ => false))) &&
     (let v_b : Nat := 5;
      let d : Desc := dTblLock;
      let s : State := zm;
      let s0 : State := (s.reserve d).getD s;
      decide (d.opcode = 51) &&
      (match (s0.lockBuckets d) with
        | some bs =>
          decide (bs.any (s0.lockedFor (ringOwner d.ring.val)) = false) &&
          decide (List.length (List.foldl (fun (t : Tbl (Nat × Nat)) (b : Nat) => tins t b (ringOwner d.ring.val, s0.clk + 1000000))
              s0.locus.locks bs) ≤ 64) &&
          accepts d 0 (lockFields d) s &&
          decide (v_b ∈ bs)
        | _ => false)) &&
     (let d : Desc := dFreeze;
      let s : State := zm;
      let s0 : State := (s.reserve d).getD s;
      decide (s0.lockBuckets d = none) &&
      accepts d 0 (lockFields d) s)) = true := by decide +kernel

/-- Hypotheses of Obligations.LocusTablesAndBucketLocks, part 7. -/
theorem witness_locus_tables_and_bucket_locks_7 :
    ((let u : State := locus zm fun l => { l with waits := [wLock] };
      let w : TblWait := wLock;
      decide (u.locus.waits = [w]) &&
      (match ((tblGo w u).fst) with
        | TblRes.finish _ =>
          true
        | _ => false)) &&
     (let u : State := sTblWait;
      (match (u.locus.waits) with
        | [w] =>
          (match ((tblGo w u).fst) with
            | TblRes.wait _ =>
              true
            | _ => false)
        | _ => false)) &&
     (let u : State := zm;
      decide (u.locus.waits = [])) &&
     (let v_ring : Fin 64 := r0;
      (let s : State := sTblWait;
       let v_tag : BitVec 16 := 7#16;
       (match (List.find? (fun (x : TblWait) => x.desc.ring == v_ring && x.desc.tag == v_tag.toNat) s.locus.waits) with
         | some _ =>
           true
         | _ => false)) &&
      (let s : State := zm;
       let v_tag : BitVec 16 := 7#16;
       decide (List.find? (fun (x : TblWait) => x.desc.ring == v_ring && x.desc.tag == v_tag.toNat) s.locus.waits = none))) &&
     (let b : BitVec 18 := b5;
      (let s : State := lockedBy 0x2001;
       (match (s.lockOf b.toNat) with
         | some (_, _) =>
           true
         | _ => false)) &&
      (let s : State := zm;
       decide (s.lockOf b.toNat = none)))) = true := by decide +kernel

/-- Hypotheses of Obligations.MailboxAnswersAndRelease, part 1. -/
theorem witness_mailbox_answers_and_release_1 :
    ((let m : Mbx := .compass;
      (let s : State := warned (holding z);
       (let src : Source := Source.compass;
        (let v : Word32 := 0#32;
         decide (s.apex.held = false) &&
         decide (src = Source.compass → s.halted = false) &&
         decide (src.mbx = m) &&
         decide (bitOf (BitVec.toNat v) 0 = false)) &&
        (let v : Word32 := 4294967295#32;
         decide (s.apex.held = false) &&
         decide ((s.mbx m).busy = false) &&
         decide (src = Source.compass → s.halted = false) &&
         decide (src.mbx = m) &&
         decide (bitOf (BitVec.toNat v) 0 = true))) &&
       (let c : Instr × Nat := (Instr.lcTransition m, 1);
        decide (s.apex.booted = false ∨ s.mbxTurn m = false ∨ (s.mbx m).code ≠ c.snd ∨ s.otherHeld m = true)) &&
       (match (s.apex.heldWrite) with
         | some h =>
           decide (h.mbx = m) &&
           decide (h.begun = false) &&
           decide (s.cpr.warn ≠ [])
         | _ => false)) &&
      (let s : State := asking 9 16 [];
       let src : Source := Source.compass;
       (let v : Word32 := 4294967295#32;
        decide (s.apex.held = false) &&
        decide ((s.mbx m).busy = true) &&
        decide (src = Source.compass → s.halted = false) &&
        decide (src.mbx = m) &&
        decide (bitOf (BitVec.toNat v) 0 = true)) &&
       decide (s.apex.held = false) &&
       decide ((s.mbx m).code ∈ mbxCodes) &&
       decide (src = Source.compass → s.halted = false) &&
       decide (src.mbx = m))) &&
     (let c : Instr × Nat := (Instr.dbgChallenge .debugPort, 16);
      let s : State := withApexF (askingD 9 16 []) fun a => { a with holdCode := 0xE1 };
      let m : Mbx := Mbx.debugPort;
      decide (s.apex.booted = true) &&
      decide (s.mbxTurn m = true) &&
      decide (s.otherHeld m = false) &&
      decide (s.apex.holdCode ≠ 0) &&
      decide ((s.mbx m).code = c.snd)) &&
     (let c : Instr × Nat := (Instr.dbgChallenge .compass, 16);
      let m : Mbx := .compass;
      let s : State := askingLong;
      decide (s.apex.booted = true) &&
      decide (s.mbxTurn m = true) &&
      decide (s.otherHeld m = false) &&
      decide (s.apex.holdCode = 0 ∨ m = Mbx.compass) &&
      decide (508 < (s.mbx m).len) &&
      decide ((s.mbx m).code = c.snd)) &&
     (let m : Mbx := Mbx.debugPort;
      let s : State := warned (holding z);
      (match (s.apex.heldWrite) with
        | some h =>
          decide (h.mbx ≠ m ∨ h.begun = true ∨ s.cpr.warn = [])
        | _ => false)) &&
     (let s : State := z;
      decide (s.apex.heldWrite = none))) = true := by decide +kernel

/-- Hypotheses of Obligations.MailboxAnswersAndRelease, part 2. -/
theorem witness_mailbox_answers_and_release_2 :
    ((let s : State := withApexF sBooted fun a => { a with measLock := true };
      decide (s.apex.booted = true) &&
      decide (s.rings.released = false) &&
      decide (s.apex.holdCode = 0) &&
      decide (s.lc ≠ 12) &&
      decide (s.axis.serving = true)) &&
     (let s : State := warned (holding z);
      decide (s.apex.booted = false ∨ s.rings.released = true ∨ s.apex.holdCode ≠ 0 ∨ s.lc = 12 ∨ s.axis.serving = false))) = true := by decide +kernel

/-- Hypotheses of Obligations.ManagementPortsMoveFrames, part 1. -/
theorem witness_management_ports_move_frames_1 :
    (let k : Fin 2 := 1;
     (let m : Fin 4 := 2;
      let s : State := sMgmt;
      let x : Ring := s.ring RingKind.management m.val;
      decide (s.halted = false) &&
      decide (x.state = RingState.running) &&
      decide (m.val = 2 * k.val) &&
      decide (x.cap < idxDiff (x.pi + BitVec.ofNat 17 (x.cap + 1)) x.pi) &&
      decide (idxDiff (x.pi + BitVec.ofNat 17 x.cap) x.pi ≤ x.cap)) &&
     (let s : State := sMgmt.setRing .management 3 { Ring.reset with state := .running, base := 0x1000, cap := 64, pi := 1 };
      decide ((s.ring RingKind.management (2 * k.val + 1)).state = RingState.running) &&
      decide ((s.ring RingKind.management (2 * k.val + 1)).ci ≠ (s.ring RingKind.management (2 * k.val + 1)).pi) &&
      (match ((s.readMem Master.annulus 0 ((s.ring RingKind.management (2 * k.val + 1)).slotAddr (s.ring RingKind.management (2 * k.val + 1)).ci.toNat 16) 16).fst) with
        | MemRead.data bs =>
          (match (((s.readMem Master.annulus 0 ((s.ring RingKind.management (2 * k.val + 1)).slotAddr (s.ring RingKind.management (2 * k.val + 1)).ci.toNat 16) 16).snd.readMem Master.annulus 0 (leAt bs 0 8) (leAt bs 8 2)).fst) with
            | MemRead.data _ =>
              true
            | _ => false)
        | _ => false)) &&
     (let s : State := z.setRing .management 3 { Ring.reset with state := .running, base := 0x1000, cap := 64, pi := 1 };
      decide ((s.ring RingKind.management (2 * k.val + 1)).state = RingState.running) &&
      decide ((s.ring RingKind.management (2 * k.val + 1)).ci ≠ (s.ring RingKind.management (2 * k.val + 1)).pi) &&
      decide ((s.readMem Master.annulus 0 ((s.ring RingKind.management (2 * k.val + 1)).slotAddr (s.ring RingKind.management (2 * k.val +
          1)).ci.toNat 16) 16).fst = MemRead.refused)) &&
     (let s : State := badLine.setRing .management 3 { Ring.reset with state := .running, base := 64, cap := 64, pi := 1 };
      decide ((s.ring RingKind.management (2 * k.val + 1)).state = RingState.running) &&
      decide ((s.ring RingKind.management (2 * k.val + 1)).ci ≠ (s.ring RingKind.management (2 * k.val + 1)).pi) &&
      decide ((s.readMem Master.annulus 0 ((s.ring RingKind.management (2 * k.val + 1)).slotAddr (s.ring RingKind.management (2 * k.val +
          1)).ci.toNat 16) 16).fst = MemRead.failed)) &&
     (let s : State := sMgmt.setRing .management 2 { Ring.reset with state := .running, base := 0x5000, cap := 64 };
      decide ((s.ring RingKind.management (2 * k.val)).state = RingState.running) &&
      (match ((s.readMem Master.annulus 0 ((s.ring RingKind.management (2 * k.val)).slotAddr (s.ring RingKind.management (2 * k.val)).pi.toNat 16) 16).fst) with
        | MemRead.data bs =>
          decide (bitOf (leAt bs 10 1) 7 = false)
        | _ => false))) = true := by decide +kernel

/-- Hypotheses of Obligations.ManagementPortsMoveFrames, part 2. -/
theorem witness_management_ports_move_frames_2 :
    ((let k : Fin 2 := mg1;
      (let m : Fin 4 := mr3;
       (let s : State := sMgmt;
        (let v : Word32 := 4294967295#32;
         decide (s.halted = false) &&
         decide ((s.ring RingKind.management m.val).state = RingState.running) &&
         decide (m.val = 2 * k.val + 1) &&
         decide ((s.ring RingKind.management m.val).cap < idxDiff (BitVec.ofNat 17 (BitVec.toNat v)) (s.ring RingKind.management
             m.val).ci)) &&
        (let v : Word32 := 1#32;
         decide (s.halted = false) &&
         decide (bitOf (s.mgmtCfg k.val) 31 = true) &&
         decide ((s.ring RingKind.management m.val).state = RingState.running) &&
         decide (m.val = 2 * k.val + 1) &&
         decide (idxDiff (BitVec.ofNat 17 (BitVec.toNat v)) (s.ring RingKind.management m.val).ci ≤ (s.ring RingKind.management
             m.val).cap))) &&
       (let s : State := withRing .management 3 { Ring.reset with state := .running };
        let v : Word32 := 0#32;
        decide (s.halted = false) &&
        decide (bitOf (s.mgmtCfg k.val) 31 = false) &&
        decide ((s.ring RingKind.management m.val).state = RingState.running) &&
        decide (m.val = 2 * k.val + 1) &&
        decide (idxDiff (BitVec.ofNat 17 (BitVec.toNat v)) (s.ring RingKind.management m.val).ci ≤ (s.ring RingKind.management m.val).cap))) &&
      (let s : State := sMgmt;
       (let up : Bool := false;
        decide (bitOf (s.mgmtCfg k.val) 31 = true) &&
        decide (bits (s.mgmtCfg k.val) 29 2 ≠ 3) &&
        decide (s.mgmtLink k.val ≠ up)) &&
       (let up : Bool := true;
        decide (up = true ∧ (bitOf (s.mgmtCfg k.val) 31 = false ∨ bits (s.mgmtCfg k.val) 29 2 = 3) ∨ s.mgmtLink k.val = up)))) &&
     (let m : Fin 4 := 0;
      let s : State := sMgmt;
      decide ((s.ring RingKind.management m.val).state ≠ RingState.running)) &&
     (let frame : List Byte := List.replicate 2049 0;
      let k : Fin 2 := 1;
      let s : State := sMgmt;
      decide (bitOf (s.mgmtCfg k.val) 31 = true) &&
      decide (s.mgmtLink k.val = true) &&
      decide (2048 < frame.length)) &&
     (let frame : List Byte := le 8 0x2000 ++ le 2 60 ++ [0x80] ++ List.replicate 5 0;
      let k : Fin 2 := mg1;
      let s : State := sMgmt;
      decide (bitOf (s.mgmtCfg k.val) 31 = true) &&
      decide (s.mgmtLink k.val = true) &&
      decide ((s.ring RingKind.management (2 * k.val)).promisc = false) &&
      decide (frame.length ≤ 2048) &&
      decide ((List.drop (frame.length - 4) frame == le 4 (Crypto.crc32 (List.take (frame.length - 4) frame)).toNat) = false))) = true := by decide +kernel

/-- Hypotheses of Obligations.ManagementPortsMoveFrames, part 3. -/
theorem witness_management_ports_move_frames_3 :
    ((let frame : List Byte := arbFrame;
      let k : Fin 2 := 1;
      let s : State := withPair sMgmt fun t => { t with lease := .standby, arbPort := true };
      decide (bitOf (s.mgmtCfg k.val) 31 = true) &&
      decide (s.mgmtLink k.val = true) &&
      decide (frame.length ≤ 2048) &&
      decide ((List.drop (frame.length - 4) frame == le 4 (Crypto.crc32 (List.take (frame.length - 4) frame)).toNat) = true) &&
      decide (s.fromArbiter k.val (List.take (frame.length - 4) frame) = true)) &&
     (let frame : List Byte := framed 64;
      let k : Fin 2 := mg1;
      let s : State := sMgmt;
      decide (bitOf (s.mgmtCfg k.val) 31 = true) &&
      decide (s.mgmtLink k.val = true) &&
      decide (frame.length ≤ 2048) &&
      decide ((List.drop (frame.length - 4) frame == le 4 (Crypto.crc32 (List.take (frame.length - 4) frame)).toNat) = true) &&
      decide (s.fromArbiter k.val (List.take (frame.length - 4) frame) = false) &&
      decide (s.mgmtAccepts k.val (List.take (frame.length - 4) frame) = false)) &&
     (let frame : List Byte := bcast;
      let k : Fin 2 := mg1;
      let s : State := sMgmt;
      decide (bitOf (s.mgmtCfg k.val) 31 = true) &&
      decide (s.mgmtLink k.val = true) &&
      decide (frame.length ≤ 2048) &&
      decide ((List.drop (frame.length - 4) frame == le 4 (Crypto.crc32 (List.take (frame.length - 4) frame)).toNat) = true ∨ (s.ring
          RingKind.management (2 * k.val)).promisc = true) &&
      decide ((List.drop (frame.length - 4) frame == le 4 (Crypto.crc32 (List.take (frame.length - 4) frame)).toNat) = false ∨
          s.fromArbiter k.val (List.take (frame.length - 4) frame) = false) &&
      decide (s.mgmtAccepts k.val (List.take (frame.length - 4) frame) = true)) &&
     (let k : Fin 2 := 0;
      let s : State := sMgmt;
      decide ((s.ring RingKind.management (2 * k.val)).state ≠ RingState.running) &&
      decide (bitOf (s.mgmtCfg k.val) 31 = false ∨ s.mgmtLink k.val = false))) = true := by decide +kernel

/-- Hypotheses of Obligations.ManagementPortsMoveFrames, part 4. -/
theorem witness_management_ports_move_frames_4 :
    (let bad : Bool := true;
     let f : List Byte := le 8 0x2000 ++ le 2 60 ++ [0x80] ++ List.replicate 5 0;
     let k : Fin 2 := mg1;
     let s : State := sMgmt;
     decide ((s.ring RingKind.management (2 * k.val)).state = RingState.running) &&
     (match ((s.readMem Master.annulus 0 ((s.ring RingKind.management (2 * k.val)).slotAddr (s.ring RingKind.management (2 * k.val)).pi.toNat 16) 16).fst) with
       | MemRead.data bs =>
         decide (bitOf (leAt bs 10 1) 7 = true) &&
         decide (((s.readMem Master.annulus 0 ((s.ring RingKind.management (2 * k.val)).slotAddr (s.ring RingKind.management (2 *
             k.val)).pi.toNat 16) 16).snd.writeMem Master.annulus 0 (leAt bs 0 8) f).fst = true) &&
         decide ((((s.readMem Master.annulus 0 ((s.ring RingKind.management (2 * k.val)).slotAddr (s.ring RingKind.management (2 *
             k.val)).pi.toNat 16) 16).snd.writeMem Master.annulus 0 (leAt bs 0 8) f).snd.writeMem Master.annulus 0 ((s.ring
             RingKind.management (2 * k.val)).slotAddr (s.ring RingKind.management (2 * k.val)).pi.toNat 16 + 8) (le 2 f.length ++
             [BitVec.ofNat 8 (2 * b2n (bitOf (leAt f 0 1) 0) + b2n bad)])).fst = true)
       | _ => false)) = true := by decide +kernel

/-- Hypotheses of Obligations.MemoryInstructionsAccessTheirSpace, part 1. -/
theorem witness_memory_instructions_access_their_space_1 :
    (let i : Issue := iss;
     (let s : State := prep z 0 (word 0x40 4 1 0 0 25769820144) withRegs;
      issuable i s) &&
     (let s : State := prep zm 0 (word 0x5F 0 0 0 0 0) onFailed;
      let x : Ins := nextIns i s;
      decide (x.op = 95) &&
      issuable i s) &&
     (let s : State := prep sItem 0 (word 0x60 4 1 0 0 196656) onItem;
      decide (i.t.cl < 16) &&
      (let x : Ins := nextIns i s;
       let s0 : State := issued i s;
       (match ((s0.thread i.t.cl i.t.key).item) with
         | some q =>
           (match (s0.item i.t.cl q) with
             | some it =>
               decide (((s0.thread i.t.cl i.t.key).gr x.a + BitVec.ofNat 64 (bits x.ext 0 16)).toNat + 2 ^ bits x.ext 16 3 ≤
                   it.bytes.length) &&
               issuable i s
             | _ => false)
         | _ => false))) &&
     (let j : Nat := 0;
      let s : State := prep sItem 0 (word 0x60 4 1 0 0 196656) onItem;
      decide (i.t.cl < 16) &&
      (let x : Ins := nextIns i s;
       let s0 : State := issued i s;
       (match ((s0.thread i.t.cl i.t.key).item) with
         | some q =>
           (match (s0.item i.t.cl q) with
             | some it =>
               decide (((s0.thread i.t.cl i.t.key).gr x.a + BitVec.ofNat 64 (bits x.ext 0 16)).toNat + 2 ^ bits x.ext 16 3 ≤
                   it.bytes.length) &&
               issuable i s &&
               decide (j + 1 ≤ ((s0.thread i.t.cl i.t.key).gr x.a + BitVec.ofNat 64 (bits x.ext 0 16)).toNat ∨ ((s0.thread i.t.cl
                   i.t.key).gr x.a + BitVec.ofNat 64 (bits x.ext 0 16)).toNat + 2 ^ bits x.ext 16 3 ≤ j)
             | _ => false)
         | _ => false)))) = true := by decide +kernel

/-- Hypotheses of Obligations.MemoryInstructionsAccessTheirSpace, part 2. -/
theorem witness_memory_instructions_access_their_space_2 :
    ((let ecc : Ecc := Ecc.clean;
      let i : Issue := iss;
      (let r : Instr × Nat := (Instr.cas iss .clean, 0x90);
       let s : State := prep zm 0 (word 0x90 1 3 2 0 0) withRegs;
       let x : Ins := nextIns i s;
       let s0 : State := issued i s;
       decide (scratchSize i.t.cl ≤ ((s0.thread i.t.cl i.t.key).gr x.a).toNat / 8 * 8 ∨ paramRange i.t.cl (((s0.thread i.t.cl
           i.t.key).gr x.a).toNat / 8 * 8) = true) &&
       issuable i s &&
       decide (x.op = r.snd) &&
       decide (r ∈ [(Instr.cas i ecc, 144), (Instr.fadd i ecc, 145)])) &&
      (let s : State := prep z 0 (word 0x90 4 1 2 0 0) withRegs;
       let x : Ins := nextIns i s;
       let s0 : State := issued i s;
       decide (x.op = 144) &&
       decide (¬(scratchSize i.t.cl ≤ ((s0.thread i.t.cl i.t.key).gr x.a).toNat / 8 * 8 ∨ paramRange i.t.cl (((s0.thread i.t.cl
           i.t.key).gr x.a).toNat / 8 * 8) = true)) &&
       issuable i s &&
       decide ((s0.scratchRead i.t.cl (((s0.thread i.t.cl i.t.key).gr x.a).toNat / 8 * 8) 8 ecc).fst = true)) &&
      (let s : State := prep z 0 (word 0x91 4 1 2 0 0) withRegs;
       let x : Ins := nextIns i s;
       let s0 : State := issued i s;
       decide (x.op = 145) &&
       decide (¬(scratchSize i.t.cl ≤ ((s0.thread i.t.cl i.t.key).gr x.a).toNat / 8 * 8 ∨ paramRange i.t.cl (((s0.thread i.t.cl
           i.t.key).gr x.a).toNat / 8 * 8) = true)) &&
       issuable i s &&
       decide ((s0.scratchRead i.t.cl (((s0.thread i.t.cl i.t.key).gr x.a).toNat / 8 * 8) 8 ecc).fst = true))) &&
     (let ecc : Ecc := Ecc.uncorrectable;
      let i : Issue := iss;
      let r : Instr × Nat := (Instr.cas i ecc, 144);
      let s : State := prep z 0 (word 0x90 4 1 2 0 0) withRegs;
      let x : Ins := nextIns i s;
      let s0 : State := issued i s;
      decide (¬(scratchSize i.t.cl ≤ ((s0.thread i.t.cl i.t.key).gr x.a).toNat / 8 * 8 ∨ paramRange i.t.cl (((s0.thread i.t.cl
          i.t.key).gr x.a).toNat / 8 * 8) = true)) &&
      issuable i s &&
      decide (x.op = r.snd) &&
      decide ((s0.scratchRead i.t.cl (((s0.thread i.t.cl i.t.key).gr x.a).toNat / 8 * 8) 8 ecc).fst = false)) &&
     (let v_a : Nat := 0;
      let ecc : Ecc := Ecc.clean;
      let i : Issue := iss;
      let m : Nat := 0;
      let s : State := prep z 0 (word 0x40 4 1 0 0 25769820144) withRegs;
      let s0 : State := issued i s;
      issuable i s &&
      decide ((s0.scratchRead i.t.cl v_a m ecc).fst = true))) = true := by decide +kernel

/-- Hypotheses of Obligations.MemoryWritesStoreTheirBytes. -/
theorem witness_memory_writes_store_their_bytes :
    ((let s : State := zm;
      decide (s.mem.wf = true)) &&
     (let a : Nat := 60;
      let bs : List Byte := List.replicate 8 1#8;
      let j : Nat := 59;
      let s : State := zm;
      decide (s.mem.wf = true) &&
      decide (j < a ∨ a + bs.length ≤ j)) &&
     (let a : Nat := 0x04000000;
      let bs : List Byte := List.replicate 8 1#8;
      let m : Master := .annulus;
      let s : State := zm;
      decide (s.mem.wf = true) &&
      decide (s.mayWrite m a bs.length = false)) &&
     (let a : Nat := 0;
      let bs : List Byte := [1];
      let m : Master := Master.annulus;
      let s : State := zm;
      decide (s.mem.wf = true) &&
      decide (∀ (l : Nat), l ∈ linesOf a bs.length →
          (match s.writeLine m l false with | LineOk.ok k => decide ((s.region k).integ = false) | _ => false) = true))) = true := by decide +kernel

/-- Hypotheses of Obligations.OrderingSendAndResyncCommands, part 1. -/
theorem witness_ordering_send_and_resync_commands_1 :
    ((let c : Instr × Nat × List (Nat × Nat) × Bool := (Instr.twinSolo dNop, 0, twinFields, false);
      let d : Desc := dNop;
      let s : State := z.setRing .command 0 { Ring.reset with state := .running, outs := [⟨dHandle0, true⟩] };
      decide (c.snd.snd.snd = false ∨ s.mayStart d = false)) &&
     (let c : Instr × Nat × List (Nat × Nat) × Bool := (Instr.twinSolo (dTwin 1), 0, twinFields, true);
      let d : Desc := dTwin 1;
      let s : State := (z.setRing .command 0 { Ring.reset with state := .running, outs := [⟨dTwin 1, false⟩] }).setRing .completion 0
          { Ring.reset with state := .running, cap := 0 };
      decide (s.mayStart d = true) &&
      decide (s.reserve d = none) &&
      decide (c.snd.snd.snd = true)) &&
     (let c : Instr × Nat × List (Nat × Nat) × Bool := (Instr.leaseStatus (dVersion 9), 0, [(16, 8)], true);
      let d : Desc := dVersion 9;
      let s : State := zm;
      decide (s.mayStart d = true) &&
      (match (s.reserve d) with
        | some s0 =>
          decide (c.snd.snd.snd = true) &&
          (match (headerStatus d (if c.fst = Instr.setInterfaceVersion d ∧ (d.version = 1 ∨ d.version = 2) then d.version else s0.versionFor d) c.snd.fst c.snd.snd.fst) with
            | some _ =>
              true
            | _ => false)
        | _ => false)) &&
     (let d : Desc := dNop;
      let s : State := z;
      accepts d 0 [] s &&
      (let s0 : State := z;
       decide (s.mayStart d = true) &&
       decide (s.reserve d = some s0) &&
       decide (d.version = 1 ∨ d.version = 2) &&
       decide (headerStatus d d.version 0 [(8, 1)] = none) &&
       decide (d.get 8 1 ≠ 1) &&
       decide (d.get 8 1 ≠ 2)) &&
      decide (4 ≤ d.get 19 1 ∨ 4096 ≤ d.get 20 2 ∨ 2 ^ 17 ≤ d.get 24 4 ∨ bitOf (d.get 18 1) 7 = true ∧ (bits (d.get 18 1) 4 3 ≠ 0 ∨
          d.get 16 2 = 0 ∨ 2048 < d.get 16 2) ∨ bitOf (d.get 18 1) 7 = false ∧ (d.get 16 2 < 60 ∨ 9212 < d.get 16 2)) &&
      accepts d 0 [(8, 20)] s &&
      (let s0 : State := (s.reserve d).getD s;
       decide (d.get 24 4 < { s0 with rings := { s0.rings with summaryGen := s0.rings.summaryGen + 1 } }.summary.length) &&
       accepts d 0 [(16, 12)] s)) &&
     (let d : Desc := dFenced;
      let s : State := sBehind;
      decide (s.mayStart d = false) &&
      (match ((s.ring RingKind.command d.ring.val).outs) with
        | o :: oq :: _ =>
          decide (o.desc ≠ d) &&
          decide (oq.desc = d) &&
          decide (oq.started = false) &&
          decide (d.fenced = true)
        | _ => false))) = true := by decide +kernel

/-- Hypotheses of Obligations.OrderingSendAndResyncCommands, part 2. -/
theorem witness_ordering_send_and_resync_commands_2 :
    ((let d : Desc := dVersion 2;
      (let s : State := z;
       let s0 : State := z;
       decide (s.mayStart d = true) &&
       decide (s.reserve d = some s0) &&
       decide (d.version = 1 ∨ d.version = 2) &&
       decide (headerStatus d d.version 0 [(8, 1)] = none) &&
       decide (d.get 8 1 = 1 ∨ d.get 8 1 = 2) &&
       decide (∀ (j : Nat), j < 64 → j ≠ d.ring.val → (s0.ring RingKind.command j).outs = [])) &&
      (let s : State := sOther;
       let s0 : State := sOther;
       decide (s.mayStart d = true) &&
       decide (s.reserve d = some s0) &&
       decide (d.version = 1 ∨ d.version = 2) &&
       decide (headerStatus d d.version 0 [(8, 1)] = none) &&
       decide (d.get 8 1 = 1 ∨ d.get 8 1 = 2) &&
       decide (∃ (j : Nat), j < 64 ∧ j ≠ d.ring.val ∧ (s0.ring RingKind.command j).outs ≠ []))) &&
     (let d : Desc := dSend 2048 0x8F;
      (let s : State := zm;
       let s0 : State := (s.reserve d).getD s;
       decide (d.get 19 1 < 4) &&
       decide (d.get 20 2 < 4096) &&
       decide (d.get 24 4 < 2 ^ 17) &&
       decide (bitOf (d.get 18 1) 7 = true) &&
       decide (bits (d.get 18 1) 4 3 = 0) &&
       decide (1 ≤ d.get 16 2) &&
       decide (d.get 16 2 ≤ 2048) &&
       (match ((s0.readMem Master.annulus (ringOwner d.ring.val) (d.get 8 8) (d.get 16 2)).fst) with
         | MemRead.data _ =>
           accepts d 0 [(8, 20)] s
         | _ => false)) &&
      (let s : State := z;
       let s0 : State := (s.reserve d).getD s;
       decide (d.get 19 1 < 4) &&
       decide (d.get 20 2 < 4096) &&
       decide (d.get 24 4 < 2 ^ 17) &&
       decide ((s0.readMem Master.annulus (ringOwner d.ring.val) (d.get 8 8) (d.get 16 2)).fst = MemRead.refused ∨ (s0.readMem
           Master.annulus (ringOwner d.ring.val) (d.get 8 8) (d.get 16 2)).fst = MemRead.failed) &&
       decide (bitOf (d.get 18 1) 7 = false → 60 ≤ d.get 16 2 ∧ d.get 16 2 ≤ 9212) &&
       decide (bitOf (d.get 18 1) 7 = true → bits (d.get 18 1) 4 3 = 0 ∧ 1 ≤ d.get 16 2 ∧ d.get 16 2 ≤ 2048) &&
       accepts d 0 [(8, 20)] s))) = true := by decide +kernel

/-- Hypotheses of Obligations.OrderingSendAndResyncCommands, part 3. -/
theorem witness_ordering_send_and_resync_commands_3 :
    (let d : Desc := dSend 60 0;
     (let s : State := ((zm.setReg 0x00800010 0).setReg 0x00800014 0);
      decide (d.get 19 1 < 4) &&
      decide (d.get 20 2 < 4096) &&
      decide (d.get 24 4 < 2 ^ 17) &&
      decide (bitOf (d.get 18 1) 7 = false) &&
      decide (60 ≤ d.get 16 2) &&
      decide (d.get 16 2 ≤ 9212) &&
      (let s0 : State := (s.reserve d).getD s;
       (match ((s0.readMem Master.annulus (ringOwner d.ring.val) (d.get 8 8) (d.get 16 2)).fst) with
         | MemRead.data bs =>
           decide (((s0.readMem Master.annulus (ringOwner d.ring.val) (d.get 8 8) (d.get 16 2)).snd.allocFrame (160 + d.ring.val)
               { id := 0, bytes := bs, fcs := none, keep := 0, cells := [], pool := 0, charge := 160 + d.ring.val, refs := [], lp := d.get 18 1 % 128, stamp := 0, unctl := decide (64 ≤ d.get 18 1 % 128) && bitOf (d.get 19 1) 0, sa := none, cut := false : TFrame }).fst
               = none) &&
           accepts d 0 [(8, 20)] s
         | _ => false))) &&
     (let s : State := zm;
      let s0 : State := (s.reserve d).getD s;
      decide (d.get 19 1 < 4) &&
      decide (d.get 20 2 < 4096) &&
      decide (d.get 24 4 < 2 ^ 17) &&
      decide (bitOf (d.get 18 1) 7 = false) &&
      decide (60 ≤ d.get 16 2) &&
      decide (d.get 16 2 ≤ 9212) &&
      (match ((s0.readMem Master.annulus (ringOwner d.ring.val) (d.get 8 8) (d.get 16 2)).fst) with
        | MemRead.data bs =>
          (match (((s0.readMem Master.annulus (ringOwner d.ring.val) (d.get 8 8) (d.get 16 2)).snd.allocFrame (160 + d.ring.val) { id := 0, bytes := bs, fcs := none, keep := 0, cells := [], pool := 0, charge := 160 + d.ring.val, refs := [], lp := d.get 18 1 % 128, stamp := 0, unctl := decide (64 ≤ d.get 18 1 % 128) && bitOf (d.get 19 1) 0, sa := none, cut := false : TFrame }).fst) with
            | some _ =>
              accepts d 0 [(8, 20)] s
            | _ => false)
        | _ => false))) = true := by decide +kernel

/-- Hypotheses of Obligations.OrderingSendAndResyncCommands, part 4. -/
theorem witness_ordering_send_and_resync_commands_4 :
    (let d : Desc := dResync 0x100000;
     (let s : State := zm;
      let s0 : State := (s.reserve d).getD s;
      decide ({ s0 with rings := { s0.rings with summaryGen := s0.rings.summaryGen + 1 } }.summary.length ≤ d.get 24 4) &&
      decide (({ s0 with rings := { s0.rings with summaryGen := s0.rings.summaryGen + 1 } }.writeMem Master.annulus (ringOwner d.ring.val)
          (d.get 16 8) { s0 with rings := { s0.rings with summaryGen := s0.rings.summaryGen + 1 } }.summary).fst = true) &&
      accepts d 0 [(16, 12)] s) &&
     (let s : State := z;
      let s0 : State := (s.reserve d).getD s;
      decide ({ s0 with rings := { s0.rings with summaryGen := s0.rings.summaryGen + 1 } }.summary.length ≤ d.get 24 4) &&
      decide (({ s0 with rings := { s0.rings with summaryGen := s0.rings.summaryGen + 1 } }.writeMem Master.annulus (ringOwner d.ring.val)
          (d.get 16 8) { s0 with rings := { s0.rings with summaryGen := s0.rings.summaryGen + 1 } }.summary).fst = false) &&
      accepts d 0 [(16, 12)] s)) = true := by decide +kernel

/-- Hypotheses of Obligations.PeripheralRowsMoveTheirBytes. -/
theorem witness_peripheral_rows_move_their_bytes :
    ((let k : Fin 2 := u0;
      (let s : State := z;
       decide ((s.uart k.val).tx = []) &&
       decide (¬(s.halted = false ∧ s.uartOn k.val = true)) &&
       decide ((s.uart k.val).rx = [])) &&
      (let s : State := uart0 { Uart.reset with tx := List.replicate 16 1 };
       (match ((s.uart k.val).tx) with
         | _ :: _ =>
           true
         | _ => false) &&
       decide (s.halted = false) &&
       decide (s.uartOn k.val = true) &&
       decide ((s.uart k.val).rx.length < 16)) &&
      (let s : State := uart0 { Uart.reset with rx := List.replicate 16 1 };
       decide (s.halted = false) &&
       decide (s.uartOn k.val = true) &&
       decide (16 ≤ (s.uart k.val).rx.length) &&
       (match ((s.uart k.val).rx) with
         | _ :: _ =>
           true
         | _ => false))) &&
     (let k : Fin 4 := i0;
      (let s : State := z;
       decide ((s.i2c k.val).cmd = none)) &&
      (let s : State := sI2cBusy;
       (match ((s.i2c k.val).cmd) with
         | some _ =>
           true
         | _ => false)))) = true := by decide +kernel

/-- Hypotheses of Obligations.PrismsMoveFramesAndItems, part 1. -/
theorem witness_prisms_move_frames_and_items_1 :
    ((let lp : Fin 64 := lp63;
      let s : State := z;
      decide (¬(s.receives (64 + lp.val) = true ∧ (s.lport (64 + lp.val)).mode ≠ some 7)) &&
      decide (s.receives lp.val = false ∨ s.attached lp.val = true ∨ s.pickFrame 0 lp.val = none) &&
      decide (¬s.receives (64 + lp.val) = true ∨ s.pickFrame 1 lp.val = none)) &&
     (let frame : List Byte := List.replicate 64 1#8;
      let lp : Fin 64 := lp0;
      let s : State := sUp;
      decide (s.receives (64 + lp.val) = true) &&
      decide ((s.lport (64 + lp.val)).mode ≠ some 7) &&
      decide (¬(4 ≤ frame.length ∧ fcsOk frame = true))) &&
     (let frame : List Byte := ether 0x800;
      (let lp : Fin 64 := lp0;
       let s : State := sUp;
       decide (s.receives (64 + lp.val) = true) &&
       decide ((s.lport (64 + lp.val)).mode ≠ some 7) &&
       decide (4 ≤ frame.length) &&
       decide (fcsOk frame = true) &&
       decide (frame.length ≤ 9248)) &&
      (let lp : Fin 64 := lp63;
       let s : State := z;
       decide (s.reorderUsed (s.rxPrism lp.val) true < 256) &&
       (match (s.staging (s.rxPrism lp.val) true (plainItem true lp.val (List.take (frame.length - 4) frame)).lines) with
         | some _ =>
           decide (beAt (List.take (frame.length - 4) frame) (clearTags (List.take (frame.length - 4) frame) (bits (s.lport (64 +
               lp.val)).macsec.toNat 24 2) 12) 2 ≠ 35045) &&
           decide (¬(beAt (List.take (frame.length - 4) frame) (clearTags (List.take (frame.length - 4) frame) (bits (s.lport (64 +
               lp.val)).macsec.toNat 24 2) 12) 2 ≠ 35045 ∧ ((s.lport (64 + lp.val)).uncontrolled (beAt (List.take (frame.length - 4)
               frame) (clearTags (List.take (frame.length - 4) frame) (bits (s.lport (64 + lp.val)).macsec.toNat 24 2) 12) 2) = true ∨
               bitOf (s.lport (64 + lp.val)).macsec.toNat 18 = true)))
         | _ => false)))) = true := by decide +kernel

/-- Hypotheses of Obligations.PrismsMoveFramesAndItems, part 2. -/
theorem witness_prisms_move_frames_and_items_2 :
    (let frame : List Byte := ether 0x888E;
     (let lp : Fin 64 := lp0;
      let s : State := sUp;
      decide (s.reorderUsed (s.rxPrism lp.val) true < 256) &&
      (match (s.staging (s.rxPrism lp.val) true (plainItem true lp.val (List.take (frame.length - 4) frame)).lines) with
        | some _ =>
          decide (beAt (List.take (frame.length - 4) frame) (clearTags (List.take (frame.length - 4) frame) (bits (s.lport (64 +
              lp.val)).macsec.toNat 24 2) 12) 2 ≠ 35045) &&
          decide (((s.lport (64 + lp.val)).uncontrolled (beAt (List.take (frame.length - 4) frame) (clearTags (List.take (frame.length -
              4) frame) (bits (s.lport (64 + lp.val)).macsec.toNat 24 2) 12) 2) = true ∨ bitOf (s.lport (64 + lp.val)).macsec.toNat 18 =
              true))
        | _ => false)) &&
     (let lp : Fin 64 := 0;
      let s : State := rxFull sUp;
      decide (beAt (List.take (frame.length - 4) frame) (clearTags (List.take (frame.length - 4) frame) (bits (s.lport (64 +
          lp.val)).macsec.toNat 24 2) 12) 2 ≠ 35045) &&
      decide (s.staging (s.rxPrism lp.val) true (plainItem true lp.val (List.take (frame.length - 4) frame)).lines = none ∨ 256 ≤
          s.reorderUsed (s.rxPrism lp.val) true))) = true := by decide +kernel

/-- Hypotheses of Obligations.PrismsMoveFramesAndItems, part 3. -/
theorem witness_prisms_move_frames_and_items_3 :
    (let frame : List Byte := ether 0x88E5;
     let lp : Fin 64 := 0;
     (let s : State := sUp;
      decide (s.reorderUsed (s.rxPrism lp.val) true < 256) &&
      decide (beAt (List.take (frame.length - 4) frame) (clearTags (List.take (frame.length - 4) frame) (bits (s.lport (64 +
          lp.val)).macsec.toNat 24 2) 12) 2 = 35045) &&
      (match (s.staging (s.rxPrism lp.val) true (newItem true lp.val (List.take (clearTags (List.take (frame.length - 4) frame) (bits (s.lport (64 + lp.val)).macsec.toNat 24 2) 12 + if bitOf (leAt (List.take (frame.length - 4) frame) (clearTags (List.take (frame.length - 4) frame) (bits (s.lport (64 + lp.val)).macsec.toNat 24 2) 12 + 2) 1) 5 = true then 16 else 8) (List.take (frame.length - 4) frame)) (List.take ((List.drop (clearTags (List.take (frame.length - 4) frame) (bits (s.lport (64 + lp.val)).macsec.toNat 24 2) 12 + if bitOf (leAt (List.take (frame.length - 4) frame) (clearTags (List.take (frame.length - 4) frame) (bits (s.lport (64 + lp.val)).macsec.toNat 24 2) 12 + 2) 1) 5 = true then 16 else 8) (List.take (frame.length - 4) frame)).length - 16) (List.drop (clearTags (List.take (frame.length - 4) frame) (bits (s.lport (64 + lp.val)).macsec.toNat 24 2) 12 + if bitOf (leAt (List.take (frame.length - 4) frame) (clearTags (List.take (frame.length - 4) frame) (bits (s.lport (64 + lp.val)).macsec.toNat 24 2) 12 + 2) 1) 5 = true then 16 else 8) (List.take (frame.length - 4) frame))) (List.replicate 16 0) (clearTags (List.take (frame.length - 4) frame) (bits (s.lport (64 + lp.val)).macsec.toNat 24 2) 12) 0 0).lines) with
        | some _ =>
          true
        | _ => false)) &&
     (let s : State := rxFull sUp;
      decide (beAt (List.take (frame.length - 4) frame) (clearTags (List.take (frame.length - 4) frame) (bits (s.lport (64 +
          lp.val)).macsec.toNat 24 2) 12) 2 = 35045) &&
      decide (s.staging (s.rxPrism lp.val) true (newItem true lp.val (List.take (clearTags (List.take (frame.length - 4) frame) (bits
          (s.lport (64 + lp.val)).macsec.toNat 24 2) 12 + if bitOf (leAt (List.take (frame.length - 4) frame) (clearTags (List.take
          (frame.length - 4) frame) (bits (s.lport (64 + lp.val)).macsec.toNat 24 2) 12 + 2) 1) 5 = true then 16 else 8) (List.take
          (frame.length - 4) frame)) (List.take ((List.drop (clearTags (List.take (frame.length - 4) frame) (bits (s.lport (64 +
          lp.val)).macsec.toNat 24 2) 12 + if bitOf (leAt (List.take (frame.length - 4) frame) (clearTags (List.take (frame.length - 4)
          frame) (bits (s.lport (64 + lp.val)).macsec.toNat 24 2) 12 + 2) 1) 5 = true then 16 else 8) (List.take (frame.length - 4)
          frame)).length - 16) (List.drop (clearTags (List.take (frame.length - 4) frame) (bits (s.lport (64 + lp.val)).macsec.toNat 24 2)
          12 + if bitOf (leAt (List.take (frame.length - 4) frame) (clearTags (List.take (frame.length - 4) frame) (bits (s.lport (64 +
          lp.val)).macsec.toNat 24 2) 12 + 2) 1) 5 = true then 16 else 8) (List.take (frame.length - 4) frame))) (List.replicate 16 0)
          (clearTags (List.take (frame.length - 4) frame) (bits (s.lport (64 + lp.val)).macsec.toNat 24 2) 12) 0 0).lines = none ∨ 256 ≤
          s.reorderUsed (s.rxPrism lp.val) true))) = true := by decide +kernel

/-- Hypotheses of Obligations.PrismsMoveFramesAndItems, part 4. -/
theorem witness_prisms_move_frames_and_items_4 :
    ((let body : List Byte := ether 0x800;
      let off : Nat := 2048;
      decide (bitOf (leAt body (off + 2) 1) 7 = true ∨ bitOf (leAt body (off + 2) 1) 6 = true ∧ bitOf (leAt body (off + 2) 1) 5 = true ∨
          bitOf (leAt body (off + 2) 1) 4 = true ∨ bitOf (leAt body (off + 2) 1) 3 ≠ bitOf (leAt body (off + 2) 1) 2 ∨ 64 ≤ leAt body
          (off + 3) 1 ∨ leAt body (off + 3) 1 ≠ 0 ∧ leAt body (off + 3) 1 ≠ (List.drop (off + if bitOf (leAt body (off + 2) 1) 5 =
          true then 16 else 8) body).length - 16 ∨ leAt body (off + 3) 1 = 0 ∧ (List.drop (off + if bitOf (leAt body (off + 2) 1) 5 =
          true then 16 else 8) body).length - 16 < 48 ∨ (List.drop (off + if bitOf (leAt body (off + 2) 1) 5 = true then 16 else 8)
          body).length < 18)) &&
     (let body : List Byte := List.replicate 2048 0#8;
      let lp : Fin 64 := lp63;
      let off : Nat := 0;
      let s : State := z;
      decide (¬(bitOf (leAt body (off + 2) 1) 7 = true ∨ bitOf (leAt body (off + 2) 1) 6 = true ∧ bitOf (leAt body (off + 2) 1) 5 = true
          ∨ bitOf (leAt body (off + 2) 1) 4 = true ∨ bitOf (leAt body (off + 2) 1) 3 ≠ bitOf (leAt body (off + 2) 1) 2 ∨ 64 ≤ leAt
          body (off + 3) 1 ∨ leAt body (off + 3) 1 ≠ 0 ∧ leAt body (off + 3) 1 ≠ (List.drop (off + if bitOf (leAt body (off + 2)
          1) 5 = true then 16 else 8) body).length - 16 ∨ leAt body (off + 3) 1 = 0 ∧ (List.drop (off + if bitOf (leAt body (off + 2) 1)
          5 = true then 16 else 8) body).length - 16 < 48 ∨ (List.drop (off + if bitOf (leAt body (off + 2) 1) 5 = true then 16 else 8)
          body).length < 18)) &&
      decide ((if bitOf (leAt body (off + 2) 1) 5 = true then some (BitVec.ofNat 64 (beAt body (off + 8) 8)) else if bitOf (leAt body (off + 2) 1) 6 = true then some (BitVec.ofNat 64 (65536 * beAt body 6 6 + 1)) else match s.rxScis lp.val with | [x] => some x | x => none) = none))) = true := by decide +kernel

/-- Hypotheses of Obligations.PrismsMoveFramesAndItems, part 5. -/
theorem witness_prisms_move_frames_and_items_5 :
    (let body : List Byte := secured 0 1 5;
     let lp : Fin 64 := 0;
     let off : Nat := 12;
     let s : State := withCtx sLine [(0, aRx)];
     decide (¬(bitOf (leAt body (off + 2) 1) 7 = true ∨ bitOf (leAt body (off + 2) 1) 6 = true ∧ bitOf (leAt body (off + 2) 1) 5 = true
         ∨ bitOf (leAt body (off + 2) 1) 4 = true ∨ bitOf (leAt body (off + 2) 1) 3 ≠ bitOf (leAt body (off + 2) 1) 2 ∨ 64 ≤ leAt body
         (off + 3) 1 ∨ leAt body (off + 3) 1 ≠ 0 ∧ leAt body (off + 3) 1 ≠ (List.drop (off + if bitOf (leAt body (off + 2) 1) 5 =
         true then 16 else 8) body).length - 16 ∨ leAt body (off + 3) 1 = 0 ∧ (List.drop (off + if bitOf (leAt body (off + 2) 1) 5 =
         true then 16 else 8) body).length - 16 < 48 ∨ (List.drop (off + if bitOf (leAt body (off + 2) 1) 5 = true then 16 else 8)
         body).length < 18)) &&
     (match (if bitOf (leAt body (off + 2) 1) 5 = true then some (BitVec.ofNat 64 (beAt body (off + 8) 8)) else if bitOf (leAt body (off + 2) 1) 6 = true then some (BitVec.ofNat 64 (65536 * beAt body 6 6 + 1)) else match s.rxScis lp.val with | [x] => some x | x => none) with
       | some v_x =>
         decide (¬v_x ∈ s.rxScis lp.val)
       | _ => false)) = true := by decide +kernel

/-- Hypotheses of Obligations.PrismsMoveFramesAndItems, part 6. -/
theorem witness_prisms_move_frames_and_items_6 :
    (let body : List Byte := secured 1 1 0x1122;
     let lp : Fin 64 := 0;
     let off : Nat := 12;
     let s : State := withCtx sLine [(0, aRx)];
     decide (¬(bitOf (leAt body (off + 2) 1) 7 = true ∨ bitOf (leAt body (off + 2) 1) 6 = true ∧ bitOf (leAt body (off + 2) 1) 5 = true
         ∨ bitOf (leAt body (off + 2) 1) 4 = true ∨ bitOf (leAt body (off + 2) 1) 3 ≠ bitOf (leAt body (off + 2) 1) 2 ∨ 64 ≤ leAt body
         (off + 3) 1 ∨ leAt body (off + 3) 1 ≠ 0 ∧ leAt body (off + 3) 1 ≠ (List.drop (off + if bitOf (leAt body (off + 2) 1) 5 =
         true then 16 else 8) body).length - 16 ∨ leAt body (off + 3) 1 = 0 ∧ (List.drop (off + if bitOf (leAt body (off + 2) 1) 5 =
         true then 16 else 8) body).length - 16 < 48 ∨ (List.drop (off + if bitOf (leAt body (off + 2) 1) 5 = true then 16 else 8)
         body).length < 18)) &&
     (match (if bitOf (leAt body (off + 2) 1) 5 = true then some (BitVec.ofNat 64 (beAt body (off + 8) 8)) else if bitOf (leAt body (off + 2) 1) 6 = true then some (BitVec.ofNat 64 (65536 * beAt body 6 6 + 1)) else match s.rxScis lp.val with | [x] => some x | x => none) with
       | some v_x =>
         decide (v_x ∈ s.rxScis lp.val) &&
         decide ((fun (x : BitVec 64) => List.find? (fun (e : Nat × Assoc) => e.snd.sci == x && e.snd.an.toNat == leAt body (off + 2) 1 % 4 &&
             (e.snd.status == AssocStatus.active || e.snd.status == AssocStatus.retiring || e.snd.status == AssocStatus.keyLost)) (s.rxSas
             lp.val)) v_x = none)
       | _ => false)) = true := by decide +kernel

/-- Hypotheses of Obligations.PrismsMoveFramesAndItems, part 7. -/
theorem witness_prisms_move_frames_and_items_7 :
    (let body : List Byte := secured 0 0 0x1122;
     let lp : Fin 64 := 0;
     let off : Nat := 12;
     let s : State := withCtx sLine [(0, aRx)];
     decide (¬(bitOf (leAt body (off + 2) 1) 7 = true ∨ bitOf (leAt body (off + 2) 1) 6 = true ∧ bitOf (leAt body (off + 2) 1) 5 = true
         ∨ bitOf (leAt body (off + 2) 1) 4 = true ∨ bitOf (leAt body (off + 2) 1) 3 ≠ bitOf (leAt body (off + 2) 1) 2 ∨ 64 ≤ leAt body
         (off + 3) 1 ∨ leAt body (off + 3) 1 ≠ 0 ∧ leAt body (off + 3) 1 ≠ (List.drop (off + if bitOf (leAt body (off + 2) 1) 5 =
         true then 16 else 8) body).length - 16 ∨ leAt body (off + 3) 1 = 0 ∧ (List.drop (off + if bitOf (leAt body (off + 2) 1) 5 =
         true then 16 else 8) body).length - 16 < 48 ∨ (List.drop (off + if bitOf (leAt body (off + 2) 1) 5 = true then 16 else 8)
         body).length < 18)) &&
     (match (if bitOf (leAt body (off + 2) 1) 5 = true then some (BitVec.ofNat 64 (beAt body (off + 8) 8)) else if bitOf (leAt body (off + 2) 1) 6 = true then some (BitVec.ofNat 64 (65536 * beAt body 6 6 + 1)) else match s.rxScis lp.val with | [x] => some x | x => none) with
       | some v_x =>
         decide (v_x ∈ s.rxScis lp.val) &&
         (match ((fun (x : BitVec 64) => List.find? (fun (e : Nat × Assoc) => e.snd.sci == x && e.snd.an.toNat == leAt body (off + 2) 1 % 4 && (e.snd.status == AssocStatus.active || e.snd.status == AssocStatus.retiring || e.snd.status == AssocStatus.keyLost)) (s.rxSas lp.val)) v_x) with
           | some (_, a) =>
             decide (a.recoverPn (beAt body (off + 4) 4) = 0)
           | _ => false)
       | _ => false)) = true := by decide +kernel

/-- Hypotheses of Obligations.PrismsMoveFramesAndItems, part 8. -/
theorem witness_prisms_move_frames_and_items_8 :
    (let body : List Byte := secured 0 1 0x1122;
     let lp : Fin 64 := 0;
     let off : Nat := 12;
     (let s : State := withCtx sLine [(0, { aRx with status := .keyLost })];
      decide (¬(bitOf (leAt body (off + 2) 1) 7 = true ∨ bitOf (leAt body (off + 2) 1) 6 = true ∧ bitOf (leAt body (off + 2) 1) 5 = true
          ∨ bitOf (leAt body (off + 2) 1) 4 = true ∨ bitOf (leAt body (off + 2) 1) 3 ≠ bitOf (leAt body (off + 2) 1) 2 ∨ 64 ≤ leAt
          body (off + 3) 1 ∨ leAt body (off + 3) 1 ≠ 0 ∧ leAt body (off + 3) 1 ≠ (List.drop (off + if bitOf (leAt body (off + 2)
          1) 5 = true then 16 else 8) body).length - 16 ∨ leAt body (off + 3) 1 = 0 ∧ (List.drop (off + if bitOf (leAt body (off + 2) 1)
          5 = true then 16 else 8) body).length - 16 < 48 ∨ (List.drop (off + if bitOf (leAt body (off + 2) 1) 5 = true then 16 else 8)
          body).length < 18)) &&
      (match (if bitOf (leAt body (off + 2) 1) 5 = true then some (BitVec.ofNat 64 (beAt body (off + 8) 8)) else if bitOf (leAt body (off + 2) 1) 6 = true then some (BitVec.ofNat 64 (65536 * beAt body 6 6 + 1)) else match s.rxScis lp.val with | [x] => some x | x => none) with
        | some v_x =>
          decide (v_x ∈ s.rxScis lp.val) &&
          (match ((fun (x : BitVec 64) => List.find? (fun (e : Nat × Assoc) => e.snd.sci == x && e.snd.an.toNat == leAt body (off + 2) 1 % 4 && (e.snd.status == AssocStatus.active || e.snd.status == AssocStatus.retiring || e.snd.status == AssocStatus.keyLost)) (s.rxSas lp.val)) v_x) with
            | some (_, a) =>
              decide (a.recoverPn (beAt body (off + 4) 4) ≠ 0) &&
              decide (a.status = AssocStatus.keyLost)
            | _ => false)
        | _ => false)) &&
     (let s : State := withCtx sLine [(0, { aRx with status := .retiring })];
      decide (¬(bitOf (leAt body (off + 2) 1) 7 = true ∨ bitOf (leAt body (off + 2) 1) 6 = true ∧ bitOf (leAt body (off + 2) 1) 5 = true
          ∨ bitOf (leAt body (off + 2) 1) 4 = true ∨ bitOf (leAt body (off + 2) 1) 3 ≠ bitOf (leAt body (off + 2) 1) 2 ∨ 64 ≤ leAt
          body (off + 3) 1 ∨ leAt body (off + 3) 1 ≠ 0 ∧ leAt body (off + 3) 1 ≠ (List.drop (off + if bitOf (leAt body (off + 2)
          1) 5 = true then 16 else 8) body).length - 16 ∨ leAt body (off + 3) 1 = 0 ∧ (List.drop (off + if bitOf (leAt body (off + 2) 1)
          5 = true then 16 else 8) body).length - 16 < 48 ∨ (List.drop (off + if bitOf (leAt body (off + 2) 1) 5 = true then 16 else 8)
          body).length < 18)) &&
      (match (if bitOf (leAt body (off + 2) 1) 5 = true then some (BitVec.ofNat 64 (beAt body (off + 8) 8)) else if bitOf (leAt body (off + 2) 1) 6 = true then some (BitVec.ofNat 64 (65536 * beAt body 6 6 + 1)) else match s.rxScis lp.val with | [x] => some x | x => none) with
        | some v_x =>
          decide (v_x ∈ s.rxScis lp.val) &&
          (match ((fun (x : BitVec 64) => List.find? (fun (e : Nat × Assoc) => e.snd.sci == x && e.snd.an.toNat == leAt body (off + 2) 1 % 4 && (e.snd.status == AssocStatus.active || e.snd.status == AssocStatus.retiring || e.snd.status == AssocStatus.keyLost)) (s.rxSas lp.val)) v_x) with
            | some (_, a) =>
              decide (a.recoverPn (beAt body (off + 4) 4) ≠ 0) &&
              decide (a.status = AssocStatus.retiring)
            | _ => false)
        | _ => false)) &&
     (let s : State := withCtx (sLine.setLport 64 { pLine with macsec := 0x00080000 }) [(0, { aRx with next := 9 })];
      decide (bitOf (s.lport (64 + lp.val)).macsec.toNat 19 = true) &&
      decide (¬(bitOf (leAt body (off + 2) 1) 7 = true ∨ bitOf (leAt body (off + 2) 1) 6 = true ∧ bitOf (leAt body (off + 2) 1) 5 = true
          ∨ bitOf (leAt body (off + 2) 1) 4 = true ∨ bitOf (leAt body (off + 2) 1) 3 ≠ bitOf (leAt body (off + 2) 1) 2 ∨ 64 ≤ leAt
          body (off + 3) 1 ∨ leAt body (off + 3) 1 ≠ 0 ∧ leAt body (off + 3) 1 ≠ (List.drop (off + if bitOf (leAt body (off + 2)
          1) 5 = true then 16 else 8) body).length - 16 ∨ leAt body (off + 3) 1 = 0 ∧ (List.drop (off + if bitOf (leAt body (off + 2) 1)
          5 = true then 16 else 8) body).length - 16 < 48 ∨ (List.drop (off + if bitOf (leAt body (off + 2) 1) 5 = true then 16 else 8)
          body).length < 18)) &&
      (match (if bitOf (leAt body (off + 2) 1) 5 = true then some (BitVec.ofNat 64 (beAt body (off + 8) 8)) else if bitOf (leAt body (off + 2) 1) 6 = true then some (BitVec.ofNat 64 (65536 * beAt body 6 6 + 1)) else match s.rxScis lp.val with | [x] => some x | x => none) with
        | some v_x =>
          decide (v_x ∈ s.rxScis lp.val) &&
          (match ((fun (x : BitVec 64) => List.find? (fun (e : Nat × Assoc) => e.snd.sci == x && e.snd.an.toNat == leAt body (off + 2) 1 % 4 && (e.snd.status == AssocStatus.active || e.snd.status == AssocStatus.retiring || e.snd.status == AssocStatus.keyLost)) (s.rxSas lp.val)) v_x) with
            | some (_, a) =>
              decide (a.recoverPn (beAt body (off + 4) 4) ≠ 0) &&
              decide (a.status = AssocStatus.active) &&
              decide (a.recoverPn (beAt body (off + 4) 4) < a.nextN)
            | _ => false)
        | _ => false)) &&
     (let s : State := withCtx sLine [(0, aRx)];
      decide (¬(bitOf (leAt body (off + 2) 1) 7 = true ∨ bitOf (leAt body (off + 2) 1) 6 = true ∧ bitOf (leAt body (off + 2) 1) 5 = true
          ∨ bitOf (leAt body (off + 2) 1) 4 = true ∨ bitOf (leAt body (off + 2) 1) 3 ≠ bitOf (leAt body (off + 2) 1) 2 ∨ 64 ≤ leAt
          body (off + 3) 1 ∨ leAt body (off + 3) 1 ≠ 0 ∧ leAt body (off + 3) 1 ≠ (List.drop (off + if bitOf (leAt body (off + 2)
          1) 5 = true then 16 else 8) body).length - 16 ∨ leAt body (off + 3) 1 = 0 ∧ (List.drop (off + if bitOf (leAt body (off + 2) 1)
          5 = true then 16 else 8) body).length - 16 < 48 ∨ (List.drop (off + if bitOf (leAt body (off + 2) 1) 5 = true then 16 else 8)
          body).length < 18)) &&
      (match (if bitOf (leAt body (off + 2) 1) 5 = true then some (BitVec.ofNat 64 (beAt body (off + 8) 8)) else if bitOf (leAt body (off + 2) 1) 6 = true then some (BitVec.ofNat 64 (65536 * beAt body 6 6 + 1)) else match s.rxScis lp.val with | [x] => some x | x => none) with
        | some v_x =>
          decide (v_x ∈ s.rxScis lp.val) &&
          (match ((fun (x : BitVec 64) => List.find? (fun (e : Nat × Assoc) => e.snd.sci == x && e.snd.an.toNat == leAt body (off + 2) 1 % 4 && (e.snd.status == AssocStatus.active || e.snd.status == AssocStatus.retiring || e.snd.status == AssocStatus.keyLost)) (s.rxSas lp.val)) v_x) with
            | some (_, a) =>
              decide (a.recoverPn (beAt body (off + 4) 4) ≠ 0) &&
              decide (a.status = AssocStatus.active) &&
              decide (¬(bitOf (s.lport (64 + lp.val)).macsec.toNat 19 = true ∧ a.recoverPn (beAt body (off + 4) 4) < a.nextN))
            | _ => false)
        | _ => false))) = true := by decide +kernel

/-- Hypotheses of Obligations.PrismsMoveFramesAndItems, part 9. -/
theorem witness_prisms_move_frames_and_items_9 :
    ((let lp : Fin 64 := 0;
      (let s : State := { sOutC with tess := z.tess };
       decide (s.receives lp.val = true) &&
       decide (s.attached lp.val = false) &&
       (match (s.pickFrame 0 lp.val) with
         | some (g, q) =>
           (match (s.takeHead 0 lp.val g q) with
             | some (e, w) =>
               decide (w.frame e.frame = none)
             | _ => false)
         | _ => false)) &&
      (let s : State := sOutL.setCluster 0 { Cluster.reset with pause := some false };
       decide (s.receives (64 + lp.val) = true) &&
       (match (s.pickFrame 1 lp.val) with
         | some (_, q) =>
           (match ((s.sq 1 q).head?) with
             | some e =>
               (match (s.frame e.frame) with
                 | some f =>
                   decide (¬((s.staging (lp.val / 4) false
                       (match s.txTake lp.val q e f with | TxTake.item i => i.lines | x => (f.bytes.length + 127) / 128)).isSome = true
                       ∧ s.reorderUsed (lp.val / 4) false < 256 ∧ ((s.cluster (lp.val / 4)).pause = none ∨ e.unctl = true)))
                 | _ => false)
             | _ => false)
         | _ => false)) &&
      (let s : State := sOutL.setCluster 0 { Cluster.reset with threads := busy8 };
       decide (s.receives (64 + lp.val) = true) &&
       (match (s.pickFrame 1 lp.val) with
         | some (_, q) =>
           (match ((s.sq 1 q).head?) with
             | some e =>
               (match (s.frame e.frame) with
                 | some f =>
                   decide ((s.staging (lp.val / 4) false
                       (match s.txTake lp.val q e f with | TxTake.item i => i.lines | x => (f.bytes.length + 127) / 128)).isSome = true) &&
                   decide (s.reorderUsed (lp.val / 4) false < 256) &&
                   decide (((s.cluster (lp.val / 4)).pause = none ∨ e.unctl = true)) &&
                   decide (¬(e.unctl = true ∨ e.sc = none ∨ s.waitingItems (lp.val / 4) < s.idleThreads (lp.val / 4)))
                 | _ => false)
             | _ => false)
         | _ => false))) &&
     (let e : QEntry := eOutC;
      let lp : Fin 64 := lp0;
      let s : State := sOutC;
      let w : State := wOut sOutC 0;
      decide (s.receives lp.val = true) &&
      decide (s.attached lp.val = false) &&
      (match (s.pickFrame 0 lp.val) with
        | some (g, q) =>
          decide (s.takeHead 0 lp.val g q = some (e, w)) &&
          (match (w.frame e.frame) with
            | some _ =>
              true
            | _ => false)
        | _ => false))) = true := by decide +kernel

/-- Hypotheses of Obligations.PrismsMoveFramesAndItems, part 10. -/
theorem witness_prisms_move_frames_and_items_10 :
    (let ecc : Ecc := .clean;
     let lp : Fin 64 := lp0;
     let s : State := sOutL;
     let w : State := wOut sOutL 1;
     decide (s.receives (64 + lp.val) = true) &&
     (match (s.pickFrame 1 lp.val) with
       | some (g, q) =>
         (match ((s.sq 1 q).head?) with
           | some e =>
             (match (s.frame e.frame) with
               | some f =>
                 decide ((s.staging (lp.val / 4) false
                     (match s.txTake lp.val q e f with | TxTake.item i => i.lines | x => (f.bytes.length + 127) / 128)).isSome = true) &&
                 decide (s.reorderUsed (lp.val / 4) false < 256) &&
                 decide (((s.cluster (lp.val / 4)).pause = none ∨ e.unctl = true)) &&
                 decide (e.unctl = true ∨ e.sc = none ∨ s.waitingItems (lp.val / 4) < s.idleThreads (lp.val / 4)) &&
                 decide (s.takeHead 1 lp.val g q = some (e, w)) &&
                 decide ((ecc == Ecc.uncorrectable) = false ∨ (if (ecc == Ecc.uncorrectable) = true then ((w.holdFrame f.id none (some (128
                     + lp.val / 4))).readFrame f.id ecc f.bytes).snd.draw 1 else (0, ((w.holdFrame f.id none (some (128 + lp.val /
                     4))).readFrame f.id ecc f.bytes).snd)).fst ≠ 0) &&
                 (match (((if (ecc == Ecc.uncorrectable) = true then ((w.holdFrame f.id none (some (128 + lp.val / 4))).readFrame f.id ecc f.bytes).snd.draw 1 else (0, ((w.holdFrame f.id none (some (128 + lp.val / 4))).readFrame f.id ecc f.bytes).snd)).snd.setUnit (lp.val / 4) ({ (if (ecc == Ecc.uncorrectable) = true then ((w.holdFrame f.id none (some (128 + lp.val / 4))).readFrame f.id ecc f.bytes).snd.draw 1 else (0, ((w.holdFrame f.id none (some (128 + lp.val / 4))).readFrame f.id ecc f.bytes).snd)).snd.unit (lp.val / 4) with stalled := List.filter (fun (x : Nat) => x != f.id) ((if (ecc == Ecc.uncorrectable) = true then ((w.holdFrame f.id none (some (128 + lp.val / 4))).readFrame f.id ecc f.bytes).snd.draw 1 else (0, ((w.holdFrame f.id none (some (128 + lp.val / 4))).readFrame f.id ecc f.bytes).snd)).snd.unit (lp.val / 4)).stalled })).txTake lp.val q e { f with bytes := ((w.holdFrame f.id none (some (128 + lp.val / 4))).readFrame f.id ecc f.bytes).fst }) with
                   | TxTake.item v_i =>
                     (match (((if (ecc == Ecc.uncorrectable) = true then ((w.holdFrame f.id none (some (128 + lp.val / 4))).readFrame f.id ecc f.bytes).snd.draw 1 else (0, ((w.holdFrame f.id none (some (128 + lp.val / 4))).readFrame f.id ecc f.bytes).snd)).snd.setUnit (lp.val / 4) ({ (if (ecc == Ecc.uncorrectable) = true then ((w.holdFrame f.id none (some (128 + lp.val / 4))).readFrame f.id ecc f.bytes).snd.draw 1 else (0, ((w.holdFrame f.id none (some (128 + lp.val / 4))).readFrame f.id ecc f.bytes).snd)).snd.unit (lp.val / 4) with stalled := List.filter (fun (x : Nat) => x != f.id) ((if (ecc == Ecc.uncorrectable) = true then ((w.holdFrame f.id none (some (128 + lp.val / 4))).readFrame f.id ecc f.bytes).snd.draw 1 else (0, ((w.holdFrame f.id none (some (128 + lp.val / 4))).readFrame f.id ecc f.bytes).snd)).snd.unit (lp.val / 4)).stalled })).staging (lp.val / 4) false v_i.lines) with
                       | some _ =>
                         true
                       | _ => false)
                   | _ => false)
               | _ => false)
           | _ => false)
       | _ => false)) = true := by decide +kernel

/-- Hypotheses of Obligations.PrismsMoveFramesAndItems, part 11. -/
theorem witness_prisms_move_frames_and_items_11 :
    (let n : Fin 16 := fp0;
     (let s : State := z;
      decide (List.find? (s.mayDispatch n.val) (s.unit n.val).items = none)) &&
     (let s : State := sClosingLine;
      (match (List.find? (s.mayDispatch n.val) (s.unit n.val).items) with
        | some i =>
          decide ((s.cluster n.val).pause = none) &&
          decide
              ((match (s.cluster n.val).active with | some h => ((Option.map (fun (x : Image) => x.entries) ((s.cluster n.val).half h)).getD []).getD (2 * i.kind + b2n i.recv) 4294967295 | none => 4294967295)
              = 4294967295)
        | _ => false)) &&
     (let s : State := sNoThread;
      (match (List.find? (s.mayDispatch n.val) (s.unit n.val).items) with
        | some i =>
          decide ((s.cluster n.val).pause = none) &&
          decide
              ((match (s.cluster n.val).active with | some h => ((Option.map (fun (x : Image) => x.entries) ((s.cluster n.val).half h)).getD []).getD (2 * i.kind + b2n i.recv) 4294967295 | none => 4294967295)
              ≠ 4294967295) &&
          decide (s.freeThread n.val = none)
        | _ => false)) &&
     (let s : State := sDispatch;
      (match (List.find? (s.mayDispatch n.val) (s.unit n.val).items) with
        | some i =>
          decide ((s.cluster n.val).pause = none) &&
          decide
              ((match (s.cluster n.val).active with | some h => ((Option.map (fun (x : Image) => x.entries) ((s.cluster n.val).half h)).getD []).getD (2 * i.kind + b2n i.recv) 4294967295 | none => 4294967295)
              ≠ 4294967295) &&
          (match (s.freeThread n.val) with
            | some _ =>
              decide (i.kind ≠ 3)
            | _ => false)
        | _ => false) &&
      (let shipped : Bool := false;
       (match (List.find? (s.mayDispatch n.val) (s.unit n.val).items) with
         | some i =>
           decide ((s.cluster n.val).pause = none) &&
           decide
               ((match (s.cluster n.val).active with | some h => ((Option.map (fun (x : Image) => x.entries) ((s.cluster n.val).half h)).getD []).getD (2 * i.kind + b2n i.recv) 4294967295 | none => 4294967295)
               ≠ 4294967295) &&
           (match (s.freeThread n.val) with
             | some _ =>
               decide (i.kind ≠ 3) &&
               decide ((shipped && s.runsShipped n.val) = false)
             | _ => false)
         | _ => false)))) = true := by decide +kernel

/-- Hypotheses of Obligations.PrismsMoveFramesAndItems, part 12. -/
theorem witness_prisms_move_frames_and_items_12 :
    (let n : Fin 16 := 0;
     (let s : State := (withItem zm wWaiting).setCluster 0 { Cluster.reset with low := some im8, active := some false, pause := some false };
      (match (List.find? (s.mayDispatch n.val) (s.unit n.val).items) with
        | some _ =>
          decide ((s.cluster n.val).pause ≠ none)
        | _ => false)) &&
     (let s : State := (withItem zm { wWaiting with kind := 3 }).setCluster 0 { Cluster.reset with low := some im8, active := some false };
      (match (List.find? (s.mayDispatch n.val) (s.unit n.val).items) with
        | some i =>
          decide ((s.cluster n.val).pause = none) &&
          decide
              ((match (s.cluster n.val).active with | some h => ((Option.map (fun (x : Image) => x.entries) ((s.cluster n.val).half h)).getD []).getD (2 * i.kind + b2n i.recv) 4294967295 | none => 4294967295)
              ≠ 4294967295) &&
          (match (s.freeThread n.val) with
            | some _ =>
              decide (i.kind = 3)
            | _ => false)
        | _ => false)) &&
     (let s : State := sShipped;
      let shipped : Bool := true;
      (match (List.find? (s.mayDispatch n.val) (s.unit n.val).items) with
        | some i =>
          decide ((s.cluster n.val).pause = none) &&
          decide
              ((match (s.cluster n.val).active with | some h => ((Option.map (fun (x : Image) => x.entries) ((s.cluster n.val).half h)).getD []).getD (2 * i.kind + b2n i.recv) 4294967295 | none => 4294967295)
              ≠ 4294967295) &&
          (match (s.freeThread n.val) with
            | some _ =>
              decide (i.kind ≠ 3) &&
              decide ((shipped && s.runsShipped n.val) = true)
            | _ => false)
        | _ => false))) = true := by decide +kernel

/-- Hypotheses of Obligations.PrismsMoveFramesAndItems, part 13. -/
theorem witness_prisms_move_frames_and_items_13 :
    (let dir : Dir := Dir.transmit;
     (let v_lp : Fin 64 := lp63;
      let s : State := z;
      decide (List.find? (fun (i : Item) => i.kind != 3 && i.recv == (dir == Dir.receive) && i.lp == v_lp.val) ((s.setUnit (if (dir ==
          Dir.receive) = true then s.rxPrism v_lp.val else v_lp.val / 4)
          ({ s.unit (if (dir == Dir.receive) = true then s.rxPrism v_lp.val else v_lp.val / 4) with items := List.filter (fun (i : Item) => !(List.map (fun (x : Item) => x.seq) (List.takeWhile (fun (i : Item) => i.stage == ItemStage.dropped && i.kind == 0) (List.filter (fun (i : Item) => i.kind != 3 && i.recv == (dir == Dir.receive) && i.lp == v_lp.val) (s.unit (if (dir == Dir.receive) = true then s.rxPrism v_lp.val else v_lp.val / 4)).items))).contains i.seq) (s.unit (if (dir == Dir.receive) = true then s.rxPrism v_lp.val else v_lp.val / 4)).items })).unit
          (if (dir == Dir.receive) = true then s.rxPrism v_lp.val else v_lp.val / 4)).items = none)) &&
     (let v_lp : Fin 64 := 0;
      (let s : State := withItem z { wItem with kind := 1, stage := .plain };
       (match (List.find? (fun (i : Item) => i.kind != 3 && i.recv == (dir == Dir.receive) && i.lp == v_lp.val) ((s.setUnit (if (dir == Dir.receive) = true then s.rxPrism v_lp.val else v_lp.val / 4) ({ s.unit (if (dir == Dir.receive) = true then s.rxPrism v_lp.val else v_lp.val / 4) with items := List.filter (fun (i : Item) => !(List.map (fun (x : Item) => x.seq) (List.takeWhile (fun (i : Item) => i.stage == ItemStage.dropped && i.kind == 0) (List.filter (fun (i : Item) => i.kind != 3 && i.recv == (dir == Dir.receive) && i.lp == v_lp.val) (s.unit (if (dir == Dir.receive) = true then s.rxPrism v_lp.val else v_lp.val / 4)).items))).contains i.seq) (s.unit (if (dir == Dir.receive) = true then s.rxPrism v_lp.val else v_lp.val / 4)).items })).unit (if (dir == Dir.receive) = true then s.rxPrism v_lp.val else v_lp.val / 4)).items) with
         | some v_i =>
           decide (v_i.kind = 1)
         | _ => false)) &&
      (let s : State := withItem z { wItem with stage := .running 0 };
       (match (List.find? (fun (i : Item) => i.kind != 3 && i.recv == (dir == Dir.receive) && i.lp == v_lp.val) ((s.setUnit (if (dir == Dir.receive) = true then s.rxPrism v_lp.val else v_lp.val / 4) ({ s.unit (if (dir == Dir.receive) = true then s.rxPrism v_lp.val else v_lp.val / 4) with items := List.filter (fun (i : Item) => !(List.map (fun (x : Item) => x.seq) (List.takeWhile (fun (i : Item) => i.stage == ItemStage.dropped && i.kind == 0) (List.filter (fun (i : Item) => i.kind != 3 && i.recv == (dir == Dir.receive) && i.lp == v_lp.val) (s.unit (if (dir == Dir.receive) = true then s.rxPrism v_lp.val else v_lp.val / 4)).items))).contains i.seq) (s.unit (if (dir == Dir.receive) = true then s.rxPrism v_lp.val else v_lp.val / 4)).items })).unit (if (dir == Dir.receive) = true then s.rxPrism v_lp.val else v_lp.val / 4)).items) with
         | some v_i =>
           decide (v_i.kind ≠ 1) &&
           decide (v_i.stage ≠ ItemStage.plain) &&
           decide ((match v_i.stage with | .emitted _ => false | _ => true) = true)
         | _ => false))) &&
     (let v_lp : Fin 64 := lp0;
      let s : State := withItem zm wEmitted;
      (match (List.find? (fun (i : Item) => i.kind != 3 && i.recv == (dir == Dir.receive) && i.lp == v_lp.val) ((s.setUnit (if (dir == Dir.receive) = true then s.rxPrism v_lp.val else v_lp.val / 4) ({ s.unit (if (dir == Dir.receive) = true then s.rxPrism v_lp.val else v_lp.val / 4) with items := List.filter (fun (i : Item) => !(List.map (fun (x : Item) => x.seq) (List.takeWhile (fun (i : Item) => i.stage == ItemStage.dropped && i.kind == 0) (List.filter (fun (i : Item) => i.kind != 3 && i.recv == (dir == Dir.receive) && i.lp == v_lp.val) (s.unit (if (dir == Dir.receive) = true then s.rxPrism v_lp.val else v_lp.val / 4)).items))).contains i.seq) (s.unit (if (dir == Dir.receive) = true then s.rxPrism v_lp.val else v_lp.val / 4)).items })).unit (if (dir == Dir.receive) = true then s.rxPrism v_lp.val else v_lp.val / 4)).items) with
        | some v_i =>
          decide (v_i.kind ≠ 1) &&
          (match (v_i.stage) with
            | ItemStage.emitted _ =>
              true
            | _ => false)
        | _ => false))) = true := by decide +kernel

/-- Hypotheses of Obligations.PrismsMoveFramesAndItems, part 14. -/
theorem witness_prisms_move_frames_and_items_14 :
    ((let dir : Dir := Dir.receive;
      let v_lp : Fin 64 := lp0;
      let s : State := withItem zm (wPlain true);
      (match (List.find? (fun (i : Item) => i.kind != 3 && i.recv == (dir == Dir.receive) && i.lp == v_lp.val) ((s.setUnit (if (dir == Dir.receive) = true then s.rxPrism v_lp.val else v_lp.val / 4) ({ s.unit (if (dir == Dir.receive) = true then s.rxPrism v_lp.val else v_lp.val / 4) with items := List.filter (fun (i : Item) => !(List.map (fun (x : Item) => x.seq) (List.takeWhile (fun (i : Item) => i.stage == ItemStage.dropped && i.kind == 0) (List.filter (fun (i : Item) => i.kind != 3 && i.recv == (dir == Dir.receive) && i.lp == v_lp.val) (s.unit (if (dir == Dir.receive) = true then s.rxPrism v_lp.val else v_lp.val / 4)).items))).contains i.seq) (s.unit (if (dir == Dir.receive) = true then s.rxPrism v_lp.val else v_lp.val / 4)).items })).unit (if (dir == Dir.receive) = true then s.rxPrism v_lp.val else v_lp.val / 4)).items) with
        | some v_i =>
          decide (v_i.kind ≠ 1) &&
          decide (v_i.stage = ItemStage.plain)
        | _ => false)) &&
     (let v_i : Item := iOutL;
      decide (v_i.verified = false) &&
      decide (v_i.taken = none ∨ beAt v_i.bytes v_i.offset 2 ≠ 35045)) &&
     (let v_i : Item := { wItem with verified := true, recv := true };
      decide (v_i.verified = true)) &&
     (let v_i : Item := { wItem with taken := some 1, bytes := be 2 35045 };
      decide (v_i.taken ≠ none) &&
      decide (beAt v_i.bytes v_i.offset 2 = 35045) &&
      decide (v_i.cut = false) &&
      decide (v_i.fcs = none)) &&
     (let q : BitVec 12 := q12;
      (let s : State := z;
       decide ((s.parkedOf q.toNat fun (x : Parked) => !x.twin) = none) &&
       decide (s.parkedOf q.toNat s.cleared = none)) &&
      (let s : State := sParked;
       (match (s.parkedOf q.toNat fun (x : Parked) => !x.twin) with
         | some (_, _) =>
           true
         | _ => false) &&
       (match (s.parkedOf q.toNat s.cleared) with
         | some (_, _) =>
           true
         | _ => false)))) = true := by decide +kernel

/-- Hypotheses of Obligations.RadiusMovesBatchesAndReadings, part 1. -/
theorem witness_radius_moves_batches_and_readings_1 :
    ((let s : State := z;
      decide (¬(s.radius.mode = RadiusMode.running ∧ (s.aq 255).enabled = true ∧ s.outputWaits = false))) &&
     (let poison : Bool := true;
      let s : State := sInbound;
      decide (s.radius.mode = RadiusMode.running) &&
      decide ((s.aq 255).enabled = true) &&
      decide (s.outputWaits = false) &&
      decide ((s.inboundTake poison).fst = none)) &&
     (let poison : Bool := false;
      (let s : State := sInbound;
       decide (s.radius.mode = RadiusMode.running) &&
       decide ((s.aq 255).enabled = true) &&
       decide (s.outputWaits = false) &&
       (match ((s.inboundTake poison).fst) with
         | some id =>
           (match ((s.inboundTake poison).snd.frame id) with
             | some _ =>
               true
             | _ => false)
         | _ => false)) &&
      (let s : State := { sInbound with tess := z.tess };
       decide (s.radius.mode = RadiusMode.running) &&
       decide ((s.aq 255).enabled = true) &&
       decide (s.outputWaits = false) &&
       (match ((s.inboundTake poison).fst) with
         | some id =>
           decide ((s.inboundTake poison).snd.frame id = none)
         | _ => false))) &&
     (let data : List Byte := List.replicate 64 1#8;
      decide (udpOk data = false)) &&
     (let data : List Byte := [];
      decide (udpOk data = true) &&
      decide (beAt ((batchOf data).getD []) 1 1 ≠ 1) &&
      decide (beAt ((batchOf data).getD []) 0 1 = 0 ∨ 2 < beAt ((batchOf data).getD []) 0 1)) &&
     (let data : List Byte := udp [1, 4];
      decide (udpOk data = true) &&
      decide (beAt ((batchOf data).getD []) 1 1 ≠ 1) &&
      decide (beAt ((batchOf data).getD []) 0 1 = 1 ∨ beAt ((batchOf data).getD []) 0 1 = 2) &&
      decide (beAt ((batchOf data).getD []) 1 1 ≠ 5)) &&
     (let data : List Byte := udp ([1, 5] ++ be 2 2 ++ List.replicate 12 0 ++ [0]);
      decide (udpOk data = true) &&
      decide (beAt ((batchOf data).getD []) 1 1 ≠ 1) &&
      decide (beAt ((batchOf data).getD []) 0 1 = 1 ∨ beAt ((batchOf data).getD []) 0 1 = 2) &&
      decide (beAt ((batchOf data).getD []) 1 1 = 5) &&
      decide ((if batchOf data = none ∨ ((batchOf data).getD []).length < if beAt ((batchOf data).getD []) 0 1 = 2 then 24 else 16 then none
          else splitRecords 4096 (List.drop (if beAt ((batchOf data).getD []) 0 1 = 2 then 24 else 16) ((batchOf data).getD []))) = none))) = true := by decide +kernel

/-- Hypotheses of Obligations.RadiusMovesBatchesAndReadings, part 2. -/
theorem witness_radius_moves_batches_and_readings_2 :
    ((let data : List Byte := udp ([1, 5] ++ be 2 1 ++ List.replicate 12 0 ++ [0, 2]);
      decide (udpOk data = true) &&
      decide (beAt ((batchOf data).getD []) 1 1 ≠ 1) &&
      decide (beAt ((batchOf data).getD []) 0 1 = 1 ∨ beAt ((batchOf data).getD []) 0 1 = 2) &&
      decide (beAt ((batchOf data).getD []) 1 1 = 5) &&
      (match (if batchOf data = none ∨ ((batchOf data).getD []).length < if beAt ((batchOf data).getD []) 0 1 = 2 then 24 else 16 then none else splitRecords 4096 (List.drop (if beAt ((batchOf data).getD []) 0 1 = 2 then 24 else 16) ((batchOf data).getD []))) with
        | some _ =>
          true
        | _ => false)) &&
     (let b : Nat := 1;
      (let s : State := sInbound;
       decide (List.find? (fun (y : RBatch) => y.id == b && y.left == 0) s.radius.batches = none)) &&
      (let s : State := withRad z fun r => { r with batches := [{ rb0 with ack := none }] };
       (match (List.find? (fun (y : RBatch) => y.id == b && y.left == 0) s.radius.batches) with
         | some v_y =>
           decide (v_y.ack = none)
         | _ => false)) &&
      (let s : State := sBatch;
       (match (List.find? (fun (y : RBatch) => y.id == b && y.left == 0) s.radius.batches) with
         | some v_y =>
           (match (v_y.ack) with
             | some (h, _) =>
               decide (((s.withRadius ({ s.radius with batches := List.filter (fun (x : RBatch) => x.id != b) s.radius.batches })).areaRead
                   ((s.withRadius ({ s.radius with batches := List.filter (fun (x : RBatch) => x.id != b) s.radius.batches })).recAddr true
                   h)).fst = none)
             | _ => false)
         | _ => false)) &&
      (let s : State := withRad sArea fun r => { r with batches := [rb0] };
       (match (List.find? (fun (y : RBatch) => y.id == b && y.left == 0) s.radius.batches) with
         | some v_y =>
           (match (v_y.ack) with
             | some (h, _) =>
               (match (((s.withRadius ({ s.radius with batches := List.filter (fun (x : RBatch) => x.id != b) s.radius.batches })).areaRead ((s.withRadius ({ s.radius with batches := List.filter (fun (x : RBatch) => x.id != b) s.radius.batches })).recAddr true h)).fst) with
                 | some _ =>
                   true
                 | _ => false)
             | _ => false)
         | _ => false))) &&
     (let s : State := sInbound;
      let slot : Nat := 1;
      decide (List.lookup slot s.radius.locks = none)) &&
     (let s : State := sRecLock;
      let slot : Nat := 3;
      (match (List.lookup slot s.radius.locks) with
        | some l =>
          (match (List.lookup slot (s.passTo l.due).radius.locks) with
            | some _ =>
              true
            | _ => false)
        | _ => false))) = true := by decide +kernel

/-- Hypotheses of Obligations.RadiusMovesBatchesAndReadings, part 3. -/
theorem witness_radius_moves_batches_and_readings_3 :
    ((let item : Nat := 1;
      let s : State := sInbound;
      decide (List.find? (fun (x : RItem) => x.id == item && x.thr.isNone) s.radius.items = none)) &&
     (let item : Nat := 7;
      let s : State := sRadItem;
      (let t : Tid := tid0;
       (match (List.find? (fun (x : RItem) => x.id == item && x.thr.isNone) s.radius.items) with
         | some i =>
           decide (t.cl ≠ 16 ∨ ((List.takeWhile (fun (x : RItem) => x.id != item) s.radius.items).any fun (j : RItem) => j.sensor ==
               i.sensor && j.thr.isNone) = true ∨ (s.cluster 16).pause ≠ none)
         | _ => false)) &&
      (let t : Tid := tRad;
       (match (List.find? (fun (x : RItem) => x.id == item && x.thr.isNone) s.radius.items) with
         | some i =>
           decide ((s.findRecord false i.sensor.toNat).fst = Area.absent) &&
           decide (¬(t.cl ≠ 16 ∨ ((List.takeWhile (fun (x : RItem) => x.id != item) s.radius.items).any fun (j : RItem) => j.sensor ==
               i.sensor && j.thr.isNone) = true ∨ (s.cluster 16).pause ≠ none))
         | _ => false))) &&
     (let g : Fin 4096 := g4095;
      (let s : State := sDatagram;
       (match (List.find? (fun (x : Datagram) => x.group == g.val) s.radius.datagrams) with
         | some _ =>
           true
         | _ => false)) &&
      (let s : State := sInbound;
       decide (List.find? (fun (x : Datagram) => x.group == g.val) s.radius.datagrams = none))) &&
     (let q : Fin 8192 := q8191;
      (let s : State := sStore none;
       decide (s.radius.mode = RadiusMode.running) &&
       (match (s.nextRelease q.val) with
         | some _ =>
           true
         | _ => false)) &&
      (let s : State := sInbound;
       decide (s.nextRelease q.val = none ∨ s.radius.mode ≠ RadiusMode.running))) &&
     (let n : Nat := 1;
      let s : State := sInbound;
      decide (List.find? (fun (x : StoreEntry) => x.id == n) s.radius.store = none)) &&
     (let n : Nat := 5;
      (let s : State := sStore none;
       (match (List.find? (fun (x : StoreEntry) => x.id == n) s.radius.store) with
         | some e =>
           decide (e.held = none) &&
           decide (e.record = [] ∨ s.radius.mode = RadiusMode.running ∧ s.gnomon.time ≤ e.window)
         | _ => false)) &&
      (let s : State := sStore (some rItem0);
       (match (List.find? (fun (x : StoreEntry) => x.id == n) s.radius.store) with
         | some e =>
           decide (¬(e.held = none ∧ (e.record = [] ∨ s.radius.mode = RadiusMode.running ∧ s.gnomon.time ≤ e.window))) &&
           decide (((s.passToTime e.expiry).storeRead e).fst = false)
         | _ => false)))) = true := by decide +kernel

/-- Hypotheses of Obligations.RadiusSettingsCheckpointsAndRecords, part 1. -/
theorem witness_radius_settings_checkpoints_and_records_1 :
    ((let d : Desc := dSet 0 4095;
      (let s : State := zm;
       accepts d 0 [(8, 1), (12, 4), (16, 8)] s &&
       (let s0 : State := (s.reserve d).getD s;
        decide (s0.cpr.warn = []) &&
        decide (d.get 8 1 = 0) &&
        decide ((if List.flatMap (fun (e : Nat × List Byte) => slice e.snd 0 8 ++ slice e.snd 12 4 ++ slice e.snd 32 4) (State.ckptGo (List.filter
            (fun (k : Nat) => decide (d.get 28 4 ≤ k)) s0.sensorSlots) (d.get 24 4 / 16) s0 []).fst.fst = [] then (true, (State.ckptGo
            (List.filter (fun (k : Nat) => decide (d.get 28 4 ≤ k)) s0.sensorSlots) (d.get 24 4 / 16) s0 []).snd) else (State.ckptGo
            (List.filter (fun (k : Nat) => decide (d.get 28 4 ≤ k)) s0.sensorSlots) (d.get 24 4 / 16) s0 []).snd.writeMem Master.annulus
            (ringOwner d.ring.val) (d.get 16 8) (List.flatMap (fun (e : Nat × List Byte) => slice e.snd 0 8 ++ slice e.snd 12 4 ++ slice e.snd
            32 4) (State.ckptGo (List.filter (fun (k : Nat) => decide (d.get 28 4 ≤ k)) s0.sensorSlots) (d.get 24 4 / 16) s0
            []).fst.fst)).fst = true) &&
        accepts d 0 [(8, 1), (12, 4), (16, 8), (24, 4), (28, 4)] s)) &&
      (let s : State := warns [(0, 5)];
       let s0 : State := (s.reserve d).getD s;
       decide (s0.cpr.warn ≠ []) &&
       decide (d.get 8 1 = 0) &&
       accepts d 0 [(8, 1), (12, 4), (16, 8), (24, 4), (28, 4)] s)) &&
     (let d : Desc := cmd 0x090 [(8, 3), (0xC, 8191), (0x18, 63)];
      let s : State := zm;
      decide (d.get 8 1 = 3) &&
      decide (d.get 12 4 < 8192) &&
      decide (d.get 24 4 < 64) &&
      accepts d 0 [(8, 1), (12, 4), (24, 4)] s) &&
     (let d : Desc := dGateArm 0;
      let s : State := zm;
      decide (4 < d.get 8 1 ∨ d.get 8 1 = 3 ∧ (8192 ≤ d.get 12 4 ∨ 64 ≤ d.get 24 4)) &&
      accepts d 0 [(8, 1), (12, 4), (24, 4)] s &&
      decide (4 < d.get 8 1) &&
      accepts d 1 [(8, 1)] s)) = true := by decide +kernel

/-- Hypotheses of Obligations.RadiusSettingsCheckpointsAndRecords, part 2. -/
theorem witness_radius_settings_checkpoints_and_records_2 :
    ((let d : Desc := dService 1;
      (let s : State := sTable;
       let s0 : State := (s.reserve d).getD s;
       decide (d.get 8 1 = 4) &&
       decide (bitOf d.flags 0 = true) &&
       decide (s0.radius.mode = RadiusMode.idle) &&
       decide (s0.areaOk (2 ^ 30 * (s0.regN 50335744 % 1024)) = true) &&
       accepts d 1 [(8, 1)] s) &&
      (let s : State := zm;
       (let s0 : State := (s.reserve d).getD s;
        decide (d.get 8 1 = 4) &&
        decide (bitOf d.flags 0 = true) &&
        decide (s0.radius.mode = RadiusMode.idle) &&
        decide (s0.areaOk (2 ^ 30 * (s0.regN 50335744 % 1024)) = false) &&
        accepts d 1 [(8, 1)] s) &&
       decide (bitOf d.flags 0 = true) &&
       decide (3 < d.get 8 1) &&
       accepts d 3 [(8, 1), (16, 8)] s) &&
      (let s : State := running z;
       let s0 : State := (s.reserve d).getD s;
       decide (d.get 8 1 = 4) &&
       decide (bitOf d.flags 0 = true) &&
       decide (s0.radius.mode = RadiusMode.running) &&
       accepts d 1 [(8, 1)] s) &&
      (let s : State := withRad z fun r => { r with mode := .draining };
       let s0 : State := (s.reserve d).getD s;
       decide (d.get 8 1 = 4) &&
       decide (bitOf d.flags 0 = true) &&
       decide (s0.radius.mode = RadiusMode.draining) &&
       accepts d 1 [(8, 1)] s)) &&
     (let d : Desc := dService 0;
      (let s : State := running z;
       let s0 : State := (s.reserve d).getD s;
       decide (d.get 8 1 = 4) &&
       decide (bitOf d.flags 0 = false) &&
       decide (s0.radius.mode = RadiusMode.running) &&
       accepts d 1 [(8, 1)] s) &&
      (let s : State := zm;
       let s0 : State := (s.reserve d).getD s;
       decide (d.get 8 1 = 4) &&
       decide (bitOf d.flags 0 = false) &&
       decide (s0.radius.mode = RadiusMode.idle) &&
       accepts d 1 [(8, 1)] s) &&
      (let s : State := withRad z fun r => { r with mode := .draining };
       let s0 : State := (s.reserve d).getD s;
       decide (d.get 8 1 = 4) &&
       decide (bitOf d.flags 0 = false) &&
       decide (s0.radius.mode = RadiusMode.draining) &&
       accepts d 1 [(8, 1)] s)) &&
     (let s : State := sDrain [];
      (match (s.radius.disable) with
        | some (_, _) =>
          decide (s.radius.items = [])
        | _ => false)) &&
     (let s : State := sDrain [rItem0];
      (match (s.radius.disable) with
        | some (_, _) =>
          decide (s.radius.items ≠ [])
        | _ => false)) &&
     (let s : State := zm;
      decide (s.radius.disable = none)) &&
     (let d : Desc := dSet 2 63;
      let s : State := zm;
      decide (1 < d.get 8 1) &&
      accepts d 0 [(8, 1), (12, 4), (16, 8), (24, 4), (28, 4)] s)) = true := by decide +kernel

/-- Hypotheses of Obligations.RadiusSettingsCheckpointsAndRecords, part 3. -/
theorem witness_radius_settings_checkpoints_and_records_3 :
    ((let d : Desc := dSet 1 255;
      (let s : State := warns [(0, 5)];
       let s0 : State := (s.reserve d).getD s;
       decide (s0.cpr.warn ≠ []) &&
       decide (d.get 8 1 = 1) &&
       accepts d 0 [(8, 1), (12, 4), (16, 8), (24, 4), (28, 4)] s) &&
      (let s : State := zm;
       let s0 : State := (s.reserve d).getD s;
       decide (s0.cpr.warn = []) &&
       decide (d.get 8 1 = 1) &&
       accepts d 0 [(8, 1), (12, 4), (16, 8), (24, 4), (28, 4)] s)) &&
     (let d : Desc := cmd 0x092 [(8, 0), (0x10, 0x1000000000), (0x18, 16)];
      let s : State := sRecord 5;
      decide (d.get 8 1 = 0) &&
      (let s0 : State := (s.reserve d).getD s;
       decide (s0.cpr.warn = []) &&
       decide ((if List.flatMap (fun (e : Nat × List Byte) => slice e.snd 0 8 ++ slice e.snd 12 4 ++ slice e.snd 32 4) (State.ckptGo (List.filter
           (fun (k : Nat) => decide (d.get 28 4 ≤ k)) s0.sensorSlots) (d.get 24 4 / 16) s0 []).fst.fst = [] then (true, (State.ckptGo
           (List.filter (fun (k : Nat) => decide (d.get 28 4 ≤ k)) s0.sensorSlots) (d.get 24 4 / 16) s0 []).snd) else (State.ckptGo
           (List.filter (fun (k : Nat) => decide (d.get 28 4 ≤ k)) s0.sensorSlots) (d.get 24 4 / 16) s0 []).snd.writeMem Master.annulus
           (ringOwner d.ring.val) (d.get 16 8) (List.flatMap (fun (e : Nat × List Byte) => slice e.snd 0 8 ++ slice e.snd 12 4 ++ slice e.snd 32
           4) (State.ckptGo (List.filter (fun (k : Nat) => decide (d.get 28 4 ≤ k)) s0.sensorSlots) (d.get 24 4 / 16) s0 []).fst.fst)).fst =
           false) &&
       accepts d 0 [(8, 1), (12, 4), (16, 8), (24, 4), (28, 4)] s)) &&
     (let d : Desc := dFreeze;
      let s : State := withRad z fun r => { r with mode := .draining };
      let c : Instr × Nat := (Instr.sensorWriteDelete d, 2);
      let s0 : State := (s.reserve d).getD s;
      decide (bitOf d.flags 0 = false) &&
      decide (s.recordBusy d = false) &&
      decide (s.insertWaits d = false) &&
      decide (d.get 8 1 = c.snd) &&
      (match ((s0.readBuf d Master.annulus (d.get 16 8) 64).fst) with
        | Except.error _ =>
          accepts d 3 [(8, 1), (16, 8)] s
        | _ => false))) = true := by decide +kernel

/-- Hypotheses of Obligations.RadiusSettingsCheckpointsAndRecords, part 4. -/
theorem witness_radius_settings_checkpoints_and_records_4 :
    ((let d : Desc := cmd 0x091 [(3, 3), (0x10, 0x1000)];
      (let s : State := withRad z fun r => { r with mode := .draining };
       let c : Instr × Nat := (Instr.gatewayInsert d, 0);
       let s0 : State := (s.reserve d).getD s;
       decide (bitOf d.flags 0 = true) &&
       decide (d.get 8 1 = c.snd) &&
       (match ((s0.readBuf d Master.annulus (d.get 16 8) 64).fst) with
         | Except.error _ =>
           accepts d 3 [(8, 1), (16, 8)] s
         | _ => false)) &&
      (let s : State := zm;
       let c : Instr × Nat := (Instr.gatewayInsert d, 0);
       let s0 : State := (s.reserve d).getD s;
       decide (bitOf d.flags 0 = true) &&
       (match ((s0.readBuf d Master.annulus (d.get 16 8) 64).fst) with
         | Except.ok bs =>
           decide (d.get 8 1 = c.snd) &&
           decide (leAt bs 0 8 = 0 ∨ d.get 8 1 < 2 ∧ gatewayOk bs = false) &&
           accepts d 3 [(8, 1), (16, 8)] s
         | _ => false))) &&
     (let bs : List Byte := rec5 1;
      let d : Desc := dService 1;
      let s : State := zm;
      accepts d 3 [(8, 1), (16, 8)] s &&
      decide (bs.length = 64))) = true := by decide +kernel

/-- Hypotheses of Obligations.RaisesAndCountsTouchOnlyTheirUnit. -/
theorem witness_raises_and_counts_touch_only_their_unit :
    ((let ev : Nat := 1023;
      decide (ev < 1024)) &&
     (let b : Nat := 0;
      let ev : Nat := 1023;
      let g : Nat := 3;
      let s : State := withTele z fun t => { t with evtStatus := [(3, 1)] };
      decide (ev < 1024) &&
      decide ((tget 0 s.tele.evtStatus g).getLsbD b = true)) &&
     (let id : Nat := 1023;
      let j : Nat := 0;
      decide (j ≠ id))) = true := by decide +kernel

/-- Hypotheses of Obligations.ReceivedPacketNumbersAreRecovered. -/
theorem witness_received_packet_numbers_are_recovered :
    ((let a : Assoc := aXpn;
      (let wire : Nat := 0xFFFFFFFF;
       decide (a.spent = false) &&
       decide (a.xpn = true) &&
       decide (wire < 2 ^ 32) &&
       decide ((BitVec.extractLsb' 0 32 a.next).toNat ≤ wire)) &&
      (let wire : Nat := 0xFFFFFFFE;
       decide (a.spent = false) &&
       decide (a.xpn = true) &&
       decide (wire < 2 ^ 32) &&
       decide (wire < (BitVec.extractLsb' 0 32 a.next).toNat))) &&
     (let a : Assoc := aPlain;
      let wire : Nat := 0xFFFFFFFF;
      decide (a.spent = false) &&
      decide (a.xpn = false) &&
      decide (wire < 2 ^ 32))) = true := by decide +kernel

/-- Hypotheses of Obligations.ReclaimOfDebugAndIdleThreads. -/
theorem witness_reclaim_of_debug_and_idle_threads :
    (let c : Nat := 0;
     let d : Desc := dReclaim 0x1000;
     let k : Nat := 0;
     (let s : State := sThread .debug;
      let s0 : State := (s.reserve d).getD s;
      decide (bitOf d.flags 0 = false) &&
      accepts d 1 [(8, 2)] s &&
      decide (c < 17) &&
      decide (d.get 8 2 = vOwner c k) &&
      decide (k < threadCount c) &&
      decide ((s0.thread c k).mode = ThreadMode.debug)) &&
     (let s : State := z;
      let s0 : State := (s.reserve d).getD s;
      decide (bitOf d.flags 0 = false) &&
      accepts d 1 [(8, 2)] s &&
      decide (c < 17) &&
      decide (d.get 8 2 = vOwner c k) &&
      decide (k < threadCount c) &&
      decide ((s0.thread c k).mode = ThreadMode.idle) &&
      decide (∀ (e : Nat × Nat × Nat), e ∈ s0.assoc.locks → e.snd.fst ≠ vOwner c k) &&
      decide (∀ (e : Nat × RecLock), e ∈ s0.radius.locks → e.snd.owner ≠ vOwner c k))) = true := by decide +kernel

/-- Hypotheses of Obligations.RegionsAreCreatedFilledAndDeleted, part 1. -/
theorem witness_regions_are_created_filled_and_deleted_1 :
    ((let d : Desc := dRegionCreate 0;
      let s : State := zm;
      decide (hullFieldsOk d = true) &&
      (let s0 : State := (s.reserve d).getD s;
       decide (d.get 8 1 = 0) &&
       decide (d.get 11 1 ≤ 1) &&
       decide (d.get 12 4 < 2 ^ 14) &&
       decide (d.get 16 8 < 2 ^ 40) &&
       decide (d.get 24 8 < 2 ^ 40) &&
       decide (0 < d.get 24 8) &&
       decide (d.get 24 8 % 2 ^ 26 = 0) &&
       decide (d.get 16 8 % 2 ^ 26 = 0) &&
       decide (s0.axis.serving = true) &&
       decide ((s0.region (hullKey d)).state = RegionState.off) &&
       decide (s0.geometryOk (hullMem d) (d.get 16 8) (d.get 24 8) (d.get 32 8) (if d.get 11 1 = 1 then metaBytes (d.get 24 8) else 0)
           = true) &&
       decide (d.get 11 1 = 0) &&
       decide (bitOf d.flags 0 = false) &&
       decide (d.get 40 8 = 0) &&
       accepts d 1 [(8, 8), (16, 32)] s)) &&
     (let d : Desc := dRegionCreate 1;
      (let s : State := zm;
       decide (hullFieldsOk d = true) &&
       (let s0 : State := (s.reserve d).getD s;
        decide (d.get 8 1 = 0) &&
        decide (d.get 11 1 ≤ 1) &&
        decide (d.get 12 4 < 2 ^ 14) &&
        decide (d.get 16 8 < 2 ^ 40) &&
        decide (d.get 24 8 < 2 ^ 40) &&
        decide (0 < d.get 24 8) &&
        decide (d.get 24 8 % 2 ^ 26 = 0) &&
        decide (d.get 16 8 % 2 ^ 26 = 0) &&
        decide (s0.axis.serving = true) &&
        decide ((s0.region (hullKey d)).state = RegionState.off) &&
        decide (s0.geometryOk (hullMem d) (d.get 16 8) (d.get 24 8) (d.get 32 8) (if d.get 11 1 = 1 then metaBytes (d.get 24 8) else
            0) = true) &&
        decide (bitOf d.flags 0 = true) &&
        decide (d.get 11 1 = 1 → d.get 32 8 % 2 ^ 22 = 0) &&
        accepts d 1 [(8, 8), (16, 32)] s)) &&
      (let s : State := withAxis z fun a => { a with serving := false };
       decide (hullFieldsOk d = true) &&
       (let s0 : State := (s.reserve d).getD s;
        decide (d.get 8 1 = 0) &&
        decide (d.get 11 1 ≤ 1) &&
        decide (d.get 12 4 < 2 ^ 14) &&
        decide (d.get 16 8 < 2 ^ 40) &&
        decide (d.get 24 8 < 2 ^ 40) &&
        decide (0 < d.get 24 8) &&
        decide (d.get 24 8 % 2 ^ 26 = 0) &&
        decide (d.get 16 8 % 2 ^ 26 = 0) &&
        decide (bitOf d.flags 0 = true) &&
        decide (d.get 11 1 = 1 → d.get 32 8 % 2 ^ 22 = 0) &&
        decide (s0.axis.serving = false) &&
        accepts d 1 [(8, 8), (16, 32)] s)))) = true := by decide +kernel

/-- Hypotheses of Obligations.RegionsAreCreatedFilledAndDeleted, part 2. -/
theorem witness_regions_are_created_filled_and_deleted_2 :
    ((let d : Desc := dRegion 0 1 0 [(0xC, 0x3FFF), (0x10, 0x4000000), (0x18, 0x4000000)];
      let s : State := zm;
      decide (hullFieldsOk d = true) &&
      decide (d.get 8 1 = 0) &&
      decide (d.get 11 1 ≤ 1) &&
      decide (d.get 12 4 < 2 ^ 14) &&
      decide (d.get 16 8 < 2 ^ 40) &&
      decide (d.get 24 8 < 2 ^ 40) &&
      decide (0 < d.get 24 8) &&
      decide (d.get 24 8 % 2 ^ 26 = 0) &&
      decide (d.get 16 8 % 2 ^ 26 = 0) &&
      decide (bitOf d.flags 0 = true) &&
      decide (d.get 11 1 = 1 → d.get 32 8 % 2 ^ 22 = 0) &&
      (let s0 : State := (s.reserve d).getD s;
       decide (s0.axis.serving = true) &&
       decide ((s0.region (hullKey d)).state ≠ RegionState.off ∨ s0.geometryOk (hullMem d) (d.get 16 8) (d.get 24 8) (d.get 32 8) (if
           d.get 11 1 = 1 then metaBytes (d.get 24 8) else 0) = false) &&
       accepts d 1 [(8, 8), (16, 32)] s)) &&
     (let d : Desc := dRegion 0 0 15 [(0xB, 1), (0xC, 0x3FFF), (0x10, 0x4000000), (0x18, 0x4000000)];
      let s : State := zm;
      decide (hullFieldsOk d = true) &&
      decide (d.get 8 1 = 0) &&
      decide (d.get 11 1 ≤ 1) &&
      decide (d.get 12 4 < 2 ^ 14) &&
      decide (d.get 16 8 < 2 ^ 40) &&
      decide (d.get 24 8 < 2 ^ 40) &&
      decide (0 < d.get 24 8) &&
      decide (d.get 24 8 % 2 ^ 26 = 0) &&
      decide (d.get 16 8 % 2 ^ 26 = 0) &&
      decide (bitOf d.flags 0 = false) &&
      decide (d.get 11 1 = 1 ∨ d.get 40 8 ≠ 0) &&
      accepts d 1 [(8, 8), (16, 32)] s) &&
     (let d : Desc := dRegion 1 0 0 [(0xC, 5)];
      (let s : State := zm;
       decide (hullFieldsOk d = true) &&
       (let s0 : State := (s.reserve d).getD s;
        decide (d.get 8 1 = 1) &&
        decide (d.get 12 4 < 2 ^ 14) &&
        decide ((s0.region (hullKey d)).state ≠ RegionState.off) &&
        accepts d 0 [(8, 3), (12, 4)] s)) &&
      (let s : State := z;
       decide (hullFieldsOk d = true) &&
       (let s0 : State := (s.reserve d).getD s;
        decide (d.get 8 1 = 1) &&
        decide (d.get 12 4 < 2 ^ 14) &&
        decide ((s0.region (hullKey d)).state = RegionState.off) &&
        accepts d 0 [(8, 3), (12, 4)] s)))) = true := by decide +kernel

/-- Hypotheses of Obligations.RegionsAreCreatedFilledAndDeleted, part 3. -/
theorem witness_regions_are_created_filled_and_deleted_3 :
    ((let d : Desc := dRegion 2 0 0 [(0x10, 64), (0x18, 64), (0x28, 9)];
      (let s : State := z;
       decide (hullFieldsOk d = true) &&
       (let s0 : State := (s.reserve d).getD s;
        decide (d.get 8 1 = 2) &&
        decide (d.get 16 8 % 64 = 0) &&
        decide (d.get 24 8 % 64 = 0) &&
        decide (0 < d.get 24 8) &&
        decide ((s0.region (hullKey d)).state = RegionState.off) &&
        accepts d 0 [(8, 3), (16, 16), (40, 8)] s)) &&
      (let s : State := sDeleting;
       decide (hullFieldsOk d = true) &&
       (let s0 : State := (s.reserve d).getD s;
        decide (d.get 8 1 = 2) &&
        decide (d.get 16 8 % 64 = 0) &&
        decide (d.get 24 8 % 64 = 0) &&
        decide (0 < d.get 24 8) &&
        decide ((s0.region (hullKey d)).state ≠ RegionState.off) &&
        decide ((s0.region (hullKey d)).work ≠ none) &&
        accepts d 0 [(8, 3), (16, 16), (40, 8)] s)) &&
      (let s : State := zm;
       decide (hullFieldsOk d = true) &&
       (let s0 : State := (s.reserve d).getD s;
        decide (d.get 8 1 = 2) &&
        decide (d.get 16 8 % 64 = 0) &&
        decide (d.get 24 8 % 64 = 0) &&
        decide (0 < d.get 24 8) &&
        decide ((s0.region (hullKey d)).state ≠ RegionState.off) &&
        decide ((s0.region (hullKey d)).work = none) &&
        decide (d.get 16 8 + d.get 24 8 ≤ (s0.region (hullKey d)).bytes) &&
        decide (s0.cutsTaint (hullKey d) (d.get 16 8) (d.get 24 8) = false) &&
        accepts d 0 [(8, 3), (16, 16), (40, 8)] s))) &&
     (let d : Desc := dRegion 2 0 0 [(0x10, 0x4000000), (0x18, 64)];
      let s : State := zm;
      decide (hullFieldsOk d = true) &&
      decide (d.get 8 1 = 2) &&
      decide (d.get 16 8 % 64 = 0) &&
      decide (d.get 24 8 % 64 = 0) &&
      decide (0 < d.get 24 8) &&
      (let s0 : State := (s.reserve d).getD s;
       decide ((s0.region (hullKey d)).state ≠ RegionState.off) &&
       decide ((s0.region (hullKey d)).work = none) &&
       decide ((s0.region (hullKey d)).bytes < d.get 16 8 + d.get 24 8 ∨ s0.cutsTaint (hullKey d) (d.get 16 8) (d.get 24 8) = true) &&
       accepts d 0 [(8, 3), (16, 16), (40, 8)] s))) = true := by decide +kernel

/-- Hypotheses of Obligations.RegionsAreCreatedFilledAndDeleted, part 4. -/
theorem witness_regions_are_created_filled_and_deleted_4 :
    ((let d : Desc := dRegion 3 0 0 [];
      (let s : State := zm;
       decide (hullFieldsOk d = true) &&
       (let s0 : State := (s.reserve d).getD s;
        decide (d.get 8 1 = 3) &&
        decide ((s0.region (hullKey d)).state ≠ RegionState.off) &&
        decide ((s0.region (hullKey d)).work = none) &&
        accepts d 0 [(8, 3)] s)) &&
      (let s : State := sDeleting;
       decide (hullFieldsOk d = true) &&
       (let s0 : State := (s.reserve d).getD s;
        decide (d.get 8 1 = 3) &&
        decide ((s0.region (hullKey d)).state ≠ RegionState.off) &&
        decide ((s0.region (hullKey d)).work ≠ none) &&
        accepts d 0 [(8, 3)] s))) &&
     (let d : Desc := dRegion 3 0 15 [];
      let s : State := zm;
      decide (hullFieldsOk d = true) &&
      (let s0 : State := (s.reserve d).getD s;
       decide (d.get 8 1 = 3) &&
       decide ((s0.region (hullKey d)).state = RegionState.off) &&
       accepts d 0 [(8, 3)] s)) &&
     (let m : MemKind := .hbm;
      let n : Fin 16 := fp0;
      (let s : State := sDeleting;
       decide ((s.region (regionKey m n.val)).deleting = true)) &&
      (let s : State := zm;
       decide ((s.region (regionKey m n.val)).deleting = false) &&
       decide ((s.region (regionKey m n.val)).filling = none)) &&
      (let s : State := sFilling;
       (match ((s.region (regionKey m n.val)).filling) with
         | some (_, _, _) =>
           true
         | _ => false)))) = true := by decide +kernel

/-- Hypotheses of Obligations.RegisterInstructionsWriteTheirResult, part 1. -/
theorem witness_register_instructions_write_their_result_1 :
    (let i : Issue := iss;
     (let s : State := prep z 0 (word 0 0 0 0 0 0) withRegs;
      let x : Ins := nextIns i s;
      decide (x.op = 0) &&
      issuable i s) &&
     (let s : State := prep z 0 (word 0x01 4 1 2 0 0) withRegs;
      let v : BitVec 64 := 11#64;
      let x : Ins := nextIns i s;
      let s0 : State := issued i s;
      issuable i s &&
      decide (x.op = 1 ∧ v = (s0.thread i.t.cl i.t.key).gr x.a + (s0.thread i.t.cl i.t.key).gr x.b ∨ x.op = 2 ∧ v =
          (s0.thread i.t.cl i.t.key).gr x.a - (s0.thread i.t.cl i.t.key).gr x.b ∨ x.op = 3 ∧ v = (s0.thread i.t.cl
          i.t.key).gr x.a &&& (s0.thread i.t.cl i.t.key).gr x.b ∨ x.op = 4 ∧ v = (s0.thread i.t.cl i.t.key).gr x.a |||
          (s0.thread i.t.cl i.t.key).gr x.b ∨ x.op = 5 ∧ v = (s0.thread i.t.cl i.t.key).gr x.a ^^^ (s0.thread i.t.cl
          i.t.key).gr x.b ∨ x.op = 6 ∧ v = (s0.thread i.t.cl i.t.key).gr x.a &&& ~~~(s0.thread i.t.cl i.t.key).gr x.b ∨
          x.op = 7 ∧ v = (s0.thread i.t.cl i.t.key).gr x.a <<< (((s0.thread i.t.cl i.t.key).gr x.b).toNat % 64) ∨ x.op = 8 ∧
          v = (s0.thread i.t.cl i.t.key).gr x.a >>> (((s0.thread i.t.cl i.t.key).gr x.b).toNat % 64) ∨ x.op = 9 ∧ v =
          ((s0.thread i.t.cl i.t.key).gr x.a).sshiftRight (((s0.thread i.t.cl i.t.key).gr x.b).toNat % 64) ∨ x.op = 10 ∧ v =
          ((s0.thread i.t.cl i.t.key).gr x.a).rotateLeft (((s0.thread i.t.cl i.t.key).gr x.b).toNat % 64))) &&
     (let s : State := prep z 0 (word 0x0B 4 1 2 0 0) withRegs;
      let x : Ins := nextIns i s;
      decide (x.op = 11) &&
      issuable i s) &&
     (let s : State := prep z 0 (word 0x0C 4 1 2 0 0) withRegs;
      let x : Ins := nextIns i s;
      decide (x.op = 12) &&
      issuable i s) &&
     (let s : State := prep z 0 (word 0x11 4 1 0 0 0x1FFFFFFFFF) withRegs;
      let v : BitVec 64 := 7#64;
      let x : Ins := nextIns i s;
      let s0 : State := issued i s;
      issuable i s &&
      decide (x.op = 17 ∧ v = (s0.thread i.t.cl i.t.key).gr x.a + BitVec.signExtend 64 (BitVec.ofNat 37 x.ext) ∨ x.op = 19 ∧ v =
          (s0.thread i.t.cl i.t.key).gr x.a &&& BitVec.signExtend 64 (BitVec.ofNat 37 x.ext) ∨ x.op = 20 ∧ v = (s0.thread i.t.cl
          i.t.key).gr x.a ||| BitVec.signExtend 64 (BitVec.ofNat 37 x.ext) ∨ x.op = 21 ∧ v = (s0.thread i.t.cl i.t.key).gr x.a ^^^
          BitVec.signExtend 64 (BitVec.ofNat 37 x.ext) ∨ x.op = 23 ∧ v = (s0.thread i.t.cl i.t.key).gr x.a <<< ((BitVec.signExtend 64
          (BitVec.ofNat 37 x.ext)).toNat % 64) ∨ x.op = 24 ∧ v = (s0.thread i.t.cl i.t.key).gr x.a >>> ((BitVec.signExtend 64
          (BitVec.ofNat 37 x.ext)).toNat % 64) ∨ x.op = 25 ∧ v = ((s0.thread i.t.cl i.t.key).gr x.a).sshiftRight ((BitVec.signExtend
          64 (BitVec.ofNat 37 x.ext)).toNat % 64) ∨ x.op = 26 ∧ v = ((s0.thread i.t.cl i.t.key).gr x.a).rotateLeft ((BitVec.signExtend
          64 (BitVec.ofNat 37 x.ext)).toNat % 64))) &&
     (let s : State := prep z 0 (word 0x1E 4 0 0 0 5) withRegs;
      let x : Ins := nextIns i s;
      decide (x.op = 30) &&
      issuable i s) &&
     (let s : State := prep z 0 (word 0x1F 4 0 0 0 5) withRegs;
      let x : Ins := nextIns i s;
      decide (x.op = 31) &&
      issuable i s) &&
     (let s : State := prep z 0 (word 0x20 4 1 0 0 4096) withRegs;
      let x : Ins := nextIns i s;
      decide (x.op = 32) &&
      issuable i s) &&
     (let s : State := prep z 0 (word 0x21 4 1 0 0 127) withRegs;
      let x : Ins := nextIns i s;
      decide (x.op = 33) &&
      issuable i s) &&
     (let s : State := prep z 0 (word 0x22 4 1 0 0 0) withRegs;
      let x : Ins := nextIns i s;
      decide (x.op = 34) &&
      issuable i s) &&
     (let s : State := prep z 0 (word 0x23 4 1 0 0 0) withRegs;
      let x : Ins := nextIns i s;
      decide (x.op = 35) &&
      issuable i s) &&
     (let s : State := prep z 0 (word 0x24 4 1 0 0 0) withRegs;
      let x : Ins := nextIns i s;
      decide (x.op = 36) &&
      issuable i s) &&
     (let s : State := prep z 0 (word 0x28 4 1 2 0 0) withRegs;
      let x : Ins := nextIns i s;
      decide (x.op = 40) &&
      issuable i s) &&
     (let s : State := prep z 0 (word 0x29 4 1 0 0 1) withRegs;
      let x : Ins := nextIns i s;
      decide (x.op = 41) &&
      issuable i s) &&
     (let s : State := prep z 0 (word 0x2A 4 1 1 0 0) withRegs;
      let x : Ins := nextIns i s;
      decide (x.op = 42) &&
      issuable i s) &&
     (let s : State := prep z 0 (word 0x2B 4 1 0 0 0) withRegs;
      let x : Ins := nextIns i s;
      decide (x.op = 43) &&
      issuable i s) &&
     (let r : Bool := false;
      let s : State := prep z 0 (word 0x30 1 1 2 0 0) withRegs;
      let x : Ins := nextIns i s;
      let s0 : State := issued i s;
      issuable i s &&
      decide (x.op = 48 ∧ r = ((s0.thread i.t.cl i.t.key).gr x.a == (s0.thread i.t.cl i.t.key).gr x.b) ∨ x.op = 49 ∧ r =
          ((s0.thread i.t.cl i.t.key).gr x.a != (s0.thread i.t.cl i.t.key).gr x.b) ∨ x.op = 50 ∧ r = ((s0.thread i.t.cl
          i.t.key).gr x.a).slt ((s0.thread i.t.cl i.t.key).gr x.b) ∨ x.op = 51 ∧ r = ((s0.thread i.t.cl i.t.key).gr x.a).ult
          ((s0.thread i.t.cl i.t.key).gr x.b) ∨ x.op = 52 ∧ r = ((s0.thread i.t.cl i.t.key).gr x.a).sle ((s0.thread i.t.cl
          i.t.key).gr x.b) ∨ x.op = 53 ∧ r = ((s0.thread i.t.cl i.t.key).gr x.a).ule ((s0.thread i.t.cl i.t.key).gr x.b))) &&
     (let r : Bool := true;
      let s : State := prep z 0 (word 0x38 1 1 0 0 8) withRegs;
      let x : Ins := nextIns i s;
      let s0 : State := issued i s;
      issuable i s &&
      decide (x.op = 56 ∧ r = ((s0.thread i.t.cl i.t.key).gr x.a == BitVec.signExtend 64 (BitVec.ofNat 35 x.ext)) ∨ x.op = 57 ∧ r
          = ((s0.thread i.t.cl i.t.key).gr x.a != BitVec.signExtend 64 (BitVec.ofNat 35 x.ext)) ∨ x.op = 58 ∧ r = ((s0.thread
          i.t.cl i.t.key).gr x.a).slt (BitVec.signExtend 64 (BitVec.ofNat 35 x.ext)) ∨ x.op = 59 ∧ r = ((s0.thread i.t.cl
          i.t.key).gr x.a).ult (BitVec.signExtend 64 (BitVec.ofNat 35 x.ext)) ∨ x.op = 60 ∧ r = ((s0.thread i.t.cl i.t.key).gr
          x.a).sle (BitVec.signExtend 64 (BitVec.ofNat 35 x.ext)) ∨ x.op = 61 ∧ r = ((s0.thread i.t.cl i.t.key).gr x.a).ule
          (BitVec.signExtend 64 (BitVec.ofNat 35 x.ext))))) = true := by decide +kernel

/-- Hypotheses of Obligations.RegisterInstructionsWriteTheirResult, part 2. -/
theorem witness_register_instructions_write_their_result_2 :
    (let c : Nat := 0;
     let k : Nat := 0;
     let s : State := after (prep z 0 (word 0 0 0 0 0 0) withRegs) 0 (word 0 0 0 0 0 0);
     decide ((s.thread c k).mode = ThreadMode.ready)) = true := by decide +kernel

/-- Hypotheses of Obligations.RegistersFollowTheirAccessType. -/
theorem witness_registers_follow_their_access_type :
    ((let s : State := z;
      decide (s.halted = false)) &&
     (let off : Word32 := 0x000FFFFF#32;
      decide (BitVec.toNat off < 1048576) &&
      decide (BitVec.toNat off % 4 ≠ 0)) &&
     (let off : Word32 := 0x04000000#32;
      decide (67108864 ≤ BitVec.toNat off) &&
      decide (BitVec.toNat off < 536870912) &&
      (let s : State := z;
       decide (s.dbgRight 4 = false) &&
       decide (2097152 ≤ BitVec.toNat off))) &&
     (let off : Word32 := 0x03600000#32;
      decide (56623104 ≤ BitVec.toNat off) &&
      decide (BitVec.toNat off < 58720256) &&
      (let s : State := sRight4;
       decide (s.halted = false) &&
       decide (s.dbgRight 4 = true) &&
       decide (2097152 ≤ BitVec.toNat off) &&
       decide (BitVec.toNat off < 67108864) &&
       decide (laneTest (BitVec.toNat off) = false ∨ s.dbgRight 12 = true))) &&
     (let s : State := sHeldPart;
      decide (s.halted = true)) &&
     (let off : Word32 := 0x0340100C#32;
      let s : State := z;
      decide (s.dbgRight 12 = false) &&
      decide (laneTest (BitVec.toNat off) = true)) &&
     (let off : Word32 := 0x20000000#32;
      decide (536870912 ≤ BitVec.toNat off)) &&
     (let off : Nat := 0x04000000;
      decide (67108864 ≤ off) &&
      decide (off < 536870912)) &&
     (let off : Nat := 0x03600000;
      decide (56623104 ≤ off) &&
      decide (off < 58720256))) = true := by decide +kernel

/-- Hypotheses of Obligations.RekeyAndScrubRows. -/
theorem witness_rekey_and_scrub_rows :
    ((let d : Desc := dRekey;
      (let s : State := z;
       let s0 : State := (s.reserve d).getD s;
       decide (hullFieldsOk d = true) &&
       decide ((s0.region (hullKey d)).state = RegionState.off) &&
       accepts d 0 [(9, 2)] s) &&
      (let s : State := region0 fun r => { r with state := .tainted };
       let s0 : State := (s.reserve d).getD s;
       decide (hullFieldsOk d = true) &&
       decide ((s0.region (hullKey d)).state ≠ RegionState.off) &&
       decide ((s0.region (hullKey d)).state = RegionState.tainted ∨ ((s0.taints (hullKey d)).any fun (x : Taint) => x.region == hullKey
           d) = true) &&
       accepts d 0 [(9, 2)] s) &&
      (let s : State := sRekeying;
       let s0 : State := (s.reserve d).getD s;
       decide (hullFieldsOk d = true) &&
       decide ((s0.region (hullKey d)).state ≠ RegionState.off) &&
       decide ((s0.region (hullKey d)).state ≠ RegionState.tainted) &&
       decide (((s0.taints (hullKey d)).any fun (x : Taint) => x.region == hullKey d) = false) &&
       decide ((s0.region (hullKey d)).work ≠ none ∨ s0.axis.serving = false) &&
       accepts d 0 [(9, 2)] s) &&
      (let s : State := zm;
       let s0 : State := (s.reserve d).getD s;
       decide (hullFieldsOk d = true) &&
       decide ((s0.region (hullKey d)).state ≠ RegionState.off) &&
       decide ((s0.region (hullKey d)).state ≠ RegionState.tainted) &&
       decide (((s0.taints (hullKey d)).any fun (x : Taint) => x.region == hullKey d) = false) &&
       decide ((s0.region (hullKey d)).work = none) &&
       decide (s0.axis.serving = true) &&
       accepts d 0 [(9, 2)] s)) &&
     (let m : MemKind := .hbm;
      let n : Fin 16 := fp0;
      (let s : State := sRekeying;
       decide ((s.region (regionKey m n.val)).state = RegionState.rekey)) &&
      (let s : State := zm;
       decide ((s.region (regionKey m n.val)).state ≠ RegionState.rekey) &&
       decide ((s.region (regionKey m n.val)).overflowPass = [])) &&
      (let s : State := sOverflow;
       decide ((s.region (regionKey m n.val)).overflowPass ≠ []))) &&
     (let a : BitVec 40 := 0x103FFFFFFF#40;
      let e : Ecc := Ecc.clean;
      let s : State := zm;
      decide (e = Ecc.clean ∨ s.memAt a.toNat = none)) &&
     (let a : BitVec 40 := 0x3FFFFFF#40;
      (let s : State := zm;
       decide (s.halted = false) &&
       decide (s.memAt a.toNat ≠ none)) &&
      (let s : State := sOverflow;
       decide (s.halted = false) &&
       decide (s.memAt a.toNat ≠ none) &&
       (match (s.regionAt a.toNat) with
         | some k =>
           decide ((s.region k).integ = true)
         | _ => false)))) = true := by decide +kernel

/-- Hypotheses of Obligations.RingsAreEnabledFedAndInterrupt, part 1. -/
theorem witness_rings_are_enabled_fed_and_interrupt_1 :
    ((let k : RingKind := .completion;
      (let r : Fin 64 := r63;
       (let s : State := sRingRegs;
        (let v : Word32 := 0x80000000#32;
         decide (s.halted = false) &&
         decide (r.val < ringCount k) &&
         decide ((s.ring k r.val).state = RingState.disabled) &&
         decide ((s.setReg (ringOff k r.val + 8) (BitVec.ofNat 32 ((BitVec.toNat v ||| 2 ^ 31) &&& ringCfgMask))).ringConfigOk k r.val
             ((BitVec.toNat v ||| 2 ^ 31) &&& ringCfgMask) = true)) &&
        (let v : Word32 := 4294967295#32;
         decide (s.halted = false) &&
         decide (r.val < ringCount k) &&
         decide ((s.ring k r.val).state = RingState.disabled) &&
         decide ((s.setReg (ringOff k r.val + 8) (BitVec.ofNat 32 ((BitVec.toNat v ||| 2 ^ 31) &&& ringCfgMask))).ringConfigOk k r.val
             ((BitVec.toNat v ||| 2 ^ 31) &&& ringCfgMask) = false)) &&
        decide (s.halted = false) &&
        decide (k = RingKind.completion ∨ k = RingKind.event ∧ r.val < 16 ∨ k = RingKind.management ∧ (r.val = 0 ∨ r.val = 2)) &&
        decide ((s.ring k r.val).unread = [] ∨ (s.ring k r.val).us = 0 ∨ k = RingKind.command)) &&
       (let s : State := withRing .completion 63 xUnread;
        decide (k ≠ RingKind.command) &&
        (match ((s.ring k r.val).unread) with
          | (_, _, _) :: _ =>
            decide ((s.ring k r.val).us ≠ 0)
          | _ => false))) &&
      (let r : Fin 64 := r0;
       let s : State := sRingRegs;
       decide (s.halted = false) &&
       decide (r.val < ringCount k) &&
       decide ((s.ring k r.val).state = RingState.running ∨ (s.ring k r.val).state = RingState.error) &&
       decide (k = RingKind.management ∧ r.val < 4 ∨ k = RingKind.completion ∧ s.completionNamed r.val = false) &&
       decide ((s.ring k r.val).state ≠ RingState.disabled))) &&
     (let k : RingKind := .command;
      let r : Fin 64 := r63;
      (let s : State := withRing .command 63 { Ring.reset with state := .draining };
       decide (s.halted = false) &&
       decide (r.val < ringCount k) &&
       decide ((s.ring k r.val).state = RingState.draining)) &&
      (let s : State := sRingRegs;
       decide (s.halted = false) &&
       decide (k ≠ RingKind.completion) &&
       decide (r.val < ringCount k) &&
       decide ((s.ring k r.val).state = RingState.disabled)) &&
      decide (k = RingKind.command ∨ ringCount k ≤ r.val ∨ k = RingKind.management ∧ r.val % 2 = 1))) = true := by decide +kernel

/-- Hypotheses of Obligations.RingsAreEnabledFedAndInterrupt, part 2. -/
theorem witness_rings_are_enabled_fed_and_interrupt_2 :
    ((let r : Fin 64 := r63;
      (let s : State := withRing .command 63 { Ring.reset with state := .draining };
       (let k : RingKind := RingKind.command;
        decide (s.halted = false) &&
        decide ((s.ring k r.val).state ≠ RingState.disabled)) &&
       decide (s.halted = false) &&
       decide ((s.ring RingKind.command r.val).state = RingState.draining) &&
       decide ((s.ring RingKind.command r.val).outs = [])) &&
      (let s : State := sRingRegs;
       decide (s.halted = false) &&
       decide ((s.ring RingKind.command r.val).outs ≠ [] ∨ (s.ring RingKind.command r.val).state ≠ RingState.draining) &&
       decide ((s.ring RingKind.command r.val).state ≠ RingState.running) &&
       decide ((s.readMem Master.annulus (ringOwner r.val) ((s.ring RingKind.command r.val).slotAddr (s.ring RingKind.command
           r.val).ci.toNat 64) 64).fst = MemRead.refused) &&
       decide (∀ (o : Outstanding), o ∈ (s.ring RingKind.command r.val).outs → rowless o.desc = none)) &&
      (let s : State := withRing .command 63 { Ring.reset with state := .running };
       (let v : Word32 := 0x80000000#32;
        decide (s.halted = false) &&
        decide ((s.ring RingKind.command r.val).state = RingState.running) &&
        decide (idxDiff (BitVec.ofNat 17 (BitVec.toNat v)) (s.ring RingKind.command r.val).ci ≤ (s.ring RingKind.command r.val).cap)) &&
       (let v : Word32 := 16#32;
        decide (s.halted = false) &&
        decide ((s.ring RingKind.command r.val).state = RingState.running) &&
        decide ((s.ring RingKind.command r.val).cap < idxDiff (BitVec.ofNat 17 (BitVec.toNat v)) (s.ring RingKind.command r.val).ci))) &&
      (let s : State := sFetch;
       (match ((s.readMem Master.annulus (ringOwner r.val) ((s.ring RingKind.command r.val).slotAddr (s.ring RingKind.command r.val).ci.toNat 64) 64).fst) with
         | MemRead.data _ =>
           true
         | _ => false))) &&
     (let r : Fin 64 := 1;
      let s : State := sEvent;
      let k : RingKind := RingKind.event;
      decide (s.halted = false) &&
      decide (r.val < 16) &&
      decide ((s.ring k r.val).state ≠ RingState.disabled)) &&
     (let r : Fin 64 := 5;
      let s : State := withRing .command 63 { Ring.reset with state := .running, cap := 16, cpl := 5 };
      decide (s.halted = false) &&
      decide (s.completionNamed r.val = true)) &&
     (let k : RingKind := .event;
      let r : Fin 64 := r63;
      let s : State := sRingRegs;
      decide (s.halted = false) &&
      decide (ringCount k ≤ r.val)) &&
     (let now : Nat := 10005;
      let x : Ring := xUnread;
      (match (x.unread) with
        | (_, t0, _) :: _ =>
          decide (x.us ≠ 0) &&
          decide (t0 + 1000 * x.us.toNat ≤ now)
        | _ => false))) = true := by decide +kernel

/-- Hypotheses of Obligations.RingsAreEnabledFedAndInterrupt, part 3. -/
theorem witness_rings_are_enabled_fed_and_interrupt_3 :
    ((let s : State := sFetch;
      decide (∀ (j : Nat), j < 64 → ∀ (o : Outstanding), o ∈ (s.ring RingKind.command j).outs → rowless o.desc = none) &&
      (let r : Fin 64 := s.rings.fetchNext;
       decide (s.fetchable r.val = true))) &&
     (let r : Fin 64 := 0;
      let s : State := badLine.setRing .command 0 { Ring.reset with state := .running, base := 64, cap := 16, pi := 1 };
      decide ((s.readMem Master.annulus (ringOwner r.val) ((s.ring RingKind.command r.val).slotAddr (s.ring RingKind.command
          r.val).ci.toNat 64) 64).fst = MemRead.failed)) &&
     (let s : State := sRingRegs;
      decide (∀ (j : Nat), j < 64 → ∀ (o : Outstanding), o ∈ (s.ring RingKind.command j).outs → rowless o.desc = none) &&
      decide (∀ (j : Nat), j < 64 → s.fetchable j = false))) = true := by decide +kernel

/-- Hypotheses of Obligations.ScratchReadsWhatWasWritten. -/
theorem witness_scratch_reads_what_was_written :
    (let a : Nat := 8;
     let bs : List Byte := List.replicate 8 1#8;
     (let n : Nat := 8;
      decide (n = 1 ∨ n = 2 ∨ n = 4 ∨ n = 8 ∨ n = 16) &&
      decide (a % n = 0) &&
      decide (bs.length = n)) &&
     (let j : Nat := 16;
      let n : Nat := 8;
      decide (n = 1 ∨ n = 2 ∨ n = 4 ∨ n = 8 ∨ n = 16) &&
      decide (a % n = 0) &&
      decide (bs.length = n) &&
      decide (j < a ∨ a + n ≤ j))) = true := by decide +kernel

/-- Hypotheses of Obligations.SealingCommandsKeepTheirPayload. -/
theorem witness_sealing_commands_keep_their_payload :
    (let m : Mbx := .compass;
     (let s : State := asking 9 80 [];
      let p : List Byte := (s.mbx m).payload;
      decide ((if s.lcService = false then 1 else if p.length < 13 ∨ 332 < p.length ∨ 64 ≤ leAt p 0 1 ∨ 16 ≤ leAt p 1 1 ∨ bits (leAt p 1
          1) 2 2 = 3 then 8 else if s.axis.serving = false then 9 else 0) ≠ 0) &&
      serves m 80 s) &&
     (let s : State := asking 9 80 (pSeal 1);
      let p : List Byte := (s.mbx m).payload;
      decide ((if s.lcService = false then 1 else if p.length < 13 ∨ 332 < p.length ∨ 64 ≤ leAt p 0 1 ∨ 16 ≤ leAt p 1 1 ∨ bits (leAt p 1
          1) 2 2 = 3 then 8 else if s.axis.serving = false then 9 else 0) = 0) &&
      serves m 80 s) &&
     (let s : State := asking 0 81 [];
      decide (s.lcService = false) &&
      serves m 81 s) &&
     (let s : State := asking 9 81 [];
      let p : List Byte := (s.mbx m).payload;
      decide (s.lcService = true) &&
      decide (s.unsealBlob p = none) &&
      serves m 81 s) &&
     (let s : State := asking 9 81 (blob 1 [0x5A]);
      let p : List Byte := (s.mbx m).payload;
      decide (s.lcService = true) &&
      (match (s.unsealBlob p) with
        | some _ =>
          serves m 81 s
        | _ => false)) &&
     (let s : State := asking 9 82 [];
      let p : List Byte := (s.mbx m).payload;
      decide ((if s.lcService = false then 1 else if p.length < 4 ∨ 2 < leAt p 2 1 ∨ 32 ≤ leAt p 3 1 then 8 else if s.axis.serving = false
          then 9 else if s.unsealBlob (List.drop 4 p) = none then 10 else 0) ≠ 0) &&
      serves m 82 s) &&
     (let s : State := asking 9 82 ([0, 0, 0, 4] ++ blob 1 [0x5A]);
      let p : List Byte := (s.mbx m).payload;
      decide ((if s.lcService = false then 1 else if p.length < 4 ∨ 2 < leAt p 2 1 ∨ 32 ≤ leAt p 3 1 then 8 else if s.axis.serving = false
          then 9 else if s.unsealBlob (List.drop 4 p) = none then 10 else 0) = 0) &&
      (match (s.unsealBlob (List.drop 4 p)) with
        | some pt =>
          decide (bits (leAt (List.drop 4 p) 17 1) 2 2 = 0 ∨ slotExists (bits (leAt (List.drop 4 p) 17 1) 2 2) (leAt p 0 2) = false ∨
              pt.length ≠ algLen (BitVec.ofNat 2 (leAt p 2 1)) ∨ usageOk (bits (leAt (List.drop 4 p) 17 1) 2 2) (leAt p 3 1) = false) &&
          serves m 82 s
        | _ => false)) &&
     (let s : State := asking 9 82 pToSlot;
      let p : List Byte := (s.mbx m).payload;
      decide ((if s.lcService = false then 1 else if p.length < 4 ∨ 2 < leAt p 2 1 ∨ 32 ≤ leAt p 3 1 then 8 else if s.axis.serving = false
          then 9 else if s.unsealBlob (List.drop 4 p) = none then 10 else 0) = 0) &&
      (match (s.unsealBlob (List.drop 4 p)) with
        | some pt =>
          decide (¬(bits (leAt (List.drop 4 p) 17 1) 2 2 = 0 ∨ slotExists (bits (leAt (List.drop 4 p) 17 1) 2 2) (leAt p 0 2) = false ∨
              pt.length ≠ algLen (BitVec.ofNat 2 (leAt p 2 1)) ∨ usageOk (bits (leAt (List.drop 4 p) 17 1) 2 2) (leAt p 3 1) = false)) &&
          serves m 82 s
        | _ => false)) &&
     (let s : State := asking 9 83 [];
      let p : List Byte := (s.mbx m).payload;
      decide ((if s.lcService = false then 1 else if leAt p 0 1 ≠ 1 ∧ leAt p 0 1 ≠ 2 ∨ leAt p 1 3 ≠ 0 ∨ 5 < (fun (i : Nat) => leAt p (4 +
          52 * i) 1) 0 ∨ leAt p 5 3 ≠ 0 ∨ leAt p 0 1 = 2 ∧ (5 < (fun (i : Nat) => leAt p (4 + 52 * i) 1) 1 ∨ leAt p 57 3 ≠ 0) then 8 else if
          s.unsealBlob (List.drop (4 + 52 * leAt p 0 1) p) = none then 10 else 0) ≠ 0) &&
      serves m 83 s) &&
     (let s : State := asking 9 83 pMigrate;
      let p : List Byte := (s.mbx m).payload;
      decide ((if s.lcService = false then 1 else if leAt p 0 1 ≠ 1 ∧ leAt p 0 1 ≠ 2 ∨ leAt p 1 3 ≠ 0 ∨ 5 < (fun (i : Nat) => leAt p (4 +
          52 * i) 1) 0 ∨ leAt p 5 3 ≠ 0 ∨ leAt p 0 1 = 2 ∧ (5 < (fun (i : Nat) => leAt p (4 + 52 * i) 1) 1 ∨ leAt p 57 3 ≠ 0) then 8 else if
          s.unsealBlob (List.drop (4 + 52 * leAt p 0 1) p) = none then 10 else 0) = 0) &&
      (match (s.unsealBlob (List.drop (4 + 52 * leAt p 0 1) p)) with
        | some _ =>
          serves m 83 s
        | _ => false)) &&
     (let s : State := asking 9 84 [];
      let p : List Byte := (s.mbx m).payload;
      decide ((if s.lcService = false then 1 else if p.length < 5 ∨ leAt p 0 4 % 4096 ≠ 0 ∨ s.apex.flashErase = false ∨ s.apex.flashSize <
          leAt p 0 4 + 4096 ∨ s.sectorReserved (leAt p 0 4) = true then 8 else 0) ≠ 0) &&
      serves m 84 s) &&
     (let s : State := warned (flashed (asking 9 84 (le 4 0x1000 ++ [1])));
      let p : List Byte := (s.mbx m).payload;
      decide ((if s.lcService = false then 1 else if p.length < 5 ∨ leAt p 0 4 % 4096 ≠ 0 ∨ s.apex.flashErase = false ∨ s.apex.flashSize <
          leAt p 0 4 + 4096 ∨ s.sectorReserved (leAt p 0 4) = true then 8 else 0) = 0) &&
      decide (s.cpr.warn ≠ []) &&
      decide (s.apex.heldWrite = none) &&
      serves m 84 s) &&
     (let s : State := holding (warned (flashed (asking 9 84 (le 4 0x1000 ++ [1]))));
      let p : List Byte := (s.mbx m).payload;
      decide ((if s.lcService = false then 1 else if p.length < 5 ∨ leAt p 0 4 % 4096 ≠ 0 ∨ s.apex.flashErase = false ∨ s.apex.flashSize <
          leAt p 0 4 + 4096 ∨ s.sectorReserved (leAt p 0 4) = true then 8 else 0) = 0) &&
      decide (s.cpr.warn ≠ []) &&
      decide (s.apex.heldWrite ≠ none) &&
      serves m 84 s) &&
     (let s : State := flashed (asking 9 84 (le 4 0x2000 ++ [1]));
      let p : List Byte := (s.mbx m).payload;
      decide ((if s.lcService = false then 1 else if p.length < 5 ∨ leAt p 0 4 % 4096 ≠ 0 ∨ s.apex.flashErase = false ∨ s.apex.flashSize <
          leAt p 0 4 + 4096 ∨ s.sectorReserved (leAt p 0 4) = true then 8 else 0) = 0) &&
      decide (s.cpr.warn = []) &&
      serves m 84 s) &&
     (let s : State := asking 0 85 [];
      decide (s.lcService = false) &&
      serves m 85 s) &&
     (let s : State := asking 9 85 [];
      let p : List Byte := (s.mbx m).payload;
      decide (s.lcService = true) &&
      decide (p.length ≠ 4 ∨ s.apex.flashSize ≤ leAt p 0 4) &&
      serves m 85 s) &&
     (let s : State := flashed (asking 9 85 (le 4 0x1000));
      let p : List Byte := (s.mbx m).payload;
      decide (s.lcService = true) &&
      decide (p.length = 4) &&
      decide (leAt p 0 4 < s.apex.flashSize) &&
      serves m 85 s)) = true := by decide +kernel

/-- Hypotheses of Obligations.SectorGatesAndRecords, part 1. -/
theorem witness_sector_gates_and_records_1 :
    (let d : Desc := dGateArm 0;
     (let s : State := sGateArmed;
      decide (31 < d.get 8 1 ∨ d.get 12 2 = 0 ∨ 1024 < d.get 12 2 ∨ d.get 24 4 < 1000 ∨ 1000000000 < d.get 24 4 ∨ 999999999 < d.get 34
          4) &&
      accepts d 0 [(8, 1), (12, 2), (16, 8), (24, 4), (28, 10)] s &&
      (let s0 : State := (s.reserve d).getD s;
       decide (bitOf d.flags 0 = false) &&
       decide (31 < d.get 8 1 ∨ (s0.gate (d.get 8 1)).pend = none ∨ (s0.gate (d.get 8 1)).armed = true) &&
       accepts d 1 [(8, 1)] s)) &&
     (let s : State := gates { GatePort.reset with pend := some (gl 2000) };
      let s0 : State := (s.reserve d).getD s;
      decide (bitOf d.flags 0 = false) &&
      decide (d.get 8 1 ≤ 31) &&
      (match ((s0.gate (d.get 8 1)).pend) with
        | some l =>
          decide ((s0.gate (d.get 8 1)).armed = false) &&
          decide ((s0.gnomon.time + 2000 + if 0 < s0.gnomon.frac then 1 else 0) ≤ l.start) &&
          accepts d 1 [(8, 1)] s
        | _ => false)) &&
     (let s : State := gates { GatePort.reset with pend := some (gl 1999) };
      let s0 : State := (s.reserve d).getD s;
      decide (bitOf d.flags 0 = false) &&
      decide (d.get 8 1 ≤ 31) &&
      (match ((s0.gate (d.get 8 1)).pend) with
        | some l =>
          decide ((s0.gate (d.get 8 1)).armed = false) &&
          decide (l.start < s0.gnomon.time + 2000 + if 0 < s0.gnomon.frac then 1 else 0) &&
          decide (0 < l.cycle) &&
          accepts d 1 [(8, 1)] s
        | _ => false))) = true := by decide +kernel

/-- Hypotheses of Obligations.SectorGatesAndRecords, part 2. -/
theorem witness_sector_gates_and_records_2 :
    ((let d : Desc := dGateLoad;
      (let s : State := sGateArmed;
       let s0 : State := (s.reserve d).getD s;
       decide (¬(31 < d.get 8 1 ∨ d.get 12 2 = 0 ∨ 1024 < d.get 12 2 ∨ d.get 24 4 < 1000 ∨ 1000000000 < d.get 24 4 ∨ 999999999 < d.get
           34 4)) &&
       decide ((s0.gate (d.get 8 1)).armed = true) &&
       accepts d 0 [(8, 1), (12, 2), (16, 8), (24, 4), (28, 10)] s) &&
      (let s : State := z;
       let s0 : State := (s.reserve d).getD s;
       decide (¬(31 < d.get 8 1 ∨ d.get 12 2 = 0 ∨ 1024 < d.get 12 2 ∨ d.get 24 4 < 1000 ∨ 1000000000 < d.get 24 4 ∨ 999999999 < d.get
           34 4)) &&
       decide ((s0.gate (d.get 8 1)).armed = false) &&
       (match ((s0.readBuf d Master.annulus (d.get 16 8) (8 * d.get 12 2)).fst) with
         | Except.error _ =>
           accepts d 0 [(8, 1), (12, 2), (16, 8), (24, 4), (28, 10)] s
         | _ => false)) &&
      (let s : State := poke zm 0x1000 (List.replicate 8 0xFF#8);
       decide (¬(31 < d.get 8 1 ∨ d.get 12 2 = 0 ∨ 1024 < d.get 12 2 ∨ d.get 24 4 < 1000 ∨ 1000000000 < d.get 24 4 ∨ 999999999 < d.get
           34 4)) &&
       (let s0 : State := (s.reserve d).getD s;
        decide ((s0.gate (d.get 8 1)).armed = false) &&
        (match ((s0.readBuf d Master.annulus (d.get 16 8) (8 * d.get 12 2)).fst) with
          | Except.ok bs =>
            decide (gateEntries (d.get 12 2) bs = none) &&
            accepts d 0 [(8, 1), (12, 2), (16, 8), (24, 4), (28, 10)] s
          | _ => false)))) &&
     (let d : Desc := dBlock 0 2;
      let s : State := sGateArmed;
      let s0 : State := (s.reserve d).getD s;
      decide (¬(31 < d.get 8 1 ∨ d.get 12 2 = 0 ∨ 1024 < d.get 12 2 ∨ d.get 24 4 < 1000 ∨ 1000000000 < d.get 24 4 ∨ 999999999 < d.get 34
          4)) &&
      decide ((s0.gate (d.get 8 1)).armed = false) &&
      (match ((s0.readBuf d Master.annulus (d.get 16 8) (8 * d.get 12 2)).fst) with
        | Except.ok bs =>
          (match (gateEntries (d.get 12 2) bs) with
            | some _ =>
              accepts d 0 [(8, 1), (12, 2), (16, 8), (24, 4), (28, 10)] s
            | _ => false)
        | _ => false)) &&
     (let d : Desc := dGateArm 1;
      let s : State := sGateArmed;
      let s0 : State := (s.reserve d).getD s;
      decide (bitOf d.flags 0 = true) &&
      decide (d.get 8 1 ≤ 31) &&
      decide ((s0.gate (d.get 8 1)).armed = true) &&
      decide (s0.gnomon.time < (s0.gate (d.get 8 1)).pstart) &&
      accepts d 1 [(8, 1)] s)) = true := by decide +kernel

/-- Hypotheses of Obligations.SectorGatesAndRecords, part 3. -/
theorem witness_sector_gates_and_records_3 :
    (let d : Desc := dService 1;
     let s : State := sGateArmed;
     let s0 : State := (s.reserve d).getD s;
     decide (bitOf d.flags 0 = true) &&
     decide (31 < d.get 8 1 ∨ (s0.gate (d.get 8 1)).armed = false ∨ (s0.gate (d.get 8 1)).pstart ≤ s0.gnomon.time) &&
     accepts d 1 [(8, 1)] s) = true := by decide +kernel

/-- Hypotheses of Obligations.SectorGatesAndRecords, part 4. -/
theorem witness_sector_gates_and_records_4 :
    (let s : State := sGateArmed;
     (let x : Fin 32 := 0;
      decide ((s.gate x.val).armed = false)) &&
     (let x : Fin 32 := x31f;
      decide ((s.gate x.val).armed = true) &&
      (match (((s.passToTime (s.gate x.val).pstart).gate x.val).next) with
        | some _ =>
          true
        | _ => false) &&
      decide (∀ (l : GateList), (s.gate x.val).oper = some l → l.at_ s.gnomon.time = none)) &&
     (let v : Word32 := 0x06000FFF#32;
      decide (s.halted = false) &&
      decide (bits (BitVec.toNat v) 0 16 < indLimit (bits (BitVec.toNat v) 24 4)) &&
      decide ((∀ (k : Nat), k < 8 → (List.map (fun (k : Nat) => s.regN (16777232 + 4 * k)) (List.range 8)).getD k 0 &&& indMask (bits
          (BitVec.toNat v) 24 4) (bits (BitVec.toNat v) 0 16) k = (List.map (fun (k : Nat) => s.regN (16777232 + 4 * k)) (List.range 8)).getD
          k 0)) &&
      decide ((bits (BitVec.toNat v) 24 4 = 4 → bits ((List.map (fun (k : Nat) => s.regN (16777232 + 4 * k)) (List.range 8)).getD 0 0) 29 2 = 0
          → (List.map (fun (k : Nat) => s.regN (16777232 + 4 * k)) (List.range 8)).getD 3 0 = 0)) &&
      decide (bits (BitVec.toNat v) 24 4 = 5 ∨ bits (BitVec.toNat v) 24 4 = 6)) &&
     (let v : Word32 := 0x02000240#32;
      decide (s.halted = false) &&
      decide (indLimit (bits (BitVec.toNat v) 24 4) ≤ bits (BitVec.toNat v) 0 16)) &&
     (let v : Word32 := 0x01000FFF#32;
      decide (s.halted = false) &&
      decide (bits (BitVec.toNat v) 0 16 < indLimit (bits (BitVec.toNat v) 24 4)) &&
      decide ((∀ (k : Nat), k < 8 → (List.map (fun (k : Nat) => s.regN (16777232 + 4 * k)) (List.range 8)).getD k 0 &&& indMask (bits
          (BitVec.toNat v) 24 4) (bits (BitVec.toNat v) 0 16) k = (List.map (fun (k : Nat) => s.regN (16777232 + 4 * k)) (List.range 8)).getD
          k 0)) &&
      decide ((bits (BitVec.toNat v) 24 4 = 4 → bits ((List.map (fun (k : Nat) => s.regN (16777232 + 4 * k)) (List.range 8)).getD 0 0) 29 2 = 0
          → (List.map (fun (k : Nat) => s.regN (16777232 + 4 * k)) (List.range 8)).getD 3 0 = 0)) &&
      decide (bits (BitVec.toNat v) 24 4 < 2) &&
      decide (¬(bits (BitVec.toNat v) 24 4 < 2 ∧ s.sq (bits (BitVec.toNat v) 24 4) (bits (BitVec.toNat v) 0 16) ≠ [] ∧ (qLport (if (bits
          (BitVec.toNat v) 24 4 < 2 ∨ (bits (BitVec.toNat v) 24 4 = 2 ∨ bits (BitVec.toNat v) 24 4 = 3) ∧ bits (BitVec.toNat v) 0 16 < 512)
          ∧ List.foldl (fun (a : Nat) (e : Nat × Nat) => a + e.fst * 2 ^ (32 * e.snd)) 0 (List.map (fun (k : Nat) => s.regN (16777232 + 4 * k))
          (List.range 8)).zipIdx % 65536 = 0 then List.foldl (fun (a : Nat) (e : Nat × Nat) => a + e.fst * 2 ^ (32 * e.snd)) 0 (List.map (fun (k :
          Nat) => s.regN (16777232 + 4 * k)) (List.range 8)).zipIdx + 1 else List.foldl (fun (a : Nat) (e : Nat × Nat) => a + e.fst * 2 ^ (32 *
          e.snd)) 0 (List.map (fun (k : Nat) => s.regN (16777232 + 4 * k)) (List.range 8)).zipIdx) ≠ qLport (s.srec (recKey (bits (BitVec.toNat
          v) 24 4) (bits (BitVec.toNat v) 0 16))) ∨ qGroup (if (bits (BitVec.toNat v) 24 4 < 2 ∨ (bits (BitVec.toNat v) 24 4 = 2 ∨ bits
          (BitVec.toNat v) 24 4 = 3) ∧ bits (BitVec.toNat v) 0 16 < 512) ∧ List.foldl (fun (a : Nat) (e : Nat × Nat) => a + e.fst * 2 ^ (32 *
          e.snd)) 0 (List.map (fun (k : Nat) => s.regN (16777232 + 4 * k)) (List.range 8)).zipIdx % 65536 = 0 then List.foldl (fun (a : Nat) (e :
          Nat × Nat) => a + e.fst * 2 ^ (32 * e.snd)) 0 (List.map (fun (k : Nat) => s.regN (16777232 + 4 * k)) (List.range 8)).zipIdx + 1 else
          List.foldl (fun (a : Nat) (e : Nat × Nat) => a + e.fst * 2 ^ (32 * e.snd)) 0 (List.map (fun (k : Nat) => s.regN (16777232 + 4 * k))
          (List.range 8)).zipIdx) ≠ qGroup (s.srec (recKey (bits (BitVec.toNat v) 24 4) (bits (BitVec.toNat v) 0 16))))))) &&
     (let v : Word32 := 0x0400FFFF#32;
      decide (s.halted = false) &&
      decide (bits (BitVec.toNat v) 0 16 < indLimit (bits (BitVec.toNat v) 24 4)) &&
      decide ((∀ (k : Nat), k < 8 → (List.map (fun (k : Nat) => s.regN (16777232 + 4 * k)) (List.range 8)).getD k 0 &&& indMask (bits
          (BitVec.toNat v) 24 4) (bits (BitVec.toNat v) 0 16) k = (List.map (fun (k : Nat) => s.regN (16777232 + 4 * k)) (List.range 8)).getD
          k 0)) &&
      decide ((bits (BitVec.toNat v) 24 4 = 4 → bits ((List.map (fun (k : Nat) => s.regN (16777232 + 4 * k)) (List.range 8)).getD 0 0) 29 2 = 0
          → (List.map (fun (k : Nat) => s.regN (16777232 + 4 * k)) (List.range 8)).getD 3 0 = 0)) &&
      decide (bits (BitVec.toNat v) 24 4 = 4 ∨ (bits (BitVec.toNat v) 24 4 = 2 ∨ bits (BitVec.toNat v) 24 4 = 3) ∧ 512 ≤ bits (BitVec.toNat
          v) 0 16)) &&
     (let v : Word32 := 0x03600000#32;
      decide (s.halted = false) &&
      decide (bits (BitVec.toNat v) 0 16 < indLimit (bits (BitVec.toNat v) 24 4)) &&
      decide ((∀ (k : Nat), k < 8 → (List.map (fun (k : Nat) => s.regN (16777232 + 4 * k)) (List.range 8)).getD k 0 &&& indMask (bits
          (BitVec.toNat v) 24 4) (bits (BitVec.toNat v) 0 16) k = (List.map (fun (k : Nat) => s.regN (16777232 + 4 * k)) (List.range 8)).getD
          k 0)) &&
      decide ((bits (BitVec.toNat v) 24 4 = 4 → bits ((List.map (fun (k : Nat) => s.regN (16777232 + 4 * k)) (List.range 8)).getD 0 0) 29 2 = 0
          → (List.map (fun (k : Nat) => s.regN (16777232 + 4 * k)) (List.range 8)).getD 3 0 = 0)) &&
      decide (bits (BitVec.toNat v) 24 4 = 2 ∨ bits (BitVec.toNat v) 24 4 = 3) &&
      decide (bits (BitVec.toNat v) 0 16 < 512))) = true := by decide +kernel

/-- Hypotheses of Obligations.SectorGatesAndRecords, part 5. -/
theorem witness_sector_gates_and_records_5 :
    ((let s : State := gates { GatePort.reset with pend := none, armed := true, pstart := 5000 };
      let x : Fin 32 := 31;
      decide ((s.gate x.val).armed = true) &&
      decide (((s.passToTime (s.gate x.val).pstart).gate x.val).next = none)) &&
     (let s : State := sGateOper;
      let x : Fin 32 := x31f;
      (match ((s.gate x.val).oper) with
        | some l =>
          (match (l.at_ s.gnomon.time) with
            | some (_, _, _, _) =>
              true
            | _ => false)
        | _ => false)) &&
     (let s : State := sHeldPart;
      decide (s.halted = true)) &&
     (let s : State := sInd 0xA0000000;
      let v : Word32 := 0x06000FFF#32;
      decide (s.halted = false) &&
      decide (bits (BitVec.toNat v) 0 16 < indLimit (bits (BitVec.toNat v) 24 4)) &&
      decide (¬((∀ (k : Nat), k < 8 → (List.map (fun (k : Nat) => s.regN (16777232 + 4 * k)) (List.range 8)).getD k 0 &&& indMask (bits
          (BitVec.toNat v) 24 4) (bits (BitVec.toNat v) 0 16) k = (List.map (fun (k : Nat) => s.regN (16777232 + 4 * k)) (List.range 8)).getD
          k 0) ∧ (bits (BitVec.toNat v) 24 4 = 4 → bits ((List.map (fun (k : Nat) => s.regN (16777232 + 4 * k)) (List.range 8)).getD 0 0) 29 2 =
          0 → (List.map (fun (k : Nat) => s.regN (16777232 + 4 * k)) (List.range 8)).getD 3 0 = 0))))) = true := by decide +kernel

/-- Hypotheses of Obligations.SectorGatesAndRecords, part 6. -/
theorem witness_sector_gates_and_records_6 :
    (let s : State := sOutC.setReg 0x01000010 0x81000001;
     let v : Word32 := 0;
     decide (bits (BitVec.toNat v) 0 16 < indLimit (bits (BitVec.toNat v) 24 4)) &&
     decide (bits (BitVec.toNat v) 24 4 < 2) &&
     decide (s.halted = false) &&
     decide ((∀ (k : Nat), k < 8 → (List.map (fun (k : Nat) => s.regN (16777232 + 4 * k)) (List.range 8)).getD k 0 &&& indMask (bits (BitVec.toNat
         v) 24 4) (bits (BitVec.toNat v) 0 16) k = (List.map (fun (k : Nat) => s.regN (16777232 + 4 * k)) (List.range 8)).getD k 0)) &&
     decide ((bits (BitVec.toNat v) 24 4 = 4 → bits ((List.map (fun (k : Nat) => s.regN (16777232 + 4 * k)) (List.range 8)).getD 0 0) 29 2 = 0 →
         (List.map (fun (k : Nat) => s.regN (16777232 + 4 * k)) (List.range 8)).getD 3 0 = 0)) &&
     decide (s.sq (bits (BitVec.toNat v) 24 4) (bits (BitVec.toNat v) 0 16) ≠ []) &&
     decide (qLport (if (bits (BitVec.toNat v) 24 4 < 2 ∨ (bits (BitVec.toNat v) 24 4 = 2 ∨ bits (BitVec.toNat v) 24 4 = 3) ∧ bits
         (BitVec.toNat v) 0 16 < 512) ∧ List.foldl (fun (a : Nat) (e : Nat × Nat) => a + e.fst * 2 ^ (32 * e.snd)) 0 (List.map (fun (k : Nat) =>
         s.regN (16777232 + 4 * k)) (List.range 8)).zipIdx % 65536 = 0 then List.foldl (fun (a : Nat) (e : Nat × Nat) => a + e.fst * 2 ^ (32 *
         e.snd)) 0 (List.map (fun (k : Nat) => s.regN (16777232 + 4 * k)) (List.range 8)).zipIdx + 1 else List.foldl (fun (a : Nat) (e : Nat ×
         Nat) => a + e.fst * 2 ^ (32 * e.snd)) 0 (List.map (fun (k : Nat) => s.regN (16777232 + 4 * k)) (List.range 8)).zipIdx) ≠ qLport (s.srec
         (recKey (bits (BitVec.toNat v) 24 4) (bits (BitVec.toNat v) 0 16))) ∨ qGroup (if (bits (BitVec.toNat v) 24 4 < 2 ∨ (bits
         (BitVec.toNat v) 24 4 = 2 ∨ bits (BitVec.toNat v) 24 4 = 3) ∧ bits (BitVec.toNat v) 0 16 < 512) ∧ List.foldl (fun (a : Nat) (e : Nat
         × Nat) => a + e.fst * 2 ^ (32 * e.snd)) 0 (List.map (fun (k : Nat) => s.regN (16777232 + 4 * k)) (List.range 8)).zipIdx % 65536 = 0 then
         List.foldl (fun (a : Nat) (e : Nat × Nat) => a + e.fst * 2 ^ (32 * e.snd)) 0 (List.map (fun (k : Nat) => s.regN (16777232 + 4 * k))
         (List.range 8)).zipIdx + 1 else List.foldl (fun (a : Nat) (e : Nat × Nat) => a + e.fst * 2 ^ (32 * e.snd)) 0 (List.map (fun (k : Nat) =>
         s.regN (16777232 + 4 * k)) (List.range 8)).zipIdx) ≠ qGroup (s.srec (recKey (bits (BitVec.toNat v) 24 4) (bits (BitVec.toNat v) 0
         16))))) = true := by decide +kernel

/-- Hypotheses of Obligations.StepRunsTheFrontCommand. -/
theorem witness_step_runs_the_front_command :
    ((let s : State := sPending;
      (match (s.pending) with
        | _ :: _ =>
          true
        | _ => false)) &&
     (let s : State := z;
      decide (s.pending = []))) = true := by decide +kernel

/-- Hypotheses of Obligations.SupplyTemperatureAndClockEvents, part 1. -/
theorem witness_supply_temperature_and_clock_events_1 :
    ((let rail : Rail := rail0;
      let s : State := warns [(0, 5), (1, 5)];
      decide ((s.apex.held = true ∨ railMonitored rail.id.val = false) ∨ (List.lookup rail.id.val s.cpr.warn).isSome = true) &&
      (match (List.lookup rail.id.val s.cpr.warn) with
        | some _ =>
          true
        | _ => false)) &&
     (let rail : Rail := ⟨10⟩;
      (let s : State := z;
       decide (¬(s.apex.held = true ∨ railMonitored rail.id.val = false)) &&
       decide (List.lookup rail.id.val s.cpr.warn = none) &&
       decide (List.lookup rail.id.val s.cpr.warn = none)) &&
      (let s : State := sHeldPart;
       decide (s.apex.held = true ∨ railMonitored rail.id.val = false))) &&
     (let s : State := z;
      decide (s.apex.heldWrite.isSome = true ∨ ∀ m ∈ [Mbx.compass, Mbx.debugPort], s.writesOf m = none) &&
      decide (s.cpr.trip.isSome = true ∨ s.apex.held = true ∨ s.cpr.por = true) &&
      decide (s.cpr.trip = none ∨ s.cpr.coolSince = none) &&
      decide (¬(s.cpr.por = false ∨ s.apex.held = true ∨ s.apex.booted = true)) &&
      decide
          (¬({ s with gnomon := { s.gnomon with pllLocked := true }, cpr := { s.cpr with por := false, straps := Config.straps &&& 1023#12, pll := 15 } }.firstSeed.openIntent.isSome
          = true ∧
          { s with gnomon := { s.gnomon with pllLocked := true }, cpr := { s.cpr with por := false, straps := Config.straps &&& 1023#12, pll := 15 } }.firstSeed.railWarns
          = true)) &&
      decide (s.axis.entropyOk = true) &&
      decide (s.axis.serving = true)) &&
     (let s : State := sHotTrip;
      decide (¬(s.cpr.trip.isSome = true ∨ s.apex.held = true ∨ s.cpr.por = true)) &&
      decide (s.cpr.por = false ∨ s.apex.held = true ∨ s.apex.booted = true)) &&
     (let s : State := sTripped;
      (match (s.cpr.trip) with
        | some _ =>
          (match (s.cpr.coolSince) with
            | some _ =>
              true
            | _ => false)
        | _ => false)) &&
     (let s : State := withAxis z fun a => { a with serving := false };
      decide (¬(s.cpr.por = false ∨ s.apex.held = true ∨ s.apex.booted = true)) &&
      decide
          (¬({ s with gnomon := { s.gnomon with pllLocked := true }, cpr := { s.cpr with por := false, straps := Config.straps &&& 1023#12, pll := 15 } }.firstSeed.openIntent.isSome
          = true ∧
          { s with gnomon := { s.gnomon with pllLocked := true }, cpr := { s.cpr with por := false, straps := Config.straps &&& 1023#12, pll := 15 } }.firstSeed.railWarns
          = true)) &&
      decide
          ({ s with gnomon := { s.gnomon with pllLocked := true }, cpr := { s.cpr with por := false, straps := Config.straps &&& 1023#12, pll := 15 } }.firstSeed.axis.serving
          = false) &&
      decide (s.axis.serving = false))) = true := by decide +kernel

/-- Hypotheses of Obligations.SupplyTemperatureAndClockEvents, part 2. -/
theorem witness_supply_temperature_and_clock_events_2 :
    (let s : State := sReseedFail;
     decide (s.axis.entropyOk = false)) = true := by decide +kernel

/-- Hypotheses of Obligations.ThreadsTakeTheirResultsAndEvents, part 1. -/
theorem witness_threads_take_their_results_and_events_1 :
    ((let j : Fin 8 := j1;
      (let s : State := sDesc2;
       let t : Tid := tid0;
       (match ((s.thread t.cl t.key).descs[j.val]?) with
         | some d =>
           decide (d.held.isSome = true ∨ (List.take j.val (s.thread t.cl t.key).descs).any d.after = true)
         | _ => false)) &&
      (let s : State := sDesc none;
       let t : Tid := tid0;
       decide ((s.thread t.cl t.key).descs.length ≤ j.val))) &&
     (let j : Fin 8 := j0;
      (let s : State := sDesc none;
       let t : Tid := tid0;
       (match ((s.thread t.cl t.key).descs[j.val]?) with
         | some d =>
           decide (¬(d.held.isSome = true ∨ (List.take j.val (s.thread t.cl t.key).descs).any d.after = true)) &&
           decide (d.pred = none)
         | _ => false)) &&
      (let s : State := sDesc (some (1, true));
       let t : Tid := tid0;
       (match ((s.thread t.cl t.key).descs[j.val]?) with
         | some d =>
           decide (¬(d.held.isSome = true ∨ (List.take j.val (s.thread t.cl t.key).descs).any d.after = true)) &&
           (match (d.pred) with
             | some (_, _) =>
               true
             | _ => false)
         | _ => false))) &&
     (let l : List Result := [rLoad];
      let p : Result → Bool := fun r => r == rReg;
      let v_r : Result := rReg;
      let rest : List Result := [];
      let y : Thread := { Thread.reset with results := [rLoad, rReg] };
      decide (∀ (e : Result), e ∈ l → p e = false) &&
      decide (p v_r = true) &&
      decide (y.results = l ++ v_r :: rest)) &&
     (let p : Result → Bool := fun r => r == rReg;
      let y : Thread := Thread.reset;
      decide (∀ (r : Result), r ∈ y.results → p r = false)) &&
     (let s : State := sDesc none;
      let t : Tid := tid0;
      decide (List.find? (fun (r : Result) => match r.load with | some a => !s.taintedAt a | none => false) (s.thread t.cl t.key).results =
          none) &&
      decide ((s.thread t.cl t.key).reads = [])) &&
     (let v_e : Ecc := Ecc.clean;
      let s : State := sResults;
      let t : Tid := tid0;
      (match (List.find? (fun (r : Result) => match r.load with | some a => !s.taintedAt a | none => false) (s.thread t.cl t.key).results) with
        | some v_r =>
          (match (v_r.load) with
            | some _ =>
              decide (v_e ≠ Ecc.uncorrectable)
            | _ => false)
        | _ => false)) &&
     (let s : State := sResults;
      let t : Tid := tid0;
      (match (List.find? (fun (r : Result) => match r.load with | some a => !s.taintedAt a | none => false) (s.thread t.cl t.key).results) with
        | some v_r =>
          (match (v_r.load) with
            | some _ =>
              true
            | _ => false)
        | _ => false))) = true := by decide +kernel

/-- Hypotheses of Obligations.ThreadsTakeTheirResultsAndEvents, part 2. -/
theorem witness_threads_take_their_results_and_events_2 :
    ((let n : Fin 17 := c0;
      (let v : Word32 := 31#32;
       decide (threadCount n.val / 8 ≤ (BitVec.toNat v ||| 2 ^ 31) % 32)) &&
      (let v : Word32 := 15#32;
       decide ((BitVec.toNat v ||| 2 ^ 31) % 32 < threadCount n.val / 8))) &&
     (let res : VerifyResult := .ok;
      (let s : State := sReads zm;
       let t : Tid := tid0;
       (match ((s.thread t.cl t.key).reads) with
         | a :: rest =>
           decide (((s.modThread t.cl t.key fun (y : Thread) => { y with reads := rest }).verdict a res).fst = none)
         | _ => false)) &&
      (let s : State := sReads badLine;
       let t : Tid := tid0;
       (match ((s.thread t.cl t.key).reads) with
         | a :: rest =>
           (match (((s.modThread t.cl t.key fun (y : Thread) => { y with reads := rest }).verdict a res).fst) with
             | some (_, _) =>
               true
             | _ => false)
         | _ => false))) &&
     (let addr : BitVec 40 := 0#40;
      (let s : State := sDesc none;
       decide (¬∃ (k : Nat), s.regionAt addr.toNat = some k ∧ (s.region k).integ = true)) &&
      (let res : VerifyResult := .ok;
       let s : State := sOverflow;
       decide (∃ (k : Nat), s.regionAt addr.toNat = some k ∧ (s.region k).integ = true) &&
       decide ((s.verdict addr.toNat res).fst = none))) &&
     (let addr : BitVec 40 := 64;
      let res : VerifyResult := .failed .mac none;
      let s : State := sInteg;
      decide (∃ (k : Nat), s.regionAt addr.toNat = some k ∧ (s.region k).integ = true) &&
      (match ((s.verdict addr.toNat res).fst) with
        | some (_, _) =>
          true
        | _ => false)) &&
     (let a : Nat := 0x04000000;
      let s : State := sDesc none;
      decide (s.regionAt a = none)) &&
     (let a : Nat := 64;
      (let s : State := sReads badLine;
       (match (s.regionAt a) with
         | some g =>
           (match (s.lineFault g (a / 64)) with
             | some _ =>
               true
             | _ => false)
         | _ => false)) &&
      (let node : Option (Nat × Nat) := none;
       let res : VerifyResult := .failed .mac none;
       let s : State := sInteg;
       let w : VerifyCause := VerifyCause.mac;
       (match (s.regionAt a) with
         | some g =>
           decide (s.lineFault g (a / 64) = none) &&
           decide (res = VerifyResult.failed w node)
         | _ => false))) &&
     (let a : Nat := 1;
      let s : State := sDesc none;
      (match (s.regionAt a) with
        | some g =>
          decide (s.lineFault g (a / 64) = none)
        | _ => false))) = true := by decide +kernel

/-- Hypotheses of Obligations.TwinCommandsAndHandover, part 1. -/
theorem witness_twin_commands_and_handover_1 :
    ((let d : Desc := dRotate;
      let s : State := leased .standby id;
      decide (twinRangesOk d = false) &&
      accepts d 0 twinFields s) &&
     (let d : Desc := dTwin 0;
      (let s : State := leased .standby id;
       let s0 : State := (s.reserve d).getD s;
       decide (d.get 8 1 = 0) &&
       decide (twinRangesOk d = true) &&
       decide (s0.twin.lease = Lease.standby ∨ s0.twin.lease = Lease.lapsed ∨ decide (s0.twin.lease = Lease.active ∨ s0.twin.lease =
           Lease.handover) = true ∧ (s0.twin.withParams d).fixedParams = s0.twin.fixedParams) &&
       accepts d 0 twinFields s) &&
      (let s : State := zm;
       let s0 : State := (s.reserve d).getD s;
       decide (d.get 8 1 = 0) &&
       decide (twinRangesOk d = true) &&
       decide (s0.twin.lease = Lease.unconfigured) &&
       accepts d 0 twinFields s) &&
      (let s : State := leased .solo id;
       let s0 : State := (s.reserve d).getD s;
       decide (d.get 8 1 = 0) &&
       decide (twinRangesOk d = true) &&
       decide (s0.twin.lease = Lease.solo ∨ decide (s0.twin.lease = Lease.active ∨ s0.twin.lease = Lease.handover) = true ∧
           (s0.twin.withParams d).fixedParams ≠ s0.twin.fixedParams) &&
       accepts d 0 twinFields s)) &&
     (let d : Desc := dTwin 1;
      (let s : State := zm;
       let s0 : State := (s.reserve d).getD s;
       decide (d.get 8 1 = 1) &&
       decide (twinRangesOk d = true) &&
       decide (s0.twin.lease = Lease.unconfigured) &&
       decide (s0.twin.barred = false) &&
       accepts d 0 twinFields s) &&
      (let s : State := leased .standby id;
       let s0 : State := (s.reserve d).getD s;
       decide (d.get 8 1 = 1) &&
       decide (twinRangesOk d = true) &&
       decide (s0.twin.lease ≠ Lease.unconfigured ∨ s0.twin.barred = true) &&
       accepts d 0 twinFields s)) &&
     (let d : Desc := dTwin 3;
      (let s : State := leased .standby id;
       let s0 : State := (s.reserve d).getD s;
       decide (d.get 8 1 = 3) &&
       decide (twinRangesOk d = true) &&
       decide (s0.twin.lease = Lease.standby ∨ s0.twin.lease = Lease.lapsed ∨ s0.twin.lease = Lease.unconfigured) &&
       accepts d 0 twinFields s) &&
      (let s : State := leased .solo id;
       let s0 : State := (s.reserve d).getD s;
       decide (d.get 8 1 = 3) &&
       decide (twinRangesOk d = true) &&
       decide (decide (s0.twin.lease = Lease.active ∨ s0.twin.lease = Lease.handover) = true ∨ s0.twin.lease = Lease.solo) &&
       accepts d 0 twinFields s)) &&
     (let d : Desc := dTwin 2;
      let s : State := leased .standby id;
      decide (d.get 8 1 = 2) &&
      accepts d 0 [(8, 56)] s) &&
     (let d : Desc := dTwinBody;
      let s : State := leased .standby id;
      accepts d 0 [(16, 8)] s)) = true := by decide +kernel

/-- Hypotheses of Obligations.TwinCommandsAndHandover, part 2. -/
theorem witness_twin_commands_and_handover_2 :
    ((let d : Desc := cmd 0x072 [];
      (let s : State := sTwinCurrent;
       let s0 : State := (s.reserve d).getD s;
       decide (s0.twin.lease = Lease.active) &&
       decide (s0.twin.linkUp = true) &&
       decide (s0.standbyCurrent = true) &&
       accepts d 0 [] s) &&
      (let s : State := leased .active fun t => { t with linkUp := true };
       let s0 : State := (s.reserve d).getD s;
       decide (s0.twin.lease = Lease.active) &&
       decide (s0.twin.linkUp = true) &&
       decide (s0.standbyCurrent = false) &&
       accepts d 0 [] s) &&
      (let s : State := leased .standby id;
       let s0 : State := (s.reserve d).getD s;
       decide (s0.twin.lease = Lease.solo ∨ s0.twin.lease = Lease.unconfigured ∨ s0.twin.lease = Lease.handover ∨ (s0.twin.lease =
           Lease.active ∨ s0.twin.lease = Lease.standby) ∧ s0.twin.linkUp = false) &&
       accepts d 0 [] s) &&
      (let s : State := leased .lapsed id;
       let s0 : State := (s.reserve d).getD s;
       decide (s0.twin.lease = Lease.lapsed) &&
       accepts d 0 [] s) &&
      (let s : State := sStandby;
       let s0 : State := (s.reserve d).getD s;
       decide (s0.twin.lease = Lease.standby) &&
       decide (s0.twin.linkUp = true) &&
       accepts d 0 [] s)) &&
     (let msg : List Byte := fromPeer 20 [];
      (let s : State := sAsked;
       decide ((s.chordOpen 20 msg).fst ≠ none) &&
       decide ((s.chordOpen 20 msg).snd.twin.lease = Lease.active) &&
       decide ((s.chordOpen 20 msg).snd.standbyCurrent = true)) &&
      (let s : State := leased .standby id;
       decide ((s.chordOpen 20 msg).fst = none ∨ (s.chordOpen 20 msg).snd.twin.lease ≠ Lease.active ∨ (s.chordOpen 20
           msg).snd.standbyCurrent = false))) &&
     (let s : State := sHanding none;
      (match (s.twin.handover) with
        | some (_, _, _) =>
          decide (s.twin.lease = Lease.handover)
        | _ => false)) &&
     (let s : State := withPair z fun t => { t with handover := some (none, 50, 1) };
      (match (s.twin.handover) with
        | some (_, _, _) =>
          decide (s.twin.lease ≠ Lease.handover)
        | _ => false)) &&
     (let s : State := leased .standby id;
      decide (s.twin.handover = none)) &&
     (let s : State := sHanding (some dNop);
      (match (s.twin.handover) with
        | some (some _, _, _) =>
          true
        | _ => false))) = true := by decide +kernel

/-- Hypotheses of Obligations.WarmDatapathAndPortResets. -/
theorem witness_warm_datapath_and_port_resets :
    ((let s : State := z;
      decide (s.apex.held = true ∨ s.cpr.por = true ∨ s.cpr.trip.isSome = true)) &&
     (let s : State := sResetting;
      decide (¬(s.apex.held = true ∨ s.cpr.por = true ∨ s.cpr.trip.isSome = true)) &&
      decide (s.cpr.dpBusy.isSome = true) &&
      (match (s.cpr.dpBusy) with
        | some _ =>
          true
        | _ => false)) &&
     (let s : State := sReady0;
      decide (¬(s.apex.held = true ∨ s.cpr.por = true ∨ s.cpr.trip.isSome = true)) &&
      decide (s.cpr.dpBusy = none) &&
      decide (∀ m ∈ [Mbx.compass, Mbx.debugPort], s.writesOf m = none) &&
      decide (s.openIntent = none) &&
      decide (¬(s.lc = 12 ∨ s.apex.holdCode = 225 ∨ s.apex.holdCode = 226)) &&
      decide (s.bootCopy = none) &&
      decide (s.halted = false) &&
      decide (s.cpr.dpBusy = none) &&
      (let v : Word32 := 0x7FFFFFFF#32;
       decide (s.halted = false) &&
       decide (bits (BitVec.toNat v) 5 1 = 1) &&
       decide (¬((s.setReg 2097172 (BitVec.ofNat 32 (BitVec.toNat v % 64 &&& 47))).portBusy (bits (BitVec.toNat v) 5 1) (BitVec.toNat v %
           16) = true ∨ (s.setReg 2097172 (BitVec.ofNat 32 (BitVec.toNat v % 64 &&& 47))).oddOfPair (bits (BitVec.toNat v) 5 1) (BitVec.toNat
           v % 16) = true))) &&
      (let v : Word32 := 0#32;
       decide (s.halted = false) &&
       decide (bits (BitVec.toNat v) 5 1 = 0) &&
       decide (¬((s.setReg 2097172 (BitVec.ofNat 32 (BitVec.toNat v % 64 &&& 47))).portBusy (bits (BitVec.toNat v) 5 1) (BitVec.toNat v %
           16) = true ∨ (s.setReg 2097172 (BitVec.ofNat 32 (BitVec.toNat v % 64 &&& 47))).oddOfPair (bits (BitVec.toNat v) 5 1) (BitVec.toNat
           v % 16) = true)))) &&
     (let s : State := inLife 12 z;
      decide (s.lc = 12 ∨ s.apex.holdCode = 225 ∨ s.apex.holdCode = 226)) &&
     (let c : Nat := 5;
      decide (c < 17)) &&
     (let n : Nat := 5;
      decide (n < 16)) &&
     (let id : Nat := 0x04000000;
      decide (1 ≤ id / 2 ^ 26) &&
      decide (id / 2 ^ 26 ≤ 11)) &&
     (let s : State := sEnabled0;
      let v : Word32 := 0#32;
      decide (s.halted = false) &&
      decide ((s.setReg 2097172 (BitVec.ofNat 32 (BitVec.toNat v % 64 &&& 47))).portBusy (bits (BitVec.toNat v) 5 1) (BitVec.toNat v % 16) =
          true ∨ (s.setReg 2097172 (BitVec.ofNat 32 (BitVec.toNat v % 64 &&& 47))).oddOfPair (bits (BitVec.toNat v) 5 1) (BitVec.toNat v %
          16) = true))) = true := by decide +kernel

/-- Hypotheses of Obligations.WordsFaultWaitOrPassTheirGuard, part 1. -/
theorem witness_words_fault_wait_or_pass_their_guard_1 :
    ((let i : Issue := iss;
      (let s : State := zm;
       decide (¬(((s.wake i.t.cl).thread i.t.cl i.t.key).mode = ThreadMode.ready ∧ (s.wake i.t.cl).eligibleThread i.t.cl i.t.key =
           true ∧ ((s.wake i.t.cl).pairsNow i.t.cl i.t.key ((s.wake i.t.cl).thread i.t.cl i.t.key).pc ((s.wake i.t.cl).fetch
           i.t.cl ((s.wake i.t.cl).thread i.t.cl i.t.key).high ((s.wake i.t.cl).thread i.t.cl i.t.key).pc) = true ∨ (s.wake
           i.t.cl).chosen i.t.cl (i.t.key / 8) = some i.t.key)))) &&
      (let s : State := prep zm 0 (BitVec.ofNat 64 (2 ^ 64 - 1)) withRegs;
       decide (i.imem ≠ Ecc.uncorrectable) &&
       decide (((s.wake i.t.cl).thread i.t.cl i.t.key).mode = ThreadMode.ready) &&
       decide ((s.wake i.t.cl).eligibleThread i.t.cl i.t.key = true) &&
       decide (((s.wake i.t.cl).pairsNow i.t.cl i.t.key ((s.wake i.t.cl).thread i.t.cl i.t.key).pc ((s.wake i.t.cl).fetch
           i.t.cl ((s.wake i.t.cl).thread i.t.cl i.t.key).high ((s.wake i.t.cl).thread i.t.cl i.t.key).pc) = true ∨ (s.wake
           i.t.cl).chosen i.t.cl (i.t.key / 8) = some i.t.key)) &&
       decide (Ins.legal i.t.cl (Ins.of ((s.wake i.t.cl).fetch i.t.cl ((s.wake i.t.cl).thread i.t.cl i.t.key).high ((s.wake
           i.t.cl).thread i.t.cl i.t.key).pc)) = false))) &&
     (let i : Issue := ⟨⟨0, 0⟩, .uncorrectable⟩;
      let s : State := prep zm 0 wHalt withRegs;
      decide (i.imem = Ecc.uncorrectable) &&
      decide (((s.wake i.t.cl).thread i.t.cl i.t.key).mode = ThreadMode.ready) &&
      decide ((s.wake i.t.cl).eligibleThread i.t.cl i.t.key = true) &&
      decide (((s.wake i.t.cl).pairsNow i.t.cl i.t.key ((s.wake i.t.cl).thread i.t.cl i.t.key).pc ((s.wake i.t.cl).fetch
          i.t.cl ((s.wake i.t.cl).thread i.t.cl i.t.key).high ((s.wake i.t.cl).thread i.t.cl i.t.key).pc) = true ∨ (s.wake
          i.t.cl).chosen i.t.cl (i.t.key / 8) = some i.t.key)))) = true := by decide +kernel

/-- Hypotheses of Obligations.WordsFaultWaitOrPassTheirGuard, part 2. -/
theorem witness_words_fault_wait_or_pass_their_guard_2 :
    (let c : Instr × List Nat := (Instr.halt iss, [0xA6]);
     let i : Issue := iss;
     (let s : State := prep zm 0 wDrop withRegs;
      decide (i.imem ≠ Ecc.uncorrectable) &&
      decide (((s.wake i.t.cl).thread i.t.cl i.t.key).mode = ThreadMode.ready) &&
      decide ((s.wake i.t.cl).eligibleThread i.t.cl i.t.key = true) &&
      decide (((s.wake i.t.cl).pairsNow i.t.cl i.t.key ((s.wake i.t.cl).thread i.t.cl i.t.key).pc ((s.wake i.t.cl).fetch
          i.t.cl ((s.wake i.t.cl).thread i.t.cl i.t.key).high ((s.wake i.t.cl).thread i.t.cl i.t.key).pc) = true ∨ (s.wake
          i.t.cl).chosen i.t.cl (i.t.key / 8) = some i.t.key)) &&
      decide (Ins.legal i.t.cl (Ins.of ((s.wake i.t.cl).fetch i.t.cl ((s.wake i.t.cl).thread i.t.cl i.t.key).high ((s.wake
          i.t.cl).thread i.t.cl i.t.key).pc)) = true) &&
      decide (¬(Ins.of ((s.wake i.t.cl).fetch i.t.cl ((s.wake i.t.cl).thread i.t.cl i.t.key).high ((s.wake i.t.cl).thread i.t.cl
          i.t.key).pc)).op ∈ c.snd)) &&
     (let s : State := prep zm 0 (word 0xA6 0 0 0 1 0) withRegs;
      decide (i.imem ≠ Ecc.uncorrectable) &&
      decide (((s.wake i.t.cl).thread i.t.cl i.t.key).mode = ThreadMode.ready) &&
      decide ((s.wake i.t.cl).eligibleThread i.t.cl i.t.key = true) &&
      decide (((s.wake i.t.cl).pairsNow i.t.cl i.t.key ((s.wake i.t.cl).thread i.t.cl i.t.key).pc ((s.wake i.t.cl).fetch
          i.t.cl ((s.wake i.t.cl).thread i.t.cl i.t.key).high ((s.wake i.t.cl).thread i.t.cl i.t.key).pc) = true ∨ (s.wake
          i.t.cl).chosen i.t.cl (i.t.key / 8) = some i.t.key)) &&
      decide (Ins.legal i.t.cl (Ins.of ((s.wake i.t.cl).fetch i.t.cl ((s.wake i.t.cl).thread i.t.cl i.t.key).high ((s.wake
          i.t.cl).thread i.t.cl i.t.key).pc)) = true) &&
      decide ((if i.imem = Ecc.corrected then ((s.wake i.t.cl).count (cid 5 0 i.t.cl)).raiseOnce 389 0 [BitVec.ofNat 8 i.t.cl] else
          s.wake i.t.cl).mustWait i.t.cl i.t.key (Ins.of ((s.wake i.t.cl).fetch i.t.cl ((s.wake i.t.cl).thread i.t.cl
          i.t.key).high ((s.wake i.t.cl).thread i.t.cl i.t.key).pc)) = false) &&
      decide (((s.wake i.t.cl).thread i.t.cl i.t.key).guardOk (Ins.of ((s.wake i.t.cl).fetch i.t.cl ((s.wake i.t.cl).thread
          i.t.cl i.t.key).high ((s.wake i.t.cl).thread i.t.cl i.t.key).pc)) = false) &&
      decide ((Ins.of ((s.wake i.t.cl).fetch i.t.cl ((s.wake i.t.cl).thread i.t.cl i.t.key).high ((s.wake i.t.cl).thread i.t.cl
          i.t.key).pc)).op ∈ c.snd))) = true := by decide +kernel

/-- Hypotheses of Obligations.WordsFaultWaitOrPassTheirGuard, part 3. -/
theorem witness_words_fault_wait_or_pass_their_guard_3 :
    (let c : Instr × List Nat := (Instr.emit iss, [0xB0]);
     let i : Issue := iss;
     let s : State := prep sItem 0 wEmit (fun t => { onItem t with results := [rReg] });
     decide (i.imem ≠ Ecc.uncorrectable) &&
     decide (((s.wake i.t.cl).thread i.t.cl i.t.key).mode = ThreadMode.ready) &&
     decide ((s.wake i.t.cl).eligibleThread i.t.cl i.t.key = true) &&
     decide (((s.wake i.t.cl).pairsNow i.t.cl i.t.key ((s.wake i.t.cl).thread i.t.cl i.t.key).pc ((s.wake i.t.cl).fetch i.t.cl
         ((s.wake i.t.cl).thread i.t.cl i.t.key).high ((s.wake i.t.cl).thread i.t.cl i.t.key).pc) = true ∨ (s.wake
         i.t.cl).chosen i.t.cl (i.t.key / 8) = some i.t.key)) &&
     decide (Ins.legal i.t.cl (Ins.of ((s.wake i.t.cl).fetch i.t.cl ((s.wake i.t.cl).thread i.t.cl i.t.key).high ((s.wake
         i.t.cl).thread i.t.cl i.t.key).pc)) = true) &&
     decide ((if i.imem = Ecc.corrected then ((s.wake i.t.cl).count (cid 5 0 i.t.cl)).raiseOnce 389 0 [BitVec.ofNat 8 i.t.cl] else
         s.wake i.t.cl).mustWait i.t.cl i.t.key (Ins.of ((s.wake i.t.cl).fetch i.t.cl ((s.wake i.t.cl).thread i.t.cl
         i.t.key).high ((s.wake i.t.cl).thread i.t.cl i.t.key).pc)) = true) &&
     decide ((Ins.of ((s.wake i.t.cl).fetch i.t.cl ((s.wake i.t.cl).thread i.t.cl i.t.key).high ((s.wake i.t.cl).thread i.t.cl
         i.t.key).pc)).op ∈ c.snd)) = true := by decide +kernel

/-! ### Witnesses that an opaque hash or a long frame keeps from evaluating -/

/-- Line port 0 may learn one key. -/
def sLearnNew : State := (locus z fun l => { l with learns := [rLearn] }).setReg 0x00C00400 1

/-- An empty table takes an entry in a candidate bucket. -/
theorem emInsert_empty (s : State) (e : EmEntry) (h : s.locus.em = []) (hb : s.locus.badSlots = []) : ∃ u, s.emInsert false e = (true, u) := by
  have b : ∀ n, s.badBucket n = false := fun n => by simp [State.badBucket, hb]
  simp [State.emInsert, State.placeEntry, State.candidates, State.freeSlots, State.emAt, slotsOf, h, hb, b, List.range_succ]

/-- Hypotheses of Obligations.ClientFramesAndLearning: a new key. -/
theorem witness_learn_new_key :
    sLearnNew.locus.side = [] ∧ sLearnNew.locus.learns = [rLearn] ∧ sLearnNew.learnBlocked rLearn = false ∧
    sLearnNew.emFind rLearn.profile rLearn.key = none ∧ sLearnNew.learnCount rLearn.lp.toNat < sLearnNew.learnCfg rLearn.lp.toNat % 2 ^ 20 ∧
    ∃ u, (sLearnNew.withLocus { sLearnNew.locus with learns := [] }).emInsert false
      ⟨rLearn.key, rLearn.profile, false, true, true, rLearn.lp, sLearnNew.learnedResult rLearn.lp.toNat⟩ = (true, u) := by
  refine ⟨rfl, rfl, ?_, by decide +kernel, by decide +kernel, emInsert_empty _ _ rfl rfl⟩
  simp [State.learnBlocked, State.candidates, State.lockOf, sLearnNew, locus, State.setReg, z, State.reset, LocusState.reset]

/-- Hypotheses of Obligations.ClientFramesAndLearning: a bucket is locked. -/
theorem witness_learn_locked_bucket :
    sLearnBlocked.locus.side = [] ∧ sLearnBlocked.locus.learns = [rLearn] ∧ sLearnBlocked.learnBlocked rLearn = true := by
  refine ⟨rfl, rfl, ?_⟩
  simp [State.learnBlocked, State.candidates, State.lockOf, State.emHash, sLearnBlocked, locus, rLearn]

/-! ### Record tables: the keyed hashes of R283 are opaque, so every bucket holds the same words -/

/-- One HBM region over all of HBM. -/
def hHash : HullState :=
  { z.hull with up := 3, regions := [(0, { Region.reset with state := .active, rights := 0x3FFF, base := 0, size := 512 })] }
/-- From 16 GiB on, every 8 bytes are p; below there are zeros. -/
def mHash (p : BitVec 64) : Memory := { cells := [], fills := [⟨2 ^ 34, 2 ^ 34, some p, 1⟩, ⟨0, 2 ^ 34, some 0, 1⟩] }
/-- Radius's area begins at 16 GiB, and bytes stand at 0x1000. -/
def onHash (s : State) (p : BitVec 64) (bs : List Byte) : State :=
  withRad { s with hull := hHash, mem := (mHash p).put 0x1000 bs } fun r => { r with base := 16 }
abbrev sHash (p : BitVec 64) (bs : List Byte) : State := onHash z p bs
/-- A line of eight words p. -/
def lineOf (p : BitVec 64) : List Byte := (List.range 64).map fun i => BitVec.ofNat 8 (p.toNat >>> (8 * (i % 8)))

theorem hash_readMem {s : State} (h : s.hull = hHash) {m : Master} (hm : m ≠ .debugPort) (o a : Nat) (ha : a % 64 = 0) (hl : a + 64 ≤ 2 ^ 35) :
    s.readMem m o a 64 = (.data (s.mem.get a 64), s) := by
  have h1 : linesOf a 64 = [a / 64] := by
    have : (a + 64 - 1) / 64 - a / 64 + 1 = 1 := by omega
    simp only [linesOf, this]
    simp
  have h2 : a / 64 * 64 = a := by omega
  have h3 : s.memAt a = some .hbm := by
    have : a < 0x0800000000 := by omega
    simp [State.memAt, this, h, hHash]
    decide
  have h4 : s.regionAt a = some 0 := by
    have h0 : (0#9).toNat = 0 := rfl
    simp [State.regionAt, h, hHash, Region.lo, Region.bytes]
    omega
  have h5 : s.readLine m .plainRead (a / 64) = .ok 0 := by
    have e : s.region 0 = { Region.reset with state := .active, rights := 0x3FFF, base := 0, size := 512 } := by simp [State.region, h]; rfl
    have f : s.lineFault 0 (a / 64) = none := by
      simp only [State.lineFault, e, State.taints, h]
      rfl
    simp only [State.readLine, h2, h3, h4, f, e]
    cases m <;> first | rfl | exact absurd rfl hm
  simp [State.readMem, h1, h5]

theorem hash_line {p : BitVec 64} {bs : List Byte} (hb : bs.length ≤ 64) {a : Nat} (ha : a % 64 = 0) (h0 : 2 ^ 34 ≤ a) (hl : a + 64 ≤ 2 ^ 35) :
    ((mHash p).put 0x1000 bs).get a 64 = lineOf p := by
  simp only [Memory.get, lineOf]
  refine List.map_congr_left fun i hi => ?_
  have hi : i < 64 := by simpa using hi
  rw [Memory.byte_put _ _ _ rfl]
  have n : ¬ (0x1000 ≤ a + i ∧ a + i < 0x1000 + bs.length) := by omega
  have c : 2 ^ 34 ≤ a + i ∧ a + i < 2 ^ 34 + 2 ^ 34 := by omega
  have e : (a + i) % 8 = i % 8 := by omega
  rw [if_neg n]
  have f : (mHash p).fillAt (a + i) = some ⟨2 ^ 34, 2 ^ 34, some p, 1⟩ := by
    simp only [Memory.fillAt, mHash, List.find?, decide_eq_true c.1, decide_eq_true c.2, Bool.and_self]
  have g : cellAt (mHash p).cells (a + i) = none := rfl
  simp only [Memory.byte, Memory.unlisted, f, g, Option.map_some, e]

/-- The area as sampled, and what it holds. -/
def Hashed (s : State) (p : BitVec 64) : Prop :=
  s.hull = hHash ∧ s.radius.base = 16 ∧ ∃ bs, bs.length ≤ 64 ∧ s.mem = (mHash p).put 0x1000 bs

theorem Hashed.areaRead {s : State} {p : BitVec 64} (h : Hashed s p) {a : Nat} (ha : a % 64 = 0) (h0 : 2 ^ 34 ≤ a) (hl : a + 64 ≤ 2 ^ 35) :
    s.areaRead a = (some (lineOf p), s) := by
  obtain ⟨h1, -, bs, hb, hm⟩ := h
  simp only [State.areaRead, hash_readMem h1 (m := .radius) nofun 224 a ha hl, hm, hash_line hb ha h0 hl]

theorem bucket_lt (s : State) (gw : Bool) (w id : Nat) : s.radBucket gw w id < tableBuckets gw := by
  cases gw <;> exact Nat.mod_lt _ (by decide)

theorem Hashed.index {s : State} {p : BitVec 64} (h : Hashed s p) (gw : Bool) {b : Nat} (hb : b < tableBuckets gw) :
    s.areaRead (s.idxAddr gw b) = (some (lineOf p), s) := by
  have h2 := h.2.1
  cases gw <;> simp [tableBuckets] at hb <;> apply h.areaRead <;> simp [State.idxAddr, State.radBase, tableBase, h2] <;> omega

theorem Hashed.record {s : State} {p : BitVec 64} (h : Hashed s p) (gw : Bool) {b : Nat} (hb : b < tableBuckets gw) :
    s.areaRead (s.recAddr gw (8 * b)) = (some (lineOf p), s) := by
  have h2 := h.2.1
  cases gw <;> simp [tableBuckets] at hb <;> apply h.areaRead <;> simp [State.recAddr, State.radBase, tableBase, h2] <;> omega

theorem Hashed.findIn {s : State} {p : BitVec 64} (h : Hashed s p) (gw : Bool) {b id : Nat} (hb : b < tableBuckets gw) :
    s.findIn gw b id = (match posOf id (idsOf (lineOf p)) with
      | some i => .found (8 * b + i)
      | none => .absent, s) := by
  simp only [State.findIn, h.index gw hb]
  cases posOf id (idsOf (lineOf p)) <;> rfl

theorem Hashed.found {s : State} {p : BitVec 64} (h : Hashed s p) (gw : Bool) {id : Nat} (h0 : id ≠ 0)
    (hp : posOf id (idsOf (lineOf p)) = some 0) :
    ∃ k, s.findSlot gw id = (.found k, s) ∧ s.findRecord gw id = (.found (k, lineOf p), s) := by
  have hb := bucket_lt s gw 0 id
  generalize hq : s.radBucket gw 0 id = b at hb
  have e : s.findSlot gw id = (.found (8 * b), s) := by
    simp only [State.findSlot, if_neg h0, hq, h.findIn gw hb, hp, Nat.add_zero]
  exact ⟨8 * b, e, by simp only [State.findRecord, e, h.record gw hb]⟩

theorem Hashed.absent {s : State} {p : BitVec 64} (h : Hashed s p) (gw : Bool) {id : Nat} (hp : posOf id (idsOf (lineOf p)) = none) :
    s.findSlot gw id = (.absent, s) ∧ s.findRecord gw id = (.absent, s) := by
  have hb := bucket_lt s gw 0 id
  have hc := bucket_lt s gw 1 id
  generalize hq : s.radBucket gw 0 id = b at hb
  generalize hr : s.radBucket gw 1 id = c at hc
  have e : s.findSlot gw id = (.absent, s) := by
    simp only [State.findSlot, hq, hr, h.findIn gw hb, h.findIn gw hc, hp, ite_self]
  exact ⟨e, by simp only [State.findRecord, e]⟩

theorem Hashed.freeSlot {s : State} (h : Hashed s 0) (gw : Bool) (id : Nat) : ∃ k, s.freeSlot gw id = (some k, s) := by
  have e : (((idsOf (lineOf 0)).zipIdx.filter fun (e : Nat × Nat) => e.1 == 0).map (·.2)) = [0, 1, 2, 3, 4, 5, 6, 7] := by decide +kernel
  have hb := bucket_lt s gw 0 id
  generalize hq : s.radBucket gw 0 id = b at hb
  have f : s.freeIn gw b = (some (([0, 1, 2, 3, 4, 5, 6, 7] : List Nat).map (8 * b + ·)), s) := by
    simp only [State.freeIn, h.index gw hb, e]
  exact ⟨8 * b + 0, by simp only [State.freeSlot, hq, f, List.map_cons]⟩

/-- SENSOR_WRITE of an operation, with flags, from 0x1000. -/
def dRec (op fl : Nat) : Desc := cmd 0x091 [(3, fl), (8, op), (0x10, 0x1000)]
/-- A record of 64 bytes: an identifier, then the byte at offset 8. -/
def recBuf (id b : Nat) : List Byte := le 8 id ++ BitVec.ofNat 8 b :: List.replicate 55 0
theorem hashed_onHash (s : State) (p : BitVec 64) {bs : List Byte} (h : bs.length ≤ 64) : Hashed (onHash s p bs) p := ⟨rfl, rfl, bs, h, rfl⟩

/-- What a SENSOR_WRITE reads, whether or not the record stands. -/
theorem hash_readBuf (p : BitVec 64) (id b : Nat) (d : Desc) (h : d.get 0x10 8 = 0x1000)
    (hm : (sHash p (recBuf id b)).mem.get 0x1000 64 = recBuf id b) :
    (sHash p (recBuf id b)).readBuf d .annulus (d.get 0x10 8) 64 = (.ok (recBuf id b), sHash p (recBuf id b)) := by
  rw [h]
  simp only [State.readBuf, hash_readMem (rfl : (sHash p (recBuf id b)).hull = hHash) (m := .annulus) nofun _ 0x1000 rfl (by decide), hm]

/-- Hypotheses of Obligations.RadiusSettingsCheckpointsAndRecords: SENSOR_WRITE, no such record. -/
theorem witness_sensor_absent :
    let s := sHash 0 (recBuf 5 0)
    (∀ op < 4, ∀ gw < 2, Accepted (dRec op gw) 3 [(8, 1), (0x10, 8)] s s ∧ (dRec op gw).get 8 1 = op ∧ bitOf (dRec op gw).flags 0 = decide (gw = 1) ∧
      s.readBuf (dRec op gw) .annulus ((dRec op gw).get 0x10 8) 64 = (.ok (recBuf 5 0), s)) ∧
    sensorOk (recBuf 5 0) = true ∧ (∀ op < 4, s.recordBusy (dRec op 0) = false ∧ s.insertWaits (dRec op 0) = false) ∧
    s.findRecord false 5 = (.absent, s) ∧ leAt (recBuf 5 0) 0 8 = 5 ∧ ∃ k, (s.insertSensor (s.sensorNew none (recBuf 5 0) false)).1 = some k := by
  have hh := hashed_onHash z 0 (bs := recBuf 5 0) (by decide)
  have h1 : ∀ op < 4, ∀ gw < 2, (dRec op gw).get 0x10 8 = 0x1000 := by decide +kernel
  have hr : ∀ op < 4, ∀ gw < 2, (sHash 0 (recBuf 5 0)).readBuf (dRec op gw) .annulus ((dRec op gw).get 0x10 8) 64 =
      (.ok (recBuf 5 0), sHash 0 (recBuf 5 0)) := fun op ho gw hg => hash_readBuf 0 5 0 _ (h1 op ho gw hg) (by decide +kernel)
  have ha := hh.absent false (id := 5) (by decide +kernel)
  have hl : leAt (recBuf 5 0) 0 8 = 5 := by decide +kernel
  obtain ⟨k, hk⟩ := hh.freeSlot false 5
  obtain ⟨q, hq⟩ := hh.freeSlot false (leAt ((sHash 0 (recBuf 5 0)).sensorNew none (recBuf 5 0) false) 0 8)
  refine ⟨fun op ho gw hg => ⟨?_, ?_, ?_, hr op ho gw hg⟩, by decide +kernel, fun op ho => ⟨?_, ?_⟩, ha.2, hl, q, by simp only [State.insertSensor, hq]⟩
  · revert op gw; unfold Accepted; decide +kernel
  · revert op gw; decide +kernel
  · revert op gw; decide +kernel
  · simp only [State.recordBusy, hr op ho 0 (by decide), hl]
    rw [show (sHash 0 (recBuf 5 0)).findSlot false 5 = (.absent, sHash 0 (recBuf 5 0)) from ha.1]
  · simp only [State.insertWaits, hr op ho 0 (by decide), hl, hk]
    rw [show (sHash 0 (recBuf 5 0)).findSlot false 5 = (.absent, sHash 0 (recBuf 5 0)) from ha.1]

/-- Hypotheses of Obligations.RadiusSettingsCheckpointsAndRecords: SENSOR_WRITE, the record stands. -/
theorem witness_sensor_found :
    let s := sHash 0x10001 (recBuf 0x10001 0)
    (∀ op < 4, Accepted (dRec op 0) 3 [(8, 1), (0x10, 8)] s s ∧ (dRec op 0).get 8 1 = op ∧ bitOf (dRec op 0).flags 0 = false ∧
      s.readBuf (dRec op 0) .annulus ((dRec op 0).get 0x10 8) 64 = (.ok (recBuf 0x10001 0), s) ∧ s.recordBusy (dRec op 0) = false ∧
      s.insertWaits (dRec op 0) = false) ∧
    sensorOk (recBuf 0x10001 0) = true ∧ leAt (recBuf 0x10001 0) 0 8 = 0x10001 ∧
    (∃ k, s.findRecord false 0x10001 = (.found (k, lineOf 0x10001), s)) ∧
    ∃ v, s.writeMem .annulus (ringOwner 0) 0x1000 (lineOf 0x10001) = (true, v) := by
  have hh := hashed_onHash z 0x10001 (bs := recBuf 0x10001 0) (by decide)
  have h1 : ∀ op < 4, (dRec op 0).get 0x10 8 = 0x1000 := by decide +kernel
  have hr : ∀ op < 4, (sHash 0x10001 (recBuf 0x10001 0)).readBuf (dRec op 0) .annulus ((dRec op 0).get 0x10 8) 64 =
      (.ok (recBuf 0x10001 0), sHash 0x10001 (recBuf 0x10001 0)) := fun op ho => hash_readBuf 0x10001 0x10001 0 _ (h1 op ho) (by decide +kernel)
  obtain ⟨k, hs, hf⟩ := hh.found false (id := 0x10001) (by decide) (by decide +kernel)
  have hl : leAt (recBuf 0x10001 0) 0 8 = 0x10001 := by decide +kernel
  have hw : ((sHash 0x10001 (recBuf 0x10001 0)).writeMem .annulus (ringOwner 0) 0x1000 (lineOf 0x10001)).1 = true := by decide +kernel
  refine ⟨fun op ho => ⟨?_, ?_, ?_, hr op ho, ?_, ?_⟩, by decide +kernel, hl, ⟨k, hf⟩, _, Prod.ext hw rfl⟩
  · revert op; unfold Accepted; decide +kernel
  · revert op; decide +kernel
  · revert op; decide +kernel
  · have hk : (sHash 0x10001 (recBuf 0x10001 0)).recLock k = none := rfl
    simp only [State.recordBusy, hr op ho, hl, hs, hk]
    rfl
  · simp only [State.insertWaits, hr op ho, hl, hs]

/-- Hypotheses of Obligations.RadiusSettingsCheckpointsAndRecords: SENSOR_WRITE of a gateway, no such record. -/
theorem witness_gateway_absent :
    let s := sHash 0 (recBuf 5 5)
    (∀ op < 4, Accepted (dRec op 1) 3 [(8, 1), (0x10, 8)] s s ∧ (dRec op 1).get 8 1 = op ∧ bitOf (dRec op 1).flags 0 = true ∧
      s.readBuf (dRec op 1) .annulus ((dRec op 1).get 0x10 8) 64 = (.ok (recBuf 5 5), s)) ∧
    gatewayOk (recBuf 5 5) = true ∧ leAt (recBuf 5 5) 0 8 = 5 ∧ s.findRecord true 5 = (.absent, s) ∧ ∃ k, s.freeSlot true 5 = (some k, s) := by
  have hh := hashed_onHash z 0 (bs := recBuf 5 5) (by decide)
  have h1 : ∀ op < 4, (dRec op 1).get 0x10 8 = 0x1000 := by decide +kernel
  refine ⟨fun op ho => ⟨?_, ?_, ?_, hash_readBuf 0 5 5 _ (h1 op ho) (by decide +kernel)⟩, by decide +kernel, by decide +kernel,
    (hh.absent true (id := 5) (by decide +kernel)).2, hh.freeSlot true 5⟩
  · revert op; unfold Accepted; decide +kernel
  · revert op; decide +kernel
  · revert op; decide +kernel

/-- Hypotheses of Obligations.RadiusSettingsCheckpointsAndRecords: SENSOR_WRITE of a gateway, the record stands, VALID (5) or RETIRED (0x15). -/
theorem witness_gateway_found (p : BitVec 64) (hp : p = 5 ∨ p = 0x15) :
    let s := sHash p (recBuf p.toNat 5)
    (∀ op < 4, Accepted (dRec op 1) 3 [(8, 1), (0x10, 8)] s s ∧ (dRec op 1).get 8 1 = op ∧ bitOf (dRec op 1).flags 0 = true ∧
      s.readBuf (dRec op 1) .annulus ((dRec op 1).get 0x10 8) 64 = (.ok (recBuf p.toNat 5), s)) ∧
    gatewayOk (recBuf p.toNat 5) = true ∧ leAt (recBuf p.toNat 5) 0 8 = p.toNat ∧ gwRetired (lineOf p) = decide (p = 0x15) ∧
    gwValid (lineOf p) = true ∧ (∃ k, s.findRecord true p.toNat = (.found (k, lineOf p), s)) ∧
    ∃ v, s.writeMem .annulus (ringOwner 0) 0x1000 (lineOf p) = (true, v) := by
  have h1 : ∀ op < 4, (dRec op 1).get 0x10 8 = 0x1000 := by decide +kernel
  have hh := hashed_onHash z p (bs := recBuf p.toNat 5) (by simp [recBuf, le])
  have hf : ∃ k, (sHash p (recBuf p.toNat 5)).findRecord true p.toNat = (.found (k, lineOf p), sHash p (recBuf p.toNat 5)) := by
    obtain ⟨k, -, hf⟩ := hh.found true (id := p.toNat) (by rcases hp with rfl | rfl <;> decide) (by rcases hp with rfl | rfl <;> decide +kernel)
    exact ⟨k, hf⟩
  have hw : ((sHash p (recBuf p.toNat 5)).writeMem .annulus (ringOwner 0) 0x1000 (lineOf p)).1 = true := by
    rcases hp with rfl | rfl <;> decide +kernel
  have hm : (sHash p (recBuf p.toNat 5)).mem.get 0x1000 64 = recBuf p.toNat 5 := by rcases hp with rfl | rfl <;> decide +kernel
  refine ⟨fun op ho => ⟨?_, ?_, ?_, hash_readBuf p p.toNat 5 _ (h1 op ho) hm⟩, ?_, ?_, ?_, ?_, hf, _, Prod.ext hw rfl⟩
  · revert op; unfold Accepted; rcases hp with rfl | rfl <;> decide +kernel
  · revert op; decide +kernel
  · revert op; decide +kernel
  all_goals rcases hp with rfl | rfl <;> decide +kernel

/-- An item of sensor 0x10001, whose group 1 is on and puts out readings; cluster 16 runs an image. -/
def rItem1 : RItem := { rItem0 with sensor := 0x10001, record := List.replicate 28 0 }
def sDispatchR : State :=
  (onHash (withRad z fun r => { r with items := [rItem1], groups := [(1, 5)] }) 0x10001 []).setCluster 16
    { Cluster.reset with low := some im8, active := some false }

/-- Hypotheses of Obligations.RadiusMovesBatchesAndReadings: a dispatched uplink, and one whose thread is not idle. -/
theorem witness_radius_dispatch_found :
    let s := sDispatchR
    let u := s.setCluster 16 { s.cluster 16 with threads := [(tRad.key, { Thread.reset with mode := .ready })] }
    (∃ slot, s.findRecord false rItem1.sensor.toNat = (.found (slot, lineOf 0x10001), s) ∧ s.radius.locks.lookup slot = none) ∧
    (∃ slot, u.findRecord false rItem1.sensor.toNat = (.found (slot, lineOf 0x10001), u) ∧ u.radius.locks.lookup slot = none) ∧
    (s.radius.items.find? fun (x : RItem) => x.id == 7 && x.thr.isNone) = some rItem1 ∧ u.radius.items = s.radius.items ∧
    ((s.radius.items.takeWhile (·.id != 7)).any fun (j : RItem) => j.sensor == rItem1.sensor && j.thr.isNone) = false ∧
    (s.cluster 16).pause = none ∧ (u.cluster 16).pause = none ∧ rItem1.up = true ∧ tRad.cl = 16 ∧ recFlags (lineOf 0x10001) % 2 = 1 ∧
    s.groupOn (recGroup (lineOf 0x10001)) = true ∧ u.groupOn (recGroup (lineOf 0x10001)) = true ∧
    (s.thread 16 tRad.key).mode = .idle ∧ (u.thread 16 tRad.key).mode = .ready := by
  have hh : Hashed sDispatchR 0x10001 := ⟨rfl, rfl, [], by decide, rfl⟩
  obtain ⟨k, -, hf⟩ := hh.found false (id := 0x10001) (by decide) (by decide +kernel)
  have hg : Hashed (sDispatchR.setCluster 16 { sDispatchR.cluster 16 with threads := [(tRad.key, { Thread.reset with mode := .ready })] }) 0x10001 :=
    ⟨rfl, rfl, [], by decide, rfl⟩
  obtain ⟨q, -, hq⟩ := hg.found false (id := 0x10001) (by decide) (by decide +kernel)
  refine ⟨⟨k, hf, rfl⟩, ⟨q, hq, rfl⟩, ?_⟩
  and_intros <;> decide +kernel

/-- The same where the group is off, and where the sensor's record is not VALID. -/
theorem witness_radius_dispatch_refused :
    let s := onHash (withRad z fun r => { r with items := [rItem1] }) 0x10001 []
    let u := onHash (withRad z fun r => { r with items := [{ rItem1 with sensor := 1 }] }) 1 []
    (∃ slot, s.findRecord false 0x10001 = (.found (slot, lineOf 0x10001), s)) ∧ recFlags (lineOf 0x10001) % 2 = 1 ∧
    s.groupOn (recGroup (lineOf 0x10001)) = false ∧ (∃ slot, u.findRecord false 1 = (.found (slot, lineOf 1), u)) ∧
    recFlags (lineOf 1) % 2 = 0 := by
  obtain ⟨k, -, hf⟩ := (show Hashed (onHash (withRad z fun r => { r with items := [rItem1] }) 0x10001 []) 0x10001 from
    ⟨rfl, rfl, [], by decide, rfl⟩).found false (id := 0x10001) (by decide) (by decide +kernel)
  obtain ⟨q, -, hq⟩ := (show Hashed (onHash (withRad z fun r => { r with items := [{ rItem1 with sensor := 1 }] }) 1 []) 1 from
    ⟨rfl, rfl, [], by decide, rfl⟩).found false (id := 1) (by decide) (by decide +kernel)
  exact ⟨⟨k, hf⟩, by decide +kernel, by decide +kernel, ⟨q, hq⟩, by decide +kernel⟩

/-- A batch of version v from gateway g whose only record is r. -/
def gwBatch (v g : Nat) (r : List Byte) : List Byte := udp ([BitVec.ofNat 8 v, 1] ++ be 2 1 ++ be 8 g ++ be 4 0 ++ r)
def gwOf (v g : Nat) (r : List Byte) : List Byte := (batchOf (gwBatch v g r)).getD []

/-- Hypotheses of Obligations.RadiusMovesBatchesAndReadings: batches from a gateway that is unknown, known, or RETIRED. -/
theorem witness_radius_batches :
    (sHash 0 []).findRecord true 5 = (.absent, sHash 0 []) ∧ (∃ h, (sHash 5 []).findRecord true 5 = (.found (h, lineOf 5), sHash 5 [])) ∧
    (∃ h, (sHash 0x15 []).findRecord true 0x15 = (.found (h, lineOf 0x15), sHash 0x15 [])) ∧ gwRetired (lineOf 5) = false ∧
    gwRetired (lineOf 0x15) = true ∧ bits (leAt (lineOf 5) 8 1) 2 2 = 1 ∧
    (∀ v < 4, ∀ g ∈ [5, 0x15], udpOk (gwBatch v g [0, 2]) = true ∧ beAt (gwOf v g [0, 2]) 0 1 = v ∧ beAt (gwOf v g [0, 2]) 1 1 = 1 ∧
      beAt (gwOf v g [0, 2]) 4 8 = g) ∧
    splitRecords 4096 ((gwOf 1 5 [0, 2]).drop 16) = some [[0, 2]] ∧ beAt (gwOf 1 5 [0, 2]) 2 2 = 1 ∧
    splitRecords 4096 ((gwOf 1 5 [0]).drop 16) = none ∧ udpOk (gwBatch 1 5 [0]) = true := by
  obtain ⟨k, -, hf⟩ := (hashed_onHash z 5 (bs := []) (by decide)).found true (id := 5) (by decide) (by decide +kernel)
  obtain ⟨q, -, hq⟩ := (hashed_onHash z 0x15 (bs := []) (by decide)).found true (id := 0x15) (by decide) (by decide +kernel)
  refine ⟨((hashed_onHash z 0 (bs := []) (by decide)).absent true (id := 5) (by decide +kernel)).2, ⟨k, hf⟩, ⟨q, hq⟩, ?_⟩
  and_intros <;> decide +kernel

theorem fcsOk_append (b : List Byte) : fcsOk (b ++ le 4 (Crypto.crc32 b).toNat) = true := by
  have h4 : (le 4 (Crypto.crc32 b).toNat).length = 4 := rfl
  have h : leNat (le 4 (Crypto.crc32 b).toNat) = (Crypto.crc32 b).toNat := by
    have := (Crypto.crc32 b).isLt
    simp only [le, leNat, BitVec.toNat_ofNat]
    omega
  simp [fcsOk, h4, h]

/-- A frame of 9,249 octets with its FCS. -/
def fLong : List Byte := List.replicate 9245 2 ++ le 4 (Crypto.crc32 (List.replicate 9245 2)).toNat

/-- Hypotheses of Obligations.PrismsMoveFramesAndItems: a frame that is too long. -/
theorem witness_long_line_frame :
    sUp.receives (64 + lp0.val) = true ∧ (sUp.lport (64 + lp0.val)).mode ≠ some 7 ∧ 4 ≤ fLong.length ∧ fcsOk fLong = true ∧
    9248 < fLong.length := by
  have h : fLong.length = 9249 := by rw [fLong, List.length_append, List.length_replicate]; rfl
  exact ⟨by decide +kernel, by decide +kernel, by omega, fcsOk_append _, by omega⟩

/-- Facet port 0 is in frame and locked, with a receive association in force. -/
def sFacetIn : State :=
  withCtx (withSlots (facet fun p => { p with frame := .inFrame, marker := .lock }) [(0, aKey)]) [(0, { aFacet with recv := true })]
/-- The overhead and one column of ciphertext; the tag column, not sent, reads 0, and the column is chosen for that tag. -/
def fFacetIn : List Byte :=
  alignWord ++ [0, 0x10] ++ be 6 9 ++ List.replicate 114 0 ++ Crypto.blockBytes 264625291658766809382720109707218154498

/-- Hypotheses of Obligations.FacetFramesAreSentAndTaken: a keyed frame that verifies. -/
theorem witness_facet_frame_verifies :
    let p := sFacetIn.facetPort fp0.val
    let a := sFacetIn.sa 0
    let cols := Crypto.blocks (fFacetIn.take 16384)
    let slots := (List.range 4).filter fun i => match ptrWord p.cols (beAt fFacetIn (24 + 2 * i) 2) with
      | .valid _ 2 _ => decide (i < p.trib)
      | _ => false
    let ct := (slots.map fun i => (cols[4 + i]?).getD 0) ++ (cols.drop 8).take 1015
    p.active = true ∧ p.frame = .inFrame ∧ p.marker = .lock ∧ slice fFacetIn 0 6 = alignWord ∧
    ((slice fFacetIn 8 8).all (· == 0xFF)) = false ∧ p.defects = 0 ∧ beAt fFacetIn 7 1 / 16 = 1 ∧ beAt fFacetIn 14 1 / 16 % 8 < 4 ∧
    sFacetIn.facetAssoc fp0.val true = some 0 ∧ a.status = .active ∧
    sFacetIn.usable (slotKey 0 (a.phaseDk (bitOf (beAt fFacetIn 14 1) 7))) = true ∧ a.expired = none ∧ a.nextN ≤ beAt fFacetIn 8 6 ∧
    Crypto.gcmTag 32 (sFacetIn.slot (slotKey 0 (a.phaseDk (bitOf (beAt fFacetIn 14 1) 7)))).act.key
      (facetIv (a.salt (bitOf (beAt fFacetIn 14 1) 7)) a.unit (beAt fFacetIn 8 6)) (facetAad (fFacetIn.take 64)) ct 472
      (128 * ct.length) = (cols[1023]?).getD 0 := by
  dsimp only
  and_intros <;> decide +kernel

end Sys2Proof.Tests
end

section
namespace Sys2Proof.Machine

/-! What one step keeps, whichever command is at the front of the queue. -/

/-- Whatever a step does, it keeps the queue behind the front command, the form of memory and the burnt life-cycle cells. -/
theorem step_keeps {s t : State} (h : step s = .next t) : Keeps { s with pending := s.pending.tail } t := by
  unfold step at h
  split at h
  case h_1 hq =>
    have hs : { s with pending := s.pending.tail } = s := by rw [hq, List.tail_nil, ← hq]
    cases h
    rw [hs]
    exact State.pass_keeps (Keeps.refl s) 1
  case h_2 c rest hq =>
    rw [hq]
    exact (exec_keeps c _).get t h

/-! The life-cycle counter (R41): what its bits, its pattern and its value say of the cells, and that they only rise. -/

/-- A life-cycle bit is the majority of its three cells. -/
theorem lcBit_iff (cells : BitVec 36) (b : Nat) : lcBit cells b = true ↔
    (cells.getLsbD (3 * b) = true ∧ cells.getLsbD (3 * b + 1) = true) ∨ (cells.getLsbD (3 * b) = true ∧ cells.getLsbD (3 * b + 2) = true) ∨
      (cells.getLsbD (3 * b + 1) = true ∧ cells.getLsbD (3 * b + 2) = true) := by
  unfold lcBit
  generalize cells.getLsbD (3 * b) = x, cells.getLsbD (3 * b + 1) = y, cells.getLsbD (3 * b + 2) = z
  revert x y z
  decide

/-- More burnt cells leave every bit that read as set still set. -/
theorem lcBit_mono {c d : BitVec 36} (h : ∀ b, c.getLsbD b = true → d.getLsbD b = true) {b : Nat} (hb : lcBit c b = true) :
    lcBit d b = true := by
  rw [lcBit_iff] at hb ⊢
  exact hb.imp (And.imp (h _) (h _)) (Or.imp (And.imp (h _) (h _)) (And.imp (h _) (h _)))

/-- A sum of the powers of two that p picks below n has just those bits. -/
theorem testBit_foldl_two_pow (p : Nat → Bool) (n i : Nat) :
    ((List.range n).foldl (fun a b => if p b then a + 2 ^ b else a) 0).testBit i = (decide (i < n) && p i) := by
  induction n generalizing i with
  | zero => simp
  | succ n ih =>
    simp only [List.range_succ, List.foldl_append, List.foldl_cons, List.foldl_nil]
    generalize (List.range n).foldl _ 0 = x at ih ⊢
    have hx : x < 2 ^ n := Nat.lt_pow_two_of_testBit x fun j hj => by simp [ih j, Nat.not_lt.mpr hj]
    have hor : x + 2 ^ n = 2 ^ n ||| x := by simpa [Nat.add_comm] using Nat.two_pow_add_eq_or_of_lt hx 1
    rcases eq_or_ne i n with rfl | hi
    · split <;> simp_all
    · have hlt : i < n + 1 ↔ i < n := by omega
      split <;> simp [hor, ih, hi.symm, hlt]

/-- The pattern of State k: the bits below k set and the others clear. -/
theorem lcPattern_eq_iff (cells : BitVec 36) {k : Nat} (hk : k ≤ 12) :
    lcPattern cells = 2 ^ k - 1 ↔ ∀ b, b < 12 → lcBit cells b = decide (b < k) := by
  have hbit : ∀ b, (lcPattern cells).testBit b = (decide (b < 12) && lcBit cells b) := testBit_foldl_two_pow (lcBit cells) 12
  constructor
  · intro h b hb
    have := hbit b
    rw [h, Nat.testBit_two_pow_sub_one] at this
    simpa [hb] using this.symm
  · intro h
    refine Nat.eq_of_testBit_eq fun b => ?_
    rw [hbit, Nat.testBit_two_pow_sub_one]
    by_cases hb : b < 12
    · simp [hb, h b hb]
    · simp [hb, show ¬ b < k by omega]

/-- The counter of a pattern is k just where the pattern is that of State k. -/
theorem lcCount_eq_some_iff (cells : BitVec 36) (k : Nat) :
    lcCount cells = some k ↔ k ≤ 12 ∧ ∀ b, b < 12 → lcBit cells b = decide (b < k) := by
  have hother : lcPattern cells = 2 ^ k - 1 → ∀ j < k, lcPattern cells ≠ 2 ^ j - 1 := fun h j hj e => by
    have hlt : 2 ^ j < 2 ^ k := Nat.pow_lt_pow_right (by decide) hj
    have hpos : 0 < 2 ^ j := Nat.two_pow_pos j
    omega
  simp only [lcCount, List.find?_range_eq_some, List.mem_range, beq_iff_eq, Bool.not_eq_true', beq_eq_false_iff_ne]
  constructor
  · rintro ⟨h, hk, -⟩
    exact ⟨by omega, (lcPattern_eq_iff cells (by omega)).mp h⟩
  · rintro ⟨hk, h⟩
    have hp := (lcPattern_eq_iff cells hk).mpr h
    exact ⟨hp, by omega, hother hp⟩

theorem State.lc_of_count {s : State} {k : Nat} (h : lcCount s.apex.otp.lcCells = some k) : s.lc = k := by
  simp only [State.lc, h]

/-- The run of values from 0 that p holds of goes past k where p holds up to k. -/
theorem lt_length_takeWhile_range (p : Nat → Bool) (n k : Nat) :
    k < ((List.range n).takeWhile p).length ↔ k < n ∧ ∀ b ≤ k, p b = true := by
  rw [List.takeWhile_eq_take_findIdx_not, List.length_take_of_le List.findIdx_le_length, List.lt_findIdx_iff]
  simp

/-- The counter is above k where the bits up to k are set, whether or not the pattern is a thermometer. -/
theorem State.lt_lc_iff (s : State) (k : Nat) : k < s.lc ↔ k < 12 ∧ ∀ b ≤ k, lcBit s.apex.otp.lcCells b = true := by
  cases hc : lcCount s.apex.otp.lcCells with
  | none =>
    simp only [State.lc, hc]
    exact lt_length_takeWhile_range _ 12 k
  | some n =>
    obtain ⟨hn, hbits⟩ := (lcCount_eq_some_iff _ n).mp hc
    rw [State.lc_of_count hc]
    constructor
    · intro hk
      exact ⟨by omega, fun b hb => by rw [hbits b (by omega)]; exact decide_eq_true (by omega)⟩
    · rintro ⟨hk, h⟩
      have := h k le_rfl
      rwa [hbits k hk, decide_eq_true_eq] at this

/-- More burnt cells never lower the counter. -/
theorem State.lc_mono {s t : State} (h : ∀ b, s.apex.otp.lcCells.getLsbD b = true → t.apex.otp.lcCells.getLsbD b = true) : s.lc ≤ t.lc := by
  refine le_of_forall_lt fun k hk => ?_
  obtain ⟨hk, hs⟩ := (s.lt_lc_iff k).mp hk
  exact (t.lt_lc_iff k).mpr ⟨hk, fun b hb => lcBit_mono h (hs b hb)⟩

/-- Settles O58: every step keeps the burnt cells, and the bits and the counter rise with them. -/
theorem lifeCycleCounterOnlyRises : Obligations.LifeCycleCounterOnlyRises := by
  unfold Obligations.LifeCycleCounterOnlyRises
  refine ⟨lcBit_iff, lcCount_eq_some_iff, fun s k => State.lc_of_count, fun s t h => ?_⟩
  have hcells : ∀ b, s.apex.otp.lcCells.getLsbD b = true → t.apex.otp.lcCells.getLsbD b = true := (step_keeps h).cells
  refine ⟨BitVec.eq_of_getLsbD_eq fun b _ => ?_, fun b _ => lcBit_mono hcells, State.lc_mono hcells⟩
  simpa only [BitVec.getLsbD_and, Bool.and_eq_left_iff_imp] using hcells b

/-! The mailbox answers of Apex: what they leave unchanged, and MEAS_EXTEND of a locked register (R51). -/

/-- An answer changes nothing but the mailboxes and which of them was served last. -/
theorem State.respond_frame (s : State) (m : Mbx) (r : ApexReply) :
    ∃ c d, s.respond m r = { s with apex := { s.apex with mbxC := c, mbxD := d, lastServed := m } } := by
  cases m <;> exact ⟨_, _, rfl⟩

/-- The BAD_REQUEST for a request that no row carries (log entry 146) changes no more than an answer does. -/
theorem State.mbxUnknown_frame (s : State) (m : Mbx) :
    ∃ c d l, s.mbxUnknown m = { s with apex := { s.apex with mbxC := c, mbxD := d, lastServed := l } } := by
  have hrespond : ∀ r, ∃ c d l, s.respond m r = { s with apex := { s.apex with mbxC := c, mbxD := d, lastServed := l } } := fun r =>
    let ⟨c, d, h⟩ := s.respond_frame m r
    ⟨c, d, m, h⟩
  unfold State.mbxUnknown
  dsimp only
  split_ifs
  · exact hrespond _
  · exact hrespond _
  · exact ⟨_, _, _, rfl⟩

/-- The end of a request changes nothing but the mailboxes and which of them was served last (R39, R40). -/
theorem State.finish_frame (s : State) (m : Mbx) (r : ApexReply) :
    ∃ c d l, s.finish m r = { s with apex := { s.apex with mbxC := c, mbxD := d, lastServed := l } } := by
  obtain ⟨c, d, hr⟩ := s.respond_frame m r
  obtain ⟨c', d', l, hu⟩ := (s.respond m r).mbxUnknown_frame (otherMbx m)
  exact ⟨c', d', l, by rw [State.finish, hu, hr]⟩

@[simp] theorem State.finish_meas (s : State) (m : Mbx) (r : ApexReply) : (s.finish m r).apex.meas = s.apex.meas := by
  obtain ⟨c, d, l, h⟩ := s.finish_frame m r
  rw [h]

/-- A well-formed extension of MEAS0, MEAS1 or MEAS3 is answered LOCKED and extends nothing (R51). -/
theorem extendBody_locked {p : List Byte} {s : State} (hlc : s.lc ≠ 12) (hlen : p.length = 52) (hres : leAt p 1 3 = 0)
    (hi : leAt p 0 1 = 0 ∨ leAt p 0 1 = 1 ∨ leAt p 0 1 = 3) : extendBody p s = (some { status := 5 }, s) := by
  have hform : ¬ (p.length ≠ 52 ∨ 5 < leAt p 0 1 ∨ leAt p 1 3 ≠ 0) := by omega
  simp only [extendBody, if_neg hlc, if_neg hform, if_pos hi, answer]

/-- Settles O28: the body of a served MEAS_EXTEND answers LOCKED, and no answer touches a measurement register. -/
theorem lockedMeasurementsStay : Obligations.LockedMeasurementsStay := by
  unfold Obligations.LockedMeasurementsStay
  intro m s p hserves hlc hlen hres hi
  refine ⟨?_, s.finish_meas m _⟩
  show Host.Outcome.next (mbxCommand m 0x0020 extendBody s) = _
  rw [mbxCommand_serves hserves, extendBody_locked hlc hlen hres hi]

end Sys2Proof.Machine
end

section
namespace Sys2Proof.Machine

/-! The PN of a received frame (R131), by suite, in the two halves of the register NEXT. -/

theorem toNat_extract_low_half (x : BitVec 64) : (x.extractLsb' 0 32).toNat = x.toNat % 2 ^ 32 := by
  rw [BitVec.extractLsb'_toNat, Nat.shiftRight_zero]

/-- The high half needs no modulus: it has no bits above its 32. -/
theorem toNat_extract_high_half (x : BitVec 64) : (x.extractLsb' 32 32).toNat = x.toNat / 2 ^ 32 := by
  have hlt : x.toNat / 2 ^ 32 < 2 ^ 32 := Nat.div_lt_of_lt_mul x.isLt
  rw [BitVec.extractLsb'_toNat, Nat.shiftRight_eq_div_pow, Nat.mod_eq_of_lt hlt]

/-- Until the counter is spent, the next value is what the register NEXT holds. -/
theorem Assoc.nextN_of_not_spent {a : Assoc} (hspent : a.spent = false) : a.nextN = a.next.toNat := by
  simp [Assoc.nextN, hspent]

theorem Assoc.recoverPn_of_not_xpn {a : Assoc} (hx : a.xpn = false) (wire : Nat) : a.recoverPn wire = wire := by
  simp [Assoc.recoverPn, hx]

/-- The PN under an XPN suite: in the cycle of NEXT, or in the one after it where the wire PN lies below NEXT[31:0]. -/
theorem Assoc.recoverPn_of_xpn {a : Assoc} (hx : a.xpn = true) (hspent : a.spent = false) (wire : Nat) :
    a.recoverPn wire =
      if (a.next.extractLsb' 0 32).toNat ≤ wire then 2 ^ 32 * (a.next.extractLsb' 32 32).toNat + wire
      else (2 ^ 32 * ((a.next.extractLsb' 32 32).toNat + 1) + wire) % 2 ^ 64 := by
  rw [toNat_extract_low_half, toNat_extract_high_half, ← Assoc.nextN_of_not_spent hspent]
  simp only [Assoc.recoverPn, hx, Bool.not_true, Bool.false_eq_true, if_false]

/-- Settles O38: the two cycles of an XPN suite, then the plain PN of every other suite. -/
theorem receivedPacketNumbersAreRecovered : Obligations.ReceivedPacketNumbersAreRecovered := by
  unfold Obligations.ReceivedPacketNumbersAreRecovered
  intro a wire _ hspent
  refine ⟨fun hx hle => ?_, fun hx hlt => ?_, fun hx => Assoc.recoverPn_of_not_xpn hx wire⟩
  · rw [Assoc.recoverPn_of_xpn hx hspent, if_pos hle]
  · rw [Assoc.recoverPn_of_xpn hx hspent, if_neg (Nat.not_le.mpr hlt)]

end Sys2Proof.Machine
end

section
namespace Sys2Proof.Machine

/-! RECLAIM that names one thread by its owner ID (R231, R232): the thread it names, and the two forms that stop nothing. -/

/-- A thread's owner ID (R213) is that of a Vertex or Radius thread and gives back its cluster and its thread. -/
theorem vOwner_decodes {c k : Nat} (hc : c < 17) (hk : k < threadCount c) :
    vOwner c k / 4096 = 1 ∧ vOwner c k % 4096 < 2304 ∧ min 16 (vOwner c k % 4096 / 128) = c ∧ vOwner c k % 4096 - 128 * c = k := by
  unfold vOwner
  unfold threadCount at hk
  split at hk <;> omega

/-- An owner with nothing recorded against it has no lock to release. -/
theorem State.reclaimLocks_of_none {s : State} {o : Nat} (hctx : ∀ e ∈ s.assoc.locks, e.2.1 ≠ o)
    (hrec : ∀ e ∈ s.radius.locks, e.2.owner ≠ o) : s.reclaimLocks o = (0, s) := by
  have hctx0 : s.assoc.locks.filter (fun e => e.2.1 == o) = [] := by simpa using hctx
  have hrec0 : s.radius.locks.filter (fun e => e.2.owner == o) = [] := by simpa using hrec
  have hctxs : s.assoc.locks.filter (fun e => e.2.1 != o) = s.assoc.locks := by simpa using hctx
  have hrecs : s.radius.locks.filter (fun e => e.2.owner != o) = s.radius.locks := by simpa using hrec
  simp only [State.reclaimLocks, hctx0, hrec0, hctxs, hrecs]
  rfl

section
variable {d : Desc} {s : State} {c k : Nat} (hscope : bitOf d.flags 0 = false) (hid : d.get 8 2 = vOwner c k) (hc : c < 17)
  (hk : k < threadCount c)
include hscope hid hc hk

/-- The refusal of R232: a thread in DEBUG is not reclaimed. -/
theorem reclaimBody_of_debug (hmode : (s.thread c k).mode = .debug) : reclaimBody d s = s.done d .inUse := by
  obtain ⟨hkind, hnum, hcl, hth⟩ := vOwner_decodes hc hk
  simp [reclaimBody, hscope, hid, hkind, Nat.not_le.mpr hnum, hcl, hth, hmode]

/-- RECLAIM of an IDLE thread without a lock faults nothing and releases nothing: it leaves the thread IDLE, raises event 0x182 with count 0
and completes. -/
theorem reclaimBody_of_idle (hmode : (s.thread c k).mode = .idle) (hlocks : s.reclaimLocks (vOwner c k) = (0, s)) :
    reclaimBody d s = (((s.idle c k).raise 0x182
      (BitVec.ofNat 8 c :: le 2 (vOwner c k) ++ [BitVec.ofNat 8 (b2n false), BitVec.ofNat 8 0])).wake c).complete d
        { status := .ok, r0 := 0 } := by
  obtain ⟨hkind, hnum, hcl, hth⟩ := vOwner_decodes hc hk
  simp [reclaimBody, hscope, hid, hkind, Nat.not_le.mpr hnum, hcl, hth, hmode, hlocks]

end

/-- An accepted RECLAIM of a thread runs its body. -/
theorem exec_reclaim_thread {d : Desc} {s s0 : State} {c k : Nat} (h : Accepted d 1 [(8, 2)] s s0) (hid : d.get 8 2 = vOwner c k)
    (hc : c < 17) (hk : k < threadCount c) : exec (.reclaim d) s = .next (reclaimBody d s0) := by
  have hvertex : d.get 8 2 / 4096 ≠ 2 := by
    rw [hid, (vOwner_decodes hc hk).1]
    decide
  show execReclaim d s = _
  rw [execReclaim, if_neg hvertex, ringCommand_accepts h]

/-- Settles O53: the thread that the owner ID names is in DEBUG, or it is IDLE and owns no lock. -/
theorem reclaimOfDebugAndIdleThreads : Obligations.ReclaimOfDebugAndIdleThreads := by
  unfold Obligations.ReclaimOfDebugAndIdleThreads
  intro d s s0 c k haccepted hscope hid hc hk
  rw [exec_reclaim_thread haccepted hid hc hk]
  constructor
  · intro hdebug
    rw [reclaimBody_of_debug hscope hid hc hk hdebug]
  · intro hidle hctx hrec
    have hlocks := State.reclaimLocks_of_none hctx hrec
    exact ⟨_, congrArg Host.Outcome.next (reclaimBody_of_idle hscope hid hc hk hidle hlocks)⟩

end Sys2Proof.Machine
end

section
namespace Sys2Proof.Machine

/-! The registers of a thread (R212, R240, R242), how an instruction ends (R243), and the register instructions of Table 10.4. -/

/-- A table after a change of one entry. -/
theorem tget_tput {α : Type} [DecidableEq α] (d : α) (t : Tbl α) (k j : Nat) (v : α) :
    tget d (tput d t k v) j = if j = k then v else tget d t j := by
  split
  case isTrue h => rw [h, tget_tput_self]
  case isFalse h => exact tget_tput_ne d t h v

/-! ### Registers -/

theorem Thread.gr_setG (t : Thread) (n m : Nat) (v : BitVec 64) : (t.setG n v).gr m = if m = 0 then 0 else if m = n then v else t.gr m := by
  by_cases hm : m = 0
  · simp [Thread.gr, hm]
  · by_cases hn : n = 0
    · simp [Thread.setG, Thread.gr, hm, hn]
    · simp [Thread.setG, Thread.gr, hm, hn, tget_tput]

theorem Thread.br_setB (t : Thread) (n m : Nat) (v : BitVec 128) : (t.setB n v).br m = if m = n then v else t.br m :=
  tget_tput 0 t.b n m v

theorem Thread.pr_setP (t : Thread) (n m : Nat) (v : Bool) : (t.setP n v).pr m = if m = 0 then true else if m = n then v else t.pr m := by
  by_cases hm : m = 0
  · simp [Thread.pr, hm]
  · by_cases hn : n = 0
    · simp [Thread.setP, Thread.pr, hm, hn]
    · by_cases hmn : m = n <;> simp [Thread.setP, Thread.pr, hm, hn, hmn, tget_tput]

/-! ### A change of one thread -/

section
variable (s : State) {c k : Nat} (f : Thread → Thread)

@[simp] theorem State.thread_modThread : (s.modThread c k f).thread c k = f (s.thread c k) := State.thread_setThread s c k _

theorem State.thread_modThread_ne {j : Nat} (hj : j ≠ k) : (s.modThread c k f).thread c j = s.thread c j := by
  simp [State.modThread, State.setThread, State.thread, tget_tput_ne _ _ hj]

theorem State.cluster_modThread_ne {d : Nat} (hd : d ≠ c) : (s.modThread c k f).cluster d = s.cluster d := s.cluster_setCluster_ne hd _

/-- A change of a thread depends only on what it makes of that thread. -/
theorem State.modThread_congr {f g : Thread → Thread} (h : f (s.thread c k) = g (s.thread c k)) : s.modThread c k f = s.modThread c k g :=
  congrArg (s.setThread c k) h

end

/-- What changes only the engines, twice over, changes only the engines. -/
theorem State.eq_withVertex_trans {s v u : State} (hv : v = { s with vertex := v.vertex }) (hu : u = { v with vertex := u.vertex }) :
    u = { s with vertex := u.vertex } :=
  hu.trans (congrArg (fun w : State => { w with vertex := u.vertex }) hv)

/-- From s to v nothing changes but thread k of cluster c, by f. -/
structure ChangesThread (c k : Nat) (f : Thread → Thread) (s v : State) : Prop where
  frame : v = { s with vertex := v.vertex }
  thread : v.thread c k = f (s.thread c k)
  clusters : ∀ d, d ≠ c → v.cluster d = s.cluster d
  others : ∀ j, j ≠ k → v.thread c j = s.thread c j

theorem ChangesThread.refl {c k : Nat} {f : Thread → Thread} {s : State} (h : f (s.thread c k) = s.thread c k) : ChangesThread c k f s s :=
  ⟨rfl, h.symm, fun _ _ => rfl, fun _ _ => rfl⟩

theorem State.modThread_changesThread (s : State) (c k : Nat) (f : Thread → Thread) : ChangesThread c k f s (s.modThread c k f) where
  frame := rfl
  thread := s.thread_modThread f
  clusters _ hd := s.cluster_modThread_ne f hd
  others _ hj := s.thread_modThread_ne f hj

theorem ChangesThread.modThread {c k : Nat} {f : Thread → Thread} {s v : State} (h : ChangesThread c k f s v) (g : Thread → Thread) :
    ChangesThread c k (fun t => g (f t)) s (v.modThread c k g) where
  frame := State.eq_withVertex_trans h.frame rfl
  thread := by rw [State.thread_modThread, h.thread]
  clusters d hd := (v.cluster_modThread_ne g hd).trans (h.clusters d hd)
  others j hj := (v.thread_modThread_ne g hj).trans (h.others j hj)

/-! ### Waits that end -/

/-- From s to u nothing changes but that WAITING threads of cluster c have become READY (Table 9.2). -/
structure WakesOnly (c : Nat) (s u : State) : Prop where
  frame : u = { s with vertex := u.vertex }
  clusters : ∀ d, d ≠ c → u.cluster d = s.cluster d
  threads : ∀ j, u.thread c j = s.thread c j ∨ ((s.thread c j).mode = .waiting ∧ u.thread c j = { s.thread c j with mode := .ready })

theorem WakesOnly.refl (c : Nat) (s : State) : WakesOnly c s s := ⟨rfl, fun _ _ => rfl, fun _ => .inl rfl⟩

/-- One more thread that still waits becomes READY. -/
theorem WakesOnly.wakeThread {c k : Nat} {s u : State} (h : WakesOnly c s u) (hk : (u.thread c k).mode = .waiting) :
    WakesOnly c s (u.modThread c k fun t => { t with mode := .ready }) where
  frame := State.eq_withVertex_trans h.frame rfl
  clusters d hd := (u.cluster_modThread_ne _ hd).trans (h.clusters d hd)
  threads j := by
    by_cases hj : j = k
    · subst hj
      have hsame : u.thread c j = s.thread c j := (h.threads j).resolve_right fun hready => by
        rw [hready.2] at hk
        cases hk
      exact .inr ⟨hsame ▸ hk, by rw [State.thread_modThread, hsame]⟩
    · rw [State.thread_modThread_ne _ _ hj]
      exact h.threads j

theorem State.wake_wakesOnly (s : State) (c : Nat) : WakesOnly c s (s.wake c) := by
  unfold State.wake
  refine List.foldlRecOn _ _ (WakesOnly.refl c s) fun u hu e _ => ?_
  dsimp only
  split
  case isTrue => exact hu
  case isFalse h => exact hu.wakeThread (not_not.mp (not_or.mp h).1)

/-- A thread that does not wait is left as it is. -/
theorem WakesOnly.thread_eq {c k : Nat} {s u : State} (h : WakesOnly c s u) (hk : (s.thread c k).mode ≠ .waiting) :
    u.thread c k = s.thread c k :=
  (h.threads k).resolve_right fun hwait => hk hwait.1

/-! ### The end of an instruction that goes on -/

/-- The results that an instruction with the value `base` in its first source leaves to come (R243). -/
def Ins.lateResults (x : Ins) (base : BitVec 64) : List Result :=
  match x.later with
  | some ld => if x.writes = [] then [] else
      [⟨x.writes, if ld then some (x.address base (if x.op = 0x52 then 16 else accessSize (bits x.ext 33 3))) else none⟩]
  | none => []

/-- The thread with the late results of an instruction noted. -/
def Thread.noteResults (t : Thread) (x : Ins) (base : BitVec 64) : Thread := { t with results := t.results ++ x.lateResults base }

theorem Thread.noteResults_of_nil {x : Ins} {base : BitVec 64} (h : x.lateResults base = []) (t : Thread) : t.noteResults x base = t := by
  rw [Thread.noteResults, h, List.append_nil]

/-- The thread after an instruction that goes on: at the next index, with its late results noted. -/
def Thread.goOn (t : Thread) (x : Ins) (base : BitVec 64) : Thread := { t.noteResults x base with pc := t.pc + 1 }

/-- The end of an instruction notes its late results, moves its thread on, and then the waits of its cluster are seen. -/
theorem State.settle_eq_wake (s : State) (c k : Nat) (x : Ins) (base : BitVec 64) :
    ∃ v : State, s.settle c k x base = (v.advance c k).wake c ∧ ChangesThread c k (·.noteResults x base) s v := by
  unfold State.settle
  cases hlater : x.later with
  | none =>
    have hlate : x.lateResults base = [] := by simp only [Ins.lateResults, hlater]
    exact ⟨s, rfl, .refl (Thread.noteResults_of_nil hlate _)⟩
  | some ld =>
    by_cases hwrites : x.writes = []
    · have hlate : x.lateResults base = [] := by simp only [Ins.lateResults, hlater, if_pos hwrites]
      exact ⟨s, by simp only [if_pos hwrites], .refl (Thread.noteResults_of_nil hlate _)⟩
    · refine ⟨s.modThread c k (·.noteResults x base), ?_, s.modThread_changesThread c k _⟩
      simp only [Thread.noteResults, Ins.lateResults, hlater, if_neg hwrites]

/-- A READY thread goes on, and nothing else changes but waits of its cluster that end (R243). -/
theorem State.settle_spec (s : State) (c k : Nat) (x : Ins) (base : BitVec 64) (hready : (s.thread c k).mode = .ready) :
    s.settle c k x base = { s with vertex := (s.settle c k x base).vertex } ∧
    (s.settle c k x base).thread c k = (s.thread c k).goOn x base ∧
    (∀ d, d ≠ c → (s.settle c k x base).cluster d = s.cluster d) ∧
    ∀ j, j ≠ k → (s.settle c k x base).thread c j = s.thread c j ∨
      ((s.thread c j).mode = .waiting ∧ (s.settle c k x base).thread c j = { s.thread c j with mode := .ready }) := by
  obtain ⟨v, hsettle, hnote⟩ := s.settle_eq_wake c k x base
  have hadvance : ChangesThread c k (·.goOn x base) s (v.advance c k) :=
    hnote.modThread fun t => { t with pc := t.pc + 1 }
  obtain ⟨hframe, hthread, hclusters, hothers⟩ := hadvance
  have hwake := (v.advance c k).wake_wakesOnly c
  have hmode : ((v.advance c k).thread c k).mode ≠ .waiting := by
    rw [hthread]
    exact fun hwaiting => by cases hready.symm.trans hwaiting
  rw [hsettle]
  refine ⟨?_, (hwake.thread_eq hmode).trans hthread, fun d hd => (hwake.clusters d hd).trans (hclusters d hd), fun j hj => ?_⟩
  · exact State.eq_withVertex_trans hframe hwake.frame
  · rw [← hothers j hj]
    exact hwake.threads j

/-! ### Table 10.4 -/

/-- The ALU rows of Table 10.4 with two registers. -/
theorem alu_of_register_row {op : Nat} {a b v : BitVec 64}
    (h : (op = 0x01 ∧ v = a + b) ∨ (op = 0x02 ∧ v = a - b) ∨ (op = 0x03 ∧ v = a &&& b) ∨ (op = 0x04 ∧ v = a ||| b) ∨
      (op = 0x05 ∧ v = a ^^^ b) ∨ (op = 0x06 ∧ v = a &&& ~~~b) ∨ (op = 0x07 ∧ v = a <<< (b.toNat % 64)) ∨
      (op = 0x08 ∧ v = a >>> (b.toNat % 64)) ∨ (op = 0x09 ∧ v = a.sshiftRight (b.toNat % 64)) ∨
      (op = 0x0A ∧ v = a.rotateLeft (b.toNat % 64))) :
    op ∈ [0x01, 0x02, 0x03, 0x04, 0x05, 0x06, 0x07, 0x08, 0x09, 0x0A] ∧ alu op a b = v := by
  rcases h with ⟨rfl, rfl⟩ | ⟨rfl, rfl⟩ | ⟨rfl, rfl⟩ | ⟨rfl, rfl⟩ | ⟨rfl, rfl⟩ | ⟨rfl, rfl⟩ | ⟨rfl, rfl⟩ | ⟨rfl, rfl⟩ | ⟨rfl, rfl⟩ | ⟨rfl, rfl⟩
  all_goals exact ⟨by decide, rfl⟩

/-- The ALU rows of Table 10.4 with an immediate. -/
theorem alu_of_immediate_row {op : Nat} {a m v : BitVec 64}
    (h : (op = 0x11 ∧ v = a + m) ∨ (op = 0x13 ∧ v = a &&& m) ∨ (op = 0x14 ∧ v = a ||| m) ∨ (op = 0x15 ∧ v = a ^^^ m) ∨
      (op = 0x17 ∧ v = a <<< (m.toNat % 64)) ∨ (op = 0x18 ∧ v = a >>> (m.toNat % 64)) ∨
      (op = 0x19 ∧ v = a.sshiftRight (m.toNat % 64)) ∨ (op = 0x1A ∧ v = a.rotateLeft (m.toNat % 64))) :
    op ∈ [0x11, 0x13, 0x14, 0x15, 0x17, 0x18, 0x19, 0x1A] ∧ alu (op % 16) a m = v := by
  rcases h with ⟨rfl, rfl⟩ | ⟨rfl, rfl⟩ | ⟨rfl, rfl⟩ | ⟨rfl, rfl⟩ | ⟨rfl, rfl⟩ | ⟨rfl, rfl⟩ | ⟨rfl, rfl⟩ | ⟨rfl, rfl⟩
  all_goals exact ⟨by decide, rfl⟩

/-- The six compares of Table 10.4, of two registers from opcode 0x30 and with an immediate from opcode 0x38. -/
theorem compare_of_row {o op : Nat} (ho : o = 0x30 ∨ o = 0x38) {a b : BitVec 64} {r : Bool}
    (h : (op = o ∧ r = (a == b)) ∨ (op = o + 1 ∧ r = (a != b)) ∨ (op = o + 2 ∧ r = a.slt b) ∨ (op = o + 3 ∧ r = a.ult b) ∨
      (op = o + 4 ∧ r = a.sle b) ∨ (op = o + 5 ∧ r = a.ule b)) :
    op ∈ [o, o + 1, o + 2, o + 3, o + 4, o + 5] ∧ compare_ (op % 8) a b = r := by
  obtain rfl | rfl := ho
  all_goals rcases h with ⟨rfl, rfl⟩ | ⟨rfl, rfl⟩ | ⟨rfl, rfl⟩ | ⟨rfl, rfl⟩ | ⟨rfl, rfl⟩ | ⟨rfl, rfl⟩
  all_goals exact ⟨by decide, rfl⟩

theorem combine_eq_ite (mode : Nat) (old r : Bool) :
    combine mode old r = if mode = 0 then r else if mode = 1 then old && r else old || r :=
  match mode with
  | 0 => rfl
  | 1 => rfl
  | _ + 2 => by simp [combine]

theorem extractBits_eq (v : BitVec 64) (pos len : Nat) : extractBits v pos len = BitVec.ofNat 64 (v.toNat / 2 ^ pos % 2 ^ len) := by
  rw [extractBits, bits, Nat.shiftRight_eq_div_pow]

/-- A register instruction that its thread issues changes the thread as its row says and goes on: g is the row's change f, seen at that thread. -/
theorem exec_regOp {i : Issue} {x : Ins} {s s0 : State} (h : Issues i x s s0) {r : Instr} {ops : List Nat} {f : Ins → Thread → Thread}
    {g : Thread → Thread} (hr : exec r s = .next (s.regOp i ops f)) (hop : x.op ∈ ops)
    (hg : f x (s0.thread i.t.cl i.t.key) = g (s0.thread i.t.cl i.t.key)) :
    exec r s = .next ((s0.modThread i.t.cl i.t.key g).settle i.t.cl i.t.key x ((s0.thread i.t.cl i.t.key).gr x.a)) := by
  rw [hr, State.regOp, issue_runs h (List.contains_iff_mem.mpr hop), Act.settle, State.modThread_congr s0 hg]

/-- The same for a row with one opcode. -/
theorem exec_regOp_single {i : Issue} {x : Ins} {s s0 : State} (h : Issues i x s s0) {r : Instr} {o : Nat} {f : Ins → Thread → Thread}
    {g : Thread → Thread} (hr : exec r s = .next (s.regOp i [o] f))
    (hg : f x (s0.thread i.t.cl i.t.key) = g (s0.thread i.t.cl i.t.key)) (hop : x.op = o) :
    exec r s = .next ((s0.modThread i.t.cl i.t.key g).settle i.t.cl i.t.key x ((s0.thread i.t.cl i.t.key).gr x.a)) :=
  exec_regOp h hr (List.mem_singleton.mpr hop) hg

/-- Settles O43: each row by `exec_regOp` with its value of Table 10.4, then the registers and the end of an instruction. -/
theorem registerInstructionsWriteTheirResult : Obligations.RegisterInstructionsWriteTheirResult := by
  unfold Obligations.RegisterInstructionsWriteTheirResult
  refine ⟨?_, Thread.gr_setG, Thread.br_setB, Thread.pr_setP, ?_⟩
  · intro i x s s0 h t a b n setG setB setP mode p imm37 imm35
    have hpred : ∀ (u v : BitVec 64) (r : Bool), compare_ (x.op % 8) u v = r →
        t.setP x.d (x.predicate (t.pr x.d) u v) = t.setP x.d (p r) := fun u v r hr => by
      rw [Ins.predicate, hr, combine_eq_ite]
    refine ⟨exec_regOp_single h rfl rfl, fun v hv => ?alu, exec_regOp_single h rfl rfl, exec_regOp_single h rfl rfl,
      fun v hv => ?aluImmediate, exec_regOp_single h rfl rfl, exec_regOp_single h rfl rfl,
      exec_regOp_single h rfl (congrArg (t.setG x.d) (extractBits_eq a _ _)), exec_regOp_single h rfl rfl,
      fun hop => ?popc, fun hop => ?clz, fun hop => ?bswap, exec_regOp_single h rfl rfl, exec_regOp_single h rfl rfl,
      exec_regOp_single h rfl rfl, exec_regOp_single h rfl rfl, fun r hr => ?cmp, fun r hr => ?cmpi⟩
    case alu =>
      obtain ⟨hop, halu⟩ := alu_of_register_row hv
      exact exec_regOp h rfl hop (congrArg (t.setG x.d) halu)
    case aluImmediate =>
      obtain ⟨hop, halu⟩ := alu_of_immediate_row hv
      exact exec_regOp h rfl hop (congrArg (t.setG x.d) halu)
    case popc => exact exec_regOp h rfl (by rw [hop]; decide) (congrArg (t.setG x.d) (if_pos hop))
    case clz => exact exec_regOp h rfl (by rw [hop]; decide) (by simp only [hop]; rfl)
    case bswap => exact exec_regOp h rfl (by rw [hop]; decide) (by simp only [hop]; rfl)
    case cmp =>
      obtain ⟨hop, hcompare⟩ := compare_of_row (.inl rfl) hr
      exact exec_regOp h rfl hop (hpred _ _ _ hcompare)
    case cmpi =>
      obtain ⟨hop, hcompare⟩ := compare_of_row (.inr rfl) hr
      exact exec_regOp h rfl hop (hpred _ _ _ hcompare)
  · intro s c k x base hready
    obtain ⟨hframe, hthread, hclusters, hothers⟩ := s.settle_spec c k x base hready
    refine ⟨_, rfl, hframe, ?_, ?_, ?_, ?_, ?_, ?_, hclusters, hothers⟩ <;> rw [hthread]
    · exact hready
    all_goals rfl

end Sys2Proof.Machine
end

section
namespace Sys2Proof.Machine

/-! The identity and capability block (Tables 25.2 to 25.9, R569): what its reads answer, and that it takes no write. -/

/-- A read below 0x0010_0000 answers from the identity and capability block, whichever source reads (Table 25.1). -/
theorem State.readReg_ident (s : State) (src : Source) {off : Nat} (h : off < 0x00100000) :
    s.readReg src off = BitVec.ofNat 32 (s.readIdent off) := by
  unfold State.readReg
  rw [if_pos h]

theorem State.readIdent_serialLo (s : State) :
    BitVec.ofNat 32 (s.readIdent 0x10) = s.apex.otp.serial.extractLsb' 0 32 := by
  apply BitVec.eq_of_toNat_eq
  simp only [State.readIdent, BitVec.toNat_ofNat, BitVec.extractLsb'_toNat, Nat.shiftRight_zero, Nat.mod_mod]

theorem State.readIdent_serialHi (s : State) :
    BitVec.ofNat 32 (s.readIdent 0x14) = s.apex.otp.serial.extractLsb' 32 32 := by
  apply BitVec.eq_of_toNat_eq
  simp only [State.readIdent, BitVec.toNat_ofNat, BitVec.extractLsb'_toNat, Nat.shiftRight_eq_div_pow]

/-- The set-up window holds nothing to write below 0x0020_0000: identity is read-only, and Apex's mailboxes are written apart. -/
theorem State.windowWrite_eq_none_of_lt (s : State) {off : Nat} (h : off < 0x00200000) (v : Nat) : s.windowWrite off v = none := by
  rw [State.windowWrite, if_pos h]

/-- The identity and capability block takes no write: one that is not refused before reaches the window, which ignores it. -/
theorem State.registerWrite_ident (s : State) {off : Nat} (h : off < 0x00100000) (v : Nat) (src : Source) :
    s.registerWrite off v src = none := by
  have hmbx : ¬ (0x00100000 ≤ off ∧ off < 0x00200000) := by omega
  have hwindow : off < 0x04000000 := by omega
  rw [State.registerWrite, if_neg hmbx, if_pos hwindow, s.windowWrite_eq_none_of_lt (by omega), ite_self, ite_self]

/-- REGISTER_WRITE of an offset that takes no write leaves the part as it is. -/
theorem exec_registerWrite_of_none {s : State} {off v : Word32} {src : Source}
    (h : s.registerWrite off.toNat v.toNat src = none) : exec (.registerWrite off v src) s = .next s := by
  have hexec : exec (.registerWrite off v src) s = execRegisterWrite off v src s := rfl
  rw [hexec, execRegisterWrite, h, Option.getD_none]

/-- Settles O7: each read is the block's row, OTP's serial number in its two halves, and the block takes no write. -/
theorem identityRegistersHoldTheirValues : Obligations.IdentityRegistersHoldTheirValues := by
  unfold Obligations.IdentityRegistersHoldTheirValues
  intro s src
  have hread : ∀ {off : Nat} {w : BitVec 32}, off < 0x00100000 → BitVec.ofNat 32 (s.readIdent off) = w → s.readReg src off = w :=
    fun hoff hrow => (s.readReg_ident src hoff).trans hrow
  refine ⟨hread ?_ rfl, hread ?_ rfl, hread ?_ s.readIdent_serialLo, hread ?_ s.readIdent_serialHi, hread ?_ rfl, hread ?_ rfl,
    hread ?_ rfl, hread ?_ rfl, hread ?_ rfl,
    fun off v hoff => exec_registerWrite_of_none (s.registerWrite_ident hoff v.toNat src)⟩
  all_goals decide

end Sys2Proof.Machine
end

section
namespace Sys2Proof.Machine

/-! One step: which command it runs, that it answers a next state, and what it keeps. -/

/-- Settles O1: by the two cases of the queue. -/
theorem stepRunsTheFrontCommand : Obligations.StepRunsTheFrontCommand := by
  unfold Obligations.StepRunsTheFrontCommand
  intro s
  refine ⟨fun c rest hqueue => ?_, fun hempty => ?_⟩
  · rw [step, hqueue]
  · rw [step, hempty]

/-- Settles O59: what step_keeps says of memory. -/
theorem everyStepKeepsMemoryCanonical : Obligations.EveryStepKeepsMemoryCanonical := by
  unfold Obligations.EveryStepKeepsMemoryCanonical
  intro s t hwf hstep
  exact (step_keeps hstep).mem hwf

/-- Settles O60: what step_keeps says of the queue. -/
theorem everyStepKeepsTheQueuesRest : Obligations.EveryStepKeepsTheQueuesRest := by
  unfold Obligations.EveryStepKeepsTheQueuesRest
  intro s t hstep
  exact (step_keeps hstep).pending

theorem answers_ite {c : Prop} [Decidable c] {o₁ o₂ : Out} (h₁ : c → ∃ t, o₁ = .next t) (h₂ : ¬c → ∃ t, o₂ = .next t) :
    ∃ t, (if c then o₁ else o₂) = .next t := by
  split
  case isTrue h => exact h₁ h
  case isFalse h => exact h₂ h

theorem execDownlinkExpiry_answers (entry : Nat) (s : State) : ∃ t, execDownlinkExpiry entry s = .next t := by
  unfold execDownlinkExpiry
  generalize s.radius.store.find? _ = found
  obtain _ | e := found
  · exact ⟨_, rfl⟩
  · refine answers_ite (fun _ => ⟨_, rfl⟩) fun _ => ?_
    generalize State.storeRead _ e = read
    obtain ⟨ok, u⟩ := read
    exact ⟨_, rfl⟩

/-- No branch of any row ends in a fault or a refusal: the rows that decide something are named, and every other row answers at once. -/
theorem exec_answers (c : Instr) (s : State) : ∃ t, exec c s = .next t := by
  cases c
  case downlinkExpiry entry => exact execDownlinkExpiry_answers entry s
  case
      supplyHoldTimeout | compassRelease | generationDrainEnd | markingPassEnd | sweepPassStart | sweepSlotVisit | maskOverdue |
      drbgReseed | saCreate | saModify | saRetire | retirementEnd | overlapHoldExpiry | contextLockLeaseExpiry | rotationArmed |
      rotationTimeTrigger | tblLockWaitTimeout | tableLockLeaseExpiry | clientFrameReceive | learnRequestApply | moveHoldExpiry |
      emTableClear | sectorDequeue | lineFrameReceive | reorderRelease | holdLimitExpiry | parkedFrameRedispatch | facetFrameReceive |
      markerCodewordReceive | expectedMarkerMissed | alignmentCandidateMatch | losDeclare | losClear | serviceEnable | serviceDisable |
      radiusDrainEnd | radiusDrainTimeout | radiusBatchTake | batchAck | recordLockLeaseExpiry | radiusDispatch | readingBatchFlush |
      downlinkWindowRelease | gateListStart | gateEntryAdvance | indRead | indWrite | eventRecordWrite | counterRead | counterReadReady |
      pcLoRead | capture | gnomonSet | gnomonStep | lockWrite | rateWrite | servoTimeout | secondTick | ppsOutPulseEnd | ppsInEdge |
      ppsInMissing | todMessageSend | todByteReceive | todRxRead | txtsEntryRemove | nowNsRead | deleteDrainEnd | fillComplete |
      rekeyComplete | minorOverflowPassEnd | patrolScrub | handoverTimeout | handoverRequestReceive | chordLinkUp | helloSend |
      helloReceive | chordHeartbeatSend | heartbeatReceive | chordLinkDown | syncCycleStart | copyRecordsReceive | copyEndReceive |
      copyAckReceive | fullRequestReceive | leaseRequestSend | staleRequestSend | leaseGrant | leaseDeny | leaseExpiry |
      waitToRestoreExpiry | transmitPllLock | signalDetect | signalLoss | phaseLock | adaptConverged | trainComplete | lossOfLock |
      fastRelockExpiry | lockTimeout | pcsAlignmentLock | refclkLoss | laneCfgWrite | laneTxeqWrite | prbsCfgWrite | errorInject |
      prbsCheckerLockLoss | eyeScanGo | eyeScanDone | ringEnable | ringDisable | ringDrainEnd | ringCiWrite | interruptDelayExpiry |
      doorbellWrite | commandFetch | mgmtDoorbell | mgmtLinkChange | uartDataWrite | uartDataRead | uartByteReceive | uartByteSent |
      i2cTransferDone | portDrainEnd | portDisableTimeout | supplyReset | alarm | aonBrownOut | powerOnResetRelease | entropyHealthFail |
      entropyRecovery | warmReset | datapathReset | datapathResetComplete | portBlockReset | railWarningEntry | railWarningExit |
      overVoltage | temperatureSample | thermalTrip | thermalTripRelease | memoryPllLoss | gnomonPllLoss | gnomonPllRelock |
      tesseraPoolWrite | tesseraOwnerWrite | queueEnable | queueDisable | queueRelease | descriptorComplete | hbmLoadReturn |
      verificationResult | threadWatchdogExpiry | debugHalt | debugResume | pcSample | engineReset | activateDrainEnd | activateTimeout |
      nop =>
    dsimp only [exec, onLane,
      execSupplyHoldTimeout, execCompassRelease, execGenerationDrainEnd, execMarkingPassEnd, execSweepPassStart, execSweepSlotVisit,
      execMaskOverdue, execDrbgReseed, execSaCreate, execSaModify, execSaRetire, execRetirementEnd, execOverlapHoldExpiry,
      execContextLockLeaseExpiry, execRotationArmed, execRotationTimeTrigger, execTblLockWaitTimeout, execTableLockLeaseExpiry,
      execClientFrameReceive, execLearnRequestApply, execMoveHoldExpiry, execEmTableClear, execSectorDequeue, execLineFrameReceive,
      execReorderRelease, execHoldLimitExpiry, execParkedFrameRedispatch, execFacetFrameReceive, execMarkerCodewordReceive,
      execExpectedMarkerMissed, execAlignmentCandidateMatch, execLosDeclare, execLosClear, execServiceEnable, execServiceDisable,
      execRadiusDrainEnd, execRadiusDrainTimeout, execRadiusBatchTake, execBatchAck, execRecordLockLeaseExpiry, execRadiusDispatch,
      execReadingBatchFlush, execDownlinkWindowRelease, execGateListStart, execGateEntryAdvance, execIndRead, execIndWrite,
      execEventRecordWrite, execCounterRead, execCounterReadReady, execPcLoRead, execCapture, execGnomonSet, execGnomonStep,
      execLockWrite, execRateWrite, execServoTimeout, execSecondTick, execPpsOutPulseEnd, execPpsInEdge, execPpsInMissing,
      execTodMessageSend, execTodByteReceive, execTodRxRead, execTxtsEntryRemove, execNowNsRead, execDeleteDrainEnd, execFillComplete,
      execRekeyComplete, execMinorOverflowPassEnd, execPatrolScrub, execHandoverTimeout, execHandoverRequestReceive, execChordLinkUp,
      execHelloSend, execHelloReceive, execChordHeartbeatSend, execHeartbeatReceive, execChordLinkDown, execSyncCycleStart,
      execCopyRecordsReceive, execCopyEndReceive, execCopyAckReceive, execFullRequestReceive, execLeaseRequestSend, execStaleRequestSend,
      execLeaseGrant, execLeaseDeny, execLeaseExpiry, execWaitToRestoreExpiry, execTransmitPllLock, execSignalDetect, execSignalLoss,
      execPhaseLock, execAdaptConverged, execTrainComplete, execLossOfLock, execFastRelockExpiry, execLockTimeout, execPcsAlignmentLock,
      execRefclkLoss, execLaneCfgWrite, execLaneTxeqWrite, execPrbsCfgWrite, execErrorInject, execPrbsCheckerLockLoss, execEyeScanGo,
      execEyeScanDone, execRingEnable, execRingDisable, execRingDrainEnd, execRingCiWrite, execInterruptDelayExpiry, execDoorbellWrite,
      execCommandFetch, execMgmtDoorbell, execMgmtLinkChange, execUartDataWrite, execUartDataRead, execUartByteReceive, execUartByteSent,
      execI2cTransferDone, execPortDrainEnd, execPortDisableTimeout, execSupplyReset, execAlarm, execAonBrownOut, execPowerOnResetRelease,
      execEntropyHealthFail, execEntropyRecovery, execWarmReset, execDatapathReset, execDatapathResetComplete, execPortBlockReset,
      execRailWarningEntry, execRailWarningExit, execOverVoltage, execTemperatureSample, execThermalTrip, execThermalTripRelease,
      execMemoryPllLoss, execGnomonPllLoss, execGnomonPllRelock, execTesseraPoolWrite, execTesseraOwnerWrite, execQueueEnable,
      execQueueDisable, execQueueRelease, execDescriptorComplete, execHbmLoadReturn, execVerificationResult, execThreadWatchdogExpiry,
      execDebugHalt, execDebugResume, execPcSample, execEngineReset, execActivateDrainEnd, execActivateTimeout, execNop]
    repeat' split
    all_goals exact ⟨_, rfl⟩
  all_goals exact ⟨_, rfl⟩

/-- Settles O2. -/
theorem everyCommandAnswersANextState : Obligations.EveryCommandAnswersANextState := by
  unfold Obligations.EveryCommandAnswersANextState
  exact exec_answers

/-- Settles O3: the reset state and its registers, evaluated; what is indexed reads the default of its empty table. -/
theorem resetLeavesTheSpecsValues : Obligations.ResetLeavesTheSpecsValues := by
  unfold Obligations.ResetLeavesTheSpecsValues
  refine ⟨rfl, rfl, rfl, fun _ _ => rfl, fun _ => rfl, fun _ => rfl, fun _ => rfl, rfl, rfl, rfl, rfl, rfl, ?_⟩
  and_intros <;> rfl

end Sys2Proof.Machine
end

section
namespace Sys2Proof.Machine

/-! Events and counters (R515 to R520): what a raise and a count may change. -/

/-- A ring after the ring under another key, or the same, was replaced. -/
theorem State.ring_setRing_eq_ite (s : State) (k j : RingKind) (r i : Nat) (x : Ring) :
    (s.setRing k r x).ring j i = if ringKey j i = ringKey k r then x else s.ring j i := by
  by_cases h : ringKey j i = ringKey k r
  · rw [if_pos h]
    show tget _ (tput _ _ _ _) _ = x
    rw [h, tget_tput_self]
  · rw [if_neg h]
    exact tget_tput_ne _ _ h x

theorem State.ring_congr {s : State} {k j : RingKind} {r i : Nat} (h : ringKey j i = ringKey k r) : s.ring j i = s.ring k r :=
  congrArg (tget Ring.reset s.rings.rings) h

/-- From s to t nothing changes but what events and counters write: block counters, the event unit, and the mark of a ring that a record of
its was dropped. A status bit that is set stays set. -/
structure Reports (s t : State) : Prop where
  frame : t = { s with counters := t.counters, tele := t.tele, once := t.once, rings := t.rings }
  rings : t.rings = { s.rings with rings := t.rings.rings }
  ring : ∀ k i, t.ring k i = { s.ring k i with lostFlag := (t.ring k i).lostFlag }
  tele : t.tele = { s.tele with
      evtStatus := t.tele.evtStatus, raises := t.tele.raises, store := t.tele.store, held := t.tele.held, heldLost := t.tele.heldLost
      dropped := t.tele.dropped, dropPending := t.tele.dropPending, progs := t.tele.progs }
  status : ∀ g b, (tget 0 s.tele.evtStatus g).getLsbD b = true → (tget 0 t.tele.evtStatus g).getLsbD b = true

theorem Reports.refl (s : State) : Reports s s := ⟨rfl, rfl, fun _ _ => rfl, rfl, fun _ _ => id⟩

theorem Reports.trans {s t u : State} (h : Reports s t) (h' : Reports t u) : Reports s u where
  frame := h'.frame.trans (congrArg (fun w : State => { w with counters := u.counters, tele := u.tele, once := u.once, rings := u.rings }) h.frame)
  rings := h'.rings.trans (congrArg (fun w : RingsState => { w with rings := u.rings.rings }) h.rings)
  ring k i := (h'.ring k i).trans (congrArg (fun w : Ring => { w with lostFlag := (u.ring k i).lostFlag }) (h.ring k i))
  tele := h'.tele.trans (congrArg (fun w : TeleState => { w with
    evtStatus := u.tele.evtStatus, raises := u.tele.raises, store := u.tele.store, held := u.tele.held, heldLost := u.tele.heldLost
    dropped := u.tele.dropped, dropPending := u.tele.dropPending, progs := u.tele.progs }) h.tele)
  status g b hb := h'.status g b (h.status g b hb)

/-- A report that counts in no block counter: an event. -/
structure Raises (s t : State) : Prop extends Reports s t where
  counters : t.counters = s.counters

theorem Raises.refl (s : State) : Raises s s := ⟨Reports.refl s, rfl⟩

theorem Raises.trans {s t u : State} (h : Raises s t) (h' : Raises t u) : Raises s u :=
  ⟨h.toReports.trans h'.toReports, h'.counters.trans h.counters⟩

/-- What an event leaves of the state's other fields. -/
theorem Raises.frame' {s t : State} (h : Raises s t) : t = { s with tele := t.tele, once := t.once, rings := t.rings } :=
  h.frame.trans (by rw [h.counters])

theorem Raises.foldl {α : Type} {s t : State} {f : State → α → State} (l : List α) (h : Raises s t)
    (hf : ∀ u a, Raises s u → Raises s (f u a)) : Raises s (l.foldl f t) :=
  List.foldlRecOn l f h fun u hu a _ => hf u a hu

theorem tget_tmod {α : Type} [DecidableEq α] (d : α) (t : Tbl α) (k j : Nat) (f : α → α) :
    tget d (tmod d t k f) j = if j = k then f (tget d t k) else tget d t j := tget_tput d t k j _

/-- The bit of an event in its word of the status registers. -/
theorem getLsbD_or_one_shiftLeft (w : BitVec 32) (i b : Nat) :
    (w ||| (1#32 <<< i)).getLsbD b = (w.getLsbD b || (decide (b < 32) && decide (b = i))) := by
  rw [BitVec.getLsbD_or, BitVec.getLsbD_shiftLeft]
  congr 1
  rcases Nat.lt_trichotomy b i with hlt | rfl | hgt
  · simp [hlt, hlt.ne]
  · simp
  · have hsub : b - i ≠ 0 := by omega
    simp [hgt.ne', hsub]

theorem State.markRaise_raises (s : State) (ev : Nat) : Raises s (s.markRaise ev) where
  frame := rfl
  rings := rfl
  ring _ _ := rfl
  tele := rfl
  counters := rfl
  status g b hb := by
    show (tget 0 (tmod 0 s.tele.evtStatus (ev / 32) fun w => w ||| (1#32 <<< (ev % 32))) g).getLsbD b = true
    rw [tget_tmod]
    split
    case isTrue hg => rw [getLsbD_or_one_shiftLeft, ← hg, hb, Bool.true_or]
    case isFalse => exact hb

theorem State.markRaise_status (s : State) (ev : Nat) : (tget 0 (s.markRaise ev).tele.evtStatus (ev / 32)).getLsbD (ev % 32) = true := by
  have hlt : ev % 32 < 32 := Nat.mod_lt _ (by decide)
  show (tget 0 (tmod 0 s.tele.evtStatus (ev / 32) fun w => w ||| (1#32 <<< (ev % 32))) (ev / 32)).getLsbD (ev % 32) = true
  rw [tget_tmod, if_pos rfl, getLsbD_or_one_shiftLeft, decide_eq_true hlt, decide_eq_true rfl]
  simp

theorem State.withTele_raises_of_status {s : State} {x : TeleState}
    (htele : x = { s.tele with
      evtStatus := x.evtStatus, raises := x.raises, store := x.store, held := x.held, heldLost := x.heldLost
      dropped := x.dropped, dropPending := x.dropPending, progs := x.progs })
    (hstatus : x.evtStatus = s.tele.evtStatus) : Raises s { s with tele := x } :=
  ⟨⟨rfl, rfl, fun _ _ => rfl, htele, fun _ _ h => by rw [hstatus]; exact h⟩, rfl⟩

/-- A full store notes the loss in the ring whose record it drops (R518). -/
theorem State.markLost_raises (s : State) (i : Nat) : Raises s (s.setRing .event i { s.ring .event i with lostFlag := true }) where
  frame := rfl
  rings := rfl
  tele := rfl
  counters := rfl
  status _ _ := id
  ring k j := by
    rw [State.ring_setRing_eq_ite]
    split
    case isTrue hk => rw [s.ring_congr hk]
    case isFalse => rfl

theorem State.queueRaise_raises (s : State) (ev : Nat) (clear : Bool) (data : List Byte) : Raises s (s.queueRaise ev clear data) := by
  unfold State.queueRaise
  dsimp only
  split
  · split <;> exact State.withTele_raises_of_status rfl rfl
  · split
    · exact Raises.refl s
    · split
      · exact State.withTele_raises_of_status rfl rfl
      · exact (s.markLost_raises _).trans (State.withTele_raises_of_status rfl rfl)

theorem State.bumpProg_raises (s : State) (k n : Nat) : Raises s (s.bumpProg k n).2 :=
  State.withTele_raises_of_status rfl rfl

theorem State.withOnce_raises (s : State) (l : List Nat) : Raises s { s with once := l } :=
  ⟨⟨rfl, rfl, fun _ _ => rfl, rfl, fun _ _ => id⟩, rfl⟩

/-- Past its status bit and its record, a raise only counts in programmable counters. -/
theorem State.raiseFuel_raises_marked (n : Nat) (s : State) (ev : Nat) (clear : Bool) (data : List Byte) :
    Raises (s.markRaise ev) (s.raiseFuel n ev clear data) := by
  induction n generalizing s ev clear data with
  | zero => exact (s.markRaise ev).queueRaise_raises ev clear data
  | succ n ih =>
    have hqueued := (s.markRaise ev).queueRaise_raises ev clear data
    unfold State.raiseFuel
    dsimp only
    split
    · exact hqueued
    · refine hqueued.foldl _ fun u k hu => ?_
      have hbump := hu.trans (u.bumpProg_raises k 1)
      split
      · refine hbump.trans (Raises.trans ?_ (ih _ _ _ _))
        exact (State.withOnce_raises _ _).trans (State.markRaise_raises _ _)
      · exact hbump

theorem State.raiseFuel_raises (n : Nat) (s : State) (ev : Nat) (clear : Bool) (data : List Byte) : Raises s (s.raiseFuel n ev clear data) :=
  (s.markRaise_raises ev).trans (s.raiseFuel_raises_marked n ev clear data)

theorem State.raise_raises (s : State) (ev : Nat) (data : List Byte) : Raises s (s.raise ev data) := s.raiseFuel_raises 3 ev false data

theorem State.raiseSet_raises (s : State) (ev : Nat) (clear : Bool) (data : List Byte) : Raises s (s.raiseSet ev clear data) :=
  s.raiseFuel_raises 3 ev clear data

theorem State.raise_status (s : State) (ev : Nat) (data : List Byte) :
    (tget 0 (s.raise ev data).tele.evtStatus (ev / 32)).getLsbD (ev % 32) = true :=
  (s.raiseFuel_raises_marked 3 ev false data).status _ _ (s.markRaise_status ev)

theorem State.raiseOnce_raises (s : State) (ev a : Nat) (data : List Byte) : Raises s (s.raiseOnce ev a data) := by
  unfold State.raiseOnce
  split
  · exact Raises.refl s
  · exact (s.withOnce_raises _).trans (State.raise_raises _ _ _)

/-- A count adds to its own counter; the rest of it is events. -/
theorem State.countN_raises (s : State) (id n : Nat) :
    Raises { s with counters := tmod 0 s.counters id fun c => c + BitVec.ofNat 64 n } (s.countN id n) := by
  unfold State.countN
  dsimp only
  split
  · exact Raises.refl _
  · refine (Raises.refl _).foldl _ fun u k hu => ?_
    have hbump := hu.trans (u.bumpProg_raises k n)
    split
    · exact hbump.trans (State.raiseOnce_raises _ _ _ _)
    · exact hbump

theorem State.withCounters_reports (s : State) (x : Tbl (BitVec 64)) : Reports s { s with counters := x } :=
  ⟨rfl, rfl, fun _ _ => rfl, rfl, fun _ _ => id⟩

theorem State.countN_reports (s : State) (id n : Nat) : Reports s (s.countN id n) :=
  (s.withCounters_reports _).trans (s.countN_raises id n).toReports

theorem State.count_reports (s : State) (id : Nat) : Reports s (s.count id) := s.countN_reports id 1

theorem State.counter_countN (s : State) (id n j : Nat) :
    (s.countN id n).counter j = if j = id then s.counter id + BitVec.ofNat 64 n else s.counter j := by
  unfold State.counter
  rw [(s.countN_raises id n).counters]
  exact tget_tmod 0 s.counters id j fun c => c + BitVec.ofNat 64 n

/-- Settles O4: a raise by `raise_raises` and `raise_status`, a count by `countN_reports` and `counter_countN`. -/
theorem raisesAndCountsTouchOnlyTheirUnit : Obligations.RaisesAndCountsTouchOnlyTheirUnit := by
  unfold Obligations.RaisesAndCountsTouchOnlyTheirUnit
  refine ⟨fun s ev data _ => ?_, fun s id n => ?_⟩
  · have h := s.raise_raises ev data
    exact ⟨h.frame', h.rings, h.ring, h.tele, s.raise_status ev data, h.status⟩
  · have h := s.countN_reports id n
    refine ⟨h.frame, ?_, fun j hj => ?_, h.ring⟩
    · rw [State.counter_countN, if_pos rfl]
    · rw [State.counter_countN, if_neg hj]

end Sys2Proof.Machine
end

section
namespace Sys2Proof.Machine

/-! A write into a CONF+INT region: Hull may then evict a node, and the free value that says whether it does is drawn (R411, log entries 2, 170).
So the number of free values drawn rises, which the frames of O5 and O6 do not let change. -/

/-- HBM region 0 with CONF+INT and every right, command ring 0 running, and its completion ring 0 in that region. -/
def State.integrityDemo : State :=
  { State.reset with
    hull := { HullState.reset with
      up := 3, regions := [(0, { Region.reset with state := .active, integ := true, rights := 0x3FFF, base := 0, size := 1 })] }
    mem := { cells := [], fills := [{ base := 0, len := 2 ^ 26, pat := some 0, epoch := 1 }] }
    rings := { RingsState.reset with
      rings := [(0, { Ring.reset with state := .running, cap := 16 }), (64, { Ring.reset with state := .running, cap := 16 })] } }

theorem State.integrityDemo_wf : State.integrityDemo.mem.wf = true := by decide

theorem State.integrityDemo_writeMem_draws : (State.integrityDemo.writeMem .annulus 0x20A0 0 [1]).2.freeCount = 1 := by decide +kernel

theorem State.integrityDemo_complete_draws : (State.integrityDemo.done ⟨0, 0⟩ .ok).freeCount = 1 := by decide +kernel

/-- Refutes O5: a byte written into the CONF+INT region of `integrityDemo` draws a free value, so more than memory, Hull, counters and events
changes. -/
theorem not_memoryWritesStoreTheirBytes : ¬ Obligations.MemoryWritesStoreTheirBytes := by
  unfold Obligations.MemoryWritesStoreTheirBytes
  intro h
  obtain ⟨hframe, -⟩ := h State.integrityDemo .annulus 0x20A0 0 [1] State.integrityDemo_wf
  have hfree := congrArg State.freeCount hframe
  rw [State.integrityDemo_writeMem_draws] at hfree
  exact Nat.one_ne_zero hfree

/-- Refutes O6: the record of a completion in the CONF+INT region of `integrityDemo` draws a free value. -/
theorem not_completionsEndTheirCommand : ¬ Obligations.CompletionsEndTheirCommand := by
  unfold Obligations.CompletionsEndTheirCommand
  intro h
  obtain ⟨-, hrecord⟩ := h State.integrityDemo ⟨0, 0⟩ { status := .ok } State.integrityDemo_wf
  obtain ⟨hframe, -⟩ := hrecord rfl
  have hfree := congrArg State.freeCount hframe
  rw [← State.done, State.integrityDemo_complete_draws] at hfree
  exact Nat.one_ne_zero hfree

end Sys2Proof.Machine
end

section
namespace Sys2Proof.Machine

/-! External memory (R401 to R405, R411 to R414): what a read and a write through Hull may change beside the bytes written. -/

/-- From s to t nothing changes but what a write through Hull may: memory, Hull, the free values drawn, and what is reported. -/
structure Stores (s t : State) : Prop where
  frame : t = { s with
    freeCount := t.freeCount, mem := t.mem, hull := t.hull, counters := t.counters, tele := t.tele, once := t.once, rings := t.rings }
  rings : t.rings = { s.rings with rings := t.rings.rings }
  ring : ∀ k i, t.ring k i = { s.ring k i with lostFlag := (t.ring k i).lostFlag }
  tele : t.tele = { s.tele with
      evtStatus := t.tele.evtStatus, raises := t.tele.raises, store := t.tele.store, held := t.tele.held, heldLost := t.tele.heldLost
      dropped := t.tele.dropped, dropPending := t.tele.dropPending, progs := t.tele.progs }

theorem Reports.stores {s t : State} (h : Reports s t) : Stores s t where
  frame := by
    have hfree : t.freeCount = s.freeCount := by rw [h.frame]
    have hmem : t.mem = s.mem := by rw [h.frame]
    have hhull : t.hull = s.hull := by rw [h.frame]
    rw [hfree, hmem, hhull]
    exact h.frame
  rings := h.rings
  ring := h.ring
  tele := h.tele

theorem Stores.refl (s : State) : Stores s s := (Reports.refl s).stores

theorem Stores.trans {s t u : State} (h : Stores s t) (h' : Stores t u) : Stores s u where
  frame := h'.frame.trans (congrArg (fun w : State => { w with
    freeCount := u.freeCount, mem := u.mem, hull := u.hull, counters := u.counters, tele := u.tele, once := u.once, rings := u.rings }) h.frame)
  rings := h'.rings.trans (congrArg (fun w : RingsState => { w with rings := u.rings.rings }) h.rings)
  ring k i := (h'.ring k i).trans (congrArg (fun w : Ring => { w with lostFlag := (u.ring k i).lostFlag }) (h.ring k i))
  tele := h'.tele.trans (congrArg (fun w : TeleState => { w with
    evtStatus := u.tele.evtStatus, raises := u.tele.raises, store := u.tele.store, held := u.tele.held, heldLost := u.tele.heldLost
    dropped := u.tele.dropped, dropPending := u.tele.dropPending, progs := u.tele.progs }) h.tele)

theorem Stores.ite {s a b : State} {c : Prop} [Decidable c] (ha : Stores s a) (hb : Stores s b) : Stores s (if c then a else b) := by
  split
  case isTrue => exact ha
  case isFalse => exact hb

theorem Stores.tele_waiting {s t : State} (h : Stores s t) : t.tele.waiting = s.tele.waiting := by rw [h.tele]

theorem State.draw_stores (s : State) (n : Nat) : Stores s (s.draw n).2 := ⟨rfl, rfl, fun _ _ => rfl, rfl⟩

theorem State.withHull_stores (s : State) (x : HullState) : Stores s { s with hull := x } := ⟨rfl, rfl, fun _ _ => rfl, rfl⟩

theorem State.withMemHull_stores (s : State) (m : Memory) (x : HullState) : Stores s { s with mem := m, hull := x } :=
  ⟨rfl, rfl, fun _ _ => rfl, rfl⟩

theorem State.setRegion_stores (s : State) (k : Nat) (r : Region) : Stores s (s.setRegion k r) := s.withHull_stores _

theorem State.refuse_reports (s : State) (k : Option Nat) (m : Master) : Reports s (s.refuse k m) := by
  cases k with
  | none => exact Reports.refl s
  | some k => exact (s.count_reports _).trans (State.raiseOnce_raises _ _ _ _).toReports

theorem State.refuseWrite_reports (s : State) (k : Nat) (m : Master) : Reports s (s.refuseWrite k m) :=
  (s.count_reports _).trans (State.refuse_reports _ _ _)

theorem State.verifyFail_reports (s : State) (k addr : Nat) (m : Master) (owner : Nat) (c : VerifyCause) :
    Reports s (s.verifyFail k addr m owner c) :=
  (s.count_reports _).trans (State.raise_raises _ _ _).toReports

theorem State.noteDirty_stores (s : State) (k leaf : Nat) : Stores s (s.noteDirty k leaf) := by
  have hset : ∀ r, Stores s ((s.draw 1).2.setRegion k r) := fun r => (s.draw_stores 1).trans (State.setRegion_stores _ k r)
  unfold State.noteDirty
  exact Stores.ite ((hset _).trans (State.raise_raises _ _ _).toReports.stores) (hset _)

theorem State.poisonGroup_stores (s : State) (k first line : Nat) : Stores s (s.poisonGroup k first line) :=
  (s.countN_reports _ _).stores.trans (State.withHull_stores _ _)

theorem State.bumpLine_stores (s : State) (k line : Nat) : Stores s (s.bumpLine k line).2 := by
  unfold State.bumpLine
  dsimp only
  split
  · exact Stores.refl s
  · split
    · exact (s.setRegion_stores k _).trans (State.raise_raises _ _ _).toReports.stores
    · split
      · exact (s.setRegion_stores k _).trans ((State.count_reports _ _).stores.trans
          ((State.poisonGroup_stores _ _ _ _).trans (State.noteDirty_stores _ _ _)))
      · exact (s.setRegion_stores k _).trans (State.noteDirty_stores _ _ _)

theorem State.writeOne_stores (s : State) (m : Master) (owner a : Nat) (bs : List Byte) : Stores s (s.writeOne m owner a bs).2 := by
  unfold State.writeOne
  dsimp only
  split
  · exact (s.refuse_reports _ m).stores
  · exact (s.refuseWrite_reports _ m).stores
  · exact (s.verifyFail_reports _ _ m owner _).stores
  · exact (s.count_reports _).stores
  · have hbump := s.bumpLine_stores
    split
    · exact (hbump _ _).trans (State.withMemHull_stores _ _ _)
    · exact hbump _ _

theorem State.writeGo_stores (m : Master) (owner n : Nat) (s : State) (a : Nat) (bs : List Byte) :
    Stores s (State.writeGo m owner n s a bs).2 := by
  induction n generalizing s a bs with
  | zero => exact Stores.refl s
  | succ n ih =>
    cases bs with
    | nil => exact Stores.refl s
    | cons b bs =>
      unfold State.writeGo
      have hone := s.writeOne_stores m owner a ((b :: bs).take (64 - a % 64))
      dsimp only
      split
      case h_1 hr => rwa [hr] at hone
      case h_2 hr =>
        rw [hr] at hone
        exact hone.trans (ih _ _ _)

/-- Beside memory, Hull and free values a write through Hull only reports. -/
theorem State.writeMem_stores (s : State) (m : Master) (owner a : Nat) (bs : List Byte) : Stores s (s.writeMem m owner a bs).2 := by
  unfold State.writeMem
  split
  case h_1 t hfound =>
    obtain ⟨l, -, hl⟩ := List.exists_of_findSome?_eq_some hfound
    split at hl
    · cases hl
      exact (s.refuse_reports _ m).stores
    · cases hl
      exact (s.refuseWrite_reports _ m).stores
    · cases hl
  case h_2 => exact State.writeGo_stores m owner _ s a bs

end Sys2Proof.Machine
end

section
namespace Sys2Proof.Machine

/-! Counter reads and freezing (R519 to R521). -/

theorem execCounterRead_of_running {s : State} (h : s.halted = false) (v : Word32) :
    exec (.counterRead v) s = .next (s.counterAsk v) := by
  show execCounterRead v s = _
  simp [execCounterRead, h]

theorem execCounterReadReady_of_pending {s : State} {id : Word32} (h : s.tele.cntPending = some id) :
    exec .counterReadReady s = .next { s with tele := { s.tele with
      cntReady := true, cntPending := none, cntErr := s.tele.cntErr || !counterExists id.toNat
      cntValue := if counterExists id.toNat = true then s.counter id.toNat else 0 } } := by
  show execCounterReadReady s = _
  simp only [execCounterReadReady, h, State.withTele]

/-- FROZEN does not change: no event. -/
theorem State.setFrozen_of_eq {s : State} {cmd pin : Bool} (h : (cmd || pin) = s.frozen) (cause : Nat) :
    s.setFrozen cmd pin cause = { s with tele := { s.tele with cmdFrozen := cmd, pinFrozen := pin } } := by
  have hnew : (s.withTele { s.tele with cmdFrozen := cmd, pinFrozen := pin }).frozen = s.frozen := h
  simp only [State.setFrozen, hnew, if_true]
  rfl

/-- FROZEN changes: event 0x344 with the new state and the cause. -/
theorem State.setFrozen_of_ne {s : State} {cmd pin : Bool} (h : (cmd || pin) ≠ s.frozen) (cause : Nat) :
    s.setFrozen cmd pin cause = ({ s with tele := { s.tele with cmdFrozen := cmd, pinFrozen := pin } }).raise 0x344
      [BitVec.ofNat 8 (b2n (cmd || pin)), BitVec.ofNat 8 cause] := by
  have hnew : (s.withTele { s.tele with cmdFrozen := cmd, pinFrozen := pin }).frozen = (cmd || pin) := rfl
  simp only [State.setFrozen, hnew, if_neg h]
  rfl

theorem exec_snapshotFreeze_accepted {d : Desc} {s s0 : State} (h : Accepted d 0 [(8, 1)] s s0) (hform : d.get 8 1 = 2) :
    exec (.snapshotFreeze d) s = .next ((s0.setFrozen true s0.tele.pinFrozen 0).done d .ok) := by
  show execSnapshotFreeze d s = _
  rw [execSnapshotFreeze, ringCommand_accepts h, if_neg (not_not.mpr hform)]

theorem exec_snapshotThaw_accepted {d : Desc} {s s0 : State} (h : Accepted d 0 [(8, 1)] s s0) (hform : d.get 8 1 = 3) :
    exec (.snapshotThaw d) s = .next ((s0.setFrozen false s0.tele.pinFrozen 0).done d .ok) := by
  show execSnapshotThaw d s = _
  rw [execSnapshotThaw, ringCommand_accepts h, if_neg (not_not.mpr hform)]

/-- SNAP_IN under PIN_FREEZE: the pin's cause of FROZEN follows the level. -/
theorem exec_snapInFreezeLevel_of_pinFreeze {s : State} (hheld : s.apex.held = false) (hpin : bitOf (s.regN 0x03E00020) 31 = true)
    (hfreeze : bitOf (s.regN 0x03E00020) 30 = true) (level : Bool) :
    exec (.snapInFreezeLevel level) s = .next (({ s with tele := { s.tele with snapIn := level } }).setFrozen s.tele.cmdFrozen
      (level == !bitOf (s.regN 0x03E00020) 29) 1) := by
  show Host.Outcome.next (s.snapPin level) = _
  simp only [State.snapPin, State.withTele, hheld, hpin, hfreeze]
  rfl

/-- Settles O9: each row by its equation above, each change of FROZEN by `setFrozen_of_eq` or `setFrozen_of_ne`. -/
theorem counterReadsAndFreezes : Obligations.CounterReadsAndFreezes := by
  unfold Obligations.CounterReadsAndFreezes
  refine ⟨fun s => ⟨fun v hrun => ?_, fun id hasked hexists => ?_, fun id hasked hexists => ?_, fun k => rfl⟩, fun s s0 =>
    ⟨fun d hacc hform hfrozen => ?_, fun d hacc hform hfrozen => ?_, fun d hacc hform hcmd hpin => ?_, fun d hacc hform hpin => ?_,
      fun level hheld hon hfreeze hcmd hpin hlevel => ?_, fun level hheld hon hfreeze hcmd => ?_⟩⟩
  · rw [execCounterRead_of_running hrun]
    rfl
  · rw [execCounterReadReady_of_pending hasked, hexists]
    simp
  · rw [execCounterReadReady_of_pending hasked, hexists]
    simp
  · rw [exec_snapshotFreeze_accepted hacc hform, State.setFrozen_of_eq (by rw [hfrozen, Bool.true_or])]
  · have hpin : s0.tele.pinFrozen = false := (Bool.or_eq_false_iff.mp hfrozen).2
    rw [exec_snapshotFreeze_accepted hacc hform, State.setFrozen_of_ne (by simp [hfrozen]), Bool.true_or]
    rfl
  · have hfrozen : s0.frozen = true := by rw [State.frozen, hcmd, Bool.true_or]
    have hdata : BitVec.ofNat 8 (b2n (false || s0.tele.pinFrozen)) = 0 := by rw [hpin]; rfl
    rw [exec_snapshotThaw_accepted hacc hform, State.setFrozen_of_ne (by simp [hfrozen, hpin]), hdata]
    rfl
  · have hfrozen : s0.frozen = true := by rw [State.frozen, hpin, Bool.or_true]
    rw [exec_snapshotThaw_accepted hacc hform, State.setFrozen_of_eq (by rw [hfrozen, hpin, Bool.or_true])]
  · have hfrozen : ({ s with tele := { s.tele with snapIn := level } } : State).frozen = false := by
      rw [State.frozen, hcmd, hpin, Bool.or_false]
    have hactive : (level == !bitOf (s.regN 0x03E00020) 29) = true := beq_iff_eq.mpr hlevel
    rw [exec_snapInFreezeLevel_of_pinFreeze hheld hon hfreeze, hactive, State.setFrozen_of_ne (by simp [hfrozen]), Bool.or_true]
    rfl
  · have hfrozen : ({ s with tele := { s.tele with snapIn := level } } : State).frozen = true := by rw [State.frozen, hcmd, Bool.true_or]
    rw [exec_snapInFreezeLevel_of_pinFreeze hheld hon hfreeze, State.setFrozen_of_eq (by rw [hfrozen, hcmd, Bool.true_or])]

end Sys2Proof.Machine
end

section
namespace Sys2Proof.Machine

/-! The rows of a ring command that ends, and what its end leaves unchanged (R472). -/

theorem State.ringError_waiting (s : State) (k : RingKind) (r cause : Nat) : (s.ringError k r cause).tele.waiting = s.tele.waiting := by
  unfold State.ringError
  dsimp only
  rw [(State.raise_raises _ _ _).tele]
  dsimp only
  rw [apply_ite State.tele, apply_ite TeleState.waiting]
  exact ite_self _

theorem State.writeCompletion_waiting (s : State) (d : Desc) (rep : Reply) (c : Nat) :
    (s.writeCompletion d rep c).tele.waiting = s.tele.waiting := by
  have hwrite := fun m o a bs => (s.writeMem_stores m o a bs).tele_waiting
  unfold State.writeCompletion
  dsimp only
  split
  · rfl
  · split
    · exact hwrite _ _ _ _
    · exact (State.ringError_waiting _ _ _ _).trans (hwrite _ _ _ _)

/-- The end of a command keeps the capture request that waits. -/
theorem State.complete_waiting (s : State) (d : Desc) (rep : Reply) : (s.complete d rep).tele.waiting = s.tele.waiting := by
  unfold State.complete
  dsimp only
  split
  · rfl
  · split
    · rfl
    · exact State.writeCompletion_waiting _ _ _ _

theorem State.writeBufDone_waiting (s : State) (d : Desc) (m : Master) (a : Nat) (bs : List Byte) (rep : Reply) :
    (s.writeBufDone d m a bs rep).tele.waiting = s.tele.waiting := by
  have hwrite := (s.writeMem_stores m (ringOwner d.ring.val) a bs).tele_waiting
  unfold State.writeBufDone
  split
  case h_1 hr =>
    rw [hr] at hwrite
    exact (State.complete_waiting _ _ _).trans hwrite
  case h_2 hr =>
    rw [hr] at hwrite
    exact (State.complete_waiting _ _ _).trans hwrite

/-! Captures (R512, R522 to R524). -/

theorem exec_snapshotNow_accepted {d : Desc} {s s0 : State} (h : Accepted d 0 [(8, 1), (0x18, 12)] s s0) (hform : d.get 8 1 = 0) :
    exec (.snapshotNow d) s = .next (s0.requestCapture (.now d)) := by
  show execSnapshotNow d s = _
  rw [execSnapshotNow, ringCommand_accepts h, if_neg (not_not.mpr hform)]

theorem State.requestCapture_of_idle {s : State} (h : s.tele.running = none) (q : CaptureOf) :
    s.requestCapture q = { s with tele := { s.tele with running := some (q, s.gnomon.time) } } := by
  simp only [State.requestCapture, h, State.withTele]

theorem State.requestCapture_of_running {s : State} (h : s.tele.running ≠ none) (hwait : s.tele.waiting = none) (q : CaptureOf) :
    s.requestCapture q = { s with tele := { s.tele with waiting := some (q, none) } } := by
  obtain ⟨r, hr⟩ := Option.ne_none_iff_exists'.mp h
  simp only [State.requestCapture, hr, hwait, State.withTele]

theorem State.requestCapture_of_waiting {s : State} (h : s.tele.running ≠ none) (hwait : s.tele.waiting ≠ none) (d : Desc) :
    s.requestCapture (.now d) = s.done d .busy := by
  obtain ⟨r, hr⟩ := Option.ne_none_iff_exists'.mp h
  obtain ⟨w, hw⟩ := Option.ne_none_iff_exists'.mp hwait
  simp only [State.requestCapture, hr, hw]

theorem exec_snapshotAtTime_accepted {d : Desc} {s s0 : State} (h : Accepted d 0 [(8, 1), (0xC, 10), (0x18, 12)] s s0)
    (hform : d.get 8 1 = 1) (hns : d.get 0x12 4 ≤ 999999999) (harmed : s0.tele.armed = none) (hlater : s0.gnomon.time < snapTime d) :
    exec (.snapshotAtTime d) s = .next { s0 with tele := { s0.tele with armed := some (d, snapTime d) } } := by
  have hfields : ¬ (d.get 8 1 ≠ 1 ∨ 999999999 < d.get 0x12 4) := by omega
  show execSnapshotAtTime d s = _
  rw [execSnapshotAtTime, ringCommand_accepts h, if_neg hfields, if_neg (by simp [harmed]), if_neg (by omega)]
  rfl

/-- A pin capture comes 200 ns after its edge at the earliest. -/
theorem add_le_pinInstant (align t : Nat) : t + 200 ≤ pinInstant align t := by
  unfold pinInstant
  dsimp only
  split
  · exact le_rfl
  · rename_i hal
    have hup : (t + 200) % 1000000000 ≤ ((t + 200) % 1000000000 + 1000 * align - 1) / (1000 * align) * (1000 * align) := by
      have hdiv := Nat.div_add_mod ((t + 200) % 1000000000 + 1000 * align - 1) (1000 * align)
      have hmod := Nat.mod_lt ((t + 200) % 1000000000 + 1000 * align - 1) (Nat.pos_of_ne_zero hal)
      rw [Nat.mul_comm] at hdiv
      omega
    omega

/-- An edge of SNAP_IN at its selected polarity, with PIN_FREEZE 0. -/
theorem exec_snapInEdge_of_edge {s : State} {level : Bool} (hheld : s.apex.held = false) (hon : bitOf (s.regN 0x03E00020) 31 = true)
    (hfreeze : bitOf (s.regN 0x03E00020) 30 = false) (hedge : level ≠ s.tele.snapIn) (hlevel : level = !bitOf (s.regN 0x03E00020) 29) :
    exec (.snapInEdge level) s =
      .next (({ s with tele := { s.tele with snapIn := level } }).snapEdge (s.regN 0x03E00020) true) := by
  have hpolarity : (level != s.tele.snapIn && level == !bitOf (s.regN 0x03E00020) 29) = true := by
    rw [Bool.and_eq_true]
    exact ⟨bne_iff_ne.mpr hedge, beq_iff_eq.mpr hlevel⟩
  show Host.Outcome.next (s.snapPin level) = _
  simp only [State.snapPin, State.withTele, hheld, hon, hfreeze, hpolarity]
  rfl

theorem State.snapEdge_arms {s : State} (cfg : Nat) (hbuf : s.regN 0x03E0002C ≠ 0) (hwait : s.tele.waiting = none) (hdue : s.tele.pinDue = none) :
    s.snapEdge cfg true = { s with tele := { s.tele with pinDue := some (pinInstant (bits cfg 16 12) s.gnomon.time) } } := by
  simp [State.snapEdge, hbuf, hwait, hdue, State.withTele]

theorem State.snapEdge_of_waiting {s : State} (cfg : Nat) (hbuf : s.regN 0x03E0002C ≠ 0) (hwait : s.tele.waiting ≠ none) :
    s.snapEdge cfg true = s.raise 0x341 [0] := by
  obtain ⟨w, hw⟩ := Option.ne_none_iff_exists'.mp hwait
  simp [State.snapEdge, hbuf, hw]

theorem State.doCapture_waiting_now (s : State) (d : Desc) (c : Nat) : (s.doCapture (.now d) c).tele.waiting = s.tele.waiting := by
  unfold State.doCapture
  dsimp only
  split
  · exact s.complete_waiting _ _
  · exact s.writeBufDone_waiting _ _ _ _ _

/-- CAPTURE while a capture of a command runs and none waits: it is carried out. -/
theorem exec_capture_of_running {s : State} {d : Desc} {c : Nat} (hrun : s.tele.running = some (.now d, c)) (hwait : s.tele.waiting = none) :
    exec .capture s = .next (({ s with tele := { s.tele with running := none } }).doCapture (.now d) c) := by
  have hlater : (State.doCapture { s with tele := { s.tele with running := none } } (.now d) c).tele.waiting = none :=
    (State.doCapture_waiting_now _ d c).trans hwait
  show execCapture s = _
  simp only [execCapture, hrun, Option.isSome_some, if_true, State.withTele, hlater]

/-! Records of event rings (R62, R474, R516). -/

theorem exec_eventRecordWrite_of_held {s : State} {t : Taken} {rest : List Taken} (hheld : s.tele.held = t :: rest)
    (hrun : (s.ring .event (s.evtRing t.ev)).state = .running) :
    exec .eventRecordWrite s =
      let u : State := { s with tele := { s.tele with held := rest } }
      let t' : Taken := { t with ring := s.evtRing t.ev }
      let ring := s.ring .event t'.ring
      if s.evtCfg t.ev / 2 ^ 31 = 0 then .next u
      else .next (if idxDiff ring.pi ring.ci + t.records ≤ ring.cap then
        (u.writeTaken t' s.tele.heldLost).withTele { (u.writeTaken t' s.tele.heldLost).tele with heldLost := false }
        else u.writeTaken t' s.tele.heldLost) := by
  have hnext : s.nextHeld = some (t, rest) := by
    simp [State.nextHeld, hheld, hrun]
  show execEventRecordWrite s = _
  simp only [execEventRecordWrite, hnext, decide_eq_true_eq]
  rfl

theorem State.nextHeld_of_nil {s : State} (h : s.tele.held = []) : s.nextHeld = none := by
  simp [State.nextHeld, h]

theorem exec_eventRecordWrite_of_store {s : State} {t : Taken} {rest : List Taken} (hstore : s.tele.store = t :: rest)
    (hheld : s.tele.held = []) :
    exec .eventRecordWrite s = .next ((({ s with tele := { s.tele with store := rest } }).writeTaken t false).reportDrops) := by
  show execEventRecordWrite s = _
  simp only [execEventRecordWrite, State.nextHeld_of_nil hheld, hstore]
  rfl

/-- A raise of at most 8 data bytes that fits its ring, and that Hull writes there. -/
theorem State.writeTaken_of_room {s : State} {t : Taken} (hroom : idxDiff (s.ring .event t.ring).pi (s.ring .event t.ring).ci + t.records ≤
      (s.ring .event t.ring).cap) (hshort : t.data.length ≤ 8) :
    let ring := s.ring .event t.ring
    let r := s.writeMem .annulus 0 (ring.slotAddr ring.pi.toNat 16) (eventRecord t ring.phase ring.lostFlag false ring.seq.toNat)
    r.1 = true → s.writeTaken t false =
      r.2.setRing .event t.ring (({ r.2.ring .event t.ring with seq := ring.seq + 1, lostFlag := false }).advance r.2.clk false) := by
  have hone : t.records = 1 := if_pos hshort
  intro ring r hr
  have hput : s.putEventRecord t.ring (eventRecord t ring.phase ring.lostFlag false ring.seq.toNat) =
      (true, r.2.setRing .event t.ring (({ r.2.ring .event t.ring with seq := ring.seq + 1, lostFlag := false }).advance r.2.clk false)) := by
    rw [State.putEventRecord]
    dsimp only
    rw [if_pos hr]
  have hmore : decide ((1 : Nat) = 2) = false := rfl
  rw [hone] at hroom
  simp only [State.writeTaken, hone, if_neg (Nat.not_lt.mpr hroom), Bool.or_false, hmore]
  simp only [ring] at hput
  rw [hput]
  exact if_pos trivial

/-- A raise that does not fit, where 0x042 has been raised this second: it is lost and the next record says so. -/
theorem State.writeTaken_of_full {s : State} {t : Taken} (hfull : (s.ring .event t.ring).cap <
      idxDiff (s.ring .event t.ring).pi (s.ring .event t.ring).ci + t.records) (honce : s.once.contains (onceKey 0x042 t.ring) = true) (l : Bool) :
    s.writeTaken t l = s.setRing .event t.ring { s.ring .event t.ring with
      lost := (s.ring .event t.ring).lost + 1, lostFlag := true, lostSince := (s.ring .event t.ring).lostSince + 1 } := by
  simp only [State.writeTaken, if_pos hfull, State.setRing_once, honce, if_true]

theorem exec_eventRecordWrite_of_empty {s : State} (hstore : s.tele.store = []) (hheld : s.tele.held = []) :
    exec .eventRecordWrite s = .next s.reportDrops := by
  show execEventRecordWrite s = _
  simp only [execEventRecordWrite, State.nextHeld_of_nil hheld, hstore]

/-- Settles O10: requests, captures and records, by the equations above. -/
theorem capturesAndEventRecords : Obligations.CapturesAndEventRecords := by
  unfold Obligations.CapturesAndEventRecords
  refine ⟨fun s s0 => ⟨fun d hacc hform => ⟨fun hidle => ?_, fun hrun hwait => ?_, fun hrun hwait => ?_⟩, fun d hacc hform hns harmed hlater => ?_,
    fun level hheld hon hfreeze hedge hlevel hbuf => ⟨fun hwait hdue => ?_, fun hwait => ?_⟩, fun d c hrun hwait hlen => ?_,
    fun d c hrun hwait hlen => ?_⟩, fun s t rest => ⟨fun hheld hring => ?_, fun hstore hheld => ?_, fun hstore hheld => ?_⟩⟩
  · rw [exec_snapshotNow_accepted hacc hform, State.requestCapture_of_idle hidle]
  · rw [exec_snapshotNow_accepted hacc hform, State.requestCapture_of_running hrun hwait]
  · rw [exec_snapshotNow_accepted hacc hform, State.requestCapture_of_waiting hrun hwait]
  · exact exec_snapshotAtTime_accepted hacc hform hns harmed hlater
  · refine ⟨_, add_le_pinInstant (bits (s.regN 0x03E00020) 16 12) s.gnomon.time, ?_⟩
    rw [exec_snapInEdge_of_edge hheld hon hfreeze hedge hlevel]
    exact congrArg Host.Outcome.next (State.snapEdge_arms _ hbuf hwait hdue)
  · rw [exec_snapInEdge_of_edge hheld hon hfreeze hedge hlevel]
    exact congrArg Host.Outcome.next (State.snapEdge_of_waiting _ hbuf hwait)
  · rw [exec_capture_of_running hrun hwait]
    exact congrArg Host.Outcome.next (if_neg (Nat.not_lt.mpr hlen))
  · rw [exec_capture_of_running hrun hwait]
    exact congrArg Host.Outcome.next (if_pos hlen)
  · rw [exec_eventRecordWrite_of_held hheld hring]
    refine ⟨fun hoff => if_pos hoff, fun hon hroom => ?_, fun hon hfull => ?_⟩
    · dsimp only at hroom ⊢
      rw [if_neg hon, if_pos hroom]
      rfl
    · dsimp only at hfull ⊢
      rw [if_neg hon, if_neg (Nat.not_le.mpr hfull)]
  · rw [exec_eventRecordWrite_of_store hstore hheld]
    refine ⟨fun hroom hshort hwritten => ?_, fun hfull honce => ?_⟩
    · exact congrArg (fun u : State => Host.Outcome.next u.reportDrops) (State.writeTaken_of_room hroom hshort hwritten)
    · exact congrArg (fun u : State => Host.Outcome.next u.reportDrops)
        (State.writeTaken_of_full (s := { s with tele := { s.tele with store := rest } }) hfull honce false)
  · exact ⟨exec_eventRecordWrite_of_empty hstore hheld, fun hnone => if_pos (.inl hnone)⟩

end Sys2Proof.Machine
end

section
namespace Sys2Proof.Machine

/-! The passing of time (R382, R386): one step of `pass` that ends at a second boundary. -/

/-- Past the time itself, what flows by only counts in programmable counters. -/
theorem State.flow_raises (s : State) (n : Nat) : Raises (s.elapse n) (s.flow n) := by
  have hcount : ∀ u : State, Raises (s.elapse n) u → ∀ k,
      Raises (s.elapse n) (if (u.bumpProg k (u.gnomon.time - s.gnomon.time)).1 = true
        then (u.bumpProg k (u.gnomon.time - s.gnomon.time)).2.raiseOnce 0x343 k (le 2 k)
        else (u.bumpProg k (u.gnomon.time - s.gnomon.time)).2) := fun u hu k => by
    have hbump := hu.trans (u.bumpProg_raises k (u.gnomon.time - s.gnomon.time))
    split
    · exact hbump.trans (State.raiseOnce_raises _ _ _ _)
    · exact hbump
  unfold State.flow
  dsimp only
  split
  · exact Raises.refl _
  · exact (Raises.refl _).foldl _ fun u k hu => hcount u hu k

/-- A programmable counter to which nothing is added does not wrap. -/
theorem State.bumpProg_zero_wraps (s : State) (k : Nat) : (s.bumpProg k 0).1 = false := by
  have hlt := (tget ProgCounter.reset s.tele.progs k).value.isLt
  simp only [State.bumpProg, Nat.add_zero, ge_iff_le, decide_eq_false_iff_not]
  omega

/-- Where no Gnomon nanosecond passes, no at-most-once limit is used. -/
theorem State.flow_once {s : State} {n : Nat} (h : (s.elapse n).gnomon.time = s.gnomon.time) : (s.flow n).once = s.once := by
  have honce : (s.elapse n).once = s.once := by unfold State.elapse; split <;> rfl
  unfold State.flow
  dsimp only
  split
  · exact honce
  · refine (List.foldlRecOn (motive := fun u : State => u.once = s.once ∧ u.gnomon.time = s.gnomon.time) _ _ ⟨honce, h⟩ ?_).1
    rintro u ⟨hu, htime⟩ k -
    rw [htime, Nat.sub_self, u.bumpProg_zero_wraps k]
    exact ⟨hu, htime⟩

theorem State.elapse_of_run {s : State} (h : s.halted = false) (n : Nat) : s.elapse n = { s with
    clk := s.clk + n
    gnomon := { s.gnomon with
      frac := (s.gnomon.frac + (n * (2 ^ 40 + (s.reg 0x01400020).toInt)).toNat) % 2 ^ 40
      time := s.gnomon.time + (s.gnomon.frac + (n * (2 ^ 40 + (s.reg 0x01400020).toInt)).toNat) / 2 ^ 40 } } := by
  have htrip : ¬ s.cpr.trip.isSome = true := by
    rw [(Bool.or_eq_false_iff.mp h).2]
    decide
  simp only [State.elapse, if_neg htrip]

/-- One ns of SYS_REFCLK at a RATE within the bounds of R382, in units of 2^-40 ns: a little more or less than 2^40. -/
theorem rate_period {r : BitVec 32} (hlo : -549755814 ≤ r.toInt) (hhi : r.toInt ≤ 549755814) :
    ∃ per : Nat, (2 ^ 40 + r.toInt) = (per : Int) ∧ (2 ^ 40 + r.toInt).toNat = per ∧ 1098961871962 ≤ per ∧ per ≤ 1100061383590 := by
  refine ⟨(2 ^ 40 + r.toInt).toNat, ?_, rfl, ?_, ?_⟩ <;> omega

/-- The least number of periods that reach a distance, and by how little they pass it. -/
theorem ceil_periods {per dist frac : Nat} (hper : 0 < per) (hfrac : frac < dist) :
    let b := (dist - frac + per - 1) / per
    0 < b ∧ dist ≤ frac + b * per ∧ frac + b * per < dist + per := by
  intro b
  have hdiv : per * b + (dist - frac + per - 1) % per = dist - frac + per - 1 := Nat.div_add_mod _ _
  have hmod := Nat.mod_lt (dist - frac + per - 1) hper
  rw [Nat.mul_comm b per]
  exact ⟨Nat.div_pos (by omega) hper, by omega, by omega⟩

/-- The seconds and nanoseconds of a time at or 1 ns past the next second boundary. -/
theorem next_second {t u : Nat} (hlo : 1000000000 * (t / 1000000000 + 1) ≤ u) (hhi : u ≤ 1000000000 * (t / 1000000000 + 1) + 1) :
    u / 1000000000 = t / 1000000000 + 1 ∧ u % 1000000000 ≤ 1 := by omega

section
variable {s : State} (hrun : s.halted = false) (hfrac : s.gnomon.frac < 2 ^ 40) (hlo : -549755814 ≤ (s.reg 0x01400020).toInt)
  (hhi : (s.reg 0x01400020).toInt ≤ 549755814)
include hrun hfrac hlo hhi

/-- Time that passes to the next second boundary gets there, and 1 ns past it at most. -/
theorem State.elapse_untilTick :
    0 < s.untilTick ∧ (s.elapse s.untilTick).gnomon.frac < 2 ^ 40 ∧
      1000000000 * (s.sec + 1) ≤ (s.elapse s.untilTick).gnomon.time ∧
      (s.elapse s.untilTick).gnomon.time ≤ 1000000000 * (s.sec + 1) + 1 := by
  obtain ⟨per, hint, hnat, hper_lo, hper_hi⟩ := rate_period hlo hhi
  have hlater : s.gnomon.time < 1000000000 * (s.sec + 1) ∧ 1000000000 * (s.sec + 1) ≤ s.gnomon.time + 1000000000 := by
    unfold State.sec
    omega
  obtain ⟨dist, hdist⟩ : ∃ dist, 1000000000 * (s.sec + 1) = s.gnomon.time + dist := Nat.exists_eq_add_of_le hlater.1.le
  have hb : s.untilTick = (2 ^ 40 * dist - s.gnomon.frac + per - 1) / per := by
    have hsub : 1000000000 * (s.sec + 1) - s.gnomon.time = dist := by omega
    rw [State.untilTick, State.until, if_neg (by omega)]
    dsimp only
    rw [hnat, hsub]
  have hceil := ceil_periods (per := per) (dist := 2 ^ 40 * dist) (frac := s.gnomon.frac) (by omega) (by omega)
  rw [← hb] at hceil
  obtain ⟨hpos, hreach, hpast⟩ := hceil
  have hprod : (((s.untilTick : Int)) * (2 ^ 40 + (s.reg 0x01400020).toInt)).toNat = s.untilTick * per := by
    rw [hint]
    exact Int.toNat_natCast _
  rw [State.elapse_of_run hrun]
  dsimp only
  rw [hprod]
  refine ⟨hpos, Nat.mod_lt _ (by decide), ?_, ?_⟩
  · have := (Nat.le_div_iff_mul_le (Nat.two_pow_pos 40)).mpr (show dist * 2 ^ 40 ≤ s.gnomon.frac + s.untilTick * per by omega)
    omega
  · have := Nat.div_lt_of_lt_mul (show s.gnomon.frac + s.untilTick * per < 2 ^ 40 * (dist + 2) by omega)
    omega

end

theorem State.elapse_zero {s : State} (h : s.gnomon.frac < 2 ^ 40) : s.elapse 0 = s := by
  unfold State.elapse
  split
  · rfl
  · simp only [Nat.cast_zero, zero_mul, Int.toNat_zero, Nat.add_zero, Nat.mod_eq_of_lt h, Nat.div_eq_of_lt h]

/-- A tick changes the at-most-once limits, Gnomon and the performance copies of Facet. -/
theorem State.tick_frame (s : State) (b : Bool) : s.tick b = { s with
    once := [], gnomon := (s.tick b).gnomon, facet := (s.tick b).facet } := by
  unfold State.tick State.ppsPulse
  dsimp only
  split <;> rfl

/-- A tick notes its second and its kind, and neither the time nor its fraction moves. -/
theorem State.tick_gnomon (s : State) (b : Bool) : (s.tick b).gnomon.time = s.gnomon.time ∧ (s.tick b).gnomon.frac = s.gnomon.frac ∧
    (s.tick b).gnomon.tickSec = s.sec ∧ (s.tick b).gnomon.tickStepped = b := by
  unfold State.tick State.ppsPulse
  dsimp only
  split <;> exact ⟨rfl, rfl, rfl, rfl⟩

theorem State.passGo_zero {s : State} (h : 0 < s.untilTick) (k : Nat) : State.passGo k 0 s = s.flow 0 := by
  cases k with
  | zero => rfl
  | succ k => exact if_pos h

theorem State.pass_untilTick (s : State) : s.pass s.untilTick = State.passGo (s.untilTick / 999000000) 0 ((s.flow s.untilTick).tick false) := by
  unfold State.pass
  rw [State.passGo, if_neg (lt_irrefl _), Nat.sub_self]

section
variable {s : State} (hrun : s.halted = false) (hfrac : s.gnomon.frac < 2 ^ 40) (hlo : -549755814 ≤ (s.reg 0x01400020).toInt)
  (hhi : (s.reg 0x01400020).toInt ≤ 549755814)
include hrun hfrac hlo hhi

/-- SECOND_TICK passes to the next boundary and sends its tick; no time of the next second passes (R386). -/
theorem exec_secondTick : ∃ t, exec .secondTick s = .next t ∧ t.sec = s.sec + 1 ∧ t.gnomon.time % 1000000000 ≤ 1 ∧ t.gnomon.tickSec = s.sec + 1 ∧
    t.gnomon.tickStepped = false ∧ t.once = [] ∧ s.clk < t.clk ∧ t.hull = s.hull ∧ t.mem = s.mem ∧ t.regs = s.regs := by
  obtain ⟨hpos, hfrac', htime_lo, htime_hi⟩ := State.elapse_untilTick hrun hfrac hlo hhi
  have helapse := State.elapse_of_run hrun s.untilTick
  have hflow := s.flow_raises s.untilTick
  have hgnomon : (s.flow s.untilTick).gnomon = (s.elapse s.untilTick).gnomon := by rw [hflow.frame]
  generalize hw : (s.flow s.untilTick).tick false = w
  have hframe := (s.flow s.untilTick).tick_frame false
  obtain ⟨htime, hwfrac, hsec, hstepped⟩ := (s.flow s.untilTick).tick_gnomon false
  rw [hw] at hframe htime hwfrac hsec hstepped
  rw [hgnomon] at htime hwfrac
  have hregs : w.regs = s.regs := by rw [hframe, hflow.frame, helapse]
  have hcpr : w.cpr = s.cpr := by rw [hframe, hflow.frame, helapse]
  have hapex : w.apex = s.apex := by rw [hframe, hflow.frame, helapse]
  have hclk : w.clk = s.clk + s.untilTick := by rw [hframe, hflow.frame, helapse]
  have hwrun : w.halted = false := by rw [State.halted, hcpr, hapex]; exact hrun
  have hreg : w.reg 0x01400020 = s.reg 0x01400020 := congrArg (fun r => tget (regReset 0x01400020) r 0x01400020) hregs
  have hwpos := (State.elapse_untilTick hwrun (by rw [hwfrac]; exact hfrac') (by rw [hreg]; exact hlo) (by rw [hreg]; exact hhi)).1
  have hstay := State.elapse_zero (s := w) (by rw [hwfrac]; exact hfrac')
  have hlast := w.flow_raises 0
  rw [hstay] at hlast
  have hglast : (w.flow 0).gnomon = w.gnomon := by rw [hlast.frame]
  have hnext := next_second htime_lo htime_hi
  refine ⟨w.flow 0, ?_, ?_, ?_, ?_, ?_, ?_, ?_, ?_, ?_, ?_⟩
  · show execSecondTick s = _
    rw [execSecondTick, if_neg (by rw [hrun]; decide), State.pass_untilTick, hw, State.passGo_zero hwpos]
  · rw [State.sec, hglast, htime]
    exact hnext.1
  · rw [hglast, htime]
    exact hnext.2
  · rw [hglast, hsec, State.sec, hgnomon]
    exact hnext.1
  · rw [hglast, hstepped]
  · rw [State.flow_once (by rw [hstay]), hframe]
  · rw [hlast.frame]
    show s.clk < w.clk
    omega
  · rw [hlast.frame, hframe, hflow.frame, helapse]
  · rw [hlast.frame, hframe, hflow.frame, helapse]
  · rw [hlast.frame]
    exact hregs

end

/-! Writes of GNOMON_CTRL and GNOMON_RATE (R382, R384, R387). -/

/-- HOLD_MS as a GNOMON_CTRL write stores it: never 0. -/
def holdMs (v : Nat) : Nat := if bits v 0 16 = 0 then 1 else bits v 0 16

theorem holdMs_lt (v : Nat) : holdMs v < 2 ^ 16 := by
  have h : bits v 0 16 < 2 ^ 16 := Nat.mod_lt _ (by decide)
  unfold holdMs
  split <;> omega

/-- The field HOLD_MS of the register after a write with LOCK 1. -/
theorem State.servoUpdate_of_lock (s : State) (v : Nat) :
    ((s.setReg 0x0140001C (BitVec.ofNat 32 (2 ^ 29 * b2n true + holdMs v))).servoUpdate).gnomon.servoDue = some (s.clk + 1000000 * holdMs v) := by
  have hlt := holdMs_lt v
  have hreg : bits ((s.setReg 0x0140001C (BitVec.ofNat 32 (2 ^ 29 * b2n true + holdMs v))).regN 0x0140001C) 0 16 = holdMs v := by
    rw [State.regN, State.reg, State.setReg, tget_tput_self, BitVec.toNat_ofNat]
    simp only [bits, b2n, Nat.shiftRight_zero]
    omega
  show some (s.clk + 1000000 * bits _ 0 16) = _
  rw [hreg]

theorem State.gnomonCtrl_of_unlock {s : State} {v : Nat} (hlock : bitOf v 29 = false) :
    s.gnomonCtrl v =
      let u := (s.setOrStep v).setReg 0x0140001C (BitVec.ofNat 32 (holdMs v))
      if u.gnomon.mode = .locked then u.setGnomonMode .holdover else u := by
  simp only [State.gnomonCtrl, hlock, b2n, Bool.false_eq_true, if_false, Nat.mul_zero, Nat.zero_add]
  rfl

theorem State.gnomonCtrl_of_lock {s : State} {v : Nat} (hlock : bitOf v 29 = true) :
    s.gnomonCtrl v =
      let u := ((s.setOrStep v).setReg 0x0140001C (BitVec.ofNat 32 (2 ^ 29 * b2n true + holdMs v))).servoUpdate
      if u.gnomon.mode = .holdover ∧ ¬ u.gnomon.pllLocked then u else u.setGnomonMode .locked := by
  simp only [State.gnomonCtrl, hlock, if_true]
  rfl

theorem State.setOrStep_of_both {s : State} {v : Nat} (hset : bitOf v 31 = true) (hstep : bitOf v 30 = true) :
    s.setOrStep v = { s with gnomon := { s.gnomon with loadErr := true } } := by
  rw [State.setOrStep, if_pos ⟨hset, hstep⟩]
  rfl

theorem State.setOrStep_of_set {s : State} {v : Nat} (hset : bitOf v 31 = true) (hstep : bitOf v 30 = false)
    (hns : s.regN 0x01400010 ≤ 999999999) :
    s.setOrStep v = (s.within 50).jumpTo (1000000000 * (s.regN 0x01400014 + 2 ^ 32 * bits (s.regN 0x01400018) 0 16) + s.regN 0x01400010) 0 := by
  rw [State.setOrStep, if_neg (by simp [hstep]), if_pos hset]
  dsimp only
  rw [if_neg (by omega)]

theorem State.setOrStep_of_step {s : State} {v : Nat} (hset : bitOf v 31 = false) (hstep : bitOf v 30 = true)
    (htime : 0 ≤ (s.gnomon.time : Int) + (s.reg 0x01400010).toInt) :
    s.setOrStep v = (s.servoUpdate.within 50).jumpTo
      ((((s.servoUpdate.within 50).gnomon.time : Int) + (s.reg 0x01400010).toInt).toNat % (2 ^ 48 * 1000000000))
      (s.servoUpdate.within 50).gnomon.frac := by
  rw [State.setOrStep, if_neg (by simp [hset]), if_neg (by simp [hset]), if_pos hstep]
  dsimp only
  rw [if_neg (by omega)]

theorem State.setOrStep_of_neither {s : State} {v : Nat} (hset : bitOf v 31 = false) (hstep : bitOf v 30 = false) : s.setOrStep v = s := by
  rw [State.setOrStep, if_neg (by simp [hset]), if_neg (by simp [hset]), if_neg (by simp [hstep])]

theorem State.setGnomonMode_of_ne {s : State} {m : GnomonMode} (h : m ≠ s.gnomon.mode) : s.setGnomonMode m =
    ({ s with gnomon := { s.gnomon with mode := m, holdSince := s.clk } }).raise 0x0E0
      [BitVec.ofNat 8 (gnomonCode s.gnomon.mode), BitVec.ofNat 8 (gnomonCode m)] := by
  rw [State.setGnomonMode, if_neg h]
  rfl

/-- LOCK 1 in FREERUN: Gnomon enters LOCKED with event 0x0E0. -/
theorem State.gnomonCtrl_locks {s : State} {v : Nat} (hset : bitOf v 31 = false) (hstep : bitOf v 30 = false) (hlock : bitOf v 29 = true)
    (hmode : s.gnomon.mode = .freerun) :
    s.gnomonCtrl v =
      let u := (s.setReg 0x0140001C (BitVec.ofNat 32 (2 ^ 29 * b2n true + holdMs v))).servoUpdate
      State.raise { u with gnomon := { u.gnomon with mode := .locked, holdSince := s.clk } } 0x0E0 [0, 1] := by
  have hu : ((s.setReg 0x0140001C (BitVec.ofNat 32 (2 ^ 29 * b2n true + holdMs v))).servoUpdate).gnomon.mode = .freerun := hmode
  rw [State.gnomonCtrl_of_lock hlock, State.setOrStep_of_neither hset hstep]
  dsimp only
  rw [if_neg (fun h => by rw [hu] at h; cases h.1), State.setGnomonMode_of_ne (by rw [hu]; decide), hu]
  rfl

/-- LOCK 0 in LOCKED: Gnomon enters HOLDOVER with event 0x0E0. -/
theorem State.gnomonCtrl_unlocks {s : State} {v : Nat} (hset : bitOf v 31 = false) (hstep : bitOf v 30 = false) (hlock : bitOf v 29 = false)
    (hmode : s.gnomon.mode = .locked) :
    s.gnomonCtrl v =
      let u := s.setReg 0x0140001C (BitVec.ofNat 32 (holdMs v))
      State.raise { u with gnomon := { u.gnomon with mode := .holdover, holdSince := s.clk } } 0x0E0 [1, 2] := by
  have hu : (s.setReg 0x0140001C (BitVec.ofNat 32 (holdMs v))).gnomon.mode = .locked := hmode
  rw [State.gnomonCtrl_of_unlock hlock, State.setOrStep_of_neither hset hstep]
  dsimp only
  rw [if_pos hu, State.setGnomonMode_of_ne (by rw [hu]; decide), hu]
  rfl

theorem clampRate_of_within {v : Word32} (hlo : -549755814 ≤ v.toInt) (hhi : v.toInt ≤ 549755814) : clampRate v = v := by
  rw [clampRate, if_neg (by omega), if_neg (by omega)]

theorem clampRate_of_above {v : Word32} (h : 549755814 < v.toInt) : clampRate v = BitVec.ofInt 32 549755814 ∧ clampRate v ≠ v := by
  have hclamp : clampRate v = BitVec.ofInt 32 549755814 := by rw [clampRate, if_pos h]
  refine ⟨hclamp, fun heq => ?_⟩
  have hv : v.toInt = 549755814 := by
    rw [← heq, hclamp]
    decide
  omega

/-- Settles O11: the writes of GNOMON_CTRL by their equations above, and SECOND_TICK by `exec_secondTick`. -/
theorem gnomonTimeIsSetAndTicks : Obligations.GnomonTimeIsSetAndTicks := by
  unfold Obligations.GnomonTimeIsSetAndTicks
  refine ⟨fun s v hrun => ?_, fun s hrun hfrac hlo hhi => exec_secondTick hrun hfrac hlo hhi⟩
  have hctrl : execGnomonSet v s = .next (s.gnomonCtrl v.toNat) := by rw [execGnomonSet, if_neg (by rw [hrun]; decide)]
  have hrate : exec (.rateWrite v) s = .next (s.rateWrite v) := by
    show execRateWrite v s = _
    rw [execRateWrite, if_neg (by rw [hrun]; decide)]
  refine ⟨fun hset hstep hlock hmode => ?_, fun hset hstep hlock hns => ?_, fun hset hstep hlock htime => ?_, fun T frac u hu => ?_,
    fun hset hstep hlock hmode => ?_, fun hset hstep hlock hmode => ?_, fun hlo hhi => ?_, fun habove => ?_, fun u n _ => ?_⟩
  · refine hctrl.trans ?_
    rw [State.gnomonCtrl_of_unlock hlock, State.setOrStep_of_both hset hstep]
    exact congrArg Host.Outcome.next (if_neg hmode)
  · refine hctrl.trans ?_
    rw [State.gnomonCtrl_of_unlock hlock, State.setOrStep_of_set hset hstep hns]
    rfl
  · refine hctrl.trans ?_
    rw [State.gnomonCtrl_of_unlock hlock, State.setOrStep_of_step hset hstep htime]
    rfl
  · rw [hu]
    rfl
  · exact ⟨_, _, hctrl.trans (congrArg Host.Outcome.next (State.gnomonCtrl_locks hset hstep hlock hmode)), rfl, rfl, s.servoUpdate_of_lock v.toNat⟩
  · exact ⟨_, _, hctrl.trans (congrArg Host.Outcome.next (State.gnomonCtrl_unlocks hset hstep hlock hmode)), rfl, rfl, rfl⟩
  · rw [hrate, State.rateWrite, clampRate_of_within hlo hhi, if_pos rfl]
  · obtain ⟨hclamp, hne⟩ := clampRate_of_above habove
    rw [hrate, State.rateWrite, if_neg hne, hclamp]
  · exact ⟨_, Nat.le_of_lt_succ (Nat.mod_lt _ (Nat.succ_pos n)), rfl⟩

end Sys2Proof.Machine
end

section
namespace Sys2Proof.Machine

/-! The time-of-day message (Table 16.4): the statement O12 gives it 18 bytes, and the model's message has 16. -/

/-- The part after reset, with TX_EN set and the message of second 0 due now. -/
def State.todDemo : State :=
  { State.reset.setReg 0x01400034 0x80000000 with gnomon := { GnomonState.reset with todDue := some (0, 0) } }

theorem length_be (n v : Nat) : (be n v).length = n := by
  have hle : ∀ n v, (le n v).length = n := fun n => by
    induction n with
    | zero => exact fun _ => rfl
    | succ n ih => exact fun v => congrArg (· + 1) (ih _)
  rw [be, List.length_reverse, hle]

/-- Header, second, offset, two flag bytes and the CRC. -/
theorem State.length_todMessage (s : State) (sec : Nat) : (s.todMessage sec).length = 16 := by
  simp only [State.todMessage, List.length_append, length_be, List.length_cons, List.length_nil]

theorem State.todDemo_enabled : bitOf ((State.todDemo.passTo 0).regN 0x01400034) 31 = true := by decide +kernel

/-- The message that is due at t0, where u is the part at that time, starts on TOD_TXD (R393). -/
theorem exec_todMessageSend {s u : State} {sec t0 : Nat} (hdue : s.gnomon.todDue = some (sec, t0)) (hu : s.passTo t0 = u)
    (hon : bitOf (u.regN 0x01400034) 31 = true) :
    exec .todMessageSend s = .next
      (let v := u.withGnomon { u.gnomon with todDue := none }
       v.withGnomon { v.gnomon with todSent := v.todMessage sec }) := by
  show execTodMessageSend s = _
  unfold execTodMessageSend
  rw [hdue]
  dsimp only
  rw [hu]
  exact if_pos hon

/-- Refutes O12: the message that `todDemo` starts is 16 bytes long. -/
theorem not_gnomonPinsTimersAndStamps : ¬ Obligations.GnomonPinsTimersAndStamps := by
  unfold Obligations.GnomonPinsTimersAndStamps
  rintro ⟨-, h⟩
  obtain ⟨hsend, -⟩ := h State.todDemo
  obtain ⟨t, hexec, -, hlength, -⟩ := hsend 0 0 _ rfl rfl State.todDemo_enabled
  rw [exec_todMessageSend rfl rfl State.todDemo_enabled] at hexec
  cases hexec
  have hbytes : 16 = 18 := (State.length_todMessage _ 0).symm.trans hlength
  omega

end Sys2Proof.Machine
end

section
namespace Sys2Proof.Machine

/-! Rings: enabling and disabling (R465, R467, R476, R572). -/

theorem State.regN_setReg_ne (s : State) {off j : Nat} (h : j ≠ off) (v : BitVec 32) : (s.setReg off v).regN j = s.regN j :=
  congrArg BitVec.toNat (State.reg_setReg_ne s h v)

/-- The base of a ring stands in two registers of its own. -/
theorem State.ringBase_setReg (s : State) (k : RingKind) (r : Nat) {off : Nat} (h : ringOff k r + 8 ≤ off) (v : BitVec 32) :
    (s.setReg off v).ringBase k r = s.ringBase k r := by
  rw [State.ringBase, State.ringBase, s.regN_setReg_ne (by omega), s.regN_setReg_ne (by omega)]

section
variable {s : State} (hrun : s.halted = false) {k : RingKind} {r : Fin 64} (v : Word32)
include hrun

theorem exec_ringEnable : exec (.ringEnable k r v) s = .next (s.ringEnable k r.val v.toNat) := by
  show execRingEnable k r v s = _
  rw [execRingEnable, if_neg (by rw [hrun]; decide)]

theorem exec_ringDisable : exec (.ringDisable k r v) s = .next (s.ringDisable k r.val v.toNat) := by
  show execRingDisable k r v s = _
  rw [execRingDisable, if_neg (by rw [hrun]; decide)]

theorem exec_ringCiWrite : exec (.ringCiWrite k r v) s = .next (s.ringCi k r.val v.toNat) := by
  show execRingCiWrite k r v s = _
  rw [execRingCiWrite, if_neg (by rw [hrun]; decide)]

theorem exec_doorbellWrite : exec (.doorbellWrite r v) s = .next (s.doorbell r.val v.toNat) := by
  show execDoorbellWrite r v s = _
  rw [execDoorbellWrite, if_neg (by rw [hrun]; decide)]

end

/-- The value that a write with ENABLE 1 stores in RING_CFG. -/
def enableCfg (v : Nat) : Nat := (v ||| 2 ^ 31) &&& ringCfgMask

theorem State.ringEnable_of_disabled {s : State} {k : RingKind} {r : Nat} (v : Nat) (hr : r < ringCount k) (hstate : (s.ring k r).state = .disabled) :
    s.ringEnable k r v =
      let u := s.setReg (ringOff k r + 8) (BitVec.ofNat 32 (enableCfg v))
      if u.ringConfigOk k r (enableCfg v) then u.startRing k r (enableCfg v)
      else (u.setRing k r { s.ring k r with cap := 0 }).ringError k r 0 := by
  rw [State.ringEnable]
  dsimp only
  rw [if_neg (Nat.not_le.mpr hr)]
  conv_lhs => rw [hstate]
  rfl

theorem State.ringEnable_of_draining {s : State} {k : RingKind} {r : Nat} (v : Nat) (hr : r < ringCount k) (hstate : (s.ring k r).state = .draining) :
    s.ringEnable k r v = s.raise 0x040 (ringErrData k r 0) := by
  rw [State.ringEnable]
  dsimp only
  rw [if_neg (Nat.not_le.mpr hr), hstate]

theorem State.ringEnable_of_enabled {s : State} {k : RingKind} {r : Nat} (v : Nat) (hr : r < ringCount k)
    (hstate : (s.ring k r).state = .running ∨ (s.ring k r).state = .error) :
    s.ringEnable k r v = s.setReg (ringOff k r + 8) (BitVec.ofNat 32 (enableCfg v)) := by
  rw [State.ringEnable]
  dsimp only
  rw [if_neg (Nat.not_le.mpr hr)]
  rcases hstate with hstate | hstate <;> rw [hstate] <;> rfl

theorem State.ringEnable_of_absent (s : State) {k : RingKind} {r : Nat} (v : Nat) (hr : ringCount k ≤ r) : s.ringEnable k r v = s := if_pos hr

/-- What a started ring holds. -/
theorem State.startRing_spec (s : State) (k : RingKind) (r cfg : Nat) :
    ((s.startRing k r cfg).ring k r).state = .running ∧ ((s.startRing k r cfg).ring k r).pi = 0 ∧ ((s.startRing k r cfg).ring k r).ci = 0 ∧
    ((s.startRing k r cfg).ring k r).phase = true ∧ ((s.startRing k r cfg).ring k r).lost = 0 ∧
    ((s.startRing k r cfg).ring k r).cap = 16 * 2 ^ bits cfg 24 4 ∧ ((s.startRing k r cfg).ring k r).base = BitVec.ofNat 40 (s.ringBase k r) ∧
    s.startRing k r cfg = { s with regs := (s.startRing k r cfg).regs, rings := (s.startRing k r cfg).rings } := by
  have hbase := s.ringBase_setReg k r (off := ringOff k r + 0x10) (by omega) 0
  have hring : (s.startRing k r cfg).ring k r = { Ring.reset with
      state := .running, base := BitVec.ofNat 40 (s.ringBase k r), cap := 16 * 2 ^ bits cfg 24 4
      cpl := BitVec.ofNat 8 (bits cfg 16 8), us := BitVec.ofNat 16 cfg, promisc := bitOf cfg 30, phase := true
      lostFlag := (s.ring k r).lostFlag, outs := (s.ring k r).outs } := by
    rw [State.startRing, State.ring_setRing, hbase]
  rw [hring]
  exact ⟨rfl, rfl, rfl, rfl, rfl, rfl, rfl, rfl⟩

/-- The value that a write with ENABLE 0 stores in RING_CFG. -/
def disableCfg (v : Nat) : Nat := v % 2 ^ 31 &&& ringCfgMask

/-- A disable that is not refused (R476): RING_CFG takes the write, and a ring that is not DISABLED stops, by its kind. -/
theorem State.ringDisable_of_free {s : State} {k : RingKind} {r : Nat} (v : Nat) (hr : r < ringCount k)
    (hfree : ¬ (k = .completion ∧ s.completionNamed r = true)) :
    s.ringDisable k r v =
      let w := s.setReg (ringOff k r + 8) (BitVec.ofNat 32 (disableCfg v))
      let x := s.ring k r
      if x.state = .disabled then w
      else match k with
        | .command => w.setRing k r { x with state := if x.outs.isEmpty then .disabled else .draining }
        | .event => (w.setRing k r { x with state := .disabled, unread := [], irq := false }).discardTaken r
        | _ => w.setRing k r { x with state := .disabled, unread := [], irq := false } := by
  rw [State.ringDisable]
  dsimp only
  rw [if_neg (Nat.not_le.mpr hr), if_neg hfree]
  cases k <;> rfl

theorem State.ringDisable_of_named {s : State} {r : Nat} (v : Nat) (hr : r < ringCount .completion) (hnamed : s.completionNamed r = true) :
    s.ringDisable .completion r v = s.raise 0x040 (ringErrData .completion r 0) := by
  rw [State.ringDisable]
  dsimp only
  rw [if_neg (Nat.not_le.mpr hr), if_pos ⟨rfl, hnamed⟩]

theorem State.ringDisable_of_absent (s : State) {k : RingKind} {r : Nat} (v : Nat) (hr : ringCount k ≤ r) : s.ringDisable k r v = s := if_pos hr

theorem exec_ringDrainEnd_of_drained {s : State} {r : Fin 64} (hstate : (s.ring .command r.val).state = .draining)
    (houts : (s.ring .command r.val).outs = []) :
    exec (.ringDrainEnd r) s = .next (s.setRing .command r.val { s.ring .command r.val with state := .disabled }) := by
  show execRingDrainEnd r s = _
  rw [execRingDrainEnd]
  exact if_pos ⟨hstate, by rw [houts]; rfl⟩

theorem exec_ringDrainEnd_of_busy {s : State} {r : Fin 64}
    (h : (s.ring .command r.val).outs ≠ [] ∨ (s.ring .command r.val).state ≠ .draining) : exec (.ringDrainEnd r) s = .next s := by
  show execRingDrainEnd r s = _
  rw [execRingDrainEnd]
  refine if_neg fun hdrained => ?_
  rcases h with h | h
  · exact h (List.isEmpty_iff.mp hdrained.2)
  · exact h hdrained.1

/-! Ring interrupts (R475). -/

theorem State.ringCi_of_none (s : State) {k : RingKind} {r : Nat} (v : Nat)
    (h : k = .command ∨ ringCount k ≤ r ∨ (k = .management ∧ r % 2 = 1)) : s.ringCi k r v = s :=
  if_pos (by rw [or_left_comm]; exact h)

/-- A ring after a RING_CI write. -/
def Ring.consume (x : Ring) (v now : Nat) : Ring :=
  let ci := BitVec.ofNat 17 v
  let y := { x with ci := ci, unread := x.unread.drop (x.unread.length - idxDiff x.pi ci) }
  { y with irq := y.wantsIrq now }

theorem State.ringCi_of_records (s : State) {k : RingKind} {r : Nat} (v : Nat)
    (h : ¬ (ringCount k ≤ r ∨ k = .command ∨ (k = .management ∧ r % 2 = 1))) :
    s.ringCi k r v = (s.setReg (ringOff k r + 0x10) (BitVec.ofNat 32 (v % 2 ^ 17))).setRing k r ((s.ring k r).consume v s.clk) := if_neg h

theorem exec_interruptDelayExpiry_of_waiting {s u : State} {k : RingKind} {r : Fin 64} {i t0 : Nat} {b : Bool} {l : List (Nat × Nat × Bool)}
    (hunread : (s.ring k r.val).unread = (i, t0, b) :: l) (hus : (s.ring k r.val).us ≠ 0) (hk : k ≠ .command)
    (hu : s.passTo (t0 + 1000 * (s.ring k r.val).us.toNat) = u) :
    exec (.interruptDelayExpiry k r) s = .next (u.setRing k r.val { u.ring k r.val with irq := (u.ring k r.val).wantsIrq u.clk }) := by
  show execInterruptDelayExpiry k r s = _
  rw [execInterruptDelayExpiry]
  dsimp only
  rw [hunread]
  dsimp only
  rw [hu, if_neg (by rintro (h | h); exacts [hus h, hk h])]

theorem exec_interruptDelayExpiry_of_none {s : State} {k : RingKind} {r : Fin 64}
    (h : (s.ring k r.val).unread = [] ∨ (s.ring k r.val).us = 0 ∨ k = .command) : exec (.interruptDelayExpiry k r) s = .next s := by
  show execInterruptDelayExpiry k r s = _
  rw [execInterruptDelayExpiry]
  dsimp only
  cases hunread : (s.ring k r.val).unread with
  | nil => rfl
  | cons e l => exact if_pos (h.resolve_left (by rw [hunread]; exact List.cons_ne_nil _ _))

theorem Ring.wantsIrq_of_waited {x : Ring} {i t0 now : Nat} {b : Bool} {l : List (Nat × Nat × Bool)} (hunread : x.unread = (i, t0, b) :: l)
    (hus : x.us ≠ 0) (hnow : t0 + 1000 * x.us.toNat ≤ now) : x.wantsIrq now = true := by
  have hne : (x.us.toNat != 0) = true := by
    rw [bne_iff_ne]
    exact fun h => hus (BitVec.eq_of_toNat_eq h)
  simp [Ring.wantsIrq, hunread, hne, hnow]

/-! Doorbells and fetches (R466, R467, R470). -/

theorem State.doorbell_of_running {s : State} {r : Nat} (v : Nat) (hstate : (s.ring .command r).state = .running) :
    s.doorbell r v = if (s.ring .command r).cap < idxDiff (BitVec.ofNat 17 v) (s.ring .command r).ci then s.ringError .command r 1
      else s.setRing .command r { s.ring .command r with pi := BitVec.ofNat 17 v } := if_neg (not_not.mpr hstate)

theorem exec_doorbellWrite_of_stopped {s : State} {r : Fin 64} (v : Word32) (hstate : (s.ring .command r.val).state ≠ .running) :
    exec (.doorbellWrite r v) s = .next s := by
  show execDoorbellWrite r v s = _
  rw [execDoorbellWrite, State.doorbell, if_pos hstate, ite_self]

/-- A ring whose descriptors all have rows: none is completed without one. -/
theorem State.finishRowless_of_none {s : State} {r : Nat} (h : ∀ o ∈ (s.ring .command r).outs, rowless o.desc = none) : s.finishRowless r = s := by
  have hnone : (s.ring .command r).outs.filter (fun o => !o.started && (rowless o.desc).isSome) = [] := by
    rw [List.filter_eq_nil_iff]
    intro o ho
    simp [h o ho]
  rw [State.finishRowless, hnone, List.foldl_nil]

theorem State.finishRowless_all_of_none {s : State} (h : ∀ j < 64, ∀ o ∈ (s.ring .command j).outs, rowless o.desc = none) :
    (List.range 64).foldl State.finishRowless s = s := by
  have hfold : ∀ l : List Nat, (∀ j ∈ l, j < 64) → l.foldl State.finishRowless s = s := fun l => by
    induction l with
    | nil => exact fun _ => rfl
    | cons j l ih =>
      intro hl
      rw [List.foldl_cons, State.finishRowless_of_none (h j (hl j List.mem_cons_self))]
      exact ih fun i hi => hl i (List.mem_cons_of_mem j hi)
  exact hfold _ fun j hj => List.mem_range.mp hj

/-- The rings in the order in which Annulus looks at them. -/
def State.fetchOrder (s : State) : List (Fin 64) := (List.range 64).map fun i => s.rings.fetchNext + Fin.ofNat 64 i

theorem exec_commandFetch_of_some {s : State} {r : Fin 64} (h : ∀ j < 64, ∀ o ∈ (s.ring .command j).outs, rowless o.desc = none)
    (hfind : s.fetchOrder.find? (fun r => s.fetchable r.val) = some r) :
    exec .commandFetch s = .next ((State.fetchGo r
      (min 4 (min (idxDiff (s.ring .command r.val).pi (s.ring .command r.val).ci) (64 - (s.ring .command r.val).outs.length)))
      { s with rings := { s.rings with fetchNext := r + 1 } }).finishRowless r.val) := by
  unfold State.fetchOrder at hfind
  show execCommandFetch s = _
  unfold execCommandFetch
  rw [State.finishRowless_all_of_none h]
  dsimp only
  rw [hfind]

theorem exec_commandFetch_of_none {s : State} (h : ∀ j < 64, ∀ o ∈ (s.ring .command j).outs, rowless o.desc = none)
    (hfind : s.fetchOrder.find? (fun r => s.fetchable r.val) = none) : exec .commandFetch s = .next s := by
  unfold State.fetchOrder at hfind
  show execCommandFetch s = _
  unfold execCommandFetch
  rw [State.finishRowless_all_of_none h]
  dsimp only
  rw [hfind]

theorem State.fetchOrder_eq_cons (s : State) : ∃ l, s.fetchOrder = s.rings.fetchNext :: l := by
  have hrange : List.range 64 = 0 :: (List.range 63).map Nat.succ := List.range_succ_eq_map
  rw [State.fetchOrder, hrange, List.map_cons, show Fin.ofNat 64 0 = 0 from rfl, add_zero]
  exact ⟨_, rfl⟩

theorem State.fetchGo_succ_of_data {s : State} {r : Fin 64} {n : Nat} {bs : List Byte}
    (h : (s.readMem .annulus (ringOwner r.val) ((s.ring .command r.val).slotAddr (s.ring .command r.val).ci.toNat 64) 64).1 = .data bs) :
    State.fetchGo r (n + 1) s = State.fetchGo r n
      ((s.readMem .annulus (ringOwner r.val) ((s.ring .command r.val).slotAddr (s.ring .command r.val).ci.toNat 64) 64).2.setRing .command r.val
        { s.ring .command r.val with
          ci := (s.ring .command r.val).ci + 1
          outs := (s.ring .command r.val).outs ++ [{ desc := descOf r bs, started := false }] }) := by
  rw [State.fetchGo]
  generalize s.readMem .annulus (ringOwner r.val) _ 64 = q at h ⊢
  obtain ⟨_, u⟩ := q
  cases h
  rfl

theorem State.fetchGo_succ_of_refused {s : State} {r : Fin 64} {n : Nat}
    (h : (s.readMem .annulus (ringOwner r.val) ((s.ring .command r.val).slotAddr (s.ring .command r.val).ci.toNat 64) 64).1 = .refused) :
    State.fetchGo r (n + 1) s = State.ringError
      (s.readMem .annulus (ringOwner r.val) ((s.ring .command r.val).slotAddr (s.ring .command r.val).ci.toNat 64) 64).2 .command r.val 2 := by
  rw [State.fetchGo]
  generalize s.readMem .annulus (ringOwner r.val) _ 64 = q at h ⊢
  obtain ⟨_, u⟩ := q
  cases h
  rfl

theorem State.fetchGo_succ_of_failed {s : State} {r : Fin 64} {n : Nat}
    (h : (s.readMem .annulus (ringOwner r.val) ((s.ring .command r.val).slotAddr (s.ring .command r.val).ci.toNat 64) 64).1 = .failed) :
    State.fetchGo r (n + 1) s = State.ringError
      (s.readMem .annulus (ringOwner r.val) ((s.ring .command r.val).slotAddr (s.ring .command r.val).ci.toNat 64) 64).2 .command r.val 3 := by
  rw [State.fetchGo]
  generalize s.readMem .annulus (ringOwner r.val) _ 64 = q at h ⊢
  obtain ⟨_, u⟩ := q
  cases h
  rfl

/-- Settles O13: enabling and disabling, interrupts, then doorbells and fetches, by the equations above. -/
theorem ringsAreEnabledFedAndInterrupt : Obligations.RingsAreEnabledFedAndInterrupt := by
  unfold Obligations.RingsAreEnabledFedAndInterrupt
  refine ⟨fun s k r v hrun => ?_, fun s k r => ?_, fun s r => ?_⟩
  · have hnotnamed : ∀ k' : RingKind, k' ≠ .completion → ¬ (k' = .completion ∧ s.completionNamed r.val = true) := fun _ h h' => h h'.1
    dsimp only
    rw [exec_ringEnable hrun, exec_ringDisable hrun]
    refine ⟨fun hr hstate hok => ?_, fun hr hstate hbad => ?_, fun hr hstate => ?_, fun hr hstate => ?_, ?_, ?_, ?_, ?_, ?_, fun hr => ?_,
      exec_ringDrainEnd_of_drained, exec_ringDrainEnd_of_busy⟩
    · obtain ⟨hrunning, hpi, hci, hphase, hlost, hcap, hbase, hframe⟩ :=
        (s.setReg (ringOff k r.val + 8) (BitVec.ofNat 32 (enableCfg v.toNat))).startRing_spec k r.val (enableCfg v.toNat)
      refine ⟨_, ?_, hrunning, hpi, hci, hphase, hlost, hcap, ?_, hframe⟩
      · rw [State.ringEnable_of_disabled v.toNat hr hstate]
        exact congrArg Host.Outcome.next (if_pos hok)
      · rw [hbase, s.ringBase_setReg k r.val le_rfl]
    · rw [State.ringEnable_of_disabled v.toNat hr hstate]
      exact congrArg Host.Outcome.next (if_neg (Bool.eq_false_iff.mp hbad))
    · rw [State.ringEnable_of_draining v.toNat hr hstate]
    · rw [State.ringEnable_of_enabled v.toNat hr hstate]
      rfl
    · rintro rfl hstate
      rw [State.ringDisable_of_free v.toNat r.isLt (hnotnamed _ (by decide))]
      dsimp only
      rw [if_neg hstate]
      simp only [List.isEmpty_iff]
      rfl
    · rintro (⟨rfl, hr⟩ | ⟨rfl, hfree⟩) hstate
      · rw [State.ringDisable_of_free v.toNat hr (hnotnamed _ (by decide))]
        exact congrArg Host.Outcome.next (if_neg hstate)
      · rw [State.ringDisable_of_free v.toNat r.isLt (by simp [hfree])]
        exact congrArg Host.Outcome.next (if_neg hstate)
    · rintro rfl hr hstate
      rw [State.ringDisable_of_free v.toNat hr (hnotnamed _ (by decide))]
      exact congrArg Host.Outcome.next (if_neg hstate)
    · rintro rfl hnamed
      rw [State.ringDisable_of_named v.toNat r.isLt hnamed]
    · intro hk hr hstate
      rw [State.ringDisable_of_free v.toNat hr (hnotnamed _ hk)]
      exact congrArg Host.Outcome.next (if_pos hstate)
    · rw [State.ringEnable_of_absent s v.toNat hr, State.ringDisable_of_absent s v.toNat hr]
      exact ⟨rfl, rfl⟩
  · refine ⟨fun v hrun hk => ?_, fun v hk => ?_, fun i t0 b l hunread hus hk => exec_interruptDelayExpiry_of_waiting hunread hus hk rfl,
      exec_interruptDelayExpiry_of_none, fun x i t0 b l now hunread hus hnow => Ring.wantsIrq_of_waited hunread hus hnow⟩
    · refine ⟨(s.ring k r.val).consume v.toNat s.clk, ?_, rfl, rfl, rfl, rfl, rfl⟩
      rw [exec_ringCiWrite hrun, State.ringCi_of_records]
      rcases hk with rfl | ⟨rfl, hr⟩ | ⟨rfl, hr⟩ <;> simp [ringCount] <;> omega
    · show execRingCiWrite k r v s = _
      rw [execRingCiWrite, State.ringCi_of_none s v.toNat hk, ite_self]
  · refine ⟨fun v hrun hstate hroom => ?_, fun v hrun hstate hfull => ?_, fun v hstate => exec_doorbellWrite_of_stopped v hstate,
      fun hrows hnext hfetch => ?_, fun n => ⟨fun bs h => State.fetchGo_succ_of_data h, State.fetchGo_succ_of_refused,
        State.fetchGo_succ_of_failed⟩, rfl, State.finishRowless_of_none, fun hrows hnone => ?_⟩
    · rw [exec_doorbellWrite hrun, State.doorbell_of_running v.toNat hstate, if_neg (Nat.not_lt.mpr hroom)]
    · rw [exec_doorbellWrite hrun, State.doorbell_of_running v.toNat hstate, if_pos hfull]
    · refine exec_commandFetch_of_some hrows ?_
      obtain ⟨l, hl⟩ := s.fetchOrder_eq_cons
      rw [hl, hnext]
      exact List.find?_cons_of_pos (p := fun r : Fin 64 => s.fetchable r.val) hfetch
    · refine exec_commandFetch_of_none hrows (List.find?_eq_none.mpr fun j _ => ?_)
      rw [hnone j.val j.isLt]
      decide

end Sys2Proof.Machine
end

section
namespace Sys2Proof
open Sys2Proof.Machine

/-! What a descriptor says to rows of more than one form, and to FRAME_SEND. -/

/-- The guard of a row whose OP or FORM value is `mine`, or past the last one. -/
def Desc.formIs (d : Desc) (mine last : Nat) : Bool := d.get 8 1 == mine || last < d.get 8 1

theorem Desc.formIs_iff (d : Desc) (mine last : Nat) : d.formIs mine last = true ↔ ¬ (d.get 8 1 ≠ mine ∧ d.get 8 1 ≤ last) := by
  simp only [Desc.formIs, Bool.or_eq_true, beq_iff_eq, decide_eq_true_eq]
  omega

/-- The fields of Table 20.8 are in range, and those of a message among them. -/
def Desc.sendFieldsOk (d : Desc) : Prop :=
  ¬ (4 ≤ d.get 0x13 1 ∨ 4096 ≤ d.get 0x14 2 ∨ 2 ^ 17 ≤ d.get 0x18 4 ∨ (bitOf (d.get 0x12 1) 7 ∧ bits (d.get 0x12 1) 4 3 ≠ 0))

/-- A frame of the command, at its egress logical port (Table 20.8). -/
def Desc.sentFrame (d : Desc) (bs : List Byte) : TFrame :=
  { id := 0, bytes := bs, fcs := none, keep := 0, cells := [], pool := 0, charge := 160 + d.ring.val, refs := [], lp := d.get 0x12 1 % 128
    stamp := 0, unctl := decide (64 ≤ d.get 0x12 1 % 128) && bitOf (d.get 0x13 1) 0, sa := none, cut := false }

/-- Its offer to Sector. -/
def Desc.sentOffer (d : Desc) : Offer :=
  { side := d.get 0x12 1 % 128 / 64, queue := d.get 0x14 2 % 4096, lp := d.get 0x12 1 % 128 % 64, yellow := false, fromLine := false
    sc := if decide (64 ≤ d.get 0x12 1 % 128) && !(decide (64 ≤ d.get 0x12 1 % 128) && bitOf (d.get 0x13 1) 0) then some (d.get 0x18 4 % 2 ^ 17) else none
    unctl := decide (64 ≤ d.get 0x12 1 % 128) && bitOf (d.get 0x13 1) 0
    tsId := if bitOf (d.get 0x13 1) 1 then some (d.get 0x16 2) else none }

end Sys2Proof

namespace Sys2Proof.Machine

/-! The header checks of ring commands (R469, R472, R474, R487, R491), row by row: each row is `ringCommand` behind a guard of its own. -/

/-- The body of such a row: a value past the last is refused. -/
def formBody (d : Desc) (last : Nat) (body : State → State) (s : State) : State :=
  if last < d.get 8 1 then s.done d .badRequest else body s

theorem formRow_eq (d : Desc) (mine last m : Nat) (f : List (Nat × Nat)) (body : State → State) (s : State) :
    formRow d mine last m f body s = if d.formIs mine last then ringCommand d m ((8, 1) :: f) (formBody d last body) s else s := by
  rw [formRow]
  by_cases hother : d.get 8 1 ≠ mine ∧ d.get 8 1 ≤ last
  · rw [if_pos hother, if_neg (by rw [d.formIs_iff]; exact not_not.mpr hother)]
  · rw [if_neg hother, if_pos ((d.formIs_iff mine last).mpr hother)]
    rfl

/-- SENSOR_WRITE on a sensor record waits while its record is busy or, inserting, while all that could move are. -/
def State.sensorWaits (s : State) (d : Desc) (op : Nat) : Bool := s.recordBusy d || (op == 0 && d.get 8 1 == 0 && s.insertWaits d)

theorem writeRow_sensor_eq (d : Desc) (op : Nat) (body : State → State) (s : State) :
    writeRow d op false body s =
      if d.formIs op 3 && !bitOf d.flags 0 && !s.sensorWaits d op then ringCommand d 3 [(8, 1), (0x10, 8)] (formBody d 3 body) s else s := by
  rw [writeRow, formRow_eq]
  cases hstart : s.mayStart d with
  | false =>
    rw [ringCommand_waits hstart]
    simp only [ite_self]
  | true => cases hgw : bitOf d.flags 0 <;> cases hwait : s.sensorWaits d op <;> rw [State.sensorWaits] at hwait <;> simp [hwait]

theorem writeRow_gateway_eq (d : Desc) (op : Nat) (body : State → State) (s : State) :
    writeRow d op true body s =
      if d.formIs op 3 && bitOf d.flags 0 then ringCommand d 3 [(8, 1), (0x10, 8)] (formBody d 3 body) s else s := by
  rw [writeRow, formRow_eq]
  cases hgw : bitOf d.flags 0 <;> simp

/-- Row c is the ring command d with the flag bits m and the fields f where `mine` holds; it leaves any other descriptor to the row that is its
own, or the command waits. -/
def Guarded (d : Desc) (s : State) (c : Instr) (m : Nat) (f : List (Nat × Nat)) (mine anyVer : Bool) : Prop :=
  ∃ body : State → State, exec c s = .next (if mine then ringCommand d m f body s anyVer else s)

theorem Guarded.of_eq {d : Desc} {s : State} {c : Instr} {m : Nat} {f : List (Nat × Nat)} {anyVer : Bool} {body : State → State}
    (h : exec c s = .next (ringCommand d m f body s anyVer)) : Guarded d s c m f true anyVer := ⟨body, h⟩

theorem Guarded.of_ite {d : Desc} {s : State} {c : Instr} {m : Nat} {f : List (Nat × Nat)} {p : Prop} [Decidable p] {mine : Bool}
    {body : State → State} (h : exec c s = .next (if p then s else ringCommand d m f body s)) (hp : mine = true ↔ ¬ p) :
    Guarded d s c m f mine false := by
  refine ⟨body, h.trans ?_⟩
  by_cases hc : p
  · rw [if_pos hc, if_neg (by rw [hp]; exact not_not.mpr hc)]
  · rw [if_neg hc, if_pos (hp.mpr hc)]

/-- A command on an association waits while another owner holds the lock of its handle. -/
theorem Guarded.of_lockedOut {d : Desc} {s : State} {c : Instr} {m : Nat} {f : List (Nat × Nat)} {body : State → State}
    (h : exec c s = if s.lockedOut d (saHandle d) then .next s else .next (ringCommand d m f body s)) :
    Guarded d s c m f (!s.lockedOut d (saHandle d)) false := by
  refine ⟨body, h.trans ?_⟩
  cases s.lockedOut d (saHandle d) <;> rfl

theorem Guarded.of_formRow {d : Desc} {s : State} {c : Instr} {mine last m : Nat} {f : List (Nat × Nat)} {body : State → State}
    (h : exec c s = .next (formRow d mine last m f body s)) : Guarded d s c m ((8, 1) :: f) (d.formIs mine last) false :=
  ⟨_, h.trans (congrArg Host.Outcome.next (formRow_eq d mine last m f body s))⟩

/-- A row of SERVICE: the ENABLE flag tells the two rows of its form apart. -/
theorem Guarded.of_service {d : Desc} {s : State} {c : Instr} {p mine : Bool} {body : State → State}
    (h : exec c s = if d.get 8 1 = 4 ∧ p = true then .next s else .next (formRow d 4 4 1 [] body s)) (hmine : mine = !p) :
    Guarded d s c 1 [(8, 1)] (d.formIs 4 4 && (d.get 8 1 != 4 || mine)) false := by
  refine ⟨formBody d 4 body, h.trans ?_⟩
  rw [formRow_eq, hmine]
  by_cases hform : d.get 8 1 = 4
  · cases p <;> simp [hform]
  · simp [hform]

theorem Guarded.of_sensorInsert {d : Desc} {s : State} {c : Instr} {body : State → State}
    (h : exec c s = .next (writeRow d 0 false body s)) :
    Guarded d s c 3 [(8, 1), (0x10, 8)]
      (d.formIs 0 3 && !bitOf d.flags 0 && !s.recordBusy d && !(d.get 8 1 == 0 && s.insertWaits d)) false := by
  refine ⟨formBody d 3 body, h.trans ?_⟩
  rw [writeRow_sensor_eq, State.sensorWaits, Bool.not_or, ← Bool.and_assoc]
  rfl

theorem Guarded.of_sensorRow {d : Desc} {s : State} {c : Instr} {op : Nat} {body : State → State}
    (h : exec c s = .next (writeRow d op false body s)) (hop : op ≠ 0) :
    Guarded d s c 3 [(8, 1), (0x10, 8)] (d.formIs op 3 && !bitOf d.flags 0 && !s.recordBusy d) false := by
  refine ⟨formBody d 3 body, h.trans ?_⟩
  rw [writeRow_sensor_eq, State.sensorWaits, beq_false_of_ne hop, Bool.false_and, Bool.false_and, Bool.or_false]

theorem Guarded.of_gatewayRow {d : Desc} {s : State} {c : Instr} {op : Nat} {body : State → State}
    (h : exec c s = .next (writeRow d op true body s)) :
    Guarded d s c 3 [(8, 1), (0x10, 8)] (d.formIs op 3 && bitOf d.flags 0) false :=
  ⟨_, h.trans (congrArg Host.Outcome.next (writeRow_gateway_eq d op body s))⟩

theorem Guarded.of_tblWrite {d : Desc} {s : State} {c : Instr} {op : Nat} (h : exec c s = .next (tblWrite op d s)) :
    Guarded d s c 0 [(8, 2), (0xC, 4), (0x10, 8)] (d.get 9 1 == op) false := Guarded.of_ite h (by rw [beq_iff_eq, not_not])

theorem ringCommand_stalls {d : Desc} {m : Nat} {f : List (Nat × Nat)} {s : State} (hstart : s.mayStart d = true) (hfull : s.reserve d = none)
    (body : State → State) (anyVer : Bool) : ringCommand d m f body s anyVer = s.stall d := by
  simp [ringCommand, hstart, hfull]

/-- What the header checks of a row answer: nothing while the command waits, a stall while its completion ring is full, and the status of the first
check that fails. -/
def RowAnswers (d : Desc) (s s0 : State) (c : Instr × Nat × List (Nat × Nat) × Bool) : Prop :=
  (c.2.2.2 = false ∨ s.mayStart d = false → exec c.1 s = .next s) ∧
  (c.2.2.2 = true → s.mayStart d = true →
    (s.reserve d = none → exec c.1 s = .next (s.stall d)) ∧
    (∀ st, s.reserve d = some s0 →
      let v := if c.1 = .setInterfaceVersion d ∧ (d.version = 1 ∨ d.version = 2) then d.version else s0.versionFor d
      headerStatus d v c.2.1 c.2.2.1 = some st → exec c.1 s = .next (s0.done d st)))

theorem Guarded.rowAnswers {d : Desc} {s : State} {c : Instr} {m : Nat} {f : List (Nat × Nat)} {mine anyVer : Bool}
    (h : Guarded d s c m f mine anyVer) (hany : anyVer = true ↔ c = .setInterfaceVersion d) (s0 : State) : RowAnswers d s s0 (c, m, f, mine) := by
  obtain ⟨body, hexec⟩ := h
  refine ⟨fun hwait => ?_, fun hmine hstart => ⟨fun hfull => ?_, fun st hreserve => ?_⟩⟩
  · rw [hexec]
    rcases hwait with hmine | hstart
    · rw [if_neg (Bool.eq_false_iff.mp hmine)]
    · simp [ringCommand, hstart]
  · rw [hexec, if_pos hmine, ringCommand_stalls hstart hfull]
  · intro v hheader
    rw [hexec, if_pos hmine]
    have hversion : (if anyVer = true ∧ (d.version = 1 ∨ d.version = 2) then d.version else s0.versionFor d) = v := by
      simp only [v, hany]
    simp only [ringCommand, hstart, hreserve, hversion, Bool.not_true, Bool.false_eq_true, if_false]
    exact congrArg Host.Outcome.next (by rw [show headerStatus d v m f = some st from hheader])

/-- Every row but SET_INTERFACE_VERSION checks the version in force. -/
theorem Guarded.rowAnswers_plain {d : Desc} {s : State} {c : Instr} {m : Nat} {f : List (Nat × Nat)} {mine : Bool}
    (h : Guarded d s c m f mine false) (s0 : State) (hc : c ≠ .setInterfaceVersion d) : RowAnswers d s s0 (c, m, f, mine) :=
  h.rowAnswers (iff_of_false Bool.false_ne_true hc) s0

theorem rowAnswers_of_eq {d : Desc} {s s0 : State} {c : Instr} {m : Nat} {f : List (Nat × Nat)} {body : State → State}
    (h : exec c s = .next (ringCommand d m f body s)) (hc : c ≠ .setInterfaceVersion d) : RowAnswers d s s0 (c, m, f, true) :=
  (Guarded.of_eq h).rowAnswers_plain s0 hc

theorem forall_mem_cons_of {α : Type} {p : α → Prop} {a : α} {l : List α} (h : p a) (hl : ∀ x ∈ l, p x) : ∀ x ∈ a :: l, p x :=
  List.forall_mem_cons.mpr ⟨h, hl⟩

/-! NOP, FENCE and SET_INTERFACE_VERSION (R469, R471, R511). -/

theorem exec_nop_accepted {d : Desc} {s s0 : State} (h : Accepted d 0 [] s s0) : exec (.nop (.command d)) s = .next (s0.done d .ok) := by
  show Host.Outcome.next (nopCommand d s) = _
  rw [nopCommand, ringCommand_accepts h]

theorem exec_fence_accepted {d : Desc} {s s0 : State} (h : Accepted d 0 [] s s0) : exec (.fence d) s = .next (s0.done d .ok) := by
  show execFence d s = _
  rw [execFence, ringCommand_accepts h]

/-- A fenced descriptor waits for the one before it. -/
theorem State.mayStart_of_fenced {s : State} {d : Desc} {o o' : Outstanding} {l : List Outstanding}
    (houts : (s.ring .command d.ring.val).outs = o :: o' :: l) (hfirst : o.desc ≠ d) (hsecond : o'.desc = d) (hnot : o'.started = false)
    (hfence : d.fenced = true) : s.mayStart d = false := by
  have hgo : mayStartGo d [] (o :: o' :: l) = false := by
    rw [mayStartGo, if_neg (fun h => hfirst h.1), mayStartGo, if_pos ⟨hsecond, hnot⟩, hfence]
    rfl
  rw [State.mayStart, houts, hgo, Bool.and_false]

theorem exec_setInterfaceVersion_accepted {d : Desc} {s s0 : State} (hstart : s.mayStart d = true) (hreserve : s.reserve d = some s0)
    (hversion : d.version = 1 ∨ d.version = 2) (hheader : headerStatus d d.version 0 [(8, 1)] = none) :
    exec (.setInterfaceVersion d) s = .next (ifaceBody d s0) := by
  show execSetInterfaceVersion d s = _
  rw [execSetInterfaceVersion]
  simp [ringCommand, hstart, hreserve, hversion, hheader]

theorem ifaceBody_of_badVersion {d : Desc} {s : State} (h1 : d.get 8 1 ≠ 1) (h2 : d.get 8 1 ≠ 2) : ifaceBody d s = s.done d .badRequest :=
  if_pos ⟨h1, h2⟩

/-- Whether another ring has descriptors outstanding. -/
theorem any_other_ring_iff (s : State) (r : Nat) :
    ((List.range 64).any fun j => j != r && !(s.ring .command j).outs.isEmpty) = true ↔ ∃ j, j < 64 ∧ j ≠ r ∧ (s.ring .command j).outs ≠ [] := by
  simp [List.any_eq_true, List.mem_range]

theorem ifaceBody_of_alone {d : Desc} {s : State} (hv : d.get 8 1 = 1 ∨ d.get 8 1 = 2)
    (halone : ∀ j, j < 64 → j ≠ d.ring.val → (s.ring .command j).outs = []) :
    ∃ older, ifaceBody d s = ({ s.done d .ok with rings := { (s.done d .ok).rings with version := BitVec.ofNat 4 (d.get 8 1), older := older } }).raise
      0x044 [BitVec.ofNat 8 (d.get 8 1)] := by
  have hnone : ¬ ((List.range 64).any fun j => j != d.ring.val && !(s.ring .command j).outs.isEmpty) = true := by
    rw [any_other_ring_iff]
    rintro ⟨j, hj, hne, houts⟩
    exact houts (halone j hj hne)
  exact ⟨_, (if_neg (by omega)).trans (if_neg hnone)⟩

theorem ifaceBody_of_others {d : Desc} {s : State} (hv : d.get 8 1 = 1 ∨ d.get 8 1 = 2)
    (hother : ∃ j, j < 64 ∧ j ≠ d.ring.val ∧ (s.ring .command j).outs ≠ []) : ifaceBody d s = s.done d .inUse := by
  exact (if_neg (by omega)).trans (if_pos ((any_other_ring_iff s _).mpr hother))

/-! Buffers of a command (R488). -/

theorem State.withBuf_of_data {s : State} {d : Desc} {m : Master} {a n : Nat} {bs : List Byte}
    (h : (s.readMem m (ringOwner d.ring.val) a n).1 = .data bs) (k : List Byte → State → State) :
    s.withBuf d m a n k = k bs (s.readMem m (ringOwner d.ring.val) a n).2 := by
  rw [State.withBuf, State.readBuf]
  generalize s.readMem m (ringOwner d.ring.val) a n = q at h ⊢
  obtain ⟨_, u⟩ := q
  cases h
  rfl

theorem State.withBuf_of_refused {s : State} {d : Desc} {m : Master} {a n : Nat}
    (h : (s.readMem m (ringOwner d.ring.val) a n).1 = .refused) (k : List Byte → State → State) :
    s.withBuf d m a n k = (s.readMem m (ringOwner d.ring.val) a n).2.done d .badRequest := by
  rw [State.withBuf, State.readBuf]
  generalize s.readMem m (ringOwner d.ring.val) a n = q at h ⊢
  obtain ⟨_, u⟩ := q
  cases h
  rfl

theorem State.withBuf_of_failed {s : State} {d : Desc} {m : Master} {a n : Nat}
    (h : (s.readMem m (ringOwner d.ring.val) a n).1 = .failed) (k : List Byte → State → State) :
    s.withBuf d m a n k = (s.readMem m (ringOwner d.ring.val) a n).2.done d .integrity := by
  rw [State.withBuf, State.readBuf]
  generalize s.readMem m (ringOwner d.ring.val) a n = q at h ⊢
  obtain ⟨_, u⟩ := q
  cases h
  rfl

theorem State.withBuf_of_unread {s : State} {d : Desc} {m : Master} {a n : Nat}
    (h : (s.readMem m (ringOwner d.ring.val) a n).1 = .refused ∨ (s.readMem m (ringOwner d.ring.val) a n).1 = .failed) (k : List Byte → State → State) :
    ∃ st, s.withBuf d m a n k = (s.readMem m (ringOwner d.ring.val) a n).2.done d st ∧ (st = .badRequest ∨ st = .integrity) := by
  rcases h with h | h
  · exact ⟨_, State.withBuf_of_refused h k, .inl rfl⟩
  · exact ⟨_, State.withBuf_of_failed h k, .inr rfl⟩

/-! FRAME_SEND and RESYNC (R477, R483 to R485). -/

theorem exec_frameSend_accepted {d : Desc} {s s0 : State} (h : Accepted d 0 [(8, 20)] s s0) : exec (.frameSend d) s = .next (frameSendBody d s0) := by
  show execFrameSend d s = _
  rw [execFrameSend, ringCommand_accepts h]

theorem frameSendBody_of_message {d : Desc} (s : State) (hok : d.sendFieldsOk) (hmsg : bitOf (d.get 0x12 1) 7 = true)
    (hlo : 1 ≤ d.get 0x10 2) (hhi : d.get 0x10 2 ≤ 2048) :
    frameSendBody d s = s.withBuf d .annulus (d.get 8 8) (d.get 0x10 2) fun bs s =>
      s.setFacet (d.get 0x12 1 % 16) { s.facetPort (d.get 0x12 1 % 16) with
        txMsgs := (s.facetPort (d.get 0x12 1 % 16)).txMsgs ++ [(bs, d)] } := by
  rw [frameSendBody]
  dsimp only
  rw [if_neg hok, if_pos hmsg, State.sendMessage]
  dsimp only
  rw [if_neg (by omega)]

theorem frameSendBody_of_frame {d : Desc} (s : State) (hok : d.sendFieldsOk) (hframe : bitOf (d.get 0x12 1) 7 = false)
    (hlo : 60 ≤ d.get 0x10 2) (hhi : d.get 0x10 2 ≤ 9212) :
    frameSendBody d s = s.withBuf d .annulus (d.get 8 8) (d.get 0x10 2) fun bs s =>
      match s.allocFrame (160 + d.ring.val) (d.sentFrame bs) with
      | (none, s) => (s.notSent (d.get 0x12 1 % 128 / 64) (d.get 0x12 1 % 128 % 64)
          (if bitOf (d.get 0x13 1) 1 then some (d.get 0x16 2) else none)).done d .noBuffer
      | (some id, s) =>
        (s.enter d.sentOffer id (some (160 + d.ring.val))).2.complete d
          { status := .ok, r0 := b2n (s.enter d.sentOffer id (some (160 + d.ring.val))).1 } := by
  rw [frameSendBody]
  rw [if_neg hok, if_neg (by rw [hframe]; decide), State.sendFrame]
  dsimp only
  rw [if_neg (by omega)]
  rfl

theorem frameSendBody_of_bad {d : Desc} (s : State) (h : 4 ≤ d.get 0x13 1 ∨ 4096 ≤ d.get 0x14 2 ∨ 2 ^ 17 ≤ d.get 0x18 4 ∨
      (bitOf (d.get 0x12 1) 7 = true ∧ (bits (d.get 0x12 1) 4 3 ≠ 0 ∨ d.get 0x10 2 = 0 ∨ 2048 < d.get 0x10 2)) ∨
      (bitOf (d.get 0x12 1) 7 = false ∧ (d.get 0x10 2 < 60 ∨ 9212 < d.get 0x10 2))) : frameSendBody d s = s.done d .badRequest := by
  by_cases hok : d.sendFieldsOk
  · rw [frameSendBody]
    rw [if_neg hok]
    rw [Desc.sendFieldsOk] at hok
    rcases h with h | h | h | ⟨hmsg, h⟩ | ⟨hframe, h⟩
    · exact absurd (.inl h) hok
    · exact absurd (.inr (.inl h)) hok
    · exact absurd (.inr (.inr (.inl h))) hok
    · rw [if_pos hmsg]
      exact if_pos (h.resolve_left fun hbits => hok (.inr (.inr (.inr ⟨hmsg, hbits⟩))))
    · rw [if_neg (by rw [hframe]; decide)]
      exact if_pos h
  · exact if_pos (not_not.mp hok)

theorem exec_resync_accepted {d : Desc} {s s0 : State} (h : Accepted d 0 [(0x10, 12)] s s0) : exec (.resync d) s = .next (resyncBody d s0) := by
  show execResync d s = _
  rw [execResync, ringCommand_accepts h]

/-- The part that a summary describes: with the next SUMMARY_GEN (R485). -/
def State.nextSummary (s : State) : State := { s with rings := { s.rings with summaryGen := s.rings.summaryGen + 1 } }

theorem resyncBody_of_short {d : Desc} {s : State} (h : d.get 0x18 4 < s.nextSummary.summary.length) :
    resyncBody d s = s.nextSummary.complete d { status := .bufferFull, r0 := s.nextSummary.summary.length } := if_pos h

theorem resyncBody_of_written {d : Desc} {s : State} (h : s.nextSummary.summary.length ≤ d.get 0x18 4)
    (hw : (s.nextSummary.writeMem .annulus (ringOwner d.ring.val) (d.get 0x10 8) s.nextSummary.summary).1 = true) :
    let w := s.nextSummary.writeMem .annulus (ringOwner d.ring.val) (d.get 0x10 8) s.nextSummary.summary
    resyncBody d s = (w.2.complete d { status := .ok, r0 := s.nextSummary.summary.length, r1 := w.2.rings.summaryGen.toNat }).raise 0x043
      (le 8 w.2.rings.summaryGen.toNat) := by
  refine (if_neg (Nat.not_lt.mpr h)).trans ?_
  show (match s.nextSummary.writeMem .annulus (ringOwner d.ring.val) (d.get 0x10 8) s.nextSummary.summary with
    | (false, s) => s.done d .badRequest
    | (true, u) => (u.complete d { status := .ok, r0 := s.nextSummary.summary.length, r1 := u.rings.summaryGen.toNat }).raise 0x043
        (le 8 u.rings.summaryGen.toNat)) = _
  generalize s.nextSummary.writeMem .annulus (ringOwner d.ring.val) (d.get 0x10 8) s.nextSummary.summary = w at hw ⊢
  obtain ⟨_, u⟩ := w
  cases hw
  rfl

theorem resyncBody_of_refused {d : Desc} {s : State} (h : s.nextSummary.summary.length ≤ d.get 0x18 4)
    (hw : (s.nextSummary.writeMem .annulus (ringOwner d.ring.val) (d.get 0x10 8) s.nextSummary.summary).1 = false) :
    resyncBody d s =
      (s.nextSummary.writeMem .annulus (ringOwner d.ring.val) (d.get 0x10 8) s.nextSummary.summary).2.done d .badRequest := by
  refine (if_neg (Nat.not_lt.mpr h)).trans ?_
  show (match s.nextSummary.writeMem .annulus (ringOwner d.ring.val) (d.get 0x10 8) s.nextSummary.summary with
    | (false, s) => s.done d .badRequest
    | (true, u) => (u.complete d { status := .ok, r0 := s.nextSummary.summary.length, r1 := u.rings.summaryGen.toNat }).raise 0x043
        (le 8 u.rings.summaryGen.toNat)) = _
  generalize s.nextSummary.writeMem .annulus (ringOwner d.ring.val) (d.get 0x10 8) s.nextSummary.summary = w at hw ⊢
  obtain ⟨_, u⟩ := w
  cases hw
  rfl

theorem Desc.sendFieldsOk_of {d : Desc} (hflags : d.get 0x13 1 < 4) (hqueue : d.get 0x14 2 < 4096) (hstream : d.get 0x18 4 < 2 ^ 17)
    (hbits : bitOf (d.get 0x12 1) 7 = true → bits (d.get 0x12 1) 4 3 = 0) : d.sendFieldsOk := by
  rintro (h | h | h | ⟨hmsg, h⟩)
  · omega
  · omega
  · omega
  · exact h (hbits hmsg)

/-- A frame whose buffer is read takes cells and enters its queue, or ends in NO_BUFFER. -/
theorem sentFrame_enters {d : Desc} {s : State} {bs : List Byte} (ts : Option Nat) :
    let al := s.allocFrame (160 + d.ring.val) (d.sentFrame bs)
    let out : State := match al with
      | (none, s) => (s.notSent (d.get 0x12 1 % 128 / 64) (d.get 0x12 1 % 128 % 64) ts).done d .noBuffer
      | (some id, s) =>
        (s.enter d.sentOffer id (some (160 + d.ring.val))).2.complete d
          { status := .ok, r0 := b2n (s.enter d.sentOffer id (some (160 + d.ring.val))).1 }
    (al.1 = none → out = (al.2.notSent (d.get 0x12 1 % 128 / 64) (d.get 0x12 1 % 128 % 64) ts).done d .noBuffer) ∧
    (∀ id, al.1 = some id →
      let en := al.2.enter d.sentOffer id (some (160 + d.ring.val))
      out = en.2.complete d { status := .ok, r0 := b2n en.1 }) := by
  intro al out
  obtain ⟨_ | id, u⟩ := al
  · exact ⟨fun _ => rfl, nofun⟩
  · refine ⟨nofun, ?_⟩
    rintro _ ⟨⟩
    rfl

/-- A buffer that cannot be read ends the command with its status. -/
theorem frameSendBody_of_unread {d : Desc} {s : State} (hok : d.sendFieldsOk)
    (hframe : bitOf (d.get 0x12 1) 7 = false → 60 ≤ d.get 0x10 2 ∧ d.get 0x10 2 ≤ 9212)
    (hmsg : bitOf (d.get 0x12 1) 7 = true → 1 ≤ d.get 0x10 2 ∧ d.get 0x10 2 ≤ 2048)
    (h : (s.readMem .annulus (ringOwner d.ring.val) (d.get 8 8) (d.get 0x10 2)).1 = .refused ∨
      (s.readMem .annulus (ringOwner d.ring.val) (d.get 8 8) (d.get 0x10 2)).1 = .failed) :
    ∃ st, frameSendBody d s = (s.readMem .annulus (ringOwner d.ring.val) (d.get 8 8) (d.get 0x10 2)).2.done d st ∧
      (st = .badRequest ∨ st = .integrity) := by
  cases hkind : bitOf (d.get 0x12 1) 7 with
  | false =>
    obtain ⟨hlo, hhi⟩ := hframe hkind
    rw [frameSendBody_of_frame s hok hkind hlo hhi]
    exact State.withBuf_of_unread h _
  | true =>
    obtain ⟨hlo, hhi⟩ := hmsg hkind
    rw [frameSendBody_of_message s hok hkind hlo hhi]
    exact State.withBuf_of_unread h _

/-- Settles O14: every row is `ringCommand` behind its own guard, which answers what its header checks find; past them, the bodies. -/
theorem orderingSendAndResyncCommands : Obligations.OrderingSendAndResyncCommands := by
  refine ⟨fun d s s0 => ?_, fun d s s0 => ⟨fun h => ⟨exec_nop_accepted h, exec_fence_accepted h⟩, fun hwait => ⟨?_, ?_⟩,
    fun _ _ _ => State.mayStart_of_fenced, fun hstart hreserve hversion hheader => ?_⟩, fun d s s0 => ⟨?_, ?_, ?_⟩⟩
  · show ∀ c ∈ (_ : List _), RowAnswers d s s0 c
    iterate 2 refine forall_mem_cons_of (rowAnswers_of_eq rfl nofun) ?_
    refine forall_mem_cons_of ((Guarded.of_eq (anyVer := true) rfl).rowAnswers (iff_of_true rfl rfl) s0) ?_
    iterate 12 refine forall_mem_cons_of (rowAnswers_of_eq rfl nofun) ?_
    iterate 3 refine forall_mem_cons_of ((Guarded.of_lockedOut rfl).rowAnswers_plain s0 nofun) ?_
    iterate 6 refine forall_mem_cons_of (rowAnswers_of_eq rfl nofun) ?_
    iterate 2 refine forall_mem_cons_of ((Guarded.of_ite rfl (by cases bitOf d.flags 0 <;> decide)).rowAnswers_plain s0 nofun) ?_
    iterate 3 refine forall_mem_cons_of (rowAnswers_of_eq rfl nofun) ?_
    refine forall_mem_cons_of ((Guarded.of_ite rfl (by rw [bne_iff_ne])).rowAnswers_plain s0 nofun) ?_
    refine forall_mem_cons_of ((Guarded.of_ite rfl (by rw [beq_iff_eq, not_not])).rowAnswers_plain s0 nofun) ?_
    iterate 4 refine forall_mem_cons_of ((Guarded.of_formRow rfl).rowAnswers_plain s0 nofun) ?_
    refine forall_mem_cons_of ((Guarded.of_service rfl (Bool.not_not _).symm).rowAnswers_plain s0 nofun) ?_
    refine forall_mem_cons_of ((Guarded.of_service rfl rfl).rowAnswers_plain s0 nofun) ?_
    refine forall_mem_cons_of ((Guarded.of_sensorInsert rfl).rowAnswers_plain s0 nofun) ?_
    refine forall_mem_cons_of ((Guarded.of_sensorRow (op := 1) rfl Nat.one_ne_zero).rowAnswers_plain s0 nofun) ?_
    refine forall_mem_cons_of ((Guarded.of_sensorRow (op := 2) rfl (by decide)).rowAnswers_plain s0 nofun) ?_
    refine forall_mem_cons_of ((Guarded.of_sensorRow (op := 3) rfl (by decide)).rowAnswers_plain s0 nofun) ?_
    iterate 4 refine forall_mem_cons_of ((Guarded.of_gatewayRow rfl).rowAnswers_plain s0 nofun) ?_
    iterate 2 refine forall_mem_cons_of ((Guarded.of_formRow rfl).rowAnswers_plain s0 nofun) ?_
    refine forall_mem_cons_of (rowAnswers_of_eq rfl nofun) ?_
    iterate 4 refine forall_mem_cons_of ((Guarded.of_tblWrite rfl).rowAnswers_plain s0 nofun) ?_
    iterate 14 refine forall_mem_cons_of (rowAnswers_of_eq rfl nofun) ?_
    exact List.forall_mem_nil _
  · show execFence d s = _
    rw [execFence, ringCommand_waits hwait]
  · show Host.Outcome.next (nopCommand d s) = _
    rw [nopCommand, ringCommand_waits hwait]
  · rw [exec_setInterfaceVersion_accepted hstart hreserve hversion hheader]
    refine ⟨fun h1 h2 => congrArg Host.Outcome.next (ifaceBody_of_badVersion h1 h2), fun hv halone => ?_, fun hv hother =>
      congrArg Host.Outcome.next (ifaceBody_of_others hv hother)⟩
    obtain ⟨older, hbody⟩ := ifaceBody_of_alone hv halone
    exact ⟨older, congrArg Host.Outcome.next hbody⟩
  · intro h hflags hqueue hstream
    rw [exec_frameSend_accepted h]
    refine ⟨fun bs hmsg hbits hlo hhi hread => ?_, fun bs hframe hlo hhi hread => ?_, fun hunread hframe hmsg => ?_⟩
    · have hok := Desc.sendFieldsOk_of hflags hqueue hstream fun _ => hbits
      rw [frameSendBody_of_message s0 hok hmsg hlo hhi, State.withBuf_of_data hread]
    · have hok := Desc.sendFieldsOk_of hflags hqueue hstream fun hmsg => absurd (hframe.symm.trans hmsg) Bool.false_ne_true
      rw [frameSendBody_of_frame s0 hok hframe hlo hhi, State.withBuf_of_data hread]
      obtain ⟨hnone, hsome⟩ := sentFrame_enters (d := d)
        (s := (s0.readMem .annulus (ringOwner d.ring.val) (d.get 8 8) (d.get 0x10 2)).2) (bs := bs)
        (if bitOf (d.get 0x13 1) 1 then some (d.get 0x16 2) else none)
      exact ⟨fun hal => congrArg Host.Outcome.next (hnone hal), fun id hal => congrArg Host.Outcome.next (hsome id hal)⟩
    · have hok := Desc.sendFieldsOk_of hflags hqueue hstream fun hmsg' => (hmsg hmsg').1
      obtain ⟨st, hbody, hst⟩ := frameSendBody_of_unread hok hframe (fun hmsg' => (hmsg hmsg').2) hunread
      exact ⟨st, congrArg Host.Outcome.next hbody, hst⟩
  · intro h hbad
    rw [exec_frameSend_accepted h, frameSendBody_of_bad s0 hbad]
  · intro h
    rw [exec_resync_accepted h]
    exact ⟨fun hshort => congrArg Host.Outcome.next (resyncBody_of_short hshort),
      fun hlen hw => congrArg Host.Outcome.next (resyncBody_of_written hlen hw),
      fun hlen hw => congrArg Host.Outcome.next (resyncBody_of_refused hlen hw)⟩

end Sys2Proof.Machine
end

section
namespace Sys2Proof.Machine

/-! The UART and I2C rows (R550, R570, Table 25.13). -/

theorem exec_uartDataWrite_eq (k : Fin 2) (v : Word32) (s : State) :
    exec (.uartDataWrite k v) s = .next (if s.halted = false ∧ (s.uart k.val).tx.length < 16 then
      s.setUart k.val { s.uart k.val with tx := (s.uart k.val).tx ++ [v.setWidth 8] } else s) := by
  show execUartDataWrite k v s = _
  rw [execUartDataWrite, State.uartPush]
  cases s.halted with
  | true => rfl
  | false => simp [BitVec.ofNat_toNat]

theorem exec_uartByteSent_none {k : Fin 2} {s : State} (h : (s.uart k.val).tx = []) : exec (.uartByteSent k) s = .next s := by
  show execUartByteSent k s = _
  rw [execUartByteSent]
  simp only [h]

theorem exec_uartByteSent_some {k : Fin 2} {s : State} {b : Byte} {bs : List Byte} (h : (s.uart k.val).tx = b :: bs) :
    exec (.uartByteSent k) s =
      .next (if s.uartOn k.val then (s.setUart k.val { s.uart k.val with tx := bs }).emit (.uart k.val b) else s) := by
  show execUartByteSent k s = _
  rw [execUartByteSent]
  simp only [h]
  cases s.uartOn k.val <;> rfl

theorem exec_uartByteReceive_room {k : Fin 2} {b : Byte} {s : State} (hrun : s.halted = false) (hon : s.uartOn k.val = true)
    (hroom : (s.uart k.val).rx.length < 16) :
    exec (.uartByteReceive k b) s = .next (s.setUart k.val { s.uart k.val with rx := (s.uart k.val).rx ++ [b] }) := by
  show execUartByteReceive k b s = _
  simp [execUartByteReceive, hrun, hon, hroom]

theorem exec_uartByteReceive_full {k : Fin 2} {b : Byte} {s : State} (hrun : s.halted = false) (hon : s.uartOn k.val = true)
    (hfull : 16 ≤ (s.uart k.val).rx.length) :
    exec (.uartByteReceive k b) s = .next (s.setUart k.val { s.uart k.val with ovf := true }) := by
  show execUartByteReceive k b s = _
  simp [execUartByteReceive, hrun, hon, Nat.not_lt.mpr hfull]

theorem exec_uartByteReceive_idle {k : Fin 2} {b : Byte} {s : State} (h : ¬ (s.halted = false ∧ s.uartOn k.val = true)) :
    exec (.uartByteReceive k b) s = .next s := by
  show execUartByteReceive k b s = _
  rw [execUartByteReceive]
  cases hhalt : s.halted with
  | true => rfl
  | false => simp [show s.uartOn k.val = false from Bool.eq_false_iff.mpr fun hon => h ⟨hhalt, hon⟩]

theorem exec_uartDataRead_some {k : Fin 2} {s : State} {b : Byte} {bs : List Byte} (h : (s.uart k.val).rx = b :: bs) :
    exec (.uartDataRead k) s =
      .next { s.setUart k.val { s.uart k.val with rx := bs } with readValue := BitVec.ofNat 32 (256 + b.toNat) } := by
  show execUartDataRead k s = _
  rw [execUartDataRead]
  simp only [h]

theorem exec_uartDataRead_none {k : Fin 2} {s : State} (h : (s.uart k.val).rx = []) :
    exec (.uartDataRead k) s = .next { s with readValue := 0 } := by
  show execUartDataRead k s = _
  rw [execUartDataRead]
  simp only [h]

/-- A command byte of I2C_CMD_k with one of bits 31:28 set. -/
theorem State.i2cCommand_of_free {s : State} {k v : Nat} (hv : 0 < bits v 28 4) (hidle : (s.i2c k).cmd = none)
    (hon : bitOf (s.regN (0x20001000 + 0x100 * k)) 31 = true) (hown : k ≠ 3 ∨ s.rings.released = true) :
    s.i2cCommand k v = (s.setI2c k { s.i2c k with cmd := some (BitVec.ofNat 32 (v &&& 0xF00000FF)) }).emit
      (.i2c k (BitVec.ofNat 32 (v &&& 0xF00000FF))) :=
  if_pos ⟨hv, Option.isNone_iff_eq_none.mpr hidle, hon, hown⟩

theorem State.i2cCommand_of_not_free {s : State} {k v : Nat}
    (h : ¬ ((s.i2c k).cmd = none ∧ bitOf (s.regN (0x20001000 + 0x100 * k)) 31 = true ∧ (k ≠ 3 ∨ s.rings.released = true))) :
    s.i2cCommand k v = s :=
  if_neg fun ⟨_, hidle, hon, hown⟩ => h ⟨Option.isNone_iff_eq_none.mp hidle, hon, hown⟩

/-- A command starts its transfer on a free controller, and is ignored on another. -/
theorem i2c_starts {k : Fin 4} {s : State} {n : Instr} {v : Nat} {c : BitVec 32} (hexec : exec n s = .next (s.i2cCommand k.val v))
    (hv : 0 < bits v 28 4) (hc : BitVec.ofNat 32 (v &&& 0xF00000FF) = c) :
    let free := (s.i2c k.val).cmd = none ∧ bitOf (s.regN (0x20001000 + 0x100 * k.val)) 31 = true ∧ (k.val ≠ 3 ∨ s.rings.released = true)
    (free → exec n s = .next ((s.setI2c k.val { s.i2c k.val with cmd := some c }).emit (.i2c k.val c))) ∧
      (¬ free → exec n s = .next s) := by
  refine ⟨fun ⟨hidle, hon, hown⟩ => ?_, fun hnot => ?_⟩
  · rw [hexec, State.i2cCommand_of_free hv hidle hon hown, hc]
  · rw [hexec, State.i2cCommand_of_not_free hnot]

/-- The command word of I2C_WRITE: bit 28 and the byte. -/
theorem i2cWrite_word : ∀ b : Byte, BitVec.ofNat 32 ((0x10000000 + b.toNat) &&& 0xF00000FF) = 0x100000#24 ++ b := by decide

theorem i2cWrite_bits (b : Byte) : 0 < bits (0x10000000 + b.toNat) 28 4 := by
  rw [bits, Nat.shiftRight_eq_div_pow]
  omega

theorem exec_i2cTransferDone_idle {k : Fin 4} {nack lost : Bool} {b : Byte} {s : State} (h : (s.i2c k.val).cmd = none) :
    exec (.i2cTransferDone k nack lost b) s = .next s := by
  show execI2cTransferDone k nack lost b s = _
  rw [execI2cTransferDone]
  simp only [h]

theorem exec_i2cTransferDone_busy {k : Fin 4} {nack lost : Bool} {b : Byte} {c : BitVec 32} {s : State} (h : (s.i2c k.val).cmd = some c) :
    exec (.i2cTransferDone k nack lost b) s =
      .next (s.setI2c k.val { cmd := none, nack := (s.i2c k.val).nack || nack, lost := (s.i2c k.val).lost || lost
                              last := if c.getLsbD 29 && !lost then b else (s.i2c k.val).last }) := by
  show execI2cTransferDone k nack lost b s = _
  rw [execI2cTransferDone]
  simp only [h]

/-- Settles O57, row by row. -/
theorem peripheralRowsMoveTheirBytes : Obligations.PeripheralRowsMoveTheirBytes := by
  refine ⟨fun k s => ⟨fun v => exec_uartDataWrite_eq k v s, exec_uartByteSent_none, fun b bs => exec_uartByteSent_some, fun b => ⟨?_, ?_, ?_⟩,
    fun b bs => exec_uartDataRead_some, exec_uartDataRead_none⟩, fun k s => ⟨?_, ?_, ?_, ?_, fun b => ?_, ?_, ?_⟩⟩
  · rintro ⟨hrun, hon⟩ hroom
    exact exec_uartByteReceive_room hrun hon hroom
  · rintro ⟨hrun, hon⟩ hfull
    exact exec_uartByteReceive_full hrun hon hfull
  · exact exec_uartByteReceive_idle
  · exact i2c_starts (v := 0x80000000) rfl (by decide) (by decide)
  · exact i2c_starts (v := 0x40000000) rfl (by decide) (by decide)
  · exact i2c_starts (v := 0x60000000) rfl (by decide) (by decide)
  · exact i2c_starts (v := 0x20000000) rfl (by decide) (by decide)
  · exact i2c_starts rfl (i2cWrite_bits b) (i2cWrite_word b)
  · exact fun nack lost b => exec_i2cTransferDone_idle
  · exact fun c nack lost b => exec_i2cTransferDone_busy

end Sys2Proof.Machine
end

section
namespace Sys2Proof.Machine

/-! What leaves the engines and their threads as they are. -/

theorem Reports.vertex {s t : State} (h : Reports s t) : t.vertex = s.vertex := by rw [h.frame]

theorem Stores.vertex {s t : State} (h : Stores s t) : t.vertex = s.vertex := by rw [h.frame]

@[simp] theorem State.raise_vertex (s : State) (ev : Nat) (data : List Byte) : (s.raise ev data).vertex = s.vertex :=
  (s.raise_raises ev data).toReports.vertex

@[simp] theorem State.raiseOnce_vertex (s : State) (ev a : Nat) (data : List Byte) : (s.raiseOnce ev a data).vertex = s.vertex :=
  (s.raiseOnce_raises ev a data).toReports.vertex

@[simp] theorem State.countN_vertex (s : State) (id n : Nat) : (s.countN id n).vertex = s.vertex := (s.countN_reports id n).vertex

@[simp] theorem State.count_vertex (s : State) (id : Nat) : (s.count id).vertex = s.vertex := s.countN_vertex id 1

@[simp] theorem State.ringError_vertex (s : State) (k : RingKind) (r c : Nat) : (s.ringError k r c).vertex = s.vertex := by
  simp only [State.ringError, State.raise_vertex]
  exact (apply_ite State.vertex _ _ _).trans (ite_self _)

@[simp] theorem State.writeCompletion_vertex (s : State) (d : Desc) (rep : Reply) (c : Nat) : (s.writeCompletion d rep c).vertex = s.vertex := by
  unfold State.writeCompletion
  dsimp only
  split
  · rfl
  · rw [apply_ite State.vertex, State.setRing_vertex, State.ringError_vertex, ite_self]
    exact (s.writeMem_stores _ _ _ _).vertex

@[simp] theorem State.complete_vertex (s : State) (d : Desc) (rep : Reply) : (s.complete d rep).vertex = s.vertex := by
  unfold State.complete
  split
  · rfl
  · dsimp only
    split
    · rfl
    · exact State.writeCompletion_vertex _ _ _ _

@[simp] theorem State.done_vertex (s : State) (d : Desc) (st : Status) : (s.done d st).vertex = s.vertex := s.complete_vertex d _

@[simp] theorem State.writeBufDone_vertex (s : State) (d : Desc) (m : Master) (a : Nat) (bs : List Byte) (rep : Reply) :
    (s.writeBufDone d m a bs rep).vertex = s.vertex := by
  have hw := (s.writeMem_stores m (ringOwner d.ring.val) a bs).vertex
  unfold State.writeBufDone
  split
  · rename_i hq
    rw [State.complete_vertex, ← hw, hq]
  · rename_i hq
    rw [State.done_vertex, ← hw, hq]

/-! Frees of frames (R346 to R348). -/

@[simp] theorem State.orReg_vertex (s : State) (off v : Nat) : (s.orReg off v).vertex = s.vertex := rfl

@[simp] theorem State.refuseFree_vertex (s : State) (o : Nat) (e : FreeErr) (cell item : Nat) : (s.refuseFree o e cell item).vertex = s.vertex := by
  cases e <;> simp [State.refuseFree]

@[simp] theorem State.strand_vertex (s : State) (o : Nat) (f : TFrame) (rest : List Nat) : (s.strand o f rest).vertex = s.vertex := by
  cases rest <;> simp [State.strand]

@[simp] theorem State.listCells_vertex (s : State) (p : Nat) (cells : List Nat) : (s.listCells p cells).vertex = s.vertex := rfl

@[simp] theorem State.freePtr_vertex (s : State) (o : Option Nat) (ptr : Nat) : (s.freePtr o ptr).vertex = s.vertex := by
  unfold State.freePtr
  dsimp only
  split
  · exact State.refuseFree_vertex _ _ _ _ _
  · split
    · exact State.refuseFree_vertex _ _ _ _ _
    · split
      · exact State.refuseFree_vertex _ _ _ _ _
      · split
        · exact State.refuseFree_vertex _ _ _ _ _
        · rw [State.strand_vertex]
          split
          · rfl
          · split <;> rfl

@[simp] theorem State.freeFrame_vertex (s : State) (o : Option Nat) (id : Nat) : (s.freeFrame o id).vertex = s.vertex := by
  unfold State.freeFrame
  split
  · simp
  · split <;> simp

@[simp] theorem State.txtsPush_vertex (s : State) (x : Nat) (e : BitVec 128) : (s.txtsPush x e).vertex = s.vertex := by
  unfold State.txtsPush
  dsimp only
  split
  · rfl
  · exact State.raiseOnce_vertex _ _ _ _

@[simp] theorem State.notSent_vertex (s : State) (side lp : Nat) (id : Option Nat) : (s.notSent side lp id).vertex = s.vertex := by
  cases id
  · rfl
  · exact State.txtsPush_vertex _ _ _

@[simp] theorem State.freeItem_vertex (s : State) (n : Nat) (i : Item) : (s.freeItem n i).vertex = s.vertex := by
  unfold State.freeItem
  split <;> simp

@[simp] theorem State.saLeave_vertex (s : State) (h : Option Nat) : (s.saLeave h).vertex = s.vertex := by
  cases h <;> rfl

@[simp] theorem State.dropSlot_vertex (s : State) (n q : Nat) : (s.dropSlot n q).vertex = s.vertex := by
  unfold State.dropSlot
  split <;> simp

/-! Items that end. -/

@[simp] theorem State.cryptoEnd_vertex (s : State) (n : Nat) (r : CryptoRun) (st : Status) : (s.cryptoEnd n r st).vertex = s.vertex := by
  unfold State.cryptoEnd
  dsimp only
  split <;> simp

@[simp] theorem State.chunkLost_vertex (s : State) (n : Nat) (i : Item) : (s.chunkLost n i).vertex = s.vertex := by
  unfold State.chunkLost
  dsimp only
  split <;> simp

@[simp] theorem State.dropHeld_vertex (s : State) (n : Nat) (i : Item) : (s.dropHeld n i).vertex = s.vertex := by
  unfold State.dropHeld
  split <;> simp

/-- Replacing a key slot writes the slots and, for the standby, the order of the changes. -/
theorem State.setSlot_frame (s : State) (k : Nat) (x : Slot) :
    s.setSlot k x = { s with twin := (s.setSlot k x).twin, axis := { s.axis with slots := tput Slot.reset s.axis.slots k x } } := by
  unfold State.setSlot
  dsimp only
  split
  · rfl
  · split <;> rfl

@[simp] theorem State.setSlot_vertex (s : State) (k : Nat) (x : Slot) : (s.setSlot k x).vertex = s.vertex := by rw [State.setSlot_frame]

@[simp] theorem State.opEnd_vertex (s : State) (k : Nat) (g : BitVec 32) : (s.opEnd k g).vertex = s.vertex := by
  unfold State.opEnd
  dsimp only
  rw [apply_ite State.vertex, State.setSlot_vertex, State.setSlot_vertex, ite_self]

@[simp] theorem State.endRoot_vertex (s : State) (id : Nat) : (s.endRoot id).vertex = s.vertex := by
  unfold State.endRoot
  split
  · split <;> simp
  · rfl

@[simp] theorem State.endRItem_vertex (s : State) (id : Nat) : (s.endRItem id).vertex = s.vertex := by
  unfold State.endRItem
  split
  · rfl
  · simp [State.batchDone, State.unreserve]

@[simp] theorem State.freeLock_vertex (s : State) (h owner : Nat) : (s.freeLock h owner).vertex = s.vertex := by
  unfold State.freeLock
  split
  · split <;> rfl
  · rfl

theorem State.thread_of_vertex {s t : State} (h : t.vertex = s.vertex) (c k : Nat) : t.thread c k = s.thread c k := by
  simp only [State.thread, State.cluster, h]

theorem State.thread_ite_of_vertex {s : State} {p : Prop} [Decidable p] {a : State} (h : a.vertex = s.vertex) (c k : Nat) :
    (if p then a else s).thread c k = s.thread c k := by
  split
  · exact State.thread_of_vertex h c k
  · rfl

/-! Faults of a thread (R227). -/

/-- A table whose values change, each by a function of its own, reads as before but for that change. -/
theorem tget_map_of {α β : Type} (d : α) (g : α → β) (f : Nat × α → Nat × α) (hf : ∀ e, (f e).1 = e.1 ∧ g (f e).2 = g e.2) (t : Tbl α) (k : Nat) :
    g (tget d (t.map f) k) = g (tget d t k) := by
  induction t with
  | nil => rfl
  | cons e t ih =>
    obtain ⟨hkey, hval⟩ := hf e
    simp only [List.map_cons, tget, hkey]
    split
    · exact hval
    · exact ih

/-- What waits for a thread's turn changes only who waits for whom. -/
theorem State.unyield_thread (s : State) (c k j : Nat) :
    (s.unyield c k).thread c j = { s.thread c j with yield := ((s.unyield c k).thread c j).yield } := by
  have h := tget_map_of Thread.reset (fun t : Thread => { t with yield := [] })
    (fun e : Nat × Thread => if e.1 / 8 = k / 8 then (e.1, { e.2 with yield := e.2.yield.filter (· != k % 8) }) else e)
    (fun e => by split <;> exact ⟨rfl, rfl⟩) (s.cluster c).threads j
  have hthread : ({ (s.unyield c k).thread c j with yield := [] } : Thread) = { s.thread c j with yield := [] } := by
    rw [← State.thread] at h
    simpa only [State.thread, State.unyield, State.setCluster, State.cluster, tget_tput_self] using h
  exact congrArg (fun t : Thread => { t with yield := ((s.unyield c k).thread c j).yield }) hthread

/-- The end of an operation clears the thread's own note of it. -/
theorem State.endOp_thread (s : State) (c k : Nat) (unlock : Bool) : (s.endOp c k unlock).thread c k = { s.thread c k with op := none } := by
  unfold State.endOp
  dsimp only
  cases hop : (s.thread c k).op with
  | none => exact congrArg (fun o => { s.thread c k with op := o }) hop
  | some o =>
    dsimp only
    rw [State.thread_modThread]
    refine congrArg (fun t : Thread => { t with op := none }) (State.thread_of_vertex ?_ c k)
    have hkey : ∀ u : State, (if unlock && o.locked then u.freeLock o.handle (vOwner c k) else u).vertex = u.vertex := fun u => by
      split <;> simp
    rw [hkey]
    split
    · rw [State.opEnd_vertex]
      split <;> rfl
    · rfl

/-- The item of a thread that stops is dropped. -/
def State.dropUnder (s : State) (c : Nat) (item : Option Nat) : State :=
  match item with
  | none => s
  | some q =>
    if c = 16 then s.endRItem q
    else match s.item c q with
      | some i => s.dropHeld c i
      | none => s

theorem State.dropUnder_vertex (s : State) (c : Nat) (item : Option Nat) : (s.dropUnder c item).vertex = s.vertex := by
  unfold State.dropUnder
  split
  · rfl
  · split
    · exact State.endRItem_vertex _ _
    · split <;> simp

/-- A thread that has faulted (R227, Table 9.5). -/
def Thread.fault (t : Thread) : Thread :=
  { t with mode := .faulted, item := none, descs := [], acc := [], begun := [], results := [], pn := none, pnAsked := false, reads := []
           failed := false, yield := [] }

/-- The part at the end of a fault, before event 0x180. -/
def State.faulted (s : State) (c k : Nat) : State :=
  let t := s.thread c k
  let lp : Nat := ((s.itemOf c k).map (·.lp)).getD 0
  let v := (((s.endOp c k false).dropUnder c t.item).unyield c k).modThread c k Thread.fault
  if c < 16 ∧ (s.itemOf c k).any (fun i => (s.unit c).items.any (·.seq == i.seq)) ∧ lp < 64 then
    (v.count (cid 0x04 1 lp)).raise 0x144 [BitVec.ofNat 8 c, BitVec.ofNat 8 (k / 8), BitVec.ofNat 8 (k % 8), BitVec.ofNat 8 (64 + lp)]
  else v

theorem State.faultThread_eq (s : State) (c k : Nat) (cause : Cause) :
    s.faultThread c k cause =
      ((s.faulted c k).raise 0x180 (BitVec.ofNat 8 c :: le 2 (vOwner c k) ++ [BitVec.ofNat 8 cause.code] ++ le 2 (s.thread c k).pc)).wake c := by
  unfold State.faultThread State.faulted State.dropUnder
  rfl

theorem State.faulted_thread (s : State) (c k : Nat) :
    ∃ y, (s.faulted c k).thread c k = Thread.fault { s.thread c k with op := none, yield := y } := by
  refine ⟨((((s.endOp c k false).dropUnder c (s.thread c k).item).unyield c k).thread c k).yield, ?_⟩
  unfold State.faulted
  dsimp only
  rw [State.thread_ite_of_vertex (by simp)]
  rw [State.thread_modThread, State.unyield_thread, State.thread_of_vertex (State.dropUnder_vertex _ _ _), State.endOp_thread]

/-- Settles O51: whatever the cause, the thread is the one of Table 9.5. -/
theorem faultsStopTheirThread : Obligations.FaultsStopTheirThread := by
  intro s c k cause
  obtain ⟨y, hthread⟩ := s.faulted_thread c k
  refine ⟨s.faulted c k, s.faultThread_eq c k cause, ?_⟩
  rw [hthread]
  exact ⟨rfl, rfl, rfl, rfl, rfl, rfl, rfl, rfl⟩

end Sys2Proof.Machine
end

section
namespace Sys2Proof.Machine

/-! Bytes of numbers, and of the word tables of Vertex memory (R223, R224, R247). -/

@[simp] theorem length_le (n v : Nat) : (le n v).length = n := by
  induction n generalizing v with
  | zero => rfl
  | succ n ih => exact congrArg (· + 1) (ih _)

/-- Byte i of a number. -/
theorem getD_le {n i : Nat} (h : i < n) (v : Nat) : (le n v).getD i 0 = BitVec.ofNat 8 (v / 256 ^ i) := by
  induction n generalizing v i with
  | zero => omega
  | succ n ih =>
    cases i with
    | zero => simp [le]
    | succ i => rw [le, List.getD_cons_succ, ih (by omega), Nat.div_div_eq_div_mul, pow_succ']

theorem leNat_lt (bs : List Byte) : leNat bs < 256 ^ bs.length := by
  induction bs with
  | nil => exact Nat.one_pos
  | cons b bs ih =>
    have hb := b.isLt
    rw [leNat, List.length_cons, pow_succ']
    omega

/-- The number that bytes spell has them as its bytes. -/
theorem leNat_div (bs : List Byte) (i : Nat) : BitVec.ofNat 8 (leNat bs / 256 ^ i) = bs.getD i 0 := by
  induction bs generalizing i with
  | nil => simp [leNat]
  | cons b bs ih =>
    have hb := b.isLt
    cases i with
    | zero =>
      apply BitVec.eq_of_toNat_eq
      simp only [leNat, pow_zero, Nat.div_one, BitVec.toNat_ofNat, List.getD_cons_zero]
      omega
    | succ i =>
      rw [leNat, pow_succ', ← Nat.div_div_eq_div_mul, List.getD_cons_succ, ← ih,
        show (b.toNat + 256 * leNat bs) / 256 = leNat bs by omega]

/-- Byte i of a word. -/
theorem extractLsb'_byte (w : BitVec 64) (i : Nat) : w.extractLsb' (8 * i) 8 = BitVec.ofNat 8 (w.toNat / 256 ^ i) := by
  apply BitVec.eq_of_toNat_eq
  rw [BitVec.extractLsb'_toNat, BitVec.toNat_ofNat, Nat.shiftRight_eq_div_pow, pow_mul, show (2 : Nat) ^ 8 = 256 from rfl]

/-- A list with a part replaced. -/
theorem getD_patch {bs v : List Byte} {off : Nat} (h : off + v.length ≤ bs.length) (i : Nat) :
    (patch bs off v).getD i 0 = if off ≤ i ∧ i < off + v.length then v.getD (i - off) 0 else bs.getD i 0 := by
  have htake : (bs.take off).length = off := List.length_take_of_le (by omega)
  simp only [patch, List.getD_eq_getElem?_getD, List.append_assoc, List.getElem?_append, htake, List.getElem?_take, List.getElem?_drop]
  by_cases hlo : i < off
  · rw [if_pos hlo, if_pos hlo, if_neg (by omega)]
  · by_cases hhi : i - off < v.length
    · rw [if_neg hlo, if_pos hhi, if_pos (by omega)]
    · rw [if_neg hlo, if_neg hhi, if_neg (by omega), show off + v.length + (i - off - v.length) = i by omega]

theorem length_patch {bs v : List Byte} {off : Nat} (h : off + v.length ≤ bs.length) : (patch bs off v).length = bs.length := by
  simp only [patch, List.length_append, List.length_take, List.length_drop]
  omega

/-- The byte of a word table at an address. -/
def wordByte (t : Tbl (BitVec 64)) (j : Nat) : Byte := (tget 0 t (j / 8)).extractLsb' (8 * (j % 8)) 8

theorem wordsGet_eq (t : Tbl (BitVec 64)) (a n : Nat) : wordsGet t a n = (List.range n).map fun i => wordByte t (a + i) := rfl

/-- A write within one word writes its bytes and no other. -/
theorem wordByte_wordPut (t : Tbl (BitVec 64)) {a : Nat} {bs : List Byte} (h : a % 8 + bs.length ≤ 8) (j : Nat) :
    wordByte (wordPut t a bs) j = if a ≤ j ∧ j < a + bs.length then bs.getD (j - a) 0 else wordByte t j := by
  rw [wordByte, wordPut]
  by_cases hword : j / 8 = a / 8
  · have hlen : a % 8 + bs.length ≤ (le 8 (tget 0 t (a / 8)).toNat).length := by rwa [length_le]
    have hbound : leNat (patch (le 8 (tget 0 t (a / 8)).toNat) (a % 8) bs) < 2 ^ 64 := by
      have hlt := leNat_lt (patch (le 8 (tget 0 t (a / 8)).toNat) (a % 8) bs)
      rwa [length_patch hlen, length_le] at hlt
    rw [hword, tget_tmod_self, extractLsb'_byte, BitVec.toNat_ofNat, Nat.mod_eq_of_lt hbound, leNat_div, getD_patch hlen,
      getD_le (Nat.mod_lt _ (by decide)), wordByte, extractLsb'_byte, hword]
    by_cases hin : a ≤ j ∧ j < a + bs.length
    · rw [if_pos hin, if_pos (by omega), show j % 8 - a % 8 = j - a by omega]
    · rw [if_neg hin, if_neg (by omega)]
  · rw [tget_tmod_ne _ _ hword, if_neg (by omega), wordByte]

/-- An aligned store of up to 16 bytes writes its bytes and no other. -/
theorem wordByte_wordsPut (t : Tbl (BitVec 64)) {a : Nat} {bs : List Byte} (h : a % 8 + bs.length ≤ 8 ∨ (a % 8 = 0 ∧ bs.length = 16)) (j : Nat) :
    wordByte (wordsPut t a bs) j = if a ≤ j ∧ j < a + bs.length then bs.getD (j - a) 0 else wordByte t j := by
  unfold wordsPut
  rcases h with h | ⟨halign, hlen⟩
  · rw [if_pos (by omega), wordByte_wordPut t h]
  · have hlo : (bs.take 8).length = 8 := List.length_take_of_le (by omega)
    have hhi : (bs.drop 8).length = 8 := by rw [List.length_drop, hlen]
    rw [if_neg (by omega), wordByte_wordPut _ (by omega), wordByte_wordPut _ (by omega), hlo, hhi, hlen]
    simp only [List.getD_eq_getElem?_getD, List.getElem?_take, List.getElem?_drop]
    by_cases h1 : a + 8 ≤ j ∧ j < a + 8 + 8
    · rw [if_pos h1, if_pos (by omega), show 8 + (j - (a + 8)) = j - a by omega]
    · rw [if_neg h1]
      by_cases h2 : a ≤ j ∧ j < a + 8
      · rw [if_pos h2, if_pos (by omega), if_pos (by omega)]
      · rw [if_neg h2, if_neg (by omega)]

/-- Settles O46: each byte read is the byte stored, and a byte outside the store is the old one. -/
theorem scratchReadsWhatWasWritten : Obligations.ScratchReadsWhatWasWritten := by
  intro t a n bs hn halign hlen
  have hword : a % 8 + bs.length ≤ 8 ∨ (a % 8 = 0 ∧ bs.length = 16) := by
    rcases hn with rfl | rfl | rfl | rfl | rfl <;> omega
  refine ⟨List.ext_getElem (by simp [wordsGet, hlen]) fun i hi hi' => ?_, fun j hj => ?_⟩
  · have hi' : i < bs.length := hi'
    simp [wordsGet_eq, wordByte_wordsPut t hword, hi']
  · have hout : ¬ (a ≤ j ∧ j < a + bs.length) := by omega
    simp only [wordsGet_eq, List.range_one, List.map_cons, List.map_nil, Nat.add_zero, wordByte_wordsPut t hword, if_neg hout]

end Sys2Proof.Machine
end

section
namespace Sys2Proof

open Sys2Proof.Machine

/-! Counter values of an association (R102, R103, R108). -/

/-- The next value lies past the value just taken. -/
theorem Assoc.lt_nextN_setNext {a : Assoc} {v : Nat} (h : v ≤ a.lastValue) : v < (a.setNext (v + 1)).nextN := by
  show v < if decide (a.lastValue < v + 1) && a.xpn then 2 ^ 64 else (BitVec.ofNat 64 (v + 1)).toNat
  rw [BitVec.toNat_ofNat]
  by_cases hxpn : a.xpn = true
  · have hfacet : a.facet = false := by
      unfold Assoc.xpn at hxpn
      unfold Assoc.facet
      generalize a.suite = x at hxpn ⊢
      revert x
      decide
    have hlast : a.lastValue = 2 ^ 64 - 1 := by simp [Assoc.lastValue, hfacet, hxpn]
    rw [hlast] at h
    by_cases hspent : a.lastValue < v + 1
    · rw [if_pos (by simp [hspent, hxpn])]
      omega
    · rw [if_neg (by simp [hspent])]
      omega
  · have hlast : a.lastValue ≤ 2 ^ 48 - 1 := by
      unfold Assoc.lastValue
      rw [if_neg hxpn]
      split <;> decide
    rw [if_neg (by simp [hxpn])]
    omega

@[simp] theorem Assoc.disarm_lastValue (a : Assoc) : a.disarm.lastValue = a.lastValue := rfl

end Sys2Proof

namespace Sys2Proof.Machine

theorem lookup_tins {α : Type} (t : Tbl α) (k : Nat) (v : α) : (tins t k v).lookup k = some v := by
  induction t with
  | nil => simp [tins]
  | cons e t ih =>
    obtain ⟨i, w⟩ := e
    rw [tins]
    split
    · simp
    · split
      · simp
      · rename_i hne
        simp only [List.lookup_cons, beq_false_of_ne (Ne.symm hne), ih]

/-! What leaves the associations, the key slots, the lease and the clock as they are. -/

/-- From s to t the lease, the key slots and the clock stay. -/
structure KeepsLease (s t : State) : Prop where
  clk : t.clk = s.clk
  twin : t.twin = s.twin
  axis : t.axis = s.axis

theorem KeepsLease.trans {s t u : State} (h : KeepsLease s t) (h' : KeepsLease t u) : KeepsLease s u :=
  ⟨h'.clk.trans h.clk, h'.twin.trans h.twin, h'.axis.trans h.axis⟩

theorem KeepsLease.leaseValid {s t : State} (h : KeepsLease s t) : t.leaseValid = s.leaseValid := by
  simp only [State.leaseValid, h.clk, h.twin]

theorem KeepsLease.slot {s t : State} (h : KeepsLease s t) (k : Nat) : t.slot k = s.slot k := by
  simp only [State.slot, h.axis]

theorem Raises.keepsLease {s t : State} (h : Raises s t) : KeepsLease s t := by
  constructor <;> rw [h.frame']

theorem Raises.assoc {s t : State} (h : Raises s t) : t.assoc = s.assoc := by rw [h.frame']

@[simp] theorem State.raise_assoc (s : State) (ev : Nat) (data : List Byte) : (s.raise ev data).assoc = s.assoc := (s.raise_raises ev data).assoc

theorem State.raise_keepsLease (s : State) (ev : Nat) (data : List Byte) : KeepsLease s (s.raise ev data) := (s.raise_raises ev data).keepsLease

theorem State.setSa_keepsLease (s : State) (h : Nat) (a : Assoc) : KeepsLease s (s.setSa h a) := ⟨rfl, rfl, rfl⟩

theorem State.withAssoc_keepsLease (s : State) (x : AssocState) : KeepsLease s { s with assoc := x } := ⟨rfl, rfl, rfl⟩

theorem State.sa_congr {s t : State} (h : t.assoc = s.assoc) (k : Nat) : t.sa k = s.sa k := by simp only [State.sa, h]

theorem KeepsLease.ite {s a b : State} {c : Prop} [Decidable c] (ha : KeepsLease s a) (hb : KeepsLease s b) :
    KeepsLease s (if c then a else b) := by
  split
  · exact ha
  · exact hb

theorem Raises.raise_if {s t : State} (h : Raises s t) (c : Bool) (ev : Nat) (data : List Byte) : Raises s (if c then t.raise ev data else t) := by
  cases c
  · exact h
  · exact h.trans (t.raise_raises ev data)

/-! A switch that does not take place (R116). -/

/-- An entry that may not switch is disarmed, and its event raised. -/
theorem State.switchEntry_false {s : State} {fr dst : Nat} {pn : Option Nat} (h : (s.switchEntry fr dst pn).1 = false) :
    (s.switchEntry fr dst pn).2 = (s.setSa fr (s.sa fr).disarm).raise 0x124 (le 4 fr) := by
  unfold State.switchEntry at h ⊢
  dsimp only at h ⊢
  split
  · rename_i hsame
    rw [if_pos hsame] at h
    split
    · rename_i hflip
      rw [if_pos hflip] at h
      cases h
    · rfl
  · rename_i hother
    rw [if_neg hother] at h
    split
    · rename_i hcurrent
      rw [if_pos hcurrent] at h
      cases h
    · rfl

theorem State.settleEntry_ctx (s : State) (fr : Nat) (b : Bool) : (s.settleEntry fr b).assoc.ctx = s.assoc.ctx := by
  unfold State.settleEntry
  split
  · rfl
  · dsimp only
    rw [apply_ite State.assoc, State.raise_assoc, ite_self]

theorem State.settleEntry_keepsLease (s : State) (fr : Nat) (b : Bool) : KeepsLease s (s.settleEntry fr b) := by
  unfold State.settleEntry
  split
  · exact ⟨rfl, rfl, rfl⟩
  · exact KeepsLease.ite (s.withAssoc_keepsLease _) ((s.withAssoc_keepsLease _).trans (State.raise_keepsLease _ _ _))

/-- A PN rotation of association h that was due and did not switch leaves the association disarmed. -/
theorem State.unswitched_spec {s : State} {h dst : Nat} {pn : Option Nat} (hno : (s.switchEntry h dst pn).1 = false) :
    KeepsLease s (((s.switchEntry h dst pn).2.settleEntry h false).dropRotations) ∧
      (((s.switchEntry h dst pn).2.settleEntry h false).dropRotations).sa h = (s.sa h).disarm := by
  rw [State.switchEntry_false hno]
  refine ⟨(s.setSa_keepsLease h _).trans ((State.raise_keepsLease _ _ _).trans ((State.settleEntry_keepsLease _ _ _).trans
    (State.withAssoc_keepsLease _ _))), ?_⟩
  show tget Assoc.reset (State.settleEntry _ h false).assoc.ctx h = _
  rw [State.settleEntry_ctx, State.raise_assoc]
  exact State.sa_setSa s h _

/-! PNTAKE (R256, R257). -/

/-- The value v is at the twin ceiling. -/
def State.twinStops (s : State) (a : Assoc) (v : Nat) : Bool :=
  match s.twinCeiling a with | some c => decide (c ≤ v) | none => false

/-- The rest of PNTAKE, once no switch is due: v is the value that stands. -/
def State.pnValue (s : State) (h dk : Nat) (g : BitVec 32) (v : Nat) : PnResult × State :=
  let a := s.sa h
  if a.lastValue < v then (.refused 1, s)
  else if a.ceiling ≠ 0 ∧ a.ceiling.toNat ≤ v then (.refused 2, s)
  else if s.twin.lease = .handover ∨ s.twinStops a v = true then
    if a.twinHeld then (.refused 3, s)
    else
      let s := s.setSa h { a with twinHeld := true }
      let s := if s.twin.holdSince.isSome then s else { s with twin := { s.twin with holdSince := some s.clk } }
      (.refused 3, s.raise 0x128 (le 4 h))
  else (.value v, ((s.setSa h { a.setNext (v + 1) with twinHeld := false }).noteTaken dk g v).nextMoved h)

/-- The association is past its switch for an operation of key phase ph: SWITCHED. -/
def Assoc.past (a : Assoc) (ph : Bool) : Prop :=
  ∃ n, a.left = some n ∧ n ≤ a.nextN ∧ (if a.facet then a.phase ≠ ph else a.current = false)

theorem Assoc.past_iff (a : Assoc) (ph : Bool) :
    (match a.left with | some t => decide (t ≤ a.nextN) && (if a.facet then a.phase != ph else !a.current) | none => false) = true ↔ a.past ph := by
  unfold Assoc.past
  cases a.left with
  | none => simp
  | some n => cases a.facet <;> simp

/-- The switch of a PN rotation is due. -/
def Assoc.switchDue (a : Assoc) : Prop := a.switchPn ≠ 0 ∧ a.switchPn.toNat ≤ a.nextN

/-- What a due switch of association h answers, and the part after it. -/
def State.dueSwitch (s : State) (h : Nat) : Bool × State :=
  s.switchEntry h (s.sa h).successor.toNat (some (s.sa h).switchPn.toNat)

section
variable {s : State} {h : Nat} {ph : Bool} {dk : Nat} {g : BitVec 32}

theorem State.pnTake_noLease (hlease : ¬ (s.leaseValid = true ∨ s.twin.lease = .handover)) : s.pnTake h ph dk g = (.refused 4, s) :=
  if_pos ⟨fun hh => hlease (.inr hh), fun hv => hlease (.inl hv)⟩

section
variable (hlease : s.leaseValid = true ∨ s.twin.lease = .handover)
include hlease

theorem State.not_noLease : ¬ (s.twin.lease ≠ .handover ∧ ¬ s.leaseValid) := fun ⟨hno, hinv⟩ => hlease.elim hinv hno

theorem State.pnTake_past (hpast : (s.sa h).past ph) : s.pnTake h ph dk g = (.refused 5, s) :=
  (if_neg (State.not_noLease hlease)).trans (if_pos ((s.sa h).past_iff ph |>.mpr hpast))

theorem State.pnTake_switches (hpast : ¬ (s.sa h).past ph) (hdue : (s.sa h).switchDue) (hsw : (s.dueSwitch h).1 = true) :
    (s.pnTake h ph dk g).1 = .refused 5 := by
  refine congrArg Prod.fst ((if_neg (State.not_noLease hlease)).trans ((if_neg fun hp => hpast ((s.sa h).past_iff ph |>.mp hp)).trans
    (if_pos ⟨hdue.1, hdue.2, hsw⟩)))

/-- Without a switch that takes place, the rest of PNTAKE runs in a part whose association keeps its NEXT and its last value. -/
theorem State.pnTake_rest (hpast : ¬ (s.sa h).past ph) (hsw : (s.sa h).switchDue → (s.dueSwitch h).1 = false) :
    ∃ u, s.pnTake h ph dk g = u.pnValue h dk g (s.sa h).nextN ∧ KeepsLease s u ∧ (u.sa h).lastValue = (s.sa h).lastValue ∧
      (¬ (s.sa h).switchDue → u = s) := by
  have hskip : s.pnTake h ph dk g = (if (s.sa h).switchPn ≠ 0 ∧ (s.sa h).switchPn.toNat ≤ (s.sa h).nextN then
      ((s.dueSwitch h).2.settleEntry h false).dropRotations else s).pnValue h dk g (s.sa h).nextN :=
    (if_neg (State.not_noLease hlease)).trans ((if_neg fun hp => hpast ((s.sa h).past_iff ph |>.mp hp)).trans
      (if_neg fun ⟨hset, hle, hyes⟩ => Bool.false_ne_true ((hsw ⟨hset, hle⟩).symm.trans hyes)))
  refine ⟨_, hskip, ?_⟩
  by_cases hdue : (s.sa h).switchPn ≠ 0 ∧ (s.sa h).switchPn.toNat ≤ (s.sa h).nextN
  · obtain ⟨hkeep, hsa⟩ := State.unswitched_spec (hsw hdue)
    rw [if_pos hdue]
    exact ⟨hkeep, (congrArg Assoc.lastValue hsa :), fun hno => absurd hdue hno⟩
  · rw [if_neg hdue]
    exact ⟨⟨rfl, rfl, rfl⟩, rfl, fun _ => rfl⟩

end

/-! What follows a value: NEXT stands past it, and so does the high-water value. -/

theorem State.atCeiling_sa (s : State) (h : Nat) : ∃ st, (s.atCeiling h).sa h = { s.sa h with status := st } := by
  unfold State.atCeiling
  dsimp only
  split
  · exact ⟨.reserveWait, (State.sa_congr (State.raise_assoc _ _ _) h).trans (State.sa_setSa _ _ _)⟩
  · exact ⟨_, rfl⟩

theorem State.atCeiling_high (s : State) (h : Nat) : (s.atCeiling h).assoc.high = s.assoc.high ∧ KeepsLease s (s.atCeiling h) := by
  unfold State.atCeiling
  dsimp only
  split
  · exact ⟨by rw [State.raise_assoc]; rfl, (s.setSa_keepsLease h _).trans (State.raise_keepsLease _ _ _)⟩
  · exact ⟨rfl, ⟨rfl, rfl, rfl⟩⟩

/-- What follows a move of NEXT: marks and a status of the association, events, and RESERVE_WAIT where its CEILING is reached. -/
theorem State.nextMoved_eq (s : State) (h : Nat) :
    s.nextMoved h = s ∨ ∃ st w l u, Raises (s.setSa h { s.sa h with status := st, warned := w, lowWarned := l }) u ∧ s.nextMoved h = u.atCeiling h := by
  unfold State.nextMoved
  dsimp only
  split
  · exact .inl rfl
  · exact .inr ⟨_, _, _, _, (((Raises.refl _).raise_if _ _ _).raise_if _ _ _).raise_if _ _ _, rfl⟩

/-- What follows a move of NEXT leaves NEXT and the high-water values. -/
theorem State.nextMoved_spec (s : State) (h : Nat) :
    (∃ st w l, (s.nextMoved h).sa h = { s.sa h with status := st, warned := w, lowWarned := l }) ∧
      (s.nextMoved h).assoc.high = s.assoc.high ∧ KeepsLease s (s.nextMoved h) := by
  rcases s.nextMoved_eq h with hsame | ⟨st, w, l, u, hraises, heq⟩
  · rw [hsame]
    exact ⟨⟨_, _, _, rfl⟩, rfl, ⟨rfl, rfl, rfl⟩⟩
  · obtain ⟨st', hsa⟩ := u.atCeiling_sa h
    obtain ⟨hhigh, hkeep⟩ := u.atCeiling_high h
    rw [State.sa_congr hraises.assoc, State.sa_setSa] at hsa
    rw [heq]
    refine ⟨⟨st', w, l, hsa⟩, ?_, (s.setSa_keepsLease h _).trans (hraises.keepsLease.trans hkeep)⟩
    rw [hhigh, hraises.assoc]
    rfl

theorem State.noteTaken_spec (s : State) (dk : Nat) (g : BitVec 32) (v : Nat) :
    (∀ h, (s.noteTaken dk g v).sa h = s.sa h) ∧ KeepsLease s (s.noteTaken dk g v) ∧
      (g = (s.slot (slotKey 0 dk)).gen → ∃ w, (s.noteTaken dk g v).assoc.high.lookup dk = some (g, w) ∧ v + 1 ≤ w) := by
  unfold State.noteTaken
  split
  · exact ⟨fun _ => rfl, ⟨rfl, rfl, rfl⟩, fun _ => ⟨_, lookup_tins _ _ _, le_max_left _ _⟩⟩
  · rename_i hne
    exact ⟨fun _ => rfl, ⟨rfl, rfl, rfl⟩, fun hg => absurd hg hne⟩

/-- A value given: under a valid lease, not past the last value, and taken. -/
theorem State.pnValue_value {v n : Nat} (hval : (s.pnValue h dk g v).1 = .value n) :
    n = v ∧ n ≤ (s.sa h).lastValue ∧ s.twin.lease ≠ .handover ∧
      ((s.pnValue h dk g v).2.sa h).next = BitVec.ofNat 64 (n + 1) ∧ n < ((s.pnValue h dk g v).2.sa h).nextN ∧
      (g = (s.slot (slotKey 0 dk)).gen → ∃ w, (s.pnValue h dk g v).2.highWater dk = some w ∧ n + 1 ≤ w) := by
  unfold State.pnValue at hval ⊢
  dsimp only at hval ⊢
  split at hval
  · cases hval
  · rename_i hlast
    rw [if_neg hlast]
    split at hval
    · cases hval
    · rename_i hceil
      rw [if_neg hceil]
      split at hval
      · split at hval <;> cases hval
      · rename_i htwin
        rw [if_neg htwin]
        obtain rfl : v = n := by injection hval
        have hle : v ≤ (s.sa h).lastValue := Nat.not_lt.mp hlast
        generalize hx : s.setSa h { (s.sa h).setNext (v + 1) with twinHeld := false } = x
        have hxsa : x.sa h = { (s.sa h).setNext (v + 1) with twinHeld := false } := by rw [← hx, State.sa_setSa]
        have hxkeep : KeepsLease s x := by rw [← hx]; exact s.setSa_keepsLease h _
        obtain ⟨hnsa, hnkeep, hnhigh⟩ := x.noteTaken_spec dk g v
        obtain ⟨⟨st, w, l, hmsa⟩, hmhigh, hmkeep⟩ := (x.noteTaken dk g v).nextMoved_spec h
        rw [hnsa, hxsa] at hmsa
        refine ⟨rfl, hle, fun hh => htwin (.inl hh), ?_, ?_, fun hg => ?_⟩
        · rw [hmsa]
          rfl
        · rw [hmsa]
          exact Assoc.lt_nextN_setNext hle
        · obtain ⟨w, hlook, hw⟩ := hnhigh (hg.trans (by rw [hxkeep.slot]))
          refine ⟨w, ?_, hw⟩
          rw [State.highWater, hmhigh, hlook, (hxkeep.trans (hnkeep.trans hmkeep)).slot]
          exact if_pos hg

/-- What a given value says: the switch it may have waited for did not take place. -/
theorem State.pnTake_value {n : Nat} (hval : (s.pnTake h ph dk g).1 = .value n) :
    n = (s.sa h).nextN ∧ n ≤ (s.sa h).lastValue ∧ s.leaseValid = true ∧ s.twin.lease ≠ .handover ∧
      ((s.pnTake h ph dk g).2.sa h).next = BitVec.ofNat 64 (n + 1) ∧ n < ((s.pnTake h ph dk g).2.sa h).nextN ∧
      (g = (s.slot (slotKey 0 dk)).gen → ∃ w, (s.pnTake h ph dk g).2.highWater dk = some w ∧ n + 1 ≤ w) := by
  by_cases hlease : s.leaseValid = true ∨ s.twin.lease = .handover
  · by_cases hpast : (s.sa h).past ph
    · rw [State.pnTake_past hlease hpast] at hval
      cases hval
    · have hno : (s.sa h).switchDue → (s.dueSwitch h).1 = false := fun hdue => by
        by_contra hyes
        rw [State.pnTake_switches hlease hpast hdue (Bool.eq_true_of_not_eq_false hyes)] at hval
        cases hval
      obtain ⟨u, htake, hkeep, hlast, -⟩ := State.pnTake_rest (dk := dk) (g := g) hlease hpast hno
      rw [htake] at hval ⊢
      obtain ⟨hn, hle, hhand, hnext, hlt, hhigh⟩ := State.pnValue_value hval
      rw [hlast] at hle
      rw [hkeep.twin] at hhand
      refine ⟨hn, hle, hlease.resolve_right hhand, hhand, hnext, hlt, fun hg => hhigh ?_⟩
      rw [hkeep.slot, hg]
  · rw [State.pnTake_noLease hlease] at hval
    cases hval

end

/-- Settles O48: the reasons in the order of log entry 18, then the value. -/
theorem counterValuesAreTakenOnce : Obligations.CounterValuesAreTakenOnce := by
  refine ⟨fun s h dk ph g => ⟨fun n => State.pnTake_value, State.pnTake_noLease, State.pnTake_past, State.pnTake_switches, ?_, ?_⟩,
    fun s c h slot ph g => ⟨fun v hv => ?_, fun why hwhy => ?_⟩⟩
  · intro hlease hpast hdue hlast
    obtain ⟨u, htake, -, -, hsame⟩ := State.pnTake_rest (dk := dk) (g := g) hlease hpast fun hd => absurd hd hdue
    rw [htake, hsame hdue]
    exact if_pos hlast
  · intro hlease hpast hdue hlast hset hceil
    obtain ⟨u, htake, -, -, hsame⟩ := State.pnTake_rest (dk := dk) (g := g) hlease hpast fun hd => absurd hd hdue
    rw [htake, hsame hdue]
    exact (if_neg (Nat.not_lt.mpr hlast)).trans (if_pos ⟨hset, hceil⟩)
  · rw [State.takePn]
    generalize s.pnTake h ph (keyIndex slot) g = q at hv ⊢
    obtain ⟨_, u⟩ := q
    cases hv
    rfl
  · rw [State.takePn]
    generalize s.pnTake h ph (keyIndex slot) g = q at hwhy ⊢
    obtain ⟨_, u⟩ := q
    cases hwhy
    rfl

end Sys2Proof.Machine
end

section
namespace Sys2Proof.Machine

/-! Words that do not issue their row's effect (R214, R215, R237, R239, R241, R243, R244). -/

/-- What row c, with the opcodes ops, does with a word of the thread of i that does not issue. -/
def PassesWords (i : Issue) (s : State) (c : Instr × List Nat) : Prop :=
  let cl := i.t.cl
  let k := i.t.key
  let u := s.wake cl
  let t := u.thread cl k
  let w := u.fetch cl t.high t.pc
  let x := Ins.of w
  let second := u.pairsNow cl k t.pc w
  let turn := t.mode = .ready ∧ u.eligibleThread cl k = true ∧ (second = true ∨ u.chosen cl (k / 8) = some k)
  let v := if i.imem = .corrected then (u.count (cid 0x05 0 cl)).raiseOnce 0x185 0 [BitVec.ofNat 8 cl] else u
  let mine := x.op ∈ c.2
  (¬ turn → exec c.1 s = .next u) ∧
  (turn → i.imem = .uncorrectable → exec c.1 s = .next ((u.noteIssue cl k t.pc w second).faultThread cl k .imemEcc)) ∧
  (turn → i.imem ≠ .uncorrectable →
    (x.legal cl = false → exec c.1 s = .next ((v.noteIssue cl k t.pc w second).faultThread cl k .illegal)) ∧
    (x.legal cl = true → ¬ mine → exec c.1 s = .next u) ∧
    (x.legal cl = true → mine → v.mustWait cl k x = true → exec c.1 s = .next (v.holdThread cl k)) ∧
    (x.legal cl = true → mine → v.mustWait cl k x = false → t.guardOk x = false →
      exec c.1 s = .next ((v.noteIssue cl k t.pc w second).modThread cl k fun y => { y with pc := y.pc + 1 })))

/-- Every row of the instruction set is an issue of its opcodes, which decides all this before the row's own effect. -/
theorem PassesWords.of_issue {i : Issue} {s : State} {n : Instr} {ops : List Nat} {body : Nat → Nat → Ins → State → Act}
    (h : exec n s = .next (s.issue i ops body)) : PassesWords i s (n, ops) := by
  unfold PassesWords
  intro cl k u t w x second turn v mine
  have hturn : (t.mode ≠ .ready ∨ !(u.eligibleThread cl k) ∨ !(second || u.chosen cl (k / 8) == some k)) ↔ ¬ turn := by
    simp only [turn, Bool.not_eq_true', Bool.or_eq_false_iff, beq_eq_false_iff_ne, ne_eq, not_and_or, not_or, Bool.not_eq_true]
  have hown : mine → ¬ (x.legal cl ∧ !(ops.contains x.op)) := fun hop hno => by
    simp only [List.contains_iff_mem.mpr (show x.op ∈ ops from hop), Bool.not_true, Bool.false_eq_true, and_false] at hno
  have hrun : turn → i.imem ≠ .uncorrectable → s.issue i ops body =
      if x.legal cl ∧ !(ops.contains x.op) then u
      else if !x.legal cl then (v.noteIssue cl k t.pc w second).faultThread cl k .illegal
      else if v.mustWait cl k x then v.holdThread cl k
      else if !t.guardOk x then (v.noteIssue cl k t.pc w second).advance cl k
      else (body cl k x (v.noteIssue cl k t.pc w second)).settle cl k x (t.gr x.a) :=
    fun ht hword => (if_neg fun hno => hturn.mp hno ht).trans (if_neg hword)
  refine ⟨fun hno => h.trans (congrArg Host.Outcome.next (if_pos (hturn.mpr hno))), fun ht hword =>
    h.trans (congrArg Host.Outcome.next ((if_neg fun hno => hturn.mp hno ht).trans (if_pos hword))), fun ht hword => ⟨fun hlegal => ?_,
    fun hlegal hother => ?_, fun hlegal hop hwait => ?_, fun hlegal hop hwait hguard => ?_⟩⟩
  · simp [h, hrun ht hword, hlegal]
  · rw [h, hrun ht hword, if_pos ⟨hlegal, by simpa using hother⟩]
  · rw [h, hrun ht hword, if_neg (hown hop), if_neg (by rw [hlegal]; decide), if_pos hwait]
  · rw [h, hrun ht hword, if_neg (hown hop), if_neg (by rw [hlegal]; decide), if_neg (by rw [hwait]; decide), if_pos (by rw [hguard]; rfl),
      State.advance]

theorem forall_rows_of_issue {i : Issue} {s : State} {n : Instr} {ops : List Nat} {body : Nat → Nat → Ins → State → Act} {l : List (Instr × List Nat)}
    (h : exec n s = .next (s.issue i ops body)) (hl : ∀ c ∈ l, PassesWords i s c) : ∀ c ∈ (n, ops) :: l, PassesWords i s c :=
  List.forall_mem_cons.mpr ⟨.of_issue h, hl⟩

/-- Settles O44: each row of Table 10.3 is an issue of its opcodes. -/
theorem wordsFaultWaitOrPassTheirGuard : Obligations.WordsFaultWaitOrPassTheirGuard := by
  intro i e perr s
  show ∀ c ∈ (_ : List (Instr × List Nat)), PassesWords i s c
  repeat refine forall_rows_of_issue rfl ?_
  exact List.forall_mem_nil _

end Sys2Proof.Machine
end

section
namespace Sys2Proof.Machine

/-! A fill of memory (R402, R419, R571). -/

theorem cellAt_filter {p : Nat → Bool} (t : List Host.Cell) (a : Nat) :
    cellAt (t.filter fun c => p c.1) a = if p a then cellAt t a else none := by
  induction t with
  | nil => simp [cellAt]
  | cons c t ih =>
    obtain ⟨i, b⟩ := c
    by_cases hp : p i <;> by_cases ha : i = a
    · subst ha
      simp [cellAt, hp]
    · simp [cellAt, hp, ha, ih]
    · subst ha
      simp [hp, ih]
    · simp [cellAt, hp, ha, ih]

theorem Memory.fillAt_fill_inside {m : Memory} {f : FillRange} {a : Nat} (h : f.base ≤ a ∧ a < f.base + f.len) : (m.fill f).fillAt a = some f := by
  simp [Memory.fillAt, Memory.fill, h]

/-- The fills that go lie inside the new one: an address outside it reads the same fill. -/
theorem Memory.fillAt_fill_outside {m : Memory} {f : FillRange} {a : Nat} (h : ¬ (f.base ≤ a ∧ a < f.base + f.len)) :
    (m.fill f).fillAt a = m.fillAt a := by
  have hhead : (decide (f.base ≤ a) && decide (a < f.base + f.len)) = false := by simpa using h
  simp only [Memory.fillAt, Memory.fill, List.find?_cons, hhead]
  rw [find?_filter_of]
  intro g _ hg
  simp only [Bool.and_eq_true, decide_eq_true_eq] at hg
  simp only [Bool.not_eq_true', Bool.and_eq_false_iff, decide_eq_false_iff_not]
  omega

/-- Every byte of a filled range reads the pattern. -/
theorem Memory.byte_fill_inside {m : Memory} {f : FillRange} {p : BitVec 64} {a : Nat} (hp : f.pat = some p)
    (h : f.base ≤ a ∧ a < f.base + f.len) : (m.fill f).byte a = BitVec.ofNat 8 (p.toNat >>> (8 * (a % 8))) := by
  have hcell : cellAt (m.fill f).cells a = none := by
    refine (cellAt_filter (p := fun a => !(decide (f.base ≤ a) && decide (a < f.base + f.len))) m.cells a).trans ?_
    simp [h]
  rw [Memory.byte, hcell, Memory.unlisted, Memory.fillAt_fill_inside h]
  simp only [hp, Option.map_some]

theorem Memory.byte_fill_outside {m : Memory} {f : FillRange} {a : Nat} (h : ¬ (f.base ≤ a ∧ a < f.base + f.len)) :
    (m.fill f).byte a = m.byte a := by
  have hcell : cellAt (m.fill f).cells a = cellAt m.cells a := by
    refine (cellAt_filter (p := fun a => !(decide (f.base ≤ a) && decide (a < f.base + f.len))) m.cells a).trans (if_pos ?_)
    simp only [Bool.not_eq_true', Bool.and_eq_false_iff, decide_eq_false_iff_not]
    omega
  simp only [Memory.byte, hcell, Memory.unlisted, Memory.epochAt, Memory.fillAt_fill_outside h]

/-! CREATE (R399, R402, R506). -/

/-- The checks that every form of CREATE passes (R506). -/
def CreateFields (d : Desc) : Prop :=
  hullFieldsOk d = true ∧ d.get 8 1 = 0 ∧ d.get 11 1 ≤ 1 ∧ d.get 12 4 < 2 ^ 14 ∧ d.get 0x10 8 < 2 ^ 40 ∧ d.get 0x18 8 < 2 ^ 40 ∧
    0 < d.get 0x18 8 ∧ d.get 0x18 8 % 2 ^ 26 = 0 ∧ d.get 0x10 8 % 2 ^ 26 = 0

/-- The bytes of metadata of the region asked for (R409). -/
def createMeta (d : Desc) : Nat := if d.get 11 1 = 1 then metaBytes (d.get 0x18 8) else 0

/-- A region's base and size as its fields hold them. -/
theorem State.inRow_size {s : State} {m : MemKind} {a n : Nat} (h : s.inRow m a n = true) : n < 2 ^ 38 := by
  have h0 := s.hull.gib0.isLt
  have h1 := s.hull.gib1.isLt
  cases m
  · simp only [State.inRow, decide_eq_true_eq] at h
    omega
  · simp only [State.inRow, Bool.or_eq_true, Bool.and_eq_true, decide_eq_true_eq] at h
    omega

theorem field_of_unit {w n : Nat} (hmul : n % 2 ^ 26 = 0) (hlt : n < 2 ^ (26 + w)) : 2 ^ 26 * (BitVec.ofNat w (n / 2 ^ 26)).toNat = n := by
  have hdiv : n / 2 ^ 26 < 2 ^ w := Nat.div_lt_of_lt_mul (by rwa [← pow_add])
  rw [BitVec.toNat_ofNat, Nat.mod_eq_of_lt hdiv]
  omega

/-- The region that CREATE makes, under keys a and b. -/
def newRegion (d : Desc) (a b : HkHalf) : Region :=
  { Region.reset with
    integ := decide (d.get 11 1 = 1), rights := BitVec.ofNat 14 (d.get 12 4), base := BitVec.ofNat 14 (d.get 0x10 8 / 2 ^ 26)
    size := BitVec.ofNat 12 (d.get 0x18 8 / 2 ^ 26)
    metaBase := if decide (d.get 11 1 = 1) then BitVec.ofNat 18 (d.get 0x20 8 / 2 ^ 22) else 0
    metaSize := BitVec.ofNat 13 ((createMeta d) / 2 ^ 22), k1 := a, k2 := b }

/-- The part with the two keys of a new region drawn, and no line of it failing. -/
def State.keysDrawn (s : State) (base size : Nat) : State :=
  let s := s.drawHk.2.drawHk.2
  { s with hull := { s.hull with
      badLines := s.hull.badLines.filter fun e => !(base / 64 ≤ e.1 && e.1 < base / 64 + size / 64) } }

/-- The region without a fill is ACTIVE at once, over bytes that are free. -/
def State.created (s : State) (d : Desc) : State :=
  let v := s.keysDrawn (d.get 0x10 8) (d.get 0x18 8)
  let e := v.hull.epoch + 1
  let v := { v with
    hull := { v.hull with epoch := e }
    mem := v.mem.fill { base := d.get 0x10 8, len := d.get 0x18 8, pat := none, epoch := e } }
  (v.losePending (d.get 0x10 8) (d.get 0x18 8)).setRegion (hullKey d)
    { newRegion d s.drawHk.1 s.drawHk.2.drawHk.1 with state := .active }

/-- The region with a fill is INIT while it runs. -/
def State.createdInit (s : State) (d : Desc) : State :=
  (s.keysDrawn (d.get 0x10 8) (d.get 0x18 8)).setRegion (hullKey d)
    { newRegion d s.drawHk.1 s.drawHk.2.drawHk.1 with
      state := .init, work := some d, filling := some (0, d.get 0x18 8, BitVec.ofNat 64 (d.get 0x28 8)) }

/-- What refuses a CREATE by its fields alone (R506). -/
def CreateBad (d : Desc) : Prop :=
  let integ := d.get 11 1 = 1
  let fill := bitOf d.flags 0
  ¬ hullFieldsOk d ∨ d.get 8 1 ≠ 0 ∨ 1 < d.get 11 1 ∨ 2 ^ 14 ≤ d.get 12 4 ∨ (¬ fill ∧ d.get 0x28 8 ≠ 0) ∨ (integ ∧ ¬ fill) ∨
    2 ^ 40 ≤ d.get 0x10 8 ∨ 2 ^ 40 ≤ d.get 0x18 8 ∨ d.get 0x18 8 = 0 ∨ d.get 0x18 8 % 2 ^ 26 ≠ 0 ∨ d.get 0x10 8 % 2 ^ 26 ≠ 0 ∨
    (integ ∧ d.get 0x20 8 % 2 ^ 22 ≠ 0)

theorem CreateFields.not_bad {d : Desc} (h : CreateFields d) (hfill : bitOf d.flags 0 = false → d.get 11 1 ≠ 1 ∧ d.get 0x28 8 = 0)
    (hmeta : d.get 11 1 = 1 → d.get 0x20 8 % 2 ^ 22 = 0) : ¬ CreateBad d := by
  obtain ⟨hok, hform, hinteg, hrights, hbase, hsize, hpos, hsmul, hbmul⟩ := h
  rintro (h | h | h | h | ⟨h, h'⟩ | ⟨h, h'⟩ | h | h | h | h | h | ⟨h, h'⟩)
  · exact h hok
  · exact h hform
  · omega
  · omega
  · exact h' (hfill (Bool.eq_false_iff.mpr h)).2
  · exact (hfill (Bool.eq_false_iff.mpr h')).1 h
  · omega
  · omega
  · omega
  · exact h hsmul
  · exact h hbmul
  · exact h' (hmeta h)

theorem hullCreateBody_of_bad {d : Desc} (h : CreateBad d) (s : State) : hullCreateBody d s = s.done d .badRequest := if_pos h

theorem hullCreateBody_of_stopped {d : Desc} {s : State} (h : ¬ CreateBad d) (hserve : s.axis.serving = false) : hullCreateBody d s = s.done d .busy :=
  (if_neg h).trans (if_pos (by rw [hserve]; decide))

theorem hullCreateBody_of_clash {d : Desc} {s : State} (h : ¬ CreateBad d) (hserve : s.axis.serving = true)
    (hclash : (s.region (hullKey d)).state ≠ .off ∨
      s.geometryOk (hullMem d) (d.get 0x10 8) (d.get 0x18 8) (d.get 0x20 8) (createMeta d) = false) : hullCreateBody d s = s.done d .badRequest :=
  (if_neg h).trans ((if_neg (by rw [hserve]; decide)).trans (if_pos (hclash.imp_right Bool.eq_false_iff.mp)))

theorem hullCreateBody_of_admitted {d : Desc} {s : State} (h : ¬ CreateBad d) (hserve : s.axis.serving = true)
    (hoff : (s.region (hullKey d)).state = .off)
    (hgeo : s.geometryOk (hullMem d) (d.get 0x10 8) (d.get 0x18 8) (d.get 0x20 8) (createMeta d) = true) :
    hullCreateBody d s = if bitOf d.flags 0 then s.createdInit d else (s.created d).complete d { status := .ok, r0 := createMeta d } := by
  refine (if_neg h).trans ((if_neg (by rw [hserve]; decide)).trans ((if_neg ?_).trans ?_))
  · rintro (hstate | hno)
    · exact hstate hoff
    · exact hno hgeo
  · cases bitOf d.flags 0 <;> rfl

theorem newRegion_lo {d : Desc} (h : CreateFields d) (a b : HkHalf) : (newRegion d a b).lo = d.get 0x10 8 := by
  obtain ⟨-, -, -, -, hbase, -, -, -, hbmul⟩ := h
  exact field_of_unit hbmul hbase

theorem newRegion_bytes {d : Desc} (h : CreateFields d) (hlt : d.get 0x18 8 < 2 ^ 38) (a b : HkHalf) :
    (newRegion d a b).bytes = d.get 0x18 8 := by
  obtain ⟨-, -, -, -, -, -, -, hsmul, -⟩ := h
  exact field_of_unit hsmul hlt

theorem exec_hullRegionCreate_accepted {d : Desc} {s s0 : State} (h : Accepted d 1 [(8, 8), (0x10, 32)] s s0) :
    exec (.hullRegionCreate d) s = .next (hullCreateBody d s0) := by
  show execHullRegionCreate d s = _
  rw [execHullRegionCreate, ringCommand_accepts h]

/-! RIGHTS, FILL and DELETE (R402, R406, R419). -/

theorem exec_hullRegionRights_accepted {d : Desc} {s s0 : State} (h : Accepted d 0 [(8, 3), (12, 4)] s s0) :
    exec (.hullRegionRights d) s = .next (hullRightsBody d s0) := by
  show execHullRegionRights d s = _
  rw [execHullRegionRights, ringCommand_accepts h]

theorem exec_hullRegionFill_accepted {d : Desc} {s s0 : State} (h : Accepted d 0 [(8, 3), (0x10, 16), (0x28, 8)] s s0) :
    exec (.hullRegionFill d) s = .next (hullFillBody d s0) := by
  show execHullRegionFill d s = _
  rw [execHullRegionFill, ringCommand_accepts h]

theorem exec_hullRegionDelete_accepted {d : Desc} {s s0 : State} (h : Accepted d 0 [(8, 3)] s s0) :
    exec (.hullRegionDelete d) s = .next (hullDeleteBody d s0) := by
  show execHullRegionDelete d s = _
  rw [execHullRegionDelete, ringCommand_accepts h]

theorem hullRightsBody_eq {d : Desc} {s : State} (hok : hullFieldsOk d = true) (hform : d.get 8 1 = 1) (hrights : d.get 12 4 < 2 ^ 14) :
    hullRightsBody d s = if (s.region (hullKey d)).state = .off then s.done d .regionOff
      else (s.setRegion (hullKey d) { s.region (hullKey d) with rights := BitVec.ofNat 14 (d.get 12 4) }).done d .ok :=
  if_neg fun h => h.elim (fun h => h hok) fun h => h.elim (fun h => h hform) (Nat.not_le.mpr hrights)

theorem hullFillBody_eq {d : Desc} {s : State} (hok : hullFieldsOk d = true) (hform : d.get 8 1 = 2) (hoff : d.get 0x10 8 % 64 = 0)
    (hlen : d.get 0x18 8 % 64 = 0) (hpos : 0 < d.get 0x18 8) :
    hullFillBody d s = if (s.region (hullKey d)).state = .off then s.done d .regionOff
      else if (s.region (hullKey d)).work.isSome then s.done d .busy
      else if (s.region (hullKey d)).bytes < d.get 0x10 8 + d.get 0x18 8 ∨ s.cutsTaint (hullKey d) (d.get 0x10 8) (d.get 0x18 8) then
        s.done d .badRequest
      else s.setRegion (hullKey d) { s.region (hullKey d) with
        work := some d, filling := some (d.get 0x10 8, d.get 0x18 8, BitVec.ofNat 64 (d.get 0x28 8)) } := by
  refine if_neg ?_
  rintro (h | h | h | h | h)
  · exact h hok
  · exact h hform
  · exact h hoff
  · exact h hlen
  · omega

theorem hullDeleteBody_eq {d : Desc} {s : State} (hok : hullFieldsOk d = true) (hform : d.get 8 1 = 3) :
    hullDeleteBody d s = if (s.region (hullKey d)).state = .off then s.done d .regionOff
      else if (s.region (hullKey d)).work.isSome then s.done d .busy
      else s.setRegion (hullKey d) { s.region (hullKey d) with deleting := true, work := some d } :=
  if_neg fun h => h.elim (fun h => h hok) fun h => h hform

/-! The ends of fills and deletes (R400, R402, R419). -/

theorem exec_deleteDrainEnd_eq (m : MemKind) (n : Fin 16) (s : State) :
    exec (.deleteDrainEnd m n) s =
      if (s.region (regionKey m n.val)).deleting then
        .next (((s.setRegion (regionKey m n.val) Region.reset).dropTaints (·.region == regionKey m n.val)).workDone
          (s.region (regionKey m n.val)).work { status := .ok })
      else .next s := rfl

theorem exec_fillComplete_some {m : MemKind} {n : Fin 16} {s : State} {off len : Nat} {p : BitVec 64}
    (h : (s.region (regionKey m n.val)).filling = some (off, len, p)) :
    exec (.fillComplete m n) s = .next ((s.applyFill (regionKey m n.val) off len p).workDone (s.region (regionKey m n.val)).work
      { status := .ok, r0 := if (s.region (regionKey m n.val)).state = .init then (s.region (regionKey m n.val)).metaLen else 0 }) := by
  show execFillComplete m n s = _
  rw [execFillComplete, h]

theorem exec_fillComplete_none {m : MemKind} {n : Fin 16} {s : State} (h : (s.region (regionKey m n.val)).filling = none) :
    exec (.fillComplete m n) s = .next s := by
  show execFillComplete m n s = _
  rw [execFillComplete, h]

theorem State.applyFill_mem (s : State) (k off len : Nat) (p : BitVec 64) :
    (s.applyFill k off len p).mem = s.mem.fill { base := (s.region k).lo + off, len := len, pat := some p, epoch := 0 } := rfl

theorem State.applyFill_frame (s : State) (k off len : Nat) (p : BitVec 64) :
    s.applyFill k off len p = { s with
      mem := (s.applyFill k off len p).mem, hull := (s.applyFill k off len p).hull
      radius := { s.radius with store := (s.applyFill k off len p).radius.store } } := rfl

theorem State.applyFill_store {s : State} {k off len : Nat} {p : BitVec 64} {e : StoreEntry} (h : e ∈ (s.applyFill k off len p).radius.store) :
    e ∈ s.radius.store := (List.mem_filter.mp h).1

/-- A region that was INIT is ACTIVE with the end of its fill. -/
theorem State.applyFill_active {s : State} {k off len : Nat} {p : BitVec 64} (h : (s.region k).state = .init) :
    ((s.applyFill k off len p).region k).state = .active := by
  refine (congrArg Region.state (State.region_setRegion _ k _)).trans (if_pos (.inl h))

/-- Settles O16: the commands by their checks, then the ends of fills and deletes. -/
theorem regionsAreCreatedFilledAndDeleted : Obligations.RegionsAreCreatedFilledAndDeleted := by
  refine ⟨fun d s s0 hok => ⟨fun h hform hinteg hrights hbase hsize hpos hsmul hbmul => ?_, fun h hform hrights => ?_,
    fun h hform hoff hlen hpos => ?_, fun h hform => ?_⟩, fun s m n => ⟨fun hdel => ?_, fun hno => ?_, fun off len p hfill => ?_,
    exec_fillComplete_none⟩⟩
  · have hfields : CreateFields d := ⟨hok, hform, hinteg, hrights, hbase, hsize, hpos, hsmul, hbmul⟩
    rw [exec_hullRegionCreate_accepted h]
    refine ⟨fun hserve hstate hgeo => ⟨fun hplain hnofill hpat => ?_, fun hfill hmeta => ?_⟩, fun hfill hmeta => ⟨fun hstop => ?_,
      fun hserve hclash => ?_⟩, fun hnofill hbad => ?_⟩
    · have hgood : ¬ CreateBad d := hfields.not_bad (fun _ => ⟨by omega, hpat⟩) fun h1 => absurd h1 (by omega)
      have hrow : s0.inRow (hullMem d) (d.get 0x10 8) (d.get 0x18 8) = true := by
        simp only [State.geometryOk, Bool.and_eq_true] at hgeo
        exact hgeo.1.1
      have hmetalen : (createMeta d) = 0 := if_neg (by omega)
      refine ⟨s0.created d, ?_, ?_⟩
      · rw [hullCreateBody_of_admitted hgood hserve hstate hgeo, hnofill, hmetalen]
        rfl
      · have hregion : (s0.created d).region (hullKey d) = _ := State.region_setRegion _ _ _
        rw [hregion]
        exact ⟨rfl, newRegion_lo hfields s0.drawHk.1 s0.drawHk.2.drawHk.1,
          newRegion_bytes hfields (State.inRow_size hrow) s0.drawHk.1 s0.drawHk.2.drawHk.1, decide_eq_false (by omega), rfl,
          fun j hj => State.region_setRegion_ne _ hj _, rfl⟩
    · have hgood : ¬ CreateBad d := hfields.not_bad (fun hno => absurd (hno.symm.trans hfill) Bool.false_ne_true) hmeta
      refine ⟨s0.createdInit d, ?_, ?_⟩
      · rw [hullCreateBody_of_admitted hgood hserve hstate hgeo, hfill]
        rfl
      · have hregion : (s0.createdInit d).region (hullKey d) = _ := State.region_setRegion _ _ _
        rw [hregion]
        exact ⟨rfl, rfl, rfl, rfl, fun j hj => State.region_setRegion_ne _ hj _, rfl⟩
    · rw [hullCreateBody_of_stopped (hfields.not_bad (fun hno => absurd (hno.symm.trans hfill) Bool.false_ne_true) hmeta) hstop]
    · rw [hullCreateBody_of_clash (hfields.not_bad (fun hno => absurd (hno.symm.trans hfill) Bool.false_ne_true) hmeta) hserve hclash]
    · have hno : ¬ (bitOf d.flags 0 = true) := Bool.eq_false_iff.mp hnofill
      have hcreate : CreateBad d := hbad.elim (fun h1 => .inr (.inr (.inr (.inr (.inr (.inl ⟨h1, hno⟩))))))
        fun h1 => .inr (.inr (.inr (.inr (.inl ⟨hno, h1⟩))))
      rw [hullCreateBody_of_bad hcreate]
  · rw [exec_hullRegionRights_accepted h, hullRightsBody_eq hok hform hrights]
    exact ⟨fun hon => congrArg Host.Outcome.next (if_neg hon), fun hoff => congrArg Host.Outcome.next (if_pos hoff)⟩
  · rw [exec_hullRegionFill_accepted h, hullFillBody_eq hok hform hoff hlen hpos]
    refine ⟨fun hst => ?_, fun hst hwork => ?_, fun hst hwork hbad => ?_, fun hst hwork hin htaint => ?_⟩
    · rw [if_pos hst]
    · rw [if_neg hst, if_pos (Option.isSome_iff_ne_none.mpr hwork)]
    · rw [if_neg hst, if_neg (by rw [hwork]; decide), if_pos hbad]
    · rw [if_neg hst, if_neg (by rw [hwork]; decide), if_neg]
      rintro (hlt | hcut)
      · omega
      · exact Bool.false_ne_true (htaint.symm.trans hcut)
  · rw [exec_hullRegionDelete_accepted h, hullDeleteBody_eq hok hform]
    refine ⟨fun hst hwork => ?_, fun hst hwork => ?_, fun hst => ?_⟩
    · rw [if_neg hst, if_neg (by rw [hwork]; decide)]
    · rw [if_neg hst, if_pos (Option.isSome_iff_ne_none.mpr hwork)]
    · rw [if_pos hst]
  · rw [exec_deleteDrainEnd_eq, if_pos hdel]
  · rw [exec_deleteDrainEnd_eq, if_neg (Bool.eq_false_iff.mp hno)]
  · refine ⟨s.applyFill (regionKey m n.val) off len p, exec_fillComplete_some hfill, fun a hlo hhi => ?_, fun a hout => ?_,
      State.applyFill_active, s.applyFill_frame _ _ _ _, fun e => State.applyFill_store⟩
    · rw [State.applyFill_mem, Memory.byte_fill_inside rfl ⟨hlo, hhi⟩]
    · rw [State.applyFill_mem, Memory.byte_fill_outside hout]

end Sys2Proof.Machine
end

section
namespace Sys2Proof.Machine

/-! REKEY, re-encryption passes and the patrol scrub (R398, R412, R420). -/

theorem exec_hullRekey_accepted {d : Desc} {s s0 : State} (h : Accepted d 0 [(9, 2)] s s0) : exec (.hullRekey d) s = .next (hullRekeyBody d s0) := by
  show execHullRekey d s = _
  rw [execHullRekey, ringCommand_accepts h]

/-- The region in REKEY, with new keys in the pending halves. -/
def Region.rekeyed (r : Region) (d : Desc) (k1 k2 : HkHalf) : Region :=
  { r with state := .rekey, rekeyReadOnly := decide (r.state = .readOnly), nk1 := k1, nk2 := k2, work := some d, rekeyPoisoned := 0 }

theorem hullRekeyBody_eq {d : Desc} {s : State} (hok : hullFieldsOk d = true) :
    hullRekeyBody d s =
      if (s.region (hullKey d)).state = .off then s.done d .regionOff
      else if (s.region (hullKey d)).state = .tainted ∨ (s.taints (hullKey d)).any (·.region == hullKey d) then s.done d .tainted
      else if (s.region (hullKey d)).work.isSome ∨ ¬ s.axis.serving then s.done d .busy
      else s.drawHk.2.drawHk.2.setRegion (hullKey d) ((s.region (hullKey d)).rekeyed d s.drawHk.1 s.drawHk.2.drawHk.1) :=
  if_neg (not_not.mpr hok)

/-- The lines of a rekeyed region that had failed: they are poisoned (R420). -/
def State.rekeyBad (s : State) (reg : Region) : Nat :=
  (if reg.integ then s.hull.badLines.filter fun e => reg.lo / 64 ≤ e.1 && e.1 < reg.lo / 64 + reg.bytes / 64 else []).length

/-- The part with region k's new keys in force, before event 0x204. -/
def State.rekeyDone (s : State) (k : Nat) : State :=
  let reg := s.region k
  let lo := reg.lo / 64
  let u := s.countN (cid 0x0C 1 k) (s.rekeyBad reg)
  let u := { u with hull := { u.hull with badLines := u.hull.badLines.map fun (e : Nat × LineFault) =>
      if reg.integ ∧ lo ≤ e.1 ∧ e.1 < lo + reg.bytes / 64 then (e.1, .poisoned) else e } }
  u.setRegion k { reg with
    state := if reg.state = .tainted then .tainted else .active
    k1 := reg.nk1, k2 := reg.nk2, nk1 := HkHalf.reset, nk2 := HkHalf.reset, leaves := [], upper := [], dirty := [], rekeyReadOnly := false
    rekeyPoisoned := s.rekeyBad reg, work := none }

theorem exec_rekeyComplete_eq (m : MemKind) (n : Fin 16) (s : State) :
    exec (.rekeyComplete m n) s =
      let reg := s.region (regionKey m n.val)
      if reg.state = .rekey ∨ (reg.state = .tainted ∧ reg.work.isSome ∧ reg.filling.isNone ∧ !reg.deleting) then
        .next (((s.rekeyDone (regionKey m n.val)).raise 0x204 (BitVec.ofNat 8 (regionKey m n.val) :: le 4 (s.rekeyBad reg))).workDone reg.work
          { status := .ok, r0 := s.rekeyBad reg })
      else .next s := rfl

theorem State.rekeyDone_mem (s : State) (k : Nat) : (s.rekeyDone k).mem = s.mem := by
  show (s.countN _ _).mem = s.mem
  rw [(s.countN_reports _ _).frame]

/-- Every line of a region with integrity that had failed reads as poisoned. -/
theorem State.rekeyDone_poisoned {s : State} {k : Nat} (hinteg : (s.region k).integ = true) {e : Nat × LineFault}
    (he : e ∈ (s.rekeyDone k).hull.badLines)
    (hin : (s.region k).lo / 64 ≤ e.1 ∧ e.1 < (s.region k).lo / 64 + (s.region k).bytes / 64) : e.2 = .poisoned := by
  obtain ⟨x, -, rfl⟩ := List.mem_map.mp he
  split at hin
  · rename_i hpoison
    rw [if_pos hpoison]
  · rename_i hout
    exact absurd ⟨hinteg, hin⟩ hout

theorem State.rekeyBad_eq (s : State) (r : Region) :
    s.rekeyBad r = if r.integ then
      (s.hull.badLines.filter fun e : Nat × LineFault => decide (r.lo / 64 ≤ e.1 ∧ e.1 < r.lo / 64 + r.bytes / 64)).length else 0 := by
  rw [State.rekeyBad]
  cases r.integ
  · rfl
  · simp only [if_true, Bool.decide_and]

theorem exec_minorOverflowPassEnd_eq (m : MemKind) (n : Fin 16) (ns : Nat) (s : State) :
    exec (.minorOverflowPassEnd m n ns) s =
      let reg := s.region (regionKey m n.val)
      if reg.overflowPass.isEmpty then .next s
      else .next ((s.setRegion (regionKey m n.val) { reg with overflowPass := reg.overflowPass.dropLast }).countN
        (cid 0x0C 3 (regionKey m n.val)) ns) := rfl

theorem exec_patrolScrub_eq (a : BitVec 40) (e : Ecc) (s : State) :
    exec (.patrolScrub a e) s = if s.halted then .next s else
      if (s.memAt a.toNat).isSome then .next (s.eccSeen a.toNat e) else .next s := rfl

theorem exec_patrolScrub_idle {a : BitVec 40} {e : Ecc} {s : State} (h : e = .clean ∨ s.memAt a.toNat = none) :
    exec (.patrolScrub a e) s = .next s := by
  rw [exec_patrolScrub_eq]
  rcases h with rfl | hnone
  · exact (if_congr Iff.rfl rfl (ite_self _)).trans (ite_self _)
  · rw [hnone]
    exact ite_self _

theorem exec_patrolScrub_finds {a : BitVec 40} {e : Ecc} {s : State} (hrun : s.halted = false) (hmem : s.memAt a.toNat ≠ none) :
    exec (.patrolScrub a e) s = .next (s.eccSeen a.toNat e) := by
  rw [exec_patrolScrub_eq, hrun, if_neg Bool.false_ne_true, if_pos (Option.isSome_iff_ne_none.mpr hmem)]

/-- An uncorrectable word in a line of a region with integrity fails the line (R417). -/
theorem State.wordLost_integ {s : State} {a k : Nat} (hk : s.regionAt a = some k) (hinteg : (s.region k).integ = true) :
    s.wordLost a = { s with hull := { s.hull with badLines := tins s.hull.badLines (a / 64) .ecc } } := by
  rw [State.wordLost, hk]
  exact if_pos hinteg

/-- What a scrub that finds an uncorrectable word counts and raises. -/
theorem State.eccSeen_uncorrectable (s : State) (a : Nat) : ∃ u : State, s.eccSeen a .uncorrectable = u.wordLost a ∧ Reports s u :=
  ⟨_, rfl, (s.count_reports _).trans (State.raise_raises _ _ _).toReports⟩

theorem State.scrub_loses_line {s : State} {a k : Nat} (hk : s.regionAt a = some k) (hinteg : (s.region k).integ = true) :
    (s.eccSeen a .uncorrectable).hull.badLines = tins s.hull.badLines (a / 64) .ecc ∧ (s.eccSeen a .uncorrectable).mem = s.mem := by
  obtain ⟨u, heq, hreports⟩ := s.eccSeen_uncorrectable a
  have hhull : u.hull = s.hull := by rw [hreports.frame]
  have hmem : u.mem = s.mem := by rw [hreports.frame]
  have hk' : u.regionAt a = some k := by simpa only [State.regionAt, hhull] using hk
  have hinteg' : (u.region k).integ = true := by simpa only [State.region, hhull] using hinteg
  rw [heq, State.wordLost_integ hk' hinteg', ← hmem, ← hhull]
  exact ⟨rfl, rfl⟩

/-- Settles O17, row by row. -/
theorem rekeyAndScrubRows : Obligations.RekeyAndScrubRows := by
  intro s s0
  refine ⟨fun d h hok => ?_, fun m n => ⟨fun hrekey => ?_, fun hno hwork => ?_, fun ns hpass => ?_, fun ns hpass => ?_⟩,
    fun a e => exec_patrolScrub_idle, fun a hrun hmem => exec_patrolScrub_finds hrun hmem, fun a k hrun hmem hk hinteg => ?_⟩
  · rw [exec_hullRekey_accepted h, hullRekeyBody_eq hok]
    refine ⟨fun hoff => ?_, fun hon htaint => ?_, fun hon hstate htaint hbusy => ?_, fun hon hstate htaint hwork hserve => ?_⟩
    · rw [if_pos hoff]
    · rw [if_neg hon, if_pos htaint]
    · rw [if_neg hon, if_neg (not_or.mpr ⟨hstate, Bool.eq_false_iff.mp htaint⟩),
        if_pos (hbusy.imp Option.isSome_iff_ne_none.mpr Bool.eq_false_iff.mp)]
    · rw [if_neg hon, if_neg (not_or.mpr ⟨hstate, Bool.eq_false_iff.mp htaint⟩), if_neg (by rw [hwork, hserve]; decide)]
      exact ⟨_, _, _, rfl, State.region_setRegion _ _ _, fun j hj => State.region_setRegion_ne _ hj _, rfl⟩
  · refine ⟨s.rekeyDone (regionKey m n.val), ?_, ?_, s.rekeyDone_mem _, fun hinteg e he hin =>
      State.rekeyDone_poisoned hinteg he (of_decide_eq_true hin)⟩
    · rw [← State.rekeyBad_eq]
      exact (exec_rekeyComplete_eq m n s).trans (if_pos (.inl hrekey))
    · refine (State.region_setRegion _ _ _).trans ?_
      rw [← State.rekeyBad_eq, if_neg (by rw [hrekey]; decide)]
  · rw [exec_rekeyComplete_eq]
    refine if_neg ?_
    rintro (hstate | ⟨hstate, hsome, -⟩)
    · exact hno hstate
    · exact hwork.elim (fun h => h hstate) fun h => by
        rw [h] at hsome
        cases hsome
  · rw [exec_minorOverflowPassEnd_eq]
    exact if_neg (by simpa using hpass)
  · rw [exec_minorOverflowPassEnd_eq]
    exact if_pos (by simpa using hpass)
  · exact ⟨_, exec_patrolScrub_finds hrun hmem, State.scrub_loses_line hk hinteg⟩

end Sys2Proof.Machine
end

section
namespace Sys2Proof.Machine

/-! Management ports (R451, R478, R479, Tables 20.9, 20.22, 20.24). -/

theorem exec_mgmtDoorbell_running {m : Fin 4} {v : Word32} {s : State} (hrun : s.halted = false) (hstate : (s.ring .management m.val).state = .running) :
    exec (.mgmtDoorbell m v) s = .next (
      let x := s.ring .management m.val
      let p := BitVec.ofNat 17 v.toNat
      if m.val % 2 = 0 then
        if x.cap < idxDiff p x.pi then s.ringError .management m.val 1
        else { s with rings := { s.rings with mgmtPi := tput 0 s.rings.mgmtPi m.val p } }
      else if x.cap < idxDiff p x.ci then s.ringError .management m.val 1
      else if bitOf (s.mgmtCfg (m.val / 2)) 31 then
        State.mgmtSendGo (m.val / 2) (idxDiff p x.ci) (s.setRing .management m.val { x with pi := p })
      else s.setRing .management m.val { x with pi := p }) := by
  show execMgmtDoorbell m v s = _
  rw [execMgmtDoorbell, hrun, if_neg Bool.false_ne_true]
  exact congrArg Host.Outcome.next (if_neg (not_not.mpr hstate))

theorem exec_mgmtDoorbell_stopped {m : Fin 4} {v : Word32} {s : State} (hstate : (s.ring .management m.val).state ≠ .running) :
    exec (.mgmtDoorbell m v) s = .next s := by
  show execMgmtDoorbell m v s = _
  rw [execMgmtDoorbell, State.mgmtDoorbell, if_pos hstate, ite_self]

/-! Sending: one descriptor at a time. -/

section
variable {s : State} {k n : Nat} (hstate : (s.ring .management (2 * k + 1)).state = .running)
  (hmore : (s.ring .management (2 * k + 1)).ci ≠ (s.ring .management (2 * k + 1)).pi)

/-- The address of the next transmit descriptor of management port k. -/
def State.mgmtTxAddr (s : State) (k : Nat) : Nat :=
  (s.ring .management (2 * k + 1)).slotAddr (s.ring .management (2 * k + 1)).ci.toNat 16

include hstate hmore

theorem mgmtSendGo_goes : ¬ ((s.ring .management (2 * k + 1)).state ≠ .running ∨
    (s.ring .management (2 * k + 1)).ci = (s.ring .management (2 * k + 1)).pi) := not_or.mpr ⟨not_not.mpr hstate, hmore⟩

theorem mgmtSendGo_of_frame {bs f : List Byte} (hread : (s.readMem .annulus 0 (s.mgmtTxAddr k) 16).1 = .data bs)
    (hframe : ((s.readMem .annulus 0 (s.mgmtTxAddr k) 16).2.readMem .annulus 0 (leAt bs 0 8) (leAt bs 8 2)).1 = .data f) :
    let q := s.readMem .annulus 0 (s.mgmtTxAddr k) 16
    let u := ((q.2.readMem .annulus 0 (leAt bs 0 8) (leAt bs 8 2)).2.writeMem .annulus 0 (s.mgmtTxAddr k + 10)
      [BitVec.ofNat 8 (leAt bs 10 1 % 128)]).2
    State.mgmtSendGo k (n + 1) s = State.mgmtSendGo k n ((u.emit (.mgmtFrame k (f ++ le 4 (Crypto.crc32 f).toNat))).setRing
      .management (2 * k + 1) { u.ring .management (2 * k + 1) with ci := (s.ring .management (2 * k + 1)).ci + 1 }) := by
  intro q u
  rw [State.mgmtSendGo]
  dsimp only
  rw [if_neg (mgmtSendGo_goes hstate hmore)]
  rw [← State.mgmtTxAddr, show s.readMem .annulus 0 (s.mgmtTxAddr k) 16 = (.data bs, q.2) from Prod.ext hread rfl]
  dsimp only
  rw [show q.2.readMem .annulus 0 (leAt bs 0 8) (leAt bs 8 2) = (.data f, (q.2.readMem .annulus 0 (leAt bs 0 8) (leAt bs 8 2)).2) from
    Prod.ext hframe rfl]
  rfl

theorem mgmtSendGo_of_refused (hread : (s.readMem .annulus 0 (s.mgmtTxAddr k) 16).1 = .refused) :
    State.mgmtSendGo k (n + 1) s = (s.readMem .annulus 0 (s.mgmtTxAddr k) 16).2.ringError .management (2 * k + 1) 2 := by
  rw [State.mgmtSendGo]
  dsimp only
  rw [if_neg (mgmtSendGo_goes hstate hmore), ← State.mgmtTxAddr]
  generalize s.readMem .annulus 0 (s.mgmtTxAddr k) 16 = q at hread ⊢
  obtain ⟨_, u⟩ := q
  cases hread
  rfl

theorem mgmtSendGo_of_failed (hread : (s.readMem .annulus 0 (s.mgmtTxAddr k) 16).1 = .failed) :
    State.mgmtSendGo k (n + 1) s = (s.readMem .annulus 0 (s.mgmtTxAddr k) 16).2.ringError .management (2 * k + 1) 3 := by
  rw [State.mgmtSendGo]
  dsimp only
  rw [if_neg (mgmtSendGo_goes hstate hmore), ← State.mgmtTxAddr]
  generalize s.readMem .annulus 0 (s.mgmtTxAddr k) 16 = q at hread ⊢
  obtain ⟨_, u⟩ := q
  cases hread
  rfl

end

/-! Receiving. -/

/-- The frame without its FCS. -/
def frameBody (frame : List Byte) : List Byte := frame.take (frame.length - 4)

/-- Its FCS is right. -/
def frameGood (frame : List Byte) : Bool := frame.drop (frame.length - 4) == le 4 (Crypto.crc32 (frameBody frame)).toNat

theorem exec_mgmtFrameReceive_down {k : Fin 2} {frame : List Byte} {s : State} (h : bitOf (s.mgmtCfg k.val) 31 = false ∨ s.mgmtLink k.val = false) :
    exec (.mgmtFrameReceive k frame) s = .next s :=
  congrArg Host.Outcome.next (if_pos (h.imp Bool.eq_false_iff.mp Bool.eq_false_iff.mp))

theorem exec_mgmtFrameReceive_up {k : Fin 2} {frame : List Byte} {s : State} (hon : bitOf (s.mgmtCfg k.val) 31 = true)
    (hlink : s.mgmtLink k.val = true) :
    exec (.mgmtFrameReceive k frame) s = .next (
      if 2048 < frame.length then s.count (cid 0x0F 1 k.val)
      else if ¬ frameGood frame ∧ ¬ (s.ring .management (2 * k.val)).promisc then s
      else if frameGood frame ∧ s.fromArbiter k.val (frameBody frame) then s.arbiterIn ((frameBody frame).drop 14)
      else if s.mgmtAccepts k.val (frameBody frame) then s.mgmtFill k.val (frameBody frame) (!frameGood frame)
      else s) :=
  congrArg Host.Outcome.next (if_neg (not_or.mpr ⟨not_not.mpr hon, not_not.mpr hlink⟩))

/-- What becomes of a frame at a port whose link is up. -/
theorem mgmtFrameReceive_cases {k : Fin 2} {frame : List Byte} {s : State} (hon : bitOf (s.mgmtCfg k.val) 31 = true)
    (hlink : s.mgmtLink k.val = true) :
    let f := frameBody frame
    let x := s.ring .management (2 * k.val)
    (2048 < frame.length → exec (.mgmtFrameReceive k frame) s = .next (s.count (cid 0x0F 1 k.val))) ∧
    (frame.length ≤ 2048 → frameGood frame = false → x.promisc = false → exec (.mgmtFrameReceive k frame) s = .next s) ∧
    (frame.length ≤ 2048 → frameGood frame = true → s.fromArbiter k.val f = true →
      exec (.mgmtFrameReceive k frame) s = .next (s.arbiterIn (f.drop 14))) ∧
    (frame.length ≤ 2048 → frameGood frame = true → s.fromArbiter k.val f = false → s.mgmtAccepts k.val f = false →
      exec (.mgmtFrameReceive k frame) s = .next s) ∧
    (frame.length ≤ 2048 → frameGood frame = true ∨ x.promisc = true → frameGood frame = false ∨ s.fromArbiter k.val f = false →
      s.mgmtAccepts k.val f = true → exec (.mgmtFrameReceive k frame) s = .next (s.mgmtFill k.val f (!frameGood frame))) := by
  rw [exec_mgmtFrameReceive_up hon hlink]
  refine ⟨fun hlong => ?_, fun hlen hbad hprom => ?_, fun hlen hgood harb => ?_, fun hlen hgood harb hno => ?_, fun hlen htake harb hacc => ?_⟩
  · rw [if_pos hlong]
  · rw [if_neg (Nat.not_lt.mpr hlen), if_pos ⟨Bool.eq_false_iff.mp hbad, Bool.eq_false_iff.mp hprom⟩]
  · rw [if_neg (Nat.not_lt.mpr hlen), if_neg (fun h => h.1 hgood), if_pos ⟨hgood, harb⟩]
  · rw [if_neg (Nat.not_lt.mpr hlen), if_neg (fun h => h.1 hgood), if_neg (fun h => Bool.false_ne_true (harb.symm.trans h.2)),
      if_neg (fun h => Bool.false_ne_true (hno.symm.trans h))]
  · rw [if_neg (Nat.not_lt.mpr hlen), if_neg (fun h => htake.elim h.1 h.2), if_neg, if_pos hacc]
    rintro ⟨hgood, hfrom⟩
    exact harb.elim (fun hbad => Bool.false_ne_true (hbad.symm.trans hgood)) fun hno => Bool.false_ne_true (hno.symm.trans hfrom)

/-- The next receive descriptor of management port k. -/
def State.mgmtRxAddr (s : State) (k : Nat) : Nat := (s.ring .management (2 * k)).slotAddr (s.ring .management (2 * k)).pi.toNat 16

theorem mgmtFill_of_stopped {s : State} {k : Nat} {f : List Byte} {bad : Bool} (h : (s.ring .management (2 * k)).state ≠ .running) :
    s.mgmtFill k f bad = s.count (cid 0x0F 2 k) := if_pos h

section
variable {s : State} {k : Nat} {f bs : List Byte} {bad : Bool} (hstate : (s.ring .management (2 * k)).state = .running)
  (hread : (s.readMem .annulus 0 (s.mgmtRxAddr k) 16).1 = .data bs)
include hstate hread

/-- A descriptor that is not owned: the frame is counted as lost. -/
theorem mgmtFill_of_unowned (hown : bitOf (leAt bs 10 1) 7 = false) :
    s.mgmtFill k f bad = (s.readMem .annulus 0 (s.mgmtRxAddr k) 16).2.count (cid 0x0F 2 k) := by
  rw [State.mgmtFill]
  dsimp only
  rw [if_neg (not_not.mpr hstate), ← State.mgmtRxAddr]
  generalize s.readMem .annulus 0 (s.mgmtRxAddr k) 16 = q at hread ⊢
  obtain ⟨_, u⟩ := q
  cases hread
  exact if_pos (Bool.eq_false_iff.mp hown)

theorem mgmtFill_of_owned (hown : bitOf (leAt bs 10 1) 7 = true) :
    let q := s.readMem .annulus 0 (s.mgmtRxAddr k) 16
    let u := q.2.writeMem .annulus 0 (leAt bs 0 8) f
    let w := u.2.writeMem .annulus 0 (s.mgmtRxAddr k + 8) (le 2 f.length ++ [BitVec.ofNat 8 (2 * b2n (bitOf (leAt f 0 1) 0) + b2n bad)])
    u.1 = true → w.1 = true →
      s.mgmtFill k f bad = w.2.setRing .management (2 * k) ((w.2.ring .management (2 * k)).advance w.2.clk false) := by
  intro q u w hu hw
  rw [State.mgmtFill]
  dsimp only
  rw [if_neg (not_not.mpr hstate), ← State.mgmtRxAddr, show s.readMem .annulus 0 (s.mgmtRxAddr k) 16 = (.data bs, q.2) from Prod.ext hread rfl]
  dsimp only
  rw [if_neg (not_not.mpr hown), show q.2.writeMem .annulus 0 (leAt bs 0 8) f = (true, u.2) from Prod.ext hu rfl]
  dsimp only
  rw [show u.2.writeMem .annulus 0 (s.mgmtRxAddr k + 8) _ = (true, w.2) from Prod.ext hw rfl]

end

/-! Links. -/

/-- The part with the link of management port k as given. -/
def State.withMgmtLink (s : State) (k : Fin 2) (up : Bool) (speed : BitVec 2) : State :=
  if k = 0 then { s with rings := { s.rings with link0 := up, speed0 := if up then speed else 0 } }
  else { s with rings := { s.rings with link1 := up, speed1 := if up then speed else 0 } }

theorem exec_mgmtLinkChange_eq (k : Fin 2) (up : Bool) (speed : BitVec 2) (s : State) :
    exec (.mgmtLinkChange k up speed) s =
      if (up ∧ (¬ bitOf (s.mgmtCfg k.val) 31 ∨ bits (s.mgmtCfg k.val) 29 2 = 3)) ∨ up = s.mgmtLink k.val then .next s
      else .next ((s.withMgmtLink k up speed).raise 0x045 [BitVec.ofNat 8 k.val, BitVec.ofNat 8 (b2n up)]) := by
  fin_cases k <;> rfl

theorem State.withMgmtLink_spec (s : State) (k : Fin 2) (up : Bool) (speed : BitVec 2) :
    let t := s.withMgmtLink k up speed
    t.mgmtLink k.val = up ∧ (∀ j : Fin 2, j ≠ k → t.mgmtLink j.val = s.mgmtLink j.val) ∧
      t = { s with rings := { s.rings with
        link0 := t.rings.link0, speed0 := t.rings.speed0, link1 := t.rings.link1, speed1 := t.rings.speed1 } } := by
  fin_cases k
  · refine ⟨rfl, fun j hj => ?_, rfl⟩
    fin_cases j
    · exact absurd rfl hj
    · rfl
  · refine ⟨rfl, fun j hj => ?_, rfl⟩
    fin_cases j
    · rfl
    · exact absurd rfl hj

/-- Settles O15, clause by clause. -/
theorem managementPortsMoveFrames : Obligations.ManagementPortsMoveFrames := by
  intro s k
  refine ⟨fun m v hrun hstate => ?_, fun m v => exec_mgmtDoorbell_stopped, fun n => ⟨?_, ?_, ?_, rfl⟩, fun frame hon hlink => ?_, fun f bad => ⟨?_, ?_, ?_⟩,
    fun frame => exec_mgmtFrameReceive_down, fun up speed hon hmode hlink => ?_, fun up speed hsame => ?_⟩
  · rw [exec_mgmtDoorbell_running hrun hstate]
    refine ⟨fun hm hover => ?_, fun hm hin => ?_, fun hm hover => ?_, fun hm hin hoff => ?_, fun hm hin hon => ?_⟩
    · exact congrArg Host.Outcome.next ((if_pos (by omega)).trans (if_pos hover))
    · exact congrArg Host.Outcome.next ((if_pos (by omega)).trans (if_neg (Nat.not_lt.mpr hin)))
    · exact congrArg Host.Outcome.next ((if_neg (by omega)).trans (if_pos hover))
    · have hk : m.val / 2 = k.val := by omega
      rw [hk, hoff]
      exact congrArg Host.Outcome.next ((if_neg (by omega)).trans (if_neg (Nat.not_lt.mpr hin)))
    · have hk : m.val / 2 = k.val := by omega
      rw [hk, hon]
      exact congrArg Host.Outcome.next ((if_neg (by omega)).trans (if_neg (Nat.not_lt.mpr hin)))
  · exact fun hstate hmore bs hread f hframe => mgmtSendGo_of_frame hstate hmore hread hframe
  · exact fun hstate hmore hread => mgmtSendGo_of_refused hstate hmore hread
  · exact fun hstate hmore hread => mgmtSendGo_of_failed hstate hmore hread
  · exact mgmtFrameReceive_cases hon hlink
  · exact mgmtFill_of_stopped
  · exact fun bs hstate hread hown => mgmtFill_of_unowned hstate hread hown
  · exact fun bs hstate hread hown => mgmtFill_of_owned hstate hread hown
  · refine ⟨s.withMgmtLink k up speed, ?_, s.withMgmtLink_spec k up speed⟩
    rw [exec_mgmtLinkChange_eq]
    refine if_neg ?_
    rintro (⟨-, hoff | hthree⟩ | hsame)
    · exact hoff hon
    · exact hmode hthree
    · exact hlink hsame.symm
  · rw [exec_mgmtLinkChange_eq]
    exact if_pos (hsame.imp (fun h => ⟨h.1, h.2.imp_left Bool.eq_false_iff.mp⟩) Eq.symm)

end Sys2Proof.Machine
end

section
namespace Sys2Proof.Machine

/-! Key commands (R64 to R81): each acts on the slot it names, in the order of that slot. -/

theorem State.setSlot_axis (s : State) (k : Nat) (x : Slot) :
    (s.setSlot k x).axis = { s.axis with slots := tput Slot.reset s.axis.slots k x } := by rw [State.setSlot_frame]

theorem State.slot_setSlot (s : State) (k j : Nat) (x : Slot) : (s.setSlot k x).slot j = if j = k then x else s.slot j := by
  rw [State.slot, State.setSlot_axis]
  exact tget_tput _ _ _ _ _

@[simp] theorem State.slot_setSlot_self (s : State) (k : Nat) (x : Slot) : (s.setSlot k x).slot k = x := by
  rw [State.slot_setSlot, if_pos rfl]

theorem State.slot_setSlot_ne (s : State) {k j : Nat} (h : j ≠ k) (x : Slot) : (s.setSlot k x).slot j = s.slot j := by
  rw [State.slot_setSlot, if_neg h]

theorem Reports.axis {s t : State} (h : Reports s t) : t.axis = s.axis := by rw [h.frame]

/-- From u to w a key has been staged in the pending half of slot k, as two shares whose XOR it is; the active half and other slots stay. -/
def KeyStaged (k : Nat) (u w : State) (key : Nat) : Prop :=
  (w.slot k).pending = .staged ∧ (w.slot k).pnd.share ^^^ (w.slot k).pnd.mask = BitVec.ofNat 256 key ∧
    (w.slot k).act = (u.slot k).act ∧ (w.slot k).gen = (u.slot k).gen ∧ ∀ j, j ≠ k → w.slot j = u.slot j

theorem ofNat_xor_ofNat (a m : Nat) : BitVec.ofNat 256 (a ^^^ m) ^^^ BitVec.ofNat 256 m = BitVec.ofNat 256 a := by
  rw [BitVec.ofNat_xor, BitVec.xor_assoc, BitVec.xor_self, BitVec.xor_zero]

theorem State.stagePending_staged (s : State) (k alg use : Nat) (retire : Bool) (anc : List (Nat × BitVec 32)) (key : Nat) :
    KeyStaged k s (s.stagePending k alg use retire anc key) key ∧
      ((s.stagePending k alg use retire anc key).slot k).pnd.use = BitVec.ofNat 5 use ∧
      ((s.stagePending k alg use retire anc key).slot k).pnd.alg = BitVec.ofNat 2 alg ∧
      ((s.stagePending k alg use retire anc key).slot k).pnd.anc = anc := by
  have hslot : (s.stagePending k alg use retire anc key).slot k = _ := State.slot_setSlot_self _ _ _
  unfold KeyStaged
  rw [hslot]
  exact ⟨⟨rfl, ofNat_xor_ofNat _ _, rfl, rfl, fun j hj => State.slot_setSlot_ne _ hj _⟩, rfl, rfl, rfl⟩

/-! The order of a slot (R75). -/

theorem keyArrive_of_held {d : Desc} {s : State} (h : s.slotHeld (keyTarget d) = true) : keyArrive d s = s.keyWait d := if_pos h

theorem keyArrive_of_done {d : Desc} {s t : State} (h : s.slotHeld (keyTarget d) = false) (hstep : keyStep d s = .done t) : keyArrive d s = t := by
  rw [keyArrive, h, if_neg Bool.false_ne_true, hstep]

theorem keyArrive_of_waits {d : Desc} {s : State} (h : s.slotHeld (keyTarget d) = false) (hstep : keyStep d s = .waits) :
    keyArrive d s = s.keyWait d := by
  rw [keyArrive, h, if_neg Bool.false_ne_true, hstep]

theorem keyTarget_of_not_derive {d : Desc} (h : d.opcode ≠ 0x014) : keyTarget d = slotField d 8 := if_neg h

theorem keyTarget_of_derive {d : Desc} (h : d.opcode = 0x014) : keyTarget d = slotField d 0xC := if_pos h

theorem keyStep_stage {d : Desc} (h : d.opcode = 0x010) (s : State) : keyStep d s = .done (stageBody d s) := by
  rw [keyStep, h]
  rfl

theorem keyStep_verify {d : Desc} (h : d.opcode = 0x011) (s : State) : keyStep d s = .done (verifyBody d s) := by
  rw [keyStep, h]
  rfl

theorem keyStep_commit {d : Desc} (h : d.opcode = 0x012) (s : State) : keyStep d s = commitStep d s := by
  rw [keyStep, h]
  rfl

theorem keyStep_erase {d : Desc} (h : d.opcode = 0x013) (s : State) : keyStep d s = eraseStep d s := by
  rw [keyStep, h]
  rfl

theorem keyStep_derive {d : Desc} (h : d.opcode = 0x014) (s : State) : keyStep d s = .done (deriveBody d s) := by
  rw [keyStep, h]
  rfl

theorem keyStep_invalidate {d : Desc} (h : d.opcode = 0x015) (s : State) : keyStep d s = .done (invalidateBody d s) := by
  rw [keyStep, h]
  rfl

/-- A key command that is accepted reaches Axis. -/
theorem exec_key_accepted {n : Instr} {d : Desc} {f : List (Nat × Nat)} {s s0 : State} (hexec : exec n s = .next (ringCommand d 0 f (keyArrive d) s))
    (h : Accepted d 0 f s s0) : exec n s = .next (keyArrive d s0) := hexec.trans (congrArg Host.Outcome.next (ringCommand_accepts h _))

/-! KEY_STAGE (R67, R76). -/

section
variable {d : Desc} {s : State}

/-- What KEY_STAGE checks of its fields, whether plain or wrapped. -/
def StageFields (d : Desc) : Prop := slotFieldOk d 8 = true ∧ d.get 0xD 1 ≤ 2 ∧ d.get 0xE 1 < 32 ∧ d.get 0xF 1 ≤ 1

/-- The length of the key that KEY_STAGE names. -/
def stageLen (d : Desc) : Nat := algLen (BitVec.ofNat 2 (d.get 0xD 1))

/-- What KEY_STAGE refuses by its fields (R487). -/
def StageBad (d : Desc) : Prop :=
  ¬ slotFieldOk d 8 ∨ 1 < d.get 0xC 1 ∨ 2 < d.get 0xD 1 ∨ 32 ≤ d.get 0xE 1 ∨ 1 < d.get 0xF 1 ∨ 255 < d.get 0x18 4 ∨
    (¬ d.get 0xC 1 = 1 ∧ (d.get 0x18 4 ≠ 0 ∨ d.get 0x1C 4 ≠ stageLen d)) ∨ (d.get 0xC 1 = 1 ∧ d.get 0x1C 4 ≠ stageLen d + 8)

theorem StageFields.not_bad {d : Desc} (hf : StageFields d)
    (h : (d.get 0xC 1 = 0 ∧ d.get 0x18 4 = 0 ∧ d.get 0x1C 4 = stageLen d) ∨
      (d.get 0xC 1 = 1 ∧ d.get 0x18 4 ≤ 255 ∧ d.get 0x1C 4 = stageLen d + 8)) : ¬ StageBad d := by
  obtain ⟨hslot, halg, huse, hmode⟩ := hf
  rintro (hbad | hbad | hbad | hbad | hbad | hbad | ⟨hplain, hbad⟩ | ⟨hwrapped, hbad⟩)
  · exact hbad hslot
  all_goals omega

/-- A plain key that is staged (R67). -/
theorem stageBody_plain (hf : StageFields d) (hplain : d.get 0xC 1 = 0) (hparent : d.get 0x18 4 = 0) (hlen : d.get 0x1C 4 = stageLen d)
    (hserve : s.axis.serving = true) (huse : usageOk (d.slotClass 8) (d.get 0xE 1) = true) (hblock : bitOf (d.get 0xE 1) 0 = false) :
    stageBody d s = s.withBuf d .annulus (d.get 0x10 8) (d.get 0x1C 4) fun bs s =>
      (s.stagePending (slotField d 8) (d.get 0xD 1) (d.get 0xE 1) (d.get 0xF 1 == 1) [] (Crypto.ofBytes (bs.map BitVec.toNat))).complete d
        { status := .ok, flags := b2n ((s.slot (slotField d 8)).pending != .empty)
          r0 := kcv (stageLen d) (Crypto.ofBytes (bs.map BitVec.toNat)) } := by
  refine (if_neg (hf.not_bad (.inl ⟨hplain, hparent, hlen⟩))).trans ((if_neg (by rw [hserve]; decide)).trans ((if_neg (by omega)).trans ?_))
  exact if_neg (by simp [huse, hblock])

/-- A wrapped key whose parent may wrap (R67, R76). -/
theorem stageBody_wrapped (hf : StageFields d) (hwrapped : d.get 0xC 1 = 1) (hparent : d.get 0x18 4 ≤ 255) (hlen : d.get 0x1C 4 = stageLen d + 8)
    (hserve : s.axis.serving = true) (huse : usageOk (d.slotClass 8) (d.get 0xE 1) = true) (hblock : bitOf (d.get 0xE 1) 0 = false)
    (hstatus : s.parentStatus (slotKey 2 (d.get 0x18 4)) = none) (hwrap : (s.slot (slotKey 2 (d.get 0x18 4))).act.wrap = true)
    (hdepth : s.depthOk (slotKey 2 (d.get 0x18 4)) (d.slotClass 8) = true) :
    stageBody d s = s.withBuf d .annulus (d.get 0x10 8) (d.get 0x1C 4) fun bs t =>
      let par := (s.slot (slotKey 2 (d.get 0x18 4))).act
      match Crypto.unwrap (algLen par.alg) par.key (stageLen d / 8) (Crypto.ofBytes (bs.map BitVec.toNat)) with
      | none => t.done d .unwrapFailed
      | some key =>
        (t.stagePending (slotField d 8) (d.get 0xD 1) (d.get 0xE 1) (d.get 0xF 1 == 1) (t.ancestry (slotKey 2 (d.get 0x18 4))) key).complete d
          { status := .ok, flags := b2n ((t.slot (slotField d 8)).pending != .empty), r0 := kcv (stageLen d) key } := by
  have hbad := hf.not_bad (.inr ⟨hwrapped, hparent, hlen⟩)
  unfold StageBad stageLen at hbad
  unfold stageBody stageLen
  dsimp only
  rw [if_neg hbad, if_neg (by rw [hserve]; decide), if_pos hwrapped, hstatus]
  dsimp only
  rewrite [if_neg (by simp [hwrap, huse, hblock, hdepth])]
  refine congrArg (s.withBuf d _ _ _) (funext fun bs => funext fun t => ?_)
  generalize Crypto.unwrap _ _ _ _ = o
  cases o <;> rfl

/-! KEY_VERIFY (R69). -/

theorem verifyBody_eq (hslot : slotFieldOk d 8 = true) (hval : d.get 0xC 4 < 2 ^ 24) :
    verifyBody d s =
      if (s.slot (slotField d 8)).pending = .empty then s.done d .noPending
      else if kcv (algLen (s.slot (slotField d 8)).pnd.alg) (s.slot (slotField d 8)).pnd.key = d.get 0xC 4 then
        (s.setSlot (slotField d 8) { s.slot (slotField d 8) with pending := .verified }).done d .ok
      else ((s.setSlot (slotField d 8) { s.slot (slotField d 8) with pending := .empty, pnd := KeyHalf.reset }).raise 0x100
        (le 4 (slotWord (slotField d 8)))).done d .kcvMismatch :=
  if_neg fun h => h.elim (fun h => h hslot) (Nat.not_le.mpr hval)

/-! KEY_DERIVE (R76, R80). -/

/-- What KEY_DERIVE checks of its fields and of the classes of its slots. -/
def DeriveFields (d : Desc) : Prop :=
  slotFieldOk d 8 = true ∧ slotFieldOk d 0xC = true ∧ (d.get 0x10 1 = 16 ∨ d.get 0x10 1 = 32) ∧ d.get 0x11 1 < 32 ∧ d.get 0x12 1 ≤ 1 ∧
    1 ≤ d.get 0x13 1 ∧ d.get 0x13 1 ≤ 32 ∧ d.get 0x14 1 ≤ 32 ∧ slotField d 8 ≠ slotField d 0xC ∧
    (d.slotClass 8 = 2 ∨ (d.slotClass 8 = 0 ∧ d.slotClass 0xC = 0 ∧ bits (d.slotIndex 8) 13 4 = bits (d.slotIndex 0xC) 13 4))

theorem deriveBody_eq (hf : DeriveFields d) (hserve : s.axis.serving = true) (huse : usageOk (d.slotClass 0xC) (d.get 0x11 1) = true)
    (hblock : bitOf (d.get 0x11 1) 0 = false) (hderive : (s.slot (slotField d 8)).act.derive = true)
    (hdepth : s.depthOk (slotField d 8) (d.slotClass 0xC) = true) :
    deriveBody d s = match s.parentStatus (slotField d 8) with
      | some st => s.done d st
      | none => s.withBuf d .annulus (d.get 0x18 8) (d.get 0x13 1 + d.get 0x14 1) fun bs t =>
        let par := (s.slot (slotField d 8)).act
        let key := kdf (algLen par.alg) par.key (bs.take (d.get 0x13 1)) (bs.drop (d.get 0x13 1)) (d.get 0x10 1 / 16)
        (t.stagePending (slotField d 0xC) (if d.get 0x10 1 = 16 then 0 else 2) (d.get 0x11 1) (d.get 0x12 1 == 1)
          (t.ancestry (slotField d 8)) key).complete d
          { status := .ok, flags := b2n ((t.slot (slotField d 0xC)).pending != .empty), r0 := kcv (d.get 0x10 1) key } := by
  obtain ⟨hparent, hchild, hlen, husew, hmode, hlab, hlab', hctx, hne, hclass⟩ := hf
  have hbad : ¬ (¬ slotFieldOk d 8 ∨ ¬ slotFieldOk d 0xC ∨ (d.get 0x10 1 ≠ 16 ∧ d.get 0x10 1 ≠ 32) ∨ 32 ≤ d.get 0x11 1 ∨ 1 < d.get 0x12 1 ∨
      d.get 0x13 1 = 0 ∨ 32 < d.get 0x13 1 ∨ 32 < d.get 0x14 1 ∨ slotField d 8 = slotField d 0xC) := by
    rintro (h | h | h | h | h | h | h | h | h)
    · exact h hparent
    · exact h hchild
    all_goals omega
  have hwrong : ¬ (d.slotClass 8 = 1 ∨ (d.slotClass 8 = 0 ∧ d.slotClass 0xC ≠ 0)) := by omega
  have hpart : ¬ (d.slotClass 8 = 0 ∧ bits (d.slotIndex 8) 13 4 ≠ bits (d.slotIndex 0xC) 13 4) := by
    rintro ⟨hdk, hother⟩
    exact hother (hclass.resolve_left (by omega)).2.2
  exact (if_neg hbad).trans ((if_neg hwrong).trans ((if_neg hpart).trans ((if_neg (by rw [hserve]; decide)).trans
    (if_neg (by simp [huse, hblock, hderive, hdepth])))))

/-! KEY_COMMIT (R70, R75, R78). -/

theorem commitStep_waits (hslot : slotFieldOk d 8 = true) (hwait : s.passRuns (slotField d 8) = true ∨ (s.slot (slotField d 8)).old ≠ []) :
    commitStep d s = .waits :=
  (if_neg (not_not.mpr hslot)).trans (if_pos (hwait.imp_right fun h => by simpa using h))

theorem commitStep_runs (hslot : slotFieldOk d 8 = true) (hpass : s.passRuns (slotField d 8) = false) (hold : (s.slot (slotField d 8)).old = [])
    (hline : (s.slot (slotField d 8)).waitq = []) :
    commitStep d s = .done (match (s.slot (slotField d 8)).pending with
      | .empty => s.done d .noPending
      | .staged => s.done d .notVerified
      | .verified =>
        (s.setSlot (slotField d 8) { (s.slot (slotField d 8)).retire s.clk none with
          active := .valid, act := (s.slot (slotField d 8)).pnd, pending := .empty, pnd := KeyHalf.reset
          gen := nextGen (s.slot (slotField d 8)).gen, retired := false }).complete d
          { status := .ok, r0 := (nextGen (s.slot (slotField d 8)).gen).toNat, r1 := 0 }) := by
  unfold commitStep
  dsimp only
  rw [if_neg (not_not.mpr hslot), if_neg (by rw [hpass, hold]; decide), hline]
  cases (s.slot (slotField d 8)).pending <;> rfl

/-! KEY_ERASE (R73). -/

/-- KEY_ERASE empties the active half. -/
def eraseActive (d : Desc) (x : Slot) : Bool := bitOf (d.get 0xC 1) 0 && x.active != .none

/-- KEY_ERASE empties the pending half. -/
def erasePending (d : Desc) (x : Slot) : Bool := bitOf (d.get 0xC 1) 1 && x.pending != .empty

/-- The slot with its pending half empty where that is asked for. -/
def Slot.erasePnd (x : Slot) (pnd : Bool) : Slot := if pnd then { x with pending := .empty, pnd := KeyHalf.reset } else x

/-- The slot whose active half is erased. -/
def Slot.gone (x : Slot) (pnd : Bool) : Slot :=
  { x.erasePnd pnd with active := .none, act := KeyHalf.reset, gen := nextGen x.gen, retired := false, live := 0 }

/-- What follows in the part from an erased active half: its associations lose their keys. -/
def State.eraseActiveTo (s : State) (k : Nat) (z : Slot) : State := (s.setSlot k z).loseKeys (fun dk => slotKey 0 dk == k) 0

theorem eraseStep_passes (hslot : slotFieldOk d 8 = true) (hlo : 1 ≤ d.get 0xC 1) (hhi : d.get 0xC 1 ≤ 3) :
    ¬ (¬ slotFieldOk d 8 ∨ d.get 0xC 1 = 0 ∨ 3 < d.get 0xC 1) := by
  rintro (h | h | h)
  · exact h hslot
  · omega
  · omega

theorem eraseStep_waits (hslot : slotFieldOk d 8 = true) (hlo : 1 ≤ d.get 0xC 1) (hhi : d.get 0xC 1 ≤ 3)
    (hpass : s.passRuns (slotField d 8) = true) : eraseStep d s = .waits :=
  (if_neg (eraseStep_passes hslot hlo hhi)).trans (if_pos hpass)

section
variable (hslot : slotFieldOk d 8 = true) (hlo : 1 ≤ d.get 0xC 1) (hhi : d.get 0xC 1 ≤ 3) (hpass : s.passRuns (slotField d 8) = false)
include hslot hlo hhi hpass

theorem eraseStep_empty (hact : eraseActive d (s.slot (slotField d 8)) = false) (hpnd : erasePending d (s.slot (slotField d 8)) = false) :
    eraseStep d s = .done (s.done d .slotEmpty) :=
  (if_neg (eraseStep_passes hslot hlo hhi)).trans ((if_neg (Bool.eq_false_iff.mp hpass)).trans
    (if_pos ⟨Bool.eq_false_iff.mp hact, Bool.eq_false_iff.mp hpnd⟩))

theorem eraseStep_pending (hact : eraseActive d (s.slot (slotField d 8)) = false) (hpnd : erasePending d (s.slot (slotField d 8)) = true) :
    eraseStep d s = .done ((s.setSlot (slotField d 8) ((s.slot (slotField d 8)).erasePnd true)).complete d
      { status := .ok, r0 := 0, r1 := s.zeroTime }) := by
  refine (if_neg (eraseStep_passes hslot hlo hhi)).trans ((if_neg (Bool.eq_false_iff.mp hpass)).trans ((if_neg fun h => h.2 hpnd).trans
    ((if_neg (Bool.eq_false_iff.mp hact)).trans ?_)))
  rw [← erasePending, hpnd]
  rfl

theorem eraseStep_active (hact : eraseActive d (s.slot (slotField d 8)) = true) :
    eraseStep d s =
      let x := s.slot (slotField d 8)
      let gone := x.gone (erasePending d x)
      if x.live = 0 then .done ((s.eraseActiveTo (slotField d 8) gone).complete d { status := .ok, r0 := 0, r1 := s.zeroTime })
      else .done (s.eraseActiveTo (slotField d 8) { gone with
        old := x.old ++ [{ gen := x.gen, half := x.act, count := x.live, since := s.clk, erase := some d }] }) := by
  refine (if_neg (eraseStep_passes hslot hlo hhi)).trans ((if_neg (Bool.eq_false_iff.mp hpass)).trans ((if_neg fun h => h.1 hact).trans
    ((if_pos hact).trans ?_)))
  dsimp only
  rw [← erasePending, ← Slot.erasePnd]
  generalize hx : s.slot (slotField d 8) = x
  have hlive : (x.erasePnd (erasePending d x)).live = x.live := by
    rw [Slot.erasePnd]
    split <;> rfl
  by_cases hzero : x.live = 0
  · rw [hlive, if_pos hzero, if_pos hzero, Slot.retire, hlive, if_pos hzero]
    cases erasePending d x <;> rfl
  · rw [hlive, if_neg hzero, if_neg hzero, Slot.retire, hlive, if_neg hzero]
    cases erasePending d x <;> rfl

end

/-! KEY_INVALIDATE (R77, R78). -/

theorem invalidateBody_none (hslot : slotFieldOk d 8 = true) (h : (s.slot (slotField d 8)).active = .none) :
    invalidateBody d s = s.done d .slotEmpty := by
  rw [invalidateBody]
  dsimp only
  rw [if_neg (not_not.mpr hslot), h]

theorem invalidateBody_invalid (hslot : slotFieldOk d 8 = true) (h : (s.slot (slotField d 8)).active = .invalid) :
    invalidateBody d s = s.complete d { status := .ok, r0 := 0 } := by
  rw [invalidateBody]
  dsimp only
  rw [if_neg (not_not.mpr hslot), h]

theorem invalidateBody_retire (hslot : slotFieldOk d 8 = true) (h : (s.slot (slotField d 8)).active = .valid)
    (hretire : (s.slot (slotField d 8)).act.retire = true) :
    invalidateBody d s = (((s.setSlot (slotField d 8) { s.slot (slotField d 8) with active := .invalid, retired := true }).loseKeys
      (fun dk => slotKey 0 dk == slotField d 8) 1).raise 0x102 []).complete d { status := .ok, r0 := 0 } := by
  rw [invalidateBody]
  dsimp only
  rw [if_neg (not_not.mpr hslot), h]
  dsimp only
  rw [if_pos hretire, hretire]

theorem State.enterKeyLost_axis (s : State) (h cause : Nat) : (s.enterKeyLost h cause).axis = s.axis :=
  (State.raise_raises _ _ _).toReports.axis

@[simp] theorem State.loseKeys_axis (s : State) (p : Nat → Bool) (cause : Nat) : (s.loseKeys p cause).axis = s.axis :=
  List.foldlRecOn (motive := fun t : State => t.axis = s.axis) _ _ rfl fun t ht h _ => (t.enterKeyLost_axis h cause).trans ht

/-- A CASCADE starts a marking pass; from then on no key that descends from the generation may be used (R78). -/
theorem invalidateBody_cascade (hslot : slotFieldOk d 8 = true) (h : (s.slot (slotField d 8)).active = .valid)
    (hretire : (s.slot (slotField d 8)).act.retire = false) :
    let k := slotField d 8
    let x := s.slot k
    (invalidateBody d s).axis = { s.axis with
      slots := tput Slot.reset s.axis.slots k { x with active := .invalid, retired := false }
      marking := s.axis.marking ++ [(d, k, x.gen)], cascaded := s.axis.cascaded ++ [(k, x.gen)] } := by
  intro k x
  rw [invalidateBody]
  dsimp only
  rw [if_neg (not_not.mpr hslot), h]
  dsimp only
  rw [hretire, if_neg Bool.false_ne_true]
  simp only [State.loseKeys_axis, State.flushSensorKeys, State.setSlot_axis]
  rfl

theorem State.usable_of_cascaded {s : State} {a : Nat × BitVec 32} {j : Nat} (hcascaded : a ∈ s.axis.cascaded)
    (hanc : (s.slot j).act.anc.contains a = true) : s.usable j = false := by
  have hblocked : s.blocked j = true :=
    List.any_eq_true.mpr ⟨a, List.contains_iff_mem.mp hanc, List.contains_iff_mem.mpr hcascaded⟩
  rw [State.usable, hblocked]
  exact Bool.and_false _

end

/-- Settles O18: each command by its branch of the body, in a slot that holds nothing back; a held slot makes it wait. -/
theorem keysAreStagedCommittedAndErased : Obligations.KeysAreStagedCommittedAndErased := by
  refine ⟨fun d s s0 => ⟨?_, ?_, ?_, fun hheld => ⟨fun h => ?_, fun h => ?_, fun h => ?_⟩⟩,
    fun d s s0 hslot => ⟨fun hfree => ⟨?_, ?_, ?_, ?_, ?_⟩, fun hheld => ⟨fun h => ⟨?_, ?_⟩, fun h => ?_⟩⟩⟩
  · intro h hop hfree hslot halg huse hmode hserve huseok hblock
    have hfields : StageFields d := ⟨hslot, halg, huse, hmode⟩
    have harrive : exec (.keyStage d) s = .next (stageBody d s0) := by
      rw [exec_key_accepted rfl h, keyArrive_of_done (by rwa [keyTarget_of_not_derive (by omega)]) (keyStep_stage hop s0)]
    refine ⟨fun bs hplain hparent hlen hread => ?_, fun bs hwrapped hparent hlen hstatus hwrap hdepth hread => ⟨fun key hkey => ?_, fun hkey => ?_⟩⟩
    · rw [harrive, stageBody_plain hfields hplain hparent hlen hserve huseok hblock, State.withBuf_of_data hread]
      obtain ⟨hstaged, hu, ha, -⟩ := State.stagePending_staged _ _ _ _ _ _ _
      exact ⟨_, rfl, hstaged, hu, ha⟩
    · rw [harrive, stageBody_wrapped hfields hwrapped hparent hlen hserve huseok hblock hstatus hwrap hdepth, State.withBuf_of_data hread]
      dsimp only
      rw [show Crypto.unwrap _ _ (stageLen d / 8) _ = some key from hkey]
      obtain ⟨hstaged, -, -, hanc⟩ := State.stagePending_staged _ _ _ _ _ _ _
      exact ⟨_, rfl, hstaged, hanc⟩
    · rw [harrive, stageBody_wrapped hfields hwrapped hparent hlen hserve huseok hblock hstatus hwrap hdepth, State.withBuf_of_data hread]
      dsimp only
      rw [show Crypto.unwrap _ _ (stageLen d / 8) _ = none from hkey]
  · intro h hop hfree hparent hchild hlen huse hmode hlab hlab' hctx hne hclass hserve huseok hblock hderive hdepth
    have hbody : exec (.keyDerive d) s = .next (deriveBody d s0) := by
      rw [exec_key_accepted rfl h, keyArrive_of_done (by rwa [keyTarget_of_derive hop]) (keyStep_derive hop s0)]
    rw [hbody, deriveBody_eq ⟨hparent, hchild, hlen, huse, hmode, hlab, hlab', hctx, hne, hclass⟩ hserve huseok hblock hderive hdepth]
    refine ⟨fun st hst => ?_, fun bs hst hread => ?_⟩
    · rw [hst]
    · rw [hst]
      dsimp only
      rw [State.withBuf_of_data hread]
      exact ⟨_, rfl, (State.stagePending_staged _ _ _ _ _ _ _).1⟩
  · intro h hop hfree hslot hval
    have hbody : exec (.keyVerify d) s = .next (verifyBody d s0) := by
      rw [exec_key_accepted rfl h, keyArrive_of_done (by rwa [keyTarget_of_not_derive (by omega)]) (keyStep_verify hop s0)]
    rw [hbody, verifyBody_eq hslot hval]
    exact ⟨fun hempty => congrArg Host.Outcome.next (if_pos hempty),
      fun hpnd hkcv => congrArg Host.Outcome.next ((if_neg hpnd).trans (if_pos hkcv)),
      fun hpnd hkcv => congrArg Host.Outcome.next ((if_neg hpnd).trans (if_neg hkcv))⟩
  · rw [exec_key_accepted rfl h, keyArrive_of_held hheld]
  · rw [exec_key_accepted rfl h, keyArrive_of_held hheld]
  · rw [exec_key_accepted rfl h, keyArrive_of_held hheld]
  · intro h hop hpass hold hline
    have hbody := commitStep_runs hslot hpass hold hline
    have hrun : ∀ t, commitStep d s0 = .done t → exec (.keyCommit d) s = .next t := fun t ht => by
      rw [exec_key_accepted rfl h, keyArrive_of_done (by rwa [keyTarget_of_not_derive (by omega)]) ((keyStep_commit hop s0).trans ht)]
    refine ⟨fun hpnd => hrun _ ?_, fun hpnd => hrun _ ?_, fun hpnd => hrun _ ?_⟩ <;> rw [hbody, hpnd]
  · intro h hop hwait
    rw [exec_key_accepted rfl h, keyArrive_of_waits (by rwa [keyTarget_of_not_derive (by omega)])
      ((keyStep_commit hop s0).trans (commitStep_waits hslot hwait))]
  · intro h hop hpass hlo hhi
    rw [exec_key_accepted rfl h, keyArrive_of_waits (by rwa [keyTarget_of_not_derive (by omega)])
      ((keyStep_erase hop s0).trans (eraseStep_waits hslot hlo hhi hpass))]
  · intro h hop hpass hlo hhi
    have hrun : ∀ t, eraseStep d s0 = .done t → exec (.keyErase d) s = .next t := fun t ht => by
      rw [exec_key_accepted rfl h, keyArrive_of_done (by rwa [keyTarget_of_not_derive (by omega)]) ((keyStep_erase hop s0).trans ht)]
    refine ⟨fun hact hpnd => hrun _ (eraseStep_empty hslot hlo hhi hpass hact hpnd),
      fun hact hpnd => (hrun _ (eraseStep_pending hslot hlo hhi hpass hact hpnd)).trans ?_, fun hact hlive => hrun _ ?_, fun hact hlive => hrun _ ?_⟩
    · show _ = Host.Outcome.next ((s0.setSlot (slotField d 8) ((s0.slot (slotField d 8)).erasePnd (erasePending d (s0.slot (slotField d 8))))).complete
        d { status := .ok, r0 := 0, r1 := s0.zeroTime })
      rw [show erasePending d (s0.slot (slotField d 8)) = true from hpnd]
    · exact (eraseStep_active hslot hlo hhi hpass hact).trans (if_pos hlive)
    · exact (eraseStep_active hslot hlo hhi hpass hact).trans (if_neg hlive)
  · intro h hop
    have hbody : exec (.keyInvalidate d) s = .next (invalidateBody d s0) := by
      rw [exec_key_accepted rfl h, keyArrive_of_done (by rwa [keyTarget_of_not_derive (by omega)]) (keyStep_invalidate hop s0)]
    refine ⟨fun hnone => ?_, fun hinv => ?_, fun hval hretire => ?_, fun hval hretire => ⟨_, hbody, ?_⟩⟩
    · rw [hbody, invalidateBody_none hslot hnone]
    · rw [hbody, invalidateBody_invalid hslot hinv]
    · rw [hbody, invalidateBody_retire hslot hval hretire]
    · have haxis := invalidateBody_cascade hslot hval hretire
      have hself : (invalidateBody d s0).slot (slotField d 8) = { s0.slot (slotField d 8) with active := .invalid, retired := false } := by
        rw [State.slot, haxis]
        dsimp only
        rw [tget_tput_self]
      rw [hself, haxis]
      exact ⟨rfl, rfl, fun a ha => ha, fun j hanc => State.usable_of_cascaded (by rw [haxis]; exact List.mem_append_right _ (List.mem_singleton_self _)) hanc⟩
  · rw [exec_key_accepted rfl h, keyArrive_of_held hheld]
  · rw [exec_key_accepted rfl h, keyArrive_of_held hheld]
  · rw [exec_key_accepted rfl h, keyArrive_of_held hheld]

end Sys2Proof.Machine
end

section
namespace Sys2Proof.Machine

/-! Axis's own events (R72, R78, R82, R83, R221, Table 3.9). -/

/-! Generations that drain (R72, R221). -/

/-- What the end of a drained generation o of a slot x leads to in the part u. -/
def State.generationDrained (u : State) (slot : Nat) (x : Slot) (o : OldGen) : State :=
  (match o.erase with
    | some e => (u.setSlot slot { x with old := x.old.erase o }).complete e { status := .ok, r0 := u.clk - o.since, r1 := u.zeroTime }
    | none => u.setSlot slot { x with old := x.old.erase o }).wakeSlot slot

theorem State.setSlot_clk (s : State) (k : Nat) (x : Slot) : (s.setSlot k x).clk = s.clk := by rw [State.setSlot_frame]

theorem State.setSlot_zeroTime (s : State) (k : Nat) (x : Slot) : (s.setSlot k x).zeroTime = s.zeroTime := by
  rw [State.setSlot_frame]
  rfl

theorem exec_generationDrainEnd_eq {slot : Nat} {s : State} {o : OldGen}
    (h : ((s.slot slot).old.find? (·.count == 0)).or (s.slot slot).old.head? = some o) :
    exec (.generationDrainEnd slot) s = .next ((if o.count = 0 then s else s.passTo (o.since + 2000)).generationDrained slot (s.slot slot) o) := by
  show execGenerationDrainEnd slot s = _
  rw [execGenerationDrainEnd]
  dsimp only
  rw [h]
  dsimp only
  generalize (if o.count = 0 then s else s.passTo (o.since + 2000)) = u
  rw [State.generationDrained]
  cases o.erase with
  | none => rfl
  | some e =>
    dsimp only
    rw [State.setSlot_clk, State.setSlot_zeroTime]

theorem exec_generationDrainEnd_none {slot : Nat} {s : State} (h : (s.slot slot).old = []) : exec (.generationDrainEnd slot) s = .next s := by
  show execGenerationDrainEnd slot s = _
  rw [execGenerationDrainEnd]
  dsimp only
  rw [h]
  rfl

theorem State.wakeSlot_none {slot : Nat} {s : State} (h : (s.slot slot).waitq = []) : s.wakeSlot slot = s := by
  rw [State.wakeSlot, State.runWaiting]
  dsimp only
  rw [h]

/-! Marking passes (R78). -/

/-- The part with the active halves of slots ds INVALID. -/
def State.invalidateAll (s : State) (ds : List Nat) : State :=
  ds.foldl (fun s j => s.setSlot j { s.slot j with active := .invalid, retired := false }) s

theorem State.invalidateAll_marking (s : State) (ds : List Nat) : (s.invalidateAll ds).axis.marking = s.axis.marking :=
  List.foldlRecOn (motive := fun t : State => t.axis.marking = s.axis.marking) _ _ rfl fun t ht j _ => by rw [State.setSlot_axis, ← ht]

/-- A slot of the list stays INVALID once it is. -/
theorem State.invalidateAll_active {s : State} {j : Nat} (ds : List Nat) (h : (s.slot j).active = .invalid ∨ j ∈ ds) :
    ((s.invalidateAll ds).slot j).active = .invalid := by
  induction ds generalizing s with
  | nil => exact h.resolve_right List.not_mem_nil
  | cons i ds ih =>
    refine ih ?_
    by_cases hij : j = i
    · left
      rw [hij, State.slot_setSlot_self]
    · rw [State.slot_setSlot_ne _ hij]
      exact h.imp_right fun hmem => (List.mem_cons.mp hmem).resolve_left hij

theorem mem_keys_of_tget_ne {α : Type} {dflt : α} {t : Tbl α} {j : Nat} (h : tget dflt t j ≠ dflt) : j ∈ t.map (·.1) := by
  induction t with
  | nil => exact absurd rfl h
  | cons e t ih =>
    obtain ⟨i, v⟩ := e
    rw [tget] at h
    split at h
    · rename_i hi
      simp [hi]
    · exact List.mem_cons_of_mem _ (ih h)

/-- A descendant is one of the slots that a marking pass visits. -/
theorem State.descends_mem {s : State} {k j : Nat} {g : BitVec 32} (h : s.descends k g j = true) :
    j ∈ (s.axis.slots.map (·.1)).filter fun j => s.descends k g j := by
  refine List.mem_filter.mpr ⟨mem_keys_of_tget_ne (dflt := Slot.reset) fun hreset => ?_, h⟩
  have hslot : s.slot j = Slot.reset := hreset
  rw [State.descends, hslot] at h
  cases h

/-- The slots that a marking pass of generation g of slot k marks. -/
def State.descendants (s : State) (k : Nat) (g : BitVec 32) : List Nat := (s.axis.slots.map (·.1)).filter fun j => s.descends k g j

/-- The part at the end of a marking pass, before event 0x101. -/
def State.marked (s : State) (k : Nat) (g : BitVec 32) (rest : List (Desc × Nat × BitVec 32)) : State :=
  ({ s with axis := { s.axis with marking := rest } }.invalidateAll (s.descendants k g)).loseKeys
    (fun dk => (s.descendants k g).contains (slotKey 0 dk)) 1

theorem exec_markingPassEnd_cons {s : State} {d : Desc} {k : Nat} {g : BitVec 32} {rest : List (Desc × Nat × BitVec 32)}
    (h : s.axis.marking = (d, k, g) :: rest) :
    exec .markingPassEnd s = .next ((((s.marked k g rest).raise 0x101 (le 4 (slotWord k) ++ le 4 (s.descendants k g).length)).complete d
      { status := .ok, r0 := (s.descendants k g).length }).wakeSlot k) := by
  show execMarkingPassEnd s = _
  rw [execMarkingPassEnd, h]
  rfl

theorem exec_markingPassEnd_nil {s : State} (h : s.axis.marking = []) : exec .markingPassEnd s = .next s := by
  show execMarkingPassEnd s = _
  rw [execMarkingPassEnd, h]

theorem State.marked_marking (s : State) (k : Nat) (g : BitVec 32) (rest : List (Desc × Nat × BitVec 32)) :
    (s.marked k g rest).axis.marking = rest := by
  rw [State.marked, State.loseKeys_axis, State.invalidateAll_marking]

theorem State.marked_active {s : State} {k j : Nat} {g : BitVec 32} (rest : List (Desc × Nat × BitVec 32)) (h : s.descends k g j = true) :
    ((s.marked k g rest).slot j).active = .invalid := by
  rw [State.slot, State.marked, State.loseKeys_axis]
  exact State.invalidateAll_active _ (.inr (State.descends_mem h))

/-! Sweep passes and visits (R82). -/

theorem exec_sweepPassStart_runs {s : State} (hserve : s.axis.serving = true) (hheld : s.apex.held = false) :
    exec .sweepPassStart s = .next { s.passTo s.axis.sweepDue with axis := { (s.passTo s.axis.sweepDue).axis with
      maxAge := BitVec.ofNat 8 (min 255 (s.passTo s.axis.sweepDue).axis.ageSeen), ageSeen := 0
      sweepDue := (s.passTo s.axis.sweepDue).clk + 1000000 * (s.passTo s.axis.sweepDue).sweepPeriod } } := by
  show execSweepPassStart s = _
  rw [execSweepPassStart, if_neg (by rw [hserve, hheld]; decide)]

theorem exec_sweepPassStart_stopped {s : State} (h : s.axis.serving = false ∨ s.apex.held = true) : exec .sweepPassStart s = .next s := by
  show execSweepPassStart s = _
  rw [execSweepPassStart, if_pos (h.imp_left Bool.eq_false_iff.mp)]

/-- A new mask leaves the key as it is. -/
theorem KeyHalf.key_remask (h : KeyHalf) (m : BitVec 256) (now : Nat) : (h.remask m now).key = h.key := by
  rw [KeyHalf.key, KeyHalf.key, KeyHalf.remask, BitVec.xor_assoc, BitVec.xor_self, BitVec.xor_zero]

theorem HkHalf.key_remask (h : HkHalf) (m : BitVec 256) (now : Nat) : (h.remask m now).sh.key = h.sh.key := by
  rw [Shares.key, Shares.key, HkHalf.remask, BitVec.xor_assoc, BitVec.xor_self, BitVec.xor_zero]

/-- What a visit leaves but for the age it saw: the part u with fresh masks after its DRBG request. -/
def State.visited (s : State) (slot : Nat) (hk : Bool) : State :=
  let (r, u) := s.drbg 512
  if hk then u.remaskHk (keyIndex slot) (BitVec.ofNat 256 r) (BitVec.ofNat 256 (r / 2 ^ 256))
  else u.remaskSlot slot (BitVec.ofNat 256 r) (BitVec.ofNat 256 (r / 2 ^ 256))

/-- Slot is one of the 64 HK slots. -/
def isHkSlot (slot : Nat) : Bool := keyClass slot == 3 && decide (keyIndex slot < 64)

theorem exec_sweepSlotVisit_runs {slot : Nat} {s : State} (hserve : s.axis.serving = true) (hheld : s.apex.held = false)
    (h : (isHkSlot slot || slotExists (keyClass slot) (keyIndex slot)) = true) :
    ∃ age late, exec (.sweepSlotVisit slot) s = .next { s.visited slot (isHkSlot slot) with
      axis := { (s.visited slot (isHkSlot slot)).axis with ageSeen := age, maskLate := late } } := by
  apply Exists.intro
  apply Exists.intro
  show execSweepSlotVisit slot s = _
  unfold execSweepSlotVisit
  dsimp only
  rw [if_neg (fun hstop => hstop.elim (absurd hserve) fun hstop => hstop.elim (fun hh => by rw [hheld] at hh; cases hh) (absurd h))]
  rfl

theorem exec_sweepSlotVisit_absent {slot : Nat} {s : State}
    (h : s.axis.serving = false ∨ s.apex.held = true ∨ (isHkSlot slot || slotExists (keyClass slot) (keyIndex slot)) = false) :
    exec (.sweepSlotVisit slot) s = .next s := by
  show execSweepSlotVisit slot s = _
  unfold execSweepSlotVisit
  exact if_pos (h.imp Bool.eq_false_iff.mp (Or.imp_right Bool.eq_false_iff.mp))

theorem isHkSlot_of_exists {slot : Nat} (h : slotExists (keyClass slot) (keyIndex slot) = true) : isHkSlot slot = false := by
  refine Bool.eq_false_iff.mpr fun hk => ?_
  rw [show keyClass slot = 3 from eq_of_beq (Bool.and_eq_true_iff.mp hk).1] at h
  cases h

theorem isHkSlot_of_hk {slot : Nat} (hcls : keyClass slot = 3) (hidx : keyIndex slot < 64) : isHkSlot slot = true := by
  rw [isHkSlot, hcls, decide_eq_true hidx]
  rfl

/-- The slot x under the masks a and p at the time now. -/
def Slot.remask (x : Slot) (a p : BitVec 256) (now : Nat) : Slot :=
  { x with
    act := if x.active ≠ .none then x.act.remask (BitVec.ofNat 256 (a.toNat % 2 ^ (8 * algLen x.act.alg))) now else x.act
    pnd := if x.pending ≠ .empty then x.pnd.remask (BitVec.ofNat 256 (p.toNat % 2 ^ (8 * algLen x.pnd.alg))) now else x.pnd }

theorem Slot.remask_act_key (x : Slot) (a p : BitVec 256) (now : Nat) : (x.remask a p now).act.key = x.act.key := by
  show (if x.active ≠ .none then _ else x.act).key = _
  rw [apply_ite KeyHalf.key, KeyHalf.key_remask, ite_self]

theorem Slot.remask_maskAt {x : Slot} (a p : BitVec 256) (now : Nat) (h : x.active ≠ .none) : (x.remask a p now).act.maskAt = now := by
  show (if x.active ≠ .none then _ else x.act).maskAt = _
  rw [if_pos h]
  rfl

theorem Slot.remask_pnd_key (x : Slot) (a p : BitVec 256) (now : Nat) : (x.remask a p now).pnd.key = x.pnd.key := by
  show (if x.pending ≠ .empty then _ else x.pnd).key = _
  rw [apply_ite KeyHalf.key, KeyHalf.key_remask, ite_self]

/-- What a visit of a firmware-visible slot leaves in Axis (R82). -/
theorem State.visited_slot (s : State) (slot : Nat) : ∃ a p, (s.visited slot false).axis = { s.axis with
    drbgCount := s.axis.drbgCount + 1, slots := tput Slot.reset s.axis.slots slot ((s.slot slot).remask a p s.clk) } := by
  apply Exists.intro
  apply Exists.intro
  exact State.setSlot_axis (s.drbg 512).2 slot _

/-- An HK half that holds a key under a fresh mask, any other as it is. -/
def HkHalf.visit (on : Bool) (h : HkHalf) (m : BitVec 256) (now : Nat) : HkHalf := if on then h.remask m now else h

theorem HkHalf.visit_key (on : Bool) (h : HkHalf) (m : BitVec 256) (now : Nat) : (h.visit on m now).sh.key = h.sh.key := by
  rw [HkHalf.visit, apply_ite (fun h : HkHalf => h.sh.key), HkHalf.key_remask, ite_self]

/-- The region r after a visit of its HK slot j under the masks a and p. -/
def Region.remask (r : Region) (j : Nat) (a p : BitVec 256) (now : Nat) : Region :=
  if j = 0 then { r with k1 := r.k1.visit (r.state != .off) a now, nk1 := r.nk1.visit (r.state == .rekey) p now }
  else { r with k2 := r.k2.visit (r.state != .off) a now, nk2 := r.nk2.visit (r.state == .rekey) p now }

theorem Region.remask_keys (r : Region) (j : Nat) (a p : BitVec 256) (now : Nat) :
    (r.remask j a p now).k1.sh.key = r.k1.sh.key ∧ (r.remask j a p now).k2.sh.key = r.k2.sh.key ∧
      (r.remask j a p now).nk1.sh.key = r.nk1.sh.key ∧ (r.remask j a p now).nk2.sh.key = r.nk2.sh.key := by
  rw [Region.remask]
  split
  · exact ⟨HkHalf.visit_key .., rfl, HkHalf.visit_key .., rfl⟩
  · exact ⟨rfl, HkHalf.visit_key .., rfl, HkHalf.visit_key ..⟩

theorem Region.remask_maskAt {r : Region} (j : Nat) (a p : BitVec 256) (now : Nat) (h : r.state ≠ .off) :
    (if j = 0 then (r.remask j a p now).k1.maskAt else (r.remask j a p now).k2.maskAt) = now := by
  have hon : (r.state != .off) = true := bne_iff_ne.mpr h
  rw [Region.remask]
  split <;> (dsimp only; rw [HkHalf.visit, hon]; rfl)

/-- What a visit of an HK slot leaves in Hull (R82). -/
theorem State.visited_hk (s : State) (slot : Nat) : ∃ a p, (s.visited slot true).hull.regions =
    tput Region.reset s.hull.regions (keyIndex slot / 2) ((s.region (keyIndex slot / 2)).remask (keyIndex slot % 2) a p s.clk) := by
  refine ⟨BitVec.ofNat 256 (s.drbg 512).1, BitVec.ofNat 256 ((s.drbg 512).1 / 2 ^ 256), ?_⟩
  show ((s.drbg 512).2.remaskHk (keyIndex slot) _ _).hull.regions = _
  rw [Region.remask]
  unfold State.remaskHk
  dsimp only
  split <;> rfl

/-! Masks that grow too old, and the DRBG's reseeds (R82, R83). -/

theorem exec_maskOverdue_late {s : State} {t0 : Nat} (h : s.oldestMask = some t0) (hlate : s.axis.maskLate = false) :
    exec .maskOverdue s = .next (({ s.passTo (t0 + 64000001) with
      axis := { (s.passTo (t0 + 64000001)).axis with overdue := true, maskLate := true } }).raise 0x103 []) := by
  show execMaskOverdue s = _
  unfold execMaskOverdue
  rw [h]
  dsimp only
  rw [if_neg (by rw [hlate]; decide)]

theorem exec_maskOverdue_none {s : State} (h : s.oldestMask = none ∨ s.axis.maskLate = true) : exec .maskOverdue s = .next s := by
  show execMaskOverdue s = _
  unfold execMaskOverdue
  cases hold : s.oldestMask with
  | none => rfl
  | some t0 =>
    dsimp only
    exact if_pos (h.resolve_left (by rw [hold]; exact Option.some_ne_none t0))

/-- Settles O19, row by row; a visit by what it leaves of a slot and of a region. -/
theorem axisEventsKeepTheKeys : Obligations.AxisEventsKeepTheKeys := by
  unfold Obligations.AxisEventsKeepTheKeys
  intro s
  refine ⟨fun slot => ⟨fun o h => ?_, fun o l hold hne => ?_, exec_generationDrainEnd_none, State.wakeSlot_none⟩,
    fun d k g rest h => ⟨_, _, exec_markingPassEnd_cons h, State.marked_marking s k g rest, fun j => State.marked_active rest⟩,
    exec_markingPassEnd_nil, exec_sweepPassStart_runs, fun slot hserve hheld => ⟨fun hex hact => ?_, fun hcls hidx hoff => ?_⟩,
    fun slot hex hhk => exec_sweepSlotVisit_absent (.inr (.inr ?_)),
    fun h => ⟨exec_sweepPassStart_stopped h, fun slot => exec_sweepSlotVisit_absent (h.imp_right Or.inl)⟩,
    fun t0 => exec_maskOverdue_late, exec_maskOverdue_none, fun hn hok => ?_, fun hn hok hserve => ?_, fun hn => if_pos hn⟩
  · have hexists : ((s.slot slot).old.find? (·.count == 0)).or (s.slot slot).old.head? = some o := by rw [h]; rfl
    have hdrained : o.count = 0 := eq_of_beq (List.find?_some (p := fun g : OldGen => g.count == 0) h)
    rw [exec_generationDrainEnd_eq hexists, if_pos hdrained]
    rfl
  · have hnone : (s.slot slot).old.find? (·.count == 0) = none :=
      List.find?_eq_none.mpr fun g hg hz => hne g hg (eq_of_beq hz)
    rw [exec_generationDrainEnd_eq (o := o) (by rw [hnone, hold]; rfl), if_neg (hne o (by rw [hold]; exact List.mem_cons_self))]
    rfl
  · obtain ⟨age, late, hrun⟩ := exec_sweepSlotVisit_runs hserve hheld (Bool.or_eq_true_iff.mpr (.inr hex))
    rw [isHkSlot_of_exists hex] at hrun
    obtain ⟨a, p, haxis⟩ := s.visited_slot slot
    refine ⟨_, hrun, ?_⟩
    simp only [State.slot, haxis, tget_tput_self]
    exact ⟨Slot.remask_act_key .., Slot.remask_maskAt _ _ _ hact, Slot.remask_pnd_key .., rfl, fun j hj => tget_tput_ne _ _ hj _, trivial⟩
  · obtain ⟨age, late, hrun⟩ := exec_sweepSlotVisit_runs hserve hheld (Bool.or_eq_true_iff.mpr (.inl (isHkSlot_of_hk hcls hidx)))
    rw [isHkSlot_of_hk hcls hidx] at hrun
    obtain ⟨a, p, hhull⟩ := s.visited_hk slot
    refine ⟨_, hrun, ?_⟩
    dsimp only
    simp only [State.region, hhull, tget_tput_self]
    obtain ⟨h1, h2, h3, h4⟩ := (s.region (keyIndex slot / 2)).remask_keys (keyIndex slot % 2) a p s.clk
    exact ⟨h1, h2, h3, h4, Region.remask_maskAt _ _ _ _ hoff, fun j hj => tget_tput_ne _ _ hj _⟩
  · rw [hex, Bool.or_false, Bool.eq_false_iff]
    intro hk
    obtain ⟨hcls, hidx⟩ := Bool.and_eq_true_iff.mp hk
    exact hhk.elim (absurd (eq_of_beq hcls)) fun hle => absurd (of_decide_eq_true hidx) (by omega)
  · exact (if_neg (by omega)).trans (if_pos hok)
  · exact (if_neg (by omega)).trans ((if_neg (by rw [hok]; decide)).trans (if_pos hserve))

end Sys2Proof.Machine
end

section
namespace Sys2Proof.Machine

/-! What a completion leaves as it is, and what the operations on associations do (R72, R115, R456, R472). -/

/-- From s to t nothing changes but what completions, writes through Hull, events and counters write. -/
def Posts (s t : State) : Prop :=
  t = { s with
    freeCount := t.freeCount, out := t.out, mem := t.mem, hull := t.hull, counters := t.counters, tele := t.tele, once := t.once
    rings := t.rings }

theorem Posts.refl (s : State) : Posts s s := rfl

theorem Posts.trans {s t u : State} (h : Posts s t) (h' : Posts t u) : Posts s u :=
  Eq.trans h' (congrArg (fun w : State => { w with
    freeCount := u.freeCount, out := u.out, mem := u.mem, hull := u.hull, counters := u.counters, tele := u.tele, once := u.once
    rings := u.rings }) h)

theorem Stores.posts {s t : State} (h : Stores s t) : Posts s t := by
  have hout : t.out = s.out := by rw [h.frame]
  rw [Posts, hout]
  exact h.frame

theorem Reports.posts {s t : State} (h : Reports s t) : Posts s t := h.stores.posts

theorem Posts.ite {s a b : State} {c : Prop} [Decidable c] (ha : Posts s a) (hb : Posts s b) : Posts s (if c then a else b) := by
  split
  case isTrue => exact ha
  case isFalse => exact hb

theorem Posts.foldl {α : Type} {s t : State} {f : State → α → State} (l : List α) (h : Posts s t)
    (hf : ∀ u a, Posts u (f u a)) : Posts s (l.foldl f t) :=
  List.foldlRecOn l f h fun u hu a _ => hu.trans (hf u a)

theorem State.raise_posts (s : State) (ev : Nat) (data : List Byte) : Posts s (s.raise ev data) := (s.raise_raises ev data).toReports.posts

theorem State.count_posts (s : State) (id : Nat) : Posts s (s.count id) := (s.count_reports id).posts

theorem State.setRing_posts (s : State) (k : RingKind) (r : Nat) (x : Ring) : Posts s (s.setRing k r x) := rfl

theorem State.ringError_posts (s : State) (k : RingKind) (r c : Nat) : Posts s (s.ringError k r c) := by
  unfold State.ringError
  dsimp only
  refine Posts.trans (Posts.ite ?_ ?_) (State.raise_posts _ _ _)
  · exact s.setRing_posts _ _ _
  · rfl

theorem State.writeCompletion_posts (s : State) (d : Desc) (rep : Reply) (c : Nat) : Posts s (s.writeCompletion d rep c) := by
  unfold State.writeCompletion
  dsimp only
  split
  · exact Posts.refl s
  · split
    · exact Posts.trans (State.writeMem_stores _ _ _ _ _).posts (State.setRing_posts _ _ _ _)
    · exact Posts.trans (State.writeMem_stores _ _ _ _ _).posts (State.ringError_posts _ _ _ _)

theorem State.complete_posts (s : State) (d : Desc) (rep : Reply) : Posts s (s.complete d rep) := by
  unfold State.complete
  split
  · rfl
  · dsimp only
    split
    · rfl
    · refine Posts.trans ?_ (State.writeCompletion_posts _ _ _ _)
      rfl

theorem State.done_posts (s : State) (d : Desc) (st : Status) : Posts s (s.done d st) := s.complete_posts d _

theorem State.writeBufDone_posts (s : State) (d : Desc) (m : Master) (a : Nat) (bs : List Byte) (rep : Reply) :
    Posts s (s.writeBufDone d m a bs rep) := by
  have hw := (s.writeMem_stores m (ringOwner d.ring.val) a bs).posts
  unfold State.writeBufDone
  split
  · rename_i hq
    rw [hq] at hw
    exact hw.trans (State.complete_posts _ _ _)
  · rename_i hq
    rw [hq] at hw
    exact hw.trans (State.done_posts _ _ _)

section
variable {s t : State} (h : Posts s t)
include h

theorem Posts.twin : t.twin = s.twin := by rw [h]
theorem Posts.assoc : t.assoc = s.assoc := by rw [h]
theorem Posts.clk : t.clk = s.clk := by rw [h]

end

/-! Operations on associations: what a resume, a switch and a rotation leave. -/

/-- From s to t nothing changes but associations, what their Prisms hold of them, and what completions and reports write. -/
def RunsAssoc (s t : State) : Prop :=
  t = { s with
    freeCount := t.freeCount, out := t.out, mem := t.mem, hull := t.hull, counters := t.counters, tele := t.tele, once := t.once
    rings := t.rings, assoc := t.assoc, prism := t.prism }

theorem RunsAssoc.refl (s : State) : RunsAssoc s s := rfl

theorem RunsAssoc.trans {s t u : State} (h : RunsAssoc s t) (h' : RunsAssoc t u) : RunsAssoc s u :=
  Eq.trans h' (congrArg (fun w : State => { w with
    freeCount := u.freeCount, out := u.out, mem := u.mem, hull := u.hull, counters := u.counters, tele := u.tele, once := u.once
    rings := u.rings, assoc := u.assoc, prism := u.prism }) h)

theorem Posts.runsAssoc {s t : State} (h : Posts s t) : RunsAssoc s t := by
  have hassoc : t.assoc = s.assoc := by rw [h]
  have hprism : t.prism = s.prism := by rw [h]
  rw [RunsAssoc, hassoc, hprism]
  exact h

theorem RunsAssoc.twin {s t : State} (h : RunsAssoc s t) : t.twin = s.twin := by rw [h]

theorem RunsAssoc.ite {s a b : State} {c : Prop} [Decidable c] (ha : RunsAssoc s a) (hb : RunsAssoc s b) : RunsAssoc s (if c then a else b) := by
  split
  case isTrue => exact ha
  case isFalse => exact hb

theorem RunsAssoc.foldl {α : Type} {s t : State} {f : State → α → State} (l : List α) (h : RunsAssoc s t)
    (hf : ∀ u a, RunsAssoc u (f u a)) : RunsAssoc s (l.foldl f t) :=
  List.foldlRecOn l f h fun u hu a _ => hu.trans (hf u a)

theorem RunsAssoc.raise {s t : State} (h : RunsAssoc s t) (ev : Nat) (data : List Byte) : RunsAssoc s (t.raise ev data) :=
  h.trans (t.raise_posts ev data).runsAssoc

theorem State.setSa_runsAssoc (s : State) (h : Nat) (a : Assoc) : RunsAssoc s (s.setSa h a) := rfl

theorem State.enterKeyLost_runsAssoc (s : State) (h cause : Nat) : RunsAssoc s (s.enterKeyLost h cause) := (s.setSa_runsAssoc h _).raise _ _

theorem State.atCeiling_runsAssoc (s : State) (h : Nat) : RunsAssoc s (s.atCeiling h) := by
  unfold State.atCeiling
  dsimp only
  exact RunsAssoc.ite ((s.setSa_runsAssoc h _).raise _ _) (RunsAssoc.refl s)

theorem State.nextMoved_runsAssoc (s : State) (h : Nat) : RunsAssoc s (s.nextMoved h) := by
  rcases s.nextMoved_eq h with hsame | ⟨st, w, l, u, hraises, heq⟩
  · rw [hsame]
    exact RunsAssoc.refl s
  · rw [heq]
    exact (s.setSa_runsAssoc h _).trans (hraises.toReports.posts.runsAssoc.trans (u.atCeiling_runsAssoc h))

theorem State.caseClear_runsAssoc (s : State) (h : Nat) : RunsAssoc s (s.caseClear h) := by
  unfold State.caseClear
  exact RunsAssoc.ite (RunsAssoc.refl s) rfl

theorem State.resumeKey_runsAssoc (s : State) (h : Nat) : RunsAssoc s (s.resumeKey h) := by
  unfold State.resumeKey
  exact RunsAssoc.ite (s.enterKeyLost_runsAssoc h _) (RunsAssoc.refl s)

theorem State.resumeRecv_runsAssoc (s : State) (h : Nat) : RunsAssoc s (s.resumeRecv h) :=
  (s.setSa_runsAssoc h _).trans (State.resumeKey_runsAssoc _ h)

theorem State.resumeOne_runsAssoc (s : State) (h : Nat) : RunsAssoc s (s.resumeOne h) := by
  unfold State.resumeOne
  refine RunsAssoc.ite (s.resumeRecv_runsAssoc h) ?_
  refine RunsAssoc.trans ?_ (State.caseClear_runsAssoc _ h)
  refine RunsAssoc.trans ?_ (State.nextMoved_runsAssoc _ h)
  refine RunsAssoc.trans ?_ (State.resumeKey_runsAssoc _ h)
  exact RunsAssoc.ite (RunsAssoc.raise (RunsAssoc.trans (s.setSa_runsAssoc h _) (State.setSa_runsAssoc _ h _)) _ _) (s.setSa_runsAssoc h _)

theorem State.staleOne_runsAssoc (s : State) (h : Nat) : RunsAssoc s (s.staleOne h) := by
  unfold State.staleOne
  exact RunsAssoc.ite (s.resumeRecv_runsAssoc h) ((s.setSa_runsAssoc h _).raise _ _)

theorem State.switchEntry_runsAssoc (s : State) (fr dst : Nat) (pn : Option Nat) : RunsAssoc s (s.switchEntry fr dst pn).2 := by
  unfold State.switchEntry
  dsimp only
  split
  · split
    · exact (s.setSa_runsAssoc _ _).trans (State.setSa_runsAssoc _ _ _)
    · exact (s.setSa_runsAssoc _ _).raise _ _
  · split
    · exact ((s.setSa_runsAssoc _ _).trans (State.setSa_runsAssoc _ _ _)).trans
        ((State.setSa_runsAssoc _ _ _).trans (State.atCeiling_runsAssoc _ _))
    · exact (s.setSa_runsAssoc _ _).raise _ _

theorem State.withAssoc_runsAssoc (s : State) (x : AssocState) : RunsAssoc s { s with assoc := x } := rfl

theorem State.settleEntry_runsAssoc (s : State) (fr : Nat) (b : Bool) : RunsAssoc s (s.settleEntry fr b) := by
  unfold State.settleEntry
  split
  · exact RunsAssoc.refl s
  · exact RunsAssoc.ite (s.withAssoc_runsAssoc _) ((s.withAssoc_runsAssoc _).raise _ _)

theorem State.dropRotations_runsAssoc (s : State) : RunsAssoc s s.dropRotations := s.withAssoc_runsAssoc _

theorem State.fireRotation_runsAssoc (s : State) (r : Rotation) : RunsAssoc s (s.fireRotation r) := by
  unfold State.fireRotation
  generalize hq : r.entries.foldl (fun (n, s) e => let (ok, s) := s.switchEntry e.1 e.2 none; (n + b2n ok, s.settleEntry e.1 ok)) (0, s) = q
  have hrun : RunsAssoc s q.2 := by
    rw [← hq]
    exact List.foldlRecOn (motive := fun q : Nat × State => RunsAssoc s q.2) _ _ (RunsAssoc.refl s) fun q hrun e _ =>
      hrun.trans ((State.switchEntry_runsAssoc _ _ _ _).trans (State.settleEntry_runsAssoc _ _ _))
  obtain ⟨n, u⟩ := q
  dsimp only
  have hdrop : RunsAssoc s u.dropRotations := RunsAssoc.trans hrun u.dropRotations_runsAssoc
  split
  · exact hdrop
  · exact hdrop.trans (State.complete_posts _ _ _).runsAssoc

theorem State.fireRotations_runsAssoc (s : State) : RunsAssoc s s.fireRotations :=
  RunsAssoc.foldl _ (RunsAssoc.refl s) State.fireRotation_runsAssoc

theorem State.reachedPn_runsAssoc (s : State) (e : Nat × Nat) : RunsAssoc s (s.reachedPn e) := by
  unfold State.reachedPn
  exact RunsAssoc.ite ((State.switchEntry_runsAssoc _ _ _ _).trans ((State.settleEntry_runsAssoc _ _ _).trans
    (State.dropRotations_runsAssoc _))) (RunsAssoc.refl s)

theorem State.rearm_runsAssoc (s : State) : RunsAssoc s s.rearm :=
  RunsAssoc.foldl _ ((s.withAssoc_runsAssoc _).trans (State.fireRotations_runsAssoc _)) State.reachedPn_runsAssoc

/-- A take-over leaves the twin's own state (R455, R456). -/
theorem State.takeOver_runsAssoc (s : State) (current : Bool) : RunsAssoc s (s.takeOver current) := by
  unfold State.takeOver
  refine RunsAssoc.raise ?_ _ _
  cases current
  · exact RunsAssoc.foldl _ (RunsAssoc.refl s) State.staleOne_runsAssoc
  · exact RunsAssoc.foldl _ (RunsAssoc.trans (RunsAssoc.foldl _ (RunsAssoc.refl s) State.resumeOne_runsAssoc) (State.rearm_runsAssoc _))
      fun u p => RunsAssoc.raise (RunsAssoc.refl u) _ _

end Sys2Proof.Machine
end

section
namespace Sys2Proof.Machine

/-! The lease (R450 to R459). -/

theorem State.raise_twin (s : State) (ev : Nat) (data : List Byte) : (s.raise ev data).twin = s.twin := (s.raise_posts ev data).twin

/-- The restore timer leaves all of the twin but itself. -/
theorem State.syncRestore_twin (s : State) :
    s.syncRestore.twin = { s.twin with restoreDue := s.syncRestore.twin.restoreDue, restoreDone := s.syncRestore.twin.restoreDone } := by
  unfold State.syncRestore
  split
  · split <;> rfl
  · rfl

/-- A change of the lease leaves the epoch, its end and what the copies hold. -/
theorem State.setLease_twin (s : State) (l : Lease) : (s.setLease l).twin = { s.twin with
    lease := l, holdSince := (s.setLease l).twin.holdSince, staleAsked := (s.setLease l).twin.staleAsked
    restoreDue := (s.setLease l).twin.restoreDue, restoreDone := (s.setLease l).twin.restoreDone } := by
  unfold State.setLease
  split
  · rename_i h
    rw [h]
  · dsimp only
    rw [State.syncRestore_twin, State.raise_twin]
    rfl

section
variable {s : State} {msg : List Byte} {t0 : Nat}

/-- When a grant to a request sent at t0 ends the lease (R452). -/
def State.grantEnds (s : State) (t0 : Nat) (msg : List Byte) : Nat := t0 + min (1000 * beAt msg 12 4) (1000000 * s.twin.leaseMs)

/-- The part under the epoch and the end of a grant. -/
def State.underGrant (s : State) (t0 : Nat) (msg : List Byte) : State :=
  { s with twin := { s.twin with epoch := beAt msg 24 8, leaseEnd := s.grantEnds t0 msg } }

theorem State.granted_late (h : s.grantEnds t0 msg ≤ s.clk) :
    s.granted t0 msg = { s with twin := { s.twin with epoch := beAt msg 24 8 } } := if_pos h

theorem State.granted_lapsed (h : s.clk < s.grantEnds t0 msg) (hlease : s.twin.lease = .lapsed) :
    s.granted t0 msg = (s.underGrant t0 msg).setLease .active := by
  unfold State.grantEnds at h
  unfold State.granted State.underGrant State.grantEnds
  dsimp only [State.withTwin]
  rw [if_neg (Nat.not_le.mpr h), hlease]

theorem State.granted_stale (h : s.clk < s.grantEnds t0 msg) (hlease : s.twin.lease = .active) (hcode : leAt msg 11 1 = 1) :
    s.granted t0 msg = if s.twin.stale ∨ (s.twin.wantCurrent = true ∧ s.twin.staleAsked = false) then s.underGrant t0 msg
      else ({ s.underGrant t0 msg with twin := { (s.underGrant t0 msg).twin with stale := true, wantCurrent := false, holdSince := none } }).raise
        0x303 [] := by
  unfold State.grantEnds at h
  unfold State.granted State.underGrant State.grantEnds
  dsimp only [State.withTwin]
  rw [if_neg (Nat.not_le.mpr h), hlease]
  exact (if_pos hcode).trans (if_congr (or_congr Iff.rfl (and_congr Iff.rfl Bool.eq_false_iff.symm)) rfl rfl)

theorem State.granted_current (h : s.clk < s.grantEnds t0 msg) (hlease : s.twin.lease = .active) (hcode : leAt msg 11 1 ≠ 1) :
    s.granted t0 msg = if s.twin.wantCurrent then
      ({ s.underGrant t0 msg with twin := { (s.underGrant t0 msg).twin with wantCurrent := false } }).raise 0x304 [] else s.underGrant t0 msg := by
  unfold State.grantEnds at h
  unfold State.granted State.underGrant State.grantEnds
  dsimp only [State.withTwin]
  rw [if_neg (Nat.not_le.mpr h), hlease]
  exact if_neg hcode

/-- A standby that is granted the lease takes over: ACTIVE, not stale, and its next copy is full. -/
theorem State.granted_standby (h : s.clk < s.grantEnds t0 msg) (hlease : s.twin.lease = .standby) :
    (s.granted t0 msg).twin.lease = .active ∧ (s.granted t0 msg).twin.leaseEnd = s.grantEnds t0 msg ∧
      (s.granted t0 msg).twin.epoch = beAt msg 24 8 ∧ (s.granted t0 msg).twin.stale = false ∧ (s.granted t0 msg).twin.nextFull = true ∧
      (s.granted t0 msg).twin.asked = false ∧ (s.granted t0 msg).twin.asking = [] := by
  unfold State.grantEnds at h ⊢
  unfold State.granted
  dsimp only [State.withTwin]
  rw [if_neg (Nat.not_le.mpr h), hlease]
  dsimp only
  rw [apply_ite State.twin, State.raise_twin, ite_self, (Posts.foldl _ (Posts.refl _) fun u d => u.done_posts d .ok).twin]
  dsimp only
  rw [(State.takeOver_runsAssoc _ _).twin, State.setLease_twin]
  exact ⟨rfl, rfl, rfl, rfl, rfl, rfl, rfl⟩

end

theorem State.arbRefuse_twin (s : State) : s.arbRefuse.twin = s.twin :=
  ((s.count_posts _).trans (State.raiseOnce_raises _ _ _ _).toReports.posts).twin

/-- The part after its request, and the COPY_CURRENT it owes (R451, R454). -/
def State.requestSent (u : State) : State :=
  let v := { u with twin := { u.twin with requestDue := u.clk + 250000 * u.twin.leaseMs } }
  let w := v.arbSend 0x40 (if v.twin.lease = .standby then b2n v.standbyReady else 2)
  if w.twin.lease = .active ∧ w.twin.wantCurrent then w.arbSend 0x45 0 else w

section
variable {s : State} {msg : List Byte} {t0 : Nat} (hrun : s.halted = false)
include hrun

theorem exec_leaseGrant_accepted (h : s.arbAccept 0x41 msg = some t0) : exec (.leaseGrant msg) s = .next (s.granted t0 msg) := by
  show execLeaseGrant msg s = _
  rw [execLeaseGrant, if_neg (by rw [hrun]; decide), h]

theorem exec_leaseGrant_refused (h : s.arbAccept 0x41 msg = none) : exec (.leaseGrant msg) s = .next s.arbRefuse := by
  show execLeaseGrant msg s = _
  rw [execLeaseGrant, if_neg (by rw [hrun]; decide), h]

theorem exec_leaseDeny_accepted (h : s.arbAccept 0x42 msg = some t0) : exec (.leaseDeny msg) s =
    if s.twin.lease = .lapsed then
      .next ({ s with twin := { s.twin with epoch := beAt msg 24 8 } }.setLease .standby).shadowAll
    else .next { s with twin := { s.twin with epoch := beAt msg 24 8 } } := by
  show execLeaseDeny msg s = _
  rw [execLeaseDeny, if_neg (by rw [hrun]; decide), h]
  rfl

theorem exec_leaseDeny_refused (h : s.arbAccept 0x42 msg = none) : exec (.leaseDeny msg) s = .next s.arbRefuse := by
  show execLeaseDeny msg s = _
  rw [execLeaseDeny, if_neg (by rw [hrun]; decide), h]

theorem exec_leaseRequestSend_sends (hlease : s.twin.lease = .standby ∨ s.twin.lease = .active ∨ s.twin.lease = .lapsed)
    (hnot : s.twin.arbRefused = false) (hver : s.twin.arb.ver ≠ 0) :
    exec .leaseRequestSend s = .next (s.passTo s.twin.requestDue).requestSent := by
  show execLeaseRequestSend s = _
  have hsends : (s.twin.lease == .standby || s.twin.lease == .active || s.twin.lease == .lapsed) = true := by
    rcases hlease with h | h | h <;> rw [h] <;> rfl
  unfold execLeaseRequestSend
  refine (if_neg (by rw [hrun]; decide)).trans
    ((if_neg fun hno => hno.elim (absurd hsends) fun hno => hno.elim (Bool.eq_false_iff.mp hnot) hver).trans ?_)
  generalize s.passTo s.twin.requestDue = u
  rfl

theorem exec_staleRequestSend_sends (hold : s.twin.holdSince = some t0) (hlease : s.twin.lease = .active) (hus : s.twin.staleUs ≠ 0)
    (hasked : s.twin.staleAsked = false) (hstale : s.twin.stale = false) (hver : 2 ≤ s.twin.arb.ver) :
    let u := s.passTo (t0 + 1000 * s.twin.staleUs)
    exec .staleRequestSend s = .next (({ u with twin := { u.twin with staleAsked := true } }).arbSend 0x44 0) := by
  show execStaleRequestSend s = _
  unfold execStaleRequestSend
  rw [if_neg (by rw [hrun]; decide), hold]
  dsimp only
  rw [if_neg (by rw [hlease, hasked, hstale]; simp; omega)]
  rfl

end

theorem exec_leaseRequestSend_silent {s : State} (h : s.twin.lease = .unconfigured ∨ s.twin.lease = .solo ∨ s.twin.lease = .handover ∨
    s.twin.arbRefused = true ∨ s.twin.arb.ver = 0) : exec .leaseRequestSend s = .next s := by
  show execLeaseRequestSend s = _
  unfold execLeaseRequestSend
  split
  · rfl
  · refine if_pos ?_
    rcases h with h | h | h | h | h
    · exact .inl (by rw [h]; decide)
    · exact .inl (by rw [h]; decide)
    · exact .inl (by rw [h]; decide)
    · exact .inr (.inl h)
    · exact .inr (.inr h)

theorem exec_staleRequestSend_silent {s : State} (h : s.twin.holdSince = none ∨ s.twin.lease ≠ .active ∨ s.twin.staleUs = 0 ∨
    s.twin.staleAsked = true ∨ s.twin.stale = true ∨ s.twin.arb.ver < 2) : exec .staleRequestSend s = .next s := by
  show execStaleRequestSend s = _
  unfold execStaleRequestSend
  split
  · rfl
  · cases hold : s.twin.holdSince with
    | none => rfl
    | some t => exact if_pos (h.resolve_left (by rw [hold]; exact Option.some_ne_none t))

/-- Settles O24, message by message and timer by timer. -/
theorem leasesFollowTheArbiter : Obligations.LeasesFollowTheArbiter := by
  unfold Obligations.LeasesFollowTheArbiter
  intro s
  refine ⟨exec_leaseRequestSend_sends, exec_leaseRequestSend_silent, fun msg t0 hrun hacc => ?_,
    fun msg => exec_leaseGrant_refused, fun msg => exec_leaseDeny_refused, s.arbRefuse_twin, fun msg t0 hrun hacc => ?_,
    fun h => if_pos h, fun hact hhand => if_neg (by rintro (h | h) <;> contradiction), fun t0 => exec_staleRequestSend_sends,
    exec_staleRequestSend_silent, fun t0 hdue => ?_, fun hdue => ?_⟩
  · have hexec := exec_leaseGrant_accepted hrun hacc
    refine ⟨fun hlate => ?_, fun hnow => ⟨fun hlease => ?_, fun hlease hcode => ?_, fun hlease hcode => ?_, fun hlease =>
      ⟨_, hexec, State.granted_standby hnow hlease⟩⟩⟩
    · rw [hexec, State.granted_late hlate]
    · rw [hexec, State.granted_lapsed hnow hlease]
      rfl
    · rw [hexec, State.granted_stale hnow hlease hcode]
      rfl
    · rw [hexec, State.granted_current hnow hlease hcode]
      rfl
  · rw [exec_leaseDeny_accepted hrun hacc]
    exact ⟨fun h => if_pos h, fun h => if_neg h⟩
  · show execWaitToRestoreExpiry s = _
    rw [execWaitToRestoreExpiry, hdue]
    rfl
  · show execWaitToRestoreExpiry s = _
    rw [execWaitToRestoreExpiry, hdue]

end Sys2Proof.Machine
end

section
namespace Sys2Proof.Machine

/-! Register writes by access type, and by who writes (R9, R11, R560, R565, Table 2.11). -/

section
variable {s : State} {off : Nat} (v : Nat)

/-- What Compass writes into the window of a part that runs. -/
theorem State.registerWrite_window (hrun : s.halted = false) (halign : off % 4 = 0) (hlo : 0x00200000 ≤ off) (hhi : off < 0x04000000) :
    s.registerWrite off v .compass = s.windowWrite off v := by
  have hheld : s.apex.held = false := (Bool.or_eq_false_iff.mp hrun).1
  unfold State.registerWrite
  rw [if_neg (by simp [halign, hheld, hrun]), if_neg (by omega), if_pos hhi, if_pos ⟨by rw [State.mayWriteRegs, hrun]; rfl, .inl rfl⟩]

/-- What Compass writes into the peripherals of a part that runs. -/
theorem State.registerWrite_periph (hrun : s.halted = false) (halign : off % 4 = 0) (hlo : 0x20000000 ≤ off) :
    s.registerWrite off v .compass = s.periphWrite off v := by
  have hheld : s.apex.held = false := (Bool.or_eq_false_iff.mp hrun).1
  unfold State.registerWrite
  rw [if_neg (by simp [halign, hheld, hrun]), if_neg (by omega), if_neg (by omega), if_pos ⟨hlo, rfl⟩]

/-- What the debug port writes into the window under right 4, and under right 12 where a lane test stands (Table 2.11). -/
theorem State.registerWrite_debug (hrun : s.halted = false) (hright : s.dbgRight 4 = true) (hlo : 0x00200000 ≤ off) (hhi : off < 0x04000000)
    (hlane : laneTest off = false ∨ s.dbgRight 12 = true) : s.registerWrite off v .debugPort = s.registerWrite off v .compass := by
  have hmbx : ¬ (0x00100000 ≤ off ∧ off < 0x00200000) := by omega
  have hlane' : ¬ laneTest off = true ∨ s.dbgRight 12 = true := hlane.imp_left Bool.eq_false_iff.mp
  have hmay : s.mayWriteRegs .debugPort = true ∧ s.mayWriteRegs .compass = true := by simp [State.mayWriteRegs, hrun, hright]
  unfold State.registerWrite
  simp only [if_neg hmbx, if_pos hhi, hmay, hlane', hrun, or_true, and_true, if_true, Bool.false_eq_true, and_false]

theorem State.registerWrite_unaligned (src : Source) (h : off % 4 ≠ 0) : s.registerWrite off v src = none := if_pos (.inl h)

theorem State.registerWrite_halted (h : s.halted = true) : s.registerWrite off v .compass = none := if_pos (.inr (.inr ⟨rfl, h⟩))

theorem State.registerWrite_gap (src : Source) (hlo : 0x04000000 ≤ off) (hhi : off < 0x20000000) : s.registerWrite off v src = none := by
  unfold State.registerWrite
  refine ite_eq_left_iff.mpr fun _ => ?_
  rw [if_neg (by omega), if_neg (by omega), if_neg (by omega)]

theorem State.registerWrite_debug_periph (h : 0x20000000 ≤ off) : s.registerWrite off v .debugPort = none := by
  unfold State.registerWrite
  refine ite_eq_left_iff.mpr fun _ => ?_
  rw [if_neg (by omega), if_neg (by omega), if_neg fun hc => nomatch hc.2]

theorem State.registerWrite_no_right (hright : s.dbgRight 4 = false) (hlo : 0x00200000 ≤ off) : s.registerWrite off v .debugPort = none := by
  have hmay : s.mayWriteRegs .debugPort = false := by
    show (!s.halted && s.dbgRight 4) = false
    rw [hright, Bool.and_false]
  unfold State.registerWrite
  refine ite_eq_left_iff.mpr fun _ => ?_
  simp only [hmay, Bool.false_eq_true, false_and, if_false, reduceCtorEq, and_false, ite_self]
  exact if_neg (by omega)

theorem laneTest_range (h : laneTest off = true) : 0x03400000 ≤ off ∧ off < 0x03E00000 := by
  simp only [laneTest, Bool.and_eq_true, decide_eq_true_eq] at h
  obtain ⟨⟨⟨⟨hlo, hhi⟩, -⟩, -⟩, -⟩ := h
  exact ⟨hlo, hhi⟩

theorem State.registerWrite_no_lane_right (hlane : laneTest off = true) (hright : s.dbgRight 12 = false) :
    s.registerWrite off v .debugPort = none := by
  obtain ⟨hlo, hhi⟩ := laneTest_range hlane
  unfold State.registerWrite
  refine ite_eq_left_iff.mpr fun _ => ?_
  rw [if_neg (by omega), if_pos (by omega),
    if_neg fun hc => hc.2.elim (fun hsrc => nomatch hsrc) fun hc => hc.elim (absurd hlane) (Bool.eq_false_iff.mp hright)]

theorem State.portsWrite_gap (hlo : 0x03600000 ≤ off) (hhi : off < 0x03800000) : s.portsWrite off v = none := by
  unfold State.portsWrite
  dsimp only
  rw [if_neg (by omega), if_neg (by omega), if_neg (by omega)]

theorem State.registerWrite_port_gap (src : Source) (hlo : 0x03600000 ≤ off) (hhi : off < 0x03800000) : s.registerWrite off v src = none := by
  have hwin : s.windowWrite off v = none := by
    unfold State.windowWrite
    rw [if_neg (by omega), if_neg (by omega), if_neg (by omega), if_neg (by omega), if_neg (by omega), if_neg (by omega), if_neg (by omega),
      if_neg (by omega), if_neg (by omega), if_pos (by omega), State.portsWrite_gap v hlo hhi]
  unfold State.registerWrite
  refine ite_eq_left_iff.mpr fun _ => ?_
  rw [if_neg (by omega), if_pos (by omega), hwin, ite_self]

end

/-! Registers that are RW, and W1C, throughout. -/

/-- Registers of the window that are RW throughout, each with its mask. -/
def rwRegs : List (Nat × Nat) :=
  [(0x00302000, 0xFFFFF000), (0x00302004, 0xFF), (0x00306004, 0xFFFFFFFF), (0x00401004, 0x01FFFFFF), (0x00C00A00, 0xFFFFFFFF),
    (0x01000010, 0xFFFFFFFF), (0x01400010, 0xFFFFFFFF), (0x01400018, 0xFFFF), (0x01800008, 0xC001FFFF), (0x01800100, 0xFFFFF000),
    (0x02000000, 0x3), (0x03001000, 0x3FF), (0x03001004, 0xFFFFFFFF), (0x03800200, 0x3), (0x03E00024, 0xFFFFFFC0), (0x03E00030, 0x800000FF)]

theorem State.windowWrite_rw (s : State) (v : Nat) : ∀ p ∈ rwRegs, s.windowWrite p.1 v = some (s.rwWrite p.1 p.2 v) := by
  simp only [rwRegs, List.forall_mem_cons]
  exact ⟨rfl, rfl, rfl, rfl, rfl, rfl, rfl, rfl, rfl, rfl, rfl, rfl, rfl, rfl, rfl, rfl, List.forall_mem_nil _⟩

/-- Registers of the window that are W1C throughout, each with its mask. -/
def w1cRegs : List (Nat × Nat) := [(0x00400000, 0xE0000000), (0x00800000, 0xF0000000), (0x00C0000C, 0x80000000), (0x0200000C, 0x7)]

theorem State.windowWrite_w1c (s : State) (v : Nat) : ∀ p ∈ w1cRegs, s.windowWrite p.1 v = some (s.w1cWrite p.1 p.2 v) := by
  simp only [w1cRegs, List.forall_mem_cons]
  exact ⟨rfl, rfl, rfl, rfl, List.forall_mem_nil _⟩

theorem ofNat_land (v m : Word32) : BitVec.ofNat 32 (v.toNat &&& m.toNat) = v &&& m := by
  rw [← BitVec.toNat_and, BitVec.ofNat_toNat, BitVec.setWidth_eq]

/-- The register at off as a write of v leaves it, where its RW bits are those of m. -/
theorem State.rwWrite_eq (s : State) (off v m : Word32) :
    s.rwWrite off.toNat m.toNat v.toNat = s.setReg off.toNat ((s.reg off.toNat &&& ~~~m) ||| (v &&& m)) := by
  rw [State.rwWrite, ofNat_land, BitVec.ofNat_toNat, BitVec.setWidth_eq]

theorem State.w1cWrite_eq (s : State) (off v m : Word32) :
    s.w1cWrite off.toNat m.toNat v.toNat = s.setReg off.toNat (s.reg off.toNat &&& ~~~(v &&& m)) := by
  rw [State.w1cWrite, ofNat_land]

theorem exec_registerWrite_of_some {s t : State} {off v : Word32} {src : Source} (h : s.registerWrite off.toNat v.toNat src = some t) :
    exec (.registerWrite off v src) s = .next t := by
  show execRegisterWrite off v src s = _
  rw [execRegisterWrite, h, Option.getD_some]

section
variable {s : State} (v : Word32) (hrun : s.halted = false)
include hrun

theorem exec_registerWrite_rw {p : Word32 × Word32} (h : (p.1.toNat, p.2.toNat) ∈ rwRegs) (halign : p.1.toNat % 4 = 0)
    (hlo : 0x00200000 ≤ p.1.toNat) (hhi : p.1.toNat < 0x04000000) :
    exec (.registerWrite p.1 v .compass) s = .next (s.setReg p.1.toNat ((s.reg p.1.toNat &&& ~~~p.2) ||| (v &&& p.2))) := by
  rw [← State.rwWrite_eq]
  exact exec_registerWrite_of_some ((State.registerWrite_window _ hrun halign hlo hhi).trans (s.windowWrite_rw _ _ h))

theorem exec_registerWrite_w1c {p : Word32 × Word32} (h : (p.1.toNat, p.2.toNat) ∈ w1cRegs) (halign : p.1.toNat % 4 = 0)
    (hlo : 0x00200000 ≤ p.1.toNat) (hhi : p.1.toNat < 0x04000000) :
    exec (.registerWrite p.1 v .compass) s = .next (s.setReg p.1.toNat (s.reg p.1.toNat &&& ~~~(v &&& p.2))) := by
  rw [← State.w1cWrite_eq]
  exact exec_registerWrite_of_some ((State.registerWrite_window _ hrun halign hlo hhi).trans (s.windowWrite_w1c _ _ h))

end

/-! What reads answer. -/

theorem State.readReg_gap (s : State) (src : Source) {off : Nat} (hlo : 0x04000000 ≤ off) (hhi : off < 0x20000000) : s.readReg src off = 0#32 := by
  unfold State.readReg
  rw [if_neg (by omega), if_neg (by omega), if_neg (by omega), if_neg (by omega), if_neg (by omega), if_neg (by omega), if_neg (by omega),
    if_neg (by omega), if_neg (by omega), if_neg (by omega), if_neg (by omega), if_pos hhi]

theorem State.readPorts_gap (s : State) {off : Nat} (hlo : 0x03600000 ≤ off) (hhi : off < 0x03800000) : s.readPorts off = 0 := by
  unfold State.readPorts
  dsimp only
  rw [if_neg (by omega), if_neg (by omega), if_neg (by omega)]
  split <;> omega

theorem State.readReg_port_gap (s : State) (src : Source) {off : Nat} (hlo : 0x03600000 ≤ off) (hhi : off < 0x03800000) :
    s.readReg src off = 0#32 := by
  unfold State.readReg
  rw [if_neg (by omega), if_neg (by omega), if_neg (by omega), if_neg (by omega), if_neg (by omega), if_neg (by omega), if_neg (by omega),
    if_neg (by omega), if_neg (by omega), if_pos (by omega), State.readPorts_gap s hlo hhi]

/-- Registers of the window whose 32 bits are all RW, and stand alone where they are read. -/
def fullRegs : List Word32 := [0x00306004#32, 0x00C00A00#32, 0x01000010#32, 0x01400010#32, 0x03001004#32]

theorem State.readReg_full (s : State) (src : Source) : ∀ off ∈ fullRegs, s.readReg src off.toNat = s.reg off.toNat := by
  have hword : ∀ off, BitVec.ofNat 32 (s.regN off) = s.reg off := fun off => by rw [State.regN, BitVec.ofNat_toNat, BitVec.setWidth_eq]
  simp only [fullRegs, List.forall_mem_cons]
  exact ⟨hword _, hword _, hword _, hword _, hword _, List.forall_mem_nil _⟩

theorem State.reg_setReg_self (s : State) (off : Nat) (v : BitVec 32) : (s.setReg off v).reg off = v :=
  tget_tput_self (regReset off) s.regs off v

/-- A register whose bits are all RW takes every bit of the value. -/
theorem write_all (v w : Word32) : (w &&& ~~~0xFFFFFFFF#32) ||| (v &&& 0xFFFFFFFF#32) = v := by
  have hnone : ~~~0xFFFFFFFF#32 = 0#32 := by decide
  have hall : 0xFFFFFFFF#32 = BitVec.allOnes 32 := by decide
  rw [hnone, BitVec.and_zero, BitVec.zero_or, hall, BitVec.and_allOnes]

/-- The registers of the window that O8 names as RW, by offset and mask. -/
theorem rwWord_mem : ∀ p ∈ [(0x00302000#32, 0xFFFFF000#32), (0x00302004#32, 0xFF#32), (0x00306004#32, 0xFFFFFFFF#32),
      (0x00401004#32, 0x01FFFFFF#32), (0x00C00A00#32, 0xFFFFFFFF#32), (0x01000010#32, 0xFFFFFFFF#32), (0x01400010#32, 0xFFFFFFFF#32),
      (0x01400018#32, 0xFFFF#32), (0x01800008#32, 0xC001FFFF#32), (0x01800100#32, 0xFFFFF000#32), (0x02000000#32, 0x3#32),
      (0x03001000#32, 0x3FF#32), (0x03001004#32, 0xFFFFFFFF#32), (0x03800200#32, 0x3#32), (0x03E00024#32, 0xFFFFFFC0#32),
      (0x03E00030#32, 0x800000FF#32), (0x20002004#32, 0xFFFFFFFF#32)],
    p ≠ (0x20002004#32, 0xFFFFFFFF#32) →
      (p.1.toNat, p.2.toNat) ∈ rwRegs ∧ p.1.toNat % 4 = 0 ∧ 0x00200000 ≤ p.1.toNat ∧ p.1.toNat < 0x04000000 := by
  simp [rwRegs]

theorem w1cWord_mem : ∀ p ∈ [(0x00400000#32, 0xE0000000#32), (0x00800000#32, 0xF0000000#32), (0x00C0000C#32, 0x80000000#32),
      (0x0200000C#32, 0x7#32)],
    (p.1.toNat, p.2.toNat) ∈ w1cRegs ∧ p.1.toNat % 4 = 0 ∧ 0x00200000 ≤ p.1.toNat ∧ p.1.toNat < 0x04000000 := by
  simp [w1cRegs]

theorem fullWord_mem : ∀ off ∈ fullRegs,
    (off.toNat, (0xFFFFFFFF#32).toNat) ∈ rwRegs ∧ off.toNat % 4 = 0 ∧ 0x00200000 ≤ off.toNat ∧ off.toNat < 0x04000000 := by
  simp [fullRegs, rwRegs]

/-- Settles O8: the registers by their access type, the writers by their rights, and the reads. -/
theorem registersFollowTheirAccessType : Obligations.RegistersFollowTheirAccessType := by
  unfold Obligations.RegistersFollowTheirAccessType
  refine ⟨fun s v hrun => ⟨fun p hp => ?_, fun p hp => ?_⟩, fun s off v src => ⟨fun h => ?_, fun hlo hhi => ?_, fun hlo hhi => ?_,
    fun h => ?_, fun hright hlo => ?_, fun h => ?_, fun hrun hright hlo hhi hlane => ?_, fun hlane hright => ?_, fun h => ?_⟩,
    fun s src => ⟨fun off => s.readReg_gap src, fun off => s.readReg_port_gap src, fun off hoff v hrun => ?_⟩⟩
  · by_cases hperiph : p = (0x20002004#32, 0xFFFFFFFF#32)
    · subst hperiph
      rw [← State.rwWrite_eq]
      exact exec_registerWrite_of_some ((State.registerWrite_periph _ hrun (by decide) (by decide)).trans rfl)
    · obtain ⟨hmem, halign, hlo, hhi⟩ := rwWord_mem p hp hperiph
      exact exec_registerWrite_rw v hrun hmem halign hlo hhi
  · obtain ⟨hmem, halign, hlo, hhi⟩ := w1cWord_mem p hp
    exact exec_registerWrite_w1c v hrun hmem halign hlo hhi
  · exact exec_registerWrite_of_none (s.registerWrite_ident h v.toNat src)
  · exact exec_registerWrite_of_none (State.registerWrite_gap _ src hlo hhi)
  · exact exec_registerWrite_of_none (State.registerWrite_port_gap _ src hlo hhi)
  · exact exec_registerWrite_of_none (State.registerWrite_unaligned _ src h)
  · exact exec_registerWrite_of_none (State.registerWrite_no_right _ hright hlo)
  · exact exec_registerWrite_of_none (State.registerWrite_halted _ h)
  · show execRegisterWrite off v .debugPort s = execRegisterWrite off v .compass s
    rw [execRegisterWrite, execRegisterWrite, State.registerWrite_debug _ hrun hright hlo hhi hlane]
  · exact exec_registerWrite_of_none (State.registerWrite_no_lane_right _ hlane hright)
  · exact exec_registerWrite_of_none (State.registerWrite_debug_periph _ h)
  · obtain ⟨hmem, halign, hlo, hhi⟩ := fullWord_mem off hoff
    refine ⟨_, exec_registerWrite_rw (p := (off, 0xFFFFFFFF#32)) v hrun hmem halign hlo hhi, ?_⟩
    rw [State.readReg_full _ src off hoff, State.reg_setReg_self]
    exact write_all v _

end Sys2Proof.Machine
end

section
namespace Sys2Proof.Machine

/-! CRYPTO_BLOCK (R74, R206, R505). -/

/-- What the checks of CRYPTO_BLOCK answer, OK where its blocks are read. -/
def cryptoStatus (d : Desc) (s : State) : Status :=
  if slotFieldOk d 8 = false ∨ 2 < d.get 0xC 1 ∨ d.get 0x20 4 = 0 ∨ 65536 < d.get 0x20 4 ∨ (d.get 0xC 1 ≠ 2 ∧ d.get 0x30 16 ≠ 0) then .badRequest
  else if d.slotClass 8 ≠ 0 then .wrongClass
  else if (s.slot (slotField d 8)).shown.use.getLsbD 0 = false ∨
    (d.get 0xC 1 = 1 ∧ (s.slot (slotField d 8)).shown.use.getLsbD 3 = false) then .badUsage
  else if bitOf (s.regN (0x02000000 + 0x100000 * (keyIndex (slotField d 8) / 8192))) 1 = false then .disabled
  else if s.usable (slotField d 8) = false then .slotEmpty else .ok

/-- A CRYPTO_BLOCK joins those of Prism n with the blocks bs, and its first chunk follows. -/
def cryptoStart (d : Desc) (n : Nat) (bs : List Byte) (s : State) : State :=
  (s.setUnit n { s.unit n with crypto := (s.unit n).crypto ++ [{ desc := d, done := 0, gen := none, input := bs, out := [], chunk := none }] }).nextChunk
    n { desc := d, done := 0, gen := none, input := bs, out := [], chunk := none }

section
variable {d : Desc} {s s0 : State}

theorem cryptoBody_refused (h : cryptoStatus d s ≠ .ok) : cryptoBody d s = s.done d (cryptoStatus d s) := by
  unfold cryptoStatus at h ⊢
  unfold cryptoBody
  simp only [Bool.not_eq_true']
  split_ifs at h ⊢
  · rfl
  · rfl
  · rfl
  · rfl
  · rfl
  · exact absurd rfl h

theorem cryptoBody_ok (h : cryptoStatus d s = .ok) : cryptoBody d s =
    s.withBuf d .annulus (d.get 0x10 8) (16 * d.get 0x20 4) (cryptoStart d (keyIndex (slotField d 8) / 8192)) := by
  unfold cryptoStatus at h
  unfold cryptoBody
  simp only [Bool.not_eq_true']
  split_ifs at h ⊢
  rfl

theorem cryptoStatus_count (h : cryptoStatus d s = .ok) : d.get 0x20 4 ≠ 0 := by
  intro hzero
  unfold cryptoStatus at h
  rw [if_pos (.inr (.inr (.inl hzero)))] at h
  cases h

theorem exec_cryptoBlock (h : Accepted d 0 [(8, 4), (0xC, 1), (0x10, 8), (0x18, 8), (0x20, 4), (0x30, 16)] s s0) :
    exec (.cryptoBlock d) s = .next (cryptoBody d s0) := by
  show execCryptoBlock d s = _
  rw [execCryptoBlock, ringCommand_accepts h]

/-- The buffer of a command that goes on with its bytes. -/
theorem State.withBuf_of_ok {m : Master} {a n : Nat} {k : List Byte → State → State} {bs : List Byte} (h : (s.readBuf d m a n).1 = .ok bs) :
    s.withBuf d m a n k = k bs (s.readBuf d m a n).2 := by
  rw [State.withBuf, show s.readBuf d m a n = (.ok bs, (s.readBuf d m a n).2) from Prod.ext h rfl]

theorem State.withBuf_of_error {m : Master} {a n : Nat} {k : List Byte → State → State} {e : Status}
    (h : (s.readBuf d m a n).1 = .error e) : s.withBuf d m a n k = (s.readBuf d m a n).2.done d e := by
  rw [State.withBuf, show s.readBuf d m a n = (.error e, (s.readBuf d m a n).2) from Prod.ext h rfl]

/-- The next chunk of a CRYPTO_BLOCK that may go on. -/
theorem State.nextChunk_item {n : Nat} {r : CryptoRun} (hleft : r.done < r.desc.get 0x20 4)
    (hgo : s.chunkStatus (slotField r.desc 8) r = none) :
    ∃ i : Item, ((s.nextChunk n r).unit n).items = (s.unit n).items ++ [i] ∧ i.kind = 3 ∧ i.stage = .waiting ∧
      i.len = min 256 (r.desc.get 0x20 4 - r.done) ∧ i.handle = keyIndex (slotField r.desc 8) ∧ i.recv = (r.desc.get 0xC 1 == 1) ∧
      s.nextChunk n r = { s with prism := (s.nextChunk n r).prism } := by
  unfold State.nextChunk
  dsimp only
  rw [if_neg (Nat.not_le.mpr hleft), hgo]
  exact ⟨_, congrArg PrismUnit.items (tget_tput_self PrismUnit.reset _ n _), rfl, rfl, rfl, rfl, rfl, rfl⟩

/-- The first chunk starts under a usable key of its usage. -/
theorem State.chunkStatus_first {bs : List Byte} (huse : s.usable (slotField d 8) = true)
    (hblock : (s.slot (slotField d 8)).act.block = true) (hdec : d.get 0xC 1 = 1 → (s.slot (slotField d 8)).act.dec = true) :
    s.chunkStatus (slotField d 8) { desc := d, done := 0, gen := none, input := bs, out := [], chunk := none } = none := by
  unfold State.chunkStatus
  dsimp only
  rw [huse, hblock]
  refine (if_neg (by decide)).trans (if_neg ?_)
  rintro (hno | ⟨hop, hno⟩)
  · exact absurd hno (by decide)
  · rw [hdec hop] at hno
    exact absurd hno (by decide)

theorem cryptoStart_item {n : Nat} {bs : List Byte} (hcount : d.get 0x20 4 ≠ 0) (huse : s.usable (slotField d 8) = true)
    (hblock : (s.slot (slotField d 8)).act.block = true) (hdec : d.get 0xC 1 = 1 → (s.slot (slotField d 8)).act.dec = true) :
    ∃ i : Item, ((cryptoStart d n bs s).unit n).items = (s.unit n).items ++ [i] ∧ i.kind = 3 ∧ i.stage = .waiting ∧
      i.len = min 256 (d.get 0x20 4) ∧ i.handle = keyIndex (slotField d 8) ∧ i.recv = (d.get 0xC 1 == 1) ∧
      cryptoStart d n bs s = { s with prism := (cryptoStart d n bs s).prism } := by
  unfold cryptoStart
  generalize ht : s.setUnit n { s.unit n with
    crypto := (s.unit n).crypto ++ [{ desc := d, done := 0, gen := none, input := bs, out := [], chunk := none }] } = t
  have hprism : t = { s with prism := t.prism } := by rw [← ht]; rfl
  have haxis : t.axis = s.axis := by rw [hprism]
  have hitems : (t.unit n).items = (s.unit n).items := by
    rw [← ht]
    exact (congrArg PrismUnit.items (tget_tput_self PrismUnit.reset s.prism.units n _)).trans rfl
  have hslot : ∀ k, t.slot k = s.slot k := fun k => by rw [State.slot, haxis]; rfl
  have husable : ∀ k, t.usable k = s.usable k := fun k => by rw [State.usable, State.usable, State.blocked, State.blocked, hslot, haxis]
  obtain ⟨i, hits, h1, h2, h3, h4, h5, hframe⟩ := State.nextChunk_item (s := t) (n := n)
    (r := { desc := d, done := 0, gen := none, input := bs, out := [], chunk := none }) (Nat.pos_of_ne_zero hcount)
    (State.chunkStatus_first ((husable _).trans huse) (by rw [hslot, hblock]) fun hop => by rw [hslot, hdec hop])
  exact ⟨i, hits.trans (by rw [hitems]), h1, h2, h3, h4, h5, hframe.trans (by rw [hprism])⟩

end

/-- Settles O40: the checks, the buffer, the run and its first chunk. -/
theorem cryptoBlockGivesItsChunks : Obligations.CryptoBlockGivesItsChunks := by
  unfold Obligations.CryptoBlockGivesItsChunks
  intro d s s0 h
  have hexec := exec_cryptoBlock h
  have hrun : ∀ bs, cryptoStatus d s0 = .ok → (s0.readBuf d .annulus (d.get 0x10 8) (16 * d.get 0x20 4)).1 = .ok bs →
      exec (.cryptoBlock d) s = .next (cryptoStart d (keyIndex (slotField d 8) / 8192) bs
        (s0.readBuf d .annulus (d.get 0x10 8) (16 * d.get 0x20 4)).2) := fun bs hok hbuf => by
    rw [hexec, cryptoBody_ok hok, State.withBuf_of_ok hbuf]
  refine ⟨fun hst => ?_, fun e hok hbuf => ?_, fun bs hok hbuf => hrun bs hok hbuf, fun bs hok hbuf huse hblock hdec => ?_⟩
  · rw [hexec, cryptoBody_refused hst]
    rfl
  · rw [hexec, cryptoBody_ok hok, State.withBuf_of_error hbuf]
  · obtain ⟨i, hi⟩ := cryptoStart_item (n := keyIndex (slotField d 8) / 8192) (bs := bs) (cryptoStatus_count hok) huse hblock hdec
    exact ⟨_, i, hrun bs hok hbuf, hi⟩

end Sys2Proof.Machine
end

section
namespace Sys2Proof.Machine

/-! Mailbox requests that Apex serves (R39, R49), and LC_TRANSITION (R41, R43 to R49). -/

theorem mbxCommand_replies {m : Mbx} {code : Nat} {s t : State} {p : List Byte} {r : ApexReply}
    {body : List Byte → State → Option ApexReply × State} (h : Serves m code s p) (hbody : body p s = (some r, t)) :
    mbxCommand m code body s = t.finish m r := by
  rw [mbxCommand_serves h, hbody]

theorem mbxCommand_stays {m : Mbx} {code : Nat} {s t : State} {p : List Byte}
    {body : List Byte → State → Option ApexReply × State} (h : Serves m code s p) (hbody : body p s = (none, t)) :
    mbxCommand m code body s = t := by
  rw [mbxCommand_serves h, hbody]

section
variable {m : Mbx} {s : State}

theorem State.railWarns_of_nil (h : s.cpr.warn = []) : s.railWarns = false := by rw [State.railWarns, h]; rfl

theorem State.railWarns_of_ne (h : s.cpr.warn ≠ []) : s.railWarns = true := by
  rw [State.railWarns]
  simpa using h

/-- A request that is held already stays as it is held. -/
theorem State.holdWrite_held (h : s.apex.heldWrite ≠ none) : s.holdWrite m = s := if_pos (Option.isSome_iff_ne_none.mpr h)

theorem State.holdWrite_new (h : s.apex.heldWrite = none) :
    s.holdWrite m = { s with apex := { s.apex with heldWrite := some { mbx := m, since := s.clk, begun := false } } } :=
  if_neg (by rw [h]; decide)

theorem State.runTransition_held (t : Nat) (e : Bool) (pre : State → State) (h : s.cpr.warn ≠ []) :
    s.runTransition m t e pre = (none, s.holdWrite m) := if_pos (State.railWarns_of_ne h)

theorem State.runTransition_runs (t : Nat) (e : Bool) (pre : State → State) (h : s.cpr.warn = []) :
    s.runTransition m t e pre = (some { status := 0 }, ((pre s).transition t e).raise 0x001 []) :=
  if_neg (by rw [State.railWarns_of_nil h]; decide)

/-- The OTP o with its owner partition erased (R48). -/
def OtpState.erased (o : OtpState) : OtpState :=
  { o with ownerHash := BitVec.allOnes 384, ownerSeed := BitVec.allOnes 256, minBoot := BitVec.allOnes 6, tamperEn := BitVec.allOnes 2
           ownerErased := true }

/-- What a whole transition burns: the cells below its target, and an intent word that it closes (R45). -/
theorem State.transition_eq (s : State) (t : Nat) (e : Bool) : s.transition t e = { s with apex := { s.apex with
    otp := { (if e then s.apex.otp.erased else s.apex.otp) with
      lcCells := s.apex.otp.lcCells ||| lcCellsOf t
      intent := s.apex.otp.intent ++ [intentWord s.lc t (b2n e) ||| (1#32 <<< 31)] } } } := by
  unfold State.transition State.finishTransition
  cases e <;> simp [State.withApex, State.ownerErase, OtpState.erased]

end

/-! The steps of Table 2.5. -/

section
variable {m : Mbx} {s : State} {p : List Byte}

/-- A step of a test state under its token (R43). -/
def LcToken (m : Mbx) (s : State) (p : List Byte) : Prop := s.lc < 8 ∧ s.lc % 2 = 0 ∧ leAt p 0 1 = s.lc + 1 ∧ m = .debugPort

/-- A step under a certificate. -/
def LcByCert (s : State) (p : List Byte) : Prop :=
  (leAt p 0 1 = 12 ∧ 9 ≤ s.lc ∧ s.lc < 12) ∨ (leAt p 0 1 = 11 ∧ (s.lc = 9 ∨ s.lc = 10))

/-- A step that the debug port takes without more. -/
def LcPlain (m : Mbx) (s : State) (p : List Byte) : Prop :=
  m = .debugPort ∧ ((leAt p 0 1 = 12 ∧ s.lc < 9) ∨ (s.lc < 8 ∧ s.lc % 2 = 1 ∧ leAt p 0 1 = s.lc + 1) ∨ (s.lc = 8 ∧ leAt p 0 1 = 9))

/-- PERSONALISED to OWNED, from Compass. -/
def LcOwned (m : Mbx) (s : State) (p : List Byte) : Prop := s.lc = 9 ∧ leAt p 0 1 = 10 ∧ ¬ m = .debugPort

/-- What the certificate of a step answers. -/
def State.lcCert (s : State) (p : List Byte) : Nat := s.checkCert (if leAt p 0 1 = 12 then 3 else 2) s.certOwner (p.drop 1)

/-- The owner's key hash and a fresh seed, before the step to OWNED (R44). -/
def State.owned (s : State) (arg : List Byte) : State :=
  { s with freeCount := s.freeCount + 1, apex := { s.apex with otp := { s.apex.otp with
    ownerHash := BitVec.ofNat 384 (Crypto.ofBytes (arg.map BitVec.toNat)), ownerSeed := BitVec.ofNat 256 (s.draw 256).1 } } }

theorem lcBody_locked (h : 8 ≤ s.apex.failed) : lcBody m p s = (some { status := 6 }, s) := if_pos h

variable (hfew : s.apex.failed < 8)
include hfew

theorem lcBody_empty (h : p = []) : lcBody m p s = (some { status := 8 }, s) :=
  (if_neg (Nat.not_le.mpr hfew)).trans (if_pos (List.isEmpty_iff.mpr h))

variable (hne : p ≠ [])
include hne

theorem lcBody_plain (h : LcPlain m s p) :
    lcBody m p s = s.runTransition m (leAt p 0 1) (decide (leAt p 0 1 = 11 ∨ leAt p 0 1 = 12)) id := by
  have hempty : ¬ p.isEmpty = true := fun he => hne (List.isEmpty_iff.mp he)
  obtain ⟨hdbg, ⟨ht, hc⟩ | ⟨hc, hodd, ht⟩ | ⟨hc, ht⟩⟩ := h
  · unfold lcBody
    dsimp only
    rw [if_neg (by omega), if_neg hempty, if_pos (by omega), if_neg (by omega), if_pos hdbg, ht]
    rfl
  · unfold lcBody
    dsimp only
    rw [if_neg (by omega), if_neg hempty, if_neg (by omega), if_neg (by omega), if_pos ⟨hc, hodd, ht⟩, if_pos hdbg,
      decide_eq_false (by omega)]
  · unfold lcBody
    dsimp only
    rw [if_neg (by omega), if_neg hempty, if_neg (by omega), if_neg (by omega), if_neg (by omega), if_pos ⟨hc, ht⟩, if_pos hdbg,
      decide_eq_false (by omega)]

theorem lcBody_token (h : LcToken m s p) : lcBody m p s =
    if s.tokenOk (s.lc / 2) (p.drop 1) then s.runTransition m (leAt p 0 1) false id else (some { status := 4 }, s.failedAttempt) := by
  have hempty : ¬ p.isEmpty = true := fun he => hne (List.isEmpty_iff.mp he)
  obtain ⟨hc, heven, ht, hdbg⟩ := h
  unfold lcBody
  dsimp only
  rw [if_neg (by omega), if_neg hempty, if_neg (by omega), if_pos ⟨hc, heven, ht⟩, if_neg (not_not_intro hdbg)]
  rfl

theorem lcBody_byCert (h : LcByCert s p) : lcBody m p s =
    if s.lcCert p = 0 then s.runTransition m (leAt p 0 1) true id else (some { status := s.lcCert p }, s) := by
  have hempty : ¬ p.isEmpty = true := fun he => hne (List.isEmpty_iff.mp he)
  unfold State.lcCert lcBody
  dsimp only
  rcases h with ⟨ht, hlo, hhi⟩ | ⟨ht, hc⟩
  · rw [if_neg (by omega), if_neg hempty, if_pos ⟨ht, hhi⟩, if_pos hlo, if_pos ht, ht]
    generalize s.checkCert 3 s.certOwner (p.drop 1) = st
    cases st <;> rfl
  · rw [if_neg (by omega), if_neg hempty, if_neg (by omega), if_neg (by omega), if_neg (by omega), if_neg (by omega), if_neg (by omega),
      if_pos ⟨hc, ht⟩, ht, if_neg (by decide : ¬ (11 : Nat) = 12)]
    generalize s.checkCert 2 s.certOwner (p.drop 1) = st
    cases st <;> rfl

theorem lcBody_owned (h : LcOwned m s p) : lcBody m p s =
    if (p.drop 1).length = 48 then s.runTransition m (leAt p 0 1) false fun u => u.owned (p.drop 1) else (some { status := 8 }, s) := by
  have hempty : ¬ p.isEmpty = true := fun he => hne (List.isEmpty_iff.mp he)
  obtain ⟨hc, ht, hdbg⟩ := h
  unfold lcBody
  dsimp only
  rw [if_neg (by omega), if_neg hempty, if_neg (by omega), if_neg (by omega), if_neg (by omega), if_neg (by omega), if_pos ⟨hc, ht⟩,
    if_neg hdbg, ite_not, ht]
  rfl

/-- Every step that Table 2.5 does not give is BAD_STATE. -/
theorem lcBody_other (hplain : ¬ LcPlain m s p) (htoken : ¬ LcToken m s p) (hcert : ¬ LcByCert s p) (howned : ¬ LcOwned m s p) :
    lcBody m p s = (some { status := 1 }, s) := by
  have hempty : ¬ p.isEmpty = true := fun he => hne (List.isEmpty_iff.mp he)
  have hno12 : leAt p 0 1 = 12 → ¬ (9 ≤ s.lc ∧ s.lc < 12) := fun ht hc => hcert (.inl ⟨ht, hc⟩)
  unfold lcBody
  dsimp only
  rw [if_neg (by omega), if_neg hempty]
  by_cases h12 : leAt p 0 1 = 12 ∧ s.lc < 12
  · rw [if_pos h12, if_neg (by omega), if_neg fun hdbg => hplain ⟨hdbg, .inl ⟨h12.1, by omega⟩⟩]
    rfl
  rw [if_neg h12]
  by_cases heven : s.lc < 8 ∧ s.lc % 2 = 0 ∧ leAt p 0 1 = s.lc + 1
  · rw [if_pos heven, if_pos fun hdbg => htoken ⟨heven.1, heven.2.1, heven.2.2, hdbg⟩]
    rfl
  rw [if_neg heven]
  by_cases hodd : s.lc < 8 ∧ s.lc % 2 = 1 ∧ leAt p 0 1 = s.lc + 1
  · rw [if_pos hodd, if_neg fun hdbg => hplain ⟨hdbg, .inr (.inl hodd)⟩]
    rfl
  rw [if_neg hodd]
  by_cases h9 : s.lc = 8 ∧ leAt p 0 1 = 9
  · rw [if_pos h9, if_neg fun hdbg => hplain ⟨hdbg, .inr (.inr h9)⟩]
    rfl
  rw [if_neg h9]
  by_cases h10 : s.lc = 9 ∧ leAt p 0 1 = 10
  · rw [if_pos h10, if_pos (not_not.mp fun hdbg => howned ⟨h10.1, h10.2, hdbg⟩)]
    rfl
  rw [if_neg h10, if_neg fun h11 => hcert (.inr ⟨h11.2, h11.1⟩)]
  rfl

/-- A step that is given, and what it runs. -/
theorem lcBody_given (h : LcPlain m s p ∨ (LcToken m s p ∧ s.tokenOk (s.lc / 2) (p.drop 1) = true) ∨ (LcByCert s p ∧ s.lcCert p = 0)) :
    lcBody m p s = s.runTransition m (leAt p 0 1) (decide (leAt p 0 1 = 11 ∨ leAt p 0 1 = 12)) id := by
  rcases h with h | ⟨h, hok⟩ | ⟨h, hok⟩
  · exact lcBody_plain hfew hne h
  · rw [lcBody_token hfew hne h, if_pos hok, decide_eq_false]
    obtain ⟨hc, -, ht, -⟩ := h
    omega
  · rw [lcBody_byCert hfew hne h, if_pos hok, decide_eq_true]
    exact h.elim (fun h12 => .inr h12.1) fun h11 => .inl h11.1

end

theorem State.held_of_warn {m : Mbx} {s : State} {body : List Byte → State → Option ApexReply × State} {code : Nat} {p : List Byte}
    (hserves : Serves m code s p) (hbody : body p s = (none, s.holdWrite m)) :
    (s.apex.heldWrite = none → mbxCommand m code body s =
      { s with apex := { s.apex with heldWrite := some { mbx := m, since := s.clk, begun := false } } }) ∧
    (s.apex.heldWrite ≠ none → mbxCommand m code body s = s) := by
  rw [mbxCommand_stays hserves hbody]
  exact ⟨State.holdWrite_new, State.holdWrite_held⟩

/-- Settles O27: Table 2.5 step by step. -/
theorem lifeCycleTransitionsBurn : Obligations.LifeCycleTransitionsBurn := by
  unfold Obligations.LifeCycleTransitionsBurn
  intro m s p hserves
  have hreply : ∀ {r : ApexReply} {t : State}, lcBody m p s = (some r, t) → exec (.lcTransition m) s = .next (t.finish m r) :=
    fun hbody => congrArg Host.Outcome.next (mbxCommand_replies hserves hbody)
  refine ⟨fun hmany => hreply (lcBody_locked hmany), fun hfew => ⟨fun hempty => hreply (lcBody_empty hfew hempty), fun hne => ⟨?_, ?_, ?_, ?_, ?_, ?_, ?_⟩⟩⟩
  · intro hgiven hwarn
    rw [hreply ((lcBody_given hfew hne hgiven).trans (State.runTransition_runs _ _ _ hwarn)), id, State.transition_eq]
    by_cases h : leAt p 0 1 = 11 ∨ leAt p 0 1 = 12
    · rw [if_pos h, decide_eq_true h]
      rfl
    · rw [if_neg h, decide_eq_false h]
      rfl
  · intro howned hlen hwarn
    rw [hreply ((lcBody_owned hfew hne howned).trans ((if_pos hlen).trans (State.runTransition_runs _ _ _ hwarn))), State.transition_eq, howned.2.1]
    rfl
  · intro hgiven hwarn
    have hbody : lcBody m p s = (none, s.holdWrite m) := by
      rcases hgiven with hgiven | ⟨howned, hlen⟩
      · exact (lcBody_given hfew hne hgiven).trans (State.runTransition_held _ _ _ hwarn)
      · exact (lcBody_owned hfew hne howned).trans ((if_pos hlen).trans (State.runTransition_held _ _ _ hwarn))
    obtain ⟨hnew, hheld⟩ := State.held_of_warn hserves hbody
    exact ⟨fun h => congrArg Host.Outcome.next (hnew h), fun h => congrArg Host.Outcome.next (hheld h)⟩
  · exact fun htoken hbad => hreply ((lcBody_token hfew hne htoken).trans (if_neg (Bool.eq_false_iff.mp hbad)))
  · exact fun hcert hbad => hreply ((lcBody_byCert hfew hne hcert).trans (if_neg hbad))
  · exact fun howned hlen => hreply ((lcBody_owned hfew hne howned).trans (if_neg hlen))
  · exact fun hplain htoken hcert howned => hreply (lcBody_other hfew hne hplain htoken hcert howned)

end Sys2Proof.Machine
end

section
namespace Sys2Proof.Machine

/-! SECVER_RAISE, the debug rows, measurements and ALARM_ACK (R50, R53, R55 to R57, R60). -/

section
variable {m : Mbx} {s : State} {p : List Byte}

theorem not_isEmpty_of_ne {α : Type} {l : List α} (h : l ≠ []) : ¬ l.isEmpty = true := fun he => h (List.isEmpty_iff.mp he)

/-- What the checks of SECVER_RAISE answer (R53). -/
def State.secverStatus (s : State) (p : List Byte) : Nat :=
  if leAt p 0 1 = 2 then (if s.lc ≠ 10 then 1 else if p.length ≠ 2 ∨ 63 < leAt p 1 1 then 8 else 0)
  else if leAt p 0 1 = 1 then (if s.lcService = false then 1 else if 63 < leAt p 1 1 then 8 else s.checkCert 4 false (p.drop 2)) else 8

/-- The OTP o with the minimum of type ty no lower than v. -/
def OtpState.raiseMin (o : OtpState) (ty v : Nat) : OtpState :=
  if ty = 2 then { o with minBoot := BitVec.ofNat 6 (max o.minBoot.toNat v) } else { o with minPatch := BitVec.ofNat 6 (max o.minPatch.toNat v) }

theorem secverBody_eq (m : Mbx) (s : State) (p : List Byte) : secverBody m p s =
    if s.secverStatus p ≠ 0 then (some { status := s.secverStatus p }, s)
    else if s.railWarns then (none, s.holdWrite m)
    else (some { status := 0 }, { s with apex := { s.apex with otp := s.apex.otp.raiseMin (leAt p 0 1) (leAt p 1 1) } }) := by
  unfold secverBody State.secverStatus OtpState.raiseMin
  simp only [Bool.not_eq_true]
  rfl

/-- A minimum that is raised to at most 63 is exact. -/
theorem toNat_max6 (b : BitVec 6) {v : Nat} (h : ¬ 63 < v) : (BitVec.ofNat 6 (max b.toNat v)).toNat = max b.toNat v := by
  rw [BitVec.toNat_ofNat]
  exact Nat.mod_eq_of_lt (by have := b.isLt; omega)

theorem State.secverStatus_value (h : s.secverStatus p = 0) : ¬ 63 < leAt p 1 1 := by
  intro hbig
  unfold State.secverStatus at h
  have hwide : p.length ≠ 2 ∨ 63 < leAt p 1 1 := .inr hbig
  simp only [if_pos hwide, if_pos hbig] at h
  split_ifs at h

theorem State.draw_lt (s : State) (n : Nat) : (s.draw n).1 < 2 ^ n := Nat.mod_lt _ (Nat.two_pow_pos n)

theorem challengeBody_fresh (hlc : s.lcService = true) : challengeBody [] s =
    (some { status := 0, bytes := le 32 (s.draw 256).1 },
      { s with freeCount := s.freeCount + 1, apex := { s.apex with challenge := some (BitVec.ofNat 256 (s.draw 256).1) } }) :=
  (if_neg (not_not_intro hlc)).trans (if_neg (by decide))

/-- The part after a refused DBG_UNLOCK (R55, R56). -/
def State.unlockSpent (s : State) : State :=
  ({ s with apex := { s.apex with challenge := none, failed := s.apex.failed + 1 } }).raise 0x004 []

/-- What the certificate of DBG_UNLOCK answers. -/
def State.unlockStatus (s : State) (p : List Byte) : Nat := if s.lcService = false then 1 else s.checkCert 1 s.certOwner p

/-- The rights after a DBG_UNLOCK under certificate p. -/
def State.rightsWith (s : State) (p : List Byte) : BitVec 16 := s.certRights ||| BitVec.ofNat 16 (leAt p 0x12 2)

theorem unlockBody_locked (h : 8 ≤ s.apex.failed) : unlockBody p s = (some { status := 6 }, s.unlockSpent) := if_pos h

theorem unlockBody_refused (hfew : s.apex.failed < 8) (h : s.unlockStatus p ≠ 0) :
    unlockBody p s = (some { status := s.unlockStatus p }, s.unlockSpent) := by
  unfold State.unlockStatus at h ⊢
  unfold unlockBody
  simp only [Bool.not_eq_true]
  exact (if_neg (Nat.not_le.mpr hfew)).trans (if_pos h)

theorem unlockBody_opens (hfew : s.apex.failed < 8) (h : s.unlockStatus p = 0) :
    unlockBody p s = (some { status := 0 }, ({ s with apex := { s.apex with
      challenge := none, opened := s.apex.opened || leAt p 0x12 2 % 1024 != 0
      rights := if s.certOwner then s.apex.rights else s.rightsWith p
      ownerRights := if s.certOwner then s.rightsWith p else s.apex.ownerRights } }).raise 0x003 (le 2 (s.rightsWith p).toNat)) := by
  unfold State.unlockStatus at h
  unfold unlockBody
  simp only [Bool.not_eq_true]
  exact (if_neg (Nat.not_le.mpr hfew)).trans (if_neg (not_not_intro h))

theorem extendBody_runs (hlc : s.lc ≠ 12) (hbad : ¬ (p.length ≠ 52 ∨ 5 < leAt p 0 1 ∨ leAt p 1 3 ≠ 0))
    (hfree : leAt p 0 1 = 2 ∨ leAt p 0 1 = 4 ∨ leAt p 0 1 = 5) :
    extendBody p s = (some { status := 0 }, s.measExtend (leAt p 0 1) (p.drop 4)) :=
  (if_neg hlc).trans ((if_neg hbad).trans (if_neg (by omega)))

end

/-- Settles O29: each request by its checks in order. -/
theorem debugUnlockAndMeasurements : Obligations.DebugUnlockAndMeasurements := by
  unfold Obligations.DebugUnlockAndMeasurements
  intro m s p
  refine ⟨fun hserves => ?_, fun hserves => ?_, fun hserves => ?_, fun hserves => ?_, fun hserves => ?_, fun hserves => ?_⟩
  · have hbody := secverBody_eq m s p
    refine ⟨fun hst => ?_, fun hst hwarn hnone => ?_, fun hst hwarn hsome => ?_, fun hst hwarn => ⟨s.apex.otp.raiseMin (leAt p 0 1) (leAt p 1 1), ?_, fun hty => ?_, fun hty => ?_⟩⟩
    · exact congrArg Host.Outcome.next (mbxCommand_replies hserves (hbody.trans (if_pos hst)))
    · exact congrArg Host.Outcome.next ((State.held_of_warn hserves
        (hbody.trans ((if_neg (not_not_intro hst)).trans (if_pos (State.railWarns_of_ne hwarn))))).1 hnone)
    · exact congrArg Host.Outcome.next ((State.held_of_warn hserves
        (hbody.trans ((if_neg (not_not_intro hst)).trans (if_pos (State.railWarns_of_ne hwarn))))).2 hsome)
    · exact congrArg Host.Outcome.next (mbxCommand_replies hserves
        (hbody.trans ((if_neg (not_not_intro hst)).trans (if_neg (Bool.eq_false_iff.mp (State.railWarns_of_nil hwarn))))))
    · rw [OtpState.raiseMin, if_pos hty]
      exact ⟨rfl, toNat_max6 _ (State.secverStatus_value hst)⟩
    · rw [OtpState.raiseMin, if_neg (by omega)]
      exact ⟨rfl, toNat_max6 _ (State.secverStatus_value hst)⟩
  · have hreply : ∀ {r : ApexReply} {t : State}, challengeBody p s = (some r, t) → exec (.dbgChallenge m) s = .next (t.finish m r) :=
      fun hbody => congrArg Host.Outcome.next (mbxCommand_replies hserves hbody)
    refine ⟨fun hlc => hreply (if_pos (Bool.eq_false_iff.mp hlc)),
      fun hlc hne => hreply ((if_neg (not_not_intro hlc)).trans (if_pos (not_isEmpty_of_ne hne))),
      fun hlc hempty => ⟨BitVec.ofNat 256 (s.draw 256).1, ?_⟩⟩
    subst hempty
    rw [hreply (challengeBody_fresh hlc), BitVec.toNat_ofNat, Nat.mod_eq_of_lt (s.draw_lt 256)]
  · have hreply : ∀ {r : ApexReply} {t : State}, unlockBody p s = (some r, t) → exec (.dbgUnlock m) s = .next (t.finish m r) :=
      fun hbody => congrArg Host.Outcome.next (mbxCommand_replies hserves hbody)
    exact ⟨fun hmany => hreply (unlockBody_locked hmany), fun hfew hst => hreply (unlockBody_refused hfew hst),
      fun hfew hst => hreply (unlockBody_opens hfew hst)⟩
  · have hreply : ∀ {r : ApexReply} {t : State}, extendBody p s = (some r, t) → exec (.measExtend m) s = .next (t.finish m r) :=
      fun hbody => congrArg Host.Outcome.next (mbxCommand_replies hserves hbody)
    exact ⟨fun hlc => hreply (if_pos hlc), fun hlc hbad => hreply ((if_neg hlc).trans (if_pos hbad)),
      fun hlc hbad hlocked => hreply ((if_neg hlc).trans ((if_neg hbad).trans (if_pos hlocked))),
      fun hlc hbad hfree => hreply (extendBody_runs hlc hbad hfree)⟩
  · have hreply : ∀ {r : ApexReply} {t : State}, measReadBody p s = (some r, t) → exec (.measRead m) s = .next (t.finish m r) :=
      fun hbody => congrArg Host.Outcome.next (mbxCommand_replies hserves hbody)
    exact ⟨fun hlc => hreply (if_pos hlc), fun hlc hbad => hreply ((if_neg hlc).trans (if_pos hbad)),
      fun hlc hlen hi => hreply ((if_neg hlc).trans (if_neg (by omega)))⟩
  · have hreply : ∀ {r : ApexReply} {t : State}, alarmAckBody p s = (some r, t) → exec (.alarmAck m) s = .next (t.finish m r) :=
      fun hbody => congrArg Host.Outcome.next (mbxCommand_replies hserves hbody)
    exact ⟨fun hlc => hreply (if_pos hlc), fun hlc hne => hreply ((if_neg hlc).trans (if_pos (not_isEmpty_of_ne hne))),
      fun hlc hempty => hreply ((if_neg hlc).trans (if_neg (by rw [hempty]; decide)))⟩

end Sys2Proof.Machine
end

section
namespace Sys2Proof.Machine

/-! Sealing, unsealing and the flash commands of Apex (R64, R76, R83, R86 to R90). -/

section
variable {m : Mbx} {s : State} {p : List Byte}

/-- What the checks of SEAL answer. -/
def State.sealStatus (s : State) (p : List Byte) : Nat :=
  if s.lcService = false then 1
  else if p.length < 13 ∨ 332 < p.length ∨ 64 ≤ leAt p 0 1 ∨ 16 ≤ leAt p 1 1 ∨ bits (leAt p 1 1) 2 2 = 3 then 8
  else if s.axis.serving = false then 9 else 0

theorem sealBody_refused (h : s.sealStatus p ≠ 0) : sealBody p s = (some { status := s.sealStatus p }, s) := by
  unfold State.sealStatus at h ⊢
  unfold sealBody
  simp only [Bool.not_eq_true]
  split_ifs at h ⊢
  · rfl
  · rfl
  · rfl
  · exact absurd rfl h

theorem sealBody_seals (h : s.sealStatus p = 0) : sealBody p s =
    (some { status := 0, bytes := (s.sealBlob (leAt p 0 1) (leAt p 1 1) (leAt p 2 2) (leAt p 4 8) (p.drop 12) []).1 },
      (s.sealBlob (leAt p 0 1) (leAt p 1 1) (leAt p 2 2) (leAt p 4 8) (p.drop 12) []).2) := by
  unfold State.sealStatus at h
  unfold sealBody
  simp only [Bool.not_eq_true]
  split_ifs at h ⊢
  rfl

/-! UNSEAL. -/

theorem unsealBody_bad (hlc : s.lcService = true) (h : s.unsealBlob p = none) : unsealBody p s = (some { status := 0xA }, s) := by
  rw [unsealBody, if_neg (not_not_intro hlc), h]
  rfl

theorem unsealBody_opens {pt : List Byte} (hlc : s.lcService = true) (h : s.unsealBlob p = some pt) :
    unsealBody p s = (some (if bitOf (leAt p 0x11 1) 0 then { status := 0, bytes := pt } else { status := 0xB }), s) := by
  rw [unsealBody, if_neg (not_not_intro hlc), h]
  dsimp only
  split
  · rfl
  · rfl

/-! UNSEAL_TO_SLOT. -/

/-- What the checks of UNSEAL_TO_SLOT answer, before those of the slot. -/
def State.unsealSlotStatus (s : State) (p : List Byte) : Nat :=
  if s.lcService = false then 1 else if p.length < 4 ∨ 2 < leAt p 2 1 ∨ 32 ≤ leAt p 3 1 then 8
  else if s.axis.serving = false then 9 else if s.unsealBlob (p.drop 4) = none then 0xA else 0

theorem unsealSlotBody_refused (h : s.unsealSlotStatus p ≠ 0) : unsealSlotBody p s = (some { status := s.unsealSlotStatus p }, s) := by
  unfold State.unsealSlotStatus at h ⊢
  unfold unsealSlotBody
  simp only [Bool.not_eq_true]
  split_ifs at h ⊢
  · rfl
  · rfl
  · rfl
  · rename_i hnone
    rw [hnone]
    rfl
  · exact absurd rfl h

/-- The class of the slot that a blob names. -/
def blobClass (p : List Byte) : Nat := bits (leAt (p.drop 4) 0x11 1) 2 2

theorem unsealSlotBody_opened {pt : List Byte} (h : s.unsealSlotStatus p = 0) (hpt : s.unsealBlob (p.drop 4) = some pt) :
    unsealSlotBody p s =
      if blobClass p = 0 ∨ slotExists (blobClass p) (leAt p 0 2) = false ∨ pt.length ≠ algLen (BitVec.ofNat 2 (leAt p 2 1)) ∨
        usageOk (blobClass p) (leAt p 3 1) = false then (some { status := 8 }, s)
      else (some { status := 0, bytes := le 4 (kcv (algLen (BitVec.ofNat 2 (leAt p 2 1))) (Crypto.ofBytes (pt.map BitVec.toNat))) },
        s.stagePending (slotKey (blobClass p) (leAt p 0 2)) (leAt p 2 1) (leAt p 3 1) false [] (Crypto.ofBytes (pt.map BitVec.toNat))) := by
  unfold State.unsealSlotStatus at h
  unfold unsealSlotBody
  simp only [Bool.not_eq_true]
  split_ifs at h
  rw [if_neg (by assumption), if_neg (by assumption), if_neg (by assumption), hpt]
  rfl

/-! SEAL_MIGRATE. -/

/-- The register that record i of SEAL_MIGRATE names. -/
def migrateReg (p : List Byte) (i : Nat) : Nat := leAt p (4 + 52 * i) 1

/-- What the checks of SEAL_MIGRATE answer. -/
def State.migrateStatus (s : State) (p : List Byte) : Nat :=
  if s.lcService = false then 1
  else if (leAt p 0 1 ≠ 1 ∧ leAt p 0 1 ≠ 2) ∨ leAt p 1 3 ≠ 0 ∨ 5 < migrateReg p 0 ∨ leAt p 5 3 ≠ 0 ∨
    (leAt p 0 1 = 2 ∧ (5 < migrateReg p 1 ∨ leAt p 57 3 ≠ 0)) then 8
  else if s.unsealBlob (p.drop (4 + 52 * leAt p 0 1)) = none then 0xA else 0

/-- The values that SEAL_MIGRATE expects in its registers. -/
def migrateExpect (p : List Byte) : List (Nat × List Byte) :=
  (List.range (leAt p 0 1)).map fun i => (migrateReg p i, slice p (8 + 52 * i) 48)

theorem migrateBody_refused (h : s.migrateStatus p ≠ 0) : migrateBody p s = (some { status := s.migrateStatus p }, s) := by
  unfold State.migrateStatus migrateReg at h ⊢
  unfold migrateBody
  simp only [Bool.not_eq_true]
  split_ifs at h ⊢
  · rfl
  · rfl
  · rename_i hnone
    rw [hnone]
    rfl
  · exact absurd rfl h

theorem migrateBody_seals {pt : List Byte} (h : s.migrateStatus p = 0) (hpt : s.unsealBlob (p.drop (4 + 52 * leAt p 0 1)) = some pt) :
    migrateBody p s =
      let b := p.drop (4 + 52 * leAt p 0 1)
      let q := s.sealBlob (leAt b 0x10 1) (leAt b 0x11 1 ||| 2) (leAt b 0x12 2) (leAt b 8 8 + 1) pt (migrateExpect p)
      (some { status := 0, bytes := q.1 }, q.2) := by
  unfold State.migrateStatus migrateReg at h
  unfold migrateBody
  simp only [Bool.not_eq_true]
  split_ifs at h
  rw [if_neg (by assumption), if_neg (by assumption), hpt]
  rfl

/-- One or two registers are expected. -/
theorem migrateExpect_eq (h : s.migrateStatus p = 0) : migrateExpect p =
    if leAt p 0 1 = 1 then [(migrateReg p 0, slice p 8 48)] else [(migrateReg p 0, slice p 8 48), (migrateReg p 1, slice p 60 48)] := by
  have hn : leAt p 0 1 = 1 ∨ leAt p 0 1 = 2 := by
    by_contra hno
    unfold State.migrateStatus at h
    rw [if_pos (c := (leAt p 0 1 ≠ 1 ∧ leAt p 0 1 ≠ 2) ∨ _) (.inl (by omega))] at h
    split_ifs at h
  unfold migrateExpect
  rcases hn with hn | hn <;> rw [hn] <;> rfl

/-! BLOB_COMMIT and BLOB_FETCH. -/

/-- What the checks of BLOB_COMMIT answer. -/
def State.commitStatus (s : State) (p : List Byte) : Nat :=
  if s.lcService = false then 1
  else if p.length < 5 ∨ leAt p 0 4 % 4096 ≠ 0 ∨ s.apex.flashErase = false ∨ s.apex.flashSize < leAt p 0 4 + 4096 ∨
    s.sectorReserved (leAt p 0 4) = true then 8 else 0

/-- The part with the sector at off programmed with the bytes w. -/
def State.withSectorAt (u : State) (off : Nat) (w : List Byte) : State :=
  { u with apex := { u.apex with
    flash := w.zipIdx.foldl (fun t (x, i) => tput 0xFF t (off + i) x) (u.apex.flash.filter fun e => !(off ≤ e.1 && e.1 < off + 4096)) } }

theorem blobCommitBody_refused (h : s.commitStatus p ≠ 0) : blobCommitBody m p s = (some { status := s.commitStatus p }, s) := by
  unfold State.commitStatus at h ⊢
  unfold blobCommitBody
  simp only [Bool.not_eq_true]
  split_ifs at h ⊢
  · rfl
  · rfl
  · exact absurd rfl h
  · exact absurd rfl h
  · exact absurd rfl h

theorem blobCommitBody_ok (h : s.commitStatus p = 0) : blobCommitBody m p s =
    if s.railWarns then (none, s.holdWrite m)
    else (some { status := if (s.programmed (p.drop 4)).1 = p.drop 4 then 0 else 0xC },
      (s.programmed (p.drop 4)).2.withSectorAt (leAt p 0 4) (s.programmed (p.drop 4)).1) := by
  unfold State.commitStatus at h
  unfold blobCommitBody
  simp only [Bool.not_eq_true]
  split_ifs at h ⊢
  · rfl
  · rfl
  · rfl

theorem blobFetchBody_eq (hlc : s.lcService = true) (hlen : p.length = 4) (hoff : leAt p 0 4 < s.apex.flashSize) : blobFetchBody p s =
    (some (if blobOk (s.flashBytes (leAt p 0 4) 0x38) then
      { status := 0, bytes := s.flashBytes (leAt p 0 4) (leAt (s.flashBytes (leAt p 0 4) 0x38) 6 2 + 72) } else { status := 0xD }), s) := by
  refine (if_neg (not_not_intro hlc)).trans ((if_neg (by omega)).trans ?_)
  split
  · rfl
  · rfl

end

/-- Settles O30: each request by its checks in order. -/
theorem sealingCommandsKeepTheirPayload : Obligations.SealingCommandsKeepTheirPayload := by
  unfold Obligations.SealingCommandsKeepTheirPayload
  intro m s p
  refine ⟨fun hserves => ?_, fun hserves => ?_, fun hserves => ?_, fun hserves => ?_, fun hserves => ?_, fun hserves => ?_⟩
  · have hreply : ∀ {r : ApexReply} {t : State}, sealBody p s = (some r, t) → exec (.seal m) s = .next (t.finish m r) :=
      fun hbody => congrArg Host.Outcome.next (mbxCommand_replies hserves hbody)
    exact ⟨fun hst => hreply (sealBody_refused hst), fun hst => hreply (sealBody_seals hst)⟩
  · have hreply : ∀ {r : ApexReply} {t : State}, unsealBody p s = (some r, t) → exec (.unseal m) s = .next (t.finish m r) :=
      fun hbody => congrArg Host.Outcome.next (mbxCommand_replies hserves hbody)
    exact ⟨fun hlc => hreply (if_pos (Bool.eq_false_iff.mp hlc)), fun hlc hnone => hreply (unsealBody_bad hlc hnone),
      fun pt hlc hpt => hreply (unsealBody_opens hlc hpt)⟩
  · have hreply : ∀ {r : ApexReply} {t : State}, unsealSlotBody p s = (some r, t) → exec (.unsealToSlot m) s = .next (t.finish m r) :=
      fun hbody => congrArg Host.Outcome.next (mbxCommand_replies hserves hbody)
    exact ⟨fun hst => hreply (unsealSlotBody_refused hst), fun pt hst hpt =>
      ⟨fun hbad => hreply ((unsealSlotBody_opened hst hpt).trans (if_pos hbad)),
        fun hbad => hreply ((unsealSlotBody_opened hst hpt).trans (if_neg hbad))⟩⟩
  · have hreply : ∀ {r : ApexReply} {t : State}, migrateBody p s = (some r, t) → exec (.sealMigrate m) s = .next (t.finish m r) :=
      fun hbody => congrArg Host.Outcome.next (mbxCommand_replies hserves hbody)
    refine ⟨fun hst => hreply (migrateBody_refused hst), fun pt hst hpt => ?_⟩
    have hexpect := migrateExpect_eq hst
    rw [hreply (migrateBody_seals hst hpt), hexpect]
    rfl
  · have hreply : ∀ {r : ApexReply} {t : State}, blobCommitBody m p s = (some r, t) → exec (.blobCommit m) s = .next (t.finish m r) :=
      fun hbody => congrArg Host.Outcome.next (mbxCommand_replies hserves hbody)
    have hheld : s.commitStatus p = 0 → s.cpr.warn ≠ [] → blobCommitBody m p s = (none, s.holdWrite m) := fun hst hwarn =>
      (blobCommitBody_ok hst).trans (if_pos (State.railWarns_of_ne hwarn))
    exact ⟨fun hst => hreply (blobCommitBody_refused hst),
      fun hst hwarn hnone => congrArg Host.Outcome.next ((State.held_of_warn hserves (hheld hst hwarn)).1 hnone),
      fun hst hwarn hsome => congrArg Host.Outcome.next ((State.held_of_warn hserves (hheld hst hwarn)).2 hsome),
      fun hst hwarn => hreply ((blobCommitBody_ok hst).trans (if_neg (Bool.eq_false_iff.mp (State.railWarns_of_nil hwarn))))⟩
  · have hreply : ∀ {r : ApexReply} {t : State}, blobFetchBody p s = (some r, t) → exec (.blobFetch m) s = .next (t.finish m r) :=
      fun hbody => congrArg Host.Outcome.next (mbxCommand_replies hserves hbody)
    exact ⟨fun hlc => hreply (if_pos (Bool.eq_false_iff.mp hlc)),
      fun hlc hbad => hreply ((if_neg (not_not_intro hlc)).trans (if_pos hbad)),
      fun hlc hlen hoff => hreply (blobFetchBody_eq hlc hlen hoff)⟩

end Sys2Proof.Machine
end

section
namespace Sys2Proof.Machine

/-! Mailboxes, held requests and the release of Compass (R39, R40, R46, R47, R49, R53, R54, R60, R397, R536). -/

@[simp] theorem State.mbx_setMbx (s : State) (m : Mbx) (x : Mailbox) : (s.setMbx m x).mbx m = x := by cases m <;> rfl

@[simp] theorem State.setMbx_setMbx (s : State) (m : Mbx) (x y : Mailbox) : (s.setMbx m x).setMbx m y = s.setMbx m y := by cases m <;> rfl

section
variable {m : Mbx} {s : State}

/-- The mailbox x after a write of APEX_MBX_CTRL with the value v, GO aside (R39; log entry 92). -/
def Mailbox.acked (x : Mailbox) (v : Nat) : Mailbox :=
  if bitOf v 1 ∧ x.done then
    (if x.owed ∧ ¬ x.busy then { x with owed := false, resp := bufOf (le 2 0 ++ le 2 9) } else { x with done := false }) else x

theorem Mailbox.acked_busy (x : Mailbox) (v : Nat) : (x.acked v).busy = x.busy := by
  unfold Mailbox.acked
  split
  · split <;> rfl
  · rfl

theorem Mailbox.acked_code (x : Mailbox) (v : Nat) (b : Bool) : ({ x.acked v with busy := b } : Mailbox).code = x.code := by
  unfold Mailbox.acked
  split
  · split <;> rfl
  · rfl

theorem State.mbxCtrl_eq (s : State) (m : Mbx) (v : Nat) : s.mbxCtrl m v =
    if ¬ bitOf v 0 then s.setMbx m ((s.mbx m).acked v)
    else if (s.mbx m).busy then s.setMbx m { (s.mbx m).acked v with owed := true }
    else (s.setMbx m { (s.mbx m).acked v with busy := true }).mbxUnknown m := by
  rw [← Mailbox.acked_busy (s.mbx m) v]
  rfl

/-- A write of APEX_MBX_CTRL by the owner of mailbox m. -/
theorem exec_mbxCtrl {src : Source} (v : Word32) (hheld : s.apex.held = false) (hrun : src = .compass → s.halted = false) (hsrc : src.mbx = m) :
    exec (.registerWrite 0x00100000#32 v src) s = .next (s.mbxCtrl m v.toNat) := by
  refine exec_registerWrite_of_some ?_
  subst hsrc
  refine (if_neg ?_).trans ((if_pos ⟨le_rfl, by decide⟩).trans (if_pos rfl))
  rintro (halign | hno | ⟨hsrc, hno⟩)
  · exact halign rfl
  · rw [hheld] at hno
    exact absurd hno (by decide)
  · rw [hrun hsrc] at hno
    exact absurd hno (by decide)

/-- A request of a command that a row carries waits for its row. -/
theorem State.mbxUnknown_known (h : (s.mbx m).code ∈ mbxCodes) : s.mbxUnknown m = s :=
  if_neg fun hno => hno.2.2.2 (List.contains_iff_mem.mpr h)

/-! Requests that no row serves. -/

/-- A command of a mailbox leaves a request that is not its own, or that has no turn. -/
theorem mbxCommand_passes {code : Nat} (body : List Byte → State → Option ApexReply × State)
    (h : s.apex.booted = false ∨ s.mbxTurn m = false ∨ (s.mbx m).code ≠ code ∨ s.otherHeld m = true) : mbxCommand m code body s = s :=
  if_pos (h.imp Bool.eq_false_iff.mp (Or.imp_left Bool.eq_false_iff.mp))

section
variable {code : Nat} (body : List Byte → State → Option ApexReply × State) (hboot : s.apex.booted = true) (hturn : s.mbxTurn m = true)
  (hcode : (s.mbx m).code = code) (hother : s.otherHeld m = false)
include hboot hturn hcode hother

theorem not_passes : ¬ (¬ s.apex.booted = true ∨ ¬ s.mbxTurn m = true ∨ (s.mbx m).code ≠ code ∨ s.otherHeld m = true) := by
  rw [hboot, hturn, hother]
  simp [hcode]

theorem mbxCommand_holds (hhold : s.apex.holdCode ≠ 0) (hdbg : m = .debugPort) :
    mbxCommand m code body s = (s.refuseRequest code).finish m { status := 1, bytes := [s.apex.holdCode] } :=
  (if_neg (not_passes hboot hturn hcode hother)).trans (if_pos ⟨hhold, hdbg⟩)

theorem mbxCommand_overlong (hfree : s.apex.holdCode = 0 ∨ m = .compass) (hlen : 508 < (s.mbx m).len) :
    mbxCommand m code body s = (s.refuseRequest code).finish m { status := 8 } := by
  refine (if_neg (not_passes hboot hturn hcode hother)).trans ((if_neg ?_).trans (if_pos hlen))
  rintro ⟨hhold, hdbg⟩
  exact hfree.elim (absurd · hhold) fun hm => nomatch hm.symm.trans hdbg

end

/-- What O31 says of each mailbox command that does not serve. -/
def PassesOrRefuses (m : Mbx) (s : State) (c : Instr × Nat) : Prop :=
  (s.apex.booted = false ∨ s.mbxTurn m = false ∨ (s.mbx m).code ≠ c.2 ∨ s.otherHeld m = true → exec c.1 s = .next s) ∧
  (s.apex.booted = true → s.mbxTurn m = true → (s.mbx m).code = c.2 → s.otherHeld m = false →
    (s.apex.holdCode ≠ 0 → m = .debugPort →
      exec c.1 s = .next ((s.refuseRequest c.2).finish m { status := 1, bytes := [s.apex.holdCode] })) ∧
    ((s.apex.holdCode = 0 ∨ m = .compass) → 508 < (s.mbx m).len → exec c.1 s = .next ((s.refuseRequest c.2).finish m { status := 8 })))

theorem passesOrRefuses_of_eq {c : Instr} {code : Nat} {body : List Byte → State → Option ApexReply × State}
    (h : exec c s = .next (mbxCommand m code body s)) : PassesOrRefuses m s (c, code) := by
  unfold PassesOrRefuses
  rw [h]
  exact ⟨fun hpass => congrArg Host.Outcome.next (mbxCommand_passes body hpass), fun hboot hturn hcode hother =>
    ⟨fun hhold hdbg => congrArg Host.Outcome.next (mbxCommand_holds body hboot hturn hcode hother hhold hdbg),
      fun hfree hlen => congrArg Host.Outcome.next (mbxCommand_overlong body hboot hturn hcode hother hfree hlen)⟩⟩

/-! The end of a held request, and the release of Compass. -/

theorem exec_supplyHoldTimeout_ends {h : HeldWrite} (hheld : s.apex.heldWrite = some h) (hm : h.mbx = m) (hnew : h.begun = false)
    (hwarn : s.cpr.warn ≠ []) : exec (.supplyHoldTimeout m) s =
      .next (((({ s.passTo (h.since + 1000000000) with apex := { (s.passTo (h.since + 1000000000)).apex with heldWrite := none } }).raise
        0x007 []).finish m { status := 7 })) := by
  show execSupplyHoldTimeout m s = _
  unfold execSupplyHoldTimeout
  rw [hheld]
  dsimp only
  rw [if_pos ⟨hm, Bool.eq_false_iff.mp hnew, State.railWarns_of_ne hwarn⟩]
  rfl

theorem exec_supplyHoldTimeout_stays {h : HeldWrite} (hheld : s.apex.heldWrite = some h)
    (hno : h.mbx ≠ m ∨ h.begun = true ∨ s.cpr.warn = []) : exec (.supplyHoldTimeout m) s = .next s := by
  show execSupplyHoldTimeout m s = _
  unfold execSupplyHoldTimeout
  rw [hheld]
  refine if_neg ?_
  rintro ⟨hm, hnew, hwarn⟩
  rcases hno with hno | hno | hno
  · exact hno hm
  · exact hnew hno
  · rw [State.railWarns_of_nil hno] at hwarn
    cases hwarn

theorem exec_supplyHoldTimeout_none (h : s.apex.heldWrite = none) : exec (.supplyHoldTimeout m) s = .next s := by
  show execSupplyHoldTimeout m s = _
  rw [execSupplyHoldTimeout, h]

/-- The part with Compass released and its measurements locked. -/
def State.compassFreed (s : State) : State := { s with rings := { s.rings with released := true }, apex := { s.apex with measLock := true } }

/-- The release, and the alarm that a cold start owes (R60). -/
def State.alarmTold (s : State) : State :=
  if s.apex.measLock = false ∧ s.apex.cause ≠ 0 then s.compassFreed.raise 0x000 [BitVec.ofNat 8 s.apex.cause.toNat] else s.compassFreed

/-- The release, and the transition that a boot resumed (R46). -/
def State.resumeTold (s : State) : State :=
  if s.apex.resumed then (({ s.alarmTold with apex := { s.alarmTold.apex with resumed := false } }).raise 0x002 []).raise 0x001 [] else s.alarmTold

/-- The release, and the supply reset that is owed (R536). -/
def State.supplyTold (s : State) : State :=
  if s.cpr.supplyOwed then ({ s.resumeTold with cpr := { s.resumeTold.cpr with supplyOwed := false } }).raise 0x022 [s.resumeTold.cpr.railId]
  else s.resumeTold

theorem State.alarmTold_raises (s : State) : Raises s.compassFreed s.alarmTold := by
  unfold State.alarmTold
  split
  · exact State.raise_raises _ _ _
  · exact Raises.refl _

theorem State.resumeTold_cpr (s : State) : s.resumeTold.cpr = s.cpr := by
  have halarm : s.alarmTold.cpr = s.cpr := by rw [s.alarmTold_raises.frame']; rfl
  unfold State.resumeTold
  split
  · rw [(((State.raise_raises _ _ _).trans (State.raise_raises _ _ _)).frame' :)]
    exact halarm
  · exact halarm

theorem State.alarmTold_resumed (s : State) : s.alarmTold.apex.resumed = s.apex.resumed := by
  rw [s.alarmTold_raises.frame']
  rfl

theorem exec_compassRelease_releases (hboot : s.apex.booted = true) (hnew : s.rings.released = false) (hhold : s.apex.holdCode = 0)
    (hlc : s.lc ≠ 12) (hserve : s.axis.serving = true) :
    exec .compassRelease s = .next (if s.apex.measLock then s.resumeTold else
      (List.range 4).foldl (fun s i => if s.hull.fail.getLsbD i then s.raise 0x224 [] else s) s.supplyTold) := by
  have hgo : ¬ (¬ s.apex.booted = true ∨ s.rings.released = true ∨ s.apex.holdCode ≠ 0 ∨ s.lc = 12 ∨ ¬ s.axis.serving = true) := by
    rw [hboot, hnew, hhold, hserve]
    simp [hlc]
  have hresume : s.resumeTold = if s.alarmTold.apex.resumed then
      (({ s.alarmTold with apex := { s.alarmTold.apex with resumed := false } }).raise 0x002 []).raise 0x001 [] else s.alarmTold := by
    rw [s.alarmTold_resumed]
    rfl
  have hsupply : s.supplyTold = if s.resumeTold.cpr.supplyOwed then
      ({ s.resumeTold with cpr := { s.resumeTold.cpr with supplyOwed := false } }).raise 0x022 [s.resumeTold.cpr.railId] else s.resumeTold := by
    rw [s.resumeTold_cpr]
    unfold State.supplyTold
    rw [s.resumeTold_cpr]
  have halarm : s.alarmTold = if (!s.apex.measLock) = true ∧ s.compassFreed.apex.cause ≠ 0 then
      s.compassFreed.raise 0x000 [BitVec.ofNat 8 s.compassFreed.apex.cause.toNat] else s.compassFreed := by
    simp only [Bool.not_eq_true']
    rfl
  show execCompassRelease s = _
  unfold execCompassRelease
  refine (if_neg hgo).trans ?_
  rw [hsupply, hresume, halarm]
  cases s.apex.measLock <;> rfl

theorem exec_compassRelease_holds (h : s.apex.booted = false ∨ s.rings.released = true ∨ s.apex.holdCode ≠ 0 ∨ s.lc = 12 ∨ s.axis.serving = false) :
    exec .compassRelease s = .next s :=
  if_pos (h.imp Bool.eq_false_iff.mp (Or.imp_right (Or.imp_right (Or.imp_right Bool.eq_false_iff.mp))))

end

/-- Settles O31: mailboxes, requests that no row serves, held requests and the release. -/
theorem mailboxAnswersAndRelease : Obligations.MailboxAnswersAndRelease := by
  unfold Obligations.MailboxAnswersAndRelease
  intro m s
  refine ⟨fun src v hheld hrun hsrc => ?_, fun r => ?_, ?_, fun h hheld => ?_, exec_supplyHoldTimeout_none, exec_compassRelease_releases,
    exec_compassRelease_holds⟩
  · have hexec := (exec_mbxCtrl v hheld hrun hsrc).trans (congrArg Host.Outcome.next (s.mbxCtrl_eq m v.toNat))
    refine ⟨fun hgo => hexec.trans (congrArg Host.Outcome.next (if_pos (Bool.eq_false_iff.mp hgo))),
      fun hgo hbusy => hexec.trans (congrArg Host.Outcome.next ((if_neg (not_not_intro hgo)).trans (if_pos hbusy))),
      fun hgo hbusy => hexec.trans (congrArg Host.Outcome.next ((if_neg (not_not_intro hgo)).trans (if_neg (Bool.eq_false_iff.mp hbusy)))),
      fun hcode => State.mbxUnknown_known ?_⟩
    rw [State.mbx_setMbx]
    exact ((s.mbx m).acked_code v.toNat true).symm ▸ hcode
  · cases m <;> exact ⟨rfl, rfl, rfl, rfl, rfl, rfl, rfl⟩
  · simp only [List.forall_mem_cons]
    exact ⟨passesOrRefuses_of_eq rfl, passesOrRefuses_of_eq rfl, passesOrRefuses_of_eq rfl, passesOrRefuses_of_eq rfl,
      passesOrRefuses_of_eq rfl, passesOrRefuses_of_eq rfl, passesOrRefuses_of_eq rfl, passesOrRefuses_of_eq rfl,
      passesOrRefuses_of_eq rfl, passesOrRefuses_of_eq rfl, passesOrRefuses_of_eq rfl, passesOrRefuses_of_eq rfl,
      passesOrRefuses_of_eq rfl, List.forall_mem_nil _⟩
  · exact ⟨exec_supplyHoldTimeout_ends hheld, exec_supplyHoldTimeout_stays hheld⟩

end Sys2Proof.Machine
end

section
namespace Sys2Proof.Machine

/-! Serial lanes reach LOCKED and lose it (R422, R425 to R427, R430, R432, R433, R436, R438). -/

section
variable {l : Lane} {f : Nat → State → State} {s : State}

theorem onLane_absent (h : laneExists l = false) : onLane l f s = .next s :=
  congrArg Host.Outcome.next (if_neg (Bool.eq_false_iff.mp h))

theorem onLane_exists {t : State} (h : laneExists l = true) (hrun : f (laneKey l) s = t) : onLane l f s = .next t :=
  congrArg Host.Outcome.next ((if_pos h).trans hrun)

section
variable (hl : laneExists l = true)
include hl

theorem exec_phaseLock_kept {t0 : Nat} (hmode : (s.lane (laneKey l)).mode = .cdr) (hkept : (s.lane (laneKey l)).kept = some t0) :
    exec (.phaseLock l) s = .next (if s.clk ≤ t0 + 10000000 then s.laneLock (laneKey l)
      else s.setLane (laneKey l) { s.lane (laneKey l) with mode := .adapt, kept := none }) := by
  show execPhaseLock l s = _
  refine onLane_exists hl ?_
  dsimp only
  rw [if_neg (not_not_intro hmode), hkept]

theorem exec_phaseLock_new (hmode : (s.lane (laneKey l)).mode = .cdr) (hkept : (s.lane (laneKey l)).kept = none) :
    exec (.phaseLock l) s = .next (s.setLane (laneKey l) { s.lane (laneKey l) with mode := .adapt }) := by
  show execPhaseLock l s = _
  refine onLane_exists hl ?_
  dsimp only
  rw [if_neg (not_not_intro hmode), hkept]

/-- On a Chord lane the part's own peaking setting, then TRAIN (R432). -/
theorem exec_adaptConverged_chord (hmode : (s.lane (laneKey l)).mode = .adapt) (hk : 128 ≤ laneKey l) :
    ∃ t : State, exec (.adaptConverged l) s = .next t ∧ (t.lane (laneKey l)).mode = .train ∧
      t = { s with lanes := t.lanes, freeCount := s.freeCount + 1 } ∧ ∀ j, j ≠ laneKey l → t.lane j = s.lane j := by
  have hrun : execAdaptConverged l s = _ := onLane_exists hl ((if_neg (not_not_intro hmode)).trans (if_pos hk))
  refine ⟨_, hrun, ?_, rfl, fun j hj => ?_⟩
  · rw [State.lane_setLane]
  · rw [State.lane_setLane_ne _ hj, State.lane_setLane_ne _ hj]
    rfl

theorem exec_adaptConverged_port (hmode : (s.lane (laneKey l)).mode = .adapt) (hk : laneKey l < 128) :
    ∃ (u : State) (c : BitVec 8), exec (.adaptConverged l) s = .next (u.laneLock (laneKey l)) ∧
      u = { s.setLane (laneKey l) { s.lane (laneKey l) with ctle := c } with freeCount := s.freeCount + 1 } := by
  have hrun : execAdaptConverged l s = _ := onLane_exists hl ((if_neg (not_not_intro hmode)).trans (if_neg (Nat.not_le.mpr hk)))
  exact ⟨_, _, hrun, rfl⟩

theorem exec_fastRelockExpiry_kept {t0 : Nat} (hmode : (s.lane (laneKey l)).mode = .cdr) (hkept : (s.lane (laneKey l)).kept = some t0) :
    exec (.fastRelockExpiry l) s = .next ((s.passTo (t0 + 10000000)).setLane (laneKey l)
      { (s.passTo (t0 + 10000000)).lane (laneKey l) with kept := none, ctle := 0 }) := by
  show execFastRelockExpiry l s = _
  refine onLane_exists hl ?_
  dsimp only
  rw [hmode, hkept]

theorem exec_fastRelockExpiry_other (hmode : (s.lane (laneKey l)).mode ≠ .cdr) : exec (.fastRelockExpiry l) s = .next s := by
  show execFastRelockExpiry l s = _
  refine onLane_exists hl ?_
  dsimp only
  split
  · rename_i hcdr _
    exact absurd hcdr hmode
  · rfl

theorem exec_lockTimeout_out {t0 : Nat} (hsince : (s.lane (laneKey l)).since = some t0) (hoff : (s.lane (laneKey l)).mode ≠ .off)
    (hlocked : (s.lane (laneKey l)).mode ≠ .locked) :
    exec (.lockTimeout l) s = .next ((((s.passTo (t0 + 500000000)).setLane (laneKey l) { (s.passTo (t0 + 500000000)).lane (laneKey l) with
      mode := .signal, signal := false, kept := none, ctle := 0, since := some (s.passTo (t0 + 500000000)).clk }).raise 0x323
        (laneData (laneKey l))).laneChanged (laneKey l)) := by
  show execLockTimeout l s = _
  refine onLane_exists hl ?_
  dsimp only
  rw [hsince]
  dsimp only
  rw [if_neg (by simp [hoff, hlocked])]

theorem exec_lockTimeout_not (h : (s.lane (laneKey l)).since = none ∨ (s.lane (laneKey l)).mode = .off ∨ (s.lane (laneKey l)).mode = .locked) :
    exec (.lockTimeout l) s = .next s := by
  show execLockTimeout l s = _
  refine onLane_exists hl ?_
  dsimp only
  split
  · rename_i hsince
    exact if_pos (h.resolve_left (by rw [hsince]; exact Option.some_ne_none _))
  · rfl

theorem exec_signalLoss_later (h : (s.lane (laneKey l)).mode = .cdr ∨ (s.lane (laneKey l)).mode = .adapt ∨ (s.lane (laneKey l)).mode = .train ∨
      (s.lane (laneKey l)).mode = .locked) :
    exec (.signalLoss l) s = .next (((s.setLane (laneKey l) { (s.lane (laneKey l)).abortEye with mode := .signal, signal := false, kept := none }).raise
      0x322 (laneData (laneKey l))).laneChanged (laneKey l)) := by
  show execSignalLoss l s = _
  refine onLane_exists hl (if_neg ?_)
  rcases h with h | h | h | h <;> (rw [h]; decide)

end

theorem State.laneLol_unlocked {k : Nat} (h : (s.lane k).mode ≠ .locked) : s.laneLol k = s := if_pos h

theorem State.laneLol_all_unlocked {ks : List Nat} (h : ∀ k ∈ ks, (s.lane k).mode ≠ .locked) : ks.foldl (fun s k => s.laneLol k) s = s := by
  induction ks with
  | nil => rfl
  | cons k ks ih =>
    rw [List.foldl_cons, State.laneLol_unlocked (h k List.mem_cons_self)]
    exact ih fun j hj => h j (List.mem_cons_of_mem _ hj)

theorem exec_refclkLoss (c : Fin 4) (hrun : s.halted = false) : exec (.refclkLoss c) s =
    .next (((refclkLanes c.val).foldl (fun s k => s.laneLol k) s).raise 0x324 [BitVec.ofNat 8 c.val]) :=
  if_neg (Bool.eq_false_iff.mp hrun)

/-- REFCLK_L0 serves the line lanes 0 to 31 and the nine Chord lanes. -/
theorem mem_refclkLanes_two (j : Nat) : j ∈ refclkLanes 2 ↔ (64 ≤ j ∧ j < 96) ∨ (128 ≤ j ∧ j < 137) := by
  have hshift : ∀ a n, j ∈ (List.range n).map (a + ·) ↔ a ≤ j ∧ j < a + n := fun a n => by
    simp only [List.mem_map, List.mem_range]
    exact ⟨fun ⟨i, hi, hj⟩ => by omega, fun ⟨hlo, hhi⟩ => ⟨j - a, by omega, by omega⟩⟩
  show j ∈ (List.range 32).map (64 + ·) ++ (List.range 9).map (128 + ·) ↔ _
  rw [List.mem_append, hshift, hshift]

theorem exec_pcsAlignmentLock (side : Side) (n : Fin 16) (sub : Fin 4) (s : State) :
    let lp := 64 * sideNo side + 4 * n.val + sub.val
    let p := s.lport lp
    exec (.pcsAlignmentLock side n sub) s =
      .next (if p.busy && !p.up && p.mode != some 7 && !(s.lanesOf lp).isEmpty && (s.lanesOf lp).all s.laneLocked then s.portLink lp true else s) := by
  cases side <;> rfl

end

/-- Settles O25: each row in each state of its lane. -/
theorem lanesReachAndLoseLock : Obligations.LanesReachAndLoseLock := by
  unfold Obligations.LanesReachAndLoseLock
  refine ⟨fun l s => ⟨fun hl => ⟨(onLane_absent hl : execTransmitPllLock l s = _), (onLane_absent hl : execSignalDetect l s = _), (onLane_absent hl : execPhaseLock l s = _), (onLane_absent hl : execAdaptConverged l s = _), fun _ => (onLane_absent hl : execTrainComplete l _ s = _),
      (onLane_absent hl : execFastRelockExpiry l s = _)⟩, fun hl => ?_⟩,
    fun l s => ⟨fun hl => ⟨(onLane_absent hl : execLossOfLock l s = _), (onLane_absent hl : execSignalLoss l s = _), (onLane_absent hl : execLockTimeout l s = _), (onLane_absent hl : execPrbsCheckerLockLoss l s = _), fun _ => (onLane_absent hl : execEyeScanDone l _ s = _)⟩, fun hl => ?_, ?_,
      fun j => ⟨rfl, rfl, rfl, mem_refclkLanes_two j⟩, exec_refclkLoss, fun side n sub => ?_⟩⟩
  · refine ⟨fun h => (onLane_exists hl (if_pos h) : execTransmitPllLock l s = _), fun h => (onLane_exists hl (if_neg h) : execTransmitPllLock l s = _), fun h => (onLane_exists hl (if_pos h) : execSignalDetect l s = _),
      fun h => (onLane_exists hl (if_neg h) : execSignalDetect l s = _), exec_phaseLock_new hl, fun t0 hmode hkept => ?_,
      fun h => ⟨(onLane_exists hl (if_pos h) : execPhaseLock l s = _), exec_fastRelockExpiry_other hl h⟩, exec_adaptConverged_chord hl, exec_adaptConverged_port hl,
      fun h => (onLane_exists hl (if_pos h) : execAdaptConverged l s = _), fun inv h => (onLane_exists hl (if_neg (not_not_intro h)) : execTrainComplete l inv s = _), fun inv h => (onLane_exists hl (if_pos h) : execTrainComplete l inv s = _), rfl,
      fun t0 => exec_fastRelockExpiry_kept hl⟩
    rw [exec_phaseLock_kept hl hmode hkept]
    exact ⟨fun h => by rw [if_pos h], fun h => by rw [if_neg (Nat.not_le.mpr h)]⟩
  · exact ⟨fun h => (onLane_exists hl (if_neg (not_not_intro h)) : execLossOfLock l s = _), fun h => (onLane_exists hl (if_pos h) : execLossOfLock l s = _), exec_signalLoss_later hl,
      fun h => (onLane_exists hl (if_pos h) : execSignalLoss l s = _), fun t0 => exec_lockTimeout_out hl, exec_lockTimeout_not hl, fun h => (onLane_exists hl (if_pos h) : execPrbsCheckerLockLoss l s = _),
      fun h => (onLane_exists hl (if_neg (Bool.eq_false_iff.mp h)) : execPrbsCheckerLockLoss l s = _), fun e h => (onLane_exists hl (if_pos h) : execEyeScanDone l e s = _),
      fun e h => (onLane_exists hl (if_neg (Bool.eq_false_iff.mp h)) : execEyeScanDone l e s = _)⟩
  · intro hrun hnone
    rw [exec_refclkLoss 0 hrun, show refclkLanes (0 : Fin 4).val = refclkLanes 0 from rfl, State.laneLol_all_unlocked hnone]
    rfl
  · have h := exec_pcsAlignmentLock side n sub s
    dsimp only at h ⊢
    rw [h]
    exact ⟨fun hr => by rw [if_pos hr], fun hr => by rw [if_neg (Bool.eq_false_iff.mp hr)]⟩

end Sys2Proof.Machine
end

section
namespace Sys2Proof.Machine

/-! Lane registers (R428, R429, R431, R433 to R436), PORT_ENABLE and PORT_DISABLE (R94, R190, R204, R207, R208, R425, R501, R502). -/

/-! Lane registers. -/

/-- What LANE_CFG of lane k stores of a value. -/
def laneCfgNew (k v : Nat) : Nat := v &&& if 64 ≤ k ∧ k < 128 ∧ k % 4 = 0 then 0xFC000000 else 0xDC000000

/-- LOOPBACK of a value of LANE_CFG: 11b is read as 00b. -/
def loopbackOf (x : Nat) : Nat := if bits x 26 2 = 3 then 0 else bits x 26 2

section
variable {s : State} {k v : Nat}

/-- The part with LANE_CFG of lane k written. -/
def State.laneCfgSet (s : State) (k v : Nat) : State := s.setReg (laneOff k) (BitVec.ofNat 32 (laneCfgNew k v))

theorem State.laneCfg_stores (h : 128 ≤ k ∨ ((s.regN (laneOff k) ^^^ laneCfgNew k v) / 2 ^ 30 = 0 ∧
    (loopbackOf (s.regN (laneOff k)) = loopbackOf (laneCfgNew k v) ∨ (s.laneCfgSet k v).lanePortEnabled k = false))) :
    s.laneCfg k v = s.laneCfgSet k v := by
  refine if_neg ?_
  rintro (⟨hk, hinv⟩ | ⟨hk, hloop, hon⟩)
  · exact h.elim (fun hchord => absurd hk (Nat.not_lt.mpr hchord)) fun h => hinv h.1
  · exact h.elim (fun hchord => absurd hk (Nat.not_lt.mpr hchord)) fun h => h.2.elim hloop fun hoff => Bool.eq_false_iff.mp hoff hon

theorem State.laneCfg_relocks (hk : k < 128) (h : (s.regN (laneOff k) ^^^ laneCfgNew k v) / 2 ^ 30 ≠ 0 ∨
    (loopbackOf (s.regN (laneOff k)) ≠ loopbackOf (laneCfgNew k v) ∧ (s.laneCfgSet k v).lanePortEnabled k = true)) :
    s.laneCfg k v = (s.laneCfgSet k v).laneLol k :=
  if_pos (h.imp (fun hinv => ⟨hk, hinv⟩) fun hloop => ⟨hk, hloop⟩)

/-- LANE_PRBS of a lane not in service, or without an enable (R433, R434). -/
theorem State.lanePrbs_takes (h : bits v 30 2 = 0 ∨ s.laneInUse k = false) :
    s.lanePrbs k v =
      let w := s.setReg (laneOff k + 0xC) (BitVec.ofNat 32 (v &&& 0xFCF00000))
      let x := if bits v 30 2 ≠ 0 then w.startLane k else if w.laneInUse k then w else (w.stopLane k (if k < 128 then 0 else 3)).laneChanged k
      let y := x.setLane k { x.lane k with
        errors := if bitOf v 30 && !bitOf (s.regN (laneOff k + 0xC)) 30 then 0 else (x.lane k).errors
        chkLock := bitOf v 30 && ((x.lane k).chkLock || (x.lane k).mode == .locked) }
      if bitOf v 24 then y.inject k else y :=
  if_neg fun ⟨hon, huse⟩ => h.elim hon fun hfree => Bool.eq_false_iff.mp hfree huse

theorem State.lanePrbs_ignored (hon : bits v 30 2 ≠ 0) (huse : s.laneInUse k = true) : s.lanePrbs k v = s := if_pos ⟨hon, huse⟩

theorem State.inject_lane (s : State) (k j : Nat) : ((s.inject k).lane k).injected = (s.lane k).injected + 1 ∧
    ((s.inject k).lane k).mode = (s.lane k).mode ∧ (j ≠ k → (s.inject k).lane j = s.lane j) := by
  unfold State.inject
  dsimp only
  rw [State.lane_setLane]
  exact ⟨rfl, rfl, fun hj => State.lane_setLane_ne _ hj _⟩

/-- The part with LANE_EYE_CTRL of lane k written. -/
def State.laneEyeSet (s : State) (k v : Nat) : State :=
  s.setReg (laneOff k + 0x14) (BitVec.ofNat 32 ((v &&& 0x607F007F) ||| min 20 (bits v 24 5) <<< 24))

theorem State.laneEye_rests (h : bitOf v 31 = false) : s.laneEye k v = s.laneEyeSet k v := if_pos (by rw [h]; rfl)

theorem State.laneEye_starts (h : bitOf v 31 = true) (hmode : (s.lane k).mode = .locked) : s.laneEye k v =
    (s.laneEyeSet k v).setLane k { s.lane k with eyeBusy := true, eye := (s.lane k).eye &&& 0x3FFFFFFF#32 } :=
  (if_neg (by rw [h]; decide)).trans (congrArg ((s.laneEyeSet k v).setLane k) (if_pos hmode))

theorem State.laneEye_stops (h : bitOf v 31 = true) (hmode : (s.lane k).mode ≠ .locked) : s.laneEye k v =
    (s.laneEyeSet k v).setLane k { s.lane k with eyeBusy := false, eye := ((s.lane k).eye &&& 0x3FFFFFFF#32) ||| 0x40000000#32 } :=
  (if_neg (by rw [h]; decide)).trans (congrArg ((s.laneEyeSet k v).setLane k) (if_neg hmode))

end

/-- What O26 says of the registers of a lane that exists. -/
theorem exec_laneRegister {l : Lane} {s : State} {v : Word32} (hrun : s.halted = false) (hl : laneExists l = true) :
    exec (.laneCfgWrite l v) s = .next (s.laneCfg (laneKey l) v.toNat) ∧ exec (.laneTxeqWrite l v) s = .next (s.laneTxeq (laneKey l) v.toNat) ∧
    exec (.prbsCfgWrite l v) s = .next (s.lanePrbs (laneKey l) v.toNat) ∧ exec (.errorInject l v) s = .next (s.lanePrbs (laneKey l) v.toNat) ∧
    exec (.eyeScanGo l v) s = .next (s.laneEye (laneKey l) v.toNat) := by
  have hgo : ¬ s.halted = true := Bool.eq_false_iff.mp hrun
  have hrow : ∀ f : Nat → State → State, onLane l f s = .next (f (laneKey l) s) := fun f => onLane_exists hl rfl
  exact ⟨(if_neg hgo).trans (hrow _), (if_neg hgo).trans (hrow _), (if_neg hgo).trans (hrow _), (if_neg hgo).trans (hrow _),
    (if_neg hgo).trans (hrow _)⟩

theorem exec_laneRegister_absent {l : Lane} {s : State} {v : Word32} (hrun : s.halted = false) (hl : laneExists l = false) :
    exec (.laneCfgWrite l v) s = .next s ∧ exec (.laneTxeqWrite l v) s = .next s ∧ exec (.prbsCfgWrite l v) s = .next s ∧
    exec (.errorInject l v) s = .next s ∧ exec (.eyeScanGo l v) s = .next s := by
  have hgo : ¬ s.halted = true := Bool.eq_false_iff.mp hrun
  exact ⟨(if_neg hgo).trans (onLane_absent hl), (if_neg hgo).trans (onLane_absent hl), (if_neg hgo).trans (onLane_absent hl),
    (if_neg hgo).trans (onLane_absent hl), (if_neg hgo).trans (onLane_absent hl)⟩

/-! What an enable of a port leaves of the logical ports. -/

section
variable {s : State}

@[simp] theorem State.raise_ports (s : State) (ev : Nat) (data : List Byte) : (s.raise ev data).ports = s.ports := by
  rw [(s.raise_raises ev data).frame']

@[simp] theorem State.raiseSet_ports (s : State) (ev : Nat) (c : Bool) (data : List Byte) : (s.raiseSet ev c data).ports = s.ports := by
  rw [(s.raiseSet_raises ev c data).frame']

@[simp] theorem State.count_ports (s : State) (id : Nat) : (s.count id).ports = s.ports := by rw [(s.count_reports id).frame]

@[simp] theorem State.dropMgmt_ports (s : State) (n c : Nat) : (s.dropMgmt n c).ports = s.ports := by
  unfold State.dropMgmt
  split
  · rfl
  · rw [State.raise_ports, State.count_ports, State.modFacet_ports]

@[simp] theorem State.declare_ports (s : State) (n k : Nat) (items : List Byte) : (s.declare n k items).ports = s.ports := by
  unfold State.declare
  dsimp only
  split
  · rfl
  · rw [State.raiseSet_ports, apply_ite State.ports, State.dropMgmt_ports, ite_self, State.setFacet_ports]

@[simp] theorem State.clearSection_ports (s : State) (n k : Nat) (items : List Byte) : (s.clearSection n k items).ports = s.ports := by
  unfold State.clearSection
  dsimp only
  split
  · rfl
  · simp only [apply_ite State.ports, State.declare_ports, State.raiseSet_ports, State.setFacet_ports, ite_self]

@[simp] theorem State.facetLol_ports (s : State) (n : Nat) : (s.facetLol n).ports = s.ports := by
  unfold State.facetLol
  simp only [apply_ite State.ports, State.declare_ports, State.clearSection_ports, ite_self]

@[simp] theorem State.facetSignal_ports (s : State) (n : Nat) : (s.facetSignal n).ports = s.ports := by
  unfold State.facetSignal
  simp only [apply_ite State.ports, State.setFacet_ports, ite_self]

@[simp] theorem State.startFacet_ports (s : State) (n : Nat) : (s.startFacet n).ports = s.ports := by
  unfold State.startFacet
  simp only [State.facetLol_ports, State.facetSignal_ports, State.setFacet_ports]

@[simp] theorem State.startLane_ports (s : State) (k : Nat) : (s.startLane k).ports = s.ports := by
  unfold State.startLane
  simp only [apply_ite State.ports, State.setLane_ports, ite_self]

@[simp] theorem State.syncRestore_ports (s : State) : s.syncRestore.ports = s.ports := by
  unfold State.syncRestore
  split
  · split <;> rfl
  · rfl

theorem State.foldl_ports {α : Type} {f : State → α → State} (l : List α) (s : State) (h : ∀ u a, (f u a).ports = u.ports) :
    (l.foldl f s).ports = s.ports :=
  List.foldlRecOn (motive := fun t : State => t.ports = s.ports) l f rfl fun u hu a _ => (h u a).trans hu

@[simp] theorem State.rclk_ports (s : State) : s.rclk.ports = s.ports := by
  unfold State.rclk
  refine State.foldl_ports _ s fun u a => ?_
  dsimp only
  split
  · rfl
  · rw [State.raiseSet_ports]

/-- The logical port i of a PORT_ENABLE is enabled in its mode. -/
def State.PortOnIn (s : State) (d : Desc) (lp : Nat) : Prop :=
  (s.lport lp).enabled = true ∧ (s.lport lp).mode = some (BitVec.ofNat 3 (portMode d))

theorem State.PortOnIn.congr {t : State} {d : Desc} {lp : Nat} (hs : s.PortOnIn d lp) (h : t.ports = s.ports) : t.PortOnIn d lp := by
  unfold State.PortOnIn State.lport at hs ⊢
  rw [h]
  exact hs

/-- An enable of sub-port i puts its logical port into the mode, and takes none out of it. -/
theorem State.enableSub_portOnIn (s : State) (d : Desc) (i lp : Nat) (h : lp = portLp d i ∨ s.PortOnIn d lp) : (s.enableSub d i).PortOnIn d lp := by
  have hset : ∀ (x : LPort) (t : State), t.ports = (s.setLport (portLp d i) x).ports → x.enabled = true →
      x.mode = some (BitVec.ofNat 3 (portMode d)) → t.PortOnIn d lp := by
    intro x t ht hon hmode
    refine State.PortOnIn.congr (s := s.setLport (portLp d i) x) ?_ ht
    unfold State.PortOnIn
    by_cases hlp : lp = portLp d i
    · subst hlp
      rw [State.lport_setLport]
      exact ⟨hon, hmode⟩
    · rw [State.lport_setLport_ne _ hlp]
      exact h.resolve_left hlp
  unfold State.enableSub
  dsimp only
  split
  · refine hset _ _ ((State.foldl_ports _ _ fun u c => State.setParams_ports _ _ _ _).trans (State.foldl_ports _ _ fun u k => ?_)) rfl rfl
    exact State.startLane_ports u _
  · exact hset _ _ (State.foldl_ports _ _ fun u k => State.startLane_ports u _) rfl rfl

theorem State.enableSubs_portOnIn (d : Desc) (is : List Nat) (s : State) {lp : Nat} (h : (∃ i ∈ is, lp = portLp d i) ∨ s.PortOnIn d lp) :
    (is.foldl (fun s i => s.enableSub d i) s).PortOnIn d lp := by
  induction is generalizing s with
  | nil => exact h.resolve_left fun ⟨i, hi, _⟩ => List.not_mem_nil hi
  | cons i is ih =>
    refine ih _ ?_
    rcases h with ⟨j, hj, hlp⟩ | hon
    · rcases List.mem_cons.mp hj with rfl | hj
      · exact .inr (s.enableSub_portOnIn d j lp (.inl hlp))
      · exact .inl ⟨j, hj, hlp⟩
    · exact .inr (s.enableSub_portOnIn d i lp (.inr hon))

theorem State.enablePort_portOnIn (s : State) (d : Desc) {i : Nat} (hi : i ∈ maskSubs (portMask d)) : (s.enablePort d).PortOnIn d (portLp d i) := by
  unfold State.enablePort
  dsimp only
  generalize (if (portSide d == 1) = true ∧ (!s.portOn 1 (portNo d)) = true then _ else s) = u
  refine State.PortOnIn.congr (State.enableSubs_portOnIn d (maskSubs (portMask d)) u (.inl ⟨i, hi, rfl⟩)) ?_
  rw [State.syncRestore_ports, State.rclk_ports, apply_ite State.ports, State.startFacet_ports, ite_self]

end

/-! PORT_ENABLE and PORT_DISABLE. -/

section
variable {d : Desc} {s s0 : State}

theorem portEnableBody_ok (hf : portFieldsOk d = true) (hst : s0.enableStatus d = .ok) : portEnableBody d s0 = (s0.enablePort d).done d .ok := by
  unfold portEnableBody
  rw [hf, hst]
  rfl

theorem portEnableBody_refuses (hf : portFieldsOk d = true) (hst : s0.enableStatus d ≠ .ok) :
    portEnableBody d s0 = s0.done d (s0.enableStatus d) := by
  unfold portEnableBody
  rw [hf, if_neg (by decide)]
  split
  · next hok => exact absurd hok hst
  · rfl

theorem portEnableBody_bad (hf : portFieldsOk d = false) : portEnableBody d s0 = s0.done d .badRequest := if_pos (by rw [hf]; rfl)

/-- The part with FACET_MAINT of a line port cleared (R190). -/
def State.clearMaint (s : State) (d : Desc) : State := if portSide d = 1 then s.setReg (facetOff (portNo d) 0x40C) 0 else s

theorem State.clearMaint_lport (s : State) (d : Desc) (lp : Nat) : (s.clearMaint d).lport lp = s.lport lp := by
  unfold State.clearMaint State.lport
  split
  · rw [State.setReg_ports]
  · rfl

/-- The fields of a PORT_DISABLE that R502 refuses. -/
def portDisableBad (d : Desc) (s : State) : Prop :=
  4 ≤ d.get 8 1 ∨ 16 ≤ portNo d ∨ portMask d = 0 ∨ 2 ^ modeSubs ((s.portModeNow (portSide d) (portNo d)).getD 2) ≤ portMask d ∨
    (portSide d = 0 ∧ portPath d = 1)

/-- A named sub-port is enabled or drains. -/
def State.namesBusy (s : State) (d : Desc) : Bool := (maskSubs (portMask d)).any fun i => (s.lport (portLp d i)).busy

theorem State.clearMaint_namesBusy (s : State) (d : Desc) : (s.clearMaint d).namesBusy d = s.namesBusy d := by
  unfold State.namesBusy
  simp only [State.clearMaint_lport]

theorem portDisableBody_bad (h : portDisableBad d s) : portDisableBody d s = s.done d .badRequest := if_pos h

theorem portDisableBody_idle (h : ¬ portDisableBad d s) (hbusy : s.namesBusy d = false) : portDisableBody d s = (s.clearMaint d).done d .ok := by
  have hnone : (!(s.clearMaint d).namesBusy d) = true := by rw [State.clearMaint_namesBusy, hbusy]; rfl
  exact (if_neg h).trans (if_pos hnone)

theorem portDisableBody_drains (h : ¬ portDisableBad d s) (hbusy : s.namesBusy d = true) : portDisableBody d s =
    let u := ((maskSubs (portMask d)).foldl (fun s i => s.disableSub (portSide d) (portNo d) i) (s.clearMaint d)).syncRestore
    { u with ports := { u.ports with disables := u.ports.disables ++
      [{ desc := d, side := if portSide d = 0 then .client else .line, port := portNo d, mask := portMask d
         due := u.clk + u.timeoutOf d 50000 }] } } := by
  have hsome : ¬ (!(s.clearMaint d).namesBusy d) = true := by rw [State.clearMaint_namesBusy, hbusy]; decide
  exact (if_neg h).trans (if_neg hsome)

theorem portDisable_admitted (h8 : d.get 8 1 < 4) (hpath : portSide d = 0 → portPath d = 0) (hport : portNo d < 16) (hmask : portMask d ≠ 0)
    (hsubs : portMask d < 2 ^ modeSubs ((s.portModeNow (portSide d) (portNo d)).getD 2)) : ¬ portDisableBad d s := by
  rintro (h | h | h | h | ⟨hside, h⟩)
  · omega
  · omega
  · exact hmask h
  · omega
  · rw [hpath hside] at h
    exact absurd h (by decide)

end

section
variable {s : State} {side n i : Nat}

theorem State.disableSub_off (h : (s.lport (64 * side + (4 * n + i))).enabled = false) : s.disableSub side n i = s := if_pos (by rw [h]; rfl)

theorem State.disableSub_client (h : (s.lport (64 * side + (4 * n + i))).enabled = true) (hside : side ≠ 1) : s.disableSub side n i =
    (s.setLport (64 * side + (4 * n + i)) { s.lport (64 * side + (4 * n + i)) with enabled := false, draining := true, up := false }).discardPort
      side (4 * n + i) :=
  (if_neg (by rw [h]; decide)).trans (if_neg hside)

theorem State.disableSub_line (h : (s.lport (64 * side + (4 * n + i))).enabled = true) (hside : side = 1) : s.disableSub side n i =
    ((s.setLport (64 * side + (4 * n + i)) { s.lport (64 * side + (4 * n + i)) with enabled := false, draining := true, up := false }).discardPort
      side (4 * n + i)).dropParkedOf (4 * n + i) :=
  (if_neg (by rw [h]; decide)).trans (if_pos hside)

end

section
variable {s : State} {n : Fin 16} {x : Disable}

theorem execPortDrainEnd_some {side : Side} (h : (s.ports.disables.find? fun x => x.side == side && x.port == n.val && s.drained x) = some x) :
    execPortDrainEnd side n s = .next ((s.closePort x).done x.desc .ok) := by
  unfold execPortDrainEnd
  rw [h]

theorem execPortDrainEnd_none {side : Side} (h : (s.ports.disables.find? fun x => x.side == side && x.port == n.val && s.drained x) = none) :
    execPortDrainEnd side n s = .next s := by
  unfold execPortDrainEnd
  rw [h]

theorem execPortDisableTimeout_none {side : Side} (h : (s.ports.disables.find? fun x => x.side == side && x.port == n.val) = none) :
    execPortDisableTimeout side n s = .next s := by
  unfold execPortDisableTimeout
  rw [h]

theorem execPortDisableTimeout_client (h : (s.ports.disables.find? fun x => x.side == .client && x.port == n.val) = some x) :
    execPortDisableTimeout .client n s = .next (((s.passTo x.due).closePort x).complete x.desc { status := .ok }) := by
  unfold execPortDisableTimeout
  rw [h]
  dsimp only
  generalize s.passTo x.due = u
  rfl

/-- The frames that remain on the sub-ports of a line port's disable are discarded, with their number (R208). -/
def discardFrames (n : Fin 16) (x : Disable) (u : State) : Nat × State :=
  (maskSubs x.mask).foldl (fun (e : Nat × State) i => (e.1 + (e.2.discardItems (4 * n.val + i)).1, (e.2.discardItems (4 * n.val + i)).2)) (0, u)

theorem execPortDisableTimeout_line (h : (s.ports.disables.find? fun x => x.side == .line && x.port == n.val) = some x) :
    execPortDisableTimeout .line n s = .next (((discardFrames n x (s.passTo x.due)).2.closePort x).complete x.desc
      (if (discardFrames n x (s.passTo x.due)).1 = 0 then { status := .ok }
        else { status := .drainedLate, r0 := (discardFrames n x (s.passTo x.due)).1 })) := by
  unfold execPortDisableTimeout
  rw [h]
  dsimp only
  generalize s.passTo x.due = u
  rfl

end

/-- Settles O26: LANE_CFG, LANE_TXEQ, the pattern and eye registers act by their row on a lane that exists; an admitted enable puts every named
sub-port into its mode, since no later effect of PORT_ENABLE touches the logical ports; a disable drains and its end or timeout completes it. -/
theorem laneRegistersAndPorts : Obligations.LaneRegistersAndPorts := by
  unfold Obligations.LaneRegistersAndPorts
  refine ⟨fun l s v hrun => ⟨fun hl => exec_laneRegister_absent hrun hl, fun hl => ?_⟩, fun d s s0 => ?_⟩
  · obtain ⟨hcfg, htxeq, hprbs, hinject, heye⟩ := exec_laneRegister (v := v) hrun hl
    refine ⟨fun h => ?_, fun hk h => ?_, fun h => ?_, fun h => ?_, fun hon huse => ?_, fun h => ?_, fun j => State.inject_lane s _ j,
      fun h => ?_, fun h hmode => ?_, fun h hmode => ?_⟩
    · exact hcfg.trans (congrArg Host.Outcome.next (State.laneCfg_stores h))
    · exact hcfg.trans (congrArg Host.Outcome.next (State.laneCfg_relocks hk h))
    · exact htxeq.trans (congrArg Host.Outcome.next (if_pos h))
    · exact htxeq.trans (congrArg Host.Outcome.next (if_neg (Nat.not_lt.mpr h)))
    · exact ⟨hprbs.trans (congrArg Host.Outcome.next (State.lanePrbs_ignored hon huse)),
        hinject.trans (congrArg Host.Outcome.next (State.lanePrbs_ignored hon huse))⟩
    · exact ⟨hprbs.trans (congrArg Host.Outcome.next (State.lanePrbs_takes h)), hinject.trans (congrArg Host.Outcome.next (State.lanePrbs_takes h))⟩
    · exact heye.trans (congrArg Host.Outcome.next (State.laneEye_rests h))
    · exact heye.trans (congrArg Host.Outcome.next (State.laneEye_starts h hmode))
    · exact heye.trans (congrArg Host.Outcome.next (State.laneEye_stops h hmode))
  · refine ⟨fun hacc => ?_, fun i hi _ _ => s0.enablePort_portOnIn d hi, fun hacc h8 hpath hport hmask hsubs => ?_, fun hacc hbad => ?_,
      fun side n i => ⟨State.disableSub_off, State.disableSub_client, State.disableSub_line⟩, fun side n x => execPortDrainEnd_some,
      fun side n => execPortDrainEnd_none, fun n x => execPortDisableTimeout_client, fun n x => execPortDisableTimeout_line,
      fun side n => execPortDisableTimeout_none⟩
    · have hrow : exec (.portEnable d) s = .next (portEnableBody d s0) := congrArg Host.Outcome.next (ringCommand_accepts hacc _)
      exact ⟨fun hf hst => hrow.trans (congrArg Host.Outcome.next (portEnableBody_ok hf hst)),
        fun hf hst => hrow.trans (congrArg Host.Outcome.next (portEnableBody_refuses hf hst)),
        fun hf => hrow.trans (congrArg Host.Outcome.next (portEnableBody_bad hf))⟩
    · have hrow : exec (.portDisable d) s = .next (portDisableBody d s0) := congrArg Host.Outcome.next (ringCommand_accepts hacc _)
      have hgood := portDisable_admitted h8 hpath hport hmask hsubs
      exact ⟨fun hbusy => hrow.trans (congrArg Host.Outcome.next (portDisableBody_drains hgood hbusy)),
        fun hbusy => hrow.trans (congrArg Host.Outcome.next (portDisableBody_idle hgood hbusy))⟩
    · have hrow : exec (.portDisable d) s = .next (portDisableBody d s0) := congrArg Host.Outcome.next (ringCommand_accepts hacc _)
      exact hrow.trans (congrArg Host.Outcome.next (portDisableBody_bad hbad))

end Sys2Proof.Machine
end

section
namespace Sys2Proof.Machine

/-! TWIN_CONFIG, LEASE_STATUS and planned handover (R439, R442, R445, R458, R489, R507). -/

/-! What the operations of the twin leave of its parameters, of the key store and of the rotations. -/

section
variable {s : State}

theorem State.foldl_twin {α : Type} {f : State → α → State} (l : List α) (s : State) (h : ∀ u a, (f u a).twin = u.twin) :
    (l.foldl f s).twin = s.twin :=
  List.foldlRecOn (motive := fun t : State => t.twin = s.twin) l f rfl fun u hu a _ => (h u a).trans hu

theorem State.foldl_axis {α : Type} {f : State → α → State} (l : List α) (s : State) (h : ∀ u a, (f u a).axis = u.axis) :
    (l.foldl f s).axis = s.axis :=
  List.foldlRecOn (motive := fun t : State => t.axis = s.axis) l f rfl fun u hu a _ => (h u a).trans hu

theorem State.foldl_assoc {α : Type} {f : State → α → State} (l : List α) (s : State) (h : ∀ u a, (f u a).assoc = u.assoc) :
    (l.foldl f s).assoc = s.assoc :=
  List.foldlRecOn (motive := fun t : State => t.assoc = s.assoc) l f rfl fun u hu a _ => (h u a).trans hu

theorem State.startLane_twin (s : State) (k : Nat) : (s.startLane k).twin = s.twin := by
  unfold State.startLane
  simp only [apply_ite State.twin, State.setLane_twin, ite_self]

theorem State.startLane_axis (s : State) (k : Nat) : (s.startLane k).axis = s.axis := by
  unfold State.startLane
  simp only [apply_ite State.axis, State.setLane_axis, ite_self]

theorem State.stopLane_twin (s : State) (k : Nat) (p : BitVec 2) : (s.stopLane k p).twin = s.twin := s.setLane_twin ..

theorem State.stopLane_axis (s : State) (k : Nat) (p : BitVec 2) : (s.stopLane k p).axis = s.axis := s.setLane_axis ..

theorem State.stopLane_assoc (s : State) (k : Nat) (p : BitVec 2) : (s.stopLane k p).assoc = s.assoc := s.setLane_assoc ..

theorem State.startChord_twin (s : State) : s.startChord.twin = s.twin :=
  (State.foldl_twin _ _ fun u _ => u.stopLane_twin _ _).trans (State.foldl_twin _ _ fun u _ => u.startLane_twin _)

theorem State.startChord_axis (s : State) : s.startChord.axis = s.axis :=
  (State.foldl_axis _ _ fun u _ => u.stopLane_axis _ _).trans (State.foldl_axis _ _ fun u _ => u.startLane_axis _)

theorem State.stopChord_twin (s : State) : s.stopChord.twin = s.twin := State.foldl_twin _ _ fun u _ => u.stopLane_twin _ _
theorem State.stopChord_axis (s : State) : s.stopChord.axis = s.axis := State.foldl_axis _ _ fun u _ => u.stopLane_axis _ _
theorem State.stopChord_assoc (s : State) : s.stopChord.assoc = s.assoc := State.foldl_assoc _ _ fun u _ => u.stopLane_assoc _ _

theorem State.raise_axis' (s : State) (ev : Nat) (data : List Byte) : (s.raise ev data).axis = s.axis := by rw [(s.raise_raises ev data).frame']
theorem State.raise_assoc' (s : State) (ev : Nat) (data : List Byte) : (s.raise ev data).assoc = s.assoc := (s.raise_posts ev data).assoc

theorem State.retime_twin (s : State) (b : Bool) : (s.retime b).twin = { s.twin with effUs := (s.retime b).twin.effUs } := by
  unfold State.retime
  dsimp only
  split
  · rfl
  · rw [State.raise_twin]
    rfl

theorem State.retime_axis (s : State) (b : Bool) : (s.retime b).axis = s.axis := by
  unfold State.retime
  dsimp only
  split
  · rfl
  · rw [State.raise_axis']
    rfl

theorem State.retime_rots (s : State) (b : Bool) : (s.retime b).assoc.rots = s.assoc.rots := by
  unfold State.retime
  dsimp only
  split
  · rfl
  · rw [State.raise_assoc']
    rfl

theorem State.syncRestore_axis (s : State) : s.syncRestore.axis = s.axis := by
  unfold State.syncRestore
  split
  · split <;> rfl
  · rfl

theorem State.syncRestore_assoc (s : State) : s.syncRestore.assoc = s.assoc := by
  unfold State.syncRestore
  split
  · split <;> rfl
  · rfl

theorem State.setLease_axis (s : State) (l : Lease) : (s.setLease l).axis = s.axis := by
  unfold State.setLease
  split
  · rfl
  · dsimp only
    rw [State.syncRestore_axis, State.raise_axis']
    rfl

theorem State.setLease_assoc (s : State) (l : Lease) : (s.setLease l).assoc = s.assoc := by
  unfold State.setLease
  split
  · rfl
  · dsimp only
    rw [State.syncRestore_assoc, State.raise_assoc']
    rfl

theorem State.setChordSet_twin (s : State) (l : List Nat) : (s.setChordSet l).twin = { s.twin with
    width := (s.setChordSet l).twin.width, lanesUp := (s.setChordSet l).twin.lanesUp, effUs := (s.setChordSet l).twin.effUs } := by
  unfold State.setChordSet
  dsimp only
  generalize (if l.isEmpty = true then 0 else if s.twin.lowRate = true then 15 else l.length) = w
  split
  · rfl
  · rw [State.retime_twin]
    rfl

theorem State.setChordSet_axis (s : State) (l : List Nat) : (s.setChordSet l).axis = s.axis := by
  unfold State.setChordSet
  dsimp only
  generalize (if l.isEmpty = true then 0 else if s.twin.lowRate = true then 15 else l.length) = w
  split
  · rfl
  · rw [State.retime_axis]
    rfl

theorem State.setChordSet_rots (s : State) (l : List Nat) : (s.setChordSet l).assoc.rots = s.assoc.rots := by
  unfold State.setChordSet
  dsimp only
  generalize (if l.isEmpty = true then 0 else if s.twin.lowRate = true then 15 else l.length) = w
  split
  · rfl
  · rw [State.retime_rots]
    rfl

end

/-! The end of the Chord link (R445). -/

section
variable {s : State}

/-- From s to t the unit's lease, its bar, its request for the lease, its keys and its rotations stay. -/
structure KeepsRemoved (s t : State) : Prop where
  lease : t.twin.lease = s.twin.lease
  barred : t.twin.barred = s.twin.barred
  asked : t.twin.asked = s.twin.asked
  axis : t.axis = s.axis
  rots : t.assoc.rots = s.assoc.rots

theorem KeepsRemoved.refl (s : State) : KeepsRemoved s s := ⟨rfl, rfl, rfl, rfl, rfl⟩

theorem KeepsRemoved.trans {s t u : State} (h : KeepsRemoved s t) (h' : KeepsRemoved t u) : KeepsRemoved s u :=
  ⟨h'.lease.trans h.lease, h'.barred.trans h.barred, h'.asked.trans h.asked, h'.axis.trans h.axis, h'.rots.trans h.rots⟩

theorem Posts.keepsRemoved {s t : State} (h : Posts s t) : KeepsRemoved s t := by
  rw [h]
  exact ⟨rfl, rfl, rfl, rfl, rfl⟩

theorem State.retime_keepsRemoved (s : State) (b : Bool) : KeepsRemoved s (s.retime b) :=
  ⟨by rw [State.retime_twin], by rw [State.retime_twin], by rw [State.retime_twin], s.retime_axis b, s.retime_rots b⟩

theorem State.setChordSet_keepsRemoved (s : State) (l : List Nat) : KeepsRemoved s (s.setChordSet l) :=
  ⟨by rw [State.setChordSet_twin], by rw [State.setChordSet_twin], by rw [State.setChordSet_twin], s.setChordSet_axis l, s.setChordSet_rots l⟩

theorem State.syncRestore_keepsRemoved (s : State) : KeepsRemoved s s.syncRestore :=
  ⟨by rw [State.syncRestore_twin], by rw [State.syncRestore_twin], by rw [State.syncRestore_twin], s.syncRestore_axis, by rw [State.syncRestore_assoc]⟩

theorem State.chordEnd_keepsRemoved (s : State) : KeepsRemoved s s.chordEnd :=
  KeepsRemoved.trans (t := s.withTwin { s.twin with
    chord := { s.twin.chord with ver := 0 }, key := 0, txCount := 0, rxCount := 0, badRun := 0, ackedInSession := false
    openCopies := [], rxCopy := none }) ⟨rfl, rfl, rfl, rfl, rfl⟩ (State.syncRestore_keepsRemoved _)

/-- A change of the twin that leaves its lease, its bar and its request. -/
theorem State.withTwin_keepsRemoved (s : State) {t : TwinState} (hl : t.lease = s.twin.lease) (hb : t.barred = s.twin.barred)
    (ha : t.asked = s.twin.asked) : KeepsRemoved s (s.withTwin t) := ⟨hl, hb, ha, rfl, rfl⟩

theorem State.chordDown_keepsRemoved (s : State) (c : Nat) : KeepsRemoved s (s.chordDown c) := by
  unfold State.chordDown
  have hdown := ((s.withTwin_keepsRemoved (t := { s.twin with linkUp := false }) rfl rfl rfl).trans (State.chordEnd_keepsRemoved _)).trans
    (State.setChordSet_keepsRemoved _ [])
  dsimp only
  split
  · exact hdown.trans (State.raise_posts _ _ _).keepsRemoved
  · exact hdown

theorem State.stopChord_keepsRemoved (s : State) : KeepsRemoved s s.stopChord :=
  ⟨by rw [State.stopChord_twin], by rw [State.stopChord_twin], by rw [State.stopChord_twin], s.stopChord_axis, by rw [State.stopChord_assoc]⟩

end

/-! TWIN_CONFIG. -/

section
variable {d : Desc} {s : State}

theorem twinConfigureBody_bad (h : twinRangesOk d = false) : twinConfigureBody d s = s.done d .badRequest :=
  if_pos (.inr (Bool.eq_false_iff.mp h))

theorem twinSoloBody_bad (h : twinRangesOk d = false) : twinSoloBody d s = s.done d .badRequest := if_pos (.inr (Bool.eq_false_iff.mp h))

theorem twinRemoveBody_bad (h : twinRangesOk d = false) : twinRemoveBody d s = s.done d .badRequest := if_pos (.inr (Bool.eq_false_iff.mp h))

/-- A TWIN_CONFIG of the form op whose ranges are right passes its first check. -/
theorem twinConfig_admitted {op : Nat} (hop : d.get 8 1 = op) (hr : twinRangesOk d = true) : ¬ (d.get 8 1 ≠ op ∨ ¬ twinRangesOk d = true) := by
  rintro (h | h)
  · exact h hop
  · exact h hr

/-- The part with the parameters of a CONFIGURE and its arbiter key. -/
def State.configured (s : State) (d : Desc) : State := ({ s with twin := { s.twin.withParams d with barred := true } }).deriveArbKey

/-- The part with the first CONFIGURE: STANDBY, and both sessions begin (R442, R444). -/
def State.firstConfigured (s : State) (d : Desc) : State :=
  let u := ((s.configured d).setLease .standby).beginSession .arbiter
  ({ u with twin := { u.twin with requestDue := u.clk } }).startChord

theorem twinConfigureBody_inUse (hop : d.get 8 1 = 0) (hr : twinRangesOk d = true) (h : s.twin.lease = .solo ∨
    ((s.twin.lease = .active ∨ s.twin.lease = .handover) ∧ (s.twin.withParams d).fixedParams ≠ s.twin.fixedParams)) :
    twinConfigureBody d s = s.done d .inUse := by
  refine (if_neg (twinConfig_admitted hop hr)).trans ?_
  rcases h with hsolo | hfixed
  · exact if_pos hsolo
  · refine (if_neg fun hsolo => ?_).trans (if_pos hfixed)
    rw [hsolo] at hfixed
    exact hfixed.1.elim (fun h => Lease.noConfusion h) fun h => Lease.noConfusion h

section
variable (hop : d.get 8 1 = 0) (hr : twinRangesOk d = true)
include hop hr

theorem twinConfigureBody_again (hsolo : s.twin.lease ≠ .solo) (hfirst : s.twin.lease ≠ .unconfigured)
    (hfixed : s.twin.lease = .active ∨ s.twin.lease = .handover → (s.twin.withParams d).fixedParams = s.twin.fixedParams) :
    twinConfigureBody d s = ((s.configured d).retime false).syncRestore.done d .ok := by
  refine (if_neg (twinConfig_admitted hop hr)).trans ((if_neg hsolo).trans ((if_neg fun h => h.2 (hfixed h.1)).trans ?_))
  dsimp only
  rw [if_neg hfirst, if_neg hfirst]
  rfl

theorem twinConfigureBody_first (h : s.twin.lease = .unconfigured) :
    twinConfigureBody d s = ((s.firstConfigured d).retime false).syncRestore.done d .ok := by
  have hsolo : s.twin.lease ≠ .solo := by rw [h]; decide
  have hheld : ¬ ((s.twin.lease = .active ∨ s.twin.lease = .handover) ∧ (s.twin.withParams d).fixedParams ≠ s.twin.fixedParams) := by
    rw [h]
    rintro ⟨h | h, _⟩ <;> cases h
  refine (if_neg (twinConfig_admitted hop hr)).trans ((if_neg hsolo).trans ((if_neg hheld).trans ?_))
  dsimp only
  rw [if_pos h, if_pos h]
  rfl

end

theorem State.beginSession_twin (s : State) : (s.beginSession .arbiter).twin = { s.twin with arb := (s.beginSession .arbiter).twin.arb } := rfl

theorem State.beginSession_slots (s : State) (p : OctegPath) : (s.beginSession p).axis.slots = s.axis.slots := by cases p <;> rfl

theorem State.firstConfigured_twin (s : State) (d : Desc) :
    let t := (s.firstConfigured d).twin
    t.lease = .standby ∧ t.barred = true ∧ t.pairId = (s.twin.withParams d).pairId ∧ t.leaseMs = (s.twin.withParams d).leaseMs ∧
      t.cycleUs = (s.twin.withParams d).cycleUs := by
  unfold State.firstConfigured
  dsimp only
  rw [State.startChord_twin, State.beginSession_twin, State.setLease_twin]
  exact ⟨rfl, rfl, rfl, rfl, rfl⟩

theorem State.firstConfigured_slots (s : State) (d : Desc) : (s.firstConfigured d).axis.slots = s.axis.slots := by
  unfold State.firstConfigured
  dsimp only
  rw [State.startChord_axis, State.beginSession_slots, State.setLease_axis]
  rfl

/-- What the first CONFIGURE leaves: a STANDBY with its parameters, and every key. -/
theorem State.firstConfigured_leaves (s : State) (d : Desc) :
    let w := ((s.firstConfigured d).retime false).syncRestore
    w.twin.lease = .standby ∧ w.twin.barred = true ∧ w.twin.pairId = BitVec.ofNat 16 (d.get 0xC 2) ∧
      w.twin.leaseMs = (if d.get 0x18 2 = 0 then 20 else d.get 0x18 2) ∧ w.twin.cycleUs = (if d.get 0x1C 4 = 0 then 250 else d.get 0x1C 4) ∧
      w.axis.slots = s.axis.slots := by
  obtain ⟨hlease, hbarred, hpair, hms, hcycle⟩ := s.firstConfigured_twin d
  dsimp only
  rw [State.syncRestore_axis, State.retime_axis, State.firstConfigured_slots, State.syncRestore_twin, State.retime_twin]
  exact ⟨hlease, hbarred, hpair, hms, hcycle, rfl⟩

/-! SOLO and REMOVE. -/

theorem twinSoloBody_takes (hop : d.get 8 1 = 1) (hr : twinRangesOk d = true) (h : s.twin.lease = .unconfigured) (hbar : s.twin.barred = false) :
    twinSoloBody d s = ((({ s with twin := s.twin.withParams d }).setLease .solo).retime false).done d .ok :=
  (if_neg (twinConfig_admitted hop hr)).trans (if_neg fun hno => hno.elim (fun hno => hno h) (Bool.eq_false_iff.mp hbar))

theorem twinSoloBody_inUse (hop : d.get 8 1 = 1) (hr : twinRangesOk d = true) (h : s.twin.lease ≠ .unconfigured ∨ s.twin.barred = true) :
    twinSoloBody d s = s.done d .inUse :=
  (if_neg (twinConfig_admitted hop hr)).trans (if_pos h)

/-- The unit barred and UNCONFIGURED, its waiting handovers answered. -/
def State.unconfigured (s : State) : State :=
  let u := ({ s with twin := { s.twin with barred := true } }).setLease .unconfigured
  u.twin.asking.foldl (fun s d => s.done d .noTwin) u

/-- A unit without a request for the lease and without a session of the arbiter. -/
def State.askless (u : State) : State := { u with twin := { u.twin with arb := Session.reset, requests := [], asked := false, asking := [] } }

/-- A unit whose Chord link is down and whose lanes are OFF. -/
def State.chordless (u : State) : State :=
  (if u.twin.width = 0 ∧ !u.twin.linkUp then u else u.chordDown 1).stopChord.dropShadows.retime false

/-- The part after a REMOVE (R442). -/
def State.removed (s : State) : State := s.unconfigured.askless.chordless

theorem State.dropShadows_keepsRemoved (s : State) : KeepsRemoved s s.dropShadows := ⟨rfl, rfl, rfl, rfl, rfl⟩

theorem State.chordless_keepsRemoved (u : State) : KeepsRemoved u u.chordless := by
  unfold State.chordless
  refine KeepsRemoved.trans ?_ (State.retime_keepsRemoved _ _)
  refine KeepsRemoved.trans (KeepsRemoved.trans ?_ (State.stopChord_keepsRemoved _)) (State.dropShadows_keepsRemoved _)
  split
  · exact KeepsRemoved.refl u
  · exact u.chordDown_keepsRemoved 1

theorem twinRemoveBody_takes (hop : d.get 8 1 = 3) (hr : twinRangesOk d = true)
    (h : ¬ (s.twin.lease = .solo ∨ s.twin.lease = .active ∨ s.twin.lease = .handover)) : twinRemoveBody d s = s.removed.done d .ok := by
  unfold twinRemoveBody
  rw [if_neg (twinConfig_admitted hop hr), if_neg h]
  unfold State.removed State.chordless State.askless State.unconfigured State.withTwin
  dsimp only

theorem twinRemoveBody_inUse (hop : d.get 8 1 = 3) (hr : twinRangesOk d = true)
    (h : s.twin.lease = .solo ∨ s.twin.lease = .active ∨ s.twin.lease = .handover) : twinRemoveBody d s = s.done d .inUse :=
  (if_neg (twinConfig_admitted hop hr)).trans (if_pos h)

theorem State.unconfigured_leaves (s : State) : s.unconfigured.twin.lease = .unconfigured ∧ s.unconfigured.twin.barred = true ∧
    s.unconfigured.axis = s.axis ∧ s.unconfigured.assoc.rots = s.assoc.rots := by
  unfold State.unconfigured
  dsimp only
  obtain ⟨hlease, hbarred, -, haxis, hrots⟩ := (Posts.foldl (f := fun s d => s.done d .noTwin)
    (({ s with twin := { s.twin with barred := true } } : State).setLease .unconfigured).twin.asking (Posts.refl _)
    fun u d => u.done_posts d .noTwin).keepsRemoved
  refine ⟨hlease.trans ?_, hbarred.trans ?_, haxis.trans (State.setLease_axis _ _), hrots.trans ?_⟩
  · rw [State.setLease_twin]
  · rw [State.setLease_twin]
  · rw [State.setLease_assoc]

theorem State.removed_leaves (s : State) : s.removed.twin.lease = .unconfigured ∧ s.removed.twin.barred = true ∧ s.removed.twin.asked = false ∧
    s.removed.axis = s.axis ∧ s.removed.assoc.rots = s.assoc.rots := by
  obtain ⟨hlease, hbarred, haxis, hrots⟩ := s.unconfigured_leaves
  have hkeep := s.unconfigured.askless.chordless_keepsRemoved
  exact ⟨hkeep.lease.trans hlease, hkeep.barred.trans hbarred, hkeep.asked, hkeep.axis.trans haxis, hkeep.rots.trans hrots⟩

end

/-! Handover (R458). -/

section
variable {d : Desc} {s : State}

theorem twinHandoverBody_active (h : s.twin.lease = .active) (hup : s.twin.linkUp = true) : twinHandoverBody d s =
    if s.standbyCurrent then s.startHandover (some d) (s.timeoutOf d 10000000) else s.done d .notCurrent := by
  unfold twinHandoverBody
  rw [h]
  dsimp only
  rw [if_neg (not_not_intro hup)]
  cases s.standbyCurrent <;> rfl

theorem twinHandoverBody_noTwin (h : s.twin.lease = .solo ∨ s.twin.lease = .unconfigured ∨ s.twin.lease = .handover ∨
    ((s.twin.lease = .active ∨ s.twin.lease = .standby) ∧ s.twin.linkUp = false)) : twinHandoverBody d s = s.done d .noTwin := by
  unfold twinHandoverBody
  rcases h with h | h | h | ⟨h | h, hdown⟩
  · rw [h]
  · rw [h]
  · rw [h]
  · rw [h]
    exact if_pos (Bool.eq_false_iff.mp hdown)
  · rw [h]
    exact if_pos (Bool.eq_false_iff.mp hdown)

theorem twinHandoverBody_lapsed (h : s.twin.lease = .lapsed) : twinHandoverBody d s = s.done d .leaseLost := by
  unfold twinHandoverBody
  rw [h]

/-- A standby asks for the handover and holds its command. -/
theorem twinHandoverBody_standby (h : s.twin.lease = .standby) (hup : s.twin.linkUp = true) : twinHandoverBody d s =
    { s.chordSend 0x14 [] with twin := { (s.chordSend 0x14 []).twin with asked := true, asking := s.twin.asking ++ [d] } } := by
  unfold twinHandoverBody
  rw [h]
  exact if_neg (not_not_intro hup)

theorem State.chordSend_eq (s : State) (ty : Nat) (body : List Byte) : s.chordSend ty body =
    { s with twin := { s.twin with txCount := s.twin.txCount + 1, lastTx := s.clk }, out := (s.chordSend ty body).out } := rfl

theorem execHandoverRequestReceive_eq (msg : List Byte) (s : State) : execHandoverRequestReceive msg s =
    .next (if (s.chordOpen 0x14 msg).1.isSome ∧ (s.chordOpen 0x14 msg).2.twin.lease = .active ∧ (s.chordOpen 0x14 msg).2.standbyCurrent = true
      then (s.chordOpen 0x14 msg).2.startHandover none 10000000 else (s.chordOpen 0x14 msg).2) := by
  unfold execHandoverRequestReceive
  obtain ⟨b, u⟩ := s.chordOpen 0x14 msg
  cases b with
  | none => exact congrArg Host.Outcome.next (if_neg fun h => Bool.noConfusion h.1).symm
  | some b =>
    dsimp only [Option.isSome]
    split
    · next h => rw [if_pos ⟨rfl, h⟩]
    · next h => rw [if_neg fun hall => h hall.2]

theorem exec_handoverTimeout_some {c : Option Desc} {t0 n : Nat} (h : s.twin.handover = some (c, t0, n)) : exec .handoverTimeout s =
    if s.twin.lease = .handover then .next (((s.passTo t0).setLease .active).handoverDone .timeout) else .next s := by
  show execHandoverTimeout s = _
  rw [execHandoverTimeout, h]

theorem exec_handoverTimeout_none (h : s.twin.handover = none) : exec .handoverTimeout s = .next s := by
  show execHandoverTimeout s = _
  rw [execHandoverTimeout, h]

theorem State.handoverDone_some {c : Desc} {t0 n : Nat} (st : Status) (h : s.twin.handover = some (some c, t0, n)) :
    s.handoverDone st = ({ s with twin := { s.twin with handover := none } }).done c st := by
  unfold State.handoverDone
  rw [h]
  rfl

end

/-- Settles O22: TWIN_CONFIG by the operation it names, and the handover from either side. -/
theorem twinCommandsAndHandover : Obligations.TwinCommandsAndHandover := by
  unfold Obligations.TwinCommandsAndHandover
  refine ⟨fun d s s0 => ⟨fun hacc => ?_, fun hacc hop => ?_, fun hacc => ?_⟩, fun d s s0 => ⟨fun hacc => ?_, fun u c t0 => rfl, fun msg => ?_,
    fun c t0 n h => ?_, exec_handoverTimeout_none, fun c t0 n st => State.handoverDone_some st⟩⟩
  · have hconf : exec (.twinConfigure d) s = .next (twinConfigureBody d s0) := congrArg Host.Outcome.next (ringCommand_accepts hacc _)
    have hsolo : exec (.twinSolo d) s = .next (twinSoloBody d s0) := congrArg Host.Outcome.next (ringCommand_accepts hacc _)
    have hrem : exec (.twinRemove d) s = .next (twinRemoveBody d s0) := congrArg Host.Outcome.next (ringCommand_accepts hacc _)
    rw [hconf, hsolo, hrem]
    refine ⟨fun hr => ?_, fun hop hr => ⟨fun h => ?_, fun h => ?_, fun h => ?_⟩, fun hop hr => ⟨fun h hbar => ?_, fun h => ?_⟩,
      fun hop hr => ⟨fun h => ?_, fun h => ?_⟩⟩
    · rw [twinConfigureBody_bad hr, twinSoloBody_bad hr, twinRemoveBody_bad hr]
      exact ⟨rfl, rfl, rfl⟩
    · refine congrArg Host.Outcome.next (twinConfigureBody_again hop hr ?_ ?_ ?_)
      · rintro hl
        simp [hl] at h
      · rintro hl
        simp [hl] at h
      · rintro hl
        rcases h with h | h | h
        · rw [h] at hl
          exact absurd hl (by decide)
        · rw [h] at hl
          exact absurd hl (by decide)
        · exact h.2
    · exact ⟨_, congrArg Host.Outcome.next (twinConfigureBody_first hop hr h), s0.firstConfigured_leaves d⟩
    · exact congrArg Host.Outcome.next (twinConfigureBody_inUse hop hr (h.imp id fun h => ⟨of_decide_eq_true h.1, h.2⟩))
    · exact congrArg Host.Outcome.next (twinSoloBody_takes hop hr h hbar)
    · exact congrArg Host.Outcome.next (twinSoloBody_inUse hop hr h)
    · refine ⟨_, congrArg Host.Outcome.next (twinRemoveBody_takes hop hr ?_), s0.removed_leaves⟩
      rcases h with h | h | h <;> rw [h] <;> decide
    · refine congrArg Host.Outcome.next (twinRemoveBody_inUse hop hr ?_)
      exact h.elim (fun h => .inr (of_decide_eq_true h)) .inl
  · have hrow : exec (.twinWiden d) s = _ := congrArg Host.Outcome.next (ringCommand_accepts hacc _)
    rw [hrow, if_neg (not_not_intro hop)]
  · exact congrArg Host.Outcome.next (ringCommand_accepts hacc _)
  · have hrow : exec (.twinHandover d) s = .next (twinHandoverBody d s0) := congrArg Host.Outcome.next (ringCommand_accepts hacc _)
    rw [hrow]
    refine ⟨fun h hup => ?_, fun h => ?_, fun h => ?_, fun h hup => ?_⟩
    · rw [twinHandoverBody_active h hup]
      exact ⟨fun hc => by rw [if_pos hc], fun hc => by rw [if_neg (Bool.eq_false_iff.mp hc)]⟩
    · rw [twinHandoverBody_noTwin h]
    · rw [twinHandoverBody_lapsed h]
    · refine ⟨_, congrArg Host.Outcome.next (twinHandoverBody_standby h hup), rfl, rfl, ?_, ?_⟩
      · rw [State.chordSend_eq]
      · rw [State.chordSend_eq]
  · have hrow : exec (.handoverRequestReceive msg) s = _ := execHandoverRequestReceive_eq msg s
    dsimp only
    rw [hrow]
    refine ⟨fun hb hl hc => ?_, fun hno => ?_⟩
    · rw [if_pos ⟨Option.isSome_iff_ne_none.mpr hb, hl, hc⟩]
    · rw [if_neg]
      rintro ⟨hb, hl, hc⟩
      rcases hno with hno | hno | hno
      · rw [hno] at hb
        exact Bool.noConfusion hb
      · exact hno hl
      · rw [hno] at hc
        exact Bool.noConfusion hc
  · rw [exec_handoverTimeout_some h]
    exact ⟨fun hl => if_pos hl, fun hl => if_neg hl⟩

end Sys2Proof.Machine
end

section
namespace Sys2Proof.Machine

/-! The Chord link, its sessions and state copies (R110, R444, R445, R447, R448, R454, R458, R481, R482). -/

/-! The link. -/

section
variable {s : State}

theorem exec_chordLinkUp_joins (hrun : s.halted = false) (hw : s.twin.width = 0) (hclk : s.laneLocked 136 = true)
    (hset : (s.chordSet fun k => s.laneLocked (128 + k)) ≠ []) (hun : s.twin.lease ≠ .unconfigured) (hsolo : s.twin.lease ≠ .solo) :
    exec .chordLinkUp s = .next (s.joinLanes.beginSession .chord) := by
  show execChordLinkUp s = _
  refine (if_neg (Bool.eq_false_iff.mp hrun)).trans (if_neg ?_)
  rintro (h | h | h | h | h)
  · exact h hw
  · exact h hclk
  · exact hset (List.isEmpty_iff.mp h)
  · exact hun h
  · exact hsolo h

theorem exec_chordLinkUp_rests (h : s.twin.width ≠ 0 ∨ s.laneLocked 136 = false ∨ (s.chordSet fun k => s.laneLocked (128 + k)) = [] ∨
    s.twin.lease = .unconfigured ∨ s.twin.lease = .solo) : exec .chordLinkUp s = .next s := by
  show execChordLinkUp s = _
  unfold execChordLinkUp
  split
  · rfl
  · exact if_pos (h.imp id (Or.imp Bool.eq_false_iff.mp (Or.imp List.isEmpty_iff.mpr id)))

/-- The link goes down by a lost clock lane, by silence and by failed tags, while it is there. -/
theorem exec_chordLinkDown_there (h : s.twin.width ≠ 0 ∨ s.twin.linkUp = true) :
    exec (.chordLinkDown .clockLane) s = (if s.laneLocked 136 then .next s else .next (s.chordDown 1)) ∧
    exec (.chordLinkDown .silence) s = (if !s.twin.linkUp then .next s else .next ((s.passTo (s.twin.lastRx + 100000)).chordDown 2)) ∧
    exec (.chordLinkDown .tagFailures) s = (if s.twin.badRun < 8 then .next s else .next (s.chordDown 3)) := by
  have hthere : ¬ (s.twin.width = 0 ∧ (!s.twin.linkUp) = true) := by
    rintro ⟨hw, hdown⟩
    rcases h with h | h
    · exact h hw
    · rw [h] at hdown
      exact Bool.noConfusion hdown
  exact ⟨if_neg hthere, if_neg hthere, if_neg hthere⟩

theorem exec_chordLinkDown_absent (hw : s.twin.width = 0) (hup : s.twin.linkUp = false) (c : LinkDownCause) :
    exec (.chordLinkDown c) s = .next s := by
  show execChordLinkDown c s = _
  exact if_pos ⟨hw, by rw [hup]; rfl⟩

end

/-! Sessions. -/

section
variable {s : State} {p : OctegPath} {msg : List Byte}

/-- The part after its HELLO on a path (R481). -/
def State.helloSent (u : State) (p : OctegPath) : State :=
  (u.setSession p { u.session p with helloDue := u.clk + helloPeriod p }).octegOut p (u.hello p)

theorem exec_helloSend_sends (h : s.hellos p = true) : exec (.helloSend p) s = .next ((s.passTo (s.session p).helloDue).helloSent p) := by
  show execHelloSend p s = _
  refine (if_pos h).trans ?_
  generalize s.passTo (s.session p).helloDue = u
  rfl

theorem exec_helloSend_silent (h : s.hellos p = false) : exec (.helloSend p) s = .next s := if_neg (Bool.eq_false_iff.mp h)

theorem exec_helloReceive_takes (hrun : s.halted = false) (hun : s.twin.lease ≠ .unconfigured) (hsolo : s.twin.lease ≠ .solo)
    (hpath : p = .arbiter ∨ s.twin.width ≠ 0) : exec (.helloReceive p msg) s = .next (s.helloIn p msg) := by
  show execHelloReceive p msg s = _
  refine if_neg ?_
  rintro (h | h | h | h)
  · exact Bool.eq_false_iff.mp hrun h
  · cases p with
    | arbiter => exact h rfl
    | chord =>
      have hw := hpath.resolve_left (by decide)
      exact h (by simpa using hw)
  · exact hun h
  · exact hsolo h

theorem exec_helloReceive_ignores (h : s.halted = true ∨ s.twin.lease = .unconfigured ∨ s.twin.lease = .solo ∨
    (p = .chord ∧ s.twin.width = 0)) : exec (.helloReceive p msg) s = .next s := by
  show execHelloReceive p msg s = _
  refine if_pos ?_
  rcases h with h | h | h | ⟨rfl, hw⟩
  · exact .inl h
  · exact .inr (.inr (.inl h))
  · exact .inr (.inr (.inr h))
  · exact .inr (.inl (by simp [hw]))

/-- A HELLO has 56 bytes and no common version is refused; one that starts no new attempt notes the sender's nonce. -/
theorem State.helloIn_length (h : msg.length ≠ 56) : s.helloIn p msg = s := if_pos (.inl h)

section
variable (hlen : msg.length = 56) (hty : leAt msg 1 1 = 1) (hver : leAt msg 0 1 = 1)
include hlen hty hver

theorem State.hello_wellFormed : ¬ (msg.length ≠ 56 ∨ leAt msg 1 1 ≠ 1 ∨ leAt msg 0 1 ≠ 1) := by
  rintro (h | h | h)
  · exact h hlen
  · exact h hty
  · exact h hver

theorem State.helloIn_rejects (hv : commonVersion (leAt msg 8 1) = 0) :
    s.helloIn .chord msg = (s.octegOut .chord (octegHeader 1 2 9 ++ [BitVec.ofNat 8 versionsA1])).raise 0x301 [4] ∧
    s.helloIn .arbiter msg = ({ s.octegOut .arbiter (octegHeader 1 2 9 ++ [BitVec.ofNat 8 versionsA1]) with
      twin := { (s.octegOut .arbiter (octegHeader 1 2 9 ++ [BitVec.ofNat 8 versionsA1])).twin with arbRefused := true } }).raise 0x309 [] :=
  ⟨(if_neg (State.hello_wellFormed hlen hty hver)).trans (if_pos hv), (if_neg (State.hello_wellFormed hlen hty hver)).trans (if_pos hv)⟩

/-- The arbiter session of the unit comes up where the HELLO echoes its nonce. -/
theorem State.helloIn_arbiter (hv : commonVersion (leAt msg 8 1) ≠ 0) (hdown : s.twin.arb.ver = 0) : s.helloIn .arbiter msg =
    if BitVec.ofNat 128 (beAt msg 32 16) ≠ s.twin.arb.own then
      { s with twin := { s.twin with arb := { s.twin.arb with peer := BitVec.ofNat 128 (beAt msg 16 16) } } }
    else { s with twin := { s.twin with
      arb := { s.twin.arb with peer := BitVec.ofNat 128 (beAt msg 16 16), ver := commonVersion (leAt msg 8 1) }, arbRefused := false } } := by
  refine (if_neg (State.hello_wellFormed hlen hty hver)).trans ((if_neg hv).trans ?_)
  have hsame : ¬ ((s.session .arbiter).ver ≠ 0 ∧ BitVec.ofNat 128 (beAt msg 16 16) ≠ (s.session .arbiter).peer) := fun h => h.1 hdown
  rw [if_neg hsame]
  refine if_congr ⟨fun h => h.resolve_left (not_not_intro hdown), .inr⟩ rfl rfl

/-- The Chord session comes up where the HELLO echoes the unit's nonce and the domain slot derives (R444). -/
theorem State.helloIn_chord (hv : commonVersion (leAt msg 8 1) ≠ 0) (hdown : s.twin.chord.ver = 0)
    (hown : BitVec.ofNat 128 (beAt msg 32 16) = s.twin.chord.own) {key : BitVec 256}
    (hkey : ({ s with twin := { s.twin with chord := { s.twin.chord with peer := BitVec.ofNat 128 (beAt msg 16 16) } } } : State).chordKey = some key) :
    s.helloIn .chord msg =
      ({ s with twin := { s.twin with chord := { s.twin.chord with peer := BitVec.ofNat 128 (beAt msg 16 16) } } } : State).chordUp
        (commonVersion (leAt msg 8 1)) key := by
  refine (if_neg (State.hello_wellFormed hlen hty hver)).trans ((if_neg hv).trans ?_)
  have hsame : ¬ ((s.session .chord).ver ≠ 0 ∧ BitVec.ofNat 128 (beAt msg 16 16) ≠ (s.session .chord).peer) := fun h => h.1 hdown
  rw [if_neg hsame]
  refine (if_neg fun h => h.elim (not_not_intro hdown) (not_not_intro hown)).trans ?_
  generalize hu : ({ s with twin := { s.twin with chord := { s.twin.chord with peer := BitVec.ofNat 128 (beAt msg 16 16) } } } : State) = u at hkey
  have hset : s.setSession .chord { s.session .chord with peer := BitVec.ofNat 128 (beAt msg 16 16) } = u := hu
  rw [hset]
  dsimp only
  rw [hkey]

end
end

/-! Protected messages (R444, R445). -/

section
variable {s : State} {ty : Nat} {msg : List Byte}

theorem exec_chordHeartbeatSend_sends (hrun : s.halted = false) (hver : s.twin.chord.ver ≠ 0) :
    ∃ body, exec .chordHeartbeatSend s = .next ((s.passTo (s.twin.lastTx + 10000)).chordSend 0x03 body) ∧
      ((s.passTo (s.twin.lastTx + 10000)).twin.chord.ver < 3 → body = []) := by
  have hsend : execChordHeartbeatSend s = _ := (if_neg (Bool.eq_false_iff.mp hrun)).trans (if_neg hver)
  exact ⟨_, hsend, fun h => if_pos h⟩

theorem exec_chordHeartbeatSend_silent (hver : s.twin.chord.ver = 0) : exec .chordHeartbeatSend s = .next s := by
  show execChordHeartbeatSend s = _
  by_cases hrun : s.halted = true
  · exact if_pos hrun
  · exact (if_neg hrun).trans (if_pos hver)

/-- What a message of the right header opens to under the key of the session. -/
def State.opened (s : State) (msg : List Byte) : Option (List Byte) :=
  Crypto.gcmOpen 32 s.twin.key.toNat (chordIv (!s.twin.sideB) (s.twin.rxCount + 1)) (msg.take 8)
    (slice msg 8 (msg.length - 24)) (msg.drop (msg.length - 16))

section
variable (hrun : s.halted = false) (hver : s.twin.chord.ver ≠ 0) (hlen : 24 ≤ msg.length) (hty : leAt msg 1 1 = ty)
  (hmver : leAt msg 0 1 = s.twin.chord.ver) (hmlen : beAt msg 2 2 = msg.length)
include hrun hver hlen hty hmver hmlen

theorem State.chordOpen_wellFormed : ¬ (s.halted = true ∨ s.twin.chord.ver = 0 ∨ msg.length < 24 ∨ leAt msg 1 1 ≠ ty ∨
    leAt msg 0 1 ≠ s.twin.chord.ver ∨ beAt msg 2 2 ≠ msg.length) := by
  rintro (h | h | h | h | h | h)
  · exact Bool.eq_false_iff.mp hrun h
  · exact hver h
  · exact Nat.not_lt.mpr hlen h
  · exact h hty
  · exact h hmver
  · exact h hmlen

theorem State.chordOpen_some {body : List Byte} (h : s.opened msg = some body) : s.chordOpen ty msg =
    (some body, { s with twin := { s.twin with rxCount := s.twin.rxCount + 1, badRun := 0, lastRx := s.clk } }) := by
  refine (if_neg (State.chordOpen_wellFormed hrun hver hlen hty hmver hmlen)).trans ?_
  unfold State.opened at h
  dsimp only [State.withTwin]
  rw [h]

theorem State.chordOpen_none (h : s.opened msg = none) : s.chordOpen ty msg =
    (none, ({ s with twin := { s.twin with rxCount := s.twin.rxCount + 1, badRun := s.twin.badRun + 1 } }).count (cid 0x0E 0 0)) := by
  refine (if_neg (State.chordOpen_wellFormed hrun hver hlen hty hmver hmlen)).trans ?_
  unfold State.opened at h
  dsimp only [State.withTwin]
  rw [h]

/-- A message that fails its tag is counted and one that passes it notes the instant. -/
theorem State.chordOpen_eq : (s.chordOpen ty msg).1 = s.opened msg ∧
    (s.opened msg ≠ none → (s.chordOpen ty msg).2 =
      { s with twin := { s.twin with rxCount := s.twin.rxCount + 1, badRun := 0, lastRx := s.clk } }) ∧
    (s.opened msg = none → (s.chordOpen ty msg).2 =
      ({ s with twin := { s.twin with rxCount := s.twin.rxCount + 1, badRun := s.twin.badRun + 1 } }).count (cid 0x0E 0 0)) := by
  cases h : s.opened msg with
  | none =>
    rw [State.chordOpen_none hrun hver hlen hty hmver hmlen h]
    exact ⟨rfl, fun hno => absurd rfl hno, fun _ => rfl⟩
  | some body =>
    rw [State.chordOpen_some hrun hver hlen hty hmver hmlen h]
    exact ⟨rfl, fun _ => rfl, fun hno => absurd hno (Option.some_ne_none body)⟩

end
end

/-! Copies (R447, R448). -/

section
variable {s : State} {msg b : List Byte}

theorem State.chordOpen_pair {ty : Nat} {o : Option (List Byte)} (h : (s.chordOpen ty msg).1 = o) :
    s.chordOpen ty msg = (o, (s.chordOpen ty msg).2) := Prod.ext h rfl

theorem execHeartbeatReceive_eq (msg : List Byte) (s : State) : execHeartbeatReceive msg s =
    .next (match (s.chordOpen 0x03 msg).1 with
      | some b => { (s.chordOpen 0x03 msg).2 with twin := { (s.chordOpen 0x03 msg).2.twin with peerLease := leAt b 8 1 } }
      | none => (s.chordOpen 0x03 msg).2) := by
  unfold execHeartbeatReceive
  obtain ⟨o, u⟩ := s.chordOpen 0x03 msg
  cases o <;> rfl

theorem exec_syncCycleStart_sends (hrun : s.halted = false) (hlease : s.twin.lease = .active) (hver : s.twin.chord.ver ≠ 0) :
    exec .syncCycleStart s = .next ((s.passTo s.twin.cycleDue).sendCopy (s.passTo s.twin.cycleDue).twin.nextFull) := by
  show execSyncCycleStart s = _
  exact (if_neg (Bool.eq_false_iff.mp hrun)).trans (if_pos ⟨hlease, hver⟩)

theorem exec_syncCycleStart_silent (h : s.twin.lease ≠ .active ∨ s.twin.chord.ver = 0) : exec .syncCycleStart s = .next s := by
  show execSyncCycleStart s = _
  unfold execSyncCycleStart
  split
  · rfl
  · exact if_neg fun hsend => h.elim (fun h => h hsend.1) hsend.2

theorem State.takesCopies_of_standby (h : s.twin.lease = .standby) : s.takesCopies = true := by
  unfold State.takesCopies
  rw [h]
  rfl

/-- The records that a standby holds of the copy a message belongs to, and whether it is a full one. -/
def State.copySoFar (u : State) (b : List Byte) : Nat × Bool :=
  match u.twin.rxCopy with
  | some (q, n, f) => if q = beAt b 0 8 then (n, f) else (0, u.twin.nextFull)
  | none => (0, u.twin.nextFull)

theorem execCopyRecordsReceive_takes (hopen : (s.chordOpen 0x10 msg).1 = some b) (hlease : (s.chordOpen 0x10 msg).2.twin.lease = .standby)
    (hlen : 8 ≤ b.length) : execCopyRecordsReceive msg s =
      let u := (s.chordOpen 0x10 msg).2
      let r := State.applyRecords (b.length / 16 + 1) u (b.drop 8)
      .next (({ r.2 with twin := { r.2.twin with
        rxCopy := some (beAt b 0 8, (u.copySoFar b).1 + r.1, (u.copySoFar b).2), nextFull := false } }).retime false) := by
  unfold execCopyRecordsReceive
  rw [State.chordOpen_pair hopen]
  dsimp only
  rw [if_neg (by rw [State.takesCopies_of_standby hlease]; simp; omega)]
  rfl

theorem execCopyEndReceive_takes (hopen : (s.chordOpen 0x11 msg).1 = some b) (hlease : (s.chordOpen 0x11 msg).2.twin.lease = .standby)
    (hlen : b.length = 16) : execCopyEndReceive msg s =
      let u := (s.chordOpen 0x11 msg).2
      if (u.copySoFar b).1 = beAt b 8 4 then
        .next (({ u with twin := { u.twin with
          rxCopy := none, nextFull := false, copyAck := beAt b 0 8, ackedInSession := u.twin.ackedInSession || (u.copySoFar b).2
          fullSinceReset := u.twin.fullSinceReset || (u.copySoFar b).2 } }).chordSend 0x12 (be 8 (beAt b 0 8))).syncRestore
      else .next (({ u with twin := { u.twin with rxCopy := none, nextFull := true } }).chordSend 0x13 []) := by
  unfold execCopyEndReceive
  rw [State.chordOpen_pair hopen]
  dsimp only
  rw [if_neg (by rw [State.takesCopies_of_standby hlease]; simp [hlen])]
  rfl

/-- The active's part after the acknowledgement of copy c (R448, R454). -/
def State.acknowledged (u : State) (c : OpenCopy) : State :=
  let w := u.setCeilings c.standing
  let x := { w with twin := { w.twin with
    copyAck := c.seq, acked := c.sent, ackedInSession := true, openCopies := w.twin.openCopies.filter fun y => c.seq < y.seq } }
  if u.twin.stale ∧ c.full ∧ u.twin.lease = .active then
    ({ x with twin := { x.twin with stale := false, wantCurrent := true } }).arbSend 0x45 0 else x

/-- What the acknowledgement of copy c ends: a handover whose final copy c is (R458). -/
def State.handoverEnds (y : State) (c : OpenCopy) : Out :=
  match y.twin.handover with
  | some (_, _, q) =>
    if q = c.seq ∧ y.twin.lease = .handover then
      .next (((((y.arbSend 0x43 0).dropWaiting.setLease .standby).shadowAll).handoverDone .ok).raise 0x306 [])
    else .next y
  | none => .next y

theorem State.handoverEnds_plain {y : State} {c : OpenCopy} (h : y.twin.handover = none) : y.handoverEnds c = .next y := by
  unfold State.handoverEnds
  rw [h]

theorem State.handoverEnds_waiting {y : State} {c : OpenCopy} {cmd : Option Desc} {t0 n : Nat} (h : y.twin.handover = some (cmd, t0, n)) :
    y.handoverEnds c = if n = c.seq ∧ y.twin.lease = .handover then
      .next (((((y.arbSend 0x43 0).dropWaiting.setLease .standby).shadowAll).handoverDone .ok).raise 0x306 []) else .next y := by
  unfold State.handoverEnds
  rw [h]

theorem execCopyAckReceive_known {c : OpenCopy} (hopen : (s.chordOpen 0x12 msg).1 = some b)
    (hcopy : ((s.chordOpen 0x12 msg).2.twin.openCopies.find? fun c => c.seq == beAt b 0 8) = some c) :
    execCopyAckReceive msg s = ((s.chordOpen 0x12 msg).2.acknowledged c).handoverEnds c := by
  unfold execCopyAckReceive
  rw [State.chordOpen_pair hopen]
  dsimp only
  rw [hcopy]
  rfl

/-- The twin ceiling of an association that the acknowledged copy carried. -/
theorem State.setCeilings_mem {sent : Tbl SentCopy} {h : Nat} {a : Assoc} {c : SentCopy} (hmem : (h, a) ∈ s.assoc.ctx) (hsend : a.recv = false)
    (hfree : a.status ≠ .free) (hsent : sent.lookup h = some c) :
    (h, { a with twinCeil := some (c.next, c.leap), twinHeld := false }) ∈ (s.setCeilings sent).assoc.ctx := by
  refine List.mem_map.mpr ⟨(h, a), hmem, ?_⟩
  rw [if_neg fun hno => hno.elim (Bool.eq_false_iff.mp hsend) hfree]
  dsimp only
  rw [hsent]

theorem OpenCopy.mem_standing (c : OpenCopy) (h : Nat) (n : SentCopy) : (h, n) ∈ c.standing ↔ (h, n) ∈ c.sent ∧ h ∉ c.freed := by
  simp [OpenCopy.standing]

theorem execCopyAckReceive_unknown (hopen : (s.chordOpen 0x12 msg).1 = some b)
    (hcopy : ((s.chordOpen 0x12 msg).2.twin.openCopies.find? fun c => c.seq == beAt b 0 8) = none) :
    execCopyAckReceive msg s = .next (s.chordOpen 0x12 msg).2 := by
  unfold execCopyAckReceive
  rw [State.chordOpen_pair hopen]
  dsimp only
  rw [hcopy]

theorem execFullRequestReceive_eq (msg : List Byte) (s : State) : execFullRequestReceive msg s =
    .next (if (s.chordOpen 0x13 msg).1.isSome ∧ (s.chordOpen 0x13 msg).2.twin.lease = .active then
      { (s.chordOpen 0x13 msg).2 with twin := { (s.chordOpen 0x13 msg).2.twin with nextFull := true } } else (s.chordOpen 0x13 msg).2) := by
  unfold execFullRequestReceive
  obtain ⟨o, u⟩ := s.chordOpen 0x13 msg
  cases o with
  | none => exact congrArg Host.Outcome.next (if_neg fun h => Bool.noConfusion h.1).symm
  | some b =>
    dsimp only [Option.isSome]
    split
    · next h => rw [if_pos ⟨rfl, h⟩]; rfl
    · next h => rw [if_neg fun hall => h hall.2]

theorem exec_copy_unopened :
    ((s.chordOpen 0x10 msg).1 = none → exec (.copyRecordsReceive msg) s = .next (s.chordOpen 0x10 msg).2) ∧
    ((s.chordOpen 0x11 msg).1 = none → exec (.copyEndReceive msg) s = .next (s.chordOpen 0x11 msg).2) ∧
    ((s.chordOpen 0x12 msg).1 = none → exec (.copyAckReceive msg) s = .next (s.chordOpen 0x12 msg).2) := by
  refine ⟨fun h => ?_, fun h => ?_, fun h => ?_⟩
  · show execCopyRecordsReceive msg s = _
    unfold execCopyRecordsReceive
    rw [State.chordOpen_pair h]
  · show execCopyEndReceive msg s = _
    unfold execCopyEndReceive
    rw [State.chordOpen_pair h]
  · show execCopyAckReceive msg s = _
    unfold execCopyAckReceive
    rw [State.chordOpen_pair h]

end

/-- Settles O23: the link, the sessions and each message of a copy, by the row's own checks. -/
theorem chordLinkCarriesCopies : Obligations.ChordLinkCarriesCopies := by
  unfold Obligations.ChordLinkCarriesCopies
  refine ⟨fun s => ⟨fun hrun hw hclk hset hun hsolo => ?_, exec_chordLinkUp_rests, fun p h => exec_helloSend_sends h,
    fun p => exec_helloSend_silent, fun p msg => exec_helloReceive_takes, fun p msg => exec_helloReceive_ignores,
    fun p msg => State.helloIn_length, fun msg hlen hty hver => ⟨fun hv => (State.helloIn_rejects hlen hty hver hv).1,
      fun hv => (State.helloIn_rejects hlen hty hver hv).2, fun hv hdown hown => ?_, fun hv hdown hown => ?_,
      fun hv hdown hown key => State.helloIn_chord hlen hty hver hv hdown hown⟩,
    exec_chordHeartbeatSend_sends, exec_chordHeartbeatSend_silent,
    fun ty msg => State.chordOpen_eq, fun msg => execHeartbeatReceive_eq msg s, fun h => ?_, exec_chordLinkDown_absent, fun c => rfl⟩,
    fun s => ⟨exec_syncCycleStart_sends, exec_syncCycleStart_silent, fun msg b hopen hlease hlen => execCopyRecordsReceive_takes hopen hlease hlen,
      fun msg b hopen hlease hlen => ?_, fun msg b c hopen hcopy => ⟨fun h => ?_, fun cmd t0 n h => ?_⟩,
      fun sent h a c => State.setCeilings_mem, OpenCopy.mem_standing, fun msg b => execCopyAckReceive_unknown, fun msg => ?_,
      fun msg => exec_copy_unopened⟩⟩
  · exact ⟨_, exec_chordLinkUp_joins hrun hw hclk hset hun hsolo, rfl, rfl, rfl, rfl⟩
  · rw [State.helloIn_arbiter hlen hty hver hv hdown, if_neg (not_not_intro hown)]
  · rw [State.helloIn_arbiter hlen hty hver hv hdown, if_pos hown]
  · obtain ⟨hclk, hsilence, htags⟩ := exec_chordLinkDown_there h
    rw [hclk, hsilence, htags]
    refine ⟨fun h => ?_, fun h => if_pos h, fun h => ?_, fun h => ?_, fun h => ?_, fun h => if_pos h⟩
    · rw [h]; rfl
    · rw [h]; rfl
    · rw [h]; rfl
    · exact if_neg (Nat.not_lt.mpr h)
  · have hrow : exec (.copyEndReceive msg) s = _ := execCopyEndReceive_takes hopen hlease hlen
    dsimp only
    rw [hrow]
    exact ⟨fun h => if_pos h, fun h => if_neg h⟩
  · exact (execCopyAckReceive_known hopen hcopy).trans (State.handoverEnds_plain h)
  · have hrow := (execCopyAckReceive_known hopen hcopy).trans (State.handoverEnds_waiting h)
    exact ⟨fun hn hl => hrow.trans (if_pos ⟨hn, hl⟩),
      fun hno => hrow.trans (if_neg fun hall => hno.elim (fun h => h hall.1) fun h => h hall.2)⟩
  · have hrow : exec (.fullRequestReceive msg) s = _ := execFullRequestReceive_eq msg s
    dsimp only
    rw [hrow]
    refine ⟨fun hb hl => ?_, fun hno => ?_⟩
    · rw [if_pos ⟨Option.isSome_iff_ne_none.mpr hb, hl⟩]
    · rw [if_neg]
      rintro ⟨hb, hl⟩
      rcases hno with hno | hno
      · rw [hno] at hb
        exact Bool.noConfusion hb
      · exact hno hl

end Sys2Proof.Machine
end

section
namespace Sys2Proof.Machine

/-! Facet marker lock, frame alignment and LOS (R170, R171, R177, Tables 7.1, 7.2). -/

/-! Marker lock. -/

/-- Every marker seen carries the count that its lane expects. -/
def countsAsExpected (p : FacetPort) (ls : List MarkerSeen) : Bool := (markersOf ls).all fun m => m.2.count == tget 0 p.laneCount m.1

theorem countsAsExpected_iff {p : FacetPort} {ls : List MarkerSeen} :
    countsAsExpected p ls = true ↔ ∀ m ∈ markersOf ls, m.2.count = tget 0 p.laneCount m.1 := by
  simp [countsAsExpected]

/-- The lanes show one count. -/
def sameCount (ls : List MarkerSeen) : Bool := match ls with
  | m :: rest => rest.all (·.count == m.count)
  | [] => false

theorem sameCount_iff {ls : List MarkerSeen} (h : ls ≠ []) : sameCount ls = true ↔ ∃ c, ∀ l ∈ ls, l.count = c := by
  cases ls with
  | nil => exact absurd rfl h
  | cons m rest =>
    simp only [sameCount, List.all_eq_true, beq_iff_eq, List.forall_mem_cons]
    exact ⟨fun hall => ⟨m.count, rfl, hall⟩, fun ⟨c, hm, hall⟩ l hl => (hall l hl).trans hm.symm⟩

theorem ne_nil_of_allMarkers {ls : List MarkerSeen} (h : allMarkers ls = true) : ls ≠ [] := by
  rintro rfl
  exact absurd h (by decide)

/-- What LOCK needs of a codeword at pos while a confirmation runs (Table 7.1). -/
def confirms (p : FacetPort) (pos : Nat) (ls : List MarkerSeen) : Prop :=
  pos = p.markerPos + 4096 ∧ allMarkers ls = true ∧ (∃ c, ∀ l ∈ ls, l.count = c) ∧ (∀ m ∈ markersOf ls, m.2.count = tget 0 p.laneCount m.1) ∧
    markerSkew ls ≤ 180

theorem confirms_iff {p : FacetPort} {pos : Nat} {ls : List MarkerSeen} : confirms p pos ls ↔
    (pos = p.markerPos + 4096 ∧ allMarkers ls = true ∧ sameCount ls = true ∧ countsAsExpected p ls = true ∧ markerSkew ls ≤ 180) := by
  unfold confirms
  rw [countsAsExpected_iff]
  exact and_congr Iff.rfl (and_congr_right fun hall => and_congr (sameCount_iff (ne_nil_of_allMarkers hall)).symm Iff.rfl)

section
variable {s : State} {n : Fin 16} {pos : Nat} {ls : List MarkerSeen}

/-- The counts of the lanes after the markers of a codeword. -/
def countsAfter (p : FacetPort) (ls : List MarkerSeen) : Tbl (BitVec 20) :=
  (markersOf ls).foldl (fun c (m : Nat × MarkerSeen) => tput 0#20 c m.1 (m.2.count + 1)) p.laneCount

/-- The port that has seen the markers of a codeword in LOCK. -/
def State.markersSeen (s : State) (n pos : Nat) (ls : List MarkerSeen) : State :=
  s.setFacet n { s.facetPort n with
    markerPos := pos, laneCount := countsAfter (s.facetPort n) ls
    laneMiss := (markersOf ls).foldl (fun x (m : Nat × MarkerSeen) => tput 0 x m.1 0) (s.facetPort n).laneMiss
    skew := if markersOf ls = [] then (s.facetPort n).skew else min 255 (markerSkew ls) }

theorem State.markerReceive_search (h : (s.facetPort n).marker = .search) : s.markerReceive n pos ls =
    if allMarkers ls then s.setFacet n { s.facetPort n with
      marker := .confirm, markerPos := pos, laneCount := countsAfter (s.facetPort n) ls, laneMiss := [] } else s := by
  unfold State.markerReceive
  dsimp only
  rw [h]
  rfl

theorem State.markerReceive_confirm_ok (h : (s.facetPort n).marker = .confirm) (hok : confirms (s.facetPort n) pos ls) :
    s.markerReceive n pos ls = (s.setFacet n { s.facetPort n with
      marker := .lock, markerPos := pos, laneCount := countsAfter (s.facetPort n) ls, laneMiss := []
      skew := min 255 (markerSkew ls) }).clearSection n 2 [0] := by
  unfold State.markerReceive
  dsimp only
  rw [h]
  exact if_pos (confirms_iff.mp hok)

theorem State.markerReceive_confirm_fails (h : (s.facetPort n).marker = .confirm) (hok : ¬ confirms (s.facetPort n) pos ls) :
    s.markerReceive n pos ls = s.setFacet n { s.facetPort n with marker := .search } := by
  unfold State.markerReceive
  dsimp only
  rw [h]
  exact if_neg fun hall => hok (confirms_iff.mpr hall)

theorem State.markerReceive_early (h : (s.facetPort n).marker = .lock)
    (hpos : pos ≤ (s.facetPort n).markerPos ∨ (pos - (s.facetPort n).markerPos) % 4096 ≠ 0) : s.markerReceive n pos ls = s := by
  unfold State.markerReceive
  dsimp only
  rw [h]
  exact if_pos hpos

theorem State.markerReceive_lock (h : (s.facetPort n).marker = .lock) (hpos : (s.facetPort n).markerPos < pos)
    (hmod : (pos - (s.facetPort n).markerPos) % 4096 = 0) : s.markerReceive n pos ls =
      if !countsAsExpected (s.facetPort n) ls then s.markerLoss n 2
      else if 180 < markerSkew ls then (s.markersSeen n pos ls).markerLoss n 3 else s.markersSeen n pos ls := by
  have hcount : ¬ (pos ≤ (s.facetPort n).markerPos ∨ (pos - (s.facetPort n).markerPos) % 4096 ≠ 0) := by omega
  have hnil : ∀ a b : Nat, (if (markersOf ls).isEmpty = true then a else b) = if markersOf ls = [] then a else b :=
    fun a b => if_congr List.isEmpty_iff rfl rfl
  unfold State.markerReceive State.markersSeen
  dsimp only
  rw [h]
  refine (if_neg hcount).trans ?_
  rw [← hnil]
  rfl

theorem execMarkerCodewordReceive_off (h : ¬ ((s.facetPort n).active = true ∧ (s.facetPort n).has 0 = false ∧ (s.facetPort n).has 1 = false)) :
    execMarkerCodewordReceive n pos ls s = .next s := by
  refine congrArg Host.Outcome.next (if_neg ?_)
  rintro ⟨hact, h0, h1⟩
  simp only [Bool.not_eq_true'] at h0 h1
  exact h ⟨hact, h0, h1⟩

theorem execMarkerCodewordReceive_on (h : (s.facetPort n).active = true ∧ (s.facetPort n).has 0 = false ∧ (s.facetPort n).has 1 = false) :
    execMarkerCodewordReceive n pos ls s = .next (s.markerReceive n pos ls) := by
  refine congrArg Host.Outcome.next (if_pos ?_)
  rw [h.2.1, h.2.2]
  exact ⟨h.1, rfl, rfl⟩

end

/-! A marker that is missed. -/

section
variable {s : State} {n : Fin 16} {lane : Fin 4}

/-- The port that missed the marker of a lane in LOCK. -/
def State.markerMissed (s : State) (n lane : Nat) : State :=
  s.setFacet n { s.facetPort n with
    laneMiss := tput 0 (s.facetPort n).laneMiss lane (tget 0 (s.facetPort n).laneMiss lane + 1)
    laneCount := tmod 0 (s.facetPort n).laneCount lane (· + 1) }

theorem exec_expectedMarkerMissed_idle (h : (s.facetPort n).active = false ∨ (s.facetPort n).marker = .search) :
    exec (.expectedMarkerMissed n lane) s = .next s := by
  show execExpectedMarkerMissed n lane s = _
  unfold execExpectedMarkerMissed
  rcases h with h | h
  · dsimp only
    rw [h]
  · dsimp only
    rw [h]
    cases (s.facetPort n).active <;> rfl

theorem exec_expectedMarkerMissed_confirm (hact : (s.facetPort n).active = true) (h : (s.facetPort n).marker = .confirm) :
    exec (.expectedMarkerMissed n lane) s = .next (s.setFacet n { s.facetPort n with marker := .search }) := by
  show execExpectedMarkerMissed n lane s = _
  unfold execExpectedMarkerMissed
  dsimp only
  rw [hact, h]

theorem exec_expectedMarkerMissed_lock (hact : (s.facetPort n).active = true) (h : (s.facetPort n).marker = .lock) :
    exec (.expectedMarkerMissed n lane) s = .next (if 3 ≤ tget 0 (s.facetPort n).laneMiss lane.val then
      (s.markerMissed n lane.val).markerLoss n 1 else s.markerMissed n lane.val) := by
  show execExpectedMarkerMissed n lane s = _
  unfold execExpectedMarkerMissed
  dsimp only
  split
  · exact congrArg Host.Outcome.next (if_congr Nat.succ_le_succ_iff rfl rfl)
  · next hm => rw [h] at hm; exact MarkerMode.noConfusion hm
  · next hno _ => exact absurd h (hno hact)

end

/-! Frame alignment (R171). -/

section
variable {s : State} {n : Fin 16} {pos : Nat} {m : Bool} {mfc : Byte}

/-- The port that keeps the candidates cs. -/
def State.keepCands (s : State) (n : Nat) (cs : List Candidate) : State :=
  s.setFacet n { s.facetPort n with cands := cs, frame := if cs = [] then .out else .confirm }

theorem State.keepCands_eq (s : State) (n : Nat) (cs : List Candidate) :
    (s.modFacet n fun p => { p with cands := cs, frame := if cs.isEmpty then .out else .confirm }) = s.keepCands n cs := by
  unfold State.keepCands
  rw [← if_congr (List.isEmpty_iff (l := cs)) (rfl : (FrameMode.out) = .out) (rfl : (FrameMode.confirm) = .confirm)]
  rfl

/-- The port searches for alignment: its lanes are in LOCK and it is not IN_FRAME. -/
def FacetPort.aligns (p : FacetPort) : Prop := p.active = true ∧ p.marker = .lock ∧ p.frame ≠ .inFrame

theorem execAlignmentCandidateMatch_off (h : ¬ (s.facetPort n).aligns) : execAlignmentCandidateMatch n pos m mfc s = .next s :=
  congrArg Host.Outcome.next (if_neg h)

theorem execAlignmentCandidateMatch_on (h : (s.facetPort n).aligns) :
    execAlignmentCandidateMatch n pos m mfc s = .next (s.alignSearch n pos m mfc) :=
  congrArg Host.Outcome.next (if_pos h)

section
variable (hnone : ((s.facetPort n).cands.find? fun (x : Candidate) => x.next == pos) = none)
include hnone

theorem State.alignSearch_none : s.alignSearch n pos m mfc =
    if !m then s
    else if (s.facetPort n).cands.length < 8 then s.keepCands n ((s.facetPort n).cands ++ [⟨pos + 131072, 0, mfc⟩])
    else s.raiseOnce 0x2AF 0 [BitVec.ofNat 8 n] := by
  unfold State.alignSearch
  dsimp only
  rw [hnone, ← State.keepCands_eq]

end

section
variable {c : Candidate} (hsome : ((s.facetPort n).cands.find? fun (x : Candidate) => x.next == pos) = some c)
include hsome

theorem State.alignSearch_closes : s.alignSearch n pos false mfc = s.keepCands n ((s.facetPort n).cands.filter (·.next != pos)) := by
  unfold State.alignSearch
  dsimp only
  rw [hsome, ← State.keepCands_eq]
  exact (if_neg fun h => Bool.noConfusion h.1).trans (if_neg (by decide))

theorem State.alignSearch_restarts (hmfc : mfc ≠ c.mfc + 1) : s.alignSearch n pos true mfc =
    s.keepCands n ((s.facetPort n).cands.filter (·.next != pos) ++ [⟨pos + 131072, 0, mfc⟩]) := by
  unfold State.alignSearch
  dsimp only
  rw [hsome, ← State.keepCands_eq]
  exact (if_neg fun h => hmfc h.2).trans (if_pos rfl)

theorem State.alignSearch_confirms (hmfc : mfc = c.mfc + 1) : s.alignSearch n pos true mfc =
    if c.hits = 1 then (s.setFacet n { s.facetPort n with cands := [], frame := .inFrame, errRun := 0, rxBip := none }).clearSection n 3 []
    else s.setFacet n { s.facetPort n with cands := (s.facetPort n).cands.map fun x =>
      if x.next == pos then ⟨pos + 131072, x.hits + 1, mfc⟩ else x } := by
  unfold State.alignSearch
  dsimp only
  rw [hsome]
  exact if_pos ⟨rfl, hmfc⟩

end
end

/-! LOS (R177). -/

section
variable {s : State} {n : Fin 16}

theorem exec_losDeclare_some {t0 : Nat} (h : (s.facetPort n).quietSince = some t0) :
    exec (.losDeclare n) s = .next (if (s.facetPort n).has 0 then s else (s.passTo (t0 + 10000)).declare n 0 []) := by
  show execLosDeclare n s = _
  rw [execLosDeclare, h]

theorem exec_losDeclare_none (h : (s.facetPort n).quietSince = none) : exec (.losDeclare n) s = .next s := by
  show execLosDeclare n s = _
  rw [execLosDeclare, h]

theorem exec_losClear_some {t0 : Nat} (h : (s.facetPort n).signalSince = some t0) :
    exec (.losClear n) s = .next (if (s.facetPort n).has 0 then (s.passTo (t0 + 100000)).clearSection n 0 [] else s) := by
  show execLosClear n s = _
  rw [execLosClear, h]

theorem exec_losClear_none (h : (s.facetPort n).signalSince = none) : exec (.losClear n) s = .next s := by
  show execLosClear n s = _
  rw [execLosClear, h]

end

/-- Settles O37, by the state of the marker detector and of the framer. -/
theorem facetLockAndAlignmentFollowTheTables : Obligations.FacetLockAndAlignmentFollowTheTables := by
  unfold Obligations.FacetLockAndAlignmentFollowTheTables
  intro n s
  refine ⟨fun pos ls => ⟨execMarkerCodewordReceive_off, fun hon hm hall => ?_, fun hon hm hall => ?_, fun hon hm hok => ?_, fun hon hm hok => ?_,
      fun hon hm => ⟨fun hpos => ?_, fun hpos hmod => ?_⟩⟩,
    fun cause => rfl, fun lane => ⟨exec_expectedMarkerMissed_idle, exec_expectedMarkerMissed_confirm, exec_expectedMarkerMissed_lock⟩,
    fun pos mfc => ⟨fun m => execAlignmentCandidateMatch_off, fun hon hnone => ?_, fun c hon hsome => ?_⟩,
    fun t0 => exec_losDeclare_some, fun t0 => exec_losClear_some, exec_losDeclare_none, exec_losClear_none⟩
  · have hrow : exec (.markerCodewordReceive n pos ls) s = _ := execMarkerCodewordReceive_on hon
    rw [hrow, State.markerReceive_search hm, if_pos hall]
    rfl
  · have hrow : exec (.markerCodewordReceive n pos ls) s = _ := execMarkerCodewordReceive_on hon
    rw [hrow, State.markerReceive_search hm, if_neg (Bool.eq_false_iff.mp hall)]
  · have hrow : exec (.markerCodewordReceive n pos ls) s = _ := execMarkerCodewordReceive_on hon
    rw [hrow, State.markerReceive_confirm_ok hm hok]
    rfl
  · have hrow : exec (.markerCodewordReceive n pos ls) s = _ := execMarkerCodewordReceive_on hon
    rw [hrow, State.markerReceive_confirm_fails hm hok]
  · have hrow : exec (.markerCodewordReceive n pos ls) s = _ := execMarkerCodewordReceive_on hon
    rw [hrow, State.markerReceive_early hm hpos]
  · have hrow : exec (.markerCodewordReceive n pos ls) s = _ := execMarkerCodewordReceive_on hon
    rw [hrow, State.markerReceive_lock hm hpos hmod]
    refine ⟨fun hno => ?_, fun hexp hskew => ?_, fun hexp hskew => ?_⟩
    · rw [if_pos]
      rw [Bool.eq_false_iff.mpr fun h => hno (countsAsExpected_iff.mp h)]
      rfl
    · rw [countsAsExpected_iff.mpr hexp, if_neg (by decide), if_pos hskew]
      rfl
    · rw [countsAsExpected_iff.mpr hexp, if_neg (by decide), if_neg (Nat.not_lt.mpr hskew)]
      rfl
  · have hrow : ∀ m, exec (.alignmentCandidateMatch n pos m mfc) s = _ := fun m => execAlignmentCandidateMatch_on hon
    rw [hrow, hrow, State.alignSearch_none hnone, State.alignSearch_none hnone]
    refine ⟨rfl, fun hlen => ?_, fun hlen => ?_⟩
    · rw [if_neg (by decide), if_pos hlen]
      rfl
    · rw [if_neg (by decide), if_neg (Nat.not_lt.mpr hlen)]
  · have hrow : ∀ m, exec (.alignmentCandidateMatch n pos m mfc) s = _ := fun m => execAlignmentCandidateMatch_on hon
    rw [hrow, hrow]
    refine ⟨?_, fun hmfc => ?_, fun hmfc hhits => ?_, fun hmfc hhits => ?_⟩
    · rw [State.alignSearch_closes hsome]
      rfl
    · rw [State.alignSearch_restarts hsome hmfc]
      rfl
    · rw [State.alignSearch_confirms hsome hmfc, if_neg hhits]
    · rw [State.alignSearch_confirms hsome hmfc, if_pos hhits]

end Sys2Proof.Machine
end

section
namespace Sys2Proof.Machine

/-! Facet frames are sent and taken (R143, R149, R150, R162, R165, R166, R172, R176, R184, R185, R189, R193, R201). -/

/-! What the transmit side leaves of the multiframe counter. -/

/-- From s to t port n keeps its multiframe counter and its tributaries. -/
def KeepsMfc (n : Nat) (s t : State) : Prop :=
  (t.facetPort n).mfc = (s.facetPort n).mfc ∧ (t.facetPort n).trib = (s.facetPort n).trib

section
variable {n : Nat} {s : State}

theorem KeepsMfc.refl (n : Nat) (s : State) : KeepsMfc n s s := ⟨rfl, rfl⟩

theorem KeepsMfc.trans {t u : State} (h : KeepsMfc n s t) (h' : KeepsMfc n t u) : KeepsMfc n s u := ⟨h'.1.trans h.1, h'.2.trans h.2⟩

theorem KeepsMfc.of_facet {t : State} (h : t.facet = s.facet) : KeepsMfc n s t := by
  unfold KeepsMfc State.facetPort
  rw [h]
  exact ⟨rfl, rfl⟩

theorem KeepsMfc.of_setFacet {p : FacetPort} (hm : p.mfc = (s.facetPort n).mfc) (ht : p.trib = (s.facetPort n).trib) :
    KeepsMfc n s (s.setFacet n p) := by
  unfold KeepsMfc
  rw [State.facetPort_setFacet]
  exact ⟨hm, ht⟩

theorem State.raise_facet (s : State) (ev : Nat) (data : List Byte) : (s.raise ev data).facet = s.facet := by
  rw [(s.raise_raises ev data).frame']

theorem State.facetPort_modFacet (s : State) (n : Nat) (f : FacetPort → FacetPort) : (s.modFacet n f).facetPort n = f (s.facetPort n) :=
  State.facetPort_setFacet ..

theorem KeepsMfc.raise_if {t : State} (h : KeepsMfc n s t) (c : Prop) [Decidable c] (ev : Nat) (data : List Byte) :
    KeepsMfc n s (if c then t.raise ev data else t) := by
  split
  · exact h.trans (KeepsMfc.of_facet (t.raise_facet ev data))
  · exact h

theorem KeepsMfc.done {t : State} (h : KeepsMfc n s t) (d : Desc) (st : Status) : KeepsMfc n s (t.done d st) :=
  h.trans (KeepsMfc.of_facet (by rw [t.done_posts d st]))

theorem KeepsMfc.emit {t : State} (h : KeepsMfc n s t) (o : Output) : KeepsMfc n s (t.emit o) := h.trans (KeepsMfc.of_facet rfl)

/-- Two values of a port with one multiframe counter and one number of tributaries. -/
def FacetPort.SameMfc (p q : FacetPort) : Prop := q.mfc = p.mfc ∧ q.trib = p.trib

theorem FacetPort.SameMfc.add {p q : FacetPort} (h : p.SameMfc q) (i k : Nat) : p.SameMfc (q.add i k) := h

theorem FacetPort.SameMfc.ite {p a b : FacetPort} {c : Prop} [Decidable c] (ha : p.SameMfc a) (hb : p.SameMfc b) :
    p.SameMfc (if c then a else b) := by
  split
  · exact ha
  · exact hb

theorem KeepsMfc.ite_snd {α : Type} {a b : α × State} {c : Prop} [Decidable c] (ha : KeepsMfc n s a.2) (hb : KeepsMfc n s b.2) :
    KeepsMfc n s (if c then a else b).2 := by
  split
  · exact ha
  · exact hb

theorem KeepsMfc.of_same {p : FacetPort} (h : (s.facetPort n).SameMfc p) : KeepsMfc n s (s.setFacet n p) := KeepsMfc.of_setFacet h.1 h.2

theorem KeepsMfc.modFacet {t : State} (h : KeepsMfc n s t) {f : FacetPort → FacetPort} (hf : ∀ p : FacetPort, p.SameMfc (f p)) :
    KeepsMfc n s (t.modFacet n f) :=
  h.trans (KeepsMfc.of_same (hf _))

theorem State.mapSlot_keepsMfc (s : State) (n t : Nat) (aisP : Bool) (bs : List (BitVec 66)) : KeepsMfc n s (s.mapSlot n t aisP bs).2 := by
  refine KeepsMfc.ite_snd (KeepsMfc.refl n s) (KeepsMfc.ite_snd (KeepsMfc.of_same ⟨rfl, rfl⟩) ?_)
  refine KeepsMfc.raise_if (KeepsMfc.raise_if (KeepsMfc.of_same ?_) _ _ _) _ _ _
  have hmap : ∀ m, (s.facetPort n).SameMfc ((s.facetPort n).setMap t m) := fun m => ⟨rfl, rfl⟩
  exact FacetPort.SameMfc.ite ((FacetPort.SameMfc.ite ((hmap _).add _ _) (hmap _)).add _ _)
    (FacetPort.SameMfc.ite ((FacetPort.SameMfc.ite ((hmap _).add _ _) (hmap _)).add _ _) (FacetPort.SameMfc.ite ((hmap _).add _ _) (hmap _)))

theorem State.mgmtSegment_keepsMfc (s : State) (n : Nat) : KeepsMfc n s (s.mgmtSegment n).2 := by
  unfold State.mgmtSegment
  dsimp only
  split
  · exact KeepsMfc.refl n s
  · dsimp only
    split
    · refine KeepsMfc.done ?_ _ _
      exact KeepsMfc.of_same ⟨rfl, rfl⟩
    · exact KeepsMfc.of_same ⟨rfl, rfl⟩

theorem State.codewords_keepsMfc (n f : Nat) (s : State) : KeepsMfc n s (State.codewords n f s) := by
  induction f generalizing s with
  | zero => exact KeepsMfc.refl n s
  | succ f ih =>
    unfold State.codewords
    dsimp only
    split
    · exact KeepsMfc.refl n s
    · refine KeepsMfc.trans ?_ (ih _)
      split
      · refine KeepsMfc.emit ?_ _
        exact KeepsMfc.of_same ⟨rfl, rfl⟩
      · refine KeepsMfc.emit ?_ _
        refine KeepsMfc.modFacet ?_ ?_
        · refine KeepsMfc.emit ?_ _
          exact KeepsMfc.of_same ⟨rfl, rfl⟩
        · exact fun p => ⟨rfl, rfl⟩

theorem State.lineStream_keepsMfc (s : State) (n : Nat) (cols : List (BitVec 128)) : KeepsMfc n s (s.lineStream n cols) := by
  unfold State.lineStream
  dsimp only
  refine KeepsMfc.trans ?_ (State.codewords_keepsMfc n _ _)
  exact KeepsMfc.of_setFacet rfl rfl

theorem State.nextMfc_mfc (s : State) (n : Nat) : ((s.nextMfc n).facetPort n).mfc = (s.facetPort n).mfc + 1 := by
  unfold State.nextMfc
  rw [State.facetPort_modFacet]

theorem State.sendAis_mfc (s : State) (n : Nat) : ((s.sendAis n).facetPort n).mfc = (s.facetPort n).mfc + 1 := by
  unfold State.sendAis
  dsimp only
  rw [(State.lineStream_keepsMfc _ n _).1]
  refine (State.nextMfc_mfc _ n).trans ?_
  rw [State.facetPort_modFacet]

end

/-! The bytes of a frame before encryption (Tables 6.3, 6.4). -/

theorem length_slice (bs : List Byte) (off n : Nat) : (slice bs off n).length = n := by
  simp only [slice, List.length_append, List.length_take, List.length_drop, List.length_replicate]
  omega

theorem facetClear_drop {frame : List Byte} (b : Byte) (h : 64 ≤ frame.length) :
    (facetClear b frame).drop 176 = List.replicate 16208 0 := by
  have hhead : (frame.take 64).length = 64 := List.length_take_of_le h
  have hinner : (patch (frame.take 64) 8 (List.replicate 6 0)).length = 64 := (length_patch (by rw [hhead]; decide)).trans hhead
  have houter : (patch (patch (frame.take 64) 8 (List.replicate 6 0)) 14 [b]).length = 64 :=
    (length_patch (by rw [hinner]; exact (by decide : 15 ≤ 64))).trans hinner
  unfold facetClear
  refine List.drop_left' ?_
  rw [List.length_append, List.length_append, houter, List.length_replicate, length_slice]

section
variable (s : State) (n : Nat) (client : List ClientBlocks)

/-- The part after the slots of a frame are mapped, and what they give. -/
def State.mapSlots : List SlotOut × State :=
  (List.range (s.facetPort n).trib).foldl (fun (acc, u) t =>
    let (o, u) := State.mapSlot u n t (bitOf (s.regN (facetOff n 0x40C)) (4 + t)) ((client.filter (·.slot.val == t)).flatMap (·.blocks))
    (acc ++ [o], u)) (([] : List SlotOut), s)

theorem State.mapSlots_keepsMfc : KeepsMfc n s (s.mapSlots n client).2 :=
  List.foldlRecOn (motive := fun q : List SlotOut × State => KeepsMfc n s q.2) _ _ (KeepsMfc.refl n s) fun _ hq _ _ =>
    hq.trans (State.mapSlot_keepsMfc _ _ _ _ _)

/-- The overhead of a frame: 64 bytes. -/
def overheadOf (p : FacetPort) (outs : List SlotOut) (force : Bool) : List Byte :=
  let on := fun t => decide (t < p.trib) && (p.slot t).equipped
  alignWord ++ [p.mfc, p.byte7] ++ List.replicate 7 0 ++ [p.status15 force] ++ List.replicate 8 0 ++
    ((List.range 4).flatMap fun t => be 2 ((outs[t]?.map (·.ptr)).getD 0x6000)) ++
    ((List.range 4).map fun t => if on t then (p.slot t).type else 0) ++
    ((List.range 4).map fun t => if on t then BitVec.ofNat 8 (p.slot t).stuff.toNat else 0#8) ++
    [p.strace.extractLsb' (8 * (p.mfc.toNat % 64)) 8] ++ List.replicate 23 0

theorem length_overheadOf (p : FacetPort) (outs : List SlotOut) (force : Bool) : (overheadOf p outs force).length = 64 := by
  have hptr : ((List.range 4).flatMap fun t => be 2 ((outs[t]?.map (·.ptr)).getD 0x6000)).length = 8 := by
    simp [List.length_flatMap, length_be]
  simp only [overheadOf, List.length_append, hptr, List.length_map, List.length_range, List.length_replicate, List.length_cons,
    List.length_nil, alignWord]

theorem overheadOf_take (p : FacetPort) (outs : List SlotOut) (force : Bool) :
    (overheadOf p outs force).take 8 = alignWord ++ [p.mfc, p.byte7] := rfl

/-- The overhead of the frame that a port builds. -/
def State.builtOverhead : List Byte :=
  overheadOf (((s.mapSlots n client).2.mgmtSegment n).2.facetPort n) (s.mapSlots n client).1 (bitOf (s.regN (facetOff n 0x40C)) 1)

/-- A frame is its overhead, then its columns. -/
theorem State.builtOverhead_prefix : s.builtOverhead n client <+: (s.facetBuild n client).1 :=
  (((List.prefix_append (s.builtOverhead n client) _).trans (List.prefix_append _ _)).trans (List.prefix_append _ _)).trans (List.prefix_append _ _)

theorem State.facetBuild_state : (s.facetBuild n client).2 = ((s.mapSlots n client).2.mgmtSegment n).2.nextMfc n := rfl

theorem State.facetBuild_keepsMfc : KeepsMfc n s ((s.mapSlots n client).2.mgmtSegment n).2 :=
  (s.mapSlots_keepsMfc n client).trans (State.mgmtSegment_keepsMfc _ n)

theorem State.facetBuild_mfc : ((s.facetBuild n client).2.facetPort n).mfc = (s.facetPort n).mfc + 1 := by
  rw [State.facetBuild_state, State.nextMfc_mfc, (s.facetBuild_keepsMfc n client).1]

theorem State.facetBuild_head : (s.facetBuild n client).1.take 8 = alignWord ++ [(s.facetPort n).mfc, (s.facetPort n).byte7] := by
  obtain ⟨rest, heq⟩ := s.builtOverhead_prefix n client
  obtain ⟨hmfc, htrib⟩ := s.facetBuild_keepsMfc n client
  unfold State.builtOverhead at heq
  rw [← heq, List.take_append_of_le_length (by rw [length_overheadOf]; decide), overheadOf_take]
  unfold FacetPort.byte7
  rw [hmfc, htrib]

theorem State.facetBuild_length : 64 ≤ (s.facetBuild n client).1.length := by
  have hlen := (s.builtOverhead_prefix n client).length_le
  unfold State.builtOverhead at hlen
  rwa [length_overheadOf] at hlen

end

/-! FACET_FRAME_TRANSMIT. -/

section
variable {s : State} {n : Nat} {client : List ClientBlocks} {perr : Bool}

theorem State.facetTransmit_ais (h : bitOf (s.regN (facetOff n 0x40C)) 2 = true) : s.facetTransmit n client perr = s.sendAis n := if_pos h

section
variable (h : bitOf (s.regN (facetOff n 0x40C)) 2 = false)
include h

theorem State.facetTransmit_full (hroom : s.facetRoom n false = none) : s.facetTransmit n client perr = s := by
  unfold State.facetTransmit
  rw [if_neg (Bool.eq_false_iff.mp h), hroom]

variable {line : Nat} (hroom : s.facetRoom n false = some line)
include hroom

theorem State.facetTransmit_keyed {a : Nat} (hassoc : (s.facetBuild n client).2.facetAssoc n false = some a) : s.facetTransmit n client perr =
    ((s.facetBuild n client).2.addItem n (facetItem n false (s.facetBuild n client).1 a line)).facetRun n false perr := by
  unfold State.facetTransmit
  rw [if_neg (Bool.eq_false_iff.mp h), hroom]
  dsimp only
  rw [hassoc]

theorem State.facetTransmit_clear (hassoc : (s.facetBuild n client).2.facetAssoc n false = none) : s.facetTransmit n client perr =
    let q := s.facetBuild n client
    let clear := facetClear (BitVec.ofNat 8 (128 * (q.2.draw 1).1 + 64)) q.1
    ((q.2.draw 1).2.addItem n { facetItem n false clear 0 line with stage := .plain }).facetRun n false perr := by
  unfold State.facetTransmit
  rw [if_neg (Bool.eq_false_iff.mp h), hroom]
  dsimp only
  rw [hassoc]

end
end

/-! FACET_FRAME_RECEIVE. -/

section
variable {s : State} {n : Nat} {frame : List Byte} {perr : Bool}

/-- The port that counts a wrong alignment word. -/
def State.alignWrong (s : State) (n : Nat) : State := s.modFacet n fun p => { p.add 2 1 with errRun := p.errRun + 1 }

/-- The fifth wrong word in a row declares LOF (R172). -/
theorem State.facetReceive_lof (hword : slice frame 0 6 ≠ alignWord) (hrun : 4 ≤ (s.facetPort n).errRun) :
    s.facetReceive n frame perr = (s.alignWrong n).declare n 3 [] := by
  have hcheck : s.alignCheck n frame = (false, (s.alignWrong n).declare n 3 []) := (if_neg hword).trans (if_pos hrun)
  unfold State.facetReceive
  rw [hcheck]

/-- The port that keeps its alignment after a frame, with the frame's parity checked. -/
def State.alignKept (s : State) (n : Nat) (frame : List Byte) : State :=
  (if slice frame 0 6 = alignWord then s.modFacet n fun p => { p with errRun := 0 } else s.alignWrong n).sectionBip n frame

/-- Bytes 8 to 15 of a frame are all ones (R175). -/
def aisBytes (frame : List Byte) : Bool := (slice frame 8 8).all (· == 0xFF)

/-- The port that has seen whether a frame is AIS-S, and that stamps a keyed one. -/
def State.aisSeen (s : State) (n : Nat) (frame : List Byte) : State :=
  if aisBytes frame = false ∧ beAt frame 14 1 / 16 % 8 < 4 then (s.aisS n (aisBytes frame)).facetStamp n 2 (beAt frame 8 6)
  else s.aisS n (aisBytes frame)

/-- A frame of a port that stays IN_FRAME takes its place in Prism n (R173, R201). -/
def State.facetTake (s : State) (n : Nat) (frame : List Byte) (perr : Bool) : State :=
  match s.facetRoom n true with
  | none => (s.overflow n (4 * n)).facetFinish n 0 (some .failed) (frame.take 64) []
  | some line =>
    if aisBytes frame then (s.addItem n { facetItem n true frame 0 line with stage := .plain }).facetRun n true perr
    else match s.facetAtOnce n frame with
      | (.inl c, s) => (s.addItem n { facetItem n true frame 0 line with stage := .plain, cls := some c }).facetRun n true perr
      | (.inr h, s) => (s.addItem n (facetItem n true frame h line)).facetRun n true perr

theorem State.facetReceive_takes (h : slice frame 0 6 = alignWord ∨ (s.facetPort n).errRun < 4) :
    s.facetReceive n frame perr = ((s.alignKept n frame).aisSeen n frame).facetTake n frame perr := by
  have hcheck : s.alignCheck n frame =
      (true, if slice frame 0 6 = alignWord then s.modFacet n fun p => { p with errRun := 0 } else s.alignWrong n) := by
    by_cases hword : slice frame 0 6 = alignWord
    · rw [if_pos hword]
      exact if_pos hword
    · rw [if_neg hword]
      exact (if_neg hword).trans (if_neg (Nat.not_le.mpr (h.resolve_left hword)))
  unfold State.facetReceive
  rw [hcheck]
  unfold State.aisSeen
  rw [if_congr (and_congr (Bool.not_eq_true' (aisBytes frame)).to_iff.symm Iff.rfl) rfl rfl]
  rfl

theorem State.facetTake_full (h : s.facetRoom n true = none) :
    s.facetTake n frame perr = (s.overflow n (4 * n)).facetFinish n 0 (some .failed) (frame.take 64) [] := by
  unfold State.facetTake
  rw [h]

section
variable {line : Nat} (h : s.facetRoom n true = some line)
include h

theorem State.facetTake_ais (hais : aisBytes frame = true) :
    s.facetTake n frame perr = (s.addItem n { facetItem n true frame 0 line with stage := .plain }).facetRun n true perr := by
  unfold State.facetTake
  rw [h]
  exact if_pos hais

theorem State.facetTake_classed (hais : aisBytes frame = false) {c : FacetFrameClass} (hc : (s.facetAtOnce n frame).1 = .inl c) :
    s.facetTake n frame perr =
      ((s.facetAtOnce n frame).2.addItem n { facetItem n true frame 0 line with stage := .plain, cls := some c }).facetRun n true perr := by
  unfold State.facetTake
  rw [h]
  dsimp only
  rw [if_neg (Bool.eq_false_iff.mp hais), show s.facetAtOnce n frame = (.inl c, (s.facetAtOnce n frame).2) from Prod.ext hc rfl]

theorem State.facetTake_keyed (hais : aisBytes frame = false) {a : Nat} (hc : (s.facetAtOnce n frame).1 = .inr a) :
    s.facetTake n frame perr = ((s.facetAtOnce n frame).2.addItem n (facetItem n true frame a line)).facetRun n true perr := by
  unfold State.facetTake
  rw [h]
  dsimp only
  rw [if_neg (Bool.eq_false_iff.mp hais), show s.facetAtOnce n frame = (.inr a, (s.facetAtOnce n frame).2) from Prod.ext hc rfl]

end

theorem execFacetFrameReceive_closed {n : Fin 16} {errors : List (Fin 545)} (h : s.facetOpen n = false ∨ (s.facetPort n).marker ≠ .lock) :
    execFacetFrameReceive n errors frame perr s = .next s :=
  if_neg fun hall => h.elim (fun hclosed => Bool.eq_false_iff.mp hclosed hall.1) fun hm => hm hall.2

/-- The port that has counted the codewords of a frame. -/
def State.codewordsCounted (s : State) (n : Nat) (errors : List (Fin 545)) : State :=
  s.modFacet n fun p => p.fecCount (errors.map fun (x : Fin 545) => x.val)

theorem State.codewordsCounted_errRun (s : State) (n : Nat) (errors : List (Fin 545)) :
    ((s.codewordsCounted n errors).facetPort n).errRun = (s.facetPort n).errRun := by
  unfold State.codewordsCounted
  rw [State.facetPort_modFacet]
  rfl

theorem execFacetFrameReceive_open {n : Fin 16} {errors : List (Fin 545)} (h : s.facetOpen n = true) (hm : (s.facetPort n).marker = .lock) :
    execFacetFrameReceive n errors frame perr s = .next (if (s.facetPort n).frame = .inFrame then
      (s.codewordsCounted n errors).facetReceive n frame perr else s.codewordsCounted n errors) :=
  if_pos ⟨h, hm⟩

end

theorem State.sendUnkeyed_none (s : State) (n i : Nat) (frame : List Byte) : s.sendUnkeyed n none i frame =
    (if (s.facetPort n).keyed then (s.modFacet n fun p => { p with keyed := false }).raise 0x284
      [BitVec.ofNat 8 n, BitVec.ofNat 8 (beAt frame 14 1 / 16 % 8)] else s.modFacet n fun p => { p with keyed := false }).sendFacet n frame := rfl

/-- Settles O36: the frames of a port in both directions, from the alignment word to its place in the Prism. -/
theorem facetFramesAreSentAndTaken : Obligations.FacetFramesAreSentAndTaken := by
  unfold Obligations.FacetFramesAreSentAndTaken
  intro n s
  refine ⟨fun client perr => ?_, fun h ctr octets ph => ⟨fun hlt => if_pos hlt, fun hle => if_neg (Nat.not_lt.mpr hle)⟩,
    fun i frame => s.sendUnkeyed_none n.val i frame, fun errors frame perr => ?_⟩
  · have hopen : s.facetOpen n = true → exec (.facetFrameTransmit n ⟨client, perr⟩) s = .next (s.facetTransmit n client perr) :=
      fun h => congrArg Host.Outcome.next (if_pos h)
    refine ⟨fun h => congrArg Host.Outcome.next (if_neg (Bool.eq_false_iff.mp h)), fun h hais => ?_, fun h hais hroom => ?_,
      fun line h hais hroom => ⟨fun a hassoc => ?_, fun hassoc => ?_⟩, s.facetBuild_head n client, s.facetBuild_mfc n client,
      s.sendAis_mfc n, facetClear_drop _ (s.facetBuild_length n client)⟩
    · rw [hopen h, State.facetTransmit_ais hais]
    · rw [hopen h, State.facetTransmit_full hais hroom]
    · rw [hopen h, State.facetTransmit_keyed hais hroom hassoc]
    · rw [hopen h, State.facetTransmit_clear hais hroom hassoc]
  · refine ⟨execFacetFrameReceive_closed, fun hopen hm hframe => ?_, fun hopen hm hframe => ?_⟩
    · exact (execFacetFrameReceive_open hopen hm).trans (congrArg Host.Outcome.next (if_neg hframe))
    · have hrow : exec (.facetFrameReceive n errors frame perr) s = .next ((s.codewordsCounted n errors).facetReceive n frame perr) :=
        (execFacetFrameReceive_open hopen hm).trans (congrArg Host.Outcome.next (if_pos hframe))
      have herr := s.codewordsCounted_errRun n errors
      refine ⟨fun hword hrun => ?_, fun hkeep => ?_⟩
      · exact hrow.trans (congrArg Host.Outcome.next (State.facetReceive_lof hword (herr ▸ hrun)))
      · have htake := hrow.trans (congrArg Host.Outcome.next (State.facetReceive_takes (hkeep.imp id fun h => herr ▸ h)))
        refine ⟨fun hroom => ?_, fun line hroom => ⟨fun hais => ?_, fun c hais hc => ?_, fun a hais ha => ?_⟩⟩
        · exact htake.trans (congrArg Host.Outcome.next (State.facetTake_full hroom))
        · exact htake.trans (congrArg Host.Outcome.next (State.facetTake_ais hroom hais))
        · exact htake.trans (congrArg Host.Outcome.next (State.facetTake_classed hroom hais hc))
        · exact htake.trans (congrArg Host.Outcome.next (State.facetTake_keyed hroom hais ha))

end Sys2Proof.Machine
end

section
namespace Sys2Proof.Machine

/-! Associations are created, changed, read and retired (R33, R95 to R105, R121, R130, R493 to R495, R497, R574). -/

/-! A list of checks: the first that fails gives the status. -/

/-- The command ends with the status of the first check that fails, or goes on. -/
def State.checked (s : State) (d : Desc) (l : List (Bool × Status)) (ok : State) : State :=
  match l.find? (·.1) with
  | some e => s.done d e.2
  | none => ok

section
variable {s t ok : State} {d : Desc} {l : List (Bool × Status)}

theorem State.checked_some {e : Bool × Status} (h : l.find? (·.1) = some e) : s.checked d l ok = s.done d e.2 := by
  unfold State.checked
  rw [h]

theorem State.checked_none (h : l.find? (·.1) = none) : s.checked d l ok = ok := by
  unfold State.checked
  rw [h]

theorem State.checked_cons {p : Prop} [Decidable p] {b : Bool} {st : Status} (hb : p ↔ b = true) (ht : t = s.checked d l ok) :
    (if p then s.done d st else t) = s.checked d ((b, st) :: l) ok := by
  unfold State.checked
  rw [List.find?_cons]
  cases b with
  | true => rw [if_pos (hb.mpr rfl)]
  | false =>
    rw [if_neg fun hp => Bool.noConfusion (hb.mp hp), ht]
    rfl

end

/-! What the marks of an association change (R108, R111, R112, R574). -/

/-- From s to t association h changes its status and its marks alone, stays in use, and a receive one only loses its key; no other changes. -/
structure MarksSa (h : Nat) (s t : State) : Prop where
  other : ∀ j, j ≠ h → t.sa j = s.sa j
  same : t.sa h = { s.sa h with
    status := (t.sa h).status, before := (t.sa h).before, warned := (t.sa h).warned, lowWarned := (t.sa h).lowWarned }
  used : (s.sa h).status ≠ .free → (t.sa h).status ≠ .free
  recv : (s.sa h).recv = true → (t.sa h).status = (s.sa h).status ∨ (t.sa h).status = .keyLost

section
variable {h : Nat} {s : State}

theorem MarksSa.refl (h : Nat) (s : State) : MarksSa h s s := ⟨fun _ _ => rfl, rfl, id, fun _ => .inl rfl⟩

theorem MarksSa.of_assoc {t : State} (ha : t.assoc = s.assoc) : MarksSa h s t := by
  have hsa : ∀ j, t.sa j = s.sa j := State.sa_congr ha
  refine ⟨fun j _ => hsa j, ?_, ?_, ?_⟩
  · rw [hsa]
  · rw [hsa]
    exact id
  · rw [hsa]
    exact fun _ => .inl rfl

theorem MarksSa.trans {t u : State} (hst : MarksSa h s t) (htu : MarksSa h t u) : MarksSa h s u := by
  refine ⟨fun j hj => (htu.other j hj).trans (hst.other j hj), ?_, htu.used ∘ hst.used, fun hr => ?_⟩
  · have hsame := htu.same
    rw [hst.same] at hsame
    exact hsame
  · have hrt : (t.sa h).recv = true := (congrArg Assoc.recv hst.same).trans hr
    rcases htu.recv hrt with hkeep | hlost
    · exact (hst.recv hr).imp hkeep.trans hkeep.trans
    · exact .inr hlost

/-- A change of the marks of association h. -/
theorem State.setSa_marksSa {a : Assoc} (hsame : a = { s.sa h with
    status := a.status, before := a.before, warned := a.warned, lowWarned := a.lowWarned })
    (hused : (s.sa h).status ≠ .free → a.status ≠ .free)
    (hrecv : (s.sa h).recv = true → a.status = (s.sa h).status ∨ a.status = .keyLost) : MarksSa h s (s.setSa h a) := by
  refine ⟨fun j hj => State.sa_setSa_ne _ hj _, ?_, ?_, ?_⟩
  · rw [State.sa_setSa]
    exact hsame
  · rw [State.sa_setSa]
    exact hused
  · rw [State.sa_setSa]
    exact hrecv

theorem MarksSa.raise {t : State} (hm : MarksSa h s t) (ev : Nat) (data : List Byte) : MarksSa h s (t.raise ev data) :=
  hm.trans (MarksSa.of_assoc (t.raise_assoc ev data))

theorem MarksSa.raise_if {t : State} (hm : MarksSa h s t) (c : Prop) [Decidable c] (ev : Nat) (data : List Byte) :
    MarksSa h s (if c then t.raise ev data else t) := by
  split
  · exact hm.raise ev data
  · exact hm

theorem State.enterKeyLost_marksSa (s : State) (h c : Nat) : MarksSa h s (s.enterKeyLost h c) :=
  MarksSa.raise (State.setSa_marksSa rfl (fun _ => AssocStatus.noConfusion) fun _ => .inr rfl) _ _

theorem State.bindLost_marksSa (s : State) (h : Nat) : MarksSa h s (s.bindLost h) := by
  unfold State.bindLost
  dsimp only
  split
  · exact s.enterKeyLost_marksSa h 3
  · exact MarksSa.refl h s

theorem State.atCeiling_marksSa (s : State) (h : Nat) : MarksSa h s (s.atCeiling h) := by
  unfold State.atCeiling
  dsimp only
  split
  · next hc => exact MarksSa.raise (State.setSa_marksSa rfl (fun _ => AssocStatus.noConfusion) fun hr => absurd hr hc.2.1) _ _
  · exact MarksSa.refl h s

theorem State.nextMoved_marksSa (s : State) (h : Nat) : MarksSa h s (s.nextMoved h) := by
  unfold State.nextMoved
  dsimp only
  split
  · exact MarksSa.refl h s
  · next hc =>
    refine MarksSa.trans (MarksSa.raise_if (MarksSa.raise_if (MarksSa.raise_if (State.setSa_marksSa rfl ?_ ?_) _ _ _) _ _ _) _ _ _)
      (State.atCeiling_marksSa _ h)
    · intro hused
      dsimp only
      split
      · exact AssocStatus.noConfusion
      · exact hused
    · exact fun hr => absurd hr fun hr => hc (.inl hr)

theorem State.caseClear_marksSa (s : State) (h : Nat) : MarksSa h s (s.caseClear h) := by
  unfold State.caseClear
  dsimp only
  split
  · exact MarksSa.refl h s
  · exact MarksSa.of_assoc rfl

theorem State.clearStats_assoc (s : State) (h : Nat) : (s.clearStats h).assoc = s.assoc := by
  have hw := (s.writeMem_stores .annulus 0 (s.statsAddr h) (List.replicate 64 0)).posts.assoc
  unfold State.clearStats
  split
  · next hq =>
    rw [hq] at hw
    exact hw
  · next hq =>
    rw [hq] at hw
    rw [State.raise_assoc]
    exact hw

/-- A context but for its LEAP. -/
def Assoc.noLeap (a : Assoc) : Assoc := { a with leap := 0 }

theorem Assoc.noLeap_leap (a : Assoc) (l : BitVec 32) : Assoc.noLeap { a with leap := l } = Assoc.noLeap a := rfl

theorem Assoc.eq_of_noLeap {x y : Assoc} (h : Assoc.noLeap x = Assoc.noLeap y) : x = { y with leap := x.leap } :=
  congrArg (fun a : Assoc => { a with leap := x.leap }) h

theorem State.releap_noLeap (u : State) (p : Assoc → Bool) (j : Nat) : Assoc.noLeap ((u.releap p).sa j) = Assoc.noLeap (u.sa j) := by
  unfold State.releap
  refine tget_map_of Assoc.reset Assoc.noLeap _ (fun e => ?_) u.assoc.ctx j
  split
  · exact ⟨rfl, Assoc.noLeap_leap _ _⟩
  · exact ⟨rfl, rfl⟩
/-- A new T_eff changes the LEAP of associations alone (R109, R446). -/
theorem State.retime_sa (s : State) (b : Bool) (j : Nat) : (s.retime b).sa j = { s.sa j with leap := ((s.retime b).sa j).leap } := by
  refine Assoc.eq_of_noLeap ?_
  unfold State.retime
  dsimp only
  split
  · rfl
  · rw [State.sa_congr (State.raise_assoc _ _ _)]
    exact State.releap_noLeap _ _ _

end

/-! The counter value of a new binding (R103). -/

theorem State.raised_le (s : State) (slots : List Nat) (v : Nat) : v ≤ (s.raised slots v).1 := by
  unfold State.raised
  refine List.foldlRecOn (motive := fun q : Nat × Bool => v ≤ q.1) _ _ (Nat.le_refl v) fun q hq k _ => ?_
  obtain ⟨n, f⟩ := q
  dsimp only at hq ⊢
  split
  · split
    · next hlt => exact Nat.le_trans hq (Nat.le_of_lt hlt)
    · exact hq
  · exact hq

/-! SA_CREATE (R493). -/

section
variable {d : Desc} {h v : Nat} {s : State}

/-- The checks of SA_CREATE, in order. -/
def createChecks (u : State) (h v : Nat) (a : Assoc) : List (Bool × Status) :=
  let partner := decide ((u.lport a.lp).enabled = true ∧ ((u.lport a.lp).partner.map (·.toNat)) = some a.owner.toNat)
  [(createBad v, .badRequest), (h / 8192 != u.partitionFor a || !dkInPartition a h, .wrongPartition),
    (u.twin.lease == .standby, .standby), ((u.sa h).status != .free || (a.current && u.otherCurrent h a), .inUse),
    (!a.group && !partner, .noPartner), (u.groupFull a, .groupFull),
    (u.badUsage a a.dkInUse false || (a.facet && u.badUsage a a.dkSpare true), .badUsage), (u.duplicateSci h a, .duplicateSci),
    (u.duplicateKey h a, .duplicateKey), (u.groupNoSci a, .badRequest)]

/-- The least NEXT that an image gives (R97). -/
def Assoc.baseNext (a : Assoc) : Nat := if a.next = 0 ∧ a.facet = false then 1 else a.next.toNat

/-- The NEXT of a new association, and whether a high-water value decided it (R103). -/
def State.createNext (s : State) (d : Desc) (a : Assoc) : Nat × Bool :=
  if a.recv then (a.baseNext, false)
  else s.raised (if a.facet then [a.dkA.toNat, a.dkB.toNat] else [a.dkA.toNat])
    (if bitOf d.flags 0 then a.baseNext + (if a.recv then 0 else s.leapOf a) else a.baseNext)

/-- The context that an image with NEXT n makes. -/
def State.newContext (s : State) (a : Assoc) (n : Nat) : Assoc :=
  { a.setNext n with
    leap := BitVec.ofNat 32 (if a.recv then 0 else s.leapOf a), status := if a.recv ∨ a.current then .active else .ready }

/-- The part with a new association (R493, R574). -/
def State.createdSa (s : State) (h : Nat) (x : Assoc) : State := (((((s.setSa h x).clearStats h).bindLost h).nextMoved h).caseClear h).retime false

theorem createWith_eq (d : Desc) (h v : Nat) (s : State) : createWith d h v s =
    let a := (Assoc.ofImage v).defaults
    s.checked d (createChecks s h v a) ((s.createdSa h (s.newContext a (s.createNext d a).1)).complete d
      { status := .ok, flags := b2n (s.createNext d a).2, r0 := (s.createNext d a).1 % 2 ^ 64 }) := by
  dsimp only
  unfold createWith
  generalize (Assoc.ofImage v).defaults = a
  have hbase : (if a.next = 0 ∧ ¬ a.facet = true then 1 else a.next.toNat) = a.baseNext :=
    if_congr (and_congr Iff.rfl (Bool.not_eq_true _).to_iff) rfl rfl
  refine State.checked_cons Iff.rfl (State.checked_cons (by simp) (State.checked_cons (by simp) (State.checked_cons (by simp)
    (State.checked_cons (by simp only [Bool.and_eq_true, Bool.not_eq_true', decide_eq_false_iff_not, Bool.not_eq_true])
      (State.checked_cons Iff.rfl (State.checked_cons (by simp) (State.checked_cons Iff.rfl
        (State.checked_cons Iff.rfl (State.checked_cons Iff.rfl ?_)))))))))
  rw [hbase]
  rfl

theorem State.baseNext_le_createNext (s : State) (d : Desc) (a : Assoc) : a.baseNext ≤ (s.createNext d a).1 := by
  unfold State.createNext
  split
  · exact Nat.le_refl _
  · refine Nat.le_trans ?_ (s.raised_le _ _)
    split
    · exact Nat.le_add_right _ _
    · exact Nat.le_refl _

/-- Marks, then a new LEAP. -/
theorem marks_then_leap {x y z : Assoc} (hy : y = { x with
    status := y.status, before := y.before, warned := y.warned, lowWarned := y.lowWarned }) (hz : z = { y with leap := z.leap }) :
    z = { x with status := z.status, before := z.before, warned := z.warned, lowWarned := z.lowWarned, leap := z.leap } := by
  have hstatus : z.status = y.status := by rw [hz]
  have hbefore : z.before = y.before := by rw [hz]
  have hwarned : z.warned = y.warned := by rw [hz]
  have hlow : z.lowWarned = y.lowWarned := by rw [hz]
  rw [hstatus, hbefore, hwarned, hlow]
  exact hz.trans (congrArg (fun a : Assoc => { a with leap := z.leap }) hy)

/-- What stands of an association once it is created: its image's fields, in a state of Table 4.2. -/
theorem State.createdSa_spec (s : State) (h : Nat) (x : Assoc) (hfree : x.status ≠ .free) (hrecv : x.recv = true → x.status = .active) :
    (s.createdSa h x).sa h = { x with
      status := ((s.createdSa h x).sa h).status, before := ((s.createdSa h x).sa h).before, warned := ((s.createdSa h x).sa h).warned
      lowWarned := ((s.createdSa h x).sa h).lowWarned, leap := ((s.createdSa h x).sa h).leap } ∧
    ((s.createdSa h x).sa h).status ≠ .free ∧
    (x.recv = true → ((s.createdSa h x).sa h).status = .active ∨ ((s.createdSa h x).sa h).status = .keyLost) ∧
    ∀ j, j ≠ h → (s.createdSa h x).sa j = { s.sa j with leap := ((s.createdSa h x).sa j).leap } := by
  have hmarks : MarksSa h (s.setSa h x) ((((((s.setSa h x).clearStats h).bindLost h).nextMoved h).caseClear h)) :=
    (((MarksSa.of_assoc (State.clearStats_assoc _ h)).trans (State.bindLost_marksSa _ h)).trans (State.nextMoved_marksSa _ h)).trans
      (State.caseClear_marksSa _ h)
  have hleap := State.retime_sa ((((((s.setSa h x).clearStats h).bindLost h).nextMoved h).caseClear h)) false
  unfold State.createdSa
  generalize (((((s.setSa h x).clearStats h).bindLost h).nextMoved h).caseClear h) = u at hmarks hleap ⊢
  obtain ⟨hother, hsame, hused, hkept⟩ := hmarks
  rw [State.sa_setSa] at hsame hused hkept
  have hstatus := congrArg Assoc.status (hleap h)
  refine ⟨?_, ?_, fun hr => ?_, fun j hj => ?_⟩
  · exact marks_then_leap hsame (hleap h)
  · rw [hstatus]
    exact hused hfree
  · rw [hstatus]
    exact (hkept hr).imp (fun hk => hk.trans (hrecv hr)) id
  · have hj' := hleap j
    rw [hother j hj, State.sa_setSa_ne _ hj] at hj'
    exact hj'

theorem State.newContext_status (s : State) (a : Assoc) (n : Nat) : (s.newContext a n).status ≠ .free ∧
    (a.recv = true → (s.newContext a n).status = .active) := by
  unfold State.newContext
  refine ⟨?_, fun hr => if_pos (.inl hr)⟩
  dsimp only
  split <;> exact AssocStatus.noConfusion

end

/-! SA_MODIFY (R494). -/

section
variable {d : Desc} {h m v : Nat} {s : State}

/-- The DK slots that a modification binds. -/
def modifySlots (a : Assoc) (m : Nat) : List Nat :=
  (if bitOf m 0 then [a.dkA.toNat] else []) ++ (if bitOf m 1 && a.facet then [a.dkB.toNat] else [])

/-- The NEXT that a modification asks for. -/
def modifyAsk (old b : Assoc) (m : Nat) : Nat := if bitOf m 9 then b.next.toNat else old.nextN

/-- The checks of SA_MODIFY, in order. -/
def modifyChecks (u : State) (h m v : Nat) (b old a : Assoc) : List (Bool × Status) :=
  [((bitOf m 0 && bits v 0x31 15 != 0) || (bitOf m 1 && bits v 0x51 15 != 0) ||
      (bitOf m 2 && 1 < bits v 17 2), .badRequest), ((modifySlots a m).any fun k => k / 8192 != h / 8192, .wrongPartition),
    (u.twin.lease == .standby, .standby), (old.status == .free, .notFound), (u.rotating h, .inUse),
    ((modifySlots a m).any fun k => u.badUsage a k (a.facet && k == a.dkSpare && k != a.dkInUse), .badUsage),
    (decide (modifyAsk old b m < old.nextN), .counterLower), (bitOf m 0 && u.duplicateKey h a, .duplicateKey),
    ((bitOf m 1 && !a.facet && b.dkB != 0) || (bitOf m 8 && a.xpn && 0x40000000 < a.window.toNat), .badRequest)]

/-- The NEXT of a modified association, and whether a high-water value decided it (R103). -/
def State.modifyNext (s : State) (a : Assoc) (slots : List Nat) (next : Nat) : Nat × Bool := if a.recv then (next, false) else s.raised slots next

/-- The context with its NEXT. -/
def movedTo (old a : Assoc) (n : Nat) : Assoc := if n = old.nextN then a else a.setNext n

/-- An association leaves RESERVE_WAIT where its NEXT lies below its ceiling (Table 4.2). -/
def leavesWait (a : Assoc) : Assoc :=
  if a.status = .reserveWait ∧ (a.ceiling = 0 ∨ a.nextN < a.ceiling.toNat) then { a with status := if a.current then .active else .ready } else a

/-- An association leaves KEY_LOST where a new binding gives it a key (Table 4.2). -/
def State.findsKey (s : State) (slots : List Nat) (a : Assoc) : Assoc :=
  if a.status = .keyLost ∧ ¬ slots.isEmpty ∧ s.dkValid a.dkInUse then
    { a with status := if a.recv ∨ a.before ≠ .ready then .active else .ready } else a

/-- The part with a modified association. -/
def State.modified (s : State) (h : Nat) (slots : List Nat) (x : Assoc) : State :=
  ((if slots.isEmpty then s.setSa h x else (s.setSa h x).bindLost h).nextMoved h).caseClear h

theorem modifyWith_eq (d : Desc) (h m v : Nat) (s : State) : modifyWith d h m v s =
    let b := Assoc.ofImage v
    let old := s.sa h
    let a := (old.merge m b).defaults
    let slots := modifySlots a m
    let q := s.modifyNext a slots (modifyAsk old b m)
    s.checked d (modifyChecks s h m v b old a) ((s.modified h slots (s.findsKey slots (leavesWait (movedTo old a q.1)))).complete d
      { status := .ok, flags := b2n q.2, r0 := q.1 % 2 ^ 64 }) := by
  unfold modifyWith
  dsimp only
  generalize Assoc.ofImage v = b
  generalize ((s.sa h).merge m b).defaults = a
  have hslots : ((if bitOf m 0 = true then [a.dkA.toNat] else []) ++ if bitOf m 1 = true ∧ a.facet = true then [a.dkB.toNat] else []) = modifySlots a m :=
    congrArg _ (if_congr (Bool.and_eq_true _ _).to_iff.symm rfl rfl)
  rw [hslots]
  refine State.checked_cons (by simp [or_assoc]) (State.checked_cons Iff.rfl (State.checked_cons (by simp) (State.checked_cons (by simp)
    (State.checked_cons Iff.rfl (State.checked_cons Iff.rfl (State.checked_cons decide_eq_true_iff.symm (State.checked_cons (by simp)
      (State.checked_cons (by simp [and_assoc]) rfl))))))))

theorem State.modifyNext_le (s : State) (a : Assoc) (slots : List Nat) (next : Nat) : next ≤ (s.modifyNext a slots next).1 := by
  unfold State.modifyNext
  split
  · exact Nat.le_refl next
  · exact s.raised_le slots next

theorem State.modifyNext_nil (s : State) (a : Assoc) (next : Nat) : (s.modifyNext a [] next).1 = next := by
  unfold State.modifyNext
  split <;> rfl

theorem leavesWait_eq (a : Assoc) : leavesWait a = { a with status := (leavesWait a).status } := by
  unfold leavesWait
  split <;> rfl

theorem State.findsKey_eq (s : State) (slots : List Nat) (a : Assoc) : s.findsKey slots a = { a with status := (s.findsKey slots a).status } := by
  unfold State.findsKey
  split <;> rfl

theorem State.modified_marksSa (s : State) (h : Nat) (slots : List Nat) (x : Assoc) : MarksSa h (s.setSa h x) (s.modified h slots x) := by
  refine (MarksSa.trans ?_ (State.nextMoved_marksSa _ h)).trans (State.caseClear_marksSa _ h)
  split
  · exact MarksSa.refl h _
  · exact State.bindLost_marksSa _ h

/-- New fields, then marks. -/
theorem moved_then_marks {a x y : Assoc} {nx : BitVec 64} {sp : Bool} (hx : x = { a with next := nx, spent := sp, status := x.status }) (hy : y = { x with
    status := y.status, before := y.before, warned := y.warned, lowWarned := y.lowWarned }) :
    y = { a with next := y.next, spent := y.spent, status := y.status, before := y.before, warned := y.warned, lowWarned := y.lowWarned } := by
  have hnext : y.next = nx := by rw [hy, hx]
  have hspent : y.spent = sp := by rw [hy, hx]
  rw [hnext, hspent]
  exact hy.trans (congrArg (fun z : Assoc => { z with
    status := y.status, before := y.before, warned := y.warned, lowWarned := y.lowWarned }) hx)

/-- What stands of a modified association: the fields it takes, and its NEXT. -/
theorem State.modified_spec (s : State) (h : Nat) (slots : List Nat) {a x : Assoc} {nx : BitVec 64} {sp : Bool}
    (hx : x = { a with next := nx, spent := sp, status := x.status }) :
    ((s.modified h slots x).sa h).next = nx ∧
    (s.modified h slots x).sa h = { a with
      next := ((s.modified h slots x).sa h).next, spent := ((s.modified h slots x).sa h).spent
      status := ((s.modified h slots x).sa h).status, before := ((s.modified h slots x).sa h).before
      warned := ((s.modified h slots x).sa h).warned, lowWarned := ((s.modified h slots x).sa h).lowWarned } ∧
    ∀ j, j ≠ h → (s.modified h slots x).sa j = s.sa j := by
  obtain ⟨hother, hsame, -, -⟩ := s.modified_marksSa h slots x
  rw [State.sa_setSa] at hsame
  exact ⟨(congrArg Assoc.next hsame :).trans (by rw [hx]), moved_then_marks hx hsame, fun j hj => (hother j hj).trans (State.sa_setSa_ne _ hj _)⟩

/-- The context that a modification gives differs from its fields by NEXT and status. -/
theorem State.modifiedContext_eq (s : State) (slots : List Nat) (old a : Assoc) (n : Nat) :
    s.findsKey slots (leavesWait (movedTo old a n)) = { a with
      next := (movedTo old a n).next, spent := (movedTo old a n).spent, status := (s.findsKey slots (leavesWait (movedTo old a n))).status } := by
  have hmove : movedTo old a n = { a with next := (movedTo old a n).next, spent := (movedTo old a n).spent } := by
    unfold movedTo
    split <;> rfl
  have hkey := s.findsKey_eq slots (leavesWait (movedTo old a n))
  have hwait := leavesWait_eq (movedTo old a n)
  have hstatus : ∀ st, ({ leavesWait (movedTo old a n) with status := st } : Assoc) = { movedTo old a n with status := st } := fun st =>
    congrArg (fun x : Assoc => { x with status := st }) hwait
  exact hkey.trans ((hstatus _).trans (congrArg (fun x : Assoc => { x with
    status := (s.findsKey slots (leavesWait (movedTo old a n))).status }) hmove))

theorem movedTo_next (old a : Assoc) (n : Nat) (hnext : a.next = old.next) :
    (n ≠ old.nextN → (movedTo old a n).next = BitVec.ofNat 64 n) ∧ (n = old.nextN → (movedTo old a n).next = old.next) := by
  unfold movedTo
  exact ⟨fun h => by rw [if_neg h]; rfl, fun h => by rw [if_pos h, hnext]⟩

end

/-! SA_RETIRE, SA_READ and the end of a retirement (R98, R99, R121, R495, R497). -/

section
variable {d : Desc} {s s0 : State}

section
variable (hh : saHandle d < 2 ^ 17)
include hh

theorem retireBody_standby (hlease : s.twin.lease = .standby) : retireBody d s = s.done d .standby :=
  (if_neg (Nat.not_le.mpr hh)).trans (if_pos hlease)

variable (hlease : s.twin.lease ≠ .standby)
include hlease

theorem retireBody_free (hst : (s.sa (saHandle d)).status = .free) : retireBody d s = s.done d .notFound :=
  (if_neg (Nat.not_le.mpr hh)).trans ((if_neg hlease).trans (if_pos hst))

theorem retireBody_retiring (hst : (s.sa (saHandle d)).status = .retiring) : retireBody d s =
    s.setSa (saHandle d) { s.sa (saHandle d) with retireCmds := (s.sa (saHandle d)).retireCmds ++ [d] } :=
  (if_neg (Nat.not_le.mpr hh)).trans ((if_neg hlease).trans ((if_neg (by rw [hst]; exact AssocStatus.noConfusion)).trans (if_pos hst)))

theorem retireBody_live (hfree : (s.sa (saHandle d)).status ≠ .free) (hret : (s.sa (saHandle d)).status ≠ .retiring) : retireBody d s =
    if s.rotating (saHandle d) || (!(s.sa (saHandle d)).recv && (s.sa (saHandle d)).current && (s.lport (s.sa (saHandle d)).lp).enabled) then
      s.done d .inUse
    else s.setSa (saHandle d) { s.sa (saHandle d) with status := .retiring, retireCmds := [d] } := by
  refine (if_neg (Nat.not_le.mpr hh)).trans ((if_neg hlease).trans ((if_neg hfree).trans ((if_neg hret).trans ?_)))
  refine if_congr ?_ rfl rfl
  simp [and_assoc]

end

theorem exec_sa_locked (h : s.lockedOut d (saHandle d) = true) :
    exec (.saRetire d) s = .next s ∧ exec (.saCreate d) s = .next s ∧ exec (.saModify d) s = .next s := ⟨if_pos h, if_pos h, if_pos h⟩

theorem exec_retirementEnd_ends {h : BitVec 17} (hst : (s.sa h.toNat).status = .retiring) (hfl : (s.sa h.toNat).inFlight = 0) :
    exec (.retirementEnd h) s = .next ((s.sa h.toNat).retireCmds.foldl (fun u d => u.complete d { status := .ok, flags := b2n (s.fold h.toNat).1 })
      (((((s.fold h.toNat).2.setSa h.toNat Assoc.reset).noteFreed h.toNat).caseClear h.toNat).retime false)) := by
  show execRetirementEnd h s = _
  unfold execRetirementEnd
  dsimp only
  rw [if_neg]
  exact fun hno => hno.elim (fun hno => hno hst) fun hno => hno hfl

theorem exec_retirementEnd_rests {h : BitVec 17} (hno : (s.sa h.toNat).status ≠ .retiring ∨ (s.sa h.toNat).inFlight ≠ 0) :
    exec (.retirementEnd h) s = .next s := if_pos hno

theorem State.saImage_eq (s : State) (h : Nat) : ((s.sa h).status = .free → s.saImage h = List.replicate 192 0) ∧
    ((s.sa h).status ≠ .free → s.saImage h = le 128 (s.sa h).image ++
      (List.range 8).flatMap fun i => le 8 (leAt (s.mem.get (s.statsAddr h) 64) (8 * i) 8 + (tget 0 (s.sa h).delta i).toNat)) :=
  ⟨fun hfree => if_pos hfree, fun hused => if_neg hused⟩

end

section
variable {d : Desc} {s s0 : State} (hlock : s.lockedOut d (saHandle d) = false)
include hlock

theorem exec_saCreate_row (hacc : Accepted d 1 [(8, 4), (0x10, 8)] s s0) (hh : saHandle d < 2 ^ 17) {bs : List Byte}
    (hq : (s0.readMem .annulus (ringOwner d.ring.val) (d.get 0x10 8) 128).1 = .data bs) :
    exec (.saCreate d) s = .next (createWith d (saHandle d) (leNat bs) (s0.readMem .annulus (ringOwner d.ring.val) (d.get 0x10 8) 128).2) := by
  show execSaCreate d s = _
  unfold execSaCreate
  rw [if_neg (Bool.eq_false_iff.mp hlock), ringCommand_accepts hacc, if_neg (Nat.not_le.mpr hh), State.withBuf_of_data hq]

theorem exec_saModify_row (hacc : Accepted d 0 [(8, 8), (0x10, 8)] s s0) (hh : saHandle d < 2 ^ 17) (hm : d.get 0xC 4 < 1024) {bs : List Byte}
    (hq : (s0.readMem .annulus (ringOwner d.ring.val) (d.get 0x10 8) 128).1 = .data bs) :
    exec (.saModify d) s =
      .next (modifyWith d (saHandle d) (d.get 0xC 4) (leNat bs) (s0.readMem .annulus (ringOwner d.ring.val) (d.get 0x10 8) 128).2) := by
  show execSaModify d s = _
  unfold execSaModify
  rw [if_neg (Bool.eq_false_iff.mp hlock), ringCommand_accepts hacc, if_neg (by omega), State.withBuf_of_data hq]

theorem exec_saModify_badMask (hacc : Accepted d 0 [(8, 8), (0x10, 8)] s s0) (hm : 1024 ≤ d.get 0xC 4) :
    exec (.saModify d) s = .next (s0.done d .badRequest) := by
  show execSaModify d s = _
  unfold execSaModify
  rw [if_neg (Bool.eq_false_iff.mp hlock), ringCommand_accepts hacc, if_pos (.inr hm)]

theorem exec_saRetire_row (hacc : Accepted d 0 [(8, 4)] s s0) : exec (.saRetire d) s = .next (retireBody d s0) :=
  (if_neg (Bool.eq_false_iff.mp hlock)).trans (congrArg Host.Outcome.next (ringCommand_accepts hacc _))

end

/-- Settles O20: the checks in their order, and what stands of the association after its marks. -/
theorem associationsAreCreatedReadAndRetired : Obligations.AssociationsAreCreatedReadAndRetired := by
  unfold Obligations.AssociationsAreCreatedReadAndRetired
  refine ⟨fun d s s0 hlock hh => ⟨fun bs hq hacc => ?_, fun bs hq hm hacc => ?_, fun hm hacc => exec_saModify_badMask hlock hacc hm⟩,
    fun s s0 => ⟨fun d hlock hacc hh => ?_, fun d => exec_sa_locked, fun h => exec_retirementEnd_ends, fun h => exec_retirementEnd_rests,
      fun d hacc => ⟨fun hh => ?_, fun hh => ?_⟩, s.saImage_eq⟩⟩
  · have hrow := exec_saCreate_row hlock hacc hh hq
    generalize (s0.readMem .annulus (ringOwner d.ring.val) (d.get 0x10 8) 128).2 = u at hrow ⊢
    rw [createWith_eq] at hrow
    refine ⟨fun e he => hrow.trans (congrArg Host.Outcome.next (State.checked_some he)), fun hok => ?_⟩
    generalize ha : (Assoc.ofImage (leNat bs)).defaults = a at hrow hok ⊢
    obtain ⟨hfree, hrecv⟩ := u.newContext_status a (u.createNext d a).1
    obtain ⟨hsa, hused, hstatus, hother⟩ := u.createdSa_spec (saHandle d) (u.newContext a (u.createNext d a).1) hfree hrecv
    exact ⟨_, _, _, hrow.trans (congrArg Host.Outcome.next (State.checked_none hok)), u.baseNext_le_createNext d a,
      (congrArg Assoc.next hsa :), hused, hstatus, (congrArg Assoc.dkA hsa :), (congrArg Assoc.dkB hsa :), (congrArg Assoc.sci hsa :),
      (congrArg Assoc.recv hsa :), (congrArg Assoc.suite hsa :), (congrArg Assoc.current hsa :), (congrArg Assoc.warn hsa :), (congrArg Assoc.window hsa :),
      fun j hj => ⟨(congrArg Assoc.next (hother j hj) :), (congrArg Assoc.status (hother j hj) :), (congrArg Assoc.dkA (hother j hj) :)⟩⟩
  · have hrow := exec_saModify_row hlock hacc hh hm hq
    generalize (s0.readMem .annulus (ringOwner d.ring.val) (d.get 0x10 8) 128).2 = u at hrow ⊢
    rw [modifyWith_eq] at hrow
    refine ⟨fun e he => hrow.trans (congrArg Host.Outcome.next (State.checked_some he)), fun hok => ?_⟩
    have hdone := hrow.trans (congrArg Host.Outcome.next (State.checked_none hok))
    generalize hb : Assoc.ofImage (leNat bs) = b at hdone ⊢
    have hsame : (((u.sa (saHandle d)).merge (d.get 0xC 4) b).defaults).next = (u.sa (saHandle d)).next := rfl
    generalize ((u.sa (saHandle d)).merge (d.get 0xC 4) b).defaults = a at hdone hsame ⊢
    generalize hn : u.modifyNext a (modifySlots a (d.get 0xC 4)) (modifyAsk (u.sa (saHandle d)) b (d.get 0xC 4)) = q at hdone
    obtain ⟨hnext, hsa, hother⟩ := u.modified_spec (saHandle d) (modifySlots a (d.get 0xC 4))
      (u.modifiedContext_eq (modifySlots a (d.get 0xC 4)) (u.sa (saHandle d)) a q.1)
    obtain ⟨hmove, hkeep⟩ := movedTo_next (u.sa (saHandle d)) a q.1 hsame
    refine ⟨_, _, _, hdone, ?_, fun hnil => ?_, fun hne => hnext.trans ?_, fun heq => hnext.trans ?_, hsa, hother⟩
    · rw [← hn]
      exact State.modifyNext_le _ _ _ _
    · rw [← hn, show modifySlots a (d.get 0xC 4) = [] from hnil]
      exact State.modifyNext_nil _ _ _
    · exact hmove hne
    · exact hkeep heq
  · have hrow := exec_saRetire_row hlock hacc
    rw [hrow]
    refine ⟨fun hl => by rw [retireBody_standby hh hl], fun hl hst => by rw [retireBody_free hh hl hst],
      fun hl hst => by rw [retireBody_retiring hh hl hst], fun hl hfree hret => ?_⟩
    rw [retireBody_live hh hl hfree hret]
    exact ⟨fun h => by rw [if_pos h], fun h => by rw [if_neg (Bool.eq_false_iff.mp h)]⟩
  · exact congrArg Host.Outcome.next ((ringCommand_accepts hacc _).trans (if_neg (Nat.not_le.mpr hh)))
  · exact congrArg Host.Outcome.next ((ringCommand_accepts hacc _).trans (if_pos hh))

end Sys2Proof.Machine
end

section
namespace Sys2Proof.Machine

/-! Holds, context locks, statistics and rotations (R100, R113 to R117, R120, R121, R496). -/

section
variable {s : State}

/-! Holds, leases and folds. -/

theorem exec_overlapHoldExpiry_none {h : BitVec 17} (hdue : (s.sa h.toNat).overlapDue = none) : exec (.overlapHoldExpiry h) s = .next s := by
  show execOverlapHoldExpiry h s = _
  unfold execOverlapHoldExpiry
  dsimp only
  rw [hdue]

/-- What the end of an overlap hold does at its time (R117). -/
def State.holdEnds (u : State) (h : Nat) : State :=
  let a := u.sa h
  if a.status = .free ∨ a.status = .retiring then u.setSa h { a with overlapDue := none }
  else if a.facet then
    (u.setSa h { a with
      overlapDue := none, expired := some (!a.phase, (u.slot (slotKey 0 (if a.phase then a.dkA.toNat else a.dkB.toNat))).gen) }).raise 0x127 (le 4 h)
  else (u.setSa h { a with overlapDue := none, status := .retiring }).raise 0x127 (le 4 h)

theorem exec_overlapHoldExpiry_due {h : BitVec 17} {t0 : Nat} (hdue : (s.sa h.toNat).overlapDue = some t0) :
    exec (.overlapHoldExpiry h) s = .next ((s.passTo t0).holdEnds h.toNat) := by
  show execOverlapHoldExpiry h s = _
  unfold execOverlapHoldExpiry
  dsimp only
  rw [hdue]
  unfold State.holdEnds
  dsimp only
  rw [apply_ite Host.Outcome.next, apply_ite Host.Outcome.next]

theorem State.holdEnds_gone {h : Nat} (hst : (s.sa h).status = .free ∨ (s.sa h).status = .retiring) :
    s.holdEnds h = s.setSa h { s.sa h with overlapDue := none } := if_pos hst

section
variable {h : Nat} (hfree : (s.sa h).status ≠ .free) (hret : (s.sa h).status ≠ .retiring)
include hfree hret

theorem State.holdEnds_macsec (hm : (s.sa h).facet = false) :
    s.holdEnds h = (s.setSa h { s.sa h with overlapDue := none, status := .retiring }).raise 0x127 (le 4 h) :=
  (if_neg fun hno => hno.elim hfree hret).trans (if_neg (Bool.eq_false_iff.mp hm))

theorem State.holdEnds_facet (hf : (s.sa h).facet = true) :
    ∃ e, s.holdEnds h = (s.setSa h { s.sa h with overlapDue := none, expired := some (!(s.sa h).phase, e) }).raise 0x127 (le 4 h) :=
  ⟨_, (if_neg fun hno => hno.elim hfree hret).trans (if_pos hf)⟩

end

theorem exec_contextLockLeaseExpiry_none {h : BitVec 17} (hl : s.assoc.locks.lookup h.toNat = none) : exec (.contextLockLeaseExpiry h) s = .next s := by
  show execContextLockLeaseExpiry h s = _
  unfold execContextLockLeaseExpiry
  rw [hl]

theorem exec_contextLockLeaseExpiry_some {h : BitVec 17} {o t0 : Nat} (hl : s.assoc.locks.lookup h.toNat = some (o, t0)) :
    let u := s.passTo t0
    exec (.contextLockLeaseExpiry h) s =
      .next ((({ u with assoc := { u.assoc with locks := tdel u.assoc.locks h.toNat } }).raise 0x12A (le 4 h.toNat ++ le 2 o)).wake (h.toNat / 8192)) := by
  show execContextLockLeaseExpiry h s = _
  unfold execContextLockLeaseExpiry
  rw [hl]

/-- The counter block of an association with its deltas added (R121). -/
def State.foldedStats (s : State) (h : Nat) : List Byte :=
  (List.range 8).flatMap fun i => le 8 (leAt (s.mem.get (s.statsAddr h) 64) (8 * i) 8 + (tget 0 (s.sa h).delta i).toNat)

theorem State.fold_written {h : Nat} (hw : (s.writeMem .annulus 0 (s.statsAddr h) (s.foldedStats h)).1 = true) :
    (s.fold h).2 = (s.writeMem .annulus 0 (s.statsAddr h) (s.foldedStats h)).2.setSa h
      { (s.writeMem .annulus 0 (s.statsAddr h) (s.foldedStats h)).2.sa h with delta := [] } := by
  unfold State.fold
  dsimp only
  rw [show s.writeMem .annulus 0 (s.statsAddr h) (List.flatMap (fun i => le 8 (leAt (s.mem.get (s.statsAddr h) 64) (8 * i) 8 +
    (tget 0 (s.sa h).delta i).toNat)) (List.range 8)) = (true, (s.writeMem .annulus 0 (s.statsAddr h) (s.foldedStats h)).2) from Prod.ext hw rfl]

theorem State.fold_refused {h : Nat} (hw : (s.writeMem .annulus 0 (s.statsAddr h) (s.foldedStats h)).1 = false) :
    (s.fold h).2 = (s.writeMem .annulus 0 (s.statsAddr h) (s.foldedStats h)).2.raise 0x12C (le 4 h) := by
  unfold State.fold
  dsimp only
  rw [show s.writeMem .annulus 0 (s.statsAddr h) (List.flatMap (fun i => le 8 (leAt (s.mem.get (s.statsAddr h) 64) (8 * i) 8 +
    (tget 0 (s.sa h).delta i).toNat)) (List.range 8)) = (false, (s.writeMem .annulus 0 (s.statsAddr h) (s.foldedStats h)).2) from Prod.ext hw rfl]

end

/-! SA_ROTATE (R113, R496). -/

section
variable {d : Desc} {s s0 : State} {n : Nat} {bs : List Byte}

/-- The fields of an SA_ROTATE that its body checks are in range. -/
structure RotateFields (d : Desc) : Prop where
  begins : bitOf d.flags 1 = false
  some : 1 ≤ d.get 0x10 4
  most : d.get 0x10 4 ≤ 131072
  trigger : d.get 0x14 1 ≤ 1
  noPn : d.get 0x14 1 = 0 → d.get 0x18 8 = 0
  noTime : d.get 0x14 1 = 1 → d.get 0x20 10 = 0

theorem exec_saRotate_row (hacc : Accepted d 2 [(8, 13), (0x18, 8), (0x20, 10)] s s0) (hf : RotateFields d)
    (hq : (s0.readMem .annulus (ringOwner d.ring.val) (d.get 8 8) (8 * d.get 0x10 4)).1 = .data bs) : exec (.saRotate d) s =
      .next (rotateWith d (d.get 0x10 4) bs (s0.readMem .annulus (ringOwner d.ring.val) (d.get 8 8) (8 * d.get 0x10 4)).2) := by
  show execSaRotate d s = _
  unfold execSaRotate
  rw [ringCommand_accepts hacc]
  dsimp only
  rw [if_neg, State.withBuf_of_data hq]
  obtain ⟨hbegin, hsome, hmost, htrig, hpn, htime⟩ := hf
  rintro (h | h | h | h | ⟨h, hne⟩ | ⟨h, hne⟩)
  · exact Bool.eq_false_iff.mp hbegin h
  · omega
  · omega
  · omega
  · exact hne (hpn h)
  · exact hne (htime h)

/-- The trigger of a rotation is out of range for its entries (R113). -/
def rotateBad (d : Desc) (es : List (Nat × Nat × Bool)) : Bool :=
  if d.get 0x14 1 = 1 then d.get 0x18 8 == 0 || (d.get 0x18 8 % 256 != 0 && es.any fun e => e.2.2 || e.1 == e.2.1)
  else decide (999999999 < d.get 0x26 4)

/-- The rotation that an SA_ROTATE begins. -/
def newRotation (d : Desc) (es : List (Nat × Nat × Bool)) (clk : Nat) : Rotation :=
  { desc := some d, name := (d.ring.val, d.tag), entries := es.map fun e => (e.1, e.2.1)
    phases := (es.filter (·.2.2)).map fun e => (e.1, e.2.1), trigger := rotTrigger d
    armedAt := clk + 10 * d.get 0x10 4, armed := false, total := d.get 0x10 4, switched := [] }

theorem rotateWith_none (h : rotEntries n bs = none) : rotateWith d n bs s = s.done d .badRequest := by
  unfold rotateWith
  rw [h]

theorem rotateWith_some {es : List (Nat × Nat × Bool)} (h : rotEntries (d.get 0x10 4) bs = some es) : rotateWith d (d.get 0x10 4) bs s =
    if rotateBad d es then s.done d .badRequest
    else if s.twin.lease = .standby then s.done d .standby
    else { s with assoc := { s.assoc with
      rots := s.assoc.rots ++ [newRotation d es s.clk], fired := s.assoc.fired.filter (· != (d.ring.val, d.tag)) } } := by
  have hbad : (match rotTrigger d with
      | .pn v => v == 0 || (v % 256 != 0 && es.any fun e => e.2.2 || e.1 == e.2.1)
      | .time _ => decide (999999999 < d.get 0x26 4)) = rotateBad d es := by
    unfold rotTrigger rotateBad
    by_cases hpn : d.get 0x14 1 = 1
    · rw [if_pos hpn, if_pos hpn]
    · rw [if_neg hpn, if_neg hpn]
  unfold rotateWith
  rw [h]
  dsimp only
  rw [← hbad]
  rfl

end

/-! The end of arming (R114, R116). -/

section
variable {s : State} {ring : Fin 64} {tag : BitVec 16} {r : Rotation} {d : Desc}

/-- What the end of arming does of a rotation whose list stands (R114, R116). -/
def State.armsRotation (u : State) (r : Rotation) (d : Desc) : Out :=
  match u.firstBad 0 [] r.listForm with
  | some i => .next ((u.putRotation r none).complete d { status := .invalidPair, r0 := i })
  | none =>
    match r.trigger with
    | .time t =>
      if t < u.gnomon.time + 10000 then .next ((u.putRotation r none).done d .tooLate)
      else .next (r.entries.foldl (armEntry r.trigger) (u.putRotation r (some { r with armed := true })))
    | .pn _ =>
      .next ((r.entries.foldl (armEntry r.trigger) (u.putRotation r (some { r with armed := true, desc := none }))).complete d { status := .ok, r0 := 0 })

theorem exec_rotationArmed_some (h : (s.assoc.rots.find? fun r => !r.armed && r.name == (ring.val, tag.toNat)) = some r) (hd : r.desc = some d) :
    exec (.rotationArmed ring tag) s = (s.passTo r.armedAt).armsRotation r d := by
  show execRotationArmed ring tag s = _
  unfold execRotationArmed
  rw [h]
  dsimp only
  split
  · next hnone =>
    exact absurd (hd.symm.trans hnone) (Option.some_ne_none d)
  · next c hc =>
    obtain rfl : c = d := Option.some.inj (hc.symm.trans hd)
    generalize s.passTo r.armedAt = u
    rfl

theorem exec_rotationArmed_none (h : (s.assoc.rots.find? fun r => !r.armed && r.name == (ring.val, tag.toNat)) = none) :
    exec (.rotationArmed ring tag) s = .next s := by
  show execRotationArmed ring tag s = _
  unfold execRotationArmed
  rw [h]

theorem State.armsRotation_bad {i : Nat} (h : s.firstBad 0 [] r.listForm = some i) :
    s.armsRotation r d = .next ((s.putRotation r none).complete d { status := .invalidPair, r0 := i }) := by
  unfold State.armsRotation
  rw [h]

theorem State.armsRotation_time {t0 : Nat} (h : s.firstBad 0 [] r.listForm = none) (ht : r.trigger = .time t0) : s.armsRotation r d =
    if t0 < s.gnomon.time + 10000 then .next ((s.putRotation r none).done d .tooLate)
    else .next (r.entries.foldl (armEntry (.time t0)) (s.putRotation r (some { r with armed := true }))) := by
  unfold State.armsRotation
  rw [h]
  dsimp only
  split
  · next t hr =>
    obtain rfl : t = t0 := by
      rw [ht] at hr
      exact (RotTrigger.time.inj hr).symm
    rw [hr]
  · next v hr =>
    rw [ht] at hr
    exact RotTrigger.noConfusion hr

theorem State.armsRotation_pn {v : Nat} (h : s.firstBad 0 [] r.listForm = none) (ht : r.trigger = .pn v) : s.armsRotation r d =
    .next ((r.entries.foldl (armEntry (.pn v)) (s.putRotation r (some { r with armed := true, desc := none }))).complete d
      { status := .ok, r0 := 0 }) := by
  unfold State.armsRotation
  rw [h]
  dsimp only
  split
  · next t hr =>
    rw [ht] at hr
    exact RotTrigger.noConfusion hr
  · next w hr => rw [ht]

theorem exec_rotationTimeTrigger_named {t0 : Nat} (h : (s.assoc.rots.find? fun r => r.armed && r.name == (ring.val, tag.toNat)) = some r)
    (ht : r.trigger = .time t0) : exec (.rotationTimeTrigger ring tag) s = .next ((s.passToTime t0).fireRotation r) := by
  show execRotationTimeTrigger ring tag s = _
  unfold execRotationTimeTrigger
  dsimp only
  rw [h]
  dsimp only [Option.isSome]
  split
  · next hno => exact absurd hno (by simp)
  · next r' hr =>
    obtain rfl : r = r' := by simpa using hr
    split
    · next v hv =>
      rw [ht] at hv
      exact RotTrigger.noConfusion hv
    · next t hv =>
      rw [ht] at hv
      rw [RotTrigger.time.inj hv]

/-! The switch of a MACsec entry (R115, R116). -/

section
variable {fr dst : Nat} {pn : Option Nat}

/-- The from-association of an entry that switches. -/
def Assoc.switchedFrom (a : Assoc) (pn : Option Nat) : Assoc :=
  let wait := pn.isNone && a.status == .active && decide (0 < a.untaken)
  { a with
    current := false, left := pn, leaving := wait
    status := if a.status = .active ∧ ¬ wait then .ready else a.status
    before := if a.status = .keyLost then .ready else a.before }

theorem State.switchEntry_switches (hne : fr ≠ dst) (hmay : s.mayBecomeCurrent (s.sa fr).disarm (s.sa dst) = true) :
    s.switchEntry fr dst pn = (true, ((s.setSa fr (s.sa fr).disarm |>.setSa fr ((s.sa fr).disarm.switchedFrom pn)).setSa dst
      { s.sa dst with current := true, status := .active, left := none }).atCeiling dst) := by
  unfold State.switchEntry
  dsimp only
  rw [State.sa_setSa, State.sa_setSa_ne _ (Ne.symm hne), if_neg hne]
  refine (if_pos hmay).trans ?_
  rw [State.sa_setSa_ne _ (Ne.symm hne), State.sa_setSa_ne _ (Ne.symm hne)]
  rfl

/-- The to-association becomes CURRENT, the from-association no longer is, and no other changes. -/
theorem State.switchEntry_spec (hne : fr ≠ dst) (hmay : s.mayBecomeCurrent (s.sa fr).disarm (s.sa dst) = true) :
    (s.switchEntry fr dst pn).1 = true ∧ ((s.switchEntry fr dst pn).2.sa dst).current = true ∧
    ((s.switchEntry fr dst pn).2.sa fr).current = false ∧
    (((s.switchEntry fr dst pn).2.sa dst).status = .active ∨ ((s.switchEntry fr dst pn).2.sa dst).status = .reserveWait) ∧
    ∀ j, j ≠ fr → j ≠ dst → (s.switchEntry fr dst pn).2.sa j = s.sa j := by
  rw [State.switchEntry_switches hne hmay]
  generalize hu : ((s.setSa fr (s.sa fr).disarm |>.setSa fr ((s.sa fr).disarm.switchedFrom pn)).setSa dst
      { s.sa dst with current := true, status := .active, left := none }) = u
  obtain ⟨hother, hsame, -, -⟩ := u.atCeiling_marksSa dst
  have hdst : u.sa dst = { s.sa dst with current := true, status := .active, left := none } := by rw [← hu, State.sa_setSa]
  have hfr : u.sa fr = (s.sa fr).disarm.switchedFrom pn := by rw [← hu, State.sa_setSa_ne _ hne, State.sa_setSa]
  refine ⟨rfl, ?_, ?_, ?_, fun j hj hj' => ?_⟩
  · rw [(congrArg Assoc.current hsame :), hdst]
  · rw [hother fr hne, hfr]
    rfl
  · unfold State.atCeiling
    dsimp only
    split
    · rw [State.sa_congr (State.raise_assoc _ _ _), State.sa_setSa]
      exact .inr rfl
    · rw [hdst]
      exact .inl rfl
  · rw [hother j hj', ← hu, State.sa_setSa_ne _ hj', State.sa_setSa_ne _ hj, State.sa_setSa_ne _ hj]

end
end

/-! CANCEL (R114, R496). -/

section
variable {d : Desc} {s : State}

/-- The armed rotation that a CANCEL names. -/
def State.cancelled? (s : State) (d : Desc) : Option Rotation :=
  s.assoc.rots.find? fun r => r.armed && r.name == (d.get 0x2E 1, d.get 0x2C 2)

section
variable (hflag : bitOf d.flags 1 = true) (hring : d.get 0x2E 1 ≤ 63)
include hflag hring

theorem cancel_admitted : ¬ (¬ bitOf d.flags 1 = true ∨ 63 < d.get 0x2E 1) := fun h => h.elim (fun h => h hflag) (Nat.not_lt.mpr hring)

theorem cancelBody_standby (hl : s.twin.lease = .standby) : cancelBody d s = s.done d .standby :=
  (if_neg (cancel_admitted hflag hring)).trans (if_pos hl)

variable (hl : s.twin.lease ≠ .standby)
include hl

theorem cancelBody_none (h : s.cancelled? d = none) :
    cancelBody d s = s.done d (if s.assoc.fired.contains (d.get 0x2E 1, d.get 0x2C 2) then .tooLate else .notFound) := by
  refine (if_neg (cancel_admitted hflag hring)).trans ((if_neg hl).trans ?_)
  unfold State.cancelled? at h
  rw [h, apply_ite (s.done d)]

/-- The part without an armed rotation that is cancelled. -/
def State.disarmed (s : State) (r : Rotation) : State :=
  r.entries.foldl (fun s e => s.setSa e.1 (s.sa e.1).disarm) (s.putRotation r none)

theorem cancelBody_some {r : Rotation} (h : s.cancelled? d = some r) : cancelBody d s =
    if s.triggered r then s.done d .tooLate
    else (match r.desc with
      | some c => (s.disarmed r).done c .cancelled
      | none => s.disarmed r).done d .ok := by
  refine (if_neg (cancel_admitted hflag hring)).trans ((if_neg hl).trans ?_)
  unfold State.cancelled? at h
  rewrite [h]
  rfl

end
end

/-- Settles O21: the timers at their times, and a rotation from its list to its switch or its cancellation. -/
theorem associationTimersAndRotations : Obligations.AssociationTimersAndRotations := by
  unfold Obligations.AssociationTimersAndRotations
  refine ⟨fun s => ⟨fun h t0 hdue => ?_, fun h => exec_overlapHoldExpiry_none, fun h o t0 => exec_contextLockLeaseExpiry_some,
      fun h => exec_contextLockLeaseExpiry_none, fun part => rfl, fun h => ⟨State.fold_written, State.fold_refused⟩⟩,
    fun s s0 => ⟨fun d hacc hbegin hsome hmost htrig hpn htime bs hq => ?_, fun ring tag r d hr hd => ?_, fun ring tag => exec_rotationArmed_none,
      fun ring tag r t0 => exec_rotationTimeTrigger_named, fun fr dst pn => State.switchEntry_spec, fun d hacc hflag hring => ?_⟩⟩
  · have hrow := exec_overlapHoldExpiry_due hdue
    dsimp only
    rw [hrow]
    refine ⟨fun hst => by rw [State.holdEnds_gone hst], fun hfree hret hm => by rw [State.holdEnds_macsec hfree hret hm], fun hfree hret hf => ?_⟩
    obtain ⟨e, he⟩ := State.holdEnds_facet hfree hret hf
    exact ⟨e, congrArg Host.Outcome.next he⟩
  · have hrow := exec_saRotate_row hacc ⟨hbegin, hsome, hmost, htrig, hpn, htime⟩ hq
    rw [hrow]
    refine ⟨fun hes => by rw [rotateWith_none hes], fun es hes => ?_⟩
    rw [rotateWith_some hes]
    refine ⟨fun hbad => ?_, fun hbad hl => ?_, fun hbad hl => ?_⟩
    · exact congrArg Host.Outcome.next (if_pos hbad)
    · exact congrArg Host.Outcome.next ((if_neg (Bool.eq_false_iff.mp hbad)).trans (if_pos hl))
    · exact congrArg Host.Outcome.next ((if_neg (Bool.eq_false_iff.mp hbad)).trans (if_neg hl))
  · have hrow := exec_rotationArmed_some hr hd
    dsimp only
    rw [hrow]
    refine ⟨fun i => State.armsRotation_bad, fun t0 hok ht hlate => ?_, fun t0 hok ht hin => ?_, fun v => State.armsRotation_pn⟩
    · rw [State.armsRotation_time hok ht, if_pos hlate]
    · rw [State.armsRotation_time hok ht, if_neg (Nat.not_lt.mpr hin)]
  · have hrow : exec (.saRotateCancel d) s = .next (cancelBody d s0) := congrArg Host.Outcome.next (ringCommand_accepts hacc _)
    dsimp only
    rw [hrow]
    refine ⟨fun hl => by rw [cancelBody_standby hflag hring hl], fun hl hnone => by rw [cancelBody_none hflag hring hl hnone], fun r hl hr => ?_⟩
    rw [cancelBody_some hflag hring hl hr]
    refine ⟨fun ht => by rw [if_pos ht], fun ht hd => ?_, fun c ht hd => ?_⟩
    · rw [if_neg (Bool.eq_false_iff.mp ht), hd]
      rfl
    · rw [if_neg (Bool.eq_false_iff.mp ht), hd]
      rfl

end Sys2Proof.Machine
end

section
namespace Sys2Proof.Machine

/-! Locus tables and bucket locks (R324, R325, R331, R332, R334, R498 to R500). -/

section
variable {d : Desc} {s s0 u : State}

/-! TBL_READ. -/

theorem exec_tblRead_accepted (h : Accepted d 1 [(8, 1), (0xC, 4), (0x10, 8), (0x18, 4)] s s0) :
    exec (.tblRead d) s = .next (tblReadBody d s0) :=
  congrArg Host.Outcome.next (ringCommand_accepts h _)

/-- The record size of a table is what R498 gives. -/
theorem tblStride_eq (t : Nat) (ht : t ≤ 4) : tblStride t = if t = 0 then 40 else if t = 1 then 128 else if t ≤ 3 then 24 else 16 := by
  interval_cases t <;> rfl

/-- An output buffer, written or refused, ends the command. -/
theorem State.writeBufDone_eq (s : State) (d : Desc) (m : Master) (a : Nat) (bs : List Byte) (rep : Reply) :
    s.writeBufDone d m a bs rep = (s.writeMem m (ringOwner d.ring.val) a bs).2.complete d
      (if (s.writeMem m (ringOwner d.ring.val) a bs).1 then rep else { status := .badRequest }) := by
  rw [State.writeBufDone]
  generalize s.writeMem m (ringOwner d.ring.val) a bs = q
  obtain ⟨_ | _, _⟩ := q <;> rfl

/-- TBL_READ asks for something that no table answers (R499). -/
def Desc.tblReadBad (d : Desc) : Prop :=
  4 < d.get 8 1 ∨ d.get 0xC 4 = 0 ∨ 4096 < d.get 0xC 4 ∨ (d.get 8 1 ≠ 1 ∧ d.get 0x18 4 ≠ 0) ∨
    (d.get 8 1 = 1 ∧ (2 ^ 18 ≤ d.get 0x18 4 ∨ emBuckets < d.get 0x18 4 % 2 ^ 17 + d.get 0xC 4))

/-- The bytes TBL_READ answers by slot (R499). -/
def State.tblSlots (s : State) (d : Desc) : List Byte :=
  let all := (List.range (d.get 0xC 4)).flatMap fun i => (slotsOf (d.get 0x18 4 + i)).flatMap s.slotBytes
  if d.get 8 1 = 1 ∧ bitOf d.flags 0 = true then
    all ++ ((List.range 64).flatMap fun i => s.slotBytes (stashSlot + i)) ++ le 4 s.locus.em.length
  else all

section
variable {len : Nat} (hok : ¬ Desc.tblReadBad d)
  (hlen : len = d.get 0xC 4 * (if d.get 8 1 = 0 then 40 else if d.get 8 1 = 1 then 128 else if d.get 8 1 ≤ 3 then 24 else 16) +
    (if d.get 8 1 = 1 ∧ bitOf d.flags 0 = true then 2052 else 0))
include hok hlen

theorem tblReadBody_len : len = d.get 0xC 4 * tblStride (d.get 8 1) + (if d.get 8 1 = 1 ∧ bitOf d.flags 0 = true then 64 * 32 + 4 else 0) := by
  rw [tblStride_eq _ (Nat.not_lt.mp fun h => hok (.inl h))]
  exact hlen

theorem tblReadBody_short (h : u.bufShort (d.get 0x10 8) len = true) : tblReadBody d u = u.complete d { status := .bufferFull, r0 := len } := by
  obtain rfl := tblReadBody_len hok hlen
  exact (if_neg hok).trans (if_pos h)

section
variable (hfits : u.bufShort (d.get 0x10 8) len = false)
include hfits

theorem tblReadBody_slots (ht : d.get 8 1 = 1) :
    tblReadBody d u = u.writeBufDone d .locusDma (d.get 0x10 8) (u.tblSlots d) { status := .ok, r0 := len } := by
  obtain rfl := tblReadBody_len hok hlen
  exact (if_neg hok).trans ((if_neg (Bool.eq_false_iff.mp hfits)).trans (if_pos ht))

/-- The table's own answer to a record of TBL_READ by key. -/
def State.readRecord (s : State) (t : Nat) (r : List Byte) : List Byte := match t with
  | 0 => s.readKey r
  | 2 => readPrefix s.locus.v4 32 r
  | 3 => readPrefix s.locus.v6 128 r
  | _ => s.readHop r

theorem tblReadBody_keys (ht : d.get 8 1 ≠ 1) :
    tblReadBody d u = u.withBuf d .locusDma (d.get 0x10 8) len fun bs s => s.writeBufDone d .locusDma (d.get 0x10 8)
      (((List.range (d.get 0xC 4)).map fun i => slice bs (i * tblStride (d.get 8 1)) (tblStride (d.get 8 1))).flatMap
        (s.readRecord (d.get 8 1))) { status := .ok, r0 := len } := by
  obtain rfl := tblReadBody_len hok hlen
  have ht4 : d.get 8 1 ≤ 4 := Nat.not_lt.mp fun h => hok (.inl h)
  refine (if_neg hok).trans ((if_neg (Bool.eq_false_iff.mp hfits)).trans ((if_neg ht).trans (congrArg (u.withBuf _ _ _ _) ?_)))
  funext bs s
  generalize d.get 8 1 = t at ht ht4 ⊢
  match t, ht4, ht with
  | 0, _, _ | 2, _, _ | 3, _, _ | 4, _, _ => rfl

end
end

/-! TBL_WRITE. -/

theorem tblWrite_accepted (op : Nat) (h : Accepted d 0 [(8, 2), (0xC, 4), (0x10, 8)] s s0) (hop : d.get 9 1 = op) :
    tblWrite op d s = tblWriteBody d s0 := by
  rw [tblWrite, if_neg (not_not_intro hop), ringCommand_accepts h]

/-- The four rows of TBL_WRITE, each under its own OP. -/
theorem exec_tblWrite_accepted (h : Accepted d 0 [(8, 2), (0xC, 4), (0x10, 8)] s s0) {c : Instr × Nat}
    (hc : c ∈ [(Instr.tblWriteInsert d, 0), (.tblWriteReplace d, 1), (.tblWriteDelete d, 2), (.tblWriteClearHit d, 3)])
    (hop : d.get 9 1 = c.2) : exec c.1 s = .next (tblWriteBody d s0) := by
  simp only [List.mem_cons, List.not_mem_nil, or_false] at hc
  obtain rfl | rfl | rfl | rfl := hc
  · exact congrArg Host.Outcome.next (tblWrite_accepted 0 h hop)
  · exact congrArg Host.Outcome.next (tblWrite_accepted 1 h hop)
  · exact congrArg Host.Outcome.next (tblWrite_accepted 2 h hop)
  · exact congrArg Host.Outcome.next (tblWrite_accepted 3 h hop)

/-- A table command as it starts, when it becomes one that waits (R500). -/
def State.tblWait (s : State) (d : Desc) (buf : List Byte) : TblWait :=
  { desc := d, due := s.clk + s.timeoutOf d 1000000, done := 0, buf := buf }

theorem State.startTbl_finish {buf : List Byte} {rep : Reply} {r : TblRes × State} (hgo : tblGo (s.tblWait d buf) s = r)
    (h : r.1 = .finish rep) : s.startTbl d buf = r.2.complete d rep := by
  have hq : tblGo (s.tblWait d buf) s = (.finish rep, r.2) := hgo.trans (Prod.ext h rfl)
  unfold State.tblWait at hq
  rw [State.startTbl]
  dsimp only
  rw [hq]

theorem State.startTbl_wait {buf : List Byte} {i : Nat} {r : TblRes × State} (hgo : tblGo (s.tblWait d buf) s = r)
    (h : r.1 = .wait i) : s.startTbl d buf = r.2.withLocus { r.2.locus with waits := r.2.locus.waits ++ [{ s.tblWait d buf with done := i }] } := by
  have hq : tblGo (s.tblWait d buf) s = (.wait i, r.2) := hgo.trans (Prod.ext h rfl)
  unfold State.tblWait at hq
  rw [State.startTbl]
  dsimp only
  rw [hq]
  rfl

theorem tblGo_write {w : TblWait} (h : w.desc.opcode = 0x031) (s : State) :
    tblGo w s = tblWriteGo w.desc w.buf (w.desc.get 0xC 4 - w.done) w.done s := by
  rewrite [tblGo, h]
  rfl

theorem tblGo_delete {w : TblWait} (h : w.desc.opcode = 0x032) (s : State) : tblGo w s = tblDeleteGo w.desc s := by
  rewrite [tblGo, h]
  rfl

theorem tblGo_lock {w : TblWait} (h : w.desc.opcode = 0x033) (s : State) : tblGo w s = tblLockGo w.desc s := by
  rewrite [tblGo, h]
  rfl

/-- TBL_WRITE names no table that is written, no record, too many, or CLEAR_HIT of another table (R498). -/
def Desc.tblWriteBad (d : Desc) : Prop :=
  4 < d.get 8 1 ∨ d.get 8 1 = 1 ∨ d.get 0xC 4 = 0 ∨ 4096 < d.get 0xC 4 ∨ (d.get 8 1 ≠ 0 ∧ d.get 9 1 = 3)

theorem tblWriteBody_bad (h : Desc.tblWriteBad d) : tblWriteBody d u = u.done d .badRequest := if_pos h

theorem tblWriteBody_reads (h : ¬ Desc.tblWriteBad d) : tblWriteBody d u =
    u.withBuf d .locusDma (d.get 0x10 8) (d.get 0xC 4 * writeStride (d.get 8 1)) fun bs s => s.startTbl d bs := if_neg h

/-! Records of TBL_WRITE, one after another. -/

section
variable {bs : List Byte} {m i : Nat}

theorem tblWriteGo_waits (h : d.get 8 1 = 0 ∧ (u.candidates (entryOf (slice bs (i * writeStride (d.get 8 1)) (writeStride (d.get 8 1)))).profile
    (entryOf (slice bs (i * writeStride (d.get 8 1)) (writeStride (d.get 8 1)))).key).any (u.lockedFor (ringOwner d.ring.val)) = true) :
    tblWriteGo d bs (m + 1) i u = (.wait i, u) := by
  rw [tblWriteGo, if_pos h]

theorem tblWriteGo_goes (h : ¬ (d.get 8 1 = 0 ∧ (u.candidates (entryOf (slice bs (i * writeStride (d.get 8 1)) (writeStride (d.get 8 1)))).profile
    (entryOf (slice bs (i * writeStride (d.get 8 1)) (writeStride (d.get 8 1)))).key).any (u.lockedFor (ringOwner d.ring.val)) = true))
    {q : Option Status × State} (hq : u.writeRecord (d.get 8 1) (d.get 9 1) (slice bs (i * writeStride (d.get 8 1)) (writeStride (d.get 8 1))) = q) :
    (q.1 = none → tblWriteGo d bs (m + 1) i u = tblWriteGo d bs m (i + 1) q.2) ∧
    (∀ st, q.1 = some st → tblWriteGo d bs (m + 1) i u = (.finish { status := st, r0 := i }, q.2)) := by
  rw [tblWriteGo, if_neg h, hq]
  obtain ⟨_ | st, v⟩ := q
  · exact ⟨fun _ => rfl, fun _ h => nomatch h⟩
  · exact ⟨fun h => (nomatch h), fun _ h => by cases h; rfl⟩

end

/-! Exact-match records (R331). -/

section
variable {r : List Byte}

theorem State.writeEntry_bad (op : Nat) (h : leAt r 0x12 2 ≠ 0 ∨ bitOf (leAt r 0x11 1) 7 = true) : u.writeEntry op r = (some .badRequest, u) :=
  if_pos h

section
variable (hok : ¬ (leAt r 0x12 2 ≠ 0 ∨ bitOf (leAt r 0x11 1) 7 = true))
include hok

/-- A key that is present: INSERT fails, REPLACE writes the slot, DELETE empties it, CLEAR_HIT clears HIT. -/
theorem State.writeEntry_present {k : Nat} {x : EmEntry} (hfind : u.emFind (entryOf r).profile (entryOf r).key = some (k, x)) :
    u.writeEntry 0 r = (some .exists_, u) ∧ u.writeEntry 2 r = (none, u.emPut k none) ∧
    (k < stashSlot → u.writeEntry 1 r = (none, u.emPut k (some (entryOf r)))) ∧
    u.writeEntry 3 r = (none, u.withLocus { u.locus with em := tins u.locus.em k { x with hit := false } }) := by
  unfold State.writeEntry
  rw [if_neg hok, if_neg hok, if_neg hok, if_neg hok, hfind]
  exact ⟨rfl, rfl, fun hk => if_pos hk, rfl⟩

/-- REPLACE of a key in the stash moves it to a bucket where it can. -/
theorem State.writeEntry_stashed {k : Nat} {x : EmEntry} (hfind : u.emFind (entryOf r).profile (entryOf r).key = some (k, x))
    (hk : stashSlot ≤ k) {q : Option Nat × State} (hq : (u.emPut k none).placeEntry true (entryOf r) = q) :
    u.writeEntry 1 r = (none, q.2.emPut (q.1.getD k) (some (entryOf r))) := by
  unfold State.writeEntry
  rw [if_neg hok, hfind]
  refine (if_neg (Nat.not_lt.mpr hk)).trans ?_
  dsimp only
  rw [hq]
  obtain ⟨_ | _, _⟩ := q <;> rfl

/-- A key that is absent: only INSERT can do anything. -/
theorem State.writeEntry_absent (hfind : u.emFind (entryOf r).profile (entryOf r).key = none) {q : Bool × State}
    (hq : u.emInsert true (entryOf r) = q) :
    u.writeEntry 0 r = (if q.1 then none else some .tableFull, q.2) ∧ ∀ op, 0 < op → u.writeEntry op r = (some .notFound, u) := by
  constructor
  · unfold State.writeEntry
    rw [if_neg hok, hfind]
    dsimp only
    rw [hq]
    obtain ⟨_ | _, _⟩ := q <;> rfl
  · intro op hop
    unfold State.writeEntry
    rw [if_neg hok, hfind]
    match op, hop with
    | 1, _ | 2, _ | n + 3, _ => rfl

end

/-- Prefix records (R324, R325). -/
theorem State.writeRecord_prefix (u : State) (r : List Byte) (op : Nat) :
    (∀ x, writePrefix 32 524288 op u.locus.v4 r = .ok x → u.writeRecord 2 op r = (none, u.withLocus { u.locus with v4 := x })) ∧
    (∀ x, writePrefix 128 131072 op u.locus.v6 r = .ok x → u.writeRecord 3 op r = (none, u.withLocus { u.locus with v6 := x })) ∧
    (∀ e, writePrefix 32 524288 op u.locus.v4 r = .error e → u.writeRecord 2 op r = (some e, u)) ∧
    (∀ e, writePrefix 128 131072 op u.locus.v6 r = .error e → u.writeRecord 3 op r = (some e, u)) := by
  refine ⟨fun x h => ?_, fun x h => ?_, fun e h => ?_, fun e h => ?_⟩
  all_goals
    unfold State.writeRecord
    rewrite [h]
    rfl

end

/-! TBL_DELETE_IF_IDLE (R334). -/

theorem exec_tblDeleteIfIdle_accepted (h : Accepted d 0 [(0x10, 17)] s s0) :
    exec (.tblDeleteIfIdle d) s = .next (if 15 < d.get 0x20 1 then s0.done d .badRequest else s0.startTbl d []) :=
  congrArg Host.Outcome.next (ringCommand_accepts h _)

theorem tblDeleteGo_waits (h : (u.candidates (Desc.tblKey d).1 (Desc.tblKey d).2).any (u.lockedFor (ringOwner d.ring.val)) = true) :
    tblDeleteGo d u = (.wait 0, u) := if_pos h

section
variable (hfree : ¬ (u.candidates (Desc.tblKey d).1 (Desc.tblKey d).2).any (u.lockedFor (ringOwner d.ring.val)) = true)
include hfree

theorem tblDeleteGo_absent (hfind : u.emFind (Desc.tblKey d).1 (Desc.tblKey d).2 = none) :
    tblDeleteGo d u = (.finish { status := .notFound }, u) := by
  unfold tblDeleteGo
  generalize Desc.tblKey d = q at hfree hfind ⊢
  obtain ⟨p, key⟩ := q
  dsimp only at hfree hfind ⊢
  rw [if_neg hfree, hfind]

theorem tblDeleteGo_hit {k : Nat} {e : EmEntry} (hfind : u.emFind (Desc.tblKey d).1 (Desc.tblKey d).2 = some (k, e)) (hhit : e.hit = true) :
    tblDeleteGo d u = (.finish { status := .hit }, u) := by
  unfold tblDeleteGo
  generalize Desc.tblKey d = q at hfree hfind ⊢
  obtain ⟨p, key⟩ := q
  dsimp only at hfree hfind ⊢
  rw [if_neg hfree, hfind]
  exact if_pos hhit

theorem tblDeleteGo_idle {k : Nat} {e : EmEntry} (hfind : u.emFind (Desc.tblKey d).1 (Desc.tblKey d).2 = some (k, e)) (hhit : e.hit = false) :
    tblDeleteGo d u = (.finish { status := .ok },
      if e.learned then (u.emPut k none).count (cid 0x07 20 e.learnLp.toNat) else u.emPut k none) := by
  unfold tblDeleteGo
  generalize Desc.tblKey d = q at hfree hfind ⊢
  obtain ⟨p, key⟩ := q
  dsimp only at hfree hfind ⊢
  rw [if_neg hfree, hfind]
  exact if_neg fun h => Bool.noConfusion (h.symm.trans hhit)

end

/-! TBL_LOCK and TBL_UNLOCK (R332, R500). -/

theorem exec_tblLock_accepted (h : Accepted d 0 (lockFields d) s s0) : exec (.tblLock d) s = .next (s0.startTbl d []) :=
  congrArg Host.Outcome.next (ringCommand_accepts h _)

theorem tblLockGo_none (h : u.lockBuckets d = none) : tblLockGo d u = (.finish { status := .badRequest }, u) := by
  rw [tblLockGo]
  dsimp only
  rw [h]

/-- The locks of the table with the buckets of an owner's lock added, each until the end of its lease. -/
def State.lockedWith (u : State) (o : Nat) (bs : List Nat) : Tbl (Nat × Nat) :=
  bs.foldl (fun (t : Tbl (Nat × Nat)) b => tins t b (o, u.clk + 1000000)) u.locus.locks

section
variable {bs : List Nat} (hbs : u.lockBuckets d = some bs)
include hbs

theorem tblLockGo_waits (h : bs.any (u.lockedFor (ringOwner d.ring.val)) = true) : tblLockGo d u = (.wait 0, u) := by
  rw [tblLockGo]
  dsimp only
  rw [hbs]
  exact if_pos h

theorem tblLockGo_busy (h : bs.any (u.lockedFor (ringOwner d.ring.val)) = false) (hlen : 64 < (u.lockedWith (ringOwner d.ring.val) bs).length) :
    tblLockGo d u = (.finish { status := .busy }, u) := by
  rw [tblLockGo]
  dsimp only
  rw [hbs]
  exact (if_neg (Bool.eq_false_iff.mp h)).trans (if_pos hlen)

theorem tblLockGo_locks (h : bs.any (u.lockedFor (ringOwner d.ring.val)) = false) (hlen : (u.lockedWith (ringOwner d.ring.val) bs).length ≤ 64) :
    tblLockGo d u = (.finish { status := .ok }, u.withLocus { u.locus with locks := u.lockedWith (ringOwner d.ring.val) bs }) := by
  rw [tblLockGo]
  dsimp only
  rw [hbs]
  exact (if_neg (Bool.eq_false_iff.mp h)).trans (if_neg (Nat.not_lt.mpr hlen))

end

theorem lookup_tins_ne {α : Type} (t : Tbl α) {j k : Nat} (hj : j ≠ k) (v : α) : (tins t k v).lookup j = t.lookup j := by
  have hjk : (j == k) = false := beq_false_of_ne hj
  induction t with
  | nil => simp [tins, List.lookup_cons, hjk]
  | cons e t ih =>
    obtain ⟨i, w⟩ := e
    rw [tins]
    split
    · simp [List.lookup_cons, hjk]
    · split
      · next hi => simp [List.lookup_cons, hjk, hi]
      · simp only [List.lookup_cons, ih]

theorem find?_key_lookup {α : Type} (t : Tbl α) (n : Nat) : (t.find? (·.1 == n)).map (·.2) = t.lookup n := by
  induction t with
  | nil => rfl
  | cons e t ih =>
    obtain ⟨i, v⟩ := e
    rw [List.find?_cons, List.lookup_cons]
    by_cases hi : i = n
    · simp [hi]
    · rw [beq_false_of_ne hi, beq_false_of_ne (Ne.symm hi)]
      exact ih

/-- Every bucket that a lock names is locked with the lock's owner and lease. -/
theorem lookup_foldl_tins {α : Type} (v : α) {bs : List Nat} {b : Nat} : ∀ (t : Tbl α), (b ∈ bs ∨ t.lookup b = some v) →
    (bs.foldl (fun t b => tins t b v) t).lookup b = some v := by
  induction bs with
  | nil => exact fun t h => h.resolve_left List.not_mem_nil
  | cons c bs ih =>
    intro t h
    refine ih _ ?_
    by_cases hb : b = c
    · exact .inr (hb ▸ lookup_tins t b v)
    · rw [lookup_tins_ne t hb v]
      exact h.imp_left fun hmem => (List.mem_cons.mp hmem).resolve_left hb

theorem State.lockOf_lockedWith (u : State) (o : Nat) {bs : List Nat} {b : Nat} (hb : b ∈ bs) :
    (u.withLocus { u.locus with locks := u.lockedWith o bs }).lockOf b = some (o, u.clk + 1000000) :=
  (find?_key_lookup _ b).trans (lookup_foldl_tins _ _ (.inl hb))

/-- The body of TBL_UNLOCK. -/
def tblUnlockBody (d : Desc) (s : State) : State :=
  match s.lockBuckets d with
  | none => s.done d .badRequest
  | some bs =>
    if bs.any fun b => (s.lockOf b).map (·.1) ≠ some (ringOwner d.ring.val) then s.done d .notFound
    else (s.releaseLocks fun e => bs.contains e.1).done d .ok

theorem exec_tblUnlock_accepted (h : Accepted d 0 (lockFields d) s s0) : exec (.tblUnlock d) s = .next (tblUnlockBody d s0) := by
  show execTblUnlock d s = _
  rw [execTblUnlock]
  exact congrArg Host.Outcome.next (ringCommand_accepts h _)

theorem tblUnlockBody_none (h : u.lockBuckets d = none) : tblUnlockBody d u = u.done d .badRequest := by
  rw [tblUnlockBody, h]

section
variable {bs : List Nat} (hbs : u.lockBuckets d = some bs)
include hbs

theorem tblUnlockBody_foreign (h : ∃ b ∈ bs, (u.lockOf b).map (·.1) ≠ some (ringOwner d.ring.val)) :
    tblUnlockBody d u = u.done d .notFound := by
  obtain ⟨b, hb, hne⟩ := h
  rw [tblUnlockBody, hbs]
  exact if_pos (List.any_eq_true.mpr ⟨b, hb, decide_eq_true hne⟩)

theorem tblUnlockBody_own (h : ∀ b ∈ bs, (u.lockOf b).map (·.1) = some (ringOwner d.ring.val)) :
    tblUnlockBody d u = (u.releaseLocks fun e => bs.contains e.1).done d .ok := by
  rw [tblUnlockBody, hbs]
  refine if_neg fun hany => ?_
  obtain ⟨b, hb, hne⟩ := List.any_eq_true.mp hany
  exact of_decide_eq_true hne (h b hb)

end

/-! Commands that wait run again (R332, R500). -/

section
variable {w : TblWait} (hw : u.locus.waits = [w])
include hw

theorem State.retryTbl_finish {r : TblRes × State} (hgo : tblGo w u = r) {rep : Reply} (h : r.1 = .finish rep) :
    u.retryTbl = (r.2.withLocus { r.2.locus with waits := r.2.locus.waits.filter (·.desc != w.desc) }).complete w.desc rep := by
  rw [State.retryTbl, hw, List.foldl_cons, List.foldl_nil, hgo.trans (Prod.ext h rfl : r = (.finish rep, r.2))]

theorem State.retryTbl_wait {r : TblRes × State} (hgo : tblGo w u = r) {i : Nat} (h : r.1 = .wait i) :
    u.retryTbl = r.2.withLocus { r.2.locus with waits := r.2.locus.waits.map fun x => if x.desc = w.desc then { x with done := i } else x } := by
  rw [State.retryTbl, hw, List.foldl_cons, List.foldl_nil, hgo.trans (Prod.ext h rfl : r = (.wait i, r.2))]

end

theorem State.retryTbl_nil (h : u.locus.waits = []) : u.retryTbl = u := by
  rw [State.retryTbl, h, List.foldl_nil]

end

/-- Settles O32: each table command is `ringCommand` around its body; a body that may wait goes through `startTbl`, which completes with what
`tblGo` came to or joins the commands that wait. -/
theorem locusTablesAndBucketLocks : Obligations.LocusTablesAndBucketLocks := by
  refine ⟨fun d s s0 => ⟨fun hacc => ?_, fun hacc c hc hop => ?_, fun bs m i u => ?_, fun u r => ?_, fun u r op => ?_, fun hacc hcode => ?_⟩,
    fun d s s0 => ⟨fun hacc hcode => ?_, fun hacc => ?_, fun w u hw => ?_, fun u => State.retryTbl_nil, fun ring tag w hw => ?_,
      fun ring tag hw => ?_, fun b o t hlock => ?_, fun b hlock => ?_⟩⟩
  · rw [exec_tblRead_accepted hacc]
    refine ⟨fun hbad => congrArg Host.Outcome.next (if_pos hbad), fun hok hshort => congrArg Host.Outcome.next (tblReadBody_short hok rfl hshort),
      fun hok hfits ht => ?_, fun bs hok hfits ht hbuf => ?_, fun st hok hfits ht hbuf => ?_⟩
    · rw [tblReadBody_slots hok rfl hfits ht, State.writeBufDone_eq]
      rfl
    · have ht4 : d.get 8 1 ≤ 4 := Nat.not_lt.mp fun h => hok (.inl h)
      rw [tblReadBody_keys hok rfl hfits ht, State.withBuf_of_ok hbuf]
      refine congrArg Host.Outcome.next ((congrArg (fun l => State.writeBufDone _ d _ _ l _) ?_).trans (State.writeBufDone_eq _ d _ _ _ _))
      rw [List.flatMap_map]
      clear hok hfits hbuf
      generalize d.get 8 1 = t at ht ht4 ⊢
      match t, ht4, ht with
      | 0, _, _ | 2, _, _ | 3, _, _ | 4, _, _ => rfl
    · rw [tblReadBody_keys hok rfl hfits ht, State.withBuf_of_error hbuf]
  · rw [exec_tblWrite_accepted hacc hc hop, ← hop]
    refine ⟨fun hbad => congrArg Host.Outcome.next (tblWriteBody_bad hbad), fun st hok hbuf => ?_, fun bs hok hbuf hcode => ?_⟩
    · rw [tblWriteBody_reads hok, State.withBuf_of_error hbuf]
    · rw [tblWriteBody_reads hok, State.withBuf_of_ok hbuf]
      exact ⟨fun rep h => congrArg Host.Outcome.next (State.startTbl_finish (tblGo_write hcode _) h),
        fun i h => congrArg Host.Outcome.next (State.startTbl_wait (tblGo_write hcode _) h)⟩
  · exact ⟨rfl, tblWriteGo_waits, fun h => (tblWriteGo_goes h rfl).1, fun st h => (tblWriteGo_goes h rfl).2 st⟩
  · refine ⟨fun op => State.writeEntry_bad op, fun x hok hfind => ?_, fun hok hfind => State.writeEntry_absent hok hfind rfl⟩
    obtain ⟨hinsert, hdelete, hreplace, hclear⟩ := State.writeEntry_present hok hfind
    exact ⟨hinsert, hdelete, hreplace, fun hk => State.writeEntry_stashed hok hfind hk rfl, hclear⟩
  · obtain ⟨h4, h6, e4, e6⟩ := State.writeRecord_prefix u r op
    exact ⟨h4, h6, e4, e6, rfl⟩
  · have hexec := exec_tblDeleteIfIdle_accepted hacc
    have hgo : tblGo (s0.tblWait d []) s0 = tblDeleteGo d s0 := tblGo_delete hcode s0
    rw [hexec]
    refine ⟨fun h => congrArg Host.Outcome.next (if_pos h), fun h hheld => ?_, fun h hfree hfind => ?_, fun k e h hfree hfind => ⟨fun hhit => ?_, fun hhit => ?_⟩⟩
    all_goals rw [if_neg (Nat.not_lt.mpr h)]
    · exact congrArg Host.Outcome.next (State.startTbl_wait (hgo.trans (tblDeleteGo_waits hheld)) rfl)
    · exact congrArg Host.Outcome.next (State.startTbl_finish (hgo.trans (tblDeleteGo_absent hfree hfind)) rfl)
    · exact congrArg Host.Outcome.next (State.startTbl_finish (hgo.trans (tblDeleteGo_hit hfree hfind hhit)) rfl)
    · exact congrArg Host.Outcome.next (State.startTbl_finish (hgo.trans (tblDeleteGo_idle hfree hfind hhit)) rfl)
  · have hgo : tblGo (s0.tblWait d []) s0 = tblLockGo d s0 := tblGo_lock hcode s0
    rw [exec_tblLock_accepted hacc]
    refine ⟨fun h => ?_, fun bs hbs => ⟨fun h => ?_, fun h hlen => ?_, fun h hlen => ⟨?_, fun b => State.lockOf_lockedWith s0 _⟩⟩⟩
    · exact congrArg Host.Outcome.next (State.startTbl_finish (hgo.trans (tblLockGo_none h)) rfl)
    · exact congrArg Host.Outcome.next (State.startTbl_wait (hgo.trans (tblLockGo_waits hbs h)) rfl)
    · exact congrArg Host.Outcome.next (State.startTbl_finish (hgo.trans (tblLockGo_busy hbs h hlen)) rfl)
    · exact congrArg Host.Outcome.next (State.startTbl_finish (hgo.trans (tblLockGo_locks hbs h hlen)) rfl)
  · rw [exec_tblUnlock_accepted hacc]
    exact ⟨fun h => congrArg Host.Outcome.next (tblUnlockBody_none h), fun bs hbs =>
      ⟨fun h => congrArg Host.Outcome.next (tblUnlockBody_foreign hbs h), fun h => congrArg Host.Outcome.next (tblUnlockBody_own hbs h)⟩⟩
  · exact ⟨fun rep => State.retryTbl_finish hw rfl, fun i => State.retryTbl_wait hw rfl⟩
  · show execTblLockWaitTimeout ring tag s = _
    rw [execTblLockWaitTimeout, hw]
  · show execTblLockWaitTimeout ring tag s = _
    rw [execTblLockWaitTimeout, hw]
  · show execTableLockLeaseExpiry b s = _
    rw [execTableLockLeaseExpiry, hlock]
    rfl
  · show execTableLockLeaseExpiry b s = _
    rw [execTableLockLeaseExpiry, hlock]

end Sys2Proof.Machine
end

section
namespace Sys2Proof.Machine

/-! Frames at a client port, learning and the exact-match table's clear (R15, R32, R139, R326 to R330, Tables 13.9, 13.11). -/

section
variable {s : State}

/-! A frame that arrives at a client port. -/

/-- Logical port lp takes frames for itself. -/
def State.takesClient (s : State) (lp : Nat) : Prop := s.receives lp = true ∧ s.attached lp = false

theorem State.takesClient_iff (s : State) (lp : Nat) : s.takesClient lp ↔ ¬ ((!s.receives lp) = true ∨ s.attached lp = true) := by
  rw [State.takesClient, not_or, Bool.not_eq_true', Bool.not_eq_false, Bool.not_eq_true]

section
variable {lp : Fin 64} {frame : List Byte} {perr : Bool} {em : List (Fin 4)}

theorem exec_clientFrameReceive_off (h : ¬ s.takesClient lp.val) : exec (.clientFrameReceive lp frame perr em) s = .next s :=
  if_pos (not_not.mp fun hn => h ((s.takesClient_iff _).mpr hn))

section
variable (hon : s.takesClient lp.val)
include hon

theorem exec_clientFrameReceive_badFcs (hfcs : fcsOk frame = false) :
    exec (.clientFrameReceive lp frame perr em) s = .next (s.count (cid 0x01 0 lp.val)) :=
  (if_neg ((s.takesClient_iff _).mp hon)).trans (if_pos (congrArg (!·) hfcs))

theorem exec_clientFrameReceive_badLength (hfcs : fcsOk frame = true) (hlen : ¬ (64 ≤ frame.length ∧ frame.length ≤ 9216)) :
    exec (.clientFrameReceive lp frame perr em) s = .next s :=
  (if_neg ((s.takesClient_iff _).mp hon)).trans ((if_neg (by rw [hfcs]; exact Bool.false_ne_true)).trans (if_pos (by omega)))

theorem exec_clientFrameReceive_fits (hfcs : fcsOk frame = true) (hlen : 64 ≤ frame.length ∧ frame.length ≤ 9216) :
    exec (.clientFrameReceive lp frame perr em) s = .next (s.classify
      ⟨TFrame.arrived lp.val (frame.take (frame.length - 4))
        (if s.fcsMode.getLsbD (lp.val / 4) then some (BitVec.ofNat 32 (leNat (frame.drop (frame.length - 4)))) else none) s.fcsMode
        (s.rxStamp (lp.val / 4) (s.stampClass lp.val)) false none, perr, em⟩) :=
  (if_neg ((s.takesClient_iff _).mp hon)).trans ((if_neg (by rw [hfcs]; exact Bool.false_ne_true)).trans (if_neg (by omega)))

end
end

/-! The arbiter of learning (R328). -/

theorem exec_learnRequestApply_side {r : LearnReq} (h : (s.locus.side.find? fun r => !s.learnBlocked r) = some r) :
    exec .learnRequestApply s = .next ((s.withLocus { s.locus with side := s.locus.side.erase r }).applyLearn r) := by
  show execLearnRequestApply s = _
  rw [execLearnRequestApply, h]

section
variable (hside : (s.locus.side.find? fun r => !s.learnBlocked r) = none)
include hside

theorem exec_learnRequestApply_idle (h : s.locus.learns = []) : exec .learnRequestApply s = .next s := by
  show execLearnRequestApply s = _
  rw [execLearnRequestApply, hside, h]

theorem exec_learnRequestApply_next {r : LearnReq} {rest : List LearnReq} (h : s.locus.learns = r :: rest) :
    exec .learnRequestApply s =
      if !s.learnBlocked r then .next ((s.withLocus { s.locus with learns := rest }).applyLearn r)
      else if s.locus.side.length < 64 then .next (s.withLocus { s.locus with learns := rest, side := s.locus.side ++ [r] })
      else .next ((s.withLocus { s.locus with learns := rest }).discardLearn r.lp.toNat) := by
  show execLearnRequestApply s = _
  rewrite [execLearnRequestApply, hside, h]
  rfl

end

/-! Table 13.9. -/

theorem State.applyLearn_absent {r : LearnReq} (h : s.emFind r.profile r.key = none) {q : Bool × State}
    (hq : s.emInsert false ⟨r.key, r.profile, false, true, true, r.lp, s.learnedResult r.lp.toNat⟩ = q) :
    s.applyLearn r = if s.learnCfg r.lp.toNat % 2 ^ 20 ≤ s.learnCount r.lp.toNat then s.count (cid 0x07 13 r.lp.toNat) else
      if q.1 then (q.2.count (cid 0x07 17 r.lp.toNat)).hold r else q.2.count (cid 0x07 10 r.lp.toNat) := by
  rw [State.applyLearn]
  dsimp only
  rw [h]
  dsimp only
  rw [hq]
  obtain ⟨_ | _, _⟩ := q <;> rfl

section
variable {r : LearnReq} {k : Nat} {e : EmEntry} (h : s.emFind r.profile r.key = some (k, e))
include h

theorem State.applyLearn_same (hsame : e.learned = true ∧ e.learnLp = r.lp) : s.applyLearn r = s.setHit k := by
  rw [State.applyLearn]
  dsimp only
  rw [h]
  exact if_pos hsame

theorem State.applyLearn_moved (hmoved : ¬ (e.learned = true ∧ e.learnLp = r.lp)) :
    s.applyLearn r = if e.static then s.count (cid 0x07 12 r.lp.toNat) else
      if s.held r then (s.count (cid 0x07 18 r.lp.toNat)).flap r e.learnLp.toNat else
      if s.learnCfg r.lp.toNat % 2 ^ 20 ≤ s.learnCount r.lp.toNat then s.count (cid 0x07 13 r.lp.toNat) else
      ((s.emPut k (some { e with learned := true, learnLp := r.lp, result := s.learnedResult r.lp.toNat })).count (cid 0x07 19 r.lp.toNat)).hold r := by
  rw [State.applyLearn]
  dsimp only
  rw [h]
  exact if_neg hmoved

end

/-! EM_TABLE_CLEAR. -/

theorem exec_emTableClear_halted (v : Word32) (h : s.halted = true) : exec (.emTableClear v) s = .next s := if_pos h

/-- The word written with CLEAR 1 keeps its low byte. -/
theorem toNat_or_clear_mod (v : Word32) : (v ||| 0x80000000#32).toNat % 256 = v.toNat % 256 := by
  rw [BitVec.toNat_or, show (256 : Nat) = 2 ^ 8 from rfl, Nat.or_mod_two_pow]
  exact Nat.or_zero _

theorem bitOf_or_clear (v : Word32) : bitOf (v ||| 0x80000000#32).toNat 31 = true := by
  rw [bitOf, BitVec.toNat_or, Nat.testBit_or]
  exact Bool.or_true _

section
variable (hrun : s.halted = false)
include hrun

theorem exec_emTableClear_on (v : Word32) (hon : s.framePathOn = true) :
    exec (.emTableClear v) s = .next (s.setReg 0x00C00000 (BitVec.ofNat 32 (v.toNat % 256))) := by
  refine (if_neg (Bool.eq_false_iff.mp hrun)).trans (congrArg Host.Outcome.next ?_)
  rw [State.emCfg, toNat_or_clear_mod]
  exact if_pos (.inr hon)

theorem exec_emTableClear_off (v : Word32) (hoff : s.framePathOn = false) : exec (.emTableClear v) s =
    .next ((((s.setReg 0x00C00000 (BitVec.ofNat 32 (v.toNat % 256))).drbg 128).2).withLocus
      { s.locus with em := [], seed := BitVec.ofNat 128 ((s.setReg 0x00C00000 (BitVec.ofNat 32 (v.toNat % 256))).drbg 128).1, badSlots := [] }) := by
  refine (if_neg (Bool.eq_false_iff.mp hrun)).trans (congrArg Host.Outcome.next ?_)
  rw [State.emCfg, toNat_or_clear_mod, bitOf_or_clear]
  exact if_neg fun h => h.elim Bool.false_ne_true (Bool.eq_false_iff.mp hoff)

end
end

/-- Settles O33: each row and each line of Table 13.9 is a branch of its function. -/
theorem clientFramesAndLearning : Obligations.ClientFramesAndLearning := by
  intro s
  refine ⟨fun lp frame perr em => ⟨exec_clientFrameReceive_fits, exec_clientFrameReceive_badFcs, exec_clientFrameReceive_badLength,
      exec_clientFrameReceive_off⟩, fun r => exec_learnRequestApply_side, fun hside => ⟨exec_learnRequestApply_idle hside, fun r rest h => ?_⟩,
    fun r => ⟨fun h => State.applyLearn_absent h rfl, fun k e h => ⟨State.applyLearn_same h, State.applyLearn_moved h⟩⟩,
    fun p key => ⟨fun h hfind => ?_, fun hfind => ?_⟩,
    fun v => ⟨exec_emTableClear_halted v, fun hrun => exec_emTableClear_on hrun v, fun hrun hoff => ?_⟩⟩
  · rw [exec_learnRequestApply_next hside h]
    exact ⟨fun hb => if_pos (congrArg (!·) hb), fun hb hlen => (if_neg (by rw [hb]; exact Bool.false_ne_true)).trans (if_pos hlen),
      fun hb hlen => (if_neg (by rw [hb]; exact Bool.false_ne_true)).trans (if_neg (Nat.not_lt.mpr hlen))⟩
  · show execMoveHoldExpiry p key s = _
    rw [execMoveHoldExpiry]
    dsimp only
    rw [hfind]
  · show execMoveHoldExpiry p key s = _
    rw [execMoveHoldExpiry]
    dsimp only
    rw [hfind]
  · exact ⟨_, exec_emTableClear_off hrun v hoff, rfl, rfl, rfl, BitVec.eq_of_toNat_eq (Nat.mod_mod _ _), rfl⟩

end Sys2Proof.Machine
end

section
namespace Sys2Proof.Machine

/-! Gate lists and the indirect window of Sector (R367, R371, R374 to R379, R385, R503, Table 15.5). -/

section
variable {d : Desc} {s s0 u : State}

/-! GATE_LOAD (R376). -/

theorem exec_gateLoad_accepted (h : Accepted d 0 [(8, 1), (0xC, 2), (0x10, 8), (0x18, 4), (0x1C, 10)] s s0) :
    exec (.gateLoad d) s = .next (gateLoadBody d s0) :=
  congrArg Host.Outcome.next (ringCommand_accepts h _)

/-- GATE_LOAD names a list, a cycle or a base time that R376 refuses. -/
def Desc.gateLoadBad (d : Desc) : Prop :=
  31 < d.get 8 1 ∨ d.get 0xC 2 = 0 ∨ 1024 < d.get 0xC 2 ∨ d.get 0x18 4 < 1000 ∨ 1000000000 < d.get 0x18 4 ∨ 999999999 < d.get 0x22 4

theorem gateLoadBody_bad (h : Desc.gateLoadBad d) : gateLoadBody d u = u.done d .badRequest := if_pos h

/-- GATE_LOAD past its checks: what it does with the bytes of its buffer. -/
def gateLoadEntries (d : Desc) (bs : List Byte) (s : State) : State :=
  match gateEntries (d.get 0xC 2) bs with
  | none => s.done d .badRequest
  | some es => (s.setGate (d.get 8 1) { s.gate (d.get 8 1) with
      pend := some ⟨es, d.get 0x18 4, 1000000000 * d.get 0x1C 6 + d.get 0x22 4⟩, armed := false, adjusted := false }).done d .ok

section
variable (hok : ¬ Desc.gateLoadBad d)
include hok

theorem gateLoadBody_armed (h : (u.gate (d.get 8 1)).armed = true) : gateLoadBody d u = u.done d .inUse := (if_neg hok).trans (if_pos h)

theorem gateLoadBody_reads (h : (u.gate (d.get 8 1)).armed = false) : gateLoadBody d u =
    u.withBuf d .annulus (d.get 0x10 8) (8 * d.get 0xC 2) (gateLoadEntries d) :=
  (if_neg hok).trans (if_neg (Bool.eq_false_iff.mp h))

end

theorem gateLoadEntries_eq (bs : List Byte) :
    (gateEntries (d.get 0xC 2) bs = none → gateLoadEntries d bs u = u.done d .badRequest) ∧
    (∀ es, gateEntries (d.get 0xC 2) bs = some es → gateLoadEntries d bs u = (u.setGate (d.get 8 1) { u.gate (d.get 8 1) with
      pend := some ⟨es, d.get 0x18 4, 1000000000 * d.get 0x1C 6 + d.get 0x22 4⟩, armed := false, adjusted := false }).done d .ok) := by
  unfold gateLoadEntries
  exact ⟨fun h => by rw [h], fun es h => by rw [h]⟩

/-! GATE_ARM (R377). -/

theorem exec_gateArm_accepted (h : Accepted d 1 [(8, 1)] s s0) (hform : bitOf d.flags 0 = false) :
    exec (.gateArm d) s = .next (gateArmBody d s0) :=
  congrArg Host.Outcome.next ((if_neg (Bool.eq_false_iff.mp hform)).trans (ringCommand_accepts h _))

theorem gateArmBody_bad (h : 31 < d.get 8 1 ∨ (u.gate (d.get 8 1)).pend = none ∨ (u.gate (d.get 8 1)).armed = true) :
    gateArmBody d u = u.done d .badRequest := by
  unfold gateArmBody
  dsimp only
  split
  · rfl
  · next hx =>
    split
    · rfl
    · next hpend =>
      refine if_pos ((h.resolve_left hx).resolve_left ?_)
      rw [hpend]
      exact Option.some_ne_none _

/-- The part with list l of GATE_ARM armed to start at st. -/
def State.gateArmed (s : State) (d : Desc) (st : Nat) (moved : Bool) : State :=
  let p := s.gate (d.get 8 1)
  let t := s.setGate (d.get 8 1) { p with armed := true, adjusted := p.adjusted || moved, pstart := st }
  (if moved then t.raise 0x0C1 (BitVec.ofNat 8 (d.get 8 1) :: time10 st) else t).complete d
    { status := .ok, flags := b2n moved, r0 := st / 1000000000, r1 := st % 1000000000 }

theorem gateArmBody_arms {l : GateList} (hx : d.get 8 1 ≤ 31) (hpend : (u.gate (d.get 8 1)).pend = some l)
    (harm : (u.gate (d.get 8 1)).armed = false) : gateArmBody d u = u.gateArmed d (u.gateStart l) (decide (u.gateStart l ≠ l.start)) := by
  unfold gateArmBody State.gateArmed
  dsimp only
  rw [if_neg (Nat.not_lt.mpr hx)]
  rewrite [hpend]
  dsimp only
  rw [if_neg (Bool.eq_false_iff.mp harm)]
  by_cases hmoved : u.gateStart l = l.start
  · simp [hmoved]
  · simp [hmoved]

/-- The earliest start that a list armed now may have (R377). -/
def State.gateBound (s : State) : Nat := s.gnomon.time + 2000 + if 0 < s.gnomon.frac then 1 else 0

theorem State.gateStart_ahead {l : GateList} (h : u.gateBound ≤ l.start) : u.gateStart l = l.start := if_pos h

/-- A base time too near moves on by whole cycles, as few as will do. -/
theorem State.gateStart_late {l : GateList} (h : l.start < u.gateBound) (hc : 0 < l.cycle) :
    ∃ n, u.gateStart l = l.start + n * l.cycle ∧ u.gateBound ≤ l.start + n * l.cycle ∧ l.start + n * l.cycle < u.gateBound + l.cycle := by
  refine ⟨_, if_neg (Nat.not_le.mpr h), ?_, ?_⟩
  · have hlt := Nat.lt_div_mul_add hc (a := u.gateBound - l.start + l.cycle - 1)
    change u.gateBound ≤ l.start + (u.gateBound - l.start + l.cycle - 1) / l.cycle * l.cycle
    omega
  · have hle := Nat.div_mul_le_self (u.gateBound - l.start + l.cycle - 1) l.cycle
    change l.start + (u.gateBound - l.start + l.cycle - 1) / l.cycle * l.cycle < u.gateBound + l.cycle
    omega

/-! GATE_ARM CANCEL (R377). -/

/-- The body of GATE_ARM CANCEL. -/
def gateCancelBody (d : Desc) (s : State) : State :=
  if 31 < d.get 8 1 ∨ (!(s.gate (d.get 8 1)).armed) = true ∨ (s.gate (d.get 8 1)).pstart ≤ s.gnomon.time then s.done d .badRequest
  else (s.setGate (d.get 8 1) { s.gate (d.get 8 1) with armed := false }).done d .ok

theorem exec_gateArmCancel_accepted (h : Accepted d 1 [(8, 1)] s s0) (hform : bitOf d.flags 0 = true) :
    exec (.gateArmCancel d) s = .next (gateCancelBody d s0) :=
  congrArg Host.Outcome.next ((if_neg (by rw [hform]; exact Bool.false_ne_true)).trans (ringCommand_accepts h _))

theorem gateCancelBody_ok (hx : d.get 8 1 ≤ 31) (harm : (u.gate (d.get 8 1)).armed = true) (ht : u.gnomon.time < (u.gate (d.get 8 1)).pstart) :
    gateCancelBody d u = (u.setGate (d.get 8 1) { u.gate (d.get 8 1) with armed := false }).done d .ok := by
  refine if_neg (not_or.mpr ⟨Nat.not_lt.mpr hx, not_or.mpr ⟨?_, Nat.not_le.mpr ht⟩⟩)
  rw [harm]
  exact Bool.false_ne_true

theorem gateCancelBody_bad (h : 31 < d.get 8 1 ∨ (u.gate (d.get 8 1)).armed = false ∨ (u.gate (d.get 8 1)).pstart ≤ u.gnomon.time) :
    gateCancelBody d u = u.done d .badRequest :=
  if_pos (h.imp_right (Or.imp_left fun ha => congrArg (!·) ha))

end

/-! GATE_LIST_START and GATE_ENTRY_ADVANCE (R375, R377, R385). -/

section
variable {s u : State} {x : Fin 32}

theorem exec_gateListStart_armed (h : (s.gate x.val).armed = true) :
    exec (.gateListStart x) s = .next ((s.passToTime (s.gate x.val).pstart).startGate x.val) :=
  congrArg Host.Outcome.next (if_pos h)

theorem State.startGate_none {k : Nat} (h : (u.gate k).next = none) : u.startGate k = u := by
  unfold State.startGate
  dsimp only
  rw [h]

theorem State.startGate_some {k : Nat} {l : GateList} (h : (u.gate k).next = some l) : u.startGate k =
    (let v := (u.setGate k { u.gate k with oper := some l, pend := none, armed := false, which := !(u.gate k).which }).raise 0x0C0
      (BitVec.ofNat 8 k :: time10 l.start)
    ((v.sector.queues.filter fun e => e.1 / 4096 == k / 16 && (gateLps k).contains (qLport (v.srec (qKey (k / 16) (e.1 % 4096))))).map
      (·.1 % 4096)).foldl (fun v q => v.newHead (k / 16) q) v) := by
  unfold State.startGate
  dsimp only
  rw [h]

theorem exec_gateEntryAdvance_some {l : GateList} {e : BitVec 8 × Nat × Nat × Nat} (ho : (s.gate x.val).oper = some l)
    (ha : l.at_ s.gnomon.time = some e) :
    exec (.gateEntryAdvance x) s = .next (s.passToTime (s.gnomon.time - l.pos s.gnomon.time + e.2.2.1)) := by
  show execGateEntryAdvance x s = _
  rw [execGateEntryAdvance, ho]
  dsimp only
  rw [ha]

theorem exec_gateEntryAdvance_none (h : ∀ l, (s.gate x.val).oper = some l → l.at_ s.gnomon.time = none) :
    exec (.gateEntryAdvance x) s = .next s := by
  show execGateEntryAdvance x s = _
  rw [execGateEntryAdvance]
  split
  · rfl
  · next l ho => rw [h l ho]

end

/-! SECTOR_IND_CTRL (Table 15.6): the word that is stored, its target and its index. -/

/-- The control word as the model stores it. -/
theorem indCtrl_word (v k : BitVec 32) :
    BitVec.ofNat 32 ((v.toNat &&& 0x4F00FFFF) ||| (k.toNat &&& 0x10000000 &&& (0xFFFFFFFF - v.toNat &&& 0xFFFFFFFF))) =
      (v &&& 0x4F00FFFF#32) ||| (k &&& 0x10000000#32 &&& ~~~v) := by
  have hnot : 0xFFFFFFFF - v.toNat &&& 0xFFFFFFFF = (~~~v).toNat := by
    rw [BitVec.toNat_not, Nat.and_two_pow_sub_one_eq_mod _ 32]
    have := v.isLt
    omega
  rw [hnot]
  apply BitVec.eq_of_toNat_eq
  rw [BitVec.toNat_ofNat, BitVec.toNat_or, BitVec.toNat_and, BitVec.toNat_and, BitVec.toNat_and]
  exact Nat.mod_eq_of_lt (Nat.or_lt_two_pow (Nat.and_lt_two_pow _ (by decide)) (Nat.and_lt_two_pow _ (~~~v).isLt))

/-- The word of a read: GO 1, WRITE 0. -/
def indReadWord (v : BitVec 32) : BitVec 32 := (v ||| 0x80000000#32) &&& 0xBFFFFFFF#32
/-- The word of a write: GO 1, WRITE 1. -/
def indWriteWord (v : BitVec 32) : BitVec 32 := v ||| 0xC0000000#32

theorem indReadWord_stored (v k : BitVec 32) :
    (indReadWord v &&& 0x4F00FFFF#32) ||| (k &&& 0x10000000#32 &&& ~~~indReadWord v) =
      (v &&& 0x0F00FFFF#32) ||| (k &&& 0x10000000#32 &&& ~~~v) := by
  unfold indReadWord
  ext i hi
  simp only [BitVec.getElem_or, BitVec.getElem_and, BitVec.getElem_not]
  generalize v[i] = a
  generalize k[i] = b
  revert a b
  revert i
  decide

theorem indWriteWord_stored (v k : BitVec 32) :
    (indWriteWord v &&& 0x4F00FFFF#32) ||| (k &&& 0x10000000#32 &&& ~~~indWriteWord v) =
      (v &&& 0x0F00FFFF#32) ||| 0x40000000#32 ||| (k &&& 0x10000000#32 &&& ~~~v) := by
  unfold indWriteWord
  ext i hi
  simp only [BitVec.getElem_or, BitVec.getElem_and, BitVec.getElem_not]
  generalize v[i] = a
  generalize k[i] = b
  revert a b
  revert i
  decide

theorem bits_toNat_congr {v w : BitVec 32} {lo len : Nat} (h : v.extractLsb' lo len = w.extractLsb' lo len) :
    bits v.toNat lo len = bits w.toNat lo len := by
  rw [bits, bits, ← BitVec.extractLsb'_toNat, h, BitVec.extractLsb'_toNat]

/-- A read's word names the target and the index of the word written. -/
theorem indReadWord_names (v : BitVec 32) :
    bits (indReadWord v).toNat 24 4 = bits v.toNat 24 4 ∧ bits (indReadWord v).toNat 0 16 = bits v.toNat 0 16 := by
  refine ⟨bits_toNat_congr ?_, bits_toNat_congr ?_⟩
  all_goals
    ext i hi
    simp only [indReadWord, BitVec.getElem_extractLsb', BitVec.getLsbD_or, BitVec.getLsbD_and]
    generalize v.getLsbD _ = a
    revert a
    revert i
    decide

/-- As above, of a write. -/
theorem indWriteWord_names (v : BitVec 32) :
    bits (indWriteWord v).toNat 24 4 = bits v.toNat 24 4 ∧ bits (indWriteWord v).toNat 0 16 = bits v.toNat 0 16 := by
  refine ⟨bits_toNat_congr ?_, bits_toNat_congr ?_⟩
  all_goals
    ext i hi
    simp only [indWriteWord, BitVec.getElem_extractLsb', BitVec.getLsbD_or]
    generalize v.getLsbD _ = a
    revert a
    revert i
    decide

theorem indReadWord_bits (v : BitVec 32) : bitOf (indReadWord v).toNat 31 = true ∧ bitOf (indReadWord v).toNat 30 = false := by
  unfold indReadWord
  rw [bitOf, bitOf, BitVec.toNat_and, BitVec.toNat_or, Nat.testBit_and, Nat.testBit_and, Nat.testBit_or, Nat.testBit_or]
  generalize v.toNat.testBit 31 = a
  generalize v.toNat.testBit 30 = b
  revert a b
  decide

theorem indWriteWord_bits (v : BitVec 32) : bitOf (indWriteWord v).toNat 31 = true ∧ bitOf (indWriteWord v).toNat 30 = true := by
  unfold indWriteWord
  rw [bitOf, bitOf, BitVec.toNat_or, Nat.testBit_or, Nat.testBit_or]
  generalize v.toNat.testBit 31 = a
  generalize v.toNat.testBit 30 = b
  revert a b
  decide

/-! The access itself (R379). -/

section
variable {s : State} {target index : Nat}

/-- The part with the control word of a read stored. -/
def State.indReading (s : State) (v : BitVec 32) : State :=
  s.setReg 0x01000000 ((v &&& 0x0F00FFFF#32) ||| (s.reg 0x01000000 &&& 0x10000000#32 &&& ~~~v))
/-- As above, of a write. -/
def State.indWriting (s : State) (v : BitVec 32) : State :=
  s.setReg 0x01000000 ((v &&& 0x0F00FFFF#32) ||| 0x40000000#32 ||| (s.reg 0x01000000 &&& 0x10000000#32 &&& ~~~v))

/-- SECTOR_IND_DATA as it stands. -/
def State.indData (s : State) : List Nat := (List.range 8).map fun k => s.regN (0x01000010 + 4 * k)

/-- Words that a record may hold (Table 15.5): no reserved bit, and no second rate of srTCM. -/
def indLegal (target index : Nat) (ws : List Nat) : Prop :=
  (∀ k < 8, (ws.getD k 0 &&& indMask target index k) = ws.getD k 0) ∧ (target = 4 → bits (ws.getD 0 0) 29 2 = 0 → ws.getD 3 0 = 0)

/-- A list of eight is eight elements. -/
theorem eq_of_length_eight {α : Type} {l : List α} (h : l.length = 8) : ∃ a b c d e f g i, l = [a, b, c, d, e, f, g, i] := by
  match l, h with
  | [a, b, c, d, e, f, g, i], _ => exact ⟨a, b, c, d, e, f, g, i, rfl⟩

theorem State.length_indWords (s : State) (target index : Nat) : (s.indWords target index).length = 8 := by
  unfold State.indWords
  split
  · rfl
  · rw [List.length_map, List.length_range]

/-- The eight words of a read, one register each. -/
theorem foldl_indWords {l : List Nat} (h : l.length = 8) (s : State) :
    l.zipIdx.foldl (fun (s : State) (e : Nat × Nat) => s.setReg (Machine.indData e.2) (BitVec.ofNat 32 e.1)) s =
      (List.range 8).foldl (fun u k => u.setReg (0x01000010 + 4 * k) (BitVec.ofNat 32 (l.getD k 0))) s := by
  obtain ⟨a, b, c, d, e, f, g, i, rfl⟩ := eq_of_length_eight h
  rfl

theorem any_reserved_iff {l : List Nat} (h : l.length = 8) (m : Nat → Nat) :
    (l.zipIdx.any fun (e : Nat × Nat) => (e.1 &&& m e.2) != e.1) = true ↔ ¬ ∀ k < 8, (l.getD k 0 &&& m k) = l.getD k 0 := by
  rw [List.any_eq_true]
  constructor
  · rintro ⟨⟨x, k⟩, hmem, hne⟩ hall
    obtain ⟨hk, hx⟩ := List.mem_zipIdx' hmem
    have hg : l.getD k 0 = x := by rw [List.getD_eq_getElem _ _ hk, hx]
    have := hall k (h ▸ hk)
    rw [hg] at this
    simp [this] at hne
  · intro hn
    push Not at hn
    obtain ⟨k, hk, hne⟩ := hn
    have hkl : k < l.length := h ▸ hk
    refine ⟨(l[k], k), ?_, ?_⟩
    · rw [List.mem_zipIdx_iff_getElem?]
      exact List.getElem?_eq_getElem hkl
    · rw [List.getD_eq_getElem _ _ hkl] at hne
      exact bne_iff_ne.mpr hne

theorem State.indCtrl_stores (s : State) (w : BitVec 32) : s.setReg 0x01000000 (BitVec.ofNat 32 ((w.toNat &&& 0x4F00FFFF) |||
      (s.regN 0x01000000 &&& 0x10000000 &&& (0xFFFFFFFF - w.toNat &&& 0xFFFFFFFF)))) =
    s.setReg 0x01000000 ((w &&& 0x4F00FFFF#32) ||| (s.reg 0x01000000 &&& 0x10000000#32 &&& ~~~w)) :=
  congrArg _ (indCtrl_word w (s.reg 0x01000000))

theorem exec_indRead_running (v : Word32) (hrun : s.halted = false) : exec (.indRead v) s = .next
    (if indLimit (bits v.toNat 24 4) ≤ bits v.toNat 0 16 then (s.indReading v).indRefuse (bits v.toNat 24 4) (bits v.toNat 0 16)
    else (List.range 8).foldl (fun u k => u.setReg (0x01000010 + 4 * k)
      (BitVec.ofNat 32 (((s.indReading v).indWords (bits v.toNat 24 4) (bits v.toNat 0 16)).getD k 0))) (s.indReading v)) := by
  refine (if_neg (Bool.eq_false_iff.mp hrun)).trans (congrArg Host.Outcome.next ?_)
  change s.indCtrl (indReadWord v).toNat = _
  obtain ⟨htarget, hindex⟩ := indReadWord_names v
  obtain ⟨hgo, hwrite⟩ := indReadWord_bits v
  rw [State.indCtrl, State.indCtrl_stores, indReadWord_stored, htarget, hindex, hgo, hwrite]
  refine (if_neg Bool.false_ne_true).trans (if_congr Iff.rfl rfl ((if_pos rfl).trans ?_))
  exact foldl_indWords (State.length_indWords _ _ _) _

theorem State.indData_setCtrl (s : State) (w : BitVec 32) :
    ((List.range 8).map fun k => (s.setReg 0x01000000 w).regN (Machine.indData k)) = s.indData := by
  refine List.map_congr_left fun k _ => ?_
  exact State.regN_setReg_ne s (by unfold Machine.indData; omega) w

theorem State.length_indData (s : State) : s.indData.length = 8 := by
  rw [State.indData, List.length_map, List.length_range]

/-- The checks of a write, as the model makes them, ask whether its words are legal. -/
theorem indLegal_iff {ws : List Nat} (h : ws.length = 8) : indLegal target index ws ↔
    ¬ ((ws.zipIdx.any fun (e : Nat × Nat) => (e.1 &&& indMask target index e.2) != e.1) = true ∨
      ((target == 4 && bits (ws.getD 0 0) 29 2 == 0) = true ∧ ws.getD 3 0 ≠ 0)) := by
  rw [any_reserved_iff h, not_or, not_not, indLegal, Bool.and_eq_true, beq_iff_eq, beq_iff_eq, not_and, not_not, and_imp]

section
variable (hrun : s.halted = false) (v : Word32)
include hrun

theorem exec_indWrite_running : exec (.indWrite v) s = .next
    (if indLimit (bits v.toNat 24 4) ≤ bits v.toNat 0 16 then (s.indWriting v).indRefuse (bits v.toNat 24 4) (bits v.toNat 0 16)
    else if (s.indData.zipIdx.any fun (e : Nat × Nat) => (e.1 &&& indMask (bits v.toNat 24 4) (bits v.toNat 0 16) e.2) != e.1) = true ∨
        ((bits v.toNat 24 4 == 4 && bits (s.indData.getD 0 0) 29 2 == 0) = true ∧ s.indData.getD 3 0 ≠ 0) then
      (s.indWriting v).indRefuse (bits v.toNat 24 4) (bits v.toNat 0 16)
    else (s.indWriting v).indStore (bits v.toNat 24 4) (bits v.toNat 0 16) s.indData) := by
  refine (if_neg (Bool.eq_false_iff.mp hrun)).trans (congrArg Host.Outcome.next ?_)
  change s.indCtrl (indWriteWord v).toNat = _
  obtain ⟨htarget, hindex⟩ := indWriteWord_names v
  obtain ⟨hgo, hwrite⟩ := indWriteWord_bits v
  rw [State.indCtrl, State.indCtrl_stores, indWriteWord_stored, htarget, hindex, hgo, hwrite]
  refine (if_neg Bool.false_ne_true).trans (if_congr Iff.rfl rfl ((if_neg Bool.false_ne_true).trans ?_))
  simp only [State.indData_setCtrl]
  rfl

theorem exec_indWrite_beyond (h : indLimit (bits v.toNat 24 4) ≤ bits v.toNat 0 16) :
    exec (.indWrite v) s = .next ((s.indWriting v).indRefuse (bits v.toNat 24 4) (bits v.toNat 0 16)) := by
  rw [exec_indWrite_running hrun, if_pos h]

theorem exec_indWrite_illegal (h : bits v.toNat 0 16 < indLimit (bits v.toNat 24 4))
    (hbad : ¬ indLegal (bits v.toNat 24 4) (bits v.toNat 0 16) s.indData) :
    exec (.indWrite v) s = .next ((s.indWriting v).indRefuse (bits v.toNat 24 4) (bits v.toNat 0 16)) := by
  rw [exec_indWrite_running hrun, if_neg (Nat.not_le.mpr h), if_pos (not_not.mp fun hn => hbad ((indLegal_iff s.length_indData).mpr hn))]

theorem exec_indWrite_legal (h : bits v.toNat 0 16 < indLimit (bits v.toNat 24 4))
    (hok : indLegal (bits v.toNat 24 4) (bits v.toNat 0 16) s.indData) :
    exec (.indWrite v) s = .next ((s.indWriting v).indStore (bits v.toNat 24 4) (bits v.toNat 0 16) s.indData) := by
  rw [exec_indWrite_running hrun, if_neg (Nat.not_le.mpr h), if_neg ((indLegal_iff s.length_indData).mp hok)]

end
end

/-! What a write stores (R364, R367, R371, R378, R379). -/

section
variable {u : State} {target index : Nat} {ws : List Nat}

/-- The record that eight words give. -/
def indValue (ws : List Nat) : Nat := ws.zipIdx.foldl (fun (a : Nat) (e : Nat × Nat) => a + e.1 * 2 ^ (32 * e.2)) 0

/-- A queue or a group has a WEIGHT (R367), as the model tests it. -/
theorem weighed_iff : (decide (target < 2) || ((decide (target = 2) || decide (target = 3)) && decide (index < 512))) = true ↔
    target < 2 ∨ ((target = 2 ∨ target = 3) ∧ index < 512) := by
  simp only [Bool.or_eq_true, Bool.and_eq_true, decide_eq_true_iff]

/-- A write moves a queue that holds frames (R364). -/
def State.indMoves (u : State) (target index new : Nat) : Prop :=
  target < 2 ∧ u.sq target index ≠ [] ∧
    (qLport new ≠ qLport (u.srec (recKey target index)) ∨ qGroup new ≠ qGroup (u.srec (recKey target index)))

/-- The part with a record stored and its buckets filled. -/
def State.indPut (u : State) (target index new : Nat) : State :=
  (u.withSector { u.sector with recs := tput 0 u.sector.recs (recKey target index) (BitVec.ofNat 256 new) }).fillBuckets (recKey target index)

/-- The part with a group's record stored, and its tags as the new priority leaves them. -/
def State.indPutGroup (u : State) (target index new : Nat) : State :=
  let put := u.indPut target index new
  let g := if gPrio new ≠ gPrio (u.srec (recKey target index)) then put.setTag (groupTag (target - 2) (index / 8) (index % 8)) none else put
  match g.groupQueues (target - 2) (index / 8) (index % 8) with
  | [] => g
  | q :: _ => g.retag (target - 2) q

theorem State.indStore_marks (h : target = 5 ∨ target = 6) : u.indStore target index ws =
    u.withSector { u.sector with hwm := tput (0, 0) u.sector.hwm (qInst (target - 5) index) (0, 0) } := if_pos h

section
variable {new : Nat} (hset : ¬ (target = 5 ∨ target = 6))
  (hnew : (if (decide (target < 2) || ((decide (target = 2) || decide (target = 3)) && decide (index < 512))) = true ∧ indValue ws % 65536 = 0
    then indValue ws + 1 else indValue ws) = new)
include hset hnew

theorem State.indStore_moves (h : u.indMoves target index new) : u.indStore target index ws = u.indRefuse target index := by
  subst hnew
  exact (if_neg hset).trans (if_pos h)

section
variable (hstay : ¬ u.indMoves target index new)
include hstay

theorem State.indStore_queue (h : target < 2) : u.indStore target index ws =
    if qToken new = true ∧ (u.indPut target index new).bburst (recKey target index) 0 < (u.indPut target index new).headLen target index then
      (u.indPut target index new).newHead target index
    else (u.indPut target index new).retag target index := by
  subst hnew
  refine (if_neg hset).trans ((if_neg hstay).trans ((if_congr ?_ rfl (if_pos h)).trans rfl))
  exact ⟨fun hc => hc.2, fun hc => ⟨h, hc⟩⟩

theorem State.indStore_group (h : target = 2 ∨ target = 3) (hi : index < 512) :
    u.indStore target index ws = u.indPutGroup target index new := by
  subst hnew
  have h2 : ¬ target < 2 := by omega
  exact (if_neg hset).trans ((if_neg hstay).trans ((if_neg fun hc => h2 hc.1).trans ((if_neg h2).trans (if_pos ⟨h, hi⟩))))

theorem State.indStore_plain (h : target = 4 ∨ ((target = 2 ∨ target = 3) ∧ 512 ≤ index)) :
    u.indStore target index ws = u.indPut target index new := by
  subst hnew
  have h2 : ¬ target < 2 := by omega
  exact (if_neg hset).trans ((if_neg hstay).trans ((if_neg fun hc => h2 hc.1).trans ((if_neg h2).trans (if_neg (by omega)))))

end
end
end

/-- Settles O34: the gate rows are the branches of their bodies; a control word of the window is stored bit by bit, and a legal write goes to
one of the forms of `indStore`. -/
theorem sectorGatesAndRecords : Obligations.SectorGatesAndRecords := by
  refine ⟨fun d s s0 => ⟨fun hacc => ?_, fun hacc hform => ?_, fun hacc hform => ?_, fun x => ⟨fun h => ?_, fun h => ?_, fun l g a b i ho ha =>
      exec_gateEntryAdvance_some ho ha, exec_gateEntryAdvance_none⟩⟩, fun v s => ⟨fun h => ⟨if_pos h, if_pos h⟩, fun hrun => ⟨fun h => ?_, fun h => ⟨?_, ?_⟩,
      fun h hbad => ?_, fun h hok => ?_⟩⟩⟩
  · rw [exec_gateLoad_accepted hacc]
    refine ⟨fun h => congrArg Host.Outcome.next (gateLoadBody_bad h), fun hok harm => congrArg Host.Outcome.next (gateLoadBody_armed hok harm),
      fun hok harm => ⟨fun st hq => ?_, fun bs hq => ?_⟩⟩
    · rw [gateLoadBody_reads hok harm, State.withBuf_of_error hq]
    · rw [gateLoadBody_reads hok harm, State.withBuf_of_ok hq]
      obtain ⟨hnone, hsome⟩ := gateLoadEntries_eq (d := d) (u := (s0.readBuf d .annulus (d.get 0x10 8) (8 * d.get 0xC 2)).2) bs
      exact ⟨fun h => congrArg Host.Outcome.next (hnone h), fun es h => congrArg Host.Outcome.next (hsome es h)⟩
  · rw [exec_gateArm_accepted hacc hform]
    refine ⟨fun h => congrArg Host.Outcome.next (gateArmBody_bad h), fun l hx hpend harm => ⟨fun hahead => ?_, fun hlate hc => ?_⟩⟩
    · rw [gateArmBody_arms hx hpend harm, State.gateStart_ahead hahead, State.gateArmed]
      simp only [ne_eq, not_true_eq_false, decide_false, Bool.or_false, Bool.false_eq_true, if_false, b2n]
    · obtain ⟨n, hst, hlo, hhi⟩ := State.gateStart_late hlate hc
      have hmoved : l.start + n * l.cycle ≠ l.start := fun he => by
        have : l.start < s0.gateBound := hlate
        omega
      refine ⟨n, hlo, hhi, ?_⟩
      rw [gateArmBody_arms hx hpend harm, hst, decide_eq_true hmoved, State.gateArmed]
      simp only [Bool.or_true, if_true, b2n]
  · rw [exec_gateArmCancel_accepted hacc hform]
    exact ⟨fun hx harm ht => congrArg Host.Outcome.next (gateCancelBody_ok hx harm ht), fun h => congrArg Host.Outcome.next (gateCancelBody_bad h)⟩
  · exact congrArg Host.Outcome.next (if_neg (Bool.eq_false_iff.mp h))
  · rw [exec_gateListStart_armed h]
    exact ⟨fun hn => congrArg Host.Outcome.next (State.startGate_none hn), fun l hl => congrArg Host.Outcome.next (State.startGate_some hl)⟩
  · rw [exec_indRead_running v hrun, if_neg (Nat.not_le.mpr h)]
    rfl
  · rw [exec_indRead_running v hrun, if_pos h]
    rfl
  · exact exec_indWrite_beyond hrun v h
  · exact exec_indWrite_illegal hrun v h hbad
  · rw [exec_indWrite_legal hrun v h hok]
    refine ⟨fun h56 => congrArg Host.Outcome.next (State.indStore_marks h56), fun hmoved => ?_, fun h2 hstay => ?_, fun hplain => ?_, fun hg hi => ?_⟩
    · have hset : ¬ (bits v.toNat 24 4 = 5 ∨ bits v.toNat 24 4 = 6) := by
        have := hmoved.1
        omega
      exact congrArg Host.Outcome.next (State.indStore_moves hset (if_congr (and_congr_left' weighed_iff) rfl rfl) hmoved)
    · exact congrArg Host.Outcome.next (State.indStore_queue (by omega) (if_congr (and_congr_left' weighed_iff) rfl rfl) hstay h2)
    · exact congrArg Host.Outcome.next
        (State.indStore_plain (by omega) (if_congr (and_congr_left' weighed_iff) rfl rfl) (fun hm => absurd hm.1 (by omega)) hplain)
    · exact (congrArg Host.Outcome.next
        (State.indStore_group (by omega) (if_congr (and_congr_left' weighed_iff) rfl rfl) (fun hm => absurd hm.1 (by omega)) hg hi)).trans rfl

end Sys2Proof.Machine
end

section
namespace Sys2Proof.Machine

/-! Pools and owners of Tessera, Annulus queues, punts and frees (R339, R342, R346 to R359, Tables 14.3 to 14.12). -/

/-! Register words of Tessera under their masks. -/

/-- A pool's word without its reserved bits. -/
def poolWord (v : Word32) : Word32 := v &&& 0x80FFFFFF
/-- An owner's MIN word without its reserved bits. -/
def minWord (v : Word32) : Word32 := v &&& 0xC00FFFFF

theorem poolWord_fields (v : Word32) : poolOn (poolWord v).toNat = poolOn v.toNat ∧ poolBase (poolWord v).toNat = poolBase v.toNat ∧
    poolCells (poolWord v).toNat = poolCells v.toNat := by
  refine ⟨?_, congrArg (· * 256) (bits_toNat_congr ?_), congrArg (· * 256) (bits_toNat_congr ?_)⟩
  · rw [poolOn, poolOn, bitOf, bitOf, poolWord, BitVec.toNat_and, Nat.testBit_and]
    exact Bool.and_true _
  all_goals
    unfold poolWord
    ext i hi
    simp only [BitVec.getElem_extractLsb', BitVec.getLsbD_and]
    generalize v.getLsbD _ = a
    revert a
    revert i
    decide

theorem minWord_fields (v : Word32) : minPool (minWord v).toNat = minPool v.toNat ∧ minCells (minWord v).toNat = minCells v.toNat := by
  have hcells : ∀ n, minCells n = bits n 0 20 := fun n => rfl
  rw [hcells, hcells]
  refine ⟨bits_toNat_congr ?_, bits_toNat_congr ?_⟩
  all_goals
    unfold minWord
    ext i hi
    simp only [BitVec.getElem_extractLsb', BitVec.getLsbD_and]
    generalize v.getLsbD _ = a
    revert a
    revert i
    decide

section
variable {s : State}

/-! TESSERA_POOL_p (R339). -/

/-- A pool that overlaps another enabled one. -/
def State.poolClash (s : State) (p v : Nat) : Prop :=
  ∃ q < 4, q ≠ p ∧ poolOn (s.poolReg q) = true ∧ poolBase v < poolBase (s.poolReg q) + poolCells (s.poolReg q) ∧
    poolBase (s.poolReg q) < poolBase v + poolCells v

/-- A write of a pool that R339 admits. -/
def State.poolOk (s : State) (p v : Nat) : Prop :=
  s.poolUsed p = 0 ∧ s.minSum p 256 (2 ^ 30 * ((p + 1) % 4)) ≤ poolCells v ∧
    (poolOn v = true → ¬ s.poolClash p v ∧ 0 < poolCells v ∧ poolBase v + poolCells v ≤ 524288)

/-- The part with a pool's word stored and its free lists built anew. -/
def State.poolStored (s : State) (p : Nat) (v : Word32) : State :=
  let u := s.setReg (0x00800010 + 4 * p) v
  let rest := s.tess.building.filter (· != p)
  u.withTess { s.tess with
    building := if poolOn v.toNat then rest ++ [p] else rest
    lists := s.tess.lists.filter (·.1 / 64 != p)
    broken := s.tess.broken.filter (·.1 != p)
    corrupt := s.tess.corrupt.filter fun e => u.cellPool e.1 != some p }

theorem State.poolClash_iff (p v : Nat) : s.poolClash p v ↔ (((List.range 4).filter (· != p)).any fun q =>
    poolOn (s.poolReg q) && poolBase v < poolBase (s.poolReg q) + poolCells (s.poolReg q) &&
      poolBase (s.poolReg q) < poolBase v + poolCells v) = true := by
  simp only [State.poolClash, List.any_filter, List.any_eq_true, List.mem_range, Bool.and_eq_true, bne_iff_ne, decide_eq_true_iff, and_assoc]

/-- The three checks of a write of a pool, in the model's order. -/
theorem State.writePool_eq (p : Nat) (v : Word32) : s.writePool p v.toNat =
    if 0 < s.poolUsed p then s.refuseTess
    else if poolOn (poolWord v).toNat ∧ ((((List.range 4).filter (· != p)).any fun q =>
        poolOn (s.poolReg q) && poolBase (poolWord v).toNat < poolBase (s.poolReg q) + poolCells (s.poolReg q) &&
          poolBase (s.poolReg q) < poolBase (poolWord v).toNat + poolCells (poolWord v).toNat) = true ∨ poolCells (poolWord v).toNat = 0 ∨
        524288 < poolBase (poolWord v).toNat + poolCells (poolWord v).toNat) then s.refuseTess
    else if poolCells (poolWord v).toNat < s.minSum p 256 (2 ^ 30 * ((p + 1) % 4)) then s.refuseTess
    else s.poolStored p (poolWord v) := by
  have hword : v.toNat &&& 0x80FFFFFF = (poolWord v).toNat := (BitVec.toNat_and v 0x80FFFFFF#32).symm
  unfold State.writePool
  rw [hword]
  dsimp only
  rw [BitVec.ofNat_toNat, BitVec.setWidth_eq]
  rfl

theorem State.writePool_bad {p : Nat} {v : Word32} (h : ¬ s.poolOk p v.toNat) : s.writePool p v.toNat = s.refuseTess := by
  obtain ⟨hon, hbase, hcells⟩ := poolWord_fields v
  rw [State.writePool_eq, hon, hbase, hcells]
  split
  · rfl
  · next hused =>
    split
    · rfl
    · next hfree =>
      refine if_pos (Nat.lt_of_not_le fun hmin => h ⟨by omega, hmin, fun hv => ?_⟩)
      simp only [not_and, not_or] at hfree
      obtain ⟨hclash, hzero, hend⟩ := hfree hv
      exact ⟨fun hc => hclash ((State.poolClash_iff _ _).mp hc), Nat.pos_of_ne_zero hzero, Nat.le_of_not_lt hend⟩

theorem State.writePool_ok {p : Nat} {v : Word32} (h : s.poolOk p v.toNat) : s.writePool p v.toNat = s.poolStored p (poolWord v) := by
  obtain ⟨hused, hmin, hfree⟩ := h
  obtain ⟨hon, hbase, hcells⟩ := poolWord_fields v
  rw [State.writePool_eq, hon, hbase, hcells, if_neg (by omega), if_neg, if_neg (Nat.not_lt.mpr hmin)]
  rintro ⟨hv, hbad⟩
  obtain ⟨hclash, hpos, hend⟩ := hfree hv
  exact hbad.elim (fun hc => hclash ((State.poolClash_iff _ _).mpr hc)) fun hz => hz.elim (Nat.pos_iff_ne_zero.mp hpos) (Nat.not_lt.mpr hend)

theorem tget_filter_none {α : Type} (d : α) (t : Tbl α) (f : Nat → Bool) {k : Nat} (hk : f k = false) : tget d (t.filter fun e => f e.1) k = d := by
  induction t with
  | nil => rfl
  | cons e t ih =>
    rw [List.filter_cons]
    split
    · next he =>
      refine (if_neg ?_).trans ih
      rintro rfl
      exact Bool.noConfusion (he.symm.trans hk)
    · exact ih

/-- A pool whose word is stored builds its lists if it is enabled, and no list of it is left. -/
theorem State.poolStored_spec (p : Nat) (v : Word32) :
    (p ∈ (s.poolStored p v).tess.building ↔ poolOn v.toNat = true) ∧
    (∀ q, q ≠ p → (q ∈ (s.poolStored p v).tess.building ↔ q ∈ s.tess.building)) ∧
    (∀ b < 64, tget [] (s.poolStored p v).tess.lists (64 * p + b) = [] ∧ (p, b) ∉ (s.poolStored p v).tess.broken) ∧
    (∀ q b, q ≠ p → ((q, b) ∈ (s.poolStored p v).tess.broken ↔ (q, b) ∈ s.tess.broken)) := by
  have hbuild : (s.poolStored p v).tess.building =
      if poolOn v.toNat then s.tess.building.filter (· != p) ++ [p] else s.tess.building.filter (· != p) := rfl
  have hbroken : (s.poolStored p v).tess.broken = s.tess.broken.filter (·.1 != p) := rfl
  rw [hbuild, hbroken]
  refine ⟨?_, fun q hq => ?_, fun b hb => ⟨tget_filter_none [] _ (fun n => n / 64 != p) ?_, ?_⟩, fun q b hq => ?_⟩
  · split <;> simp_all
  · split <;> simp [hq]
  · simp only [bne_eq_false_iff_eq]
    omega
  · simp
  · simp [hq]

/-! TESSERA_OWNER_o_MIN and _MAX (R339). -/

/-- A write of an owner's MIN that R339 ignores. -/
def State.minBad (s : State) (o v : Nat) : Prop :=
  (minPool (s.ownerMinReg o) ≠ minPool v ∧ (0 < s.poolUsed (minPool (s.ownerMinReg o)) ∨ 0 < s.poolUsed (minPool v))) ∨
    poolCells (s.poolReg (minPool v)) < s.minSum (minPool v) o v

theorem State.minSum_minWord (p o : Nat) (v : Word32) : s.minSum p o (minWord v).toNat = s.minSum p o v.toNat := by
  obtain ⟨hpool, hcells⟩ := minWord_fields v
  rw [State.minSum, hpool, hcells, State.minSum]

theorem State.writeOwnerMin_eq (o : Nat) (v : Word32) : s.writeOwnerMin o v.toNat =
    if minPool (s.ownerMinReg o) ≠ minPool v.toNat ∧ (0 < s.poolUsed (minPool (s.ownerMinReg o)) ∨ 0 < s.poolUsed (minPool v.toNat)) then s.refuseTess
    else if poolCells (s.poolReg (minPool v.toNat)) < s.minSum (minPool v.toNat) o v.toNat then s.refuseTess
    else s.setReg (0x00801000 + 16 * o) (minWord v) := by
  have hword : v.toNat &&& 0xC00FFFFF = (minWord v).toNat := (BitVec.toNat_and v 0xC00FFFFF#32).symm
  unfold State.writeOwnerMin
  dsimp only
  rw [hword, BitVec.ofNat_toNat, BitVec.setWidth_eq, (minWord_fields v).1, State.minSum_minWord]

theorem State.writeOwnerMin_bad {o : Nat} {v : Word32} (h : s.minBad o v.toNat) : s.writeOwnerMin o v.toNat = s.refuseTess := by
  rw [State.writeOwnerMin_eq]
  split
  · rfl
  · next hmove => exact if_pos (h.resolve_left hmove)

theorem State.writeOwnerMin_ok {o : Nat} {v : Word32} (h : ¬ s.minBad o v.toNat) :
    s.writeOwnerMin o v.toNat = s.setReg (0x00801000 + 16 * o) (minWord v) := by
  rw [State.writeOwnerMin_eq, if_neg fun hm => h (.inl hm), if_neg fun hm => h (.inr hm)]

end

/-! ANNULUS_Q_CFG_q (R352, R353). -/

section
variable {s : State} {q : Nat}

/-- A queue's word with ENABLE 1. -/
def onWord (v : Word32) : Word32 := (v ||| 0x80000000) &&& 0xC000000F
/-- A queue's word with ENABLE 0. -/
def offWord (v : Word32) : Word32 := v &&& 0x4000000F

theorem onWord_toNat (v : Word32) : (v.toNat ||| 2 ^ 31) &&& 0xC000000F = (onWord v).toNat := by
  rw [onWord, BitVec.toNat_and, BitVec.toNat_or]
  rfl

/-- What a queue's word with ENABLE 1 gives: the queue's kind, its entry size, and the words stored for it. -/
theorem onWord_fields (v : Word32) : bitOf (onWord v).toNat 30 = bitOf v.toNat 30 ∧ (onWord v).toNat % 16 = v.toNat % 16 ∧
    BitVec.ofNat 32 ((onWord v).toNat ||| 2 ^ 31) = onWord v ∧ BitVec.ofNat 32 ((onWord v).toNat % 2 ^ 31) = offWord v := by
  refine ⟨?_, ?_, ?_, ?_⟩
  · rw [bitOf, bitOf, onWord, BitVec.toNat_and, BitVec.toNat_or, Nat.testBit_and, Nat.testBit_or]
    generalize v.toNat.testBit 30 = a
    revert a
    decide
  · have hsize : ∀ n : Nat, n % 16 = bits n 0 4 := fun n => rfl
    rw [hsize, hsize]
    refine bits_toNat_congr ?_
    unfold onWord
    ext i hi
    simp only [BitVec.getElem_extractLsb', BitVec.getLsbD_and, BitVec.getLsbD_or]
    generalize v.getLsbD _ = a
    revert a
    revert i
    decide
  · rw [show (onWord v).toNat ||| 2 ^ 31 = (onWord v ||| 0x80000000#32).toNat from (BitVec.toNat_or (onWord v) 0x80000000#32).symm, BitVec.ofNat_toNat,
      BitVec.setWidth_eq]
    unfold onWord
    ext i hi
    simp only [BitVec.getElem_or, BitVec.getElem_and]
    generalize v[i] = a
    revert a
    revert i
    decide
  · rw [show (onWord v).toNat % 2 ^ 31 = (onWord v &&& 0x7FFFFFFF#32).toNat from
      (Nat.and_two_pow_sub_one_eq_mod _ 31).symm.trans (BitVec.toNat_and (onWord v) 0x7FFFFFFF#32).symm, BitVec.ofNat_toNat, BitVec.setWidth_eq]
    unfold onWord offWord
    ext i hi
    simp only [BitVec.getElem_or, BitVec.getElem_and]
    generalize v[i] = a
    revert a
    revert i
    decide

/-- Whether R352 admits a queue's configuration, its word written with ENABLE 1. -/
def State.queueOk (s : State) (q : Nat) (v : Word32) : Bool :=
  queueConfigOk q ((v.toNat ||| 2 ^ 31) &&& 0xC000000F) (s.regN (aqOff q + 4) % 2 ^ 25)

theorem State.queueEnable_on (v : Word32) (h : (s.aq q).enabled = true) :
    s.queueEnable q (v.toNat ||| 2 ^ 31) = s.setReg (aqOff q) (onWord v) := by
  unfold State.queueEnable
  rw [onWord_toNat]
  refine (if_pos h).trans ?_
  rw [(onWord_fields v).2.2.1]

section
variable (hoff : (s.aq q).enabled = false) (v : Word32)
include hoff

theorem State.queueEnable_ok (hok : s.queueOk q v = true) : s.queueEnable q (v.toNat ||| 2 ^ 31) =
    (s.setReg (aqOff q) (onWord v)).setAq q { AQueue.reset with
      enabled := true, ping := bitOf v.toNat 30, size := v.toNat % 16, cap := s.regN (aqOff q + 4) % 2 ^ 25
      base := 2 ^ 32 * (s.regN (aqOff q + 12) % 256) + 4096 * (s.regN (aqOff q + 8) / 4096) } := by
  rw [State.queueOk, onWord_toNat] at hok
  unfold State.queueEnable
  rw [onWord_toNat]
  obtain ⟨hping, hsize, -, -⟩ := onWord_fields v
  refine (if_neg (Bool.eq_false_iff.mp hoff)).trans ((if_neg ?_).trans ?_)
  · rw [hok]
    exact Bool.false_ne_true
  · rw [hping, hsize, BitVec.ofNat_toNat, BitVec.setWidth_eq]

theorem State.queueEnable_bad (hbad : s.queueOk q v = false) : s.queueEnable q (v.toNat ||| 2 ^ 31) =
    (s.setReg (aqOff q) (offWord v)).annStatus q 31 0x062 := by
  rw [State.queueOk, onWord_toNat] at hbad
  unfold State.queueEnable
  rw [onWord_toNat]
  refine (if_neg (Bool.eq_false_iff.mp hoff)).trans ((if_pos (congrArg (!·) hbad)).trans ?_)
  rw [(onWord_fields v).2.2.2]

end

/-- The part with a queue disabled. -/
def State.queueOff (s : State) (q : Nat) (v : Word32) : State := (s.setReg (aqOff q) (offWord v)).setAq q AQueue.reset

theorem State.queueDisable_eq (v : Word32) : s.queueDisable q v.toNat =
    if q = 255 then { s.queueOff q v with annulus := { (s.queueOff q v).annulus with inbound := [], inTotal := 0, inBad := [] } } else s.queueOff q v := by
  have hword : BitVec.ofNat 32 (v.toNat &&& 0x4000000F) = offWord v := by
    rw [show v.toNat &&& 0x4000000F = (offWord v).toNat from (BitVec.toNat_and v 0x4000000F#32).symm, BitVec.ofNat_toNat, BitVec.setWidth_eq]
  unfold State.queueDisable
  rw [hword]
  rfl

/-! BANK_SWAP (R355). -/

/-- The oldest entry of the tail begins an item. -/
def AQueue.whole (x : AQueue) : Bool := match x.tail with
  | [] => true
  | e :: _ => e.1

theorem AQueue.whole_iff (x : AQueue) : x.whole = true ↔ ∀ e es, x.tail = e :: es → e.1 = true := by
  unfold AQueue.whole
  cases x.tail with
  | nil => simp
  | cons e es => simp

/-! ENTRY_WRITE_COMPLETE (R356 to R358). -/

theorem State.entryWrite_idle {poison : Bool} (h : (s.aq q).tail = [] ∨ (s.aq q).open_ = false) : s.entryWrite q poison = s := by
  unfold State.entryWrite
  dsimp only
  split
  · rfl
  · next e _ ht =>
    refine if_pos (congrArg (!·) (h.resolve_left fun hnil => ?_))
    rw [hnil] at ht
    exact nomatch ht

section
variable {b : Bool} {e : List Byte} {rest : List (Bool × List Byte)} (ht : (s.aq q).tail = (b, e) :: rest) (ho : (s.aq q).open_ = true)
include ht ho

theorem State.entryWrite_clean {a : Bool × State} (ha : s.writeMem .annulus (0x2000 + 225) (s.aq q).slotAddr e = a) :
    (a.1 = true → s.entryWrite q false = a.2.setAq q { s.aq q with tail := rest, written := (s.aq q).written + 1 }) ∧
    (a.1 = false → s.entryWrite q false = (a.2.setAq q { s.aq q with stopped := true }).annStatus q 29 0x064) := by
  unfold State.entryWrite
  dsimp only
  rw [ht]
  dsimp only
  rw [ho]
  simp only [Bool.not_true, Bool.false_eq_true, if_false]
  rw [ha]
  obtain ⟨_ | _, v⟩ := a
  · exact ⟨fun h => Bool.noConfusion h, fun _ => rfl⟩
  · exact ⟨fun _ => rfl, fun h => Bool.noConfusion h⟩

theorem State.entryWrite_poisoned {d v : Nat × State} {p : Bool × State} (hd : s.draw 12 = d) (hv : d.2.draw 32 = v)
    (hp : v.2.writeMem .annulus (0x2000 + 225) (s.aq q).slotAddr
      (e.take (4 * (d.1 % (e.length / 4))) ++ le 4 v.1 ++ e.drop (4 * (d.1 % (e.length / 4)) + 4)) = p) :
    (p.1 = true → s.entryWrite q true = ((p.2.setAq q { s.aq q with
      tail := rest, written := (s.aq q).written + 1
      poisoned := (s.aq q).poisoned ++ [(s.aq q).written + if (s.aq q).ping = true ∧ (!(s.aq q).bank) = true then 2 ^ 32 else 0] }).count
        (cid 0x09 1 q)).raise 0x061
          ([BitVec.ofNat 8 q] ++ le 4 (if (s.aq q).ping then (s.aq q).written else (s.aq q).written % (s.aq q).cap))) ∧
    (p.1 = false → s.entryWrite q true = (p.2.setAq q { s.aq q with stopped := true }).annStatus q 29 0x064) := by
  unfold State.entryWrite
  dsimp only
  rw [ht]
  dsimp only
  rw [ho]
  simp only [Bool.not_true, Bool.false_eq_true, if_false, if_true]
  obtain ⟨w, t⟩ := d
  obtain ⟨x, t'⟩ := v
  rw [hd]
  dsimp only
  rw [hv]
  dsimp only
  rw [hp]
  obtain ⟨_ | _, u⟩ := p
  · exact ⟨fun h => Bool.noConfusion h, fun _ => rfl⟩
  · exact ⟨fun _ => rfl, fun h => Bool.noConfusion h⟩

end
end

/-! PUNT_COPY (R342, R358, R359). -/

section
variable {s : State} {ecc : Ecc}

theorem AQueue.takes {x : AQueue} (ho : x.open_ = true) (hf : x.full = false) : ¬ ((!x.open_) = true ∨ x.full = true) := by
  rw [ho, hf]
  exact fun hc => hc.elim Bool.false_ne_true Bool.false_ne_true

theorem State.puntCopy_nil (h : s.annulus.punts = []) : s.puntCopy ecc = s := by
  unfold State.puntCopy
  rw [h]

section
variable {p : Punt} {rest : List Punt} (h : s.annulus.punts = p :: rest)
include h

theorem State.puntCopy_dropped (hd : (s.aq p.queue).open_ = false ∨ (s.aq p.queue).full = true) : s.puntCopy ecc =
    ((({ s with annulus := { s.annulus with punts := rest } } : State).freeFrame (some 225) p.frame).count (cid 0x09 0 p.queue)).raiseOnce 0x060
      p.queue [BitVec.ofNat 8 p.queue] := by
  unfold State.puntCopy
  rw [h]
  exact if_pos (hd.imp_left fun ho => congrArg (!·) ho)

section
variable (ho : (s.aq p.queue).open_ = true) (hf : (s.aq p.queue).full = false)
include ho hf

theorem State.puntCopy_waits (ht : 64 ≤ (s.aq p.queue).tail.length) : s.puntCopy ecc = s := by
  unfold State.puntCopy
  rw [h]
  exact (if_neg (AQueue.takes ho hf)).trans (if_pos ht)

section
variable (ht : (s.aq p.queue).tail.length < 64)
include ht

theorem State.puntCopy_gone (hn : s.frame p.frame = none) :
    s.puntCopy ecc = ({ s with annulus := { s.annulus with punts := rest } } : State).freeFrame (some 225) p.frame := by
  unfold State.puntCopy
  rw [h]
  refine (if_neg (AQueue.takes ho hf)).trans ((if_neg (Nat.not_le.mpr ht)).trans ?_)
  rw [show ({ s with annulus := { s.annulus with punts := rest } } : State).frame p.frame = none from hn]

theorem State.puntCopy_copies {f : TFrame} (hs : s.frame p.frame = some f) {r : List Byte × State}
    (hr : ({ s with annulus := { s.annulus with punts := rest } } : State).readFrame p.frame ecc (f.bytes ++ f.fcsBytes) = r) :
    s.puntCopy ecc =
      (r.2.annPut p.queue [puntEntry f r.1 p.reason (s.aq p.queue).entry (ecc == .uncorrectable)]).freeFrame (some 225) p.frame := by
  unfold State.puntCopy
  rw [h]
  refine (if_neg (AQueue.takes ho hf)).trans ((if_neg (Nat.not_le.mpr ht)).trans ?_)
  rw [show ({ s with annulus := { s.annulus with punts := rest } } : State).frame p.frame = some f from hs]
  dsimp only
  rw [hr]

end
end
end

/-! Frees (R346 to R348, Table 14.3). -/

section
variable {o : Option Nat} {ptr : Nat}

/-- A pointer that names no cell of an enabled pool. -/
def State.badPtr (s : State) (ptr : Nat) : Prop := bits ptr 27 5 ≠ 0 ∨ bits ptr 0 8 ≠ 0 ∨ s.cellPool (bits ptr 8 19) = none

theorem State.freePtr_bad (h : s.badPtr ptr) : s.freePtr o ptr = s.refuseFree (o.getD 0) .badPtr (bits ptr 8 19) ptr := if_pos h

section
variable (hok : ¬ s.badPtr ptr)
include hok

theorem State.freePtr_double (h : s.tess.frames.find? (·.cells.contains (bits ptr 8 19)) = none) :
    s.freePtr o ptr = s.refuseFree (o.getD 0) .double (bits ptr 8 19) (bits ptr 8 19) := by
  refine (if_neg hok).trans ?_
  rw [h]

section
variable {f : TFrame} (hf : s.tess.frames.find? (·.cells.contains (bits ptr 8 19)) = some f)
include hf

theorem State.freePtr_corrupt {e : FreeErr} (h : s.tess.corrupt.lookup (bits ptr 8 19) = some e) :
    s.freePtr o ptr = s.refuseFree (o.getD f.charge) e (bits ptr 8 19) (bits ptr 8 19) := by
  refine (if_neg hok).trans ?_
  rw [hf]
  dsimp only
  rw [h]

theorem State.freePtr_foreign (h : s.tess.corrupt.lookup (bits ptr 8 19) = none) (hown : f.freeOk o = false) :
    s.freePtr o ptr = s.refuseFree (o.getD f.charge) .foreign (bits ptr 8 19) (bits ptr 8 19) := by
  refine (if_neg hok).trans ?_
  rw [hf]
  dsimp only
  rw [h]
  exact if_pos (congrArg (!·) hown)

/-- The holder frees a whole frame: one reference goes, and with the last the cells return to their lists. -/
theorem State.freePtr_frees (hclean : s.tess.corrupt = []) (hown : f.freeOk o = true) (hhead : f.cells.head? = some (bits ptr 8 19)) :
    s.freePtr o ptr = if dropRef o f.refs = [] then
      (s.withTess { s.tess with frames := s.tess.frames.filter (·.id != f.id) }).listCells f.pool f.cells
    else s.modFrame f.id fun x => { x with refs := dropRef o f.refs, cells := f.cells } := by
  obtain ⟨cs, hcells⟩ := List.head?_eq_some_iff.mp hhead
  refine (if_neg hok).trans ?_
  rw [hf]
  dsimp only
  rw [hclean]
  dsimp only [List.lookup_nil]
  rw [hown]
  have hkeep : f.cells.takeWhile (· != bits ptr 8 19) = [] := by
    rw [hcells, List.takeWhile_cons, if_neg (by simp)]
  have hwalk : f.cells.takeWhile (fun _ => (none : Option FreeErr).isNone) = f.cells := List.takeWhile_eq_self_iff.mpr fun _ _ => rfl
  simp only [hkeep, List.length_nil, List.drop_zero, hwalk, List.drop_length, List.nil_append, State.strand]
  by_cases hrefs : dropRef o f.refs = []
  · simp [hrefs]
  · simp [hrefs]

end
end
end
end

/-- Settles O35: each row is a branch of its function, and the register words are stored without their reserved bits. -/
theorem buffersQueuesAndPunts : Obligations.BuffersQueuesAndPunts := by
  refine ⟨fun s => ⟨fun h => ⟨fun p v => if_pos h, fun o m v => if_pos h⟩, fun p v hrun => ⟨fun h => ?_, fun h => ?_⟩,
      fun o v hrun => ⟨fun h => ?_, fun h => ?_, ?_⟩, fun p => rfl, fun p b => ⟨fun h => ?_, fun h => ?_⟩⟩,
    fun q s => ⟨fun h v => ⟨if_pos h, if_pos h, if_pos h⟩, fun v hrun => ⟨fun hon => ?_, fun hoff hok => ?_, fun hoff hbad => ?_, fun hq => ?_, fun hq => ?_,
      fun hn => ?_, fun hn => ?_⟩, ⟨fun h => ?_, fun h => ?_⟩, fun poison h => congrArg Host.Outcome.next (State.entryWrite_idle h), fun b e rest ht ho => ?_⟩,
    fun s ecc => ⟨fun h => congrArg Host.Outcome.next (State.puntCopy_nil h), fun p rest h => ?_, fun o ptr => ⟨State.freePtr_bad, State.freePtr_double,
      fun f e hok hf => State.freePtr_corrupt hok hf, fun f hok hf => State.freePtr_foreign hok hf, fun f hok hf => State.freePtr_frees hok hf⟩⟩⟩
  · exact (if_neg (Bool.eq_false_iff.mp hrun)).trans (congrArg Host.Outcome.next (State.writePool_bad h))
  · refine ⟨_, (if_neg (Bool.eq_false_iff.mp hrun)).trans (congrArg Host.Outcome.next (State.writePool_ok h)), rfl, ?_⟩
    rw [← (poolWord_fields v).1]
    exact State.poolStored_spec p.val (poolWord v)
  · exact (if_neg (Bool.eq_false_iff.mp hrun)).trans (congrArg Host.Outcome.next (State.writeOwnerMin_bad h))
  · exact (if_neg (Bool.eq_false_iff.mp hrun)).trans (congrArg Host.Outcome.next (State.writeOwnerMin_ok h))
  · exact if_neg (Bool.eq_false_iff.mp hrun)
  · exact congrArg Host.Outcome.next (if_pos (List.contains_iff_mem.mpr h))
  · exact congrArg Host.Outcome.next (if_neg fun hc => h (List.contains_iff_mem.mp hc))
  · exact (if_neg (Bool.eq_false_iff.mp hrun)).trans (congrArg Host.Outcome.next (State.queueEnable_on v hon))
  · exact (if_neg (Bool.eq_false_iff.mp hrun)).trans (congrArg Host.Outcome.next (State.queueEnable_ok hoff v hok))
  · exact (if_neg (Bool.eq_false_iff.mp hrun)).trans (congrArg Host.Outcome.next (State.queueEnable_bad hoff v hbad))
  · refine (if_neg (Bool.eq_false_iff.mp hrun)).trans (congrArg Host.Outcome.next ?_)
    rw [State.queueDisable_eq, if_neg fun h : q.toNat = 255 => hq (BitVec.eq_of_toNat_eq h)]
    rfl
  · have hq' : q.toNat = 255 := congrArg BitVec.toNat hq
    refine (if_neg (Bool.eq_false_iff.mp hrun)).trans (congrArg Host.Outcome.next ?_)
    rw [State.queueDisable_eq, if_pos hq']
    rfl
  · exact (if_neg (Bool.eq_false_iff.mp hrun)).trans (congrArg Host.Outcome.next (if_pos hn))
  · exact (if_neg (Bool.eq_false_iff.mp hrun)).trans (congrArg Host.Outcome.next (if_neg (Nat.not_le.mpr hn)))
  · obtain ⟨hon, hping, hdrain, hwritten, hwhole⟩ := h
    exact congrArg Host.Outcome.next (if_pos ⟨hon, hping, hdrain, hwritten, (AQueue.whole_iff _).mpr hwhole⟩)
  · refine congrArg Host.Outcome.next (if_neg fun hc => h ?_)
    obtain ⟨hon, hping, hdrain, hwritten, hwhole⟩ := hc
    exact ⟨hon, hping, hdrain, hwritten, (AQueue.whole_iff _).mp hwhole⟩
  · obtain ⟨hok, hbad⟩ := State.entryWrite_clean ht ho rfl
    obtain ⟨hpok, hpbad⟩ := State.entryWrite_poisoned ht ho rfl rfl rfl
    exact ⟨fun h => congrArg Host.Outcome.next (hok h), fun h => congrArg Host.Outcome.next (hbad h),
      fun h => congrArg Host.Outcome.next (hpok h), fun h => congrArg Host.Outcome.next (hpbad h)⟩
  · exact ⟨fun hd => congrArg Host.Outcome.next (State.puntCopy_dropped h hd), fun ho hf ht => congrArg Host.Outcome.next (State.puntCopy_waits h ho hf ht),
      fun ho hf ht => ⟨fun hn => congrArg Host.Outcome.next (State.puntCopy_gone h ho hf ht hn),
        fun f hs => congrArg Host.Outcome.next (State.puntCopy_copies h ho hf ht hs rfl)⟩⟩

end Sys2Proof.Machine
end

section
namespace Sys2Proof.Machine

/-! Frames between the edges, Sector and a Prism, and the work items of a Prism (R18 to R21, R118, R126 to R140, R200, R201, R217 to R220, R266). -/

/-! The line edge (R18, R139). -/

section
variable {s : State} {lp : Fin 64} {frame : List Byte}

/-- A line port takes frames for its Prism. -/
def State.takesLine (s : State) (lp : Nat) : Prop := s.receives (64 + lp) = true ∧ (s.lport (64 + lp)).mode ≠ some 7

theorem State.takesLine_iff (s : State) (lp : Nat) :
    s.takesLine lp ↔ ¬ ((!s.receives (64 + lp)) = true ∨ (s.lport (64 + lp)).mode = some 7) := by
  rw [State.takesLine, not_or, Bool.not_eq_true', Bool.not_eq_false]

theorem exec_lineFrameReceive_off (h : ¬ s.takesLine lp.val) : exec (.lineFrameReceive lp frame) s = .next s :=
  if_pos (not_not.mp fun hn => h ((s.takesLine_iff _).mpr hn))

theorem sound_iff : 4 ≤ frame.length ∧ fcsOk frame = true ↔ ¬ (frame.length < 4 ∨ (!fcsOk frame) = true) := by
  rw [not_or, Nat.not_lt, Bool.not_eq_true', Bool.not_eq_false]

section
variable (hon : s.takesLine lp.val)
include hon

theorem exec_lineFrameReceive_bad (h : ¬ (4 ≤ frame.length ∧ fcsOk frame = true)) :
    exec (.lineFrameReceive lp frame) s = .next (s.count (cid 0x02 0 lp.val)) :=
  (if_neg ((s.takesLine_iff _).mp hon)).trans (if_pos (not_not.mp fun hn => h (sound_iff.mpr hn)))

section
variable (hsound : 4 ≤ frame.length ∧ fcsOk frame = true)
include hsound

theorem exec_lineFrameReceive_long (h : 9248 < frame.length) : exec (.lineFrameReceive lp frame) s = .next (s.count (cid 0x02 1 lp.val)) :=
  (if_neg ((s.takesLine_iff _).mp hon)).trans ((if_neg (sound_iff.mp hsound)).trans (if_pos h))

theorem exec_lineFrameReceive_arrives (h : frame.length ≤ 9248) : exec (.lineFrameReceive lp frame) s =
    .next (s.lineArrive (s.rxPrism lp.val) lp.val (frame.take (frame.length - 4)) (s.rxStamp (16 + lp.val / 4) (s.stampClass (64 + lp.val)))) :=
  (if_neg ((s.takesLine_iff _).mp hon)).trans ((if_neg (sound_iff.mp hsound)).trans (if_neg (Nat.not_lt.mpr h)))

end
end
end

/-! A frame from the line in its Prism (R129, R136, R201). -/

section
variable {s : State} {n lp stamp : Nat} {body : List Byte} {i : Item} {go : Item → State → State}

theorem State.rxTake_room {l : Nat} (hl : s.staging n true i.lines = some l) (hr : s.reorderUsed n true < 256) :
    s.rxTake n lp i go = go { i with line := l, keep := s.fcsMode } s := by
  rw [State.rxTake, hl]
  exact if_pos hr

theorem State.rxTake_full (h : s.staging n true i.lines = none ∨ 256 ≤ s.reorderUsed n true) : s.rxTake n lp i go = s.overflow n lp := by
  rw [State.rxTake]
  split
  · next hl => exact if_neg (Nat.not_lt.mpr (h.resolve_left fun hn => Option.some_ne_none _ (hl.symm.trans hn)))
  · rfl

/-- Where the EtherType of a received frame stands. -/
def State.etyOff (s : State) (lp : Nat) (body : List Byte) : Nat := clearTags body (bits (s.lport (64 + lp)).macsec.toNat 24 2) 12

/-- The item of a frame of EtherType 0x88E5, as it takes staging. -/
def tagItem (lp off : Nat) (body : List Byte) : Item :=
  let tag := if bitOf (leAt body (off + 2) 1) 5 then 16 else 8
  let rest := body.drop (off + tag)
  newItem true lp (body.take (off + tag)) (rest.take (rest.length - 16)) (List.replicate 16 0) off 0 0

section
variable (hety : beAt body (s.etyOff lp body) 2 = 0x88E5)
include hety

theorem State.lineArrive_tagged {l : Nat} (hl : s.staging n true (tagItem lp (s.etyOff lp body) body).lines = some l)
    (hr : s.reorderUsed n true < 256) : s.lineArrive n lp body stamp =
      let t := s.secTag n lp (s.etyOff lp body) body stamp
      t.setUnit n { t.unit n with items := (t.unit n).items.map fun j =>
        if j.seq = s.prism.nextSeq then { j with line := l, keep := s.fcsMode } else j } :=
  (if_pos hety).trans (State.rxTake_room hl hr)

theorem State.lineArrive_taggedFull (h : s.staging n true (tagItem lp (s.etyOff lp body) body).lines = none ∨ 256 ≤ s.reorderUsed n true) :
    s.lineArrive n lp body stamp = s.overflow n lp := (if_pos hety).trans (State.rxTake_full h)

end

section
variable (hety : beAt body (s.etyOff lp body) 2 ≠ 0x88E5)
include hety

theorem State.lineArrive_full (h : s.staging n true (plainItem true lp body).lines = none ∨ 256 ≤ s.reorderUsed n true) :
    s.lineArrive n lp body stamp = s.overflow n lp := by
  refine (if_neg hety).trans ?_
  split
  · exact State.rxTake_full h
  · split <;> exact State.rxTake_full h

section
variable {l : Nat} (hl : s.staging n true (plainItem true lp body).lines = some l) (hr : s.reorderUsed n true < 256)
include hl hr

theorem State.lineArrive_open (h : (s.lport (64 + lp)).uncontrolled (beAt body (s.etyOff lp body) 2) = true ∨
      bitOf (s.lport (64 + lp)).macsec.toNat 18 = true) :
    s.lineArrive n lp body stamp = (s.addItem n { plainItem true lp body with line := l, keep := s.fcsMode, stamp := stamp }).count
      (cid 0x03 (if (s.lport (64 + lp)).uncontrolled (beAt body (s.etyOff lp body) 2) then 9 else 11) lp) := by
  refine (if_neg hety).trans ?_
  by_cases hun : (s.lport (64 + lp)).uncontrolled (beAt body (s.etyOff lp body) 2) = true
  · rw [if_pos hun]
    exact (if_pos hun).trans (State.rxTake_room hl hr)
  · rw [if_neg hun]
    exact (if_neg hun).trans ((if_pos (h.resolve_left hun)).trans (State.rxTake_room hl hr))

theorem State.lineArrive_dropped (hun : ¬ ((s.lport (64 + lp)).uncontrolled (beAt body (s.etyOff lp body) 2) = true ∨
      bitOf (s.lport (64 + lp)).macsec.toNat 18 = true)) :
    s.lineArrive n lp body stamp = s.rxDrop lp 10 (some (0x172, le 2 (beAt body (s.etyOff lp body) 2))) :=
  (if_neg hety).trans ((if_neg fun h => hun (.inl h)).trans ((if_neg fun h => hun (.inr h)).trans (State.rxTake_room hl hr)))

end
end
end

/-! SECTAG_CHECK (Table 5.7). -/

section
variable {s : State} {n lp off stamp : Nat} {body : List Byte}

/-- The octets after the SecTAG. -/
def tagRest (off : Nat) (body : List Byte) : List Byte := body.drop (off + if bitOf (leAt body (off + 2) 1) 5 then 16 else 8)

/-- A SecTAG that Table 5.7 refuses for itself. -/
def badTag (off : Nat) (body : List Byte) : Prop :=
  let tci := leAt body (off + 2) 1
  let sl := leAt body (off + 3) 1
  let data := (tagRest off body).length - 16
  bitOf tci 7 = true ∨ (bitOf tci 6 = true ∧ bitOf tci 5 = true) ∨ bitOf tci 4 = true ∨ bitOf tci 3 ≠ bitOf tci 2 ∨ 64 ≤ sl ∨
    (sl ≠ 0 ∧ sl ≠ data) ∨ (sl = 0 ∧ data < 48) ∨ (tagRest off body).length < 18

/-- The SCI that a SecTAG names (R129). -/
def State.tagSci (s : State) (lp off : Nat) (body : List Byte) : Option (BitVec 64) :=
  let tci := leAt body (off + 2) 1
  if bitOf tci 5 then some (BitVec.ofNat 64 (beAt body (off + 8) 8))
  else if bitOf tci 6 then some (BitVec.ofNat 64 (65536 * beAt body 6 6 + 1))
  else match s.rxScis lp with
    | [x] => some x
    | _ => none

/-- The association of an SCI and the tag's AN. -/
def State.tagSa (s : State) (lp off : Nat) (body : List Byte) (x : BitVec 64) : Option (Nat × Assoc) :=
  (s.rxSas lp).find? fun e => e.2.sci == x && e.2.an.toNat == leAt body (off + 2) 1 % 4 &&
    (e.2.status == .active || e.2.status == .retiring || e.2.status == .keyLost)

/-- The drop of a bad tag. -/
def State.tagDrop (s : State) (lp off : Nat) (body : List Byte) : State :=
  s.rxDrop lp 3 (some (0x174, [BitVec.ofNat 8 (leAt body (off + 2) 1)]))

/-- A frame whose SecTAG is good in itself, by the SCI that its tag names. -/
def State.secTagFor (s : State) (n lp off : Nat) (body : List Byte) (stamp : Nat) : Option (BitVec 64) → State
  | none => s.rxDrop lp 4 none
  | some x =>
    if !(s.rxScis lp).contains x then s.rxDrop lp 5 (some (0x170, le 8 x.toNat))
    else match s.tagSa lp off body x with
      | none => s.rxDrop lp 6 none
      | some (h, a) => s.rxSecured lp h a (beAt body (off + 4) 4) (fun s => s.tagDrop lp off body) fun s =>
        s.addItem n { newItem true lp (body.take (off + if bitOf (leAt body (off + 2) 1) 5 then 16 else 8))
          ((tagRest off body).take ((tagRest off body).length - 16)) ((tagRest off body).drop ((tagRest off body).length - 16)) off
            (body.length + 4) h with stamp := stamp, enc := bitOf (leAt body (off + 2) 1) 3 }

theorem State.secTag_bad (h : badTag off body) : s.secTag n lp off body stamp = s.tagDrop lp off body := if_pos h

section
variable (hok : ¬ badTag off body)
include hok

theorem State.secTag_good : s.secTag n lp off body stamp = s.secTagFor n lp off body stamp (s.tagSci lp off body) :=
  (if_neg hok).trans rfl

theorem State.secTag_noSci (h : s.tagSci lp off body = none) : s.secTag n lp off body stamp = s.rxDrop lp 4 none := by
  rw [State.secTag_good hok, h, State.secTagFor]

section
variable {x : BitVec 64} (hx : s.tagSci lp off body = some x)
include hx

theorem State.secTag_noScis (h : x ∉ s.rxScis lp) : s.secTag n lp off body stamp = s.rxDrop lp 5 (some (0x170, le 8 x.toNat)) := by
  rw [State.secTag_good hok, hx]
  refine if_pos (congrArg (!·) (Bool.eq_false_iff.mpr fun hc => h (List.contains_iff_mem.mp hc)))

section
variable (hmem : x ∈ s.rxScis lp)
include hmem

theorem State.secTag_noSa (h : s.tagSa lp off body x = none) : s.secTag n lp off body stamp = s.rxDrop lp 6 none := by
  rw [State.secTag_good hok, hx, State.secTagFor, List.contains_iff_mem.mpr hmem]
  refine (if_neg Bool.false_ne_true).trans ?_
  rw [h]

theorem State.secTag_sa {h : Nat} {a : Assoc} (ha : s.tagSa lp off body x = some (h, a)) : s.secTag n lp off body stamp =
    s.rxSecured lp h a (beAt body (off + 4) 4) (fun s => s.tagDrop lp off body) fun s =>
      s.addItem n { newItem true lp (body.take (off + if bitOf (leAt body (off + 2) 1) 5 then 16 else 8))
        ((tagRest off body).take ((tagRest off body).length - 16)) ((tagRest off body).drop ((tagRest off body).length - 16)) off
          (body.length + 4) h with stamp := stamp, enc := bitOf (leAt body (off + 2) 1) 3 } := by
  rw [State.secTag_good hok, hx, State.secTagFor, List.contains_iff_mem.mpr hmem]
  refine (if_neg Bool.false_ne_true).trans ?_
  rw [ha]

end
end
end

/-! The first replay check (R132, R137). -/

section
variable {h wire : Nat} {a : Assoc} {bad keep : State → State}

theorem State.rxSecured_zero (hpn : a.recoverPn wire = 0) : s.rxSecured lp h a wire bad keep = bad s := if_pos hpn

section
variable (hpn : a.recoverPn wire ≠ 0)
include hpn

theorem State.rxSecured_keyLost (hst : a.status = .keyLost) : s.rxSecured lp h a wire bad keep = (s.stat h 2 1).rxDrop lp 7 none :=
  (if_neg hpn).trans (if_pos hst)

theorem State.rxSecured_retiring (hst : a.status = .retiring) : s.rxSecured lp h a wire bad keep = s.stat h 5 1 := by
  refine (if_neg hpn).trans ((if_neg ?_).trans (if_pos hst))
  rw [hst]
  exact AssocStatus.noConfusion

theorem State.rxSecured_active (hst : a.status = .active) : s.rxSecured lp h a wire bad keep =
    if bitOf (s.lport (64 + lp)).macsec.toNat 19 = true ∧ a.recoverPn wire < a.nextN then (s.stat h 3 1).rxDrop lp 8 none else keep s := by
  refine (if_neg hpn).trans ((if_neg ?_).trans (if_neg ?_)) <;>
    rw [hst] <;> exact AssocStatus.noConfusion

end
end
end
end Sys2Proof.Machine
end

section
namespace Sys2Proof.Machine

/-! SECTOR_DEQUEUE (R128, R135, R201, R217, R218, R366, R528). -/

/-! The client edge. -/

section
variable {s : State} {lp : Fin 64} {ecc : Ecc}

/-- The client edge with the frame that Sector gives it, if it gives one. -/
def State.clientTaken (s : State) (lp : Nat) (ecc : Ecc) : Option (QEntry × State) → State
  | none => s
  | some (e, w) => match w.frame e.frame with
    | none => w
    | some f => w.clientSend lp e f ecc

theorem exec_dequeueClient_idle (h : s.receives lp.val = false ∨ s.attached lp.val = true ∨ s.pickFrame 0 lp.val = none) :
    exec (.sectorDequeue .client lp ecc) s = .next s := by
  show execSectorDequeue .client lp ecc s = _
  unfold execSectorDequeue
  dsimp only
  rw [Nat.mul_zero, Nat.zero_add]
  split
  · rfl
  · next hon =>
    rw [not_or] at hon
    obtain ⟨hrec, hatt⟩ := hon
    rw [(h.resolve_left fun hr => hrec (congrArg (!·) hr)).resolve_left fun ha => hatt ⟨rfl, ha⟩]

theorem exec_dequeueClient_picked (hrec : s.receives lp.val = true) (hatt : s.attached lp.val = false) {g q : Nat}
    (hp : s.pickFrame 0 lp.val = some (g, q)) :
    exec (.sectorDequeue .client lp ecc) s = .next (s.clientTaken lp.val ecc (s.takeHead 0 lp.val g q)) := by
  show execSectorDequeue .client lp ecc s = _
  unfold execSectorDequeue
  dsimp only
  rw [Nat.mul_zero, Nat.zero_add, hrec, hatt]
  refine (if_neg (by simp)).trans ?_
  rw [hp]
  dsimp only
  unfold State.clientTaken
  generalize s.takeHead 0 lp.val g q = taken
  obtain _ | ⟨e, w⟩ := taken
  · rfl
  · dsimp only
    cases w.frame e.frame <;> rfl

/-- What the client edge sends of a frame read as r (R15, R139, R349, R528). -/
theorem State.clientSend_eq (w : State) (lp : Nat) (e : QEntry) (f : TFrame) (ecc : Ecc) {r : List Byte × State}
    (hr : (w.holdFrame e.frame none (some (144 + lp / 4))).readFrame e.frame ecc f.bytes = r) :
    w.clientSend lp e f ecc =
      let short := f.bytes.length < 60
      let body := if short then slice r.1 0 60 else r.1
      let u := if short then r.2.count (cid 0x01 1 lp) else r.2
      let kept := f.keep.getLsbD (lp / 4) = true ∧ ¬ short ∧ f.charge < 128
      let v := if kept ∧ f.fcs = none then u.count (cid 0x01 2 lp) else u
      let ok := ecc ≠ .uncorrectable ∧ f.cut = false
      let fcs := match f.fcs with | some c => if kept ∧ ok then le 4 c.toNat else fcsBytes body ok | none => fcsBytes body ok
      ((v.sentStamp 0 lp e.tsId ok).emit (.clientFrame lp (body ++ fcs))).freeFrame (some (144 + lp / 4)) e.frame := by
  obtain ⟨data, t⟩ := r
  have hok : (ecc != .uncorrectable && !f.cut) = decide (ecc ≠ .uncorrectable ∧ f.cut = false) := by
    rw [Bool.eq_iff_iff]
    simp
  have hkept : (f.keep.getLsbD (lp / 4) && !(decide (f.bytes.length < 60) || decide (128 ≤ f.charge))) = true ↔
      f.keep.getLsbD (lp / 4) = true ∧ ¬ f.bytes.length < 60 ∧ f.charge < 128 := by
    simp
  unfold State.clientSend
  dsimp only
  rw [hr]
  dsimp only
  rw [hok]
  cases f.fcs with
  | none =>
    simp only [Option.isNone_none, Bool.and_true, hkept, and_true]
  | some c =>
    simp only [Option.isNone_some, Bool.and_false, Bool.false_eq_true, if_false, reduceCtorEq, and_false]
    simp only [Bool.and_eq_true (_ && _), hkept, decide_eq_true_iff]

theorem State.clientTaken_eq {e : QEntry} {w : State} (lp : Nat) :
    (w.frame e.frame = none → s.clientTaken lp ecc (some (e, w)) = w) ∧
    (∀ f, w.frame e.frame = some f → s.clientTaken lp ecc (some (e, w)) = w.clientSend lp e f ecc) := by
  refine ⟨fun h => ?_, fun f h => ?_⟩
  all_goals rw [State.clientTaken, h]

end

/-! A line port's Prism. -/

section
variable {s : State} {lp : Fin 64} {ecc : Ecc}

theorem exec_dequeueLine_idle (h : ¬ s.receives (64 + lp.val) = true ∨ s.pickFrame 1 lp.val = none) :
    exec (.sectorDequeue .line lp ecc) s = .next s := by
  show execSectorDequeue .line lp ecc s = _
  unfold execSectorDequeue
  dsimp only
  rw [Nat.mul_one]
  split
  · rfl
  · next hon =>
    rw [not_or, Bool.not_eq_true', Bool.not_eq_false] at hon
    obtain ⟨hrec, -⟩ := hon
    rw [h.resolve_left (not_not_intro hrec)]

theorem exec_dequeueLine_picked (hrec : s.receives (64 + lp.val) = true) {g q : Nat} (hp : s.pickFrame 1 lp.val = some (g, q)) :
    exec (.sectorDequeue .line lp ecc) s = .next (s.lineTake lp.val g q ecc) := by
  show execSectorDequeue .line lp ecc s = _
  unfold execSectorDequeue
  dsimp only
  rw [Nat.mul_one, hrec]
  refine (if_neg (by simp)).trans ?_
  rw [hp]

end

section
variable {s : State} {lp g q : Nat} {ecc : Ecc} {e : QEntry} {f : TFrame}

/-- Lines of staging that a transmit frame takes. -/
def State.txLines (s : State) (lp q : Nat) (e : QEntry) (f : TFrame) : Nat :=
  match s.txTake lp q e f with
  | .item i => i.lines
  | _ => (f.bytes.length + 127) / 128

/-- The Prism has staging and a reorder slot for a frame. -/
def State.txRoom (s : State) (lp q : Nat) (e : QEntry) (f : TFrame) : Bool :=
  (s.staging (lp / 4) false (s.txLines lp q e f)).isSome && decide (s.reorderUsed (lp / 4) false < 256)

/-- The frame as the Prism reads it from its cells. -/
def State.lineRead (w : State) (lp : Nat) (f : TFrame) (ecc : Ecc) : List Byte × State :=
  (w.holdFrame f.id none (some (128 + lp / 4))).readFrame f.id ecc f.bytes

/-- Whether a frame that cannot be corrected has partly left, which is free. -/
def State.lineLeft (w : State) (lp : Nat) (f : TFrame) (ecc : Ecc) : Nat × State :=
  if ecc == .uncorrectable then (w.lineRead lp f ecc).2.draw 1 else (0, (w.lineRead lp f ecc).2)

/-- The frame no longer waits for a thread. -/
def State.lineGone (w : State) (lp : Nat) (f : TFrame) (ecc : Ecc) : State :=
  let c := (w.lineLeft lp f ecc).2
  c.setUnit (lp / 4) { c.unit (lp / 4) with stalled := (c.unit (lp / 4)).stalled.filter (· != f.id) }

/-- A frame that the Prism does not take. -/
def State.lineDrop (x : State) (lp : Nat) (e : QEntry) (f : TFrame) : State := (x.freeFrame (some (128 + lp / 4)) f.id).notSent 1 lp e.tsId

/-- What the Prism makes of a frame that has not been dropped for its read. -/
def State.linePut (u : State) (lp : Nat) (e : QEntry) (f : TFrame) (bad : Bool) : TxTake → State
  | .refused => (u.count (cid 0x03 2 lp)).lineDrop lp e f
  | .noChannel => (((u.draw 32).2.count (cid 0x03 0 lp)).raiseOnce 0x173 (64 + lp) (BitVec.ofNat 8 (64 + lp) :: le 4 (u.draw 32).1)).lineDrop lp e f
  | .item i => match u.staging (lp / 4) false i.lines with
    | none => u.lineDrop lp e f
    | some l => u.addItem (lp / 4) { i with line := l, cut := bad }

/-- The Prism with the frame that Sector gives it, if it gives one. -/
def State.lineTaken (s : State) (lp q : Nat) (f : TFrame) (ecc : Ecc) : Option (QEntry × State) → State
  | none => s
  | some (e, w) =>
    if (ecc == .uncorrectable) = true ∧ (w.lineLeft lp f ecc).1 = 0 then (w.lineGone lp f ecc).lineDrop lp e f
    else (w.lineGone lp f ecc).linePut lp e f (ecc == .uncorrectable)
      ((w.lineGone lp f ecc).txTake lp q e { f with bytes := (w.lineRead lp f ecc).1 })

/-- The room that the Prism asks for, as the model finds it. -/
theorem State.txRoom_eq (s : State) (lp q : Nat) (e : QEntry) (f : TFrame) : s.txRoom lp q e f =
    match s.txTake lp q e f with
    | .item i => (s.staging (lp / 4) false i.lines).isSome && decide (s.reorderUsed (lp / 4) false < 256)
    | _ => (s.staging (lp / 4) false ((f.bytes.length + 127) / 128)).isSome && decide (s.reorderUsed (lp / 4) false < 256) := by
  unfold State.txRoom State.txLines
  cases s.txTake lp q e f <;> rfl

theorem State.lineTake_eq (he : (s.sq 1 q).head? = some e) (hf : s.frame e.frame = some f) : s.lineTake lp g q ecc =
    if (!s.txRoom lp q e f) = true ∨ ((s.cluster (lp / 4)).pause.isSome = true ∧ (!e.unctl) = true) then s
    else if (!(e.unctl || e.sc.isNone || decide (s.waitingItems (lp / 4) < s.idleThreads (lp / 4)))) = true then s.txStall lp f.id
    else s.lineTaken lp q f ecc (s.takeHead 1 lp g q) := by
  unfold State.lineTake
  rw [State.txRoom_eq, he]
  dsimp only
  rw [hf]
  dsimp only
  rfl

/-- The Prism can take a frame: staging, a reorder slot, and no pause of its cluster. -/
def State.lineRoom (s : State) (lp q : Nat) (e : QEntry) (f : TFrame) : Prop :=
  (s.staging (lp / 4) false (s.txLines lp q e f)).isSome = true ∧ s.reorderUsed (lp / 4) false < 256 ∧
    ((s.cluster (lp / 4)).pause = none ∨ e.unctl = true)

theorem State.lineRoom_iff : s.lineRoom lp q e f ↔
    ¬ ((!s.txRoom lp q e f) = true ∨ ((s.cluster (lp / 4)).pause.isSome = true ∧ (!e.unctl) = true)) := by
  simp only [State.lineRoom, State.txRoom, not_or, not_and, Bool.not_eq_true', Bool.not_eq_false, Bool.and_eq_true, decide_eq_true_iff,
    Option.isSome_iff_ne_none, and_assoc]
  rw [← or_iff_not_imp_left]

/-- A thread can take the frame, or it needs none (R218). -/
def State.lineThread (s : State) (lp : Nat) (e : QEntry) : Prop :=
  e.unctl = true ∨ e.sc = none ∨ s.waitingItems (lp / 4) < s.idleThreads (lp / 4)

theorem State.lineThread_iff : s.lineThread lp e ↔
    ¬ (!(e.unctl || e.sc.isNone || decide (s.waitingItems (lp / 4) < s.idleThreads (lp / 4)))) = true := by
  simp only [State.lineThread, Bool.not_eq_true', Bool.not_eq_false, Bool.or_eq_true, decide_eq_true_iff, Option.isNone_iff_eq_none, or_assoc]

section
variable (he : (s.sq 1 q).head? = some e) (hf : s.frame e.frame = some f)
include he hf

theorem State.lineTake_noRoom (h : ¬ s.lineRoom lp q e f) : s.lineTake lp g q ecc = s :=
  (State.lineTake_eq he hf).trans (if_pos (not_not.mp fun hn => h (State.lineRoom_iff.mpr hn)))

section
variable (hroom : s.lineRoom lp q e f)
include hroom

theorem State.lineTake_noThread (h : ¬ s.lineThread lp e) : s.lineTake lp g q ecc = s.txStall lp f.id :=
  (State.lineTake_eq he hf).trans ((if_neg (State.lineRoom_iff.mp hroom)).trans (if_pos (not_not.mp fun hn => h (State.lineThread_iff.mpr hn))))

theorem State.lineTake_takes (h : s.lineThread lp e) : s.lineTake lp g q ecc = s.lineTaken lp q f ecc (s.takeHead 1 lp g q) :=
  (State.lineTake_eq he hf).trans ((if_neg (State.lineRoom_iff.mp hroom)).trans (if_neg (State.lineThread_iff.mp h)))

end
end

/-- Some of the frame, or all of it, leaves. -/
def State.lineOn (w : State) (lp : Nat) (f : TFrame) (ecc : Ecc) : Prop := (ecc == .uncorrectable) = false ∨ (w.lineLeft lp f ecc).1 ≠ 0

theorem State.lineTaken_dropped {w : State} (h : ¬ w.lineOn lp f ecc) : s.lineTaken lp q f ecc (some (e, w)) = (w.lineGone lp f ecc).lineDrop lp e f := by
  refine if_pos ?_
  rw [State.lineOn, not_or, Bool.not_eq_false, not_not] at h
  exact h

theorem State.lineTaken_put {w : State} (h : w.lineOn lp f ecc) : s.lineTaken lp q f ecc (some (e, w)) =
    (w.lineGone lp f ecc).linePut lp e f (ecc == .uncorrectable)
      ((w.lineGone lp f ecc).txTake lp q e { f with bytes := (w.lineRead lp f ecc).1 }) := by
  refine if_neg fun hbad => ?_
  exact h.elim (fun hok => Bool.noConfusion (hok.symm.trans hbad.1)) fun hleft => hleft hbad.2

theorem State.linePut_item {u : State} {i : Item} {l : Nat} {bad : Bool} (h : u.staging (lp / 4) false i.lines = some l) :
    u.linePut lp e f bad (.item i) = u.addItem (lp / 4) { i with line := l, cut := bad } := by
  rw [State.linePut, h]

end
end Sys2Proof.Machine
end

section
namespace Sys2Proof.Machine

/-! Work items of a Prism: dispatch, release, and parked frames (R19, R21, R118, R132, R137, R204, R217 to R220, R266). -/

/-! PRISM_DISPATCH. -/

section
variable {s : State} {n : Nat} {i : Item} {perr shipped : Bool}

/-- The entry of an item's kind and direction in the active image of a cluster; none is 0xFFFFFFFF (R219). -/
def State.entryOf (s : State) (n : Nat) (i : Item) : Nat := match (s.cluster n).active with
  | some h => ((((s.cluster n).half h).map (·.entries)).getD []).getD (2 * i.kind + b2n i.recv) 0xFFFFFFFF
  | none => 0xFFFFFFFF

theorem State.dispatch_none (h : (s.unit n).items.find? (s.mayDispatch n) = none) : s.dispatch n perr shipped = s := by
  rw [State.dispatch, h]

theorem State.dispatch_some (h : (s.unit n).items.find? (s.mayDispatch n) = some i) :
    s.dispatch n perr shipped = s.dispatchItem n i perr shipped := by
  rw [State.dispatch, h]

theorem State.dispatchItem_paused (h : (s.cluster n).pause ≠ none) : s.dispatchItem n i perr shipped = s :=
  if_pos (Option.isSome_iff_ne_none.mpr h)

section
variable (hp : (s.cluster n).pause = none)
include hp

theorem State.dispatchItem_running : s.dispatchItem n i perr shipped =
    if s.entryOf n i = 0xFFFFFFFF then (if i.kind = 3 then s.chunkLost n i else (s.count (cid 0x04 1 i.lp)).dropSlot n i.seq)
    else match s.freeThread n with
      | none => if i.stalled = true ∨ i.kind = 3 then s
        else (s.modItem n i.seq fun i => { i with stalled := true }).count (cid 0x04 0 i.lp)
      | some k =>
        if i.kind = 3 then s.startChunk n k i (s.entryOf n i) ((s.cluster n).active.getD false) (shipped && s.runsShipped n)
        else if perr then (s.itemParity n i).dropSlot n i.seq
        else if shipped && s.runsShipped n then s.shipFrame n i
        else (s.modItem n i.seq fun i => { i with stage := .running k }).startThread n k i.seq i.fctx (s.entryOf n i)
          ((s.cluster n).active.getD false) none :=
  (if_neg (by rw [hp]; exact Bool.false_ne_true)).trans rfl

theorem State.dispatchItem_noEntry (h : s.entryOf n i = 0xFFFFFFFF) : s.dispatchItem n i perr shipped =
    if i.kind = 3 then s.chunkLost n i else (s.count (cid 0x04 1 i.lp)).dropSlot n i.seq :=
  (State.dispatchItem_running hp).trans (if_pos h)

section
variable (he : s.entryOf n i ≠ 0xFFFFFFFF)
include he

theorem State.dispatchItem_noThread (h : s.freeThread n = none) : s.dispatchItem n i perr shipped =
    if i.stalled = true ∨ i.kind = 3 then s
    else (s.modItem n i.seq fun i => { i with stalled := true }).count (cid 0x04 0 i.lp) := by
  rw [State.dispatchItem_running hp, if_neg he, h]

section
variable {k : Nat} (h : s.freeThread n = some k)
include h

theorem State.dispatchItem_chunk (hk : i.kind = 3) : s.dispatchItem n i perr shipped =
    s.startChunk n k i (s.entryOf n i) ((s.cluster n).active.getD false) (shipped && s.runsShipped n) := by
  rw [State.dispatchItem_running hp, if_neg he, h]
  exact if_pos hk

section
variable (hk : i.kind ≠ 3)
include hk

theorem State.dispatchItem_frame : s.dispatchItem n i perr shipped =
    if perr then (s.itemParity n i).dropSlot n i.seq
    else if shipped && s.runsShipped n then s.shipFrame n i
    else (s.modItem n i.seq fun i => { i with stage := .running k }).startThread n k i.seq i.fctx (s.entryOf n i)
      ((s.cluster n).active.getD false) none := by
  rw [State.dispatchItem_running hp, if_neg he, h]
  exact if_neg hk

end
end
end
end
end

/-! REORDER_RELEASE (R21). -/

section
variable {s : State} {lp : Fin 64} {dir : Dir} {perr parser : Bool} {em : List (Fin 4)}

/-- The Prism whose order a direction of a logical port has. -/
def State.orderPrism (s : State) (lp : Nat) (recv : Bool) : Nat := if recv then s.rxPrism lp else lp / 4

/-- An item of a direction of a logical port's order. -/
def inOrder (recv : Bool) (lp : Nat) (i : Item) : Bool := i.kind != 3 && i.recv == recv && i.lp == lp

/-- The part without the dropped slots at the head of a logical port's order. -/
def State.headDropped (s : State) (n : Nat) (recv : Bool) (lp : Nat) : State :=
  let gone := (((s.unit n).items.filter (inOrder recv lp)).takeWhile fun i => i.stage == .dropped && i.kind == 0).map (·.seq)
  s.setUnit n { s.unit n with items := (s.unit n).items.filter fun i => !gone.contains i.seq }

/-- The item at the head of a logical port's order leaves once it has its disposition. -/
def State.releaseHead (u : State) (n : Nat) (recv perr parser : Bool) (em : List (Fin 4)) : Option Item → Out
  | none => .next u
  | some i => if i.kind = 1 then .next (u.facetRelease n recv perr) else match i.stage with
    | .emitted e => .next (if recv then u.rxRelease n i (some e) perr parser em else u.txRelease n i (some e) perr)
    | .plain => .next (if recv then u.rxRelease n i none perr parser em else u.txRelease n i none perr)
    | _ => .next u

theorem exec_reorderRelease_eq : exec (.reorderRelease lp dir perr parser em) s =
    (let n := s.orderPrism lp.val (dir == .receive)
    let u := s.headDropped n (dir == .receive) lp.val
    u.releaseHead n (dir == .receive) perr parser em ((u.unit n).items.find? (inOrder (dir == .receive) lp.val))) := rfl

section
variable {u : State} {n : Nat} {recv : Bool} {i : Item}

theorem State.releaseHead_facet (h : i.kind = 1) : u.releaseHead n recv perr parser em (some i) = .next (u.facetRelease n recv perr) := if_pos h

section
variable (h : i.kind ≠ 1)
include h

theorem State.releaseHead_emitted {e : Emitted} (hs : i.stage = .emitted e) : u.releaseHead n recv perr parser em (some i) =
    .next (if recv then u.rxRelease n i (some e) perr parser em else u.txRelease n i (some e) perr) := by
  refine (if_neg h).trans ?_
  rw [hs]

theorem State.releaseHead_plain (hs : i.stage = .plain) : u.releaseHead n recv perr parser em (some i) =
    .next (if recv then u.rxRelease n i none perr parser em else u.txRelease n i none perr) := by
  refine (if_neg h).trans ?_
  rw [hs]

theorem State.releaseHead_waits (hp : i.stage ≠ .plain) (he : ∀ e, i.stage ≠ .emitted e) : u.releaseHead n recv perr parser em (some i) = .next u := by
  refine (if_neg h).trans ?_
  split
  · next e hs => exact absurd hs (he e)
  · next hs => exact absurd hs hp
  · rfl

end
end
end

/-! Items that leave (R132, R137, R204, R528). -/

section
variable {s : State} {n : Nat} {i : Item} {e : Emitted} {parser : Bool} {em : List (Fin 4)}

/-- The Prism without an item. -/
def State.itemGone (u : State) (n : Nat) (i : Item) : State :=
  u.setUnit n { u.unit n with items := (u.unit n).items.filter (·.seq != i.seq) }

theorem State.rxRelease_failed (h : i.verified = false) : s.rxRelease n i (some e) false parser em =
    (s.dropFor n i.assoc (tagReason (s.lport (64 + i.lp)).macsec.toNat i.enc) i).itemGone n i := by
  unfold State.rxRelease
  simp only [Bool.false_eq_true, false_and, if_false]
  exact if_pos (congrArg (!·) h)

theorem State.rxRelease_verified (h : i.verified = true) {r : Bool × State} (hr : s.releaseCheck i e = r) :
    s.rxRelease n i (some e) false parser em =
      (let v := (r.2.saLeave i.sa).itemGone n i
      let body := i.plaintext.take (e.len - 4)
      if r.1 then v.classify ⟨{ TFrame.arrived (64 + i.lp) body (some (Crypto.crc32 body)) i.keep i.stamp false (some i.assoc) with
        cut := false }, parser, em⟩ else v) := by
  unfold State.rxRelease
  simp only [Bool.false_eq_true, false_and, if_false]
  rw [h]
  refine (if_neg Bool.false_ne_true).trans ?_
  rw [hr]
  obtain ⟨_ | _, _⟩ := r <;> rfl

theorem State.txRelease_lost (h : i.taken = none ∨ beAt i.bytes i.offset 2 ≠ 0x88E5) :
    s.txRelease n i (some e) false = ((s.count (cid 0x04 1 i.lp)).dropSlot n i.seq).itemGone n i := by
  have hlost : (some e).isSome = true ∧ (i.taken.isNone = true ∨ beAt i.bytes i.offset 2 ≠ 0x88E5) :=
    ⟨rfl, h.imp_left fun ht => Option.isNone_iff_eq_none.mpr ht⟩
  unfold State.txRelease
  simp only [Bool.false_eq_true, false_and, if_false]
  exact if_pos hlost

theorem State.txRelease_sent (ht : i.taken ≠ none) (hety : beAt i.bytes i.offset 2 = 0x88E5) (hcut : i.cut = false) (hfcs : i.fcs = none) :
    s.txRelease n i (some e) false =
      (let b := i.packed.take (e.len - 4)
      let v := (s.sentStamp 1 i.lp i.tsId true).emit (.lineFrame i.lp (b ++ fcsBytes b true))
      let w := match i.frame with | some f => v.freeFrame (some (128 + n)) f | none => v
      ((if e.enc then (w.stat i.assoc 1 1).stat i.assoc 3 e.octets
        else (w.stat i.assoc 0 1).stat i.assoc 2 e.octets).saLeave i.sa).itemGone n i) := by
  have hkept : ¬ ((some e).isSome = true ∧ (i.taken.isNone = true ∨ beAt i.bytes i.offset 2 ≠ 0x88E5)) := by
    rintro ⟨-, hnone | hne⟩
    · exact ht (Option.isNone_iff_eq_none.mp hnone)
    · exact hne hety
  unfold State.txRelease
  simp only [Bool.false_eq_true, false_and, if_false]
  refine (if_neg hkept).trans ?_
  rw [hfcs, hcut]
  refine (if_neg fun h => Bool.false_ne_true h.2.2).trans ?_
  rfl

end

/-! Parked frames (R118, R266). -/

section
variable {s : State} {q : BitVec 12}

theorem exec_holdLimitExpiry_none (h : (s.parkedOf q.toNat fun x => !x.twin) = none) : exec (.holdLimitExpiry q) s = .next s := by
  show execHoldLimitExpiry q s = _
  rw [execHoldLimitExpiry, h]

theorem exec_holdLimitExpiry_some {n : Nat} {p : Parked} (h : (s.parkedOf q.toNat fun x => !x.twin) = some (n, p)) :
    exec (.holdLimitExpiry q) s = .next (((s.passTo p.due).setUnit n { (s.passTo p.due).unit n with
      expired := p.item.handle :: ((s.passTo p.due).unit n).expired.filter (· != p.item.handle) }).dropParked n 5 p) := by
  show execHoldLimitExpiry q s = _
  rw [execHoldLimitExpiry, h]

theorem exec_parkedFrameRedispatch_none (h : s.parkedOf q.toNat s.cleared = none) : exec (.parkedFrameRedispatch q) s = .next s := by
  show execParkedFrameRedispatch q s = _
  rw [execParkedFrameRedispatch, h]

theorem exec_parkedFrameRedispatch_some {n : Nat} {p : Parked} (h : s.parkedOf q.toNat s.cleared = some (n, p)) :
    exec (.parkedFrameRedispatch q) s = .next (if 256 ≤ s.reorderUsed n false then s else ((s.setUnit n { s.unit n with
      parked := (s.unit n).parked.filter fun x => x.item.seq != p.item.seq }).addItem n { p.item with stalled := false }).restop) := by
  show execParkedFrameRedispatch q s = _
  rw [execParkedFrameRedispatch, h]
  dsimp only
  split <;> rfl

end

/-- Settles O39: each row is a branch of its function, through the rules of the line edge, SECTAG_CHECK, dequeue, dispatch and release. -/
theorem prismsMoveFramesAndItems : Obligations.PrismsMoveFramesAndItems := by
  refine ⟨fun lp s => ⟨fun frame => ?_, fun off body stamp => ?_, fun ecc => ⟨exec_dequeueClient_idle, exec_dequeueLine_idle, fun g q hrec hatt hp => ?_,
      fun g q e f hon hp he hf => ?_⟩⟩,
    fun s => ⟨fun n perr shipped h => congrArg Host.Outcome.next (State.dispatch_none h), fun n perr shipped i h => ?_, fun lp dir perr parser em => ?_,
      fun n i e parser em => ⟨rfl, State.rxRelease_failed, fun h => State.rxRelease_verified h rfl, State.txRelease_lost, State.txRelease_sent⟩,
      fun q => ⟨exec_holdLimitExpiry_none, fun n p => exec_holdLimitExpiry_some, exec_parkedFrameRedispatch_none, fun n p =>
        exec_parkedFrameRedispatch_some⟩⟩⟩
  · refine ⟨exec_lineFrameReceive_off, exec_lineFrameReceive_bad, exec_lineFrameReceive_long, exec_lineFrameReceive_arrives,
      fun l hl hr => ⟨fun hopen => State.lineArrive_open hopen.1 hl hr hopen.2, fun hety hclosed => ?_⟩,
      ⟨fun l hety => State.lineArrive_tagged hety, State.lineArrive_taggedFull⟩, State.lineArrive_full⟩
    exact (State.lineArrive_dropped hety hl hr fun hun => hclosed ⟨hety, hun⟩).trans rfl
  · refine ⟨State.secTag_bad, State.secTag_noSci, fun x hok hx => ⟨State.secTag_noScis hok hx, State.secTag_noSa hok hx, fun h a hmem ha => ?_⟩⟩
    have htag := State.secTag_sa (n := s.rxPrism lp.val) (stamp := stamp) hok hx hmem ha
    refine ⟨fun hpn => htag.trans (State.rxSecured_zero hpn), fun hpn hst => htag.trans (State.rxSecured_keyLost hpn hst),
      fun hpn hst => htag.trans (State.rxSecured_retiring hpn hst), fun hpn hst hlate => htag.trans ((State.rxSecured_active hpn hst).trans (if_pos hlate)),
      fun hpn hst hlate => htag.trans ((State.rxSecured_active hpn hst).trans (if_neg hlate))⟩
  · rw [exec_dequeueClient_picked hrec hatt hp]
    refine ⟨fun h => by rw [h]; rfl, fun e w h => ?_⟩
    rw [h]
    obtain ⟨hnone, hsome⟩ := State.clientTaken_eq (s := s) (ecc := ecc) (e := e) (w := w) lp.val
    exact ⟨fun hf => congrArg Host.Outcome.next (hnone hf), fun f hf => congrArg Host.Outcome.next ((hsome f hf).trans (w.clientSend_eq lp.val e f ecc rfl))⟩
  · rw [exec_dequeueLine_picked hon hp]
    refine ⟨fun h => congrArg Host.Outcome.next (State.lineTake_noRoom he hf h),
      fun hroom h => congrArg Host.Outcome.next (State.lineTake_noThread he hf hroom h), fun w hroom hthread hw => ?_⟩
    rw [State.lineTake_takes he hf hroom hthread, hw]
    refine ⟨fun hno => congrArg Host.Outcome.next (State.lineTaken_dropped hno), fun hyes ht => congrArg Host.Outcome.next ?_,
      fun hyes ht => congrArg Host.Outcome.next ?_, fun i l hyes ht hl => congrArg Host.Outcome.next ?_⟩
    · exact (State.lineTaken_put hyes).trans (congrArg (State.linePut _ _ _ _ _) ht)
    · exact (State.lineTaken_put hyes).trans (congrArg (State.linePut _ _ _ _ _) ht)
    · exact (State.lineTaken_put hyes).trans ((congrArg (State.linePut _ _ _ _ _) ht).trans (State.linePut_item hl))
  · have hexec : exec (.prismDispatch n ⟨perr, shipped⟩) s = .next (s.dispatchItem n.val i perr shipped) :=
      congrArg Host.Outcome.next (State.dispatch_some h)
    rw [hexec]
    refine ⟨fun hp => congrArg Host.Outcome.next (State.dispatchItem_paused hp), fun hp he => congrArg Host.Outcome.next (State.dispatchItem_noEntry hp he),
      fun hgo hk => congrArg Host.Outcome.next (State.dispatchItem_noThread hgo.1 hgo.2 hk), fun k hgo hk => ⟨fun h3 => ?_, fun h3 hperr => ?_, fun h3 hperr hw => ?_,
        fun h3 hperr hw => ?_⟩⟩
    · exact congrArg Host.Outcome.next (State.dispatchItem_chunk hgo.1 hgo.2 hk h3)
    · rw [State.dispatchItem_frame hgo.1 hgo.2 hk h3, if_pos hperr]
    · rw [State.dispatchItem_frame hgo.1 hgo.2 hk h3, if_neg (Bool.eq_false_iff.mp hperr), if_pos hw]
    · rw [State.dispatchItem_frame hgo.1 hgo.2 hk h3, if_neg (Bool.eq_false_iff.mp hperr), if_neg (Bool.eq_false_iff.mp hw)]
      rfl
  · rw [exec_reorderRelease_eq]
    refine ⟨fun h => ?_, fun i h => ⟨fun h1 => ?_, fun e h1 hs => ?_, fun h1 hs => ?_, fun h1 hp he => ?_⟩⟩
    · exact congrArg (State.releaseHead _ _ _ _ _ _) h
    · exact (congrArg (State.releaseHead _ _ _ _ _ _) h).trans (State.releaseHead_facet h1)
    · exact (congrArg (State.releaseHead _ _ _ _ _ _) h).trans (State.releaseHead_emitted h1 hs)
    · exact (congrArg (State.releaseHead _ _ _ _ _ _) h).trans (State.releaseHead_plain h1 hs)
    · exact (congrArg (State.releaseHead _ _ _ _ _ _) h).trans (State.releaseHead_waits h1 hp he)

end Sys2Proof.Machine
end

section
namespace Sys2Proof.Machine

/-! Radius's settings, service, checkpoints and records (R282 to R291, R307 to R309, R508 to R510). -/

/-! A command's form. -/

section
variable {d : Desc} {s s0 u : State} {mine last m : Nat} {f : List (Nat × Nat)} {body : State → State}

theorem formRow_accepted (h : Accepted d m ((8, 1) :: f) s s0) (hmine : d.formIs mine last = true) :
    formRow d mine last m f body s = formBody d last body s0 := by
  rw [formRow_eq, if_pos hmine, ringCommand_accepts h]

theorem Desc.formIs_mine (h : d.get 8 1 = mine) : d.formIs mine last = true := by
  rw [Desc.formIs, h, beq_self_eq_true]
  rfl

theorem Desc.formIs_past (h : last < d.get 8 1) : d.formIs mine last = true := by
  rw [Desc.formIs, decide_eq_true h, Bool.or_true]

theorem formBody_past (h : last < d.get 8 1) : formBody d last body u = u.done d .badRequest := if_pos h

theorem formBody_in (h : ¬ last < d.get 8 1) : formBody d last body u = body u := if_neg h

end

/-! SENSOR_GROUP_SET (R290, R508). -/

section
variable {d : Desc} {s s0 u : State} {m n : Nat} {ok : Nat → Bool} {put : Nat → Nat → State → State}

theorem setBody_beyond (h : m ≤ d.get 0xC 4) : setBody d m n ok put u = u.done d .badRequest := if_pos h

section
variable (h : d.get 0xC 4 < m)
include h

theorem setBody_unread {st : Status} (hq : (u.readBuf d .annulus (d.get 0x10 8) n).1 = .error st) :
    setBody d m n ok put u = (u.readBuf d .annulus (d.get 0x10 8) n).2.done d st :=
  (if_neg (Nat.not_le.mpr h)).trans (State.withBuf_of_error hq)

theorem setBody_read {bs : List Byte} (hq : (u.readBuf d .annulus (d.get 0x10 8) n).1 = .ok bs) : setBody d m n ok put u =
    if ok (leNat bs) then (put (d.get 0xC 4) (leNat bs) (u.readBuf d .annulus (d.get 0x10 8) n).2).done d .ok
    else (u.readBuf d .annulus (d.get 0x10 8) n).2.done d .badRequest :=
  (if_neg (Nat.not_le.mpr h)).trans (State.withBuf_of_ok hq)

end

/-- The rows of SENSOR_GROUP_SET that read a record. -/
theorem setRow_answers {c : Instr} {op : Nat} (hop : op ≤ 4)
    (hc : exec c s = .next (formRow d op 4 0 [(0xC, 4), (0x10, 8)] (setBody d m n ok put) s))
    (hacc : Accepted d 0 [(8, 1), (0xC, 4), (0x10, 8)] s s0) :
    let q := s0.readBuf d .annulus (d.get 0x10 8) n
    (4 < d.get 8 1 → exec c s = .next (s0.done d .badRequest)) ∧
    (d.get 8 1 = op → m ≤ d.get 0xC 4 → exec c s = .next (s0.done d .badRequest)) ∧
    (∀ st, d.get 8 1 = op → d.get 0xC 4 < m → q.1 = .error st → exec c s = .next (q.2.done d st)) ∧
    (∀ bs, d.get 8 1 = op → d.get 0xC 4 < m → q.1 = .ok bs → exec c s =
      .next (if ok (leNat bs) then (put (d.get 0xC 4) (leNat bs) q.2).done d .ok else q.2.done d .badRequest)) := by
  have hmine : d.get 8 1 = op → exec c s = .next (setBody d m n ok put s0) := fun ho => by
    rw [hc, formRow_accepted hacc (Desc.formIs_mine ho), formBody_in (by omega)]
  refine ⟨fun h => ?_, fun ho h => ?_, fun st ho h hq => ?_, fun bs ho h hq => ?_⟩
  · rw [hc, formRow_accepted hacc (Desc.formIs_past h), formBody_past h]
  · rw [hmine ho, setBody_beyond h]
  · rw [hmine ho, setBody_unread h hq]
  · rw [hmine ho, setBody_read h hq]

/-- The body of SENSOR_GROUP_SET QUEUE. -/
def setQueueBody (d : Desc) (s : State) : State :=
  if 8192 ≤ d.get 0xC 4 ∨ 64 ≤ d.get 0x18 4 then s.done d .badRequest
  else (s.withRadius { s.radius with queues := tput 0 s.radius.queues (d.get 0xC 4) (BitVec.ofNat 6 (d.get 0x18 4)) }).done d .ok

theorem exec_setQueue_accepted (hacc : Accepted d 0 [(8, 1), (0xC, 4), (0x18, 4)] s s0) (hmine : d.formIs 3 4 = true) :
    exec (.sensorGroupSetQueue d) s = .next (formBody d 4 (setQueueBody d) s0) :=
  congrArg Host.Outcome.next (formRow_accepted hacc hmine)

end

/-! SERVICE (R282, R291). -/

section
variable {d : Desc} {s s0 u : State}

/-- The body of SERVICE with ENABLE 0. -/
def serviceDisableBody (d : Desc) (s : State) : State := match s.radius.mode with
  | .idle => (s.raise 0x1CC []).done d .ok
  | .draining => s.done d .inUse
  | .running => s.withRadius { s.radius with mode := .draining, disable := some (d, s.clk + s.timeoutOf d 1000000) }

theorem exec_serviceEnable_accepted (hacc : Accepted d 1 [(8, 1)] s s0) (hform : ¬ (d.get 8 1 = 4 ∧ (!bitOf d.flags 0) = true))
    (hmine : d.formIs 4 4 = true) : exec (.serviceEnable d) s = .next (formBody d 4 (serviceEnableBody d) s0) :=
  (if_neg hform).trans (congrArg Host.Outcome.next (formRow_accepted hacc hmine))

theorem exec_serviceDisable_accepted (hacc : Accepted d 1 [(8, 1)] s s0) (hform : ¬ (d.get 8 1 = 4 ∧ bitOf d.flags 0 = true))
    (hmine : d.formIs 4 4 = true) : exec (.serviceDisable d) s = .next (formBody d 4 (serviceDisableBody d) s0) :=
  (if_neg hform).trans (congrArg Host.Outcome.next (formRow_accepted hacc hmine))

/-- The part with the area's base sampled, and the area cleared where its tables are empty. -/
def State.areaSampled (s : State) : State :=
  let u := s.withRadius { s.radius with base := s.regN 0x03001000 % 1024 }
  if s.radius.sensors = 0 ∧ s.radius.gateways = 0 then u.clearArea else u

theorem serviceEnableBody_draining (h : u.radius.mode = .draining) : serviceEnableBody d u = u.done d .inUse := by
  unfold serviceEnableBody
  dsimp only
  split
  · rfl
  · next hm => exact nomatch hm.symm.trans h
  · next hm => exact nomatch hm.symm.trans h

theorem serviceEnableBody_running (h : u.radius.mode = .running) : serviceEnableBody d u = (u.raise 0x1CC []).done d .ok := by
  unfold serviceEnableBody
  dsimp only
  split
  · next hm => exact nomatch hm.symm.trans h
  · rfl
  · next hm => exact nomatch hm.symm.trans h

section
variable (h : u.radius.mode = .idle)
include h

theorem serviceEnableBody_idle : serviceEnableBody d u =
    if (!u.areaOk (2 ^ 30 * (u.regN 0x03001000 % 1024))) = true then u.done d .badRequest
    else ((u.areaSampled.withRadius { u.areaSampled.radius with mode := .running }).raise 0x1CC []).done d .ok := by
  unfold serviceEnableBody
  dsimp only
  split
  · next hm => exact nomatch hm.symm.trans h
  · next hm => exact nomatch hm.symm.trans h
  · rfl

theorem serviceEnableBody_refused (ha : u.areaOk (2 ^ 30 * (u.regN 0x03001000 % 1024)) = false) : serviceEnableBody d u = u.done d .badRequest :=
  (serviceEnableBody_idle h).trans (if_pos (congrArg (!·) ha))

theorem serviceEnableBody_starts (ha : u.areaOk (2 ^ 30 * (u.regN 0x03001000 % 1024)) = true) : serviceEnableBody d u =
    ((u.areaSampled.withRadius { u.areaSampled.radius with mode := .running }).raise 0x1CC []).done d .ok :=
  (serviceEnableBody_idle h).trans (if_neg (by rw [ha]; exact Bool.false_ne_true))

end

theorem serviceDisableBody_eq : (u.radius.mode = .idle → serviceDisableBody d u = (u.raise 0x1CC []).done d .ok) ∧
    (u.radius.mode = .draining → serviceDisableBody d u = u.done d .inUse) ∧
    (u.radius.mode = .running → serviceDisableBody d u =
      u.withRadius { u.radius with mode := .draining, disable := some (d, u.clk + u.timeoutOf d 1000000) }) := by
  unfold serviceDisableBody
  split
  · next hm => exact ⟨fun _ => rfl, fun h => (nomatch hm.symm.trans h), fun h => nomatch hm.symm.trans h⟩
  · next hm => exact ⟨fun h => (nomatch hm.symm.trans h), fun _ => rfl, fun h => nomatch hm.symm.trans h⟩
  · next hm => exact ⟨fun h => (nomatch hm.symm.trans h), fun h => (nomatch hm.symm.trans h), fun _ => rfl⟩

section
variable {e : Desc} {due : Nat} (h : s.radius.disable = some (e, due))
include h

theorem exec_radiusDrainEnd_some : exec .radiusDrainEnd s = if s.radius.items = [] then .next (s.serviceOff e { status := .ok }) else .next s := by
  show execRadiusDrainEnd s = _
  rw [execRadiusDrainEnd, h]

theorem exec_radiusDrainTimeout_some : exec .radiusDrainTimeout s =
    .next (((s.passTo due).radius.items.foldl State.drainDrop (s.passTo due)).serviceOff e
      (if (s.passTo due).radius.items = [] then { status := .ok } else { status := .drainedLate, r0 := (s.passTo due).radius.items.length })) := by
  show execRadiusDrainTimeout s = _
  rw [execRadiusDrainTimeout, h]

end

theorem exec_radiusDrain_none (h : s.radius.disable = none) : exec .radiusDrainEnd s = .next s ∧ exec .radiusDrainTimeout s = .next s := by
  constructor
  · show execRadiusDrainEnd s = _
    rw [execRadiusDrainEnd, h]
  · show execRadiusDrainTimeout s = _
    rw [execRadiusDrainTimeout, h]

end

/-! SENSOR_CHECKPOINT (R307, R309, R510). -/

section
variable {d : Desc} {s s0 u : State}

theorem ckptBody_paused (h : u.cpr.warn ≠ []) :
    ckptBody d u = u.withRadius { u.radius with paused := u.radius.paused ++ [⟨d, u.clk⟩] } := if_neg h

theorem ckptBody_write (h : u.cpr.warn = []) (hop : d.get 8 1 = 0) : ckptBody d u = ckptWrite d 0 u := (if_pos h).trans (if_pos hop)

theorem ckptBody_confirm (h : u.cpr.warn = []) (hop : d.get 8 1 = 1) : ckptBody d u = ckptConfirm d 0 u :=
  (if_pos h).trans (if_neg (by omega))

/-- The entries that a WRITE pass stores. -/
def ckptEntries (recs : List (Nat × List Byte)) : List Byte := recs.flatMap fun e => slice e.2 0 8 ++ slice e.2 0x0C 4 ++ slice e.2 0x20 4

/-- The buffer of a WRITE, written unless there is no entry. -/
def State.ckptOut (u : State) (d : Desc) (out : List Byte) : Bool × State :=
  if out = [] then (true, u) else u.writeMem .annulus (ringOwner d.ring.val) (d.get 0x10 8) out

theorem ckptWrite_eq {p : Nat} {g : (List (Nat × List Byte) × Option Nat) × State} {w : Bool × State}
    (hg : State.ckptGo (u.sensorSlots.filter fun k => d.get 0x1C 4 ≤ k) (d.get 0x18 4 / 16) u [] = g) (hw : g.2.ckptOut d (ckptEntries g.1.1) = w) :
    (w.1 = false → ckptWrite d p u = w.2.done d .badRequest) ∧
    (w.1 = true → ckptWrite d p u =
      ((g.1.1.foldl (fun v (e : Nat × List Byte) => v.areaWrite (v.recAddr false e.1) (ckptMark (d.get 0xC 4) e.2)) w.2).raise 0x1C9
        ([0#8] ++ le 4 (d.get 0xC 4) ++ le 4 g.1.1.length)).complete d
          { status := if g.1.2.isSome then .bufferFull else .ok, r0 := g.1.1.length + 2 ^ 32 * g.1.2.getD 0, r1 := p }) := by
  obtain ⟨⟨recs, next⟩, v⟩ := g
  obtain ⟨ok, x⟩ := w
  unfold ckptWrite
  rw [hg]
  change (if ckptEntries recs = [] then (true, v) else v.writeMem .annulus (ringOwner d.ring.val) (d.get 0x10 8) (ckptEntries recs)) = (ok, x) at hw
  dsimp only
  unfold ckptEntries at hw
  rw [hw]
  cases ok with
  | false => exact ⟨fun _ => rfl, fun h => Bool.noConfusion h⟩
  | true => exact ⟨fun h => Bool.noConfusion h, fun _ => rfl⟩

/-- What CONFIRM does with one slot: a record of its generation has its value confirmed. -/
def ckptConfirmSlot (n : Nat) (x : Nat × State) (k : Nat) : Nat × State :=
  match (x.2.visit k).1 with
  | none => (x.1, (x.2.visit k).2)
  | some r => if leAt r 0x2C 4 = n then (x.1 + 1, (x.2.visit k).2.areaWrite ((x.2.visit k).2.recAddr false k) (patch r 0x24 (slice r 0x28 4)))
    else (x.1, (x.2.visit k).2)

theorem ckptConfirm_eq (p : Nat) (u : State) : ckptConfirm d p u =
    (let g := u.sensorSlots.foldl (ckptConfirmSlot (d.get 0xC 4)) (0, u)
    ((g.2.retryHeld).raise 0x1C9 ([1#8] ++ le 4 (d.get 0xC 4) ++ le 4 g.1)).complete d { status := .ok, r1 := p }) := by
  unfold ckptConfirm
  dsimp only
  have hstep : ∀ (x : Nat × State) (k : Nat), (match x.2.visit k with
      | (none, s) => (x.1, s)
      | (some r, s) => if leAt r 0x2C 4 = d.get 0xC 4 then (x.1 + 1, s.areaWrite (s.recAddr false k) (patch r 0x24 (slice r 0x28 4))) else (x.1, s)) =
        ckptConfirmSlot (d.get 0xC 4) x k := fun x k => by
    unfold ckptConfirmSlot
    generalize x.2.visit k = v
    obtain ⟨_ | r, w⟩ := v <;> rfl
  have hfold : (fun (x : Nat × State) (k : Nat) => match x.2.visit k with
      | (none, s) => (x.1, s)
      | (some r, s) => if leAt r 0x2C 4 = d.get 0xC 4 then (x.1 + 1, s.areaWrite (s.recAddr false k) (patch r 0x24 (slice r 0x28 4))) else (x.1, s)) =
        ckptConfirmSlot (d.get 0xC 4) := funext fun x => funext fun k => hstep x k
  exact congrArg (fun f => (let g := u.sensorSlots.foldl f (0, u)
    ((g.2.retryHeld).raise 0x1C9 ([1#8] ++ le 4 (d.get 0xC 4) ++ le 4 g.1)).complete d { status := .ok, r1 := p })) hfold

theorem exec_checkpoint_accepted (hacc : Accepted d 0 [(8, 1), (0xC, 4), (0x10, 8), (0x18, 4), (0x1C, 4)] s s0) :
    (d.formIs 0 1 = true → exec (.sensorCheckpointWrite d) s = .next (formBody d 1 (ckptBody d) s0)) ∧
    (d.formIs 1 1 = true → exec (.sensorCheckpointConfirm d) s = .next (formBody d 1 (ckptBody d) s0)) :=
  ⟨fun h => congrArg Host.Outcome.next (formRow_accepted hacc h), fun h => congrArg Host.Outcome.next (formRow_accepted hacc h)⟩

end

/-! SENSOR_WRITE (R284 to R289, R509): a record is read and looked up, then each OP has its own end. -/

section
variable {d : Desc} {s s0 u : State} {gw : Bool}

/-- A record read from the command's buffer and looked up in a table. -/
def lookBody (d : Desc) (gw : Bool) (bad : List Byte → Bool) (go : List Byte → Option (Nat × List Byte) → State → State) (s : State) : State :=
  s.withBuf d .annulus (d.get 0x10 8) 64 fun bs s =>
    if bad bs then s.done d .badRequest
    else match s.findRecord gw (leAt bs 0 8) with
      | (.bad, s) => (s.recordBad (leAt bs 0 8)).done d .integrity
      | (.absent, s) => go bs none s
      | (.found r, s) => go bs (some r) s

section
variable {bad : List Byte → Bool} {go : List Byte → Option (Nat × List Byte) → State → State}

theorem lookBody_unread {st : Status} (hq : (u.readBuf d .annulus (d.get 0x10 8) 64).1 = .error st) :
    lookBody d gw bad go u = (u.readBuf d .annulus (d.get 0x10 8) 64).2.done d st := State.withBuf_of_error hq

section
variable {bs : List Byte} (hq : (u.readBuf d .annulus (d.get 0x10 8) 64).1 = .ok bs)
include hq

theorem lookBody_refused (h : bad bs = true) : lookBody d gw bad go u = (u.readBuf d .annulus (d.get 0x10 8) 64).2.done d .badRequest :=
  (State.withBuf_of_ok hq).trans (if_pos h)

section
variable (h : bad bs = false) {f : Area (Nat × List Byte) × State}
  (hf : (u.readBuf d .annulus (d.get 0x10 8) 64).2.findRecord gw (leAt bs 0 8) = f)
include h hf

theorem lookBody_looks : (f.1 = .bad → lookBody d gw bad go u = (f.2.recordBad (leAt bs 0 8)).done d .integrity) ∧
    (f.1 = .absent → lookBody d gw bad go u = go bs none f.2) ∧ (∀ r, f.1 = .found r → lookBody d gw bad go u = go bs (some r) f.2) := by
  have hlook : lookBody d gw bad go u = _ := (State.withBuf_of_ok hq).trans (if_neg (Bool.eq_false_iff.mp h))
  rw [hf] at hlook
  obtain ⟨_ | _ | _, w⟩ := f
  · exact ⟨fun hn => (nomatch hn), fun hn => (nomatch hn), fun r hr => by cases hr; exact hlook⟩
  · exact ⟨fun hn => (nomatch hn), fun _ => hlook, fun r hr => nomatch hr⟩
  · exact ⟨fun _ => hlook, fun hn => (nomatch hn), fun r hr => nomatch hr⟩

end
end
end

/-- A buffer that a sensor record's OP refuses. -/
def sensorBad (op : Nat) (bs : List Byte) : Bool := (decide (op < 2) && !sensorOk bs) || leAt bs 0 8 == 0

/-- As above, of a gateway record. -/
def gatewayBad (op : Nat) (bs : List Byte) : Bool := (decide (op < 2) && !gatewayOk bs) || leAt bs 0 8 == 0

/-- What an OP does with a sensor record, found or absent. -/
def sensorGo (d : Desc) (op : Nat) (bs : List Byte) (found : Option (Nat × List Byte)) (s : State) : State :=
  match op, found with
  | 0, some _ => s.done d .exists_
  | 0, none =>
    let r := s.sensorNew none bs (bitOf d.flags 1)
    match s.insertSensor r with
    | (none, s) => s.tableFull d
    | (some k, s) => (s.countSensor none (some r)).doneSlot d k
  | _, none => s.done d .notFound
  | 1, some (k, o) =>
    let r := s.sensorNew (some o) bs (bitOf d.flags 1)
    ((s.areaWrite (s.recAddr false k) r).countSensor (some o) (some r)).doneSlot d k
  | 2, some (k, o) => (((s.setIndex false k 0).areaWrite (s.recAddr false k) (List.replicate 64 0)).countSensor (some o) none).doneSlot d k
  | _, some (k, o) => s.writeBufDone d .annulus (d.get 0x10 8) o { status := .ok, r0 := k % 2 ^ 21 }

/-- As above, with a gateway record. -/
def gatewayGo (d : Desc) (op : Nat) (bs : List Byte) (found : Option (Nat × List Byte)) (s : State) : State :=
  match op, found with
  | 0, some (k, o) => if gwRetired o then (s.areaWrite (s.recAddr true k) (gatewayNew bs)).doneSlot d k else s.done d .exists_
  | 0, none => match s.freeSlot true (leAt bs 0 8) with
    | (none, s) => s.tableFull d
    | (some k, s) =>
      let s := s.putRecord true k (gatewayNew bs)
      (s.withRadius { s.radius with gateways := s.radius.gateways + 1 }).doneSlot d k
  | _, none => s.done d .notFound
  | 1, some (k, o) =>
    let r := if gwRetired o then patch bs 8 [BitVec.ofNat 8 (leAt bs 8 1 &&& 0x0E ||| 0x10)] else gatewayNew bs
    (s.areaWrite (s.recAddr true k) r).doneSlot d k
  | 2, some (k, o) =>
    if gwValid o then (s.areaWrite (s.recAddr true k) (patch o 8 [BitVec.ofNat 8 ((leAt o 8 1 &&& 0xFE) ||| 0x10)])).doneSlot d k
    else
      let s := (s.setIndex true k 0).areaWrite (s.recAddr true k) (List.replicate 64 0)
      (s.withRadius { s.radius with gateways := s.radius.gateways - 1 }).doneSlot d k
  | _, some (k, o) => s.writeBufDone d .annulus (d.get 0x10 8) o { status := .ok, r0 := k }

theorem sensorBad_iff (op : Nat) (bs : List Byte) : sensorBad op bs = true ↔ leAt bs 0 8 = 0 ∨ (op < 2 ∧ sensorOk bs = false) := by
  simp only [sensorBad, Bool.or_eq_true, Bool.and_eq_true, decide_eq_true_iff, Bool.not_eq_true', beq_iff_eq]
  exact or_comm

theorem gatewayBad_iff (op : Nat) (bs : List Byte) : gatewayBad op bs = true ↔ leAt bs 0 8 = 0 ∨ (op < 2 ∧ gatewayOk bs = false) := by
  simp only [gatewayBad, Bool.or_eq_true, Bool.and_eq_true, decide_eq_true_iff, Bool.not_eq_true', beq_iff_eq]
  exact or_comm

/-- The rows of SENSOR_WRITE without GATEWAY. -/
def sensorRows (d : Desc) : List (Instr × Nat) :=
  [(Instr.sensorWriteInsert d, 0), (.sensorWriteReplace d, 1), (.sensorWriteDelete d, 2), (.sensorWriteRead d, 3)]

/-- The rows of SENSOR_WRITE with GATEWAY. -/
def gatewayRows (d : Desc) : List (Instr × Nat) :=
  [(Instr.gatewayInsert d, 0), (.gatewayReplace d, 1), (.gatewayDelete d, 2), (.gatewayRead d, 3)]

/-- A row runs OP's end on what its record's look-up finds. -/
def RowLooks (d : Desc) (s s0 : State) (gw : Bool) (bad : Nat → List Byte → Bool)
    (go : Nat → List Byte → Option (Nat × List Byte) → State → State) (c : Instr × Nat) : Prop :=
  c.2 ≤ 3 ∧ (d.formIs c.2 3 = true → exec c.1 s = .next (formBody d 3 (lookBody d gw (bad c.2) (go c.2)) s0))

section
variable {bad : Nat → List Byte → Bool} {go : Nat → List Byte → Option (Nat × List Byte) → State → State} {c : Instr × Nat}
  (hrow : RowLooks d s s0 gw bad go c)
include hrow

theorem RowLooks.past (h : 3 < d.get 8 1) : exec c.1 s = .next (s0.done d .badRequest) := by
  rw [hrow.2 (Desc.formIs_past h), formBody_past h]

theorem RowLooks.mine (h : d.get 8 1 = c.2) : exec c.1 s = .next (lookBody d gw (bad c.2) (go c.2) s0) := by
  rw [hrow.2 (Desc.formIs_mine h), formBody_in (by rw [h]; exact Nat.not_lt.mpr hrow.1)]

/-- A row's answer, by what the look-up of its identifier finds. -/
theorem RowLooks.looks (h : d.get 8 1 = c.2) {bs : List Byte} (hq : (s0.readBuf d .annulus (d.get 0x10 8) 64).1 = .ok bs)
    (hgood : bad (d.get 8 1) bs = false) {f : Area (Nat × List Byte) × State}
    (hf : (s0.readBuf d .annulus (d.get 0x10 8) 64).2.findRecord gw (leAt bs 0 8) = f) :
    (f.1 = .bad → exec c.1 s = .next ((f.2.recordBad (leAt bs 0 8)).done d .integrity)) ∧
    (f.1 = .absent → exec c.1 s = .next (go c.2 bs none f.2)) ∧ (∀ r, f.1 = .found r → exec c.1 s = .next (go c.2 bs (some r) f.2)) := by
  obtain ⟨hbad, habsent, hfound⟩ := lookBody_looks (go := go c.2) hq (h ▸ hgood) hf
  rw [hrow.mine h]
  exact ⟨fun hn => congrArg Host.Outcome.next (hbad hn), fun hn => congrArg Host.Outcome.next (habsent hn),
    fun r hr => congrArg Host.Outcome.next (hfound r hr)⟩

end

theorem sensorBody_looks {op : Nat} {check : Bool} {go : List Byte → Option (Nat × List Byte) → State → State} (hcheck : decide (op < 2) = check)
    (hgo : ∀ bs found v, go bs found v = sensorGo d op bs found v) : sensorBody d check go = lookBody d false (sensorBad op) (sensorGo d op) := by
  obtain rfl : go = sensorGo d op := funext fun bs => funext fun found => funext fun v => hgo bs found v
  subst hcheck
  rfl

theorem gatewayBody_looks {op : Nat} {check : Bool} {go : List Byte → Option (Nat × List Byte) → State → State} (hcheck : decide (op < 2) = check)
    (hgo : ∀ bs found v, go bs found v = gatewayGo d op bs found v) : gatewayBody d check go = lookBody d true (gatewayBad op) (gatewayGo d op) := by
  obtain rfl : go = gatewayGo d op := funext fun bs => funext fun found => funext fun v => hgo bs found v
  subst hcheck
  rfl

section
variable (hacc : Accepted d 3 [(8, 1), (0x10, 8)] s s0)
include hacc

section
variable (hgw : bitOf d.flags 0 = false) (hbusy : s.recordBusy d = false) (hwait : s.insertWaits d = false)
include hgw hbusy hwait

theorem writeRow_sensor_accepted {op : Nat} {body : State → State} (hmine : d.formIs op 3 = true) :
    writeRow d op false body s = formBody d 3 body s0 := by
  rw [writeRow_sensor_eq, State.sensorWaits, hgw, hbusy, hwait, hmine, Bool.and_false, Bool.false_or]
  exact (if_pos rfl).trans (ringCommand_accepts hacc _)

theorem sensorRow_looks {c : Instr × Nat} {check : Bool} {go : List Byte → Option (Nat × List Byte) → State → State} (hop : c.2 ≤ 3)
    (hc : exec c.1 s = .next (writeRow d c.2 false (sensorBody d check go) s)) (hcheck : decide (c.2 < 2) = check)
    (hgo : ∀ bs found v, go bs found v = sensorGo d c.2 bs found v) : RowLooks d s s0 false sensorBad (sensorGo d) c :=
  ⟨hop, fun h => by rw [hc, writeRow_sensor_accepted hacc hgw hbusy hwait h, sensorBody_looks hcheck hgo]⟩

theorem sensorRows_look {c : Instr × Nat} (hc : c ∈ sensorRows d) : RowLooks d s s0 false sensorBad (sensorGo d) c := by
  simp only [sensorRows, List.mem_cons, List.not_mem_nil, or_false] at hc
  obtain rfl | rfl | rfl | rfl := hc
  all_goals
    refine sensorRow_looks hacc hgw hbusy hwait (by dsimp only; omega) rfl rfl fun bs found v => ?_
    cases found <;> rfl

end

section
variable (hgw : bitOf d.flags 0 = true)
include hgw

theorem writeRow_gateway_accepted {op : Nat} {body : State → State} (hmine : d.formIs op 3 = true) :
    writeRow d op true body s = formBody d 3 body s0 := by
  rw [writeRow_gateway_eq, hgw, hmine]
  exact (if_pos rfl).trans (ringCommand_accepts hacc _)

theorem gatewayRow_looks {c : Instr × Nat} {check : Bool} {go : List Byte → Option (Nat × List Byte) → State → State} (hop : c.2 ≤ 3)
    (hc : exec c.1 s = .next (writeRow d c.2 true (gatewayBody d check go) s)) (hcheck : decide (c.2 < 2) = check)
    (hgo : ∀ bs found v, go bs found v = gatewayGo d c.2 bs found v) : RowLooks d s s0 true gatewayBad (gatewayGo d) c :=
  ⟨hop, fun h => by rw [hc, writeRow_gateway_accepted hacc hgw h, gatewayBody_looks hcheck hgo]⟩

theorem gatewayRows_look {c : Instr × Nat} (hc : c ∈ gatewayRows d) : RowLooks d s s0 true gatewayBad (gatewayGo d) c := by
  simp only [gatewayRows, List.mem_cons, List.not_mem_nil, or_false] at hc
  obtain rfl | rfl | rfl | rfl := hc
  all_goals
    refine gatewayRow_looks hacc hgw (by dsimp only; omega) rfl rfl fun bs found v => ?_
    cases found <;> rfl

end
end
end

/-! The counters of a new sensor record (R286, R509). -/

theorem slice_eq_map (bs : List Byte) (off n : Nat) : slice bs off n = (List.range n).map fun i => bs.getD (off + i) 0 := by
  refine List.ext_getElem ?_ fun i h1 h2 => ?_
  · rw [length_slice, List.length_map, List.length_range]
  · rw [length_slice] at h1
    simp only [slice, List.getElem_map, List.getElem_range, List.getElem_append, List.getElem_take, List.getElem_drop, List.getElem_replicate,
      List.length_take, List.length_drop, List.getD_eq_getElem?_getD]
    split
    · next hi => rw [List.getElem?_eq_getElem (by omega), Option.getD_some]
    · next hi => rw [List.getElem?_eq_none (by omega), Option.getD_none]

/-- A field is its bytes. -/
theorem leAt_congr {bs cs : List Byte} {i j n : Nat} (h : ∀ k < n, bs.getD (i + k) 0 = cs.getD (j + k) 0) : leAt bs i n = leAt cs j n := by
  rw [leAt, leAt, slice_eq_map, slice_eq_map]
  exact congrArg leNat (List.map_congr_left fun k hk => h k (List.mem_range.mp hk))

theorem getD_slice {n k : Nat} (h : k < n) (bs : List Byte) (off : Nat) : (slice bs off n).getD k 0 = bs.getD (off + k) 0 := by
  rw [slice_eq_map, List.getD_eq_getElem _ _ (by rwa [List.length_map, List.length_range]), List.getElem_map, List.getElem_range]

/-- The bytes of a field, as the field's number gives them. -/
theorem getD_le_leAt {n k : Nat} (h : k < n) (bs : List Byte) (off : Nat) : (le n (leAt bs off n)).getD k 0 = bs.getD (off + k) 0 := by
  rw [getD_le h, leAt, leNat_div, getD_slice h]

/-- The four counters of a record that is new. -/
def newCounters (n : Nat) : List Byte := le 4 n ++ le 4 n ++ le 4 n ++ le 4 0

theorem length_newCounters (n : Nat) : (newCounters n).length = 16 := rfl

theorem newCounters_getD (n : Nat) {k : Nat} (h : k < 4) : (newCounters n).getD k 0 = (le 4 n).getD k 0 ∧
    (newCounters n).getD (4 + k) 0 = (le 4 n).getD k 0 ∧ (newCounters n).getD (8 + k) 0 = (le 4 n).getD k 0 ∧ (newCounters n).getD (12 + k) 0 = 0 := by
  interval_cases k <;> exact ⟨rfl, rfl, rfl, rfl⟩

section
variable {bs : List Byte} (hlen : bs.length = 64)
include hlen

/-- A new record from its buffer: FLAGS, the sequence and the counters are its own. -/
theorem State.sensorNew_getD (u : State) : ∃ f h : List Byte, f.length = 2 ∧ h.length = 4 ∧ ∀ i,
    (u.sensorNew none bs false).getD i 0 = if 0x20 ≤ i ∧ i < 0x30 then (newCounters (leAt bs 0x20 4)).getD (i - 0x20) 0
      else if 0x0C ≤ i ∧ i < 0x10 then h.getD (i - 0x0C) 0 else if 0x0A ≤ i ∧ i < 0x0C then f.getD (i - 0x0A) 0 else bs.getD i 0 := by
  refine ⟨le 2 ((recFlags bs &&& 0x73) ||| 0 ||| 0), le 4 (leAt bs 0x0C 4), length_le _ _, length_le _ _, fun i => ?_⟩
  have h1 : (patch bs 0x0A (le 2 ((recFlags bs &&& 0x73) ||| 0 ||| 0))).length = 64 := by rw [length_patch (by rw [length_le, hlen]; decide), hlen]
  have h2 : (patch (patch bs 0x0A (le 2 ((recFlags bs &&& 0x73) ||| 0 ||| 0))) 0x0C (le 4 (leAt bs 0x0C 4))).length = 64 := by
    rw [length_patch (by rw [length_le, h1]; decide), h1]
  have hnew : u.sensorNew none bs false = patch (patch (patch bs 0x0A (le 2 ((recFlags bs &&& 0x73) ||| 0 ||| 0))) 0x0C (le 4 (leAt bs 0x0C 4)))
      0x20 (newCounters (leAt bs 0x20 4)) := rfl
  rw [hnew, getD_patch (by rw [h2, length_newCounters]; decide), getD_patch (by rw [length_le, h1]; decide),
    getD_patch (by rw [length_le, hlen]; decide), length_newCounters, length_le, length_le]

theorem State.sensorNew_fields (u : State) :
    leAt (u.sensorNew none bs false) 0x20 4 = leAt bs 0x20 4 ∧ leAt (u.sensorNew none bs false) 0x24 4 = leAt bs 0x20 4 ∧
    leAt (u.sensorNew none bs false) 0x28 4 = leAt bs 0x20 4 ∧ leAt (u.sensorNew none bs false) 0x2C 4 = 0 ∧
    leAt (u.sensorNew none bs false) 0 8 = leAt bs 0 8 := by
  obtain ⟨f, h, -, -, hget⟩ := u.sensorNew_getD hlen
  have hnext : ∀ k < 4, (le 4 (leAt bs 0x20 4)).getD k 0 = bs.getD (0x20 + k) 0 := fun k hk => getD_le_leAt hk bs 0x20
  refine ⟨leAt_congr fun k hk => ?_, leAt_congr fun k hk => ?_, leAt_congr fun k hk => ?_,
    (leAt_congr (cs := []) (j := 0) fun k hk => ?_).trans (by decide), leAt_congr fun k hk => ?_⟩
  · rw [hget, if_pos (by omega), show 0x20 + k - 0x20 = k by omega, (newCounters_getD _ hk).1, hnext k hk]
  · rw [hget, if_pos (by omega), show 0x24 + k - 0x20 = 4 + k by omega, (newCounters_getD _ hk).2.1, hnext k hk]
  · rw [hget, if_pos (by omega), show 0x28 + k - 0x20 = 8 + k by omega, (newCounters_getD _ hk).2.2.1, hnext k hk]
  · rw [hget, if_pos (by omega), show 0x2C + k - 0x20 = 12 + k by omega, (newCounters_getD _ hk).2.2.2]
    rfl
  · rw [hget, if_neg (by omega), if_neg (by omega), if_neg (by omega)]

end

/-! What each OP of SENSOR_WRITE does with what the look-up found. -/

section
variable {d : Desc} {w : State} {bs : List Byte}

theorem sensorGo_insert_absent {k : Option Nat × State} (hk : w.insertSensor (w.sensorNew none bs (bitOf d.flags 1)) = k) :
    (k.1 = none → sensorGo d 0 bs none w = (k.2.raise 0x1CA []).done d .tableFull) ∧
    (∀ j, k.1 = some j → sensorGo d 0 bs none w =
      (k.2.countSensor none (some (w.sensorNew none bs (bitOf d.flags 1)))).complete d { status := .ok, r0 := j % 2 ^ 21 }) := by
  unfold sensorGo
  dsimp only
  rw [hk]
  obtain ⟨_ | i, v⟩ := k
  · exact ⟨fun _ => rfl, fun j hj => nomatch hj⟩
  · exact ⟨fun h => (nomatch h), fun j hj => by cases hj; rfl⟩

theorem gatewayGo_insert_absent {k : Option Nat × State} (hk : w.freeSlot true (leAt bs 0 8) = k) :
    (k.1 = none → gatewayGo d 0 bs none w = (k.2.raise 0x1CA []).done d .tableFull) ∧
    (∀ j, k.1 = some j → gatewayGo d 0 bs none w = ((k.2.putRecord true j (gatewayNew bs)).withRadius
      { (k.2.putRecord true j (gatewayNew bs)).radius with gateways := (k.2.putRecord true j (gatewayNew bs)).radius.gateways + 1 }).complete d
        { status := .ok, r0 := j % 2 ^ 21 }) := by
  unfold gatewayGo
  dsimp only
  rw [hk]
  obtain ⟨_ | i, v⟩ := k
  · exact ⟨fun _ => rfl, fun j hj => nomatch hj⟩
  · exact ⟨fun h => (nomatch h), fun j hj => by cases hj; rfl⟩

/-- Every OP but INSERT wants its record. -/
theorem sensorGo_notFound {op : Nat} (h : 1 ≤ op) : sensorGo d op bs none w = w.done d .notFound :=
  match op, h with
  | 1, _ | 2, _ | _ + 3, _ => rfl

theorem gatewayGo_notFound {op : Nat} (h : 1 ≤ op) : gatewayGo d op bs none w = w.done d .notFound :=
  match op, h with
  | 1, _ | 2, _ | _ + 3, _ => rfl

theorem sensorGo_read (k : Nat) (o : List Byte) : sensorGo d 3 bs (some (k, o)) w =
    (w.writeMem .annulus (ringOwner d.ring.val) (d.get 0x10 8) o).2.complete d
      (if (w.writeMem .annulus (ringOwner d.ring.val) (d.get 0x10 8) o).1 then { status := .ok, r0 := k % 2 ^ 21 } else { status := .badRequest }) :=
  State.writeBufDone_eq _ _ _ _ _ _

theorem gatewayGo_read (k : Nat) (o : List Byte) : gatewayGo d 3 bs (some (k, o)) w =
    (w.writeMem .annulus (ringOwner d.ring.val) (d.get 0x10 8) o).2.complete d
      (if (w.writeMem .annulus (ringOwner d.ring.val) (d.get 0x10 8) o).1 then { status := .ok, r0 := k } else { status := .badRequest }) :=
  State.writeBufDone_eq _ _ _ _ _ _

end

/-- Settles O41: each row runs its body under its form, a record's row on what the look-up of its buffer's identifier finds. -/
theorem radiusSettingsCheckpointsAndRecords : Obligations.RadiusSettingsCheckpointsAndRecords := by
  unfold Obligations.RadiusSettingsCheckpointsAndRecords
  refine ⟨fun d s s0 => ⟨fun hacc => ⟨?_, ?_, ?_⟩,
      fun hacc => ⟨fun hop hi hp => ?_, fun hbad => ?_⟩, fun hacc => ⟨fun hop => ⟨?_, ?_⟩, fun hop hen => ?_, fun hop hen => ?_⟩,
      fun e due h => ⟨fun hi => ?_, fun hi => ?_, exec_radiusDrainTimeout_some h⟩, exec_radiusDrain_none⟩,
    fun d s s0 hacc => ⟨fun hop => ⟨?_, ?_⟩, fun hwarn => ⟨fun hop => ?_, fun hop => ?_⟩, fun hwarn hop => ?_, fun hwarn hop => ?_⟩,
    fun d s s0 hacc => ⟨fun hgw hbusy hwait => ?_, fun hgw => ?_, fun u bs hlen => u.sensorNew_fields hlen⟩⟩
  · exact setRow_answers (op := 0) (m := 4096) (n := 32) (ok := groupOk)
      (put := fun i v u => u.withRadius { u.radius with groups := tput 0 u.radius.groups i (BitVec.ofNat 256 v) }) (by decide) rfl hacc
  · exact setRow_answers (op := 1) (m := 256) (n := 48) (ok := routeOk)
      (put := fun i v u => u.withRadius { u.radius with routes := tput 0 u.radius.routes i (BitVec.ofNat 384 v) }) (by decide) rfl hacc
  · exact setRow_answers (op := 2) (m := 64) (n := 32) (ok := profileOk)
      (put := fun i v u => u.withRadius { u.radius with profiles := tput 0 u.radius.profiles i (BitVec.ofNat 256 v) }) (by decide) rfl hacc
  · rw [exec_setQueue_accepted hacc (Desc.formIs_mine hop), formBody_in (by omega), setQueueBody, if_neg (by omega)]
  · rcases hbad with hpast | ⟨hop, hbad⟩
    · rw [exec_setQueue_accepted hacc (Desc.formIs_past hpast), formBody_past hpast]
    · rw [exec_setQueue_accepted hacc (Desc.formIs_mine hop), formBody_in (by omega), setQueueBody, if_pos hbad]
  · rw [exec_serviceEnable_accepted hacc (by omega) (Desc.formIs_past hop), formBody_past hop]
  · rw [exec_serviceDisable_accepted hacc (by omega) (Desc.formIs_past hop), formBody_past hop]
  · have hexec : exec (.serviceEnable d) s = .next (serviceEnableBody d s0) := by
      rw [exec_serviceEnable_accepted hacc (by rw [hen]; exact fun h => Bool.noConfusion h.2) (Desc.formIs_mine hop), formBody_in (by omega)]
    rw [hexec]
    exact ⟨fun hm ha => congrArg Host.Outcome.next (serviceEnableBody_starts hm ha),
      fun hm ha => congrArg Host.Outcome.next (serviceEnableBody_refused hm ha),
      fun hm => congrArg Host.Outcome.next (serviceEnableBody_running hm), fun hm => congrArg Host.Outcome.next (serviceEnableBody_draining hm)⟩
  · have hexec : exec (.serviceDisable d) s = .next (serviceDisableBody d s0) := by
      rw [exec_serviceDisable_accepted hacc (by rw [hen]; exact fun h => Bool.noConfusion h.2) (Desc.formIs_mine hop), formBody_in (by omega)]
    obtain ⟨hidle, hdraining, hrunning⟩ := serviceDisableBody_eq (d := d) (u := s0)
    rw [hexec]
    exact ⟨fun hm => congrArg Host.Outcome.next (hrunning hm), fun hm => congrArg Host.Outcome.next (hidle hm),
      fun hm => congrArg Host.Outcome.next (hdraining hm)⟩
  · exact (exec_radiusDrainEnd_some h).trans (if_pos hi)
  · exact (exec_radiusDrainEnd_some h).trans (if_neg hi)
  · rw [(exec_checkpoint_accepted hacc).1 (Desc.formIs_past hop), formBody_past hop]
  · rw [(exec_checkpoint_accepted hacc).2 (Desc.formIs_past hop), formBody_past hop]
  · rw [(exec_checkpoint_accepted hacc).1 (Desc.formIs_mine hop), formBody_in (by omega), ckptBody_paused hwarn]
  · rw [(exec_checkpoint_accepted hacc).2 (Desc.formIs_mine hop), formBody_in (by omega), ckptBody_paused hwarn]
  · obtain ⟨hrefused, hwritten⟩ := ckptWrite_eq (d := d) (p := 0) (u := s0) rfl rfl
    rw [(exec_checkpoint_accepted hacc).1 (Desc.formIs_mine hop), formBody_in (by omega), ckptBody_write hwarn hop]
    exact ⟨fun h => congrArg Host.Outcome.next (hrefused h), fun h => congrArg Host.Outcome.next (hwritten h)⟩
  · rw [(exec_checkpoint_accepted hacc).2 (Desc.formIs_mine hop), formBody_in (by omega), ckptBody_confirm hwarn hop, ckptConfirm_eq]
    rfl
  · have hrow : ∀ c ∈ sensorRows d, RowLooks d s s0 false sensorBad (sensorGo d) c := fun c => sensorRows_look hacc hgw hbusy hwait
    refine ⟨fun c hc h => (hrow c hc).past h, fun c hc st hop hq => ?_, fun bs hq => ⟨fun c hc hop hbad => ?_, fun hid hok => ?_⟩⟩
    · rw [(hrow c hc).mine hop, lookBody_unread hq]
    · rw [(hrow c hc).mine hop, lookBody_refused hq ((sensorBad_iff _ _).mpr (hop ▸ hbad))]
    · have hgood : sensorBad (d.get 8 1) bs = false := Bool.eq_false_iff.mpr fun h => by
        rcases (sensorBad_iff _ _).mp h with h | ⟨hlt, h⟩
        · exact hid h
        · exact Bool.noConfusion (h.symm.trans (hok hlt))
      refine ⟨fun c hc hop hf => ?_, fun c hc hop hpos hf => ?_, fun hop hf => ?_, fun k o hf => ⟨fun hop => ?_, fun hop => ?_, fun hop => ?_, fun hop => ?_⟩⟩
      · exact ((hrow c hc).looks hop hq hgood rfl).1 hf
      · rw [((hrow c hc).looks hop hq hgood rfl).2.1 hf, sensorGo_notFound (hop ▸ hpos)]
      · rw [((hrow (.sensorWriteInsert d, 0) (by simp [sensorRows])).looks hop hq hgood rfl).2.1 hf]
        obtain ⟨hfull, hput⟩ := sensorGo_insert_absent (d := d) (bs := bs) (w := ((s0.readBuf d .annulus (d.get 0x10 8) 64).2.findRecord false (leAt bs 0 8)).2) rfl
        exact ⟨fun h => congrArg Host.Outcome.next (hfull h), fun j h => congrArg Host.Outcome.next (hput j h)⟩
      · rw [((hrow (.sensorWriteInsert d, 0) (by simp [sensorRows])).looks hop hq hgood rfl).2.2 _ hf]
        rfl
      · rw [((hrow (.sensorWriteReplace d, 1) (by simp [sensorRows])).looks hop hq hgood rfl).2.2 _ hf]
        rfl
      · rw [((hrow (.sensorWriteDelete d, 2) (by simp [sensorRows])).looks hop hq hgood rfl).2.2 _ hf]
        rfl
      · rw [((hrow (.sensorWriteRead d, 3) (by simp [sensorRows])).looks hop hq hgood rfl).2.2 _ hf, sensorGo_read]
  · have hrow : ∀ c ∈ gatewayRows d, RowLooks d s s0 true gatewayBad (gatewayGo d) c := fun c => gatewayRows_look hacc hgw
    refine ⟨fun c hc h => (hrow c hc).past h, fun c hc st hop hq => ?_, fun bs hq => ⟨fun c hc hop hbad => ?_, fun hid hok => ?_⟩⟩
    · rw [(hrow c hc).mine hop, lookBody_unread hq]
    · rw [(hrow c hc).mine hop, lookBody_refused hq ((gatewayBad_iff _ _).mpr (hop ▸ hbad))]
    · have hgood : gatewayBad (d.get 8 1) bs = false := Bool.eq_false_iff.mpr fun h => by
        rcases (gatewayBad_iff _ _).mp h with h | ⟨hlt, h⟩
        · exact hid h
        · exact Bool.noConfusion (h.symm.trans (hok hlt))
      refine ⟨fun c hc hop hf => ?_, fun c hc hop hpos hf => ?_, fun hop hf => ?_, fun k o hf => ⟨fun hop => ?_, fun hop => ?_, fun hop => ?_, fun hop => ?_⟩⟩
      · exact ((hrow c hc).looks hop hq hgood rfl).1 hf
      · rw [((hrow c hc).looks hop hq hgood rfl).2.1 hf, gatewayGo_notFound (hop ▸ hpos)]
      · rw [((hrow (.gatewayInsert d, 0) (by simp [gatewayRows])).looks hop hq hgood rfl).2.1 hf]
        obtain ⟨hfull, hput⟩ := gatewayGo_insert_absent (d := d) (bs := bs) (w := ((s0.readBuf d .annulus (d.get 0x10 8) 64).2.findRecord true (leAt bs 0 8)).2) rfl
        exact ⟨fun h => congrArg Host.Outcome.next (hfull h), fun j h => congrArg Host.Outcome.next (hput j h)⟩
      · rw [((hrow (.gatewayInsert d, 0) (by simp [gatewayRows])).looks hop hq hgood rfl).2.2 _ hf]
        exact congrArg Host.Outcome.next rfl
      · rw [((hrow (.gatewayReplace d, 1) (by simp [gatewayRows])).looks hop hq hgood rfl).2.2 _ hf]
        rfl
      · rw [((hrow (.gatewayDelete d, 2) (by simp [gatewayRows])).looks hop hq hgood rfl).2.2 _ hf]
        rfl
      · rw [((hrow (.gatewayRead d, 3) (by simp [gatewayRows])).looks hop hq hgood rfl).2.2 _ hf, gatewayGo_read]

end Sys2Proof.Machine
end

section
namespace Sys2Proof.Machine

/-! Batches, work items, readings and the downlink store of Radius (R292 to R306). -/

/-! RADIUS_BATCH_TAKE (R25, R294, R303). -/

section
variable {s : State} {read : BatchRead}

/-- Radius takes batches: it runs, its inbound queue is enabled and no item waits for output. -/
def State.takesBatches (s : State) : Prop := s.radius.mode = .running ∧ (s.aq 255).enabled = true ∧ s.outputWaits = false

/-- The batch that the inbound queue gave, read, freed and checked. -/
def State.batchTaken (read : BatchRead) : Option Nat × State → State
  | (none, u) => u
  | (some id, u) => match u.frame id with
    | none => (((u.draw 14).2.draw 131072).2.freeFrame (some 224) id).checkBatch (le (u.draw 14).1 ((u.draw 14).2.draw 131072).1)
    | some f => ((u.readFrame id read.ecc f.bytes).2.freeFrame (some 224) id).checkBatch (u.readFrame id read.ecc f.bytes).1

theorem exec_radiusBatchTake_idle (h : ¬ s.takesBatches) : exec (.radiusBatchTake read) s = .next s := by
  refine if_pos ?_
  simp only [State.takesBatches, not_and_or, Bool.not_eq_true, Bool.not_eq_false] at h
  simpa using h

theorem exec_radiusBatchTake_takes (h : s.takesBatches) : exec (.radiusBatchTake read) s = .next (State.batchTaken read (s.inboundTake read.poison)) := by
  obtain ⟨hmode, hq, hout⟩ := h
  refine (if_neg (by simp [hmode, hq, hout])).trans ?_
  generalize s.inboundTake read.poison = taken
  obtain ⟨_ | id, u⟩ := taken
  · rfl
  · unfold State.batchTaken
    dsimp only
    cases u.frame id <;> rfl

theorem State.batchTaken_none {q : Option Nat × State} (h : q.1 = none) : State.batchTaken read q = q.2 := by
  obtain ⟨_ | id, u⟩ := q
  · rfl
  · cases h

theorem State.batchTaken_frame {q : Option Nat × State} {id : Nat} (h : q.1 = some id) {f : TFrame} (hf : q.2.frame id = some f) :
    State.batchTaken read q = ((q.2.readFrame id read.ecc f.bytes).2.freeFrame (some 224) id).checkBatch (q.2.readFrame id read.ecc f.bytes).1 := by
  obtain ⟨_ | i, u⟩ := q
  · cases h
  · cases h
    unfold State.batchTaken
    dsimp only at hf ⊢
    rw [hf]

theorem State.batchTaken_lost {q : Option Nat × State} {id : Nat} (h : q.1 = some id) (hf : q.2.frame id = none) : State.batchTaken read q =
    (((q.2.draw 14).2.draw 131072).2.freeFrame (some 224) id).checkBatch (le (q.2.draw 14).1 ((q.2.draw 14).2.draw 131072).1) := by
  obtain ⟨_ | i, u⟩ := q
  · cases h
  · cases h
    unfold State.batchTaken
    dsimp only at hf ⊢
    rw [hf]

end

/-! The checks of a batch (Table 12.9). -/

section
variable {s : State} {data : List Byte}

/-- The records of a batch, where their lengths fit. -/
def batchRecords (data : List Byte) : Option (List (List Byte)) :=
  let bs := (batchOf data).getD []
  let n := if beAt bs 0 1 = 2 then 24 else 16
  if batchOf data = none ∨ bs.length < n then none else splitRecords 4096 (bs.drop n)

/-- A batch whose header passed, with its gateway's record. -/
def State.countedBatch (s : State) (data : List Byte) (gw : Option (Nat × List Byte)) : State :=
  match batchRecords data with
  | some l => if l.length = beAt ((batchOf data).getD []) 2 2 ∧ l.length ≤ 255 then s.acceptBatch ((batchOf data).getD []) l gw else s.dropBatch 4 5
  | none => s.dropBatch 4 5

theorem State.countedBatch_none {gw : Option (Nat × List Byte)} (h : batchRecords data = none) : s.countedBatch data gw = s.dropBatch 4 5 := by
  rw [State.countedBatch, h]

theorem State.countedBatch_some {gw : Option (Nat × List Byte)} {l : List (List Byte)} (h : batchRecords data = some l) : s.countedBatch data gw =
    if l.length = beAt ((batchOf data).getD []) 2 2 ∧ l.length ≤ 255 then s.acceptBatch ((batchOf data).getD []) l gw else s.dropBatch 4 5 := by
  rw [State.countedBatch, h]

/-- The highest version that a batch may have: its gateway's. -/
def maxVersion : Area (Nat × List Byte) → Nat
  | .found (_, r) => bits (leAt r 8 1) 2 2
  | _ => 2

/-- A batch of readings, by its gateway's record. -/
def State.gatewayBatch (s : State) (data : List Byte) (id : Nat) : Area (Nat × List Byte) → State
  | .bad => s.recordBad id
  | .absent => s.dropBatch 3 0
  | .found (h, r) => if gwRetired r then s.dropBatch 3 0 else s.countedBatch data (some (h, r))

theorem maxVersion_of_not_found {gw : Area (Nat × List Byte)} (h : gw = .absent ∨ gw = .bad) : maxVersion gw = 2 := by
  rcases h with rfl | rfl <;> rfl

theorem admitted_of {v : Nat} {gw : Area (Nat × List Byte)} (hv : v = 1 ∨ v = 2) (h : gw = .absent ∨ gw = .bad) :
    ¬ (v = 0 ∨ 2 < v ∨ maxVersion gw < v) := by
  rw [maxVersion_of_not_found h]
  omega

theorem admitted_found {v k : Nat} {r : List Byte} {gw : Area (Nat × List Byte)} (hv : v = 1 ∨ v = 2) (hmax : v ≤ bits (leAt r 8 1) 2 2)
    (h : gw = .found (k, r)) : ¬ (v = 0 ∨ 2 < v ∨ maxVersion gw < v) := by
  subst h
  rw [maxVersion]
  omega

/-- A batch of version v and a type, against its gateway. -/
def State.versionedBatch (s : State) (data : List Byte) (v type id : Nat) (gw : Area (Nat × List Byte)) : State :=
  if v = 0 ∨ 2 < v ∨ maxVersion gw < v then s.dropBatch 1 3
  else if type ≠ 1 ∧ type ≠ 5 then s.dropBatch 2 4
  else if type = 5 then s.countedBatch data none
  else s.gatewayBatch data id gw

theorem State.checkBatch_badSum (h : udpOk data = false) : s.checkBatch data = s.dropBatch 0 2 := if_pos (congrArg (!·) h)

section
variable (h : udpOk data = true) {v type id : Nat} (hv : beAt ((batchOf data).getD []) 0 1 = v) (ht : beAt ((batchOf data).getD []) 1 1 = type)
  (hid : beAt ((batchOf data).getD []) 4 8 = id)
include h hv ht hid

theorem State.checkBatch_other (hne : type ≠ 1) : s.checkBatch data = s.versionedBatch data v type id .absent := by
  subst hv ht hid
  refine (if_neg (by rw [h]; exact Bool.false_ne_true)).trans ?_
  dsimp only
  rw [if_neg hne]
  rfl

theorem State.checkBatch_sensors (he : type = 1) :
    s.checkBatch data = (s.findRecord true id).2.versionedBatch data v type id (s.findRecord true id).1 := by
  subst hv ht hid
  refine (if_neg (by rw [h]; exact Bool.false_ne_true)).trans ?_
  dsimp only
  rw [if_pos he]
  generalize s.findRecord true (beAt ((batchOf data).getD []) 4 8) = f
  obtain ⟨⟨k, r⟩ | _ | _, w⟩ := f <;> rfl

end

section
variable {v type id : Nat} {gw : Area (Nat × List Byte)}

theorem State.versionedBatch_version (h : v = 0 ∨ 2 < v ∨ maxVersion gw < v) : s.versionedBatch data v type id gw = s.dropBatch 1 3 := if_pos h

section
variable (h : ¬ (v = 0 ∨ 2 < v ∨ maxVersion gw < v))
include h

theorem State.versionedBatch_type (h1 : type ≠ 1) (h5 : type ≠ 5) : s.versionedBatch data v type id gw = s.dropBatch 2 4 :=
  (if_neg h).trans (if_pos ⟨h1, h5⟩)

theorem State.versionedBatch_downlinks (h5 : type = 5) : s.versionedBatch data v type id gw = s.countedBatch data none :=
  (if_neg h).trans ((if_neg (by omega)).trans (if_pos h5))

section
variable (h1 : type = 1)
include h1

theorem State.versionedBatch_gateway : s.versionedBatch data v type id gw = s.gatewayBatch data id gw :=
  (if_neg h).trans ((if_neg (by omega)).trans (if_neg (by omega)))

theorem State.versionedBatch_bad (hgw : gw = .bad) : s.versionedBatch data v type id gw = s.recordBad id := by
  rw [State.versionedBatch_gateway h h1, hgw, State.gatewayBatch]

theorem State.versionedBatch_absent (hgw : gw = .absent) : s.versionedBatch data v type id gw = s.dropBatch 3 0 := by
  rw [State.versionedBatch_gateway h h1, hgw, State.gatewayBatch]

theorem State.versionedBatch_found {k : Nat} {r : List Byte} (hgw : gw = .found (k, r)) : s.versionedBatch data v type id gw =
    if gwRetired r = true then s.dropBatch 3 0 else s.countedBatch data (some (k, r)) := by
  rw [State.versionedBatch_gateway h h1, hgw, State.gatewayBatch]

end
end
end
end

/-! BATCH_ACK and RECORD_LOCK_LEASE_EXPIRY (R292, R296). -/

section
variable {s : State} {b : Nat}

/-- The part without a batch. -/
def State.withoutBatch (s : State) (b : Nat) : State := s.withRadius { s.radius with batches := s.radius.batches.filter (·.id != b) }

theorem exec_batchAck_none (h : (s.radius.batches.find? fun (y : RBatch) => y.id == b && y.left == 0) = none) : exec (.batchAck b) s = .next s := by
  show execBatchAck b s = _
  rw [execBatchAck, h]

section
variable {y : RBatch} (h : (s.radius.batches.find? fun (y : RBatch) => y.id == b && y.left == 0) = some y)
include h

theorem exec_batchAck_silent (hack : y.ack = none) : exec (.batchAck b) s = .next (s.withoutBatch b) := by
  show execBatchAck b s = _
  rw [execBatchAck, h]
  dsimp only
  rw [hack]
  rfl

theorem exec_batchAck_answers {g : Nat} {seq : BitVec 32} (hack : y.ack = some (g, seq)) {r : Option (List Byte) × State}
    (hr : (s.withoutBatch b).areaRead ((s.withoutBatch b).recAddr true g) = r) :
    (r.1 = none → exec (.batchAck b) s = .next r.2) ∧
    (∀ gw, r.1 = some gw → exec (.batchAck b) s = .next (r.2.sendToGateway (patch gw 9 [2#8]) 3 0 seq.toNat []).2) := by
  have hexec : exec (.batchAck b) s = .next (match (s.withoutBatch b).areaRead ((s.withoutBatch b).recAddr true g) with
      | (some gw, u) => (u.sendToGateway (patch gw 9 [2#8]) 3 0 seq.toNat []).2
      | (none, u) => u) := by
    show execBatchAck b s = _
    rw [execBatchAck, h]
    dsimp only
    rw [hack]
    rfl
  rw [hexec, hr]
  obtain ⟨_ | gw, u⟩ := r
  · exact ⟨fun _ => rfl, fun gw hgw => nomatch hgw⟩
  · exact ⟨fun hn => (nomatch hn), fun gw' hgw => by cases hgw; rfl⟩

end

variable {slot : Nat}

theorem State.leaseEnd_none (h : s.radius.locks.lookup slot = none) : s.leaseEnd slot = s := by rw [State.leaseEnd, h]

theorem State.leaseEnd_some {l : RecLock} (h : s.radius.locks.lookup slot = some l) : s.leaseEnd slot =
    (s.withRadius { s.radius with locks := tdel s.radius.locks slot }).raise 0x1C1 (le 2 l.owner ++ le 8 l.sensor.toNat) := by rw [State.leaseEnd, h]

theorem exec_recordLockLeaseExpiry_none (h : s.radius.locks.lookup slot = none) : exec (.recordLockLeaseExpiry slot) s = .next s := by
  show execRecordLockLeaseExpiry slot s = _
  rw [execRecordLockLeaseExpiry, h]

theorem exec_recordLockLeaseExpiry_some {l : RecLock} (h : s.radius.locks.lookup slot = some l) :
    exec (.recordLockLeaseExpiry slot) s = .next ((s.passTo l.due).leaseEnd slot) := by
  show execRecordLockLeaseExpiry slot s = _
  rw [execRecordLockLeaseExpiry, h]

end

/-! RADIUS_DISPATCH (R295, R296). -/

section
variable {s u : State} {item : Nat} {thr : RadiusThread} {i : RItem}

/-- An item that may not start: an earlier one of its sensor waits, or Radius is paused. -/
def State.dispatchHeld (s : State) (item : Nat) (thr : RadiusThread) (i : RItem) : Prop :=
  thr.t.cl ≠ 16 ∨ ((s.radius.items.takeWhile (·.id != item)).any fun (j : RItem) => j.sensor == i.sensor && j.thr.isNone) = true ∨
    (s.cluster 16).pause ≠ none

/-- An item of a sensor that is not known. -/
def State.dropUnknown (u : State) (item : Nat) (i : RItem) : State :=
  let v := u.rcount 7 none
  (if i.up then v else v.toReadingQueue v.reservedOut (statusRecord 6 0 i.sensor 0 0 0 0)).endRItem item

/-- An item with the record that was found. -/
def RItem.withRecord (i : RItem) (u : State) (slot : Nat) (r : List Byte) : RItem :=
  { i with slot := slot, group := recGroup r, image := r, params := tget 0 u.radius.groups (recGroup r)
           route := u.groupRoute (tget 0 u.radius.groups (recGroup r)) }

/-- The part with an overdue lock of a record released. -/
def State.lockLapsed (u : State) (slot : Nat) : State := match u.radius.locks.lookup slot with
  | some l => if l.due ≤ u.clk then u.leaseEnd slot else u
  | none => u

/-- How an item starts on a thread of the cluster as it stands. -/
def Cluster.launch (x : Cluster) (u : State) (thr : RadiusThread) (up : Bool) : Launch :=
  { k := thr.t.key
    pc := match x.active with
      | some h => (((x.half h).map (·.entries)).getD []).getD (4 + b2n up) 0xFFFFFFFF
      | none => 0xFFFFFFFF
    high := x.active.getD false, shipped := thr.shipped && u.runsShipped 16 }

/-- An item whose record was found. -/
def State.dispatchFound (u : State) (x : Cluster) (item : Nat) (thr : RadiusThread) (i : RItem) (slot : Nat) (r : List Byte) : Out :=
  if recFlags r % 2 = 0 then .next (u.dropUnknown item i)
  else if !u.groupOn (recGroup r) then .next ((u.rcount 8 (some (recGroup r))).endRItem item)
  else if ((u.lockLapsed slot).radius.locks.lookup slot).isSome ∨ ((u.lockLapsed slot).thread 16 thr.t.key).mode ≠ .idle then
    .next ((u.lockLapsed slot).itemStall (i.withRecord u slot r))
  else .next (if i.up then (u.lockLapsed slot).upDispatch (i.withRecord u slot r) (x.launch (u.lockLapsed slot) thr i.up)
    else (u.lockLapsed slot).downDispatch (i.withRecord u slot r) (x.launch (u.lockLapsed slot) thr i.up))

theorem exec_radiusDispatch_none (h : (s.radius.items.find? fun (x : RItem) => x.id == item && x.thr.isNone) = none) :
    exec (.radiusDispatch item thr) s = .next s := by
  show execRadiusDispatch item thr s = _
  rw [execRadiusDispatch, h]

section
variable (h : (s.radius.items.find? fun (x : RItem) => x.id == item && x.thr.isNone) = some i)
include h

theorem exec_radiusDispatch_held (hheld : s.dispatchHeld item thr i) : exec (.radiusDispatch item thr) s = .next s := by
  show execRadiusDispatch item thr s = _
  rw [execRadiusDispatch, h]
  exact if_pos (Or.imp_right (Or.imp_right Option.isSome_iff_ne_none.mpr) hheld)

section
variable (hheld : ¬ s.dispatchHeld item thr i) {f : Area (Nat × List Byte) × State} (hf : s.findRecord false i.sensor.toNat = f)
include hheld hf

theorem exec_radiusDispatch_looks : (f.1 = .bad → exec (.radiusDispatch item thr) s = .next ((f.2.recordBad i.sensor.toNat).endRItem item)) ∧
    (f.1 = .absent → exec (.radiusDispatch item thr) s = .next (f.2.dropUnknown item i)) ∧
    (∀ slot r, f.1 = .found (slot, r) → exec (.radiusDispatch item thr) s = f.2.dispatchFound (s.cluster 16) item thr i slot r) := by
  show (f.1 = .bad → execRadiusDispatch item thr s = _) ∧ (f.1 = .absent → execRadiusDispatch item thr s = _) ∧
    (∀ slot r, f.1 = .found (slot, r) → execRadiusDispatch item thr s = _)
  unfold execRadiusDispatch
  rw [h]
  dsimp only
  rw [if_neg (mt (Or.imp_right (Or.imp_right Option.isSome_iff_ne_none.mp)) hheld), hf]
  obtain ⟨⟨k, r⟩ | _ | _, w⟩ := f
  · exact ⟨fun hn => (nomatch hn), fun hn => (nomatch hn), fun slot q hq => by cases hq; rfl⟩
  · exact ⟨fun hn => (nomatch hn), fun _ => rfl, fun slot q hq => nomatch hq⟩
  · exact ⟨fun _ => rfl, fun hn => (nomatch hn), fun slot q hq => nomatch hq⟩

end
end

/-- A record's lock is overdue. -/
def State.lockDue (u : State) (slot : Nat) : Bool := match u.radius.locks.lookup slot with
  | some l => decide (l.due ≤ u.clk)
  | none => false

theorem State.lockLapsed_eq (slot : Nat) : u.lockLapsed slot = if u.lockDue slot = true then u.leaseEnd slot else u := by
  unfold State.lockLapsed State.lockDue
  cases u.radius.locks.lookup slot with
  | none => rfl
  | some l => simp only [decide_eq_true_eq]

section
variable {x : Cluster} {slot : Nat} {r : List Byte}

theorem State.dispatchFound_invalid (h : recFlags r % 2 = 0) : u.dispatchFound x item thr i slot r = .next (u.dropUnknown item i) := if_pos h

section
variable (h : recFlags r % 2 = 1)
include h

theorem State.dispatchFound_groupOff (hg : u.groupOn (recGroup r) = false) :
    u.dispatchFound x item thr i slot r = .next ((u.rcount 8 (some (recGroup r))).endRItem item) :=
  (if_neg (by omega)).trans (if_pos (congrArg (!·) hg))

section
variable (hg : u.groupOn (recGroup r) = true) {w : State} (hw : u.lockLapsed slot = w)
include hg hw

theorem State.dispatchFound_busy (hb : (w.radius.locks.lookup slot).isSome = true ∨ (w.thread 16 thr.t.key).mode ≠ .idle) :
    u.dispatchFound x item thr i slot r = .next (w.itemStall (i.withRecord u slot r)) := by
  subst hw
  exact (if_neg (by omega)).trans ((if_neg (by rw [hg]; exact Bool.false_ne_true)).trans (if_pos hb))

theorem State.dispatchFound_starts (hb : ¬ ((w.radius.locks.lookup slot).isSome = true ∨ (w.thread 16 thr.t.key).mode ≠ .idle)) :
    u.dispatchFound x item thr i slot r = .next (if i.up then w.upDispatch (i.withRecord u slot r) (x.launch w thr i.up)
      else w.downDispatch (i.withRecord u slot r) (x.launch w thr i.up)) := by
  subst hw
  exact (if_neg (by omega)).trans ((if_neg (by rw [hg]; exact Bool.false_ne_true)).trans (if_neg hb))

end
end
end
end

/-! READING_BATCH_FLUSH, DOWNLINK_WINDOW_RELEASE and DOWNLINK_EXPIRY (R302, R305, R306). -/

section
variable {s : State}

theorem exec_readingBatchFlush_none {g : Fin 4096} (h : s.radius.datagrams.find? (·.group == g.val) = none) :
    exec (.readingBatchFlush g) s = .next s := by
  show execReadingBatchFlush g s = _
  rw [execReadingBatchFlush, h]

theorem exec_readingBatchFlush_some {g : Fin 4096} {x : Datagram} (h : s.radius.datagrams.find? (·.group == g.val) = some x) :
    exec (.readingBatchFlush g) s = .next (if x.closed then s.sendReadings x else (s.passTo x.due).sendReadings x) := by
  show execReadingBatchFlush g s = _
  rw [execReadingBatchFlush, h]

theorem exec_downlinkWindowRelease_some {q : Fin 8192} {t : Nat} (h : s.nextRelease q.val = some t) : exec (.downlinkWindowRelease q) s =
    if s.radius.mode = .running then .next ((s.passToTime t).releaseQueue (s.passToTime t).gnomon.time q.val) else .next s := by
  show execDownlinkWindowRelease q s = _
  rw [execDownlinkWindowRelease, h]

theorem exec_downlinkWindowRelease_idle {q : Fin 8192} (h : s.nextRelease q.val = none ∨ s.radius.mode ≠ .running) :
    exec (.downlinkWindowRelease q) s = .next s := by
  cases ht : s.nextRelease q.val with
  | none =>
    show execDownlinkWindowRelease q s = _
    rw [execDownlinkWindowRelease, ht]
  | some t => rw [exec_downlinkWindowRelease_some ht, if_neg (h.resolve_left (by rw [ht]; exact nofun))]

theorem exec_downlinkExpiry_none {n : Nat} (h : (s.radius.store.find? fun (x : StoreEntry) => x.id == n) = none) :
    exec (.downlinkExpiry n) s = .next s := by
  show execDownlinkExpiry n s = _
  rw [execDownlinkExpiry, h]

section
variable {n : Nat} {e : StoreEntry} (h : (s.radius.store.find? fun (x : StoreEntry) => x.id == n) = some e)
include h

theorem exec_downlinkExpiry_stays (hs : e.held = none ∧ (e.record = [] ∨ (s.radius.mode = .running ∧ s.gnomon.time ≤ e.window))) :
    exec (.downlinkExpiry n) s = .next s := by
  show execDownlinkExpiry n s = _
  rw [execDownlinkExpiry, h]
  exact if_pos (And.imp_left Option.isNone_iff_eq_none.mpr hs)

theorem exec_downlinkExpiry_leaves (hs : ¬ (e.held = none ∧ (e.record = [] ∨ (s.radius.mode = .running ∧ s.gnomon.time ≤ e.window))))
    {r : Bool × State} (hr : (s.passToTime e.expiry).storeRead e = r) : exec (.downlinkExpiry n) s =
    .next (if r.1 = true then ((r.2.leaveStore [n]).storeStatus e 2).raise 0x1C8 (le 2 e.queue) else r.2.leaveStore [n]) := by
  show execDownlinkExpiry n s = _
  unfold execDownlinkExpiry
  rw [h]
  refine (if_neg (mt (And.imp_left Option.isNone_iff_eq_none.mp) hs)).trans ?_
  rw [hr]

end
end

/-- Settles O42: each row by its branches, a batch by the order of Table 12.9, an item by what the look-up of its sensor finds. -/
theorem radiusMovesBatchesAndReadings : Obligations.RadiusMovesBatchesAndReadings := by
  unfold Obligations.RadiusMovesBatchesAndReadings
  refine ⟨fun s => ⟨fun poison ecc => ⟨exec_radiusBatchTake_idle, fun hon hq => ?_, fun id f hon hq hf => ?_, fun id hon hq hf => ?_⟩,
      fun data => ⟨State.checkBatch_badSum, fun hsum hne hv => ?_, fun hsum hne hv => ⟨fun h5 => ?_, fun h5 hrec => ?_, fun l h5 hrec => ?_⟩,
        fun hsum h1 => ⟨fun hf hv => ?_, fun hf hv => ?_, fun hf hv => ?_, fun h r hf => ⟨fun hv => ?_, fun hv hmax => ⟨fun hret => ?_,
          fun hret hrec => ?_, fun l hret hrec => ?_⟩⟩⟩⟩,
      fun b => ⟨exec_batchAck_none, fun y => exec_batchAck_silent, fun y h seq hy hack => exec_batchAck_answers hy hack rfl⟩,
      fun slot => ⟨exec_recordLockLeaseExpiry_none, fun l hl => ⟨fun h => ?_, fun l' h => ?_⟩⟩,
      fun item t shipped => exec_radiusDispatch_none, fun item t shipped i hi => ?_⟩,
    fun s => ⟨fun g => ⟨fun x => exec_readingBatchFlush_some, exec_readingBatchFlush_none⟩,
      fun q => ⟨fun t ht hrun => ?_, exec_downlinkWindowRelease_idle⟩, fun n => exec_downlinkExpiry_none,
      fun n e he => ⟨exec_downlinkExpiry_stays he, fun hs hr => ?_, fun hs hr => ?_⟩⟩⟩
  · rw [exec_radiusBatchTake_takes hon, State.batchTaken_none hq]
  · rw [exec_radiusBatchTake_takes hon, State.batchTaken_frame hq hf]
  · rw [exec_radiusBatchTake_takes hon, State.batchTaken_lost hq hf]
  · rw [State.checkBatch_other hsum rfl rfl rfl hne]
    exact State.versionedBatch_version (hv.imp_right .inl)
  · rw [State.checkBatch_other hsum rfl rfl rfl hne]
    exact State.versionedBatch_type (admitted_of hv (.inl rfl)) hne h5
  · rw [State.checkBatch_other hsum rfl rfl rfl hne, State.versionedBatch_downlinks (admitted_of hv (.inl rfl)) h5, State.countedBatch_none hrec]
  · rw [State.checkBatch_other hsum rfl rfl rfl hne, State.versionedBatch_downlinks (admitted_of hv (.inl rfl)) h5, State.countedBatch_some hrec]
  · rw [State.checkBatch_sensors hsum rfl rfl rfl h1]
    exact State.versionedBatch_version (hv.imp_right .inl)
  · rw [State.checkBatch_sensors hsum rfl rfl rfl h1, State.versionedBatch_absent (admitted_of hv (.inl hf)) h1 hf]
  · rw [State.checkBatch_sensors hsum rfl rfl rfl h1, State.versionedBatch_bad (admitted_of hv (.inr hf)) h1 hf]
  · rw [State.checkBatch_sensors hsum rfl rfl rfl h1]
    exact State.versionedBatch_version (by rw [hf]; exact hv)
  · rw [State.checkBatch_sensors hsum rfl rfl rfl h1, State.versionedBatch_found (admitted_found hv hmax hf) h1 hf, if_pos hret]
  · rw [State.checkBatch_sensors hsum rfl rfl rfl h1, State.versionedBatch_found (admitted_found hv hmax hf) h1 hf,
      if_neg (Bool.eq_false_iff.mp hret), State.countedBatch_none hrec]
  · rw [State.checkBatch_sensors hsum rfl rfl rfl h1, State.versionedBatch_found (admitted_found hv hmax hf) h1 hf,
      if_neg (Bool.eq_false_iff.mp hret), State.countedBatch_some hrec]
  · rw [exec_recordLockLeaseExpiry_some hl, State.leaseEnd_none h]
  · rw [exec_recordLockLeaseExpiry_some hl, State.leaseEnd_some h]
  · refine ⟨exec_radiusDispatch_held (thr := ⟨t, shipped⟩) hi, fun hheld => ?_, fun hheld => ?_, fun slot r hheld hf => ?_⟩
    · exact (exec_radiusDispatch_looks (thr := ⟨t, shipped⟩) hi hheld rfl).1
    · exact (exec_radiusDispatch_looks (thr := ⟨t, shipped⟩) hi hheld rfl).2.1
    · rw [(exec_radiusDispatch_looks (thr := ⟨t, shipped⟩) hi hheld rfl).2.2 slot r hf]
      exact ⟨State.dispatchFound_invalid, State.dispatchFound_groupOff, 
        fun h hg hb => State.dispatchFound_busy (thr := ⟨t, shipped⟩) (x := s.cluster 16) (i := i) h hg (State.lockLapsed_eq slot) hb,
        fun h hg hb => State.dispatchFound_starts (thr := ⟨t, shipped⟩) (x := s.cluster 16) (i := i) h hg (State.lockLapsed_eq slot) hb⟩
  · rw [exec_downlinkWindowRelease_some ht, if_pos hrun]
  · rw [exec_downlinkExpiry_leaves he hs rfl, if_neg (Bool.eq_false_iff.mp hr)]
    rfl
  · rw [exec_downlinkExpiry_leaves he hs rfl, if_pos hr]
    rfl

end Sys2Proof.Machine
end

section
namespace Sys2Proof.Machine

/-! Memory instructions of Vertex (R223 to R226, R247 to R252, R270). -/

/-- A word that issues: its row's effect on the thread, then the end of the instruction. -/
theorem exec_issued {i : Issue} {x : Ins} {s s0 : State} (h : Issues i x s s0) {r : Instr} {o : Nat} {body : Nat → Nat → Ins → State → Act}
    (hr : exec r s = .next (s.issue i [o] body)) (hop : x.op = o) :
    exec r s = .next ((body i.t.cl i.t.key x s0).settle i.t.cl i.t.key x ((s0.thread i.t.cl i.t.key).gr x.a)) := by
  rw [hr, issue_runs h (by rw [hop, List.contains_iff_mem]; exact List.mem_singleton_self o)]

/-! Reads of scratch (R224). -/

section
variable {s : State} {c a n : Nat} {e : Ecc}

/-- The cluster with the word of an uncorrectable error noted. -/
def State.scratchNoted (s : State) (c a : Nat) (e : Ecc) : State :=
  if e = .uncorrectable then s.setCluster c { s.cluster c with badScratch := (a / 8) :: (s.cluster c).badScratch.filter (· != a / 8) } else s

theorem State.scratchRead_eq : s.scratchRead c a n e =
    if [a / 8, (a + n - 1) / 8].any ((s.scratchNoted c a e).cluster c).badScratch.contains then (false, s.scratchNoted c a e)
    else (true, if e = .corrected then ((s.scratchNoted c a e).count (cid 0x05 1 c)).raiseOnce 0x185 0 [BitVec.ofNat 8 c]
      else s.scratchNoted c a e) := by
  unfold State.scratchRead
  refine ite_congr rfl (fun _ => rfl) fun _ => ?_
  by_cases he : e = .corrected
  · rw [if_pos he, if_pos he]
    rfl
  · rw [if_neg he, if_neg he]
    rfl

theorem State.scratchNoted_uncorrectable (h : e = .uncorrectable) : a / 8 ∈ ((s.scratchNoted c a e).cluster c).badScratch := by
  rw [State.scratchNoted, if_pos h, State.cluster_setCluster]
  exact List.mem_cons_self

theorem State.scratchNoted_of_ne (h : e ≠ .uncorrectable) : s.scratchNoted c a e = s := if_neg h

theorem State.scratchRead_ok_iff :
    (s.scratchRead c a n e).1 = true ↔ e ≠ .uncorrectable ∧ ∀ w ∈ [a / 8, (a + n - 1) / 8], w ∉ (s.cluster c).badScratch := by
  rw [State.scratchRead_eq]
  by_cases he : e = .uncorrectable
  · have hbad : [a / 8, (a + n - 1) / 8].any ((s.scratchNoted c a e).cluster c).badScratch.contains = true :=
      List.any_eq_true.mpr ⟨a / 8, List.mem_cons_self, List.contains_iff_mem.mpr (State.scratchNoted_uncorrectable he)⟩
    rw [if_pos hbad]
    exact ⟨fun h => Bool.noConfusion h, fun h => absurd he h.1⟩
  · rw [State.scratchNoted_of_ne he]
    split
    · next hbad =>
      obtain ⟨w, hw, hmem⟩ := List.any_eq_true.mp hbad
      exact ⟨fun h => Bool.noConfusion h, fun h => absurd (List.contains_iff_mem.mp hmem) (h.2 w hw)⟩
    · next hgood =>
      exact ⟨fun _ => ⟨he, fun w hw hmem => hgood (List.any_eq_true.mpr ⟨w, hw, List.contains_iff_mem.mpr hmem⟩)⟩, fun _ => rfl⟩

theorem State.scratchRead_state (h : (s.scratchRead c a n e).1 = true) :
    (s.scratchRead c a n e).2 = if e = .corrected then (s.count (cid 0x05 1 c)).raiseOnce 0x185 0 [BitVec.ofNat 8 c] else s := by
  have he : e ≠ .uncorrectable := (State.scratchRead_ok_iff.mp h).1
  rw [State.scratchRead_eq] at h ⊢
  split at h
  · cases h
  · next hgood => rw [if_neg hgood, State.scratchNoted_of_ne he]

theorem State.scratchRead_uncorrectable (h : e = .uncorrectable) : a / 8 ∈ ((s.scratchRead c a n e).2.cluster c).badScratch := by
  have hbad : [a / 8, (a + n - 1) / 8].any ((s.scratchNoted c a e).cluster c).badScratch.contains = true :=
    List.any_eq_true.mpr ⟨a / 8, List.mem_cons_self, List.contains_iff_mem.mpr (State.scratchNoted_uncorrectable h)⟩
  rw [State.scratchRead_eq, if_pos hbad]
  exact State.scratchNoted_uncorrectable h

theorem State.scratchRead_vertex (h : (s.scratchRead c a n e).1 = true) : (s.scratchRead c a n e).2.vertex = s.vertex := by
  rw [State.scratchRead_state h]
  split
  · rw [State.raiseOnce_vertex, State.count_vertex]
  · rfl

theorem State.cluster_of_vertex {s t : State} (h : t.vertex = s.vertex) (c : Nat) : t.cluster c = s.cluster c := by rw [State.cluster, State.cluster, h]

theorem State.scratchWrite_scratch (bs : List Byte) : ((s.scratchWrite c a bs).cluster c).scratch = wordsPut (s.cluster c).scratch a bs := by
  rw [State.scratchWrite, State.cluster_setCluster]

theorem State.scratchWrite_thread (bs : List Byte) (k : Nat) : (s.scratchWrite c a bs).thread c k = s.thread c k := by
  rw [State.scratchWrite, State.thread, State.cluster_setCluster]
  rfl

end

/-! Local and scratch loads (R223, R224, R247). -/

/-- A local or scratch load by an instruction. -/
def State.lsLoad (s : State) (c k : Nat) (x : Ins) (n : Nat) (e : Ecc) (put : List Byte → Thread → Thread) : Act :=
  match s.lsRead c k x n e with
  | (.ok bs, s) => .go (s.modThread c k (put bs))
  | (.error e, s) => .fault s e

/-- A local or scratch store by an instruction. -/
def State.lsStore (s : State) (c k : Nat) (x : Ins) (bs : List Byte) : Act :=
  match s.lsWrite c k x bs with
  | .ok s => .go s
  | .error e => .fault s e

section
variable {s : State} {c k n : Nat} {x : Ins} {e : Ecc} {put : List Byte → Thread → Thread} {a : Nat}
  (ha : x.address ((s.thread c k).gr x.a) n = a)
include ha

section
variable (hs : bitOf x.ext 36 = false)
include hs

theorem State.lsRead_local : s.lsRead c k x n e = if 0x4000 ≤ a then (.error .localRange, s) else if e ≠ .clean then (.error .localParity, s)
    else (.ok (wordsGet (s.cluster c).locals (0x4000 * (k / 8) + a) n), s) := by
  subst ha
  exact if_neg (by rw [hs]; exact Bool.false_ne_true)

theorem State.lsLoad_localRange (h : 0x4000 ≤ a) : s.lsLoad c k x n e put = .fault s .localRange := by
  rw [State.lsLoad, State.lsRead_local ha hs, if_pos h]

theorem State.lsLoad_localParity (h : a < 0x4000) (he : e ≠ .clean) : s.lsLoad c k x n e put = .fault s .localParity := by
  rw [State.lsLoad, State.lsRead_local ha hs, if_neg (Nat.not_le.mpr h), if_pos he]

theorem State.lsLoad_local (h : a < 0x4000) (he : e = .clean) :
    s.lsLoad c k x n e put = .go (s.modThread c k (put (wordsGet (s.cluster c).locals (0x4000 * (k / 8) + a) n))) := by
  rw [State.lsLoad, State.lsRead_local ha hs, if_neg (Nat.not_le.mpr h), if_neg (not_not.mpr he)]

end

section
variable (hs : bitOf x.ext 36 = true)
include hs

theorem State.lsLoad_scratchRange (h : scratchSize c ≤ a) : s.lsLoad c k x n e put = .fault s .scratchRange := by
  subst ha
  have hread : s.lsRead c k x n e = (.error .scratchRange, s) := (if_pos hs).trans (if_pos h)
  rw [State.lsLoad, hread]

section
variable (h : a < scratchSize c)
include h

theorem State.lsRead_scratch : s.lsRead c k x n e =
    (if (s.scratchRead c a n e).1 = true then .ok (wordsGet ((s.scratchRead c a n e).2.cluster c).scratch a n) else .error .scratchEcc,
      (s.scratchRead c a n e).2) := by
  subst ha
  refine (if_pos hs).trans ((if_neg (Nat.not_le.mpr h)).trans ?_)
  generalize s.scratchRead c (x.address ((s.thread c k).gr x.a) n) n e = q
  obtain ⟨_ | _, u⟩ := q <;> rfl

theorem State.lsLoad_scratchEcc (hq : (s.scratchRead c a n e).1 = false) :
    s.lsLoad c k x n e put = .fault (s.scratchRead c a n e).2 .scratchEcc := by
  rw [State.lsLoad, State.lsRead_scratch ha hs h, hq]
  rfl

theorem State.lsLoad_scratch (hq : (s.scratchRead c a n e).1 = true) :
    s.lsLoad c k x n e put = .go ((s.scratchRead c a n e).2.modThread c k (put (wordsGet (s.cluster c).scratch a n))) := by
  rw [State.lsLoad, State.lsRead_scratch ha hs h, hq, State.cluster_of_vertex (State.scratchRead_vertex hq)]
  rfl

end
end
end

section
variable {s : State} {c k : Nat} {x : Ins} {bs : List Byte} {a : Nat} (ha : x.address ((s.thread c k).gr x.a) bs.length = a)
include ha

theorem State.lsStore_localRange (hs : bitOf x.ext 36 = false) (h : 0x4000 ≤ a) : s.lsStore c k x bs = .fault s .localRange := by
  subst ha
  have hwrite : s.lsWrite c k x bs = .error .localRange := (if_neg (by rw [hs]; exact Bool.false_ne_true)).trans (if_pos h)
  rw [State.lsStore, hwrite]

theorem State.lsStore_local (hs : bitOf x.ext 36 = false) (h : a < 0x4000) : s.lsStore c k x bs =
    .go (s.setCluster c { s.cluster c with locals := wordsPut (s.cluster c).locals (0x4000 * (k / 8) + a) bs }) := by
  subst ha
  have hwrite : s.lsWrite c k x bs = .ok _ := (if_neg (by rw [hs]; exact Bool.false_ne_true)).trans (if_neg (Nat.not_le.mpr h))
  rw [State.lsStore, hwrite]

theorem State.lsStore_scratchRange (hs : bitOf x.ext 36 = true) (h : scratchSize c ≤ a ∨ paramRange c a = true) :
    s.lsStore c k x bs = .fault s .scratchRange := by
  subst ha
  have hwrite : s.lsWrite c k x bs = .error .scratchRange := (if_pos hs).trans (if_pos h)
  rw [State.lsStore, hwrite]

theorem State.lsStore_scratch (hs : bitOf x.ext 36 = true) (h : a < scratchSize c) (hp : paramRange c a = false) :
    s.lsStore c k x bs = .go (s.scratchWrite c a bs) := by
  subst ha
  have hwrite : s.lsWrite c k x bs = .ok (s.scratchWrite c (x.address ((s.thread c k).gr x.a) bs.length) bs) :=
    (if_pos hs).trans (if_neg (by rw [hp]; exact fun hn => hn.elim (Nat.not_le.mpr h) Bool.false_ne_true))
  rw [State.lsStore, hwrite]

end

/-! Atomics (R250). -/

/-- The scratch after an atomic. -/
def State.atomicWrite (s : State) (c a : Nat) : Option (BitVec 64) → State
  | some v => s.scratchWrite c a (le 8 v.toNat)
  | none => s

theorem State.atomicWrite_thread (s : State) (c a : Nat) (v : Option (BitVec 64)) (k : Nat) : (s.atomicWrite c a v).thread c k = s.thread c k := by
  cases v with
  | none => rfl
  | some w => exact State.scratchWrite_thread _ _

section
variable {s : State} {c k : Nat} {x : Ins} {e : Ecc} {f : Thread → BitVec 64 → Option (BitVec 64)} {put : BitVec 64 → Thread → Thread} {a : Nat}
  (ha : ((s.thread c k).gr x.a).toNat / 8 * 8 = a)
include ha

theorem State.atomic_scratchRange (h : scratchSize c ≤ a ∨ paramRange c a = true) : s.atomic c k x e f put = .fault s .scratchRange := by
  subst ha
  exact if_pos h

section
variable (h : ¬ (scratchSize c ≤ a ∨ paramRange c a = true))
include h

theorem State.atomic_scratchEcc (hq : (s.scratchRead c a 8 e).1 = false) : s.atomic c k x e f put = .fault (s.scratchRead c a 8 e).2 .scratchEcc := by
  subst ha
  refine (if_neg h).trans ?_
  generalize s.scratchRead c (((s.thread c k).gr x.a).toNat / 8 * 8) 8 e = q at hq
  obtain ⟨ok, u⟩ := q
  subst hq
  rfl

theorem State.atomic_done (hq : (s.scratchRead c a 8 e).1 = true) {old : BitVec 64}
    (hold : BitVec.ofNat 64 (leNat (wordsGet (s.cluster c).scratch a 8)) = old) : s.atomic c k x e f put =
    .go (((s.scratchRead c a 8 e).2.atomicWrite c a (f (s.thread c k) old)).modThread c k (put old)) := by
  subst ha
  have hcl := State.cluster_of_vertex (State.scratchRead_vertex hq) c
  refine (if_neg h).trans ?_
  generalize s.scratchRead c (((s.thread c k).gr x.a).toNat / 8 * 8) 8 e = q at hq hcl
  obtain ⟨ok, u⟩ := q
  dsimp only at hq hcl
  subst hq
  dsimp only
  rw [hcl, hold]
  cases f (s.thread c k) old <;> rfl

end
end

theorem State.atomicWrite_ite {s : State} {c a : Nat} {p : Prop} [Decidable p] {v : BitVec 64} :
    s.atomicWrite c a (if p then some v else none) = if p then s.scratchWrite c a (le 8 v.toNat) else s := by
  split <;> rfl

/-- CAS: the word is exchanged where it is the expected one. -/
theorem State.atomic_swaps {s : State} {c k : Nat} {x : Ins} {e : Ecc} {old : BitVec 64}
    (h : ¬ (scratchSize c ≤ ((s.thread c k).gr x.a).toNat / 8 * 8 ∨ paramRange c (((s.thread c k).gr x.a).toNat / 8 * 8) = true))
    (hq : (s.scratchRead c (((s.thread c k).gr x.a).toNat / 8 * 8) 8 e).1 = true)
    (hold : BitVec.ofNat 64 (leNat (wordsGet (s.cluster c).scratch (((s.thread c k).gr x.a).toNat / 8 * 8) 8)) = old) :
    s.atomic c k x e (fun t old => if old = t.gr x.d then some (t.gr x.b) else none) (fun old t => (t.setP x.pk (old == t.gr x.d)).setG x.d old) =
    .go ((if old = (s.thread c k).gr x.d then (s.scratchRead c (((s.thread c k).gr x.a).toNat / 8 * 8) 8 e).2.scratchWrite c
        (((s.thread c k).gr x.a).toNat / 8 * 8) (le 8 ((s.thread c k).gr x.b).toNat)
      else (s.scratchRead c (((s.thread c k).gr x.a).toNat / 8 * 8) 8 e).2).modThread c k fun y =>
        (y.setP x.pk (old == (s.thread c k).gr x.d)).setG x.d old) := by
  rw [State.atomic_done rfl h hq hold, ← State.atomicWrite_ite]
  refine congrArg Act.go (State.modThread_congr _ ?_)
  rw [State.atomicWrite_thread, State.thread_of_vertex (State.scratchRead_vertex hq)]

/-! HBM and DDR (R225, R226, R248, R414). -/

section
variable {s u : State} {c k n : Nat} {x : Ins} {put : List Byte → Thread → Thread} {a r : Nat}

/-- A read of a CONF+INT region, noted with its thread until it is verified. -/
def State.noteRead (s : State) (c k r a : Nat) (u : State) : State :=
  if (s.region r).integ then u.modThread c k fun y => { y with reads := y.reads ++ [a] } else u

theorem State.hbmLoad_beyond (ha : x.address ((s.thread c k).gr x.a) n = a) (h : 2 ^ 40 ≤ a) : s.hbmLoad c k x n put = .fault s .hbmRefused := by
  subst ha
  exact if_pos h

section
variable (ha : x.address ((s.thread c k).gr x.a) n = a) (h : a < 2 ^ 40)
include ha h

theorem State.hbmLoad_read {bs : List Byte} (hr : s.specRead c k a n = (some bs, u)) : s.hbmLoad c k x n put = .go (u.modThread c k (put bs)) := by
  subst ha
  refine (if_neg (Nat.not_le.mpr h)).trans ?_
  rw [hr]

theorem State.hbmLoad_refused (hr : s.specRead c k a n = (none, u)) : s.hbmLoad c k x n put = .fault u .hbmRefused := by
  subst ha
  refine (if_neg (Nat.not_le.mpr h)).trans ?_
  rw [hr]

end

theorem State.specRead_ok (h : s.readLine (masterOf c) .plainRead (a / 64) = .ok r) :
    s.specRead c k a n = (some (s.mem.get a n), s.noteRead c k r a s) := by
  rw [State.specRead, h]
  rfl

theorem State.specRead_failed {f : VerifyCause} (h : s.readLine (masterOf c) .plainRead (a / 64) = .failed r f) :
    s.specRead c k a n = (some (le n (s.draw (8 * n)).1), s.noteRead c k r a (s.draw (8 * n)).2) := by
  rw [State.specRead, h]
  rfl

theorem State.specRead_refused {g : Option Nat} (h : s.readLine (masterOf c) .plainRead (a / 64) = .refused g) :
    s.specRead c k a n = (none, s.refuse g (masterOf c)) := by
  rw [State.specRead, h]

theorem State.specRead_forbidden {g : Nat} {f : Nat} (h : s.readLine (masterOf c) .plainRead (a / 64) = .readOnly g ∨
    s.readLine (masterOf c) .plainRead (a / 64) = .discarded g f) : s.specRead c k a n = (none, s.refuse (some g) (masterOf c)) := by
  rw [State.specRead]
  rcases h with h | h <;> rw [h]

end

section
variable {s : State} {c k : Nat} {x : Ins} {bs : List Byte} {a : Nat}

theorem State.hbmStore_failed (hf : (s.thread c k).failed = true) : s.hbmStore c k x bs = .fault s .integrity := if_pos hf

section
variable (ha : x.address ((s.thread c k).gr x.a) bs.length = a) (hf : (s.thread c k).failed = false)
include ha hf

theorem State.hbmStore_beyond (h : 2 ^ 40 ≤ a) : s.hbmStore c k x bs = .fault s .hbmRefused := by
  subst ha
  exact (if_neg (Bool.eq_false_iff.mp hf)).trans (if_pos h)

theorem State.hbmStore_writes (h : a < 2 ^ 40) {w : Bool × State} (hw : s.writeMem (masterOf c) (vOwner c k) a bs = w) :
    (w.1 = true → s.hbmStore c k x bs = .go w.2) ∧ (w.1 = false → s.hbmStore c k x bs = .fault w.2 .hbmRefused) := by
  subst ha
  have hstore : s.hbmStore c k x bs = _ := (if_neg (Bool.eq_false_iff.mp hf)).trans (if_neg (Nat.not_le.mpr h))
  rw [hw] at hstore
  obtain ⟨_ | _, u⟩ := w
  · exact ⟨fun hn => Bool.noConfusion hn, fun _ => hstore⟩
  · exact ⟨fun _ => hstore, fun hn => Bool.noConfusion hn⟩

end
end

/-! The frame space (R200, R251, R252). -/

section
variable {s : State} {c k : Nat} {x : Ins} {put : List Byte → Thread → Thread} {bs : List Byte} {off n : Nat}
  (hr : x.frameRange (s.thread c k) = (off, n))
include hr

theorem State.frameLoad_beyond (h : (s.frameBytes c k).length < off + n) (e : Bool) : s.frameLoad c k x e put = .fault s .frameRange := by
  rw [State.frameLoad, hr]
  exact if_pos h

theorem State.frameStore_beyond (h : (s.frameBytes c k).length < off + n) : s.frameStore c k x bs = .fault s .frameRange := by
  rw [State.frameStore, hr]
  exact if_pos h

theorem State.frameStore_in (h : off + n ≤ (s.frameBytes c k).length) : s.frameStore c k x bs = .go (s.setFrame c k off bs) := by
  rw [State.frameStore, hr]
  exact if_neg (Nat.not_lt.mpr h)

section
variable (h : off + n ≤ (s.frameBytes c k).length)
include h

theorem State.frameLoad_parity (hc : c < 16) : s.frameLoad c k x true put =
    .go (((s.draw (8 * n)).2.stagingParity c k off).modThread c k (put (le n (s.draw (8 * n)).1))) := by
  rw [State.frameLoad, hr]
  exact (if_neg (Nat.not_lt.mpr h)).trans (if_pos ⟨rfl, hc⟩)

theorem State.frameLoad_bytes {e : Bool} (he : e = false ∨ 16 ≤ c) : s.frameLoad c k x e put =
    .go (s.modThread c k (put (s.frameGet c k off n))) := by
  rw [State.frameLoad, hr]
  exact (if_neg (Nat.not_lt.mpr h)).trans (if_neg fun hn => he.elim (fun hf => Bool.noConfusion (hf.symm.trans hn.1)) fun hc => by omega)

end
end

section
variable {s : State} {c k q : Nat} {it : Item}

theorem State.modItem_item {f : Item → Item} (hf : ∀ i, (f i).seq = i.seq) (h : s.item c q = some it) : (s.modItem c q f).item c q = some (f it) := by
  have hkey : ∀ i : Item, ((if i.seq = q then f i else i).seq == q) = (i.seq == q) := fun i => by
    split
    · rw [hf]
    · rfl
  unfold State.item at h ⊢
  have hseq : it.seq = q := eq_of_beq (List.find?_some (p := fun i : Item => i.seq == q) h)
  rw [State.modItem, State.unit_setUnit]
  dsimp only
  rw [← List.map_append, List.find?_map, show ((fun i : Item => i.seq == q) ∘ fun i => if i.seq = q then f i else i) = (fun i => i.seq == q) from
    funext hkey, h, Option.map_some, if_pos hseq]

section
variable (hc : c < 16) (ht : (s.thread c k).item = some q) (hi : s.item c q = some it)
include hc ht hi

theorem State.frameBytes_item : s.frameBytes c k = it.bytes := by
  rw [State.frameBytes, ht]
  dsimp only
  rw [if_neg (by omega), hi]
  rfl

theorem State.frameBytes_setFrame (off : Nat) (v : List Byte) : (s.setFrame c k off v).frameBytes c k = patch it.bytes off v := by
  have hset : s.setFrame c k off v = s.modItem c q fun i => { i with bytes := patch i.bytes off v } := by
    rw [State.setFrame, ht]
    exact if_neg (by omega)
  rw [hset]
  exact State.frameBytes_item (s := s.modItem c q _) hc (show (s.thread c k).item = some q from ht)
    (State.modItem_item (f := fun i => { i with bytes := patch i.bytes off v }) (fun _ => rfl) hi)

end
end

theorem slice_patch {bs v : List Byte} {off : Nat} (h : off + v.length ≤ bs.length) : slice (patch bs off v) off v.length = v := by
  have hdrop : (patch bs off v).drop off = v ++ bs.drop (off + v.length) := by
    rw [patch, List.append_assoc, List.drop_append_of_le_length (by rw [List.length_take]; omega), List.drop_eq_nil_of_le (by rw [List.length_take]; omega),
      List.nil_append]
  rw [slice, hdrop, List.take_left, Nat.sub_self, List.replicate_zero, List.append_nil]

theorem patch_getElem?_outside {bs v : List Byte} {off : Nat} (h : off + v.length ≤ bs.length) {j : Nat} (hj : j + 1 ≤ off ∨ off + v.length ≤ j) :
    (patch bs off v)[j]? = bs[j]? := by
  have htake : (bs.take off).length = off := List.length_take_of_le (by omega)
  simp only [patch, List.append_assoc, List.getElem?_append, htake, List.getElem?_take, List.getElem?_drop]
  rcases hj with hj | hj
  · rw [if_pos (by omega), if_pos (by omega)]
  · rw [if_neg (by omega), if_neg (by omega), show off + v.length + (j - off - v.length) = j by omega]

/-! The rows. -/

section
variable {i : Issue} {x : Ins} {s s0 : State} {r : Instr} {c k m : Nat} {base : BitVec 64} {put : List Byte → Thread → Thread} {bs : List Byte} {a : Nat}

section
variable {ecc : Ecc} (hr : exec r s = .next ((s0.lsLoad c k x m ecc put).settle c k x base)) (ha : x.address ((s0.thread c k).gr x.a) m = a)
include hr ha

theorem lsLoad_answers :
    (bitOf x.ext 36 = false → 0x4000 ≤ a → exec r s = .next (s0.faultThread c k .localRange)) ∧
    (bitOf x.ext 36 = false → a < 0x4000 → ecc ≠ .clean → exec r s = .next (s0.faultThread c k .localParity)) ∧
    (bitOf x.ext 36 = false → a < 0x4000 → ecc = .clean →
      exec r s = .next ((s0.modThread c k (put (wordsGet (s0.cluster c).locals (0x4000 * (k / 8) + a) m))).settle c k x base)) ∧
    (bitOf x.ext 36 = true → scratchSize c ≤ a → exec r s = .next (s0.faultThread c k .scratchRange)) ∧
    (bitOf x.ext 36 = true → a < scratchSize c → (s0.scratchRead c a m ecc).1 = false →
      exec r s = .next ((s0.scratchRead c a m ecc).2.faultThread c k .scratchEcc)) ∧
    (bitOf x.ext 36 = true → a < scratchSize c → (s0.scratchRead c a m ecc).1 = true →
      exec r s = .next (((s0.scratchRead c a m ecc).2.modThread c k (put (wordsGet (s0.cluster c).scratch a m))).settle c k x base)) := by
  rw [hr]
  refine ⟨fun hs h => ?_, fun hs h he => ?_, fun hs h he => ?_, fun hs h => ?_, fun hs h hq => ?_, fun hs h hq => ?_⟩
  · rw [State.lsLoad_localRange ha hs h, Act.settle]
  · rw [State.lsLoad_localParity ha hs h he, Act.settle]
  · rw [State.lsLoad_local ha hs h he, Act.settle]
  · rw [State.lsLoad_scratchRange ha hs h, Act.settle]
  · rw [State.lsLoad_scratchEcc ha hs h hq, Act.settle]
  · rw [State.lsLoad_scratch ha hs h hq, Act.settle]

end

section
variable (hr : exec r s = .next ((s0.lsStore c k x bs).settle c k x base)) (ha : x.address ((s0.thread c k).gr x.a) bs.length = a)
include hr ha

theorem lsStore_answers :
    (bitOf x.ext 36 = false → 0x4000 ≤ a → exec r s = .next (s0.faultThread c k .localRange)) ∧
    (bitOf x.ext 36 = false → a < 0x4000 → exec r s = .next ((s0.setCluster c { s0.cluster c with
      locals := wordsPut (s0.cluster c).locals (0x4000 * (k / 8) + a) bs }).settle c k x base)) ∧
    (bitOf x.ext 36 = true → scratchSize c ≤ a ∨ paramRange c a = true → exec r s = .next (s0.faultThread c k .scratchRange)) ∧
    (bitOf x.ext 36 = true → a < scratchSize c → paramRange c a = false → exec r s = .next ((s0.scratchWrite c a bs).settle c k x base) ∧
      ((s0.scratchWrite c a bs).cluster c).scratch = wordsPut (s0.cluster c).scratch a bs) := by
  rw [hr]
  refine ⟨fun hs h => ?_, fun hs h => ?_, fun hs h => ?_, fun hs h hp => ⟨?_, State.scratchWrite_scratch bs⟩⟩
  · rw [State.lsStore_localRange ha hs h, Act.settle]
  · rw [State.lsStore_local ha hs h, Act.settle]
  · rw [State.lsStore_scratchRange ha hs h, Act.settle]
  · rw [State.lsStore_scratch ha hs h hp, Act.settle]

end

section
variable (hr : exec r s = .next ((s0.hbmLoad c k x m put).settle c k x base)) (ha : x.address ((s0.thread c k).gr x.a) m = a)
include hr ha

theorem hbmLoad_answers :
    (2 ^ 40 ≤ a → exec r s = .next (s0.faultThread c k .hbmRefused)) ∧
    (∀ g, a < 2 ^ 40 → s0.readLine (masterOf c) .plainRead (a / 64) = .ok g →
      exec r s = .next (((s0.noteRead c k g a s0).modThread c k (put (s0.mem.get a m))).settle c k x base)) ∧
    (∀ g f, a < 2 ^ 40 → s0.readLine (masterOf c) .plainRead (a / 64) = .failed g f →
      exec r s = .next (((s0.noteRead c k g a (s0.draw (8 * m)).2).modThread c k (put (le m (s0.draw (8 * m)).1))).settle c k x base)) ∧
    (∀ g, a < 2 ^ 40 → s0.readLine (masterOf c) .plainRead (a / 64) = .refused g →
      exec r s = .next ((s0.refuse g (masterOf c)).faultThread c k .hbmRefused)) ∧
    (∀ g f, a < 2 ^ 40 → s0.readLine (masterOf c) .plainRead (a / 64) = .readOnly g ∨
        s0.readLine (masterOf c) .plainRead (a / 64) = .discarded g f →
      exec r s = .next ((s0.refuse (some g) (masterOf c)).faultThread c k .hbmRefused)) := by
  rw [hr]
  refine ⟨fun h => ?_, fun g h hl => ?_, fun g f h hl => ?_, fun g h hl => ?_, fun g f h hl => ?_⟩
  · rw [State.hbmLoad_beyond ha h, Act.settle]
  · rw [State.hbmLoad_read ha h (State.specRead_ok hl), Act.settle]
  · rw [State.hbmLoad_read ha h (State.specRead_failed hl), Act.settle]
  · rw [State.hbmLoad_refused ha h (State.specRead_refused hl), Act.settle]
  · rw [State.hbmLoad_refused ha h (State.specRead_forbidden hl), Act.settle]

end

section
variable (hr : exec r s = .next ((s0.hbmStore c k x bs).settle c k x base)) (ha : x.address ((s0.thread c k).gr x.a) bs.length = a)
include hr ha

theorem hbmStore_answers :
    ((s0.thread c k).failed = true → exec r s = .next (s0.faultThread c k .integrity)) ∧
    ((s0.thread c k).failed = false → 2 ^ 40 ≤ a → exec r s = .next (s0.faultThread c k .hbmRefused)) ∧
    ((s0.thread c k).failed = false → a < 2 ^ 40 → (s0.writeMem (masterOf c) (vOwner c k) a bs).1 = true →
      exec r s = .next ((s0.writeMem (masterOf c) (vOwner c k) a bs).2.settle c k x base)) ∧
    ((s0.thread c k).failed = false → a < 2 ^ 40 → (s0.writeMem (masterOf c) (vOwner c k) a bs).1 = false →
      exec r s = .next ((s0.writeMem (masterOf c) (vOwner c k) a bs).2.faultThread c k .hbmRefused)) := by
  rw [hr]
  refine ⟨fun hf => ?_, fun hf h => ?_, fun hf h hw => ?_, fun hf h hw => ?_⟩
  · rw [State.hbmStore_failed hf, Act.settle]
  · rw [State.hbmStore_beyond ha hf h, Act.settle]
  · rw [(State.hbmStore_writes ha hf h rfl).1 hw, Act.settle]
  · rw [(State.hbmStore_writes ha hf h rfl).2 hw, Act.settle]

end

section
variable {r : Bool → Instr} {off : Nat} (hr : ∀ e, exec (r e) s = .next ((s0.frameLoad c k x e put).settle c k x base))
  (hrange : x.frameRange (s0.thread c k) = (off, m))
include hr hrange

theorem frameLoad_answers :
    (∀ e, (s0.frameBytes c k).length < off + m → exec (r e) s = .next (s0.faultThread c k .frameRange)) ∧
    (off + m ≤ (s0.frameBytes c k).length →
      (c < 16 → exec (r true) s =
        .next ((((s0.draw (8 * m)).2.stagingParity c k off).modThread c k (put (le m (s0.draw (8 * m)).1))).settle c k x base)) ∧
      (∀ e, e = false ∨ 16 ≤ c → exec (r e) s = .next ((s0.modThread c k (put (s0.frameGet c k off m))).settle c k x base)) ∧
      s0.frameGet c k off m = slice (s0.frameBytes c k) off m) := by
  refine ⟨fun e h => ?_, fun h => ⟨fun hc => ?_, fun e he => ?_, rfl⟩⟩
  · rw [hr, State.frameLoad_beyond hrange h, Act.settle]
  · rw [hr, State.frameLoad_parity hrange h hc, Act.settle]
  · rw [hr, State.frameLoad_bytes hrange h he, Act.settle]

end

section
variable {off : Nat} (hr : exec r s = .next ((s0.frameStore c k x bs).settle c k x base)) (hrange : x.frameRange (s0.thread c k) = (off, m))
include hr hrange

theorem frameStore_answers :
    ((s0.frameBytes c k).length < off + m → exec r s = .next (s0.faultThread c k .frameRange)) ∧
    (off + m ≤ (s0.frameBytes c k).length → exec r s = .next ((s0.setFrame c k off bs).settle c k x base)) := by
  rw [hr]
  refine ⟨fun h => ?_, fun h => ?_⟩
  · rw [State.frameStore_beyond hrange h, Act.settle]
  · rw [State.frameStore_in hrange h, Act.settle]

end
end

section
variable {x : Ins} {t : Thread}

theorem Ins.frameRange_word (h : x.op = 0x60 ∨ x.op = 0x61) :
    x.frameRange t = (((t.gr x.a) + BitVec.ofNat 64 (bits x.ext 0 16)).toNat, 2 ^ bits x.ext 16 3) := by
  rw [Ins.frameRange, if_neg (by omega), accessSize]

theorem Ins.frameRange_block (h : x.op = 0x62 ∨ x.op = 0x63) :
    x.frameRange t = (((t.gr x.a) + BitVec.ofNat 64 (bits x.ext 0 16)).toNat, 16) := by
  rw [Ins.frameRange, if_pos h]

theorem Ins.address_eq {m : Nat} {base : BitVec 64} : x.address base m = addOff base (bits x.ext 0 32) / m * m := rfl

theorem Ins.address_le {m : Nat} {base : BitVec 64} (v : Nat) : x.address base (le m v).length = addOff base (bits x.ext 0 32) / m * m := by
  rw [length_le, Ins.address]

end

section
variable {i : Issue} {x : Ins} {s s0 : State} (h : Issues i x s s0)
include h

theorem exec_ld {ecc : Ecc} (hop : x.op = 0x40) : exec (.ld i ecc) s = .next ((s0.lsLoad i.t.cl i.t.key x (2 ^ bits x.ext 33 3) ecc
    fun bs y => y.setG x.d (x.loaded bs)).settle i.t.cl i.t.key x ((s0.thread i.t.cl i.t.key).gr x.a)) :=
  exec_issued h (body := fun c k x s => s.lsLoad c k x (accessSize (bits x.ext 33 3)) ecc fun bs t => t.setG x.d (x.loaded bs)) rfl hop

theorem exec_ldb {ecc : Ecc} (hop : x.op = 0x42) : exec (.ldb i ecc) s = .next ((s0.lsLoad i.t.cl i.t.key x 16 ecc
    fun bs y => y.setB x.d (BitVec.ofNat 128 (leNat bs))).settle i.t.cl i.t.key x ((s0.thread i.t.cl i.t.key).gr x.a)) :=
  exec_issued h (body := fun c k x s => s.lsLoad c k x 16 ecc fun bs t => t.setB x.d (BitVec.ofNat 128 (leNat bs))) rfl hop

theorem exec_st (hop : x.op = 0x41) : exec (.st i) s = .next ((s0.lsStore i.t.cl i.t.key x
    (le (2 ^ bits x.ext 33 3) ((s0.thread i.t.cl i.t.key).gr x.b).toNat)).settle i.t.cl i.t.key x ((s0.thread i.t.cl i.t.key).gr x.a)) :=
  exec_issued h (body := fun c k x s => s.lsStore c k x (le (accessSize (bits x.ext 33 3)) ((s.thread c k).gr x.b).toNat)) rfl hop

theorem exec_stb (hop : x.op = 0x43) : exec (.stb i) s = .next ((s0.lsStore i.t.cl i.t.key x
    (le 16 ((s0.thread i.t.cl i.t.key).br x.b).toNat)).settle i.t.cl i.t.key x ((s0.thread i.t.cl i.t.key).gr x.a)) :=
  exec_issued h (body := fun c k x s => s.lsStore c k x (le 16 ((s.thread c k).br x.b).toNat)) rfl hop

theorem exec_ldh (hop : x.op = 0x50) : exec (.ldh i) s = .next ((s0.hbmLoad i.t.cl i.t.key x (2 ^ bits x.ext 33 3)
    fun bs y => y.setG x.d (x.loaded bs)).settle i.t.cl i.t.key x ((s0.thread i.t.cl i.t.key).gr x.a)) :=
  exec_issued h (body := fun c k x s => s.hbmLoad c k x (accessSize (bits x.ext 33 3)) fun bs t => t.setG x.d (x.loaded bs)) rfl hop

theorem exec_ldhb (hop : x.op = 0x52) : exec (.ldhb i) s = .next ((s0.hbmLoad i.t.cl i.t.key x 16
    fun bs y => y.setB x.d (BitVec.ofNat 128 (leNat bs))).settle i.t.cl i.t.key x ((s0.thread i.t.cl i.t.key).gr x.a)) :=
  exec_issued h (body := fun c k x s => s.hbmLoad c k x 16 fun bs t => t.setB x.d (BitVec.ofNat 128 (leNat bs))) rfl hop

theorem exec_sth (hop : x.op = 0x51) : exec (.sth i) s = .next ((s0.hbmStore i.t.cl i.t.key x
    (le (2 ^ bits x.ext 33 3) ((s0.thread i.t.cl i.t.key).gr x.b).toNat)).settle i.t.cl i.t.key x ((s0.thread i.t.cl i.t.key).gr x.a)) :=
  exec_issued h (body := fun c k x s => s.hbmStore c k x (le (accessSize (bits x.ext 33 3)) ((s.thread c k).gr x.b).toNat)) rfl hop

theorem exec_sthb (hop : x.op = 0x53) : exec (.sthb i) s = .next ((s0.hbmStore i.t.cl i.t.key x
    (le 16 ((s0.thread i.t.cl i.t.key).br x.b).toNat)).settle i.t.cl i.t.key x ((s0.thread i.t.cl i.t.key).gr x.a)) :=
  exec_issued h (body := fun c k x s => s.hbmStore c k x (le 16 ((s.thread c k).br x.b).toNat)) rfl hop

theorem exec_fget (hop : x.op = 0x60) (e : Bool) : exec (.fget i e) s = .next ((s0.frameLoad i.t.cl i.t.key x e
    fun bs y => y.setG x.d (BitVec.ofNat 64 (beNat bs))).settle i.t.cl i.t.key x ((s0.thread i.t.cl i.t.key).gr x.a)) :=
  exec_issued h (body := fun c k x s => s.frameLoad c k x e fun bs t => t.setG x.d (BitVec.ofNat 64 (beNat bs))) rfl hop

theorem exec_fgetb (hop : x.op = 0x62) (e : Bool) : exec (.fgetb i e) s = .next ((s0.frameLoad i.t.cl i.t.key x e
    fun bs y => y.setB x.d (BitVec.ofNat 128 (beNat bs))).settle i.t.cl i.t.key x ((s0.thread i.t.cl i.t.key).gr x.a)) :=
  exec_issued h (body := fun c k x s => s.frameLoad c k x e fun bs t => t.setB x.d (BitVec.ofNat 128 (beNat bs))) rfl hop

theorem exec_fput (hop : x.op = 0x61) : exec (.fput i) s = .next ((s0.frameStore i.t.cl i.t.key x
    (be (2 ^ bits x.ext 16 3) ((s0.thread i.t.cl i.t.key).gr x.b).toNat)).settle i.t.cl i.t.key x ((s0.thread i.t.cl i.t.key).gr x.a)) :=
  exec_issued h (body := fun c k x s => s.frameStore c k x (be (accessSize (bits x.ext 16 3)) ((s.thread c k).gr x.b).toNat)) rfl hop

theorem exec_fputb (hop : x.op = 0x63) : exec (.fputb i) s = .next ((s0.frameStore i.t.cl i.t.key x
    (be 16 ((s0.thread i.t.cl i.t.key).br x.b).toNat)).settle i.t.cl i.t.key x ((s0.thread i.t.cl i.t.key).gr x.a)) :=
  exec_issued h (body := fun c k x s => s.frameStore c k x (be 16 ((s.thread c k).br x.b).toNat)) rfl hop

theorem exec_cas (hop : x.op = 0x90) (ecc : Ecc) : exec (.cas i ecc) s = .next ((s0.atomic i.t.cl i.t.key x ecc
    (fun t old => if old = t.gr x.d then some (t.gr x.b) else none)
    fun old t => (t.setP x.pk (old == t.gr x.d)).setG x.d old).settle i.t.cl i.t.key x ((s0.thread i.t.cl i.t.key).gr x.a)) :=
  exec_issued h (body := fun c k x s => s.atomic c k x ecc (fun t old => if old = t.gr x.d then some (t.gr x.b) else none)
    fun old t => (t.setP x.pk (old == t.gr x.d)).setG x.d old) rfl hop

theorem exec_fadd (hop : x.op = 0x91) (ecc : Ecc) : exec (.fadd i ecc) s = .next ((s0.atomic i.t.cl i.t.key x ecc
    (fun t old => some (old + t.gr x.b)) fun old t => t.setG x.d old).settle i.t.cl i.t.key x ((s0.thread i.t.cl i.t.key).gr x.a)) :=
  exec_issued h (body := fun c k x s => s.atomic c k x ecc (fun t old => some (old + t.gr x.b)) fun old t => t.setG x.d old) rfl hop

end

/-- Settles O45: a row's effect by its space, its range and what the read finds, then the end of the instruction. -/
theorem memoryInstructionsAccessTheirSpace : Obligations.MemoryInstructionsAccessTheirSpace := by
  unfold Obligations.MemoryInstructionsAccessTheirSpace
  refine ⟨fun i x s s0 ecc h => ⟨fun hop => ?_, fun hop => ?_, fun hop => ?_, fun hop => ?_, fun r hr hop => ⟨fun hbad => ?_, fun hin hq => ?_⟩,
      fun hop hin hq => ?_, fun hop hin hq => ?_,
      fun a m => ⟨State.scratchRead_ok_iff, State.scratchRead_state, State.scratchRead_uncorrectable⟩⟩,
    fun i x s s0 h => ⟨fun hop => ?_, fun hop => ?_, fun hop => ?_, fun hop => ?_, fun hop => ?_, fun hop => ?_, fun hop => ?_, fun hop => ?_,
      fun hop => ?_, fun q it hc ht hi hlen => ⟨?_, fun j hj => ?_⟩⟩⟩
  · have hrow := lsLoad_answers (exec_ld (ecc := ecc) h hop) Ins.address_eq
    exact hrow
  · have hrow := lsLoad_answers (exec_ldb (ecc := ecc) h hop) Ins.address_eq
    exact hrow
  · have hrow := lsStore_answers (exec_st h hop) (Ins.address_le _)
    exact hrow
  · have hrow := lsStore_answers (exec_stb h hop) (Ins.address_le _)
    exact hrow
  · simp only [List.mem_cons, List.not_mem_nil, or_false] at hr
    rcases hr with rfl | rfl
    · rw [exec_cas h hop, State.atomic_scratchRange rfl hbad, Act.settle]
    · rw [exec_fadd h hop, State.atomic_scratchRange rfl hbad, Act.settle]
  · simp only [List.mem_cons, List.not_mem_nil, or_false] at hr
    rcases hr with rfl | rfl
    · rw [exec_cas h hop, State.atomic_scratchEcc rfl hin hq, Act.settle]
    · rw [exec_fadd h hop, State.atomic_scratchEcc rfl hin hq, Act.settle]
  · rw [exec_cas h hop, State.atomic_swaps hin hq rfl, Act.settle]
  · rw [exec_fadd h hop, State.atomic_done rfl hin hq rfl, Act.settle]
    rfl
  · have hrow := hbmLoad_answers (exec_ldh h hop) Ins.address_eq
    exact hrow
  · have hrow := hbmLoad_answers (exec_ldhb h hop) Ins.address_eq
    exact hrow
  · have hrow := hbmStore_answers (exec_sth h hop) (Ins.address_le _)
    exact hrow
  · have hrow := hbmStore_answers (exec_sthb h hop) (Ins.address_le _)
    exact hrow
  · rw [exec_issued h (body := fun c k _ s => s.fenced c k (.go s)) rfl hop, State.fenced]
    split
    · rw [Act.settle]
    · rw [Act.settle]
  · have hrow := frameLoad_answers (exec_fget h hop) (Ins.frameRange_word (.inl hop))
    exact hrow
  · have hrow := frameLoad_answers (exec_fgetb h hop) (Ins.frameRange_block (.inl hop))
    exact hrow
  · have hrow := frameStore_answers (exec_fput h hop) (Ins.frameRange_word (.inr hop))
    exact hrow
  · have hrow := frameStore_answers (exec_fputb h hop) (Ins.frameRange_block (.inr hop))
    exact hrow
  · rw [State.frameBytes_setFrame hc ht hi]
    have hslice := slice_patch (bs := it.bytes) (v := be (2 ^ bits x.ext 16 3) ((s0.thread i.t.cl i.t.key).gr x.b).toNat)
      (by rw [length_be]; exact hlen)
    rwa [length_be] at hslice
  · rw [State.frameBytes_setFrame hc ht hi]
    exact patch_getElem?_outside (by rw [length_be]; exact hlen) (by rw [length_be]; exact hj)

end Sys2Proof.Machine
end

section
namespace Sys2Proof.Machine

/-! Context, counter and block instructions of Vertex (R198, R199, R220, R221, R253 to R261, R299). -/

/-! The start of an operation (R64, R71, R220). -/

section
variable {s : State}

/-- An operation that starts counts on its slot and nothing else of the slots changes. -/
theorem State.opStart_frame (s : State) (k : Nat) :
    s.opStart k = { s with axis := { s.axis with slots := tput Slot.reset s.axis.slots k { s.slot k with live := (s.slot k).live + 1 } } } := by
  unfold State.opStart State.setSlot
  dsimp only
  rw [if_neg (by simp), if_neg (fun h => h.2.1 h.2.2)]

theorem State.opStart_slot (s : State) (k : Nat) : (s.opStart k).slot k = { s.slot k with live := (s.slot k).live + 1 } := by
  rw [State.opStart, State.slot_setSlot_self]

theorem State.opStart_sa (s : State) (k h : Nat) : (s.opStart k).sa h = s.sa h := by
  rw [State.opStart_frame]
  rfl

theorem State.opStart_clk (s : State) (k : Nat) : (s.opStart k).clk = s.clk := by rw [State.opStart_frame]

end

/-- An operation counts with its association. -/
def Assoc.started (a : Assoc) : Assoc := { a with inFlight := a.inFlight + 1, untaken := if a.recv then a.untaken else a.untaken + 1 }

/-- The association and its DK slot serve an operation. -/
def State.serves (s : State) (recv found : Bool) (h : Nat) (phase : Bool) (dk : Nat) : Prop :=
  found = true ∧ (s.sa h).status = .active ∧
    ¬ ((s.sa h).facet = true ∧ recv = true ∧ (s.sa h).expired = some (phase, (s.slot (slotKey 0 dk)).gen)) ∧
    s.usable (slotKey 0 dk) = true ∧ (s.slot (slotKey 0 dk)).act.use.getLsbD (if recv then 3 else 4) = true

/-- The key that an operation captures. -/
def State.opKey (s : State) (recv found : Bool) (h : Nat) (phase : Bool) (dk : Nat) : Option (Nat × BitVec 32 × Shares × Nat) :=
  if found && (s.sa h).status == .active && !((s.sa h).facet && recv && (s.sa h).expired == some (phase, (s.slot (slotKey 0 dk)).gen)) then
    s.capture dk (if recv then 3 else 4)
  else none

section
variable {s : State} {recv found : Bool} {h dk : Nat} {phase : Bool}

theorem State.opKey_serves (hs : s.serves recv found h phase dk) : s.opKey recv found h phase dk =
    some (slotKey 0 dk, (s.slot (slotKey 0 dk)).gen, ⟨(s.slot (slotKey 0 dk)).act.share, (s.slot (slotKey 0 dk)).act.mask⟩,
      algLen (s.slot (slotKey 0 dk)).act.alg) := by
  obtain ⟨hfound, hact, hexp, husable, huse⟩ := hs
  refine (if_pos ?_).trans (if_pos ?_)
  · simp only [Bool.and_eq_true, Bool.not_eq_true', beq_iff_eq, Bool.and_eq_false_iff]
    refine ⟨⟨hfound, hact⟩, ?_⟩
    simpa [or_assoc, imp_iff_not_or] using hexp
  · rw [husable, huse]
    rfl

theorem State.opKey_none (hs : ¬ s.serves recv found h phase dk) : s.opKey recv found h phase dk = none := by
  unfold State.opKey
  split
  · next hcond =>
    refine if_neg fun hcap => hs ?_
    simp only [Bool.and_eq_true, Bool.not_eq_true', beq_iff_eq, Bool.and_eq_false_iff] at hcond hcap
    obtain ⟨⟨hfound, hact⟩, hexp⟩ := hcond
    refine ⟨hfound, hact, ?_, hcap⟩
    rintro ⟨hf, hr, he⟩
    rw [hf, hr, he] at hexp
    simp at hexp
  · rfl

end

section
variable {s : State} {recv : Bool} {ph : Option Bool} {h0 h dk : Nat} {phase : Bool}
  (hh : (s.resolve (!recv) h0).getD h0 = h) (hph : ph.getD (s.sa h).phase = phase)
  (hdk : (if (s.sa h).facet && phase then (s.sa h).dkB.toNat else (s.sa h).dkA.toNat) = dk)
include hh hph hdk

theorem State.startOp_eq : s.startOp recv ph h0 =
    ({ found := (s.resolve (!recv) h0).isSome, handle := h, phase := phase, key := s.opKey recv (s.resolve (!recv) h0).isSome h phase dk },
      match s.opKey recv (s.resolve (!recv) h0).isSome h phase dk with
      | none => s
      | some q => (s.opStart q.1).setSa h (s.sa h).started) := by
  subst hh hph hdk
  unfold State.startOp
  dsimp only
  change (match s.opKey recv (s.resolve (!recv) h0).isSome _ _ _ with
    | none => _
    | some q => _) = _
  cases s.opKey recv (s.resolve (!recv) h0).isSome _ _ _ with
  | none => rfl
  | some q =>
    dsimp only
    rw [State.opStart_sa]
    rfl

theorem State.startOp_found : (s.startOp recv ph h0).1.found = (s.resolve (!recv) h0).isSome ∧ (s.startOp recv ph h0).1.handle = h ∧
    (s.startOp recv ph h0).1.phase = phase := by
  rw [State.startOp_eq hh hph hdk]
  exact ⟨rfl, rfl, rfl⟩

theorem State.startOp_serves (hs : s.serves recv (s.resolve (!recv) h0).isSome h phase dk) : (s.startOp recv ph h0).1.key =
      some (slotKey 0 dk, (s.slot (slotKey 0 dk)).gen, ⟨(s.slot (slotKey 0 dk)).act.share, (s.slot (slotKey 0 dk)).act.mask⟩,
        algLen (s.slot (slotKey 0 dk)).act.alg) ∧
    ((s.startOp recv ph h0).2.slot (slotKey 0 dk)).live = (s.slot (slotKey 0 dk)).live + 1 ∧ (s.startOp recv ph h0).2.sa h = (s.sa h).started := by
  rw [State.startOp_eq hh hph hdk, State.opKey_serves hs]
  refine ⟨rfl, ?_, State.sa_setSa _ _ _⟩
  show (((s.opStart (slotKey 0 dk)).setSa h (s.sa h).started).slot (slotKey 0 dk)).live = _
  have hslot : ((s.opStart (slotKey 0 dk)).setSa h (s.sa h).started).slot (slotKey 0 dk) = (s.opStart (slotKey 0 dk)).slot (slotKey 0 dk) := rfl
  rw [hslot, State.opStart_slot]

theorem State.startOp_idle (hs : ¬ s.serves recv (s.resolve (!recv) h0).isSome h phase dk) :
    (s.startOp recv ph h0).1.key = none ∧ (s.startOp recv ph h0).2 = s := by
  rw [State.startOp_eq hh hph hdk, State.opKey_none hs]
  exact ⟨rfl, rfl⟩

end

theorem State.startOp_clk (s : State) (recv : Bool) (ph : Option Bool) (h : Nat) : (s.startOp recv ph h).2.clk = s.clk := by
  rw [State.startOp_eq rfl rfl rfl]
  dsimp only
  split
  · rfl
  · exact State.opStart_clk s _

/-- The fields of SALOAD's result (Table 10.5). -/
theorem saResult_fields (a : Assoc) (none_ phase : Bool) {h : Nat} (hh : h < 2 ^ 17) :
    bits (saResult a none_ phase h).toNat 0 17 = h ∧ bits (saResult a none_ phase h).toNat 20 4 = a.status.code ∧
    bitOf (saResult a none_ phase h).toNat 24 = phase ∧ bitOf (saResult a none_ phase h).toNat 25 = a.hold ∧
    bitOf (saResult a none_ phase h).toNat 26 = none_ ∧ bits (saResult a none_ phase h).toNat 32 4 = a.suite.toNat := by
  have hsuite := a.suite.isLt
  have hcode : a.status.code < 8 := by cases a.status <;> decide
  have hbit : ∀ b : Bool, b2n b < 2 := fun b => by cases b <;> decide
  have hn := hbit none_
  have hhold := hbit a.hold
  have hp := hbit phase
  have hdec : ∀ b : Bool, decide (b2n b = 1) = b := fun b => by cases b <;> rfl
  simp only [saResult, BitVec.toNat_ofNat, bits, bitOf, Nat.testBit_eq_decide_div_mod_eq, Nat.shiftRight_eq_div_pow]
  generalize a.suite.toNat = su at hsuite ⊢
  generalize a.status.code = co at hcode ⊢
  refine ⟨by omega, by omega, ?_, ?_, ?_, by omega⟩
  · rw [← hdec phase]
    exact decide_eq_decide.mpr (by rw [hdec]; omega)
  · rw [← hdec a.hold]
    exact decide_eq_decide.mpr (by rw [hdec]; omega)
  · rw [← hdec none_]
    exact decide_eq_decide.mpr (by rw [hdec]; omega)

/-! SALOAD (R220, R253, R254). -/

section
variable {s : State} {c k : Nat} {x : Ins}

/-- SALOAD in a form that its thread may not use. -/
def Thread.saloadWrong (t : Thread) (x : Ins) : Prop := 1 < t.kind ∨ t.op.isSome = true ∨ (bitOf x.ext 1 = true ∧ ¬ (t.kind = 1 ∧ t.recv = true))

/-- The work item of a thread, changed where it has one. -/
def State.modThreadItem (u : State) (c : Nat) (item : Option Nat) (f : Item → Item) : State := match item with
  | some q => u.modItem c q f
  | none => u

theorem State.modThreadItem_clk (u : State) (c : Nat) (item : Option Nat) (f : Item → Item) : (u.modThreadItem c item f).clk = u.clk := by
  cases item <;> rfl

/-- The start of a SALOAD's operation. -/
def State.saloadStart (s : State) (c k : Nat) (x : Ins) : OpStart × State :=
  s.startOp (s.thread c k).recv (if bitOf x.ext 1 then some (((s.thread c k).gr x.b).getLsbD 0) else none) ((s.thread c k).gr x.a).toNat

/-- The context lock of a SALOAD that asks for it. -/
def State.saloadLock (u : State) (c k : Nat) (x : Ins) (h : Nat) : State := if bitOf x.ext 0 then u.takeLock h (vOwner c k) else u

theorem State.saloadLock_owner (u : State) (h : Nat) (hx : bitOf x.ext 0 = true) : (u.saloadLock c k x h).lockOwner h = some (vOwner c k) := by
  rw [State.saloadLock, if_pos hx, State.lockOwner, State.takeLock]
  dsimp only
  rw [lookup_tins]
  exact if_pos (by omega)

/-- What SALOAD does once its operation has started. -/
def saloadEnd (c k : Nat) (x : Ins) (item : Option Nat) (q : OpStart × State) : Act :=
  match q with
  | (r, s) =>
    let s := if bitOf x.ext 0 then s.takeLock r.handle (vOwner c k) else s
    let s := match item with
      | some i => if r.key.isSome then s.modItem c i fun i => { i with sa := some r.handle } else s
      | none => s
    .go (s.modThread c k fun t => (Thread.setP { t with op := some { handle := r.handle, key := r.key, phase := r.phase, since := s.clk, locked := bitOf x.ext 0 } }
      x.pk r.key.isSome).setG x.d (saResult (s.sa r.handle) (!r.found) r.phase r.handle))

/-- The part after SALOAD, but for its thread. -/
def State.saloadNoted (u : State) (c k : Nat) (x : Ins) (item : Option Nat) (r : OpStart) : State :=
  if r.key.isSome then (u.saloadLock c k x r.handle).modThreadItem c item fun y => { y with sa := some r.handle } else u.saloadLock c k x r.handle

theorem State.saloadNoted_clk (u : State) (item : Option Nat) (r : OpStart) : (u.saloadNoted c k x item r).clk = u.clk := by
  have hlock : (u.saloadLock c k x r.handle).clk = u.clk := by
    rw [State.saloadLock]
    split <;> rfl
  rw [State.saloadNoted]
  split
  · rw [State.modThreadItem_clk, hlock]
  · exact hlock

theorem saloadEnd_eq (item : Option Nat) (q : OpStart × State) : saloadEnd c k x item q =
    .go ((q.2.saloadNoted c k x item q.1).modThread c k fun y => (Thread.setP { y with op := some ⟨q.1.handle, q.1.key, q.1.phase, q.2.clk, bitOf x.ext 0⟩ }
      x.pk q.1.key.isSome).setG x.d (saResult ((q.2.saloadNoted c k x item q.1).sa q.1.handle) (!q.1.found) q.1.phase q.1.handle)) := by
  obtain ⟨r, u⟩ := q
  dsimp only
  rw [← State.saloadNoted_clk (c := c) (k := k) (x := x) u item r]
  cases item with
  | none =>
    rw [State.saloadNoted, State.modThreadItem, ite_self]
    rfl
  | some j => rfl

theorem saload_wrong (h : (s.thread c k).saloadWrong x) : saload c k x s = .fault s .illegal := if_pos h

section
variable (h : ¬ (s.thread c k).saloadWrong x)
include h

theorem saload_partition (hp : ((s.thread c k).gr x.a).toNat / 8192 ≠ c) : saload c k x s = .fault s .partition_ :=
  (if_neg h).trans (if_pos hp)

theorem saload_starts (hp : ((s.thread c k).gr x.a).toNat / 8192 = c) :
    saload c k x s = saloadEnd c k x (s.thread c k).item (s.saloadStart c k x) :=
  (if_neg h).trans ((if_neg (not_not.mpr hp)).trans rfl)

end
end

/-! PNTAKE, CLD and CST (R255 to R257). -/

section
variable {s : State} {c k : Nat} {x : Ins}

theorem pntake_wrong (h : (s.thread c k).op = none ∨ (∃ o, (s.thread c k).op = some o ∧ o.key = none) ∨ (s.thread c k).recv = true ∨
    (s.thread c k).pnAsked = true) : pntake c k x s = .fault s .illegal := by
  unfold pntake
  dsimp only
  split
  · next ho =>
    refine if_pos (h.elim (fun hn => nomatch hn.symm.trans ho) fun h => h.elim (fun ⟨o', ho', hk⟩ => ?_) id)
    cases ho.symm.trans ho'
    cases hk
  · rfl

/-- What PNTAKE does with what its association answered. -/
def pntakeEnd (c k : Nat) (x : Ins) (item : Option Nat) (q : PnResult × State) : Act :=
  match q.1 with
  | .value v => .go ((q.2.modThreadItem c item fun y => { y with taken := some v }).modThread c k fun y =>
    (Thread.setP { y with pn := some v, pnAsked := true } x.pk true).setG x.d (BitVec.ofNat 64 v))
  | .refused why => .go (q.2.modThread c k fun y => (Thread.setP { y with pnAsked := true } x.pk false).setG x.d (BitVec.ofNat 64 why))

theorem pntake_takes {o : SaOp} {slot : Nat} {gen : BitVec 32} {key : Shares} {len : Nat} (ho : (s.thread c k).op = some o)
    (hk : o.key = some (slot, gen, key, len)) (hr : (s.thread c k).recv = false) (ha : (s.thread c k).pnAsked = false) {q : PnResult × State}
    (hq : s.takePn c o.handle o.phase slot gen = q) :
    (∀ v, q.1 = .value v → pntake c k x s = .go ((q.2.modThreadItem c (s.thread c k).item fun y => { y with taken := some v }).modThread c k fun y =>
      (Thread.setP { y with pn := some v, pnAsked := true } x.pk true).setG x.d (BitVec.ofNat 64 v))) ∧
    (∀ why, q.1 = .refused why → pntake c k x s = .go (q.2.modThread c k fun y =>
      (Thread.setP { y with pnAsked := true } x.pk false).setG x.d (BitVec.ofNat 64 why))) := by
  obtain ⟨h, key', ph, since, locked⟩ := o
  dsimp only at hk hq
  subst hk
  have hstep : pntake c k x s = pntakeEnd c k x (s.thread c k).item q := by
    unfold pntake
    dsimp only
    rw [ho]
    refine (if_neg (by rw [hr, ha]; simp)).trans ?_
    subst hq
    rfl
  rw [hstep]
  obtain ⟨v | why, u⟩ := q
  · exact ⟨fun v' hv => by cases hv; rfl, fun why hn => nomatch hn⟩
  · exact ⟨fun v' hn => (nomatch hn), fun why' hw => by cases hw; rfl⟩

/-- What CLD does. -/
def cldAct (c k : Nat) (x : Ins) (s : State) : Act :=
  match (s.thread c k).op with
  | none => .fault s .illegal
  | some o => if 0x8F < bits x.ext 0 8 then .fault s .partition_
    else .go (s.modThread c k fun t => t.setG x.d ((s.sa o.handle).word (bits x.ext 0 8)))

/-- The microcode words with one of them replaced. -/
def Assoc.ucodeWith (a : Assoc) (off : Nat) (v : BitVec 64) : BitVec 128 :=
  if off = 0x80 then a.ucode.extractLsb' 64 64 ++ v else v ++ a.ucode.extractLsb' 0 64

/-- What CST does. -/
def cstAct (c k : Nat) (x : Ins) (s : State) : Act :=
  match (s.thread c k).op with
  | none => .fault s .illegal
  | some o =>
    if (bits x.ext 0 8 ≠ 0x80 ∧ bits x.ext 0 8 ≠ 0x88) ∨ s.lockOwner o.handle ≠ some (vOwner c k) then .fault s .partition_
    else .go (s.setSa o.handle { s.sa o.handle with ucode := (s.sa o.handle).ucodeWith (bits x.ext 0 8) ((s.thread c k).gr x.b) })

theorem cldAct_none (h : (s.thread c k).op = none) : cldAct c k x s = .fault s .illegal := by rw [cldAct, h]

theorem cstAct_none (h : (s.thread c k).op = none) : cstAct c k x s = .fault s .illegal := by rw [cstAct, h]

section
variable {o : SaOp} (h : (s.thread c k).op = some o)
include h

theorem cldAct_reads (hoff : bits x.ext 0 8 ≤ 0x8F) :
    cldAct c k x s = .go (s.modThread c k fun y => y.setG x.d ((s.sa o.handle).word (bits x.ext 0 8))) := by
  rw [cldAct, h]
  exact if_neg (Nat.not_lt.mpr hoff)

theorem cldAct_beyond (hoff : 0x8F < bits x.ext 0 8) : cldAct c k x s = .fault s .partition_ := by
  rw [cldAct, h]
  exact if_pos hoff

theorem cstAct_refused (hbad : (bits x.ext 0 8 ≠ 0x80 ∧ bits x.ext 0 8 ≠ 0x88) ∨ ¬ s.lockOwner o.handle = some (vOwner c k)) :
    cstAct c k x s = .fault s .partition_ := by
  rw [cstAct, h]
  exact if_pos hbad

section
variable (hmine : s.lockOwner o.handle = some (vOwner c k))
include hmine

theorem cstAct_low (hoff : bits x.ext 0 8 = 0x80) : cstAct c k x s =
    .go (s.setSa o.handle { s.sa o.handle with ucode := (s.sa o.handle).ucode.extractLsb' 64 64 ++ (s.thread c k).gr x.b }) := by
  rw [cstAct, h]
  refine (if_neg fun hbad => hbad.elim (fun hn => hn.1 hoff) fun hn => hn hmine).trans ?_
  rw [Assoc.ucodeWith, if_pos hoff]

theorem cstAct_high (hoff : bits x.ext 0 8 = 0x88) : cstAct c k x s =
    .go (s.setSa o.handle { s.sa o.handle with ucode := (s.thread c k).gr x.b ++ (s.sa o.handle).ucode.extractLsb' 0 64 }) := by
  rw [cstAct, h]
  refine (if_neg fun hbad => hbad.elim (fun hn => hn.2 hoff) fun hn => hn hmine).trans ?_
  rw [Assoc.ucodeWith, if_neg (by omega)]

end
end
end

/-! The issue of a descriptor (R199, R221, R259 to R261, R299). -/

section
variable {s : State} {perr : Bool} {c k : Nat} {x : Ins}

/-- A descriptor that is refused. -/
def State.descRefused (s : State) (c k : Nat) (d : BlockDesc) : Prop :=
  s.badDesc c k d = true ∨ (if c = 16 then s.radiusRefuses k d else s.prismRefuses c k d) = true

/-- A descriptor whose operation captured its key too long ago. -/
def State.descLate (s : State) (c k : Nat) (d : BlockDesc) : Prop :=
  d.keysel = 0 ∧ d.keyed = true ∧ c < 16 ∧ ∃ o, (s.thread c k).op = some o ∧ o.since + 2000 < s.clk

/-- A descriptor as it stands outstanding, before its predicate and its wait are known. -/
def BlockDesc.outDesc (d : BlockDesc) (c : Nat) : OutDesc :=
  { op := d.op, reads := d.reads (c == 16), writes := d.writes (c == 16), acc := d.feeds (c == 16), pred := none, held := none }

/-- The descriptor waits for the derivation of its key. -/
def State.descHolds (s : State) (c k : Nat) (d : BlockDesc) : Bool := c == 16 && s.mustHold k d (d.outDesc c)

/-- A descriptor's effect at its issue, and what a comparison finds. -/
def State.descEffect (s : State) (perr : Bool) (c k : Nat) (d : BlockDesc) : Bool × State :=
  if s.descHolds c k d then (false, s) else if perr = true ∧ c < 16 ∧ d.reads false ≠ [] then s.descParity c k d
  else (slice (s.frameBytes c k) d.src d.last == slice (s.frameBytes c k) d.dst d.last, s.runDesc c k d)

/-- What else follows from a descriptor's effect: descriptors that waited for a derivation, and a frame that verified. -/
def descFollows (c k : Nat) (d : BlockDesc) (item : Option Nat) (q : Bool × State) : State :=
  let u := if c = 16 ∧ d.keysel = 1 then q.2.runHeld k else q.2
  match item with
  | some j => if d.op = 5 ∧ c < 16 then u.modItem c j fun y => { y with verified := q.1 } else u
  | none => u

/-- An operation that captured its key longer than 2 µs ago. -/
def keyAged (op : Option SaOp) (now : Nat) : Bool := match op with
  | some o => decide (o.since + 2000 < now)
  | none => false

theorem keyAged_iff (op : Option SaOp) (now : Nat) : keyAged op now = true ↔ ∃ o, op = some o ∧ o.since + 2000 < now := by
  cases op with
  | none => simp [keyAged]
  | some o => simp [keyAged]

theorem State.descLate_iff (d : BlockDesc) :
    s.descLate c k d ↔ d.keysel = 0 ∧ d.keyed = true ∧ c < 16 ∧ keyAged (s.thread c k).op s.clk = true := by
  rw [keyAged_iff, State.descLate]

theorem blockIssue_refused (h : s.descRefused c k (blockDesc (s.thread c k) x)) : blockIssue perr c k x s = .fault s .descriptor := if_pos h

section
variable (h : ¬ s.descRefused c k (blockDesc (s.thread c k) x))
include h

theorem blockIssue_late (hl : s.descLate c k (blockDesc (s.thread c k) x)) : blockIssue perr c k x s = .fault s .keyExpired :=
  (if_neg h).trans (if_pos ((State.descLate_iff _).mp hl))

theorem blockIssue_issues (hl : ¬ s.descLate c k (blockDesc (s.thread c k) x)) : blockIssue perr c k x s =
    (let d := blockDesc (s.thread c k) x
    let q := s.descEffect perr c k d
    .go ((descFollows c k d (s.thread c k).item q).modThread c k fun y => { y.begin (c == 16) d with descs := y.descs ++ [{ d.outDesc c with
      pred := if d.op = 5 ∧ x.d ≠ 0 then some (x.d, q.1) else none, held := if s.descHolds c k d then some d else none }] })) :=
  (if_neg h).trans ((if_neg (mt (State.descLate_iff _).mpr hl)).trans rfl)

end
end

/-! What a descriptor does (R198, R260, R274, R299). -/

section
variable {s : State} {c k : Nat} {d : BlockDesc}

/-- The part with the blocks of a CRYPTO_BLOCK chunk counted. -/
def State.descCounted (s : State) (c k : Nat) (d : BlockDesc) : State :=
  if c < 16 ∧ (s.thread c k).kind = 3 ∧ d.op < 3 then s.countN (cid 0x04 6 (4 * c)) d.count else s

theorem State.descCounted_radius (h : c = 16) : s.descCounted c k d = s := if_neg (by omega)

theorem State.descCounted_compare (h : 3 ≤ d.op) : s.descCounted c k d = s := if_neg (by omega)

/-- A thread's accumulator of a descriptor, replaced. -/
def State.setAcc (u : State) (c k : Nat) (d : BlockDesc) (v : BitVec 128) : State :=
  u.modThread c k fun z => { z with acc := tput 0 z.acc d.acc v }

theorem State.frameBytes_congr {s t : State} {c : Nat} (hv : t.vertex = s.vertex) (hr : t.radius = s.radius)
    (hi : ∀ q, t.item c q = s.item c q) (k : Nat) : t.frameBytes c k = s.frameBytes c k := by
  unfold State.frameBytes State.ritem
  rw [State.thread_of_vertex hv, hr]
  simp only [hi]

/-- A cache of a Prism is no work item. -/
theorem State.setUnit_hcache_item (s : State) (n c q : Nat) (l : List (Nat × BitVec 32)) :
    (s.setUnit n { s.unit n with hcache := l }).item c q = s.item c q := by
  unfold State.item
  by_cases hc : c = n
  · rw [hc, State.unit_setUnit]
  · rw [State.unit_setUnit_ne _ hc]

theorem State.setUnit_hcache_frameBytes (s : State) (n c k : Nat) (l : List (Nat × BitVec 32)) :
    (s.setUnit n { s.unit n with hcache := l }).frameBytes c k = s.frameBytes c k :=
  State.frameBytes_congr (s := s) (t := s.setUnit n { s.unit n with hcache := l }) rfl rfl (fun q => s.setUnit_hcache_item n c q l) k

theorem State.count_frameBytes (s : State) (id c k : Nat) : (s.count id).frameBytes c k = s.frameBytes c k :=
  State.frameBytes_congr (State.count_vertex _ _) (by rw [(s.count_reports _).frame])
    (fun q => by rw [State.item, State.item, State.unit, State.unit, (s.count_reports _).frame]) k

/-- A use of the hash subkey cache changes no work item. -/
theorem State.hTouch_frameBytes (s : State) (n slot : Nat) (g : BitVec 32) (c k : Nat) : (s.hTouch n slot g).frameBytes c k = s.frameBytes c k := by
  unfold State.hTouch
  dsimp only
  split
  · exact State.setUnit_hcache_frameBytes s n c k _
  · have hunit : (s.count (cid 0x04 5 (4 * n))).unit n = s.unit n := by rw [State.unit, State.unit, (s.count_reports _).frame]
    rw [← hunit, State.setUnit_hcache_frameBytes, State.count_frameBytes]

theorem State.hTouch_blocksAt (s : State) (n slot : Nat) (g : BitVec 32) (c k off len : Nat) :
    (s.hTouch n slot g).blocksAt c k off len = s.blocksAt c k off len := by
  unfold State.blocksAt State.frameGet
  rw [State.hTouch_frameBytes]

theorem State.hTouch_templateOf (s : State) (n slot : Nat) (g : BitVec 32) (c k : Nat) (d : BlockDesc) :
    (s.hTouch n slot g).templateOf c k d = s.templateOf c k d := by
  unfold State.templateOf State.frameGet
  rw [State.hTouch_frameBytes]

/-! The derivation of a sensor key (R72, R274, R299). -/

/-- Two shares spell their key. -/
theorem Shares.key_of {v : Nat} (h : v < 2 ^ 256) (m : Nat) : ((Shares.of v m).share ^^^ (Shares.of v m).mask).toNat = v := by
  rw [Shares.of, ← BitVec.ofNat_xor, Nat.xor_assoc, Nat.xor_self, Nat.xor_zero, BitVec.toNat_ofNat, Nat.mod_eq_of_lt h]

theorem State.modRItem_ritem {s : State} {id : Nat} {f : RItem → RItem} {j : RItem}
    (h : (s.modRItem id f).ritem id = some j) : ∃ i, j = f i := by
  unfold State.ritem State.modRItem at h
  have hmem := List.mem_of_find?_eq_some h
  have hid := List.find?_some (p := fun i : RItem => i.id == id) h
  obtain ⟨i, -, hi⟩ := List.mem_map.mp hmem
  split at hi
  · exact ⟨i, hi.symm⟩
  · next hne =>
    subst hi
    exact absurd (eq_of_beq hid) hne

/-- A derivation gives its item the sensor's key, under a mask, and the root's generation. -/
theorem State.derive_ritem {s : State} {i j : RItem} (h : (s.derive i).ritem i.id = some j) : ∃ q, j.key = some q ∧
    j.root = some (s.slot (slotKey 1 i.group)).gen ∧ (q.share ^^^ q.mask).toNat =
      (sensorKey (s.slot (slotKey 1 i.group)).act.key (algLen (s.slot (slotKey 1 i.group)).act.alg) i.sensor).toNat := by
  obtain ⟨i', rfl⟩ := State.modRItem_ritem (f := fun y => { y with
    key := some (Shares.of (sensorKey (s.slot (slotKey 1 i.group)).act.key (algLen (s.slot (slotKey 1 i.group)).act.alg) i.sensor).toNat (s.drbg 128).1)
    root := some (s.slot (slotKey 1 i.group)).gen }) (show (State.modRItem _ i.id _).ritem i.id = some j from h)
  exact ⟨_, rfl, rfl, Shares.key_of (Nat.lt_of_lt_of_le (BitVec.isLt _) (by decide)) _⟩

/-- The effect of OP, under the key y, on the part u with the thread's accumulator acc. -/
def State.runOp (u : State) (c k : Nat) (d : BlockDesc) (y : Nat × BitVec 32 × Nat × Nat) (acc : BitVec 128) : Nat → State
  | 0 =>
    if c = 16 ∧ d.keysel = 1 then
      match u.ritemOf k with
      | none => u
      | some i => u.derive i
    else if c = 16 then
      (u.setAcc c k d (cbcChain y.2.2.2 y.2.2.1 acc (u.blocksAt c k d.src (16 * d.count)))).setFrame c k d.dst
        ((Crypto.blockBytes (cbcChain y.2.2.2 y.2.2.1 acc (u.blocksAt c k d.src (16 * d.count)))).take d.last)
    else u.setFrame c k d.dst
      (((u.blocksAt c k d.src (16 * d.count)).flatMap fun b => Crypto.blockBytes (Crypto.aesEnc y.2.2.2 y.2.2.1 b)).take d.len)
  | 1 => u.setFrame c k d.dst
      (((u.blocksAt c k d.src (16 * d.count)).flatMap fun b => Crypto.blockBytes (Crypto.aesDec y.2.2.2 y.2.2.1 b)).take d.len)
  | 2 =>
    let out := if d.route = 0 then keyStream y.2.2.2 y.2.2.1 d.template d.len
      else xorList (keyStream y.2.2.2 y.2.2.1 d.template d.len) (u.frameGet c k d.src d.len)
    if d.route < 2 then u.setFrame c k d.dst out
    else ((u.setFrame c k d.dst out).hTouch c y.1 y.2.1).setAcc c k d (Crypto.ghash (Crypto.aesEnc y.2.2.2 y.2.2.1 0) acc
      (if d.route = 2 then Crypto.blocks out else u.blocksAt c k d.src d.len))
  | 3 => (u.hTouch c y.1 y.2.1).setAcc c k d (Crypto.ghash (Crypto.aesEnc y.2.2.2 y.2.2.1 0) acc (u.blocksAt c k d.src d.len))
  | 4 => ((u.hTouch c y.1 y.2.1).setFrame c k d.dst ((Crypto.blockBytes (Crypto.ghash (Crypto.aesEnc y.2.2.2 y.2.2.1 0) acc [d.template] ^^^
      Crypto.aesEnc y.2.2.2 y.2.2.1 ((u.hTouch c y.1 y.2.1).templateOf c k d))).take d.last)).setAcc c k d 0
  | _ => u

theorem State.runDesc_eq : s.runDesc c k d =
    (s.descCounted c k d).runOp c k d (s.descKey c k) (tget 0 (s.thread c k).acc d.acc) d.op := rfl

theorem State.runDesc_op {n : Nat} (h : d.op = n) : s.runDesc c k d =
    (s.descCounted c k d).runOp c k d (s.descKey c k) (tget 0 (s.thread c k).acc d.acc) n := by rw [State.runDesc_eq, h]

/-- The key of a Prism's descriptor is the one that its operation captured. -/
theorem State.descKey_prism (hc : c ≠ 16) {o : SaOp} {slot : Nat} {gen : BitVec 32} {key : Shares} {len : Nat} (ho : (s.thread c k).op = some o)
    (hk : o.key = some (slot, gen, key, len)) : s.descKey c k = (slot, gen, (key.share ^^^ key.mask).toNat, len) := by
  obtain ⟨h, key', ph, since, locked⟩ := o
  dsimp only at hk
  subst hk
  refine (if_neg hc).trans ?_
  rw [ho]
  rfl

theorem State.descKey_radius (hc : c = 16) {i : RItem} {key : Shares} (hi : s.ritemOf k = some i) (hk : i.key = some key) :
    s.descKey c k = (0, 0, (key.share ^^^ key.mask).toNat, 16) := by
  refine (if_pos hc).trans ?_
  rw [hi]
  dsimp only
  rw [hk]
  rfl

end

/-- The rows of the block instructions. -/
def blockRows (i : Issue) (perr : Bool) : List (Instr × Nat) :=
  [(Instr.benc ⟨i, perr⟩, 0x80), (.bdec ⟨i, perr⟩, 0x81), (.bctr ⟨i, perr⟩, 0x82), (.gfacc ⟨i, perr⟩, 0x83), (.tagfin ⟨i, perr⟩, 0x84),
    (.tagcmp ⟨i, perr⟩, 0x85)]

theorem exec_blockRow {i : Issue} {x : Ins} {s s0 : State} (h : Issues i x s s0) {perr : Bool} {n : Instr × Nat} (hn : n ∈ blockRows i perr)
    (hop : x.op = n.2) : exec n.1 s = .next ((blockIssue perr i.t.cl i.t.key x s0).settle i.t.cl i.t.key x ((s0.thread i.t.cl i.t.key).gr x.a)) := by
  simp only [blockRows, List.mem_cons, List.not_mem_nil, or_false] at hn
  rcases hn with rfl | rfl | rfl | rfl | rfl | rfl
  all_goals exact exec_issued h (body := blockIssue perr) rfl hop

/-- Settles O47: each row by its checks, then what its operation or its descriptor does. -/
theorem contextAndBlockInstructions : Obligations.ContextAndBlockInstructions := by
  unfold Obligations.ContextAndBlockInstructions
  refine ⟨fun i x s s0 h => ⟨fun hop hw => ?_, fun hop hw hp => ?_, fun hop hw hp => ⟨?_, fun hx => ?_⟩, fun hop hw => ?_,
      fun o slot gen key len hop ho hk hr ha => ?_, fun ho => ⟨fun hop => ?_, fun hop => ?_⟩, fun o hop ho => ⟨fun hoff => ?_, fun hoff => ?_⟩,
      fun o hop ho => ⟨fun hoff hmine => ?_, fun hoff hmine => ?_, fun hbad => ?_⟩⟩,
    ⟨fun s recv ph h0 => ?_, fun a none_ phase h => saResult_fields a none_ phase⟩,
    fun i x perr s s0 h n hn hop => ⟨fun hbad => ?_, fun hbad hlate => ?_, fun hbad hlate => ?_⟩, fun s c k d => ?_⟩
  · rw [exec_issued h (body := saload) rfl hop, saload_wrong hw, Act.settle]
  · rw [exec_issued h (body := saload) rfl hop, saload_partition hw hp, Act.settle]
  · rw [exec_issued h (body := saload) rfl hop, saload_starts hw hp, saloadEnd_eq, Act.settle,
      show (s0.saloadStart i.t.cl i.t.key x).2.clk = s0.clk from State.startOp_clk _ _ _ _]
    rfl
  · exact State.saloadLock_owner _ _ hx
  · rw [exec_issued h (body := pntake) rfl hop, pntake_wrong hw, Act.settle]
  · obtain ⟨hvalue, hrefused⟩ := pntake_takes (x := x) ho hk hr ha rfl
    refine ⟨fun v hv => ?_, fun why hv => ?_⟩
    · rw [exec_issued h (body := pntake) rfl hop, hvalue v hv, Act.settle]
      rfl
    · rw [exec_issued h (body := pntake) rfl hop, hrefused why hv, Act.settle]
  · rw [exec_issued h (body := cldAct) rfl hop, cldAct_none ho, Act.settle]
  · rw [exec_issued h (body := cstAct) rfl hop, cstAct_none ho, Act.settle]
  · rw [exec_issued h (body := cldAct) rfl hop, cldAct_reads ho hoff, Act.settle]
  · rw [exec_issued h (body := cldAct) rfl hop, cldAct_beyond ho hoff, Act.settle]
  · rw [exec_issued h (body := cstAct) rfl hop, cstAct_low ho hmine hoff, Act.settle]
  · rw [exec_issued h (body := cstAct) rfl hop, cstAct_high ho hmine hoff, Act.settle]
  · rw [exec_issued h (body := cstAct) rfl hop, cstAct_refused ho hbad, Act.settle]
  · obtain ⟨hfound, hhandle, hphase⟩ := s.startOp_found (recv := recv) (ph := ph) (h0 := h0) rfl rfl rfl
    refine ⟨hfound, hhandle, hphase, fun hs => ?_, fun hs => ?_⟩
    · exact State.startOp_serves rfl rfl rfl hs
    · exact State.startOp_idle rfl rfl rfl hs
  · rw [exec_blockRow h hn hop, blockIssue_refused hbad, Act.settle]
  · rw [exec_blockRow h hn hop, blockIssue_late hbad hlate, Act.settle]
  · rw [exec_blockRow h hn hop, blockIssue_issues hbad hlate, Act.settle]
    rfl
  · refine ⟨fun o slot gen key len hc ho hk => State.descKey_prism hc ho hk, fun i key hc hi hk => State.descKey_radius hc hi hk, fun hop hc => ?_,
      fun hop hc hsel => ?_, fun i hop hc hsel hi => ⟨?_, fun j => State.derive_ritem⟩, fun hop => ?_, fun hop hroute => ?_, fun hop hroute => ?_,
      fun hop => ?_, fun hop => ?_, fun hop => ?_⟩
    · exact (State.runDesc_op hop).trans ((if_neg fun hn => hc hn.1).trans (if_neg hc))
    · exact (State.runDesc_op hop).trans ((if_neg fun hn => hsel hn.2).trans (if_pos hc))
    · rw [State.runDesc_op hop, State.descCounted_radius hc]
      refine (if_pos ⟨hc, hsel⟩).trans ?_
      rw [hi]
    · exact State.runDesc_op hop
    · exact (State.runDesc_op hop).trans (if_pos hroute)
    · exact (State.runDesc_op hop).trans (if_neg (Nat.not_lt.mpr hroute))
    · rw [State.hTouch_blocksAt]
      exact State.runDesc_op hop
    · rw [State.runDesc_op hop, State.runOp, State.hTouch_templateOf]
      rfl
    · rw [State.runDesc_op hop, State.descCounted_compare (by omega)]
      rfl

end Sys2Proof.Machine
end

section
namespace Sys2Proof.Machine

/-! Control instructions and the ends of a work item (R222, R226, R261 to R268, R297). -/

/-! What a free of a frame leaves as it is (R342, R346 to R348, R390). -/

/-- From s to t nothing changes but Tessera, the registers, the time-stamps of Gnomon, and what is reported. -/
def Frees (s t : State) : Prop :=
  t = { s with regs := t.regs, gnomon := t.gnomon, tess := t.tess, counters := t.counters, tele := t.tele, once := t.once, rings := t.rings }

theorem Frees.refl (s : State) : Frees s s := rfl

theorem Frees.trans {s t u : State} (h : Frees s t) (h' : Frees t u) : Frees s u :=
  Eq.trans h' (congrArg (fun w : State => { w with
    regs := u.regs, gnomon := u.gnomon, tess := u.tess, counters := u.counters, tele := u.tele, once := u.once, rings := u.rings }) h)

theorem Reports.frees {s t : State} (h : Reports s t) : Frees s t := by
  have hregs : t.regs = s.regs := by rw [h.frame]
  have hgnomon : t.gnomon = s.gnomon := by rw [h.frame]
  have htess : t.tess = s.tess := by rw [h.frame]
  rw [Frees, hregs, hgnomon, htess]
  exact h.frame

theorem Frees.ite {s a b : State} {p : Prop} [Decidable p] (ha : Frees s a) (hb : Frees s b) : Frees s (if p then a else b) := by
  split
  case isTrue => exact ha
  case isFalse => exact hb

section
variable (s : State)

theorem State.raise_frees (ev : Nat) (data : List Byte) : Frees s (s.raise ev data) := (s.raise_raises ev data).toReports.frees

theorem State.countN_frees (id n : Nat) : Frees s (s.countN id n) := (s.countN_reports id n).frees

theorem State.withTess_frees (t : TessState) : Frees s (s.withTess t) := rfl

theorem State.orReg_frees (off v : Nat) : Frees s (s.orReg off v) := rfl

theorem State.refuseFree_frees (o : Nat) (e : FreeErr) (cell item : Nat) : Frees s (s.refuseFree o e cell item) := by
  unfold State.refuseFree
  dsimp only
  exact (((s.orReg_frees _ _).trans (State.countN_frees _ _ _)).trans (State.withTess_frees _ _)).trans (State.raise_frees _ _ _)

theorem State.strand_frees (o : Nat) (f : TFrame) (rest : List Nat) : Frees s (s.strand o f rest) := by
  cases rest with
  | nil => rfl
  | cons c cs =>
    unfold State.strand
    dsimp only
    exact (((s.refuseFree_frees _ _ _ _).trans (State.withTess_frees _ _)).trans (State.countN_frees _ _ _)).trans (State.raise_frees _ _ _)

theorem State.freePtr_onlyFrees (o : Option Nat) (ptr : Nat) : Frees s (s.freePtr o ptr) := by
  unfold State.freePtr
  dsimp only
  refine Frees.ite (s.refuseFree_frees _ _ _ _) ?_
  split
  · exact s.refuseFree_frees _ _ _ _
  · split
    · exact s.refuseFree_frees _ _ _ _
    · refine Frees.ite (s.refuseFree_frees _ _ _ _) (Frees.trans ?_ (State.strand_frees _ _ _ _))
      exact Frees.ite (s.withTess_frees _) (Frees.ite (s.withTess_frees _) (s.withTess_frees _))

theorem State.freeFrame_frees (o : Option Nat) (id : Nat) : Frees s (s.freeFrame o id) := by
  unfold State.freeFrame
  split
  · exact s.freePtr_onlyFrees _ _
  · split
    · exact (s.withTess_frees _).trans (State.freePtr_onlyFrees _ _ _)
    · rfl

theorem State.txtsPush_frees (x : Nat) (e : BitVec 128) : Frees s (s.txtsPush x e) := by
  unfold State.txtsPush
  dsimp only
  refine Frees.ite rfl (Frees.trans (t := s.withGnomon { s.gnomon with txtsOvf := tmod 0 s.gnomon.txtsOvf x fun c => c + 1 }) rfl ?_)
  exact (State.raiseOnce_raises _ _ _ _).toReports.frees

theorem State.notSent_frees (side lp : Nat) (id : Option Nat) : Frees s (s.notSent side lp id) := by
  cases id with
  | none => rfl
  | some id => exact s.txtsPush_frees _ _

theorem State.freeItem_frees (n : Nat) (i : Item) : Frees s (s.freeItem n i) := by
  unfold State.freeItem
  split
  · exact (s.freeFrame_frees _ _).trans (State.notSent_frees _ _ _ _)
  · rfl

end

/-! What a statistic of an association leaves as it is (R120, R121). -/

/-- From s to t nothing changes but associations, and what a write through Hull may change; no association's HOLD_MS changes. -/
structure Tallies (s t : State) : Prop where
  frame : t = { s with freeCount := t.freeCount, mem := t.mem, hull := t.hull, counters := t.counters, tele := t.tele, once := t.once, rings := t.rings
                       assoc := t.assoc }
  holdMs : ∀ h, (t.sa h).holdMs = (s.sa h).holdMs

theorem Tallies.trans {s t u : State} (h : Tallies s t) (h' : Tallies t u) : Tallies s u where
  frame := h'.frame.trans (congrArg (fun w : State => { w with
    freeCount := u.freeCount, mem := u.mem, hull := u.hull, counters := u.counters, tele := u.tele, once := u.once, rings := u.rings, assoc := u.assoc }) h.frame)
  holdMs := fun k => (h'.holdMs k).trans (h.holdMs k)

theorem Tallies.refl (s : State) : Tallies s s := ⟨rfl, fun _ => rfl⟩

theorem Stores.tallies {s t : State} (h : Stores s t) : Tallies s t where
  frame := by
    have hassoc : t.assoc = s.assoc := by rw [h.frame]
    rw [hassoc]
    exact h.frame
  holdMs := fun k => by rw [State.sa, State.sa, h.frame]

theorem State.setSa_tallies (s : State) (h : Nat) {a : Assoc} (ha : a.holdMs = (s.sa h).holdMs) : Tallies s (s.setSa h a) where
  frame := rfl
  holdMs := fun k => by
    by_cases hk : k = h
    · rw [hk, State.sa_setSa, ha]
    · rw [State.sa_setSa_ne _ hk]

theorem State.saLeave_tallies (s : State) (h : Option Nat) : Tallies s (s.saLeave h) := by
  cases h with
  | none => exact Tallies.refl s
  | some h => exact s.setSa_tallies h rfl

theorem State.fold_tallies (s : State) (h : Nat) : Tallies s (s.fold h).2 := by
  have hw := (s.writeMem_stores .annulus 0 (s.statsAddr h) (s.foldedStats h)).tallies
  cases hok : (s.writeMem .annulus 0 (s.statsAddr h) (s.foldedStats h)).1 with
  | true =>
    rw [State.fold_written hok]
    exact hw.trans (State.setSa_tallies _ _ rfl)
  | false =>
    rw [State.fold_refused hok]
    exact hw.trans (State.raise_raises _ _ _).toReports.stores.tallies

theorem State.stat_tallies (s : State) (h i n : Nat) : Tallies s (s.stat h i n) := by
  have hite : ∀ {u a b : State} {p : Prop} [Decidable p], Tallies u a → Tallies u b → Tallies u (if p then a else b) := fun ha hb => by
    split
    · exact ha
    · exact hb
  unfold State.stat
  dsimp only
  refine hite (Tallies.refl s) ?_
  have hset : Tallies s (s.setSa h { s.sa h with
      delta := tput 0 (s.sa h).delta i (BitVec.ofNat 32 (min (2 ^ 32 - 1) ((tget 0 (s.sa h).delta i).toNat + n))) }) := s.setSa_tallies h rfl
  generalize s.setSa h { s.sa h with
    delta := tput 0 (s.sa h).delta i (BitVec.ofNat 32 (min (2 ^ 32 - 1) ((tget 0 (s.sa h).delta i).toNat + n))) } = u at hset
  have hraise : Tallies s (if min (2 ^ 32 - 1) ((tget 0 (s.sa h).delta i).toNat + n) = 2 ^ 32 - 1 ∧
      (tget 0 (s.sa h).delta i).toNat < min (2 ^ 32 - 1) ((tget 0 (s.sa h).delta i).toNat + n) then u.raise 0x129 (le 4 h) else u) :=
    hite (hset.trans (State.raise_raises _ _ _).toReports.stores.tallies) hset
  exact hite (hraise.trans (State.fold_tallies _ _)) hraise

/-! A thread that leaves its item (R222, R254). -/

section
variable (s : State) (c k : Nat)

theorem State.opEnd_frame (slot : Nat) (g : BitVec 32) : s.opEnd slot g = { s with twin := (s.opEnd slot g).twin, axis := (s.opEnd slot g).axis } := by
  unfold State.opEnd
  dsimp only
  split
  · rw [State.setSlot_frame]
  · rw [State.setSlot_frame]

/-- An operation's end, but for its lock and its thread. -/
def State.endKey (s : State) (o : SaOp) (pn : Option Nat) : State := match o.key with
  | some (slot, gen, _, _) => (if !(s.sa o.handle).recv && pn.isNone then s.untake o.handle else s).opEnd slot gen
  | none => s

theorem State.endKey_frame (o : SaOp) (pn : Option Nat) : s.endKey o pn = { s with twin := (s.endKey o pn).twin, axis := (s.endKey o pn).axis
                                                                                   assoc := (s.endKey o pn).assoc } := by
  unfold State.endKey
  split
  · rw [State.opEnd_frame]
    split <;> rfl
  · rfl

theorem State.endOp_none (h : (s.thread c k).op = none) (b : Bool) : s.endOp c k b = s := by
  rw [State.endOp, h]

theorem State.endOp_some {o : SaOp} (h : (s.thread c k).op = some o) (b : Bool) : s.endOp c k b =
    (if (b && o.locked) = true then (s.endKey o (s.thread c k).pn).freeLock o.handle (vOwner c k) else s.endKey o (s.thread c k).pn).modThread c k
      fun t => { t with op := none } := by
  rw [State.endOp, h]
  rfl

end
section
variable {s : State} {c k : Nat}

theorem lookup_tdel {α : Type} (t : Tbl α) (k : Nat) : (tdel t k).lookup k = none := by
  induction t with
  | nil => rfl
  | cons e t ih =>
    obtain ⟨i, v⟩ := e
    rw [tdel]
    split
    · exact ih
    · next hne => rw [List.lookup_cons, beq_false_of_ne (Ne.symm hne), ih]

/-- A lock that its owner gives up is not that owner's. -/
theorem State.freeLock_owner (s : State) (h owner : Nat) : (s.freeLock h owner).lockOwner h ≠ some owner := by
  unfold State.freeLock
  cases hl : s.assoc.locks.lookup h with
  | none =>
    dsimp only
    rw [State.lockOwner, hl]
    exact nofun
  | some l =>
    obtain ⟨o, due⟩ := l
    dsimp only
    split
    · rw [State.lockOwner]
      dsimp only
      rw [lookup_tdel]
      exact nofun
    · next ho =>
      rw [State.lockOwner, hl]
      dsimp only
      split
      · exact fun hn => ho (Option.some.inj hn)
      · exact nofun

theorem State.endOp_frame (s : State) (c k : Nat) (b : Bool) : s.endOp c k b = { s with
    twin := (s.endOp c k b).twin, axis := (s.endOp c k b).axis, assoc := (s.endOp c k b).assoc, vertex := (s.endOp c k b).vertex } := by
  cases ho : (s.thread c k).op with
  | none => rw [State.endOp_none s c k ho]
  | some o =>
    rw [State.endOp_some s c k ho, State.endKey_frame]
    unfold State.freeLock State.modThread State.setThread State.setCluster
    split
    · split
      · split <;> rfl
      · rfl
    · rfl

theorem State.idle_thread (s : State) (c k : Nat) : ((s.idle c k).thread c k).mode = .idle ∧ ((s.idle c k).thread c k).item = none ∧
    ((s.idle c k).thread c k).op = none ∧ ((s.idle c k).thread c k).descs = [] := by
  rw [State.idle, State.thread_modThread]
  exact ⟨rfl, rfl, rfl, rfl⟩

theorem State.idle_prism (s : State) (c k : Nat) : (s.idle c k).prism = s.prism := rfl

theorem State.idle_lockOwner (s : State) (c k h : Nat) : (s.idle c k).lockOwner h = s.lockOwner h := rfl

theorem State.leaveItem_eq (s : State) (c k : Nat) : s.leaveItem c k = ((s.endOp c k true).idle c k).setUnit c
    { s.unit c with ghosts := (s.unit c).ghosts.filter fun i => some i.seq != (s.thread c k).item } := by
  have hunit : ((s.endOp c k true).idle c k).unit c = s.unit c := by
    rw [State.unit, State.unit, State.idle_prism, State.endOp_frame]
  rw [State.leaveItem, hunit]

theorem State.leaveItem_items (s : State) (c k : Nat) : ((s.leaveItem c k).unit c).items = (s.unit c).items := by
  rw [State.leaveItem_eq, State.unit_setUnit]

theorem State.leaveItem_thread (s : State) (c k : Nat) : ((s.leaveItem c k).thread c k).mode = .idle ∧ ((s.leaveItem c k).thread c k).item = none ∧
    ((s.leaveItem c k).thread c k).op = none ∧ ((s.leaveItem c k).thread c k).descs = [] := by
  rw [State.leaveItem_eq]
  exact State.idle_thread _ c k

theorem State.leaveItem_unlocks {o : SaOp} (ho : (s.thread c k).op = some o) (hl : o.locked = true) :
    (s.leaveItem c k).lockOwner o.handle ≠ some (vOwner c k) := by
  rw [State.leaveItem_eq]
  show ((s.endOp c k true).idle c k).lockOwner o.handle ≠ _
  rw [State.idle_lockOwner, State.endOp_some s c k ho, hl]
  exact State.freeLock_owner (s.endKey o (s.thread c k).pn) o.handle (vOwner c k)

end

/-! Ends of a Prism's item (R200, R207, R266, R267). -/

section
variable {s : State} {n : Nat} {it : Item}

theorem State.modItem_items (s : State) (n q : Nat) (f : Item → Item) :
    ((s.modItem n q f).unit n).items = (s.unit n).items.map fun i => if i.seq = q then f i else i := by
  rw [State.modItem, State.unit_setUnit]

theorem State.modItem_maps {q : Nat} {f : Item → Item} (hq : it.seq = q) (h : it ∈ (s.unit n).items) : f it ∈ ((s.modItem n q f).unit n).items := by
  rw [State.modItem_items]
  exact List.mem_map.mpr ⟨it, h, if_pos hq⟩

theorem State.dropSlot_some {q : Nat} (h : s.item n q = some it) : s.dropSlot n q =
    (let u := ((s.saLeave it.sa).freeItem n it).modItem n q fun i => { i.zeroed with stage := .dropped, sa := none, frame := none, tsId := none }
    u.setUnit n { u.unit n with ghosts := (u.unit n).ghosts.filter (·.seq != q) }) := by
  rw [State.dropSlot, h]

theorem State.freed_unit (s : State) (n : Nat) (it : Item) (c : Nat) : ((s.saLeave it.sa).freeItem n it).unit c = s.unit c := by
  rw [State.unit, State.unit, State.freeItem_frees, (s.saLeave_tallies it.sa).frame]

theorem State.dropSlot_drops (h : s.item n it.seq = some it) (hmem : it ∈ (s.unit n).items) :
    ∃ j ∈ ((s.dropSlot n it.seq).unit n).items, j.seq = it.seq ∧ j.stage = .dropped ∧ j.bytes = List.replicate it.bytes.length 0 := by
  rw [State.dropSlot_some h]
  dsimp only
  rw [State.unit_setUnit]
  exact ⟨_, State.modItem_maps (f := fun i => { i.zeroed with stage := .dropped, sa := none, frame := none, tsId := none }) rfl
    (by rw [State.freed_unit]; exact hmem), rfl, rfl, rfl⟩

theorem State.saLeave_prism (s : State) (h : Option Nat) : (s.saLeave h).prism = s.prism := by rw [(s.saLeave_tallies h).frame]

theorem State.redoItem_waits (hmem : it ∈ (s.unit n).items) :
    ∃ j ∈ ((s.redoItem n it).unit n).items, j.seq = it.seq ∧ j.stage = .waiting ∧ j.sa = none ∧ j.bytes = it.bytes := by
  refine ⟨_, State.modItem_maps (f := fun i => { i with stage := .waiting, sa := none }) rfl ?_, rfl, rfl, rfl, rfl⟩
  rw [State.unit, State.saLeave_prism]
  exact hmem

/-- A held frame that is dropped instead: its HOLD_MS has passed, or its port is disabled. -/
def State.holdDrops (s : State) (c h : Nat) (twin : Bool) (it : Item) : Prop :=
  (twin = false ∧ h ∈ (s.unit c).expired) ∨ (s.lport (64 + it.lp)).enabled = false

variable {c h : Nat} {twin : Bool}

theorem State.holdDrops_iff : s.holdDrops c h twin it ↔
    ((!twin) = true ∧ (s.unit c).expired.contains h = true) ∨ (!(s.lport (64 + it.lp)).enabled) = true := by
  rw [State.holdDrops, Bool.not_eq_true', Bool.not_eq_true', List.contains_iff_mem]

theorem State.holdItem_drops (hd : s.holdDrops c h twin it) : s.holdItem c h twin it = (s.stat h 5 1).dropSlot c it.seq :=
  if_pos (State.holdDrops_iff.mp hd)

/-- A frame as it is parked. -/
def State.parkedAs (s : State) (h : Nat) (twin : Bool) (it : Item) : Parked :=
  { item := { it with stage := .waiting, sa := none, handle := h }, twin := twin, due := s.clk + 1000000 * (s.sa h).holdMs.toNat }

theorem State.holdItem_parks (hd : ¬ s.holdDrops c h twin it) : ∃ u : State, s.holdItem c h twin it =
    (u.setUnit c { s.unit c with items := (s.unit c).items.filter (·.seq != it.seq), parked := (s.unit c).parked ++ [s.parkedAs h twin it] }).restop := by
  have hu : Tallies s ((s.stat h (if twin then 6 else 4) 1).saLeave ((s.item c it.seq).bind (·.sa))) :=
    (s.stat_tallies h _ 1).trans (State.saLeave_tallies _ _)
  refine ⟨(s.stat h (if twin then 6 else 4) 1).saLeave ((s.item c it.seq).bind (·.sa)), (if_neg (mt State.holdDrops_iff.mpr hd)).trans ?_⟩
  dsimp only
  generalize (s.stat h (if twin = true then 6 else 4) 1).saLeave ((s.item c it.seq).bind (·.sa)) = u at hu ⊢
  have hunit : u.unit c = s.unit c := by rw [State.unit, State.unit, hu.frame]
  have hclk : u.clk = s.clk := by rw [hu.frame]
  rw [State.parkedAs, hunit, hclk, hu.holdMs]

theorem tins_self_mem {α : Type} (t : Tbl α) (k : Nat) (v : α) : (k, v) ∈ tins t k v := by
  induction t with
  | nil => exact List.mem_cons_self
  | cons e t ih =>
    obtain ⟨i, w⟩ := e
    rw [tins]
    split
    · exact List.mem_cons_self
    · split
      · exact List.mem_cons_self
      · exact List.mem_cons_of_mem _ ih

/-- A Prism that holds a parked frame stops that frame's queue. -/
theorem State.restop_stopped (u : State) (x : PrismUnit) {p : Parked} (hp : p ∈ x.parked) : 4096 + p.item.queue ∈ (u.setUnit c x).restop.sector.stopped := by
  have hne : x ≠ PrismUnit.reset := fun hx => by
    rw [hx] at hp
    exact absurd hp List.not_mem_nil
  have hmem : (c, x) ∈ (u.setUnit c x).prism.units := by
    show (c, x) ∈ tput PrismUnit.reset u.prism.units c x
    rw [tput, if_neg hne]
    exact tins_self_mem _ _ _
  exact List.mem_flatMap.mpr ⟨(c, x), hmem, List.mem_map.mpr ⟨p, hp, rfl⟩⟩

theorem State.holdItem_holds (hd : ¬ s.holdDrops c h twin it) :
    (∀ j ∈ ((s.holdItem c h twin it).unit c).items, j.seq ≠ it.seq) ∧ 4096 + it.queue ∈ (s.holdItem c h twin it).sector.stopped ∧
    ∃ p ∈ ((s.holdItem c h twin it).unit c).parked, p.item = { it with stage := .waiting, sa := none, handle := h } ∧ p.twin = twin ∧
      p.due = s.clk + 1000000 * (s.sa h).holdMs.toNat := by
  obtain ⟨u, hu⟩ := State.holdItem_parks hd
  have hunit : (s.holdItem c h twin it).unit c =
      { s.unit c with items := (s.unit c).items.filter (·.seq != it.seq), parked := (s.unit c).parked ++ [s.parkedAs h twin it] } := by
    rw [hu]
    exact State.unit_setUnit _ _ _
  have hparked : s.parkedAs h twin it ∈ (s.unit c).parked ++ [s.parkedAs h twin it] := List.mem_append_right _ (List.mem_singleton_self _)
  rw [hunit]
  refine ⟨fun j hj => ?_, ?_, _, hparked, rfl, rfl, rfl⟩
  · simpa using (List.mem_filter.mp hj).2
  · rw [hu]
    exact State.restop_stopped (p := s.parkedAs h twin it) u _ hparked

end

/-! Drops of a Prism's item (R265, Table 10.7). -/

section
variable (s : State) (n h : Nat) (it : Item)

/-- A statistic of an association of one direction. -/
def State.tally (recv : Bool) (j : Nat) : State := if (s.sa h).recv = recv then s.stat h j 1 else s

theorem State.tally_sent (j : Nat) : s.tally h false j = if (s.sa h).recv = true then s else s.stat h j 1 := by
  unfold State.tally
  cases (s.sa h).recv <;> rfl

/-- A frame that failed its tag, counted and reported. -/
def State.tagFailed (u : State) (n h : Nat) (it : Item) : State :=
  (if it.kind = 1 then u.facetTagFailed n else u.count (cid 0x03 7 it.lp)).raiseOnce 0x143 (64 + it.lp)
    ([BitVec.ofNat 8 n, BitVec.ofNat 8 (64 + it.lp)] ++ le 4 h)

/-- What each reason of a DROP counts. -/
def State.countReason (s : State) (n h : Nat) (it : Item) : Nat → State
  | 0 => s.count (cid 0x04 1 it.lp)
  | 1 => (s.tally h true 1).tagFailed n h it
  | 2 => (s.tally h true 2).tagFailed n h it
  | 3 => if it.kind = 1 then s.tally h true 3 else (s.tally h true 3).count (cid 0x03 8 it.lp)
  | 4 => s.tally h true 5
  | 5 => s.tally h false 5
  | 6 => s.tally h false 7
  | _ => (s.count (cid 0x03 0 it.lp)).raiseOnce 0x173 (64 + it.lp) (BitVec.ofNat 8 (64 + it.lp) :: le 4 it.handle)

theorem State.countDrop_ownPort (r : Nat) (hlp : it.lp = 64) : s.countDrop n h r it = s := if_pos hlp

theorem State.countDrop_reason {r : Nat} (hlp : it.lp ≠ 64) : s.countDrop n h r it = s.countReason n h it r := (if_neg hlp).trans rfl

end

/-! Ends of a Radius item (R297, R300, R301, Table 12.13). -/

section
variable (s : State)

/-- An item disposed of is gone. -/
theorem State.endRItem_gone (id : Nat) : ∀ j ∈ (s.endRItem id).radius.items, j.id ≠ id := by
  intro j hj
  cases hi : s.ritem id with
  | none =>
    rw [State.endRItem, hi] at hj
    exact fun hn => List.find?_eq_none.mp hi j hj (beq_iff_eq.mpr hn)
  | some i =>
    rw [State.endRItem, hi] at hj
    simpa using (List.mem_filter.mp (show j ∈ (((s.endRoot id).unreserve i).radius.items.filter (·.id != id)) from hj)).2

/-- A Radius item ends: its lock is released, then it is disposed of. -/
def State.endItemOf (u : State) (k : Nat) (it : RItem) : State := (u.recUnlock it.slot (vOwner 16 k)).endRItem it.id

/-- What each reason of a DROP in Radius counts. -/
def State.rcountReason (it : RItem) : Nat → State
  | 1 | 2 => (s.rcount 15 (some it.group)).raiseOnce 0x1C4 it.group (le 2 it.group ++ le 8 it.sensor.toNat)
  | 3 => s.rcount (if it.frameCounter ≤ leAt it.image 0x0C 4 then 13 else 14) (some it.group)
  | 4 => (s.rcount 11 (some it.group)).raiseOnce 0x1C3 it.group (le 2 it.group)
  | 5 => s.rcount 6 (some it.group)
  | _ => s.rcount 17 (some it.group)

theorem State.dropItem_eq (k r : Nat) (it : RItem) : s.dropItem k r it = (s.rcountReason it r).endItemOf k it := rfl

theorem State.releaseItem_refused {k : Nat} {it : RItem} {v : List Byte} (kind n : Nat) (out : List Byte)
    (h : (s.recLock it.slot).any (·.owner == vOwner 16 k) = false ∨ writeBackOk it.image v = false) :
    s.releaseItem (vOwner 16 k) it true v kind n out = ((s.rcount 10 (some it.group)).raise 0x1C5 (le 2 (vOwner 16 k))).endItemOf k it := by
  refine if_pos ⟨rfl, ?_⟩
  rw [Bool.not_eq_true', Bool.and_eq_false_iff]
  exact h

/-- A released item is gone. -/
theorem State.releaseItem_ends (owner : Nat) (it : RItem) (wb : Bool) (v : List Byte) (kind n : Nat) (out : List Byte) :
    ∃ u : State, s.releaseItem owner it wb v kind n out = u.endRItem it.id := by
  by_cases h : wb = true ∧ (!((s.recLock it.slot).any (·.owner == owner) && writeBackOk it.image v)) = true
  · exact ⟨_, if_pos h⟩
  · exact ⟨_, if_neg h⟩

/-- The pieces of 64 bytes that an EMIT of Radius gives. -/
def State.emitLength (k : Nat) (x : Ins) : Nat × State :=
  if ((s.thread 16 k).gr x.a).toNat % 64 = 0 ∧ ((s.thread 16 k).gr x.a).toNat ≤ 192 then (((s.thread 16 k).gr x.a).toNat / 64, s) else s.draw 2

theorem State.emitItem_eq (k : Nat) (x : Ins) (it : RItem) : s.emitItem k x it =
    (s.emitLength k x).2.releaseItem (vOwner 16 k) it (bitOf x.ext 0) (slice it.buf 0 64) (bits x.ext 1 2) (64 * (s.emitLength k x).1)
      (slice it.buf 0x110 (64 * (s.emitLength k x).1)) := rfl

theorem State.emitItem_gone (k : Nat) (x : Ins) (it : RItem) : ∀ j ∈ (s.emitItem k x it).radius.items, j.id ≠ it.id := by
  rw [State.emitItem_eq]
  obtain ⟨w, hw⟩ := (s.emitLength k x).2.releaseItem_ends (vOwner 16 k) it (bitOf x.ext 0) (slice it.buf 0 64) (bits x.ext 1 2)
    (64 * (s.emitLength k x).1) (slice it.buf 0x110 (64 * (s.emitLength k x).1))
  rw [hw]
  exact w.endRItem_gone it.id

end

/-! Control (R262, R263, R268). -/

section
variable {s : State} {c k pc : Nat} {x : Ins}

theorem State.land_in (h : pc < s.count_ c (s.thread c k).high) : s.land c k pc = s.setThread c k { s.thread c k with pc := pc } :=
  if_neg (Nat.not_le.mpr h)

theorem State.land_beyond (h : s.count_ c (s.thread c k).high ≤ pc) : s.land c k pc = s.faultThread c k .illegal := if_pos h

theorem State.count_setThread (s : State) (c k : Nat) (t : Thread) (high : Bool) : (s.setThread c k t).count_ c high = s.count_ c high := by
  rw [State.count_, State.setThread, State.cluster_setCluster]
  rfl

theorem State.land_stack {st : List Nat} (h : pc < s.count_ c (s.thread c k).high) :
    (s.setThread c k { s.thread c k with stack := st }).land c k pc =
    (s.setThread c k { s.thread c k with stack := st }).setThread c k { s.thread c k with stack := st, pc := pc } := by
  rw [State.land_in (by rw [State.thread_setThread, State.count_setThread]; exact h), State.thread_setThread]

/-- What CALL does. -/
def callAct (c k : Nat) (x : Ins) (s : State) : Act :=
  if 8 ≤ (s.thread c k).stack.length ∨ s.count_ c (s.thread c k).high ≤ bits x.ext 0 14 then .fault s .illegal
  else .jump (s.setThread c k { s.thread c k with stack := ((s.thread c k).pc + 1) :: (s.thread c k).stack }) (bits x.ext 0 14)

/-- What RET does. -/
def retAct (c k : Nat) (_ : Ins) (s : State) : Act :=
  match (s.thread c k).stack with
  | [] => .fault s .illegal
  | pc :: rest => if s.count_ c (s.thread c k).high ≤ pc then .fault s .illegal else .jump (s.setThread c k { s.thread c k with stack := rest }) pc

theorem retAct_empty (h : (s.thread c k).stack = []) : retAct c k x s = .fault s .illegal := by rw [retAct, h]

theorem retAct_pops {rest : List Nat} (h : (s.thread c k).stack = pc :: rest) : retAct c k x s =
    if s.count_ c (s.thread c k).high ≤ pc then .fault s .illegal else .jump (s.setThread c k { s.thread c k with stack := rest }) pc := by
  rw [retAct, h]

/-- What EVT raises. -/
def evtAct (c k : Nat) (x : Ins) (s : State) : Act :=
  s.fenced c k (.go (s.raise (0x1A0 + bits x.ext 0 4) (le 2 (vOwner c k) ++ le 2 (s.thread c k).pc ++ le 8 ((s.thread c k).gr x.a).toNat)))

theorem State.fenced_failed {a : Act} (h : (s.thread c k).failed = true) : s.fenced c k a = .fault s .integrity := if_pos h

theorem State.fenced_passed {a : Act} (h : (s.thread c k).failed = false) : s.fenced c k a = a := if_neg (Bool.eq_false_iff.mp h)

end

/-! Dispositions (R222, R264 to R267, R297). -/

section
variable {s : State} {c k : Nat} {x : Ins}

/-- A Radius thread gives its item up after its end. -/
def State.radiusEnd (s : State) (k : Nat) (end_ : RItem → State) : State :=
  (match s.ritemOf k with
    | some it => end_ it
    | none => s).idle 16 k

theorem State.radiusEnd_some {end_ : RItem → State} {it : RItem} (h : s.ritemOf k = some it) : s.radiusEnd k end_ = (end_ it).idle 16 k := by
  rw [State.radiusEnd, h]

theorem State.radiusEnd_none {end_ : RItem → State} (h : s.ritemOf k = none) : s.radiusEnd k end_ = s.idle 16 k := by
  rw [State.radiusEnd, h]

/-- A Prism's thread gives its item up, and its item has its end. -/
def State.prismEnd (s : State) (c k : Nat) (end_ : State → Item → State) : State := match s.heldItem c k with
  | none => s.leaveItem c k
  | some it => end_ (s.leaveItem c k) it

theorem State.prismEnd_some {end_ : State → Item → State} {it : Item} (h : s.heldItem c k = some it) :
    s.prismEnd c k end_ = end_ (s.leaveItem c k) it := by
  rw [State.prismEnd, h]

theorem State.prismEnd_none {end_ : State → Item → State} (h : s.heldItem c k = none) : s.prismEnd c k end_ = s.leaveItem c k := by
  rw [State.prismEnd, h]

/-- What a frame carries into its reorder slot. -/
def Thread.emitted (t : Thread) (x : Ins) : Emitted := ⟨(t.gr x.a).toNat, (t.gr x.b).toNat, (t.gr x.d).toNat, bitOf x.ext 0, bits x.ext 1 3⟩

/-- EMIT of a Prism's item. -/
def emitEnd (c : Nat) (e : Emitted) (u : State) (it : Item) : State :=
  if it.kind = 3 then u.chunkDone c it else u.modItem c it.seq fun j => { j with stage := .emitted e }

/-- What EMIT does. -/
def emitAct (c k : Nat) (x : Ins) (s : State) : Act :=
  s.fenced c k (.gone (if c = 16 then s.radiusEnd k fun it => s.emitItem k x it else s.prismEnd c k (emitEnd c ((s.thread c k).emitted x))))

theorem State.dropWork_eq (s : State) (c k r : Nat) : s.dropWork c k r =
    if c = 16 then s.radiusEnd k fun it => s.dropItem k r it else s.prismEnd c k fun u it => u.dropFor c (s.itemSa c k) r it := rfl

/-- PARK or REDO in a form that its thread may not use. -/
theorem park_wrong (h : c = 16 ∨ (s.thread c k).kind ≠ 0 ∨ (s.thread c k).recv = true ∨ (s.thread c k).pn.isSome = true) :
    park c k x s = .fault s .illegal := if_pos h

/-- What REDO does. -/
def redoAct (c k : Nat) (_ : Ins) (s : State) : Act :=
  if c = 16 ∨ 1 < (s.thread c k).kind ∨ (s.thread c k).pn.isSome then .fault s .illegal
  else match s.heldItem c k with
    | none => .gone (s.leaveItem c k)
    | some i => .gone ((s.leaveItem c k).redoItem c i)

theorem park_parks (h : ¬ (c = 16 ∨ (s.thread c k).kind ≠ 0 ∨ (s.thread c k).recv = true ∨ (s.thread c k).pn.isSome = true)) :
    park c k x s = .gone (s.prismEnd c k fun u it => u.holdItem c (s.itemSa c k) (bitOf x.ext 0) it) := by
  refine (if_neg h).trans ?_
  unfold State.prismEnd
  cases s.heldItem c k <;> rfl

theorem redoAct_redoes (h : ¬ (c = 16 ∨ 1 < (s.thread c k).kind ∨ (s.thread c k).pn.isSome = true)) :
    redoAct c k x s = .gone (s.prismEnd c k fun u it => u.redoItem c it) := by
  refine (if_neg h).trans ?_
  unfold State.prismEnd
  cases s.heldItem c k <;> rfl

end

/-- The rows that drop their work item. -/
theorem exec_drops {i : Issue} {s s0 : State} {n : Instr} {r : Nat}
    (h : exec n s = .next ((s0.dropWork i.t.cl i.t.key r).wake i.t.cl)) :
    let c := i.t.cl
    let k := i.t.key
    (∀ it, c ≠ 16 → s0.heldItem c k = some it → exec n s = .next (((s0.leaveItem c k).dropFor c (s0.itemSa c k) r it).wake c)) ∧
    (c ≠ 16 → s0.heldItem c k = none → exec n s = .next ((s0.leaveItem c k).wake c)) ∧
    (∀ it, c = 16 → s0.ritemOf k = some it → exec n s = .next (((s0.dropItem k r it).idle 16 k).wake 16)) ∧
    (c = 16 → s0.ritemOf k = none → exec n s = .next ((s0.idle 16 k).wake 16)) := by
  dsimp only
  rw [h, State.dropWork_eq]
  refine ⟨fun it hc hit => ?_, fun hc hit => ?_, fun it hc hit => ?_, fun hc hit => ?_⟩
  · rw [if_neg hc, State.prismEnd_some hit]
  · rw [if_neg hc, State.prismEnd_none hit]
  · rw [if_pos hc, State.radiusEnd_some hit, hc]
  · rw [if_pos hc, State.radiusEnd_none hit, hc]

/-- Settles O49: each row by its checks and the branch that its thread takes, then each end of a work item by itself. -/
theorem controlInstructionsAndDispositions : Obligations.ControlInstructionsAndDispositions := by
  unfold Obligations.ControlInstructionsAndDispositions
  refine ⟨fun i x s s0 h => ⟨fun hop => ⟨fun hd => ?_, fun hd => ?_⟩, fun hop => ⟨fun hd => ?_, fun hd => ?_⟩,
      fun hop => ⟨fun hd hst => ?_, fun hbad => ?_⟩, fun hop => ⟨fun hst => ?_, fun pc rest hst => ⟨fun hd => ?_, fun hd => ?_⟩⟩, fun hop => ?_, fun hop => ?_,
      fun hop hf => ?_, fun hop hf => ?_⟩,
    fun i x s s0 h => ⟨fun hop => ⟨fun hf => ?_, fun it hf hc hit hkind => ?_, fun it hf hc hit hkind => ?_, fun hf hc hit => ?_, fun it hf hc hit => ?_,
        fun hf hc hit => ?_⟩, fun hop => ?_, fun hop => ?_, fun hop => ⟨fun hno => ?_, fun it hno hit => ?_, fun hno hit => ?_⟩,
      fun hop => ⟨fun hno => ?_, fun it hno hit => ?_, fun hno hit => ?_⟩⟩,
    fun s c k => ?_, fun s n it hit hmem => ⟨State.dropSlot_drops hit hmem, State.redoItem_waits hmem⟩,
    fun s c h twin it => ⟨State.holdItem_drops, State.holdItem_holds⟩, fun s n h r it => ?_, fun s k r x it => ?_⟩
  · rw [exec_issued h (body := fun _ _ x s => .jump s (bits x.ext 0 14)) rfl hop, Act.settle, State.land_in hd]
  · rw [exec_issued h (body := fun _ _ x s => .jump s (bits x.ext 0 14)) rfl hop, Act.settle, State.land_beyond hd]
  · rw [exec_issued h (body := fun c k x s => .jump s (bits ((s.thread c k).gr x.a).toNat 0 14)) rfl hop, Act.settle, State.land_in hd]
  · rw [exec_issued h (body := fun c k x s => .jump s (bits ((s.thread c k).gr x.a).toNat 0 14)) rfl hop, Act.settle, State.land_beyond hd]
  · show exec _ s = _
    rw [exec_issued h (body := callAct) rfl hop, callAct, if_neg (by omega), Act.settle, State.land_stack hd]
  · rw [exec_issued h (body := callAct) rfl hop, callAct, if_pos hbad, Act.settle]
  · rw [exec_issued h (body := retAct) rfl hop, retAct_empty hst, Act.settle]
  · show exec _ s = _
    rw [exec_issued h (body := retAct) rfl hop, retAct_pops hst, if_neg (Nat.not_le.mpr hd), Act.settle, State.land_stack hd]
  · rw [exec_issued h (body := retAct) rfl hop, retAct_pops hst, if_pos hd, Act.settle]
  · rw [exec_issued h (body := fun _ _ _ s => .go s) rfl hop, Act.settle]
  · exact exec_issued h (body := fun c k _ s => .go (s.modThread c k fun y => { y with
      yield := (List.range 8).filter fun j => j != k % 8 && (s.thread c (8 * (k / 8) + j)).mode == .ready })) rfl hop
  · rw [exec_issued h (body := evtAct) rfl hop, evtAct, State.fenced_passed hf, Act.settle]
  · rw [exec_issued h (body := evtAct) rfl hop, evtAct, State.fenced_failed hf, Act.settle]
  · rw [exec_issued h (body := emitAct) rfl hop, emitAct, State.fenced_failed hf, Act.settle]
  · rw [exec_issued h (body := emitAct) rfl hop, emitAct, State.fenced_passed hf, if_neg hc, State.prismEnd_some hit, emitEnd, if_neg hkind, Act.settle]
    rfl
  · rw [exec_issued h (body := emitAct) rfl hop, emitAct, State.fenced_passed hf, if_neg hc, State.prismEnd_some hit, emitEnd, if_pos hkind, Act.settle]
  · rw [exec_issued h (body := emitAct) rfl hop, emitAct, State.fenced_passed hf, if_neg hc, State.prismEnd_none hit, Act.settle]
  · rw [exec_issued h (body := emitAct) rfl hop, emitAct, State.fenced_passed hf, if_pos hc, State.radiusEnd_some hit, Act.settle, hc]
  · rw [exec_issued h (body := emitAct) rfl hop, emitAct, State.fenced_passed hf, if_pos hc, State.radiusEnd_none hit, Act.settle, hc]
  · exact exec_drops (exec_issued h (body := fun c k x s => .gone (s.dropWork c k (bits x.ext 0 4))) rfl hop)
  · exact exec_drops (exec_issued h (body := fun c k _ s => .gone (s.dropWork c k 0)) rfl hop)
  · rw [exec_issued h (body := park) rfl hop, park_wrong hno, Act.settle]
  · rw [exec_issued h (body := park) rfl hop, park_parks hno, State.prismEnd_some hit, Act.settle]
  · rw [exec_issued h (body := park) rfl hop, park_parks hno, State.prismEnd_none hit, Act.settle]
  · rw [exec_issued h (body := redoAct) rfl hop, redoAct, if_pos hno, Act.settle]
  · rw [exec_issued h (body := redoAct) rfl hop, redoAct_redoes hno, State.prismEnd_some hit, Act.settle]
  · rw [exec_issued h (body := redoAct) rfl hop, redoAct_redoes hno, State.prismEnd_none hit, Act.settle]
  · obtain ⟨hmode, hitem, hop, hdescs⟩ := s.leaveItem_thread (c := c) (k := k)
    exact ⟨hmode, hitem, hop, hdescs, s.leaveItem_items c k, fun o ho hl => State.leaveItem_unlocks ho hl⟩
  · have hreason : ∀ q, r = q → it.lp ≠ 64 → s.countDrop n h r it = s.countReason n h it q := fun q hq hlp => by
      rw [State.countDrop_reason s n h it hlp, hq]
    refine ⟨rfl, State.countDrop_ownPort s n h it r, fun hlp => ⟨fun hr => hreason 0 hr hlp, fun hr => ?_, fun hr hk => ?_, fun hr hk => ?_,
      fun hr => hreason 4 hr hlp, fun hr => ?_, fun hr => ?_, fun hr => ?_⟩⟩
    · rcases hr with hr | hr
      · rw [hreason 1 hr hlp, hr]
        rfl
      · rw [hreason 2 hr hlp, hr]
        rfl
    · exact (hreason 3 hr hlp).trans (if_neg hk)
    · exact (hreason 3 hr hlp).trans (if_pos hk)
    · rw [← State.tally_sent]
      exact hreason 5 hr hlp
    · rw [← State.tally_sent]
      exact hreason 6 hr hlp
    · obtain ⟨q, rfl⟩ := Nat.exists_eq_add_of_le' hr
      exact hreason _ rfl hlp
  · have hreason : ∀ q, r = q → s.dropItem k r it = (s.rcountReason it q).endItemOf k it := fun q hq => by rw [State.dropItem_eq, hq]
    refine ⟨fun hr => ?_, hreason 3, hreason 4, hreason 5, fun hr => ?_, fun v kind n out => s.releaseItem_refused kind n out,
      s.emitItem_gone k x it, fun j hj => ?_⟩
    · rcases hr with hr | hr
      · exact hreason 1 hr
      · exact hreason 2 hr
    · rcases hr with hr | hr
      · exact hreason 0 hr
      · obtain ⟨q, rfl⟩ := Nat.exists_eq_add_of_le' hr
        exact hreason _ rfl
    · rw [State.dropItem_eq] at hj
      exact State.endRItem_gone _ it.id j hj

end Sys2Proof.Machine
end

section
namespace Sys2Proof.Machine

/-! What reaches a Vertex thread from outside (R199, R225, R227 to R229, R235, R243, R248, R414, R415): results, verdicts, debug, samples and the
reset of an engine. -/

/-! ### Results -/

/-- The result that a thread loses is the first one picked. -/
theorem Thread.dropResult_of_split (y : Thread) {p : Result → Bool} {l rest : List Result} {r : Result} (h : y.results = l ++ r :: rest)
    (hl : ∀ e ∈ l, p e = false) (hr : p r = true) : y.dropResult p = { y with results := l ++ rest } := by
  have hnone : l.findIdx? p = none := List.findIdx?_eq_none_iff.mpr hl
  have hidx : y.results.findIdx? p = some l.length := by
    rw [h, List.findIdx?_append, hnone, List.findIdx?_cons, if_pos hr]
    exact congrArg some (Nat.zero_add _)
  have hdrop : dropAt y.results l.length = l ++ rest := by
    rw [h, dropAt, List.take_left, ← List.drop_drop, List.drop_left, List.drop_one, List.tail_cons]
  unfold Thread.dropResult
  rewrite [hidx]
  exact congrArg (fun rs => { y with results := rs }) hdrop

theorem Thread.dropResult_of_none (y : Thread) {p : Result → Bool} (h : ∀ r ∈ y.results, p r = false) : y.dropResult p = y := by
  have hidx : y.results.findIdx? p = none := List.findIdx?_eq_none_iff.mpr h
  unfold Thread.dropResult
  rewrite [hidx]
  rfl

/-! ### Descriptors -/

/-- The end of a derivation ends its use of the group root (R72). -/
def State.derivationEnds (s : State) (t : Tid) (d : OutDesc) : State :=
  match (s.thread t.cl t.key).item with
  | some q => if t.cl = 16 ∧ d.op = 0 ∧ d.acc = none then s.endRoot q else s
  | none => s

/-- What a thread is left with when its descriptor of place j ends. -/
def OutDesc.leave (d : OutDesc) (j : Nat) (y : Thread) : Thread :=
  let y : Thread := { y with descs := dropAt y.descs j }
  match d.pred with
  | some (p, v) => y.setP p v
  | none => y

theorem OutDesc.leave_of_none {d : OutDesc} (h : d.pred = none) (j : Nat) : d.leave j = fun y => { y with descs := dropAt y.descs j } := by
  unfold OutDesc.leave
  rw [h]

theorem OutDesc.leave_of_some {d : OutDesc} {p : Nat} {v : Bool} (h : d.pred = some (p, v)) (j : Nat) :
    d.leave j = fun y => Thread.setP { y with descs := dropAt y.descs j } p v := by
  unfold OutDesc.leave
  rw [h]

section
variable (t : Tid) (j : Fin 8) (s : State)

theorem exec_descriptorComplete_past (h : (s.thread t.cl t.key).descs.length ≤ j.val) : exec (.descriptorComplete t j) s = .next s := by
  show execDescriptorComplete t j s = _
  have hnone : (s.thread t.cl t.key).descs[j.val]? = none := List.getElem?_eq_none h
  unfold execDescriptorComplete
  dsimp only
  rewrite [hnone]
  rfl

variable {d : OutDesc} (hd : (s.thread t.cl t.key).descs[j.val]? = some d)
include hd

theorem exec_descriptorComplete_waits (h : d.held.isSome = true ∨ ((s.thread t.cl t.key).descs.take j.val).any d.after = true) :
    exec (.descriptorComplete t j) s = .next s := by
  show execDescriptorComplete t j s = _
  unfold execDescriptorComplete
  dsimp only
  rewrite [hd]
  exact if_pos h

theorem exec_descriptorComplete_ends (h : ¬ (d.held.isSome = true ∨ ((s.thread t.cl t.key).descs.take j.val).any d.after = true)) :
    exec (.descriptorComplete t j) s = .next (((s.derivationEnds t d).modThread t.cl t.key (d.leave j.val)).wake t.cl) := by
  show execDescriptorComplete t j s = _
  unfold execDescriptorComplete
  dsimp only
  rewrite [hd]
  exact if_neg h

end

/-! ### Loads that return -/

/-- A load whose address lies below no tainted node. -/
def State.servable (s : State) (r : Result) : Bool :=
  match r.load with
  | some a => !s.taintedAt a
  | none => false

/-- A load of thread t returns, the oldest of those that Hull can serve. -/
def State.loadReturns (s : State) (t : Tid) (e : Ecc) (r : Result) : State :=
  let u := (s.modThread t.cl t.key fun y => y.dropResult s.servable).eccSeen (r.load.getD 0) e
  (if e = .uncorrectable then r.regs.foldl (fun v g => v.freeReg t.cl t.key g) u else u).wake t.cl

theorem exec_hbmLoadReturn (t : Tid) (e : Ecc) (s : State) : exec (.hbmLoadReturn t e) s =
    .next (((s.thread t.cl t.key).results.find? s.servable).elim s (s.loadReturns t e)) := by
  show execHbmLoadReturn t e s = _
  unfold execHbmLoadReturn
  change (match (s.thread t.cl t.key).results.find? s.servable with
    | none => Host.Outcome.next s
    | some r => Host.Outcome.next (s.loadReturns t e r)) = _
  cases (s.thread t.cl t.key).results.find? s.servable <;> rfl

/-! ### The watchdog and DEBUG -/

theorem exec_threadWatchdogExpiry (t : Tid) (s : State) : exec (.threadWatchdogExpiry t) s =
    .next (if (s.thread t.cl t.key).mode = .ready ∨ (s.thread t.cl t.key).mode = .waiting then
      (s.passTo ((s.thread t.cl t.key).since + 1024 * (s.regN (clusterBase t.cl + 0x100) % 1024) * 5 / 6)).faultThread t.cl t.key .watchdog
      else s) := by
  show execThreadWatchdogExpiry t s = _
  unfold execThreadWatchdogExpiry
  by_cases h : (s.thread t.cl t.key).mode = .ready ∨ (s.thread t.cl t.key).mode = .waiting
  · rewrite [if_pos h]
    exact if_neg fun hn => h.elim hn.1 hn.2
  · rewrite [if_neg h]
    exact if_pos (not_or.mp h)

theorem exec_debugHalt (t : Tid) (s : State) : exec (.debugHalt t) s =
    .next (if (s.thread t.cl t.key).mode = .debug ∨ s.dbgRight (if t.cl = 16 then 3 else 2) = false then s
      else s.modThread t.cl t.key fun y => { y with mode := .debug, before := y.mode, debugAt := s.clk }) := by
  show execDebugHalt t s = _
  unfold execDebugHalt
  dsimp only
  rewrite [apply_ite Host.Outcome.next]
  exact ite_congr (propext (or_congr_right (Bool.not_eq_true' _).to_iff)) (fun _ => rfl) fun _ => rfl

theorem exec_debugResume (t : Tid) (s : State) : exec (.debugResume t) s =
    .next (if (s.thread t.cl t.key).mode ≠ .debug ∨ s.dbgRight (if t.cl = 16 then 3 else 2) = false then s
      else (s.modThread t.cl t.key fun y => { y with mode := y.before, since := y.since + (s.clk - y.debugAt) }).wake t.cl) := by
  show execDebugResume t s = _
  unfold execDebugResume
  dsimp only
  rewrite [apply_ite Host.Outcome.next]
  exact ite_congr (propext (or_congr_right (Bool.not_eq_true' _).to_iff)) (fun _ => rfl) fun _ => rfl

/-! ### The reset of an engine -/

/-- A table without the entries whose key p refuses reads its default at such a key. -/
theorem tget_filter_of_not {α : Type} (d : α) (p : Nat → Bool) (t : Tbl α) {k : Nat} (hk : p k = false) :
    tget d (t.filter fun e => p e.1) k = d := by
  induction t with
  | nil => rfl
  | cons e t ih =>
    cases he : p e.1 with
    | false => rw [List.filter_cons_of_neg (by rw [he]; exact Bool.false_ne_true), ih]
    | true =>
      have hne : e.1 ≠ k := fun h => by rw [h, hk] at he; exact Bool.false_ne_true he
      exact (congrArg (tget d · k) (List.filter_cons_of_pos (p := fun e : Nat × α => p e.1) he)).trans ((if_neg hne).trans ih)

/-- A change that sets the mode of each thread of a list leaves all of them in that mode. -/
theorem State.mode_foldl_modThread (c : Nat) (m : ThreadMode) (ks : List Nat) (s : State) {k : Nat}
    (h : k ∈ ks ∨ (s.thread c k).mode = m) :
    ((ks.foldl (fun v k => v.modThread c k fun t => { t with mode := m }) s).thread c k).mode = m := by
  induction ks generalizing s with
  | nil => exact h.resolve_left List.not_mem_nil
  | cons j ks ih =>
    rw [List.foldl_cons]
    refine ih _ ?_
    by_cases hk : k = j
    · subst hk
      exact .inr (by rw [State.thread_modThread])
    · rw [State.thread_modThread_ne _ _ hk]
      exact h.imp_left fun hm => (List.mem_cons.mp hm).resolve_left hk

/-- The threads of engine e. -/
def engineThreads (e : Nat) : List Nat := (List.range 8).map (8 * e + ·)

/-- The threads ks of a cluster stop, faulted where they ran, and are HELD. -/
def State.heldThreads (s : State) (c : Nat) (ks : List Nat) : State :=
  let s := ks.foldl (fun s k => if (s.thread c k).mode = .idle then s else s.faultThread c k .engineReset) s
  ks.foldl (fun s k => s.modThread c k fun t => { t with mode := .held }) s

/-- The local memory of engine e reads 0. -/
def State.clearLocals (s : State) (c e : Nat) : State :=
  let x := s.cluster c
  s.setCluster c { x with locals := x.locals.filter fun w => w.1 / 2048 != e }

/-- The part at the end of an engine's reset, before event 0x181 (R229). -/
def State.engineHeld (s : State) (c e : Nat) : State :=
  ((s.setReg (clusterBase c + 0x104) (BitVec.ofNat 32 e)).heldThreads c (engineThreads e)).clearLocals c e

theorem bitOf_or_top (v : Nat) : bitOf (v ||| 2 ^ 31) 31 = true := by
  have hbit : (v ||| 2 ^ 31).testBit 31 = true := by rw [Nat.testBit_or, Nat.testBit_two_pow_self, Bool.or_true]
  exact hbit

section
variable (s : State) (c v : Nat)

/-- An engine that the cluster lacks is ignored, but ENGINE stays readable. -/
theorem State.engineReset_past (h : threadCount c / 8 ≤ (v ||| 2 ^ 31) % 32) :
    s.engineReset c (v ||| 2 ^ 31) = s.setReg (clusterBase c + 0x104) (BitVec.ofNat 32 ((v ||| 2 ^ 31) % 32)) := by
  unfold State.engineReset
  exact if_pos (.inr h)

theorem State.engineReset_in (h : (v ||| 2 ^ 31) % 32 < threadCount c / 8) :
    s.engineReset c (v ||| 2 ^ 31) =
      (s.engineHeld c ((v ||| 2 ^ 31) % 32)).raise 0x181 [BitVec.ofNat 8 c, BitVec.ofNat 8 ((v ||| 2 ^ 31) % 32)] := by
  have hgo : ¬ ((!bitOf (v ||| 2 ^ 31) 31) = true ∨ threadCount c / 8 ≤ (v ||| 2 ^ 31) % 32) := by
    rw [bitOf_or_top]
    exact fun hn => hn.elim Bool.false_ne_true (Nat.not_le.mpr h)
  unfold State.engineReset State.engineHeld State.heldThreads State.clearLocals engineThreads
  dsimp only
  rw [if_neg hgo]

theorem State.heldThreads_mode {k : Nat} {ks : List Nat} (h : k ∈ ks) : ((s.heldThreads c ks).thread c k).mode = .held :=
  State.mode_foldl_modThread c .held ks _ (.inl h)

theorem State.clearLocals_thread (e k : Nat) : (s.clearLocals c e).thread c k = s.thread c k := by
  rw [State.thread, State.clearLocals, State.cluster_setCluster]
  rfl

theorem State.clearLocals_locals {e i : Nat} (hi : i / 2048 = e) : tget 0 ((s.clearLocals c e).cluster c).locals i = 0 := by
  rw [State.clearLocals, State.cluster_setCluster]
  exact tget_filter_of_not 0 (fun w => w / 2048 != e) _ (by rw [hi]; exact bne_self_eq_false e)

theorem State.engineHeld_mode (e : Nat) {j : Nat} (hj : j < 8) : ((s.engineHeld c e).thread c (8 * e + j)).mode = .held := by
  have hmem : 8 * e + j ∈ engineThreads e := List.mem_map.mpr ⟨j, List.mem_range.mpr hj, rfl⟩
  rw [State.engineHeld, State.clearLocals_thread, State.heldThreads_mode _ _ hmem]

end

theorem exec_engineReset (n : Fin 17) (v : Word32) (src : Source) (s : State) : exec (.engineReset n v src) s =
    .next (if s.mayWriteRegs src then s.engineReset n.val (v.toNat ||| 2 ^ 31) else s) := by
  show execEngineReset n v src s = _
  unfold execEngineReset
  exact (apply_ite Host.Outcome.next _ _ _).symm

/-! ### Samples -/

theorem State.length_sample (v : State) (c e : Nat) : (v.sample c e).1.length = 16 := by
  unfold State.sample
  dsimp only
  cases v.chosen c e with
  | some k => simp only [List.length_append, length_le, List.length_cons, List.length_nil]
  | none =>
    dsimp only
    cases (List.range 8).find? fun j => (v.thread c (8 * e + j)).mode == .waiting with
    | some j => simp only [List.length_append, length_le, List.length_cons, List.length_nil]
    | none => simp only [List.length_append, length_le, List.length_replicate]

theorem exec_pcSample (n : Fin 17) (s : State) :
    let p := s.regN (clusterBase n.val + 0x108)
    let u := s.passTo ((s.cluster n.val).pcsAt + p % 2 ^ 20 * 5 / 6)
    let es := (List.range (threadCount n.val / 8)).filter fun j => bitOf (s.regN (clusterBase n.val + 0x10C)) j
    exec (.pcSample n) s = .next (if bitOf p 31 then es.foldl (fun v e => (v.sample n.val e).2.putSample n.val (v.sample n.val e).1)
      (u.setCluster n.val { u.cluster n.val with pcsAt := u.clk }) else s) := by
  intro p u es
  show execPcSample n s = _
  unfold execPcSample
  by_cases h : bitOf p 31 = true
  · rewrite [if_pos h]
    exact if_neg (by rw [h]; exact Bool.false_ne_true)
  · rewrite [if_neg h]
    exact if_pos (by rw [Bool.eq_false_iff.mpr h]; rfl)

/-! ### Verdicts of Hull -/

section
variable (s : State) (a : Nat) (res : VerifyResult)

theorem State.verdict_of_none (h : s.regionAt a = none) : s.verdict a res = (none, s) := by
  unfold State.verdict
  rw [h]

variable {g : Nat} (hg : s.regionAt a = some g)
include hg

theorem State.verdict_of_fault {w : VerifyCause} (h : s.lineFault g (a / 64) = some w) : s.verdict a res = (some (g, w), s) := by
  unfold State.verdict
  rewrite [hg]
  dsimp only
  rewrite [h]
  rfl

theorem State.verdict_of_result (h : s.lineFault g (a / 64) = none) :
    (res = .ok → s.verdict a res = (none, s)) ∧
      ∀ w node, res = .failed w node → s.verdict a res = (some (g, w), s.failLine g (a / 64) w node) := by
  have hres : s.verdict a res = match res with
      | .ok => (none, s)
      | .failed w node => (some (g, w), s.failLine g (a / 64) w node) := by
    unfold State.verdict
    rewrite [hg]
    dsimp only
    rewrite [h]
    rfl
  rw [hres]
  exact ⟨fun h => by rw [h], fun w node h => by rw [h]⟩

end

section
variable (t : Tid) (res : VerifyResult) (s : State)

theorem exec_verificationResult_idle (h : (s.thread t.cl t.key).reads = []) : exec (.verificationResult (.thread t) res) s = .next s := by
  show execVerificationResult (.thread t) res s = _
  unfold execVerificationResult
  dsimp only
  rewrite [h]
  rfl

variable {a : Nat} {rest : List Nat} (h : (s.thread t.cl t.key).reads = a :: rest)
include h

theorem exec_verificationResult_right
    (hq : ((s.modThread t.cl t.key fun y => { y with reads := rest }).verdict a res).1 = none) :
    exec (.verificationResult (.thread t) res) s =
      .next (((s.modThread t.cl t.key fun y => { y with reads := rest }).verdict a res).2.wake t.cl) := by
  show execVerificationResult (.thread t) res s = _
  unfold execVerificationResult
  dsimp only
  rewrite [h]
  dsimp only
  generalize (s.modThread t.cl t.key fun y => { y with reads := rest }).verdict a res = q at hq ⊢
  obtain ⟨o, u⟩ := q
  cases hq
  rfl

theorem exec_verificationResult_failed {g : Nat} {w : VerifyCause}
    (hq : ((s.modThread t.cl t.key fun y => { y with reads := rest }).verdict a res).1 = some (g, w)) :
    exec (.verificationResult (.thread t) res) s =
      .next (((((s.modThread t.cl t.key fun y => { y with reads := rest }).verdict a res).2.verifyFail g a (masterOf t.cl)
        (vOwner t.cl t.key) w).modThread t.cl t.key fun y => { y with failed := true }).wake t.cl) := by
  show execVerificationResult (.thread t) res s = _
  unfold execVerificationResult
  dsimp only
  rewrite [h]
  dsimp only
  generalize (s.modThread t.cl t.key fun y => { y with reads := rest }).verdict a res = q at hq ⊢
  obtain ⟨o, u⟩ := q
  cases hq
  rfl

end

/-- The address of a Compass access lies in a region with integrity. -/
def State.Guarded (s : State) (a : Nat) : Prop := ∃ k, s.regionAt a = some k ∧ (s.region k).integ = true

theorem State.guarded_iff (s : State) (a : Nat) : s.Guarded a ↔ ((s.regionAt a).any fun k => (s.region k).integ) = true := by
  rw [Option.any_eq_true]
  exact Iff.rfl

section
variable (core : Fin 8) (addr : BitVec 40) (res : VerifyResult) (s : State)

theorem exec_verificationResult_unguarded (h : ¬ s.Guarded addr.toNat) :
    exec (.verificationResult (.compass core addr) res) s = .next s := by
  show execVerificationResult (.compass core addr) res s = _
  rw [State.guarded_iff, Bool.not_eq_true] at h
  unfold execVerificationResult
  exact if_pos (congrArg (!·) h)

variable (h : s.Guarded addr.toNat)
include h

theorem exec_verificationResult_verified (hq : (s.verdict addr.toNat res).1 = none) :
    exec (.verificationResult (.compass core addr) res) s = .next (s.verdict addr.toNat res).2 := by
  show execVerificationResult (.compass core addr) res s = _
  rw [State.guarded_iff] at h
  unfold execVerificationResult
  refine (if_neg (by rw [h]; exact Bool.false_ne_true)).trans ?_
  generalize s.verdict addr.toNat res = q at hq ⊢
  obtain ⟨o, u⟩ := q
  cases hq
  rfl

theorem exec_verificationResult_machineCheck {g : Nat} {w : VerifyCause} (hq : (s.verdict addr.toNat res).1 = some (g, w)) :
    let o := (s.verdict addr.toNat res).2.draw 16
    let u := o.2.verifyFail g addr.toNat .compass o.1 w
    exec (.verificationResult (.compass core addr) res) s = .next { u with hull := { u.hull with
      mchkAddr := BitVec.ofNat 34 (addr.toNat / 64), mchkCore := BitVec.ofNat 3 core.val, mchkCause := BitVec.ofNat 2 (verifyCode w)
      mchkValid := true, mchkIrq := u.hull.mchkIrq ||| (1#8 <<< core.val) } } := by
  show execVerificationResult (.compass core addr) res s = _
  rw [State.guarded_iff] at h
  unfold execVerificationResult
  refine (if_neg (by rw [h]; exact Bool.false_ne_true)).trans ?_
  generalize s.verdict addr.toNat res = q at hq ⊢
  obtain ⟨o, u⟩ := q
  cases hq
  rfl

end

/-- Settles O50: a lemma for each row and each clause of its shape; the verdicts by what memory shows and by what Hull finds. -/
theorem threadsTakeTheirResultsAndEvents : Obligations.ThreadsTakeTheirResultsAndEvents := by
  unfold Obligations.ThreadsTakeTheirResultsAndEvents
  refine ⟨fun t s => ?threads, fun t res s => ?reads, fun core addr res s => ?compass, fun s a res => ?verdicts⟩
  case threads =>
    refine ⟨fun j d hd => ⟨exec_descriptorComplete_waits t j s hd, fun hw hp => ?plain, fun p v hw hp => ?pred⟩,
      fun j hj => exec_descriptorComplete_past t j s hj, rfl,
      fun y p => ⟨fun l r rest hl hbefore hr => y.dropResult_of_split hl hbefore hr, fun h => y.dropResult_of_none h⟩,
      fun e hnone => ?noLoad, fun e r a hr ha => ?load, exec_threadWatchdogExpiry t s, exec_debugHalt t s, exec_debugResume t s,
      fun n v src => ⟨exec_engineReset n v src s, fun he => s.engineReset_past n.val v.toNat he, fun he => ?reset⟩,
      fun n => ⟨exec_pcSample n s, fun v e => v.length_sample n.val e⟩⟩
    case plain =>
      have hrow := exec_descriptorComplete_ends t j s hd hw
      rw [OutDesc.leave_of_none hp] at hrow
      exact hrow
    case pred =>
      have hrow := exec_descriptorComplete_ends t j s hd hw
      rw [OutDesc.leave_of_some hp] at hrow
      exact hrow
    case noLoad =>
      have hnone' : (s.thread t.cl t.key).results.find? s.servable = none := hnone
      rw [exec_hbmLoadReturn, hnone']
      rfl
    case load =>
      have hr' : (s.thread t.cl t.key).results.find? s.servable = some r := hr
      have hrow : exec (.hbmLoadReturn t e) s = .next (s.loadReturns t e r) := by
        rw [exec_hbmLoadReturn, hr']
        rfl
      have ha' : r.load.getD 0 = a := by rw [ha, Option.getD_some]
      unfold State.loadReturns at hrow
      rw [ha'] at hrow
      dsimp only at hrow
      refine ⟨fun he => ?_, fun he => ?_⟩
      · rw [if_neg he] at hrow
        exact hrow
      · rw [if_pos he] at hrow
        exact hrow
    case reset =>
      exact ⟨_, s.engineReset_in n.val v.toNat he, fun j hj => s.engineHeld_mode n.val _ hj,
        fun i hi => State.clearLocals_locals _ n.val hi⟩
  case reads =>
    exact ⟨exec_verificationResult_idle t res s, fun a rest h =>
      ⟨exec_verificationResult_right t res s h, fun g w hq => exec_verificationResult_failed t res s h hq⟩⟩
  case compass =>
    exact ⟨exec_verificationResult_unguarded core addr res s, fun h => exec_verificationResult_verified core addr res s h,
      fun g w h hq => exec_verificationResult_machineCheck core addr res s h hq⟩
  case verdicts =>
    exact ⟨s.verdict_of_none a res, fun g hg => ⟨fun w hw => s.verdict_of_fault a res hg hw, fun hw => s.verdict_of_result a res hg hw⟩⟩

end Sys2Proof.Machine
end

section
namespace Sys2Proof.Machine

/-! Images (R236, R237, R276 to R278, R504) and RECLAIM (R231, R232, R351, R513). -/

/-! ### UCODE_LOAD -/

/-- The image of bytes that fit is taken, or refused (R237, R276). -/
def ucodeTake (d : Desc) (bs : List Byte) (s : State) : State :=
  match s.imageStatus bs, imageOf bs with
  | .ok, some im =>
    if (clustersOf d).any fun c => (s.loadHalf c im).isNone then s.done d .inUse
    else (((clustersOf d).foldl (fun s c => s.loadImage c ((s.loadHalf c im).getD false) im) s).measExtend 3
      (be 48 (Crypto.sha384 (slice bs 0 0x70)).toNat)).complete d
        { status := .ok, r0 := b2n ((s.loadHalf ((clustersOf d).headD 0) im).getD false) }
  | st, _ => (s.raise 0x183 (BitVec.ofNat 8 ((clustersOf d).headD 0) :: le 2 st.code)).done d st

section
variable {d : Desc} {bs : List Byte} {s : State}

theorem ucodeTake_of_status (h : s.imageStatus bs ≠ .ok) : ucodeTake d bs s =
    (s.raise 0x183 (BitVec.ofNat 8 ((clustersOf d).headD 0) :: le 2 (s.imageStatus bs).code)).done d (s.imageStatus bs) := by
  unfold ucodeTake
  split
  next hst _ => exact absurd hst h
  next => rfl

variable {im : Image} (hst : s.imageStatus bs = .ok) (him : imageOf bs = some im)
include hst him

theorem ucodeTake_of_inUse (h : ∃ n ∈ clustersOf d, s.loadHalf n im = none) : ucodeTake d bs s = s.done d .inUse := by
  obtain ⟨n, hn, hnone⟩ := h
  unfold ucodeTake
  rewrite [hst, him]
  exact if_pos (List.any_eq_true.mpr ⟨n, hn, by rw [hnone]; rfl⟩)

theorem ucodeTake_of_fit (h : ∀ n ∈ clustersOf d, s.loadHalf n im ≠ none) : ucodeTake d bs s =
    (((clustersOf d).foldl (fun s c => s.loadImage c ((s.loadHalf c im).getD false) im) s).measExtend 3
      (be 48 (Crypto.sha384 (slice bs 0 0x70)).toNat)).complete d
        { status := .ok, r0 := b2n ((s.loadHalf ((clustersOf d).headD 0) im).getD false) } := by
  unfold ucodeTake
  rewrite [hst, him]
  refine if_neg fun hany => ?_
  obtain ⟨n, hn, hnone⟩ := List.any_eq_true.mp hany
  exact h n hn (Option.isNone_iff_eq_none.mp hnone)

end

/-- The target of an image is not that of a cluster named (R237). -/
def Unfit (d : Desc) (bs : List Byte) : Prop := leAt bs 6 1 < 2 ∧ ∃ n ∈ clustersOf d, b2n (n == 16) ≠ leAt bs 6 1

/-- The clusters that a descriptor names are none, or more than there are. -/
def BadMask (d : Desc) : Prop := d.get 8 4 / 2 ^ 17 ≠ 0 ∨ clustersOf d = []

theorem unfit_iff (d : Desc) (bs : List Byte) :
    Unfit d bs ↔ leAt bs 6 1 < 2 ∧ ((clustersOf d).any fun c => b2n (c == 16) != leAt bs 6 1) = true := by
  rw [Unfit, List.any_eq_true]
  exact and_congr_right fun _ => exists_congr fun n => and_congr_right fun _ => bne_iff_ne.symm

section
variable (d : Desc) (s : State)

theorem ucodeLoadBody_masked (h : BadMask d) : ucodeLoadBody d s = s.done d .badRequest := by
  unfold ucodeLoadBody
  exact if_pos h

section
variable (h : ¬ BadMask d)
include h

theorem ucodeLoadBody_error {st : Status} (hbuf : (s.readBuf d .annulus (d.get 0x10 8) (min (d.get 0x18 4) 200000)).1 = .error st) :
    ucodeLoadBody d s = (s.readBuf d .annulus (d.get 0x10 8) (min (d.get 0x18 4) 200000)).2.done d st := by
  unfold ucodeLoadBody
  exact (if_neg h).trans (State.withBuf_of_error hbuf)

variable {bs : List Byte} (hbuf : (s.readBuf d .annulus (d.get 0x10 8) (min (d.get 0x18 4) 200000)).1 = .ok bs)
include hbuf

theorem ucodeLoadBody_unfit (hfit : Unfit d bs) :
    ucodeLoadBody d s = (s.readBuf d .annulus (d.get 0x10 8) (min (d.get 0x18 4) 200000)).2.done d .badRequest := by
  unfold ucodeLoadBody
  exact ((if_neg h).trans (State.withBuf_of_ok hbuf)).trans (if_pos ((unfit_iff d bs).mp hfit))

theorem ucodeLoadBody_fit (hfit : ¬ Unfit d bs) :
    ucodeLoadBody d s = ucodeTake d bs (s.readBuf d .annulus (d.get 0x10 8) (min (d.get 0x18 4) 200000)).2 := by
  unfold ucodeLoadBody
  refine ((if_neg h).trans (State.withBuf_of_ok hbuf)).trans ((if_neg fun hn => hfit ((unfit_iff d bs).mpr hn)).trans ?_)
  unfold ucodeTake
  rfl

end
end

/-- The half that a load writes holds its image. -/
theorem State.loadImage_half (v : State) (n : Nat) (h : Bool) (im : Image) : ((v.loadImage n h im).cluster n).half h = some im := by
  unfold State.loadImage
  dsimp only
  rw [State.cluster_setCluster, Cluster.half]
  generalize (im.full || (v.cluster n).active == some h) = clear
  cases h <;> cases clear <;> rfl

/-! ### UCODE_ACTIVATE -/

/-- The clusters that a descriptor names switch one after another, and those whose old half still drains are listed. -/
def activateAll (d : Desc) (s : State) : List (Nat × Bool) × State :=
  (clustersOf d).foldl (fun (p : List (Nat × Bool) × State) n => (p.1 ++ (p.2.activate n).1, (p.2.activate n).2)) ([], s)

/-- A cluster named has no other half to switch to. -/
def Unloaded (d : Desc) (s : State) : Prop := BadMask d ∨ ∃ n ∈ clustersOf d, (s.cluster n).target = none

theorem unloaded_iff (d : Desc) (s : State) : Unloaded d s ↔
    d.get 8 4 / 2 ^ 17 ≠ 0 ∨ clustersOf d = [] ∨ ((clustersOf d).any fun c => (s.cluster c).target.isNone) = true := by
  rw [Unloaded, BadMask, or_assoc, List.any_eq_true]
  exact or_congr_right (or_congr_right (exists_congr fun n => and_congr_right fun _ => Option.isNone_iff_eq_none.symm))

section
variable (d : Desc) (s : State)

theorem ucodeActivateBody_unloaded (h : Unloaded d s) : ucodeActivateBody d s = s.done d .badRequest := by
  unfold ucodeActivateBody
  exact if_pos ((unloaded_iff d s).mp h)

theorem ucodeActivateBody_loaded (h : ¬ Unloaded d s) : ucodeActivateBody d s =
    if (activateAll d s).1 = [] then (activateAll d s).2.done d .ok
    else { (activateAll d s).2 with vertex := { (activateAll d s).2.vertex with
      activates := (activateAll d s).2.vertex.activates ++
        [⟨d, (activateAll d s).1, (activateAll d s).2.clk + (activateAll d s).2.timeoutOf d 50000⟩] } } := by
  unfold ucodeActivateBody
  exact if_neg fun hn => h ((unloaded_iff d s).mpr hn)

end

theorem State.writeScratch_active (s : State) (n : Nat) : ((s.writeScratch n).cluster n).active = (s.cluster n).active := by
  unfold State.writeScratch
  dsimp only
  split
  · rfl
  · rw [State.cluster_setCluster]

section
variable {v : State} {n : Nat} {h : Bool} (ht : (v.cluster n).target = some h)
include ht

theorem State.activate_active : ((v.activate n).2.cluster n).active = some h := by
  unfold State.activate
  dsimp only
  rewrite [ht]
  dsimp only
  split
  · split <;> rw [State.cluster_setCluster]
  · split
    · rw [State.cluster_setCluster]
    · rw [State.writeScratch_active, State.cluster_setCluster]

/-- An image without a scratch part pauses nothing, and the threads left in the old half are those there before. -/
theorem State.activate_of_bare {im : Image} (hi : (v.cluster n).half h = some im) (hs : im.scratch = []) : v.activate n =
    (if (v.cluster n).active.isSome = true ∧ 0 < v.oldLeft n (!h) then [(n, !h)] else [],
      v.setCluster n { v.cluster n with active := some h }) := by
  have hscratch : ((((v.cluster n).half h).map (·.scratch)).getD [] : List Byte) = [] := by rw [hi]; exact hs
  have hleft : (v.setCluster n { v.cluster n with active := some h }).oldLeft n (!h) = v.oldLeft n (!h) := by
    rw [State.oldLeft, State.oldLeft, State.runsIn, State.runsIn, State.cluster_setCluster]
  unfold State.activate
  dsimp only
  rewrite [ht]
  dsimp only
  rw [hscratch, if_pos rfl, if_pos rfl, hleft]
  split <;> rfl

end

section
variable (d : Desc) (s : State)

/-- The only activation, which waited for one old half, completes when that has drained. -/
theorem State.activateDone_last {n : Nat} {h : Bool} {due : Nat} (hs : s.vertex.activates = [⟨d, [(n, h)], due⟩]) :
    s.activateDone n h = State.done { s with vertex := { s.vertex with activates := [] } } d .ok := by
  have hgone : [(n, h)].filter (· != (n, h)) = [] := List.filter_cons_of_neg (by simp)
  unfold State.activateDone
  dsimp only
  rw [hs]
  simp only [List.map_cons, List.map_nil, hgone]
  rfl

end

theorem exec_activateTimeout_some {s : State} {a : Activate} {rest : List Activate} (h : s.vertex.activates = a :: rest) :
    exec .activateTimeout s =
      .next (State.complete { s.passTo a.due with vertex := { (s.passTo a.due).vertex with activates := rest } } a.desc
        { status := .drainedLate, r0 := (a.olds.map fun e => s.oldLeft e.1 e.2).sum }) := by
  show execActivateTimeout s = _
  unfold execActivateTimeout
  rewrite [h]
  rfl

theorem exec_activateTimeout_none {s : State} (h : s.vertex.activates = []) : exec .activateTimeout s = .next s := by
  show execActivateTimeout s = _
  unfold execActivateTimeout
  rewrite [h]
  rfl

/-! ### RECLAIM -/

/-- The cluster that a Vertex owner ID names, its thread there, and the threads that a RECLAIM of it names: one, or its engine's eight. -/
def Desc.reclaimCluster (d : Desc) : Nat := min 16 (d.get 8 2 % 4096 / 128)

/-- See `Desc.reclaimCluster`. -/
def Desc.reclaimThreads (d : Desc) : List Nat :=
  let k := d.get 8 2 % 4096 - 128 * Desc.reclaimCluster d
  if bitOf d.flags 0 then (List.range 8).map (k / 8 * 8 + ·) else [k]

/-- The threads of a RECLAIM that run are faulted. -/
def reclaimFaults (d : Desc) (s : State) : State :=
  (Desc.reclaimThreads d).foldl (fun u j => if (u.thread (Desc.reclaimCluster d) j).mode = .ready ∨ (u.thread (Desc.reclaimCluster d) j).mode = .waiting then
    u.faultThread (Desc.reclaimCluster d) j .reclaimed else u) s

/-- Then their locks are freed and counted. -/
def reclaimUnlocks (d : Desc) (s : State) : Nat × State :=
  (Desc.reclaimThreads d).foldl (fun (p : Nat × State) j =>
    (p.1 + (p.2.reclaimLocks (vOwner (Desc.reclaimCluster d) j)).1, (p.2.reclaimLocks (vOwner (Desc.reclaimCluster d) j)).2)) (0, reclaimFaults d s)

/-- Then they are idle, but for a HELD thread that is named alone. -/
def reclaimIdles (d : Desc) (s : State) : State :=
  (Desc.reclaimThreads d).foldl (fun u j => if (u.thread (Desc.reclaimCluster d) j).mode = .held ∧ (!bitOf d.flags 0) = true then u
    else u.idle (Desc.reclaimCluster d) j) (reclaimUnlocks d s).2

/-- An owner ID that names no Vertex or Radius thread. -/
def Desc.NoThread (d : Desc) : Prop := d.get 8 2 / 4096 ≠ 1 ∨ 2304 ≤ d.get 8 2 % 4096

/-- A thread of a RECLAIM is in DEBUG. -/
def Halted (d : Desc) (s : State) : Prop := ∃ j ∈ Desc.reclaimThreads d, (s.thread (Desc.reclaimCluster d) j).mode = .debug

theorem halted_iff (d : Desc) (s : State) :
    Halted d s ↔ ((Desc.reclaimThreads d).any fun k => (s.thread (Desc.reclaimCluster d) k).mode == .debug) = true := by
  rw [Halted, List.any_eq_true]
  exact exists_congr fun n => and_congr_right fun _ => beq_iff_eq.symm

section
variable (d : Desc) (s : State)

theorem reclaimBody_noThread (hv : d.get 8 2 / 4096 ≠ 2) (h : Desc.NoThread d) : reclaimBody d s = s.done d .badRequest := by
  unfold reclaimBody
  exact (if_neg hv).trans (if_pos h)

section
variable (h : ¬ Desc.NoThread d)
include h

theorem reclaim_vertex_of_thread : d.get 8 2 / 4096 ≠ 2 := by
  unfold Desc.NoThread at h
  omega

theorem reclaimBody_halted (hd : Halted d s) : reclaimBody d s = s.done d .inUse := by
  unfold reclaimBody
  exact (if_neg (reclaim_vertex_of_thread d h)).trans ((if_neg h).trans (if_pos ((halted_iff d s).mp hd)))

theorem reclaimBody_runs (hd : ¬ Halted d s) : reclaimBody d s =
    (((reclaimIdles d s).raise 0x182 (BitVec.ofNat 8 (Desc.reclaimCluster d) :: le 2 (d.get 8 2) ++
      [BitVec.ofNat 8 (b2n (bitOf d.flags 0)), BitVec.ofNat 8 (reclaimUnlocks d s).1])).wake (Desc.reclaimCluster d)).complete d
        { status := .ok, r0 := (reclaimUnlocks d s).1 } := by
  unfold reclaimBody
  refine (if_neg (reclaim_vertex_of_thread d h)).trans ((if_neg h).trans ((if_neg fun hn => hd ((halted_iff d s).mpr hn)).trans ?_))
  rfl

end

theorem reclaimTesseraBody_badRequest (h : bits (d.get 8 2) 8 4 ≠ 0 ∨ bitOf d.flags 0 = true) :
    reclaimTesseraBody d s = s.done d .badRequest := by
  unfold reclaimTesseraBody
  exact if_pos h

variable (h : ¬ (bits (d.get 8 2) 8 4 ≠ 0 ∨ bitOf d.flags 0 = true))
include h

theorem reclaimTesseraBody_inUse (hu : s.ownerInUse (d.get 8 2 % 256) = true) : reclaimTesseraBody d s = s.done d .inUse := by
  unfold reclaimTesseraBody
  exact (if_neg h).trans (if_pos hu)

theorem reclaimTesseraBody_frees (hu : s.ownerInUse (d.get 8 2 % 256) = false) : reclaimTesseraBody d s =
    ((if 160 ≤ d.get 8 2 % 256 ∧ d.get 8 2 % 256 < 224 then (s.reclaimCells (d.get 8 2 % 256)).2.releaseLocks fun e => e.2.1 == d.get 8 2
      else (s.reclaimCells (d.get 8 2 % 256)).2).raise 0x088 (le 2 (d.get 8 2) ++ le 4 (s.reclaimCells (d.get 8 2 % 256)).1)).complete d
        { status := .ok, r0 := (s.reclaimCells (d.get 8 2 % 256)).1 } := by
  unfold reclaimTesseraBody
  exact (if_neg h).trans (if_neg (by rw [hu]; exact Bool.false_ne_true))

end

section
variable {d : Desc} {s : State}

theorem exec_reclaim_tessera (h : d.get 8 2 / 4096 = 2) : exec (.reclaim d) s = .next s := congrArg Host.Outcome.next (if_pos h)

theorem exec_reclaimTesseraOwner_vertex (h : d.get 8 2 / 4096 ≠ 2) : exec (.reclaimTesseraOwner d) s = .next s :=
  congrArg Host.Outcome.next (if_pos h)

variable {s0 : State} (hacc : Accepted d 1 [(8, 2)] s s0)
include hacc

theorem exec_reclaim_body (h : d.get 8 2 / 4096 ≠ 2) : exec (.reclaim d) s = .next (reclaimBody d s0) :=
  congrArg Host.Outcome.next ((if_neg h).trans (ringCommand_accepts hacc _))

theorem exec_reclaimTesseraOwner_body (h : d.get 8 2 / 4096 = 2) : exec (.reclaimTesseraOwner d) s = .next (reclaimTesseraBody d s0) :=
  congrArg Host.Outcome.next ((if_neg (not_not.mpr h)).trans (ringCommand_accepts hacc _))

end

theorem State.reclaimLocks_frees (s : State) (o : Nat) :
    (s.reclaimLocks o).1 = (s.assoc.locks.filter fun e => e.2.1 == o).length + (s.radius.locks.filter fun e => e.2.owner == o).length ∧
    (∀ e ∈ (s.reclaimLocks o).2.assoc.locks, e.2.1 ≠ o) ∧ (∀ e ∈ (s.reclaimLocks o).2.radius.locks, e.2.owner ≠ o) :=
  ⟨rfl, fun _ he => bne_iff_ne.mp (List.mem_filter.mp he).2, fun _ he => bne_iff_ne.mp (List.mem_filter.mp he).2⟩

/-- Settles O52: the bodies of the four commands by their guards in order, the switch of a cluster, and the ends of an activation. -/
theorem imagesLoadAndOwnersReclaim : Obligations.ImagesLoadAndOwnersReclaim := by
  unfold Obligations.ImagesLoadAndOwnersReclaim
  refine ⟨fun d s s0 => ⟨fun hacc => ?load, fun hacc => ?activate, fun v n h im ht hi => ?switch, fun n => rfl,
    fun n h due hs => s.activateDone_last d hs, fun a rest ha => exec_activateTimeout_some ha, exec_activateTimeout_none⟩,
    fun d s s0 hacc => ?reclaim, fun s o => s.reclaimLocks_frees o, fun s c k => s.idle_thread c k⟩
  case load =>
    have hrow : exec (.ucodeLoad d) s = .next (ucodeLoadBody d s0) := congrArg Host.Outcome.next (ringCommand_accepts hacc _)
    rw [hrow]
    refine ⟨fun hm => congrArg Host.Outcome.next (ucodeLoadBody_masked d s0 hm),
      fun st hm hbuf => congrArg Host.Outcome.next (ucodeLoadBody_error d s0 hm hbuf), fun bs hm hbuf => ?_, State.loadImage_half⟩
    refine ⟨fun hf => congrArg Host.Outcome.next (ucodeLoadBody_unfit d s0 hm hbuf hf), fun hf hst => ?_, fun im hf hst him => ?_⟩
    · rw [ucodeLoadBody_fit d s0 hm hbuf hf, ucodeTake_of_status hst]
    · rw [ucodeLoadBody_fit d s0 hm hbuf hf]
      exact ⟨fun hn => congrArg Host.Outcome.next (ucodeTake_of_inUse hst him hn),
        fun hn => congrArg Host.Outcome.next (ucodeTake_of_fit hst him hn)⟩
  case activate =>
    have hrow : exec (.ucodeActivate d) s = .next (ucodeActivateBody d s0) := congrArg Host.Outcome.next (ringCommand_accepts hacc _)
    rw [hrow]
    refine ⟨fun hb => congrArg Host.Outcome.next (ucodeActivateBody_unloaded d s0 hb), fun hb hq => ?_, fun hb hq => ?_⟩
    · exact congrArg Host.Outcome.next ((ucodeActivateBody_loaded d s0 hb).trans (if_pos hq))
    · exact congrArg Host.Outcome.next ((ucodeActivateBody_loaded d s0 hb).trans (if_neg hq))
  case switch =>
    refine ⟨State.activate_active ht, fun hs => ?_⟩
    rw [State.activate_of_bare ht hi hs]
    exact ⟨rfl, rfl⟩
  case reclaim =>
    have hwhole : bits (d.get 8 2) 8 4 = 0 → bitOf d.flags 0 = false → ¬ (bits (d.get 8 2) 8 4 ≠ 0 ∨ bitOf d.flags 0 = true) :=
      fun hz hsc hn => hn.elim (fun hb => hb hz) fun hf => Bool.false_ne_true (hsc.symm.trans hf)
    refine ⟨exec_reclaim_tessera, exec_reclaimTesseraOwner_vertex, fun hv hb => ?_, fun hb hh => ?_, fun hb hh => ?_, fun ht hb => ?_,
      fun ht hz hsc => ⟨fun hu => ?_, fun hu => ?_⟩⟩
    · rw [exec_reclaim_body hacc hv, reclaimBody_noThread d s0 hv hb]
    · rw [exec_reclaim_body hacc (reclaim_vertex_of_thread d hb), reclaimBody_halted d s0 hb hh]
    · rw [exec_reclaim_body hacc (reclaim_vertex_of_thread d hb), reclaimBody_runs d s0 hb hh]
      unfold reclaimIdles
      simp only [Bool.not_eq_true']
      rfl
    · rw [exec_reclaimTesseraOwner_body hacc ht, reclaimTesseraBody_badRequest d s0 hb]
    · rw [exec_reclaimTesseraOwner_body hacc ht, reclaimTesseraBody_inUse d s0 (hwhole hz hsc) hu]
    · rw [exec_reclaimTesseraOwner_body hacc ht, reclaimTesseraBody_frees d s0 (hwhole hz hsc) hu]

end Sys2Proof.Machine
end

section
namespace Sys2Proof.Machine

/-! Cold resets, alarms and holds (R46, R59, R60, R534, R536, R538, R539, R560, Table 23.7). -/

/-- A step that may leave other OTP cells, another flash and free values drawn, and nothing else. -/
def Cuts (s t : State) : Prop := t = { s with freeCount := t.freeCount, apex := { s.apex with otp := t.apex.otp, flash := t.apex.flash } }

theorem Cuts.refl (s : State) : Cuts s s := rfl

theorem Cuts.trans {s t u : State} (h : Cuts s t) (k : Cuts t u) : Cuts s u :=
  Eq.trans k (congrArg (fun w : State => { w with
    freeCount := u.freeCount, apex := { w.apex with otp := u.apex.otp, flash := u.apex.flash } }) h)

theorem State.cutWrite_cuts (s : State) (m : Mbx) (v : State) : Cuts s (s.cutWrite m v) := by
  unfold State.cutWrite
  dsimp only
  split <;> rfl

/-- How far the writes of one mailbox have come is free. -/
def State.cutMailbox (s : State) (m : Mbx) : State :=
  if (s.writesOf m).isNone then s
  else
    let (f, s) := match s.apex.heldWrite with
      | some h => (b2n h.begun, s)
      | none => s.draw 1
    match s.writesOf m with
    | some v => if f = 0 then s else s.cutWrite m v
    | none => s

theorem State.cutMailbox_cuts (s : State) (m : Mbx) : Cuts s (s.cutMailbox m) := by
  unfold State.cutMailbox
  have hcut : ∀ (q : Nat × State), Cuts s q.2 →
      Cuts s (match q.2.writesOf m with
        | some v => if q.1 = 0 then q.2 else q.2.cutWrite m v
        | none => q.2) := fun q hq => by
    split
    · split
      · exact hq
      · exact hq.trans (q.2.cutWrite_cuts m _)
    · exact hq
  split
  · rfl
  · cases s.apex.heldWrite with
    | none => exact hcut (s.draw 1) rfl
    | some h => exact hcut (b2n h.begun, s) rfl

theorem State.cutWrites_eq (s : State) : s.cutWrites = (s.cutMailbox .compass).cutMailbox .debugPort := by
  unfold State.cutWrites State.cutMailbox
  rfl

theorem State.cutWrites_cuts (s : State) : Cuts s s.cutWrites := by
  rw [State.cutWrites_eq]
  exact (s.cutMailbox_cuts _).trans (State.cutMailbox_cuts _ _)

theorem State.cutWrites_of_none {s : State} (h : ∀ m, s.writesOf m = none) : s.cutWrites = s := by
  have hnone : ∀ m, s.cutMailbox m = s := fun m => if_pos (by rw [h m]; rfl)
  rw [State.cutWrites_eq, hnone, hnone]

/-! ### Cold resets -/

theorem State.coldReset_eq (s : State) (v : BitVec 8) : s.coldReset v = { s.coldState with cpr := { s.coldState.cpr with
    cause := s.cpr.cause ||| (v ||| if s.apex.held = true ∧ s.apex.alarmN = false then 0x80 else 0) } } := by
  have hcause : s.coldState.cpr.cause = s.cpr.cause := by
    show s.cutWrites.cpr.cause = _
    rw [s.cutWrites_cuts]
  rw [State.coldReset, State.noteCause, State.withCpr, hcause]
  simp only [Bool.not_eq_true]

section
variable (rail : Rail) (s : State)

theorem exec_supplyReset_takes (h : ¬ (s.apex.held = true ∨ railMonitored rail.id.val = false)) : exec (.supplyReset rail) s =
    .next { s.coldReset 0x40 with cpr := { (s.coldReset 0x40).cpr with railId := BitVec.ofNat 8 rail.id.val, supplyOwed := true } } :=
  if_neg fun hn => h (hn.imp_right Bool.eq_false_iff.mpr)

theorem exec_supplyReset_stays (h : s.apex.held = true ∨ railMonitored rail.id.val = false) : exec (.supplyReset rail) s = .next s :=
  if_pos (h.imp_right Bool.eq_false_iff.mp)

end

/-! ### Alarms -/

theorem exec_alarm (cause : Fin 32) (rail : BitVec 8) (s : State) : exec (.alarm cause rail) s =
    .next (if s.alarmReal cause.val rail.toNat then State.holdAll { s with apex := { s.apex with
        cause := s.apex.cause ||| (1#7 <<< cause.val)
        railId := if cause.val = 0 ∧ s.apex.cause.getLsbD 0 = false then rail else s.apex.railId } } false else s) := by
  show execAlarm cause rail s = _
  unfold execAlarm
  simp only [Bool.not_eq_true]
  exact (apply_ite Host.Outcome.next _ _ _).symm

/-- Table 2.12: a monitored rail, one of the sources 1 to 4, or a TAMPER_IN that the owner enables. -/
theorem State.alarmReal_iff (s : State) (cause rail : Nat) : s.alarmReal cause rail = true ↔ (cause = 0 ∧ rail ≤ 10) ∨
    (1 ≤ cause ∧ cause < 5) ∨ (5 ≤ cause ∧ cause < 7 ∧ s.apex.otp.tamperEn.getLsbD (cause - 5) = true) := by
  have hbit : bitOf s.apex.otp.tamperEn.toNat (cause - 5) = s.apex.otp.tamperEn.getLsbD (cause - 5) := rfl
  unfold State.alarmReal railMonitored
  by_cases h0 : cause = 0
  · rw [if_pos h0, decide_eq_true_eq]
    omega
  · rw [if_neg h0]
    by_cases h5 : cause < 5
    · rw [if_pos h5]
      exact iff_of_true rfl (by omega)
    · rw [if_neg h5, Bool.and_eq_true, decide_eq_true_eq, hbit]
      constructor
      · exact fun ⟨hlt, hen⟩ => .inr (.inr ⟨by omega, hlt, hen⟩)
      · rintro (h | h | ⟨_, hlt, hen⟩)
        · omega
        · omega
        · exact ⟨hlt, hen⟩

/-! ### A part that does not run -/

theorem exec_plainRows_halted {s : State} (h : s.halted = true) (v : Word32) (msg : List Byte) (b : Byte) {n : Instr}
    (hn : n ∈ [Instr.gnomonSet v, .gnomonStep v, .lockWrite v, .rateWrite v, .secondTick, .todByteReceive b, .emTableClear v, .datapathReset v,
      .portBlockReset v, .indRead v, .indWrite v, .counterRead v, .chordLinkUp, .chordHeartbeatSend, .syncCycleStart, .leaseRequestSend,
      .staleRequestSend, .leaseGrant msg, .leaseDeny msg]) : exec n s = .next s := by
  simp only [List.mem_cons, List.not_mem_nil, or_false] at hn
  rcases hn with rfl | rfl | rfl | rfl | rfl | rfl | rfl | rfl | rfl | rfl | rfl | rfl | rfl | rfl | rfl | rfl | rfl | rfl | rfl
  all_goals exact if_pos h

theorem exec_laneRows_halted {s : State} (h : s.halted = true) (l : Lane) (v : Word32) {n : Instr}
    (hn : n ∈ [Instr.laneCfgWrite l v, .laneTxeqWrite l v, .prbsCfgWrite l v, .errorInject l v, .eyeScanGo l v]) : exec n s = .next s := by
  simp only [List.mem_cons, List.not_mem_nil, or_false] at hn
  rcases hn with rfl | rfl | rfl | rfl | rfl
  all_goals exact if_pos h

theorem exec_ringRows_halted {s : State} (h : s.halted = true) (kind : RingKind) (r : Fin 64) (v : Word32) {n : Instr}
    (hn : n ∈ [Instr.ringEnable kind r v, .ringDisable kind r v, .ringCiWrite kind r v, .doorbellWrite r v]) : exec n s = .next s := by
  simp only [List.mem_cons, List.not_mem_nil, or_false] at hn
  rcases hn with rfl | rfl | rfl | rfl
  all_goals exact if_pos h

theorem exec_queueRows_halted {s : State} (h : s.halted = true) (q : BitVec 8) (v : Word32) {n : Instr}
    (hn : n ∈ [Instr.queueEnable q v, .queueDisable q v, .queueRelease q v]) : exec n s = .next s := by
  simp only [List.mem_cons, List.not_mem_nil, or_false] at hn
  rcases hn with rfl | rfl | rfl
  all_goals exact if_pos h

/-- Settles O54: what interrupted writes change, then the fields of the cold state; the rows of a halted part by their first guard. -/
theorem coldResetsAlarmsAndHolds : Obligations.ColdResetsAlarmsAndHolds := by
  unfold Obligations.ColdResetsAlarmsAndHolds
  refine ⟨fun s => ?cold, fun s => ⟨fun rail => ⟨fun h => ⟨exec_supplyReset_takes rail s h, ?_, ?_⟩, exec_supplyReset_stays rail s⟩, rfl⟩,
    fun s => ⟨fun cause rail => ⟨exec_alarm cause rail s, s.alarmReal_iff _ _⟩, rfl, fun a => ⟨rfl, rfl, rfl, rfl⟩⟩,
    fun s v msg b h => ⟨fun n hn => exec_plainRows_halted h v msg b hn, fun _ _ => if_pos h, fun _ => if_pos h, fun _ => ⟨if_pos h, if_pos h⟩,
      fun l n hn => exec_laneRows_halted h l v hn, fun kind r n hn => exec_ringRows_halted h kind r v hn, fun _ => if_pos h,
      fun _ => if_pos h, fun _ _ => if_pos h, fun _ => if_pos (.inl h), fun q n hn => exec_queueRows_halted h q v hn⟩⟩
  case cold =>
    have hcut := s.cutWrites_cuts
    refine ⟨rfl, s.coldReset_eq, fun a => rfl, rfl, rfl, State.cutWrites_of_none, ?_, ?_, ?_, ?_, rfl, ?_, rfl, rfl, rfl, rfl, rfl, rfl,
      rfl, rfl, rfl, rfl, rfl, rfl, rfl, rfl, rfl, rfl, rfl, rfl, rfl, ?_, rfl, rfl, rfl, rfl, rfl, rfl, rfl, ?_⟩
    · show s.cutWrites.apex.cause = _
      rw [hcut]
    · show s.cutWrites.apex.railId = _
      rw [hcut]
    · show s.cutWrites.cpr.railId = _
      rw [hcut]
    · show s.cutWrites.cpr.cause = _
      rw [hcut]
    · show s.cutWrites.axis.entropyOk = _
      rw [hcut]
    · show s.cutWrites.gnomon.ppsIn = _
      rw [hcut]
    · show s.cutWrites.pending = _
      rw [hcut]
  · rw [State.coldReset_eq]
    rfl
  · rw [State.coldReset_eq]
    rfl

end Sys2Proof.Machine
end

section
namespace Sys2Proof.Machine

/-! Warm, datapath and port block resets (R539 to R543, Table 23.7). -/

/-! ### Warm reset -/

theorem State.resumeIntent_frame (s : State) : s.resumeIntent = { s with apex := { s.apex with
    otp := s.resumeIntent.apex.otp, resumed := s.resumeIntent.apex.resumed } } := by
  unfold State.resumeIntent
  split
  · rfl
  · split
    · rfl
    · unfold State.finishTransition
      dsimp only
      split <;> rfl

theorem State.resumeIntent_of_none {s : State} (h : s.openIntent = none) : s.resumeIntent = s := by
  rw [State.resumeIntent, h]

/-- From s to t nothing changes but the rings, and the raises taken for them. -/
def Discards (s t : State) : Prop := t = { s with rings := t.rings, tele := t.tele }

theorem State.discardTaken_discards (s : State) (r : Nat) : Discards s (s.discardTaken r) := by
  unfold State.discardTaken
  dsimp only
  split <;> rfl

theorem State.warmRings_discards (s : State) : Discards s s.warmRings := by
  have hfold : Discards s ((List.range 16).foldl State.discardTaken s) :=
    List.foldlRecOn _ _ rfl fun u hu r _ => Eq.trans (u.discardTaken_discards r)
      (congrArg (fun w : State => { w with rings := (u.discardTaken r).rings, tele := (u.discardTaken r).tele }) hu)
  unfold State.warmRings
  dsimp only
  generalize (List.range 16).foldl State.discardTaken s = u at hfold ⊢
  rw [hfold]
  rfl

/-- A table that holds only disabled rings, as its default is. -/
theorem state_of_reset_rings (t : Tbl Ring) (f : Ring → Ring) (hf : ∀ x, (f x).state = .disabled) (k : Nat) :
    (tget Ring.reset (t.map fun e => (e.1, f e.2)) k).state = .disabled := by
  induction t with
  | nil => rfl
  | cons e t ih =>
    rw [List.map_cons, tget]
    split
    · exact hf _
    · exact ih

theorem State.warmRings_ring (s : State) (k : RingKind) (r : Nat) : (s.warmRings.ring k r).state = .disabled := by
  unfold State.warmRings State.ring
  dsimp only
  exact state_of_reset_rings _ (fun _ => { Ring.reset with lostFlag := true }) (fun _ => rfl) _

/-- What a warm reset clears once the rings are disabled. -/
def State.warmClear (s : State) : State :=
  let s := s.withApex { s.apex with mbxC := Mailbox.reset, mbxD := Mailbox.reset, lastServed := .debugPort, challenge := none, rights := 0
                                    ownerRights := 0, heldWrite := none }
  { s with
    regs := s.regs.filter fun (e : Nat × BitVec 32) => warmKeeps e.1
    counters := s.counters.filter fun (e : Nat × BitVec 64) => e.1 / 2 ^ 26 != 0x0F
    tele := { s.tele with held := [], heldLost := false }
    hull := { s.hull with mchkIrq := 0 }
    periph := PeriphState.reset }

theorem State.warmEffects_eq (s : State) : s.warmEffects = s.cutWrites.warmRings.warmClear.resumeIntent := rfl

/-- From s to t nothing changes but the rings, and writes under way are interrupted. -/
def Interrupts (s t : State) : Prop := t = { s with
  freeCount := t.freeCount, rings := t.rings, tele := t.tele, apex := { s.apex with otp := t.apex.otp, flash := t.apex.flash } }

theorem State.warmRings_interrupts (s : State) : Interrupts s s.cutWrites.warmRings := by
  have hcut := s.cutWrites_cuts
  have hrings := s.cutWrites.warmRings_discards
  generalize s.cutWrites.warmRings = u at hrings ⊢
  generalize s.cutWrites = v at hcut hrings
  have happex : u.apex = v.apex := by rw [hrings]
  have hcount : u.freeCount = v.freeCount := by rw [hrings]
  rw [Interrupts, happex, hcount]
  exact Eq.trans hrings (congrArg (fun w : State => { w with rings := u.rings, tele := u.tele }) hcut)

/-- From s to t nothing changes but what a warm reset clears (Table 23.7). -/
def Warms (s t : State) : Prop := t = { s with
  freeCount := t.freeCount, rings := t.rings, regs := t.regs, counters := t.counters, tele := t.tele, hull := { s.hull with mchkIrq := 0 }
  periph := PeriphState.reset
  apex := { s.apex with otp := t.apex.otp, flash := t.apex.flash, resumed := t.apex.resumed, mbxC := Mailbox.reset, mbxD := Mailbox.reset
                        lastServed := .debugPort, challenge := none, rights := 0, ownerRights := 0, heldWrite := none } }

theorem Interrupts.warms {s u : State} (h : Interrupts s u) : Warms s u.warmClear := by
  have hresumed : u.apex.resumed = s.apex.resumed := by rw [h]
  have hclear : u.warmClear.apex.resumed = s.apex.resumed := hresumed
  rw [Warms, hclear]
  exact congrArg (fun w : State => { w with
    regs := u.warmClear.regs, counters := u.warmClear.counters, tele := u.warmClear.tele, hull := { w.hull with mchkIrq := 0 }
    periph := PeriphState.reset
    apex := { w.apex with mbxC := Mailbox.reset, mbxD := Mailbox.reset, lastServed := .debugPort, challenge := none, rights := 0
                          ownerRights := 0, heldWrite := none } }) h

theorem State.warmEffects_warms (s : State) : Warms s s.warmEffects := by
  have hwarm := s.warmRings_interrupts.warms
  rw [State.warmEffects_eq]
  generalize s.cutWrites.warmRings.warmClear = u at hwarm ⊢
  have hresume := u.resumeIntent_frame
  generalize u.resumeIntent = t at hresume ⊢
  have hflash : t.apex.flash = u.apex.flash := by rw [hresume]
  have hcount : t.freeCount = u.freeCount := by rw [hresume]
  have hrings : t.rings = u.rings := by rw [hresume]
  have hregs : t.regs = u.regs := by rw [hresume]
  have hcounters : t.counters = u.counters := by rw [hresume]
  have htele : t.tele = u.tele := by rw [hresume]
  rw [Warms, hflash, hcount, hrings, hregs, hcounters, htele]
  exact Eq.trans hresume (congrArg (fun w : State => { w with
    apex := { w.apex with otp := t.apex.otp, resumed := t.apex.resumed } }) hwarm)

theorem State.resumeIntent_rings (s : State) : s.resumeIntent.rings = s.rings := by rw [State.resumeIntent_frame]

theorem State.resumeIntent_tele (s : State) : s.resumeIntent.tele = s.tele := by rw [State.resumeIntent_frame]

theorem State.warmEffects_ring (s : State) (k : RingKind) (r : Nat) : (s.warmEffects.ring k r).state = .disabled := by
  rw [State.warmEffects_eq, State.ring, State.resumeIntent_rings]
  exact s.cutWrites.warmRings_ring k r

theorem State.warmEffects_held (s : State) : s.warmEffects.tele.held = [] := by
  rw [State.warmEffects_eq, State.resumeIntent_tele]
  rfl

/-- A warm reset that finds neither writes under way nor an open transition leaves OTP and the flash. -/
theorem State.warmEffects_idle {s : State} (hw : ∀ m, s.writesOf m = none) (hi : s.openIntent = none) :
    s.warmEffects.apex.otp = s.apex.otp ∧ s.warmEffects.apex.flash = s.apex.flash := by
  have hrings : Discards s s.cutWrites.warmRings := by
    rw [State.cutWrites_of_none hw]
    exact s.warmRings_discards
  have happex : s.cutWrites.warmRings.apex = s.apex := by rw [hrings]
  rw [State.warmEffects_eq]
  generalize s.cutWrites.warmRings = u at happex
  have hotp : u.warmClear.apex.otp = s.apex.otp := by
    rw [← happex]
    rfl
  have hflash : u.warmClear.apex.flash = s.apex.flash := by
    rw [← happex]
    rfl
  have hopen : u.warmClear.openIntent = none := by
    rw [State.openIntent, hotp]
    exact hi
  rw [State.resumeIntent_of_none hopen]
  exact ⟨hotp, hflash⟩

section
variable (s : State) (v : BitVec 8)

/-- A part that is held in reset has no warm reset. -/
def State.InReset (s : State) : Prop := s.apex.held = true ∨ s.cpr.por = true ∨ s.cpr.trip.isSome = true

theorem State.warmReset_off (h : s.InReset) : s.warmReset v = s := if_pos h

theorem State.warmReset_waits (h : ¬ s.InReset) (hb : s.cpr.dpBusy.isSome = true) :
    s.warmReset v = { s with cpr := { s.cpr with warmWaits := s.cpr.warmWaits ||| v } } := (if_neg h).trans (if_pos hb)

theorem State.warmReset_runs (h : ¬ s.InReset) (hb : s.cpr.dpBusy = none) :
    let u := State.warmEffects { s with cpr := { s.cpr with cause := s.cpr.cause ||| v } }
    s.warmReset v = if u.apex.booted = true ∧ u.apex.regionWaits = false then u.bootCompare else u := by
  have hoff : ¬ (s.apex.held = true ∨ s.cpr.por = true ∨ s.cpr.trip.isSome = true) := h
  have hbusy : ¬ s.cpr.dpBusy.isSome = true := by rw [hb]; exact Bool.false_ne_true
  have hnote : s.noteCause v = { s with cpr := { s.cpr with cause := s.cpr.cause ||| v } } := rfl
  rw [State.warmReset, if_neg hoff, if_neg hbusy, hnote]
  generalize State.warmEffects { s with cpr := { s.cpr with cause := s.cpr.cause ||| v } } = u
  dsimp only
  simp only [Bool.not_eq_true]

end

theorem exec_warmReset_reg (s : State) (src : Source) :
    exec (.warmReset (.reg src)) s = .next (if s.mayWriteRegs src then s.warmReset 0x08 else s) := (apply_ite Host.Outcome.next _ _ _).symm

theorem State.bootCompare_skips {s : State} (h : s.lc = 12 ∨ s.apex.holdCode = 0xE1 ∨ s.apex.holdCode = 0xE2) : s.bootCompare = s := if_pos h

theorem State.bootCompare_unverified {s : State} (h : ¬ (s.lc = 12 ∨ s.apex.holdCode = 0xE1 ∨ s.apex.holdCode = 0xE2))
    (hc : s.bootCopy = none) : s.bootCompare = { s with apex := { s.apex with holdCode := 0xE3 } } := by
  unfold State.bootCompare
  refine (if_neg h).trans ?_
  rw [hc]
  rfl

/-! ### The end of a datapath reset -/

/-- From s to t nothing changes but Radius, key slots, what Twin has to copy, and what completions and reports write. -/
def Drains (s t : State) : Prop :=
  t = { s with
    freeCount := t.freeCount, out := t.out, mem := t.mem, hull := t.hull, counters := t.counters, tele := t.tele, once := t.once
    rings := t.rings, radius := t.radius, axis := t.axis, twin := t.twin }

theorem Drains.refl (s : State) : Drains s s := rfl

theorem Drains.trans {s t u : State} (h : Drains s t) (h' : Drains t u) : Drains s u :=
  Eq.trans h' (congrArg (fun w : State => { w with
    freeCount := u.freeCount, out := u.out, mem := u.mem, hull := u.hull, counters := u.counters, tele := u.tele, once := u.once
    rings := u.rings, radius := u.radius, axis := u.axis, twin := u.twin }) h)

theorem Posts.drains {s t : State} (h : Posts s t) : Drains s t := by
  have hradius : t.radius = s.radius := by rw [h]
  have haxis : t.axis = s.axis := by rw [h]
  have htwin : t.twin = s.twin := by rw [h]
  rw [Drains, hradius, haxis, htwin]
  exact h

theorem State.setSlot_drains (s : State) (k : Nat) (x : Slot) : Drains s (s.setSlot k x) := by
  rw [State.setSlot_frame]
  rfl

theorem State.opEnd_drains (s : State) (k : Nat) (g : BitVec 32) : Drains s (s.opEnd k g) := by
  unfold State.opEnd
  dsimp only
  split
  · exact s.setSlot_drains _ _
  · exact s.setSlot_drains _ _

theorem State.endRoot_drains (s : State) (id : Nat) : Drains s (s.endRoot id) := by
  unfold State.endRoot
  split
  · split
    · exact Drains.trans (t := s.modRItem id _) rfl (State.opEnd_drains _ _ _)
    · rfl
  · rfl

theorem State.endRItem_drains (s : State) (id : Nat) : Drains s (s.endRItem id) := by
  unfold State.endRItem
  split
  · rfl
  · refine Drains.trans (s.endRoot_drains id) ?_
    generalize s.endRoot id = u
    rfl

theorem State.recUnlock_drains (s : State) (slot owner : Nat) : Drains s (s.recUnlock slot owner) := by
  unfold State.recUnlock
  split
  · split <;> rfl
  · rfl

theorem State.drainDrop_drains (s : State) (i : RItem) : Drains s (s.drainDrop i) := by
  have hcount : Drains s (s.rcount 1 none) := (s.count_posts _).drains
  unfold State.drainDrop
  dsimp only
  refine Drains.trans ?_ (State.endRItem_drains _ _)
  split
  · exact hcount.trans (State.recUnlock_drains _ _ _)
  · exact hcount

theorem State.serviceOff_drains (s : State) (d : Desc) (rep : Reply) : Drains s (s.serviceOff d rep) :=
  Drains.trans (t := s.withRadius { s.radius with mode := .idle, disable := none }) rfl
    ((State.raise_posts _ _ _).drains.trans (State.complete_posts _ _ _).drains)

theorem State.cutRadius_drains (s : State) : Drains s s.cutRadius := by
  have hitems : Drains s (s.radius.items.foldl State.drainDrop s) :=
    List.foldlRecOn _ _ (Drains.refl s) fun u hu i _ => hu.trans (u.drainDrop_drains i)
  unfold State.cutRadius
  dsimp only
  refine Drains.trans (hitems.trans ?_) rfl
  split
  · exact State.serviceOff_drains _ _ _
  · rfl

theorem State.cutQueues_frame (s : State) : s.cutQueues = { s with regs := s.cutQueues.regs, annulus := s.cutQueues.annulus } := by
  have hfold : ∀ (l : List Nat) (v : State), v = { s with regs := v.regs, annulus := v.annulus } →
      let w := l.foldl (fun s q => if (s.aq q).enabled ∨ bitOf (s.regN (aqOff q)) 31 then s.queueDisable q (s.regN (aqOff q) % 2 ^ 31) else s) v
      w = { s with regs := w.regs, annulus := w.annulus } := fun l v hv => by
    refine List.foldlRecOn l _ (motive := fun w : State => w = { s with regs := w.regs, annulus := w.annulus }) hv fun u hu q _ => ?_
    split
    · rw [hu]
      unfold State.queueDisable
      dsimp only
      split <;> rfl
    · exact hu
  unfold State.cutQueues
  dsimp only
  have h := hfold (List.range 256) s rfl
  generalize (List.range 256).foldl _ s = w at h ⊢
  rw [h]

/-! Prisms. -/

theorem State.dropSlot_unit_ne (s : State) {m n : Nat} (q : Nat) (h : n ≠ m) : (s.dropSlot m q).unit n = s.unit n := by
  cases hi : s.item m q with
  | none => rw [State.dropSlot, hi]
  | some i =>
    rw [State.dropSlot_some hi]
    dsimp only
    rw [State.unit_setUnit_ne _ h, State.modItem, State.unit_setUnit_ne _ h, State.freed_unit]

theorem State.cryptoEnd_unit_ne (s : State) {m n : Nat} (r : CryptoRun) (st : Status) (h : n ≠ m) : (s.cryptoEnd m r st).unit n = s.unit n := by
  have hposts : ∀ {u v : State}, Posts u v → v.unit n = u.unit n := fun hp => by rw [State.unit, State.unit, hp]
  unfold State.cryptoEnd
  dsimp only
  split
  · rw [hposts (State.complete_posts _ _ _), State.unit_setUnit_ne _ h]
  · rw [hposts (State.writeBufDone_posts _ _ _ _ _ _), State.unit_setUnit_ne _ h]

theorem State.clearPrism_unit (s : State) (n : Nat) : ((s.clearPrism n).unit n).items = [] := by
  rw [State.clearPrism, State.unit_setUnit]
  rfl

theorem State.clearPrism_unit_ne (s : State) {m n : Nat} (h : n ≠ m) : (s.clearPrism m).unit n = s.unit n := by
  unfold State.clearPrism
  dsimp only
  rw [State.unit_setUnit_ne _ h]
  refine List.foldlRecOn _ _ (motive := fun v : State => v.unit n = s.unit n) ?_ fun v hv r _ => ?_
  · exact List.foldlRecOn _ _ (motive := fun v : State => v.unit n = s.unit n) rfl fun v hv i _ => (v.dropSlot_unit_ne i.seq h).trans hv
  · exact (v.cryptoEnd_unit_ne r .disabled h).trans hv

theorem State.clearPrism_vertex (s : State) (n : Nat) : (s.clearPrism n).vertex = s.vertex := by
  unfold State.clearPrism
  refine List.foldlRecOn _ _ (motive := fun v : State => v.vertex = s.vertex) ?_ fun v hv r _ => (State.cryptoEnd_vertex _ _ _ _).trans hv
  exact List.foldlRecOn _ _ (motive := fun v : State => v.vertex = s.vertex) rfl fun v hv i _ => (State.dropSlot_vertex _ _ _).trans hv

theorem State.items_foldl_clearPrism (l : List Nat) (s : State) {n : Nat} (h : n ∈ l ∨ (s.unit n).items = []) :
    ((l.foldl State.clearPrism s).unit n).items = [] := by
  induction l generalizing s with
  | nil => exact h.resolve_left List.not_mem_nil
  | cons m l ih =>
    rw [List.foldl_cons]
    refine ih _ ?_
    by_cases hn : n = m
    · subst hn
      exact .inr (s.clearPrism_unit n)
    · rw [s.clearPrism_unit_ne hn]
      exact h.imp_left fun hm => (List.mem_cons.mp hm).resolve_left hn

/-! Threads. -/

/-- What a table holds at a key, if not its default, is one of its entries. -/
theorem mem_of_tget_ne {α : Type} {d : α} {t : Tbl α} {k : Nat} (h : tget d t k ≠ d) : (k, tget d t k) ∈ t := by
  induction t with
  | nil => exact absurd rfl h
  | cons e t ih =>
    obtain ⟨j, v⟩ := e
    rw [tget] at h ⊢
    split
    next hj => exact hj ▸ List.mem_cons_self
    next hj =>
      rw [if_neg hj] at h
      exact List.mem_cons_of_mem _ (ih h)

theorem State.mode_modThread (s : State) (c j : Nat) (f : Thread → Thread) (hf : ∀ t, (f t).mode = t.mode) (d k : Nat) :
    ((s.modThread c j f).thread d k).mode = (s.thread d k).mode := by
  by_cases hd : d = c
  · subst hd
    by_cases hk : k = j
    · subst hk
      rw [State.thread_modThread, hf]
    · rw [State.thread_modThread_ne _ _ hk]
  · rw [State.thread, State.cluster_modThread_ne _ _ hd, ← State.thread]

theorem State.endKey_vertex (s : State) (o : SaOp) (pn : Option Nat) : (s.endKey o pn).vertex = s.vertex := by rw [State.endKey_frame]

/-- The end of an operation leaves the state of every thread. -/
theorem State.endOp_mode (s : State) (c j : Nat) (b : Bool) (d k : Nat) : ((s.endOp c j b).thread d k).mode = (s.thread d k).mode := by
  cases ho : (s.thread c j).op with
  | none => rw [State.endOp_none s c j ho]
  | some o =>
    rw [State.endOp_some s c j ho, State.mode_modThread _ c j (fun t => { t with op := none }) (fun _ => rfl)]
    refine congrArg Thread.mode (State.thread_of_vertex ?_ d k)
    rw [apply_ite State.vertex, State.freeLock_vertex, State.endKey_vertex, ite_self]

theorem State.unyield_mode (s : State) (c j d k : Nat) : ((s.unyield c j).thread d k).mode = (s.thread d k).mode := by
  by_cases hd : d = c
  · subst hd
    rw [State.unyield_thread]
  · rw [State.thread, State.unyield, State.cluster_setCluster_ne _ hd, ← State.thread]

/-- A thread that becomes IDLE leaves every other as it was. -/
theorem State.idle_mode (s : State) (c j : Nat) {d k : Nat} (h : d = c ∧ k = j ∨ (s.thread d k).mode = .idle) :
    ((s.idle c j).thread d k).mode = .idle := by
  by_cases hd : d = c ∧ k = j
  · obtain ⟨rfl, rfl⟩ := hd
    exact (s.idle_thread d k).1
  · have hmode := h.resolve_left hd
    rw [State.idle]
    by_cases hc : d = c
    · subst hc
      have hk : k ≠ j := fun hn => hd ⟨rfl, hn⟩
      rw [State.thread_modThread_ne _ _ hk, State.unyield_mode, hmode]
    · rw [State.thread, State.cluster_modThread_ne _ _ hc, ← State.thread, State.unyield_mode, hmode]

/-- The threads of a list become IDLE. -/
theorem State.mode_foldl_idle (c : Nat) (l : Tbl Thread) (s : State) {d k : Nat}
    (h : d = c ∧ (∃ e ∈ l, e.1 = k) ∨ (s.thread d k).mode = .idle) :
    ((l.foldl (fun s e => (s.endOp c e.1 true).idle c e.1) s).thread d k).mode = .idle := by
  induction l generalizing s with
  | nil => exact h.resolve_left fun ⟨_, e, he, _⟩ => List.not_mem_nil he
  | cons f l ih =>
    rw [List.foldl_cons]
    refine ih _ ?_
    rcases h with ⟨hd, e, he, hk⟩ | h
    · rcases List.mem_cons.mp he with rfl | he
      · exact .inr (State.idle_mode _ _ _ (.inl ⟨hd, hk.symm⟩))
      · exact .inl ⟨hd, e, he, hk⟩
    · exact .inr (State.idle_mode _ _ _ (.inr (by rw [State.endOp_mode, h])))

theorem State.idleCluster_mode (s : State) (c : Nat) {d k : Nat} (h : d = c ∨ (s.thread d k).mode = .idle) :
    ((s.idleCluster c).thread d k).mode = .idle := by
  refine State.mode_foldl_idle c _ s ?_
  by_cases hm : (s.thread d k).mode = .idle
  · exact .inr hm
  · have hd := h.resolve_right hm
    subst hd
    have hne : tget Thread.reset (s.cluster d).threads k ≠ Thread.reset := fun hn => hm (congrArg Thread.mode hn)
    exact .inl ⟨rfl, _, List.mem_filter.mpr ⟨mem_of_tget_ne hne, bne_iff_ne.mpr hm⟩, rfl⟩

theorem State.mode_foldl_idleCluster (l : List Nat) (s : State) {d k : Nat} (h : d ∈ l ∨ (s.thread d k).mode = .idle) :
    ((l.foldl State.idleCluster s).thread d k).mode = .idle := by
  induction l generalizing s with
  | nil => exact h.resolve_left List.not_mem_nil
  | cons c l ih =>
    rw [List.foldl_cons]
    refine ih _ ?_
    rcases h with h | h
    · exact (List.mem_cons.mp h).elim (fun hc => .inr (s.idleCluster_mode c (.inl hc))) .inl
    · exact .inr (s.idleCluster_mode c (.inr h))

/-! The whole. -/

/-- The part once every thread is idle. -/
def State.dpIdled (s : State) : State := (List.range 17).foldl State.idleCluster s.foldAll.cutPorts

/-- The part once every Prism is empty too. -/
def State.dpCleared (s : State) : State := (List.range 16).foldl State.clearPrism s.dpIdled

/-- The rest of a datapath reset, once Radius is disabled. -/
def State.dpLast (s : State) : State :=
  let s := s.dropFrames
  let s := s.withApex { s.apex with challenge := none }
  { s with counters := s.counters.filter fun (e : Nat × BitVec 64) => !(1 ≤ e.1 / 2 ^ 26 && e.1 / 2 ^ 26 ≤ 0x0B) }

/-- The rest of a datapath reset, once the Annulus queues are disabled. -/
def State.dpRest (s : State) : State := s.cutRadius.dpLast

theorem State.dpEffects_eq (s : State) : s.dpEffects = s.dpCleared.cutQueues.dpRest := by
  unfold State.dpEffects State.dpRest State.dpLast State.dpCleared State.dpIdled
  dsimp only

section
variable (s : State)

theorem State.dpLast_vertex : s.dpLast.vertex = s.vertex := rfl

theorem State.dpRest_vertex : s.dpRest.vertex = s.vertex := by rw [State.dpRest, State.dpLast_vertex, s.cutRadius_drains]

theorem State.dpLast_prism : s.dpLast.prism = s.prism := rfl

theorem State.dpRest_prism : s.dpRest.prism = s.prism := by rw [State.dpRest, State.dpLast_prism, s.cutRadius_drains]

theorem State.dpLast_annulus : s.dpLast.annulus = s.annulus := rfl

theorem State.dpRest_annulus : s.dpRest.annulus = s.annulus := by rw [State.dpRest, State.dpLast_annulus, s.cutRadius_drains]

theorem State.dpRest_clears : s.dpRest.tess.frames = [] ∧ s.dpRest.sector.queues = [] ∧ s.dpRest.radius.mode = .idle ∧
    s.dpRest.apex.challenge = none := ⟨rfl, rfl, rfl, rfl⟩

theorem State.dpRest_counter {id : Nat} (h1 : 1 ≤ id / 2 ^ 26) (h2 : id / 2 ^ 26 ≤ 0x0B) : s.dpRest.counter id = 0 := by
  refine tget_filter_of_not 0 (fun k => !(1 ≤ k / 2 ^ 26 && k / 2 ^ 26 ≤ 0x0B)) _ ?_
  rw [decide_eq_true h1, decide_eq_true h2]
  rfl

theorem State.cutQueues_vertex : s.cutQueues.vertex = s.vertex := by rw [s.cutQueues_frame]

theorem State.cutQueues_prism : s.cutQueues.prism = s.prism := by rw [s.cutQueues_frame]

theorem State.cutQueues_annulus : s.cutQueues.annulus.inbound = [] ∧ s.cutQueues.annulus.punts = [] := by
  unfold State.cutQueues
  dsimp only
  exact ⟨rfl, rfl⟩

theorem State.dpEffects_vertex : s.dpEffects.vertex = s.dpCleared.vertex := by
  rw [State.dpEffects_eq, State.dpRest_vertex, State.cutQueues_vertex]

theorem State.dpEffects_prism : s.dpEffects.prism = s.dpCleared.prism := by
  rw [State.dpEffects_eq, State.dpRest_prism, State.cutQueues_prism]

theorem State.dpIdled_thread {c : Nat} (hc : c < 17) (k : Nat) : (s.dpIdled.thread c k).mode = .idle := by
  have hmem : c ∈ List.range 17 := List.mem_range.mpr hc
  unfold State.dpIdled
  generalize List.range 17 = l at hmem ⊢
  exact State.mode_foldl_idleCluster _ _ (.inl hmem)

theorem State.dpCleared_items {n : Nat} (hn : n < 16) : (s.dpCleared.unit n).items = [] := by
  have hmem : n ∈ List.range 16 := List.mem_range.mpr hn
  unfold State.dpCleared
  generalize List.range 16 = l at hmem ⊢
  exact State.items_foldl_clearPrism _ _ (.inl hmem)

theorem State.dpCleared_vertex : s.dpCleared.vertex = s.dpIdled.vertex := by
  unfold State.dpCleared
  generalize List.range 16 = l
  generalize s.dpIdled = v
  exact List.foldlRecOn l _ (motive := fun u : State => u.vertex = v.vertex) rfl fun u hu n _ => (u.clearPrism_vertex n).trans hu

theorem State.dpEffects_thread {c : Nat} (hc : c < 17) (k : Nat) : (s.dpEffects.thread c k).mode = .idle := by
  rw [State.thread_of_vertex (s.dpEffects_vertex.trans s.dpCleared_vertex), s.dpIdled_thread hc]

theorem State.dpEffects_items {n : Nat} (hn : n < 16) : (s.dpEffects.unit n).items = [] := by
  rw [State.unit, State.dpEffects_prism, ← State.unit, s.dpCleared_items hn]

end

/-! ### Rows of datapath and port block resets -/

theorem exec_datapathReset_runs {s : State} (h : s.halted = false) (v : Word32) :
    let u := if s.cpr.dpBusy.isSome then s else
      { s with cpr := { s.cpr with cause := s.cpr.cause ||| 0x04, dpBusy := some s.clk }, rings := { s.rings with startsHeld := true } }
    exec (.datapathReset v) s = .next (if bitOf v.toNat 31 then u.warmReset 0x08 else u) := by
  intro u
  have hdp : bitOf (v.toNat ||| 2 ^ 30) 30 = true := by
    rw [bitOf, Nat.testBit_or, Nat.testBit_two_pow_self, Bool.or_true]
  have hwarm : bitOf (v.toNat ||| 2 ^ 30) 31 = bitOf v.toNat 31 := by
    rw [bitOf, bitOf, Nat.testBit_or, Nat.testBit_two_pow_of_ne (by decide), Bool.or_false]
  have hrow : exec (.datapathReset v) s = .next (s.cprReset (v.toNat ||| 2 ^ 30)) := if_neg (by rw [h]; exact Bool.false_ne_true)
  rw [hrow, State.cprReset, hwarm, if_pos hdp]
  rfl

/-- The end of a datapath reset whose effects are done (R541, R543). -/
def State.dpFinish (b : State) : State :=
  let w := State.raise { b with cpr := { b.cpr with dpBusy := none, warmWaits := 0 }, rings := { b.rings with startsHeld := false } } 0x02C []
  if b.cpr.warmWaits = 0 then w else w.warmReset b.cpr.warmWaits

/-- DATAPATH_RESET_COMPLETE, its effects apart. -/
def dpComplete (effects : State → State) (s : State) : Out :=
  match s.cpr.dpBusy with
  | none => .next s
  | some t =>
    let s := if s.dpStarted then s.passTo (t + 100000) else s
    let s := effects s
    let w := s.cpr.warmWaits
    let s := s.withCpr { s.cpr with dpBusy := none, warmWaits := 0 }
    let s := ({ s with rings := { s.rings with startsHeld := false } }).raise 0x02C []
    .next (if w = 0 then s else s.warmReset w)

theorem dpComplete_eq (effects : State → State) (s : State) : dpComplete effects s =
    .next (s.cpr.dpBusy.elim s fun c => (effects (if s.dpStarted then s.passTo (c + 100000) else s)).dpFinish) := by
  unfold dpComplete
  cases s.cpr.dpBusy <;> rfl

theorem exec_datapathResetComplete (s : State) : exec .datapathResetComplete s =
    .next (s.cpr.dpBusy.elim s fun c => (if s.dpStarted then s.passTo (c + 100000) else s).dpEffects.dpFinish) :=
  dpComplete_eq State.dpEffects s

theorem exec_portBlockReset_runs {s : State} (h : s.halted = false) (v : Word32) :
    let n := v.toNat % 16
    let side := bits v.toNat 5 1
    let t := s.setReg 0x00200014 (BitVec.ofNat 32 (v.toNat % 64 &&& 0x2F))
    exec (.portBlockReset v) s = .next (if t.portBusy side n = true ∨ t.oddOfPair side n = true then
        t.raise 0x02D [BitVec.ofNat 8 side, BitVec.ofNat 8 n]
      else if side = 0 then t
      else t.setFacet n { FacetPort.reset with txMsgs := (t.facetPort n).txMsgs, txRest := (t.facetPort n).txRest }) := by
  intro n side t
  have hlow : (v.toNat ||| 2 ^ 31) % 64 = v.toNat % 64 := by
    rw [show 64 = 2 ^ 6 from rfl, Nat.or_mod_two_pow]
    exact Nat.or_zero _
  have hn : (v.toNat ||| 2 ^ 31) % 16 = n := by omega
  have hside : bits (v.toNat ||| 2 ^ 31) 5 1 = side := by
    simp only [side, bits, Nat.shiftRight_eq_div_pow]
    omega
  have hrow : exec (.portBlockReset v) s = .next (s.portReset (v.toNat ||| 2 ^ 31)) := if_neg (by rw [h]; exact Bool.false_ne_true)
  have hgo : ¬ ¬ bitOf (v.toNat ||| 2 ^ 31) 31 = true := not_not.mpr (bitOf_or_top _)
  rw [hrow, State.portReset, hlow, hn, hside]
  exact congrArg Host.Outcome.next (if_neg hgo)

/-- Settles O55: what a warm reset clears, by its frame; a datapath reset by what each of its parts leaves empty. -/
theorem warmDatapathAndPortResets : Obligations.WarmDatapathAndPortResets := by
  unfold Obligations.WarmDatapathAndPortResets
  refine ⟨fun s => ⟨rfl, exec_warmReset_reg s, fun v => ⟨s.warmReset_off v, s.warmReset_waits v, s.warmReset_runs v⟩, ?warm,
    State.bootCompare_skips, State.bootCompare_unverified⟩,
    ⟨fun s v h => exec_datapathReset_runs h v, fun s => ⟨fun h => ?none, fun c h => ?some⟩, fun s => ?dp⟩,
    fun s v h => ?port⟩
  case warm =>
    have hw := s.warmEffects_warms
    refine ⟨?_, ?_, ?_, ?_, ?_, ?_, s.warmEffects_held, ?_, s.warmEffects_ring, ?_, ?_, ?_, ?_, ?_, ?_, ?_, ?_, ?_, ?_, ?_, ?_, ?_, ?_,
      State.warmEffects_idle⟩
    all_goals rw [hw]
  case none => rw [exec_datapathResetComplete, h, Option.elim_none]
  case some =>
    rw [exec_datapathResetComplete, h, Option.elim_some]
    generalize (if s.dpStarted = true then s.passTo (c + 100000) else s).dpEffects = b
    rfl
  case dp =>
    have hclears := s.dpCleared.cutQueues.dpRest_clears
    have hannulus := s.dpCleared.cutQueues_annulus
    rw [← State.dpRest_annulus, ← State.dpEffects_eq] at hannulus
    rw [← State.dpEffects_eq] at hclears
    obtain ⟨hframes, hqueues, hmode, hchallenge⟩ := hclears
    refine ⟨hframes, hqueues, hmode, hannulus.1, hannulus.2, hchallenge, fun c hc k => s.dpEffects_thread hc k,
      fun n hn => s.dpEffects_items hn, fun id h1 h2 => ?_⟩
    rw [State.dpEffects_eq]
    exact State.dpRest_counter _ h1 h2
  case port =>
    have hrow := exec_portBlockReset_runs h v
    refine ⟨fun hs hb => ?_, fun hs hb => ?_, fun hb => ?_⟩
    · have hne : ¬ bits v.toNat 5 1 = 0 := by omega
      exact hrow.trans (congrArg Host.Outcome.next ((if_neg hb).trans (if_neg hne)))
    · exact hrow.trans (congrArg Host.Outcome.next ((if_neg hb).trans (if_pos hs)))
    · exact hrow.trans (congrArg Host.Outcome.next (if_pos hb))

end Sys2Proof.Machine
end

section
namespace Sys2Proof.Machine

/-! Supply, temperature, clock failures, the boot of Apex and entropy (R46, R83, R531, R534 to R538, R549). -/

/-! ### Supply -/

section
variable (s : State)

theorem State.pauseWrites_frame : s.pauseWrites = { s with freeCount := s.pauseWrites.freeCount, apex := s.pauseWrites.apex } := by
  unfold State.pauseWrites
  split
  · rfl
  · split
    · dsimp only
      split <;> rfl
    · rfl

theorem State.pauseWrites_of_none (h : s.apex.heldWrite.isSome = true ∨ ∀ m, s.writesOf m = none) : s.pauseWrites = s := by
  unfold State.pauseWrites
  by_cases hheld : s.apex.heldWrite.isSome = true
  · exact if_pos hheld
  · have hnone : [Mbx.compass, Mbx.debugPort].find? (fun m => (s.writesOf m).isSome) = none :=
      List.find?_eq_none.mpr fun m _ => by rw [h.resolve_left hheld m]; exact Bool.false_ne_true
    refine (if_neg hheld).trans ?_
    rewrite [hnone]
    rfl

/-- The first rail that warns pauses a write under way. -/
def State.warned (s : State) (r : Nat) : State :=
  State.withCpr (if s.railWarns then s else s.pauseWrites) { s.cpr with warn := tins s.cpr.warn r s.clk }

theorem State.warned_eq (r : Nat) : s.warned r =
    (if s.railWarns then s else s.pauseWrites).withCpr { (if s.railWarns then s else s.pauseWrites).cpr with
      warn := tins (if s.railWarns then s else s.pauseWrites).cpr.warn r (if s.railWarns then s else s.pauseWrites).clk } := by
  have hcpr : (if s.railWarns then s else s.pauseWrites).cpr = s.cpr := by
    split
    · rfl
    · rw [State.pauseWrites_frame]
  have hclk : (if s.railWarns then s else s.pauseWrites).clk = s.clk := by
    split
    · rfl
    · rw [State.pauseWrites_frame]
  rw [State.warned, hcpr, hclk]

end

/-- A rail that Table 23.3 does not monitor, or a part in reset. -/
def Unwatched (s : State) (r : Nat) : Prop := s.apex.held = true ∨ railMonitored r = false

section
variable (s : State) (rail : Rail)

theorem exec_railWarningEntry_stays (h : Unwatched s rail.id.val ∨ (s.cpr.warn.lookup rail.id.val).isSome = true) :
    exec (.railWarningEntry rail) s = .next s :=
  if_pos (h.elim (fun h => h.imp_right fun hr => .inl (Bool.eq_false_iff.mp hr)) fun hw => .inr (.inr hw))

theorem exec_railWarningEntry_warns (h : ¬ Unwatched s rail.id.val) (hw : s.cpr.warn.lookup rail.id.val = none) :
    exec (.railWarningEntry rail) s = .next (((s.warned rail.id.val).draw 16).2.raise 0x020
      (BitVec.ofNat 8 rail.id.val :: le 2 ((s.warned rail.id.val).draw 16).1)) := by
  have hnew : ¬ (s.cpr.warn.lookup rail.id.val).isSome = true := by rw [hw]; exact Bool.false_ne_true
  rw [State.warned_eq]
  exact if_neg fun hn => hn.elim (fun hh => h (.inl hh)) fun hn => hn.elim (fun hr => h (.inr (Bool.eq_false_iff.mpr hr))) hnew

theorem exec_railWarningExit_none (h : s.cpr.warn.lookup rail.id.val = none) : exec (.railWarningExit rail) s = .next s := by
  show execRailWarningExit rail s = _
  unfold execRailWarningExit
  dsimp only
  rewrite [h]
  rfl

theorem exec_railWarningExit_some {since : Nat} (h : s.cpr.warn.lookup rail.id.val = some since) :
    let u := (s.withCpr { s.cpr with warn := tdel s.cpr.warn rail.id.val }).raise 0x021 (BitVec.ofNat 8 rail.id.val :: le 8 (s.clk - since))
    exec (.railWarningExit rail) s =
      .next (if u.cpr.warn ≠ [] then u else if u.apex.bootWaits then u.bootApex else u.resumeIntent.resumeHeld.resumeCkpt) := by
  show execRailWarningExit rail s = _
  unfold execRailWarningExit
  dsimp only
  rewrite [h]
  rfl

theorem State.raise_cpr (ev : Nat) (data : List Byte) : (s.raise ev data).cpr = s.cpr := by rw [s.raise_posts ev data]

theorem exec_overVoltage_stays (h : Unwatched s rail.id.val) : exec (.overVoltage rail) s = .next s :=
  if_pos (h.imp_right Bool.eq_false_iff.mp)

theorem exec_overVoltage_raises (h : ¬ Unwatched s rail.id.val) : exec (.overVoltage rail) s =
    .next ((s.withCpr { s.cpr with overV := s.cpr.overV ||| (1#12 <<< rail.id.val) }).raise 0x023 [BitVec.ofNat 8 rail.id.val]) :=
  if_neg fun hn => h (hn.imp_right Bool.eq_false_iff.mpr)

end

/-! ### Temperature -/

theorem exec_temperatureSample (high low : BitVec 10) (s : State) : exec (.temperatureSample high low) s =
    .next (if s.apex.held then s else (s.passTo s.cpr.tempDue).tempSample high low) := (apply_ite Host.Outcome.next _ _ _).symm

/-- The registers of a temperature sample (R537, Table 23.13). -/
def State.tempRegs (s : State) (high low : BitVec 10) : State :=
  s.withCpr { s.cpr with
    tempMax := high, tempHwm := some (match s.cpr.tempHwm with
      | some h => if h.toInt < high.toInt then high else h
      | none => high)
    hot := if s.cpr.hot then decide (105 ≤ high.toInt) else decide (110 ≤ high.toInt), cold := decide (low.toInt < -5)
    tempDue := s.clk + 100000, coolSince := if high.toInt < 100 then some (s.cpr.coolSince.getD s.clk) else none }

theorem State.tempSample_eq (s : State) (high low : BitVec 10) : s.tempSample high low =
    (let u := if s.cpr.hot = true ∧ high.toInt < 105 then (s.tempRegs high low).raise 0x029 []
      else if ¬ s.cpr.hot = true ∧ 110 ≤ high.toInt then (s.tempRegs high low).raise 0x028 [] else s.tempRegs high low
    if ¬ s.cpr.cold = true ∧ low.toInt < -5 then u.raise 0x02B [] else u) := by
  unfold State.tempSample State.tempRegs hotter
  rfl

/-- The bounds of HOT: it falls below 105 °C where it stands and rises from 110 °C where it does not. -/
theorem State.tempSample_hot (s : State) (high low : BitVec 10) : s.tempSample high low =
    (let hot := if s.cpr.hot then decide (105 ≤ high.toInt) else decide (110 ≤ high.toInt)
    let u := if s.cpr.hot = true ∧ hot = false then (s.tempRegs high low).raise 0x029 []
      else if s.cpr.hot = false ∧ hot = true then (s.tempRegs high low).raise 0x028 [] else s.tempRegs high low
    if s.cpr.cold = false ∧ low.toInt < -5 then u.raise 0x02B [] else u) := by
  rw [State.tempSample_eq]
  generalize s.tempRegs high low = a
  cases s.cpr.hot <;> cases s.cpr.cold <;> simp

/-- A part that is held by a thermal trip from now on. -/
def State.tripped (u : State) : State :=
  { u with cpr := { u.cpr with trip := some u.clk, coolSince := none, dpBusy := none, warmWaits := 0 }
           rings := { u.rings with startsHeld := false } }

theorem State.tripped_tess (u : State) : u.tripped.tess = u.tess := rfl

theorem State.tripped_ring (u : State) (k : RingKind) (r : Nat) : u.tripped.ring k r = u.ring k r := rfl

theorem State.tripped_apex (u : State) : u.tripped.apex = u.apex := rfl

/-- THERMAL_TRIP, the effects of its two resets apart. -/
def thermalTrip (datapath warm : State → State) (s : State) : Out :=
  if s.cpr.trip.isSome ∨ s.apex.held ∨ s.cpr.por then .next s
  else
    let s := warm (datapath s)
    let s := s.withCpr { s.cpr with trip := some s.clk, coolSince := none, dpBusy := none, warmWaits := 0 }
    .next { s with rings := { s.rings with startsHeld := false } }

theorem thermalTrip_trips (datapath warm : State → State) {s : State} (h : ¬ (s.cpr.trip.isSome = true ∨ s.apex.held = true ∨ s.cpr.por = true)) :
    thermalTrip datapath warm s = .next (warm (datapath s)).tripped := (if_neg h).trans rfl

theorem State.tripped_pins (u : State) : u.tripped.thermtripNPin = false ∧ u.tripped.lanesSquelched = true ∧ u.tripped.halted = true :=
  ⟨rfl, Bool.or_true _, Bool.or_true _⟩

section
variable (s : State)

theorem exec_thermalTrip : exec .thermalTrip s = thermalTrip State.dpEffects State.warmEffects s := rfl

theorem exec_thermalTrip_off (h : s.cpr.trip.isSome = true ∨ s.apex.held = true ∨ s.cpr.por = true) : exec .thermalTrip s = .next s := if_pos h

theorem exec_thermalTrip_trips (h : ¬ (s.cpr.trip.isSome = true ∨ s.apex.held = true ∨ s.cpr.por = true)) :
    exec .thermalTrip s = .next s.dpEffects.warmEffects.tripped := by
  rw [exec_thermalTrip, thermalTrip_trips _ _ h]

theorem State.dpEffects_frames : s.dpEffects.tess.frames = [] := by
  rw [State.dpEffects_eq]
  exact (State.dpRest_clears _).1

theorem State.warmEffects_tess : s.warmEffects.tess = s.tess := by rw [s.warmEffects_warms]

theorem State.warmEffects_rights : s.warmEffects.apex.rights = 0 := by rw [s.warmEffects_warms]

theorem State.tripped_rings (k : RingKind) (r : Nat) : (s.warmEffects.tripped.ring k r).state = .disabled := by
  rw [State.tripped_ring, State.warmEffects_ring]

theorem State.tripped_rights : s.warmEffects.tripped.apex.rights = 0 := by rw [State.tripped_apex, State.warmEffects_rights]

theorem State.tripped_frames : s.dpEffects.warmEffects.tripped.tess.frames = [] := by
  rw [State.tripped_tess, State.warmEffects_tess, State.dpEffects_frames]

/-- THERMAL_TRIP_RELEASE, with the wait before it and the comparison after it apart. -/
def tripRelease (wait : State → Nat → State) (boot : State → State) (s : State) : Out :=
  match s.cpr.trip, s.cpr.coolSince with
  | some t, some c =>
    let s := wait s (c + 100000000)
    let s := (s.withCpr { s.cpr with trip := none, tripped := true }).noteCause 0x02
    .next (boot (s.raise 0x02A (le 8 (s.clk - t))))
  | _, _ => .next s

section
variable (wait : State → Nat → State) (boot : State → State)

theorem tripRelease_none (h : s.cpr.trip = none ∨ s.cpr.coolSince = none) : tripRelease wait boot s = .next s := by
  unfold tripRelease
  rcases h with h | h
  · rewrite [h]
    rfl
  · rewrite [h]
    cases s.cpr.trip <;> rfl

theorem tripRelease_some {a c : Nat} (ha : s.cpr.trip = some a) (hc : s.cpr.coolSince = some c) :
    let p := wait s (c + 100000000)
    let w := p.withCpr { p.cpr with trip := none, tripped := true, cause := p.cpr.cause ||| 0x02 }
    tripRelease wait boot s = .next (boot (w.raise 0x02A (le 8 (p.clk - a)))) := by
  unfold tripRelease
  rewrite [ha, hc]
  rfl

end

theorem exec_thermalTripRelease : exec .thermalTripRelease s = tripRelease State.passTo State.bootCompare s := rfl

/-! ### Clock failures -/

theorem exec_memoryPllLoss (k : Fin 4) : exec (.memoryPllLoss k) s = .next (if s.cpr.pll.getLsbD k.val then
    State.raise { s with cpr := { s.cpr with pll := s.cpr.pll &&& (BitVec.allOnes 4 ^^^ (1#4 <<< k.val)) }
                         hull := { s.hull with up := s.hull.up &&& (BitVec.allOnes 4 ^^^ (1#4 <<< k.val)) } } 0x026
      [BitVec.ofNat 8 k.val] else s) := (apply_ite Host.Outcome.next _ _ _).symm

theorem exec_gnomonPllLoss : exec .gnomonPllLoss s = .next (if s.gnomon.pllLocked then
    (State.setGnomonMode { s with gnomon := { s.gnomon with pllLocked := false } } .holdover).raise 0x027 [] else s) :=
  (apply_ite Host.Outcome.next _ _ _).symm

theorem exec_gnomonPllRelock : exec .gnomonPllRelock s = .next (if s.gnomon.pllLocked then s else
    State.raiseSet { s with gnomon := { s.gnomon with pllLocked := true } } 0x027 true []) := (apply_ite Host.Outcome.next _ _ _).symm

end

/-! ### The boot of Apex -/

/-- From s to t neither what the boot waits for nor whether Axis serves changes. -/
structure Boots (s t : State) : Prop where
  booted : t.apex.booted = s.apex.booted
  bootWaits : t.apex.bootWaits = s.apex.bootWaits
  regionWaits : t.apex.regionWaits = s.apex.regionWaits
  serving : t.axis.serving = s.axis.serving

theorem Boots.refl (s : State) : Boots s s := ⟨rfl, rfl, rfl, rfl⟩

theorem Boots.trans {s t u : State} (h : Boots s t) (k : Boots t u) : Boots s u :=
  ⟨k.booted.trans h.booted, k.bootWaits.trans h.bootWaits, k.regionWaits.trans h.regionWaits, k.serving.trans h.serving⟩

theorem Boots.ite {s a b : State} {p : Prop} [Decidable p] (ha : Boots s a) (hb : Boots s b) : Boots s (if p then a else b) := by
  split
  case isTrue => exact ha
  case isFalse => exact hb

theorem Posts.boots {s t : State} (h : Posts s t) : Boots s t := by
  have happex : t.apex = s.apex := by rw [h]
  have haxis : t.axis = s.axis := by rw [h]
  exact ⟨by rw [happex], by rw [happex], by rw [happex], by rw [haxis]⟩

theorem State.raise_boots (s : State) (ev : Nat) (data : List Byte) : Boots s (s.raise ev data) := (s.raise_posts ev data).boots

theorem State.withApex_boots (s : State) {a : ApexState} (hb : a.booted = s.apex.booted) (hw : a.bootWaits = s.apex.bootWaits)
    (hr : a.regionWaits = s.apex.regionWaits) : Boots s (s.withApex a) := ⟨hb, hw, hr, rfl⟩

theorem State.measExtend_boots (s : State) (i : Nat) (digest : List Byte) : Boots s (s.measExtend i digest) := by
  rw [State.measExtend]
  exact State.withApex_boots _ rfl rfl rfl

/-- The boot loader is the alternate copy, which is reported. -/
theorem State.altCopy_boots (s : State) : Boots s ((s.withApex { s.apex with blAlt := true }).raise 0x006 []) := by
  refine Boots.trans ?_ (State.raise_boots _ _ _)
  exact State.withApex_boots _ rfl rfl rfl

/-- The patch is the alternate copy, which is reported. -/
theorem State.altPatch_boots (s : State) : Boots s ((s.withApex { s.apex with patchAlt := true }).raise 0x006 []) := by
  refine Boots.trans ?_ (State.raise_boots _ _ _)
  exact State.withApex_boots _ rfl rfl rfl

theorem State.placeBoot_boots (s : State) (i : Nat) : Boots s (s.placeBoot i) := by
  unfold State.placeBoot
  dsimp only
  refine Boots.trans ?_ (State.writeMem_stores _ _ _ _ _).posts.boots
  exact State.withApex_boots _ rfl rfl rfl

theorem State.loadPatch_boots (s : State) : Boots s s.loadPatch := by
  unfold State.loadPatch
  dsimp only
  refine Boots.ite (s.measExtend_boots _ _) (Boots.ite ?_ (s.measExtend_boots _ _))
  refine Boots.trans ?_ (State.altPatch_boots _)
  exact s.measExtend_boots _ _

theorem State.loadBoot_boots (s : State) : Boots s s.loadBoot := by
  unfold State.loadBoot
  refine Boots.ite (Boots.refl s) ?_
  split
  · exact State.withApex_boots _ rfl rfl rfl
  · dsimp only
    have hnoted : ∀ (dg : List Byte) (v : BitVec 384), Boots s ((s.measExtend 1 dg).withApex { (s.measExtend 1 dg).apex with bootDigest := v }) :=
      fun dg v => (s.measExtend_boots 1 dg).trans (State.withApex_boots _ rfl rfl rfl)
    refine Boots.trans (hnoted _ _) (Boots.trans (Boots.ite ?_ (Boots.refl _)) (State.placeBoot_boots _ _))
    exact State.altCopy_boots _

theorem State.bootRegion_boots (s : State) : Boots s s.bootRegion := ⟨rfl, rfl, rfl, rfl⟩

theorem State.bootMemory_boots (s : State) : Boots s s.bootMemory := by
  unfold State.bootMemory
  exact Boots.ite (s.bootRegion_boots.trans (State.loadBoot_boots _)) s.bootRegion_boots

theorem State.readLifecycle_boots (s : State) : Boots s s.readLifecycle := by
  have hresume : Boots s s.resumeIntent := by
    rw [State.resumeIntent_frame]
    exact ⟨rfl, rfl, rfl, rfl⟩
  unfold State.readLifecycle
  generalize s.resumeIntent = u at hresume ⊢
  exact Boots.ite (hresume.trans (State.withApex_boots _ rfl rfl rfl)) hresume

theorem State.buildRoot_boots (s : State) : Boots s s.buildRoot := by
  rw [State.buildRoot]
  exact State.withApex_boots _ rfl rfl rfl

theorem State.initMemory_boots (s : State) : Boots s s.initMemory := ⟨rfl, rfl, rfl, rfl⟩

theorem State.mbxUnknown_boots (s : State) (m : Mbx) : Boots s (s.mbxUnknown m) := by
  obtain ⟨c, d, l, h⟩ := s.mbxUnknown_frame m
  rw [h]
  exact ⟨rfl, rfl, rfl, rfl⟩

/-- The boot up to the memories. -/
def State.bootStarts (s : State) : State := (s.withApex { s.apex with bootWaits := false }).readLifecycle.buildRoot.loadPatch.initMemory

theorem State.bootStarts_boots (s : State) : Boots (s.withApex { s.apex with bootWaits := false }) s.bootStarts :=
  (State.readLifecycle_boots _).trans ((State.buildRoot_boots _).trans ((State.loadPatch_boots _).trans (State.initMemory_boots _)))

/-- The rest of the boot: DDR region 0 and the boot loader, then the requests that wait. -/
def State.bootEnds (s : State) : State :=
  let s := if s.axis.serving then s.bootMemory else s.withApex { s.apex with regionWaits := true }
  ((s.withApex { s.apex with booted := true }).mbxUnknown .compass).mbxUnknown .debugPort

/-- The boot waits for a rail before it resumes a transition. -/
def State.BootHeld (s : State) : Prop := s.openIntent.isSome = true ∧ s.railWarns = true

/-- The state after the requests that wait: booted, else as it was. -/
theorem State.booted_boots (u : State) : Boots (u.withApex { u.apex with booted := true })
    (((u.withApex { u.apex with booted := true }).mbxUnknown .compass).mbxUnknown .debugPort) :=
  (State.mbxUnknown_boots _ _).trans (State.mbxUnknown_boots _ _)

section
variable (s : State)

theorem State.bootEnds_booted : s.bootEnds.apex.booted = true := by
  unfold State.bootEnds
  exact (State.booted_boots _).booted

theorem State.bootEnds_bootWaits : s.bootEnds.apex.bootWaits = s.apex.bootWaits := by
  unfold State.bootEnds
  refine (State.booted_boots _).bootWaits.trans ?_
  show (if s.axis.serving = true then s.bootMemory else s.withApex { s.apex with regionWaits := true }).apex.bootWaits = _
  split
  · exact s.bootMemory_boots.bootWaits
  · rfl

theorem State.bootEnds_regionWaits (h : s.axis.serving = false) : s.bootEnds.apex.regionWaits = true := by
  have hoff : ¬ s.axis.serving = true := Bool.eq_false_iff.mp h
  unfold State.bootEnds
  rw [if_neg hoff]
  exact (State.booted_boots _).regionWaits

theorem State.bootApex_held (h : s.BootHeld) : s.bootApex = { s with apex := { s.apex with bootWaits := true } } := if_pos h

theorem State.bootApex_ends (h : ¬ s.BootHeld) : s.bootApex = s.bootStarts.bootEnds := by
  have hheld : ¬ (s.openIntent.isSome = true ∧ s.railWarns = true) := h
  unfold State.bootApex State.bootEnds State.bootStarts
  rw [if_neg hheld]

theorem State.bootApex_runs (h : ¬ s.BootHeld) : s.bootApex.apex.booted = true ∧ s.bootApex.apex.bootWaits = false ∧
    (s.axis.serving = false → s.bootApex.apex.regionWaits = true) := by
  have hstart := s.bootStarts_boots
  rw [s.bootApex_ends h]
  exact ⟨State.bootEnds_booted _, (State.bootEnds_bootWaits _).trans hstart.bootWaits,
    fun hs => State.bootEnds_regionWaits _ (hstart.serving.trans hs)⟩

/-- A part that takes no power-on release: one out of reset, held or booted. -/
def State.Released (s : State) : Prop := s.cpr.por = false ∨ s.apex.held = true ∨ s.apex.booted = true

theorem exec_powerOnResetRelease_stays (h : s.Released) : exec .powerOnResetRelease s = .next s :=
  if_neg fun ⟨hpor, hheld, hbooted⟩ => h.elim (fun hn => Bool.false_ne_true (hn.symm.trans hpor)) fun h => h.elim hheld hbooted

theorem exec_powerOnResetRelease_boots (h : ¬ s.Released) : exec .powerOnResetRelease s = .next (State.firstSeed
    { s with cpr := { s.cpr with por := false, straps := Config.straps &&& 0x3FF#12, pll := 15 }
             gnomon := { s.gnomon with pllLocked := true } }).bootApex := by
  have hon : s.cpr.por = true ∧ ¬ s.apex.held = true ∧ ¬ s.apex.booted = true :=
    ⟨Bool.eq_true_of_not_eq_false fun hn => h (.inl hn), fun hn => h (.inr (.inl hn)), fun hn => h (.inr (.inr hn))⟩
  exact if_pos hon

theorem State.firstSeed_of_ok (h : s.axis.entropyOk = true) : s.firstSeed = s := if_pos h

theorem State.firstSeed_of_not (h : s.axis.entropyOk = false) : s.firstSeed.axis.serving = false := by
  have hoff : ¬ s.axis.entropyOk = true := Bool.eq_false_iff.mp h
  unfold State.firstSeed
  rw [if_neg hoff]
  exact (State.raise_boots _ _ _).serving.trans (State.raise_boots _ _ _).serving

theorem exec_entropyHealthFail : exec .entropyHealthFail s = .next (if s.cpr.por = true ∨ s.apex.held = true
    then { s with axis := { s.axis with entropyOk := false } }
    else State.raise { s with axis := { s.axis with entropyOk := false, entropyFail := true } } 0x104 []) := (apply_ite Host.Outcome.next _ _ _).symm

theorem exec_entropyRecovery_serving (h : s.axis.serving = true) : exec .entropyRecovery s =
    .next { s with axis := { s.axis with entropyOk := true } } := if_pos h

theorem exec_entropyRecovery_stopped (h : s.axis.serving = false) :
    let u := { s with axis := { s.axis with entropyOk := true, serving := true, drbgCount := 0, sweepDue := s.clk } }
    exec .entropyRecovery s =
      .next (if s.apex.regionWaits then State.bootMemory { u with apex := { u.apex with regionWaits := false } } else u) :=
  if_neg (Bool.eq_false_iff.mp h)

end

/-- Settles O56: each row by its guards; what the boot leaves by a frame of each of its steps. -/
theorem supplyTemperatureAndClockEvents : Obligations.SupplyTemperatureAndClockEvents := by
  unfold Obligations.SupplyTemperatureAndClockEvents
  refine ⟨fun s rail => ⟨exec_railWarningEntry_stays s rail, exec_railWarningEntry_warns s rail, s.pauseWrites_of_none,
      exec_railWarningExit_none s rail, fun since h => ⟨exec_railWarningExit_some s rail h, ?_⟩, exec_overVoltage_stays s rail,
      exec_overVoltage_raises s rail⟩,
    fun s => ⟨fun high low => ⟨exec_temperatureSample high low s, s.tempSample_hot high low⟩,
      ⟨exec_thermalTrip_off s, fun h => ⟨exec_thermalTrip_trips s h, ?_⟩⟩, fun h => (exec_thermalTripRelease s).trans (tripRelease_none s _ _ h),
      fun a c ha hc => (exec_thermalTripRelease s).trans (tripRelease_some s _ _ ha hc)⟩,
    fun s => ⟨exec_memoryPllLoss s, exec_gnomonPllLoss s, exec_gnomonPllRelock s⟩,
    fun s => ⟨⟨exec_powerOnResetRelease_stays s, fun h => ⟨exec_powerOnResetRelease_boots s h, State.bootApex_held _, State.bootApex_runs _⟩⟩,
      ⟨s.firstSeed_of_ok, s.firstSeed_of_not⟩, exec_entropyHealthFail s, exec_entropyRecovery_serving s, exec_entropyRecovery_stopped s⟩⟩
  · rw [State.raise_cpr]
    rfl
  · obtain ⟨hpin, hlanes, hhalted⟩ := s.dpEffects.warmEffects.tripped_pins
    exact ⟨hpin, hlanes, s.tripped_frames, hhalted, s.dpEffects.tripped_rings, s.dpEffects.tripped_rights⟩

end Sys2Proof.Machine
end
